-- ==== Sys2Proof/Word.lean ====
section
/-! DEFINITION. The words of the SPN-5120 and the sparse map in which its arrays of like things are held. -/

namespace Sys2Proof

/-- One byte of the device address map (spec 11 R285). -/
abbrev Byte := BitVec 8
/-- The native word, a register of a page or of an engine (spec 04 R116, 14 R366). -/
abbrev Word := BitVec 32
/-- A 64-bit port value or stroke count (spec 04 R116, 01 R28). -/
abbrev DWord := BitVec 64
/-- A 128-bit bundle (spec 04 R102). -/
abbrev Bundle := BitVec 128
/-- A 256-bit Palette word, microword or vector register (spec 03 R87, 07 R192, 06 R167). -/
abbrev Wide := BitVec 256

/-- A family of like things indexed by a number, held as the list of the entries that differ from
the value they have at reset, with strictly rising keys. -/
abbrev SMap (α : Type) := List (Nat × α)

end Sys2Proof
end

