-- ==== Sys2Proof/Syntax.lean ====
section
/-! DEFINITION. The commands of the block: one constructor of Instr for every row of spec/opcode_table.json.
The table gives the rows no operands; they are the model's (log 1). -/

namespace Sys2Proof

/-- A channel CH0-CH511 (spec 01 R16). -/
abbrev Ch := Fin 512
/-- A lane L0-L63 (spec 01 R16). -/
abbrev Ln := Fin 64
/-- A cluster C0-C7 (spec 01 R17). -/
abbrev Cl := Fin 8
/-- A tile T0-T7 (spec 01 R15). -/
abbrev Tile := Fin 8
/-- A management domain D0-D13 (spec 01 R20). -/
abbrev Dom := Fin 14
/-- An Amibin port P0-P7 (spec 13 R335). -/
abbrev PortNo := Fin 8

/-- A programmable engine (spec 04 R115). -/
inductive EngId where
  | core (n : Ch)
  | thread (l : Ln) (t : Fin 8)
  | pair (p : Fin 2)
  deriving DecidableEq, Repr

/-- The masters that reach a page or a memory (spec 11 R309 MASTER encoding; tileSeq is the tile calibration
sequencer of 18 R463, which the encoding does not list). -/
inductive Master where
  | mcA | mcB | pcie | agent | tongs | temper | patina
  | lane (l : Ln)
  | tileSeq (t : Tile)
  deriving DecidableEq, Repr

/-- Why a domain is lost (spec 01 R21). -/
inductive LossCause where
  | powerGood | reset | isolated
  deriving DecidableEq, Repr

/-- The error kinds of BUS_ERROR and of matrix responses (spec 08 R217). -/
inductive BusKind where
  | decode | timeout | target | domain | ecc
  deriving DecidableEq, Repr

/-- What an ECC check finds in a word that is read (spec 11 R289, 07 R191). -/
inductive EccOutcome where
  | clean | corrected | uncorrectable
  deriving DecidableEq, Repr

/-- What an access of an engine's own meets where the state of its target allows it: on the bus matrix (spec 11 R289, R294, R300) the
fetch of a bundle, or the stacking or reading back of a context (spec 08 R218, R220); in a memory that it reads directly, the word of a
load (spec 05 R147, 15 R406). -/
inductive AccessErr where
  | fetch (k : BusKind)
  | stack (k : BusKind)
  | word (o : EccOutcome)
  deriving DecidableEq, Repr

/-- The four microcode sequencers (spec 07 R189). -/
inductive SeqId where
  | fm (l : Ln) | sk (l : Ln) | fp (k : Cl) | wd (k : Cl)
  deriving DecidableEq, Repr

/-- A control store (spec 07 R189). -/
inductive StoreId where
  | lane (l : Ln) | cluster (k : Cl)
  deriving DecidableEq, Repr

/-- What patrol scrub reads (spec 15 R403, 11 R289, 07 R191, 17 R446). -/
inductive ScrubTarget where
  | memory (addr : BitVec 48)
  | hbm (s : Fin 4) (addr : BitVec 48)
  | palette (c : Ch) (easel : Bool) (w : Byte)
  | store (st : StoreId) (w : BitVec 13)
  | passEnd
  deriving DecidableEq, Repr

/-- How a target answers a matrix transaction that the path and the power state allow (spec 11 R289, R300): corrected is a read that
found a single-bit error. -/
inductive TargetAnswer where
  | ok | busy | corrected | ecc
  deriving DecidableEq, Repr

/-- The regions that have a power state (spec 11 R301). -/
inductive Region where
  | host | fabric | secure
  | lane (l : Ln)
  | cluster (k : Cl)
  deriving DecidableEq, Repr

/-- The causes of a secure-bank wipe that come from outside (spec 11 R303). TAMPER_N is asserted and stays so (tamperN), is asserted and
deasserted again (tamperPulse), or an assertion that stayed is over (tamperOver), which starts no wipe (18 R469). -/
inductive WipeCause where
  | tamperN | tamperPulse | tamperOver | glitch | lid | lifecycle
  deriving DecidableEq, Repr

/-- What EMSTOP_N does (15 R392): it is asserted for less than 2 ns; for 2 ns or more and deasserted again; for 2 ns or more and
stays asserted; or an assertion that stayed is over. -/
inductive PinPulse where
  | short | pulse | held | released
  deriving DecidableEq, Repr

/-- A frame of the Amibin fabric (spec 13 R337); its LEN is the length of its payload. -/
structure Frame where
  dst : BitVec 16
  src : BitVec 16
  vc : BitVec 3
  type : BitVec 5
  lseq : BitVec 12
  tag : BitVec 12
  ttl : BitVec 6
  db : Bool
  addr : BitVec 48
  payload : List Byte
  deriving DecidableEq, Repr

/-- A link control block (spec 13 R340): the cumulative acknowledgement, the resend requests made so far and, for each buffer class (twice the
virtual channel, and one more for DB = 1 in torus mode), the buffer space returned so far, both counted since training: a block says all
that a lost one said. -/
structure LinkBlock where
  ack : BitVec 12
  requests : Nat
  credits : List (Nat × Nat)
  nbr : BitVec 16
  nport : PortNo
  deriving DecidableEq, Repr

/-- The codewords that a port decoded since the last frame or block (spec 13 R336, R365): those it corrected and those it could not. -/
structure FecCount where
  corrected : Nat
  lost : Nat
  deriving DecidableEq, Repr

/-- A deviation monitor of the coverage table (spec 15 R403). -/
inductive Monitor where
  | dac (c : Ch) | edge (c : Ch) | eventChecker (c : Ch) | drift (c : Ch)
  | vref (t : Tile) (code : BitVec 16)
  | tpllLock (t : Tile)
  | domainClock (d : Dom)
  | tmr (page : BitVec 14) (off : BitVec 12)
  | engineLogic (e : EngId)
  | strokeFifo (c : Ch)
  | compareResult (c : Ch)
  | matrixParity (m : Master)
  | crossing (d : Dom)
  | paletteWord (c : Ch) (o : EccOutcome)
  deriving DecidableEq, Repr

/-- An event offered to Patina (spec 16 R410). -/
structure PatEvent where
  code : BitVec 16
  sev : BitVec 4
  src : BitVec 16
  fid : Bool
  payload : List Byte
  deriving DecidableEq, Repr

/-- A signed manifest (spec 18 R452; 17 R439): the component, its version, the length of its content and, for other components, the
versions with which it was tested. -/
structure Manifest where
  comp : Nat
  version : BitVec 32
  len : Nat
  tested : List (Nat × BitVec 32)
  deriving DecidableEq, Repr, Inhabited

/-- What the boot ROM and the management firmware find when they start the device (spec 17 R432-R435, 18 R454) and the memories do not
tell: the verdicts on the image slots, the loads and the training. slots lists the image slots that hold an image,
by 2 * component + 1 for slot B, each with its manifest where the image passed its signature check; host is the manifest of an image in
the host bank. -/
structure BootFind where
  slots : List (Nat × Option Manifest)
  host : Manifest
  tileBad : BitVec 8
  laneBad : List Nat
  clusterBad : List Nat
  stackBad : BitVec 4
  deriving DecidableEq, Repr, Inhabited

/-- One engine's part of a program image (spec 09 R248): its code and data bytes, descriptors and FSP. -/
structure EngineImage where
  eng : EngId
  bytes : List (Nat × Byte)
  descs : List (Nat × BitVec 48 × BitVec 32 × BitVec 5)
  fsp : BitVec 32
  deriving DecidableEq, Repr

/-- What the manifest of a program image assumes (spec 09 R248): the stepping, the management firmware versions it accepts, the lane and
cluster microcode versions and the customer control-store version. -/
structure Assumed where
  stepping : Byte
  firmware : List (BitVec 32)
  laneCode : BitVec 32
  clusterCode : BitVec 32
  skVer : BitVec 32
  deriving DecidableEq, Repr

/-- A program image as the program-load service finds it in its bank (spec 09 R248): the manual gives no byte layout. -/
structure Image where
  signed : Bool
  sigOk : Bool
  assumed : Assumed
  budget : List Nat
  channels : List Nat
  engines : List EngineImage
  deriving DecidableEq, Repr

/-- A firmware image offered to the update service (spec 18 R452, R458, R467): whether it is signed, the verdicts on its signature, on its
manifest and stepping, and on its slot when it is read back. -/
structure UpdateImage where
  signed : Bool
  sigOk : Bool
  manifestOk : Bool
  manifest : Manifest
  readbackOk : Bool
  deriving DecidableEq, Repr

/-- Whether an update runs to its end, stops with its journal open after the step given, in step 2 after the chunks given, or in step 5
after the blocks given (spec 18 R458). -/
inductive UpdateCut where
  | none
  | after (step : Nat)
  | copying (chunks : Nat)
  | activating (blocks : Nat)
  deriving DecidableEq, Repr

/-- TAP instructions (spec 19 R484). -/
inductive TapInstr where
  | bypass | idcode | sample | extest | clamp | highz | extestPulse | extestTrain
  deriving DecidableEq, Repr

/-- The rows of the Temper targets table (spec 18 R460). -/
inductive TemperTarget where
  | mcPair (p : Fin 2)
  | channel (c : Ch)
  | lane (l : Ln)
  | cluster (k : Cl)
  | port (p : PortNo)
  deriving DecidableEq, Repr

/-- The reset pins and link events of the PCIe row of the resets table (spec 17 R429). -/
inductive PcieResetKind where
  | perst | hot | linkDown
  deriving DecidableEq, Repr

/-- The BARs (spec 19 R473), and the configuration space of the function: of it the model holds the word of MSX_STAT (R479, log 40), the power
state, the ASPM control and the status of AER (R472, log 192). -/
inductive Bar where
  | bar0 | bar2 | bar4 | config
  deriving DecidableEq, Repr

/-- The commands, in the order of spec/opcode_table.json. -/
inductive Instr where
  | domainLoss (d : Dom) (c : LossCause)
  | strokeBoundary (k : Cl)
  | symbolDelivery (c : Ch)
  | creditReturn (c : Ch)
  | streamStopReachesLane (c : Ch)
  | modeChange (c : Ch) (m : Master) (v : Word)
  | modeChangeIntervalEnd (c : Ch)
  | pmuRampEnd (c : Ch)
  | functionSwitchTimerExpiry (c : Ch)
  | srcChangeInLane (c : Ch)
  | pmuTrigger (c : Ch) (m : Master) (v : Word)
  | pmuSamplingStart (c : Ch)
  | pmuMeasurementDone (c : Ch) (sum : Int) (ovr : Bool)
  | clampOnset (c : Ch)
  | tdcCrossing (c : Ch) (ofs : BitVec 40) (thr : Fin 3) (falling : Bool)
  | tdcPop (c : Ch) (m : Master) (v : Word)
  | rcReadClear (page : BitVec 14) (off : BitVec 12) (m : Master)
  | registerWrite (page : BitVec 14) (off : BitVec 12) (m : Master) (v : Word)
  | clSperWrite (k : Cl) (hi : Bool) (m : Master) (v : Word)
  | timebaseEnable (k : Cl) (m : Master)
  | timebaseDisable (k : Cl) (m : Master)
  | strokeCountRead (k : Cl) (m : Master)
  | paletteEvent (c : Ch) (volts : Int) (strayed : Bool)
  | compareResultArrival (c : Ch)
  | palRead (l : Ln) (m : Master)
  | palWrite (l : Ln) (m : Master)
  | palCommandDone (l : Ln)
  | bundleIssue (e : EngId) (err : Option AccessErr)
  | repeatIteration (e : EngId) (err : Option AccessErr)
  | delayExpiry (e : EngId)
  | unitResultWriteback (e : EngId) (unit : BitVec 13)
  | storeAcknowledge (e : EngId)
  | storeBusError (e : EngId) (kind : BusKind)
  | emitWaitFault (e : EngId) (err : Option BusKind)
  | asynchronousEntry (e : EngId) (err : Option BusKind)
  | interruptEntry (e : EngId) (err : Option BusKind)
  | residueError (e : EngId) (parity : Bool) (sock : BitVec 13)
  | threadEnable (l : Ln) (m : Master) (t : Fin 8)
  | threadDisable (l : Ln) (m : Master) (t : Fin 8)
  | addressHistoryLookup (c : Ch)
  | microwordExecute (q : SeqId) (ecc : EccOutcome)
  | microwordWaitTimeout (q : SeqId)
  | sketchResultsReady (l : Ln)
  | sketchWatchdogExpiry (l : Ln)
  | begin (st : StoreId) (m : Master) (v : Word)
  | loadDataWrite (st : StoreId) (m : Master) (v : Word)
  | commit (st : StoreId) (m : Master)
  | commitComplete (st : StoreId) (version : BitVec 32)
  | abort (st : StoreId) (m : Master)
  | patrolScrubRead (t : ScrubTarget) (o : EccOutcome)
  | ecOperationComplete (p : Fin 2)
  | anvilReportReceived
  | queueDataArrival (e : EngId) (ecc : EccOutcome)
  | expectedMarkCheck (k : Cl)
  | markMismatchStopArrival (c : Ch)
  | failPipelineTakeEvent (k : Cl) (lp : Fin 8)
  | recordCloseTimeout (k : Cl) (lp : Fin 8)
  | bufferRequest (k : Cl)
  | bufferDone (k : Cl)
  | siteCounterUpdate (l : Ln)
  | init (k : Cl) (m : Master)
  | flush (k : Cl) (m : Master)
  | flushComplete (k : Cl)
  | ovclr (k : Cl) (m : Master)
  | clFreeWrite (k : Cl) (m : Master) (v : Word)
  | clDonePopWrite (k : Cl) (m : Master) (v : Word)
  | siteCounterSelect (k : Cl) (m : Master) (site : BitVec 7)
  | siteCounterClear (k : Cl) (m : Master) (site : BitVec 7)
  | weldRecord (k : Cl)
  | start (k : Cl) (m : Master)
  | weldStartComplete (k : Cl)
  | stop (k : Cl) (m : Master)
  | solve (k : Cl) (m : Master) (site : BitVec 7)
  | weldSolveRegion (k : Cl) (exceeded : Bool)
  | clear (k : Cl) (m : Master) (site : BitVec 7)
  | weldReplay (k : Cl) (m : Master) (v : Word)
  | weldSummarySelect (k : Cl) (m : Master) (site : BitVec 7)
  | matrixTransaction (m : Master) (id : BitVec 4) (write : Bool) (addr : BitVec 48) (data : List Byte)
  | matrixResponse (n : Nat) (a : TargetAnswer)
  | matrixTimeout (n : Nat)
  | memoryPowerRequest (off : BitVec 12) (m : Master) (v : Word)
  | memoryPowerTransitionDone (r : Region)
  | secureWipeStart (c : WipeCause)
  | secureWipeComplete
  | mramLineProgrammed (bank : Fin 2)
  | remap (m : Master)
  | go (c : Fin 8) (m : Master) (v : Word)
  | tongsTransferEnd (c : Fin 8)
  | tongsAbort (c : Fin 8) (m : Master)
  | hang (m : Master) (v : Word)
  | hangDecision (fabric : Bool)
  | hangPageSwitch (slot : Fin 8) (page : BitVec 14)
  | cancel (m : Master) (v : Word)
  | copy (m : Master) (v : Word)
  | copyComplete
  | snapshotStart (m : Master) (v : Word)
  | snapshotCapture (err : Option BusKind)
  | snapshotComplete (err : Option BusKind)
  | portTrainingComplete (p : PortNo) (nbr : BitVec 16) (nport : PortNo)
  | portFault (p : PortNo)
  | retrain (p : PortNo) (m : Master)
  | frameReceive (p : PortNo) (wire : List Byte) (fec : FecCount)
  | linkControlBlockSend (p : PortNo)
  | linkControlBlockReceive (p : PortNo) (b : LinkBlock) (fec : FecCount)
  | rdReq | wrReq | pgRd | pgWr | brdReq | bwrReq | rsp
  | disc | discRsp | assign | assignRsp
  | tsync (arrival : BitVec 64)
  | tsyncSend (p : PortNo)
  | hangBc | hangCancel | hangRpl | notice
  | fbNodeWrite (m : Master) (v : Word)
  | fbrtDataAccess (m : Master) (wr : Option Word)
  | transactionRingProduce (m : Master) (v : Word)
  | transactionIssue
  | transactionTimeout (tag : BitVec 12)
  | send (m : Master) (v : Word)
  | emergencyBlockReceive (p : PortNo) (lanes : List (List (BitVec 128)))
  | timeHoldover
  | ftSet (m : Master)
  | ftPpsEdge
  | pgIrqSetWrite (page : BitVec 14) (m : Master) (v : Word)
  | pgFaultAckWrite (page : BitVec 14) (m : Master) (v : Word)
  | wmHitsClear (page : BitVec 14) (n : Fin 4) (m : Master) (v : Word)
  | msixMessage (page : BitVec 14)
  | energyEvaluation (c : Ch) (mV uA : Int)
  | overvoltDwellExpiry (c : Ch) (volts : Int)
  | clampLimitExpiry (c : Ch)
  | quenchRelease (t : Tile) (hi : Bool) (m : Master) (v : Word) (volts : List Int)
  | emstopPinAssert (p : PinPulse)
  | estop (m : Master) (v : Word)
  | emergencyLatchClear (m : Master) (v : Word)
  | tripPathDisagree (c : Option Ch)
  | coverageMonitorCheck (w : Monitor) (deviates : Bool)
  | anvAckWrite (m : Master) (v : Word)
  | anvCloseWrite (m : Master) (v : Word)
  | patinaEventIntake (ev : PatEvent)
  | patinaRecordWrite
  | ptSubmitWrite (m : Master) (v : Word)
  | tokenGain (code : BitVec 16) (sameCycle : Option PatEvent)
  | patinaFlushStart
  | patinaFlushComplete
  | patinaFlush (m : Master)
  | freeze (m : Master)
  | thaw (m : Master)
  | patinaClear (m : Master)
  | ptRlcfgWrite (m : Master) (v : Word)
  | opsecTick
  | powerOnReset (b : BootFind)
  | deviceReset (b : BootFind)
  | device (m : Master) (v : Word)
  | domainReset (m : Master) (v : Word) (b : BootFind)
  | domainRestart (d : Dom) (ok : Bool)
  | pcieReset (r : PcieResetKind)
  | devBootdbWrite (m : Master) (v : Word) (verdict : BitVec 2) (b : BootFind)
  | bellowsStart (railMonitor : Bool)
  | jdone (m : Master) (v : Word)
  | journalWindowExpiry
  | bellowsStop
  | brownoutRestart (b : BootFind)
  | hbmRetrain (t : Fin 4) (m : Master) (v : Word)
  | thermalWarn (sensor : Fin 14) (temp : BitVec 16)
  | thermalTrip (sensor : Fin 14) (temp : BitVec 16)
  | thermalRecovery (temps : List (BitVec 16))
  | failover (stuck : Bool) (b : BootFind)
  | switch (m : Master) (p : Fin 2)
  | stage (m : Master) (p : Fin 2)
  | reint (m : Master) (p : Fin 2) (pass : Bool)
  | temperTestStart (t : TemperTarget)
  | temperAbort
  | temperTestEnd (pass : Bool)
  | full (m : Master)
  | incr (m : Master) (v : Word)
  | primerStop (m : Master)
  | primerCommit (consts : List (Nat × Nat × BitVec 32))
  | pcieReadRequest (bar : Bar) (off : BitVec 37) (len : BitVec 13) (relaxed : Bool) (tag : BitVec 10)
  | pcieWriteRequest (bar : Bar) (off : BitVec 37) (data : List Byte)
  | functionLevelReset
  | pciDbWrite (m : Master) (v : Word)
  | fbSvcdbWrite (m : Master) (src : BitVec 16) (v : Word)
  | programLoad (fab : Bool) (slot : Fin 32) (img : Image)
  | update (fab : Bool) (slot : Fin 32) (img : UpdateImage) (cut : UpdateCut)
  | primer (fab : Bool) (slot : Fin 32)
  | patinaClearService (fab : Bool) (slot : Fin 32)
  | patinaCmd (fab : Bool) (slot : Fin 32)
  | lifecycle (fab : Bool) (slot : Fin 32) (sigBorindam sigCustomer : Bool) (target : BitVec 2) (fuseKey : Bool)
  | mc (fab : Bool) (slot : Fin 32) (pass : Bool)
  | memPower (fab : Bool) (slot : Fin 32)
  | domainResetService (fab : Bool) (slot : Fin 32)
  | temper (fab : Bool) (slot : Fin 32)
  | badService (fab : Bool) (slot : Fin 32)
  | msixUnmask (vec : Byte)
  | smbusStatusRead
  | smbusTemperatureRead
  | smbusPowerRead
  | smbusRegisterRead (addr : Word) (inTime : Bool)
  | smbusEstop (data : List Byte)
  | smbusPecError (stopped : Bool)
  | jtagInstructionLoad (i : TapInstr)
  | jtagTestLogicReset
  | clampRelease (c : Ch) (long : Bool)
  | watermarkPeriodicSample (page : BitVec 14) (n : Fin 4)
  | domainPowerGoodReturn (d : Dom)
  | pcieLinkUp (width : BitVec 4) (speed : BitVec 4) (flit : Bool)
  | hbmTrainingComplete (t : Fin 4) (ok : Bool)
  | bellowsCapCharged (uF : BitVec 16) (volts49 : Bool)
  | holdUpExhausted
  | portPartnerPresent (p : PortNo)
  | ftPpsOutPulse
  | thermalWarnClear (temps : List (BitVec 16))
  | smbusClockLowTimeout (write : Bool)
  | smbusAlertResponse
  deriving DecidableEq, Repr

end Sys2Proof
end

