-- ==== Sys2Proof/Decode.lean ====
section
/-! DEFINITION. The table's bits: spec/opcode_table.json gives no row of this block any bits, so no word spells a command. -/

namespace Sys2Proof

/-- The command that a word spells by the bits of the opcode table: none, since the table gives its rows no bits. -/
def decodeTableWord (_nbits _w : Nat) : Option Instr := none

end Sys2Proof
end

