-- ==== Sys2Proof/Machine/Bits.lean ====
section
/-! DEFINITION. Bit fields, byte order and sparse maps: the helpers every other file of the machine uses. -/

namespace Sys2Proof.Machine

/-- Bits [hi:lo] of a word as a number (spec 00 R5). -/
def fld (w : Word) (hi lo : Nat) : Nat := w.toNat / 2 ^ lo % 2 ^ (hi + 1 - lo)

/-- The word with bits [hi:lo] set to v. -/
def setFld (w : Word) (hi lo v : Nat) : Word :=
  BitVec.ofNat 32 (w.toNat / 2 ^ (hi + 1) * 2 ^ (hi + 1) + v % 2 ^ (hi + 1 - lo) * 2 ^ lo + w.toNat % 2 ^ lo)

/-- Bit i of a word. -/
def bit (w : Word) (i : Nat) : Bool := w.getLsbD i

/-- The word with bit i set to b. -/
def setBit (w : Word) (i : Nat) (b : Bool) : Word := setFld w i i b.toNat

/-- A word from a number, modulo 2^32. -/
def w32 (n : Nat) : Word := BitVec.ofNat 32 n

/-- A two's-complement reading of the low `width` bits of n. -/
def signedOf (width n : Nat) : Int :=
  if n % 2 ^ width < 2 ^ (width - 1) then (n % 2 ^ width : Nat) else (n % 2 ^ width : Nat) - (2 ^ width : Nat)

/-- A counter increased by n that saturates at 32 bits. -/
def satAdd (w : Word) (n : Nat) : Word := w32 (min (w.toNat + n) 0xFFFFFFFF)

/-- n bytes of a number, low byte first (spec 04 R102, 11 R285). -/
def leBytes : Nat → Nat → List Byte
  | 0, _ => []
  | n + 1, v => BitVec.ofNat 8 v :: leBytes n (v / 256)

/-- The number whose bytes, low byte first, are given. -/
def leNat : List Byte → Nat
  | [] => 0
  | b :: bs => b.toNat + 256 * leNat bs

/-- Apply f to 0 .. n - 1 in order. -/
def forUpTo {σ : Type} : Nat → σ → (Nat → σ → σ) → σ
  | 0, s, _ => s
  | n + 1, s, f => f n (forUpTo n s f)

/-- Apply f to the elements of a list in order. -/
def forEach {σ α : Type} (l : List α) (s : σ) (f : α → σ → σ) : σ := l.foldl (fun s a => f a s) s

/-! ## Sparse maps -/

/-- The entry of key i, d where none is listed. -/
def smGet {α : Type} (d : α) : SMap α → Nat → α
  | [], _ => d
  | (k, v) :: m, i => if k = i then v else smGet d m i

/-- The map without key i. -/
def smErase {α : Type} : SMap α → Nat → SMap α
  | [], _ => []
  | (k, v) :: m, i => if k = i then smErase m i else (k, v) :: smErase m i

/-- The map with (i, x) put before the first greater key. -/
def smInsert {α : Type} : SMap α → Nat → α → SMap α
  | [], i, x => [(i, x)]
  | (k, v) :: m, i, x => if i < k then (i, x) :: (k, v) :: m else (k, v) :: smInsert m i x

/-- The map with entry i set to x; an entry equal to the default d is not listed. -/
def smPut {α : Type} [DecidableEq α] (d : α) (m : SMap α) (i : Nat) (x : α) : SMap α :=
  if x = d then smErase m i else smInsert (smErase m i) i x

/-- The keys rise strictly. -/
def smSorted {α : Type} : SMap α → Bool
  | [] => true
  | [_] => true
  | (k, _) :: (j, w) :: m => decide (k < j) && smSorted ((j, w) :: m)

/-- The canonical form: keys rise strictly and no entry equals the default. -/
def smWf {α : Type} [DecidableEq α] (d : α) (m : SMap α) : Bool :=
  smSorted m && m.all (fun e => decide (e.2 ≠ d))

/-- The keys of a map whose entries satisfy p. -/
def smKeys {α : Type} (p : Nat → α → Bool) (m : SMap α) : List Nat :=
  (m.filter (fun e => p e.1 e.2)).map Prod.fst

/-- The map without the keys that satisfy p. -/
def smDrop {α : Type} (p : Nat → Bool) (m : SMap α) : SMap α := m.filter (fun e => !p e.1)

end Sys2Proof.Machine
end

