-- ==== Sys2Proof/Machine/Flags.lean ====
section
/-! DEFINITION. Arithmetic of the function units (spec 04 R131-R134, 06 R167-R173) and the flags of the Sketch datapath
(07 R197). -/

namespace Sys2Proof.Machine

/-- alu operation op of opd and T, op counted from trigger 0x0110 (04 R132, R133). -/
def aluOp (op : Nat) (a t : Word) : Word :=
  match op with
  | 0 => a + t
  | 1 => a - t
  | 2 => a &&& t
  | 3 => a ||| t
  | 4 => a ^^^ t
  | 5 => a &&& ~~~t
  | 6 => a <<< (t.toNat % 32)
  | 7 => a >>> (t.toNat % 32)
  | 8 => a.sshiftRight (t.toNat % 32)
  | 9 => if a.slt t then a else t
  | 10 => if a.slt t then t else a
  | 11 => if a.ult t then a else t
  | _ => if a.ult t then t else a

/-- cmp operation, from trigger 0x0130 (04 R132). -/
def cmpOp (op : Nat) (a t : Word) : Bool :=
  match op with
  | 0 => a == t
  | 1 => a != t
  | 2 => a.slt t
  | 3 => t.sle a
  | 4 => a.ult t
  | 5 => t.ule a
  | _ => a &&& t != 0

/-- mul operation, from trigger 0x0150 (04 R132). -/
def mulOp (op : Nat) (a t : Word) : Word :=
  match op with
  | 0 => a * t
  | 1 => BitVec.ofInt 32 (a.toInt * t.toInt / 2 ^ 32)
  | _ => w32 (a.toNat * t.toNat / 2 ^ 32)

/-- div operation, from trigger 0x0170, T not 0 (04 R134). -/
def divOp (op : Nat) (a t : Word) : Word :=
  match op with
  | 0 => BitVec.ofInt 32 (Int.tdiv a.toInt t.toInt)
  | 1 => w32 (a.toNat / t.toNat)
  | 2 => BitVec.ofInt 32 (Int.tmod a.toInt t.toInt)
  | _ => w32 (a.toNat % t.toNat)

/-- How many of the low n bits of w are 1. -/
def popcount (n w : Nat) : Nat := forUpTo n 0 (fun i c => c + w / 2 ^ i % 2)

/-- The number of leading zeros among the low n bits of w. -/
def clz : Nat → Nat → Nat
  | 0, _ => 0
  | n + 1, w => if w / 2 ^ n % 2 = 1 then 0 else 1 + clz n w

/-- The number of trailing zeros among n bits of w. -/
def ctz : Nat → Nat → Nat
  | 0, _ => 0
  | n + 1, w => if w % 2 = 1 then 0 else 1 + ctz n (w / 2)

/-- The low n bits of w in reverse order. -/
def bitReverse (n w : Nat) : Nat := forUpTo n 0 (fun i r => r + w / 2 ^ i % 2 * 2 ^ (n - 1 - i))

/-- bit unit operation, from trigger 0x0190 (04 R132). -/
def bitOp (op : Nat) (t : Word) : Word :=
  match op with
  | 0 => w32 (popcount 32 t.toNat)
  | 1 => w32 (clz 32 t.toNat)
  | 2 => w32 (ctz 32 t.toNat)
  | 3 => w32 (bitReverse 32 t.toNat)
  | 4 => w32 (leNat (leBytes 4 t.toNat).reverse)
  | _ => w32 (popcount 32 t.toNat % 2)

/-! ## Vector unit (06 R168) -/

/-- Element i of size sz of a vector value. -/
def elem (sz i : Nat) (v : Wide) : Nat := v.toNat / 2 ^ (sz * i) % 2 ^ sz

/-- A two's-complement comparison of elements. -/
def elemLt (sz a b : Nat) : Bool := decide (signedOf sz a < signedOf sz b)

/-- All ones of an element where b holds. -/
def elemMask (sz : Nat) (b : Bool) : Nat := if b then 2 ^ sz - 1 else 0

/-- Bitwise complement within an element. -/
def elemNot (sz a : Nat) : Nat := 2 ^ sz - 1 - a

/-- The element result of an operation on elements a (opd), m (msk) and t of the same position. -/
def elemOp (op sz a m t : Nat) : Nat :=
  match op with
  | 0 => (a + t) % 2 ^ sz
  | 1 => (a + 2 ^ sz - t) % 2 ^ sz
  | 2 => Nat.land a t
  | 3 => Nat.lor a t
  | 4 => Nat.xor a t
  | 5 => Nat.land a (elemNot sz t)
  | 6 => a * 2 ^ (t % sz) % 2 ^ sz
  | 7 => a / 2 ^ (t % sz)
  | 8 => (BitVec.ofInt sz (signedOf sz a / 2 ^ (t % sz))).toNat
  | 9 => if elemLt sz a t then a else t
  | 10 => if elemLt sz a t then t else a
  | 11 => min a t
  | 12 => max a t
  | 13 => a * t % 2 ^ sz
  | 14 => elemMask sz (a == t)
  | 15 => elemMask sz (a != t)
  | 16 => elemMask sz (elemLt sz a t)
  | 17 => elemMask sz (decide (a < t))
  | 18 => Nat.lor (Nat.land a m) (Nat.land t (elemNot sz m))
  | _ => popcount sz t

/-- A vector value from its elements. -/
def fromElems (sz : Nat) : List Nat → Nat
  | [] => 0
  | e :: es => e + 2 ^ sz * fromElems sz es

/-- The result of vector operation op on w-bit operands of sz-bit elements; VR above bit w - 1 is 0 (06 R167, R168). -/
def vecOp (op sz w : Nat) (vo vm t : Wide) : Wide :=
  let n := w / sz
  BitVec.ofNat 256 (fromElems sz ((List.range n).map (fun i =>
    match op with
    | 19 => elem sz 0 t
    | 21 => if i = 0 then (forUpTo n 0 (fun j a => a + elem sz j t)) % 2 ^ sz else 0
    | 22 => elem sz (n - 1 - i) t
    | 23 => elem sz (elem sz i vo % n) t
    | _ => elemOp op sz (elem sz i vo) (elem sz i vm) (elem sz i t))))

/-! ## Pattern generators (06 R171-R173) -/

/-- The next state of the Galois LFSR with polynomial x^32 + x^22 + x^2 + x + 1 (06 R173), which does not say which way it shifts: it
shifts left and XORs 0x00400007 when bit 31 was 1 (log 158). -/
def lfsrNext (t : Word) : Word := if t.getLsbD 31 then (t <<< 1) ^^^ 0x00400007 else t <<< 1

/-- trg_bg: the seed, or its inverse where T AND mask has odd parity (06 R173). -/
def background (mask t : DWord) (seed : Word) : Word :=
  if popcount 64 (mask &&& t).toNat % 2 = 1 then seed ^^^ 0xFFFFFFFF else seed

/-- Bit i of the scrambler's result from the entry of bit i (06 R172, R188). -/
def scrambleBit (entry t : Nat) : Bool :=
  let tb := fun i => t / 2 ^ i % 2 == 1
  (tb (entry % 64) != (entry / 2 ^ 12 % 2 == 1 && tb (entry / 64 % 64))) != (entry / 2 ^ 13 % 2 == 1)

/-! ## Sketch datapath (07 R197) -/

/-- The result of AOP on operands A and B, with the carry of ADD or the borrow of SUB. -/
def sketchOp (aop sham : Nat) (a b : DWord) : DWord × Bool :=
  match aop with
  | 1 => (a + b, decide (2 ^ 64 ≤ a.toNat + b.toNat))
  | 2 => (a - b, decide (a.toNat < b.toNat))
  | 3 => (a &&& b, false)
  | 4 => (a ||| b, false)
  | 5 => (a ^^^ b, false)
  | 6 => (a &&& ~~~b, false)
  | 7 => (a <<< sham, false)
  | 8 => (a >>> sham, false)
  | 9 => (a.rotateLeft sham, false)
  | 10 => (BitVec.ofNat 64 (popcount 64 b.toNat), false)
  | 11 => (b, false)
  | _ => (0, false)

end Sys2Proof.Machine
end

