-- ==== Sys2Proof/Machine/Pages.lean ====
section
/-! DEFINITION. The register pages (spec 14): their kinds, indexes and fixed properties, and the table of their registers
with fields, access codes, reset values and valid encodings, from the page tables of every chapter. -/

namespace Sys2Proof.Machine

/-- The page kinds of the page index (14 R385); test is the TEST range 0x3F00-0x3FFF. -/
inductive Kind where
  | ch | tile | tpll | tref | tcal | tquench | pmark | pal
  | ln | lscr | lcs | ccs | cl | wd | hbm
  | dev | rst | bellows | irqs | mc | upd | mx | mem | tongs | hang | snap
  | anvil | patina | temper | primer | quench | scrub | smb
  | fb | fbrt | fbp | pcie | msix | test
  deriving DecidableEq, Repr

/-- A page: its kind and its instance number. -/
structure Page where
  kind : Kind
  inst : Nat
  deriving DecidableEq, Repr

/-- How many instances a kind has. -/
def Kind.count : Kind → Nat
  | .ch => 512
  | .tile | .tpll | .tref | .tcal | .tquench | .pmark => 8
  | .pal | .ln | .lscr | .lcs => 64
  | .ccs | .cl | .wd => 8
  | .hbm => 4
  | .mc => 2
  | .fbp => 8
  | .test => 256
  | .dev | .rst | .bellows | .irqs | .upd | .mx | .mem | .tongs | .hang | .snap => 1
  | .anvil | .patina | .temper | .primer | .quench | .scrub | .smb | .fb | .fbrt | .pcie | .msix => 1

/-- The page index of a page (14 R385; 02 R63). -/
def pageIndex : Page → Nat
  | ⟨.ch, n⟩ => 0x200 + 0x100 * (n / 64) + n % 64
  | ⟨.tile, t⟩ => 0x240 + 0x100 * t
  | ⟨.tpll, t⟩ => 0x241 + 0x100 * t
  | ⟨.tref, t⟩ => 0x242 + 0x100 * t
  | ⟨.tcal, t⟩ => 0x243 + 0x100 * t
  | ⟨.tquench, t⟩ => 0x244 + 0x100 * t
  | ⟨.pmark, t⟩ => 0x245 + 0x100 * t
  | ⟨.pal, l⟩ => 0x248 + 0x100 * (l / 8) + l % 8
  | ⟨.ln, l⟩ => 0xA00 + 8 * l
  | ⟨.lscr, l⟩ => 0xA01 + 8 * l
  | ⟨.lcs, l⟩ => 0xA02 + 8 * l
  | ⟨.cl, k⟩ => 0xC00 + 0x10 * k
  | ⟨.ccs, k⟩ => 0xC01 + 0x10 * k
  | ⟨.wd, k⟩ => 0xC02 + 0x10 * k
  | ⟨.hbm, s⟩ => 0xD00 + 0x10 * s
  | ⟨.dev, _⟩ => 0x0
  | ⟨.rst, _⟩ => 0x1
  | ⟨.bellows, _⟩ => 0x2
  | ⟨.irqs, _⟩ => 0x4
  | ⟨.mc, p⟩ => 0x8 + p
  | ⟨.upd, _⟩ => 0xC
  | ⟨.mx, _⟩ => 0x10
  | ⟨.mem, _⟩ => 0x11
  | ⟨.tongs, _⟩ => 0x12
  | ⟨.hang, _⟩ => 0x14
  | ⟨.snap, _⟩ => 0x15
  | ⟨.anvil, _⟩ => 0x20
  | ⟨.patina, _⟩ => 0x21
  | ⟨.temper, _⟩ => 0x22
  | ⟨.primer, _⟩ => 0x23
  | ⟨.quench, _⟩ => 0x24
  | ⟨.scrub, _⟩ => 0x25
  | ⟨.smb, _⟩ => 0x30
  | ⟨.fb, _⟩ => 0x100
  | ⟨.fbrt, _⟩ => 0x101
  | ⟨.fbp, p⟩ => 0x108 + p
  | ⟨.pcie, _⟩ => 0x180
  | ⟨.msix, _⟩ => 0x181
  | ⟨.test, n⟩ => 0x3F00 + n

/-- The shell, fabric and host pages by index (14 R385). -/
def shellPage : Nat → Option Page
  | 0x0 => some ⟨.dev, 0⟩
  | 0x1 => some ⟨.rst, 0⟩
  | 0x2 => some ⟨.bellows, 0⟩
  | 0x4 => some ⟨.irqs, 0⟩
  | 0x8 => some ⟨.mc, 0⟩
  | 0x9 => some ⟨.mc, 1⟩
  | 0xC => some ⟨.upd, 0⟩
  | 0x10 => some ⟨.mx, 0⟩
  | 0x11 => some ⟨.mem, 0⟩
  | 0x12 => some ⟨.tongs, 0⟩
  | 0x14 => some ⟨.hang, 0⟩
  | 0x15 => some ⟨.snap, 0⟩
  | 0x20 => some ⟨.anvil, 0⟩
  | 0x21 => some ⟨.patina, 0⟩
  | 0x22 => some ⟨.temper, 0⟩
  | 0x23 => some ⟨.primer, 0⟩
  | 0x24 => some ⟨.quench, 0⟩
  | 0x25 => some ⟨.scrub, 0⟩
  | 0x30 => some ⟨.smb, 0⟩
  | _ => none

/-- The page of a tile at an offset of the tile's range (02 R63, 14 R385). -/
def tilePage (t o : Nat) : Option Page :=
  if o < 0x40 then some ⟨.ch, 64 * t + o⟩
  else if o = 0x40 then some ⟨.tile, t⟩
  else if o = 0x41 then some ⟨.tpll, t⟩
  else if o = 0x42 then some ⟨.tref, t⟩
  else if o = 0x43 then some ⟨.tcal, t⟩
  else if o = 0x44 then some ⟨.tquench, t⟩
  else if o = 0x45 then some ⟨.pmark, t⟩
  else if 0x48 ≤ o ∧ o < 0x50 then some ⟨.pal, 8 * t + (o - 0x48)⟩
  else none

/-- The decoded page of an index, none where it is undecoded (14 R367, R385). -/
def pageAt (i : Nat) : Option Page :=
  if i < 0x100 then shellPage i
  else if i = 0x100 then some ⟨.fb, 0⟩
  else if i = 0x101 then some ⟨.fbrt, 0⟩
  else if 0x108 ≤ i ∧ i < 0x110 then some ⟨.fbp, i - 0x108⟩
  else if i = 0x180 then some ⟨.pcie, 0⟩
  else if i = 0x181 then some ⟨.msix, 0⟩
  else if i < 0x200 then none
  else if i < 0xA00 then tilePage ((i - 0x200) / 0x100) ((i - 0x200) % 0x100)
  else if i < 0xC00 then
    match (i - 0xA00) % 8 with
    | 0 => some ⟨.ln, (i - 0xA00) / 8⟩
    | 1 => some ⟨.lscr, (i - 0xA00) / 8⟩
    | 2 => some ⟨.lcs, (i - 0xA00) / 8⟩
    | _ => none
  else if i < 0xC80 then
    match (i - 0xC00) % 0x10 with
    | 0 => some ⟨.cl, (i - 0xC00) / 0x10⟩
    | 1 => some ⟨.ccs, (i - 0xC00) / 0x10⟩
    | 2 => some ⟨.wd, (i - 0xC00) / 0x10⟩
    | _ => none
  else if 0xD00 ≤ i ∧ i < 0xD40 ∧ i % 0x10 = 0 then some ⟨.hbm, (i - 0xD00) / 0x10⟩
  else if 0x3F00 ≤ i ∧ i < 0x4000 then some ⟨.test, i - 0x3F00⟩
  else none

/-- PG_ID.TYPE (14 R385). -/
def pageType : Kind → Nat
  | .ch => 0x50 | .tile => 0x51 | .tpll => 0x52 | .tref => 0x53 | .tcal => 0x54 | .tquench => 0x55
  | .pmark => 0x56 | .pal => 0x57 | .ln => 0x60 | .lscr => 0x61 | .lcs => 0x62 | .cl => 0x68 | .ccs => 0x69
  | .wd => 0x6A | .hbm => 0x70 | .dev => 0x01 | .rst => 0x02 | .bellows => 0x03 | .irqs => 0x04 | .mc => 0x08
  | .upd => 0x0C | .mx => 0x10 | .mem => 0x11 | .tongs => 0x12 | .hang => 0x14 | .snap => 0x15 | .anvil => 0x20
  | .patina => 0x21 | .temper => 0x22 | .primer => 0x23 | .quench => 0x24 | .scrub => 0x25 | .smb => 0x30
  | .fb => 0x40 | .fbrt => 0x41 | .fbp => 0x42 | .pcie => 0x48 | .msix => 0x49 | .test => 0x7F

/-- The management domain that owns a page (14 R385). -/
def pageDomain : Page → Nat
  | ⟨.ch, n⟩ => n / 64
  | ⟨.tile, t⟩ | ⟨.tpll, t⟩ | ⟨.tref, t⟩ | ⟨.tcal, t⟩ | ⟨.tquench, t⟩ | ⟨.pmark, t⟩ => t
  | ⟨.pal, l⟩ => l / 8
  | ⟨.hbm, s⟩ => 10 + s
  | ⟨.fb, _⟩ | ⟨.fbrt, _⟩ | ⟨.fbp, _⟩ | ⟨.pcie, _⟩ | ⟨.msix, _⟩ => 9
  | _ => 8

/-- The clock island number of a page (14 R384, R385). -/
def pageIsland : Page → Nat
  | ⟨.ch, n⟩ => 73 + n / 64
  | ⟨.tile, t⟩ | ⟨.tpll, t⟩ | ⟨.tref, t⟩ | ⟨.tcal, t⟩ | ⟨.tquench, t⟩ | ⟨.pmark, t⟩ => 73 + t
  | ⟨.pal, l⟩ => 73 + l / 8
  | ⟨.ln, l⟩ | ⟨.lscr, l⟩ | ⟨.lcs, l⟩ => l
  | ⟨.cl, k⟩ | ⟨.ccs, k⟩ | ⟨.wd, k⟩ => 64 + k
  | ⟨.hbm, s⟩ => 81 + s
  | ⟨.fb, _⟩ | ⟨.fbrt, _⟩ => 85
  | ⟨.fbp, p⟩ => 85 + p
  | ⟨.pcie, _⟩ | ⟨.msix, _⟩ => 93
  | _ => 72

/-- The PG_IRQ_RAW bits a page kind assigns (14 R374 and the page rules of each chapter). -/
def irqMask : Kind → Nat
  | .ch | .cl | .wd => 0x3F
  | .pal | .lcs | .ccs | .patina | .fb => 0x1F
  | .tquench | .hbm | .dev | .upd | .hang => 0xF
  | .ln | .bellows | .mem | .snap | .anvil | .primer | .smb | .fbp | .pcie => 0x7
  | .tref | .pmark | .rst | .mc | .mx | .temper | .quench => 0x3
  | .tcal | .irqs | .scrub | .msix => 0x1
  | .tongs => 0x1FFFF
  | .tile | .tpll | .lscr | .fbrt | .test => 0

/-- The REJECT bit of PG_IRQ_RAW where the page assigns one. -/
def rejectBit : Kind → Option Nat
  | .ch | .cl | .wd => some 5
  | .pal | .lcs | .ccs | .patina | .fb => some 4
  | .tquench | .hbm | .dev | .upd | .hang => some 3
  | .ln | .bellows | .mem | .snap | .anvil | .primer | .smb | .fbp | .pcie => some 2
  | .tref | .pmark | .rst | .mc | .mx | .temper | .quench => some 1
  | .tcal | .irqs => some 0
  | .tongs => some 16
  | .tile | .tpll | .lscr | .fbrt | .scrub | .msix | .test => none

/-- The watermarks in use, one bit each (14 R371, R380). -/
def wmMask : Kind → Nat
  | .ch | .wd | .patina | .fbp => 0x3
  | .cl => 0xF
  | .tquench | .hbm | .anvil | .fb => 0x1
  | _ => 0

/-- The access code of a field (00 R10); door is a doorbell that PCIe or a requester sets and a management pair clears
(19 R476, R478). -/
inductive Acc where
  | rw | ro | wo | w1c | w1s | rc | door
  deriving DecidableEq, Repr

/-- The encodings of a field that are not reserved (00 R13). -/
inductive Valid where
  | all
  | upTo (n : Nat)
  | range (a b : Nat)
  deriving DecidableEq, Repr

/-- Whether a value is an unreserved encoding. -/
def Valid.ok : Valid → Nat → Bool
  | .all, _ => true
  | .upTo n, v => v ≤ n
  | .range a b, v => a ≤ v && v ≤ b

/-- A field: bits [hi:lo], access code, reset value and valid encodings. -/
structure Field where
  hi : Nat
  lo : Nat
  acc : Acc
  reset : Nat
  ok : Valid
  deriving DecidableEq, Repr

/-- A register, or count registers stride bytes apart, with its fields. -/
structure RegDesc where
  off : Nat
  stride : Nat
  count : Nat
  bankable : Bool
  fields : List Field
  deriving DecidableEq, Repr

def chRegs0 : List RegDesc := [
  -- CH_FUNC (02 R66)
  ⟨0x100, 4, 1, true, [⟨13, 13, .rw, 0x0, .all⟩, ⟨12, 12, .rw, 0x0, .all⟩, ⟨10, 9, .rw, 0x0, .upTo 2⟩, ⟨8, 8, .rw, 0x0, .all⟩, ⟨5, 5, .rw, 0x0, .all⟩, ⟨4, 4, .rw, 0x0, .all⟩, ⟨2, 0, .rw, 0x0, .upTo 4⟩]⟩,
  -- CH_SITE (02 R67)
  ⟨0x104, 4, 1, true, [⟨7, 7, .rw, 0x0, .all⟩, ⟨6, 0, .rw, 0x0, .all⟩]⟩,
  -- CH_DL (02 R68)
  ⟨0x110, 4, 5, true, [⟨15, 0, .rw, 0x3333, .all⟩]⟩,
  -- CH_CT (02 R68)
  ⟨0x130, 4, 3, true, [⟨15, 0, .rw, 0x3333, .all⟩]⟩,
  -- CH_IOL/CH_IOH (02 R45)
  ⟨0x140, 4, 2, true, [⟨15, 0, .rw, 0x0, .all⟩]⟩,
  -- CH_PMU (02 R69)
  ⟨0x150, 4, 1, true, [⟨14, 14, .rw, 0x0, .all⟩, ⟨12, 8, .rw, 0x0, .upTo 16⟩, ⟨6, 4, .rw, 0x0, .all⟩, ⟨2, 0, .rw, 0x4, .upTo 4⟩]⟩,
  -- CH_PMU_FORCE (02 R70)
  ⟨0x154, 4, 1, true, [⟨15, 0, .rw, 0x0, .all⟩]⟩,
  -- CH_PMU_CLAMP (02 R70)
  ⟨0x158, 4, 1, true, [⟨31, 16, .rw, 0x7FFF, .all⟩, ⟨15, 0, .rw, 0x8001, .all⟩]⟩,
  -- CH_TDC (02 R71)
  ⟨0x160, 4, 1, true, [⟨15, 8, .rw, 0x1, .range 1 255⟩, ⟨3, 2, .rw, 0x0, .upTo 2⟩, ⟨1, 0, .rw, 0x0, .upTo 2⟩]⟩,
  -- CH_TBn_LO (03 R82)
  ⟨0x200, 8, 4, true, [⟨31, 0, .rw, 0x0, .all⟩]⟩,
  -- CH_TBn_HI (03 R82)
  ⟨0x204, 8, 4, true, [⟨7, 0, .rw, 0x0, .all⟩]⟩,
  -- CH_STRM (03 R82)
  ⟨0x240, 4, 1, true, [⟨0, 0, .rw, 0x0, .all⟩]⟩]

def chRegs1 : List RegDesc := [
  -- CH_STRM_S0_LO/HI (03 R82)
  ⟨0x248, 4, 2, true, [⟨31, 0, .rw, 0x0, .all⟩]⟩,
  -- CH_STRM_END_LO/HI (03 R82)
  ⟨0x250, 4, 2, true, [⟨31, 0, .rw, 0x0, .all⟩]⟩,
  -- CC_LVLn (18 R463)
  ⟨0x400, 4, 8, true, [⟨31, 16, .rw, 0x0, .all⟩, ⟨15, 0, .rw, 0x0, .all⟩]⟩,
  -- CC_EDGEm (18 R463)
  ⟨0x440, 4, 8, true, [⟨23, 0, .rw, 0x0, .all⟩]⟩,
  -- CC_PMUr (18 R463)
  ⟨0x480, 4, 8, true, [⟨31, 16, .rw, 0x0, .all⟩, ⟨15, 0, .rw, 0x0, .all⟩]⟩,
  -- CC_PMUV (18 R463)
  ⟨0x4A0, 4, 1, true, [⟨31, 16, .rw, 0x0, .all⟩, ⟨15, 0, .rw, 0x0, .all⟩]⟩,
  -- CC_SEQ (18 R463)
  ⟨0x5F0, 4, 1, true, [⟨31, 0, .rw, 0x0, .all⟩]⟩,
  -- CH_STAT (02 R72)
  ⟨0x700, 4, 1, false, [⟨13, 13, .ro, 0x0, .all⟩, ⟨12, 8, .ro, 0x0, .all⟩, ⟨7, 7, .ro, 0x0, .all⟩, ⟨6, 6, .ro, 0x0, .all⟩, ⟨5, 5, .ro, 0x0, .all⟩, ⟨4, 4, .ro, 0x0, .all⟩, ⟨3, 3, .ro, 0x0, .all⟩, ⟨2, 0, .ro, 0x0, .all⟩]⟩,
  -- CH_PMU_TRIG (02 R73)
  ⟨0x704, 4, 1, false, [⟨0, 0, .wo, 0x0, .all⟩]⟩,
  -- CH_PMU_MEAS (02 R73)
  ⟨0x708, 4, 1, false, [⟨31, 31, .ro, 0x0, .all⟩, ⟨30, 30, .ro, 0x0, .all⟩, ⟨29, 29, .ro, 0x0, .all⟩, ⟨17, 0, .ro, 0x0, .all⟩]⟩,
  -- CH_TDC_RES0 (02 R74)
  ⟨0x710, 4, 1, false, [⟨31, 0, .ro, 0x0, .all⟩]⟩,
  -- CH_TDC_RES1 (02 R74)
  ⟨0x714, 4, 1, false, [⟨31, 31, .ro, 0x0, .all⟩, ⟨30, 30, .ro, 0x0, .all⟩, ⟨29, 28, .ro, 0x0, .all⟩, ⟨27, 27, .ro, 0x0, .all⟩, ⟨7, 0, .ro, 0x0, .all⟩]⟩]

def chRegs2 : List RegDesc := [
  -- CH_TDC_SC_LO/HI (02 R74)
  ⟨0x718, 4, 2, false, [⟨31, 0, .ro, 0x0, .all⟩]⟩,
  -- CH_TDC_POP (02 R74)
  ⟨0x720, 4, 1, false, [⟨0, 0, .wo, 0x0, .all⟩]⟩,
  -- CH_TDC_LOST (02 R74)
  ⟨0x724, 4, 1, false, [⟨15, 0, .rc, 0x0, .all⟩]⟩]

def chRegs : List RegDesc := chRegs0 ++ chRegs1 ++ chRegs2

def tileRegs : List RegDesc := [
  -- TILE_SNS (02 R75)
  ⟨0x700, 4, 1, false, [⟨8, 8, .rw, 0x0, .all⟩, ⟨5, 0, .rw, 0x0, .all⟩]⟩]

def tpllRegs : List RegDesc := [
  -- TPLL_STAT (03 R81)
  ⟨0x700, 4, 1, false, [⟨1, 1, .ro, 0x0, .all⟩, ⟨0, 0, .ro, 0x0, .all⟩]⟩]

def trefRegs : List RegDesc := [
  -- TR_VREF (18 R470)
  ⟨0x700, 4, 1, false, [⟨31, 31, .ro, 0x0, .all⟩, ⟨15, 0, .ro, 0x0, .all⟩]⟩]

def tcalRegs : List RegDesc := [
  -- TC_STAT (18 R470)
  ⟨0x700, 4, 1, false, [⟨31, 30, .ro, 0x0, .all⟩, ⟨5, 0, .ro, 0x0, .all⟩]⟩]

def tquenchRegs : List RegDesc := [
  -- QN_CFGp (15 R408)
  ⟨0x100, 4, 64, true, [⟨21, 16, .rw, 0x32, .range 1 50⟩, ⟨15, 12, .rw, 0x4, .all⟩, ⟨9, 0, .rw, 0x1, .range 1 1000⟩]⟩,
  -- QN_HELD_LO/HI (15 R408)
  ⟨0x700, 4, 2, false, [⟨31, 0, .ro, 0x0, .all⟩]⟩,
  -- QN_REL_LO/HI (15 R408)
  ⟨0x708, 4, 2, false, [⟨31, 0, .wo, 0x0, .all⟩]⟩,
  -- QN_CSEL (15 R408)
  ⟨0x710, 4, 1, false, [⟨5, 0, .rw, 0x0, .all⟩]⟩,
  -- QN_CAUSE (15 R408)
  ⟨0x714, 4, 1, false, [⟨31, 31, .ro, 0x0, .all⟩, ⟨30, 30, .ro, 0x0, .all⟩, ⟨27, 24, .ro, 0x0, .all⟩, ⟨9, 0, .ro, 0x0, .all⟩]⟩,
  -- QN_TRIPS (15 R408)
  ⟨0x718, 4, 1, false, [⟨31, 0, .rc, 0x0, .all⟩]⟩]

def pmarkRegs : List RegDesc := [
  -- PM_CFGp (09 R246)
  ⟨0x100, 4, 64, true, [⟨31, 31, .rw, 0x0, .all⟩, ⟨30, 30, .rw, 0x1, .all⟩, ⟨29, 29, .rw, 0x0, .all⟩, ⟨15, 0, .rw, 0x1000, .all⟩]⟩,
  -- PM_MMAP_LO/HI (09 R247)
  ⟨0x700, 4, 2, false, [⟨31, 0, .w1c, 0x0, .all⟩]⟩,
  -- PM_CNT (09 R247)
  ⟨0x708, 4, 1, false, [⟨31, 0, .rc, 0x0, .all⟩]⟩,
  -- PM_CAP_CH (09 R247)
  ⟨0x710, 4, 1, false, [⟨31, 31, .w1c, 0x0, .all⟩, ⟨5, 0, .ro, 0x0, .all⟩]⟩,
  -- PM_CAP_IDX (09 R247)
  ⟨0x714, 4, 1, false, [⟨31, 0, .ro, 0x0, .all⟩]⟩,
  -- PM_CAP_LANE (09 R247)
  ⟨0x718, 4, 1, false, [⟨31, 0, .ro, 0x0, .all⟩]⟩,
  -- PM_CAP_TILE (09 R247)
  ⟨0x71C, 4, 1, false, [⟨31, 0, .ro, 0x0, .all⟩]⟩]

def palRegs : List RegDesc := [
  -- PAL_SEL (03 R93)
  ⟨0x700, 4, 1, false, [⟨12, 12, .rw, 0x0, .all⟩, ⟨11, 11, .rw, 0x0, .all⟩, ⟨10, 8, .rw, 0x0, .all⟩, ⟨7, 0, .rw, 0x0, .all⟩]⟩,
  -- PAL_CMD (03 R93)
  ⟨0x704, 4, 1, false, [⟨1, 1, .wo, 0x0, .all⟩, ⟨0, 0, .wo, 0x0, .all⟩]⟩,
  -- PAL_STAT (03 R93)
  ⟨0x708, 4, 1, false, [⟨0, 0, .ro, 0x0, .all⟩]⟩,
  -- PAL_DATAi (03 R93)
  ⟨0x720, 4, 8, false, [⟨31, 0, .rw, 0x0, .all⟩]⟩,
  -- STRM_STATi (03 R93)
  ⟨0x740, 4, 8, false, [⟨31, 31, .ro, 0x0, .all⟩, ⟨30, 30, .ro, 0x0, .all⟩, ⟨29, 29, .w1c, 0x0, .all⟩, ⟨28, 28, .w1c, 0x0, .all⟩, ⟨27, 27, .w1c, 0x0, .all⟩, ⟨12, 0, .ro, 0x0, .all⟩]⟩]

def lnRegs : List RegDesc := [
  -- LN_SECTL (06 R182)
  ⟨0x100, 4, 1, true, [⟨3, 3, .rw, 0x0, .all⟩, ⟨2, 0, .rw, 0x0, .all⟩]⟩,
  -- LN_SECFGm (06 R183)
  ⟨0x110, 4, 4, true, [⟨16, 16, .rw, 0x0, .all⟩, ⟨11, 8, .rw, 0x1, .range 1 8⟩, ⟨7, 0, .rw, 0x0, .all⟩]⟩,
  -- LN_SEMAPm_p (06 R184)
  ⟨0x120, 4, 32, true, [⟨31, 31, .rw, 0x0, .all⟩, ⟨30, 30, .rw, 0x0, .all⟩, ⟨29, 29, .rw, 0x0, .all⟩, ⟨23, 16, .rw, 0x0, .all⟩, ⟨15, 8, .rw, 0x0, .all⟩, ⟨7, 0, .rw, 0x0, .all⟩]⟩,
  -- LN_AHCTL (06 R185)
  ⟨0x1A0, 4, 1, true, [⟨16, 16, .rw, 0x0, .all⟩, ⟨15, 0, .rw, 0x0, .all⟩]⟩,
  -- LN_THR_CTL (06 R186)
  ⟨0x700, 4, 1, false, [⟨15, 8, .rw, 0x0, .all⟩, ⟨7, 0, .rw, 0x0, .all⟩]⟩,
  -- LN_THR_STAT (06 R186)
  ⟨0x704, 4, 1, false, [⟨31, 0, .ro, 0x0, .all⟩]⟩,
  -- LN_AH_MISS (06 R187)
  ⟨0x708, 4, 1, false, [⟨31, 0, .rc, 0x0, .all⟩]⟩,
  -- LN_AH_DUP (06 R187)
  ⟨0x70C, 4, 1, false, [⟨31, 0, .rc, 0x0, .all⟩]⟩]

def lscrRegs : List RegDesc := [
  -- LSCR entry words (06 R188)
  ⟨0x100, 4, 224, true, [⟨29, 29, .rw, 0x0, .all⟩, ⟨28, 28, .rw, 0x0, .all⟩, ⟨27, 22, .rw, 0x0, .upTo 55⟩, ⟨21, 16, .rw, 0x0, .upTo 55⟩, ⟨13, 13, .rw, 0x0, .all⟩, ⟨12, 12, .rw, 0x0, .all⟩, ⟨11, 6, .rw, 0x0, .upTo 55⟩, ⟨5, 0, .rw, 0x0, .upTo 55⟩]⟩]

def lcsRegs : List RegDesc := [
  -- LCS_STAT (07 R208)
  ⟨0x700, 4, 1, false, [⟨31, 24, .ro, 0x0, .all⟩, ⟨13, 13, .ro, 0x0, .all⟩, ⟨12, 12, .ro, 0x0, .all⟩, ⟨11, 11, .ro, 0x0, .all⟩, ⟨9, 8, .ro, 0x0, .all⟩, ⟨1, 0, .ro, 0x0, .all⟩]⟩,
  -- LCS_LDCMD (07 R209)
  ⟨0x704, 4, 1, false, [⟨3, 3, .wo, 0x0, .all⟩, ⟨2, 2, .wo, 0x0, .all⟩, ⟨1, 0, .wo, 0x0, .all⟩]⟩,
  -- LCS_LDPTR (07 R210)
  ⟨0x708, 4, 1, false, [⟨13, 0, .ro, 0x0, .all⟩]⟩,
  -- LCS_SKWD (07 R210)
  ⟨0x70C, 4, 1, false, [⟨31, 0, .rw, 0xF4240, .all⟩]⟩,
  -- LCS_SKSYN (07 R210)
  ⟨0x710, 4, 1, false, [⟨31, 28, .ro, 0x0, .all⟩, ⟨26, 24, .ro, 0x0, .all⟩, ⟨12, 0, .ro, 0x0, .all⟩]⟩,
  -- LCS_ECC (07 R210)
  ⟨0x714, 4, 1, false, [⟨15, 0, .rc, 0x0, .all⟩]⟩,
  -- LCS_LOST (07 R210)
  ⟨0x718, 4, 1, false, [⟨31, 0, .rc, 0x0, .all⟩]⟩,
  -- LCS_LDDATAi (07 R210)
  ⟨0x720, 4, 8, false, [⟨31, 0, .wo, 0x0, .all⟩]⟩,
  -- LCS_LDDIGj (07 R210)
  ⟨0x740, 4, 12, false, [⟨31, 0, .wo, 0x0, .all⟩]⟩,
  -- LCS_SKTn (07 R211)
  ⟨0x780, 4, 32, false, [⟨31, 30, .rw, 0x0, .all⟩, ⟨29, 28, .rw, 0x0, .all⟩, ⟨27, 18, .rw, 0x0, .all⟩, ⟨13, 10, .rw, 0x0, .all⟩, ⟨9, 0, .rw, 0x0, .all⟩]⟩]

def ccsRegs : List RegDesc := [
  -- LCS_STAT (07 R208)
  ⟨0x700, 4, 1, false, [⟨31, 24, .ro, 0x0, .all⟩, ⟨13, 13, .ro, 0x0, .all⟩, ⟨12, 12, .ro, 0x0, .all⟩, ⟨11, 11, .ro, 0x0, .all⟩, ⟨9, 8, .ro, 0x0, .all⟩, ⟨1, 0, .ro, 0x0, .all⟩]⟩,
  -- LCS_LDCMD (07 R209)
  ⟨0x704, 4, 1, false, [⟨3, 3, .wo, 0x0, .all⟩, ⟨2, 2, .wo, 0x0, .all⟩, ⟨1, 0, .wo, 0x0, .all⟩]⟩,
  -- LCS_LDPTR (07 R210)
  ⟨0x708, 4, 1, false, [⟨13, 0, .ro, 0x0, .all⟩]⟩,
  -- LCS_SKSYN (07 R210)
  ⟨0x710, 4, 1, false, [⟨31, 28, .ro, 0x0, .all⟩, ⟨26, 24, .ro, 0x0, .all⟩, ⟨12, 0, .ro, 0x0, .all⟩]⟩,
  -- LCS_ECC (07 R210)
  ⟨0x714, 4, 1, false, [⟨15, 0, .rc, 0x0, .all⟩]⟩,
  -- LCS_LOST (07 R210)
  ⟨0x718, 4, 1, false, [⟨31, 0, .rc, 0x0, .all⟩]⟩,
  -- LCS_LDDATAi (07 R210)
  ⟨0x720, 4, 8, false, [⟨31, 0, .wo, 0x0, .all⟩]⟩,
  -- LCS_LDDIGj (07 R210)
  ⟨0x740, 4, 12, false, [⟨31, 0, .wo, 0x0, .all⟩]⟩]

def clRegs0 : List RegDesc := [
  -- CL_SPER_LO (03 R76)
  ⟨0x100, 4, 1, true, [⟨31, 0, .rw, 0x400, .all⟩]⟩,
  -- CL_SPER_HI (03 R76)
  ⟨0x104, 4, 1, true, [⟨7, 0, .rw, 0x0, .all⟩]⟩,
  -- CL_STRK_CTL (03 R76)
  ⟨0x108, 4, 1, true, [⟨0, 0, .rw, 0x0, .all⟩]⟩,
  -- CL_T0_LO/HI (03 R76)
  ⟨0x110, 4, 2, true, [⟨31, 0, .rw, 0x0, .all⟩]⟩,
  -- CL_T0_FR (03 R76)
  ⟨0x118, 4, 1, true, [⟨15, 0, .rw, 0x0, .all⟩]⟩,
  -- CL_FCTL (10 R283)
  ⟨0x120, 4, 1, true, [⟨31, 31, .rw, 0x0, .all⟩, ⟨7, 0, .rw, 0x1, .range 1 255⟩]⟩,
  -- CL_LANEl (10 R283)
  ⟨0x140, 4, 8, true, [⟨5, 0, .rw, 0x0, .upTo 40⟩]⟩,
  -- CL_PMTq_LO (10 R282)
  ⟨0x200, 8, 64, true, [⟨31, 3, .rw, 0x0, .all⟩]⟩,
  -- CL_PMTq_HI (10 R282)
  ⟨0x204, 8, 64, true, [⟨15, 0, .rw, 0x0, .all⟩]⟩,
  -- CL_SITEn (10 R283)
  ⟨0x400, 4, 128, true, [⟨31, 31, .rw, 0x0, .all⟩, ⟨30, 30, .rw, 0x0, .all⟩, ⟨29, 29, .rw, 0x0, .all⟩, ⟨10, 8, .rw, 0x0, .all⟩, ⟨5, 0, .rw, 0x38, .range 1 56⟩]⟩,
  -- CL_SC_LO (03 R76)
  ⟨0x700, 4, 1, false, [⟨31, 0, .ro, 0x0, .all⟩]⟩,
  -- CL_SC_HI (03 R76)
  ⟨0x704, 4, 1, false, [⟨31, 0, .ro, 0x0, .all⟩]⟩]

def clRegs1 : List RegDesc := [
  -- CL_FSTAT (10 R283)
  ⟨0x708, 4, 1, false, [⟨31, 31, .ro, 0x0, .all⟩, ⟨30, 30, .ro, 0x0, .all⟩, ⟨29, 29, .ro, 0x0, .all⟩, ⟨23, 16, .ro, 0x0, .all⟩, ⟨15, 8, .ro, 0x0, .all⟩, ⟨7, 0, .ro, 0x0, .all⟩]⟩,
  -- CL_FCMD (10 R282)
  ⟨0x70C, 4, 1, false, [⟨2, 2, .wo, 0x0, .all⟩, ⟨1, 1, .wo, 0x0, .all⟩, ⟨0, 0, .wo, 0x0, .all⟩]⟩,
  -- CL_POOL_LO (10 R282)
  ⟨0x710, 4, 1, false, [⟨31, 0, .rw, 0x0, .all⟩]⟩,
  -- CL_POOL_HI (10 R282)
  ⟨0x714, 4, 1, false, [⟨15, 0, .rw, 0x0, .all⟩]⟩,
  -- CL_FREE (10 R282)
  ⟨0x718, 4, 1, false, [⟨11, 0, .wo, 0x0, .all⟩]⟩,
  -- CL_FREECNT (10 R282)
  ⟨0x71C, 4, 1, false, [⟨12, 0, .ro, 0x0, .all⟩]⟩,
  -- CL_DONE (10 R283)
  ⟨0x720, 4, 1, false, [⟨31, 31, .ro, 0x0, .all⟩, ⟨30, 30, .ro, 0x0, .all⟩, ⟨27, 25, .ro, 0x0, .all⟩, ⟨24, 12, .ro, 0x0, .all⟩, ⟨11, 0, .ro, 0x0, .all⟩]⟩,
  -- CL_DONE_POP (10 R282)
  ⟨0x724, 4, 1, false, [⟨0, 0, .wo, 0x0, .all⟩]⟩,
  -- CL_TIES (10 R282)
  ⟨0x728, 4, 1, false, [⟨31, 0, .rc, 0x0, .all⟩]⟩,
  -- CL_DIVERT (10 R282)
  ⟨0x72C, 4, 1, false, [⟨31, 0, .rc, 0x0, .all⟩]⟩,
  -- CL_SCSEL (10 R283)
  ⟨0x730, 4, 1, false, [⟨31, 31, .wo, 0x0, .all⟩, ⟨6, 0, .rw, 0x0, .all⟩]⟩,
  -- CL_SCNT_RES/REG0-3 (10 R282)
  ⟨0x734, 4, 5, false, [⟨31, 0, .ro, 0x0, .all⟩]⟩]

def clRegs2 : List RegDesc := [
  -- CL_OVSEL (10 R282)
  ⟨0x748, 4, 1, false, [⟨13, 11, .rw, 0x0, .all⟩, ⟨10, 0, .rw, 0x0, .all⟩]⟩,
  -- CL_OVDATA (10 R282)
  ⟨0x74C, 4, 1, false, [⟨31, 0, .ro, 0x0, .all⟩]⟩,
  -- CL_PMERR_LO/HI (10 R282)
  ⟨0x750, 4, 2, false, [⟨31, 0, .w1c, 0x0, .all⟩]⟩]

def clRegs : List RegDesc := clRegs0 ++ clRegs1 ++ clRegs2

def wdRegs : List RegDesc := [
  -- WD_GEOg_A (10 R284)
  ⟨0x100, 8, 8, true, [⟨30, 24, .rw, 0x0, .upTo 64⟩, ⟨22, 16, .rw, 0x0, .upTo 64⟩, ⟨12, 8, .rw, 0x1, .range 1 24⟩, ⟨4, 0, .rw, 0x0, .upTo 16⟩]⟩,
  -- WD_GEOg_B (10 R284)
  ⟨0x104, 8, 8, true, [⟨31, 16, .rw, 0x3E8, .all⟩, ⟨2, 2, .rw, 0x0, .all⟩, ⟨1, 1, .rw, 0x0, .all⟩, ⟨0, 0, .rw, 0x0, .all⟩]⟩,
  -- WD_STAT (10 R284)
  ⟨0x700, 4, 1, false, [⟨31, 30, .ro, 0x0, .all⟩, ⟨29, 29, .ro, 0x0, .all⟩, ⟨20, 0, .ro, 0x0, .all⟩]⟩,
  -- WD_CMD (10 R284)
  ⟨0x704, 4, 1, false, [⟨14, 8, .wo, 0x0, .all⟩, ⟨2, 0, .wo, 0x0, .range 1 4⟩]⟩,
  -- WD_RT_LO (10 R284)
  ⟨0x708, 4, 1, false, [⟨31, 0, .rw, 0x0, .all⟩]⟩,
  -- WD_RT_HI (10 R284)
  ⟨0x70C, 4, 1, false, [⟨15, 0, .rw, 0x0, .all⟩]⟩,
  -- WD_RPLY (10 R284)
  ⟨0x710, 4, 1, false, [⟨24, 12, .wo, 0x0, .all⟩, ⟨11, 0, .wo, 0x0, .all⟩]⟩,
  -- WD_SKIP (10 R284)
  ⟨0x714, 4, 1, false, [⟨31, 0, .rc, 0x0, .all⟩]⟩,
  -- WD_SUMSEL (10 R284)
  ⟨0x718, 4, 1, false, [⟨6, 0, .rw, 0x0, .all⟩]⟩,
  -- WD_SUMF (10 R284)
  ⟨0x71C, 4, 1, false, [⟨4, 0, .ro, 0x0, .all⟩]⟩,
  -- WD_SUM0-4 (10 R284)
  ⟨0x720, 4, 5, false, [⟨20, 0, .ro, 0x0, .all⟩]⟩]

def hbmRegs : List RegDesc := [
  -- HB_STAT (17 R446)
  ⟨0x700, 4, 1, false, [⟨31, 30, .ro, 0x0, .all⟩]⟩,
  -- HB_CTL (17 R446)
  ⟨0x704, 4, 1, false, [⟨0, 0, .wo, 0x0, .all⟩]⟩,
  -- HB_CE (17 R446)
  ⟨0x708, 4, 1, false, [⟨31, 0, .rc, 0x0, .all⟩]⟩,
  -- HB_UE (17 R446)
  ⟨0x70C, 4, 1, false, [⟨31, 0, .rc, 0x0, .all⟩]⟩]

def devRegs : List RegDesc := [
  -- DEV_STAT (17 R445)
  ⟨0x700, 4, 1, false, [⟨31, 31, .ro, 0x0, .all⟩, ⟨30, 30, .ro, 0x0, .all⟩, ⟨29, 29, .ro, 0x0, .all⟩, ⟨28, 28, .ro, 0x0, .all⟩, ⟨27, 27, .ro, 0x0, .all⟩, ⟨26, 25, .ro, 0x0, .all⟩, ⟨3, 0, .ro, 0x0, .all⟩]⟩,
  -- DEV_LC (17 R445)
  ⟨0x704, 4, 1, false, [⟨1, 0, .ro, 0x0, .all⟩]⟩,
  -- DEV_BOOTDB (17 R445)
  ⟨0x708, 4, 1, false, [⟨31, 0, .wo, 0x0, .all⟩]⟩,
  -- DEV_BOOTERR (17 R445)
  ⟨0x70C, 4, 1, false, [⟨3, 0, .ro, 0x0, .all⟩]⟩]

def rstRegs : List RegDesc := [
  -- RST_PGOOD (17 R445)
  ⟨0x700, 4, 1, false, [⟨13, 0, .ro, 0x0, .all⟩]⟩,
  -- RST_INRST (17 R445)
  ⟨0x704, 4, 1, false, [⟨13, 0, .ro, 0x0, .all⟩]⟩,
  -- RST_CMD (17 R445)
  ⟨0x708, 4, 1, false, [⟨31, 16, .wo, 0x0, .all⟩, ⟨15, 15, .wo, 0x0, .all⟩, ⟨8, 8, .wo, 0x0, .all⟩, ⟨3, 0, .wo, 0x0, .upTo 13⟩]⟩,
  -- RST_CAUSE (17 R445)
  ⟨0x70C, 4, 1, false, [⟨3, 0, .ro, 0x0, .all⟩]⟩]

def bellowsRegs : List RegDesc := [
  -- BL_STAT (17 R445)
  ⟨0x700, 4, 1, false, [⟨31, 31, .ro, 0x0, .all⟩, ⟨30, 30, .ro, 0x0, .all⟩, ⟨29, 29, .ro, 0x0, .all⟩, ⟨28, 28, .ro, 0x0, .all⟩, ⟨15, 0, .ro, 0x0, .all⟩]⟩,
  -- BL_CTL (17 R445)
  ⟨0x704, 4, 1, false, [⟨31, 31, .rw, 0x1, .all⟩, ⟨9, 0, .rw, 0x190, .range 1 1000⟩]⟩,
  -- BL_CMD (17 R445)
  ⟨0x708, 4, 1, false, [⟨0, 0, .wo, 0x0, .all⟩]⟩]

def irqsRegs : List RegDesc := [
  -- IRQS_L1_w (14 R376)
  ⟨0x700, 4, 8, false, [⟨31, 0, .ro, 0x0, .all⟩]⟩,
  -- IRQS_SEL (14 R376)
  ⟨0x720, 4, 1, false, [⟨7, 0, .rw, 0x0, .all⟩]⟩,
  -- IRQS_L2_LO/HI (14 R376)
  ⟨0x724, 4, 2, false, [⟨31, 0, .ro, 0x0, .all⟩]⟩]

def mcRegs : List RegDesc := [
  -- MC_STAT (18 R470)
  ⟨0x700, 4, 1, false, [⟨31, 30, .ro, 0x0, .all⟩, ⟨27, 24, .ro, 0x0, .all⟩, ⟨20, 20, .ro, 0x0, .all⟩]⟩,
  -- MC_CMD (18 R470)
  ⟨0x704, 4, 1, false, [⟨2, 0, .wo, 0x0, .range 1 3⟩]⟩,
  -- MC_FOCNT (18 R470)
  ⟨0x708, 4, 1, false, [⟨31, 0, .rc, 0x0, .all⟩]⟩]

def updRegs : List RegDesc := [
  -- UP_STAT (18 R470)
  ⟨0x700, 4, 1, false, [⟨31, 31, .ro, 0x0, .all⟩, ⟨30, 28, .ro, 0x0, .all⟩, ⟨27, 24, .ro, 0x0, .all⟩, ⟨23, 23, .ro, 0x0, .all⟩, ⟨22, 20, .ro, 0x0, .all⟩, ⟨15, 0, .ro, 0x0, .all⟩]⟩,
  -- UP_VERc (18 R470)
  ⟨0x710, 4, 6, false, [⟨31, 0, .ro, 0x0, .all⟩]⟩,
  -- UP_SLOTS (18 R470)
  ⟨0x730, 4, 1, false, [⟨21, 16, .ro, 0x0, .all⟩, ⟨13, 8, .ro, 0x0, .all⟩, ⟨5, 0, .ro, 0x0, .all⟩]⟩]

def mxRegs : List RegDesc := [
  -- MX_CTL (11 R309)
  ⟨0x700, 4, 1, false, [⟨0, 0, .w1s, 0x0, .all⟩]⟩,
  -- MX_ERR_INFO (11 R309)
  ⟨0x704, 4, 1, false, [⟨31, 31, .w1c, 0x0, .all⟩, ⟨11, 8, .ro, 0x0, .all⟩, ⟨3, 0, .ro, 0x0, .all⟩]⟩,
  -- MX_ERR_ADDR_LO (11 R309)
  ⟨0x708, 4, 1, false, [⟨31, 0, .ro, 0x0, .all⟩]⟩,
  -- MX_ERR_ADDR_HI (11 R309)
  ⟨0x70C, 4, 1, false, [⟨15, 0, .ro, 0x0, .all⟩]⟩,
  -- MX_BUSYCNT (11 R309)
  ⟨0x710, 4, 1, false, [⟨31, 0, .rc, 0x0, .all⟩]⟩]

def memRegs : List RegDesc := [
  -- MEM_PWR_SHELL (11 R309)
  ⟨0x700, 4, 1, false, [⟨5, 4, .rw, 0x0, .upTo 2⟩, ⟨3, 2, .rw, 0x0, .upTo 2⟩, ⟨1, 0, .rw, 0x0, .upTo 2⟩]⟩,
  -- MEM_PWR_LANEj (11 R309)
  ⟨0x704, 4, 4, false, [⟨31, 30, .rw, 0x0, .upTo 2⟩, ⟨29, 28, .rw, 0x0, .upTo 2⟩, ⟨27, 26, .rw, 0x0, .upTo 2⟩, ⟨25, 24, .rw, 0x0, .upTo 2⟩, ⟨23, 22, .rw, 0x0, .upTo 2⟩, ⟨21, 20, .rw, 0x0, .upTo 2⟩, ⟨19, 18, .rw, 0x0, .upTo 2⟩, ⟨17, 16, .rw, 0x0, .upTo 2⟩, ⟨15, 14, .rw, 0x0, .upTo 2⟩, ⟨13, 12, .rw, 0x0, .upTo 2⟩, ⟨11, 10, .rw, 0x0, .upTo 2⟩, ⟨9, 8, .rw, 0x0, .upTo 2⟩, ⟨7, 6, .rw, 0x0, .upTo 2⟩, ⟨5, 4, .rw, 0x0, .upTo 2⟩, ⟨3, 2, .rw, 0x0, .upTo 2⟩, ⟨1, 0, .rw, 0x0, .upTo 2⟩]⟩,
  -- MEM_PWR_CL (11 R309)
  ⟨0x714, 4, 1, false, [⟨15, 14, .rw, 0x0, .upTo 2⟩, ⟨13, 12, .rw, 0x0, .upTo 2⟩, ⟨11, 10, .rw, 0x0, .upTo 2⟩, ⟨9, 8, .rw, 0x0, .upTo 2⟩, ⟨7, 6, .rw, 0x0, .upTo 2⟩, ⟨5, 4, .rw, 0x0, .upTo 2⟩, ⟨3, 2, .rw, 0x0, .upTo 2⟩, ⟨1, 0, .rw, 0x0, .upTo 2⟩]⟩,
  -- MEM_SEC (11 R309)
  ⟨0x720, 4, 1, false, [⟨31, 31, .ro, 0x0, .all⟩, ⟨3, 0, .w1c, 0x0, .all⟩]⟩]

def tongsRegs : List RegDesc := [
  -- TG_SRC_LO (11 R311)
  ⟨0x700, 32, 8, false, [⟨31, 0, .rw, 0x0, .all⟩]⟩,
  -- TG_SRC_HI (11 R311)
  ⟨0x704, 32, 8, false, [⟨15, 0, .rw, 0x0, .all⟩]⟩,
  -- TG_DST_LO (11 R311)
  ⟨0x708, 32, 8, false, [⟨31, 0, .rw, 0x0, .all⟩]⟩,
  -- TG_DST_HI (11 R311)
  ⟨0x70C, 32, 8, false, [⟨15, 0, .rw, 0x0, .all⟩]⟩,
  -- TG_LEN (11 R311)
  ⟨0x710, 32, 8, false, [⟨31, 0, .rw, 0x0, .all⟩]⟩,
  -- TG_NEXT_LO (11 R311)
  ⟨0x714, 32, 8, false, [⟨31, 5, .rw, 0x0, .all⟩]⟩,
  -- TG_NEXT_HI (11 R311)
  ⟨0x718, 32, 8, false, [⟨15, 0, .rw, 0x0, .all⟩]⟩,
  -- TG_CTLSTAT (11 R311)
  ⟨0x71C, 32, 8, false, [⟨31, 31, .w1s, 0x0, .all⟩, ⟨30, 30, .wo, 0x0, .all⟩, ⟨29, 29, .rw, 0x0, .all⟩, ⟨28, 28, .rw, 0x0, .all⟩, ⟨23, 20, .ro, 0x0, .all⟩, ⟨19, 19, .w1c, 0x0, .all⟩]⟩]

def hangRegs : List RegDesc := [
  -- HG_AT_LO/HI (12 R334)
  ⟨0x700, 4, 2, false, [⟨31, 0, .rw, 0x0, .all⟩]⟩,
  -- HG_AT_FR (12 R334)
  ⟨0x708, 4, 1, false, [⟨15, 0, .rw, 0x0, .all⟩]⟩,
  -- HG_CMD (12 R334)
  ⟨0x70C, 4, 1, false, [⟨26, 24, .wo, 0x0, .all⟩, ⟨18, 16, .wo, 0x0, .all⟩, ⟨15, 8, .wo, 0x0, .all⟩, ⟨5, 4, .wo, 0x0, .all⟩, ⟨2, 0, .wo, 0x0, .range 1 3⟩]⟩,
  -- HG_SEQ (12 R334)
  ⟨0x714, 4, 1, false, [⟨31, 0, .ro, 0x0, .all⟩]⟩,
  -- HG_SLOTs (12 R334)
  ⟨0x720, 4, 8, false, [⟨31, 30, .ro, 0x0, .all⟩, ⟨29, 29, .ro, 0x0, .all⟩, ⟨27, 24, .ro, 0x0, .all⟩, ⟨17, 16, .ro, 0x0, .all⟩, ⟨15, 8, .ro, 0x0, .all⟩, ⟨2, 0, .ro, 0x0, .all⟩]⟩,
  -- HG_BADPG (12 R334)
  ⟨0x740, 4, 1, false, [⟨31, 31, .w1c, 0x0, .all⟩, ⟨13, 0, .ro, 0x0, .all⟩]⟩]

def snapRegs : List RegDesc := [
  -- SN_LIST_LO (12 R334)
  ⟨0x700, 4, 1, false, [⟨31, 2, .rw, 0x0, .all⟩]⟩,
  -- SN_LIST_HI (12 R334)
  ⟨0x704, 4, 1, false, [⟨15, 0, .rw, 0x0, .all⟩]⟩,
  -- SN_DST_LO (12 R334)
  ⟨0x708, 4, 1, false, [⟨31, 11, .rw, 0x0, .all⟩]⟩,
  -- SN_DST_HI (12 R334)
  ⟨0x70C, 4, 1, false, [⟨15, 0, .rw, 0x0, .all⟩]⟩,
  -- SN_CTL (12 R334)
  ⟨0x710, 4, 1, false, [⟨31, 31, .w1s, 0x0, .all⟩, ⟨30, 30, .rw, 0x0, .all⟩, ⟨8, 0, .rw, 0x0, .all⟩]⟩,
  -- SN_AT_LO/HI (12 R334)
  ⟨0x714, 4, 2, false, [⟨31, 0, .rw, 0x0, .all⟩]⟩,
  -- SN_STAT (12 R334)
  ⟨0x71C, 4, 1, false, [⟨31, 31, .w1c, 0x0, .all⟩, ⟨3, 0, .ro, 0x0, .all⟩]⟩,
  -- SN_C_LO/HI (12 R334)
  ⟨0x720, 4, 2, false, [⟨31, 0, .ro, 0x0, .all⟩]⟩]

def quenchRegs : List RegDesc := [
  -- QD_EMSTAT (15 R409)
  ⟨0x700, 4, 1, false, [⟨3, 3, .ro, 0x0, .all⟩, ⟨2, 2, .w1c, 0x0, .all⟩, ⟨1, 1, .w1c, 0x0, .all⟩, ⟨0, 0, .w1c, 0x0, .all⟩]⟩,
  -- QD_CMD (15 R409)
  ⟨0x704, 4, 1, false, [⟨0, 0, .wo, 0x0, .all⟩]⟩,
  -- QD_TRIPS (15 R409)
  ⟨0x708, 4, 1, false, [⟨31, 0, .rc, 0x0, .all⟩]⟩]

def scrubRegs : List RegDesc := [
  -- SC_CTL (15 R409)
  ⟨0x700, 4, 1, false, [⟨0, 0, .rw, 0x1, .all⟩]⟩,
  -- SC_LAST (15 R409)
  ⟨0x704, 4, 1, false, [⟨31, 0, .ro, 0x0, .all⟩]⟩,
  -- SC_CE (15 R409)
  ⟨0x708, 4, 1, false, [⟨31, 0, .rc, 0x0, .all⟩]⟩]

def anvilRegs : List RegDesc := [
  -- ANV_STAT (15 R409)
  ⟨0x700, 4, 1, false, [⟨31, 16, .ro, 0x0, .all⟩, ⟨15, 0, .ro, 0x0, .all⟩]⟩,
  -- ANV_SEL (15 R409)
  ⟨0x704, 4, 1, false, [⟨5, 0, .rw, 0x0, .all⟩]⟩,
  -- ANV_FID (15 R409)
  ⟨0x708, 4, 1, false, [⟨31, 0, .ro, 0x0, .all⟩]⟩,
  -- ANV_SRC (15 R409)
  ⟨0x70C, 4, 1, false, [⟨31, 28, .ro, 0x0, .all⟩, ⟨23, 0, .ro, 0x0, .all⟩]⟩,
  -- ANV_INFO (15 R409)
  ⟨0x710, 4, 1, false, [⟨31, 30, .ro, 0x0, .all⟩, ⟨29, 27, .ro, 0x0, .all⟩, ⟨23, 16, .ro, 0x0, .all⟩, ⟨15, 0, .ro, 0x0, .all⟩]⟩,
  -- ANV_FT (15 R409)
  ⟨0x714, 4, 1, false, [⟨31, 0, .ro, 0x0, .all⟩]⟩,
  -- ANV_LINKS (15 R409)
  ⟨0x718, 4, 1, false, [⟨31, 0, .ro, 0x0, .all⟩]⟩,
  -- ANV_ACK (15 R409)
  ⟨0x71C, 4, 1, false, [⟨31, 0, .wo, 0x0, .all⟩]⟩,
  -- ANV_CLOSE (15 R409)
  ⟨0x720, 4, 1, false, [⟨31, 0, .wo, 0x0, .all⟩]⟩,
  -- ANV_CETHR (15 R409)
  ⟨0x724, 4, 1, false, [⟨15, 0, .rw, 0x10, .all⟩]⟩,
  -- ANV_LOST (15 R409)
  ⟨0x728, 4, 1, false, [⟨31, 0, .rc, 0x0, .all⟩]⟩]

def patinaRegs0 : List RegDesc := [
  -- PT_STAT (16 R424)
  ⟨0x700, 4, 1, false, [⟨31, 31, .ro, 0x0, .all⟩, ⟨30, 30, .ro, 0x0, .all⟩, ⟨29, 29, .ro, 0x0, .all⟩, ⟨28, 28, .ro, 0x0, .all⟩, ⟨13, 0, .ro, 0x0, .all⟩]⟩,
  -- PT_CMD (16 R424)
  ⟨0x704, 4, 1, false, [⟨3, 0, .wo, 0x0, .range 1 4⟩]⟩,
  -- PT_MHEAD/MTAIL (16 R424)
  ⟨0x708, 4, 2, false, [⟨20, 0, .ro, 0x0, .all⟩]⟩,
  -- PT_MRING_LO (16 R424)
  ⟨0x710, 4, 1, false, [⟨31, 0, .ro, 0x0, .all⟩]⟩,
  -- PT_MRING_HI (16 R424)
  ⟨0x714, 4, 1, false, [⟨15, 0, .ro, 0x0, .all⟩]⟩,
  -- PT_SEQ (16 R424)
  ⟨0x718, 4, 1, false, [⟨15, 0, .ro, 0x0, .all⟩]⟩,
  -- PT_OPSEC (16 R424)
  ⟨0x71C, 4, 1, false, [⟨31, 0, .ro, 0x0, .all⟩]⟩,
  -- PT_PCYC (16 R424)
  ⟨0x720, 4, 1, false, [⟨31, 0, .ro, 0x0, .all⟩]⟩,
  -- PT_SUPP/DROP/OVWR (16 R424)
  ⟨0x724, 4, 3, false, [⟨31, 0, .rc, 0x0, .all⟩]⟩,
  -- PT_FRZCNT (16 R424)
  ⟨0x730, 4, 1, false, [⟨31, 0, .ro, 0x0, .all⟩]⟩,
  -- PT_RLCODE (16 R424)
  ⟨0x734, 4, 1, false, [⟨15, 0, .rw, 0x0, .all⟩]⟩,
  -- PT_RLCFG (16 R424)
  ⟨0x738, 4, 1, false, [⟨31, 16, .rw, 0x10, .all⟩, ⟨7, 0, .rw, 0x40, .range 1 255⟩]⟩]

def patinaRegs1 : List RegDesc := [
  -- PT_SUBMIT (16 R424)
  ⟨0x740, 4, 1, false, [⟨7, 0, .wo, 0x0, .all⟩]⟩]

def patinaRegs : List RegDesc := patinaRegs0 ++ patinaRegs1

def temperRegs : List RegDesc := [
  -- TP_CTL (18 R470)
  ⟨0x700, 4, 1, false, [⟨31, 31, .rw, 0x1, .all⟩, ⟨4, 0, .rw, 0x1F, .all⟩]⟩,
  -- TP_STAT (18 R470)
  ⟨0x704, 4, 1, false, [⟨31, 31, .ro, 0x0, .all⟩, ⟨30, 28, .ro, 0x0, .all⟩, ⟨15, 0, .ro, 0x0, .all⟩]⟩,
  -- TP_ABORT/TP_FAIL (18 R470)
  ⟨0x708, 4, 2, false, [⟨31, 0, .rc, 0x0, .all⟩]⟩,
  -- TP_AGE (18 R470)
  ⟨0x710, 4, 1, false, [⟨31, 0, .ro, 0x0, .all⟩]⟩]

def primerRegs : List RegDesc := [
  -- PR_CMD (18 R470)
  ⟨0x700, 4, 1, false, [⟨31, 29, .wo, 0x0, .range 1 3⟩, ⟨28, 19, .wo, 0x0, .all⟩, ⟨8, 0, .wo, 0x0, .all⟩]⟩,
  -- PR_STAT (18 R470)
  ⟨0x704, 4, 1, false, [⟨31, 31, .ro, 0x0, .all⟩, ⟨30, 28, .ro, 0x0, .all⟩, ⟨18, 9, .ro, 0x0, .all⟩, ⟨8, 0, .ro, 0x0, .all⟩]⟩,
  -- PR_COMMIT (18 R470)
  ⟨0x708, 4, 1, false, [⟨31, 0, .ro, 0x0, .all⟩]⟩,
  -- PR_SKIP (18 R470)
  ⟨0x70C, 4, 1, false, [⟨31, 0, .rc, 0x0, .all⟩]⟩]

def smbRegs : List RegDesc := [
  -- SMB_CTL (19 R482)
  ⟨0x700, 4, 1, false, [⟨0, 0, .rw, 0x1, .all⟩]⟩,
  -- SMB_PECERR (19 R482)
  ⟨0x704, 4, 1, false, [⟨31, 0, .rc, 0x0, .all⟩]⟩,
  -- SMB_THSEL (19 R482)
  ⟨0x708, 4, 1, false, [⟨3, 0, .rw, 0x0, .upTo 13⟩]⟩,
  -- SMB_THERM (19 R482)
  ⟨0x70C, 4, 1, false, [⟨31, 31, .ro, 0x0, .all⟩, ⟨30, 30, .ro, 0x0, .all⟩, ⟨15, 0, .ro, 0x0, .all⟩]⟩]

def fbRegs0 : List RegDesc := [
  -- FB_NODE (13 R365)
  ⟨0x700, 4, 1, false, [⟨16, 16, .ro, 0x0, .all⟩, ⟨15, 0, .rw, 0x0, .upTo 65534⟩]⟩,
  -- FB_SERIAL_LO/HI (13 R365)
  ⟨0x704, 4, 2, false, [⟨31, 0, .ro, 0x0, .all⟩]⟩,
  -- FB_CTL (13 R365)
  ⟨0x70C, 4, 1, false, [⟨2, 2, .rw, 0x0, .all⟩, ⟨1, 1, .rw, 0x0, .all⟩, ⟨0, 0, .rw, 0x0, .all⟩]⟩,
  -- FB_MGR (13 R365)
  ⟨0x710, 4, 1, false, [⟨31, 16, .rw, 0x0, .all⟩, ⟨15, 0, .rw, 0x0, .all⟩]⟩,
  -- FB_DIAM (13 R365)
  ⟨0x714, 4, 1, false, [⟨5, 0, .rw, 0x28, .range 1 63⟩]⟩,
  -- FB_PROP (13 R365)
  ⟨0x718, 4, 1, false, [⟨23, 0, .ro, 0x15F90, .all⟩]⟩,
  -- FB_TO (13 R365)
  ⟨0x71C, 4, 1, false, [⟨19, 0, .rw, 0x0, .all⟩]⟩,
  -- FB_TOEFF (13 R365)
  ⟨0x720, 4, 1, false, [⟨19, 0, .ro, 0x528, .all⟩]⟩,
  -- FB_RQRING_LO (13 R365)
  ⟨0x724, 4, 1, false, [⟨31, 11, .rw, 0x0, .all⟩]⟩,
  -- FB_RQRING_HI (13 R365)
  ⟨0x728, 4, 1, false, [⟨15, 0, .rw, 0x0, .all⟩]⟩,
  -- FB_RQPROD (13 R365)
  ⟨0x72C, 4, 1, false, [⟨5, 0, .rw, 0x0, .all⟩]⟩,
  -- FB_RQISS (13 R365)
  ⟨0x730, 4, 1, false, [⟨5, 0, .ro, 0x0, .all⟩]⟩]

def fbRegs1 : List RegDesc := [
  -- FB_LATE/NOROUTE/DROP (13 R365)
  ⟨0x734, 4, 3, false, [⟨31, 0, .rc, 0x0, .all⟩]⟩,
  -- FB_EMCTL (13 R365)
  ⟨0x740, 4, 1, false, [⟨15, 8, .rw, 0x0, .all⟩, ⟨1, 1, .wo, 0x0, .all⟩, ⟨0, 0, .rw, 0x1, .all⟩]⟩,
  -- FB_EMSTAT (13 R365)
  ⟨0x744, 4, 1, false, [⟨31, 31, .w1c, 0x0, .all⟩, ⟨23, 16, .ro, 0x0, .all⟩, ⟨15, 0, .ro, 0x0, .all⟩]⟩,
  -- FB_TIME (13 R365)
  ⟨0x750, 4, 1, false, [⟨31, 31, .rw, 0x0, .all⟩, ⟨30, 30, .rw, 0x0, .all⟩, ⟨29, 29, .rw, 0x0, .all⟩, ⟨7, 7, .rw, 0x0, .all⟩, ⟨6, 4, .rw, 0x0, .all⟩, ⟨3, 3, .rw, 0x0, .all⟩, ⟨2, 0, .rw, 0x0, .all⟩]⟩,
  -- FB_TSTAT (13 R365)
  ⟨0x754, 4, 1, false, [⟨31, 31, .ro, 0x0, .all⟩, ⟨30, 30, .ro, 0x0, .all⟩, ⟨29, 29, .ro, 0x0, .all⟩]⟩,
  -- FB_TOFS (13 R365)
  ⟨0x758, 4, 1, false, [⟨31, 0, .ro, 0x0, .all⟩]⟩,
  -- FB_FTSET_LO/HI (13 R365)
  ⟨0x760, 4, 2, false, [⟨31, 0, .rw, 0x0, .all⟩]⟩,
  -- FB_FTCMD (13 R365)
  ⟨0x768, 4, 1, false, [⟨0, 0, .wo, 0x0, .all⟩]⟩,
  -- FB_FT_LO/HI (13 R365)
  ⟨0x770, 4, 2, false, [⟨31, 0, .ro, 0x0, .all⟩]⟩,
  -- FB_FT_FR (13 R365)
  ⟨0x778, 4, 1, false, [⟨15, 0, .ro, 0x0, .all⟩]⟩,
  -- FB_SVCDB (13 R365)
  ⟨0x77C, 4, 1, false, [⟨31, 0, .door, 0x0, .all⟩]⟩]

def fbRegs : List RegDesc := fbRegs0 ++ fbRegs1

def fbrtRegs : List RegDesc := [
  -- FBRT_IDX (13 R365)
  ⟨0x700, 4, 1, false, [⟨16, 16, .rw, 0x0, .all⟩, ⟨15, 0, .rw, 0x0, .all⟩]⟩,
  -- FBRT_DATA (13 R365)
  ⟨0x704, 4, 1, false, [⟨15, 0, .rw, 0x0, .all⟩]⟩,
  -- FBRT_BCi (13 R365)
  ⟨0x710, 4, 9, false, [⟨7, 0, .rw, 0x0, .all⟩]⟩]

def fbpRegs : List RegDesc := [
  -- FBP_CTL (13 R365)
  ⟨0x700, 4, 1, false, [⟨3, 3, .wo, 0x0, .all⟩, ⟨2, 2, .rw, 0x0, .all⟩, ⟨1, 1, .rw, 0x0, .all⟩, ⟨0, 0, .rw, 0x1, .all⟩]⟩,
  -- FBP_STAT (13 R365)
  ⟨0x704, 4, 1, false, [⟨31, 16, .ro, 0x0, .all⟩, ⟨15, 15, .ro, 0x0, .all⟩, ⟨14, 12, .ro, 0x0, .all⟩, ⟨2, 0, .ro, 0x0, .all⟩]⟩,
  -- FBP_ASYM (13 R365)
  ⟨0x708, 4, 1, false, [⟨31, 0, .rw, 0x0, .all⟩]⟩,
  -- FBP_RETRY/FECCOR/FECUNC/BADFR (13 R365)
  ⟨0x710, 4, 4, false, [⟨31, 0, .rc, 0x0, .all⟩]⟩]

def pcieRegs : List RegDesc := [
  -- PCI_LINK (19 R480)
  ⟨0x700, 4, 1, false, [⟨31, 31, .ro, 0x0, .all⟩, ⟨30, 30, .w1c, 0x0, .all⟩, ⟨29, 29, .ro, 0x0, .all⟩, ⟨7, 4, .ro, 0x0, .all⟩, ⟨3, 0, .ro, 0x0, .all⟩]⟩,
  -- PCI_DB (19 R480)
  ⟨0x704, 4, 1, false, [⟨31, 0, .door, 0x0, .all⟩]⟩,
  -- PCI_ERR (19 R480)
  ⟨0x708, 4, 1, false, [⟨31, 16, .rc, 0x0, .all⟩, ⟨15, 0, .rc, 0x0, .all⟩]⟩]

def msixRegs : List RegDesc := [
  -- MSX_STAT (19 R480)
  ⟨0x700, 4, 1, false, [⟨31, 31, .ro, 0x0, .all⟩, ⟨30, 30, .ro, 0x0, .all⟩, ⟨29, 29, .ro, 0x0, .all⟩]⟩,
  -- MSX_LOST (19 R480)
  ⟨0x704, 4, 1, false, [⟨31, 0, .rc, 0x0, .all⟩]⟩]

/-- The registers of a page kind at offsets 0x100-0x7FF. -/
def regsOf : Kind → List RegDesc
  | .ch => chRegs
  | .tile => tileRegs
  | .tpll => tpllRegs
  | .tref => trefRegs
  | .tcal => tcalRegs
  | .tquench => tquenchRegs
  | .pmark => pmarkRegs
  | .pal => palRegs
  | .ln => lnRegs
  | .lscr => lscrRegs
  | .lcs => lcsRegs
  | .ccs => ccsRegs
  | .cl => clRegs
  | .wd => wdRegs
  | .hbm => hbmRegs
  | .dev => devRegs
  | .rst => rstRegs
  | .bellows => bellowsRegs
  | .irqs => irqsRegs
  | .mc => mcRegs
  | .upd => updRegs
  | .mx => mxRegs
  | .mem => memRegs
  | .tongs => tongsRegs
  | .hang => hangRegs
  | .snap => snapRegs
  | .quench => quenchRegs
  | .scrub => scrubRegs
  | .anvil => anvilRegs
  | .patina => patinaRegs
  | .temper => temperRegs
  | .primer => primerRegs
  | .smb => smbRegs
  | .fb => fbRegs
  | .fbrt => fbrtRegs
  | .fbp => fbpRegs
  | .pcie => pcieRegs
  | .msix => msixRegs
  | .test => []

/-- The register of a descriptor list at an offset. -/
def findReg : List RegDesc → Nat → Option RegDesc
  | [], _ => none
  | r :: rs, o =>
    if r.off ≤ o ∧ (o - r.off) % r.stride = 0 ∧ (o - r.off) / r.stride < r.count then some r else findReg rs o

/-- Whether a page kind has bankable registers (PG_CAP.BANK, 14 R371). -/
def hasBank (k : Kind) : Bool := (regsOf k).any (fun r => r.bankable)

/-- The reset value that a list of fields gives its register. -/
def fieldsReset (fs : List Field) : Word :=
  forEach fs 0 (fun f w => setFld w f.hi f.lo f.reset)

/-- The reset value of the scramble-table words of LSCR: the identity tables of 06 R188. -/
def lscrReset (o : Nat) : Word :=
  if 0x100 ≤ o ∧ o < 0x480 then w32 ((2 * ((o - 0x100) / 4 % 28) + 1) * 0x10000 + 2 * ((o - 0x100) / 4 % 28)) else 0

/-- The reset value of the register of a page at an offset (12: the Reset columns; 14 R372, R380; 03 R97). -/
def regReset (p : Page) (o : Nat) : Word :=
  if o = 0x008 then 0x0000000A
  else if o = 0x050 ∧ p.kind = .ch then 4096
  else if 0x040 ≤ o ∧ o < 0x080 ∧ o % 0x10 = 0 then 0xFFFFFFFF
  else if p.kind = .lscr then lscrReset o
  else if p.kind = .mc ∧ o = 0x700 then (if p.inst = 0 then 0x40000000 else 0x80000000)
  else if p.kind = .patina ∧ o = 0x710 then 0x02200000
  else match findReg (regsOf p.kind) o with
    | some r => fieldsReset r.fields
    | none => 0

end Sys2Proof.Machine
end

