-- ==== Sys2Proof/Config.lean ====
section
/-! DEFINITION. What one device fixes or the manual leaves open: the free values, the boot ROM and the
cryptographic functions, each an uninterpreted constant. -/

namespace Sys2Proof.Config

/-- The free values (log 8). The model applies it to the counter State.free and then advances the counter,
so that each use is a fresh value that nothing constrains. -/
opaque freeBits : Nat → Wide

/-- The content of the 256 KiB boot ROM, Borindam's (spec 11 R285, 17 R432; log 10). -/
opaque bootRom : Nat → Byte

/-- SHA-384 of a list of bytes, least significant digest byte first (spec 07 R205, 16 R422; log 11). -/
opaque sha384 : List Byte → BitVec 384

/-- The straps SMB_ADDR[2:0], sampled at power-on reset (19 R481). -/
opaque smbAddr : BitVec 3

/-- The factory calibration constants held in fuses, by page and offset (17 R435). -/
opaque factoryCal : Nat → Nat → Word

/-- Borindam's manufacturer identity in the IDCODE, which the BSDL file states (19 R484). -/
opaque manufacturer : BitVec 11

/-- What start-up finds after a reset whose command carries no finding (17 R432; log 8). -/
opaque freeFind : Nat → BootFind

end Sys2Proof.Config
end

