-- ==== Sys2Proof/Machine/State.lean ====
section
/-! DEFINITION. The state of the block, as plain data, and the state at reset. Times are counts of 2^-16 ns of Fabric
Time (13 R358). A register that software reads or writes lives in State.regs under one key, whatever its page; what the
block holds beside its registers has the structures below. -/

namespace Sys2Proof.Machine

/-- Why a command stops the block. No command does: every command of the table has an effect in every state. -/
inductive Fault where
  deriving DecidableEq, Repr

/-- Why the model has no meaning for a command. -/
inductive Refusal where
  /-- A command the model has not reached; raised by Dispatch alone. Safe. -/
  | notModelled (mnemonic : String)
  deriving DecidableEq, Repr

/-! ## Channels (spec 01, 02, 03, 09 R242-R244, 15) -/

/-- The channel functions (02 R38). -/
inductive Func where
  | hiz | driveCompare | pmu | tdc | park
  deriving DecidableEq, Repr

/-- How far a change of function has come (02 R59, R46). -/
inductive Phase where
  /-- no change in progress -/
  | steady
  /-- the mode-change interval, to the instant given (R46) -/
  | modeChange (endT : Nat)
  /-- from A, the PMU ramps toward DL4 (R59 step 2) -/
  | ramp
  /-- the ramp has ended and B0 is the next boundary (R59 step 3) -/
  | toB0
  /-- from B0 (its instant), with the boundaries that remain to B1 (R59 step 4) -/
  | hold (b0 : Nat) (left : Nat)
  /-- from B0 to the instant of B1 while the timebase does not run (R59 step 5) -/
  | holdTimer (b1 : Nat)
  deriving DecidableEq, Repr

/-- A stream's life (03 R83, R84). -/
inductive StreamState where
  | idle | armed | running
  deriving DecidableEq, Repr

/-- A PMU measurement in progress (02 R51). -/
inductive PmuState where
  | idle | waiting | sampling
  deriving DecidableEq, Repr

/-- A symbol with the source that wrote it (R58) and, beside the last symbol of a proof interval, the lane's mark (09 R243). -/
structure Symbol where
  sym : Byte
  slice : Bool
  mark : Option Word
  deriving DecidableEq, Repr

/-- A Palette event of the stroke in progress that is not yet due: t in 2^-13 ns after the boundary (03 R88). -/
structure PalEvent where
  t : Nat
  kind : Nat
  arg : Nat
  deriving DecidableEq, Repr

/-- The stroke in progress of a channel (03 R87-R99); srcHiz: it is a source-switching stroke (02 R58); late: an event of it lies at or
after its end (03 R90). -/
structure Stroke where
  begins : Nat
  count : Nat
  period : Nat
  site : Word
  uic : Nat
  fmask : Bool
  slots : Nat
  filled : Nat
  result : BitVec 24
  events : List PalEvent
  srcHiz : Bool := false
  late : Bool := false
  deriving DecidableEq, Repr

/-- A compare result on its way to the lane (03 R99, R100). -/
structure CompareResult where
  count : Nat
  site : Word
  bits : BitVec 24
  deriving DecidableEq, Repr

/-- An open compare window: the expected region argument and whether the region has differed (03 R91). -/
structure Window where
  arg : Nat
  strayed : Bool
  deriving DecidableEq, Repr

/-- The last strobe applied (03 R91): its instant, the slot it filled and the region it expects, none where it cannot fail. -/
structure LastStrobe where
  at_ : Nat
  slot : Nat
  expects : Option Nat
  deriving DecidableEq, Repr

/-- A TDC entry (02 R54, R74). -/
structure TdcEntry where
  count : Nat
  ofs : BitVec 40
  thr : Nat
  falling : Bool
  missed : Bool
  deriving DecidableEq, Repr

/-- The proof-mark configuration captured at setup (09 R242). -/
structure MarkConfig where
  act : Bool
  xen : Bool
  interval : Nat
  deriving DecidableEq, Repr

/-- The symbols of one emit on their way to the FIFO (05 R158): for the slice emitter, the number of the emit in its lane. -/
structure EmitGroup where
  id : Nat
  slice : Bool
  syms : List Symbol
  deriving DecidableEq, Repr

/-- One channel, tile side and lane side. Of its outputs: whether they are open until the tile restarts (17 R429), the termination kept
through a switch (02 R56), the sense selection in effect (R53), whether the PMU forces during a switch, and the start of its force ramp,
in 1/65,536,000 V, with the instant (R49). pmuAt is the instant of the trigger, then that of the first sample (R51). -/
structure Chan where
  func : Func := .hiz
  phase : Phase := .steady
  held : Bool := false
  cause : Word := 0
  open_ : Bool := false
  term : Bool := false
  sense : Bool := false
  forcing : Bool := false
  rampFrom : Int := 0
  rampAt : Nat := 0
  clamped : Bool := false
  clampSince : Option Nat := none
  power : List Nat := []
  pmu : PmuState := .idle
  pmuAt : Nat := 0
  tdcArmed : Option Nat := none
  tdcLast : Option (Nat × Nat × Nat) := none
  tdcFifo : List TdcEntry := []
  stream : StreamState := .idle
  s0 : Nat := 0
  last : Nat := 0
  runToggled : Bool := false
  stopDue : Bool := false
  fifo : List Symbol := []
  srcAct : Bool := false
  lastSrc : Option Bool := none
  prevHiz : Bool := false
  drive : Option (Fin 4) := none
  lastDrive : Option Nat := none
  lastCompare : Option Nat := none
  strobe : Option LastStrobe := none
  window : Option Window := none
  stroke : Option Stroke := none
  results : List CompareResult := []
  marks : Option MarkConfig := none
  tileCrc : Word := 0xFFFFFFFF
  tilePos : Nat := 0
  tileInterval : Nat := 0
  laneCrc : Word := 0xFFFFFFFF
  lanePos : Nat := 0
  emitted : Nat := 0
  credit : Nat := 0
  laneStream : Bool := false
  laneSrc : Bool := false
  laneSrcNext : List Bool := []
  emits : List EmitGroup := []
  creditsBack : Nat := 0
  stopOnWay : Bool := false
  markStop : Bool := false
  deriving DecidableEq, Repr

/-- A mark that the tile forwards to the cluster, with its interval index (09 R244). -/
structure TileMark where
  ch : Nat
  interval : Nat
  mark : Word
  deriving DecidableEq, Repr

/-- The expected-mark table of a channel: its address at setup, its next entry and whether a table error has ended the
checks (09 R244, 10 R281). -/
structure MarkTable where
  addr : Nat := 0
  pos : Nat := 0
  failed : Bool := false
  deriving DecidableEq, Repr

/-- The stroke timebase of a cluster (03 R76-R80). -/
structure Timebase where
  en : Bool := false
  next : Nat := 0
  running : Bool := false
  ranEver : Bool := false
  count : Nat := 0
  scHi : Word := 0
  enMaster : Nat := 0
  marks : List TileMark := []
  deriving DecidableEq, Repr

/-- A PAL command in progress, with what it took at acceptance (03 R94). -/
structure PalCommand where
  write : Bool
  ch : Nat
  set : Bool
  word : Nat
  data : Wide
  canvas : Bool
  deriving DecidableEq, Repr

/-! ## Domains, faults and reports (spec 01, 14, 15) -/

/-- One management domain (01 R20, R21; 17 R427); due: it has been released and the firmware has still to restart it (17 R437); waits: the
instant after which READY of its pages is 1, where it is not 1 yet (14 R373). -/
structure Domain where
  good : Bool := true
  inReset : Bool := false
  isolated : Bool := false
  due : Bool := false
  waits : Option Nat := some 0
  deriving DecidableEq, Repr

/-- A report on its way to Anvil (15 R404): source kind and identity, class, cause (of which ANV_INFO shows the low eight bits: a Quench code
counts from 256 and a Hang slot from 512, beside the causes of PG_FAULT), the consequence group of R405
with its key (0 none), and of a page's capture the syndrome (14 R379), of an engine's report CAUSE, SYN0 and SYN1 (08 R226). -/
structure Report where
  kind : Nat
  id : Nat
  cls : Nat
  cause : Nat
  group : Nat
  key : Nat
  words : List Word
  deriving DecidableEq, Repr

/-- An Anvil entry (15 R404-R407, R409). -/
structure AnvilEntry where
  state : Nat := 0
  fid : Word := 0
  kind : Nat := 0
  id : Nat := 0
  cls : Nat := 0
  cause : Nat := 0
  count : Nat := 0
  links : Nat := 0
  firstFt : Nat := 0
  group : Nat := 0
  key : Nat := 0
  deriving DecidableEq, Repr

/-- A watermark beside its registers: whether the last sample since the last mark write was above the mark (14 R381). -/
structure WmState where
  above : Bool := false
  deriving DecidableEq, Repr

/-! ## Memory, matrix and Tongs (spec 11) -/

/-- What an address names (11 R285, R286): none is the default target. -/
inductive Target where
  | bootRom | mcBank | hostBank | fabricBank | secureBank | patinaBank
  | mram (b : Nat)
  | regs
  | coreInstr (n : Nat) | coreData (n : Nat)
  | laneSram (l : Nat) | clusterSram (k : Nat)
  | hbm (s : Nat)
  | none
  deriving DecidableEq, Repr

/-- What a matrix transaction is for, and so where its response goes. -/
inductive TransUse where
  /-- a command's own: its response joins State.replies -/
  | plain
  /-- an engine's load (05 R147), or the head entry of its store buffer (05 R142) -/
  | load (k : Nat) | store (k : Nat)
  /-- an atomic operation of a management pair (04 R128, R129; 11 R288): lr, sc, tas with the word it writes, and a tas that has waited
  for a store of its own bundle -/
  | lr (k : Nat) | sc (k : Nat) | tas (k v : Nat) | tasLate (k v : Nat)
  /-- a queue request of a management pair (09 R235), by its serial number -/
  | queue (k : Nat) (serial : Nat)
  /-- a burst or a descriptor of a Tongs channel (11 R306, R307) -/
  | tongs (c : Nat)
  /-- a piece of a PCIe request (19 R474) -/
  | pci
  /-- a request frame of another node (13 R350) -/
  | agent (f : Frame)
  /-- the response is discarded -/
  | dropped
  deriving DecidableEq, Repr

/-- A matrix transaction outstanding at a master port (11 R294-R297): the target as decoded when it entered (R310), the BUSY
responses it met, and whether the target has granted it (R293). -/
structure Trans where
  master : Master
  id : Nat
  write : Bool
  addr : Nat
  data : List Byte
  len : Nat
  target : Target
  use : TransUse
  since : Nat
  busy : Nat
  granted : Bool
  deriving DecidableEq, Repr

/-- A response that the master has not yet consumed: the port and ID it belongs to, the data read, or the error kind. -/
structure TransReply where
  master : Master
  id : Nat
  write : Bool
  data : List Byte
  err : Option BusKind
  deriving DecidableEq, Repr

/-- The power state of a region and the transition in progress (11 R301): 0 ON, 1 RET, 2 OFF. -/
structure PowerState where
  st : Nat := 0
  goal : Option Nat := none
  deriving DecidableEq, Repr

/-- One Tongs channel beside its registers (11 R306-R308): whether it waits for its next descriptor, the bytes whose read and whose write
have been issued and those whose write has been acknowledged, and the bursts read and not yet written by offset. -/
structure TongsChan where
  running : Bool := false
  abort : Bool := false
  last : Bool := false
  irq : Bool := false
  chaining : Bool := false
  read : Nat := 0
  wrote : Nat := 0
  acked : Nat := 0
  data : List (Nat × List Byte) := []
  deriving DecidableEq, Repr

/-! ## Engines (spec 04, 05, 06, 08, 09) -/

/-- A segment descriptor as its four words (04 R119). -/
structure SegDesc where
  w0 : Word := 0
  w1 : Word := 0
  w2 : Word := 0
  w3 : Word := 0
  deriving DecidableEq, Repr

/-- An access that waits for stores to leave the buffer, and how many must have left it: a load for the older stores it overlaps (05 R143), or a
tas operation for a store of its own bundle, with the word it writes (04 R106, R128); issued: that of a management pair is on the bus
matrix. -/
structure LoadWait where
  addr : Nat
  size : Nat
  signed : Bool
  after : Nat
  tas : Option Nat
  issued : Bool := false
  deriving DecidableEq, Repr

/-- A request of the engine control unit: trigger 0 stat, 1 restart, 2 park, 3 bell (08 R227). -/
structure EcRequest where
  trig : Nat
  arg : Word
  sel : Word
  fsp : Word
  deriving DecidableEq, Repr

/-- An operation between its trigger and WB (05 R138, R139): its unit and port set, the result ports that are not ready,
their values, the deferred writes (register, result port, word of the port), and whether it is an outstanding load (R140). -/
structure Op where
  unit : Nat
  priv : Bool
  vals : List (Nat × Wide)
  load : Option LoadWait
  ec : Option EcRequest
  defers : List (Nat × Nat × Nat)
  loads : Bool
  deriving DecidableEq, Repr

/-- A store-buffer entry (05 R142). -/
structure StoreEntry where
  addr : Nat
  data : List Byte
  deriving DecidableEq, Repr

/-- A failed address and its kind: a LATE_STORE report or a failed queue request (08 R217, R222). -/
structure BadAccess where
  addr : Nat
  kind : Nat
  deriving DecidableEq, Repr

/-- A queue request: its serial number and address, the words still to be popped or to arrive, and whether it failed (09 R231-R236); of a
request to SRAM the bytes at its push, and of one through the matrix the stores in the buffer then, whose bytes it shows (04 R105). -/
structure QueueReq where
  serial : Nat
  addr : Nat
  len : Nat
  words : Option (List DWord)
  failed : Option Nat
  seen : Option (List Byte) := none
  under : List StoreEntry := []
  deriving DecidableEq, Repr

/-- A q.trg_wait that has passed TR (09 R233): the place in the stream of requested words up to which it arms them, and how many
entries have been taken since and not returned from. At depth 0 it holds the engine. -/
structure QueueWait where
  upTo : Nat
  depth : Nat
  deriving DecidableEq, Repr

/-- The response to a load through the matrix. -/
structure LoadReply where
  data : List Byte
  err : Option BusKind
  deriving DecidableEq, Repr

/-- A bundle that has passed TR and waits for the response to its access through the matrix (05 R147): the address, the units it has
claimed, the response once it is there, the unit and the slot of the access, and what the accesses before it returned. -/
structure MatrixWait where
  bundle : Bundle
  addr : Nat
  units : List Nat
  reply : Option LoadReply
  unit : Nat
  slot : Nat
  got : List (Nat × List Byte)
  deriving DecidableEq, Repr

/-- What follows a bundle that has taken effect, once the drain ends: its TRAP, or its return with the offset of the bundle. -/
inductive AfterBundle where
  | trap (slot code : Nat)
  | ret (slot pc : Nat)
  deriving DecidableEq, Repr

/-- The loop buffer (05 R150): off; to be armed again at the next pass through LS (R152); copying the first iteration; supplying. -/
inductive LoopPhase where
  | off | rearm | copying | supplying
  deriving DecidableEq, Repr

/-- The loop buffer with its copies by code offset. -/
structure LoopBuf where
  phase : LoopPhase := .off
  bundles : SMap (Option Bundle) := []
  deriving DecidableEq, Repr

/-- The fetch buffer of a thread (06 R161): the first of two 64-byte lines of lane SRAM, and their halves of bundles (05 R149). -/
structure FetchBuf where
  line : Nat
  halves : List (BitVec 64)
  deriving DecidableEq, Repr

/-- OFF, RUNNING or STUCK (08 R227); DRAINING is STUCK with a drain still to end. -/
inductive RunState where
  | off | running | stuck
  deriving DecidableEq, Repr

/-- One engine: a channel core, a lane sequencer thread or a management core pair. rptBusy: the first iteration of a repeat has not
passed TR yet; entering: an entry has begun and its drain is still to end (08 R218); parkDue: a park waits for an entry to complete (08 R229); popped: the queue words popped since the queue was last emptied,
from which the waits count. -/
structure Engine where
  run : RunState := .off
  cause : Nat := 0
  stuckVec : Nat := 0
  stuckErrs : Nat := 0
  stuckPc : Word := 0
  coreStuck : List Nat := []
  g : SMap Word := []
  preds : Byte := 1
  lc : Word := 0
  ls : Word := 0
  le : Word := 0
  rptc : Word := 0
  rptLive : Bool := false
  rptBusy : Bool := false
  segsel : Nat := 0
  stage : SegDesc := {}
  segs : SMap SegDesc := []
  fsp : Word := 0
  ie : Bool := false
  mode : Nat := 1
  pc : Word := 0
  ports : SMap Wide := []
  ops : List Op := []
  stores : List StoreEntry := []
  storesOut : Nat := 0
  late : List BadAccess := []
  sketchAbort : Option (Nat × Word) := none
  errors : List (Nat × Nat) := []
  resv : Option Nat := none
  bell : Byte := 0
  fence : Bool := false
  flush : Bool := false
  delay : Option Nat := none
  matrix : Option MatrixWait := none
  after : Option AfterBundle := none
  entering : Bool := false
  parkDue : Bool := false
  loopBuf : LoopBuf := {}
  fetchBuf : Option FetchBuf := none
  queue : List QueueReq := []
  serial : Nat := 0
  popped : Nat := 0
  armed : Nat := 0
  waits : List QueueWait := []
  deriving DecidableEq, Repr

/-! ## Lanes and control stores (spec 06, 07) -/

/-- An address-history entry with V = 1 (06 R178). -/
structure AhEntry where
  addr : BitVec 56
  tag : Nat
  deriving DecidableEq, Repr

/-- A failing result that waits for its address lookup (06 R179). -/
structure Lookup where
  ch : Nat
  result : CompareResult
  addr : Option (BitVec 56)
  found : Bool
  deriving DecidableEq, Repr

/-- One failing pin of a lane event: position, site, F bits and regions (10 R252). -/
structure EventPin where
  pin : Nat
  site : Nat
  f : Nat
  reg : Nat
  deriving DecidableEq, Repr

/-- What enters the lane event FIFO: a lane event, or a user mark with its tag (10 R252, R253, R279). -/
inductive LaneEvent where
  | fails (count : Nat) (addr : Option (BitVec 56)) (pins : List EventPin)
  | mark (count : Nat) (tag : Word)
  deriving DecidableEq, Repr

/-- A fail record that is open or waits to be appended (10 R255). -/
structure FailRec where
  au : Bool
  mrg : Bool
  site : Nat
  pins : Nat
  mcnt : Nat
  uf : Nat
  first : Nat
  last : Nat
  addr : BitVec 56
  deriving DecidableEq, Repr

/-- What a lane appends to its buffers: a record, or a user mark (10 R255, R256); and the place in their order at which a FLUSH reaches the
buffer (R262, R263). -/
inductive FailItem where
  | record (r : FailRec)
  | user (count : Nat) (tag : Word)
  | flush
  deriving DecidableEq, Repr

/-- The buffer a lane fills: its index, the records in it and the SC[63:40] of its last mark (10 R256, R261). -/
structure FailBuf where
  index : Nat
  count : Nat
  scHigh : Nat
  deriving DecidableEq, Repr

/-- The Sketch operation in progress (07 R199, R200): its thread and the cycles since step 2. -/
structure SkOp where
  thread : Nat
  cycles : Nat
  deriving DecidableEq, Repr

/-- One lane. skDone: the threads whose Sketch results are on their way to the ports, oldest first (07 R199). -/
structure Lane where
  emitId : Nat := 0
  cur : Option Nat := none
  passed : Nat := 0
  started : List Nat := []
  ah : SMap (Option AhEntry) := []
  lookups : List Lookup := []
  events : List LaneEvent := []
  lastResult : Nat := 0
  lastReg : SMap (Option Nat) := []
  open_ : List FailRec := []
  buf : Option FailBuf := none
  nullBuf : Bool := false
  nullCount : Nat := 0
  asks : Bool := false
  staging : List FailItem := []
  ovf : SMap Bool := []
  unk : Bool := false
  counts : List (Nat × Nat) := []
  sr : SMap DWord := []
  sk : Option SkOp := none
  skDone : List Nat := []
  skCode : SMap Nat := []
  fmAborted : Bool := false
  deriving DecidableEq, Repr

/-- A control store (07 R189, R202-R205): the words, the states of its portions (0 EMPTY, 1 LOADING, 2 RUNNING,
3 FAILED), the mode, the load in progress and the manifest version of its customer image. -/
structure CtlStore where
  words : SMap Wide := []
  low : Nat := 0
  up : Nat := 0
  mode : Bool := false
  loadMode : Bool := false
  loadUp : Bool := false
  loading : Bool := false
  busy : Bool := false
  ptr : Nat := 0
  err : Nat := 0
  version : Word := 0
  deriving DecidableEq, Repr

/-- A microcode sequencer (07 R193-R195). -/
structure Seq where
  running : Bool := false
  addr : Nat := 0
  stack : List Nat := []
  c0 : Nat := 0
  c1 : Nat := 0
  timer : Bool := false
  waiting : Bool := false
  waited : Nat := 0
  z : Bool := false
  n : Bool := false
  c : Bool := false
  deriving DecidableEq, Repr

/-! ## Fail capture and the Weld engine (spec 10) -/

/-- A done-ring entry (10 R262, R283). -/
structure DoneEntry where
  part : Bool
  lane : Nat
  count : Nat
  buf : Nat
  deriving DecidableEq, Repr

/-- The fail pipeline of a cluster; flushLeft: the closed buffers, the oldest first, that FLUSH_BUSY still waits for (10 R263). -/
structure FailPipe where
  flush : Bool := false
  flushLeft : Nat := 0
  freeList : List Nat := []
  closing : List DoneEntry := []
  done : List DoneEntry := []
  last : Nat := 7
  closedRecs : Nat := 0
  stopped : Bool := false
  counters : SMap Nat := []
  deriving DecidableEq, Repr

/-- A cell: row and column key (10 R266). -/
structure WeldCell where
  row : Nat
  q : Nat
  col : Nat
  deriving DecidableEq, Repr

/-- A spare in use: MUST, and the row or the column key it repairs (10 R267). -/
structure WeldSpare where
  must : Bool
  cell : WeldCell
  deriving DecidableEq, Repr

/-- A region entry (10 R267): STATE 1 OPEN, 2 SOLVED, 3 UNREPAIRABLE, 4 DENSE, 5 TIMEOUT. -/
structure WeldRegion where
  site : Nat
  geo : Nat
  region : Nat
  state : Nat
  cells : Nat
  seen : List WeldCell
  pend : List WeldCell
  rows : List WeldSpare
  cols : List WeldSpare
  freed : List WeldCell
  deriving DecidableEq, Repr

/-- What reaches the Weld engine, in order (10 R270, R271): start is a START that waits behind others; replay stands for the records i to count - 1 of a buffer. -/
inductive WeldItem where
  | record (lane : Nat) (r : FailRec)
  | replay (buf i count : Nat)
  | start
  | stop
  | solve (site : Nat)
  | clear (site : Nat)
  deriving DecidableEq, Repr

/-- A hook in progress or due: the region and, for HOOK_CELL, the cell and the proposal (10 R278). -/
structure WeldHook where
  solve : Bool
  site : Nat
  region : Nat
  cell : WeldCell
  proposal : Nat
  deriving DecidableEq, Repr

/-- The Weld engine of a cluster (10 R266-R271): ST, the regions, the input, the cells of the record in work, the cells of
R268 step 7 still to be examined, the regions SOLVE has still to visit, and whether HOOK_SOLVE has left the region visited to the
search. -/
structure Weld where
  st : Nat := 0
  regions : List WeldRegion := []
  input : List WeldItem := []
  cells : List (Nat × Nat × WeldCell) := []
  exam : List (Nat × Nat × WeldCell) := []
  hook : Option WeldHook := none
  solving : Option Nat := none
  toVisit : List Nat := []
  searching : Bool := false
  w : SMap DWord := []
  flags : SMap Nat := []
  deriving DecidableEq, Repr

/-! ## Hang and snapshot (spec 12) -/

/-- A Hang slot (12 R334): ST, DEGRADED, ERR, SCOPE, GROUP, CLUSTER, H, the pages of the group, those still to switch, and those of them
whose domain has been lost or reset since acceptance (R325). -/
structure HangSlot where
  st : Nat := 0
  degraded : Bool := false
  err : Nat := 0
  scope : Nat := 0
  group : Nat := 0
  cluster : Nat := 0
  h : Nat := 0
  pages : List Nat := []
  left : List Nat := []
  lost : List Nat := []
  deriving DecidableEq, Repr

/-- A HANG whose decision is still to come (12 R321): slot, scope, group, cluster, H and the instant of arrival, and for a
Fabric Hang the node it came from and the tag of its reply. -/
structure HangAsk where
  slot : Nat
  scope : Nat
  group : Nat
  cluster : Nat
  h : Nat
  at_ : Nat
  src : Nat
  tag : Nat
  mst : Nat
  deriving DecidableEq, Repr

/-- The snapshot unit (12 R332): running, capture instant reached, the list, and the pages captured with their words. -/
structure SnapUnit where
  running : Bool := false
  startAt : Nat := 0
  atT : Nat := 0
  list : List Nat := []
  captured : Bool := false
  words : List (List Word) := []
  deriving DecidableEq, Repr

/-! ## Patina (spec 16) -/

/-- A token bucket and what it has suppressed: count, source and OPSEC of the first, OPSEC of the last (16 R416, R417). -/
structure Bucket where
  rate : Nat := 16
  burst : Nat := 64
  level : Nat := 64
  supp : Nat := 0
  firstSrc : Nat := 0
  firstOp : Nat := 0
  lastOp : Nat := 0
  deriving DecidableEq, Repr

/-- Patina beside its registers: the events raised and not yet at the intake queue, each with the instant at which it was raised, the queue, the producers that wait for
it, the volatile ring with its write pointer and fill, the state of freeze and flush, the power-fail mode, the drops since
the last DROPPED record, and the buckets. -/
structure Patina where
  offers : List (Nat × PatEvent) := []
  intake : List PatEvent := []
  waiting : List PatEvent := []
  vol : List (List Byte) := []
  ptr : Nat := 0
  fill : Nat := 0
  frozen : Bool := false
  freezing : Bool := false
  frzBroken : Bool := false
  auth : Bool := false
  flushing : Bool := false
  flushN : Nat := 0
  want : Bool := false
  bellows : Bool := false
  dropN : Nat := 0
  dropOp : Nat := 0
  buckets : SMap Bucket := []
  deriving DecidableEq, Repr

/-! ## Amibin fabric (spec 13) -/

/-- An Amibin port beside its registers (13 R336-R340, R358): STATE, the neighbour, the link sequence numbers, the frames
sent and not acknowledged with their resends, the frames that wait, the neighbour's buffer space taken and returned so far, its own
returned so far, whether a resend is to be asked for, the requests made and those of the neighbour that were served, the LSEQ of a frame
that an emergency block has cut, the place in the weighted round, the last FAULT, and the last TSYNC received
(its departure, its arrival, and when one last came), and the codewords corrected since the last sample of FBP watermark 1. -/
structure Port where
  st : Nat := 0
  nbr : Nat := 0
  nport : Nat := 0
  known : Bool := false
  rxSeq : Nat := 0
  txSeq : Nat := 0
  unacked : List (Nat × Frame) := []
  txq : List Frame := []
  taken : SMap Nat := []
  back : SMap Nat := []
  freed : SMap Nat := []
  resend : Bool := false
  requests : Nat := 0
  served : Nat := 0
  cut : Option Nat := none
  wrr : Nat := 0
  faultAt : Option Nat := none
  sync : Option (Nat × Nat) := none
  lastSync : Nat := 0
  fecMs : Nat := 0
  deriving DecidableEq, Repr

/-- A transaction of the ring that is outstanding (13 R347, R353): the port it left on last, whether it has left, and its first
transmission, its issue until then. -/
structure FabTrans where
  tag : Nat
  index : Nat
  read : Bool
  dst : Nat
  len : Nat
  buf : Nat
  port : Option Nat
  sent : Bool
  sentAt : Nat
  deriving DecidableEq, Repr

/-- A frame delivered to this device and not yet handled, with its arrival port (8: this device itself). -/
structure Delivered where
  port : Nat
  frame : Frame
  deriving DecidableEq, Repr

/-- The fabric beside its registers: the routing table, the delivered frames, the last EID, the pairs seen, the next tag, the
tags that ended and when, the transactions outstanding, the run of exchanges within 5 ps, whether FB_TIME changed, whether the
alternate parent is in use, whether an FB_FTSET waits for FT_PPS, whether the steering of the timing PLLs by FT is absent (03 R81), and the part of
the last offset, in 2^-16 ns, that is still to be slewed away, with the units of time since the last correction by one (R359, R360). -/
structure Fabric where
  routes : SMap Word := []
  delivered : List Delivered := []
  eid : Nat := 0
  seen : List (Nat × Nat) := []
  nextTag : Nat := 0
  ended : List (Nat × Nat) := []
  outstanding : List FabTrans := []
  lockRun : Nat := 0
  timeNew : Bool := true
  onAlt : Bool := false
  ftPending : Bool := false
  unsteered : Bool := false
  slew : Int := 0
  slewTicks : Nat := 0
  deriving DecidableEq, Repr

/-! ## Host interface and service (spec 17 R440-R444, 18, 19) -/

/-- A piece of a PCIe request, one matrix transaction (19 R474): its address, the bytes to write or those read, and whether it
has been issued and has ended. -/
structure PciPiece where
  addr : Nat
  len : Nat
  data : List Byte
  issued : Bool := false
  done : Bool := false
  err : Option BusKind := none
  deriving DecidableEq, Repr

/-- A PCIe request that has not completed (19 R474, R475), with the ID of its pieces once they are issued; failed: a piece of a write has
ended with an error. -/
structure PciReq where
  write : Bool
  tag : Nat
  relaxed : Bool
  id : Option Nat := none
  pieces : List PciPiece
  deriving DecidableEq, Repr

/-- The PCIe endpoint beside its page: the requests in progress, the words of the MSI-X table and the vectors whose pending
bit is set (19 R473, R479); of its configuration whether it is in D3hot, the ASPM control and the status of AER (R472, log 192). -/
structure PcieUnit where
  reqs : List PciReq := []
  table : SMap Word := []
  pba : List Nat := []
  d3 : Bool := false
  aspm : Nat := 0
  aer : Word := 0
  deriving DecidableEq, Repr

/-- The junction sensors, in 1/16 degree, and what is in force (19 R483). -/
structure Thermal where
  temps : SMap (BitVec 16) := []
  warn : Bool := false
  trip : Bool := false
  deriving DecidableEq, Repr

/-- The Bellows sequence beside BL_STAT (17 R441): whether the journal step is open, whether step 4 has been reached,
and a RESET_N that takes effect at step 4 (R443), with what start-up finds then. -/
structure Bellows where
  journal : Bool := false
  stopped : Bool := false
  reset : Option BootFind := none
  deriving DecidableEq, Repr

/-- Temper (18 R460): the target under test (row and instance), the OPSEC at which each target last passed, and the OPSEC of
the reset of D8. -/
structure Temper where
  test : Option (Nat × Nat) := none
  passed : SMap (Option Nat) := []
  base : Nat := 0
  deriving DecidableEq, Repr

/-- The Primer run in progress (18 R464): 1 FULL, 2 INCR; the channels an INCR run has still to do; the channels being measured; and of a
FULL run the channels measured, the tile position in progress and the instant at which the next one follows. -/
structure PrimerRun where
  op : Nat := 0
  left : List Nat := []
  cur : List Nat := []
  swept : List Nat := []
  pos : Nat := 0
  next : Nat := 0
  deriving DecidableEq, Repr

/-- The image slots as the firmware knows them (18 R452-R455, R458), by 2 * component + 1 for slot B: those that hold an image, the
manifests of those whose signature passed; and the manifest of the management firmware that runs, where it came from the host bank. -/
structure Images where
  installed : List Nat := []
  slots : SMap (Option Manifest) := []
  host : Option Manifest := none
  deriving DecidableEq, Repr

/-- An update journal that is open (18 R458), as the active pair works on it: component, slot, manifest, the place and the digest of the
image in its bank, the step last committed, the chunks journaled, in step 5 the blocks still to activate, whether the slot was marked not verified before, and the number
of the update and of its next line in the journal area (R457). -/
structure Journal where
  comp : Nat
  slotB : Bool
  manifest : Manifest
  src : Nat
  len : Nat
  digest : BitVec 384
  step : Nat
  chunks : Nat
  left : List Nat := []
  was : Bool := false
  number : Nat := 0
  line : Nat := 0
  deriving DecidableEq, Repr

/-- A program image that has been loaded: its engines and the peaks it declares for each stack (09 R241, R249). -/
structure Loaded where
  engines : List Nat
  budget : List Nat
  deriving DecidableEq, Repr

/-- What a service slot that is TAKEN waits for (19 R477): again, that its request be served again from its start (18 R449). -/
inductive SlotWait where
  | primer | flush | update | again
  | power (off : Nat)
  deriving DecidableEq, Repr

/-- A service slot that is TAKEN: its bank, its number and what completes it. -/
structure TakenSlot where
  fab : Bool
  slot : Nat
  wait : SlotWait
  deriving DecidableEq, Repr

/-- What the device has sent out of itself (log 9). -/
inductive Out where
  | msix (addr : DWord) (data : Word)
  | frame (port : Nat) (wire : List Byte)
  | linkBlock (port : Nat) (b : LinkBlock)
  | emergency (port : Nat) (lanes : List (List (BitVec 128)))
  | ppsPulse (at_ : Nat)
  | debugWrite (page off : Nat) (v : Word)
  | siteDegraded (site : Nat)
  | completion (tag status : Nat) (data : List Byte)
  | smbus (data : List Byte)
  | smbusNack
  | aer (status : Nat)
  deriving DecidableEq, Repr

/-- The levels of the pins that a rule reads after their edge: EMSTOP_N (15 R397, R409) and TAMPER_N (18 R469), true while asserted. -/
structure Pins where
  emstop : Bool := false
  tamper : Bool := false
  deriving DecidableEq, Repr

/-- The whole state of the block. -/
structure State where
  pending : List Instr
  now : Nat
  free : Nat
  outbox : List Out
  regs : SMap Word
  swapped : SMap Bool
  calSwapped : SMap Bool
  held : SMap Word
  wms : SMap WmState
  irqOut : SMap Bool
  msixDue : SMap Nat
  pal : SMap Wide
  palHeld : SMap Wide
  palCmds : SMap (Option PalCommand)
  chans : SMap Chan
  bases : SMap Timebase
  tables : SMap MarkTable
  doms : SMap Domain
  pins : Pins
  lifecycle : Nat
  keyFused : Bool
  reports : List Report
  anvil : SMap AnvilEntry
  nextFid : Word
  corrected : SMap (List Nat)
  mem : List Host.Cell
  trans : List Trans
  replies : List TransReply
  power : SMap PowerState
  granted : SMap Nat
  tongs : SMap TongsChan
  tongsLast : Nat
  mramLines : SMap (List Nat)
  mramGap : SMap Bool
  hang : SMap HangSlot
  hangAsk : Option HangAsk
  fabHangAsk : Option HangAsk
  copies : List (List Nat)
  fstat : SMap Word
  snap : SnapUnit
  engines : SMap Engine
  stale : SMap (List (BitVec 64))
  lanes : SMap Lane
  stores : SMap CtlStore
  seqs : SMap Seq
  fails : SMap FailPipe
  welds : SMap Weld
  patina : Patina
  wiping : Bool
  ports : SMap Port
  fabric : Fabric
  pcie : PcieUnit
  thermal : Thermal
  bellows : Bellows
  temper : Temper
  primer : PrimerRun
  calDue : SMap (Option Nat)
  journal : Option Journal
  images : Images
  loaded : List Loaded
  taken : List TakenSlot
  tap : TapInstr
  tapFault : Bool
  deriving DecidableEq, Repr

/-- The machine right after reset (12; the values the spec leaves open are log 4-7). -/
def State.reset : State :=
  { pending := [], now := 0, free := 0, outbox := [], regs := [], swapped := [], calSwapped := [], held := [],
    wms := [], irqOut := [], msixDue := [], pal := [], palHeld := [], palCmds := [], chans := [], bases := [],
    tables := [], doms := [], pins := {}, lifecycle := 2, keyFused := false, reports := [], anvil := [], nextFid := 1, corrected := [], mem := [], trans := [],
    replies := [], power := [], granted := [], tongs := [], tongsLast := 7, mramLines := [], mramGap := [],
    hang := [], hangAsk := none, fabHangAsk := none, copies := [], fstat := [], snap := {},
    engines := [], stale := [], lanes := [], stores := [], seqs := [], fails := [], welds := [], patina := {}, wiping := false,
    ports := [], fabric := {}, pcie := {}, thermal := {}, bellows := {}, temper := {}, primer := {}, calDue := [], journal := none,
    images := {}, loaded := [], taken := [], tap := .idcode, tapFault := false }

end Sys2Proof.Machine
end

