-- ==== Sys2Proof/Machine/Ops.lean ====
section
/-! DEFINITION. The named operations over registers, pages, faults, interrupts, watermarks and memory, which every
command's meaning is written with (spec 12, 14, 11 R285-R305). -/

namespace Sys2Proof.Machine

/-! ## Time and free values -/

/-- One nanosecond in units of 2^-16 ns (13 R358). -/
def ns : Nat := 65536

/-- One microsecond in units of 2^-16 ns. -/
def us : Nat := 65536000

/-- Fabric Time, whole nanoseconds. -/
def ftNs (s : State) : Nat := s.now / ns

/-- FT nanoseconds bits [47:16], the form of recorded times (14 R383). -/
def ft4716 (s : State) : Nat := ftNs s / 65536 % 2 ^ 32

/-- Let Fabric Time reach an instant; it never goes back (log 2). -/
def reach (t : Nat) (s : State) : State := { s with now := max s.now t }

/-- The free value at the counter, width bits of it (log 8). -/
def freeVal (w : Nat) (s : State) : Nat := (Config.freeBits s.free).toNat % 2 ^ w

/-- The counter after one use of a free value. -/
def tick (s : State) : State := { s with free := s.free + 1 }

/-- The state with one more thing sent out. -/
def send (o : Out) (s : State) : State := { s with outbox := o :: s.outbox }

/-! ## Access to the parts of State -/

def chan (s : State) (c : Nat) : Chan := smGet {} s.chans c
def setChan (c : Nat) (x : Chan) (s : State) : State := { s with chans := smPut {} s.chans c x }
def modChan (c : Nat) (f : Chan → Chan) (s : State) : State := setChan c (f (chan s c)) s
def base (s : State) (k : Nat) : Timebase := smGet {} s.bases k
def setBase (k : Nat) (x : Timebase) (s : State) : State := { s with bases := smPut {} s.bases k x }
def modBase (k : Nat) (f : Timebase → Timebase) (s : State) : State := setBase k (f (base s k)) s
def dom (s : State) (d : Nat) : Domain := smGet {} s.doms d
def setDom (d : Nat) (x : Domain) (s : State) : State := { s with doms := smPut {} s.doms d x }

/-- The key of an engine: cores first, then threads, then the two pairs. -/
def engKey : EngId → Nat
  | .core n => n.val
  | .thread l t => 512 + 8 * l.val + t.val
  | .pair p => 1024 + p.val

/-- An engine at reset (08 R215): the pairs run in Service mode under their reset code descriptor, the others are OFF. -/
def engDefault (k : Nat) : Engine :=
  if 1024 ≤ k then { run := .running, mode := 2, segs := [(0, ⟨0, 0, 0x3FFFFF, 11⟩)] } else {}

def eng (s : State) (k : Nat) : Engine := smGet (engDefault k) s.engines k
def setEng (k : Nat) (e : Engine) (s : State) : State := { s with engines := smPut (engDefault k) s.engines k e }
def modEng (k : Nat) (f : Engine → Engine) (s : State) : State := setEng k (f (eng s k)) s
def lane (s : State) (l : Nat) : Lane := smGet {} s.lanes l
def setLane (l : Nat) (x : Lane) (s : State) : State := { s with lanes := smPut {} s.lanes l x }
def modLane (l : Nat) (f : Lane → Lane) (s : State) : State := setLane l (f (lane s l)) s
def store (s : State) (i : Nat) : CtlStore := smGet {} s.stores i
def setStore (i : Nat) (x : CtlStore) (s : State) : State := { s with stores := smPut {} s.stores i x }
def modStore (i : Nat) (f : CtlStore → CtlStore) (s : State) : State := setStore i (f (store s i)) s
def seqAt (s : State) (i : Nat) : Seq := smGet {} s.seqs i
def setSeq (i : Nat) (x : Seq) (s : State) : State := { s with seqs := smPut {} s.seqs i x }
def failPipe (s : State) (k : Nat) : FailPipe := smGet {} s.fails k
def setFail (k : Nat) (x : FailPipe) (s : State) : State := { s with fails := smPut {} s.fails k x }
def modFail (k : Nat) (f : FailPipe → FailPipe) (s : State) : State := setFail k (f (failPipe s k)) s
def weld (s : State) (k : Nat) : Weld := smGet {} s.welds k
def setWeld (k : Nat) (x : Weld) (s : State) : State := { s with welds := smPut {} s.welds k x }
def modWeld (k : Nat) (f : Weld → Weld) (s : State) : State := setWeld k (f (weld s k)) s

/-- A domain that has lost power-good, is in reset or is isolated (01 R21). -/
def domLost (s : State) (d : Nat) : Bool := !(dom s d).good || (dom s d).inReset || (dom s d).isolated

/-! ## The two hierarchies (01 R16, R17) -/

def laneOf (c : Nat) : Nat := c / 8
def tileOf (c : Nat) : Nat := c / 64
def clusterOfLane (l : Nat) : Nat := (l + 60) % 64 / 8
def clusterOf (c : Nat) : Nat := clusterOfLane (laneOf c)

/-- Lane i, 0 to 7, of cluster k, the four lanes of the upper half of its first tile first. -/
def laneOfCluster (k i : Nat) : Nat := (8 * k + 4 + i) % 64

/-- Position q, 0 to 63, of cluster k: channel position q mod 8 of its lane q / 8. -/
def chanOfCluster (k q : Nat) : Nat := 8 * laneOfCluster k (q / 8) + q % 8

def chPage (c : Nat) : Nat := pageIndex ⟨.ch, c⟩
def palPage (l : Nat) : Nat := pageIndex ⟨.pal, l⟩
def tqPage (t : Nat) : Nat := pageIndex ⟨.tquench, t⟩
def pmPage (t : Nat) : Nat := pageIndex ⟨.pmark, t⟩
def clPage (k : Nat) : Nat := pageIndex ⟨.cl, k⟩
def fbPage : Nat := pageIndex ⟨.fb, 0⟩
def devPage : Nat := pageIndex ⟨.dev, 0⟩
def wdPage (k : Nat) : Nat := pageIndex ⟨.wd, k⟩
def lnPage (l : Nat) : Nat := pageIndex ⟨.ln, l⟩
def lscrPage (l : Nat) : Nat := pageIndex ⟨.lscr, l⟩
def quenchPage : Nat := pageIndex ⟨.quench, 0⟩
def anvilPage : Nat := pageIndex ⟨.anvil, 0⟩

/-! ## Registers (12 R312, R313) -/

/-- The key of a register of a physical set. -/
def regKey (set : Bool) (page off : Nat) : Nat := set.toNat * 2 ^ 26 + page * 2 ^ 12 + off

/-- The reset value of a register by page index. -/
def resetAt (page off : Nat) : Word :=
  match pageAt page with
  | some p => regReset p off
  | none => 0

/-- Whether an offset lies in the bankable range. -/
def bankable (off : Nat) : Bool := 0x100 ≤ off && off < 0x700

/-- Whether an offset of a page lies in a channel's calibration area (18 R463). -/
def isCal (page off : Nat) : Bool :=
  0x400 ≤ off && off < 0x600 && (match pageAt page with | some ⟨.ch, _⟩ => true | _ => false)

/-- The physical set that holds the Canvas role at an offset of a page (12 R313, 18 R465). -/
def canvasSet (s : State) (page off : Nat) : Bool :=
  if isCal page off then smGet false s.swapped page != smGet false s.calSwapped page
  else smGet false s.swapped page

/-- The register of a role: Canvas, or Easel where easel is true; offsets outside the bankable range have one copy. -/
def roleKey (s : State) (easel : Bool) (page off : Nat) : Nat :=
  if bankable off then regKey (canvasSet s page off != easel) page off else regKey false page off

/-- A register of a role. -/
def rdRole (s : State) (easel : Bool) (page off : Nat) : Word :=
  smGet (resetAt page off) s.regs (roleKey s easel page off)

/-- The Canvas register, or the single copy outside the bankable range. -/
def rdReg (s : State) (page off : Nat) : Word := rdRole s false page off

/-- Store a register of a role. -/
def wrRole (easel : Bool) (page off : Nat) (v : Word) (s : State) : State :=
  { s with regs := smPut (resetAt page off) s.regs (roleKey s easel page off) v }

/-- Store the Canvas register, or the single copy. -/
def wrReg (page off : Nat) (v : Word) (s : State) : State := wrRole false page off v s

/-- Change the Canvas register, or the single copy. -/
def modReg (page off : Nat) (f : Word → Word) (s : State) : State := wrReg page off (f (rdReg s page off)) s

/-- Add to a saturating counter register. -/
def countReg (page off n : Nat) (s : State) : State := modReg page off (fun w => satAdd w n) s

/-- The value in force of a channel-page register: the old value while a live write waits for its boundary (02 R62). -/
def inForce (s : State) (page off : Nat) : Word :=
  smGet (rdReg s page off) s.held (regKey false page off)

/-- CH_FUNC in force of a channel. -/
def chFunc (s : State) (c : Nat) : Word := inForce s (chPage c) 0x100

/-- Whether a page belongs to an armed Hang (12 R324). -/
def hangArmed (s : State) (page : Nat) : Bool :=
  s.hang.any (fun e => e.2.st == 1 && e.2.pages.contains page)

/-! ## Interrupts (14 R374, R375) -/

/-- The number of a watermark of a page in State.wms. -/
def wmKey (page n : Nat) : Nat := page * 4 + n

/-- WM_HITS.HIT of watermarks 0-3, one bit each. -/
def wmHits (s : State) (page : Nat) : Nat :=
  (bit (rdReg s page 0x04C) 31).toNat + 2 * (bit (rdReg s page 0x05C) 31).toNat
    + 4 * (bit (rdReg s page 0x06C) 31).toNat + 8 * (bit (rdReg s page 0x07C) 31).toNat

/-- PG_IRQ_PEND. -/
def irqPend (s : State) (page : Nat) : Word := rdReg s page 0x010 &&& rdReg s page 0x014

/-- The page's interrupt output (14 R375). -/
def irqOutput (s : State) (page : Nat) : Bool :=
  let ctl := rdReg s page 0x008
  irqPend s page != 0 || (bit ctl 3 && bit (rdReg s page 0x020) 31)
    || Nat.land (fld ctl 7 4) (wmHits s page) != 0

/-- One more MSI-X message is due for a page whose PG_CTL.HOST is 1. -/
def msixAsk (page : Nat) (s : State) : State :=
  if bit (rdReg s page 0x008) 2 then { s with msixDue := smPut 0 s.msixDue page (smGet 0 s.msixDue page + 1) } else s

/-- Follow the page's output after a change: a rising edge with HOST = 1 is due a message (14 R375). -/
def noteIrq (page : Nat) (s : State) : State :=
  let o := irqOutput s page
  let s' := { s with irqOut := smPut false s.irqOut page o }
  if o && !smGet false s.irqOut page then msixAsk page s' else s'

/-- After a write to a register of 14 R375's list: a further message if the output stays asserted, else the edge rule. -/
def noteAck (page : Nat) (s : State) : State :=
  if irqOutput s page && smGet false s.irqOut page then msixAsk page s else noteIrq page s

/-- Set bits of PG_IRQ_RAW. -/
def raise (page : Nat) (bits : Word) (s : State) : State :=
  noteIrq page (modReg page 0x010 (fun w => w ||| bits) s)

/-- Set one bit of PG_IRQ_RAW. -/
def raiseBit (page i : Nat) (s : State) : State := raise page (w32 (2 ^ i)) s

/-- Set the REJECT bit where the page assigns one. -/
def raiseReject (page : Nat) (s : State) : State :=
  match pageAt page with
  | some p => match rejectBit p.kind with
    | some i => raiseBit page i s
    | none => s
  | none => s

/-! ## Faults (14 R377, R379) -/

/-- A report joins those on their way to Anvil (15 R404). -/
def report (r : Report) (s : State) : State := { s with reports := s.reports ++ [r] }

/-- PG_FAULT causes. -/
def fREJECT : Nat := 1
def fINVALID : Nat := 2
def fREFUSED : Nat := 3
def fEVENT : Nat := 4
def fTMR : Nat := 5
def fHW : Nat := 6

/-- The syndrome of a capture. -/
def syndrome (cause off detail : Nat) : Word :=
  w32 (0x80000000 + cause % 64 * 2 ^ 24 + off % 4096 * 2 ^ 12 + detail % 4096)

/-- A capture of PG_FAULT without its report (14 R377). -/
def captureOnly (page cause off detail : Nat) (s : State) : State :=
  noteIrq page (modReg page 0x020 (fun f => if bit f 31 then setBit f 30 true else syndrome cause off detail) s)

/-- A capture of PG_FAULT, sent to Anvil with a class, a cause to show and a consequence group (14 R379, 15 R404). -/
def captureAs (page cause off detail cls show_ group key : Nat) (s : State) : State :=
  report ⟨0, page, cls, show_, group, key, [syndrome cause off detail]⟩ (captureOnly page cause off detail s)

/-- The class of a plain capture: TMR is CORRECTED, all others BLOCK (log 14). -/
def captureClass (cause : Nat) : Nat := if cause = fTMR then 0 else 3

/-- A capture of PG_FAULT with the default class. -/
def capture (page cause off detail : Nat) (s : State) : State :=
  captureAs page cause off detail (captureClass cause) cause 0 0 s

/-- The MASTER encoding of MX_ERR_INFO (11 R309); the calibration sequencer, which it does not list, counts as a management
pair (log 15). -/
def masterCode : Master → Nat
  | .mcA => 0
  | .mcB => 1
  | .pcie => 2
  | .agent => 3
  | .tongs => 4
  | .temper => 5
  | .patina => 6
  | .lane _ => 7
  | .tileSeq _ => 0

/-- A rejected write: REJECT where assigned, and PG_FAULT (14 R377). -/
def rejectWrite (page off : Nat) (m : Master) (s : State) : State :=
  capture page fREJECT off (masterCode m) (raiseReject page s)

/-- A write refused as invalid under 02 R43, or a reserved encoding of a command (00 R13): REJECT and INVALID. -/
def invalidWrite (page off : Nat) (m : Master) (s : State) : State :=
  capture page fINVALID off (masterCode m) (raiseReject page s)

/-- A command refused by its block (14 R377). -/
def refuseCmd (page off : Nat) (m : Master) (s : State) : State :=
  capture page fREFUSED off (masterCode m) s

/-! ## Watermarks (14 R380-R383) -/

/-- A sample of watermark n of a page (14 R381). -/
def wmSample (page n value : Nat) (s : State) : State :=
  let b := 0x040 + 0x10 * n
  let v := min value 0xFFFFFFFF
  let above := decide ((rdReg s page b).toNat < v)
  let crossing := above && !(smGet {} s.wms (wmKey page n)).above
  let s := wrReg page (b + 4) (w32 v) s
  let s := modReg page (b + 8) (fun p => if p.toNat < v then w32 v else p) s
  let s := { s with wms := smPut {} s.wms (wmKey page n) ⟨above⟩ }
  if crossing then
    let hits := rdReg s page (b + 0xC)
    let s := wrReg page (b + 0xC) (setFld (setBit hits 31 true) 15 0 (min (fld hits 15 0 + 1) 0xFFFF)) s
    noteIrq page (if bit hits 31 then s else wrReg page (0x030 + 4 * n) (w32 (ft4716 s)) s)
  else s

/-- A write of 1 to WM_HITS.HIT (14 R382). -/
def wmClear (page n : Nat) (s : State) : State :=
  let b := 0x040 + 0x10 * n
  noteAck page (wrReg (page) (0x030 + 4 * n) 0 (wrReg page (b + 8) (rdReg s page (b + 4)) (wrReg page (b + 0xC) 0 s)))

/-- A write of WM_MARK starts a new evaluation (14 R381). -/
def wmMark (page n : Nat) (v : Word) (s : State) : State :=
  wrReg page (0x040 + 0x10 * n) v { s with wms := smPut {} s.wms (wmKey page n) ⟨false⟩ }

/-! ## Memory (11 R285) -/

/-- The canonical form of memory: addresses rise strictly and no byte listed is what an unlisted address reads as (log 5). -/
def Memory.wf (m : List Host.Cell) : Bool := smWf 0 m

/-- A byte of memory by its key; the key of the MC bank is that of window W1, of the boot ROM that of W0 (log 5). -/
def memByte (s : State) (k : Nat) : Byte := smGet 0 s.mem k

/-- Store a byte of memory; the list keeps its canonical form. -/
def setByte (k : Nat) (b : Byte) (s : State) : State := { s with mem := smPut 0 s.mem k b }

/-- Store bytes from a key upward. -/
def setBytes (k : Nat) : List Byte → State → State
  | [], s => s
  | b :: bs, s => setBytes (k + 1) bs (setByte k b s)

/-- n bytes from a key upward. -/
def memBytes (s : State) : Nat → Nat → List Byte
  | _, 0 => []
  | k, n + 1 => memByte s k :: memBytes s (k + 1) n

/-- Remove every byte in [lo, hi): the range reads as unlisted memory. -/
def wipeMem (lo hi : Nat) (s : State) : State :=
  { s with mem := smDrop (fun k => lo ≤ k && k < hi) s.mem }

/-! ## Field merge (00 R10, R13) -/

/-- A field after a live write: its new value, and whether the value written was a reserved encoding. -/
def mergeField (f : Field) (old v : Word) : Nat × Bool :=
  let o := fld old f.hi f.lo
  let n := fld v f.hi f.lo
  match f.acc with
  | .rw => if f.ok.ok n then (n, false) else (o, true)
  | .w1c => (o - Nat.land o n, false)
  | .w1s => (Nat.lor o n, false)
  | _ => (o, false)

/-- A register after a live write, and whether a field met a reserved encoding. -/
def mergeWord (fs : List Field) (old v : Word) : Word × Bool :=
  forEach fs (old, false) (fun f r =>
    let m := mergeField f old v
    (setFld r.1 f.hi f.lo m.1, r.2 || m.2))

/-- The value an Easel register takes: as written in its fields, unchecked (12 R314). -/
def easelWord (fs : List Field) (v : Word) : Word :=
  forEach fs 0 (fun f w => setFld w f.hi f.lo (fld v f.hi f.lo))

/-- Whether every RW field of a word holds an unreserved encoding. -/
def wordValid (fs : List Field) (v : Word) : Bool :=
  fs.all (fun f => f.acc != .rw || f.ok.ok (fld v f.hi f.lo))

/-- Whether a write of reserved encodings meets a WO field (00 R13). -/
def woInvalid (fs : List Field) (v : Word) : Bool :=
  fs.any (fun f => f.acc == .wo && !f.ok.ok (fld v f.hi f.lo))

end Sys2Proof.Machine
end

