-- ==== Sys2Proof/Machine/Analogue.lean ====
section
/-! DEFINITION. What a channel presents at its contact (spec 02 R38-R50, R53, R56): the driver, the termination, the active load,
the keeper, and what the parametric measurement unit forces, with its ramp and its clamps. Voltages are in 1/327,680 V, of which every
level and every PMU code is a whole number; the ramp of 1 V/us keeps 1/65,536,000 V, one step for each 2^-16 ns; currents are in the
measure step of range 0, 2 uA / 2^17. -/

namespace Sys2Proof.Machine

/-! ## What is in force -/

/-- A 64-bit value held in two registers, low word first. -/
def rd64 (s : State) (page lo : Nat) : Nat := (rdReg s page lo).toNat + 2 ^ 32 * (rdReg s page (lo + 4)).toNat

/-- Whether the stroke count of a channel's cluster advances (03 R78). -/
def strokesRun (s : State) (c : Nat) : Bool := (base s (clusterOf c)).running

/-- The stroke period in force of a cluster, in 2^-13 ns (03 R76). -/
def period (s : State) (k : Nat) : Nat :=
  (rdReg s (clPage k) 0x100).toNat + 2 ^ 32 * fld (rdReg s (clPage k) 0x104) 7 0

/-- A time base of a channel in force, 2^-13 ns (03 R82). -/
def timeBase (s : State) (c n : Nat) : Nat :=
  (inForce s (chPage c) (0x200 + 8 * n)).toNat + 2 ^ 32 * fld (inForce s (chPage c) (0x204 + 8 * n)) 7 0

/-- CH_FUNC.FUNC as a function. -/
def funcOf (w : Word) : Func :=
  match fld w 2 0 with
  | 1 => .driveCompare
  | 2 => .pmu
  | 3 => .tdc
  | 4 => .park
  | _ => .hiz

/-- The encoding of a function (02 R38). -/
def funcCode : Func → Nat
  | .hiz => 0
  | .driveCompare => 1
  | .pmu => 2
  | .tdc => 3
  | .park => 4

/-- A level code in volts, in units of 1/327,680 V (02 R40). -/
def levelVolts (fast : Bool) (code : Nat) : Int :=
  if fast then (code * 16 : Nat) - 327680 else (code * 50 : Nat) - 655360

/-- A signed field. -/
def sfld (w : Word) (hi lo : Nat) : Int := let v := fld w hi lo; if 2 ^ (hi - lo) ≤ v then (v : Int) - 2 ^ (hi - lo + 1) else v

/-- A code after the gain and offset of a constant (18 R463), rounded down (log 195). -/
def corrected (w : Word) (code : Int) : Int := code + code * sfld w 31 16 / 2 ^ 20 + sfld w 15 0

/-- The code that the converter of level n gets: DL0-DL4, then CT0-CT2 (R40; 18 R463). The voltage that R40 gives for the programmed code is
the one at the contact, so that nothing else of the model takes the converter's. -/
def converterLevel (s : State) (c n : Nat) : Int :=
  let off := if n < 5 then 0x110 + 4 * n else 0x130 + 4 * (n - 5)
  corrected (rdReg s (chPage c) (0x400 + 4 * n)) (fld (inForce s (chPage c) off) 15 0 : Nat)

/-- The time at which the edge converter acts for an event of time t, in 2^-13 ns: 0 a drive that rises, 1 one that falls, 2 a strobe, 3 the TDC
(R88; 18 R463). -/
def converterTime (s : State) (c m t : Nat) : Int :=
  (t : Int) + sfld (rdReg s (chPage c) (0x440 + 4 * (m + 4 * (bit (chFunc s c) 8).toNat))) 23 0

/-- The code that the PMU's converter gets: a voltage, or a current of a range (R49; 18 R463). -/
def converterForce (s : State) (c : Nat) (range : Option Nat) (code : Int) : Int :=
  corrected (rdReg s (chPage c) (match range with | some r => 0x480 + 4 * r | none => 0x4A0)) code

/-- How many thresholds are in use (02 R40): three in PAM4, else two. -/
def thresholdsUsed (f : Word) : Nat := if bit f 8 && fld f 10 9 == 2 then 3 else 2

/-- The region number at a contact voltage (02 R44): the thresholds in use that it exceeds. -/
def region (s : State) (c : Nat) (volts : Int) : Nat :=
  let f := chFunc s c
  forUpTo (thresholdsUsed f) 0 (fun n r =>
    if levelVolts (bit f 8) (fld (inForce s (chPage c) (0x130 + 4 * n)) 15 0) < volts then r + 1 else r)

/-- The minimum UI of the mode in 2^-16 ns (03 R90): 31.25 ps fast, 156.25 ps full-swing. -/
def minUi (f : Word) : Nat := if bit f 8 then 2048 else 10240

/-- The edge placement accuracy in 2^-16 ns (00 R14): 5 ps fast, 15 ps full-swing. -/
def edgeAccuracy (f : Word) : Nat := if bit f 8 then 327 else 983

/-- Whether a drive level is in use (02 R40, 03 R90 case 6). -/
def levelInUse (f : Word) (n : Nat) : Bool :=
  if bit f 8 then n ≤ fld f 10 9 + 1 else n ≤ 3

/-! ## The parametric measurement unit (02 R47-R50) -/

/-- The measure step of a current range (R48), in that of range 0. -/
def rangeStep (irng : Nat) : Nat := [1, 10, 100, 500, 2000, 8000, 16000, 32000].getD irng 1

/-- A force code or a clamp code as a current of the range (R49, R50): full scale / 32,768 for each step. -/
def forceAmps (irng code : Nat) : Int := 4 * rangeStep irng * signedOf 16 code

/-- A force code or a clamp code as a voltage (R49, R50): 2^-12 V for each step. -/
def forceVolts (code : Nat) : Int := 80 * signedOf 16 code

/-- A measured current (R51): full scale / 2^17 for each step. -/
def measuredAmps (irng code : Nat) : Int := rangeStep irng * signedOf 18 code

/-- A measured voltage (R51): 2^-14 V for each step. -/
def measuredVolts (code : Nat) : Int := 20 * signedOf 18 code

/-- CH_PMU.PMODE in force (R47): 0 FVMI, 1 FVMV, 2 FIMV, 3 FIMI, 4 FNMV. -/
def pmode (s : State) (c : Nat) : Nat := fld (inForce s (chPage c) 0x150) 2 0

/-- CH_PMU.IRNG in force. -/
def irng (s : State) (c : Nat) : Nat := fld (inForce s (chPage c) 0x150) 6 4

/-- Whether a PMU mode forces a voltage. -/
def fvMode (m : Nat) : Bool := m ≤ 1

/-- Whether a PMU mode forces a current. -/
def fiMode (m : Nat) : Bool := m == 2 || m == 3

/-- Whether a PMU mode measures the voltage; the others measure the current. -/
def measuresVolts (m : Nat) : Bool := m == 1 || m == 2 || m == 4

/-- What CH_PMU_MEAS.CODE stands for (R47, R51): a voltage, or a current of the selected range. -/
def measured (s : State) (c : Nat) : Int :=
  let code := fld (rdReg s (chPage c) 0x708) 17 0
  if measuresVolts (pmode s c) then measuredVolts code else measuredAmps (irng s c) code

/-- DL4 in force: the termination, commutation, PARK and keeper level (R41). -/
def dl4 (s : State) (c : Nat) : Int :=
  levelVolts (bit (chFunc s c) 8) (fld (inForce s (chPage c) 0x120) 15 0)

/-- Whether the outputs of a channel are open, whatever its function: its tile is unpowered, in reset or isolated, or has not
restarted after a reset (15 R394; 17 R429). -/
def outputsOpen (s : State) (c : Nat) : Bool := (chan s c).open_ || domLost s (tileOf c)

/-- Whether the PMU is connected: in its function, and in a switch away from it until B0 (R59). -/
def pmuOn (s : State) (c : Nat) : Bool :=
  let x := chan s c
  x.func == .pmu && !outputsOpen s c && (x.phase == .steady || x.phase == .ramp || x.phase == .toB0)

/-- Where the forced voltage moves to, in 1/65,536,000 V: DL4 from a change point on (R59), else the programmed voltage. A mode that
forces no voltage moves none. -/
def forceGoal (s : State) (c : Nat) : Int :=
  let x := chan s c
  if x.phase != .steady then 200 * dl4 s c
  else if fvMode (pmode s c) then 200 * forceVolts (fld (inForce s (chPage c) 0x154) 15 0)
  else x.rampFrom

/-- The forced voltage now, in 1/65,536,000 V: it moves at 1 V/us (R49). -/
def forcedFine (s : State) (c : Nat) : Int :=
  let x := chan s c
  let g := forceGoal s c
  let d : Int := (s.now - x.rampAt : Nat)
  if x.rampFrom ≤ g then min g (x.rampFrom + d) else max g (x.rampFrom - d)

/-- The instant at which the force ramp in progress ends (R51, R59). -/
def forceRampEnd (s : State) (c : Nat) : Nat :=
  let x := chan s c
  x.rampAt + (forceGoal s c - x.rampFrom).natAbs

/-- What the PMU forces: nothing; a voltage, at the contact or at the tile's sense input (R53); or a current. -/
inductive Forced where
  | nothing
  | volts (v : Int) (atSense : Bool)
  | amps (i : Int)
  deriving DecidableEq, Repr

/-- What the PMU forces now (R47, R49). A forced voltage is regulated at SNS_Tn where the selection of R53 is in effect; in a switch
away from an FI mode the voltage is forced at the contact. -/
def pmuForce (s : State) (c : Nat) : Forced :=
  let m := pmode s c
  if !pmuOn s c then .nothing
  else if (chan s c).phase != .steady then
    (if (chan s c).forcing then .volts (forcedFine s c / 200) ((chan s c).sense && fvMode m) else .nothing)
  else if fvMode m then .volts (forcedFine s c / 200) (chan s c).sense
  else if fiMode m then .amps (forceAmps (irng s c) (fld (inForce s (chPage c) 0x154) 15 0))
  else .nothing

/-- What clamps the PMU's output, low and high (R47, R50): a current in the FV modes, a voltage in the FI modes, nothing in FNMV. -/
inductive Clamp where
  | none
  | amps (lo hi : Int)
  | volts (lo hi : Int)
  deriving DecidableEq, Repr

/-- The clamp in force. -/
def pmuClamp (s : State) (c : Nat) : Clamp :=
  let m := pmode s c
  let w := inForce s (chPage c) 0x158
  if !pmuOn s c then .none
  else if fvMode m then .amps (forceAmps (irng s c) (fld w 15 0)) (forceAmps (irng s c) (fld w 31 16))
  else if fiMode m then .volts (forceVolts (fld w 15 0)) (forceVolts (fld w 31 16))
  else .none

/-- The PMU keeps the voltage it forces now as the start of what follows (R49). -/
def holdForce (c : Nat) (s : State) : State :=
  if pmuOn s c then modChan c (fun x => { x with rampFrom := forcedFine s c, rampAt := s.now }) s else s

/-- The voltage at a contact, which the device under test decides: a free value of 24 bits, signed (log 8). -/
def freeContact (s : State) : Int := signedOf 24 (freeVal 24 s)

/-- The force output starts at the voltage it measures on the contact (R49, R59). -/
def startForce (c : Nat) (s : State) : State :=
  modChan c (fun x => { x with rampFrom := 200 * freeContact s, rampAt := s.now }) (tick s)

/-! ## The contact (02 R38, R40, R45, R56) -/

/-- Whether a function's 50 ohm termination acts while the driver is off (R38, R40): fast mode and TERM, in HIZ, DRIVE/COMPARE and TDC. -/
def termOf (f : Word) (g : Func) : Bool :=
  bit f 8 && bit f 13 && (g == .hiz || g == .driveCompare || g == .tdc)

/-- The active load (R45): the current it sinks above the commutation level, and the one it sources below it. -/
structure ActiveLoad where
  sinks : Int
  sources : Int
  level : Int
  deriving DecidableEq, Repr

/-- What a channel connects to its contact: the drive level, the levels behind 50 ohm and behind 50 kohm, the active load, and what the
PMU forces. -/
structure Contact where
  driver : Option Int := none
  term : Option Int := none
  keeper : Option Int := none
  load : Option ActiveLoad := none
  force : Forced := .nothing
  deriving DecidableEq, Repr

/-- A code of CH_IOL or CH_IOH as a current (R45): 390.625 nA for each step. -/
def loadAmps (code : Nat) : Int := 25600 * code

/-- What the function in force presents while no change is in progress (R38, R45, R56); a source-switching stroke presents HIZ (R58). A
held channel has no termination (15 R393). -/
def steadyContact (s : State) (c : Nat) : Contact :=
  let x := chan s c
  let f := chFunc s c
  let p := chPage c
  match x.func, x.drive with
  | .driveCompare, some n => { driver := some (levelVolts (bit f 8) (fld (inForce s p (0x110 + 4 * n.val)) 15 0)) }
  | .park, _ => { keeper := some (dl4 s c) }
  | .pmu, _ => { force := pmuForce s c }
  | g, _ =>
    { term := if termOf f g && !x.held then some (dl4 s c) else none
      load := if g == .driveCompare && bit f 12 && !bit f 8 && !x.stroke.any (fun st => st.srcHiz)
        then some ⟨loadAmps (fld (inForce s p 0x140) 15 0), loadAmps (fld (inForce s p 0x144) 15 0), dl4 s c⟩ else none }

/-- Whether Primer measures a channel, or Temper tests it: its contact is HIZ without keeper (18 R460, R464). -/
def underTest (s : State) (c : Nat) : Bool := s.primer.cur.contains c || s.temper.test == some (1, c)

/-- What a channel presents at its contact now: open outputs nothing (15 R394); from B0 to B1 the keeper and the termination of before
(R56); in a mode-change interval, a measurement of Primer and a test nothing (R46); while the PMU ramps what it forces; else its function's part. -/
def contact (s : State) (c : Nat) : Contact :=
  let x := chan s c
  if outputsOpen s c || underTest s c then {}
  else match x.phase with
    | .modeChange _ => {}
    | .hold _ _ | .holdTimer _ => { keeper := some (dl4 s c), term := if x.term && bit (chFunc s c) 8 then some (dl4 s c) else none }
    | _ => steadyContact s c

end Sys2Proof.Machine
end

