-- ==== Sys2Proof/Machine/Channel.lean ====
section
/-! DEFINITION. The pin channel (spec 02), its stream and strokes (spec 01 R29-R33, 03), its proof marks (09 R242-R244)
and Quench's trip and release (15 R387-R395). -/

namespace Sys2Proof.Machine

/-! ## Palette words in force -/

/-- The key of a Palette word of a physical set (03 R87). -/
def palKey (c : Nat) (set : Bool) (w : Nat) : Nat := c * 512 + set.toNat * 256 + w

/-- The Canvas Palette word in force (03 R95). -/
def palWord (s : State) (c w : Nat) : Wide :=
  smGet (smGet 0 s.pal (palKey c (smGet false s.swapped (chPage c)) w)) s.palHeld (c * 256 + w)

/-! ## Stream status (03 R93) -/

/-- Set a flag of a channel's STRM_STAT and of its PAL page: STARVED 29, TERR 28, SERR 27. -/
def strmFlag (c b irq : Nat) (s : State) : State :=
  raiseBit (palPage (laneOf c)) irq (modReg (palPage (laneOf c)) (0x740 + 4 * (c % 8)) (fun w => setBit w b true) s)

/-- An event was not applied (03 R90): STRM_STAT.TERR, PG_IRQ_RAW.TERR, and TERR in the stroke's result. -/
def timingError (c : Nat) (s : State) : State :=
  strmFlag c 28 1 (modChan c (fun x =>
    { x with stroke := x.stroke.map (fun st => { st with result := st.result ||| 0x100000 }) }) s)

/-! ## The end of a stream and of a measurement -/

/-- The stream stops (03 R84, R92): symbols left are discarded, an open window closes, and the lane is told. -/
def stopStream (c : Nat) (s : State) : State :=
  modChan c (fun x => { x with stream := .idle, fifo := [], stopDue := false, window := none, tdcArmed := none, drive := none, stopOnWay := x.stopOnWay || x.stream != .idle }) s

/-- A measurement in progress ends with VALID = 0 and ABT = 1 (02 R52, 15 R393). -/
def abortPmu (c : Nat) (s : State) : State :=
  if (chan s c).pmu = .idle then s
  else modReg (chPage c) 0x708 (fun w => setBit (setBit w 31 false) 29 true)
    (modChan c (fun x => { x with pmu := .idle }) s)

/-! ## Switching function (02 R59) -/

/-- From B0 the channel holds the keeper; an open window closes without a result (R56, R59). -/
def enterHold (c : Nat) (p : Phase) (s : State) : State :=
  modChan c (fun x => { x with phase := p, window := none, drive := none, tdcArmed := none }) s

/-- The later of A and the end of any ramp has come: B0 is now where that is allowed (R59 steps 3 and 5). -/
def rampOver (c : Nat) (atBoundary : Bool) (s : State) : State :=
  if strokesRun s c then
    if atBoundary then enterHold c (.hold s.now 2) s else modChan c (fun x => { x with phase := .toB0 }) s
  else enterHold c (.holdTimer (s.now + us)) s

/-- Change point A (R59 steps 1 and 2), with CH_FUNC and the PMU's output as they were before it: a forcing PMU ramps first, from the
voltage it forces, or in an FI mode from the one it measures; a ramp of no length is over at A. A mode that changes with FUNC counts as
it was before A (log 126). The termination that R56 keeps is the one CH_FUNC.TERM selects, whether or not the driver was on (log 165); a
clamp that was acting ends at A (log 166). -/
def startSwitch (c : Nat) (old : Word) (was : Forced) (atBoundary : Bool) (s : State) : State :=
  let s := abortPmu c s
  let s := modChan c (fun x => { x with term := termOf old x.func && !x.held, forcing := was != .nothing }) s
  let ramp := fun s =>
    let s := modChan c (fun x => { x with phase := .ramp, clamped := false, clampSince := none }) s
    if forceRampEnd s c ≤ s.now then rampOver c atBoundary s else s
  match was with
  | .nothing => rampOver c atBoundary s
  | .volts _ _ => ramp s
  | .amps _ => ramp (startForce c s)

/-- B1 (R59 step 4), or the end of a mode-change interval (R46): the channel enters the function Canvas holds; a release
ends here (15 R395). -/
def enterFunction (c : Nat) (s : State) : State :=
  let x := chan s c
  let wasHeld := x.held
  let s := setChan c { x with func := funcOf (rdReg s (chPage c) 0x100), phase := .steady, drive := none, window := none, held := false, cause := setBit x.cause 31 (bit x.cause 31 && !x.held) } s
  let s := if pmuOn s c && fvMode (pmode s c) then startForce c s else s
  let s := raiseBit (chPage c) 4 s
  if wasHeld then raiseBit (tqPage (tileOf c)) 1 s else s

/-- The switching sequence at a stroke boundary of the channel (R59 steps 3 and 4); a ramp that has ended by then makes it B0. -/
def switchAtBoundary (c : Nat) (s : State) : State :=
  match (chan s c).phase with
  | .ramp => if forceRampEnd s c ≤ s.now then enterHold c (.hold s.now 2) s else s
  | .toB0 => enterHold c (.hold s.now 2) s
  | .hold b0 left => if left ≤ 1 then enterFunction c s else modChan c (fun x => { x with phase := .hold b0 (left - 1) }) s
  | _ => s

/-- The timebase stops at this instant (R59 step 5). -/
def switchAtStop (c : Nat) (s : State) : State :=
  match (chan s c).phase with
  | .toB0 => enterHold c (.holdTimer (s.now + us)) s
  | .hold b0 _ => modChan c (fun x => { x with phase := .holdTimer (max (b0 + us) s.now) }) s
  | _ => s

/-! ## Validity of a channel's settings (02 R42, R45, R49, R70) -/

/-- A getter of the register set under check: offset to value. -/
abbrev RegSet := Nat → Word

/-- Levels of DL0-DL4 and CT0-CT2 hold valid codes (R40, R42 item 1). -/
def codesValid (g : RegSet) : Bool :=
  let fast := bit (g 0x100) 8
  [0x110, 0x114, 0x118, 0x11C, 0x120, 0x130, 0x134, 0x138].all (fun o =>
    let v := fld (g o) 15 0
    if fast then decide (0x1000 ≤ v ∧ v ≤ 0xF000) else decide (0x0CCD ≤ v ∧ v ≤ 0xE666))

/-- A level set valid under R42. -/
def levelsValid (g : RegSet) : Bool :=
  let f := g 0x100
  let fast := bit f 8
  let pam := fast && fld f 10 9 != 0
  let dl := fun n => fld (g (0x110 + 4 * n)) 15 0
  let ct := fun n => fld (g (0x130 + 4 * n)) 15 0
  let n := fld f 10 9 + 1
  let lo := (List.range (n + 1)).foldl (fun m i => min m (dl i)) 0xFFFF
  let hi := (List.range (n + 1)).foldl (fun m i => max m (dl i)) 0
  codesValid g
    && (if pam then decide (ct 0 < ct 1) && (fld f 10 9 != 2 || decide (ct 1 < ct 2)) else decide (ct 0 ≤ ct 1))
    && (!pam || (List.range n).all (fun i => decide (dl i < dl (i + 1))))
    && (!fast || (decide ((hi - lo) * 16 ≤ 393216)
        && decide (-131072 ≤ levelVolts true lo + levelVolts true hi)
        && decide (levelVolts true lo + levelVolts true hi ≤ 917504)))

/-- CH_FUNC values valid under R45: no LOAD in fast mode, no PAM in full-swing mode. -/
def funcValid (g : RegSet) : Bool :=
  let f := g 0x100
  if bit f 8 then !bit f 12 else fld f 10 9 == 0

/-- The FV code range of the mode (R49). -/
def fvInRange (fast : Bool) (code : Nat) : Bool :=
  let v := signedOf 16 code
  if fast then decide (-4096 ≤ v ∧ v ≤ 8192) else decide (-8192 ≤ v ∧ v ≤ 30720)

/-- The PMU values valid for MODE and PMODE (R49), and LO below HI (R70). -/
def pmuValid (g : RegSet) : Bool :=
  let fast := bit (g 0x100) 8
  let mode := fld (g 0x150) 2 0
  let force := fld (g 0x154) 15 0
  let hi := fld (g 0x158) 31 16
  let lo := fld (g 0x158) 15 0
  decide (signedOf 16 lo < signedOf 16 hi)
    && (if mode = 0 ∨ mode = 1 then fvInRange fast force
        else if mode = 2 ∨ mode = 3 then decide (force ≠ 0x8000) && fvInRange fast hi && fvInRange fast lo
        else true)

/-- The settings of a channel page valid as a whole. -/
def chanValid (g : RegSet) : Bool := funcValid g && levelsValid g && pmuValid g

/-! ## Streams (03 R83-R86) -/

/-- The position q of a channel in its cluster (10 R253). -/
def posInCluster (c : Nat) : Nat := (c + 480 - 64 * clusterOf c) % 512

/-- Where the Canvas places a channel's expected-mark table (10 R281). -/
def markTableAt (s : State) (c : Nat) : Nat :=
  let o := 0x200 + 8 * posInCluster c
  fld (rdReg s (clPage (clusterOf c)) o) 31 3 * 8 + 2 ^ 32 * fld (rdReg s (clPage (clusterOf c)) (o + 4)) 15 0

/-- A mismatch is recorded (09 R243, R244): PM_MMAP, PM_CNT and the report. -/
def markMismatch (c : Nat) (s : State) : State :=
  let p := pmPage (tileOf c)
  let o := 0x700 + 4 * (c % 64 / 32)
  let s := modReg p o (fun w => setBit w (c % 32) true) s
  report ⟨0, p, 1, fEVENT, 5, c, []⟩ (countReg p 0x708 1 s)

/-- Whether an address of a mark table can be read: it lies in an HBM stack that is up. -/
def tableUp (s : State) (a : Nat) : Bool :=
  decide (0x2000000000 ≤ a ∧ a < 0x3800000000) && !domLost s (10 + (a - 0x2000000000) / 0x600000000)

/-- A mark forwarded to the cluster is compared with the head entry of its channel's table (09 R244); stops: the stream it belongs to is
still the one set up. A table that cannot be read checks no mark and stays at its entry (log 147). -/
def checkMark (y : TileMark) (stops : Bool) (s : State) : State :=
  let t := smGet {} s.tables y.ch
  let a := t.addr + 8 * t.pos
  let mark := leNat (memBytes s a 4)
  let idx := leNat (memBytes s (a + 4) 4)
  let act := match (chan s y.ch).marks with | some cfg => cfg.act | none => false
  if t.failed ∨ !tableUp s a ∨ idx = 0xFFFFFFFF ∨ y.interval < idx then s
  else if idx < y.interval then
    let q := posInCluster y.ch
    let s := { s with tables := smPut {} s.tables y.ch { t with failed := true } }
    raiseBit (clPage (clusterOf y.ch)) 4 (modReg (clPage (clusterOf y.ch)) (0x750 + 4 * (q / 32)) (fun w => setBit w (q % 32) true) s)
  else
    let s := { s with tables := smPut {} s.tables y.ch { t with pos := t.pos + 1 } }
    if mark = y.mark.toNat then s
    else
      let s := markMismatch y.ch s
      if act && stops then modChan y.ch (fun x => { x with markStop := true }) s else s

/-- The marks of a channel's last stream that still wait are checked against that stream's table before the next is set up. -/
def settleMarks (c : Nat) (s : State) : State :=
  let k := clusterOf c
  let old := (base s k).marks.filter (fun y => y.ch == c)
  modChan c (fun x => { x with markStop := false })
    (forEach old (modBase k (fun b => { b with marks := b.marks.filter (fun y => y.ch != c) }) s) (fun y s => checkMark y false s))

/-- Setup of a channel's stream, or its failure with SERR (03 R83). -/
def setupStream (c : Nat) (s : State) : State :=
  let p := chPage c
  let s0 := rd64 s p 0x248
  let fin := rd64 s p 0x250
  let count := (base s (clusterOf c)).count
  let g := fun o => rdReg s p o
  if s0 ≤ count ∨ (fin ≠ 0 ∧ fin ≤ s0) ∨ !(levelsValid g && funcValid g) then strmFlag c 27 2 s
  else
    let pm := rdReg s (pmPage (tileOf c)) (0x100 + 4 * (c % 64))
    let s := settleMarks c s
    let s := modChan c (fun x =>
      { x with stream := .armed, s0 := s0, last := fin, stopDue := false, fifo := [], emits := [], creditsBack := 0,
               credit := 4096, laneStream := true, stopOnWay := false, lastSrc := none, prevHiz := false,
               drive := none, window := none, tdcArmed := none,
               marks := if bit pm 31 then some ⟨bit pm 30, bit pm 29, fld pm 15 0⟩ else none,
               tileCrc := 0xFFFFFFFF, tilePos := 0, tileInterval := 0, laneCrc := 0xFFFFFFFF, lanePos := 0, emitted := 0 }) s
    let s := modLane (laneOf c) (fun x => { x with lastReg := smPut none x.lastReg (c % 8) none }) s
    { s with tables := smPut {} s.tables c { addr := markTableAt s c } }

/-- The PMU's part of a change of settings with no change of function: a voltage forced where none was starts at the one on the contact
(R49, log 127), and in FNMV no clamp limits (R50). -/
def pmuChange (c : Nat) (was : Forced) (s : State) : State :=
  let m := pmode s c
  let begins := pmuOn s c && (chan s c).phase == .steady && fvMode m && (match was with | .volts _ _ => false | _ => true)
  let s := if begins then startForce c s else s
  if fvMode m || fiMode m || !(chan s c).clamped then s else modChan c (fun x => { x with clamped := false, clampSince := none }) s

/-- The old values of CH_FUNC and CH_STRM, and what the PMU forced, give way to the new: stop, setup, source, mode and function (02 R59,
R46, R57; 03 R83-R85). -/
def settingsChange (c : Nat) (oldFunc oldStrm : Word) (was : Forced) (atBoundary : Bool) (s : State) : State :=
  let p := chPage c
  let new := rdReg s p 0x100
  let run := bit (rdReg s p 0x240) 0
  let toggled := (chan s c).runToggled
  let s := modChan c (fun x => { x with runToggled := false }) s
  let s := if bit oldStrm 0 && (!run || toggled) then stopStream c s else s
  let s := if run && (!bit oldStrm 0 || toggled) then setupStream c s else s
  let x := chan s c
  if bit oldFunc 8 ≠ bit new 8 then
    modChan c (fun x => { x with phase := if x.held then x.phase else .modeChange (s.now + 2 * us), func := if x.held then x.func else .hiz, drive := none, window := none }) s
  else if funcOf new ≠ x.func ∧ x.phase = .steady ∧ !x.held then startSwitch c oldFunc was atBoundary s
  else pmuChange c was s

/-- New settings come into force through f (02 R62; 12 R322). -/
def changeSettings (c : Nat) (atBoundary : Bool) (f : State → State) (s : State) : State :=
  settingsChange c (inForce s (chPage c) 0x100) (inForce s (chPage c) 0x240) (pmuForce s c) atBoundary (f (holdForce c s))

/-- The old values that live writes of a channel page and its Palette left in force are dropped. -/
def dropHeld (c : Nat) (s : State) : State :=
  { s with held := smDrop (fun k => k / 4096 = chPage c) s.held, palHeld := smDrop (fun k => k / 256 = c) s.palHeld }

/-- The live writes of a channel page that wait for a boundary take effect (02 R62). -/
def takeEffect (c : Nat) (atBoundary : Bool) (s : State) : State := changeSettings c atBoundary (dropHeld c) s

/-- A change of Canvas CH_FUNC.SRC goes on its way to the lane (02 R57). -/
def srcChange (c : Nat) (old new : Word) (s : State) : State :=
  if bit old 4 = bit new 4 then s else modChan c (fun x => { x with laneSrcNext := x.laneSrcNext ++ [bit new 4] }) s

/-! ## Palette events (03 R88-R92) -/

/-- A measurement trigger that the PMU accepts (02 R51 step 2). -/
def pmuTriggered (c : Nat) (s : State) : State :=
  modReg (chPage c) 0x708 (fun w => setBit w 31 false) (modChan c (fun x => { x with pmu := .waiting, pmuAt := s.now }) s)

/-- A Palette PMU-trigger event (02 R52). -/
def pmuEvent (c : Nat) (s : State) : State :=
  if !bit (inForce s (chPage c) 0x150) 14 then s
  else if (chan s c).func ≠ .pmu then captureAs (chPage c) fEVENT 0x704 0 3 fEVENT 0 0 s
  else if (chan s c).pmu ≠ .idle then s
  else pmuTriggered c s

/-- Fill the next result slot with a region (03 R99). -/
def fillSlot (c reg : Nat) (fails : Bool) (s : State) : State :=
  modChan c (fun x => { x with stroke := x.stroke.map (fun st =>
    { st with filled := st.filled + 1, result := st.result ||| BitVec.ofNat 24 ((8 + 4 * (fails && !st.fmask).toNat + reg % 4) * 16 ^ st.filled) }) }) s

/-- A compare-class or drive-class event follows the last applied one of its class by less than the minimum UI. -/
def tooClose (last : Option Nat) (t ui : Nat) : Bool :=
  match last with
  | some l => decide (t < l + ui)
  | none => false

/-- Whether the TYPE and ARG of an event are not reserved (03 R88; case 1 of R90). -/
def typeOk (e : PalEvent) : Bool :=
  match e.kind with
  | 1 => decide (e.arg ≤ 3)
  | 3 | 4 => decide (e.arg ≤ 4)
  | 2 | 5 | 6 => true
  | _ => false

/-- The instants of the drive edges that the events still due will make (03 R90), given the last one applied. -/
def drivesDue (f : Word) (begins : Nat) : Option Nat → List PalEvent → List Nat
  | _, [] => []
  | last, e :: es =>
    let t := begins + 8 * e.t
    if (e.kind == 2 || (e.kind == 1 && typeOk e && levelInUse f e.arg)) && !tooClose last t (minUi f)
    then t :: drivesDue f begins (some t) es else drivesDue f begins last es

/-- Whether a drive edge lies within the placement accuracy of an instant (03 R91). -/
def nearEdge (f : Word) (x : Chan) (st : Stroke) (t : Nat) : Bool :=
  tooClose x.lastDrive t (edgeAccuracy f + 1) || (drivesDue f st.begins x.lastDrive st.events).any (fun e => decide (e ≤ t + edgeAccuracy f))

/-- The region a strobe returns: free within the placement accuracy of a drive edge (03 R91, log 8). -/
def strobeRegion (c : Nat) (st : Stroke) (t : Nat) (volts : Int) (s : State) : Nat × State :=
  if nearEdge (chFunc s c) (chan s c) st t then (freeVal 2 s, tick s) else (region s c volts, s)

/-- Whether the region at a contact voltage differs from the one a window expects (03 R91). -/
def windowStrays (s : State) (c : Nat) (volts : Int) (arg : Nat) : Bool := decide (arg < 4) && decide (region s c volts ≠ arg)

/-- Apply one event at its time, or set TERR (03 R90). -/
def applyEvent (c : Nat) (e : PalEvent) (st : Stroke) (volts : Int) (s : State) : State :=
  let x := chan s c
  let t := st.begins + 8 * e.t
  let ui := minUi (chFunc s c)
  if !typeOk e then timingError c s
  else match e.kind with
  | 1 =>
    if tooClose x.lastDrive t ui || !levelInUse (chFunc s c) e.arg then timingError c s
    else modChan c (fun x => { x with drive := some (Fin.ofNat 4 e.arg), lastDrive := some t }) s
  | 2 =>
    if tooClose x.lastDrive t ui then timingError c s
    else modChan c (fun x => { x with drive := none, lastDrive := some t }) s
  | 3 =>
    if tooClose x.lastCompare t ui || decide (st.slots ≤ st.filled) then timingError c s
    else
      let r := strobeRegion c st t volts s
      fillSlot c r.1 (decide (e.arg < 4 ∧ r.1 ≠ e.arg)) (modChan c (fun x =>
        { x with lastCompare := some t, strobe := some ⟨t, st.filled, if e.arg < 4 && !st.fmask then some e.arg else none⟩ }) r.2)
  | 4 =>
    if tooClose x.lastCompare t ui || x.window.isSome then timingError c s
    else modChan c (fun x => { x with lastCompare := some t, window := some ⟨e.arg, windowStrays s c volts e.arg⟩, tdcArmed := if x.func = .tdc then some 0 else x.tdcArmed }) s
  | 5 =>
    match x.window with
    | none => timingError c s
    | some w =>
      if tooClose x.lastCompare t ui || decide (st.slots ≤ st.filled) then timingError c s
      else fillSlot c (region s c volts) (decide (w.arg < 4) && w.strayed)
        (modChan c (fun x => { x with lastCompare := some t, window := none, tdcArmed := none }) s)
  | _ => pmuEvent c s

/-- What an open window has seen up to the event that falls due: whether the region has differed from the expected one since the event
before, or does so now (03 R91). -/
def watchWindow (c : Nat) (volts : Int) (strayed : Bool) (s : State) : State :=
  modChan c (fun x => { x with window := x.window.map (fun w => { w with strayed := w.strayed || strayed || windowStrays s c volts w.arg }) }) s

/-- The next event of the stroke in progress falls due (03 R89). -/
def nextEvent (c : Nat) (volts : Int) (strayed : Bool) (s : State) : State :=
  match (chan s c).stroke with
  | none => s
  | some st => match st.events with
    | [] => s
    | e :: es =>
      let st' := { st with events := es }
      applyEvent c e st' volts (watchWindow c volts strayed (modChan c (fun x => { x with stroke := some st' }) (reach (st.begins + 8 * e.t) s)))

/-- Events of a stroke that no command has brought: each takes a free contact voltage (log 8). -/
def remainingEvents (c : Nat) : Nat → State → State
  | 0, s => s
  | n + 1, s =>
    match (chan s c).stroke with
    | none => s
    | some st =>
      if st.events.isEmpty then s
      else remainingEvents c n (nextEvent c (freeContact s) (freeVal 25 s / 2 ^ 24 == 1) (tick s))

/-! ## Quench trip (15 R393) -/

/-- The energy accounted in a channel's window, in aJ: one sample of power in nW for each ns (15 R387). -/
def energy (s : State) (c : Nat) : Nat :=
  ((chan s c).power.take (10 * fld (rdReg s (tqPage (tileOf c)) (0x100 + 4 * (c % 64))) 9 0)).sum

/-- The events of the stroke in progress that lie before this instant apply; each takes a free contact voltage (03 R84, log 8). -/
def eventsBefore (c : Nat) : Nat → State → State
  | 0, s => s
  | n + 1, s =>
    match (chan s c).stroke with
    | none => s
    | some st => match st.events with
      | [] => s
      | e :: _ =>
        if st.begins + 8 * e.t < s.now then eventsBefore c n (nextEvent c (freeContact s) (freeVal 25 s / 2 ^ 24 == 1) (tick s)) else s

/-- The trip of a channel with a cause of R392; key names the primary fault of R405 it may follow from. Of the stroke in progress the
events before the decision apply and the later ones do not (03 R84). -/
def trip (c cause key : Nat) (s : State) : State :=
  let x := chan s c
  if x.held then modChan c (fun x => { x with cause := setBit x.cause 30 true, phase := .steady }) s
  else
    let s := eventsBefore c 8 s
    let t := tileOf c
    let e := if cause = 6 ∨ cause = 7 then min (energy s c / 100000000) 1023 else 0
    let f := if bit (chFunc s c) 5 && !domLost s t then Func.park else Func.hiz
    let group := if cause = 1 then 1 else if cause = 8 then 2 else if cause ≤ 4 then 4 else 0
    let s := abortPmu c s
    let s := stopStream c s
    let s := modChan c (fun x =>
      { x with func := f, phase := .steady, held := true, clamped := false, clampSince := none, tdcArmed := none,
               cause := w32 (0x80000000 + cause * 2 ^ 24 + e),
               stroke := x.stroke.map (fun st => { st with events := [], late := false }) }) s
    captureAs (tqPage t) fEVENT 0x714 (c % 64 + 64 * cause) 1 (256 + cause) group key
      (raiseBit (tqPage t) 0 (countReg (tqPage t) 0x718 1 s))

/-- Whether Quench watches a channel: its tile has power-good and is not in reset, which holds the page at its reset values (00 R12;
15 R391, log 167). -/
def watched (s : State) (c : Nat) : Bool := (dom s (tileOf c)).good && !(dom s (tileOf c)).inReset

/-- The trip of a channel that Quench watches. -/
def tripWatched (c cause key : Nat) (s : State) : State := if watched s c then trip c cause key s else s

/-- Every channel of the device trips (15 R397). -/
def tripAll (cause key : Nat) (s : State) : State := forUpTo 512 s (fun c s => tripWatched c cause key s)

/-- The events that lie at or after the end of the stroke were not applied (03 R90): it is known when the stroke ends, since a trip in
it leaves them unreported (R84, log 168). -/
def lateEvents (c : Nat) (s : State) : State :=
  if (match (chan s c).stroke with | some st => st.late | none => false) then timingError c s else s

/-- The stroke in progress ends and its compare result leaves for the lane (03 R99). -/
def endStroke (c : Nat) (s : State) : State :=
  let s := lateEvents c (remainingEvents c 8 s)
  modChan c (fun x => match x.stroke with
    | none => x
    | some st => { x with stroke := none, results := x.results ++ [⟨st.count, st.site, st.result⟩] }) s

/-! ## Palette words (03 R87, R88) -/

/-- Event slot j of a word as type, argument and time in force. -/
def eventAt (s : State) (c : Nat) (w : Wide) (j : Nat) : PalEvent :=
  let v := w.toNat / 2 ^ (30 * j) % 2 ^ 30
  ⟨timeBase s c (v / 2 ^ 21 % 4) + v % 2 ^ 21, v / 2 ^ 26, v / 2 ^ 23 % 8⟩

/-- Insert an event behind those of equal or earlier time (03 R89). -/
def insertEvent (e : PalEvent) : List PalEvent → List PalEvent
  | [] => [e]
  | x :: xs => if x.t ≤ e.t then x :: insertEvent e xs else e :: x :: xs

/-- The events of a word in the order of their times, NOPs left out, and drive-class events in the functions that ignore
them (03 R90). -/
def wordEvents (s : State) (c : Nat) (w : Wide) (drives : Bool) : List PalEvent :=
  (List.range 8).filterMap (fun j =>
    let e := eventAt s c w j
    if e.kind = 0 || ((e.kind = 1 || e.kind = 2) && !drives) then none else some e)

/-- Whether a word is applied (03 R90): UIC not 0b11 and bits [252:240] 0. -/
def wordOk (w : Wide) : Bool := w.toNat / 2 ^ 254 != 3 && w.toNat / 2 ^ 240 % 2 ^ 13 == 0

/-! ## Proof marks (09 R242, R243) -/

/-- One step of the reflected CRC-32C. -/
def crcBit (c : Word) : Word := if c.getLsbD 0 then (c >>> 1) ^^^ 0x82F63B78 else c >>> 1

/-- CRC-32C over one more byte, before the final XOR (09 R242). -/
def crcByte (c : Word) (b : Byte) : Word := forUpTo 8 (c ^^^ b.setWidth 32) (fun _ c => crcBit c)

/-- A mismatch that the tile finds (09 R243) raises PG_IRQ_RAW.MISMATCH besides. -/
def tileMismatch (c : Nat) (s : State) : State := raiseBit (pmPage (tileOf c)) 0 (markMismatch c s)

/-- The tile's mark is complete: compare it with the lane's (09 R243) and forward it (R244). -/
def compareMarks (c : Nat) (cfg : MarkConfig) (lane : Option Word) (s : State) : State :=
  let x := chan s c
  let mark := x.tileCrc ^^^ 0xFFFFFFFF
  let j := x.tileInterval
  let p := pmPage (tileOf c)
  let s := modChan c (fun x => { x with tileCrc := 0xFFFFFFFF, tilePos := 0, tileInterval := j + 1 }) s
  let s := if cfg.xen then modBase (clusterOf c) (fun b => { b with marks := b.marks ++ [⟨c, j, mark⟩] }) s else s
  if lane = some mark then s
  else
    let s := tileMismatch c s
    let s := if bit (rdReg s p 0x710) 31 then s
      else wrReg p 0x71C mark (wrReg p 0x718 (lane.getD 0) (wrReg p 0x714 (w32 j) (wrReg p 0x710 (w32 (0x80000000 + c % 64)) s)))
    if cfg.act then modChan c (fun x => { x with stopDue := true }) s else s

/-- A consumed symbol enters the tile's mark (09 R242). -/
def tileMark (c : Nat) (y : Symbol) (s : State) : State :=
  match (chan s c).marks with
  | none => s
  | some cfg =>
    let s := modChan c (fun x => { x with tileCrc := crcByte x.tileCrc y.sym, tilePos := x.tilePos + 1 }) s
    if (chan s c).tilePos = cfg.interval then compareMarks c cfg y.mark s else s

/-! ## A stroke begins (01 R30, R32; 02 R58; 03 R84, R97-R99) -/

/-- The result of the stroke before, where its last strobe lies within the placement accuracy of the new stroke's first drive edge: the
region is free (03 R91, log 8). -/
def blurStrobe (c : Nat) (f : Word) (st : Stroke) (s : State) : State :=
  match (chan s c).strobe, drivesDue f st.begins (chan s c).lastDrive st.events with
  | some l, e :: _ =>
    if e ≤ l.at_ + edgeAccuracy f then
      let r := freeVal 2 s
      let fails := match l.expects with | some a => r != a | none => false
      let put := fun (y : CompareResult) =>
        { y with bits := BitVec.ofNat 24 ((y.bits.toNat / 16 ^ (l.slot + 1) * 16 + (8 + 4 * fails.toNat + r)) * 16 ^ l.slot + y.bits.toNat % 16 ^ l.slot) }
      modChan c (fun x => { x with strobe := none, results := x.results.dropLast ++ (x.results.getLast?.map put).toList }) (tick s)
    else s
  | _, _ => s

/-- STARVE (03 R98): the stream stops, whether or not the channel is held already. The manual gives the result no source bit here: it is free (log 8). -/
def starve (c : Nat) (s : State) : State :=
  let b := base s (clusterOf c)
  let st : Stroke := ⟨s.now, b.count, period s (clusterOf c), inForce s (chPage c) 0x104, 0, false, 0, 0, BitVec.ofNat 24 (0x200000 + 0x800000 * freeVal 1 s), [], false, false⟩
  let l := palPage (laneOf c)
  let s := modChan c (fun x => { x with stroke := some st }) (tick s)
  stopStream c <| trip c 8 c (captureAs l fEVENT (0x740 + 4 * (c % 8)) (c % 8) 1 fEVENT 2 c (strmFlag c 29 0 s))

/-- The stroke of a symbol that is consumed and not applied, or applied in the PMU function (02 R39, R58). -/
def plainStroke (c : Nat) (y : Symbol) (sw : Bool) (s : State) : Stroke :=
  ⟨s.now, (base s (clusterOf c)).count, period s (clusterOf c), inForce s (chPage c) 0x104, 0, false, 0, 0,
    BitVec.ofNat 24 (y.slice.toNat * 0x800000 + sw.toNat * 0x400000), [], false, false⟩

/-- The stroke of a symbol whose Palette word is applied (03 R87-R90). -/
def palStroke (c : Nat) (y : Symbol) (s : State) : State :=
  let w := palWord s c y.sym.toNat
  let st := plainStroke c y false s
  if !wordOk w then timingError c (modChan c (fun x => { x with stroke := some st }) s)
  else
    let trig := bit (inForce s (chPage c) 0x150) 14
    let all := (wordEvents s c w ((chan s c).func == .driveCompare)).filter (fun e => e.kind != 6 || trig)
    let uic := w.toNat / 2 ^ 254
    let evs := (all.filter (fun e => decide (e.t < st.period))).foldl (fun l e => insertEvent e l) []
    let late := all.any (fun e => decide (st.period ≤ e.t))
    let st := { st with uic := uic, slots := 2 ^ uic, fmask := w.getLsbD 253, events := evs, late := late, result := st.result ||| BitVec.ofNat 24 (uic * 0x40000) }
    modChan c (fun x => { x with stroke := some st }) (blurStrobe c (chFunc s c) st s)

/-- A stroke of the PMU function: its word's PMU-trigger events alone act (02 R51, 03 R90; log 17). -/
def pmuStroke (c : Nat) (y : Symbol) (s : State) : State :=
  let w := palWord s c y.sym.toNat
  let st := plainStroke c y false s
  let evs := if wordOk w then (wordEvents s c w false).filter (fun e => e.kind == 6 && decide (e.t < st.period)) else []
  modChan c (fun x => { x with stroke := some { st with events := evs.foldl (fun l e => insertEvent e l) [] } }) s

/-- The formatter takes one symbol (01 R30), with the source-switching stroke of 02 R58. -/
def takeSymbol (c : Nat) (s : State) : State :=
  let x := chan s c
  match x.fifo with
  | [] => starve c s
  | y :: rest =>
    let switching := x.phase != .steady
    let srcSw := x.func == .driveCompare && !switching && !x.prevHiz && (match x.lastSrc with | some o => o != y.slice | none => false)
    let s := modChan c (fun x =>
      { x with fifo := rest, creditsBack := x.creditsBack + 1, srcAct := y.slice, lastSrc := some y.slice, prevHiz := switching,
               drive := if srcSw then none else x.drive, window := if srcSw then none else x.window }) s
    let s := wmSample (chPage c) 1 (4096 - rest.length) s
    let s := tileMark c y s
    if switching || srcSw then modChan c (fun x => { x with stroke := some { plainStroke c y true s with srcHiz := srcSw } }) s
    else if x.func = .pmu then pmuStroke c y s
    else palStroke c y s

/-- The stream's own part of a boundary: END and a due stop, then the start at S0 (03 R84). -/
def streamAtBoundary (c : Nat) (s : State) : State :=
  let x := chan s c
  let count := (base s (clusterOf c)).count
  let s := if x.stream ≠ .idle ∧ (x.stopDue ∨ (x.last ≠ 0 ∧ x.last ≤ count)) then stopStream c s else s
  modChan c (fun x => if x.stream = .armed ∧ x.s0 ≤ count then { x with stream := .running, drive := none } else x) s

/-- The tile's remote-sense selection takes effect at the channel's boundary (02 R53). -/
def senseEdge (c : Nat) (s : State) : State :=
  let w := rdReg s (pageIndex ⟨.tile, tileOf c⟩) 0x700
  modChan c (fun x => { x with sense := bit w 8 && fld w 5 0 == c % 64 }) s

/-- Everything of a boundary that precedes the new stroke: the old stroke ends, writes take effect, streams stop and are
set up, the switching sequence goes on. -/
def channelEdge (c : Nat) (s : State) : State :=
  switchThen c (senseEdge c (endStroke c s))
where
  switchThen (c : Nat) (s : State) : State :=
    let before := (chan s c).phase
    let s := streamAtBoundary c (takeEffect c true s)
    if before = .steady then s else switchAtBoundary c s

/-- The new stroke of a channel whose stream runs. -/
def channelStroke (c : Nat) (s : State) : State :=
  if (chan s c).stream = .running then takeSymbol c s else s

/-! ## Lane side (01 R31) -/

/-- The oldest n emits on their way to a channel reach its FIFO, each whole (05 R158); a stopped stream discards them (01 R29, 03 R84). -/
def arrive (n : Nat) (x : Chan) : Chan :=
  { x with emits := x.emits.drop n, fifo := if x.stream = .idle then x.fifo else x.fifo ++ (x.emits.take n).flatMap (fun g => g.syms) }

/-- How many emits on their way to a channel come no later than an emit of the slice emitter. -/
def emitsThrough (id : Nat) (l : List EmitGroup) : Nat := l.length - (l.reverse.takeWhile (fun g => !(g.slice && g.id ≤ id))).length

/-- The oldest emit on its way to a channel arrives: one of the slice emitter at all its pins together (06 R175). -/
def deliverSymbol (c : Nat) (s : State) : State :=
  match (chan s c).emits with
  | [] => s
  | g :: _ =>
    if g.slice then forUpTo 8 s (fun p s => modChan (8 * laneOf c + p) (fun x => arrive (emitsThrough g.id x.emits) x) s)
    else modChan c (arrive 1) s

/-- A credit reaches the lane; one that arrives with no stream there is discarded (01 R31). -/
def returnCredit (c : Nat) (s : State) : State :=
  modChan c (fun x => if x.creditsBack = 0 then x
    else { x with creditsBack := x.creditsBack - 1, credit := if x.laneStream then x.credit + 1 else x.credit }) s

/-- The stop of a stream reaches the lane: the count becomes 0 (01 R31). -/
def stopAtLane (c : Nat) (s : State) : State :=
  modChan c (fun x => if x.stopOnWay then { x with stopOnWay := false, laneStream := false, credit := 0 } else x) s

/-- A change of SRC takes effect in the lane (02 R57). -/
def srcAtLane (c : Nat) (s : State) : State :=
  modChan c (fun x => match x.laneSrcNext with
    | [] => x
    | b :: bs => { x with laneSrc := b, laneSrcNext := bs }) s

/-! ## PMU and TDC (02 R51-R55) -/

/-- A write of CH_PMU_TRIG (02 R51, R52). While FUNC_ACT reads PMU a trigger is taken, also between A and B1 of a switch: the spec does
not say what becomes of such a measurement, and here it runs on and may complete in the new function (log 128). Where PMU_BUSY = 1 and
FUNC_ACT is not PMU, the reject for FUNC_ACT comes first (log 198). -/
def pmuTrigWrite (c : Nat) (m : Master) (v : Word) (s : State) : State :=
  if !bit v 0 then s
  else if (chan s c).func ≠ .pmu then rejectWrite (chPage c) 0x704 m s
  else if (chan s c).pmu ≠ .idle then s
  else pmuTriggered c s

/-- The end of the force ramp in progress, 0 with none: a PMU that forces the voltage it moves to ramps no more (02 R51). -/
def rampInProgress (s : State) (c : Nat) : Nat :=
  if pmuOn s c && (chan s c).rampFrom != forceGoal s c then forceRampEnd s c else 0

/-- Sampling begins 2 us after the later of the trigger and the end of the force ramp in progress (02 R51 step 3). -/
def pmuSample (c : Nat) (s : State) : State :=
  if (chan s c).pmu ≠ .waiting then s
  else
    let s := reach (max (chan s c).pmuAt (rampInProgress s c) + 2 * us) s
    modChan c (fun x => { x with pmu := .sampling, pmuAt := s.now }) s

/-- The mean of 2^AVG samples, rounded to the nearest code, a half upward (02 R51, log 16). -/
def pmuMean (sum : Int) (avg : Nat) : Int := (sum + 2 ^ avg / 2) / 2 ^ avg

/-- The measurement ends, 2^AVG samples at 1 MS/s after its first instant (02 R51 steps 4 and 5); an AVG that changed meanwhile counts as
it is at the end (log 169). -/
def pmuDone (c : Nat) (sum : Int) (ovr : Bool) (s : State) : State :=
  if (chan s c).pmu ≠ .sampling then s
  else
    let s := reach ((chan s c).pmuAt + 2 ^ fld (inForce s (chPage c) 0x150) 12 8 * us) s
    let code := (BitVec.ofInt 18 (pmuMean sum (fld (inForce s (chPage c) 0x150) 12 8))).toNat
    let s := wrReg (chPage c) 0x708 (w32 (0x80000000 + ovr.toNat * 0x40000000 + code)) s
    raiseBit (chPage c) 0 (modChan c (fun x => { x with pmu := .idle }) s)

/-- Whether the driver is on, so that its output current limit may act (15 R390). -/
def driverOn (s : State) (c : Nat) : Bool :=
  let x := chan s c
  x.func == .driveCompare && x.phase == .steady && x.drive.isSome && !outputsOpen s c

/-- A clamp limits the output (02 R50), where the mode has one (R47), or the driver's output current limit does, which Quench alone
watches (15 R390). -/
def clampStarts (c : Nat) (s : State) : State :=
  let since := fun (x : Chan) => { x with clampSince := if x.clampSince.isSome then x.clampSince else some s.now }
  if pmuClamp s c ≠ .none then raiseBit (chPage c) 3 (modChan c (fun x => { since x with clamped := true }) s)
  else if driverOn s c then modChan c since s
  else s

/-- The clamp releases; shorter than 10 ns is no break (15 R390). -/
def clampEnds (c : Nat) (long : Bool) (s : State) : State :=
  modChan c (fun x => { x with clamped := false, clampSince := if long then none else x.clampSince }) s

/-- Mark MISS in the entry last recorded while the FIFO still holds it (02 R54). -/
def markMissed (count ofs : Nat) (l : List TdcEntry) : List TdcEntry :=
  l.map (fun e => if e.count = count ∧ e.ofs.toNat = ofs then { e with missed := true } else e)

/-- An entry reaches the TDC FIFO (02 R55). -/
def tdcStore (c : Nat) (e : TdcEntry) (s : State) : State :=
  let n := (chan s c).tdcFifo.length
  if 16 ≤ n then
    raiseBit (chPage c) 2 (modReg (chPage c) 0x724 (fun w => w32 (min (w.toNat + 1) 0xFFFF)) s)
  else
    let s := modChan c (fun x => { x with tdcFifo := x.tdcFifo ++ [e] }) s
    let s := if n = 0 then raiseBit (chPage c) 1 s else s
    wmSample (chPage c) 0 (n + 1) s

/-- The contact crosses a threshold (02 R54). -/
def tdcCross (c : Nat) (ofs : BitVec 40) (thr : Nat) (falling : Bool) (s : State) : State :=
  let x := chan s c
  let w := inForce s (chPage c) 0x160
  let b := base s (clusterOf c)
  let begins := match x.stroke with | some st => st.begins | none => s.now
  let t := begins + 8 * ofs.toNat
  let edge := fld w 3 2
  match x.tdcArmed with
  | none => s
  | some n =>
    if x.func ≠ .tdc ∨ thr ≠ fld w 1 0 ∨ (edge = 0 ∧ falling) ∨ (edge = 1 ∧ !falling) then s
    else match x.tdcLast with
      | some (l, cnt, o) =>
        if t < l + 16384 then modChan c (fun x => { x with tdcFifo := markMissed cnt o x.tdcFifo }) s
        else if n < fld w 15 8 then record b n t
        else s
      | none => if n < fld w 15 8 then record b n t else s
where
  record (b : Timebase) (n t : Nat) : State :=
    tdcStore c ⟨b.count, ofs, thr, falling, false⟩
      (modChan c (fun x => { x with tdcArmed := some (n + 1), tdcLast := some (t, b.count, ofs.toNat) }) (reach t s))

/-- A write of CH_TDC_POP (02 R55). -/
def tdcPopWrite (c : Nat) (v : Word) (s : State) : State :=
  if bit v 0 && !(chan s c).tdcFifo.isEmpty then
    let s := modChan c (fun x => { x with tdcFifo := x.tdcFifo.tail }) s
    wmSample (chPage c) 0 (chan s c).tdcFifo.length s
  else s

/-! ## Quench evaluations and release (15 R388-R395) -/

/-- The accounted power in nW (15 R387): the product of contact voltage and contact current whenever it is positive. -/
def accountedPower (mV uA : Int) : Nat := (mV * uA).toNat

/-- One evaluation of the accounted energy, with the contact voltage and current that the channel finds (15 R387, R388). -/
def energyEval (c : Nat) (mV uA : Int) (s : State) : State :=
  let power := accountedPower mV uA
  let s := modChan c (fun x => { x with power := (power :: x.power).take 10000 }) s
  if energy s c + 9 * power > 1000000000 * fld (rdReg s (tqPage (tileOf c)) (0x100 + 4 * (c % 64))) 21 16
  then trip c 6 0 s else s

/-- The instant at which a clamp or the driver's current limit will have acted for 2^CLT us without a break (15 R390); none where neither
acts. -/
def clampDue (s : State) (c : Nat) : Option Nat :=
  if pmuClamp s c ≠ .none ∨ driverOn s c then
    (chan s c).clampSince.map (fun t => t + 2 ^ fld (rdReg s (tqPage (tileOf c)) (0x100 + 4 * (c % 64))) 15 12 * us)
  else none

/-- The clamp limit of 15 R390 has passed. -/
def clampLimit (c : Nat) (s : State) : State :=
  match clampDue s c with
  | some t => trip c 7 0 (reach t s)
  | none => s

/-- Whether a contact voltage lies inside the band of 15 R391: -1.2 V to 2.4 V in fast mode, else -2.0 V to 7.8 V. -/
def insideBand (s : State) (c : Nat) (volts : Int) : Bool :=
  if bit (chFunc s c) 8 then decide (-393216 ≤ volts ∧ volts ≤ 786432) else decide (-655360 ≤ volts ∧ volts ≤ 2555904)

/-- The overvoltage dwell of 15 R391 ends with a contact voltage outside the band: the command is the end of the dwell, and its 5 ns and
the 2 ns of a return are the sender's (log 170). -/
def overvolt (c : Nat) (volts : Int) (s : State) : State := if insideBand s c volts then s else tripWatched c 5 0 s

/-- Whether Anvil holds an open ISOLATE entry for a channel (15 R395): an entry in use of the channel's trip cause 9. -/
def isolateOpen (s : State) (c : Nat) : Bool :=
  s.anvil.any (fun e => e.2.state != 0 && e.2.group == 9 && e.2.key == c)

/-- Whether position p of a tile may be released (15 R395). -/
def mayRelease (s : State) (c : Nat) (inside : Bool) : Bool :=
  (chan s c).held && Nat.land (rdReg s quenchPage 0x700).toNat 15 == 0 && !domLost s (tileOf c) && inside
    && !isolateOpen s c

/-- A release write's bit for one channel (15 R395). -/
def releaseOne (c : Nat) (m : Master) (off : Nat) (inside : Bool) (s : State) : State :=
  if (chan s c).held && (chan s c).phase != .steady then s
  else if mayRelease s c inside then startSwitch c (chFunc s c) .nothing false s
  else refuseCmd (tqPage (tileOf c)) off m s

/-- Which of 32 positions of a tile have their contact inside the band, from their contact voltages. -/
def insideMask (s : State) (t : Nat) (hi : Bool) (volts : List Int) : Word :=
  forUpTo 32 0 (fun i w => setBit w i (insideBand s (64 * t + 32 * hi.toNat + i) (volts.getD i 0)))

/-- A write of QN_REL_LO or QN_REL_HI; inside tells which contacts lie inside the band of R391. -/
def releaseWrite (t : Nat) (hi : Bool) (m : Master) (v inside : Word) (s : State) : State :=
  forUpTo 32 s (fun i s =>
    if bit v i then releaseOne (64 * t + 32 * hi.toNat + i) m (0x708 + 4 * hi.toNat) (bit inside i) s else s)

end Sys2Proof.Machine
end

