-- ==== Sys2Proof/Machine/Timebase.lean ====
section
/-! DEFINITION. The stroke timebase of a cluster and its boundaries (spec 03 R76-R80, R84, R85). -/

namespace Sys2Proof.Machine

/-- Whether this instant is a stroke boundary of a cluster that has not acted yet, the one at CL_T0 of a start among them (03 R78). -/
def boundaryNow (s : State) (k : Nat) : Bool := (base s k).en && decide ((base s k).next ≤ s.now)

/-- CL_T0 as an instant (03 R76). -/
def clT0 (s : State) (k : Nat) : Nat := rd64 s (clPage k) 0x110 * ns + fld (rdReg s (clPage k) 0x118) 15 0

/-- A stroke period within 125 ps to 1 ms (03 R77). -/
def periodValid (p : Nat) : Bool := 1024 ≤ p && p ≤ 8192000000

/-- Whether a stream of the cluster is set up (03 R79). -/
def clusterStreams (s : State) (k : Nat) : Bool :=
  (List.range 64).any (fun q => (chan s (chanOfCluster k q)).stream != .idle)

/-- A change of EN to 1 takes effect (03 R78), or is refused and EN stays 0 (R79). -/
def timebaseStart (k : Nat) (m : Nat) (s : State) : State :=
  if clT0 s k < s.now + 2 * us ∨ !periodValid (period s k) then
    capture (clPage k) fREFUSED 0x108 m (modReg (clPage k) 0x108 (fun w => setBit w 0 false) s)
  else modBase k (fun b => { b with en := true, running := false, next := clT0 s k }) s

/-- A change of EN to 0 takes effect at this instant (03 R79), or is refused and EN stays 1. -/
def timebaseStop (k : Nat) (s : State) : State :=
  if clusterStreams s k then
    capture (clPage k) fREFUSED 0x108 (base s k).enMaster (modReg (clPage k) 0x108 (fun w => setBit w 0 true) s)
  else
    let s := modBase k (fun b => { b with en := false, running := false }) s
    forUpTo 64 s (fun q s => switchAtStop (chanOfCluster k q) s)

/-- A live write of CL_STRK_CTL (03 R79): 1 acts on arrival, 0 at the next boundary, or on arrival while none comes. -/
def strkCtlWrite (k : Nat) (m : Master) (en : Bool) (s : State) : State :=
  let b := base s k
  let s := modReg (clPage k) 0x108 (fun w => setBit w 0 en) s
  if en then (if b.en then s else timebaseStart k (masterCode m) s)
  else if !b.en then s
  else
    let s := modBase k (fun b => { b with enMaster := masterCode m }) s
    if b.running then s else timebaseStop k s

/-- The stroke count and the instant of the next boundary, when a stroke begins (03 R78, R80). -/
def advance (k : Nat) (s : State) : State :=
  modBase k (fun b => { b with running := true, ranEver := true, count := if b.ranEver then b.count + 1 else 0,
                               next := b.next + 8 * period s k }) s

/-- A stroke boundary of cluster k falls due (03 R78-R86; 01 R30). A stop of the timebase is decided after the streams that
stop at the same boundary (log 18). -/
def strokeBoundary (k : Nat) (s : State) : State :=
  let b := base s k
  if !b.en then s
  else
    let s := reach b.next s
    let s := advance k s
    let s := forUpTo 64 s (fun q s => channelEdge (chanOfCluster k q) s)
    let s := if bit (rdReg s (clPage k) 0x108) 0 then s else timebaseStop k s
    if (base s k).en then forUpTo 64 s (fun q s => channelStroke (chanOfCluster k q) s)
    else modBase k (fun x => { x with count := b.count, ranEver := b.ranEver, next := b.next }) s

/-- A read of CL_SC_LO: the count's low half, with the high half latched (03 R76). -/
def scLatch (k : Nat) (s : State) : State := modBase k (fun b => { b with scHi := w32 (b.count / 2 ^ 32) }) s

end Sys2Proof.Machine
end

