-- ==== Sys2Proof/Machine/Palette.lean ====
section
/-! DEFINITION. Live writes of the channel page (spec 02 R43, R46, R57, R62; 03 R85) and the Palette commands of the PAL
page (03 R93-R96). -/

namespace Sys2Proof.Machine

/-! ## Channel page -/

/-- Whether MODE may change now (02 R46). -/
def modeMayChange (s : State) (c : Nat) : Bool :=
  let x := chan s c
  x.stream == .idle && (x.func == .hiz || x.func == .park) && x.phase == .steady

/-- Whether a live write of a channel register leaves the Canvas valid (02 R43, R46, R49, R70). -/
def chanWriteValid (s : State) (c off : Nat) (v : Word) : Bool :=
  let g := fun o => if o = off then v else rdReg s (chPage c) o
  if off = 0x100 then
    chanValid g && (bit v 8 == bit (rdReg s (chPage c) 0x100) 8 || modeMayChange s c)
  else if 0x110 ≤ off ∧ off ≤ 0x138 then levelsValid g
  else if 0x150 ≤ off ∧ off ≤ 0x158 then pmuValid g
  else true

/-- Keep the old value in force until the next boundary (02 R62). -/
def holdOld (page off : Nat) (s : State) : State :=
  let k := regKey false page off
  if (smKeys (fun i _ => i == k) s.held).isEmpty then { s with held := smInsert s.held k (rdReg s page off) } else s

/-- A valid live write of a bankable channel register (02 R57, R62; 03 R85; 12 R316). -/
def chanLive (c off : Nat) (v : Word) (s : State) : State :=
  let p := chPage c
  let old := rdReg s p off
  let srcStep := fun s => if off = 0x100 then srcChange c old v s else s
  if strokesRun s c then
    let toggles := off = 0x240 && bit (inForce s p 0x240) 0 && (!bit v 0 || !bit old 0)
    let s := wrReg p off v (holdOld p off s)
    srcStep (if toggles then modChan c (fun x => { x with runToggled := true }) s else s)
  else changeSettings c false (fun s => srcStep (wrReg p off v s)) s

/-- A live write of a bankable channel register: checked, then live (02 R43; 00 R13). -/
def chanWrite (c off : Nat) (m : Master) (fs : List Field) (v : Word) (s : State) : State :=
  let w := mergeWord fs (rdReg s (chPage c) off) v
  if chanWriteValid s c off w.1 then
    let s := chanLive c off w.1 s
    if w.2 then capture (chPage c) fINVALID off (masterCode m) s else s
  else invalidWrite (chPage c) off m s

/-! ## PAL page -/

/-- The command in progress of a PAL page. -/
def palCmd (s : State) (l : Nat) : Option PalCommand := smGet none s.palCmds l

/-- PAL_DATA0-7 as a word. -/
def palData (s : State) (l : Nat) : Wide :=
  BitVec.ofNat 256 (forUpTo 8 0 (fun i n => n + (rdReg s (palPage l) (0x720 + 4 * i)).toNat * 2 ^ (32 * i)))

/-- PAL_SEL after a step (03 R93). -/
def palStep (sel : Word) : Word :=
  if !bit sel 12 then sel
  else if fld sel 7 0 = 255 then setFld (setFld sel 7 0 0) 10 8 (fld sel 10 8 + 1)
  else setFld sel 7 0 (fld sel 7 0 + 1)

/-- A write of PAL_CMD (03 R93, R94; 12 R324). -/
def palCmdWrite (l : Nat) (m : Master) (v : Word) (s : State) : State :=
  let p := palPage l
  let sel := rdReg s p 0x700
  let c := 8 * l + fld sel 10 8
  let wr := bit v 0
  let rd := bit v 1
  if !wr && !rd then s
  else if (palCmd s l).isSome || (wr && rd) || (wr && bit sel 11 && hangArmed s (chPage c)) then rejectWrite p 0x704 m s
  else
    let cmd : PalCommand := ⟨wr, c, smGet false s.swapped (chPage c) != bit sel 11, fld sel 7 0, palData s l, !bit sel 11⟩
    wrReg p 0x700 (palStep sel) { s with palCmds := smPut none s.palCmds l (some cmd) }

/-- Store a Palette word; where its set is Canvas the old word stays in force to the next boundary (03 R95). -/
def palStore (c : Nat) (set : Bool) (w : Nat) (data : Wide) (s : State) : State :=
  let old := palWord s c w
  let s' := { s with pal := smPut 0 s.pal (palKey c set w) data }
  if set = smGet false s.swapped (chPage c) ∧ strokesRun s c then
    { s' with palHeld := smInsert (smErase s.palHeld (c * 256 + w)) (c * 256 + w) old }
  else s'

/-- Put a word into PAL_DATA0-7. -/
def palShow (l : Nat) (data : Wide) (s : State) : State :=
  forUpTo 8 s (fun i s => wrReg (palPage l) (0x720 + 4 * i) (w32 (data.toNat / 2 ^ (32 * i))) s)

/-- The command in progress completes (03 R94, R95). -/
def palDone (l : Nat) (s : State) : State :=
  match palCmd s l with
  | none => s
  | some cmd =>
    let s := { s with palCmds := smPut none s.palCmds l none }
    let s := if cmd.write then palStore cmd.ch cmd.set cmd.word cmd.data s
      else palShow l (smGet 0 s.pal (palKey cmd.ch cmd.set cmd.word)) s
    raiseBit (palPage l) 3 s

end Sys2Proof.Machine
end

