-- ==== Sys2Proof/Machine/Memory.lean ====
section
/-! DEFINITION. The device address map, the paths of the bus matrix and plain memory accesses (spec 11). -/

namespace Sys2Proof.Machine

/-- MX_CTL.REMAP. -/
def remapped (s : State) : Bool := bit (rdReg s (pageIndex ⟨.mx, 0⟩) 0x700) 0

/-- A window that holds the MC bank, or the boot ROM in its first 256 KiB (R285, R286). -/
def windowTarget (mc : Bool) (o : Nat) : Target :=
  if mc then (if o < 0x3FC000 then .mcBank else .none) else if o < 0x40000 then .bootRom else .none

/-- The target of a device address (R285, R286). -/
def targetOf (s : State) (a : Nat) : Target :=
  if a < 0x400000 then windowTarget (remapped s) a
  else if a < 0x800000 then windowTarget (!remapped s) (a - 0x400000)
  else if a < 0xC00000 then .hostBank
  else if a < 0x1000000 then .fabricBank
  else if a < 0x1100000 then .secureBank
  else if a < 0x1200000 then .patinaBank
  else if 0x2000000 ≤ a ∧ a < 0x2400000 then .mram 0
  else if 0x2400000 ≤ a ∧ a < 0x2800000 then .mram 1
  else if 0x4000000 ≤ a ∧ a < 0x8000000 then .regs
  else if 0x10000000 ≤ a ∧ a < 0x14000000 then
    (if a % 0x20000 < 0x10000 then .coreInstr ((a - 0x10000000) / 0x20000)
     else if a % 0x20000 < 0x1E000 then .coreData ((a - 0x10000000) / 0x20000) else .none)
  else if 0x14000000 ≤ a ∧ a < 0x16000000 then
    (if a % 0x80000 < 0x70000 then .laneSram ((a - 0x14000000) / 0x80000) else .none)
  else if 0x16000000 ≤ a ∧ a < 0x18000000 then .clusterSram ((a - 0x16000000) / 0x400000)
  else if 0x2000000000 ≤ a ∧ a < 0x3800000000 then .hbm ((a - 0x2000000000) / 0x600000000)
  else .none

/-- The memory key of an address in a target: the MC bank has that of window W1 in both windows, so a remap moves no data. -/
def targetKey (t : Target) (a : Nat) : Nat :=
  match t with
  | .mcBank => 0x400000 + a % 0x400000
  | _ => a

/-- The memory key of an address. -/
def memKey (s : State) (a : Nat) : Nat := targetKey (targetOf s a) a

/-- The target of a whole access: that of its first byte when its last byte has the same, else the default target. -/
def targetSpan (s : State) (a n : Nat) : Target :=
  if targetOf s a = targetOf s (a + n - 1) then targetOf s a else .none

/-! ## Power states (R301) -/

/-- The number of a region in State.power: host 0, fabric 1, secure 2, lanes from 3, clusters from 67. -/
def regionNo : Region → Nat
  | .host => 0
  | .fabric => 1
  | .secure => 2
  | .lane l => 3 + l.val
  | .cluster k => 67 + k.val

def powerOf (s : State) (r : Nat) : PowerState := smGet {} s.power r

/-- Whether a target's region is ON. -/
def targetOn (s : State) : Target → Bool
  | .hostBank => (powerOf s 0).st == 0
  | .fabricBank => (powerOf s 1).st == 0
  | .secureBank => (powerOf s 2).st == 0
  | .laneSram l => (powerOf s (3 + l)).st == 0
  | .clusterSram k => (powerOf s (67 + k)).st == 0
  | _ => true

/-! ## Paths (R291) -/

/-- Whether the path table gives a master a path to a target; the calibration sequencer reaches register space only (log 15). -/
def pathOk (m : Master) (t : Target) : Bool :=
  match t with
  | .none => true
  | .bootRom => m == .mcA || m == .mcB
  | .mcBank => match m with
    | .mcA | .mcB | .pcie | .tongs | .temper | .lane _ => true
    | _ => false
  | .hostBank => match m with
    | .mcA | .mcB | .pcie | .tongs | .lane _ => true
    | _ => false
  | .fabricBank => match m with
    | .mcA | .mcB | .agent | .tongs | .lane _ => true
    | _ => false
  | .secureBank => m == .mcA || m == .mcB
  | .patinaBank => m == .mcA || m == .mcB || m == .patina
  | .mram _ => m == .mcA || m == .mcB || m == .tongs || m == .patina
  | .regs => match m with
    | .mcA | .mcB | .pcie | .agent | .temper | .lane _ | .tileSeq _ => true
    | _ => false
  | .coreInstr _ | .coreData _ | .laneSram _ | .clusterSram _ => match m with
    | .mcA | .mcB | .pcie | .tongs | .temper => true
    | _ => false
  | .hbm _ => match m with
    | .mcA | .mcB | .pcie | .agent | .tongs | .temper => true
    | _ => false

/-- The largest power of two that divides n, for n from 1 to 256. -/
def lowBit (n : Nat) : Nat :=
  if n % 2 = 1 then 1 else if n % 4 = 2 then 2 else if n % 8 = 4 then 4 else if n % 16 = 8 then 8
  else if n % 32 = 16 then 16 else if n % 64 = 32 then 32 else if n % 128 = 64 then 64
  else if n % 256 = 128 then 128 else 256

/-- Size, alignment and the 256-byte boundary of a transaction (R295): one that keeps them lies in one target. -/
def transShape (a n : Nat) : Bool := decide (1 ≤ n ∧ n ≤ 256 ∧ a % lowBit n = 0 ∧ a / 256 = (a + n - 1) / 256)

/-- Register space and the boot ROM accept only aligned words (R295). -/
def shapeFits (t : Target) (a n : Nat) : Bool :=
  match t with
  | .regs | .bootRom => decide (n = 4 ∧ a % 4 = 0)
  | _ => true

/-! ## Plain memory -/

/-- Reservations on the 64-byte lines that a write touches are cleared (04 R129). -/
def clearResv (k n : Nat) (s : State) : State :=
  forEach (smKeys (fun _ e => match e.resv with
      | some l => decide (k / 64 ≤ l ∧ l ≤ (k + n - 1) / 64)
      | none => false) s.engines) s
    (fun i s => modEng i (fun e => { e with resv := none }) s)

/-- The eight bytes of a bundle half. -/
def halfAt (s : State) (h : Nat) : BitVec 64 := BitVec.ofNat 64 (leNat (memBytes s (8 * h) 8))

/-- The halves of channel-core instruction SRAM that a write touches keep every value they have held since the last iflush (05 R151). -/
def keepStale (t : Target) (k n : Nat) (s : State) : State :=
  match t with
  | .coreInstr _ =>
    forUpTo ((k + n - 1) / 8 + 1 - k / 8) s (fun i s =>
      let h := k / 8 + i
      { s with stale := smPut [] s.stale h (smGet [] s.stale h ++ [halfAt s h]) })
  | _ => s

/-- Write bytes of a target, as any master does. -/
def targetWrite (t : Target) (a : Nat) (bs : List Byte) (s : State) : State :=
  let k := targetKey t a
  setBytes k bs (clearResv k bs.length (keepStale t k bs.length s))

/-- Read bytes of a target; the boot ROM is Borindam's (log 10). -/
def targetRead (s : State) (t : Target) (a n : Nat) : List Byte :=
  match t with
  | .bootRom => (List.range n).map (fun i => Config.bootRom (a % 0x400000 + i))
  | _ => memBytes s (targetKey t a) n

/-- Write bytes of memory. -/
def memWrite (a : Nat) (bs : List Byte) (s : State) : State := targetWrite (targetOf s a) a bs s

/-- Read bytes of memory. -/
def memRead (s : State) (a n : Nat) : List Byte := targetRead s (targetOf s a) a n

end Sys2Proof.Machine
end

