-- ==== Sys2Proof/Machine/Paths.lean ====
section
/-! DEFINITION. What stands between a master and a target: the page that must answer, the power state, the path, the shape of a
transaction, the holds of Bellows and of MRAM, and the arbitration of the bus matrix (spec 11 R289-R305, 14 R367, R368). -/

namespace Sys2Proof.Machine

def mxPage : Nat := pageIndex ⟨.mx, 0⟩
def memPage : Nat := pageIndex ⟨.mem, 0⟩
def blPage : Nat := pageIndex ⟨.bellows, 0⟩
def scrubPage : Nat := pageIndex ⟨.scrub, 0⟩
def mcPage (p : Nat) : Nat := pageIndex ⟨.mc, p⟩
def hbmPage (n : Nat) : Nat := pageIndex ⟨.hbm, n⟩

/-! ## Masters -/

/-- Whether a master is a management core pair. -/
def isPair : Master → Bool
  | .mcA | .mcB => true
  | _ => false

/-- Whether a master is a management core pair in Service mode (08 R215). -/
def pairService (s : State) : Master → Bool
  | .mcA => (eng s 1024).mode == 2
  | .mcB => (eng s 1025).mode == 2
  | _ => false

/-- The active management pair, none after a failure without a standby (18 R448). -/
def activePair (s : State) : Option Nat :=
  (List.range 2).find? (fun p => fld (rdReg s (mcPage p) 0x700) 31 30 == 1)

/-- Whether the active management pair is a master. -/
def activeMaster (s : State) (m : Master) : Bool :=
  match activePair s with
  | some 0 => m == .mcA
  | some _ => m == .mcB
  | none => false

/-- The master that the firmware's accesses come from. -/
def firmwareMaster (s : State) : Master := if activePair s = some 1 then .mcB else .mcA

/-- The place of a master in the round of arbitration (R293): the order of the path table, lanes by number. -/
def masterNo : Master → Nat
  | .mcA => 0
  | .mcB => 1
  | .pcie => 2
  | .agent => 3
  | .tongs => 4
  | .temper => 5
  | .patina => 6
  | .lane l => 7 + l.val
  | .tileSeq t => 71 + t.val

/-! ## Pages that answer (14 R367, R368; 01 R21) -/

/-- Whether the debug areas and the TEST pages are open: BLANK and VENDOR. -/
def debugOpen (s : State) : Bool := s.lifecycle < 2

/-- Whether the Bellows sequence runs (17 R445). -/
def bellowsRuns (s : State) : Bool := bit (rdReg s blPage 0x700) 31

/-- Whether the lanes and the clusters work: D8 is up, and the Bellows sequence has not isolated their islands (17 R441). -/
def lanesUp (s : State) : Bool := !domLost s 8 && !bellowsRuns s

/-- Whether a page lies in the island of a lane or of a cluster (14 R385). -/
def laneIsland (x : Page) : Bool := pageIsland x < 72

/-- The error with which an access to a page ends before it reaches it: the islands of the lanes and clusters are isolated during the
Bellows sequence (17 R441). -/
def pageError (s : State) (page : Nat) : Option BusKind :=
  match pageAt page with
  | none => some .decode
  | some ⟨.test, _⟩ => if !debugOpen s then some .decode else if domLost s 8 then some .domain else none
  | some x => if domLost s (pageDomain x) || (laneIsland x && bellowsRuns s) then some .domain else none

/-- Whether a page counts in the IRQS registers (14 R376), and so for vector 34 (R375): its output is asserted, its PG_CTL.MC is 1, and the
domain that would read it is there. -/
def irqCounts (s : State) (page : Nat) : Bool := irqOutput s page && bit (rdReg s page 0x008) 1 && (pageError s page).isNone

/-- The page and the offset of an address of register space. -/
def pageOfAddr (a : Nat) : Nat × Nat := ((a - 0x4000000) / 0x1000, a % 0x1000)

/-! ## Errors -/

/-- The code of an error kind (08 R217). -/
def busCode : BusKind → Nat
  | .decode => 1
  | .timeout => 2
  | .target => 3
  | .domain => 4
  | .ecc => 5

/-- An error response is captured by the MX page (R309). -/
def mxError (m : Master) (a : Nat) (kind : Nat) (s : State) : State :=
  let s := raiseBit mxPage 0 s
  if bit (rdReg s mxPage 0x704) 31 then s
  else wrReg mxPage 0x70C (w32 (a / 2 ^ 32 % 2 ^ 16)) (wrReg mxPage 0x708 (w32 a) (wrReg mxPage 0x704 (w32 (2 ^ 31 + masterCode m * 2 ^ 8 + kind)) s))

/-- A report of an ECC event of a page (R289; 15 R403): CORRECTED, or BLOCK with its capture. -/
def eccReport (page : Nat) (o : EccOutcome) (s : State) : State :=
  match o with
  | .clean => s
  | .corrected => report ⟨0, page, 0, fTMR, 0, 0, []⟩ s
  | .uncorrectable => capture page fHW 0 0 s

/-- An ECC event of a target's word: the SCRUB page or the page of the stack reports it, and the stack's page counts it (17 R446). -/
def eccMeets (x : Target) (o : EccOutcome) (s : State) : State :=
  match x with
  | .hbm n =>
    let s := eccReport (hbmPage n) o s
    match o with
    | .clean => s
    | .corrected => countReg (hbmPage n) 0x708 1 s
    | .uncorrectable => raiseBit (hbmPage n) 2 (countReg (hbmPage n) 0x70C 1 s)
  | _ => eccReport scrubPage o s

/-- Whether a read can find an ECC error (R289; 17 R446). -/
def mayFailEcc : Target → Bool
  | .bootRom | .regs | .none => false
  | _ => true

/-- Whether a read can meet the other port of its memory (R300): shell banks, lane and cluster SRAM. -/
def mayCollide : Target → Bool
  | .mcBank | .hostBank | .fabricBank | .secureBank | .patinaBank | .laneSram _ | .clusterSram _ => true
  | _ => false

/-! ## MRAM write buffers and Bellows (R293, R304; 17 R441) -/

/-- The 64-byte lines that a range touches. -/
def linesOf (a n : Nat) : List Nat := (List.range ((a + n - 1) / 64 + 1 - a / 64)).map (fun i => a / 64 + i)

/-- The lines held in a bank's buffer, oldest first. -/
def mramBuf (s : State) (b : Nat) : List Nat := smGet [] s.mramLines b

/-- Lines enter a bank's buffer. A writer that finds it full has waited until the bank has programmed as many of its oldest lines as it needs
(R304); the model does not advance the time for it (log 177). -/
def mramPush (b a n : Nat) (s : State) : State :=
  let l := mramBuf s b ++ linesOf a n
  { s with mramLines := smPut [] s.mramLines b (l.drop (l.length - 8)), mramGap := smPut false s.mramGap b false }

/-- Write bytes of a target through the matrix: those for MRAM enter the buffer of their bank. -/
def portWrite (x : Target) (a : Nat) (bs : List Byte) (s : State) : State :=
  match x with
  | .mram b => mramPush b a bs.length (targetWrite x a bs s)
  | _ => targetWrite x a bs s

/-- Whether the Bellows sequence keeps a master from a target (R293). -/
def bellowsHolds (s : State) (m : Master) (x : Target) : Bool :=
  match x with
  | .mram _ => bellowsRuns s && m != .patina && !activeMaster s m
  | _ => false

/-- Whether an access waits at an MRAM bank: a write for room in the buffer, a read for the line being programmed (R304). -/
def mramWaits (s : State) (x : Target) (a n : Nat) (write : Bool) : Bool :=
  match x with
  | .mram b =>
    let buf := mramBuf s b
    let lines := linesOf a n
    if write then decide (8 < buf.length + lines.length)
    else !buf.isEmpty && !smGet false s.mramGap b && !lines.all (fun l => buf.contains l)
  | _ => false

/-! ## Accesses along a path (R291, R295, R299, R301, R303; 01 R21) -/

/-- The target of a master's access: along a missing path, the default target. -/
def portTarget (s : State) (m : Master) (a : Nat) : Target := if pathOk m (targetOf s a) then targetOf s a else .none

/-- The error that the shape of a transaction, its path and the state of its target give: no access to the secure bank during a wipe or
while TAMPER_N is asserted (R303; 18 R469). -/
def portError (s : State) (m : Master) (x : Target) (a n : Nat) (write : Bool) : Option BusKind :=
  if domLost s 8 then some .domain
  else if !transShape a n then some .target
  else if x = .none then some .decode
  else if !shapeFits x a n || !targetOn s x then some .target
  else match x with
    | .bootRom => if write then some .target else none
    | .secureBank => if s.wiping || s.pins.tamper || !pairService s m then some .target else none
    | .coreInstr _ | .coreData _ | .laneSram _ | .clusterSram _ => if bellowsRuns s then some .domain else none
    | .hbm n => if domLost s (10 + n) then some .domain else none
    | .regs => pageError s (pageOfAddr a).1
    | .mram _ => if write && m != .patina && bellowsRuns s && !s.bellows.journal then some .target else none
    | _ => none

/-- An error that a target can give although its state allows the access: no response in time, or to a read an uncorrectable word (R289)
or the sixteenth BUSY (R300). -/
def mayMeet (x : Target) (write : Bool) (err : Option BusKind) : Option BusKind :=
  match err with
  | some .timeout => some .timeout
  | some .ecc => if mayFailEcc x && !write then some .ecc else none
  | some .target => if mayCollide x && !write then some .target else none
  | _ => none

/-- How an access that is made at once ends: the error of the path and the target's state, else the one that it meets. -/
def portOutcome (s : State) (m : Master) (a n : Nat) (write : Bool) (err : Option BusKind) : Option BusKind :=
  (portError s m (portTarget s m a) a n write).or (mayMeet (portTarget s m a) write err)

/-- Whether an agent of the device can use a range of a bank for its own records: the path exists and the bank is ON (R291, R301). -/
def bankOpen (s : State) (m : Master) (a : Nat) : Bool := portTarget s m a != .none && targetOn s (portTarget s m a) && !domLost s 8

/-- The time in which a target must respond (R294). -/
def timeLimit : Target → Nat
  | .mram _ => 12 * us
  | _ => 2 * us

/-- An error that a master's own access of n bytes has met: a TIMEOUT takes its time, an uncorrectable word is reported, fifteen reissues
count before the sixteenth BUSY (R300), and the MX page captures the error. -/
def portFails (m : Master) (a n : Nat) (write : Bool) (kind : BusKind) (s : State) : State :=
  let x := portTarget s m a
  mxError m a (busCode kind) (match kind with
    | .timeout => reach (s.now + timeLimit x) s
    | .ecc => eccMeets x .uncorrectable s
    | .target => if (portError s m x a n write).isNone then countReg mxPage 0x710 15 s else s
    | _ => s)

/-- A master writes its own records into a bank: where the bank accepts no access, nothing is written and the error is captured (R301). -/
def bankPut (m : Master) (a : Nat) (bs : List Byte) (s : State) : State :=
  if bankOpen s m a then portWrite (portTarget s m a) a bs s else mxError m a 3 s

/-! ## Transactions at the master ports (R293, R296) -/

/-- The row of the path table to which a target belongs: the unit that serves one transaction at a time. -/
def matrixRow : Target → Nat
  | .bootRom => 0
  | .mcBank => 1
  | .hostBank => 2
  | .fabricBank => 3
  | .secureBank => 4
  | .patinaBank => 5
  | .mram _ => 6
  | .regs => 7
  | .coreInstr _ | .coreData _ | .laneSram _ | .clusterSram _ => 8
  | .hbm _ => 9
  | .none => 10

/-- The transactions before one at its master port. -/
def aheadOf (s : State) (n : Nat) (t : Trans) : List Trans := (s.trans.take n).filter (fun x => x.master == t.master)

/-- Whether a lane port holds back a write until an earlier write of the engine to another target is acknowledged (R297). -/
def writeHeld (s : State) (n : Nat) (t : Trans) : Bool :=
  match t.master with
  | .lane _ => t.write && (aheadOf s n t).any (fun x => x.write && x.id == t.id && matrixRow x.target != matrixRow t.target)
  | _ => false

/-- Whether transaction n holds one of the 16 places of its port, its port has sent it on, and none before it at the port goes to the
same target with its ID, or, for arbitration, at all. -/
def placed (s : State) (n : Nat) (t : Trans) (sameId : Bool) : Bool :=
  decide ((aheadOf s n t).length < 16) && !writeHeld s n t
    && !(aheadOf s n t).any (fun x => (!sameId || x.id == t.id) && matrixRow x.target == matrixRow t.target)

/-- The transactions that a target can grant, as place in the list and distance in the round from the last master granted. -/
def waiting (s : State) (row : Nat) : List (Nat × Nat) :=
  (List.range s.trans.length).filterMap (fun n =>
    match s.trans[n]? with
    | some t =>
      if matrixRow t.target = row ∧ placed s n t false ∧ !bellowsHolds s t.master t.target then
        some (n, (masterNo t.master + 79 - smGet 0 s.granted row) % 79)
      else none
    | none => none)

/-- A target that serves nothing grants the next waiting master in the round (R293). State.granted holds the place after the last. -/
def grantRow (row : Nat) (s : State) : State :=
  if s.trans.any (fun t => t.granted && matrixRow t.target == row) then s
  else match (waiting s row).foldl (fun b x => match b with | some y => if x.2 < y.2 then some x else some y | none => some x) none with
    | none => s
    | some x => match s.trans[x.1]? with
      | none => s
      | some t => { s with trans := s.trans.set x.1 { t with granted := true }, granted := smPut 0 s.granted row ((masterNo t.master + 1) % 79) }

/-- Every target that can grant does; the default target needs no grant (R299). -/
def grantAll (s : State) : State := forUpTo 10 s grantRow

/-- A transaction enters its master port; its target is decoded now (R310). -/
def enterPort (m : Master) (id : Nat) (write : Bool) (a : Nat) (data : List Byte) (len : Nat) (use : TransUse) (s : State) : State :=
  grantAll { s with trans := s.trans ++ [⟨m, id, write, a, data, len, portTarget s m a, use, s.now, 0, false⟩] }

/-- The ID of every transaction of an engine (R296). -/
def engTransId (k : Nat) : Nat := 0x100 + k

end Sys2Proof.Machine
end

