-- ==== Sys2Proof/Machine/Patina.lean ====
section
/-! DEFINITION. Patina event recording (spec 16): intake, buckets, the volatile ring, the MRAM ring, freeze and clear. -/

namespace Sys2Proof.Machine

def patPage : Nat := pageIndex ⟨.patina, 0⟩

def modPat (f : Patina → Patina) (s : State) : State := { s with patina := f s.patina }

/-! ## The control area of the MRAM (17 R438; log 184) -/

/-- The lines of the control area that the model gives a place: the boot control line, the combination, the PT control line, OPSEC with
PCYC, the committed calibration sequence, and the Bellows word. -/
def bootLine : Nat := 0x2400000
def comboLine : Nat := 0x2400040
def patLine : Nat := 0x2400080
def clockLine : Nat := 0x24000C0
def calLine : Nat := 0x2400100
def bellowsLine : Nat := 0x2400140

/-- A word of MRAM. -/
def mramWord (s : State) (a : Nat) : Word := w32 (leNat (memBytes s a 4))

/-- A word of the control area that the logic on VAUX keeps. -/
def vauxPut (a : Nat) (v : Word) (s : State) : State := targetWrite (.mram 1) a (leBytes 4 v.toNat) s

/-- A word that the firmware writes into the control area. -/
def linePut (a : Nat) (v : Word) (s : State) : State := bankPut (firmwareMaster s) a (leBytes 4 v.toNat) s

/-- PT_OPSEC and PT_PCYC, which are kept in MRAM (R412). -/
def opsec (s : State) : Nat := (mramWord s clockLine).toNat
def pcyc (s : State) : Nat := (mramWord s (clockLine + 4)).toNat

/-- An event with its header fields. -/
def patEvent (code sev src : Nat) (fid : Bool) (payload : List Byte) : PatEvent :=
  ⟨BitVec.ofNat 16 code, BitVec.ofNat 4 sev, BitVec.ofNat 16 src, fid, payload⟩

/-- A block raises an event: it is on its way to the intake queue (R413). -/
def offer (code sev src : Nat) (fid : Bool) (payload : List Byte) (s : State) : State :=
  modPat (fun p => { p with offers := p.offers ++ [(s.now, patEvent code sev src fid payload)] }) s

/-! ## Buckets and the intake queue (R414, R416) -/

def bucket (s : State) (code : Nat) : Bucket := smGet {} s.patina.buckets code
def setBucket (code : Nat) (b : Bucket) (s : State) : State := modPat (fun p => { p with buckets := smPut {} p.buckets code b }) s

/-- One more event of a code in its suppressed count. -/
def countSuppressed (code src : Nat) (s : State) : State :=
  let b := bucket s code
  setBucket code { b with supp := b.supp + 1, firstSrc := if b.supp = 0 then src else b.firstSrc, firstOp := if b.supp = 0 then opsec s else b.firstOp, lastOp := opsec s } s

/-- An event is suppressed (R416): its code's count and PT_SUPP. -/
def suppress (ev : PatEvent) (s : State) : State :=
  countReg patPage 0x724 1 (countSuppressed ev.code.toNat ev.src.toNat s)

/-- Severity ERROR and above (R411): from 3 to 5. -/
def severeAt (sev : Nat) : Bool := decide (3 ≤ sev ∧ sev ≤ 5)
def severe (ev : PatEvent) : Bool := severeAt ev.sev.toNat

/-- An event reaches a queue of 256 entries (R414); one below ERROR that finds it full is dropped and counted. -/
def enqueueEvent (ev : PatEvent) (mayWait : Bool) (s : State) : State :=
  if s.patina.intake.length < 256 then modPat (fun p => { p with intake := p.intake ++ [ev] }) s
  else if mayWait then modPat (fun p => { p with waiting := p.waiting ++ [ev] }) s
  else countReg patPage 0x728 1 (countSuppressed ev.code.toNat ev.src.toNat s)

/-- Whether the power-fail sequence still takes an event (R423). -/
def bellowsTakes (ev : PatEvent) : Bool :=
  ev.code == 0x1002 || (severe ev && ((0x2000 ≤ ev.code.toNat && ev.code.toNat ≤ 0x2006) || ev.code == 0x3001))

/-- An event arrives (R414, R416, R423). -/
def intakeEvent (ev : PatEvent) (submission : Bool) (s : State) : State :=
  if s.patina.bellows && !bellowsTakes ev then s
  else if severe ev then enqueueEvent ev true s
  else
    let b := bucket s ev.code.toNat
    if b.rate = 0 then enqueueEvent ev submission s
    else if b.level = 0 then suppress ev s
    else enqueueEvent ev submission (setBucket ev.code.toNat { b with level := b.level - 1 } s)

/-- The order in which events that arrive in one cycle enter the queue (R414): Anvil's, then those of the pages by index. -/
def producerRank (ev : PatEvent) : Nat := if 0x2000 ≤ ev.code.toNat ∧ ev.code.toNat ≤ 0x2006 then 0 else ev.src.toNat + 1

/-- An event that is on its way, with the instant at which it was raised, where none raised at that instant comes before it. -/
def arriving (s : State) (ev : PatEvent) : Option (Nat × PatEvent) :=
  s.patina.offers.find? (fun x => x.2 == ev && !s.patina.offers.any (fun y => y.1 == x.1 && producerRank y.2 < producerRank ev))

/-- An event leaves those on their way. -/
def takeOffer (x : Nat × PatEvent) (s : State) : State := modPat (fun p => { p with offers := p.offers.erase x }) s

/-- An event that a producer raised arrives: it leaves the events on their way. Only an event that was raised can arrive (R425). -/
def eventArrives (ev : PatEvent) (s : State) : State :=
  match arriving s ev with
  | some x => intakeEvent ev false (takeOffer x s)
  | none => s

/-- An event that the firmware submits (R413): its code is not one that the device writes (R425). The staging slot that it uses is left out
(log 186). -/
def submitEvent (code sev src : Nat) (payload : List Byte) (s : State) : State :=
  if s.patina.bellows then rejectWrite patPage 0x740 (firmwareMaster s) s else intakeEvent (patEvent code sev src false payload) true s

/-- The SUPPRESSED record of a code (R417, R425). -/
def suppressedEvent (code : Nat) (b : Bucket) : PatEvent :=
  ⟨2, 2, BitVec.ofNat 16 b.firstSrc, false, leBytes 4 code ++ leBytes 4 b.supp ++ leBytes 4 b.firstOp ++ leBytes 4 b.lastOp⟩

/-- A bucket gains a token (R416, R417), outside the power-fail sequence, which takes no SUPPRESSED record (R423); perhaps in the cycle in which an event of the code arrives. -/
def gainToken (code : Nat) (same : Option PatEvent) (s : State) : State :=
  let b := bucket s code
  if b.rate = 0 ∨ b.burst ≤ b.level ∨ s.patina.bellows then s
  else if b.supp = 0 then
    let s := setBucket code { b with level := b.level + 1 } s
    match same with
    | some ev => eventArrives ev s
    | none => s
  else
    let s := enqueueEvent (suppressedEvent code b) false (setBucket code { b with supp := 0 } s)
    match same with
    | some ev =>
      match arriving s ev with
      | some x => if ev.code.toNat = code ∧ !severe ev then suppress ev (takeOffer x s) else eventArrives ev s
      | none => s
    | none => s

/-- A write of PT_RLCFG: the selected bucket takes the rate and depth, full (R424). -/
def rlcfgWrite (rate burst : Nat) (s : State) : State :=
  let code := fld (rdReg s patPage 0x734) 15 0
  setBucket code { bucket s code with rate := rate, burst := burst, level := burst } s

/-! ## Records (R410, R412, R415, R418) -/

/-- A record's length in bytes. -/
def recordLen (payload : List Byte) : Nat := 16 + (payload.length + 7) / 8 * 8

/-- The 16 bytes of a header. -/
def headerBytes (s : State) (code sev src len : Nat) (fid : Bool) : List Byte :=
  leBytes 2 code ++ leBytes 1 (len / 8) ++ leBytes 1 (sev + 16 * fid.toNat + 32 * s.patina.bellows.toNat)
    ++ leBytes 2 src ++ leBytes 2 (rdReg s patPage 0x718).toNat ++ leBytes 4 (opsec s)
    ++ leBytes 4 (pcyc s)

/-- A list of exactly n bytes, filled with zeros. -/
def padTo (n : Nat) (l : List Byte) : List Byte := (l ++ List.replicate n 0).take n

/-- The next SEQ (R412). -/
def nextSeq (s : State) : State := modReg patPage 0x718 (fun w => w32 ((w.toNat + 1) % 65536)) s

/-- A record is committed to the volatile ring at its pointer (R415). -/
def commitRecord (bytes : List Byte) (s : State) : State :=
  nextSeq (modPat (fun p => { p with vol := p.vol ++ [bytes], ptr := (p.ptr + bytes.length) % 65536, fill := p.fill + bytes.length }) s)

/-- The space at a ring's end that PAD fills before a record of n bytes: where room bytes are too few, or the record would leave 8, too few
for a record (R410, log 187). -/
def padSpace (room n : Nat) : Nat := if room < n ∨ room = n + 8 then room else 0

/-- The PAD records that fill a space: one, or two where it is above 256 bytes. -/
def padSizes (n : Nat) : List Nat := if n = 0 then [] else if n ≤ 256 then [n] else [16, n - 16]

/-- The bytes of a PAD record. -/
def padBytes (s : State) (n : Nat) : List Byte := padTo n (headerBytes s 1 0 0xFFFF n false)

/-- The PAD before a record of n bytes. -/
def padNeeded (p : Patina) (n : Nat) : Nat := padSpace (65536 - p.ptr) n

/-- Fill the volatile ring to its end with PAD. -/
def commitPad (n : Nat) (s : State) : State := forEach (padSizes n) s (fun k s => commitRecord (padBytes s k) s)

/-- The bytes in use of the MRAM ring of 2 MiB. -/
def mramFill (s : State) : Nat := ((rdReg s patPage 0x70C).toNat + 2 ^ 21 - (rdReg s patPage 0x708).toNat) % 2 ^ 21

/-- A flush is due (R419); during a freeze it waits, and one in progress is extended to what is committed now. -/
def flushTrigger (s : State) : State :=
  if s.patina.flushing then modPat (fun p => { p with flushN := p.vol.length }) s else modPat (fun p => { p with want := true }) s

/-- The effects of a commit: watermarks, FRZCNT, the flush triggers and the end of a freeze (R419, R421, R424). -/
def afterCommit (sev n : Nat) (s : State) : State :=
  let s := wmSample patPage 1 (mramFill s) (wmSample patPage 0 s.patina.fill s)
  let s := if s.patina.frozen ∨ s.patina.freezing then countReg patPage 0x730 n s else s
  if s.patina.frozen ∧ 49152 ≤ s.patina.fill then
    raiseBit patPage 1 (modPat (fun p => { p with frozen := false, frzBroken := true, want := true }) s)
  else if severeAt sev ∨ 49152 ≤ s.patina.fill then flushTrigger s
  else s

/-- Write an event's record with the PAD it needs. -/
def writeRecord (ev : PatEvent) (s : State) : State :=
  let n := recordLen ev.payload
  let pad := padNeeded s.patina n
  let s := commitPad pad s
  let s := commitRecord (padTo n (headerBytes s ev.code.toNat ev.sev.toNat ev.src.toNat n ev.fid ++ ev.payload)) s
  afterCommit ev.sev.toNat (1 + (padSizes pad).length) s

/-- The space a record takes, its PAD included. -/
def recordSpace (p : Patina) (ev : PatEvent) : Nat := recordLen ev.payload + padNeeded p (recordLen ev.payload)

/-- The DROPPED record (R418, R425). -/
def droppedEvent (p : Patina) : PatEvent := ⟨3, 2, 0x21, false, leBytes 4 p.dropN ++ leBytes 4 p.dropOp⟩

/-- A record below ERROR that would leave less than 8 KiB free is dropped (R418). -/
def dropRecord (s : State) : State :=
  raiseBit patPage 2 (countReg patPage 0x728 1
    (modPat (fun p => { p with dropN := p.dropN + 1, dropOp := if p.dropN = 0 then opsec s else p.dropOp }) s))

/-- The event leaves the intake queue, and a waiting producer's event enters. -/
def popIntake (s : State) : State :=
  modPat (fun p => { p with intake := p.intake.tail ++ p.waiting.take 1, waiting := p.waiting.drop 1 }) s

/-- The next record is written: DROPPED where it is due, else the event at the head of the queue (R415, R418). The power-fail sequence
takes neither DROPPED nor an event of the queue that R423 does not name: such an event leaves the queue unrecorded (log 154). -/
def recordStep (s : State) : State :=
  let p := s.patina
  if 0 < p.dropN ∧ 9216 < 65536 - p.fill ∧ !p.bellows then
    writeRecord (droppedEvent p) (modPat (fun p => { p with dropN := 0 }) s)
  else match p.intake with
    | [] => s
    | ev :: _ =>
      let need := recordSpace p ev
      if p.bellows && !bellowsTakes ev then popIntake s
      else if severe ev then (if p.fill + need ≤ 65536 then writeRecord ev (popIntake s) else s)
      else if p.fill + need + 8192 ≤ 65536 then writeRecord ev (popIntake s)
      else dropRecord (popIntake s)

/-! ## The MRAM ring (R419, R420) -/

/-- The base of the MRAM ring. -/
def mramRing (s : State) : Nat := (rdReg s patPage 0x710).toNat + 2 ^ 32 * (rdReg s patPage 0x714).toNat

/-- The length of the record at an offset of the ring, from its LEN. -/
def mramRecLen (s : State) (o : Nat) : Nat := 8 * (memByte s (mramRing s + o + 2)).toNat

/-- Remove whole records from the head until n bytes fit (R420). -/
def mramMake (n : Nat) : Nat → State → State
  | 0, s => s
  | fuel + 1, s =>
    if mramFill s + n < 2 ^ 21 ∨ mramFill s = 0 then s
    else
      let h := (rdReg s patPage 0x708).toNat
      let l := max 8 (mramRecLen s h)
      mramMake n fuel (countReg patPage 0x72C 1 (wrReg patPage 0x708 (w32 ((h + l) % 2 ^ 21)) s))

/-- Append bytes at PT_MTAIL. -/
def mramPut (bytes : List Byte) (s : State) : State :=
  let s := mramMake bytes.length 262144 s
  let t := (rdReg s patPage 0x70C).toNat
  wrReg patPage 0x70C (w32 ((t + bytes.length) % 2 ^ 21)) (bankPut .patina (mramRing s + t) bytes s)

/-- Append a record, after PAD where the ring's end is too near. -/
def mramAppend (bytes : List Byte) (s : State) : State :=
  let pad := padSpace (2 ^ 21 - (rdReg s patPage 0x70C).toNat) bytes.length
  mramPut bytes (forEach (padSizes pad) s (fun k s => mramPut (padBytes s k) s))

/-- The control line holds the head and tail (R420). -/
def mramControl (s : State) : State :=
  bankPut .patina patLine (leBytes 4 (rdReg s patPage 0x708).toNat ++ leBytes 4 (rdReg s patPage 0x70C).toNat) s

/-- A flush starts: of every record committed (R419). -/
def flushStart (s : State) : State :=
  if s.patina.flushing ∨ !s.patina.want ∨ (s.patina.frozen ∧ !s.patina.bellows) then s
  else modPat (fun p => { p with want := false, flushing := true, flushN := p.vol.length }) s

/-- The flush ends (R419-R421). -/
def flushDone (s : State) : State :=
  let p := s.patina
  if !p.flushing then s
  else
    let out := p.vol.take p.flushN
    let s := mramControl (forEach out s mramAppend)
    let s := modPat (fun q => { q with vol := q.vol.drop p.flushN, fill := q.fill - (out.map List.length).sum, flushing := false, flushN := 0, frozen := q.frozen || q.freezing, freezing := false }) s
    raiseBit patPage 0 s

/-! ## Commands (R421, R422) -/

/-- FREEZE: flush, then hold. -/
def freezeCmd (m : Master) (s : State) : State :=
  if s.patina.frozen ∨ s.patina.freezing then rejectWrite patPage 0x704 m s
  else flushTrigger (wrReg patPage 0x730 0 (modPat (fun p => { p with freezing := true, frzBroken := false }) s))

/-- THAW: one flush runs. -/
def thawCmd (m : Master) (s : State) : State :=
  if !s.patina.frozen then rejectWrite patPage 0x704 m s
  else modPat (fun p => { p with frozen := false, want := true }) s

/-- The records of the MRAM ring from an offset, counted, with the SEQ of the last. -/
def mramWalk (s : State) : Nat → Nat → Nat × Option Nat → Nat × Option Nat
  | 0, _, r => r
  | fuel + 1, o, r =>
    if o = (rdReg s patPage 0x70C).toNat then r
    else mramWalk s fuel ((o + max 8 (mramRecLen s o)) % 2 ^ 21) (r.1 + 1, some (leNat (memBytes s (mramRing s + o + 6) 2)))

/-- CLEAR (R422): from a management pair in Service mode (service), authorised, not frozen, outside the power-fail
sequence. The SEQ of the last discarded record is free where none was discarded (log 8). -/
def clearCmd (m : Master) (service : Bool) (s : State) : State :=
  let p := s.patina
  if !service ∨ !p.auth ∨ p.frozen ∨ p.freezing ∨ p.bellows then rejectWrite patPage 0x704 m s
  else
    let r := mramWalk s 262144 (rdReg s patPage 0x708).toNat (0, none)
    let last := match p.vol.getLast? with
      | some b => some (leNat ((b.drop 6).take 2))
      | none => r.2
    let pay := leBytes 4 (r.1 + p.vol.length) ++ leBytes 2 (last.getD (freeVal 16 s))
    let s := tick (modPat (fun p => { p with vol := [], fill := 0, ptr := 0, flushing := false, flushN := 0, auth := false }) s)
    let s := wrReg patPage 0x70C 0 (wrReg patPage 0x708 0 s)
    let s := mramControl (mramPut (padTo 24 (headerBytes s 4 4 0x21 24 false ++ pay)) s)
    raiseBit patPage 3 s

/-- A write of PT_CMD (R424). -/
def patCmdWrite (op : Nat) (m : Master) (service : Bool) (s : State) : State :=
  match op with
  | 1 => flushTrigger s
  | 2 => freezeCmd m s
  | 3 => thawCmd m s
  | 4 => clearCmd m service s
  | _ => invalidWrite patPage 0x704 m s

/-- A submission (R413): the slot is copied before the write is acknowledged. -/
def submitWrite (pair : Bool) (slot : Nat) (m : Master) (s : State) : State :=
  let b := memBytes s (0x11F0000 + 0x100 * slot) 256
  let code := leNat (b.take 2)
  let len := leNat ((b.drop 2).take 1)
  let fl := leNat ((b.drop 3).take 1)
  if !pair ∨ len < 2 ∨ 32 < len ∨ code < 0x1000 ∨ s.patina.bellows then rejectWrite patPage 0x740 m s
  else intakeEvent ⟨BitVec.ofNat 16 code, BitVec.ofNat 4 fl, BitVec.ofNat 16 (leNat ((b.drop 4).take 2)), fl / 16 % 2 == 1, (b.drop 16).take (8 * len - 16)⟩ true s

/-- One more operating second during which D8 holds power-good (R412). -/
def opsecStep (s : State) : State := if (dom s 8).good then vauxPut clockLine (satAdd (mramWord s clockLine) 1) s else s

end Sys2Proof.Machine
end

