-- ==== Sys2Proof/Machine/Fail.lean ====
section
/-! DEFINITION. Fail capture: the lane's address history and lane events, the cluster's fail pipeline, records, merging,
counting and the buffer pool (spec 06 R178, R179; 07 R206; 10 R252-R265, R279-R283). -/

namespace Sys2Proof.Machine

/-- The position of a lane in its cluster (10 R253). -/
def lanePosition (l : Nat) : Nat := (l + 4) % 8

/-- CL_SITEn of a cluster. -/
def siteCfg (s : State) (k n : Nat) : Word := rdReg s (clPage k) (0x400 + 4 * n)

/-- CL_FCTL.EN. -/
def captureOn (s : State) (k : Nat) : Bool := bit (rdReg s (clPage k) 0x120) 31

/-- Whether FP runs (10 R275): ST_LOW of the cluster store is RUNNING and no FP abort has stopped it. -/
def fpRuns (s : State) (k : Nat) : Bool := (store s (64 + k)).low == 2 && !(failPipe s k).stopped

/-- One bit for each lane position of a cluster that satisfies p. -/
def laneBits (k : Nat) (p : Nat → Bool) : Nat := forUpTo 8 0 (fun i n => n + (p (laneOfCluster k i)).toNat * 2 ^ i)

/-- CL_FSTAT as the lanes and the pipeline stand (R283). -/
def fstatNow (s : State) (k : Nat) : Word :=
  w32 ((captureOn s k && fpRuns s k).toNat * 2 ^ 31 + (failPipe s k).flush.toNat * 2 ^ 29 + laneBits k (fun l => (lane s l).unk) * 2 ^ 16
      + laneBits k (fun l => !(lane s l).ovf.isEmpty) * 2 ^ 8 + laneBits k (fun l => (lane s l).nullBuf))

/-- CL_FSTAT joins lane and cluster islands, so that reads return its last publication (12 R331): at a switch of its page, at a snapshot
capture, and where R263 and R316 say what EN_ACT and FLUSH_BUSY read (log 63). -/
def publishStat (k : Nat) (s : State) : State := { s with fstat := smPut 0 s.fstat k (fstatNow s k) }

/-- A counter that joins islands, as its page shows it from now on (12 R331). -/
def publishCount (page off : Nat) (s : State) : State := { s with fstat := smPut 0 s.fstat (regKey false page off) (rdReg s page off) }

/-- What a joined counter reads (12 R331). -/
def shownCount (s : State) (page off : Nat) : Word := smGet 0 s.fstat (regKey false page off)

/-- A read clears what it has shown of a joined counter; what came since its publication is kept (00 R10, R11). -/
def takeCount (page off : Nat) (s : State) : State :=
  wrReg page off (rdReg s page off - shownCount s page off) { s with fstat := smPut 0 s.fstat (regKey false page off) 0 }

/-- Publication of a CL page at its switch or a capture: CL_FSTAT and CL_DIVERT. -/
def publish (k : Nat) (s : State) : State := publishCount (clPage k) 0x72C (publishStat k s)

/-- Publication of the FB page: FB_NOROUTE and FB_DROP count for the port islands as for the fabric's own. -/
def publishFabric (s : State) : State := publishCount fbPage 0x73C (publishCount fbPage 0x738 s)

/-- Set flags of WD_SUMF for a site: 1 LOSSY, 2 RTFULL, 4 NOHOOK, 8 UNKADDR, 16 SKIPPED. -/
def siteFlag (k n f : Nat) (s : State) : State :=
  modWeld k (fun w => { w with flags := smPut 0 w.flags n (Nat.lor (smGet 0 w.flags n) f) }) s

/-! ## Diversion (R264) -/

/-- One site's part of a diverted event or record: its bit of the lane's bitmap or UNK, and LOSSY. -/
def divertPart (l n : Nat) (addr : Option Nat) (s : State) : State :=
  let k := clusterOfLane l
  let osh := fld (rdReg s (clPage k) (0x140 + 4 * lanePosition l)) 5 0
  siteFlag k n 1 (match addr with
    | some a => modLane l (fun x => { x with ovf := smPut false x.ovf (a / 2 ^ osh % 65536) true }) s
    | none => modLane l (fun x => { x with unk := true }) s)

/-- A diversion is counted, shown and reported to Patina (R261, R282; 16 R425). -/
def countDivert (l n : Nat) (s : State) : State :=
  let k := clusterOfLane l
  let s := raiseBit (clPage k) 1 (countReg (clPage k) 0x72C 1 s)
  offer 0x6001 2 (clPage k) false (leBytes 1 (lanePosition l) ++ leBytes 3 n ++ leBytes 4 (rdReg s (clPage k) 0x72C).toNat) s

/-- The address that a fail of site n has in its record (R265): none where unknown or at or above the site's reach. -/
def inReach (s : State) (k n : Nat) (a : Option (BitVec 56)) : Option Nat :=
  match a with
  | some a => if a.toNat < 2 ^ fld (siteCfg s k n) 5 0 then some a.toNat else none
  | none => none

/-- The sites of an event's pins, each once. -/
def eventSites (pins : List EventPin) : List Nat := (pins.map (fun p => p.site)).eraseDups

/-- A lane event is diverted: one part per site, one diversion. -/
def divertEvent (l : Nat) (addr : Option (BitVec 56)) (pins : List EventPin) (s : State) : State :=
  let k := clusterOfLane l
  let s := forEach (eventSites pins) s (fun n s => divertPart l n (inReach s k n addr) s)
  countDivert l ((eventSites pins).headD 0) s

/-! ## Lane: results and lane events -/

/-- Slot u of a compare result: V, F, REG (03 R99). -/
def slotOf (r : CompareResult) (u : Nat) : Nat := r.bits.toNat / 16 ^ u % 16

/-- The F bits of the valid slots of a result. -/
def failBits (r : CompareResult) : Nat :=
  forUpTo 4 0 (fun u n => if slotOf r u / 8 = 1 ∧ slotOf r u / 4 % 2 = 1 then n + 2 ^ u else n)

/-- Whether a result has any Fu = 1. -/
def anyFail (r : CompareResult) : Bool := (List.range 4).any (fun u => slotOf r u / 4 % 2 == 1)

/-- The regions of the slots, two bits each. -/
def regBits (r : CompareResult) : Nat := forUpTo 4 0 (fun u n => n + slotOf r u % 4 * 4 ^ u)

/-- The site of a result where CH_SITE.SV was 1 (02 R61, R67). -/
def resultSite (r : CompareResult) : Option Nat := if bit r.site 7 then some (fld r.site 6 0) else none

/-- A counter of a lane that is not yet in the cluster (R259). -/
def addCount (key : Nat) : List (Nat × Nat) → List (Nat × Nat)
  | [] => [(key, 1)]
  | (k, n) :: l => if k = key then (k, n + 1) :: l else (k, n) :: addCount key l

/-- Count a failing result of a site: CNT_RES, and CNT_REGr for each failing slot (R259). -/
def countResult (l n : Nat) (r : CompareResult) (s : State) : State :=
  modLane l (fun x => { x with counts := forUpTo 4 (addCount (5 * n) x.counts) (fun u c =>
    if failBits r / 2 ^ u % 2 = 1 then addCount (5 * n + 1 + slotOf r u % 4) c else c) }) s

/-- An event enters the lane event FIFO of 4,096 entries; one that finds it full is diverted (R253), or discarded while EN = 0 (R263). -/
def pushEvent (l : Nat) (count : Nat) (addr : Option (BitVec 56)) (pins : List EventPin) (s : State) : State :=
  if (lane s l).events.length < 4096 then modLane l (fun x => { x with events := x.events ++ [.fails count addr pins] }) s
  else if captureOn s (clusterOfLane l) then divertEvent l addr pins s else s

/-- The failing pins of a stroke, from its looked-up results (R252). -/
def eventPins (ls : List Lookup) : List EventPin :=
  ls.filterMap (fun u => match resultSite u.result with
    | some n => if failBits u.result = 0 then none else some ⟨u.ch % 8, n, failBits u.result, regBits u.result⟩
    | none => none)

/-- Whether a result of a stroke up to n is still to come from a channel of the lane. -/
def resultsDue (s : State) (l n : Nat) : Bool :=
  (List.range 8).any (fun p =>
    let x := chan s (8 * l + p)
    x.results.any (fun r => decide (r.count ≤ n)) || (match x.stroke with | some st => decide (st.count ≤ n) | none => false))

/-- The lowest stroke among the lookups. -/
def firstStroke : List Lookup → Option Nat
  | [] => none
  | u :: us => match firstStroke us with
    | some n => some (min n u.result.count)
    | none => some u.result.count

/-- Form the lane events whose strokes are complete, in stroke order (R252). -/
def formEvents (l : Nat) : Nat → State → State
  | 0, s => s
  | fuel + 1, s =>
    let ls := (lane s l).lookups
    match firstStroke ls with
    | none => s
    | some n =>
      let here := ls.filter (fun u => u.result.count == n)
      if here.any (fun u => !u.found) || resultsDue s l n then s
      else
        let s := modLane l (fun x => { x with lookups := ls.filter (fun u => u.result.count != n) }) s
        let pins := eventPins here
        let s := if pins.isEmpty then s else pushEvent l n ((here.headD ⟨0, ⟨0, 0, 0⟩, none, false⟩).addr) pins s
        formEvents l fuel s

/-- The oldest compare result of a channel reaches the lane (03 R100; 07 R194, R206; 10 R252, R259). -/
def resultArrives (c : Nat) (s : State) : State :=
  match (chan s c).results with
  | [] => s
  | r :: rest =>
    let l := laneOf c
    let s := modChan c (fun x => { x with results := rest }) s
    let s := modLane l (fun x => { x with lastResult := r.count, lastReg := if slotOf r 0 / 8 = 1 then smPut none x.lastReg (c % 8) (some (slotOf r 0 % 4)) else x.lastReg }) s
    if (store s l).low ≠ 2 ∨ (lane s l).fmAborted then
      (if anyFail r then raiseBit (pageIndex ⟨.lcs, l⟩) 3 (countReg (pageIndex ⟨.lcs, l⟩) 0x718 1 s) else s)
    else
      let s := match resultSite r with
        | some n => if failBits r = 0 then s else countResult l n r s
        | none => s
      let s := if anyFail r then modLane l (fun x => { x with lookups := x.lookups ++ [⟨c, r, none, false⟩] }) s else s
      formEvents l 4096 s

/-- The address recorded for the stroke of a lookup (06 R179). -/
def historyAt (s : State) (l count : Nat) : Option (BitVec 56) :=
  let delay := fld (rdReg s (lnPage l) 0x1A0) 15 0
  let r := (count + 2 ^ 64 - delay) % 2 ^ 64
  match smGet none (lane s l).ah (r % 65536) with
  | some e => if e.tag = r / 65536 then some e.addr else none
  | none => none

/-- Mark the oldest lookup of a channel that is still to be made. -/
def markFound (c : Nat) (a : Option (BitVec 56)) : List Lookup → List Lookup
  | [] => []
  | u :: us => if u.ch = c ∧ !u.found then { u with addr := a, found := true } :: us else u :: markFound c a us

/-- The oldest failing result of a channel that waits gets its address (06 R179), and the lane's events form. -/
def historyLookup (c : Nat) (s : State) : State :=
  let l := laneOf c
  match (lane s l).lookups.find? (fun u => u.ch == c && !u.found) with
  | none => s
  | some u =>
    let a := historyAt s l u.result.count
    let s := modLane l (fun x => { x with lookups := markFound c a x.lookups }) s
    let s := if a.isNone then raiseBit (lnPage l) 0 (countReg (lnPage l) 0x708 1 s) else s
    formEvents l 4096 s

/-- Record an address for a stroke (06 R178). -/
def recordAddress (l : Nat) (addr : BitVec 56) (r : Nat) (s : State) : State :=
  let old := smGet none (lane s l).ah (r % 65536)
  let s := modLane l (fun x => { x with ah := smPut none x.ah (r % 65536) (some ⟨addr, r / 65536⟩) }) s
  if (match old with | some e => e.tag == r / 65536 | none => false) then countReg (lnPage l) 0x70C 1 s else s

/-- A lane adds its counts into its cluster's counters (R259). -/
def siteCounters (l : Nat) (s : State) : State :=
  let cs := (lane s l).counts
  modFail (clusterOfLane l) (fun f => { f with counters := forEach cs f.counters (fun e m =>
      smPut 0 m e.1 (min (smGet 0 m e.1 + e.2) 0xFFFFFFFF)) })
    (modLane l (fun x => { x with counts := [] }) s)

/-! ## Records (R255, R256) -/

/-- The 16 bytes of a fail record. -/
def recordBytes (lp : Nat) (r : FailRec) : List Byte :=
  leBytes 16 (r.au.toNat * 2 ^ 125 + r.mrg.toNat * 2 ^ 124 + r.site % 128 * 2 ^ 117 + lp % 8 * 2 ^ 114 + r.pins % 256 * 2 ^ 106
    + r.mcnt % 64 * 2 ^ 100 + r.uf % 16 * 2 ^ 96 + r.first % 2 ^ 40 * 2 ^ 56 + r.addr.toNat)

/-- The 16 bytes of a mark record. -/
def markBytes (lp reason tag count : Nat) : List Byte :=
  leBytes 16 (2 ^ 126 + reason * 2 ^ 120 + lp % 8 * 2 ^ 117 + tag % 2 ^ 32 * 2 ^ 64 + count % 2 ^ 64)

/-! ## Buffers (R260-R263) -/

/-- CL_POOL. -/
def poolBase (s : State) (k : Nat) : Nat :=
  (rdReg s (clPage k) 0x710).toNat + 2 ^ 32 * fld (rdReg s (clPage k) 0x714) 15 0

/-- Whether the stack that holds an HBM address can be written: its domain is not lost. -/
def hbmUp (s : State) (a : Nat) : Bool :=
  match targetOf s a with
  | .hbm h => !domLost s (10 + h)
  | _ => false

/-- Write 16 bytes into a lane's buffer at its next record. -/
def putRecord (l : Nat) (b : FailBuf) (bytes : List Byte) (s : State) : State :=
  let a := poolBase s (clusterOfLane l) + 0x10000 * b.index + 16 * b.count
  let s := if hbmUp s a then memWrite a bytes s else s
  modLane l (fun x => { x with buf := some { b with count := b.count + 1 } }) s

/-- A lane's buffer closes (R262). -/
def closeBuffer (l : Nat) (part : Bool) (s : State) : State :=
  match (lane s l).buf with
  | none => s
  | some b =>
    modFail (clusterOfLane l) (fun f => { f with closing := f.closing ++ [⟨part, lanePosition l, b.count, b.index⟩] })
      (modLane l (fun x => { x with buf := none }) s)

/-- The stroke count that the next item's marks show. -/
def itemCount : FailItem → Nat
  | .record r => r.first
  | .user c _ => c
  | .flush => 0

/-- The mark that an item needs first in a buffer, if any: RESUME after a null buffer, then SC_HIGH (R256). -/
def neededMark (lp : Nat) (x : Lane) (b : FailBuf) (i : FailItem) : Option (List Byte) :=
  let n := itemCount i
  if x.nullBuf then some (markBytes lp 3 (min x.nullCount 0xFFFFFFFF) n)
  else match i with
    | .record _ => if n / 2 ^ 40 ≠ b.scHigh then some (markBytes lp 1 0 n) else none
    | .user .. | .flush => none

/-- Append the next 16 bytes of a lane's staging area (R256, R261): a mark it needs, or the item. -/
def appendOne (l : Nat) (b : FailBuf) (i : FailItem) (s : State) : State :=
  let lp := lanePosition l
  let n := itemCount i
  match neededMark lp (lane s l) b i with
  | some bytes =>
    putRecord l { b with scHigh := n / 2 ^ 40 } bytes (modLane l (fun x => { x with nullBuf := false, nullCount := 0 }) s)
  | none =>
    let s := modLane l (fun x => { x with staging := x.staging.tail }) s
    match i with
    | .record r => putRecord l b (recordBytes lp r) s
    | .user c t => putRecord l { b with scHigh := c / 2 ^ 40 } (markBytes lp 2 t.toNat c) s
    | .flush => s

/-- FLUSH_BUSY waits for every buffer of the cluster that has closed up to now (R263). -/
def flushMark (k : Nat) (s : State) : State := modFail k (fun f => { f with flushLeft := f.closing.length }) s

/-- A FLUSH reaches a lane's buffer: it closes where it holds a record after its BUFFER_START mark (R263). -/
def flushBuffer (l : Nat) (s : State) : State :=
  flushMark (clusterOfLane l) (match (lane s l).buf with
    | some b => if 1 < b.count then closeBuffer l true s else s
    | none => s)

/-- Append what the staging area holds; ask for a buffer where the lane has none or a full one (R261). -/
def appendItems (l : Nat) : Nat → State → State
  | 0, s => s
  | fuel + 1, s =>
    match (lane s l).staging with
    | [] => s
    | .flush :: rest => appendItems l fuel (flushBuffer l (modLane l (fun x => { x with staging := rest }) s))
    | i :: _ =>
      match (lane s l).buf with
      | none => modLane l (fun x => { x with asks := true }) s
      | some b =>
        let s := appendOne l b i s
        let s := match (lane s l).buf with
          | some b' => if b'.count = 4096 then closeBuffer l false s else s
          | none => s
        appendItems l fuel s

/-- A record or mark of a lane is to be appended. -/
def stageItem (l : Nat) (i : FailItem) (s : State) : State :=
  let s := modLane l (fun x => { x with staging := x.staging ++ [i] }) s
  appendItems l (4 * (lane s l).staging.length + 4) s

/-- A record that finds a null buffer diverts (R261). A user mark has nothing to divert. -/
def divertItem (l : Nat) (i : FailItem) (s : State) : State :=
  match i with
  | .record r =>
    let s := modLane l (fun x => { x with nullCount := x.nullCount + 1 }) s
    countDivert l r.site (divertPart l r.site (if r.au then none else some r.addr.toNat) s)
  | .flush => flushMark (clusterOfLane l) s
  | .user .. => s

/-- A lane receives a null buffer: what waits is diverted (R261). -/
def nullBuffer (l : Nat) (s : State) : State :=
  let items := (lane s l).staging
  let s := modLane l (fun x => { x with nullBuf := true, asks := false, staging := [] }) s
  forEach items s (divertItem l)

/-- The free list grants a buffer to a lane: its first record is BUFFER_START (R256). -/
def grantBuffer (k i b : Nat) (s : State) : State :=
  let l := laneOfCluster k i
  let n := match (lane s l).staging with | x :: _ => itemCount x | [] => 0
  let s := modFail k (fun f => { f with freeList := f.freeList.tail, last := i }) s
  let s := putRecord l ⟨b, 0, n / 2 ^ 40⟩ (markBytes (lanePosition l) 0 0 n) (modLane l (fun x => { x with asks := false }) s)
  let s := appendItems l (4 * (lane s l).staging.length + 4) s
  wmSample (clPage k) 0 (4096 - (failPipe s k).freeList.length) s

/-- The requests of one cluster cycle (R261): one grant, round-robin; null buffers once the free list is empty. -/
def bufferRequest (k : Nat) (s : State) : State :=
  let f := failPipe s k
  let order := ((List.range 8).map (fun i => (f.last + 1 + i) % 8)).filter (fun i => (lane s (laneOfCluster k i)).asks)
  match order, f.freeList with
  | [], _ => s
  | _, [] => forEach order s (fun i s => nullBuffer (laneOfCluster k i) s)
  | i :: others, b :: more =>
    let s := grantBuffer k i b s
    if more.isEmpty then
      forEach others s (fun j s => raiseBit (clPage k) 2 (countReg (clPage k) 0x728 1 (nullBuffer (laneOfCluster k j) s)))
    else s

/-- The records of a closed buffer are all in HBM: its entry enters the done ring of 4,096 (R262). -/
def bufferDone (k : Nat) (s : State) : State :=
  let f := failPipe s k
  match f.closing with
  | [] => s
  | e :: rest =>
    if 4096 ≤ f.done.length then s
    else wmSample (clPage k) 3 (f.done.length + 1) (raiseBit (clPage k) 0 (setFail k { f with closing := rest, done := f.done ++ [e], flushLeft := f.flushLeft - 1 } s))

/-- A write of CL_FREE (R262). -/
def freeWrite (k b : Nat) (m : Master) (s : State) : State :=
  let f := failPipe s k
  if f.freeList.contains b || f.done.any (fun e => e.buf == b) then refuseCmd (clPage k) 0x718 m (raiseReject (clPage k) s)
  else
    let s := setFail k { f with freeList := f.freeList ++ [b] } s
    wmSample (clPage k) 0 (4096 - (failPipe s k).freeList.length) s

/-- A write of 1 to CL_DONE_POP (R262). -/
def donePop (k : Nat) (s : State) : State :=
  let f := failPipe s k
  if f.done.isEmpty then s else wmSample (clPage k) 3 (f.done.length - 1) (setFail k { f with done := f.done.tail } s)

/-- INIT (R260): the free list holds buffers 0 to 4,095 and the done ring is empty; no lane holds a buffer. -/
def initPool (k : Nat) (m : Master) (s : State) : State :=
  if captureOn s k then refuseCmd (clPage k) 0x70C m s
  else
    let s := forUpTo 8 s (fun i s => modLane (laneOfCluster k i) (fun x => { x with buf := none, nullBuf := false, nullCount := 0, asks := false, staging := [] }) s)
    wmSample (clPage k) 3 0 (wmSample (clPage k) 0 0 (modFail k (fun f => { f with freeList := List.range 4096, done := [], closing := [], flushLeft := 0 }) s))

/-- OVCLR (R264). -/
def clearOverflow (k : Nat) (s : State) : State :=
  forUpTo 8 s (fun i s => modLane (laneOfCluster k i) (fun x => { x with ovf := [], unk := false }) s)

/-! ## The pipeline (R253, R258) -/

/-- The records in the Weld input FIFO. -/
def weldFill (w : Weld) : Nat := (w.input.filter (fun i => match i with | .record .. => true | _ => false)).length

/-- Whether WD runs (R275). -/
def weldRuns (s : State) (k : Nat) : Bool := fpRuns s k

/-- WD_STAT.ST as it reads (R275). -/
def weldSt (s : State) (k : Nat) : Nat := if weldRuns s k then (weld s k).st else 0

/-- A record that closes is offered to the Weld engine (R270): it is skipped where ST is STOPPED or ABORTED or the FIFO full. -/
def weldOffer (k l : Nat) (r : FailRec) (s : State) : State :=
  if !bit (siteCfg s k r.site) 30 then s
  else
    let w := weld s k
    let n := weldFill w
    if weldSt s k = 0 ∨ weldSt s k = 3 ∨ 16384 ≤ n then
      raiseBit (wdPage k) 3 (siteFlag k r.site 16 (countReg (wdPage k) 0x714 1 s))
    else wmSample (wdPage k) 1 (n + 1) (setWeld k { w with input := w.input ++ [.record (lanePosition l) r] } s)

/-- A record closes: it is appended and goes to the Weld engine; an AU record sets UNKADDR (R258, R284). -/
def closeOne (l : Nat) (r : FailRec) (s : State) : State :=
  let k := clusterOfLane l
  let s := modFail k (fun f => { f with closedRecs := f.closedRecs + 1 }) s
  let s := if r.au then siteFlag k r.site 8 s else s
  weldOffer k l r (stageItem l (.record r) s)

/-- Records in the order of their first strokes. -/
def insertRecord (r : FailRec) : List FailRec → List FailRec
  | [] => [r]
  | x :: xs => if r.first < x.first then r :: x :: xs else x :: insertRecord r xs
def byFirst (rs : List FailRec) : List FailRec := rs.foldl (fun l r => insertRecord r l) []

/-- A record closes, after the lane's open records of its site with earlier first strokes: the records of one lane and one site appear in
the order of first stroke (R257, log 149). -/
def closeRecord (l : Nat) (r : FailRec) (s : State) : State :=
  let before := fun (x : FailRec) => x.site == r.site && decide (x.first < r.first)
  let os := (lane s l).open_
  closeOne l r (forEach (byFirst (os.filter before)) (modLane l (fun x => { x with open_ := os.filter (fun y => !before y) }) s) (closeOne l))

/-- The record of one site's failing pins of an event (R255). -/
def newRecord (n count : Nat) (addr : Option Nat) (found : Option (BitVec 56)) (pins : List EventPin) : FailRec :=
  ⟨addr.isNone, false, n, (pins.map (fun p => 2 ^ p.pin)).foldl Nat.lor 0, 0, (pins.map (fun p => p.f)).foldl Nat.lor 0,
    count, count, found.getD 0⟩

/-- Whether an open record takes an event's pins (R258). -/
def joins (r : FailRec) (n count : Nat) (addr : Option Nat) (win : Nat) : Bool :=
  r.site == n && !r.au && addr == some r.addr.toNat && decide (count ≤ r.last + win) && decide (r.mcnt < 63)

/-- An open record after a join. -/
def joined (r new : FailRec) : FailRec :=
  { r with mrg := true, pins := Nat.lor r.pins new.pins, uf := Nat.lor r.uf new.uf, mcnt := r.mcnt + 1, last := new.last }

/-- The site's pins join an open record, open one, or form a record that closes at once (R258). The list of open records
runs from the least recently updated. -/
def takePart (l n count : Nat) (found : Option (BitVec 56)) (pins : List EventPin) (s : State) : State :=
  let k := clusterOfLane l
  let addr := inReach s k n found
  let new := newRecord n count addr found pins
  let win := fld (rdReg s (clPage k) 0x120) 7 0
  if !bit (siteCfg s k n) 29 || addr.isNone then closeRecord l new s
  else
    let os := (lane s l).open_
    match os.find? (fun r => joins r n count addr win) with
    | some r =>
      let r' := joined r new
      if r'.mcnt = 63 then closeRecord l r' (modLane l (fun x => { x with open_ := os.erase r }) s)
      else modLane l (fun x => { x with open_ := os.erase r ++ [r'] }) s
    | none =>
      match os with
      | r0 :: rest =>
        if 4 ≤ os.length then closeRecord l r0 (modLane l (fun x => { x with open_ := rest ++ [new] }) s)
        else modLane l (fun x => { x with open_ := os ++ [new] }) s
      | [] => modLane l (fun x => { x with open_ := [new] }) s

/-- The fail pipeline takes the oldest event or mark of lane position lp (R253, R263, R275). -/
def takeEvent (k lp : Nat) (s : State) : State :=
  let l := laneOfCluster k lp
  match (lane s l).events with
  | [] => s
  | e :: rest =>
    let s := modLane l (fun x => { x with events := rest }) s
    if !captureOn s k then s
    else match e with
      | .mark count tag => if fpRuns s k then stageItem l (.user count tag) s else s
      | .fails count addr pins =>
        if !fpRuns s k then divertEvent l addr pins s
        else forEach (eventSites pins) s (fun n s =>
          if bit (siteCfg s k n) 31 then takePart l n count addr (pins.filter (fun p => p.site == n)) s else s)

/-- The merge-window bound after an open record's last stroke has passed: the least recently updated record of the lane
closes (R254, R258), while FP runs (R275). -/
def closeTimeout (k lp : Nat) (s : State) : State :=
  let l := laneOfCluster k lp
  match (lane s l).open_ with
  | [] => s
  | r :: rest =>
    if !fpRuns s k then s
    else if r.last + fld (rdReg s (clPage k) 0x120) 7 0 < (base s k).count ∨ !(base s k).running then
      closeRecord l r (modLane l (fun x => { x with open_ := rest }) s)
    else s

/-- FLUSH (R263): every open record closes, then every lane's current buffer, once what waits for it is appended. -/
def flushCapture (k : Nat) (s : State) : State :=
  let s := modFail k (fun f => { f with flush := true }) s
  let s := forUpTo 8 s (fun i s =>
    let l := laneOfCluster k i
    let os := byFirst (lane s l).open_
    forEach os (modLane l (fun x => { x with open_ := [] }) s) (closeOne l))
  publishStat k (forUpTo 8 s (fun i s => stageItem (laneOfCluster k i) .flush s))

/-- Whether the last closed buffer is on the done ring. -/
def flushOver (s : State) (k : Nat) : Bool :=
  (failPipe s k).flush && (failPipe s k).flushLeft == 0
    && (List.range 8).all (fun i => !(lane s (laneOfCluster k i)).staging.contains .flush)

/-- FLUSH ends (R263). -/
def flushComplete (k : Nat) (s : State) : State :=
  if flushOver s k then publishStat k (raiseBit (clPage k) 3 (modFail k (fun f => { f with flush := false }) s)) else s

/-- A write of CL_FCMD: INIT, FLUSH, OVCLR (R282). -/
def fcmdWrite (k : Nat) (m : Master) (v : Word) (s : State) : State :=
  let s := if bit v 0 then initPool k m s else s
  let s := if bit v 1 then flushCapture k s else s
  if bit v 2 then clearOverflow k s else s

/-- A write of CL_SCSEL (R283): the counters are latched, and zeroed by CLR. -/
def scselWrite (k : Nat) (v : Word) (s : State) : State :=
  let n := fld v 6 0
  let s := wrReg (clPage k) 0x730 (w32 n) s
  let s := forUpTo 5 s (fun i s => wrReg (clPage k) (0x734 + 4 * i) (w32 (smGet 0 (failPipe s k).counters (5 * n + i))) s)
  if bit v 31 then modFail k (fun f => { f with counters := forUpTo 5 f.counters (fun i m => smPut 0 m (5 * n + i) 0) }) s else s

/-- A change of CL_FCTL.EN from 1 to 0 performs FLUSH (R263). -/
def captureChange (k : Nat) (old : Bool) (s : State) : State :=
  if old && !captureOn s k then flushCapture k s else if old != captureOn s k then publishStat k s else s

/-- fs.trg_mark (R279): a USER mark enters the lane event FIFO. -/
def userMark (l : Nat) (tag : Word) (s : State) : State :=
  modLane l (fun x => { x with events := x.events ++ [.mark x.lastResult tag] }) s

/-! ## Expected marks (09 R244) -/

/-- The next mark forwarded to the cluster is compared with the head entry of its channel's table. -/
def expectedMark (k : Nat) (s : State) : State :=
  match (base s k).marks with
  | [] => s
  | y :: rest => checkMark y true (modBase k (fun b => { b with marks := rest }) s)

/-- The cluster's stop reaches the tile (09 R244): the stream stops at its first boundary after. -/
def markStopArrives (c : Nat) (s : State) : State :=
  modChan c (fun x => if x.markStop then { x with markStop := false, stopDue := x.stream != .idle } else x) s

end Sys2Proof.Machine
end

