-- ==== Sys2Proof/Machine/Weld.lean ====
section
/-! DEFINITION. The Weld engine (spec 10 R266-R272, R276-R278): cells, must-repair, the spare search, commands and hooks. -/

namespace Sys2Proof.Machine

/-! ## Geometry and regions -/

/-- A geometry: CW, RW, SR, SC, CPIN, HCELL, HSOLVE, SBUD (R266, R284). -/
structure Geometry where
  cw : Nat
  rw : Nat
  sr : Nat
  sc : Nat
  cpin : Bool
  hcell : Bool
  hsolve : Bool
  sbud : Nat
  deriving DecidableEq, Repr

/-- WD_GEOg of a cluster. -/
def geometry (s : State) (k g : Nat) : Geometry :=
  let a := rdReg s (wdPage k) (0x100 + 8 * g)
  let b := rdReg s (wdPage k) (0x104 + 8 * g)
  ⟨fld a 4 0, fld a 12 8, fld a 22 16, fld a 30 24, bit b 0, bit b 1, bit b 2, fld b 31 16⟩

/-- The geometry number of a site. -/
def siteGeo (s : State) (k n : Nat) : Nat := fld (siteCfg s k n) 10 8

/-- The region entry of a site and region index. -/
def findRegion (w : Weld) (n i : Nat) : Option WeldRegion := w.regions.find? (fun r => r.site == n && r.region == i)

/-- Replace a region entry. -/
def putRegion (r : WeldRegion) (w : Weld) : Weld :=
  { w with regions := w.regions.map (fun x => if x.site = r.site ∧ x.region = r.region then r else x) }

/-- Whether a cell lies in a repaired row or column of a region. -/
def covered (r : WeldRegion) (c : WeldCell) : Bool :=
  r.rows.any (fun x => x.cell.row == c.row) || r.cols.any (fun x => x.cell.q == c.q && x.cell.col == c.col)

/-! ## The region table (R267) -/

/-- A spare row or column as its word. -/
def rowWord (x : WeldSpare) : Nat := 2 ^ 31 + x.must.toNat * 2 ^ 30 + x.cell.row % 2 ^ 24
def colWord (x : WeldSpare) : Nat := 2 ^ 31 + x.must.toNat * 2 ^ 30 + x.cell.q % 64 * 2 ^ 16 + x.cell.col % 2 ^ 16
/-- A pending cell as its 8 bytes. -/
def pendWord (c : WeldCell) : Nat := 2 ^ 63 + c.row % 2 ^ 24 * 2 ^ 22 + c.q % 64 * 2 ^ 16 + c.col % 2 ^ 16

/-- The 1,024 bytes of an entry. -/
def regionBytes (r : WeldRegion) : List Byte :=
  leBytes 8 (2 ^ 63 + r.site % 128 * 2 ^ 56 + r.state % 16 * 2 ^ 52 + r.geo % 16 * 2 ^ 48 + r.region % 2 ^ 48)
    ++ leBytes 8 (min r.cells 0xFFFFFFFF * 2 ^ 32 + r.pend.length * 2 ^ 16 + r.cols.length * 2 ^ 8 + r.rows.length)
    ++ List.replicate 48 0
    ++ padTo 256 (r.rows.map rowWord |>.flatMap (leBytes 4))
    ++ padTo 256 (r.cols.map colWord |>.flatMap (leBytes 4))
    ++ padTo 448 (r.pend.map pendWord |>.flatMap (leBytes 8))

/-- WD_RT. -/
def tableBase (s : State) (k : Nat) : Nat :=
  (rdReg s (wdPage k) 0x708).toNat + 2 ^ 32 * fld (rdReg s (wdPage k) 0x70C) 15 0

/-- Write entries one after the other. -/
def putEntries : List WeldRegion → Nat → State → State
  | [], _, s => s
  | r :: rs, a, s => putEntries rs (a + 1024) (memWrite a (regionBytes r) s)

/-- The table in memory holds the regions in the order of the list, and no other entry (the order is the model's, log 71). -/
def syncTable (k : Nat) (s : State) : State :=
  let b := tableBase s k
  if hbmUp s b then putEntries (weld s k).regions b (wipeMem b (b + 2 ^ 30) s) else s

/-! ## Cells (R266, R268) -/

/-- Add a spare that repairs a cell's row or column, and take what it covers out of PEND. -/
def useSpare (row must : Bool) (c : WeldCell) (r : WeldRegion) : WeldRegion :=
  let r : WeldRegion := if row then { r with rows := r.rows ++ [⟨must, c⟩] } else { r with cols := r.cols ++ [⟨must, c⟩] }
  { r with pend := r.pend.filter (fun x => !covered r x), freed := if must then r.freed else r.freed ++ r.pend.filter (covered r) }

/-- A repair of a row or column for a cell, or UNREPAIRABLE where no spare remains (step 6). -/
def repair (g : Geometry) (row : Bool) (c : WeldCell) (r : WeldRegion) : WeldRegion :=
  if row then (if r.rows.length < g.sr then useSpare true true c r else { r with state := 3 })
  else if r.cols.length < g.sc then useSpare false true c r else { r with state := 3 }

/-- The pending cells in a cell's row and in its column. -/
def rowCount (r : WeldRegion) (c : WeldCell) : Nat := (r.pend.filter (fun x => x.row == c.row)).length
def colCount (r : WeldRegion) (c : WeldCell) : Nat := (r.pend.filter (fun x => x.q == c.q && x.col == c.col)).length

/-- The proposal of step 5: 0 none, 1 row, 2 column. -/
def proposal (g : Geometry) (r : WeldRegion) (c : WeldCell) : Nat :=
  if g.sc - r.cols.length < rowCount r c then 1 else if g.sr - r.rows.length < colCount r c then 2 else 0

/-- Act on a decision for a cell: 1 row, 2 column, 3 UNREPAIRABLE, else pending (steps 6 and 7, R278). -/
def decide_ (g : Geometry) (c : WeldCell) (d : Nat) (r : WeldRegion) : WeldRegion :=
  match d with
  | 1 => repair g true c r
  | 2 => repair g false c r
  | 3 => { r with state := 3 }
  | _ => r

/-- A SOLVED region releases the spares of its search and opens again (step 3). -/
def reopen (r : WeldRegion) : WeldRegion :=
  if r.state ≠ 2 then r
  else { r with state := 1, rows := r.rows.filter (fun x => x.must), cols := r.cols.filter (fun x => x.must),
                pend := r.pend ++ r.freed, freed := [] }

/-- A cell is received (steps 1 to 4): the region after it, and whether step 5 follows. -/
def receiveCell (c : WeldCell) (r : WeldRegion) : WeldRegion × Bool :=
  let r := if r.seen.contains c then r else { r with seen := c :: r.seen, cells := r.cells + 1 }
  if covered r c || r.pend.contains c || r.state = 3 || r.state = 4 then (r, false)
  else
    let r := reopen r
    if 56 ≤ r.pend.length then ({ r with state := 4 }, false) else ({ r with pend := r.pend ++ [c] }, true)

/-- Whether hooks can run: MODE = Open and ST_UP = RUNNING (R277). -/
def hooksRun (s : State) (k : Nat) : Bool := (store s (64 + k)).mode && (store s (64 + k)).up == 2

/-- The hook's registers at entry (R278). -/
def hookInputs (g : Geometry) (r : WeldRegion) (h : WeldHook) (w : SMap DWord) : SMap DWord :=
  let v : List Nat := [r.region, if h.solve then 0 else h.cell.row, if h.solve then 0 else h.cell.q * 65536 + h.cell.col,
    (g.sc - r.cols.length) * 256 + (g.sr - r.rows.length), if h.solve then r.pend.length else rowCount r h.cell,
    if h.solve then r.cells else colCount r h.cell, h.proposal, r.site]
  forUpTo 8 w (fun i m => smPut 0 m i (BitVec.ofNat 64 (v.getD i 0)))

/-- Start a hook at its entry (R278): C0 = C1 = 0 and the return stack is empty. The WD sequencer has key 136 + k. -/
def startHook (k : Nat) (g : Geometry) (r : WeldRegion) (h : WeldHook) (s : State) : State :=
  setSeq (136 + k) { seqAt s (136 + k) with running := true, addr := if h.solve then 0x1900 else 0x1800, stack := [], c0 := 0, c1 := 0, timer := false, waiting := false }
    (modWeld k (fun w => { w with hook := some h, w := hookInputs g r h w.w }) s)

/-- After a decision: a repair puts every pending cell up for examination again (step 7). -/
def afterDecision (k : Nat) (old new : WeldRegion) (s : State) : State :=
  let rest := (weld s k).exam
  let again := if new.pend.length < old.pend.length ∧ new.state ≠ 3 then new.pend.map (fun c => (new.site, new.region, c)) else rest
  modWeld k (fun w => { putRegion new w with exam := if new.state = 3 then [] else again }) s

/-- Step 5 for a cell: the proposal, through HOOK_CELL where that is enabled (R268, R277). -/
def examine (k n i : Nat) (c : WeldCell) (s : State) : State :=
  match findRegion (weld s k) n i with
  | none => s
  | some r =>
    let g := geometry s k r.geo
    if !r.pend.contains c ∨ (r.state ≠ 1 ∧ r.state ≠ 5) then s
    else if !g.hcell then afterDecision k r (decide_ g c (proposal g r c) r) s
    else if hooksRun s k then startHook k g r ⟨false, n, i, c, proposal g r c⟩ s
    else siteFlag k n 4 s

/-- The entry of a cell's region, made where there is none (R266). -/
def regionFor (k n i : Nat) (s : State) : State :=
  match findRegion (weld s k) n i with
  | some _ => s
  | none =>
    if 1048576 ≤ (weld s k).regions.length then raiseBit (wdPage k) 2 (siteFlag k n 2 s)
    else
      let s := modWeld k (fun w => { w with regions := w.regions ++ [⟨n, siteGeo s k n, i, 1, 0, [], [], [], [], []⟩] }) s
      wmSample (wdPage k) 0 (weld s k).regions.length s

/-- One cell of the record in work (R268). -/
def takeCell (k n i : Nat) (c : WeldCell) (s : State) : State :=
  let s := regionFor k n i s
  match findRegion (weld s k) n i with
  | none => s
  | some r =>
    let x := receiveCell c r
    modWeld k (fun w => { putRegion x.1 w with exam := if x.2 then [(n, i, c)] else [] }) s

/-- Work off the cells of the record in work until they are done or a hook runs. -/
def weldRun (k : Nat) : Nat → State → State
  | 0, s => s
  | fuel + 1, s =>
    let w := weld s k
    if w.hook.isSome then s
    else match w.exam, w.cells with
      | (n, i, c) :: rest, _ => weldRun k fuel (examine k n i c (modWeld k (fun w => { w with exam := rest }) s))
      | [], (n, i, c) :: rest => weldRun k fuel (takeCell k n i c (modWeld k (fun w => { w with cells := rest }) s))
      | [], [] => s

/-- The steps that one record can take: 8 cells, each with at most 57 examinations of at most 57 cells. -/
def weldFuel : Nat := 32768

/-- The cells of a record (R266): one per failing pin. -/
def recordCells (s : State) (k lp : Nat) (r : FailRec) : List (Nat × Nat × WeldCell) :=
  let g := geometry s k (siteGeo s k r.site)
  let a := r.addr.toNat
  (List.range 8).filterMap (fun p => if r.pins / 2 ^ p % 2 = 1 then
    some (r.site, a / 2 ^ (g.cw + g.rw), ⟨a / 2 ^ g.cw % 2 ^ g.rw, if g.cpin then 8 * lp + p else 0, a % 2 ^ g.cw⟩) else none)

/-! ## Commands (R269, R271) -/

/-- Whether the engine can take the next item: no record, hook or region search in work, and ST runs or is STOPPED. -/
def weldFree (w : Weld) : Bool :=
  w.hook.isNone && w.cells.isEmpty && w.exam.isEmpty && !w.searching && (w.st == 2 || w.st == 0)

/-- Take the command at the front of the input, if one stands there (R271); one that follows a SOLVE waits for its end (log 181). -/
def weldCommand (k : Nat) (s : State) : State :=
  let w := weld s k
  if !weldFree w || !weldRuns s k || w.solving.isSome then s
  else match w.input with
    | .start :: rest => setWeld k { w with input := rest, st := 1 } s
    | .stop :: rest => syncTable k (setWeld k { w with input := rest, st := 0 } s)
    | .solve n :: rest =>
      let visit := (w.regions.filter (fun r => r.site == n && (r.state == 1 || r.state == 5))).map (fun r => r.region)
      let s := setWeld k { w with input := rest, solving := if visit.isEmpty then none else some n, toVisit := visit } s
      if visit.isEmpty then raiseBit (wdPage k) 0 s else s
    | .clear n :: rest =>
      let left := w.regions.filter (fun r => r.site != n)
      wmSample (wdPage k) 0 left.length
        (syncTable k (setWeld k { w with input := rest, regions := left, flags := smPut 0 w.flags n 0 } s))
    | _ => s

/-- Take commands from the front of the input while they stand there. -/
def weldCommands (k : Nat) : Nat → State → State
  | 0, s => s
  | fuel + 1, s => weldCommands k fuel (weldCommand k s)

/-- A record read back from a buffer with its lane position, where it is a fail record. -/
def recordOf (b : List Byte) : Option (Nat × FailRec) :=
  let v := leNat b
  if v / 2 ^ 126 ≠ 0 then none
  else some (v / 2 ^ 114 % 8, ⟨v / 2 ^ 125 % 2 == 1, v / 2 ^ 124 % 2 == 1, v / 2 ^ 117 % 128, v / 2 ^ 106 % 256, v / 2 ^ 100 % 64, v / 2 ^ 96 % 16, v / 2 ^ 56 % 2 ^ 40, v / 2 ^ 56 % 2 ^ 40, BitVec.ofNat 56 v⟩)

/-- The cells of record i of a buffer as replay reads it (R270): none where it is a mark, where its stack is lost, or where its site is not
analysed. -/
def replayCells (s : State) (k buf i : Nat) : List (Nat × Nat × WeldCell) :=
  let a := poolBase s k + 0x10000 * buf + 16 * i
  if !hbmUp s a then []
  else match recordOf (memBytes s a 16) with
    | some (lp, r) => if r.au || !bit (siteCfg s k r.site) 30 then [] else recordCells s k lp r
    | none => []

/-- The engine processes one record, from the FIFO or of a replay (R268, R270). -/
def weldRecord (k : Nat) (s : State) : State :=
  let w := weld s k
  if !weldFree w || !weldRuns s k then s
  else
    let s := match w.input with
      | .record lp r :: rest =>
        wmSample (wdPage k) 1 (weldFill { w with input := rest })
          (weldRun k weldFuel (setWeld k { w with input := rest, cells := if r.au then [] else recordCells s k lp r } s))
      | .replay b i n :: rest =>
        weldRun k weldFuel (setWeld k { w with input := if i + 1 < n then .replay b (i + 1) n :: rest else rest, cells := replayCells s k b i } s)
      | _ => s
    syncTable k (weldCommands k ((weld s k).input.length + 1) s)

/-- START is accepted (R271): ST becomes INIT as soon as what has reached the engine before it has taken effect; after an abort, where nothing
takes effect without START (R276), at once (log 181). -/
def weldStart (k : Nat) (m : Master) (s : State) : State :=
  if weldSt s k = 0 ∨ weldSt s k = 3 then
    (if (weld s k).st = 3 then modWeld k (fun w => { w with st := 1 }) s
     else weldCommands k ((weld s k).input.length + 2) (modWeld k (fun w => { w with input := w.input ++ [.start] }) s))
  else refuseCmd (wdPage k) 0x704 m s

/-- The table is zeroed and the engine runs (R271). -/
def weldStarted (k : Nat) (s : State) : State :=
  if (weld s k).st ≠ 1 ∨ !weldRuns s k then s
  else
    let s := raiseBit (wdPage k) 4 (syncTable k (modWeld k (fun w => { w with st := 2, regions := [] }) s))
    weldCommands k ((weld s k).input.length + 1) (wmSample (wdPage k) 0 0 s)

/-- A SOLVE in progress or on its way. -/
def solveBusy (w : Weld) : Bool := w.solving.isSome || w.input.any (fun i => match i with | .solve _ => true | _ => false)

/-- A write of WD_CMD (R269, R271, R284). -/
def weldCmdWrite (k : Nat) (m : Master) (v : Word) (s : State) : State :=
  let n := fld v 14 8
  let push := fun i s => weldCommands k ((weld s k).input.length + 2) (modWeld k (fun w => { w with input := w.input ++ [i] }) s)
  match fld v 2 0 with
  | 1 => weldStart k m s
  | 2 => push .stop s
  | 3 => if solveBusy (weld s k) then rejectWrite (wdPage k) 0x704 m s else push (.solve n) s
  | 4 => push (.clear n) s
  | _ => invalidWrite (wdPage k) 0x704 m s

/-! ## The search (R269) -/

/-- The distinct rows of cells in ascending order. -/
def insertRow (n : Nat) : List Nat → List Nat
  | [] => [n]
  | x :: xs => if n < x then n :: x :: xs else if n = x then x :: xs else x :: insertRow n xs
def distinctRows (cs : List WeldCell) : List Nat := cs.foldl (fun l c => insertRow c.row l) []

/-- The distinct column keys of cells. -/
def distinctCols (cs : List WeldCell) : List (Nat × Nat) := (cs.map (fun c => (c.q, c.col))).eraseDups

/-- Lists of the same length compared element by element. -/
def lexLt : List Nat → List Nat → Bool
  | a :: as, b :: bs => decide (a < b) || (decide (a = b) && lexLt as bs)
  | _, _ => false

/-- Whether choice a is better than b: fewer spares, then fewer columns, then lower rows. -/
def better (a b : List Nat × Nat) : Bool :=
  let x := a.1.length + a.2
  let y := b.1.length + b.2
  decide (x < y) || (decide (x = y) && (decide (a.2 < b.2) || (decide (a.2 = b.2) && lexLt a.1 b.1)))

/-- The better of two possible choices. -/
def pick (a b : Option (List Nat × Nat)) : Option (List Nat × Nat) :=
  match a, b with
  | some x, some y => if better y x then some y else some x
  | some x, none => some x
  | none, y => y

/-- The best set of rows to repair among those still to be decided, the cells left being repaired by column. -/
def searchRows (sr sc : Nat) (cs : List WeldCell) : List Nat → List Nat → Option (List Nat × Nat)
  | [], chosen =>
    let cols := (distinctCols (cs.filter (fun c => !chosen.contains c.row))).length
    if chosen.length ≤ sr ∧ cols ≤ sc then some (chosen, cols) else none
  | r :: rs, chosen => pick (searchRows sr sc cs rs (chosen ++ [r])) (searchRows sr sc cs rs chosen)

/-- The region after the search: SOLVED with the best assignment, or UNREPAIRABLE. -/
def searchRegion (g : Geometry) (r : WeldRegion) : WeldRegion :=
  match searchRows (g.sr - r.rows.length) (g.sc - r.cols.length) r.pend (distinctRows r.pend) [] with
  | none => { r with state := 3 }
  | some x =>
    let left := r.pend.filter (fun c => !x.1.contains c.row)
    let r1 := x.1.foldl (fun r n => useSpare true false ⟨n, 0, 0⟩ r) r
    let r2 := (distinctCols left).foldl (fun r c => useSpare false false ⟨0, c.1, c.2⟩ r) r1
    { r2 with state := 2 }

/-- The outcome for the region visited (R269): hook decision d (0 search). -/
def solveOutcome (g : Geometry) (d : Nat) (exceeded : Bool) (r : WeldRegion) : WeldRegion :=
  match d with
  | 1 => r
  | 0 => if exceeded ∧ g.sbud ≠ 0 then { r with state := 5 } else searchRegion g r
  | _ => { r with state := 3 }

/-- The visit of a region ends; the last one ends SOLVE. -/
def solveStep (k : Nat) (r : WeldRegion) (s : State) : State :=
  let s := modWeld k (fun w => { putRegion r w with toVisit := w.toVisit.tail }) s
  let s := if (weld s k).toVisit.isEmpty then raiseBit (wdPage k) 0 (modWeld k (fun w => { w with solving := none }) s) else s
  syncTable k (weldCommands k ((weld s k).input.length + 1) s)

/-- The engine visits the next region of a SOLVE (R269), or makes the search that HOOK_SOLVE has left to it. A region that is no longer OPEN or
TIMEOUT when its turn comes stays as it is. -/
def solveRegion (k : Nat) (exceeded : Bool) (s : State) : State :=
  let w := weld s k
  match w.solving, w.toVisit with
  | some n, i :: _ =>
    if w.searching && weldRuns s k then
      let s := modWeld k (fun w => { w with searching := false }) s
      match findRegion w n i with
      | none => s
      | some r => solveStep k (solveOutcome (geometry s k r.geo) 0 exceeded r) s
    else if !weldFree w || !weldRuns s k then s
    else match findRegion w n i with
      | none => solveStep k ⟨n, 0, i, 0, 0, [], [], [], [], []⟩ s
      | some r =>
        let g := geometry s k r.geo
        if r.state ≠ 1 ∧ r.state ≠ 5 then solveStep k r s
        else if g.hsolve && hooksRun s k then startHook k g r ⟨true, n, i, ⟨0, 0, 0⟩, 0⟩ s
        else
          let s := if g.hsolve then siteFlag k n 4 s else s
          solveStep k (solveOutcome g 0 exceeded r) s
  | some _, [] => raiseBit (wdPage k) 0 (modWeld k (fun w => { w with solving := none }) s)
  | none, _ => s

/-- A hook ends with its decision in W6[1:0] (R278); the search that HOOK_SOLVE leaves to the engine comes at its next WELD_SOLVE_REGION. -/
def hookDone (k : Nat) (s : State) : State :=
  let w := weld s k
  match w.hook with
  | none => s
  | some h =>
    let d := (smGet 0 w.w 6).toNat % 4
    let s := modWeld k (fun w => { w with hook := none }) s
    match findRegion w h.site h.region with
    | none => s
    | some r =>
      let g := geometry s k r.geo
      if h.solve then (if d = 0 then modWeld k (fun w => { w with searching := true }) s else solveStep k (solveOutcome g d false r) s)
      else
        let s := afterDecision k r (decide_ g h.cell d r) s
        syncTable k (weldCommands k ((weld s k).input.length + 1) (weldRun k weldFuel s))

/-- A WD abort (R276). -/
def weldAbort (k : Nat) (s : State) : State :=
  let s := modWeld k (fun w => { w with st := 3, hook := none, cells := [], exam := [], searching := false, solving := none, toVisit := [] }) s
  let s := forUpTo 128 s (fun n s => if bit (siteCfg s k n) 30 then siteFlag k n 1 s else s)
  raiseBit (wdPage k) 1 s

/-! ## Replay and summary (R270, R284) -/

/-- A write of WD_RPLY (R270): the engine will read the records, of which a buffer holds 4,096 (R261). -/
def replayWrite (k : Nat) (m : Master) (v : Word) (s : State) : State :=
  let b := fld v 11 0
  if (failPipe s k).freeList.contains b then rejectWrite (wdPage k) 0x710 m s
  else if fld v 24 12 = 0 then s
  else modWeld k (fun w => { w with input := w.input ++ [.replay b 0 (min (fld v 24 12) 4096)] }) s

/-- How many regions of a site are in a state. -/
def stateCount (w : Weld) (n st : Nat) : Nat := (w.regions.filter (fun r => r.site == n && r.state == st)).length

/-- A write of WD_SUMSEL latches the site's summary. -/
def sumselWrite (k : Nat) (v : Word) (s : State) : State :=
  let n := fld v 6 0
  let s := wrReg (wdPage k) 0x71C (w32 (smGet 0 (weld s k).flags n)) (wrReg (wdPage k) 0x718 (w32 n) s)
  forUpTo 5 s (fun i s => wrReg (wdPage k) (0x720 + 4 * i) (w32 (stateCount (weld s k) n (i + 1))) s)

/-- fs.trg_wstat (R279). -/
def siteStatus (s : State) (k n : Nat) : Nat :=
  let w := weld s k
  let f := smGet 0 w.flags n
  (stateCount w n 3 != 0).toNat + 2 * (stateCount w n 4 != 0 || stateCount w n 5 != 0).toNat
    + 4 * (f % 2 == 1 || f / 16 % 2 == 1).toNat + 8 * (weldSt s k == 2).toNat

end Sys2Proof.Machine
end

