-- ==== Sys2Proof/Machine/Operands.lean ====
section
/-! DEFINITION. Operands of Mulis: bundles and move slots, register groups, ports with their scoreboard and deferred
writes (spec 04 R102-R116, 05 R138, R139, 08 R214). -/

namespace Sys2Proof.Machine

/-! ## Which engine -/

/-- ESTAT.TYPE of an engine key. -/
def engType (k : Nat) : Nat := if k < 512 then 0 else if k < 1024 then 1 else 2

/-- ESTAT.INDEX of an engine key. -/
def engIndex (k : Nat) : Nat := if k < 512 then k else if k < 1024 then k - 512 else k - 1024

/-- The lane of a core or thread. -/
def engLane (k : Nat) : Nat := engIndex k / 8 % 64

/-- The matrix master of an engine (11 R288). -/
def engMaster (k : Nat) : Master :=
  if k < 1024 then .lane (Fin.ofNat 64 (engLane k)) else if k = 1024 then .mcA else .mcB

/-- The modes Fault and Service (08 R212). -/
def privMode (e : Engine) : Bool := e.mode != 0

/-! ## Bundles (R102, R103) -/

/-- A bundle as its header fields and its four slots. -/
structure BundleF where
  fmt : Nat
  rpt : Bool
  rpti : Bool
  rsv : Nat
  slots : List Nat
  deriving DecidableEq, Repr

/-- The fields of a 128-bit bundle. -/
def bundleOf (b : Bundle) : BundleF :=
  let n := b.toNat
  ⟨n / 2 ^ 126, n / 2 ^ 125 % 2 == 1, n / 2 ^ 124 % 2 == 1, n / 2 ^ 120 % 16,
    [n % 2 ^ 30, n / 2 ^ 30 % 2 ^ 30, n / 2 ^ 60 % 2 ^ 30, n / 2 ^ 90 % 2 ^ 30]⟩

/-- A move: its slot number, guard, source and destination. -/
structure Move where
  slot : Nat
  inv : Bool
  pred : Nat
  src : Nat
  dst : Nat
  deriving DecidableEq, Repr

/-- The move of a slot value. -/
def moveOf (i v : Nat) : Move := ⟨i, v / 2 ^ 29 == 1, v / 2 ^ 26 % 8, v / 2 ^ 13 % 2 ^ 13, v % 2 ^ 13⟩

/-- A slot with guard 0b1000 is a NOP slot (R103). -/
def Move.nop (m : Move) : Bool := m.inv && m.pred == 0

/-- The slots of a bundle that are moves: three where the fourth holds an immediate. -/
def movesOf (b : BundleF) : List Move :=
  if b.fmt = 0 then [moveOf 0 (b.slots.getD 0 0), moveOf 1 (b.slots.getD 1 0), moveOf 2 (b.slots.getD 2 0), moveOf 3 (b.slots.getD 3 0)]
  else [moveOf 0 (b.slots.getD 0 0), moveOf 1 (b.slots.getD 1 0), moveOf 2 (b.slots.getD 2 0)]

/-- The long immediate or COUNT of a bundle. -/
def immOf (b : BundleF) : Nat := b.slots.getD 3 0

/-- Whether a move's guard is true (R103): p0 is always 1. -/
def guardTrue (e : Engine) (m : Move) : Bool := ((m.pred == 0 || bit (e.preds.setWidth 32) m.pred) != m.inv)

/-! ## Ports (R131, 08 R214) -/

/-- The units with two port sets (08 R214). -/
def banked (sock : Nat) : Bool :=
  (0x100 ≤ sock && sock < 0x220) || (0x240 ≤ sock && sock < 0x260) || (0x400 ≤ sock && sock < 0x6A0)

/-- The key of a port in a set: priv selects the privileged set. -/
def portKey (priv : Bool) (sock : Nat) : Nat := if banked sock && priv then sock + 0x2000 else sock

/-- The value of a port. -/
def portVal (e : Engine) (priv : Bool) (sock : Nat) : Wide := smGet 0 e.ports (portKey priv sock)

/-- Set a port. -/
def setPort (priv : Bool) (sock : Nat) (v : Wide) (e : Engine) : Engine :=
  { e with ports := smPut 0 e.ports (portKey priv sock) v }

/-- The latest operation, not at WB, that writes a result port: the last in issue order. -/
def latestOp (priv : Bool) (sock : Nat) : List Op → Option Op
  | [] => none
  | o :: os => match latestOp priv sock os with
    | some x => some x
    | none => if (o.priv = priv ∨ banked sock = false) ∧ o.vals.any (fun v => v.1 == sock) then some o else none

/-- Whether a result port is ready (R138). -/
def portReady (e : Engine) (priv : Bool) (sock : Nat) : Bool := (latestOp priv sock e.ops).isNone

/-- The value an operation gives a port. -/
def opVal (o : Op) (sock : Nat) : Wide :=
  match o.vals.find? (fun v => v.1 == sock) with
  | some v => v.2
  | none => 0

/-- The value of a result port once every operation triggered so far has completed (R105). -/
def portNext (e : Engine) (priv : Bool) (sock : Nat) : Wide :=
  match latestOp priv sock e.ops with
  | some o => opVal o sock
  | none => portVal e priv sock

/-! ## General registers (R116, R139) -/

/-- A general register. -/
def gVal (e : Engine) (n : Nat) : Word := smGet 0 e.g n

/-- Whether a register waits for a deferred write (R139). -/
def gReady (e : Engine) (n : Nat) : Bool := !e.ops.any (fun o => o.defers.any (fun d => d.1 == n))

/-- A write of a register; a deferred write still to come is discarded (R139). -/
def setG (n : Nat) (v : Word) (e : Engine) : Engine :=
  { e with g := smPut 0 e.g n v, ops := e.ops.map (fun o => { o with defers := o.defers.filter (fun d => d.1 != n) }) }

/-- The value of the group of w / 32 registers at gn (R116). -/
def groupVal (e : Engine) (n w : Nat) : Wide :=
  BitVec.ofNat 256 (forUpTo (w / 32) 0 (fun i a => a + (gVal e (n + i)).toNat * 2 ^ (32 * i)))

/-- Write the group of w / 32 registers at gn. -/
def setGroup (n w : Nat) (v : Wide) (e : Engine) : Engine :=
  forUpTo (w / 32) e (fun i e => setG (n + i) (w32 (v.toNat / 2 ^ (32 * i))) e)

/-- Tie the group at gn to the latest operation of a result port (R139): word j of the port goes to register n + j. -/
def deferGroup (priv : Bool) (sock n w : Nat) (e : Engine) : Engine :=
  match latestOp priv sock e.ops with
  | none => e
  | some o =>
    let e' := forUpTo (w / 32) e (fun i e => setG (n + i) (gVal e (n + i)) e)
    let ds := (List.range (w / 32)).map (fun i => (n + i, sock, i))
    { e' with ops := tie e'.ops o ds }
where
  /-- Add the deferred writes to the last operation that writes the port. -/
  tie (ops : List Op) (o : Op) (ds : List (Nat × Nat × Nat)) : List Op :=
    match ops with
    | [] => []
    | x :: xs =>
      if (latestOp priv sock xs).isNone && x.vals.any (fun v => v.1 == sock) && (x.priv == o.priv || !banked sock) then { x with defers := x.defers ++ ds } :: xs
      else x :: tie xs o ds

/-! ## Completion (R138, R139) -/

/-- The deferred writes of an operation reach their registers. -/
def landDefers (o : Op) (e : Engine) : Engine :=
  forEach o.defers e (fun d e => { e with g := smPut 0 e.g d.1 (w32 ((opVal o d.2.1).toNat / 2 ^ (32 * d.2.2))) })

/-- An operation reaches WB: its result ports and deferred writes. -/
def landOp (o : Op) (e : Engine) : Engine := landDefers o (forEach o.vals e (fun v e => setPort o.priv v.1 v.2 e))

/-- The first operation that p accepts and that shares no result port with an earlier one, with the others. -/
def takeOp (p : Op → Bool) : List Op → List Op → Option (Op × List Op)
  | _, [] => none
  | before, o :: os =>
    if p o && !before.any (fun b => b.priv == o.priv && b.vals.any (fun v => o.vals.any (fun w => w.1 == v.1))) then some (o, before ++ os)
    else takeOp p (before ++ [o]) os

/-- The bytes of a load as the value of lsu.res64 (R133). -/
def extendLoad (size : Nat) (signed : Bool) (v : Nat) : Wide :=
  if signed ∧ 2 ^ (8 * size - 1) ≤ v then BitVec.ofNat 256 (v + 2 ^ 64 - 2 ^ (8 * size)) else BitVec.ofNat 256 v

/-- Whether an operation can run to WB now: one that waits for stores cannot, and Sketch and ec operations end by their own commands. -/
def canLand (o : Op) : Bool := o.load.isNone && o.ec.isNone && o.unit != 0x1C00

/-- The oldest operation of a unit reaches WB (05 R139). -/
def writeback (k unit : Nat) (s : State) : State :=
  let e := eng s k
  match takeOp (fun o => o.unit == unit && canLand o) [] e.ops with
  | some (o, rest) => setEng k (landOp o { e with ops := rest }) s
  | none => s

/-- Whether every operation in flight can run to WB now (05 R154). -/
def canDrain (e : Engine) : Bool := e.ops.all canLand

/-- The drain (05 R154): every operation in flight that can run to WB does so, in order. -/
def drain (k : Nat) (s : State) : State :=
  modEng k (fun e => forEach e.ops { e with ops := [] } (fun o x => if canLand o then landOp o x else { x with ops := x.ops ++ [o] })) s

end Sys2Proof.Machine
end

