-- ==== Sys2Proof/Machine/Stores.lean ====
section
/-! DEFINITION. Control stores, their loading, the microcode sequencers and the Sketch unit (spec 07, 10 R273-R278). -/

namespace Sys2Proof.Machine

/-! ## Stores -/

/-- Whether store i is a lane store; the cluster stores follow from 64. -/
def isLaneStore (i : Nat) : Bool := i < 64

/-- The page of a store (07 R207). -/
def storePage (i : Nat) : Nat := if i < 64 then pageIndex ⟨.lcs, i⟩ else pageIndex ⟨.ccs, i - 64⟩

/-- Words of a store and the first of its customer quarter (R189). -/
def storeSize (i : Nat) : Nat := if i < 64 then 0x1000 else 0x2000
def quarter (i : Nat) : Nat := if i < 64 then 0xC00 else 0x1800

/-- A word of a store. -/
def storeWord (s : State) (i a : Nat) : Wide := smGet 0 (store s i).words a

/-- LCS_SKTn of a lane. -/
def skt (s : State) (l n : Nat) : Word := rdReg s (pageIndex ⟨.lcs, l⟩) (0x780 + 4 * n)

/-- LCS_STAT.SK_BUSY. -/
def skBusy (s : State) (l : Nat) : Bool := (lane s l).sk.isSome

/-- Whether a lane's customer sockets are decoded (R198). -/
def skOpen (s : State) (l : Nat) : Bool := (store s l).mode && (store s l).up == 2

/-- The width of a declared socket. -/
def sktWidth (w : Word) : Nat := 32 * 2 ^ fld w 29 28

/-- The entry that declares a customer socket, if the sockets are decoded. -/
def sktFind (s : State) (l sock : Nat) : Option Word :=
  if skOpen s l then
    ((List.range 32).map (skt s l)).find? (fun w => fld w 31 30 != 0 && 0x1C00 + fld w 27 18 == sock)
  else none

/-! ## Loading (R203-R205) -/

/-- Whether a stream of the store's channels is set up. -/
def storeStreams (s : State) (i : Nat) : Bool :=
  if i < 64 then (List.range 8).any (fun p => (chan s (8 * i + p)).stream != .idle) else clusterStreams s (i - 64)

/-- Whether a BEGIN is refused (R204). A load of the whole store loads both portions. -/
def beginRefused (s : State) (i : Nat) (up open_ : Bool) : Bool :=
  let x := store s i
  x.busy || x.loading || (i < 64 && skBusy s i) || (!up && storeStreams s i)
    || (up && !x.mode) || (open_ && !s.keyFused)

/-- BEGIN (R205). It clears LDERR, and a Sealed load of the whole store leaves no customer quarter: ST_UP is EMPTY at once (log 178). -/
def beginLoad (i : Nat) (m : Master) (v : Word) (s : State) : State :=
  let up := bit v 2
  let open_ := bit v 3
  if beginRefused s i up open_ then refuseCmd (storePage i) 0x704 m (raiseReject (storePage i) s)
  else modStore i (fun x => { x with low := if up then x.low else 1, up := if up || open_ then 1 else 0, loadUp := up,
                                     loadMode := open_, loading := true, ptr := if up then quarter i else 0, err := 0 }) s

/-- The data registers of a load, of which LDDATA7 comes last. -/
def loadedWord (s : State) (i : Nat) : Wide :=
  BitVec.ofNat 256 (forUpTo 8 0 (fun j n => n + (rdReg s (storePage i) (0x720 + 4 * j)).toNat * 2 ^ (32 * j)))

/-- A write of LCS_LDDATA7: the word is stored at LDPTR (R205). -/
def loadData (i : Nat) (m : Master) (v : Word) (s : State) : State :=
  let x := store s i
  if !x.loading ∨ x.busy ∨ storeSize i ≤ x.ptr then rejectWrite (storePage i) 0x73C m s
  else
    let s := wrReg (storePage i) 0x73C v s
    setStore i { x with words := smPut 0 x.words x.ptr (loadedWord s i), ptr := x.ptr + 1 } s

/-- COMMIT (R205): it is in progress until COMMIT_COMPLETE. -/
def commitLoad (i : Nat) (m : Master) (s : State) : State :=
  if !(store s i).loading ∨ (store s i).busy then rejectWrite (storePage i) 0x704 m s
  else modStore i (fun x => { x with busy := true }) s

/-- The bytes that the digest covers (R205): the entries of a cluster store's table are 0. -/
def digestBytes (s : State) (i : Nat) (up : Bool) : List Byte :=
  let a := if up then quarter i else 0
  (List.range (storeSize i - a)).flatMap (fun j => leBytes 32 (storeWord s i (a + j)).toNat)
    ++ (if up then (List.range 32).flatMap (fun n => leBytes 4 (if i < 64 then (skt s i n).toNat else 0)) else [])

/-- LCS_LDDIG0-11 as one number, byte 0 first. -/
def loadDigest (s : State) (i : Nat) : Nat :=
  forUpTo 12 0 (fun j n => n + (rdReg s (storePage i) (0x740 + 4 * j)).toNat * 2 ^ (32 * j))

/-- Whether an entry's registers are aligned for its width, and a trigger's ENTRY lies in the quarter (R198, R205). -/
def entryOk (w : Word) : Bool :=
  fld w 31 30 == 0 ||
    ((if sktWidth w = 128 then fld w 13 10 % 2 == 0 else if sktWidth w = 256 then fld w 13 10 % 4 == 0 else true)
      && (fld w 31 30 != 2 || fld w 9 0 < 0x400))

/-- Whether the socket table of a lane is valid (R205). -/
def tableOk (s : State) (l : Nat) : Bool :=
  (List.range 32).all (fun n => entryOk (skt s l n) && (List.range n).all (fun j =>
    fld (skt s l n) 31 30 == 0 || fld (skt s l j) 31 30 == 0 || fld (skt s l n) 27 18 != fld (skt s l j) 27 18))

/-- The LDERR code of a COMMIT: 0 where it succeeds. -/
def commitError (s : State) (i : Nat) : Nat :=
  let x := store s i
  if x.ptr < storeSize i then 1
  else if (Config.sha384 (digestBytes s i x.loadUp)).toNat ≠ loadDigest s i then 2
  else if x.up = 1 ∧ i < 64 ∧ !tableOk s i then 3
  else 0

/-- A load ends in failure: the portions that were loading are FAILED (R205). -/
def failLoad (i err : Nat) (s : State) : State :=
  raiseBit (storePage i) 1 (modStore i (fun x => { x with low := if x.low = 1 then 3 else x.low, up := if x.up = 1 then 3 else x.up, loading := false, busy := false, err := err }) s)

/-- COMMIT completes (R202, R205); version is that of the signed manifest of the customer quarter (R201). FM, FP and WD go on at the
address, with the stack and the counters, at which BEGIN stopped them (log 141). -/
def commitDone (i : Nat) (version : Word) (s : State) : State :=
  if !(store s i).busy then s
  else
    let err := commitError s i
    if err ≠ 0 then failLoad i err s
    else
      let s := modStore i (fun x => { x with low := if x.low = 1 then 2 else x.low, up := if x.up = 1 then 2 else x.up, mode := if x.loadUp then x.mode else x.loadMode, version := if x.up = 1 then version else x.version, loading := false, busy := false }) s
      let s := if (store s i).loadUp then s
        else if i < 64 then modLane i (fun x => { x with fmAborted := false }) s else modFail (i - 64) (fun f => { f with stopped := false }) s
      raiseBit (storePage i) 0 s

/-- ABORT (R205); with no load in progress it is rejected (log 142). -/
def abortLoad (i : Nat) (m : Master) (s : State) : State :=
  if (store s i).loading then failLoad i 4 s else rejectWrite (storePage i) 0x704 m s

/-- A write of LCS_LDCMD (R209). -/
def ldcmdWrite (i : Nat) (m : Master) (v : Word) (s : State) : State :=
  match fld v 1 0 with
  | 1 => beginLoad i m v s
  | 2 => commitLoad i m s
  | 3 => abortLoad i m s
  | _ => s

/-! ## Microwords (R192) -/

/-- The sequencer half of a microword. -/
structure MicroSeq where
  next : Nat
  seq : Nat
  cond : Nat
  cinv : Bool
  limit : Nat
  k : Nat
  c0op : Nat
  c1op : Nat
  rsv : Nat
  deriving DecidableEq, Repr

def microSeq (w : Wide) : MicroSeq :=
  let n := w.toNat
  ⟨n / 2 ^ 243 % 2 ^ 13, n / 2 ^ 240 % 8, n / 2 ^ 234 % 64, n / 2 ^ 233 % 2 == 1,
    n / 2 ^ 216 % 2 ^ 12 * 2 ^ (n / 2 ^ 228 % 32), n / 2 ^ 200 % 2 ^ 16, n / 2 ^ 198 % 4, n / 2 ^ 196 % 4, n / 2 ^ 192 % 16⟩

/-- The SK datapath half (R197), also that of the cluster customer quarter (10 R273). -/
structure MicroData where
  l : DWord
  aop : Nat
  ra : Nat
  rb : Nat
  rd : Nat
  bsel : Nat
  wen : Bool
  flg : Bool
  sham : Nat
  rsv : Nat
  deriving DecidableEq, Repr

def microData (w : Wide) : MicroData :=
  let n := w.toNat
  ⟨BitVec.ofNat 64 (n / 2 ^ 128), n / 2 ^ 124 % 16, n / 2 ^ 120 % 16, n / 2 ^ 116 % 16, n / 2 ^ 112 % 16, n / 2 ^ 110 % 4,
    n / 2 ^ 109 % 2 == 1, n / 2 ^ 108 % 2 == 1, n / 2 ^ 102 % 64, n % 2 ^ 102⟩

/-! ## Sequencers (R193-R196) -/

/-- Sequencer keys: FM l, SK 64 + l, FP 128 + k, WD 136 + k. -/
def seqKey : SeqId → Nat
  | .fm l => l.val
  | .sk l => 64 + l.val
  | .fp k => 128 + k.val
  | .wd k => 136 + k.val

/-- The store of a sequencer. -/
def seqStore (q : Nat) : Nat := if q < 64 then q else if q < 128 then q - 64 else if q < 136 then q - 64 else q - 72

/-- Whether a sequencer executes words with the customer datapath at an address: SK everywhere, FP and WD in the customer quarter, which
exists in Open mode only (R202; 10 R273). -/
def customData (s : State) (q a : Nat) : Bool :=
  (64 ≤ q && q < 128) || (128 ≤ q && (store s (seqStore q)).mode && quarter (seqStore q) ≤ a)

/-- A condition before its inversion (R194); none where it is reserved. Borindam's conditions are free (log 10). -/
def condition (s : State) (q : Nat) (x : Seq) (m : MicroSeq) : Option Bool :=
  let i := seqStore q
  match m.cond with
  | 0 => some true
  | 1 => some (x.c0 == 0)
  | 2 => some (x.c1 == 0)
  | 3 => some x.z
  | 4 => some x.n
  | 5 => some x.c
  | 6 =>
    if 64 ≤ q ∧ q < 128 then
      match (lane s (q - 64)).sk with
      | some o => match (eng s (512 + 8 * (q - 64) + o.thread)).queue with
        | r :: _ => some (r.words.isSome || r.failed.isSome)
        | [] => some false
      | none => some false
    else if customData s q x.addr then none
    else some (freeVal 1 s == 1)
  | c =>
    if i < 64 then
      (if 0x20 ≤ c ∧ c < 0x28 then some (smGet none (lane s i).lastReg (c - 0x20) == some (m.k % 4)) else none)
    else if 0x20 ≤ c ∧ !customData s q x.addr then some (freeVal 1 s == 1)
    else none

/-- The next address by SEQ, none for DONE and for a WAIT not over (R193, R195). -/
def nextAddr (x : Seq) (m : MicroSeq) (c : Bool) : Option Nat :=
  match m.seq with
  | 0 => some (x.addr + 1)
  | 1 => some m.next
  | 2 => some (if c then m.next else x.addr + 1)
  | 3 => some m.next
  | 4 => x.stack.head?
  | 5 => if !x.waiting then none else if c then some (x.addr + 1)
         else if m.limit ≠ 0 ∧ m.limit ≤ x.waited + 1 then some m.next else none
  | _ => none

/-- The abort code of a word, 0 where it is executed (R196). -/
def abortCode (s : State) (q : Nat) (x : Seq) (w : Wide) : Nat :=
  let i := seqStore q
  let m := microSeq w
  let d := microData w
  let c := condition s q x m
  let custom := customData s q x.addr
  if m.seq = 7 then 1
  else if c.isNone ∨ m.c0op = 3 ∨ m.rsv ≠ 0 ∨ (i < 64 ∧ 0x1000 ≤ m.next) ∨ (custom ∧ (12 ≤ d.aop ∨ d.rsv ≠ 0)) then 2
  else if (store s i).mode && decide (quarter i ≤ x.addr) && (match nextAddr x m (c.getD false != m.cinv) with
      | some a => decide (a < quarter i ∨ storeSize i ≤ a)
      | none => false) then 3
  else if (m.seq = 3 ∧ 8 ≤ x.stack.length) ∨ (m.seq = 4 ∧ x.stack.isEmpty) then 4
  else 0

/-- The counters after a word's cycle (R193): operations take effect once, a timer counts every cycle. -/
def countOps (m : MicroSeq) (first : Bool) (x : Seq) : Seq :=
  let c0 := if !first then x.c0 else match m.c0op with | 1 => m.k | 2 => x.c0 - 1 | _ => x.c0
  let run := if x.timer then x.c1 - 1 else x.c1
  if !first ∨ m.c1op = 0 then { x with c0 := c0, c1 := run }
  else match m.c1op with
    | 1 => { x with c0 := c0, c1 := m.k, timer := false }
    | 2 => { x with c0 := c0, c1 := x.c1 - 1, timer := false }
    | _ => { x with c0 := c0, c1 := m.k, timer := true }

/-- The sequencer after a word's cycle. After the last word of a store, a + 1 is address 0, where no rule of R196 aborts (log 143). -/
def seqAfter (i : Nat) (m : MicroSeq) (c : Bool) (x : Seq) : Seq :=
  let y := countOps m (!x.waiting) x
  match nextAddr x m c with
  | some a =>
    { y with addr := a % storeSize i, waiting := false, waited := 0, stack := if m.seq = 3 then (x.addr + 1) % storeSize i :: x.stack else if m.seq = 4 then x.stack.tail else x.stack }
  | none => if m.seq = 6 then { y with running := false, waiting := false, waited := 0 }
            else { y with waiting := true, waited := if x.waiting then x.waited + 1 else 0 }

/-- The registers and flags after a word's datapath half (R197). -/
def dataStep (d : MicroData) (c0 : Nat) (free : DWord) (r : SMap DWord) (x : Seq) : SMap DWord × Seq :=
  let a := smGet 0 r d.ra
  let b := match d.bsel with | 0 => smGet 0 r d.rb | 1 => d.l | 2 => BitVec.ofNat 64 c0 | _ => free
  if d.aop = 0 then (r, x)
  else
    let y := sketchOp d.aop d.sham a b
    (if d.wen then smPut 0 r d.rd y.1 else r,
      if d.flg then { x with z := y.1 == 0, n := y.1.getLsbD 63, c := y.2 } else x)

/-! ## Sketch (R198-R200) -/

/-- The value that result registers give a port of a width. -/
def srValue (r : SMap DWord) (n w : Nat) : Wide :=
  BitVec.ofNat 256 (forUpTo ((w + 63) / 64) 0 (fun i a => a + (smGet 0 r (n + i)).toNat * 2 ^ (64 * i)) % 2 ^ w)

/-- Copy a port value into its registers. -/
def srSet (n w : Nat) (v : Wide) (r : SMap DWord) : SMap DWord :=
  forUpTo ((w + 63) / 64) r (fun i r => smPut 0 r (n + i) (BitVec.ofNat 64 (v.toNat % 2 ^ w / 2 ^ (64 * i))))

/-- The declared entries of a kind: 1 operand, 2 trigger, 3 result. -/
def sktKind (s : State) (l kind : Nat) : List Word := ((List.range 32).map (skt s l)).filter (fun w => fld w 31 30 == kind)

/-- The values of a Sketch operation of a thread, where one is in flight. -/
def setSketchVals (f : Nat → Wide) (ops : List Op) : List Op :=
  ops.map (fun o => if o.unit = 0x1C00 then { o with vals := o.vals.map (fun v => (v.1, f v.1)) } else o)

/-- The operation of the Sketch unit in a thread completes into its ports and deferred writes. -/
def landSketch (k : Nat) (s : State) : State :=
  let e := eng s k
  match takeOp (fun o => o.unit == 0x1C00) [] e.ops with
  | some (o, rest) => setEng k (landOp o { e with ops := rest }) s
  | none => s

/-- DONE of SK (R199): the declared result ports take their registers; they are ready at SKETCH_RESULTS_READY, and the unit accepts the
next trigger. -/
def sketchDone (l : Nat) (s : State) : State :=
  match (lane s l).sk with
  | none => s
  | some o =>
    let k := 512 + 8 * l + o.thread
    let r := (lane s l).sr
    let f := fun sock => match (sktKind s l 3).find? (fun w => 0x1C00 + fld w 27 18 == sock) with
      | some w => srValue r (fld w 13 10) (sktWidth w)
      | none => 0
    modEng k (fun e => { e with ops := setSketchVals f e.ops }) (modLane l (fun x => { x with sk := none, skDone := x.skDone ++ [o.thread] }) s)

/-- The results become ready two cycles after DONE (R199). -/
def sketchReady (l : Nat) (s : State) : State :=
  match (lane s l).skDone with
  | t :: rest => landSketch (512 + 8 * l + t) (modLane l (fun x => { x with skDone := rest }) s)
  | [] => s

/-- Every result on its way is ready before the next operation executes its first word, two cycles after its trigger (R199). -/
def sketchLand (l : Nat) (s : State) : State := forUpTo (lane s l).skDone.length s (fun _ s => sketchReady l s)

/-- An SK abort (R200). -/
def sketchAbort (l code a : Nat) (s : State) : State :=
  let s := sketchLand l s
  match (lane s l).sk with
  | none => s
  | some o =>
    let k := 512 + 8 * l + o.thread
    let syn := w32 (code * 2 ^ 28 + o.thread * 2 ^ 24 + a % 2 ^ 13)
    let s := modEng k (fun e => { e with ops := setSketchVals (fun _ => 0) e.ops, sketchAbort := some (code, syn) }) s
    let s := landSketch k (modLane l (fun x => { x with sk := none, skCode := smPut 0 x.skCode o.thread code }) s)
    let s := setSeq (64 + l) { seqAt s (64 + l) with running := false, waiting := false, waited := 0 } s
    raiseBit (storePage l) 2 (wrReg (storePage l) 0x710 syn s)

/-- A Sketch trigger at TR (R199): operands and T are copied, the result ports wait, SK starts at the entry. -/
def sketchStart (l t : Nat) (w : Word) (v : Wide) (s : State) : State :=
  let k := 512 + 8 * l + t
  let e := eng s k
  let sr := forEach (sktKind s l 1) (lane s l).sr (fun x r => srSet (fld x 13 10) (sktWidth x) (portVal e false (0x1C00 + fld x 27 18)) r)
  let sr := srSet (fld w 13 10) (sktWidth w) v sr
  let op : Op := ⟨0x1C00, false, (sktKind s l 3).map (fun x => (0x1C00 + fld x 27 18, 0)), none, none, [], false⟩
  let s := setEng k { e with ops := e.ops ++ [op] } s
  let s := modLane l (fun x => { x with sr := sr, sk := some ⟨t, 0⟩, skCode := smPut 0 x.skCode t 0 }) s
  setSeq (64 + l) { seqAt s (64 + l) with running := true, addr := 0xC00 + fld w 9 0, stack := [], c0 := 0, c1 := 0, timer := false, waiting := false, waited := 0 } s

/-- The cycles since step 2 reach the limit (R200). -/
def watchdogDue (s : State) (l n : Nat) : Bool :=
  let lim := (rdReg s (storePage l) 0x70C).toNat
  lim != 0 && lim ≤ n

/-! ## Executing a word -/

/-- What an abort of a sequencer does (R196, R200; 10 R275, R276). SKABORT of a CCS page is the bit of the aborts that its LCS_SKSYN reports
(R207, log 179). -/
def seqAbort (q code : Nat) (s : State) : State :=
  let i := seqStore q
  let a := (seqAt s q).addr
  if 64 ≤ q ∧ q < 128 then sketchAbort (q - 64) code a s
  else
    let s := setSeq q { seqAt s q with running := false, waiting := false, waited := 0 } s
    let s := captureAs (storePage i) fHW 0x710 code 3 fHW 0 0 s
    if q < 64 then modLane q (fun x => { x with fmAborted := true }) s
    else
      let s := raiseBit (storePage i) 2 (wrReg (storePage i) 0x710 (w32 (code * 2 ^ 28 + (decide (136 ≤ q)).toNat * 2 ^ 24 + a % 2 ^ 13)) s)
      if q < 136 then modFail (q - 128) (fun f => { f with stopped := true }) s else weldAbort (q - 136) s

/-- Whether the portion of the store that holds an address runs (R191, R205). Where patrol scrub has made the quarter FAILED while SK runs, SK
executes no further word and does not abort: the watchdog ends the operation (log 180). -/
def portionRuns (s : State) (i a : Nat) : Bool :=
  let x := store s i
  if x.mode && quarter i ≤ a then x.up == 2 else x.low == 2

/-- Whether no abort and no load holds a sequencer (10 R275, R276; 07 R205, R206). -/
def seqFree (s : State) (q : Nat) : Bool :=
  if q < 64 then (store s q).low == 2 && !(lane s q).fmAborted
  else if q < 128 then true
  else if q < 136 then fpRuns s (q - 128)
  else fpRuns s (q - 136) && (weld s (q - 136)).st != 3

/-- Borindam's microcode takes up its next operation at an entry that the manual does not give (log 10). -/
def borindamStart (q : Nat) (s : State) : State :=
  let x := seqAt s q
  if x.running ∨ (64 ≤ q ∧ q < 128) then s
  else setSeq q { x with running := true, addr := freeVal 13 s % quarter (seqStore q), stack := [] } (tick s)

/-- The datapath half of a word: SK on SR0-SR15, a word of the cluster customer quarter on W0-W15; Borindam's leaves free flags (10 R273,
log 10). -/
def dataHalf (q : Nat) (w : Wide) (c0 a : Nat) (s : State) : State :=
  let i := seqStore q
  if !customData s q a then
    setSeq q { seqAt s q with z := freeVal 1 s == 1, n := freeVal 2 s / 2 == 1, c := freeVal 3 s / 4 == 1 } (tick s)
  else if q < 128 then
    let r := dataStep (microData w) c0 (BitVec.ofNat 64 (freeVal 64 s)) (lane s i).sr (seqAt s q)
    setSeq q r.2 (modLane i (fun x => { x with sr := r.1 }) (tick s))
  else
    let r := dataStep (microData w) c0 (BitVec.ofNat 64 (freeVal 64 s)) (weld s (i - 64)).w (seqAt s q)
    setSeq q r.2 (modWeld (i - 64) (fun x => { x with w := r.1 }) (tick s))

/-- One more cycle of the Sketch operation: the watchdog aborts unless the word was DONE (R200). -/
def sketchCycle (l : Nat) (isDone : Bool) (s : State) : State :=
  match (lane s l).sk with
  | none => s
  | some o =>
    let s := modLane l (fun x => { x with sk := some { o with cycles := o.cycles + 1 } }) s
    if isDone then sketchDone l s
    else if watchdogDue s l (o.cycles + 1) then sketchAbort l 6 (seqAt s (64 + l)).addr s else s

/-- The state of the portion of a store that holds an address becomes FAILED (R191). The bit LDERR stands for the end of a load and is not
raised (R207, log 179). -/
def failPortion (i a : Nat) (s : State) : State :=
  modStore i (fun x => if x.mode && quarter i ≤ a then { x with up := 3, err := 5 } else { x with low := 3, err := 5 }) s

/-- An ECC error in a word, found by a fetch or by patrol scrub (R191): a correctable one is counted in LCS_ECC, which saturates at 16
bits (R210); an uncorrectable one fails its portion. -/
def storeEcc (i a : Nat) (o : EccOutcome) (s : State) : State :=
  let s := eccReport (storePage i) o s
  match o with
  | .clean => s
  | .corrected => modReg (storePage i) 0x714 (fun w => w32 (min (w.toNat + 1) 0xFFFF)) s
  | .uncorrectable => failPortion i a s

/-- A sequencer executes the word at its address for one cycle (R193-R196). A WAIT word is fetched once; ecc is what that fetch finds
(R191): after an uncorrectable error the word is not executed. BSEL 2 gives C0 as it stood before the word's own counter operation (log
144). -/
def microword (q : Nat) (ecc : EccOutcome) (s : State) : State :=
  if !seqFree s q then s
  else
    let s := borindamStart q s
    let i := seqStore q
    let x := seqAt s q
    if !x.running ∨ !portionRuns s i x.addr then s
    else
      let found := if x.waiting then .clean else ecc
      let s := storeEcc i x.addr found (if 64 ≤ q ∧ q < 128 then sketchLand (q - 64) s else s)
      let w := storeWord s i x.addr
      let m := microSeq w
      let code := if found = .uncorrectable then 5 else abortCode s q x w
      if code ≠ 0 then seqAbort q code s
      else
        let c := ((condition s q x m).getD false != m.cinv)
        let s := setSeq q (seqAfter i m c x) (tick s)
        let s := if x.waiting then s else dataHalf q w x.c0 x.addr s
        let isDone := m.seq == 6
        if 64 ≤ q ∧ q < 128 then sketchCycle (q - 64) isDone s
        else if 136 ≤ q ∧ isDone ∧ customData s q x.addr then hookDone (q - 136) s
        else s

/-- The timeout of a WAIT word expires (R195): the cycles between pass at once. -/
def microTimeout (q : Nat) (s : State) : State :=
  let i := seqStore q
  let x := seqAt s q
  let m := microSeq (storeWord s i x.addr)
  if !x.running ∨ !x.waiting ∨ m.limit = 0 ∨ !seqFree s q ∨ !portionRuns s i x.addr then s
  else
    let skip := m.limit - 1 - x.waited
    let s := setSeq q { x with waited := m.limit - 1, c1 := if x.timer then x.c1 - skip else x.c1 } s
    if 64 ≤ q ∧ q < 128 then
      match (lane s (q - 64)).sk with
      | none => s
      | some o =>
        if watchdogDue s (q - 64) (o.cycles + skip) then sketchAbort (q - 64) 6 x.addr s
        else microword q .clean (modLane (q - 64) (fun y => { y with sk := some { o with cycles := o.cycles + skip } }) s)
    else microword q .clean s

/-- The watchdog of the Sketch operation in progress expires (R200). -/
def watchdogExpires (l : Nat) (s : State) : State :=
  if skBusy s l ∧ (rdReg s (storePage l) 0x70C).toNat ≠ 0 then sketchAbort l 6 (seqAt s (64 + l)).addr s else s

end Sys2Proof.Machine
end

