-- ==== Sys2Proof/Machine/Sockets.lean ====
section
/-! DEFINITION. The socket space of each engine (spec 04 R110, R113, R130, R132, R135; 05 R157; 06 R167-R174; 07 R198,
R201; 08 R227; 10 R279), the segment and path checks (04 R120, R127, R491; 05 R147-R149; 11 R288), and port conflicts. -/

namespace Sys2Proof.Machine

/-! ## Sources -/

/-- The width of a source socket of the common units (R132). -/
def commonSource (n : Nat) : Option Nat :=
  if n < 0x48 then some 32
  else if 0x50 ≤ n ∧ n < 0x60 then (if n = 0x53 then none else some 32)
  else if n = 0x1A9 ∨ n = 0x228 then some 64
  else if [0x108, 0x128, 0x148, 0x168, 0x188, 0x1A8, 0x1C8, 0x1E8, 0x229, 0x248, 0x249].contains n then some 32
  else if 0x1000 ≤ n ∧ n < 0x1800 then some 32
  else none

/-- The view of a vector socket: log2 of its registers, and its offset (06 R167). -/
def viewOf (n : Nat) : Nat × Nat := ((n - 0x400) / 0x80, (n - 0x400) % 0x80)

/-- The width of a source socket of a lane thread's own units. -/
def threadSource (s : State) (l n : Nat) : Option Nat :=
  if 0x400 ≤ n ∧ n < 0x600 then
    (if (viewOf n).2 = 0x10 then some (32 * 2 ^ (viewOf n).1) else if (viewOf n).2 = 0x11 then some 32 else none)
  else if [0x608, 0x628, 0x648, 0x668].contains n then some 64
  else if [0x609, 0x629, 0x649, 0x688, 0x708, 0x1800, 0x1801, 0x1818].contains n then some 32
  else if 0x1C00 ≤ n ∧ n < 0x2000 then
    match sktFind s l n with
    | some w => if fld w 31 30 = 3 then some (sktWidth w) else none
    | none => none
  else none

/-- The width of a source socket of an engine, none where it is undecoded (R110). -/
def srcWidth (s : State) (k n : Nat) : Option Nat :=
  match commonSource n with
  | some w => some w
  | none =>
    match engType k with
    | 0 => if n = 0x308 ∨ n = 0x309 then some 32 else none
    | 1 => threadSource s (engLane k) n
    | _ => if n = 0x808 then some 32 else if n = 0x809 then some 64 else none

/-! ## Destinations -/

/-- The unit that a common trigger socket belongs to (R132). -/
def commonTrigger (n : Nat) : Option Nat :=
  if (0x110 ≤ n ∧ n ≤ 0x11C) ∨ (0x130 ≤ n ∧ n ≤ 0x136) ∨ (0x150 ≤ n ∧ n ≤ 0x152) ∨ (0x170 ≤ n ∧ n ≤ 0x173)
    ∨ (0x190 ≤ n ∧ n ≤ 0x195) ∨ (0x1B0 ≤ n ∧ n ≤ 0x1B5) ∨ (0x1B8 ≤ n ∧ n ≤ 0x1BD) ∨ n = 0x1D0 ∨ n = 0x1D1
    ∨ (0x1F0 ≤ n ∧ n ≤ 0x1F3) ∨ (0x210 ≤ n ∧ n ≤ 0x213) ∨ n = 0x230 ∨ n = 0x231 ∨ n = 0x250
  then some (n / 0x20 * 0x20) else none

/-- The unit that a thread's trigger socket belongs to. -/
def threadTrigger (s : State) (l n : Nat) : Option Nat :=
  if 0x400 ≤ n ∧ n < 0x600 then (if 0x20 ≤ (viewOf n).2 ∧ (viewOf n).2 % 0x20 < 0x18 then some 0x400 else none)
  else if n = 0x610 ∨ n = 0x611 then some 0x600
  else if n = 0x630 ∨ n = 0x631 then some 0x620
  else if n = 0x650 ∨ n = 0x651 then some 0x640
  else if n = 0x670 then some 0x660
  else if n = 0x690 ∨ n = 0x691 then some 0x680
  else if 0x710 ≤ n ∧ n ≤ 0x714 then some 0x700
  else if 0x1820 ≤ n ∧ n ≤ 0x1822 then some 0x1810
  else if 0x1C00 ≤ n ∧ n < 0x2000 then
    match sktFind s l n with
    | some w => if fld w 31 30 = 2 then some 0x1C00 else none
    | none => none
  else none

/-- The unit of a trigger socket of an engine, none where the socket is no trigger. -/
def trigUnit (s : State) (k n : Nat) : Option Nat :=
  match commonTrigger n with
  | some u => some u
  | none =>
    match engType k with
    | 0 => if 0x310 ≤ n ∧ n ≤ 0x313 then some 0x300 else none
    | 1 => threadTrigger s (engLane k) n
    | _ => if 0x810 ≤ n ∧ n ≤ 0x813 then some 0x800 else none

/-- The width of a common destination (R112, R113, R132). -/
def commonDest (n : Nat) : Option Nat :=
  if n < 0x48 then some 32
  else if (0x50 ≤ n ∧ n ≤ 0x5A) ∨ n = 0x5D then some 32
  else if n = 0x1A2 then some 64
  else if [0x100, 0x120, 0x140, 0x160, 0x1A0, 0x1A1, 0x1C0, 0x220].contains n then some 32
  else (commonTrigger n).map (fun _ => 32)

/-- The width of a destination of a thread's own units. -/
def threadDest (s : State) (l n : Nat) : Option Nat :=
  if 0x400 ≤ n ∧ n < 0x600 then
    (if (viewOf n).2 = 0 ∨ (viewOf n).2 = 1 ∨ (threadTrigger s l n).isSome then some (32 * 2 ^ (viewOf n).1) else none)
  else if [0x600, 0x601, 0x602, 0x620, 0x621, 0x622, 0x640, 0x641, 0x642, 0x610, 0x630, 0x650, 0x670, 0x680, 0x690, 0x700].contains n then some 64
  else if [0x603, 0x623, 0x643, 0x611, 0x631, 0x651, 0x660, 0x681, 0x691, 0x714, 0x1820, 0x1821, 0x1822].contains n then some 32
  else if 0x710 ≤ n ∧ n ≤ 0x713 then some 256
  else if 0x1C00 ≤ n ∧ n < 0x2000 then
    match sktFind s l n with
    | some w => if fld w 31 30 = 1 ∨ fld w 31 30 = 2 then some (sktWidth w) else none
    | none => none
  else none

/-- The width of a destination socket of an engine, none where it is undecoded. -/
def dstWidth (s : State) (k n : Nat) : Option Nat :=
  match commonDest n with
  | some w => some w
  | none =>
    match engType k with
    | 0 => if n = 0x311 ∨ n = 0x312 then some 64 else if n = 0x300 ∨ n = 0x310 ∨ n = 0x313 then some 32 else none
    | 1 => threadDest s (engLane k) n
    | _ => if n = 0x800 ∨ n = 0x801 ∨ (0x810 ≤ n ∧ n ≤ 0x813) then some 32 else none

/-! ## Faults -/

/-- A fault of a bundle: vector, slot, SYN0, SYN1, DETAIL, and whether it empties the queue (08 R217; 09 R236). -/
structure Flt where
  vec : Nat
  slot : Nat
  syn0 : Nat
  syn1 : Nat := 0
  detail : Nat := 0
  qclr : Bool := false
  deriving DecidableEq, Repr

/-- The earlier of two possible faults: the lowest slot (R108). -/
def firstFault (a b : Option Flt) : Option Flt :=
  match a, b with
  | some x, some y => if y.slot < x.slot then some y else some x
  | some x, none => some x
  | none, y => y

/-- The first of a list of slot faults. -/
def firstOf : List (Option Flt) → Option Flt
  | [] => none
  | f :: fs => firstFault f (firstOf fs)

/-! ## Segments and paths -/

/-- A descriptor of an engine. -/
def seg (e : Engine) (i : Nat) : SegDesc := smGet {} e.segs i

/-- BASE of a descriptor (R119). -/
def segBase (d : SegDesc) : Nat := d.w0.toNat / 16 * 16 + 2 ^ 32 * fld d.w1 15 0

/-- The check of an access of n bytes at an offset that needs permission bits (R120): 6 SEG_ACCESS, 7 SEG_LIMIT, 0 passed. -/
def segCheck (d : SegDesc) (off n need : Nat) : Nat :=
  if !bit d.w3 0 ∨ Nat.land need (31 - d.w3.toNat % 32) ≠ 0 then 6
  else if d.w2.toNat < off + n - 1 then 7
  else 0

/-- The permission bits R, W, X, A of SEGD3. -/
def permR : Nat := 2
def permW : Nat := 4
def permX : Nat := 8
def permA : Nat := 16

/-- How an engine reaches a target (11 R288): 0 direct, 1 through the matrix, 2 not at all. HBM is reached through q only. -/
def engPath (k : Nat) (t : Target) : Nat :=
  if 1024 ≤ k then (match t with | .hbm _ => 2 | _ => 1)
  else match t with
    | .coreInstr n | .coreData n => if n = k then 0 else 2
    | .laneSram l => if l = engLane k then 0 else 2
    | .clusterSram c => if c = clusterOfLane (engLane k) then 0 else 2
    | .mcBank | .hostBank | .fabricBank | .regs => 1
    | _ => 2

/-- Whether an atomic operation may act on a target (R127, R491). -/
def atomicOk (k : Nat) (t : Target) : Bool :=
  match t with
  | .laneSram _ | .clusterSram _ => engPath k t != 2
  | .mcBank => decide (1024 ≤ k)
  | _ => false

/-- The syndrome words of an address with a kind (08 R217). -/
def addrFault (vec slot a kind : Nat) : Flt := ⟨vec, slot, a % 2 ^ 32, a / 2 ^ 32 % 2 ^ 16 + kind * 2 ^ 16, 0, false⟩

/-- The first failing check of an lsu or tas access (R491), then a memory that is not ON (R147). -/
def accessFault (s : State) (k slot i off n need : Nat) (atomic : Bool) : Option Flt :=
  let d := seg (eng s k) i
  let c := segCheck d off n need
  let a := segBase d + off
  let t := targetOf s a
  if c ≠ 0 then some ⟨c, slot, off, i, 0, false⟩
  else if off % n ≠ 0 then some ⟨8, slot, off, i, 0, false⟩
  else if atomic && !atomicOk k t then some ⟨9, slot, off, i, 0, false⟩
  else if engPath k t = 2 then some (addrFault 10 slot a 0)
  else if (engPath k t == 0 || atomic) && !targetOn s t then some (addrFault 11 slot a 3)
  else none

/-- How a fetch of a management pair ends (11 R289-R305): the boot ROM is read word by word (11 R295), every other memory by bundles. -/
def pairFetch (s : State) (k a : Nat) (err : Option BusKind) : Option BusKind :=
  portOutcome s (engMaster k) a (if targetOf s a = .bootRom then 4 else 16) false err

/-- Whether a fetch of a management pair waits: for Bellows, or for the MRAM line being programmed (11 R293, R304). -/
def fetchHeld (s : State) (k : Nat) : Bool :=
  let a := segBase (seg (eng s k) 0) + (eng s k).pc.toNat
  decide (1024 ≤ k) && (bellowsHolds s (engMaster k) (targetOf s a) || mramWaits s (targetOf s a) a 16 false)

/-- The fault of a fetch at a code offset (R120, R147, R149), with the error that it meets on the matrix. -/
def fetchFault (s : State) (k off : Nat) (err : Option BusKind) : Option Flt :=
  let d := seg (eng s k) 0
  let c := segCheck d off 16 permX
  let a := segBase d + off
  let t := targetOf s a
  if c ≠ 0 then some ⟨c, 0, off, 0, 0, false⟩
  else match engType k, t with
    | 0, .coreInstr n => if n = k then none else some (addrFault 10 0 a 0)
    | 1, .laneSram l => if l ≠ engLane k then some (addrFault 10 0 a 0) else if targetOn s t then none else some (addrFault 11 0 a 3)
    | 2, .hbm _ => some (addrFault 10 0 a 0)
    | 2, _ => (pairFetch s k a err).map (fun b => addrFault 11 0 a (busCode b))
    | _, _ => some (addrFault 10 0 a 0)

/-- Whether a branch target is invalid (R121): its low bits, or a fetch of it that would fail R120. -/
def badTarget (e : Engine) (off : Nat) : Bool := off % 16 != 0 || segCheck (seg e 0) off 16 permX != 0

/-! ## Fetch (05 R151) -/

/-- One of several values, freely chosen by bits of the free value from place `at_` on (log 8). -/
def freeChoice (s : State) (at_ : Nat) (first : BitVec 64) (others : List (BitVec 64)) : BitVec 64 :=
  (first :: others).getD ((Config.freeBits s.free).toNat / 2 ^ at_ % (others.length + 1)) first

/-- The half of a bundle that the fetch buffer of a thread holds. -/
def fetchBuffered (e : Engine) (h : Nat) : Option (BitVec 64) :=
  match e.fetchBuf with
  | some b => if 8 * b.line ≤ h then b.halves[h - 8 * b.line]? else none
  | none => none

/-- The bundle that the loop buffer of a core supplies at an offset (05 R150). -/
def loopBuffered (e : Engine) (off : Nat) : Option Bundle :=
  if e.loopBuf.phase = .supplying ∧ e.ls.toNat ≤ off ∧ off ≤ e.le.toNat then smGet none e.loopBuf.bundles off else none

/-- One half of a bundle as fetched. Of a core: what memory or the loop buffer holds, and where writes have not been followed by iflush, any
value since (05 R151). Of a thread: what memory holds, or where the fetch buffer holds another value, either (log 132). -/
def fetchHalf (s : State) (k a : Nat) (copy : Option (BitVec 64)) (at_ : Nat) : BitVec 64 :=
  let new := BitVec.ofNat 64 (leNat (memRead s a 8))
  match engType k with
  | 0 => match smGet [] s.stale (a / 8) with
    | [] => copy.getD new
    | old => freeChoice s at_ new old
  | 1 => match fetchBuffered (eng s k) (a / 8) with
    | some old => if old = new then new else freeChoice s at_ new [old]
    | none => new
  | _ => new

/-- The bundle at a code offset. -/
def fetchBundle (s : State) (k off : Nat) : Bundle :=
  let a := segBase (seg (eng s k) 0) + off
  let copy := loopBuffered (eng s k) off
  fetchHalf s k (a + 8) (copy.map (fun b => b.extractLsb' 64 64)) 160 ++ fetchHalf s k a (copy.map (fun b => b.setWidth 64)) 128

/-- The fetch of a bundle by a thread fills its buffer with the line and the line that follows, unless it holds the bundle. -/
def noteFetch (k off : Nat) (s : State) : State :=
  let a := segBase (seg (eng s k) 0) + off
  if engType k = 1 ∧ (fetchBuffered (eng s k) (a / 8)).isNone then
    modEng k (fun e => { e with fetchBuf := some ⟨a / 64, (List.range 16).map (fun i => BitVec.ofNat 64 (leNat (memRead s (64 * (a / 64) + 8 * i) 8)))⟩ }) s
  else s

/-! ## Encoding checks (R104, R108) -/

/-- A rule of the whole bundle is broken. -/
def bundleBroken (b : BundleF) : Bool :=
  decide (2 ≤ b.fmt) || b.rsv != 0 || (b.rpti && !b.rpt) || (b.rpt && b.fmt == 0)
    || (b.rpt && !b.rpti && decide (65536 < immOf b))

/-- A slot breaks a rule of its own. -/
def slotBroken (b : BundleF) (m : Move) : Bool :=
  if m.nop then m.src != 0 || m.dst != 0
  else
    let limm := m.src == 0x5E || m.src == 0x5F
    (limm && b.fmt == 0) || (b.rpt && (limm || (0x50 ≤ m.dst && m.dst ≤ 0x53)))

/-- The undecoded socket of a move, the source first. -/
def undecoded (s : State) (k : Nat) (m : Move) : Option Nat :=
  if m.nop then none
  else if (srcWidth s k m.src).isNone then some m.src
  else if (dstWidth s k m.dst).isNone then some m.dst
  else none

/-- The encoding fault of a bundle (R104), in the order of R108. -/
def encodingFault (s : State) (k : Nat) (w : Bundle) : Option Flt :=
  let b := bundleOf w
  let ms := movesOf b
  if bundleBroken b then some ⟨1, 0, w.toNat / 2 ^ 96, 0, 0, false⟩
  else match ms.find? (slotBroken b) with
    | some m => some ⟨1, m.slot, w.toNat / 2 ^ 96, 0, 0, false⟩
    | none => match ms.find? (fun m => (undecoded s k m).isSome) with
      | some m => some ⟨2, m.slot, (undecoded s k m).getD 0, 0, 0, false⟩
      | none => none

/-! ## Slot faults that need no trigger (R107, R113, R116) -/

/-- The width of a move (R116). -/
def moveWidth (s : State) (k : Nat) (m : Move) : Nat :=
  if m.dst < 0x40 then (srcWidth s k m.src).getD 32 else if m.dst < 0x48 then 32 else (dstWidth s k m.dst).getD 32

/-- The registers that a move writes: first and count. -/
def destGroup (s : State) (k : Nat) (m : Move) : Nat × Nat := (m.dst, moveWidth s k m / 32)

/-- Two moves are in conflict (R107); register groups conflict where they overlap (log 74). -/
def conflict (s : State) (k : Nat) (a b : Move) : Bool :=
  let ga := destGroup s k a
  let gb := destGroup s k b
  a.dst == b.dst
    || (a.dst < 0x40 && b.dst < 0x40 && ga.1 < gb.1 + gb.2 && gb.1 < ga.1 + ga.2)
    || (match trigUnit s k a.dst, trigUnit s k b.dst with | some x, some y => x == y | _, _ => false)
    || (a.src == 0x228 && b.src == 0x228)

/-- A group that is not aligned to a move's width: its register (R116). -/
def misGroup (s : State) (k : Nat) (m : Move) : Option Nat :=
  let n := moveWidth s k m / 32
  if m.src < 0x40 ∧ m.src % n ≠ 0 then some m.src
  else if m.dst < 0x40 ∧ m.dst % n ≠ 0 then some m.dst
  else none

/-- A write that the mode does not permit (R113, 08 R213). -/
def privFault (e : Engine) (m : Move) : Bool :=
  (e.mode == 0 && ((0x54 ≤ m.dst && m.dst ≤ 0x5A) || m.dst == 0x5D || m.dst == 0x212))
    || (e.mode != 2 && 0x800 ≤ m.dst && m.dst < 0x900)

/-- The words armed for popping (09 R233). -/
def armed (e : Engine) : Nat := e.armed

/-- The faults of a move with a true guard that need no trigger; earlier holds the moves before it. -/
def slotFault (s : State) (k : Nat) (earlier : List Move) (m : Move) : Option Flt :=
  let e := eng s k
  match misGroup s k m with
  | some g => some ⟨4, m.slot, g, 0, 0, false⟩
  | none =>
    match earlier.find? (fun x => conflict s k x m) with
    | some x => some ⟨3, m.slot, if x.src = 0x228 ∧ m.src = 0x228 ∧ x.dst ≠ m.dst then 0x228 else m.dst, 0, 0, false⟩
    | none =>
      if privFault e m then some ⟨5, m.slot, m.dst, 0, 0, false⟩
      else if m.src = 0x228 ∧ armed e = 0 then some ⟨16, m.slot, 0x228, 0, 0, false⟩
      else none

/-- The slot faults of moves in order. -/
def slotFaults (s : State) (k : Nat) : List Move → List Move → List (Option Flt)
  | _, [] => []
  | earlier, m :: ms => slotFault s k earlier m :: slotFaults s k (earlier ++ [m]) ms

end Sys2Proof.Machine
end

