-- ==== Sys2Proof/Machine/Units.lean ====
section
/-! DEFINITION. What the function units do when a bundle passes TR (spec 04 R119-R134, 05 R140-R160, 06 R167-R178,
08 R227, 09 R231-R236, 10 R279, R280). -/

namespace Sys2Proof.Machine

/-! ## What waits for the store buffer (05 R142-R145) -/

/-- The first operation whose stores have left the buffer and that is not on the matrix, with those before and after it. -/
def nextFilled (out : Nat) : List Op → Option (List Op × LoadWait × Op × List Op)
  | [] => none
  | o :: os =>
    match o.load with
    | some w => if w.after ≤ out && !w.issued then some ([], w, o, os) else (nextFilled out os).map (fun r => (o :: r.1, r.2))
    | none => (nextFilled out os).map (fun r => (o :: r.1, r.2))

/-- A store that has left the buffer fails (05 R146; 08 R222, R224): a report, or a count in STUCK. -/
def storeFails (k a kind : Nat) (s : State) : State :=
  modEng k (fun e =>
    if e.run = .stuck then { e with stuckErrs := min (e.stuckErrs + 1) 0xFFFF }
    else { e with late := e.late ++ [⟨a, kind⟩] }) s

/-- A waiting tas operation of a management pair enters its matrix port (11 R288); one of another engine writes its word, unless its memory
has left ON, which it reports as a store does that has left the buffer, with a free old value (log 173). A waiting load takes its bytes. -/
def fillOne (k : Nat) (before : List Op) (w : LoadWait) (o : Op) (rest : List Op) (s : State) : State :=
  let put := fun (o' : Op) => modEng k (fun e => { e with ops := before ++ o' :: rest })
  let done := fun (v : Nat) => put { o with load := none, vals := [(if w.tas.isSome then 0x1C8 else 0x1A9, extendLoad w.size w.signed v)] }
  match w.tas with
  | none => done (leNat (memRead s w.addr w.size)) s
  | some x =>
    if 1024 ≤ k then
      enterPort (engMaster k) (engTransId k) true w.addr (leBytes 4 x) 4 (.tasLate k x) (put { o with load := some { w with issued := true } } s)
    else if !targetOn s (targetOf s w.addr) then storeFails k w.addr 3 (tick (done (freeVal 32 s) s))
    else memWrite w.addr (leBytes 4 x) (done (leNat (memRead s w.addr 4)) s)

/-- What waits for the store buffer happens as soon as its stores have left it: no younger access comes between (04 R105). -/
def fillWaits (k : Nat) : Nat → State → State
  | 0, s => s
  | fuel + 1, s =>
    match nextFilled (eng s k).storesOut (eng s k).ops with
    | none => s
    | some (before, w, o, rest) => fillWaits k fuel (fillOne k before w o rest s)

/-- The response to a tas operation that has waited: its old value, or the report of a store that has left the buffer (log 173). -/
def tasReply (k : Nat) (data : List Byte) (err : Option BusKind) (s : State) : State :=
  let land := fun (v : Nat) => modEng k (fun e => { e with ops := e.ops.map (fun o => match o.load with
    | some w => if w.issued then { o with load := none, vals := [(0x1C8, BitVec.ofNat 256 v)] } else o
    | none => o) })
  match err with
  | none => land (leNat data) s
  | some b =>
    let a := ((eng s k).ops.findSome? (fun o => match o.load with | some w => if w.issued then some w.addr else none | none => none)).getD 0
    storeFails k a (busCode b) (tick (land (freeVal 32 s) s))

/-- Whether the loop in progress fits the loop buffer of a channel core (05 R150; 06 R166). -/
def loopFits (k : Nat) (e : Engine) : Bool := decide (engType k = 0 ∧ e.lc ≠ 0 ∧ e.le.toNat < e.ls.toNat + 16 * 32)

/-- What iflush discards: the old halves of a core's instruction SRAM, the loop buffer, which inside a block repeat arms again at the next
pass through LS, at once where the next bundle is there, and the fetch buffer (05 R152). -/
def flushFetch (k : Nat) (s : State) : State :=
  let s := { s with stale := smDrop (fun h => 0x10000000 + k * 0x20000 ≤ 8 * h ∧ 8 * h < 0x10010000 + k * 0x20000) s.stale }
  modEng k (fun e =>
    let p : LoopPhase := if !loopFits k e then .off else if e.pc = e.ls then .copying else .rearm
    { e with fetchBuf := none, loopBuf := { phase := p } }) s

/-- A fence, or iflush, ends once the store buffer is empty (05 R145, R152): the bus errors of the stores that left it are recorded. -/
def releaseFence (k : Nat) (s : State) : State :=
  let e := eng s k
  if e.fence && e.stores.isEmpty then
    let s := setEng k { e with fence := false, flush := false } s
    if e.flush then flushFetch k s else s
  else s

/-- After a bundle, and after a store has left the buffer: what waited for it happens. -/
def settle (k : Nat) (s : State) : State := releaseFence k (fillWaits k ((eng s k).ops.length + 1) s)

/-! ## A bundle at TR -/

/-- The engine identity of a report: TYPE in bits [15:12], INDEX in [11:0] (15 R409). -/
def engIdent (k : Nat) : Nat := engType k * 4096 + engIndex k

/-- An access through the matrix that a bundle needs before it takes effect: its slot and unit, the address and the bytes, whether it
writes, the bytes it brings and what it is for (05 R147; 04 R128, R129; 11 R288). -/
structure PortAccess where
  slot : Nat
  unit : Nat
  addr : Nat
  len : Nat
  write : Bool
  data : List Byte
  use : TransUse
  deriving DecidableEq, Repr

/-- A bundle on its way through TR: the state so far, the first fault, whether something stalls it, the fault that ends an emit's wait
(05 R160), a branch target, the continuation of a skipped loop body, a trap with its slot, a return's slot, the accesses through the
matrix that it still needs, in slot order, and the words that tas operations through the matrix have written for it. -/
structure Run where
  s : State
  flt : Option Flt := none
  stall : Bool := false
  ended : Option Flt := none
  next : Option Nat := none
  skip : Option Nat := none
  trap : Option (Nat × Nat) := none
  ret : Option Nat := none
  needs : List PortAccess := []
  wrote : List StoreEntry := []
  deriving DecidableEq, Repr

/-- The engine of a run, its offset, what its accesses through the matrix have returned by unit, with which the bundle has passed TR and its
checks already, and what the ECC check of a word that it reads directly finds. -/
structure Ctx where
  k : Nat
  pc : Nat
  got : Option (List (Nat × List Byte))
  ecc : EccOutcome := .clean
  deriving DecidableEq, Repr

/-- Whether the bundle has passed its checks before. -/
def Ctx.passed (c : Ctx) : Bool := c.got.isSome

/-- What an access of a unit through the matrix has returned. -/
def Ctx.reply (c : Ctx) (unit : Nat) : Option (List Byte) := ((c.got.getD []).find? (fun g => g.1 == unit)).map Prod.snd

def Run.eng (r : Run) (c : Ctx) : Engine := Machine.eng r.s c.k
def Run.mod (r : Run) (c : Ctx) (f : Engine → Engine) : Run := { r with s := modEng c.k f r.s }
def Run.fault (r : Run) (f : Flt) : Run := { r with flt := firstFault r.flt (some f) }
def Run.stop (r : Run) : Run := { r with stall := true }

/-- The bundle needs one more access through the matrix. -/
def Run.need (r : Run) (a : PortAccess) : Run := { r with needs := r.needs ++ [a] }

/-- The free word that stands for one that the memory returns with an uncorrectable error (15 R406, log 174). -/
def spoiledBytes (s : State) (n : Nat) : List Byte := leBytes n ((Config.freeBits s.free).toNat / 2 ^ 192)

/-- A direct read of a memory (11 R289; 05 R147): an uncorrectable word is returned as it is read, and reported with the engine that Anvil
parks for it (15 R406, log 174). -/
def Run.read (r : Run) (c : Ctx) (a n : Nat) : List Byte × Run :=
  match c.ecc with
  | .uncorrectable =>
    (spoiledBytes r.s n, { r with s := report ⟨1, engIdent c.k, 3, 256 + 11, 0, 0, []⟩ (eccMeets (targetOf r.s a) .uncorrectable r.s) })
  | o => (memRead r.s a n, { r with s := eccMeets (targetOf r.s a) o r.s })

/-- The bundle stalls where something it needs is missing (05 R137): then no fault of it is raised. -/
def Run.stopIf (r : Run) (b : Bool) : Run := if b then r.stop else r

/-- An operation is triggered (R138): its result ports are not ready until WB. -/
def Run.op (r : Run) (c : Ctx) (unit : Nat) (vals : List (Nat × Wide)) : Run :=
  r.mod c (fun e => { e with ops := e.ops ++ [⟨unit, privMode e, vals, none, none, [], false⟩] })

/-- A 32-bit result. -/
def Run.op32 (r : Run) (c : Ctx) (unit port : Nat) (v : Word) : Run := r.op c unit [(port, v.setWidth 256)]

/-- An operand port, 32 bits of it. -/
def opd (e : Engine) (port : Nat) : Word := (portVal e (privMode e) port).setWidth 32

/-! ## Shared units (05 R140, 06 R164) -/

/-- The engines that share a unit with an engine: itself, or the threads of its lane. -/
def sharers (k : Nat) : List Nat := if engType k = 1 then (List.range 8).map (fun t => 512 + 8 * engLane k + t) else [k]

/-- Whether a bundle that waits for the response to its load has claimed a unit. -/
def claimed (s : State) (k unit : Nat) : Bool :=
  (sharers k).any (fun j => match (eng s j).matrix with | some w => w.units.contains unit | none => false)

/-- Whether a one-at-a-time unit is busy. -/
def unitBusy (s : State) (k unit : Nat) : Bool :=
  claimed s k unit || (sharers k).any (fun j => (eng s j).ops.any (fun o => o.unit == unit))

/-- The loads of an engine that are outstanding (R140). -/
def loadsOut (e : Engine) : Nat := (e.ops.filter (fun o => o.loads)).length

/-! ## Common arithmetic (R132-R134) -/

/-- Triggers of alu, cmp, mul, div and bit; t is T and n the socket. -/
def trigArith (c : Ctx) (m : Move) (t : Word) (r : Run) : Run :=
  let e := r.eng c
  let n := m.dst
  if n < 0x120 then r.op32 c 0x100 0x108 (aluOp (n - 0x110) (opd e 0x100) t)
  else if n < 0x140 then r.op32 c 0x120 0x128 (w32 (cmpOp (n - 0x130) (opd e 0x120) t).toNat)
  else if n < 0x160 then r.op32 c 0x140 0x148 (mulOp (n - 0x150) (opd e 0x140) t)
  else if n < 0x180 then
    (let r := r.stopIf (unitBusy r.s c.k 0x160)
     if t = 0 then r.fault ⟨15, m.slot, n, 0, 0, false⟩ else r.op32 c 0x160 0x168 (divOp (n - 0x170) (opd e 0x160) t))
  else r.op32 c 0x180 0x188 (bitOp (n - 0x190) t)

/-! ## lsu (05 R142, R143, R147) -/

/-- Whether a store-buffer entry overlaps n bytes at an address. -/
def overlaps (x : StoreEntry) (a n : Nat) : Bool := decide (x.addr < a + n ∧ a < x.addr + x.data.length)

/-- Whether an entry holds all n bytes at an address. -/
def contains (x : StoreEntry) (a n : Nat) : Bool := decide (x.addr ≤ a ∧ a + n ≤ x.addr + x.data.length)

/-- The youngest entry that overlaps, with its position in the buffer. -/
def youngest (a n : Nat) : List StoreEntry → Nat → Option (StoreEntry × Nat)
  | [], _ => none
  | x :: xs, i => match youngest a n xs (i + 1) with
    | some y => some y
    | none => if overlaps x a n then some (x, i) else none

/-- The bytes of an access that an entry holds. -/
def forwarded (x : StoreEntry) (a n : Nat) : List Byte := (x.data.drop (a - x.addr)).take n

/-- Size and sign extension of a load trigger. -/
def loadShape (n : Nat) : Nat × Bool :=
  match n with
  | 0x1B0 => (1, true)
  | 0x1B1 => (1, false)
  | 0x1B2 => (2, true)
  | 0x1B3 => (2, false)
  | 0x1B5 => (8, false)
  | _ => (4, true)

/-- Bytes at an address with the words that were stored since. -/
def overlay (a : Nat) (l : List StoreEntry) (bs : List Byte) : List Byte :=
  forEach l bs (fun x bs => (List.range bs.length).map (fun i =>
    if x.addr ≤ a + i ∧ a + i < x.addr + x.data.length then x.data.getD (a + i - x.addr) 0 else bs.getD i 0))

/-- The stores of an engine that memory does not show yet, oldest first: those in its buffer, and a tas operation that waits for them. -/
def unseenStores (e : Engine) : List StoreEntry :=
  e.stores ++ e.ops.filterMap (fun o => match o.load with | some w => w.tas.map (fun v => (⟨w.addr, leBytes 4 v⟩ : StoreEntry)) | none => none)

/-- The bytes an engine sees at an address: memory under its store buffer (05 R143). -/
def seenBytes (s : State) (k a n : Nat) : List Byte := overlay a (eng s k).stores (memRead s a n)

/-- A load (R143, R147); its faults are those at TR. A tas operation of a lower slot comes before it (04 R106): on the matrix the load goes first, and takes the word
that the operation has written since. -/
def trigLoad (c : Ctx) (m : Move) (t : Word) (r : Run) : Run :=
  let e := r.eng c
  let i := (opd e 0x1A0).toNat % 8
  let sh := loadShape m.dst
  let a := segBase (seg e i) + t.toNat
  let r := r.stopIf (decide (8 ≤ loadsOut e))
  let add := fun (v : Wide) (w : Option LoadWait) (r : Run) => r.mod c (fun e => { e with ops := e.ops ++ [⟨0x1A0, privMode e, [(0x1A9, v)], w, none, [], true⟩] })
  let put := fun bs => add (extendLoad sh.1 sh.2 (leNat bs)) none
  match (if c.passed then none else accessFault r.s c.k m.slot i t.toNat sh.1 permR false) with
  | some f => r.fault f
  | none =>
    match youngest a sh.1 e.stores 0 with
    | some (x, j) =>
      if contains x a sh.1 then put (forwarded x a sh.1) r
      else if engPath c.k (targetOf r.s a) = 0 then add 0 (some ⟨a, sh.1, sh.2, e.storesOut + j + 1, none, false⟩) r
      else r.stop
    | none =>
      if engPath c.k (targetOf r.s a) = 0 then let x := r.read c a sh.1; put x.1 x.2
      else match c.reply 0x1A0 with
        | some bs => put (overlay a r.wrote bs) r
        | none => (put [] r).need ⟨m.slot, 0x1A0, a, sh.1, false, [], .load c.k⟩

/-- A store (R142). -/
def trigStore (c : Ctx) (m : Move) (t : Word) (r : Run) : Run :=
  let e := r.eng c
  let i := (opd e 0x1A0).toNat % 8
  let n := 2 ^ (m.dst - 0x1B8)
  let v := if n = 8 then (portVal e (privMode e) 0x1A2).toNat else (opd e 0x1A1).toNat
  let r := r.stopIf (decide (8 ≤ e.stores.length))
  match accessFault r.s c.k m.slot i t.toNat n permW false with
  | some f => r.fault f
  | none => r.mod c (fun e => { e with stores := e.stores ++ [⟨segBase (seg e i) + t.toNat, leBytes n v⟩] })

/-- The 64-byte line of an address, for reservations (R129). -/
def lineOf (s : State) (a : Nat) : Nat := memKey s a / 64

/-- lr and sc (R129). Atomic operations wait until the engine's stores have drained; lr is a load (05 R140). Those of a management pair go
through its matrix port (11 R288), an sc where its reservation still covers the line: the memory decides. The upper half of res64 after
an sc is not stated: it is free (log 8). -/
def trigAtomic (c : Ctx) (m : Move) (t : Word) (r : Run) : Run :=
  let e := r.eng c
  let i := (opd e 0x1A0).toNat % 8
  let a := segBase (seg e i) + t.toNat
  let isSc := m.dst == 0x1BD
  let r := r.stopIf (!e.stores.isEmpty || (!isSc && decide (8 ≤ loadsOut e)))
  let line := lineOf r.s a
  let load := fun (bs : List Byte) (r : Run) =>
    r.mod c (fun e => { e with ops := e.ops ++ [⟨0x1A0, privMode e, [(0x1A9, extendLoad 4 true (leNat bs))], none, none, [], true⟩] })
  let stored := fun (ok : Bool) (r : Run) =>
    let hi := (Config.freeBits r.s.free).toNat / 2 ^ 64 % 2 ^ 32
    (r.mod c (fun e => { e with resv := none })).op c 0x1A0 [(0x1A9, BitVec.ofNat 256 (hi * 2 ^ 32 + (!ok).toNat))]
  match (if c.passed then none else accessFault r.s c.k m.slot i t.toNat 4 (permA + if isSc then permW else permR) true) with
  | some f => r.fault f
  | none =>
    if !isSc then
      (if c.k < 1024 then let x := r.read c a 4; (load x.1 x.2).mod c (fun e => { e with resv := some line })
       else match c.reply 0x1A0 with
        | some bs => load bs r
        | none => (load [] r).need ⟨m.slot, 0x1A0, a, 4, false, [], .lr c.k⟩)
    else
      let ok := e.resv == some line
      let data := leBytes 4 (opd e 0x1A1).toNat
      if c.k < 1024 then stored ok (if ok then { r with s := memWrite a data r.s } else r)
      else match c.reply 0x1A0 with
        | some bs => stored (leNat bs == 0) r
        | none => if ok then (stored true r).need ⟨m.slot, 0x1A0, a, 4, true, data, .sc c.k⟩ else stored false r

/-- tas.trg_set and tas.trg_clr (R128). It waits for the stores of older bundles at TR, and for one of its own bundle after it, holding
the younger bundles (R105, R106). That of a management pair goes through its matrix port (11 R288). -/
def trigTas (c : Ctx) (m : Move) (t : Word) (before : Nat) (r : Run) : Run :=
  let e := r.eng c
  let i := (opd e 0x1C0).toNat % 8
  let a := segBase (seg e i) + t.toNat
  let v := (m.dst == 0x1D0).toNat
  let r := r.stopIf (decide (before ≠ 0) || unitBusy r.s c.k 0x1C0)
  match (if c.passed then none else accessFault r.s c.k m.slot i t.toNat 4 (permA + permR + permW) true) with
  | some f => r.fault f
  | none =>
    if e.stores.isEmpty then
      (if c.k < 1024 then
        let x := r.read c a 4
        ({ x.2 with s := memWrite a (leBytes 4 v) x.2.s }).op c 0x1C0 [(0x1C8, BitVec.ofNat 256 (leNat x.1))]
       else match c.reply 0x1C0 with
        | some bs => ({ r with wrote := r.wrote ++ [⟨a, leBytes 4 v⟩] } : Run).op c 0x1C0 [(0x1C8, BitVec.ofNat 256 (leNat bs))]
        | none => (r.op c 0x1C0 [(0x1C8, 0)]).need ⟨m.slot, 0x1C0, a, 4, true, leBytes 4 v, .tas c.k v⟩)
    else
      r.mod c (fun e => { e with ops := e.ops ++ [⟨0x1C0, privMode e, [(0x1C8, 0)], some ⟨a, 4, false, e.storesOut + e.stores.length, some v, false⟩, none, [], false⟩] })

/-! ## br and ctl (R121, R133) -/

/-- A branch: j, jr, call, callr. -/
def trigBranch (c : Ctx) (m : Move) (t : Word) (r : Run) : Run :=
  let n := m.dst - 0x1F0
  let target := (if n % 2 = 0 then t.toNat else c.pc + t.toNat) % 2 ^ 32
  if badTarget (r.eng c) target then r.fault ⟨13, m.slot, target, 0, 0, false⟩
  else
    let r := { r with next := some target }
    if n < 2 then r else r.mod c (fun e => setPort (privMode e) 0x1E8 (BitVec.ofNat 256 ((c.pc + 16) % 2 ^ 32)) e)

/-- iflush, fence, ret and trap. -/
def trigCtl (c : Ctx) (m : Move) (t : Word) (r : Run) : Run :=
  match m.dst with
  | 0x210 => r.mod c (fun e => { e with fence := true, flush := true })
  | 0x211 => r.mod c (fun e => { e with fence := true })
  | 0x212 => { r with ret := some m.slot }
  | _ => { r with trap := some (m.slot, t.toNat % 256) }

/-! ## q (09 R231-R236) -/

/-- The words requested and not popped. -/
def queueWords (e : Engine) : Nat := (e.queue.map (fun q => q.len)).sum

/-- How many words from the oldest are present. -/
def presentWords : List QueueReq → Nat
  | [] => 0
  | q :: qs => if q.words.isSome then q.len + presentWords qs else 0

/-- The first failed request that a number of words from the oldest covers. -/
def failedWithin : List QueueReq → Nat → Option QueueReq
  | [], _ => none
  | q :: qs, n => if n = 0 then none else if q.failed.isSome then some q else failedWithin qs (n - q.len)

/-- The waits whose words are all present end, and their words are armed (R233). -/
def armWaits (e : Engine) : Engine :=
  let there := e.popped + presentWords e.queue
  { e with armed := (e.waits.filter (fun w => w.upTo ≤ there)).foldl (fun a w => max a (w.upTo - e.popped)) e.armed,
           waits := e.waits.filter (fun w => there < w.upTo) }

/-- The queue is emptied (R236). -/
def emptyQueue (e : Engine) : Engine := { e with queue := [], popped := 0, armed := 0, waits := [] }

/-- The failed request that covers a word of a wait which holds the engine (R236). -/
def waitFailure (e : Engine) : Option QueueReq :=
  (e.waits.filter (fun w => w.depth == 0)).findSome? (fun w => failedWithin e.queue (w.upTo - e.popped))

/-- The BUS_ERROR of a failed request. -/
def queueFault (slot : Nat) (q : QueueReq) : Flt := { addrFault 11 slot q.addr (q.failed.getD 0) with qclr := true }

/-- Whether q may reach a target (R234). -/
def queueTarget (k : Nat) (t : Target) : Bool :=
  match t with
  | .hbm _ => true
  | .clusterSram c => decide (k < 1024 ∧ c = clusterOfLane (engLane k))
  | _ => false

/-- The queue requests outstanding at a stack (17 R446). -/
def stackRequests (s : State) (n : Nat) : Nat :=
  (s.engines.map (fun e => (e.2.queue.filter (fun q => q.words.isNone && q.failed.isNone && targetOf s q.addr == .hbm n)).length)).sum

/-- HBM watermark 0, sampled when a request enters a queue or is answered (17 R446, log 155). -/
def sampleStack (a : Nat) (s : State) : State :=
  match targetOf s a with
  | .hbm n => wmSample (hbmPage n) 0 (stackRequests s n) s
  | _ => s

/-- A request as it is pushed: it shows the engine's older stores and none of its younger ones (04 R105). One to SRAM takes the bytes as they
are at the push (log 172); one through the matrix takes with it the stores that are still to come there. -/
def queueReq (s : State) (k serial a n : Nat) : QueueReq :=
  let e := eng s k
  match targetOf s a with
  | .clusterSram _ => { serial := serial, addr := a, len := n, words := none, failed := none, seen := some (overlay a (unseenStores e) (memRead s a (8 * n))) }
  | _ => { serial := serial, addr := a, len := n, words := none, failed := none, under := if k < 1024 then [] else (unseenStores e).filter (fun x => overlaps x a (8 * n)) }

/-- q.trg_push. The request of a management pair enters the matrix (R235). -/
def trigPush (c : Ctx) (m : Move) (t : Word) (r : Run) : Run :=
  let e := r.eng c
  let off := (opd e 0x220).toNat
  let n := t.toNat % 32 + 1
  let a := segBase (seg e 4) + off
  let chk := segCheck (seg e 4) off (8 * n) permR
  let out := (e.queue.filter (fun q => q.words.isNone && q.failed.isNone)).length
  let r := r.stopIf (decide (32 ≤ out ∨ 1024 < queueWords e + n))
  if 32 ≤ t.toNat ∨ off % 8 ≠ 0 ∨ off / 256 ≠ (off + 8 * n - 1) / 256 then r.fault ⟨16, m.slot, 0x230, 0, 0, false⟩
  else if chk ≠ 0 then r.fault ⟨chk, m.slot, off, 4, 0, false⟩
  else if !queueTarget c.k (targetSpan r.s a (8 * n)) then r.fault ⟨16, m.slot, 0x230, 0, 0, false⟩
  else
    let r := r.mod c (fun e => { e with queue := e.queue ++ [queueReq r.s c.k e.serial a n], serial := e.serial + 1 })
    let r := { r with s := sampleStack a r.s }
    if c.k < 1024 then r else { r with s := enterPort (engMaster c.k) (engTransId c.k) false a [] (8 * n) (.queue c.k e.serial) r.s }

/-- q.trg_wait. -/
def trigWait (c : Ctx) (m : Move) (t : Word) (r : Run) : Run :=
  let e := r.eng c
  let n := t.toNat
  if n = 0 ∨ 1024 < n ∨ queueWords e < e.armed + n then r.fault ⟨16, m.slot, 0x231, 0, 0, false⟩
  else match (if c.passed then none else failedWithin e.queue (e.armed + n)) with
    | some q => r.fault (queueFault m.slot q)
    | none => r.mod c (fun e => armWaits { e with waits := e.waits ++ [⟨e.popped + e.armed + n, 0⟩] })

/-! ## Emits (05 R157-R160, 09 R242) -/

/-- One symbol of an emit; the lane's mark goes beside the interval's last symbol. -/
def laneSymbol (slice : Bool) (b : Byte) (r : List Symbol × Chan) : List Symbol × Chan :=
  let x := { r.2 with emitted := r.2.emitted + 1 }
  match x.marks with
  | none => (r.1 ++ [⟨b, slice, none⟩], x)
  | some cfg =>
    let crc := crcByte x.laneCrc b
    if x.lanePos + 1 = cfg.interval then (r.1 ++ [⟨b, slice, some (crc ^^^ 0xFFFFFFFF)⟩], { x with laneCrc := 0xFFFFFFFF, lanePos := 0 })
    else (r.1 ++ [⟨b, slice, none⟩], { x with laneCrc := crc, lanePos := x.lanePos + 1 })

/-- The symbols of one emit enter the path of a channel together and consume its credits (R158). A stream that has stopped since its
bundle passed TR takes none (R84). -/
def emitSymbols (ch id : Nat) (slice : Bool) (bs : List Byte) (s : State) : State :=
  modChan ch (fun x =>
    if !x.laneStream then x
    else
      let r := forEach bs ([], { x with credit := x.credit - bs.length }) (laneSymbol slice)
      { r.2 with emits := r.2.emits ++ [⟨id, slice, r.1⟩] }) s

/-- The emit faults of a set of channels of a lane in the order of R176: DOMAIN, SOURCE, STOPPED; pins are positions, and
slice tells which source emits. -/
def emitFault (s : State) (l slot : Nat) (slice : Bool) (pins : List Nat) : Option Flt :=
  let mask := fun (p : Nat → Bool) => (pins.filter p).foldl (fun a i => a + 2 ^ i) 0
  let src := mask (fun p => (chan s (8 * l + p)).laneSrc != slice)
  let stopped := mask (fun p => !(chan s (8 * l + p)).laneStream)
  if domLost s (l / 8) ∧ pins ≠ [] then some ⟨21, slot, mask (fun _ => true), 0, 0, false⟩
  else if src ≠ 0 then some ⟨19, slot, src, 0, 0, false⟩
  else if stopped ≠ 0 then some ⟨20, slot, stopped, 0, 0, false⟩
  else none

/-- An emit with its faults (R159, R160): one that waits for credits ends its wait with the fault. -/
def Run.emitCheck (r : Run) (c : Ctx) (f : Option Flt) (short : Bool) (go : Run → Run) : Run :=
  if c.passed then go r
  else match f with
    | some x => let r := r.fault x; if short then { r with ended := firstFault r.ended (some x) } else r
    | none => if short then r.stop else go r

/-- The emit unit of a channel core (R157, R159). -/
def trigEmit (c : Ctx) (m : Move) (t : Wide) (r : Run) : Run :=
  let e := r.eng c
  let cnt := (opd e 0x300).toNat % 16
  let n := match m.dst with | 0x310 => 1 | 0x311 => 8 | 0x312 => cnt | _ => t.toNat % 2 ^ 32
  if (m.dst = 0x312 ∧ (cnt = 0 ∨ 8 < cnt)) ∨ (m.dst = 0x313 ∧ 4096 < n) then r.fault ⟨18, m.slot, t.toNat % 2 ^ 32, 0, 0, false⟩
  else r.emitCheck c (emitFault r.s (c.k / 8) m.slot false [c.k % 8]) (decide ((chan r.s c.k).credit < n)) (fun r =>
    if m.dst = 0x313 then r else { r with s := emitSymbols c.k 0 false ((leBytes 8 t.toNat).take n) r.s })

/-- se.credit (06 R174). -/
def seCredit (s : State) (l : Nat) : Nat :=
  ((List.range 8).map (fun p => 8 * l + p)).foldl (fun a ch =>
    if (chan s ch).laneSrc && (chan s ch).laneStream then min a (chan s ch).credit else a) 4096

/-- LN_SEMAPm_p. -/
def seMap (s : State) (l m p : Nat) : Word := rdReg s (lnPage l) (0x120 + 0x20 * m + 4 * p)

/-- symbol(p, k) of an emit (06 R175). -/
def sliceSymbol (w : Word) (stride k : Nat) (t : Wide) : Byte :=
  let b := fun i => (t.getLsbD ((i + k * stride) % 256)).toNat
  BitVec.ofNat 8 (fld w 23 16 + (bit w 29).toNat * b (fld w 7 0) + 2 * (bit w 30).toNat * b (fld w 15 8))

/-- The fault of a slice emit through a map set (06 R176), or of a wait for credits, which names no pin (log 133). -/
def sliceFault (s : State) (k slot : Nat) (set : Option Nat) (pins : List Nat) : Option Flt :=
  let l := engLane k
  let ctl := rdReg s (lnPage l) 0x100
  if !bit ctl 3 ∨ fld ctl 2 0 ≠ engIndex k % 8 then some ⟨22, slot, fld ctl 2 0, 0, 0, false⟩
  else match set with
    | some n => if pins = [] then some ⟨23, slot, n, 0, 0, false⟩ else emitFault s l slot true pins
    | none => if domLost s (l / 8) then some ⟨21, slot, 0, 0, 0, false⟩ else none

/-- The slice emitter (06 R174-R178). A bundle that waits for its matrix load keeps the emitter it has claimed. An emit whose map has lost
its last pin waits for none: SLICE_MAP ends its wait. -/
def trigSlice (c : Ctx) (m : Move) (t : Wide) (r : Run) : Run :=
  let l := engLane c.k
  let r := r.stopIf (claimed r.s c.k 0x700)
  if m.dst = 0x714 then
    let n := t.toNat % 2 ^ 32
    if 4096 < n then r.fault ⟨18, m.slot, n, 0, 0, false⟩
    else r.emitCheck c (sliceFault r.s c.k m.slot none []) (decide (seCredit r.s l < n)) id
  else
    let set := m.dst - 0x710
    let cfg := rdReg r.s (lnPage l) (0x110 + 4 * set)
    let n := fld cfg 11 8
    let pins := (List.range 8).filter (fun p => bit (seMap r.s l set p) 31)
    let short := pins.isEmpty || pins.any (fun p => decide ((chan r.s (8 * l + p)).credit < n))
    r.emitCheck c (sliceFault r.s c.k m.slot (some set) pins) short (fun r =>
      let first := chan r.s (8 * l + pins.headD 0)
      let addr := BitVec.ofNat 56 (portVal (r.eng c) false 0x700).toNat
      let s := if bit (rdReg r.s (lnPage l) 0x1A0) 16 ∧ bit cfg 16 then recordAddress l addr (first.s0 + first.emitted) r.s else r.s
      let id := (lane s l).emitId
      let s := modLane l (fun x => { x with emitId := id + 1 }) s
      { r with s := forEach pins s (fun p s => emitSymbols (8 * l + p) id true ((List.range n).map (fun k => sliceSymbol (seMap r.s l set p) (fld cfg 7 0) k t)) s) })

/-! ## Vector unit, address generators, scrambler, data background (06 R167-R173) -/

/-- A vector operation: VR, and `any` of the four views. -/
def trigVector (c : Ctx) (m : Move) (t : Wide) (r : Run) : Run :=
  let e := r.eng c
  let v := viewOf m.dst
  let w := 32 * 2 ^ v.1
  let sz := 8 * 2 ^ (v.2 / 0x20 - 1)
  let x := vecOp (v.2 % 0x20) sz w (portVal e (privMode e) 0x400) (portVal e (privMode e) 0x401) t
  let any := fun j => if x.toNat % 2 ^ (32 * 2 ^ j) = 0 then (0 : Wide) else 1
  r.op c 0x400 [(0x410, x), (0x411, any 0), (0x491, any 1), (0x511, any 2), (0x591, any 3)]

/-- A 56-bit port of generator j. -/
def agPort (e : Engine) (j o : Nat) : Nat := (portNext e (privMode e) (0x600 + 0x20 * j + o)).toNat % 2 ^ 56

/-- The chain of generators from j along the CARRY fields (R171): none where it is a cycle. -/
def agChain (e : Engine) : Nat → Nat → List Nat → Option (List Nat)
  | 0, _, _ => none
  | fuel + 1, j, seen =>
    if seen.contains j then none
    else match agPort e j 3 % 4 with
      | 0 => some (seen ++ [j])
      | n => agChain e fuel (n - 1) (seen ++ [j])

/-- One generator's advance: cur and whether it wraps. -/
def agStep (e : Engine) (j : Nat) : Nat × Bool :=
  let st := signedOf 56 (agPort e j 2)
  let x : Int := (agPort e j 8 : Nat) + st
  if 0 ≤ st ∧ (agPort e j 1 : Nat) < x then (agPort e j 0, true)
  else if st < 0 ∧ x < (agPort e j 0 : Nat) then (agPort e j 1, true)
  else (x.toNat % 2 ^ 56, false)

/-- The results of an advance along a chain: it goes on while generators wrap. -/
def agAdvance (e : Engine) : List Nat → List (Nat × Wide)
  | [] => []
  | j :: js =>
    let x := agStep e j
    [(0x608 + 0x20 * j, BitVec.ofNat 256 x.1), (0x609 + 0x20 * j, BitVec.ofNat 256 x.2.toNat)] ++ (if x.2 then agAdvance e js else [])

/-- trg_ld and trg_inc of generator j. AGEN_CFG names the base of the generator triggered, whichever of the chain is at fault (log 89). -/
def trigAgen (c : Ctx) (m : Move) (t : Wide) (r : Run) : Run :=
  let e := r.eng c
  let j := (m.dst - 0x600) / 0x20
  let unit := 0x600 + 0x20 * j
  if m.dst % 0x20 = 0x10 then r.op c unit [(unit + 8, BitVec.ofNat 256 (t.toNat % 2 ^ 56)), (unit + 9, 0)]
  else match agChain e 4 j [] with
    | none => r.fault ⟨17, m.slot, unit, 0, 0, false⟩
    | some js => if js.any (fun i => decide (agPort e i 1 < agPort e i 0)) then r.fault ⟨17, m.slot, unit, 0, 0, false⟩
      else r.op c unit (agAdvance e js)

/-- The scrambler (R172) with the Canvas table as it stands. -/
def scramble (s : State) (l tab : Nat) (t : Nat) : Nat :=
  forUpTo 56 0 (fun i a =>
    let w := (rdReg s (lscrPage l) (0x100 + 0x70 * tab + 4 * (i / 2))).toNat / 2 ^ (16 * (i % 2)) % 2 ^ 16
    a + (scrambleBit w t).toNat * 2 ^ i)

/-- scr.trg_map, dbg.trg_bg, dbg.trg_lfsr. -/
def trigPattern (c : Ctx) (m : Move) (t : Wide) (r : Run) : Run :=
  let e := r.eng c
  match m.dst with
  | 0x670 => r.op c 0x660 [(0x668, BitVec.ofNat 256 (scramble r.s (engLane c.k) ((opd e 0x660).toNat % 8) t.toNat))]
  | 0x690 => r.op32 c 0x680 0x688 (background ((portVal e (privMode e) 0x680).setWidth 64) (t.setWidth 64) (opd e 0x681))
  | _ => r.op32 c 0x680 0x688 (lfsrNext (t.setWidth 32))

/-! ## ec, fs and Sketch triggers -/

/-- The engine control unit (08 R227): its effect comes at EC_OPERATION_COMPLETE. -/
def trigEc (c : Ctx) (m : Move) (t : Word) (r : Run) : Run :=
  let e := r.eng c
  if e.ops.any (fun o => o.unit == 0x800) then r.stop
  else
    let q : EcRequest := ⟨m.dst - 0x810, t, opd e 0x800, opd e 0x801⟩
    let vals : List (Nat × Wide) := if m.dst = 0x810 then [(0x808, 0), (0x809, 0)] else [(0x808, 0)]
    r.mod c (fun e => { e with ops := e.ops ++ [⟨0x800, privMode e, vals, none, some q, [], false⟩] })

/-- The fail status sockets (10 R279, R280). -/
def trigFs (c : Ctx) (m : Move) (t : Word) (r : Run) : Run :=
  let l := engLane c.k
  let k := clusterOfLane l
  let r := r.stopIf (claimed r.s c.k 0x1810 || (m.dst == 0x1822 && !c.passed && decide (4096 ≤ (lane r.s l).events.length)))
  let coproc := fun d => r.fault ⟨28, m.slot, t.toNat, 0, d, false⟩
  if m.dst ≠ 0x1822 ∧ 128 ≤ t.toNat then coproc 1
  else if (store r.s (64 + k)).low ≠ 2 ∧ !c.passed then coproc 2
  else if m.dst = 0x1822 ∧ !captureOn r.s k ∧ !c.passed then coproc 3
  else match m.dst with
    | 0x1820 => r.op32 c 0x1810 0x1818 (w32 (smGet 0 (failPipe r.s k).counters (5 * t.toNat)))
    | 0x1821 => r.op32 c 0x1810 0x1818 (w32 (siteStatus r.s k t.toNat))
    | _ => ({ r with s := userMark l t r.s }).op32 c 0x1810 0x1818 0

/-- A declared customer trigger (07 R199). -/
def trigSketch (c : Ctx) (m : Move) (t : Wide) (r : Run) : Run :=
  let l := engLane c.k
  match sktFind r.s l m.dst with
  | none => r
  | some w =>
    let r := r.stopIf ((lane r.s l).sk.isSome || claimed r.s c.k 0x1C00)
    { r with s := sketchStart l (engIndex c.k % 8) w t r.s }

/-! ## LOOP (R122) -/

/-- A write of LOOP. A body of at most 32 bundles arms the loop buffer of a channel core (05 R150; 06 R166). -/
def trigLoop (c : Ctx) (m : Move) (t : Word) (r : Run) : Run :=
  let e := r.eng c
  let ls := w32 (c.pc + 16)
  if e.lc ≠ 0 then r.fault ⟨14, m.slot, e.lc.toNat, 0, 0, false⟩
  else if e.le.toNat < ls.toNat ∨ segCheck (seg e 0) e.le.toNat 16 permX ≠ 0 then r.fault ⟨13, m.slot, e.le.toNat, 0, 0, false⟩
  else if t = 0 then { r.mod c (fun e => { e with ls := ls }) with skip := some ((e.le.toNat + 16) % 2 ^ 32) }
  else
    let arms := decide (engType c.k = 0 ∧ e.le.toNat < ls.toNat + 16 * 32)
    r.mod c (fun e => { e with ls := ls, lc := t, loopBuf := { phase := if arms then .copying else .off } })

/-- The length of n cycles of an engine: 2.0 GHz in a lane, 1.5 GHz in the management island (01 R26). -/
def cycles (k n : Nat) : Nat := if 1024 ≤ k then n * 131072 / 3 else n * 32768

/-- The trigger of a move, if its destination is one; LOOP counts as one. before is the length of the store
buffer before the bundle. -/
def trigger (c : Ctx) (before : Nat) (m : Move) (t : Wide) (r : Run) : Run :=
  let w : Word := t.setWidth 32
  if m.dst = 0x53 then trigLoop c m w r
  else match trigUnit r.s c.k m.dst with
    | none => r
    | some u =>
      if u < 0x1A0 then trigArith c m w r
      else match u with
        | 0x1A0 => if m.dst < 0x1B8 then trigLoad c m w r else if m.dst < 0x1BC then trigStore c m w r else trigAtomic c m w r
        | 0x1C0 => trigTas c m w before r
        | 0x1E0 => trigBranch c m w r
        | 0x200 => trigCtl c m w r
        | 0x220 => if m.dst = 0x230 then trigPush c m w r else trigWait c m w r
        | 0x240 => if w = 0 then r else r.mod c (fun e => { e with delay := some (r.s.now + cycles c.k w.toNat) })
        | 0x300 => trigEmit c m t r
        | 0x400 => trigVector c m t r
        | 0x600 | 0x620 | 0x640 => trigAgen c m t r
        | 0x660 | 0x680 => trigPattern c m t r
        | 0x700 => trigSlice c m t r
        | 0x800 => trigEc c m w r
        | 0x1810 => trigFs c m w r
        | _ => trigSketch c m t r

end Sys2Proof.Machine
end

