-- ==== Sys2Proof/Machine/Entry.lean ====
section
/-! DEFINITION. Entering a handler, STUCK and the return (spec 08 R212-R226), as operations that every engine shares. -/

namespace Sys2Proof.Machine

/-! ## Reports (R225, R226; 15 R404) -/

/-- The domain of what an address names (01 R20): that of a stack, or of a page. -/
def addrDomain (s : State) (a : Nat) : Nat :=
  match targetOf s a with
  | .hbm n => 10 + n
  | .regs => match pageAt (pageOfAddr a).1 with | some x => pageDomain x | none => 8
  | _ => 8

/-- The entries that the vector table marks for Anvil. -/
def anvilVector (v : Nat) : Bool := [11, 12, 21, 24, 25, 26, 28].contains v

/-- The report of an entry (R226) with its CAUSE word: class ENGINE, BLOCK for an uncorrectable error; consequences and primaries of
15 R405. -/
def reportEntry (k v syn0 syn1 : Nat) (cause : Word) (s : State) : State :=
  if !anvilVector v then s
  else
    let kind := syn1 / 2 ^ 16 % 16
    let bus := v = 11 ∨ v = 12
    let a := syn0 + 2 ^ 32 * (syn1 % 2 ^ 16)
    let cls := if bus ∧ kind = 5 then 3 else 2
    let gk := if v = 21 then (1, engLane k / 8)
      else if bus ∧ kind = 4 then (1, addrDomain s a)
      else if (v = 25 ∨ v = 26) ∧ k < 1024 then (20, engLane k) else (0, 0)
    report ⟨1, engIdent k, cls, v, gk.1, gk.2, [cause, w32 syn0, w32 syn1]⟩ s

/-- What holds the younger bundles of an engine (05 R137 item 5, R140, R145; 04 R128; 09 R233). -/
def holds (e : Engine) : Bool :=
  e.fence || e.delay.isSome || e.waits.any (fun w => w.depth == 0)
    || e.ops.any (fun o => match o.load with | some w => w.tas.isSome | none => false)

/-- Nothing holds an engine or waits with a bundle of it any more; a fence ends with its stores. -/
def unheld (e : Engine) : Engine :=
  { e with delay := none, matrix := none, after := none, entering := false, rptBusy := false, loopBuf := { phase := .off } }

/-- An engine enters STUCK (R224, R225). Its report carries the words of the entry that failed, none for the other causes (R226). -/
def enterStuck (k cause vec : Nat) (words : List Word) (s : State) : State :=
  let s := modEng k (fun e => { unheld e with run := .stuck, cause := cause, stuckVec := vec, stuckErrs := 0, stuckPc := e.pc, resv := none, parkDue := false }) s
  let s := report ⟨1, engIdent k, if 1024 ≤ k then 6 else 2, cause, 17, k, words⟩ s
  match engType k with
  | 0 => modEng (512 + 8 * (k / 8)) (fun e => { e with coreStuck := e.coreStuck ++ [k % 8] }) s
  | 1 => raiseBit (lnPage (engLane k)) 1 s
  | _ => s

/-! ## The fault stack (R218, R220) -/

/-- How 48 bytes at an address are stacked or read back: none without error. err is what an access through the matrix meets. Register
space and the boot ROM take no such access (11 R295). -/
def stackError (s : State) (k a : Nat) (write : Bool) (err : Option BusKind) : Option BusKind :=
  let t := targetSpan s a 48
  match engPath k t with
  | 0 => if targetOn s t then none else some .target
  | 1 => (portOutcome s (engMaster k) a 1 write err).or (portError s (engMaster k) (portTarget s (engMaster k) (a + 47)) (a + 47) 1 write)
  | _ => some .decode

/-- What an error of the stack access leaves behind: the MX page captures those of the matrix (11 R309). -/
def stackFails (k a : Nat) (write : Bool) (kind : BusKind) (s : State) : State :=
  if engPath k (targetSpan s a 48) = 1 then portFails (engMaster k) a 1 write kind s else s

/-- Whether the stack access of a management pair waits at its target: for Bellows, or for an MRAM bank (11 R293, R304), unless its time
has run out (R294). -/
def stackHeld (s : State) (k off : Nat) (write : Bool) (err : Option BusKind) : Bool :=
  let a := segBase (seg (eng s k) 3) + off
  let t := portTarget s (engMaster k) a
  decide (1024 ≤ k) && segCheck (seg (eng s k) 3) off 48 (if write then permW else permR) == 0 && err != some .timeout
    && (bellowsHolds s (engMaster k) t || mramWaits s t a 48 write)

/-- Whether an entry can complete: the drain can end (05 R154) and the stack takes the context. -/
def mayEnter (k : Nat) (err : Option BusKind) (s : State) : Bool :=
  canDrain (eng s k) && !(decide (48 ≤ (eng s k).fsp.toNat) && stackHeld s k ((eng s k).fsp.toNat - 48) true err)

/-- An entry has begun that cannot complete yet. -/
def entryBegins (k : Nat) (s : State) : State := modEng k (fun e => { e with entering := true }) s

/-- A park that has waited for an entry or a return stops the engine before its next bundle (R229). -/
def parkAfter (k : Nat) (s : State) : State := if (eng s k).parkDue then enterStuck k 5 0 [] s else s

/-- The bytes of an access that lie in store-buffer entries take the new data, so that the older stores land under it. -/
def patchStores (a : Nat) (bs : List Byte) (l : List StoreEntry) : List StoreEntry :=
  l.map (fun x => { x with data := (List.range x.data.length).map (fun i =>
    if a ≤ x.addr + i ∧ x.addr + i < a + bs.length then bs.getD (x.addr + i - a) 0 else x.data.getD i 0) })

/-- A little-endian word of a list of bytes. -/
def wordOf (bs : List Byte) (i : Nat) : Word := w32 (leNat ((bs.drop (4 * i)).take 4))

/-- The CAUSE word (R218). -/
def causeWord (e : Engine) (vec prec slot detail : Nat) : Word :=
  w32 (vec * 2 ^ 26 + e.mode % 4 * 2 ^ 24 + e.ie.toNat * 2 ^ 23 + prec * 2 ^ 22 + slot * 2 ^ 20 + detail % 256 * 2 ^ 8)

/-- The predicates p1-p7 with p0 in bit 0. -/
def predWord (e : Engine) : Word := w32 (e.preds.toNat / 2 * 2 + 1)

/-- br.res of the set in use. -/
def brRes (e : Engine) : Word := (portVal e (privMode e) 0x1E8).setWidth 32

/-- The twelve context words (R218). -/
def contextWords (e : Engine) (ret : Nat) (cause : Word) (syn0 syn1 : Nat) : List Word :=
  [w32 ret, cause, w32 syn0, w32 syn1, e.lc, e.ls, e.le, e.rptc, predWord e, w32 e.segsel, brRes e, e.fsp]

/-- A handler entry: its vector, the return offset, PREC, SLOT, SYN0, SYN1 and DETAIL. -/
structure EntryF where
  vec : Nat
  ret : Nat
  prec : Nat := 0
  slot : Nat := 0
  syn0 : Nat := 0
  syn1 : Nat := 0
  detail : Nat := 0
  deriving DecidableEq, Repr

/-- The mode that an entry sets (R218 item 3). -/
def entryMode (k vec : Nat) : Nat := if 1024 ≤ k ∧ (32 ≤ vec ∨ vec = 27) then 2 else 1

/-- The engine after steps 2-4 of R218: the fence, if one holds, goes on holding (05 R145); waits stay and hold again after the
return (09 R233); what was left of a tm.delay is dropped, which the spec leaves open (log 134). The loop buffer is released (05 R150). -/
def entered (k : Nat) (f : EntryF) (bs : List Byte) (a : Nat) (e : Engine) : Engine :=
  { unheld e with fsp := e.fsp - 48, mode := entryMode k f.vec, ie := false, lc := 0, rptc := 0, rptLive := false, resv := none,
                  waits := e.waits.map (fun w => { w with depth := w.depth + 1 }), pc := w32 (0xFC00 + 16 * f.vec),
                  stores := patchStores a bs e.stores }

/-- Taking an entry after the drain (R218): the context is stacked, the mode set and the vector fetched, or STUCK. A descriptor 3 that
holds V = 0 gives FSTACK_ACCESS whatever FSP is (R215). Step 5 of R218 names a fetch that fails R120: one of a pair that meets a bus error ends
with the same cause, and one that has no path is left to the bundle itself (log 175). A park that waits for the entry stops the engine before
the fetch (R229). -/
def takeEntry (k : Nat) (f : EntryF) (err : Option BusKind) (s : State) : State :=
  let s := drain k s
  let e := eng s k
  let off := e.fsp.toNat - 48
  let a := segBase (seg e 3) + off
  let cause := causeWord e f.vec f.prec f.slot f.detail
  let words := [cause, w32 f.syn0, w32 f.syn1]
  let s := reportEntry k f.vec f.syn0 f.syn1 cause s
  if !bit (seg e 3).w3 0 then enterStuck k 2 f.vec words s
  else if e.fsp.toNat < 48 then enterStuck k 1 f.vec words s
  else if segCheck (seg e 3) off 48 permW ≠ 0 then enterStuck k 2 f.vec words s
  else match stackError s k a true err with
    | some b => enterStuck k 2 f.vec words (stackFails k a true b s)
    | none =>
      let bs := (contextWords e f.ret cause f.syn0 f.syn1).flatMap (fun w => leBytes 4 w.toNat)
      let s := modEng k (entered k f bs a) (portWrite (targetOf s a) a bs s)
      if e.parkDue then parkAfter k s
      else match fetchFault s k (0xFC00 + 16 * f.vec) none with
      | some x => if x.vec = 6 ∨ x.vec = 7 ∨ x.vec = 11 then enterStuck k 3 f.vec words s else s
      | none => s

/-- A precise fault of the bundle at pc; it waits until the entry can complete (05 R154). -/
def takeFault (k : Nat) (f : Flt) (err : Option BusKind) (s : State) : State :=
  if !mayEnter k err s then entryBegins k s
  else
    let s := if f.qclr then modEng k emptyQueue s else s
    takeEntry k { vec := f.vec, ret := (eng s k).pc.toNat, prec := 1, slot := f.slot, syn0 := f.syn0, syn1 := f.syn1, detail := f.detail } err s

/-- The mode that a return restores (R220): PMODE 3, or 2 on no management pair, is Fault. -/
def returnMode (k pmode : Nat) : Nat := if pmode = 3 ∨ (pmode = 2 ∧ k < 1024) then 1 else pmode

/-- The engine after a return (R220) from a context. -/
def returned (k : Nat) (w : Nat → Word) (e : Engine) : Engine :=
  let m := returnMode k (fld (w 1) 25 24)
  setPort (m != 0) 0x1E8 ((w 10).setWidth 256)
    { e with mode := m, ie := bit (w 1) 23, lc := w 4, ls := setFld (w 5) 3 0 0, le := setFld (w 6) 3 0 0, rptc := w 7,
             rptLive := w 7 != 0, preds := (setBit (w 8) 0 true).setWidth 8, segsel := (w 9).toNat % 8,
             fsp := e.fsp + 48, pc := w 0, waits := e.waits.map (fun w => { w with depth := w.depth - 1 }), loopBuf := { phase := .off } }

/-- What a return finds (R220): the context, STUCK with the bus error if one is the reason, or a RET that fails the checks of R121. -/
inductive ReturnFind where
  | stuck (bus : Option BusKind)
  | badRet (ret : Nat)
  | ok (words : List Word)
  deriving DecidableEq, Repr

/-- The read of the context at FSP. -/
def readContext (s : State) (k : Nat) (err : Option BusKind) : ReturnFind :=
  let e := eng s k
  let off := e.fsp.toNat
  let a := segBase (seg e 3) + off
  if segCheck (seg e 3) off 48 permR ≠ 0 then .stuck none
  else match stackError s k a false err with
    | some b => .stuck (some b)
    | none =>
      let bs := seenBytes s k a 48
      if wordOf bs 11 ≠ e.fsp + 48 then .stuck none
      else if badTarget e (wordOf bs 0).toNat then .badRet (wordOf bs 0).toNat
      else .ok ((List.range 12).map (wordOf bs))

end Sys2Proof.Machine
end

