-- ==== Sys2Proof/Machine/Engine.lean ====
section
/-! DEFINITION. How an engine issues a bundle: operand read, write phase, triggers, loops and repeats (spec 04 R105-R126,
05 R137-R152, 06 R161-R169). -/

namespace Sys2Proof.Machine

/-! ## Sources (R106, R111-R117) -/

/-- Sign extension of the low n bits to 256. -/
def sext (n v : Nat) : Wide := BitVec.ofInt 256 (signedOf n v)

/-- The port that holds a result socket, and the scoreboard key: lsu.res shares res64, the vector views share VR. -/
def resultKey (n : Nat) : Nat :=
  if n = 0x1A8 then 0x1A9 else if 0x400 ≤ n ∧ n < 0x600 ∧ (viewOf n).2 = 0x10 then 0x410 else n

/-- Result sockets without a scoreboard bit (R138, R157, R174, R201, 09 R233). -/
def alwaysReady (n : Nat) : Bool := [0x228, 0x229, 0x248, 0x249, 0x308, 0x309, 0x708, 0x1800, 0x1801].contains n

/-- Whether a source socket is a result port with a scoreboard bit. -/
def isResult (n : Nat) : Bool := ((0x100 ≤ n && n < 0x1000) || 0x1800 ≤ n) && !alwaysReady n

/-- The destinations into which vector results chain (06 R169). -/
def chains (s : State) (k : Nat) (m : Move) : Bool :=
  let src := 0x400 ≤ m.src && m.src < 0x600 && (viewOf m.src).2 == 0x10
  let dst := (0x400 ≤ m.dst && m.dst < 0x600) || (0x710 ≤ m.dst && m.dst ≤ 0x714)
  engType k == 1 && src && dst && (dstWidth s k m.dst).isSome

/-- Whether the result port of a move's source is ready. -/
def resultReady (e : Engine) (m : Move) : Bool := portReady e (privMode e) (resultKey m.src)

/-- Whether a move is a deferred write (05 R139). -/
def deferred (e : Engine) (m : Move) : Bool := decide (m.dst < 0x40) && isResult m.src && !resultReady e m

/-- Whether a move's source holds up its bundle (05 R137-R139). -/
def sourceStalls (s : State) (k : Nat) (m : Move) : Bool :=
  let e := eng s k
  if m.src < 0x40 then !(List.range (moveWidth s k m / 32)).all (fun i => gReady e (m.src + i))
  else isResult m.src && !resultReady e m && !deferred e m && !chains s k m

/-- The oldest armed word of the queue and the engine after its pop (09 R233). -/
def popWord (e : Engine) : DWord × Engine :=
  match e.queue with
  | [] => (0, e)
  | q :: qs =>
    let w := (q.words.getD []).headD 0
    let q' : QueueReq := { q with len := q.len - 1, words := q.words.map (fun l => l.tail) }
    (w, { e with queue := if q.len ≤ 1 then qs else q' :: qs, popped := e.popped + 1, armed := e.armed - 1 })

/-- The installed descriptor that SEGSEL selects, word i. -/
def segWord (e : Engine) (i : Nat) : Word :=
  let d := seg e e.segsel
  match i with
  | 0 => d.w0
  | 1 => d.w1
  | 2 => d.w2
  | _ => d.w3

/-- A special socket as a source (R113-R115), 32 bits. -/
def specialVal (e : Engine) (k pc n : Nat) : Word :=
  match n with
  | 0x50 => e.lc
  | 0x51 => e.ls
  | 0x52 => e.le
  | 0x54 => w32 e.segsel
  | 0x55 => segWord e 0
  | 0x56 => segWord e 1
  | 0x57 => segWord e 2
  | 0x58 => segWord e 3
  | 0x59 => e.fsp
  | 0x5A => w32 e.ie.toNat
  | 0x5B => w32 (engType k * 2 ^ 28 + engIndex k * 2 ^ 12 + e.mode)
  | 0x5C => w32 pc
  | _ => e.rptc

/-- emit.stat (05 R157). -/
def emitStat (s : State) (c : Nat) : Word :=
  let x := chan s c
  w32 (4 * (domLost s (tileOf c)).toNat + 2 * (x.laneStream && x.stream == .running).toNat + x.laneStream.toNat)

/-- sk.stat (07 R201). -/
def skStat (s : State) (k : Nat) : Word :=
  let l := engLane k
  w32 ((skBusy s l).toNat + 2 * (skOpen s l).toNat + 16 * smGet 0 (lane s l).skCode (engIndex k % 8))

/-- A result or status socket as a source. The cycle count is free (log 8). -/
def unitVal (s : State) (k n : Nat) : Wide :=
  let e := eng s k
  let l := engLane k
  match n with
  | 0x228 => (popWord e).1.setWidth 256
  | 0x229 => (match e.queue with | q :: _ => if q.words.isSome || q.failed.isSome then 1 else 0 | [] => 0)
  | 0x248 => BitVec.ofNat 256 (freeVal 32 s)
  | 0x308 => BitVec.ofNat 256 (if (chan s k).laneStream then (chan s k).credit else 0)
  | 0x309 => (emitStat s k).setWidth 256
  | 0x708 => BitVec.ofNat 256 (seCredit s l)
  | 0x1800 => (skStat s k).setWidth 256
  | 0x1801 => if skOpen s l then (store s l).version.setWidth 256 else 0
  | _ => portNext e (privMode e) (resultKey n)

/-- The value a move reads, adjusted to its width (R116). -/
def sourceVal (s : State) (k pc : Nat) (b : BundleF) (m : Move) : Wide :=
  let e := eng s k
  let w := moveWidth s k m
  let n := m.src
  let v : Wide :=
    if n < 0x40 then groupVal e n w
    else if n < 0x48 then BitVec.ofNat 256 (n == 0x40 || bit (e.preds.setWidth 32) (n - 0x40)).toNat
    else if n = 0x5E then sext 30 (immOf b)
    else if n = 0x5F then BitVec.ofNat 256 (immOf b)
    else if n < 0x100 then (specialVal e k pc n).setWidth 256
    else if 0x1000 ≤ n ∧ n < 0x1800 then sext 11 (n % 2 ^ 11)
    else BitVec.ofNat 256 ((unitVal s k n).toNat % 2 ^ ((srcWidth s k n).getD 32))
  BitVec.ofNat 256 (v.toNat % 2 ^ w)

/-- What reading a source does beside giving its value: q.res pops, tm.cyc latches its upper half. -/
def readEffect (k : Nat) (m : Move) (s : State) : State :=
  match m.src with
  | 0x228 => modEng k (fun e => (popWord e).2) s
  | 0x248 => modEng k (fun e => setPort (privMode e) 0x249 (BitVec.ofNat 256 (freeVal 64 s / 2 ^ 32)) e) s
  | _ => s

/-! ## The write phase (R106, R112, R113, R119) -/

/-- A write of a special socket but LOOP and SEGD3. A write of 0 to LC releases the loop buffer (05 R150). -/
def writeSpecial (n : Nat) (v : Word) (e : Engine) : Engine :=
  match n with
  | 0x50 => { e with lc := v, loopBuf := if v = 0 then { phase := .off } else e.loopBuf }
  | 0x51 => { e with ls := setFld v 3 0 0 }
  | 0x52 => { e with le := setFld v 3 0 0 }
  | 0x54 => { e with segsel := v.toNat % 8 }
  | 0x55 => { e with stage := { e.stage with w0 := setFld v 3 0 0 } }
  | 0x56 => { e with stage := { e.stage with w1 := setFld v 31 16 0 } }
  | 0x57 => { e with stage := { e.stage with w2 := v } }
  | 0x59 => { e with fsp := v }
  | 0x5A => { e with ie := bit v 0 }
  | 0x5D => { e with rptc := v }
  | _ => e

/-- A write of SEGD3 installs the staged descriptor (R119). -/
def installSeg (v : Word) (e : Engine) : Engine :=
  let d := { e.stage with w3 := setFld v 31 5 0 }
  { e with stage := d, segs := smPut {} e.segs e.segsel d }

/-- A write of an operand port; a vector view writes the low bits of VO or VM and keeps the rest (06 R167). -/
def writePort (n w : Nat) (v : Wide) (e : Engine) : Engine :=
  if 0x400 ≤ n ∧ n < 0x600 then
    let p := 0x400 + (viewOf n).2
    let old := (portVal e (privMode e) p).toNat
    setPort (privMode e) p (BitVec.ofNat 256 (old / 2 ^ w * 2 ^ w + v.toNat % 2 ^ w)) e
  else setPort (privMode e) n v e

/-- The write of one move that is no trigger and no SEGD3. -/
def writeMove (s : State) (k : Nat) (m : Move) (v : Wide) (e : Engine) : Engine :=
  let w := moveWidth s k m
  if m.dst < 0x40 then
    (if deferred (eng s k) m then deferGroup (privMode e) (resultKey m.src) m.dst w e else setGroup m.dst w v e)
  else if m.dst < 0x48 then
    (if m.dst = 0x40 then e else { e with preds := (setBit (e.preds.setWidth 32) (m.dst - 0x40) (v.setWidth 32 != (0 : Word))).setWidth 8 })
  else if m.dst < 0x100 then writeSpecial m.dst (v.setWidth 32) e
  else if (trigUnit s k m.dst).isSome then e
  else writePort m.dst w v e

/-- The write phase; s is the state before the bundle. -/
def writePhase (s : State) (k : Nat) (vs : List (Move × Wide)) (e : Engine) : Engine :=
  forEach vs e (fun x e => writeMove s k x.1 x.2 e)

/-- SEGD3 installs after all other writes and after the bundle's triggers, which the old descriptor governs (R119). -/
def installPhase (vs : List (Move × Wide)) (e : Engine) : Engine :=
  forEach vs e (fun x e => if x.1.dst = 0x58 then installSeg (x.2.setWidth 32) e else e)

/-! ## A bundle -/

/-- The moves with a true guard. -/
def activeMoves (e : Engine) (b : BundleF) : List Move := (movesOf b).filter (fun m => !m.nop && guardTrue e m)

/-- A bundle at TR (R106-R108): what it does if it passes, or that it stalls or faults. -/
def evalBundle (s : State) (k pc : Nat) (b : BundleF) (got : Option (List (Nat × List Byte))) (ecc : EccOutcome := .clean) : Run :=
  let ms := activeMoves (eng s k) b
  if ms.any (sourceStalls s k) then { s := s, stall := true }
  else
    let vs := ms.map (fun m => (m, sourceVal s k pc b m))
    let s1 := forEach ms s (fun m s => readEffect k m s)
    let r : Run := { s := modEng k (writePhase s k vs) s1, flt := firstOf (slotFaults s k [] ms) }
    (forEach vs r (fun x r => trigger ⟨k, pc, got, ecc⟩ (eng s k).stores.length x.1 x.2 r)).mod ⟨k, pc, got, ecc⟩ (installPhase vs)

/-- The loop buffer after the bundle at pc, which its copying phase takes in (05 R150): a taken branch or the end of the loop releases
it, the way back to LS makes it supply, or arms it again. -/
def loopAfter (w : Bundle) (pc : Nat) (branch : Bool) (e : Engine) : LoopBuf :=
  let b := e.loopBuf
  let b : LoopBuf := if b.phase = .copying ∧ e.ls.toNat ≤ pc ∧ pc ≤ e.le.toNat then { b with bundles := smPut none b.bundles pc (some w) } else b
  if branch then { phase := .off }
  else if pc = e.le.toNat ∧ 2 ≤ e.lc.toNat then
    (match b.phase with | .copying => { b with phase := .supplying } | .rearm => { phase := .copying } | _ => b)
  else if pc = e.le.toNat ∧ e.lc = 1 then { phase := .off }
  else b

/-- Whether a core's instruction SRAM is in its low-power state (05 R150): the loop buffer supplies every fetch, and its wake starts when LC
reaches 1. -/
def instrLowPower (e : Engine) : Bool := decide (e.loopBuf.phase = .supplying ∧ 2 ≤ e.lc.toNat)

/-- The next bundle after one that ends at pc (R121-R123): a branch, the end of a skipped loop, the loop end, or pc + 16. Where a bundle
takes a branch and writes LOOP, the branch gives the next bundle and LS and LC are set all the same (log 135). -/
def nextPc (w : Bundle) (r : Run) (k pc : Nat) : Run :=
  let e := eng r.s k
  let c : Ctx := { k := k, pc := pc, got := none }
  let go := fun (a : Nat) (r : Run) => r.mod c (fun e => { e with pc := w32 a, rptBusy := false, entering := false })
  let r := r.mod c (fun e => { e with loopBuf := loopAfter w pc r.next.isSome e })
  match r.next with
  | some a => go a r
  | none =>
    match r.skip with
    | some a => go a r
    | none =>
      if pc = e.le.toNat ∧ 2 ≤ e.lc.toNat then go e.ls.toNat (r.mod c (fun e => { e with lc := e.lc - 1 }))
      else if pc = e.le.toNat ∧ e.lc = 1 then go (pc + 16) (r.mod c (fun e => { e with lc := 0 }))
      else go (pc + 16) r

/-- The end of a bundle or of an iteration of a repeat (R125): RPTC counts down, a branch ends the repeat. RPTC counts down from what the
iteration has written to it, where it has (log 136). -/
def endBundle (w : Bundle) (k pc : Nat) (r : Run) : Run :=
  let c : Ctx := { k := k, pc := pc, got := none }
  if !(bundleOf w).rpt then nextPc w (r.mod c (fun e => { e with rptLive := false })) k pc
  else if r.next.isSome then nextPc w (r.mod c (fun e => { e with rptc := 0, rptLive := false })) k pc
  else
    let left := (eng r.s k).rptc.toNat - 1
    let r := r.mod c (fun e => { e with rptc := w32 left, rptLive := left != 0, rptBusy := false })
    if left = 0 then nextPc w r k pc else r

/-! ## The matrix port of an engine (11 R288, R296; 05 R147) -/

/-- The units that the triggers of a bundle claim while it waits for the response to its load. -/
def unitsOf (s : State) (k : Nat) (b : BundleF) : List Nat := (activeMoves (eng s k) b).filterMap (fun m => trigUnit s k m.dst)

/-- The access of a bundle that goes first: a load, whose bus error must leave the bundle without effect (05 R147), else that of the lowest
slot. -/
def firstAccess (as : List PortAccess) : Option PortAccess :=
  (as.find? (fun a => match a.use with | .load _ => true | _ => false)).or as.head?

/-- A bundle that has passed TR takes effect with the responses to its accesses through the matrix, one after the other, and younger bundles
wait; got holds those that it has. -/
def issueAccess (w : Bundle) (k : Nat) (got : List (Nat × List Byte)) (x : PortAccess) (s : State) : State :=
  modEng k (fun e => { e with matrix := some ⟨w, x.addr, unitsOf s k (bundleOf w), none, x.unit, x.slot, got⟩ })
    (enterPort (engMaster k) (engTransId k) x.write x.addr x.data x.len x.use s)

/-- The head entry of the store buffer, where it lies beyond the matrix, enters the lane port or the pair's port: one at a time, so
that each is acknowledged before the next (11 R297). -/
def issueStore (k : Nat) (s : State) : State :=
  match (eng s k).stores with
  | [] => s
  | x :: _ =>
    if engPath k (targetOf s x.addr) = 0 ∨ s.trans.any (fun t => t.use == .store k) then s
    else enterPort (engMaster k) (engTransId k) true x.addr x.data x.data.length (.store k) s

/-- After a bundle, and after a store has left the buffer: what waited for it happens, and the next store is on its way. -/
def settled (k : Nat) (s : State) : State := issueStore k (settle k s)

/-! ## Commit (R108; 08 R218, R220) -/

/-- What follows a bundle that has taken effect, once its operations have drained: the entry of its TRAP, whose RET is the next
bundle, or its return. -/
def afterBundle (k : Nat) (err : Option BusKind) (s : State) : State :=
  let e := eng s k
  match e.after with
  | none => s
  | some (.trap slot code) =>
    if !mayEnter k err s then s
    else takeEntry k { vec := 27, ret := e.pc.toNat, slot := slot, detail := code } err (modEng k unheld s)
  | some (.ret slot pc) =>
    if !canDrain e || stackHeld s k e.fsp.toNat false err then s
    else
      let s := drain k (modEng k unheld s)
      match readContext s k err with
      | .stuck b => enterStuck k 4 0 [] (match b with | some x => stackFails k (segBase (seg e 3) + e.fsp.toNat) false x s | none => s)
      | .badRet a => takeEntry k { vec := 13, ret := pc, prec := 1, slot := slot, syn0 := a } none s
      | .ok ws => parkAfter k (modEng k (returned k (fun i => ws.getD i 0)) s)

/-- A thread whose bundle reaches TR is the current thread (06 R162). -/
def becomeCurrent (k : Nat) (s : State) : State :=
  if engType k = 1 then
    modLane (engLane k) (fun x => if x.cur = some (engIndex k % 8) then x else { x with cur := some (engIndex k % 8), passed := 0 }) s
  else s

/-- A bundle of a thread passes TR (06 R162). -/
def noteThread (k : Nat) (s : State) : State :=
  if engType k = 1 then modLane (engLane k) (fun x => { x with passed := min (x.passed + 1) 64 }) (becomeCurrent k s) else s

/-- A bundle that takes effect. A return comes before a TRAP of the same bundle, which cannot be: both are triggers of ctl. -/
def commitBundle (w : Bundle) (k pc : Nat) (err : Option BusKind) (r : Run) : State :=
  let r := endBundle w k pc r
  let s := settled k r.s
  match r.ret, r.trap with
  | some slot, _ => afterBundle k err (modEng k (fun e => { e with after := some (.ret slot pc) }) s)
  | none, some t => afterBundle k err (modEng k (fun e => { e with after := some (.trap t.1 t.2) }) s)
  | none, none => s

/-- The fault of a return whose RET fails the checks of R121, precise on its bundle (08 R220): the context is read as the bundle
leaves it. -/
def returnFault (k : Nat) (r : Run) : Option Flt :=
  match r.ret with
  | none => none
  | some slot => match readContext r.s k none with
    | .badRet a => some ⟨13, slot, a, 0, 0, false⟩
    | _ => none

/-- A bundle whose encoding is sound and whose moves run: it stalls, faults, starts an access through the matrix, or passes. -/
def runBundle (w : Bundle) (k : Nat) (err : Option BusKind) (ecc : EccOutcome) (s : State) : State :=
  let pc := (eng s k).pc.toNat
  let r := evalBundle s k pc (bundleOf w) none ecc
  if r.stall then s
  else match firstFault r.flt (returnFault k r) with
    | some f => takeFault k f err (becomeCurrent k s)
    | none =>
      match firstAccess r.needs with
      | some x => issueAccess w k [] x (noteThread k s)
      | none => commitBundle w k pc err { r with s := noteThread k r.s }

/-- Whether an asynchronous entry is pending (08 R221). -/
def asyncPending (e : Engine) : Bool := !e.late.isEmpty || e.sketchAbort.isSome || !e.errors.isEmpty

/-- The response to an access of the bundle that waits (05 R147): the bundle's next access, its effect, or its bus error, before which
an access that has been made stays made (log 173). Where an asynchronous entry is due at the same boundary, it comes first (05 R146; 08
R221) and the bundle executes again. -/
def replyBundle (k : Nat) (err : Option BusKind) (ecc : EccOutcome) (s : State) : State :=
  let e := eng s k
  match e.matrix with
  | none => s
  | some x =>
    match x.reply with
    | none => s
    | some y =>
      let s1 := modEng k (fun e => { e with matrix := none }) s
      let pc := e.pc.toNat
      match y.err with
      | none =>
        let got := x.got ++ [(x.unit, y.data)]
        let r := evalBundle s1 k pc (bundleOf x.bundle) (some got) ecc
        match firstAccess r.needs with
        | some z => issueAccess x.bundle k got z s1
        | none => commitBundle x.bundle k pc err r
      | some kind =>
        if asyncPending e then s1
        else if !mayEnter k err s then entryBegins k s
        else takeFault k (addrFault 11 x.slot x.addr (busCode kind)) err s1

/-! ## What precedes a bundle -/

/-- Whether an engine may pass bundles (08 R215, R224; 06 R165). -/
def mayRun (s : State) (k : Nat) : Bool :=
  (eng s k).run == .running && (if 1024 ≤ k then !domLost s 8 else lanesUp s) && (engType k != 1 || bit (rdReg s (lnPage (engLane k)) 0x700) (engIndex k % 8))

/-- The vectors of the pending interrupts of a management pair (08 R217; 14 R375; 19 R476, R480; 13 R365; 15 R407). -/
def pairInterrupt (s : State) (k : Nat) : Option Nat :=
  let pci := pageIndex ⟨.pcie, 0⟩
  if fld (rdReg s (pageIndex ⟨.mc, k - 1024⟩) 0x700) 31 30 ≠ 1 then none
  else if s.irqOut.any (fun o => o.2 && irqCounts s o.1) then some 34
  else if rdReg s pci 0x704 ≠ 0 ∨ bit (rdReg s pci 0x700) 30 then some 35
  else if rdReg s (pageIndex ⟨.fb, 0⟩) 0x77C ≠ 0 then some 36
  else if s.anvil.any (fun x => x.2.state == 1) then some 37
  else none

/-- The lowest pending interrupt (08 R223). -/
def interrupt (s : State) (k : Nat) : Option Nat :=
  let e := eng s k
  if e.bell ≠ 0 then some 32
  else if !e.coreStuck.isEmpty then some 33
  else if 1024 ≤ k then pairInterrupt s k
  else none

/-- The bundle at pc. -/
def bundleAt (s : State) (k : Nat) : BundleF := bundleOf (fetchBundle s k (eng s k).pc.toNat)

/-- Whether an uninterruptible repeat is under way (R126): from its first iteration on, stalled or not (05 R141). -/
def repeatHolds (s : State) (k : Nat) : Bool :=
  let e := eng s k
  (e.rptLive || e.rptBusy) && (fetchFault s k e.pc.toNat none).isNone && (bundleAt s k).rpt && !(bundleAt s k).rpti

/-- Whether a boundary lies before the engine: no bundle of it waits for a response, and no TRAP or return is still to be taken, which
come before any other entry (log 137). -/
def atBoundary (e : Engine) : Bool := e.matrix.isNone && e.after.isNone

/-- The interrupt that is taken at this boundary (R109, R141, R221, R223). -/
def interruptDue (s : State) (k : Nat) : Option Nat :=
  let e := eng s k
  if e.ie && atBoundary e && !repeatHolds s k then interrupt s k else none

/-- Whether an asynchronous entry is due (08 R221). -/
def asyncDue (e : Engine) : Bool := atBoundary e && asyncPending e

/-! ## The threads of a lane (06 R162, R186) -/

/-- Whether the next bundle of an engine is blocked (06 R162). -/
def blocked (s : State) (k : Nat) : Bool :=
  let e := eng s k
  match e.matrix with
  | some x => x.reply.isNone
  | none =>
    if e.after.isSome then !canDrain e
    else if asyncPending e || (waitFailure e).isSome then false
    else if holds e then true
    else (fetchFault s k e.pc.toNat none).isNone && (evalBundle s k e.pc.toNat (bundleAt s k) none).stall

/-- LN_THR_CTL.PRI of a thread. -/
def threadPri (s : State) (l t : Nat) : Bool := bit (rdReg s (lnPage l) 0x700) (8 + t)

/-- Whether a thread is ready (R162 item 1). -/
def threadReady (s : State) (l t : Nat) : Bool := mayRun s (512 + 8 * l + t) && !blocked s (512 + 8 * l + t)

/-- The thread that issues next (R162 items 2-6): the current one, unless it is not ready, a thread of higher priority is, or it has
passed 64 bundles and one of equal or higher priority is. The round starts after the current thread, at thread 0 where none is
(log 100). -/
def chosenThread (s : State) (l : Nat) : Option Nat :=
  let round := match (lane s l).cur with
    | some c => (List.range 8).map (fun i => (c + 1 + i) % 8)
    | none => List.range 8
  let ready := round.filter (threadReady s l)
  let next := fun (ts : List Nat) => (ts.find? (threadPri s l)).or ts.head?
  match (lane s l).cur with
  | none => next ready
  | some c =>
    let others := ready.filter (fun t => t != c)
    if !ready.contains c then next others
    else if !threadPri s l c && others.any (threadPri s l) then next others
    else if 64 ≤ (lane s l).passed && others.any (fun t => threadPri s l t || !threadPri s l c) then next others
    else some c

/-- Whether an engine's bundle passes TR next: in a lane, only that of the thread chosen. -/
def mayIssue (s : State) (k : Nat) : Bool := engType k != 1 || chosenThread s (engLane k) == some (engIndex k % 8)

/-- What a bundle meets on the matrix as it is fetched, and as its context is stacked or read back. -/
def fetchErr : Option AccessErr → Option BusKind
  | some (.fetch k) => some k
  | _ => none

def stackErr : Option AccessErr → Option BusKind
  | some (.stack k) => some k
  | _ => none

/-- What the ECC check of a word that a bundle reads directly finds. -/
def wordErr : Option AccessErr → EccOutcome
  | some (.word o) => o
  | _ => .clean

/-- The fault of a fetch. The MX page captures an error of the matrix (11 R309). -/
def takeFetchFault (k : Nat) (f : Flt) (s : State) : State :=
  if 1024 ≤ k ∧ f.vec = 11 ∧ mayEnter k none s then
    let a := segBase (seg (eng s k) 0) + (eng s k).pc.toNat
    let kind : BusKind := match f.syn1 / 2 ^ 16 with | 1 => .decode | 2 => .timeout | 4 => .domain | 5 => .ecc | _ => .target
    takeFault k f none (portFails (engMaster k) a (if targetOf s a = .bootRom then 4 else 16) false kind s)
  else takeFault k f none s

/-- The next bundle of an engine at a boundary where no entry is due; iteration tells whether it continues a repeat. -/
def issueNow (k : Nat) (iteration : Bool) (err : Option AccessErr) (s : State) : State :=
  let pc := (eng s k).pc.toNat
  if fetchHeld s k && fetchErr err != some .timeout then s
  else match fetchFault s k pc (fetchErr err) with
    | some f => if iteration then s else takeFetchFault k f (becomeCurrent k s)
    | none =>
      let w := fetchBundle s k pc
      let s := noteFetch k pc s
      let b := bundleOf w
      if (b.rpt && (eng s k).rptLive) != iteration then s
      else match encodingFault s k w with
        | some f => takeFault k f (stackErr err) (becomeCurrent k s)
        | none =>
          if b.rpt && !iteration && immOf b == 0 then settled k (noteThread k (nextPc w { s := s } k pc).s)
          else
            let s := if b.rpt && !iteration then modEng k (fun e => { e with rptc := w32 (immOf b), rptBusy := true }) s else s
            runBundle w k (stackErr err) (wordErr err) s

/-- BUNDLE_ISSUE and REPEAT_ITERATION: the engine's next bundle, where no entry is due and nothing holds it. A bundle that has passed
TR before comes first: its response, its TRAP or its return. The free value of the bundle is used up. -/
def issueNext (k : Nat) (iteration : Bool) (err : Option AccessErr) (s : State) : State :=
  let e := eng s k
  if e.run != .running || domLost s 8 then s
  else if e.matrix.isSome then tick (replyBundle k (stackErr err) (wordErr err) s)
  else if e.after.isSome then afterBundle k (stackErr err) s
  else if !mayRun s k ∨ asyncDue e ∨ (interruptDue s k).isSome ∨ !mayIssue s k then s
  else match waitFailure e with
    | some q => if iteration then s else takeFault k (queueFault 0 q) (stackErr err) (becomeCurrent k s)
    | none => if holds e then s else tick (issueNow k iteration err s)

/-- As issueNext, unless a park waits for an entry that is no longer due: the engine stops at this boundary (08 R229). -/
def issue (k : Nat) (iteration : Bool) (err : Option AccessErr) (s : State) : State :=
  let t := issueNext k iteration err s
  if (eng s k).parkDue && (eng t k).run == .running && !(eng t k).entering && (eng t k).after.isNone then parkAfter k s else t

/-! ## The other engine commands -/

/-- The hold of tm.delay ends, its cycles being over (R140). -/
def delayOver (k : Nat) (s : State) : State :=
  match (eng s k).delay with
  | some t => modEng k (fun e => { e with delay := none }) (reach t s)
  | none => s

/-- The next asynchronous entry is taken at the boundary (08 R221, R222). -/
def asyncEntry (k : Nat) (err : Option BusKind) (s : State) : State :=
  let e := eng s k
  if !mayRun s k ∨ !asyncDue e then s
  else if !mayEnter k err s then entryBegins k s
  else
    let pc := e.pc.toNat
    match e.late with
    | x :: xs => takeEntry k { vec := 12, ret := pc, syn0 := x.addr % 2 ^ 32, syn1 := x.addr / 2 ^ 32 % 2 ^ 16 + x.kind * 2 ^ 16 } err (setEng k { e with late := xs } s)
    | [] =>
      match e.sketchAbort with
      | some a => takeEntry k { vec := 24, ret := pc, syn0 := a.2.toNat, detail := a.1 } err (setEng k { e with sketchAbort := none } s)
      | none =>
        match e.errors with
        | x :: xs => takeEntry k { vec := x.1, ret := pc, syn0 := x.2 } err (setEng k { e with errors := xs } s)
        | [] => s

/-- The pending interrupt is taken at the boundary (08 R223). -/
def interruptEntry (k : Nat) (err : Option BusKind) (s : State) : State :=
  let e := eng s k
  match (if !mayRun s k ∨ asyncDue e then none else interruptDue s k) with
  | none => s
  | some v =>
    if !mayEnter k err s then entryBegins k s
    else if v = 32 then takeEntry k { vec := 32, ret := e.pc.toNat, detail := e.bell.toNat } err (setEng k { e with bell := 0 } s)
    else if v = 33 then takeEntry k { vec := 33, ret := e.pc.toNat, detail := e.coreStuck.headD 0 } err (setEng k { e with coreStuck := e.coreStuck.tail } s)
    else takeEntry k { vec := v, ret := e.pc.toNat } err s

/-- A bundle that waits on an emit takes the emit fault that has arisen (05 R160; 06 R176), whatever else it waits for. A repeat bundle
with COUNT 0 emits nothing and never waits (04 R125). -/
def emitWaitFault (k : Nat) (err : Option BusKind) (s : State) : State :=
  let e := eng s k
  if !mayRun s k ∨ !atBoundary e ∨ asyncDue e ∨ (interruptDue s k).isSome ∨ holds e ∨ (fetchFault s k e.pc.toNat none).isSome then s
  else
    let w := fetchBundle s k e.pc.toNat
    let b := bundleOf w
    if (encodingFault s k w).isSome || (b.rpt && !e.rptLive && immOf b == 0) then s
    else match (evalBundle s k e.pc.toNat b none).ended with
      | some f => takeFault k f err s
      | none => s

/-- The base of the unit whose residue check covers a socket (04 R131; 06 R168; 15 R403): alu, cmp, mul, div, the vector unit, the
address and target adders of lsu, tas, br and q, the loop unit and the Sketch unit. The loop unit has no base but LOOP, the Sketch unit
that of the customer block (log 138). -/
def residueBase (k sock : Nat) : Option Nat :=
  if [0x100, 0x120, 0x140, 0x160, 0x1A0, 0x1C0, 0x1E0, 0x220].contains (sock / 0x20 * 0x20) then some (sock / 0x20 * 0x20)
  else if sock = 0x53 then some 0x53
  else if engType k = 1 ∧ 0x400 ≤ sock ∧ sock < 0x600 then some 0x400
  else if engType k = 1 ∧ 0x1C00 ≤ sock then some 0x1C00
  else none

/-- A residue or parity error reaches the engine (04 R131; 08 R221): RESIDUE with its unit base, or TRANSPORT_PARITY with its socket. -/
def residueError (k : Nat) (parity : Bool) (sock : Nat) (s : State) : State :=
  let add := fun (x : Nat × Nat) => modEng k (fun e => { e with errors := e.errors ++ [x] }) s
  if parity then add (26, sock) else match residueBase k sock with
    | some b => add (25, b)
    | none => s

/-- The head entry leaves the store buffer. -/
def popStore (k : Nat) (s : State) : State :=
  modEng k (fun e => { e with stores := e.stores.tail, storesOut := e.storesOut + 1 }) s

/-- Whether an engine can take one more bus error of a store: it holds at most 8 reports (08 R222), and with 8 of them the response is
still to come. -/
def takesLate (e : Engine) : Bool := e.run == .stuck || decide (e.late.length < 8)

/-- The head entry of the store buffer meets a bus error. -/
def storeBusError (k kind : Nat) (s : State) : State :=
  match (eng s k).stores with
  | [] => s
  | x :: _ => settled k (storeFails k x.addr kind (popStore k s))

/-- The head entry of the store buffer has been written. -/
def storeLeaves (k : Nat) (s : State) : State := if (eng s k).stores.isEmpty then s else settled k (popStore k s)

/-- The oldest request outstanding, where one is. -/
def fillQueue (f : QueueReq → QueueReq) : List QueueReq → List QueueReq
  | [] => []
  | q :: qs => if q.words.isNone && q.failed.isNone then f q :: qs else q :: fillQueue f qs

/-- The kind with which a request fails by the state of its target or by an uncorrectable word (09 R236; 01 R23; 05 R147), none where its
data come. -/
def queueFailure (s : State) (a : Nat) (ecc : EccOutcome) : Option Nat :=
  match targetOf s a with
  | .hbm n => if domLost s (10 + n) then some 4 else if ecc = .uncorrectable then some 5 else none
  | t => if !targetOn s t then some 3 else if ecc = .uncorrectable then some 5 else none

/-- The words of some bytes. -/
def dwordsOf (bs : List Byte) (n : Nat) : List DWord := (List.range n).map (fun i => BitVec.ofNat 64 (leNat ((bs.drop (8 * i)).take 8)))

/-- The oldest outstanding request of a core or a thread has all its words, or fails (09 R233-R236). An ECC event of its words is reported and
counted where its target allows the read (17 R446). -/
def queueArrives (k : Nat) (ecc : EccOutcome) (s : State) : State :=
  match (eng s k).queue.find? (fun q => q.words.isNone && q.failed.isNone) with
  | none => s
  | some q =>
    let f := queueFailure s q.addr ecc
    let s := if f = none ∨ f = some 5 then eccMeets (targetOf s q.addr) ecc s else s
    sampleStack q.addr <| modEng k (fun e => armWaits { e with queue := fillQueue (fun q => match f with
      | some c => { q with failed := some c }
      | none => { q with words := some (dwordsOf (q.seen.getD (memRead s q.addr (8 * q.len))) q.len) }) e.queue }) s

/-- The response to a queue request of a management pair (R235); one that the queue has discarded is dropped. -/
def queueReply (k serial : Nat) (data : List Byte) (err : Option BusKind) (s : State) : State :=
  let a := ((eng s k).queue.find? (fun q => q.serial == serial)).elim 0 (·.addr)
  sampleStack a <| modEng k (fun e => armWaits { e with queue := e.queue.map (fun q =>
    if q.serial ≠ serial then q else match err with
      | some b => { q with failed := some (busCode b) }
      | none => { q with words := some (dwordsOf (overlay q.addr q.under data) q.len) }) }) s

/-- The response to the load of the bundle that waits. -/
def loadReply (k : Nat) (data : List Byte) (err : Option BusKind) (s : State) : State :=
  modEng k (fun e => { e with matrix := e.matrix.map (fun w => { w with reply := some ⟨data, err⟩ }) }) s

/-! ## Threads (06 R165, R186) -/

/-- A change of LN_THR_CTL (06 R165): a thread's first EN starts it at its reset entry. In Service-Safe no engine is released (18 R456). -/
def thrCtlWrite (l : Nat) (v : Word) (s : State) : State :=
  let s := wrReg (lnPage l) 0x700 (w32 (v.toNat % 2 ^ 16)) s
  forUpTo 8 s (fun t s =>
    if bit v t && !bit (rdReg s devPage 0x700) 29 && !(lane s l).started.contains t then
      modEng (512 + 8 * l + t) (fun e => if e.run = .off then { e with run := .running, mode := 1, pc := 0 } else e)
        (modLane l (fun x => { x with started := x.started ++ [t] }) s)
    else s)

/-- ST of a thread in LN_THR_STAT (06 R186). A current thread whose bundle is blocked reads BLOCKED, which the spec leaves open (log
139). -/
def threadState (s : State) (l t : Nat) : Nat :=
  let k := 512 + 8 * l + t
  if (eng s k).run = .stuck then 4
  else if !bit (rdReg s (lnPage l) 0x700) t then 0
  else if blocked s k then 3
  else if (lane s l).cur = some t then 2 else 1

/-! ## The engine control unit (08 R227-R229) -/

/-- The target that ec.sel names, where there is one. -/
def ecTarget (sel : Word) : Option Nat :=
  let t := fld sel 31 28
  let i := fld sel 23 12
  if 2 ≤ t ∨ 512 ≤ i then none else some (512 * t + i)

/-- STATE: 0 OFF, 1 RUNNING, 2 DRAINING, 3 STUCK. A target whose park waits for an entry is DRAINING (log 176). -/
def ecState (s : State) (k : Nat) : Nat :=
  let e := eng s k
  match e.run with
  | .stuck => if e.ops.isEmpty && e.stores.isEmpty then 3 else 2
  | .off => 0
  | .running => if e.parkDue then 2 else if engType k = 1 ∧ !bit (rdReg s (lnPage (engLane k)) 0x700) (engIndex k % 8) then 0 else 1

/-- The STUCK syndrome. -/
def ecSyn (s : State) (k : Nat) : Nat :=
  let e := eng s k
  if e.run = .stuck then e.cause + e.stuckVec * 2 ^ 8 + e.stuckErrs * 2 ^ 16 + e.stuckPc.toNat * 2 ^ 32 else 0

/-- The ports with two sets and their widths. -/
def bankedPorts : List (Nat × Nat) :=
  [(0x100, 32), (0x108, 32), (0x120, 32), (0x128, 32), (0x140, 32), (0x148, 32), (0x160, 32), (0x168, 32), (0x188, 32),
   (0x1A0, 32), (0x1A1, 32), (0x1A2, 64), (0x1A9, 64), (0x1C0, 32), (0x1C8, 32), (0x1E8, 32), (0x249, 32)]

/-- Those of a lane sequencer beside them. -/
def threadPorts : List (Nat × Nat) :=
  [(0x400, 256), (0x401, 256), (0x410, 256), (0x411, 32), (0x491, 32), (0x511, 32), (0x591, 32),
   (0x600, 56), (0x601, 56), (0x602, 56), (0x603, 32), (0x608, 56), (0x609, 32), (0x620, 56), (0x621, 56), (0x622, 56), (0x623, 32),
   (0x628, 56), (0x629, 32), (0x640, 56), (0x641, 56), (0x642, 56), (0x643, 32), (0x648, 56), (0x649, 32),
   (0x660, 32), (0x668, 56), (0x680, 64), (0x681, 32), (0x688, 32)]

/-- Both port sets become undefined (R228): free values. -/
def freePorts (k : Nat) (s : State) : State :=
  forEach (bankedPorts ++ if engType k = 1 then threadPorts else []) s (fun p s =>
    forEach [false, true] s (fun priv s => tick (modEng k (setPort priv p.1 (BitVec.ofNat 256 (freeVal p.2 s))) s)))

/-- An engine restarted at an offset (R228; 09 R237). -/
def restarted (fsp at_ : Word) (e : Engine) : Engine :=
  { emptyQueue e with run := .running, cause := 0, stuckVec := 0, stuckErrs := 0, stuckPc := 0, bell := 0, late := [], fsp := fsp, entering := false, parkDue := false,
                      mode := 1, ie := false, lc := 0, rptc := 0, rptLive := false, rptBusy := false, preds := 1, delay := none, matrix := none, after := none,
                      fence := false, flush := false, loopBuf := { phase := .off }, fetchBuf := none, pc := setFld at_ 3 0 0 }

/-- A restarted thread has started: EN resumes it at its offset (R228). -/
def markStarted (k : Nat) (s : State) : State :=
  if engType k = 1 ∧ !(lane s (engLane k)).started.contains (engIndex k % 8) then
    modLane (engLane k) (fun x => { x with started := x.started ++ [engIndex k % 8] }) s
  else s

/-- What the transactions of an engine bring will be discarded (18 R449). -/
def dropAll (k : Nat) (s : State) : State :=
  let own := fun (u : TransUse) => match u with
    | .load j | .store j | .lr j | .sc j | .tas j _ | .tasLate j _ | .queue j _ => j == k
    | _ => false
  { s with trans := s.trans.map (fun t => if own t.use then { t with use := .dropped } else t) }

/-- The response to an access of the bundle of an engine that waits will be discarded: its bundle is abandoned (R229). -/
def dropLoad (k : Nat) (s : State) : State :=
  let own := fun (u : TransUse) => match u with
    | .load j | .lr j | .sc j | .tas j _ => j == k
    | _ => false
  { s with trans := s.trans.map (fun t => if own t.use then { t with use := .dropped } else t) }

/-- An engine is stopped with cause PARKED (R229), after the entry or the return that it has begun; one in STUCK keeps its cause. -/
def parkEngine (k : Nat) (s : State) : State :=
  let e := eng s k
  if e.run = .stuck then s
  else if e.entering || e.after.isSome then modEng k (fun e => { e with parkDue := true }) s
  else enterStuck k 5 0 [] (dropLoad k s)

/-- One operation of the unit: OUTCOME and the state after. The domain of a core is its tile's, of a thread D8 (log 102). -/
def ecOperate (q : EcRequest) (s : State) : Nat × State :=
  match ecTarget q.sel with
  | none => (3, s)
  | some k =>
    if (k < 512 && domLost s (engLane k / 8)) || domLost s 8 then (4, s)
    else match q.trig with
      | 0 => (0, s)
      | 1 =>
        if ecState s k = 2 then (2, s)
        else if ecState s k ≠ 3 then (1, s)
        else (0, markStarted k (freePorts k (modEng k (restarted q.fsp q.arg) s)))
      | 2 => (0, parkEngine k s)
      | _ => (0, modEng k (fun e => { e with bell := e.bell ||| q.arg.setWidth 8 }) s)

/-- The value of ec.res. -/
def ecRes (s : State) (q : EcRequest) (outcome : Nat) : Nat :=
  outcome + 16 * (match ecTarget q.sel with | some k => ecState s k | none => 0)

/-- EC_OPERATION_COMPLETE (R227). -/
def ecComplete (p : Nat) (s : State) : State :=
  let k := 1024 + p
  match (eng s k).ops.find? (fun o => o.ec.isSome) with
  | none => s
  | some o =>
    match o.ec with
    | none => s
    | some q =>
      let r := ecOperate q s
      let s := r.2
      let vals : List (Nat × Wide) := o.vals.map (fun v =>
        (v.1, BitVec.ofNat 256 (if v.1 = 0x808 then ecRes s q r.1 else match ecTarget q.sel with | some t => ecSyn s t | none => 0)))
      modEng k (fun e => landOp { o with vals := vals } { e with ops := e.ops.filter (fun x => x.ec.isNone) }) s

end Sys2Proof.Machine
end

