-- ==== Sys2Proof/Machine/Hang.lean ====
section
/-! DEFINITION. Canvas, Easel and Hang (spec 12 R312-R330, R334). -/

namespace Sys2Proof.Machine

def hangPage : Nat := pageIndex ⟨.hang, 0⟩

/-! ## Slots and groups -/

def hangSlot (s : State) (i : Nat) : HangSlot := smGet {} s.hang i
def setHang (i : Nat) (x : HangSlot) (s : State) : State := { s with hang := smPut {} s.hang i x }

/-- The pages of a hang group, in order of index (R318). Pages that never had a group are not listed in State.regs. -/
def groupPages (s : State) (g : Nat) : List Nat :=
  (smKeys (fun k w => k < 2 ^ 26 && k % 4096 == 0x02C && bit w 8 && fld w 7 0 == g) s.regs).map (fun k => k / 4096)

/-- The cluster a page is tied to (R319). -/
def tiedCluster : Page → Option Nat
  | ⟨.ch, n⟩ => some (clusterOf n)
  | ⟨.pal, l⟩ | ⟨.ln, l⟩ | ⟨.lscr, l⟩ => some (clusterOfLane l)
  | ⟨.cl, k⟩ | ⟨.wd, k⟩ => some k
  | _ => none

/-- The cluster of a page index. -/
def tied (p : Nat) : Option Nat := (pageAt p).bind tiedCluster

/-- The first stroke boundary of a cluster at or after an instant (03 R78). -/
def boundaryAt (s : State) (k t : Nat) : Nat :=
  let b := base s k
  let p := 8 * period s k
  if t ≤ b.next ∨ p = 0 then b.next else b.next + (t - b.next + p - 1) / p * p

/-- H of a Local Hang (R320). -/
def localInstant (s : State) (k : Nat) (at_ : Nat) : Nat :=
  if (base s k).running then boundaryAt s k (at_ + 500 * ns) else at_ + 500 * ns

/-- HG_AT. -/
def hangAt (s : State) : Nat := rd64 s hangPage 0x700 * ns + fld (rdReg s hangPage 0x708) 15 0

/-! ## Acceptance (R321) -/

/-- The domain of a page index. -/
def domainOfPage (p : Nat) : Nat := match pageAt p with | some x => pageDomain x | none => 8

/-- Whether every register of a bankable Easel word holds an unreserved encoding (R321 item 7). -/
def easelEncodings (s : State) (p : Nat) : Bool :=
  match pageAt p with
  | none => true
  | some x => (regsOf x.kind).all (fun r => !r.bankable || (List.range r.count).all (fun i =>
      wordValid r.fields (rdRole s true p (r.off + r.stride * i))))

/-- Whether a page of a cluster switches at one of its boundaries, not at H: its timebase runs at H (R322; 03 R78). -/
def runsAt (s : State) (k h : Nat) : Bool := (base s k).en && ((base s k).running || decide ((base s k).next ≤ h))

/-- The count of the stroke that begins at the next boundary of a cluster (03 R78, R80). -/
def nextCount (b : Timebase) : Nat := if b.ranEver then b.count + 1 else 0

/-- Whether a set-up stream of a cluster is stopped by the Hang (R321): its own page stops it, or its END boundary lies at or before the
switch boundary. -/
def streamEnds (s : State) (pages : List Nat) (k h c : Nat) : Bool :=
  let x := chan s c
  let b := base s k
  let n := (boundaryAt s k h - b.next) / max 1 (8 * period s k)
  x.stream == .idle || (pages.contains (chPage c) && !bit (rdRole s true (chPage c) 0x240) 0)
    || (x.last != 0 && runsAt s k h && decide (x.last ≤ nextCount b + n))

/-- The checks of a CL page's Easel (03 R77, R79). -/
def clusterEaselOk (s : State) (pages : List Nat) (k h : Nat) : Bool :=
  let p := clPage k
  let per := (rdRole s true p 0x100).toNat + 2 ^ 32 * (rdRole s true p 0x104).toNat
  let t0 := ((rdRole s true p 0x110).toNat + 2 ^ 32 * (rdRole s true p 0x114).toNat) * ns + fld (rdRole s true p 0x118) 15 0
  let new := bit (rdRole s true p 0x108) 0
  let old := bit (rdReg s p 0x108) 0
  periodValid per && (old || !new || decide (h + 2 * us ≤ t0))
    && (!old || new || (List.range 64).all (fun q => streamEnds s pages k h (chanOfCluster k q)))

/-- Whether PM_CFGp holds no reserved encoding (09 R246): with EN = 1, INT is not 0. -/
def markCfgOk (w : Word) : Bool := !(bit w 31 && fld w 15 0 == 0)

/-- Whether a page's Easel would be accepted as live writes (R321 item 7). -/
def easelOk (s : State) (pages : List Nat) (h p : Nat) : Bool :=
  easelEncodings s p && (match pageAt p with
    | some ⟨.ch, _⟩ => chanValid (fun o => rdRole s true p o)
    | some ⟨.cl, k⟩ => clusterEaselOk s pages k h
    | some ⟨.pmark, _⟩ => (List.range 64).all (fun i => markCfgOk (rdRole s true p (0x100 + 4 * i)))
    | _ => true)

/-- Whether a page would change CH_FUNC.MODE (R321 item 6). -/
def modeChanges (s : State) (p : Nat) : Bool :=
  match pageAt p with
  | some ⟨.ch, _⟩ => bit (rdReg s p 0x100) 8 != bit (rdRole s true p 0x100) 8
  | _ => false

/-- Whether a channel page names a site in either set (R320). -/
def namesSite (s : State) (c g : Nat) : Bool :=
  let named := fun (w : Word) => bit w 7 && fld w 6 0 == g
  named (rdReg s (chPage c) 0x104) || named (rdRole s true (chPage c) 0x104)

/-- The lowest of two pages. -/
def lowestPage (l : List Nat) : Option Nat := l.foldl (fun m p => match m with | some x => some (min x p) | none => some p) none

/-- Whether the restriction of a scope fails (R320), and the lowest page at which it does: a group beyond 127 fails it as a group. -/
def scopeFails (s : State) (a : HangAsk) (pages : List Nat) : Option (Option Nat) :=
  let at_ (l : List Nat) := (lowestPage l).map some
  match a.scope with
  | 0 => at_ (pages.filter (fun p => tied p != some a.cluster))
  | 1 => if 127 < a.group then some none
         else at_ (((List.range 512).filter (fun c => namesSite s c a.group && !pages.contains (chPage c))).map chPage)
  | _ => none

/-- The least lead of H over the arrival: 2 µs, and for a Fabric Hang on its originator the propagation bound besides (R321;
13 R364). -/
def hangLead (s : State) (a : HangAsk) (origin : Bool) : Nat :=
  if origin ∧ a.scope = 3 then (2200 * fld (rdReg s (pageIndex ⟨.fb, 0⟩) 0x714) 5 0 + 2000) * ns + 2 * us else 2 * us

/-- The first check that fails (R321): the code of HG_SLOTs.ERR and the page for HG_BADPG. -/
def hangError (s : State) (a : HangAsk) (pages : List Nat) (origin : Bool) : Option (Nat × Option Nat) :=
  if pages.isEmpty then some (7, none)
  else if a.scope ≠ 0 ∧ a.h < a.at_ + hangLead s a origin then some (2, none)
  else if (a.scope = 3 ∧ (hangSlot s a.slot).st = 1) ∨ pages.any (hangArmed s) then some (3, none)
  else match scopeFails s a pages with
    | some p => some (4, p)
    | none => match lowestPage (pages.filter (fun p => domLost s (domainOfPage p))) with
      | some p => some (5, some p)
      | none => match lowestPage (pages.filter (modeChanges s)) with
        | some p => some (8, some p)
        | none => (lowestPage (pages.filter (fun p => !easelOk s pages a.h p))).map (fun p => (1, some p))

/-- HG_SLOTs. -/
def slotWord (x : HangSlot) : Word :=
  w32 (x.st * 2 ^ 30 + x.degraded.toNat * 2 ^ 29 + x.err * 2 ^ 24 + x.scope * 2 ^ 16 + x.group * 2 ^ 8 + x.cluster)

/-- A slot becomes REFUSED (R334), with its Patina event (16 R425). -/
def slotRefused (i : Nat) (x : HangSlot) (s : State) : State :=
  offer 0x8001 1 hangPage false (leBytes 4 (slotWord x).toNat) (raiseBit hangPage 1 (setHang i x s))

/-- HG_BADPG records the page while V = 0. -/
def badPage (p : Option Nat) (s : State) : State :=
  match p with
  | some p => modReg hangPage 0x740 (fun w => if bit w 31 then w else w32 (0x80000000 + p)) s
  | none => s

/-- The Hang of a decision: armed, or refused as a whole, which is a refused command (14 R377). -/
def decideHang (a : HangAsk) (origin : Bool) (s : State) : State :=
  let pages := groupPages s a.group
  match hangError s a pages origin with
  | none => setHang a.slot { st := 1, scope := a.scope, group := a.group, cluster := a.cluster, h := a.h, pages := pages, left := pages } s
  | some (e, p) =>
    let s := capture hangPage fREFUSED 0x70C a.mst s
    if (hangSlot s a.slot).st = 1 then s
    else slotRefused a.slot { st := 3, err := e, scope := a.scope, group := a.group, cluster := a.cluster } (badPage p s)

/-! ## COPY (R327) -/

/-- Whether a group belongs to an armed Hang. -/
def groupArmed (s : State) (g : Nat) : Bool := s.hang.any (fun e => e.2.st == 1 && e.2.group == g)

/-- What a COPY takes of a bankable register: what is in force (R316, R327). CH_FUNC.SRC takes effect as it is written, a change of
CL_STRK_CTL.EN to 0 at a boundary. -/
def copied (s : State) (p off : Nat) : Word :=
  let v := inForce s p off
  match pageAt p with
  | some ⟨.ch, _⟩ => if off = 0x100 then setBit v 4 (bit (rdReg s p off) 4) else v
  | some ⟨.cl, k⟩ => if off = 0x108 then setBit v 0 (base s k).en else v
  | _ => v

/-- The Canvas of a page is copied into its Easel, with the Palette sets of a channel page. -/
def copyPage (p : Nat) (s : State) : State :=
  match pageAt p with
  | none => s
  | some x =>
    let s1 := forEach (regsOf x.kind) s (fun r s => if !r.bankable then s
      else forUpTo r.count s (fun i s => wrRole true p (r.off + r.stride * i) (copied s p (r.off + r.stride * i)) s))
    match x with
    | ⟨.ch, c⟩ =>
      let easel := !smGet false s.swapped p
      forUpTo 256 s1 (fun w s => { s with pal := smPut 0 s.pal (palKey c easel w) (palWord s c w) })
    | _ => s1

/-- Whether a COPY in progress has a page still to copy. -/
def toCopy (s : State) (p : Nat) : Bool := s.copies.any (fun l => l.contains p)

/-- Before a change of a page, a COPY that has it still to copy may do so or not: its instants are free (R327, log 8). -/
def mayCopy (p : Nat) (s : State) : State :=
  if !toCopy s p then s
  else if freeVal 1 s = 1 then copyPage p { tick s with copies := s.copies.map (fun l => l.filter (fun q => q != p)) }
  else tick s

/-- The same for every page tied to a cluster, at its boundaries. -/
def mayCopyTied (k : Nat) (s : State) : State := forEach (s.copies.flatten.filter (fun p => tied p == some k)) s mayCopy

/-- Before a write to a page: a write to a CL page can end the strokes that its other pages wait for. -/
def copyBefore (page : Nat) (s : State) : State :=
  match pageAt page with
  | some ⟨.cl, k⟩ => mayCopyTied k s
  | _ => mayCopy page s

/-- COPY_COMPLETE: the first COPY in progress has copied what was left. -/
def copyDone (s : State) : State :=
  match s.copies with
  | [] => s
  | l :: ls => forEach l { s with copies := ls } copyPage

/-! ## Switching (R322, R323, R325) -/

/-- The switch of a channel page with its Palette sets: what its Canvas held gives way at the boundary, or at once. At a boundary the old
CH_FUNC, CH_STRM and CH_PMU stay in force until it acts on the change of them (02 R59). A live 0 of RUN that waits for this boundary is
kept where the new Canvas holds 1 (03 R85). -/
def switchChannel (c : Nat) (s : State) : State :=
  let p := chPage c
  let edge := strokesRun s c || boundaryNow s (clusterOf c)
  let s := if edge then endStroke c s else s
  let old := rdReg s p 0x100
  let oldFunc := inForce s p 0x100
  let oldStrm := inForce s p 0x240
  let oldPmu := inForce s p 0x150
  let zero := bit oldStrm 0 && !bit (rdReg s p 0x240) 0
  let swap := fun s => dropHeld c { s with swapped := smPut false s.swapped p (!smGet false s.swapped p) }
  let note := fun s => srcChange c old (rdReg s p 0x100) (modChan c (fun x => { x with runToggled := zero }) s)
  if edge then
    let s := note (swap (holdForce c s))
    { s with held := smInsert (smInsert (smInsert s.held (regKey false p 0x100) oldFunc) (regKey false p 0x150) oldPmu) (regKey false p 0x240) oldStrm }
  else changeSettings c false (fun s => note (swap s)) s

/-- The switch of a CL page. -/
def switchCluster (k : Nat) (s : State) : State :=
  let p := clPage k
  let cap := captureOn s k
  let s := { s with swapped := smPut false s.swapped p (!smGet false s.swapped p) }
  let s := publish k (captureChange k cap s)
  let en := bit (rdReg s p 0x108) 0
  if en ∧ !(base s k).en then timebaseStart k 0 s
  else if !en ∧ (base s k).en ∧ !(base s k).running then timebaseStop k s
  else s

/-- A page's sets change roles and its epoch counts (R322, R329). -/
def switchPage (p : Nat) (s : State) : State :=
  let s := modReg p 0x028 (fun w => w + 1) s
  match pageAt p with
  | some ⟨.ch, c⟩ => switchChannel c s
  | some ⟨.cl, k⟩ => switchCluster k s
  | some x =>
    if hasBank x.kind then { s with swapped := smPut false s.swapped p (!smGet false s.swapped p) } else if p = fbPage then publishFabric s else s
  | none => s

/-- A page is skipped: its domain is, or has been since acceptance, lost or in reset (R325). -/
def skipPage (i p : Nat) (s : State) : State :=
  let x := hangSlot s i
  report ⟨0, p, 3, 512 + i, 1, domainOfPage p, []⟩ (raiseBit hangPage 2 (setHang i { x with degraded := true } s))

/-- The last page has switched: the slot is DONE (R334). -/
def hangDone (i : Nat) (s : State) : State :=
  let x := hangSlot s i
  if x.st = 1 ∧ x.left.isEmpty then raiseBit hangPage 0 (modReg hangPage 0x714 (fun w => w + 1) (setHang i { x with st := 2 } s)) else s

/-- One page of an armed Hang switches, or is skipped. -/
def switchOne (i p : Nat) (s : State) : State :=
  let s := if domLost s (domainOfPage p) || (hangSlot s i).lost.contains p then skipPage i p s else switchPage p (mayCopy p s)
  let x := hangSlot s i
  hangDone i (setHang i { x with left := x.left.filter (fun q => q != p) } s)

/-- The switch instant of a page (R322). -/
def switchInstant (s : State) (h p : Nat) : Nat :=
  match tied p with
  | some k => if runsAt s k h then boundaryAt s k h else h
  | none => h

/-- Whether a page's switch is the next thing at its cluster: H lies at or before the next boundary. -/
def switchNext (s : State) (h p : Nat) : Bool :=
  match tied p with
  | some k => !(base s k).en || decide (h ≤ (base s k).next)
  | none => true

/-- The pages of an armed slot that are tied to a cluster and still to switch, its CL page last: that the timebase may stop is decided
when the streams of its channels have ended (03 R79). -/
def tiedLeft (s : State) (i k : Nat) : List Nat :=
  let l := (hangSlot s i).left.filter (fun p => tied p == some k)
  l.filter (fun p => p != clPage k) ++ l.filter (fun p => p == clPage k)

/-- The pages tied to a cluster switch together, at their switch instant. -/
def switchTied (i k : Nat) (s : State) : State :=
  forEach (tiedLeft s i k) s (fun p s => switchOne i p (reach (switchInstant s (hangSlot s i).h p) s))

/-- HANG_PAGE_SWITCH: a page of an armed Hang reaches its switch instant; with the page of a cluster, the pages tied to it switch, whose
instant is the same. -/
def pageSwitches (i p : Nat) (s : State) : State :=
  let x := hangSlot s i
  if x.st = 1 ∧ x.left.contains p ∧ switchNext s x.h p then
    match pageAt p with
    | some ⟨.cl, k⟩ => switchTied i k s
    | _ => switchOne i p (reach (switchInstant s x.h p) s)
  else s

/-- The armed slot with the earliest H that has pages of a cluster to switch at or before its next boundary. -/
def nextHang (s : State) (k : Nat) : Option Nat :=
  (List.range 8).foldl (fun m i =>
    let x := hangSlot s i
    if x.st = 1 ∧ x.h ≤ (base s k).next ∧ x.left.any (fun p => tied p == some k) then
      (match m with | some j => if x.h < (hangSlot s j).h then some i else m | none => some i)
    else m) none

/-- The pages tied to a cluster whose switch instant lies at or before its next boundary switch before the boundary acts. -/
def boundarySwitches (k : Nat) (s : State) : State :=
  if !(base s k).en then s
  else forUpTo 8 s (fun _ s =>
    match nextHang s k with
    | some i => switchTied i k s
    | none => s)

/-- The pages of a domain that is lost or enters reset will be skipped by the Hangs that are armed (R325). -/
def skipDomain (d : Nat) (s : State) : State :=
  forUpTo 8 s (fun i s =>
    let x := hangSlot s i
    if x.st = 1 then setHang i { x with lost := x.lost ++ x.left.filter (fun p => domainOfPage p == d && !x.lost.contains p) } s else s)

/-! ## CANCEL (R326) -/

/-- A slot is disarmed, or the CANCEL comes too late or finds no armed Hang. -/
def cancelSlot (i : Nat) (s : State) : Option State :=
  let x := hangSlot s i
  if x.st = 1 ∧ s.now + us ≤ x.h ∧ x.left.length = x.pages.length then
    some (slotRefused i { st := 3, err := 6, scope := x.scope, group := x.group, cluster := x.cluster } s)
  else none

/-! ## HG_CMD (R334) -/

/-- A HANG written to HG_CMD: rejected, or to be decided. -/
def hangCmd (m : Master) (v : Word) (s : State) : State :=
  let scope := fld v 5 4
  let slot := if scope = 3 then 7 else fld v 26 24
  if (slot = 7 ∧ scope ≠ 3) ∨ (hangSlot s slot).st = 1 ∨ s.hangAsk.isSome then rejectWrite hangPage 0x70C m s
  else
    let k := fld v 18 16
    { s with hangAsk := some ⟨slot, scope, fld v 15 8, k, if scope = 0 then localInstant s k s.now else hangAt s, s.now, fld (rdReg s (pageIndex ⟨.fb, 0⟩) 0x700) 15 0, 0, masterCode m⟩ }

/-- A CANCEL written to HG_CMD. -/
def cancelCmd (m : Master) (v : Word) (s : State) : State :=
  match cancelSlot (if fld v 5 4 = 3 then 7 else fld v 26 24) s with
  | some s' => s'
  | none => rejectWrite hangPage 0x70C m s

/-- A COPY written to HG_CMD. -/
def copyCmd (m : Master) (v : Word) (s : State) : State :=
  if groupArmed s (fld v 15 8) then rejectWrite hangPage 0x70C m s else { s with copies := s.copies ++ [groupPages s (fld v 15 8)] }

end Sys2Proof.Machine
end

