-- ==== Sys2Proof/Machine/Fabric.lean ====
section
/-! DEFINITION. The Amibin fabric (spec 13): ports and the link layer, routing, discovery, emergency blocks, Fabric Time and
the transaction ring. What remote requests do to memory and pages stands in Transfers. -/

namespace Sys2Proof.Machine

def fbrtPage : Nat := pageIndex ⟨.fbrt, 0⟩
def fbpPage (p : Nat) : Nat := pageIndex ⟨.fbp, p⟩
def port (s : State) (p : Nat) : Port := smGet {} s.ports p
def setPortAt (p : Nat) (x : Port) (s : State) : State := { s with ports := smPut {} s.ports p x }
def modPort (p : Nat) (f : Port → Port) (s : State) : State := setPortAt p (f (port s p)) s
def modFab (f : Fabric → Fabric) (s : State) : State := { s with fabric := f s.fabric }

/-- FB_NODE.NODE. -/
def node (s : State) : Nat := fld (rdReg s fbPage 0x700) 15 0

/-- FB_MGR.MGR. -/
def fabManager (s : State) : Nat := fld (rdReg s fbPage 0x710) 15 0

/-- Whether a port is UP. -/
def portUp (s : State) (p : Nat) : Bool := (port s p).st == 3 && !domLost s 9

/-! ## Frames (R337, R338) -/

/-- The virtual channel of a frame type, none where the type is not in the table. -/
def typeVc : Nat → Option Nat
  | 0x01 | 0x02 => some 3
  | 0x03 | 0x04 | 0x08 | 0x09 | 0x0A | 0x0B | 0x16 | 0x18 => some 2
  | 0x05 | 0x06 => some 5
  | 0x07 => some 4
  | 0x10 => some 1
  | 0x14 | 0x15 => some 6
  | _ => none

/-- A frame that this device originates. -/
def newFrame (s : State) (dst type tag addr : Nat) (payload : List Byte) : Frame :=
  { dst := BitVec.ofNat 16 dst, src := BitVec.ofNat 16 (node s), vc := BitVec.ofNat 3 ((typeVc type).getD 0), type := BitVec.ofNat 5 type,
    lseq := 0, tag := BitVec.ofNat 12 tag, ttl := 63, db := false, addr := BitVec.ofNat 48 addr, payload := payload }

/-- One more byte of the reflected IEEE 802.3 CRC-32, before the final XOR (R338). -/
def crc32Byte (c : Word) (b : Byte) : Word :=
  forUpTo 8 (c ^^^ b.setWidth 32) (fun _ c => if c.getLsbD 0 then (c >>> 1) ^^^ 0xEDB88320 else c >>> 1)

/-- The CRC of a frame's header and payload. -/
def crc32 (bs : List Byte) : Word := (bs.foldl crc32Byte 0xFFFFFFFF) ^^^ 0xFFFFFFFF

/-- The 16 bytes of a frame's header, bits [127:120] first (R337). -/
def headerOf (f : Frame) : List Byte :=
  (leBytes 16 (f.dst.toNat * 2 ^ 112 + f.src.toNat * 2 ^ 96 + f.vc.toNat * 2 ^ 93 + f.type.toNat * 2 ^ 88 + f.lseq.toNat * 2 ^ 76 + f.tag.toNat * 2 ^ 64
    + f.payload.length % 512 * 2 ^ 55 + f.ttl.toNat * 2 ^ 49 + f.db.toNat * 2 ^ 48 + f.addr.toNat)).reverse

/-- A frame on the wire: header, payload, CRC, whose byte order is the model's (R337, log 150). -/
def wireOf (f : Frame) : List Byte := headerOf f ++ f.payload ++ leBytes 4 (crc32 (headerOf f ++ f.payload)).toNat

/-- The frame that wire bytes carry; none where the CRC is bad or LEN is above 256 (R338). -/
def frameOf (bs : List Byte) : Option Frame :=
  let h := leNat (bs.take 16).reverse
  let len := h / 2 ^ 55 % 512
  if 256 < len ∨ bs.length ≠ 20 + len then none
  else if leNat (bs.drop (16 + len)) ≠ (crc32 (bs.take (16 + len))).toNat then none
  else some { dst := BitVec.ofNat 16 (h / 2 ^ 112), src := BitVec.ofNat 16 (h / 2 ^ 96), vc := BitVec.ofNat 3 (h / 2 ^ 93), type := BitVec.ofNat 5 (h / 2 ^ 88),
              lseq := BitVec.ofNat 12 (h / 2 ^ 76), tag := BitVec.ofNat 12 (h / 2 ^ 64), ttl := BitVec.ofNat 6 (h / 2 ^ 49), db := h / 2 ^ 48 % 2 == 1,
              addr := BitVec.ofNat 48 h, payload := (bs.drop 16).take len }

/-- Whether a type is port-routed (R342). -/
def portRouted (t : Nat) : Bool := 8 ≤ t && t ≤ 0xB

/-- Whether a type is a request (R345). -/
def isRequest (t : Nat) : Bool := 1 ≤ t && t ≤ 6

/-! ## Sending (R339, R340) -/

/-- The buffer class of a frame: its VC, and in torus mode for VC3 to VC6 its DB. -/
def bufferClass (s : State) (f : Frame) : Nat :=
  f.vc.toNat * 2 + (bit (rdReg s fbPage 0x70C) 2 && 3 ≤ f.vc.toNat && f.db).toNat

/-- What a frame takes of its receive buffer: one of VC1, VC2 and VC6, its bytes of the others. -/
def bufferCost (f : Frame) : Nat := if f.vc = 3 ∨ f.vc = 4 ∨ f.vc = 5 then f.payload.length + 20 else 1

/-- The receive buffers of R339. -/
def bufferSize (cls : Nat) : Nat :=
  match cls / 2 with
  | 1 => 2
  | 2 => 8
  | 3 => 0x4000
  | 4 => 0x8000
  | 5 => 0x4000
  | 6 => 4
  | _ => 0

/-- A frame as it leaves on a port under the rule of the mode (R346): DB is set where the port asks for it. VC1 takes no part. -/
def marked (s : State) (p : Nat) (f : Frame) : Frame :=
  if f.vc = 1 then f else { f with db := f.db || bit (rdReg s (fbpPage p) 0x700) (if bit (rdReg s fbPage 0x70C) 2 then 2 else 1) }

/-- Whether the neighbour has credit for a frame. -/
def hasCredit (s : State) (p : Nat) (f : Frame) : Bool :=
  let c := bufferClass s (marked s p f)
  decide (smGet 0 (port s p).taken c - smGet 0 (port s p).back c + bufferCost f ≤ bufferSize c)

/-- The first waiting frame of a VC with credit: one whose class has none holds up the frames of its class only. -/
def readyFrame (s : State) (p vc : Nat) : Option Frame :=
  (port s p).txq.find? (fun f => f.vc.toNat == vc && hasCredit s p f
    && (port s p).txq.find? (fun g => bufferClass s (marked s p g) == bufferClass s (marked s p f)) == some f)

/-- The round of VC4, VC3 and VC5 with weights 4, 2 and 1. -/
def roundVc (i : Nat) : Nat := [4, 4, 4, 4, 3, 3, 5].getD (i % 7) 4

/-- The frame that a port sends next, and the place in the round after it. -/
def chooseFrame (s : State) (p : Nat) : Option (Frame × Nat) :=
  let w := (port s p).wrr
  match [1, 6, 2].findSome? (readyFrame s p) with
  | some f => some (f, w)
  | none => (List.range 7).findSome? (fun i => (readyFrame s p (roundVc (w + i))).map (fun f => (f, (w + i + 1) % 7)))

/-- Remove the first copy of a frame from a list. -/
def removeFirst (f : Frame) : List Frame → List Frame
  | [] => []
  | x :: xs => if x = f then xs else x :: removeFirst f xs

/-- A TSYNC carries the instant of its departure and what came last on its port (R358). -/
def stamped (p : Nat) (f : Frame) (s : State) : Frame :=
  let e := (port s p).sync.getD (0, 0)
  if f.type = 0x10 then { f with payload := leBytes 8 s.now ++ leBytes 8 e.1 ++ leBytes 8 e.2 } else f

/-- Whether a frame is the request of an outstanding transaction. -/
def carries (s : State) (f : Frame) (x : FabTrans) : Bool :=
  isRequest f.type.toNat && f.src.toNat == node s && f.tag.toNat == x.tag && f.dst.toNat == x.dst

/-- The first transmission of a request starts its timeout (R353), and its port is that of R355. -/
def noteSent (p : Nat) (f : Frame) (s : State) : State :=
  modFab (fun fb => { fb with outstanding := fb.outstanding.map (fun x =>
    if carries s f x && !x.sent then { x with sent := true, sentAt := s.now, port := some p } else x) }) s

/-- Send a frame: it takes its LSEQ and stays in the retry buffer until acknowledged. -/
def sendOne (p : Nat) (f : Frame) (w : Nat) (s : State) : State :=
  let x := port s p
  let g := stamped p { marked s p f with lseq := BitVec.ofNat 12 x.txSeq } s
  let cls := bufferClass s (marked s p f)
  let y := { x with txq := removeFirst f x.txq, txSeq := (x.txSeq + 1) % 4096, unacked := x.unacked ++ [(0, g)],
                    taken := smPut 0 x.taken cls (smGet 0 x.taken cls + bufferCost f), wrr := w }
  noteSent p g (send (.frame p (wireOf g)) (setPortAt p y s))

/-- Send every waiting frame that has credit, in the order of R339; at most 1,024 stay unacknowledged. -/
def sendFrames (p : Nat) (s : State) : State := go (port s p).txq.length s
where
  go : Nat → State → State
    | 0, s => s
    | n + 1, s =>
      if !portUp s p ∨ 1024 ≤ (port s p).unacked.length then s
      else match chooseFrame s p with
        | some (f, w) => go n (sendOne p f w s)
        | none => s

/-- Hand a frame to a port, which samples its unacknowledged frames (R365 watermark 0). -/
def queueFrame (p : Nat) (f : Frame) (s : State) : State :=
  let s := sendFrames p (modPort p (fun x => { x with txq := x.txq ++ [f] }) s)
  wmSample (fbpPage p) 0 (port s p).unacked.length s

/-! ## Routing (R345, R346) -/

/-- An entry of the routing table. -/
def routeEntry (s : State) (n : Nat) : Word := smGet 0 s.fabric.routes n

/-- The port of an entry: PRI, ALT1, ALT2, the first that is valid and UP. -/
def entryPort (s : State) (e : Word) : Option Nat :=
  if !bit e 15 then none
  else if portUp s (fld e 14 12) then some (fld e 14 12)
  else if bit e 11 ∧ portUp s (fld e 10 8) then some (fld e 10 8)
  else if bit e 7 ∧ portUp s (fld e 6 4) then some (fld e 6 4)
  else none

/-- A counter of the FB page. -/
def countFb (off : Nat) (s : State) : State := countReg fbPage off 1 s

/-- Forward a frame on a chosen port under the rule of the mode: in tree mode a frame with DB = 1 leaves on a down-port only (R346). -/
def forwardOn (p : Nat) (f : Frame) (s : State) : State :=
  if f.vc ≠ 1 ∧ !bit (rdReg s fbPage 0x70C) 2 ∧ f.db ∧ !bit (rdReg s (fbpPage p) 0x700) 1 then countFb 0x73C s
  else queueFrame p f s

/-- A frame delivered to this device waits for its handling. -/
def deliver (p : Nat) (f : Frame) (s : State) : State := modFab (fun x => { x with delivered := x.delivered ++ [⟨p, f⟩] }) s

/-- Route a frame by its DST without an answer where there is no route. -/
def routeQuiet (f : Frame) (s : State) : State :=
  match entryPort s (routeEntry s f.dst.toNat) with
  | some p => forwardOn p f s
  | none => countFb 0x738 s

/-- The response to a request. -/
def response (s : State) (f : Frame) (kind : Nat) (data : List Byte) : Frame :=
  newFrame s f.src.toNat 7 f.tag.toNat kind data

/-- The answer to a request without a route (R345): its SRC is the node that the request names, by which the requester knows the transaction
(R354, log 182). -/
def noRoute (s : State) (f : Frame) : Frame := { response s f 6 [] with src := f.dst }

/-- Send a frame to a node; to this device itself it is delivered. -/
def sendTo (f : Frame) (s : State) : State :=
  if f.dst.toNat = node s then deliver 8 f s
  else match entryPort s (routeEntry s f.dst.toNat) with
    | some p => forwardOn p f s
    | none =>
      let s := countFb 0x738 s
      if !isRequest f.type.toNat then s
      else if f.src.toNat = node s then deliver 8 (noRoute s f) s
      else routeQuiet (noRoute s f) s

/-- A broadcast: delivered here unless it starts here, and forwarded on the ports of FBRT_BCi. -/
def broadcast (arrival : Nat) (f : Frame) (s : State) : State :=
  let mask := rdReg s fbrtPage (0x710 + 4 * arrival)
  forUpTo 8 s (fun p s => if bit mask p ∧ portUp s p then forwardOn p f s else s)

/-! ## Port-routed frames (R342) -/

/-- A byte of a payload. -/
def payByte (f : Frame) (i : Nat) : Nat := (f.payload.getD i 0).toNat

/-- A port-routed frame at this device: delivered with i = n, else forwarded; the port byte used gives way to the arrival port,
so that the responder can return along it (log 108). -/
def portRoute (arrival : Nat) (f : Frame) (s : State) : State :=
  let n := payByte f 0
  let i := payByte f 1
  if n ≤ i then deliver arrival f s
  else
    let p := payByte f (2 + i)
    if 40 < n ∨ 8 ≤ p ∨ !portUp s p then countFb 0x73C s
    else forwardOn p { f with payload := (f.payload.set 1 (BitVec.ofNat 8 (i + 1))).set (2 + i) (BitVec.ofNat 8 (arrival % 8)) } s

/-- The reversed route of a response: the arrival ports from the last hop to the first, of which this device takes the first. -/
def backRoute (d : Delivered) : List Byte :=
  let n := payByte d.frame 0
  let ports := ((List.range (n - 1)).map (fun j => d.frame.payload.getD (2 + n - 1 - j) 0))
  let route := BitVec.ofNat 8 (d.port % 8) :: ports
  [BitVec.ofNat 8 n, 1] ++ route ++ List.replicate (40 - route.length) 0

/-- Send the response to a port-routed frame. -/
def answerRouted (d : Delivered) (type addr : Nat) (tail : List Byte) (s : State) : State :=
  let f := { newFrame s 0 type d.frame.tag.toNat addr (backRoute d ++ tail) with dst := d.frame.src }
  if payByte d.frame 0 = 0 then deliver 8 f s
  else if portUp s (d.port % 8) then forwardOn (d.port % 8) f s else countFb 0x73C s

/-! ## Receiving (R338, R340, R341) -/

/-- A frame leaves its receive buffer: its space is returned to the neighbour. -/
def freeBuffer (p : Nat) (f : Frame) (s : State) : State :=
  if 8 ≤ p then s
  else modPort p (fun x => { x with freed := smPut 0 x.freed (bufferClass s f) (smGet 0 x.freed (bufferClass s f) + bufferCost f) }) s

/-- An accepted frame: delivered, forwarded or discarded. -/
def acceptFrame (p : Nat) (f : Frame) (s : State) : State :=
  let t := f.type.toNat
  let f' := { f with ttl := f.ttl - 1 }
  let hop := fun (g : State → State) => if f.ttl.toNat ≤ 1 then countFb 0x73C (freeBuffer p f s) else g (freeBuffer p f s)
  if f.vc = 7 ∨ typeVc t ≠ some f.vc.toNat then countReg (fbpPage p) 0x71C 1 (freeBuffer p f s)
  else if t = 0x10 then deliver p f s
  else if portRouted t then
    (if payByte f 0 ≤ payByte f 1 then deliver p f s else hop (portRoute p f'))
  else if f.dst = 0xFFFF then
    let s' := if node s = 0 then freeBuffer p f s else deliver p f s
    if f.ttl.toNat ≤ 1 then s' else broadcast p f' s'
  else if f.dst.toNat = node s then (if node s = 0 then freeBuffer p f s else deliver p f s)
  else hop (sendTo f')

/-- The codewords that a port has decoded (R365). -/
def countFec (p : Nat) (n : FecCount) (s : State) : State :=
  modPort p (fun x => { x with fecMs := x.fecMs + n.corrected }) (countReg (fbpPage p) 0x718 n.lost (countReg (fbpPage p) 0x714 n.corrected s))

/-- A frame arrives on a port (R338, R340): accepted in LSEQ order, else a resend is asked for. -/
def receiveFrame (p : Nat) (wire : List Byte) (s : State) : State :=
  let x := port s p
  if !portUp s p then s
  else match frameOf wire with
    | none => setPortAt p { x with resend := true } s
    | some f =>
      if f.lseq.toNat ≠ x.rxSeq then
        (if (f.lseq.toNat + 4096 - x.rxSeq) % 4096 < 2048 then setPortAt p { x with resend := true } s else s)
      else acceptFrame p f (setPortAt p { x with rxSeq := (x.rxSeq + 1) % 4096, resend := false } s)

/-- A NOTICE to the fabric manager (R338, R362). -/
def notice (code data : Nat) (s : State) : State :=
  if fabManager s = 0 ∨ node s = 0 then s else sendTo (newFrame s (fabManager s) 0x18 0 code [BitVec.ofNat 8 data]) s

/-! ## Port states (R336) -/

/-- A change of STATE. -/
def portState (p st : Nat) (s : State) : State :=
  if (port s p).st = st then s else raiseBit (fbpPage p) 0 (modPort p (fun x => { x with st := st }) s)

/-- FAULT: the retry buffer is discarded; frames not yet sent are routed anew (R340, R345). -/
def faultPort (p : Nat) (s : State) : State :=
  let x := port s p
  let s := portState p 4 s
  let s := modPort p (fun x => { x with unacked := [], txq := [], taken := [], back := [], freed := [], resend := false, cut := none, faultAt := some s.now, sync := none }) s
  let s := report ⟨2, p, 5, 4, 18, p, []⟩ (raiseBit (fbpPage p) 1 s)
  let s := notice 1 p s
  forEach x.txq s (fun f s => if f.type = 0x10 ∨ portRouted f.type.toNat then (if f.type = 0x10 then s else countFb 0x73C s) else if f.dst = 0xFFFF then s else sendTo f s)

/-- PORT_FAULT: an UP port enters FAULT. -/
def portFaults (p : Nat) (s : State) : State := if portUp s p then faultPort p s else s

/-- FBP_CTL.RETRAIN (R365): FAULT and training. A port that the test access port holds stays as it is (19 R484). -/
def retrainPort (p : Nat) (s : State) : State := if (port s p).st = 0 ∨ domLost s 9 ∨ s.tapFault then s else faultPort p s

/-- A partner is present: the port trains. -/
def partnerPresent (p : Nat) (s : State) : State :=
  if (port s p).st = 1 ∧ !domLost s 9 then portState p 2 s else s

/-- Training completes: UP, with the neighbour's identity. -/
def trainingDone (p nbr nport : Nat) (s : State) : State :=
  if ((port s p).st = 2 ∨ (port s p).st = 4) ∧ !domLost s 9 then
    let s := portState p 3 s
    let s := modPort p (fun x => { x with nbr := nbr, nport := nport, known := true, rxSeq := 0, txSeq := 0, unacked := [], taken := [], back := [], freed := [],
                                          resend := false, requests := 0, served := 0, cut := none, wrr := 0, sync := none, lastSync := s.now }) s
    notice 2 p (sendFrames p s)
  else s

/-- A change of FBP_CTL.EN: 0 disables, 1 leaves DISABLED. While the test access port holds the ports in FAULT, EN waits for
Test-Logic-Reset (19 R484). -/
def portEnable (p : Nat) (en : Bool) (s : State) : State :=
  if s.tapFault then s
  else if !en then portState p 0 (modPort p (fun x => { x with unacked := [], txq := [], taken := [], back := [], freed := [], known := false, sync := none }) s)
  else if (port s p).st = 0 then portState p 1 s else s

/-- FBP_CTL.EN of a port. -/
def portEn (s : State) (p : Nat) : Bool := bit (rdReg s (fbpPage p) 0x700) 0

/-- The ports with EN = 1 are enabled (17 R432 step 6, R437); those that the test access port holds go to FAULT. -/
def enablePorts (s : State) : State :=
  if domLost s 9 then s
  else forUpTo 8 s (fun p s => if s.tapFault then (if (port s p).st = 4 then s else faultPort p s) else portEnable p (portEn s p) s)

/-! ## Link control blocks (R340) -/

/-- A link control block goes out: the next LSEQ expected, one more resend request where one is due, the space returned and the
identity. -/
def sendBlock (p : Nat) (s : State) : State :=
  if !portUp s p then s
  else
    let x := port s p
    let n := x.requests + x.resend.toNat
    send (.linkBlock p { ack := BitVec.ofNat 12 x.rxSeq, requests := n, credits := x.freed, nbr := BitVec.ofNat 16 (node s), nport := Fin.ofNat 8 p })
      (setPortAt p { x with requests := n, resend := false } s)

/-- The frames of the retry buffer that a cumulative acknowledgement leaves. -/
def afterAck (ack : Nat) (l : List (Nat × Frame)) : List (Nat × Frame) :=
  l.filter (fun u => !((u.2.lseq.toNat + 4096 - ack) % 4096 ≥ 2048))

/-- Resend the retry buffer from its first frame; a frame past its seventh resend puts the port into FAULT. A resend from a frame that an
emergency block has cut does not count toward the seven. -/
def resendAll (p : Nat) (s : State) : State :=
  let x := port s p
  let free := match x.unacked, x.cut with
    | u :: _, some n => u.2.lseq.toNat == n
    | _, _ => false
  if !free && x.unacked.any (fun u => 7 ≤ u.1) then faultPort p s
  else
    let s := setPortAt p { x with unacked := x.unacked.map (fun u => (u.1 + (!free).toNat, u.2)), cut := if free then none else x.cut } s
    forEach x.unacked (countReg (fbpPage p) 0x710 x.unacked.length s) (fun u s => send (.frame p (wireOf u.2)) s)

/-- A link control block arrives. -/
def receiveBlock (p : Nat) (b : LinkBlock) (s : State) : State :=
  if !portUp s p then s
  else
    let s := modPort p (fun x => { x with unacked := afterAck b.ack.toNat x.unacked, nbr := b.nbr.toNat, nport := b.nport.val, known := true,
                                          back := forEach b.credits x.back (fun c m => smPut 0 m c.1 (max (smGet 0 m c.1) c.2)) }) s
    let s := if (port s p).served < b.requests then resendAll p (modPort p (fun x => { x with served := b.requests }) s) else s
    let s := sendFrames p s
    wmSample (fbpPage p) 0 (port s p).unacked.length s

/-! ## Handling delivered frames -/

/-- The oldest delivered frame of a type, with the state without it; its buffer is freed. -/
def takeDelivered (t : Nat) (s : State) : Option (Delivered × State) :=
  match s.fabric.delivered.find? (fun d => d.frame.type.toNat == t) with
  | none => none
  | some d => some (d, freeBuffer d.port d.frame (modFab (fun x => { x with delivered := x.delivered.erase d }) s))

/-- FB_SERIAL as bytes. -/
def serialBytes (s : State) : List Byte := leBytes 4 (rdReg s fbPage 0x704).toNat ++ leBytes 4 (rdReg s fbPage 0x708).toNat

/-- The identity of a DISC_RSP. -/
def identity (s : State) (arrival : Nat) : List Byte :=
  serialBytes s ++ leBytes 2 (node s) ++ [BitVec.ofNat 8 (bit (rdReg s fbPage 0x700) 16).toNat, BitVec.ofNat 8 arrival,
    BitVec.ofNat 8 (forUpTo 8 0 (fun p a => a + if portUp s p then 2 ^ p else 0)), 0, 0, 0]

/-- A DISC is answered. -/
def handleDisc (s : State) : State :=
  match takeDelivered 8 s with
  | none => s
  | some (d, s) => answerRouted d 9 0 (identity s d.port) s

/-- An ASSIGN sets NODE, and the fabric manager and the route to it (R343, R344); it is answered. -/
def handleAssign (s : State) : State :=
  match takeDelivered 0xA s with
  | none => s
  | some (d, s) =>
    let serial := (d.frame.payload.drop 42).take 8
    let answer := fun (k : Nat) (s : State) => answerRouted d 0xB k (leBytes 2 (node s)) s
    if node s ≠ 0 then answer 1 s
    else if serial ≠ serialBytes s then answer 2 s
    else
      let s := modReg fbPage 0x700 (fun w => setFld w 15 0 (d.frame.addr.toNat % 2 ^ 16)) s
      let s := if fabManager s = 0 then
          modFab (fun x => { x with routes := smPut 0 x.routes d.frame.src.toNat (w32 (0x8000 + d.port % 8 * 2 ^ 12)) })
            (modReg fbPage 0x710 (fun w => setFld w 15 0 d.frame.src.toNat) s)
        else s
      answer 0 s

/-- A frame whose handling ends at the firmware: it is taken (DISC_RSP, ASSIGN_RSP, HANG_RPL, NOTICE). -/
def handleTaken (t : Nat) (s : State) : State :=
  match takeDelivered t s with
  | none => s
  | some (_, s) => s

/-! ## Emergency (R356, R357; 15 R397) -/

/-- QD_EMSTAT: the latches, and PIN_NOW. -/
def emStat (s : State) : Word := setBit (rdReg s quenchPage 0x700) 3 s.pins.emstop

/-- A latch of QD_EMSTAT sets: counted, reported, recorded, and every channel trips with the cause of 15 R392. -/
def setLatch (b origin cause : Nat) (s : State) : State :=
  if bit (emStat s) b then s
  else
    let s := modReg quenchPage 0x700 (fun w => setBit w b true) s
    let s := raiseBit quenchPage 0 (countReg quenchPage 0x708 1 s)
    let s := report ⟨0, quenchPage, 1, fEVENT, 19, b, []⟩ s
    let s := offer 0x3001 3 quenchPage false ([BitVec.ofNat 8 (emStat s).toNat, 0] ++ leBytes 2 origin ++ [BitVec.ofNat 8 cause, 0, 0, 0]) s
    tripAll (b + 2) b s

/-- An emergency block on a port cuts the frame in progress, if there is one (R356): whether the last frame sent is still in progress is
free (log 8). -/
def cutFrame (p : Nat) (s : State) : State :=
  match (port s p).unacked.getLast? with
  | some u => if freeVal 1 s = 1 then modPort p (fun x => { x with cut := some u.2.lseq.toNat }) (tick s) else tick s
  | none => s

/-- An emergency block: the marker, ORIGIN, EID and CAUSE (R356). -/
def emergencyBlock (origin eid cause : Nat) : BitVec 128 :=
  BitVec.ofNat 128 (0x5A5AC3C35A5AC3C3 * 2 ^ 64 + origin % 2 ^ 16 * 2 ^ 48 + eid % 2 ^ 16 * 2 ^ 32 + cause % 256 * 2 ^ 24)

/-- The block that a port accepts: the marker stands in it and two copies on a lane agree. -/
def acceptedBlock (lanes : List (List (BitVec 128))) : Option (BitVec 128) :=
  lanes.findSome? (fun l => l.find? (fun b => decide (2 ≤ l.count b) && b.toNat / 2 ^ 64 == 0x5A5AC3C35A5AC3C3))

/-- What a port sends of an emergency block: three copies in succession on each of its four lanes (R335, R356). -/
def emergencyCopies (b : BitVec 128) : List (List (BitVec 128)) := List.replicate 4 (List.replicate 3 b)

/-- Send an emergency block on every UP port but one. -/
def emergencyOut (except origin eid cause : Nat) (s : State) : State :=
  forUpTo 8 s (fun p s => if portUp s p ∧ p ≠ except then Machine.send (.emergency p (emergencyCopies (emergencyBlock origin eid cause))) (cutFrame p s) else s)

/-- Remember a pair; the 256 most recent are kept. -/
def seePair (o e : Nat) (s : State) : State := modFab (fun x => { x with seen := ((o, e) :: x.seen).take 256 }) s

/-- The device originates an emergency; its FABRIC latch sets with the block. -/
def originate (cause : Nat) (s : State) : State :=
  if domLost s 9 then s
  else
    let eid := (s.fabric.eid + 1) % 2 ^ 16
    let s := seePair (node s) eid (modFab (fun x => { x with eid := eid }) s)
    setLatch 1 (node s) cause (emergencyOut 8 (node s) eid cause s)

/-- An emergency block is accepted on a port. -/
def receiveEmergency (p origin eid cause : Nat) (s : State) : State :=
  if !portUp s p ∨ s.fabric.seen.contains (origin, eid) then s
  else
    let s := emergencyOut p origin eid cause (seePair origin eid s)
    let s := modReg fbPage 0x744 (fun w => if bit w 31 then w else w32 (0x80000000 + cause % 256 * 2 ^ 16 + origin)) s
    setLatch 1 origin cause (raiseBit fbPage 0 s)

/-- Copies of an emergency block arrive on the lanes of a port (R356). -/
def blockArrives (p : Nat) (lanes : List (List (BitVec 128))) (s : State) : State :=
  match acceptedBlock lanes with
  | none => s
  | some b => receiveEmergency p (b.toNat / 2 ^ 48 % 2 ^ 16) (b.toNat / 2 ^ 32 % 2 ^ 16) (b.toNat / 2 ^ 24 % 256) s

/-- EMSTOP_N is asserted, or an assertion is over: 2 ns or more sets PIN (15 R392), and an emergency goes out while OUT = 1; whether
a shorter one does is free (log 8). PIN_NOW is the pin's level after the event. The level is kept while D8 is lost: its tree drives the
path, so nothing is latched until D8 is back (R11, log 162). -/
def pinAssert (p : PinPulse) (s : State) : State :=
  let acts := p == .pulse || p == .held || (p == .short && freeVal 1 s == 1)
  let s := if p == .short then tick s else { s with pins := { s.pins with emstop := p == .held } }
  if !acts || domLost s 8 then s
  else
    let s := setLatch 0 0 0 s
    if bit (rdReg s fbPage 0x740) 0 then originate 0 s else s

/-- Clearing latches (15 R397): PIN only while EMSTOP_N is deasserted. -/
def clearLatches (v : Word) (s : State) : State :=
  let m := fld v 2 0
  modReg quenchPage 0x700 (fun w => setFld w 2 0 (fld w 2 0 - Nat.land (fld w 2 0) (if s.pins.emstop then m / 2 * 2 else m))) s

/-! ## Fabric Time (R358-R362) -/

def fbTime (s : State) : Word := rdReg s fbPage 0x750

/-- Whether a cluster timebase runs. -/
def anyTimebase (s : State) : Bool := s.bases.any (fun b => b.2.en)

/-- Set FT; nothing is left to be slewed away. -/
def setFt (t : Nat) (s : State) : State := { s with now := t, fabric := { s.fabric with slew := 0, slewTicks := 0 } }

/-- FT is off by an offset, which it slews away (R359, R360). -/
def slewBy (o : Int) (s : State) : State := modFab (fun x => { x with slew := o }) s

/-- One unit of REFCLK passes (R358). While an offset is to be slewed away, FT gains or loses one unit in 100,000, 10 ppm (R359, log 183). -/
def tickTime (s : State) : State :=
  let x := s.fabric
  if x.slew = 0 then { s with now := s.now + 1 }
  else if x.slewTicks < 99999 then { s with now := s.now + 1, fabric := { x with slewTicks := x.slewTicks + 1 } }
  else if 0 < x.slew then { s with fabric := { x with slew := x.slew - 1, slewTicks := 0 } }
  else { s with now := s.now + 2, fabric := { x with slew := x.slew + 1, slewTicks := 0 } }

/-- The port from which a child takes FT. -/
def parentPort (s : State) : Option Nat :=
  let w := fbTime s
  if bit w 31 then none
  else if s.fabric.onAlt then (if bit w 7 then some (fld w 6 4) else none)
  else if bit w 3 then some (fld w 2 0) else none

/-- Leave holdover (R362): FT steers the timing PLLs again, also where a reset of D9 has cleared FB_TSTAT.HOLD since. -/
def leaveHold (s : State) : State := modFab (fun x => { x with unsteered := false }) (modReg fbPage 0x754 (fun w => setBit w 30 false) s)

/-- The offset register saturates. -/
def ofsWord (o : Int) : Word := BitVec.ofInt 32 (max (-2147483648) (min 2147483647 o))

/-- An exchange with the parent (R358, R359): the offset, LOCKED, FAR, and a step or a slew. -/
def exchange (o : Int) (s : State) : State :=
  let s := leaveHold (wrReg fbPage 0x758 (ofsWord o) s)
  let far := us < o.natAbs
  let run := if o.natAbs ≤ 327 then s.fabric.lockRun + 1 else 0
  let first := s.fabric.timeNew
  let steps := first || (far && !anyTimebase s)
  let s := modFab (fun x => { x with lockRun := min run 8, timeNew := false }) s
  let s := modReg fbPage 0x754 (fun w =>
    setBit (setBit w 29 (far && !steps)) 31 (if 3277 ≤ o.natAbs then false else if 8 ≤ run then true else bit w 31)) s
  let s := if far && !steps then raiseBit fbPage 2 s else s
  if steps then setFt ((s.now : Int) - o).toNat s else slewBy o s

/-- A parent that delivers again in holdover is the one in use from then on (R362). -/
def resumeParent (p : Nat) (s : State) : State :=
  let w := fbTime s
  if !bit (rdReg s fbPage 0x754) 30 ∨ bit w 31 then s
  else if bit w 3 ∧ p = fld w 2 0 then modFab (fun x => { x with onAlt := false }) s
  else if bit w 7 ∧ p = fld w 6 4 then modFab (fun x => { x with onAlt := true }) s
  else s

/-- A TSYNC frame that has been delivered is handled; arrival is the instant of its first header bit (R358). -/
def handleTsync (arrival : Nat) (s : State) : State :=
  match takeDelivered 0x10 s with
  | none => s
  | some (d, s) =>
    let w := fun i => leNat ((d.frame.payload.drop (8 * i)).take 8)
    let s := resumeParent d.port (modPort d.port (fun x => { x with sync := some (w 0, arrival), lastSync := s.now }) s)
    if parentPort s ≠ some d.port ∨ (w 1 = 0 ∧ w 2 = 0) then s
    else
      let asym := (rdReg s (fbpPage d.port) 0x708).toInt
      exchange ((((arrival : Int) - w 0) - ((w 2 : Int) - w 1)) / 2 - asym) s

/-- A TSYNC goes out on a port (R358). -/
def sendTsync (p : Nat) (s : State) : State :=
  if !portUp s p then s
  else queueFrame p (newFrame s 0 0x10 0 0 (List.replicate 24 0)) s

/-- The parent is lost (R362): its port is not UP, or no TSYNC came for 3 ms. -/
def holdover (s : State) : State :=
  match parentPort s with
  | none => s
  | some p =>
    let s := if portUp s p then reach ((port s p).lastSync + 3000 * us) s else s
    let w := fbTime s
    if !s.fabric.onAlt ∧ bit w 7 ∧ portUp s (fld w 6 4) then modFab (fun x => { x with onAlt := true }) s
    else if bit (rdReg s fbPage 0x754) 30 then s
    else
      let s := modReg fbPage 0x754 (fun w => setBit w 30 true) s
      let s := modFab (fun x => { x with unsteered := true }) s
      let s := offer 0x7001 2 fbPage false [BitVec.ofNat 8 p] (raiseBit fbPage 1 s)
      notice 3 p s

/-- FB_FTSET as an instant. -/
def ftSetAt (s : State) : Nat := rd64 s fbPage 0x760 * ns

/-- FB_FTCMD.SET (R360): refused while a timebase runs, and on a device that is not the root. -/
def ftSetCmd (m : Master) (s : State) : State :=
  if anyTimebase s ∨ !bit (fbTime s) 31 then refuseCmd fbPage 0x768 m s
  else setFt (ftSetAt s) (modFab (fun x => { x with ftPending := false }) s)

/-- How far an instant lies after the nearest integer second. -/
def pastSecond (t : Nat) : Int :=
  let sec := 1000000000 * ns
  if 2 * (t % sec) ≤ sec then (t % sec : Nat) else (t % sec : Nat) - (sec : Int)

/-- A rising edge on FT_PPS (R360): with PPS_IN = 1 a value waiting in FB_FTSET is applied, else the root slews so that the edge falls on an
integer second. -/
def ppsEdge (s : State) : State :=
  if !bit (fbTime s) 31 ∨ !bit (fbTime s) 30 then s
  else if s.fabric.ftPending then setFt (ftSetAt s) (modFab (fun x => { x with ftPending := false }) s)
  else slewBy (pastSecond s.now) s

/-- The next integer FT second: FT_PPS is driven for 1 µs while PPS_OUT = 1. -/
def ppsPulse (s : State) : State :=
  if !bit (fbTime s) 29 ∨ domLost s 9 then s
  else
    let sec := 1000000000 * ns
    let t := (s.now + sec - 1) / sec * sec
    send (.ppsPulse t) (reach t s)

/-! ## The transaction ring (R347, R348, R352-R354) -/

/-- T_eff in 100 ns (R353). -/
def tEff (s : State) : Nat := max (fld (rdReg s fbPage 0x71C) 19 0) (32 * fld (rdReg s fbPage 0x714) 5 0 + 40)

/-- The address of a descriptor. -/
def ringAt (s : State) (i : Nat) : Nat := fld (rdReg s fbPage 0x724) 31 11 * 2048 + 2 ^ 32 * fld (rdReg s fbPage 0x728) 15 0 + 32 * i

/-- A field of a descriptor. -/
def descField (s : State) (i off n : Nat) : Nat := leNat (memRead s (ringAt s i + off) n)

/-- STATUS and the RQDONE event of a completion. -/
def completeDesc (i kind : Nat) (s : State) : State :=
  raiseBit fbPage 3 (bankPut .agent (ringAt s i + 3) [BitVec.ofNat 8 (0x80 + kind)] s)

/-- Whether a descriptor may be sent (R295, R347). -/
def descOk (s : State) (i : Nat) : Bool :=
  let dst := descField s i 0 2
  let op := descField s i 2 1
  let len := descField s i 4 2
  let a := descField s i 8 8
  let buf := descField s i 16 8
  let pg := op == 3 || op == 4
  dst != 0 && dst != 0xFFFF && decide (1 ≤ op ∧ op ≤ 6 ∧ 1 ≤ len ∧ len ≤ 256 ∧ a < 2 ^ 48)
    && (if pg then decide (len = 4 ∧ a % 4 = 0 ∧ 0x4000000 ≤ a ∧ a < 0x8000000) else decide (a % lowBit len = 0 ∧ a / 256 = (a + len - 1) / 256))
    && targetSpan s buf len == .fabricBank

/-- The first tag from a number on that is free (R354), where one is. -/
def freeTag (s : State) : Nat → Nat → Option Nat
  | 0, _ => none
  | n + 1, t =>
    if s.fabric.outstanding.any (fun x => x.tag == t % 4096)
        || s.fabric.ended.any (fun x => x.1 == t % 4096 && decide (s.now < x.2 + 2 * tEff s * 100 * ns)) then freeTag s n (t + 1)
    else some (t % 4096)

/-- The next descriptor of the ring completes with DOMAIN, unsent (R363). -/
def ringEnds (s : State) : State :=
  let iss := fld (rdReg s fbPage 0x730) 5 0
  if iss = fld (rdReg s fbPage 0x72C) 5 0 then s else completeDesc iss 4 (wrReg fbPage 0x730 (w32 ((iss + 1) % 64)) s)

/-- The space that a response takes of the VC4 receive buffer (R348). -/
def responseSpace (read : Bool) (len : Nat) : Nat := if read then len + 20 else 20

/-- Whether the response of one more transaction finds room in the 32 KiB of VC4 beside those that are reserved (R339, R348). -/
def responseFits (s : State) (read : Bool) (len : Nat) : Bool :=
  decide ((s.fabric.outstanding.map (fun x => responseSpace x.read x.len)).sum + responseSpace read len ≤ 0x8000)

/-- The next descriptor of the ring is issued (R347). It waits at the head while its response finds no room (R348), or no tag is free
(R354). -/
def issueTransaction (s : State) : State :=
  let iss := fld (rdReg s fbPage 0x730) 5 0
  if domLost s 9 then ringEnds s
  else if iss = fld (rdReg s fbPage 0x72C) 5 0 ∨ node s = 0 then s
  else
    let s0 := s
    let s := wrReg fbPage 0x730 (w32 ((iss + 1) % 64)) s
    let op := descField s iss 2 1
    let len := descField s iss 4 2
    if !bankOpen s .agent (ringAt s iss) then completeDesc iss 3 s
    else if !descOk s iss then completeDesc iss 8 s
    else match (if responseFits s (op % 2 == 1) len then freeTag s 4096 s.fabric.nextTag else none) with
    | none => s0
    | some tag =>
      let dst := descField s iss 0 2
      let buf := descField s iss 16 8
      let s := bankPut .agent (ringAt s iss + 24) (leBytes 4 tag) s
      let payload := if op % 2 = 0 then memRead s buf len else if op = 3 then [] else leBytes 4 len
      let f := newFrame s dst op tag (descField s iss 8 8) payload
      let s := modFab (fun x => { x with nextTag := (tag + 1) % 4096,
                                         outstanding := x.outstanding ++ [⟨tag, iss, op % 2 == 1, dst, len, buf, entryPort s (routeEntry s dst), false, s.now⟩] }) s
      sendTo f (wmSample fbPage 0 s.fabric.outstanding.length s)

/-- A transaction ends. -/
def endTransaction (x : FabTrans) (kind : Nat) (s : State) : State :=
  let s := modFab (fun f => { f with outstanding := f.outstanding.erase x, ended := (x.tag, s.now) :: f.ended.filter (fun e => decide (s.now < e.2 + 2 * tEff s * 100 * ns)) }) s
  completeDesc x.index kind (wmSample fbPage 0 s.fabric.outstanding.length s)

/-- An RSP is handled (R352, R354). -/
def handleRsp (s : State) : State :=
  match takeDelivered 7 s with
  | none => s
  | some (d, s) =>
    match s.fabric.outstanding.find? (fun x => x.tag == d.frame.tag.toNat && x.dst == d.frame.src.toNat) with
    | none => countFb 0x734 s
    | some x =>
      let kind := d.frame.addr.toNat % 16
      if x.read ∧ kind = 0 then endTransaction x (if bankOpen s .agent x.buf then 0 else 3) (bankPut .agent x.buf (d.frame.payload.take x.len) s)
      else endTransaction x kind s

/-- Whether the request of a transaction still waits on a port for its first transmission. -/
def unsent (s : State) (x : FabTrans) : Bool := (List.range 8).any (fun p => (port s p).txq.any (fun f => carries s f x)) && !x.sent

/-- T_eff of a transaction expires (R353, R355). -/
def transactionTimeout (tag : Nat) (s : State) : State :=
  match s.fabric.outstanding.find? (fun x => x.tag == tag) with
  | none => s
  | some x =>
    if unsent s x then s
    else
    let s := reach (x.sentAt + tEff s * 100 * ns) s
    report ⟨0, fbPage, 5, 2, 3, x.port.getD 8, []⟩ (endTransaction x 2 s)

/-- FB_RQPROD is written; nothing else happens until a descriptor is issued. -/
def ringProduce (v : Word) (s : State) : State := wrReg fbPage 0x72C (w32 (fld v 5 0)) s

/-! ## The routing-table window (R345, R365) -/

/-- The entry that FBRT_IDX selects. -/
def rtIndex (s : State) : Nat := fld (rdReg s fbrtPage 0x700) 15 0

/-- NODE increments after an access to FBRT_DATA with INC = 1. -/
def rtStep (s : State) : State :=
  modReg fbrtPage 0x700 (fun w => if bit w 16 then setFld w 15 0 (fld w 15 0 + 1) else w) s

/-- A write of FBRT_DATA. -/
def rtWrite (v : Word) (s : State) : State :=
  rtStep (modFab (fun x => { x with routes := smPut 0 x.routes (rtIndex s) (w32 (fld v 15 4 * 16)) }) s)

/-! ## Fabric Hangs (12 R330; 13 R338) -/

/-- The broadcast of a Hang: GRP, then H in nanoseconds and fraction (the layout of the twelve bytes is the model's, log 107). -/
def hangFrame (s : State) (g h tag : Nat) : Frame :=
  newFrame s 0xFFFF 0x14 tag 0 (leBytes 2 g ++ leBytes 8 (h / ns) ++ leBytes 2 (h % ns))

/-- A HANG_BC is handled: the Hang of slot 7 is to be decided. A second waits for the first. -/
def handleHangBc (s : State) : State :=
  if s.fabHangAsk.isSome then s
  else match takeDelivered 0x14 s with
    | none => s
    | some (d, s) =>
      let p := d.frame.payload
      { s with fabHangAsk := some ⟨7, 3, leNat (p.take 2) % 256, 0, leNat ((p.drop 2).take 8) * ns + leNat ((p.drop 10).take 2), s.now, d.frame.src.toNat, d.frame.tag.toNat, masterCode .agent⟩ }

/-- A HANG_CANCEL is handled: it disarms slot 7 where it comes in time. -/
def handleHangCancel (s : State) : State :=
  match takeDelivered 0x15 s with
  | none => s
  | some (_, s) => (cancelSlot 7 s).getD s

/-- The decision of a Hang (12 R321): of HG_CMD, or of the fabric in slot 7 with its reply. A Fabric Hang armed on its
originator is broadcast. -/
def hangDecided (fabric : Bool) (s : State) : State :=
  if fabric then
    match s.fabHangAsk with
    | none => s
    | some a =>
      let old := hangSlot s 7
      let s := decideHang a false { s with fabHangAsk := none }
      let reply := if old.st = 1 then { st := 3, err := 3, scope := 3, group := a.group : HangSlot } else hangSlot s 7
      sendTo (newFrame s a.src 0x16 a.tag (slotWord reply).toNat []) s
  else
    match s.hangAsk with
    | none => s
    | some a =>
      let ok := (hangError s a (groupPages s a.group) true).isNone
      let s := decideHang a true { s with hangAsk := none }
      if a.scope = 3 ∧ ok then broadcast 8 (hangFrame s a.group a.h a.tag) s else s

/-- A HANG of Fabric scope needs BCEN; a CANCEL of Fabric scope is broadcast besides. -/
def hangCmdWrite (m : Master) (v : Word) (s : State) : State :=
  let fabric := fld v 5 4 = 3
  let bcen := bit (rdReg s fbPage 0x70C) 1
  match fld v 2 0 with
  | 1 => if fabric ∧ !bcen then rejectWrite hangPage 0x70C m s else hangCmd m v s
  | 2 => if fabric ∧ !bcen then rejectWrite hangPage 0x70C m s
         else
           let s := cancelCmd m v s
           if fabric then broadcast 8 (newFrame s 0xFFFF 0x15 0 0 [BitVec.ofNat 8 (fld v 15 8)]) s else s
  | 3 => copyCmd m v s
  | _ => invalidWrite hangPage 0x70C m s

/-! ## Loss of D9 (R363, R429) -/

/-- The ports leave UP, outstanding descriptors and those that wait in the ring end with DOMAIN, FT goes on in holdover. -/
def fabricLost (s : State) : State :=
  let s := forUpTo 8 s (fun p s => setPortAt p {} s)
  let s := forEach s.fabric.outstanding s (fun x s => endTransaction x 4 s)
  let s := forUpTo 64 s (fun _ s => ringEnds s)
  holdover (modFab (fun x => { x with delivered := [] }) s)

end Sys2Proof.Machine
end

