-- ==== Sys2Proof/Machine/Pcie.lean ====
section
/-! DEFINITION. The requests of the PCIe endpoint as pieces on the bus matrix, and their completions (spec 19 R474, R475; 11 R287). -/

namespace Sys2Proof.Machine

def pciePage : Nat := pageIndex ⟨.pcie, 0⟩

/-- A range cut at the 256-byte boundaries; the first argument bounds the pieces. -/
def cut256 : Nat → Nat → Nat → List (Nat × Nat)
  | 0, _, _ => []
  | f + 1, a, n =>
    if n = 0 then [] else (a, min n (256 - a % 256)) :: cut256 f (a + min n (256 - a % 256)) (n - min n (256 - a % 256))

/-- The most aligned address inside (a, a + n). -/
def cutPoint (a n : Nat) : Nat :=
  match [128, 64, 32, 16, 8, 4, 2, 1].find? (fun w => decide ((a / w + 1) * w < a + n)) with
  | some w => (a / w + 1) * w
  | none => a + n

/-- The pieces of a range: cut at 256 bytes, and each that does not meet R295 cut once more (log 21). -/
def piecesOf (a n : Nat) : List (Nat × Nat) :=
  (cut256 20 a n).flatMap (fun p =>
    if p.1 % lowBit p.2 = 0 then [p] else [(p.1, cutPoint p.1 p.2 - p.1), (cutPoint p.1 p.2, p.1 + p.2 - cutPoint p.1 p.2)])

/-- The device address of an offset of BAR2 (11 R287). -/
def bar2Addr (o : Nat) : Nat := if o < 0x1800000000 then 0x2000000000 + o else o - 0x1800000000

/-- The pieces of a request to BAR0 or BAR2. A BAR0 request is never cut: it is a register access, or an error. -/
def pciPieces (bar : Bar) (o n : Nat) (data : List Byte) : List PciPiece :=
  match bar with
  | .bar0 => [{ addr := 0x4000000 + o, len := n, data := data }]
  | _ =>
    let a := bar2Addr o
    (piecesOf a n).map (fun p => { addr := p.1, len := p.2, data := (data.drop (p.1 - a)).take p.2 })

/-- The transactions of the PCIe master port. -/
def pciOutstanding (s : State) : Nat := (s.trans.filter (fun t => t.master == .pcie)).length

/-- The first n pieces not yet issued, and all pieces after their issue. -/
def takePieces : Nat → List PciPiece → List PciPiece × List PciPiece
  | _, [] => ([], [])
  | n, p :: ps =>
    let r := takePieces (if p.issued then n else n - 1) ps
    if p.issued || n == 0 then (r.1, p :: r.2) else (p :: r.1, { p with issued := true } :: r.2)

/-- The ID with which request i may be issued, none while it must wait. -/
def requestId (s : State) (i : Nat) (r : PciReq) : Option Nat :=
  if r.id.isSome then r.id
  else if r.write then some 0
  else if r.relaxed then ((List.range 15).map (· + 1)).find? (fun n => !s.pcie.reqs.any (fun q => q.id == some n))
  else if (s.pcie.reqs.take i).all (fun q => !q.write || q.pieces.all (·.done)) then some 0
  else none

/-- Request i issues what it can. -/
def issueRequest (i : Nat) (s : State) : State :=
  match s.pcie.reqs[i]? with
  | none => s
  | some r =>
    match requestId s i r with
    | none => s
    | some id =>
      let p := takePieces (16 - pciOutstanding s) r.pieces
      forEach p.1 { s with pcie := { s.pcie with reqs := s.pcie.reqs.set i { r with id := some id, pieces := p.2 } } }
        (fun x s => enterPort .pcie id r.write x.addr (if r.write then x.data else []) x.len .pci s)

/-- Every request issues what it can. -/
def issueRequests (s : State) : State := forUpTo s.pcie.reqs.length s issueRequest

/-- The completion of a read: 0 Successful Completion, 1 Unsupported Request, 2 Completer Abort. -/
def readStatus (r : PciReq) : Nat :=
  if r.pieces.all (fun p => p.err.isNone) then 0 else if r.pieces.any (fun p => p.err == some .decode) then 1 else 2

/-- A field of PCI_ERR counts one error and saturates. -/
def countPciErr (hi lo : Nat) (s : State) : State :=
  modReg pciePage 0x708 (fun w => setFld w hi lo (min (fld w hi lo + 1) 0xFFFF)) s

/-- AER reports an error of the function: its status bit is set and the error goes to the host (R472, R474; log 192). -/
def aerReport (i : Nat) (s : State) : State := send (.aer i) { s with pcie := { s.pcie with aer := setBit s.pcie.aer i true } }

/-- A posted write that met an error counts once in PCI_ERR and is reported: bit 20 Unsupported Request, bit 15 Completer Abort (log 192). -/
def writeFailed (status : Nat) (s : State) : State :=
  if status = 1 then aerReport 20 (countPciErr 15 0 s) else aerReport 15 (countPciErr 31 16 s)

/-- What a request whose pieces have all ended does: a read sends its completion, a write that failed is logged. -/
def finishRequest (r : PciReq) (s : State) : State :=
  if !r.write then send (.completion r.tag (readStatus r) (if readStatus r = 0 then r.pieces.flatMap (·.data) else [])) s
  else if readStatus r = 0 then s
  else writeFailed (readStatus r) s

/-- Requests all of whose pieces have ended leave. -/
def completeRequests (s : State) : State :=
  let done := fun (r : PciReq) => r.pieces.all (·.done)
  forEach (s.pcie.reqs.filter done) { s with pcie := { s.pcie with reqs := s.pcie.reqs.filter (fun r => !done r) } } finishRequest

/-- The first piece in flight of a list at an address ends. -/
def endPiece (a : Nat) (data : List Byte) (err : Option BusKind) : List PciPiece → List PciPiece
  | [] => []
  | p :: ps =>
    if p.issued && !p.done && p.addr == a then { p with done := true, err := err, data := data } :: ps else p :: endPiece a data err ps

/-- The first request with a piece in flight that a transaction serves, by its place. -/
def servedRequest (s : State) (t : Trans) : Option Nat :=
  s.pcie.reqs.findIdx? (fun r => r.write == t.write && r.id == some t.id && r.pieces.any (fun p => p.issued && !p.done && p.addr == t.addr))

/-- A response reaches the endpoint: the piece ends, and waiting pieces are issued. -/
def pciReply (t : Trans) (data : List Byte) (err : Option BusKind) (s : State) : State :=
  match servedRequest s t with
  | none => issueRequests s
  | some i =>
    issueRequests (completeRequests
      { s with pcie := { s.pcie with reqs := s.pcie.reqs.modify i (fun r => { r with pieces := endPiece t.addr data err r.pieces }) } })

end Sys2Proof.Machine
end

