-- ==== Sys2Proof/Machine/Tongs.lean ====
section
/-! DEFINITION. Tongs: its registers, its transfers as bursts on the bus matrix, and its chains (spec 11 R305-R308, R311). -/

namespace Sys2Proof.Machine

def tongsPage : Nat := pageIndex ⟨.tongs, 0⟩

/-! ## Channels -/

/-- A register pair of a Tongs channel as an address. -/
def tgAddr (s : State) (c off : Nat) : Nat :=
  (rdReg s tongsPage (0x700 + 0x20 * c + off)).toNat + 2 ^ 32 * fld (rdReg s tongsPage (0x704 + 0x20 * c + off)) 15 0

def tgLen (s : State) (c : Nat) : Nat := (rdReg s tongsPage (0x710 + 0x20 * c)).toNat
def tgChan (s : State) (c : Nat) : TongsChan := smGet {} s.tongs c
def setTg (c : Nat) (x : TongsChan) (s : State) : State := { s with tongs := smPut {} s.tongs c x }

/-- Whether two ranges [a, a + n) and [b, b + m) overlap. -/
def overlap (a n b m : Nat) : Bool := decide (a < b + m ∧ b < a + n)

/-- The transactions of a channel that are outstanding (R306). -/
def tgFlight (s : State) (c : Nat) : Nat := (s.trans.filter (fun t => t.master == .tongs && t.id == c)).length

/-- The channel stops with an ERR, and with IRQE the ERR bit of the page sets; responses still to come are discarded (R308). -/
def tgFails (c err : Nat) (s : State) : State :=
  let o := 0x71C + 0x20 * c
  let s := { s with trans := s.trans.map (fun t => if t.use = .tongs c then { t with use := .dropped } else t) }
  let s := setTg c {} (modReg tongsPage o (fun w => setFld w 23 20 err) s)
  if bit (rdReg s tongsPage o) 29 then raiseBit tongsPage (8 + c) s else s

/-- DONE of a channel, and with IRQE the DONE bit of the page. -/
def tgDone (c : Nat) (s : State) : State :=
  let o := 0x71C + 0x20 * c
  let s := modReg tongsPage o (fun w => setBit w 19 true) s
  if bit (rdReg s tongsPage o) 29 then raiseBit tongsPage c s else s

/-! ## Bursts (R306) -/

/-- The length of a burst from a to d of at most n bytes, all multiples of 8: it crosses no 256-byte boundary of either address, and both
addresses are aligned to it as R295 asks. How a transfer is cut within these bounds is the model's (log 140). -/
def burstLen (a d n : Nat) : Nat :=
  let m := min n (min (256 - a % 256) (256 - d % 256))
  if a % lowBit m = 0 ∧ d % lowBit m = 0 then m else m - 8

/-- A burst enters the master port; its channel was the last to. -/
def tgEnter (c : Nat) (write : Bool) (a : Nat) (data : List Byte) (n : Nat) (s : State) : State :=
  enterPort .tongs c write a data n (.tongs c) { s with tongsLast := c }

/-- What a channel does next: it writes the oldest burst that it has read, else it reads the next one, else nothing. A burst without a
path at either end ends the transfer. ABORT lets no further burst begin. -/
def tgBurst (s : State) (c : Nat) : Option State :=
  let x := tgChan s c
  let a := tgAddr s c 0
  let d := tgAddr s c 8
  if !x.running || x.chaining || decide (2 ≤ tgFlight s c) then none
  else match x.data.find? (fun p => p.1 == x.wrote) with
    | some p =>
      some (tgEnter c true (d + p.1) p.2 p.2.length
        (setTg c { x with wrote := x.wrote + p.2.length, data := x.data.filter (fun q => q.1 != p.1) } s))
    | none =>
      if x.abort ∨ tgLen s c ≤ x.read then none
      else if !pathOk .tongs (targetOf s (a + x.read)) || !pathOk .tongs (targetOf s (d + x.read)) then some (tgFails c 9 s)
      else
        let n := burstLen (a + x.read) (d + x.read) (tgLen s c - x.read)
        some (tgEnter c false (a + x.read) [] n (setTg c { x with read := x.read + n } s))

/-- The channels take turns at the port, each as long as it can go on. -/
def tgIssue : Nat → State → State
  | 0, s => s
  | n + 1, s =>
    match (List.range 8).findSome? (fun i => tgBurst s ((s.tongsLast + 1 + i) % 8)) with
    | some s => tgIssue n s
    | none => s

/-- At most 16 bursts are outstanding, and each channel ends at most once. -/
def tgIssueAll (s : State) : State := tgIssue 24 s

/-! ## Transfers (R305-R308) -/

/-- Whether an MRAM bank is executing: it overlaps the code descriptor of the active pair (R305). -/
def executing (s : State) (b : Nat) : Bool :=
  match activePair s with
  | none => false
  | some p =>
    let d := seg (eng s (1024 + p)) 0
    overlap (segBase d) (d.w2.toNat + 1) (0x2000000 + 0x400000 * b) 0x400000

/-- The error with which a transfer is refused at its start, 0 none (R305, R306). -/
def tgRefused (s : State) (c : Nat) : Nat :=
  let a := tgAddr s c 0
  let d := tgAddr s c 8
  let n := tgLen s c
  if a % 8 ≠ 0 ∨ d % 8 ≠ 0 ∨ n % 8 ≠ 0 ∨ n = 0 ∨ overlap a n d n then 6
  else if (List.range 2).any (fun b => executing s b && overlap d n (0x2000000 + 0x400000 * b) 0x400000) then 7
  else 0

/-- A transfer starts, from the registers or from a descriptor. -/
def tgStart (c : Nat) (last irq : Bool) (s : State) : State :=
  match tgRefused s c with
  | 0 => tgIssueAll (setTg c { running := true, abort := (tgChan s c).abort, last := last, irq := irq } s)
  | e => tgFails c e s

/-- The descriptor at NEXT is asked for (R307). -/
def tgChain (c : Nat) (s : State) : State :=
  let a := tgAddr s c 0x14
  if !pathOk .tongs (targetOf s a) then tgFails c 9 s
  else enterPort .tongs c false a [] 32 (.tongs c) (setTg c { tgChan s c with chaining := true } s)

/-- The descriptor is loaded into the registers and its transfer starts (R307). -/
def tgLoad (c : Nat) (bs : List Byte) (s : State) : State :=
  let r := 0x700 + 0x20 * c
  let w := fun (i : Nat) => leNat ((bs.drop (4 * i)).take 4)
  let flags := w32 (w 5)
  let put := fun (off v : Nat) (s : State) => wrReg tongsPage (r + off) (w32 v) s
  tgStart c (bit flags 1) (bit flags 0)
    (put 0x18 (w 7 % 2 ^ 16) (put 0x14 (w 6 / 32 * 32) (put 0x10 (w 4)
      (put 0xC (w 3 % 2 ^ 16) (put 8 (w 2) (put 4 (w 1 % 2 ^ 16) (put 0 (w 0) s)))))))

/-- A response reaches the channel that waits for it: an error ends the transfer, data are to be written, a write is acknowledged. -/
def tongsReply (c : Nat) (t : Trans) (data : List Byte) (err : Option BusKind) (s : State) : State :=
  let x := tgChan s c
  match err with
  | some k => tgIssueAll (tgFails c (busCode k) s)
  | none =>
    if x.chaining then tgLoad c data s
    else if t.write then tgIssueAll (setTg c { x with acked := x.acked + t.len } s)
    else tgIssueAll (setTg c { x with data := x.data ++ [(t.addr - tgAddr s c 0, data)] } s)

/-- TONGS_TRANSFER_END: every write of the transfer is acknowledged, and the channel goes on with its chain or is DONE; or ABORT has
stopped it at a burst boundary. -/
def tongsEnd (c : Nat) (s : State) : State :=
  let x := tgChan s c
  if !x.running ∨ x.chaining ∨ (tgFlight s c ≠ 0 ∨ x.data ≠ []) then s
  else if x.abort then tgFails c 8 s
  else if x.acked < tgLen s c then s
  else if bit (rdReg s tongsPage (0x71C + 0x20 * c)) 28 ∧ !x.last then tgChain c (if x.irq then tgDone c s else s)
  else tgDone c (setTg c {} s)

/-! ## Registers (R308, R311; 12 R333) -/

/-- A write of TG_CTLSTAT. While a snapshot runs, a GO to channel 7 is rejected. -/
def tgCtlWrite (c : Nat) (m : Master) (v : Word) (s : State) : State :=
  let o := 0x71C + 0x20 * c
  let x := tgChan s c
  if bit v 31 ∧ (x.running ∨ (c = 7 ∧ s.snap.running)) then rejectWrite tongsPage o m s
  else
    let s := modReg tongsPage o (fun w => let w := setBit (setBit w 29 (bit v 29)) 28 (bit v 28); if bit v 19 then setBit w 19 false else w) s
    let s := if bit v 30 ∧ x.running then setTg c { x with abort := true } s else s
    if bit v 31 then tgStart c false false (modReg tongsPage o (fun w => setFld w 23 20 0) s) else s

/-- A write of an address or length register of a channel: rejected while GO reads 1. -/
def tgRegWrite (c off : Nat) (m : Master) (fs : List Field) (v : Word) (s : State) : State :=
  if (tgChan s c).running then rejectWrite tongsPage off m s else modReg tongsPage off (fun w => (mergeWord fs w v).1) s

end Sys2Proof.Machine
end

