-- ==== Sys2Proof/Machine/Replies.lean ====
section
/-! DEFINITION. Where the responses of the bus matrix go (spec 11 R293-R300, R309). -/

namespace Sys2Proof.Machine

/-- The code of an outcome in an RSP frame (13 R352). -/
def rspCode : Option BusKind → Nat
  | none => 0
  | some k => busCode k

/-- A response goes to what its transaction is for. -/
def giveReply (t : Trans) (data : List Byte) (err : Option BusKind) (s : State) : State :=
  match t.use with
  | .plain => { s with replies := s.replies ++ [⟨t.master, t.id, t.write, data, err⟩] }
  | .load k | .lr k | .sc k | .tas k _ => loadReply k data err s
  | .tasLate k _ => settled k (tasReply k data err s)
  | .store k => match err with
    | some e => storeBusError k (busCode e) s
    | none => storeLeaves k s
  | .queue k serial => queueReply k serial data err s
  | .tongs c => tongsReply c t data err s
  | .pci => pciReply t data err s
  | .agent f => sendTo (response s f (rspCode err) data) s
  | .dropped => s

/-- A response reaches its master; an error is captured by the MX page while D8 is up (R309; 01 R21). -/
def matrixReply (t : Trans) (data : List Byte) (err : Option BusKind) (s : State) : State :=
  giveReply t data err (match err with
    | some k => if domLost s 8 then s else mxError t.master t.addr (busCode k) s
    | none => s)

/-- The data of an error response: a read of the default target returns 0 (R299). -/
def errorData (t : Trans) : List Byte := if t.write then [] else List.replicate t.len 0

/-- Transaction n leaves its port and does something that gives its response; its target grants the next master. -/
def endTrans (n : Nat) (t : Trans) (f : State → (List Byte × Option BusKind) × State) (s : State) : State :=
  let r := f { s with trans := s.trans.eraseIdx n }
  grantAll (matrixReply t r.1.1 r.1.2 r.2)

/-- Transaction n ends with an error. -/
def endWith (n : Nat) (t : Trans) (k : BusKind) (s : State) : State := endTrans n t (fun s => ((errorData t, some k), s)) s

end Sys2Proof.Machine
end

