-- ==== Sys2Proof/Machine/Versions.lean ====
section
/-! DEFINITION. Image slots, their versions, the combination that runs, and the update journal (spec 17 R438, R439; 18 R452-R458). -/

namespace Sys2Proof.Machine

def updPage : Nat := pageIndex ⟨.upd, 0⟩

/-! ## Image slots (17 R438, R439) -/

/-- Move a range of memory to another key, whose old contents go. -/
def copyRange (src dst n : Nat) (s : State) : State :=
  forEach (s.mem.filter (fun c => decide (src ≤ c.1 ∧ c.1 < src + n))) (wipeMem dst (dst + n) s)
    (fun c s => setByte (dst + (c.1 - src)) c.2 s)

/-- The content of a component's slot, after the manifest block (R438, R439). -/
def slotContent (comp : Nat) (b : Bool) : Nat :=
  0x1000 + (match comp, b with
    | 0, false => 0x2000000 | 0, true => 0x2500000
    | 1, false => 0x2100000 | 1, true => 0x2440000
    | 2, false => 0x2140000 | 2, true => 0x2480000
    | 3, false => 0x2170000 | 3, true => 0x24B0000
    | 4, false => 0x21C0000 | 4, true => 0x2600000
    | _, false => 0x21D0000 | _, true => 0x2610000)

/-- UP_SLOTS, which the control area keeps: the committed slots, those pending and those held back (18 R454, R470; log 184). -/
def upSlots (s : State) : Word := mramWord s comboLine

/-- A change of UP_SLOTS. -/
def setSlots (f : Word → Word) (s : State) : State := linePut comboLine (f (upSlots s)) s

/-- The components in the order of their activation, the last first (18 R454), as the control area keeps them: one more than each, four
bits a component. -/
def activated (s : State) : List Nat :=
  let w := mramWord s (comboLine + 4)
  (List.range 8).filterMap (fun i => if fld w (4 * i + 3) (4 * i) = 0 then none else some (fld w (4 * i + 3) (4 * i) - 1))

/-- A component is the one activated last. -/
def noteActivated (comp : Nat) (s : State) : State :=
  let l := comp :: (activated s).filter (· != comp)
  linePut (comboLine + 4) (w32 (forUpTo 8 0 (fun i n => n + (match l[i]? with | some c => c + 1 | none => 0) * 16 ^ i))) s

/-- Whether a component's committed slot is B. -/
def committedB (s : State) (comp : Nat) : Bool := bit (upSlots s) comp

/-- Whether the slot that a component's blocks are loaded from is B: its pending slot while an update activates it, else its committed
one (18 R458). -/
def runB (s : State) (comp : Nat) : Bool := committedB s comp != bit (upSlots s) (8 + comp)

/-- The key of an image slot. -/
def slotKey (c : Nat) (b : Bool) : Nat := 2 * c + b.toNat

/-- A change of what the firmware knows of the slots. -/
def modImages (f : Images → Images) (s : State) : State := { s with images := f s.images }

/-- A field of DEV_STAT. -/
def devStat (hi lo v : Nat) (s : State) : State := modReg devPage 0x700 (fun w => setFld w hi lo v) s

/-- The line of the journal area that marks the slots not verified, by slotKey (18 R458; log 184). -/
def markLine : Nat := 0x243FFC0

/-- Whether a slot is marked not verified. -/
def unverified (s : State) (k : Nat) : Bool := bit (mramWord s markLine) k

/-- A slot is marked not verified, or verified. -/
def markSlot (k : Nat) (bad : Bool) (s : State) : State := linePut markLine (setBit (mramWord s markLine) k bad) s

/-- What R452 says of the list of a manifest: at most 16 versions of each other component, and for a customer quarter those of the component
that it extends only. -/
def manifestFits (m : Manifest) : Bool :=
  (List.range 6).all (fun c => decide ((m.tested.filter (fun t => t.1 == c)).length ≤ 16))
    && m.tested.all (fun t => decide (t.1 < 6) && t.1 != m.comp && (if m.comp = 4 then t.1 == 2 else if m.comp = 5 then t.1 == 3 else true))

/-- UP_STAT. -/
def upStat (open_ : Bool) (step comp : Nat) (slotB : Bool) (res chunks : Nat) : Word :=
  w32 (open_.toNat * 2 ^ 31 + step * 2 ^ 28 + comp * 2 ^ 24 + slotB.toNat * 2 ^ 23 + res * 2 ^ 20 + chunks % 65536)

/-! ## Tested combinations (18 R453, R454) -/

/-- The manifest of a verified image in a slot. -/
def slotManifest (s : State) (c : Nat) (b : Bool) : Option Manifest :=
  if unverified s (slotKey c b) then none
  else (smGet none s.images.slots (slotKey c b)).filter (fun m => m.comp == c && manifestFits m)

/-- Whether a manifest lists a version of another component. -/
def listsVersion (m x : Manifest) : Bool := m.tested.contains (x.comp, x.version)

/-- A tested pair (R453). -/
def testedPair (x y : Manifest) : Bool := listsVersion x y || listsVersion y x

/-- The manifest of a component in a combination, which gives the slot of each component (bit set: B). A firmware that a PCIe boot took
from the host bank is in no slot. -/
def comboManifest (s : State) (c : Word) (comp : Nat) : Option Manifest :=
  if comp = 0 ∧ s.images.host.isSome then s.images.host else slotManifest s comp (bit c comp)

/-- Whether a customer quarter takes part: an image of it is installed and the customer key is used (R467). -/
def quarterIn (s : State) (c : Word) (q : Nat) : Bool :=
  s.keyFused && s.lifecycle != 3 && s.images.installed.contains (slotKey q (bit c q))

/-- The components of a combination and the pairs that R453 asks about. -/
def comboParts (s : State) (c : Word) : List Nat := [0, 1, 2, 3] ++ [4, 5].filter (quarterIn s c)
def comboPairs (s : State) (c : Word) : List (Nat × Nat) :=
  [(0, 1), (0, 2), (0, 3), (1, 2), (1, 3), (2, 3)] ++ [(2, 4), (3, 5)].filter (fun p => quarterIn s c p.2)

/-- Of two components the one with the higher version, and of equals the one activated last (R454). -/
def higherOf (s : State) (x y : Nat) (vx vy : Word) : Nat :=
  if vy < vx then x else if vx < vy then y
  else ((activated s).find? (fun c => c == x || c == y)).getD y

/-- The component that an untested pair of a combination concerns, if the pair is untested. -/
def pairFault (s : State) (c : Word) (x y : Nat) : Option Nat :=
  match comboManifest s c x, comboManifest s c y with
  | some a, some b => if testedPair a b then none else some (higherOf s x y a.version b.version)
  | _, _ => none

/-- The component Z of R454 for a combination, none where it is tested: a slot that failed its signature comes before an untested pair
(log 145). -/
def comboFault (s : State) (c : Word) : Option Nat :=
  match (comboParts s c).find? (fun x => (comboManifest s c x).isNone) with
  | some z => some z
  | none => (comboPairs s c).findSome? (fun p => pairFault s c p.1 p.2)

/-- What R454 decides: the combination, the components held with the version held and the version kept, and the component for which the
device enters Service-Safe. -/
structure Selection where
  slots : Word
  held : List (Nat × Word × Word)
  safe : Option Nat
  deriving DecidableEq, Repr

/-- The image that stands in for a component: that of its other slot, where it is verified and holds a lower version. A firmware in the
host bank has no other slot, and the version of a slot that failed is open (log 145). -/
def standIn (s : State) (c : Word) (z : Nat) : Option Manifest :=
  if z = 0 ∧ s.images.host.isSome then none
  else match slotManifest s z (!bit c z), comboManifest s c z with
    | some m, some old => if m.version < old.version then some m else none
    | some m, none => some m
    | none, _ => none

/-- The selection of R454, of at most n changes. -/
def selectFrom (s : State) : Nat → Selection → Selection
  | 0, x => x
  | n + 1, x =>
    match comboFault s x.slots with
    | none => x
    | some z =>
      match standIn s x.slots z with
      | none => { x with safe := some z }
      | some m =>
        let old := match comboManifest s x.slots z with | some o => o.version | none => BitVec.ofNat 32 (freeVal 32 s)
        selectFrom s n ⟨setBit x.slots z (!bit x.slots z), x.held ++ [(z, old, m.version)], none⟩

/-- The combination that the control area holds: the committed slots, a pending one in place of its committed one (R454). -/
def committedCombo (s : State) : Word :=
  let c := upSlots s &&& 0x3F
  match s.journal with
  | some j => if j.step = 5 then setBit c j.comp j.slotB else c
  | none => c

/-- The selection at start-up. Each component gives way once, for its stand-in is never the slot that it left. -/
def selectCombo (s : State) : Selection := selectFrom s 7 ⟨committedCombo s, [], none⟩

/-- A VERSION_HELD record (R454). -/
def versionHeld (z : Nat) (held kept : Word) (s : State) : State :=
  offer 0x9001 3 updPage false ([BitVec.ofNat 8 z, 0, 0, 0] ++ leBytes 4 held.toNat ++ leBytes 4 kept.toNat) s

/-- UP_VERc. -/
def upVer (s : State) (comp : Nat) : Word := rdReg s updPage (0x710 + 4 * comp)

/-- Whether a customer quarter is loaded (R454, R467): its verified image takes part and it is not held. -/
def quarterLoaded (s : State) (q : Nat) : Bool :=
  quarterIn s (setBit 0 q (runB s q)) q && (slotManifest s q (runB s q)).isSome && !bit (upSlots s) (16 + q)

/-- The version of a component in the slot that its blocks are loaded from. -/
def runVersion (s : State) (comp : Nat) : Word := match slotManifest s comp (runB s comp) with | some m => m.version | none => 0

/-- A selection takes effect: its records, UP_SLOTS and the versions that run. The combination is committed only where the device does not
enter Service-Safe; a component that does not run shows version 0 (log 146). -/
def runSelection (x : Selection) (s : State) : State :=
  let s := forEach x.held (tick s) (fun h s =>
    versionHeld h.1 h.2.1 h.2.2 (raiseBit updPage 2 (setSlots (fun w => setBit w (16 + h.1) true) s)))
  let s := if x.safe.isSome then s else setSlots (fun w => setFld w 5 0 x.slots.toNat) s
  forUpTo 6 s (fun c s =>
    let runs := c < 4 || quarterLoaded s c
    wrReg updPage (0x710 + 4 * c) (match comboManifest s x.slots c with | some m => if runs then m.version else 0 | none => 0) s)

/-! ## The update journal (18 R457, R458) -/

/-- The journal area: 3,071 lines of 64 bytes, and the line of the marks (17 R438; log 185). -/
def journalLine (n : Nat) : Nat := 0x2410000 + 64 * (n % 3071)

/-- The CRC of a journal line or of a calibration record (log 185). -/
def lineCrc (bs : List Byte) : Nat := (crc32 bs).toNat % 65536

/-- What a journal line holds before its CRC: the digest, the version, the number of the update, and the step with the component, the slot,
the chunks, the place and length of the image and the mark that the slot had; step 0 closes the journal (log 185). -/
def journalBody (j : Journal) (step : Nat) : List Byte :=
  leBytes 48 j.digest.toNat ++ leBytes 4 j.manifest.version.toNat ++ leBytes 2 j.number
    ++ leBytes 8 (step + 8 * j.comp + 64 * j.slotB.toNat + 128 * (decide (0xC00000 ≤ j.src)).toNat + 2 ^ 8 * j.chunks + 2 ^ 16 * (j.src % 0x400000)
      + 2 ^ 38 * j.len + 2 ^ 61 * j.was.toNat)

/-- A journal step commits by one single-line write that carries a CRC (R457). -/
def putJournal (j : Journal) (step : Nat) (s : State) : State :=
  let b := journalBody j step
  bankPut (firmwareMaster s) (journalLine j.line) (b ++ leBytes 2 (lineCrc b)) s

/-- The journal step that a line commits, none where its CRC is bad (R457). -/
def journalAt (s : State) (n : Nat) : Option Journal :=
  let b := memBytes s (journalLine n) 64
  if lineCrc (b.take 62) ≠ leNat (b.drop 62) then none
  else
    let w := leNat ((b.drop 54).take 8)
    let len := w / 2 ^ 38 % 2 ^ 23
    let comp := w / 8 % 8
    some { comp := comp, slotB := w / 64 % 2 == 1, manifest := ⟨comp, w32 (leNat ((b.drop 48).take 4)), len - 0x1000, []⟩,
           src := (if w / 128 % 2 = 1 then 0xC00000 else 0x800000) + w / 2 ^ 16 % 0x400000, len := len,
           digest := BitVec.ofNat 384 (leNat (b.take 48)), step := w % 8, chunks := w / 2 ^ 8 % 256, was := w / 2 ^ 61 % 2 == 1,
           number := leNat ((b.drop 52).take 2), line := n + 1 }

/-- The last committed line of the update that the first line opened. -/
def lastLine (s : State) : Nat → Nat → Option Journal → Option Journal
  | 0, _, j => j
  | f + 1, n, j =>
    match journalAt s n with
    | none => j
    | some x => if j.all (fun y => y.number == x.number) then lastLine s f (n + 1) (some x) else j

/-- The journal as start-up or a failover finds it in MRAM: none where it is closed (R458). The manifest is that of the image in the slot,
where one of the version is there. -/
def readJournal (s : State) : Option Journal :=
  match lastLine s 3071 0 none with
  | none => none
  | some j =>
    if j.step = 0 then none
    else match smGet none s.images.slots (slotKey j.comp j.slotB) with
      | some m => some (if m.version = j.manifest.version then { j with manifest := m } else j)
      | none => some j

/-- The number of a new update: after those of the first two lines. -/
def nextUpdate (s : State) : Nat :=
  ((match journalAt s 0 with | some j => j.number | none => 0).max (match journalAt s 1 with | some j => j.number | none => 0) + 1) % 65536

/-- A journal step commits: its line is written, and UP_STAT and PG_IRQ_RAW.STEP follow. -/
def noteStep (j : Journal) (s : State) : State :=
  let j := match s.journal with
    | some x => { j with number := x.number, line := x.line }
    | none => { j with number := nextUpdate s, line := 0 }
  wrReg updPage 0x700 (upStat true j.step j.comp j.slotB 0 j.chunks) (raiseBit updPage 0 { putJournal j j.step s with journal := some { j with line := j.line + 1 } })

/-- The closing line of an open journal. -/
def closeLine (s : State) : State :=
  match s.journal with
  | some x => { putJournal x 0 s with journal := none }
  | none => s

/-- An update ends with an outcome (R458, R470, R471): its journal closes and an UPDATE record follows. Where it was committed, its slot is
the committed one and nothing is held any longer (R455), and the boot control line names it where it is the firmware's; where it was rolled
back before step 2, its slot is what it was. -/
def closeJournal (j : Journal) (res : Nat) (s : State) : State :=
  let k := slotKey j.comp j.slotB
  let s := setSlots (fun w => setBit w (8 + j.comp) false) (closeLine (if j.step ≤ 1 then markSlot k j.was s else s))
  let s := if res = 1 then
      let s := wrReg updPage (0x710 + 4 * j.comp) j.manifest.version (setSlots (fun w => setBit w j.comp j.slotB) s)
      noteActivated j.comp (if j.comp = 0 then linePut bootLine (w32 (1 + j.slotB.toNat)) (modImages (fun i => { i with host := none }) s) else s)
    else s
  let s := raiseBit updPage (if res = 3 then 2 else 1) (wrReg updPage 0x700 (upStat false j.step j.comp j.slotB res j.chunks) s)
  submitEvent 0x9002 1 updPage ([BitVec.ofNat 8 j.comp, BitVec.ofNat 8 res, 0, 0] ++ leBytes 4 j.manifest.version.toNat) s

/-- Step 1: the slot is marked not verified (R458). -/
def openJournal (j : Journal) (s : State) : State :=
  let k := slotKey j.comp j.slotB
  markSlot k true (noteStep { j with was := unverified s k } s)

/-- The chunks of an image (R458). -/
def chunksOf (len : Nat) : Nat := (len + 0xFFFF) / 0x10000

/-- Tongs moves a range into MRAM (R457): the lines enter the buffer of their bank. The channel that the firmware takes for it is left out
(log 188). -/
def tongsCopy (src dst n : Nat) (s : State) : State := mramPush ((dst - 0x2000000) / 0x400000) dst n (copyRange src dst n s)

/-- Step 2 to a chunk: the chunks that are not yet journaled are copied into the slot, each journaled after its writes. -/
def copyChunks (j : Journal) (n : Nat) (s : State) : State :=
  forUpTo (n - j.chunks) s (fun i s =>
    let a := 0x10000 * (j.chunks + i)
    noteStep { j with step := 2, chunks := j.chunks + i + 1 }
      (tongsCopy (j.src + a) (slotContent j.comp j.slotB - 0x1000 + a) (min j.len (a + 0x10000) - a) s))

/-- Step 3: the slot is marked verified (R458). -/
def slotVerified (j : Journal) (s : State) : State :=
  let k := slotKey j.comp j.slotB
  noteStep { j with step := 3 } (markSlot k false
    (modImages (fun i => { i with installed := k :: i.installed.filter (· != k), slots := smPut none i.slots k (some j.manifest) }) s))

/-- Whether the combination with the new slot is tested (step 4). -/
def journalTested (j : Journal) (s : State) : Bool :=
  let s := if j.comp = 0 then modImages (fun i => { i with host := none }) s else s
  (comboFault s (setBit (upSlots s &&& 0x3F) j.comp j.slotB)).isNone

/-- The blocks that the activation of a component visits (R459): the management pairs as one, the tiles, the lane stores, or the cluster
stores. -/
def activationBlocks (comp : Nat) : List Nat :=
  if comp = 0 then [0] else if comp = 1 then List.range 8 else if comp = 2 ∨ comp = 4 then List.range 64 else (List.range 8).map (· + 64)

/-- Steps 4 and 5: an untested combination refuses the update, else the new slot is pending (R458), and nothing is held any longer
(R455). -/
def checkStep (j : Journal) (s : State) : State :=
  if journalTested j s then
    noteStep { j with step := 5, left := activationBlocks j.comp }
      (setSlots (fun w => setBit (setFld w 21 16 0) (8 + j.comp) true) (noteStep { j with step := 4 } s))
  else closeJournal { j with step := 4 } 3 (versionHeld j.comp j.manifest.version (upVer s j.comp) s)

/-- Whether the bank still holds the image of a journal (R458): Tongs can read it, which it cannot while its bank is not ON (11 R301), and its
digest is the journaled one. -/
def sourceHolds (s : State) (j : Journal) : Bool :=
  bankOpen s .tongs j.src && decide (Config.sha384 (memBytes s j.src j.len) = j.digest)

/-- An open journal after a reset or a failover (R458): it is rolled back, or resumed up to step 5, whose blocks are then all to be activated.
found tells whether the image of a slot passes its signature check. -/
def resolveJournal (found : Nat → Bool) (s : State) : State :=
  match s.journal with
  | none => s
  | some j =>
    let good := found (slotKey j.comp j.slotB)
    if j.step ≤ 1 then closeJournal j 2 s
    else if j.step = 2 then
      if j.chunks < chunksOf j.len ∧ sourceHolds s j = false then closeJournal j 2 s
      else
        let s := if j.chunks < chunksOf j.len then copyChunks j (chunksOf j.len) s else s
        let j := { j with chunks := chunksOf j.len }
        if good then checkStep j (slotVerified j s) else closeJournal j 2 s
    else if j.step < 5 then checkStep j s
    else if good then { s with journal := some { j with left := activationBlocks j.comp } }
    else closeJournal j 2 s

end Sys2Proof.Machine
end

