-- ==== Sys2Proof/Machine/Domains.lean ====
section
/-! DEFINITION. Domains lost, isolated, reset and released (spec 01 R20-R25, 17 R427-R431, 15 R392-R394), and start-up
(17 R432-R437, 18 R454, R466). -/

namespace Sys2Proof.Machine

def rstPage : Nat := pageIndex ⟨.rst, 0⟩
/-! ## Loss (R21-R25) -/

/-- The domain of a transaction's target (R20). -/
def transDomain (t : Trans) : Nat :=
  match t.target with
  | .hbm n => 10 + n
  | .regs => domainOfPage (pageOfAddr t.addr).1
  | _ => 8

/-- The domain of a master. -/
def masterDomain : Master → Nat
  | .pcie | .agent => 9
  | .tileSeq t => t.val
  | _ => 8

/-- In-flight transactions across a lost boundary end with DOMAIN; whatever enters the matrix crosses that of D8 (R21). -/
def endCrossing (d : Nat) (s : State) : State :=
  let cross := fun (t : Trans) => (transDomain t == d || d == 8) && masterDomain t.master != d
  grantAll (forEach (s.trans.filter cross) { s with trans := s.trans.filter (fun t => !cross t && masterDomain t.master != d) }
    (fun t s => matrixReply t (errorData t) (some .domain) s))

/-- The page that stands for a domain in reports. -/
def domainPage (d : Nat) : Nat :=
  if d < 8 then pageIndex ⟨.tile, d⟩ else if d = 8 then rstPage else if d = 9 then fbPage else hbmPage (d - 10)

/-- The sites of a tile's channels are reported degraded (R22). -/
def degradeSites (t : Nat) (s : State) : State :=
  forEach (((List.range 64).filter (fun p => bit (rdReg s (chPage (64 * t + p)) 0x104) 7)).map (fun p => fld (rdReg s (chPage (64 * t + p)) 0x104) 6 0)).eraseDups s
    (fun n s => send (.siteDegraded n) s)

/-- Data of a stack that queues hold are discarded and their requests fail with DOMAIN (R23; 09 R236). -/
def queueLost (n : Nat) (q : List QueueReq) (s : State) : List QueueReq :=
  q.map (fun r => if targetOf s r.addr = .hbm n then { r with words := none, failed := some 4 } else r)

/-- Armed words that went with the stack are armed no longer. -/
def stackLost (n : Nat) (s : State) : State :=
  forEach (smKeys (fun _ e => e.queue.any (fun r => targetOf s r.addr == .hbm n)) s.engines) s (fun k s =>
    modEng k (fun e => let q := queueLost n e.queue s; { e with queue := q, armed := min e.armed (presentWords q) }) s)

/-- The PCIe link goes down (19 R480). -/
def linkDown (s : State) : State :=
  if bit (rdReg s pciePage 0x700) 31 then
    raiseBit pciePage 1 <| modReg fbPage 0x700 (fun w => setBit w 16 false) (modReg pciePage 0x700 (fun w => setBit (setBit (setBit w 31 false) 30 true) 29 false) s)
  else s

/-- What the loss of a domain does, however it came (R21-R25). -/
def lossEffects (d : Nat) (s : State) : State :=
  let s := skipDomain d (endCrossing d s)
  if d < 8 then degradeSites d (forUpTo 64 s (fun p s => trip (64 * d + p) 1 d s))
  else if d = 8 then tripAll 1 8 s
  else if d = 9 then linkDown (fabricLost s)
  else stackLost (d - 10) s

/-- The report of a lost domain (15 R405, R406). -/
def reportLoss (d : Nat) (s : State) : State := report ⟨0, domainPage d, 4, fHW, 16, d, []⟩ s

/-- A domain is lost in one more way: what the loss does happens as it is first lost (R21). -/
def loseBy (d : Nat) (x : Domain) (s : State) : State := if domLost s d then setDom d x s else lossEffects d (setDom d x s)

/-- Isolation by Anvil (15 R406). -/
def isolate (d : Nat) (s : State) : State := if (dom s d).isolated then s else loseBy d { dom s d with isolated := true } s

/-! ## Reset of a domain's pages (R429, 14 R386) -/

/-- Whether a page index belongs to a domain. -/
def inDomain (d p : Nat) : Bool := match pageAt p with | some x => pageDomain x == d | none => false

/-- Whether a reset of a domain resets a page: VAUX alone resets the BELLOWS page (R445). -/
def pageReset (d p : Nat) : Bool := inDomain d p && p != blPage

/-- Whether a register is reset with a domain: its page's, but FB_FT is D8's (13 R365). -/
def resetWith (d p o : Nat) : Bool := if p = fbPage ∧ (o = 0x774 ∨ o = 0x778) then d == 8 else pageReset d p

/-- Every page of a domain takes its reset values. -/
def resetPages (d : Nat) (s : State) : State :=
  let gone := fun k => resetWith d (k / 4096 % 16384) (k % 4096)
  let page := pageReset d
  { s with regs := smDrop gone s.regs, held := smDrop gone s.held, swapped := smDrop page s.swapped, calSwapped := smDrop page s.calSwapped,
           wms := smDrop (fun k => pageReset d (k / 4)) s.wms, irqOut := smDrop page s.irqOut, msixDue := smDrop page s.msixDue,
           fstat := smDrop gone s.fstat }

/-- A channel after the reset of its tile: its registers and status are at reset (00 R12), its outputs open (15 R394) until the tile
restarts (R429); what the lane holds of it is D8's. -/
def tileChan (opened : Bool) (x : Chan) : Chan :=
  { open_ := opened, credit := x.credit, laneStream := x.laneStream, laneSrc := x.laneSrc,
    laneSrcNext := x.laneSrcNext, stopOnWay := x.stopOnWay, laneCrc := x.laneCrc, lanePos := x.lanePos, emitted := x.emitted,
    s0 := x.s0, last := x.last, marks := x.marks, markStop := x.markStop }

/-- The channels of a tile whose SRC a reset takes back to 0: the change goes on its way to the lane (02 R57). -/
def resetSources (t : Nat) (s : State) : State :=
  forUpTo 64 s (fun p s => srcChange (64 * t + p) (rdReg s (chPage (64 * t + p)) 0x100) 0 s)

/-- Reset of a tile (R429): the Palette is X (log 4) and the FIFOs are empty. -/
def resetTile (t : Nat) (s : State) : State :=
  let s := resetPages t (resetSources t s)
  let s := { s with pal := smDrop (fun k => k / 512 / 64 == t) s.pal, palHeld := smDrop (fun k => k / 256 / 64 == t) s.palHeld,
                    palCmds := smDrop (fun l => l / 8 == t) s.palCmds }
  forUpTo 64 s (fun p s => modChan (64 * t + p) (tileChan true) s)

/-- A channel after the reset of D8: the lane's side of it is at reset. -/
def laneChan (x : Chan) : Chan :=
  { x with credit := 0, laneStream := false, laneSrc := false, laneSrcNext := [], emits := [], creditsBack := 0, stopOnWay := false,
           results := [], laneCrc := 0xFFFFFFFF, lanePos := 0, emitted := 0, markStop := false }

/-- Patina after a reset of D8 (16 R412, R420): the volatile ring is lost, SEQ restarts, and the head and tail of the MRAM ring are those
that its control line holds. -/
def patinaRestart (s : State) : State :=
  wrReg patPage 0x70C (mramWord s (patLine + 4)) (wrReg patPage 0x708 (mramWord s patLine) { s with patina := {} })

/-- Whether READY of a domain's pages is 1 (14 R373). -/
def domReady (s : State) (d : Nat) : Bool := match (dom s d).waits with | some t => decide (t < s.now) | none => true

/-- The instants at which the pages of the other domains become READY, counted from a restart of FT. -/
def rebaseReady (s : State) : State :=
  forUpTo 14 s (fun d t => setDom d { dom t d with waits := if domReady s d then none else (dom s d).waits.map (fun x => x - s.now) } t)

/-- Live writes of a channel page that wait for a boundary take effect once no stroke will begin (02 R62, log 171). -/
def settleHeld (s : State) : State :=
  forUpTo 512 s (fun c s =>
    if (smKeys (fun k _ => k / 4096 == chPage c) s.held).isEmpty && (smKeys (fun k _ => k / 256 == c) s.palHeld).isEmpty then s
    else takeEffect c false s)

/-- Reset of D8 (R429): engines, lanes, stores, Anvil, the matrix and Fabric Time. -/
def resetCore (s : State) : State :=
  let s := rebaseReady (patinaRestart (resetPages 8 s))
  let s := forUpTo 512 s (fun c s => modChan c laneChan s)
  settleHeld <|
  { s with now := 0, bases := [], tables := [], engines := [], stale := [], lanes := [], stores := [], seqs := [], fails := [], welds := [],
           reports := [], anvil := [], nextFid := 1, corrected := [], trans := s.trans.filter (fun t => masterDomain t.master != 8),
           replies := s.replies.filter (fun r => masterDomain r.master != 8), power := [], granted := [], tongs := [], tongsLast := 7, hang := [], hangAsk := none,
           fabHangAsk := none, copies := [], fstat := [], snap := {}, temper := { base := opsec s }, primer := {}, calDue := [], loaded := [], taken := [],
           ports := s.ports.map (fun e => (e.1, { e.2 with lastSync := 0, sync := none, faultAt := none })),
           fabric := { s.fabric with ended := s.fabric.ended.map (fun e => (e.1, 0)), timeNew := true, lockRun := 0,
                                     outstanding := s.fabric.outstanding.map (fun x => { x with sentAt := 0 }) } }

/-- Reset of D9 (R429). -/
def resetFabric (s : State) : State := { resetPages 9 s with ports := [], fabric := {}, pcie := {} }

/-- Reset of an HBM domain: the contents are X (log 5). -/
def resetStack (n : Nat) (s : State) : State :=
  wipeMem (0x2000000000 + n * 0x600000000) (0x2000000000 + (n + 1) * 0x600000000) (resetPages (10 + n) s)

/-- The reset of a domain. -/
def resetDomain (d : Nat) (s : State) : State :=
  if d < 8 then resetTile d s else if d = 8 then resetCore s else if d = 9 then resetFabric s else resetStack (d - 10) s

/-- DOMAIN_LOSS (R21-R25): a domain that enters reset is reset (R429). The loss of power-good and an isolation are reported (15 R403, R406),
ahead of the trips that follow from them (R405). -/
def loseDomain (d : Nat) (c : LossCause) (s : State) : State :=
  match c with
  | .powerGood =>
    if !(dom s d).good then s
    else loseBy d { dom s d with good := false } (reportLoss d (raiseBit rstPage 0 s))
  | .reset => if (dom s d).inReset then s else resetDomain d (loseBy d { dom s d with inReset := true, due := false } s)
  | .isolated => if (dom s d).isolated then s else isolate d (reportLoss d s)

/-- The domains that a thermal trip holds in reset (19 R483). -/
def thermalHeld (s : State) (d : Nat) : Bool := s.thermal.trip && (d < 8 || 10 ≤ d)

/-- A domain leaves reset: READY of its pages sets after a free time within 10 µs (14 R373), and the firmware has to restart it (R437). One
that a thermal trip holds stays in reset. -/
def releaseDomain (d : Nat) (s : State) : State :=
  if thermalHeld s d then s
  else setDom d { dom s d with inReset := false, isolated := false, due := true, waits := some (s.now + freeVal 30 s % (10 * us)) } (tick s)

/-! ## Start-up (R432-R435) -/

/-- The words of a control store in an image slot's content (R439). -/
def storeImage (s : State) (base_ n : Nat) : SMap Wide :=
  forUpTo n [] (fun i m => smPut 0 m i (BitVec.ofNat 256 (leNat (memBytes s (base_ + 32 * i) 32))))

/-- The 32 socket-table entries that follow the words of a customer lane quarter (R439). -/
def loadSockets (l base_ : Nat) (s : State) : State :=
  forUpTo 32 s (fun n s => wrReg (storePage l) (0x780 + 4 * n) (BitVec.ofNat 32 (leNat (memBytes s (base_ + 4 * n) 4))) s)

/-- Step 4 for a store (07 R205): RUNNING with the image of its component, Open where its quarter is loaded, and LDPTR at the end (07 R210), or FAILED,
for a reason that is free. The bit LOADED stands for a COMMIT that software makes and is not raised (07 R207, log 179). -/
def bootStore (i : Nat) (bad : Bool) (s : State) : State :=
  let comp := if i < 64 then 2 else 3
  let open_ := quarterLoaded s (comp + 2)
  if bad then
    raiseBit (storePage i) 1 (capture (storePage i) fHW 0x700 0 (setStore i { low := 3, up := if open_ then 3 else 0, err := 1 + freeVal 2 s % 3 } (tick s)))
  else
    let whole := storeImage s (slotContent comp (runB s comp)) (if open_ then quarter i else storeSize i)
    let from_ := slotContent (comp + 2) (runB s (comp + 2))
    let n := storeSize i - quarter i
    let own := if open_ then (storeImage s from_ n).map (fun w => (quarter i + w.1, w.2)) else []
    let s := setStore i { words := whole ++ own, ptr := storeSize i, low := 2, up := if open_ then 2 else 0, mode := open_, version := if open_ then runVersion s (comp + 2) else 0 } s
    if open_ ∧ i < 64 then loadSockets i (from_ + 32 * n) s else s

/-- Step 4: the control stores and the tiles (R435). -/
def startStores (b : BootFind) (s : State) : State :=
  let s := forUpTo 64 s (fun l s => bootStore l (b.laneBad.contains l) s)
  forUpTo 8 s (fun k s => bootStore (64 + k) (b.clusterBad.contains k) s)

def startTiles (b : BootFind) (s : State) : State :=
  forUpTo 8 s (fun t s => if b.tileBad.getLsbD t then isolate t (reportLoss t s) else s)

/-- Training fails: FAILED, and the domain is isolated (R435). -/
def trainFails (n : Nat) (s : State) : State := isolate (10 + n) (reportLoss (10 + n) (raiseBit (hbmPage n) 1 (wrReg (hbmPage n) 0x700 0xC0000000 s)))

/-- Training succeeds: READY (R446). -/
def trainReady (n : Nat) (s : State) : State := raiseBit (hbmPage n) 0 (wrReg (hbmPage n) 0x700 0x80000000 s)

/-- Step 5: HBM training; a stack that was not reset keeps its state (R437). -/
def trainStacks (b : BootFind) (s : State) : State :=
  forUpTo 4 s (fun n s =>
    if domLost s (10 + n) ∨ fld (rdReg s (hbmPage n) 0x700) 31 30 = 2 then s
    else if b.stackBad.getLsbD n then trainFails n s else trainReady n s)

/-- No domain waits any longer for the firmware to restart it: start-up has. -/
def restartsDone (s : State) : State := forUpTo 14 s (fun d s => setDom d { dom s d with due := false } s)

/-- Steps 4 to 6: stores, tiles, stacks and ports. -/
def bootBlocks (b : BootFind) (s : State) : State := enablePorts (restartsDone (trainStacks b (startTiles b (startStores b s))))

/-! ## Calibration records (18 R465, R466; log 190) -/

/-- The registers of a channel's constants that a record holds. -/
def calOffsets : List Nat :=
  (List.range 8).map (fun i => 0x400 + 4 * i) ++ (List.range 8).map (fun i => 0x440 + 4 * i) ++ (List.range 8).map (fun i => 0x480 + 4 * i) ++ [0x4A0]

/-- The address of a record in a set: that of a channel, or of tile t at 512 + t. -/
def recordAt (setB : Bool) (n : Nat) : Nat := (if setB then 0x26D0000 else 0x2630000) + 0x400 * n

/-- The SEQ of a record, 0 where there is none. -/
def recordSeq (s : State) (a : Nat) : Nat := (mramWord s a).toNat

/-- The CRC of a record: over its 1,024 bytes but for those of the CRC itself. -/
def recordCrc (b : List Byte) : Nat := (crc32 (b.take 4 ++ b.drop 8)).toNat

/-- Whether a record is there, with a valid CRC. -/
def recordOk (s : State) (a : Nat) : Bool :=
  recordSeq s a != 0 && recordCrc (memBytes s a 1024) == (mramWord s (a + 4)).toNat

/-- PR_COMMIT, which the control line holds. -/
def committedSeq (s : State) : Nat := (mramWord s calLine).toNat

/-- The set with the current record: the valid one of the highest SEQ that is not above the committed value (R466). -/
def currentSet (s : State) (n : Nat) : Option Bool :=
  let ok := fun b => recordOk s (recordAt b n) && decide (recordSeq s (recordAt b n) ≤ committedSeq s)
  match ok false, ok true with
  | true, true => some (decide (recordSeq s (recordAt false n) < recordSeq s (recordAt true n)))
  | true, false => some false
  | false, true => some true
  | false, false => none

/-- The valid records above the committed value: a commit that a reset cut short left them (R466). -/
def cutRecords (s : State) : Nat :=
  let cut := fun b => ((List.range 520).filter (fun n => recordOk s (recordAt b n) && decide (committedSeq s < recordSeq s (recordAt b n)))).length
  cut false + cut true

/-- A constant of a channel goes into both roles. -/
def putConst (p off : Nat) (v : Word) (s : State) : State := wrRole true p off v (wrRole false p off v s)

/-- A channel takes the constants of its current record, or those held in fuses (R435). -/
def loadRecord (c : Nat) (s : State) : State :=
  let p := chPage c
  match currentSet s c with
  | some b =>
    let a := recordAt b c
    putConst p 0x5F0 (w32 (recordSeq s a)) (forEach calOffsets s (fun o s => putConst p o (mramWord s (a + 0x10 + (o - 0x400))) s))
  | none => forEach calOffsets s (fun o s => putConst p o (Config.factoryCal p o) s)

/-- The channels of a tile that is up take their constants. -/
def loadTile (t : Nat) (s : State) : State := if domLost s t then s else forUpTo 64 s (fun p s => loadRecord (64 * t + p) s)

/-- Step 7 (R435; 18 R466): CALV where every channel and tile has a valid record (log 190). -/
def bootConsts (s : State) : State :=
  let n := cutRecords s
  let s := devStat 28 28 ((List.range 520).all (fun i => (currentSet s i).isSome)).toNat (forUpTo 8 s loadTile)
  if n = 0 then s else offer 0xA003 2 (pageIndex ⟨.primer, 0⟩) false (leBytes 2 n) s

/-- While a latch of QD_EMSTAT is set every channel trips (15 R397): so does one that comes back, with the lowest code of those set. -/
def latchHolds (c : Nat) (s : State) : State :=
  let w := emStat s
  if bit w 0 then trip c 2 0 s else if bit w 1 then trip c 3 1 s else if bit w 2 then trip c 4 2 s else s

/-- Every channel holds HIZ with reset CH_FUNC, or its safe state while an emergency latch is set. -/
def hizChannels (s : State) : State :=
  forUpTo 512 s (fun c s =>
    if domLost s (tileOf c) then s
    else latchHolds c (wrReg (chPage c) 0x100 0 (srcChange c (rdReg s (chPage c) 0x100) 0
      (modChan c (fun x => { x with held := false, open_ := false, func := .hiz, cause := 0 }) s))))

/-- Step 8. -/
def bootChannels (s : State) : State := raiseBit devPage 1 (devStat 29 29 0 (devStat 30 30 1 (devStat 3 0 8 (hizChannels s))))

/-- Service-Safe for a component (18 R456), entered at step 2 for the management firmware and at step 4 for the others (log 189); the fabric
keeps running, so that the ports are enabled. -/
def serviceSafe (comp : Nat) (s : State) : State :=
  offer 0x9003 4 updPage false [BitVec.ofNat 8 comp]
    (devStat 30 30 0 (devStat 29 29 1 (devStat 3 0 (if comp = 0 then 2 else 4) (hizChannels (enablePorts (restartsDone s))))))

/-- The image slots as start-up finds them. -/
def foundSlots (b : BootFind) (i : Images) : Images :=
  { i with installed := b.slots.map Prod.fst, slots := forEach b.slots [] (fun e m => smPut none m e.1 e.2) }

/-- An update whose slot was pending ends with the selection: its slot is committed, or held back (R458). -/
def endPending (x : Selection) (s : State) : State :=
  match s.journal with
  | some j => if j.step = 5 then closeJournal { j with step := 6 } (if x.safe.isNone ∧ bit x.slots j.comp = j.slotB then 1 else 3) s else s
  | none => s

/-- The content of the management firmware in a source (R432-R434): 0 slot A, 1 slot B, 2 the host bank, where an image of len bytes has the
format of a slot. Bytes after the content that the manifest states are not read (R439). -/
def firmwareLen (s : State) (src len : Nat) (b : BootFind) : Nat :=
  if src = 2 then min b.host.len (len - 0x1000) else (match slotManifest s 0 (src = 1) with | some m => m.len | none => 0)

/-- The management firmware in the source that the ROM found starts. -/
def startFirmware (src len : Nat) (b : BootFind) (s : State) : State :=
  let s := modImages (fun i => { foundSlots b i with host := if src = 2 then some b.host else none }) s
  let s := copyRange (if src = 2 then 0x801000 else slotContent 0 (src = 1)) 0x400000 (min (firmwareLen s src len b) 0xFF000) s
  let s := wrReg (pageIndex ⟨.mx, 0⟩) 0x700 1 (devStat 27 27 0 (devStat 26 25 src s))
  let s := forUpTo 2 s (fun p s => modEng (1024 + p) (fun e => { e with pc := 0x3FF10 }) s)
  raiseBit devPage 0 (devStat 31 31 1 (devStat 3 0 3 s))

/-- Steps 4 to 8 of R432 for a combination that runs. -/
def startBlocks (b : BootFind) (s : State) : State := bootChannels (bootConsts (bootBlocks b s))

/-- The firmware resolves an open journal, selects the combination that runs (18 R454) and ends start-up at step 8 or in Service-Safe.
Where it holds itself back, it names the other slot in the boot control line, and start-up is not over (18 R455). -/
def runFirmware (b : BootFind) (s : State) : State × Bool :=
  let s := resolveJournal (fun k => (smGet none s.images.slots k).isSome) s
  let x := selectCombo s
  let s := runSelection x (endPending x s)
  match x.safe with
  | some z => (serviceSafe z s, false)
  | none =>
    if x.held.any (fun h => h.1 == 0) then (linePut bootLine (w32 (1 + (bit x.slots 0).toNat)) s, true)
    else (startBlocks b s, false)

/-- The slot that the boot control line names (R433), none where it is blank: 1 names slot A and 2 slot B (log 184). -/
def lineSlot (s : State) : Option Bool :=
  match fld (mramWord s bootLine) 7 0 with
  | 1 => some false
  | 2 => some true
  | _ => none

/-- The slot of the firmware that the ROM starts (R433): that of the boot control line, else the other, if it is verified. A firmware whose
update is at step 5 runs from its pending slot (18 R458). -/
def bootSlot (s : State) : Option Bool :=
  let line := match s.journal with
    | some j => if j.step = 5 ∧ j.comp = 0 then some j.slotB else lineSlot s
    | none => lineSlot s
  let good := fun x => (slotManifest s 0 x).isSome
  line.bind (fun x => if good x then some x else if good (!x) then some (!x) else none)

/-- EMSTOP_N is asserted while D8 comes out of reset: its latch sets again (15 R397, log 162). -/
def pinStays (s : State) : State := if s.pins.emstop then setLatch 0 0 0 s else s

/-- A release of D8 (R431; 16 R412): PCYC counts, and POWER_UP is the first record of the power cycle. -/
def powerUp (cause : Nat) (s : State) : State :=
  let s := vauxPut (clockLine + 4) (w32 (pcyc s + 1)) (wrReg rstPage 0x70C (w32 cause) s)
  pinStays (modPat (fun p => { p with intake := patEvent 0x1001 1 rstPage false (leBytes 4 cause) :: p.intake }) s)

/-- What start-up finds in MRAM: the image slots with their verdicts, and an open journal. The pages of every domain are READY long before
it ends. -/
def bootStart (b : BootFind) (s : State) : State :=
  let s := forUpTo 14 s (fun d s => setDom d { dom s d with waits := none } s)
  let s := modImages (fun _ => foundSlots b {}) s
  { s with journal := readJournal s }

/-- Steps 1 and 2 (R432, R433), then the firmware; a wait for a PCIe boot where no slot holds one. -/
def bootOnce (b : BootFind) (s : State) : State × Bool :=
  let s := bootStart b s
  match bootSlot s with
  | some x => runFirmware b (startFirmware x.toNat 0x100000 b s)
  | none => (devStat 27 27 1 (devStat 3 0 2 s), false)

/-- A firmware that held itself back resets D8, and start-up begins again with the slot that it named (18 R455); the combination that it
committed is tested, so that it does so once. -/
def finishBoot (b : BootFind) (r : State × Bool) : State :=
  if r.2 then (bootOnce b (powerUp 5 (releaseDomain 8 (resetCore (lossEffects 8 r.1))))).1 else r.1

/-- Start-up from step 1, which is one whole (95: DEVICE_RESET, BOOT_SEQUENCE). -/
def boot (b : BootFind) (s : State) : State := finishBoot b (bootOnce b s)

/-- A device reset (R429): every domain, then start-up. A domain that a thermal trip holds stays in reset. The Bellows word tells of the
power cycle before, and is cleared. -/
def resetDevice (cause : Nat) (b : BootFind) (s : State) : State :=
  let s := forUpTo 14 (vauxPut bellowsLine 0 s) (fun d s => lossEffects d s)
  let s := forUpTo 14 { s with bellows := {} } (fun d s => setDom d { dom s d with inReset := thermalHeld s d, isolated := false } (resetDomain d s))
  boot b (powerUp cause (forUpTo 14 s (fun d s => releaseDomain d s)))

/-- A reset of D8 alone (R429, R437): every channel is safe, then start-up. -/
def resetD8 (cause : Nat) (b : BootFind) (s : State) : State :=
  boot b (powerUp cause (releaseDomain 8 (resetCore (lossEffects 8 s))))

/-- A power-on reset (R429): the VAUX logic too, with the write buffers of the MRAM (11 R290); BL_STAT.LAST_PF and LAST_CUT come from the
Bellows word, whose bit 0 says that the last sequence reached step 4 and whose bit 1 that one began (log 184). Only MRAM kept its contents. -/
def powerOn (b : BootFind) (s : State) : State :=
  let s := { s with mem := s.mem.filter (fun c => decide (0x2000000 ≤ c.1 ∧ c.1 < 0x2800000)), mramLines := [], mramGap := [] }
  let w := mramWord s bellowsLine
  let last := 2 * (bit w 0).toNat + (bit w 1).toNat
  let s := { s with regs := smDrop (fun k => k / 4096 % 16384 == blPage) s.regs, wms := smDrop (fun k => k / 4 == blPage) s.wms,
                    irqOut := smPut false s.irqOut blPage false, msixDue := smPut 0 s.msixDue blPage 0, thermal := {} }
  resetDevice 1 b (wrReg blPage 0x700 (w32 (last * 2 ^ 28)) s)

/-- RESET_N: during the Bellows sequence it takes effect at step 4 only (R428, R443). -/
def resetPin (b : BootFind) (s : State) : State :=
  if bit (rdReg s blPage 0x700) 31 then { s with bellows := { s.bellows with reset := some b } } else resetDevice 2 b s

/-- RST_CMD with DEVICE = 1 or a domain (R445): D8 resets and releases at once; the others are asserted or released. -/
def domainCmd (m : Master) (v : Word) (b : BootFind) (s : State) : State :=
  let d := fld v 3 0
  if 14 ≤ d then invalidWrite rstPage 0x708 m s
  else if d = 8 then resetD8 5 b s
  else if bit v 8 then loseDomain d .reset s
  else if (dom s d).inReset then releaseDomain d s else s

/-- A command to RST_CMD: the whole device where DEVICE = 1 with KEY, else a domain; a reserved DOM starts no action (00 R13). -/
def rstCmdWrite (m : Master) (v : Word) (b : BootFind) (s : State) : State :=
  if 14 ≤ fld v 3 0 then invalidWrite rstPage 0x708 m s
  else if bit v 15 then (if fld v 31 16 = 0x5A17 then resetDevice 3 b s else rejectWrite rstPage 0x708 m s)
  else domainCmd m v b s

/-- DOMAIN_RESTART (R437): the firmware restarts a domain that has been released from reset: a tile with its constants and its channels in
HIZ, a stack with its training, D9 with its ports. -/
def domainRestart (d : Nat) (ok : Bool) (s : State) : State :=
  if d = 8 ∨ domLost s d ∨ !(dom s d).due ∨ !bit (rdReg s devPage 0x700) 31 then s
  else
    let s := setDom d { dom s d with due := false } s
    if 10 ≤ d then wrReg (hbmPage (d - 10)) 0x700 0x40000000 s
    else if !ok then isolate d (reportLoss d s)
    else if d = 9 then enablePorts s
    else forUpTo 64 (loadTile d s) (fun p s => latchHolds (64 * d + p) (modChan (64 * d + p) (tileChan false) s))

/-- Memory after the loss of power-good of D8: of what its rails hold the contents are X (R430, log 5); MRAM and HBM keep theirs. -/
def shellLost (s : State) : State := wipeMem 0 0x2000000 (wipeMem 0x2800000 0x2000000000 s)

/-- Power-good of a domain returns (R427): a reset of the domain is released with it. After step 4 of Bellows the domains stay in reset
until the device restarts (R441, R444). -/
def powerReturns (d : Nat) (b : BootFind) (s : State) : State :=
  if (dom s d).good then s
  else if s.bellows.stopped then setDom d { dom s d with good := true } s
  else
    let s := raiseBit rstPage 0 (setDom d { dom s d with good := true } s)
    if d = 8 then resetD8 5 b (shellLost s) else releaseDomain d (resetDomain d s)

/-- DEV_BOOTDB (R433): accepted while PCIE_WAIT = 1; a verdict other than 0 is DEV_BOOTERR, one of 1 to 3 (R445). -/
def bootDoorbell (m : Master) (len verdict : Nat) (b : BootFind) (s : State) : State :=
  if !bit (rdReg s devPage 0x700) 27 then rejectWrite devPage 0x708 m s
  else if verdict ≠ 0 then raiseBit devPage 2 (wrReg devPage 0x70C (w32 (verdict % 4)) s)
  else finishBoot b (runFirmware b (startFirmware 2 len b (wrReg devPage 0x70C 0 s)))

end Sys2Proof.Machine
end

