-- ==== Sys2Proof/Machine/Anvil.lean ====
section
/-! DEFINITION. Anvil, patrol scrub and the monitors of the coverage table (spec 15 R399-R409). -/

namespace Sys2Proof.Machine

def anvEntry (s : State) (i : Nat) : AnvilEntry := smGet {} s.anvil i
def setAnv (i : Nat) (e : AnvilEntry) (s : State) : State := { s with anvil := smPut {} s.anvil i e }

/-- The entries in use: ANVIL watermark 0. -/
def sampleAnvil (s : State) : State := wmSample anvilPage 0 s.anvil.length s

/-! ## Linking (R405) -/

/-- Whether an engine fed a channel: its own core, or a thread of its lane while the slice emitter is its source. -/
def fedBy (s : State) (k c : Nat) : Bool := k == c || (decide (512 ≤ k) && (k - 512) / 8 == laneOf c && (chan s c).laneSrc)

/-- Whether a report is a consequence of an open entry. -/
def linked (s : State) (r : Report) (e : AnvilEntry) : Bool :=
  let within := fun (t : Nat) => decide (s.now ≤ e.firstFt + t)
  e.state != 0 && (match r.group with
    | 1 => e.group == 16 && e.key == r.key && within (1000 * us)
    | 2 => e.group == 17 && fedBy s e.key r.key
    | 3 => e.group == 18 && e.key == r.key && decide (s.now ≤ (port s r.key).faultAt.getD e.firstFt + tEff s * 100 * ns)
    | 4 => e.group == 19 && e.key == r.key && bit (emStat s) r.key
    | 5 => e.group == 20 && e.key == laneOf r.key && within (64 * us)
    | _ => false)

/-- The first entry, of its index, that satisfies a condition. -/
def findEntry (s : State) (p : AnvilEntry → Bool) : Option Nat := (s.anvil.find? (fun x => p x.2)).map Prod.fst

/-! ## Records and actions (R406; 16 R425) -/

/-- A source as one number: kind and identity. -/
def sourceNo (kind id : Nat) : Nat := kind * 2 ^ 28 + id

/-- ANV_SRC and ANV_INFO of an entry. -/
def anvSrc (e : AnvilEntry) : Nat := sourceNo e.kind e.id
def anvInfo (e : AnvilEntry) : Nat := e.state * 2 ^ 30 + e.cls * 2 ^ 27 + e.cause % 256 * 2 ^ 16 + e.count % 2 ^ 16

/-- The page that stands for a source in Patina records: the LN, MC or FBP page of an engine or a port. -/
def sourcePage (e : AnvilEntry) : Nat :=
  match e.kind with
  | 0 => e.id
  | 1 => if 8192 ≤ e.id then mcPage (e.id % 2) else lnPage (e.id % 4096 / 8)
  | _ => fbpPage e.id

/-- The severity of a class. -/
def classSev (c : Nat) : Nat := [1, 2, 3, 3, 4, 3, 4].getD c 2

/-- The Patina record of an entry. -/
def anvilRecord (e : AnvilEntry) (s : State) : State :=
  offer (0x2000 + e.cls) (classSev e.cls) (sourcePage e) (e.fid != 0)
    (leBytes 4 e.fid.toNat ++ leBytes 4 (anvSrc e) ++ leBytes 4 (anvInfo e) ++ leBytes 4 (e.firstFt / ns / 65536)) s

/-- What Anvil does on a new entry (R406): analogue detections trip the channel with ISOLATE and degrade its site, an engine with
an uncorrectable error is parked, a domain is isolated. A failover is the FAILOVER command. -/
def anvilAct (e : AnvilEntry) (s : State) : State :=
  match e.cls with
  | 3 =>
    if e.group = 9 then
      let w := rdReg s (chPage e.key) 0x104
      tripWatched e.key 9 e.key (if bit w 7 then send (.siteDegraded (fld w 6 0)) s else s)
    else if e.kind = 1 ∧ e.id < 8192 then parkEngine (e.id % 4096 + 512 * (e.id / 4096)) s
    else s
  | 4 => if e.group = 16 then isolate e.key s else s
  | _ => s

/-- The instants of a source's CORRECTED reports of the last 24 h, with the one that arrives now (R406). -/
def noteCorrected (r : Report) (s : State) : State :=
  if r.cls ≠ 0 then s
  else
    let k := sourceNo r.kind r.id
    { s with corrected := smPut [] s.corrected k ((s.now :: (smGet [] s.corrected k).filter (fun t => decide (s.now ≤ t + 86400000000 * us))).take 0xFFFF) }

/-- A CORRECTED entry whose source has made ANV_CETHR reports within 24 h is one of class BLOCK (R406). -/
def escalated (s : State) (e : AnvilEntry) : AnvilEntry :=
  let thr := fld (rdReg s anvilPage 0x724) 15 0
  if e.cls = 0 ∧ thr ≠ 0 ∧ thr ≤ (smGet [] s.corrected (sourceNo e.kind e.id)).length then { e with cls := 3 } else e

/-- A new entry in a free place, or the count of reports lost. -/
def openEntry (r : Report) (s : State) : State :=
  let e : AnvilEntry := escalated s { state := 1, fid := s.nextFid, kind := r.kind, id := r.id, cls := r.cls, cause := r.cause, count := 1, firstFt := s.now,
                                      group := r.group, key := r.key }
  match (List.range 64).find? (fun i => (anvEntry s i).state == 0) with
  | none => anvilRecord { e with fid := 0 } (raiseBit anvilPage 1 (countReg anvilPage 0x728 1 s))
  | some i =>
    let next := if s.nextFid + 1 = 0 then 1 else s.nextFid + 1
    anvilAct e (anvilRecord e (raiseBit anvilPage 0 (sampleAnvil { setAnv i e s with nextFid := next })))

/-- A report merges into its entry; a CORRECTED entry may escalate, and Anvil then acts on it by its new class and records it
(R404, R406). -/
def mergeReport (i : Nat) (s : State) : State :=
  let e := anvEntry s i
  let e' := escalated s { e with count := min (e.count + 1) 0xFFFF }
  if e'.cls ≠ e.cls then anvilAct e' (anvilRecord e' (setAnv i e' s)) else setAnv i e' s

/-- The oldest report on its way reaches Anvil. -/
def anvilReceives (s : State) : State :=
  match s.reports with
  | [] => s
  | r :: rest =>
    let s := { s with reports := rest }
    if domLost s 8 then s
    else let s := noteCorrected r s; match findEntry s (linked s r) with
      | some i => setAnv i { anvEntry s i with links := min ((anvEntry s i).links + 1) 0xFFFFFFFF } s
      | none =>
        match findEntry s (fun e => e.state != 0 && e.kind == r.kind && e.id == r.id && e.cause == r.cause) with
        | some i => mergeReport i s
        | none => openEntry r s

/-- ANV_ACK (R407). -/
def ackWrite (m : Master) (v : Word) (s : State) : State :=
  match findEntry s (fun e => e.state == 1 && e.fid == v) with
  | some i => setAnv i { anvEntry s i with state := 2 } s
  | none => rejectWrite anvilPage 0x71C m s

/-- ANV_CLOSE (R407). -/
def closeWrite (m : Master) (v : Word) (s : State) : State :=
  match findEntry s (fun e => e.state == 2 && e.fid == v) with
  | some i => sampleAnvil (setAnv i {} s)
  | none => rejectWrite anvilPage 0x720 m s

/-! ## Detections (R399, R403) -/

/-- The trip paths of a channel, or of the distribution tree, disagree (R399). -/
def pathsDisagree (c : Option Nat) (s : State) : State :=
  match c with
  | some c => capture (tqPage (tileOf c)) fHW 0 (c % 64) (raiseBit (tqPage (tileOf c)) 2 s)
  | none => capture quenchPage fHW 0 0 s

/-- A detection of the coverage table (R403). A check that finds no deviation changes only the readback of VREF and LOCK. Loss of LOCK is
the loss of its tile (01 R22; 03 R81): the domain is isolated and the loss reported (log 130). A parity error of a stroke FIFO entry, of the
compare-result path, of a matrix transaction or of an island crossing, and what SECDED finds in a Palette word that a stroke reads, are
reported by the page of the element (log 191). -/
def monitorCheck (w : Monitor) (dev : Bool) (s : State) : State :=
  match w with
  | .dac c | .edge c | .eventChecker c | .drift c => if dev then captureAs (chPage c.val) fHW 0 0 3 fHW 9 c.val s else s
  | .vref t code =>
    let p := pageIndex ⟨.tref, t.val⟩
    let was := bit (rdReg s p 0x700) 31
    let s := wrReg p 0x700 (w32 ((!dev).toNat * 2 ^ 31 + code.toNat)) s
    if dev ∧ was then capture p fHW 0x700 0 (raiseBit p 0 s) else s
  | .tpllLock t =>
    let p := pageIndex ⟨.tpll, t.val⟩
    let was := bit (rdReg s p 0x700) 0
    let s := modReg p 0x700 (fun r => setBit r 0 (!dev)) s
    if dev ∧ was then isolate t.val (reportLoss t.val s) else s
  | .domainClock d => if dev then reportLoss d.val s else s
  | .tmr page off => if dev ∧ (pageAt page.toNat).isSome then capture page.toNat fTMR off.toNat 0 s else s
  | .engineLogic e => if dev then report ⟨1, engIdent (engKey e), 2, 0, 0, 0, []⟩ s else s
  | .strokeFifo c => if dev && !domLost s (tileOf c.val) then capture (chPage c.val) fHW 0 0 s else s
  | .compareResult c => if dev then capture (lnPage (laneOf c.val)) fHW 0 0 s else s
  | .matrixParity m => if dev then capture mxPage fHW 0 (masterCode m) s else s
  | .crossing d => if dev && !domLost s d.val then capture (domainPage d.val) fHW 0 0 s else s
  | .paletteWord c o => if dev && !domLost s (tileOf c.val) then eccReport (palPage (laneOf c.val)) o s else s

/-- A patrol scrub read (R403; 07 R191; 17 R446). -/
def scrubRead (t : ScrubTarget) (o : EccOutcome) (s : State) : State :=
  if !bit (rdReg s scrubPage 0x700) 0 ∨ domLost s 8 then s
  else
    let s := if o = .corrected then countReg scrubPage 0x708 1 s else s
    match t with
    | .passEnd => raiseBit scrubPage 0 (wrReg scrubPage 0x704 (w32 (ft4716 s)) s)
    | .memory _ => eccReport scrubPage o s
    | .hbm n _ => if domLost s (10 + n.val) then s else eccMeets (.hbm n.val) o s
    | .palette c _ _ => if domLost s (tileOf c.val) then s else eccReport (palPage (laneOf c.val)) o s
    | .store st w => storeEcc (match st with | .lane l => l.val | .cluster k => 64 + k.val) w.toNat o s

end Sys2Proof.Machine
end

