-- ==== Sys2Proof/Machine/Power.lean ====
section
/-! DEFINITION. Power states of the memories, the secure wipe, MRAM write buffers, REMAP, and the Tongs registers (spec 11
R301-R311). -/

namespace Sys2Proof.Machine

/-! ## Power states (R301, R302) -/

/-- How many regions a MEM_PWR register holds, and the first of them. -/
def pwrFields (off : Nat) : Nat × Nat :=
  if off = 0x700 then (3, 0) else if off = 0x714 then (8, 67) else if off < 0x714 then (16, 3 + 16 * ((off - 0x704) / 4)) else (0, 0)

/-- A MEM_PWR register reads the states in force. -/
def pwrRead (s : State) (off : Nat) : Word :=
  w32 (forUpTo (pwrFields off).1 0 (fun i n => n + (powerOf s ((pwrFields off).2 + i)).st * 4 ^ i))

/-- The device addresses of a region. -/
def regionSpan (r : Nat) : Nat × Nat :=
  match r with
  | 0 => (0x800000, 0xC00000)
  | 1 => (0xC00000, 0x1000000)
  | 2 => (0x1000000, 0x1100000)
  | _ => if r < 67 then (0x14000000 + 0x80000 * (r - 3), 0x14000000 + 0x80000 * (r - 2))
         else (0x16000000 + 0x400000 * (r - 67), 0x16000000 + 0x400000 * (r - 66))

def snapPage : Nat := pageIndex ⟨.snap, 0⟩

/-- An address of the SNAP page. -/
def snapAddr (s : State) (off : Nat) : Nat := (rdReg s snapPage off).toNat + 2 ^ 32 * fld (rdReg s snapPage (off + 4)) 15 0

/-- Whether a running Tongs channel has its source or destination in a region: a snapshot reads its list and writes its pages through
channel 7 (12 R332). -/
def tongsIn (s : State) (r : Nat) : Bool :=
  let p := regionSpan r
  let n := fld (rdReg s snapPage 0x710) 8 0
  (s.snap.running && (overlap (snapAddr s 0x708) (0x800 * n) p.1 (p.2 - p.1) || (!s.snap.captured && overlap (snapAddr s 0x700) (4 * n) p.1 (p.2 - p.1))))
  || (List.range 8).any (fun c => (tgChan s c).running
    && (overlap (tgAddr s c 0) (tgLen s c) p.1 (p.2 - p.1) || overlap (tgAddr s c 8) (tgLen s c) p.1 (p.2 - p.1)))

/-- Whether an engine is neither STUCK nor OFF, as ec.stat shows it (08 R227; 06 R165). -/
def engineRuns (s : State) (k : Nat) : Bool := ecState s k == 1 || ecState s k == 2

/-- Whether an engine of a lane runs: a core or a thread. -/
def laneRuns (s : State) (l : Nat) : Bool := (List.range 8).any (fun i => engineRuns s (8 * l + i) || engineRuns s (512 + 8 * l + i))

/-- Whether a request to leave ON is refused (R302). -/
def leaveRefused (s : State) (r : Nat) : Bool :=
  tongsIn s r
    || (decide (3 ≤ r ∧ r < 67) && (fld (rdReg s (lnPage (r - 3)) 0x700) 7 0 != 0
          || (List.range 8).any (fun i => engineRuns s (8 * (r - 3) + i))))
    || (decide (67 ≤ r) && (captureOn s (r - 67) || (List.range 8).any (fun i => laneRuns s (laneOfCluster (r - 67) i))))

/-- The request of one field: none where it is reserved or names the state in force (log 20). -/
def pwrRequest (off r v : Nat) (m : Master) (s : State) : State :=
  let p := powerOf s r
  if v = 3 ∨ v = p.st then s
  else if p.goal.isSome ∨ (p.st = 0 ∧ leaveRefused s r) then refuseCmd memPage off m (raiseReject memPage s)
  else { s with power := smPut {} s.power r { p with goal := some v } }

/-- A write of a MEM_PWR register from a pair in Service mode: each field stands for itself, and a reserved one leaves its region
unchanged and is reported once (00 R13). -/
def pwrApply (off : Nat) (m : Master) (v : Word) (s : State) : State :=
  let n := (pwrFields off).1
  let s := forUpTo n s (fun i s => pwrRequest off ((pwrFields off).2 + i) (fld v (2 * i + 1) (2 * i)) m s)
  if (List.range n).any (fun i => fld v (2 * i + 1) (2 * i) == 3) then capture memPage fINVALID off (masterCode m) s else s

/-- MEMORY_POWER_REQUEST. -/
def pwrWrite (off : Nat) (m : Master) (v : Word) (s : State) : State :=
  if pairService s m then pwrApply off m v s else rejectWrite memPage off m s

/-- A transition completes: OFF loses the contents, and leaving OFF finds zeros. -/
def powerDone (r : Nat) (s : State) : State :=
  let p := powerOf s r
  match p.goal with
  | none => s
  | some g =>
    let s := if g = 2 ∨ p.st = 2 then wipeMem (regionSpan r).1 (regionSpan r).2 s else s
    raiseBit memPage 1 { s with power := smPut {} s.power r { st := g } }

/-! ## The secure bank (R303; 18 R468, R469) -/

/-- The bit of MEM_SEC.CAUSE. -/
def wipeBit : WipeCause → Nat
  | .tamperN | .tamperPulse | .tamperOver => 0
  | .glitch => 1
  | .lid => 2
  | .lifecycle => 3

/-- A cause of a wipe: during a wipe it sets its bit only. -/
def wipeCause (c : WipeCause) (s : State) : State :=
  let s := modReg memPage 0x720 (fun w => setBit w (wipeBit c) true) s
  let s := match c with
    | .lifecycle => { s with power := smPut {} s.power 2 {} }
    | _ => s
  if s.wiping then s
  else
    let s := modPat (fun p => { p with auth := false }) (raiseBit memPage 0 { s with wiping := true })
    offer 0xB001 4 memPage false [BitVec.ofNat 8 (fld (rdReg s memPage 0x720) 3 0)] s

/-- The sender's cause: TAMPER_N asserted and held, asserted and gone, or released, and the events without a level (R469). -/
def wipeStart (c : WipeCause) (s : State) : State :=
  match c with
  | .tamperOver => { s with pins := { s.pins with tamper := false } }
  | .tamperN => wipeCause .tamperN { s with pins := { s.pins with tamper := true } }
  | .tamperPulse | .glitch | .lid | .lifecycle => wipeCause c s

/-- The wipe ends: every byte is zero. -/
def wipeDone (s : State) : State :=
  if s.wiping then wipeMem 0x1000000 0x1100000 { s with wiping := false } else s

/-! ## MRAM write buffers (R304) -/

/-- The oldest line of a bank has been programmed; a read that waits is served before the next line. -/
def lineDone (b : Nat) (s : State) : State :=
  { s with mramLines := smPut [] s.mramLines b (mramBuf s b).tail,
           mramGap := smPut false s.mramGap b (s.trans.any (fun t => !t.write && t.target == .mram b)) }

/-! ## REMAP (R309, R310) -/

/-- A write of MX_CTL from a pair in Service mode. -/
def mxCtlWrite (m : Master) (v : Word) (s : State) : State :=
  if !pairService s m then rejectWrite mxPage 0x700 m s
  else if bit v 0 then wrReg mxPage 0x700 1 s
  else s

end Sys2Proof.Machine
end

