-- ==== Sys2Proof/Machine/Slots.lean ====
section
/-! DEFINITION. Service slots and doorbells (spec 19 R476-R478). -/

namespace Sys2Proof.Machine

def primerPage : Nat := pageIndex ⟨.primer, 0⟩
def temperPage : Nat := pageIndex ⟨.temper, 0⟩
def smbPage : Nat := pageIndex ⟨.smb, 0⟩
def msixPage : Nat := pageIndex ⟨.msix, 0⟩

/-- The address of a slot of the host bank or of the fabric bank. -/
def slotBase (fab : Bool) (n : Nat) : Nat := (if fab then 0xFF0000 else 0xBF0000) + 0x200 * n

/-- A field of a slot: n bytes from an offset. -/
def slotField (s : State) (fab : Bool) (slot off n : Nat) : Nat := leNat (memBytes s (slotBase fab slot + off) n)

def slotArg (s : State) (fab : Bool) (slot i : Nat) : Nat := slotField s fab slot (8 + 8 * i) 8

/-- Whether the doorbell bit of a slot is set. -/
def slotBell (s : State) (fab : Bool) (slot : Nat) : Bool :=
  if fab then bit (rdReg s fbPage 0x77C) slot else bit (rdReg s pciePage 0x704) slot

/-- The firmware clears a doorbell bit. -/
def clearBell (fab : Bool) (slot : Nat) (s : State) : State :=
  if fab then modReg fbPage 0x77C (fun w => setBit w slot false) s else modReg pciePage 0x704 (fun w => setBit w slot false) s

/-- The base of the bank that bank offsets name. -/
def bankBase (fab : Bool) : Nat := if fab then 0xC00000 else 0x800000

/-- Whether an image lies inside its bank. -/
def inBank (off len : Nat) : Bool := decide (0 < len ∧ off + len ≤ 0x400000)

/-- Whether the active pair runs the management firmware: D8 is up, a pair is active and MGMT_READY is set. -/
def firmwareRuns (s : State) : Bool := !domLost s 8 && (activePair s).isSome && bit (rdReg s devPage 0x700) 31

/-! ## The checkpoint (18 R448, R449) -/

/-- Where the active pair keeps its checkpoint in the MC bank (log 193). -/
def checkAt : Nat := 0x7F0000

/-- The slots of a bank that are TAKEN and not complete, a bit each. -/
def takenMask (s : State) (fab : Bool) : Nat := forUpTo 32 0 (fun i n => n + (s.taken.any (fun t => t.fab == fab && t.slot == i)).toNat * 2 ^ i)

/-- The active pair writes its checkpoint: the requests of each bank whose completion is still to come. -/
def checkpoint (s : State) : State := bankPut (firmwareMaster s) checkAt (leBytes 4 (takenMask s false) ++ leBytes 4 (takenMask s true)) s

/-- Whether the checkpoint holds a slot as not complete. -/
def checkHolds (s : State) (fab : Bool) (slot : Nat) : Bool := leNat (memBytes s (checkAt + 4 * fab.toNat) 4) / 2 ^ slot % 2 == 1

/-- What a slot waits for after the roles have passed on: a run of Primer and an update go on (R458, R466), any other request is served again
from its start (R449). -/
def waitAfter : SlotWait → SlotWait
  | .primer => .primer
  | .update => .update
  | .flush | .power _ | .again => .again

/-- The pair that takes over resumes from the last checkpoint: of the requests that it holds as not complete. -/
def resumeService (s : State) : State :=
  { s with taken := (s.taken.filter (fun t => checkHolds s t.fab t.slot)).map (fun t => { t with wait := waitAfter t.wait }) }

/-! ## Service -/

/-- The completion of a slot (R476, R477): its fields, STATE 2, then RSP of the PCIE page, or NOTICE code 4. -/
def slotDone (fab : Bool) (slot result out0 : Nat) (s : State) : State :=
  let b := slotBase fab slot
  let rid := slotField s fab slot 4 4
  let s := bankPut (firmwareMaster s) (b + 0x101) ([BitVec.ofNat 8 result, 0, 0] ++ leBytes 4 rid ++ leBytes 8 out0 ++ List.replicate 240 0) s
  let s := checkpoint (bankPut (firmwareMaster s) (b + 0x100) [2] s)
  if fab then notice 4 slot s else raiseBit pciePage 0 s

/-- The firmware takes up a rung slot whose SERVICE the command names, or one that is to be served again: the bit clears and STATE becomes
TAKEN; the bit of a slot that is TAKEN already clears without effect. -/
def serve (fab : Bool) (slot : Nat) (code : Nat → Bool) (f : State → State) (s : State) : State :=
  let b := slotBase fab slot
  let again := s.taken.contains ⟨fab, slot, .again⟩
  if !firmwareRuns s || !(slotBell s fab slot || again) || !targetOn s (targetOf s b) then s
  else if !again && memByte s (b + 0x100) = 1 then clearBell fab slot s
  else if !code (slotField s fab slot 0 2) then s
  else f (bankPut (firmwareMaster s) (b + 0x100) [1] (clearBell fab slot { s with taken := s.taken.filter (· != ⟨fab, slot, .again⟩) }))

/-- A slot waits for what completes it. -/
def slotWaits (fab : Bool) (slot : Nat) (w : SlotWait) (s : State) : State := checkpoint { s with taken := s.taken ++ [⟨fab, slot, w⟩] }

/-- The slots that wait for something complete. -/
def finishWaits (w : SlotWait) (result out0 : Nat) (s : State) : State :=
  forEach (s.taken.filter (fun t => t.wait == w)) { s with taken := s.taken.filter (fun t => t.wait != w) }
    (fun t s => slotDone t.fab t.slot result out0 s)

end Sys2Proof.Machine
end

