-- ==== Sys2Proof/Machine/Service.lean ====
section
/-! DEFINITION. Power failure (spec 17 R440-R444), HBM training (R446), thermal behaviour (19 R483), the management pairs (18
R448-R451), Temper (R460-R462) and Primer (R463-R466). -/

namespace Sys2Proof.Machine

/-! ## Bellows (17 R440-R444) -/

/-- Whether a transaction has one end in the islands of the lanes and clusters (R441). -/
def laneTrans (t : Trans) : Bool :=
  (match t.master with | .lane _ => true | _ => false) || (match t.target with | .coreInstr _ | .coreData _ | .laneSram _ | .clusterSram _ => true | _ => false)

/-- The islands of the lanes and clusters are isolated (R441): what crosses their boundary ends with DOMAIN (01 R21). -/
def islandsLost (s : State) : State :=
  grantAll (forEach (s.trans.filter laneTrans) { s with trans := s.trans.filter (fun t => !laneTrans t) } (fun t s => matrixReply t (errorData t) (some .domain) s))

/-- BELLOWS_START: PFAIL_N, or the rail monitor while RMEN = 1. -/
def bellowsBegin (rail : Bool) (s : State) : State :=
  if bellowsRuns s || s.bellows.stopped || (rail && !bit (rdReg s blPage 0x704) 31) then s
  else
    let ready := bit (rdReg s devPage 0x700) 31
    let s := vauxPut bellowsLine 2 (raiseBit blPage 0 (modReg blPage 0x700 (fun w => setBit w 31 true) { s with bellows := { journal := ready } }))
    let s := islandsLost (forEach ([0, 1, 2, 3, 4, 5, 6, 7, 9, 10, 11, 12, 13]) s (fun d s => isolate d s))
    let s := tripAll 1 8 s
    let s := modPat (fun p => { p with bellows := true, want := true, frozen := false, freezing := false }) s
    offer 0x1002 4 blPage false [BitVec.ofNat 8 rail.toNat] s

/-- A write of BL_CMD.JDONE from a pair in Service mode. -/
def jdoneWrite (m : Master) (v : Word) (s : State) : State :=
  if !pairService s m then rejectWrite blPage 0x708 m s
  else if bit v 0 then { s with bellows := { s.bellows with journal := false } }
  else s

/-- JWIN expires. -/
def journalExpires (s : State) : State := { s with bellows := { s.bellows with journal := false } }

/-- Whether the flush of the sequence has ended: the POWER_FAIL record is flushed. -/
def flushEnded (s : State) : Bool :=
  !s.patina.want && !s.patina.flushing && s.patina.vol.isEmpty
    && !(s.patina.offers.map Prod.snd ++ s.patina.intake ++ s.patina.waiting).any (fun e => e.code == 0x1002)

/-- The device stops: every domain is held in reset. Where step 4 is reached, the Bellows word of the control area says so (R441). -/
def stopDevice (lastBits : Nat) (s : State) : State :=
  let s := lossEffects 8 (if lastBits = 2 then vauxPut bellowsLine 1 s else s)
  let s := forUpTo 14 s (fun d s => setDom d { dom s d with inReset := true } s)
  modReg blPage 0x700 (fun w => setFld (setBit w 31 false) 29 28 lastBits) { s with bellows := { s.bellows with journal := false, stopped := true }, mramLines := [], mramGap := [] }

/-- Step 4 (R441): LAST_PF, and a RESET_N that came during the sequence takes effect (R443). -/
def bellowsEnd (s : State) : State :=
  if bellowsRuns s ∧ !s.bellows.journal ∧ flushEnded s then
    match s.bellows.reset with
    | some b => resetDevice 2 b (stopDevice 2 s)
    | none => stopDevice 2 s
  else s

/-- The hold-up energy runs out first (R443): LAST_CUT. -/
def holdUpOut (s : State) : State := if bellowsRuns s then stopDevice 1 s else s

/-- The device restarts after step 4, once every rail is back (R444). -/
def brownout (b : BootFind) (s : State) : State :=
  if s.bellows.stopped && (List.range 14).all (fun d => (dom s d).good) then resetDevice 4 b s else s

/-- BELLOWS_CAP is charged (R442). -/
def capCharged (uF : Nat) (volts49 : Bool) (s : State) : State :=
  let ok := volts49 && 560 ≤ uF
  let was := bit (rdReg s blPage 0x700) 30
  let s := modReg blPage 0x700 (fun w => setFld (setBit w 30 ok) 15 0 uF) s
  if ok && !was then raiseBit blPage 1 s else s

/-! ## HBM training (17 R446) -/

/-- Whether a queue request to a stack is outstanding. -/
def stackBusy (s : State) (n : Nat) : Bool :=
  s.engines.any (fun e => e.2.queue.any (fun q => q.words.isNone && q.failed.isNone && targetOf s q.addr == .hbm n))

/-- A write of HB_CTL. -/
def retrainWrite (n : Nat) (m : Master) (v : Word) (s : State) : State :=
  if !bit v 0 then s
  else if stackBusy s n then rejectWrite (hbmPage n) 0x704 m s
  else wrReg (hbmPage n) 0x700 0x40000000 s

/-- Training ends: READY, or FAILED and the domain isolated (R435). -/
def trained (n : Nat) (ok : Bool) (s : State) : State :=
  if domLost s (10 + n) ∨ fld (rdReg s (hbmPage n) 0x700) 31 30 ≠ 1 then s
  else if ok then trainReady n s else trainFails n s

/-! ## Thermal behaviour (19 R483) -/

/-- A sensor reads a temperature, in 1/16 degree. -/
def setTemp (n : Nat) (t : BitVec 16) (s : State) : State :=
  { s with thermal := { s.thermal with temps := smPut 0 s.thermal.temps n t } }

/-- Every sensor reads at most a temperature. -/
def allAtMost (s : State) (t : Int) : Bool := (List.range 14).all (fun i => decide ((smGet 0 s.thermal.temps i).toInt ≤ t))

/-- A sensor is above 105 degrees. -/
def warnTemp (n : Nat) (t : BitVec 16) (s : State) : State :=
  let s := setTemp n t s
  if t.toInt ≤ 1680 then s
  else report ⟨0, smbPage, 3, fEVENT, 0, 0, []⟩ (raiseBit smbPage 0 { s with thermal := { s.thermal with warn := true } })

/-- A sensor is above 115 degrees: the tiles and the stacks are held in reset. -/
def tripTemp (n : Nat) (t : BitVec 16) (s : State) : State :=
  let s := if s.thermal.warn then setTemp n t s else warnTemp n t s
  if t.toInt ≤ 1840 ∨ s.thermal.trip then s
  else forEach [0, 1, 2, 3, 4, 5, 6, 7, 10, 11, 12, 13] { s with thermal := { s.thermal with trip := true } } (fun d s =>
    loseDomain d .reset s)

/-- New readings of every sensor. -/
def setTemps (l : List (BitVec 16)) (s : State) : State := forUpTo 14 s (fun i s => match l[i]? with | some t => setTemp i t s | none => s)

/-- Every sensor is back at 105 degrees or below. -/
def warnClears (l : List (BitVec 16)) (s : State) : State :=
  let s := setTemps l s
  if allAtMost s 1680 then { s with thermal := { s.thermal with warn := false } } else s

/-- Every sensor has read 95 degrees or less for 1 s: the domains are released. -/
def tripClears (l : List (BitVec 16)) (s : State) : State :=
  let s := setTemps l s
  if !allAtMost s 1520 || !s.thermal.trip then s
  else forEach [0, 1, 2, 3, 4, 5, 6, 7, 10, 11, 12, 13] { s with thermal := { s.thermal with trip := false, warn := false } } releaseDomain

/-! ## Primer and Temper: what is idle (18 R460, R464) -/

/-- TC_STAT of a tile: 0 IDLE, 1 PRIMER, 2 TEMPER, with a position. -/
def calState (t st pos : Nat) (s : State) : State := wrReg (pageIndex ⟨.tcal, t⟩) 0x700 (w32 (st * 2 ^ 30 + pos)) s

/-- A site is armed while a channel whose Canvas CH_SITE names it has a stream set up. -/
def siteArmed (s : State) (n : Nat) : Bool :=
  s.chans.any (fun x => x.2.stream != .idle && bit (rdReg s (chPage x.1) 0x104) 7 && fld (rdReg s (chPage x.1) 0x104) 6 0 == n)

/-- Whether a stream of a channel is set up. -/
def streamUp (s : State) (c : Nat) : Bool := (chan s c).stream != .idle

/-- Whether a channel is idle, but for a Primer run on it. -/
def channelIdle (s : State) (c : Nat) : Bool :=
  let site := rdReg s (chPage c) 0x104
  let f := fld (rdReg s (chPage c) 0x100) 2 0
  !domLost s (tileOf c) && !(bit site 7 && siteArmed s (fld site 6 0)) && !streamUp s c && (f == 0 || f == 4) && !hangArmed s (chPage c)

/-- Whether a lane is idle: no engine released, no stream of its channels set up. -/
def laneIdle (s : State) (l : Nat) : Bool :=
  (List.range 8).all (fun i => (eng s (8 * l + i)).run == .off && (eng s (512 + 8 * l + i)).run == .off && !streamUp s (8 * l + i))

/-- A Temper target as its row and instance. -/
def targetRow : TemperTarget → Nat × Nat
  | .mcPair p => (0, p.val)
  | .channel c => (1, c.val)
  | .lane l => (2, l.val)
  | .cluster k => (3, k.val)
  | .port p => (4, p.val)

/-- The pages of a target. -/
def targetPages (t : Nat × Nat) : List Nat :=
  match t.1 with
  | 0 => [mcPage t.2]
  | 1 => [chPage t.2]
  | 2 => [lnPage t.2, lscrPage t.2, pageIndex ⟨.lcs, t.2⟩]
  | 3 => [clPage t.2, wdPage t.2, pageIndex ⟨.ccs, t.2⟩]
  | _ => [fbpPage t.2]

/-- MC_STAT.ROLE of a pair: 0 OFF, 1 ACTIVE, 2 STANDBY, 3 FAILED. -/
def role (s : State) (p : Nat) : Nat := fld (rdReg s (mcPage p) 0x700) 31 30

/-- Whether a target is idle. -/
def targetIdle (s : State) (t : Nat × Nat) : Bool :=
  !(targetPages t).any (hangArmed s) && (match t.1 with
    | 0 => decide (2 ≤ role s t.2)
    | 1 => channelIdle s t.2 && s.primer.op != 1 && s.primer.left.head? != some t.2
    | 2 => laneIdle s t.2
    | 3 => !captureOn s t.2 && weldSt s t.2 == 0 && (List.range 8).all (fun i => laneIdle s (laneOfCluster t.2 i))
    | _ => (port s t.2).st ≤ 1)

/-! ## Temper (18 R460-R462) -/

/-- TEMPER_TEST_START. -/
def temperStart (t : Nat × Nat) (s : State) : State :=
  let ctl := rdReg s temperPage 0x700
  if domLost s 8 || !bit ctl 31 || !bit ctl t.1 || s.temper.test.isSome || !targetIdle s t then s
  else
    let s := wrReg temperPage 0x704 (w32 (2 ^ 31 + t.1 * 2 ^ 28 + t.2)) { s with temper := { s.temper with test := some t } }
    if t.1 = 1 then calState (tileOf t.2) 2 (t.2 % 64) s else s

/-- The block is restored and the test is over. -/
def temperStop (t : Nat × Nat) (s : State) : State :=
  let s := modReg temperPage 0x704 (fun w => setBit w 31 false) { s with temper := { s.temper with test := none } }
  if t.1 = 1 then calState (tileOf t.2) 0 0 s else s

/-- A service request to the block under test: the block is restored and the test is over. -/
def temperAborts (s : State) : State :=
  match s.temper.test with
  | none => s
  | some t => countReg temperPage 0x708 1 (temperStop t s)

/-- What a failed test does: a BLOCK entry; a channel is isolated by it, and a pair is FAILED with FCAUSE TEMPER. -/
def temperFails (t : Nat × Nat) (s : State) : State :=
  let page := (targetPages t).headD 0
  let s := report ⟨0, page, 3, fHW, if t.1 = 1 then 9 else 0, if t.1 = 1 then t.2 else 0, []⟩ (raiseBit temperPage 0 (countReg temperPage 0x70C 1 s))
  if t.1 = 0 ∧ role s t.2 = 2 then raiseBit page 0 (modReg page 0x700 (fun w => setFld (setFld w 31 30 3) 27 24 3) s) else s

/-- TEMPER_TEST_END. -/
def temperEnds (pass : Bool) (s : State) : State :=
  match s.temper.test with
  | none => s
  | some t =>
    let s := temperStop t s
    if pass then { s with temper := { s.temper with passed := smPut none s.temper.passed (t.1 * 1024 + t.2) (some (opsec s)) } }
    else temperFails t s

/-- Every Temper target (R460). -/
def temperTargets : List Nat :=
  (List.range 2) ++ (List.range 512).map (· + 1024) ++ (List.range 64).map (· + 2048) ++ (List.range 8).map (· + 3072) ++ (List.range 8).map (· + 4096)

/-- TP_AGE: the greatest operating seconds since a target last passed, or since the reset of D8 (log 35). -/
def temperAge (s : State) : Nat :=
  temperTargets.foldl (fun a k => max a (opsec s - (smGet none s.temper.passed k).getD s.temper.base)) 0

/-! ## Primer (18 R464-R466) -/

/-- PR_STAT: BUSY, ERR, DONE and CH. -/
def primerStat (busy : Bool) (err done ch : Nat) : Word := w32 (busy.toNat * 2 ^ 31 + err * 2 ^ 28 + done * 2 ^ 9 + ch)

/-- The channels committed by the run. -/
def primerCount (s : State) : Nat := fld (rdReg s primerPage 0x704) 18 9

/-- The run ends, with ERR. -/
def primerEnd (err : Nat) (s : State) : State :=
  let ch := fld (rdReg s primerPage 0x704) 8 0
  let s := forUpTo 8 s (fun t s => if fld (rdReg s (pageIndex ⟨.tcal, t⟩) 0x700) 31 30 = 1 then calState t 0 0 s else s)
  let s := wrReg primerPage 0x704 (primerStat false err (primerCount s) ch) { s with primer := {} }
  let s := raiseBit primerPage (if err = 0 then 0 else 1) s
  finishWaits .primer (if err = 0 then 0 else 8) (rdReg s primerPage 0x704).toNat s

/-- Primer measures some channels (R464): a Temper test of one of them is aborted (R461). PR_STAT.CH names the first, and TC_STAT its position. -/
def measures (cs : List Nat) (s : State) : State :=
  let s := if s.temper.test.any (fun t => t.1 == 1 && cs.contains t.2) then temperAborts s else s
  forEach cs (modReg primerPage 0x704 (fun w => setFld w 8 0 (cs.headD (fld w 8 0))) { s with primer := { s.primer with cur := cs } })
    (fun c s => calState (tileOf c) 1 (c % 64) s)

/-- An INCR run goes to its next idle channel; those that are not idle are skipped and counted. -/
def primerNext : List Nat → State → State
  | [], s => primerEnd 0 { s with primer := { s.primer with left := [], cur := [] } }
  | c :: cs, s =>
    if channelIdle s c then measures [c] { s with primer := { s.primer with left := c :: cs } }
    else primerNext cs (countReg primerPage 0x70C 1 s)

/-- How long a FULL run stays at one tile position: 90 s for the 64 (R464, log 194). -/
def sweepStep : Nat := 90 * 1000000 * us / 64

/-- A FULL run goes to a tile position: in each tile the channel there is measured where it is idle, and else skipped and counted. -/
def sweepTo (pos : Nat) (s : State) : State :=
  let cs := (List.range 8).map (fun t => 64 * t + pos)
  let idle := cs.filter (channelIdle s)
  let s := { s with primer := { s.primer with pos := pos, swept := s.primer.swept ++ idle, next := s.now + sweepStep } }
  measures idle (countReg primerPage 0x70C (cs.length - idle.length) (forUpTo 8 s (fun t s => if domLost s t then s else calState t 1 pos s)))

/-- A FULL run goes on to its next tile position as time passes. -/
def sweepOn (s : State) : State :=
  if s.primer.op = 1 ∧ s.primer.pos < 63 ∧ s.primer.next ≤ s.now ∧ !domLost s 8 then sweepTo (s.primer.pos + 1) s else s

/-- What a FULL run has still to sweep. -/
def sweepRest (s : State) : State := forUpTo (63 - s.primer.pos) s (fun _ s => sweepTo (s.primer.pos + 1) s)

/-- TEMPER_ABORT: a service request to a block in use; Temper ends its test, else Primer its run, with the current INCR channel or
the whole FULL sweep discarded (R461, R466). -/
def serviceAborts (s : State) : State :=
  if s.temper.test.isSome then temperAborts s else if s.primer.op ≠ 0 then primerEnd 1 s else s

/-- Whether Temper tests a block that holds one of some pages. -/
def tested (named : Nat → Bool) (s : State) : Bool := s.temper.test.any (fun t => (targetPages t).any named)

/-- Whether Primer measures a channel with one of some pages (R464). -/
def calibrated (named : Nat → Bool) (s : State) : Bool := s.primer.cur.any (fun c => named (chPage c))

/-- Whether a service request that names some pages meets a block in use by Temper or Primer. -/
def inUse (named : Nat → Bool) (s : State) : Bool := tested named s || calibrated named s

/-- A service request that names some pages ends the test of a block that holds one of them and the run that measures such a channel, with
the whole FULL sweep where it is one; the request is then served (R461, R466). -/
def yields (named : Nat → Bool) (s : State) : State :=
  let s := if tested named s then temperAborts s else s
  if calibrated named s then primerEnd 1 s else s

/-- A Hang of a group that holds a page of a block in use is a service request to it (R461). -/
def hangYields (g : Nat) (s : State) : State := yields (fun p => (groupPages s g).contains p) s

/-- Whether an access comes from Temper, or from the tile sequencer that tests and calibrates the channels. -/
def testsItself : Master → Bool
  | .temper | .tileSeq _ => true
  | _ => false

/-- Whether an access by a master to a page is a service request to a block in use. -/
def disturbs (page : Nat) (m : Master) (s : State) : Bool := !testsItself m && inUse (fun p => p == page) s

/-- An access by any other master to a page of a block in use ends its use (R461). -/
def pageYields (page : Nat) (m : Master) (s : State) : State := if disturbs page m s then yields (fun p => p == page) s else s

/-- The page that stands for the block to which a memory belongs. -/
def blockPage : Target → Option Nat
  | .coreInstr n | .coreData n => some (lnPage (laneOf n))
  | .laneSram l => some (lnPage l)
  | .clusterSram k => some (clPage k)
  | _ => none

/-- An access by any other master to the memory of a lane or of a cluster in use ends its use (R461). -/
def memYields (x : Target) (m : Master) (s : State) : State := match blockPage x with | some p => pageYields p m s | none => s

/-- A command of PR_CMD (R464, R466): while BUSY = 1 only STOP is taken. Temper yields to Primer. -/
def prCmd (m : Master) (v : Word) (s : State) : State :=
  let op := fld v 31 29
  let n := fld v 28 19
  let c := fld v 8 0
  let busy := s.primer.op != 0
  if op = 0 ∨ 3 < op then invalidWrite primerPage 0x700 m s
  else if op = 3 then (if busy then primerEnd 2 s else s)
  else if busy then rejectWrite primerPage 0x700 m s
  else if op = 2 ∧ (n = 0 ∨ 512 < c + n) then invalidWrite primerPage 0x700 m s
  else
    let s := match s.temper.test with
      | some (1, _) => temperAborts s
      | _ => s
    if op = 1 then
      sweepTo 0 (wrReg primerPage 0x704 (primerStat true 0 0 0) { s with primer := { op := 1 } })
    else primerNext ((List.range n).map (· + c)) (wrReg primerPage 0x704 (primerStat true 0 0 c) { s with primer := { op := 2 } })

/-- The result with which PR_CMD is turned away, none where it is taken. -/
def prRefused (s : State) (v : Word) : Option Nat :=
  let op := fld v 31 29
  if op = 0 ∨ 3 < op ∨ (op = 2 ∧ (fld v 28 19 = 0 ∨ 512 < fld v 8 0 + fld v 28 19)) then some 2
  else if op ≠ 3 ∧ s.primer.op ≠ 0 then some 6 else none

/-- A write of PR_CMD. -/
def prCmdWrite (m : Master) (v : Word) (s : State) : State :=
  if pairService s m then prCmd m v s else rejectWrite primerPage 0x700 m s

/-- A record: its SEQ, its CRC, and what it holds (R465, log 190). -/
def calRecord (seq : Nat) (body : List Byte) : List Byte := leBytes 4 seq ++ leBytes 4 (recordCrc (leBytes 4 seq ++ leBytes 4 0 ++ body)) ++ body

/-- The record of a channel, from the constants in its Easel area. -/
def channelRecord (seq c : Nat) (s : State) : List Byte :=
  calRecord seq (List.replicate 8 0 ++ (List.range 41).flatMap (fun i => leBytes 4 (rdRole s true (chPage c) (0x400 + 4 * i)).toNat) ++ List.replicate 844 0)

/-- The record of a tile: what it holds of the reference network is not given, so that it is free (log 8). -/
def tileRecord (seq : Nat) (s : State) : List Byte := calRecord seq ((List.range 32).flatMap (fun i => leBytes 32 (Config.freeBits (s.free + i)).toNat) |>.drop 8)

/-- A record goes into the set that does not hold the current one (step 2). -/
def calPut (n : Nat) (r : List Byte) (s : State) : State := bankPut (firmwareMaster s) (recordAt (currentSet s n == some false) n) r s

/-- The new constants go into the other set as well (step 5). -/
def copyRecord (n : Nat) (s : State) : State :=
  match currentSet s n with
  | some b => bankPut (firmwareMaster s) (recordAt (!b) n) (memBytes s (recordAt b n) 1024) s
  | none => s

/-- The constants of a channel in its Canvas calibration area are copied into the Easel area. -/
def copyCal (c : Nat) (s : State) : State :=
  forUpTo 128 s (fun i s => wrRole true (chPage c) (0x400 + 4 * i) (rdRole s false (chPage c) (0x400 + 4 * i)) s)

/-- The exchange of a channel's calibration areas (R465 step 4), after which both hold the new constants (step 5). -/
def calExchange (c : Nat) (s : State) : State :=
  let p := chPage c
  let s := { s with calDue := smPut none s.calDue c none, calSwapped := smPut false s.calSwapped p (!smGet false s.calSwapped p) }
  copyCal c (modReg p 0x028 (fun w => w + 1) s)

/-- The exchange that is due at a cluster's boundary. -/
def calBoundary (k : Nat) (s : State) : State :=
  forEach (smKeys (fun c d => clusterOf c == k && (match d with | some t => decide (t ≤ s.now) | none => false)) s.calDue) s calExchange

/-- The new constants of a channel, built in its Easel calibration area. -/
def buildCal (consts : List (Nat × Nat × BitVec 32)) (seq c : Nat) (s : State) : State :=
  let p := chPage c
  wrRole true p 0x5F0 (w32 seq) (forEach (consts.filter (fun x => x.1 == c && isCal p x.2.1)) s (fun x s => wrRole true p x.2.1 x.2.2 s))

/-- Step 2 for some channels and tiles. -/
def calPutAll (cs ts : List Nat) (seq : Nat) (s : State) : State :=
  forEach ts (forEach cs s (fun c s => calPut c (channelRecord seq c s) s))
    (fun t s => calPut (512 + t) (tileRecord seq s) { s with free := s.free + 32 })

/-- The commit of some channels and tiles (R465): the records, the control line, then the exchanges, each at the channel's first boundary at or
after commit + 2 µs, or at that instant where its timebase does not run; the other set follows. -/
def commitCal (cs ts : List Nat) (consts : List (Nat × Nat × BitVec 32)) (s : State) : State :=
  let seq := committedSeq s + 1
  let s := linePut calLine (w32 seq) (calPutAll cs ts seq (forEach cs s (buildCal consts seq)))
  let at_ := s.now + 2 * us
  let s := forEach cs s (fun c s => { s with calDue := smPut none s.calDue c (some at_) })
  let s := forEach (cs.filter (fun c => !strokesRun s c)) (reach at_ s) calExchange
  let s := forEach (cs ++ ts.map (512 + ·)) s copyRecord
  let s := modReg primerPage 0x704 (fun w => setFld w 18 9 (fld w 18 9 + cs.length)) s
  submitEvent 0xA001 1 primerPage (leBytes 4 cs.length ++ leBytes 4 seq) s

/-- PRIMER_COMMIT: of the INCR channel in progress, or of the whole FULL sweep, which ends with it. A channel without constants is one whose
measurement failed; an INCR channel that has ceased to be idle was aborted by a service request. -/
def primerCommits (consts : List (Nat × Nat × BitVec 32)) (s : State) : State :=
  let failed := fun c => !consts.any (fun x => x.1 == c)
  match s.primer.op, s.primer.left with
  | 0, _ => s
  | 1, _ =>
    let s := sweepRest s
    if s.primer.swept.any failed then primerEnd 3 s else primerEnd 0 (commitCal s.primer.swept (List.range 8) consts s)
  | _, [] => primerEnd 0 s
  | _, c :: cs =>
    if failed c then primerEnd 3 s
    else if !channelIdle s c then primerEnd 1 s
    else primerNext cs (calState (tileOf c) 0 0 (commitCal [c] [] consts s))

end Sys2Proof.Machine
end

