-- ==== Sys2Proof/Machine/Pairs.lean ====
section
/-! DEFINITION. Failover, roles and commands of the management pairs (spec 18 R448-R451), the update service (R452-R459) and
the lifecycle (R467, R468). -/

namespace Sys2Proof.Machine

/-! ## Roles (R448-R451) -/

/-- A change of ROLE. -/
def setRole (p r : Nat) (s : State) : State := raiseBit (mcPage p) 0 (modReg (mcPage p) 0x700 (fun w => setFld w 31 30 r) s)

/-- MC_STAT.IMG as a base in the MC bank. -/
def imgBase (s : State) (p : Nat) : Nat := if bit (rdReg s (mcPage p) 0x700) 20 then 0x200000 else 0

/-- A pair restarts at the entry bundle of the image at its base (17 R434). -/
def restartPair (p : Nat) (s : State) : State :=
  setEng (1024 + p) { engDefault (1024 + p) with pc := 0x3FF10, segs := [(0, ⟨w32 (imgBase s p), 0, 0x3FFFFF, 11⟩)] } s

/-- A pair stops; what its transactions bring is discarded, its interrupts pass to the other pair. -/
def stopPair (p : Nat) (s : State) : State :=
  let bells := (eng s (1024 + p)).bell
  let m := if p = 0 then Master.mcA else Master.mcB
  let s := dropAll (1024 + p) { s with replies := s.replies.filter (fun r => r.master != m) }
  modEng (1025 - p) (fun e => { e with bell := e.bell ||| bells })
    (modEng (1024 + p) (fun e => emptyQueue { e with run := .off, bell := 0, matrix := none, after := none, delay := none, fence := false }) s)

/-- The other pair becomes active. -/
def takeOver (p : Nat) (s : State) : State := setRole (1 - p) 1 s

/-- SWITCH: the roles are exchanged by the sequence of R449; the former active pair runs the standby loop. -/
def switchRoles (p : Nat) (s : State) : State :=
  let q := 1 - p
  resumeService (restartPair q (setRole q 2 (takeOver q (stopPair q s))))

/-- STAGE: the standby pair restarts on the image at the other base. -/
def stagePair (p : Nat) (s : State) : State := restartPair p (modReg (mcPage p) 0x700 (fun w => setBit w 20 (!bit w 20)) s)

/-- A pair under a Temper test is a service request's target (R461). -/
def leaveTemper (p : Nat) (s : State) : State := if s.temper.test = some (0, p) then temperAborts s else s

/-! ## Update (R452-R459) -/

/-- The size of a component's image slot (17 R438). -/
def slotSize (comp : Nat) : Nat := [0x100000, 0x40000, 0x30000, 0x50000, 0x10000, 0x20000].getD comp 0

/-- Whether a block can be activated now (R459): the management pairs while one is STANDBY, a tile that neither Primer nor Temper uses, a
store none of whose channels has a stream set up (07 R204), which runs the old version until then. -/
def blockFree (s : State) (comp b : Nat) : Bool :=
  match comp with
  | 0 => (List.range 2).any (fun p => role s p == 2)
  | 1 => fld (rdReg s (pageIndex ⟨.tcal, b⟩) 0x700) 31 30 == 0
  | _ => !storeStreams s b

/-- MF: the image goes to the other MC bank base; STAGE, SWITCH, and the former active pair is staged (R459). -/
def activateFirmware (j : Journal) (s : State) : State :=
  match activePair s with
  | none => s
  | some p =>
    let s := leaveTemper (1 - p) s
    let base_ := if imgBase s p = 0 then 0x200000 else 0
    let s := copyRange (slotContent 0 j.slotB) (0x400000 + base_) (min (j.len - 0x1000) 0x1FC000) s
    let q := 1 - p
    let s := if imgBase s q = imgBase s p then stagePair q s else s
    stagePair p (switchRoles q s)

/-- What remains of start-up for an update in Service-Safe (R456): step 1 for MF, else step 4, whose selection finds a combination that is
tested now; what it finds of the blocks is free (log 8). -/
def leaveServiceSafe (comp : Nat) (s : State) : State :=
  if !bit (rdReg s devPage 0x700) 29 then s
  else
    let b := Config.freeFind s.free
    let x := selectCombo s
    if comp = 0 then resetD8 5 b (tick s)
    else match x.safe with
      | some z => serviceSafe z (runSelection x s)
      | none => startBlocks b (tick (runSelection x s))

/-- The slots that wait for an update complete with UP_STAT. -/
def updateCompletes (result : Nat) (s : State) : State := finishWaits .update result (rdReg s updPage 0x700).toNat s

/-- The activation of one block (R459): the management firmware, a store that is loaded from the pending slot (07 R205), or a tile, whose
sequencer restarts and disturbs nothing. -/
def activateBlock (j : Journal) (b : Nat) (s : State) : State :=
  if j.comp = 0 then activateFirmware j s else if j.comp = 1 then s else bootStore b false s

/-- A block of step 5 is activated and journaled, once it can be. -/
def activateNext (b : Nat) (s : State) : State :=
  match s.journal with
  | some j =>
    if j.step = 5 ∧ j.left.contains b ∧ blockFree s j.comp b then noteStep { j with left := j.left.filter (· != b) } (activateBlock j b s) else s
  | none => s

/-- Step 6: the pending slot is committed and the journal closes (R458). -/
def commitUpdate (j : Journal) (s : State) : State := leaveServiceSafe j.comp (updateCompletes 0 (closeJournal { j with step := 6 } 1 s))

/-- An update at step 5 goes on: every block that can be activated is, and with the last of them step 6 follows. -/
def updateProceeds (s : State) : State :=
  match s.journal with
  | none => s
  | some j =>
    if j.step ≠ 5 then s
    else
      let s := forEach j.left s activateNext
      match s.journal with
      | some j => if j.left.isEmpty then commitUpdate j s else s
      | none => s

/-- A refusal at step 1. -/
def updateRefused (fab : Bool) (slot comp result : Nat) (s : State) : State :=
  let s := wrReg updPage 0x700 (upStat false 1 comp (!committedB s comp) 4 0) s
  slotDone fab slot result (rdReg s updPage 0x700).toNat (raiseBit updPage 1 s)

/-- An update goes on from step 5, or is over: held back where it reached the check of step 4. -/
def updateGoesOn (s : State) : State :=
  match s.journal with
  | some _ => updateProceeds s
  | none => updateCompletes (if fld (rdReg s updPage 0x700) 22 20 = 3 then 4 else 3) s

/-- The step, and the chunks or blocks of it, after which an update stops with its journal open, 0 for none. -/
def cutStep : UpdateCut → Nat × Nat
  | .none => (0, 0)
  | .after n => (n, 0)
  | .copying n => (2, n)
  | .activating n => (5, n)

/-- The journaled steps that run in one command. -/
def updateSteps (j : Journal) (readbackOk : Bool) (cut : Nat × Nat) (s : State) : State :=
  let n := chunksOf j.len
  let s := openJournal j s
  if cut.1 = 1 then s
  else if cut.1 = 2 ∧ cut.2 ≠ 0 ∧ cut.2 < n then copyChunks j cut.2 s
  else
    let s := copyChunks j n s
    let j := { j with chunks := n, step := 2 }
    if cut.1 = 2 then s
    else if !readbackOk then updateGoesOn (closeJournal j 2 s)
    else
      let s := slotVerified j s
      let j := { j with step := 3 }
      if cut.1 = 3 then s
      else if cut.1 = 4 ∧ journalTested j s then noteStep { j with step := 4 } s
      else
        let s := checkStep j s
        if cut.1 = 5 ∧ s.journal.isSome then forEach ((activationBlocks j.comp).take cut.2) s activateNext else updateGoesOn s

/-- Whether the signature of an image serves (R452, R467): unsigned images are accepted before SEALED, and a customer quarter needs the
customer key. -/
def updateSigned (s : State) (img : UpdateImage) (comp : Nat) : Bool :=
  if img.signed then img.sigOk && (decide (comp < 4) || s.keyFused) else decide (s.lifecycle < 2)

/-- What the manifest says of the image fits it and its slot (R439, R452): the whole image is the manifest block and the content. -/
def updateFits (img : UpdateImage) (comp len : Nat) : Bool :=
  img.manifestOk && img.manifest.comp == comp && manifestFits img.manifest
    && decide (0x1000 + img.manifest.len ≤ slotSize comp ∧ 0x1000 + img.manifest.len ≤ len)

/-- UPDATE (R457, R458), for a slot that has been taken up. -/
def updateService (fab : Bool) (slot : Nat) (img : UpdateImage) (cut : UpdateCut) (s : State) : State :=
  let comp := slotArg s fab slot 0 % 16
  let off := slotArg s fab slot 1
  let len := slotArg s fab slot 2
  let stat := (rdReg s updPage 0x700).toNat
  if s.journal.isSome then slotDone fab slot 6 stat s
  else if 5 < comp ∨ !inBank off len ∨ len ≤ 0x1000 then slotDone fab slot 2 stat s
  else if s.lifecycle = 3 ∧ 4 ≤ comp then slotDone fab slot 7 stat s
  else if !updateSigned s img comp then updateRefused fab slot comp 3 s
  else if !updateFits img comp len then updateRefused fab slot comp 4 s
  else
    let src := bankBase fab + off
    let len := 0x1000 + img.manifest.len
    updateSteps ⟨comp, !committedB s comp, img.manifest, src, len, Config.sha384 (memBytes s src len), 1, 0, [], false, 0, 0⟩ img.readbackOk (cutStep cut)
      (slotWaits fab slot .update s)

/-! ## Failover (R449, R450) -/

/-- The pair that takes over continues an update from its journal (R458); found tells which slots pass their signature check. -/
def resumeFromJournal (found : Nat → Bool) (s : State) : State :=
  if s.journal.isNone then s else
    let s := resolveJournal found { s with journal := readJournal s }
    match s.journal with
    | some _ => updateGoesOn s
    | none => updateCompletes (if fld (rdReg s updPage 0x700) 22 20 = 3 then 4 else 8) s

/-- The slots whose images the firmware knows as good. -/
def knownSlots (s : State) (k : Nat) : Bool := (smGet none s.images.slots k).isSome

/-- FAILOVER: the active pair diverges, or is STUCK. -/
def failOver (stuck : Bool) (b : BootFind) (s : State) : State :=
  match activePair s with
  | none => s
  | some p =>
    if domLost s 8 || (stuck && (eng s (1024 + p)).run != .stuck) then s
    else if role s (1 - p) ≠ 2 then resetD8 5 b s
    else
      let s := leaveTemper (1 - p) s
      let s := stopPair p (modReg (mcPage p) 0x700 (fun w => setFld w 27 24 (if stuck then 2 else 1)) s)
      let s := countReg (mcPage p) 0x708 1 (setRole p 3 s)
      let s := if stuck then s else report ⟨1, engIdent (1024 + p), 6, 1, 0, 0, []⟩ s
      resumeFromJournal (fun k => (smGet none (foundSlots b {}).slots k).isSome)
        (resumeService (offer 0x9004 4 (mcPage p) false [BitVec.ofNat 8 p] (takeOver p s)))

/-- A write of MC_CMD on the page of a pair (R451); pass is the verdict of Temper on REINT. -/
def mcCmd (p : Nat) (op : Nat) (m : Master) (pass : Bool) (s : State) : State :=
  let bad := rejectWrite (mcPage p) 0x704 m s
  match op with
  | 1 =>
    if role s p = 2 ∧ role s (1 - p) = 1 then
      let s := switchRoles p (leaveTemper p s)
      resumeFromJournal (knownSlots s) s
    else bad
  | 2 =>
    if role s p ≠ 3 then bad
    else if pass then updateProceeds (restartPair p (setRole p 2 (modReg (mcPage p) 0x700 (fun w => setFld w 27 24 0) (leaveTemper p s))))
    else temperFails (0, p) (modReg (mcPage p) 0x700 (fun w => setFld w 27 24 3) (leaveTemper p s))
  | 3 => if role s p = 2 then stagePair p (leaveTemper p s) else bad
  | _ => invalidWrite (mcPage p) 0x704 m s

/-- A write of MC_CMD from a pair in Service mode. -/
def mcCmdWrite (p : Nat) (m : Master) (v : Word) (pass : Bool) (s : State) : State :=
  if pairService s m then mcCmd p (fld v 2 0) m pass s else rejectWrite (mcPage p) 0x704 m s

/-! ## Lifecycle (R467, R468) -/

/-- Whether a signature permits a state. -/
def lifecycleSigned (s : State) (target : Nat) (borindam customer : Bool) : Bool :=
  let cust := customer && s.keyFused
  match target with
  | 1 => borindam
  | 2 => borindam || cust
  | _ => cust || (borindam && !s.keyFused)

/-- LIFECYCLE, for a slot that has been taken up. The customer key is fused once, in VENDOR. -/
def lifecycleService (fab : Bool) (slot : Nat) (borindam customer : Bool) (target : Nat) (fuse : Bool) (s : State) : State :=
  let ok := inBank (slotArg s fab slot 0) (slotArg s fab slot 1)
  let lc := s.lifecycle
  if !ok then slotDone fab slot 2 lc s
  else if s.chans.any (fun x => x.2.stream != .idle) then slotDone fab slot 6 lc s
  else if target ≠ lc + 1 ∨ 3 < target then slotDone fab slot 7 lc s
  else if !lifecycleSigned s target borindam customer then slotDone fab slot 3 lc s
  else
    let s := { s with lifecycle := target, keyFused := s.keyFused || (fuse && target == 1) }
    let s := offer 0xB002 5 devPage false [BitVec.ofNat 8 lc, BitVec.ofNat 8 target] (wipeStart .lifecycle s)
    slotDone fab slot 0 target s

end Sys2Proof.Machine
end

