-- ==== Sys2Proof/Machine/HostIf.lean ====
section
/-! DEFINITION. The PCIe link and MSI-X (spec 19 R475, R479, R480), the SMBus target (R481) and the test access port (R484). -/

namespace Sys2Proof.Machine

/-! ## PCIe link -/

/-- The link comes up (R480; 13 R341). FLIT mode is used at 64 GT/s, and only there (R472): the link never comes up otherwise. -/
def linkUp (width speed : Nat) (flit : Bool) (s : State) : State :=
  if flit != (speed == 6) || domLost s 9 || s.tapFault || bit (rdReg s pciePage 0x700) 31 || !([1, 2, 4, 8].contains width) || speed == 0 || decide (6 < speed) then s
  else
    let v := 2 ^ 31 + 2 ^ 30 + (speed == 6).toNat * 2 ^ 29 + width * 16 + speed
    raiseBit pciePage 1 (modReg fbPage 0x700 (fun w => setBit w 16 true) (wrReg pciePage 0x700 (w32 v) s))

/-- PERST_N, hot reset or link-down (17 R429; R475): the link is down, the configuration is reset, and requests in progress are
dropped; matrix transactions already issued complete and their results are discarded. -/
def pcieResets (s : State) : State :=
  let s := linkDown s
  wrReg msixPage 0x700 0
    { s with pcie := { s.pcie with reqs := [] }, trans := s.trans.map (fun t => if t.use = .pci then { t with use := .dropped } else t) }

/-- A Function Level Reset does the same and resets the MSI-X table, the PBA and the PCIE page. -/
def functionReset (s : State) : State :=
  let s := { pcieResets s with pcie := {} }
  let gone := fun k => k / 4096 % 16384 == pciePage
  { s with regs := smDrop gone s.regs, wms := smDrop (fun k => k / 4 == pciePage) s.wms, irqOut := smPut false s.irqOut pciePage false,
           msixDue := smPut 0 s.msixDue pciePage 0 }

/-! ## MSI-X (R479) -/

/-- A word of the MSI-X table; Vector Control resets to masked (log 13). -/
def msixWord (s : State) (i : Nat) : Word := smGet (if i % 4 = 3 then 1 else 0) s.pcie.table i

/-- The message of a vector is sent. -/
def sendMsix (v : Nat) (s : State) : State :=
  send (.msix (BitVec.ofNat 64 ((msixWord s (4 * v)).toNat + 2 ^ 32 * (msixWord s (4 * v + 1)).toNat)) (msixWord s (4 * v + 2))) s

/-- Whether messages are sent at all, and whether the function mask holds them. -/
def msixOn (s : State) : Bool := bit (rdReg s msixPage 0x700) 31 && bit (rdReg s msixPage 0x700) 29
def msixMasked (s : State) (v : Nat) : Bool := bit (rdReg s msixPage 0x700) 30 || bit (msixWord s (4 * v + 3)) 0

/-- A page's message is due: sent, pending or lost. -/
def msixMessageDue (page : Nat) (s : State) : State :=
  let n := smGet 0 s.msixDue page
  if n = 0 ∨ domLost s 9 then s
  else
    let v := fld (rdReg s page 0x008) 15 8
    let s := { s with msixDue := smPut 0 s.msixDue page (n - 1) }
    if !msixOn s then raiseBit msixPage 0 (countReg msixPage 0x704 1 s)
    else if msixMasked s v then { s with pcie := { s.pcie with pba := if s.pcie.pba.contains v then s.pcie.pba else v :: s.pcie.pba } }
    else sendMsix v s

/-- A pending vector that is no longer masked sends one message, which clears its pending bit. -/
def msixFlush (v : Nat) (s : State) : State :=
  if s.pcie.pba.contains v && msixOn s && !msixMasked s v then
    sendMsix v { s with pcie := { s.pcie with pba := s.pcie.pba.filter (fun x => x != v) } }
  else s

/-- A configuration write of MSI-X Enable, Function Mask and Bus Master Enable, in the places of MSX_STAT (log 40); vectors that are
pending and no longer masked send their messages. -/
def msixControl (v : Word) (s : State) : State := forUpTo 256 (wrReg msixPage 0x700 (v &&& 0xE0000000) s) msixFlush

/-- A write of the configuration space: 0x44 the power state, D0 or D3hot, 0x80 the ASPM control, L1 alone, 0x104 the status of AER, whose
bits a write of 1 clears (R472, log 192); elsewhere the word of MSX_STAT (log 40). -/
def configWrite (o : Nat) (v : Word) (s : State) : State :=
  match o with
  | 0x44 => { s with pcie := { s.pcie with d3 := fld v 1 0 == 3 } }
  | 0x80 => { s with pcie := { s.pcie with aspm := fld v 1 1 * 2 } }
  | 0x104 => { s with pcie := { s.pcie with aer := s.pcie.aer &&& ~~~v } }
  | _ => msixControl v s

/-- A read of the configuration space. -/
def configRead (s : State) (o : Nat) : Word :=
  match o with
  | 0x44 => w32 (3 * s.pcie.d3.toNat)
  | 0x80 => w32 s.pcie.aspm
  | 0x104 => s.pcie.aer
  | _ => rdReg s msixPage 0x700

/-- A write of a word of the MSI-X table. -/
def msixTableWrite (i : Nat) (w : Word) (s : State) : State :=
  msixFlush (i / 4) { s with pcie := { s.pcie with table := smPut (if i % 4 = 3 then 1 else 0) s.pcie.table i w } }

/-- A vector is unmasked. -/
def msixUnmasked (v : Nat) (s : State) : State := msixTableWrite (4 * v + 3) (setBit (msixWord s (4 * v + 3)) 0 false) s

/-- A byte of BAR4: the table, then the PBA. -/
def bar4Byte (s : State) (o : Nat) : Byte :=
  if o < 0x1000 then BitVec.ofNat 8 ((msixWord s (o / 4)).toNat / 256 ^ (o % 4))
  else if o < 0x1020 then BitVec.ofNat 8 (forUpTo 8 0 (fun i n => n + (s.pcie.pba.contains (8 * (o - 0x1000) + i)).toNat * 2 ^ i))
  else 0

/-- Bytes written to BAR4 from an offset: those of the table take effect word by word; the PBA is read-only. -/
def bar4Write (o : Nat) (bs : List Byte) (s : State) : State :=
  forUpTo ((bs.length + o % 4 + 3) / 4) s (fun i s =>
    let wd := o / 4 + i
    if 0x400 ≤ wd then s
    else
      let v := forUpTo 4 (msixWord s wd) (fun j w =>
        let p := 4 * wd + j
        if o ≤ p ∧ p < o + bs.length then setFld w (8 * j + 7) (8 * j) (bs.getD (p - o) 0).toNat else w)
      msixTableWrite wd v s)

/-! ## SMBus (R481) -/

/-- The PEC of SMBus after one more byte: the CRC-8 of the polynomial x^8 + x^2 + x + 1 (SMBus 3.1, log 196). -/
def pecByte (c b : Byte) : Byte := forUpTo 8 (c ^^^ b) (fun _ x => if x.getLsbD 7 then (x <<< 1) ^^^ 7 else x <<< 1)

/-- The PEC of the bytes of a transaction. -/
def pecOf (bs : List Byte) : Byte := forEach bs 0 (fun b c => pecByte c b)

/-- The address byte of the target, which a read ends with a 1. -/
def smbAddress (read : Bool) : Byte := BitVec.ofNat 8 (2 * (0x40 + Config.smbAddr.toNat) + read.toNat)

/-- The answer to a read: what it carries, and the PEC over the whole transaction, of which ask is what the controller has sent (R481). -/
def smbusAnswers (ask data : List Byte) (s : State) : State :=
  send (.smbus (data ++ [pecOf ([smbAddress false] ++ ask ++ [smbAddress true] ++ data)])) s

/-- RST_PGOOD. -/
def powerGoods (s : State) : Nat := forUpTo 14 0 (fun d n => n + (dom s d).good.toNat * 2 ^ d)

/-- Command 0x01. -/
def smbusStatus (s : State) : Word :=
  let dev := rdReg s devPage 0x700
  w32 (powerGoods s + (bit dev 31).toNat * 2 ^ 16 + (bit dev 30).toNat * 2 ^ 17 + (bit dev 29).toNat * 2 ^ 18
    + s.thermal.warn.toNat * 2 ^ 19 + s.thermal.trip.toNat * 2 ^ 20 + (fld (emStat s) 2 0 != 0).toNat * 2 ^ 21)

/-- SMBALERT_N is asserted while one of bits 18 to 21 is 1. -/
def smbAlert (s : State) : Bool := fld (smbusStatus s) 21 18 != 0

/-- The highest sensor temperature. -/
def highestTemp (s : State) : BitVec 16 :=
  (List.range 14).foldl (fun a i => let t := smGet 0 s.thermal.temps i; if a.toInt < t.toInt then t else a) (smGet 0 s.thermal.temps 0)

/-- Commands 0x01, a Block Read with its byte count, and 0x02 answer. -/
def smbusStatusAnswer (s : State) : State := smbusAnswers [1] (4 :: leBytes 4 (smbusStatus s).toNat) s
def smbusTempAnswer (s : State) : State := smbusAnswers [2] (leBytes 2 (highestTemp s).toNat) s

/-- Command 0x03: the estimate is free (log 8). -/
def smbusPowerAnswer (s : State) : State := tick (smbusAnswers [3] (leBytes 2 (freeVal 16 s)) s)

/-- Command 0x11. -/
def smbusStop (data : List Byte) (s : State) : State :=
  if data.length = 4 ∧ bit (rdReg s smbPage 0x700) 0 ∧ !domLost s 8 then setLatch 2 0 0 s else s

/-- A write that stops before its PEC is discarded and counted. -/
def smbusDiscard (s : State) : State := raiseBit smbPage 1 (countReg smbPage 0x704 1 s)

/-- A write whose PEC is wrong or missing is discarded and counted; the target does not acknowledge a wrong PEC. -/
def smbusBadPec (stopped : Bool) (s : State) : State := if stopped then smbusDiscard s else send .smbusNack (smbusDiscard s)

/-- The Alert Response Address, 0x0C, is read while SMBALERT_N is asserted: the device's address, whose low bits are straps, and the PEC. -/
def smbusAlertAnswer (s : State) : State :=
  if smbAlert s then send (.smbus [smbAddress false, pecOf [0x19, smbAddress false]]) s else s

/-! ## JTAG (R484) -/

/-- The identification register: stepping C2, part 0x5120, the manufacturer of the BSDL file, and a 1. -/
def idcode : Word := w32 (0x2 * 2 ^ 28 + 0x5120 * 2 ^ 12 + Config.manufacturer.toNat * 2 + 1)

/-- The data register that an instruction selects, as its length and what it captures: the identification register, or the bypass register,
which captures 0 (IEEE 1149.1, log 197). The boundary register is as long as the BSDL file says, and holds what the pins show. -/
def tapRegister : TapInstr → Option (Nat × Word)
  | .idcode => some (32, idcode)
  | .bypass | .clamp | .highz => some (1, 0)
  | .sample | .extest | .extestPulse | .extestTrain => none

/-- Whether an instruction drives the pins. -/
def tapDrives : TapInstr → Bool
  | .extest | .clamp | .highz | .extestPulse | .extestTrain => true
  | _ => false

/-- A TAP instruction is loaded. -/
def tapLoad (i : TapInstr) (s : State) : State :=
  let s := { s with tap := i }
  if !tapDrives i then s
  else
    let s := pcieResets (setLatch 2 0 0 { s with tapFault := true })
    if domLost s 9 then s else forUpTo 8 s (fun p s => if (port s p).st = 4 then s else faultPort p s)

/-- Test-Logic-Reset: IDCODE is selected and the ports leave FAULT. -/
def tapReset (s : State) : State :=
  let held := s.tapFault
  let s := { s with tap := .idcode, tapFault := false }
  if !held || domLost s 9 then s
  else forUpTo 8 s (fun p s => if (port s p).st = 4 then portState p (if portEn s p then 2 else 0) s else s)

end Sys2Proof.Machine
end

