-- ==== Sys2Proof/Machine/Access.lean ====
section
/-! DEFINITION. Reads and writes of the register pages: the common header (spec 14 R366-R383), the views that registers show,
the rules of access of each page, and what a write does. -/

namespace Sys2Proof.Machine

/-! ## The header (14 R369-R383) -/

/-- PG_ID. -/
def pageId (x : Page) (page : Nat) : Nat := pageType x.kind * 2 ^ 24 + x.inst * 2 ^ 12 + (if page = 0 then 0xC2 else 1)

/-- PG_CAP. -/
def pageCap (x : Page) : Nat :=
  (hasBank x.kind).toNat * 2 ^ 31 + wmMask x.kind * 2 ^ 24 + pageDomain x * 2 ^ 16 + pageIsland x * 2 ^ 8 + Nat.log2 (2 * irqMask x.kind + 1)

/-- PG_STAT (R373). -/
def pageStat (s : State) (page : Nat) : Nat :=
  wmHits s page * 16 + (hangArmed s page).toNat * 8 + (bit (rdReg s page 0x020) 31).toNat * 4 + (irqOutput s page).toNat * 2 + (domReady s (domainOfPage page)).toNat

/-- A header register or a watermark register. -/
def headerRead (s : State) (x : Page) (page off : Nat) : Word :=
  if off = 0x000 then w32 (pageId x page)
  else if off = 0x004 then w32 (pageCap x)
  else if off = 0x00C then w32 (pageStat s page)
  else if off = 0x018 then irqPend s page
  else if off = 0x01C then rdReg s page 0x010
  else if off = 0x024 ∨ 0x080 ≤ off then 0
  else if 0x040 ≤ off then (if wmMask x.kind / 2 ^ ((off - 0x040) / 0x10) % 2 = 1 then rdReg s page off else 0)
  else rdReg s page off

/-- A write of PG_FAULT_ACK (R378). -/
def faultAck (page : Nat) (v : Word) (s : State) : State :=
  let f := rdReg s page 0x020
  noteAck page (if bit f 31 ∧ fld v 30 0 = fld f 30 0 then wrReg page 0x020 0 s else s)

/-- A write of a header or watermark register. -/
def headerWrite (x : Page) (page off : Nat) (m : Master) (v : Word) (s : State) : State :=
  let mask := w32 (irqMask x.kind)
  match off with
  | 0x008 => noteAck page (wrReg page 0x008 (w32 (fld v 15 8 * 2 ^ 8 + Nat.land (fld v 7 4) (wmMask x.kind) * 2 ^ 4 + fld v 3 1 * 2)) s)
  | 0x010 => noteAck page (modReg page 0x010 (fun w => w &&& ~~~v) s)
  | 0x014 => noteAck page (wrReg page 0x014 (v &&& mask) s)
  | 0x01C => raise page (v &&& mask) s
  | 0x024 => faultAck page v s
  | 0x02C => if hangArmed s page then rejectWrite page off m s else wrReg page 0x02C (w32 (fld v 8 0)) s
  | _ =>
    let n := (off - 0x040) / 0x10
    if off < 0x040 ∨ 0x080 ≤ off ∨ wmMask x.kind / 2 ^ n % 2 = 0 then s
    else if off % 0x10 = 0 then wmMark page n v s
    else if off % 0x10 = 0xC then (if bit v 31 then wmClear page n s else noteAck page s)
    else s

/-! ## Registers with fields -/

/-- What a read shows of a stored register: every field but the write-only ones. -/
def shown (fs : List Field) (w : Word) : Word :=
  forEach fs 0 (fun f r => if f.acc == .wo then r else setFld r f.hi f.lo (fld w f.hi f.lo))

/-- A stored register of a page. -/
def storedRead (s : State) (easel : Bool) (x : Page) (page off : Nat) : Word :=
  match findReg (regsOf x.kind) off with
  | some r => if easel && !r.bankable then 0 else shown r.fields (rdRole s easel page off)
  | none => 0

/-- A write that only sets fields (00 R10, R13). -/
def plainWrite (page off : Nat) (m : Master) (fs : List Field) (v : Word) (s : State) : State :=
  if woInvalid fs v then invalidWrite page off m s
  else
    let w := mergeWord fs (rdReg s page off) v
    let s := wrReg page off w.1 s
    if w.2 then capture page fINVALID off (masterCode m) s else s

/-! ## Views -/

/-- CH_STAT, and the oldest TDC entry (02 R72, R74). The spec gives what FUNC_ACT reads in a mode-change interval only (R46): between B0
and B1 of a function switch it reads the old function (log 129). -/
def chRead (s : State) (c off : Nat) : Word :=
  let x := chan s c
  let measured := s.primer.cur.contains c
  let e := x.tdcFifo.head?
  match off with
  | 0x700 => w32 (x.srcAct.toNat * 2 ^ 13 + x.tdcFifo.length * 2 ^ 8 + x.clamped.toNat * 2 ^ 7 + (x.pmu != .idle).toNat * 2 ^ 6 + x.held.toNat * 2 ^ 5
      + (x.phase == .ramp).toNat * 2 ^ 4 + (x.phase != .steady).toNat * 2 ^ 3 + (if measured then 0 else funcCode x.func))
  | 0x710 => w32 (match e with | some e => e.ofs.toNat | none => 0)
  | 0x714 => w32 (match e with | some e => 2 ^ 31 + e.falling.toNat * 2 ^ 30 + e.thr * 2 ^ 28 + e.missed.toNat * 2 ^ 27 + e.ofs.toNat / 2 ^ 32 | none => 0)
  | 0x718 => w32 (match e with | some e => e.count | none => 0)
  | 0x71C => w32 (match e with | some e => e.count / 2 ^ 32 | none => 0)
  | _ => storedRead s false ⟨.ch, c⟩ (chPage c) off

/-- QN_HELD and QN_CAUSE (15 R408). -/
def quenchRead (s : State) (t off : Nat) : Word :=
  let held := fun b => w32 (forUpTo 32 0 (fun i n => n + (chan s (64 * t + b + i)).held.toNat * 2 ^ i))
  match off with
  | 0x700 => held 0
  | 0x704 => held 32
  | 0x714 => (chan s (64 * t + fld (rdReg s (tqPage t) 0x710) 5 0)).cause
  | _ => storedRead s false ⟨.tquench, t⟩ (tqPage t) off

/-- PAL_STAT and STRM_STATi (03 R93). -/
def palRead (s : State) (l off : Nat) : Word :=
  if off = 0x708 then w32 (palCmd s l).isSome.toNat
  else if 0x740 ≤ off ∧ off < 0x760 then
    let x := chan s (8 * l + (off - 0x740) / 4)
    w32 ((x.stream == .running).toNat * 2 ^ 31 + (x.stream == .armed).toNat * 2 ^ 30 + fld (rdReg s (palPage l) off) 29 27 * 2 ^ 27 + x.fifo.length)
  else storedRead s false ⟨.pal, l⟩ (palPage l) off

/-- LN_THR_STAT (06 R186). -/
def laneRead (s : State) (l off : Nat) : Word :=
  if off = 0x704 then w32 (forUpTo 8 0 (fun t n => n + threadState s l t * 16 ^ t)) else storedRead s false ⟨.ln, l⟩ (lnPage l) off

/-- LCS_STAT and LCS_LDPTR (07 R208, R210). -/
def storeRead (s : State) (x : Page) (i off : Nat) : Word :=
  let c := store s i
  match off with
  | 0x700 => w32 (c.err * 2 ^ 24 + (i < 64 && skBusy s i).toNat * 2 ^ 13 + c.mode.toNat * 2 ^ 12 + c.busy.toNat * 2 ^ 11 + (if c.mode then c.up else 0) * 2 ^ 8 + c.low)
  | 0x708 => w32 c.ptr
  | _ => storedRead s false x (storePage i) off

/-- CL_FSTAT, the done ring and the overflow bitmap (10 R283). -/
def clusterRead (s : State) (k off : Nat) : Word :=
  let f := failPipe s k
  match off with
  | 0x700 => w32 (base s k).count
  | 0x704 => (base s k).scHi
  | 0x708 => smGet 0 s.fstat k
  | 0x72C => shownCount s (clPage k) 0x72C
  | 0x71C => w32 f.freeList.length
  | 0x720 => (match f.done with
      | d :: _ => w32 (2 ^ 31 + d.part.toNat * 2 ^ 30 + d.lane * 2 ^ 25 + d.count * 2 ^ 12 + d.buf)
      | [] => 0)
  | 0x74C =>
    let sel := rdReg s (clPage k) 0x748
    let l := lane s (laneOfCluster k (fld sel 13 11))
    w32 (forUpTo 32 0 (fun i n => n + (smGet false l.ovf (32 * fld sel 10 0 + i)).toNat * 2 ^ i))
  | _ => storedRead s false ⟨.cl, k⟩ (clPage k) off

/-- WD_STAT (10 R284). -/
def weldRead (s : State) (k off : Nat) : Word :=
  if off = 0x700 then w32 (weldSt s k * 2 ^ 30 + (solveBusy (weld s k)).toNat * 2 ^ 29 + (weld s k).regions.length)
  else storedRead s false ⟨.wd, k⟩ (wdPage k) off

/-- The pages whose output has been asserted. -/
def irqPages (s : State) : List Nat := smKeys (fun p o => o && irqCounts s p) s.irqOut

/-- The IRQS page. -/
def irqsRead (s : State) (off : Nat) : Word :=
  let bits := fun (l : List Nat) => w32 ((l.eraseDups.map (fun i => 2 ^ i)).sum)
  let sel := fld (rdReg s (pageIndex ⟨.irqs, 0⟩) 0x720) 7 0
  if 0x700 ≤ off ∧ off < 0x720 then
    let w := (off - 0x700) / 4
    bits ((irqPages s).filterMap (fun p => if p / 64 / 32 = w then some (p / 64 % 32) else none))
  else if off = 0x724 then bits ((irqPages s).filterMap (fun p => if p / 64 = sel ∧ p % 64 < 32 then some (p % 64) else none))
  else if off = 0x728 then bits ((irqPages s).filterMap (fun p => if p / 64 = sel ∧ 32 ≤ p % 64 then some (p % 64 - 32) else none))
  else storedRead s false ⟨.irqs, 0⟩ (pageIndex ⟨.irqs, 0⟩) off

/-- The ANVIL page's view of the selected entry (15 R409). -/
def anvilRead (s : State) (off : Nat) : Word :=
  let e := anvEntry s (fld (rdReg s anvilPage 0x704) 5 0)
  match off with
  | 0x700 => w32 ((s.anvil.filter (fun x => x.2.state == 2)).length * 2 ^ 16 + (s.anvil.filter (fun x => x.2.state == 1)).length)
  | 0x708 => e.fid
  | 0x70C => w32 (anvSrc e)
  | 0x710 => w32 (anvInfo e)
  | 0x714 => w32 (e.firstFt / ns / 65536)
  | 0x718 => w32 e.links
  | _ => storedRead s false ⟨.anvil, 0⟩ anvilPage off

/-- PT_STAT, the counters that the control area holds (16 R412), and PT_RLCFG of the selected bucket (R424). -/
def patinaRead (s : State) (off : Nat) : Word :=
  let p := s.patina
  match off with
  | 0x700 => w32 (p.frozen.toNat * 2 ^ 31 + p.frzBroken.toNat * 2 ^ 30 + p.auth.toNat * 2 ^ 29 + p.flushing.toNat * 2 ^ 28 + p.fill / 8)
  | 0x71C => w32 (opsec s)
  | 0x720 => w32 (pcyc s)
  | 0x738 => let b := bucket s (fld (rdReg s patPage 0x734) 15 0); w32 (b.rate * 2 ^ 16 + b.burst)
  | _ => storedRead s false ⟨.patina, 0⟩ patPage off

/-- The FB page's computed registers (13 R364, R365). -/
def fabricRead (s : State) (off : Nat) : Word :=
  match off with
  | 0x718 => w32 (2200 * fld (rdReg s fbPage 0x714) 5 0 + 2000)
  | 0x720 => w32 (tEff s)
  | 0x738 | 0x73C => shownCount s fbPage off
  | 0x770 => w32 (ftNs s)
  | _ => storedRead s false ⟨.fb, 0⟩ fbPage off

/-- FBP_STAT (13 R365). -/
def portRead (s : State) (p off : Nat) : Word :=
  let x := port s p
  if off = 0x704 then w32 (x.nbr * 2 ^ 16 + x.known.toNat * 2 ^ 15 + x.nport * 2 ^ 12 + x.st) else storedRead s false ⟨.fbp, p⟩ (fbpPage p) off

/-- SMB_THERM (19 R482). -/
def thermRead (s : State) : Word :=
  w32 (s.thermal.warn.toNat * 2 ^ 31 + s.thermal.trip.toNat * 2 ^ 30 + (smGet 0 s.thermal.temps (fld (rdReg s smbPage 0x708) 3 0)).toNat)

/-- A non-bankable register of a page. -/
def blockRead (s : State) (x : Page) (page off : Nat) : Word :=
  match x with
  | ⟨.ch, c⟩ => chRead s c off
  | ⟨.tquench, t⟩ => quenchRead s t off
  | ⟨.pal, l⟩ => palRead s l off
  | ⟨.ln, l⟩ => laneRead s l off
  | ⟨.lcs, l⟩ => storeRead s x l off
  | ⟨.ccs, k⟩ => storeRead s x (64 + k) off
  | ⟨.cl, k⟩ => clusterRead s k off
  | ⟨.wd, k⟩ => weldRead s k off
  | ⟨.irqs, _⟩ => irqsRead s off
  | ⟨.quench, _⟩ => if off = 0x700 then emStat s else storedRead s false x page off
  | ⟨.anvil, _⟩ => anvilRead s off
  | ⟨.patina, _⟩ => patinaRead s off
  | ⟨.fb, _⟩ => fabricRead s off
  | ⟨.fbp, p⟩ => portRead s p off
  | ⟨.hang, _⟩ => if 0x720 ≤ off ∧ off < 0x740 ∧ off % 4 = 0 then slotWord (hangSlot s ((off - 0x720) / 4)) else storedRead s false x page off
  | ⟨.tpll, _⟩ => if off = 0x700 then setBit (storedRead s false x page off) 1 s.fabric.unsteered else storedRead s false x page off
  | ⟨.dev, _⟩ => if off = 0x704 then w32 s.lifecycle else storedRead s false x page off
  | ⟨.rst, _⟩ =>
    if off = 0x700 then w32 (powerGoods s)
    else if off = 0x704 then w32 (forUpTo 14 0 (fun d n => n + (dom s d).inReset.toNat * 2 ^ d))
    else storedRead s false x page off
  | ⟨.mem, _⟩ =>
    if off = 0x720 then setBit (storedRead s false x page off) 31 s.wiping else if 0x700 ≤ off ∧ off ≤ 0x714 ∧ off % 4 = 0 then pwrRead s off else 0
  | ⟨.tongs, _⟩ =>
    if off % 0x20 = 0x1C then setBit (storedRead s false x page off) 31 (tgChan s ((off - 0x700) / 0x20)).running else storedRead s false x page off
  | ⟨.snap, _⟩ => if off = 0x710 then setBit (storedRead s false x page off) 31 s.snap.running else storedRead s false x page off
  | ⟨.upd, _⟩ => if off = 0x730 then upSlots s else storedRead s false x page off
  | ⟨.primer, _⟩ => if off = 0x708 then w32 (committedSeq s) else storedRead s false x page off
  | ⟨.tcal, t⟩ => if off = 0x700 ∧ (dom s t).due then 0xC0000000 else storedRead s false x page off
  | ⟨.temper, _⟩ => if off = 0x710 then w32 (temperAge s) else storedRead s false x page off
  | ⟨.smb, _⟩ => if off = 0x70C then thermRead s else storedRead s false x page off
  | ⟨.fbrt, _⟩ => if off = 0x704 then routeEntry s (rtIndex s) else storedRead s false x page off
  | _ => storedRead s false x page off

/-- A read of the Easel role: while a COPY has the page still to copy, it may already have done so (12 R327). -/
def easelRead (s : State) (x : Page) (page off : Nat) : Word :=
  match findReg (regsOf x.kind) off with
  | some r => if r.bankable && toCopy s page && freeVal 1 s == 1 then shown r.fields (copied s page off) else storedRead s true x page off
  | none => 0

/-- The value a read of a page returns; the debug area and TEST pages are free while they are open (log 8). -/
def pageRead (s : State) (page off : Nat) : Word :=
  match pageAt page with
  | none => 0
  | some x =>
    if x.kind == .test || 0xF00 ≤ off then (if debugOpen s then w32 (freeVal 32 s) else 0)
    else if off < 0x100 then headerRead s x page off
    else if off < 0x700 then storedRead s false x page off
    else if off < 0x800 then blockRead s x page off
    else if off < 0x900 then 0
    else easelRead s x page (off - 0x800)

/-- Whether a register has RC fields. -/
def readClears (x : Page) (off : Nat) : Bool :=
  match findReg (regsOf x.kind) off with
  | some r => r.fields.any (fun f => f.acc == .rc)
  | none => false

/-- What a read of a page does beside its value: RC fields clear (00 R10), CL_SC_LO and FB_FT_LO latch, FBRT_DATA steps. -/
def pageReadEffect (page off : Nat) (s : State) : State :=
  match pageAt page with
  | none => s
  | some x =>
    if x.kind == .test || 0xF00 ≤ off || (0x900 ≤ off && toCopy s page) then tick s
    else match x with
      | ⟨.cl, k⟩ => if off = 0x700 then scLatch k s else if off = 0x72C then takeCount page off s else if readClears x off then wrReg page off 0 s else s
      | ⟨.fbrt, _⟩ => if off = 0x704 then rtStep s else s
      | ⟨.fb, _⟩ =>
        if off = 0x770 then wrReg fbPage 0x778 (w32 (s.now % ns)) (wrReg fbPage 0x774 (w32 (ftNs s / 2 ^ 32)) s)
        else if off = 0x738 ∨ off = 0x73C then takeCount page off s
        else if readClears x off then wrReg page off 0 s else s
      | _ => if readClears x off then wrReg page off 0 s else s

/-! ## Snapshot start (12 R332, R333) -/

/-- A snapshot ends with an error. -/
def snapFails (err : Nat) (s : State) : State :=
  raiseBit snapPage 1 (modReg snapPage 0x71C (fun w => setFld (setBit w 31 false) 3 0 err) { s with snap := {} })

/-- A write of SN_CTL. A start with SN_AT less than 1 µs away ends LATE. -/
def snapCtlWrite (m : Master) (v : Word) (s : State) : State :=
  let count := fld v 8 0
  let atft := bit v 30
  if !bit v 31 then modReg snapPage 0x710 (fun w => setFld (setBit w 30 atft) 8 0 count) s
  else if s.snap.running ∨ (tgChan s 7).running ∨ count = 0 ∨ 256 < count ∨ fld (rdReg s snapPage 0x708) 10 0 ≠ 0 then rejectWrite snapPage 0x710 m s
  else
    let s := modReg snapPage 0x71C (fun w => setFld w 3 0 0) (modReg snapPage 0x710 (fun w => setFld (setBit w 30 atft) 8 0 count) s)
    let at_ := if atft then rd64 s snapPage 0x714 * ns else s.now
    if atft ∧ at_ < s.now + us then snapFails 2 s else { s with snap := { running := true, startAt := s.now, atT := at_ } }

/-! ## Writes -/

/-- Pages that reject writes from lane ports (12 R334; 13 R365; 15 R408, R409; 16 R424). -/
def laneRejected : Kind → Bool
  | .hang | .snap | .quench | .scrub | .anvil | .patina | .fb | .fbrt | .fbp => true
  | _ => false

/-- Pages that accept writes only from a pair in Service mode (18 R470). -/
def pairOnly : Kind → Bool
  | .mc | .upd | .temper | .primer | .tref | .tcal => true
  | _ => false

/-- Whether a master is a lane port. -/
def isLanePort : Master → Bool
  | .lane _ => true
  | _ => false

/-- Whether a master may write calibration constants (18 R463). -/
def calWriter (s : State) (page : Nat) (m : Master) : Bool :=
  pairService s m || (match m, pageAt page with | .tileSeq t, some ⟨.ch, c⟩ => decide (t.val = tileOf c) | _, _ => false)

/-- Whether the rules of a page reject a write whole. -/
def pageRejects (s : State) (x : Page) (m : Master) : Bool :=
  (laneRejected x.kind && isLanePort m) || (pairOnly x.kind && !pairService s m)

/-- A write of an offset without a register: nothing, but that all of the calibration area is closed to other masters (18 R463). -/
def foreignCal (page off at_ : Nat) (m : Master) (s : State) : State :=
  if isCal page off && !calWriter s page m then rejectWrite page at_ m s else s

/-- A write to the Easel role (12 R314, R324). -/
def easelWrite (x : Page) (page off : Nat) (m : Master) (v : Word) (s : State) : State :=
  match findReg (regsOf x.kind) off with
  | none => foreignCal page off (off + 0x800) m s
  | some r =>
    if !r.bankable then s
    else if hangArmed s page || (isCal page off && !calWriter s page m) then rejectWrite page (off + 0x800) m s
    else wrRole true page off (easelWord r.fields v) s

/-- A live write of a bankable CL register (03 R77, R79; 10 R263). -/
def clusterLive (k off : Nat) (m : Master) (fs : List Field) (v : Word) (s : State) : State :=
  let p := clPage k
  match off with
  | 0x100 | 0x104 =>
    let w := (mergeWord fs (rdReg s p off) v).1
    let per := if off = 0x100 then w.toNat + 2 ^ 32 * fld (rdReg s p 0x104) 7 0 else (rdReg s p 0x100).toNat + 2 ^ 32 * fld w 7 0
    if bit (rdReg s p 0x108) 0 || (base s k).en || !periodValid per then invalidWrite p off m s else wrReg p off w s
  | 0x108 => strkCtlWrite k m (bit v 0) s
  | 0x120 => captureChange k (captureOn s k) (plainWrite p off m fs v s)
  | _ => plainWrite p off m fs v s

/-- A live write of PM_CFGp (09 R246): with EN = 1 an INT of 0 is reserved, and INT keeps its value; EN keeps its own too where INT was 0
already (log 148). -/
def markCfgWrite (page off : Nat) (m : Master) (fs : List Field) (v : Word) (s : State) : State :=
  let old := rdReg s page off
  let w := (mergeWord fs old v).1
  if markCfgOk w then wrReg page off w s
  else
    let kept := setFld w 15 0 (fld old 15 0)
    capture page fINVALID off (masterCode m) (wrReg page off (if markCfgOk kept then kept else setBit kept 31 false) s)

/-- A live write to the Canvas role. -/
def canvasWrite (x : Page) (page off : Nat) (m : Master) (v : Word) (s : State) : State :=
  match findReg (regsOf x.kind) off with
  | none => foreignCal page off off m s
  | some r =>
    match x with
    | ⟨.ch, c⟩ =>
      if isCal page off then (if calWriter s page m then chanLive c off (easelWord r.fields v) s else rejectWrite page off m s)
      else chanWrite c off m r.fields v s
    | ⟨.cl, k⟩ => clusterLive k off m r.fields v s
    | ⟨.pmark, _⟩ => markCfgWrite page off m r.fields v s
    | _ => plainWrite page off m r.fields v s

/-- A write of a control-store page (07 R205, R209-R211): the socket table is writable only while ST_UP is LOADING. -/
def storeWrite (i off : Nat) (m : Master) (fs : List Field) (v : Word) (s : State) : State :=
  let p := storePage i
  let load := off = 0x704 ∨ (0x720 ≤ off ∧ off < 0x770)
  if load ∧ !isPair m then rejectWrite p off m s
  else if off = 0x704 then ldcmdWrite i m v s
  else if off = 0x73C then loadData i m v s
  else if load then wrReg p off v s
  else if 0x780 ≤ off ∧ (store s i).up ≠ 1 then rejectWrite p off m s
  else plainWrite p off m fs v s

/-- A doorbell register: bits set by one side and cleared by the management pairs (19 R476, R478, R480). -/
def doorWrite (page off : Nat) (sets : Bool) (m : Master) (v : Word) (s : State) : State :=
  if sets then modReg page off (fun w => w ||| v) s
  else if isPair m then modReg page off (fun w => w &&& ~~~v) s
  else rejectWrite page off m s

/-- A write of the FB page. -/
def fabricWrite (off : Nat) (m : Master) (fs : List Field) (v : Word) (s : State) : State :=
  match off with
  | 0x72C => ringProduce v s
  | 0x740 => let s := plainWrite fbPage off m fs v s; if bit v 1 then originate (fld v 15 8) s else s
  | 0x750 =>
    let old := rdReg s fbPage off
    let s := plainWrite fbPage off m fs v s
    if rdReg s fbPage off = old then s else modFab (fun x => { x with timeNew := true, onAlt := false }) s
  | 0x760 | 0x764 => modFab (fun x => { x with ftPending := true }) (plainWrite fbPage off m fs v s)
  | 0x768 => if bit v 0 then ftSetCmd m s else s
  | 0x77C => doorWrite fbPage off (m == .agent) m v s
  | _ => plainWrite fbPage off m fs v s

/-- A PAL command that names a channel in use ends its use (18 R461). -/
def palYields (l : Nat) (v : Word) (s : State) : State :=
  if fld v 1 0 = 0 then s else yields (fun p => p == chPage (8 * l + fld (rdReg s (palPage l) 0x700) 10 8)) s

/-- Whether the ports follow EN: start-up has come to step 6, and a restart of D9 is not due (17 R432, R433, R437). -/
def portsOpen (s : State) : Bool := bit (rdReg s devPage 0x700) 31 && !(dom s 9).due

/-- A write of FBP_CTL (13 R336, R365). -/
def portCtlWrite (p : Nat) (v : Word) (s : State) : State :=
  let s := wrReg (fbpPage p) 0x700 (w32 (fld v 2 0)) s
  let s := if portsOpen s || !bit v 0 then portEnable p (bit v 0) s else s
  if bit v 3 then retrainPort p s else s

/-- RST_CMD's rule of access (17 R445). -/
def rstWriter (s : State) (m : Master) (v : Word) : Bool :=
  pairService s m || (m == .pcie && bit v 15 && fld v 31 16 == 0x5A17)

/-- A write of a non-bankable register. What a command brings with its own row and a plain write does not (the contact inside the
band, the verdicts on an image and on a pair, what start-up finds) is free (log 8). -/
def blockWrite (x : Page) (page off : Nat) (m : Master) (fs : List Field) (v : Word) (s : State) : State :=
  let plain := plainWrite page off m fs v s
  match x, off with
  | ⟨.ch, c⟩, 0x704 => pmuTrigWrite c m v s
  | ⟨.ch, c⟩, 0x720 => tdcPopWrite c v s
  | ⟨.tquench, t⟩, 0x708 => releaseWrite t false m v (w32 (freeVal 32 s)) (tick s)
  | ⟨.tquench, t⟩, 0x70C => releaseWrite t true m v (w32 (freeVal 32 s)) (tick s)
  | ⟨.pal, l⟩, 0x704 => palCmdWrite l m v (palYields l v s)
  | ⟨.ln, l⟩, 0x700 => thrCtlWrite l v s
  | ⟨.lcs, l⟩, _ => storeWrite l off m fs v s
  | ⟨.ccs, k⟩, _ => storeWrite (64 + k) off m fs v s
  | ⟨.cl, k⟩, 0x70C => fcmdWrite k m v s
  | ⟨.cl, k⟩, 0x710 | ⟨.cl, k⟩, 0x714 => if captureOn s k then refuseCmd page off m s else plain
  | ⟨.cl, k⟩, 0x718 => freeWrite k (fld v 11 0) m s
  | ⟨.cl, k⟩, 0x724 => if bit v 0 then donePop k s else s
  | ⟨.cl, k⟩, 0x730 => scselWrite k v s
  | ⟨.wd, k⟩, 0x704 => weldCmdWrite k m v s
  | ⟨.wd, k⟩, 0x710 => replayWrite k m v s
  | ⟨.wd, k⟩, 0x718 => sumselWrite k v s
  | ⟨.wd, k⟩, 0x708 | ⟨.wd, k⟩, 0x70C =>
    if weldSt s k = 0 ∨ weldSt s k = 3 then plainWrite page off m fs v s else refuseCmd page off m s
  | ⟨.hbm, n⟩, 0x704 => retrainWrite n m v s
  | ⟨.dev, _⟩, 0x708 => bootDoorbell m v.toNat (freeVal 2 s) (Config.freeFind s.free) (tick s)
  | ⟨.rst, _⟩, 0x708 => if rstWriter s m v then rstCmdWrite m v (Config.freeFind s.free) (tick s) else rejectWrite page off m s
  | ⟨.bellows, _⟩, 0x704 => if pairService s m then plain else rejectWrite page off m s
  | ⟨.bellows, _⟩, 0x708 => jdoneWrite m v s
  | ⟨.irqs, _⟩, 0x724 | ⟨.irqs, _⟩, 0x728 => rejectWrite page off m s
  | ⟨.mc, p⟩, 0x704 => mcCmdWrite p m v (freeVal 1 s == 1) (tick s)
  | ⟨.mx, _⟩, 0x700 => mxCtlWrite m v s
  | ⟨.mem, _⟩, 0x720 => if pairService s m then plain else rejectWrite page off m s
  | ⟨.mem, _⟩, _ => pwrWrite off m v s
  | ⟨.tongs, _⟩, _ =>
    let c := (off - 0x700) / 0x20
    if off % 0x20 = 0x1C then tgCtlWrite c m v s else tgRegWrite c off m fs v s
  | ⟨.hang, _⟩, 0x70C => hangCmdWrite m v (if fld v 2 0 = 1 then hangYields (fld v 15 8) s else s)
  | ⟨.snap, _⟩, 0x710 => snapCtlWrite m v s
  | ⟨.quench, _⟩, 0x700 => clearLatches v s
  | ⟨.quench, _⟩, 0x704 => if bit v 0 then setLatch 2 0 0 s else s
  | ⟨.anvil, _⟩, 0x71C => ackWrite m v s
  | ⟨.anvil, _⟩, 0x720 => closeWrite m v s
  | ⟨.patina, _⟩, 0x704 => patCmdWrite (fld v 3 0) m (pairService s m) s
  | ⟨.patina, _⟩, 0x734 => if isPair m then plain else rejectWrite page off m s
  | ⟨.patina, _⟩, 0x738 =>
    if !isPair m then rejectWrite page off m s
    else if fld v 7 0 = 0 then capture page fINVALID off (masterCode m) (rlcfgWrite (fld v 31 16) (bucket s (fld (rdReg s patPage 0x734) 15 0)).burst s)
    else rlcfgWrite (fld v 31 16) (fld v 7 0) s
  | ⟨.patina, _⟩, 0x740 => submitWrite (isPair m) (fld v 7 0) m s
  | ⟨.primer, _⟩, 0x700 => prCmdWrite m v s
  | ⟨.smb, _⟩, 0x700 => if pairService s m then plain else rejectWrite page off m s
  | ⟨.fb, _⟩, _ => fabricWrite off m fs v s
  | ⟨.fbrt, _⟩, 0x704 => rtWrite v s
  | ⟨.fbp, p⟩, 0x700 => portCtlWrite p v s
  | ⟨.pcie, _⟩, 0x704 => doorWrite page off (m == .pcie) m v s
  | _, _ => plain

/-- Whether a write comes before READY (14 R373). -/
def notReady (s : State) (x : Page) (off : Nat) : Bool := !domReady s (pageDomain x) && decide (0x100 ≤ off ∧ off < 0xF00)

/-- A write that a page of a domain that is up receives. -/
def pageReceives (page off : Nat) (m : Master) (v : Word) (s : State) : State :=
  match pageAt page with
  | none => s
  | some x =>
    if x.kind == .test || 0xF00 ≤ off then (if debugOpen s then send (.debugWrite page off v) s else s)
    else if pageRejects s x m || notReady s x off then rejectWrite page off m s
    else if off < 0x100 then headerWrite x page off m v s
    else if off < 0x700 then canvasWrite x page off m v (copyBefore page s)
    else if off < 0x800 then (match findReg (regsOf x.kind) off with | some r => blockWrite x page off m r.fields v s | none => s)
    else if off < 0x900 then s
    else easelWrite x page (off - 0x800) m v (copyBefore page s)

/-- A write that reaches a page of a domain that is up; a block in use is restored first (18 R461). -/
def pageWrite (page off : Nat) (m : Master) (v : Word) (s : State) : State := pageReceives page off m v (pageYields page m s)

/-- A read that reaches a page of a domain that is up, and the value it returns. -/
def pageReads (page off : Nat) (m : Master) (s : State) : Word × State :=
  let s := pageYields page m s
  (pageRead s page off, pageReadEffect page off s)

/-! ## Accesses with their errors (11 R299, R309) -/

/-- The address of a register. -/
def regAddr (page off : Nat) : Nat := 0x4000000 + 0x1000 * page + off

/-- The error with which a register access by a master ends before it reaches the page: a missing path (R291), the page's own, or its
alignment (R295). -/
def accessError (s : State) (page off : Nat) (m : Master) : Option BusKind :=
  if !pathOk m .regs then some .decode else (pageError s page).or (if off % 4 = 0 then none else some .target)

/-- A register write by a master: an error, or the page takes it. -/
def accessWrite (page off : Nat) (m : Master) (v : Word) (s : State) : State :=
  match accessError s page off m with
  | some k => mxError m (regAddr page off) (busCode k) s
  | none => pageWrite page off m v s

/-- The effect of a register read by a master. -/
def accessRead (page off : Nat) (m : Master) (s : State) : State :=
  match accessError s page off m with
  | some k => mxError m (regAddr page off) (busCode k) s
  | none => (pageReads page off m s).2

end Sys2Proof.Machine
end

