-- ==== Sys2Proof/Machine/Matrix.lean ====
section
/-! DEFINITION. The bus matrix: transactions, their responses and their timeouts (spec 11 R291-R305), the arrival of PCIe requests
(19 R474), and the stores of the engines (05 R142, R146). -/

namespace Sys2Proof.Machine

/-! ## PCIe requests (19 R474) -/

/-- A request arrives (R474). BAR4 and the configuration space belong to the endpoint itself (R473). A write of more than the payload of
512 bytes is malformed: nothing of it takes effect (R472, log 192). -/
def pciRequest (bar : Bar) (o n : Nat) (write relaxed : Bool) (tag : Nat) (data : List Byte) (s : State) : State :=
  if domLost s 9 || !bit (rdReg s pciePage 0x700) 31 then s
  else if write ∧ 512 < n then aerReport 18 s
  else match bar with
    | .bar4 =>
      if write then bar4Write (o % 0x2000) data s
      else send (.completion tag 0 ((List.range n).map (fun i => bar4Byte s (o % 0x2000 + i)))) s
    | .config =>
      if write then configWrite o (w32 (leNat (data.take 4))) s
      else send (.completion tag 0 (leBytes 4 (configRead s o).toNat)) s
    | _ =>
      issueRequests (completeRequests { s with pcie := { s.pcie with reqs := s.pcie.reqs ++ [⟨write, tag, relaxed, none, pciPieces bar o n data⟩] } })

/-! ## Transactions (11 R291-R300) -/

/-- The ID that a master's transaction carries (R296): that of the engine of a lane (cores 0 to 7, threads 8 to 15), of a pair, or of a
Tongs channel; the other masters choose it. -/
def portId (m : Master) (id : Nat) : Nat :=
  match m with
  | .mcA => engTransId 1024
  | .mcB => engTransId 1025
  | .lane l => engTransId (if id < 8 then 8 * l.val + id else 504 + 8 * l.val + id)
  | .tongs => id % 8
  | _ => id

/-- MATRIX_TRANSACTION: a transaction enters a master port. -/
def enterMatrix (m : Master) (id : Nat) (write : Bool) (a : Nat) (data : List Byte) (s : State) : State :=
  enterPort m (portId m id) write a (if write then data else []) data.length .plain s

/-- The bytes that a write brings: those of a store are in the head entry of the store buffer. -/
def transData (s : State) (t : Trans) : List Byte :=
  match t.use with
  | .store k => (eng s k).stores.head?.elim t.data (·.data)
  | _ => t.data

/-- The line that a reservation of a transaction's engine covers (04 R129). -/
def transLine (t : Trans) : Nat := targetKey t.target t.addr / 64

/-- Whether a transaction reads: an atomic operation of tas reads its word and writes it (04 R128). -/
def transReads (t : Trans) : Bool := !t.write || (match t.use with | .tas _ _ | .tasLate _ _ => true | _ => false)

/-- What a transaction does to a memory, and the data it returns: lr places its reservation, sc writes where the reservation still covers
its line and returns 0, tas returns the old word (04 R128, R129; 11 R288). -/
def memEffect (t : Trans) (s : State) : List Byte × State :=
  let old := targetRead s t.target t.addr t.len
  let put := portWrite t.target t.addr (transData s t)
  match t.use with
  | .lr k => (old, modEng k (fun e => { e with resv := some (transLine t) }) s)
  | .sc k => if (eng s k).resv == some (transLine t) then ([0, 0, 0, 0], put s) else ([1, 0, 0, 0], s)
  | .tas _ _ | .tasLate _ _ => (old, put s)
  | _ => if t.write then ([], put s) else (old, s)

/-- What a transaction does at a target that takes it, and the data it returns. A PG_WR of the Amibin agent sets the bits of FB_SVCDB
(19 R478). -/
def transEffect (t : Trans) (s : State) : List Byte × State :=
  let p := pageOfAddr t.addr
  match t.target with
  | .regs =>
    if t.write then ([], pageWrite p.1 p.2 t.master (w32 (leNat (transData s t))) s)
    else let r := pageReads p.1 p.2 t.master s; (leBytes 4 r.1.toNat, r.2)
  | .mram b =>
    if t.write then ([], portWrite (.mram b) t.addr (transData s t) s)
    else (targetRead s t.target t.addr t.len, { s with mramGap := smPut false s.mramGap b false })
  | x => memEffect t (memYields x t.master s)

/-- The error that the path, the shape and the state of the target give a transaction. -/
def transError (s : State) (t : Trans) : Option BusKind := portError s t.master t.target t.addr t.len t.write

/-- Whether an error response waits: that of a store, while its engine holds 8 reports (08 R222). -/
def replyWaits (s : State) (t : Trans) : Bool :=
  match t.use with
  | .store k => !takesLate (eng s k)
  | _ => false

/-- Transaction n ends with an error as soon as its master takes it. -/
def failTrans (n : Nat) (t : Trans) (k : BusKind) (s : State) : State := if replyWaits s t then s else endWith n t k s

/-- Transaction n succeeds. -/
def doneTrans (n : Nat) (t : Trans) (s : State) : State :=
  endTrans n t (fun s => let r := transEffect t s; ((r.1, none), r.2)) s

/-- Transaction n has had no response within its limit, 2 µs, or 12 µs for MRAM (R294), and is the next of its target and ID (R296). Whether a
write, or a read that clears, has taken effect is free. -/
def matrixTimesOut (n : Nat) (s : State) : State :=
  match s.trans[n]? with
  | none => s
  | some t =>
    if ((t.granted || t.target == .none) && (transError s t).isSome) || replyWaits s t || !placed s n t true then s
    else
      let s := reach (t.since + timeLimit t.target) s
      let took := freeVal 1 s == 1 && t.granted && (transError s t).isNone
      endTrans n t (fun s => ((errorData t, some .timeout), if took then (transEffect t s).2 else s)) (tick s)

/-- MATRIX_RESPONSE: the target answers transaction n, or the path or the state of the target does. A response that comes after the limit is
discarded: the transaction has ended with TIMEOUT (R294). A read answered BUSY is issued
again; the sixteenth BUSY ends it. -/
def matrixAnswer (n : Nat) (a : TargetAnswer) (s : State) : State :=
  let s := grantAll s
  match s.trans[n]? with
  | none => s
  | some t =>
    if t.since + timeLimit t.target < s.now then matrixTimesOut n s
    else if (if t.target = .none then !placed s n t true else !t.granted) then s
    else match transError s t with
      | some k => failTrans n t k s
      | none =>
        if mramWaits s t.target t.addr t.len t.write then s
        else match a with
          | .ok => doneTrans n t s
          | .busy =>
            if t.write || !mayCollide t.target then s
            else if 15 ≤ t.busy then failTrans n t .target s
            else grantAll (countReg mxPage 0x710 1 { s with trans := s.trans.set n { t with busy := t.busy + 1, granted := false } })
          | .corrected => if !transReads t || !mayFailEcc t.target then s else eccMeets t.target .corrected (doneTrans n t s)
          | .ecc => if !transReads t || !mayFailEcc t.target then s else failTrans n t .ecc (eccMeets t.target .uncorrectable s)

/-! ## Stores and queue requests of the engines (05 R142, R146; 11 R297; 09 R235) -/

/-- The place of the first transaction with a use. -/
def transFor (s : State) (p : TransUse → Bool) : Option Nat := s.trans.findIdx? (fun t => p t.use)

/-- STORE_ACKNOWLEDGE: the head entry of the store buffer reaches its target, or meets the error that its target gives. -/
def storeAck (k : Nat) (s : State) : State :=
  match (eng s k).stores with
  | [] => s
  | x :: _ =>
    if engPath k (targetOf s x.addr) = 0 then
      (if targetOn s (targetOf s x.addr) then storeLeaves k (memWrite x.addr x.data s)
       else if takesLate (eng s k) then storeBusError k 3 s else s)
    else match transFor s (· == .store k) with
      | some n => matrixAnswer n .ok s
      | none => s

/-- STORE_BUS_ERROR: the head entry meets the error that its path and the state of its target give, or no response in time. -/
def storeErrorArrives (k : Nat) (kind : BusKind) (s : State) : State :=
  match (eng s k).stores with
  | [] => s
  | x :: _ =>
    if engPath k (targetOf s x.addr) = 0 then
      (if !targetOn s (targetOf s x.addr) ∧ takesLate (eng s k) then storeBusError k 3 s else s)
    else match transFor s (· == .store k) with
      | some n => match s.trans[n]? with
        | some t =>
          if (transError s t).isSome then matrixAnswer n .ok s
          else if kind = .timeout then matrixTimesOut n s else s
        | none => s
      | none => s

/-- QUEUE_DATA_ARRIVAL: the oldest request outstanding is answered; that of a management pair is a matrix transaction (09 R235). -/
def queueAnswer (k : Nat) (ecc : EccOutcome) (s : State) : State :=
  if k < 1024 then queueArrives k ecc s
  else match transFor s (fun u => match u with | .queue j _ => j == k | _ => false) with
    | some n => matrixAnswer n (match ecc with | .clean => .ok | .corrected => .corrected | .uncorrectable => .ecc) s
    | none => s

end Sys2Proof.Machine
end

