-- ==== Sys2Proof/Machine/Transfers.lean ====
section
/-! DEFINITION. Snapshots (spec 12 R332, R333), and the requests of other nodes (13 R350). -/

namespace Sys2Proof.Machine

/-! ## Snapshot (12 R332) -/

/-- The list of page indices. -/
def snapList (s : State) : List Nat :=
  (List.range (fld (rdReg s snapPage 0x710) 8 0)).map (fun i => leNat (memRead s (snapAddr s 0x700 + 4 * i) 4))

/-- Offsets 0x000 to 0x7FF of a page; those of a page whose domain is lost are free (log 8). -/
def snapWords (s : State) (page : Nat) : List Word :=
  (List.range 512).map (fun i => if (pageError s page).isSome then w32 (Config.freeBits (s.free + i)).toNat else pageRead s page (4 * i))

/-- Whether a Hang that touches a listed page is between H and its last switch at an instant. -/
def hangSplits (s : State) (pages : List Nat) (t : Nat) : Bool :=
  s.hang.any (fun x => x.2.st == 1 && decide (x.2.h ≤ t) && !x.2.left.isEmpty && x.2.pages.any (fun p => pages.contains p))

/-- How an access of the snapshot through Tongs channel 7 ends: none where it succeeds, some none where there is no path (11 R306); err
is what it meets where the path and the target allow it. -/
def snapError (s : State) (a n : Nat) (write : Bool) (err : Option BusKind) : Option (Option BusKind) :=
  if !pathOk .tongs (targetOf s a) then some none
  else if bellowsHolds s .tongs (targetOf s a) then some (some .timeout)
  else (portOutcome s .tongs a n write err).map some

/-- An error of Tongs ends the snapshot, with the ERR of channel 7. -/
def snapStops (a n : Nat) (write : Bool) (k : Option BusKind) (s : State) : State :=
  snapFails 3 (modReg tongsPage 0x7FC (fun w => setFld w 23 20 (k.elim 9 busCode)) (k.elim s (fun k => portFails .tongs a n write k s)))

/-- The error that the read of the list meets: at its first word where the link tells one. -/
def listError (s : State) (err : Option BusKind) : Option (Nat × Option BusKind) :=
  (List.range (fld (rdReg s snapPage 0x710) 8 0)).findSome? (fun i =>
    let a := snapAddr s 0x700 + 4 * i
    (snapError s a 4 false (if i = 0 then err else none)).map (fun k => (a, k)))

/-- Whether the read of the list waits for the MRAM line being programmed (11 R304). -/
def listWaits (s : State) : Bool :=
  let a := snapAddr s 0x700
  mramWaits s (targetOf s a) a (4 * fld (rdReg s snapPage 0x710) 8 0) false

/-- SNAPSHOT_CAPTURE: every island latches its listed pages at C. While a Hang is between H and its last switch, C is still to come. -/
def snapCapture (err : Option BusKind) (s : State) : State :=
  if !s.snap.running ∨ s.snap.captured ∨ listWaits s then s
  else
    let s := reach s.snap.atT s
    match listError s err with
    | some x => snapStops x.1 4 false x.2 s
    | none =>
      let pages := snapList s
      if pages.any (fun p => pageError s p == some .decode) then snapFails 1 s
      else if hangSplits s pages s.now then s
      else
        let s := publishFabric (forUpTo 8 (yields (fun p => pages.contains p) s) publish)
        { s with free := s.free + 512, snap := { s.snap with atT := s.now, list := pages, captured := true, words := pages.map (snapWords s) } }

/-- The bytes of some words. -/
def wordBytes (ws : List Word) : List Byte := ws.flatMap (fun w => leBytes 4 w.toNat)

/-- Write the pages of a snapshot, in bursts of 256 bytes; the answer is the address and the error that Tongs meets. -/
def snapStore : List (List Word) → Nat → State → Option (Nat × Option BusKind) × State
  | [], _, s => (none, s)
  | ws :: l, d, s =>
    match snapError s d 256 true none with
    | some k => (some (d, k), s)
    | none => snapStore l (d + 0x800) (portWrite (targetOf s d) d (wordBytes ws) s)

/-- SNAPSHOT_COMPLETE: the pages are written through Tongs channel 7, or an error ends the writing after a free number of pages. -/
def snapComplete (err : Option BusKind) (s : State) : State :=
  if !s.snap.running ∨ !s.snap.captured then s
  else
    let d := snapAddr s 0x708
    let ws := s.snap.words
    let selfBank := (List.range 2).any (fun b => executing s b && overlap d (0x800 * ws.length) (0x2000000 + 0x400000 * b) 0x400000)
    if selfBank then snapFails 3 (modReg tongsPage 0x7FC (fun w => setFld w 23 20 7) s)
    else
      let n := if err.isSome then freeVal 8 s % ws.length else ws.length
      let r := snapStore (ws.take n) d (if err.isSome then tick s else s)
      match r.1, err with
        | some x, _ => snapStops x.1 256 true x.2 r.2
        | none, some k => snapStops (d + 0x800 * n) 256 true (some k) r.2
        | none, none =>
          let c := s.snap.atT / ns
          let s := wrReg snapPage 0x724 (w32 (c / 2 ^ 32)) (wrReg snapPage 0x720 (w32 c) { r.2 with snap := {} })
          raiseBit snapPage 0 (modReg snapPage 0x71C (fun w => setBit w 31 true) s)

/-! ## Requests of other nodes (13 R350, R352) -/

/-- FB_MGR.MGR2. -/
def fabManager2 (s : State) : Nat := fld (rdReg s fbPage 0x710) 31 16

/-- Whether a node may write pages. -/
def mayWritePages (s : State) (src : Nat) : Bool := src != 0 && (src == fabManager s || src == fabManager2 s)

/-- Whether a target is one that memory requests reach. -/
def memoryReach : Target → Bool
  | .fabricBank | .hbm _ => true
  | _ => false

/-- Whether a request breaks no restriction of R350. A page request names register space, a memory request the fabric bank or the
HBM window. -/
def requestAllowed (s : State) (type src : Nat) (x : Target) : Bool :=
  match type with
  | 3 => src != 0 && (x == .regs || x == .none)
  | 4 => mayWritePages s src && (x == .regs || x == .none)
  | _ => bit (rdReg s fbPage 0x70C) 0 && memoryReach x

/-- Whether responses already wait for credit on the port by which one to a node leaves. -/
def responsesWait (s : State) (dst : Nat) : Bool :=
  match entryPort s (routeEntry s dst) with
  | some p => (port s p).txq.any (fun f => f.vc == 4)
  | none => false

/-- A delivered request of a type is executed through the Amibin agent, whose transaction carries the ID of the requesting node (11 R296);
one that breaks a restriction of R350 is answered at once. A request stays in its buffer while there is no VC4 transmit space for the
response (R348): where responses already wait, whether there is space is free (log 8). -/
def handleRequest (type : Nat) (s : State) : State :=
  match takeDelivered type s with
  | none => s
  | some (d, s') =>
    let f := d.frame
    let waits := responsesWait s f.src.toNat
    if waits && freeVal 1 s == 1 then tick s
    else
    let s := if waits then tick s' else s'
    let write := decide (type = 2 ∨ type = 4 ∨ type = 6)
    let len := if write then f.payload.length else if type = 3 then 4 else leNat (f.payload.take 4) % 512
    if requestAllowed s type f.src.toNat (targetOf s f.addr.toNat) then
      enterPort .agent f.src.toNat write f.addr.toNat (if write then f.payload else []) len (.agent f) s
    else sendTo (response s f 7 []) s

/-- A write of FB_SVCDB: bits are set by a PG_WR of a manager and cleared by a management pair. -/
def svcdbWrite (m : Master) (src : Nat) (v : Word) (s : State) : State :=
  match pageError s fbPage with
  | some k => mxError m (regAddr fbPage 0x77C) (busCode k) s
  | none => if m = .agent ∧ !mayWritePages s src then s else pageWrite fbPage 0x77C m v s

end Sys2Proof.Machine
end

