-- ==== Sys2Proof/Machine/Services.lean ====
section
/-! DEFINITION. The services of the management firmware (spec 19 R476-R478): what each does with a slot that has been rung. -/

namespace Sys2Proof.Machine

/-! ## PROGRAM_LOAD (09 R241, R248-R250) -/

/-- Whether a byte of an image can be placed: a memory to which the active pair has a path, which accepts its write (11 R291, R301, R303). -/
def placeable (s : State) (a : Nat) : Bool :=
  match portTarget s (firmwareMaster s) a with
  | .none | .regs | .bootRom => false
  | t => (portError s (firmwareMaster s) t a 1 true).isNone

/-- The images that stay loaded beside one with the engines given: an image stays while an engine of its own is left. -/
def otherImages (s : State) (es : List Nat) : List Loaded :=
  (s.loaded.map (fun l => { l with engines := l.engines.filter (fun k => !es.contains k) })).filter (fun l => !l.engines.isEmpty)

/-- Whether R241 would be exceeded: 1.225 TB/s of a stack. -/
def overBudget (s : State) (img : Image) (es : List Nat) : Bool :=
  (List.range 4).any (fun h => decide (1225000000000 < img.budget.getD h 0 + ((otherImages s es).map (fun l => l.budget.getD h 0)).sum))

/-- Whether a target engine is neither OFF nor STUCK, or a target channel's stream is set up: the image's channels, and those of its
channel cores. -/
def targetsBusy (s : State) (img : Image) (es : List Nat) : Bool :=
  img.channels.any (streamUp s) || es.any (fun k => decide (k < 512) && streamUp s k) || es.any (fun k => decide (1024 ≤ k) || engineRuns s k)

/-- The version of the customer image that runs in a lane's store, as sk.ver shows it (07 R201). -/
def skVersion (s : State) (l : Nat) : Word := if skOpen s l then (store s l).version else 0

/-- Whether the stepping and the versions that an image assumes are those that run (R249), sk.ver in the lanes of its engines. -/
def versionsRun (s : State) (v : Assumed) (es : List Nat) : Bool :=
  v.stepping == 0xC2 && v.firmware.contains (upVer s 0) && v.laneCode == upVer s 2 && v.clusterCode == upVer s 3
    && es.all (fun k => v.skVer == skVersion s (engLane k))

/-- The result of the refusals of R249, R456 and R467, none where the image is accepted: in RETURNED no image but those of Borindam's
components is. -/
def loadRefused (s : State) (img : Image) (es : List Nat) : Option Nat :=
  if bit (rdReg s devPage 0x700) 29 ∨ s.lifecycle = 3 then some 7
  else if !(if img.signed then img.sigOk && s.keyFused else decide (s.lifecycle < 2)) then some 3
  else if !versionsRun s img.assumed es then some 4
  else if overBudget s img es then some 5
  else if targetsBusy s img es then some 6
  else none

/-- A descriptor of an image. -/
def imageDesc (d : Nat × BitVec 48 × BitVec 32 × BitVec 5) : SegDesc :=
  ⟨setFld (w32 d.2.1.toNat) 3 0 0, w32 (d.2.1.toNat / 2 ^ 32), d.2.2.1, w32 d.2.2.2.toNat⟩

/-- An engine of an image is set up and released at its reset entry (08 R215); a thread by its EN (06 R165). A core fetches what was loaded:
nothing that it had fetched or kept of its SRAM before its release is left. -/
def releaseEngine (x : EngineImage) (s : State) : State :=
  let k := engKey x.eng
  let s := if (eng s k).run = .stuck then freePorts k s else s
  let s := if k < 512 then flushFetch k s else s
  let s := modEng k (fun e =>
    let e := restarted x.fsp 0 { e with ls := 0, le := 0, segsel := 0 }
    { e with segs := forEach x.descs e.segs (fun d m => smPut {} m (d.1 % 8) (imageDesc d)) }) s
  match x.eng with
  | .thread l t => markStarted k (modReg (lnPage l.val) 0x700 (fun w => setBit w t.val true) s)
  | _ => s

/-- A program load that names a block in use ends its use (18 R461): the lanes of its engines, its channels. -/
def loadYields (img : Image) (es : List Nat) (s : State) : State :=
  yields (fun p => img.channels.any (fun c => p == chPage c) || es.any (fun k => p == lnPage (engLane k))) s

/-- PROGRAM_LOAD, for a slot that has been taken up. -/
def programLoadService (fab : Bool) (slot : Nat) (img : Image) (s : State) : State :=
  let es := img.engines.map (fun x => engKey x.eng)
  if !inBank (slotArg s fab slot 0) (slotArg s fab slot 1) then slotDone fab slot 2 0 s
  else match loadRefused s img es with
    | some r => slotDone fab slot r 0 s
    | none =>
      if !(img.engines.all (fun x => x.bytes.all (fun b => placeable s b.1))) then slotDone fab slot 8 0 s
      else
        let s := forEach img.engines (loadYields img es s) (fun x s => forEach x.bytes s (fun b s => memWrite b.1 [b.2] s))
        let s := forEach img.engines s releaseEngine
        slotDone fab slot 0 (ftNs s) { s with loaded := otherImages s es ++ [⟨es, img.budget⟩] }

/-! ## PRIMER (18 R464) -/

/-- PR_STAT. -/
def primerOut (s : State) : Nat := (rdReg s primerPage 0x704).toNat

/-- PRIMER, for a slot that has been taken up: a run completes the slot when it ends. -/
def primerService (fab : Bool) (slot : Nat) (s : State) : State :=
  let v := w32 (slotArg s fab slot 0)
  let m := firmwareMaster s
  match prRefused s v with
  | some r => let s := prCmd m v s; slotDone fab slot r (primerOut s) s
  | none =>
    if fld v 31 29 = 3 then (let s := prCmd m v s; slotDone fab slot 0 (primerOut s) s)
    else prCmd m v (slotWaits fab slot .primer s)

/-! ## PATINA_CLEAR and PATINA_CMD (16 R421, R422) -/

/-- PT_STAT. -/
def patOut (s : State) : Nat := (pageRead s patPage 0x700).toNat

/-- The digest of the clearing token, at the start of the secure bank (log 23). -/
def tokenDigest (s : State) : Nat := leNat (memBytes s 0x1000000 48)

/-- Whether a token matches. -/
def tokenMatches (s : State) (token : List Byte) : Bool :=
  (portError s (firmwareMaster s) .secureBank 0x1000000 16 false).isNone && (Config.sha384 token).toNat == tokenDigest s

/-- PATINA_CLEAR, for a slot that has been taken up. -/
def tokenService (fab : Bool) (slot : Nat) (s : State) : State :=
  let n := slotArg s fab slot 0
  if n = 0 ∨ 224 < n then slotDone fab slot 2 0 s
  else if !tokenMatches s (memBytes s (slotBase fab slot + 0x20) n) then slotDone fab slot 7 0 s
  else
    let s := modPat (fun p => { p with auth := true }) s
    let ok := !(s.patina.frozen || s.patina.freezing || s.patina.bellows)
    slotDone fab slot (if ok then 0 else 8) 0 (clearCmd (firmwareMaster s) true s)

/-- PATINA_CMD, for a slot that has been taken up: a flush, and the flush of a freeze, complete it when they end. -/
def patCmdService (fab : Bool) (slot : Nat) (s : State) : State :=
  let m := firmwareMaster s
  match slotArg s fab slot 0 with
  | 1 => flushTrigger (slotWaits fab slot .flush s)
  | 2 =>
    if s.patina.frozen || s.patina.freezing then (let s := freezeCmd m s; slotDone fab slot 8 (patOut s) s)
    else freezeCmd m (slotWaits fab slot .flush s)
  | 3 => let ok := s.patina.frozen; let s := thawCmd m s; slotDone fab slot (if ok then 0 else 8) (patOut s) s
  | _ => slotDone fab slot 2 (patOut s) s

/-- PATINA_FLUSH_COMPLETE: the flush ends, and with it the slots that waited, unless another flush is due. -/
def flushEnds (s : State) : State :=
  let was := s.patina.flushing
  let s := flushDone s
  if was && !s.patina.want then finishWaits .flush 0 (patOut s) s else s

/-! ## MC (18 R451) -/

/-- MC, for a slot that has been taken up. -/
def mcService (fab : Bool) (slot : Nat) (pass : Bool) (s : State) : State :=
  let v := slotArg s fab slot 0
  let p := v % 2
  let op := v / 2 % 8
  let fits := (op == 1 && role s p == 2 && role s (1 - p) == 1) || (op == 2 && role s p == 3 && pass) || (op == 3 && role s p == 2)
  let s := mcCmd p op (firmwareMaster s) pass s
  slotDone fab slot (if op = 0 ∨ 3 < op then 2 else if fits then 0 else 8) (rdReg s (mcPage p) 0x700).toNat s

/-! ## MEM_POWER (11 R301, R302) -/

/-- Whether a region of a MEM_PWR register is in transition. -/
def pwrMoving (s : State) (off : Nat) : Bool :=
  (List.range (pwrFields off).1).any (fun i => (powerOf s ((pwrFields off).2 + i)).goal.isSome)

/-- Whether a value asks a region of a MEM_PWR register for what is refused. -/
def pwrAnyRefused (s : State) (off : Nat) (v : Word) : Bool :=
  (List.range (pwrFields off).1).any (fun i =>
    let r := (pwrFields off).2 + i
    fld v (2 * i + 1) (2 * i) != (powerOf s r).st && ((powerOf s r).goal.isSome || ((powerOf s r).st == 0 && leaveRefused s r)))

/-- MEM_POWER, for a slot that has been taken up. -/
def memPowerService (fab : Bool) (slot : Nat) (s : State) : State :=
  let off := slotArg s fab slot 0
  let v := w32 (slotArg s fab slot 1)
  if off < 0x700 ∨ 0x714 < off ∨ off % 4 ≠ 0 ∨ (List.range (pwrFields off).1).any (fun i => fld v (2 * i + 1) (2 * i) == 3) then slotDone fab slot 2 0 s
  else
    let bad := pwrAnyRefused s off v
    let s := pwrApply off (firmwareMaster s) v s
    if bad then slotDone fab slot 6 (pwrRead s off).toNat s
    else if pwrMoving s off then slotWaits fab slot (.power off) s
    else slotDone fab slot 0 (pwrRead s off).toNat s

/-- MEMORY_POWER_TRANSITION_DONE: the transition of a region ends, and with the last of its register the slots that waited. -/
def powerEnds (r : Nat) (s : State) : State :=
  let s := powerDone r s
  forEach [0x700, 0x704, 0x708, 0x70C, 0x710, 0x714] s (fun off s =>
    if pwrMoving s off then s else finishWaits (.power off) 0 (pwrRead s off).toNat s)

/-! ## DOMAIN_RESET and TEMPER (17 R445; 18 R460) -/

/-- RST_INRST. -/
def inrst (s : State) : Nat := (pageRead s rstPage 0x704).toNat

/-- DOMAIN_RESET, for a slot that has been taken up: a reset of D8 or of the device comes after the completion. -/
def domainService (fab : Bool) (slot : Nat) (s : State) : State :=
  let v := w32 (slotArg s fab slot 0)
  let b := Config.freeFind s.free
  let m := firmwareMaster s
  if (bit v 15 ∧ fld v 31 16 ≠ 0x5A17) ∨ 14 ≤ fld v 3 0 then slotDone fab slot 2 (inrst s) s
  else if bit v 15 ∨ fld v 3 0 = 8 then rstCmdWrite m v b (tick (slotDone fab slot 0 (inrst s) s))
  else
    let s := rstCmdWrite m v b s
    slotDone fab slot 0 (inrst s) s

/-- TEMPER, for a slot that has been taken up. -/
def temperService (fab : Bool) (slot : Nat) (s : State) : State :=
  let fs := (findReg (regsOf .temper) 0x700).elim [] (·.fields)
  let s := plainWrite temperPage 0x700 (firmwareMaster s) fs (w32 (slotArg s fab slot 0)) s
  slotDone fab slot 0 (rdReg s temperPage 0x700).toNat s

/-! ## A code that is not listed -/

/-- The service codes of R477. -/
def listedService (n : Nat) : Bool := 1 ≤ n && n ≤ 10

end Sys2Proof.Machine
end

