-- ==== Sys2Proof/Machine/Guards.lean ====
section
/-! DEFINITION. What stands between a command and its effect: the domain that must be up, the page that must answer; and the few
effects that join operations of several files. -/

namespace Sys2Proof.Machine

/-- A unit of a domain that is lost does nothing (01 R21). -/
def whileUp (d : Nat) (f : State → State) (s : State) : State := if domLost s d then s else f s

/-- A unit of the lanes and clusters does nothing while D8 is lost or their islands are isolated (17 R441). -/
def whileLanes (f : State → State) (s : State) : State := if lanesUp s then f s else s

/-- A unit of an engine: of a management pair, or of the lanes. -/
def whileEngine (k : Nat) (f : State → State) (s : State) : State := if 1024 ≤ k then whileUp 8 f s else whileLanes f s

/-- A register write whose effect the command brings: the page's errors and rules of access come first. -/
def onPage (page off : Nat) (m : Master) (f : State → State) (s : State) : State :=
  match pageError s page with
  | some k => mxError m (regAddr page off) (busCode k) s
  | none => match pageAt page with
    | some x => if pageRejects s x m || notReady s x off then rejectWrite page off m s else f s
    | none => s

/-- The channels that the emits of the bundle at an engine's pc name (05 R157; 06 R174). -/
def emitsTo (s : State) (k : Nat) : List Nat :=
  (activeMoves (eng s k) (bundleAt s k)).flatMap (fun m =>
    if k < 512 ∧ 0x310 ≤ m.dst ∧ m.dst < 0x313 then [k]
    else if 512 ≤ k ∧ k < 1024 ∧ 0x710 ≤ m.dst ∧ m.dst < 0x714 then
      ((List.range 8).filter (fun p => bit (seMap s (engLane k) (m.dst - 0x710) p) 31)).map (fun p => 8 * engLane k + p)
    else [])

/-- The addresses that the load, store and tas operations of the bundle at an engine's pc name (05 R142; 04 R128, R129). -/
def bundleAddrs (s : State) (k : Nat) : List Nat :=
  let vs := (activeMoves (eng s k) (bundleAt s k)).map (fun m => (m, sourceVal s k (eng s k).pc.toNat (bundleAt s k) m))
  let e := writePhase s k vs (eng s k)
  vs.filterMap (fun x => match trigUnit s k x.1.dst with
    | some 0x1A0 => some (segBase (seg e ((opd e 0x1A0).toNat % 8)) + x.2.toNat % 2 ^ 32)
    | some 0x1C0 => some (segBase (seg e ((opd e 0x1C0).toNat % 8)) + x.2.toNat % 2 ^ 32)
    | _ => none)

/-- A bundle that passes TR is a service request to the blocks that its emits and its accesses name (18 R461). -/
def bundleYields (k : Nat) (s : State) : State :=
  let pc := (eng s k).pc.toNat
  if !mayRun s k || !atBoundary (eng s k) || (fetchFault s k pc none).isSome || (evalBundle s k pc (bundleAt s k) none).stall then s
  else
    let s1 := forEach (emitsTo s k) s (fun c s => yields (fun p => p == chPage c) s)
    forEach ((bundleAddrs s k).filterMap (fun a => blockPage (targetOf s a))) s1 (fun b s => yields (fun p => p == b) s)

/-- The next boundary of a cluster: the switches of Hangs and the calibration exchanges due at it come first (12 R322; 18 R465). -/
def boundaryOf (k : Nat) (s : State) : State :=
  if !(base s k).en then s
  else
    let s := boundarySwitches k (mayCopyTied k s)
    strokeBoundary k (calBoundary k (reach (base s k).next s))

/-- A Palette command completes; a COPY may have copied the channel page with its Palette sets before (12 R327). -/
def palCommandEnds (l : Nat) (s : State) : State :=
  palDone l (match palCmd s l with | some cmd => mayCopy (chPage cmd.ch) s | none => s)

/-- The 2 µs of a mode change have passed (02 R46). -/
def modeIntervalEnd (c : Nat) (s : State) : State :=
  match (chan s c).phase with
  | .modeChange t => enterFunction c (reach t s)
  | _ => s

/-- The force ramp of a function switch has reached DL4, at 1 V/us (02 R49, R59). -/
def rampEnd (c : Nat) (s : State) : State :=
  match (chan s c).phase with
  | .ramp => rampOver c false (reach (forceRampEnd s c) s)
  | _ => s

/-- B1 where the timebase does not run (02 R59). -/
def switchTimerEnd (c : Nat) (s : State) : State :=
  match (chan s c).phase with
  | .holdTimer t => enterFunction c (reach t s)
  | _ => s

/-- A store in the tables of State. -/
def storeNo : StoreId → Nat
  | .lane l => l.val
  | .cluster k => 64 + k.val

/-- A watermark with a sampling period takes a sample (10 R283; 13 R365; 15 R408): records closed in the last microsecond, the fullest
lane event FIFO, the greatest accounted energy in 0.1 nJ, and codewords corrected in the last millisecond. The other watermarks have no period. -/
def periodicSample (page n : Nat) (s : State) : State :=
  match pageAt page, n with
  | some ⟨.cl, k⟩, 1 => wmSample page 1 (failPipe s k).closedRecs (modFail k (fun f => { f with closedRecs := 0 }) s)
  | some ⟨.cl, k⟩, 2 => wmSample page 2 ((List.range 8).foldl (fun a i => max a (lane s (laneOfCluster k i)).events.length) 0) s
  | some ⟨.tquench, t⟩, 0 => wmSample page 0 ((List.range 64).foldl (fun a i => max a (energy s (64 * t + i) / 100000000)) 0) s
  | some ⟨.fbp, p⟩, 1 => wmSample page 1 (port s p).fecMs (modPort p (fun x => { x with fecMs := 0 }) s)
  | _, _ => s

/-- SMBus command 0x10 (19 R481): BUSY before MGMT_READY or where it is not served in time, its data bytes free; ERROR for an address
that the active pair could not read; else a read as the active pair's. -/
def smbusRegister (a : Nat) (inTime : Bool) (s : State) : State :=
  let p := pageOfAddr a
  let answer := fun data => smbusAnswers ([0x10, 4] ++ leBytes 4 a) (5 :: data)
  if !bit (rdReg s devPage 0x700) 31 || !inTime then tick (answer (1 :: leBytes 4 (freeVal 32 s)) s)
  else if a < 0x4000000 ∨ 0x8000000 ≤ a ∨ a % 4 ≠ 0 ∨ (pageError s p.1).isSome then tick (answer (2 :: leBytes 4 (freeVal 32 s)) s)
  else let r := pageReads p.1 p.2 (firmwareMaster s) s; answer (0 :: leBytes 4 r.1.toNat) r.2

/-! ## Time that passes -/

/-- What goes on by itself while no command comes: a FULL run of Primer (18 R464), an update at step 5 (R458), and the checkpoint of the
active pair, every 10 µs (R448). -/
def goesOn (s : State) : State :=
  if !firmwareRuns s then s
  else
    let s := updateProceeds (sweepOn s)
    if s.now % (10 * us) = 0 then checkpoint s else s

/-- The idle block: one unit of time passes (log 2). -/
def idleStep (s : State) : State := goesOn (tickTime s)

end Sys2Proof.Machine
end

