-- ==== Sys2Proof/Machine/CmdPins.lean ====
section
/-! DEFINITION. What the pin channel, the stroke timebase and the Palette do (spec 01-03, 15): the commands of the channel families. -/

namespace Sys2Proof.Machine

/-- DOMAIN_LOSS (01 R21, R25): the domain loses power-good, enters reset or is isolated; its channels trip, its crossing transactions end with an error. -/
def execDomainLoss (d : Dom) (c : LossCause) (s : State) : Host.Outcome State Fault Refusal := .next (loseDomain d.val c s)

/-- STROKE_BOUNDARY (01 R30; 03 R78-R86): the next boundary of a running timebase, after the Hang switches and the calibration exchanges due at it. -/
def execStrokeBoundary (k : Cl) (s : State) : Host.Outcome State Fault Refusal := .next (whileLanes (boundaryOf k.val) s)

/-- SYMBOL_DELIVERY (01 R33): the oldest emitted symbol enters the stroke FIFO. -/
def execSymbolDelivery (c : Ch) (s : State) : Host.Outcome State Fault Refusal := .next (whileUp (tileOf c.val) (deliverSymbol c.val) s)

/-- CREDIT_RETURN (01 R31). -/
def execCreditReturn (c : Ch) (s : State) : Host.Outcome State Fault Refusal := .next (whileLanes (returnCredit c.val) s)

/-- STREAM_STOP_REACHES_LANE (01 R31). -/
def execStreamStopReachesLane (c : Ch) (s : State) : Host.Outcome State Fault Refusal := .next (whileLanes (stopAtLane c.val) s)

/-- MODE_CHANGE (02 R46): a live write of CH_FUNC. -/
def execModeChange (c : Ch) (m : Master) (v : Word) (s : State) : Host.Outcome State Fault Refusal := .next (accessWrite (chPage c.val) 0x100 m v s)

/-- MODE_CHANGE_INTERVAL_END (02 R46). -/
def execModeChangeIntervalEnd (c : Ch) (s : State) : Host.Outcome State Fault Refusal := .next (whileUp (tileOf c.val) (modeIntervalEnd c.val) s)

/-- PMU_RAMP_END (02 R59 step 2). -/
def execPmuRampEnd (c : Ch) (s : State) : Host.Outcome State Fault Refusal := .next (whileUp (tileOf c.val) (rampEnd c.val) s)

/-- FUNCTION_SWITCH_TIMER_EXPIRY (02 R59 step 5). -/
def execFunctionSwitchTimerExpiry (c : Ch) (s : State) : Host.Outcome State Fault Refusal := .next (whileUp (tileOf c.val) (switchTimerEnd c.val) s)

/-- SRC_CHANGE_IN_LANE (02 R57). -/
def execSrcChangeInLane (c : Ch) (s : State) : Host.Outcome State Fault Refusal := .next (whileLanes (srcAtLane c.val) s)

/-- PMU_TRIGGER (02 R51, R52): a write of CH_PMU_TRIG. -/
def execPmuTrigger (c : Ch) (m : Master) (v : Word) (s : State) : Host.Outcome State Fault Refusal := .next (accessWrite (chPage c.val) 0x704 m v s)

/-- PMU_SAMPLING_START (02 R51 step 3). -/
def execPmuSamplingStart (c : Ch) (s : State) : Host.Outcome State Fault Refusal := .next (whileUp (tileOf c.val) (pmuSample c.val) s)

/-- PMU_MEASUREMENT_DONE (02 R51 steps 4 and 5), with the sum of the samples in codes. -/
def execPmuMeasurementDone (c : Ch) (sum : Int) (ovr : Bool) (s : State) : Host.Outcome State Fault Refusal :=
  .next (whileUp (tileOf c.val) (pmuDone c.val sum ovr) s)

/-- CLAMP_ONSET (02 R50). -/
def execClampOnset (c : Ch) (s : State) : Host.Outcome State Fault Refusal := .next (whileUp (tileOf c.val) (clampStarts c.val) s)

/-- CLAMP_RELEASE (02 R50; 15 R390): long tells whether the release lasts 10 ns. -/
def execClampRelease (c : Ch) (long : Bool) (s : State) : Host.Outcome State Fault Refusal := .next (whileUp (tileOf c.val) (clampEnds c.val long) s)

/-- TDC_CROSSING (02 R54): a crossing of a threshold at an offset in the stroke. -/
def execTdcCrossing (c : Ch) (ofs : BitVec 40) (thr : Fin 3) (falling : Bool) (s : State) : Host.Outcome State Fault Refusal :=
  .next (whileUp (tileOf c.val) (tdcCross c.val ofs thr.val falling) s)

/-- TDC_POP (02 R55): a write of CH_TDC_POP. -/
def execTdcPop (c : Ch) (m : Master) (v : Word) (s : State) : Host.Outcome State Fault Refusal := .next (accessWrite (chPage c.val) 0x720 m v s)

/-- CL_SPER_WRITE (03 R77): a write of CL_SPER_LO or CL_SPER_HI. -/
def execClSperWrite (k : Cl) (hi : Bool) (m : Master) (v : Word) (s : State) : Host.Outcome State Fault Refusal :=
  .next (accessWrite (clPage k.val) (0x100 + 4 * hi.toNat) m v s)

/-- TIMEBASE_ENABLE (03 R79): a write of CL_STRK_CTL.EN = 1. -/
def execTimebaseEnable (k : Cl) (m : Master) (s : State) : Host.Outcome State Fault Refusal := .next (accessWrite (clPage k.val) 0x108 m 1 s)

/-- TIMEBASE_DISABLE (03 R79): a write of CL_STRK_CTL.EN = 0. -/
def execTimebaseDisable (k : Cl) (m : Master) (s : State) : Host.Outcome State Fault Refusal := .next (accessWrite (clPage k.val) 0x108 m 0 s)

/-- STROKE_COUNT_READ (03 R76): a read of CL_SC_LO. -/
def execStrokeCountRead (k : Cl) (m : Master) (s : State) : Host.Outcome State Fault Refusal := .next (accessRead (clPage k.val) 0x700 m s)

/-- PALETTE_EVENT (03 R88-R92): the next event of the stroke, with the voltage at the contact in 1/327,680 V (log 131) and whether a window's region has strayed. -/
def execPaletteEvent (c : Ch) (volts : Int) (strayed : Bool) (s : State) : Host.Outcome State Fault Refusal :=
  .next (whileUp (tileOf c.val) (nextEvent c.val volts strayed) s)

/-- COMPARE_RESULT_ARRIVAL (03 R100). -/
def execCompareResultArrival (c : Ch) (s : State) : Host.Outcome State Fault Refusal := .next (whileLanes (resultArrives c.val) s)

/-- PAL_READ (03 R94): a write of PAL_CMD.RD. -/
def execPalRead (l : Ln) (m : Master) (s : State) : Host.Outcome State Fault Refusal := .next (accessWrite (palPage l.val) 0x704 m 2 s)

/-- PAL_WRITE (03 R94): a write of PAL_CMD.WR. -/
def execPalWrite (l : Ln) (m : Master) (s : State) : Host.Outcome State Fault Refusal := .next (accessWrite (palPage l.val) 0x704 m 1 s)

/-- PAL_COMMAND_DONE (03 R94). -/
def execPalCommandDone (l : Ln) (s : State) : Host.Outcome State Fault Refusal := .next (whileLanes (palCommandEnds l.val) s)

/-- ENERGY_EVALUATION (15 R387, R388), with the voltage at the contact in mV and the current through it in µA (log 156). -/
def execEnergyEvaluation (c : Ch) (mV uA : Int) (s : State) : Host.Outcome State Fault Refusal :=
  .next (whileUp (tileOf c.val) (energyEval c.val mV uA) s)

/-- OVERVOLT_DWELL_EXPIRY (15 R391): a trip with cause OVERVOLT, of an isolated tile's channel too. -/
def execOvervoltDwellExpiry (c : Ch) (volts : Int) (s : State) : Host.Outcome State Fault Refusal := .next (overvolt c.val volts s)

/-- CLAMP_LIMIT_EXPIRY (15 R390). -/
def execClampLimitExpiry (c : Ch) (s : State) : Host.Outcome State Fault Refusal := .next (whileUp (tileOf c.val) (clampLimit c.val) s)

/-- QUENCH_RELEASE (15 R395): a write of QN_REL, with the contacts that lie inside the band. -/
def execQuenchRelease (t : Tile) (hi : Bool) (m : Master) (v : Word) (volts : List Int) (s : State) : Host.Outcome State Fault Refusal :=
  .next (onPage (tqPage t.val) (0x708 + 4 * hi.toNat) m (releaseWrite t.val hi m v (insideMask s t.val hi volts)) s)

/-- EMSTOP_PIN_ASSERT (15 R392, R397): p tells how long EMSTOP_N is asserted. -/
def execEmstopPinAssert (p : PinPulse) (s : State) : Host.Outcome State Fault Refusal := .next (pinAssert p s)

/-- ESTOP (15 R397): a write of QD_CMD.ESTOP. -/
def execEstop (m : Master) (v : Word) (s : State) : Host.Outcome State Fault Refusal := .next (accessWrite quenchPage 0x704 m (setBit v 0 true) s)

/-- EMERGENCY_LATCH_CLEAR (15 R397): a write of QD_EMSTAT. -/
def execEmergencyLatchClear (m : Master) (v : Word) (s : State) : Host.Outcome State Fault Refusal := .next (accessWrite quenchPage 0x700 m v s)

/-- TRIP_PATH_DISAGREE (15 R399), of a channel or of the device path. -/
def execTripPathDisagree (c : Option Ch) (s : State) : Host.Outcome State Fault Refusal := .next (whileUp 8 (pathsDisagree (c.map (·.val))) s)

/-- COVERAGE_MONITOR_CHECK (15 R403). -/
def execCoverageMonitorCheck (w : Monitor) (deviates : Bool) (s : State) : Host.Outcome State Fault Refusal :=
  .next (whileUp 8 (monitorCheck w deviates) s)

/-- ANVIL_REPORT_RECEIVED (15 R404-R406): the oldest report on its way. -/
def execAnvilReportReceived (s : State) : Host.Outcome State Fault Refusal := .next (whileUp 8 anvilReceives s)

/-- ANV_ACK_WRITE (15 R407). -/
def execAnvAckWrite (m : Master) (v : Word) (s : State) : Host.Outcome State Fault Refusal := .next (accessWrite anvilPage 0x71C m v s)

/-- ANV_CLOSE_WRITE (15 R407). -/
def execAnvCloseWrite (m : Master) (v : Word) (s : State) : Host.Outcome State Fault Refusal := .next (accessWrite anvilPage 0x720 m v s)

end Sys2Proof.Machine
end

