-- ==== Sys2Proof/Machine/CmdEngines.lean ====
section
/-! DEFINITION. What the programmable engines, the lanes and the control stores do (spec 04-09): the commands of the engine families. -/

namespace Sys2Proof.Machine

/-- BUNDLE_ISSUE (04 R105-R126; 05 R137): the engine's next bundle passes TR, stalls or faults. err is what its fetch or a stacking
meets on the bus matrix. -/
def execBundleIssue (e : EngId) (err : Option AccessErr) (s : State) : Host.Outcome State Fault Refusal := 
  .next (issue (engKey e) false err (bundleYields (engKey e) s))

/-- REPEAT_ITERATION (04 R125): the next iteration of the repeat under way. -/
def execRepeatIteration (e : EngId) (err : Option AccessErr) (s : State) : Host.Outcome State Fault Refusal := 
  .next (issue (engKey e) true err (bundleYields (engKey e) s))

/-- DELAY_EXPIRY (05 R140). -/
def execDelayExpiry (e : EngId) (s : State) : Host.Outcome State Fault Refusal := .next (whileEngine (engKey e) (delayOver (engKey e)) s)

/-- UNIT_RESULT_WRITEBACK (05 R138, R139): the oldest operation of a unit reaches WB. -/
def execUnitResultWriteback (e : EngId) (unit : BitVec 13) (s : State) : Host.Outcome State Fault Refusal :=
  .next (whileEngine (engKey e) (writeback (engKey e) unit.toNat) s)

/-- STORE_ACKNOWLEDGE (05 R142). -/
def execStoreAcknowledge (e : EngId) (s : State) : Host.Outcome State Fault Refusal := .next (whileEngine (engKey e) (storeAck (engKey e)) s)

/-- STORE_BUS_ERROR (05 R146; 08 R222). -/
def execStoreBusError (e : EngId) (kind : BusKind) (s : State) : Host.Outcome State Fault Refusal :=
  .next (whileEngine (engKey e) (Sys2Proof.Machine.storeErrorArrives (engKey e) kind) s)

/-- EMIT_WAIT_FAULT (05 R160). -/
def execEmitWaitFault (e : EngId) (err : Option BusKind) (s : State) : Host.Outcome State Fault Refusal :=
  .next (Sys2Proof.Machine.emitWaitFault (engKey e) err s)

/-- ASYNCHRONOUS_ENTRY (08 R221, R222). -/
def execAsynchronousEntry (e : EngId) (err : Option BusKind) (s : State) : Host.Outcome State Fault Refusal := .next (asyncEntry (engKey e) err s)

/-- INTERRUPT_ENTRY (08 R223). -/
def execInterruptEntry (e : EngId) (err : Option BusKind) (s : State) : Host.Outcome State Fault Refusal :=
  .next (Sys2Proof.Machine.interruptEntry (engKey e) err s)

/-- RESIDUE_ERROR (04 R131; 08 R221). -/
def execResidueError (e : EngId) (parity : Bool) (sock : BitVec 13) (s : State) : Host.Outcome State Fault Refusal :=
  .next (whileEngine (engKey e) (Sys2Proof.Machine.residueError (engKey e) parity sock.toNat) s)

/-- THREAD_ENABLE (06 R165): a write of LN_THR_CTL that sets one EN bit. -/
def execThreadEnable (l : Ln) (m : Master) (t : Fin 8) (s : State) : Host.Outcome State Fault Refusal :=
  .next (accessWrite (lnPage l.val) 0x700 m (setBit (rdReg s (lnPage l.val) 0x700) t.val true) s)

/-- THREAD_DISABLE (06 R165): a write of LN_THR_CTL that clears one EN bit. -/
def execThreadDisable (l : Ln) (m : Master) (t : Fin 8) (s : State) : Host.Outcome State Fault Refusal :=
  .next (accessWrite (lnPage l.val) 0x700 m (setBit (rdReg s (lnPage l.val) 0x700) t.val false) s)

/-- ADDRESS_HISTORY_LOOKUP (06 R179). -/
def execAddressHistoryLookup (c : Ch) (s : State) : Host.Outcome State Fault Refusal := .next (whileLanes (historyLookup c.val) s)

/-- MICROWORD_EXECUTE (07 R193-R195). -/
def execMicrowordExecute (q : SeqId) (ecc : EccOutcome) (s : State) : Host.Outcome State Fault Refusal := .next (whileLanes (microword (seqKey q) ecc) s)

/-- MICROWORD_WAIT_TIMEOUT (07 R195). -/
def execMicrowordWaitTimeout (q : SeqId) (s : State) : Host.Outcome State Fault Refusal := .next (whileLanes (microTimeout (seqKey q)) s)

/-- SKETCH_RESULTS_READY (07 R199). -/
def execSketchResultsReady (l : Ln) (s : State) : Host.Outcome State Fault Refusal := .next (whileLanes (sketchReady l.val) s)

/-- SKETCH_WATCHDOG_EXPIRY (07 R200). -/
def execSketchWatchdogExpiry (l : Ln) (s : State) : Host.Outcome State Fault Refusal := .next (whileLanes (watchdogExpires l.val) s)

/-- BEGIN (07 R204): a write of LCS_LDCMD with OP = BEGIN. -/
def execBegin (st : StoreId) (m : Master) (v : Word) (s : State) : Host.Outcome State Fault Refusal :=
  .next (accessWrite (storePage (storeNo st)) 0x704 m (setFld v 1 0 1) s)

/-- LOAD_DATA_WRITE (07 R205): a write of LCS_LDDATA7. -/
def execLoadDataWrite (st : StoreId) (m : Master) (v : Word) (s : State) : Host.Outcome State Fault Refusal :=
  .next (accessWrite (storePage (storeNo st)) 0x73C m v s)

/-- COMMIT (07 R205): a write of LCS_LDCMD with OP = COMMIT. -/
def execCommit (st : StoreId) (m : Master) (s : State) : Host.Outcome State Fault Refusal := .next (accessWrite (storePage (storeNo st)) 0x704 m 2 s)

/-- COMMIT_COMPLETE (07 R205), with the version that the signed manifest of the loaded image gives (07 R201). -/
def execCommitComplete (st : StoreId) (version : BitVec 32) (s : State) : Host.Outcome State Fault Refusal :=
  .next (whileLanes (commitDone (storeNo st) version) s)

/-- ABORT (07 R205): a write of LCS_LDCMD with OP = ABORT. -/
def execAbort (st : StoreId) (m : Master) (s : State) : Host.Outcome State Fault Refusal := .next (accessWrite (storePage (storeNo st)) 0x704 m 3 s)

/-- PATROL_SCRUB_READ (11 R289; 15 R403; 07 R191; 17 R446). -/
def execPatrolScrubRead (t : ScrubTarget) (o : EccOutcome) (s : State) : Host.Outcome State Fault Refusal := .next (scrubRead t o s)

/-- EC_OPERATION_COMPLETE (08 R227-R229). -/
def execEcOperationComplete (p : Fin 2) (s : State) : Host.Outcome State Fault Refusal := .next (whileUp 8 (ecComplete p.val) s)

/-- QUEUE_DATA_ARRIVAL (09 R233-R236): the oldest outstanding request of the engine; ecc is what the ECC check of its words finds. -/
def execQueueDataArrival (e : EngId) (ecc : EccOutcome) (s : State) : Host.Outcome State Fault Refusal :=
  .next (whileEngine (engKey e) (queueAnswer (engKey e) ecc) s)

/-- EXPECTED_MARK_CHECK (09 R244). -/
def execExpectedMarkCheck (k : Cl) (s : State) : Host.Outcome State Fault Refusal := .next (whileLanes (expectedMark k.val) s)

/-- MARK_MISMATCH_STOP_ARRIVAL (09 R244). -/
def execMarkMismatchStopArrival (c : Ch) (s : State) : Host.Outcome State Fault Refusal := .next (whileUp (tileOf c.val) (markStopArrives c.val) s)

end Sys2Proof.Machine
end

