-- ==== Sys2Proof/Machine/CmdCapture.lean ====
section
/-! DEFINITION. Fail capture and the Weld engine (spec 10). -/

namespace Sys2Proof.Machine

/-- FAIL_PIPELINE_TAKE_EVENT (10 R253-R255): the oldest event of a lane position. -/
def execFailPipelineTakeEvent (k : Cl) (lp : Fin 8) (s : State) : Host.Outcome State Fault Refusal := .next (whileLanes (takeEvent k.val lp.val) s)

/-- RECORD_CLOSE_TIMEOUT (10 R254). -/
def execRecordCloseTimeout (k : Cl) (lp : Fin 8) (s : State) : Host.Outcome State Fault Refusal := .next (whileLanes (closeTimeout k.val lp.val) s)

/-- BUFFER_REQUEST (10 R261). -/
def execBufferRequest (k : Cl) (s : State) : Host.Outcome State Fault Refusal := .next (whileLanes (Sys2Proof.Machine.bufferRequest k.val) s)

/-- BUFFER_DONE (10 R262). -/
def execBufferDone (k : Cl) (s : State) : Host.Outcome State Fault Refusal := .next (whileLanes (Sys2Proof.Machine.bufferDone k.val) s)

/-- SITE_COUNTER_UPDATE (10 R259). -/
def execSiteCounterUpdate (l : Ln) (s : State) : Host.Outcome State Fault Refusal := .next (whileLanes (siteCounters l.val) s)

/-- INIT (10 R260): a write of CL_FCMD.INIT. -/
def execInit (k : Cl) (m : Master) (s : State) : Host.Outcome State Fault Refusal := .next (accessWrite (clPage k.val) 0x70C m 1 s)

/-- FLUSH (10 R263): a write of CL_FCMD.FLUSH. -/
def execFlush (k : Cl) (m : Master) (s : State) : Host.Outcome State Fault Refusal := .next (accessWrite (clPage k.val) 0x70C m 2 s)

/-- FLUSH_COMPLETE (10 R263). -/
def execFlushComplete (k : Cl) (s : State) : Host.Outcome State Fault Refusal := .next (whileLanes (Sys2Proof.Machine.flushComplete k.val) s)

/-- OVCLR (10 R264): a write of CL_FCMD.OVCLR. -/
def execOvclr (k : Cl) (m : Master) (s : State) : Host.Outcome State Fault Refusal := .next (accessWrite (clPage k.val) 0x70C m 4 s)

/-- CL_FREE_WRITE (10 R262). -/
def execClFreeWrite (k : Cl) (m : Master) (v : Word) (s : State) : Host.Outcome State Fault Refusal := .next (accessWrite (clPage k.val) 0x718 m v s)

/-- CL_DONE_POP_WRITE (10 R262). -/
def execClDonePopWrite (k : Cl) (m : Master) (v : Word) (s : State) : Host.Outcome State Fault Refusal :=
  .next (accessWrite (clPage k.val) 0x724 m v s)

/-- SITE_COUNTER_SELECT (10 R283): a write of CL_SCSEL.SITE. -/
def execSiteCounterSelect (k : Cl) (m : Master) (site : BitVec 7) (s : State) : Host.Outcome State Fault Refusal :=
  .next (accessWrite (clPage k.val) 0x730 m (w32 site.toNat) s)

/-- SITE_COUNTER_CLEAR (10 R283): a write of CL_SCSEL with CLR = 1. -/
def execSiteCounterClear (k : Cl) (m : Master) (site : BitVec 7) (s : State) : Host.Outcome State Fault Refusal :=
  .next (accessWrite (clPage k.val) 0x730 m (w32 (2 ^ 31 + site.toNat)) s)

/-- WELD_RECORD (10 R268). -/
def execWeldRecord (k : Cl) (s : State) : Host.Outcome State Fault Refusal := .next (whileLanes (Sys2Proof.Machine.weldRecord k.val) s)

/-- START (10 R271): a write of WD_CMD with OP = START. -/
def execStart (k : Cl) (m : Master) (s : State) : Host.Outcome State Fault Refusal := .next (accessWrite (wdPage k.val) 0x704 m 1 s)

/-- WELD_START_COMPLETE (10 R271). -/
def execWeldStartComplete (k : Cl) (s : State) : Host.Outcome State Fault Refusal := .next (whileLanes (weldStarted k.val) s)

/-- STOP (10 R271): a write of WD_CMD with OP = STOP. -/
def execStop (k : Cl) (m : Master) (s : State) : Host.Outcome State Fault Refusal := .next (accessWrite (wdPage k.val) 0x704 m 2 s)

/-- SOLVE (10 R269): a write of WD_CMD with OP = SOLVE. -/
def execSolve (k : Cl) (m : Master) (site : BitVec 7) (s : State) : Host.Outcome State Fault Refusal :=
  .next (accessWrite (wdPage k.val) 0x704 m (w32 (256 * site.toNat + 3)) s)

/-- WELD_SOLVE_REGION (10 R269): exceeded tells whether the search meets its limit. -/
def execWeldSolveRegion (k : Cl) (exceeded : Bool) (s : State) : Host.Outcome State Fault Refusal := .next (whileLanes (solveRegion k.val exceeded) s)

/-- CLEAR (10 R271): a write of WD_CMD with OP = CLEAR. -/
def execClear (k : Cl) (m : Master) (site : BitVec 7) (s : State) : Host.Outcome State Fault Refusal :=
  .next (accessWrite (wdPage k.val) 0x704 m (w32 (256 * site.toNat + 4)) s)

/-- WELD_REPLAY (10 R270): a write of WD_RPLY. -/
def execWeldReplay (k : Cl) (m : Master) (v : Word) (s : State) : Host.Outcome State Fault Refusal := .next (accessWrite (wdPage k.val) 0x710 m v s)

/-- WELD_SUMMARY_SELECT (10 R284): a write of WD_SUMSEL. -/
def execWeldSummarySelect (k : Cl) (m : Master) (site : BitVec 7) (s : State) : Host.Outcome State Fault Refusal :=
  .next (accessWrite (wdPage k.val) 0x718 m (w32 site.toNat) s)

end Sys2Proof.Machine
end

