-- ==== Sys2Proof/Machine/CmdMatrix.lean ====
section
/-! DEFINITION. The bus matrix, the memories, Tongs, Hang and snapshots (spec 11, 12). -/

namespace Sys2Proof.Machine

/-- MATRIX_TRANSACTION (11 R291-R296): a transaction enters a master port. -/
def execMatrixTransaction (m : Master) (id : BitVec 4) (write : Bool) (addr : BitVec 48) (data : List Byte) (s : State) : Host.Outcome State Fault Refusal :=
  .next (whileUp 8 (enterMatrix m id.toNat write addr.toNat data) s)

/-- MATRIX_RESPONSE (11 R296-R300): the n-th transaction outstanding is answered. -/
def execMatrixResponse (n : Nat) (a : TargetAnswer) (s : State) : Host.Outcome State Fault Refusal := .next (matrixAnswer n a s)

/-- MATRIX_TIMEOUT (11 R294). -/
def execMatrixTimeout (n : Nat) (s : State) : Host.Outcome State Fault Refusal := .next (whileUp 8 (matrixTimesOut n) s)

/-- MEMORY_POWER_REQUEST (11 R302): a write of a MEM_PWR register. -/
def execMemoryPowerRequest (off : BitVec 12) (m : Master) (v : Word) (s : State) : Host.Outcome State Fault Refusal :=
  .next (accessWrite memPage off.toNat m v s)

/-- MEMORY_POWER_TRANSITION_DONE (11 R301). -/
def execMemoryPowerTransitionDone (r : Region) (s : State) : Host.Outcome State Fault Refusal := .next (whileUp 8 (powerEnds (regionNo r)) s)

/-- SECURE_WIPE_START (11 R303). -/
def execSecureWipeStart (c : WipeCause) (s : State) : Host.Outcome State Fault Refusal := .next (wipeStart c s)

/-- SECURE_WIPE_COMPLETE (11 R303). -/
def execSecureWipeComplete (s : State) : Host.Outcome State Fault Refusal := .next (wipeDone s)

/-- MRAM_LINE_PROGRAMMED (11 R304). -/
def execMramLineProgrammed (bank : Fin 2) (s : State) : Host.Outcome State Fault Refusal := .next (lineDone bank.val s)

/-- REMAP (11 R309, R310): a write of MX_CTL.REMAP. -/
def execRemap (m : Master) (s : State) : Host.Outcome State Fault Refusal := .next (accessWrite mxPage 0x700 m 1 s)

/-- GO (11 R306): a write of TG_CTLSTAT with GO = 1. -/
def execGo (c : Fin 8) (m : Master) (v : Word) (s : State) : Host.Outcome State Fault Refusal :=
  .next (accessWrite tongsPage (0x71C + 0x20 * c.val) m (setBit v 31 true) s)

/-- TONGS_TRANSFER_END (11 R306-R308). -/
def execTongsTransferEnd (c : Fin 8) (s : State) : Host.Outcome State Fault Refusal := .next (whileUp 8 (tongsEnd c.val) s)

/-- TONGS_ABORT (11 R308): a write of TG_CTLSTAT with ABORT = 1 that keeps IRQE and CHAIN. -/
def execTongsAbort (c : Fin 8) (m : Master) (s : State) : Host.Outcome State Fault Refusal :=
  .next (accessWrite tongsPage (0x71C + 0x20 * c.val) m ((rdReg s tongsPage (0x71C + 0x20 * c.val) &&& 0x30000000) ||| 0x40000000) s)

/-- HANG (12 R320, R334): a write of HG_CMD with OP = HANG. -/
def execHang (m : Master) (v : Word) (s : State) : Host.Outcome State Fault Refusal := .next (accessWrite hangPage 0x70C m (setFld v 2 0 1) s)

/-- HANG_DECISION (12 R321; 13 R330): of HG_CMD, or of the Fabric Hang that arrived. -/
def execHangDecision (fabric : Bool) (s : State) : Host.Outcome State Fault Refusal := .next (whileUp 8 (hangDecided fabric) s)

/-- HANG_PAGE_SWITCH (12 R322-R325). -/
def execHangPageSwitch (slot : Fin 8) (page : BitVec 14) (s : State) : Host.Outcome State Fault Refusal :=
  .next (whileUp 8 (pageSwitches slot.val page.toNat) s)

/-- CANCEL (12 R326): a write of HG_CMD with OP = CANCEL. -/
def execCancel (m : Master) (v : Word) (s : State) : Host.Outcome State Fault Refusal := .next (accessWrite hangPage 0x70C m (setFld v 2 0 2) s)

/-- COPY (12 R327): a write of HG_CMD with OP = COPY. -/
def execCopy (m : Master) (v : Word) (s : State) : Host.Outcome State Fault Refusal := .next (accessWrite hangPage 0x70C m (setFld v 2 0 3) s)

/-- COPY_COMPLETE (12 R327). -/
def execCopyComplete (s : State) : Host.Outcome State Fault Refusal := .next (whileUp 8 copyDone s)

/-- SNAPSHOT_START (12 R333): a write of SN_CTL with GO = 1. -/
def execSnapshotStart (m : Master) (v : Word) (s : State) : Host.Outcome State Fault Refusal :=
  .next (accessWrite snapPage 0x710 m (setBit v 31 true) s)

/-- SNAPSHOT_CAPTURE (12 R332). -/
def execSnapshotCapture (err : Option BusKind) (s : State) : Host.Outcome State Fault Refusal := .next (whileUp 8 (snapCapture err) s)

/-- SNAPSHOT_COMPLETE (12 R332, R333). -/
def execSnapshotComplete (err : Option BusKind) (s : State) : Host.Outcome State Fault Refusal := .next (whileUp 8 (snapComplete err) s)

end Sys2Proof.Machine
end

