-- ==== Sys2Proof/Machine/CmdFabric.lean ====
section
/-! DEFINITION. The Amibin fabric (spec 13). -/

namespace Sys2Proof.Machine

/-- PORT_TRAINING_COMPLETE (13 R336). While the TAP drives the pins the ports stay in FAULT (19 R484). -/
def execPortTrainingComplete (p : PortNo) (nbr : BitVec 16) (nport : PortNo) (s : State) : Host.Outcome State Fault Refusal :=
  .next (whileUp 9 (if s.tapFault then id else trainingDone p.val nbr.toNat nport.val) s)

/-- PORT_FAULT (13 R336). -/
def execPortFault (p : PortNo) (s : State) : Host.Outcome State Fault Refusal := .next (whileUp 9 (portFaults p.val) s)

/-- RETRAIN (13 R336): a write of FBP_CTL.RETRAIN that keeps its other bits. -/
def execRetrain (p : PortNo) (m : Master) (s : State) : Host.Outcome State Fault Refusal :=
  .next (accessWrite (fbpPage p.val) 0x700 m (setBit (rdReg s (fbpPage p.val) 0x700) 3 true) s)

/-- FRAME_RECEIVE (13 R337, R338, R340-R346), with the codewords decoded since the command before (R365). -/
def execFrameReceive (p : PortNo) (wire : List Byte) (fec : FecCount) (s : State) : Host.Outcome State Fault Refusal :=
  .next (whileUp 9 (fun s => receiveFrame p.val wire (countFec p.val fec s)) s)

/-- LINK_CONTROL_BLOCK_SEND (13 R340). -/
def execLinkControlBlockSend (p : PortNo) (s : State) : Host.Outcome State Fault Refusal := .next (whileUp 9 (sendBlock p.val) s)

/-- LINK_CONTROL_BLOCK_RECEIVE (13 R340), with the codewords decoded since the command before (R365). -/
def execLinkControlBlockReceive (p : PortNo) (b : LinkBlock) (fec : FecCount) (s : State) : Host.Outcome State Fault Refusal :=
  .next (whileUp 9 (fun s => receiveBlock p.val b (countFec p.val fec s)) s)

/-- RD_REQ (13 R350): the oldest delivered one. -/
def execRdReq (s : State) : Host.Outcome State Fault Refusal := .next (whileUp 9 (handleRequest 1) s)

/-- WR_REQ (13 R350). -/
def execWrReq (s : State) : Host.Outcome State Fault Refusal := .next (whileUp 9 (handleRequest 2) s)

/-- PG_RD (13 R350). -/
def execPgRd (s : State) : Host.Outcome State Fault Refusal := .next (whileUp 9 (handleRequest 3) s)

/-- PG_WR (13 R350). -/
def execPgWr (s : State) : Host.Outcome State Fault Refusal := .next (whileUp 9 (handleRequest 4) s)

/-- BRD_REQ (13 R350). -/
def execBrdReq (s : State) : Host.Outcome State Fault Refusal := .next (whileUp 9 (handleRequest 5) s)

/-- BWR_REQ (13 R350). -/
def execBwrReq (s : State) : Host.Outcome State Fault Refusal := .next (whileUp 9 (handleRequest 6) s)

/-- RSP (13 R354). -/
def execRsp (s : State) : Host.Outcome State Fault Refusal := .next (whileUp 9 handleRsp s)

/-- DISC (13 R342). -/
def execDisc (s : State) : Host.Outcome State Fault Refusal := .next (whileUp 9 handleDisc s)

/-- DISC_RSP (13 R342): it is delivered. -/
def execDiscRsp (s : State) : Host.Outcome State Fault Refusal := .next (whileUp 9 (handleTaken 0x9) s)

/-- ASSIGN (13 R343, R344). -/
def execAssign (s : State) : Host.Outcome State Fault Refusal := .next (whileUp 9 handleAssign s)

/-- ASSIGN_RSP (13 R342): it is delivered. -/
def execAssignRsp (s : State) : Host.Outcome State Fault Refusal := .next (whileUp 9 (handleTaken 0xB) s)

/-- TSYNC (13 R358-R361), with its arrival in the FT of this device. -/
def execTsync (arrival : BitVec 64) (s : State) : Host.Outcome State Fault Refusal := .next (whileUp 9 (handleTsync arrival.toNat) s)

/-- TSYNC_SEND (13 R358). -/
def execTsyncSend (p : PortNo) (s : State) : Host.Outcome State Fault Refusal := .next (whileUp 9 (sendTsync p.val) s)

/-- HANG_BC (12 R330); a Fabric Hang that arrives is a service request to the blocks it names (18 R461). -/
def execHangBc (s : State) : Host.Outcome State Fault Refusal :=
  .next (whileUp 9 (fun s => let t := handleHangBc s; match t.fabHangAsk with | some a => hangYields a.group t | none => t) s)

/-- HANG_CANCEL (12 R330). -/
def execHangCancel (s : State) : Host.Outcome State Fault Refusal := .next (whileUp 9 handleHangCancel s)

/-- HANG_RPL (12 R330): it reaches the originator. -/
def execHangRpl (s : State) : Host.Outcome State Fault Refusal := .next (whileUp 9 (handleTaken 0x16) s)

/-- NOTICE (13 R338): it reaches the fabric manager. -/
def execNotice (s : State) : Host.Outcome State Fault Refusal := .next (whileUp 9 (handleTaken 0x18) s)

/-- FB_NODE_WRITE (13 R343): a local write of FB_NODE. -/
def execFbNodeWrite (m : Master) (v : Word) (s : State) : Host.Outcome State Fault Refusal := .next (accessWrite fbPage 0x700 m v s)

/-- FBRT_DATA_ACCESS (13 R345): a write, or a read, of FBRT_DATA. -/
def execFbrtDataAccess (m : Master) (wr : Option Word) (s : State) : Host.Outcome State Fault Refusal :=
  .next (match wr with | some v => accessWrite fbrtPage 0x704 m v s | none => accessRead fbrtPage 0x704 m s)

/-- TRANSACTION_RING_PRODUCE (13 R347): a write of FB_RQPROD. -/
def execTransactionRingProduce (m : Master) (v : Word) (s : State) : Host.Outcome State Fault Refusal := .next (accessWrite fbPage 0x72C m v s)

/-- TRANSACTION_ISSUE (13 R347, R348). -/
def execTransactionIssue (s : State) : Host.Outcome State Fault Refusal := .next (issueTransaction s)

/-- TRANSACTION_TIMEOUT (13 R353-R355). -/
def execTransactionTimeout (tag : BitVec 12) (s : State) : Host.Outcome State Fault Refusal :=
  .next (whileUp 9 (Sys2Proof.Machine.transactionTimeout tag.toNat) s)

/-- SEND (13 R357): a write of FB_EMCTL with SEND = 1. -/
def execSend (m : Master) (v : Word) (s : State) : Host.Outcome State Fault Refusal := .next (accessWrite fbPage 0x740 m (setBit v 1 true) s)

/-- EMERGENCY_BLOCK_RECEIVE (13 R356, R357): the copies that each lane of a port has received. -/
def execEmergencyBlockReceive (p : PortNo) (lanes : List (List (BitVec 128))) (s : State) : Host.Outcome State Fault Refusal :=
  .next (whileUp 9 (blockArrives p.val lanes) s)

/-- TIME_HOLDOVER (13 R362). -/
def execTimeHoldover (s : State) : Host.Outcome State Fault Refusal := .next (whileUp 9 holdover s)

/-- SET (13 R360): a write of FB_FTCMD.SET. -/
def execFtSet (m : Master) (s : State) : Host.Outcome State Fault Refusal := .next (accessWrite fbPage 0x768 m 1 s)

/-- FT_PPS_EDGE (13 R360). -/
def execFtPpsEdge (s : State) : Host.Outcome State Fault Refusal := .next (whileUp 9 ppsEdge s)

/-- FT_PPS_OUT_PULSE (13 R360). -/
def execFtPpsOutPulse (s : State) : Host.Outcome State Fault Refusal := .next (whileUp 9 ppsPulse s)

/-- PORT_PARTNER_PRESENT (13 R336). -/
def execPortPartnerPresent (p : PortNo) (s : State) : Host.Outcome State Fault Refusal := .next (whileUp 9 (partnerPresent p.val) s)

end Sys2Proof.Machine
end

