-- ==== Sys2Proof/Machine/CmdPages.lean ====
section
/-! DEFINITION. The common registers of the pages (spec 00, 14) and Patina (spec 16). -/

namespace Sys2Proof.Machine

/-- RC_READ_CLEAR (00 R10): a read of a register. -/
def execRcReadClear (page : BitVec 14) (off : BitVec 12) (m : Master) (s : State) : Host.Outcome State Fault Refusal :=
  .next (accessRead page.toNat off.toNat m s)

/-- REGISTER_WRITE (00 R10, R13; 14 R366): a write of a register. -/
def execRegisterWrite (page : BitVec 14) (off : BitVec 12) (m : Master) (v : Word) (s : State) : Host.Outcome State Fault Refusal :=
  .next (accessWrite page.toNat off.toNat m v s)

/-- PG_IRQ_SET_WRITE (14 R374). -/
def execPgIrqSetWrite (page : BitVec 14) (m : Master) (v : Word) (s : State) : Host.Outcome State Fault Refusal :=
  .next (accessWrite page.toNat 0x01C m v s)

/-- PG_FAULT_ACK_WRITE (14 R378). -/
def execPgFaultAckWrite (page : BitVec 14) (m : Master) (v : Word) (s : State) : Host.Outcome State Fault Refusal :=
  .next (accessWrite page.toNat 0x024 m v s)

/-- WM_HITS_CLEAR (14 R382): a write of WM_HITS with HIT = 1. -/
def execWmHitsClear (page : BitVec 14) (n : Fin 4) (m : Master) (v : Word) (s : State) : Host.Outcome State Fault Refusal :=
  .next (accessWrite page.toNat (0x04C + 0x10 * n.val) m (setBit v 31 true) s)

/-- WATERMARK_PERIODIC_SAMPLE (14 R381; 10 R283; 13 R365; 15 R408): a watermark that is sampled on a period. -/
def execWatermarkPeriodicSample (page : BitVec 14) (n : Fin 4) (s : State) : Host.Outcome State Fault Refusal :=
  .next (if (pageError s page.toNat).isSome then s else periodicSample page.toNat n.val s)

/-- MSIX_MESSAGE (14 R375; 19 R479): a message that is due leaves. -/
def execMsixMessage (page : BitVec 14) (s : State) : Host.Outcome State Fault Refusal := .next (msixMessageDue page.toNat s)

/-- PATINA_EVENT_INTAKE (16 R414, R417). -/
def execPatinaEventIntake (ev : PatEvent) (s : State) : Host.Outcome State Fault Refusal := .next (whileUp 8 (eventArrives ev) s)

/-- PATINA_RECORD_WRITE (16 R415, R418). -/
def execPatinaRecordWrite (s : State) : Host.Outcome State Fault Refusal := .next (whileUp 8 recordStep s)

/-- PT_SUBMIT_WRITE (16 R413). -/
def execPtSubmitWrite (m : Master) (v : Word) (s : State) : Host.Outcome State Fault Refusal := .next (accessWrite patPage 0x740 m v s)

/-- TOKEN_GAIN (16 R416, R417). -/
def execTokenGain (code : BitVec 16) (sameCycle : Option PatEvent) (s : State) : Host.Outcome State Fault Refusal :=
  .next (whileUp 8 (gainToken code.toNat sameCycle) s)

/-- PATINA_FLUSH_START (16 R419). -/
def execPatinaFlushStart (s : State) : Host.Outcome State Fault Refusal := .next (whileUp 8 flushStart s)

/-- PATINA_FLUSH_COMPLETE (16 R419-R421). -/
def execPatinaFlushComplete (s : State) : Host.Outcome State Fault Refusal := .next (whileUp 8 flushEnds s)

/-- PATINA_FLUSH (16 R419): a write of PT_CMD with OP = FLUSH. -/
def execPatinaFlush (m : Master) (s : State) : Host.Outcome State Fault Refusal := .next (accessWrite patPage 0x704 m 1 s)

/-- FREEZE (16 R421): a write of PT_CMD with OP = FREEZE. -/
def execFreeze (m : Master) (s : State) : Host.Outcome State Fault Refusal := .next (accessWrite patPage 0x704 m 2 s)

/-- THAW (16 R421): a write of PT_CMD with OP = THAW. -/
def execThaw (m : Master) (s : State) : Host.Outcome State Fault Refusal := .next (accessWrite patPage 0x704 m 3 s)

/-- PATINA_CLEAR (16 R422): a write of PT_CMD with OP = CLEAR. -/
def execPatinaClear (m : Master) (s : State) : Host.Outcome State Fault Refusal := .next (accessWrite patPage 0x704 m 4 s)

/-- PT_RLCFG_WRITE (16 R416). -/
def execPtRlcfgWrite (m : Master) (v : Word) (s : State) : Host.Outcome State Fault Refusal := .next (accessWrite patPage 0x738 m v s)

/-- OPSEC_TICK (16 R412). -/
def execOpsecTick (s : State) : Host.Outcome State Fault Refusal := .next (opsecStep s)

end Sys2Proof.Machine
end

