-- ==== Sys2Proof/Machine/CmdPower.lean ====
section
/-! DEFINITION. Start-up, reset, power loss, HBM and thermal events (spec 17; 19 R483). -/

namespace Sys2Proof.Machine

/-- POWER_ON_RESET (17 R429). -/
def execPowerOnReset (b : BootFind) (s : State) : Host.Outcome State Fault Refusal := .next (powerOn b s)

/-- DEVICE_RESET (17 R428, R429, R443): RESET_N. -/
def execDeviceReset (b : BootFind) (s : State) : Host.Outcome State Fault Refusal := .next (resetPin b s)

/-- DEVICE (17 R445): a write of RST_CMD with DEVICE = 1. -/
def execDevice (m : Master) (v : Word) (s : State) : Host.Outcome State Fault Refusal := .next (accessWrite rstPage 0x708 m (setBit v 15 true) s)

/-- DOMAIN_RESET (17 R429, R445): a write of RST_CMD. -/
def execDomainReset (m : Master) (v : Word) (b : BootFind) (s : State) : Host.Outcome State Fault Refusal :=
  .next (onPage rstPage 0x708 m (if rstWriter s m v then rstCmdWrite m v b else rejectWrite rstPage 0x708 m) s)

/-- DOMAIN_RESTART (17 R437). -/
def execDomainRestart (d : Dom) (ok : Bool) (s : State) : Host.Outcome State Fault Refusal :=
  .next (whileUp 8 (Sys2Proof.Machine.domainRestart d.val ok) s)

/-- DOMAIN_POWER_GOOD_RETURN (17 R427). What start-up finds after D8 is free (log 8). -/
def execDomainPowerGoodReturn (d : Dom) (s : State) : Host.Outcome State Fault Refusal := .next (powerReturns d.val (Config.freeFind s.free) (tick s))

/-- PCIE_RESET (17 R429; 19 R475): PERST_N, a hot reset and link-down act alike. -/
def execPcieReset (r : PcieResetKind) (s : State) : Host.Outcome State Fault Refusal :=
  .next (match r with | .perst | .hot | .linkDown => pcieResets s)

/-- DEV_BOOTDB_WRITE (17 R433), with the verdict of the ROM on the image. -/
def execDevBootdbWrite (m : Master) (v : Word) (verdict : BitVec 2) (b : BootFind) (s : State) : Host.Outcome State Fault Refusal :=
  .next (onPage devPage 0x708 m (bootDoorbell m v.toNat verdict.toNat b) s)

/-- BELLOWS_START (17 R440, R441 step 1): PFAIL_N or the rail monitor. -/
def execBellowsStart (railMonitor : Bool) (s : State) : Host.Outcome State Fault Refusal := .next (bellowsBegin railMonitor s)

/-- JDONE (17 R441 step 3): a write of BL_CMD.JDONE. -/
def execJdone (m : Master) (v : Word) (s : State) : Host.Outcome State Fault Refusal := .next (accessWrite blPage 0x708 m (setBit v 0 true) s)

/-- JOURNAL_WINDOW_EXPIRY (17 R441 step 3). -/
def execJournalWindowExpiry (s : State) : Host.Outcome State Fault Refusal := .next (journalExpires s)

/-- BELLOWS_STOP (17 R441 step 4). -/
def execBellowsStop (s : State) : Host.Outcome State Fault Refusal := .next (bellowsEnd s)

/-- HOLD_UP_EXHAUSTED (17 R443). -/
def execHoldUpExhausted (s : State) : Host.Outcome State Fault Refusal := .next (holdUpOut s)

/-- BROWNOUT_RESTART (17 R444). -/
def execBrownoutRestart (b : BootFind) (s : State) : Host.Outcome State Fault Refusal := .next (brownout b s)

/-- BELLOWS_CAP_CHARGED (17 R442). -/
def execBellowsCapCharged (uF : BitVec 16) (volts49 : Bool) (s : State) : Host.Outcome State Fault Refusal := .next (capCharged uF.toNat volts49 s)

/-- HBM_RETRAIN (17 R446): a write of HB_CTL.RETRAIN on the page of stack t. -/
def execHbmRetrain (t : Fin 4) (m : Master) (v : Word) (s : State) : Host.Outcome State Fault Refusal :=
  .next (accessWrite (hbmPage t.val) 0x704 m (setBit v 0 true) s)

/-- HBM_TRAINING_COMPLETE (17 R446). -/
def execHbmTrainingComplete (t : Fin 4) (ok : Bool) (s : State) : Host.Outcome State Fault Refusal := .next (trained t.val ok s)

/-- THERMAL_WARN (19 R483). -/
def execThermalWarn (sensor : Fin 14) (temp : BitVec 16) (s : State) : Host.Outcome State Fault Refusal := .next (warnTemp sensor.val temp s)

/-- THERMAL_TRIP (19 R483). -/
def execThermalTrip (sensor : Fin 14) (temp : BitVec 16) (s : State) : Host.Outcome State Fault Refusal := .next (tripTemp sensor.val temp s)

/-- THERMAL_RECOVERY (19 R483). -/
def execThermalRecovery (temps : List (BitVec 16)) (s : State) : Host.Outcome State Fault Refusal := .next (tripClears temps s)

/-- THERMAL_WARN_CLEAR (19 R483). -/
def execThermalWarnClear (temps : List (BitVec 16)) (s : State) : Host.Outcome State Fault Refusal := .next (warnClears temps s)

end Sys2Proof.Machine
end

