-- ==== Sys2Proof/Machine/CmdService.lean ====
section
/-! DEFINITION. The management pairs, Temper, Primer and the services of the firmware (spec 18; 19 R476-R478). -/

namespace Sys2Proof.Machine

/-- FAILOVER (18 R449, R450): a lockstep mismatch, or the active pair STUCK. -/
def execFailover (stuck : Bool) (b : BootFind) (s : State) : Host.Outcome State Fault Refusal := .next (failOver stuck b s)

/-- SWITCH (18 R451): a write of MC_CMD with OP = SWITCH. -/
def execSwitch (m : Master) (p : Fin 2) (s : State) : Host.Outcome State Fault Refusal :=
  .next (onPage (mcPage p.val) 0x704 m (mcCmdWrite p.val m 1 false) s)

/-- STAGE (18 R451): a write of MC_CMD with OP = STAGE. -/
def execStage (m : Master) (p : Fin 2) (s : State) : Host.Outcome State Fault Refusal :=
  .next (onPage (mcPage p.val) 0x704 m (mcCmdWrite p.val m 3 false) s)

/-- REINT (18 R451): a write of MC_CMD with OP = REINT, with the outcome of Temper's test. -/
def execReint (m : Master) (p : Fin 2) (pass : Bool) (s : State) : Host.Outcome State Fault Refusal :=
  .next (onPage (mcPage p.val) 0x704 m (mcCmdWrite p.val m 2 pass) s)

/-- TEMPER_TEST_START (18 R460). -/
def execTemperTestStart (t : TemperTarget) (s : State) : Host.Outcome State Fault Refusal := .next (temperStart (targetRow t) s)

/-- TEMPER_ABORT (18 R461, R466). -/
def execTemperAbort (s : State) : Host.Outcome State Fault Refusal := .next (whileUp 8 serviceAborts s)

/-- TEMPER_TEST_END (18 R462). -/
def execTemperTestEnd (pass : Bool) (s : State) : Host.Outcome State Fault Refusal := .next (whileUp 8 (temperEnds pass) s)

/-- FULL (18 R464): a write of PR_CMD with OP = FULL. -/
def execFull (m : Master) (s : State) : Host.Outcome State Fault Refusal := .next (accessWrite primerPage 0x700 m 0x20000000 s)

/-- INCR (18 R464): a write of PR_CMD with OP = INCR. -/
def execIncr (m : Master) (v : Word) (s : State) : Host.Outcome State Fault Refusal := .next (accessWrite primerPage 0x700 m (setFld v 31 29 2) s)

/-- PRIMER_STOP (18 R466): a write of PR_CMD with OP = STOP. -/
def execPrimerStop (m : Master) (s : State) : Host.Outcome State Fault Refusal := .next (accessWrite primerPage 0x700 m 0x60000000 s)

/-- PRIMER_COMMIT (18 R465), with the constants measured. -/
def execPrimerCommit (consts : List (Nat × Nat × BitVec 32)) (s : State) : Host.Outcome State Fault Refusal :=
  .next (whileUp 8 (primerCommits consts) s)

/-- PROGRAM_LOAD (09 R249, R250). -/
def execProgramLoad (fab : Bool) (slot : Fin 32) (img : Image) (s : State) : Host.Outcome State Fault Refusal :=
  .next (serve fab slot.val (fun n => n == 1) (programLoadService fab slot.val img) s)

/-- UPDATE (18 R457-R459). -/
def execUpdate (fab : Bool) (slot : Fin 32) (img : UpdateImage) (cut : UpdateCut) (s : State) : Host.Outcome State Fault Refusal :=
  .next (serve fab slot.val (fun n => n == 2) (updateService fab slot.val img cut) s)

/-- PRIMER (19 R477). -/
def execPrimer (fab : Bool) (slot : Fin 32) (s : State) : Host.Outcome State Fault Refusal :=
  .next (serve fab slot.val (fun n => n == 3) (primerService fab slot.val) s)

/-- PATINA_CLEAR_SERVICE (16 R422). -/
def execPatinaClearService (fab : Bool) (slot : Fin 32) (s : State) : Host.Outcome State Fault Refusal :=
  .next (serve fab slot.val (fun n => n == 4) (tokenService fab slot.val) s)

/-- PATINA_CMD (19 R477). -/
def execPatinaCmd (fab : Bool) (slot : Fin 32) (s : State) : Host.Outcome State Fault Refusal :=
  .next (serve fab slot.val (fun n => n == 5) (patCmdService fab slot.val) s)

/-- LIFECYCLE (18 R467, R468). -/
def execLifecycle (fab : Bool) (slot : Fin 32) (sigBorindam sigCustomer : Bool) (target : BitVec 2) (fuseKey : Bool) (s : State) : Host.Outcome State Fault Refusal :=
  .next (serve fab slot.val (fun n => n == 6) (lifecycleService fab slot.val sigBorindam sigCustomer target.toNat fuseKey) s)

/-- MC (19 R477). -/
def execMc (fab : Bool) (slot : Fin 32) (pass : Bool) (s : State) : Host.Outcome State Fault Refusal :=
  .next (serve fab slot.val (fun n => n == 7) (mcService fab slot.val pass) s)

/-- MEM_POWER (19 R477). -/
def execMemPower (fab : Bool) (slot : Fin 32) (s : State) : Host.Outcome State Fault Refusal :=
  .next (serve fab slot.val (fun n => n == 8) (memPowerService fab slot.val) s)

/-- DOMAIN_RESET_SERVICE (19 R477). -/
def execDomainResetService (fab : Bool) (slot : Fin 32) (s : State) : Host.Outcome State Fault Refusal :=
  .next (serve fab slot.val (fun n => n == 9) (domainService fab slot.val) s)

/-- TEMPER (19 R477). -/
def execTemper (fab : Bool) (slot : Fin 32) (s : State) : Host.Outcome State Fault Refusal :=
  .next (serve fab slot.val (fun n => n == 10) (temperService fab slot.val) s)

/-- BAD_SERVICE (19 R477). -/
def execBadService (fab : Bool) (slot : Fin 32) (s : State) : Host.Outcome State Fault Refusal :=
  .next (serve fab slot.val (fun n => !listedService n) (slotDone fab slot.val 1 0) s)

end Sys2Proof.Machine
end

