-- ==== Sys2Proof/Machine/CmdHost.lean ====
section
/-! DEFINITION. The host interface, SMBus and JTAG (spec 19). -/

namespace Sys2Proof.Machine

/-- PCIE_READ_REQUEST (19 R474, R475). -/
def execPcieReadRequest (bar : Bar) (off : BitVec 37) (len : BitVec 13) (relaxed : Bool) (tag : BitVec 10) (s : State) : Host.Outcome State Fault Refusal :=
  .next (whileUp 9 (pciRequest bar off.toNat len.toNat false relaxed tag.toNat []) s)

/-- PCIE_WRITE_REQUEST (19 R474, R475). -/
def execPcieWriteRequest (bar : Bar) (off : BitVec 37) (data : List Byte) (s : State) : Host.Outcome State Fault Refusal :=
  .next (whileUp 9 (pciRequest bar off.toNat data.length true false 0 data) s)

/-- FUNCTION_LEVEL_RESET (19 R475). -/
def execFunctionLevelReset (s : State) : Host.Outcome State Fault Refusal := .next (functionReset s)

/-- PCI_DB_WRITE (19 R476, R480). -/
def execPciDbWrite (m : Master) (v : Word) (s : State) : Host.Outcome State Fault Refusal := .next (accessWrite pciePage 0x704 m v s)

/-- FB_SVCDB_WRITE (19 R478; 13 R350), with the node a PG_WR comes from. -/
def execFbSvcdbWrite (m : Master) (src : BitVec 16) (v : Word) (s : State) : Host.Outcome State Fault Refusal := .next (svcdbWrite m src.toNat v s)

/-- MSIX_UNMASK (19 R479). -/
def execMsixUnmask (vec : Byte) (s : State) : Host.Outcome State Fault Refusal := .next (whileUp 9 (msixUnmasked vec.toNat) s)

/-- PCIE_LINK_UP (13 R341; 19 R480). -/
def execPcieLinkUp (width : BitVec 4) (speed : BitVec 4) (flit : Bool) (s : State) : Host.Outcome State Fault Refusal :=
  .next (linkUp width.toNat speed.toNat flit s)

/-- SMBUS_STATUS_READ (19 R481 command 0x01). -/
def execSmbusStatusRead (s : State) : Host.Outcome State Fault Refusal := .next (smbusStatusAnswer s)

/-- SMBUS_TEMPERATURE_READ (19 R481 command 0x02). -/
def execSmbusTemperatureRead (s : State) : Host.Outcome State Fault Refusal := .next (smbusTempAnswer s)

/-- SMBUS_POWER_READ (19 R481 command 0x03). -/
def execSmbusPowerRead (s : State) : Host.Outcome State Fault Refusal := .next (smbusPowerAnswer s)

/-- SMBUS_REGISTER_READ (19 R481 command 0x10); inTime tells whether the firmware serves it within 1 ms. -/
def execSmbusRegisterRead (addr : Word) (inTime : Bool) (s : State) : Host.Outcome State Fault Refusal := .next (smbusRegister addr.toNat inTime s)

/-- SMBUS_ESTOP (19 R481 command 0x11). -/
def execSmbusEstop (data : List Byte) (s : State) : Host.Outcome State Fault Refusal := .next (smbusStop data s)

/-- SMBUS_PEC_ERROR (19 R481): a write with a wrong PEC byte, or one that stops before it. -/
def execSmbusPecError (stopped : Bool) (s : State) : Host.Outcome State Fault Refusal := .next (smbusBadPec stopped s)

/-- SMBUS_CLOCK_LOW_TIMEOUT (19 R481): the target abandons the transfer, of which nothing has taken effect; a write stops before its PEC. -/
def execSmbusClockLowTimeout (write : Bool) (s : State) : Host.Outcome State Fault Refusal := .next (if write then smbusDiscard s else s)

/-- SMBUS_ALERT_RESPONSE (19 R481). -/
def execSmbusAlertResponse (s : State) : Host.Outcome State Fault Refusal := .next (smbusAlertAnswer s)

/-- JTAG_INSTRUCTION_LOAD (19 R484). -/
def execJtagInstructionLoad (i : TapInstr) (s : State) : Host.Outcome State Fault Refusal := .next (tapLoad i s)

/-- JTAG_TEST_LOGIC_RESET (19 R484). -/
def execJtagTestLogicReset (s : State) : Host.Outcome State Fault Refusal := .next (tapReset s)

end Sys2Proof.Machine
end

