-- ==== Sys2Proof/Machine/Dispatch.lean ====
section
/-! DEFINITION. Each command of the table goes to its meaning. -/

namespace Sys2Proof.Machine

def exec (i : Instr) (s : State) : Host.Outcome State Fault Refusal :=
  match i with
  | .domainLoss d c => Sys2Proof.Machine.execDomainLoss d c s
  | .strokeBoundary k => Sys2Proof.Machine.execStrokeBoundary k s
  | .symbolDelivery c => Sys2Proof.Machine.execSymbolDelivery c s
  | .creditReturn c => Sys2Proof.Machine.execCreditReturn c s
  | .streamStopReachesLane c => Sys2Proof.Machine.execStreamStopReachesLane c s
  | .modeChange c m v => Sys2Proof.Machine.execModeChange c m v s
  | .modeChangeIntervalEnd c => Sys2Proof.Machine.execModeChangeIntervalEnd c s
  | .pmuRampEnd c => Sys2Proof.Machine.execPmuRampEnd c s
  | .functionSwitchTimerExpiry c => Sys2Proof.Machine.execFunctionSwitchTimerExpiry c s
  | .srcChangeInLane c => Sys2Proof.Machine.execSrcChangeInLane c s
  | .pmuTrigger c m v => Sys2Proof.Machine.execPmuTrigger c m v s
  | .pmuSamplingStart c => Sys2Proof.Machine.execPmuSamplingStart c s
  | .pmuMeasurementDone c sum ovr => Sys2Proof.Machine.execPmuMeasurementDone c sum ovr s
  | .clampOnset c => Sys2Proof.Machine.execClampOnset c s
  | .tdcCrossing c ofs thr falling => Sys2Proof.Machine.execTdcCrossing c ofs thr falling s
  | .tdcPop c m v => Sys2Proof.Machine.execTdcPop c m v s
  | .rcReadClear page off m => Sys2Proof.Machine.execRcReadClear page off m s
  | .registerWrite page off m v => Sys2Proof.Machine.execRegisterWrite page off m v s
  | .clSperWrite k hi m v => Sys2Proof.Machine.execClSperWrite k hi m v s
  | .timebaseEnable k m => Sys2Proof.Machine.execTimebaseEnable k m s
  | .timebaseDisable k m => Sys2Proof.Machine.execTimebaseDisable k m s
  | .strokeCountRead k m => Sys2Proof.Machine.execStrokeCountRead k m s
  | .paletteEvent c volts strayed => Sys2Proof.Machine.execPaletteEvent c volts strayed s
  | .compareResultArrival c => Sys2Proof.Machine.execCompareResultArrival c s
  | .palRead l m => Sys2Proof.Machine.execPalRead l m s
  | .palWrite l m => Sys2Proof.Machine.execPalWrite l m s
  | .palCommandDone l => Sys2Proof.Machine.execPalCommandDone l s
  | .bundleIssue e err => Sys2Proof.Machine.execBundleIssue e err s
  | .repeatIteration e err => Sys2Proof.Machine.execRepeatIteration e err s
  | .delayExpiry e => Sys2Proof.Machine.execDelayExpiry e s
  | .unitResultWriteback e unit => Sys2Proof.Machine.execUnitResultWriteback e unit s
  | .storeAcknowledge e => Sys2Proof.Machine.execStoreAcknowledge e s
  | .storeBusError e kind => Sys2Proof.Machine.execStoreBusError e kind s
  | .emitWaitFault e err => Sys2Proof.Machine.execEmitWaitFault e err s
  | .asynchronousEntry e err => Sys2Proof.Machine.execAsynchronousEntry e err s
  | .interruptEntry e err => Sys2Proof.Machine.execInterruptEntry e err s
  | .residueError e parity sock => Sys2Proof.Machine.execResidueError e parity sock s
  | .threadEnable l m t => Sys2Proof.Machine.execThreadEnable l m t s
  | .threadDisable l m t => Sys2Proof.Machine.execThreadDisable l m t s
  | .addressHistoryLookup c => Sys2Proof.Machine.execAddressHistoryLookup c s
  | .microwordExecute q ecc => Sys2Proof.Machine.execMicrowordExecute q ecc s
  | .microwordWaitTimeout q => Sys2Proof.Machine.execMicrowordWaitTimeout q s
  | .sketchResultsReady l => Sys2Proof.Machine.execSketchResultsReady l s
  | .sketchWatchdogExpiry l => Sys2Proof.Machine.execSketchWatchdogExpiry l s
  | .begin st m v => Sys2Proof.Machine.execBegin st m v s
  | .loadDataWrite st m v => Sys2Proof.Machine.execLoadDataWrite st m v s
  | .commit st m => Sys2Proof.Machine.execCommit st m s
  | .commitComplete st version => Sys2Proof.Machine.execCommitComplete st version s
  | .abort st m => Sys2Proof.Machine.execAbort st m s
  | .patrolScrubRead t o => Sys2Proof.Machine.execPatrolScrubRead t o s
  | .ecOperationComplete p => Sys2Proof.Machine.execEcOperationComplete p s
  | .anvilReportReceived => Sys2Proof.Machine.execAnvilReportReceived s
  | .queueDataArrival e ecc => Sys2Proof.Machine.execQueueDataArrival e ecc s
  | .expectedMarkCheck k => Sys2Proof.Machine.execExpectedMarkCheck k s
  | .markMismatchStopArrival c => Sys2Proof.Machine.execMarkMismatchStopArrival c s
  | .failPipelineTakeEvent k lp => Sys2Proof.Machine.execFailPipelineTakeEvent k lp s
  | .recordCloseTimeout k lp => Sys2Proof.Machine.execRecordCloseTimeout k lp s
  | .bufferRequest k => Sys2Proof.Machine.execBufferRequest k s
  | .bufferDone k => Sys2Proof.Machine.execBufferDone k s
  | .siteCounterUpdate l => Sys2Proof.Machine.execSiteCounterUpdate l s
  | .init k m => Sys2Proof.Machine.execInit k m s
  | .flush k m => Sys2Proof.Machine.execFlush k m s
  | .flushComplete k => Sys2Proof.Machine.execFlushComplete k s
  | .ovclr k m => Sys2Proof.Machine.execOvclr k m s
  | .clFreeWrite k m v => Sys2Proof.Machine.execClFreeWrite k m v s
  | .clDonePopWrite k m v => Sys2Proof.Machine.execClDonePopWrite k m v s
  | .siteCounterSelect k m site => Sys2Proof.Machine.execSiteCounterSelect k m site s
  | .siteCounterClear k m site => Sys2Proof.Machine.execSiteCounterClear k m site s
  | .weldRecord k => Sys2Proof.Machine.execWeldRecord k s
  | .start k m => Sys2Proof.Machine.execStart k m s
  | .weldStartComplete k => Sys2Proof.Machine.execWeldStartComplete k s
  | .stop k m => Sys2Proof.Machine.execStop k m s
  | .solve k m site => Sys2Proof.Machine.execSolve k m site s
  | .weldSolveRegion k exceeded => Sys2Proof.Machine.execWeldSolveRegion k exceeded s
  | .clear k m site => Sys2Proof.Machine.execClear k m site s
  | .weldReplay k m v => Sys2Proof.Machine.execWeldReplay k m v s
  | .weldSummarySelect k m site => Sys2Proof.Machine.execWeldSummarySelect k m site s
  | .matrixTransaction m id write addr data => Sys2Proof.Machine.execMatrixTransaction m id write addr data s
  | .matrixResponse n a => Sys2Proof.Machine.execMatrixResponse n a s
  | .matrixTimeout n => Sys2Proof.Machine.execMatrixTimeout n s
  | .memoryPowerRequest off m v => Sys2Proof.Machine.execMemoryPowerRequest off m v s
  | .memoryPowerTransitionDone r => Sys2Proof.Machine.execMemoryPowerTransitionDone r s
  | .secureWipeStart c => Sys2Proof.Machine.execSecureWipeStart c s
  | .secureWipeComplete => Sys2Proof.Machine.execSecureWipeComplete s
  | .mramLineProgrammed bank => Sys2Proof.Machine.execMramLineProgrammed bank s
  | .remap m => Sys2Proof.Machine.execRemap m s
  | .go c m v => Sys2Proof.Machine.execGo c m v s
  | .tongsTransferEnd c => Sys2Proof.Machine.execTongsTransferEnd c s
  | .tongsAbort c m => Sys2Proof.Machine.execTongsAbort c m s
  | .hang m v => Sys2Proof.Machine.execHang m v s
  | .hangDecision fabric => Sys2Proof.Machine.execHangDecision fabric s
  | .hangPageSwitch slot page => Sys2Proof.Machine.execHangPageSwitch slot page s
  | .cancel m v => Sys2Proof.Machine.execCancel m v s
  | .copy m v => Sys2Proof.Machine.execCopy m v s
  | .copyComplete => Sys2Proof.Machine.execCopyComplete s
  | .snapshotStart m v => Sys2Proof.Machine.execSnapshotStart m v s
  | .snapshotCapture err => Sys2Proof.Machine.execSnapshotCapture err s
  | .snapshotComplete err => Sys2Proof.Machine.execSnapshotComplete err s
  | .portTrainingComplete p nbr nport => Sys2Proof.Machine.execPortTrainingComplete p nbr nport s
  | .portFault p => Sys2Proof.Machine.execPortFault p s
  | .retrain p m => Sys2Proof.Machine.execRetrain p m s
  | .frameReceive p wire fec => Sys2Proof.Machine.execFrameReceive p wire fec s
  | .linkControlBlockSend p => Sys2Proof.Machine.execLinkControlBlockSend p s
  | .linkControlBlockReceive p b fec => Sys2Proof.Machine.execLinkControlBlockReceive p b fec s
  | .rdReq => Sys2Proof.Machine.execRdReq s
  | .wrReq => Sys2Proof.Machine.execWrReq s
  | .pgRd => Sys2Proof.Machine.execPgRd s
  | .pgWr => Sys2Proof.Machine.execPgWr s
  | .brdReq => Sys2Proof.Machine.execBrdReq s
  | .bwrReq => Sys2Proof.Machine.execBwrReq s
  | .rsp => Sys2Proof.Machine.execRsp s
  | .disc => Sys2Proof.Machine.execDisc s
  | .discRsp => Sys2Proof.Machine.execDiscRsp s
  | .assign => Sys2Proof.Machine.execAssign s
  | .assignRsp => Sys2Proof.Machine.execAssignRsp s
  | .tsync arrival => Sys2Proof.Machine.execTsync arrival s
  | .tsyncSend p => Sys2Proof.Machine.execTsyncSend p s
  | .hangBc => Sys2Proof.Machine.execHangBc s
  | .hangCancel => Sys2Proof.Machine.execHangCancel s
  | .hangRpl => Sys2Proof.Machine.execHangRpl s
  | .notice => Sys2Proof.Machine.execNotice s
  | .fbNodeWrite m v => Sys2Proof.Machine.execFbNodeWrite m v s
  | .fbrtDataAccess m wr => Sys2Proof.Machine.execFbrtDataAccess m wr s
  | .transactionRingProduce m v => Sys2Proof.Machine.execTransactionRingProduce m v s
  | .transactionIssue => Sys2Proof.Machine.execTransactionIssue s
  | .transactionTimeout tag => Sys2Proof.Machine.execTransactionTimeout tag s
  | .send m v => Sys2Proof.Machine.execSend m v s
  | .emergencyBlockReceive p lanes => Sys2Proof.Machine.execEmergencyBlockReceive p lanes s
  | .timeHoldover => Sys2Proof.Machine.execTimeHoldover s
  | .ftSet m => Sys2Proof.Machine.execFtSet m s
  | .ftPpsEdge => Sys2Proof.Machine.execFtPpsEdge s
  | .pgIrqSetWrite page m v => Sys2Proof.Machine.execPgIrqSetWrite page m v s
  | .pgFaultAckWrite page m v => Sys2Proof.Machine.execPgFaultAckWrite page m v s
  | .wmHitsClear page n m v => Sys2Proof.Machine.execWmHitsClear page n m v s
  | .msixMessage page => Sys2Proof.Machine.execMsixMessage page s
  | .energyEvaluation c mV uA => Sys2Proof.Machine.execEnergyEvaluation c mV uA s
  | .overvoltDwellExpiry c volts => Sys2Proof.Machine.execOvervoltDwellExpiry c volts s
  | .clampLimitExpiry c => Sys2Proof.Machine.execClampLimitExpiry c s
  | .quenchRelease t hi m v volts => Sys2Proof.Machine.execQuenchRelease t hi m v volts s
  | .emstopPinAssert p => Sys2Proof.Machine.execEmstopPinAssert p s
  | .estop m v => Sys2Proof.Machine.execEstop m v s
  | .emergencyLatchClear m v => Sys2Proof.Machine.execEmergencyLatchClear m v s
  | .tripPathDisagree c => Sys2Proof.Machine.execTripPathDisagree c s
  | .coverageMonitorCheck w deviates => Sys2Proof.Machine.execCoverageMonitorCheck w deviates s
  | .anvAckWrite m v => Sys2Proof.Machine.execAnvAckWrite m v s
  | .anvCloseWrite m v => Sys2Proof.Machine.execAnvCloseWrite m v s
  | .patinaEventIntake ev => Sys2Proof.Machine.execPatinaEventIntake ev s
  | .patinaRecordWrite => Sys2Proof.Machine.execPatinaRecordWrite s
  | .ptSubmitWrite m v => Sys2Proof.Machine.execPtSubmitWrite m v s
  | .tokenGain code sameCycle => Sys2Proof.Machine.execTokenGain code sameCycle s
  | .patinaFlushStart => Sys2Proof.Machine.execPatinaFlushStart s
  | .patinaFlushComplete => Sys2Proof.Machine.execPatinaFlushComplete s
  | .patinaFlush m => Sys2Proof.Machine.execPatinaFlush m s
  | .freeze m => Sys2Proof.Machine.execFreeze m s
  | .thaw m => Sys2Proof.Machine.execThaw m s
  | .patinaClear m => Sys2Proof.Machine.execPatinaClear m s
  | .ptRlcfgWrite m v => Sys2Proof.Machine.execPtRlcfgWrite m v s
  | .opsecTick => Sys2Proof.Machine.execOpsecTick s
  | .powerOnReset b => Sys2Proof.Machine.execPowerOnReset b s
  | .deviceReset b => Sys2Proof.Machine.execDeviceReset b s
  | .device m v => Sys2Proof.Machine.execDevice m v s
  | .domainReset m v b => Sys2Proof.Machine.execDomainReset m v b s
  | .domainRestart d ok => Sys2Proof.Machine.execDomainRestart d ok s
  | .pcieReset r => Sys2Proof.Machine.execPcieReset r s
  | .devBootdbWrite m v verdict b => Sys2Proof.Machine.execDevBootdbWrite m v verdict b s
  | .bellowsStart railMonitor => Sys2Proof.Machine.execBellowsStart railMonitor s
  | .jdone m v => Sys2Proof.Machine.execJdone m v s
  | .journalWindowExpiry => Sys2Proof.Machine.execJournalWindowExpiry s
  | .bellowsStop => Sys2Proof.Machine.execBellowsStop s
  | .brownoutRestart b => Sys2Proof.Machine.execBrownoutRestart b s
  | .hbmRetrain t m v => Sys2Proof.Machine.execHbmRetrain t m v s
  | .thermalWarn sensor temp => Sys2Proof.Machine.execThermalWarn sensor temp s
  | .thermalTrip sensor temp => Sys2Proof.Machine.execThermalTrip sensor temp s
  | .thermalRecovery temps => Sys2Proof.Machine.execThermalRecovery temps s
  | .failover stuck b => Sys2Proof.Machine.execFailover stuck b s
  | .switch m p => Sys2Proof.Machine.execSwitch m p s
  | .stage m p => Sys2Proof.Machine.execStage m p s
  | .reint m p pass => Sys2Proof.Machine.execReint m p pass s
  | .temperTestStart t => Sys2Proof.Machine.execTemperTestStart t s
  | .temperAbort => Sys2Proof.Machine.execTemperAbort s
  | .temperTestEnd pass => Sys2Proof.Machine.execTemperTestEnd pass s
  | .full m => Sys2Proof.Machine.execFull m s
  | .incr m v => Sys2Proof.Machine.execIncr m v s
  | .primerStop m => Sys2Proof.Machine.execPrimerStop m s
  | .primerCommit consts => Sys2Proof.Machine.execPrimerCommit consts s
  | .pcieReadRequest bar off len relaxed tag => Sys2Proof.Machine.execPcieReadRequest bar off len relaxed tag s
  | .pcieWriteRequest bar off data => Sys2Proof.Machine.execPcieWriteRequest bar off data s
  | .functionLevelReset => Sys2Proof.Machine.execFunctionLevelReset s
  | .pciDbWrite m v => Sys2Proof.Machine.execPciDbWrite m v s
  | .fbSvcdbWrite m src v => Sys2Proof.Machine.execFbSvcdbWrite m src v s
  | .programLoad fab slot img => Sys2Proof.Machine.execProgramLoad fab slot img s
  | .update fab slot img cut => Sys2Proof.Machine.execUpdate fab slot img cut s
  | .primer fab slot => Sys2Proof.Machine.execPrimer fab slot s
  | .patinaClearService fab slot => Sys2Proof.Machine.execPatinaClearService fab slot s
  | .patinaCmd fab slot => Sys2Proof.Machine.execPatinaCmd fab slot s
  | .lifecycle fab slot sigBorindam sigCustomer target fuseKey => Sys2Proof.Machine.execLifecycle fab slot sigBorindam sigCustomer target fuseKey s
  | .mc fab slot pass => Sys2Proof.Machine.execMc fab slot pass s
  | .memPower fab slot => Sys2Proof.Machine.execMemPower fab slot s
  | .domainResetService fab slot => Sys2Proof.Machine.execDomainResetService fab slot s
  | .temper fab slot => Sys2Proof.Machine.execTemper fab slot s
  | .badService fab slot => Sys2Proof.Machine.execBadService fab slot s
  | .msixUnmask vec => Sys2Proof.Machine.execMsixUnmask vec s
  | .smbusStatusRead => Sys2Proof.Machine.execSmbusStatusRead s
  | .smbusTemperatureRead => Sys2Proof.Machine.execSmbusTemperatureRead s
  | .smbusPowerRead => Sys2Proof.Machine.execSmbusPowerRead s
  | .smbusRegisterRead addr inTime => Sys2Proof.Machine.execSmbusRegisterRead addr inTime s
  | .smbusEstop data => Sys2Proof.Machine.execSmbusEstop data s
  | .smbusPecError stopped => Sys2Proof.Machine.execSmbusPecError stopped s
  | .jtagInstructionLoad ti => Sys2Proof.Machine.execJtagInstructionLoad ti s
  | .jtagTestLogicReset => Sys2Proof.Machine.execJtagTestLogicReset s
  | .clampRelease c long => Sys2Proof.Machine.execClampRelease c long s
  | .watermarkPeriodicSample page n => Sys2Proof.Machine.execWatermarkPeriodicSample page n s
  | .domainPowerGoodReturn d => Sys2Proof.Machine.execDomainPowerGoodReturn d s
  | .pcieLinkUp width speed flit => Sys2Proof.Machine.execPcieLinkUp width speed flit s
  | .hbmTrainingComplete t ok => Sys2Proof.Machine.execHbmTrainingComplete t ok s
  | .bellowsCapCharged uF volts49 => Sys2Proof.Machine.execBellowsCapCharged uF volts49 s
  | .holdUpExhausted => Sys2Proof.Machine.execHoldUpExhausted s
  | .portPartnerPresent p => Sys2Proof.Machine.execPortPartnerPresent p s
  | .ftPpsOutPulse => Sys2Proof.Machine.execFtPpsOutPulse s
  | .thermalWarnClear temps => Sys2Proof.Machine.execThermalWarnClear temps s
  | .smbusClockLowTimeout write => Sys2Proof.Machine.execSmbusClockLowTimeout write s
  | .smbusAlertResponse => Sys2Proof.Machine.execSmbusAlertResponse s

end Sys2Proof.Machine
end

