-- ==== Sys2Proof/Machine/Step.lean ====
section
/-! DEFINITION. One step of the block: the command at the front of the queue, or the passing of time. -/

namespace Sys2Proof.Machine

/-- The state with a command at the front of its queue. -/
def State.enqueue (i : Instr) (s : State) : State := { s with pending := i :: s.pending }

/-- One step: exec of the command at the front of the queue on the state with the queue's rest. On an empty queue the block
idles for one unit of 2^-16 ns (log 2). -/
def step (s : State) : Host.Outcome State Fault Refusal :=
  match s.pending with
  | [] => .next (idleStep s)
  | i :: rest => exec i { s with pending := rest }

/-- The state with the command a word spells put at the front of its queue; unchanged where it spells none. -/
def State.withFetchWord (s : State) (nbits w : Nat) : State :=
  match decodeTableWord nbits w with
  | some i => s.enqueue i
  | none => s

end Sys2Proof.Machine
end

