-- ==== Sys2Proof/Safety.lean ====
section
/-! DEFINITION. What counts as safe, in the terms that statements use: what no command may do to the state, whatever it
is and whatever state it meets. -/

namespace Sys2Proof.Machine

/-- A channel that Quench holds (15 R393) is in HIZ or PARK, drives no level and measures nothing, and no event of the stroke in
progress would drive one. -/
def Quiet (x : Chan) : Prop :=
  x.held = true → (x.func = .hiz ∨ x.func = .park) ∧ x.drive = none ∧ x.pmu = .idle ∧ ∀ st, x.stroke = some st → ∀ e ∈ st.events, e.kind ≠ 1

/-- An engine is in Work, Fault or Service mode, and only a management pair is ever in Service mode (08 R212). -/
def ModeLegal (k : Nat) (e : Engine) : Prop := e.mode ≤ 2 ∧ (e.mode = 2 → 1024 ≤ k)

/-- The state t came from s by effects that leave the queue alone, never bring the lifecycle (18 R467) or a fuse back, use the
free values forward (log 8), only add to what the device has sent out (log 9), keep the memory's canonical form (log 5), leave
held channels quiet and leave every engine in a mode of its own. -/
structure Keeps (s t : State) : Prop where
  pending : t.pending = s.pending
  lifecycle : s.lifecycle ≤ t.lifecycle
  key : s.keyFused = true → t.keyFused = true
  free : s.free ≤ t.free
  outbox : ∃ sent, t.outbox = sent ++ s.outbox
  mem : Memory.wf s.mem = true → Memory.wf t.mem = true
  quiet : (∀ c, Quiet (chan s c)) → ∀ c, Quiet (chan t c)
  mode : (∀ k, ModeLegal k (eng s k)) → ∀ k, ModeLegal k (eng t k)

/-- A page that is mapped, of a domain that is up, that shows READY (14 R373) and takes writes from the master, which has a path to it
(11 R291); the block that holds it is not in use by Temper or Primer, whose use an access ends first (18 R461). -/
def Takes (s : State) (page : Nat) (m : Master) : Prop :=
  pathOk m .regs = true ∧ pageError s page = none ∧ disturbs page m s = false
    ∧ ∀ x ∈ pageAt page, pageRejects s x m = false ∧ domReady s (pageDomain x) = true

/-- The state t differs from s in nothing but registers, and in what the pages' interrupts, watermarks and fault reports follow
from them (14 R374-R383). -/
def PageOnly (s t : State) : Prop :=
  t = { s with regs := t.regs, irqOut := t.irqOut, msixDue := t.msixDue, reports := t.reports, wms := t.wms }

/-- Every register but the listed ones, by page and offset, reads from its role as before. -/
def RegsKept (s t : State) (l : List (Nat × Nat)) : Prop :=
  ∀ e page off, page < 2 ^ 14 → off < 2 ^ 12 → (page, off) ∉ l → rdRole t e page off = rdRole s e page off

/-- What a live write of v makes of a register of a page kind that held old (00 R10, R13). -/
def written (k : Kind) (off : Nat) (old v : Word) : Word :=
  match findReg (regsOf k) off with
  | some r => (mergeWord r.fields old v).1
  | none => old

/-- A register exists and no field of the word written holds a reserved encoding (00 R13). -/
def Legal (k : Kind) (off : Nat) (v : Word) : Prop :=
  ∃ r, findReg (regsOf k) off = some r ∧ wordValid r.fields v = true ∧ woInvalid r.fields v = false

end Sys2Proof.Machine
end

