-- ==== Sys2Proof/Certificates/Slice0/Obligations.lean ====
section
/-! DEFINITION. The statements for the provers, from the numbered rules of the spec and from what the model must keep. -/

open Sys2Proof Sys2Proof.Machine

/-- O1. A step runs the command at the front of the queue, on the state with the queue's rest (rests on 95_what_each_step_holds.md (the commands)). -/
def Obligations.StepRunsTheFrontOfTheQueue : Prop :=
  ∀ (c : Instr) (rest : List Instr) (s : State),
    (s.pending = c :: rest → step s = exec c { s with pending := rest }) ∧ step (State.enqueue c s) = exec c s

/-- O2. On an empty queue the block idles: Fabric Time advances by its unit, and what runs by itself goes on (the model's choice, log 2) (rests on 13_amibin_fabric.md (Fabric Time)). -/
def Obligations.EmptyQueueLetsTimePass : Prop :=
  ∀ s : State, s.pending = [] → step s = .next (idleStep s) ∧
    (s.fabric.slew = 0 → firmwareRuns s = false → step s = .next { s with now := s.now + 1 }) ∧
    (firmwareRuns s = false → s.now ≤ (idleStep s).now ∧ (idleStep s).now ≤ s.now + 2 ∧ (idleStep s).fabric.slew.natAbs ≤ s.fabric.slew.natAbs ∧
      (99999 ≤ s.fabric.slewTicks → 0 < s.fabric.slew → (idleStep s).now = s.now ∧ (idleStep s).fabric.slew = s.fabric.slew - 1) ∧
      (99999 ≤ s.fabric.slewTicks → s.fabric.slew < 0 → (idleStep s).now = s.now + 2 ∧ (idleStep s).fabric.slew = s.fabric.slew + 1))

/-- O3. What travels between a lane and a channel's FIFO takes effect oldest first, each in one way (rests on 01_organisation.md (the stroke FIFO), 02_pin_channel.md (symbol source), 03_strokes_and_palette.md (streams)). -/
def Obligations.SymbolsCreditsAndSourcesTravelInOrder : Prop :=
  ∀ (c : Ch) (s : State),
    (∀ g gs, domLost s (tileOf c.val) = false → (chan s c.val).emits = g :: gs →
      (g.slice = false → exec (.symbolDelivery c) s = .next (setChan c.val { chan s c.val with
        emits := gs, fifo := if (chan s c.val).stream = .idle then (chan s c.val).fifo else (chan s c.val).fifo ++ g.syms } s)) ∧
      (g.slice = true → ∃ t, exec (.symbolDelivery c) s = .next t ∧ t = { s with chans := t.chans } ∧
        (∀ d, laneOf d = laneOf c.val → chan t d = arrive (emitsThrough g.id (chan s d).emits) (chan s d)) ∧
        ∀ d, laneOf d ≠ laneOf c.val → chan t d = chan s d)) ∧
    (∀ n, lanesUp s = true → (chan s c.val).creditsBack = n + 1 →
      exec (.creditReturn c) s = .next (setChan c.val { chan s c.val with
        creditsBack := n, credit := (chan s c.val).credit + (chan s c.val).laneStream.toNat } s)) ∧
    (lanesUp s = true → (chan s c.val).stopOnWay = true →
      exec (.streamStopReachesLane c) s = .next (setChan c.val { chan s c.val with stopOnWay := false, laneStream := false, credit := 0 } s)) ∧
    (∀ b bs, lanesUp s = true → (chan s c.val).laneSrcNext = b :: bs →
      exec (.srcChangeInLane c) s = .next (setChan c.val { chan s c.val with laneSrc := b, laneSrcNext := bs } s))

/-- O4. A valid write that changes MODE of an idle channel starts 2 µs of HIZ; while strokes run the old value stays in force to the boundary (rests on 02_pin_channel.md (modes, signalling and levels), 02_pin_channel.md (site membership and write timing)). -/
def Obligations.ModeChangeTakesTwoMicroseconds : Prop :=
  ∀ (c : Ch) (m : Master) (v w : Word) (s u : State), Takes s (chPage c.val) m → Legal .ch 0x100 v → u = copyBefore (chPage c.val) s →
    w = written .ch 0x100 (rdReg u (chPage c.val) 0x100) v → chanWriteValid u c.val 0x100 w = true →
    (strokesRun u c.val = false → (chan u c.val).held = false → (chan u c.val).runToggled = false →
      bit w 8 ≠ bit (inForce u (chPage c.val) 0x100) 8 →
      bit (inForce u (chPage c.val) 0x240) 0 = bit (rdReg u (chPage c.val) 0x240) 0 →
      exec (.modeChange c m v) s = .next (setChan c.val { chan (holdForce c.val u) c.val with
        phase := .modeChange (u.now + 2 * us), func := .hiz, drive := none, window := none,
        laneSrcNext := (chan u c.val).laneSrcNext ++ (if bit (rdReg u (chPage c.val) 0x100) 4 = bit w 4 then [] else [bit w 4]) }
        (wrReg (chPage c.val) 0x100 w u))) ∧
    (strokesRun u c.val = true →
      ∃ t, exec (.modeChange c m v) s = .next t ∧ rdReg t (chPage c.val) 0x100 = w ∧
        inForce t (chPage c.val) 0x100 = inForce u (chPage c.val) 0x100 ∧
        chan t c.val = { chan u c.val with laneSrcNext := (chan u c.val).laneSrcNext ++ (if bit (rdReg u (chPage c.val) 0x100) 4 = bit w 4 then [] else [bit w 4]) } ∧
        RegsKept u t [(chPage c.val, 0x100)] ∧ t.mem = u.mem ∧ t.now = u.now ∧ ∀ d, d ≠ c.val → chan t d = chan u d)

/-- O5. Mode-change interval, ramp, B0 and B1 of a function switch, with strokes running or not, end in the function Canvas holds (rests on 02_pin_channel.md (switching function), 15_quench_and_fault_coverage.md (release)). -/
def Obligations.FunctionSwitchEndsInTheCanvasFunction : Prop :=
  ∀ (c : Ch) (s : State), domLost s (tileOf c.val) = false →
    (∀ e, (chan s c.val).phase = .modeChange e ∨ (chan s c.val).phase = .holdTimer e →
      ∀ x : Chan, x = { chan s c.val with
        func := funcOf (rdReg s (chPage c.val) 0x100), phase := .steady, drive := none, window := none, held := false,
        cause := setBit (chan s c.val).cause 31 (bit (chan s c.val).cause 31 && !(chan s c.val).held) } →
      ∀ u, u = setChan c.val x (reach e s) →
      exec (if (chan s c.val).phase = .modeChange e then .modeChangeIntervalEnd c else .functionSwitchTimerExpiry c) s =
        .next ((if (chan s c.val).held then raiseBit (tqPage (tileOf c.val)) 1 else id) (raiseBit (chPage c.val) 4
          (if pmuOn u c.val && fvMode (pmode u c.val) then
            setChan c.val { x with rampFrom := 200 * freeContact u, rampAt := u.now } { u with free := u.free + 1 } else u)))) ∧
    ((chan s c.val).phase = .ramp → ∀ u, u = reach ((chan s c.val).rampAt + (200 * dl4 s c.val - (chan s c.val).rampFrom).natAbs) s →
      (strokesRun s c.val = true → exec (.pmuRampEnd c) s = .next (setChan c.val { chan s c.val with phase := .toB0 } u)) ∧
      (strokesRun s c.val = false → exec (.pmuRampEnd c) s = .next (setChan c.val { chan s c.val with
        phase := .holdTimer (u.now + us), window := none, drive := none, tdcArmed := none } u))) ∧
    (bit (inForce s (chPage c.val) 0x100) 8 = bit (rdReg s (chPage c.val) 0x100) 8 → ∀ x : Chan, x = chan (channelEdge c.val s) c.val →
      ((chan s c.val).phase = .toB0 → ∃ b, s.now ≤ b ∧ x.phase = .hold b 2 ∧ x.drive = none ∧ x.window = none) ∧
      (∀ b n, (chan s c.val).phase = .hold b n → 2 ≤ n → x.phase = .hold b (n - 1)) ∧
      (∀ b n, (chan s c.val).phase = .hold b n → n ≤ 1 → x.phase = .steady ∧ x.func = funcOf (rdReg s (chPage c.val) 0x100) ∧
        x.drive = none ∧ x.window = none ∧ x.held = false ∧ bit (rdReg (channelEdge c.val s) (chPage c.val) 0x010) 4 = true))

/-- O6. A PMU trigger starts a measurement only on an idle PMU in the PMU function; a busy one ignores it, another function rejects it (rests on 02_pin_channel.md (parametric measurement unit)). -/
def Obligations.PmuTriggerStartsOneMeasurement : Prop :=
  ∀ (c : Ch) (m : Master) (v : Word) (s : State), Takes s (chPage c.val) m → bit v 0 = true →
    ((chan s c.val).func = .pmu → (chan s c.val).pmu ≠ .idle → exec (.pmuTrigger c m v) s = .next s ∧ pmuEvent c.val s = s) ∧
    ((chan s c.val).func ≠ .pmu →
      ∃ t, exec (.pmuTrigger c m v) s = .next t ∧ bit (rdReg t (chPage c.val) 0x010) 5 = true ∧
        (bit (rdReg s (chPage c.val) 0x020) 31 = false → rdReg t (chPage c.val) 0x020 = syndrome fREJECT 0x704 (masterCode m)) ∧
        PageOnly s t ∧ RegsKept s t [(chPage c.val, 0x010), (chPage c.val, 0x020)]) ∧
    (bit (inForce s (chPage c.val) 0x150) 14 = false → pmuEvent c.val s = s ∧
      ∀ y : Symbol, wordOk (palWord s c.val y.sym.toNat) = true →
        (∀ e ∈ wordEvents s c.val (palWord s c.val y.sym.toNat) ((chan s c.val).func == .driveCompare), e.kind = 6) →
        (palStroke c.val y s).regs = s.regs ∧ ∀ st, (chan (palStroke c.val y s) c.val).stroke = some st → st.result.getLsbD 20 = false ∧ st.late = false) ∧
    (bit (inForce s (chPage c.val) 0x150) 14 = true → (chan s c.val).func ≠ .pmu →
      PageOnly s (pmuEvent c.val s) ∧ RegsKept s (pmuEvent c.val s) [(chPage c.val, 0x020)] ∧
        (bit (rdReg s (chPage c.val) 0x020) 31 = false → rdReg (pmuEvent c.val s) (chPage c.val) 0x020 = syndrome fEVENT 0x704 0)) ∧
    ((chan s c.val).pmu ≠ .idle → ∀ old was b, (chan (startSwitch c.val old was b s) c.val).pmu = .idle ∧
      bit (rdReg (startSwitch c.val old was b s) (chPage c.val) 0x708) 31 = false ∧
      bit (rdReg (startSwitch c.val old was b s) (chPage c.val) 0x708) 29 = true) ∧
    ((chan s c.val).func = .pmu → (chan s c.val).pmu = .idle →
      ∃ t, exec (.pmuTrigger c m v) s = .next t ∧ (chan t c.val) = { chan s c.val with pmu := .waiting, pmuAt := s.now } ∧
        bit (rdReg t (chPage c.val) 0x708) 31 = false ∧
        RegsKept s t [(chPage c.val, 0x708)] ∧ t.mem = s.mem ∧ ∀ d, d ≠ c.val → chan t d = chan s d)

/-- O7. A PMU measurement goes from its trigger over sampling to a code with VALID = 1; clamps set CLAMPED and CLAMP (rests on 02_pin_channel.md (parametric measurement unit), 15_quench_and_fault_coverage.md (clamp limit)). -/
def Obligations.PmuMeasuresTheMeanOfItsSamples : Prop :=
  ∀ (c : Ch) (s : State), domLost s (tileOf c.val) = false →
    ((chan s c.val).pmu = .waiting → ∀ u, u = reach (max (chan s c.val).pmuAt (if pmuOn s c.val = true ∧ (chan s c.val).rampFrom ≠ forceGoal s c.val then forceRampEnd s c.val else 0) + 2 * us) s →
      exec (.pmuSamplingStart c) s = .next (setChan c.val { chan s c.val with pmu := .sampling, pmuAt := u.now } u)) ∧
    (∀ (sum : Int) (ovr : Bool) (code : BitVec 18), (chan s c.val).pmu = .sampling →
      code = BitVec.ofInt 18 (pmuMean sum (fld (inForce s (chPage c.val) 0x150) 12 8)) →
      ∃ w : Word, exec (.pmuMeasurementDone c sum ovr) s =
          .next (raiseBit (chPage c.val) 0 (setChan c.val { chan s c.val with pmu := .idle } (wrReg (chPage c.val) 0x708 w
            (reach ((chan s c.val).pmuAt + 2 ^ fld (inForce s (chPage c.val) 0x150) 12 8 * us) s)))) ∧
        bit w 31 = true ∧ bit w 30 = ovr ∧ bit w 29 = false ∧ fld w 17 0 = code.toNat) ∧
    (pmuClamp s c.val = .none → exec (.clampOnset c) s = .next (
      if (chan s c.val).func = .driveCompare ∧ (chan s c.val).phase = .steady ∧ (chan s c.val).drive ≠ none ∧ outputsOpen s c.val = false
      then setChan c.val { chan s c.val with clampSince := some ((chan s c.val).clampSince.getD s.now) } s else s)) ∧
    (pmuClamp s c.val ≠ .none →
      exec (.clampOnset c) s = .next (raiseBit (chPage c.val) 3 (setChan c.val { chan s c.val with
        clamped := true, clampSince := some ((chan s c.val).clampSince.getD s.now) } s))) ∧
    (∀ long : Bool, exec (.clampRelease c long) s = .next (setChan c.val { chan s c.val with
      clamped := false, clampSince := if long then none else (chan s c.val).clampSince } s))

/-- O8. A crossing inside an armed window is recorded behind the entries held, a pop removes the oldest, a full FIFO counts the loss (rests on 02_pin_channel.md (time-to-digital converter), 02_pin_channel.md (TDC result registers)). -/
def Obligations.TdcKeepsSixteenEntriesInOrder : Prop :=
  ∀ (c : Ch) (ofs : BitVec 40) (thr : Fin 3) (falling : Bool) (n : Nat) (st : Stroke) (s : State), domLost s (tileOf c.val) = false →
    ((chan s c.val).func = .tdc → (chan s c.val).tdcArmed = some n → (chan s c.val).stroke = some st →
      thr.val = fld (inForce s (chPage c.val) 0x160) 1 0 →
      (fld (inForce s (chPage c.val) 0x160) 3 2 = 0 → falling = false) → (fld (inForce s (chPage c.val) 0x160) 3 2 = 1 → falling = true) →
      ((chan s c.val).tdcLast = none → n < fld (inForce s (chPage c.val) 0x160) 15 8 →
        ∀ (x : Chan) (u : State), x = { chan s c.val with
          tdcArmed := some (n + 1), tdcLast := some (st.begins + 8 * ofs.toNat, (base s (clusterOf c.val)).count, ofs.toNat) } →
        u = reach (st.begins + 8 * ofs.toNat) s →
        ((chan s c.val).tdcFifo.length < 16 → exec (.tdcCrossing c ofs thr falling) s =
          .next (wmSample (chPage c.val) 0 ((chan s c.val).tdcFifo.length + 1)
            ((if (chan s c.val).tdcFifo.isEmpty then raiseBit (chPage c.val) 1 else id) (setChan c.val { x with
              tdcFifo := x.tdcFifo ++ [⟨(base s (clusterOf c.val)).count, ofs, thr.val, falling, false⟩] } u)))) ∧
        (16 ≤ (chan s c.val).tdcFifo.length → exec (.tdcCrossing c ofs thr falling) s =
          .next (raiseBit (chPage c.val) 2 (modReg (chPage c.val) 0x724 (fun w => w32 (min (w.toNat + 1) 0xFFFF)) (setChan c.val x u))))) ∧
      (∀ l cnt o, (chan s c.val).tdcLast = some (l, cnt, o) → st.begins + 8 * ofs.toNat < l + 16384 →
        exec (.tdcCrossing c ofs thr falling) s = .next (setChan c.val { chan s c.val with tdcFifo := markMissed cnt o (chan s c.val).tdcFifo } s))) ∧
    (∀ (m : Master) (v : Word) (e : TdcEntry) (es : List TdcEntry), Takes s (chPage c.val) m → bit v 0 = true → (chan s c.val).tdcFifo = e :: es →
      exec (.tdcPop c m v) s = .next (wmSample (chPage c.val) 0 es.length (setChan c.val { chan s c.val with tdcFifo := es } s)))

/-- O9. A boundary advances the stroke count by one and sets the next a period later, or stops the timebase; streams are set up, start and stop at it (rests on 03_strokes_and_palette.md (the cluster stroke timebase)). -/
def Obligations.StrokeBoundaryAdvancesTheCount : Prop :=
  (∀ (k : Cl) (s : State), lanesUp s = true → (base s k.val).en = true → s.hang = [] → s.calDue = [] →
    (bit (rdReg s (clPage k.val) 0x108) 0 = true →
      ∃ t, exec (.strokeBoundary k) s = .next t ∧ max s.now (base s k.val).next ≤ t.now ∧ (base t k.val).en = true ∧ (base t k.val).running = true ∧
        (base t k.val).ranEver = true ∧ (base t k.val).count = (if (base s k.val).ranEver then (base s k.val).count + 1 else 0) ∧
        (base t k.val).next = (base s k.val).next + 8 * period s k.val ∧
        ∀ j, j ≠ k.val → (base t j).count = (base s j).count ∧ (base t j).next = (base s j).next) ∧
    (bit (rdReg s (clPage k.val) 0x108) 0 = false →
      (∀ q, q < 64 → (chan s (chanOfCluster k.val q)).stream = .idle ∧ bit (rdReg s (chPage (chanOfCluster k.val q)) 0x240) 0 = false) →
      ∃ t, exec (.strokeBoundary k) s = .next t ∧ (base t k.val).en = false ∧ (base t k.val).running = false ∧
        (base t k.val).count = (base s k.val).count ∧ (base t k.val).next = (base s k.val).next ∧
        ∀ j, j ≠ k.val → (base t j).count = (base s j).count ∧ (base t j).next = (base s j).next) ∧
    (bit (rdReg s (clPage k.val) 0x108) 0 = false →
      (∃ q, q < 64 ∧ ∀ c, c = chanOfCluster k.val q → (chan s c).stream = .running ∧ (chan s c).stopDue = false ∧ (chan s c).last = 0 ∧
        (chan s c).runToggled = false ∧ bit (rdReg s (chPage c) 0x240) 0 = true ∧ bit (inForce s (chPage c) 0x240) 0 = true) →
      ∃ t, exec (.strokeBoundary k) s = .next t ∧ (base t k.val).en = true ∧ bit (rdReg t (clPage k.val) 0x108) 0 = true ∧
        (base t k.val).count = (if (base s k.val).ranEver then (base s k.val).count + 1 else 0) ∧
        ∀ j, j ≠ k.val → (base t j).count = (base s j).count ∧ (base t j).next = (base s j).next)) ∧
  (∀ (c : Ch) (s : State) (x y : Chan) (p n : Nat), x = chan s c.val → y = chan (channelEdge c.val s) c.val → p = chPage c.val → n = (base s (clusterOf c.val)).count →
    x.runToggled = false →
    (bit (rdReg s p 0x240) 0 = bit (inForce s p 0x240) 0 →
      (x.stream = .armed → x.stopDue = false → x.last = 0 ∨ n < x.last → y.stream = (if x.s0 ≤ n then .running else .armed)) ∧
      (x.stream = .running → x.stopDue = false → x.last = 0 ∨ n < x.last → y.stream = .running) ∧
      (x.stream ≠ .idle → x.stopDue = true ∨ (x.last ≠ 0 ∧ x.last ≤ n) →
        y.stream = .idle ∧ y.fifo = [] ∧ y.window = none ∧ y.drive = none ∧ y.stopOnWay = true)) ∧
    (bit (inForce s p 0x240) 0 = true → bit (rdReg s p 0x240) 0 = false → x.stream ≠ .idle →
      y.stream = .idle ∧ y.fifo = [] ∧ y.window = none ∧ y.drive = none ∧ y.stopOnWay = true) ∧
    (bit (inForce s p 0x240) 0 = false → bit (rdReg s p 0x240) 0 = true → x.stream = .idle →
      (n < rd64 s p 0x248 → rd64 s p 0x250 = 0 ∨ rd64 s p 0x248 < rd64 s p 0x250 → levelsValid (fun o => rdReg s p o) = true → funcValid (fun o => rdReg s p o) = true →
        y.stream = .armed ∧ y.s0 = rd64 s p 0x248 ∧ y.last = rd64 s p 0x250 ∧ y.credit = 4096 ∧ y.laneStream = true) ∧
      (rd64 s p 0x248 ≤ n ∨ (rd64 s p 0x250 ≠ 0 ∧ rd64 s p 0x250 ≤ rd64 s p 0x248) ∨ levelsValid (fun o => rdReg s p o) = false ∨ funcValid (fun o => rdReg s p o) = false →
        y.stream = .idle ∧ bit (rdReg (channelEdge c.val s) (palPage (laneOf c.val)) (0x740 + 4 * (c.val % 8))) 27 = true)))

/-- O10. EN = 1 starts the timebase at CL_T0 or is refused; EN = 0 waits for the boundary; periods change only while EN is 0; a count read latches its high half (rests on 03_strokes_and_palette.md (the cluster stroke timebase)). -/
def Obligations.TimebaseStartsAtItsInstantOrIsRefused : Prop :=
  ∀ (k : Cl) (m : Master) (s u : State), Takes s (clPage k.val) m → u = copyBefore (clPage k.val) s →
    ((base u k.val).en = false → clT0 u k.val < u.now + 2 * us ∨ periodValid (period u k.val) = false →
      exec (.timebaseEnable k m) s = .next (capture (clPage k.val) fREFUSED 0x108 (masterCode m) (modReg (clPage k.val) 0x108 (fun w => setBit w 0 false) u))) ∧
    ((base u k.val).en = false → u.now + 2 * us ≤ clT0 u k.val → periodValid (period u k.val) = true →
      exec (.timebaseEnable k m) s = .next (setBase k.val { base u k.val with en := true, running := false, next := clT0 u k.val }
        (modReg (clPage k.val) 0x108 (fun w => setBit w 0 true) u))) ∧
    ((base u k.val).en = true → (base u k.val).running = true →
      exec (.timebaseDisable k m) s = .next (setBase k.val { base u k.val with enMaster := masterCode m } (modReg (clPage k.val) 0x108 (fun w => setBit w 0 false) u))) ∧
    (∀ (hi : Bool) (v w : Word), w = written .cl (0x100 + 4 * hi.toNat) (rdReg u (clPage k.val) (0x100 + 4 * hi.toNat)) v →
      ∀ per : Nat, per = (if hi then (rdReg u (clPage k.val) 0x100).toNat + 2 ^ 32 * fld w 7 0 else w.toNat + 2 ^ 32 * fld (rdReg u (clPage k.val) 0x104) 7 0) →
      exec (.clSperWrite k hi m v) s = .next (
        if bit (rdReg u (clPage k.val) 0x108) 0 = true ∨ (base u k.val).en = true ∨ per < 1024 ∨ 8192000000 < per then invalidWrite (clPage k.val) (0x100 + 4 * hi.toNat) m u
        else wrReg (clPage k.val) (0x100 + 4 * hi.toNat) w u)) ∧
    (exec (.strokeCountRead k m) s = .next (setBase k.val { base s k.val with scHi := w32 ((base s k.val).count / 2 ^ 32) } s) ∧
      pageRead s (clPage k.val) 0x700 = w32 (base s k.val).count ∧ pageRead s (clPage k.val) 0x704 = (base s k.val).scHi)

/-- O11. At a boundary a running stream takes exactly one symbol from its FIFO and returns one credit; with none there it starves and the channel trips (rests on 01_organisation.md (the stroke FIFO), 03_strokes_and_palette.md (STARVE)). -/
def Obligations.FormatterTakesOneSymbolPerStroke : Prop :=
  ∀ (c : Ch) (s : State),
    (∀ y ys, (chan s c.val).stream = .running → (chan s c.val).fifo = y :: ys →
      (chan (channelStroke c.val s) c.val).fifo = ys ∧ (chan (channelStroke c.val s) c.val).creditsBack = (chan s c.val).creditsBack + 1 ∧
        (chan (channelStroke c.val s) c.val).srcAct = y.slice ∧ (chan (channelStroke c.val s) c.val).stream = .running) ∧
    ((chan s c.val).stream = .running → (chan s c.val).fifo = [] →
      (chan (channelStroke c.val s) c.val).stream = .idle ∧ (chan (channelStroke c.val s) c.val).held = true ∧
        ((chan s c.val).held = false → (chan (channelStroke c.val s) c.val).func = .hiz ∨ (chan (channelStroke c.val s) c.val).func = .park) ∧
        (chan (channelStroke c.val s) c.val).stopOnWay = true ∧
        bit (rdReg (channelStroke c.val s) (palPage (laneOf c.val)) (0x740 + 4 * (c.val % 8))) 29 = true) ∧
    ((chan s c.val).stream ≠ .running → channelStroke c.val s = s)

/-- O12. The next event of a stroke applies at its time: drive events set the driver, strobes and windows fill result slots, one that may not apply sets TERR (rests on 03_strokes_and_palette.md (the Palette word)). -/
def Obligations.PaletteEventsApplyInOrder : Prop :=
  ∀ (c : Ch) (volts : Int) (strayed : Bool) (st : Stroke) (e : PalEvent) (es : List PalEvent) (s : State), domLost s (tileOf c.val) = false →
    (chan s c.val).stroke = some st → st.events = e :: es → ∀ (x : Chan) (u : State) (t ui : Nat), t = st.begins + 8 * e.t → u = reach t s →
    ui = minUi (chFunc s c.val) → x = { chan s c.val with stroke := some { st with events := es }, window := (chan s c.val).window.map (fun w =>
      { w with strayed := w.strayed || strayed || (decide (w.arg < 4) && decide (region s c.val volts ≠ w.arg)) }) } →
    (e.kind = 1 → e.arg ≤ 3 → levelInUse (chFunc s c.val) e.arg = true → (∀ l, x.lastDrive = some l → l + ui ≤ t) →
      exec (.paletteEvent c volts strayed) s = .next (setChan c.val { x with drive := some (Fin.ofNat 4 e.arg), lastDrive := some t } u)) ∧
    (e.kind = 2 → (∀ l, x.lastDrive = some l → l + ui ≤ t) →
      exec (.paletteEvent c volts strayed) s = .next (setChan c.val { x with drive := none, lastDrive := some t } u)) ∧
    (∀ (f : Bool) (y : Chan), y = { x with lastCompare := some t, stroke := some { st with
        events := es, filled := st.filled + 1,
        result := st.result ||| BitVec.ofNat 24 ((8 + 4 * (f && !st.fmask).toNat + region s c.val volts % 4) * 16 ^ st.filled) } } →
      (∀ l, x.lastCompare = some l → l + ui ≤ t) → st.filled < st.slots →
      (e.kind = 3 → e.arg ≤ 4 → nearEdge (chFunc s c.val) x { st with events := es } t = false → f = decide (e.arg < 4 ∧ region s c.val volts ≠ e.arg) →
        exec (.paletteEvent c volts strayed) s = .next (setChan c.val { y with
          strobe := some ⟨t, st.filled, if e.arg < 4 && !st.fmask then some e.arg else none⟩ } u)) ∧
      (∀ w, e.kind = 5 → x.window = some w → f = (decide (w.arg < 4) && w.strayed) →
        exec (.paletteEvent c volts strayed) s = .next (setChan c.val { y with window := none, tdcArmed := none } u))) ∧
    (e.kind = 4 → e.arg ≤ 4 → x.window = none → (∀ l, x.lastCompare = some l → l + ui ≤ t) →
      exec (.paletteEvent c volts strayed) s = .next (setChan c.val { x with
        lastCompare := some t, window := some ⟨e.arg, decide (e.arg < 4) && decide (region s c.val volts ≠ e.arg)⟩, tdcArmed := if x.func = .tdc then some 0 else x.tdcArmed } u)) ∧
    (typeOk e = false ∨ ((e.kind = 1 ∨ e.kind = 2) ∧ ∃ l, x.lastDrive = some l ∧ t < l + ui) ∨
        ((e.kind = 3 ∨ e.kind = 4 ∨ e.kind = 5) ∧ ∃ l, x.lastCompare = some l ∧ t < l + ui) ∨
        (e.kind = 1 ∧ levelInUse (chFunc s c.val) e.arg = false) ∨ ((e.kind = 3 ∨ e.kind = 5) ∧ st.slots ≤ st.filled) ∨
        (e.kind = 4 ∧ x.window ≠ none) ∨ (e.kind = 5 ∧ x.window = none) →
      exec (.paletteEvent c volts strayed) s = .next (timingError c.val (setChan c.val x u)))

/-- O13. A PAL command takes the selection as it stands and ends with the whole word moved; a compare result reaches its lane once (formalises R206). -/
def Obligations.PaletteWordsMoveWhole : Prop :=
  (∀ (l : Ln) (m : Master) (s : State) (sel : Word) (c : Nat) (cmd : Bool → PalCommand), Takes s (palPage l.val) m → palCmd s l.val = none →
    sel = rdReg s (palPage l.val) 0x700 → c = 8 * l.val + fld sel 10 8 → inUse (fun p => p == chPage c) s = false →
    cmd = (fun wr => ⟨wr, c, smGet false s.swapped (chPage c) != bit sel 11, fld sel 7 0, palData s l.val, !bit sel 11⟩) →
    exec (.palRead l m) s = .next (wrReg (palPage l.val) 0x700 (palStep sel) { s with palCmds := smPut none s.palCmds l.val (some (cmd false)) }) ∧
    ((bit sel 11 && hangArmed s (chPage c)) = false →
      exec (.palWrite l m) s = .next (wrReg (palPage l.val) 0x700 (palStep sel) { s with palCmds := smPut none s.palCmds l.val (some (cmd true)) }))) ∧
  (∀ (l : Ln) (s u : State) (cmd : PalCommand), lanesUp s = true → palCmd s l.val = some cmd → u = mayCopy (chPage cmd.ch) s →
    ∃ t, exec (.palCommandDone l) s = .next t ∧ palCmd t l.val = none ∧ bit (rdReg t (palPage l.val) 0x010) 3 = true ∧
      (cmd.write = true → smGet 0 t.pal (palKey cmd.ch cmd.set cmd.word) = cmd.data ∧ t.chans = s.chans ∧ t.mem = s.mem) ∧
      (cmd.write = false → palData t l.val = smGet 0 u.pal (palKey cmd.ch cmd.set cmd.word) ∧ t.pal = u.pal ∧ t.chans = s.chans ∧ t.mem = s.mem)) ∧
  (∀ (c : Ch) (s u : State) (r : CompareResult) (rs : List CompareResult) (l : Nat) (x : Lane), lanesUp s = true → (chan s c.val).results = r :: rs →
    l = laneOf c.val → x = { lane s l with lastResult := r.count, lastReg := (if slotOf r 0 / 8 = 1 then smPut none (lane s l).lastReg (c.val % 8) (some (slotOf r 0 % 4)) else (lane s l).lastReg) } →
    u = setLane l x (setChan c.val { chan s c.val with results := rs } s) →
    ((store s l).low = 2 → (lane s l).fmAborted = false → ∀ w z : State,
      w = (match resultSite r with | some n => if failBits r = 0 then u else countResult l n r u | none => u) →
      z = (if anyFail r then setLane l { lane w l with lookups := (lane w l).lookups ++ [⟨c.val, r, none, false⟩] } w else w) →
      exec (.compareResultArrival c) s = .next (formEvents l 4096 z) ∧
        ((lane s l).lookups = [] → exec (.compareResultArrival c) s = .next z)) ∧
    ((store s l).low ≠ 2 ∨ (lane s l).fmAborted = true →
      exec (.compareResultArrival c) s = .next ((if anyFail r then fun u => raiseBit (pageIndex ⟨.lcs, l⟩) 3 (countReg (pageIndex ⟨.lcs, l⟩) 0x718 1 u) else id) u)))

/-- O14. A trip stops the stream and the measurement, opens the driver and holds the channel; a further trigger changes only MULTI (rests on 15_quench_and_fault_coverage.md (triggers and the safe state), 15_quench_and_fault_coverage.md (Quench registers, R408), 02_pin_channel.md (R60)). -/
def Obligations.TripHoldsTheChannelInItsSafeState : Prop :=
  ∀ (c : Ch) (cause key : Nat) (s : State), 0 < cause → cause ≤ 9 →
    ((chan s c.val).held = true → trip c.val cause key s = setChan c.val { chan s c.val with cause := setBit (chan s c.val).cause 30 true, phase := .steady } s) ∧
    ((chan s c.val).held = false → ∀ t, t = trip c.val cause key s →
      (chan t c.val).held = true ∧ (chan t c.val).phase = .steady ∧ (chan t c.val).drive = none ∧ (chan t c.val).window = none ∧
      (chan t c.val).fifo = [] ∧ (chan t c.val).stream = .idle ∧ (chan t c.val).pmu = .idle ∧
      (∀ st, (chan t c.val).stroke = some st → st.events = []) ∧
      (chan t c.val).func = (if bit (chFunc s c.val) 5 = true ∧ domLost s (tileOf c.val) = false then .park else .hiz) ∧
      bit (chan t c.val).cause 31 = true ∧ bit (chan t c.val).cause 30 = false ∧ fld (chan t c.val).cause 27 24 = cause ∧
      fld (chan t c.val).cause 9 0 = (if cause = 6 ∨ cause = 7 then min (energy s c.val / 100000000) 1023 else 0) ∧
      bit (rdReg t (tqPage (tileOf c.val)) 0x010) 0 = true ∧ rdReg t (tqPage (tileOf c.val)) 0x718 = satAdd (rdReg s (tqPage (tileOf c.val)) 0x718) 1 ∧
      (bit (rdReg s (tqPage (tileOf c.val)) 0x020) 31 = false → rdReg t (tqPage (tileOf c.val)) 0x020 = syndrome fEVENT 0x714 (c.val % 64 + 64 * cause)) ∧
      ((chan s c.val).pmu ≠ .idle → bit (rdReg t (chPage c.val) 0x708) 31 = false ∧ bit (rdReg t (chPage c.val) 0x708) 29 = true) ∧
      t.mem = s.mem ∧ ∀ d, d ≠ c.val → chan t d = chan s d)

/-- O15. Loss of D8 holds every channel with cause DOMAIN; of a tile its 64; of D9 and of a stack none, but the link, the descriptors or the queued data go (rests on 01_organisation.md (R22, R23, R24, R25), 15_quench_and_fault_coverage.md (R392, R393, R394), 17_start_up_and_power.md (R429), 13_amibin_fabric.md (R363)). -/
def Obligations.LossOfTheShellHoldsEveryChannel : Prop :=
  (∀ (s : State) (l : LossCause), domLost s 8 = false → (∀ c : Ch, Quiet (chan s c.val)) →
    ∃ t, exec (.domainLoss 8 l) s = .next t ∧ domLost t 8 = true ∧ ∀ c : Ch,
      (∀ x, x = contact t c.val → x.driver = none ∧ x.load = none ∧ x.term = none ∧ x.force = .nothing) ∧
      ((dom s (tileOf c.val)).good = true → (dom s (tileOf c.val)).inReset = false → (chan t c.val).held = true ∧
        ((chan t c.val).func = .hiz ∨ (chan t c.val).func = .park) ∧ ((chan s c.val).held = false → fld (chan t c.val).cause 27 24 = 1))) ∧
  (∀ (s : State) (l : LossCause) (d : Tile), domLost s d.val = false →
    ∃ t, exec (.domainLoss ⟨d.val, by omega⟩ l) s = .next t ∧ domLost t d.val = true ∧
      (∀ c : Ch, tileOf c.val = d.val → outputsOpen t c.val = true ∧ contact t c.val = {} ∧ (l ≠ .reset → (chan t c.val).held = true) ∧
        (l = .reset → (chan t c.val).open_ = true ∧ (chan t c.val).func = .hiz ∧ (chan t c.val).stream = .idle ∧ (chan t c.val).fifo = [])) ∧
      (∀ c : Ch, tileOf c.val ≠ d.val → chan t c.val = chan s c.val)) ∧
  (∀ (s : State) (l : LossCause) (d : Dom), 9 ≤ d.val → domLost s d.val = false →
    ∃ t, exec (.domainLoss d l) s = .next t ∧ domLost t d.val = true ∧ t.bases = s.bases ∧
      (∀ c : Ch, ∀ x y, x = chan s c.val → y = chan t c.val →
        y.stream = x.stream ∧ y.fifo = x.fifo ∧ y.stroke = x.stroke ∧ y.func = x.func ∧ y.phase = x.phase ∧ y.held = x.held) ∧
      (d.val = 9 → bit (rdReg t pciePage 0x700) 31 = false ∧ t.fabric.outstanding = []) ∧
      (10 ≤ d.val → ∀ k r, r ∈ (eng t k).queue → targetOf s r.addr = .hbm (d.val - 10) → r.words = none ∧ r.failed = some 4))

/-- O16. The accounted energy with its reserve above ECAP trips with ENERGY, and not below it; the clamp limit and the overvoltage dwell trip with theirs (rests on 15_quench_and_fault_coverage.md (energy accounting), 15_quench_and_fault_coverage.md (triggers and the safe state)). -/
def Obligations.QuenchTripsOnItsLimits : Prop :=
  ∀ (c : Ch) (s : State),
    (∀ (mV uA : Int) (nW : Nat) (u : State), domLost s (tileOf c.val) = false → nW = (if 0 ≤ mV * uA then (mV * uA).natAbs else 0) →
      u = setChan c.val { chan s c.val with power := (nW :: (chan s c.val).power).take 10000 } s →
      exec (.energyEvaluation c mV uA) s = .next (
        if energy u c.val + 9 * nW > 1000000000 * fld (rdReg s (tqPage (tileOf c.val)) (0x100 + 4 * (c.val % 64))) 21 16 then trip c.val 6 0 u else u)) ∧
    (∀ volts : Int, exec (.overvoltDwellExpiry c volts) s = .next (
      if ((dom s (tileOf c.val)).good = true ∧ (dom s (tileOf c.val)).inReset = false) ∧ (if bit (chFunc s c.val) 8 then volts < -393216 ∨ 786432 < volts else volts < -655360 ∨ 2555904 < volts) then trip c.val 5 0 s else s)) ∧
    (domLost s (tileOf c.val) = false → (chan s c.val).clampSince = none ∨ (pmuClamp s c.val = .none ∧ driverOn s c.val = false) → exec (.clampLimitExpiry c) s = .next s) ∧
    (∀ from_, domLost s (tileOf c.val) = false → (chan s c.val).clampSince = some from_ → pmuClamp s c.val ≠ .none ∨ driverOn s c.val = true → exec (.clampLimitExpiry c) s = .next (trip c.val 7 0 (reach
      (from_ + 2 ^ fld (rdReg s (tqPage (tileOf c.val)) (0x100 + 4 * (c.val % 64))) 15 12 * us) s))) ∧
    (domLost s 8 = false → exec (.tripPathDisagree (some c)) s = .next (capture (tqPage (tileOf c.val)) fHW 0 (c.val % 64) (raiseBit (tqPage (tileOf c.val)) 2 s)) ∧
      exec (.tripPathDisagree none) s = .next (capture quenchPage fHW 0 0 s))

/-- O17. A held channel is released only with every bit of QD_EMSTAT 0, its tile up, its contact inside the band and no open ISOLATE entry; else the bit is refused (rests on 15_quench_and_fault_coverage.md (triggers and the safe state), 02_pin_channel.md (switching function)). -/
def Obligations.ReleaseIsGrantedOrRefused : Prop :=
  ∀ (t : Tile) (hi : Bool) (i : Fin 32) (m : Master) (volts : List Int) (s : State) (c : Nat), Takes s (tqPage t.val) m → c = 64 * t.val + 32 * hi.toNat + i.val →
    ((chan s c).held = true → (chan s c).phase ≠ .steady → exec (.quenchRelease t hi m (w32 (2 ^ i.val)) volts) s = .next s) ∧
    ((chan s c).phase = .steady → (chan s c).held = false ∨ Nat.land (rdReg s quenchPage 0x700).toNat 15 ≠ 0 ∨ insideBand s c (volts.getD i.val 0) = false ∨ isolateOpen s c = true →
      exec (.quenchRelease t hi m (w32 (2 ^ i.val)) volts) s = .next (refuseCmd (tqPage t.val) (0x708 + 4 * hi.toNat) m s)) ∧
    ((chan s c).phase = .steady → (chan s c).held = true → (chan s c).pmu = .idle → Nat.land (rdReg s quenchPage 0x700).toNat 15 = 0 →
      insideBand s c (volts.getD i.val 0) = true → isolateOpen s c = false →
      exec (.quenchRelease t hi m (w32 (2 ^ i.val)) volts) s = .next (setChan c (
        if strokesRun s c then { chan s c with term := false, forcing := false, phase := .toB0 }
        else { chan s c with term := false, forcing := false, phase := .holdTimer (s.now + us), window := none, drive := none, tdcArmed := none }) s))

/-- O18. An emergency latch sets once, is counted once and holds every channel; a write clears the latches it names, PIN only while the pin is deasserted (rests on 15_quench_and_fault_coverage.md (emergency stop)). -/
def Obligations.EmergencyStopHoldsEveryChannel : Prop :=
  (∀ (b : Fin 3) (origin cause : Nat) (s : State), (bit (rdReg s quenchPage 0x700) b.val = true → setLatch b.val origin cause s = s) ∧
    (bit (rdReg s quenchPage 0x700) b.val = false → bit (rdReg (setLatch b.val origin cause s) quenchPage 0x700) b.val = true ∧
      rdReg (setLatch b.val origin cause s) quenchPage 0x708 = satAdd (rdReg s quenchPage 0x708) 1 ∧
      bit (rdReg (setLatch b.val origin cause s) quenchPage 0x010) 0 = true ∧ ∀ c : Ch, watched s c.val = true → (chan (setLatch b.val origin cause s) c.val).held = true)) ∧
  (∀ (p : PinPulse) (s : State), p = .pulse ∨ p = .held →
    (domLost s 8 = true → exec (.emstopPinAssert p) s = .next { s with pins := { s.pins with emstop := decide (p = .held) } }) ∧
    (domLost s 8 = false → bit (rdReg s quenchPage 0x700) 0 = false →
      ∃ t, exec (.emstopPinAssert p) s = .next t ∧ bit (pageRead t quenchPage 0x700) 0 = true ∧ bit (pageRead t quenchPage 0x700) 3 = decide (p = .held) ∧
        ∀ c : Ch, watched s c.val = true → (chan t c.val).held = true)) ∧
  (∀ (m : Master) (v : Word) (s : State), Takes s quenchPage m →
    exec (.estop m v) s = .next (setLatch 2 0 0 s) ∧
    ∃ w, exec (.emergencyLatchClear m v) s = .next (wrReg quenchPage 0x700 w s) ∧
      bit w 0 = (bit (rdReg s quenchPage 0x700) 0 && !(bit v 0 && !s.pins.emstop)) ∧
      bit w 1 = (bit (rdReg s quenchPage 0x700) 1 && !bit v 1) ∧ bit w 2 = (bit (rdReg s quenchPage 0x700) 2 && !bit v 2) ∧
      fld w 31 3 = fld (rdReg s quenchPage 0x700) 31 3)

/-- O19. A report opens one entry with a new fault ID, on which Anvil acts by its class, or counts in its own; ACK and CLOSE move entries; a detection is reported (rests on 15_quench_and_fault_coverage.md (Anvil), 15_quench_and_fault_coverage.md (the single-fault guarantee)). -/
def Obligations.AnvilGivesEachFaultOneEntry : Prop :=
  (∀ (s u : State) (r : Report) (rs : List Report), domLost s 8 = false → s.reports = r :: rs → u = noteCorrected r { s with reports := rs } →
    (r.cls ≠ 0 → u = { s with reports := rs }) ∧
    (∀ i, findEntry u (linked u r) = some i →
      exec .anvilReportReceived s = .next (setAnv i { anvEntry u i with links := min ((anvEntry u i).links + 1) 0xFFFFFFFF } u)) ∧
    (findEntry u (linked u r) = none →
      (∀ i, findEntry u (fun e => e.state != 0 && e.kind == r.kind && e.id == r.id && e.cause == r.cause) = some i → ∀ x, x = { anvEntry u i with count := min ((anvEntry u i).count + 1) 0xFFFF } →
        exec .anvilReportReceived s = .next (if (escalated u x).cls = x.cls then setAnv i x u else anvilAct (escalated u x) (anvilRecord (escalated u x) (setAnv i (escalated u x) u)))) ∧
      (findEntry u (fun e => e.state != 0 && e.kind == r.kind && e.id == r.id && e.cause == r.cause) = none →
        ∀ i, (List.range 64).find? (fun i => (anvEntry u i).state == 0) = some i → ∀ (e : AnvilEntry) (z : State),
        e = { state := 1, fid := u.nextFid, kind := r.kind, id := r.id, count := 1, firstFt := u.now, group := r.group, key := r.key, cause := r.cause,
              cls := if r.cls = 0 ∧ 0 < fld (rdReg u anvilPage 0x724) 15 0 ∧ fld (rdReg u anvilPage 0x724) 15 0 ≤ (smGet [] u.corrected (sourceNo r.kind r.id)).length then 3 else r.cls } →
        z = anvilRecord e (raiseBit anvilPage 0 (sampleAnvil { setAnv i e u with nextFid := if u.nextFid + 1 = 0 then 1 else u.nextFid + 1 })) →
        (e.cls = 0 ∨ e.cls = 1 ∨ e.cls = 2 ∨ 4 < e.cls ∨ (e.cls = 4 ∧ e.group ≠ 16) → exec .anvilReportReceived s = .next z) ∧
        (e.cls = 4 → e.group = 16 → exec .anvilReportReceived s = .next (isolate e.key z)) ∧
        (e.cls = 3 → e.group = 9 → exec .anvilReportReceived s = .next (tripWatched e.key 9 e.key
          (if bit (rdReg z (chPage e.key) 0x104) 7 then send (.siteDegraded (fld (rdReg z (chPage e.key) 0x104) 6 0)) z else z))) ∧
        (e.cls = 3 → e.group ≠ 9 → exec .anvilReportReceived s = .next (
          if e.kind = 1 ∧ e.id < 8192 then parkEngine (e.id % 4096 + 512 * (e.id / 4096)) z else z))))) ∧
  (∀ (m : Master) (v : Word) (s : State), Takes s anvilPage m →
    exec (.anvAckWrite m v) s = .next (match findEntry s (fun e => e.state == 1 && e.fid == v) with
      | some i => setAnv i { anvEntry s i with state := 2 } s
      | none => rejectWrite anvilPage 0x71C m s) ∧
    exec (.anvCloseWrite m v) s = .next (match findEntry s (fun e => e.state == 2 && e.fid == v) with
      | some i => sampleAnvil (setAnv i {} s)
      | none => rejectWrite anvilPage 0x720 m s)) ∧
  (∀ (w : Monitor) (s : State), domLost s 8 = false →
    ((∀ t code, w ≠ .vref t code) → (∀ t, w ≠ .tpllLock t) → exec (.coverageMonitorCheck w false) s = .next s) ∧
    (∀ (c : Ch), w = .dac c ∨ w = .edge c ∨ w = .eventChecker c ∨ w = .drift c →
      exec (.coverageMonitorCheck w true) s = .next (captureAs (chPage c.val) fHW 0 0 3 fHW 9 c.val s))) ∧
  (∀ (t : Tile) (code : BitVec 16) (d : Dom) (e : EngId) (c : Ch) (m : Master) (s : State) (p q : Nat), p = pageIndex ⟨.tref, t.val⟩ → q = pageIndex ⟨.tpll, t.val⟩ → domLost s 8 = false →
    exec (.coverageMonitorCheck (.vref t code) false) s = .next (wrReg p 0x700 (w32 (2 ^ 31 + code.toNat)) s) ∧
    (bit (rdReg s p 0x700) 31 = true → exec (.coverageMonitorCheck (.vref t code) true) s = .next (capture p fHW 0x700 0 (raiseBit p 0 (wrReg p 0x700 (w32 code.toNat) s)))) ∧
    exec (.coverageMonitorCheck (.tpllLock t) false) s = .next (modReg q 0x700 (fun r => setBit r 0 true) s) ∧
    (bit (rdReg s q 0x700) 0 = true → exec (.coverageMonitorCheck (.tpllLock t) true) s = .next (
      isolate t.val (report ⟨0, pageIndex ⟨.tile, t.val⟩, 4, fHW, 16, t.val, []⟩ (modReg q 0x700 (fun r => setBit r 0 false) s)))) ∧
    exec (.coverageMonitorCheck (.domainClock d) true) s = .next (report ⟨0, domainPage d.val, 4, fHW, 16, d.val, []⟩ s) ∧
    exec (.coverageMonitorCheck (.engineLogic e) true) s = .next (report ⟨1, engIdent (engKey e), 2, 0, 0, 0, []⟩ s) ∧
    (domLost s (tileOf c.val) = false → exec (.coverageMonitorCheck (.strokeFifo c) true) s = .next (capture (chPage c.val) fHW 0 0 s) ∧
      exec (.coverageMonitorCheck (.paletteWord c .uncorrectable) true) s = .next (capture (palPage (laneOf c.val)) fHW 0 0 s) ∧
      exec (.coverageMonitorCheck (.paletteWord c .corrected) true) s = .next (report ⟨0, palPage (laneOf c.val), 0, fTMR, 0, 0, []⟩ s)) ∧
    exec (.coverageMonitorCheck (.compareResult c) true) s = .next (capture (lnPage (laneOf c.val)) fHW 0 0 s) ∧
    exec (.coverageMonitorCheck (.matrixParity m) true) s = .next (capture mxPage fHW 0 (masterCode m) s) ∧
    (domLost s d.val = false → exec (.coverageMonitorCheck (.crossing d) true) s = .next (capture (domainPage d.val) fHW 0 0 s))) ∧
  (∀ (page : BitVec 14) (off : BitVec 12) (s : State), domLost s 8 = false → (pageAt page.toNat).isSome = true →
    exec (.coverageMonitorCheck (.tmr page off) true) s = .next (capture page.toNat fTMR off.toNat 0 s))

/-- O20. A bundle stalls, takes the fault of its lowest slot, waits for its load, or passes: its moves write, the loop and repeat counts count, the pc advances (rests on 04_mulis_instruction_set.md (bundles, loops and repeats), 05_channel_core.md (stalls), 08_faults_and_modes.md (precise faults)). -/
def Obligations.BundleReadsBeforeItWrites : Prop :=
  ∀ (e : EngId) (err : Option AccessErr) (s z u : State) (k : Nat) (x : Engine) (w : Bundle) (b : BundleF) (r : Run) (adv : Engine → Engine),
    k = engKey e → z = bundleYields k s → u = noteFetch k (eng z k).pc.toNat z → x = eng u k → w = fetchBundle z k x.pc.toNat → b = bundleOf w →
    r = evalBundle u k x.pc.toNat b none (wordErr err) →
    adv = (fun z => let y : Engine := { z with loopBuf := loopAfter w z.pc.toNat false z, rptBusy := false }
      if z.pc = z.le ∧ 2 ≤ z.lc.toNat then { y with lc := z.lc - 1, pc := z.ls, entering := false }
      else { y with lc := if z.pc = z.le ∧ z.lc = 1 then 0 else z.lc, pc := z.pc + 16, entering := false }) →
    mayRun z k = true → mayIssue z k = true → asyncPending x = false → interruptDue z k = none → x.matrix = none → x.after = none → x.parkDue = false →
    waitFailure x = none → holds x = false → fetchHeld z k = false → fetchFault z k x.pc.toNat (fetchErr err) = none → encodingFault u k w = none →
    (b.rpt = false → (activeMoves x b).any (sourceStalls u k) = true → exec (.bundleIssue e err) s = .next (tick u)) ∧
    (∀ f, b.rpt = false → r.stall = false → firstFault r.flt (returnFault k r) = some f → f.qclr = false → mayEnter k (stackErr err) u = true →
      exec (.bundleIssue e err) s = .next (tick (takeEntry k { vec := f.vec, ret := x.pc.toNat, prec := 1, slot := f.slot, syn0 := f.syn0, syn1 := f.syn1, detail := f.detail } (stackErr err) (becomeCurrent k u)))) ∧
    (∀ a, b.rpt = false → r.stall = false → firstFault r.flt (returnFault k r) = none → firstAccess r.needs = some a →
      exec (.bundleIssue e err) s = .next (tick (issueAccess w k [] a (noteThread k u)))) ∧
    (∀ m y, activeMoves x b = [m] → m.src < 0x40 → m.dst < 0x40 → gReady x m.src = true → y = setG m.dst (gVal x m.src) x →
      (b.rpt = false → exec (.bundleIssue e err) s = .next (tick (settled k (noteThread k (setEng k (adv { y with rptLive := false }) u))))) ∧
      (∀ n : Nat, b.rpt = true → 0 < n → n = (if x.rptLive then x.rptc.toNat else immOf b) →
        exec (if x.rptLive then .repeatIteration e err else .bundleIssue e err) s = .next (tick (settled k (noteThread k (setEng k (
          if n = 1 then adv { y with rptc := 0, rptLive := false } else { y with rptc := w32 (n - 1), rptLive := true, rptBusy := false }) u)))))) ∧
    (b.rpt = true → x.rptLive = false → immOf b = 0 → exec (.bundleIssue e err) s = .next (tick (settled k (noteThread k (setEng k (adv x) u)))))

/-- O21. An entry stacks the twelve context words at FSP - 48 in segment 3, sets the mode and goes to the vector; without room or reach the engine is STUCK (rests on 08_faults_and_modes.md (handler entry), 08_faults_and_modes.md (asynchronous entries), 08_faults_and_modes.md (interrupts)). -/
def Obligations.EntryStacksTheContextAndVectors : Prop :=
  (∀ (e : EngId) (err : Option BusKind) (s : State) (x : Engine), x = eng s (engKey e) → (if 1024 ≤ engKey e then domLost s 8 = false else lanesUp s = true) →
    (∀ y ys, mayRun s (engKey e) = true → atBoundary x = true → mayEnter (engKey e) err s = true → x.late = y :: ys →
      exec (.asynchronousEntry e err) s = .next (takeEntry (engKey e)
        { vec := 12, ret := x.pc.toNat, syn0 := y.addr % 2 ^ 32, syn1 := y.addr / 2 ^ 32 % 2 ^ 16 + y.kind * 2 ^ 16 } err (setEng (engKey e) { x with late := ys } s))) ∧
    (mayRun s (engKey e) = true → atBoundary x = true → asyncPending x = false → mayEnter (engKey e) err s = true → x.ie = true → repeatHolds s (engKey e) = false → x.bell ≠ 0 →
      exec (.interruptEntry e err) s = .next (takeEntry (engKey e) { vec := 32, ret := x.pc.toNat, detail := x.bell.toNat } err (setEng (engKey e) { x with bell := 0 } s))) ∧
    (∀ sock, exec (.residueError e true sock) s = .next (setEng (engKey e) { x with errors := x.errors ++ [(26, sock.toNat)] } s)) ∧
    (∀ sock b, residueBase (engKey e) sock.toNat = some b → exec (.residueError e false sock) s = .next (setEng (engKey e) { x with errors := x.errors ++ [(25, b)] } s))) ∧
  (∀ (e : EngId) (f : EntryF) (err : Option BusKind) (s u t : State) (k off a : Nat) (x : Engine), k = engKey e → u = drain k s → x = eng u k →
    off = x.fsp.toNat - 48 → a = segBase (seg x 3) + off → t = takeEntry k f err s →
    (bit (seg x 3).w3 0 = false → (eng t k).run = .stuck ∧ (eng t k).cause = 2 ∧ (eng t k).stuckVec = f.vec ∧ t.mem = s.mem) ∧
    (bit (seg x 3).w3 0 = true → x.fsp.toNat < 48 → (eng t k).run = .stuck ∧ (eng t k).cause = 1 ∧ (eng t k).stuckVec = f.vec ∧ t.mem = s.mem) ∧
    (bit (seg x 3).w3 0 = true → 48 ≤ x.fsp.toNat → segCheck (seg x 3) off 48 permW ≠ 0 ∨ stackError u k a true err ≠ none →
      (eng t k).run = .stuck ∧ (eng t k).cause = 2 ∧ (eng t k).stuckVec = f.vec ∧ t.mem = s.mem) ∧
    (bit (seg x 3).w3 0 = true → 48 ≤ x.fsp.toNat → segCheck (seg x 3) off 48 permW = 0 → stackError u k a true err = none → x.parkDue = false → fetchFault u k (0xFC00 + 16 * f.vec) none = none →
      (eng t k).fsp = x.fsp - 48 ∧ (eng t k).mode = entryMode k f.vec ∧ (eng t k).ie = false ∧ (eng t k).lc = 0 ∧ (eng t k).rptc = 0 ∧
      (eng t k).resv = none ∧ (eng t k).pc = w32 (0xFC00 + 16 * f.vec) ∧ (eng t k).run = x.run ∧
      (eng t k).g = x.g ∧ (eng t k).preds = x.preds ∧ (eng t k).segs = x.segs ∧ (eng t k).ls = x.ls ∧ (eng t k).le = x.le ∧
      memBytes t (memKey u a) 48 = (contextWords x f.ret (causeWord x f.vec f.prec f.slot f.detail) f.syn0 f.syn1).flatMap (fun w => leBytes 4 w.toNat) ∧
      (∀ b, b < memKey u a ∨ memKey u a + 48 ≤ b → memByte t b = memByte s b) ∧ t.chans = s.chans))

/-- O22. A return takes the context at FSP back into the engine and goes on at its return offset; a context that does not say FSP + 48 leaves the engine STUCK (rests on 08_faults_and_modes.md (return from a handler)). -/
def Obligations.ReturnRestoresTheContext : Prop :=
  ∀ (e : EngId) (ae : Option AccessErr) (err : Option BusKind) (slot pc : Nat) (s u t : State) (k a : Nat) (x : Engine) (w : Nat → Word),
    k = engKey e → err = stackErr ae → (eng s k).run = .running → domLost s 8 = false → (eng s k).matrix = none → (eng s k).after = some (.ret slot pc) → canDrain (eng s k) = true → (eng s k).parkDue = false → stackHeld s k (eng s k).fsp.toNat false err = false →
    u = drain k (modEng k unheld s) → x = eng u k → a = segBase (seg x 3) + x.fsp.toNat → w = (fun i => wordOf (seenBytes u k a 48) i) → t = afterBundle k err s →
    exec (.bundleIssue e ae) s = .next t ∧
    (segCheck (seg x 3) x.fsp.toNat 48 permR ≠ 0 ∨ stackError u k a false err ≠ none ∨ w 11 ≠ x.fsp + 48 → (eng t k).run = .stuck ∧ (eng t k).cause = 4 ∧ t.mem = s.mem) ∧
    (segCheck (seg x 3) x.fsp.toNat 48 permR = 0 → stackError u k a false err = none → w 11 = x.fsp + 48 → badTarget x (w 0).toNat = true →
      t = takeEntry k { vec := 13, ret := pc, prec := 1, slot := slot, syn0 := (w 0).toNat } none u) ∧
    (segCheck (seg x 3) x.fsp.toNat 48 permR = 0 → stackError u k a false err = none → w 11 = x.fsp + 48 → badTarget x (w 0).toNat = false →
      (eng t k).mode = (if fld (w 1) 25 24 = 3 ∨ (fld (w 1) 25 24 = 2 ∧ k < 1024) then 1 else fld (w 1) 25 24) ∧ (eng t k).ie = bit (w 1) 23 ∧
      (eng t k).lc = w 4 ∧ (eng t k).ls = setFld (w 5) 3 0 0 ∧ (eng t k).le = setFld (w 6) 3 0 0 ∧ (eng t k).rptc = w 7 ∧
      (eng t k).preds = (setBit (w 8) 0 true).setWidth 8 ∧ (eng t k).segsel = (w 9).toNat % 8 ∧ (eng t k).fsp = x.fsp + 48 ∧ (eng t k).pc = w 0 ∧
      (eng t k).run = x.run ∧ (eng t k).g = x.g ∧ (eng t k).segs = x.segs ∧ t.mem = s.mem ∧ t.chans = s.chans ∧ t.regs = s.regs)

/-- O23. The oldest operation of a unit reaches its result port and its deferred register; the oldest store reaches memory or fails; a delay ends (rests on 05_channel_core.md (operations, write-back and deferred writes), 05_channel_core.md (the store buffer), 05_channel_core.md (the emit port)). -/
def Obligations.ResultsAndStoresLeaveInOrder : Prop :=
  ∀ (e : EngId) (s : State) (k : Nat) (x : Engine), k = engKey e → x = eng s k → (if 1024 ≤ k then domLost s 8 = false else lanesUp s = true) →
    (∀ (unit : BitVec 13) priv sock v n ld os, unit ≠ 0x1C00 → x.ops = ⟨unit.toNat, priv, [(sock, v)], none, none, [(n, sock, 0)], ld⟩ :: os →
      exec (.unitResultWriteback e unit) s = .next (setEng k (
        let y := setPort priv sock v { x with ops := os }
        { y with g := smPut 0 y.g n (w32 v.toNat) }) s)) ∧
    (∀ st sts, x.stores = st :: sts → engPath k (targetOf s st.addr) = 0 → targetOn s (targetOf s st.addr) = true →
      exec (.storeAcknowledge e) s = .next (settled k (popStore k (memWrite st.addr st.data s)))) ∧
    (∀ st sts kind y, x.stores = st :: sts → engPath k (targetOf s st.addr) = 0 → targetOn s (targetOf s st.addr) = false →
      y = { x with stores := sts, storesOut := x.storesOut + 1 } →
      exec (.storeBusError e kind) s = .next (
        if x.run = .stuck then settled k (setEng k { y with stuckErrs := min (x.stuckErrs + 1) 0xFFFF } s)
        else if 8 ≤ x.late.length then s
        else settled k (setEng k { y with late := x.late ++ [⟨st.addr, 3⟩] } s))) ∧
    (∀ t, x.delay = some t → exec (.delayExpiry e) s = .next (setEng k { x with delay := none } (reach t s))) ∧
    (∀ err f b w, w = fetchBundle s k x.pc.toNat → b = bundleOf w → mayRun s k = true → atBoundary x = true → asyncPending x = false → interruptDue s k = none →
      holds x = false → fetchFault s k x.pc.toNat none = none → encodingFault s k w = none → (b.rpt = true → x.rptLive = true ∨ immOf b ≠ 0) →
      (evalBundle s k x.pc.toNat b none).ended = some f → f.qclr = false → mayEnter k err s = true →
      exec (.emitWaitFault e err) s = .next (takeEntry k { vec := f.vec, ret := x.pc.toNat, prec := 1, slot := f.slot, syn0 := f.syn0, syn1 := f.syn1, detail := f.detail } err s))

/-- O24. The engine control unit restarts, parks or rings its target and answers the outcome; the oldest queue request takes all its words or fails (rests on 08_faults_and_modes.md (the engine control unit), 09_scheduling_contract.md (the data queue)). -/
def Obligations.EngineControlAndDataQueue : Prop :=
  (∀ (p : Fin 2) (s : State) (x : Engine) (q : EcRequest) (k : Nat) (port : Nat → State → State), x = eng s (1024 + p.val) → domLost s 8 = false →
    x.ops = [⟨0x800, true, [(0x808, 0)], none, some q, [], false⟩] →
    port = (fun o t => modEng (1024 + p.val) (fun y => setPort true 0x808 (BitVec.ofNat 256 (ecRes t q o)) { y with ops := [] }) t) →
    (ecTarget q.sel = none → exec (.ecOperationComplete p) s = .next (port 3 s)) ∧
    (ecTarget q.sel = some k → k < 512 → domLost s (engLane k / 8) = true → exec (.ecOperationComplete p) s = .next (port 4 s)) ∧
    (ecTarget q.sel = some k → 512 ≤ k ∨ domLost s (engLane k / 8) = false →
      (q.trig = 0 → exec (.ecOperationComplete p) s = .next (port 0 s)) ∧
      (q.trig = 1 → exec (.ecOperationComplete p) s = .next (
        if ecState s k = 2 then port 2 s else if ecState s k ≠ 3 then port 1 s
        else port 0 (markStarted k (freePorts k (setEng k (restarted q.fsp q.arg (eng s k)) s))))) ∧
      (q.trig = 2 → (eng s k).run ≠ .stuck → exec (.ecOperationComplete p) s = .next (port 0 (
        if (eng s k).entering = true ∨ (eng s k).after ≠ none then setEng k { eng s k with parkDue := true } s else enterStuck k 5 0 [] (dropLoad k s)))) ∧
      (q.trig = 3 → exec (.ecOperationComplete p) s = .next (port 0 (setEng k { eng s k with bell := (eng s k).bell ||| q.arg.setWidth 8 } s))))) ∧
  (∀ (fsp at_ : Word) (y : Engine), (restarted fsp at_ y).run = .running ∧ (restarted fsp at_ y).mode = 1 ∧ (restarted fsp at_ y).ie = false ∧
    (restarted fsp at_ y).fsp = fsp ∧ (restarted fsp at_ y).pc = setFld at_ 3 0 0 ∧ (restarted fsp at_ y).bell = 0 ∧ (restarted fsp at_ y).g = y.g) ∧
  (∀ (e : EngId) (s t : State) (x : Engine) (q : QueueReq) (qs : List QueueReq) (ecc : EccOutcome) (f : Option Nat), x = eng s (engKey e) → engKey e < 1024 → lanesUp s = true →
    x.queue = q :: qs → q.words = none → q.failed = none →
    f = (match targetOf s q.addr with
      | .hbm n => if domLost s (10 + n) then some 4 else if ecc = .uncorrectable then some 5 else none
      | y => if !targetOn s y then some 3 else if ecc = .uncorrectable then some 5 else none) →
    t = (if f = none ∨ f = some 5 then eccMeets (targetOf s q.addr) ecc s else s) →
    exec (.queueDataArrival e ecc) s = .next (sampleStack q.addr (setEng (engKey e) (armWaits { x with queue :=
      (match f with
        | some c => { q with failed := some c }
        | none => { q with words := some ((List.range q.len).map (fun i => BitVec.ofNat 64 (leNat (((q.seen.getD (memRead s q.addr (8 * q.len))).drop (8 * i)).take 8)))) }) :: qs }) t)))

/-- O25. A thread's first EN starts it at its reset entry, a later one resumes it, and EN = 0 only stops its issue; a lookup returns the stroke's address or none (rests on 06_lane_sequencer.md (threads), 06_lane_sequencer.md (the address history)). -/
def Obligations.ThreadsStartOnceAndLookupsFindTheirAddress : Prop :=
  (∀ (l : Ln) (m : Master) (t : Fin 8) (s : State) (w : Word) (k : Nat), Takes s (lnPage l.val) m → k = 512 + 8 * l.val + t.val → w = rdReg s (lnPage l.val) 0x700 →
    (∀ u : Fin 8, bit w u.val = true → u.val ∈ (lane s l.val).started) →
    (t.val ∈ (lane s l.val).started → exec (.threadEnable l m t) s = .next (wrReg (lnPage l.val) 0x700 (w32 ((setBit w t.val true).toNat % 2 ^ 16)) s)) ∧
    (t.val ∉ (lane s l.val).started → bit (rdReg s devPage 0x700) 29 = true → exec (.threadEnable l m t) s = .next (wrReg (lnPage l.val) 0x700 (w32 ((setBit w t.val true).toNat % 2 ^ 16)) s)) ∧
    (t.val ∉ (lane s l.val).started → bit (rdReg s devPage 0x700) 29 = false → (eng s k).run = .off → exec (.threadEnable l m t) s = .next (
      setEng k { eng s k with run := .running, mode := 1, pc := 0 } (modLane l.val (fun x => { x with started := x.started ++ [t.val] })
        (wrReg (lnPage l.val) 0x700 (w32 ((setBit w t.val true).toNat % 2 ^ 16)) s)))) ∧
    exec (.threadDisable l m t) s = .next (wrReg (lnPage l.val) 0x700 (w32 ((setBit w t.val false).toNat % 2 ^ 16)) s)) ∧
  (∀ (c : Ch) (s : State) (u : Lookup) (l : Nat), l = laneOf c.val → lanesUp s = true → (lane s l).lookups = [u] → u.ch = c.val → u.found = false →
    resultsDue s l u.result.count = true → ∀ (n r : Nat) (d : Word), d = rdReg s (lnPage l) 0x1A0 → n = u.result.count → r = (n + 2 ^ 64 - fld d 15 0) % 2 ^ 64 →
    (∀ h, smGet none (lane s l).ah (r % 65536) = some h → h.tag = r / 65536 →
      exec (.addressHistoryLookup c) s = .next (setLane l { lane s l with lookups := [{ u with addr := some h.addr, found := true }] } s)) ∧
    ((∀ h, smGet none (lane s l).ah (r % 65536) = some h → h.tag ≠ r / 65536) →
      exec (.addressHistoryLookup c) s = .next (raiseBit (lnPage l) 0 (countReg (lnPage l) 0x708 1
        (setLane l { lane s l with lookups := [{ u with addr := none, found := true }] } s)))))

/-- O26. A microword goes on to the address its SEQ field gives, with stack and counters; a WAIT ends at its limit; a Sketch operation returns results or aborts (rests on 07_control_stores.md (sequencers), 07_control_stores.md (the Sketch unit)). -/
def Obligations.SequencersFollowTheirWords : Prop :=
  (∀ (q : SeqId) (ecc : EccOutcome) (s : State) (k : Nat) (x : Seq) (w : Wide) (m : MicroSeq) (c : Bool), k = seqKey q → x = seqAt s k → w = storeWord s (seqStore k) x.addr → m = microSeq w →
    lanesUp s = true → seqFree s k = true → x.running = true → x.waiting = false → portionRuns s (seqStore k) x.addr = true → ecc ≠ .uncorrectable → abortCode s k x w = 0 → m.seq ≤ 4 →
    c = ((condition s k x m).getD false != m.cinv) →
    ∃ t, exec (.microwordExecute q ecc) s = .next t ∧
      (seqAt t k).addr = (if m.seq = 1 ∨ m.seq = 3 ∨ (m.seq = 2 ∧ c = true) then m.next else if m.seq = 4 then x.stack.headD 0 else x.addr + 1) % storeSize (seqStore k) ∧
      (seqAt t k).stack = (if m.seq = 3 then (x.addr + 1) % storeSize (seqStore k) :: x.stack else if m.seq = 4 then x.stack.tail else x.stack) ∧
      (seqAt t k).c0 = (if m.c0op = 1 then m.k else if m.c0op = 2 then x.c0 - 1 else x.c0) ∧ t.mem = s.mem ∧ t.chans = s.chans ∧ t.stores = s.stores) ∧
  (∀ (q : SeqId) (s : State) (k : Nat) (x : Seq), k = seqKey q → x = seqAt s k → lanesUp s = true → seqFree s k = true → x.running = true → x.waiting = false →
    portionRuns s (seqStore k) x.addr = true →
    ∃ t, exec (.microwordExecute q .uncorrectable) s = .next t ∧ portionRuns t (seqStore k) x.addr = false ∧ (k < 64 ∨ 128 ≤ k → (seqAt t k).running = false) ∧ t.mem = s.mem) ∧
  (∀ (l : Ln) (s : State) (x y : Seq) (w : Wide) (m : MicroSeq), x = seqAt s l.val → w = storeWord s l.val x.addr → m = microSeq w → lanesUp s = true → seqFree s l.val = true →
    x.running = true → x.waiting = true → x.timer = false → portionRuns s l.val x.addr = true → m.seq = 5 → m.limit ≠ 0 →
    y = { x with waited := m.limit - 1 } → abortCode s l.val y w = 0 →
    ∃ t, exec (.microwordWaitTimeout (.fm l)) s = .next t ∧
      (seqAt t l.val).addr = (if ((condition s l.val y m).getD false != m.cinv) = true then x.addr + 1 else m.next) % 0x1000 ∧
      (seqAt t l.val).waiting = false ∧ t.mem = s.mem ∧ t.chans = s.chans) ∧
  (∀ (l : Ln) (s : State) (th : Nat) (rest : List Nat) (k : Nat) sock v, lanesUp s = true → (lane s l.val).skDone = th :: rest → k = 512 + 8 * l.val + th →
    (eng s k).ops = [⟨0x1C00, false, [(sock, v)], none, none, [], false⟩] →
    exec (.sketchResultsReady l) s = .next (setEng k (setPort false sock v { eng s k with ops := [] }) (setLane l.val { lane s l.val with skDone := rest } s))) ∧
  (∀ (l : Ln) (s : State) (o : SkOp) (k : Nat) (syn : Word), lanesUp s = true → (lane s l.val).sk = some o → k = 512 + 8 * l.val + o.thread →
    rdReg s (storePage l.val) 0x70C ≠ 0 → syn = w32 (6 * 2 ^ 28 + o.thread * 2 ^ 24 + (seqAt s (64 + l.val)).addr % 2 ^ 13) →
    ∃ t, exec (.sketchWatchdogExpiry l) s = .next t ∧ (lane t l.val).sk = none ∧ (seqAt t (64 + l.val)).running = false ∧
      (eng t k).sketchAbort = some (6, syn) ∧ rdReg t (storePage l.val) 0x710 = syn ∧ bit (rdReg t (storePage l.val) 0x010) 2 = true ∧ t.mem = s.mem ∧ t.chans = s.chans)

/-- O27. BEGIN takes the portions out of service, data go in in order, and only a complete load with the right digest runs; ABORT and a bad COMMIT leave them FAILED (rests on 07_control_stores.md (loading a control store)). -/
def Obligations.StoresLoadOnlyWholeImages : Prop :=
  ∀ (st : StoreId) (s : State) (i p : Nat) (x : CtlStore), i = storeNo st → p = storePage i → x = store s i →
    (∀ m, Takes s p m → isPair m = false → ∀ v, exec (.begin st m v) s = .next (rejectWrite p 0x704 m s) ∧ exec (.loadDataWrite st m v) s = .next (rejectWrite p 0x73C m s) ∧
      exec (.commit st m) s = .next (rejectWrite p 0x704 m s) ∧ exec (.abort st m) s = .next (rejectWrite p 0x704 m s)) ∧
    (∀ m, Takes s p m → isPair m = true →
      (∀ v, beginRefused s i (bit v 2) (bit v 3) = true → exec (.begin st m v) s = .next (refuseCmd p 0x704 m (raiseReject p s))) ∧
      (∀ v, beginRefused s i (bit v 2) (bit v 3) = false → exec (.begin st m v) s = .next (setStore i
        { x with low := if bit v 2 then x.low else 1, up := if bit v 2 || bit v 3 then 1 else 0, loadUp := bit v 2, loadMode := bit v 3, loading := true,
                 ptr := if bit v 2 then quarter i else 0, err := 0 } s)) ∧
      (∀ v, exec (.loadDataWrite st m v) s = .next (
        if x.loading = false ∨ x.busy = true ∨ storeSize i ≤ x.ptr then rejectWrite p 0x73C m s
        else setStore i { x with words := smPut 0 x.words x.ptr (loadedWord (wrReg p 0x73C v s) i), ptr := x.ptr + 1 } (wrReg p 0x73C v s))) ∧
      exec (.commit st m) s = .next (if x.loading = false ∨ x.busy = true then rejectWrite p 0x704 m s else setStore i { x with busy := true } s) ∧
      exec (.abort st m) s = .next (if x.loading = true
        then raiseBit p 1 (setStore i { x with low := if x.low = 1 then 3 else x.low, up := if x.up = 1 then 3 else x.up, loading := false, busy := false, err := 4 } s)
        else rejectWrite p 0x704 m s)) ∧
    (lanesUp s = true → x.busy = true →
      (commitError s i = (if x.ptr < storeSize i then 1 else if (Config.sha384 (digestBytes s i x.loadUp)).toNat ≠ loadDigest s i then 2
        else if x.up = 1 ∧ i < 64 ∧ tableOk s i = false then 3 else 0)) ∧
      (commitError s i ≠ 0 → ∀ v, exec (.commitComplete st v) s = .next (raiseBit p 1 (setStore i
        { x with low := if x.low = 1 then 3 else x.low, up := if x.up = 1 then 3 else x.up, loading := false, busy := false, err := commitError s i } s))) ∧
      (commitError s i = 0 → ∀ v, ∃ t, exec (.commitComplete st v) s = .next t ∧ (store t i).version = (if x.up = 1 then v else x.version) ∧
        (store t i).low = (if x.low = 1 then 2 else x.low) ∧ (store t i).up = (if x.up = 1 then 2 else x.up) ∧ (store t i).words = x.words ∧
        (store t i).mode = (if x.loadUp then x.mode else x.loadMode) ∧ (store t i).loading = false ∧ (store t i).busy = false ∧
        bit (rdReg t p 0x010) 0 = true ∧ t.mem = s.mem ∧ t.chans = s.chans ∧ t.engines = s.engines))

/-- O28. A scrub read counts and reports the error it finds, a pass ends in SCRUB; a mark that differs from its table counts a mismatch and may stop its stream (rests on 15_quench_and_fault_coverage.md (coverage and patrol scrub), 09_scheduling_contract.md (marks)). -/
def Obligations.ScrubReportsAndMarksCompare : Prop :=
  (∀ s : State, domLost s 8 = false → bit (rdReg s scrubPage 0x700) 0 = true →
    exec (.patrolScrubRead .passEnd .clean) s = .next (raiseBit scrubPage 0 (wrReg scrubPage 0x704 (w32 (ft4716 s)) s)) ∧
    (∀ a, exec (.patrolScrubRead (.memory a) .clean) s = .next s ∧
      exec (.patrolScrubRead (.memory a) .corrected) s = .next (report ⟨0, scrubPage, 0, fTMR, 0, 0, []⟩ (countReg scrubPage 0x708 1 s)) ∧
      exec (.patrolScrubRead (.memory a) .uncorrectable) s = .next (capture scrubPage fHW 0 0 s)) ∧
    (∀ (n : Fin 4) (a : BitVec 48), domLost s (10 + n.val) = false → exec (.patrolScrubRead (.hbm n a) .clean) s = .next s ∧
      exec (.patrolScrubRead (.hbm n a) .corrected) s = .next (countReg (hbmPage n.val) 0x708 1 (report ⟨0, hbmPage n.val, 0, fTMR, 0, 0, []⟩ (countReg scrubPage 0x708 1 s))) ∧
      exec (.patrolScrubRead (.hbm n a) .uncorrectable) s = .next (raiseBit (hbmPage n.val) 2 (countReg (hbmPage n.val) 0x70C 1 (capture (hbmPage n.val) fHW 0 0 s))))) ∧
  (∀ (k : Cl) (s u : State) (y : TileMark) (ys : List TileMark) (t : MarkTable) (idx mark : Nat), lanesUp s = true → (base s k.val).marks = y :: ys →
    t = smGet {} s.tables y.ch → mark = leNat (memBytes s (t.addr + 8 * t.pos) 4) → idx = leNat (memBytes s (t.addr + 8 * t.pos + 4) 4) →
    u = setBase k.val { base s k.val with marks := ys } s →
    (t.failed = true ∨ tableUp s (t.addr + 8 * t.pos) = false ∨ idx = 0xFFFFFFFF ∨ y.interval < idx → exec (.expectedMarkCheck k) s = .next u) ∧
    (t.failed = false → tableUp s (t.addr + 8 * t.pos) = true → idx < y.interval → idx ≠ 0xFFFFFFFF → exec (.expectedMarkCheck k) s = .next (raiseBit (clPage (clusterOf y.ch)) 4 (modReg (clPage (clusterOf y.ch)) (0x750 + 4 * (posInCluster y.ch / 32))
      (fun w => setBit w (posInCluster y.ch % 32) true) { u with tables := smPut {} s.tables y.ch { t with failed := true } }))) ∧
    (t.failed = false → tableUp s (t.addr + 8 * t.pos) = true → idx = y.interval → idx ≠ 0xFFFFFFFF → ∀ v, v = { u with tables := smPut {} s.tables y.ch { t with pos := t.pos + 1 } } →
      (mark = y.mark.toNat → exec (.expectedMarkCheck k) s = .next v) ∧
      (mark ≠ y.mark.toNat → (∀ cfg, (chan s y.ch).marks = some cfg → cfg.act = false) → exec (.expectedMarkCheck k) s = .next (markMismatch y.ch v)) ∧
      (∀ cfg, mark ≠ y.mark.toNat → (chan s y.ch).marks = some cfg → cfg.act = true →
        exec (.expectedMarkCheck k) s = .next (modChan y.ch (fun x => { x with markStop := true }) (markMismatch y.ch v))))) ∧
  (∀ (c : Nat) (s : State), markMismatch c s = report ⟨0, pmPage (tileOf c), 1, fEVENT, 5, c, []⟩ (countReg (pmPage (tileOf c)) 0x708 1
    (modReg (pmPage (tileOf c)) (0x700 + 4 * (c % 64 / 32)) (fun w => setBit w (c % 32) true) s))) ∧
  (∀ (c : Ch) (s : State), domLost s (tileOf c.val) = false → (chan s c.val).markStop = true →
    exec (.markMismatchStopArrival c) s = .next (setChan c.val { chan s c.val with markStop := false, stopDue := (chan s c.val).stream != .idle } s))

/-- O29. The oldest lane event becomes records of its sites, joins an open record of its address, or is diverted; an open record closes after its window (rests on 10_fail_capture_and_weld.md (lane events and fail records), 10_fail_capture_and_weld.md (merging)). -/
def Obligations.FailPipelineFormsRecords : Prop :=
  ∀ (k : Cl) (lp : Fin 8) (s : State) (l : Nat), l = laneOfCluster k.val lp.val → lanesUp s = true →
    (∀ e es u, (lane s l).events = e :: es → u = setLane l { lane s l with events := es } s →
      (captureOn s k.val = false → exec (.failPipelineTakeEvent k lp) s = .next u) ∧
      (captureOn s k.val = true → ∀ count tag, e = .mark count tag → exec (.failPipelineTakeEvent k lp) s = .next (if fpRuns s k.val then stageItem l (.user count tag) u else u)) ∧
      (captureOn s k.val = true → fpRuns s k.val = false → ∀ count addr pins, e = .fails count addr pins → exec (.failPipelineTakeEvent k lp) s = .next (divertEvent l addr pins u)) ∧
      (captureOn s k.val = true → fpRuns s k.val = true → ∀ count found p a new, e = .fails count found [p] → a = inReach s k.val p.site found →
        new = (⟨a.isNone, false, p.site, 2 ^ p.pin, 0, p.f, count, count, found.getD 0⟩ : FailRec) →
        (bit (siteCfg s k.val p.site) 31 = false → exec (.failPipelineTakeEvent k lp) s = .next u) ∧
        (bit (siteCfg s k.val p.site) 31 = true → bit (siteCfg s k.val p.site) 29 = false ∨ a = none → exec (.failPipelineTakeEvent k lp) s = .next (closeRecord l new u)) ∧
        (bit (siteCfg s k.val p.site) 31 = true → bit (siteCfg s k.val p.site) 29 = true → a ≠ none →
          (∀ r, (lane s l).open_.find? (fun r => joins r p.site count a (fld (rdReg s (clPage k.val) 0x120) 7 0)) = some r → r.mcnt < 62 →
            exec (.failPipelineTakeEvent k lp) s = .next (setLane l { lane s l with events := es, open_ := (lane s l).open_.erase r ++
              [{ r with mrg := true, pins := Nat.lor r.pins (2 ^ p.pin), uf := Nat.lor r.uf p.f, mcnt := r.mcnt + 1, last := count }] } s)) ∧
          ((lane s l).open_.find? (fun r => joins r p.site count a (fld (rdReg s (clPage k.val) 0x120) 7 0)) = none → (lane s l).open_.length < 4 →
            exec (.failPipelineTakeEvent k lp) s = .next (setLane l { lane s l with events := es, open_ := (lane s l).open_ ++ [new] } s))))) ∧
    (∀ r rs, (lane s l).open_ = r :: rs → exec (.recordCloseTimeout k lp) s = .next (
      if fpRuns s k.val = false then s else if r.last + fld (rdReg s (clPage k.val) 0x120) 7 0 < (base s k.val).count ∨ (base s k.val).running = false
      then closeRecord l r (setLane l { lane s l with open_ := rs } s) else s))

/-- O30. A record goes to its lane's buffer behind the last; a closed buffer enters the done ring; freeing, popping and counting (rests on 10_fail_capture_and_weld.md (records in memory), 10_fail_capture_and_weld.md (the site counters), 10_fail_capture_and_weld.md (the buffer pool)). -/
def Obligations.RecordsGoToTheirBufferInOrder : Prop :=
  (∀ (l : Ln) (s t : State) (r : FailRec) (b : FailBuf) (a : Nat), (lane s l.val).staging = [] → (lane s l.val).buf = some b → b.count < 4095 → (lane s l.val).nullBuf = false →
    r.first / 2 ^ 40 = b.scHigh → a = poolBase s (clusterOfLane l.val) + 0x10000 * b.index + 16 * b.count → hbmUp s a = true → t = stageItem l.val (.record r) s →
    memBytes t a 16 = recordBytes (lanePosition l.val) r ∧ (∀ z, z < a ∨ a + 16 ≤ z → memByte t z = memByte s z) ∧
    (lane t l.val).buf = some { b with count := b.count + 1 } ∧ (lane t l.val).staging = [] ∧ t.chans = s.chans ∧ t.regs = s.regs) ∧
  (∀ (k : Cl) (s : State) (f : FailPipe), f = failPipe s k.val → lanesUp s = true →
    (∀ i is b bs, ((List.range 8).map (fun j => (f.last + 1 + j) % 8)).filter (fun j => (lane s (laneOfCluster k.val j)).asks) = i :: is → f.freeList = b :: bs → (is = [] ∨ bs ≠ []) →
      exec (.bufferRequest k) s = .next (grantBuffer k.val i b s)) ∧
    (∀ i, ((List.range 8).map (fun j => (f.last + 1 + j) % 8)).filter (fun j => (lane s (laneOfCluster k.val j)).asks) = [i] → f.freeList = [] →
      exec (.bufferRequest k) s = .next (nullBuffer (laneOfCluster k.val i) s)) ∧
    (∀ e es, f.closing = e :: es → exec (.bufferDone k) s = .next (if 4096 ≤ f.done.length then s
      else wmSample (clPage k.val) 3 (f.done.length + 1) (raiseBit (clPage k.val) 0 (setFail k.val { f with closing := es, done := f.done ++ [e], flushLeft := f.flushLeft - 1 } s)))) ∧
    (f.flush = true → f.flushLeft = 0 → (∀ i : Fin 8, (lane s (laneOfCluster k.val i.val)).staging.contains .flush = false) →
      exec (.flushComplete k) s = .next (publishStat k.val (raiseBit (clPage k.val) 3 (setFail k.val { f with flush := false } s))))) ∧
  (∀ (l : Ln) (s : State) (n c : Nat), lanesUp s = true → (lane s l.val).counts = [(n, c)] → ∀ f, f = failPipe s (clusterOfLane l.val) →
    exec (.siteCounterUpdate l) s = .next (setFail (clusterOfLane l.val) { f with counters := smPut 0 f.counters n (min (smGet 0 f.counters n + c) 0xFFFFFFFF) }
      (setLane l.val { lane s l.val with counts := [] } s))) ∧
  (∀ (k : Cl) (m : Master) (s : State) (f : FailPipe), f = failPipe s k.val → Takes s (clPage k.val) m →
    (∀ v : Word, exec (.clFreeWrite k m v) s = .next (
      if f.freeList.contains (fld v 11 0) = true ∨ f.done.any (fun e => e.buf == fld v 11 0) = true then refuseCmd (clPage k.val) 0x718 m (raiseReject (clPage k.val) s)
      else wmSample (clPage k.val) 0 (4096 - (f.freeList.length + 1)) (setFail k.val { f with freeList := f.freeList ++ [fld v 11 0] } s))) ∧
    (∀ v : Word, exec (.clDonePopWrite k m v) s = .next (if bit v 0 = false ∨ f.done = [] then s
      else wmSample (clPage k.val) 3 (f.done.length - 1) (setFail k.val { f with done := f.done.tail } s))))

/-- O31. INIT frees every buffer unless capture is on, OVCLR empties the overflow maps, FLUSH closes the open records, and CL_SCSEL latches a site's counters (rests on 10_fail_capture_and_weld.md (the buffer pool), 10_fail_capture_and_weld.md (flush), 10_fail_capture_and_weld.md (registers)). -/
def Obligations.CaptureCommandsAndCounterWindow : Prop :=
  ∀ (k : Cl) (m : Master) (s : State), Takes s (clPage k.val) m →
    (captureOn s k.val = true → exec (.init k m) s = .next (refuseCmd (clPage k.val) 0x70C m s)) ∧
    (captureOn s k.val = false → ∃ t, exec (.init k m) s = .next t ∧ (failPipe t k.val).freeList = List.range 4096 ∧ (failPipe t k.val).done = [] ∧ (failPipe t k.val).closing = [] ∧
      (∀ i : Fin 8, (lane t (laneOfCluster k.val i.val)).buf = none ∧ (lane t (laneOfCluster k.val i.val)).asks = false ∧ (lane t (laneOfCluster k.val i.val)).staging = [] ∧
        (lane t (laneOfCluster k.val i.val)).events = (lane s (laneOfCluster k.val i.val)).events) ∧ t.mem = s.mem ∧ t.chans = s.chans) ∧
    (∃ t, exec (.ovclr k m) s = .next t ∧ (∀ i : Fin 8, lane t (laneOfCluster k.val i.val) = { lane s (laneOfCluster k.val i.val) with ovf := [], unk := false }) ∧
      t.regs = s.regs ∧ t.mem = s.mem ∧ t.chans = s.chans ∧ t.fails = s.fails) ∧
    (∃ t, exec (.flush k m) s = .next t ∧ (failPipe t k.val).flush = true ∧ (∀ i : Fin 8, (lane t (laneOfCluster k.val i.val)).open_ = []) ∧ t.chans = s.chans) ∧
    (∀ site : BitVec 7, (∃ t, exec (.siteCounterSelect k m site) s = .next t ∧ (∀ i : Fin 5, rdReg t (clPage k.val) (0x734 + 4 * i.val) =
        w32 (smGet 0 (failPipe s k.val).counters (5 * site.toNat + i.val))) ∧ t.fails = s.fails ∧ t.lanes = s.lanes ∧ t.mem = s.mem ∧ t.chans = s.chans) ∧
      (∃ t, exec (.siteCounterClear k m site) s = .next t ∧ (∀ i : Fin 5, rdReg t (clPage k.val) (0x734 + 4 * i.val) =
          w32 (smGet 0 (failPipe s k.val).counters (5 * site.toNat + i.val)) ∧ smGet 0 (failPipe t k.val).counters (5 * site.toNat + i.val) = 0) ∧
        (∀ n, n / 5 ≠ site.toNat → smGet 0 (failPipe t k.val).counters n = smGet 0 (failPipe s k.val).counters n) ∧ t.lanes = s.lanes ∧ t.mem = s.mem ∧ t.chans = s.chans))

/-- O32. The Weld engine starts, stops, clears and solves in the order of its input; a record becomes cells of its regions; a replay offers a buffer's records again (rests on 10_fail_capture_and_weld.md (the Weld engine), 10_fail_capture_and_weld.md (Weld commands)). -/
def Obligations.WeldTakesRecordsAndCommandsInOrder : Prop :=
  (∀ (k : Cl) (m : Master) (s : State) (w : Weld), w = weld s k.val → Takes s (wdPage k.val) m →
    (weldSt s k.val ≠ 0 → weldSt s k.val ≠ 3 → exec (.start k m) s = .next (refuseCmd (wdPage k.val) 0x704 m s)) ∧
    (weldSt s k.val = 0 ∨ weldSt s k.val = 3 → w.st = 3 → exec (.start k m) s = .next (setWeld k.val { w with st := 1 } s)) ∧
    (weldFree w = false ∨ weldRuns s k.val = false ∨ w.solving ≠ none →
      (weldSt s k.val = 0 → w.st ≠ 3 → exec (.start k m) s = .next (setWeld k.val { w with input := w.input ++ [.start] } s)) ∧
      exec (.stop k m) s = .next (setWeld k.val { w with input := w.input ++ [.stop] } s) ∧
      ∀ site : BitVec 7, exec (.clear k m site) s = .next (setWeld k.val { w with input := w.input ++ [.clear site.toNat] } s)) ∧
    (w.input = [] → weldFree w = true → weldRuns s k.val = true → w.solving = none →
      (w.st = 0 → exec (.start k m) s = .next (setWeld k.val { w with st := 1 } s)) ∧ exec (.stop k m) s = .next (syncTable k.val (setWeld k.val { w with st := 0 } s)) ∧
      ∀ site : BitVec 7, exec (.clear k m site) s = .next (wmSample (wdPage k.val) 0 (w.regions.filter (fun r => r.site != site.toNat)).length (syncTable k.val (setWeld k.val
          { w with regions := w.regions.filter (fun r => r.site != site.toNat), flags := smPut 0 w.flags site.toNat 0 } s))) ∧
        ((∀ r ∈ w.regions, r.site = site.toNat → r.state ≠ 1 ∧ r.state ≠ 5) →
          exec (.solve k m site) s = .next (raiseBit (wdPage k.val) 0 (setWeld k.val { w with toVisit := [] } s)))) ∧
    (∀ site : BitVec 7, solveBusy w = true → exec (.solve k m site) s = .next (rejectWrite (wdPage k.val) 0x704 m s)) ∧
    (∀ v : Word, (failPipe s k.val).freeList.contains (fld v 11 0) = true → exec (.weldReplay k m v) s = .next (rejectWrite (wdPage k.val) 0x710 m s)) ∧
    (∀ v : Word, (failPipe s k.val).freeList.contains (fld v 11 0) = false → (fld v 24 12 = 0 → exec (.weldReplay k m v) s = .next s) ∧
      (fld v 24 12 ≠ 0 → exec (.weldReplay k m v) s = .next (setWeld k.val { w with input := w.input ++ [.replay (fld v 11 0) 0 (min (fld v 24 12) 4096)] } s))) ∧
    (∀ site : BitVec 7, ∃ t, exec (.weldSummarySelect k m site) s = .next t ∧ rdReg t (wdPage k.val) 0x71C = w32 (smGet 0 w.flags site.toNat) ∧
      (∀ i : Fin 5, rdReg t (wdPage k.val) (0x720 + 4 * i.val) = w32 (stateCount w site.toNat (i.val + 1))) ∧ t.welds = s.welds ∧ t.mem = s.mem ∧ t.chans = s.chans)) ∧
  (∀ (k : Cl) (s : State) (w : Weld), w = weld s k.val → lanesUp s = true → weldRuns s k.val = true →
    (w.st = 1 → w.input = [] → exec (.weldStartComplete k) s = .next (wmSample (wdPage k.val) 0 0 (raiseBit (wdPage k.val) 4 (syncTable k.val (setWeld k.val { w with st := 2, regions := [] } s))))) ∧
    (∀ lp r v, weldFree w = true → w.input = [.record lp r] →
      v = wmSample (wdPage k.val) 1 0 (weldRun k.val weldFuel (setWeld k.val { w with input := [], cells := if r.au then [] else recordCells s k.val lp r } s)) →
      exec (.weldRecord k) s = .next (syncTable k.val (weldCommands k.val ((weld v k.val).input.length + 1) v))) ∧
    (∀ b i n v, weldFree w = true → w.input = [.replay b i n] →
      v = weldRun k.val weldFuel (setWeld k.val { w with input := if i + 1 < n then [.replay b (i + 1) n] else [], cells := replayCells s k.val b i } s) →
      exec (.weldRecord k) s = .next (syncTable k.val (weldCommands k.val ((weld v k.val).input.length + 1) v))) ∧
    (∀ n i r g exceeded, w.input = [] → w.solving = some n → w.toVisit = [i] → findRegion w n i = some r → g = geometry s k.val r.geo →
      w.searching = true ∨ (weldFree w = true ∧ g.hsolve = false ∧ (r.state = 1 ∨ r.state = 5)) →
      exec (.weldSolveRegion k exceeded) s = .next (syncTable k.val (raiseBit (wdPage k.val) 0 (setWeld k.val
        { putRegion (if exceeded = true ∧ g.sbud ≠ 0 then { r with state := 5 } else searchRegion g r) w with toVisit := [], solving := none, searching := false } s)))))

/-- O33. The search solves a region exactly where some choice of spare rows and columns covers its cells, covers them all and uses the fewest spares (rests on 10_fail_capture_and_weld.md (the search)). -/
def Obligations.WeldSearchIsBest : Prop :=
  ∀ (g : Geometry) (r t : WeldRegion) (covers : List Nat → List (Nat × Nat) → Prop), r.rows.length ≤ g.sr → r.cols.length ≤ g.sc → t = searchRegion g r →
    covers = (fun rows cols => rows.length ≤ g.sr - r.rows.length ∧ cols.length ≤ g.sc - r.cols.length ∧ ∀ c ∈ r.pend, c.row ∈ rows ∨ (c.q, c.col) ∈ cols) →
    ((∃ rows cols, covers rows cols) → t.state = 2 ∧ t.pend = [] ∧ (∀ c ∈ r.pend, covered t c = true) ∧ t.rows.length ≤ g.sr ∧ t.cols.length ≤ g.sc ∧
      (∀ rows cols, covers rows cols → t.rows.length + t.cols.length ≤ r.rows.length + rows.length + (r.cols.length + cols.length))) ∧
    ((∀ rows cols, ¬ covers rows cols) → t = { r with state := 3 })

/-- O34. A transaction waits at its port; its target answers with its effect and data, or with one error; a busy read is issued again and a timeout ends it (rests on 11_memories_and_matrix.md (paths), 11_memories_and_matrix.md (responses and errors), 11_memories_and_matrix.md (ordering)). -/
def Obligations.MatrixAnswersWhatItTook : Prop :=
  (∀ (m : Master) (id : BitVec 4) (write : Bool) (addr : BitVec 48) (data : List Byte) (s : State), domLost s 8 = false →
    exec (.matrixTransaction m id write addr data) s = .next (grantAll { s with trans := s.trans ++
      [⟨m, portId m id.toNat, write, addr.toNat, if write then data else [], data.length, portTarget s m addr.toNat, .plain, s.now, 0, false⟩] })) ∧
  (∀ (n : Nat) (t : Trans) (s u : State), u = grantAll s → u.trans[n]? = some t → t.since + timeLimit t.target < u.now → ∀ a, exec (.matrixResponse n a) s = .next (matrixTimesOut n u)) ∧
  (∀ (n : Nat) (t : Trans) (s u v : State), u = grantAll s → u.trans[n]? = some t → u.now ≤ t.since + timeLimit t.target → (if t.target = .none then placed u n t true else t.granted) = true → v = { u with trans := u.trans.eraseIdx n } →
    (∀ e a, transError u t = some e → exec (.matrixResponse n a) s = .next (
      if replyWaits u t then u else grantAll (matrixReply t (if t.write then [] else List.replicate t.len 0) (some e) v))) ∧
    (transError u t = none → mramWaits u t.target t.addr t.len t.write = false →
      exec (.matrixResponse n .ok) s = .next (grantAll (matrixReply t (transEffect t v).1 none (transEffect t v).2)) ∧
      (t.use = .plain → t.target ≠ .regs → (∀ b, t.target ≠ .mram b) → ∀ (w : State) (r : List Byte × State), w = memYields t.target t.master v →
        r = (if t.write then ([], targetWrite t.target t.addr t.data w) else (targetRead w t.target t.addr t.len, w)) →
        exec (.matrixResponse n .ok) s = .next (grantAll { r.2 with replies := r.2.replies ++ [⟨t.master, t.id, t.write, r.1, none⟩] })) ∧
      (t.write = false → mayCollide t.target = true → t.busy < 15 →
        exec (.matrixResponse n .busy) s = .next (grantAll (countReg mxPage 0x710 1 { u with trans := u.trans.set n { t with busy := t.busy + 1, granted := false } }))) ∧
      (t.write = false → mayCollide t.target = true → 15 ≤ t.busy → replyWaits u t = false →
        exec (.matrixResponse n .busy) s = .next (grantAll (matrixReply t (List.replicate t.len 0) (some .target) v))) ∧
      (t.write = false → mayFailEcc t.target = true → replyWaits (eccMeets t.target .uncorrectable u) t = false →
        exec (.matrixResponse n .ecc) s = .next (endWith n t .ecc (eccMeets t.target .uncorrectable u))))) ∧
  (∀ (n : Nat) (t : Trans) (s u : State), domLost s 8 = false → s.trans[n]? = some t → transError s t = none → replyWaits s t = false → placed s n t true = true →
    u = tick (reach (t.since + (match t.target with | .mram _ => 12 * us | _ => 2 * us)) s) →
    exec (.matrixTimeout n) s = .next (endWith n t .timeout u) ∨
    exec (.matrixTimeout n) s = .next (endTrans n t (fun s => ((errorData t, some .timeout), (transEffect t s).2)) u))

/-- O35. A power request waits for its transition or is refused; OFF loses the contents; a wipe ends with every byte of the secure bank zero; REMAP sets once (rests on 11_memories_and_matrix.md (power states), 11_memories_and_matrix.md (the secure wipe), 11_memories_and_matrix.md (MRAM), 11_memories_and_matrix.md (REMAP)). -/
def Obligations.MemoriesSleepWipeAndProgram : Prop :=
  (∀ (off : BitVec 12) (m : Master) (v : Word) (s : State) (n b i : Nat) (x : PowerState) (w : Nat), Takes s memPage m → 0x700 ≤ off.toNat → off.toNat ≤ 0x714 → off.toNat % 4 = 0 →
    pwrFields off.toNat = (n, b) → i < n → (∀ j, j < n → j ≠ i → fld v (2 * j + 1) (2 * j) = (powerOf s (b + j)).st ∧ (powerOf s (b + j)).st < 3) → x = powerOf s (b + i) →
    w = fld v (2 * i + 1) (2 * i) →
    exec (.memoryPowerRequest off m v) s = .next (
      if pairService s m = false then rejectWrite memPage off.toNat m s
      else if w = 3 then capture memPage fINVALID off.toNat (masterCode m) s
      else if w = x.st then s
      else if x.goal.isSome = true ∨ (x.st = 0 ∧ leaveRefused s (b + i) = true) then refuseCmd memPage off.toNat m (raiseReject memPage s)
      else { s with power := smPut {} s.power (b + i) { x with goal := some w } })) ∧
  (∀ (r : Region) (s : State) (x : PowerState) (g : Nat), domLost s 8 = false → x = powerOf s (regionNo r) → x.goal = some g → ∀ u,
    u = (if g = 2 ∨ x.st = 2 then wipeMem (regionSpan (regionNo r)).1 (regionSpan (regionNo r)).2 s else s) →
    exec (.memoryPowerTransitionDone r) s = .next (forEach [0x700, 0x704, 0x708, 0x70C, 0x710, 0x714] (raiseBit memPage 1 { u with power := smPut {} s.power (regionNo r) { st := g } })
      (fun off v => if pwrMoving v off then v else finishWaits (.power off) 0 (pwrRead v off).toNat v))) ∧
  (∀ s : State, exec (.secureWipeStart .tamperOver) s = .next { s with pins := { s.pins with tamper := false } }) ∧
  (∀ (c : WipeCause) (s z u : State), c ≠ .tamperOver → z = modReg memPage 0x720 (fun w => setBit w (wipeBit c) true) s →
    u = (match c with
      | .tamperN => { z with pins := { z.pins with tamper := true } }
      | .lifecycle => { z with power := smPut {} z.power 2 {} }
      | _ => z) →
    exec (.secureWipeStart c) s = .next (if s.wiping then u
      else offer 0xB001 4 memPage false [BitVec.ofNat 8 (fld (rdReg u memPage 0x720) 3 0)] (modPat (fun p => { p with auth := false }) (raiseBit memPage 0 { u with wiping := true })))) ∧
  (∀ s : State, s.wiping = true → ∃ t, exec .secureWipeComplete s = .next t ∧ t.wiping = false ∧ (∀ a, 0x1000000 ≤ a → a < 0x1100000 → memByte t a = 0) ∧
    (∀ a, a < 0x1000000 ∨ 0x1100000 ≤ a → memByte t a = memByte s a) ∧ t.regs = s.regs ∧ t.chans = s.chans) ∧
  (∀ (bank : Fin 2) (s : State), exec (.mramLineProgrammed bank) s = .next { s with mramLines := smPut [] s.mramLines bank.val (mramBuf s bank.val).tail, mramGap := smPut false s.mramGap bank.val (s.trans.any (fun t => !t.write && t.target == .mram bank.val)) }) ∧
  (∀ (m : Master) (s : State), Takes s mxPage m → exec (.remap m) s = .next (if pairService s m then wrReg mxPage 0x700 1 s else rejectWrite mxPage 0x700 m s))

/-- O36. A Tongs transfer goes burst by burst and ends DONE, in its chain, aborted or in error; a snapshot latches its pages at one instant and is written or fails (rests on 11_memories_and_matrix.md (Tongs), 12_canvas_easel_hang.md (snapshots)). -/
def Obligations.TongsCopiesAndSnapshotsLatch : Prop :=
  (∀ (c : Fin 8) (m : Master) (s : State) (x : TongsChan) (o : Nat), Takes s tongsPage m → x = tgChan s c.val → o = 0x71C + 0x20 * c.val →
    (∀ v : Word, x.running = true ∨ (c.val = 7 ∧ s.snap.running = true) → exec (.go c m v) s = .next (rejectWrite tongsPage o m s)) ∧
    (∀ v : Word, x.running = false → ¬ (c.val = 7 ∧ s.snap.running = true) → ∀ u, u = modReg tongsPage o (fun w => setFld w 23 20 0)
        (modReg tongsPage o (fun w => let w := setBit (setBit w 29 (bit v 29)) 28 (bit v 28); if bit v 19 then setBit w 19 false else w) s) →
      exec (.go c m v) s = .next (if tgRefused s c.val = 0 then tgIssueAll (setTg c.val { running := true, abort := x.abort } u) else tgFails c.val (tgRefused s c.val) u)) ∧
    (∃ t, exec (.tongsAbort c m) s = .next t ∧ tgChan t c.val = { x with abort := x.abort || x.running } ∧ RegsKept s t [] ∧ t.mem = s.mem ∧ t.chans = s.chans)) ∧
  (∀ (a d n : Nat), 0 < n → n % 8 = 0 → a % 8 = 0 → d % 8 = 0 → 0 < burstLen a d n ∧ burstLen a d n ≤ n ∧ burstLen a d n % 8 = 0 ∧
    a % 256 + burstLen a d n ≤ 256 ∧ d % 256 + burstLen a d n ≤ 256 ∧ a % lowBit (burstLen a d n) = 0 ∧ d % lowBit (burstLen a d n) = 0) ∧
  (∀ (c : Fin 8) (s : State) (x : TongsChan), domLost s 8 = false → x = tgChan s c.val → x.running = true → x.chaining = false → tgFlight s c.val = 0 → x.data = [] →
    (x.abort = true → exec (.tongsTransferEnd c) s = .next (tgFails c.val 8 s)) ∧
    (x.abort = false → tgLen s c.val ≤ x.acked → bit (rdReg s tongsPage (0x71C + 0x20 * c.val)) 28 = false ∨ x.last = true →
      exec (.tongsTransferEnd c) s = .next (tgDone c.val (setTg c.val {} s))) ∧
    (x.abort = false → tgLen s c.val ≤ x.acked → bit (rdReg s tongsPage (0x71C + 0x20 * c.val)) 28 = true → x.last = false →
      exec (.tongsTransferEnd c) s = .next (tgChain c.val (if x.irq then tgDone c.val s else s)))) ∧
  (∀ (m : Master) (v : Word) (s : State) (t : Nat), Takes s snapPage m → t = (if bit v 30 then rd64 s snapPage 0x714 * ns else s.now) → ∀ u,
    u = modReg snapPage 0x71C (fun w => setFld w 3 0 0) (modReg snapPage 0x710 (fun w => setFld (setBit w 30 (bit v 30)) 8 0 (fld v 8 0)) s) →
    exec (.snapshotStart m v) s = .next (
      if s.snap.running = true ∨ (tgChan s 7).running = true ∨ fld v 8 0 = 0 ∨ 256 < fld v 8 0 ∨ fld (rdReg s snapPage 0x708) 10 0 ≠ 0 then rejectWrite snapPage 0x710 m s
      else if bit v 30 = true ∧ t < s.now + us then snapFails 2 u else { u with snap := { running := true, startAt := s.now, atT := t } })) ∧
  (∀ (s u : State) (err : Option BusKind), domLost s 8 = false → s.snap.running = true →
    (∀ w, s.snap.captured = false → listWaits s = false → u = reach s.snap.atT s → listError u err = none → (∀ p ∈ snapList u, pageError u p ≠ some .decode) → hangSplits u (snapList u) u.now = false →
      w = publishFabric (forUpTo 8 (yields (fun p => (snapList u).contains p) u) publish) →
      exec (.snapshotCapture err) s = .next { w with free := w.free + 512, snap := { w.snap with atT := w.now, list := snapList u, captured := true, words := (snapList u).map (snapWords w) } }) ∧
    (∀ x, s.snap.captured = false → listWaits s = false → u = reach s.snap.atT s → listError u err = some x → exec (.snapshotCapture err) s = .next (snapStops x.1 4 false x.2 u)) ∧
    (s.snap.captured = true → (∀ b : Fin 2, executing s b.val = false) → ∀ r, r = snapStore s.snap.words (snapAddr s 0x708) s →
      (r.1 = none → ∃ t, exec (.snapshotComplete none) s = .next t ∧ t.snap = {} ∧ rdReg t snapPage 0x720 = w32 (s.snap.atT / ns) ∧ rdReg t snapPage 0x724 = w32 (s.snap.atT / ns / 2 ^ 32) ∧
        bit (rdReg t snapPage 0x71C) 31 = true ∧ bit (rdReg t snapPage 0x010) 0 = true ∧ t.mem = r.2.mem ∧ t.chans = s.chans) ∧
      (∀ x, r.1 = some x → exec (.snapshotComplete none) s = .next (snapStops x.1 256 true x.2 r.2))))

/-- O37. A Hang is decided as a whole; each page of an armed one switches its roles once and counts its epoch; CANCEL disarms in time and COPY copies what is in force (rests on 12_canvas_easel_hang.md (Hang), 12_canvas_easel_hang.md (CANCEL and COPY), 12_canvas_easel_hang.md (registers)). -/
def Obligations.HangSwitchesItsGroupOnce : Prop :=
  (∀ (m : Master) (v : Word) (s u : State) (slot : Nat), Takes s hangPage m → slot = (if fld v 5 4 = 3 then 7 else fld v 26 24) → u = hangYields (fld v 15 8) s →
    exec (.hang m v) s = .next (if (fld v 5 4 = 3 ∧ bit (rdReg u fbPage 0x70C) 1 = false) ∨ (slot = 7 ∧ fld v 5 4 ≠ 3) ∨ (hangSlot u slot).st = 1 ∨ u.hangAsk.isSome = true
      then rejectWrite hangPage 0x70C m u
      else { u with hangAsk := some ⟨slot, fld v 5 4, fld v 15 8, fld v 18 16, if fld v 5 4 = 0 then localInstant u (fld v 18 16) u.now else hangAt u, u.now,
        fld (rdReg u fbPage 0x700) 15 0, 0, masterCode m⟩ }) ∧
    (∀ x, fld v 5 4 ≠ 3 → x = hangSlot s slot → exec (.cancel m v) s = .next (if x.st = 1 ∧ s.now + us ≤ x.h ∧ x.left.length = x.pages.length
      then slotRefused slot { st := 3, err := 6, scope := x.scope, group := x.group, cluster := x.cluster } s else rejectWrite hangPage 0x70C m s)) ∧
    exec (.copy m v) s = .next (if groupArmed s (fld v 15 8) then rejectWrite hangPage 0x70C m s else { s with copies := s.copies ++ [groupPages s (fld v 15 8)] })) ∧
  (∀ (a : HangAsk) (s u : State), domLost s 8 = false → s.hangAsk = some a → a.scope ≠ 3 → u = { s with hangAsk := none } →
    (hangError u a (groupPages s a.group) true = none → exec (.hangDecision false) s = .next (setHang a.slot
      { st := 1, scope := a.scope, group := a.group, cluster := a.cluster, h := a.h, pages := groupPages s a.group, left := groupPages s a.group } u)) ∧
    (∀ e p, hangError u a (groupPages s a.group) true = some (e, p) → (hangSlot s a.slot).st ≠ 1 → exec (.hangDecision false) s = .next
      (slotRefused a.slot { st := 3, err := e, scope := a.scope, group := a.group, cluster := a.cluster } (badPage p (capture hangPage fREFUSED 0x70C a.mst u))))) ∧
  (∀ (slot : Fin 8) (page : BitVec 14) (s u : State) (x : HangSlot) (y : Page), domLost s 8 = false → x = hangSlot s slot.val → x.st = 1 → page.toNat ∈ x.left →
    pageAt page.toNat = some y → switchNext s x.h page.toNat = true → u = reach (switchInstant s x.h page.toNat) s →
    (∀ v, y.kind ≠ .ch → y.kind ≠ .cl → hasBank y.kind = true → domLost s (pageDomain y) = false → page.toNat ∉ x.lost → v = mayCopy page.toNat u →
      ∃ t, exec (.hangPageSwitch slot page) s = .next t ∧
      smGet false t.swapped page.toNat = !smGet false v.swapped page.toNat ∧ rdReg t page.toNat 0x028 = rdReg v page.toNat 0x028 + 1 ∧
      (hangSlot t slot.val).left = x.left.filter (fun q => q != page.toNat) ∧
      (hangSlot t slot.val).st = (if x.left.all (fun q => q == page.toNat) then 2 else 1) ∧
      (∀ q, q ≠ page.toNat → smGet false t.swapped q = smGet false v.swapped q) ∧ t.now = v.now ∧ t.mem = v.mem ∧ t.chans = v.chans ∧ t.pal = v.pal) ∧
    (domLost s (pageDomain y) = true ∨ page.toNat ∈ x.lost → ∃ t, exec (.hangPageSwitch slot page) s = .next t ∧ t.swapped = s.swapped ∧ rdReg t page.toNat 0x028 = rdReg s page.toNat 0x028 ∧
      (hangSlot t slot.val).degraded = true ∧ bit (rdReg t hangPage 0x010) 2 = true ∧ (hangSlot t slot.val).left = x.left.filter (fun q => q != page.toNat) ∧
      t.mem = s.mem ∧ t.chans = s.chans ∧ t.pal = s.pal)) ∧
  (∀ (slot : Fin 8) (page : BitVec 14) (s : State), domLost s 8 = false → (hangSlot s slot.val).st ≠ 1 ∨ page.toNat ∉ (hangSlot s slot.val).left →
    exec (.hangPageSwitch slot page) s = .next s) ∧
  (∀ (s : State) (p : Nat) (ls : List (List Nat)) (y : Page), domLost s 8 = false → s.copies = [p] :: ls → pageAt p = some y → y.kind ≠ .ch →
    ∃ t, exec .copyComplete s = .next t ∧ t.copies = ls ∧ (∀ r ∈ regsOf y.kind, r.bankable = true → ∀ i, i < r.count →
      rdRole t true p (r.off + r.stride * i) = copied s p (r.off + r.stride * i) ∧
        (y.kind ≠ .cl ∨ r.off + r.stride * i ≠ 0x108 → copied s p (r.off + r.stride * i) = inForce s p (r.off + r.stride * i))) ∧
      (∀ q off, q < 2 ^ 14 → off < 2 ^ 12 → rdReg t q off = rdReg s q off) ∧ t.mem = s.mem ∧ t.chans = s.chans ∧ t.pal = s.pal)

/-- O38. A port trains, is UP with its neighbour, and in FAULT loses its frames; link control blocks carry credit and acknowledgement (rests on 13_amibin_fabric.md (ports), 13_amibin_fabric.md (the link layer)). -/
def Obligations.PortsFollowTheirStates : Prop :=
  ∀ (p : PortNo) (s : State) (x : Port), x = port s p.val → domLost s 9 = false →
    exec (.portPartnerPresent p) s = .next (if x.st = 1 then raiseBit (fbpPage p.val) 0 (setPortAt p.val { x with st := 2 } s) else s) ∧
    (∀ (nbr : BitVec 16) (nport : PortNo), s.tapFault = false →
      (x.st = 2 ∨ x.st = 4 → ∃ t, exec (.portTrainingComplete p nbr nport) s = .next t ∧ (port t p.val).st = 3 ∧ (port t p.val).nbr = nbr.toNat ∧ (port t p.val).nport = nport.val ∧
        (port t p.val).known = true ∧ (port t p.val).rxSeq = 0 ∧ bit (rdReg t (fbpPage p.val) 0x010) 0 = true ∧ t.mem = s.mem ∧ t.chans = s.chans) ∧
      (x.st ≠ 2 → x.st ≠ 4 → exec (.portTrainingComplete p nbr nport) s = .next s)) ∧
    (x.st = 3 → ∃ t, exec (.portFault p) s = .next t ∧ (port t p.val).st = 4 ∧ (port t p.val).unacked = [] ∧ (port t p.val).txq = [] ∧
      bit (rdReg t (fbpPage p.val) 0x010) 0 = true ∧ bit (rdReg t (fbpPage p.val) 0x010) 1 = true ∧ t.mem = s.mem ∧ t.chans = s.chans) ∧
    (x.st ≠ 3 → exec (.portFault p) s = .next s) ∧
    (∀ m, Takes s (fbpPage p.val) m → s.tapFault = false → x.st ≠ 0 → bit (rdReg s (fbpPage p.val) 0x700) 0 = true →
      ∃ t, exec (.retrain p m) s = .next t ∧ (port t p.val).st = 4 ∧ (port t p.val).unacked = [] ∧ (port t p.val).txq = [] ∧ t.mem = s.mem ∧ t.chans = s.chans) ∧
    exec (.linkControlBlockSend p) s = .next (if x.st = 3 then send (.linkBlock p.val { ack := BitVec.ofNat 12 x.rxSeq, requests := x.requests + (if x.resend then 1 else 0), credits := x.freed, nbr := BitVec.ofNat 16 (node s), nport := p })
      (setPortAt p.val { x with requests := x.requests + (if x.resend then 1 else 0), resend := false } s) else s) ∧
    (∀ (b : LinkBlock) (fec : FecCount) (u v : State) (y z : Port), x.st = 3 → u = countFec p.val fec s → y = port u p.val →
      z = { y with unacked := afterAck b.ack.toNat y.unacked, nbr := b.nbr.toNat, nport := b.nport.val, known := true, back := forEach b.credits y.back (fun c m => smPut 0 m c.1 (max (smGet 0 m c.1) c.2)) } →
      v = sendFrames p.val (if y.served < b.requests then resendAll p.val (setPortAt p.val { z with served := b.requests } u) else setPortAt p.val z u) →
      exec (.linkControlBlockReceive p b fec) s = .next (wmSample (fbpPage p.val) 0 (port v p.val).unacked.length v))

/-- O39. A port takes only the frame it expects next, delivers or forwards it, and asks for a resend of one lost; DISC and ASSIGN are answered (rests on 13_amibin_fabric.md (frames), 13_amibin_fabric.md (the link layer), 13_amibin_fabric.md (discovery and assignment)). -/
def Obligations.FramesAreTakenInSequence : Prop :=
  (∀ f : Frame, f.payload.length ≤ 256 → frameOf (wireOf f) = some f) ∧
  (∀ (p : PortNo) (wire : List Byte) (fec : FecCount) (s v : State) (x : Port), v = countFec p.val fec s → x = port v p.val → domLost s 9 = false → x.st = 3 →
    (frameOf wire = none → exec (.frameReceive p wire fec) s = .next (setPortAt p.val { x with resend := true } v)) ∧
    (∀ f, frameOf wire = some f → f.lseq.toNat ≠ x.rxSeq →
      exec (.frameReceive p wire fec) s = .next (if (f.lseq.toNat + 4096 - x.rxSeq) % 4096 < 2048 then setPortAt p.val { x with resend := true } v else v)) ∧
    (∀ f u, frameOf wire = some f → f.lseq.toNat = x.rxSeq → u = setPortAt p.val { x with rxSeq := (x.rxSeq + 1) % 4096, resend := false } v →
      (f.vc = 7 ∨ typeVc f.type.toNat ≠ some f.vc.toNat → exec (.frameReceive p wire fec) s = .next (countReg (fbpPage p.val) 0x71C 1 (freeBuffer p.val f u))) ∧
      (f.vc ≠ 7 → typeVc f.type.toNat = some f.vc.toNat → f.type.toNat ≠ 0x10 → portRouted f.type.toNat = false →
        (f.dst ≠ 0xFFFF → f.dst.toNat = node u → node u ≠ 0 → exec (.frameReceive p wire fec) s = .next (deliver p.val f u)) ∧
        (f.dst ≠ 0xFFFF → f.dst.toNat ≠ node u → exec (.frameReceive p wire fec) s = .next (if f.ttl.toNat ≤ 1 then countReg fbPage 0x73C 1 (freeBuffer p.val f u) else sendTo { f with ttl := f.ttl - 1 } (freeBuffer p.val f u))) ∧
        (f.dst = 0xFFFF → node u ≠ 0 → exec (.frameReceive p wire fec) s = .next (if f.ttl.toNat ≤ 1 then deliver p.val f u else broadcast p.val { f with ttl := f.ttl - 1 } (deliver p.val f u)))))) ∧
  (∀ (s u : State) (d : Delivered) (ds : List Delivered), domLost s 9 = false → s.fabric.delivered = d :: ds → u = freeBuffer d.port d.frame { s with fabric := { s.fabric with delivered := ds } } →
    (d.frame.type = 8 → exec .disc s = .next (answerRouted d 9 0 (identity u d.port) u)) ∧
    (d.frame.type = 0xA →
      (node s ≠ 0 → exec .assign s = .next (answerRouted d 0xB 1 (leBytes 2 (node s)) u)) ∧
      (node s = 0 → (d.frame.payload.drop 42).take 8 ≠ serialBytes s → exec .assign s = .next (answerRouted d 0xB 2 (leBytes 2 0) u)) ∧
      (node s = 0 → (d.frame.payload.drop 42).take 8 = serialBytes s → ∀ v w, v = modReg fbPage 0x700 (fun w => setFld w 15 0 (d.frame.addr.toNat % 2 ^ 16)) u →
        w = (if fabManager s = 0 then modFab (fun x => { x with routes := smPut 0 x.routes d.frame.src.toNat (w32 (0x8000 + d.port % 8 * 2 ^ 12)) })
          (modReg fbPage 0x710 (fun w => setFld w 15 0 d.frame.src.toNat) v) else v) →
        exec .assign s = .next (answerRouted d 0xB 0 (leBytes 2 (d.frame.addr.toNat % 2 ^ 16)) w))) ∧
    (∀ x ∈ ([(.discRsp, 9), (.assignRsp, 0xB), (.hangRpl, 0x16), (.notice, 0x18)] : List (Instr × BitVec 5)), d.frame.type = x.2 → exec x.1 s = .next u))

/-- O40. A delivered request runs through the Amibin agent only within its restriction, and is answered with data or its error; a response completes its transaction (rests on 13_amibin_fabric.md (remote requests), 13_amibin_fabric.md (responses), 12_canvas_easel_hang.md (Fabric Hangs)). -/
def Obligations.RequestsOfNodesAreChecked : Prop :=
  (∀ (t : Trans) (f : Frame) (data : List Byte) (s : State), t.use = .agent f → matrixReply t data none s = sendTo (response s f 0 data) s ∧
    (∀ k, domLost s 8 = false → matrixReply t data (some k) s = sendTo (response (mxError t.master t.addr (busCode k) s) f (busCode k) data) (mxError t.master t.addr (busCode k) s))) ∧
  (∀ (s u : State) (d : Delivered) (ds : List Delivered) (f : Frame), domLost s 9 = false → s.fabric.delivered = d :: ds → f = d.frame → u = freeBuffer d.port f { s with fabric := { s.fabric with delivered := ds } } →
    (∀ x ∈ ([(.rdReq, 1), (.wrReq, 2), (.pgRd, 3), (.pgWr, 4), (.brdReq, 5), (.bwrReq, 6)] : List (Instr × Nat)), f.type.toNat = x.2 → ∀ (write : Bool) (len : Nat) (go : State → State),
      write = (x.2 % 2 == 0) → len = (if write then f.payload.length else if x.2 = 3 then 4 else leNat (f.payload.take 4) % 512) →
      go = (fun v => if requestAllowed v x.2 f.src.toNat (targetOf v f.addr.toNat) then enterPort .agent f.src.toNat write f.addr.toNat (if write then f.payload else []) len (.agent f) v
        else sendTo (response v f 7 []) v) →
      (responsesWait s f.src.toNat = false → exec x.1 s = .next (go u)) ∧
      (responsesWait s f.src.toNat = true → exec x.1 s = .next (tick s) ∨ exec x.1 s = .next (go (tick u)))) ∧
    (∀ type src tgt, requestAllowed u type src tgt = (if type = 3 then src != 0 && (tgt == .regs || tgt == .none)
      else if type = 4 then mayWritePages u src && (tgt == .regs || tgt == .none) else bit (rdReg u fbPage 0x70C) 0 && memoryReach tgt)) ∧
    (f.type = 7 →
      ((∀ x ∈ s.fabric.outstanding, x.tag ≠ f.tag.toNat ∨ x.dst ≠ f.src.toNat) → exec .rsp s = .next (countReg fbPage 0x734 1 u)) ∧
      (∀ x, s.fabric.outstanding = [x] → x.tag = f.tag.toNat → x.dst = f.src.toNat →
        exec .rsp s = .next (if x.read = true ∧ f.addr.toNat % 16 = 0
          then endTransaction x (if bankOpen u .agent x.buf then 0 else 3) (bankPut .agent x.buf (f.payload.take x.len) u) else endTransaction x (f.addr.toNat % 16) u))) ∧
    (f.type = 0x14 → (∀ a, s.fabHangAsk = some a → exec .hangBc s = .next (hangYields a.group s)) ∧
      (s.fabHangAsk = none → ∀ g, g = leNat (f.payload.take 2) % 256 → exec .hangBc s = .next (hangYields g
        { u with fabHangAsk := some ⟨7, 3, g, 0, leNat ((f.payload.drop 2).take 8) * ns + leNat ((f.payload.drop 10).take 2), s.now, f.src.toNat, f.tag.toNat, masterCode .agent⟩ }))) ∧
    (f.type = 0x15 → ∀ x, x = hangSlot s 7 → exec .hangCancel s = .next (
      if x.st = 1 ∧ s.now + us ≤ x.h ∧ x.left.length = x.pages.length
      then slotRefused 7 { st := 3, err := 6, scope := x.scope, group := x.group, cluster := x.cluster } u else u)))

/-- O41. The ring issues its descriptors in order and each ends with a status; an emergency block is taken once and passed on; tables are written (rests on 13_amibin_fabric.md (the transaction ring), 13_amibin_fabric.md (emergency blocks), 13_amibin_fabric.md (routing table)). -/
def Obligations.TheRingIssuesAndEmergenciesFlood : Prop :=
  (∀ (m : Master) (s : State), (Takes s fbPage m → (∀ v : Word, exec (.transactionRingProduce m v) s = .next (wrReg fbPage 0x72C (w32 (fld v 5 0)) s)) ∧
      (∀ v : Word, Legal .fb 0x700 v → exec (.fbNodeWrite m v) s = .next (wrReg fbPage 0x700 (written .fb 0x700 (rdReg s fbPage 0x700) v) s)) ∧
      (∀ v : Word, Legal .fb 0x740 (setBit v 1 true) → domLost s 9 = false → ∃ t, exec (.send m v) s = .next t ∧ bit (rdReg t quenchPage 0x700) 1 = true ∧
        (bit (rdReg s quenchPage 0x700) 1 = false → ∀ c : Ch, watched s c.val = true → (chan t c.val).held = true))) ∧
    (Takes s fbrtPage m → ∀ i w, i = fld (rdReg s fbrtPage 0x700) 15 0 → w = (fun r : Word => if bit r 16 then setFld r 15 0 (fld r 15 0 + 1) else r) →
      (∀ v : Word, exec (.fbrtDataAccess m (some v)) s = .next (modReg fbrtPage 0x700 w { s with fabric := { s.fabric with routes := smPut 0 s.fabric.routes i (w32 (fld v 15 4 * 16)) } })) ∧
      exec (.fbrtDataAccess m none) s = .next (modReg fbrtPage 0x700 w s))) ∧
  (∀ (s u : State) (i : Nat), i = fld (rdReg s fbPage 0x730) 5 0 → u = wrReg fbPage 0x730 (w32 ((i + 1) % 64)) s →
    (i = fld (rdReg s fbPage 0x72C) 5 0 ∨ (domLost s 9 = false ∧ node s = 0) → exec .transactionIssue s = .next s) ∧
    (i ≠ fld (rdReg s fbPage 0x72C) 5 0 → domLost s 9 = true → exec .transactionIssue s = .next (completeDesc i 4 u)) ∧
    (i ≠ fld (rdReg s fbPage 0x72C) 5 0 → domLost s 9 = false → node s ≠ 0 →
      (bankOpen u .agent (ringAt u i) = false → exec .transactionIssue s = .next (completeDesc i 3 u)) ∧
      (bankOpen u .agent (ringAt u i) = true → descOk u i = false → exec .transactionIssue s = .next (completeDesc i 8 u)) ∧
      (bankOpen u .agent (ringAt u i) = true → descOk u i = true → responseFits u (descField u i 2 1 % 2 == 1) (descField u i 4 2) = false ∨ freeTag u 4096 u.fabric.nextTag = none →
        exec .transactionIssue s = .next s) ∧
      (bankOpen u .agent (ringAt u i) = true → descOk u i = true → ∀ (tag dst op len buf : Nat) (v w : State), responseFits u (op % 2 == 1) len = true → freeTag u 4096 u.fabric.nextTag = some tag → dst = descField u i 0 2 → op = descField u i 2 1 →
        len = descField u i 4 2 → buf = descField u i 16 8 → v = bankPut .agent (ringAt u i + 24) (leBytes 4 tag) u →
        w = { v with fabric := { v.fabric with nextTag := (tag + 1) % 4096, outstanding := v.fabric.outstanding ++ [⟨tag, i, op % 2 == 1, dst, len, buf, entryPort v (routeEntry v dst), false, v.now⟩] } } →
        exec .transactionIssue s = .next (sendTo (newFrame v dst op tag (descField v i 8 8) (if op % 2 = 0 then memRead v buf len else if op = 3 then [] else leBytes 4 len))
          (wmSample fbPage 0 w.fabric.outstanding.length w))))) ∧
  (∀ (tag : BitVec 12) (s : State), domLost s 9 = false →
    (s.fabric.outstanding.find? (fun x => x.tag == tag.toNat) = none → exec (.transactionTimeout tag) s = .next s) ∧
    (∀ x, s.fabric.outstanding.find? (fun x => x.tag == tag.toNat) = some x → exec (.transactionTimeout tag) s = .next (if unsent s x then s
      else report ⟨0, fbPage, 5, 2, 3, x.port.getD 8, []⟩ (endTransaction x 2 (reach (x.sentAt + tEff s * 100 * ns) s))))) ∧
  (∀ (l : List (BitVec 128)) (ls : List (List (BitVec 128))) (b : BitVec 128), l.length ≤ 3 → 2 ≤ l.count b → b.toNat / 2 ^ 64 = 0x5A5AC3C35A5AC3C3 → acceptedBlock (l :: ls) = some b) ∧
  (∀ (p : PortNo) (lanes : List (List (BitVec 128))) (s : State), domLost s 9 = false → (port s p.val).st = 3 →
    (acceptedBlock lanes = none → exec (.emergencyBlockReceive p lanes) s = .next s) ∧
    (∀ (origin eid : BitVec 16) (cause : Byte), acceptedBlock lanes = some (emergencyBlock origin.toNat eid.toNat cause.toNat) →
      (s.fabric.seen.contains (origin.toNat, eid.toNat) = true → exec (.emergencyBlockReceive p lanes) s = .next s) ∧
      (s.fabric.seen.contains (origin.toNat, eid.toNat) = false → ∃ t, exec (.emergencyBlockReceive p lanes) s = .next t ∧
        (origin.toNat, eid.toNat) ∈ t.fabric.seen ∧ bit (rdReg t quenchPage 0x700) 1 = true ∧ bit (rdReg t fbPage 0x010) 0 = true ∧
        (bit (rdReg s fbPage 0x744) 31 = false → rdReg t fbPage 0x744 = w32 (0x80000000 + cause.toNat * 2 ^ 16 + origin.toNat)) ∧
        (bit (rdReg s fbPage 0x744) 31 = true → rdReg t fbPage 0x744 = rdReg s fbPage 0x744) ∧
        (∀ q : PortNo, q ≠ p → (port s q.val).st = 3 → (.emergency q.val (List.replicate 4 (List.replicate 3 (emergencyBlock origin.toNat eid.toNat cause.toNat))) : Out) ∈ t.outbox) ∧
        (bit (rdReg s quenchPage 0x700) 1 = false → ∀ c : Ch, watched s c.val = true → (chan t c.val).held = true))))

/-- O42. An exchange with the parent gives the offset and steps or slews FT; a lost parent means holdover; SET and FT_PPS apply FB_FTSET, and FT_PPS marks the second (rests on 13_amibin_fabric.md (Fabric Time)). -/
def Obligations.FabricTimeFollowsItsParent : Prop :=
  (∀ (a : BitVec 64) (s u v r : State) (d : Delivered) (ds : List Delivered) (w : Nat → Nat), domLost s 9 = false → s.fabric.delivered = d :: ds → d.frame.type = 0x10 → d.port < 8 →
    u = freeBuffer d.port d.frame { s with fabric := { s.fabric with delivered := ds } } → w = (fun i => leNat ((d.frame.payload.drop (8 * i)).take 8)) →
    v = setPortAt d.port { port u d.port with sync := some (w 0, a.toNat), lastSync := s.now } u → r = resumeParent d.port v →
    (bit (rdReg s fbPage 0x754) 30 = true → bit (rdReg s fbPage 0x750) 31 = false → bit (rdReg s fbPage 0x750) 3 = true → d.port = fld (rdReg s fbPage 0x750) 2 0 →
      r = { v with fabric := { v.fabric with onAlt := false } }) ∧
    (parentPort r ≠ some d.port ∨ (w 1 = 0 ∧ w 2 = 0) → exec (.tsync a) s = .next r) ∧
    (parentPort r = some d.port → ¬ (w 1 = 0 ∧ w 2 = 0) → ∀ o : Int, o = (((a.toNat : Int) - w 0) - ((w 2 : Int) - w 1)) / 2 - (rdReg s (fbpPage d.port) 0x708).toInt →
      ∃ t, exec (.tsync a) s = .next t ∧ rdReg t fbPage 0x758 = ofsWord o ∧ bit (rdReg t fbPage 0x754) 30 = false ∧
        bit (rdReg t fbPage 0x754) 31 = (if 3277 ≤ o.natAbs then false else if o.natAbs ≤ 327 ∧ 8 ≤ s.fabric.lockRun + 1 then true else bit (rdReg s fbPage 0x754) 31) ∧
        bit (rdReg t fbPage 0x754) 29 = (decide (us < o.natAbs) && !s.fabric.timeNew && anyTimebase s) ∧
        t.now = (if s.fabric.timeNew || (decide (us < o.natAbs) && !anyTimebase s) then ((s.now : Int) - o).toNat else s.now) ∧
        t.fabric.slew = (if s.fabric.timeNew || (decide (us < o.natAbs) && !anyTimebase s) then 0 else o) ∧ t.mem = s.mem ∧ t.chans = s.chans)) ∧
  (∀ (p : PortNo) (s : State), domLost s 9 = false → (port s p.val).st = 3 → (∀ f x, f.type = 0x10 → x = (port s p.val).sync.getD (0, 0) → stamped p.val f s = { f with payload := leBytes 8 s.now ++ leBytes 8 x.1 ++ leBytes 8 x.2 }) ∧
    exec (.tsyncSend p) s = .next (queueFrame p.val (newFrame s 0 0x10 0 0
    (List.replicate 24 0)) s)) ∧
  (∀ (s : State) (p : Nat), domLost s 9 = false → parentPort s = some p → portUp s p = false → bit (rdReg s fbPage 0x750) 7 = false → bit (rdReg s fbPage 0x754) 30 = false → fabManager s = 0 →
    ∃ t, exec .timeHoldover s = .next t ∧ bit (rdReg t fbPage 0x754) 30 = true ∧ bit (rdReg t fbPage 0x754) 31 = bit (rdReg s fbPage 0x754) 31 ∧ bit (rdReg t fbPage 0x010) 1 = true ∧
      (∀ i : Fin 8, bit (pageRead t (pageIndex ⟨.tpll, i.val⟩) 0x700) 1 = true) ∧ t.now = s.now ∧ t.chans = s.chans) ∧
  (∀ (m : Master) (s : State), Takes s fbPage m → exec (.ftSet m) s = .next (if anyTimebase s = true ∨ bit (rdReg s fbPage 0x750) 31 = false then refuseCmd fbPage 0x768 m s
    else { s with fabric := { s.fabric with ftPending := false, slew := 0, slewTicks := 0 }, now := rd64 s fbPage 0x760 * ns })) ∧
  (∀ s : State, domLost s 9 = false →
    exec .ftPpsEdge s = .next (if bit (rdReg s fbPage 0x750) 31 = true ∧ bit (rdReg s fbPage 0x750) 30 = true then
        (if s.fabric.ftPending = true then { s with fabric := { s.fabric with ftPending := false, slew := 0, slewTicks := 0 }, now := rd64 s fbPage 0x760 * ns }
        else { s with fabric := { s.fabric with slew := pastSecond s.now } }) else s) ∧
    exec .ftPpsOutPulse s = .next (if bit (rdReg s fbPage 0x750) 29 = true
      then send (.ppsPulse ((s.now + 1000000000 * ns - 1) / (1000000000 * ns) * (1000000000 * ns))) (reach ((s.now + 1000000000 * ns - 1) / (1000000000 * ns) * (1000000000 * ns)) s) else s))

/-- O43. Raising sets bits and may owe a message; PG_FAULT holds the first capture until its own value is acknowledged; watermarks keep crossings; messages leave or pend (formalises R383). -/
def Obligations.PagesRaiseCaptureAndSample : Prop :=
  (∀ (page : Nat) (bits : Word) (s : State), page < 2 ^ 14 → rdReg (raise page bits s) page 0x010 = rdReg s page 0x010 ||| bits ∧ RegsKept s (raise page bits s) [(page, 0x010)] ∧
    smGet 0 (raise page bits s).msixDue page = smGet 0 s.msixDue page +
      (if irqOutput (raise page bits s) page = true ∧ smGet false s.irqOut page = false ∧ bit (rdReg s page 0x008) 2 = true then 1 else 0) ∧ (raise page bits s).mem = s.mem ∧ (raise page bits s).chans = s.chans) ∧
  (∀ (page cause off detail : Nat) (s t : State), page < 2 ^ 14 → t = capture page cause off detail s →
    rdReg t page 0x020 = (if bit (rdReg s page 0x020) 31 then setBit (rdReg s page 0x020) 30 true else syndrome cause off detail) ∧ RegsKept s t [(page, 0x020)] ∧
    (∃ r, t.reports = s.reports ++ [r] ∧ r.id = page) ∧ t.mem = s.mem ∧ t.chans = s.chans) ∧
  (∀ (page : BitVec 14) (x : Page) (m : Master) (s : State), pageAt page.toNat = some x → x.kind ≠ .test → Takes s page.toNat m →
    (∀ v, exec (.pgIrqSetWrite page m v) s = .next (raise page.toNat (v &&& w32 (irqMask x.kind)) s)) ∧
    (∀ v, ∃ t, exec (.pgFaultAckWrite page m v) s = .next t ∧ RegsKept s t [(page.toNat, 0x020)] ∧ t.chans = s.chans ∧ t.mem = s.mem ∧
      rdReg t page.toNat 0x020 = (if bit (rdReg s page.toNat 0x020) 31 = true ∧ fld v 30 0 = fld (rdReg s page.toNat 0x020) 30 0 then 0 else rdReg s page.toNat 0x020)) ∧
    (∀ (n : Fin 4) v, wmMask x.kind / 2 ^ n.val % 2 = 1 → ∃ t, exec (.wmHitsClear page n m v) s = .next t ∧ rdReg t page.toNat (0x04C + 0x10 * n.val) = 0 ∧ rdReg t page.toNat (0x030 + 4 * n.val) = 0 ∧
      rdReg t page.toNat (0x048 + 0x10 * n.val) = rdReg s page.toNat (0x044 + 0x10 * n.val) ∧ t.chans = s.chans ∧ t.mem = s.mem ∧
      RegsKept s t [(page.toNat, 0x04C + 0x10 * n.val), (page.toNat, 0x030 + 4 * n.val), (page.toNat, 0x048 + 0x10 * n.val)])) ∧
  (∀ (page : BitVec 14) (s : State), pageError s page.toNat = none →
    (∀ k : Cl, page.toNat = clPage k.val →
      exec (.watermarkPeriodicSample page 1) s = .next (wmSample (clPage k.val) 1 (failPipe s k.val).closedRecs (setFail k.val { failPipe s k.val with closedRecs := 0 } s)) ∧
      exec (.watermarkPeriodicSample page 2) s = .next (wmSample (clPage k.val) 2 ((List.range 8).foldl (fun a i => max a (lane s (laneOfCluster k.val i)).events.length) 0) s)) ∧
    (∀ t : Fin 8, page.toNat = tqPage t.val → exec (.watermarkPeriodicSample page 0) s = .next (wmSample (tqPage t.val) 0 ((List.range 64).foldl (fun a i => max a (energy s (64 * t.val + i) / 100000000)) 0) s)) ∧
    (∀ p : PortNo, page.toNat = fbpPage p.val → exec (.watermarkPeriodicSample page 1) s = .next (wmSample (fbpPage p.val) 1 (port s p.val).fecMs (setPortAt p.val { port s p.val with fecMs := 0 } s)))) ∧
  (∀ (page n value : Nat) (s : State), page < 2 ^ 14 → n < 4 → rdReg (wmSample page n value s) page (0x030 + 4 * n) =
    (if (rdReg s page (0x040 + 0x10 * n)).toNat < min value 0xFFFFFFFF ∧ (smGet {} s.wms (wmKey page n)).above = false ∧ bit (rdReg s page (0x04C + 0x10 * n)) 31 = false
      then BitVec.ofNat 32 (s.now / ns / 65536) else rdReg s page (0x030 + 4 * n))) ∧
  (∀ (page : BitVec 14) (s u : State) (n v : Nat), domLost s 9 = false → n = smGet 0 s.msixDue page.toNat → n ≠ 0 → v = fld (rdReg s page.toNat 0x008) 15 8 →
    u = { s with msixDue := smPut 0 s.msixDue page.toNat (n - 1) } →
    exec (.msixMessage page) s = .next (if msixOn s = false then raiseBit msixPage 0 (countReg msixPage 0x704 1 u)
      else if msixMasked s v = true then { u with pcie := { s.pcie with pba := if s.pcie.pba.contains v then s.pcie.pba else v :: s.pcie.pba } } else sendMsix v u)) ∧
  (∀ (vec : Byte) (s u : State), domLost s 9 = false → u = { s with pcie := { s.pcie with table := smPut 1 s.pcie.table (4 * vec.toNat + 3) (setBit (msixWord s (4 * vec.toNat + 3)) 0 false) } } →
    exec (.msixUnmask vec) s = .next (if s.pcie.pba.contains vec.toNat = true ∧ msixOn s = true ∧ bit (rdReg s msixPage 0x700) 30 = false
      then sendMsix vec.toNat { u with pcie := { u.pcie with pba := u.pcie.pba.filter (fun x => x != vec.toNat) } } else u))

/-- O44. Each field takes a write by its access code; reserved encodings are reported; an Easel write sets its role only; RC clears on a read (rests on 00_scope.md (access codes), 12_canvas_easel_hang.md (Canvas and Easel), 11_memories_and_matrix.md (errors)). -/
def Obligations.RegistersTakeWritesByTheirFields : Prop :=
  (∀ (k : Kind) (off : Nat) (r : RegDesc) (f : Field) (old v : Word), findReg (regsOf k) off = some r → f ∈ r.fields →
    fld (written k off old v) f.hi f.lo = (match f.acc with
      | .rw => if f.ok.ok (fld v f.hi f.lo) then fld v f.hi f.lo else fld old f.hi f.lo
      | .w1c => fld old f.hi f.lo - Nat.land (fld old f.hi f.lo) (fld v f.hi f.lo)
      | .w1s => Nat.lor (fld old f.hi f.lo) (fld v f.hi f.lo)
      | _ => fld old f.hi f.lo)) ∧
  (∀ (page : BitVec 14) (off : BitVec 12) (x : Page) (r : RegDesc) (m : Master) (v : Word) (s : State), pageAt page.toNat = some x → x.kind ∈ [Kind.tile, .tpll, .pmark, .scrub] → Takes s page.toNat m →
    findReg (regsOf x.kind) off.toNat = some r → 0x700 ≤ off.toNat → off.toNat < 0x800 → off.toNat % 4 = 0 → ∀ w, w = written x.kind off.toNat (rdReg s page.toNat off.toNat) v →
    exec (.registerWrite page off m v) s = .next (
      if woInvalid r.fields v = true then invalidWrite page.toNat off.toNat m s
      else if wordValid r.fields v = true then wrReg page.toNat off.toNat w s
      else capture page.toNat fINVALID off.toNat (masterCode m) (wrReg page.toNat off.toNat w s))) ∧
  (∀ (page : BitVec 14) (off : BitVec 12) (x : Page) (r : RegDesc) (m : Master) (v : Word) (s u : State), pageAt page.toNat = some x → x.kind ≠ .test → Takes s page.toNat m → u = copyBefore page.toNat s →
    0x900 ≤ off.toNat → off.toNat < 0xF00 → off.toNat % 4 = 0 → findReg (regsOf x.kind) (off.toNat - 0x800) = some r → r.bankable = true → hangArmed u page.toNat = false →
    isCal page.toNat (off.toNat - 0x800) = false →
    exec (.registerWrite page off m v) s = .next (wrRole true page.toNat (off.toNat - 0x800) (easelWord r.fields v) u)) ∧
  (∀ (page : BitVec 14) (off : BitVec 12) (m : Master) (v : Word) (s : State) (e : BusKind), (pathOk m .regs = false ∧ e = .decode) ∨ (pathOk m .regs = true ∧ pageError s page.toNat = some e) →
    exec (.registerWrite page off m v) s = .next (mxError m (0x4000000 + 0x1000 * page.toNat + off.toNat) (busCode e) s) ∧
    exec (.rcReadClear page off m) s = .next (mxError m (0x4000000 + 0x1000 * page.toNat + off.toNat) (busCode e) s)) ∧
  (∀ (page : BitVec 14) (off : BitVec 12) (x : Page) (m : Master) (s : State), pageAt page.toNat = some x → x.kind ∉ [Kind.test, .cl, .fb, .fbrt] → pathOk m .regs = true → pageError s page.toNat = none → disturbs page.toNat m s = false → off.toNat < 0xF00 → off.toNat % 4 = 0 →
    exec (.rcReadClear page off m) s = .next (if 0x900 ≤ off.toNat ∧ toCopy s page.toNat = true then tick s else if readClears x off.toNat then wrReg page.toNat off.toNat 0 s else s))

/-- O45. Events raised take tokens, queue in order and become whole records of the volatile ring; what is suppressed or dropped is counted and reported once (rests on 16_patina.md (intake and rate limiting), 16_patina.md (the volatile ring), 16_patina.md (records)). -/
def Obligations.PatinaRecordsEventsInOrder : Prop :=
  (∀ (ev : PatEvent) (s : State), arriving s ev = none → exec (.patinaEventIntake ev) s = .next s) ∧
  (∀ (ev : PatEvent) (s u : State) (x : Nat × PatEvent) (b : Bucket), domLost s 8 = false → s.patina.bellows = false → arriving s ev = some x → s.patina.intake.length < 256 →
    u = { s with patina := { s.patina with offers := s.patina.offers.erase x } } →
    b = bucket s ev.code.toNat →
    (severe ev = true ∨ b.rate = 0 → exec (.patinaEventIntake ev) s = .next { u with patina := { u.patina with intake := s.patina.intake ++ [ev] } }) ∧
    (severe ev = false → b.rate ≠ 0 → b.level ≠ 0 → ∃ t, exec (.patinaEventIntake ev) s = .next t ∧ t.patina.intake = s.patina.intake ++ [ev] ∧
      bucket t ev.code.toNat = { b with level := b.level - 1 } ∧ t.regs = s.regs ∧ t.chans = s.chans ∧ t.mem = s.mem) ∧
    (severe ev = false → b.rate ≠ 0 → b.level = 0 → ∃ t, exec (.patinaEventIntake ev) s = .next t ∧ t.patina.intake = s.patina.intake ∧ (bucket t ev.code.toNat).supp = b.supp + 1 ∧
      rdReg t patPage 0x724 = satAdd (rdReg s patPage 0x724) 1 ∧ RegsKept s t [(patPage, 0x724)] ∧ t.chans = s.chans ∧ t.mem = s.mem)) ∧
  (∀ (ev : PatEvent) (s : State) (x : Nat × PatEvent) (b : Bucket), domLost s 8 = false → s.patina.bellows = false → arriving s ev = some x → 256 ≤ s.patina.intake.length → b = bucket s ev.code.toNat →
    (severe ev = true → exec (.patinaEventIntake ev) s = .next { s with patina := { s.patina with offers := s.patina.offers.erase x, waiting := s.patina.waiting ++ [ev] } }) ∧
    (severe ev = false → b.rate ≠ 0 → b.level ≠ 0 → ∃ t, exec (.patinaEventIntake ev) s = .next t ∧ t.patina.intake = s.patina.intake ∧ (bucket t ev.code.toNat).supp = b.supp + 1 ∧ (bucket t ev.code.toNat).level = b.level - 1 ∧
      rdReg t patPage 0x728 = satAdd (rdReg s patPage 0x728) 1 ∧ RegsKept s t [(patPage, 0x728)] ∧ t.chans = s.chans ∧ t.mem = s.mem)) ∧
  (∀ (s : State) (ev : PatEvent) (evs : List PatEvent) (n : Nat), domLost s 8 = false → s.patina.bellows = false → s.patina.dropN = 0 → s.patina.intake = ev :: evs → n = 16 + (ev.payload.length + 7) / 8 * 8 →
    (0 < 65536 - s.patina.ptr → 65536 - s.patina.ptr < n → s.patina.fill + n + (65536 - s.patina.ptr) + (if severe ev then 0 else 8192) ≤ 65536 → ∃ t, exec .patinaRecordWrite s = .next t ∧
      t.patina.fill = s.patina.fill + n + (65536 - s.patina.ptr) ∧ t.patina.ptr = n % 65536 ∧ t.patina.intake = evs ++ s.patina.waiting.take 1 ∧ t.chans = s.chans ∧ t.mem = s.mem) ∧
    (n ≤ 65536 - s.patina.ptr → 65536 - s.patina.ptr ≠ n + 8 →
    (s.patina.fill + n + (if severe ev then 0 else 8192) ≤ 65536 → ∃ t, exec .patinaRecordWrite s = .next t ∧
      t.patina.vol = s.patina.vol ++ [padTo n (headerBytes s ev.code.toNat ev.sev.toNat ev.src.toNat n ev.fid ++ ev.payload)] ∧
      t.patina.fill = s.patina.fill + n ∧ t.patina.ptr = (s.patina.ptr + n) % 65536 ∧ rdReg t patPage 0x718 = w32 (((rdReg s patPage 0x718).toNat + 1) % 65536) ∧
      t.patina.intake = evs ++ s.patina.waiting.take 1 ∧ t.chans = s.chans ∧ t.mem = s.mem) ∧
    (severe ev = false → 65536 < s.patina.fill + n + 8192 → ∃ t, exec .patinaRecordWrite s = .next t ∧ t.patina.vol = s.patina.vol ∧ t.patina.dropN = 1 ∧
      rdReg t patPage 0x728 = satAdd (rdReg s patPage 0x728) 1 ∧ bit (rdReg t patPage 0x010) 2 = true ∧ t.chans = s.chans ∧ t.mem = s.mem))) ∧
  (∀ (code : BitVec 16) (s : State) (b : Bucket), domLost s 8 = false → s.patina.bellows = false → b = bucket s code.toNat → b.rate ≠ 0 → b.level < b.burst →
    exec (.tokenGain code none) s = .next (if b.supp = 0 then setBucket code.toNat { b with level := b.level + 1 } s
      else enqueueEvent (suppressedEvent code.toNat b) false (setBucket code.toNat { b with supp := 0 } s)) ∧
    (b.supp ≠ 0 → s.patina.intake.length < 256 → ∃ t, exec (.tokenGain code none) s = .next t ∧ t.patina.intake = s.patina.intake ++ [suppressedEvent code.toNat b] ∧ (bucket t code.toNat).supp = 0 ∧ (bucket t code.toNat).level = b.level)) ∧
  (∀ (m : Master) (v : Word) (s : State), Takes s patPage m →
    (isPair m = false → exec (.ptSubmitWrite m v) s = .next (rejectWrite patPage 0x740 m s) ∧ exec (.ptRlcfgWrite m v) s = .next (rejectWrite patPage 0x738 m s)) ∧
    (isPair m = true → fld v 7 0 ≠ 0 → exec (.ptRlcfgWrite m v) s = .next (setBucket (fld (rdReg s patPage 0x734) 15 0)
      { bucket s (fld (rdReg s patPage 0x734) 15 0) with rate := fld v 31 16, burst := fld v 7 0, level := fld v 7 0 } s)) ∧
    (isPair m = true → ∀ bs : List Byte, bs = memBytes s (0x11F0000 + 0x100 * fld v 7 0) 256 →
      (leNat ((bs.drop 2).take 1) < 2 ∨ 32 < leNat ((bs.drop 2).take 1) ∨ leNat (bs.take 2) < 0x1000 ∨ s.patina.bellows = true →
        exec (.ptSubmitWrite m v) s = .next (rejectWrite patPage 0x740 m s)) ∧
      (2 ≤ leNat ((bs.drop 2).take 1) → leNat ((bs.drop 2).take 1) ≤ 32 → 0x1000 ≤ leNat (bs.take 2) → s.patina.bellows = false →
        exec (.ptSubmitWrite m v) s = .next (intakeEvent ⟨BitVec.ofNat 16 (leNat (bs.take 2)), BitVec.ofNat 4 (leNat ((bs.drop 3).take 1)), BitVec.ofNat 16 (leNat ((bs.drop 4).take 2)),
          leNat ((bs.drop 3).take 1) / 16 % 2 == 1, (bs.drop 16).take (8 * leNat ((bs.drop 2).take 1) - 16)⟩ true s)))) ∧
  (∀ s : State, ((dom s 8).good = false → exec .opsecTick s = .next s) ∧
    ((dom s 8).good = true → ∃ t, exec .opsecTick s = .next t ∧ opsec t = (satAdd (mramWord s clockLine) 1).toNat ∧ pcyc t = pcyc s ∧ t.regs = s.regs ∧ t.chans = s.chans ∧ t.patina = s.patina))

/-- O46. A flush moves the committed records to MRAM and frees their space; FREEZE holds the rings until THAW; CLEAR needs its authority and leaves one record (rests on 16_patina.md (flush), 16_patina.md (freeze and thaw), 16_patina.md (clearing)). -/
def Obligations.PatinaRingsFlushFreezeAndClear : Prop :=
  (∀ (m : Master) (s : State), Takes s patPage m →
    exec (.patinaFlush m) s = .next (if s.patina.flushing then modPat (fun p => { p with flushN := p.vol.length }) s else modPat (fun p => { p with want := true }) s) ∧
    (s.patina.frozen = true ∨ s.patina.freezing = true → exec (.freeze m) s = .next (rejectWrite patPage 0x704 m s)) ∧
    (s.patina.frozen = false → s.patina.freezing = false → ∃ t, exec (.freeze m) s = .next t ∧ t.patina.freezing = true ∧ t.patina.frzBroken = false ∧ rdReg t patPage 0x730 = 0 ∧
      (t.patina.want = true ∨ t.patina.flushing = true) ∧ t.patina.vol = s.patina.vol ∧ RegsKept s t [(patPage, 0x730)] ∧ t.mem = s.mem ∧ t.chans = s.chans) ∧
    exec (.thaw m) s = .next (if s.patina.frozen = false then rejectWrite patPage 0x704 m s else modPat (fun p => { p with frozen := false, want := true }) s) ∧
    (pairService s m = false ∨ s.patina.auth = false ∨ s.patina.frozen = true ∨ s.patina.freezing = true ∨ s.patina.bellows = true → exec (.patinaClear m) s = .next (rejectWrite patPage 0x704 m s)) ∧
    (pairService s m = true → s.patina.auth = true → s.patina.frozen = false → s.patina.freezing = false → s.patina.bellows = false → ∃ t, exec (.patinaClear m) s = .next t ∧
      t.patina.vol = [] ∧ t.patina.fill = 0 ∧ t.patina.auth = false ∧ rdReg t patPage 0x708 = 0 ∧ rdReg t patPage 0x70C = 24 ∧ bit (rdReg t patPage 0x010) 3 = true ∧
      rdReg t patPage 0x718 = rdReg s patPage 0x718 ∧ (mramRing s = 0x2200000 → opsec t = opsec s ∧ pcyc t = pcyc s) ∧ t.patina.buckets = s.patina.buckets ∧ t.chans = s.chans)) ∧
  (∀ s : State, domLost s 8 = false → exec .patinaFlushStart s = .next (
    if s.patina.flushing = true ∨ s.patina.want = false ∨ (s.patina.frozen = true ∧ s.patina.bellows = false) then s
    else modPat (fun p => { p with want := false, flushing := true, flushN := p.vol.length }) s)) ∧
  (∀ s : State, domLost s 8 = false → s.patina.flushing = true → ∃ t, exec .patinaFlushComplete s = .next t ∧ t.patina.vol = s.patina.vol.drop s.patina.flushN ∧
    t.patina.fill = s.patina.fill - ((s.patina.vol.take s.patina.flushN).map List.length).sum ∧ t.patina.flushing = false ∧ t.patina.frozen = (s.patina.frozen || s.patina.freezing) ∧
    t.patina.freezing = false ∧ bit (rdReg t patPage 0x010) 0 = true ∧ t.patina.intake = s.patina.intake ∧ t.chans = s.chans ∧
    ((∀ x ∈ s.taken, x.wait ≠ .flush) → mramWord t patLine = rdReg t patPage 0x708 ∧ mramWord t (patLine + 4) = rdReg t patPage 0x70C)) ∧
  (∀ s : State, domLost s 8 = false → s.patina.flushing = false → exec .patinaFlushComplete s = .next s)

/-- O47. A device reset stops every engine and stroke and shows its cause; a domain reset reaches its domain only; a PCIe reset drops the link and what it carried (rests on 17_start_up_and_power.md (resets), 17_start_up_and_power.md (start-up), 19_host_package_electrical.md (PCIe)). -/
def Obligations.ResetsReachTheirDomains : Prop :=
  (∀ (cause : Nat) (b : BootFind) (s t : State), t = resetDevice cause b s →
      (∃ u, t = boot b (powerUp cause u) ∧ rdReg t rstPage 0x70C = if (bootOnce b (powerUp cause u)).2 = true then 5 else w32 cause) ∧ (∀ k, k < 1024 → eng t k = engDefault k) ∧ (∀ k : Cl, base t k.val = {}) ∧ t.pending = s.pending) ∧
  (∀ (b : BootFind) (s : State), (∃ u, exec (.powerOnReset b) s = .next (resetDevice 1 b u) ∧ u.mramLines = [] ∧ u.thermal = {} ∧ (∀ c ∈ u.mem, 0x2000000 ≤ c.1 ∧ c.1 < 0x2800000) ∧
      (∀ a, 0x2000000 ≤ a → a < 0x2800000 → memByte u a = memByte s a) ∧
      bit (rdReg u blPage 0x700) 29 = bit (mramWord s bellowsLine) 0 ∧ bit (rdReg u blPage 0x700) 28 = bit (mramWord s bellowsLine) 1) ∧
    exec (.deviceReset b) s = .next (if bit (rdReg s blPage 0x700) 31 then { s with bellows := { s.bellows with reset := some b } } else resetDevice 2 b s)) ∧
  (∀ (m : Master) (v : Word) (s : State), Takes s rstPage m →
    (fld v 31 16 = 0x5A17 → pairService s m = true ∨ m = .pcie → exec (.device m v) s = .next (if 14 ≤ fld v 3 0 then invalidWrite rstPage 0x708 m (tick s) else resetDevice 3 (Config.freeFind s.free) (tick s))) ∧
    (fld v 31 16 ≠ 0x5A17 → fld v 3 0 < 14 → pairService s m = true → exec (.device m v) s = .next (rejectWrite rstPage 0x708 m (tick s))) ∧
    (pairService s m = false → m ≠ .pcie ∨ fld v 31 16 ≠ 0x5A17 → exec (.device m v) s = .next (rejectWrite rstPage 0x708 m s)) ∧
    (∀ b d, pairService s m = true → bit v 15 = false → d = fld v 3 0 →
      exec (.domainReset m v b) s = .next (if 14 ≤ d then invalidWrite rstPage 0x708 m s else if d = 8 then resetD8 5 b s
        else if bit v 8 = true then (if (dom s d).inReset = true then s else resetDomain d (loseBy d { dom s d with inReset := true, due := false } s))
        else if (dom s d).inReset = true then releaseDomain d s else s))) ∧
  (∀ (d : Dom) (s : State), (thermalHeld s d.val = true → releaseDomain d.val s = s) ∧ (thermalHeld s d.val = false → ∃ x, s.now ≤ x ∧ x < s.now + 10 * us ∧
    releaseDomain d.val s = setDom d.val { dom s d.val with inReset := false, isolated := false, due := true, waits := some x } (tick s))) ∧
  (∀ (d : Dom) (ok : Bool) (s : State), domLost s 8 = true ∨ d.val = 8 ∨ domLost s d.val = true ∨ (dom s d.val).due = false ∨ bit (rdReg s devPage 0x700) 31 = false → exec (.domainRestart d ok) s = .next s) ∧
  (∀ (d : Dom) (s u : State), domLost s 8 = false → d.val ≠ 8 → domLost s d.val = false → (dom s d.val).due = true → bit (rdReg s devPage 0x700) 31 = true → u = setDom d.val { dom s d.val with due := false } s →
    (d.val = 9 → exec (.domainRestart d true) s = .next (enablePorts u)) ∧
    (d.val < 10 → exec (.domainRestart d false) s = .next (isolate d.val (reportLoss d.val u))) ∧
    (10 ≤ d.val → ∀ ok, exec (.domainRestart d ok) s = .next (wrReg (hbmPage (d.val - 10)) 0x700 0x40000000 u)) ∧
    (d.val < 8 → ∃ t, exec (.domainRestart d true) s = .next t ∧ (dom t d.val).due = false ∧ (∀ c : Ch, tileOf c.val = d.val → (chan t c.val).held = (fld (emStat s) 2 0 != 0) ∧ (chan t c.val).open_ = false) ∧
      (∀ c : Ch, tileOf c.val ≠ d.val → chan t c.val = chan s c.val) ∧ t.mem = s.mem)) ∧
  (∀ (d : Dom) (s : State), ((dom s d.val).good = true → exec (.domainPowerGoodReturn d) s = .next (tick s)) ∧
    ((dom s d.val).good = false → s.bellows.stopped = true → exec (.domainPowerGoodReturn d) s = .next (setDom d.val { dom s d.val with good := true } (tick s))) ∧
    ((dom s d.val).good = false → s.bellows.stopped = false → d.val ≠ 8 → exec (.domainPowerGoodReturn d) s = .next (releaseDomain d.val (resetDomain d.val
      (raiseBit rstPage 0 (setDom d.val { dom s d.val with good := true } (tick s)))))) ∧
    ((dom s d.val).good = false → s.bellows.stopped = false → d.val = 8 → exec (.domainPowerGoodReturn d) s = .next (resetD8 5 (Config.freeFind s.free) (shellLost
      (raiseBit rstPage 0 (setDom 8 { dom s 8 with good := true } (tick s))))))) ∧
  (∀ (m : Master) (v : Word) (verdict : BitVec 2) (b : BootFind) (s : State), Takes s devPage m → exec (.devBootdbWrite m v verdict b) s = .next (
    if bit (rdReg s devPage 0x700) 27 = false then rejectWrite devPage 0x708 m s
    else if verdict ≠ 0 then raiseBit devPage 2 (wrReg devPage 0x70C (w32 verdict.toNat) s) else finishBoot b (runFirmware b (startFirmware 2 v.toNat b (wrReg devPage 0x70C 0 s))))) ∧
  (∀ (r : PcieResetKind) (s : State), ∃ t, exec (.pcieReset r) s = .next t ∧ bit (rdReg t pciePage 0x700) 31 = false ∧ t.pcie.reqs = [] ∧ rdReg t msixPage 0x700 = 0 ∧
    t.pcie.table = s.pcie.table ∧ t.mem = s.mem ∧ t.chans = s.chans ∧ t.engines = s.engines) ∧
  (∀ s : State, ∃ t, exec .functionLevelReset s = .next t ∧ bit (rdReg t pciePage 0x700) 31 = false ∧ t.pcie = {} ∧ rdReg t msixPage 0x700 = 0 ∧ t.mem = s.mem ∧ t.chans = s.chans ∧ t.engines = s.engines)

/-- O48. The power-fail sequence holds every channel, isolates the other domains, waits for journals and flush, and stops with its outcome shown (rests on 17_start_up_and_power.md (power failure)). -/
def Obligations.BellowsStopsTheDeviceInOrder : Prop :=
  (∀ (rail : Bool) (s : State), bellowsRuns s = true ∨ s.bellows.stopped = true ∨ (rail = true ∧ bit (rdReg s blPage 0x704) 31 = false) → exec (.bellowsStart rail) s = .next s) ∧
  (∀ (rail : Bool) (s : State), bellowsRuns s = false → s.bellows.stopped = false → (rail = true → bit (rdReg s blPage 0x704) 31 = true) →
    ∃ t, exec (.bellowsStart rail) s = .next t ∧ bellowsRuns t = true ∧ bit (rdReg t blPage 0x010) 0 = true ∧ (∀ c : Ch, watched s c.val = true → (chan t c.val).held = true) ∧
      (∀ d, d < 14 → d ≠ 8 → (dom t d).isolated = true) ∧ t.patina.bellows = true ∧ t.patina.want = true ∧ t.bellows.journal = bit (rdReg s devPage 0x700) 31 ∧ (∃ e ∈ t.patina.offers, e.2.code = 0x1002) ∧
      (s.trans = [] → s.fabric.outstanding = [] → fld (rdReg s fbPage 0x730) 5 0 = fld (rdReg s fbPage 0x72C) 5 0 →
        mramWord t bellowsLine = 2 ∧ ∀ a, a < bellowsLine ∨ bellowsLine + 4 ≤ a → memByte t a = memByte s a)) ∧
  (∀ (m : Master) (v : Word) (s : State), Takes s blPage m → exec (.jdone m v) s = .next (if pairService s m then { s with bellows := { s.bellows with journal := false } } else rejectWrite blPage 0x708 m s)) ∧
  (∀ s : State, exec .journalWindowExpiry s = .next { s with bellows := { s.bellows with journal := false } }) ∧
  (∀ s : State, (bellowsRuns s = false ∨ s.bellows.journal = true ∨ flushEnded s = false → exec .bellowsStop s = .next s) ∧ (bellowsRuns s = false → exec .holdUpExhausted s = .next s) ∧
    (bellowsRuns s = true → ∃ t, exec .holdUpExhausted s = .next t ∧ bellowsRuns t = false ∧ fld (rdReg t blPage 0x700) 29 28 = 1 ∧ t.bellows.stopped = true ∧ t.mramLines = [] ∧
      (∀ d, d < 14 → (dom t d).inReset = true) ∧ (s.trans = [] → t.mem = s.mem)) ∧
    (bellowsRuns s = true → s.bellows.journal = false → flushEnded s = true → (∀ b, s.bellows.reset = some b → exec .bellowsStop s = .next (resetDevice 2 b (stopDevice 2 s))) ∧
      (s.bellows.reset = none → ∃ t, exec .bellowsStop s = .next t ∧ bellowsRuns t = false ∧ fld (rdReg t blPage 0x700) 29 28 = 2 ∧ t.bellows.stopped = true ∧
      t.mramLines = [] ∧ (∀ d, d < 14 → (dom t d).inReset = true) ∧ (s.trans = [] → mramWord t bellowsLine = 1 ∧ ∀ a, a < bellowsLine ∨ bellowsLine + 4 ≤ a → memByte t a = memByte s a)))) ∧
  (∀ (b : BootFind) (s : State), (s.bellows.stopped = true → (∀ d, d < 14 → (dom s d).good = true) → exec (.brownoutRestart b) s = .next (resetDevice 4 b s)) ∧
    (s.bellows.stopped = false ∨ (∃ d, d < 14 ∧ (dom s d).good = false) → exec (.brownoutRestart b) s = .next s)) ∧
  (∀ (uF : BitVec 16) (volts : Bool) (s : State), ∃ t, exec (.bellowsCapCharged uF volts) s = .next t ∧ fld (rdReg t blPage 0x700) 15 0 = uF.toNat ∧
    bit (rdReg t blPage 0x700) 30 = (volts && decide (560 ≤ uF.toNat)) ∧ (bit (rdReg t blPage 0x700) 30 = true → bit (rdReg s blPage 0x700) 30 = false → bit (rdReg t blPage 0x010) 1 = true) ∧
    RegsKept s t [(blPage, 0x700), (blPage, 0x010)] ∧ t.mem = s.mem ∧ t.chans = s.chans)

/-- O49. HBM training ends READY or isolates the stack; heat warns, then holds the tiles and stacks in reset, and releases them when it is cool (rests on 17_start_up_and_power.md (HBM training), 19_host_package_electrical.md (thermal behaviour)). -/
def Obligations.HbmTrainsAndHeatTripsDomains : Prop :=
  (∀ (n : Fin 4) (m : Master) (v : Word) (s : State), Takes s (hbmPage n.val) m →
    exec (.hbmRetrain n m v) s = .next (if stackBusy s n.val then rejectWrite (hbmPage n.val) 0x704 m s else wrReg (hbmPage n.val) 0x700 0x40000000 s)) ∧
  (∀ (n : Fin 4) (s : State), domLost s (10 + n.val) = false → fld (rdReg s (hbmPage n.val) 0x700) 31 30 = 1 →
    exec (.hbmTrainingComplete n true) s = .next (raiseBit (hbmPage n.val) 0 (wrReg (hbmPage n.val) 0x700 0x80000000 s)) ∧
    exec (.hbmTrainingComplete n false) s = .next (isolate (10 + n.val) (reportLoss (10 + n.val) (raiseBit (hbmPage n.val) 1 (wrReg (hbmPage n.val) 0x700 0xC0000000 s))))) ∧
  (∀ (i : Fin 14) (x : BitVec 16) (s u : State), u = { s with thermal := { s.thermal with temps := smPut 0 s.thermal.temps i.val x } } →
    exec (.thermalWarn i x) s = .next (if x.toInt ≤ 1680 then u else report ⟨0, smbPage, 3, fEVENT, 0, 0, []⟩ (raiseBit smbPage 0 { u with thermal := { u.thermal with warn := true } })) ∧
    (s.thermal.warn = true → x.toInt ≤ 1840 ∨ s.thermal.trip = true → exec (.thermalTrip i x) s = .next u) ∧
    (s.thermal.trip = false → 1840 < x.toInt → ∃ t, exec (.thermalTrip i x) s = .next t ∧ t.thermal.trip = true ∧ t.thermal.warn = true ∧
      (∀ d, d < 8 ∨ (10 ≤ d ∧ d < 14) → (dom t d).inReset = true))) ∧
  (∀ (l : List (BitVec 16)) (s u : State), u = setTemps l s →
    (allAtMost u 1520 = false ∨ s.thermal.trip = false → exec (.thermalRecovery l) s = .next u) ∧
    (allAtMost u 1520 = true → s.thermal.trip = true → ∃ t, exec (.thermalRecovery l) s = .next t ∧ t.thermal.trip = false ∧ t.thermal.warn = false ∧
      (∀ d, d < 8 ∨ (10 ≤ d ∧ d < 14) → (dom t d).inReset = false ∧ (dom t d).isolated = false ∧ (dom t d).due = true ∧ (dom t d).good = (dom s d).good) ∧ dom t 8 = dom s 8 ∧ dom t 9 = dom s 9 ∧ t.chans = s.chans ∧ t.mem = s.mem) ∧
    exec (.thermalWarnClear l) s = .next (if allAtMost u 1680 then { u with thermal := { u.thermal with warn := false } } else u))

/-- O50. A failing active pair is FAILED and the standby takes over, or D8 resets; SWITCH, STAGE and REINT act from the role they need and are rejected otherwise (rests on 18_service_continuity.md (failover), 18_service_continuity.md (commands of a pair)). -/
def Obligations.PairsChangeTheirRoles : Prop :=
  (∀ (stuck : Bool) (b : BootFind) (s : State),
    (activePair s = none ∨ domLost s 8 = true ∨ (∃ p, activePair s = some p ∧ stuck = true ∧ (eng s (1024 + p)).run ≠ .stuck) → exec (.failover stuck b) s = .next s) ∧
    (∀ p, activePair s = some p → domLost s 8 = false → (stuck = true → (eng s (1024 + p)).run = .stuck) →
      (role s (1 - p) ≠ 2 → ∀ u, u = lossEffects 8 s → (∀ c : Ch, watched s c.val = true → (chan u c.val).held = true ∧ ((chan s c.val).held = false → fld (chan u c.val).cause 27 24 = 1)) ∧
        ∃ t, exec (.failover stuck b) s = .next t ∧ t = boot b (powerUp 5 (releaseDomain 8 (resetCore u))) ∧ rdReg t rstPage 0x70C = 5) ∧
      (role s (1 - p) = 2 → s.journal = none → ∃ t, exec (.failover stuck b) s = .next t ∧ role t (1 - p) = 1 ∧ role t p = 3 ∧
        fld (rdReg t (mcPage p) 0x700) 27 24 = (if stuck then 2 else 1) ∧ (eng t (1024 + p)).run = .off ∧ rdReg t (mcPage p) 0x708 = satAdd (rdReg s (mcPage p) 0x708) 1 ∧
        activePair t = some (1 - p) ∧ t.chans = s.chans ∧ t.mem = s.mem))) ∧
  (∀ (m : Master) (p : Fin 2) (s : State), pageError s (mcPage p.val) = none → pairService s m = false →
    exec (.switch m p) s = .next (rejectWrite (mcPage p.val) 0x704 m s) ∧ exec (.stage m p) s = .next (rejectWrite (mcPage p.val) 0x704 m s) ∧
      ∀ pass, exec (.reint m p pass) s = .next (rejectWrite (mcPage p.val) 0x704 m s)) ∧
  (∀ (m : Master) (p : Fin 2) (s : State), Takes s (mcPage p.val) m →
    (pairService s m = true →
      (role s p.val ≠ 2 ∨ role s (1 - p.val) ≠ 1 → exec (.switch m p) s = .next (rejectWrite (mcPage p.val) 0x704 m s)) ∧
      (role s p.val = 2 → role s (1 - p.val) = 1 → ∀ u, u = switchRoles p.val (leaveTemper p.val s) → exec (.switch m p) s = .next (resumeFromJournal (knownSlots u) u)) ∧
      (role s p.val = 2 → role s (1 - p.val) = 1 → s.journal = none → ∃ t, exec (.switch m p) s = .next t ∧ role t p.val = 1 ∧ role t (1 - p.val) = 2 ∧ (eng t (1024 + (1 - p.val))).pc = 0x3FF10 ∧
        (eng t (1024 + (1 - p.val))).run = (engDefault (1024 + (1 - p.val))).run ∧ t.chans = s.chans ∧ t.mem = s.mem) ∧
      (role s p.val ≠ 2 → exec (.stage m p) s = .next (rejectWrite (mcPage p.val) 0x704 m s)) ∧
      (role s p.val = 2 → exec (.stage m p) s = .next (stagePair p.val (leaveTemper p.val s))) ∧
      (∀ pass, role s p.val ≠ 3 → exec (.reint m p pass) s = .next (rejectWrite (mcPage p.val) 0x704 m s)) ∧
      (role s p.val = 3 → exec (.reint m p true) s = .next (updateProceeds (restartPair p.val (setRole p.val 2 (modReg (mcPage p.val) 0x700 (fun w => setFld w 27 24 0) (leaveTemper p.val s))))) ∧
        exec (.reint m p false) s = .next (report ⟨0, mcPage p.val, 3, fHW, 0, 0, []⟩ (raiseBit temperPage 0 <| countReg temperPage 0x70C 1 <| modReg (mcPage p.val) 0x700 (fun w => setFld w 27 24 3) (leaveTemper p.val s))))))

/-- O51. Temper tests only an idle target and restores it; Primer runs one command at a time and commits constants with their records, or ends with its error (rests on 18_service_continuity.md (Temper), 18_service_continuity.md (Primer)). -/
def Obligations.TemperTestsAndPrimerCalibrates : Prop :=
  (∀ (t : TemperTarget) (s : State) (r : Nat × Nat), r = targetRow t →
    (domLost s 8 = true ∨ bit (rdReg s temperPage 0x700) 31 = false ∨ bit (rdReg s temperPage 0x700) r.1 = false ∨ s.temper.test.isSome = true ∨ targetIdle s r = false → exec (.temperTestStart t) s = .next s) ∧
    (domLost s 8 = false → bit (rdReg s temperPage 0x700) 31 = true → bit (rdReg s temperPage 0x700) r.1 = true → s.temper.test = none → targetIdle s r = true → ∀ u,
      u = wrReg temperPage 0x704 (w32 (2 ^ 31 + r.1 * 2 ^ 28 + r.2)) { s with temper := { s.temper with test := some r } } →
      exec (.temperTestStart t) s = .next (if r.1 = 1 then calState (tileOf r.2) 2 (r.2 % 64) u else u))) ∧
  (∀ s : State, domLost s 8 = false → s.temper.test = none → exec .temperAbort s = .next (if s.primer.op = 0 then s else primerEnd 1 s)) ∧
  (∀ (s u : State) (r : Nat × Nat), domLost s 8 = false → s.temper.test = some r → u = temperStop r s →
    exec .temperAbort s = .next (countReg temperPage 0x708 1 u) ∧
    exec (.temperTestEnd true) s = .next { u with temper := { u.temper with passed := smPut none u.temper.passed (r.1 * 1024 + r.2) (some (opsec u)) } } ∧
    (∃ t, exec (.temperTestEnd false) s = .next t ∧ t.temper.test = none ∧ rdReg t temperPage 0x70C = satAdd (rdReg s temperPage 0x70C) 1 ∧ bit (rdReg t temperPage 0x010) 0 = true ∧
      (r.1 = 0 → r.2 < 2 → role s r.2 = 2 → role t r.2 = 3) ∧ t.chans = s.chans ∧ t.mem = s.mem) ∧
    (∀ (page : BitVec 14) (off : BitVec 12) (m : Master) (v : Word), page.toNat ∈ targetPages r → m ≠ .temper → (∀ t, m ≠ .tileSeq t) → pathOk m .regs = true → pageError s page.toNat = none → off.toNat % 4 = 0 →
      exec (.registerWrite page off m v) s = exec (.registerWrite page off m v) (countReg temperPage 0x708 1 u) ∧
      exec (.rcReadClear page off m) s = exec (.rcReadClear page off m) (countReg temperPage 0x708 1 u))) ∧
  (∀ (m : Master) (s : State), Takes s primerPage m →
    (pairService s m = true → (∀ c, s.temper.test ≠ some (1, c)) →
      (s.primer.op ≠ 0 → exec (.full m) s = .next (rejectWrite primerPage 0x700 m s) ∧ exec (.primerStop m) s = .next (primerEnd 2 s)) ∧
      (s.primer.op = 0 → exec (.primerStop m) s = .next s ∧ ∃ t, exec (.full m) s = .next t ∧ t.primer.op = 1 ∧ t.primer.pos = 0 ∧ t.primer.cur = ((List.range 8).map (fun i => 64 * i)).filter (channelIdle s) ∧ t.primer.swept = t.primer.cur ∧
        bit (rdReg t primerPage 0x704) 31 = true ∧ (∀ i : Fin 8, domLost s i.val = false → rdReg t (pageIndex ⟨.tcal, i.val⟩) 0x700 = 0x40000000) ∧ t.chans = s.chans ∧ t.mem = s.mem) ∧
      (∀ v : Word, s.primer.op = 0 → (fld v 28 19 = 0 ∨ 512 < fld v 8 0 + fld v 28 19 → exec (.incr m v) s = .next (invalidWrite primerPage 0x700 m s)) ∧
        (fld v 28 19 ≠ 0 → fld v 8 0 + fld v 28 19 ≤ 512 → exec (.incr m v) s = .next (primerNext ((List.range (fld v 28 19)).map (· + fld v 8 0))
          (wrReg primerPage 0x704 (primerStat true 0 0 (fld v 8 0)) { s with primer := { op := 2 } })))))) ∧
  (∀ (m : Master) (v : Word) (s : State), pageError s primerPage = none → pairService s m = false →
    exec (.full m) s = .next (rejectWrite primerPage 0x700 m s) ∧ exec (.incr m v) s = .next (rejectWrite primerPage 0x700 m s) ∧
      exec (.primerStop m) s = .next (rejectWrite primerPage 0x700 m s)) ∧
  (∀ (c : Nat) (cs : List Nat) (consts : List (Nat × Nat × BitVec 32)) (s : State), domLost s 8 = false →
    (s.primer.op = 0 → exec (.primerCommit consts) s = .next s) ∧
    (s.primer.op = 1 → ∀ u, u = sweepRest s → exec (.primerCommit consts) s = .next (if u.primer.swept.any (fun c => !consts.any (fun x => x.1 == c)) then primerEnd 3 u else primerEnd 0 (commitCal u.primer.swept (List.range 8) consts u))) ∧
    (s.primer.op = 2 → s.primer.left = c :: cs → (consts.any (fun x => x.1 == c) = false → exec (.primerCommit consts) s = .next (primerEnd 3 s)) ∧
      (consts.any (fun x => x.1 == c) = true → channelIdle s c = false → exec (.primerCommit consts) s = .next (primerEnd 1 s)) ∧
      (consts.any (fun x => x.1 == c) = true → channelIdle s c = true → exec (.primerCommit consts) s = .next (primerNext cs (calState (tileOf c) 0 0 (commitCal [c] [] consts s))))))

/-- O52. A service takes up only a rung slot with its code, marks it TAKEN, and a completed slot holds its result, its request identity, OUT0 and DONE (rests on 19_host_package_electrical.md (service slots), 18_service_continuity.md (services)). -/
def Obligations.ServicesAreTakenUpAndCompleted : Prop :=
  (∀ (fab : Bool) (slot : Fin 32) (c : Instr) (code : Nat → Bool) (s : State) (again : Bool), again = s.taken.contains ⟨fab, slot.val, .again⟩ →
    ((∃ img, c = .programLoad fab slot img ∧ code = (· == 1)) ∨ (∃ img cut, c = .update fab slot img cut ∧ code = (· == 2)) ∨ (c = .primer fab slot ∧ code = (· == 3)) ∨
      (c = .patinaClearService fab slot ∧ code = (· == 4)) ∨ (c = .patinaCmd fab slot ∧ code = (· == 5)) ∨ (∃ x y z w, c = .lifecycle fab slot x y z w ∧ code = (· == 6)) ∨
      (∃ pass, c = .mc fab slot pass ∧ code = (· == 7)) ∨ (c = .memPower fab slot ∧ code = (· == 8)) ∨ (c = .domainResetService fab slot ∧ code = (· == 9)) ∨
      (c = .temper fab slot ∧ code = (· == 10)) ∨ (c = .badService fab slot ∧ code = fun n => n == 0 || decide (10 < n))) →
    (firmwareRuns s = false ∨ (slotBell s fab slot.val = false ∧ again = false) ∨ targetOn s (targetOf s (slotBase fab slot.val)) = false → exec c s = .next s) ∧
    (firmwareRuns s = true → slotBell s fab slot.val = true ∨ again = true → targetOn s (targetOf s (slotBase fab slot.val)) = true →
      (again = false → memByte s (slotBase fab slot.val + 0x100) = 1 → exec c s = .next (clearBell fab slot.val s)) ∧
      (again = true ∨ memByte s (slotBase fab slot.val + 0x100) ≠ 1 → code (slotField s fab slot.val 0 2) = false → exec c s = .next s))) ∧
  (∀ (fab : Bool) (slot : Fin 32) (s u : State) (again : Bool), again = s.taken.contains ⟨fab, slot.val, .again⟩ → firmwareRuns s = true → slotBell s fab slot.val = true ∨ again = true →
    targetOn s (targetOf s (slotBase fab slot.val)) = true → again = true ∨ memByte s (slotBase fab slot.val + 0x100) ≠ 1 → slotField s fab slot.val 0 2 = 0 ∨ 10 < slotField s fab slot.val 0 2 →
    u = bankPut (firmwareMaster s) (slotBase fab slot.val + 0x100) [1] (clearBell fab slot.val { s with taken := s.taken.filter (· != ⟨fab, slot.val, .again⟩) }) → exec (.badService fab slot) s = .next (slotDone fab slot.val 1 0 u)) ∧
  (∀ (fab : Bool) (slot : Fin 32) (result out0 : Nat) (s t : State), result < 256 → out0 < 2 ^ 64 → bankOpen s (firmwareMaster s) (slotBase fab slot.val + 0x100) = true → t = slotDone fab slot.val result out0 s →
    memByte t (slotBase fab slot.val + 0x100) = 2 ∧ memByte t (slotBase fab slot.val + 0x101) = BitVec.ofNat 8 result ∧
    slotField t fab slot.val 0x104 4 = slotField s fab slot.val 4 4 ∧ slotField t fab slot.val 0x108 8 = out0 ∧
    (∀ a, a < slotBase fab slot.val + 0x100 ∨ slotBase fab slot.val + 0x200 ≤ a → a < checkAt ∨ checkAt + 8 ≤ a → memByte t a = memByte s a) ∧
    (bankOpen s (firmwareMaster s) checkAt = true → ∀ (f : Bool) (i : Fin 32), checkHolds t f i.val = s.taken.any (fun x => x.fab == f && x.slot == i.val)) ∧ t.chans = s.chans ∧ (∀ k, (eng t k).pc = (eng s k).pc))

/-- O53. Each service that is taken up does the work of its code and completes its slot with the result the spec lists for its case (rests on 19_host_package_electrical.md (service slots), 09_scheduling_contract.md (program load), 18_service_continuity.md (update), 16_patina.md (clearing), 11_memories_and_matrix.md (memory power)). -/
def Obligations.ServicesDoTheirWork : Prop :=
  ∀ (fab : Bool) (slot : Fin 32) (s u : State) (again : Bool), again = s.taken.contains ⟨fab, slot.val, .again⟩ → firmwareRuns s = true → slotBell s fab slot.val = true ∨ again = true →
    targetOn s (targetOf s (slotBase fab slot.val)) = true → again = true ∨ memByte s (slotBase fab slot.val + 0x100) ≠ 1 →
    u = bankPut (firmwareMaster s) (slotBase fab slot.val + 0x100) [1] (clearBell fab slot.val { s with taken := s.taken.filter (· != ⟨fab, slot.val, .again⟩) }) →
    ∀ code a0 a1 a2 : Nat, code = slotField s fab slot.val 0 2 → a0 = slotArg u fab slot.val 0 → a1 = slotArg u fab slot.val 1 → a2 = slotArg u fab slot.val 2 →
    (code = 1 → ∀ (img : Image) (es : List Nat), es = img.engines.map (fun x => engKey x.eng) →
      (inBank a0 a1 = false → exec (.programLoad fab slot img) s = .next (slotDone fab slot.val 2 0 u)) ∧
      (inBank a0 a1 = true → (bit (rdReg u devPage 0x700) 29 = true ∨ u.lifecycle = 3 → exec (.programLoad fab slot img) s = .next (slotDone fab slot.val 7 0 u)) ∧
        (bit (rdReg u devPage 0x700) 29 = false → u.lifecycle ≠ 3 →
          (img.signed = true → img.sigOk = false ∨ u.keyFused = false → exec (.programLoad fab slot img) s = .next (slotDone fab slot.val 3 0 u)) ∧
          (img.signed = false → 2 ≤ u.lifecycle → exec (.programLoad fab slot img) s = .next (slotDone fab slot.val 3 0 u)) ∧
          ((img.signed = true ∧ img.sigOk = true ∧ u.keyFused = true) ∨ (img.signed = false ∧ u.lifecycle < 2) →
            (versionsRun u img.assumed es = false → exec (.programLoad fab slot img) s = .next (slotDone fab slot.val 4 0 u)) ∧
            (versionsRun u img.assumed es = true → overBudget u img es = true → exec (.programLoad fab slot img) s = .next (slotDone fab slot.val 5 0 u)) ∧
            (versionsRun u img.assumed es = true → overBudget u img es = false → targetsBusy u img es = true → exec (.programLoad fab slot img) s = .next (slotDone fab slot.val 6 0 u)) ∧
            (versionsRun u img.assumed es = true → overBudget u img es = false → targetsBusy u img es = false → img.engines.all (fun x => x.bytes.all (fun b => placeable u b.1)) = false →
              exec (.programLoad fab slot img) s = .next (slotDone fab slot.val 8 0 u)) ∧
            (versionsRun u img.assumed es = true → overBudget u img es = false → targetsBusy u img es = false → img.engines.all (fun x => x.bytes.all (fun b => placeable u b.1)) = true →
              ∀ t, t = forEach img.engines (forEach img.engines (loadYields img es u) (fun x s => forEach x.bytes s (fun b s => memWrite b.1 [b.2] s))) releaseEngine →
                exec (.programLoad fab slot img) s = .next (slotDone fab slot.val 0 (ftNs t) { t with loaded := otherImages t es ++ [⟨es, img.budget⟩] })))))) ∧
    (code = 2 → ∀ (img : UpdateImage) (cut : UpdateCut) (comp : Nat) (stat : Nat), comp = a0 % 16 → stat = (rdReg u updPage 0x700).toNat →
      (u.journal.isSome = true → exec (.update fab slot img cut) s = .next (slotDone fab slot.val 6 stat u)) ∧
      (u.journal = none → (5 < comp ∨ inBank a1 a2 = false ∨ a2 ≤ 0x1000 → exec (.update fab slot img cut) s = .next (slotDone fab slot.val 2 stat u)) ∧
        (comp ≤ 5 → inBank a1 a2 = true → 0x1000 < a2 → (u.lifecycle = 3 → 4 ≤ comp → exec (.update fab slot img cut) s = .next (slotDone fab slot.val 7 stat u)) ∧
          (u.lifecycle ≠ 3 ∨ comp < 4 → (updateSigned u img comp = false → exec (.update fab slot img cut) s = .next (updateRefused fab slot.val comp 3 u)) ∧
            (img.signed = true → img.sigOk = false ∨ (4 ≤ comp ∧ u.keyFused = false) → updateSigned u img comp = false) ∧ (img.signed = false → 2 ≤ u.lifecycle → updateSigned u img comp = false) ∧
            (updateSigned u img comp = true → updateFits img comp a2 = false → exec (.update fab slot img cut) s = .next (updateRefused fab slot.val comp 4 u)) ∧
            (img.manifestOk = false ∨ img.manifest.comp ≠ comp ∨ slotSize comp < 0x1000 + img.manifest.len ∨ a2 < 0x1000 + img.manifest.len → updateFits img comp a2 = false) ∧
            (updateSigned u img comp = true → updateFits img comp a2 = true → ∀ (src n len : Nat) (j j3 : Journal) (v w : State), src = bankBase fab + a1 → len = 0x1000 + img.manifest.len → n = chunksOf len →
              j = ⟨comp, !committedB u comp, img.manifest, src, len, Config.sha384 (memBytes u src len), 1, 0, [], false, 0, 0⟩ →
              v = copyChunks j n (openJournal j (slotWaits fab slot.val .update u)) → w = slotVerified { j with chunks := n, step := 2 } v → j3 = { j with chunks := n, step := 3 } →
              exec (.update fab slot img cut) s = .next (updateSteps j img.readbackOk (cutStep cut) (slotWaits fab slot.val .update u)) ∧
              ∀ t, t = updateSteps j img.readbackOk (cutStep cut) (slotWaits fab slot.val .update u) →
                (cut = .after 1 → (∃ x, t.journal = some x ∧ x.comp = comp ∧ x.slotB = j.slotB ∧ x.step = 1 ∧ x.line = 1) ∧ rdReg t updPage 0x700 = upStat true 1 comp j.slotB 0 0 ∧
                  unverified t (slotKey comp j.slotB) = true ∧ t.chans = s.chans) ∧
                (cut = .after 2 → (∃ x, t.journal = some x ∧ x.step = 2 ∧ x.chunks = n) ∧ (Memory.wf s.mem = true → ∀ i, i < len → memByte t (slotContent comp j.slotB - 0x1000 + i) = memByte u (src + i))) ∧
                (cut = .none → (∀ x ∈ u.taken, x.wait ≠ .update) →
                  (img.readbackOk = false → t.journal = none ∧ rdReg t updPage 0x700 = upStat false 2 comp j.slotB 2 n ∧ committedB t comp = committedB u comp ∧
                    memByte t (slotBase fab slot.val + 0x100) = 2 ∧ memByte t (slotBase fab slot.val + 0x101) = 3) ∧
                  (img.readbackOk = true → journalTested j3 w = false → t.journal = none ∧ rdReg t updPage 0x700 = upStat false 4 comp j.slotB 3 n ∧ committedB t comp = committedB u comp ∧
                    memByte t (slotBase fab slot.val + 0x100) = 2 ∧ memByte t (slotBase fab slot.val + 0x101) = 4) ∧
                  (img.readbackOk = true → journalTested j3 w = true → comp ≠ 0 → bit (rdReg u devPage 0x700) 29 = false → (∀ b ∈ activationBlocks comp, blockFree w comp b = true) →
                    t.journal = none ∧ rdReg t updPage 0x700 = upStat false 6 comp j.slotB 1 n ∧ committedB t comp = j.slotB ∧ upVer t comp = img.manifest.version ∧
                    memByte t (slotBase fab slot.val + 0x100) = 2 ∧ memByte t (slotBase fab slot.val + 0x101) = 0 ∧
                    (Memory.wf s.mem = true → ∀ i, i < len → memByte t (slotContent comp j.slotB - 0x1000 + i) = memByte u (src + i))) ∧
                  (img.readbackOk = true → journalTested j3 w = true → (∀ b ∈ activationBlocks comp, blockFree w comp b = false) →
                    (∃ x, t.journal = some x ∧ x.step = 5 ∧ x.left = activationBlocks comp) ∧ rdReg t updPage 0x700 = upStat true 5 comp j.slotB 0 n ∧ bit (upSlots t) (8 + comp) = true ∧
                    committedB t comp = committedB u comp))))))) ∧
    (code = 3 → ∀ v, v = w32 a0 →
      (∀ r, prRefused u v = some r → ∀ t, t = prCmd (firmwareMaster u) v u → exec (.primer fab slot) s = .next (slotDone fab slot.val r (primerOut t) t)) ∧
      (prRefused u v = none → (fld v 31 29 = 3 → ∀ t, t = prCmd (firmwareMaster u) v u → exec (.primer fab slot) s = .next (slotDone fab slot.val 0 (primerOut t) t)) ∧
        (fld v 31 29 ≠ 3 → exec (.primer fab slot) s = .next (prCmd (firmwareMaster u) v (slotWaits fab slot.val .primer u))))) ∧
    (code = 4 →
      (a0 = 0 ∨ 224 < a0 → exec (.patinaClearService fab slot) s = .next (slotDone fab slot.val 2 0 u)) ∧
      (1 ≤ a0 → a0 ≤ 224 → (tokenMatches u (memBytes u (slotBase fab slot.val + 0x20) a0) = false → exec (.patinaClearService fab slot) s = .next (slotDone fab slot.val 7 0 u)) ∧
        (tokenMatches u (memBytes u (slotBase fab slot.val + 0x20) a0) = true → exec (.patinaClearService fab slot) s = .next (slotDone fab slot.val
          (if u.patina.frozen || u.patina.freezing || u.patina.bellows then 8 else 0) 0 (clearCmd (firmwareMaster u) true { u with patina := { u.patina with auth := true } }))))) ∧
    (code = 5 →
      (a0 = 0 ∨ 3 < a0 → exec (.patinaCmd fab slot) s = .next (slotDone fab slot.val 2 (patOut u) u)) ∧
      (a0 = 1 → exec (.patinaCmd fab slot) s = .next (flushTrigger (slotWaits fab slot.val .flush u))) ∧
      (a0 = 2 → (u.patina.frozen || u.patina.freezing) = false → exec (.patinaCmd fab slot) s = .next (freezeCmd (firmwareMaster u) (slotWaits fab slot.val .flush u))) ∧
      (a0 = 2 → (u.patina.frozen || u.patina.freezing) = true → ∀ t, t = freezeCmd (firmwareMaster u) u → exec (.patinaCmd fab slot) s = .next (slotDone fab slot.val 8 (patOut t) t)) ∧
      (a0 = 3 → ∀ t, t = thawCmd (firmwareMaster u) u → exec (.patinaCmd fab slot) s = .next (slotDone fab slot.val (if u.patina.frozen then 0 else 8) (patOut t) t))) ∧
    (code = 6 → ∀ (x y : Bool) (target : BitVec 2) (fuse : Bool),
      (inBank a0 a1 = false → exec (.lifecycle fab slot x y target fuse) s = .next (slotDone fab slot.val 2 u.lifecycle u)) ∧
      (inBank a0 a1 = true → (u.chans.any (fun c => c.2.stream != .idle) = true → exec (.lifecycle fab slot x y target fuse) s = .next (slotDone fab slot.val 6 u.lifecycle u)) ∧
        (u.chans.any (fun c => c.2.stream != .idle) = false → (target.toNat ≠ u.lifecycle + 1 → exec (.lifecycle fab slot x y target fuse) s = .next (slotDone fab slot.val 7 u.lifecycle u)) ∧
          (target.toNat = u.lifecycle + 1 → (lifecycleSigned u target.toNat x y = false → exec (.lifecycle fab slot x y target fuse) s = .next (slotDone fab slot.val 3 u.lifecycle u)) ∧
            (lifecycleSigned u target.toNat x y = true → ∃ t, exec (.lifecycle fab slot x y target fuse) s = .next t ∧ t.lifecycle = s.lifecycle + 1 ∧
              t.keyFused = (s.keyFused || (fuse && target == 1)) ∧ t.wiping = true ∧ t.chans = s.chans))))) ∧
    (code = 7 → ∀ (pass : Bool) (p op : Nat), p = a0 % 2 → op = a0 / 2 % 8 → ∀ t, t = mcCmd p op (firmwareMaster u) pass u → exec (.mc fab slot pass) s = .next (slotDone fab slot.val
      (if op = 0 ∨ 3 < op then 2 else if (op = 1 ∧ role u p = 2 ∧ role u (1 - p) = 1) ∨ (op = 2 ∧ role u p = 3 ∧ pass = true) ∨ (op = 3 ∧ role u p = 2) then 0 else 8)
      (rdReg t (mcPage p) 0x700).toNat t)) ∧
    (code = 8 → ∀ v, v = w32 a1 →
      (a0 < 0x700 ∨ 0x714 < a0 ∨ a0 % 4 ≠ 0 ∨ (∃ i, i < (pwrFields a0).1 ∧ fld v (2 * i + 1) (2 * i) = 3) → exec (.memPower fab slot) s = .next (slotDone fab slot.val 2 0 u)) ∧
      (0x700 ≤ a0 → a0 ≤ 0x714 → a0 % 4 = 0 → (∀ i, i < (pwrFields a0).1 → fld v (2 * i + 1) (2 * i) ≠ 3) → ∀ t, t = pwrApply a0 (firmwareMaster u) v u →
        exec (.memPower fab slot) s = .next (if pwrAnyRefused u a0 v then slotDone fab slot.val 6 (pwrRead t a0).toNat t
          else if pwrMoving t a0 then slotWaits fab slot.val (.power a0) t else slotDone fab slot.val 0 (pwrRead t a0).toNat t))) ∧
    (code = 9 → ∀ v, v = w32 a0 →
      ((bit v 15 = true ∧ fld v 31 16 ≠ 0x5A17) ∨ 14 ≤ fld v 3 0 → exec (.domainResetService fab slot) s = .next (slotDone fab slot.val 2 (inrst u) u)) ∧
      (fld v 3 0 < 14 → (bit v 15 = true ∧ fld v 31 16 = 0x5A17) ∨ (bit v 15 = false ∧ fld v 3 0 = 8) → exec (.domainResetService fab slot) s = .next (rstCmdWrite (firmwareMaster u) v (Config.freeFind u.free) (tick (slotDone fab slot.val 0 (inrst u) u)))) ∧
      (bit v 15 = false → fld v 3 0 < 14 → fld v 3 0 ≠ 8 → ∀ t, t = rstCmdWrite (firmwareMaster u) v (Config.freeFind u.free) u → exec (.domainResetService fab slot) s = .next (slotDone fab slot.val 0 (inrst t) t))) ∧
    (code = 10 → ∃ t w, exec (.temper fab slot) s = .next (slotDone fab slot.val 0 w.toNat t) ∧ w = rdReg t temperPage 0x700 ∧ (w &&& 0x8000001F) = (w32 a0 &&& 0x8000001F) ∧ t.mem = u.mem ∧ t.chans = s.chans)

/-- O54. PCIe requests reach the matrix only while the link is up, doorbells set and clear their bits, and SMBus and the test access port answer as listed (rests on 19_host_package_electrical.md (PCIe), 19_host_package_electrical.md (SMBus and JTAG), 13_amibin_fabric.md (requests)). -/
def Obligations.ExternalInterfacesAnswer : Prop :=
  (∀ (bar : Bar) (off : BitVec 37) (len : BitVec 13) (relaxed : Bool) (tag : BitVec 10) (data : List Byte) (s : State),
    (domLost s 9 = true ∨ bit (rdReg s pciePage 0x700) 31 = false → exec (.pcieReadRequest bar off len relaxed tag) s = .next s ∧ exec (.pcieWriteRequest bar off data) s = .next s) ∧
    (domLost s 9 = false → bit (rdReg s pciePage 0x700) 31 = true →
      (512 < data.length → exec (.pcieWriteRequest bar off data) s = .next { s with pcie := { s.pcie with aer := setBit s.pcie.aer 18 true }, outbox := .aer 18 :: s.outbox }) ∧
      (bar = .bar4 → exec (.pcieReadRequest bar off len relaxed tag) s = .next { s with outbox := .completion tag.toNat 0 ((List.range len.toNat).map (fun i => bar4Byte s (off.toNat % 0x2000 + i))) :: s.outbox } ∧
        (data.length ≤ 512 → exec (.pcieWriteRequest bar off data) s = .next (bar4Write (off.toNat % 0x2000) data s))) ∧
      (bar = .config → exec (.pcieReadRequest bar off len relaxed tag) s = .next { s with outbox := .completion tag.toNat 0 (leBytes 4 (configRead s off.toNat).toNat) :: s.outbox } ∧
        (data.length ≤ 512 → exec (.pcieWriteRequest bar off data) s = .next (configWrite off.toNat (w32 (leNat (data.take 4))) s))) ∧
      (bar ≠ .bar4 → bar ≠ .config → exec (.pcieReadRequest bar off len relaxed tag) s = .next (issueRequests (completeRequests { s with pcie := { s.pcie with reqs := s.pcie.reqs ++ [⟨false, tag.toNat, relaxed, none, pciPieces bar off.toNat len.toNat []⟩] } })) ∧
        (data.length ≤ 512 → exec (.pcieWriteRequest bar off data) s = .next (issueRequests (completeRequests { s with pcie := { s.pcie with reqs := s.pcie.reqs ++ [⟨true, 0, false, none, pciPieces bar off.toNat data.length data⟩] } })))))) ∧
  (∀ (m : Master) (v : Word) (s : State), Takes s pciePage m → exec (.pciDbWrite m v) s = .next (if m = .pcie then wrReg pciePage 0x704 (rdReg s pciePage 0x704 ||| v) s
    else if m = .mcA ∨ m = .mcB then wrReg pciePage 0x704 (rdReg s pciePage 0x704 &&& ~~~v) s else rejectWrite pciePage 0x704 m s)) ∧
  (∀ (m : Master) (src : BitVec 16) (v : Word) (s : State), pageError s fbPage = none →
    (Takes s fbPage .agent → exec (.fbSvcdbWrite .agent src v) s = .next (if mayWritePages s src.toNat then wrReg fbPage 0x77C (rdReg s fbPage 0x77C ||| v) s else s)) ∧
    (m ≠ .agent → Takes s fbPage m → exec (.fbSvcdbWrite m src v) s = .next (if m = .mcA ∨ m = .mcB then wrReg fbPage 0x77C (rdReg s fbPage 0x77C &&& ~~~v) s else rejectWrite fbPage 0x77C m s))) ∧
  (∀ (width speed : BitVec 4) (flit : Bool) (s : State),
    (domLost s 9 = true ∨ s.tapFault = true ∨ bit (rdReg s pciePage 0x700) 31 = true ∨ (width ≠ 1 ∧ width ≠ 2 ∧ width ≠ 4 ∧ width ≠ 8) ∨ speed = 0 ∨ 6 < speed.toNat ∨ flit ≠ (speed == 6) → exec (.pcieLinkUp width speed flit) s = .next s) ∧
    (domLost s 9 = false → s.tapFault = false → bit (rdReg s pciePage 0x700) 31 = false → width = 1 ∨ width = 2 ∨ width = 4 ∨ width = 8 → 1 ≤ speed.toNat → speed.toNat ≤ 6 → flit = (speed == 6) →
      ∃ t w, exec (.pcieLinkUp width speed flit) s = .next t ∧ w = rdReg t pciePage 0x700 ∧ bit w 31 = true ∧ bit w 30 = true ∧ fld w 7 4 = width.toNat ∧ fld w 3 0 = speed.toNat ∧
        bit w 29 = flit ∧ bit (rdReg t fbPage 0x700) 16 = true ∧ bit (rdReg t pciePage 0x010) 1 = true ∧ t.mem = s.mem ∧ t.chans = s.chans)) ∧
  (∀ (s : State) (a b : Byte), a = BitVec.ofNat 8 (2 * (0x40 + Config.smbAddr.toNat)) → b = BitVec.ofNat 8 (2 * (0x40 + Config.smbAddr.toNat) + 1) →
    (∀ d, d = 4 :: leBytes 4 (smbusStatus s).toNat → exec .smbusStatusRead s = .next { s with outbox := .smbus (d ++ [pecOf ([a, 1, b] ++ d)]) :: s.outbox }) ∧
    (∀ d, d = leBytes 2 (highestTemp s).toNat → exec .smbusTemperatureRead s = .next { s with outbox := .smbus (d ++ [pecOf ([a, 2, b] ++ d)]) :: s.outbox }) ∧
    (∃ n d, d = leBytes 2 n ∧ exec .smbusPowerRead s = .next { s with outbox := .smbus (d ++ [pecOf ([a, 3, b] ++ d)]) :: s.outbox, free := s.free + 1 }) ∧
    (∀ u, u = raiseBit smbPage 1 (countReg smbPage 0x704 1 s) → exec (.smbusPecError true) s = .next u ∧ exec (.smbusPecError false) s = .next { u with outbox := .smbusNack :: u.outbox } ∧
      exec (.smbusClockLowTimeout true) s = .next u ∧ exec (.smbusClockLowTimeout false) s = .next s) ∧
    exec .smbusAlertResponse s = .next (if fld (smbusStatus s) 21 18 ≠ 0 then { s with outbox := .smbus [a, pecOf [0x19, a]] :: s.outbox } else s)) ∧
  (∀ (addr : Word) (inTime : Bool) (s : State),
    (bit (rdReg s devPage 0x700) 31 = false ∨ inTime = false → ∃ bs, exec (.smbusRegisterRead addr inTime) s = .next { s with outbox := .smbus (5 :: 1 :: bs) :: s.outbox, free := s.free + 1 }) ∧
    (bit (rdReg s devPage 0x700) 31 = true → inTime = true →
      (addr.toNat < 0x4000000 ∨ 0x8000000 ≤ addr.toNat ∨ addr.toNat % 4 ≠ 0 ∨ (pageError s (pageOfAddr addr.toNat).1).isSome = true →
        ∃ bs, exec (.smbusRegisterRead addr inTime) s = .next { s with outbox := .smbus (5 :: 2 :: bs) :: s.outbox, free := s.free + 1 }) ∧
      (0x4000000 ≤ addr.toNat → addr.toNat < 0x8000000 → addr.toNat % 4 = 0 → ∀ p t u, p = pageOfAddr addr.toNat → pageError s p.1 = none → t = pageYields p.1 (firmwareMaster s) s → u = pageReadEffect p.1 p.2 t →
        exec (.smbusRegisterRead addr inTime) s = .next { u with outbox := .smbus (5 :: 0 :: leBytes 4 (pageRead t p.1 p.2).toNat ++
          [pecOf ([BitVec.ofNat 8 (2 * (0x40 + Config.smbAddr.toNat)), 0x10, 4] ++ leBytes 4 addr.toNat ++ [BitVec.ofNat 8 (2 * (0x40 + Config.smbAddr.toNat) + 1), 5, 0] ++ leBytes 4 (pageRead t p.1 p.2).toNat)]) :: u.outbox }))) ∧
  (∀ (data : List Byte) (s : State), exec (.smbusEstop data) s = .next (if data.length = 4 ∧ bit (rdReg s smbPage 0x700) 0 = true ∧ domLost s 8 = false then setLatch 2 0 0 s else s)) ∧
  (∀ (i : TapInstr) (s : State), (tapDrives i = false → exec (.jtagInstructionLoad i) s = .next { s with tap := i }) ∧
    (tapDrives i = true → ∃ t, exec (.jtagInstructionLoad i) s = .next t ∧ t.tap = i ∧ t.tapFault = true ∧ bit (rdReg t quenchPage 0x700) 2 = true ∧ bit (rdReg t pciePage 0x700) 31 = false ∧
      (domLost s 9 = false → ∀ p, p < 8 → (port t p).st = 4))) ∧
  (∀ s : State, ∃ t, exec .jtagTestLogicReset s = .next t ∧ t.tap = .idcode ∧ t.tapFault = false ∧ t.mem = s.mem ∧ (s.tapFault = true → domLost s 9 = false → ∀ p, p < 8 → (port s p).st = 4 →
    (port t p).st = (if bit (rdReg s (fbpPage p) 0x700) 0 then 2 else 0)))

/-- O55. After reset no command waits, every register reads its reset value, memory lists nothing, and every invariant of the steps holds (rests on 17_start_up_and_power.md (power-on), 14_register_pages.md (register tables)). -/
def Obligations.ResetStateMeetsTheInvariants : Prop :=
  State.reset.pending = [] ∧ State.reset.outbox = [] ∧ State.reset.mem = [] ∧ Memory.wf State.reset.mem = true ∧
  (∀ page off, rdReg State.reset page off = resetAt page off) ∧
  (∀ c, chan State.reset c = {} ∧ Quiet (chan State.reset c)) ∧ (∀ k, (eng State.reset k) = engDefault k ∧ ModeLegal k (eng State.reset k))

/-- O56. Every step keeps held channels quiet: a channel in safe hold drives nothing, whatever command is served or time passes (rests on 08_faults_and_modes.md (safe hold), 02_pin_channel.md (pin channel)). -/
def Obligations.HeldChannelsStayQuiet : Prop :=
  ∀ s t : State, (∀ c, Quiet (chan s c)) → step s = .next t → ∀ c, Quiet (chan t c)

/-- O57. Every step keeps every engine in Work, Fault or Service mode, and Service mode on the management pairs only (rests on 08_faults_and_modes.md (modes)). -/
def Obligations.EngineModesStayLegal : Prop :=
  ∀ s t : State, (∀ k, ModeLegal k (eng s k)) → step s = .next t → ∀ k, ModeLegal k (eng t k)

/-- O58. Every step keeps the memory's canonical form, whatever command is served (rests on 11_memories_and_matrix.md (memories)). -/
def Obligations.MemoryStaysCanonical : Prop :=
  ∀ s t : State, Memory.wf s.mem = true → step s = .next t → Memory.wf t.mem = true

/-- O59. No step moves the lifecycle state back, or undoes the fused customer key (rests on 18_service_continuity.md (lifecycle)). -/
def Obligations.LifecycleAndFusesNeverGoBack : Prop :=
  ∀ s t : State, step s = .next t → s.lifecycle ≤ t.lifecycle ∧ (s.keyFused = true → t.keyFused = true)

/-- O60. Every command ends in a next state, with the queue, what was sent out before, and the free values used before left as they were (rests on 95_what_each_step_holds.md (the commands)). -/
def Obligations.EveryCommandEndsAndLeavesTheQueue : Prop :=
  ∀ (c : Instr) (s : State), ∃ t, exec c s = .next t ∧ t.pending = s.pending ∧ (∃ sent, t.outbox = sent ++ s.outbox) ∧ s.free ≤ t.free
end

