-- ==== Sys2Proof/Laws/Pages.lean ====
section
/-! SUPPORT. The page of each kind decodes to that kind and its instance, and lies within the page index. -/

-- One theorem at a time: elaborating them in parallel takes the memory of many threads.
set_option Elab.async false

namespace Sys2Proof.Machine

theorem pageAt_ch_fin : ∀ c : Fin 512, pageAt (chPage c.val) = some ⟨.ch, c.val⟩ := by decide +kernel
theorem chPage_lt_fin : ∀ c : Fin 512, chPage c.val < 2 ^ 14 := by decide +kernel
theorem pageAt_chPage {c : Nat} (h : c < 512) : pageAt (chPage c) = some ⟨.ch, c⟩ := pageAt_ch_fin ⟨c, h⟩
theorem chPage_lt {c : Nat} (h : c < 512) : chPage c < 2 ^ 14 := chPage_lt_fin ⟨c, h⟩

theorem pageAt_pal_fin : ∀ c : Fin 64, pageAt (palPage c.val) = some ⟨.pal, c.val⟩ := by decide +kernel
theorem palPage_lt_fin : ∀ c : Fin 64, palPage c.val < 2 ^ 14 := by decide +kernel
theorem pageAt_palPage {c : Nat} (h : c < 64) : pageAt (palPage c) = some ⟨.pal, c⟩ := pageAt_pal_fin ⟨c, h⟩
theorem palPage_lt {c : Nat} (h : c < 64) : palPage c < 2 ^ 14 := palPage_lt_fin ⟨c, h⟩

theorem pageAt_tq_fin : ∀ c : Fin 8, pageAt (tqPage c.val) = some ⟨.tquench, c.val⟩ := by decide +kernel
theorem tqPage_lt_fin : ∀ c : Fin 8, tqPage c.val < 2 ^ 14 := by decide +kernel
theorem pageAt_tqPage {c : Nat} (h : c < 8) : pageAt (tqPage c) = some ⟨.tquench, c⟩ := pageAt_tq_fin ⟨c, h⟩
theorem tqPage_lt {c : Nat} (h : c < 8) : tqPage c < 2 ^ 14 := tqPage_lt_fin ⟨c, h⟩

theorem pageAt_pm_fin : ∀ c : Fin 8, pageAt (pmPage c.val) = some ⟨.pmark, c.val⟩ := by decide +kernel
theorem pmPage_lt_fin : ∀ c : Fin 8, pmPage c.val < 2 ^ 14 := by decide +kernel
theorem pageAt_pmPage {c : Nat} (h : c < 8) : pageAt (pmPage c) = some ⟨.pmark, c⟩ := pageAt_pm_fin ⟨c, h⟩
theorem pmPage_lt {c : Nat} (h : c < 8) : pmPage c < 2 ^ 14 := pmPage_lt_fin ⟨c, h⟩

theorem pageAt_cl_fin : ∀ c : Fin 8, pageAt (clPage c.val) = some ⟨.cl, c.val⟩ := by decide +kernel
theorem clPage_lt_fin : ∀ c : Fin 8, clPage c.val < 2 ^ 14 := by decide +kernel
theorem pageAt_clPage {c : Nat} (h : c < 8) : pageAt (clPage c) = some ⟨.cl, c⟩ := pageAt_cl_fin ⟨c, h⟩
theorem clPage_lt {c : Nat} (h : c < 8) : clPage c < 2 ^ 14 := clPage_lt_fin ⟨c, h⟩

theorem pageAt_wd_fin : ∀ c : Fin 8, pageAt (wdPage c.val) = some ⟨.wd, c.val⟩ := by decide +kernel
theorem wdPage_lt_fin : ∀ c : Fin 8, wdPage c.val < 2 ^ 14 := by decide +kernel
theorem pageAt_wdPage {c : Nat} (h : c < 8) : pageAt (wdPage c) = some ⟨.wd, c⟩ := pageAt_wd_fin ⟨c, h⟩
theorem wdPage_lt {c : Nat} (h : c < 8) : wdPage c < 2 ^ 14 := wdPage_lt_fin ⟨c, h⟩

theorem pageAt_ln_fin : ∀ c : Fin 64, pageAt (lnPage c.val) = some ⟨.ln, c.val⟩ := by decide +kernel
theorem lnPage_lt_fin : ∀ c : Fin 64, lnPage c.val < 2 ^ 14 := by decide +kernel
theorem pageAt_lnPage {c : Nat} (h : c < 64) : pageAt (lnPage c) = some ⟨.ln, c⟩ := pageAt_ln_fin ⟨c, h⟩
theorem lnPage_lt {c : Nat} (h : c < 64) : lnPage c < 2 ^ 14 := lnPage_lt_fin ⟨c, h⟩

theorem pageAt_lscr_fin : ∀ c : Fin 64, pageAt (lscrPage c.val) = some ⟨.lscr, c.val⟩ := by decide +kernel
theorem lscrPage_lt_fin : ∀ c : Fin 64, lscrPage c.val < 2 ^ 14 := by decide +kernel
theorem pageAt_lscrPage {c : Nat} (h : c < 64) : pageAt (lscrPage c) = some ⟨.lscr, c⟩ := pageAt_lscr_fin ⟨c, h⟩
theorem lscrPage_lt {c : Nat} (h : c < 64) : lscrPage c < 2 ^ 14 := lscrPage_lt_fin ⟨c, h⟩

theorem pageAt_mc_fin : ∀ c : Fin 2, pageAt (mcPage c.val) = some ⟨.mc, c.val⟩ := by decide +kernel
theorem mcPage_lt_fin : ∀ c : Fin 2, mcPage c.val < 2 ^ 14 := by decide +kernel
theorem pageAt_mcPage {c : Nat} (h : c < 2) : pageAt (mcPage c) = some ⟨.mc, c⟩ := pageAt_mc_fin ⟨c, h⟩
theorem mcPage_lt {c : Nat} (h : c < 2) : mcPage c < 2 ^ 14 := mcPage_lt_fin ⟨c, h⟩

theorem pageAt_hbm_fin : ∀ c : Fin 4, pageAt (hbmPage c.val) = some ⟨.hbm, c.val⟩ := by decide +kernel
theorem hbmPage_lt_fin : ∀ c : Fin 4, hbmPage c.val < 2 ^ 14 := by decide +kernel
theorem pageAt_hbmPage {c : Nat} (h : c < 4) : pageAt (hbmPage c) = some ⟨.hbm, c⟩ := pageAt_hbm_fin ⟨c, h⟩
theorem hbmPage_lt {c : Nat} (h : c < 4) : hbmPage c < 2 ^ 14 := hbmPage_lt_fin ⟨c, h⟩

theorem pageAt_fbp_fin : ∀ c : Fin 8, pageAt (fbpPage c.val) = some ⟨.fbp, c.val⟩ := by decide +kernel
theorem fbpPage_lt_fin : ∀ c : Fin 8, fbpPage c.val < 2 ^ 14 := by decide +kernel
theorem pageAt_fbpPage {c : Nat} (h : c < 8) : pageAt (fbpPage c) = some ⟨.fbp, c⟩ := pageAt_fbp_fin ⟨c, h⟩
theorem fbpPage_lt {c : Nat} (h : c < 8) : fbpPage c < 2 ^ 14 := fbpPage_lt_fin ⟨c, h⟩

theorem pageAt_store_fin : ∀ i : Fin 72, pageAt (storePage i.val) = some (if i.val < 64 then ⟨.lcs, i.val⟩ else ⟨.ccs, i.val - 64⟩) := by decide +kernel
theorem storePage_lt_fin : ∀ i : Fin 72, storePage i.val < 2 ^ 14 := by decide +kernel
theorem pageAt_storePage {i : Nat} (h : i < 72) : pageAt (storePage i) = some (if i < 64 then ⟨.lcs, i⟩ else ⟨.ccs, i - 64⟩) := pageAt_store_fin ⟨i, h⟩
theorem storePage_lt {i : Nat} (h : i < 72) : storePage i < 2 ^ 14 := storePage_lt_fin ⟨i, h⟩

theorem pageAt_snapPage : pageAt snapPage = some ⟨.snap, 0⟩ := rfl
theorem snapPage_lt : snapPage < 2 ^ 14 := by decide
theorem pageAt_scrubPage : pageAt scrubPage = some ⟨.scrub, 0⟩ := rfl
theorem scrubPage_lt : scrubPage < 2 ^ 14 := by decide
theorem pageAt_devPage : pageAt devPage = some ⟨.dev, 0⟩ := rfl
theorem devPage_lt : devPage < 2 ^ 14 := by decide
theorem pageAt_rstPage : pageAt rstPage = some ⟨.rst, 0⟩ := rfl
theorem rstPage_lt : rstPage < 2 ^ 14 := by decide
theorem pageAt_blPage : pageAt blPage = some ⟨.bellows, 0⟩ := rfl
theorem blPage_lt : blPage < 2 ^ 14 := by decide
theorem pageAt_updPage : pageAt updPage = some ⟨.upd, 0⟩ := rfl
theorem updPage_lt : updPage < 2 ^ 14 := by decide
theorem pageAt_fbPage : pageAt fbPage = some ⟨.fb, 0⟩ := rfl
theorem fbPage_lt : fbPage < 2 ^ 14 := by decide
theorem pageAt_fbrtPage : pageAt fbrtPage = some ⟨.fbrt, 0⟩ := rfl
theorem fbrtPage_lt : fbrtPage < 2 ^ 14 := by decide
theorem pageAt_hangPage : pageAt hangPage = some ⟨.hang, 0⟩ := rfl
theorem hangPage_lt : hangPage < 2 ^ 14 := by decide
theorem pageAt_quenchPage : pageAt quenchPage = some ⟨.quench, 0⟩ := rfl
theorem quenchPage_lt : quenchPage < 2 ^ 14 := by decide
theorem pageAt_anvilPage : pageAt anvilPage = some ⟨.anvil, 0⟩ := rfl
theorem anvilPage_lt : anvilPage < 2 ^ 14 := by decide
theorem pageAt_patPage : pageAt patPage = some ⟨.patina, 0⟩ := rfl
theorem patPage_lt : patPage < 2 ^ 14 := by decide
theorem pageAt_pciePage : pageAt pciePage = some ⟨.pcie, 0⟩ := rfl
theorem pciePage_lt : pciePage < 2 ^ 14 := by decide
theorem pageAt_mxPage : pageAt mxPage = some ⟨.mx, 0⟩ := rfl
theorem mxPage_lt : mxPage < 2 ^ 14 := by decide
theorem pageAt_memPage : pageAt memPage = some ⟨.mem, 0⟩ := rfl
theorem memPage_lt : memPage < 2 ^ 14 := by decide
theorem pageAt_tongsPage : pageAt tongsPage = some ⟨.tongs, 0⟩ := rfl
theorem tongsPage_lt : tongsPage < 2 ^ 14 := by decide
theorem pageAt_primerPage : pageAt primerPage = some ⟨.primer, 0⟩ := rfl
theorem primerPage_lt : primerPage < 2 ^ 14 := by decide
theorem pageAt_temperPage : pageAt temperPage = some ⟨.temper, 0⟩ := rfl
theorem temperPage_lt : temperPage < 2 ^ 14 := by decide
theorem pageAt_smbPage : pageAt smbPage = some ⟨.smb, 0⟩ := rfl
theorem smbPage_lt : smbPage < 2 ^ 14 := by decide
theorem pageAt_msixPage : pageAt msixPage = some ⟨.msix, 0⟩ := rfl
theorem msixPage_lt : msixPage < 2 ^ 14 := by decide

theorem tileOf_lt {c : Nat} (h : c < 512) : tileOf c < 8 := by unfold tileOf; omega
theorem laneOf_lt {c : Nat} (h : c < 512) : laneOf c < 64 := by unfold laneOf; omega
theorem clusterOf_lt (c : Nat) : clusterOf c < 8 := by unfold clusterOf clusterOfLane; omega
theorem laneOfCluster_lt (k i : Nat) : laneOfCluster k i < 64 := by unfold laneOfCluster; omega

end Sys2Proof.Machine
end

