-- ==== Sys2Proof/Laws/Maps.lean ====
section
/-! SUPPORT. The laws of the sparse maps: what reads after a write, and that every operation keeps the canonical form. -/

-- One theorem at a time: elaborating them in parallel takes the memory of many threads.
set_option Elab.async false

namespace Sys2Proof.Machine

theorem smGet_nil {α : Type} (d : α) (i : Nat) : smGet d [] i = d := rfl

theorem smGet_smErase_same {α : Type} (d : α) (m : SMap α) (i : Nat) : smGet d (smErase m i) i = d := by
  induction m with
  | nil => rfl
  | cons e m ih =>
    obtain ⟨k, v⟩ := e
    by_cases h : k = i
    · simp [smErase, h, ih]
    · simp [smErase, smGet, h, ih]

theorem smGet_smErase_ne {α : Type} (d : α) (m : SMap α) {i j : Nat} (h : j ≠ i) :
    smGet d (smErase m i) j = smGet d m j := by
  induction m with
  | nil => rfl
  | cons e m ih =>
    obtain ⟨k, v⟩ := e
    by_cases hk : k = i
    · have : i ≠ j := fun c => h c.symm
      simp [smErase, smGet, hk, ih, this]
    · simp [smErase, smGet, hk, ih]

theorem smGet_smInsert_ne {α : Type} (d : α) (m : SMap α) {i j : Nat} (x : α) (h : j ≠ i) :
    smGet d (smInsert m i x) j = smGet d m j := by
  have hi : i ≠ j := fun c => h c.symm
  induction m with
  | nil => simp [smInsert, smGet, hi]
  | cons e m ih =>
    obtain ⟨k, v⟩ := e
    by_cases hk : i < k
    · simp [smInsert, smGet, hk, hi]
    · simp [smInsert, smGet, hk, ih]

theorem smGet_smInsert_erased {α : Type} (d : α) (m : SMap α) (i : Nat) (x : α) :
    smGet d (smInsert (smErase m i) i x) i = x := by
  induction m with
  | nil => simp [smErase, smInsert, smGet]
  | cons e m ih =>
    obtain ⟨k, v⟩ := e
    by_cases h : k = i
    · simp [smErase, h, ih]
    · by_cases hk : i < k
      · simp [smErase, smInsert, smGet, h, hk]
      · simp [smErase, smInsert, smGet, h, hk, ih]

/-- A read after a write of the same entry gives the value written. -/
@[simp] theorem smGet_smPut_same {α : Type} [DecidableEq α] (d : α) (m : SMap α) (i : Nat) (x : α) :
    smGet d (smPut d m i x) i = x := by
  unfold smPut
  split
  · rename_i h; rw [smGet_smErase_same, h]
  · exact smGet_smInsert_erased d m i x

/-- A write leaves every other entry alone, whatever default it is read with. -/
theorem smGet_smPut_ne {α : Type} [DecidableEq α] (d d' : α) (m : SMap α) {i j : Nat} (x : α) (h : j ≠ i) :
    smGet d' (smPut d m i x) j = smGet d' m j := by
  unfold smPut
  split
  · exact smGet_smErase_ne d' m h
  · rw [smGet_smInsert_ne d' _ x h, smGet_smErase_ne d' m h]

/-- A read of an entry after a write, both cases. -/
theorem smGet_smPut {α : Type} [DecidableEq α] (d : α) (m : SMap α) (i j : Nat) (x : α) :
    smGet d (smPut d m i x) j = if j = i then x else smGet d m j := by
  split
  · rename_i h; subst h; exact smGet_smPut_same d m j x
  · rename_i h; exact smGet_smPut_ne d d m x h

/-! ## The canonical form -/

/-- Every key of a map is greater than k. -/
def smAbove {α : Type} (k : Nat) (m : SMap α) : Prop := ∀ e ∈ m, k < e.1

theorem smSorted_cons {α : Type} (k : Nat) (v : α) (m : SMap α) :
    smSorted ((k, v) :: m) = true ↔ smAbove k m ∧ smSorted m = true := by
  induction m generalizing k v with
  | nil => simp [smSorted, smAbove]
  | cons e m ih =>
    obtain ⟨j, w⟩ := e
    have hj := ih j w
    constructor
    · intro h
      simp only [smSorted, Bool.and_eq_true, decide_eq_true_eq] at h
      refine ⟨?_, h.2⟩
      intro e he
      rcases List.mem_cons.1 he with rfl | he
      · exact h.1
      · exact Nat.lt_trans h.1 ((hj.1 h.2).1 e he)
    · rintro ⟨ha, hs⟩
      simp only [smSorted, Bool.and_eq_true, decide_eq_true_eq]
      exact ⟨ha (j, w) List.mem_cons_self, hs⟩

theorem smErase_sublist {α : Type} (m : SMap α) (i : Nat) : (smErase m i).Sublist m := by
  induction m with
  | nil => exact List.Sublist.slnil
  | cons e m ih =>
    obtain ⟨k, v⟩ := e
    unfold smErase
    split
    · exact List.Sublist.cons _ ih
    · exact List.Sublist.cons_cons _ ih

theorem smErase_key {α : Type} (m : SMap α) (i : Nat) : ∀ e ∈ smErase m i, e.1 ≠ i := by
  induction m with
  | nil => simp [smErase]
  | cons e m ih =>
    obtain ⟨k, v⟩ := e
    unfold smErase
    split
    · exact ih
    · rename_i h
      intro e he
      rcases List.mem_cons.1 he with rfl | he
      · exact h
      · exact ih e he

/-- A part of a canonical map, in its order, is canonical. -/
theorem smSorted_sublist {α : Type} {m n : SMap α} (h : m.Sublist n) (hn : smSorted n = true) : smSorted m = true := by
  induction h with
  | slnil => rfl
  | cons e _ ih => obtain ⟨k, v⟩ := e; exact ih ((smSorted_cons k v _).1 hn).2
  | cons_cons e hs ih =>
    obtain ⟨k, v⟩ := e
    obtain ⟨ha, ht⟩ := (smSorted_cons k v _).1 hn
    exact (smSorted_cons k v _).2 ⟨fun e he => ha e (hs.subset he), ih ht⟩

theorem smWf_sublist {α : Type} [DecidableEq α] {d : α} {m n : SMap α} (h : m.Sublist n) (hn : smWf d n = true) : smWf d m = true := by
  simp only [smWf, Bool.and_eq_true, List.all_eq_true] at hn ⊢
  exact ⟨smSorted_sublist h hn.1, fun e he => hn.2 e (h.subset he)⟩

theorem mem_smInsert {α : Type} (m : SMap α) (i : Nat) (x : α) (e : Nat × α) : e ∈ smInsert m i x ↔ e = (i, x) ∨ e ∈ m := by
  induction m with
  | nil => simp [smInsert]
  | cons a m ih =>
    obtain ⟨k, v⟩ := a
    unfold smInsert
    split
    · simp
    · simp only [List.mem_cons, ih]; tauto

theorem smSorted_smInsert {α : Type} (m : SMap α) (i : Nat) (x : α) (h : smSorted m = true) (hi : ∀ e ∈ m, e.1 ≠ i) :
    smSorted (smInsert m i x) = true := by
  induction m with
  | nil => rfl
  | cons a m ih =>
    obtain ⟨k, v⟩ := a
    obtain ⟨ha, ht⟩ := (smSorted_cons k v m).1 h
    unfold smInsert
    split
    · rename_i hlt
      refine (smSorted_cons i x _).2 ⟨?_, h⟩
      intro e he
      rcases List.mem_cons.1 he with rfl | he
      · exact hlt
      · exact Nat.lt_trans hlt (ha e he)
    · rename_i hge
      have hk : k ≠ i := hi (k, v) List.mem_cons_self
      refine (smSorted_cons k v _).2 ⟨?_, ih ht fun e he => hi e (List.mem_cons_of_mem _ he)⟩
      intro e he
      rcases (mem_smInsert m i x e).1 he with rfl | he
      · show k < i; omega
      · exact ha e he

/-- A write keeps the canonical form. -/
theorem smWf_smPut {α : Type} [DecidableEq α] (d : α) (m : SMap α) (i : Nat) (x : α) (h : smWf d m = true) :
    smWf d (smPut d m i x) = true := by
  have he := smWf_sublist (smErase_sublist m i) h
  unfold smPut
  split
  · exact he
  · rename_i hx
    simp only [smWf, Bool.and_eq_true, List.all_eq_true] at he ⊢
    refine ⟨smSorted_smInsert _ i x he.1 (smErase_key m i), fun e hm => ?_⟩
    rcases (mem_smInsert _ i x e).1 hm with rfl | hm
    · simpa using hx
    · exact he.2 e hm

/-- A filter keeps the canonical form. -/
theorem smWf_filter {α : Type} [DecidableEq α] (d : α) (m : SMap α) (p : Nat × α → Bool) (h : smWf d m = true) :
    smWf d (m.filter p) = true := smWf_sublist List.filter_sublist h

/-- Dropping a range keeps the canonical form. -/
theorem smWf_smDrop {α : Type} [DecidableEq α] (d : α) (m : SMap α) (p : Nat → Bool) (h : smWf d m = true) :
    smWf d (smDrop p m) = true := smWf_filter d m _ h

/-- An entry whose key is dropped reads as the default; every other reads as before. -/
theorem smGet_smDrop {α : Type} (d : α) (m : SMap α) (p : Nat → Bool) (i : Nat) :
    smGet d (smDrop p m) i = if p i then d else smGet d m i := by
  induction m with
  | nil => simp [smDrop, smGet]
  | cons e m ih =>
    obtain ⟨k, v⟩ := e
    have ih' : smGet d (List.filter (fun e => !p e.1) m) i = if p i then d else smGet d m i := ih
    by_cases hp : p k
    · by_cases hk : k = i
      · subst hk; simp [smDrop, hp, ih']
      · simp [smDrop, smGet, hp, hk, ih']
    · by_cases hk : k = i
      · subst hk; simp [smDrop, smGet, hp]
      · simp [smDrop, smGet, hp, hk, ih']

/-- In a canonical map a key is listed exactly where it does not read as the default. -/
theorem smGet_eq_default_iff {α : Type} [DecidableEq α] (d : α) (m : SMap α) (i : Nat) (h : smWf d m = true) :
    smGet d m i = d ↔ ∀ e ∈ m, e.1 ≠ i := by
  induction m with
  | nil => simp [smGet]
  | cons e m ih =>
    obtain ⟨k, v⟩ := e
    simp only [smWf, Bool.and_eq_true, List.all_eq_true, List.mem_cons, forall_eq_or_imp, decide_eq_true_eq] at h
    have hm : smWf d m = true := by
      simp only [smWf, Bool.and_eq_true, List.all_eq_true, decide_eq_true_eq]
      exact ⟨((smSorted_cons k v m).1 h.1).2, h.2.2⟩
    by_cases hk : k = i
    · simp [smGet, hk, h.2.1]
    · simp [smGet, hk, ih hm]

theorem smErase_smErase {α : Type} (m : SMap α) (i : Nat) : smErase (smErase m i) i = smErase m i := by
  induction m with
  | nil => rfl
  | cons e m ih =>
    obtain ⟨k, v⟩ := e
    by_cases h : k = i
    · simp [smErase, h, ih]
    · simp [smErase, h, ih]

theorem smErase_smInsert {α : Type} (m : SMap α) (i : Nat) (x : α) : smErase (smInsert m i x) i = smErase m i := by
  induction m with
  | nil => simp [smInsert, smErase]
  | cons e m ih =>
    obtain ⟨k, v⟩ := e
    unfold smInsert
    split
    · simp [smErase]
    · by_cases h : k = i
      · simp [smErase, h, ih]
      · simp [smErase, h, ih]

/-- A second write of the same key replaces the first. -/
@[simp] theorem smPut_smPut_same {α : Type} [DecidableEq α] (d : α) (m : SMap α) (i : Nat) (x y : α) :
    smPut d (smPut d m i x) i y = smPut d m i y := by
  have h : smErase (smPut d m i x) i = smErase m i := by
    unfold smPut
    split
    · exact smErase_smErase ..
    · rw [smErase_smInsert, smErase_smErase]
  unfold smPut at h ⊢
  rw [h]

end Sys2Proof.Machine
end

