-- ==== Sys2Proof/Laws/State.lean ====
section
/-! SUPPORT. What each update of State leaves alone, one lemma per field and per view, all by definition; and what it writes. -/

-- One theorem at a time: elaborating them in parallel takes the memory of many threads.
set_option Elab.async false

namespace Sys2Proof.Machine

@[simp] theorem tick_pending (s : State) : (tick s).pending = s.pending := (rfl)
@[simp] theorem tick_now (s : State) : (tick s).now = s.now := (rfl)
@[simp] theorem tick_outbox (s : State) : (tick s).outbox = s.outbox := (rfl)
@[simp] theorem tick_regs (s : State) : (tick s).regs = s.regs := (rfl)
@[simp] theorem tick_swapped (s : State) : (tick s).swapped = s.swapped := (rfl)
@[simp] theorem tick_calSwapped (s : State) : (tick s).calSwapped = s.calSwapped := (rfl)
@[simp] theorem tick_held (s : State) : (tick s).held = s.held := (rfl)
@[simp] theorem tick_wms (s : State) : (tick s).wms = s.wms := (rfl)
@[simp] theorem tick_irqOut (s : State) : (tick s).irqOut = s.irqOut := (rfl)
@[simp] theorem tick_msixDue (s : State) : (tick s).msixDue = s.msixDue := (rfl)
@[simp] theorem tick_pal (s : State) : (tick s).pal = s.pal := (rfl)
@[simp] theorem tick_palHeld (s : State) : (tick s).palHeld = s.palHeld := (rfl)
@[simp] theorem tick_palCmds (s : State) : (tick s).palCmds = s.palCmds := (rfl)
@[simp] theorem tick_chans (s : State) : (tick s).chans = s.chans := (rfl)
@[simp] theorem tick_bases (s : State) : (tick s).bases = s.bases := (rfl)
@[simp] theorem tick_tables (s : State) : (tick s).tables = s.tables := (rfl)
@[simp] theorem tick_doms (s : State) : (tick s).doms = s.doms := (rfl)
@[simp] theorem tick_pins (s : State) : (tick s).pins = s.pins := (rfl)
@[simp] theorem tick_lifecycle (s : State) : (tick s).lifecycle = s.lifecycle := (rfl)
@[simp] theorem tick_keyFused (s : State) : (tick s).keyFused = s.keyFused := (rfl)
@[simp] theorem tick_reports (s : State) : (tick s).reports = s.reports := (rfl)
@[simp] theorem tick_anvil (s : State) : (tick s).anvil = s.anvil := (rfl)
@[simp] theorem tick_nextFid (s : State) : (tick s).nextFid = s.nextFid := (rfl)
@[simp] theorem tick_corrected (s : State) : (tick s).corrected = s.corrected := (rfl)
@[simp] theorem tick_mem (s : State) : (tick s).mem = s.mem := (rfl)
@[simp] theorem tick_trans (s : State) : (tick s).trans = s.trans := (rfl)
@[simp] theorem tick_replies (s : State) : (tick s).replies = s.replies := (rfl)
@[simp] theorem tick_power (s : State) : (tick s).power = s.power := (rfl)
@[simp] theorem tick_granted (s : State) : (tick s).granted = s.granted := (rfl)
@[simp] theorem tick_tongs (s : State) : (tick s).tongs = s.tongs := (rfl)
@[simp] theorem tick_tongsLast (s : State) : (tick s).tongsLast = s.tongsLast := (rfl)
@[simp] theorem tick_mramLines (s : State) : (tick s).mramLines = s.mramLines := (rfl)
@[simp] theorem tick_mramGap (s : State) : (tick s).mramGap = s.mramGap := (rfl)
@[simp] theorem tick_hang (s : State) : (tick s).hang = s.hang := (rfl)
@[simp] theorem tick_hangAsk (s : State) : (tick s).hangAsk = s.hangAsk := (rfl)
@[simp] theorem tick_fabHangAsk (s : State) : (tick s).fabHangAsk = s.fabHangAsk := (rfl)
@[simp] theorem tick_copies (s : State) : (tick s).copies = s.copies := (rfl)
@[simp] theorem tick_fstat (s : State) : (tick s).fstat = s.fstat := (rfl)
@[simp] theorem tick_snap (s : State) : (tick s).snap = s.snap := (rfl)
@[simp] theorem tick_engines (s : State) : (tick s).engines = s.engines := (rfl)
@[simp] theorem tick_stale (s : State) : (tick s).stale = s.stale := (rfl)
@[simp] theorem tick_lanes (s : State) : (tick s).lanes = s.lanes := (rfl)
@[simp] theorem tick_stores (s : State) : (tick s).stores = s.stores := (rfl)
@[simp] theorem tick_seqs (s : State) : (tick s).seqs = s.seqs := (rfl)
@[simp] theorem tick_fails (s : State) : (tick s).fails = s.fails := (rfl)
@[simp] theorem tick_welds (s : State) : (tick s).welds = s.welds := (rfl)
@[simp] theorem tick_patina (s : State) : (tick s).patina = s.patina := (rfl)
@[simp] theorem tick_wiping (s : State) : (tick s).wiping = s.wiping := (rfl)
@[simp] theorem tick_ports (s : State) : (tick s).ports = s.ports := (rfl)
@[simp] theorem tick_fabric (s : State) : (tick s).fabric = s.fabric := (rfl)
@[simp] theorem tick_pcie (s : State) : (tick s).pcie = s.pcie := (rfl)
@[simp] theorem tick_thermal (s : State) : (tick s).thermal = s.thermal := (rfl)
@[simp] theorem tick_bellows (s : State) : (tick s).bellows = s.bellows := (rfl)
@[simp] theorem tick_temper (s : State) : (tick s).temper = s.temper := (rfl)
@[simp] theorem tick_primer (s : State) : (tick s).primer = s.primer := (rfl)
@[simp] theorem tick_calDue (s : State) : (tick s).calDue = s.calDue := (rfl)
@[simp] theorem tick_journal (s : State) : (tick s).journal = s.journal := (rfl)
@[simp] theorem tick_images (s : State) : (tick s).images = s.images := (rfl)
@[simp] theorem tick_loaded (s : State) : (tick s).loaded = s.loaded := (rfl)
@[simp] theorem tick_taken (s : State) : (tick s).taken = s.taken := (rfl)
@[simp] theorem tick_tap (s : State) : (tick s).tap = s.tap := (rfl)
@[simp] theorem tick_tapFault (s : State) : (tick s).tapFault = s.tapFault := (rfl)
@[simp] theorem chan_tick (j : Nat) (s : State) : chan (tick s) j = chan s j := (rfl)
@[simp] theorem base_tick (j : Nat) (s : State) : base (tick s) j = base s j := (rfl)
@[simp] theorem dom_tick (j : Nat) (s : State) : dom (tick s) j = dom s j := (rfl)
@[simp] theorem eng_tick (j : Nat) (s : State) : eng (tick s) j = eng s j := (rfl)
@[simp] theorem lane_tick (j : Nat) (s : State) : lane (tick s) j = lane s j := (rfl)
@[simp] theorem store_tick (j : Nat) (s : State) : store (tick s) j = store s j := (rfl)
@[simp] theorem seqAt_tick (j : Nat) (s : State) : seqAt (tick s) j = seqAt s j := (rfl)
@[simp] theorem failPipe_tick (j : Nat) (s : State) : failPipe (tick s) j = failPipe s j := (rfl)
@[simp] theorem weld_tick (j : Nat) (s : State) : weld (tick s) j = weld s j := (rfl)
@[simp] theorem memByte_tick (j : Nat) (s : State) : memByte (tick s) j = memByte s j := (rfl)
@[simp] theorem anvEntry_tick (j : Nat) (s : State) : anvEntry (tick s) j = anvEntry s j := (rfl)
@[simp] theorem port_tick (j : Nat) (s : State) : port (tick s) j = port s j := (rfl)
@[simp] theorem hangSlot_tick (j : Nat) (s : State) : hangSlot (tick s) j = hangSlot s j := (rfl)
@[simp] theorem tgChan_tick (j : Nat) (s : State) : tgChan (tick s) j = tgChan s j := (rfl)
@[simp] theorem bucket_tick (j : Nat) (s : State) : bucket (tick s) j = bucket s j := (rfl)
@[simp] theorem domLost_tick (j : Nat) (s : State) : domLost (tick s) j = domLost s j := (rfl)
@[simp] theorem canvasSet_tick (p o : Nat) (s : State) : canvasSet (tick s) p o = canvasSet s p o := (rfl)
@[simp] theorem rdRole_tick (e : Bool) (p o : Nat) (s : State) : rdRole (tick s) e p o = rdRole s e p o := (rfl)
@[simp] theorem rdReg_tick (p o : Nat) (s : State) : rdReg (tick s) p o = rdReg s p o := (rfl)
@[simp] theorem roleKey_tick (e : Bool) (p o : Nat) (s : State) : roleKey (tick s) e p o = roleKey s e p o := (rfl)
@[simp] theorem inForce_tick (p o : Nat) (s : State) : inForce (tick s) p o = inForce s p o := (rfl)
@[simp] theorem hangArmed_tick (p : Nat) (s : State) : hangArmed (tick s) p = hangArmed s p := (rfl)
@[simp] theorem send_pending (o : Out) (s : State) : (send o s).pending = s.pending := (rfl)
@[simp] theorem send_now (o : Out) (s : State) : (send o s).now = s.now := (rfl)
@[simp] theorem send_free (o : Out) (s : State) : (send o s).free = s.free := (rfl)
@[simp] theorem send_regs (o : Out) (s : State) : (send o s).regs = s.regs := (rfl)
@[simp] theorem send_swapped (o : Out) (s : State) : (send o s).swapped = s.swapped := (rfl)
@[simp] theorem send_calSwapped (o : Out) (s : State) : (send o s).calSwapped = s.calSwapped := (rfl)
@[simp] theorem send_held (o : Out) (s : State) : (send o s).held = s.held := (rfl)
@[simp] theorem send_wms (o : Out) (s : State) : (send o s).wms = s.wms := (rfl)
@[simp] theorem send_irqOut (o : Out) (s : State) : (send o s).irqOut = s.irqOut := (rfl)
@[simp] theorem send_msixDue (o : Out) (s : State) : (send o s).msixDue = s.msixDue := (rfl)
@[simp] theorem send_pal (o : Out) (s : State) : (send o s).pal = s.pal := (rfl)
@[simp] theorem send_palHeld (o : Out) (s : State) : (send o s).palHeld = s.palHeld := (rfl)
@[simp] theorem send_palCmds (o : Out) (s : State) : (send o s).palCmds = s.palCmds := (rfl)
@[simp] theorem send_chans (o : Out) (s : State) : (send o s).chans = s.chans := (rfl)
@[simp] theorem send_bases (o : Out) (s : State) : (send o s).bases = s.bases := (rfl)
@[simp] theorem send_tables (o : Out) (s : State) : (send o s).tables = s.tables := (rfl)
@[simp] theorem send_doms (o : Out) (s : State) : (send o s).doms = s.doms := (rfl)
@[simp] theorem send_pins (o : Out) (s : State) : (send o s).pins = s.pins := (rfl)
@[simp] theorem send_lifecycle (o : Out) (s : State) : (send o s).lifecycle = s.lifecycle := (rfl)
@[simp] theorem send_keyFused (o : Out) (s : State) : (send o s).keyFused = s.keyFused := (rfl)
@[simp] theorem send_reports (o : Out) (s : State) : (send o s).reports = s.reports := (rfl)
@[simp] theorem send_anvil (o : Out) (s : State) : (send o s).anvil = s.anvil := (rfl)
@[simp] theorem send_nextFid (o : Out) (s : State) : (send o s).nextFid = s.nextFid := (rfl)
@[simp] theorem send_corrected (o : Out) (s : State) : (send o s).corrected = s.corrected := (rfl)
@[simp] theorem send_mem (o : Out) (s : State) : (send o s).mem = s.mem := (rfl)
@[simp] theorem send_trans (o : Out) (s : State) : (send o s).trans = s.trans := (rfl)
@[simp] theorem send_replies (o : Out) (s : State) : (send o s).replies = s.replies := (rfl)
@[simp] theorem send_power (o : Out) (s : State) : (send o s).power = s.power := (rfl)
@[simp] theorem send_granted (o : Out) (s : State) : (send o s).granted = s.granted := (rfl)
@[simp] theorem send_tongs (o : Out) (s : State) : (send o s).tongs = s.tongs := (rfl)
@[simp] theorem send_tongsLast (o : Out) (s : State) : (send o s).tongsLast = s.tongsLast := (rfl)
@[simp] theorem send_mramLines (o : Out) (s : State) : (send o s).mramLines = s.mramLines := (rfl)
@[simp] theorem send_mramGap (o : Out) (s : State) : (send o s).mramGap = s.mramGap := (rfl)
@[simp] theorem send_hang (o : Out) (s : State) : (send o s).hang = s.hang := (rfl)
@[simp] theorem send_hangAsk (o : Out) (s : State) : (send o s).hangAsk = s.hangAsk := (rfl)
@[simp] theorem send_fabHangAsk (o : Out) (s : State) : (send o s).fabHangAsk = s.fabHangAsk := (rfl)
@[simp] theorem send_copies (o : Out) (s : State) : (send o s).copies = s.copies := (rfl)
@[simp] theorem send_fstat (o : Out) (s : State) : (send o s).fstat = s.fstat := (rfl)
@[simp] theorem send_snap (o : Out) (s : State) : (send o s).snap = s.snap := (rfl)
@[simp] theorem send_engines (o : Out) (s : State) : (send o s).engines = s.engines := (rfl)
@[simp] theorem send_stale (o : Out) (s : State) : (send o s).stale = s.stale := (rfl)
@[simp] theorem send_lanes (o : Out) (s : State) : (send o s).lanes = s.lanes := (rfl)
@[simp] theorem send_stores (o : Out) (s : State) : (send o s).stores = s.stores := (rfl)
@[simp] theorem send_seqs (o : Out) (s : State) : (send o s).seqs = s.seqs := (rfl)
@[simp] theorem send_fails (o : Out) (s : State) : (send o s).fails = s.fails := (rfl)
@[simp] theorem send_welds (o : Out) (s : State) : (send o s).welds = s.welds := (rfl)
@[simp] theorem send_patina (o : Out) (s : State) : (send o s).patina = s.patina := (rfl)
@[simp] theorem send_wiping (o : Out) (s : State) : (send o s).wiping = s.wiping := (rfl)
@[simp] theorem send_ports (o : Out) (s : State) : (send o s).ports = s.ports := (rfl)
@[simp] theorem send_fabric (o : Out) (s : State) : (send o s).fabric = s.fabric := (rfl)
@[simp] theorem send_pcie (o : Out) (s : State) : (send o s).pcie = s.pcie := (rfl)
@[simp] theorem send_thermal (o : Out) (s : State) : (send o s).thermal = s.thermal := (rfl)
@[simp] theorem send_bellows (o : Out) (s : State) : (send o s).bellows = s.bellows := (rfl)
@[simp] theorem send_temper (o : Out) (s : State) : (send o s).temper = s.temper := (rfl)
@[simp] theorem send_primer (o : Out) (s : State) : (send o s).primer = s.primer := (rfl)
@[simp] theorem send_calDue (o : Out) (s : State) : (send o s).calDue = s.calDue := (rfl)
@[simp] theorem send_journal (o : Out) (s : State) : (send o s).journal = s.journal := (rfl)
@[simp] theorem send_images (o : Out) (s : State) : (send o s).images = s.images := (rfl)
@[simp] theorem send_loaded (o : Out) (s : State) : (send o s).loaded = s.loaded := (rfl)
@[simp] theorem send_taken (o : Out) (s : State) : (send o s).taken = s.taken := (rfl)
@[simp] theorem send_tap (o : Out) (s : State) : (send o s).tap = s.tap := (rfl)
@[simp] theorem send_tapFault (o : Out) (s : State) : (send o s).tapFault = s.tapFault := (rfl)
@[simp] theorem chan_send (o : Out) (j : Nat) (s : State) : chan (send o s) j = chan s j := (rfl)
@[simp] theorem base_send (o : Out) (j : Nat) (s : State) : base (send o s) j = base s j := (rfl)
@[simp] theorem dom_send (o : Out) (j : Nat) (s : State) : dom (send o s) j = dom s j := (rfl)
@[simp] theorem eng_send (o : Out) (j : Nat) (s : State) : eng (send o s) j = eng s j := (rfl)
@[simp] theorem lane_send (o : Out) (j : Nat) (s : State) : lane (send o s) j = lane s j := (rfl)
@[simp] theorem store_send (o : Out) (j : Nat) (s : State) : store (send o s) j = store s j := (rfl)
@[simp] theorem seqAt_send (o : Out) (j : Nat) (s : State) : seqAt (send o s) j = seqAt s j := (rfl)
@[simp] theorem failPipe_send (o : Out) (j : Nat) (s : State) : failPipe (send o s) j = failPipe s j := (rfl)
@[simp] theorem weld_send (o : Out) (j : Nat) (s : State) : weld (send o s) j = weld s j := (rfl)
@[simp] theorem memByte_send (o : Out) (j : Nat) (s : State) : memByte (send o s) j = memByte s j := (rfl)
@[simp] theorem anvEntry_send (o : Out) (j : Nat) (s : State) : anvEntry (send o s) j = anvEntry s j := (rfl)
@[simp] theorem port_send (o : Out) (j : Nat) (s : State) : port (send o s) j = port s j := (rfl)
@[simp] theorem hangSlot_send (o : Out) (j : Nat) (s : State) : hangSlot (send o s) j = hangSlot s j := (rfl)
@[simp] theorem tgChan_send (o : Out) (j : Nat) (s : State) : tgChan (send o s) j = tgChan s j := (rfl)
@[simp] theorem bucket_send (o : Out) (j : Nat) (s : State) : bucket (send o s) j = bucket s j := (rfl)
@[simp] theorem domLost_send (o : Out) (j : Nat) (s : State) : domLost (send o s) j = domLost s j := (rfl)
@[simp] theorem canvasSet_send (o : Out) (p o' : Nat) (s : State) : canvasSet (send o s) p o' = canvasSet s p o' := (rfl)
@[simp] theorem rdRole_send (o : Out) (e : Bool) (p o' : Nat) (s : State) : rdRole (send o s) e p o' = rdRole s e p o' := (rfl)
@[simp] theorem rdReg_send (o : Out) (p o' : Nat) (s : State) : rdReg (send o s) p o' = rdReg s p o' := (rfl)
@[simp] theorem roleKey_send (o : Out) (e : Bool) (p o' : Nat) (s : State) : roleKey (send o s) e p o' = roleKey s e p o' := (rfl)
@[simp] theorem inForce_send (o : Out) (p o' : Nat) (s : State) : inForce (send o s) p o' = inForce s p o' := (rfl)
@[simp] theorem hangArmed_send (o : Out) (p : Nat) (s : State) : hangArmed (send o s) p = hangArmed s p := (rfl)
@[simp] theorem reach_pending (n : Nat) (s : State) : (reach n s).pending = s.pending := (rfl)
@[simp] theorem reach_free (n : Nat) (s : State) : (reach n s).free = s.free := (rfl)
@[simp] theorem reach_outbox (n : Nat) (s : State) : (reach n s).outbox = s.outbox := (rfl)
@[simp] theorem reach_regs (n : Nat) (s : State) : (reach n s).regs = s.regs := (rfl)
@[simp] theorem reach_swapped (n : Nat) (s : State) : (reach n s).swapped = s.swapped := (rfl)
@[simp] theorem reach_calSwapped (n : Nat) (s : State) : (reach n s).calSwapped = s.calSwapped := (rfl)
@[simp] theorem reach_held (n : Nat) (s : State) : (reach n s).held = s.held := (rfl)
@[simp] theorem reach_wms (n : Nat) (s : State) : (reach n s).wms = s.wms := (rfl)
@[simp] theorem reach_irqOut (n : Nat) (s : State) : (reach n s).irqOut = s.irqOut := (rfl)
@[simp] theorem reach_msixDue (n : Nat) (s : State) : (reach n s).msixDue = s.msixDue := (rfl)
@[simp] theorem reach_pal (n : Nat) (s : State) : (reach n s).pal = s.pal := (rfl)
@[simp] theorem reach_palHeld (n : Nat) (s : State) : (reach n s).palHeld = s.palHeld := (rfl)
@[simp] theorem reach_palCmds (n : Nat) (s : State) : (reach n s).palCmds = s.palCmds := (rfl)
@[simp] theorem reach_chans (n : Nat) (s : State) : (reach n s).chans = s.chans := (rfl)
@[simp] theorem reach_bases (n : Nat) (s : State) : (reach n s).bases = s.bases := (rfl)
@[simp] theorem reach_tables (n : Nat) (s : State) : (reach n s).tables = s.tables := (rfl)
@[simp] theorem reach_doms (n : Nat) (s : State) : (reach n s).doms = s.doms := (rfl)
@[simp] theorem reach_pins (n : Nat) (s : State) : (reach n s).pins = s.pins := (rfl)
@[simp] theorem reach_lifecycle (n : Nat) (s : State) : (reach n s).lifecycle = s.lifecycle := (rfl)
@[simp] theorem reach_keyFused (n : Nat) (s : State) : (reach n s).keyFused = s.keyFused := (rfl)
@[simp] theorem reach_reports (n : Nat) (s : State) : (reach n s).reports = s.reports := (rfl)
@[simp] theorem reach_anvil (n : Nat) (s : State) : (reach n s).anvil = s.anvil := (rfl)
@[simp] theorem reach_nextFid (n : Nat) (s : State) : (reach n s).nextFid = s.nextFid := (rfl)
@[simp] theorem reach_corrected (n : Nat) (s : State) : (reach n s).corrected = s.corrected := (rfl)
@[simp] theorem reach_mem (n : Nat) (s : State) : (reach n s).mem = s.mem := (rfl)
@[simp] theorem reach_trans (n : Nat) (s : State) : (reach n s).trans = s.trans := (rfl)
@[simp] theorem reach_replies (n : Nat) (s : State) : (reach n s).replies = s.replies := (rfl)
@[simp] theorem reach_power (n : Nat) (s : State) : (reach n s).power = s.power := (rfl)
@[simp] theorem reach_granted (n : Nat) (s : State) : (reach n s).granted = s.granted := (rfl)
@[simp] theorem reach_tongs (n : Nat) (s : State) : (reach n s).tongs = s.tongs := (rfl)
@[simp] theorem reach_tongsLast (n : Nat) (s : State) : (reach n s).tongsLast = s.tongsLast := (rfl)
@[simp] theorem reach_mramLines (n : Nat) (s : State) : (reach n s).mramLines = s.mramLines := (rfl)
@[simp] theorem reach_mramGap (n : Nat) (s : State) : (reach n s).mramGap = s.mramGap := (rfl)
@[simp] theorem reach_hang (n : Nat) (s : State) : (reach n s).hang = s.hang := (rfl)
@[simp] theorem reach_hangAsk (n : Nat) (s : State) : (reach n s).hangAsk = s.hangAsk := (rfl)
@[simp] theorem reach_fabHangAsk (n : Nat) (s : State) : (reach n s).fabHangAsk = s.fabHangAsk := (rfl)
@[simp] theorem reach_copies (n : Nat) (s : State) : (reach n s).copies = s.copies := (rfl)
@[simp] theorem reach_fstat (n : Nat) (s : State) : (reach n s).fstat = s.fstat := (rfl)
@[simp] theorem reach_snap (n : Nat) (s : State) : (reach n s).snap = s.snap := (rfl)
@[simp] theorem reach_engines (n : Nat) (s : State) : (reach n s).engines = s.engines := (rfl)
@[simp] theorem reach_stale (n : Nat) (s : State) : (reach n s).stale = s.stale := (rfl)
@[simp] theorem reach_lanes (n : Nat) (s : State) : (reach n s).lanes = s.lanes := (rfl)
@[simp] theorem reach_stores (n : Nat) (s : State) : (reach n s).stores = s.stores := (rfl)
@[simp] theorem reach_seqs (n : Nat) (s : State) : (reach n s).seqs = s.seqs := (rfl)
@[simp] theorem reach_fails (n : Nat) (s : State) : (reach n s).fails = s.fails := (rfl)
@[simp] theorem reach_welds (n : Nat) (s : State) : (reach n s).welds = s.welds := (rfl)
@[simp] theorem reach_patina (n : Nat) (s : State) : (reach n s).patina = s.patina := (rfl)
@[simp] theorem reach_wiping (n : Nat) (s : State) : (reach n s).wiping = s.wiping := (rfl)
@[simp] theorem reach_ports (n : Nat) (s : State) : (reach n s).ports = s.ports := (rfl)
@[simp] theorem reach_fabric (n : Nat) (s : State) : (reach n s).fabric = s.fabric := (rfl)
@[simp] theorem reach_pcie (n : Nat) (s : State) : (reach n s).pcie = s.pcie := (rfl)
@[simp] theorem reach_thermal (n : Nat) (s : State) : (reach n s).thermal = s.thermal := (rfl)
@[simp] theorem reach_bellows (n : Nat) (s : State) : (reach n s).bellows = s.bellows := (rfl)
@[simp] theorem reach_temper (n : Nat) (s : State) : (reach n s).temper = s.temper := (rfl)
@[simp] theorem reach_primer (n : Nat) (s : State) : (reach n s).primer = s.primer := (rfl)
@[simp] theorem reach_calDue (n : Nat) (s : State) : (reach n s).calDue = s.calDue := (rfl)
@[simp] theorem reach_journal (n : Nat) (s : State) : (reach n s).journal = s.journal := (rfl)
@[simp] theorem reach_images (n : Nat) (s : State) : (reach n s).images = s.images := (rfl)
@[simp] theorem reach_loaded (n : Nat) (s : State) : (reach n s).loaded = s.loaded := (rfl)
@[simp] theorem reach_taken (n : Nat) (s : State) : (reach n s).taken = s.taken := (rfl)
@[simp] theorem reach_tap (n : Nat) (s : State) : (reach n s).tap = s.tap := (rfl)
@[simp] theorem reach_tapFault (n : Nat) (s : State) : (reach n s).tapFault = s.tapFault := (rfl)
@[simp] theorem chan_reach (n : Nat) (j : Nat) (s : State) : chan (reach n s) j = chan s j := (rfl)
@[simp] theorem base_reach (n : Nat) (j : Nat) (s : State) : base (reach n s) j = base s j := (rfl)
@[simp] theorem dom_reach (n : Nat) (j : Nat) (s : State) : dom (reach n s) j = dom s j := (rfl)
@[simp] theorem eng_reach (n : Nat) (j : Nat) (s : State) : eng (reach n s) j = eng s j := (rfl)
@[simp] theorem lane_reach (n : Nat) (j : Nat) (s : State) : lane (reach n s) j = lane s j := (rfl)
@[simp] theorem store_reach (n : Nat) (j : Nat) (s : State) : store (reach n s) j = store s j := (rfl)
@[simp] theorem seqAt_reach (n : Nat) (j : Nat) (s : State) : seqAt (reach n s) j = seqAt s j := (rfl)
@[simp] theorem failPipe_reach (n : Nat) (j : Nat) (s : State) : failPipe (reach n s) j = failPipe s j := (rfl)
@[simp] theorem weld_reach (n : Nat) (j : Nat) (s : State) : weld (reach n s) j = weld s j := (rfl)
@[simp] theorem memByte_reach (n : Nat) (j : Nat) (s : State) : memByte (reach n s) j = memByte s j := (rfl)
@[simp] theorem anvEntry_reach (n : Nat) (j : Nat) (s : State) : anvEntry (reach n s) j = anvEntry s j := (rfl)
@[simp] theorem port_reach (n : Nat) (j : Nat) (s : State) : port (reach n s) j = port s j := (rfl)
@[simp] theorem hangSlot_reach (n : Nat) (j : Nat) (s : State) : hangSlot (reach n s) j = hangSlot s j := (rfl)
@[simp] theorem tgChan_reach (n : Nat) (j : Nat) (s : State) : tgChan (reach n s) j = tgChan s j := (rfl)
@[simp] theorem bucket_reach (n : Nat) (j : Nat) (s : State) : bucket (reach n s) j = bucket s j := (rfl)
@[simp] theorem domLost_reach (n : Nat) (j : Nat) (s : State) : domLost (reach n s) j = domLost s j := (rfl)
@[simp] theorem canvasSet_reach (n : Nat) (p o : Nat) (s : State) : canvasSet (reach n s) p o = canvasSet s p o := (rfl)
@[simp] theorem rdRole_reach (n : Nat) (e : Bool) (p o : Nat) (s : State) : rdRole (reach n s) e p o = rdRole s e p o := (rfl)
@[simp] theorem rdReg_reach (n : Nat) (p o : Nat) (s : State) : rdReg (reach n s) p o = rdReg s p o := (rfl)
@[simp] theorem roleKey_reach (n : Nat) (e : Bool) (p o : Nat) (s : State) : roleKey (reach n s) e p o = roleKey s e p o := (rfl)
@[simp] theorem inForce_reach (n : Nat) (p o : Nat) (s : State) : inForce (reach n s) p o = inForce s p o := (rfl)
@[simp] theorem hangArmed_reach (n : Nat) (p : Nat) (s : State) : hangArmed (reach n s) p = hangArmed s p := (rfl)
@[simp] theorem wrRole_pending (e : Bool) (p o : Nat) (v : Word) (s : State) : (wrRole e p o v s).pending = s.pending := (rfl)
@[simp] theorem wrRole_now (e : Bool) (p o : Nat) (v : Word) (s : State) : (wrRole e p o v s).now = s.now := (rfl)
@[simp] theorem wrRole_free (e : Bool) (p o : Nat) (v : Word) (s : State) : (wrRole e p o v s).free = s.free := (rfl)
@[simp] theorem wrRole_outbox (e : Bool) (p o : Nat) (v : Word) (s : State) : (wrRole e p o v s).outbox = s.outbox := (rfl)
@[simp] theorem wrRole_swapped (e : Bool) (p o : Nat) (v : Word) (s : State) : (wrRole e p o v s).swapped = s.swapped := (rfl)
@[simp] theorem wrRole_calSwapped (e : Bool) (p o : Nat) (v : Word) (s : State) : (wrRole e p o v s).calSwapped = s.calSwapped := (rfl)
@[simp] theorem wrRole_held (e : Bool) (p o : Nat) (v : Word) (s : State) : (wrRole e p o v s).held = s.held := (rfl)
@[simp] theorem wrRole_wms (e : Bool) (p o : Nat) (v : Word) (s : State) : (wrRole e p o v s).wms = s.wms := (rfl)
@[simp] theorem wrRole_irqOut (e : Bool) (p o : Nat) (v : Word) (s : State) : (wrRole e p o v s).irqOut = s.irqOut := (rfl)
@[simp] theorem wrRole_msixDue (e : Bool) (p o : Nat) (v : Word) (s : State) : (wrRole e p o v s).msixDue = s.msixDue := (rfl)
@[simp] theorem wrRole_pal (e : Bool) (p o : Nat) (v : Word) (s : State) : (wrRole e p o v s).pal = s.pal := (rfl)
@[simp] theorem wrRole_palHeld (e : Bool) (p o : Nat) (v : Word) (s : State) : (wrRole e p o v s).palHeld = s.palHeld := (rfl)
@[simp] theorem wrRole_palCmds (e : Bool) (p o : Nat) (v : Word) (s : State) : (wrRole e p o v s).palCmds = s.palCmds := (rfl)
@[simp] theorem wrRole_chans (e : Bool) (p o : Nat) (v : Word) (s : State) : (wrRole e p o v s).chans = s.chans := (rfl)
@[simp] theorem wrRole_bases (e : Bool) (p o : Nat) (v : Word) (s : State) : (wrRole e p o v s).bases = s.bases := (rfl)
@[simp] theorem wrRole_tables (e : Bool) (p o : Nat) (v : Word) (s : State) : (wrRole e p o v s).tables = s.tables := (rfl)
@[simp] theorem wrRole_doms (e : Bool) (p o : Nat) (v : Word) (s : State) : (wrRole e p o v s).doms = s.doms := (rfl)
@[simp] theorem wrRole_pins (e : Bool) (p o : Nat) (v : Word) (s : State) : (wrRole e p o v s).pins = s.pins := (rfl)
@[simp] theorem wrRole_lifecycle (e : Bool) (p o : Nat) (v : Word) (s : State) : (wrRole e p o v s).lifecycle = s.lifecycle := (rfl)
@[simp] theorem wrRole_keyFused (e : Bool) (p o : Nat) (v : Word) (s : State) : (wrRole e p o v s).keyFused = s.keyFused := (rfl)
@[simp] theorem wrRole_reports (e : Bool) (p o : Nat) (v : Word) (s : State) : (wrRole e p o v s).reports = s.reports := (rfl)
@[simp] theorem wrRole_anvil (e : Bool) (p o : Nat) (v : Word) (s : State) : (wrRole e p o v s).anvil = s.anvil := (rfl)
@[simp] theorem wrRole_nextFid (e : Bool) (p o : Nat) (v : Word) (s : State) : (wrRole e p o v s).nextFid = s.nextFid := (rfl)
@[simp] theorem wrRole_corrected (e : Bool) (p o : Nat) (v : Word) (s : State) : (wrRole e p o v s).corrected = s.corrected := (rfl)
@[simp] theorem wrRole_mem (e : Bool) (p o : Nat) (v : Word) (s : State) : (wrRole e p o v s).mem = s.mem := (rfl)
@[simp] theorem wrRole_trans (e : Bool) (p o : Nat) (v : Word) (s : State) : (wrRole e p o v s).trans = s.trans := (rfl)
@[simp] theorem wrRole_replies (e : Bool) (p o : Nat) (v : Word) (s : State) : (wrRole e p o v s).replies = s.replies := (rfl)
@[simp] theorem wrRole_power (e : Bool) (p o : Nat) (v : Word) (s : State) : (wrRole e p o v s).power = s.power := (rfl)
@[simp] theorem wrRole_granted (e : Bool) (p o : Nat) (v : Word) (s : State) : (wrRole e p o v s).granted = s.granted := (rfl)
@[simp] theorem wrRole_tongs (e : Bool) (p o : Nat) (v : Word) (s : State) : (wrRole e p o v s).tongs = s.tongs := (rfl)
@[simp] theorem wrRole_tongsLast (e : Bool) (p o : Nat) (v : Word) (s : State) : (wrRole e p o v s).tongsLast = s.tongsLast := (rfl)
@[simp] theorem wrRole_mramLines (e : Bool) (p o : Nat) (v : Word) (s : State) : (wrRole e p o v s).mramLines = s.mramLines := (rfl)
@[simp] theorem wrRole_mramGap (e : Bool) (p o : Nat) (v : Word) (s : State) : (wrRole e p o v s).mramGap = s.mramGap := (rfl)
@[simp] theorem wrRole_hang (e : Bool) (p o : Nat) (v : Word) (s : State) : (wrRole e p o v s).hang = s.hang := (rfl)
@[simp] theorem wrRole_hangAsk (e : Bool) (p o : Nat) (v : Word) (s : State) : (wrRole e p o v s).hangAsk = s.hangAsk := (rfl)
@[simp] theorem wrRole_fabHangAsk (e : Bool) (p o : Nat) (v : Word) (s : State) : (wrRole e p o v s).fabHangAsk = s.fabHangAsk := (rfl)
@[simp] theorem wrRole_copies (e : Bool) (p o : Nat) (v : Word) (s : State) : (wrRole e p o v s).copies = s.copies := (rfl)
@[simp] theorem wrRole_fstat (e : Bool) (p o : Nat) (v : Word) (s : State) : (wrRole e p o v s).fstat = s.fstat := (rfl)
@[simp] theorem wrRole_snap (e : Bool) (p o : Nat) (v : Word) (s : State) : (wrRole e p o v s).snap = s.snap := (rfl)
@[simp] theorem wrRole_engines (e : Bool) (p o : Nat) (v : Word) (s : State) : (wrRole e p o v s).engines = s.engines := (rfl)
@[simp] theorem wrRole_stale (e : Bool) (p o : Nat) (v : Word) (s : State) : (wrRole e p o v s).stale = s.stale := (rfl)
@[simp] theorem wrRole_lanes (e : Bool) (p o : Nat) (v : Word) (s : State) : (wrRole e p o v s).lanes = s.lanes := (rfl)
@[simp] theorem wrRole_stores (e : Bool) (p o : Nat) (v : Word) (s : State) : (wrRole e p o v s).stores = s.stores := (rfl)
@[simp] theorem wrRole_seqs (e : Bool) (p o : Nat) (v : Word) (s : State) : (wrRole e p o v s).seqs = s.seqs := (rfl)
@[simp] theorem wrRole_fails (e : Bool) (p o : Nat) (v : Word) (s : State) : (wrRole e p o v s).fails = s.fails := (rfl)
@[simp] theorem wrRole_welds (e : Bool) (p o : Nat) (v : Word) (s : State) : (wrRole e p o v s).welds = s.welds := (rfl)
@[simp] theorem wrRole_patina (e : Bool) (p o : Nat) (v : Word) (s : State) : (wrRole e p o v s).patina = s.patina := (rfl)
@[simp] theorem wrRole_wiping (e : Bool) (p o : Nat) (v : Word) (s : State) : (wrRole e p o v s).wiping = s.wiping := (rfl)
@[simp] theorem wrRole_ports (e : Bool) (p o : Nat) (v : Word) (s : State) : (wrRole e p o v s).ports = s.ports := (rfl)
@[simp] theorem wrRole_fabric (e : Bool) (p o : Nat) (v : Word) (s : State) : (wrRole e p o v s).fabric = s.fabric := (rfl)
@[simp] theorem wrRole_pcie (e : Bool) (p o : Nat) (v : Word) (s : State) : (wrRole e p o v s).pcie = s.pcie := (rfl)
@[simp] theorem wrRole_thermal (e : Bool) (p o : Nat) (v : Word) (s : State) : (wrRole e p o v s).thermal = s.thermal := (rfl)
@[simp] theorem wrRole_bellows (e : Bool) (p o : Nat) (v : Word) (s : State) : (wrRole e p o v s).bellows = s.bellows := (rfl)
@[simp] theorem wrRole_temper (e : Bool) (p o : Nat) (v : Word) (s : State) : (wrRole e p o v s).temper = s.temper := (rfl)
@[simp] theorem wrRole_primer (e : Bool) (p o : Nat) (v : Word) (s : State) : (wrRole e p o v s).primer = s.primer := (rfl)
@[simp] theorem wrRole_calDue (e : Bool) (p o : Nat) (v : Word) (s : State) : (wrRole e p o v s).calDue = s.calDue := (rfl)
@[simp] theorem wrRole_journal (e : Bool) (p o : Nat) (v : Word) (s : State) : (wrRole e p o v s).journal = s.journal := (rfl)
@[simp] theorem wrRole_images (e : Bool) (p o : Nat) (v : Word) (s : State) : (wrRole e p o v s).images = s.images := (rfl)
@[simp] theorem wrRole_loaded (e : Bool) (p o : Nat) (v : Word) (s : State) : (wrRole e p o v s).loaded = s.loaded := (rfl)
@[simp] theorem wrRole_taken (e : Bool) (p o : Nat) (v : Word) (s : State) : (wrRole e p o v s).taken = s.taken := (rfl)
@[simp] theorem wrRole_tap (e : Bool) (p o : Nat) (v : Word) (s : State) : (wrRole e p o v s).tap = s.tap := (rfl)
@[simp] theorem wrRole_tapFault (e : Bool) (p o : Nat) (v : Word) (s : State) : (wrRole e p o v s).tapFault = s.tapFault := (rfl)
@[simp] theorem chan_wrRole (e : Bool) (p o : Nat) (v : Word) (j : Nat) (s : State) : chan (wrRole e p o v s) j = chan s j := (rfl)
@[simp] theorem base_wrRole (e : Bool) (p o : Nat) (v : Word) (j : Nat) (s : State) : base (wrRole e p o v s) j = base s j := (rfl)
@[simp] theorem dom_wrRole (e : Bool) (p o : Nat) (v : Word) (j : Nat) (s : State) : dom (wrRole e p o v s) j = dom s j := (rfl)
@[simp] theorem eng_wrRole (e : Bool) (p o : Nat) (v : Word) (j : Nat) (s : State) : eng (wrRole e p o v s) j = eng s j := (rfl)
@[simp] theorem lane_wrRole (e : Bool) (p o : Nat) (v : Word) (j : Nat) (s : State) : lane (wrRole e p o v s) j = lane s j := (rfl)
@[simp] theorem store_wrRole (e : Bool) (p o : Nat) (v : Word) (j : Nat) (s : State) : store (wrRole e p o v s) j = store s j := (rfl)
@[simp] theorem seqAt_wrRole (e : Bool) (p o : Nat) (v : Word) (j : Nat) (s : State) : seqAt (wrRole e p o v s) j = seqAt s j := (rfl)
@[simp] theorem failPipe_wrRole (e : Bool) (p o : Nat) (v : Word) (j : Nat) (s : State) : failPipe (wrRole e p o v s) j = failPipe s j := (rfl)
@[simp] theorem weld_wrRole (e : Bool) (p o : Nat) (v : Word) (j : Nat) (s : State) : weld (wrRole e p o v s) j = weld s j := (rfl)
@[simp] theorem memByte_wrRole (e : Bool) (p o : Nat) (v : Word) (j : Nat) (s : State) : memByte (wrRole e p o v s) j = memByte s j := (rfl)
@[simp] theorem anvEntry_wrRole (e : Bool) (p o : Nat) (v : Word) (j : Nat) (s : State) : anvEntry (wrRole e p o v s) j = anvEntry s j := (rfl)
@[simp] theorem port_wrRole (e : Bool) (p o : Nat) (v : Word) (j : Nat) (s : State) : port (wrRole e p o v s) j = port s j := (rfl)
@[simp] theorem hangSlot_wrRole (e : Bool) (p o : Nat) (v : Word) (j : Nat) (s : State) : hangSlot (wrRole e p o v s) j = hangSlot s j := (rfl)
@[simp] theorem tgChan_wrRole (e : Bool) (p o : Nat) (v : Word) (j : Nat) (s : State) : tgChan (wrRole e p o v s) j = tgChan s j := (rfl)
@[simp] theorem bucket_wrRole (e : Bool) (p o : Nat) (v : Word) (j : Nat) (s : State) : bucket (wrRole e p o v s) j = bucket s j := (rfl)
@[simp] theorem domLost_wrRole (e : Bool) (p o : Nat) (v : Word) (j : Nat) (s : State) : domLost (wrRole e p o v s) j = domLost s j := (rfl)
@[simp] theorem canvasSet_wrRole (e : Bool) (p o : Nat) (v : Word) (p' o' : Nat) (s : State) : canvasSet (wrRole e p o v s) p' o' = canvasSet s p' o' := (rfl)
@[simp] theorem roleKey_wrRole (e : Bool) (p o : Nat) (v : Word) (e' : Bool) (p' o' : Nat) (s : State) : roleKey (wrRole e p o v s) e' p' o' = roleKey s e' p' o' := (rfl)
@[simp] theorem hangArmed_wrRole (e : Bool) (p o : Nat) (v : Word) (p' : Nat) (s : State) : hangArmed (wrRole e p o v s) p' = hangArmed s p' := (rfl)
@[simp] theorem wrReg_pending (p o : Nat) (v : Word) (s : State) : (wrReg p o v s).pending = s.pending := (rfl)
@[simp] theorem wrReg_now (p o : Nat) (v : Word) (s : State) : (wrReg p o v s).now = s.now := (rfl)
@[simp] theorem wrReg_free (p o : Nat) (v : Word) (s : State) : (wrReg p o v s).free = s.free := (rfl)
@[simp] theorem wrReg_outbox (p o : Nat) (v : Word) (s : State) : (wrReg p o v s).outbox = s.outbox := (rfl)
@[simp] theorem wrReg_swapped (p o : Nat) (v : Word) (s : State) : (wrReg p o v s).swapped = s.swapped := (rfl)
@[simp] theorem wrReg_calSwapped (p o : Nat) (v : Word) (s : State) : (wrReg p o v s).calSwapped = s.calSwapped := (rfl)
@[simp] theorem wrReg_held (p o : Nat) (v : Word) (s : State) : (wrReg p o v s).held = s.held := (rfl)
@[simp] theorem wrReg_wms (p o : Nat) (v : Word) (s : State) : (wrReg p o v s).wms = s.wms := (rfl)
@[simp] theorem wrReg_irqOut (p o : Nat) (v : Word) (s : State) : (wrReg p o v s).irqOut = s.irqOut := (rfl)
@[simp] theorem wrReg_msixDue (p o : Nat) (v : Word) (s : State) : (wrReg p o v s).msixDue = s.msixDue := (rfl)
@[simp] theorem wrReg_pal (p o : Nat) (v : Word) (s : State) : (wrReg p o v s).pal = s.pal := (rfl)
@[simp] theorem wrReg_palHeld (p o : Nat) (v : Word) (s : State) : (wrReg p o v s).palHeld = s.palHeld := (rfl)
@[simp] theorem wrReg_palCmds (p o : Nat) (v : Word) (s : State) : (wrReg p o v s).palCmds = s.palCmds := (rfl)
@[simp] theorem wrReg_chans (p o : Nat) (v : Word) (s : State) : (wrReg p o v s).chans = s.chans := (rfl)
@[simp] theorem wrReg_bases (p o : Nat) (v : Word) (s : State) : (wrReg p o v s).bases = s.bases := (rfl)
@[simp] theorem wrReg_tables (p o : Nat) (v : Word) (s : State) : (wrReg p o v s).tables = s.tables := (rfl)
@[simp] theorem wrReg_doms (p o : Nat) (v : Word) (s : State) : (wrReg p o v s).doms = s.doms := (rfl)
@[simp] theorem wrReg_pins (p o : Nat) (v : Word) (s : State) : (wrReg p o v s).pins = s.pins := (rfl)
@[simp] theorem wrReg_lifecycle (p o : Nat) (v : Word) (s : State) : (wrReg p o v s).lifecycle = s.lifecycle := (rfl)
@[simp] theorem wrReg_keyFused (p o : Nat) (v : Word) (s : State) : (wrReg p o v s).keyFused = s.keyFused := (rfl)
@[simp] theorem wrReg_reports (p o : Nat) (v : Word) (s : State) : (wrReg p o v s).reports = s.reports := (rfl)
@[simp] theorem wrReg_anvil (p o : Nat) (v : Word) (s : State) : (wrReg p o v s).anvil = s.anvil := (rfl)
@[simp] theorem wrReg_nextFid (p o : Nat) (v : Word) (s : State) : (wrReg p o v s).nextFid = s.nextFid := (rfl)
@[simp] theorem wrReg_corrected (p o : Nat) (v : Word) (s : State) : (wrReg p o v s).corrected = s.corrected := (rfl)
@[simp] theorem wrReg_mem (p o : Nat) (v : Word) (s : State) : (wrReg p o v s).mem = s.mem := (rfl)
@[simp] theorem wrReg_trans (p o : Nat) (v : Word) (s : State) : (wrReg p o v s).trans = s.trans := (rfl)
@[simp] theorem wrReg_replies (p o : Nat) (v : Word) (s : State) : (wrReg p o v s).replies = s.replies := (rfl)
@[simp] theorem wrReg_power (p o : Nat) (v : Word) (s : State) : (wrReg p o v s).power = s.power := (rfl)
@[simp] theorem wrReg_granted (p o : Nat) (v : Word) (s : State) : (wrReg p o v s).granted = s.granted := (rfl)
@[simp] theorem wrReg_tongs (p o : Nat) (v : Word) (s : State) : (wrReg p o v s).tongs = s.tongs := (rfl)
@[simp] theorem wrReg_tongsLast (p o : Nat) (v : Word) (s : State) : (wrReg p o v s).tongsLast = s.tongsLast := (rfl)
@[simp] theorem wrReg_mramLines (p o : Nat) (v : Word) (s : State) : (wrReg p o v s).mramLines = s.mramLines := (rfl)
@[simp] theorem wrReg_mramGap (p o : Nat) (v : Word) (s : State) : (wrReg p o v s).mramGap = s.mramGap := (rfl)
@[simp] theorem wrReg_hang (p o : Nat) (v : Word) (s : State) : (wrReg p o v s).hang = s.hang := (rfl)
@[simp] theorem wrReg_hangAsk (p o : Nat) (v : Word) (s : State) : (wrReg p o v s).hangAsk = s.hangAsk := (rfl)
@[simp] theorem wrReg_fabHangAsk (p o : Nat) (v : Word) (s : State) : (wrReg p o v s).fabHangAsk = s.fabHangAsk := (rfl)
@[simp] theorem wrReg_copies (p o : Nat) (v : Word) (s : State) : (wrReg p o v s).copies = s.copies := (rfl)
@[simp] theorem wrReg_fstat (p o : Nat) (v : Word) (s : State) : (wrReg p o v s).fstat = s.fstat := (rfl)
@[simp] theorem wrReg_snap (p o : Nat) (v : Word) (s : State) : (wrReg p o v s).snap = s.snap := (rfl)
@[simp] theorem wrReg_engines (p o : Nat) (v : Word) (s : State) : (wrReg p o v s).engines = s.engines := (rfl)
@[simp] theorem wrReg_stale (p o : Nat) (v : Word) (s : State) : (wrReg p o v s).stale = s.stale := (rfl)
@[simp] theorem wrReg_lanes (p o : Nat) (v : Word) (s : State) : (wrReg p o v s).lanes = s.lanes := (rfl)
@[simp] theorem wrReg_stores (p o : Nat) (v : Word) (s : State) : (wrReg p o v s).stores = s.stores := (rfl)
@[simp] theorem wrReg_seqs (p o : Nat) (v : Word) (s : State) : (wrReg p o v s).seqs = s.seqs := (rfl)
@[simp] theorem wrReg_fails (p o : Nat) (v : Word) (s : State) : (wrReg p o v s).fails = s.fails := (rfl)
@[simp] theorem wrReg_welds (p o : Nat) (v : Word) (s : State) : (wrReg p o v s).welds = s.welds := (rfl)
@[simp] theorem wrReg_patina (p o : Nat) (v : Word) (s : State) : (wrReg p o v s).patina = s.patina := (rfl)
@[simp] theorem wrReg_wiping (p o : Nat) (v : Word) (s : State) : (wrReg p o v s).wiping = s.wiping := (rfl)
@[simp] theorem wrReg_ports (p o : Nat) (v : Word) (s : State) : (wrReg p o v s).ports = s.ports := (rfl)
@[simp] theorem wrReg_fabric (p o : Nat) (v : Word) (s : State) : (wrReg p o v s).fabric = s.fabric := (rfl)
@[simp] theorem wrReg_pcie (p o : Nat) (v : Word) (s : State) : (wrReg p o v s).pcie = s.pcie := (rfl)
@[simp] theorem wrReg_thermal (p o : Nat) (v : Word) (s : State) : (wrReg p o v s).thermal = s.thermal := (rfl)
@[simp] theorem wrReg_bellows (p o : Nat) (v : Word) (s : State) : (wrReg p o v s).bellows = s.bellows := (rfl)
@[simp] theorem wrReg_temper (p o : Nat) (v : Word) (s : State) : (wrReg p o v s).temper = s.temper := (rfl)
@[simp] theorem wrReg_primer (p o : Nat) (v : Word) (s : State) : (wrReg p o v s).primer = s.primer := (rfl)
@[simp] theorem wrReg_calDue (p o : Nat) (v : Word) (s : State) : (wrReg p o v s).calDue = s.calDue := (rfl)
@[simp] theorem wrReg_journal (p o : Nat) (v : Word) (s : State) : (wrReg p o v s).journal = s.journal := (rfl)
@[simp] theorem wrReg_images (p o : Nat) (v : Word) (s : State) : (wrReg p o v s).images = s.images := (rfl)
@[simp] theorem wrReg_loaded (p o : Nat) (v : Word) (s : State) : (wrReg p o v s).loaded = s.loaded := (rfl)
@[simp] theorem wrReg_taken (p o : Nat) (v : Word) (s : State) : (wrReg p o v s).taken = s.taken := (rfl)
@[simp] theorem wrReg_tap (p o : Nat) (v : Word) (s : State) : (wrReg p o v s).tap = s.tap := (rfl)
@[simp] theorem wrReg_tapFault (p o : Nat) (v : Word) (s : State) : (wrReg p o v s).tapFault = s.tapFault := (rfl)
@[simp] theorem chan_wrReg (p o : Nat) (v : Word) (j : Nat) (s : State) : chan (wrReg p o v s) j = chan s j := (rfl)
@[simp] theorem base_wrReg (p o : Nat) (v : Word) (j : Nat) (s : State) : base (wrReg p o v s) j = base s j := (rfl)
@[simp] theorem dom_wrReg (p o : Nat) (v : Word) (j : Nat) (s : State) : dom (wrReg p o v s) j = dom s j := (rfl)
@[simp] theorem eng_wrReg (p o : Nat) (v : Word) (j : Nat) (s : State) : eng (wrReg p o v s) j = eng s j := (rfl)
@[simp] theorem lane_wrReg (p o : Nat) (v : Word) (j : Nat) (s : State) : lane (wrReg p o v s) j = lane s j := (rfl)
@[simp] theorem store_wrReg (p o : Nat) (v : Word) (j : Nat) (s : State) : store (wrReg p o v s) j = store s j := (rfl)
@[simp] theorem seqAt_wrReg (p o : Nat) (v : Word) (j : Nat) (s : State) : seqAt (wrReg p o v s) j = seqAt s j := (rfl)
@[simp] theorem failPipe_wrReg (p o : Nat) (v : Word) (j : Nat) (s : State) : failPipe (wrReg p o v s) j = failPipe s j := (rfl)
@[simp] theorem weld_wrReg (p o : Nat) (v : Word) (j : Nat) (s : State) : weld (wrReg p o v s) j = weld s j := (rfl)
@[simp] theorem memByte_wrReg (p o : Nat) (v : Word) (j : Nat) (s : State) : memByte (wrReg p o v s) j = memByte s j := (rfl)
@[simp] theorem anvEntry_wrReg (p o : Nat) (v : Word) (j : Nat) (s : State) : anvEntry (wrReg p o v s) j = anvEntry s j := (rfl)
@[simp] theorem port_wrReg (p o : Nat) (v : Word) (j : Nat) (s : State) : port (wrReg p o v s) j = port s j := (rfl)
@[simp] theorem hangSlot_wrReg (p o : Nat) (v : Word) (j : Nat) (s : State) : hangSlot (wrReg p o v s) j = hangSlot s j := (rfl)
@[simp] theorem tgChan_wrReg (p o : Nat) (v : Word) (j : Nat) (s : State) : tgChan (wrReg p o v s) j = tgChan s j := (rfl)
@[simp] theorem bucket_wrReg (p o : Nat) (v : Word) (j : Nat) (s : State) : bucket (wrReg p o v s) j = bucket s j := (rfl)
@[simp] theorem domLost_wrReg (p o : Nat) (v : Word) (j : Nat) (s : State) : domLost (wrReg p o v s) j = domLost s j := (rfl)
@[simp] theorem canvasSet_wrReg (p o : Nat) (v : Word) (p' o' : Nat) (s : State) : canvasSet (wrReg p o v s) p' o' = canvasSet s p' o' := (rfl)
@[simp] theorem roleKey_wrReg (p o : Nat) (v : Word) (e : Bool) (p' o' : Nat) (s : State) : roleKey (wrReg p o v s) e p' o' = roleKey s e p' o' := (rfl)
@[simp] theorem hangArmed_wrReg (p o : Nat) (v : Word) (p' : Nat) (s : State) : hangArmed (wrReg p o v s) p' = hangArmed s p' := (rfl)
@[simp] theorem modReg_pending (p o : Nat) (f : Word → Word) (s : State) : (modReg p o f s).pending = s.pending := (rfl)
@[simp] theorem modReg_now (p o : Nat) (f : Word → Word) (s : State) : (modReg p o f s).now = s.now := (rfl)
@[simp] theorem modReg_free (p o : Nat) (f : Word → Word) (s : State) : (modReg p o f s).free = s.free := (rfl)
@[simp] theorem modReg_outbox (p o : Nat) (f : Word → Word) (s : State) : (modReg p o f s).outbox = s.outbox := (rfl)
@[simp] theorem modReg_swapped (p o : Nat) (f : Word → Word) (s : State) : (modReg p o f s).swapped = s.swapped := (rfl)
@[simp] theorem modReg_calSwapped (p o : Nat) (f : Word → Word) (s : State) : (modReg p o f s).calSwapped = s.calSwapped := (rfl)
@[simp] theorem modReg_held (p o : Nat) (f : Word → Word) (s : State) : (modReg p o f s).held = s.held := (rfl)
@[simp] theorem modReg_wms (p o : Nat) (f : Word → Word) (s : State) : (modReg p o f s).wms = s.wms := (rfl)
@[simp] theorem modReg_irqOut (p o : Nat) (f : Word → Word) (s : State) : (modReg p o f s).irqOut = s.irqOut := (rfl)
@[simp] theorem modReg_msixDue (p o : Nat) (f : Word → Word) (s : State) : (modReg p o f s).msixDue = s.msixDue := (rfl)
@[simp] theorem modReg_pal (p o : Nat) (f : Word → Word) (s : State) : (modReg p o f s).pal = s.pal := (rfl)
@[simp] theorem modReg_palHeld (p o : Nat) (f : Word → Word) (s : State) : (modReg p o f s).palHeld = s.palHeld := (rfl)
@[simp] theorem modReg_palCmds (p o : Nat) (f : Word → Word) (s : State) : (modReg p o f s).palCmds = s.palCmds := (rfl)
@[simp] theorem modReg_chans (p o : Nat) (f : Word → Word) (s : State) : (modReg p o f s).chans = s.chans := (rfl)
@[simp] theorem modReg_bases (p o : Nat) (f : Word → Word) (s : State) : (modReg p o f s).bases = s.bases := (rfl)
@[simp] theorem modReg_tables (p o : Nat) (f : Word → Word) (s : State) : (modReg p o f s).tables = s.tables := (rfl)
@[simp] theorem modReg_doms (p o : Nat) (f : Word → Word) (s : State) : (modReg p o f s).doms = s.doms := (rfl)
@[simp] theorem modReg_pins (p o : Nat) (f : Word → Word) (s : State) : (modReg p o f s).pins = s.pins := (rfl)
@[simp] theorem modReg_lifecycle (p o : Nat) (f : Word → Word) (s : State) : (modReg p o f s).lifecycle = s.lifecycle := (rfl)
@[simp] theorem modReg_keyFused (p o : Nat) (f : Word → Word) (s : State) : (modReg p o f s).keyFused = s.keyFused := (rfl)
@[simp] theorem modReg_reports (p o : Nat) (f : Word → Word) (s : State) : (modReg p o f s).reports = s.reports := (rfl)
@[simp] theorem modReg_anvil (p o : Nat) (f : Word → Word) (s : State) : (modReg p o f s).anvil = s.anvil := (rfl)
@[simp] theorem modReg_nextFid (p o : Nat) (f : Word → Word) (s : State) : (modReg p o f s).nextFid = s.nextFid := (rfl)
@[simp] theorem modReg_corrected (p o : Nat) (f : Word → Word) (s : State) : (modReg p o f s).corrected = s.corrected := (rfl)
@[simp] theorem modReg_mem (p o : Nat) (f : Word → Word) (s : State) : (modReg p o f s).mem = s.mem := (rfl)
@[simp] theorem modReg_trans (p o : Nat) (f : Word → Word) (s : State) : (modReg p o f s).trans = s.trans := (rfl)
@[simp] theorem modReg_replies (p o : Nat) (f : Word → Word) (s : State) : (modReg p o f s).replies = s.replies := (rfl)
@[simp] theorem modReg_power (p o : Nat) (f : Word → Word) (s : State) : (modReg p o f s).power = s.power := (rfl)
@[simp] theorem modReg_granted (p o : Nat) (f : Word → Word) (s : State) : (modReg p o f s).granted = s.granted := (rfl)
@[simp] theorem modReg_tongs (p o : Nat) (f : Word → Word) (s : State) : (modReg p o f s).tongs = s.tongs := (rfl)
@[simp] theorem modReg_tongsLast (p o : Nat) (f : Word → Word) (s : State) : (modReg p o f s).tongsLast = s.tongsLast := (rfl)
@[simp] theorem modReg_mramLines (p o : Nat) (f : Word → Word) (s : State) : (modReg p o f s).mramLines = s.mramLines := (rfl)
@[simp] theorem modReg_mramGap (p o : Nat) (f : Word → Word) (s : State) : (modReg p o f s).mramGap = s.mramGap := (rfl)
@[simp] theorem modReg_hang (p o : Nat) (f : Word → Word) (s : State) : (modReg p o f s).hang = s.hang := (rfl)
@[simp] theorem modReg_hangAsk (p o : Nat) (f : Word → Word) (s : State) : (modReg p o f s).hangAsk = s.hangAsk := (rfl)
@[simp] theorem modReg_fabHangAsk (p o : Nat) (f : Word → Word) (s : State) : (modReg p o f s).fabHangAsk = s.fabHangAsk := (rfl)
@[simp] theorem modReg_copies (p o : Nat) (f : Word → Word) (s : State) : (modReg p o f s).copies = s.copies := (rfl)
@[simp] theorem modReg_fstat (p o : Nat) (f : Word → Word) (s : State) : (modReg p o f s).fstat = s.fstat := (rfl)
@[simp] theorem modReg_snap (p o : Nat) (f : Word → Word) (s : State) : (modReg p o f s).snap = s.snap := (rfl)
@[simp] theorem modReg_engines (p o : Nat) (f : Word → Word) (s : State) : (modReg p o f s).engines = s.engines := (rfl)
@[simp] theorem modReg_stale (p o : Nat) (f : Word → Word) (s : State) : (modReg p o f s).stale = s.stale := (rfl)
@[simp] theorem modReg_lanes (p o : Nat) (f : Word → Word) (s : State) : (modReg p o f s).lanes = s.lanes := (rfl)
@[simp] theorem modReg_stores (p o : Nat) (f : Word → Word) (s : State) : (modReg p o f s).stores = s.stores := (rfl)
@[simp] theorem modReg_seqs (p o : Nat) (f : Word → Word) (s : State) : (modReg p o f s).seqs = s.seqs := (rfl)
@[simp] theorem modReg_fails (p o : Nat) (f : Word → Word) (s : State) : (modReg p o f s).fails = s.fails := (rfl)
@[simp] theorem modReg_welds (p o : Nat) (f : Word → Word) (s : State) : (modReg p o f s).welds = s.welds := (rfl)
@[simp] theorem modReg_patina (p o : Nat) (f : Word → Word) (s : State) : (modReg p o f s).patina = s.patina := (rfl)
@[simp] theorem modReg_wiping (p o : Nat) (f : Word → Word) (s : State) : (modReg p o f s).wiping = s.wiping := (rfl)
@[simp] theorem modReg_ports (p o : Nat) (f : Word → Word) (s : State) : (modReg p o f s).ports = s.ports := (rfl)
@[simp] theorem modReg_fabric (p o : Nat) (f : Word → Word) (s : State) : (modReg p o f s).fabric = s.fabric := (rfl)
@[simp] theorem modReg_pcie (p o : Nat) (f : Word → Word) (s : State) : (modReg p o f s).pcie = s.pcie := (rfl)
@[simp] theorem modReg_thermal (p o : Nat) (f : Word → Word) (s : State) : (modReg p o f s).thermal = s.thermal := (rfl)
@[simp] theorem modReg_bellows (p o : Nat) (f : Word → Word) (s : State) : (modReg p o f s).bellows = s.bellows := (rfl)
@[simp] theorem modReg_temper (p o : Nat) (f : Word → Word) (s : State) : (modReg p o f s).temper = s.temper := (rfl)
@[simp] theorem modReg_primer (p o : Nat) (f : Word → Word) (s : State) : (modReg p o f s).primer = s.primer := (rfl)
@[simp] theorem modReg_calDue (p o : Nat) (f : Word → Word) (s : State) : (modReg p o f s).calDue = s.calDue := (rfl)
@[simp] theorem modReg_journal (p o : Nat) (f : Word → Word) (s : State) : (modReg p o f s).journal = s.journal := (rfl)
@[simp] theorem modReg_images (p o : Nat) (f : Word → Word) (s : State) : (modReg p o f s).images = s.images := (rfl)
@[simp] theorem modReg_loaded (p o : Nat) (f : Word → Word) (s : State) : (modReg p o f s).loaded = s.loaded := (rfl)
@[simp] theorem modReg_taken (p o : Nat) (f : Word → Word) (s : State) : (modReg p o f s).taken = s.taken := (rfl)
@[simp] theorem modReg_tap (p o : Nat) (f : Word → Word) (s : State) : (modReg p o f s).tap = s.tap := (rfl)
@[simp] theorem modReg_tapFault (p o : Nat) (f : Word → Word) (s : State) : (modReg p o f s).tapFault = s.tapFault := (rfl)
@[simp] theorem chan_modReg (p o : Nat) (f : Word → Word) (j : Nat) (s : State) : chan (modReg p o f s) j = chan s j := (rfl)
@[simp] theorem base_modReg (p o : Nat) (f : Word → Word) (j : Nat) (s : State) : base (modReg p o f s) j = base s j := (rfl)
@[simp] theorem dom_modReg (p o : Nat) (f : Word → Word) (j : Nat) (s : State) : dom (modReg p o f s) j = dom s j := (rfl)
@[simp] theorem eng_modReg (p o : Nat) (f : Word → Word) (j : Nat) (s : State) : eng (modReg p o f s) j = eng s j := (rfl)
@[simp] theorem lane_modReg (p o : Nat) (f : Word → Word) (j : Nat) (s : State) : lane (modReg p o f s) j = lane s j := (rfl)
@[simp] theorem store_modReg (p o : Nat) (f : Word → Word) (j : Nat) (s : State) : store (modReg p o f s) j = store s j := (rfl)
@[simp] theorem seqAt_modReg (p o : Nat) (f : Word → Word) (j : Nat) (s : State) : seqAt (modReg p o f s) j = seqAt s j := (rfl)
@[simp] theorem failPipe_modReg (p o : Nat) (f : Word → Word) (j : Nat) (s : State) : failPipe (modReg p o f s) j = failPipe s j := (rfl)
@[simp] theorem weld_modReg (p o : Nat) (f : Word → Word) (j : Nat) (s : State) : weld (modReg p o f s) j = weld s j := (rfl)
@[simp] theorem memByte_modReg (p o : Nat) (f : Word → Word) (j : Nat) (s : State) : memByte (modReg p o f s) j = memByte s j := (rfl)
@[simp] theorem anvEntry_modReg (p o : Nat) (f : Word → Word) (j : Nat) (s : State) : anvEntry (modReg p o f s) j = anvEntry s j := (rfl)
@[simp] theorem port_modReg (p o : Nat) (f : Word → Word) (j : Nat) (s : State) : port (modReg p o f s) j = port s j := (rfl)
@[simp] theorem hangSlot_modReg (p o : Nat) (f : Word → Word) (j : Nat) (s : State) : hangSlot (modReg p o f s) j = hangSlot s j := (rfl)
@[simp] theorem tgChan_modReg (p o : Nat) (f : Word → Word) (j : Nat) (s : State) : tgChan (modReg p o f s) j = tgChan s j := (rfl)
@[simp] theorem bucket_modReg (p o : Nat) (f : Word → Word) (j : Nat) (s : State) : bucket (modReg p o f s) j = bucket s j := (rfl)
@[simp] theorem domLost_modReg (p o : Nat) (f : Word → Word) (j : Nat) (s : State) : domLost (modReg p o f s) j = domLost s j := (rfl)
@[simp] theorem canvasSet_modReg (p o : Nat) (f : Word → Word) (p' o' : Nat) (s : State) : canvasSet (modReg p o f s) p' o' = canvasSet s p' o' := (rfl)
@[simp] theorem roleKey_modReg (p o : Nat) (f : Word → Word) (e : Bool) (p' o' : Nat) (s : State) : roleKey (modReg p o f s) e p' o' = roleKey s e p' o' := (rfl)
@[simp] theorem hangArmed_modReg (p o : Nat) (f : Word → Word) (p' : Nat) (s : State) : hangArmed (modReg p o f s) p' = hangArmed s p' := (rfl)
@[simp] theorem countReg_pending (p o n : Nat) (s : State) : (countReg p o n s).pending = s.pending := (rfl)
@[simp] theorem countReg_now (p o n : Nat) (s : State) : (countReg p o n s).now = s.now := (rfl)
@[simp] theorem countReg_free (p o n : Nat) (s : State) : (countReg p o n s).free = s.free := (rfl)
@[simp] theorem countReg_outbox (p o n : Nat) (s : State) : (countReg p o n s).outbox = s.outbox := (rfl)
@[simp] theorem countReg_swapped (p o n : Nat) (s : State) : (countReg p o n s).swapped = s.swapped := (rfl)
@[simp] theorem countReg_calSwapped (p o n : Nat) (s : State) : (countReg p o n s).calSwapped = s.calSwapped := (rfl)
@[simp] theorem countReg_held (p o n : Nat) (s : State) : (countReg p o n s).held = s.held := (rfl)
@[simp] theorem countReg_wms (p o n : Nat) (s : State) : (countReg p o n s).wms = s.wms := (rfl)
@[simp] theorem countReg_irqOut (p o n : Nat) (s : State) : (countReg p o n s).irqOut = s.irqOut := (rfl)
@[simp] theorem countReg_msixDue (p o n : Nat) (s : State) : (countReg p o n s).msixDue = s.msixDue := (rfl)
@[simp] theorem countReg_pal (p o n : Nat) (s : State) : (countReg p o n s).pal = s.pal := (rfl)
@[simp] theorem countReg_palHeld (p o n : Nat) (s : State) : (countReg p o n s).palHeld = s.palHeld := (rfl)
@[simp] theorem countReg_palCmds (p o n : Nat) (s : State) : (countReg p o n s).palCmds = s.palCmds := (rfl)
@[simp] theorem countReg_chans (p o n : Nat) (s : State) : (countReg p o n s).chans = s.chans := (rfl)
@[simp] theorem countReg_bases (p o n : Nat) (s : State) : (countReg p o n s).bases = s.bases := (rfl)
@[simp] theorem countReg_tables (p o n : Nat) (s : State) : (countReg p o n s).tables = s.tables := (rfl)
@[simp] theorem countReg_doms (p o n : Nat) (s : State) : (countReg p o n s).doms = s.doms := (rfl)
@[simp] theorem countReg_pins (p o n : Nat) (s : State) : (countReg p o n s).pins = s.pins := (rfl)
@[simp] theorem countReg_lifecycle (p o n : Nat) (s : State) : (countReg p o n s).lifecycle = s.lifecycle := (rfl)
@[simp] theorem countReg_keyFused (p o n : Nat) (s : State) : (countReg p o n s).keyFused = s.keyFused := (rfl)
@[simp] theorem countReg_reports (p o n : Nat) (s : State) : (countReg p o n s).reports = s.reports := (rfl)
@[simp] theorem countReg_anvil (p o n : Nat) (s : State) : (countReg p o n s).anvil = s.anvil := (rfl)
@[simp] theorem countReg_nextFid (p o n : Nat) (s : State) : (countReg p o n s).nextFid = s.nextFid := (rfl)
@[simp] theorem countReg_corrected (p o n : Nat) (s : State) : (countReg p o n s).corrected = s.corrected := (rfl)
@[simp] theorem countReg_mem (p o n : Nat) (s : State) : (countReg p o n s).mem = s.mem := (rfl)
@[simp] theorem countReg_trans (p o n : Nat) (s : State) : (countReg p o n s).trans = s.trans := (rfl)
@[simp] theorem countReg_replies (p o n : Nat) (s : State) : (countReg p o n s).replies = s.replies := (rfl)
@[simp] theorem countReg_power (p o n : Nat) (s : State) : (countReg p o n s).power = s.power := (rfl)
@[simp] theorem countReg_granted (p o n : Nat) (s : State) : (countReg p o n s).granted = s.granted := (rfl)
@[simp] theorem countReg_tongs (p o n : Nat) (s : State) : (countReg p o n s).tongs = s.tongs := (rfl)
@[simp] theorem countReg_tongsLast (p o n : Nat) (s : State) : (countReg p o n s).tongsLast = s.tongsLast := (rfl)
@[simp] theorem countReg_mramLines (p o n : Nat) (s : State) : (countReg p o n s).mramLines = s.mramLines := (rfl)
@[simp] theorem countReg_mramGap (p o n : Nat) (s : State) : (countReg p o n s).mramGap = s.mramGap := (rfl)
@[simp] theorem countReg_hang (p o n : Nat) (s : State) : (countReg p o n s).hang = s.hang := (rfl)
@[simp] theorem countReg_hangAsk (p o n : Nat) (s : State) : (countReg p o n s).hangAsk = s.hangAsk := (rfl)
@[simp] theorem countReg_fabHangAsk (p o n : Nat) (s : State) : (countReg p o n s).fabHangAsk = s.fabHangAsk := (rfl)
@[simp] theorem countReg_copies (p o n : Nat) (s : State) : (countReg p o n s).copies = s.copies := (rfl)
@[simp] theorem countReg_fstat (p o n : Nat) (s : State) : (countReg p o n s).fstat = s.fstat := (rfl)
@[simp] theorem countReg_snap (p o n : Nat) (s : State) : (countReg p o n s).snap = s.snap := (rfl)
@[simp] theorem countReg_engines (p o n : Nat) (s : State) : (countReg p o n s).engines = s.engines := (rfl)
@[simp] theorem countReg_stale (p o n : Nat) (s : State) : (countReg p o n s).stale = s.stale := (rfl)
@[simp] theorem countReg_lanes (p o n : Nat) (s : State) : (countReg p o n s).lanes = s.lanes := (rfl)
@[simp] theorem countReg_stores (p o n : Nat) (s : State) : (countReg p o n s).stores = s.stores := (rfl)
@[simp] theorem countReg_seqs (p o n : Nat) (s : State) : (countReg p o n s).seqs = s.seqs := (rfl)
@[simp] theorem countReg_fails (p o n : Nat) (s : State) : (countReg p o n s).fails = s.fails := (rfl)
@[simp] theorem countReg_welds (p o n : Nat) (s : State) : (countReg p o n s).welds = s.welds := (rfl)
@[simp] theorem countReg_patina (p o n : Nat) (s : State) : (countReg p o n s).patina = s.patina := (rfl)
@[simp] theorem countReg_wiping (p o n : Nat) (s : State) : (countReg p o n s).wiping = s.wiping := (rfl)
@[simp] theorem countReg_ports (p o n : Nat) (s : State) : (countReg p o n s).ports = s.ports := (rfl)
@[simp] theorem countReg_fabric (p o n : Nat) (s : State) : (countReg p o n s).fabric = s.fabric := (rfl)
@[simp] theorem countReg_pcie (p o n : Nat) (s : State) : (countReg p o n s).pcie = s.pcie := (rfl)
@[simp] theorem countReg_thermal (p o n : Nat) (s : State) : (countReg p o n s).thermal = s.thermal := (rfl)
@[simp] theorem countReg_bellows (p o n : Nat) (s : State) : (countReg p o n s).bellows = s.bellows := (rfl)
@[simp] theorem countReg_temper (p o n : Nat) (s : State) : (countReg p o n s).temper = s.temper := (rfl)
@[simp] theorem countReg_primer (p o n : Nat) (s : State) : (countReg p o n s).primer = s.primer := (rfl)
@[simp] theorem countReg_calDue (p o n : Nat) (s : State) : (countReg p o n s).calDue = s.calDue := (rfl)
@[simp] theorem countReg_journal (p o n : Nat) (s : State) : (countReg p o n s).journal = s.journal := (rfl)
@[simp] theorem countReg_images (p o n : Nat) (s : State) : (countReg p o n s).images = s.images := (rfl)
@[simp] theorem countReg_loaded (p o n : Nat) (s : State) : (countReg p o n s).loaded = s.loaded := (rfl)
@[simp] theorem countReg_taken (p o n : Nat) (s : State) : (countReg p o n s).taken = s.taken := (rfl)
@[simp] theorem countReg_tap (p o n : Nat) (s : State) : (countReg p o n s).tap = s.tap := (rfl)
@[simp] theorem countReg_tapFault (p o n : Nat) (s : State) : (countReg p o n s).tapFault = s.tapFault := (rfl)
@[simp] theorem chan_countReg (p o n : Nat) (j : Nat) (s : State) : chan (countReg p o n s) j = chan s j := (rfl)
@[simp] theorem base_countReg (p o n : Nat) (j : Nat) (s : State) : base (countReg p o n s) j = base s j := (rfl)
@[simp] theorem dom_countReg (p o n : Nat) (j : Nat) (s : State) : dom (countReg p o n s) j = dom s j := (rfl)
@[simp] theorem eng_countReg (p o n : Nat) (j : Nat) (s : State) : eng (countReg p o n s) j = eng s j := (rfl)
@[simp] theorem lane_countReg (p o n : Nat) (j : Nat) (s : State) : lane (countReg p o n s) j = lane s j := (rfl)
@[simp] theorem store_countReg (p o n : Nat) (j : Nat) (s : State) : store (countReg p o n s) j = store s j := (rfl)
@[simp] theorem seqAt_countReg (p o n : Nat) (j : Nat) (s : State) : seqAt (countReg p o n s) j = seqAt s j := (rfl)
@[simp] theorem failPipe_countReg (p o n : Nat) (j : Nat) (s : State) : failPipe (countReg p o n s) j = failPipe s j := (rfl)
@[simp] theorem weld_countReg (p o n : Nat) (j : Nat) (s : State) : weld (countReg p o n s) j = weld s j := (rfl)
@[simp] theorem memByte_countReg (p o n : Nat) (j : Nat) (s : State) : memByte (countReg p o n s) j = memByte s j := (rfl)
@[simp] theorem anvEntry_countReg (p o n : Nat) (j : Nat) (s : State) : anvEntry (countReg p o n s) j = anvEntry s j := (rfl)
@[simp] theorem port_countReg (p o n : Nat) (j : Nat) (s : State) : port (countReg p o n s) j = port s j := (rfl)
@[simp] theorem hangSlot_countReg (p o n : Nat) (j : Nat) (s : State) : hangSlot (countReg p o n s) j = hangSlot s j := (rfl)
@[simp] theorem tgChan_countReg (p o n : Nat) (j : Nat) (s : State) : tgChan (countReg p o n s) j = tgChan s j := (rfl)
@[simp] theorem bucket_countReg (p o n : Nat) (j : Nat) (s : State) : bucket (countReg p o n s) j = bucket s j := (rfl)
@[simp] theorem domLost_countReg (p o n : Nat) (j : Nat) (s : State) : domLost (countReg p o n s) j = domLost s j := (rfl)
@[simp] theorem canvasSet_countReg (p o n : Nat) (p' o' : Nat) (s : State) : canvasSet (countReg p o n s) p' o' = canvasSet s p' o' := (rfl)
@[simp] theorem roleKey_countReg (p o n : Nat) (e : Bool) (p' o' : Nat) (s : State) : roleKey (countReg p o n s) e p' o' = roleKey s e p' o' := (rfl)
@[simp] theorem hangArmed_countReg (p o n : Nat) (p' : Nat) (s : State) : hangArmed (countReg p o n s) p' = hangArmed s p' := (rfl)
@[simp] theorem setChan_pending (c : Nat) (x : Chan) (s : State) : (setChan c x s).pending = s.pending := (rfl)
@[simp] theorem setChan_now (c : Nat) (x : Chan) (s : State) : (setChan c x s).now = s.now := (rfl)
@[simp] theorem setChan_free (c : Nat) (x : Chan) (s : State) : (setChan c x s).free = s.free := (rfl)
@[simp] theorem setChan_outbox (c : Nat) (x : Chan) (s : State) : (setChan c x s).outbox = s.outbox := (rfl)
@[simp] theorem setChan_regs (c : Nat) (x : Chan) (s : State) : (setChan c x s).regs = s.regs := (rfl)
@[simp] theorem setChan_swapped (c : Nat) (x : Chan) (s : State) : (setChan c x s).swapped = s.swapped := (rfl)
@[simp] theorem setChan_calSwapped (c : Nat) (x : Chan) (s : State) : (setChan c x s).calSwapped = s.calSwapped := (rfl)
@[simp] theorem setChan_held (c : Nat) (x : Chan) (s : State) : (setChan c x s).held = s.held := (rfl)
@[simp] theorem setChan_wms (c : Nat) (x : Chan) (s : State) : (setChan c x s).wms = s.wms := (rfl)
@[simp] theorem setChan_irqOut (c : Nat) (x : Chan) (s : State) : (setChan c x s).irqOut = s.irqOut := (rfl)
@[simp] theorem setChan_msixDue (c : Nat) (x : Chan) (s : State) : (setChan c x s).msixDue = s.msixDue := (rfl)
@[simp] theorem setChan_pal (c : Nat) (x : Chan) (s : State) : (setChan c x s).pal = s.pal := (rfl)
@[simp] theorem setChan_palHeld (c : Nat) (x : Chan) (s : State) : (setChan c x s).palHeld = s.palHeld := (rfl)
@[simp] theorem setChan_palCmds (c : Nat) (x : Chan) (s : State) : (setChan c x s).palCmds = s.palCmds := (rfl)
@[simp] theorem setChan_bases (c : Nat) (x : Chan) (s : State) : (setChan c x s).bases = s.bases := (rfl)
@[simp] theorem setChan_tables (c : Nat) (x : Chan) (s : State) : (setChan c x s).tables = s.tables := (rfl)
@[simp] theorem setChan_doms (c : Nat) (x : Chan) (s : State) : (setChan c x s).doms = s.doms := (rfl)
@[simp] theorem setChan_pins (c : Nat) (x : Chan) (s : State) : (setChan c x s).pins = s.pins := (rfl)
@[simp] theorem setChan_lifecycle (c : Nat) (x : Chan) (s : State) : (setChan c x s).lifecycle = s.lifecycle := (rfl)
@[simp] theorem setChan_keyFused (c : Nat) (x : Chan) (s : State) : (setChan c x s).keyFused = s.keyFused := (rfl)
@[simp] theorem setChan_reports (c : Nat) (x : Chan) (s : State) : (setChan c x s).reports = s.reports := (rfl)
@[simp] theorem setChan_anvil (c : Nat) (x : Chan) (s : State) : (setChan c x s).anvil = s.anvil := (rfl)
@[simp] theorem setChan_nextFid (c : Nat) (x : Chan) (s : State) : (setChan c x s).nextFid = s.nextFid := (rfl)
@[simp] theorem setChan_corrected (c : Nat) (x : Chan) (s : State) : (setChan c x s).corrected = s.corrected := (rfl)
@[simp] theorem setChan_mem (c : Nat) (x : Chan) (s : State) : (setChan c x s).mem = s.mem := (rfl)
@[simp] theorem setChan_trans (c : Nat) (x : Chan) (s : State) : (setChan c x s).trans = s.trans := (rfl)
@[simp] theorem setChan_replies (c : Nat) (x : Chan) (s : State) : (setChan c x s).replies = s.replies := (rfl)
@[simp] theorem setChan_power (c : Nat) (x : Chan) (s : State) : (setChan c x s).power = s.power := (rfl)
@[simp] theorem setChan_granted (c : Nat) (x : Chan) (s : State) : (setChan c x s).granted = s.granted := (rfl)
@[simp] theorem setChan_tongs (c : Nat) (x : Chan) (s : State) : (setChan c x s).tongs = s.tongs := (rfl)
@[simp] theorem setChan_tongsLast (c : Nat) (x : Chan) (s : State) : (setChan c x s).tongsLast = s.tongsLast := (rfl)
@[simp] theorem setChan_mramLines (c : Nat) (x : Chan) (s : State) : (setChan c x s).mramLines = s.mramLines := (rfl)
@[simp] theorem setChan_mramGap (c : Nat) (x : Chan) (s : State) : (setChan c x s).mramGap = s.mramGap := (rfl)
@[simp] theorem setChan_hang (c : Nat) (x : Chan) (s : State) : (setChan c x s).hang = s.hang := (rfl)
@[simp] theorem setChan_hangAsk (c : Nat) (x : Chan) (s : State) : (setChan c x s).hangAsk = s.hangAsk := (rfl)
@[simp] theorem setChan_fabHangAsk (c : Nat) (x : Chan) (s : State) : (setChan c x s).fabHangAsk = s.fabHangAsk := (rfl)
@[simp] theorem setChan_copies (c : Nat) (x : Chan) (s : State) : (setChan c x s).copies = s.copies := (rfl)
@[simp] theorem setChan_fstat (c : Nat) (x : Chan) (s : State) : (setChan c x s).fstat = s.fstat := (rfl)
@[simp] theorem setChan_snap (c : Nat) (x : Chan) (s : State) : (setChan c x s).snap = s.snap := (rfl)
@[simp] theorem setChan_engines (c : Nat) (x : Chan) (s : State) : (setChan c x s).engines = s.engines := (rfl)
@[simp] theorem setChan_stale (c : Nat) (x : Chan) (s : State) : (setChan c x s).stale = s.stale := (rfl)
@[simp] theorem setChan_lanes (c : Nat) (x : Chan) (s : State) : (setChan c x s).lanes = s.lanes := (rfl)
@[simp] theorem setChan_stores (c : Nat) (x : Chan) (s : State) : (setChan c x s).stores = s.stores := (rfl)
@[simp] theorem setChan_seqs (c : Nat) (x : Chan) (s : State) : (setChan c x s).seqs = s.seqs := (rfl)
@[simp] theorem setChan_fails (c : Nat) (x : Chan) (s : State) : (setChan c x s).fails = s.fails := (rfl)
@[simp] theorem setChan_welds (c : Nat) (x : Chan) (s : State) : (setChan c x s).welds = s.welds := (rfl)
@[simp] theorem setChan_patina (c : Nat) (x : Chan) (s : State) : (setChan c x s).patina = s.patina := (rfl)
@[simp] theorem setChan_wiping (c : Nat) (x : Chan) (s : State) : (setChan c x s).wiping = s.wiping := (rfl)
@[simp] theorem setChan_ports (c : Nat) (x : Chan) (s : State) : (setChan c x s).ports = s.ports := (rfl)
@[simp] theorem setChan_fabric (c : Nat) (x : Chan) (s : State) : (setChan c x s).fabric = s.fabric := (rfl)
@[simp] theorem setChan_pcie (c : Nat) (x : Chan) (s : State) : (setChan c x s).pcie = s.pcie := (rfl)
@[simp] theorem setChan_thermal (c : Nat) (x : Chan) (s : State) : (setChan c x s).thermal = s.thermal := (rfl)
@[simp] theorem setChan_bellows (c : Nat) (x : Chan) (s : State) : (setChan c x s).bellows = s.bellows := (rfl)
@[simp] theorem setChan_temper (c : Nat) (x : Chan) (s : State) : (setChan c x s).temper = s.temper := (rfl)
@[simp] theorem setChan_primer (c : Nat) (x : Chan) (s : State) : (setChan c x s).primer = s.primer := (rfl)
@[simp] theorem setChan_calDue (c : Nat) (x : Chan) (s : State) : (setChan c x s).calDue = s.calDue := (rfl)
@[simp] theorem setChan_journal (c : Nat) (x : Chan) (s : State) : (setChan c x s).journal = s.journal := (rfl)
@[simp] theorem setChan_images (c : Nat) (x : Chan) (s : State) : (setChan c x s).images = s.images := (rfl)
@[simp] theorem setChan_loaded (c : Nat) (x : Chan) (s : State) : (setChan c x s).loaded = s.loaded := (rfl)
@[simp] theorem setChan_taken (c : Nat) (x : Chan) (s : State) : (setChan c x s).taken = s.taken := (rfl)
@[simp] theorem setChan_tap (c : Nat) (x : Chan) (s : State) : (setChan c x s).tap = s.tap := (rfl)
@[simp] theorem setChan_tapFault (c : Nat) (x : Chan) (s : State) : (setChan c x s).tapFault = s.tapFault := (rfl)
@[simp] theorem base_setChan (c : Nat) (x : Chan) (j : Nat) (s : State) : base (setChan c x s) j = base s j := (rfl)
@[simp] theorem dom_setChan (c : Nat) (x : Chan) (j : Nat) (s : State) : dom (setChan c x s) j = dom s j := (rfl)
@[simp] theorem eng_setChan (c : Nat) (x : Chan) (j : Nat) (s : State) : eng (setChan c x s) j = eng s j := (rfl)
@[simp] theorem lane_setChan (c : Nat) (x : Chan) (j : Nat) (s : State) : lane (setChan c x s) j = lane s j := (rfl)
@[simp] theorem store_setChan (c : Nat) (x : Chan) (j : Nat) (s : State) : store (setChan c x s) j = store s j := (rfl)
@[simp] theorem seqAt_setChan (c : Nat) (x : Chan) (j : Nat) (s : State) : seqAt (setChan c x s) j = seqAt s j := (rfl)
@[simp] theorem failPipe_setChan (c : Nat) (x : Chan) (j : Nat) (s : State) : failPipe (setChan c x s) j = failPipe s j := (rfl)
@[simp] theorem weld_setChan (c : Nat) (x : Chan) (j : Nat) (s : State) : weld (setChan c x s) j = weld s j := (rfl)
@[simp] theorem memByte_setChan (c : Nat) (x : Chan) (j : Nat) (s : State) : memByte (setChan c x s) j = memByte s j := (rfl)
@[simp] theorem anvEntry_setChan (c : Nat) (x : Chan) (j : Nat) (s : State) : anvEntry (setChan c x s) j = anvEntry s j := (rfl)
@[simp] theorem port_setChan (c : Nat) (x : Chan) (j : Nat) (s : State) : port (setChan c x s) j = port s j := (rfl)
@[simp] theorem hangSlot_setChan (c : Nat) (x : Chan) (j : Nat) (s : State) : hangSlot (setChan c x s) j = hangSlot s j := (rfl)
@[simp] theorem tgChan_setChan (c : Nat) (x : Chan) (j : Nat) (s : State) : tgChan (setChan c x s) j = tgChan s j := (rfl)
@[simp] theorem bucket_setChan (c : Nat) (x : Chan) (j : Nat) (s : State) : bucket (setChan c x s) j = bucket s j := (rfl)
@[simp] theorem domLost_setChan (c : Nat) (x : Chan) (j : Nat) (s : State) : domLost (setChan c x s) j = domLost s j := (rfl)
@[simp] theorem canvasSet_setChan (c : Nat) (x : Chan) (p o : Nat) (s : State) : canvasSet (setChan c x s) p o = canvasSet s p o := (rfl)
@[simp] theorem rdRole_setChan (c : Nat) (x : Chan) (e : Bool) (p o : Nat) (s : State) : rdRole (setChan c x s) e p o = rdRole s e p o := (rfl)
@[simp] theorem rdReg_setChan (c : Nat) (x : Chan) (p o : Nat) (s : State) : rdReg (setChan c x s) p o = rdReg s p o := (rfl)
@[simp] theorem roleKey_setChan (c : Nat) (x : Chan) (e : Bool) (p o : Nat) (s : State) : roleKey (setChan c x s) e p o = roleKey s e p o := (rfl)
@[simp] theorem inForce_setChan (c : Nat) (x : Chan) (p o : Nat) (s : State) : inForce (setChan c x s) p o = inForce s p o := (rfl)
@[simp] theorem hangArmed_setChan (c : Nat) (x : Chan) (p : Nat) (s : State) : hangArmed (setChan c x s) p = hangArmed s p := (rfl)
@[simp] theorem modChan_pending (c : Nat) (f : Chan → Chan) (s : State) : (modChan c f s).pending = s.pending := (rfl)
@[simp] theorem modChan_now (c : Nat) (f : Chan → Chan) (s : State) : (modChan c f s).now = s.now := (rfl)
@[simp] theorem modChan_free (c : Nat) (f : Chan → Chan) (s : State) : (modChan c f s).free = s.free := (rfl)
@[simp] theorem modChan_outbox (c : Nat) (f : Chan → Chan) (s : State) : (modChan c f s).outbox = s.outbox := (rfl)
@[simp] theorem modChan_regs (c : Nat) (f : Chan → Chan) (s : State) : (modChan c f s).regs = s.regs := (rfl)
@[simp] theorem modChan_swapped (c : Nat) (f : Chan → Chan) (s : State) : (modChan c f s).swapped = s.swapped := (rfl)
@[simp] theorem modChan_calSwapped (c : Nat) (f : Chan → Chan) (s : State) : (modChan c f s).calSwapped = s.calSwapped := (rfl)
@[simp] theorem modChan_held (c : Nat) (f : Chan → Chan) (s : State) : (modChan c f s).held = s.held := (rfl)
@[simp] theorem modChan_wms (c : Nat) (f : Chan → Chan) (s : State) : (modChan c f s).wms = s.wms := (rfl)
@[simp] theorem modChan_irqOut (c : Nat) (f : Chan → Chan) (s : State) : (modChan c f s).irqOut = s.irqOut := (rfl)
@[simp] theorem modChan_msixDue (c : Nat) (f : Chan → Chan) (s : State) : (modChan c f s).msixDue = s.msixDue := (rfl)
@[simp] theorem modChan_pal (c : Nat) (f : Chan → Chan) (s : State) : (modChan c f s).pal = s.pal := (rfl)
@[simp] theorem modChan_palHeld (c : Nat) (f : Chan → Chan) (s : State) : (modChan c f s).palHeld = s.palHeld := (rfl)
@[simp] theorem modChan_palCmds (c : Nat) (f : Chan → Chan) (s : State) : (modChan c f s).palCmds = s.palCmds := (rfl)
@[simp] theorem modChan_bases (c : Nat) (f : Chan → Chan) (s : State) : (modChan c f s).bases = s.bases := (rfl)
@[simp] theorem modChan_tables (c : Nat) (f : Chan → Chan) (s : State) : (modChan c f s).tables = s.tables := (rfl)
@[simp] theorem modChan_doms (c : Nat) (f : Chan → Chan) (s : State) : (modChan c f s).doms = s.doms := (rfl)
@[simp] theorem modChan_pins (c : Nat) (f : Chan → Chan) (s : State) : (modChan c f s).pins = s.pins := (rfl)
@[simp] theorem modChan_lifecycle (c : Nat) (f : Chan → Chan) (s : State) : (modChan c f s).lifecycle = s.lifecycle := (rfl)
@[simp] theorem modChan_keyFused (c : Nat) (f : Chan → Chan) (s : State) : (modChan c f s).keyFused = s.keyFused := (rfl)
@[simp] theorem modChan_reports (c : Nat) (f : Chan → Chan) (s : State) : (modChan c f s).reports = s.reports := (rfl)
@[simp] theorem modChan_anvil (c : Nat) (f : Chan → Chan) (s : State) : (modChan c f s).anvil = s.anvil := (rfl)
@[simp] theorem modChan_nextFid (c : Nat) (f : Chan → Chan) (s : State) : (modChan c f s).nextFid = s.nextFid := (rfl)
@[simp] theorem modChan_corrected (c : Nat) (f : Chan → Chan) (s : State) : (modChan c f s).corrected = s.corrected := (rfl)
@[simp] theorem modChan_mem (c : Nat) (f : Chan → Chan) (s : State) : (modChan c f s).mem = s.mem := (rfl)
@[simp] theorem modChan_trans (c : Nat) (f : Chan → Chan) (s : State) : (modChan c f s).trans = s.trans := (rfl)
@[simp] theorem modChan_replies (c : Nat) (f : Chan → Chan) (s : State) : (modChan c f s).replies = s.replies := (rfl)
@[simp] theorem modChan_power (c : Nat) (f : Chan → Chan) (s : State) : (modChan c f s).power = s.power := (rfl)
@[simp] theorem modChan_granted (c : Nat) (f : Chan → Chan) (s : State) : (modChan c f s).granted = s.granted := (rfl)
@[simp] theorem modChan_tongs (c : Nat) (f : Chan → Chan) (s : State) : (modChan c f s).tongs = s.tongs := (rfl)
@[simp] theorem modChan_tongsLast (c : Nat) (f : Chan → Chan) (s : State) : (modChan c f s).tongsLast = s.tongsLast := (rfl)
@[simp] theorem modChan_mramLines (c : Nat) (f : Chan → Chan) (s : State) : (modChan c f s).mramLines = s.mramLines := (rfl)
@[simp] theorem modChan_mramGap (c : Nat) (f : Chan → Chan) (s : State) : (modChan c f s).mramGap = s.mramGap := (rfl)
@[simp] theorem modChan_hang (c : Nat) (f : Chan → Chan) (s : State) : (modChan c f s).hang = s.hang := (rfl)
@[simp] theorem modChan_hangAsk (c : Nat) (f : Chan → Chan) (s : State) : (modChan c f s).hangAsk = s.hangAsk := (rfl)
@[simp] theorem modChan_fabHangAsk (c : Nat) (f : Chan → Chan) (s : State) : (modChan c f s).fabHangAsk = s.fabHangAsk := (rfl)
@[simp] theorem modChan_copies (c : Nat) (f : Chan → Chan) (s : State) : (modChan c f s).copies = s.copies := (rfl)
@[simp] theorem modChan_fstat (c : Nat) (f : Chan → Chan) (s : State) : (modChan c f s).fstat = s.fstat := (rfl)
@[simp] theorem modChan_snap (c : Nat) (f : Chan → Chan) (s : State) : (modChan c f s).snap = s.snap := (rfl)
@[simp] theorem modChan_engines (c : Nat) (f : Chan → Chan) (s : State) : (modChan c f s).engines = s.engines := (rfl)
@[simp] theorem modChan_stale (c : Nat) (f : Chan → Chan) (s : State) : (modChan c f s).stale = s.stale := (rfl)
@[simp] theorem modChan_lanes (c : Nat) (f : Chan → Chan) (s : State) : (modChan c f s).lanes = s.lanes := (rfl)
@[simp] theorem modChan_stores (c : Nat) (f : Chan → Chan) (s : State) : (modChan c f s).stores = s.stores := (rfl)
@[simp] theorem modChan_seqs (c : Nat) (f : Chan → Chan) (s : State) : (modChan c f s).seqs = s.seqs := (rfl)
@[simp] theorem modChan_fails (c : Nat) (f : Chan → Chan) (s : State) : (modChan c f s).fails = s.fails := (rfl)
@[simp] theorem modChan_welds (c : Nat) (f : Chan → Chan) (s : State) : (modChan c f s).welds = s.welds := (rfl)
@[simp] theorem modChan_patina (c : Nat) (f : Chan → Chan) (s : State) : (modChan c f s).patina = s.patina := (rfl)
@[simp] theorem modChan_wiping (c : Nat) (f : Chan → Chan) (s : State) : (modChan c f s).wiping = s.wiping := (rfl)
@[simp] theorem modChan_ports (c : Nat) (f : Chan → Chan) (s : State) : (modChan c f s).ports = s.ports := (rfl)
@[simp] theorem modChan_fabric (c : Nat) (f : Chan → Chan) (s : State) : (modChan c f s).fabric = s.fabric := (rfl)
@[simp] theorem modChan_pcie (c : Nat) (f : Chan → Chan) (s : State) : (modChan c f s).pcie = s.pcie := (rfl)
@[simp] theorem modChan_thermal (c : Nat) (f : Chan → Chan) (s : State) : (modChan c f s).thermal = s.thermal := (rfl)
@[simp] theorem modChan_bellows (c : Nat) (f : Chan → Chan) (s : State) : (modChan c f s).bellows = s.bellows := (rfl)
@[simp] theorem modChan_temper (c : Nat) (f : Chan → Chan) (s : State) : (modChan c f s).temper = s.temper := (rfl)
@[simp] theorem modChan_primer (c : Nat) (f : Chan → Chan) (s : State) : (modChan c f s).primer = s.primer := (rfl)
@[simp] theorem modChan_calDue (c : Nat) (f : Chan → Chan) (s : State) : (modChan c f s).calDue = s.calDue := (rfl)
@[simp] theorem modChan_journal (c : Nat) (f : Chan → Chan) (s : State) : (modChan c f s).journal = s.journal := (rfl)
@[simp] theorem modChan_images (c : Nat) (f : Chan → Chan) (s : State) : (modChan c f s).images = s.images := (rfl)
@[simp] theorem modChan_loaded (c : Nat) (f : Chan → Chan) (s : State) : (modChan c f s).loaded = s.loaded := (rfl)
@[simp] theorem modChan_taken (c : Nat) (f : Chan → Chan) (s : State) : (modChan c f s).taken = s.taken := (rfl)
@[simp] theorem modChan_tap (c : Nat) (f : Chan → Chan) (s : State) : (modChan c f s).tap = s.tap := (rfl)
@[simp] theorem modChan_tapFault (c : Nat) (f : Chan → Chan) (s : State) : (modChan c f s).tapFault = s.tapFault := (rfl)
@[simp] theorem base_modChan (c : Nat) (f : Chan → Chan) (j : Nat) (s : State) : base (modChan c f s) j = base s j := (rfl)
@[simp] theorem dom_modChan (c : Nat) (f : Chan → Chan) (j : Nat) (s : State) : dom (modChan c f s) j = dom s j := (rfl)
@[simp] theorem eng_modChan (c : Nat) (f : Chan → Chan) (j : Nat) (s : State) : eng (modChan c f s) j = eng s j := (rfl)
@[simp] theorem lane_modChan (c : Nat) (f : Chan → Chan) (j : Nat) (s : State) : lane (modChan c f s) j = lane s j := (rfl)
@[simp] theorem store_modChan (c : Nat) (f : Chan → Chan) (j : Nat) (s : State) : store (modChan c f s) j = store s j := (rfl)
@[simp] theorem seqAt_modChan (c : Nat) (f : Chan → Chan) (j : Nat) (s : State) : seqAt (modChan c f s) j = seqAt s j := (rfl)
@[simp] theorem failPipe_modChan (c : Nat) (f : Chan → Chan) (j : Nat) (s : State) : failPipe (modChan c f s) j = failPipe s j := (rfl)
@[simp] theorem weld_modChan (c : Nat) (f : Chan → Chan) (j : Nat) (s : State) : weld (modChan c f s) j = weld s j := (rfl)
@[simp] theorem memByte_modChan (c : Nat) (f : Chan → Chan) (j : Nat) (s : State) : memByte (modChan c f s) j = memByte s j := (rfl)
@[simp] theorem anvEntry_modChan (c : Nat) (f : Chan → Chan) (j : Nat) (s : State) : anvEntry (modChan c f s) j = anvEntry s j := (rfl)
@[simp] theorem port_modChan (c : Nat) (f : Chan → Chan) (j : Nat) (s : State) : port (modChan c f s) j = port s j := (rfl)
@[simp] theorem hangSlot_modChan (c : Nat) (f : Chan → Chan) (j : Nat) (s : State) : hangSlot (modChan c f s) j = hangSlot s j := (rfl)
@[simp] theorem tgChan_modChan (c : Nat) (f : Chan → Chan) (j : Nat) (s : State) : tgChan (modChan c f s) j = tgChan s j := (rfl)
@[simp] theorem bucket_modChan (c : Nat) (f : Chan → Chan) (j : Nat) (s : State) : bucket (modChan c f s) j = bucket s j := (rfl)
@[simp] theorem domLost_modChan (c : Nat) (f : Chan → Chan) (j : Nat) (s : State) : domLost (modChan c f s) j = domLost s j := (rfl)
@[simp] theorem canvasSet_modChan (c : Nat) (f : Chan → Chan) (p o : Nat) (s : State) : canvasSet (modChan c f s) p o = canvasSet s p o := (rfl)
@[simp] theorem rdRole_modChan (c : Nat) (f : Chan → Chan) (e : Bool) (p o : Nat) (s : State) : rdRole (modChan c f s) e p o = rdRole s e p o := (rfl)
@[simp] theorem rdReg_modChan (c : Nat) (f : Chan → Chan) (p o : Nat) (s : State) : rdReg (modChan c f s) p o = rdReg s p o := (rfl)
@[simp] theorem roleKey_modChan (c : Nat) (f : Chan → Chan) (e : Bool) (p o : Nat) (s : State) : roleKey (modChan c f s) e p o = roleKey s e p o := (rfl)
@[simp] theorem inForce_modChan (c : Nat) (f : Chan → Chan) (p o : Nat) (s : State) : inForce (modChan c f s) p o = inForce s p o := (rfl)
@[simp] theorem hangArmed_modChan (c : Nat) (f : Chan → Chan) (p : Nat) (s : State) : hangArmed (modChan c f s) p = hangArmed s p := (rfl)
@[simp] theorem setBase_pending (k : Nat) (x : Timebase) (s : State) : (setBase k x s).pending = s.pending := (rfl)
@[simp] theorem setBase_now (k : Nat) (x : Timebase) (s : State) : (setBase k x s).now = s.now := (rfl)
@[simp] theorem setBase_free (k : Nat) (x : Timebase) (s : State) : (setBase k x s).free = s.free := (rfl)
@[simp] theorem setBase_outbox (k : Nat) (x : Timebase) (s : State) : (setBase k x s).outbox = s.outbox := (rfl)
@[simp] theorem setBase_regs (k : Nat) (x : Timebase) (s : State) : (setBase k x s).regs = s.regs := (rfl)
@[simp] theorem setBase_swapped (k : Nat) (x : Timebase) (s : State) : (setBase k x s).swapped = s.swapped := (rfl)
@[simp] theorem setBase_calSwapped (k : Nat) (x : Timebase) (s : State) : (setBase k x s).calSwapped = s.calSwapped := (rfl)
@[simp] theorem setBase_held (k : Nat) (x : Timebase) (s : State) : (setBase k x s).held = s.held := (rfl)
@[simp] theorem setBase_wms (k : Nat) (x : Timebase) (s : State) : (setBase k x s).wms = s.wms := (rfl)
@[simp] theorem setBase_irqOut (k : Nat) (x : Timebase) (s : State) : (setBase k x s).irqOut = s.irqOut := (rfl)
@[simp] theorem setBase_msixDue (k : Nat) (x : Timebase) (s : State) : (setBase k x s).msixDue = s.msixDue := (rfl)
@[simp] theorem setBase_pal (k : Nat) (x : Timebase) (s : State) : (setBase k x s).pal = s.pal := (rfl)
@[simp] theorem setBase_palHeld (k : Nat) (x : Timebase) (s : State) : (setBase k x s).palHeld = s.palHeld := (rfl)
@[simp] theorem setBase_palCmds (k : Nat) (x : Timebase) (s : State) : (setBase k x s).palCmds = s.palCmds := (rfl)
@[simp] theorem setBase_chans (k : Nat) (x : Timebase) (s : State) : (setBase k x s).chans = s.chans := (rfl)
@[simp] theorem setBase_tables (k : Nat) (x : Timebase) (s : State) : (setBase k x s).tables = s.tables := (rfl)
@[simp] theorem setBase_doms (k : Nat) (x : Timebase) (s : State) : (setBase k x s).doms = s.doms := (rfl)
@[simp] theorem setBase_pins (k : Nat) (x : Timebase) (s : State) : (setBase k x s).pins = s.pins := (rfl)
@[simp] theorem setBase_lifecycle (k : Nat) (x : Timebase) (s : State) : (setBase k x s).lifecycle = s.lifecycle := (rfl)
@[simp] theorem setBase_keyFused (k : Nat) (x : Timebase) (s : State) : (setBase k x s).keyFused = s.keyFused := (rfl)
@[simp] theorem setBase_reports (k : Nat) (x : Timebase) (s : State) : (setBase k x s).reports = s.reports := (rfl)
@[simp] theorem setBase_anvil (k : Nat) (x : Timebase) (s : State) : (setBase k x s).anvil = s.anvil := (rfl)
@[simp] theorem setBase_nextFid (k : Nat) (x : Timebase) (s : State) : (setBase k x s).nextFid = s.nextFid := (rfl)
@[simp] theorem setBase_corrected (k : Nat) (x : Timebase) (s : State) : (setBase k x s).corrected = s.corrected := (rfl)
@[simp] theorem setBase_mem (k : Nat) (x : Timebase) (s : State) : (setBase k x s).mem = s.mem := (rfl)
@[simp] theorem setBase_trans (k : Nat) (x : Timebase) (s : State) : (setBase k x s).trans = s.trans := (rfl)
@[simp] theorem setBase_replies (k : Nat) (x : Timebase) (s : State) : (setBase k x s).replies = s.replies := (rfl)
@[simp] theorem setBase_power (k : Nat) (x : Timebase) (s : State) : (setBase k x s).power = s.power := (rfl)
@[simp] theorem setBase_granted (k : Nat) (x : Timebase) (s : State) : (setBase k x s).granted = s.granted := (rfl)
@[simp] theorem setBase_tongs (k : Nat) (x : Timebase) (s : State) : (setBase k x s).tongs = s.tongs := (rfl)
@[simp] theorem setBase_tongsLast (k : Nat) (x : Timebase) (s : State) : (setBase k x s).tongsLast = s.tongsLast := (rfl)
@[simp] theorem setBase_mramLines (k : Nat) (x : Timebase) (s : State) : (setBase k x s).mramLines = s.mramLines := (rfl)
@[simp] theorem setBase_mramGap (k : Nat) (x : Timebase) (s : State) : (setBase k x s).mramGap = s.mramGap := (rfl)
@[simp] theorem setBase_hang (k : Nat) (x : Timebase) (s : State) : (setBase k x s).hang = s.hang := (rfl)
@[simp] theorem setBase_hangAsk (k : Nat) (x : Timebase) (s : State) : (setBase k x s).hangAsk = s.hangAsk := (rfl)
@[simp] theorem setBase_fabHangAsk (k : Nat) (x : Timebase) (s : State) : (setBase k x s).fabHangAsk = s.fabHangAsk := (rfl)
@[simp] theorem setBase_copies (k : Nat) (x : Timebase) (s : State) : (setBase k x s).copies = s.copies := (rfl)
@[simp] theorem setBase_fstat (k : Nat) (x : Timebase) (s : State) : (setBase k x s).fstat = s.fstat := (rfl)
@[simp] theorem setBase_snap (k : Nat) (x : Timebase) (s : State) : (setBase k x s).snap = s.snap := (rfl)
@[simp] theorem setBase_engines (k : Nat) (x : Timebase) (s : State) : (setBase k x s).engines = s.engines := (rfl)
@[simp] theorem setBase_stale (k : Nat) (x : Timebase) (s : State) : (setBase k x s).stale = s.stale := (rfl)
@[simp] theorem setBase_lanes (k : Nat) (x : Timebase) (s : State) : (setBase k x s).lanes = s.lanes := (rfl)
@[simp] theorem setBase_stores (k : Nat) (x : Timebase) (s : State) : (setBase k x s).stores = s.stores := (rfl)
@[simp] theorem setBase_seqs (k : Nat) (x : Timebase) (s : State) : (setBase k x s).seqs = s.seqs := (rfl)
@[simp] theorem setBase_fails (k : Nat) (x : Timebase) (s : State) : (setBase k x s).fails = s.fails := (rfl)
@[simp] theorem setBase_welds (k : Nat) (x : Timebase) (s : State) : (setBase k x s).welds = s.welds := (rfl)
@[simp] theorem setBase_patina (k : Nat) (x : Timebase) (s : State) : (setBase k x s).patina = s.patina := (rfl)
@[simp] theorem setBase_wiping (k : Nat) (x : Timebase) (s : State) : (setBase k x s).wiping = s.wiping := (rfl)
@[simp] theorem setBase_ports (k : Nat) (x : Timebase) (s : State) : (setBase k x s).ports = s.ports := (rfl)
@[simp] theorem setBase_fabric (k : Nat) (x : Timebase) (s : State) : (setBase k x s).fabric = s.fabric := (rfl)
@[simp] theorem setBase_pcie (k : Nat) (x : Timebase) (s : State) : (setBase k x s).pcie = s.pcie := (rfl)
@[simp] theorem setBase_thermal (k : Nat) (x : Timebase) (s : State) : (setBase k x s).thermal = s.thermal := (rfl)
@[simp] theorem setBase_bellows (k : Nat) (x : Timebase) (s : State) : (setBase k x s).bellows = s.bellows := (rfl)
@[simp] theorem setBase_temper (k : Nat) (x : Timebase) (s : State) : (setBase k x s).temper = s.temper := (rfl)
@[simp] theorem setBase_primer (k : Nat) (x : Timebase) (s : State) : (setBase k x s).primer = s.primer := (rfl)
@[simp] theorem setBase_calDue (k : Nat) (x : Timebase) (s : State) : (setBase k x s).calDue = s.calDue := (rfl)
@[simp] theorem setBase_journal (k : Nat) (x : Timebase) (s : State) : (setBase k x s).journal = s.journal := (rfl)
@[simp] theorem setBase_images (k : Nat) (x : Timebase) (s : State) : (setBase k x s).images = s.images := (rfl)
@[simp] theorem setBase_loaded (k : Nat) (x : Timebase) (s : State) : (setBase k x s).loaded = s.loaded := (rfl)
@[simp] theorem setBase_taken (k : Nat) (x : Timebase) (s : State) : (setBase k x s).taken = s.taken := (rfl)
@[simp] theorem setBase_tap (k : Nat) (x : Timebase) (s : State) : (setBase k x s).tap = s.tap := (rfl)
@[simp] theorem setBase_tapFault (k : Nat) (x : Timebase) (s : State) : (setBase k x s).tapFault = s.tapFault := (rfl)
@[simp] theorem chan_setBase (k : Nat) (x : Timebase) (j : Nat) (s : State) : chan (setBase k x s) j = chan s j := (rfl)
@[simp] theorem dom_setBase (k : Nat) (x : Timebase) (j : Nat) (s : State) : dom (setBase k x s) j = dom s j := (rfl)
@[simp] theorem eng_setBase (k : Nat) (x : Timebase) (j : Nat) (s : State) : eng (setBase k x s) j = eng s j := (rfl)
@[simp] theorem lane_setBase (k : Nat) (x : Timebase) (j : Nat) (s : State) : lane (setBase k x s) j = lane s j := (rfl)
@[simp] theorem store_setBase (k : Nat) (x : Timebase) (j : Nat) (s : State) : store (setBase k x s) j = store s j := (rfl)
@[simp] theorem seqAt_setBase (k : Nat) (x : Timebase) (j : Nat) (s : State) : seqAt (setBase k x s) j = seqAt s j := (rfl)
@[simp] theorem failPipe_setBase (k : Nat) (x : Timebase) (j : Nat) (s : State) : failPipe (setBase k x s) j = failPipe s j := (rfl)
@[simp] theorem weld_setBase (k : Nat) (x : Timebase) (j : Nat) (s : State) : weld (setBase k x s) j = weld s j := (rfl)
@[simp] theorem memByte_setBase (k : Nat) (x : Timebase) (j : Nat) (s : State) : memByte (setBase k x s) j = memByte s j := (rfl)
@[simp] theorem anvEntry_setBase (k : Nat) (x : Timebase) (j : Nat) (s : State) : anvEntry (setBase k x s) j = anvEntry s j := (rfl)
@[simp] theorem port_setBase (k : Nat) (x : Timebase) (j : Nat) (s : State) : port (setBase k x s) j = port s j := (rfl)
@[simp] theorem hangSlot_setBase (k : Nat) (x : Timebase) (j : Nat) (s : State) : hangSlot (setBase k x s) j = hangSlot s j := (rfl)
@[simp] theorem tgChan_setBase (k : Nat) (x : Timebase) (j : Nat) (s : State) : tgChan (setBase k x s) j = tgChan s j := (rfl)
@[simp] theorem bucket_setBase (k : Nat) (x : Timebase) (j : Nat) (s : State) : bucket (setBase k x s) j = bucket s j := (rfl)
@[simp] theorem domLost_setBase (k : Nat) (x : Timebase) (j : Nat) (s : State) : domLost (setBase k x s) j = domLost s j := (rfl)
@[simp] theorem canvasSet_setBase (k : Nat) (x : Timebase) (p o : Nat) (s : State) : canvasSet (setBase k x s) p o = canvasSet s p o := (rfl)
@[simp] theorem rdRole_setBase (k : Nat) (x : Timebase) (e : Bool) (p o : Nat) (s : State) : rdRole (setBase k x s) e p o = rdRole s e p o := (rfl)
@[simp] theorem rdReg_setBase (k : Nat) (x : Timebase) (p o : Nat) (s : State) : rdReg (setBase k x s) p o = rdReg s p o := (rfl)
@[simp] theorem roleKey_setBase (k : Nat) (x : Timebase) (e : Bool) (p o : Nat) (s : State) : roleKey (setBase k x s) e p o = roleKey s e p o := (rfl)
@[simp] theorem inForce_setBase (k : Nat) (x : Timebase) (p o : Nat) (s : State) : inForce (setBase k x s) p o = inForce s p o := (rfl)
@[simp] theorem hangArmed_setBase (k : Nat) (x : Timebase) (p : Nat) (s : State) : hangArmed (setBase k x s) p = hangArmed s p := (rfl)
@[simp] theorem modBase_pending (k : Nat) (f : Timebase → Timebase) (s : State) : (modBase k f s).pending = s.pending := (rfl)
@[simp] theorem modBase_now (k : Nat) (f : Timebase → Timebase) (s : State) : (modBase k f s).now = s.now := (rfl)
@[simp] theorem modBase_free (k : Nat) (f : Timebase → Timebase) (s : State) : (modBase k f s).free = s.free := (rfl)
@[simp] theorem modBase_outbox (k : Nat) (f : Timebase → Timebase) (s : State) : (modBase k f s).outbox = s.outbox := (rfl)
@[simp] theorem modBase_regs (k : Nat) (f : Timebase → Timebase) (s : State) : (modBase k f s).regs = s.regs := (rfl)
@[simp] theorem modBase_swapped (k : Nat) (f : Timebase → Timebase) (s : State) : (modBase k f s).swapped = s.swapped := (rfl)
@[simp] theorem modBase_calSwapped (k : Nat) (f : Timebase → Timebase) (s : State) : (modBase k f s).calSwapped = s.calSwapped := (rfl)
@[simp] theorem modBase_held (k : Nat) (f : Timebase → Timebase) (s : State) : (modBase k f s).held = s.held := (rfl)
@[simp] theorem modBase_wms (k : Nat) (f : Timebase → Timebase) (s : State) : (modBase k f s).wms = s.wms := (rfl)
@[simp] theorem modBase_irqOut (k : Nat) (f : Timebase → Timebase) (s : State) : (modBase k f s).irqOut = s.irqOut := (rfl)
@[simp] theorem modBase_msixDue (k : Nat) (f : Timebase → Timebase) (s : State) : (modBase k f s).msixDue = s.msixDue := (rfl)
@[simp] theorem modBase_pal (k : Nat) (f : Timebase → Timebase) (s : State) : (modBase k f s).pal = s.pal := (rfl)
@[simp] theorem modBase_palHeld (k : Nat) (f : Timebase → Timebase) (s : State) : (modBase k f s).palHeld = s.palHeld := (rfl)
@[simp] theorem modBase_palCmds (k : Nat) (f : Timebase → Timebase) (s : State) : (modBase k f s).palCmds = s.palCmds := (rfl)
@[simp] theorem modBase_chans (k : Nat) (f : Timebase → Timebase) (s : State) : (modBase k f s).chans = s.chans := (rfl)
@[simp] theorem modBase_tables (k : Nat) (f : Timebase → Timebase) (s : State) : (modBase k f s).tables = s.tables := (rfl)
@[simp] theorem modBase_doms (k : Nat) (f : Timebase → Timebase) (s : State) : (modBase k f s).doms = s.doms := (rfl)
@[simp] theorem modBase_pins (k : Nat) (f : Timebase → Timebase) (s : State) : (modBase k f s).pins = s.pins := (rfl)
@[simp] theorem modBase_lifecycle (k : Nat) (f : Timebase → Timebase) (s : State) : (modBase k f s).lifecycle = s.lifecycle := (rfl)
@[simp] theorem modBase_keyFused (k : Nat) (f : Timebase → Timebase) (s : State) : (modBase k f s).keyFused = s.keyFused := (rfl)
@[simp] theorem modBase_reports (k : Nat) (f : Timebase → Timebase) (s : State) : (modBase k f s).reports = s.reports := (rfl)
@[simp] theorem modBase_anvil (k : Nat) (f : Timebase → Timebase) (s : State) : (modBase k f s).anvil = s.anvil := (rfl)
@[simp] theorem modBase_nextFid (k : Nat) (f : Timebase → Timebase) (s : State) : (modBase k f s).nextFid = s.nextFid := (rfl)
@[simp] theorem modBase_corrected (k : Nat) (f : Timebase → Timebase) (s : State) : (modBase k f s).corrected = s.corrected := (rfl)
@[simp] theorem modBase_mem (k : Nat) (f : Timebase → Timebase) (s : State) : (modBase k f s).mem = s.mem := (rfl)
@[simp] theorem modBase_trans (k : Nat) (f : Timebase → Timebase) (s : State) : (modBase k f s).trans = s.trans := (rfl)
@[simp] theorem modBase_replies (k : Nat) (f : Timebase → Timebase) (s : State) : (modBase k f s).replies = s.replies := (rfl)
@[simp] theorem modBase_power (k : Nat) (f : Timebase → Timebase) (s : State) : (modBase k f s).power = s.power := (rfl)
@[simp] theorem modBase_granted (k : Nat) (f : Timebase → Timebase) (s : State) : (modBase k f s).granted = s.granted := (rfl)
@[simp] theorem modBase_tongs (k : Nat) (f : Timebase → Timebase) (s : State) : (modBase k f s).tongs = s.tongs := (rfl)
@[simp] theorem modBase_tongsLast (k : Nat) (f : Timebase → Timebase) (s : State) : (modBase k f s).tongsLast = s.tongsLast := (rfl)
@[simp] theorem modBase_mramLines (k : Nat) (f : Timebase → Timebase) (s : State) : (modBase k f s).mramLines = s.mramLines := (rfl)
@[simp] theorem modBase_mramGap (k : Nat) (f : Timebase → Timebase) (s : State) : (modBase k f s).mramGap = s.mramGap := (rfl)
@[simp] theorem modBase_hang (k : Nat) (f : Timebase → Timebase) (s : State) : (modBase k f s).hang = s.hang := (rfl)
@[simp] theorem modBase_hangAsk (k : Nat) (f : Timebase → Timebase) (s : State) : (modBase k f s).hangAsk = s.hangAsk := (rfl)
@[simp] theorem modBase_fabHangAsk (k : Nat) (f : Timebase → Timebase) (s : State) : (modBase k f s).fabHangAsk = s.fabHangAsk := (rfl)
@[simp] theorem modBase_copies (k : Nat) (f : Timebase → Timebase) (s : State) : (modBase k f s).copies = s.copies := (rfl)
@[simp] theorem modBase_fstat (k : Nat) (f : Timebase → Timebase) (s : State) : (modBase k f s).fstat = s.fstat := (rfl)
@[simp] theorem modBase_snap (k : Nat) (f : Timebase → Timebase) (s : State) : (modBase k f s).snap = s.snap := (rfl)
@[simp] theorem modBase_engines (k : Nat) (f : Timebase → Timebase) (s : State) : (modBase k f s).engines = s.engines := (rfl)
@[simp] theorem modBase_stale (k : Nat) (f : Timebase → Timebase) (s : State) : (modBase k f s).stale = s.stale := (rfl)
@[simp] theorem modBase_lanes (k : Nat) (f : Timebase → Timebase) (s : State) : (modBase k f s).lanes = s.lanes := (rfl)
@[simp] theorem modBase_stores (k : Nat) (f : Timebase → Timebase) (s : State) : (modBase k f s).stores = s.stores := (rfl)
@[simp] theorem modBase_seqs (k : Nat) (f : Timebase → Timebase) (s : State) : (modBase k f s).seqs = s.seqs := (rfl)
@[simp] theorem modBase_fails (k : Nat) (f : Timebase → Timebase) (s : State) : (modBase k f s).fails = s.fails := (rfl)
@[simp] theorem modBase_welds (k : Nat) (f : Timebase → Timebase) (s : State) : (modBase k f s).welds = s.welds := (rfl)
@[simp] theorem modBase_patina (k : Nat) (f : Timebase → Timebase) (s : State) : (modBase k f s).patina = s.patina := (rfl)
@[simp] theorem modBase_wiping (k : Nat) (f : Timebase → Timebase) (s : State) : (modBase k f s).wiping = s.wiping := (rfl)
@[simp] theorem modBase_ports (k : Nat) (f : Timebase → Timebase) (s : State) : (modBase k f s).ports = s.ports := (rfl)
@[simp] theorem modBase_fabric (k : Nat) (f : Timebase → Timebase) (s : State) : (modBase k f s).fabric = s.fabric := (rfl)
@[simp] theorem modBase_pcie (k : Nat) (f : Timebase → Timebase) (s : State) : (modBase k f s).pcie = s.pcie := (rfl)
@[simp] theorem modBase_thermal (k : Nat) (f : Timebase → Timebase) (s : State) : (modBase k f s).thermal = s.thermal := (rfl)
@[simp] theorem modBase_bellows (k : Nat) (f : Timebase → Timebase) (s : State) : (modBase k f s).bellows = s.bellows := (rfl)
@[simp] theorem modBase_temper (k : Nat) (f : Timebase → Timebase) (s : State) : (modBase k f s).temper = s.temper := (rfl)
@[simp] theorem modBase_primer (k : Nat) (f : Timebase → Timebase) (s : State) : (modBase k f s).primer = s.primer := (rfl)
@[simp] theorem modBase_calDue (k : Nat) (f : Timebase → Timebase) (s : State) : (modBase k f s).calDue = s.calDue := (rfl)
@[simp] theorem modBase_journal (k : Nat) (f : Timebase → Timebase) (s : State) : (modBase k f s).journal = s.journal := (rfl)
@[simp] theorem modBase_images (k : Nat) (f : Timebase → Timebase) (s : State) : (modBase k f s).images = s.images := (rfl)
@[simp] theorem modBase_loaded (k : Nat) (f : Timebase → Timebase) (s : State) : (modBase k f s).loaded = s.loaded := (rfl)
@[simp] theorem modBase_taken (k : Nat) (f : Timebase → Timebase) (s : State) : (modBase k f s).taken = s.taken := (rfl)
@[simp] theorem modBase_tap (k : Nat) (f : Timebase → Timebase) (s : State) : (modBase k f s).tap = s.tap := (rfl)
@[simp] theorem modBase_tapFault (k : Nat) (f : Timebase → Timebase) (s : State) : (modBase k f s).tapFault = s.tapFault := (rfl)
@[simp] theorem chan_modBase (k : Nat) (f : Timebase → Timebase) (j : Nat) (s : State) : chan (modBase k f s) j = chan s j := (rfl)
@[simp] theorem dom_modBase (k : Nat) (f : Timebase → Timebase) (j : Nat) (s : State) : dom (modBase k f s) j = dom s j := (rfl)
@[simp] theorem eng_modBase (k : Nat) (f : Timebase → Timebase) (j : Nat) (s : State) : eng (modBase k f s) j = eng s j := (rfl)
@[simp] theorem lane_modBase (k : Nat) (f : Timebase → Timebase) (j : Nat) (s : State) : lane (modBase k f s) j = lane s j := (rfl)
@[simp] theorem store_modBase (k : Nat) (f : Timebase → Timebase) (j : Nat) (s : State) : store (modBase k f s) j = store s j := (rfl)
@[simp] theorem seqAt_modBase (k : Nat) (f : Timebase → Timebase) (j : Nat) (s : State) : seqAt (modBase k f s) j = seqAt s j := (rfl)
@[simp] theorem failPipe_modBase (k : Nat) (f : Timebase → Timebase) (j : Nat) (s : State) : failPipe (modBase k f s) j = failPipe s j := (rfl)
@[simp] theorem weld_modBase (k : Nat) (f : Timebase → Timebase) (j : Nat) (s : State) : weld (modBase k f s) j = weld s j := (rfl)
@[simp] theorem memByte_modBase (k : Nat) (f : Timebase → Timebase) (j : Nat) (s : State) : memByte (modBase k f s) j = memByte s j := (rfl)
@[simp] theorem anvEntry_modBase (k : Nat) (f : Timebase → Timebase) (j : Nat) (s : State) : anvEntry (modBase k f s) j = anvEntry s j := (rfl)
@[simp] theorem port_modBase (k : Nat) (f : Timebase → Timebase) (j : Nat) (s : State) : port (modBase k f s) j = port s j := (rfl)
@[simp] theorem hangSlot_modBase (k : Nat) (f : Timebase → Timebase) (j : Nat) (s : State) : hangSlot (modBase k f s) j = hangSlot s j := (rfl)
@[simp] theorem tgChan_modBase (k : Nat) (f : Timebase → Timebase) (j : Nat) (s : State) : tgChan (modBase k f s) j = tgChan s j := (rfl)
@[simp] theorem bucket_modBase (k : Nat) (f : Timebase → Timebase) (j : Nat) (s : State) : bucket (modBase k f s) j = bucket s j := (rfl)
@[simp] theorem domLost_modBase (k : Nat) (f : Timebase → Timebase) (j : Nat) (s : State) : domLost (modBase k f s) j = domLost s j := (rfl)
@[simp] theorem canvasSet_modBase (k : Nat) (f : Timebase → Timebase) (p o : Nat) (s : State) : canvasSet (modBase k f s) p o = canvasSet s p o := (rfl)
@[simp] theorem rdRole_modBase (k : Nat) (f : Timebase → Timebase) (e : Bool) (p o : Nat) (s : State) : rdRole (modBase k f s) e p o = rdRole s e p o := (rfl)
@[simp] theorem rdReg_modBase (k : Nat) (f : Timebase → Timebase) (p o : Nat) (s : State) : rdReg (modBase k f s) p o = rdReg s p o := (rfl)
@[simp] theorem roleKey_modBase (k : Nat) (f : Timebase → Timebase) (e : Bool) (p o : Nat) (s : State) : roleKey (modBase k f s) e p o = roleKey s e p o := (rfl)
@[simp] theorem inForce_modBase (k : Nat) (f : Timebase → Timebase) (p o : Nat) (s : State) : inForce (modBase k f s) p o = inForce s p o := (rfl)
@[simp] theorem hangArmed_modBase (k : Nat) (f : Timebase → Timebase) (p : Nat) (s : State) : hangArmed (modBase k f s) p = hangArmed s p := (rfl)
@[simp] theorem setDom_pending (d : Nat) (x : Domain) (s : State) : (setDom d x s).pending = s.pending := (rfl)
@[simp] theorem setDom_now (d : Nat) (x : Domain) (s : State) : (setDom d x s).now = s.now := (rfl)
@[simp] theorem setDom_free (d : Nat) (x : Domain) (s : State) : (setDom d x s).free = s.free := (rfl)
@[simp] theorem setDom_outbox (d : Nat) (x : Domain) (s : State) : (setDom d x s).outbox = s.outbox := (rfl)
@[simp] theorem setDom_regs (d : Nat) (x : Domain) (s : State) : (setDom d x s).regs = s.regs := (rfl)
@[simp] theorem setDom_swapped (d : Nat) (x : Domain) (s : State) : (setDom d x s).swapped = s.swapped := (rfl)
@[simp] theorem setDom_calSwapped (d : Nat) (x : Domain) (s : State) : (setDom d x s).calSwapped = s.calSwapped := (rfl)
@[simp] theorem setDom_held (d : Nat) (x : Domain) (s : State) : (setDom d x s).held = s.held := (rfl)
@[simp] theorem setDom_wms (d : Nat) (x : Domain) (s : State) : (setDom d x s).wms = s.wms := (rfl)
@[simp] theorem setDom_irqOut (d : Nat) (x : Domain) (s : State) : (setDom d x s).irqOut = s.irqOut := (rfl)
@[simp] theorem setDom_msixDue (d : Nat) (x : Domain) (s : State) : (setDom d x s).msixDue = s.msixDue := (rfl)
@[simp] theorem setDom_pal (d : Nat) (x : Domain) (s : State) : (setDom d x s).pal = s.pal := (rfl)
@[simp] theorem setDom_palHeld (d : Nat) (x : Domain) (s : State) : (setDom d x s).palHeld = s.palHeld := (rfl)
@[simp] theorem setDom_palCmds (d : Nat) (x : Domain) (s : State) : (setDom d x s).palCmds = s.palCmds := (rfl)
@[simp] theorem setDom_chans (d : Nat) (x : Domain) (s : State) : (setDom d x s).chans = s.chans := (rfl)
@[simp] theorem setDom_bases (d : Nat) (x : Domain) (s : State) : (setDom d x s).bases = s.bases := (rfl)
@[simp] theorem setDom_tables (d : Nat) (x : Domain) (s : State) : (setDom d x s).tables = s.tables := (rfl)
@[simp] theorem setDom_pins (d : Nat) (x : Domain) (s : State) : (setDom d x s).pins = s.pins := (rfl)
@[simp] theorem setDom_lifecycle (d : Nat) (x : Domain) (s : State) : (setDom d x s).lifecycle = s.lifecycle := (rfl)
@[simp] theorem setDom_keyFused (d : Nat) (x : Domain) (s : State) : (setDom d x s).keyFused = s.keyFused := (rfl)
@[simp] theorem setDom_reports (d : Nat) (x : Domain) (s : State) : (setDom d x s).reports = s.reports := (rfl)
@[simp] theorem setDom_anvil (d : Nat) (x : Domain) (s : State) : (setDom d x s).anvil = s.anvil := (rfl)
@[simp] theorem setDom_nextFid (d : Nat) (x : Domain) (s : State) : (setDom d x s).nextFid = s.nextFid := (rfl)
@[simp] theorem setDom_corrected (d : Nat) (x : Domain) (s : State) : (setDom d x s).corrected = s.corrected := (rfl)
@[simp] theorem setDom_mem (d : Nat) (x : Domain) (s : State) : (setDom d x s).mem = s.mem := (rfl)
@[simp] theorem setDom_trans (d : Nat) (x : Domain) (s : State) : (setDom d x s).trans = s.trans := (rfl)
@[simp] theorem setDom_replies (d : Nat) (x : Domain) (s : State) : (setDom d x s).replies = s.replies := (rfl)
@[simp] theorem setDom_power (d : Nat) (x : Domain) (s : State) : (setDom d x s).power = s.power := (rfl)
@[simp] theorem setDom_granted (d : Nat) (x : Domain) (s : State) : (setDom d x s).granted = s.granted := (rfl)
@[simp] theorem setDom_tongs (d : Nat) (x : Domain) (s : State) : (setDom d x s).tongs = s.tongs := (rfl)
@[simp] theorem setDom_tongsLast (d : Nat) (x : Domain) (s : State) : (setDom d x s).tongsLast = s.tongsLast := (rfl)
@[simp] theorem setDom_mramLines (d : Nat) (x : Domain) (s : State) : (setDom d x s).mramLines = s.mramLines := (rfl)
@[simp] theorem setDom_mramGap (d : Nat) (x : Domain) (s : State) : (setDom d x s).mramGap = s.mramGap := (rfl)
@[simp] theorem setDom_hang (d : Nat) (x : Domain) (s : State) : (setDom d x s).hang = s.hang := (rfl)
@[simp] theorem setDom_hangAsk (d : Nat) (x : Domain) (s : State) : (setDom d x s).hangAsk = s.hangAsk := (rfl)
@[simp] theorem setDom_fabHangAsk (d : Nat) (x : Domain) (s : State) : (setDom d x s).fabHangAsk = s.fabHangAsk := (rfl)
@[simp] theorem setDom_copies (d : Nat) (x : Domain) (s : State) : (setDom d x s).copies = s.copies := (rfl)
@[simp] theorem setDom_fstat (d : Nat) (x : Domain) (s : State) : (setDom d x s).fstat = s.fstat := (rfl)
@[simp] theorem setDom_snap (d : Nat) (x : Domain) (s : State) : (setDom d x s).snap = s.snap := (rfl)
@[simp] theorem setDom_engines (d : Nat) (x : Domain) (s : State) : (setDom d x s).engines = s.engines := (rfl)
@[simp] theorem setDom_stale (d : Nat) (x : Domain) (s : State) : (setDom d x s).stale = s.stale := (rfl)
@[simp] theorem setDom_lanes (d : Nat) (x : Domain) (s : State) : (setDom d x s).lanes = s.lanes := (rfl)
@[simp] theorem setDom_stores (d : Nat) (x : Domain) (s : State) : (setDom d x s).stores = s.stores := (rfl)
@[simp] theorem setDom_seqs (d : Nat) (x : Domain) (s : State) : (setDom d x s).seqs = s.seqs := (rfl)
@[simp] theorem setDom_fails (d : Nat) (x : Domain) (s : State) : (setDom d x s).fails = s.fails := (rfl)
@[simp] theorem setDom_welds (d : Nat) (x : Domain) (s : State) : (setDom d x s).welds = s.welds := (rfl)
@[simp] theorem setDom_patina (d : Nat) (x : Domain) (s : State) : (setDom d x s).patina = s.patina := (rfl)
@[simp] theorem setDom_wiping (d : Nat) (x : Domain) (s : State) : (setDom d x s).wiping = s.wiping := (rfl)
@[simp] theorem setDom_ports (d : Nat) (x : Domain) (s : State) : (setDom d x s).ports = s.ports := (rfl)
@[simp] theorem setDom_fabric (d : Nat) (x : Domain) (s : State) : (setDom d x s).fabric = s.fabric := (rfl)
@[simp] theorem setDom_pcie (d : Nat) (x : Domain) (s : State) : (setDom d x s).pcie = s.pcie := (rfl)
@[simp] theorem setDom_thermal (d : Nat) (x : Domain) (s : State) : (setDom d x s).thermal = s.thermal := (rfl)
@[simp] theorem setDom_bellows (d : Nat) (x : Domain) (s : State) : (setDom d x s).bellows = s.bellows := (rfl)
@[simp] theorem setDom_temper (d : Nat) (x : Domain) (s : State) : (setDom d x s).temper = s.temper := (rfl)
@[simp] theorem setDom_primer (d : Nat) (x : Domain) (s : State) : (setDom d x s).primer = s.primer := (rfl)
@[simp] theorem setDom_calDue (d : Nat) (x : Domain) (s : State) : (setDom d x s).calDue = s.calDue := (rfl)
@[simp] theorem setDom_journal (d : Nat) (x : Domain) (s : State) : (setDom d x s).journal = s.journal := (rfl)
@[simp] theorem setDom_images (d : Nat) (x : Domain) (s : State) : (setDom d x s).images = s.images := (rfl)
@[simp] theorem setDom_loaded (d : Nat) (x : Domain) (s : State) : (setDom d x s).loaded = s.loaded := (rfl)
@[simp] theorem setDom_taken (d : Nat) (x : Domain) (s : State) : (setDom d x s).taken = s.taken := (rfl)
@[simp] theorem setDom_tap (d : Nat) (x : Domain) (s : State) : (setDom d x s).tap = s.tap := (rfl)
@[simp] theorem setDom_tapFault (d : Nat) (x : Domain) (s : State) : (setDom d x s).tapFault = s.tapFault := (rfl)
@[simp] theorem chan_setDom (d : Nat) (x : Domain) (j : Nat) (s : State) : chan (setDom d x s) j = chan s j := (rfl)
@[simp] theorem base_setDom (d : Nat) (x : Domain) (j : Nat) (s : State) : base (setDom d x s) j = base s j := (rfl)
@[simp] theorem eng_setDom (d : Nat) (x : Domain) (j : Nat) (s : State) : eng (setDom d x s) j = eng s j := (rfl)
@[simp] theorem lane_setDom (d : Nat) (x : Domain) (j : Nat) (s : State) : lane (setDom d x s) j = lane s j := (rfl)
@[simp] theorem store_setDom (d : Nat) (x : Domain) (j : Nat) (s : State) : store (setDom d x s) j = store s j := (rfl)
@[simp] theorem seqAt_setDom (d : Nat) (x : Domain) (j : Nat) (s : State) : seqAt (setDom d x s) j = seqAt s j := (rfl)
@[simp] theorem failPipe_setDom (d : Nat) (x : Domain) (j : Nat) (s : State) : failPipe (setDom d x s) j = failPipe s j := (rfl)
@[simp] theorem weld_setDom (d : Nat) (x : Domain) (j : Nat) (s : State) : weld (setDom d x s) j = weld s j := (rfl)
@[simp] theorem memByte_setDom (d : Nat) (x : Domain) (j : Nat) (s : State) : memByte (setDom d x s) j = memByte s j := (rfl)
@[simp] theorem anvEntry_setDom (d : Nat) (x : Domain) (j : Nat) (s : State) : anvEntry (setDom d x s) j = anvEntry s j := (rfl)
@[simp] theorem port_setDom (d : Nat) (x : Domain) (j : Nat) (s : State) : port (setDom d x s) j = port s j := (rfl)
@[simp] theorem hangSlot_setDom (d : Nat) (x : Domain) (j : Nat) (s : State) : hangSlot (setDom d x s) j = hangSlot s j := (rfl)
@[simp] theorem tgChan_setDom (d : Nat) (x : Domain) (j : Nat) (s : State) : tgChan (setDom d x s) j = tgChan s j := (rfl)
@[simp] theorem bucket_setDom (d : Nat) (x : Domain) (j : Nat) (s : State) : bucket (setDom d x s) j = bucket s j := (rfl)
@[simp] theorem canvasSet_setDom (d : Nat) (x : Domain) (p o : Nat) (s : State) : canvasSet (setDom d x s) p o = canvasSet s p o := (rfl)
@[simp] theorem rdRole_setDom (d : Nat) (x : Domain) (e : Bool) (p o : Nat) (s : State) : rdRole (setDom d x s) e p o = rdRole s e p o := (rfl)
@[simp] theorem rdReg_setDom (d : Nat) (x : Domain) (p o : Nat) (s : State) : rdReg (setDom d x s) p o = rdReg s p o := (rfl)
@[simp] theorem roleKey_setDom (d : Nat) (x : Domain) (e : Bool) (p o : Nat) (s : State) : roleKey (setDom d x s) e p o = roleKey s e p o := (rfl)
@[simp] theorem inForce_setDom (d : Nat) (x : Domain) (p o : Nat) (s : State) : inForce (setDom d x s) p o = inForce s p o := (rfl)
@[simp] theorem hangArmed_setDom (d : Nat) (x : Domain) (p : Nat) (s : State) : hangArmed (setDom d x s) p = hangArmed s p := (rfl)
@[simp] theorem setEng_pending (k : Nat) (x : Engine) (s : State) : (setEng k x s).pending = s.pending := (rfl)
@[simp] theorem setEng_now (k : Nat) (x : Engine) (s : State) : (setEng k x s).now = s.now := (rfl)
@[simp] theorem setEng_free (k : Nat) (x : Engine) (s : State) : (setEng k x s).free = s.free := (rfl)
@[simp] theorem setEng_outbox (k : Nat) (x : Engine) (s : State) : (setEng k x s).outbox = s.outbox := (rfl)
@[simp] theorem setEng_regs (k : Nat) (x : Engine) (s : State) : (setEng k x s).regs = s.regs := (rfl)
@[simp] theorem setEng_swapped (k : Nat) (x : Engine) (s : State) : (setEng k x s).swapped = s.swapped := (rfl)
@[simp] theorem setEng_calSwapped (k : Nat) (x : Engine) (s : State) : (setEng k x s).calSwapped = s.calSwapped := (rfl)
@[simp] theorem setEng_held (k : Nat) (x : Engine) (s : State) : (setEng k x s).held = s.held := (rfl)
@[simp] theorem setEng_wms (k : Nat) (x : Engine) (s : State) : (setEng k x s).wms = s.wms := (rfl)
@[simp] theorem setEng_irqOut (k : Nat) (x : Engine) (s : State) : (setEng k x s).irqOut = s.irqOut := (rfl)
@[simp] theorem setEng_msixDue (k : Nat) (x : Engine) (s : State) : (setEng k x s).msixDue = s.msixDue := (rfl)
@[simp] theorem setEng_pal (k : Nat) (x : Engine) (s : State) : (setEng k x s).pal = s.pal := (rfl)
@[simp] theorem setEng_palHeld (k : Nat) (x : Engine) (s : State) : (setEng k x s).palHeld = s.palHeld := (rfl)
@[simp] theorem setEng_palCmds (k : Nat) (x : Engine) (s : State) : (setEng k x s).palCmds = s.palCmds := (rfl)
@[simp] theorem setEng_chans (k : Nat) (x : Engine) (s : State) : (setEng k x s).chans = s.chans := (rfl)
@[simp] theorem setEng_bases (k : Nat) (x : Engine) (s : State) : (setEng k x s).bases = s.bases := (rfl)
@[simp] theorem setEng_tables (k : Nat) (x : Engine) (s : State) : (setEng k x s).tables = s.tables := (rfl)
@[simp] theorem setEng_doms (k : Nat) (x : Engine) (s : State) : (setEng k x s).doms = s.doms := (rfl)
@[simp] theorem setEng_pins (k : Nat) (x : Engine) (s : State) : (setEng k x s).pins = s.pins := (rfl)
@[simp] theorem setEng_lifecycle (k : Nat) (x : Engine) (s : State) : (setEng k x s).lifecycle = s.lifecycle := (rfl)
@[simp] theorem setEng_keyFused (k : Nat) (x : Engine) (s : State) : (setEng k x s).keyFused = s.keyFused := (rfl)
@[simp] theorem setEng_reports (k : Nat) (x : Engine) (s : State) : (setEng k x s).reports = s.reports := (rfl)
@[simp] theorem setEng_anvil (k : Nat) (x : Engine) (s : State) : (setEng k x s).anvil = s.anvil := (rfl)
@[simp] theorem setEng_nextFid (k : Nat) (x : Engine) (s : State) : (setEng k x s).nextFid = s.nextFid := (rfl)
@[simp] theorem setEng_corrected (k : Nat) (x : Engine) (s : State) : (setEng k x s).corrected = s.corrected := (rfl)
@[simp] theorem setEng_mem (k : Nat) (x : Engine) (s : State) : (setEng k x s).mem = s.mem := (rfl)
@[simp] theorem setEng_trans (k : Nat) (x : Engine) (s : State) : (setEng k x s).trans = s.trans := (rfl)
@[simp] theorem setEng_replies (k : Nat) (x : Engine) (s : State) : (setEng k x s).replies = s.replies := (rfl)
@[simp] theorem setEng_power (k : Nat) (x : Engine) (s : State) : (setEng k x s).power = s.power := (rfl)
@[simp] theorem setEng_granted (k : Nat) (x : Engine) (s : State) : (setEng k x s).granted = s.granted := (rfl)
@[simp] theorem setEng_tongs (k : Nat) (x : Engine) (s : State) : (setEng k x s).tongs = s.tongs := (rfl)
@[simp] theorem setEng_tongsLast (k : Nat) (x : Engine) (s : State) : (setEng k x s).tongsLast = s.tongsLast := (rfl)
@[simp] theorem setEng_mramLines (k : Nat) (x : Engine) (s : State) : (setEng k x s).mramLines = s.mramLines := (rfl)
@[simp] theorem setEng_mramGap (k : Nat) (x : Engine) (s : State) : (setEng k x s).mramGap = s.mramGap := (rfl)
@[simp] theorem setEng_hang (k : Nat) (x : Engine) (s : State) : (setEng k x s).hang = s.hang := (rfl)
@[simp] theorem setEng_hangAsk (k : Nat) (x : Engine) (s : State) : (setEng k x s).hangAsk = s.hangAsk := (rfl)
@[simp] theorem setEng_fabHangAsk (k : Nat) (x : Engine) (s : State) : (setEng k x s).fabHangAsk = s.fabHangAsk := (rfl)
@[simp] theorem setEng_copies (k : Nat) (x : Engine) (s : State) : (setEng k x s).copies = s.copies := (rfl)
@[simp] theorem setEng_fstat (k : Nat) (x : Engine) (s : State) : (setEng k x s).fstat = s.fstat := (rfl)
@[simp] theorem setEng_snap (k : Nat) (x : Engine) (s : State) : (setEng k x s).snap = s.snap := (rfl)
@[simp] theorem setEng_stale (k : Nat) (x : Engine) (s : State) : (setEng k x s).stale = s.stale := (rfl)
@[simp] theorem setEng_lanes (k : Nat) (x : Engine) (s : State) : (setEng k x s).lanes = s.lanes := (rfl)
@[simp] theorem setEng_stores (k : Nat) (x : Engine) (s : State) : (setEng k x s).stores = s.stores := (rfl)
@[simp] theorem setEng_seqs (k : Nat) (x : Engine) (s : State) : (setEng k x s).seqs = s.seqs := (rfl)
@[simp] theorem setEng_fails (k : Nat) (x : Engine) (s : State) : (setEng k x s).fails = s.fails := (rfl)
@[simp] theorem setEng_welds (k : Nat) (x : Engine) (s : State) : (setEng k x s).welds = s.welds := (rfl)
@[simp] theorem setEng_patina (k : Nat) (x : Engine) (s : State) : (setEng k x s).patina = s.patina := (rfl)
@[simp] theorem setEng_wiping (k : Nat) (x : Engine) (s : State) : (setEng k x s).wiping = s.wiping := (rfl)
@[simp] theorem setEng_ports (k : Nat) (x : Engine) (s : State) : (setEng k x s).ports = s.ports := (rfl)
@[simp] theorem setEng_fabric (k : Nat) (x : Engine) (s : State) : (setEng k x s).fabric = s.fabric := (rfl)
@[simp] theorem setEng_pcie (k : Nat) (x : Engine) (s : State) : (setEng k x s).pcie = s.pcie := (rfl)
@[simp] theorem setEng_thermal (k : Nat) (x : Engine) (s : State) : (setEng k x s).thermal = s.thermal := (rfl)
@[simp] theorem setEng_bellows (k : Nat) (x : Engine) (s : State) : (setEng k x s).bellows = s.bellows := (rfl)
@[simp] theorem setEng_temper (k : Nat) (x : Engine) (s : State) : (setEng k x s).temper = s.temper := (rfl)
@[simp] theorem setEng_primer (k : Nat) (x : Engine) (s : State) : (setEng k x s).primer = s.primer := (rfl)
@[simp] theorem setEng_calDue (k : Nat) (x : Engine) (s : State) : (setEng k x s).calDue = s.calDue := (rfl)
@[simp] theorem setEng_journal (k : Nat) (x : Engine) (s : State) : (setEng k x s).journal = s.journal := (rfl)
@[simp] theorem setEng_images (k : Nat) (x : Engine) (s : State) : (setEng k x s).images = s.images := (rfl)
@[simp] theorem setEng_loaded (k : Nat) (x : Engine) (s : State) : (setEng k x s).loaded = s.loaded := (rfl)
@[simp] theorem setEng_taken (k : Nat) (x : Engine) (s : State) : (setEng k x s).taken = s.taken := (rfl)
@[simp] theorem setEng_tap (k : Nat) (x : Engine) (s : State) : (setEng k x s).tap = s.tap := (rfl)
@[simp] theorem setEng_tapFault (k : Nat) (x : Engine) (s : State) : (setEng k x s).tapFault = s.tapFault := (rfl)
@[simp] theorem chan_setEng (k : Nat) (x : Engine) (j : Nat) (s : State) : chan (setEng k x s) j = chan s j := (rfl)
@[simp] theorem base_setEng (k : Nat) (x : Engine) (j : Nat) (s : State) : base (setEng k x s) j = base s j := (rfl)
@[simp] theorem dom_setEng (k : Nat) (x : Engine) (j : Nat) (s : State) : dom (setEng k x s) j = dom s j := (rfl)
@[simp] theorem lane_setEng (k : Nat) (x : Engine) (j : Nat) (s : State) : lane (setEng k x s) j = lane s j := (rfl)
@[simp] theorem store_setEng (k : Nat) (x : Engine) (j : Nat) (s : State) : store (setEng k x s) j = store s j := (rfl)
@[simp] theorem seqAt_setEng (k : Nat) (x : Engine) (j : Nat) (s : State) : seqAt (setEng k x s) j = seqAt s j := (rfl)
@[simp] theorem failPipe_setEng (k : Nat) (x : Engine) (j : Nat) (s : State) : failPipe (setEng k x s) j = failPipe s j := (rfl)
@[simp] theorem weld_setEng (k : Nat) (x : Engine) (j : Nat) (s : State) : weld (setEng k x s) j = weld s j := (rfl)
@[simp] theorem memByte_setEng (k : Nat) (x : Engine) (j : Nat) (s : State) : memByte (setEng k x s) j = memByte s j := (rfl)
@[simp] theorem anvEntry_setEng (k : Nat) (x : Engine) (j : Nat) (s : State) : anvEntry (setEng k x s) j = anvEntry s j := (rfl)
@[simp] theorem port_setEng (k : Nat) (x : Engine) (j : Nat) (s : State) : port (setEng k x s) j = port s j := (rfl)
@[simp] theorem hangSlot_setEng (k : Nat) (x : Engine) (j : Nat) (s : State) : hangSlot (setEng k x s) j = hangSlot s j := (rfl)
@[simp] theorem tgChan_setEng (k : Nat) (x : Engine) (j : Nat) (s : State) : tgChan (setEng k x s) j = tgChan s j := (rfl)
@[simp] theorem bucket_setEng (k : Nat) (x : Engine) (j : Nat) (s : State) : bucket (setEng k x s) j = bucket s j := (rfl)
@[simp] theorem domLost_setEng (k : Nat) (x : Engine) (j : Nat) (s : State) : domLost (setEng k x s) j = domLost s j := (rfl)
@[simp] theorem canvasSet_setEng (k : Nat) (x : Engine) (p o : Nat) (s : State) : canvasSet (setEng k x s) p o = canvasSet s p o := (rfl)
@[simp] theorem rdRole_setEng (k : Nat) (x : Engine) (e : Bool) (p o : Nat) (s : State) : rdRole (setEng k x s) e p o = rdRole s e p o := (rfl)
@[simp] theorem rdReg_setEng (k : Nat) (x : Engine) (p o : Nat) (s : State) : rdReg (setEng k x s) p o = rdReg s p o := (rfl)
@[simp] theorem roleKey_setEng (k : Nat) (x : Engine) (e : Bool) (p o : Nat) (s : State) : roleKey (setEng k x s) e p o = roleKey s e p o := (rfl)
@[simp] theorem inForce_setEng (k : Nat) (x : Engine) (p o : Nat) (s : State) : inForce (setEng k x s) p o = inForce s p o := (rfl)
@[simp] theorem hangArmed_setEng (k : Nat) (x : Engine) (p : Nat) (s : State) : hangArmed (setEng k x s) p = hangArmed s p := (rfl)
@[simp] theorem modEng_pending (k : Nat) (f : Engine → Engine) (s : State) : (modEng k f s).pending = s.pending := (rfl)
@[simp] theorem modEng_now (k : Nat) (f : Engine → Engine) (s : State) : (modEng k f s).now = s.now := (rfl)
@[simp] theorem modEng_free (k : Nat) (f : Engine → Engine) (s : State) : (modEng k f s).free = s.free := (rfl)
@[simp] theorem modEng_outbox (k : Nat) (f : Engine → Engine) (s : State) : (modEng k f s).outbox = s.outbox := (rfl)
@[simp] theorem modEng_regs (k : Nat) (f : Engine → Engine) (s : State) : (modEng k f s).regs = s.regs := (rfl)
@[simp] theorem modEng_swapped (k : Nat) (f : Engine → Engine) (s : State) : (modEng k f s).swapped = s.swapped := (rfl)
@[simp] theorem modEng_calSwapped (k : Nat) (f : Engine → Engine) (s : State) : (modEng k f s).calSwapped = s.calSwapped := (rfl)
@[simp] theorem modEng_held (k : Nat) (f : Engine → Engine) (s : State) : (modEng k f s).held = s.held := (rfl)
@[simp] theorem modEng_wms (k : Nat) (f : Engine → Engine) (s : State) : (modEng k f s).wms = s.wms := (rfl)
@[simp] theorem modEng_irqOut (k : Nat) (f : Engine → Engine) (s : State) : (modEng k f s).irqOut = s.irqOut := (rfl)
@[simp] theorem modEng_msixDue (k : Nat) (f : Engine → Engine) (s : State) : (modEng k f s).msixDue = s.msixDue := (rfl)
@[simp] theorem modEng_pal (k : Nat) (f : Engine → Engine) (s : State) : (modEng k f s).pal = s.pal := (rfl)
@[simp] theorem modEng_palHeld (k : Nat) (f : Engine → Engine) (s : State) : (modEng k f s).palHeld = s.palHeld := (rfl)
@[simp] theorem modEng_palCmds (k : Nat) (f : Engine → Engine) (s : State) : (modEng k f s).palCmds = s.palCmds := (rfl)
@[simp] theorem modEng_chans (k : Nat) (f : Engine → Engine) (s : State) : (modEng k f s).chans = s.chans := (rfl)
@[simp] theorem modEng_bases (k : Nat) (f : Engine → Engine) (s : State) : (modEng k f s).bases = s.bases := (rfl)
@[simp] theorem modEng_tables (k : Nat) (f : Engine → Engine) (s : State) : (modEng k f s).tables = s.tables := (rfl)
@[simp] theorem modEng_doms (k : Nat) (f : Engine → Engine) (s : State) : (modEng k f s).doms = s.doms := (rfl)
@[simp] theorem modEng_pins (k : Nat) (f : Engine → Engine) (s : State) : (modEng k f s).pins = s.pins := (rfl)
@[simp] theorem modEng_lifecycle (k : Nat) (f : Engine → Engine) (s : State) : (modEng k f s).lifecycle = s.lifecycle := (rfl)
@[simp] theorem modEng_keyFused (k : Nat) (f : Engine → Engine) (s : State) : (modEng k f s).keyFused = s.keyFused := (rfl)
@[simp] theorem modEng_reports (k : Nat) (f : Engine → Engine) (s : State) : (modEng k f s).reports = s.reports := (rfl)
@[simp] theorem modEng_anvil (k : Nat) (f : Engine → Engine) (s : State) : (modEng k f s).anvil = s.anvil := (rfl)
@[simp] theorem modEng_nextFid (k : Nat) (f : Engine → Engine) (s : State) : (modEng k f s).nextFid = s.nextFid := (rfl)
@[simp] theorem modEng_corrected (k : Nat) (f : Engine → Engine) (s : State) : (modEng k f s).corrected = s.corrected := (rfl)
@[simp] theorem modEng_mem (k : Nat) (f : Engine → Engine) (s : State) : (modEng k f s).mem = s.mem := (rfl)
@[simp] theorem modEng_trans (k : Nat) (f : Engine → Engine) (s : State) : (modEng k f s).trans = s.trans := (rfl)
@[simp] theorem modEng_replies (k : Nat) (f : Engine → Engine) (s : State) : (modEng k f s).replies = s.replies := (rfl)
@[simp] theorem modEng_power (k : Nat) (f : Engine → Engine) (s : State) : (modEng k f s).power = s.power := (rfl)
@[simp] theorem modEng_granted (k : Nat) (f : Engine → Engine) (s : State) : (modEng k f s).granted = s.granted := (rfl)
@[simp] theorem modEng_tongs (k : Nat) (f : Engine → Engine) (s : State) : (modEng k f s).tongs = s.tongs := (rfl)
@[simp] theorem modEng_tongsLast (k : Nat) (f : Engine → Engine) (s : State) : (modEng k f s).tongsLast = s.tongsLast := (rfl)
@[simp] theorem modEng_mramLines (k : Nat) (f : Engine → Engine) (s : State) : (modEng k f s).mramLines = s.mramLines := (rfl)
@[simp] theorem modEng_mramGap (k : Nat) (f : Engine → Engine) (s : State) : (modEng k f s).mramGap = s.mramGap := (rfl)
@[simp] theorem modEng_hang (k : Nat) (f : Engine → Engine) (s : State) : (modEng k f s).hang = s.hang := (rfl)
@[simp] theorem modEng_hangAsk (k : Nat) (f : Engine → Engine) (s : State) : (modEng k f s).hangAsk = s.hangAsk := (rfl)
@[simp] theorem modEng_fabHangAsk (k : Nat) (f : Engine → Engine) (s : State) : (modEng k f s).fabHangAsk = s.fabHangAsk := (rfl)
@[simp] theorem modEng_copies (k : Nat) (f : Engine → Engine) (s : State) : (modEng k f s).copies = s.copies := (rfl)
@[simp] theorem modEng_fstat (k : Nat) (f : Engine → Engine) (s : State) : (modEng k f s).fstat = s.fstat := (rfl)
@[simp] theorem modEng_snap (k : Nat) (f : Engine → Engine) (s : State) : (modEng k f s).snap = s.snap := (rfl)
@[simp] theorem modEng_stale (k : Nat) (f : Engine → Engine) (s : State) : (modEng k f s).stale = s.stale := (rfl)
@[simp] theorem modEng_lanes (k : Nat) (f : Engine → Engine) (s : State) : (modEng k f s).lanes = s.lanes := (rfl)
@[simp] theorem modEng_stores (k : Nat) (f : Engine → Engine) (s : State) : (modEng k f s).stores = s.stores := (rfl)
@[simp] theorem modEng_seqs (k : Nat) (f : Engine → Engine) (s : State) : (modEng k f s).seqs = s.seqs := (rfl)
@[simp] theorem modEng_fails (k : Nat) (f : Engine → Engine) (s : State) : (modEng k f s).fails = s.fails := (rfl)
@[simp] theorem modEng_welds (k : Nat) (f : Engine → Engine) (s : State) : (modEng k f s).welds = s.welds := (rfl)
@[simp] theorem modEng_patina (k : Nat) (f : Engine → Engine) (s : State) : (modEng k f s).patina = s.patina := (rfl)
@[simp] theorem modEng_wiping (k : Nat) (f : Engine → Engine) (s : State) : (modEng k f s).wiping = s.wiping := (rfl)
@[simp] theorem modEng_ports (k : Nat) (f : Engine → Engine) (s : State) : (modEng k f s).ports = s.ports := (rfl)
@[simp] theorem modEng_fabric (k : Nat) (f : Engine → Engine) (s : State) : (modEng k f s).fabric = s.fabric := (rfl)
@[simp] theorem modEng_pcie (k : Nat) (f : Engine → Engine) (s : State) : (modEng k f s).pcie = s.pcie := (rfl)
@[simp] theorem modEng_thermal (k : Nat) (f : Engine → Engine) (s : State) : (modEng k f s).thermal = s.thermal := (rfl)
@[simp] theorem modEng_bellows (k : Nat) (f : Engine → Engine) (s : State) : (modEng k f s).bellows = s.bellows := (rfl)
@[simp] theorem modEng_temper (k : Nat) (f : Engine → Engine) (s : State) : (modEng k f s).temper = s.temper := (rfl)
@[simp] theorem modEng_primer (k : Nat) (f : Engine → Engine) (s : State) : (modEng k f s).primer = s.primer := (rfl)
@[simp] theorem modEng_calDue (k : Nat) (f : Engine → Engine) (s : State) : (modEng k f s).calDue = s.calDue := (rfl)
@[simp] theorem modEng_journal (k : Nat) (f : Engine → Engine) (s : State) : (modEng k f s).journal = s.journal := (rfl)
@[simp] theorem modEng_images (k : Nat) (f : Engine → Engine) (s : State) : (modEng k f s).images = s.images := (rfl)
@[simp] theorem modEng_loaded (k : Nat) (f : Engine → Engine) (s : State) : (modEng k f s).loaded = s.loaded := (rfl)
@[simp] theorem modEng_taken (k : Nat) (f : Engine → Engine) (s : State) : (modEng k f s).taken = s.taken := (rfl)
@[simp] theorem modEng_tap (k : Nat) (f : Engine → Engine) (s : State) : (modEng k f s).tap = s.tap := (rfl)
@[simp] theorem modEng_tapFault (k : Nat) (f : Engine → Engine) (s : State) : (modEng k f s).tapFault = s.tapFault := (rfl)
@[simp] theorem chan_modEng (k : Nat) (f : Engine → Engine) (j : Nat) (s : State) : chan (modEng k f s) j = chan s j := (rfl)
@[simp] theorem base_modEng (k : Nat) (f : Engine → Engine) (j : Nat) (s : State) : base (modEng k f s) j = base s j := (rfl)
@[simp] theorem dom_modEng (k : Nat) (f : Engine → Engine) (j : Nat) (s : State) : dom (modEng k f s) j = dom s j := (rfl)
@[simp] theorem lane_modEng (k : Nat) (f : Engine → Engine) (j : Nat) (s : State) : lane (modEng k f s) j = lane s j := (rfl)
@[simp] theorem store_modEng (k : Nat) (f : Engine → Engine) (j : Nat) (s : State) : store (modEng k f s) j = store s j := (rfl)
@[simp] theorem seqAt_modEng (k : Nat) (f : Engine → Engine) (j : Nat) (s : State) : seqAt (modEng k f s) j = seqAt s j := (rfl)
@[simp] theorem failPipe_modEng (k : Nat) (f : Engine → Engine) (j : Nat) (s : State) : failPipe (modEng k f s) j = failPipe s j := (rfl)
@[simp] theorem weld_modEng (k : Nat) (f : Engine → Engine) (j : Nat) (s : State) : weld (modEng k f s) j = weld s j := (rfl)
@[simp] theorem memByte_modEng (k : Nat) (f : Engine → Engine) (j : Nat) (s : State) : memByte (modEng k f s) j = memByte s j := (rfl)
@[simp] theorem anvEntry_modEng (k : Nat) (f : Engine → Engine) (j : Nat) (s : State) : anvEntry (modEng k f s) j = anvEntry s j := (rfl)
@[simp] theorem port_modEng (k : Nat) (f : Engine → Engine) (j : Nat) (s : State) : port (modEng k f s) j = port s j := (rfl)
@[simp] theorem hangSlot_modEng (k : Nat) (f : Engine → Engine) (j : Nat) (s : State) : hangSlot (modEng k f s) j = hangSlot s j := (rfl)
@[simp] theorem tgChan_modEng (k : Nat) (f : Engine → Engine) (j : Nat) (s : State) : tgChan (modEng k f s) j = tgChan s j := (rfl)
@[simp] theorem bucket_modEng (k : Nat) (f : Engine → Engine) (j : Nat) (s : State) : bucket (modEng k f s) j = bucket s j := (rfl)
@[simp] theorem domLost_modEng (k : Nat) (f : Engine → Engine) (j : Nat) (s : State) : domLost (modEng k f s) j = domLost s j := (rfl)
@[simp] theorem canvasSet_modEng (k : Nat) (f : Engine → Engine) (p o : Nat) (s : State) : canvasSet (modEng k f s) p o = canvasSet s p o := (rfl)
@[simp] theorem rdRole_modEng (k : Nat) (f : Engine → Engine) (e : Bool) (p o : Nat) (s : State) : rdRole (modEng k f s) e p o = rdRole s e p o := (rfl)
@[simp] theorem rdReg_modEng (k : Nat) (f : Engine → Engine) (p o : Nat) (s : State) : rdReg (modEng k f s) p o = rdReg s p o := (rfl)
@[simp] theorem roleKey_modEng (k : Nat) (f : Engine → Engine) (e : Bool) (p o : Nat) (s : State) : roleKey (modEng k f s) e p o = roleKey s e p o := (rfl)
@[simp] theorem inForce_modEng (k : Nat) (f : Engine → Engine) (p o : Nat) (s : State) : inForce (modEng k f s) p o = inForce s p o := (rfl)
@[simp] theorem hangArmed_modEng (k : Nat) (f : Engine → Engine) (p : Nat) (s : State) : hangArmed (modEng k f s) p = hangArmed s p := (rfl)
@[simp] theorem setLane_pending (l : Nat) (x : Lane) (s : State) : (setLane l x s).pending = s.pending := (rfl)
@[simp] theorem setLane_now (l : Nat) (x : Lane) (s : State) : (setLane l x s).now = s.now := (rfl)
@[simp] theorem setLane_free (l : Nat) (x : Lane) (s : State) : (setLane l x s).free = s.free := (rfl)
@[simp] theorem setLane_outbox (l : Nat) (x : Lane) (s : State) : (setLane l x s).outbox = s.outbox := (rfl)
@[simp] theorem setLane_regs (l : Nat) (x : Lane) (s : State) : (setLane l x s).regs = s.regs := (rfl)
@[simp] theorem setLane_swapped (l : Nat) (x : Lane) (s : State) : (setLane l x s).swapped = s.swapped := (rfl)
@[simp] theorem setLane_calSwapped (l : Nat) (x : Lane) (s : State) : (setLane l x s).calSwapped = s.calSwapped := (rfl)
@[simp] theorem setLane_held (l : Nat) (x : Lane) (s : State) : (setLane l x s).held = s.held := (rfl)
@[simp] theorem setLane_wms (l : Nat) (x : Lane) (s : State) : (setLane l x s).wms = s.wms := (rfl)
@[simp] theorem setLane_irqOut (l : Nat) (x : Lane) (s : State) : (setLane l x s).irqOut = s.irqOut := (rfl)
@[simp] theorem setLane_msixDue (l : Nat) (x : Lane) (s : State) : (setLane l x s).msixDue = s.msixDue := (rfl)
@[simp] theorem setLane_pal (l : Nat) (x : Lane) (s : State) : (setLane l x s).pal = s.pal := (rfl)
@[simp] theorem setLane_palHeld (l : Nat) (x : Lane) (s : State) : (setLane l x s).palHeld = s.palHeld := (rfl)
@[simp] theorem setLane_palCmds (l : Nat) (x : Lane) (s : State) : (setLane l x s).palCmds = s.palCmds := (rfl)
@[simp] theorem setLane_chans (l : Nat) (x : Lane) (s : State) : (setLane l x s).chans = s.chans := (rfl)
@[simp] theorem setLane_bases (l : Nat) (x : Lane) (s : State) : (setLane l x s).bases = s.bases := (rfl)
@[simp] theorem setLane_tables (l : Nat) (x : Lane) (s : State) : (setLane l x s).tables = s.tables := (rfl)
@[simp] theorem setLane_doms (l : Nat) (x : Lane) (s : State) : (setLane l x s).doms = s.doms := (rfl)
@[simp] theorem setLane_pins (l : Nat) (x : Lane) (s : State) : (setLane l x s).pins = s.pins := (rfl)
@[simp] theorem setLane_lifecycle (l : Nat) (x : Lane) (s : State) : (setLane l x s).lifecycle = s.lifecycle := (rfl)
@[simp] theorem setLane_keyFused (l : Nat) (x : Lane) (s : State) : (setLane l x s).keyFused = s.keyFused := (rfl)
@[simp] theorem setLane_reports (l : Nat) (x : Lane) (s : State) : (setLane l x s).reports = s.reports := (rfl)
@[simp] theorem setLane_anvil (l : Nat) (x : Lane) (s : State) : (setLane l x s).anvil = s.anvil := (rfl)
@[simp] theorem setLane_nextFid (l : Nat) (x : Lane) (s : State) : (setLane l x s).nextFid = s.nextFid := (rfl)
@[simp] theorem setLane_corrected (l : Nat) (x : Lane) (s : State) : (setLane l x s).corrected = s.corrected := (rfl)
@[simp] theorem setLane_mem (l : Nat) (x : Lane) (s : State) : (setLane l x s).mem = s.mem := (rfl)
@[simp] theorem setLane_trans (l : Nat) (x : Lane) (s : State) : (setLane l x s).trans = s.trans := (rfl)
@[simp] theorem setLane_replies (l : Nat) (x : Lane) (s : State) : (setLane l x s).replies = s.replies := (rfl)
@[simp] theorem setLane_power (l : Nat) (x : Lane) (s : State) : (setLane l x s).power = s.power := (rfl)
@[simp] theorem setLane_granted (l : Nat) (x : Lane) (s : State) : (setLane l x s).granted = s.granted := (rfl)
@[simp] theorem setLane_tongs (l : Nat) (x : Lane) (s : State) : (setLane l x s).tongs = s.tongs := (rfl)
@[simp] theorem setLane_tongsLast (l : Nat) (x : Lane) (s : State) : (setLane l x s).tongsLast = s.tongsLast := (rfl)
@[simp] theorem setLane_mramLines (l : Nat) (x : Lane) (s : State) : (setLane l x s).mramLines = s.mramLines := (rfl)
@[simp] theorem setLane_mramGap (l : Nat) (x : Lane) (s : State) : (setLane l x s).mramGap = s.mramGap := (rfl)
@[simp] theorem setLane_hang (l : Nat) (x : Lane) (s : State) : (setLane l x s).hang = s.hang := (rfl)
@[simp] theorem setLane_hangAsk (l : Nat) (x : Lane) (s : State) : (setLane l x s).hangAsk = s.hangAsk := (rfl)
@[simp] theorem setLane_fabHangAsk (l : Nat) (x : Lane) (s : State) : (setLane l x s).fabHangAsk = s.fabHangAsk := (rfl)
@[simp] theorem setLane_copies (l : Nat) (x : Lane) (s : State) : (setLane l x s).copies = s.copies := (rfl)
@[simp] theorem setLane_fstat (l : Nat) (x : Lane) (s : State) : (setLane l x s).fstat = s.fstat := (rfl)
@[simp] theorem setLane_snap (l : Nat) (x : Lane) (s : State) : (setLane l x s).snap = s.snap := (rfl)
@[simp] theorem setLane_engines (l : Nat) (x : Lane) (s : State) : (setLane l x s).engines = s.engines := (rfl)
@[simp] theorem setLane_stale (l : Nat) (x : Lane) (s : State) : (setLane l x s).stale = s.stale := (rfl)
@[simp] theorem setLane_stores (l : Nat) (x : Lane) (s : State) : (setLane l x s).stores = s.stores := (rfl)
@[simp] theorem setLane_seqs (l : Nat) (x : Lane) (s : State) : (setLane l x s).seqs = s.seqs := (rfl)
@[simp] theorem setLane_fails (l : Nat) (x : Lane) (s : State) : (setLane l x s).fails = s.fails := (rfl)
@[simp] theorem setLane_welds (l : Nat) (x : Lane) (s : State) : (setLane l x s).welds = s.welds := (rfl)
@[simp] theorem setLane_patina (l : Nat) (x : Lane) (s : State) : (setLane l x s).patina = s.patina := (rfl)
@[simp] theorem setLane_wiping (l : Nat) (x : Lane) (s : State) : (setLane l x s).wiping = s.wiping := (rfl)
@[simp] theorem setLane_ports (l : Nat) (x : Lane) (s : State) : (setLane l x s).ports = s.ports := (rfl)
@[simp] theorem setLane_fabric (l : Nat) (x : Lane) (s : State) : (setLane l x s).fabric = s.fabric := (rfl)
@[simp] theorem setLane_pcie (l : Nat) (x : Lane) (s : State) : (setLane l x s).pcie = s.pcie := (rfl)
@[simp] theorem setLane_thermal (l : Nat) (x : Lane) (s : State) : (setLane l x s).thermal = s.thermal := (rfl)
@[simp] theorem setLane_bellows (l : Nat) (x : Lane) (s : State) : (setLane l x s).bellows = s.bellows := (rfl)
@[simp] theorem setLane_temper (l : Nat) (x : Lane) (s : State) : (setLane l x s).temper = s.temper := (rfl)
@[simp] theorem setLane_primer (l : Nat) (x : Lane) (s : State) : (setLane l x s).primer = s.primer := (rfl)
@[simp] theorem setLane_calDue (l : Nat) (x : Lane) (s : State) : (setLane l x s).calDue = s.calDue := (rfl)
@[simp] theorem setLane_journal (l : Nat) (x : Lane) (s : State) : (setLane l x s).journal = s.journal := (rfl)
@[simp] theorem setLane_images (l : Nat) (x : Lane) (s : State) : (setLane l x s).images = s.images := (rfl)
@[simp] theorem setLane_loaded (l : Nat) (x : Lane) (s : State) : (setLane l x s).loaded = s.loaded := (rfl)
@[simp] theorem setLane_taken (l : Nat) (x : Lane) (s : State) : (setLane l x s).taken = s.taken := (rfl)
@[simp] theorem setLane_tap (l : Nat) (x : Lane) (s : State) : (setLane l x s).tap = s.tap := (rfl)
@[simp] theorem setLane_tapFault (l : Nat) (x : Lane) (s : State) : (setLane l x s).tapFault = s.tapFault := (rfl)
@[simp] theorem chan_setLane (l : Nat) (x : Lane) (j : Nat) (s : State) : chan (setLane l x s) j = chan s j := (rfl)
@[simp] theorem base_setLane (l : Nat) (x : Lane) (j : Nat) (s : State) : base (setLane l x s) j = base s j := (rfl)
@[simp] theorem dom_setLane (l : Nat) (x : Lane) (j : Nat) (s : State) : dom (setLane l x s) j = dom s j := (rfl)
@[simp] theorem eng_setLane (l : Nat) (x : Lane) (j : Nat) (s : State) : eng (setLane l x s) j = eng s j := (rfl)
@[simp] theorem store_setLane (l : Nat) (x : Lane) (j : Nat) (s : State) : store (setLane l x s) j = store s j := (rfl)
@[simp] theorem seqAt_setLane (l : Nat) (x : Lane) (j : Nat) (s : State) : seqAt (setLane l x s) j = seqAt s j := (rfl)
@[simp] theorem failPipe_setLane (l : Nat) (x : Lane) (j : Nat) (s : State) : failPipe (setLane l x s) j = failPipe s j := (rfl)
@[simp] theorem weld_setLane (l : Nat) (x : Lane) (j : Nat) (s : State) : weld (setLane l x s) j = weld s j := (rfl)
@[simp] theorem memByte_setLane (l : Nat) (x : Lane) (j : Nat) (s : State) : memByte (setLane l x s) j = memByte s j := (rfl)
@[simp] theorem anvEntry_setLane (l : Nat) (x : Lane) (j : Nat) (s : State) : anvEntry (setLane l x s) j = anvEntry s j := (rfl)
@[simp] theorem port_setLane (l : Nat) (x : Lane) (j : Nat) (s : State) : port (setLane l x s) j = port s j := (rfl)
@[simp] theorem hangSlot_setLane (l : Nat) (x : Lane) (j : Nat) (s : State) : hangSlot (setLane l x s) j = hangSlot s j := (rfl)
@[simp] theorem tgChan_setLane (l : Nat) (x : Lane) (j : Nat) (s : State) : tgChan (setLane l x s) j = tgChan s j := (rfl)
@[simp] theorem bucket_setLane (l : Nat) (x : Lane) (j : Nat) (s : State) : bucket (setLane l x s) j = bucket s j := (rfl)
@[simp] theorem domLost_setLane (l : Nat) (x : Lane) (j : Nat) (s : State) : domLost (setLane l x s) j = domLost s j := (rfl)
@[simp] theorem canvasSet_setLane (l : Nat) (x : Lane) (p o : Nat) (s : State) : canvasSet (setLane l x s) p o = canvasSet s p o := (rfl)
@[simp] theorem rdRole_setLane (l : Nat) (x : Lane) (e : Bool) (p o : Nat) (s : State) : rdRole (setLane l x s) e p o = rdRole s e p o := (rfl)
@[simp] theorem rdReg_setLane (l : Nat) (x : Lane) (p o : Nat) (s : State) : rdReg (setLane l x s) p o = rdReg s p o := (rfl)
@[simp] theorem roleKey_setLane (l : Nat) (x : Lane) (e : Bool) (p o : Nat) (s : State) : roleKey (setLane l x s) e p o = roleKey s e p o := (rfl)
@[simp] theorem inForce_setLane (l : Nat) (x : Lane) (p o : Nat) (s : State) : inForce (setLane l x s) p o = inForce s p o := (rfl)
@[simp] theorem hangArmed_setLane (l : Nat) (x : Lane) (p : Nat) (s : State) : hangArmed (setLane l x s) p = hangArmed s p := (rfl)
@[simp] theorem modLane_pending (l : Nat) (f : Lane → Lane) (s : State) : (modLane l f s).pending = s.pending := (rfl)
@[simp] theorem modLane_now (l : Nat) (f : Lane → Lane) (s : State) : (modLane l f s).now = s.now := (rfl)
@[simp] theorem modLane_free (l : Nat) (f : Lane → Lane) (s : State) : (modLane l f s).free = s.free := (rfl)
@[simp] theorem modLane_outbox (l : Nat) (f : Lane → Lane) (s : State) : (modLane l f s).outbox = s.outbox := (rfl)
@[simp] theorem modLane_regs (l : Nat) (f : Lane → Lane) (s : State) : (modLane l f s).regs = s.regs := (rfl)
@[simp] theorem modLane_swapped (l : Nat) (f : Lane → Lane) (s : State) : (modLane l f s).swapped = s.swapped := (rfl)
@[simp] theorem modLane_calSwapped (l : Nat) (f : Lane → Lane) (s : State) : (modLane l f s).calSwapped = s.calSwapped := (rfl)
@[simp] theorem modLane_held (l : Nat) (f : Lane → Lane) (s : State) : (modLane l f s).held = s.held := (rfl)
@[simp] theorem modLane_wms (l : Nat) (f : Lane → Lane) (s : State) : (modLane l f s).wms = s.wms := (rfl)
@[simp] theorem modLane_irqOut (l : Nat) (f : Lane → Lane) (s : State) : (modLane l f s).irqOut = s.irqOut := (rfl)
@[simp] theorem modLane_msixDue (l : Nat) (f : Lane → Lane) (s : State) : (modLane l f s).msixDue = s.msixDue := (rfl)
@[simp] theorem modLane_pal (l : Nat) (f : Lane → Lane) (s : State) : (modLane l f s).pal = s.pal := (rfl)
@[simp] theorem modLane_palHeld (l : Nat) (f : Lane → Lane) (s : State) : (modLane l f s).palHeld = s.palHeld := (rfl)
@[simp] theorem modLane_palCmds (l : Nat) (f : Lane → Lane) (s : State) : (modLane l f s).palCmds = s.palCmds := (rfl)
@[simp] theorem modLane_chans (l : Nat) (f : Lane → Lane) (s : State) : (modLane l f s).chans = s.chans := (rfl)
@[simp] theorem modLane_bases (l : Nat) (f : Lane → Lane) (s : State) : (modLane l f s).bases = s.bases := (rfl)
@[simp] theorem modLane_tables (l : Nat) (f : Lane → Lane) (s : State) : (modLane l f s).tables = s.tables := (rfl)
@[simp] theorem modLane_doms (l : Nat) (f : Lane → Lane) (s : State) : (modLane l f s).doms = s.doms := (rfl)
@[simp] theorem modLane_pins (l : Nat) (f : Lane → Lane) (s : State) : (modLane l f s).pins = s.pins := (rfl)
@[simp] theorem modLane_lifecycle (l : Nat) (f : Lane → Lane) (s : State) : (modLane l f s).lifecycle = s.lifecycle := (rfl)
@[simp] theorem modLane_keyFused (l : Nat) (f : Lane → Lane) (s : State) : (modLane l f s).keyFused = s.keyFused := (rfl)
@[simp] theorem modLane_reports (l : Nat) (f : Lane → Lane) (s : State) : (modLane l f s).reports = s.reports := (rfl)
@[simp] theorem modLane_anvil (l : Nat) (f : Lane → Lane) (s : State) : (modLane l f s).anvil = s.anvil := (rfl)
@[simp] theorem modLane_nextFid (l : Nat) (f : Lane → Lane) (s : State) : (modLane l f s).nextFid = s.nextFid := (rfl)
@[simp] theorem modLane_corrected (l : Nat) (f : Lane → Lane) (s : State) : (modLane l f s).corrected = s.corrected := (rfl)
@[simp] theorem modLane_mem (l : Nat) (f : Lane → Lane) (s : State) : (modLane l f s).mem = s.mem := (rfl)
@[simp] theorem modLane_trans (l : Nat) (f : Lane → Lane) (s : State) : (modLane l f s).trans = s.trans := (rfl)
@[simp] theorem modLane_replies (l : Nat) (f : Lane → Lane) (s : State) : (modLane l f s).replies = s.replies := (rfl)
@[simp] theorem modLane_power (l : Nat) (f : Lane → Lane) (s : State) : (modLane l f s).power = s.power := (rfl)
@[simp] theorem modLane_granted (l : Nat) (f : Lane → Lane) (s : State) : (modLane l f s).granted = s.granted := (rfl)
@[simp] theorem modLane_tongs (l : Nat) (f : Lane → Lane) (s : State) : (modLane l f s).tongs = s.tongs := (rfl)
@[simp] theorem modLane_tongsLast (l : Nat) (f : Lane → Lane) (s : State) : (modLane l f s).tongsLast = s.tongsLast := (rfl)
@[simp] theorem modLane_mramLines (l : Nat) (f : Lane → Lane) (s : State) : (modLane l f s).mramLines = s.mramLines := (rfl)
@[simp] theorem modLane_mramGap (l : Nat) (f : Lane → Lane) (s : State) : (modLane l f s).mramGap = s.mramGap := (rfl)
@[simp] theorem modLane_hang (l : Nat) (f : Lane → Lane) (s : State) : (modLane l f s).hang = s.hang := (rfl)
@[simp] theorem modLane_hangAsk (l : Nat) (f : Lane → Lane) (s : State) : (modLane l f s).hangAsk = s.hangAsk := (rfl)
@[simp] theorem modLane_fabHangAsk (l : Nat) (f : Lane → Lane) (s : State) : (modLane l f s).fabHangAsk = s.fabHangAsk := (rfl)
@[simp] theorem modLane_copies (l : Nat) (f : Lane → Lane) (s : State) : (modLane l f s).copies = s.copies := (rfl)
@[simp] theorem modLane_fstat (l : Nat) (f : Lane → Lane) (s : State) : (modLane l f s).fstat = s.fstat := (rfl)
@[simp] theorem modLane_snap (l : Nat) (f : Lane → Lane) (s : State) : (modLane l f s).snap = s.snap := (rfl)
@[simp] theorem modLane_engines (l : Nat) (f : Lane → Lane) (s : State) : (modLane l f s).engines = s.engines := (rfl)
@[simp] theorem modLane_stale (l : Nat) (f : Lane → Lane) (s : State) : (modLane l f s).stale = s.stale := (rfl)
@[simp] theorem modLane_stores (l : Nat) (f : Lane → Lane) (s : State) : (modLane l f s).stores = s.stores := (rfl)
@[simp] theorem modLane_seqs (l : Nat) (f : Lane → Lane) (s : State) : (modLane l f s).seqs = s.seqs := (rfl)
@[simp] theorem modLane_fails (l : Nat) (f : Lane → Lane) (s : State) : (modLane l f s).fails = s.fails := (rfl)
@[simp] theorem modLane_welds (l : Nat) (f : Lane → Lane) (s : State) : (modLane l f s).welds = s.welds := (rfl)
@[simp] theorem modLane_patina (l : Nat) (f : Lane → Lane) (s : State) : (modLane l f s).patina = s.patina := (rfl)
@[simp] theorem modLane_wiping (l : Nat) (f : Lane → Lane) (s : State) : (modLane l f s).wiping = s.wiping := (rfl)
@[simp] theorem modLane_ports (l : Nat) (f : Lane → Lane) (s : State) : (modLane l f s).ports = s.ports := (rfl)
@[simp] theorem modLane_fabric (l : Nat) (f : Lane → Lane) (s : State) : (modLane l f s).fabric = s.fabric := (rfl)
@[simp] theorem modLane_pcie (l : Nat) (f : Lane → Lane) (s : State) : (modLane l f s).pcie = s.pcie := (rfl)
@[simp] theorem modLane_thermal (l : Nat) (f : Lane → Lane) (s : State) : (modLane l f s).thermal = s.thermal := (rfl)
@[simp] theorem modLane_bellows (l : Nat) (f : Lane → Lane) (s : State) : (modLane l f s).bellows = s.bellows := (rfl)
@[simp] theorem modLane_temper (l : Nat) (f : Lane → Lane) (s : State) : (modLane l f s).temper = s.temper := (rfl)
@[simp] theorem modLane_primer (l : Nat) (f : Lane → Lane) (s : State) : (modLane l f s).primer = s.primer := (rfl)
@[simp] theorem modLane_calDue (l : Nat) (f : Lane → Lane) (s : State) : (modLane l f s).calDue = s.calDue := (rfl)
@[simp] theorem modLane_journal (l : Nat) (f : Lane → Lane) (s : State) : (modLane l f s).journal = s.journal := (rfl)
@[simp] theorem modLane_images (l : Nat) (f : Lane → Lane) (s : State) : (modLane l f s).images = s.images := (rfl)
@[simp] theorem modLane_loaded (l : Nat) (f : Lane → Lane) (s : State) : (modLane l f s).loaded = s.loaded := (rfl)
@[simp] theorem modLane_taken (l : Nat) (f : Lane → Lane) (s : State) : (modLane l f s).taken = s.taken := (rfl)
@[simp] theorem modLane_tap (l : Nat) (f : Lane → Lane) (s : State) : (modLane l f s).tap = s.tap := (rfl)
@[simp] theorem modLane_tapFault (l : Nat) (f : Lane → Lane) (s : State) : (modLane l f s).tapFault = s.tapFault := (rfl)
@[simp] theorem chan_modLane (l : Nat) (f : Lane → Lane) (j : Nat) (s : State) : chan (modLane l f s) j = chan s j := (rfl)
@[simp] theorem base_modLane (l : Nat) (f : Lane → Lane) (j : Nat) (s : State) : base (modLane l f s) j = base s j := (rfl)
@[simp] theorem dom_modLane (l : Nat) (f : Lane → Lane) (j : Nat) (s : State) : dom (modLane l f s) j = dom s j := (rfl)
@[simp] theorem eng_modLane (l : Nat) (f : Lane → Lane) (j : Nat) (s : State) : eng (modLane l f s) j = eng s j := (rfl)
@[simp] theorem store_modLane (l : Nat) (f : Lane → Lane) (j : Nat) (s : State) : store (modLane l f s) j = store s j := (rfl)
@[simp] theorem seqAt_modLane (l : Nat) (f : Lane → Lane) (j : Nat) (s : State) : seqAt (modLane l f s) j = seqAt s j := (rfl)
@[simp] theorem failPipe_modLane (l : Nat) (f : Lane → Lane) (j : Nat) (s : State) : failPipe (modLane l f s) j = failPipe s j := (rfl)
@[simp] theorem weld_modLane (l : Nat) (f : Lane → Lane) (j : Nat) (s : State) : weld (modLane l f s) j = weld s j := (rfl)
@[simp] theorem memByte_modLane (l : Nat) (f : Lane → Lane) (j : Nat) (s : State) : memByte (modLane l f s) j = memByte s j := (rfl)
@[simp] theorem anvEntry_modLane (l : Nat) (f : Lane → Lane) (j : Nat) (s : State) : anvEntry (modLane l f s) j = anvEntry s j := (rfl)
@[simp] theorem port_modLane (l : Nat) (f : Lane → Lane) (j : Nat) (s : State) : port (modLane l f s) j = port s j := (rfl)
@[simp] theorem hangSlot_modLane (l : Nat) (f : Lane → Lane) (j : Nat) (s : State) : hangSlot (modLane l f s) j = hangSlot s j := (rfl)
@[simp] theorem tgChan_modLane (l : Nat) (f : Lane → Lane) (j : Nat) (s : State) : tgChan (modLane l f s) j = tgChan s j := (rfl)
@[simp] theorem bucket_modLane (l : Nat) (f : Lane → Lane) (j : Nat) (s : State) : bucket (modLane l f s) j = bucket s j := (rfl)
@[simp] theorem domLost_modLane (l : Nat) (f : Lane → Lane) (j : Nat) (s : State) : domLost (modLane l f s) j = domLost s j := (rfl)
@[simp] theorem canvasSet_modLane (l : Nat) (f : Lane → Lane) (p o : Nat) (s : State) : canvasSet (modLane l f s) p o = canvasSet s p o := (rfl)
@[simp] theorem rdRole_modLane (l : Nat) (f : Lane → Lane) (e : Bool) (p o : Nat) (s : State) : rdRole (modLane l f s) e p o = rdRole s e p o := (rfl)
@[simp] theorem rdReg_modLane (l : Nat) (f : Lane → Lane) (p o : Nat) (s : State) : rdReg (modLane l f s) p o = rdReg s p o := (rfl)
@[simp] theorem roleKey_modLane (l : Nat) (f : Lane → Lane) (e : Bool) (p o : Nat) (s : State) : roleKey (modLane l f s) e p o = roleKey s e p o := (rfl)
@[simp] theorem inForce_modLane (l : Nat) (f : Lane → Lane) (p o : Nat) (s : State) : inForce (modLane l f s) p o = inForce s p o := (rfl)
@[simp] theorem hangArmed_modLane (l : Nat) (f : Lane → Lane) (p : Nat) (s : State) : hangArmed (modLane l f s) p = hangArmed s p := (rfl)
@[simp] theorem setStore_pending (i : Nat) (x : CtlStore) (s : State) : (setStore i x s).pending = s.pending := (rfl)
@[simp] theorem setStore_now (i : Nat) (x : CtlStore) (s : State) : (setStore i x s).now = s.now := (rfl)
@[simp] theorem setStore_free (i : Nat) (x : CtlStore) (s : State) : (setStore i x s).free = s.free := (rfl)
@[simp] theorem setStore_outbox (i : Nat) (x : CtlStore) (s : State) : (setStore i x s).outbox = s.outbox := (rfl)
@[simp] theorem setStore_regs (i : Nat) (x : CtlStore) (s : State) : (setStore i x s).regs = s.regs := (rfl)
@[simp] theorem setStore_swapped (i : Nat) (x : CtlStore) (s : State) : (setStore i x s).swapped = s.swapped := (rfl)
@[simp] theorem setStore_calSwapped (i : Nat) (x : CtlStore) (s : State) : (setStore i x s).calSwapped = s.calSwapped := (rfl)
@[simp] theorem setStore_held (i : Nat) (x : CtlStore) (s : State) : (setStore i x s).held = s.held := (rfl)
@[simp] theorem setStore_wms (i : Nat) (x : CtlStore) (s : State) : (setStore i x s).wms = s.wms := (rfl)
@[simp] theorem setStore_irqOut (i : Nat) (x : CtlStore) (s : State) : (setStore i x s).irqOut = s.irqOut := (rfl)
@[simp] theorem setStore_msixDue (i : Nat) (x : CtlStore) (s : State) : (setStore i x s).msixDue = s.msixDue := (rfl)
@[simp] theorem setStore_pal (i : Nat) (x : CtlStore) (s : State) : (setStore i x s).pal = s.pal := (rfl)
@[simp] theorem setStore_palHeld (i : Nat) (x : CtlStore) (s : State) : (setStore i x s).palHeld = s.palHeld := (rfl)
@[simp] theorem setStore_palCmds (i : Nat) (x : CtlStore) (s : State) : (setStore i x s).palCmds = s.palCmds := (rfl)
@[simp] theorem setStore_chans (i : Nat) (x : CtlStore) (s : State) : (setStore i x s).chans = s.chans := (rfl)
@[simp] theorem setStore_bases (i : Nat) (x : CtlStore) (s : State) : (setStore i x s).bases = s.bases := (rfl)
@[simp] theorem setStore_tables (i : Nat) (x : CtlStore) (s : State) : (setStore i x s).tables = s.tables := (rfl)
@[simp] theorem setStore_doms (i : Nat) (x : CtlStore) (s : State) : (setStore i x s).doms = s.doms := (rfl)
@[simp] theorem setStore_pins (i : Nat) (x : CtlStore) (s : State) : (setStore i x s).pins = s.pins := (rfl)
@[simp] theorem setStore_lifecycle (i : Nat) (x : CtlStore) (s : State) : (setStore i x s).lifecycle = s.lifecycle := (rfl)
@[simp] theorem setStore_keyFused (i : Nat) (x : CtlStore) (s : State) : (setStore i x s).keyFused = s.keyFused := (rfl)
@[simp] theorem setStore_reports (i : Nat) (x : CtlStore) (s : State) : (setStore i x s).reports = s.reports := (rfl)
@[simp] theorem setStore_anvil (i : Nat) (x : CtlStore) (s : State) : (setStore i x s).anvil = s.anvil := (rfl)
@[simp] theorem setStore_nextFid (i : Nat) (x : CtlStore) (s : State) : (setStore i x s).nextFid = s.nextFid := (rfl)
@[simp] theorem setStore_corrected (i : Nat) (x : CtlStore) (s : State) : (setStore i x s).corrected = s.corrected := (rfl)
@[simp] theorem setStore_mem (i : Nat) (x : CtlStore) (s : State) : (setStore i x s).mem = s.mem := (rfl)
@[simp] theorem setStore_trans (i : Nat) (x : CtlStore) (s : State) : (setStore i x s).trans = s.trans := (rfl)
@[simp] theorem setStore_replies (i : Nat) (x : CtlStore) (s : State) : (setStore i x s).replies = s.replies := (rfl)
@[simp] theorem setStore_power (i : Nat) (x : CtlStore) (s : State) : (setStore i x s).power = s.power := (rfl)
@[simp] theorem setStore_granted (i : Nat) (x : CtlStore) (s : State) : (setStore i x s).granted = s.granted := (rfl)
@[simp] theorem setStore_tongs (i : Nat) (x : CtlStore) (s : State) : (setStore i x s).tongs = s.tongs := (rfl)
@[simp] theorem setStore_tongsLast (i : Nat) (x : CtlStore) (s : State) : (setStore i x s).tongsLast = s.tongsLast := (rfl)
@[simp] theorem setStore_mramLines (i : Nat) (x : CtlStore) (s : State) : (setStore i x s).mramLines = s.mramLines := (rfl)
@[simp] theorem setStore_mramGap (i : Nat) (x : CtlStore) (s : State) : (setStore i x s).mramGap = s.mramGap := (rfl)
@[simp] theorem setStore_hang (i : Nat) (x : CtlStore) (s : State) : (setStore i x s).hang = s.hang := (rfl)
@[simp] theorem setStore_hangAsk (i : Nat) (x : CtlStore) (s : State) : (setStore i x s).hangAsk = s.hangAsk := (rfl)
@[simp] theorem setStore_fabHangAsk (i : Nat) (x : CtlStore) (s : State) : (setStore i x s).fabHangAsk = s.fabHangAsk := (rfl)
@[simp] theorem setStore_copies (i : Nat) (x : CtlStore) (s : State) : (setStore i x s).copies = s.copies := (rfl)
@[simp] theorem setStore_fstat (i : Nat) (x : CtlStore) (s : State) : (setStore i x s).fstat = s.fstat := (rfl)
@[simp] theorem setStore_snap (i : Nat) (x : CtlStore) (s : State) : (setStore i x s).snap = s.snap := (rfl)
@[simp] theorem setStore_engines (i : Nat) (x : CtlStore) (s : State) : (setStore i x s).engines = s.engines := (rfl)
@[simp] theorem setStore_stale (i : Nat) (x : CtlStore) (s : State) : (setStore i x s).stale = s.stale := (rfl)
@[simp] theorem setStore_lanes (i : Nat) (x : CtlStore) (s : State) : (setStore i x s).lanes = s.lanes := (rfl)
@[simp] theorem setStore_seqs (i : Nat) (x : CtlStore) (s : State) : (setStore i x s).seqs = s.seqs := (rfl)
@[simp] theorem setStore_fails (i : Nat) (x : CtlStore) (s : State) : (setStore i x s).fails = s.fails := (rfl)
@[simp] theorem setStore_welds (i : Nat) (x : CtlStore) (s : State) : (setStore i x s).welds = s.welds := (rfl)
@[simp] theorem setStore_patina (i : Nat) (x : CtlStore) (s : State) : (setStore i x s).patina = s.patina := (rfl)
@[simp] theorem setStore_wiping (i : Nat) (x : CtlStore) (s : State) : (setStore i x s).wiping = s.wiping := (rfl)
@[simp] theorem setStore_ports (i : Nat) (x : CtlStore) (s : State) : (setStore i x s).ports = s.ports := (rfl)
@[simp] theorem setStore_fabric (i : Nat) (x : CtlStore) (s : State) : (setStore i x s).fabric = s.fabric := (rfl)
@[simp] theorem setStore_pcie (i : Nat) (x : CtlStore) (s : State) : (setStore i x s).pcie = s.pcie := (rfl)
@[simp] theorem setStore_thermal (i : Nat) (x : CtlStore) (s : State) : (setStore i x s).thermal = s.thermal := (rfl)
@[simp] theorem setStore_bellows (i : Nat) (x : CtlStore) (s : State) : (setStore i x s).bellows = s.bellows := (rfl)
@[simp] theorem setStore_temper (i : Nat) (x : CtlStore) (s : State) : (setStore i x s).temper = s.temper := (rfl)
@[simp] theorem setStore_primer (i : Nat) (x : CtlStore) (s : State) : (setStore i x s).primer = s.primer := (rfl)
@[simp] theorem setStore_calDue (i : Nat) (x : CtlStore) (s : State) : (setStore i x s).calDue = s.calDue := (rfl)
@[simp] theorem setStore_journal (i : Nat) (x : CtlStore) (s : State) : (setStore i x s).journal = s.journal := (rfl)
@[simp] theorem setStore_images (i : Nat) (x : CtlStore) (s : State) : (setStore i x s).images = s.images := (rfl)
@[simp] theorem setStore_loaded (i : Nat) (x : CtlStore) (s : State) : (setStore i x s).loaded = s.loaded := (rfl)
@[simp] theorem setStore_taken (i : Nat) (x : CtlStore) (s : State) : (setStore i x s).taken = s.taken := (rfl)
@[simp] theorem setStore_tap (i : Nat) (x : CtlStore) (s : State) : (setStore i x s).tap = s.tap := (rfl)
@[simp] theorem setStore_tapFault (i : Nat) (x : CtlStore) (s : State) : (setStore i x s).tapFault = s.tapFault := (rfl)
@[simp] theorem chan_setStore (i : Nat) (x : CtlStore) (j : Nat) (s : State) : chan (setStore i x s) j = chan s j := (rfl)
@[simp] theorem base_setStore (i : Nat) (x : CtlStore) (j : Nat) (s : State) : base (setStore i x s) j = base s j := (rfl)
@[simp] theorem dom_setStore (i : Nat) (x : CtlStore) (j : Nat) (s : State) : dom (setStore i x s) j = dom s j := (rfl)
@[simp] theorem eng_setStore (i : Nat) (x : CtlStore) (j : Nat) (s : State) : eng (setStore i x s) j = eng s j := (rfl)
@[simp] theorem lane_setStore (i : Nat) (x : CtlStore) (j : Nat) (s : State) : lane (setStore i x s) j = lane s j := (rfl)
@[simp] theorem seqAt_setStore (i : Nat) (x : CtlStore) (j : Nat) (s : State) : seqAt (setStore i x s) j = seqAt s j := (rfl)
@[simp] theorem failPipe_setStore (i : Nat) (x : CtlStore) (j : Nat) (s : State) : failPipe (setStore i x s) j = failPipe s j := (rfl)
@[simp] theorem weld_setStore (i : Nat) (x : CtlStore) (j : Nat) (s : State) : weld (setStore i x s) j = weld s j := (rfl)
@[simp] theorem memByte_setStore (i : Nat) (x : CtlStore) (j : Nat) (s : State) : memByte (setStore i x s) j = memByte s j := (rfl)
@[simp] theorem anvEntry_setStore (i : Nat) (x : CtlStore) (j : Nat) (s : State) : anvEntry (setStore i x s) j = anvEntry s j := (rfl)
@[simp] theorem port_setStore (i : Nat) (x : CtlStore) (j : Nat) (s : State) : port (setStore i x s) j = port s j := (rfl)
@[simp] theorem hangSlot_setStore (i : Nat) (x : CtlStore) (j : Nat) (s : State) : hangSlot (setStore i x s) j = hangSlot s j := (rfl)
@[simp] theorem tgChan_setStore (i : Nat) (x : CtlStore) (j : Nat) (s : State) : tgChan (setStore i x s) j = tgChan s j := (rfl)
@[simp] theorem bucket_setStore (i : Nat) (x : CtlStore) (j : Nat) (s : State) : bucket (setStore i x s) j = bucket s j := (rfl)
@[simp] theorem domLost_setStore (i : Nat) (x : CtlStore) (j : Nat) (s : State) : domLost (setStore i x s) j = domLost s j := (rfl)
@[simp] theorem canvasSet_setStore (i : Nat) (x : CtlStore) (p o : Nat) (s : State) : canvasSet (setStore i x s) p o = canvasSet s p o := (rfl)
@[simp] theorem rdRole_setStore (i : Nat) (x : CtlStore) (e : Bool) (p o : Nat) (s : State) : rdRole (setStore i x s) e p o = rdRole s e p o := (rfl)
@[simp] theorem rdReg_setStore (i : Nat) (x : CtlStore) (p o : Nat) (s : State) : rdReg (setStore i x s) p o = rdReg s p o := (rfl)
@[simp] theorem roleKey_setStore (i : Nat) (x : CtlStore) (e : Bool) (p o : Nat) (s : State) : roleKey (setStore i x s) e p o = roleKey s e p o := (rfl)
@[simp] theorem inForce_setStore (i : Nat) (x : CtlStore) (p o : Nat) (s : State) : inForce (setStore i x s) p o = inForce s p o := (rfl)
@[simp] theorem hangArmed_setStore (i : Nat) (x : CtlStore) (p : Nat) (s : State) : hangArmed (setStore i x s) p = hangArmed s p := (rfl)
@[simp] theorem modStore_pending (i : Nat) (f : CtlStore → CtlStore) (s : State) : (modStore i f s).pending = s.pending := (rfl)
@[simp] theorem modStore_now (i : Nat) (f : CtlStore → CtlStore) (s : State) : (modStore i f s).now = s.now := (rfl)
@[simp] theorem modStore_free (i : Nat) (f : CtlStore → CtlStore) (s : State) : (modStore i f s).free = s.free := (rfl)
@[simp] theorem modStore_outbox (i : Nat) (f : CtlStore → CtlStore) (s : State) : (modStore i f s).outbox = s.outbox := (rfl)
@[simp] theorem modStore_regs (i : Nat) (f : CtlStore → CtlStore) (s : State) : (modStore i f s).regs = s.regs := (rfl)
@[simp] theorem modStore_swapped (i : Nat) (f : CtlStore → CtlStore) (s : State) : (modStore i f s).swapped = s.swapped := (rfl)
@[simp] theorem modStore_calSwapped (i : Nat) (f : CtlStore → CtlStore) (s : State) : (modStore i f s).calSwapped = s.calSwapped := (rfl)
@[simp] theorem modStore_held (i : Nat) (f : CtlStore → CtlStore) (s : State) : (modStore i f s).held = s.held := (rfl)
@[simp] theorem modStore_wms (i : Nat) (f : CtlStore → CtlStore) (s : State) : (modStore i f s).wms = s.wms := (rfl)
@[simp] theorem modStore_irqOut (i : Nat) (f : CtlStore → CtlStore) (s : State) : (modStore i f s).irqOut = s.irqOut := (rfl)
@[simp] theorem modStore_msixDue (i : Nat) (f : CtlStore → CtlStore) (s : State) : (modStore i f s).msixDue = s.msixDue := (rfl)
@[simp] theorem modStore_pal (i : Nat) (f : CtlStore → CtlStore) (s : State) : (modStore i f s).pal = s.pal := (rfl)
@[simp] theorem modStore_palHeld (i : Nat) (f : CtlStore → CtlStore) (s : State) : (modStore i f s).palHeld = s.palHeld := (rfl)
@[simp] theorem modStore_palCmds (i : Nat) (f : CtlStore → CtlStore) (s : State) : (modStore i f s).palCmds = s.palCmds := (rfl)
@[simp] theorem modStore_chans (i : Nat) (f : CtlStore → CtlStore) (s : State) : (modStore i f s).chans = s.chans := (rfl)
@[simp] theorem modStore_bases (i : Nat) (f : CtlStore → CtlStore) (s : State) : (modStore i f s).bases = s.bases := (rfl)
@[simp] theorem modStore_tables (i : Nat) (f : CtlStore → CtlStore) (s : State) : (modStore i f s).tables = s.tables := (rfl)
@[simp] theorem modStore_doms (i : Nat) (f : CtlStore → CtlStore) (s : State) : (modStore i f s).doms = s.doms := (rfl)
@[simp] theorem modStore_pins (i : Nat) (f : CtlStore → CtlStore) (s : State) : (modStore i f s).pins = s.pins := (rfl)
@[simp] theorem modStore_lifecycle (i : Nat) (f : CtlStore → CtlStore) (s : State) : (modStore i f s).lifecycle = s.lifecycle := (rfl)
@[simp] theorem modStore_keyFused (i : Nat) (f : CtlStore → CtlStore) (s : State) : (modStore i f s).keyFused = s.keyFused := (rfl)
@[simp] theorem modStore_reports (i : Nat) (f : CtlStore → CtlStore) (s : State) : (modStore i f s).reports = s.reports := (rfl)
@[simp] theorem modStore_anvil (i : Nat) (f : CtlStore → CtlStore) (s : State) : (modStore i f s).anvil = s.anvil := (rfl)
@[simp] theorem modStore_nextFid (i : Nat) (f : CtlStore → CtlStore) (s : State) : (modStore i f s).nextFid = s.nextFid := (rfl)
@[simp] theorem modStore_corrected (i : Nat) (f : CtlStore → CtlStore) (s : State) : (modStore i f s).corrected = s.corrected := (rfl)
@[simp] theorem modStore_mem (i : Nat) (f : CtlStore → CtlStore) (s : State) : (modStore i f s).mem = s.mem := (rfl)
@[simp] theorem modStore_trans (i : Nat) (f : CtlStore → CtlStore) (s : State) : (modStore i f s).trans = s.trans := (rfl)
@[simp] theorem modStore_replies (i : Nat) (f : CtlStore → CtlStore) (s : State) : (modStore i f s).replies = s.replies := (rfl)
@[simp] theorem modStore_power (i : Nat) (f : CtlStore → CtlStore) (s : State) : (modStore i f s).power = s.power := (rfl)
@[simp] theorem modStore_granted (i : Nat) (f : CtlStore → CtlStore) (s : State) : (modStore i f s).granted = s.granted := (rfl)
@[simp] theorem modStore_tongs (i : Nat) (f : CtlStore → CtlStore) (s : State) : (modStore i f s).tongs = s.tongs := (rfl)
@[simp] theorem modStore_tongsLast (i : Nat) (f : CtlStore → CtlStore) (s : State) : (modStore i f s).tongsLast = s.tongsLast := (rfl)
@[simp] theorem modStore_mramLines (i : Nat) (f : CtlStore → CtlStore) (s : State) : (modStore i f s).mramLines = s.mramLines := (rfl)
@[simp] theorem modStore_mramGap (i : Nat) (f : CtlStore → CtlStore) (s : State) : (modStore i f s).mramGap = s.mramGap := (rfl)
@[simp] theorem modStore_hang (i : Nat) (f : CtlStore → CtlStore) (s : State) : (modStore i f s).hang = s.hang := (rfl)
@[simp] theorem modStore_hangAsk (i : Nat) (f : CtlStore → CtlStore) (s : State) : (modStore i f s).hangAsk = s.hangAsk := (rfl)
@[simp] theorem modStore_fabHangAsk (i : Nat) (f : CtlStore → CtlStore) (s : State) : (modStore i f s).fabHangAsk = s.fabHangAsk := (rfl)
@[simp] theorem modStore_copies (i : Nat) (f : CtlStore → CtlStore) (s : State) : (modStore i f s).copies = s.copies := (rfl)
@[simp] theorem modStore_fstat (i : Nat) (f : CtlStore → CtlStore) (s : State) : (modStore i f s).fstat = s.fstat := (rfl)
@[simp] theorem modStore_snap (i : Nat) (f : CtlStore → CtlStore) (s : State) : (modStore i f s).snap = s.snap := (rfl)
@[simp] theorem modStore_engines (i : Nat) (f : CtlStore → CtlStore) (s : State) : (modStore i f s).engines = s.engines := (rfl)
@[simp] theorem modStore_stale (i : Nat) (f : CtlStore → CtlStore) (s : State) : (modStore i f s).stale = s.stale := (rfl)
@[simp] theorem modStore_lanes (i : Nat) (f : CtlStore → CtlStore) (s : State) : (modStore i f s).lanes = s.lanes := (rfl)
@[simp] theorem modStore_seqs (i : Nat) (f : CtlStore → CtlStore) (s : State) : (modStore i f s).seqs = s.seqs := (rfl)
@[simp] theorem modStore_fails (i : Nat) (f : CtlStore → CtlStore) (s : State) : (modStore i f s).fails = s.fails := (rfl)
@[simp] theorem modStore_welds (i : Nat) (f : CtlStore → CtlStore) (s : State) : (modStore i f s).welds = s.welds := (rfl)
@[simp] theorem modStore_patina (i : Nat) (f : CtlStore → CtlStore) (s : State) : (modStore i f s).patina = s.patina := (rfl)
@[simp] theorem modStore_wiping (i : Nat) (f : CtlStore → CtlStore) (s : State) : (modStore i f s).wiping = s.wiping := (rfl)
@[simp] theorem modStore_ports (i : Nat) (f : CtlStore → CtlStore) (s : State) : (modStore i f s).ports = s.ports := (rfl)
@[simp] theorem modStore_fabric (i : Nat) (f : CtlStore → CtlStore) (s : State) : (modStore i f s).fabric = s.fabric := (rfl)
@[simp] theorem modStore_pcie (i : Nat) (f : CtlStore → CtlStore) (s : State) : (modStore i f s).pcie = s.pcie := (rfl)
@[simp] theorem modStore_thermal (i : Nat) (f : CtlStore → CtlStore) (s : State) : (modStore i f s).thermal = s.thermal := (rfl)
@[simp] theorem modStore_bellows (i : Nat) (f : CtlStore → CtlStore) (s : State) : (modStore i f s).bellows = s.bellows := (rfl)
@[simp] theorem modStore_temper (i : Nat) (f : CtlStore → CtlStore) (s : State) : (modStore i f s).temper = s.temper := (rfl)
@[simp] theorem modStore_primer (i : Nat) (f : CtlStore → CtlStore) (s : State) : (modStore i f s).primer = s.primer := (rfl)
@[simp] theorem modStore_calDue (i : Nat) (f : CtlStore → CtlStore) (s : State) : (modStore i f s).calDue = s.calDue := (rfl)
@[simp] theorem modStore_journal (i : Nat) (f : CtlStore → CtlStore) (s : State) : (modStore i f s).journal = s.journal := (rfl)
@[simp] theorem modStore_images (i : Nat) (f : CtlStore → CtlStore) (s : State) : (modStore i f s).images = s.images := (rfl)
@[simp] theorem modStore_loaded (i : Nat) (f : CtlStore → CtlStore) (s : State) : (modStore i f s).loaded = s.loaded := (rfl)
@[simp] theorem modStore_taken (i : Nat) (f : CtlStore → CtlStore) (s : State) : (modStore i f s).taken = s.taken := (rfl)
@[simp] theorem modStore_tap (i : Nat) (f : CtlStore → CtlStore) (s : State) : (modStore i f s).tap = s.tap := (rfl)
@[simp] theorem modStore_tapFault (i : Nat) (f : CtlStore → CtlStore) (s : State) : (modStore i f s).tapFault = s.tapFault := (rfl)
@[simp] theorem chan_modStore (i : Nat) (f : CtlStore → CtlStore) (j : Nat) (s : State) : chan (modStore i f s) j = chan s j := (rfl)
@[simp] theorem base_modStore (i : Nat) (f : CtlStore → CtlStore) (j : Nat) (s : State) : base (modStore i f s) j = base s j := (rfl)
@[simp] theorem dom_modStore (i : Nat) (f : CtlStore → CtlStore) (j : Nat) (s : State) : dom (modStore i f s) j = dom s j := (rfl)
@[simp] theorem eng_modStore (i : Nat) (f : CtlStore → CtlStore) (j : Nat) (s : State) : eng (modStore i f s) j = eng s j := (rfl)
@[simp] theorem lane_modStore (i : Nat) (f : CtlStore → CtlStore) (j : Nat) (s : State) : lane (modStore i f s) j = lane s j := (rfl)
@[simp] theorem seqAt_modStore (i : Nat) (f : CtlStore → CtlStore) (j : Nat) (s : State) : seqAt (modStore i f s) j = seqAt s j := (rfl)
@[simp] theorem failPipe_modStore (i : Nat) (f : CtlStore → CtlStore) (j : Nat) (s : State) : failPipe (modStore i f s) j = failPipe s j := (rfl)
@[simp] theorem weld_modStore (i : Nat) (f : CtlStore → CtlStore) (j : Nat) (s : State) : weld (modStore i f s) j = weld s j := (rfl)
@[simp] theorem memByte_modStore (i : Nat) (f : CtlStore → CtlStore) (j : Nat) (s : State) : memByte (modStore i f s) j = memByte s j := (rfl)
@[simp] theorem anvEntry_modStore (i : Nat) (f : CtlStore → CtlStore) (j : Nat) (s : State) : anvEntry (modStore i f s) j = anvEntry s j := (rfl)
@[simp] theorem port_modStore (i : Nat) (f : CtlStore → CtlStore) (j : Nat) (s : State) : port (modStore i f s) j = port s j := (rfl)
@[simp] theorem hangSlot_modStore (i : Nat) (f : CtlStore → CtlStore) (j : Nat) (s : State) : hangSlot (modStore i f s) j = hangSlot s j := (rfl)
@[simp] theorem tgChan_modStore (i : Nat) (f : CtlStore → CtlStore) (j : Nat) (s : State) : tgChan (modStore i f s) j = tgChan s j := (rfl)
@[simp] theorem bucket_modStore (i : Nat) (f : CtlStore → CtlStore) (j : Nat) (s : State) : bucket (modStore i f s) j = bucket s j := (rfl)
@[simp] theorem domLost_modStore (i : Nat) (f : CtlStore → CtlStore) (j : Nat) (s : State) : domLost (modStore i f s) j = domLost s j := (rfl)
@[simp] theorem canvasSet_modStore (i : Nat) (f : CtlStore → CtlStore) (p o : Nat) (s : State) : canvasSet (modStore i f s) p o = canvasSet s p o := (rfl)
@[simp] theorem rdRole_modStore (i : Nat) (f : CtlStore → CtlStore) (e : Bool) (p o : Nat) (s : State) : rdRole (modStore i f s) e p o = rdRole s e p o := (rfl)
@[simp] theorem rdReg_modStore (i : Nat) (f : CtlStore → CtlStore) (p o : Nat) (s : State) : rdReg (modStore i f s) p o = rdReg s p o := (rfl)
@[simp] theorem roleKey_modStore (i : Nat) (f : CtlStore → CtlStore) (e : Bool) (p o : Nat) (s : State) : roleKey (modStore i f s) e p o = roleKey s e p o := (rfl)
@[simp] theorem inForce_modStore (i : Nat) (f : CtlStore → CtlStore) (p o : Nat) (s : State) : inForce (modStore i f s) p o = inForce s p o := (rfl)
@[simp] theorem hangArmed_modStore (i : Nat) (f : CtlStore → CtlStore) (p : Nat) (s : State) : hangArmed (modStore i f s) p = hangArmed s p := (rfl)
@[simp] theorem setSeq_pending (i : Nat) (x : Seq) (s : State) : (setSeq i x s).pending = s.pending := (rfl)
@[simp] theorem setSeq_now (i : Nat) (x : Seq) (s : State) : (setSeq i x s).now = s.now := (rfl)
@[simp] theorem setSeq_free (i : Nat) (x : Seq) (s : State) : (setSeq i x s).free = s.free := (rfl)
@[simp] theorem setSeq_outbox (i : Nat) (x : Seq) (s : State) : (setSeq i x s).outbox = s.outbox := (rfl)
@[simp] theorem setSeq_regs (i : Nat) (x : Seq) (s : State) : (setSeq i x s).regs = s.regs := (rfl)
@[simp] theorem setSeq_swapped (i : Nat) (x : Seq) (s : State) : (setSeq i x s).swapped = s.swapped := (rfl)
@[simp] theorem setSeq_calSwapped (i : Nat) (x : Seq) (s : State) : (setSeq i x s).calSwapped = s.calSwapped := (rfl)
@[simp] theorem setSeq_held (i : Nat) (x : Seq) (s : State) : (setSeq i x s).held = s.held := (rfl)
@[simp] theorem setSeq_wms (i : Nat) (x : Seq) (s : State) : (setSeq i x s).wms = s.wms := (rfl)
@[simp] theorem setSeq_irqOut (i : Nat) (x : Seq) (s : State) : (setSeq i x s).irqOut = s.irqOut := (rfl)
@[simp] theorem setSeq_msixDue (i : Nat) (x : Seq) (s : State) : (setSeq i x s).msixDue = s.msixDue := (rfl)
@[simp] theorem setSeq_pal (i : Nat) (x : Seq) (s : State) : (setSeq i x s).pal = s.pal := (rfl)
@[simp] theorem setSeq_palHeld (i : Nat) (x : Seq) (s : State) : (setSeq i x s).palHeld = s.palHeld := (rfl)
@[simp] theorem setSeq_palCmds (i : Nat) (x : Seq) (s : State) : (setSeq i x s).palCmds = s.palCmds := (rfl)
@[simp] theorem setSeq_chans (i : Nat) (x : Seq) (s : State) : (setSeq i x s).chans = s.chans := (rfl)
@[simp] theorem setSeq_bases (i : Nat) (x : Seq) (s : State) : (setSeq i x s).bases = s.bases := (rfl)
@[simp] theorem setSeq_tables (i : Nat) (x : Seq) (s : State) : (setSeq i x s).tables = s.tables := (rfl)
@[simp] theorem setSeq_doms (i : Nat) (x : Seq) (s : State) : (setSeq i x s).doms = s.doms := (rfl)
@[simp] theorem setSeq_pins (i : Nat) (x : Seq) (s : State) : (setSeq i x s).pins = s.pins := (rfl)
@[simp] theorem setSeq_lifecycle (i : Nat) (x : Seq) (s : State) : (setSeq i x s).lifecycle = s.lifecycle := (rfl)
@[simp] theorem setSeq_keyFused (i : Nat) (x : Seq) (s : State) : (setSeq i x s).keyFused = s.keyFused := (rfl)
@[simp] theorem setSeq_reports (i : Nat) (x : Seq) (s : State) : (setSeq i x s).reports = s.reports := (rfl)
@[simp] theorem setSeq_anvil (i : Nat) (x : Seq) (s : State) : (setSeq i x s).anvil = s.anvil := (rfl)
@[simp] theorem setSeq_nextFid (i : Nat) (x : Seq) (s : State) : (setSeq i x s).nextFid = s.nextFid := (rfl)
@[simp] theorem setSeq_corrected (i : Nat) (x : Seq) (s : State) : (setSeq i x s).corrected = s.corrected := (rfl)
@[simp] theorem setSeq_mem (i : Nat) (x : Seq) (s : State) : (setSeq i x s).mem = s.mem := (rfl)
@[simp] theorem setSeq_trans (i : Nat) (x : Seq) (s : State) : (setSeq i x s).trans = s.trans := (rfl)
@[simp] theorem setSeq_replies (i : Nat) (x : Seq) (s : State) : (setSeq i x s).replies = s.replies := (rfl)
@[simp] theorem setSeq_power (i : Nat) (x : Seq) (s : State) : (setSeq i x s).power = s.power := (rfl)
@[simp] theorem setSeq_granted (i : Nat) (x : Seq) (s : State) : (setSeq i x s).granted = s.granted := (rfl)
@[simp] theorem setSeq_tongs (i : Nat) (x : Seq) (s : State) : (setSeq i x s).tongs = s.tongs := (rfl)
@[simp] theorem setSeq_tongsLast (i : Nat) (x : Seq) (s : State) : (setSeq i x s).tongsLast = s.tongsLast := (rfl)
@[simp] theorem setSeq_mramLines (i : Nat) (x : Seq) (s : State) : (setSeq i x s).mramLines = s.mramLines := (rfl)
@[simp] theorem setSeq_mramGap (i : Nat) (x : Seq) (s : State) : (setSeq i x s).mramGap = s.mramGap := (rfl)
@[simp] theorem setSeq_hang (i : Nat) (x : Seq) (s : State) : (setSeq i x s).hang = s.hang := (rfl)
@[simp] theorem setSeq_hangAsk (i : Nat) (x : Seq) (s : State) : (setSeq i x s).hangAsk = s.hangAsk := (rfl)
@[simp] theorem setSeq_fabHangAsk (i : Nat) (x : Seq) (s : State) : (setSeq i x s).fabHangAsk = s.fabHangAsk := (rfl)
@[simp] theorem setSeq_copies (i : Nat) (x : Seq) (s : State) : (setSeq i x s).copies = s.copies := (rfl)
@[simp] theorem setSeq_fstat (i : Nat) (x : Seq) (s : State) : (setSeq i x s).fstat = s.fstat := (rfl)
@[simp] theorem setSeq_snap (i : Nat) (x : Seq) (s : State) : (setSeq i x s).snap = s.snap := (rfl)
@[simp] theorem setSeq_engines (i : Nat) (x : Seq) (s : State) : (setSeq i x s).engines = s.engines := (rfl)
@[simp] theorem setSeq_stale (i : Nat) (x : Seq) (s : State) : (setSeq i x s).stale = s.stale := (rfl)
@[simp] theorem setSeq_lanes (i : Nat) (x : Seq) (s : State) : (setSeq i x s).lanes = s.lanes := (rfl)
@[simp] theorem setSeq_stores (i : Nat) (x : Seq) (s : State) : (setSeq i x s).stores = s.stores := (rfl)
@[simp] theorem setSeq_fails (i : Nat) (x : Seq) (s : State) : (setSeq i x s).fails = s.fails := (rfl)
@[simp] theorem setSeq_welds (i : Nat) (x : Seq) (s : State) : (setSeq i x s).welds = s.welds := (rfl)
@[simp] theorem setSeq_patina (i : Nat) (x : Seq) (s : State) : (setSeq i x s).patina = s.patina := (rfl)
@[simp] theorem setSeq_wiping (i : Nat) (x : Seq) (s : State) : (setSeq i x s).wiping = s.wiping := (rfl)
@[simp] theorem setSeq_ports (i : Nat) (x : Seq) (s : State) : (setSeq i x s).ports = s.ports := (rfl)
@[simp] theorem setSeq_fabric (i : Nat) (x : Seq) (s : State) : (setSeq i x s).fabric = s.fabric := (rfl)
@[simp] theorem setSeq_pcie (i : Nat) (x : Seq) (s : State) : (setSeq i x s).pcie = s.pcie := (rfl)
@[simp] theorem setSeq_thermal (i : Nat) (x : Seq) (s : State) : (setSeq i x s).thermal = s.thermal := (rfl)
@[simp] theorem setSeq_bellows (i : Nat) (x : Seq) (s : State) : (setSeq i x s).bellows = s.bellows := (rfl)
@[simp] theorem setSeq_temper (i : Nat) (x : Seq) (s : State) : (setSeq i x s).temper = s.temper := (rfl)
@[simp] theorem setSeq_primer (i : Nat) (x : Seq) (s : State) : (setSeq i x s).primer = s.primer := (rfl)
@[simp] theorem setSeq_calDue (i : Nat) (x : Seq) (s : State) : (setSeq i x s).calDue = s.calDue := (rfl)
@[simp] theorem setSeq_journal (i : Nat) (x : Seq) (s : State) : (setSeq i x s).journal = s.journal := (rfl)
@[simp] theorem setSeq_images (i : Nat) (x : Seq) (s : State) : (setSeq i x s).images = s.images := (rfl)
@[simp] theorem setSeq_loaded (i : Nat) (x : Seq) (s : State) : (setSeq i x s).loaded = s.loaded := (rfl)
@[simp] theorem setSeq_taken (i : Nat) (x : Seq) (s : State) : (setSeq i x s).taken = s.taken := (rfl)
@[simp] theorem setSeq_tap (i : Nat) (x : Seq) (s : State) : (setSeq i x s).tap = s.tap := (rfl)
@[simp] theorem setSeq_tapFault (i : Nat) (x : Seq) (s : State) : (setSeq i x s).tapFault = s.tapFault := (rfl)
@[simp] theorem chan_setSeq (i : Nat) (x : Seq) (j : Nat) (s : State) : chan (setSeq i x s) j = chan s j := (rfl)
@[simp] theorem base_setSeq (i : Nat) (x : Seq) (j : Nat) (s : State) : base (setSeq i x s) j = base s j := (rfl)
@[simp] theorem dom_setSeq (i : Nat) (x : Seq) (j : Nat) (s : State) : dom (setSeq i x s) j = dom s j := (rfl)
@[simp] theorem eng_setSeq (i : Nat) (x : Seq) (j : Nat) (s : State) : eng (setSeq i x s) j = eng s j := (rfl)
@[simp] theorem lane_setSeq (i : Nat) (x : Seq) (j : Nat) (s : State) : lane (setSeq i x s) j = lane s j := (rfl)
@[simp] theorem store_setSeq (i : Nat) (x : Seq) (j : Nat) (s : State) : store (setSeq i x s) j = store s j := (rfl)
@[simp] theorem failPipe_setSeq (i : Nat) (x : Seq) (j : Nat) (s : State) : failPipe (setSeq i x s) j = failPipe s j := (rfl)
@[simp] theorem weld_setSeq (i : Nat) (x : Seq) (j : Nat) (s : State) : weld (setSeq i x s) j = weld s j := (rfl)
@[simp] theorem memByte_setSeq (i : Nat) (x : Seq) (j : Nat) (s : State) : memByte (setSeq i x s) j = memByte s j := (rfl)
@[simp] theorem anvEntry_setSeq (i : Nat) (x : Seq) (j : Nat) (s : State) : anvEntry (setSeq i x s) j = anvEntry s j := (rfl)
@[simp] theorem port_setSeq (i : Nat) (x : Seq) (j : Nat) (s : State) : port (setSeq i x s) j = port s j := (rfl)
@[simp] theorem hangSlot_setSeq (i : Nat) (x : Seq) (j : Nat) (s : State) : hangSlot (setSeq i x s) j = hangSlot s j := (rfl)
@[simp] theorem tgChan_setSeq (i : Nat) (x : Seq) (j : Nat) (s : State) : tgChan (setSeq i x s) j = tgChan s j := (rfl)
@[simp] theorem bucket_setSeq (i : Nat) (x : Seq) (j : Nat) (s : State) : bucket (setSeq i x s) j = bucket s j := (rfl)
@[simp] theorem domLost_setSeq (i : Nat) (x : Seq) (j : Nat) (s : State) : domLost (setSeq i x s) j = domLost s j := (rfl)
@[simp] theorem canvasSet_setSeq (i : Nat) (x : Seq) (p o : Nat) (s : State) : canvasSet (setSeq i x s) p o = canvasSet s p o := (rfl)
@[simp] theorem rdRole_setSeq (i : Nat) (x : Seq) (e : Bool) (p o : Nat) (s : State) : rdRole (setSeq i x s) e p o = rdRole s e p o := (rfl)
@[simp] theorem rdReg_setSeq (i : Nat) (x : Seq) (p o : Nat) (s : State) : rdReg (setSeq i x s) p o = rdReg s p o := (rfl)
@[simp] theorem roleKey_setSeq (i : Nat) (x : Seq) (e : Bool) (p o : Nat) (s : State) : roleKey (setSeq i x s) e p o = roleKey s e p o := (rfl)
@[simp] theorem inForce_setSeq (i : Nat) (x : Seq) (p o : Nat) (s : State) : inForce (setSeq i x s) p o = inForce s p o := (rfl)
@[simp] theorem hangArmed_setSeq (i : Nat) (x : Seq) (p : Nat) (s : State) : hangArmed (setSeq i x s) p = hangArmed s p := (rfl)
@[simp] theorem setFail_pending (k : Nat) (x : FailPipe) (s : State) : (setFail k x s).pending = s.pending := (rfl)
@[simp] theorem setFail_now (k : Nat) (x : FailPipe) (s : State) : (setFail k x s).now = s.now := (rfl)
@[simp] theorem setFail_free (k : Nat) (x : FailPipe) (s : State) : (setFail k x s).free = s.free := (rfl)
@[simp] theorem setFail_outbox (k : Nat) (x : FailPipe) (s : State) : (setFail k x s).outbox = s.outbox := (rfl)
@[simp] theorem setFail_regs (k : Nat) (x : FailPipe) (s : State) : (setFail k x s).regs = s.regs := (rfl)
@[simp] theorem setFail_swapped (k : Nat) (x : FailPipe) (s : State) : (setFail k x s).swapped = s.swapped := (rfl)
@[simp] theorem setFail_calSwapped (k : Nat) (x : FailPipe) (s : State) : (setFail k x s).calSwapped = s.calSwapped := (rfl)
@[simp] theorem setFail_held (k : Nat) (x : FailPipe) (s : State) : (setFail k x s).held = s.held := (rfl)
@[simp] theorem setFail_wms (k : Nat) (x : FailPipe) (s : State) : (setFail k x s).wms = s.wms := (rfl)
@[simp] theorem setFail_irqOut (k : Nat) (x : FailPipe) (s : State) : (setFail k x s).irqOut = s.irqOut := (rfl)
@[simp] theorem setFail_msixDue (k : Nat) (x : FailPipe) (s : State) : (setFail k x s).msixDue = s.msixDue := (rfl)
@[simp] theorem setFail_pal (k : Nat) (x : FailPipe) (s : State) : (setFail k x s).pal = s.pal := (rfl)
@[simp] theorem setFail_palHeld (k : Nat) (x : FailPipe) (s : State) : (setFail k x s).palHeld = s.palHeld := (rfl)
@[simp] theorem setFail_palCmds (k : Nat) (x : FailPipe) (s : State) : (setFail k x s).palCmds = s.palCmds := (rfl)
@[simp] theorem setFail_chans (k : Nat) (x : FailPipe) (s : State) : (setFail k x s).chans = s.chans := (rfl)
@[simp] theorem setFail_bases (k : Nat) (x : FailPipe) (s : State) : (setFail k x s).bases = s.bases := (rfl)
@[simp] theorem setFail_tables (k : Nat) (x : FailPipe) (s : State) : (setFail k x s).tables = s.tables := (rfl)
@[simp] theorem setFail_doms (k : Nat) (x : FailPipe) (s : State) : (setFail k x s).doms = s.doms := (rfl)
@[simp] theorem setFail_pins (k : Nat) (x : FailPipe) (s : State) : (setFail k x s).pins = s.pins := (rfl)
@[simp] theorem setFail_lifecycle (k : Nat) (x : FailPipe) (s : State) : (setFail k x s).lifecycle = s.lifecycle := (rfl)
@[simp] theorem setFail_keyFused (k : Nat) (x : FailPipe) (s : State) : (setFail k x s).keyFused = s.keyFused := (rfl)
@[simp] theorem setFail_reports (k : Nat) (x : FailPipe) (s : State) : (setFail k x s).reports = s.reports := (rfl)
@[simp] theorem setFail_anvil (k : Nat) (x : FailPipe) (s : State) : (setFail k x s).anvil = s.anvil := (rfl)
@[simp] theorem setFail_nextFid (k : Nat) (x : FailPipe) (s : State) : (setFail k x s).nextFid = s.nextFid := (rfl)
@[simp] theorem setFail_corrected (k : Nat) (x : FailPipe) (s : State) : (setFail k x s).corrected = s.corrected := (rfl)
@[simp] theorem setFail_mem (k : Nat) (x : FailPipe) (s : State) : (setFail k x s).mem = s.mem := (rfl)
@[simp] theorem setFail_trans (k : Nat) (x : FailPipe) (s : State) : (setFail k x s).trans = s.trans := (rfl)
@[simp] theorem setFail_replies (k : Nat) (x : FailPipe) (s : State) : (setFail k x s).replies = s.replies := (rfl)
@[simp] theorem setFail_power (k : Nat) (x : FailPipe) (s : State) : (setFail k x s).power = s.power := (rfl)
@[simp] theorem setFail_granted (k : Nat) (x : FailPipe) (s : State) : (setFail k x s).granted = s.granted := (rfl)
@[simp] theorem setFail_tongs (k : Nat) (x : FailPipe) (s : State) : (setFail k x s).tongs = s.tongs := (rfl)
@[simp] theorem setFail_tongsLast (k : Nat) (x : FailPipe) (s : State) : (setFail k x s).tongsLast = s.tongsLast := (rfl)
@[simp] theorem setFail_mramLines (k : Nat) (x : FailPipe) (s : State) : (setFail k x s).mramLines = s.mramLines := (rfl)
@[simp] theorem setFail_mramGap (k : Nat) (x : FailPipe) (s : State) : (setFail k x s).mramGap = s.mramGap := (rfl)
@[simp] theorem setFail_hang (k : Nat) (x : FailPipe) (s : State) : (setFail k x s).hang = s.hang := (rfl)
@[simp] theorem setFail_hangAsk (k : Nat) (x : FailPipe) (s : State) : (setFail k x s).hangAsk = s.hangAsk := (rfl)
@[simp] theorem setFail_fabHangAsk (k : Nat) (x : FailPipe) (s : State) : (setFail k x s).fabHangAsk = s.fabHangAsk := (rfl)
@[simp] theorem setFail_copies (k : Nat) (x : FailPipe) (s : State) : (setFail k x s).copies = s.copies := (rfl)
@[simp] theorem setFail_fstat (k : Nat) (x : FailPipe) (s : State) : (setFail k x s).fstat = s.fstat := (rfl)
@[simp] theorem setFail_snap (k : Nat) (x : FailPipe) (s : State) : (setFail k x s).snap = s.snap := (rfl)
@[simp] theorem setFail_engines (k : Nat) (x : FailPipe) (s : State) : (setFail k x s).engines = s.engines := (rfl)
@[simp] theorem setFail_stale (k : Nat) (x : FailPipe) (s : State) : (setFail k x s).stale = s.stale := (rfl)
@[simp] theorem setFail_lanes (k : Nat) (x : FailPipe) (s : State) : (setFail k x s).lanes = s.lanes := (rfl)
@[simp] theorem setFail_stores (k : Nat) (x : FailPipe) (s : State) : (setFail k x s).stores = s.stores := (rfl)
@[simp] theorem setFail_seqs (k : Nat) (x : FailPipe) (s : State) : (setFail k x s).seqs = s.seqs := (rfl)
@[simp] theorem setFail_welds (k : Nat) (x : FailPipe) (s : State) : (setFail k x s).welds = s.welds := (rfl)
@[simp] theorem setFail_patina (k : Nat) (x : FailPipe) (s : State) : (setFail k x s).patina = s.patina := (rfl)
@[simp] theorem setFail_wiping (k : Nat) (x : FailPipe) (s : State) : (setFail k x s).wiping = s.wiping := (rfl)
@[simp] theorem setFail_ports (k : Nat) (x : FailPipe) (s : State) : (setFail k x s).ports = s.ports := (rfl)
@[simp] theorem setFail_fabric (k : Nat) (x : FailPipe) (s : State) : (setFail k x s).fabric = s.fabric := (rfl)
@[simp] theorem setFail_pcie (k : Nat) (x : FailPipe) (s : State) : (setFail k x s).pcie = s.pcie := (rfl)
@[simp] theorem setFail_thermal (k : Nat) (x : FailPipe) (s : State) : (setFail k x s).thermal = s.thermal := (rfl)
@[simp] theorem setFail_bellows (k : Nat) (x : FailPipe) (s : State) : (setFail k x s).bellows = s.bellows := (rfl)
@[simp] theorem setFail_temper (k : Nat) (x : FailPipe) (s : State) : (setFail k x s).temper = s.temper := (rfl)
@[simp] theorem setFail_primer (k : Nat) (x : FailPipe) (s : State) : (setFail k x s).primer = s.primer := (rfl)
@[simp] theorem setFail_calDue (k : Nat) (x : FailPipe) (s : State) : (setFail k x s).calDue = s.calDue := (rfl)
@[simp] theorem setFail_journal (k : Nat) (x : FailPipe) (s : State) : (setFail k x s).journal = s.journal := (rfl)
@[simp] theorem setFail_images (k : Nat) (x : FailPipe) (s : State) : (setFail k x s).images = s.images := (rfl)
@[simp] theorem setFail_loaded (k : Nat) (x : FailPipe) (s : State) : (setFail k x s).loaded = s.loaded := (rfl)
@[simp] theorem setFail_taken (k : Nat) (x : FailPipe) (s : State) : (setFail k x s).taken = s.taken := (rfl)
@[simp] theorem setFail_tap (k : Nat) (x : FailPipe) (s : State) : (setFail k x s).tap = s.tap := (rfl)
@[simp] theorem setFail_tapFault (k : Nat) (x : FailPipe) (s : State) : (setFail k x s).tapFault = s.tapFault := (rfl)
@[simp] theorem chan_setFail (k : Nat) (x : FailPipe) (j : Nat) (s : State) : chan (setFail k x s) j = chan s j := (rfl)
@[simp] theorem base_setFail (k : Nat) (x : FailPipe) (j : Nat) (s : State) : base (setFail k x s) j = base s j := (rfl)
@[simp] theorem dom_setFail (k : Nat) (x : FailPipe) (j : Nat) (s : State) : dom (setFail k x s) j = dom s j := (rfl)
@[simp] theorem eng_setFail (k : Nat) (x : FailPipe) (j : Nat) (s : State) : eng (setFail k x s) j = eng s j := (rfl)
@[simp] theorem lane_setFail (k : Nat) (x : FailPipe) (j : Nat) (s : State) : lane (setFail k x s) j = lane s j := (rfl)
@[simp] theorem store_setFail (k : Nat) (x : FailPipe) (j : Nat) (s : State) : store (setFail k x s) j = store s j := (rfl)
@[simp] theorem seqAt_setFail (k : Nat) (x : FailPipe) (j : Nat) (s : State) : seqAt (setFail k x s) j = seqAt s j := (rfl)
@[simp] theorem weld_setFail (k : Nat) (x : FailPipe) (j : Nat) (s : State) : weld (setFail k x s) j = weld s j := (rfl)
@[simp] theorem memByte_setFail (k : Nat) (x : FailPipe) (j : Nat) (s : State) : memByte (setFail k x s) j = memByte s j := (rfl)
@[simp] theorem anvEntry_setFail (k : Nat) (x : FailPipe) (j : Nat) (s : State) : anvEntry (setFail k x s) j = anvEntry s j := (rfl)
@[simp] theorem port_setFail (k : Nat) (x : FailPipe) (j : Nat) (s : State) : port (setFail k x s) j = port s j := (rfl)
@[simp] theorem hangSlot_setFail (k : Nat) (x : FailPipe) (j : Nat) (s : State) : hangSlot (setFail k x s) j = hangSlot s j := (rfl)
@[simp] theorem tgChan_setFail (k : Nat) (x : FailPipe) (j : Nat) (s : State) : tgChan (setFail k x s) j = tgChan s j := (rfl)
@[simp] theorem bucket_setFail (k : Nat) (x : FailPipe) (j : Nat) (s : State) : bucket (setFail k x s) j = bucket s j := (rfl)
@[simp] theorem domLost_setFail (k : Nat) (x : FailPipe) (j : Nat) (s : State) : domLost (setFail k x s) j = domLost s j := (rfl)
@[simp] theorem canvasSet_setFail (k : Nat) (x : FailPipe) (p o : Nat) (s : State) : canvasSet (setFail k x s) p o = canvasSet s p o := (rfl)
@[simp] theorem rdRole_setFail (k : Nat) (x : FailPipe) (e : Bool) (p o : Nat) (s : State) : rdRole (setFail k x s) e p o = rdRole s e p o := (rfl)
@[simp] theorem rdReg_setFail (k : Nat) (x : FailPipe) (p o : Nat) (s : State) : rdReg (setFail k x s) p o = rdReg s p o := (rfl)
@[simp] theorem roleKey_setFail (k : Nat) (x : FailPipe) (e : Bool) (p o : Nat) (s : State) : roleKey (setFail k x s) e p o = roleKey s e p o := (rfl)
@[simp] theorem inForce_setFail (k : Nat) (x : FailPipe) (p o : Nat) (s : State) : inForce (setFail k x s) p o = inForce s p o := (rfl)
@[simp] theorem hangArmed_setFail (k : Nat) (x : FailPipe) (p : Nat) (s : State) : hangArmed (setFail k x s) p = hangArmed s p := (rfl)
@[simp] theorem modFail_pending (k : Nat) (f : FailPipe → FailPipe) (s : State) : (modFail k f s).pending = s.pending := (rfl)
@[simp] theorem modFail_now (k : Nat) (f : FailPipe → FailPipe) (s : State) : (modFail k f s).now = s.now := (rfl)
@[simp] theorem modFail_free (k : Nat) (f : FailPipe → FailPipe) (s : State) : (modFail k f s).free = s.free := (rfl)
@[simp] theorem modFail_outbox (k : Nat) (f : FailPipe → FailPipe) (s : State) : (modFail k f s).outbox = s.outbox := (rfl)
@[simp] theorem modFail_regs (k : Nat) (f : FailPipe → FailPipe) (s : State) : (modFail k f s).regs = s.regs := (rfl)
@[simp] theorem modFail_swapped (k : Nat) (f : FailPipe → FailPipe) (s : State) : (modFail k f s).swapped = s.swapped := (rfl)
@[simp] theorem modFail_calSwapped (k : Nat) (f : FailPipe → FailPipe) (s : State) : (modFail k f s).calSwapped = s.calSwapped := (rfl)
@[simp] theorem modFail_held (k : Nat) (f : FailPipe → FailPipe) (s : State) : (modFail k f s).held = s.held := (rfl)
@[simp] theorem modFail_wms (k : Nat) (f : FailPipe → FailPipe) (s : State) : (modFail k f s).wms = s.wms := (rfl)
@[simp] theorem modFail_irqOut (k : Nat) (f : FailPipe → FailPipe) (s : State) : (modFail k f s).irqOut = s.irqOut := (rfl)
@[simp] theorem modFail_msixDue (k : Nat) (f : FailPipe → FailPipe) (s : State) : (modFail k f s).msixDue = s.msixDue := (rfl)
@[simp] theorem modFail_pal (k : Nat) (f : FailPipe → FailPipe) (s : State) : (modFail k f s).pal = s.pal := (rfl)
@[simp] theorem modFail_palHeld (k : Nat) (f : FailPipe → FailPipe) (s : State) : (modFail k f s).palHeld = s.palHeld := (rfl)
@[simp] theorem modFail_palCmds (k : Nat) (f : FailPipe → FailPipe) (s : State) : (modFail k f s).palCmds = s.palCmds := (rfl)
@[simp] theorem modFail_chans (k : Nat) (f : FailPipe → FailPipe) (s : State) : (modFail k f s).chans = s.chans := (rfl)
@[simp] theorem modFail_bases (k : Nat) (f : FailPipe → FailPipe) (s : State) : (modFail k f s).bases = s.bases := (rfl)
@[simp] theorem modFail_tables (k : Nat) (f : FailPipe → FailPipe) (s : State) : (modFail k f s).tables = s.tables := (rfl)
@[simp] theorem modFail_doms (k : Nat) (f : FailPipe → FailPipe) (s : State) : (modFail k f s).doms = s.doms := (rfl)
@[simp] theorem modFail_pins (k : Nat) (f : FailPipe → FailPipe) (s : State) : (modFail k f s).pins = s.pins := (rfl)
@[simp] theorem modFail_lifecycle (k : Nat) (f : FailPipe → FailPipe) (s : State) : (modFail k f s).lifecycle = s.lifecycle := (rfl)
@[simp] theorem modFail_keyFused (k : Nat) (f : FailPipe → FailPipe) (s : State) : (modFail k f s).keyFused = s.keyFused := (rfl)
@[simp] theorem modFail_reports (k : Nat) (f : FailPipe → FailPipe) (s : State) : (modFail k f s).reports = s.reports := (rfl)
@[simp] theorem modFail_anvil (k : Nat) (f : FailPipe → FailPipe) (s : State) : (modFail k f s).anvil = s.anvil := (rfl)
@[simp] theorem modFail_nextFid (k : Nat) (f : FailPipe → FailPipe) (s : State) : (modFail k f s).nextFid = s.nextFid := (rfl)
@[simp] theorem modFail_corrected (k : Nat) (f : FailPipe → FailPipe) (s : State) : (modFail k f s).corrected = s.corrected := (rfl)
@[simp] theorem modFail_mem (k : Nat) (f : FailPipe → FailPipe) (s : State) : (modFail k f s).mem = s.mem := (rfl)
@[simp] theorem modFail_trans (k : Nat) (f : FailPipe → FailPipe) (s : State) : (modFail k f s).trans = s.trans := (rfl)
@[simp] theorem modFail_replies (k : Nat) (f : FailPipe → FailPipe) (s : State) : (modFail k f s).replies = s.replies := (rfl)
@[simp] theorem modFail_power (k : Nat) (f : FailPipe → FailPipe) (s : State) : (modFail k f s).power = s.power := (rfl)
@[simp] theorem modFail_granted (k : Nat) (f : FailPipe → FailPipe) (s : State) : (modFail k f s).granted = s.granted := (rfl)
@[simp] theorem modFail_tongs (k : Nat) (f : FailPipe → FailPipe) (s : State) : (modFail k f s).tongs = s.tongs := (rfl)
@[simp] theorem modFail_tongsLast (k : Nat) (f : FailPipe → FailPipe) (s : State) : (modFail k f s).tongsLast = s.tongsLast := (rfl)
@[simp] theorem modFail_mramLines (k : Nat) (f : FailPipe → FailPipe) (s : State) : (modFail k f s).mramLines = s.mramLines := (rfl)
@[simp] theorem modFail_mramGap (k : Nat) (f : FailPipe → FailPipe) (s : State) : (modFail k f s).mramGap = s.mramGap := (rfl)
@[simp] theorem modFail_hang (k : Nat) (f : FailPipe → FailPipe) (s : State) : (modFail k f s).hang = s.hang := (rfl)
@[simp] theorem modFail_hangAsk (k : Nat) (f : FailPipe → FailPipe) (s : State) : (modFail k f s).hangAsk = s.hangAsk := (rfl)
@[simp] theorem modFail_fabHangAsk (k : Nat) (f : FailPipe → FailPipe) (s : State) : (modFail k f s).fabHangAsk = s.fabHangAsk := (rfl)
@[simp] theorem modFail_copies (k : Nat) (f : FailPipe → FailPipe) (s : State) : (modFail k f s).copies = s.copies := (rfl)
@[simp] theorem modFail_fstat (k : Nat) (f : FailPipe → FailPipe) (s : State) : (modFail k f s).fstat = s.fstat := (rfl)
@[simp] theorem modFail_snap (k : Nat) (f : FailPipe → FailPipe) (s : State) : (modFail k f s).snap = s.snap := (rfl)
@[simp] theorem modFail_engines (k : Nat) (f : FailPipe → FailPipe) (s : State) : (modFail k f s).engines = s.engines := (rfl)
@[simp] theorem modFail_stale (k : Nat) (f : FailPipe → FailPipe) (s : State) : (modFail k f s).stale = s.stale := (rfl)
@[simp] theorem modFail_lanes (k : Nat) (f : FailPipe → FailPipe) (s : State) : (modFail k f s).lanes = s.lanes := (rfl)
@[simp] theorem modFail_stores (k : Nat) (f : FailPipe → FailPipe) (s : State) : (modFail k f s).stores = s.stores := (rfl)
@[simp] theorem modFail_seqs (k : Nat) (f : FailPipe → FailPipe) (s : State) : (modFail k f s).seqs = s.seqs := (rfl)
@[simp] theorem modFail_welds (k : Nat) (f : FailPipe → FailPipe) (s : State) : (modFail k f s).welds = s.welds := (rfl)
@[simp] theorem modFail_patina (k : Nat) (f : FailPipe → FailPipe) (s : State) : (modFail k f s).patina = s.patina := (rfl)
@[simp] theorem modFail_wiping (k : Nat) (f : FailPipe → FailPipe) (s : State) : (modFail k f s).wiping = s.wiping := (rfl)
@[simp] theorem modFail_ports (k : Nat) (f : FailPipe → FailPipe) (s : State) : (modFail k f s).ports = s.ports := (rfl)
@[simp] theorem modFail_fabric (k : Nat) (f : FailPipe → FailPipe) (s : State) : (modFail k f s).fabric = s.fabric := (rfl)
@[simp] theorem modFail_pcie (k : Nat) (f : FailPipe → FailPipe) (s : State) : (modFail k f s).pcie = s.pcie := (rfl)
@[simp] theorem modFail_thermal (k : Nat) (f : FailPipe → FailPipe) (s : State) : (modFail k f s).thermal = s.thermal := (rfl)
@[simp] theorem modFail_bellows (k : Nat) (f : FailPipe → FailPipe) (s : State) : (modFail k f s).bellows = s.bellows := (rfl)
@[simp] theorem modFail_temper (k : Nat) (f : FailPipe → FailPipe) (s : State) : (modFail k f s).temper = s.temper := (rfl)
@[simp] theorem modFail_primer (k : Nat) (f : FailPipe → FailPipe) (s : State) : (modFail k f s).primer = s.primer := (rfl)
@[simp] theorem modFail_calDue (k : Nat) (f : FailPipe → FailPipe) (s : State) : (modFail k f s).calDue = s.calDue := (rfl)
@[simp] theorem modFail_journal (k : Nat) (f : FailPipe → FailPipe) (s : State) : (modFail k f s).journal = s.journal := (rfl)
@[simp] theorem modFail_images (k : Nat) (f : FailPipe → FailPipe) (s : State) : (modFail k f s).images = s.images := (rfl)
@[simp] theorem modFail_loaded (k : Nat) (f : FailPipe → FailPipe) (s : State) : (modFail k f s).loaded = s.loaded := (rfl)
@[simp] theorem modFail_taken (k : Nat) (f : FailPipe → FailPipe) (s : State) : (modFail k f s).taken = s.taken := (rfl)
@[simp] theorem modFail_tap (k : Nat) (f : FailPipe → FailPipe) (s : State) : (modFail k f s).tap = s.tap := (rfl)
@[simp] theorem modFail_tapFault (k : Nat) (f : FailPipe → FailPipe) (s : State) : (modFail k f s).tapFault = s.tapFault := (rfl)
@[simp] theorem chan_modFail (k : Nat) (f : FailPipe → FailPipe) (j : Nat) (s : State) : chan (modFail k f s) j = chan s j := (rfl)
@[simp] theorem base_modFail (k : Nat) (f : FailPipe → FailPipe) (j : Nat) (s : State) : base (modFail k f s) j = base s j := (rfl)
@[simp] theorem dom_modFail (k : Nat) (f : FailPipe → FailPipe) (j : Nat) (s : State) : dom (modFail k f s) j = dom s j := (rfl)
@[simp] theorem eng_modFail (k : Nat) (f : FailPipe → FailPipe) (j : Nat) (s : State) : eng (modFail k f s) j = eng s j := (rfl)
@[simp] theorem lane_modFail (k : Nat) (f : FailPipe → FailPipe) (j : Nat) (s : State) : lane (modFail k f s) j = lane s j := (rfl)
@[simp] theorem store_modFail (k : Nat) (f : FailPipe → FailPipe) (j : Nat) (s : State) : store (modFail k f s) j = store s j := (rfl)
@[simp] theorem seqAt_modFail (k : Nat) (f : FailPipe → FailPipe) (j : Nat) (s : State) : seqAt (modFail k f s) j = seqAt s j := (rfl)
@[simp] theorem weld_modFail (k : Nat) (f : FailPipe → FailPipe) (j : Nat) (s : State) : weld (modFail k f s) j = weld s j := (rfl)
@[simp] theorem memByte_modFail (k : Nat) (f : FailPipe → FailPipe) (j : Nat) (s : State) : memByte (modFail k f s) j = memByte s j := (rfl)
@[simp] theorem anvEntry_modFail (k : Nat) (f : FailPipe → FailPipe) (j : Nat) (s : State) : anvEntry (modFail k f s) j = anvEntry s j := (rfl)
@[simp] theorem port_modFail (k : Nat) (f : FailPipe → FailPipe) (j : Nat) (s : State) : port (modFail k f s) j = port s j := (rfl)
@[simp] theorem hangSlot_modFail (k : Nat) (f : FailPipe → FailPipe) (j : Nat) (s : State) : hangSlot (modFail k f s) j = hangSlot s j := (rfl)
@[simp] theorem tgChan_modFail (k : Nat) (f : FailPipe → FailPipe) (j : Nat) (s : State) : tgChan (modFail k f s) j = tgChan s j := (rfl)
@[simp] theorem bucket_modFail (k : Nat) (f : FailPipe → FailPipe) (j : Nat) (s : State) : bucket (modFail k f s) j = bucket s j := (rfl)
@[simp] theorem domLost_modFail (k : Nat) (f : FailPipe → FailPipe) (j : Nat) (s : State) : domLost (modFail k f s) j = domLost s j := (rfl)
@[simp] theorem canvasSet_modFail (k : Nat) (f : FailPipe → FailPipe) (p o : Nat) (s : State) : canvasSet (modFail k f s) p o = canvasSet s p o := (rfl)
@[simp] theorem rdRole_modFail (k : Nat) (f : FailPipe → FailPipe) (e : Bool) (p o : Nat) (s : State) : rdRole (modFail k f s) e p o = rdRole s e p o := (rfl)
@[simp] theorem rdReg_modFail (k : Nat) (f : FailPipe → FailPipe) (p o : Nat) (s : State) : rdReg (modFail k f s) p o = rdReg s p o := (rfl)
@[simp] theorem roleKey_modFail (k : Nat) (f : FailPipe → FailPipe) (e : Bool) (p o : Nat) (s : State) : roleKey (modFail k f s) e p o = roleKey s e p o := (rfl)
@[simp] theorem inForce_modFail (k : Nat) (f : FailPipe → FailPipe) (p o : Nat) (s : State) : inForce (modFail k f s) p o = inForce s p o := (rfl)
@[simp] theorem hangArmed_modFail (k : Nat) (f : FailPipe → FailPipe) (p : Nat) (s : State) : hangArmed (modFail k f s) p = hangArmed s p := (rfl)
@[simp] theorem setWeld_pending (k : Nat) (x : Weld) (s : State) : (setWeld k x s).pending = s.pending := (rfl)
@[simp] theorem setWeld_now (k : Nat) (x : Weld) (s : State) : (setWeld k x s).now = s.now := (rfl)
@[simp] theorem setWeld_free (k : Nat) (x : Weld) (s : State) : (setWeld k x s).free = s.free := (rfl)
@[simp] theorem setWeld_outbox (k : Nat) (x : Weld) (s : State) : (setWeld k x s).outbox = s.outbox := (rfl)
@[simp] theorem setWeld_regs (k : Nat) (x : Weld) (s : State) : (setWeld k x s).regs = s.regs := (rfl)
@[simp] theorem setWeld_swapped (k : Nat) (x : Weld) (s : State) : (setWeld k x s).swapped = s.swapped := (rfl)
@[simp] theorem setWeld_calSwapped (k : Nat) (x : Weld) (s : State) : (setWeld k x s).calSwapped = s.calSwapped := (rfl)
@[simp] theorem setWeld_held (k : Nat) (x : Weld) (s : State) : (setWeld k x s).held = s.held := (rfl)
@[simp] theorem setWeld_wms (k : Nat) (x : Weld) (s : State) : (setWeld k x s).wms = s.wms := (rfl)
@[simp] theorem setWeld_irqOut (k : Nat) (x : Weld) (s : State) : (setWeld k x s).irqOut = s.irqOut := (rfl)
@[simp] theorem setWeld_msixDue (k : Nat) (x : Weld) (s : State) : (setWeld k x s).msixDue = s.msixDue := (rfl)
@[simp] theorem setWeld_pal (k : Nat) (x : Weld) (s : State) : (setWeld k x s).pal = s.pal := (rfl)
@[simp] theorem setWeld_palHeld (k : Nat) (x : Weld) (s : State) : (setWeld k x s).palHeld = s.palHeld := (rfl)
@[simp] theorem setWeld_palCmds (k : Nat) (x : Weld) (s : State) : (setWeld k x s).palCmds = s.palCmds := (rfl)
@[simp] theorem setWeld_chans (k : Nat) (x : Weld) (s : State) : (setWeld k x s).chans = s.chans := (rfl)
@[simp] theorem setWeld_bases (k : Nat) (x : Weld) (s : State) : (setWeld k x s).bases = s.bases := (rfl)
@[simp] theorem setWeld_tables (k : Nat) (x : Weld) (s : State) : (setWeld k x s).tables = s.tables := (rfl)
@[simp] theorem setWeld_doms (k : Nat) (x : Weld) (s : State) : (setWeld k x s).doms = s.doms := (rfl)
@[simp] theorem setWeld_pins (k : Nat) (x : Weld) (s : State) : (setWeld k x s).pins = s.pins := (rfl)
@[simp] theorem setWeld_lifecycle (k : Nat) (x : Weld) (s : State) : (setWeld k x s).lifecycle = s.lifecycle := (rfl)
@[simp] theorem setWeld_keyFused (k : Nat) (x : Weld) (s : State) : (setWeld k x s).keyFused = s.keyFused := (rfl)
@[simp] theorem setWeld_reports (k : Nat) (x : Weld) (s : State) : (setWeld k x s).reports = s.reports := (rfl)
@[simp] theorem setWeld_anvil (k : Nat) (x : Weld) (s : State) : (setWeld k x s).anvil = s.anvil := (rfl)
@[simp] theorem setWeld_nextFid (k : Nat) (x : Weld) (s : State) : (setWeld k x s).nextFid = s.nextFid := (rfl)
@[simp] theorem setWeld_corrected (k : Nat) (x : Weld) (s : State) : (setWeld k x s).corrected = s.corrected := (rfl)
@[simp] theorem setWeld_mem (k : Nat) (x : Weld) (s : State) : (setWeld k x s).mem = s.mem := (rfl)
@[simp] theorem setWeld_trans (k : Nat) (x : Weld) (s : State) : (setWeld k x s).trans = s.trans := (rfl)
@[simp] theorem setWeld_replies (k : Nat) (x : Weld) (s : State) : (setWeld k x s).replies = s.replies := (rfl)
@[simp] theorem setWeld_power (k : Nat) (x : Weld) (s : State) : (setWeld k x s).power = s.power := (rfl)
@[simp] theorem setWeld_granted (k : Nat) (x : Weld) (s : State) : (setWeld k x s).granted = s.granted := (rfl)
@[simp] theorem setWeld_tongs (k : Nat) (x : Weld) (s : State) : (setWeld k x s).tongs = s.tongs := (rfl)
@[simp] theorem setWeld_tongsLast (k : Nat) (x : Weld) (s : State) : (setWeld k x s).tongsLast = s.tongsLast := (rfl)
@[simp] theorem setWeld_mramLines (k : Nat) (x : Weld) (s : State) : (setWeld k x s).mramLines = s.mramLines := (rfl)
@[simp] theorem setWeld_mramGap (k : Nat) (x : Weld) (s : State) : (setWeld k x s).mramGap = s.mramGap := (rfl)
@[simp] theorem setWeld_hang (k : Nat) (x : Weld) (s : State) : (setWeld k x s).hang = s.hang := (rfl)
@[simp] theorem setWeld_hangAsk (k : Nat) (x : Weld) (s : State) : (setWeld k x s).hangAsk = s.hangAsk := (rfl)
@[simp] theorem setWeld_fabHangAsk (k : Nat) (x : Weld) (s : State) : (setWeld k x s).fabHangAsk = s.fabHangAsk := (rfl)
@[simp] theorem setWeld_copies (k : Nat) (x : Weld) (s : State) : (setWeld k x s).copies = s.copies := (rfl)
@[simp] theorem setWeld_fstat (k : Nat) (x : Weld) (s : State) : (setWeld k x s).fstat = s.fstat := (rfl)
@[simp] theorem setWeld_snap (k : Nat) (x : Weld) (s : State) : (setWeld k x s).snap = s.snap := (rfl)
@[simp] theorem setWeld_engines (k : Nat) (x : Weld) (s : State) : (setWeld k x s).engines = s.engines := (rfl)
@[simp] theorem setWeld_stale (k : Nat) (x : Weld) (s : State) : (setWeld k x s).stale = s.stale := (rfl)
@[simp] theorem setWeld_lanes (k : Nat) (x : Weld) (s : State) : (setWeld k x s).lanes = s.lanes := (rfl)
@[simp] theorem setWeld_stores (k : Nat) (x : Weld) (s : State) : (setWeld k x s).stores = s.stores := (rfl)
@[simp] theorem setWeld_seqs (k : Nat) (x : Weld) (s : State) : (setWeld k x s).seqs = s.seqs := (rfl)
@[simp] theorem setWeld_fails (k : Nat) (x : Weld) (s : State) : (setWeld k x s).fails = s.fails := (rfl)
@[simp] theorem setWeld_patina (k : Nat) (x : Weld) (s : State) : (setWeld k x s).patina = s.patina := (rfl)
@[simp] theorem setWeld_wiping (k : Nat) (x : Weld) (s : State) : (setWeld k x s).wiping = s.wiping := (rfl)
@[simp] theorem setWeld_ports (k : Nat) (x : Weld) (s : State) : (setWeld k x s).ports = s.ports := (rfl)
@[simp] theorem setWeld_fabric (k : Nat) (x : Weld) (s : State) : (setWeld k x s).fabric = s.fabric := (rfl)
@[simp] theorem setWeld_pcie (k : Nat) (x : Weld) (s : State) : (setWeld k x s).pcie = s.pcie := (rfl)
@[simp] theorem setWeld_thermal (k : Nat) (x : Weld) (s : State) : (setWeld k x s).thermal = s.thermal := (rfl)
@[simp] theorem setWeld_bellows (k : Nat) (x : Weld) (s : State) : (setWeld k x s).bellows = s.bellows := (rfl)
@[simp] theorem setWeld_temper (k : Nat) (x : Weld) (s : State) : (setWeld k x s).temper = s.temper := (rfl)
@[simp] theorem setWeld_primer (k : Nat) (x : Weld) (s : State) : (setWeld k x s).primer = s.primer := (rfl)
@[simp] theorem setWeld_calDue (k : Nat) (x : Weld) (s : State) : (setWeld k x s).calDue = s.calDue := (rfl)
@[simp] theorem setWeld_journal (k : Nat) (x : Weld) (s : State) : (setWeld k x s).journal = s.journal := (rfl)
@[simp] theorem setWeld_images (k : Nat) (x : Weld) (s : State) : (setWeld k x s).images = s.images := (rfl)
@[simp] theorem setWeld_loaded (k : Nat) (x : Weld) (s : State) : (setWeld k x s).loaded = s.loaded := (rfl)
@[simp] theorem setWeld_taken (k : Nat) (x : Weld) (s : State) : (setWeld k x s).taken = s.taken := (rfl)
@[simp] theorem setWeld_tap (k : Nat) (x : Weld) (s : State) : (setWeld k x s).tap = s.tap := (rfl)
@[simp] theorem setWeld_tapFault (k : Nat) (x : Weld) (s : State) : (setWeld k x s).tapFault = s.tapFault := (rfl)
@[simp] theorem chan_setWeld (k : Nat) (x : Weld) (j : Nat) (s : State) : chan (setWeld k x s) j = chan s j := (rfl)
@[simp] theorem base_setWeld (k : Nat) (x : Weld) (j : Nat) (s : State) : base (setWeld k x s) j = base s j := (rfl)
@[simp] theorem dom_setWeld (k : Nat) (x : Weld) (j : Nat) (s : State) : dom (setWeld k x s) j = dom s j := (rfl)
@[simp] theorem eng_setWeld (k : Nat) (x : Weld) (j : Nat) (s : State) : eng (setWeld k x s) j = eng s j := (rfl)
@[simp] theorem lane_setWeld (k : Nat) (x : Weld) (j : Nat) (s : State) : lane (setWeld k x s) j = lane s j := (rfl)
@[simp] theorem store_setWeld (k : Nat) (x : Weld) (j : Nat) (s : State) : store (setWeld k x s) j = store s j := (rfl)
@[simp] theorem seqAt_setWeld (k : Nat) (x : Weld) (j : Nat) (s : State) : seqAt (setWeld k x s) j = seqAt s j := (rfl)
@[simp] theorem failPipe_setWeld (k : Nat) (x : Weld) (j : Nat) (s : State) : failPipe (setWeld k x s) j = failPipe s j := (rfl)
@[simp] theorem memByte_setWeld (k : Nat) (x : Weld) (j : Nat) (s : State) : memByte (setWeld k x s) j = memByte s j := (rfl)
@[simp] theorem anvEntry_setWeld (k : Nat) (x : Weld) (j : Nat) (s : State) : anvEntry (setWeld k x s) j = anvEntry s j := (rfl)
@[simp] theorem port_setWeld (k : Nat) (x : Weld) (j : Nat) (s : State) : port (setWeld k x s) j = port s j := (rfl)
@[simp] theorem hangSlot_setWeld (k : Nat) (x : Weld) (j : Nat) (s : State) : hangSlot (setWeld k x s) j = hangSlot s j := (rfl)
@[simp] theorem tgChan_setWeld (k : Nat) (x : Weld) (j : Nat) (s : State) : tgChan (setWeld k x s) j = tgChan s j := (rfl)
@[simp] theorem bucket_setWeld (k : Nat) (x : Weld) (j : Nat) (s : State) : bucket (setWeld k x s) j = bucket s j := (rfl)
@[simp] theorem domLost_setWeld (k : Nat) (x : Weld) (j : Nat) (s : State) : domLost (setWeld k x s) j = domLost s j := (rfl)
@[simp] theorem canvasSet_setWeld (k : Nat) (x : Weld) (p o : Nat) (s : State) : canvasSet (setWeld k x s) p o = canvasSet s p o := (rfl)
@[simp] theorem rdRole_setWeld (k : Nat) (x : Weld) (e : Bool) (p o : Nat) (s : State) : rdRole (setWeld k x s) e p o = rdRole s e p o := (rfl)
@[simp] theorem rdReg_setWeld (k : Nat) (x : Weld) (p o : Nat) (s : State) : rdReg (setWeld k x s) p o = rdReg s p o := (rfl)
@[simp] theorem roleKey_setWeld (k : Nat) (x : Weld) (e : Bool) (p o : Nat) (s : State) : roleKey (setWeld k x s) e p o = roleKey s e p o := (rfl)
@[simp] theorem inForce_setWeld (k : Nat) (x : Weld) (p o : Nat) (s : State) : inForce (setWeld k x s) p o = inForce s p o := (rfl)
@[simp] theorem hangArmed_setWeld (k : Nat) (x : Weld) (p : Nat) (s : State) : hangArmed (setWeld k x s) p = hangArmed s p := (rfl)
@[simp] theorem modWeld_pending (k : Nat) (f : Weld → Weld) (s : State) : (modWeld k f s).pending = s.pending := (rfl)
@[simp] theorem modWeld_now (k : Nat) (f : Weld → Weld) (s : State) : (modWeld k f s).now = s.now := (rfl)
@[simp] theorem modWeld_free (k : Nat) (f : Weld → Weld) (s : State) : (modWeld k f s).free = s.free := (rfl)
@[simp] theorem modWeld_outbox (k : Nat) (f : Weld → Weld) (s : State) : (modWeld k f s).outbox = s.outbox := (rfl)
@[simp] theorem modWeld_regs (k : Nat) (f : Weld → Weld) (s : State) : (modWeld k f s).regs = s.regs := (rfl)
@[simp] theorem modWeld_swapped (k : Nat) (f : Weld → Weld) (s : State) : (modWeld k f s).swapped = s.swapped := (rfl)
@[simp] theorem modWeld_calSwapped (k : Nat) (f : Weld → Weld) (s : State) : (modWeld k f s).calSwapped = s.calSwapped := (rfl)
@[simp] theorem modWeld_held (k : Nat) (f : Weld → Weld) (s : State) : (modWeld k f s).held = s.held := (rfl)
@[simp] theorem modWeld_wms (k : Nat) (f : Weld → Weld) (s : State) : (modWeld k f s).wms = s.wms := (rfl)
@[simp] theorem modWeld_irqOut (k : Nat) (f : Weld → Weld) (s : State) : (modWeld k f s).irqOut = s.irqOut := (rfl)
@[simp] theorem modWeld_msixDue (k : Nat) (f : Weld → Weld) (s : State) : (modWeld k f s).msixDue = s.msixDue := (rfl)
@[simp] theorem modWeld_pal (k : Nat) (f : Weld → Weld) (s : State) : (modWeld k f s).pal = s.pal := (rfl)
@[simp] theorem modWeld_palHeld (k : Nat) (f : Weld → Weld) (s : State) : (modWeld k f s).palHeld = s.palHeld := (rfl)
@[simp] theorem modWeld_palCmds (k : Nat) (f : Weld → Weld) (s : State) : (modWeld k f s).palCmds = s.palCmds := (rfl)
@[simp] theorem modWeld_chans (k : Nat) (f : Weld → Weld) (s : State) : (modWeld k f s).chans = s.chans := (rfl)
@[simp] theorem modWeld_bases (k : Nat) (f : Weld → Weld) (s : State) : (modWeld k f s).bases = s.bases := (rfl)
@[simp] theorem modWeld_tables (k : Nat) (f : Weld → Weld) (s : State) : (modWeld k f s).tables = s.tables := (rfl)
@[simp] theorem modWeld_doms (k : Nat) (f : Weld → Weld) (s : State) : (modWeld k f s).doms = s.doms := (rfl)
@[simp] theorem modWeld_pins (k : Nat) (f : Weld → Weld) (s : State) : (modWeld k f s).pins = s.pins := (rfl)
@[simp] theorem modWeld_lifecycle (k : Nat) (f : Weld → Weld) (s : State) : (modWeld k f s).lifecycle = s.lifecycle := (rfl)
@[simp] theorem modWeld_keyFused (k : Nat) (f : Weld → Weld) (s : State) : (modWeld k f s).keyFused = s.keyFused := (rfl)
@[simp] theorem modWeld_reports (k : Nat) (f : Weld → Weld) (s : State) : (modWeld k f s).reports = s.reports := (rfl)
@[simp] theorem modWeld_anvil (k : Nat) (f : Weld → Weld) (s : State) : (modWeld k f s).anvil = s.anvil := (rfl)
@[simp] theorem modWeld_nextFid (k : Nat) (f : Weld → Weld) (s : State) : (modWeld k f s).nextFid = s.nextFid := (rfl)
@[simp] theorem modWeld_corrected (k : Nat) (f : Weld → Weld) (s : State) : (modWeld k f s).corrected = s.corrected := (rfl)
@[simp] theorem modWeld_mem (k : Nat) (f : Weld → Weld) (s : State) : (modWeld k f s).mem = s.mem := (rfl)
@[simp] theorem modWeld_trans (k : Nat) (f : Weld → Weld) (s : State) : (modWeld k f s).trans = s.trans := (rfl)
@[simp] theorem modWeld_replies (k : Nat) (f : Weld → Weld) (s : State) : (modWeld k f s).replies = s.replies := (rfl)
@[simp] theorem modWeld_power (k : Nat) (f : Weld → Weld) (s : State) : (modWeld k f s).power = s.power := (rfl)
@[simp] theorem modWeld_granted (k : Nat) (f : Weld → Weld) (s : State) : (modWeld k f s).granted = s.granted := (rfl)
@[simp] theorem modWeld_tongs (k : Nat) (f : Weld → Weld) (s : State) : (modWeld k f s).tongs = s.tongs := (rfl)
@[simp] theorem modWeld_tongsLast (k : Nat) (f : Weld → Weld) (s : State) : (modWeld k f s).tongsLast = s.tongsLast := (rfl)
@[simp] theorem modWeld_mramLines (k : Nat) (f : Weld → Weld) (s : State) : (modWeld k f s).mramLines = s.mramLines := (rfl)
@[simp] theorem modWeld_mramGap (k : Nat) (f : Weld → Weld) (s : State) : (modWeld k f s).mramGap = s.mramGap := (rfl)
@[simp] theorem modWeld_hang (k : Nat) (f : Weld → Weld) (s : State) : (modWeld k f s).hang = s.hang := (rfl)
@[simp] theorem modWeld_hangAsk (k : Nat) (f : Weld → Weld) (s : State) : (modWeld k f s).hangAsk = s.hangAsk := (rfl)
@[simp] theorem modWeld_fabHangAsk (k : Nat) (f : Weld → Weld) (s : State) : (modWeld k f s).fabHangAsk = s.fabHangAsk := (rfl)
@[simp] theorem modWeld_copies (k : Nat) (f : Weld → Weld) (s : State) : (modWeld k f s).copies = s.copies := (rfl)
@[simp] theorem modWeld_fstat (k : Nat) (f : Weld → Weld) (s : State) : (modWeld k f s).fstat = s.fstat := (rfl)
@[simp] theorem modWeld_snap (k : Nat) (f : Weld → Weld) (s : State) : (modWeld k f s).snap = s.snap := (rfl)
@[simp] theorem modWeld_engines (k : Nat) (f : Weld → Weld) (s : State) : (modWeld k f s).engines = s.engines := (rfl)
@[simp] theorem modWeld_stale (k : Nat) (f : Weld → Weld) (s : State) : (modWeld k f s).stale = s.stale := (rfl)
@[simp] theorem modWeld_lanes (k : Nat) (f : Weld → Weld) (s : State) : (modWeld k f s).lanes = s.lanes := (rfl)
@[simp] theorem modWeld_stores (k : Nat) (f : Weld → Weld) (s : State) : (modWeld k f s).stores = s.stores := (rfl)
@[simp] theorem modWeld_seqs (k : Nat) (f : Weld → Weld) (s : State) : (modWeld k f s).seqs = s.seqs := (rfl)
@[simp] theorem modWeld_fails (k : Nat) (f : Weld → Weld) (s : State) : (modWeld k f s).fails = s.fails := (rfl)
@[simp] theorem modWeld_patina (k : Nat) (f : Weld → Weld) (s : State) : (modWeld k f s).patina = s.patina := (rfl)
@[simp] theorem modWeld_wiping (k : Nat) (f : Weld → Weld) (s : State) : (modWeld k f s).wiping = s.wiping := (rfl)
@[simp] theorem modWeld_ports (k : Nat) (f : Weld → Weld) (s : State) : (modWeld k f s).ports = s.ports := (rfl)
@[simp] theorem modWeld_fabric (k : Nat) (f : Weld → Weld) (s : State) : (modWeld k f s).fabric = s.fabric := (rfl)
@[simp] theorem modWeld_pcie (k : Nat) (f : Weld → Weld) (s : State) : (modWeld k f s).pcie = s.pcie := (rfl)
@[simp] theorem modWeld_thermal (k : Nat) (f : Weld → Weld) (s : State) : (modWeld k f s).thermal = s.thermal := (rfl)
@[simp] theorem modWeld_bellows (k : Nat) (f : Weld → Weld) (s : State) : (modWeld k f s).bellows = s.bellows := (rfl)
@[simp] theorem modWeld_temper (k : Nat) (f : Weld → Weld) (s : State) : (modWeld k f s).temper = s.temper := (rfl)
@[simp] theorem modWeld_primer (k : Nat) (f : Weld → Weld) (s : State) : (modWeld k f s).primer = s.primer := (rfl)
@[simp] theorem modWeld_calDue (k : Nat) (f : Weld → Weld) (s : State) : (modWeld k f s).calDue = s.calDue := (rfl)
@[simp] theorem modWeld_journal (k : Nat) (f : Weld → Weld) (s : State) : (modWeld k f s).journal = s.journal := (rfl)
@[simp] theorem modWeld_images (k : Nat) (f : Weld → Weld) (s : State) : (modWeld k f s).images = s.images := (rfl)
@[simp] theorem modWeld_loaded (k : Nat) (f : Weld → Weld) (s : State) : (modWeld k f s).loaded = s.loaded := (rfl)
@[simp] theorem modWeld_taken (k : Nat) (f : Weld → Weld) (s : State) : (modWeld k f s).taken = s.taken := (rfl)
@[simp] theorem modWeld_tap (k : Nat) (f : Weld → Weld) (s : State) : (modWeld k f s).tap = s.tap := (rfl)
@[simp] theorem modWeld_tapFault (k : Nat) (f : Weld → Weld) (s : State) : (modWeld k f s).tapFault = s.tapFault := (rfl)
@[simp] theorem chan_modWeld (k : Nat) (f : Weld → Weld) (j : Nat) (s : State) : chan (modWeld k f s) j = chan s j := (rfl)
@[simp] theorem base_modWeld (k : Nat) (f : Weld → Weld) (j : Nat) (s : State) : base (modWeld k f s) j = base s j := (rfl)
@[simp] theorem dom_modWeld (k : Nat) (f : Weld → Weld) (j : Nat) (s : State) : dom (modWeld k f s) j = dom s j := (rfl)
@[simp] theorem eng_modWeld (k : Nat) (f : Weld → Weld) (j : Nat) (s : State) : eng (modWeld k f s) j = eng s j := (rfl)
@[simp] theorem lane_modWeld (k : Nat) (f : Weld → Weld) (j : Nat) (s : State) : lane (modWeld k f s) j = lane s j := (rfl)
@[simp] theorem store_modWeld (k : Nat) (f : Weld → Weld) (j : Nat) (s : State) : store (modWeld k f s) j = store s j := (rfl)
@[simp] theorem seqAt_modWeld (k : Nat) (f : Weld → Weld) (j : Nat) (s : State) : seqAt (modWeld k f s) j = seqAt s j := (rfl)
@[simp] theorem failPipe_modWeld (k : Nat) (f : Weld → Weld) (j : Nat) (s : State) : failPipe (modWeld k f s) j = failPipe s j := (rfl)
@[simp] theorem memByte_modWeld (k : Nat) (f : Weld → Weld) (j : Nat) (s : State) : memByte (modWeld k f s) j = memByte s j := (rfl)
@[simp] theorem anvEntry_modWeld (k : Nat) (f : Weld → Weld) (j : Nat) (s : State) : anvEntry (modWeld k f s) j = anvEntry s j := (rfl)
@[simp] theorem port_modWeld (k : Nat) (f : Weld → Weld) (j : Nat) (s : State) : port (modWeld k f s) j = port s j := (rfl)
@[simp] theorem hangSlot_modWeld (k : Nat) (f : Weld → Weld) (j : Nat) (s : State) : hangSlot (modWeld k f s) j = hangSlot s j := (rfl)
@[simp] theorem tgChan_modWeld (k : Nat) (f : Weld → Weld) (j : Nat) (s : State) : tgChan (modWeld k f s) j = tgChan s j := (rfl)
@[simp] theorem bucket_modWeld (k : Nat) (f : Weld → Weld) (j : Nat) (s : State) : bucket (modWeld k f s) j = bucket s j := (rfl)
@[simp] theorem domLost_modWeld (k : Nat) (f : Weld → Weld) (j : Nat) (s : State) : domLost (modWeld k f s) j = domLost s j := (rfl)
@[simp] theorem canvasSet_modWeld (k : Nat) (f : Weld → Weld) (p o : Nat) (s : State) : canvasSet (modWeld k f s) p o = canvasSet s p o := (rfl)
@[simp] theorem rdRole_modWeld (k : Nat) (f : Weld → Weld) (e : Bool) (p o : Nat) (s : State) : rdRole (modWeld k f s) e p o = rdRole s e p o := (rfl)
@[simp] theorem rdReg_modWeld (k : Nat) (f : Weld → Weld) (p o : Nat) (s : State) : rdReg (modWeld k f s) p o = rdReg s p o := (rfl)
@[simp] theorem roleKey_modWeld (k : Nat) (f : Weld → Weld) (e : Bool) (p o : Nat) (s : State) : roleKey (modWeld k f s) e p o = roleKey s e p o := (rfl)
@[simp] theorem inForce_modWeld (k : Nat) (f : Weld → Weld) (p o : Nat) (s : State) : inForce (modWeld k f s) p o = inForce s p o := (rfl)
@[simp] theorem hangArmed_modWeld (k : Nat) (f : Weld → Weld) (p : Nat) (s : State) : hangArmed (modWeld k f s) p = hangArmed s p := (rfl)
@[simp] theorem setByte_pending (k : Nat) (b : Byte) (s : State) : (setByte k b s).pending = s.pending := (rfl)
@[simp] theorem setByte_now (k : Nat) (b : Byte) (s : State) : (setByte k b s).now = s.now := (rfl)
@[simp] theorem setByte_free (k : Nat) (b : Byte) (s : State) : (setByte k b s).free = s.free := (rfl)
@[simp] theorem setByte_outbox (k : Nat) (b : Byte) (s : State) : (setByte k b s).outbox = s.outbox := (rfl)
@[simp] theorem setByte_regs (k : Nat) (b : Byte) (s : State) : (setByte k b s).regs = s.regs := (rfl)
@[simp] theorem setByte_swapped (k : Nat) (b : Byte) (s : State) : (setByte k b s).swapped = s.swapped := (rfl)
@[simp] theorem setByte_calSwapped (k : Nat) (b : Byte) (s : State) : (setByte k b s).calSwapped = s.calSwapped := (rfl)
@[simp] theorem setByte_held (k : Nat) (b : Byte) (s : State) : (setByte k b s).held = s.held := (rfl)
@[simp] theorem setByte_wms (k : Nat) (b : Byte) (s : State) : (setByte k b s).wms = s.wms := (rfl)
@[simp] theorem setByte_irqOut (k : Nat) (b : Byte) (s : State) : (setByte k b s).irqOut = s.irqOut := (rfl)
@[simp] theorem setByte_msixDue (k : Nat) (b : Byte) (s : State) : (setByte k b s).msixDue = s.msixDue := (rfl)
@[simp] theorem setByte_pal (k : Nat) (b : Byte) (s : State) : (setByte k b s).pal = s.pal := (rfl)
@[simp] theorem setByte_palHeld (k : Nat) (b : Byte) (s : State) : (setByte k b s).palHeld = s.palHeld := (rfl)
@[simp] theorem setByte_palCmds (k : Nat) (b : Byte) (s : State) : (setByte k b s).palCmds = s.palCmds := (rfl)
@[simp] theorem setByte_chans (k : Nat) (b : Byte) (s : State) : (setByte k b s).chans = s.chans := (rfl)
@[simp] theorem setByte_bases (k : Nat) (b : Byte) (s : State) : (setByte k b s).bases = s.bases := (rfl)
@[simp] theorem setByte_tables (k : Nat) (b : Byte) (s : State) : (setByte k b s).tables = s.tables := (rfl)
@[simp] theorem setByte_doms (k : Nat) (b : Byte) (s : State) : (setByte k b s).doms = s.doms := (rfl)
@[simp] theorem setByte_pins (k : Nat) (b : Byte) (s : State) : (setByte k b s).pins = s.pins := (rfl)
@[simp] theorem setByte_lifecycle (k : Nat) (b : Byte) (s : State) : (setByte k b s).lifecycle = s.lifecycle := (rfl)
@[simp] theorem setByte_keyFused (k : Nat) (b : Byte) (s : State) : (setByte k b s).keyFused = s.keyFused := (rfl)
@[simp] theorem setByte_reports (k : Nat) (b : Byte) (s : State) : (setByte k b s).reports = s.reports := (rfl)
@[simp] theorem setByte_anvil (k : Nat) (b : Byte) (s : State) : (setByte k b s).anvil = s.anvil := (rfl)
@[simp] theorem setByte_nextFid (k : Nat) (b : Byte) (s : State) : (setByte k b s).nextFid = s.nextFid := (rfl)
@[simp] theorem setByte_corrected (k : Nat) (b : Byte) (s : State) : (setByte k b s).corrected = s.corrected := (rfl)
@[simp] theorem setByte_trans (k : Nat) (b : Byte) (s : State) : (setByte k b s).trans = s.trans := (rfl)
@[simp] theorem setByte_replies (k : Nat) (b : Byte) (s : State) : (setByte k b s).replies = s.replies := (rfl)
@[simp] theorem setByte_power (k : Nat) (b : Byte) (s : State) : (setByte k b s).power = s.power := (rfl)
@[simp] theorem setByte_granted (k : Nat) (b : Byte) (s : State) : (setByte k b s).granted = s.granted := (rfl)
@[simp] theorem setByte_tongs (k : Nat) (b : Byte) (s : State) : (setByte k b s).tongs = s.tongs := (rfl)
@[simp] theorem setByte_tongsLast (k : Nat) (b : Byte) (s : State) : (setByte k b s).tongsLast = s.tongsLast := (rfl)
@[simp] theorem setByte_mramLines (k : Nat) (b : Byte) (s : State) : (setByte k b s).mramLines = s.mramLines := (rfl)
@[simp] theorem setByte_mramGap (k : Nat) (b : Byte) (s : State) : (setByte k b s).mramGap = s.mramGap := (rfl)
@[simp] theorem setByte_hang (k : Nat) (b : Byte) (s : State) : (setByte k b s).hang = s.hang := (rfl)
@[simp] theorem setByte_hangAsk (k : Nat) (b : Byte) (s : State) : (setByte k b s).hangAsk = s.hangAsk := (rfl)
@[simp] theorem setByte_fabHangAsk (k : Nat) (b : Byte) (s : State) : (setByte k b s).fabHangAsk = s.fabHangAsk := (rfl)
@[simp] theorem setByte_copies (k : Nat) (b : Byte) (s : State) : (setByte k b s).copies = s.copies := (rfl)
@[simp] theorem setByte_fstat (k : Nat) (b : Byte) (s : State) : (setByte k b s).fstat = s.fstat := (rfl)
@[simp] theorem setByte_snap (k : Nat) (b : Byte) (s : State) : (setByte k b s).snap = s.snap := (rfl)
@[simp] theorem setByte_engines (k : Nat) (b : Byte) (s : State) : (setByte k b s).engines = s.engines := (rfl)
@[simp] theorem setByte_stale (k : Nat) (b : Byte) (s : State) : (setByte k b s).stale = s.stale := (rfl)
@[simp] theorem setByte_lanes (k : Nat) (b : Byte) (s : State) : (setByte k b s).lanes = s.lanes := (rfl)
@[simp] theorem setByte_stores (k : Nat) (b : Byte) (s : State) : (setByte k b s).stores = s.stores := (rfl)
@[simp] theorem setByte_seqs (k : Nat) (b : Byte) (s : State) : (setByte k b s).seqs = s.seqs := (rfl)
@[simp] theorem setByte_fails (k : Nat) (b : Byte) (s : State) : (setByte k b s).fails = s.fails := (rfl)
@[simp] theorem setByte_welds (k : Nat) (b : Byte) (s : State) : (setByte k b s).welds = s.welds := (rfl)
@[simp] theorem setByte_patina (k : Nat) (b : Byte) (s : State) : (setByte k b s).patina = s.patina := (rfl)
@[simp] theorem setByte_wiping (k : Nat) (b : Byte) (s : State) : (setByte k b s).wiping = s.wiping := (rfl)
@[simp] theorem setByte_ports (k : Nat) (b : Byte) (s : State) : (setByte k b s).ports = s.ports := (rfl)
@[simp] theorem setByte_fabric (k : Nat) (b : Byte) (s : State) : (setByte k b s).fabric = s.fabric := (rfl)
@[simp] theorem setByte_pcie (k : Nat) (b : Byte) (s : State) : (setByte k b s).pcie = s.pcie := (rfl)
@[simp] theorem setByte_thermal (k : Nat) (b : Byte) (s : State) : (setByte k b s).thermal = s.thermal := (rfl)
@[simp] theorem setByte_bellows (k : Nat) (b : Byte) (s : State) : (setByte k b s).bellows = s.bellows := (rfl)
@[simp] theorem setByte_temper (k : Nat) (b : Byte) (s : State) : (setByte k b s).temper = s.temper := (rfl)
@[simp] theorem setByte_primer (k : Nat) (b : Byte) (s : State) : (setByte k b s).primer = s.primer := (rfl)
@[simp] theorem setByte_calDue (k : Nat) (b : Byte) (s : State) : (setByte k b s).calDue = s.calDue := (rfl)
@[simp] theorem setByte_journal (k : Nat) (b : Byte) (s : State) : (setByte k b s).journal = s.journal := (rfl)
@[simp] theorem setByte_images (k : Nat) (b : Byte) (s : State) : (setByte k b s).images = s.images := (rfl)
@[simp] theorem setByte_loaded (k : Nat) (b : Byte) (s : State) : (setByte k b s).loaded = s.loaded := (rfl)
@[simp] theorem setByte_taken (k : Nat) (b : Byte) (s : State) : (setByte k b s).taken = s.taken := (rfl)
@[simp] theorem setByte_tap (k : Nat) (b : Byte) (s : State) : (setByte k b s).tap = s.tap := (rfl)
@[simp] theorem setByte_tapFault (k : Nat) (b : Byte) (s : State) : (setByte k b s).tapFault = s.tapFault := (rfl)
@[simp] theorem chan_setByte (k : Nat) (b : Byte) (j : Nat) (s : State) : chan (setByte k b s) j = chan s j := (rfl)
@[simp] theorem base_setByte (k : Nat) (b : Byte) (j : Nat) (s : State) : base (setByte k b s) j = base s j := (rfl)
@[simp] theorem dom_setByte (k : Nat) (b : Byte) (j : Nat) (s : State) : dom (setByte k b s) j = dom s j := (rfl)
@[simp] theorem eng_setByte (k : Nat) (b : Byte) (j : Nat) (s : State) : eng (setByte k b s) j = eng s j := (rfl)
@[simp] theorem lane_setByte (k : Nat) (b : Byte) (j : Nat) (s : State) : lane (setByte k b s) j = lane s j := (rfl)
@[simp] theorem store_setByte (k : Nat) (b : Byte) (j : Nat) (s : State) : store (setByte k b s) j = store s j := (rfl)
@[simp] theorem seqAt_setByte (k : Nat) (b : Byte) (j : Nat) (s : State) : seqAt (setByte k b s) j = seqAt s j := (rfl)
@[simp] theorem failPipe_setByte (k : Nat) (b : Byte) (j : Nat) (s : State) : failPipe (setByte k b s) j = failPipe s j := (rfl)
@[simp] theorem weld_setByte (k : Nat) (b : Byte) (j : Nat) (s : State) : weld (setByte k b s) j = weld s j := (rfl)
@[simp] theorem anvEntry_setByte (k : Nat) (b : Byte) (j : Nat) (s : State) : anvEntry (setByte k b s) j = anvEntry s j := (rfl)
@[simp] theorem port_setByte (k : Nat) (b : Byte) (j : Nat) (s : State) : port (setByte k b s) j = port s j := (rfl)
@[simp] theorem hangSlot_setByte (k : Nat) (b : Byte) (j : Nat) (s : State) : hangSlot (setByte k b s) j = hangSlot s j := (rfl)
@[simp] theorem tgChan_setByte (k : Nat) (b : Byte) (j : Nat) (s : State) : tgChan (setByte k b s) j = tgChan s j := (rfl)
@[simp] theorem bucket_setByte (k : Nat) (b : Byte) (j : Nat) (s : State) : bucket (setByte k b s) j = bucket s j := (rfl)
@[simp] theorem domLost_setByte (k : Nat) (b : Byte) (j : Nat) (s : State) : domLost (setByte k b s) j = domLost s j := (rfl)
@[simp] theorem canvasSet_setByte (k : Nat) (b : Byte) (p o : Nat) (s : State) : canvasSet (setByte k b s) p o = canvasSet s p o := (rfl)
@[simp] theorem rdRole_setByte (k : Nat) (b : Byte) (e : Bool) (p o : Nat) (s : State) : rdRole (setByte k b s) e p o = rdRole s e p o := (rfl)
@[simp] theorem rdReg_setByte (k : Nat) (b : Byte) (p o : Nat) (s : State) : rdReg (setByte k b s) p o = rdReg s p o := (rfl)
@[simp] theorem roleKey_setByte (k : Nat) (b : Byte) (e : Bool) (p o : Nat) (s : State) : roleKey (setByte k b s) e p o = roleKey s e p o := (rfl)
@[simp] theorem inForce_setByte (k : Nat) (b : Byte) (p o : Nat) (s : State) : inForce (setByte k b s) p o = inForce s p o := (rfl)
@[simp] theorem hangArmed_setByte (k : Nat) (b : Byte) (p : Nat) (s : State) : hangArmed (setByte k b s) p = hangArmed s p := (rfl)
@[simp] theorem wipeMem_pending (lo hi : Nat) (s : State) : (wipeMem lo hi s).pending = s.pending := (rfl)
@[simp] theorem wipeMem_now (lo hi : Nat) (s : State) : (wipeMem lo hi s).now = s.now := (rfl)
@[simp] theorem wipeMem_free (lo hi : Nat) (s : State) : (wipeMem lo hi s).free = s.free := (rfl)
@[simp] theorem wipeMem_outbox (lo hi : Nat) (s : State) : (wipeMem lo hi s).outbox = s.outbox := (rfl)
@[simp] theorem wipeMem_regs (lo hi : Nat) (s : State) : (wipeMem lo hi s).regs = s.regs := (rfl)
@[simp] theorem wipeMem_swapped (lo hi : Nat) (s : State) : (wipeMem lo hi s).swapped = s.swapped := (rfl)
@[simp] theorem wipeMem_calSwapped (lo hi : Nat) (s : State) : (wipeMem lo hi s).calSwapped = s.calSwapped := (rfl)
@[simp] theorem wipeMem_held (lo hi : Nat) (s : State) : (wipeMem lo hi s).held = s.held := (rfl)
@[simp] theorem wipeMem_wms (lo hi : Nat) (s : State) : (wipeMem lo hi s).wms = s.wms := (rfl)
@[simp] theorem wipeMem_irqOut (lo hi : Nat) (s : State) : (wipeMem lo hi s).irqOut = s.irqOut := (rfl)
@[simp] theorem wipeMem_msixDue (lo hi : Nat) (s : State) : (wipeMem lo hi s).msixDue = s.msixDue := (rfl)
@[simp] theorem wipeMem_pal (lo hi : Nat) (s : State) : (wipeMem lo hi s).pal = s.pal := (rfl)
@[simp] theorem wipeMem_palHeld (lo hi : Nat) (s : State) : (wipeMem lo hi s).palHeld = s.palHeld := (rfl)
@[simp] theorem wipeMem_palCmds (lo hi : Nat) (s : State) : (wipeMem lo hi s).palCmds = s.palCmds := (rfl)
@[simp] theorem wipeMem_chans (lo hi : Nat) (s : State) : (wipeMem lo hi s).chans = s.chans := (rfl)
@[simp] theorem wipeMem_bases (lo hi : Nat) (s : State) : (wipeMem lo hi s).bases = s.bases := (rfl)
@[simp] theorem wipeMem_tables (lo hi : Nat) (s : State) : (wipeMem lo hi s).tables = s.tables := (rfl)
@[simp] theorem wipeMem_doms (lo hi : Nat) (s : State) : (wipeMem lo hi s).doms = s.doms := (rfl)
@[simp] theorem wipeMem_pins (lo hi : Nat) (s : State) : (wipeMem lo hi s).pins = s.pins := (rfl)
@[simp] theorem wipeMem_lifecycle (lo hi : Nat) (s : State) : (wipeMem lo hi s).lifecycle = s.lifecycle := (rfl)
@[simp] theorem wipeMem_keyFused (lo hi : Nat) (s : State) : (wipeMem lo hi s).keyFused = s.keyFused := (rfl)
@[simp] theorem wipeMem_reports (lo hi : Nat) (s : State) : (wipeMem lo hi s).reports = s.reports := (rfl)
@[simp] theorem wipeMem_anvil (lo hi : Nat) (s : State) : (wipeMem lo hi s).anvil = s.anvil := (rfl)
@[simp] theorem wipeMem_nextFid (lo hi : Nat) (s : State) : (wipeMem lo hi s).nextFid = s.nextFid := (rfl)
@[simp] theorem wipeMem_corrected (lo hi : Nat) (s : State) : (wipeMem lo hi s).corrected = s.corrected := (rfl)
@[simp] theorem wipeMem_trans (lo hi : Nat) (s : State) : (wipeMem lo hi s).trans = s.trans := (rfl)
@[simp] theorem wipeMem_replies (lo hi : Nat) (s : State) : (wipeMem lo hi s).replies = s.replies := (rfl)
@[simp] theorem wipeMem_power (lo hi : Nat) (s : State) : (wipeMem lo hi s).power = s.power := (rfl)
@[simp] theorem wipeMem_granted (lo hi : Nat) (s : State) : (wipeMem lo hi s).granted = s.granted := (rfl)
@[simp] theorem wipeMem_tongs (lo hi : Nat) (s : State) : (wipeMem lo hi s).tongs = s.tongs := (rfl)
@[simp] theorem wipeMem_tongsLast (lo hi : Nat) (s : State) : (wipeMem lo hi s).tongsLast = s.tongsLast := (rfl)
@[simp] theorem wipeMem_mramLines (lo hi : Nat) (s : State) : (wipeMem lo hi s).mramLines = s.mramLines := (rfl)
@[simp] theorem wipeMem_mramGap (lo hi : Nat) (s : State) : (wipeMem lo hi s).mramGap = s.mramGap := (rfl)
@[simp] theorem wipeMem_hang (lo hi : Nat) (s : State) : (wipeMem lo hi s).hang = s.hang := (rfl)
@[simp] theorem wipeMem_hangAsk (lo hi : Nat) (s : State) : (wipeMem lo hi s).hangAsk = s.hangAsk := (rfl)
@[simp] theorem wipeMem_fabHangAsk (lo hi : Nat) (s : State) : (wipeMem lo hi s).fabHangAsk = s.fabHangAsk := (rfl)
@[simp] theorem wipeMem_copies (lo hi : Nat) (s : State) : (wipeMem lo hi s).copies = s.copies := (rfl)
@[simp] theorem wipeMem_fstat (lo hi : Nat) (s : State) : (wipeMem lo hi s).fstat = s.fstat := (rfl)
@[simp] theorem wipeMem_snap (lo hi : Nat) (s : State) : (wipeMem lo hi s).snap = s.snap := (rfl)
@[simp] theorem wipeMem_engines (lo hi : Nat) (s : State) : (wipeMem lo hi s).engines = s.engines := (rfl)
@[simp] theorem wipeMem_stale (lo hi : Nat) (s : State) : (wipeMem lo hi s).stale = s.stale := (rfl)
@[simp] theorem wipeMem_lanes (lo hi : Nat) (s : State) : (wipeMem lo hi s).lanes = s.lanes := (rfl)
@[simp] theorem wipeMem_stores (lo hi : Nat) (s : State) : (wipeMem lo hi s).stores = s.stores := (rfl)
@[simp] theorem wipeMem_seqs (lo hi : Nat) (s : State) : (wipeMem lo hi s).seqs = s.seqs := (rfl)
@[simp] theorem wipeMem_fails (lo hi : Nat) (s : State) : (wipeMem lo hi s).fails = s.fails := (rfl)
@[simp] theorem wipeMem_welds (lo hi : Nat) (s : State) : (wipeMem lo hi s).welds = s.welds := (rfl)
@[simp] theorem wipeMem_patina (lo hi : Nat) (s : State) : (wipeMem lo hi s).patina = s.patina := (rfl)
@[simp] theorem wipeMem_wiping (lo hi : Nat) (s : State) : (wipeMem lo hi s).wiping = s.wiping := (rfl)
@[simp] theorem wipeMem_ports (lo hi : Nat) (s : State) : (wipeMem lo hi s).ports = s.ports := (rfl)
@[simp] theorem wipeMem_fabric (lo hi : Nat) (s : State) : (wipeMem lo hi s).fabric = s.fabric := (rfl)
@[simp] theorem wipeMem_pcie (lo hi : Nat) (s : State) : (wipeMem lo hi s).pcie = s.pcie := (rfl)
@[simp] theorem wipeMem_thermal (lo hi : Nat) (s : State) : (wipeMem lo hi s).thermal = s.thermal := (rfl)
@[simp] theorem wipeMem_bellows (lo hi : Nat) (s : State) : (wipeMem lo hi s).bellows = s.bellows := (rfl)
@[simp] theorem wipeMem_temper (lo hi : Nat) (s : State) : (wipeMem lo hi s).temper = s.temper := (rfl)
@[simp] theorem wipeMem_primer (lo hi : Nat) (s : State) : (wipeMem lo hi s).primer = s.primer := (rfl)
@[simp] theorem wipeMem_calDue (lo hi : Nat) (s : State) : (wipeMem lo hi s).calDue = s.calDue := (rfl)
@[simp] theorem wipeMem_journal (lo hi : Nat) (s : State) : (wipeMem lo hi s).journal = s.journal := (rfl)
@[simp] theorem wipeMem_images (lo hi : Nat) (s : State) : (wipeMem lo hi s).images = s.images := (rfl)
@[simp] theorem wipeMem_loaded (lo hi : Nat) (s : State) : (wipeMem lo hi s).loaded = s.loaded := (rfl)
@[simp] theorem wipeMem_taken (lo hi : Nat) (s : State) : (wipeMem lo hi s).taken = s.taken := (rfl)
@[simp] theorem wipeMem_tap (lo hi : Nat) (s : State) : (wipeMem lo hi s).tap = s.tap := (rfl)
@[simp] theorem wipeMem_tapFault (lo hi : Nat) (s : State) : (wipeMem lo hi s).tapFault = s.tapFault := (rfl)
@[simp] theorem chan_wipeMem (lo hi : Nat) (j : Nat) (s : State) : chan (wipeMem lo hi s) j = chan s j := (rfl)
@[simp] theorem base_wipeMem (lo hi : Nat) (j : Nat) (s : State) : base (wipeMem lo hi s) j = base s j := (rfl)
@[simp] theorem dom_wipeMem (lo hi : Nat) (j : Nat) (s : State) : dom (wipeMem lo hi s) j = dom s j := (rfl)
@[simp] theorem eng_wipeMem (lo hi : Nat) (j : Nat) (s : State) : eng (wipeMem lo hi s) j = eng s j := (rfl)
@[simp] theorem lane_wipeMem (lo hi : Nat) (j : Nat) (s : State) : lane (wipeMem lo hi s) j = lane s j := (rfl)
@[simp] theorem store_wipeMem (lo hi : Nat) (j : Nat) (s : State) : store (wipeMem lo hi s) j = store s j := (rfl)
@[simp] theorem seqAt_wipeMem (lo hi : Nat) (j : Nat) (s : State) : seqAt (wipeMem lo hi s) j = seqAt s j := (rfl)
@[simp] theorem failPipe_wipeMem (lo hi : Nat) (j : Nat) (s : State) : failPipe (wipeMem lo hi s) j = failPipe s j := (rfl)
@[simp] theorem weld_wipeMem (lo hi : Nat) (j : Nat) (s : State) : weld (wipeMem lo hi s) j = weld s j := (rfl)
@[simp] theorem anvEntry_wipeMem (lo hi : Nat) (j : Nat) (s : State) : anvEntry (wipeMem lo hi s) j = anvEntry s j := (rfl)
@[simp] theorem port_wipeMem (lo hi : Nat) (j : Nat) (s : State) : port (wipeMem lo hi s) j = port s j := (rfl)
@[simp] theorem hangSlot_wipeMem (lo hi : Nat) (j : Nat) (s : State) : hangSlot (wipeMem lo hi s) j = hangSlot s j := (rfl)
@[simp] theorem tgChan_wipeMem (lo hi : Nat) (j : Nat) (s : State) : tgChan (wipeMem lo hi s) j = tgChan s j := (rfl)
@[simp] theorem bucket_wipeMem (lo hi : Nat) (j : Nat) (s : State) : bucket (wipeMem lo hi s) j = bucket s j := (rfl)
@[simp] theorem domLost_wipeMem (lo hi : Nat) (j : Nat) (s : State) : domLost (wipeMem lo hi s) j = domLost s j := (rfl)
@[simp] theorem canvasSet_wipeMem (lo hi : Nat) (p o : Nat) (s : State) : canvasSet (wipeMem lo hi s) p o = canvasSet s p o := (rfl)
@[simp] theorem rdRole_wipeMem (lo hi : Nat) (e : Bool) (p o : Nat) (s : State) : rdRole (wipeMem lo hi s) e p o = rdRole s e p o := (rfl)
@[simp] theorem rdReg_wipeMem (lo hi : Nat) (p o : Nat) (s : State) : rdReg (wipeMem lo hi s) p o = rdReg s p o := (rfl)
@[simp] theorem roleKey_wipeMem (lo hi : Nat) (e : Bool) (p o : Nat) (s : State) : roleKey (wipeMem lo hi s) e p o = roleKey s e p o := (rfl)
@[simp] theorem inForce_wipeMem (lo hi : Nat) (p o : Nat) (s : State) : inForce (wipeMem lo hi s) p o = inForce s p o := (rfl)
@[simp] theorem hangArmed_wipeMem (lo hi : Nat) (p : Nat) (s : State) : hangArmed (wipeMem lo hi s) p = hangArmed s p := (rfl)
@[simp] theorem report_pending (r : Report) (s : State) : (report r s).pending = s.pending := (rfl)
@[simp] theorem report_now (r : Report) (s : State) : (report r s).now = s.now := (rfl)
@[simp] theorem report_free (r : Report) (s : State) : (report r s).free = s.free := (rfl)
@[simp] theorem report_outbox (r : Report) (s : State) : (report r s).outbox = s.outbox := (rfl)
@[simp] theorem report_regs (r : Report) (s : State) : (report r s).regs = s.regs := (rfl)
@[simp] theorem report_swapped (r : Report) (s : State) : (report r s).swapped = s.swapped := (rfl)
@[simp] theorem report_calSwapped (r : Report) (s : State) : (report r s).calSwapped = s.calSwapped := (rfl)
@[simp] theorem report_held (r : Report) (s : State) : (report r s).held = s.held := (rfl)
@[simp] theorem report_wms (r : Report) (s : State) : (report r s).wms = s.wms := (rfl)
@[simp] theorem report_irqOut (r : Report) (s : State) : (report r s).irqOut = s.irqOut := (rfl)
@[simp] theorem report_msixDue (r : Report) (s : State) : (report r s).msixDue = s.msixDue := (rfl)
@[simp] theorem report_pal (r : Report) (s : State) : (report r s).pal = s.pal := (rfl)
@[simp] theorem report_palHeld (r : Report) (s : State) : (report r s).palHeld = s.palHeld := (rfl)
@[simp] theorem report_palCmds (r : Report) (s : State) : (report r s).palCmds = s.palCmds := (rfl)
@[simp] theorem report_chans (r : Report) (s : State) : (report r s).chans = s.chans := (rfl)
@[simp] theorem report_bases (r : Report) (s : State) : (report r s).bases = s.bases := (rfl)
@[simp] theorem report_tables (r : Report) (s : State) : (report r s).tables = s.tables := (rfl)
@[simp] theorem report_doms (r : Report) (s : State) : (report r s).doms = s.doms := (rfl)
@[simp] theorem report_pins (r : Report) (s : State) : (report r s).pins = s.pins := (rfl)
@[simp] theorem report_lifecycle (r : Report) (s : State) : (report r s).lifecycle = s.lifecycle := (rfl)
@[simp] theorem report_keyFused (r : Report) (s : State) : (report r s).keyFused = s.keyFused := (rfl)
@[simp] theorem report_anvil (r : Report) (s : State) : (report r s).anvil = s.anvil := (rfl)
@[simp] theorem report_nextFid (r : Report) (s : State) : (report r s).nextFid = s.nextFid := (rfl)
@[simp] theorem report_corrected (r : Report) (s : State) : (report r s).corrected = s.corrected := (rfl)
@[simp] theorem report_mem (r : Report) (s : State) : (report r s).mem = s.mem := (rfl)
@[simp] theorem report_trans (r : Report) (s : State) : (report r s).trans = s.trans := (rfl)
@[simp] theorem report_replies (r : Report) (s : State) : (report r s).replies = s.replies := (rfl)
@[simp] theorem report_power (r : Report) (s : State) : (report r s).power = s.power := (rfl)
@[simp] theorem report_granted (r : Report) (s : State) : (report r s).granted = s.granted := (rfl)
@[simp] theorem report_tongs (r : Report) (s : State) : (report r s).tongs = s.tongs := (rfl)
@[simp] theorem report_tongsLast (r : Report) (s : State) : (report r s).tongsLast = s.tongsLast := (rfl)
@[simp] theorem report_mramLines (r : Report) (s : State) : (report r s).mramLines = s.mramLines := (rfl)
@[simp] theorem report_mramGap (r : Report) (s : State) : (report r s).mramGap = s.mramGap := (rfl)
@[simp] theorem report_hang (r : Report) (s : State) : (report r s).hang = s.hang := (rfl)
@[simp] theorem report_hangAsk (r : Report) (s : State) : (report r s).hangAsk = s.hangAsk := (rfl)
@[simp] theorem report_fabHangAsk (r : Report) (s : State) : (report r s).fabHangAsk = s.fabHangAsk := (rfl)
@[simp] theorem report_copies (r : Report) (s : State) : (report r s).copies = s.copies := (rfl)
@[simp] theorem report_fstat (r : Report) (s : State) : (report r s).fstat = s.fstat := (rfl)
@[simp] theorem report_snap (r : Report) (s : State) : (report r s).snap = s.snap := (rfl)
@[simp] theorem report_engines (r : Report) (s : State) : (report r s).engines = s.engines := (rfl)
@[simp] theorem report_stale (r : Report) (s : State) : (report r s).stale = s.stale := (rfl)
@[simp] theorem report_lanes (r : Report) (s : State) : (report r s).lanes = s.lanes := (rfl)
@[simp] theorem report_stores (r : Report) (s : State) : (report r s).stores = s.stores := (rfl)
@[simp] theorem report_seqs (r : Report) (s : State) : (report r s).seqs = s.seqs := (rfl)
@[simp] theorem report_fails (r : Report) (s : State) : (report r s).fails = s.fails := (rfl)
@[simp] theorem report_welds (r : Report) (s : State) : (report r s).welds = s.welds := (rfl)
@[simp] theorem report_patina (r : Report) (s : State) : (report r s).patina = s.patina := (rfl)
@[simp] theorem report_wiping (r : Report) (s : State) : (report r s).wiping = s.wiping := (rfl)
@[simp] theorem report_ports (r : Report) (s : State) : (report r s).ports = s.ports := (rfl)
@[simp] theorem report_fabric (r : Report) (s : State) : (report r s).fabric = s.fabric := (rfl)
@[simp] theorem report_pcie (r : Report) (s : State) : (report r s).pcie = s.pcie := (rfl)
@[simp] theorem report_thermal (r : Report) (s : State) : (report r s).thermal = s.thermal := (rfl)
@[simp] theorem report_bellows (r : Report) (s : State) : (report r s).bellows = s.bellows := (rfl)
@[simp] theorem report_temper (r : Report) (s : State) : (report r s).temper = s.temper := (rfl)
@[simp] theorem report_primer (r : Report) (s : State) : (report r s).primer = s.primer := (rfl)
@[simp] theorem report_calDue (r : Report) (s : State) : (report r s).calDue = s.calDue := (rfl)
@[simp] theorem report_journal (r : Report) (s : State) : (report r s).journal = s.journal := (rfl)
@[simp] theorem report_images (r : Report) (s : State) : (report r s).images = s.images := (rfl)
@[simp] theorem report_loaded (r : Report) (s : State) : (report r s).loaded = s.loaded := (rfl)
@[simp] theorem report_taken (r : Report) (s : State) : (report r s).taken = s.taken := (rfl)
@[simp] theorem report_tap (r : Report) (s : State) : (report r s).tap = s.tap := (rfl)
@[simp] theorem report_tapFault (r : Report) (s : State) : (report r s).tapFault = s.tapFault := (rfl)
@[simp] theorem chan_report (r : Report) (j : Nat) (s : State) : chan (report r s) j = chan s j := (rfl)
@[simp] theorem base_report (r : Report) (j : Nat) (s : State) : base (report r s) j = base s j := (rfl)
@[simp] theorem dom_report (r : Report) (j : Nat) (s : State) : dom (report r s) j = dom s j := (rfl)
@[simp] theorem eng_report (r : Report) (j : Nat) (s : State) : eng (report r s) j = eng s j := (rfl)
@[simp] theorem lane_report (r : Report) (j : Nat) (s : State) : lane (report r s) j = lane s j := (rfl)
@[simp] theorem store_report (r : Report) (j : Nat) (s : State) : store (report r s) j = store s j := (rfl)
@[simp] theorem seqAt_report (r : Report) (j : Nat) (s : State) : seqAt (report r s) j = seqAt s j := (rfl)
@[simp] theorem failPipe_report (r : Report) (j : Nat) (s : State) : failPipe (report r s) j = failPipe s j := (rfl)
@[simp] theorem weld_report (r : Report) (j : Nat) (s : State) : weld (report r s) j = weld s j := (rfl)
@[simp] theorem memByte_report (r : Report) (j : Nat) (s : State) : memByte (report r s) j = memByte s j := (rfl)
@[simp] theorem anvEntry_report (r : Report) (j : Nat) (s : State) : anvEntry (report r s) j = anvEntry s j := (rfl)
@[simp] theorem port_report (r : Report) (j : Nat) (s : State) : port (report r s) j = port s j := (rfl)
@[simp] theorem hangSlot_report (r : Report) (j : Nat) (s : State) : hangSlot (report r s) j = hangSlot s j := (rfl)
@[simp] theorem tgChan_report (r : Report) (j : Nat) (s : State) : tgChan (report r s) j = tgChan s j := (rfl)
@[simp] theorem bucket_report (r : Report) (j : Nat) (s : State) : bucket (report r s) j = bucket s j := (rfl)
@[simp] theorem domLost_report (r : Report) (j : Nat) (s : State) : domLost (report r s) j = domLost s j := (rfl)
@[simp] theorem canvasSet_report (r : Report) (p o : Nat) (s : State) : canvasSet (report r s) p o = canvasSet s p o := (rfl)
@[simp] theorem rdRole_report (r : Report) (e : Bool) (p o : Nat) (s : State) : rdRole (report r s) e p o = rdRole s e p o := (rfl)
@[simp] theorem rdReg_report (r : Report) (p o : Nat) (s : State) : rdReg (report r s) p o = rdReg s p o := (rfl)
@[simp] theorem roleKey_report (r : Report) (e : Bool) (p o : Nat) (s : State) : roleKey (report r s) e p o = roleKey s e p o := (rfl)
@[simp] theorem inForce_report (r : Report) (p o : Nat) (s : State) : inForce (report r s) p o = inForce s p o := (rfl)
@[simp] theorem hangArmed_report (r : Report) (p : Nat) (s : State) : hangArmed (report r s) p = hangArmed s p := (rfl)
@[simp] theorem setAnv_pending (i : Nat) (x : AnvilEntry) (s : State) : (setAnv i x s).pending = s.pending := (rfl)
@[simp] theorem setAnv_now (i : Nat) (x : AnvilEntry) (s : State) : (setAnv i x s).now = s.now := (rfl)
@[simp] theorem setAnv_free (i : Nat) (x : AnvilEntry) (s : State) : (setAnv i x s).free = s.free := (rfl)
@[simp] theorem setAnv_outbox (i : Nat) (x : AnvilEntry) (s : State) : (setAnv i x s).outbox = s.outbox := (rfl)
@[simp] theorem setAnv_regs (i : Nat) (x : AnvilEntry) (s : State) : (setAnv i x s).regs = s.regs := (rfl)
@[simp] theorem setAnv_swapped (i : Nat) (x : AnvilEntry) (s : State) : (setAnv i x s).swapped = s.swapped := (rfl)
@[simp] theorem setAnv_calSwapped (i : Nat) (x : AnvilEntry) (s : State) : (setAnv i x s).calSwapped = s.calSwapped := (rfl)
@[simp] theorem setAnv_held (i : Nat) (x : AnvilEntry) (s : State) : (setAnv i x s).held = s.held := (rfl)
@[simp] theorem setAnv_wms (i : Nat) (x : AnvilEntry) (s : State) : (setAnv i x s).wms = s.wms := (rfl)
@[simp] theorem setAnv_irqOut (i : Nat) (x : AnvilEntry) (s : State) : (setAnv i x s).irqOut = s.irqOut := (rfl)
@[simp] theorem setAnv_msixDue (i : Nat) (x : AnvilEntry) (s : State) : (setAnv i x s).msixDue = s.msixDue := (rfl)
@[simp] theorem setAnv_pal (i : Nat) (x : AnvilEntry) (s : State) : (setAnv i x s).pal = s.pal := (rfl)
@[simp] theorem setAnv_palHeld (i : Nat) (x : AnvilEntry) (s : State) : (setAnv i x s).palHeld = s.palHeld := (rfl)
@[simp] theorem setAnv_palCmds (i : Nat) (x : AnvilEntry) (s : State) : (setAnv i x s).palCmds = s.palCmds := (rfl)
@[simp] theorem setAnv_chans (i : Nat) (x : AnvilEntry) (s : State) : (setAnv i x s).chans = s.chans := (rfl)
@[simp] theorem setAnv_bases (i : Nat) (x : AnvilEntry) (s : State) : (setAnv i x s).bases = s.bases := (rfl)
@[simp] theorem setAnv_tables (i : Nat) (x : AnvilEntry) (s : State) : (setAnv i x s).tables = s.tables := (rfl)
@[simp] theorem setAnv_doms (i : Nat) (x : AnvilEntry) (s : State) : (setAnv i x s).doms = s.doms := (rfl)
@[simp] theorem setAnv_pins (i : Nat) (x : AnvilEntry) (s : State) : (setAnv i x s).pins = s.pins := (rfl)
@[simp] theorem setAnv_lifecycle (i : Nat) (x : AnvilEntry) (s : State) : (setAnv i x s).lifecycle = s.lifecycle := (rfl)
@[simp] theorem setAnv_keyFused (i : Nat) (x : AnvilEntry) (s : State) : (setAnv i x s).keyFused = s.keyFused := (rfl)
@[simp] theorem setAnv_reports (i : Nat) (x : AnvilEntry) (s : State) : (setAnv i x s).reports = s.reports := (rfl)
@[simp] theorem setAnv_nextFid (i : Nat) (x : AnvilEntry) (s : State) : (setAnv i x s).nextFid = s.nextFid := (rfl)
@[simp] theorem setAnv_corrected (i : Nat) (x : AnvilEntry) (s : State) : (setAnv i x s).corrected = s.corrected := (rfl)
@[simp] theorem setAnv_mem (i : Nat) (x : AnvilEntry) (s : State) : (setAnv i x s).mem = s.mem := (rfl)
@[simp] theorem setAnv_trans (i : Nat) (x : AnvilEntry) (s : State) : (setAnv i x s).trans = s.trans := (rfl)
@[simp] theorem setAnv_replies (i : Nat) (x : AnvilEntry) (s : State) : (setAnv i x s).replies = s.replies := (rfl)
@[simp] theorem setAnv_power (i : Nat) (x : AnvilEntry) (s : State) : (setAnv i x s).power = s.power := (rfl)
@[simp] theorem setAnv_granted (i : Nat) (x : AnvilEntry) (s : State) : (setAnv i x s).granted = s.granted := (rfl)
@[simp] theorem setAnv_tongs (i : Nat) (x : AnvilEntry) (s : State) : (setAnv i x s).tongs = s.tongs := (rfl)
@[simp] theorem setAnv_tongsLast (i : Nat) (x : AnvilEntry) (s : State) : (setAnv i x s).tongsLast = s.tongsLast := (rfl)
@[simp] theorem setAnv_mramLines (i : Nat) (x : AnvilEntry) (s : State) : (setAnv i x s).mramLines = s.mramLines := (rfl)
@[simp] theorem setAnv_mramGap (i : Nat) (x : AnvilEntry) (s : State) : (setAnv i x s).mramGap = s.mramGap := (rfl)
@[simp] theorem setAnv_hang (i : Nat) (x : AnvilEntry) (s : State) : (setAnv i x s).hang = s.hang := (rfl)
@[simp] theorem setAnv_hangAsk (i : Nat) (x : AnvilEntry) (s : State) : (setAnv i x s).hangAsk = s.hangAsk := (rfl)
@[simp] theorem setAnv_fabHangAsk (i : Nat) (x : AnvilEntry) (s : State) : (setAnv i x s).fabHangAsk = s.fabHangAsk := (rfl)
@[simp] theorem setAnv_copies (i : Nat) (x : AnvilEntry) (s : State) : (setAnv i x s).copies = s.copies := (rfl)
@[simp] theorem setAnv_fstat (i : Nat) (x : AnvilEntry) (s : State) : (setAnv i x s).fstat = s.fstat := (rfl)
@[simp] theorem setAnv_snap (i : Nat) (x : AnvilEntry) (s : State) : (setAnv i x s).snap = s.snap := (rfl)
@[simp] theorem setAnv_engines (i : Nat) (x : AnvilEntry) (s : State) : (setAnv i x s).engines = s.engines := (rfl)
@[simp] theorem setAnv_stale (i : Nat) (x : AnvilEntry) (s : State) : (setAnv i x s).stale = s.stale := (rfl)
@[simp] theorem setAnv_lanes (i : Nat) (x : AnvilEntry) (s : State) : (setAnv i x s).lanes = s.lanes := (rfl)
@[simp] theorem setAnv_stores (i : Nat) (x : AnvilEntry) (s : State) : (setAnv i x s).stores = s.stores := (rfl)
@[simp] theorem setAnv_seqs (i : Nat) (x : AnvilEntry) (s : State) : (setAnv i x s).seqs = s.seqs := (rfl)
@[simp] theorem setAnv_fails (i : Nat) (x : AnvilEntry) (s : State) : (setAnv i x s).fails = s.fails := (rfl)
@[simp] theorem setAnv_welds (i : Nat) (x : AnvilEntry) (s : State) : (setAnv i x s).welds = s.welds := (rfl)
@[simp] theorem setAnv_patina (i : Nat) (x : AnvilEntry) (s : State) : (setAnv i x s).patina = s.patina := (rfl)
@[simp] theorem setAnv_wiping (i : Nat) (x : AnvilEntry) (s : State) : (setAnv i x s).wiping = s.wiping := (rfl)
@[simp] theorem setAnv_ports (i : Nat) (x : AnvilEntry) (s : State) : (setAnv i x s).ports = s.ports := (rfl)
@[simp] theorem setAnv_fabric (i : Nat) (x : AnvilEntry) (s : State) : (setAnv i x s).fabric = s.fabric := (rfl)
@[simp] theorem setAnv_pcie (i : Nat) (x : AnvilEntry) (s : State) : (setAnv i x s).pcie = s.pcie := (rfl)
@[simp] theorem setAnv_thermal (i : Nat) (x : AnvilEntry) (s : State) : (setAnv i x s).thermal = s.thermal := (rfl)
@[simp] theorem setAnv_bellows (i : Nat) (x : AnvilEntry) (s : State) : (setAnv i x s).bellows = s.bellows := (rfl)
@[simp] theorem setAnv_temper (i : Nat) (x : AnvilEntry) (s : State) : (setAnv i x s).temper = s.temper := (rfl)
@[simp] theorem setAnv_primer (i : Nat) (x : AnvilEntry) (s : State) : (setAnv i x s).primer = s.primer := (rfl)
@[simp] theorem setAnv_calDue (i : Nat) (x : AnvilEntry) (s : State) : (setAnv i x s).calDue = s.calDue := (rfl)
@[simp] theorem setAnv_journal (i : Nat) (x : AnvilEntry) (s : State) : (setAnv i x s).journal = s.journal := (rfl)
@[simp] theorem setAnv_images (i : Nat) (x : AnvilEntry) (s : State) : (setAnv i x s).images = s.images := (rfl)
@[simp] theorem setAnv_loaded (i : Nat) (x : AnvilEntry) (s : State) : (setAnv i x s).loaded = s.loaded := (rfl)
@[simp] theorem setAnv_taken (i : Nat) (x : AnvilEntry) (s : State) : (setAnv i x s).taken = s.taken := (rfl)
@[simp] theorem setAnv_tap (i : Nat) (x : AnvilEntry) (s : State) : (setAnv i x s).tap = s.tap := (rfl)
@[simp] theorem setAnv_tapFault (i : Nat) (x : AnvilEntry) (s : State) : (setAnv i x s).tapFault = s.tapFault := (rfl)
@[simp] theorem chan_setAnv (i : Nat) (x : AnvilEntry) (j : Nat) (s : State) : chan (setAnv i x s) j = chan s j := (rfl)
@[simp] theorem base_setAnv (i : Nat) (x : AnvilEntry) (j : Nat) (s : State) : base (setAnv i x s) j = base s j := (rfl)
@[simp] theorem dom_setAnv (i : Nat) (x : AnvilEntry) (j : Nat) (s : State) : dom (setAnv i x s) j = dom s j := (rfl)
@[simp] theorem eng_setAnv (i : Nat) (x : AnvilEntry) (j : Nat) (s : State) : eng (setAnv i x s) j = eng s j := (rfl)
@[simp] theorem lane_setAnv (i : Nat) (x : AnvilEntry) (j : Nat) (s : State) : lane (setAnv i x s) j = lane s j := (rfl)
@[simp] theorem store_setAnv (i : Nat) (x : AnvilEntry) (j : Nat) (s : State) : store (setAnv i x s) j = store s j := (rfl)
@[simp] theorem seqAt_setAnv (i : Nat) (x : AnvilEntry) (j : Nat) (s : State) : seqAt (setAnv i x s) j = seqAt s j := (rfl)
@[simp] theorem failPipe_setAnv (i : Nat) (x : AnvilEntry) (j : Nat) (s : State) : failPipe (setAnv i x s) j = failPipe s j := (rfl)
@[simp] theorem weld_setAnv (i : Nat) (x : AnvilEntry) (j : Nat) (s : State) : weld (setAnv i x s) j = weld s j := (rfl)
@[simp] theorem memByte_setAnv (i : Nat) (x : AnvilEntry) (j : Nat) (s : State) : memByte (setAnv i x s) j = memByte s j := (rfl)
@[simp] theorem port_setAnv (i : Nat) (x : AnvilEntry) (j : Nat) (s : State) : port (setAnv i x s) j = port s j := (rfl)
@[simp] theorem hangSlot_setAnv (i : Nat) (x : AnvilEntry) (j : Nat) (s : State) : hangSlot (setAnv i x s) j = hangSlot s j := (rfl)
@[simp] theorem tgChan_setAnv (i : Nat) (x : AnvilEntry) (j : Nat) (s : State) : tgChan (setAnv i x s) j = tgChan s j := (rfl)
@[simp] theorem bucket_setAnv (i : Nat) (x : AnvilEntry) (j : Nat) (s : State) : bucket (setAnv i x s) j = bucket s j := (rfl)
@[simp] theorem domLost_setAnv (i : Nat) (x : AnvilEntry) (j : Nat) (s : State) : domLost (setAnv i x s) j = domLost s j := (rfl)
@[simp] theorem canvasSet_setAnv (i : Nat) (x : AnvilEntry) (p o : Nat) (s : State) : canvasSet (setAnv i x s) p o = canvasSet s p o := (rfl)
@[simp] theorem rdRole_setAnv (i : Nat) (x : AnvilEntry) (e : Bool) (p o : Nat) (s : State) : rdRole (setAnv i x s) e p o = rdRole s e p o := (rfl)
@[simp] theorem rdReg_setAnv (i : Nat) (x : AnvilEntry) (p o : Nat) (s : State) : rdReg (setAnv i x s) p o = rdReg s p o := (rfl)
@[simp] theorem roleKey_setAnv (i : Nat) (x : AnvilEntry) (e : Bool) (p o : Nat) (s : State) : roleKey (setAnv i x s) e p o = roleKey s e p o := (rfl)
@[simp] theorem inForce_setAnv (i : Nat) (x : AnvilEntry) (p o : Nat) (s : State) : inForce (setAnv i x s) p o = inForce s p o := (rfl)
@[simp] theorem hangArmed_setAnv (i : Nat) (x : AnvilEntry) (p : Nat) (s : State) : hangArmed (setAnv i x s) p = hangArmed s p := (rfl)
@[simp] theorem setPortAt_pending (p : Nat) (x : Port) (s : State) : (setPortAt p x s).pending = s.pending := (rfl)
@[simp] theorem setPortAt_now (p : Nat) (x : Port) (s : State) : (setPortAt p x s).now = s.now := (rfl)
@[simp] theorem setPortAt_free (p : Nat) (x : Port) (s : State) : (setPortAt p x s).free = s.free := (rfl)
@[simp] theorem setPortAt_outbox (p : Nat) (x : Port) (s : State) : (setPortAt p x s).outbox = s.outbox := (rfl)
@[simp] theorem setPortAt_regs (p : Nat) (x : Port) (s : State) : (setPortAt p x s).regs = s.regs := (rfl)
@[simp] theorem setPortAt_swapped (p : Nat) (x : Port) (s : State) : (setPortAt p x s).swapped = s.swapped := (rfl)
@[simp] theorem setPortAt_calSwapped (p : Nat) (x : Port) (s : State) : (setPortAt p x s).calSwapped = s.calSwapped := (rfl)
@[simp] theorem setPortAt_held (p : Nat) (x : Port) (s : State) : (setPortAt p x s).held = s.held := (rfl)
@[simp] theorem setPortAt_wms (p : Nat) (x : Port) (s : State) : (setPortAt p x s).wms = s.wms := (rfl)
@[simp] theorem setPortAt_irqOut (p : Nat) (x : Port) (s : State) : (setPortAt p x s).irqOut = s.irqOut := (rfl)
@[simp] theorem setPortAt_msixDue (p : Nat) (x : Port) (s : State) : (setPortAt p x s).msixDue = s.msixDue := (rfl)
@[simp] theorem setPortAt_pal (p : Nat) (x : Port) (s : State) : (setPortAt p x s).pal = s.pal := (rfl)
@[simp] theorem setPortAt_palHeld (p : Nat) (x : Port) (s : State) : (setPortAt p x s).palHeld = s.palHeld := (rfl)
@[simp] theorem setPortAt_palCmds (p : Nat) (x : Port) (s : State) : (setPortAt p x s).palCmds = s.palCmds := (rfl)
@[simp] theorem setPortAt_chans (p : Nat) (x : Port) (s : State) : (setPortAt p x s).chans = s.chans := (rfl)
@[simp] theorem setPortAt_bases (p : Nat) (x : Port) (s : State) : (setPortAt p x s).bases = s.bases := (rfl)
@[simp] theorem setPortAt_tables (p : Nat) (x : Port) (s : State) : (setPortAt p x s).tables = s.tables := (rfl)
@[simp] theorem setPortAt_doms (p : Nat) (x : Port) (s : State) : (setPortAt p x s).doms = s.doms := (rfl)
@[simp] theorem setPortAt_pins (p : Nat) (x : Port) (s : State) : (setPortAt p x s).pins = s.pins := (rfl)
@[simp] theorem setPortAt_lifecycle (p : Nat) (x : Port) (s : State) : (setPortAt p x s).lifecycle = s.lifecycle := (rfl)
@[simp] theorem setPortAt_keyFused (p : Nat) (x : Port) (s : State) : (setPortAt p x s).keyFused = s.keyFused := (rfl)
@[simp] theorem setPortAt_reports (p : Nat) (x : Port) (s : State) : (setPortAt p x s).reports = s.reports := (rfl)
@[simp] theorem setPortAt_anvil (p : Nat) (x : Port) (s : State) : (setPortAt p x s).anvil = s.anvil := (rfl)
@[simp] theorem setPortAt_nextFid (p : Nat) (x : Port) (s : State) : (setPortAt p x s).nextFid = s.nextFid := (rfl)
@[simp] theorem setPortAt_corrected (p : Nat) (x : Port) (s : State) : (setPortAt p x s).corrected = s.corrected := (rfl)
@[simp] theorem setPortAt_mem (p : Nat) (x : Port) (s : State) : (setPortAt p x s).mem = s.mem := (rfl)
@[simp] theorem setPortAt_trans (p : Nat) (x : Port) (s : State) : (setPortAt p x s).trans = s.trans := (rfl)
@[simp] theorem setPortAt_replies (p : Nat) (x : Port) (s : State) : (setPortAt p x s).replies = s.replies := (rfl)
@[simp] theorem setPortAt_power (p : Nat) (x : Port) (s : State) : (setPortAt p x s).power = s.power := (rfl)
@[simp] theorem setPortAt_granted (p : Nat) (x : Port) (s : State) : (setPortAt p x s).granted = s.granted := (rfl)
@[simp] theorem setPortAt_tongs (p : Nat) (x : Port) (s : State) : (setPortAt p x s).tongs = s.tongs := (rfl)
@[simp] theorem setPortAt_tongsLast (p : Nat) (x : Port) (s : State) : (setPortAt p x s).tongsLast = s.tongsLast := (rfl)
@[simp] theorem setPortAt_mramLines (p : Nat) (x : Port) (s : State) : (setPortAt p x s).mramLines = s.mramLines := (rfl)
@[simp] theorem setPortAt_mramGap (p : Nat) (x : Port) (s : State) : (setPortAt p x s).mramGap = s.mramGap := (rfl)
@[simp] theorem setPortAt_hang (p : Nat) (x : Port) (s : State) : (setPortAt p x s).hang = s.hang := (rfl)
@[simp] theorem setPortAt_hangAsk (p : Nat) (x : Port) (s : State) : (setPortAt p x s).hangAsk = s.hangAsk := (rfl)
@[simp] theorem setPortAt_fabHangAsk (p : Nat) (x : Port) (s : State) : (setPortAt p x s).fabHangAsk = s.fabHangAsk := (rfl)
@[simp] theorem setPortAt_copies (p : Nat) (x : Port) (s : State) : (setPortAt p x s).copies = s.copies := (rfl)
@[simp] theorem setPortAt_fstat (p : Nat) (x : Port) (s : State) : (setPortAt p x s).fstat = s.fstat := (rfl)
@[simp] theorem setPortAt_snap (p : Nat) (x : Port) (s : State) : (setPortAt p x s).snap = s.snap := (rfl)
@[simp] theorem setPortAt_engines (p : Nat) (x : Port) (s : State) : (setPortAt p x s).engines = s.engines := (rfl)
@[simp] theorem setPortAt_stale (p : Nat) (x : Port) (s : State) : (setPortAt p x s).stale = s.stale := (rfl)
@[simp] theorem setPortAt_lanes (p : Nat) (x : Port) (s : State) : (setPortAt p x s).lanes = s.lanes := (rfl)
@[simp] theorem setPortAt_stores (p : Nat) (x : Port) (s : State) : (setPortAt p x s).stores = s.stores := (rfl)
@[simp] theorem setPortAt_seqs (p : Nat) (x : Port) (s : State) : (setPortAt p x s).seqs = s.seqs := (rfl)
@[simp] theorem setPortAt_fails (p : Nat) (x : Port) (s : State) : (setPortAt p x s).fails = s.fails := (rfl)
@[simp] theorem setPortAt_welds (p : Nat) (x : Port) (s : State) : (setPortAt p x s).welds = s.welds := (rfl)
@[simp] theorem setPortAt_patina (p : Nat) (x : Port) (s : State) : (setPortAt p x s).patina = s.patina := (rfl)
@[simp] theorem setPortAt_wiping (p : Nat) (x : Port) (s : State) : (setPortAt p x s).wiping = s.wiping := (rfl)
@[simp] theorem setPortAt_fabric (p : Nat) (x : Port) (s : State) : (setPortAt p x s).fabric = s.fabric := (rfl)
@[simp] theorem setPortAt_pcie (p : Nat) (x : Port) (s : State) : (setPortAt p x s).pcie = s.pcie := (rfl)
@[simp] theorem setPortAt_thermal (p : Nat) (x : Port) (s : State) : (setPortAt p x s).thermal = s.thermal := (rfl)
@[simp] theorem setPortAt_bellows (p : Nat) (x : Port) (s : State) : (setPortAt p x s).bellows = s.bellows := (rfl)
@[simp] theorem setPortAt_temper (p : Nat) (x : Port) (s : State) : (setPortAt p x s).temper = s.temper := (rfl)
@[simp] theorem setPortAt_primer (p : Nat) (x : Port) (s : State) : (setPortAt p x s).primer = s.primer := (rfl)
@[simp] theorem setPortAt_calDue (p : Nat) (x : Port) (s : State) : (setPortAt p x s).calDue = s.calDue := (rfl)
@[simp] theorem setPortAt_journal (p : Nat) (x : Port) (s : State) : (setPortAt p x s).journal = s.journal := (rfl)
@[simp] theorem setPortAt_images (p : Nat) (x : Port) (s : State) : (setPortAt p x s).images = s.images := (rfl)
@[simp] theorem setPortAt_loaded (p : Nat) (x : Port) (s : State) : (setPortAt p x s).loaded = s.loaded := (rfl)
@[simp] theorem setPortAt_taken (p : Nat) (x : Port) (s : State) : (setPortAt p x s).taken = s.taken := (rfl)
@[simp] theorem setPortAt_tap (p : Nat) (x : Port) (s : State) : (setPortAt p x s).tap = s.tap := (rfl)
@[simp] theorem setPortAt_tapFault (p : Nat) (x : Port) (s : State) : (setPortAt p x s).tapFault = s.tapFault := (rfl)
@[simp] theorem chan_setPortAt (p : Nat) (x : Port) (j : Nat) (s : State) : chan (setPortAt p x s) j = chan s j := (rfl)
@[simp] theorem base_setPortAt (p : Nat) (x : Port) (j : Nat) (s : State) : base (setPortAt p x s) j = base s j := (rfl)
@[simp] theorem dom_setPortAt (p : Nat) (x : Port) (j : Nat) (s : State) : dom (setPortAt p x s) j = dom s j := (rfl)
@[simp] theorem eng_setPortAt (p : Nat) (x : Port) (j : Nat) (s : State) : eng (setPortAt p x s) j = eng s j := (rfl)
@[simp] theorem lane_setPortAt (p : Nat) (x : Port) (j : Nat) (s : State) : lane (setPortAt p x s) j = lane s j := (rfl)
@[simp] theorem store_setPortAt (p : Nat) (x : Port) (j : Nat) (s : State) : store (setPortAt p x s) j = store s j := (rfl)
@[simp] theorem seqAt_setPortAt (p : Nat) (x : Port) (j : Nat) (s : State) : seqAt (setPortAt p x s) j = seqAt s j := (rfl)
@[simp] theorem failPipe_setPortAt (p : Nat) (x : Port) (j : Nat) (s : State) : failPipe (setPortAt p x s) j = failPipe s j := (rfl)
@[simp] theorem weld_setPortAt (p : Nat) (x : Port) (j : Nat) (s : State) : weld (setPortAt p x s) j = weld s j := (rfl)
@[simp] theorem memByte_setPortAt (p : Nat) (x : Port) (j : Nat) (s : State) : memByte (setPortAt p x s) j = memByte s j := (rfl)
@[simp] theorem anvEntry_setPortAt (p : Nat) (x : Port) (j : Nat) (s : State) : anvEntry (setPortAt p x s) j = anvEntry s j := (rfl)
@[simp] theorem hangSlot_setPortAt (p : Nat) (x : Port) (j : Nat) (s : State) : hangSlot (setPortAt p x s) j = hangSlot s j := (rfl)
@[simp] theorem tgChan_setPortAt (p : Nat) (x : Port) (j : Nat) (s : State) : tgChan (setPortAt p x s) j = tgChan s j := (rfl)
@[simp] theorem bucket_setPortAt (p : Nat) (x : Port) (j : Nat) (s : State) : bucket (setPortAt p x s) j = bucket s j := (rfl)
@[simp] theorem domLost_setPortAt (p : Nat) (x : Port) (j : Nat) (s : State) : domLost (setPortAt p x s) j = domLost s j := (rfl)
@[simp] theorem canvasSet_setPortAt (p : Nat) (x : Port) (p' o : Nat) (s : State) : canvasSet (setPortAt p x s) p' o = canvasSet s p' o := (rfl)
@[simp] theorem rdRole_setPortAt (p : Nat) (x : Port) (e : Bool) (p' o : Nat) (s : State) : rdRole (setPortAt p x s) e p' o = rdRole s e p' o := (rfl)
@[simp] theorem rdReg_setPortAt (p : Nat) (x : Port) (p' o : Nat) (s : State) : rdReg (setPortAt p x s) p' o = rdReg s p' o := (rfl)
@[simp] theorem roleKey_setPortAt (p : Nat) (x : Port) (e : Bool) (p' o : Nat) (s : State) : roleKey (setPortAt p x s) e p' o = roleKey s e p' o := (rfl)
@[simp] theorem inForce_setPortAt (p : Nat) (x : Port) (p' o : Nat) (s : State) : inForce (setPortAt p x s) p' o = inForce s p' o := (rfl)
@[simp] theorem hangArmed_setPortAt (p : Nat) (x : Port) (p' : Nat) (s : State) : hangArmed (setPortAt p x s) p' = hangArmed s p' := (rfl)
@[simp] theorem modPort_pending (p : Nat) (f : Port → Port) (s : State) : (modPort p f s).pending = s.pending := (rfl)
@[simp] theorem modPort_now (p : Nat) (f : Port → Port) (s : State) : (modPort p f s).now = s.now := (rfl)
@[simp] theorem modPort_free (p : Nat) (f : Port → Port) (s : State) : (modPort p f s).free = s.free := (rfl)
@[simp] theorem modPort_outbox (p : Nat) (f : Port → Port) (s : State) : (modPort p f s).outbox = s.outbox := (rfl)
@[simp] theorem modPort_regs (p : Nat) (f : Port → Port) (s : State) : (modPort p f s).regs = s.regs := (rfl)
@[simp] theorem modPort_swapped (p : Nat) (f : Port → Port) (s : State) : (modPort p f s).swapped = s.swapped := (rfl)
@[simp] theorem modPort_calSwapped (p : Nat) (f : Port → Port) (s : State) : (modPort p f s).calSwapped = s.calSwapped := (rfl)
@[simp] theorem modPort_held (p : Nat) (f : Port → Port) (s : State) : (modPort p f s).held = s.held := (rfl)
@[simp] theorem modPort_wms (p : Nat) (f : Port → Port) (s : State) : (modPort p f s).wms = s.wms := (rfl)
@[simp] theorem modPort_irqOut (p : Nat) (f : Port → Port) (s : State) : (modPort p f s).irqOut = s.irqOut := (rfl)
@[simp] theorem modPort_msixDue (p : Nat) (f : Port → Port) (s : State) : (modPort p f s).msixDue = s.msixDue := (rfl)
@[simp] theorem modPort_pal (p : Nat) (f : Port → Port) (s : State) : (modPort p f s).pal = s.pal := (rfl)
@[simp] theorem modPort_palHeld (p : Nat) (f : Port → Port) (s : State) : (modPort p f s).palHeld = s.palHeld := (rfl)
@[simp] theorem modPort_palCmds (p : Nat) (f : Port → Port) (s : State) : (modPort p f s).palCmds = s.palCmds := (rfl)
@[simp] theorem modPort_chans (p : Nat) (f : Port → Port) (s : State) : (modPort p f s).chans = s.chans := (rfl)
@[simp] theorem modPort_bases (p : Nat) (f : Port → Port) (s : State) : (modPort p f s).bases = s.bases := (rfl)
@[simp] theorem modPort_tables (p : Nat) (f : Port → Port) (s : State) : (modPort p f s).tables = s.tables := (rfl)
@[simp] theorem modPort_doms (p : Nat) (f : Port → Port) (s : State) : (modPort p f s).doms = s.doms := (rfl)
@[simp] theorem modPort_pins (p : Nat) (f : Port → Port) (s : State) : (modPort p f s).pins = s.pins := (rfl)
@[simp] theorem modPort_lifecycle (p : Nat) (f : Port → Port) (s : State) : (modPort p f s).lifecycle = s.lifecycle := (rfl)
@[simp] theorem modPort_keyFused (p : Nat) (f : Port → Port) (s : State) : (modPort p f s).keyFused = s.keyFused := (rfl)
@[simp] theorem modPort_reports (p : Nat) (f : Port → Port) (s : State) : (modPort p f s).reports = s.reports := (rfl)
@[simp] theorem modPort_anvil (p : Nat) (f : Port → Port) (s : State) : (modPort p f s).anvil = s.anvil := (rfl)
@[simp] theorem modPort_nextFid (p : Nat) (f : Port → Port) (s : State) : (modPort p f s).nextFid = s.nextFid := (rfl)
@[simp] theorem modPort_corrected (p : Nat) (f : Port → Port) (s : State) : (modPort p f s).corrected = s.corrected := (rfl)
@[simp] theorem modPort_mem (p : Nat) (f : Port → Port) (s : State) : (modPort p f s).mem = s.mem := (rfl)
@[simp] theorem modPort_trans (p : Nat) (f : Port → Port) (s : State) : (modPort p f s).trans = s.trans := (rfl)
@[simp] theorem modPort_replies (p : Nat) (f : Port → Port) (s : State) : (modPort p f s).replies = s.replies := (rfl)
@[simp] theorem modPort_power (p : Nat) (f : Port → Port) (s : State) : (modPort p f s).power = s.power := (rfl)
@[simp] theorem modPort_granted (p : Nat) (f : Port → Port) (s : State) : (modPort p f s).granted = s.granted := (rfl)
@[simp] theorem modPort_tongs (p : Nat) (f : Port → Port) (s : State) : (modPort p f s).tongs = s.tongs := (rfl)
@[simp] theorem modPort_tongsLast (p : Nat) (f : Port → Port) (s : State) : (modPort p f s).tongsLast = s.tongsLast := (rfl)
@[simp] theorem modPort_mramLines (p : Nat) (f : Port → Port) (s : State) : (modPort p f s).mramLines = s.mramLines := (rfl)
@[simp] theorem modPort_mramGap (p : Nat) (f : Port → Port) (s : State) : (modPort p f s).mramGap = s.mramGap := (rfl)
@[simp] theorem modPort_hang (p : Nat) (f : Port → Port) (s : State) : (modPort p f s).hang = s.hang := (rfl)
@[simp] theorem modPort_hangAsk (p : Nat) (f : Port → Port) (s : State) : (modPort p f s).hangAsk = s.hangAsk := (rfl)
@[simp] theorem modPort_fabHangAsk (p : Nat) (f : Port → Port) (s : State) : (modPort p f s).fabHangAsk = s.fabHangAsk := (rfl)
@[simp] theorem modPort_copies (p : Nat) (f : Port → Port) (s : State) : (modPort p f s).copies = s.copies := (rfl)
@[simp] theorem modPort_fstat (p : Nat) (f : Port → Port) (s : State) : (modPort p f s).fstat = s.fstat := (rfl)
@[simp] theorem modPort_snap (p : Nat) (f : Port → Port) (s : State) : (modPort p f s).snap = s.snap := (rfl)
@[simp] theorem modPort_engines (p : Nat) (f : Port → Port) (s : State) : (modPort p f s).engines = s.engines := (rfl)
@[simp] theorem modPort_stale (p : Nat) (f : Port → Port) (s : State) : (modPort p f s).stale = s.stale := (rfl)
@[simp] theorem modPort_lanes (p : Nat) (f : Port → Port) (s : State) : (modPort p f s).lanes = s.lanes := (rfl)
@[simp] theorem modPort_stores (p : Nat) (f : Port → Port) (s : State) : (modPort p f s).stores = s.stores := (rfl)
@[simp] theorem modPort_seqs (p : Nat) (f : Port → Port) (s : State) : (modPort p f s).seqs = s.seqs := (rfl)
@[simp] theorem modPort_fails (p : Nat) (f : Port → Port) (s : State) : (modPort p f s).fails = s.fails := (rfl)
@[simp] theorem modPort_welds (p : Nat) (f : Port → Port) (s : State) : (modPort p f s).welds = s.welds := (rfl)
@[simp] theorem modPort_patina (p : Nat) (f : Port → Port) (s : State) : (modPort p f s).patina = s.patina := (rfl)
@[simp] theorem modPort_wiping (p : Nat) (f : Port → Port) (s : State) : (modPort p f s).wiping = s.wiping := (rfl)
@[simp] theorem modPort_fabric (p : Nat) (f : Port → Port) (s : State) : (modPort p f s).fabric = s.fabric := (rfl)
@[simp] theorem modPort_pcie (p : Nat) (f : Port → Port) (s : State) : (modPort p f s).pcie = s.pcie := (rfl)
@[simp] theorem modPort_thermal (p : Nat) (f : Port → Port) (s : State) : (modPort p f s).thermal = s.thermal := (rfl)
@[simp] theorem modPort_bellows (p : Nat) (f : Port → Port) (s : State) : (modPort p f s).bellows = s.bellows := (rfl)
@[simp] theorem modPort_temper (p : Nat) (f : Port → Port) (s : State) : (modPort p f s).temper = s.temper := (rfl)
@[simp] theorem modPort_primer (p : Nat) (f : Port → Port) (s : State) : (modPort p f s).primer = s.primer := (rfl)
@[simp] theorem modPort_calDue (p : Nat) (f : Port → Port) (s : State) : (modPort p f s).calDue = s.calDue := (rfl)
@[simp] theorem modPort_journal (p : Nat) (f : Port → Port) (s : State) : (modPort p f s).journal = s.journal := (rfl)
@[simp] theorem modPort_images (p : Nat) (f : Port → Port) (s : State) : (modPort p f s).images = s.images := (rfl)
@[simp] theorem modPort_loaded (p : Nat) (f : Port → Port) (s : State) : (modPort p f s).loaded = s.loaded := (rfl)
@[simp] theorem modPort_taken (p : Nat) (f : Port → Port) (s : State) : (modPort p f s).taken = s.taken := (rfl)
@[simp] theorem modPort_tap (p : Nat) (f : Port → Port) (s : State) : (modPort p f s).tap = s.tap := (rfl)
@[simp] theorem modPort_tapFault (p : Nat) (f : Port → Port) (s : State) : (modPort p f s).tapFault = s.tapFault := (rfl)
@[simp] theorem chan_modPort (p : Nat) (f : Port → Port) (j : Nat) (s : State) : chan (modPort p f s) j = chan s j := (rfl)
@[simp] theorem base_modPort (p : Nat) (f : Port → Port) (j : Nat) (s : State) : base (modPort p f s) j = base s j := (rfl)
@[simp] theorem dom_modPort (p : Nat) (f : Port → Port) (j : Nat) (s : State) : dom (modPort p f s) j = dom s j := (rfl)
@[simp] theorem eng_modPort (p : Nat) (f : Port → Port) (j : Nat) (s : State) : eng (modPort p f s) j = eng s j := (rfl)
@[simp] theorem lane_modPort (p : Nat) (f : Port → Port) (j : Nat) (s : State) : lane (modPort p f s) j = lane s j := (rfl)
@[simp] theorem store_modPort (p : Nat) (f : Port → Port) (j : Nat) (s : State) : store (modPort p f s) j = store s j := (rfl)
@[simp] theorem seqAt_modPort (p : Nat) (f : Port → Port) (j : Nat) (s : State) : seqAt (modPort p f s) j = seqAt s j := (rfl)
@[simp] theorem failPipe_modPort (p : Nat) (f : Port → Port) (j : Nat) (s : State) : failPipe (modPort p f s) j = failPipe s j := (rfl)
@[simp] theorem weld_modPort (p : Nat) (f : Port → Port) (j : Nat) (s : State) : weld (modPort p f s) j = weld s j := (rfl)
@[simp] theorem memByte_modPort (p : Nat) (f : Port → Port) (j : Nat) (s : State) : memByte (modPort p f s) j = memByte s j := (rfl)
@[simp] theorem anvEntry_modPort (p : Nat) (f : Port → Port) (j : Nat) (s : State) : anvEntry (modPort p f s) j = anvEntry s j := (rfl)
@[simp] theorem hangSlot_modPort (p : Nat) (f : Port → Port) (j : Nat) (s : State) : hangSlot (modPort p f s) j = hangSlot s j := (rfl)
@[simp] theorem tgChan_modPort (p : Nat) (f : Port → Port) (j : Nat) (s : State) : tgChan (modPort p f s) j = tgChan s j := (rfl)
@[simp] theorem bucket_modPort (p : Nat) (f : Port → Port) (j : Nat) (s : State) : bucket (modPort p f s) j = bucket s j := (rfl)
@[simp] theorem domLost_modPort (p : Nat) (f : Port → Port) (j : Nat) (s : State) : domLost (modPort p f s) j = domLost s j := (rfl)
@[simp] theorem canvasSet_modPort (p : Nat) (f : Port → Port) (p' o : Nat) (s : State) : canvasSet (modPort p f s) p' o = canvasSet s p' o := (rfl)
@[simp] theorem rdRole_modPort (p : Nat) (f : Port → Port) (e : Bool) (p' o : Nat) (s : State) : rdRole (modPort p f s) e p' o = rdRole s e p' o := (rfl)
@[simp] theorem rdReg_modPort (p : Nat) (f : Port → Port) (p' o : Nat) (s : State) : rdReg (modPort p f s) p' o = rdReg s p' o := (rfl)
@[simp] theorem roleKey_modPort (p : Nat) (f : Port → Port) (e : Bool) (p' o : Nat) (s : State) : roleKey (modPort p f s) e p' o = roleKey s e p' o := (rfl)
@[simp] theorem inForce_modPort (p : Nat) (f : Port → Port) (p' o : Nat) (s : State) : inForce (modPort p f s) p' o = inForce s p' o := (rfl)
@[simp] theorem hangArmed_modPort (p : Nat) (f : Port → Port) (p' : Nat) (s : State) : hangArmed (modPort p f s) p' = hangArmed s p' := (rfl)
@[simp] theorem modFab_pending (f : Fabric → Fabric) (s : State) : (modFab f s).pending = s.pending := (rfl)
@[simp] theorem modFab_now (f : Fabric → Fabric) (s : State) : (modFab f s).now = s.now := (rfl)
@[simp] theorem modFab_free (f : Fabric → Fabric) (s : State) : (modFab f s).free = s.free := (rfl)
@[simp] theorem modFab_outbox (f : Fabric → Fabric) (s : State) : (modFab f s).outbox = s.outbox := (rfl)
@[simp] theorem modFab_regs (f : Fabric → Fabric) (s : State) : (modFab f s).regs = s.regs := (rfl)
@[simp] theorem modFab_swapped (f : Fabric → Fabric) (s : State) : (modFab f s).swapped = s.swapped := (rfl)
@[simp] theorem modFab_calSwapped (f : Fabric → Fabric) (s : State) : (modFab f s).calSwapped = s.calSwapped := (rfl)
@[simp] theorem modFab_held (f : Fabric → Fabric) (s : State) : (modFab f s).held = s.held := (rfl)
@[simp] theorem modFab_wms (f : Fabric → Fabric) (s : State) : (modFab f s).wms = s.wms := (rfl)
@[simp] theorem modFab_irqOut (f : Fabric → Fabric) (s : State) : (modFab f s).irqOut = s.irqOut := (rfl)
@[simp] theorem modFab_msixDue (f : Fabric → Fabric) (s : State) : (modFab f s).msixDue = s.msixDue := (rfl)
@[simp] theorem modFab_pal (f : Fabric → Fabric) (s : State) : (modFab f s).pal = s.pal := (rfl)
@[simp] theorem modFab_palHeld (f : Fabric → Fabric) (s : State) : (modFab f s).palHeld = s.palHeld := (rfl)
@[simp] theorem modFab_palCmds (f : Fabric → Fabric) (s : State) : (modFab f s).palCmds = s.palCmds := (rfl)
@[simp] theorem modFab_chans (f : Fabric → Fabric) (s : State) : (modFab f s).chans = s.chans := (rfl)
@[simp] theorem modFab_bases (f : Fabric → Fabric) (s : State) : (modFab f s).bases = s.bases := (rfl)
@[simp] theorem modFab_tables (f : Fabric → Fabric) (s : State) : (modFab f s).tables = s.tables := (rfl)
@[simp] theorem modFab_doms (f : Fabric → Fabric) (s : State) : (modFab f s).doms = s.doms := (rfl)
@[simp] theorem modFab_pins (f : Fabric → Fabric) (s : State) : (modFab f s).pins = s.pins := (rfl)
@[simp] theorem modFab_lifecycle (f : Fabric → Fabric) (s : State) : (modFab f s).lifecycle = s.lifecycle := (rfl)
@[simp] theorem modFab_keyFused (f : Fabric → Fabric) (s : State) : (modFab f s).keyFused = s.keyFused := (rfl)
@[simp] theorem modFab_reports (f : Fabric → Fabric) (s : State) : (modFab f s).reports = s.reports := (rfl)
@[simp] theorem modFab_anvil (f : Fabric → Fabric) (s : State) : (modFab f s).anvil = s.anvil := (rfl)
@[simp] theorem modFab_nextFid (f : Fabric → Fabric) (s : State) : (modFab f s).nextFid = s.nextFid := (rfl)
@[simp] theorem modFab_corrected (f : Fabric → Fabric) (s : State) : (modFab f s).corrected = s.corrected := (rfl)
@[simp] theorem modFab_mem (f : Fabric → Fabric) (s : State) : (modFab f s).mem = s.mem := (rfl)
@[simp] theorem modFab_trans (f : Fabric → Fabric) (s : State) : (modFab f s).trans = s.trans := (rfl)
@[simp] theorem modFab_replies (f : Fabric → Fabric) (s : State) : (modFab f s).replies = s.replies := (rfl)
@[simp] theorem modFab_power (f : Fabric → Fabric) (s : State) : (modFab f s).power = s.power := (rfl)
@[simp] theorem modFab_granted (f : Fabric → Fabric) (s : State) : (modFab f s).granted = s.granted := (rfl)
@[simp] theorem modFab_tongs (f : Fabric → Fabric) (s : State) : (modFab f s).tongs = s.tongs := (rfl)
@[simp] theorem modFab_tongsLast (f : Fabric → Fabric) (s : State) : (modFab f s).tongsLast = s.tongsLast := (rfl)
@[simp] theorem modFab_mramLines (f : Fabric → Fabric) (s : State) : (modFab f s).mramLines = s.mramLines := (rfl)
@[simp] theorem modFab_mramGap (f : Fabric → Fabric) (s : State) : (modFab f s).mramGap = s.mramGap := (rfl)
@[simp] theorem modFab_hang (f : Fabric → Fabric) (s : State) : (modFab f s).hang = s.hang := (rfl)
@[simp] theorem modFab_hangAsk (f : Fabric → Fabric) (s : State) : (modFab f s).hangAsk = s.hangAsk := (rfl)
@[simp] theorem modFab_fabHangAsk (f : Fabric → Fabric) (s : State) : (modFab f s).fabHangAsk = s.fabHangAsk := (rfl)
@[simp] theorem modFab_copies (f : Fabric → Fabric) (s : State) : (modFab f s).copies = s.copies := (rfl)
@[simp] theorem modFab_fstat (f : Fabric → Fabric) (s : State) : (modFab f s).fstat = s.fstat := (rfl)
@[simp] theorem modFab_snap (f : Fabric → Fabric) (s : State) : (modFab f s).snap = s.snap := (rfl)
@[simp] theorem modFab_engines (f : Fabric → Fabric) (s : State) : (modFab f s).engines = s.engines := (rfl)
@[simp] theorem modFab_stale (f : Fabric → Fabric) (s : State) : (modFab f s).stale = s.stale := (rfl)
@[simp] theorem modFab_lanes (f : Fabric → Fabric) (s : State) : (modFab f s).lanes = s.lanes := (rfl)
@[simp] theorem modFab_stores (f : Fabric → Fabric) (s : State) : (modFab f s).stores = s.stores := (rfl)
@[simp] theorem modFab_seqs (f : Fabric → Fabric) (s : State) : (modFab f s).seqs = s.seqs := (rfl)
@[simp] theorem modFab_fails (f : Fabric → Fabric) (s : State) : (modFab f s).fails = s.fails := (rfl)
@[simp] theorem modFab_welds (f : Fabric → Fabric) (s : State) : (modFab f s).welds = s.welds := (rfl)
@[simp] theorem modFab_patina (f : Fabric → Fabric) (s : State) : (modFab f s).patina = s.patina := (rfl)
@[simp] theorem modFab_wiping (f : Fabric → Fabric) (s : State) : (modFab f s).wiping = s.wiping := (rfl)
@[simp] theorem modFab_ports (f : Fabric → Fabric) (s : State) : (modFab f s).ports = s.ports := (rfl)
@[simp] theorem modFab_pcie (f : Fabric → Fabric) (s : State) : (modFab f s).pcie = s.pcie := (rfl)
@[simp] theorem modFab_thermal (f : Fabric → Fabric) (s : State) : (modFab f s).thermal = s.thermal := (rfl)
@[simp] theorem modFab_bellows (f : Fabric → Fabric) (s : State) : (modFab f s).bellows = s.bellows := (rfl)
@[simp] theorem modFab_temper (f : Fabric → Fabric) (s : State) : (modFab f s).temper = s.temper := (rfl)
@[simp] theorem modFab_primer (f : Fabric → Fabric) (s : State) : (modFab f s).primer = s.primer := (rfl)
@[simp] theorem modFab_calDue (f : Fabric → Fabric) (s : State) : (modFab f s).calDue = s.calDue := (rfl)
@[simp] theorem modFab_journal (f : Fabric → Fabric) (s : State) : (modFab f s).journal = s.journal := (rfl)
@[simp] theorem modFab_images (f : Fabric → Fabric) (s : State) : (modFab f s).images = s.images := (rfl)
@[simp] theorem modFab_loaded (f : Fabric → Fabric) (s : State) : (modFab f s).loaded = s.loaded := (rfl)
@[simp] theorem modFab_taken (f : Fabric → Fabric) (s : State) : (modFab f s).taken = s.taken := (rfl)
@[simp] theorem modFab_tap (f : Fabric → Fabric) (s : State) : (modFab f s).tap = s.tap := (rfl)
@[simp] theorem modFab_tapFault (f : Fabric → Fabric) (s : State) : (modFab f s).tapFault = s.tapFault := (rfl)
@[simp] theorem chan_modFab (f : Fabric → Fabric) (j : Nat) (s : State) : chan (modFab f s) j = chan s j := (rfl)
@[simp] theorem base_modFab (f : Fabric → Fabric) (j : Nat) (s : State) : base (modFab f s) j = base s j := (rfl)
@[simp] theorem dom_modFab (f : Fabric → Fabric) (j : Nat) (s : State) : dom (modFab f s) j = dom s j := (rfl)
@[simp] theorem eng_modFab (f : Fabric → Fabric) (j : Nat) (s : State) : eng (modFab f s) j = eng s j := (rfl)
@[simp] theorem lane_modFab (f : Fabric → Fabric) (j : Nat) (s : State) : lane (modFab f s) j = lane s j := (rfl)
@[simp] theorem store_modFab (f : Fabric → Fabric) (j : Nat) (s : State) : store (modFab f s) j = store s j := (rfl)
@[simp] theorem seqAt_modFab (f : Fabric → Fabric) (j : Nat) (s : State) : seqAt (modFab f s) j = seqAt s j := (rfl)
@[simp] theorem failPipe_modFab (f : Fabric → Fabric) (j : Nat) (s : State) : failPipe (modFab f s) j = failPipe s j := (rfl)
@[simp] theorem weld_modFab (f : Fabric → Fabric) (j : Nat) (s : State) : weld (modFab f s) j = weld s j := (rfl)
@[simp] theorem memByte_modFab (f : Fabric → Fabric) (j : Nat) (s : State) : memByte (modFab f s) j = memByte s j := (rfl)
@[simp] theorem anvEntry_modFab (f : Fabric → Fabric) (j : Nat) (s : State) : anvEntry (modFab f s) j = anvEntry s j := (rfl)
@[simp] theorem port_modFab (f : Fabric → Fabric) (j : Nat) (s : State) : port (modFab f s) j = port s j := (rfl)
@[simp] theorem hangSlot_modFab (f : Fabric → Fabric) (j : Nat) (s : State) : hangSlot (modFab f s) j = hangSlot s j := (rfl)
@[simp] theorem tgChan_modFab (f : Fabric → Fabric) (j : Nat) (s : State) : tgChan (modFab f s) j = tgChan s j := (rfl)
@[simp] theorem bucket_modFab (f : Fabric → Fabric) (j : Nat) (s : State) : bucket (modFab f s) j = bucket s j := (rfl)
@[simp] theorem domLost_modFab (f : Fabric → Fabric) (j : Nat) (s : State) : domLost (modFab f s) j = domLost s j := (rfl)
@[simp] theorem canvasSet_modFab (f : Fabric → Fabric) (p o : Nat) (s : State) : canvasSet (modFab f s) p o = canvasSet s p o := (rfl)
@[simp] theorem rdRole_modFab (f : Fabric → Fabric) (e : Bool) (p o : Nat) (s : State) : rdRole (modFab f s) e p o = rdRole s e p o := (rfl)
@[simp] theorem rdReg_modFab (f : Fabric → Fabric) (p o : Nat) (s : State) : rdReg (modFab f s) p o = rdReg s p o := (rfl)
@[simp] theorem roleKey_modFab (f : Fabric → Fabric) (e : Bool) (p o : Nat) (s : State) : roleKey (modFab f s) e p o = roleKey s e p o := (rfl)
@[simp] theorem inForce_modFab (f : Fabric → Fabric) (p o : Nat) (s : State) : inForce (modFab f s) p o = inForce s p o := (rfl)
@[simp] theorem hangArmed_modFab (f : Fabric → Fabric) (p : Nat) (s : State) : hangArmed (modFab f s) p = hangArmed s p := (rfl)
@[simp] theorem setHang_pending (i : Nat) (x : HangSlot) (s : State) : (setHang i x s).pending = s.pending := (rfl)
@[simp] theorem setHang_now (i : Nat) (x : HangSlot) (s : State) : (setHang i x s).now = s.now := (rfl)
@[simp] theorem setHang_free (i : Nat) (x : HangSlot) (s : State) : (setHang i x s).free = s.free := (rfl)
@[simp] theorem setHang_outbox (i : Nat) (x : HangSlot) (s : State) : (setHang i x s).outbox = s.outbox := (rfl)
@[simp] theorem setHang_regs (i : Nat) (x : HangSlot) (s : State) : (setHang i x s).regs = s.regs := (rfl)
@[simp] theorem setHang_swapped (i : Nat) (x : HangSlot) (s : State) : (setHang i x s).swapped = s.swapped := (rfl)
@[simp] theorem setHang_calSwapped (i : Nat) (x : HangSlot) (s : State) : (setHang i x s).calSwapped = s.calSwapped := (rfl)
@[simp] theorem setHang_held (i : Nat) (x : HangSlot) (s : State) : (setHang i x s).held = s.held := (rfl)
@[simp] theorem setHang_wms (i : Nat) (x : HangSlot) (s : State) : (setHang i x s).wms = s.wms := (rfl)
@[simp] theorem setHang_irqOut (i : Nat) (x : HangSlot) (s : State) : (setHang i x s).irqOut = s.irqOut := (rfl)
@[simp] theorem setHang_msixDue (i : Nat) (x : HangSlot) (s : State) : (setHang i x s).msixDue = s.msixDue := (rfl)
@[simp] theorem setHang_pal (i : Nat) (x : HangSlot) (s : State) : (setHang i x s).pal = s.pal := (rfl)
@[simp] theorem setHang_palHeld (i : Nat) (x : HangSlot) (s : State) : (setHang i x s).palHeld = s.palHeld := (rfl)
@[simp] theorem setHang_palCmds (i : Nat) (x : HangSlot) (s : State) : (setHang i x s).palCmds = s.palCmds := (rfl)
@[simp] theorem setHang_chans (i : Nat) (x : HangSlot) (s : State) : (setHang i x s).chans = s.chans := (rfl)
@[simp] theorem setHang_bases (i : Nat) (x : HangSlot) (s : State) : (setHang i x s).bases = s.bases := (rfl)
@[simp] theorem setHang_tables (i : Nat) (x : HangSlot) (s : State) : (setHang i x s).tables = s.tables := (rfl)
@[simp] theorem setHang_doms (i : Nat) (x : HangSlot) (s : State) : (setHang i x s).doms = s.doms := (rfl)
@[simp] theorem setHang_pins (i : Nat) (x : HangSlot) (s : State) : (setHang i x s).pins = s.pins := (rfl)
@[simp] theorem setHang_lifecycle (i : Nat) (x : HangSlot) (s : State) : (setHang i x s).lifecycle = s.lifecycle := (rfl)
@[simp] theorem setHang_keyFused (i : Nat) (x : HangSlot) (s : State) : (setHang i x s).keyFused = s.keyFused := (rfl)
@[simp] theorem setHang_reports (i : Nat) (x : HangSlot) (s : State) : (setHang i x s).reports = s.reports := (rfl)
@[simp] theorem setHang_anvil (i : Nat) (x : HangSlot) (s : State) : (setHang i x s).anvil = s.anvil := (rfl)
@[simp] theorem setHang_nextFid (i : Nat) (x : HangSlot) (s : State) : (setHang i x s).nextFid = s.nextFid := (rfl)
@[simp] theorem setHang_corrected (i : Nat) (x : HangSlot) (s : State) : (setHang i x s).corrected = s.corrected := (rfl)
@[simp] theorem setHang_mem (i : Nat) (x : HangSlot) (s : State) : (setHang i x s).mem = s.mem := (rfl)
@[simp] theorem setHang_trans (i : Nat) (x : HangSlot) (s : State) : (setHang i x s).trans = s.trans := (rfl)
@[simp] theorem setHang_replies (i : Nat) (x : HangSlot) (s : State) : (setHang i x s).replies = s.replies := (rfl)
@[simp] theorem setHang_power (i : Nat) (x : HangSlot) (s : State) : (setHang i x s).power = s.power := (rfl)
@[simp] theorem setHang_granted (i : Nat) (x : HangSlot) (s : State) : (setHang i x s).granted = s.granted := (rfl)
@[simp] theorem setHang_tongs (i : Nat) (x : HangSlot) (s : State) : (setHang i x s).tongs = s.tongs := (rfl)
@[simp] theorem setHang_tongsLast (i : Nat) (x : HangSlot) (s : State) : (setHang i x s).tongsLast = s.tongsLast := (rfl)
@[simp] theorem setHang_mramLines (i : Nat) (x : HangSlot) (s : State) : (setHang i x s).mramLines = s.mramLines := (rfl)
@[simp] theorem setHang_mramGap (i : Nat) (x : HangSlot) (s : State) : (setHang i x s).mramGap = s.mramGap := (rfl)
@[simp] theorem setHang_hangAsk (i : Nat) (x : HangSlot) (s : State) : (setHang i x s).hangAsk = s.hangAsk := (rfl)
@[simp] theorem setHang_fabHangAsk (i : Nat) (x : HangSlot) (s : State) : (setHang i x s).fabHangAsk = s.fabHangAsk := (rfl)
@[simp] theorem setHang_copies (i : Nat) (x : HangSlot) (s : State) : (setHang i x s).copies = s.copies := (rfl)
@[simp] theorem setHang_fstat (i : Nat) (x : HangSlot) (s : State) : (setHang i x s).fstat = s.fstat := (rfl)
@[simp] theorem setHang_snap (i : Nat) (x : HangSlot) (s : State) : (setHang i x s).snap = s.snap := (rfl)
@[simp] theorem setHang_engines (i : Nat) (x : HangSlot) (s : State) : (setHang i x s).engines = s.engines := (rfl)
@[simp] theorem setHang_stale (i : Nat) (x : HangSlot) (s : State) : (setHang i x s).stale = s.stale := (rfl)
@[simp] theorem setHang_lanes (i : Nat) (x : HangSlot) (s : State) : (setHang i x s).lanes = s.lanes := (rfl)
@[simp] theorem setHang_stores (i : Nat) (x : HangSlot) (s : State) : (setHang i x s).stores = s.stores := (rfl)
@[simp] theorem setHang_seqs (i : Nat) (x : HangSlot) (s : State) : (setHang i x s).seqs = s.seqs := (rfl)
@[simp] theorem setHang_fails (i : Nat) (x : HangSlot) (s : State) : (setHang i x s).fails = s.fails := (rfl)
@[simp] theorem setHang_welds (i : Nat) (x : HangSlot) (s : State) : (setHang i x s).welds = s.welds := (rfl)
@[simp] theorem setHang_patina (i : Nat) (x : HangSlot) (s : State) : (setHang i x s).patina = s.patina := (rfl)
@[simp] theorem setHang_wiping (i : Nat) (x : HangSlot) (s : State) : (setHang i x s).wiping = s.wiping := (rfl)
@[simp] theorem setHang_ports (i : Nat) (x : HangSlot) (s : State) : (setHang i x s).ports = s.ports := (rfl)
@[simp] theorem setHang_fabric (i : Nat) (x : HangSlot) (s : State) : (setHang i x s).fabric = s.fabric := (rfl)
@[simp] theorem setHang_pcie (i : Nat) (x : HangSlot) (s : State) : (setHang i x s).pcie = s.pcie := (rfl)
@[simp] theorem setHang_thermal (i : Nat) (x : HangSlot) (s : State) : (setHang i x s).thermal = s.thermal := (rfl)
@[simp] theorem setHang_bellows (i : Nat) (x : HangSlot) (s : State) : (setHang i x s).bellows = s.bellows := (rfl)
@[simp] theorem setHang_temper (i : Nat) (x : HangSlot) (s : State) : (setHang i x s).temper = s.temper := (rfl)
@[simp] theorem setHang_primer (i : Nat) (x : HangSlot) (s : State) : (setHang i x s).primer = s.primer := (rfl)
@[simp] theorem setHang_calDue (i : Nat) (x : HangSlot) (s : State) : (setHang i x s).calDue = s.calDue := (rfl)
@[simp] theorem setHang_journal (i : Nat) (x : HangSlot) (s : State) : (setHang i x s).journal = s.journal := (rfl)
@[simp] theorem setHang_images (i : Nat) (x : HangSlot) (s : State) : (setHang i x s).images = s.images := (rfl)
@[simp] theorem setHang_loaded (i : Nat) (x : HangSlot) (s : State) : (setHang i x s).loaded = s.loaded := (rfl)
@[simp] theorem setHang_taken (i : Nat) (x : HangSlot) (s : State) : (setHang i x s).taken = s.taken := (rfl)
@[simp] theorem setHang_tap (i : Nat) (x : HangSlot) (s : State) : (setHang i x s).tap = s.tap := (rfl)
@[simp] theorem setHang_tapFault (i : Nat) (x : HangSlot) (s : State) : (setHang i x s).tapFault = s.tapFault := (rfl)
@[simp] theorem chan_setHang (i : Nat) (x : HangSlot) (j : Nat) (s : State) : chan (setHang i x s) j = chan s j := (rfl)
@[simp] theorem base_setHang (i : Nat) (x : HangSlot) (j : Nat) (s : State) : base (setHang i x s) j = base s j := (rfl)
@[simp] theorem dom_setHang (i : Nat) (x : HangSlot) (j : Nat) (s : State) : dom (setHang i x s) j = dom s j := (rfl)
@[simp] theorem eng_setHang (i : Nat) (x : HangSlot) (j : Nat) (s : State) : eng (setHang i x s) j = eng s j := (rfl)
@[simp] theorem lane_setHang (i : Nat) (x : HangSlot) (j : Nat) (s : State) : lane (setHang i x s) j = lane s j := (rfl)
@[simp] theorem store_setHang (i : Nat) (x : HangSlot) (j : Nat) (s : State) : store (setHang i x s) j = store s j := (rfl)
@[simp] theorem seqAt_setHang (i : Nat) (x : HangSlot) (j : Nat) (s : State) : seqAt (setHang i x s) j = seqAt s j := (rfl)
@[simp] theorem failPipe_setHang (i : Nat) (x : HangSlot) (j : Nat) (s : State) : failPipe (setHang i x s) j = failPipe s j := (rfl)
@[simp] theorem weld_setHang (i : Nat) (x : HangSlot) (j : Nat) (s : State) : weld (setHang i x s) j = weld s j := (rfl)
@[simp] theorem memByte_setHang (i : Nat) (x : HangSlot) (j : Nat) (s : State) : memByte (setHang i x s) j = memByte s j := (rfl)
@[simp] theorem anvEntry_setHang (i : Nat) (x : HangSlot) (j : Nat) (s : State) : anvEntry (setHang i x s) j = anvEntry s j := (rfl)
@[simp] theorem port_setHang (i : Nat) (x : HangSlot) (j : Nat) (s : State) : port (setHang i x s) j = port s j := (rfl)
@[simp] theorem tgChan_setHang (i : Nat) (x : HangSlot) (j : Nat) (s : State) : tgChan (setHang i x s) j = tgChan s j := (rfl)
@[simp] theorem bucket_setHang (i : Nat) (x : HangSlot) (j : Nat) (s : State) : bucket (setHang i x s) j = bucket s j := (rfl)
@[simp] theorem domLost_setHang (i : Nat) (x : HangSlot) (j : Nat) (s : State) : domLost (setHang i x s) j = domLost s j := (rfl)
@[simp] theorem canvasSet_setHang (i : Nat) (x : HangSlot) (p o : Nat) (s : State) : canvasSet (setHang i x s) p o = canvasSet s p o := (rfl)
@[simp] theorem rdRole_setHang (i : Nat) (x : HangSlot) (e : Bool) (p o : Nat) (s : State) : rdRole (setHang i x s) e p o = rdRole s e p o := (rfl)
@[simp] theorem rdReg_setHang (i : Nat) (x : HangSlot) (p o : Nat) (s : State) : rdReg (setHang i x s) p o = rdReg s p o := (rfl)
@[simp] theorem roleKey_setHang (i : Nat) (x : HangSlot) (e : Bool) (p o : Nat) (s : State) : roleKey (setHang i x s) e p o = roleKey s e p o := (rfl)
@[simp] theorem inForce_setHang (i : Nat) (x : HangSlot) (p o : Nat) (s : State) : inForce (setHang i x s) p o = inForce s p o := (rfl)
@[simp] theorem setTg_pending (c : Nat) (x : TongsChan) (s : State) : (setTg c x s).pending = s.pending := (rfl)
@[simp] theorem setTg_now (c : Nat) (x : TongsChan) (s : State) : (setTg c x s).now = s.now := (rfl)
@[simp] theorem setTg_free (c : Nat) (x : TongsChan) (s : State) : (setTg c x s).free = s.free := (rfl)
@[simp] theorem setTg_outbox (c : Nat) (x : TongsChan) (s : State) : (setTg c x s).outbox = s.outbox := (rfl)
@[simp] theorem setTg_regs (c : Nat) (x : TongsChan) (s : State) : (setTg c x s).regs = s.regs := (rfl)
@[simp] theorem setTg_swapped (c : Nat) (x : TongsChan) (s : State) : (setTg c x s).swapped = s.swapped := (rfl)
@[simp] theorem setTg_calSwapped (c : Nat) (x : TongsChan) (s : State) : (setTg c x s).calSwapped = s.calSwapped := (rfl)
@[simp] theorem setTg_held (c : Nat) (x : TongsChan) (s : State) : (setTg c x s).held = s.held := (rfl)
@[simp] theorem setTg_wms (c : Nat) (x : TongsChan) (s : State) : (setTg c x s).wms = s.wms := (rfl)
@[simp] theorem setTg_irqOut (c : Nat) (x : TongsChan) (s : State) : (setTg c x s).irqOut = s.irqOut := (rfl)
@[simp] theorem setTg_msixDue (c : Nat) (x : TongsChan) (s : State) : (setTg c x s).msixDue = s.msixDue := (rfl)
@[simp] theorem setTg_pal (c : Nat) (x : TongsChan) (s : State) : (setTg c x s).pal = s.pal := (rfl)
@[simp] theorem setTg_palHeld (c : Nat) (x : TongsChan) (s : State) : (setTg c x s).palHeld = s.palHeld := (rfl)
@[simp] theorem setTg_palCmds (c : Nat) (x : TongsChan) (s : State) : (setTg c x s).palCmds = s.palCmds := (rfl)
@[simp] theorem setTg_chans (c : Nat) (x : TongsChan) (s : State) : (setTg c x s).chans = s.chans := (rfl)
@[simp] theorem setTg_bases (c : Nat) (x : TongsChan) (s : State) : (setTg c x s).bases = s.bases := (rfl)
@[simp] theorem setTg_tables (c : Nat) (x : TongsChan) (s : State) : (setTg c x s).tables = s.tables := (rfl)
@[simp] theorem setTg_doms (c : Nat) (x : TongsChan) (s : State) : (setTg c x s).doms = s.doms := (rfl)
@[simp] theorem setTg_pins (c : Nat) (x : TongsChan) (s : State) : (setTg c x s).pins = s.pins := (rfl)
@[simp] theorem setTg_lifecycle (c : Nat) (x : TongsChan) (s : State) : (setTg c x s).lifecycle = s.lifecycle := (rfl)
@[simp] theorem setTg_keyFused (c : Nat) (x : TongsChan) (s : State) : (setTg c x s).keyFused = s.keyFused := (rfl)
@[simp] theorem setTg_reports (c : Nat) (x : TongsChan) (s : State) : (setTg c x s).reports = s.reports := (rfl)
@[simp] theorem setTg_anvil (c : Nat) (x : TongsChan) (s : State) : (setTg c x s).anvil = s.anvil := (rfl)
@[simp] theorem setTg_nextFid (c : Nat) (x : TongsChan) (s : State) : (setTg c x s).nextFid = s.nextFid := (rfl)
@[simp] theorem setTg_corrected (c : Nat) (x : TongsChan) (s : State) : (setTg c x s).corrected = s.corrected := (rfl)
@[simp] theorem setTg_mem (c : Nat) (x : TongsChan) (s : State) : (setTg c x s).mem = s.mem := (rfl)
@[simp] theorem setTg_trans (c : Nat) (x : TongsChan) (s : State) : (setTg c x s).trans = s.trans := (rfl)
@[simp] theorem setTg_replies (c : Nat) (x : TongsChan) (s : State) : (setTg c x s).replies = s.replies := (rfl)
@[simp] theorem setTg_power (c : Nat) (x : TongsChan) (s : State) : (setTg c x s).power = s.power := (rfl)
@[simp] theorem setTg_granted (c : Nat) (x : TongsChan) (s : State) : (setTg c x s).granted = s.granted := (rfl)
@[simp] theorem setTg_tongsLast (c : Nat) (x : TongsChan) (s : State) : (setTg c x s).tongsLast = s.tongsLast := (rfl)
@[simp] theorem setTg_mramLines (c : Nat) (x : TongsChan) (s : State) : (setTg c x s).mramLines = s.mramLines := (rfl)
@[simp] theorem setTg_mramGap (c : Nat) (x : TongsChan) (s : State) : (setTg c x s).mramGap = s.mramGap := (rfl)
@[simp] theorem setTg_hang (c : Nat) (x : TongsChan) (s : State) : (setTg c x s).hang = s.hang := (rfl)
@[simp] theorem setTg_hangAsk (c : Nat) (x : TongsChan) (s : State) : (setTg c x s).hangAsk = s.hangAsk := (rfl)
@[simp] theorem setTg_fabHangAsk (c : Nat) (x : TongsChan) (s : State) : (setTg c x s).fabHangAsk = s.fabHangAsk := (rfl)
@[simp] theorem setTg_copies (c : Nat) (x : TongsChan) (s : State) : (setTg c x s).copies = s.copies := (rfl)
@[simp] theorem setTg_fstat (c : Nat) (x : TongsChan) (s : State) : (setTg c x s).fstat = s.fstat := (rfl)
@[simp] theorem setTg_snap (c : Nat) (x : TongsChan) (s : State) : (setTg c x s).snap = s.snap := (rfl)
@[simp] theorem setTg_engines (c : Nat) (x : TongsChan) (s : State) : (setTg c x s).engines = s.engines := (rfl)
@[simp] theorem setTg_stale (c : Nat) (x : TongsChan) (s : State) : (setTg c x s).stale = s.stale := (rfl)
@[simp] theorem setTg_lanes (c : Nat) (x : TongsChan) (s : State) : (setTg c x s).lanes = s.lanes := (rfl)
@[simp] theorem setTg_stores (c : Nat) (x : TongsChan) (s : State) : (setTg c x s).stores = s.stores := (rfl)
@[simp] theorem setTg_seqs (c : Nat) (x : TongsChan) (s : State) : (setTg c x s).seqs = s.seqs := (rfl)
@[simp] theorem setTg_fails (c : Nat) (x : TongsChan) (s : State) : (setTg c x s).fails = s.fails := (rfl)
@[simp] theorem setTg_welds (c : Nat) (x : TongsChan) (s : State) : (setTg c x s).welds = s.welds := (rfl)
@[simp] theorem setTg_patina (c : Nat) (x : TongsChan) (s : State) : (setTg c x s).patina = s.patina := (rfl)
@[simp] theorem setTg_wiping (c : Nat) (x : TongsChan) (s : State) : (setTg c x s).wiping = s.wiping := (rfl)
@[simp] theorem setTg_ports (c : Nat) (x : TongsChan) (s : State) : (setTg c x s).ports = s.ports := (rfl)
@[simp] theorem setTg_fabric (c : Nat) (x : TongsChan) (s : State) : (setTg c x s).fabric = s.fabric := (rfl)
@[simp] theorem setTg_pcie (c : Nat) (x : TongsChan) (s : State) : (setTg c x s).pcie = s.pcie := (rfl)
@[simp] theorem setTg_thermal (c : Nat) (x : TongsChan) (s : State) : (setTg c x s).thermal = s.thermal := (rfl)
@[simp] theorem setTg_bellows (c : Nat) (x : TongsChan) (s : State) : (setTg c x s).bellows = s.bellows := (rfl)
@[simp] theorem setTg_temper (c : Nat) (x : TongsChan) (s : State) : (setTg c x s).temper = s.temper := (rfl)
@[simp] theorem setTg_primer (c : Nat) (x : TongsChan) (s : State) : (setTg c x s).primer = s.primer := (rfl)
@[simp] theorem setTg_calDue (c : Nat) (x : TongsChan) (s : State) : (setTg c x s).calDue = s.calDue := (rfl)
@[simp] theorem setTg_journal (c : Nat) (x : TongsChan) (s : State) : (setTg c x s).journal = s.journal := (rfl)
@[simp] theorem setTg_images (c : Nat) (x : TongsChan) (s : State) : (setTg c x s).images = s.images := (rfl)
@[simp] theorem setTg_loaded (c : Nat) (x : TongsChan) (s : State) : (setTg c x s).loaded = s.loaded := (rfl)
@[simp] theorem setTg_taken (c : Nat) (x : TongsChan) (s : State) : (setTg c x s).taken = s.taken := (rfl)
@[simp] theorem setTg_tap (c : Nat) (x : TongsChan) (s : State) : (setTg c x s).tap = s.tap := (rfl)
@[simp] theorem setTg_tapFault (c : Nat) (x : TongsChan) (s : State) : (setTg c x s).tapFault = s.tapFault := (rfl)
@[simp] theorem chan_setTg (c : Nat) (x : TongsChan) (j : Nat) (s : State) : chan (setTg c x s) j = chan s j := (rfl)
@[simp] theorem base_setTg (c : Nat) (x : TongsChan) (j : Nat) (s : State) : base (setTg c x s) j = base s j := (rfl)
@[simp] theorem dom_setTg (c : Nat) (x : TongsChan) (j : Nat) (s : State) : dom (setTg c x s) j = dom s j := (rfl)
@[simp] theorem eng_setTg (c : Nat) (x : TongsChan) (j : Nat) (s : State) : eng (setTg c x s) j = eng s j := (rfl)
@[simp] theorem lane_setTg (c : Nat) (x : TongsChan) (j : Nat) (s : State) : lane (setTg c x s) j = lane s j := (rfl)
@[simp] theorem store_setTg (c : Nat) (x : TongsChan) (j : Nat) (s : State) : store (setTg c x s) j = store s j := (rfl)
@[simp] theorem seqAt_setTg (c : Nat) (x : TongsChan) (j : Nat) (s : State) : seqAt (setTg c x s) j = seqAt s j := (rfl)
@[simp] theorem failPipe_setTg (c : Nat) (x : TongsChan) (j : Nat) (s : State) : failPipe (setTg c x s) j = failPipe s j := (rfl)
@[simp] theorem weld_setTg (c : Nat) (x : TongsChan) (j : Nat) (s : State) : weld (setTg c x s) j = weld s j := (rfl)
@[simp] theorem memByte_setTg (c : Nat) (x : TongsChan) (j : Nat) (s : State) : memByte (setTg c x s) j = memByte s j := (rfl)
@[simp] theorem anvEntry_setTg (c : Nat) (x : TongsChan) (j : Nat) (s : State) : anvEntry (setTg c x s) j = anvEntry s j := (rfl)
@[simp] theorem port_setTg (c : Nat) (x : TongsChan) (j : Nat) (s : State) : port (setTg c x s) j = port s j := (rfl)
@[simp] theorem hangSlot_setTg (c : Nat) (x : TongsChan) (j : Nat) (s : State) : hangSlot (setTg c x s) j = hangSlot s j := (rfl)
@[simp] theorem bucket_setTg (c : Nat) (x : TongsChan) (j : Nat) (s : State) : bucket (setTg c x s) j = bucket s j := (rfl)
@[simp] theorem domLost_setTg (c : Nat) (x : TongsChan) (j : Nat) (s : State) : domLost (setTg c x s) j = domLost s j := (rfl)
@[simp] theorem canvasSet_setTg (c : Nat) (x : TongsChan) (p o : Nat) (s : State) : canvasSet (setTg c x s) p o = canvasSet s p o := (rfl)
@[simp] theorem rdRole_setTg (c : Nat) (x : TongsChan) (e : Bool) (p o : Nat) (s : State) : rdRole (setTg c x s) e p o = rdRole s e p o := (rfl)
@[simp] theorem rdReg_setTg (c : Nat) (x : TongsChan) (p o : Nat) (s : State) : rdReg (setTg c x s) p o = rdReg s p o := (rfl)
@[simp] theorem roleKey_setTg (c : Nat) (x : TongsChan) (e : Bool) (p o : Nat) (s : State) : roleKey (setTg c x s) e p o = roleKey s e p o := (rfl)
@[simp] theorem inForce_setTg (c : Nat) (x : TongsChan) (p o : Nat) (s : State) : inForce (setTg c x s) p o = inForce s p o := (rfl)
@[simp] theorem hangArmed_setTg (c : Nat) (x : TongsChan) (p : Nat) (s : State) : hangArmed (setTg c x s) p = hangArmed s p := (rfl)
@[simp] theorem modPat_pending (f : Patina → Patina) (s : State) : (modPat f s).pending = s.pending := (rfl)
@[simp] theorem modPat_now (f : Patina → Patina) (s : State) : (modPat f s).now = s.now := (rfl)
@[simp] theorem modPat_free (f : Patina → Patina) (s : State) : (modPat f s).free = s.free := (rfl)
@[simp] theorem modPat_outbox (f : Patina → Patina) (s : State) : (modPat f s).outbox = s.outbox := (rfl)
@[simp] theorem modPat_regs (f : Patina → Patina) (s : State) : (modPat f s).regs = s.regs := (rfl)
@[simp] theorem modPat_swapped (f : Patina → Patina) (s : State) : (modPat f s).swapped = s.swapped := (rfl)
@[simp] theorem modPat_calSwapped (f : Patina → Patina) (s : State) : (modPat f s).calSwapped = s.calSwapped := (rfl)
@[simp] theorem modPat_held (f : Patina → Patina) (s : State) : (modPat f s).held = s.held := (rfl)
@[simp] theorem modPat_wms (f : Patina → Patina) (s : State) : (modPat f s).wms = s.wms := (rfl)
@[simp] theorem modPat_irqOut (f : Patina → Patina) (s : State) : (modPat f s).irqOut = s.irqOut := (rfl)
@[simp] theorem modPat_msixDue (f : Patina → Patina) (s : State) : (modPat f s).msixDue = s.msixDue := (rfl)
@[simp] theorem modPat_pal (f : Patina → Patina) (s : State) : (modPat f s).pal = s.pal := (rfl)
@[simp] theorem modPat_palHeld (f : Patina → Patina) (s : State) : (modPat f s).palHeld = s.palHeld := (rfl)
@[simp] theorem modPat_palCmds (f : Patina → Patina) (s : State) : (modPat f s).palCmds = s.palCmds := (rfl)
@[simp] theorem modPat_chans (f : Patina → Patina) (s : State) : (modPat f s).chans = s.chans := (rfl)
@[simp] theorem modPat_bases (f : Patina → Patina) (s : State) : (modPat f s).bases = s.bases := (rfl)
@[simp] theorem modPat_tables (f : Patina → Patina) (s : State) : (modPat f s).tables = s.tables := (rfl)
@[simp] theorem modPat_doms (f : Patina → Patina) (s : State) : (modPat f s).doms = s.doms := (rfl)
@[simp] theorem modPat_pins (f : Patina → Patina) (s : State) : (modPat f s).pins = s.pins := (rfl)
@[simp] theorem modPat_lifecycle (f : Patina → Patina) (s : State) : (modPat f s).lifecycle = s.lifecycle := (rfl)
@[simp] theorem modPat_keyFused (f : Patina → Patina) (s : State) : (modPat f s).keyFused = s.keyFused := (rfl)
@[simp] theorem modPat_reports (f : Patina → Patina) (s : State) : (modPat f s).reports = s.reports := (rfl)
@[simp] theorem modPat_anvil (f : Patina → Patina) (s : State) : (modPat f s).anvil = s.anvil := (rfl)
@[simp] theorem modPat_nextFid (f : Patina → Patina) (s : State) : (modPat f s).nextFid = s.nextFid := (rfl)
@[simp] theorem modPat_corrected (f : Patina → Patina) (s : State) : (modPat f s).corrected = s.corrected := (rfl)
@[simp] theorem modPat_mem (f : Patina → Patina) (s : State) : (modPat f s).mem = s.mem := (rfl)
@[simp] theorem modPat_trans (f : Patina → Patina) (s : State) : (modPat f s).trans = s.trans := (rfl)
@[simp] theorem modPat_replies (f : Patina → Patina) (s : State) : (modPat f s).replies = s.replies := (rfl)
@[simp] theorem modPat_power (f : Patina → Patina) (s : State) : (modPat f s).power = s.power := (rfl)
@[simp] theorem modPat_granted (f : Patina → Patina) (s : State) : (modPat f s).granted = s.granted := (rfl)
@[simp] theorem modPat_tongs (f : Patina → Patina) (s : State) : (modPat f s).tongs = s.tongs := (rfl)
@[simp] theorem modPat_tongsLast (f : Patina → Patina) (s : State) : (modPat f s).tongsLast = s.tongsLast := (rfl)
@[simp] theorem modPat_mramLines (f : Patina → Patina) (s : State) : (modPat f s).mramLines = s.mramLines := (rfl)
@[simp] theorem modPat_mramGap (f : Patina → Patina) (s : State) : (modPat f s).mramGap = s.mramGap := (rfl)
@[simp] theorem modPat_hang (f : Patina → Patina) (s : State) : (modPat f s).hang = s.hang := (rfl)
@[simp] theorem modPat_hangAsk (f : Patina → Patina) (s : State) : (modPat f s).hangAsk = s.hangAsk := (rfl)
@[simp] theorem modPat_fabHangAsk (f : Patina → Patina) (s : State) : (modPat f s).fabHangAsk = s.fabHangAsk := (rfl)
@[simp] theorem modPat_copies (f : Patina → Patina) (s : State) : (modPat f s).copies = s.copies := (rfl)
@[simp] theorem modPat_fstat (f : Patina → Patina) (s : State) : (modPat f s).fstat = s.fstat := (rfl)
@[simp] theorem modPat_snap (f : Patina → Patina) (s : State) : (modPat f s).snap = s.snap := (rfl)
@[simp] theorem modPat_engines (f : Patina → Patina) (s : State) : (modPat f s).engines = s.engines := (rfl)
@[simp] theorem modPat_stale (f : Patina → Patina) (s : State) : (modPat f s).stale = s.stale := (rfl)
@[simp] theorem modPat_lanes (f : Patina → Patina) (s : State) : (modPat f s).lanes = s.lanes := (rfl)
@[simp] theorem modPat_stores (f : Patina → Patina) (s : State) : (modPat f s).stores = s.stores := (rfl)
@[simp] theorem modPat_seqs (f : Patina → Patina) (s : State) : (modPat f s).seqs = s.seqs := (rfl)
@[simp] theorem modPat_fails (f : Patina → Patina) (s : State) : (modPat f s).fails = s.fails := (rfl)
@[simp] theorem modPat_welds (f : Patina → Patina) (s : State) : (modPat f s).welds = s.welds := (rfl)
@[simp] theorem modPat_wiping (f : Patina → Patina) (s : State) : (modPat f s).wiping = s.wiping := (rfl)
@[simp] theorem modPat_ports (f : Patina → Patina) (s : State) : (modPat f s).ports = s.ports := (rfl)
@[simp] theorem modPat_fabric (f : Patina → Patina) (s : State) : (modPat f s).fabric = s.fabric := (rfl)
@[simp] theorem modPat_pcie (f : Patina → Patina) (s : State) : (modPat f s).pcie = s.pcie := (rfl)
@[simp] theorem modPat_thermal (f : Patina → Patina) (s : State) : (modPat f s).thermal = s.thermal := (rfl)
@[simp] theorem modPat_bellows (f : Patina → Patina) (s : State) : (modPat f s).bellows = s.bellows := (rfl)
@[simp] theorem modPat_temper (f : Patina → Patina) (s : State) : (modPat f s).temper = s.temper := (rfl)
@[simp] theorem modPat_primer (f : Patina → Patina) (s : State) : (modPat f s).primer = s.primer := (rfl)
@[simp] theorem modPat_calDue (f : Patina → Patina) (s : State) : (modPat f s).calDue = s.calDue := (rfl)
@[simp] theorem modPat_journal (f : Patina → Patina) (s : State) : (modPat f s).journal = s.journal := (rfl)
@[simp] theorem modPat_images (f : Patina → Patina) (s : State) : (modPat f s).images = s.images := (rfl)
@[simp] theorem modPat_loaded (f : Patina → Patina) (s : State) : (modPat f s).loaded = s.loaded := (rfl)
@[simp] theorem modPat_taken (f : Patina → Patina) (s : State) : (modPat f s).taken = s.taken := (rfl)
@[simp] theorem modPat_tap (f : Patina → Patina) (s : State) : (modPat f s).tap = s.tap := (rfl)
@[simp] theorem modPat_tapFault (f : Patina → Patina) (s : State) : (modPat f s).tapFault = s.tapFault := (rfl)
@[simp] theorem chan_modPat (f : Patina → Patina) (j : Nat) (s : State) : chan (modPat f s) j = chan s j := (rfl)
@[simp] theorem base_modPat (f : Patina → Patina) (j : Nat) (s : State) : base (modPat f s) j = base s j := (rfl)
@[simp] theorem dom_modPat (f : Patina → Patina) (j : Nat) (s : State) : dom (modPat f s) j = dom s j := (rfl)
@[simp] theorem eng_modPat (f : Patina → Patina) (j : Nat) (s : State) : eng (modPat f s) j = eng s j := (rfl)
@[simp] theorem lane_modPat (f : Patina → Patina) (j : Nat) (s : State) : lane (modPat f s) j = lane s j := (rfl)
@[simp] theorem store_modPat (f : Patina → Patina) (j : Nat) (s : State) : store (modPat f s) j = store s j := (rfl)
@[simp] theorem seqAt_modPat (f : Patina → Patina) (j : Nat) (s : State) : seqAt (modPat f s) j = seqAt s j := (rfl)
@[simp] theorem failPipe_modPat (f : Patina → Patina) (j : Nat) (s : State) : failPipe (modPat f s) j = failPipe s j := (rfl)
@[simp] theorem weld_modPat (f : Patina → Patina) (j : Nat) (s : State) : weld (modPat f s) j = weld s j := (rfl)
@[simp] theorem memByte_modPat (f : Patina → Patina) (j : Nat) (s : State) : memByte (modPat f s) j = memByte s j := (rfl)
@[simp] theorem anvEntry_modPat (f : Patina → Patina) (j : Nat) (s : State) : anvEntry (modPat f s) j = anvEntry s j := (rfl)
@[simp] theorem port_modPat (f : Patina → Patina) (j : Nat) (s : State) : port (modPat f s) j = port s j := (rfl)
@[simp] theorem hangSlot_modPat (f : Patina → Patina) (j : Nat) (s : State) : hangSlot (modPat f s) j = hangSlot s j := (rfl)
@[simp] theorem tgChan_modPat (f : Patina → Patina) (j : Nat) (s : State) : tgChan (modPat f s) j = tgChan s j := (rfl)
@[simp] theorem domLost_modPat (f : Patina → Patina) (j : Nat) (s : State) : domLost (modPat f s) j = domLost s j := (rfl)
@[simp] theorem canvasSet_modPat (f : Patina → Patina) (p o : Nat) (s : State) : canvasSet (modPat f s) p o = canvasSet s p o := (rfl)
@[simp] theorem rdRole_modPat (f : Patina → Patina) (e : Bool) (p o : Nat) (s : State) : rdRole (modPat f s) e p o = rdRole s e p o := (rfl)
@[simp] theorem rdReg_modPat (f : Patina → Patina) (p o : Nat) (s : State) : rdReg (modPat f s) p o = rdReg s p o := (rfl)
@[simp] theorem roleKey_modPat (f : Patina → Patina) (e : Bool) (p o : Nat) (s : State) : roleKey (modPat f s) e p o = roleKey s e p o := (rfl)
@[simp] theorem inForce_modPat (f : Patina → Patina) (p o : Nat) (s : State) : inForce (modPat f s) p o = inForce s p o := (rfl)
@[simp] theorem hangArmed_modPat (f : Patina → Patina) (p : Nat) (s : State) : hangArmed (modPat f s) p = hangArmed s p := (rfl)
@[simp] theorem enqueue_now (i : Instr) (s : State) : (State.enqueue i s).now = s.now := (rfl)
@[simp] theorem enqueue_free (i : Instr) (s : State) : (State.enqueue i s).free = s.free := (rfl)
@[simp] theorem enqueue_outbox (i : Instr) (s : State) : (State.enqueue i s).outbox = s.outbox := (rfl)
@[simp] theorem enqueue_regs (i : Instr) (s : State) : (State.enqueue i s).regs = s.regs := (rfl)
@[simp] theorem enqueue_swapped (i : Instr) (s : State) : (State.enqueue i s).swapped = s.swapped := (rfl)
@[simp] theorem enqueue_calSwapped (i : Instr) (s : State) : (State.enqueue i s).calSwapped = s.calSwapped := (rfl)
@[simp] theorem enqueue_held (i : Instr) (s : State) : (State.enqueue i s).held = s.held := (rfl)
@[simp] theorem enqueue_wms (i : Instr) (s : State) : (State.enqueue i s).wms = s.wms := (rfl)
@[simp] theorem enqueue_irqOut (i : Instr) (s : State) : (State.enqueue i s).irqOut = s.irqOut := (rfl)
@[simp] theorem enqueue_msixDue (i : Instr) (s : State) : (State.enqueue i s).msixDue = s.msixDue := (rfl)
@[simp] theorem enqueue_pal (i : Instr) (s : State) : (State.enqueue i s).pal = s.pal := (rfl)
@[simp] theorem enqueue_palHeld (i : Instr) (s : State) : (State.enqueue i s).palHeld = s.palHeld := (rfl)
@[simp] theorem enqueue_palCmds (i : Instr) (s : State) : (State.enqueue i s).palCmds = s.palCmds := (rfl)
@[simp] theorem enqueue_chans (i : Instr) (s : State) : (State.enqueue i s).chans = s.chans := (rfl)
@[simp] theorem enqueue_bases (i : Instr) (s : State) : (State.enqueue i s).bases = s.bases := (rfl)
@[simp] theorem enqueue_tables (i : Instr) (s : State) : (State.enqueue i s).tables = s.tables := (rfl)
@[simp] theorem enqueue_doms (i : Instr) (s : State) : (State.enqueue i s).doms = s.doms := (rfl)
@[simp] theorem enqueue_pins (i : Instr) (s : State) : (State.enqueue i s).pins = s.pins := (rfl)
@[simp] theorem enqueue_lifecycle (i : Instr) (s : State) : (State.enqueue i s).lifecycle = s.lifecycle := (rfl)
@[simp] theorem enqueue_keyFused (i : Instr) (s : State) : (State.enqueue i s).keyFused = s.keyFused := (rfl)
@[simp] theorem enqueue_reports (i : Instr) (s : State) : (State.enqueue i s).reports = s.reports := (rfl)
@[simp] theorem enqueue_anvil (i : Instr) (s : State) : (State.enqueue i s).anvil = s.anvil := (rfl)
@[simp] theorem enqueue_nextFid (i : Instr) (s : State) : (State.enqueue i s).nextFid = s.nextFid := (rfl)
@[simp] theorem enqueue_corrected (i : Instr) (s : State) : (State.enqueue i s).corrected = s.corrected := (rfl)
@[simp] theorem enqueue_mem (i : Instr) (s : State) : (State.enqueue i s).mem = s.mem := (rfl)
@[simp] theorem enqueue_trans (i : Instr) (s : State) : (State.enqueue i s).trans = s.trans := (rfl)
@[simp] theorem enqueue_replies (i : Instr) (s : State) : (State.enqueue i s).replies = s.replies := (rfl)
@[simp] theorem enqueue_power (i : Instr) (s : State) : (State.enqueue i s).power = s.power := (rfl)
@[simp] theorem enqueue_granted (i : Instr) (s : State) : (State.enqueue i s).granted = s.granted := (rfl)
@[simp] theorem enqueue_tongs (i : Instr) (s : State) : (State.enqueue i s).tongs = s.tongs := (rfl)
@[simp] theorem enqueue_tongsLast (i : Instr) (s : State) : (State.enqueue i s).tongsLast = s.tongsLast := (rfl)
@[simp] theorem enqueue_mramLines (i : Instr) (s : State) : (State.enqueue i s).mramLines = s.mramLines := (rfl)
@[simp] theorem enqueue_mramGap (i : Instr) (s : State) : (State.enqueue i s).mramGap = s.mramGap := (rfl)
@[simp] theorem enqueue_hang (i : Instr) (s : State) : (State.enqueue i s).hang = s.hang := (rfl)
@[simp] theorem enqueue_hangAsk (i : Instr) (s : State) : (State.enqueue i s).hangAsk = s.hangAsk := (rfl)
@[simp] theorem enqueue_fabHangAsk (i : Instr) (s : State) : (State.enqueue i s).fabHangAsk = s.fabHangAsk := (rfl)
@[simp] theorem enqueue_copies (i : Instr) (s : State) : (State.enqueue i s).copies = s.copies := (rfl)
@[simp] theorem enqueue_fstat (i : Instr) (s : State) : (State.enqueue i s).fstat = s.fstat := (rfl)
@[simp] theorem enqueue_snap (i : Instr) (s : State) : (State.enqueue i s).snap = s.snap := (rfl)
@[simp] theorem enqueue_engines (i : Instr) (s : State) : (State.enqueue i s).engines = s.engines := (rfl)
@[simp] theorem enqueue_stale (i : Instr) (s : State) : (State.enqueue i s).stale = s.stale := (rfl)
@[simp] theorem enqueue_lanes (i : Instr) (s : State) : (State.enqueue i s).lanes = s.lanes := (rfl)
@[simp] theorem enqueue_stores (i : Instr) (s : State) : (State.enqueue i s).stores = s.stores := (rfl)
@[simp] theorem enqueue_seqs (i : Instr) (s : State) : (State.enqueue i s).seqs = s.seqs := (rfl)
@[simp] theorem enqueue_fails (i : Instr) (s : State) : (State.enqueue i s).fails = s.fails := (rfl)
@[simp] theorem enqueue_welds (i : Instr) (s : State) : (State.enqueue i s).welds = s.welds := (rfl)
@[simp] theorem enqueue_patina (i : Instr) (s : State) : (State.enqueue i s).patina = s.patina := (rfl)
@[simp] theorem enqueue_wiping (i : Instr) (s : State) : (State.enqueue i s).wiping = s.wiping := (rfl)
@[simp] theorem enqueue_ports (i : Instr) (s : State) : (State.enqueue i s).ports = s.ports := (rfl)
@[simp] theorem enqueue_fabric (i : Instr) (s : State) : (State.enqueue i s).fabric = s.fabric := (rfl)
@[simp] theorem enqueue_pcie (i : Instr) (s : State) : (State.enqueue i s).pcie = s.pcie := (rfl)
@[simp] theorem enqueue_thermal (i : Instr) (s : State) : (State.enqueue i s).thermal = s.thermal := (rfl)
@[simp] theorem enqueue_bellows (i : Instr) (s : State) : (State.enqueue i s).bellows = s.bellows := (rfl)
@[simp] theorem enqueue_temper (i : Instr) (s : State) : (State.enqueue i s).temper = s.temper := (rfl)
@[simp] theorem enqueue_primer (i : Instr) (s : State) : (State.enqueue i s).primer = s.primer := (rfl)
@[simp] theorem enqueue_calDue (i : Instr) (s : State) : (State.enqueue i s).calDue = s.calDue := (rfl)
@[simp] theorem enqueue_journal (i : Instr) (s : State) : (State.enqueue i s).journal = s.journal := (rfl)
@[simp] theorem enqueue_images (i : Instr) (s : State) : (State.enqueue i s).images = s.images := (rfl)
@[simp] theorem enqueue_loaded (i : Instr) (s : State) : (State.enqueue i s).loaded = s.loaded := (rfl)
@[simp] theorem enqueue_taken (i : Instr) (s : State) : (State.enqueue i s).taken = s.taken := (rfl)
@[simp] theorem enqueue_tap (i : Instr) (s : State) : (State.enqueue i s).tap = s.tap := (rfl)
@[simp] theorem enqueue_tapFault (i : Instr) (s : State) : (State.enqueue i s).tapFault = s.tapFault := (rfl)
@[simp] theorem chan_enqueue (i : Instr) (j : Nat) (s : State) : chan (State.enqueue i s) j = chan s j := (rfl)
@[simp] theorem base_enqueue (i : Instr) (j : Nat) (s : State) : base (State.enqueue i s) j = base s j := (rfl)
@[simp] theorem dom_enqueue (i : Instr) (j : Nat) (s : State) : dom (State.enqueue i s) j = dom s j := (rfl)
@[simp] theorem eng_enqueue (i : Instr) (j : Nat) (s : State) : eng (State.enqueue i s) j = eng s j := (rfl)
@[simp] theorem lane_enqueue (i : Instr) (j : Nat) (s : State) : lane (State.enqueue i s) j = lane s j := (rfl)
@[simp] theorem store_enqueue (i : Instr) (j : Nat) (s : State) : store (State.enqueue i s) j = store s j := (rfl)
@[simp] theorem seqAt_enqueue (i : Instr) (j : Nat) (s : State) : seqAt (State.enqueue i s) j = seqAt s j := (rfl)
@[simp] theorem failPipe_enqueue (i : Instr) (j : Nat) (s : State) : failPipe (State.enqueue i s) j = failPipe s j := (rfl)
@[simp] theorem weld_enqueue (i : Instr) (j : Nat) (s : State) : weld (State.enqueue i s) j = weld s j := (rfl)
@[simp] theorem memByte_enqueue (i : Instr) (j : Nat) (s : State) : memByte (State.enqueue i s) j = memByte s j := (rfl)
@[simp] theorem anvEntry_enqueue (i : Instr) (j : Nat) (s : State) : anvEntry (State.enqueue i s) j = anvEntry s j := (rfl)
@[simp] theorem port_enqueue (i : Instr) (j : Nat) (s : State) : port (State.enqueue i s) j = port s j := (rfl)
@[simp] theorem hangSlot_enqueue (i : Instr) (j : Nat) (s : State) : hangSlot (State.enqueue i s) j = hangSlot s j := (rfl)
@[simp] theorem tgChan_enqueue (i : Instr) (j : Nat) (s : State) : tgChan (State.enqueue i s) j = tgChan s j := (rfl)
@[simp] theorem bucket_enqueue (i : Instr) (j : Nat) (s : State) : bucket (State.enqueue i s) j = bucket s j := (rfl)
@[simp] theorem domLost_enqueue (i : Instr) (j : Nat) (s : State) : domLost (State.enqueue i s) j = domLost s j := (rfl)
@[simp] theorem canvasSet_enqueue (i : Instr) (p o : Nat) (s : State) : canvasSet (State.enqueue i s) p o = canvasSet s p o := (rfl)
@[simp] theorem rdRole_enqueue (i : Instr) (e : Bool) (p o : Nat) (s : State) : rdRole (State.enqueue i s) e p o = rdRole s e p o := (rfl)
@[simp] theorem rdReg_enqueue (i : Instr) (p o : Nat) (s : State) : rdReg (State.enqueue i s) p o = rdReg s p o := (rfl)
@[simp] theorem roleKey_enqueue (i : Instr) (e : Bool) (p o : Nat) (s : State) : roleKey (State.enqueue i s) e p o = roleKey s e p o := (rfl)
@[simp] theorem inForce_enqueue (i : Instr) (p o : Nat) (s : State) : inForce (State.enqueue i s) p o = inForce s p o := (rfl)
@[simp] theorem hangArmed_enqueue (i : Instr) (p : Nat) (s : State) : hangArmed (State.enqueue i s) p = hangArmed s p := (rfl)

@[simp] theorem chan_setChan_same (i : Nat) (x : Chan) (s : State) : chan (setChan i x s) i = x := by simp [chan, setChan]
theorem chan_setChan_ne {i j : Nat} (h : j ≠ i) (x : Chan) (s : State) : chan (setChan i x s) j = chan s j := by simp [chan, setChan, smGet_smPut_ne _ _ _ _ h]
@[simp] theorem setChan_setChan_same (i : Nat) (x y : Chan) (s : State) : setChan i x (setChan i y s) = setChan i x s := by simp [setChan]
@[simp] theorem chan_modChan_same (i : Nat) (f : Chan → Chan) (s : State) : chan (modChan i f s) i = f (chan s i) := by simp [modChan]
theorem chan_modChan_ne {i j : Nat} (h : j ≠ i) (f : Chan → Chan) (s : State) : chan (modChan i f s) j = chan s j := by simp [modChan, chan_setChan_ne h]
@[simp] theorem base_setBase_same (i : Nat) (x : Timebase) (s : State) : base (setBase i x s) i = x := by simp [base, setBase]
theorem base_setBase_ne {i j : Nat} (h : j ≠ i) (x : Timebase) (s : State) : base (setBase i x s) j = base s j := by simp [base, setBase, smGet_smPut_ne _ _ _ _ h]
@[simp] theorem setBase_setBase_same (i : Nat) (x y : Timebase) (s : State) : setBase i x (setBase i y s) = setBase i x s := by simp [setBase]
@[simp] theorem base_modBase_same (i : Nat) (f : Timebase → Timebase) (s : State) : base (modBase i f s) i = f (base s i) := by simp [modBase]
theorem base_modBase_ne {i j : Nat} (h : j ≠ i) (f : Timebase → Timebase) (s : State) : base (modBase i f s) j = base s j := by simp [modBase, base_setBase_ne h]
@[simp] theorem dom_setDom_same (i : Nat) (x : Domain) (s : State) : dom (setDom i x s) i = x := by simp [dom, setDom]
theorem dom_setDom_ne {i j : Nat} (h : j ≠ i) (x : Domain) (s : State) : dom (setDom i x s) j = dom s j := by simp [dom, setDom, smGet_smPut_ne _ _ _ _ h]
@[simp] theorem setDom_setDom_same (i : Nat) (x y : Domain) (s : State) : setDom i x (setDom i y s) = setDom i x s := by simp [setDom]
@[simp] theorem eng_setEng_same (i : Nat) (x : Engine) (s : State) : eng (setEng i x s) i = x := by simp [eng, setEng]
theorem eng_setEng_ne {i j : Nat} (h : j ≠ i) (x : Engine) (s : State) : eng (setEng i x s) j = eng s j := by simp [eng, setEng, smGet_smPut_ne _ _ _ _ h]
@[simp] theorem setEng_setEng_same (i : Nat) (x y : Engine) (s : State) : setEng i x (setEng i y s) = setEng i x s := by simp [setEng]
@[simp] theorem eng_modEng_same (i : Nat) (f : Engine → Engine) (s : State) : eng (modEng i f s) i = f (eng s i) := by simp [modEng]
theorem eng_modEng_ne {i j : Nat} (h : j ≠ i) (f : Engine → Engine) (s : State) : eng (modEng i f s) j = eng s j := by simp [modEng, eng_setEng_ne h]
@[simp] theorem lane_setLane_same (i : Nat) (x : Lane) (s : State) : lane (setLane i x s) i = x := by simp [lane, setLane]
theorem lane_setLane_ne {i j : Nat} (h : j ≠ i) (x : Lane) (s : State) : lane (setLane i x s) j = lane s j := by simp [lane, setLane, smGet_smPut_ne _ _ _ _ h]
@[simp] theorem setLane_setLane_same (i : Nat) (x y : Lane) (s : State) : setLane i x (setLane i y s) = setLane i x s := by simp [setLane]
@[simp] theorem lane_modLane_same (i : Nat) (f : Lane → Lane) (s : State) : lane (modLane i f s) i = f (lane s i) := by simp [modLane]
theorem lane_modLane_ne {i j : Nat} (h : j ≠ i) (f : Lane → Lane) (s : State) : lane (modLane i f s) j = lane s j := by simp [modLane, lane_setLane_ne h]
@[simp] theorem store_setStore_same (i : Nat) (x : CtlStore) (s : State) : store (setStore i x s) i = x := by simp [store, setStore]
theorem store_setStore_ne {i j : Nat} (h : j ≠ i) (x : CtlStore) (s : State) : store (setStore i x s) j = store s j := by simp [store, setStore, smGet_smPut_ne _ _ _ _ h]
@[simp] theorem setStore_setStore_same (i : Nat) (x y : CtlStore) (s : State) : setStore i x (setStore i y s) = setStore i x s := by simp [setStore]
@[simp] theorem store_modStore_same (i : Nat) (f : CtlStore → CtlStore) (s : State) : store (modStore i f s) i = f (store s i) := by simp [modStore]
theorem store_modStore_ne {i j : Nat} (h : j ≠ i) (f : CtlStore → CtlStore) (s : State) : store (modStore i f s) j = store s j := by simp [modStore, store_setStore_ne h]
@[simp] theorem seqAt_setSeq_same (i : Nat) (x : Seq) (s : State) : seqAt (setSeq i x s) i = x := by simp [seqAt, setSeq]
theorem seqAt_setSeq_ne {i j : Nat} (h : j ≠ i) (x : Seq) (s : State) : seqAt (setSeq i x s) j = seqAt s j := by simp [seqAt, setSeq, smGet_smPut_ne _ _ _ _ h]
@[simp] theorem setSeq_setSeq_same (i : Nat) (x y : Seq) (s : State) : setSeq i x (setSeq i y s) = setSeq i x s := by simp [setSeq]
@[simp] theorem failPipe_setFail_same (i : Nat) (x : FailPipe) (s : State) : failPipe (setFail i x s) i = x := by simp [failPipe, setFail]
theorem failPipe_setFail_ne {i j : Nat} (h : j ≠ i) (x : FailPipe) (s : State) : failPipe (setFail i x s) j = failPipe s j := by simp [failPipe, setFail, smGet_smPut_ne _ _ _ _ h]
@[simp] theorem setFail_setFail_same (i : Nat) (x y : FailPipe) (s : State) : setFail i x (setFail i y s) = setFail i x s := by simp [setFail]
@[simp] theorem failPipe_modFail_same (i : Nat) (f : FailPipe → FailPipe) (s : State) : failPipe (modFail i f s) i = f (failPipe s i) := by simp [modFail]
theorem failPipe_modFail_ne {i j : Nat} (h : j ≠ i) (f : FailPipe → FailPipe) (s : State) : failPipe (modFail i f s) j = failPipe s j := by simp [modFail, failPipe_setFail_ne h]
@[simp] theorem weld_setWeld_same (i : Nat) (x : Weld) (s : State) : weld (setWeld i x s) i = x := by simp [weld, setWeld]
theorem weld_setWeld_ne {i j : Nat} (h : j ≠ i) (x : Weld) (s : State) : weld (setWeld i x s) j = weld s j := by simp [weld, setWeld, smGet_smPut_ne _ _ _ _ h]
@[simp] theorem setWeld_setWeld_same (i : Nat) (x y : Weld) (s : State) : setWeld i x (setWeld i y s) = setWeld i x s := by simp [setWeld]
@[simp] theorem weld_modWeld_same (i : Nat) (f : Weld → Weld) (s : State) : weld (modWeld i f s) i = f (weld s i) := by simp [modWeld]
theorem weld_modWeld_ne {i j : Nat} (h : j ≠ i) (f : Weld → Weld) (s : State) : weld (modWeld i f s) j = weld s j := by simp [modWeld, weld_setWeld_ne h]
@[simp] theorem anvEntry_setAnv_same (i : Nat) (x : AnvilEntry) (s : State) : anvEntry (setAnv i x s) i = x := by simp [anvEntry, setAnv]
theorem anvEntry_setAnv_ne {i j : Nat} (h : j ≠ i) (x : AnvilEntry) (s : State) : anvEntry (setAnv i x s) j = anvEntry s j := by simp [anvEntry, setAnv, smGet_smPut_ne _ _ _ _ h]
@[simp] theorem setAnv_setAnv_same (i : Nat) (x y : AnvilEntry) (s : State) : setAnv i x (setAnv i y s) = setAnv i x s := by simp [setAnv]
@[simp] theorem port_setPortAt_same (i : Nat) (x : Port) (s : State) : port (setPortAt i x s) i = x := by simp [port, setPortAt]
theorem port_setPortAt_ne {i j : Nat} (h : j ≠ i) (x : Port) (s : State) : port (setPortAt i x s) j = port s j := by simp [port, setPortAt, smGet_smPut_ne _ _ _ _ h]
@[simp] theorem setPortAt_setPortAt_same (i : Nat) (x y : Port) (s : State) : setPortAt i x (setPortAt i y s) = setPortAt i x s := by simp [setPortAt]
@[simp] theorem port_modPort_same (i : Nat) (f : Port → Port) (s : State) : port (modPort i f s) i = f (port s i) := by simp [modPort]
theorem port_modPort_ne {i j : Nat} (h : j ≠ i) (f : Port → Port) (s : State) : port (modPort i f s) j = port s j := by simp [modPort, port_setPortAt_ne h]
@[simp] theorem hangSlot_setHang_same (i : Nat) (x : HangSlot) (s : State) : hangSlot (setHang i x s) i = x := by simp [hangSlot, setHang]
theorem hangSlot_setHang_ne {i j : Nat} (h : j ≠ i) (x : HangSlot) (s : State) : hangSlot (setHang i x s) j = hangSlot s j := by simp [hangSlot, setHang, smGet_smPut_ne _ _ _ _ h]
@[simp] theorem setHang_setHang_same (i : Nat) (x y : HangSlot) (s : State) : setHang i x (setHang i y s) = setHang i x s := by simp [setHang]
@[simp] theorem tgChan_setTg_same (i : Nat) (x : TongsChan) (s : State) : tgChan (setTg i x s) i = x := by simp [tgChan, setTg]
theorem tgChan_setTg_ne {i j : Nat} (h : j ≠ i) (x : TongsChan) (s : State) : tgChan (setTg i x s) j = tgChan s j := by simp [tgChan, setTg, smGet_smPut_ne _ _ _ _ h]
@[simp] theorem setTg_setTg_same (i : Nat) (x y : TongsChan) (s : State) : setTg i x (setTg i y s) = setTg i x s := by simp [setTg]
@[simp] theorem memByte_setByte_same (i : Nat) (x : Byte) (s : State) : memByte (setByte i x s) i = x := by simp [memByte, setByte]
theorem memByte_setByte_ne {i j : Nat} (h : j ≠ i) (x : Byte) (s : State) : memByte (setByte i x s) j = memByte s j := by simp [memByte, setByte, smGet_smPut_ne _ _ _ _ h]
@[simp] theorem setByte_setByte_same (i : Nat) (x y : Byte) (s : State) : setByte i x (setByte i y s) = setByte i x s := by simp [setByte]
@[simp] theorem modFab_fabric (f : Fabric → Fabric) (s : State) : (modFab f s).fabric = f s.fabric := (rfl)
@[simp] theorem modPat_patina (f : Patina → Patina) (s : State) : (modPat f s).patina = f s.patina := (rfl)
@[simp] theorem tick_free (s : State) : (tick s).free = s.free + 1 := (rfl)
@[simp] theorem send_outbox (o : Out) (s : State) : (send o s).outbox = o :: s.outbox := rfl
@[simp] theorem reach_now (n : Nat) (s : State) : (reach n s).now = max s.now n := (rfl)
@[simp] theorem report_reports (r : Report) (s : State) : (report r s).reports = s.reports ++ [r] := rfl
@[simp] theorem enqueue_pending (i : Instr) (s : State) : (State.enqueue i s).pending = i :: s.pending := rfl

end Sys2Proof.Machine
end

