-- ==== Sys2Proof/Laws/Registers.lean ====
section
/-! SUPPORT. Registers: a write is read back and leaves the others alone; and what the shared operations of interrupts, faults and
watermarks change. -/

-- One theorem at a time: elaborating them in parallel takes the memory of many threads.
set_option Elab.async false

namespace Sys2Proof.Machine

theorem regKey_inj {a b : Bool} {p q o r : Nat} (hp : p < 2 ^ 14) (hq : q < 2 ^ 14) (ho : o < 2 ^ 12) (hr : r < 2 ^ 12)
    (h : regKey a p o = regKey b q r) : a = b ∧ p = q ∧ o = r := by
  unfold regKey at h
  cases a <;> cases b <;> simp only [Bool.toNat_true, Bool.toNat_false, true_and, reduceCtorEq, false_and] at h ⊢ <;> omega

theorem roleKey_inj {s t : State} {e e' : Bool} {p q o r : Nat} (hp : p < 2 ^ 14) (hq : q < 2 ^ 14) (ho : o < 2 ^ 12) (hr : r < 2 ^ 12)
    (h : roleKey s e p o = roleKey t e' q r) : p = q ∧ o = r := by
  unfold roleKey at h
  split at h <;> split at h <;> exact (regKey_inj hp hq ho hr h).2

theorem regKey_off {a b : Bool} {p o r : Nat} (ho : o < 2 ^ 12) (hr : r < 2 ^ 12) (h : regKey a p o = regKey b p r) : o = r := by
  unfold regKey at h
  cases a <;> cases b <;> simp only [Bool.toNat_true, Bool.toNat_false] at h <;> omega

theorem roleKey_off {s t : State} {e e' : Bool} {p o r : Nat} (ho : o < 2 ^ 12) (hr : r < 2 ^ 12) (h : roleKey s e p o = roleKey t e' p r) : o = r := by
  unfold roleKey at h
  split at h <;> split at h <;> exact regKey_off ho hr h

@[simp] theorem rdRole_wrRole_same (e : Bool) (p o : Nat) (v : Word) (s : State) : rdRole (wrRole e p o v s) e p o = v := by
  have : roleKey (wrRole e p o v s) e p o = roleKey s e p o := rfl
  simp [rdRole, this]
  simp [wrRole]

theorem rdRole_wrRole_ne {p q o r : Nat} (hp : p < 2 ^ 14) (hq : q < 2 ^ 14) (ho : o < 2 ^ 12) (hr : r < 2 ^ 12)
    (h : ¬ (p = q ∧ o = r)) (e e' : Bool) (v : Word) (s : State) : rdRole (wrRole e p o v s) e' q r = rdRole s e' q r := by
  have hk : roleKey s e' q r ≠ roleKey s e p o := fun hh => h (let ⟨a, b⟩ := roleKey_inj hq hp hr ho hh; ⟨a.symm, b.symm⟩)
  show smGet _ (smPut _ _ _ _) _ = _
  rw [smGet_smPut_ne _ _ _ _ (by exact hk)]
  rfl

/-- The other role of a bankable register is left alone; elsewhere there is one copy. -/
theorem rdRole_wrRole_other (p o : Nat) (v : Word) (e : Bool) (s : State) (h : bankable o = true) : rdRole (wrRole e p o v s) (!e) p o = rdRole s (!e) p o := by
  have hk : roleKey s (!e) p o ≠ roleKey s e p o := by
    simp only [roleKey, h, if_true, regKey]
    cases canvasSet s p o <;> cases e <;> simp
  show smGet _ (smPut _ _ _ _) _ = _
  rw [smGet_smPut_ne _ _ _ _ (by exact hk)]
  rfl

@[simp] theorem rdReg_wrReg_same (p o : Nat) (v : Word) (s : State) : rdReg (wrReg p o v s) p o = v := rdRole_wrRole_same ..

theorem rdReg_wrReg_ne {p q o r : Nat} (hp : p < 2 ^ 14) (hq : q < 2 ^ 14) (ho : o < 2 ^ 12) (hr : r < 2 ^ 12)
    (h : ¬ (p = q ∧ o = r)) (v : Word) (s : State) : rdReg (wrReg p o v s) q r = rdReg s q r := rdRole_wrRole_ne hp hq ho hr h ..

@[simp] theorem rdReg_modReg_same (p o : Nat) (f : Word → Word) (s : State) : rdReg (modReg p o f s) p o = f (rdReg s p o) := rdRole_wrRole_same ..

theorem rdReg_modReg_ne {p q o r : Nat} (hp : p < 2 ^ 14) (hq : q < 2 ^ 14) (ho : o < 2 ^ 12) (hr : r < 2 ^ 12)
    (h : ¬ (p = q ∧ o = r)) (f : Word → Word) (s : State) : rdReg (modReg p o f s) q r = rdReg s q r := rdRole_wrRole_ne hp hq ho hr h ..

/-- Another register of the same page: the page's bound is not needed where the offsets differ. -/
theorem rdReg_wrReg_off {p o r : Nat} (ho : o < 2 ^ 12) (hr : r < 2 ^ 12) (h : o ≠ r) (v : Word) (s : State) :
    rdReg (wrReg p o v s) p r = rdReg s p r := by
  have hk : roleKey s false p r ≠ roleKey s false p o := fun hh => h (roleKey_off hr ho hh).symm
  show smGet _ (smPut _ _ _ _) _ = _
  rw [smGet_smPut_ne _ _ _ _ (by exact hk)]
  rfl

theorem rdReg_modReg_off {p o r : Nat} (ho : o < 2 ^ 12) (hr : r < 2 ^ 12) (h : o ≠ r) (f : Word → Word) (s : State) :
    rdReg (modReg p o f s) p r = rdReg s p r := rdReg_wrReg_off ho hr h _ s

/-! ## What changes nothing but the pages' own records -/

theorem PageOnly.refl (s : State) : PageOnly s s := rfl

theorem PageOnly.eq {s t : State} (h : PageOnly s t) :
    t = { s with regs := t.regs, irqOut := t.irqOut, msixDue := t.msixDue, reports := t.reports, wms := t.wms } := h

theorem PageOnly.trans {s t u : State} (h : PageOnly s t) (k : PageOnly t u) : PageOnly s u := by
  unfold PageOnly at *
  rw [k, h]

theorem pageOnly_wrRole (e : Bool) (p o : Nat) (v : Word) (s : State) : PageOnly s (wrRole e p o v s) := rfl
theorem pageOnly_wrReg (p o : Nat) (v : Word) (s : State) : PageOnly s (wrReg p o v s) := rfl
theorem pageOnly_modReg (p o : Nat) (f : Word → Word) (s : State) : PageOnly s (modReg p o f s) := rfl
theorem pageOnly_countReg (p o n : Nat) (s : State) : PageOnly s (countReg p o n s) := rfl
theorem pageOnly_report (r : Report) (s : State) : PageOnly s (report r s) := rfl

theorem pageOnly_msixAsk (p : Nat) (s : State) : PageOnly s (msixAsk p s) := by unfold msixAsk; split <;> rfl
theorem pageOnly_noteIrq (p : Nat) (s : State) : PageOnly s (noteIrq p s) := by
  unfold noteIrq
  dsimp only
  split
  · exact PageOnly.trans (t := { s with irqOut := smPut false s.irqOut p (irqOutput s p) }) rfl (pageOnly_msixAsk _ _)
  · rfl
theorem pageOnly_noteAck (p : Nat) (s : State) : PageOnly s (noteAck p s) := by
  unfold noteAck; split
  · exact pageOnly_msixAsk _ _
  · exact pageOnly_noteIrq _ _
theorem pageOnly_raise (p : Nat) (b : Word) (s : State) : PageOnly s (raise p b s) := (pageOnly_modReg ..).trans (pageOnly_noteIrq ..)
theorem pageOnly_raiseBit (p i : Nat) (s : State) : PageOnly s (raiseBit p i s) := pageOnly_raise ..
theorem pageOnly_raiseReject (p : Nat) (s : State) : PageOnly s (raiseReject p s) := by
  unfold raiseReject; split
  · split
    · exact pageOnly_raiseBit ..
    · rfl
  · rfl
theorem pageOnly_captureOnly (p c o d : Nat) (s : State) : PageOnly s (captureOnly p c o d s) := (pageOnly_modReg ..).trans (pageOnly_noteIrq ..)
theorem pageOnly_captureAs (p c o d cl sh g k : Nat) (s : State) : PageOnly s (captureAs p c o d cl sh g k s) := (pageOnly_captureOnly ..).trans (pageOnly_report ..)
theorem pageOnly_capture (p c o d : Nat) (s : State) : PageOnly s (capture p c o d s) := pageOnly_captureAs ..
theorem pageOnly_rejectWrite (p o : Nat) (m : Master) (s : State) : PageOnly s (rejectWrite p o m s) := (pageOnly_raiseReject ..).trans (pageOnly_capture ..)
theorem pageOnly_invalidWrite (p o : Nat) (m : Master) (s : State) : PageOnly s (invalidWrite p o m s) := (pageOnly_raiseReject ..).trans (pageOnly_capture ..)
theorem pageOnly_refuseCmd (p o : Nat) (m : Master) (s : State) : PageOnly s (refuseCmd p o m s) := pageOnly_capture ..
theorem pageOnly_wms (m : SMap WmState) (s : State) : PageOnly s { s with wms := m } := rfl
theorem pageOnly_wmSample (p n v : Nat) (s : State) : PageOnly s (wmSample p n v s) := by
  unfold wmSample
  dsimp only
  split
  · refine PageOnly.trans ?_ (pageOnly_noteIrq _ _)
    split
    · exact (((pageOnly_wrReg ..).trans (pageOnly_modReg ..)).trans (pageOnly_wms ..)).trans (pageOnly_wrReg ..)
    · exact ((((pageOnly_wrReg ..).trans (pageOnly_modReg ..)).trans (pageOnly_wms ..)).trans (pageOnly_wrReg ..)).trans (pageOnly_wrReg ..)
  · exact ((pageOnly_wrReg ..).trans (pageOnly_modReg ..)).trans (pageOnly_wms ..)
theorem pageOnly_wmClear (p n : Nat) (s : State) : PageOnly s (wmClear p n s) := (((pageOnly_wrReg ..).trans (pageOnly_wrReg ..)).trans (pageOnly_wrReg ..)).trans (pageOnly_noteAck ..)
theorem pageOnly_wmMark (p n : Nat) (v : Word) (s : State) : PageOnly s (wmMark p n v s) := rfl
theorem pageOnly_mxError (m : Master) (a k : Nat) (s : State) : PageOnly s (mxError m a k s) := by
  unfold mxError
  dsimp only
  split
  · exact pageOnly_raiseBit ..
  · exact (((pageOnly_raiseBit ..).trans (pageOnly_wrReg ..)).trans (pageOnly_wrReg ..)).trans (pageOnly_wrReg ..)

/-! ## What a watched register reads after them -/

@[simp] theorem noteIrq_regs (p : Nat) (s : State) : (noteIrq p s).regs = s.regs := by
  unfold noteIrq msixAsk; dsimp only; split <;> (try split) <;> rfl
@[simp] theorem noteAck_regs (p : Nat) (s : State) : (noteAck p s).regs = s.regs := by
  unfold noteAck; split
  · unfold msixAsk; split <;> rfl
  · exact noteIrq_regs ..

theorem PageOnly.pending_eq {s t : State} (h : PageOnly s t) : t.pending = s.pending := (congrArg State.pending h.eq :)
theorem PageOnly.now_eq {s t : State} (h : PageOnly s t) : t.now = s.now := (congrArg State.now h.eq :)
theorem PageOnly.free_eq {s t : State} (h : PageOnly s t) : t.free = s.free := (congrArg State.free h.eq :)
theorem PageOnly.outbox_eq {s t : State} (h : PageOnly s t) : t.outbox = s.outbox := (congrArg State.outbox h.eq :)
theorem PageOnly.swapped_eq {s t : State} (h : PageOnly s t) : t.swapped = s.swapped := (congrArg State.swapped h.eq :)
theorem PageOnly.calSwapped_eq {s t : State} (h : PageOnly s t) : t.calSwapped = s.calSwapped := (congrArg State.calSwapped h.eq :)
theorem PageOnly.held_eq {s t : State} (h : PageOnly s t) : t.held = s.held := (congrArg State.held h.eq :)
theorem PageOnly.pal_eq {s t : State} (h : PageOnly s t) : t.pal = s.pal := (congrArg State.pal h.eq :)
theorem PageOnly.palHeld_eq {s t : State} (h : PageOnly s t) : t.palHeld = s.palHeld := (congrArg State.palHeld h.eq :)
theorem PageOnly.palCmds_eq {s t : State} (h : PageOnly s t) : t.palCmds = s.palCmds := (congrArg State.palCmds h.eq :)
theorem PageOnly.chans_eq {s t : State} (h : PageOnly s t) : t.chans = s.chans := (congrArg State.chans h.eq :)
theorem PageOnly.bases_eq {s t : State} (h : PageOnly s t) : t.bases = s.bases := (congrArg State.bases h.eq :)
theorem PageOnly.tables_eq {s t : State} (h : PageOnly s t) : t.tables = s.tables := (congrArg State.tables h.eq :)
theorem PageOnly.doms_eq {s t : State} (h : PageOnly s t) : t.doms = s.doms := (congrArg State.doms h.eq :)
theorem PageOnly.lifecycle_eq {s t : State} (h : PageOnly s t) : t.lifecycle = s.lifecycle := (congrArg State.lifecycle h.eq :)
theorem PageOnly.keyFused_eq {s t : State} (h : PageOnly s t) : t.keyFused = s.keyFused := (congrArg State.keyFused h.eq :)
theorem PageOnly.anvil_eq {s t : State} (h : PageOnly s t) : t.anvil = s.anvil := (congrArg State.anvil h.eq :)
theorem PageOnly.nextFid_eq {s t : State} (h : PageOnly s t) : t.nextFid = s.nextFid := (congrArg State.nextFid h.eq :)
theorem PageOnly.mem_eq {s t : State} (h : PageOnly s t) : t.mem = s.mem := (congrArg State.mem h.eq :)
theorem PageOnly.trans_eq {s t : State} (h : PageOnly s t) : t.trans = s.trans := (congrArg State.trans h.eq :)
theorem PageOnly.replies_eq {s t : State} (h : PageOnly s t) : t.replies = s.replies := (congrArg State.replies h.eq :)
theorem PageOnly.power_eq {s t : State} (h : PageOnly s t) : t.power = s.power := (congrArg State.power h.eq :)
theorem PageOnly.tongs_eq {s t : State} (h : PageOnly s t) : t.tongs = s.tongs := (congrArg State.tongs h.eq :)
theorem PageOnly.mramLines_eq {s t : State} (h : PageOnly s t) : t.mramLines = s.mramLines := (congrArg State.mramLines h.eq :)
theorem PageOnly.mramGap_eq {s t : State} (h : PageOnly s t) : t.mramGap = s.mramGap := (congrArg State.mramGap h.eq :)
theorem PageOnly.hang_eq {s t : State} (h : PageOnly s t) : t.hang = s.hang := (congrArg State.hang h.eq :)
theorem PageOnly.hangAsk_eq {s t : State} (h : PageOnly s t) : t.hangAsk = s.hangAsk := (congrArg State.hangAsk h.eq :)
theorem PageOnly.fabHangAsk_eq {s t : State} (h : PageOnly s t) : t.fabHangAsk = s.fabHangAsk := (congrArg State.fabHangAsk h.eq :)
theorem PageOnly.copies_eq {s t : State} (h : PageOnly s t) : t.copies = s.copies := (congrArg State.copies h.eq :)
theorem PageOnly.snap_eq {s t : State} (h : PageOnly s t) : t.snap = s.snap := (congrArg State.snap h.eq :)
theorem PageOnly.engines_eq {s t : State} (h : PageOnly s t) : t.engines = s.engines := (congrArg State.engines h.eq :)
theorem PageOnly.stale_eq {s t : State} (h : PageOnly s t) : t.stale = s.stale := (congrArg State.stale h.eq :)
theorem PageOnly.lanes_eq {s t : State} (h : PageOnly s t) : t.lanes = s.lanes := (congrArg State.lanes h.eq :)
theorem PageOnly.stores_eq {s t : State} (h : PageOnly s t) : t.stores = s.stores := (congrArg State.stores h.eq :)
theorem PageOnly.seqs_eq {s t : State} (h : PageOnly s t) : t.seqs = s.seqs := (congrArg State.seqs h.eq :)
theorem PageOnly.fails_eq {s t : State} (h : PageOnly s t) : t.fails = s.fails := (congrArg State.fails h.eq :)
theorem PageOnly.welds_eq {s t : State} (h : PageOnly s t) : t.welds = s.welds := (congrArg State.welds h.eq :)
theorem PageOnly.patina_eq {s t : State} (h : PageOnly s t) : t.patina = s.patina := (congrArg State.patina h.eq :)
theorem PageOnly.wiping_eq {s t : State} (h : PageOnly s t) : t.wiping = s.wiping := (congrArg State.wiping h.eq :)
theorem PageOnly.ports_eq {s t : State} (h : PageOnly s t) : t.ports = s.ports := (congrArg State.ports h.eq :)
theorem PageOnly.fabric_eq {s t : State} (h : PageOnly s t) : t.fabric = s.fabric := (congrArg State.fabric h.eq :)
theorem PageOnly.pcie_eq {s t : State} (h : PageOnly s t) : t.pcie = s.pcie := (congrArg State.pcie h.eq :)
theorem PageOnly.thermal_eq {s t : State} (h : PageOnly s t) : t.thermal = s.thermal := (congrArg State.thermal h.eq :)
theorem PageOnly.bellows_eq {s t : State} (h : PageOnly s t) : t.bellows = s.bellows := (congrArg State.bellows h.eq :)
theorem PageOnly.temper_eq {s t : State} (h : PageOnly s t) : t.temper = s.temper := (congrArg State.temper h.eq :)
theorem PageOnly.primer_eq {s t : State} (h : PageOnly s t) : t.primer = s.primer := (congrArg State.primer h.eq :)
theorem PageOnly.calDue_eq {s t : State} (h : PageOnly s t) : t.calDue = s.calDue := (congrArg State.calDue h.eq :)
theorem PageOnly.journal_eq {s t : State} (h : PageOnly s t) : t.journal = s.journal := (congrArg State.journal h.eq :)
theorem PageOnly.loaded_eq {s t : State} (h : PageOnly s t) : t.loaded = s.loaded := (congrArg State.loaded h.eq :)
theorem PageOnly.taken_eq {s t : State} (h : PageOnly s t) : t.taken = s.taken := (congrArg State.taken h.eq :)
theorem PageOnly.tap_eq {s t : State} (h : PageOnly s t) : t.tap = s.tap := (congrArg State.tap h.eq :)
theorem PageOnly.tapFault_eq {s t : State} (h : PageOnly s t) : t.tapFault = s.tapFault := (congrArg State.tapFault h.eq :)
@[simp] theorem noteIrq_pending (p : Nat) (s : State) : (noteIrq p s).pending = s.pending := (pageOnly_noteIrq p s).pending_eq
@[simp] theorem noteIrq_now (p : Nat) (s : State) : (noteIrq p s).now = s.now := (pageOnly_noteIrq p s).now_eq
@[simp] theorem noteIrq_free (p : Nat) (s : State) : (noteIrq p s).free = s.free := (pageOnly_noteIrq p s).free_eq
@[simp] theorem noteIrq_outbox (p : Nat) (s : State) : (noteIrq p s).outbox = s.outbox := (pageOnly_noteIrq p s).outbox_eq
@[simp] theorem noteIrq_lifecycle (p : Nat) (s : State) : (noteIrq p s).lifecycle = s.lifecycle := (pageOnly_noteIrq p s).lifecycle_eq
@[simp] theorem noteIrq_mem (p : Nat) (s : State) : (noteIrq p s).mem = s.mem := (pageOnly_noteIrq p s).mem_eq
@[simp] theorem noteIrq_trans (p : Nat) (s : State) : (noteIrq p s).trans = s.trans := (pageOnly_noteIrq p s).trans_eq
@[simp] theorem noteIrq_patina (p : Nat) (s : State) : (noteIrq p s).patina = s.patina := (pageOnly_noteIrq p s).patina_eq
@[simp] theorem noteIrq_fabric (p : Nat) (s : State) : (noteIrq p s).fabric = s.fabric := (pageOnly_noteIrq p s).fabric_eq
@[simp] theorem noteIrq_thermal (p : Nat) (s : State) : (noteIrq p s).thermal = s.thermal := (pageOnly_noteIrq p s).thermal_eq
@[simp] theorem noteIrq_bellows (p : Nat) (s : State) : (noteIrq p s).bellows = s.bellows := (pageOnly_noteIrq p s).bellows_eq
@[simp] theorem chan_noteIrq (p : Nat) (j : Nat) (s : State) : chan (noteIrq p s) j = chan s j := by unfold chan; rw [(pageOnly_noteIrq p s).chans_eq]
@[simp] theorem base_noteIrq (p : Nat) (j : Nat) (s : State) : base (noteIrq p s) j = base s j := by unfold base; rw [(pageOnly_noteIrq p s).bases_eq]
@[simp] theorem dom_noteIrq (p : Nat) (j : Nat) (s : State) : dom (noteIrq p s) j = dom s j := by unfold dom; rw [(pageOnly_noteIrq p s).doms_eq]
@[simp] theorem eng_noteIrq (p : Nat) (j : Nat) (s : State) : eng (noteIrq p s) j = eng s j := by unfold eng; rw [(pageOnly_noteIrq p s).engines_eq]
@[simp] theorem lane_noteIrq (p : Nat) (j : Nat) (s : State) : lane (noteIrq p s) j = lane s j := by unfold lane; rw [(pageOnly_noteIrq p s).lanes_eq]
@[simp] theorem store_noteIrq (p : Nat) (j : Nat) (s : State) : store (noteIrq p s) j = store s j := by unfold store; rw [(pageOnly_noteIrq p s).stores_eq]
@[simp] theorem seqAt_noteIrq (p : Nat) (j : Nat) (s : State) : seqAt (noteIrq p s) j = seqAt s j := by unfold seqAt; rw [(pageOnly_noteIrq p s).seqs_eq]
@[simp] theorem failPipe_noteIrq (p : Nat) (j : Nat) (s : State) : failPipe (noteIrq p s) j = failPipe s j := by unfold failPipe; rw [(pageOnly_noteIrq p s).fails_eq]
@[simp] theorem weld_noteIrq (p : Nat) (j : Nat) (s : State) : weld (noteIrq p s) j = weld s j := by unfold weld; rw [(pageOnly_noteIrq p s).welds_eq]
@[simp] theorem memByte_noteIrq (p : Nat) (j : Nat) (s : State) : memByte (noteIrq p s) j = memByte s j := by unfold memByte; rw [(pageOnly_noteIrq p s).mem_eq]
@[simp] theorem anvEntry_noteIrq (p : Nat) (j : Nat) (s : State) : anvEntry (noteIrq p s) j = anvEntry s j := by unfold anvEntry; rw [(pageOnly_noteIrq p s).anvil_eq]
@[simp] theorem port_noteIrq (p : Nat) (j : Nat) (s : State) : port (noteIrq p s) j = port s j := by unfold port; rw [(pageOnly_noteIrq p s).ports_eq]
@[simp] theorem hangSlot_noteIrq (p : Nat) (j : Nat) (s : State) : hangSlot (noteIrq p s) j = hangSlot s j := by unfold hangSlot; rw [(pageOnly_noteIrq p s).hang_eq]
@[simp] theorem tgChan_noteIrq (p : Nat) (j : Nat) (s : State) : tgChan (noteIrq p s) j = tgChan s j := by unfold tgChan; rw [(pageOnly_noteIrq p s).tongs_eq]
@[simp] theorem hangArmed_noteIrq (p : Nat) (j : Nat) (s : State) : hangArmed (noteIrq p s) j = hangArmed s j := by unfold hangArmed; rw [(pageOnly_noteIrq p s).hang_eq]
@[simp] theorem ftNs_noteIrq (p : Nat) (s : State) : ftNs (noteIrq p s) = ftNs s := by unfold ftNs; rw [(pageOnly_noteIrq p s).now_eq]
@[simp] theorem domLost_noteIrq (p : Nat) (j : Nat) (s : State) : domLost (noteIrq p s) j = domLost s j := by unfold domLost; simp only [dom_noteIrq]
@[simp] theorem canvasSet_noteIrq (p : Nat) (q r : Nat) (s : State) : canvasSet (noteIrq p s) q r = canvasSet s q r := by unfold canvasSet; rw [(pageOnly_noteIrq p s).swapped_eq, (pageOnly_noteIrq p s).calSwapped_eq]
@[simp] theorem noteAck_pending (p : Nat) (s : State) : (noteAck p s).pending = s.pending := (pageOnly_noteAck p s).pending_eq
@[simp] theorem noteAck_now (p : Nat) (s : State) : (noteAck p s).now = s.now := (pageOnly_noteAck p s).now_eq
@[simp] theorem noteAck_free (p : Nat) (s : State) : (noteAck p s).free = s.free := (pageOnly_noteAck p s).free_eq
@[simp] theorem noteAck_outbox (p : Nat) (s : State) : (noteAck p s).outbox = s.outbox := (pageOnly_noteAck p s).outbox_eq
@[simp] theorem noteAck_lifecycle (p : Nat) (s : State) : (noteAck p s).lifecycle = s.lifecycle := (pageOnly_noteAck p s).lifecycle_eq
@[simp] theorem noteAck_mem (p : Nat) (s : State) : (noteAck p s).mem = s.mem := (pageOnly_noteAck p s).mem_eq
@[simp] theorem noteAck_trans (p : Nat) (s : State) : (noteAck p s).trans = s.trans := (pageOnly_noteAck p s).trans_eq
@[simp] theorem noteAck_patina (p : Nat) (s : State) : (noteAck p s).patina = s.patina := (pageOnly_noteAck p s).patina_eq
@[simp] theorem noteAck_fabric (p : Nat) (s : State) : (noteAck p s).fabric = s.fabric := (pageOnly_noteAck p s).fabric_eq
@[simp] theorem noteAck_thermal (p : Nat) (s : State) : (noteAck p s).thermal = s.thermal := (pageOnly_noteAck p s).thermal_eq
@[simp] theorem noteAck_bellows (p : Nat) (s : State) : (noteAck p s).bellows = s.bellows := (pageOnly_noteAck p s).bellows_eq
@[simp] theorem chan_noteAck (p : Nat) (j : Nat) (s : State) : chan (noteAck p s) j = chan s j := by unfold chan; rw [(pageOnly_noteAck p s).chans_eq]
@[simp] theorem base_noteAck (p : Nat) (j : Nat) (s : State) : base (noteAck p s) j = base s j := by unfold base; rw [(pageOnly_noteAck p s).bases_eq]
@[simp] theorem dom_noteAck (p : Nat) (j : Nat) (s : State) : dom (noteAck p s) j = dom s j := by unfold dom; rw [(pageOnly_noteAck p s).doms_eq]
@[simp] theorem eng_noteAck (p : Nat) (j : Nat) (s : State) : eng (noteAck p s) j = eng s j := by unfold eng; rw [(pageOnly_noteAck p s).engines_eq]
@[simp] theorem lane_noteAck (p : Nat) (j : Nat) (s : State) : lane (noteAck p s) j = lane s j := by unfold lane; rw [(pageOnly_noteAck p s).lanes_eq]
@[simp] theorem store_noteAck (p : Nat) (j : Nat) (s : State) : store (noteAck p s) j = store s j := by unfold store; rw [(pageOnly_noteAck p s).stores_eq]
@[simp] theorem seqAt_noteAck (p : Nat) (j : Nat) (s : State) : seqAt (noteAck p s) j = seqAt s j := by unfold seqAt; rw [(pageOnly_noteAck p s).seqs_eq]
@[simp] theorem failPipe_noteAck (p : Nat) (j : Nat) (s : State) : failPipe (noteAck p s) j = failPipe s j := by unfold failPipe; rw [(pageOnly_noteAck p s).fails_eq]
@[simp] theorem weld_noteAck (p : Nat) (j : Nat) (s : State) : weld (noteAck p s) j = weld s j := by unfold weld; rw [(pageOnly_noteAck p s).welds_eq]
@[simp] theorem memByte_noteAck (p : Nat) (j : Nat) (s : State) : memByte (noteAck p s) j = memByte s j := by unfold memByte; rw [(pageOnly_noteAck p s).mem_eq]
@[simp] theorem anvEntry_noteAck (p : Nat) (j : Nat) (s : State) : anvEntry (noteAck p s) j = anvEntry s j := by unfold anvEntry; rw [(pageOnly_noteAck p s).anvil_eq]
@[simp] theorem port_noteAck (p : Nat) (j : Nat) (s : State) : port (noteAck p s) j = port s j := by unfold port; rw [(pageOnly_noteAck p s).ports_eq]
@[simp] theorem hangSlot_noteAck (p : Nat) (j : Nat) (s : State) : hangSlot (noteAck p s) j = hangSlot s j := by unfold hangSlot; rw [(pageOnly_noteAck p s).hang_eq]
@[simp] theorem tgChan_noteAck (p : Nat) (j : Nat) (s : State) : tgChan (noteAck p s) j = tgChan s j := by unfold tgChan; rw [(pageOnly_noteAck p s).tongs_eq]
@[simp] theorem hangArmed_noteAck (p : Nat) (j : Nat) (s : State) : hangArmed (noteAck p s) j = hangArmed s j := by unfold hangArmed; rw [(pageOnly_noteAck p s).hang_eq]
@[simp] theorem ftNs_noteAck (p : Nat) (s : State) : ftNs (noteAck p s) = ftNs s := by unfold ftNs; rw [(pageOnly_noteAck p s).now_eq]
@[simp] theorem domLost_noteAck (p : Nat) (j : Nat) (s : State) : domLost (noteAck p s) j = domLost s j := by unfold domLost; simp only [dom_noteAck]
@[simp] theorem canvasSet_noteAck (p : Nat) (q r : Nat) (s : State) : canvasSet (noteAck p s) q r = canvasSet s q r := by unfold canvasSet; rw [(pageOnly_noteAck p s).swapped_eq, (pageOnly_noteAck p s).calSwapped_eq]
@[simp] theorem raise_pending (p : Nat) (b : Word) (s : State) : (raise p b s).pending = s.pending := (pageOnly_raise p b s).pending_eq
@[simp] theorem raise_now (p : Nat) (b : Word) (s : State) : (raise p b s).now = s.now := (pageOnly_raise p b s).now_eq
@[simp] theorem raise_free (p : Nat) (b : Word) (s : State) : (raise p b s).free = s.free := (pageOnly_raise p b s).free_eq
@[simp] theorem raise_outbox (p : Nat) (b : Word) (s : State) : (raise p b s).outbox = s.outbox := (pageOnly_raise p b s).outbox_eq
@[simp] theorem raise_lifecycle (p : Nat) (b : Word) (s : State) : (raise p b s).lifecycle = s.lifecycle := (pageOnly_raise p b s).lifecycle_eq
@[simp] theorem raise_mem (p : Nat) (b : Word) (s : State) : (raise p b s).mem = s.mem := (pageOnly_raise p b s).mem_eq
@[simp] theorem raise_trans (p : Nat) (b : Word) (s : State) : (raise p b s).trans = s.trans := (pageOnly_raise p b s).trans_eq
@[simp] theorem raise_patina (p : Nat) (b : Word) (s : State) : (raise p b s).patina = s.patina := (pageOnly_raise p b s).patina_eq
@[simp] theorem raise_fabric (p : Nat) (b : Word) (s : State) : (raise p b s).fabric = s.fabric := (pageOnly_raise p b s).fabric_eq
@[simp] theorem raise_thermal (p : Nat) (b : Word) (s : State) : (raise p b s).thermal = s.thermal := (pageOnly_raise p b s).thermal_eq
@[simp] theorem raise_bellows (p : Nat) (b : Word) (s : State) : (raise p b s).bellows = s.bellows := (pageOnly_raise p b s).bellows_eq
@[simp] theorem chan_raise (p : Nat) (b : Word) (j : Nat) (s : State) : chan (raise p b s) j = chan s j := by unfold chan; rw [(pageOnly_raise p b s).chans_eq]
@[simp] theorem base_raise (p : Nat) (b : Word) (j : Nat) (s : State) : base (raise p b s) j = base s j := by unfold base; rw [(pageOnly_raise p b s).bases_eq]
@[simp] theorem dom_raise (p : Nat) (b : Word) (j : Nat) (s : State) : dom (raise p b s) j = dom s j := by unfold dom; rw [(pageOnly_raise p b s).doms_eq]
@[simp] theorem eng_raise (p : Nat) (b : Word) (j : Nat) (s : State) : eng (raise p b s) j = eng s j := by unfold eng; rw [(pageOnly_raise p b s).engines_eq]
@[simp] theorem lane_raise (p : Nat) (b : Word) (j : Nat) (s : State) : lane (raise p b s) j = lane s j := by unfold lane; rw [(pageOnly_raise p b s).lanes_eq]
@[simp] theorem store_raise (p : Nat) (b : Word) (j : Nat) (s : State) : store (raise p b s) j = store s j := by unfold store; rw [(pageOnly_raise p b s).stores_eq]
@[simp] theorem seqAt_raise (p : Nat) (b : Word) (j : Nat) (s : State) : seqAt (raise p b s) j = seqAt s j := by unfold seqAt; rw [(pageOnly_raise p b s).seqs_eq]
@[simp] theorem failPipe_raise (p : Nat) (b : Word) (j : Nat) (s : State) : failPipe (raise p b s) j = failPipe s j := by unfold failPipe; rw [(pageOnly_raise p b s).fails_eq]
@[simp] theorem weld_raise (p : Nat) (b : Word) (j : Nat) (s : State) : weld (raise p b s) j = weld s j := by unfold weld; rw [(pageOnly_raise p b s).welds_eq]
@[simp] theorem memByte_raise (p : Nat) (b : Word) (j : Nat) (s : State) : memByte (raise p b s) j = memByte s j := by unfold memByte; rw [(pageOnly_raise p b s).mem_eq]
@[simp] theorem anvEntry_raise (p : Nat) (b : Word) (j : Nat) (s : State) : anvEntry (raise p b s) j = anvEntry s j := by unfold anvEntry; rw [(pageOnly_raise p b s).anvil_eq]
@[simp] theorem port_raise (p : Nat) (b : Word) (j : Nat) (s : State) : port (raise p b s) j = port s j := by unfold port; rw [(pageOnly_raise p b s).ports_eq]
@[simp] theorem hangSlot_raise (p : Nat) (b : Word) (j : Nat) (s : State) : hangSlot (raise p b s) j = hangSlot s j := by unfold hangSlot; rw [(pageOnly_raise p b s).hang_eq]
@[simp] theorem tgChan_raise (p : Nat) (b : Word) (j : Nat) (s : State) : tgChan (raise p b s) j = tgChan s j := by unfold tgChan; rw [(pageOnly_raise p b s).tongs_eq]
@[simp] theorem hangArmed_raise (p : Nat) (b : Word) (j : Nat) (s : State) : hangArmed (raise p b s) j = hangArmed s j := by unfold hangArmed; rw [(pageOnly_raise p b s).hang_eq]
@[simp] theorem ftNs_raise (p : Nat) (b : Word) (s : State) : ftNs (raise p b s) = ftNs s := by unfold ftNs; rw [(pageOnly_raise p b s).now_eq]
@[simp] theorem domLost_raise (p : Nat) (b : Word) (j : Nat) (s : State) : domLost (raise p b s) j = domLost s j := by unfold domLost; simp only [dom_raise]
@[simp] theorem canvasSet_raise (p : Nat) (b : Word) (q r : Nat) (s : State) : canvasSet (raise p b s) q r = canvasSet s q r := by unfold canvasSet; rw [(pageOnly_raise p b s).swapped_eq, (pageOnly_raise p b s).calSwapped_eq]
@[simp] theorem raiseBit_pending (p i : Nat) (s : State) : (raiseBit p i s).pending = s.pending := (pageOnly_raiseBit p i s).pending_eq
@[simp] theorem raiseBit_now (p i : Nat) (s : State) : (raiseBit p i s).now = s.now := (pageOnly_raiseBit p i s).now_eq
@[simp] theorem raiseBit_free (p i : Nat) (s : State) : (raiseBit p i s).free = s.free := (pageOnly_raiseBit p i s).free_eq
@[simp] theorem raiseBit_outbox (p i : Nat) (s : State) : (raiseBit p i s).outbox = s.outbox := (pageOnly_raiseBit p i s).outbox_eq
@[simp] theorem raiseBit_lifecycle (p i : Nat) (s : State) : (raiseBit p i s).lifecycle = s.lifecycle := (pageOnly_raiseBit p i s).lifecycle_eq
@[simp] theorem raiseBit_mem (p i : Nat) (s : State) : (raiseBit p i s).mem = s.mem := (pageOnly_raiseBit p i s).mem_eq
@[simp] theorem raiseBit_trans (p i : Nat) (s : State) : (raiseBit p i s).trans = s.trans := (pageOnly_raiseBit p i s).trans_eq
@[simp] theorem raiseBit_patina (p i : Nat) (s : State) : (raiseBit p i s).patina = s.patina := (pageOnly_raiseBit p i s).patina_eq
@[simp] theorem raiseBit_fabric (p i : Nat) (s : State) : (raiseBit p i s).fabric = s.fabric := (pageOnly_raiseBit p i s).fabric_eq
@[simp] theorem raiseBit_thermal (p i : Nat) (s : State) : (raiseBit p i s).thermal = s.thermal := (pageOnly_raiseBit p i s).thermal_eq
@[simp] theorem raiseBit_bellows (p i : Nat) (s : State) : (raiseBit p i s).bellows = s.bellows := (pageOnly_raiseBit p i s).bellows_eq
@[simp] theorem chan_raiseBit (p i : Nat) (j : Nat) (s : State) : chan (raiseBit p i s) j = chan s j := by unfold chan; rw [(pageOnly_raiseBit p i s).chans_eq]
@[simp] theorem base_raiseBit (p i : Nat) (j : Nat) (s : State) : base (raiseBit p i s) j = base s j := by unfold base; rw [(pageOnly_raiseBit p i s).bases_eq]
@[simp] theorem dom_raiseBit (p i : Nat) (j : Nat) (s : State) : dom (raiseBit p i s) j = dom s j := by unfold dom; rw [(pageOnly_raiseBit p i s).doms_eq]
@[simp] theorem eng_raiseBit (p i : Nat) (j : Nat) (s : State) : eng (raiseBit p i s) j = eng s j := by unfold eng; rw [(pageOnly_raiseBit p i s).engines_eq]
@[simp] theorem lane_raiseBit (p i : Nat) (j : Nat) (s : State) : lane (raiseBit p i s) j = lane s j := by unfold lane; rw [(pageOnly_raiseBit p i s).lanes_eq]
@[simp] theorem store_raiseBit (p i : Nat) (j : Nat) (s : State) : store (raiseBit p i s) j = store s j := by unfold store; rw [(pageOnly_raiseBit p i s).stores_eq]
@[simp] theorem seqAt_raiseBit (p i : Nat) (j : Nat) (s : State) : seqAt (raiseBit p i s) j = seqAt s j := by unfold seqAt; rw [(pageOnly_raiseBit p i s).seqs_eq]
@[simp] theorem failPipe_raiseBit (p i : Nat) (j : Nat) (s : State) : failPipe (raiseBit p i s) j = failPipe s j := by unfold failPipe; rw [(pageOnly_raiseBit p i s).fails_eq]
@[simp] theorem weld_raiseBit (p i : Nat) (j : Nat) (s : State) : weld (raiseBit p i s) j = weld s j := by unfold weld; rw [(pageOnly_raiseBit p i s).welds_eq]
@[simp] theorem memByte_raiseBit (p i : Nat) (j : Nat) (s : State) : memByte (raiseBit p i s) j = memByte s j := by unfold memByte; rw [(pageOnly_raiseBit p i s).mem_eq]
@[simp] theorem anvEntry_raiseBit (p i : Nat) (j : Nat) (s : State) : anvEntry (raiseBit p i s) j = anvEntry s j := by unfold anvEntry; rw [(pageOnly_raiseBit p i s).anvil_eq]
@[simp] theorem port_raiseBit (p i : Nat) (j : Nat) (s : State) : port (raiseBit p i s) j = port s j := by unfold port; rw [(pageOnly_raiseBit p i s).ports_eq]
@[simp] theorem hangSlot_raiseBit (p i : Nat) (j : Nat) (s : State) : hangSlot (raiseBit p i s) j = hangSlot s j := by unfold hangSlot; rw [(pageOnly_raiseBit p i s).hang_eq]
@[simp] theorem tgChan_raiseBit (p i : Nat) (j : Nat) (s : State) : tgChan (raiseBit p i s) j = tgChan s j := by unfold tgChan; rw [(pageOnly_raiseBit p i s).tongs_eq]
@[simp] theorem hangArmed_raiseBit (p i : Nat) (j : Nat) (s : State) : hangArmed (raiseBit p i s) j = hangArmed s j := by unfold hangArmed; rw [(pageOnly_raiseBit p i s).hang_eq]
@[simp] theorem ftNs_raiseBit (p i : Nat) (s : State) : ftNs (raiseBit p i s) = ftNs s := by unfold ftNs; rw [(pageOnly_raiseBit p i s).now_eq]
@[simp] theorem domLost_raiseBit (p i : Nat) (j : Nat) (s : State) : domLost (raiseBit p i s) j = domLost s j := by unfold domLost; simp only [dom_raiseBit]
@[simp] theorem canvasSet_raiseBit (p i : Nat) (q r : Nat) (s : State) : canvasSet (raiseBit p i s) q r = canvasSet s q r := by unfold canvasSet; rw [(pageOnly_raiseBit p i s).swapped_eq, (pageOnly_raiseBit p i s).calSwapped_eq]
@[simp] theorem raiseReject_pending (p : Nat) (s : State) : (raiseReject p s).pending = s.pending := (pageOnly_raiseReject p s).pending_eq
@[simp] theorem raiseReject_now (p : Nat) (s : State) : (raiseReject p s).now = s.now := (pageOnly_raiseReject p s).now_eq
@[simp] theorem raiseReject_free (p : Nat) (s : State) : (raiseReject p s).free = s.free := (pageOnly_raiseReject p s).free_eq
@[simp] theorem raiseReject_outbox (p : Nat) (s : State) : (raiseReject p s).outbox = s.outbox := (pageOnly_raiseReject p s).outbox_eq
@[simp] theorem raiseReject_lifecycle (p : Nat) (s : State) : (raiseReject p s).lifecycle = s.lifecycle := (pageOnly_raiseReject p s).lifecycle_eq
@[simp] theorem raiseReject_mem (p : Nat) (s : State) : (raiseReject p s).mem = s.mem := (pageOnly_raiseReject p s).mem_eq
@[simp] theorem raiseReject_trans (p : Nat) (s : State) : (raiseReject p s).trans = s.trans := (pageOnly_raiseReject p s).trans_eq
@[simp] theorem raiseReject_patina (p : Nat) (s : State) : (raiseReject p s).patina = s.patina := (pageOnly_raiseReject p s).patina_eq
@[simp] theorem raiseReject_fabric (p : Nat) (s : State) : (raiseReject p s).fabric = s.fabric := (pageOnly_raiseReject p s).fabric_eq
@[simp] theorem raiseReject_thermal (p : Nat) (s : State) : (raiseReject p s).thermal = s.thermal := (pageOnly_raiseReject p s).thermal_eq
@[simp] theorem raiseReject_bellows (p : Nat) (s : State) : (raiseReject p s).bellows = s.bellows := (pageOnly_raiseReject p s).bellows_eq
@[simp] theorem chan_raiseReject (p : Nat) (j : Nat) (s : State) : chan (raiseReject p s) j = chan s j := by unfold chan; rw [(pageOnly_raiseReject p s).chans_eq]
@[simp] theorem base_raiseReject (p : Nat) (j : Nat) (s : State) : base (raiseReject p s) j = base s j := by unfold base; rw [(pageOnly_raiseReject p s).bases_eq]
@[simp] theorem dom_raiseReject (p : Nat) (j : Nat) (s : State) : dom (raiseReject p s) j = dom s j := by unfold dom; rw [(pageOnly_raiseReject p s).doms_eq]
@[simp] theorem eng_raiseReject (p : Nat) (j : Nat) (s : State) : eng (raiseReject p s) j = eng s j := by unfold eng; rw [(pageOnly_raiseReject p s).engines_eq]
@[simp] theorem lane_raiseReject (p : Nat) (j : Nat) (s : State) : lane (raiseReject p s) j = lane s j := by unfold lane; rw [(pageOnly_raiseReject p s).lanes_eq]
@[simp] theorem store_raiseReject (p : Nat) (j : Nat) (s : State) : store (raiseReject p s) j = store s j := by unfold store; rw [(pageOnly_raiseReject p s).stores_eq]
@[simp] theorem seqAt_raiseReject (p : Nat) (j : Nat) (s : State) : seqAt (raiseReject p s) j = seqAt s j := by unfold seqAt; rw [(pageOnly_raiseReject p s).seqs_eq]
@[simp] theorem failPipe_raiseReject (p : Nat) (j : Nat) (s : State) : failPipe (raiseReject p s) j = failPipe s j := by unfold failPipe; rw [(pageOnly_raiseReject p s).fails_eq]
@[simp] theorem weld_raiseReject (p : Nat) (j : Nat) (s : State) : weld (raiseReject p s) j = weld s j := by unfold weld; rw [(pageOnly_raiseReject p s).welds_eq]
@[simp] theorem memByte_raiseReject (p : Nat) (j : Nat) (s : State) : memByte (raiseReject p s) j = memByte s j := by unfold memByte; rw [(pageOnly_raiseReject p s).mem_eq]
@[simp] theorem anvEntry_raiseReject (p : Nat) (j : Nat) (s : State) : anvEntry (raiseReject p s) j = anvEntry s j := by unfold anvEntry; rw [(pageOnly_raiseReject p s).anvil_eq]
@[simp] theorem port_raiseReject (p : Nat) (j : Nat) (s : State) : port (raiseReject p s) j = port s j := by unfold port; rw [(pageOnly_raiseReject p s).ports_eq]
@[simp] theorem hangSlot_raiseReject (p : Nat) (j : Nat) (s : State) : hangSlot (raiseReject p s) j = hangSlot s j := by unfold hangSlot; rw [(pageOnly_raiseReject p s).hang_eq]
@[simp] theorem tgChan_raiseReject (p : Nat) (j : Nat) (s : State) : tgChan (raiseReject p s) j = tgChan s j := by unfold tgChan; rw [(pageOnly_raiseReject p s).tongs_eq]
@[simp] theorem hangArmed_raiseReject (p : Nat) (j : Nat) (s : State) : hangArmed (raiseReject p s) j = hangArmed s j := by unfold hangArmed; rw [(pageOnly_raiseReject p s).hang_eq]
@[simp] theorem ftNs_raiseReject (p : Nat) (s : State) : ftNs (raiseReject p s) = ftNs s := by unfold ftNs; rw [(pageOnly_raiseReject p s).now_eq]
@[simp] theorem domLost_raiseReject (p : Nat) (j : Nat) (s : State) : domLost (raiseReject p s) j = domLost s j := by unfold domLost; simp only [dom_raiseReject]
@[simp] theorem canvasSet_raiseReject (p : Nat) (q r : Nat) (s : State) : canvasSet (raiseReject p s) q r = canvasSet s q r := by unfold canvasSet; rw [(pageOnly_raiseReject p s).swapped_eq, (pageOnly_raiseReject p s).calSwapped_eq]
@[simp] theorem captureOnly_pending (p c o d : Nat) (s : State) : (captureOnly p c o d s).pending = s.pending := (pageOnly_captureOnly p c o d s).pending_eq
@[simp] theorem captureOnly_now (p c o d : Nat) (s : State) : (captureOnly p c o d s).now = s.now := (pageOnly_captureOnly p c o d s).now_eq
@[simp] theorem captureOnly_free (p c o d : Nat) (s : State) : (captureOnly p c o d s).free = s.free := (pageOnly_captureOnly p c o d s).free_eq
@[simp] theorem captureOnly_outbox (p c o d : Nat) (s : State) : (captureOnly p c o d s).outbox = s.outbox := (pageOnly_captureOnly p c o d s).outbox_eq
@[simp] theorem captureOnly_lifecycle (p c o d : Nat) (s : State) : (captureOnly p c o d s).lifecycle = s.lifecycle := (pageOnly_captureOnly p c o d s).lifecycle_eq
@[simp] theorem captureOnly_mem (p c o d : Nat) (s : State) : (captureOnly p c o d s).mem = s.mem := (pageOnly_captureOnly p c o d s).mem_eq
@[simp] theorem captureOnly_trans (p c o d : Nat) (s : State) : (captureOnly p c o d s).trans = s.trans := (pageOnly_captureOnly p c o d s).trans_eq
@[simp] theorem captureOnly_patina (p c o d : Nat) (s : State) : (captureOnly p c o d s).patina = s.patina := (pageOnly_captureOnly p c o d s).patina_eq
@[simp] theorem captureOnly_fabric (p c o d : Nat) (s : State) : (captureOnly p c o d s).fabric = s.fabric := (pageOnly_captureOnly p c o d s).fabric_eq
@[simp] theorem captureOnly_thermal (p c o d : Nat) (s : State) : (captureOnly p c o d s).thermal = s.thermal := (pageOnly_captureOnly p c o d s).thermal_eq
@[simp] theorem captureOnly_bellows (p c o d : Nat) (s : State) : (captureOnly p c o d s).bellows = s.bellows := (pageOnly_captureOnly p c o d s).bellows_eq
@[simp] theorem chan_captureOnly (p c o d : Nat) (j : Nat) (s : State) : chan (captureOnly p c o d s) j = chan s j := by unfold chan; rw [(pageOnly_captureOnly p c o d s).chans_eq]
@[simp] theorem base_captureOnly (p c o d : Nat) (j : Nat) (s : State) : base (captureOnly p c o d s) j = base s j := by unfold base; rw [(pageOnly_captureOnly p c o d s).bases_eq]
@[simp] theorem dom_captureOnly (p c o d : Nat) (j : Nat) (s : State) : dom (captureOnly p c o d s) j = dom s j := by unfold dom; rw [(pageOnly_captureOnly p c o d s).doms_eq]
@[simp] theorem eng_captureOnly (p c o d : Nat) (j : Nat) (s : State) : eng (captureOnly p c o d s) j = eng s j := by unfold eng; rw [(pageOnly_captureOnly p c o d s).engines_eq]
@[simp] theorem lane_captureOnly (p c o d : Nat) (j : Nat) (s : State) : lane (captureOnly p c o d s) j = lane s j := by unfold lane; rw [(pageOnly_captureOnly p c o d s).lanes_eq]
@[simp] theorem store_captureOnly (p c o d : Nat) (j : Nat) (s : State) : store (captureOnly p c o d s) j = store s j := by unfold store; rw [(pageOnly_captureOnly p c o d s).stores_eq]
@[simp] theorem seqAt_captureOnly (p c o d : Nat) (j : Nat) (s : State) : seqAt (captureOnly p c o d s) j = seqAt s j := by unfold seqAt; rw [(pageOnly_captureOnly p c o d s).seqs_eq]
@[simp] theorem failPipe_captureOnly (p c o d : Nat) (j : Nat) (s : State) : failPipe (captureOnly p c o d s) j = failPipe s j := by unfold failPipe; rw [(pageOnly_captureOnly p c o d s).fails_eq]
@[simp] theorem weld_captureOnly (p c o d : Nat) (j : Nat) (s : State) : weld (captureOnly p c o d s) j = weld s j := by unfold weld; rw [(pageOnly_captureOnly p c o d s).welds_eq]
@[simp] theorem memByte_captureOnly (p c o d : Nat) (j : Nat) (s : State) : memByte (captureOnly p c o d s) j = memByte s j := by unfold memByte; rw [(pageOnly_captureOnly p c o d s).mem_eq]
@[simp] theorem anvEntry_captureOnly (p c o d : Nat) (j : Nat) (s : State) : anvEntry (captureOnly p c o d s) j = anvEntry s j := by unfold anvEntry; rw [(pageOnly_captureOnly p c o d s).anvil_eq]
@[simp] theorem port_captureOnly (p c o d : Nat) (j : Nat) (s : State) : port (captureOnly p c o d s) j = port s j := by unfold port; rw [(pageOnly_captureOnly p c o d s).ports_eq]
@[simp] theorem hangSlot_captureOnly (p c o d : Nat) (j : Nat) (s : State) : hangSlot (captureOnly p c o d s) j = hangSlot s j := by unfold hangSlot; rw [(pageOnly_captureOnly p c o d s).hang_eq]
@[simp] theorem tgChan_captureOnly (p c o d : Nat) (j : Nat) (s : State) : tgChan (captureOnly p c o d s) j = tgChan s j := by unfold tgChan; rw [(pageOnly_captureOnly p c o d s).tongs_eq]
@[simp] theorem hangArmed_captureOnly (p c o d : Nat) (j : Nat) (s : State) : hangArmed (captureOnly p c o d s) j = hangArmed s j := by unfold hangArmed; rw [(pageOnly_captureOnly p c o d s).hang_eq]
@[simp] theorem ftNs_captureOnly (p c o d : Nat) (s : State) : ftNs (captureOnly p c o d s) = ftNs s := by unfold ftNs; rw [(pageOnly_captureOnly p c o d s).now_eq]
@[simp] theorem domLost_captureOnly (p c o d : Nat) (j : Nat) (s : State) : domLost (captureOnly p c o d s) j = domLost s j := by unfold domLost; simp only [dom_captureOnly]
@[simp] theorem canvasSet_captureOnly (p c o d : Nat) (q r : Nat) (s : State) : canvasSet (captureOnly p c o d s) q r = canvasSet s q r := by unfold canvasSet; rw [(pageOnly_captureOnly p c o d s).swapped_eq, (pageOnly_captureOnly p c o d s).calSwapped_eq]
@[simp] theorem captureAs_pending (p c o d cl sh g k : Nat) (s : State) : (captureAs p c o d cl sh g k s).pending = s.pending := (pageOnly_captureAs p c o d cl sh g k s).pending_eq
@[simp] theorem captureAs_now (p c o d cl sh g k : Nat) (s : State) : (captureAs p c o d cl sh g k s).now = s.now := (pageOnly_captureAs p c o d cl sh g k s).now_eq
@[simp] theorem captureAs_free (p c o d cl sh g k : Nat) (s : State) : (captureAs p c o d cl sh g k s).free = s.free := (pageOnly_captureAs p c o d cl sh g k s).free_eq
@[simp] theorem captureAs_outbox (p c o d cl sh g k : Nat) (s : State) : (captureAs p c o d cl sh g k s).outbox = s.outbox := (pageOnly_captureAs p c o d cl sh g k s).outbox_eq
@[simp] theorem captureAs_lifecycle (p c o d cl sh g k : Nat) (s : State) : (captureAs p c o d cl sh g k s).lifecycle = s.lifecycle := (pageOnly_captureAs p c o d cl sh g k s).lifecycle_eq
@[simp] theorem captureAs_mem (p c o d cl sh g k : Nat) (s : State) : (captureAs p c o d cl sh g k s).mem = s.mem := (pageOnly_captureAs p c o d cl sh g k s).mem_eq
@[simp] theorem captureAs_trans (p c o d cl sh g k : Nat) (s : State) : (captureAs p c o d cl sh g k s).trans = s.trans := (pageOnly_captureAs p c o d cl sh g k s).trans_eq
@[simp] theorem captureAs_patina (p c o d cl sh g k : Nat) (s : State) : (captureAs p c o d cl sh g k s).patina = s.patina := (pageOnly_captureAs p c o d cl sh g k s).patina_eq
@[simp] theorem captureAs_fabric (p c o d cl sh g k : Nat) (s : State) : (captureAs p c o d cl sh g k s).fabric = s.fabric := (pageOnly_captureAs p c o d cl sh g k s).fabric_eq
@[simp] theorem captureAs_thermal (p c o d cl sh g k : Nat) (s : State) : (captureAs p c o d cl sh g k s).thermal = s.thermal := (pageOnly_captureAs p c o d cl sh g k s).thermal_eq
@[simp] theorem captureAs_bellows (p c o d cl sh g k : Nat) (s : State) : (captureAs p c o d cl sh g k s).bellows = s.bellows := (pageOnly_captureAs p c o d cl sh g k s).bellows_eq
@[simp] theorem chan_captureAs (p c o d cl sh g k : Nat) (j : Nat) (s : State) : chan (captureAs p c o d cl sh g k s) j = chan s j := by unfold chan; rw [(pageOnly_captureAs p c o d cl sh g k s).chans_eq]
@[simp] theorem base_captureAs (p c o d cl sh g k : Nat) (j : Nat) (s : State) : base (captureAs p c o d cl sh g k s) j = base s j := by unfold base; rw [(pageOnly_captureAs p c o d cl sh g k s).bases_eq]
@[simp] theorem dom_captureAs (p c o d cl sh g k : Nat) (j : Nat) (s : State) : dom (captureAs p c o d cl sh g k s) j = dom s j := by unfold dom; rw [(pageOnly_captureAs p c o d cl sh g k s).doms_eq]
@[simp] theorem eng_captureAs (p c o d cl sh g k : Nat) (j : Nat) (s : State) : eng (captureAs p c o d cl sh g k s) j = eng s j := by unfold eng; rw [(pageOnly_captureAs p c o d cl sh g k s).engines_eq]
@[simp] theorem lane_captureAs (p c o d cl sh g k : Nat) (j : Nat) (s : State) : lane (captureAs p c o d cl sh g k s) j = lane s j := by unfold lane; rw [(pageOnly_captureAs p c o d cl sh g k s).lanes_eq]
@[simp] theorem store_captureAs (p c o d cl sh g k : Nat) (j : Nat) (s : State) : store (captureAs p c o d cl sh g k s) j = store s j := by unfold store; rw [(pageOnly_captureAs p c o d cl sh g k s).stores_eq]
@[simp] theorem seqAt_captureAs (p c o d cl sh g k : Nat) (j : Nat) (s : State) : seqAt (captureAs p c o d cl sh g k s) j = seqAt s j := by unfold seqAt; rw [(pageOnly_captureAs p c o d cl sh g k s).seqs_eq]
@[simp] theorem failPipe_captureAs (p c o d cl sh g k : Nat) (j : Nat) (s : State) : failPipe (captureAs p c o d cl sh g k s) j = failPipe s j := by unfold failPipe; rw [(pageOnly_captureAs p c o d cl sh g k s).fails_eq]
@[simp] theorem weld_captureAs (p c o d cl sh g k : Nat) (j : Nat) (s : State) : weld (captureAs p c o d cl sh g k s) j = weld s j := by unfold weld; rw [(pageOnly_captureAs p c o d cl sh g k s).welds_eq]
@[simp] theorem memByte_captureAs (p c o d cl sh g k : Nat) (j : Nat) (s : State) : memByte (captureAs p c o d cl sh g k s) j = memByte s j := by unfold memByte; rw [(pageOnly_captureAs p c o d cl sh g k s).mem_eq]
@[simp] theorem anvEntry_captureAs (p c o d cl sh g k : Nat) (j : Nat) (s : State) : anvEntry (captureAs p c o d cl sh g k s) j = anvEntry s j := by unfold anvEntry; rw [(pageOnly_captureAs p c o d cl sh g k s).anvil_eq]
@[simp] theorem port_captureAs (p c o d cl sh g k : Nat) (j : Nat) (s : State) : port (captureAs p c o d cl sh g k s) j = port s j := by unfold port; rw [(pageOnly_captureAs p c o d cl sh g k s).ports_eq]
@[simp] theorem hangSlot_captureAs (p c o d cl sh g k : Nat) (j : Nat) (s : State) : hangSlot (captureAs p c o d cl sh g k s) j = hangSlot s j := by unfold hangSlot; rw [(pageOnly_captureAs p c o d cl sh g k s).hang_eq]
@[simp] theorem tgChan_captureAs (p c o d cl sh g k : Nat) (j : Nat) (s : State) : tgChan (captureAs p c o d cl sh g k s) j = tgChan s j := by unfold tgChan; rw [(pageOnly_captureAs p c o d cl sh g k s).tongs_eq]
@[simp] theorem hangArmed_captureAs (p c o d cl sh g k : Nat) (j : Nat) (s : State) : hangArmed (captureAs p c o d cl sh g k s) j = hangArmed s j := by unfold hangArmed; rw [(pageOnly_captureAs p c o d cl sh g k s).hang_eq]
@[simp] theorem ftNs_captureAs (p c o d cl sh g k : Nat) (s : State) : ftNs (captureAs p c o d cl sh g k s) = ftNs s := by unfold ftNs; rw [(pageOnly_captureAs p c o d cl sh g k s).now_eq]
@[simp] theorem domLost_captureAs (p c o d cl sh g k : Nat) (j : Nat) (s : State) : domLost (captureAs p c o d cl sh g k s) j = domLost s j := by unfold domLost; simp only [dom_captureAs]
@[simp] theorem canvasSet_captureAs (p c o d cl sh g k : Nat) (q r : Nat) (s : State) : canvasSet (captureAs p c o d cl sh g k s) q r = canvasSet s q r := by unfold canvasSet; rw [(pageOnly_captureAs p c o d cl sh g k s).swapped_eq, (pageOnly_captureAs p c o d cl sh g k s).calSwapped_eq]
@[simp] theorem capture_pending (p c o d : Nat) (s : State) : (capture p c o d s).pending = s.pending := (pageOnly_capture p c o d s).pending_eq
@[simp] theorem capture_now (p c o d : Nat) (s : State) : (capture p c o d s).now = s.now := (pageOnly_capture p c o d s).now_eq
@[simp] theorem capture_free (p c o d : Nat) (s : State) : (capture p c o d s).free = s.free := (pageOnly_capture p c o d s).free_eq
@[simp] theorem capture_outbox (p c o d : Nat) (s : State) : (capture p c o d s).outbox = s.outbox := (pageOnly_capture p c o d s).outbox_eq
@[simp] theorem capture_lifecycle (p c o d : Nat) (s : State) : (capture p c o d s).lifecycle = s.lifecycle := (pageOnly_capture p c o d s).lifecycle_eq
@[simp] theorem capture_mem (p c o d : Nat) (s : State) : (capture p c o d s).mem = s.mem := (pageOnly_capture p c o d s).mem_eq
@[simp] theorem capture_trans (p c o d : Nat) (s : State) : (capture p c o d s).trans = s.trans := (pageOnly_capture p c o d s).trans_eq
@[simp] theorem capture_patina (p c o d : Nat) (s : State) : (capture p c o d s).patina = s.patina := (pageOnly_capture p c o d s).patina_eq
@[simp] theorem capture_fabric (p c o d : Nat) (s : State) : (capture p c o d s).fabric = s.fabric := (pageOnly_capture p c o d s).fabric_eq
@[simp] theorem capture_thermal (p c o d : Nat) (s : State) : (capture p c o d s).thermal = s.thermal := (pageOnly_capture p c o d s).thermal_eq
@[simp] theorem capture_bellows (p c o d : Nat) (s : State) : (capture p c o d s).bellows = s.bellows := (pageOnly_capture p c o d s).bellows_eq
@[simp] theorem chan_capture (p c o d : Nat) (j : Nat) (s : State) : chan (capture p c o d s) j = chan s j := by unfold chan; rw [(pageOnly_capture p c o d s).chans_eq]
@[simp] theorem base_capture (p c o d : Nat) (j : Nat) (s : State) : base (capture p c o d s) j = base s j := by unfold base; rw [(pageOnly_capture p c o d s).bases_eq]
@[simp] theorem dom_capture (p c o d : Nat) (j : Nat) (s : State) : dom (capture p c o d s) j = dom s j := by unfold dom; rw [(pageOnly_capture p c o d s).doms_eq]
@[simp] theorem eng_capture (p c o d : Nat) (j : Nat) (s : State) : eng (capture p c o d s) j = eng s j := by unfold eng; rw [(pageOnly_capture p c o d s).engines_eq]
@[simp] theorem lane_capture (p c o d : Nat) (j : Nat) (s : State) : lane (capture p c o d s) j = lane s j := by unfold lane; rw [(pageOnly_capture p c o d s).lanes_eq]
@[simp] theorem store_capture (p c o d : Nat) (j : Nat) (s : State) : store (capture p c o d s) j = store s j := by unfold store; rw [(pageOnly_capture p c o d s).stores_eq]
@[simp] theorem seqAt_capture (p c o d : Nat) (j : Nat) (s : State) : seqAt (capture p c o d s) j = seqAt s j := by unfold seqAt; rw [(pageOnly_capture p c o d s).seqs_eq]
@[simp] theorem failPipe_capture (p c o d : Nat) (j : Nat) (s : State) : failPipe (capture p c o d s) j = failPipe s j := by unfold failPipe; rw [(pageOnly_capture p c o d s).fails_eq]
@[simp] theorem weld_capture (p c o d : Nat) (j : Nat) (s : State) : weld (capture p c o d s) j = weld s j := by unfold weld; rw [(pageOnly_capture p c o d s).welds_eq]
@[simp] theorem memByte_capture (p c o d : Nat) (j : Nat) (s : State) : memByte (capture p c o d s) j = memByte s j := by unfold memByte; rw [(pageOnly_capture p c o d s).mem_eq]
@[simp] theorem anvEntry_capture (p c o d : Nat) (j : Nat) (s : State) : anvEntry (capture p c o d s) j = anvEntry s j := by unfold anvEntry; rw [(pageOnly_capture p c o d s).anvil_eq]
@[simp] theorem port_capture (p c o d : Nat) (j : Nat) (s : State) : port (capture p c o d s) j = port s j := by unfold port; rw [(pageOnly_capture p c o d s).ports_eq]
@[simp] theorem hangSlot_capture (p c o d : Nat) (j : Nat) (s : State) : hangSlot (capture p c o d s) j = hangSlot s j := by unfold hangSlot; rw [(pageOnly_capture p c o d s).hang_eq]
@[simp] theorem tgChan_capture (p c o d : Nat) (j : Nat) (s : State) : tgChan (capture p c o d s) j = tgChan s j := by unfold tgChan; rw [(pageOnly_capture p c o d s).tongs_eq]
@[simp] theorem hangArmed_capture (p c o d : Nat) (j : Nat) (s : State) : hangArmed (capture p c o d s) j = hangArmed s j := by unfold hangArmed; rw [(pageOnly_capture p c o d s).hang_eq]
@[simp] theorem ftNs_capture (p c o d : Nat) (s : State) : ftNs (capture p c o d s) = ftNs s := by unfold ftNs; rw [(pageOnly_capture p c o d s).now_eq]
@[simp] theorem domLost_capture (p c o d : Nat) (j : Nat) (s : State) : domLost (capture p c o d s) j = domLost s j := by unfold domLost; simp only [dom_capture]
@[simp] theorem canvasSet_capture (p c o d : Nat) (q r : Nat) (s : State) : canvasSet (capture p c o d s) q r = canvasSet s q r := by unfold canvasSet; rw [(pageOnly_capture p c o d s).swapped_eq, (pageOnly_capture p c o d s).calSwapped_eq]
@[simp] theorem rejectWrite_pending (p o : Nat) (m : Master) (s : State) : (rejectWrite p o m s).pending = s.pending := (pageOnly_rejectWrite p o m s).pending_eq
@[simp] theorem rejectWrite_now (p o : Nat) (m : Master) (s : State) : (rejectWrite p o m s).now = s.now := (pageOnly_rejectWrite p o m s).now_eq
@[simp] theorem rejectWrite_free (p o : Nat) (m : Master) (s : State) : (rejectWrite p o m s).free = s.free := (pageOnly_rejectWrite p o m s).free_eq
@[simp] theorem rejectWrite_outbox (p o : Nat) (m : Master) (s : State) : (rejectWrite p o m s).outbox = s.outbox := (pageOnly_rejectWrite p o m s).outbox_eq
@[simp] theorem rejectWrite_lifecycle (p o : Nat) (m : Master) (s : State) : (rejectWrite p o m s).lifecycle = s.lifecycle := (pageOnly_rejectWrite p o m s).lifecycle_eq
@[simp] theorem rejectWrite_mem (p o : Nat) (m : Master) (s : State) : (rejectWrite p o m s).mem = s.mem := (pageOnly_rejectWrite p o m s).mem_eq
@[simp] theorem rejectWrite_trans (p o : Nat) (m : Master) (s : State) : (rejectWrite p o m s).trans = s.trans := (pageOnly_rejectWrite p o m s).trans_eq
@[simp] theorem rejectWrite_patina (p o : Nat) (m : Master) (s : State) : (rejectWrite p o m s).patina = s.patina := (pageOnly_rejectWrite p o m s).patina_eq
@[simp] theorem rejectWrite_fabric (p o : Nat) (m : Master) (s : State) : (rejectWrite p o m s).fabric = s.fabric := (pageOnly_rejectWrite p o m s).fabric_eq
@[simp] theorem rejectWrite_thermal (p o : Nat) (m : Master) (s : State) : (rejectWrite p o m s).thermal = s.thermal := (pageOnly_rejectWrite p o m s).thermal_eq
@[simp] theorem rejectWrite_bellows (p o : Nat) (m : Master) (s : State) : (rejectWrite p o m s).bellows = s.bellows := (pageOnly_rejectWrite p o m s).bellows_eq
@[simp] theorem chan_rejectWrite (p o : Nat) (m : Master) (j : Nat) (s : State) : chan (rejectWrite p o m s) j = chan s j := by unfold chan; rw [(pageOnly_rejectWrite p o m s).chans_eq]
@[simp] theorem base_rejectWrite (p o : Nat) (m : Master) (j : Nat) (s : State) : base (rejectWrite p o m s) j = base s j := by unfold base; rw [(pageOnly_rejectWrite p o m s).bases_eq]
@[simp] theorem dom_rejectWrite (p o : Nat) (m : Master) (j : Nat) (s : State) : dom (rejectWrite p o m s) j = dom s j := by unfold dom; rw [(pageOnly_rejectWrite p o m s).doms_eq]
@[simp] theorem eng_rejectWrite (p o : Nat) (m : Master) (j : Nat) (s : State) : eng (rejectWrite p o m s) j = eng s j := by unfold eng; rw [(pageOnly_rejectWrite p o m s).engines_eq]
@[simp] theorem lane_rejectWrite (p o : Nat) (m : Master) (j : Nat) (s : State) : lane (rejectWrite p o m s) j = lane s j := by unfold lane; rw [(pageOnly_rejectWrite p o m s).lanes_eq]
@[simp] theorem store_rejectWrite (p o : Nat) (m : Master) (j : Nat) (s : State) : store (rejectWrite p o m s) j = store s j := by unfold store; rw [(pageOnly_rejectWrite p o m s).stores_eq]
@[simp] theorem seqAt_rejectWrite (p o : Nat) (m : Master) (j : Nat) (s : State) : seqAt (rejectWrite p o m s) j = seqAt s j := by unfold seqAt; rw [(pageOnly_rejectWrite p o m s).seqs_eq]
@[simp] theorem failPipe_rejectWrite (p o : Nat) (m : Master) (j : Nat) (s : State) : failPipe (rejectWrite p o m s) j = failPipe s j := by unfold failPipe; rw [(pageOnly_rejectWrite p o m s).fails_eq]
@[simp] theorem weld_rejectWrite (p o : Nat) (m : Master) (j : Nat) (s : State) : weld (rejectWrite p o m s) j = weld s j := by unfold weld; rw [(pageOnly_rejectWrite p o m s).welds_eq]
@[simp] theorem memByte_rejectWrite (p o : Nat) (m : Master) (j : Nat) (s : State) : memByte (rejectWrite p o m s) j = memByte s j := by unfold memByte; rw [(pageOnly_rejectWrite p o m s).mem_eq]
@[simp] theorem anvEntry_rejectWrite (p o : Nat) (m : Master) (j : Nat) (s : State) : anvEntry (rejectWrite p o m s) j = anvEntry s j := by unfold anvEntry; rw [(pageOnly_rejectWrite p o m s).anvil_eq]
@[simp] theorem port_rejectWrite (p o : Nat) (m : Master) (j : Nat) (s : State) : port (rejectWrite p o m s) j = port s j := by unfold port; rw [(pageOnly_rejectWrite p o m s).ports_eq]
@[simp] theorem hangSlot_rejectWrite (p o : Nat) (m : Master) (j : Nat) (s : State) : hangSlot (rejectWrite p o m s) j = hangSlot s j := by unfold hangSlot; rw [(pageOnly_rejectWrite p o m s).hang_eq]
@[simp] theorem tgChan_rejectWrite (p o : Nat) (m : Master) (j : Nat) (s : State) : tgChan (rejectWrite p o m s) j = tgChan s j := by unfold tgChan; rw [(pageOnly_rejectWrite p o m s).tongs_eq]
@[simp] theorem hangArmed_rejectWrite (p o : Nat) (m : Master) (j : Nat) (s : State) : hangArmed (rejectWrite p o m s) j = hangArmed s j := by unfold hangArmed; rw [(pageOnly_rejectWrite p o m s).hang_eq]
@[simp] theorem ftNs_rejectWrite (p o : Nat) (m : Master) (s : State) : ftNs (rejectWrite p o m s) = ftNs s := by unfold ftNs; rw [(pageOnly_rejectWrite p o m s).now_eq]
@[simp] theorem domLost_rejectWrite (p o : Nat) (m : Master) (j : Nat) (s : State) : domLost (rejectWrite p o m s) j = domLost s j := by unfold domLost; simp only [dom_rejectWrite]
@[simp] theorem canvasSet_rejectWrite (p o : Nat) (m : Master) (q r : Nat) (s : State) : canvasSet (rejectWrite p o m s) q r = canvasSet s q r := by unfold canvasSet; rw [(pageOnly_rejectWrite p o m s).swapped_eq, (pageOnly_rejectWrite p o m s).calSwapped_eq]
@[simp] theorem invalidWrite_pending (p o : Nat) (m : Master) (s : State) : (invalidWrite p o m s).pending = s.pending := (pageOnly_invalidWrite p o m s).pending_eq
@[simp] theorem invalidWrite_now (p o : Nat) (m : Master) (s : State) : (invalidWrite p o m s).now = s.now := (pageOnly_invalidWrite p o m s).now_eq
@[simp] theorem invalidWrite_free (p o : Nat) (m : Master) (s : State) : (invalidWrite p o m s).free = s.free := (pageOnly_invalidWrite p o m s).free_eq
@[simp] theorem invalidWrite_outbox (p o : Nat) (m : Master) (s : State) : (invalidWrite p o m s).outbox = s.outbox := (pageOnly_invalidWrite p o m s).outbox_eq
@[simp] theorem invalidWrite_lifecycle (p o : Nat) (m : Master) (s : State) : (invalidWrite p o m s).lifecycle = s.lifecycle := (pageOnly_invalidWrite p o m s).lifecycle_eq
@[simp] theorem invalidWrite_mem (p o : Nat) (m : Master) (s : State) : (invalidWrite p o m s).mem = s.mem := (pageOnly_invalidWrite p o m s).mem_eq
@[simp] theorem invalidWrite_trans (p o : Nat) (m : Master) (s : State) : (invalidWrite p o m s).trans = s.trans := (pageOnly_invalidWrite p o m s).trans_eq
@[simp] theorem invalidWrite_patina (p o : Nat) (m : Master) (s : State) : (invalidWrite p o m s).patina = s.patina := (pageOnly_invalidWrite p o m s).patina_eq
@[simp] theorem invalidWrite_fabric (p o : Nat) (m : Master) (s : State) : (invalidWrite p o m s).fabric = s.fabric := (pageOnly_invalidWrite p o m s).fabric_eq
@[simp] theorem invalidWrite_thermal (p o : Nat) (m : Master) (s : State) : (invalidWrite p o m s).thermal = s.thermal := (pageOnly_invalidWrite p o m s).thermal_eq
@[simp] theorem invalidWrite_bellows (p o : Nat) (m : Master) (s : State) : (invalidWrite p o m s).bellows = s.bellows := (pageOnly_invalidWrite p o m s).bellows_eq
@[simp] theorem chan_invalidWrite (p o : Nat) (m : Master) (j : Nat) (s : State) : chan (invalidWrite p o m s) j = chan s j := by unfold chan; rw [(pageOnly_invalidWrite p o m s).chans_eq]
@[simp] theorem base_invalidWrite (p o : Nat) (m : Master) (j : Nat) (s : State) : base (invalidWrite p o m s) j = base s j := by unfold base; rw [(pageOnly_invalidWrite p o m s).bases_eq]
@[simp] theorem dom_invalidWrite (p o : Nat) (m : Master) (j : Nat) (s : State) : dom (invalidWrite p o m s) j = dom s j := by unfold dom; rw [(pageOnly_invalidWrite p o m s).doms_eq]
@[simp] theorem eng_invalidWrite (p o : Nat) (m : Master) (j : Nat) (s : State) : eng (invalidWrite p o m s) j = eng s j := by unfold eng; rw [(pageOnly_invalidWrite p o m s).engines_eq]
@[simp] theorem lane_invalidWrite (p o : Nat) (m : Master) (j : Nat) (s : State) : lane (invalidWrite p o m s) j = lane s j := by unfold lane; rw [(pageOnly_invalidWrite p o m s).lanes_eq]
@[simp] theorem store_invalidWrite (p o : Nat) (m : Master) (j : Nat) (s : State) : store (invalidWrite p o m s) j = store s j := by unfold store; rw [(pageOnly_invalidWrite p o m s).stores_eq]
@[simp] theorem seqAt_invalidWrite (p o : Nat) (m : Master) (j : Nat) (s : State) : seqAt (invalidWrite p o m s) j = seqAt s j := by unfold seqAt; rw [(pageOnly_invalidWrite p o m s).seqs_eq]
@[simp] theorem failPipe_invalidWrite (p o : Nat) (m : Master) (j : Nat) (s : State) : failPipe (invalidWrite p o m s) j = failPipe s j := by unfold failPipe; rw [(pageOnly_invalidWrite p o m s).fails_eq]
@[simp] theorem weld_invalidWrite (p o : Nat) (m : Master) (j : Nat) (s : State) : weld (invalidWrite p o m s) j = weld s j := by unfold weld; rw [(pageOnly_invalidWrite p o m s).welds_eq]
@[simp] theorem memByte_invalidWrite (p o : Nat) (m : Master) (j : Nat) (s : State) : memByte (invalidWrite p o m s) j = memByte s j := by unfold memByte; rw [(pageOnly_invalidWrite p o m s).mem_eq]
@[simp] theorem anvEntry_invalidWrite (p o : Nat) (m : Master) (j : Nat) (s : State) : anvEntry (invalidWrite p o m s) j = anvEntry s j := by unfold anvEntry; rw [(pageOnly_invalidWrite p o m s).anvil_eq]
@[simp] theorem port_invalidWrite (p o : Nat) (m : Master) (j : Nat) (s : State) : port (invalidWrite p o m s) j = port s j := by unfold port; rw [(pageOnly_invalidWrite p o m s).ports_eq]
@[simp] theorem hangSlot_invalidWrite (p o : Nat) (m : Master) (j : Nat) (s : State) : hangSlot (invalidWrite p o m s) j = hangSlot s j := by unfold hangSlot; rw [(pageOnly_invalidWrite p o m s).hang_eq]
@[simp] theorem tgChan_invalidWrite (p o : Nat) (m : Master) (j : Nat) (s : State) : tgChan (invalidWrite p o m s) j = tgChan s j := by unfold tgChan; rw [(pageOnly_invalidWrite p o m s).tongs_eq]
@[simp] theorem hangArmed_invalidWrite (p o : Nat) (m : Master) (j : Nat) (s : State) : hangArmed (invalidWrite p o m s) j = hangArmed s j := by unfold hangArmed; rw [(pageOnly_invalidWrite p o m s).hang_eq]
@[simp] theorem ftNs_invalidWrite (p o : Nat) (m : Master) (s : State) : ftNs (invalidWrite p o m s) = ftNs s := by unfold ftNs; rw [(pageOnly_invalidWrite p o m s).now_eq]
@[simp] theorem domLost_invalidWrite (p o : Nat) (m : Master) (j : Nat) (s : State) : domLost (invalidWrite p o m s) j = domLost s j := by unfold domLost; simp only [dom_invalidWrite]
@[simp] theorem canvasSet_invalidWrite (p o : Nat) (m : Master) (q r : Nat) (s : State) : canvasSet (invalidWrite p o m s) q r = canvasSet s q r := by unfold canvasSet; rw [(pageOnly_invalidWrite p o m s).swapped_eq, (pageOnly_invalidWrite p o m s).calSwapped_eq]
@[simp] theorem refuseCmd_pending (p o : Nat) (m : Master) (s : State) : (refuseCmd p o m s).pending = s.pending := (pageOnly_refuseCmd p o m s).pending_eq
@[simp] theorem refuseCmd_now (p o : Nat) (m : Master) (s : State) : (refuseCmd p o m s).now = s.now := (pageOnly_refuseCmd p o m s).now_eq
@[simp] theorem refuseCmd_free (p o : Nat) (m : Master) (s : State) : (refuseCmd p o m s).free = s.free := (pageOnly_refuseCmd p o m s).free_eq
@[simp] theorem refuseCmd_outbox (p o : Nat) (m : Master) (s : State) : (refuseCmd p o m s).outbox = s.outbox := (pageOnly_refuseCmd p o m s).outbox_eq
@[simp] theorem refuseCmd_lifecycle (p o : Nat) (m : Master) (s : State) : (refuseCmd p o m s).lifecycle = s.lifecycle := (pageOnly_refuseCmd p o m s).lifecycle_eq
@[simp] theorem refuseCmd_mem (p o : Nat) (m : Master) (s : State) : (refuseCmd p o m s).mem = s.mem := (pageOnly_refuseCmd p o m s).mem_eq
@[simp] theorem refuseCmd_trans (p o : Nat) (m : Master) (s : State) : (refuseCmd p o m s).trans = s.trans := (pageOnly_refuseCmd p o m s).trans_eq
@[simp] theorem refuseCmd_patina (p o : Nat) (m : Master) (s : State) : (refuseCmd p o m s).patina = s.patina := (pageOnly_refuseCmd p o m s).patina_eq
@[simp] theorem refuseCmd_fabric (p o : Nat) (m : Master) (s : State) : (refuseCmd p o m s).fabric = s.fabric := (pageOnly_refuseCmd p o m s).fabric_eq
@[simp] theorem refuseCmd_thermal (p o : Nat) (m : Master) (s : State) : (refuseCmd p o m s).thermal = s.thermal := (pageOnly_refuseCmd p o m s).thermal_eq
@[simp] theorem refuseCmd_bellows (p o : Nat) (m : Master) (s : State) : (refuseCmd p o m s).bellows = s.bellows := (pageOnly_refuseCmd p o m s).bellows_eq
@[simp] theorem chan_refuseCmd (p o : Nat) (m : Master) (j : Nat) (s : State) : chan (refuseCmd p o m s) j = chan s j := by unfold chan; rw [(pageOnly_refuseCmd p o m s).chans_eq]
@[simp] theorem base_refuseCmd (p o : Nat) (m : Master) (j : Nat) (s : State) : base (refuseCmd p o m s) j = base s j := by unfold base; rw [(pageOnly_refuseCmd p o m s).bases_eq]
@[simp] theorem dom_refuseCmd (p o : Nat) (m : Master) (j : Nat) (s : State) : dom (refuseCmd p o m s) j = dom s j := by unfold dom; rw [(pageOnly_refuseCmd p o m s).doms_eq]
@[simp] theorem eng_refuseCmd (p o : Nat) (m : Master) (j : Nat) (s : State) : eng (refuseCmd p o m s) j = eng s j := by unfold eng; rw [(pageOnly_refuseCmd p o m s).engines_eq]
@[simp] theorem lane_refuseCmd (p o : Nat) (m : Master) (j : Nat) (s : State) : lane (refuseCmd p o m s) j = lane s j := by unfold lane; rw [(pageOnly_refuseCmd p o m s).lanes_eq]
@[simp] theorem store_refuseCmd (p o : Nat) (m : Master) (j : Nat) (s : State) : store (refuseCmd p o m s) j = store s j := by unfold store; rw [(pageOnly_refuseCmd p o m s).stores_eq]
@[simp] theorem seqAt_refuseCmd (p o : Nat) (m : Master) (j : Nat) (s : State) : seqAt (refuseCmd p o m s) j = seqAt s j := by unfold seqAt; rw [(pageOnly_refuseCmd p o m s).seqs_eq]
@[simp] theorem failPipe_refuseCmd (p o : Nat) (m : Master) (j : Nat) (s : State) : failPipe (refuseCmd p o m s) j = failPipe s j := by unfold failPipe; rw [(pageOnly_refuseCmd p o m s).fails_eq]
@[simp] theorem weld_refuseCmd (p o : Nat) (m : Master) (j : Nat) (s : State) : weld (refuseCmd p o m s) j = weld s j := by unfold weld; rw [(pageOnly_refuseCmd p o m s).welds_eq]
@[simp] theorem memByte_refuseCmd (p o : Nat) (m : Master) (j : Nat) (s : State) : memByte (refuseCmd p o m s) j = memByte s j := by unfold memByte; rw [(pageOnly_refuseCmd p o m s).mem_eq]
@[simp] theorem anvEntry_refuseCmd (p o : Nat) (m : Master) (j : Nat) (s : State) : anvEntry (refuseCmd p o m s) j = anvEntry s j := by unfold anvEntry; rw [(pageOnly_refuseCmd p o m s).anvil_eq]
@[simp] theorem port_refuseCmd (p o : Nat) (m : Master) (j : Nat) (s : State) : port (refuseCmd p o m s) j = port s j := by unfold port; rw [(pageOnly_refuseCmd p o m s).ports_eq]
@[simp] theorem hangSlot_refuseCmd (p o : Nat) (m : Master) (j : Nat) (s : State) : hangSlot (refuseCmd p o m s) j = hangSlot s j := by unfold hangSlot; rw [(pageOnly_refuseCmd p o m s).hang_eq]
@[simp] theorem tgChan_refuseCmd (p o : Nat) (m : Master) (j : Nat) (s : State) : tgChan (refuseCmd p o m s) j = tgChan s j := by unfold tgChan; rw [(pageOnly_refuseCmd p o m s).tongs_eq]
@[simp] theorem hangArmed_refuseCmd (p o : Nat) (m : Master) (j : Nat) (s : State) : hangArmed (refuseCmd p o m s) j = hangArmed s j := by unfold hangArmed; rw [(pageOnly_refuseCmd p o m s).hang_eq]
@[simp] theorem ftNs_refuseCmd (p o : Nat) (m : Master) (s : State) : ftNs (refuseCmd p o m s) = ftNs s := by unfold ftNs; rw [(pageOnly_refuseCmd p o m s).now_eq]
@[simp] theorem domLost_refuseCmd (p o : Nat) (m : Master) (j : Nat) (s : State) : domLost (refuseCmd p o m s) j = domLost s j := by unfold domLost; simp only [dom_refuseCmd]
@[simp] theorem canvasSet_refuseCmd (p o : Nat) (m : Master) (q r : Nat) (s : State) : canvasSet (refuseCmd p o m s) q r = canvasSet s q r := by unfold canvasSet; rw [(pageOnly_refuseCmd p o m s).swapped_eq, (pageOnly_refuseCmd p o m s).calSwapped_eq]
@[simp] theorem wmSample_pending (p n v : Nat) (s : State) : (wmSample p n v s).pending = s.pending := (pageOnly_wmSample p n v s).pending_eq
@[simp] theorem wmSample_now (p n v : Nat) (s : State) : (wmSample p n v s).now = s.now := (pageOnly_wmSample p n v s).now_eq
@[simp] theorem wmSample_free (p n v : Nat) (s : State) : (wmSample p n v s).free = s.free := (pageOnly_wmSample p n v s).free_eq
@[simp] theorem wmSample_outbox (p n v : Nat) (s : State) : (wmSample p n v s).outbox = s.outbox := (pageOnly_wmSample p n v s).outbox_eq
@[simp] theorem wmSample_lifecycle (p n v : Nat) (s : State) : (wmSample p n v s).lifecycle = s.lifecycle := (pageOnly_wmSample p n v s).lifecycle_eq
@[simp] theorem wmSample_mem (p n v : Nat) (s : State) : (wmSample p n v s).mem = s.mem := (pageOnly_wmSample p n v s).mem_eq
@[simp] theorem wmSample_trans (p n v : Nat) (s : State) : (wmSample p n v s).trans = s.trans := (pageOnly_wmSample p n v s).trans_eq
@[simp] theorem wmSample_patina (p n v : Nat) (s : State) : (wmSample p n v s).patina = s.patina := (pageOnly_wmSample p n v s).patina_eq
@[simp] theorem wmSample_fabric (p n v : Nat) (s : State) : (wmSample p n v s).fabric = s.fabric := (pageOnly_wmSample p n v s).fabric_eq
@[simp] theorem wmSample_thermal (p n v : Nat) (s : State) : (wmSample p n v s).thermal = s.thermal := (pageOnly_wmSample p n v s).thermal_eq
@[simp] theorem wmSample_bellows (p n v : Nat) (s : State) : (wmSample p n v s).bellows = s.bellows := (pageOnly_wmSample p n v s).bellows_eq
@[simp] theorem chan_wmSample (p n v : Nat) (j : Nat) (s : State) : chan (wmSample p n v s) j = chan s j := by unfold chan; rw [(pageOnly_wmSample p n v s).chans_eq]
@[simp] theorem base_wmSample (p n v : Nat) (j : Nat) (s : State) : base (wmSample p n v s) j = base s j := by unfold base; rw [(pageOnly_wmSample p n v s).bases_eq]
@[simp] theorem dom_wmSample (p n v : Nat) (j : Nat) (s : State) : dom (wmSample p n v s) j = dom s j := by unfold dom; rw [(pageOnly_wmSample p n v s).doms_eq]
@[simp] theorem eng_wmSample (p n v : Nat) (j : Nat) (s : State) : eng (wmSample p n v s) j = eng s j := by unfold eng; rw [(pageOnly_wmSample p n v s).engines_eq]
@[simp] theorem lane_wmSample (p n v : Nat) (j : Nat) (s : State) : lane (wmSample p n v s) j = lane s j := by unfold lane; rw [(pageOnly_wmSample p n v s).lanes_eq]
@[simp] theorem store_wmSample (p n v : Nat) (j : Nat) (s : State) : store (wmSample p n v s) j = store s j := by unfold store; rw [(pageOnly_wmSample p n v s).stores_eq]
@[simp] theorem seqAt_wmSample (p n v : Nat) (j : Nat) (s : State) : seqAt (wmSample p n v s) j = seqAt s j := by unfold seqAt; rw [(pageOnly_wmSample p n v s).seqs_eq]
@[simp] theorem failPipe_wmSample (p n v : Nat) (j : Nat) (s : State) : failPipe (wmSample p n v s) j = failPipe s j := by unfold failPipe; rw [(pageOnly_wmSample p n v s).fails_eq]
@[simp] theorem weld_wmSample (p n v : Nat) (j : Nat) (s : State) : weld (wmSample p n v s) j = weld s j := by unfold weld; rw [(pageOnly_wmSample p n v s).welds_eq]
@[simp] theorem memByte_wmSample (p n v : Nat) (j : Nat) (s : State) : memByte (wmSample p n v s) j = memByte s j := by unfold memByte; rw [(pageOnly_wmSample p n v s).mem_eq]
@[simp] theorem anvEntry_wmSample (p n v : Nat) (j : Nat) (s : State) : anvEntry (wmSample p n v s) j = anvEntry s j := by unfold anvEntry; rw [(pageOnly_wmSample p n v s).anvil_eq]
@[simp] theorem port_wmSample (p n v : Nat) (j : Nat) (s : State) : port (wmSample p n v s) j = port s j := by unfold port; rw [(pageOnly_wmSample p n v s).ports_eq]
@[simp] theorem hangSlot_wmSample (p n v : Nat) (j : Nat) (s : State) : hangSlot (wmSample p n v s) j = hangSlot s j := by unfold hangSlot; rw [(pageOnly_wmSample p n v s).hang_eq]
@[simp] theorem tgChan_wmSample (p n v : Nat) (j : Nat) (s : State) : tgChan (wmSample p n v s) j = tgChan s j := by unfold tgChan; rw [(pageOnly_wmSample p n v s).tongs_eq]
@[simp] theorem hangArmed_wmSample (p n v : Nat) (j : Nat) (s : State) : hangArmed (wmSample p n v s) j = hangArmed s j := by unfold hangArmed; rw [(pageOnly_wmSample p n v s).hang_eq]
@[simp] theorem ftNs_wmSample (p n v : Nat) (s : State) : ftNs (wmSample p n v s) = ftNs s := by unfold ftNs; rw [(pageOnly_wmSample p n v s).now_eq]
@[simp] theorem domLost_wmSample (p n v : Nat) (j : Nat) (s : State) : domLost (wmSample p n v s) j = domLost s j := by unfold domLost; simp only [dom_wmSample]
@[simp] theorem canvasSet_wmSample (p n v : Nat) (q r : Nat) (s : State) : canvasSet (wmSample p n v s) q r = canvasSet s q r := by unfold canvasSet; rw [(pageOnly_wmSample p n v s).swapped_eq, (pageOnly_wmSample p n v s).calSwapped_eq]
@[simp] theorem wmClear_pending (p n : Nat) (s : State) : (wmClear p n s).pending = s.pending := (pageOnly_wmClear p n s).pending_eq
@[simp] theorem wmClear_now (p n : Nat) (s : State) : (wmClear p n s).now = s.now := (pageOnly_wmClear p n s).now_eq
@[simp] theorem wmClear_free (p n : Nat) (s : State) : (wmClear p n s).free = s.free := (pageOnly_wmClear p n s).free_eq
@[simp] theorem wmClear_outbox (p n : Nat) (s : State) : (wmClear p n s).outbox = s.outbox := (pageOnly_wmClear p n s).outbox_eq
@[simp] theorem wmClear_lifecycle (p n : Nat) (s : State) : (wmClear p n s).lifecycle = s.lifecycle := (pageOnly_wmClear p n s).lifecycle_eq
@[simp] theorem wmClear_mem (p n : Nat) (s : State) : (wmClear p n s).mem = s.mem := (pageOnly_wmClear p n s).mem_eq
@[simp] theorem wmClear_trans (p n : Nat) (s : State) : (wmClear p n s).trans = s.trans := (pageOnly_wmClear p n s).trans_eq
@[simp] theorem wmClear_patina (p n : Nat) (s : State) : (wmClear p n s).patina = s.patina := (pageOnly_wmClear p n s).patina_eq
@[simp] theorem wmClear_fabric (p n : Nat) (s : State) : (wmClear p n s).fabric = s.fabric := (pageOnly_wmClear p n s).fabric_eq
@[simp] theorem wmClear_thermal (p n : Nat) (s : State) : (wmClear p n s).thermal = s.thermal := (pageOnly_wmClear p n s).thermal_eq
@[simp] theorem wmClear_bellows (p n : Nat) (s : State) : (wmClear p n s).bellows = s.bellows := (pageOnly_wmClear p n s).bellows_eq
@[simp] theorem chan_wmClear (p n : Nat) (j : Nat) (s : State) : chan (wmClear p n s) j = chan s j := by unfold chan; rw [(pageOnly_wmClear p n s).chans_eq]
@[simp] theorem base_wmClear (p n : Nat) (j : Nat) (s : State) : base (wmClear p n s) j = base s j := by unfold base; rw [(pageOnly_wmClear p n s).bases_eq]
@[simp] theorem dom_wmClear (p n : Nat) (j : Nat) (s : State) : dom (wmClear p n s) j = dom s j := by unfold dom; rw [(pageOnly_wmClear p n s).doms_eq]
@[simp] theorem eng_wmClear (p n : Nat) (j : Nat) (s : State) : eng (wmClear p n s) j = eng s j := by unfold eng; rw [(pageOnly_wmClear p n s).engines_eq]
@[simp] theorem lane_wmClear (p n : Nat) (j : Nat) (s : State) : lane (wmClear p n s) j = lane s j := by unfold lane; rw [(pageOnly_wmClear p n s).lanes_eq]
@[simp] theorem store_wmClear (p n : Nat) (j : Nat) (s : State) : store (wmClear p n s) j = store s j := by unfold store; rw [(pageOnly_wmClear p n s).stores_eq]
@[simp] theorem seqAt_wmClear (p n : Nat) (j : Nat) (s : State) : seqAt (wmClear p n s) j = seqAt s j := by unfold seqAt; rw [(pageOnly_wmClear p n s).seqs_eq]
@[simp] theorem failPipe_wmClear (p n : Nat) (j : Nat) (s : State) : failPipe (wmClear p n s) j = failPipe s j := by unfold failPipe; rw [(pageOnly_wmClear p n s).fails_eq]
@[simp] theorem weld_wmClear (p n : Nat) (j : Nat) (s : State) : weld (wmClear p n s) j = weld s j := by unfold weld; rw [(pageOnly_wmClear p n s).welds_eq]
@[simp] theorem memByte_wmClear (p n : Nat) (j : Nat) (s : State) : memByte (wmClear p n s) j = memByte s j := by unfold memByte; rw [(pageOnly_wmClear p n s).mem_eq]
@[simp] theorem anvEntry_wmClear (p n : Nat) (j : Nat) (s : State) : anvEntry (wmClear p n s) j = anvEntry s j := by unfold anvEntry; rw [(pageOnly_wmClear p n s).anvil_eq]
@[simp] theorem port_wmClear (p n : Nat) (j : Nat) (s : State) : port (wmClear p n s) j = port s j := by unfold port; rw [(pageOnly_wmClear p n s).ports_eq]
@[simp] theorem hangSlot_wmClear (p n : Nat) (j : Nat) (s : State) : hangSlot (wmClear p n s) j = hangSlot s j := by unfold hangSlot; rw [(pageOnly_wmClear p n s).hang_eq]
@[simp] theorem tgChan_wmClear (p n : Nat) (j : Nat) (s : State) : tgChan (wmClear p n s) j = tgChan s j := by unfold tgChan; rw [(pageOnly_wmClear p n s).tongs_eq]
@[simp] theorem hangArmed_wmClear (p n : Nat) (j : Nat) (s : State) : hangArmed (wmClear p n s) j = hangArmed s j := by unfold hangArmed; rw [(pageOnly_wmClear p n s).hang_eq]
@[simp] theorem ftNs_wmClear (p n : Nat) (s : State) : ftNs (wmClear p n s) = ftNs s := by unfold ftNs; rw [(pageOnly_wmClear p n s).now_eq]
@[simp] theorem domLost_wmClear (p n : Nat) (j : Nat) (s : State) : domLost (wmClear p n s) j = domLost s j := by unfold domLost; simp only [dom_wmClear]
@[simp] theorem canvasSet_wmClear (p n : Nat) (q r : Nat) (s : State) : canvasSet (wmClear p n s) q r = canvasSet s q r := by unfold canvasSet; rw [(pageOnly_wmClear p n s).swapped_eq, (pageOnly_wmClear p n s).calSwapped_eq]
@[simp] theorem wmMark_pending (p n : Nat) (v : Word) (s : State) : (wmMark p n v s).pending = s.pending := (pageOnly_wmMark p n v s).pending_eq
@[simp] theorem wmMark_now (p n : Nat) (v : Word) (s : State) : (wmMark p n v s).now = s.now := (pageOnly_wmMark p n v s).now_eq
@[simp] theorem wmMark_free (p n : Nat) (v : Word) (s : State) : (wmMark p n v s).free = s.free := (pageOnly_wmMark p n v s).free_eq
@[simp] theorem wmMark_outbox (p n : Nat) (v : Word) (s : State) : (wmMark p n v s).outbox = s.outbox := (pageOnly_wmMark p n v s).outbox_eq
@[simp] theorem wmMark_lifecycle (p n : Nat) (v : Word) (s : State) : (wmMark p n v s).lifecycle = s.lifecycle := (pageOnly_wmMark p n v s).lifecycle_eq
@[simp] theorem wmMark_mem (p n : Nat) (v : Word) (s : State) : (wmMark p n v s).mem = s.mem := (pageOnly_wmMark p n v s).mem_eq
@[simp] theorem wmMark_trans (p n : Nat) (v : Word) (s : State) : (wmMark p n v s).trans = s.trans := (pageOnly_wmMark p n v s).trans_eq
@[simp] theorem wmMark_patina (p n : Nat) (v : Word) (s : State) : (wmMark p n v s).patina = s.patina := (pageOnly_wmMark p n v s).patina_eq
@[simp] theorem wmMark_fabric (p n : Nat) (v : Word) (s : State) : (wmMark p n v s).fabric = s.fabric := (pageOnly_wmMark p n v s).fabric_eq
@[simp] theorem wmMark_thermal (p n : Nat) (v : Word) (s : State) : (wmMark p n v s).thermal = s.thermal := (pageOnly_wmMark p n v s).thermal_eq
@[simp] theorem wmMark_bellows (p n : Nat) (v : Word) (s : State) : (wmMark p n v s).bellows = s.bellows := (pageOnly_wmMark p n v s).bellows_eq
@[simp] theorem chan_wmMark (p n : Nat) (v : Word) (j : Nat) (s : State) : chan (wmMark p n v s) j = chan s j := by unfold chan; rw [(pageOnly_wmMark p n v s).chans_eq]
@[simp] theorem base_wmMark (p n : Nat) (v : Word) (j : Nat) (s : State) : base (wmMark p n v s) j = base s j := by unfold base; rw [(pageOnly_wmMark p n v s).bases_eq]
@[simp] theorem dom_wmMark (p n : Nat) (v : Word) (j : Nat) (s : State) : dom (wmMark p n v s) j = dom s j := by unfold dom; rw [(pageOnly_wmMark p n v s).doms_eq]
@[simp] theorem eng_wmMark (p n : Nat) (v : Word) (j : Nat) (s : State) : eng (wmMark p n v s) j = eng s j := by unfold eng; rw [(pageOnly_wmMark p n v s).engines_eq]
@[simp] theorem lane_wmMark (p n : Nat) (v : Word) (j : Nat) (s : State) : lane (wmMark p n v s) j = lane s j := by unfold lane; rw [(pageOnly_wmMark p n v s).lanes_eq]
@[simp] theorem store_wmMark (p n : Nat) (v : Word) (j : Nat) (s : State) : store (wmMark p n v s) j = store s j := by unfold store; rw [(pageOnly_wmMark p n v s).stores_eq]
@[simp] theorem seqAt_wmMark (p n : Nat) (v : Word) (j : Nat) (s : State) : seqAt (wmMark p n v s) j = seqAt s j := by unfold seqAt; rw [(pageOnly_wmMark p n v s).seqs_eq]
@[simp] theorem failPipe_wmMark (p n : Nat) (v : Word) (j : Nat) (s : State) : failPipe (wmMark p n v s) j = failPipe s j := by unfold failPipe; rw [(pageOnly_wmMark p n v s).fails_eq]
@[simp] theorem weld_wmMark (p n : Nat) (v : Word) (j : Nat) (s : State) : weld (wmMark p n v s) j = weld s j := by unfold weld; rw [(pageOnly_wmMark p n v s).welds_eq]
@[simp] theorem memByte_wmMark (p n : Nat) (v : Word) (j : Nat) (s : State) : memByte (wmMark p n v s) j = memByte s j := by unfold memByte; rw [(pageOnly_wmMark p n v s).mem_eq]
@[simp] theorem anvEntry_wmMark (p n : Nat) (v : Word) (j : Nat) (s : State) : anvEntry (wmMark p n v s) j = anvEntry s j := by unfold anvEntry; rw [(pageOnly_wmMark p n v s).anvil_eq]
@[simp] theorem port_wmMark (p n : Nat) (v : Word) (j : Nat) (s : State) : port (wmMark p n v s) j = port s j := by unfold port; rw [(pageOnly_wmMark p n v s).ports_eq]
@[simp] theorem hangSlot_wmMark (p n : Nat) (v : Word) (j : Nat) (s : State) : hangSlot (wmMark p n v s) j = hangSlot s j := by unfold hangSlot; rw [(pageOnly_wmMark p n v s).hang_eq]
@[simp] theorem tgChan_wmMark (p n : Nat) (v : Word) (j : Nat) (s : State) : tgChan (wmMark p n v s) j = tgChan s j := by unfold tgChan; rw [(pageOnly_wmMark p n v s).tongs_eq]
@[simp] theorem hangArmed_wmMark (p n : Nat) (v : Word) (j : Nat) (s : State) : hangArmed (wmMark p n v s) j = hangArmed s j := by unfold hangArmed; rw [(pageOnly_wmMark p n v s).hang_eq]
@[simp] theorem ftNs_wmMark (p n : Nat) (v : Word) (s : State) : ftNs (wmMark p n v s) = ftNs s := by unfold ftNs; rw [(pageOnly_wmMark p n v s).now_eq]
@[simp] theorem domLost_wmMark (p n : Nat) (v : Word) (j : Nat) (s : State) : domLost (wmMark p n v s) j = domLost s j := by unfold domLost; simp only [dom_wmMark]
@[simp] theorem canvasSet_wmMark (p n : Nat) (v : Word) (q r : Nat) (s : State) : canvasSet (wmMark p n v s) q r = canvasSet s q r := by unfold canvasSet; rw [(pageOnly_wmMark p n v s).swapped_eq, (pageOnly_wmMark p n v s).calSwapped_eq]
@[simp] theorem mxError_pending (m : Master) (a k : Nat) (s : State) : (mxError m a k s).pending = s.pending := (pageOnly_mxError m a k s).pending_eq
@[simp] theorem mxError_now (m : Master) (a k : Nat) (s : State) : (mxError m a k s).now = s.now := (pageOnly_mxError m a k s).now_eq
@[simp] theorem mxError_free (m : Master) (a k : Nat) (s : State) : (mxError m a k s).free = s.free := (pageOnly_mxError m a k s).free_eq
@[simp] theorem mxError_outbox (m : Master) (a k : Nat) (s : State) : (mxError m a k s).outbox = s.outbox := (pageOnly_mxError m a k s).outbox_eq
@[simp] theorem mxError_lifecycle (m : Master) (a k : Nat) (s : State) : (mxError m a k s).lifecycle = s.lifecycle := (pageOnly_mxError m a k s).lifecycle_eq
@[simp] theorem mxError_mem (m : Master) (a k : Nat) (s : State) : (mxError m a k s).mem = s.mem := (pageOnly_mxError m a k s).mem_eq
@[simp] theorem mxError_trans (m : Master) (a k : Nat) (s : State) : (mxError m a k s).trans = s.trans := (pageOnly_mxError m a k s).trans_eq
@[simp] theorem mxError_patina (m : Master) (a k : Nat) (s : State) : (mxError m a k s).patina = s.patina := (pageOnly_mxError m a k s).patina_eq
@[simp] theorem mxError_fabric (m : Master) (a k : Nat) (s : State) : (mxError m a k s).fabric = s.fabric := (pageOnly_mxError m a k s).fabric_eq
@[simp] theorem mxError_thermal (m : Master) (a k : Nat) (s : State) : (mxError m a k s).thermal = s.thermal := (pageOnly_mxError m a k s).thermal_eq
@[simp] theorem mxError_bellows (m : Master) (a k : Nat) (s : State) : (mxError m a k s).bellows = s.bellows := (pageOnly_mxError m a k s).bellows_eq
@[simp] theorem chan_mxError (m : Master) (a k : Nat) (j : Nat) (s : State) : chan (mxError m a k s) j = chan s j := by unfold chan; rw [(pageOnly_mxError m a k s).chans_eq]
@[simp] theorem base_mxError (m : Master) (a k : Nat) (j : Nat) (s : State) : base (mxError m a k s) j = base s j := by unfold base; rw [(pageOnly_mxError m a k s).bases_eq]
@[simp] theorem dom_mxError (m : Master) (a k : Nat) (j : Nat) (s : State) : dom (mxError m a k s) j = dom s j := by unfold dom; rw [(pageOnly_mxError m a k s).doms_eq]
@[simp] theorem eng_mxError (m : Master) (a k : Nat) (j : Nat) (s : State) : eng (mxError m a k s) j = eng s j := by unfold eng; rw [(pageOnly_mxError m a k s).engines_eq]
@[simp] theorem lane_mxError (m : Master) (a k : Nat) (j : Nat) (s : State) : lane (mxError m a k s) j = lane s j := by unfold lane; rw [(pageOnly_mxError m a k s).lanes_eq]
@[simp] theorem store_mxError (m : Master) (a k : Nat) (j : Nat) (s : State) : store (mxError m a k s) j = store s j := by unfold store; rw [(pageOnly_mxError m a k s).stores_eq]
@[simp] theorem seqAt_mxError (m : Master) (a k : Nat) (j : Nat) (s : State) : seqAt (mxError m a k s) j = seqAt s j := by unfold seqAt; rw [(pageOnly_mxError m a k s).seqs_eq]
@[simp] theorem failPipe_mxError (m : Master) (a k : Nat) (j : Nat) (s : State) : failPipe (mxError m a k s) j = failPipe s j := by unfold failPipe; rw [(pageOnly_mxError m a k s).fails_eq]
@[simp] theorem weld_mxError (m : Master) (a k : Nat) (j : Nat) (s : State) : weld (mxError m a k s) j = weld s j := by unfold weld; rw [(pageOnly_mxError m a k s).welds_eq]
@[simp] theorem memByte_mxError (m : Master) (a k : Nat) (j : Nat) (s : State) : memByte (mxError m a k s) j = memByte s j := by unfold memByte; rw [(pageOnly_mxError m a k s).mem_eq]
@[simp] theorem anvEntry_mxError (m : Master) (a k : Nat) (j : Nat) (s : State) : anvEntry (mxError m a k s) j = anvEntry s j := by unfold anvEntry; rw [(pageOnly_mxError m a k s).anvil_eq]
@[simp] theorem port_mxError (m : Master) (a k : Nat) (j : Nat) (s : State) : port (mxError m a k s) j = port s j := by unfold port; rw [(pageOnly_mxError m a k s).ports_eq]
@[simp] theorem hangSlot_mxError (m : Master) (a k : Nat) (j : Nat) (s : State) : hangSlot (mxError m a k s) j = hangSlot s j := by unfold hangSlot; rw [(pageOnly_mxError m a k s).hang_eq]
@[simp] theorem tgChan_mxError (m : Master) (a k : Nat) (j : Nat) (s : State) : tgChan (mxError m a k s) j = tgChan s j := by unfold tgChan; rw [(pageOnly_mxError m a k s).tongs_eq]
@[simp] theorem hangArmed_mxError (m : Master) (a k : Nat) (j : Nat) (s : State) : hangArmed (mxError m a k s) j = hangArmed s j := by unfold hangArmed; rw [(pageOnly_mxError m a k s).hang_eq]
@[simp] theorem ftNs_mxError (m : Master) (a k : Nat) (s : State) : ftNs (mxError m a k s) = ftNs s := by unfold ftNs; rw [(pageOnly_mxError m a k s).now_eq]
@[simp] theorem domLost_mxError (m : Master) (a k : Nat) (j : Nat) (s : State) : domLost (mxError m a k s) j = domLost s j := by unfold domLost; simp only [dom_mxError]
@[simp] theorem canvasSet_mxError (m : Master) (a k : Nat) (q r : Nat) (s : State) : canvasSet (mxError m a k s) q r = canvasSet s q r := by unfold canvasSet; rw [(pageOnly_mxError m a k s).swapped_eq, (pageOnly_mxError m a k s).calSwapped_eq]
@[simp] theorem rdRole_noteIrq (p : Nat) (e : Bool) (q r : Nat) (s : State) : rdRole (noteIrq p s) e q r = rdRole s e q r := by simp [rdRole, roleKey]
@[simp] theorem rdReg_noteIrq (p q r : Nat) (s : State) : rdReg (noteIrq p s) q r = rdReg s q r := rdRole_noteIrq ..
@[simp] theorem rdRole_noteAck (p : Nat) (e : Bool) (q r : Nat) (s : State) : rdRole (noteAck p s) e q r = rdRole s e q r := by simp [rdRole, roleKey]
@[simp] theorem rdReg_noteAck (p q r : Nat) (s : State) : rdReg (noteAck p s) q r = rdReg s q r := rdRole_noteAck ..

@[simp] theorem rdReg_raise_same (p : Nat) (b : Word) (s : State) : rdReg (raise p b s) p 0x010 = rdReg s p 0x010 ||| b := by simp [raise]
theorem rdReg_raise_off {p r : Nat} (b : Word) (hr : r < 2 ^ 12) (h : r ≠ 0x010) (s : State) : rdReg (raise p b s) p r = rdReg s p r := by
  simp only [raise, rdReg_noteIrq]
  exact rdReg_modReg_off (by decide) hr (Ne.symm h) _ s
theorem rdReg_raise_ne {p q r : Nat} (b : Word) (hp : p < 2 ^ 14) (hq : q < 2 ^ 14) (hr : r < 2 ^ 12) (h : ¬ (p = q ∧ 0x010 = r)) (s : State) :
    rdReg (raise p b s) q r = rdReg s q r := by
  simp only [raise, rdReg_noteIrq]
  exact rdReg_modReg_ne hp hq (by decide) hr h _ s
@[simp] theorem rdReg_captureOnly_same (p c o d : Nat) (s : State) :
    rdReg (captureOnly p c o d s) p 0x020 = if bit (rdReg s p 0x020) 31 then setBit (rdReg s p 0x020) 30 true else syndrome c o d := by
  simp [captureOnly]
theorem rdReg_captureOnly_off {p r : Nat} (c o d : Nat) (hr : r < 2 ^ 12) (h : r ≠ 0x020) (s : State) : rdReg (captureOnly p c o d s) p r = rdReg s p r := by
  simp only [captureOnly, rdReg_noteIrq]
  exact rdReg_modReg_off (by decide) hr (Ne.symm h) _ s
theorem rdReg_captureOnly_ne {p q r : Nat} (c o d : Nat) (hp : p < 2 ^ 14) (hq : q < 2 ^ 14) (hr : r < 2 ^ 12) (h : ¬ (p = q ∧ 0x020 = r)) (s : State) :
    rdReg (captureOnly p c o d s) q r = rdReg s q r := by
  simp only [captureOnly, rdReg_noteIrq]
  exact rdReg_modReg_ne hp hq (by decide) hr h _ s

/-! ## Registers kept -/

theorem RegsKept.refl (s : State) (l : List (Nat × Nat)) : RegsKept s s l := fun _ _ _ _ _ _ => rfl

theorem RegsKept.trans {s t u : State} {l : List (Nat × Nat)} (h : RegsKept s t l) (k : RegsKept t u l) : RegsKept s u l :=
  fun e p o hp ho hl => (k e p o hp ho hl).trans (h e p o hp ho hl)

theorem RegsKept.mono {s t : State} {l m : List (Nat × Nat)} (h : RegsKept s t l) (hl : ∀ x ∈ l, x ∈ m) : RegsKept s t m :=
  fun e p o hp ho hm => h e p o hp ho (fun hx => hm (hl _ hx))

/-- Registers of equal content in states of equal roles. -/
theorem regsKept_of_eq {s t : State} (l : List (Nat × Nat)) (h : t.regs = s.regs) (hs : t.swapped = s.swapped) (hc : t.calSwapped = s.calSwapped) :
    RegsKept s t l := fun e p o _ _ _ => by simp [rdRole, roleKey, canvasSet, h, hs, hc]

theorem regsKept_wrRole {p o : Nat} (hp : p < 2 ^ 14) (ho : o < 2 ^ 12) (e : Bool) (v : Word) (s : State) : RegsKept s (wrRole e p o v s) [(p, o)] :=
  fun e' q r hq hr hl => rdRole_wrRole_ne hp hq ho hr (fun hh => hl (by simp [hh])) e e' v s

theorem regsKept_noteIrq (p : Nat) (s : State) : RegsKept s (noteIrq p s) [] := fun _ _ _ _ _ _ => rdRole_noteIrq ..

theorem regsKept_raise {p : Nat} (hp : p < 2 ^ 14) (b : Word) (s : State) : RegsKept s (raise p b s) [(p, 0x010)] :=
  (regsKept_wrRole hp (by decide) false _ s).trans ((regsKept_noteIrq p _).mono (by simp))

theorem regsKept_captureOnly {p : Nat} (hp : p < 2 ^ 14) (c o d : Nat) (s : State) : RegsKept s (captureOnly p c o d s) [(p, 0x020)] :=
  (regsKept_wrRole hp (by decide) false _ s).trans ((regsKept_noteIrq p _).mono (by simp))

theorem RegsKept.rest {s t u : State} {l : List (Nat × Nat)} (h : RegsKept s t l) (hr : u.regs = t.regs) (hs : u.swapped = t.swapped)
    (hc : u.calSwapped = t.calSwapped) : RegsKept s u l := h.trans (regsKept_of_eq l hr hs hc)

theorem RegsKept.wrReg {s t : State} {l : List (Nat × Nat)} (h : RegsKept s t l) {p o : Nat} (hp : p < 2 ^ 14) (ho : o < 2 ^ 12)
    (hm : (p, o) ∈ l) (v : Word) : RegsKept s (wrReg p o v t) l :=
  h.trans ((regsKept_wrRole hp ho false v t).mono (by simpa using hm))

theorem RegsKept.modReg {s t : State} {l : List (Nat × Nat)} (h : RegsKept s t l) {p o : Nat} (hp : p < 2 ^ 14) (ho : o < 2 ^ 12)
    (hm : (p, o) ∈ l) (f : Word → Word) : RegsKept s (modReg p o f t) l :=
  h.wrReg hp ho hm _

theorem RegsKept.raise {s t : State} {l : List (Nat × Nat)} (h : RegsKept s t l) {p : Nat} (hp : p < 2 ^ 14) (hm : (p, 0x010) ∈ l) (b : Word) :
    RegsKept s (raise p b t) l := h.trans ((regsKept_raise hp b t).mono (by simpa using hm))

theorem RegsKept.raiseBit {s t : State} {l : List (Nat × Nat)} (h : RegsKept s t l) {p : Nat} (hp : p < 2 ^ 14) (hm : (p, 0x010) ∈ l) (i : Nat) :
    RegsKept s (raiseBit p i t) l := h.raise hp hm _

theorem RegsKept.captureOnly {s t : State} {l : List (Nat × Nat)} (h : RegsKept s t l) {p : Nat} (hp : p < 2 ^ 14) (hm : (p, 0x020) ∈ l) (c o d : Nat) :
    RegsKept s (captureOnly p c o d t) l := h.trans ((regsKept_captureOnly hp c o d t).mono (by simpa using hm))

theorem RegsKept.report {s t : State} {l : List (Nat × Nat)} (h : RegsKept s t l) (r : Report) : RegsKept s (report r t) l :=
  h.rest (report_regs ..) (report_swapped ..) (report_calSwapped ..)

theorem RegsKept.captureAs {s t : State} {l : List (Nat × Nat)} (h : RegsKept s t l) {p : Nat} (hp : p < 2 ^ 14) (hm : (p, 0x020) ∈ l)
    (c o d cl sh g k : Nat) : RegsKept s (captureAs p c o d cl sh g k t) l := (h.captureOnly hp hm c o d).report _

theorem RegsKept.capture {s t : State} {l : List (Nat × Nat)} (h : RegsKept s t l) {p : Nat} (hp : p < 2 ^ 14) (hm : (p, 0x020) ∈ l)
    (c o d : Nat) : RegsKept s (capture p c o d t) l := h.captureAs hp hm _ _ _ _ _ _ _

theorem RegsKept.raiseReject {s t : State} {l : List (Nat × Nat)} (h : RegsKept s t l) {p : Nat} (hp : p < 2 ^ 14) (hm : (p, 0x010) ∈ l) :
    RegsKept s (raiseReject p t) l := by
  unfold Sys2Proof.Machine.raiseReject
  split
  · split
    · exact h.raiseBit hp hm _
    · exact h
  · exact h

theorem RegsKept.rejectWrite {s t : State} {l : List (Nat × Nat)} (h : RegsKept s t l) {p : Nat} (hp : p < 2 ^ 14) (hm : (p, 0x010) ∈ l)
    (hn : (p, 0x020) ∈ l) (o : Nat) (m : Master) : RegsKept s (rejectWrite p o m t) l := (h.raiseReject hp hm).capture hp hn _ _ _

theorem RegsKept.invalidWrite {s t : State} {l : List (Nat × Nat)} (h : RegsKept s t l) {p : Nat} (hp : p < 2 ^ 14) (hm : (p, 0x010) ∈ l)
    (hn : (p, 0x020) ∈ l) (o : Nat) (m : Master) : RegsKept s (invalidWrite p o m t) l := (h.raiseReject hp hm).capture hp hn _ _ _

theorem RegsKept.refuseCmd {s t : State} {l : List (Nat × Nat)} (h : RegsKept s t l) {p : Nat} (hp : p < 2 ^ 14)
    (hn : (p, 0x020) ∈ l) (o : Nat) (m : Master) : RegsKept s (refuseCmd p o m t) l := h.capture hp hn _ _ _

/-! ## Fields -/

/-- A live write of unreserved encodings meets none that is reserved (00 R13). -/
theorem mergeWord_valid {fs : List Field} (old v : Word) (h : wordValid fs v = true) : (mergeWord fs old v).2 = false := by
  have key : ∀ (l : List Field) (acc : Word × Bool), acc.2 = false → l.all (fun f => f.acc != .rw || f.ok.ok (fld v f.hi f.lo)) = true →
      (forEach l acc (fun f r => (setFld r.1 f.hi f.lo (mergeField f old v).1, r.2 || (mergeField f old v).2))).2 = false := by
    intro l
    induction l with
    | nil => intro acc ha _; exact ha
    | cons f l ih =>
      intro acc ha hl
      simp only [List.all_cons, Bool.and_eq_true] at hl
      refine ih _ ?_ hl.2
      have hm : (mergeField f old v).2 = false := by
        unfold mergeField
        have h1 := hl.1
        cases hacc : f.acc <;> simp [hacc] at h1 ⊢
        simp [h1]
      simp [ha, hm]
  exact key fs (old, false) rfl h

end Sys2Proof.Machine
end

