-- ==== Sys2Proof/Laws/Access.lean ====
section
/-! SUPPORT. Where a write goes that a page takes. -/

-- One theorem at a time: elaborating them in parallel takes the memory of many threads.
set_option Elab.async false

namespace Sys2Proof.Machine

/-- A write that a page takes, at a word's offset, is the page's own. -/
theorem accessWrite_of_takes {s : State} {page off : Nat} {m : Master} {x : Page} (v : Word) (h : Takes s page m)
    (hx : pageAt page = some x) (ho : off % 4 = 0) (hk : x.kind ≠ .test) (hd : off < 0xF00) :
    accessWrite page off m v s =
      if off < 0x100 then headerWrite x page off m v s
      else if off < 0x700 then canvasWrite x page off m v (copyBefore page s)
      else if off < 0x800 then (match findReg (regsOf x.kind) off with | some r => blockWrite x page off m r.fields v s | none => s)
      else if off < 0x900 then s
      else easelWrite x page (off - 0x800) m v (copyBefore page s) := by
  obtain ⟨hp, he, hy, hall⟩ := h
  obtain ⟨hr, hready⟩ := hall x (by simp [hx])
  have hn : notReady s x off = false := by simp [notReady, hready]
  have hy : pageYields page m s = s := by simp [pageYields, hy]
  have hk' : (x.kind == Kind.test) = false := by simpa using hk
  have hd' : ¬ 0xF00 ≤ off := by omega
  simp only [accessWrite, accessError, pageWrite, pageReceives, hp, hy, he, ho, hx, hr, hn, hk', hd', Option.none_or, Bool.not_true, Bool.or_self,
    decide_false, if_true, if_false, Bool.false_eq_true]
  all_goals rfl

/-- A write of a header register. -/
theorem accessWrite_header {s : State} {page off : Nat} {m : Master} {x : Page} (v : Word) (h : Takes s page m)
    (hx : pageAt page = some x) (ho : off % 4 = 0) (hk : x.kind ≠ .test) (hd : off < 0x100) :
    accessWrite page off m v s = headerWrite x page off m v s := by
  rw [accessWrite_of_takes v h hx ho hk (by omega), if_pos hd]

/-- Before a write, a page that no COPY in progress has still to copy stays as it is. -/
theorem copyBefore_of_none {s : State} (page : Nat) (h : s.copies = []) : copyBefore page s = s := by
  unfold copyBefore
  split
  · simp [mayCopyTied, h, forEach]
  · simp [mayCopy, toCopy, h]

/-- A write of a bankable register's Canvas role. -/
theorem accessWrite_canvas {s : State} {page off : Nat} {m : Master} {x : Page} (v : Word) (h : Takes s page m)
    (hx : pageAt page = some x) (ho : off % 4 = 0) (hk : x.kind ≠ .test) (hl : 0x100 ≤ off) (hd : off < 0x700) :
    accessWrite page off m v s = canvasWrite x page off m v (copyBefore page s) := by
  rw [accessWrite_of_takes v h hx ho hk (by omega), if_neg (by omega), if_pos hd]

/-- A write of a register of a page's block. -/
theorem accessWrite_block {s : State} {page off : Nat} {m : Master} {x : Page} {r : RegDesc} (v : Word) (h : Takes s page m)
    (hx : pageAt page = some x) (hr : findReg (regsOf x.kind) off = some r) (ho : off % 4 = 0) (hk : x.kind ≠ .test)
    (hl : 0x700 ≤ off) (hd : off < 0x800) :
    accessWrite page off m v s = blockWrite x page off m r.fields v s := by
  rw [accessWrite_of_takes v h hx ho hk (by omega), if_neg (by omega), if_neg (by omega), if_pos hd, hr]

/-- A read of a register of a page that is up; a block in use is restored first. -/
theorem accessRead_of_up {s : State} {page off : Nat} {m : Master} (hp : pathOk m .regs = true) (h : pageError s page = none) (ho : off % 4 = 0) :
    accessRead page off m s = pageReadEffect page off (pageYields page m s) := by
  simp [accessRead, accessError, pageReads, hp, h, ho]

/-- An access to a page of a block that is not in use leaves the use of every block as it is. -/
theorem pageYields_of_quiet {s : State} {page : Nat} {m : Master} (h : disturbs page m s = false) : pageYields page m s = s := by
  simp [pageYields, h]

/-- An access that a page or its domain does not answer ends with an error that the MX page captures. -/
theorem accessWrite_error {s : State} {page off : Nat} {m : Master} {k : BusKind} (v : Word) (hp : pathOk m .regs = true)
    (h : pageError s page = some k) : accessWrite page off m v s = mxError m (regAddr page off) (busCode k) s := by
  simp [accessWrite, accessError, hp, h]

/-- An access along a path that does not exist ends with DECODE (11 R291). -/
theorem accessWrite_noPath {s : State} {page off : Nat} {m : Master} (v : Word) (hp : pathOk m .regs = false) :
    accessWrite page off m v s = mxError m (regAddr page off) 1 s := by
  simp [accessWrite, accessError, hp, busCode]

end Sys2Proof.Machine
end

