-- ==== Sys2Proof/Laws/Bits.lean ====
section
/-! SUPPORT. Bits and fields of a word that is written by parts. -/

-- One theorem at a time: elaborating them in parallel takes the memory of many threads.
set_option Elab.async false

namespace Sys2Proof.Machine

theorem getLsbD_setFld (w : Word) {hi lo : Nat} (v j : Nat) (hl : lo ≤ hi) (_hh : hi < 32) (hj : j < 32) :
    (setFld w hi lo v).getLsbD j = if j < lo then w.getLsbD j else if j ≤ hi then v.testBit (j - lo) else w.getLsbD j := by
  unfold setFld
  have hB : v % 2 ^ (hi + 1 - lo) * 2 ^ lo + w.toNat % 2 ^ lo < 2 ^ (hi + 1) := by
    have h1 : v % 2 ^ (hi + 1 - lo) < 2 ^ (hi + 1 - lo) := Nat.mod_lt _ (Nat.two_pow_pos _)
    have h2 : w.toNat % 2 ^ lo < 2 ^ lo := Nat.mod_lt _ (Nat.two_pow_pos _)
    have h3 : 2 ^ (hi + 1 - lo) * 2 ^ lo = 2 ^ (hi + 1) := by rw [← Nat.pow_add]; congr 1; omega
    have h4 : (v % 2 ^ (hi + 1 - lo) + 1) * 2 ^ lo ≤ 2 ^ (hi + 1 - lo) * 2 ^ lo := Nat.mul_le_mul_right _ h1
    rw [Nat.add_mul, one_mul] at h4
    omega
  rw [BitVec.getLsbD_ofNat, Nat.add_assoc, Nat.mul_comm (w.toNat / _), Nat.testBit_two_pow_mul_add _ hB,
    Nat.mul_comm (v % _), Nat.testBit_two_pow_mul_add _ (Nat.mod_lt _ (Nat.two_pow_pos _))]
  simp only [hj, decide_true, Bool.true_and, Nat.testBit_mod_two_pow, Nat.testBit_div_two_pow, BitVec.getLsbD]
  by_cases h1 : j < lo
  · have h2 : j < hi + 1 := by omega
    simp [h1, h2]
  · by_cases h2 : j ≤ hi
    · have h3 : j < hi + 1 := by omega
      have h4 : j - lo < hi + 1 - lo := by omega
      simp [h1, h2, h3, h4]
    · have h3 : ¬ j < hi + 1 := by omega
      have h4 : hi + 1 + (j - (hi + 1)) = j := by omega
      simp [h1, h2, h3, h4, Nat.add_comm]

theorem bit_setFld (w : Word) {hi lo : Nat} (v j : Nat) (hl : lo ≤ hi) (hh : hi < 32) (hj : j < 32) :
    bit (setFld w hi lo v) j = if j < lo then bit w j else if j ≤ hi then v.testBit (j - lo) else bit w j :=
  getLsbD_setFld w v j hl hh hj

theorem bit_setBit_same (w : Word) {i : Nat} (b : Bool) (hi : i < 32) : bit (setBit w i b) i = b := by
  rw [setBit, bit_setFld w b.toNat i (Nat.le_refl i) hi hi]
  cases b <;> simp

theorem bit_setBit_ne (w : Word) {i j : Nat} (b : Bool) (hi : i < 32) (hj : j < 32) (h : j ≠ i) : bit (setBit w i b) j = bit w j := by
  rw [setBit, bit_setFld w b.toNat j (Nat.le_refl i) hi hj]
  split
  · rfl
  · rw [if_neg (by omega)]

theorem testBit_fld (w : Word) (hi lo j : Nat) : (fld w hi lo).testBit j = (decide (j < hi + 1 - lo) && w.getLsbD (lo + j)) := by
  unfold fld
  rw [Nat.testBit_mod_two_pow, Nat.testBit_div_two_pow, Nat.add_comm j lo]
  rfl

theorem fld_lt (w : Word) (hi lo : Nat) : fld w hi lo < 2 ^ (hi + 1 - lo) := Nat.mod_lt _ (Nat.two_pow_pos _)

theorem fld_setFld_same (w : Word) {hi lo : Nat} (v : Nat) (hl : lo ≤ hi) (hh : hi < 32) : fld (setFld w hi lo v) hi lo = v % 2 ^ (hi + 1 - lo) := by
  apply Nat.eq_of_testBit_eq
  intro j
  rw [testBit_fld, Nat.testBit_mod_two_pow]
  by_cases hj : j < hi + 1 - lo
  · rw [getLsbD_setFld w v _ hl hh (by omega), if_neg (by omega), if_pos (by omega)]
    simp [hj]
  · simp [hj]

theorem fld_setFld_ne (w : Word) {hi lo hi' lo' : Nat} (v : Nat) (hl : lo ≤ hi) (hh : hi < 32) (hh' : hi' < 32)
    (h : hi < lo' ∨ hi' < lo) : fld (setFld w hi lo v) hi' lo' = fld w hi' lo' := by
  apply Nat.eq_of_testBit_eq
  intro j
  rw [testBit_fld, testBit_fld]
  by_cases hj : j < hi' + 1 - lo'
  · rw [getLsbD_setFld w v _ hl hh (by omega)]
    congr 1
    rcases h with h | h
    · rw [if_neg (by omega), if_neg (by omega)]
    · rw [if_pos (by omega)]
  · simp [hj]

theorem bit_or (a b : Word) (i : Nat) : bit (a ||| b) i = (bit a i || bit b i) := BitVec.getLsbD_or ..

theorem bit_w32 (n : Nat) {i : Nat} (hi : i < 32) : bit (w32 n) i = n.testBit i := by
  show (BitVec.ofNat 32 n).getLsbD i = _
  rw [BitVec.getLsbD_ofNat]
  simp [hi]

theorem bit_w32_pow {i : Nat} (hi : i < 32) : bit (w32 (2 ^ i)) i = true := by rw [bit_w32 _ hi]; simp

end Sys2Proof.Machine
end

