-- ==== Sys2Proof/Laws/KeepsBase.lean ====
section
/-! SUPPORT. Safety.Keeps of the primitive operations and the rules by which it goes through the control structure of a definition. -/

-- One theorem at a time: elaborating them in parallel takes the memory of many threads.
set_option Elab.async false

namespace Sys2Proof.Machine

theorem Keeps.refl (s : State) : Keeps s s := ⟨rfl, Nat.le_refl _, id, Nat.le_refl _, ⟨[], rfl⟩, id, id, id⟩

theorem Keeps.trans {r s t : State} (h : Keeps r s) (k : Keeps s t) : Keeps r t where
  pending := k.pending.trans h.pending
  lifecycle := Nat.le_trans h.lifecycle k.lifecycle
  key := k.key ∘ h.key
  free := Nat.le_trans h.free k.free
  outbox := by
    obtain ⟨a, ha⟩ := h.outbox
    obtain ⟨b, hb⟩ := k.outbox
    exact ⟨b ++ a, by rw [hb, ha, List.append_assoc]⟩
  mem := k.mem ∘ h.mem
  quiet := k.quiet ∘ h.quiet
  mode := k.mode ∘ h.mode

/-- A record update that touches none of the fields Keeps speaks of. -/
theorem keeps_mk {r t : State} (h : Keeps r t) {
      now regs swapped calSwapped held wms irqOut msixDue pal palHeld palCmds bases tables doms pins reports anvil
      nextFid corrected trans replies power granted tongs tongsLast mramLines mramGap hang hangAsk fabHangAsk copies
      fstat snap stale lanes stores seqs fails welds patina wiping ports fabric pcie thermal bellows temper primer
      calDue journal images loaded taken tap tapFault} :
    Keeps r (State.mk
      t.pending now t.free t.outbox regs swapped calSwapped held wms irqOut msixDue pal palHeld palCmds t.chans bases
      tables doms pins t.lifecycle t.keyFused reports anvil nextFid corrected t.mem trans replies power granted tongs
      tongsLast mramLines mramGap hang hangAsk fabHangAsk copies fstat snap t.engines stale lanes stores seqs fails
      welds patina wiping ports fabric pcie thermal bellows temper primer calDue journal images loaded taken tap
      tapFault) :=
  h.trans ⟨rfl, Nat.le_refl _, id, Nat.le_refl _, ⟨[], rfl⟩, id, id, id⟩

/-- A record update that leaves the queue and the outbox alone and moves the other fields as Keeps allows. -/
theorem keeps_mkAll {r t : State} (h : Keeps r t) {free lifecycle keyFused mem
      now regs swapped calSwapped held wms irqOut msixDue pal palHeld palCmds bases tables doms pins reports anvil
      nextFid corrected trans replies power granted tongs tongsLast mramLines mramGap hang hangAsk fabHangAsk copies
      fstat snap stale lanes stores seqs fails welds patina wiping ports fabric pcie thermal bellows temper primer
      calDue journal images loaded taken tap tapFault}
    (hl : t.lifecycle ≤ lifecycle) (hk : t.keyFused = true → keyFused = true) (hf : t.free ≤ free)
    (hm : Memory.wf t.mem = true → Memory.wf mem = true) :
    Keeps r (State.mk
      t.pending now free t.outbox regs swapped calSwapped held wms irqOut msixDue pal palHeld palCmds t.chans bases
      tables doms pins lifecycle keyFused reports anvil nextFid corrected mem trans replies power granted tongs
      tongsLast mramLines mramGap hang hangAsk fabHangAsk copies fstat snap t.engines stale lanes stores seqs fails
      welds patina wiping ports fabric pcie thermal bellows temper primer calDue journal images loaded taken tap
      tapFault) :=
  h.trans ⟨rfl, hl, hk, hf, ⟨[], rfl⟩, hm, id, id⟩

theorem keeps_ite {r a b : State} {c : Prop} [Decidable c] (hb : Keeps r b) (ha : Keeps r b → Keeps r a) : Keeps r (if c then a else b) := by
  split
  · exact ha hb
  · exact hb

theorem keeps_forEach {α : Type} {r s : State} {l : List α} {f : α → State → State} (h : Keeps r s) (hf : ∀ a s, Keeps r s → Keeps r (f a s)) :
    Keeps r (forEach l s f) := by
  unfold forEach
  induction l generalizing s with
  | nil => exact h
  | cons a l ih => exact ih (hf a s h)

theorem keeps_foldl {α : Type} {r s : State} {l : List α} {f : State → α → State} (h : Keeps r s) (hf : ∀ s a, Keeps r s → Keeps r (f s a)) :
    Keeps r (l.foldl f s) := by
  induction l generalizing s with
  | nil => exact h
  | cons a l ih => exact ih (hf s a h)

theorem keeps_forUpTo {r s : State} {n : Nat} {f : Nat → State → State} (h : Keeps r s) (hf : ∀ i s, Keeps r s → Keeps r (f i s)) :
    Keeps r (forUpTo n s f) := by
  induction n with
  | zero => exact h
  | succ n ih => exact hf n _ ih

theorem keeps_id {r s : State} (h : Keeps r s) : Keeps r (id s) := h

theorem keeps_setChan {r : State} (c : Nat) (x : Chan) {s : State} (h : Keeps r s) (hx : (∀ c, Quiet (chan r c)) → Quiet x) :
    Keeps r (setChan c x s) :=
  ⟨h.pending, h.lifecycle, h.key, h.free, h.outbox, h.mem, fun hq d => by
    show Quiet (smGet {} (smPut {} s.chans c x) d)
    rw [smGet_smPut]
    split
    · exact hx hq
    · exact h.quiet hq d, h.mode⟩

theorem keeps_modChan {r : State} (c : Nat) (f : Chan → Chan) {s : State} (h : Keeps r s) (hf : ∀ x, Quiet x → Quiet (f x)) :
    Keeps r (modChan c f s) := keeps_setChan c _ h fun hq => hf _ (h.quiet hq c)

theorem keeps_setEng {r : State} (k : Nat) (e : Engine) {s : State} (h : Keeps r s) (he : (∀ k, ModeLegal k (eng s k)) → ModeLegal k e) :
    Keeps r (setEng k e s) :=
  h.trans ⟨rfl, Nat.le_refl _, id, Nat.le_refl _, ⟨[], rfl⟩, id, id, fun hm j => by
    show ModeLegal j (smGet (engDefault j) (smPut (engDefault k) s.engines k e) j)
    by_cases hj : j = k
    · subst hj; rw [smGet_smPut_same]; exact he hm
    · rw [smGet_smPut_ne _ _ _ _ hj]; exact hm j⟩

theorem keeps_modEng {r : State} (k : Nat) (f : Engine → Engine) {s : State} (h : Keeps r s)
    (hf : ∀ e, ModeLegal k e → ModeLegal k (f e)) : Keeps r (modEng k f s) := keeps_setEng k _ h fun hm => hf _ (hm k)

/-- Every engine at reset. -/
theorem keeps_noEngines {r : State} {s : State} (h : Keeps r s) (hd : ∀ k, ModeLegal k (engDefault k)) : Keeps r { s with engines := [] } :=
  ⟨h.pending, h.lifecycle, h.key, h.free, h.outbox, h.mem, h.quiet, fun _ k => hd k⟩

theorem keeps_reach {r s : State} (t : Nat) (h : Keeps r s) : Keeps r (reach t s) := keeps_mk h

theorem keeps_tick {r s : State} (h : Keeps r s) : Keeps r (tick s) :=
  h.trans ⟨rfl, Nat.le_refl _, id, Nat.le_succ _, ⟨[], rfl⟩, id, id, id⟩

theorem keeps_send {r s : State} (o : Out) (h : Keeps r s) : Keeps r (send o s) :=
  h.trans ⟨rfl, Nat.le_refl _, id, Nat.le_refl _, ⟨[o], rfl⟩, id, id, id⟩

theorem keeps_setByte {r s : State} (k : Nat) (b : Byte) (h : Keeps r s) : Keeps r (setByte k b s) :=
  h.trans ⟨rfl, Nat.le_refl _, id, Nat.le_refl _, ⟨[], rfl⟩, fun hm => smWf_smPut 0 s.mem k b hm, id, id⟩

theorem keeps_setBytes {r s : State} (k : Nat) (bs : List Byte) (h : Keeps r s) : Keeps r (setBytes k bs s) := by
  induction bs generalizing k s with
  | nil => exact h
  | cons b bs ih => exact ih (k + 1) (keeps_setByte k b h)

theorem setBytes_free (k : Nat) (bs : List Byte) (s : State) : (setBytes k bs s).free = s.free := by
  induction bs generalizing k s with
  | nil => rfl
  | cons b bs ih => exact ih (k + 1) (setByte k b s)

theorem keeps_wipeMem {r s : State} (lo hi : Nat) (h : Keeps r s) : Keeps r (wipeMem lo hi s) :=
  h.trans ⟨rfl, Nat.le_refl _, id, Nat.le_refl _, ⟨[], rfl⟩, smWf_smDrop 0 s.mem (fun k => lo ≤ k && k < hi), id, id⟩

end Sys2Proof.Machine
end

