-- ==== Sys2Proof/Laws/KeepsModes.lean ====
section
/-! SUPPORT. The changes of a channel that leave a held one quiet, and the changes of an engine that leave its mode alone. -/

-- One theorem at a time: elaborating them in parallel takes the memory of many threads.
set_option Elab.async false

namespace Sys2Proof.Machine

theorem forEach_inv {α σ : Type} {P : σ → Prop} {l : List α} {x : σ} {f : α → σ → σ} (h : P x) (hf : ∀ a x, P x → P (f a x)) :
    P (forEach l x f) := by
  unfold forEach
  induction l generalizing x with
  | nil => exact h
  | cons a l ih => exact ih (hf a x h)

theorem forUpTo_inv {σ : Type} {P : σ → Prop} {n : Nat} {x : σ} {f : Nat → σ → σ} (h : P x) (hf : ∀ i x, P x → P (f i x)) :
    P (forUpTo n x f) := by
  induction n with
  | zero => exact h
  | succ n ih => exact hf n _ ih

/-! ## Channels -/

theorem quiet_laneSymbol (slice : Bool) (b : Byte) (x : List Symbol × Chan) (h : Quiet x.2) : Quiet (laneSymbol slice b x).2 := by
  unfold laneSymbol
  extract_lets y
  split
  · exact h
  · split <;> exact h

theorem quiet_forEach {α : Type} (l : List α) (x : Chan) (f : α → Chan → Chan) (h : Quiet x) (hf : ∀ a x, Quiet x → Quiet (f a x)) :
    Quiet (forEach l x f) := forEach_inv h hf

theorem quiet_tileChan (held : Bool) (x : Chan) : Quiet (tileChan held x) :=
  fun _ => ⟨.inl rfl, rfl, rfl, fun st hst => absurd hst (by simp [tileChan])⟩

theorem quiet_laneChan (x : Chan) (h : Quiet x) : Quiet (laneChan x) := h

/-- A change that holds no channel anew, leaves the function alone and brings no level, no measurement and no drive event. -/
theorem Quiet.step {x y : Chan} (h : Quiet x) (hh : y.held = true → x.held = true) (hf : y.func = x.func)
    (hd : y.drive = none ∨ y.drive = x.drive) (hp : y.pmu = .idle ∨ y.pmu = x.pmu)
    (hs : ∀ st, y.stroke = some st → (∀ e ∈ st.events, e.kind ≠ 1) ∨ ∃ st', x.stroke = some st' ∧ ∀ e ∈ st.events, e ∈ st'.events) :
    Quiet y := by
  intro hy
  obtain ⟨h1, h2, h3, h4⟩ := h (hh hy)
  refine ⟨hf ▸ h1, ?_, ?_, fun st hst e he => ?_⟩
  · rcases hd with hd | hd
    · exact hd
    · rw [hd, h2]
  · rcases hp with hp | hp
    · exact hp
    · rw [hp, h3]
  · rcases hs st hst with h | ⟨st', hst', hsub⟩
    · exact h e he
    · exact h4 st' hst' e (hsub e he)

/-- The same where the stroke in progress stays. -/
theorem Quiet.same {x y : Chan} (h : Quiet x) (hh : y.held = x.held) (hf : y.func = x.func) (hd : y.drive = none ∨ y.drive = x.drive)
    (hp : y.pmu = .idle ∨ y.pmu = x.pmu) (hs : y.stroke = x.stroke) : Quiet y :=
  h.step (fun hy => hh ▸ hy) hf hd hp fun st hst => .inr ⟨st, hs ▸ hst, fun _ he => he⟩

/-- The same where the level drops. -/
theorem Quiet.undriven {x y : Chan} (h : Quiet x) (hh : y.held = x.held) (hf : y.func = x.func) (hd : y.drive = none)
    (hp : y.pmu = x.pmu) (hs : y.stroke = x.stroke) : Quiet y := h.same hh hf (.inl hd) (.inr hp) hs

/-- The same where the measurement ends. -/
theorem Quiet.unmeasured {x y : Chan} (h : Quiet x) (hh : y.held = x.held) (hf : y.func = x.func) (hd : y.drive = x.drive)
    (hp : y.pmu = .idle) (hs : y.stroke = x.stroke) : Quiet y := h.same hh hf (.inr hd) (.inl hp) hs

/-- The same where only the result of the stroke in progress changes. -/
theorem Quiet.result {x : Chan} (h : Quiet x) (f : Stroke → Stroke) (hf : ∀ st, (f st).events = st.events) :
    Quiet { x with stroke := x.stroke.map f } := by
  refine h.step id rfl (.inr rfl) (.inr rfl) fun st hst => ?_
  obtain ⟨st', hst', rfl⟩ := Option.map_eq_some_iff.1 hst
  exact .inr ⟨st', hst', fun e he => hf st' ▸ he⟩

/-- A held channel is in neither the PMU function nor the drive function. -/
theorem Quiet.func_ne {x : Chan} (h : Quiet x) (hx : x.held = true) : x.func ≠ .pmu ∧ x.func ≠ .driveCompare := by
  rcases (h hx).1 with e | e <;> simp [e]

/-- A channel that is not held is quiet. -/
theorem quiet_released (x : Chan) (h : x.held = false) : Quiet x := fun hx => absurd hx (by simp [h])

/-! ## Engines -/

theorem ModeLegal.of_eq {k : Nat} {e e' : Engine} (he : e'.mode = e.mode) (h : ModeLegal k e) : ModeLegal k e' := by
  unfold ModeLegal; rw [he]; exact h

theorem modeLegal_one (k : Nat) (e : Engine) (h : e.mode = 1) : ModeLegal k e := by
  unfold ModeLegal; rw [h]; omega

theorem mode_forEach {α : Type} (l : List α) (e : Engine) (f : α → Engine → Engine) (hf : ∀ a e, (f a e).mode = e.mode) :
    (forEach l e f).mode = e.mode := forEach_inv (P := fun x => x.mode = e.mode) rfl fun a x hx => (hf a x).trans hx

theorem mode_forUpTo (n : Nat) (e : Engine) (f : Nat → Engine → Engine) (hf : ∀ i e, (f i e).mode = e.mode) :
    (forUpTo n e f).mode = e.mode := forUpTo_inv (P := fun x => x.mode = e.mode) rfl fun i x hx => (hf i x).trans hx

@[simp] theorem mode_setPort (priv : Bool) (n : Nat) (v : Wide) (e : Engine) : (setPort priv n v e).mode = e.mode := rfl
@[simp] theorem mode_setG (n : Nat) (v : Word) (e : Engine) : (setG n v e).mode = e.mode := rfl
@[simp] theorem mode_installSeg (v : Word) (e : Engine) : (installSeg v e).mode = e.mode := by unfold installSeg; rfl
@[simp] theorem mode_emptyQueue (e : Engine) : (emptyQueue e).mode = e.mode := rfl
@[simp] theorem mode_restarted (fsp at_ : Word) (e : Engine) : (restarted fsp at_ e).mode = 1 := rfl
@[simp] theorem mode_setGroup (n w : Nat) (v : Wide) (e : Engine) : (setGroup n w v e).mode = e.mode :=
  mode_forUpTo _ _ _ fun _ _ => rfl

@[simp] theorem mode_deferGroup (priv : Bool) (sock n w : Nat) (e : Engine) : (deferGroup priv sock n w e).mode = e.mode := by
  unfold deferGroup
  split
  · rfl
  · exact mode_forUpTo _ _ _ fun _ _ => rfl

@[simp] theorem mode_landOp (o : Op) (e : Engine) : (landOp o e).mode = e.mode := by
  unfold landOp landDefers
  exact forEach_inv (P := fun x : Engine => x.mode = e.mode) (forEach_inv (P := fun x : Engine => x.mode = e.mode) rfl fun _ _ h => h) fun _ _ h => h

@[simp] theorem mode_writeSpecial (n : Nat) (v : Word) (e : Engine) : (writeSpecial n v e).mode = e.mode := by
  unfold writeSpecial; split <;> rfl

@[simp] theorem mode_writePort (n w : Nat) (v : Wide) (e : Engine) : (writePort n w v e).mode = e.mode := by
  unfold writePort; split <;> rfl

@[simp] theorem mode_writeMove (s : State) (k : Nat) (m : Move) (v : Wide) (e : Engine) : (writeMove s k m v e).mode = e.mode := by
  unfold writeMove
  dsimp only
  repeat' split
  all_goals simp

@[simp] theorem mode_writePhase (s : State) (k : Nat) (vs : List (Move × Wide)) (e : Engine) : (writePhase s k vs e).mode = e.mode :=
  mode_forEach _ _ _ fun _ _ => mode_writeMove ..

@[simp] theorem mode_installPhase (vs : List (Move × Wide)) (e : Engine) : (installPhase vs e).mode = e.mode :=
  mode_forEach _ _ _ fun _ _ => by split <;> simp

@[simp] theorem mode_armWaits (e : Engine) : (armWaits e).mode = e.mode := rfl

@[simp] theorem mode_popWord (e : Engine) : (popWord e).2.mode = e.mode := by
  unfold popWord
  repeat' split
  all_goals rfl

theorem modeLegal_entered (k : Nat) (f : EntryF) (bs : List Byte) (a : Nat) (e : Engine) : ModeLegal k (entered k f bs a e) := by
  show entryMode k f.vec ≤ 2 ∧ (entryMode k f.vec = 2 → 1024 ≤ k)
  unfold entryMode
  split
  · rename_i h; exact ⟨Nat.le_refl 2, fun _ => h.1⟩
  · exact ⟨by omega, by omega⟩

theorem fld_mode_le (w : Word) : fld w 25 24 ≤ 3 := by
  unfold fld; omega

theorem modeLegal_returned (k : Nat) (w : Nat → Word) (e : Engine) : ModeLegal k (returned k w e) := by
  have hle := fld_mode_le (w 1)
  show returnMode k (fld (w 1) 25 24) ≤ 2 ∧ (returnMode k (fld (w 1) 25 24) = 2 → 1024 ≤ k)
  unfold returnMode
  split
  · exact ⟨by omega, by omega⟩
  · constructor
    · omega
    · omega

theorem modeLegal_default (k : Nat) : ModeLegal k (engDefault k) := by
  unfold engDefault
  split
  · rename_i h; exact ⟨Nat.le_refl 2, fun _ => h⟩
  · exact modeLegal_one k _ rfl

end Sys2Proof.Machine
end

