-- ==== Sys2Proof/Laws/Memory.lean ====
section
/-! SUPPORT. What a read of memory gives after a store, and little-endian bytes. -/

-- One theorem at a time: elaborating them in parallel takes the memory of many threads.
set_option Elab.async false

namespace Sys2Proof.Machine

theorem memByte_setByte (k : Nat) (b : Byte) (s : State) (a : Nat) : memByte (setByte k b s) a = if a = k then b else memByte s a := by
  show smGet 0 (smPut 0 s.mem k b) a = _
  rw [smGet_smPut]
  rfl

/-- A byte after a store of bytes from a key upward: the stored byte inside the range, the old one outside. -/
theorem memByte_setBytes (bs : List Byte) : ∀ (k : Nat) (s : State) (a : Nat),
    memByte (setBytes k bs s) a = if k ≤ a ∧ a < k + bs.length then bs.getD (a - k) 0 else memByte s a := by
  induction bs with
  | nil => intro k s a; simp only [setBytes, List.length_nil]; rw [if_neg (by omega)]
  | cons b bs ih =>
    intro k s a
    simp only [setBytes, List.length_cons]
    rw [ih, memByte_setByte]
    by_cases h : a = k
    · subst h
      rw [if_neg (by omega), if_pos rfl, if_pos (by omega), Nat.sub_self]; rfl
    · rw [if_neg h]
      by_cases h2 : k + 1 ≤ a ∧ a < k + 1 + bs.length
      · rw [if_pos h2, if_pos (by omega), show a - k = (a - (k + 1)) + 1 by omega]; rfl
      · rw [if_neg h2, if_neg (by omega)]

theorem memByte_wipeMem (lo hi : Nat) (s : State) (a : Nat) :
    memByte (wipeMem lo hi s) a = if lo ≤ a ∧ a < hi then 0 else memByte s a := by
  simp only [memByte, wipeMem, smGet_smDrop, Bool.and_eq_true, decide_eq_true_eq]

theorem memBytes_congr (s t : State) (n : Nat) : ∀ k, (∀ a, k ≤ a → a < k + n → memByte t a = memByte s a) → memBytes t k n = memBytes s k n := by
  induction n with
  | zero => intro k _; rfl
  | succ n ih =>
    intro k h
    simp only [memBytes]
    rw [h k (Nat.le_refl k) (by omega), ih (k + 1) (fun a h1 h2 => h a (by omega) (by omega))]

theorem length_memBytes (s : State) (n : Nat) : ∀ k, (memBytes s k n).length = n := by
  induction n with
  | zero => intro k; rfl
  | succ n ih => intro k; simp [memBytes, ih]

/-- A read of the bytes just stored gives them back. -/
theorem memBytes_setBytes (bs : List Byte) : ∀ (k : Nat) (s : State), memBytes (setBytes k bs s) k bs.length = bs := by
  suffices h : ∀ (n : Nat) (bs : List Byte) (i k : Nat) (s : State), i + n = bs.length →
      memBytes (setBytes k bs s) (k + i) n = bs.drop i by
    intro k s; simpa using h bs.length bs 0 k s (by omega)
  intro n
  induction n with
  | zero => intro bs i k s h; rw [List.drop_eq_nil_of_le (by omega)]; rfl
  | succ n ih =>
    intro bs i k s h
    simp only [memBytes]
    rw [memByte_setBytes, if_pos (by omega), Nat.add_assoc, ih bs (i + 1) k s (by omega), List.drop_eq_getElem_cons (i := i) (by omega),
      show k + i - k = i by omega, List.getD_eq_getElem _ _ (by omega)]

theorem length_leBytes (n : Nat) : ∀ v, (leBytes n v).length = n := by
  induction n with
  | zero => intro v; rfl
  | succ n ih => intro v; simp [leBytes, ih]

theorem leNat_leBytes (n : Nat) : ∀ v, leNat (leBytes n v) = v % 256 ^ n := by
  induction n with
  | zero => intro v; simp [leBytes, leNat, Nat.mod_one]
  | succ n ih =>
    intro v
    simp only [leBytes, leNat, ih, BitVec.toNat_ofNat]
    rw [show (256 : Nat) ^ (n + 1) = 256 * 256 ^ n by rw [Nat.pow_succ, Nat.mul_comm], Nat.mod_mul]

theorem leNat_lt (bs : List Byte) : leNat bs < 256 ^ bs.length := by
  induction bs with
  | nil => simp [leNat]
  | cons b bs ih => simp only [leNat, List.length_cons, Nat.pow_succ]; have := b.isLt; omega

end Sys2Proof.Machine
end

