-- ==== Sys2Proof/Laws/Banks.lean ====
section
/-! SUPPORT. What a write through the firmware's port changes: the bytes it names, and nothing that the images of the update are judged by. -/

-- One theorem at a time: elaborating them in parallel takes the memory of many threads.
set_option Elab.async false

namespace Sys2Proof.Machine

/-- The state t differs from s in memory and in what a memory write, its line buffer, an error of the matrix, an interrupt or a journal step
changes. -/
def BankOnly (s t : State) : Prop :=
  t = { s with mem := t.mem, engines := t.engines, stale := t.stale, mramLines := t.mramLines, mramGap := t.mramGap,
               regs := t.regs, irqOut := t.irqOut, msixDue := t.msixDue, reports := t.reports, wms := t.wms,
               journal := t.journal }

theorem BankOnly.refl (s : State) : BankOnly s s := rfl
theorem BankOnly.trans {s t u : State} (h : BankOnly s t) (k : BankOnly t u) : BankOnly s u := by
  unfold BankOnly at *; rw [k, h]
theorem BankOnly.doms {s t : State} (h : BankOnly s t) : t.doms = s.doms := by rw [h]
theorem BankOnly.images {s t : State} (h : BankOnly s t) : t.images = s.images := by rw [h]
theorem BankOnly.chans {s t : State} (h : BankOnly s t) : t.chans = s.chans := by rw [h]
theorem BankOnly.up {s t : State} (h : BankOnly s t) (d : Nat) : domLost t d = domLost s d := by unfold domLost dom; rw [h.doms]
theorem BankOnly.keyFused {s t : State} (h : BankOnly s t) : t.keyFused = s.keyFused := by rw [h]
theorem BankOnly.lifecycle {s t : State} (h : BankOnly s t) : t.lifecycle = s.lifecycle := by rw [h]
theorem BankOnly.modImages {s t : State} (h : BankOnly s t) (f : Images → Images) : BankOnly (modImages f s) (modImages f t) :=
  (congrArg (Sys2Proof.Machine.modImages f) h).trans rfl
theorem PageOnly.bankOnly {s t : State} (h : PageOnly s t) : BankOnly s t := by
  unfold PageOnly at h; unfold BankOnly; rw [h]

theorem bankOnly_setBytes (bs : List Byte) : ∀ (k : Nat) (s : State), BankOnly s (setBytes k bs s) := by
  induction bs with
  | nil => exact fun _ _ => rfl
  | cons b bs ih => exact fun k s => BankOnly.trans (t := setByte k b s) rfl (ih (k + 1) _)
theorem bankOnly_wipeMem (lo hi : Nat) (s : State) : BankOnly s (wipeMem lo hi s) := rfl
theorem bankOnly_clearResv (k n : Nat) (s : State) : BankOnly s (clearResv k n s) :=
  forEach_inv (P := BankOnly s) (BankOnly.refl s) fun _ _ h => h.trans rfl
theorem bankOnly_keepStale (t : Target) (k n : Nat) (s : State) : BankOnly s (keepStale t k n s) := by
  unfold keepStale
  split
  · exact forUpTo_inv (P := BankOnly s) (BankOnly.refl s) fun _ _ h => h.trans rfl
  · rfl
theorem bankOnly_targetWrite (t : Target) (a : Nat) (bs : List Byte) (s : State) : BankOnly s (targetWrite t a bs s) :=
  ((bankOnly_keepStale ..).trans (bankOnly_clearResv ..)).trans (bankOnly_setBytes ..)
theorem bankOnly_mramPush (b a n : Nat) (s : State) : BankOnly s (mramPush b a n s) := rfl
theorem bankOnly_portWrite (x : Target) (a : Nat) (bs : List Byte) (s : State) : BankOnly s (portWrite x a bs s) := by
  unfold portWrite
  split
  · exact (bankOnly_targetWrite ..).trans (bankOnly_mramPush ..)
  · exact bankOnly_targetWrite ..
theorem bankOnly_bankPut (m : Master) (a : Nat) (bs : List Byte) (s : State) : BankOnly s (bankPut m a bs s) := by
  unfold bankPut
  split
  · exact bankOnly_portWrite ..
  · exact (pageOnly_mxError ..).bankOnly
theorem bankOnly_linePut (a : Nat) (v : Word) (s : State) : BankOnly s (linePut a v s) := bankOnly_bankPut ..
theorem bankOnly_markSlot (k : Nat) (b : Bool) (s : State) : BankOnly s (markSlot k b s) := bankOnly_linePut ..
theorem bankOnly_tongsCopy (src dst n : Nat) (s : State) : BankOnly s (tongsCopy src dst n s) := by
  unfold tongsCopy copyRange
  exact BankOnly.trans (forEach_inv (P := BankOnly s) (bankOnly_wipeMem ..) fun c x h => h.trans (bankOnly_setBytes [c.2] (dst + (c.1 - src)) x)) (bankOnly_mramPush ..)

/-! ## Bytes -/

theorem memByte_clearResv (k n : Nat) (s : State) (x : Nat) : memByte (clearResv k n s) x = memByte s x :=
  forEach_inv (P := fun t => memByte t x = memByte s x) rfl fun _ _ h => h
theorem memByte_keepStale (t : Target) (k n : Nat) (s : State) (x : Nat) : memByte (keepStale t k n s) x = memByte s x := by
  unfold keepStale
  split
  · exact forUpTo_inv (P := fun t => memByte t x = memByte s x) rfl fun _ _ h => h
  · rfl

/-- A write of a target changes the bytes it names. -/
theorem memByte_targetWrite (t : Target) (a : Nat) (bs : List Byte) (s : State) (x : Nat) : memByte (targetWrite t a bs s) x =
    if targetKey t a ≤ x ∧ x < targetKey t a + bs.length then bs.getD (x - targetKey t a) 0 else memByte s x := by
  unfold targetWrite
  rw [memByte_setBytes]
  split
  · rfl
  · rw [memByte_clearResv, memByte_keepStale]
theorem memByte_portWrite (t : Target) (a : Nat) (bs : List Byte) (s : State) (x : Nat) : memByte (portWrite t a bs s) x =
    if targetKey t a ≤ x ∧ x < targetKey t a + bs.length then bs.getD (x - targetKey t a) 0 else memByte s x := by
  unfold portWrite
  split
  · exact memByte_targetWrite ..
  · exact memByte_targetWrite ..

/-- A write into MRAM by the firmware is taken while D8 is up. -/
theorem bankOpen_mram {s : State} {a : Nat} (ha : 0x2000000 ≤ a ∧ a < 0x2800000) (h : domLost s 8 = false) :
    ∃ b, portTarget s (firmwareMaster s) a = .mram b ∧ bankOpen s (firmwareMaster s) a = true := by
  have hp : ∀ b, pathOk (firmwareMaster s) (.mram b) = true := fun b => by unfold firmwareMaster; split <;> rfl
  have ht : ∃ b, targetOf s a = .mram b := by
    unfold targetOf
    rcases Nat.lt_or_ge a 0x2400000 with h1 | h1
    · exact ⟨0, by repeat rw [if_neg (by omega)]
                   rw [if_pos ⟨ha.1, h1⟩]⟩
    · exact ⟨1, by repeat rw [if_neg (by omega)]
                   rw [if_pos ⟨h1, ha.2⟩]⟩
  obtain ⟨b, hb⟩ := ht
  have hq : portTarget s (firmwareMaster s) a = .mram b := by unfold portTarget; rw [hb, if_pos (hp b)]
  exact ⟨b, hq, by unfold bankOpen; rw [hq, h]; rfl⟩

/-- A word or a line that the firmware writes into MRAM. -/
theorem memByte_mramPut {s : State} {a : Nat} (ha : 0x2000000 ≤ a ∧ a < 0x2800000) (h : domLost s 8 = false) (bs : List Byte) (x : Nat) :
    memByte (bankPut (firmwareMaster s) a bs s) x = if a ≤ x ∧ x < a + bs.length then bs.getD (x - a) 0 else memByte s x := by
  obtain ⟨b, h1, h2⟩ := bankOpen_mram ha h
  unfold bankPut
  rw [if_pos h2, h1, memByte_portWrite]
  rfl

theorem mramWord_linePut {s : State} {a : Nat} (ha : 0x2000000 ≤ a ∧ a + 4 ≤ 0x2800000) (h : domLost s 8 = false) (v : Word) :
    mramWord (linePut a v s) a = v := by
  have hb : memBytes (linePut a v s) a 4 = leBytes 4 v.toNat := by
    have e := memBytes_congr (setBytes a (leBytes 4 v.toNat) s) (linePut a v s) 4 a (fun x h1 h2 => by
      unfold linePut
      rw [memByte_mramPut (by omega) h, memByte_setBytes])
    have e2 := memBytes_setBytes (leBytes 4 v.toNat) a s
    rw [length_leBytes] at e2
    rw [e, e2]
  unfold mramWord
  rw [hb, leNat_leBytes]
  exact BitVec.eq_of_toNat_eq (by simpa [w32] using v.isLt)
theorem mramWord_linePut_ne {s : State} {a c : Nat} (ha : 0x2000000 ≤ a ∧ a + 4 ≤ 0x2800000) (h : domLost s 8 = false) (v : Word) (hc : c + 4 ≤ a ∨ a + 4 ≤ c) :
    mramWord (linePut a v s) c = mramWord s c := by
  unfold mramWord linePut
  rw [memBytes_congr s _ 4 c (fun x h1 h2 => by rw [memByte_mramPut (by omega) h, length_leBytes, if_neg (by omega)])]

/-- A journal step writes its line in the journal area. -/
theorem memByte_putJournal {s : State} (h : domLost s 8 = false) (j : Journal) (st : Nat) {x : Nat} (hx : x < 0x2410000 ∨ 0x243FFC0 ≤ x) :
    memByte (putJournal j st s) x = memByte s x := by
  have hl : 0x2410000 ≤ journalLine j.line ∧ journalLine j.line + 64 ≤ 0x243FFC0 := by unfold journalLine; omega
  have hn : (journalBody j st ++ leBytes 2 (lineCrc (journalBody j st))).length = 64 := by simp [journalBody, length_leBytes]
  unfold putJournal
  rw [memByte_mramPut (by omega) h, hn, if_neg (by omega)]
theorem memByte_noteStep {s : State} (h : domLost s 8 = false) (j : Journal) {x : Nat} (hx : x < 0x2410000 ∨ 0x243FFC0 ≤ x) :
    memByte (noteStep j s) x = memByte s x := by
  unfold noteStep
  rw [memByte_wrReg]
  unfold raiseBit
  simp only [memByte, (pageOnly_raise ..).mem_eq]
  exact memByte_putJournal h _ _ hx

/-- A copy changes no byte outside its destination. -/
theorem memByte_tongsCopy (src dst n : Nat) (s : State) {x : Nat} (hx : x < dst ∨ dst + n ≤ x) : memByte (tongsCopy src dst n s) x = memByte s x := by
  unfold tongsCopy
  show memByte (copyRange src dst n s) x = memByte s x
  unfold copyRange
  have key : ∀ (l : List Host.Cell), (∀ c ∈ l, src ≤ c.1 ∧ c.1 < src + n) → ∀ t : State, memByte t x = memByte s x →
      memByte (forEach l t (fun c s => setByte (dst + (c.1 - src)) c.2 s)) x = memByte s x := by
    intro l
    induction l with
    | nil => exact fun _ _ h => h
    | cons c l ih =>
      intro hl t ht
      have hc := hl c (List.mem_cons_self ..)
      exact ih (fun d hd => hl d (List.mem_cons_of_mem _ hd)) _ (by rw [memByte_setByte, if_neg (by omega)]; exact ht)
  refine key _ (fun c hc => ?_) _ (by rw [memByte_wipeMem, if_neg (by omega)])
  simpa using (List.mem_filter.mp hc).2

/-! ## Steps of an update (18 R457, R458) -/

theorem bankOnly_putJournal (j : Journal) (st : Nat) (s : State) : BankOnly s (putJournal j st s) := bankOnly_bankPut ..
theorem bankOnly_noteStep (j : Journal) (s : State) : BankOnly s (noteStep j s) := by
  have hj : ∀ (x : State) (j : Option Journal), BankOnly x { x with journal := j } := fun _ _ => rfl
  have hr : ∀ (x : State) (p k : Nat) (v : Word), BankOnly x (wrReg p k v x) := fun _ _ _ _ => rfl
  unfold noteStep raiseBit
  exact (((bankOnly_putJournal ..).trans (hj _ _)).trans (pageOnly_raise ..).bankOnly).trans (hr ..)
theorem bankOnly_openJournal (j : Journal) (s : State) : BankOnly s (openJournal j s) := (bankOnly_noteStep ..).trans (bankOnly_markSlot ..)
theorem bankOnly_copyChunks (j : Journal) (n : Nat) (s : State) : BankOnly s (copyChunks j n s) :=
  forUpTo_inv (P := BankOnly s) (BankOnly.refl s) fun _ _ h => (h.trans (bankOnly_tongsCopy ..)).trans (bankOnly_noteStep ..)

/-- The slots after the image of a journal is verified. -/
def verifiedImages (j : Journal) (i : Images) : Images :=
  let k := slotKey j.comp j.slotB
  { i with installed := k :: i.installed.filter (· != k), slots := smPut none i.slots k (some j.manifest) }
theorem bankOnly_slotVerified (j : Journal) (s : State) : BankOnly (modImages (verifiedImages j) s) (slotVerified j s) :=
  (bankOnly_markSlot ..).trans (bankOnly_noteStep ..)

/-- The bytes of the control area and of the line of marks. -/
def controlByte (x : Nat) : Prop := (0x2400000 ≤ x ∧ x < 0x2410000) ∨ (0x243FFC0 ≤ x ∧ x < 0x2440000)

theorem mramWord_congr {s t : State} {a : Nat} (h : ∀ x, a ≤ x → x < a + 4 → memByte t x = memByte s x) : mramWord t a = mramWord s a := by
  unfold mramWord
  rw [memBytes_congr s t 4 a h]
theorem memByte_copyChunks {s : State} (h : domLost s 8 = false) (j : Journal) (n : Nat)
    (hd : slotContent j.comp j.slotB - 0x1000 + j.len ≤ 0x2400000 ∨ 0x2440000 ≤ slotContent j.comp j.slotB - 0x1000) {x : Nat} (hx : controlByte x) :
    memByte (copyChunks j n s) x = memByte s x := by
  refine (forUpTo_inv (P := fun t => BankOnly s t ∧ memByte t x = memByte s x) ⟨BankOnly.refl s, rfl⟩ fun i t ht => ?_).2
  have hc := (ht.1.trans (bankOnly_tongsCopy (j.src + 0x10000 * (j.chunks + i)) (slotContent j.comp j.slotB - 0x1000 + 0x10000 * (j.chunks + i))
    (min j.len (0x10000 * (j.chunks + i) + 0x10000) - 0x10000 * (j.chunks + i)) t))
  refine ⟨hc.trans (bankOnly_noteStep ..), ?_⟩
  unfold controlByte at hx
  rw [memByte_noteStep (by rw [hc.up]; exact h) _ (by omega), memByte_tongsCopy _ _ _ _ (by omega)]
  exact ht.2

/-- Steps 1 to 3 leave the control area, and the mark of the slot is taken back. -/
theorem mramWord_verified {s w : State} (h : domLost s 8 = false) (j : Journal) (n c : Nat)
    (hd : slotContent j.comp j.slotB - 0x1000 + j.len ≤ 0x2400000 ∨ 0x2440000 ≤ slotContent j.comp j.slotB - 0x1000)
    (hw : w = slotVerified { j with chunks := n, step := c } (copyChunks j n (openJournal j s))) :
    (∀ a, 0x2400000 ≤ a → a + 4 ≤ 0x2410000 → mramWord w a = mramWord s a) ∧
    mramWord w markLine = setBit (setBit (mramWord s markLine) (slotKey j.comp j.slotB) true) (slotKey j.comp j.slotB) false := by
  obtain ⟨x, hx⟩ : ∃ x, x = noteStep { j with was := unverified s (slotKey j.comp j.slotB) } s := ⟨_, rfl⟩
  obtain ⟨y, hy⟩ : ∃ y, y = markSlot (slotKey j.comp j.slotB) true x := ⟨_, rfl⟩
  obtain ⟨z, hz⟩ : ∃ z, z = modImages (verifiedImages { j with chunks := n, step := c }) (copyChunks j n y) := ⟨_, rfl⟩
  obtain ⟨v, hv⟩ : ∃ v, v = markSlot (slotKey j.comp j.slotB) false z := ⟨_, rfl⟩
  have e : w = noteStep { j with chunks := n, step := 3 } v := by rw [hw, hv, hz, hy, hx]; rfl
  have bx : BankOnly s x := hx ▸ bankOnly_noteStep ..
  have bY : BankOnly x y := hy ▸ bankOnly_markSlot ..
  have ux : domLost x 8 = false := (bx.up 8).trans h
  have uy : domLost y 8 = false := (bY.up 8).trans ux
  have uz : domLost z 8 = false := by rw [hz]; exact ((bankOnly_copyChunks j n y).up 8).trans uy
  have uv : domLost v 8 = false := by rw [hv]; exact ((bankOnly_markSlot _ _ z).up 8).trans uz
  have mx : ∀ b, controlByte b → memByte x b = memByte s b := fun b hb => by
    unfold controlByte at hb; rw [hx]; exact memByte_noteStep h _ (by omega)
  have mz : ∀ b, controlByte b → memByte z b = memByte y b := fun b hb => by
    rw [hz]; exact memByte_copyChunks uy j n hd hb
  have mw : ∀ b, controlByte b → memByte w b = memByte v b := fun b hb => by
    unfold controlByte at hb; rw [e]; exact memByte_noteStep uv _ (by omega)
  have hm : (0x2000000 ≤ markLine ∧ markLine + 4 ≤ 0x2800000) := by decide
  constructor
  · intro a h1 h2
    have hc : ∀ b, a ≤ b → b < a + 4 → controlByte b := fun b h3 h4 => by unfold controlByte; omega
    rw [mramWord_congr (fun b h3 h4 => mw b (hc b h3 h4)), hv, markSlot, mramWord_linePut_ne hm uz _ (by unfold markLine; omega),
      mramWord_congr (fun b h3 h4 => mz b (hc b h3 h4)), hy, markSlot, mramWord_linePut_ne hm ux _ (by unfold markLine; omega),
      mramWord_congr (fun b h3 h4 => mx b (hc b h3 h4))]
  · have hc : ∀ b, markLine ≤ b → b < markLine + 4 → controlByte b := fun b h3 h4 => by unfold controlByte; unfold markLine at h3 h4; omega
    rw [mramWord_congr (fun b h3 h4 => mw b (hc b h3 h4)), hv, markSlot, mramWord_linePut hm uz, mramWord_congr (fun b h3 h4 => mz b (hc b h3 h4)),
      hy, markSlot, mramWord_linePut hm ux, mramWord_congr (fun b h3 h4 => mx b (hc b h3 h4))]

/-- Steps 1 to 3 leave the channels. -/
theorem chans_verified (j : Journal) (n c : Nat) (s : State) :
    (slotVerified { j with chunks := n, step := c } (copyChunks j n (openJournal j s))).chans = s.chans := by
  have h := ((bankOnly_openJournal j s).trans (bankOnly_copyChunks j n _)).chans
  have k := (bankOnly_slotVerified { j with chunks := n, step := c } (copyChunks j n (openJournal j s))).chans
  exact k.trans h

/-- What the choice of a combination rests on. -/
theorem comboFault_congr {s t : State} (hi : t.images = s.images) (hk : t.keyFused = s.keyFused) (hl : t.lifecycle = s.lifecycle)
    (h1 : mramWord t (comboLine + 4) = mramWord s (comboLine + 4)) (h2 : mramWord t markLine = mramWord s markLine) (c : Word) :
    comboFault t c = comboFault s c := by
  have a1 : ∀ z b, slotManifest t z b = slotManifest s z b := fun z b => by unfold slotManifest unverified; rw [hi, h2]
  have a2 : ∀ z, comboManifest t c z = comboManifest s c z := fun z => by unfold comboManifest; rw [hi, a1]
  have a3 : ∀ q, quarterIn t c q = quarterIn s c q := fun q => by unfold quarterIn; rw [hi, hk, hl]
  have a4 : activated t = activated s := by unfold activated; rw [h1]
  have a5 : ∀ x y, pairFault t c x y = pairFault s c x y := fun x y => by
    unfold pairFault higherOf
    rw [a2, a2, a4]
  have a6 : comboParts t c = comboParts s c := by unfold comboParts; rw [show quarterIn t c = quarterIn s c from funext a3]
  have a7 : comboPairs t c = comboPairs s c := by unfold comboPairs; simp only [a3]
  unfold comboFault
  rw [a6, a7]
  simp only [a2, a5]

/-- Step 4 judges the combination by the slots after step 3 and by what the control area held before step 1. -/
theorem journalTested_verified {s w : State} (h : domLost s 8 = false) (j i : Journal) (n c : Nat)
    (hd : slotContent j.comp j.slotB - 0x1000 + j.len ≤ 0x2400000 ∨ 0x2440000 ≤ slotContent j.comp j.slotB - 0x1000)
    (hw : w = slotVerified { j with chunks := n, step := c } (copyChunks j n (openJournal j s)))
    (hm : setBit (setBit (mramWord s markLine) (slotKey j.comp j.slotB) true) (slotKey j.comp j.slotB) false = mramWord s markLine) :
    journalTested i w = journalTested i (modImages (verifiedImages j) s) := by
  obtain ⟨m1, m2⟩ := mramWord_verified h j n c hd hw
  have b : BankOnly (modImages (verifiedImages j) s) w := by
    rw [hw]
    have hv : verifiedImages { j with chunks := n, step := c } = verifiedImages j := rfl
    have := bankOnly_slotVerified { j with chunks := n, step := c } (copyChunks j n (openJournal j s))
    rw [hv] at this
    exact (((bankOnly_openJournal j s).trans (bankOnly_copyChunks j n _)).modImages _).trans this
  have e : upSlots w = upSlots (modImages (verifiedImages j) s) := m1 comboLine (by decide) (by decide)
  have e1 : mramWord w (comboLine + 4) = mramWord (modImages (verifiedImages j) s) (comboLine + 4) := m1 _ (by decide) (by decide)
  have e2 : mramWord w markLine = mramWord (modImages (verifiedImages j) s) markLine := by rw [m2, hm]; rfl
  unfold journalTested
  dsimp only
  split
  · rw [show upSlots (modImages (fun i => { i with host := none }) w) = upSlots w from rfl, e]
    rw [comboFault_congr (t := modImages (fun i => { i with host := none }) w)
      (s := modImages (fun i => { i with host := none }) (modImages (verifiedImages j) s)) (by unfold modImages; simp only [b.images]; rfl) b.keyFused b.lifecycle e1 e2]
    rfl
  · rw [e, comboFault_congr b.images b.keyFused b.lifecycle e1 e2]

end Sys2Proof.Machine
end

