-- ==== Sys2Proof/Laws/Clock.lean ====
section
/-! SUPPORT. The stroke counts and boundaries of the timebases are left alone by everything that channels do at a boundary. -/

-- One theorem at a time: elaborating them in parallel takes the memory of many threads.
set_option Elab.async false

namespace Sys2Proof.Machine

/-- A cluster's timebase without the marks that the tiles forward to it. -/
def clk (s : State) (k : Nat) : Timebase := { base s k with marks := [] }

theorem clk_of_base {s t : State} (h : ∀ k, base t k = base s k) : clk t = clk s := by
  funext k; simp [clk, h]

theorem clk_of_bases {s t : State} (h : t.bases = s.bases) : clk t = clk s := clk_of_base (fun k => by unfold base; rw [h])

theorem clk_pageOnly {s t : State} (h : PageOnly s t) : clk t = clk s := clk_of_base (fun k => by unfold base; rw [h.bases_eq])

@[simp] theorem clk_tick (s : State) : clk (tick s) = clk s := clk_of_base (by simp)
@[simp] theorem clk_reach (n : Nat) (s : State) : clk (reach n s) = clk s := clk_of_base (by simp)
@[simp] theorem clk_wrReg (p o : Nat) (v : Word) (s : State) : clk (wrReg p o v s) = clk s := clk_of_base (by simp)
@[simp] theorem clk_modReg (p o : Nat) (f : Word → Word) (s : State) : clk (modReg p o f s) = clk s := clk_of_base (by simp)
@[simp] theorem clk_countReg (p o n : Nat) (s : State) : clk (countReg p o n s) = clk s := clk_of_base (by simp)
@[simp] theorem clk_setChan (c : Nat) (x : Chan) (s : State) : clk (setChan c x s) = clk s := clk_of_base (by simp)
@[simp] theorem clk_modChan (c : Nat) (f : Chan → Chan) (s : State) : clk (modChan c f s) = clk s := clk_of_base (by simp)
@[simp] theorem clk_modLane (c : Nat) (f : Lane → Lane) (s : State) : clk (modLane c f s) = clk s := clk_of_base (by simp)
@[simp] theorem clk_report (r : Report) (s : State) : clk (report r s) = clk s := clk_of_base (by simp)
@[simp] theorem clk_raiseBit (p i : Nat) (s : State) : clk (raiseBit p i s) = clk s := clk_pageOnly (pageOnly_raiseBit ..)
@[simp] theorem clk_captureAs (p c o d cl sh g k : Nat) (s : State) : clk (captureAs p c o d cl sh g k s) = clk s := clk_pageOnly (pageOnly_captureAs ..)
@[simp] theorem clk_capture (p c o d : Nat) (s : State) : clk (capture p c o d s) = clk s := clk_pageOnly (pageOnly_capture ..)
@[simp] theorem clk_wmSample (p n v : Nat) (s : State) : clk (wmSample p n v s) = clk s := clk_pageOnly (pageOnly_wmSample ..)

theorem clk_forUpTo {n : Nat} {f : Nat → State → State} {s : State} (h : ∀ i s, clk (f i s) = clk s) : clk (forUpTo n s f) = clk s := by
  induction n with
  | zero => rfl
  | succ n ih => exact (h ..).trans ih

/-- Marks alone are added to a timebase. -/
theorem clk_modBase_marks (j : Nat) (f : Timebase → Timebase) (s : State) (h : ∀ b, { f b with marks := [] } = { b with marks := [] }) :
    clk (modBase j f s) = clk s := by
  funext k
  unfold clk
  by_cases hk : k = j
  · subst hk; simp [h]
  · rw [base_modBase_ne hk]

@[simp] theorem clk_strmFlag (c b irq : Nat) (s : State) : clk (strmFlag c b irq s) = clk s := by
  unfold strmFlag
  try dsimp only
  all_goals simp
@[simp] theorem clk_timingError (c : Nat) (s : State) : clk (timingError c s) = clk s := by
  unfold timingError
  try dsimp only
  all_goals simp
@[simp] theorem clk_stopStream (c : Nat) (s : State) : clk (stopStream c s) = clk s := by
  unfold stopStream
  try dsimp only
  all_goals simp
@[simp] theorem clk_abortPmu (c : Nat) (s : State) : clk (abortPmu c s) = clk s := by
  unfold abortPmu
  try dsimp only
  repeat' split
  all_goals simp
@[simp] theorem clk_enterHold (c : Nat) (p : Phase) (s : State) : clk (enterHold c p s) = clk s := by
  unfold enterHold
  try dsimp only
  all_goals simp
@[simp] theorem clk_rampOver (c : Nat) (atBoundary : Bool) (s : State) : clk (rampOver c atBoundary s) = clk s := by
  unfold rampOver
  try dsimp only
  repeat' split
  all_goals simp
@[simp] theorem clk_startForce (c : Nat) (s : State) : clk (startForce c s) = clk s := by
  unfold startForce
  try dsimp only
  all_goals simp
@[simp] theorem clk_dropHeld (c : Nat) (s : State) : clk (dropHeld c s) = clk s := by
  unfold dropHeld
  exact clk_of_bases rfl
@[simp] theorem clk_startSwitch (c : Nat) (old : Word) (was : Forced) (atBoundary : Bool) (s : State) :
    clk (startSwitch c old was atBoundary s) = clk s := by
  unfold startSwitch
  try dsimp only
  repeat' split
  all_goals simp
@[simp] theorem clk_enterFunction (c : Nat) (s : State) : clk (enterFunction c s) = clk s := by
  unfold enterFunction
  try dsimp only
  repeat' split
  all_goals simp
@[simp] theorem clk_switchAtBoundary (c : Nat) (s : State) : clk (switchAtBoundary c s) = clk s := by
  unfold switchAtBoundary
  try dsimp only
  repeat' split
  all_goals simp
@[simp] theorem clk_switchAtStop (c : Nat) (s : State) : clk (switchAtStop c s) = clk s := by
  unfold switchAtStop
  try dsimp only
  repeat' split
  all_goals simp
@[simp] theorem clk_markMismatch (c : Nat) (s : State) : clk (markMismatch c s) = clk s := by
  unfold markMismatch
  try dsimp only
  all_goals simp
@[simp] theorem clk_checkMark (y : TileMark) (stops : Bool) (s : State) : clk (checkMark y stops s) = clk s := by
  unfold checkMark
  extract_lets p a mark idx act q s1 s2 s3
  have h1 : clk s1 = clk s := clk_of_bases rfl
  have h2 : clk s2 = clk s := clk_of_bases rfl
  have h3 : clk s3 = clk s := (clk_markMismatch ..).trans h2
  split
  · rfl
  · split
    · exact (clk_raiseBit ..).trans ((clk_modReg ..).trans h1)
    · split
      · exact h2
      · split
        · exact (clk_modChan ..).trans h3
        · exact h3
theorem clk_forEach {α : Type} {l : List α} {f : α → State → State} {s : State} (h : ∀ a s, clk (f a s) = clk s) :
    clk (forEach l s f) = clk s := by
  unfold forEach
  induction l generalizing s with
  | nil => rfl
  | cons a l ih => exact ih.trans (h a s)
@[simp] theorem clk_settleMarks (c : Nat) (s : State) : clk (settleMarks c s) = clk s := by
  unfold settleMarks
  rw [clk_modChan, clk_forEach (fun y s => clk_checkMark y false s), clk_modBase_marks]
  exact fun b => rfl
@[simp] theorem clk_setupStream (c : Nat) (s : State) : clk (setupStream c s) = clk s := by
  unfold setupStream
  extract_lets p s0 fin count g pm s1 s2 s3
  have h3 : clk s3 = clk s := (clk_modLane ..).trans ((clk_modChan ..).trans (clk_settleMarks ..))
  clear_value s3
  split
  · simp
  · exact (clk_of_bases rfl).trans h3
@[simp] theorem clk_pmuChange (c : Nat) (was : Forced) (s : State) : clk (pmuChange c was s) = clk s := by
  unfold pmuChange
  try dsimp only
  repeat' split
  all_goals simp
@[simp] theorem clk_settingsChange (c : Nat) (oldFunc oldStrm : Word) (was : Forced) (atBoundary : Bool) (s : State) :
    clk (settingsChange c oldFunc oldStrm was atBoundary s) = clk s := by
  unfold settingsChange
  try dsimp only
  repeat' split
  all_goals simp
@[simp] theorem clk_holdForce (c : Nat) (s : State) : clk (holdForce c s) = clk s := by
  unfold holdForce
  try dsimp only
  repeat' split
  all_goals simp
theorem clk_changeSettings (c : Nat) (atBoundary : Bool) (f : State → State) (s : State) (hf : ∀ s, clk (f s) = clk s) :
    clk (changeSettings c atBoundary f s) = clk s := by
  unfold changeSettings
  rw [clk_settingsChange, hf, clk_holdForce]
@[simp] theorem clk_takeEffect (c : Nat) (atBoundary : Bool) (s : State) : clk (takeEffect c atBoundary s) = clk s :=
  clk_changeSettings c atBoundary _ s fun s => clk_dropHeld c s
@[simp] theorem clk_pmuTriggered (c : Nat) (s : State) : clk (pmuTriggered c s) = clk s := by
  unfold pmuTriggered
  try dsimp only
  all_goals simp
@[simp] theorem clk_pmuEvent (c : Nat) (s : State) : clk (pmuEvent c s) = clk s := by
  unfold pmuEvent
  try dsimp only
  repeat' split
  all_goals simp
@[simp] theorem clk_fillSlot (c reg : Nat) (fails : Bool) (s : State) : clk (fillSlot c reg fails s) = clk s := by
  unfold fillSlot
  try dsimp only
  all_goals simp
@[simp] theorem clk_strobeRegion (c : Nat) (st : Stroke) (t : Nat) (volts : Int) (s : State) : clk (strobeRegion c st t volts s).2 = clk s := by
  unfold strobeRegion
  split <;> simp
@[simp] theorem clk_applyEvent (c : Nat) (e : PalEvent) (st : Stroke) (volts : Int) (s : State) : clk (applyEvent c e st volts s) = clk s := by
  unfold applyEvent
  try dsimp only
  repeat' split
  all_goals simp
@[simp] theorem clk_watchWindow (c : Nat) (volts : Int) (strayed : Bool) (s : State) : clk (watchWindow c volts strayed s) = clk s := by
  unfold watchWindow
  simp
@[simp] theorem clk_nextEvent (c : Nat) (volts : Int) (strayed : Bool) (s : State) : clk (nextEvent c volts strayed s) = clk s := by
  unfold nextEvent
  try dsimp only
  repeat' split
  all_goals simp
@[simp] theorem clk_remainingEvents (c n : Nat) (s : State) : clk (remainingEvents c n s) = clk s := by
  induction n generalizing s with
  | zero => rfl
  | succ n ih =>
    unfold remainingEvents
    split
    · rfl
    · split <;> simp [ih]
@[simp] theorem clk_eventsBefore (c n : Nat) (s : State) : clk (eventsBefore c n s) = clk s := by
  induction n generalizing s with
  | zero => rfl
  | succ n ih =>
    unfold eventsBefore
    split
    · rfl
    · split
      · rfl
      · split <;> simp [ih]
@[simp] theorem clk_trip (c cause key : Nat) (s : State) : clk (trip c cause key s) = clk s := by
  unfold trip
  try dsimp only
  repeat' split
  all_goals simp
@[simp] theorem clk_lateEvents (c : Nat) (s : State) : clk (lateEvents c s) = clk s := by
  unfold lateEvents
  repeat' split
  all_goals simp
@[simp] theorem clk_endStroke (c : Nat) (s : State) : clk (endStroke c s) = clk s := by
  unfold endStroke
  try dsimp only
  all_goals simp
@[simp] theorem clk_tileMismatch (c : Nat) (s : State) : clk (tileMismatch c s) = clk s := by
  unfold tileMismatch
  try dsimp only
  all_goals simp
@[simp] theorem clk_compareMarks (c : Nat) (cfg : MarkConfig) (lane : Option Word) (s : State) : clk (compareMarks c cfg lane s) = clk s := by
  unfold compareMarks
  try dsimp only
  repeat' split
  all_goals first | (simp; done) | simp [clk_modBase_marks]
@[simp] theorem clk_tileMark (c : Nat) (y : Symbol) (s : State) : clk (tileMark c y s) = clk s := by
  unfold tileMark
  try dsimp only
  repeat' split
  all_goals simp
@[simp] theorem clk_starve (c : Nat) (s : State) : clk (starve c s) = clk s := by
  unfold starve
  try dsimp only
  all_goals simp
@[simp] theorem clk_blurStrobe (c : Nat) (f : Word) (st : Stroke) (s : State) : clk (blurStrobe c f st s) = clk s := by
  unfold blurStrobe
  try dsimp only
  repeat' split
  all_goals simp
@[simp] theorem clk_palStroke (c : Nat) (y : Symbol) (s : State) : clk (palStroke c y s) = clk s := by
  unfold palStroke
  try dsimp only
  repeat' split
  all_goals simp
@[simp] theorem clk_pmuStroke (c : Nat) (y : Symbol) (s : State) : clk (pmuStroke c y s) = clk s := by
  unfold pmuStroke
  try dsimp only
  repeat' split
  all_goals simp
@[simp] theorem clk_takeSymbol (c : Nat) (s : State) : clk (takeSymbol c s) = clk s := by
  unfold takeSymbol
  try dsimp only
  repeat' split
  all_goals simp
@[simp] theorem clk_streamAtBoundary (c : Nat) (s : State) : clk (streamAtBoundary c s) = clk s := by
  unfold streamAtBoundary
  try dsimp only
  repeat' split
  all_goals simp
@[simp] theorem clk_senseEdge (c : Nat) (s : State) : clk (senseEdge c s) = clk s := by
  unfold senseEdge
  try dsimp only
  all_goals simp
@[simp] theorem clk_channelEdge_switchThen (c : Nat) (s : State) : clk (channelEdge.switchThen c s) = clk s := by
  unfold channelEdge.switchThen
  try dsimp only
  repeat' split
  all_goals simp
@[simp] theorem clk_channelEdge (c : Nat) (s : State) : clk (channelEdge c s) = clk s := by
  unfold channelEdge
  try dsimp only
  all_goals simp
@[simp] theorem clk_channelStroke (c : Nat) (s : State) : clk (channelStroke c s) = clk s := by
  unfold channelStroke
  try dsimp only
  repeat' split
  all_goals simp

end Sys2Proof.Machine
end

