-- ==== Sys2Proof/Laws/KeepsPins.lean ====
section
/-! SUPPORT. What every operation of the pin channel, the Palette, Patina and fail capture keeps (Safety.Keeps). -/

-- One theorem at a time: elaborating them in parallel takes the memory of many threads.
set_option Elab.async false
set_option linter.unusedTactic false
set_option linter.unreachableTactic false

namespace Sys2Proof.Machine

theorem keeps_setBase {r : State} (k : Nat) (x : Timebase) {s : State} (h : Keeps r s) :
    Keeps r (setBase k x s) := by
  unfold setBase
  repeat' first
    | with_reducible (first | assumption)
    | with_reducible apply keeps_mk

theorem keeps_modBase {r : State} (k : Nat) (f : Timebase → Timebase) {s : State} (h : Keeps r s) :
    Keeps r (modBase k f s) := by
  unfold modBase
  repeat' first
    | with_reducible (first | assumption | apply keeps_setBase)

theorem keeps_setDom {r : State} (d : Nat) (x : Domain) {s : State} (h : Keeps r s) :
    Keeps r (setDom d x s) := by
  unfold setDom
  repeat' first
    | with_reducible (first | assumption)
    | with_reducible apply keeps_mk

theorem keeps_setLane {r : State} (l : Nat) (x : Lane) {s : State} (h : Keeps r s) :
    Keeps r (setLane l x s) := by
  unfold setLane
  repeat' first
    | with_reducible (first | assumption)
    | with_reducible apply keeps_mk

theorem keeps_modLane {r : State} (l : Nat) (f : Lane → Lane) {s : State} (h : Keeps r s) :
    Keeps r (modLane l f s) := by
  unfold modLane
  repeat' first
    | with_reducible (first | assumption | apply keeps_setLane)

theorem keeps_setStore {r : State} (i : Nat) (x : CtlStore) {s : State} (h : Keeps r s) :
    Keeps r (setStore i x s) := by
  unfold setStore
  repeat' first
    | with_reducible (first | assumption)
    | with_reducible apply keeps_mk

theorem keeps_modStore {r : State} (i : Nat) (f : CtlStore → CtlStore) {s : State} (h : Keeps r s) :
    Keeps r (modStore i f s) := by
  unfold modStore
  repeat' first
    | with_reducible (first | assumption | apply keeps_setStore)

theorem keeps_setSeq {r : State} (i : Nat) (x : Seq) {s : State} (h : Keeps r s) :
    Keeps r (setSeq i x s) := by
  unfold setSeq
  repeat' first
    | with_reducible (first | assumption)
    | with_reducible apply keeps_mk

theorem keeps_setFail {r : State} (k : Nat) (x : FailPipe) {s : State} (h : Keeps r s) :
    Keeps r (setFail k x s) := by
  unfold setFail
  repeat' first
    | with_reducible (first | assumption)
    | with_reducible apply keeps_mk

theorem keeps_modFail {r : State} (k : Nat) (f : FailPipe → FailPipe) {s : State} (h : Keeps r s) :
    Keeps r (modFail k f s) := by
  unfold modFail
  repeat' first
    | with_reducible (first | assumption | apply keeps_setFail)

theorem keeps_setWeld {r : State} (k : Nat) (x : Weld) {s : State} (h : Keeps r s) :
    Keeps r (setWeld k x s) := by
  unfold setWeld
  repeat' first
    | with_reducible (first | assumption)
    | with_reducible apply keeps_mk

theorem keeps_modWeld {r : State} (k : Nat) (f : Weld → Weld) {s : State} (h : Keeps r s) :
    Keeps r (modWeld k f s) := by
  unfold modWeld
  repeat' first
    | with_reducible (first | assumption | apply keeps_setWeld)

theorem keeps_wrRole {r : State} (easel : Bool) (page : Nat) (off : Nat) (v : Word) {s : State} (h : Keeps r s) :
    Keeps r (wrRole easel page off v s) := by
  unfold wrRole
  repeat' first
    | with_reducible (first | assumption)
    | with_reducible apply keeps_mk

theorem keeps_wrReg {r : State} (page : Nat) (off : Nat) (v : Word) {s : State} (h : Keeps r s) :
    Keeps r (wrReg page off v s) := by
  unfold wrReg
  repeat' first
    | with_reducible (first | assumption | apply keeps_wrRole)

theorem keeps_modReg {r : State} (page : Nat) (off : Nat) (f : Word → Word) {s : State} (h : Keeps r s) :
    Keeps r (modReg page off f s) := by
  unfold modReg
  repeat' first
    | with_reducible (first | assumption | apply keeps_wrReg)

theorem keeps_countReg {r : State} (page : Nat) (off : Nat) (n : Nat) {s : State} (h : Keeps r s) :
    Keeps r (countReg page off n s) := by
  unfold countReg
  repeat' first
    | intro _ | with_reducible (first | assumption | apply keeps_modReg)

theorem keeps_msixAsk {r : State} (page : Nat) {s : State} (h : Keeps r s) :
    Keeps r (msixAsk page s) := by
  unfold msixAsk
  repeat' first
    | intro _ | with_reducible (first | assumption | apply keeps_ite)
    | split | with_reducible apply keeps_mk

theorem keeps_noteIrq {r : State} (page : Nat) {s : State} (h : Keeps r s) :
    Keeps r (noteIrq page s) := by
  unfold noteIrq
  repeat' first
    | intro _ | with_reducible (first | assumption | apply keeps_msixAsk | apply keeps_ite)
    | (extract_lets +onlyGivenNames x
       first
       | (refine (fun (hx : Keeps r x) => ?_) ?_; (on_goal 1 => clear_value x); (on_goal 2 => dsimp -zeta only [x]))
       | clear_value x)
    | split | with_reducible apply keeps_mk

theorem keeps_noteAck {r : State} (page : Nat) {s : State} (h : Keeps r s) :
    Keeps r (noteAck page s) := by
  unfold noteAck
  repeat' first
    | intro _ | with_reducible (first | assumption | apply keeps_msixAsk | apply keeps_noteIrq | apply keeps_ite)
    | split

theorem keeps_raise {r : State} (page : Nat) (bits : Word) {s : State} (h : Keeps r s) :
    Keeps r (raise page bits s) := by
  unfold raise
  repeat' first
    | intro _ | with_reducible (first | assumption | apply keeps_noteIrq | apply keeps_modReg)

theorem keeps_raiseBit {r : State} (page : Nat) (i : Nat) {s : State} (h : Keeps r s) :
    Keeps r (raiseBit page i s) := by
  unfold raiseBit
  repeat' first
    | with_reducible (first | assumption | apply keeps_raise)

theorem keeps_raiseReject {r : State} (page : Nat) {s : State} (h : Keeps r s) :
    Keeps r (raiseReject page s) := by
  unfold raiseReject
  repeat' first
    | with_reducible (first | assumption | apply keeps_raiseBit)
    | split

theorem keeps_report {r : State} (a0 : Report) {s : State} (h : Keeps r s) :
    Keeps r (report a0 s) := by
  unfold report
  repeat' first
    | with_reducible (first | assumption)
    | with_reducible apply keeps_mk

theorem keeps_captureOnly {r : State} (page : Nat) (cause : Nat) (off : Nat) (detail : Nat) {s : State} (h : Keeps r s) :
    Keeps r (captureOnly page cause off detail s) := by
  unfold captureOnly
  repeat' first
    | intro _ | with_reducible (first | assumption | apply keeps_noteIrq | apply keeps_modReg | apply keeps_ite)
    | split

theorem keeps_captureAs {r : State} (page : Nat) (cause : Nat) (off : Nat) (detail : Nat) (cls : Nat) (show_ : Nat) (group : Nat) (key : Nat) {s : State} (h : Keeps r s) :
    Keeps r (captureAs page cause off detail cls show_ group key s) := by
  unfold captureAs
  repeat' first
    | with_reducible (first | assumption | apply keeps_report | apply keeps_captureOnly)

theorem keeps_capture {r : State} (page : Nat) (cause : Nat) (off : Nat) (detail : Nat) {s : State} (h : Keeps r s) :
    Keeps r (capture page cause off detail s) := by
  unfold capture
  repeat' first
    | with_reducible (first | assumption | apply keeps_captureAs)

theorem keeps_rejectWrite {r : State} (page : Nat) (off : Nat) (m : Master) {s : State} (h : Keeps r s) :
    Keeps r (rejectWrite page off m s) := by
  unfold rejectWrite
  repeat' first
    | with_reducible (first | assumption | apply keeps_capture | apply keeps_raiseReject)

theorem keeps_invalidWrite {r : State} (page : Nat) (off : Nat) (m : Master) {s : State} (h : Keeps r s) :
    Keeps r (invalidWrite page off m s) := by
  unfold invalidWrite
  repeat' first
    | with_reducible (first | assumption | apply keeps_capture | apply keeps_raiseReject)

theorem keeps_refuseCmd {r : State} (page : Nat) (off : Nat) (m : Master) {s : State} (h : Keeps r s) :
    Keeps r (refuseCmd page off m s) := by
  unfold refuseCmd
  repeat' first
    | with_reducible (first | assumption | apply keeps_capture)

theorem keeps_wmSample {r : State} (page : Nat) (n : Nat) (value : Nat) {s : State} (h : Keeps r s) :
    Keeps r (wmSample page n value s) := by
  unfold wmSample
  repeat' first
    | intro _ | with_reducible (first | assumption | apply keeps_wrReg | apply keeps_modReg | apply keeps_noteIrq | apply keeps_ite)
    | (extract_lets +onlyGivenNames x
       first
       | (refine (fun (hx : Keeps r x) => ?_) ?_; (on_goal 1 => clear_value x); (on_goal 2 => dsimp -zeta only [x]))
       | clear_value x)
    | split | with_reducible apply keeps_mk

theorem keeps_wmClear {r : State} (page : Nat) (n : Nat) {s : State} (h : Keeps r s) :
    Keeps r (wmClear page n s) := by
  unfold wmClear
  repeat' first
    | with_reducible (first | assumption | apply keeps_noteAck | apply keeps_wrReg)
    | (extract_lets +onlyGivenNames x
       first
       | (refine (fun (hx : Keeps r x) => ?_) ?_; (on_goal 1 => clear_value x); (on_goal 2 => dsimp -zeta only [x]))
       | clear_value x)

theorem keeps_wmMark {r : State} (page : Nat) (n : Nat) (v : Word) {s : State} (h : Keeps r s) :
    Keeps r (wmMark page n v s) := by
  unfold wmMark
  repeat' first
    | with_reducible (first | assumption | apply keeps_wrReg)
    | with_reducible apply keeps_mk

theorem keeps_holdForce {r : State} (c : Nat) {s : State} (h : Keeps r s) :
    Keeps r (holdForce c s) := by
  unfold holdForce
  repeat' first
    | (refine fun x (hq : Quiet x) => (?_ : Quiet _))
    | (guard_target =~ Quiet _
       first
       | exact hq | exact quiet_laneChan _ hq | exact quiet_tileChan _ _ | split
       | exact Quiet.undriven hq rfl rfl rfl rfl rfl | exact Quiet.unmeasured hq rfl rfl rfl rfl rfl)
    | intro _ | with_reducible (first | assumption | apply keeps_modChan | apply keeps_ite)
    | split | with_reducible apply keeps_mk
    | dsimp -zeta only

theorem keeps_startForce {r : State} (c : Nat) {s : State} (h : Keeps r s) :
    Keeps r (startForce c s) := by
  unfold startForce
  repeat' first
    | (refine fun x (hq : Quiet x) => (?_ : Quiet _))
    | (guard_target =~ Quiet _
       first
       | exact hq | exact quiet_laneChan _ hq | exact quiet_tileChan _ _ | split
       | exact Quiet.undriven hq rfl rfl rfl rfl rfl | exact Quiet.unmeasured hq rfl rfl rfl rfl rfl)
    | intro _ | with_reducible (first | assumption | apply keeps_modChan | apply keeps_tick)
    | with_reducible apply keeps_mk
    | split
    | dsimp -zeta only

theorem keeps_strmFlag {r : State} (c : Nat) (b : Nat) (irq : Nat) {s : State} (h : Keeps r s) :
    Keeps r (strmFlag c b irq s) := by
  unfold strmFlag
  repeat' first
    | intro _ | with_reducible (first | assumption | apply keeps_raiseBit | apply keeps_modReg)

theorem keeps_timingError {r : State} (c : Nat) {s : State} (h : Keeps r s) :
    Keeps r (timingError c s) := by
  exact keeps_strmFlag _ _ _ (keeps_modChan c _ h fun x hq => hq.result _ (fun _ => rfl))


theorem keeps_stopStream {r : State} (c : Nat) {s : State} (h : Keeps r s) :
    Keeps r (stopStream c s) := by
  unfold stopStream
  repeat' first
    | (refine fun x (hq : Quiet x) => (?_ : Quiet _))
    | (guard_target =~ Quiet _
       first
       | exact hq | exact quiet_laneChan _ hq | exact quiet_tileChan _ _ | split
       | exact Quiet.undriven hq rfl rfl rfl rfl rfl | exact Quiet.unmeasured hq rfl rfl rfl rfl rfl)
    | intro _ | with_reducible (first | assumption | apply keeps_modChan)
    | with_reducible apply keeps_mk
    | split
    | dsimp -zeta only

theorem keeps_abortPmu {r : State} (c : Nat) {s : State} (h : Keeps r s) :
    Keeps r (abortPmu c s) := by
  unfold abortPmu
  repeat' first
    | (refine fun x (hq : Quiet x) => (?_ : Quiet _))
    | (guard_target =~ Quiet _
       first
       | exact hq | exact quiet_laneChan _ hq | exact quiet_tileChan _ _ | split
       | exact Quiet.undriven hq rfl rfl rfl rfl rfl | exact Quiet.unmeasured hq rfl rfl rfl rfl rfl)
    | intro _ | with_reducible (first | assumption | apply keeps_modReg | apply keeps_modChan | apply keeps_ite)
    | split | with_reducible apply keeps_mk
    | dsimp -zeta only

theorem keeps_enterHold {r : State} (c : Nat) (p : Phase) {s : State} (h : Keeps r s) :
    Keeps r (enterHold c p s) := by
  unfold enterHold
  repeat' first
    | (refine fun x (hq : Quiet x) => (?_ : Quiet _))
    | (guard_target =~ Quiet _
       first
       | exact hq | exact quiet_laneChan _ hq | exact quiet_tileChan _ _ | split
       | exact Quiet.undriven hq rfl rfl rfl rfl rfl | exact Quiet.unmeasured hq rfl rfl rfl rfl rfl)
    | intro _ | with_reducible (first | assumption | apply keeps_modChan)
    | with_reducible apply keeps_mk
    | split
    | dsimp -zeta only

theorem keeps_rampOver {r : State} (c : Nat) (atBoundary : Bool) {s : State} (h : Keeps r s) :
    Keeps r (rampOver c atBoundary s) := by
  unfold rampOver
  repeat' first
    | (refine fun x (hq : Quiet x) => (?_ : Quiet _))
    | (guard_target =~ Quiet _
       first
       | exact hq | exact quiet_laneChan _ hq | exact quiet_tileChan _ _ | split
       | exact Quiet.undriven hq rfl rfl rfl rfl rfl | exact Quiet.unmeasured hq rfl rfl rfl rfl rfl)
    | intro _ | with_reducible (first | assumption | apply keeps_enterHold | apply keeps_modChan | apply keeps_ite)
    | split | with_reducible apply keeps_mk | dsimp -zeta only

theorem keeps_startSwitch {r : State} (c : Nat) (old : Word) (was : Forced) (atBoundary : Bool) {s : State} (h : Keeps r s) :
    Keeps r (startSwitch c old was atBoundary s) := by
  unfold startSwitch
  extract_lets s1 s2 ramp
  have h2 : Keeps r s2 := keeps_modChan c _ (keeps_abortPmu c h) fun x hq => hq
  have hr : ∀ {t}, Keeps r t → Keeps r (ramp t) := fun ht =>
    have h3 := keeps_modChan c (fun x => { x with phase := .ramp, clamped := false, clampSince := none }) ht fun x hq => hq
    keeps_ite h3 fun h3 => keeps_rampOver _ _ h3
  split
  · exact keeps_rampOver _ _ h2
  · exact hr h2
  · exact hr (keeps_startForce _ h2)


theorem keeps_enterFunction {r : State} (c : Nat) {s : State} (h : Keeps r s) :
    Keeps r (enterFunction c s) := by
  have hc : Keeps r (setChan c { chan s c with func := funcOf (rdReg s (chPage c) 0x100), phase := .steady, drive := none, window := none, held := false, cause := setBit (chan s c).cause 31 (bit (chan s c).cause 31 && !(chan s c).held) } s) :=
    keeps_setChan c _ h fun _ => quiet_released _ rfl
  unfold enterFunction
  extract_lets x wasHeld s1 s2 s3
  have h3 : Keeps r s3 := keeps_raiseBit _ _ (keeps_ite hc fun hc => keeps_startForce c hc)
  exact keeps_ite h3 fun h3 => keeps_raiseBit _ _ h3


theorem keeps_switchAtBoundary {r : State} (c : Nat) {s : State} (h : Keeps r s) :
    Keeps r (switchAtBoundary c s) := by
  unfold switchAtBoundary
  repeat' first
    | (refine fun x (hq : Quiet x) => (?_ : Quiet _))
    | (guard_target =~ Quiet _
       first
       | exact hq | exact quiet_laneChan _ hq | exact quiet_tileChan _ _ | split
       | exact Quiet.undriven hq rfl rfl rfl rfl rfl | exact Quiet.unmeasured hq rfl rfl rfl rfl rfl)
    | intro _ | with_reducible (first | assumption | apply keeps_enterHold | apply keeps_enterFunction | apply keeps_modChan
                                      | apply keeps_ite)
    | split | with_reducible apply keeps_mk
    | dsimp -zeta only

theorem keeps_switchAtStop {r : State} (c : Nat) {s : State} (h : Keeps r s) :
    Keeps r (switchAtStop c s) := by
  unfold switchAtStop
  repeat' first
    | (refine fun x (hq : Quiet x) => (?_ : Quiet _))
    | (guard_target =~ Quiet _
       first
       | exact hq | exact quiet_laneChan _ hq | exact quiet_tileChan _ _ | split
       | exact Quiet.undriven hq rfl rfl rfl rfl rfl | exact Quiet.unmeasured hq rfl rfl rfl rfl rfl)
    | intro _ | with_reducible (first | assumption | apply keeps_enterHold | apply keeps_modChan)
    | split | with_reducible apply keeps_mk
    | dsimp -zeta only

theorem keeps_markMismatch {r : State} (c : Nat) {s : State} (h : Keeps r s) :
    Keeps r (markMismatch c s) := by
  unfold markMismatch
  repeat' first
    | intro _ | with_reducible (first | assumption | apply keeps_modReg | apply keeps_report | apply keeps_countReg)
    | (extract_lets +onlyGivenNames x
       first
       | (refine (fun (hx : Keeps r x) => ?_) ?_; (on_goal 1 => clear_value x); (on_goal 2 => dsimp -zeta only [x]))
       | clear_value x)
    | split

theorem keeps_checkMark {r : State} (y : TileMark) (stops : Bool) {s : State} (h : Keeps r s) :
    Keeps r (checkMark y stops s) := by
  unfold checkMark
  repeat' first
    | (refine fun x (hq : Quiet x) => (?_ : Quiet _))
    | (guard_target =~ Quiet _
       first
       | exact hq | exact quiet_laneChan _ hq | exact quiet_tileChan _ _ | split
       | exact Quiet.undriven hq rfl rfl rfl rfl rfl | exact Quiet.unmeasured hq rfl rfl rfl rfl rfl)
    | intro _ | with_reducible (first | assumption | apply keeps_raiseBit | apply keeps_modReg | apply keeps_markMismatch
                                      | apply keeps_modChan | apply keeps_ite)
    | (extract_lets +onlyGivenNames x
       first
       | (refine (fun (hx : Keeps r x) => ?_) ?_; (on_goal 1 => clear_value x); (on_goal 2 => dsimp -zeta only [x]))
       | clear_value x)
    | split | with_reducible apply keeps_mk
    | dsimp -zeta only

theorem keeps_settleMarks {r : State} (c : Nat) {s : State} (h : Keeps r s) :
    Keeps r (settleMarks c s) := by
  unfold settleMarks
  repeat' first
    | (refine fun x (hq : Quiet x) => (?_ : Quiet _))
    | (guard_target =~ Quiet _
       first
       | exact hq | exact quiet_laneChan _ hq | exact quiet_tileChan _ _ | split
       | exact Quiet.undriven hq rfl rfl rfl rfl rfl | exact Quiet.unmeasured hq rfl rfl rfl rfl rfl)
    | intro _ | with_reducible (first | assumption | apply keeps_modChan | apply keeps_modBase | apply keeps_checkMark
                                      | apply keeps_forEach)
    | (extract_lets +onlyGivenNames x
       first
       | (refine (fun (hx : Keeps r x) => ?_) ?_; (on_goal 1 => clear_value x); (on_goal 2 => dsimp -zeta only [x]))
       | clear_value x)
    | with_reducible apply keeps_mk
    | split
    | dsimp -zeta only

theorem keeps_setupStream {r : State} (c : Nat) {s : State} (h : Keeps r s) :
    Keeps r (setupStream c s) := by
  unfold setupStream
  repeat' first
    | (refine fun x (hq : Quiet x) => (?_ : Quiet _))
    | (guard_target =~ Quiet _
       first
       | exact hq | exact quiet_laneChan _ hq | exact quiet_tileChan _ _ | split
       | exact Quiet.undriven hq rfl rfl rfl rfl rfl | exact Quiet.unmeasured hq rfl rfl rfl rfl rfl)
    | intro _ | with_reducible (first | assumption | apply keeps_strmFlag | apply keeps_settleMarks | apply keeps_modChan
                                      | apply keeps_modLane | apply keeps_ite)
    | (extract_lets +onlyGivenNames x
       first
       | (refine (fun (hx : Keeps r x) => ?_) ?_; (on_goal 1 => clear_value x); (on_goal 2 => dsimp -zeta only [x]))
       | clear_value x)
    | split | with_reducible apply keeps_mk
    | dsimp -zeta only

theorem keeps_pmuChange {r : State} (c : Nat) (was : Forced) {s : State} (h : Keeps r s) :
    Keeps r (pmuChange c was s) := by
  unfold pmuChange
  repeat' first
    | (refine fun x (hq : Quiet x) => (?_ : Quiet _))
    | (guard_target =~ Quiet _
       first
       | exact hq | exact quiet_laneChan _ hq | exact quiet_tileChan _ _ | split
       | exact Quiet.undriven hq rfl rfl rfl rfl rfl | exact Quiet.unmeasured hq rfl rfl rfl rfl rfl)
    | intro _ | with_reducible (first | assumption | apply keeps_startForce | apply keeps_modChan | apply keeps_ite)
    | (extract_lets +onlyGivenNames x
       first
       | (refine (fun (hx : Keeps r x) => ?_) ?_; (on_goal 1 => clear_value x); (on_goal 2 => dsimp -zeta only [x]))
       | clear_value x)
    | split | with_reducible apply keeps_mk
    | dsimp -zeta only

theorem keeps_settingsChange {r : State} (c : Nat) (oldFunc : Word) (oldStrm : Word) (was : Forced) (atBoundary : Bool) {s : State} (h : Keeps r s) :
    Keeps r (settingsChange c oldFunc oldStrm was atBoundary s) := by
  unfold settingsChange
  extract_lets p new run toggled s1 s2 s3 x
  have h1 : Keeps r s1 := keeps_modChan c _ h fun x hq => hq
  have h2 : Keeps r s2 := keeps_ite h1 fun _ => keeps_stopStream c h1
  have h3 : Keeps r s3 := keeps_ite h2 fun _ => keeps_setupStream c h2
  split
  · refine keeps_modChan c _ h3 fun y hq hy => ?_
    obtain ⟨hf, _, hp, hs⟩ := hq hy
    refine ⟨?_, rfl, hp, hs⟩
    have hh : y.held = true := hy
    dsimp only
    rw [if_pos hh]
    exact hf
  · split
    · exact keeps_startSwitch c oldFunc was atBoundary h3
    · exact keeps_pmuChange c was h3


theorem keeps_changeSettings {r : State} (c : Nat) (atBoundary : Bool) (f : State → State) {s : State} (h : Keeps r s) (hf : ∀ s, Keeps r s → Keeps r (f s)) :
    Keeps r (changeSettings c atBoundary f s) := by
  unfold changeSettings
  repeat' first
    | intro _ | with_reducible (first | assumption | apply keeps_settingsChange | apply keeps_holdForce | apply hf)

theorem keeps_dropHeld {r : State} (c : Nat) {s : State} (h : Keeps r s) :
    Keeps r (dropHeld c s) := by
  unfold dropHeld
  repeat' first
    | intro _ | with_reducible (first | assumption)
    | with_reducible apply keeps_mk

theorem keeps_takeEffect {r : State} (c : Nat) (atBoundary : Bool) {s : State} (h : Keeps r s) :
    Keeps r (takeEffect c atBoundary s) := by
  unfold takeEffect
  repeat' first
    | with_reducible (first | assumption | apply keeps_changeSettings | apply keeps_dropHeld)

theorem keeps_srcChange {r : State} (c : Nat) (old : Word) (new : Word) {s : State} (h : Keeps r s) :
    Keeps r (srcChange c old new s) := by
  unfold srcChange
  repeat' first
    | (refine fun x (hq : Quiet x) => (?_ : Quiet _))
    | (guard_target =~ Quiet _
       first
       | exact hq | exact quiet_laneChan _ hq | exact quiet_tileChan _ _ | split
       | exact Quiet.undriven hq rfl rfl rfl rfl rfl | exact Quiet.unmeasured hq rfl rfl rfl rfl rfl)
    | intro _ | with_reducible (first | assumption | apply keeps_modChan | apply keeps_ite)
    | split | with_reducible apply keeps_mk
    | dsimp -zeta only

theorem keeps_pmuTriggered {r : State} (c : Nat) {s : State} (h : Keeps r s) (hf : (chan s c).func = .pmu) :
    Keeps r (pmuTriggered c s) := by
  exact keeps_modReg _ _ _ (keeps_setChan c _ h fun hq hx => absurd hf ((h.quiet hq c).func_ne hx).1)


theorem keeps_pmuEvent {r : State} (c : Nat) {s : State} (h : Keeps r s) :
    Keeps r (pmuEvent c s) := by
  unfold pmuEvent
  split
  · exact h
  · split
    · exact keeps_captureAs _ _ _ _ _ _ _ _ h
    · rename_i hf
      split
      · exact h
      · exact keeps_pmuTriggered c h (Decidable.not_not.1 hf)


theorem keeps_fillSlot {r : State} (c : Nat) (reg : Nat) (fails : Bool) {s : State} (h : Keeps r s) :
    Keeps r (fillSlot c reg fails s) := by
  exact keeps_modChan c _ h fun x hq => hq.result _ (fun _ => rfl)


theorem keeps_strobeRegion {r : State} (c : Nat) (st : Stroke) (t : Nat) (volts : Int) {s : State} (h : Keeps r s) :
    Keeps r (strobeRegion c st t volts s).2 := by
  unfold strobeRegion
  repeat' first
    | intro _ | with_reducible (first | assumption | apply keeps_tick | apply keeps_ite)
    | split

theorem keeps_applyEvent {r : State} (c : Nat) (e : PalEvent) (st : Stroke) (volts : Int) {s : State} (h : Keeps r s) (hk : (∀ c, Quiet (chan r c)) → (chan s c).held = true → e.kind ≠ 1) :
    Keeps r (applyEvent c e st volts s) := by
  unfold applyEvent
  dsimp only
  split
  · exact keeps_timingError c h
  · split
    · rename_i hk1
      split
      · exact keeps_timingError c h
      · exact keeps_setChan c _ h fun hq hx => absurd hk1 (hk hq hx)
    · split
      · exact keeps_timingError c h
      · exact keeps_modChan c _ h fun x hq => hq.undriven rfl rfl rfl rfl rfl
    · split
      · exact keeps_timingError c h
      · exact keeps_fillSlot _ _ _ (keeps_modChan c _ (keeps_strobeRegion _ _ _ _ h) fun x hq => hq)
    · split
      · exact keeps_timingError c h
      · exact keeps_modChan c _ h fun x hq => hq
    · split
      · exact keeps_timingError c h
      · split
        · exact keeps_timingError c h
        · exact keeps_fillSlot _ _ _ (keeps_modChan c _ h fun x hq => hq)
    · exact keeps_pmuEvent c h


theorem keeps_watchWindow {r : State} (c : Nat) (volts : Int) (strayed : Bool) {s : State} (h : Keeps r s) :
    Keeps r (watchWindow c volts strayed s) := by
  unfold watchWindow
  repeat' first
    | (refine fun x (hq : Quiet x) => (?_ : Quiet _))
    | (guard_target =~ Quiet _
       first
       | exact hq | exact quiet_laneChan _ hq | exact quiet_tileChan _ _ | split
       | exact Quiet.undriven hq rfl rfl rfl rfl rfl | exact Quiet.unmeasured hq rfl rfl rfl rfl rfl)
    | intro _ | with_reducible (first | assumption | apply keeps_modChan)
    | with_reducible apply keeps_mk
    | split
    | dsimp -zeta only

theorem watchWindow_held (c : Nat) (volts : Int) (strayed : Bool) (s : State) :
    (chan (watchWindow c volts strayed s) c).held = (chan s c).held := by
  unfold watchWindow modChan
  rw [chan_setChan_same]

theorem keeps_nextEvent {r : State} (c : Nat) (volts : Int) (strayed : Bool) {s : State} (h : Keeps r s) :
    Keeps r (nextEvent c volts strayed s) := by
  unfold nextEvent
  split
  · exact h
  · rename_i st hst
    split
    · exact h
    · rename_i e es he
      extract_lets st'
      have hin : ∀ y ∈ es, y ∈ st.events := fun y hy => he ▸ List.mem_cons_of_mem e hy
      have hr := keeps_reach (st.begins + 8 * e.t) h
      have hs : Keeps r (modChan c (fun x => { x with stroke := some st' }) (reach (st.begins + 8 * e.t) s)) :=
        keeps_setChan c _ hr fun hq => (hr.quiet hq c).step id rfl (.inr rfl) (.inr rfl) fun st'' hst' =>
          .inr ⟨st, hst, by cases hst'; exact hin⟩
      refine keeps_applyEvent c e _ volts (keeps_watchWindow c volts strayed hs) fun hq hx => ?_
      have hh : (chan s c).held = true := by
        rw [watchWindow_held] at hx; unfold modChan at hx; rw [chan_setChan_same] at hx; exact hx
      exact (h.quiet hq c hh).2.2.2 st hst e (he ▸ List.mem_cons_self)


theorem keeps_remainingEvents {r : State} (c : Nat) (a1 : Nat) {a2 : State} (h : Keeps r a2) :
    Keeps r (remainingEvents c a1 a2) := by
  induction a1 generalizing a2 with
  | zero => exact h
  | succ n ih =>
    unfold remainingEvents
    repeat' first
      | intro _ | with_reducible (first | assumption | apply keeps_nextEvent | apply keeps_tick | apply ih | apply keeps_forEach
                                        | apply keeps_forUpTo | apply keeps_foldl | apply keeps_ite)
      | (extract_lets +onlyGivenNames x
         first
         | (refine (fun (hx : Keeps r x) => ?_) ?_; (on_goal 1 => clear_value x); (on_goal 2 => dsimp -zeta only [x]))
         | (refine (fun (hx : Keeps r x.s) => ?_) ?_; (on_goal 1 => clear_value x); (on_goal 2 => dsimp -zeta only [x]))
         | clear_value x)
      | split | with_reducible apply keeps_mk | dsimp -zeta only


theorem keeps_eventsBefore {r : State} (c : Nat) (a1 : Nat) {a2 : State} (h : Keeps r a2) :
    Keeps r (eventsBefore c a1 a2) := by
  induction a1 generalizing a2 with
  | zero => exact h
  | succ n ih =>
    unfold eventsBefore
    split
    · exact h
    · split
      · exact h
      · exact keeps_ite h fun h => ih (keeps_nextEvent c _ _ (keeps_tick h))


theorem abortPmu_pmu (c : Nat) (s : State) : (chan (abortPmu c s) c).pmu = .idle := by
  unfold abortPmu
  split
  · assumption
  · rw [chan_modReg]
    unfold modChan
    rw [chan_setChan_same]

theorem keeps_trip {r : State} (c : Nat) (cause : Nat) (key : Nat) {s : State} (h : Keeps r s) :
    Keeps r (trip c cause key s) := by
  have hs := keeps_stopStream c (keeps_abortPmu c (keeps_eventsBefore c 8 h))
  have hd : (chan (stopStream c (abortPmu c (eventsBefore c 8 s))) c).drive = none := by unfold stopStream modChan; rw [chan_setChan_same]
  have hp : (chan (stopStream c (abortPmu c (eventsBefore c 8 s))) c).pmu = .idle := by
    unfold stopStream modChan; rw [chan_setChan_same]; exact abortPmu_pmu c _
  unfold trip
  dsimp only
  split
  · exact keeps_modChan _ _ h fun x hq => hq
  · refine keeps_captureAs _ _ _ _ _ _ _ _ (keeps_raiseBit _ _ (keeps_countReg _ _ _ (keeps_setChan _ _ hs fun _ _ => ?_)))
    refine ⟨?_, hd, hp, fun st hst => ?_⟩
    · dsimp only; split <;> simp
    · obtain ⟨_, _, rfl⟩ := Option.map_eq_some_iff.1 hst
      simp


theorem keeps_tripWatched {r : State} (c : Nat) (cause : Nat) (key : Nat) {s : State} (h : Keeps r s) :
    Keeps r (tripWatched c cause key s) := by
  unfold tripWatched
  repeat' first
    | intro _ | with_reducible (first | assumption | apply keeps_trip | apply keeps_ite)
    | split

theorem keeps_tripAll {r : State} (cause : Nat) (key : Nat) {s : State} (h : Keeps r s) :
    Keeps r (tripAll cause key s) := by
  unfold tripAll
  repeat' first
    | intro _ | with_reducible (first | assumption | apply keeps_tripWatched | apply keeps_forUpTo)

theorem keeps_lateEvents {r : State} (c : Nat) {s : State} (h : Keeps r s) :
    Keeps r (lateEvents c s) := by
  unfold lateEvents
  repeat' first
    | intro _ | with_reducible (first | assumption | apply keeps_timingError | apply keeps_ite)
    | split

theorem keeps_endStroke {r : State} (c : Nat) {s : State} (h : Keeps r s) :
    Keeps r (endStroke c s) := by
  unfold endStroke
  refine keeps_modChan c _ (keeps_lateEvents c (keeps_remainingEvents c 8 h)) fun x hq => ?_
  split
  · exact hq
  · exact hq.step id rfl (.inr rfl) (.inr rfl) fun st hst => absurd hst (by simp)


theorem keeps_tileMismatch {r : State} (c : Nat) {s : State} (h : Keeps r s) :
    Keeps r (tileMismatch c s) := by
  unfold tileMismatch
  repeat' first
    | with_reducible (first | assumption | apply keeps_raiseBit | apply keeps_markMismatch)
    | split

theorem keeps_compareMarks {r : State} (c : Nat) (cfg : MarkConfig) (lane : Option Word) {s : State} (h : Keeps r s) :
    Keeps r (compareMarks c cfg lane s) := by
  unfold compareMarks
  repeat' first
    | (refine fun x (hq : Quiet x) => (?_ : Quiet _))
    | (guard_target =~ Quiet _
       first
       | exact hq | exact quiet_laneChan _ hq | exact quiet_tileChan _ _ | split
       | exact Quiet.undriven hq rfl rfl rfl rfl rfl | exact Quiet.unmeasured hq rfl rfl rfl rfl rfl)
    | intro _ | with_reducible (first | assumption | apply keeps_modChan | apply keeps_modBase | apply keeps_tileMismatch
                                      | apply keeps_wrReg | apply keeps_ite)
    | (extract_lets +onlyGivenNames x
       first
       | (refine (fun (hx : Keeps r x) => ?_) ?_; (on_goal 1 => clear_value x); (on_goal 2 => dsimp -zeta only [x]))
       | clear_value x)
    | split | with_reducible apply keeps_mk
    | dsimp -zeta only

theorem keeps_tileMark {r : State} (c : Nat) (y : Symbol) {s : State} (h : Keeps r s) :
    Keeps r (tileMark c y s) := by
  unfold tileMark
  repeat' first
    | (refine fun x (hq : Quiet x) => (?_ : Quiet _))
    | (guard_target =~ Quiet _
       first
       | exact hq | exact quiet_laneChan _ hq | exact quiet_tileChan _ _ | split
       | exact Quiet.undriven hq rfl rfl rfl rfl rfl | exact Quiet.unmeasured hq rfl rfl rfl rfl rfl)
    | intro _ | with_reducible (first | assumption | apply keeps_modChan | apply keeps_compareMarks | apply keeps_ite)
    | (extract_lets +onlyGivenNames x
       first
       | (refine (fun (hx : Keeps r x) => ?_) ?_; (on_goal 1 => clear_value x); (on_goal 2 => dsimp -zeta only [x]))
       | clear_value x)
    | split | with_reducible apply keeps_mk
    | dsimp -zeta only

theorem keeps_blurStrobe {r : State} (c : Nat) (f : Word) (st : Stroke) {s : State} (h : Keeps r s) :
    Keeps r (blurStrobe c f st s) := by
  unfold blurStrobe
  repeat' first
    | (refine fun x (hq : Quiet x) => (?_ : Quiet _))
    | (guard_target =~ Quiet _
       first
       | exact hq | exact quiet_laneChan _ hq | exact quiet_tileChan _ _ | split
       | exact Quiet.undriven hq rfl rfl rfl rfl rfl | exact Quiet.unmeasured hq rfl rfl rfl rfl rfl)
    | intro _ | with_reducible (first | assumption | apply keeps_modChan | apply keeps_tick | apply keeps_ite)
    | (extract_lets +onlyGivenNames x
       first
       | (refine (fun (hx : Keeps r x) => ?_) ?_; (on_goal 1 => clear_value x); (on_goal 2 => dsimp -zeta only [x]))
       | clear_value x)
    | split | with_reducible apply keeps_mk
    | dsimp -zeta only

theorem keeps_starve {r : State} (c : Nat) {s : State} (h : Keeps r s) :
    Keeps r (starve c s) := by
  unfold starve
  extract_lets b st l s1
  refine keeps_stopStream c (keeps_trip _ _ _ (keeps_captureAs _ _ _ _ _ _ _ _ (keeps_strmFlag _ _ _ (keeps_modChan c _ (keeps_tick h) fun x hq => ?_))))
  refine hq.step id rfl (.inr rfl) (.inr rfl) fun st' hst => .inl ?_
  cases hst
  simp [st]


theorem mem_insertEvent (e y : PalEvent) (l : List PalEvent) : y ∈ insertEvent e l ↔ y = e ∨ y ∈ l := by
  induction l with
  | nil => simp [insertEvent]
  | cons a l ih =>
    unfold insertEvent
    split
    · simp only [List.mem_cons, ih]; tauto
    · simp

theorem foldl_insert_mem (p : PalEvent → Prop) (l acc : List PalEvent) (hl : ∀ e ∈ l, p e) (ha : ∀ e ∈ acc, p e) :
    ∀ e ∈ l.foldl (fun l e => insertEvent e l) acc, p e := by
  induction l generalizing acc with
  | nil => exact ha
  | cons a l ih =>
    refine ih (insertEvent a acc) (fun e he => hl e (List.mem_cons_of_mem _ he)) fun e he => ?_
    rcases (mem_insertEvent a e acc).1 he with rfl | he
    · exact hl _ List.mem_cons_self
    · exact ha e he

/-- A word read without its drive-class events has no event that drives a level. -/
theorem wordEvents_undriven (s : State) (c : Nat) (w : Wide) : ∀ e ∈ wordEvents s c w false, e.kind ≠ 1 := by
  intro e he
  obtain ⟨j, _, hj⟩ := List.mem_filterMap.1 he
  dsimp only at hj
  split at hj
  · exact absurd hj (by simp)
  · rename_i hk
    cases hj
    intro h1
    simp [h1] at hk

theorem blurStrobe_held (c : Nat) (f : Word) (st : Stroke) (s : State) : (chan (blurStrobe c f st s) c).held = (chan s c).held := by
  unfold blurStrobe
  split
  · split
    · unfold modChan; rw [chan_setChan_same]; rfl
    · rfl
  · rfl

theorem keeps_palStroke {r : State} (c : Nat) (y : Symbol) {s : State} (h : Keeps r s) :
    Keeps r (palStroke c y s) := by
  unfold palStroke
  extract_lets w st trig all uic evs late st'
  split
  · refine keeps_timingError c (keeps_modChan c _ h fun x hq => hq.step id rfl (.inr rfl) (.inr rfl) fun y hy => .inl ?_)
    cases hy
    exact fun e he => absurd he (by simp [st, plainStroke])
  · have hb := keeps_blurStrobe c (chFunc s c) st' h
    refine keeps_setChan c _ hb fun hr hx => ?_
    have hs : (chan s c).held = true := (blurStrobe_held c (chFunc s c) st' s).symm.trans hx
    refine (hb.quiet hr c).step id rfl (.inr rfl) (.inr rfl) (fun y hy => .inl ?_) hx
    cases hy
    have hf : ((chan s c).func == Func.driveCompare) = false := by simpa using ((h.quiet hr c).func_ne hs).2
    refine foldl_insert_mem (fun e => e.kind ≠ 1) _ _ ?_ (by simp)
    intro e he
    have he' := List.mem_of_mem_filter (List.mem_of_mem_filter he)
    rw [hf] at he'
    exact wordEvents_undriven s c _ e he'


theorem keeps_pmuStroke {r : State} (c : Nat) (y : Symbol) {s : State} (h : Keeps r s) :
    Keeps r (pmuStroke c y s) := by
  unfold pmuStroke
  dsimp only
  refine keeps_modChan c _ h fun x hq => hq.step id rfl (.inr rfl) (.inr rfl) fun st hst => .inl ?_
  cases hst
  refine foldl_insert_mem (fun e => e.kind ≠ 1) _ _ ?_ (by simp)
  intro e he
  split at he
  · simp only [List.mem_filter, Bool.and_eq_true, beq_iff_eq] at he
    omega
  · simp at he


theorem keeps_takeSymbol {r : State} (c : Nat) {s : State} (h : Keeps r s) :
    Keeps r (takeSymbol c s) := by
  unfold takeSymbol
  extract_lets x switching
  split
  · exact keeps_starve c h
  · rename_i y rest hy
    extract_lets srcSw s1 s2 s3 st
    have h1 : Keeps r s1 := by
      refine keeps_modChan c _ h fun z hq => hq.same rfl rfl ?_ (.inr rfl) rfl
      dsimp only
      split <;> simp
    have h3 : Keeps r s3 := keeps_tileMark c y (keeps_wmSample _ _ _ h1)
    split
    · refine keeps_modChan c _ h3 fun z hq => hq.step id rfl (.inr rfl) (.inr rfl) fun st hst => .inl ?_
      cases hst
      exact fun e he => absurd he (by simp [st, plainStroke])
    · split
      · exact keeps_pmuStroke c y h3
      · exact keeps_palStroke c y h3


theorem keeps_streamAtBoundary {r : State} (c : Nat) {s : State} (h : Keeps r s) :
    Keeps r (streamAtBoundary c s) := by
  unfold streamAtBoundary
  repeat' first
    | (refine fun x (hq : Quiet x) => (?_ : Quiet _))
    | (guard_target =~ Quiet _
       first
       | exact hq | exact quiet_laneChan _ hq | exact quiet_tileChan _ _ | split
       | exact Quiet.undriven hq rfl rfl rfl rfl rfl | exact Quiet.unmeasured hq rfl rfl rfl rfl rfl)
    | intro _ | with_reducible (first | assumption | apply keeps_stopStream | apply keeps_modChan | apply keeps_ite)
    | (extract_lets +onlyGivenNames x
       first
       | (refine (fun (hx : Keeps r x) => ?_) ?_; (on_goal 1 => clear_value x); (on_goal 2 => dsimp -zeta only [x]))
       | clear_value x)
    | split | with_reducible apply keeps_mk
    | dsimp -zeta only

theorem keeps_senseEdge {r : State} (c : Nat) {s : State} (h : Keeps r s) :
    Keeps r (senseEdge c s) := by
  unfold senseEdge
  repeat' first
    | (refine fun x (hq : Quiet x) => (?_ : Quiet _))
    | (guard_target =~ Quiet _
       first
       | exact hq | exact quiet_laneChan _ hq | exact quiet_tileChan _ _ | split
       | exact Quiet.undriven hq rfl rfl rfl rfl rfl | exact Quiet.unmeasured hq rfl rfl rfl rfl rfl)
    | intro _ | with_reducible (first | assumption | apply keeps_modChan)
    | (extract_lets +onlyGivenNames x
       first
       | (refine (fun (hx : Keeps r x) => ?_) ?_; (on_goal 1 => clear_value x); (on_goal 2 => dsimp -zeta only [x]))
       | clear_value x)
    | with_reducible apply keeps_mk
    | split
    | dsimp -zeta only

theorem keeps_channelEdge_switchThen {r : State} (c : Nat) {s : State} (h : Keeps r s) :
    Keeps r (channelEdge.switchThen c s) := by
  unfold channelEdge.switchThen
  repeat' first
    | intro _ | with_reducible (first | assumption | apply keeps_streamAtBoundary | apply keeps_takeEffect | apply keeps_switchAtBoundary
                                      | apply keeps_ite)
    | (extract_lets +onlyGivenNames x
       first
       | (refine (fun (hx : Keeps r x) => ?_) ?_; (on_goal 1 => clear_value x); (on_goal 2 => dsimp -zeta only [x]))
       | clear_value x)
    | split

theorem keeps_channelEdge {r : State} (c : Nat) {s : State} (h : Keeps r s) :
    Keeps r (channelEdge c s) := by
  unfold channelEdge
  repeat' first
    | intro _ | with_reducible (first | assumption | apply keeps_channelEdge_switchThen | apply keeps_senseEdge | apply keeps_endStroke
                                      | apply keeps_ite)
    | (extract_lets +onlyGivenNames x
       first
       | (refine (fun (hx : Keeps r x) => ?_) ?_; (on_goal 1 => clear_value x); (on_goal 2 => dsimp -zeta only [x]))
       | clear_value x)
    | split

theorem keeps_channelStroke {r : State} (c : Nat) {s : State} (h : Keeps r s) :
    Keeps r (channelStroke c s) := by
  unfold channelStroke
  repeat' first
    | intro _ | with_reducible (first | assumption | apply keeps_takeSymbol | apply keeps_ite)
    | split

theorem keeps_deliverSymbol {r : State} (c : Nat) {s : State} (h : Keeps r s) :
    Keeps r (deliverSymbol c s) := by
  unfold deliverSymbol
  repeat' first
    | (refine fun x (hq : Quiet x) => (?_ : Quiet _))
    | (guard_target =~ Quiet _
       first
       | exact hq | exact quiet_laneChan _ hq | exact quiet_tileChan _ _ | split
       | exact Quiet.undriven hq rfl rfl rfl rfl rfl | exact Quiet.unmeasured hq rfl rfl rfl rfl rfl)
    | intro _ | with_reducible (first | assumption | apply keeps_modChan | apply keeps_forUpTo | apply keeps_ite)
    | split
    | dsimp -zeta only

theorem keeps_returnCredit {r : State} (c : Nat) {s : State} (h : Keeps r s) :
    Keeps r (returnCredit c s) := by
  unfold returnCredit
  repeat' first
    | (refine fun x (hq : Quiet x) => (?_ : Quiet _))
    | (guard_target =~ Quiet _
       first
       | exact hq | exact quiet_laneChan _ hq | exact quiet_tileChan _ _ | split
       | exact Quiet.undriven hq rfl rfl rfl rfl rfl | exact Quiet.unmeasured hq rfl rfl rfl rfl rfl)
    | intro _ | with_reducible (first | assumption | apply keeps_modChan | apply keeps_ite)
    | split | with_reducible apply keeps_mk
    | dsimp -zeta only

theorem keeps_stopAtLane {r : State} (c : Nat) {s : State} (h : Keeps r s) :
    Keeps r (stopAtLane c s) := by
  unfold stopAtLane
  repeat' first
    | (refine fun x (hq : Quiet x) => (?_ : Quiet _))
    | (guard_target =~ Quiet _
       first
       | exact hq | exact quiet_laneChan _ hq | exact quiet_tileChan _ _ | split
       | exact Quiet.undriven hq rfl rfl rfl rfl rfl | exact Quiet.unmeasured hq rfl rfl rfl rfl rfl)
    | intro _ | with_reducible (first | assumption | apply keeps_modChan | apply keeps_ite)
    | split | with_reducible apply keeps_mk
    | dsimp -zeta only

theorem keeps_srcAtLane {r : State} (c : Nat) {s : State} (h : Keeps r s) :
    Keeps r (srcAtLane c s) := by
  unfold srcAtLane
  repeat' first
    | (refine fun x (hq : Quiet x) => (?_ : Quiet _))
    | (guard_target =~ Quiet _
       first
       | exact hq | exact quiet_laneChan _ hq | exact quiet_tileChan _ _ | split
       | exact Quiet.undriven hq rfl rfl rfl rfl rfl | exact Quiet.unmeasured hq rfl rfl rfl rfl rfl)
    | intro _ | with_reducible (first | assumption | apply keeps_modChan)
    | split | with_reducible apply keeps_mk
    | dsimp -zeta only

theorem keeps_pmuTrigWrite {r : State} (c : Nat) (m : Master) (v : Word) {s : State} (h : Keeps r s) :
    Keeps r (pmuTrigWrite c m v s) := by
  unfold pmuTrigWrite
  split
  · exact h
  · split
    · exact keeps_rejectWrite _ _ _ h
    · rename_i hf
      split
      · exact h
      · exact keeps_pmuTriggered c h (Decidable.not_not.1 hf)


theorem keeps_pmuSample {r : State} (c : Nat) {s : State} (h : Keeps r s) :
    Keeps r (pmuSample c s) := by
  unfold pmuSample
  split
  · exact h
  · rename_i hw
    have hw' : (chan s c).pmu = .waiting := Decidable.not_not.1 hw
    refine keeps_setChan c _ (keeps_reach _ h) fun hr hx => ?_
    exact absurd ((h.quiet hr c) hx).2.2.1 (by rw [hw']; simp)


theorem keeps_pmuDone {r : State} (c : Nat) (sum : Int) (ovr : Bool) {s : State} (h : Keeps r s) :
    Keeps r (pmuDone c sum ovr s) := by
  unfold pmuDone
  repeat' first
    | (refine fun x (hq : Quiet x) => (?_ : Quiet _))
    | (guard_target =~ Quiet _
       first
       | exact hq | exact quiet_laneChan _ hq | exact quiet_tileChan _ _ | split
       | exact Quiet.undriven hq rfl rfl rfl rfl rfl | exact Quiet.unmeasured hq rfl rfl rfl rfl rfl)
    | intro _ | with_reducible (first | assumption | apply keeps_reach | apply keeps_wrReg | apply keeps_raiseBit | apply keeps_modChan
                                      | apply keeps_ite)
    | (extract_lets +onlyGivenNames x
       first
       | (refine (fun (hx : Keeps r x) => ?_) ?_; (on_goal 1 => clear_value x); (on_goal 2 => dsimp -zeta only [x]))
       | clear_value x)
    | split | with_reducible apply keeps_mk
    | dsimp -zeta only

theorem keeps_clampStarts {r : State} (c : Nat) {s : State} (h : Keeps r s) :
    Keeps r (clampStarts c s) := by
  unfold clampStarts
  repeat' first
    | (refine fun x (hq : Quiet x) => (?_ : Quiet _))
    | (guard_target =~ Quiet _
       first
       | exact hq | exact quiet_laneChan _ hq | exact quiet_tileChan _ _ | split
       | exact Quiet.undriven hq rfl rfl rfl rfl rfl | exact Quiet.unmeasured hq rfl rfl rfl rfl rfl)
    | intro _ | with_reducible (first | assumption | apply keeps_raiseBit | apply keeps_modChan | apply keeps_ite)
    | (extract_lets +onlyGivenNames x
       first
       | (refine (fun (hx : Keeps r x) => ?_) ?_; (on_goal 1 => clear_value x); (on_goal 2 => dsimp -zeta only [x]))
       | clear_value x)
    | split | with_reducible apply keeps_mk
    | dsimp -zeta only

theorem keeps_clampEnds {r : State} (c : Nat) (long : Bool) {s : State} (h : Keeps r s) :
    Keeps r (clampEnds c long s) := by
  unfold clampEnds
  repeat' first
    | (refine fun x (hq : Quiet x) => (?_ : Quiet _))
    | (guard_target =~ Quiet _
       first
       | exact hq | exact quiet_laneChan _ hq | exact quiet_tileChan _ _ | split
       | exact Quiet.undriven hq rfl rfl rfl rfl rfl | exact Quiet.unmeasured hq rfl rfl rfl rfl rfl)
    | intro _ | with_reducible (first | assumption | apply keeps_modChan | apply keeps_ite)
    | split | with_reducible apply keeps_mk
    | dsimp -zeta only

theorem keeps_tdcStore {r : State} (c : Nat) (e : TdcEntry) {s : State} (h : Keeps r s) :
    Keeps r (tdcStore c e s) := by
  unfold tdcStore
  repeat' first
    | (refine fun x (hq : Quiet x) => (?_ : Quiet _))
    | (guard_target =~ Quiet _
       first
       | exact hq | exact quiet_laneChan _ hq | exact quiet_tileChan _ _ | split
       | exact Quiet.undriven hq rfl rfl rfl rfl rfl | exact Quiet.unmeasured hq rfl rfl rfl rfl rfl)
    | intro _ | with_reducible (first | assumption | apply keeps_raiseBit | apply keeps_modReg | apply keeps_modChan
                                      | apply keeps_wmSample | apply keeps_ite)
    | (extract_lets +onlyGivenNames x
       first
       | (refine (fun (hx : Keeps r x) => ?_) ?_; (on_goal 1 => clear_value x); (on_goal 2 => dsimp -zeta only [x]))
       | clear_value x)
    | split | with_reducible apply keeps_mk
    | dsimp -zeta only

theorem keeps_tdcCross_record {r : State} (c : Nat) (ofs : BitVec 40) (thr : Nat) (falling : Bool) (b : Timebase) (n : Nat) (t : Nat) {s : State} (h : Keeps r s) :
    Keeps r (tdcCross.record c ofs thr falling s b n t) := by
  unfold tdcCross.record
  repeat' first
    | (refine fun x (hq : Quiet x) => (?_ : Quiet _))
    | (guard_target =~ Quiet _
       first
       | exact hq | exact quiet_laneChan _ hq | exact quiet_tileChan _ _ | split
       | exact Quiet.undriven hq rfl rfl rfl rfl rfl | exact Quiet.unmeasured hq rfl rfl rfl rfl rfl)
    | intro _ | with_reducible (first | assumption | apply keeps_tdcStore | apply keeps_modChan | apply keeps_reach)
    | with_reducible apply keeps_mk
    | split
    | dsimp -zeta only

theorem keeps_tdcCross {r : State} (c : Nat) (ofs : BitVec 40) (thr : Nat) (falling : Bool) {s : State} (h : Keeps r s) :
    Keeps r (tdcCross c ofs thr falling s) := by
  unfold tdcCross
  repeat' first
    | (refine fun x (hq : Quiet x) => (?_ : Quiet _))
    | (guard_target =~ Quiet _
       first
       | exact hq | exact quiet_laneChan _ hq | exact quiet_tileChan _ _ | split
       | exact Quiet.undriven hq rfl rfl rfl rfl rfl | exact Quiet.unmeasured hq rfl rfl rfl rfl rfl)
    | intro _ | with_reducible (first | assumption | apply keeps_modChan | apply keeps_tdcCross_record | apply keeps_ite)
    | (extract_lets +onlyGivenNames x
       first
       | (refine (fun (hx : Keeps r x) => ?_) ?_; (on_goal 1 => clear_value x); (on_goal 2 => dsimp -zeta only [x]))
       | clear_value x)
    | split | with_reducible apply keeps_mk
    | dsimp -zeta only

theorem keeps_tdcPopWrite {r : State} (c : Nat) (v : Word) {s : State} (h : Keeps r s) :
    Keeps r (tdcPopWrite c v s) := by
  unfold tdcPopWrite
  repeat' first
    | (refine fun x (hq : Quiet x) => (?_ : Quiet _))
    | (guard_target =~ Quiet _
       first
       | exact hq | exact quiet_laneChan _ hq | exact quiet_tileChan _ _ | split
       | exact Quiet.undriven hq rfl rfl rfl rfl rfl | exact Quiet.unmeasured hq rfl rfl rfl rfl rfl)
    | intro _ | with_reducible (first | assumption | apply keeps_modChan | apply keeps_wmSample | apply keeps_ite)
    | (extract_lets +onlyGivenNames x
       first
       | (refine (fun (hx : Keeps r x) => ?_) ?_; (on_goal 1 => clear_value x); (on_goal 2 => dsimp -zeta only [x]))
       | clear_value x)
    | split | with_reducible apply keeps_mk
    | dsimp -zeta only

theorem keeps_energyEval {r : State} (c : Nat) (mV : Int) (uA : Int) {s : State} (h : Keeps r s) :
    Keeps r (energyEval c mV uA s) := by
  unfold energyEval
  repeat' first
    | (refine fun x (hq : Quiet x) => (?_ : Quiet _))
    | (guard_target =~ Quiet _
       first
       | exact hq | exact quiet_laneChan _ hq | exact quiet_tileChan _ _ | split
       | exact Quiet.undriven hq rfl rfl rfl rfl rfl | exact Quiet.unmeasured hq rfl rfl rfl rfl rfl)
    | intro _ | with_reducible (first | assumption | apply keeps_modChan | apply keeps_trip | apply keeps_ite)
    | (extract_lets +onlyGivenNames x
       first
       | (refine (fun (hx : Keeps r x) => ?_) ?_; (on_goal 1 => clear_value x); (on_goal 2 => dsimp -zeta only [x]))
       | clear_value x)
    | split | with_reducible apply keeps_mk
    | dsimp -zeta only

theorem keeps_clampLimit {r : State} (c : Nat) {s : State} (h : Keeps r s) :
    Keeps r (clampLimit c s) := by
  unfold clampLimit
  repeat' first
    | with_reducible (first | assumption | apply keeps_trip | apply keeps_reach)
    | split

theorem keeps_overvolt {r : State} (c : Nat) (volts : Int) {s : State} (h : Keeps r s) :
    Keeps r (overvolt c volts s) := by
  unfold overvolt
  repeat' first
    | intro _ | with_reducible (first | assumption | apply keeps_tripWatched | apply keeps_ite)
    | split

theorem keeps_releaseOne {r : State} (c : Nat) (m : Master) (off : Nat) (inside : Bool) {s : State} (h : Keeps r s) :
    Keeps r (releaseOne c m off inside s) := by
  unfold releaseOne
  repeat' first
    | intro _ | with_reducible (first | assumption | apply keeps_startSwitch | apply keeps_refuseCmd | apply keeps_ite)
    | split

theorem keeps_releaseWrite {r : State} (t : Nat) (hi : Bool) (m : Master) (v : Word) (inside : Word) {s : State} (h : Keeps r s) :
    Keeps r (releaseWrite t hi m v inside s) := by
  unfold releaseWrite
  repeat' first
    | intro _ | with_reducible (first | assumption | apply keeps_releaseOne | apply keeps_forUpTo | apply keeps_ite)
    | split

theorem keeps_timebaseStart {r : State} (k : Nat) (m : Nat) {s : State} (h : Keeps r s) :
    Keeps r (timebaseStart k m s) := by
  unfold timebaseStart
  repeat' first
    | intro _ | with_reducible (first | assumption | apply keeps_capture | apply keeps_modReg | apply keeps_modBase | apply keeps_ite)
    | split | with_reducible apply keeps_mk

theorem keeps_timebaseStop {r : State} (k : Nat) {s : State} (h : Keeps r s) :
    Keeps r (timebaseStop k s) := by
  unfold timebaseStop
  repeat' first
    | intro _ | with_reducible (first | assumption | apply keeps_capture | apply keeps_modReg | apply keeps_modBase
                                      | apply keeps_switchAtStop | apply keeps_forUpTo | apply keeps_ite)
    | (extract_lets +onlyGivenNames x
       first
       | (refine (fun (hx : Keeps r x) => ?_) ?_; (on_goal 1 => clear_value x); (on_goal 2 => dsimp -zeta only [x]))
       | clear_value x)
    | split | with_reducible apply keeps_mk

theorem keeps_strkCtlWrite {r : State} (k : Nat) (m : Master) (en : Bool) {s : State} (h : Keeps r s) :
    Keeps r (strkCtlWrite k m en s) := by
  unfold strkCtlWrite
  repeat' first
    | intro _ | with_reducible (first | assumption | apply keeps_modReg | apply keeps_timebaseStart | apply keeps_modBase
                                      | apply keeps_timebaseStop | apply keeps_ite)
    | (extract_lets +onlyGivenNames x
       first
       | (refine (fun (hx : Keeps r x) => ?_) ?_; (on_goal 1 => clear_value x); (on_goal 2 => dsimp -zeta only [x]))
       | clear_value x)
    | split | with_reducible apply keeps_mk

theorem keeps_advance {r : State} (k : Nat) {s : State} (h : Keeps r s) :
    Keeps r (advance k s) := by
  unfold advance
  repeat' first
    | intro _ | with_reducible (first | assumption | apply keeps_modBase | apply keeps_ite)
    | split | with_reducible apply keeps_mk

theorem keeps_strokeBoundary {r : State} (k : Nat) {s : State} (h : Keeps r s) :
    Keeps r (strokeBoundary k s) := by
  unfold strokeBoundary
  repeat' first
    | intro _ | with_reducible (first | assumption | apply keeps_reach | apply keeps_advance | apply keeps_channelEdge
                                      | apply keeps_timebaseStop | apply keeps_channelStroke | apply keeps_modBase | apply keeps_forUpTo
                                      | apply keeps_ite)
    | (extract_lets +onlyGivenNames x
       first
       | (refine (fun (hx : Keeps r x) => ?_) ?_; (on_goal 1 => clear_value x); (on_goal 2 => dsimp -zeta only [x]))
       | clear_value x)
    | split | with_reducible apply keeps_mk

theorem keeps_scLatch {r : State} (k : Nat) {s : State} (h : Keeps r s) :
    Keeps r (scLatch k s) := by
  unfold scLatch
  repeat' first
    | intro _ | with_reducible (first | assumption | apply keeps_modBase)
    | with_reducible apply keeps_mk

theorem keeps_holdOld {r : State} (page : Nat) (off : Nat) {s : State} (h : Keeps r s) :
    Keeps r (holdOld page off s) := by
  unfold holdOld
  repeat' first
    | intro _ | with_reducible (first | assumption | apply keeps_ite)
    | (extract_lets +onlyGivenNames x
       first
       | (refine (fun (hx : Keeps r x) => ?_) ?_; (on_goal 1 => clear_value x); (on_goal 2 => dsimp -zeta only [x]))
       | clear_value x)
    | split | with_reducible apply keeps_mk

theorem keeps_chanLive {r : State} (c : Nat) (off : Nat) (v : Word) {s : State} (h : Keeps r s) :
    Keeps r (chanLive c off v s) := by
  unfold chanLive
  repeat' first
    | (refine fun x (hq : Quiet x) => (?_ : Quiet _))
    | (guard_target =~ Quiet _
       first
       | exact hq | exact quiet_laneChan _ hq | exact quiet_tileChan _ _ | split
       | exact Quiet.undriven hq rfl rfl rfl rfl rfl | exact Quiet.unmeasured hq rfl rfl rfl rfl rfl)
    | intro _ | with_reducible (first | assumption | apply keeps_srcChange | apply keeps_wrReg | apply keeps_holdOld
                                      | apply keeps_modChan | apply keeps_changeSettings | apply keeps_ite)
    | (extract_lets +onlyGivenNames x
       first
       | (refine (fun (hx : Keeps r x) => ?_) ?_; (on_goal 1 => clear_value x); (on_goal 2 => dsimp -zeta only [x]))
       | (refine (fun (hx : Keeps r x.s) => ?_) ?_; (on_goal 1 => clear_value x); (on_goal 2 => dsimp -zeta only [x]))
       | clear_value x)
    | split | with_reducible apply keeps_mk | dsimp -zeta only

theorem keeps_chanWrite {r : State} (c : Nat) (off : Nat) (m : Master) (fs : List Field) (v : Word) {s : State} (h : Keeps r s) :
    Keeps r (chanWrite c off m fs v s) := by
  unfold chanWrite
  repeat' first
    | intro _ | with_reducible (first | assumption | apply keeps_chanLive | apply keeps_capture | apply keeps_invalidWrite
                                      | apply keeps_ite)
    | (extract_lets +onlyGivenNames x
       first
       | (refine (fun (hx : Keeps r x) => ?_) ?_; (on_goal 1 => clear_value x); (on_goal 2 => dsimp -zeta only [x]))
       | clear_value x)
    | split

theorem keeps_palCmdWrite {r : State} (l : Nat) (m : Master) (v : Word) {s : State} (h : Keeps r s) :
    Keeps r (palCmdWrite l m v s) := by
  unfold palCmdWrite
  repeat' first
    | intro _ | with_reducible (first | assumption | apply keeps_rejectWrite | apply keeps_wrReg | apply keeps_ite)
    | (extract_lets +onlyGivenNames x
       first
       | (refine (fun (hx : Keeps r x) => ?_) ?_; (on_goal 1 => clear_value x); (on_goal 2 => dsimp -zeta only [x]))
       | clear_value x)
    | split | with_reducible apply keeps_mk

theorem keeps_palStore {r : State} (c : Nat) (set : Bool) (w : Nat) (data : Wide) {s : State} (h : Keeps r s) :
    Keeps r (palStore c set w data s) := by
  unfold palStore
  repeat' first
    | intro _ | with_reducible (first | assumption | apply keeps_ite)
    | (extract_lets +onlyGivenNames x
       first
       | (refine (fun (hx : Keeps r x) => ?_) ?_; (on_goal 1 => clear_value x); (on_goal 2 => dsimp -zeta only [x]))
       | (refine (fun (hx : Keeps r x.s) => ?_) ?_; (on_goal 1 => clear_value x); (on_goal 2 => dsimp -zeta only [x]))
       | clear_value x)
    | split | with_reducible apply keeps_mk | dsimp -zeta only

theorem keeps_palShow {r : State} (l : Nat) (data : Wide) {s : State} (h : Keeps r s) :
    Keeps r (palShow l data s) := by
  unfold palShow
  repeat' first
    | intro _ | with_reducible (first | assumption | apply keeps_wrReg | apply keeps_forUpTo)

theorem keeps_palDone {r : State} (l : Nat) {s : State} (h : Keeps r s) :
    Keeps r (palDone l s) := by
  unfold palDone
  repeat' first
    | intro _ | with_reducible (first | assumption | apply keeps_palStore | apply keeps_palShow | apply keeps_raiseBit | apply keeps_ite)
    | (extract_lets +onlyGivenNames x
       first
       | (refine (fun (hx : Keeps r x) => ?_) ?_; (on_goal 1 => clear_value x); (on_goal 2 => dsimp -zeta only [x]))
       | clear_value x)
    | split | with_reducible apply keeps_mk

theorem keeps_clearResv {r : State} (k : Nat) (n : Nat) {s : State} (h : Keeps r s) :
    Keeps r (clearResv k n s) := by
  unfold clearResv
  repeat' first
    | (refine fun e (hm : ModeLegal _ e) => (?_ : ModeLegal _ _))
    | (guard_target =~ ModeLegal _ _
       first | exact hm | split | exact modeLegal_one _ _ rfl | exact ModeLegal.of_eq (e := e) (by simp) hm)
    | intro _ | with_reducible (first | assumption | apply keeps_modEng | apply keeps_forEach)
    | split | with_reducible apply keeps_mk

theorem keeps_keepStale {r : State} (t : Target) (k : Nat) (n : Nat) {s : State} (h : Keeps r s) :
    Keeps r (keepStale t k n s) := by
  unfold keepStale
  repeat' first
    | intro _ | with_reducible (first | assumption | apply keeps_forUpTo)
    | (extract_lets +onlyGivenNames x
       first
       | (refine (fun (hx : Keeps r x) => ?_) ?_; (on_goal 1 => clear_value x); (on_goal 2 => dsimp -zeta only [x]))
       | clear_value x)
    | split | with_reducible apply keeps_mk

theorem keeps_targetWrite {r : State} (t : Target) (a : Nat) (bs : List Byte) {s : State} (h : Keeps r s) :
    Keeps r (targetWrite t a bs s) := by
  unfold targetWrite
  repeat' first
    | with_reducible (first | assumption | apply keeps_setBytes | apply keeps_clearResv | apply keeps_keepStale)
    | (extract_lets +onlyGivenNames x
       first
       | (refine (fun (hx : Keeps r x) => ?_) ?_; (on_goal 1 => clear_value x); (on_goal 2 => dsimp -zeta only [x]))
       | clear_value x)

theorem keeps_memWrite {r : State} (a : Nat) (bs : List Byte) {s : State} (h : Keeps r s) :
    Keeps r (memWrite a bs s) := by
  unfold memWrite
  repeat' first
    | with_reducible (first | assumption | apply keeps_targetWrite)

theorem keeps_mxError {r : State} (m : Master) (a : Nat) (kind : Nat) {s : State} (h : Keeps r s) :
    Keeps r (mxError m a kind s) := by
  unfold mxError
  repeat' first
    | intro _ | with_reducible (first | assumption | apply keeps_raiseBit | apply keeps_wrReg | apply keeps_ite)
    | (extract_lets +onlyGivenNames x
       first
       | (refine (fun (hx : Keeps r x) => ?_) ?_; (on_goal 1 => clear_value x); (on_goal 2 => dsimp -zeta only [x]))
       | clear_value x)
    | split

theorem keeps_eccReport {r : State} (page : Nat) (o : EccOutcome) {s : State} (h : Keeps r s) :
    Keeps r (eccReport page o s) := by
  unfold eccReport
  repeat' first
    | with_reducible (first | assumption | apply keeps_report | apply keeps_capture)
    | split

theorem keeps_eccMeets {r : State} (x : Target) (o : EccOutcome) {s : State} (h : Keeps r s) :
    Keeps r (eccMeets x o s) := by
  unfold eccMeets
  repeat' first
    | with_reducible (first | assumption | apply keeps_eccReport | apply keeps_countReg | apply keeps_raiseBit)
    | (extract_lets +onlyGivenNames x
       first
       | (refine (fun (hx : Keeps r x) => ?_) ?_; (on_goal 1 => clear_value x); (on_goal 2 => dsimp -zeta only [x]))
       | clear_value x)
    | split

theorem keeps_mramPush {r : State} (b : Nat) (a : Nat) (n : Nat) {s : State} (h : Keeps r s) :
    Keeps r (mramPush b a n s) := by
  unfold mramPush
  repeat' first
    | with_reducible (first | assumption)
    | (extract_lets +onlyGivenNames x
       first
       | (refine (fun (hx : Keeps r x) => ?_) ?_; (on_goal 1 => clear_value x); (on_goal 2 => dsimp -zeta only [x]))
       | clear_value x)
    | with_reducible apply keeps_mk

theorem keeps_portWrite {r : State} (x : Target) (a : Nat) (bs : List Byte) {s : State} (h : Keeps r s) :
    Keeps r (portWrite x a bs s) := by
  unfold portWrite
  repeat' first
    | with_reducible (first | assumption | apply keeps_mramPush | apply keeps_targetWrite)
    | split

theorem keeps_portFails {r : State} (m : Master) (a : Nat) (n : Nat) (write : Bool) (kind : BusKind) {s : State} (h : Keeps r s) :
    Keeps r (portFails m a n write kind s) := by
  unfold portFails
  repeat' first
    | intro _ | with_reducible (first | assumption | apply keeps_mxError | apply keeps_reach | apply keeps_eccMeets
                                      | apply keeps_countReg | apply keeps_ite)
    | (extract_lets +onlyGivenNames x
       first
       | (refine (fun (hx : Keeps r x) => ?_) ?_; (on_goal 1 => clear_value x); (on_goal 2 => dsimp -zeta only [x]))
       | clear_value x)
    | split

theorem keeps_bankPut {r : State} (m : Master) (a : Nat) (bs : List Byte) {s : State} (h : Keeps r s) :
    Keeps r (bankPut m a bs s) := by
  unfold bankPut
  repeat' first
    | intro _ | with_reducible (first | assumption | apply keeps_portWrite | apply keeps_mxError | apply keeps_ite)
    | split

theorem keeps_grantRow {r : State} (row : Nat) {s : State} (h : Keeps r s) :
    Keeps r (grantRow row s) := by
  unfold grantRow
  repeat' first
    | intro _ | with_reducible (first | assumption | apply keeps_foldl | apply keeps_ite)
    | split | with_reducible apply keeps_mk

theorem keeps_grantAll {r : State}  {s : State} (h : Keeps r s) :
    Keeps r (grantAll s) := by
  unfold grantAll
  repeat' first
    | intro _ | with_reducible (first | assumption | apply keeps_grantRow | apply keeps_forUpTo)

theorem keeps_enterPort {r : State} (m : Master) (id : Nat) (write : Bool) (a : Nat) (data : List Byte) (len : Nat) (use : TransUse) {s : State} (h : Keeps r s) :
    Keeps r (enterPort m id write a data len use s) := by
  unfold enterPort
  repeat' first
    | with_reducible (first | assumption | apply keeps_grantAll)
    | with_reducible apply keeps_mk

theorem keeps_modPat {r : State} (f : Patina → Patina) {s : State} (h : Keeps r s) :
    Keeps r (modPat f s) := by
  unfold modPat
  repeat' first
    | with_reducible (first | assumption)
    | with_reducible apply keeps_mk

theorem keeps_vauxPut {r : State} (a : Nat) (v : Word) {s : State} (h : Keeps r s) :
    Keeps r (vauxPut a v s) := by
  unfold vauxPut
  repeat' first
    | with_reducible (first | assumption | apply keeps_targetWrite)

theorem keeps_linePut {r : State} (a : Nat) (v : Word) {s : State} (h : Keeps r s) :
    Keeps r (linePut a v s) := by
  unfold linePut
  repeat' first
    | with_reducible (first | assumption | apply keeps_bankPut)

theorem keeps_offer {r : State} (code : Nat) (sev : Nat) (src : Nat) (fid : Bool) (payload : List Byte) {s : State} (h : Keeps r s) :
    Keeps r (offer code sev src fid payload s) := by
  unfold offer
  repeat' first
    | intro _ | with_reducible (first | assumption | apply keeps_modPat)
    | with_reducible apply keeps_mk

theorem keeps_setBucket {r : State} (code : Nat) (b : Bucket) {s : State} (h : Keeps r s) :
    Keeps r (setBucket code b s) := by
  unfold setBucket
  repeat' first
    | intro _ | with_reducible (first | assumption | apply keeps_modPat)
    | with_reducible apply keeps_mk

theorem keeps_countSuppressed {r : State} (code : Nat) (src : Nat) {s : State} (h : Keeps r s) :
    Keeps r (countSuppressed code src s) := by
  unfold countSuppressed
  repeat' first
    | intro _ | with_reducible (first | assumption | apply keeps_setBucket | apply keeps_ite)
    | (extract_lets +onlyGivenNames x
       first
       | (refine (fun (hx : Keeps r x) => ?_) ?_; (on_goal 1 => clear_value x); (on_goal 2 => dsimp -zeta only [x]))
       | clear_value x)
    | split | with_reducible apply keeps_mk

theorem keeps_suppress {r : State} (ev : PatEvent) {s : State} (h : Keeps r s) :
    Keeps r (suppress ev s) := by
  unfold suppress
  repeat' first
    | with_reducible (first | assumption | apply keeps_countReg | apply keeps_countSuppressed)

theorem keeps_enqueueEvent {r : State} (ev : PatEvent) (mayWait : Bool) {s : State} (h : Keeps r s) :
    Keeps r (enqueueEvent ev mayWait s) := by
  unfold enqueueEvent
  repeat' first
    | intro _ | with_reducible (first | assumption | apply keeps_modPat | apply keeps_countReg | apply keeps_countSuppressed
                                      | apply keeps_ite)
    | split | with_reducible apply keeps_mk

theorem keeps_intakeEvent {r : State} (ev : PatEvent) (submission : Bool) {s : State} (h : Keeps r s) :
    Keeps r (intakeEvent ev submission s) := by
  unfold intakeEvent
  repeat' first
    | intro _ | with_reducible (first | assumption | apply keeps_enqueueEvent | apply keeps_suppress | apply keeps_setBucket
                                      | apply keeps_ite)
    | (extract_lets +onlyGivenNames x
       first
       | (refine (fun (hx : Keeps r x) => ?_) ?_; (on_goal 1 => clear_value x); (on_goal 2 => dsimp -zeta only [x]))
       | clear_value x)
    | split | with_reducible apply keeps_mk

theorem keeps_takeOffer {r : State} (x : Nat × PatEvent) {s : State} (h : Keeps r s) :
    Keeps r (takeOffer x s) := by
  unfold takeOffer
  repeat' first
    | intro _ | with_reducible (first | assumption | apply keeps_modPat)
    | with_reducible apply keeps_mk

theorem keeps_eventArrives {r : State} (ev : PatEvent) {s : State} (h : Keeps r s) :
    Keeps r (eventArrives ev s) := by
  unfold eventArrives
  repeat' first
    | with_reducible (first | assumption | apply keeps_intakeEvent | apply keeps_takeOffer)
    | split

theorem keeps_submitEvent {r : State} (code : Nat) (sev : Nat) (src : Nat) (payload : List Byte) {s : State} (h : Keeps r s) :
    Keeps r (submitEvent code sev src payload s) := by
  unfold submitEvent
  repeat' first
    | intro _ | with_reducible (first | assumption | apply keeps_rejectWrite | apply keeps_intakeEvent | apply keeps_ite)
    | split

theorem keeps_gainToken {r : State} (code : Nat) (same : Option PatEvent) {s : State} (h : Keeps r s) :
    Keeps r (gainToken code same s) := by
  unfold gainToken
  repeat' first
    | intro _ | with_reducible (first | assumption | apply keeps_setBucket | apply keeps_eventArrives | apply keeps_enqueueEvent
                                      | apply keeps_suppress | apply keeps_takeOffer | apply keeps_ite)
    | (extract_lets +onlyGivenNames x
       first
       | (refine (fun (hx : Keeps r x) => ?_) ?_; (on_goal 1 => clear_value x); (on_goal 2 => dsimp -zeta only [x]))
       | clear_value x)
    | split | with_reducible apply keeps_mk

theorem keeps_rlcfgWrite {r : State} (rate : Nat) (burst : Nat) {s : State} (h : Keeps r s) :
    Keeps r (rlcfgWrite rate burst s) := by
  unfold rlcfgWrite
  repeat' first
    | with_reducible (first | assumption | apply keeps_setBucket)
    | (extract_lets +onlyGivenNames x
       first
       | (refine (fun (hx : Keeps r x) => ?_) ?_; (on_goal 1 => clear_value x); (on_goal 2 => dsimp -zeta only [x]))
       | clear_value x)
    | with_reducible apply keeps_mk

theorem keeps_nextSeq {r : State}  {s : State} (h : Keeps r s) :
    Keeps r (nextSeq s) := by
  unfold nextSeq
  repeat' first
    | intro _ | with_reducible (first | assumption | apply keeps_modReg)

theorem keeps_commitRecord {r : State} (bytes : List Byte) {s : State} (h : Keeps r s) :
    Keeps r (commitRecord bytes s) := by
  unfold commitRecord
  repeat' first
    | intro _ | with_reducible (first | assumption | apply keeps_nextSeq | apply keeps_modPat)
    | with_reducible apply keeps_mk

theorem keeps_commitPad {r : State} (n : Nat) {s : State} (h : Keeps r s) :
    Keeps r (commitPad n s) := by
  unfold commitPad
  repeat' first
    | intro _ | with_reducible (first | assumption | apply keeps_commitRecord | apply keeps_forEach)

theorem keeps_flushTrigger {r : State}  {s : State} (h : Keeps r s) :
    Keeps r (flushTrigger s) := by
  unfold flushTrigger
  repeat' first
    | intro _ | with_reducible (first | assumption | apply keeps_modPat | apply keeps_ite)
    | split | with_reducible apply keeps_mk

theorem keeps_afterCommit {r : State} (sev : Nat) (n : Nat) {s : State} (h : Keeps r s) :
    Keeps r (afterCommit sev n s) := by
  unfold afterCommit
  repeat' first
    | intro _ | with_reducible (first | assumption | apply keeps_wmSample | apply keeps_countReg | apply keeps_raiseBit
                                      | apply keeps_modPat | apply keeps_flushTrigger | apply keeps_ite)
    | (extract_lets +onlyGivenNames x
       first
       | (refine (fun (hx : Keeps r x) => ?_) ?_; (on_goal 1 => clear_value x); (on_goal 2 => dsimp -zeta only [x]))
       | clear_value x)
    | split | with_reducible apply keeps_mk

theorem keeps_writeRecord {r : State} (ev : PatEvent) {s : State} (h : Keeps r s) :
    Keeps r (writeRecord ev s) := by
  unfold writeRecord
  repeat' first
    | with_reducible (first | assumption | apply keeps_commitPad | apply keeps_commitRecord | apply keeps_afterCommit)
    | (extract_lets +onlyGivenNames x
       first
       | (refine (fun (hx : Keeps r x) => ?_) ?_; (on_goal 1 => clear_value x); (on_goal 2 => dsimp -zeta only [x]))
       | clear_value x)

theorem keeps_dropRecord {r : State}  {s : State} (h : Keeps r s) :
    Keeps r (dropRecord s) := by
  unfold dropRecord
  repeat' first
    | intro _ | with_reducible (first | assumption | apply keeps_raiseBit | apply keeps_countReg | apply keeps_modPat | apply keeps_ite)
    | split | with_reducible apply keeps_mk

theorem keeps_popIntake {r : State}  {s : State} (h : Keeps r s) :
    Keeps r (popIntake s) := by
  unfold popIntake
  repeat' first
    | intro _ | with_reducible (first | assumption | apply keeps_modPat)
    | with_reducible apply keeps_mk

theorem keeps_recordStep {r : State}  {s : State} (h : Keeps r s) :
    Keeps r (recordStep s) := by
  unfold recordStep
  repeat' first
    | intro _ | with_reducible (first | assumption | apply keeps_writeRecord | apply keeps_modPat | apply keeps_popIntake
                                      | apply keeps_dropRecord | apply keeps_ite)
    | (extract_lets +onlyGivenNames x
       first
       | (refine (fun (hx : Keeps r x) => ?_) ?_; (on_goal 1 => clear_value x); (on_goal 2 => dsimp -zeta only [x]))
       | clear_value x)
    | split | with_reducible apply keeps_mk

theorem keeps_mramMake {r : State} (n : Nat) (a1 : Nat) {a2 : State} (h : Keeps r a2) :
    Keeps r (mramMake n a1 a2) := by
  induction a1 generalizing a2 with
  | zero => exact h
  | succ n ih =>
    unfold mramMake
    repeat' first
      | intro _ | with_reducible (first | assumption | apply keeps_countReg | apply keeps_wrReg | apply ih | apply keeps_forEach
                                        | apply keeps_forUpTo | apply keeps_foldl | apply keeps_ite)
      | (extract_lets +onlyGivenNames x
         first
         | (refine (fun (hx : Keeps r x) => ?_) ?_; (on_goal 1 => clear_value x); (on_goal 2 => dsimp -zeta only [x]))
         | (refine (fun (hx : Keeps r x.s) => ?_) ?_; (on_goal 1 => clear_value x); (on_goal 2 => dsimp -zeta only [x]))
         | clear_value x)
      | split | with_reducible apply keeps_mk | dsimp -zeta only


theorem keeps_mramPut {r : State} (bytes : List Byte) {s : State} (h : Keeps r s) :
    Keeps r (mramPut bytes s) := by
  unfold mramPut
  repeat' first
    | with_reducible (first | assumption | apply keeps_mramMake | apply keeps_wrReg | apply keeps_bankPut)
    | (extract_lets +onlyGivenNames x
       first
       | (refine (fun (hx : Keeps r x) => ?_) ?_; (on_goal 1 => clear_value x); (on_goal 2 => dsimp -zeta only [x]))
       | clear_value x)

theorem keeps_mramAppend {r : State} (bytes : List Byte) {s : State} (h : Keeps r s) :
    Keeps r (mramAppend bytes s) := by
  unfold mramAppend
  repeat' first
    | intro _ | with_reducible (first | assumption | apply keeps_mramPut | apply keeps_forEach)
    | (extract_lets +onlyGivenNames x
       first
       | (refine (fun (hx : Keeps r x) => ?_) ?_; (on_goal 1 => clear_value x); (on_goal 2 => dsimp -zeta only [x]))
       | clear_value x)

theorem keeps_mramControl {r : State}  {s : State} (h : Keeps r s) :
    Keeps r (mramControl s) := by
  unfold mramControl
  repeat' first
    | with_reducible (first | assumption | apply keeps_bankPut)

theorem keeps_flushStart {r : State}  {s : State} (h : Keeps r s) :
    Keeps r (flushStart s) := by
  unfold flushStart
  repeat' first
    | intro _ | with_reducible (first | assumption | apply keeps_modPat | apply keeps_ite)
    | split | with_reducible apply keeps_mk

theorem keeps_flushDone {r : State}  {s : State} (h : Keeps r s) :
    Keeps r (flushDone s) := by
  unfold flushDone
  repeat' first
    | intro _ | with_reducible (first | assumption | apply keeps_mramControl | apply keeps_mramAppend | apply keeps_modPat
                                      | apply keeps_raiseBit | apply keeps_forEach | apply keeps_ite)
    | (extract_lets +onlyGivenNames x
       first
       | (refine (fun (hx : Keeps r x) => ?_) ?_; (on_goal 1 => clear_value x); (on_goal 2 => dsimp -zeta only [x]))
       | clear_value x)
    | split | with_reducible apply keeps_mk

theorem keeps_freezeCmd {r : State} (m : Master) {s : State} (h : Keeps r s) :
    Keeps r (freezeCmd m s) := by
  unfold freezeCmd
  repeat' first
    | intro _ | with_reducible (first | assumption | apply keeps_rejectWrite | apply keeps_flushTrigger | apply keeps_wrReg
                                      | apply keeps_modPat | apply keeps_ite)
    | split | with_reducible apply keeps_mk

theorem keeps_thawCmd {r : State} (m : Master) {s : State} (h : Keeps r s) :
    Keeps r (thawCmd m s) := by
  unfold thawCmd
  repeat' first
    | intro _ | with_reducible (first | assumption | apply keeps_rejectWrite | apply keeps_modPat | apply keeps_ite)
    | split | with_reducible apply keeps_mk

theorem keeps_clearCmd {r : State} (m : Master) (service : Bool) {s : State} (h : Keeps r s) :
    Keeps r (clearCmd m service s) := by
  unfold clearCmd
  repeat' first
    | intro _ | with_reducible (first | assumption | apply keeps_rejectWrite | apply keeps_tick | apply keeps_modPat | apply keeps_wrReg
                                      | apply keeps_mramControl | apply keeps_mramPut | apply keeps_raiseBit | apply keeps_ite)
    | (extract_lets +onlyGivenNames x
       first
       | (refine (fun (hx : Keeps r x) => ?_) ?_; (on_goal 1 => clear_value x); (on_goal 2 => dsimp -zeta only [x]))
       | clear_value x)
    | split | with_reducible apply keeps_mk

theorem keeps_patCmdWrite {r : State} (op : Nat) (m : Master) (service : Bool) {s : State} (h : Keeps r s) :
    Keeps r (patCmdWrite op m service s) := by
  unfold patCmdWrite
  repeat' first
    | with_reducible (first | assumption | apply keeps_flushTrigger | apply keeps_freezeCmd | apply keeps_thawCmd | apply keeps_clearCmd
                            | apply keeps_invalidWrite)
    | split

theorem keeps_submitWrite {r : State} (pair : Bool) (slot : Nat) (m : Master) {s : State} (h : Keeps r s) :
    Keeps r (submitWrite pair slot m s) := by
  unfold submitWrite
  repeat' first
    | intro _ | with_reducible (first | assumption | apply keeps_rejectWrite | apply keeps_intakeEvent | apply keeps_ite)
    | (extract_lets +onlyGivenNames x
       first
       | (refine (fun (hx : Keeps r x) => ?_) ?_; (on_goal 1 => clear_value x); (on_goal 2 => dsimp -zeta only [x]))
       | clear_value x)
    | split

theorem keeps_opsecStep {r : State}  {s : State} (h : Keeps r s) :
    Keeps r (opsecStep s) := by
  unfold opsecStep
  repeat' first
    | intro _ | with_reducible (first | assumption | apply keeps_vauxPut | apply keeps_ite)
    | split

theorem keeps_publishStat {r : State} (k : Nat) {s : State} (h : Keeps r s) :
    Keeps r (publishStat k s) := by
  unfold publishStat
  repeat' first
    | with_reducible (first | assumption)
    | with_reducible apply keeps_mk

theorem keeps_publishCount {r : State} (page : Nat) (off : Nat) {s : State} (h : Keeps r s) :
    Keeps r (publishCount page off s) := by
  unfold publishCount
  repeat' first
    | with_reducible (first | assumption)
    | with_reducible apply keeps_mk

theorem keeps_takeCount {r : State} (page : Nat) (off : Nat) {s : State} (h : Keeps r s) :
    Keeps r (takeCount page off s) := by
  unfold takeCount
  repeat' first
    | with_reducible (first | assumption | apply keeps_wrReg)
    | with_reducible apply keeps_mk

theorem keeps_publish {r : State} (k : Nat) {s : State} (h : Keeps r s) :
    Keeps r (publish k s) := by
  unfold publish
  repeat' first
    | with_reducible (first | assumption | apply keeps_publishCount | apply keeps_publishStat)

theorem keeps_publishFabric {r : State}  {s : State} (h : Keeps r s) :
    Keeps r (publishFabric s) := by
  unfold publishFabric
  repeat' first
    | with_reducible (first | assumption | apply keeps_publishCount)

theorem keeps_siteFlag {r : State} (k : Nat) (n : Nat) (f : Nat) {s : State} (h : Keeps r s) :
    Keeps r (siteFlag k n f s) := by
  unfold siteFlag
  repeat' first
    | intro _ | with_reducible (first | assumption | apply keeps_modWeld)
    | with_reducible apply keeps_mk

theorem keeps_divertPart {r : State} (l : Nat) (n : Nat) (addr : Option Nat) {s : State} (h : Keeps r s) :
    Keeps r (divertPart l n addr s) := by
  unfold divertPart
  repeat' first
    | intro _ | with_reducible (first | assumption | apply keeps_siteFlag | apply keeps_modLane)
    | (extract_lets +onlyGivenNames x
       first
       | (refine (fun (hx : Keeps r x) => ?_) ?_; (on_goal 1 => clear_value x); (on_goal 2 => dsimp -zeta only [x]))
       | clear_value x)
    | split | with_reducible apply keeps_mk

theorem keeps_countDivert {r : State} (l : Nat) (n : Nat) {s : State} (h : Keeps r s) :
    Keeps r (countDivert l n s) := by
  unfold countDivert
  repeat' first
    | with_reducible (first | assumption | apply keeps_raiseBit | apply keeps_countReg | apply keeps_offer)
    | (extract_lets +onlyGivenNames x
       first
       | (refine (fun (hx : Keeps r x) => ?_) ?_; (on_goal 1 => clear_value x); (on_goal 2 => dsimp -zeta only [x]))
       | clear_value x)

theorem keeps_divertEvent {r : State} (l : Nat) (addr : Option (BitVec 56)) (pins : List EventPin) {s : State} (h : Keeps r s) :
    Keeps r (divertEvent l addr pins s) := by
  unfold divertEvent
  repeat' first
    | intro _ | with_reducible (first | assumption | apply keeps_divertPart | apply keeps_countDivert | apply keeps_forEach)
    | (extract_lets +onlyGivenNames x
       first
       | (refine (fun (hx : Keeps r x) => ?_) ?_; (on_goal 1 => clear_value x); (on_goal 2 => dsimp -zeta only [x]))
       | clear_value x)

theorem keeps_countResult {r : State} (l : Nat) (n : Nat) (a2 : CompareResult) {s : State} (h : Keeps r s) :
    Keeps r (countResult l n a2 s) := by
  unfold countResult
  repeat' first
    | intro _ | with_reducible (first | assumption | apply keeps_modLane | apply keeps_forUpTo | apply keeps_ite)
    | split | with_reducible apply keeps_mk

theorem keeps_pushEvent {r : State} (l : Nat) (count : Nat) (addr : Option (BitVec 56)) (pins : List EventPin) {s : State} (h : Keeps r s) :
    Keeps r (pushEvent l count addr pins s) := by
  unfold pushEvent
  repeat' first
    | intro _ | with_reducible (first | assumption | apply keeps_modLane | apply keeps_divertEvent | apply keeps_ite)
    | split | with_reducible apply keeps_mk

theorem keeps_formEvents {r : State} (l : Nat) (a1 : Nat) {a2 : State} (h : Keeps r a2) :
    Keeps r (formEvents l a1 a2) := by
  induction a1 generalizing a2 with
  | zero => exact h
  | succ n ih =>
    unfold formEvents
    repeat' first
      | intro _ | with_reducible (first | assumption | apply keeps_modLane | apply keeps_pushEvent | apply ih | apply keeps_forEach
                                        | apply keeps_forUpTo | apply keeps_foldl | apply keeps_ite)
      | (extract_lets +onlyGivenNames x
         first
         | (refine (fun (hx : Keeps r x) => ?_) ?_; (on_goal 1 => clear_value x); (on_goal 2 => dsimp -zeta only [x]))
         | (refine (fun (hx : Keeps r x.s) => ?_) ?_; (on_goal 1 => clear_value x); (on_goal 2 => dsimp -zeta only [x]))
         | clear_value x)
      | split | with_reducible apply keeps_mk | dsimp -zeta only


theorem keeps_resultArrives {r : State} (c : Nat) {s : State} (h : Keeps r s) :
    Keeps r (resultArrives c s) := by
  unfold resultArrives
  repeat' first
    | (refine fun x (hq : Quiet x) => (?_ : Quiet _))
    | (guard_target =~ Quiet _
       first
       | exact hq | exact quiet_laneChan _ hq | exact quiet_tileChan _ _ | split
       | exact Quiet.undriven hq rfl rfl rfl rfl rfl | exact Quiet.unmeasured hq rfl rfl rfl rfl rfl)
    | intro _ | with_reducible (first | assumption | apply keeps_modChan | apply keeps_modLane | apply keeps_raiseBit
                                      | apply keeps_countReg | apply keeps_countResult | apply keeps_formEvents | apply keeps_ite)
    | (extract_lets +onlyGivenNames x
       first
       | (refine (fun (hx : Keeps r x) => ?_) ?_; (on_goal 1 => clear_value x); (on_goal 2 => dsimp -zeta only [x]))
       | clear_value x)
    | split | with_reducible apply keeps_mk
    | dsimp -zeta only

theorem keeps_historyLookup {r : State} (c : Nat) {s : State} (h : Keeps r s) :
    Keeps r (historyLookup c s) := by
  unfold historyLookup
  repeat' first
    | intro _ | with_reducible (first | assumption | apply keeps_modLane | apply keeps_raiseBit | apply keeps_countReg
                                      | apply keeps_formEvents | apply keeps_ite)
    | (extract_lets +onlyGivenNames x
       first
       | (refine (fun (hx : Keeps r x) => ?_) ?_; (on_goal 1 => clear_value x); (on_goal 2 => dsimp -zeta only [x]))
       | clear_value x)
    | split | with_reducible apply keeps_mk

theorem keeps_recordAddress {r : State} (l : Nat) (addr : BitVec 56) (a2 : Nat) {s : State} (h : Keeps r s) :
    Keeps r (recordAddress l addr a2 s) := by
  unfold recordAddress
  repeat' first
    | intro _ | with_reducible (first | assumption | apply keeps_modLane | apply keeps_countReg | apply keeps_ite)
    | (extract_lets +onlyGivenNames x
       first
       | (refine (fun (hx : Keeps r x) => ?_) ?_; (on_goal 1 => clear_value x); (on_goal 2 => dsimp -zeta only [x]))
       | clear_value x)
    | split | with_reducible apply keeps_mk

theorem keeps_siteCounters {r : State} (l : Nat) {s : State} (h : Keeps r s) :
    Keeps r (siteCounters l s) := by
  unfold siteCounters
  repeat' first
    | intro _ | with_reducible (first | assumption | apply keeps_modFail | apply keeps_modLane | apply keeps_forEach)
    | (extract_lets +onlyGivenNames x
       first
       | (refine (fun (hx : Keeps r x) => ?_) ?_; (on_goal 1 => clear_value x); (on_goal 2 => dsimp -zeta only [x]))
       | clear_value x)
    | with_reducible apply keeps_mk

theorem keeps_putRecord {r : State} (l : Nat) (b : FailBuf) (bytes : List Byte) {s : State} (h : Keeps r s) :
    Keeps r (putRecord l b bytes s) := by
  unfold putRecord
  repeat' first
    | intro _ | with_reducible (first | assumption | apply keeps_memWrite | apply keeps_modLane | apply keeps_ite)
    | (extract_lets +onlyGivenNames x
       first
       | (refine (fun (hx : Keeps r x) => ?_) ?_; (on_goal 1 => clear_value x); (on_goal 2 => dsimp -zeta only [x]))
       | clear_value x)
    | split | with_reducible apply keeps_mk

theorem keeps_closeBuffer {r : State} (l : Nat) (part : Bool) {s : State} (h : Keeps r s) :
    Keeps r (closeBuffer l part s) := by
  unfold closeBuffer
  repeat' first
    | intro _ | with_reducible (first | assumption | apply keeps_modFail | apply keeps_modLane)
    | split | with_reducible apply keeps_mk

theorem keeps_appendOne {r : State} (l : Nat) (b : FailBuf) (i : FailItem) {s : State} (h : Keeps r s) :
    Keeps r (appendOne l b i s) := by
  unfold appendOne
  repeat' first
    | intro _ | with_reducible (first | assumption | apply keeps_putRecord | apply keeps_modLane)
    | (extract_lets +onlyGivenNames x
       first
       | (refine (fun (hx : Keeps r x) => ?_) ?_; (on_goal 1 => clear_value x); (on_goal 2 => dsimp -zeta only [x]))
       | clear_value x)
    | split | with_reducible apply keeps_mk

theorem keeps_flushMark {r : State} (k : Nat) {s : State} (h : Keeps r s) :
    Keeps r (flushMark k s) := by
  unfold flushMark
  repeat' first
    | intro _ | with_reducible (first | assumption | apply keeps_modFail)
    | with_reducible apply keeps_mk

theorem keeps_flushBuffer {r : State} (l : Nat) {s : State} (h : Keeps r s) :
    Keeps r (flushBuffer l s) := by
  unfold flushBuffer
  repeat' first
    | intro _ | with_reducible (first | assumption | apply keeps_flushMark | apply keeps_closeBuffer | apply keeps_ite)
    | split

theorem keeps_appendItems {r : State} (l : Nat) (a1 : Nat) {a2 : State} (h : Keeps r a2) :
    Keeps r (appendItems l a1 a2) := by
  induction a1 generalizing a2 with
  | zero => exact h
  | succ n ih =>
    unfold appendItems
    repeat' first
      | intro _ | with_reducible (first | assumption | apply keeps_modLane | apply keeps_appendOne | apply keeps_closeBuffer
                                        | apply keeps_flushBuffer | apply ih | apply keeps_forEach | apply keeps_forUpTo
                                        | apply keeps_foldl | apply keeps_ite)
      | (extract_lets +onlyGivenNames x
         first
         | (refine (fun (hx : Keeps r x) => ?_) ?_; (on_goal 1 => clear_value x); (on_goal 2 => dsimp -zeta only [x]))
         | (refine (fun (hx : Keeps r x.s) => ?_) ?_; (on_goal 1 => clear_value x); (on_goal 2 => dsimp -zeta only [x]))
         | clear_value x)
      | split | with_reducible apply keeps_mk | dsimp -zeta only


theorem keeps_stageItem {r : State} (l : Nat) (i : FailItem) {s : State} (h : Keeps r s) :
    Keeps r (stageItem l i s) := by
  unfold stageItem
  repeat' first
    | intro _ | with_reducible (first | assumption | apply keeps_modLane | apply keeps_appendItems)
    | (extract_lets +onlyGivenNames x
       first
       | (refine (fun (hx : Keeps r x) => ?_) ?_; (on_goal 1 => clear_value x); (on_goal 2 => dsimp -zeta only [x]))
       | clear_value x)
    | with_reducible apply keeps_mk

theorem keeps_divertItem {r : State} (l : Nat) (i : FailItem) {s : State} (h : Keeps r s) :
    Keeps r (divertItem l i s) := by
  unfold divertItem
  repeat' first
    | intro _ | with_reducible (first | assumption | apply keeps_modLane | apply keeps_countDivert | apply keeps_divertPart
                                      | apply keeps_flushMark | apply keeps_ite)
    | (extract_lets +onlyGivenNames x
       first
       | (refine (fun (hx : Keeps r x) => ?_) ?_; (on_goal 1 => clear_value x); (on_goal 2 => dsimp -zeta only [x]))
       | clear_value x)
    | split | with_reducible apply keeps_mk

theorem keeps_nullBuffer {r : State} (l : Nat) {s : State} (h : Keeps r s) :
    Keeps r (nullBuffer l s) := by
  unfold nullBuffer
  repeat' first
    | intro _ | with_reducible (first | assumption | apply keeps_modLane | apply keeps_divertItem | apply keeps_forEach)
    | (extract_lets +onlyGivenNames x
       first
       | (refine (fun (hx : Keeps r x) => ?_) ?_; (on_goal 1 => clear_value x); (on_goal 2 => dsimp -zeta only [x]))
       | clear_value x)
    | with_reducible apply keeps_mk

theorem keeps_grantBuffer {r : State} (k : Nat) (i : Nat) (b : Nat) {s : State} (h : Keeps r s) :
    Keeps r (grantBuffer k i b s) := by
  unfold grantBuffer
  repeat' first
    | intro _ | with_reducible (first | assumption | apply keeps_modFail | apply keeps_putRecord | apply keeps_modLane
                                      | apply keeps_appendItems | apply keeps_wmSample)
    | (extract_lets +onlyGivenNames x
       first
       | (refine (fun (hx : Keeps r x) => ?_) ?_; (on_goal 1 => clear_value x); (on_goal 2 => dsimp -zeta only [x]))
       | clear_value x)
    | split | with_reducible apply keeps_mk

theorem keeps_bufferRequest {r : State} (k : Nat) {s : State} (h : Keeps r s) :
    Keeps r (bufferRequest k s) := by
  unfold bufferRequest
  repeat' first
    | intro _ | with_reducible (first | assumption | apply keeps_nullBuffer | apply keeps_grantBuffer | apply keeps_raiseBit
                                      | apply keeps_countReg | apply keeps_forEach | apply keeps_ite)
    | (extract_lets +onlyGivenNames x
       first
       | (refine (fun (hx : Keeps r x) => ?_) ?_; (on_goal 1 => clear_value x); (on_goal 2 => dsimp -zeta only [x]))
       | clear_value x)
    | split

theorem keeps_bufferDone {r : State} (k : Nat) {s : State} (h : Keeps r s) :
    Keeps r (bufferDone k s) := by
  unfold bufferDone
  repeat' first
    | intro _ | with_reducible (first | assumption | apply keeps_wmSample | apply keeps_raiseBit | apply keeps_setFail | apply keeps_ite)
    | (extract_lets +onlyGivenNames x
       first
       | (refine (fun (hx : Keeps r x) => ?_) ?_; (on_goal 1 => clear_value x); (on_goal 2 => dsimp -zeta only [x]))
       | clear_value x)
    | split | with_reducible apply keeps_mk

theorem keeps_freeWrite {r : State} (k : Nat) (b : Nat) (m : Master) {s : State} (h : Keeps r s) :
    Keeps r (freeWrite k b m s) := by
  unfold freeWrite
  repeat' first
    | intro _ | with_reducible (first | assumption | apply keeps_refuseCmd | apply keeps_raiseReject | apply keeps_setFail
                                      | apply keeps_wmSample | apply keeps_ite)
    | (extract_lets +onlyGivenNames x
       first
       | (refine (fun (hx : Keeps r x) => ?_) ?_; (on_goal 1 => clear_value x); (on_goal 2 => dsimp -zeta only [x]))
       | clear_value x)
    | split | with_reducible apply keeps_mk

theorem keeps_donePop {r : State} (k : Nat) {s : State} (h : Keeps r s) :
    Keeps r (donePop k s) := by
  unfold donePop
  repeat' first
    | intro _ | with_reducible (first | assumption | apply keeps_wmSample | apply keeps_setFail | apply keeps_ite)
    | (extract_lets +onlyGivenNames x
       first
       | (refine (fun (hx : Keeps r x) => ?_) ?_; (on_goal 1 => clear_value x); (on_goal 2 => dsimp -zeta only [x]))
       | clear_value x)
    | split | with_reducible apply keeps_mk

theorem keeps_initPool {r : State} (k : Nat) (m : Master) {s : State} (h : Keeps r s) :
    Keeps r (initPool k m s) := by
  unfold initPool
  repeat' first
    | intro _ | with_reducible (first | assumption | apply keeps_refuseCmd | apply keeps_modLane | apply keeps_wmSample
                                      | apply keeps_modFail | apply keeps_forUpTo | apply keeps_ite)
    | (extract_lets +onlyGivenNames x
       first
       | (refine (fun (hx : Keeps r x) => ?_) ?_; (on_goal 1 => clear_value x); (on_goal 2 => dsimp -zeta only [x]))
       | clear_value x)
    | split | with_reducible apply keeps_mk

theorem keeps_clearOverflow {r : State} (k : Nat) {s : State} (h : Keeps r s) :
    Keeps r (clearOverflow k s) := by
  unfold clearOverflow
  repeat' first
    | intro _ | with_reducible (first | assumption | apply keeps_modLane | apply keeps_forUpTo)
    | with_reducible apply keeps_mk

theorem keeps_weldOffer {r : State} (k : Nat) (l : Nat) (a2 : FailRec) {s : State} (h : Keeps r s) :
    Keeps r (weldOffer k l a2 s) := by
  unfold weldOffer
  repeat' first
    | intro _ | with_reducible (first | assumption | apply keeps_raiseBit | apply keeps_siteFlag | apply keeps_countReg
                                      | apply keeps_wmSample | apply keeps_setWeld | apply keeps_ite)
    | (extract_lets +onlyGivenNames x
       first
       | (refine (fun (hx : Keeps r x) => ?_) ?_; (on_goal 1 => clear_value x); (on_goal 2 => dsimp -zeta only [x]))
       | clear_value x)
    | split | with_reducible apply keeps_mk

theorem keeps_closeOne {r : State} (l : Nat) (a1 : FailRec) {s : State} (h : Keeps r s) :
    Keeps r (closeOne l a1 s) := by
  unfold closeOne
  repeat' first
    | intro _ | with_reducible (first | assumption | apply keeps_modFail | apply keeps_siteFlag | apply keeps_weldOffer
                                      | apply keeps_stageItem | apply keeps_ite)
    | (extract_lets +onlyGivenNames x
       first
       | (refine (fun (hx : Keeps r x) => ?_) ?_; (on_goal 1 => clear_value x); (on_goal 2 => dsimp -zeta only [x]))
       | clear_value x)
    | split | with_reducible apply keeps_mk

theorem keeps_closeRecord {r : State} (l : Nat) (a1 : FailRec) {s : State} (h : Keeps r s) :
    Keeps r (closeRecord l a1 s) := by
  unfold closeRecord
  repeat' first
    | intro _ | with_reducible (first | assumption | apply keeps_closeOne | apply keeps_modLane | apply keeps_forEach)
    | (extract_lets +onlyGivenNames x
       first
       | (refine (fun (hx : Keeps r x) => ?_) ?_; (on_goal 1 => clear_value x); (on_goal 2 => dsimp -zeta only [x]))
       | clear_value x)
    | with_reducible apply keeps_mk

theorem keeps_takePart {r : State} (l : Nat) (n : Nat) (count : Nat) (found : Option (BitVec 56)) (pins : List EventPin) {s : State} (h : Keeps r s) :
    Keeps r (takePart l n count found pins s) := by
  unfold takePart
  repeat' first
    | intro _ | with_reducible (first | assumption | apply keeps_closeRecord | apply keeps_modLane | apply keeps_ite)
    | (extract_lets +onlyGivenNames x
       first
       | (refine (fun (hx : Keeps r x) => ?_) ?_; (on_goal 1 => clear_value x); (on_goal 2 => dsimp -zeta only [x]))
       | clear_value x)
    | split | with_reducible apply keeps_mk

theorem keeps_takeEvent {r : State} (k : Nat) (lp : Nat) {s : State} (h : Keeps r s) :
    Keeps r (takeEvent k lp s) := by
  unfold takeEvent
  repeat' first
    | intro _ | with_reducible (first | assumption | apply keeps_modLane | apply keeps_stageItem | apply keeps_divertEvent
                                      | apply keeps_takePart | apply keeps_forEach | apply keeps_ite)
    | (extract_lets +onlyGivenNames x
       first
       | (refine (fun (hx : Keeps r x) => ?_) ?_; (on_goal 1 => clear_value x); (on_goal 2 => dsimp -zeta only [x]))
       | (refine (fun (hx : Keeps r x.s) => ?_) ?_; (on_goal 1 => clear_value x); (on_goal 2 => dsimp -zeta only [x]))
       | clear_value x)
    | split | with_reducible apply keeps_mk | dsimp -zeta only

theorem keeps_closeTimeout {r : State} (k : Nat) (lp : Nat) {s : State} (h : Keeps r s) :
    Keeps r (closeTimeout k lp s) := by
  unfold closeTimeout
  repeat' first
    | intro _ | with_reducible (first | assumption | apply keeps_closeRecord | apply keeps_modLane | apply keeps_ite)
    | (extract_lets +onlyGivenNames x
       first
       | (refine (fun (hx : Keeps r x) => ?_) ?_; (on_goal 1 => clear_value x); (on_goal 2 => dsimp -zeta only [x]))
       | (refine (fun (hx : Keeps r x.s) => ?_) ?_; (on_goal 1 => clear_value x); (on_goal 2 => dsimp -zeta only [x]))
       | clear_value x)
    | split | with_reducible apply keeps_mk | dsimp -zeta only

theorem keeps_flushCapture {r : State} (k : Nat) {s : State} (h : Keeps r s) :
    Keeps r (flushCapture k s) := by
  unfold flushCapture
  repeat' first
    | intro _ | with_reducible (first | assumption | apply keeps_modFail | apply keeps_modLane | apply keeps_closeOne
                                      | apply keeps_publishStat | apply keeps_stageItem | apply keeps_forEach | apply keeps_forUpTo)
    | (extract_lets +onlyGivenNames x
       first
       | (refine (fun (hx : Keeps r x) => ?_) ?_; (on_goal 1 => clear_value x); (on_goal 2 => dsimp -zeta only [x]))
       | clear_value x)
    | with_reducible apply keeps_mk

theorem keeps_flushComplete {r : State} (k : Nat) {s : State} (h : Keeps r s) :
    Keeps r (flushComplete k s) := by
  unfold flushComplete
  repeat' first
    | intro _ | with_reducible (first | assumption | apply keeps_publishStat | apply keeps_raiseBit | apply keeps_modFail | apply keeps_ite)
    | split | with_reducible apply keeps_mk

theorem keeps_fcmdWrite {r : State} (k : Nat) (m : Master) (v : Word) {s : State} (h : Keeps r s) :
    Keeps r (fcmdWrite k m v s) := by
  unfold fcmdWrite
  repeat' first
    | intro _ | with_reducible (first | assumption | apply keeps_initPool | apply keeps_flushCapture | apply keeps_clearOverflow
                                      | apply keeps_ite)
    | (extract_lets +onlyGivenNames x
       first
       | (refine (fun (hx : Keeps r x) => ?_) ?_; (on_goal 1 => clear_value x); (on_goal 2 => dsimp -zeta only [x]))
       | clear_value x)
    | split

theorem keeps_scselWrite {r : State} (k : Nat) (v : Word) {s : State} (h : Keeps r s) :
    Keeps r (scselWrite k v s) := by
  unfold scselWrite
  repeat' first
    | intro _ | with_reducible (first | assumption | apply keeps_wrReg | apply keeps_modFail | apply keeps_forUpTo | apply keeps_ite)
    | (extract_lets +onlyGivenNames x
       first
       | (refine (fun (hx : Keeps r x) => ?_) ?_; (on_goal 1 => clear_value x); (on_goal 2 => dsimp -zeta only [x]))
       | clear_value x)
    | split | with_reducible apply keeps_mk

theorem keeps_captureChange {r : State} (k : Nat) (old : Bool) {s : State} (h : Keeps r s) :
    Keeps r (captureChange k old s) := by
  unfold captureChange
  repeat' first
    | intro _ | with_reducible (first | assumption | apply keeps_flushCapture | apply keeps_publishStat | apply keeps_ite)
    | split

theorem keeps_userMark {r : State} (l : Nat) (tag : Word) {s : State} (h : Keeps r s) :
    Keeps r (userMark l tag s) := by
  unfold userMark
  repeat' first
    | intro _ | with_reducible (first | assumption | apply keeps_modLane)
    | with_reducible apply keeps_mk

theorem keeps_expectedMark {r : State} (k : Nat) {s : State} (h : Keeps r s) :
    Keeps r (expectedMark k s) := by
  unfold expectedMark
  repeat' first
    | intro _ | with_reducible (first | assumption | apply keeps_checkMark | apply keeps_modBase)
    | split | with_reducible apply keeps_mk

theorem keeps_markStopArrives {r : State} (c : Nat) {s : State} (h : Keeps r s) :
    Keeps r (markStopArrives c s) := by
  unfold markStopArrives
  repeat' first
    | (refine fun x (hq : Quiet x) => (?_ : Quiet _))
    | (guard_target =~ Quiet _
       first
       | exact hq | exact quiet_laneChan _ hq | exact quiet_tileChan _ _ | split
       | exact Quiet.undriven hq rfl rfl rfl rfl rfl | exact Quiet.unmeasured hq rfl rfl rfl rfl rfl)
    | intro _ | with_reducible (first | assumption | apply keeps_modChan | apply keeps_ite)
    | split | with_reducible apply keeps_mk
    | dsimp -zeta only

theorem keeps_putEntries {r : State} (a0 : List WeldRegion) (a1 : Nat) {a2 : State} (h : Keeps r a2) :
    Keeps r (putEntries a0 a1 a2) := by
  induction a0 generalizing a1 a2 with
  | nil => exact h
  | cons e l ih => exact ih _ (keeps_memWrite _ _ h)


theorem keeps_syncTable {r : State} (k : Nat) {s : State} (h : Keeps r s) :
    Keeps r (syncTable k s) := by
  unfold syncTable
  repeat' first
    | intro _ | with_reducible (first | assumption | apply keeps_putEntries | apply keeps_wipeMem | apply keeps_ite)
    | (extract_lets +onlyGivenNames x
       first
       | (refine (fun (hx : Keeps r x) => ?_) ?_; (on_goal 1 => clear_value x); (on_goal 2 => dsimp -zeta only [x]))
       | clear_value x)
    | split

theorem keeps_startHook {r : State} (k : Nat) (g : Geometry) (a2 : WeldRegion) (a3 : WeldHook) {s : State} (h : Keeps r s) :
    Keeps r (startHook k g a2 a3 s) := by
  unfold startHook
  repeat' first
    | intro _ | with_reducible (first | assumption | apply keeps_setSeq | apply keeps_modWeld | apply keeps_ite)
    | split | with_reducible apply keeps_mk

theorem keeps_afterDecision {r : State} (k : Nat) (old : WeldRegion) (new : WeldRegion) {s : State} (h : Keeps r s) :
    Keeps r (afterDecision k old new s) := by
  unfold afterDecision
  repeat' first
    | intro _ | with_reducible (first | assumption | apply keeps_modWeld | apply keeps_ite)
    | (extract_lets +onlyGivenNames x
       first
       | (refine (fun (hx : Keeps r x) => ?_) ?_; (on_goal 1 => clear_value x); (on_goal 2 => dsimp -zeta only [x]))
       | clear_value x)
    | split | with_reducible apply keeps_mk

theorem keeps_examine {r : State} (k : Nat) (n : Nat) (i : Nat) (c : WeldCell) {s : State} (h : Keeps r s) :
    Keeps r (examine k n i c s) := by
  unfold examine
  repeat' first
    | intro _ | with_reducible (first | assumption | apply keeps_afterDecision | apply keeps_startHook | apply keeps_siteFlag
                                      | apply keeps_ite)
    | (extract_lets +onlyGivenNames x
       first
       | (refine (fun (hx : Keeps r x) => ?_) ?_; (on_goal 1 => clear_value x); (on_goal 2 => dsimp -zeta only [x]))
       | (refine (fun (hx : Keeps r x.s) => ?_) ?_; (on_goal 1 => clear_value x); (on_goal 2 => dsimp -zeta only [x]))
       | clear_value x)
    | split | dsimp -zeta only

theorem keeps_regionFor {r : State} (k : Nat) (n : Nat) (i : Nat) {s : State} (h : Keeps r s) :
    Keeps r (regionFor k n i s) := by
  unfold regionFor
  repeat' first
    | intro _ | with_reducible (first | assumption | apply keeps_raiseBit | apply keeps_siteFlag | apply keeps_modWeld
                                      | apply keeps_wmSample | apply keeps_ite)
    | (extract_lets +onlyGivenNames x
       first
       | (refine (fun (hx : Keeps r x) => ?_) ?_; (on_goal 1 => clear_value x); (on_goal 2 => dsimp -zeta only [x]))
       | clear_value x)
    | split | with_reducible apply keeps_mk

theorem keeps_takeCell {r : State} (k : Nat) (n : Nat) (i : Nat) (c : WeldCell) {s : State} (h : Keeps r s) :
    Keeps r (takeCell k n i c s) := by
  unfold takeCell
  repeat' first
    | intro _ | with_reducible (first | assumption | apply keeps_regionFor | apply keeps_modWeld | apply keeps_ite)
    | (extract_lets +onlyGivenNames x
       first
       | (refine (fun (hx : Keeps r x) => ?_) ?_; (on_goal 1 => clear_value x); (on_goal 2 => dsimp -zeta only [x]))
       | clear_value x)
    | split | with_reducible apply keeps_mk

theorem keeps_weldRun {r : State} (k : Nat) (a1 : Nat) {a2 : State} (h : Keeps r a2) :
    Keeps r (weldRun k a1 a2) := by
  induction a1 generalizing a2 with
  | zero => exact h
  | succ n ih =>
    unfold weldRun
    repeat' first
      | intro _ | with_reducible (first | assumption | apply keeps_examine | apply keeps_modWeld | apply keeps_takeCell | apply ih
                                        | apply keeps_forEach | apply keeps_forUpTo | apply keeps_foldl | apply keeps_ite)
      | (extract_lets +onlyGivenNames x
         first
         | (refine (fun (hx : Keeps r x) => ?_) ?_; (on_goal 1 => clear_value x); (on_goal 2 => dsimp -zeta only [x]))
         | (refine (fun (hx : Keeps r x.s) => ?_) ?_; (on_goal 1 => clear_value x); (on_goal 2 => dsimp -zeta only [x]))
         | clear_value x)
      | split | with_reducible apply keeps_mk | dsimp -zeta only


theorem keeps_weldCommand {r : State} (k : Nat) {s : State} (h : Keeps r s) :
    Keeps r (weldCommand k s) := by
  unfold weldCommand
  repeat' first
    | intro _ | with_reducible (first | assumption | apply keeps_setWeld | apply keeps_syncTable | apply keeps_raiseBit
                                      | apply keeps_wmSample | apply keeps_ite)
    | (extract_lets +onlyGivenNames x
       first
       | (refine (fun (hx : Keeps r x) => ?_) ?_; (on_goal 1 => clear_value x); (on_goal 2 => dsimp -zeta only [x]))
       | (refine (fun (hx : Keeps r x.s) => ?_) ?_; (on_goal 1 => clear_value x); (on_goal 2 => dsimp -zeta only [x]))
       | clear_value x)
    | split | with_reducible apply keeps_mk | dsimp -zeta only

theorem keeps_weldCommands {r : State} (k : Nat) (a1 : Nat) {a2 : State} (h : Keeps r a2) :
    Keeps r (weldCommands k a1 a2) := by
  induction a1 generalizing a2 with
  | zero => exact h
  | succ n ih =>
    unfold weldCommands
    repeat' first
      | intro _ | with_reducible (first | assumption | apply keeps_weldCommand | apply ih | apply keeps_forEach | apply keeps_forUpTo
                                        | apply keeps_foldl | apply keeps_ite)
      | (extract_lets +onlyGivenNames x
         first
         | (refine (fun (hx : Keeps r x) => ?_) ?_; (on_goal 1 => clear_value x); (on_goal 2 => dsimp -zeta only [x]))
         | (refine (fun (hx : Keeps r x.s) => ?_) ?_; (on_goal 1 => clear_value x); (on_goal 2 => dsimp -zeta only [x]))
         | clear_value x)
      | split | with_reducible apply keeps_mk | dsimp -zeta only


theorem keeps_weldRecord {r : State} (k : Nat) {s : State} (h : Keeps r s) :
    Keeps r (weldRecord k s) := by
  unfold weldRecord
  repeat' first
    | intro _ | with_reducible (first | assumption | apply keeps_wmSample | apply keeps_weldRun | apply keeps_setWeld
                                      | apply keeps_syncTable | apply keeps_weldCommands | apply keeps_ite)
    | (extract_lets +onlyGivenNames x
       first
       | (refine (fun (hx : Keeps r x) => ?_) ?_; (on_goal 1 => clear_value x); (on_goal 2 => dsimp -zeta only [x]))
       | (refine (fun (hx : Keeps r x.s) => ?_) ?_; (on_goal 1 => clear_value x); (on_goal 2 => dsimp -zeta only [x]))
       | clear_value x)
    | split | with_reducible apply keeps_mk | dsimp -zeta only

theorem keeps_weldStart {r : State} (k : Nat) (m : Master) {s : State} (h : Keeps r s) :
    Keeps r (weldStart k m s) := by
  unfold weldStart
  repeat' first
    | intro _ | with_reducible (first | assumption | apply keeps_modWeld | apply keeps_weldCommands | apply keeps_refuseCmd
                                      | apply keeps_ite)
    | split | with_reducible apply keeps_mk

theorem keeps_weldStarted {r : State} (k : Nat) {s : State} (h : Keeps r s) :
    Keeps r (weldStarted k s) := by
  unfold weldStarted
  repeat' first
    | intro _ | with_reducible (first | assumption | apply keeps_raiseBit | apply keeps_syncTable | apply keeps_modWeld
                                      | apply keeps_weldCommands | apply keeps_wmSample | apply keeps_ite)
    | (extract_lets +onlyGivenNames x
       first
       | (refine (fun (hx : Keeps r x) => ?_) ?_; (on_goal 1 => clear_value x); (on_goal 2 => dsimp -zeta only [x]))
       | (refine (fun (hx : Keeps r x.s) => ?_) ?_; (on_goal 1 => clear_value x); (on_goal 2 => dsimp -zeta only [x]))
       | clear_value x)
    | split | with_reducible apply keeps_mk | dsimp -zeta only

theorem keeps_weldCmdWrite {r : State} (k : Nat) (m : Master) (v : Word) {s : State} (h : Keeps r s) :
    Keeps r (weldCmdWrite k m v s) := by
  unfold weldCmdWrite
  dsimp only
  repeat' first
    | intro _ | with_reducible (first | assumption | apply keeps_weldCommands | apply keeps_modWeld | apply keeps_weldStart
                                      | apply keeps_rejectWrite | apply keeps_invalidWrite | apply keeps_ite)
    | (extract_lets +onlyGivenNames x
       first
       | (refine (fun (hx : Keeps r x) => ?_) ?_; (on_goal 1 => clear_value x); (on_goal 2 => dsimp -zeta only [x]))
       | clear_value x)
    | split | with_reducible apply keeps_mk

theorem keeps_solveStep {r : State} (k : Nat) (a1 : WeldRegion) {s : State} (h : Keeps r s) :
    Keeps r (solveStep k a1 s) := by
  unfold solveStep
  repeat' first
    | intro _ | with_reducible (first | assumption | apply keeps_modWeld | apply keeps_raiseBit | apply keeps_syncTable
                                      | apply keeps_weldCommands | apply keeps_ite)
    | (extract_lets +onlyGivenNames x
       first
       | (refine (fun (hx : Keeps r x) => ?_) ?_; (on_goal 1 => clear_value x); (on_goal 2 => dsimp -zeta only [x]))
       | clear_value x)
    | split | with_reducible apply keeps_mk

theorem keeps_solveRegion {r : State} (k : Nat) (exceeded : Bool) {s : State} (h : Keeps r s) :
    Keeps r (solveRegion k exceeded s) := by
  unfold solveRegion
  repeat' first
    | intro _ | with_reducible (first | assumption | apply keeps_modWeld | apply keeps_solveStep | apply keeps_startHook
                                      | apply keeps_siteFlag | apply keeps_raiseBit | apply keeps_ite)
    | (extract_lets +onlyGivenNames x
       first
       | (refine (fun (hx : Keeps r x) => ?_) ?_; (on_goal 1 => clear_value x); (on_goal 2 => dsimp -zeta only [x]))
       | (refine (fun (hx : Keeps r x.s) => ?_) ?_; (on_goal 1 => clear_value x); (on_goal 2 => dsimp -zeta only [x]))
       | clear_value x)
    | split | with_reducible apply keeps_mk | dsimp -zeta only

theorem keeps_hookDone {r : State} (k : Nat) {s : State} (h : Keeps r s) :
    Keeps r (hookDone k s) := by
  unfold hookDone
  repeat' first
    | intro _ | with_reducible (first | assumption | apply keeps_modWeld | apply keeps_solveStep | apply keeps_afterDecision
                                      | apply keeps_syncTable | apply keeps_weldCommands | apply keeps_weldRun | apply keeps_ite)
    | (extract_lets +onlyGivenNames x
       first
       | (refine (fun (hx : Keeps r x) => ?_) ?_; (on_goal 1 => clear_value x); (on_goal 2 => dsimp -zeta only [x]))
       | (refine (fun (hx : Keeps r x.s) => ?_) ?_; (on_goal 1 => clear_value x); (on_goal 2 => dsimp -zeta only [x]))
       | clear_value x)
    | split | with_reducible apply keeps_mk | dsimp -zeta only

theorem keeps_weldAbort {r : State} (k : Nat) {s : State} (h : Keeps r s) :
    Keeps r (weldAbort k s) := by
  unfold weldAbort
  repeat' first
    | intro _ | with_reducible (first | assumption | apply keeps_modWeld | apply keeps_siteFlag | apply keeps_raiseBit
                                      | apply keeps_forUpTo | apply keeps_ite)
    | (extract_lets +onlyGivenNames x
       first
       | (refine (fun (hx : Keeps r x) => ?_) ?_; (on_goal 1 => clear_value x); (on_goal 2 => dsimp -zeta only [x]))
       | clear_value x)
    | split | with_reducible apply keeps_mk

theorem keeps_replayWrite {r : State} (k : Nat) (m : Master) (v : Word) {s : State} (h : Keeps r s) :
    Keeps r (replayWrite k m v s) := by
  unfold replayWrite
  repeat' first
    | intro _ | with_reducible (first | assumption | apply keeps_rejectWrite | apply keeps_modWeld | apply keeps_ite)
    | (extract_lets +onlyGivenNames x
       first
       | (refine (fun (hx : Keeps r x) => ?_) ?_; (on_goal 1 => clear_value x); (on_goal 2 => dsimp -zeta only [x]))
       | clear_value x)
    | split | with_reducible apply keeps_mk

theorem keeps_sumselWrite {r : State} (k : Nat) (v : Word) {s : State} (h : Keeps r s) :
    Keeps r (sumselWrite k v s) := by
  unfold sumselWrite
  repeat' first
    | intro _ | with_reducible (first | assumption | apply keeps_wrReg | apply keeps_forUpTo)
    | (extract_lets +onlyGivenNames x
       first
       | (refine (fun (hx : Keeps r x) => ?_) ?_; (on_goal 1 => clear_value x); (on_goal 2 => dsimp -zeta only [x]))
       | clear_value x)

end Sys2Proof.Machine
end

