-- ==== Sys2Proof/Laws/KeepsEngines.lean ====
section
/-! SUPPORT. What every operation of the engines keeps (Safety.Keeps). -/

-- One theorem at a time: elaborating them in parallel takes the memory of many threads.
set_option Elab.async false
set_option linter.unusedTactic false
set_option linter.unreachableTactic false

namespace Sys2Proof.Machine

theorem keeps_writeback {r : State} (k : Nat) (unit : Nat) {s : State} (h : Keeps r s) :
    Keeps r (writeback k unit s) := by
  unfold writeback
  dsimp only
  repeat' first
    | (refine fun e (hm : ModeLegal _ e) => (?_ : ModeLegal _ _))
    | (guard_target =~ ModeLegal _ _
       first | exact hm | split | exact modeLegal_one _ _ rfl | exact ModeLegal.of_eq (e := e) (by simp) hm)
    | (refine fun (hall : ∀ k, ModeLegal k (eng _ k)) => (?_ : ModeLegal _ _)
       exact ModeLegal.of_eq (by simp) (hall _))
    | intro _ | with_reducible (first | assumption | apply keeps_setEng)
    | (extract_lets +onlyGivenNames x
       first
       | (refine (fun (hx : Keeps r x) => ?_) ?_; (on_goal 1 => clear_value x); (on_goal 2 => dsimp -zeta only [x]))
       | clear_value x)
    | split | with_reducible apply keeps_mk

theorem keeps_drain {r : State} (k : Nat) {s : State} (h : Keeps r s) :
    Keeps r (drain k s) := by
  unfold drain
  refine keeps_modEng k _ h fun e hm => ModeLegal.of_eq ?_ hm
  refine (mode_forEach _ _ _ fun o x => ?_).trans rfl
  split
  · rw [mode_landOp]
  · rfl


theorem keeps_beginLoad {r : State} (i : Nat) (m : Master) (v : Word) {s : State} (h : Keeps r s) :
    Keeps r (beginLoad i m v s) := by
  unfold beginLoad
  repeat' first
    | intro _ | with_reducible (first | assumption | apply keeps_refuseCmd | apply keeps_raiseReject | apply keeps_modStore
                                      | apply keeps_ite)
    | (extract_lets +onlyGivenNames x
       first
       | (refine (fun (hx : Keeps r x) => ?_) ?_; (on_goal 1 => clear_value x); (on_goal 2 => dsimp -zeta only [x]))
       | clear_value x)
    | split | with_reducible apply keeps_mk

theorem keeps_loadData {r : State} (i : Nat) (m : Master) (v : Word) {s : State} (h : Keeps r s) :
    Keeps r (loadData i m v s) := by
  unfold loadData
  repeat' first
    | intro _ | with_reducible (first | assumption | apply keeps_rejectWrite | apply keeps_wrReg | apply keeps_setStore | apply keeps_ite)
    | (extract_lets +onlyGivenNames x
       first
       | (refine (fun (hx : Keeps r x) => ?_) ?_; (on_goal 1 => clear_value x); (on_goal 2 => dsimp -zeta only [x]))
       | clear_value x)
    | split | with_reducible apply keeps_mk

theorem keeps_commitLoad {r : State} (i : Nat) (m : Master) {s : State} (h : Keeps r s) :
    Keeps r (commitLoad i m s) := by
  unfold commitLoad
  repeat' first
    | intro _ | with_reducible (first | assumption | apply keeps_rejectWrite | apply keeps_modStore | apply keeps_ite)
    | split | with_reducible apply keeps_mk

theorem keeps_failLoad {r : State} (i : Nat) (err : Nat) {s : State} (h : Keeps r s) :
    Keeps r (failLoad i err s) := by
  unfold failLoad
  repeat' first
    | intro _ | with_reducible (first | assumption | apply keeps_raiseBit | apply keeps_modStore | apply keeps_ite)
    | split | with_reducible apply keeps_mk

theorem keeps_commitDone {r : State} (i : Nat) (version : Word) {s : State} (h : Keeps r s) :
    Keeps r (commitDone i version s) := by
  unfold commitDone
  repeat' first
    | intro _ | with_reducible (first | assumption | apply keeps_failLoad | apply keeps_modStore | apply keeps_modLane
                                      | apply keeps_modFail | apply keeps_raiseBit | apply keeps_ite)
    | (extract_lets +onlyGivenNames x
       first
       | (refine (fun (hx : Keeps r x) => ?_) ?_; (on_goal 1 => clear_value x); (on_goal 2 => dsimp -zeta only [x]))
       | clear_value x)
    | split | with_reducible apply keeps_mk

theorem keeps_abortLoad {r : State} (i : Nat) (m : Master) {s : State} (h : Keeps r s) :
    Keeps r (abortLoad i m s) := by
  unfold abortLoad
  repeat' first
    | intro _ | with_reducible (first | assumption | apply keeps_failLoad | apply keeps_rejectWrite | apply keeps_ite)
    | split

theorem keeps_ldcmdWrite {r : State} (i : Nat) (m : Master) (v : Word) {s : State} (h : Keeps r s) :
    Keeps r (ldcmdWrite i m v s) := by
  unfold ldcmdWrite
  repeat' first
    | with_reducible (first | assumption | apply keeps_beginLoad | apply keeps_commitLoad | apply keeps_abortLoad)
    | split

theorem keeps_landSketch {r : State} (k : Nat) {s : State} (h : Keeps r s) :
    Keeps r (landSketch k s) := by
  unfold landSketch
  dsimp only
  repeat' first
    | (refine fun e (hm : ModeLegal _ e) => (?_ : ModeLegal _ _))
    | (guard_target =~ ModeLegal _ _
       first | exact hm | split | exact modeLegal_one _ _ rfl | exact ModeLegal.of_eq (e := e) (by simp) hm)
    | (refine fun (hall : ∀ k, ModeLegal k (eng _ k)) => (?_ : ModeLegal _ _)
       exact ModeLegal.of_eq (by simp) (hall _))
    | intro _ | with_reducible (first | assumption | apply keeps_setEng)
    | (extract_lets +onlyGivenNames x
       first
       | (refine (fun (hx : Keeps r x) => ?_) ?_; (on_goal 1 => clear_value x); (on_goal 2 => dsimp -zeta only [x]))
       | clear_value x)
    | split | with_reducible apply keeps_mk

theorem keeps_sketchDone {r : State} (l : Nat) {s : State} (h : Keeps r s) :
    Keeps r (sketchDone l s) := by
  unfold sketchDone
  repeat' first
    | (refine fun e (hm : ModeLegal _ e) => (?_ : ModeLegal _ _))
    | (guard_target =~ ModeLegal _ _
       first | exact hm | split | exact modeLegal_one _ _ rfl | exact ModeLegal.of_eq (e := e) (by simp) hm)
    | intro _ | with_reducible (first | assumption | apply keeps_modEng | apply keeps_modLane)
    | (extract_lets +onlyGivenNames x
       first
       | (refine (fun (hx : Keeps r x) => ?_) ?_; (on_goal 1 => clear_value x); (on_goal 2 => dsimp -zeta only [x]))
       | clear_value x)
    | split | with_reducible apply keeps_mk

theorem keeps_sketchReady {r : State} (l : Nat) {s : State} (h : Keeps r s) :
    Keeps r (sketchReady l s) := by
  unfold sketchReady
  repeat' first
    | intro _ | with_reducible (first | assumption | apply keeps_landSketch | apply keeps_modLane)
    | split | with_reducible apply keeps_mk

theorem keeps_sketchLand {r : State} (l : Nat) {s : State} (h : Keeps r s) :
    Keeps r (sketchLand l s) := by
  unfold sketchLand
  repeat' first
    | intro _ | with_reducible (first | assumption | apply keeps_sketchReady | apply keeps_forUpTo)

theorem keeps_sketchAbort {r : State} (l : Nat) (code : Nat) (a : Nat) {s : State} (h : Keeps r s) :
    Keeps r (sketchAbort l code a s) := by
  unfold sketchAbort
  repeat' first
    | (refine fun e (hm : ModeLegal _ e) => (?_ : ModeLegal _ _))
    | (guard_target =~ ModeLegal _ _
       first | exact hm | split | exact modeLegal_one _ _ rfl | exact ModeLegal.of_eq (e := e) (by simp) hm)
    | intro _ | with_reducible (first | assumption | apply keeps_sketchLand | apply keeps_modEng | apply keeps_landSketch
                                      | apply keeps_modLane | apply keeps_setSeq | apply keeps_raiseBit | apply keeps_wrReg)
    | (extract_lets +onlyGivenNames x
       first
       | (refine (fun (hx : Keeps r x) => ?_) ?_; (on_goal 1 => clear_value x); (on_goal 2 => dsimp -zeta only [x]))
       | clear_value x)
    | split | with_reducible apply keeps_mk

theorem keeps_sketchStart {r : State} (l : Nat) (t : Nat) (w : Word) (v : Wide) {s : State} (h : Keeps r s) :
    Keeps r (sketchStart l t w v s) := by
  unfold sketchStart
  dsimp only
  repeat' first
    | (refine fun e (hm : ModeLegal _ e) => (?_ : ModeLegal _ _))
    | (guard_target =~ ModeLegal _ _
       first | exact hm | split | exact modeLegal_one _ _ rfl | exact ModeLegal.of_eq (e := e) (by simp) hm)
    | (refine fun (hall : ∀ k, ModeLegal k (eng _ k)) => (?_ : ModeLegal _ _)
       exact ModeLegal.of_eq (by simp) (hall _))
    | intro _ | with_reducible (first | assumption | apply keeps_setEng | apply keeps_modLane | apply keeps_setSeq | apply keeps_forEach)
    | (extract_lets +onlyGivenNames x
       first
       | (refine (fun (hx : Keeps r x) => ?_) ?_; (on_goal 1 => clear_value x); (on_goal 2 => dsimp -zeta only [x]))
       | clear_value x)
    | with_reducible apply keeps_mk
    | split

theorem keeps_seqAbort {r : State} (q : Nat) (code : Nat) {s : State} (h : Keeps r s) :
    Keeps r (seqAbort q code s) := by
  unfold seqAbort
  repeat' first
    | intro _ | with_reducible (first | assumption | apply keeps_sketchAbort | apply keeps_setSeq | apply keeps_captureAs
                                      | apply keeps_modLane | apply keeps_raiseBit | apply keeps_wrReg | apply keeps_modFail
                                      | apply keeps_weldAbort | apply keeps_ite)
    | (extract_lets +onlyGivenNames x
       first
       | (refine (fun (hx : Keeps r x) => ?_) ?_; (on_goal 1 => clear_value x); (on_goal 2 => dsimp -zeta only [x]))
       | clear_value x)
    | split | with_reducible apply keeps_mk

theorem keeps_borindamStart {r : State} (q : Nat) {s : State} (h : Keeps r s) :
    Keeps r (borindamStart q s) := by
  unfold borindamStart
  repeat' first
    | intro _ | with_reducible (first | assumption | apply keeps_setSeq | apply keeps_tick | apply keeps_ite)
    | (extract_lets +onlyGivenNames x
       first
       | (refine (fun (hx : Keeps r x) => ?_) ?_; (on_goal 1 => clear_value x); (on_goal 2 => dsimp -zeta only [x]))
       | clear_value x)
    | split | with_reducible apply keeps_mk

theorem keeps_dataHalf {r : State} (q : Nat) (w : Wide) (c0 : Nat) (a : Nat) {s : State} (h : Keeps r s) :
    Keeps r (dataHalf q w c0 a s) := by
  unfold dataHalf
  repeat' first
    | intro _ | with_reducible (first | assumption | apply keeps_setSeq | apply keeps_tick | apply keeps_modLane | apply keeps_modWeld
                                      | apply keeps_ite)
    | (extract_lets +onlyGivenNames x
       first
       | (refine (fun (hx : Keeps r x) => ?_) ?_; (on_goal 1 => clear_value x); (on_goal 2 => dsimp -zeta only [x]))
       | clear_value x)
    | split | with_reducible apply keeps_mk

theorem keeps_sketchCycle {r : State} (l : Nat) (isDone : Bool) {s : State} (h : Keeps r s) :
    Keeps r (sketchCycle l isDone s) := by
  unfold sketchCycle
  repeat' first
    | intro _ | with_reducible (first | assumption | apply keeps_modLane | apply keeps_sketchDone | apply keeps_sketchAbort
                                      | apply keeps_ite)
    | (extract_lets +onlyGivenNames x
       first
       | (refine (fun (hx : Keeps r x) => ?_) ?_; (on_goal 1 => clear_value x); (on_goal 2 => dsimp -zeta only [x]))
       | clear_value x)
    | split | with_reducible apply keeps_mk

theorem keeps_failPortion {r : State} (i : Nat) (a : Nat) {s : State} (h : Keeps r s) :
    Keeps r (failPortion i a s) := by
  unfold failPortion
  repeat' first
    | intro _ | with_reducible (first | assumption | apply keeps_modStore | apply keeps_ite)
    | split | with_reducible apply keeps_mk

theorem keeps_storeEcc {r : State} (i : Nat) (a : Nat) (o : EccOutcome) {s : State} (h : Keeps r s) :
    Keeps r (storeEcc i a o s) := by
  unfold storeEcc
  repeat' first
    | intro _ | with_reducible (first | assumption | apply keeps_eccReport | apply keeps_modReg | apply keeps_failPortion)
    | (extract_lets +onlyGivenNames x
       first
       | (refine (fun (hx : Keeps r x) => ?_) ?_; (on_goal 1 => clear_value x); (on_goal 2 => dsimp -zeta only [x]))
       | clear_value x)
    | split

theorem keeps_microword {r : State} (q : Nat) (ecc : EccOutcome) {s : State} (h : Keeps r s) :
    Keeps r (microword q ecc s) := by
  unfold microword
  repeat' first
    | intro _ | with_reducible (first | assumption | apply keeps_borindamStart | apply keeps_storeEcc | apply keeps_sketchLand
                                      | apply keeps_seqAbort | apply keeps_setSeq | apply keeps_tick | apply keeps_dataHalf
                                      | apply keeps_sketchCycle | apply keeps_hookDone | apply keeps_ite)
    | (extract_lets +onlyGivenNames x
       first
       | (refine (fun (hx : Keeps r x) => ?_) ?_; (on_goal 1 => clear_value x); (on_goal 2 => dsimp -zeta only [x]))
       | (refine (fun (hx : Keeps r x.s) => ?_) ?_; (on_goal 1 => clear_value x); (on_goal 2 => dsimp -zeta only [x]))
       | clear_value x)
    | split | dsimp -zeta only

theorem keeps_microTimeout {r : State} (q : Nat) {s : State} (h : Keeps r s) :
    Keeps r (microTimeout q s) := by
  unfold microTimeout
  repeat' first
    | intro _ | with_reducible (first | assumption | apply keeps_setSeq | apply keeps_sketchAbort | apply keeps_microword
                                      | apply keeps_modLane | apply keeps_ite)
    | (extract_lets +onlyGivenNames x
       first
       | (refine (fun (hx : Keeps r x) => ?_) ?_; (on_goal 1 => clear_value x); (on_goal 2 => dsimp -zeta only [x]))
       | (refine (fun (hx : Keeps r x.s) => ?_) ?_; (on_goal 1 => clear_value x); (on_goal 2 => dsimp -zeta only [x]))
       | clear_value x)
    | split | with_reducible apply keeps_mk | dsimp -zeta only

theorem keeps_watchdogExpires {r : State} (l : Nat) {s : State} (h : Keeps r s) :
    Keeps r (watchdogExpires l s) := by
  unfold watchdogExpires
  repeat' first
    | intro _ | with_reducible (first | assumption | apply keeps_sketchAbort | apply keeps_ite)
    | split

theorem keeps_noteFetch {r : State} (k : Nat) (off : Nat) {s : State} (h : Keeps r s) :
    Keeps r (noteFetch k off s) := by
  unfold noteFetch
  repeat' first
    | (refine fun e (hm : ModeLegal _ e) => (?_ : ModeLegal _ _))
    | (guard_target =~ ModeLegal _ _
       first | exact hm | split | exact modeLegal_one _ _ rfl | exact ModeLegal.of_eq (e := e) (by simp) hm)
    | intro _ | with_reducible (first | assumption | apply keeps_modEng | apply keeps_ite)
    | (extract_lets +onlyGivenNames x
       first
       | (refine (fun (hx : Keeps r x) => ?_) ?_; (on_goal 1 => clear_value x); (on_goal 2 => dsimp -zeta only [x]))
       | clear_value x)
    | split | with_reducible apply keeps_mk

theorem keeps_storeFails {r : State} (k : Nat) (a : Nat) (kind : Nat) {s : State} (h : Keeps r s) :
    Keeps r (storeFails k a kind s) := by
  unfold storeFails
  repeat' first
    | (refine fun e (hm : ModeLegal _ e) => (?_ : ModeLegal _ _))
    | (guard_target =~ ModeLegal _ _
       first | exact hm | split | exact modeLegal_one _ _ rfl | exact ModeLegal.of_eq (e := e) (by simp) hm)
    | intro _ | with_reducible (first | assumption | apply keeps_modEng | apply keeps_ite)
    | split | with_reducible apply keeps_mk

theorem keeps_fillOne {r : State} (k : Nat) (before : List Op) (w : LoadWait) (o : Op) (rest : List Op) {s : State} (h : Keeps r s) :
    Keeps r (fillOne k before w o rest s) := by
  unfold fillOne
  extract_lets put done
  have hp : ∀ o' {t}, Keeps r t → Keeps r (put o' t) := fun o' t ht => keeps_modEng k _ ht fun e hm => hm
  have hd : ∀ v {t}, Keeps r t → Keeps r (done v t) := fun v t ht => hp _ ht
  split
  · exact hd _ h
  · split
    · exact keeps_enterPort _ _ _ _ _ _ _ (hp _ h)
    · split
      · exact keeps_storeFails _ _ _ (keeps_tick (hd _ h))
      · exact keeps_memWrite _ _ (hd _ h)


theorem keeps_fillWaits {r : State} (k : Nat) (a1 : Nat) {a2 : State} (h : Keeps r a2) :
    Keeps r (fillWaits k a1 a2) := by
  induction a1 generalizing a2 with
  | zero => exact h
  | succ n ih =>
    unfold fillWaits
    split
    · exact h
    · exact ih (keeps_fillOne k _ _ _ _ h)


theorem keeps_tasReply {r : State} (k : Nat) (data : List Byte) (err : Option BusKind) {s : State} (h : Keeps r s) :
    Keeps r (tasReply k data err s) := by
  unfold tasReply
  extract_lets land a
  have hl : ∀ v {t}, Keeps r t → Keeps r (land v t) := fun v t ht => keeps_modEng k _ ht fun e hm => hm
  split
  · exact hl _ h
  · exact keeps_storeFails _ _ _ (keeps_tick (hl _ h))


theorem keeps_flushFetch {r : State} (k : Nat) {s : State} (h : Keeps r s) :
    Keeps r (flushFetch k s) := by
  unfold flushFetch
  repeat' first
    | (refine fun e (hm : ModeLegal _ e) => (?_ : ModeLegal _ _))
    | (guard_target =~ ModeLegal _ _
       first | exact hm | split | exact modeLegal_one _ _ rfl | exact ModeLegal.of_eq (e := e) (by simp) hm)
    | intro _ | with_reducible (first | assumption | apply keeps_modEng | apply keeps_ite)
    | (extract_lets +onlyGivenNames x
       first
       | (refine (fun (hx : Keeps r x) => ?_) ?_; (on_goal 1 => clear_value x); (on_goal 2 => dsimp -zeta only [x]))
       | clear_value x)
    | split | with_reducible apply keeps_mk

theorem keeps_releaseFence {r : State} (k : Nat) {s : State} (h : Keeps r s) :
    Keeps r (releaseFence k s) := by
  unfold releaseFence
  dsimp only
  repeat' first
    | (refine fun e (hm : ModeLegal _ e) => (?_ : ModeLegal _ _))
    | (guard_target =~ ModeLegal _ _
       first | exact hm | split | exact modeLegal_one _ _ rfl | exact ModeLegal.of_eq (e := e) (by simp) hm)
    | (refine fun (hall : ∀ k, ModeLegal k (eng _ k)) => (?_ : ModeLegal _ _)
       exact ModeLegal.of_eq (by simp) (hall _))
    | intro _ | with_reducible (first | assumption | apply keeps_setEng | apply keeps_flushFetch | apply keeps_ite)
    | (extract_lets +onlyGivenNames x
       first
       | (refine (fun (hx : Keeps r x) => ?_) ?_; (on_goal 1 => clear_value x); (on_goal 2 => dsimp -zeta only [x]))
       | clear_value x)
    | split | with_reducible apply keeps_mk

theorem keeps_settle {r : State} (k : Nat) {s : State} (h : Keeps r s) :
    Keeps r (settle k s) := by
  unfold settle
  repeat' first
    | with_reducible (first | assumption | apply keeps_releaseFence | apply keeps_fillWaits)

theorem keeps_Run_mod {r : State} (c : Ctx) (f : Engine → Engine) {a0 : Run} (h : Keeps r a0.s) (hf : ∀ e, ModeLegal c.k e → ModeLegal c.k (f e)) :
    Keeps r (Run.mod a0 c f).s := by
  exact keeps_modEng _ _ h hf


theorem keeps_Run_fault {r : State} (f : Flt) {a0 : Run} (h : Keeps r a0.s) :
    Keeps r (Run.fault a0 f).s := by
  unfold Run.fault
  repeat' first
    | with_reducible (first | assumption)
    | with_reducible apply keeps_mk | dsimp -zeta only

theorem keeps_Run_stop {r : State}  {a0 : Run} (h : Keeps r a0.s) :
    Keeps r (Run.stop a0).s := by
  unfold Run.stop
  repeat' first
    | with_reducible (first | assumption)
    | with_reducible apply keeps_mk | dsimp -zeta only

theorem keeps_Run_need {r : State} (a : PortAccess) {a0 : Run} (h : Keeps r a0.s) :
    Keeps r (Run.need a0 a).s := by
  unfold Run.need
  repeat' first
    | with_reducible (first | assumption)
    | with_reducible apply keeps_mk | dsimp -zeta only

theorem keeps_Run_stopIf {r : State} (b : Bool) {a0 : Run} (h : Keeps r a0.s) :
    Keeps r (Run.stopIf a0 b).s := by
  unfold Run.stopIf
  repeat' first
    | intro _ | with_reducible (first | assumption | apply keeps_Run_stop | apply keeps_ite)
    | split | dsimp -zeta only

theorem keeps_Run_op {r : State} (c : Ctx) (unit : Nat) (vals : List (Nat × Wide)) {a0 : Run} (h : Keeps r a0.s) :
    Keeps r (Run.op a0 c unit vals).s := by
  unfold Run.op
  repeat' first
    | (refine fun e (hm : ModeLegal _ e) => (?_ : ModeLegal _ _))
    | (guard_target =~ ModeLegal _ _
       first | exact hm | split | exact modeLegal_one _ _ rfl | exact ModeLegal.of_eq (e := e) (by simp) hm)
    | intro _ | with_reducible (first | assumption | apply keeps_Run_mod)
    | with_reducible apply keeps_mk | dsimp -zeta only
    | split

theorem keeps_Run_op32 {r : State} (c : Ctx) (unit : Nat) (port : Nat) (v : Word) {a0 : Run} (h : Keeps r a0.s) :
    Keeps r (Run.op32 a0 c unit port v).s := by
  unfold Run.op32
  repeat' first
    | with_reducible (first | assumption | apply keeps_Run_op)
    | dsimp -zeta only

theorem keeps_trigArith {r : State} (c : Ctx) (m : Move) (t : Word) {a3 : Run} (h : Keeps r a3.s) :
    Keeps r (trigArith c m t a3).s := by
  unfold trigArith
  repeat' first
    | intro _ | with_reducible (first | assumption | apply keeps_Run_op32 | apply keeps_Run_stopIf | apply keeps_Run_fault
                                      | apply keeps_ite)
    | (extract_lets +onlyGivenNames x
       first
       | (refine (fun (hx : Keeps r x) => ?_) ?_; (on_goal 1 => clear_value x); (on_goal 2 => dsimp -zeta only [x]))
       | (refine (fun (hx : Keeps r x.s) => ?_) ?_; (on_goal 1 => clear_value x); (on_goal 2 => dsimp -zeta only [x]))
       | clear_value x)
    | split | dsimp -zeta only

theorem keeps_Run_read {r : State} (c : Ctx) (a n : Nat) {x : Run} (h : Keeps r x.s) : Keeps r (x.read c a n).2.s := by
  unfold Run.read
  split
  · exact keeps_report _ (keeps_eccMeets _ _ h)
  · exact keeps_eccMeets _ _ h

theorem keeps_trigLoad {r : State} (c : Ctx) (m : Move) (t : Word) {a3 : Run} (h : Keeps r a3.s) :
    Keeps r (trigLoad c m t a3).s := by
  unfold trigLoad
  extract_lets e i sh a r1 add put
  have h1 : Keeps r r1.s := keeps_Run_stopIf _ h
  have ha : ∀ v w {x : Run}, Keeps r x.s → Keeps r (add v w x).s := fun v w x hx => keeps_Run_mod c _ hx fun e hm => hm
  have hp : ∀ bs {x : Run}, Keeps r x.s → Keeps r (put bs x).s := fun bs x hx => ha _ none hx
  split
  · exact keeps_Run_fault _ h1
  · split
    · split
      · exact hp _ h1
      · split
        · exact ha _ _ h1
        · exact keeps_Run_stop h1
    · split
      · exact hp _ (keeps_Run_read c a sh.1 h1)
      · split
        · exact hp _ h1
        · exact keeps_Run_need _ (hp _ h1)


theorem keeps_trigStore {r : State} (c : Ctx) (m : Move) (t : Word) {a3 : Run} (h : Keeps r a3.s) :
    Keeps r (trigStore c m t a3).s := by
  unfold trigStore
  repeat' first
    | (refine fun e (hm : ModeLegal _ e) => (?_ : ModeLegal _ _))
    | (guard_target =~ ModeLegal _ _
       first | exact hm | split | exact modeLegal_one _ _ rfl | exact ModeLegal.of_eq (e := e) (by simp) hm)
    | intro _ | with_reducible (first | assumption | apply keeps_Run_stopIf | apply keeps_Run_fault | apply keeps_Run_mod | apply keeps_ite)
    | (extract_lets +onlyGivenNames x
       first
       | (refine (fun (hx : Keeps r x) => ?_) ?_; (on_goal 1 => clear_value x); (on_goal 2 => dsimp -zeta only [x]))
       | (refine (fun (hx : Keeps r x.s) => ?_) ?_; (on_goal 1 => clear_value x); (on_goal 2 => dsimp -zeta only [x]))
       | clear_value x)
    | split | with_reducible apply keeps_mk | dsimp -zeta only

theorem keeps_trigAtomic {r : State} (c : Ctx) (m : Move) (t : Word) {a3 : Run} (h : Keeps r a3.s) :
    Keeps r (trigAtomic c m t a3).s := by
  unfold trigAtomic
  extract_lets e i a isSc r1 line load stored y ok data
  have h1 : Keeps r r1.s := keeps_Run_stopIf _ h
  have hl : ∀ bs {x : Run}, Keeps r x.s → Keeps r (load bs x).s := fun bs x hx => keeps_Run_mod c _ hx fun e hm => hm
  have hs : ∀ ok {x : Run}, Keeps r x.s → Keeps r (stored ok x).s := fun ok x hx =>
    keeps_Run_op c _ _ (keeps_Run_mod c _ hx fun e hm => hm)
  split
  · exact keeps_Run_fault _ h1
  · split
    · split
      · exact keeps_Run_mod c _ (hl _ (keeps_Run_read c a 4 h1)) fun e hm => hm
      · split
        · exact hl _ h1
        · exact keeps_Run_need _ (hl _ h1)
    · split
      · refine hs ok ?_
        split
        · exact keeps_memWrite _ _ h1
        · exact h1
      · split
        · exact hs _ h1
        · split
          · exact keeps_Run_need _ (hs _ h1)
          · exact hs _ h1


theorem keeps_trigTas {r : State} (c : Ctx) (m : Move) (t : Word) (before : Nat) {a4 : Run} (h : Keeps r a4.s) :
    Keeps r (trigTas c m t before a4).s := by
  unfold trigTas
  extract_lets e i a v r1
  have h1 : Keeps r r1.s := keeps_Run_stopIf _ h
  split
  · exact keeps_Run_fault _ h1
  · split
    · split
      · exact keeps_Run_op c _ _ (keeps_memWrite a (leBytes 4 v) (keeps_Run_read c a 4 h1))
      · split
        · exact keeps_Run_op c _ _ h1
        · exact keeps_Run_need _ (keeps_Run_op c _ _ h1)
    · exact keeps_Run_mod c _ h1 fun e hm => hm


theorem keeps_trigBranch {r : State} (c : Ctx) (m : Move) (t : Word) {a3 : Run} (h : Keeps r a3.s) :
    Keeps r (trigBranch c m t a3).s := by
  unfold trigBranch
  repeat' first
    | (refine fun e (hm : ModeLegal _ e) => (?_ : ModeLegal _ _))
    | (guard_target =~ ModeLegal _ _
       first | exact hm | split | exact modeLegal_one _ _ rfl | exact ModeLegal.of_eq (e := e) (by simp) hm)
    | intro _ | with_reducible (first | assumption | apply keeps_Run_fault | apply keeps_Run_mod | apply keeps_ite)
    | (extract_lets +onlyGivenNames x
       first
       | (refine (fun (hx : Keeps r x) => ?_) ?_; (on_goal 1 => clear_value x); (on_goal 2 => dsimp -zeta only [x]))
       | (refine (fun (hx : Keeps r x.s) => ?_) ?_; (on_goal 1 => clear_value x); (on_goal 2 => dsimp -zeta only [x]))
       | clear_value x)
    | split | with_reducible apply keeps_mk | dsimp -zeta only

theorem keeps_trigCtl {r : State} (c : Ctx) (m : Move) (t : Word) {a3 : Run} (h : Keeps r a3.s) :
    Keeps r (trigCtl c m t a3).s := by
  unfold trigCtl
  repeat' first
    | (refine fun e (hm : ModeLegal _ e) => (?_ : ModeLegal _ _))
    | (guard_target =~ ModeLegal _ _
       first | exact hm | split | exact modeLegal_one _ _ rfl | exact ModeLegal.of_eq (e := e) (by simp) hm)
    | intro _ | with_reducible (first | assumption | apply keeps_Run_mod)
    | split | with_reducible apply keeps_mk | dsimp -zeta only

theorem keeps_sampleStack {r : State} (a : Nat) {s : State} (h : Keeps r s) :
    Keeps r (sampleStack a s) := by
  unfold sampleStack
  repeat' first
    | with_reducible (first | assumption | apply keeps_wmSample)
    | split

theorem keeps_trigPush {r : State} (c : Ctx) (m : Move) (t : Word) {a3 : Run} (h : Keeps r a3.s) :
    Keeps r (trigPush c m t a3).s := by
  unfold trigPush
  repeat' first
    | (refine fun e (hm : ModeLegal _ e) => (?_ : ModeLegal _ _))
    | (guard_target =~ ModeLegal _ _
       first | exact hm | split | exact modeLegal_one _ _ rfl | exact ModeLegal.of_eq (e := e) (by simp) hm)
    | intro _ | with_reducible (first | assumption | apply keeps_Run_stopIf | apply keeps_Run_fault | apply keeps_Run_mod
                                      | apply keeps_sampleStack | apply keeps_enterPort | apply keeps_ite)
    | (extract_lets +onlyGivenNames x
       first
       | (refine (fun (hx : Keeps r x) => ?_) ?_; (on_goal 1 => clear_value x); (on_goal 2 => dsimp -zeta only [x]))
       | (refine (fun (hx : Keeps r x.s) => ?_) ?_; (on_goal 1 => clear_value x); (on_goal 2 => dsimp -zeta only [x]))
       | clear_value x)
    | split | with_reducible apply keeps_mk | dsimp -zeta only

theorem keeps_trigWait {r : State} (c : Ctx) (m : Move) (t : Word) {a3 : Run} (h : Keeps r a3.s) :
    Keeps r (trigWait c m t a3).s := by
  unfold trigWait
  repeat' first
    | (refine fun e (hm : ModeLegal _ e) => (?_ : ModeLegal _ _))
    | (guard_target =~ ModeLegal _ _
       first | exact hm | split | exact modeLegal_one _ _ rfl | exact ModeLegal.of_eq (e := e) (by simp) hm)
    | intro _ | with_reducible (first | assumption | apply keeps_Run_fault | apply keeps_Run_mod | apply keeps_ite)
    | (extract_lets +onlyGivenNames x
       first
       | (refine (fun (hx : Keeps r x) => ?_) ?_; (on_goal 1 => clear_value x); (on_goal 2 => dsimp -zeta only [x]))
       | (refine (fun (hx : Keeps r x.s) => ?_) ?_; (on_goal 1 => clear_value x); (on_goal 2 => dsimp -zeta only [x]))
       | clear_value x)
    | split | with_reducible apply keeps_mk | dsimp -zeta only

theorem keeps_emitSymbols {r : State} (ch : Nat) (id : Nat) (slice : Bool) (bs : List Byte) {s : State} (h : Keeps r s) :
    Keeps r (emitSymbols ch id slice bs s) := by
  unfold emitSymbols
  refine keeps_modChan ch _ h fun x hq => ?_
  split
  · exact hq
  · extract_lets y
    have hy : Quiet y.2 := forEach_inv (P := fun z : List Symbol × Chan => Quiet z.2) (by exact hq) fun b z hz => quiet_laneSymbol slice b z hz
    exact hy


theorem keeps_Run_emitCheck {r : State} (c : Ctx) (f : Option Flt) (short : Bool) (go : Run → Run) {a0 : Run} (h : Keeps r a0.s) (hgo : ∀ x : Run, Keeps r x.s → Keeps r (go x).s) :
    Keeps r (Run.emitCheck a0 c f short go).s := by
  unfold Run.emitCheck
  repeat' first
    | intro _ | with_reducible (first | assumption | apply keeps_Run_fault | apply keeps_Run_stop | apply hgo | apply keeps_ite)
    | (extract_lets +onlyGivenNames x
       first
       | (refine (fun (hx : Keeps r x) => ?_) ?_; (on_goal 1 => clear_value x); (on_goal 2 => dsimp -zeta only [x]))
       | (refine (fun (hx : Keeps r x.s) => ?_) ?_; (on_goal 1 => clear_value x); (on_goal 2 => dsimp -zeta only [x]))
       | clear_value x)
    | split | with_reducible apply keeps_mk | dsimp -zeta only

theorem keeps_trigEmit {r : State} (c : Ctx) (m : Move) (t : Wide) {a3 : Run} (h : Keeps r a3.s) :
    Keeps r (trigEmit c m t a3).s := by
  unfold trigEmit
  repeat' first
    | intro _ | with_reducible (first | assumption | apply keeps_Run_fault | apply keeps_Run_emitCheck | apply keeps_emitSymbols
                                      | apply keeps_ite)
    | (extract_lets +onlyGivenNames x
       first
       | (refine (fun (hx : Keeps r x) => ?_) ?_; (on_goal 1 => clear_value x); (on_goal 2 => dsimp -zeta only [x]))
       | (refine (fun (hx : Keeps r x.s) => ?_) ?_; (on_goal 1 => clear_value x); (on_goal 2 => dsimp -zeta only [x]))
       | clear_value x)
    | split | with_reducible apply keeps_mk | dsimp -zeta only

theorem keeps_trigSlice {r : State} (c : Ctx) (m : Move) (t : Wide) {a3 : Run} (h : Keeps r a3.s) :
    Keeps r (trigSlice c m t a3).s := by
  unfold trigSlice
  extract_lets l x
  have h1 : Keeps r x.s := keeps_Run_stopIf _ h
  split
  · split
    · exact keeps_Run_fault _ h1
    · exact keeps_Run_emitCheck _ _ _ _ h1 fun x hx => hx
  · refine keeps_Run_emitCheck _ _ _ _ h1 fun x hx => ?_
    extract_lets first addr s1 id s2
    have h2 : Keeps r s1 := keeps_ite hx fun hx => keeps_recordAddress _ _ _ hx
    exact keeps_forEach (keeps_modLane _ _ h2) fun p s hs => keeps_emitSymbols _ _ _ _ hs


theorem keeps_trigVector {r : State} (c : Ctx) (m : Move) (t : Wide) {a3 : Run} (h : Keeps r a3.s) :
    Keeps r (trigVector c m t a3).s := by
  unfold trigVector
  repeat' first
    | intro _ | with_reducible (first | assumption | apply keeps_Run_op | apply keeps_ite)
    | (extract_lets +onlyGivenNames x
       first
       | (refine (fun (hx : Keeps r x) => ?_) ?_; (on_goal 1 => clear_value x); (on_goal 2 => dsimp -zeta only [x]))
       | (refine (fun (hx : Keeps r x.s) => ?_) ?_; (on_goal 1 => clear_value x); (on_goal 2 => dsimp -zeta only [x]))
       | clear_value x)
    | split | dsimp -zeta only

theorem keeps_trigAgen {r : State} (c : Ctx) (m : Move) (t : Wide) {a3 : Run} (h : Keeps r a3.s) :
    Keeps r (trigAgen c m t a3).s := by
  unfold trigAgen
  repeat' first
    | intro _ | with_reducible (first | assumption | apply keeps_Run_op | apply keeps_Run_fault | apply keeps_ite)
    | (extract_lets +onlyGivenNames x
       first
       | (refine (fun (hx : Keeps r x) => ?_) ?_; (on_goal 1 => clear_value x); (on_goal 2 => dsimp -zeta only [x]))
       | (refine (fun (hx : Keeps r x.s) => ?_) ?_; (on_goal 1 => clear_value x); (on_goal 2 => dsimp -zeta only [x]))
       | clear_value x)
    | split | dsimp -zeta only

theorem keeps_trigPattern {r : State} (c : Ctx) (m : Move) (t : Wide) {a3 : Run} (h : Keeps r a3.s) :
    Keeps r (trigPattern c m t a3).s := by
  unfold trigPattern
  repeat' first
    | with_reducible (first | assumption | apply keeps_Run_op | apply keeps_Run_op32)
    | (extract_lets +onlyGivenNames x
       first
       | (refine (fun (hx : Keeps r x) => ?_) ?_; (on_goal 1 => clear_value x); (on_goal 2 => dsimp -zeta only [x]))
       | (refine (fun (hx : Keeps r x.s) => ?_) ?_; (on_goal 1 => clear_value x); (on_goal 2 => dsimp -zeta only [x]))
       | clear_value x)
    | split | dsimp -zeta only

theorem keeps_trigEc {r : State} (c : Ctx) (m : Move) (t : Word) {a3 : Run} (h : Keeps r a3.s) :
    Keeps r (trigEc c m t a3).s := by
  unfold trigEc
  repeat' first
    | (refine fun e (hm : ModeLegal _ e) => (?_ : ModeLegal _ _))
    | (guard_target =~ ModeLegal _ _
       first | exact hm | split | exact modeLegal_one _ _ rfl | exact ModeLegal.of_eq (e := e) (by simp) hm)
    | intro _ | with_reducible (first | assumption | apply keeps_Run_stop | apply keeps_Run_mod | apply keeps_ite)
    | (extract_lets +onlyGivenNames x
       first
       | (refine (fun (hx : Keeps r x) => ?_) ?_; (on_goal 1 => clear_value x); (on_goal 2 => dsimp -zeta only [x]))
       | (refine (fun (hx : Keeps r x.s) => ?_) ?_; (on_goal 1 => clear_value x); (on_goal 2 => dsimp -zeta only [x]))
       | clear_value x)
    | split | with_reducible apply keeps_mk | dsimp -zeta only

theorem keeps_trigFs {r : State} (c : Ctx) (m : Move) (t : Word) {a3 : Run} (h : Keeps r a3.s) :
    Keeps r (trigFs c m t a3).s := by
  unfold trigFs
  dsimp only
  repeat' first
    | intro _ | with_reducible (first | assumption | apply keeps_Run_stopIf | apply keeps_Run_fault | apply keeps_Run_op32
                                      | apply keeps_userMark | apply keeps_ite)
    | (extract_lets +onlyGivenNames x
       first
       | (refine (fun (hx : Keeps r x) => ?_) ?_; (on_goal 1 => clear_value x); (on_goal 2 => dsimp -zeta only [x]))
       | (refine (fun (hx : Keeps r x.s) => ?_) ?_; (on_goal 1 => clear_value x); (on_goal 2 => dsimp -zeta only [x]))
       | clear_value x)
    | split | with_reducible apply keeps_mk | dsimp -zeta only

theorem keeps_trigSketch {r : State} (c : Ctx) (m : Move) (t : Wide) {a3 : Run} (h : Keeps r a3.s) :
    Keeps r (trigSketch c m t a3).s := by
  unfold trigSketch
  repeat' first
    | with_reducible (first | assumption | apply keeps_Run_stopIf | apply keeps_sketchStart)
    | (extract_lets +onlyGivenNames x
       first
       | (refine (fun (hx : Keeps r x) => ?_) ?_; (on_goal 1 => clear_value x); (on_goal 2 => dsimp -zeta only [x]))
       | (refine (fun (hx : Keeps r x.s) => ?_) ?_; (on_goal 1 => clear_value x); (on_goal 2 => dsimp -zeta only [x]))
       | clear_value x)
    | split | with_reducible apply keeps_mk | dsimp -zeta only

theorem keeps_trigLoop {r : State} (c : Ctx) (m : Move) (t : Word) {a3 : Run} (h : Keeps r a3.s) :
    Keeps r (trigLoop c m t a3).s := by
  unfold trigLoop
  repeat' first
    | (refine fun e (hm : ModeLegal _ e) => (?_ : ModeLegal _ _))
    | (guard_target =~ ModeLegal _ _
       first | exact hm | split | exact modeLegal_one _ _ rfl | exact ModeLegal.of_eq (e := e) (by simp) hm)
    | intro _ | with_reducible (first | assumption | apply keeps_Run_fault | apply keeps_Run_mod | apply keeps_ite)
    | (extract_lets +onlyGivenNames x
       first
       | (refine (fun (hx : Keeps r x) => ?_) ?_; (on_goal 1 => clear_value x); (on_goal 2 => dsimp -zeta only [x]))
       | (refine (fun (hx : Keeps r x.s) => ?_) ?_; (on_goal 1 => clear_value x); (on_goal 2 => dsimp -zeta only [x]))
       | clear_value x)
    | split | with_reducible apply keeps_mk | dsimp -zeta only

theorem keeps_trigger {r : State} (c : Ctx) (before : Nat) (m : Move) (t : Wide) {a4 : Run} (h : Keeps r a4.s) :
    Keeps r (trigger c before m t a4).s := by
  unfold trigger
  repeat' first
    | (refine fun e (hm : ModeLegal _ e) => (?_ : ModeLegal _ _))
    | (guard_target =~ ModeLegal _ _
       first | exact hm | split | exact modeLegal_one _ _ rfl | exact ModeLegal.of_eq (e := e) (by simp) hm)
    | intro _ | with_reducible (first | assumption | apply keeps_trigLoop | apply keeps_trigArith | apply keeps_trigLoad
                                      | apply keeps_trigStore | apply keeps_trigAtomic | apply keeps_trigTas | apply keeps_trigBranch
                                      | apply keeps_trigCtl | apply keeps_trigPush | apply keeps_trigWait | apply keeps_Run_mod
                                      | apply keeps_trigEmit | apply keeps_trigVector | apply keeps_trigAgen | apply keeps_trigPattern
                                      | apply keeps_trigSlice | apply keeps_trigEc | apply keeps_trigFs | apply keeps_trigSketch
                                      | apply keeps_ite)
    | (extract_lets +onlyGivenNames x
       first
       | (refine (fun (hx : Keeps r x) => ?_) ?_; (on_goal 1 => clear_value x); (on_goal 2 => dsimp -zeta only [x]))
       | (refine (fun (hx : Keeps r x.s) => ?_) ?_; (on_goal 1 => clear_value x); (on_goal 2 => dsimp -zeta only [x]))
       | clear_value x)
    | split | with_reducible apply keeps_mk | dsimp -zeta only

theorem keeps_reportEntry {r : State} (k : Nat) (v : Nat) (syn0 : Nat) (syn1 : Nat) (cause : Word) {s : State} (h : Keeps r s) :
    Keeps r (reportEntry k v syn0 syn1 cause s) := by
  unfold reportEntry
  repeat' first
    | intro _ | with_reducible (first | assumption | apply keeps_report | apply keeps_ite)
    | (extract_lets +onlyGivenNames x
       first
       | (refine (fun (hx : Keeps r x) => ?_) ?_; (on_goal 1 => clear_value x); (on_goal 2 => dsimp -zeta only [x]))
       | clear_value x)
    | split

theorem keeps_enterStuck {r : State} (k : Nat) (cause : Nat) (vec : Nat) (words : List Word) {s : State} (h : Keeps r s) :
    Keeps r (enterStuck k cause vec words s) := by
  unfold enterStuck
  repeat' first
    | (refine fun e (hm : ModeLegal _ e) => (?_ : ModeLegal _ _))
    | (guard_target =~ ModeLegal _ _
       first | exact hm | split | exact modeLegal_one _ _ rfl | exact ModeLegal.of_eq (e := e) (by simp) hm)
    | intro _ | with_reducible (first | assumption | apply keeps_modEng | apply keeps_report | apply keeps_raiseBit | apply keeps_ite)
    | (extract_lets +onlyGivenNames x
       first
       | (refine (fun (hx : Keeps r x) => ?_) ?_; (on_goal 1 => clear_value x); (on_goal 2 => dsimp -zeta only [x]))
       | clear_value x)
    | split | with_reducible apply keeps_mk

theorem keeps_stackFails {r : State} (k : Nat) (a : Nat) (write : Bool) (kind : BusKind) {s : State} (h : Keeps r s) :
    Keeps r (stackFails k a write kind s) := by
  unfold stackFails
  repeat' first
    | intro _ | with_reducible (first | assumption | apply keeps_portFails | apply keeps_ite)
    | split

theorem keeps_entryBegins {r : State} (k : Nat) {s : State} (h : Keeps r s) :
    Keeps r (entryBegins k s) := by
  unfold entryBegins
  repeat' first
    | (refine fun e (hm : ModeLegal _ e) => (?_ : ModeLegal _ _))
    | (guard_target =~ ModeLegal _ _
       first | exact hm | split | exact modeLegal_one _ _ rfl | exact ModeLegal.of_eq (e := e) (by simp) hm)
    | intro _ | with_reducible (first | assumption | apply keeps_modEng)
    | with_reducible apply keeps_mk
    | split

theorem keeps_parkAfter {r : State} (k : Nat) {s : State} (h : Keeps r s) :
    Keeps r (parkAfter k s) := by
  unfold parkAfter
  repeat' first
    | intro _ | with_reducible (first | assumption | apply keeps_enterStuck | apply keeps_ite)
    | split

theorem keeps_takeEntry {r : State} (k : Nat) (f : EntryF) (err : Option BusKind) {s : State} (h : Keeps r s) :
    Keeps r (takeEntry k f err s) := by
  unfold takeEntry
  repeat' first
    | exact fun e _ => modeLegal_entered _ _ _ _ e
    | (refine fun e (hm : ModeLegal _ e) => (?_ : ModeLegal _ _))
    | (guard_target =~ ModeLegal _ _
       first | exact hm | split | exact modeLegal_one _ _ rfl | exact ModeLegal.of_eq (e := e) (by simp) hm)
    | intro _ | with_reducible (first | assumption | apply keeps_drain | apply keeps_reportEntry | apply keeps_enterStuck
                                      | apply keeps_stackFails | apply keeps_modEng | apply keeps_portWrite | apply keeps_parkAfter
                                      | apply keeps_ite)
    | (extract_lets +onlyGivenNames x
       first
       | (refine (fun (hx : Keeps r x) => ?_) ?_; (on_goal 1 => clear_value x); (on_goal 2 => dsimp -zeta only [x]))
       | clear_value x)
    | split

theorem keeps_takeFault {r : State} (k : Nat) (f : Flt) (err : Option BusKind) {s : State} (h : Keeps r s) :
    Keeps r (takeFault k f err s) := by
  unfold takeFault
  repeat' first
    | (refine fun e (hm : ModeLegal _ e) => (?_ : ModeLegal _ _))
    | (guard_target =~ ModeLegal _ _
       first | exact hm | split | exact modeLegal_one _ _ rfl | exact ModeLegal.of_eq (e := e) (by simp) hm)
    | intro _ | with_reducible (first | assumption | apply keeps_entryBegins | apply keeps_modEng | apply keeps_takeEntry | apply keeps_ite)
    | (extract_lets +onlyGivenNames x
       first
       | (refine (fun (hx : Keeps r x) => ?_) ?_; (on_goal 1 => clear_value x); (on_goal 2 => dsimp -zeta only [x]))
       | clear_value x)
    | split

theorem keeps_readEffect {r : State} (k : Nat) (m : Move) {s : State} (h : Keeps r s) :
    Keeps r (readEffect k m s) := by
  unfold readEffect
  repeat' first
    | (refine fun e (hm : ModeLegal _ e) => (?_ : ModeLegal _ _))
    | (guard_target =~ ModeLegal _ _
       first | exact hm | split | exact modeLegal_one _ _ rfl | exact ModeLegal.of_eq (e := e) (by simp) hm)
    | intro _ | with_reducible (first | assumption | apply keeps_modEng)
    | split

theorem keeps_runForEach {α : Type} {r : State} {x : Run} {l : List α} {f : α → Run → Run} (h : Keeps r x.s)
    (hf : ∀ a x, Keeps r x.s → Keeps r (f a x).s) : Keeps r (forEach l x f).s := by
  unfold forEach
  induction l generalizing x with
  | nil => exact h
  | cons a l ih => exact ih (hf a x h)

theorem keeps_evalBundle {r : State} (k : Nat) (pc : Nat) (b : BundleF) (got : Option (List (Nat × List Byte))) (ecc : optParam EccOutcome EccOutcome.clean) {s : State} (h : Keeps r s) :
    Keeps r (evalBundle s k pc b got ecc).s := by
  unfold evalBundle
  extract_lets ms vs s1 x
  split
  · exact h
  · apply keeps_Run_mod
    · apply keeps_runForEach
      · exact keeps_modEng _ _ (keeps_forEach h fun m s hs => keeps_readEffect _ _ hs) fun e he => he.of_eq (by simp)
      · exact fun a x hx => keeps_trigger _ _ _ _ hx
    · exact fun e he => he.of_eq (by simp)


theorem keeps_nextPc {r : State} (w : Bundle) (k : Nat) (pc : Nat) {a1 : Run} (h : Keeps r a1.s) :
    Keeps r (nextPc w a1 k pc).s := by
  unfold nextPc
  dsimp only
  repeat' first
    | (refine fun e (hm : ModeLegal _ e) => (?_ : ModeLegal _ _))
    | (guard_target =~ ModeLegal _ _
       first | exact hm | split | exact modeLegal_one _ _ rfl | exact ModeLegal.of_eq (e := e) (by simp) hm)
    | intro _ | with_reducible (first | assumption | apply keeps_Run_mod | apply keeps_ite)
    | (extract_lets +onlyGivenNames x
       first
       | (refine (fun (hx : Keeps r x) => ?_) ?_; (on_goal 1 => clear_value x); (on_goal 2 => dsimp -zeta only [x]))
       | (refine (fun (hx : Keeps r x.s) => ?_) ?_; (on_goal 1 => clear_value x); (on_goal 2 => dsimp -zeta only [x]))
       | clear_value x)
    | split | with_reducible apply keeps_mk | dsimp -zeta only

theorem keeps_endBundle {r : State} (w : Bundle) (k : Nat) (pc : Nat) {a3 : Run} (h : Keeps r a3.s) :
    Keeps r (endBundle w k pc a3).s := by
  unfold endBundle
  repeat' first
    | (refine fun e (hm : ModeLegal _ e) => (?_ : ModeLegal _ _))
    | (guard_target =~ ModeLegal _ _
       first | exact hm | split | exact modeLegal_one _ _ rfl | exact ModeLegal.of_eq (e := e) (by simp) hm)
    | intro _ | with_reducible (first | assumption | apply keeps_nextPc | apply keeps_Run_mod | apply keeps_ite)
    | (extract_lets +onlyGivenNames x
       first
       | (refine (fun (hx : Keeps r x) => ?_) ?_; (on_goal 1 => clear_value x); (on_goal 2 => dsimp -zeta only [x]))
       | (refine (fun (hx : Keeps r x.s) => ?_) ?_; (on_goal 1 => clear_value x); (on_goal 2 => dsimp -zeta only [x]))
       | clear_value x)
    | split | with_reducible apply keeps_mk | dsimp -zeta only

theorem keeps_issueAccess {r : State} (w : Bundle) (k : Nat) (got : List (Nat × List Byte)) (x : PortAccess) {s : State} (h : Keeps r s) :
    Keeps r (issueAccess w k got x s) := by
  unfold issueAccess
  repeat' first
    | (refine fun e (hm : ModeLegal _ e) => (?_ : ModeLegal _ _))
    | (guard_target =~ ModeLegal _ _
       first | exact hm | split | exact modeLegal_one _ _ rfl | exact ModeLegal.of_eq (e := e) (by simp) hm)
    | intro _ | with_reducible (first | assumption | apply keeps_modEng | apply keeps_enterPort)
    | with_reducible apply keeps_mk
    | split

theorem keeps_issueStore {r : State} (k : Nat) {s : State} (h : Keeps r s) :
    Keeps r (issueStore k s) := by
  unfold issueStore
  repeat' first
    | intro _ | with_reducible (first | assumption | apply keeps_enterPort | apply keeps_ite)
    | split

theorem keeps_settled {r : State} (k : Nat) {s : State} (h : Keeps r s) :
    Keeps r (settled k s) := by
  unfold settled
  repeat' first
    | with_reducible (first | assumption | apply keeps_issueStore | apply keeps_settle)

theorem keeps_afterBundle {r : State} (k : Nat) (err : Option BusKind) {s : State} (h : Keeps r s) :
    Keeps r (afterBundle k err s) := by
  unfold afterBundle
  repeat' first
    | exact fun e _ => modeLegal_returned _ _ e
    | (refine fun e (hm : ModeLegal _ e) => (?_ : ModeLegal _ _))
    | (guard_target =~ ModeLegal _ _
       first | exact hm | split | exact modeLegal_one _ _ rfl | exact ModeLegal.of_eq (e := e) (by simp) hm)
    | intro _ | with_reducible (first | assumption | apply keeps_takeEntry | apply keeps_modEng | apply keeps_drain
                                      | apply keeps_enterStuck | apply keeps_stackFails | apply keeps_parkAfter | apply keeps_ite)
    | (extract_lets +onlyGivenNames x
       first
       | (refine (fun (hx : Keeps r x) => ?_) ?_; (on_goal 1 => clear_value x); (on_goal 2 => dsimp -zeta only [x]))
       | clear_value x)
    | split | with_reducible apply keeps_mk

theorem keeps_becomeCurrent {r : State} (k : Nat) {s : State} (h : Keeps r s) :
    Keeps r (becomeCurrent k s) := by
  unfold becomeCurrent
  repeat' first
    | intro _ | with_reducible (first | assumption | apply keeps_modLane | apply keeps_ite)
    | split | with_reducible apply keeps_mk

theorem keeps_noteThread {r : State} (k : Nat) {s : State} (h : Keeps r s) :
    Keeps r (noteThread k s) := by
  unfold noteThread
  repeat' first
    | intro _ | with_reducible (first | assumption | apply keeps_modLane | apply keeps_becomeCurrent | apply keeps_ite)
    | split | with_reducible apply keeps_mk

theorem keeps_commitBundle {r : State} (w : Bundle) (k : Nat) (pc : Nat) (err : Option BusKind) {a4 : Run} (h : Keeps r a4.s) :
    Keeps r (commitBundle w k pc err a4) := by
  unfold commitBundle
  repeat' first
    | (refine fun e (hm : ModeLegal _ e) => (?_ : ModeLegal _ _))
    | (guard_target =~ ModeLegal _ _
       first | exact hm | split | exact modeLegal_one _ _ rfl | exact ModeLegal.of_eq (e := e) (by simp) hm)
    | intro _ | with_reducible (first | assumption | apply keeps_endBundle | apply keeps_settled | apply keeps_afterBundle
                                      | apply keeps_modEng)
    | (extract_lets +onlyGivenNames x
       first
       | (refine (fun (hx : Keeps r x) => ?_) ?_; (on_goal 1 => clear_value x); (on_goal 2 => dsimp -zeta only [x]))
       | (refine (fun (hx : Keeps r x.s) => ?_) ?_; (on_goal 1 => clear_value x); (on_goal 2 => dsimp -zeta only [x]))
       | clear_value x)
    | split | with_reducible apply keeps_mk | dsimp -zeta only

theorem keeps_runBundle {r : State} (w : Bundle) (k : Nat) (err : Option BusKind) (ecc : EccOutcome) {s : State} (h : Keeps r s) :
    Keeps r (runBundle w k err ecc s) := by
  have hx := keeps_evalBundle k (eng s k).pc.toNat (bundleOf w) none ecc h
  unfold runBundle
  extract_lets pc x
  split
  · exact h
  · split
    · exact keeps_takeFault _ _ _ (keeps_becomeCurrent _ h)
    · split
      · exact keeps_issueAccess _ _ _ _ (keeps_noteThread _ h)
      · exact keeps_commitBundle _ _ _ _ (keeps_noteThread _ hx)


theorem keeps_replyBundle {r : State} (k : Nat) (err : Option BusKind) (ecc : EccOutcome) {s : State} (h : Keeps r s) :
    Keeps r (replyBundle k err ecc s) := by
  unfold replyBundle
  extract_lets e s1 pc
  split
  · exact h
  · split
    · exact h
    · have h1 : Keeps r s1 := keeps_modEng k _ h fun e hm => hm
      split
      · extract_lets got x
        have hx := fun b => keeps_evalBundle k pc b (some got) ecc h1
        split
        · exact keeps_issueAccess _ _ _ _ h1
        · exact keeps_commitBundle _ _ _ _ (hx _)
      · split
        · exact h1
        · split
          · exact keeps_entryBegins _ h
          · exact keeps_takeFault _ _ _ h1


theorem keeps_takeFetchFault {r : State} (k : Nat) (f : Flt) {s : State} (h : Keeps r s) :
    Keeps r (takeFetchFault k f s) := by
  unfold takeFetchFault
  repeat' first
    | intro _ | with_reducible (first | assumption | apply keeps_takeFault | apply keeps_portFails | apply keeps_ite)
    | (extract_lets +onlyGivenNames x
       first
       | (refine (fun (hx : Keeps r x) => ?_) ?_; (on_goal 1 => clear_value x); (on_goal 2 => dsimp -zeta only [x]))
       | clear_value x)
    | split

theorem keeps_issueNow {r : State} (k : Nat) (iteration : Bool) (err : Option AccessErr) {s : State} (h : Keeps r s) :
    Keeps r (issueNow k iteration err s) := by
  unfold issueNow
  repeat' first
    | (refine fun e (hm : ModeLegal _ e) => (?_ : ModeLegal _ _))
    | (guard_target =~ ModeLegal _ _
       first | exact hm | split | exact modeLegal_one _ _ rfl | exact ModeLegal.of_eq (e := e) (by simp) hm)
    | intro _ | with_reducible (first | assumption | apply keeps_takeFetchFault | apply keeps_becomeCurrent | apply keeps_noteFetch
                                      | apply keeps_takeFault | apply keeps_settled | apply keeps_noteThread | apply keeps_nextPc
                                      | apply keeps_modEng | apply keeps_runBundle | apply keeps_ite)
    | (extract_lets +onlyGivenNames x
       first
       | (refine (fun (hx : Keeps r x) => ?_) ?_; (on_goal 1 => clear_value x); (on_goal 2 => dsimp -zeta only [x]))
       | clear_value x)
    | split | with_reducible apply keeps_mk

theorem keeps_issueNext {r : State} (k : Nat) (iteration : Bool) (err : Option AccessErr) {s : State} (h : Keeps r s) :
    Keeps r (issueNext k iteration err s) := by
  unfold issueNext
  repeat' first
    | intro _ | with_reducible (first | assumption | apply keeps_tick | apply keeps_replyBundle | apply keeps_afterBundle
                                      | apply keeps_takeFault | apply keeps_becomeCurrent | apply keeps_issueNow | apply keeps_ite)
    | (extract_lets +onlyGivenNames x
       first
       | (refine (fun (hx : Keeps r x) => ?_) ?_; (on_goal 1 => clear_value x); (on_goal 2 => dsimp -zeta only [x]))
       | (refine (fun (hx : Keeps r x.s) => ?_) ?_; (on_goal 1 => clear_value x); (on_goal 2 => dsimp -zeta only [x]))
       | clear_value x)
    | split | dsimp -zeta only

theorem keeps_issue {r : State} (k : Nat) (iteration : Bool) (err : Option AccessErr) {s : State} (h : Keeps r s) :
    Keeps r (issue k iteration err s) := by
  unfold issue
  repeat' first
    | intro _ | with_reducible (first | assumption | apply keeps_issueNext | apply keeps_parkAfter | apply keeps_ite)
    | (extract_lets +onlyGivenNames x
       first
       | (refine (fun (hx : Keeps r x) => ?_) ?_; (on_goal 1 => clear_value x); (on_goal 2 => dsimp -zeta only [x]))
       | clear_value x)
    | split

theorem keeps_delayOver {r : State} (k : Nat) {s : State} (h : Keeps r s) :
    Keeps r (delayOver k s) := by
  unfold delayOver
  repeat' first
    | (refine fun e (hm : ModeLegal _ e) => (?_ : ModeLegal _ _))
    | (guard_target =~ ModeLegal _ _
       first | exact hm | split | exact modeLegal_one _ _ rfl | exact ModeLegal.of_eq (e := e) (by simp) hm)
    | intro _ | with_reducible (first | assumption | apply keeps_modEng | apply keeps_reach)
    | split | with_reducible apply keeps_mk

theorem keeps_asyncEntry {r : State} (k : Nat) (err : Option BusKind) {s : State} (h : Keeps r s) :
    Keeps r (asyncEntry k err s) := by
  unfold asyncEntry
  dsimp only
  repeat' first
    | (refine fun e (hm : ModeLegal _ e) => (?_ : ModeLegal _ _))
    | (guard_target =~ ModeLegal _ _
       first | exact hm | split | exact modeLegal_one _ _ rfl | exact ModeLegal.of_eq (e := e) (by simp) hm)
    | (refine fun (hall : ∀ k, ModeLegal k (eng _ k)) => (?_ : ModeLegal _ _)
       exact ModeLegal.of_eq (by simp) (hall _))
    | intro _ | with_reducible (first | assumption | apply keeps_entryBegins | apply keeps_takeEntry | apply keeps_setEng | apply keeps_ite)
    | (extract_lets +onlyGivenNames x
       first
       | (refine (fun (hx : Keeps r x) => ?_) ?_; (on_goal 1 => clear_value x); (on_goal 2 => dsimp -zeta only [x]))
       | (refine (fun (hx : Keeps r x.s) => ?_) ?_; (on_goal 1 => clear_value x); (on_goal 2 => dsimp -zeta only [x]))
       | clear_value x)
    | split | with_reducible apply keeps_mk | dsimp -zeta only

theorem keeps_interruptEntry {r : State} (k : Nat) (err : Option BusKind) {s : State} (h : Keeps r s) :
    Keeps r (interruptEntry k err s) := by
  unfold interruptEntry
  dsimp only
  repeat' first
    | (refine fun e (hm : ModeLegal _ e) => (?_ : ModeLegal _ _))
    | (guard_target =~ ModeLegal _ _
       first | exact hm | split | exact modeLegal_one _ _ rfl | exact ModeLegal.of_eq (e := e) (by simp) hm)
    | (refine fun (hall : ∀ k, ModeLegal k (eng _ k)) => (?_ : ModeLegal _ _)
       exact ModeLegal.of_eq (by simp) (hall _))
    | intro _ | with_reducible (first | assumption | apply keeps_entryBegins | apply keeps_takeEntry | apply keeps_setEng | apply keeps_ite)
    | (extract_lets +onlyGivenNames x
       first
       | (refine (fun (hx : Keeps r x) => ?_) ?_; (on_goal 1 => clear_value x); (on_goal 2 => dsimp -zeta only [x]))
       | (refine (fun (hx : Keeps r x.s) => ?_) ?_; (on_goal 1 => clear_value x); (on_goal 2 => dsimp -zeta only [x]))
       | clear_value x)
    | split | with_reducible apply keeps_mk | dsimp -zeta only

theorem keeps_emitWaitFault {r : State} (k : Nat) (err : Option BusKind) {s : State} (h : Keeps r s) :
    Keeps r (emitWaitFault k err s) := by
  unfold emitWaitFault
  repeat' first
    | intro _ | with_reducible (first | assumption | apply keeps_evalBundle | apply keeps_takeFault | apply keeps_ite)
    | (extract_lets +onlyGivenNames x
       first
       | (refine (fun (hx : Keeps r x) => ?_) ?_; (on_goal 1 => clear_value x); (on_goal 2 => dsimp -zeta only [x]))
       | (refine (fun (hx : Keeps r x.s) => ?_) ?_; (on_goal 1 => clear_value x); (on_goal 2 => dsimp -zeta only [x]))
       | clear_value x)
    | split | dsimp -zeta only

theorem keeps_residueError {r : State} (k : Nat) (parity : Bool) (sock : Nat) {s : State} (h : Keeps r s) :
    Keeps r (residueError k parity sock s) := by
  unfold residueError
  repeat' first
    | (refine fun e (hm : ModeLegal _ e) => (?_ : ModeLegal _ _))
    | (guard_target =~ ModeLegal _ _
       first | exact hm | split | exact modeLegal_one _ _ rfl | exact ModeLegal.of_eq (e := e) (by simp) hm)
    | intro _ | with_reducible (first | assumption | apply keeps_modEng | apply keeps_ite)
    | (extract_lets +onlyGivenNames x
       first
       | (refine (fun (hx : Keeps r x) => ?_) ?_; (on_goal 1 => clear_value x); (on_goal 2 => dsimp -zeta only [x]))
       | clear_value x)
    | split | with_reducible apply keeps_mk

theorem keeps_popStore {r : State} (k : Nat) {s : State} (h : Keeps r s) :
    Keeps r (popStore k s) := by
  unfold popStore
  repeat' first
    | (refine fun e (hm : ModeLegal _ e) => (?_ : ModeLegal _ _))
    | (guard_target =~ ModeLegal _ _
       first | exact hm | split | exact modeLegal_one _ _ rfl | exact ModeLegal.of_eq (e := e) (by simp) hm)
    | intro _ | with_reducible (first | assumption | apply keeps_modEng)
    | with_reducible apply keeps_mk
    | split

theorem keeps_storeBusError {r : State} (k : Nat) (kind : Nat) {s : State} (h : Keeps r s) :
    Keeps r (storeBusError k kind s) := by
  unfold storeBusError
  repeat' first
    | with_reducible (first | assumption | apply keeps_settled | apply keeps_storeFails | apply keeps_popStore)
    | split

theorem keeps_storeLeaves {r : State} (k : Nat) {s : State} (h : Keeps r s) :
    Keeps r (storeLeaves k s) := by
  unfold storeLeaves
  repeat' first
    | intro _ | with_reducible (first | assumption | apply keeps_settled | apply keeps_popStore | apply keeps_ite)
    | split

theorem keeps_queueArrives {r : State} (k : Nat) (ecc : EccOutcome) {s : State} (h : Keeps r s) :
    Keeps r (queueArrives k ecc s) := by
  unfold queueArrives
  repeat' first
    | (refine fun e (hm : ModeLegal _ e) => (?_ : ModeLegal _ _))
    | (guard_target =~ ModeLegal _ _
       first | exact hm | split | exact modeLegal_one _ _ rfl | exact ModeLegal.of_eq (e := e) (by simp) hm)
    | intro _ | with_reducible (first | assumption | apply keeps_eccMeets | apply keeps_sampleStack | apply keeps_modEng | apply keeps_ite)
    | (extract_lets +onlyGivenNames x
       first
       | (refine (fun (hx : Keeps r x) => ?_) ?_; (on_goal 1 => clear_value x); (on_goal 2 => dsimp -zeta only [x]))
       | clear_value x)
    | split | with_reducible apply keeps_mk

theorem keeps_queueReply {r : State} (k : Nat) (serial : Nat) (data : List Byte) (err : Option BusKind) {s : State} (h : Keeps r s) :
    Keeps r (queueReply k serial data err s) := by
  unfold queueReply
  repeat' first
    | (refine fun e (hm : ModeLegal _ e) => (?_ : ModeLegal _ _))
    | (guard_target =~ ModeLegal _ _
       first | exact hm | split | exact modeLegal_one _ _ rfl | exact ModeLegal.of_eq (e := e) (by simp) hm)
    | intro _ | with_reducible (first | assumption | apply keeps_sampleStack | apply keeps_modEng | apply keeps_ite)
    | (extract_lets +onlyGivenNames x
       first
       | (refine (fun (hx : Keeps r x) => ?_) ?_; (on_goal 1 => clear_value x); (on_goal 2 => dsimp -zeta only [x]))
       | clear_value x)
    | split | with_reducible apply keeps_mk

theorem keeps_loadReply {r : State} (k : Nat) (data : List Byte) (err : Option BusKind) {s : State} (h : Keeps r s) :
    Keeps r (loadReply k data err s) := by
  unfold loadReply
  repeat' first
    | (refine fun e (hm : ModeLegal _ e) => (?_ : ModeLegal _ _))
    | (guard_target =~ ModeLegal _ _
       first | exact hm | split | exact modeLegal_one _ _ rfl | exact ModeLegal.of_eq (e := e) (by simp) hm)
    | intro _ | with_reducible (first | assumption | apply keeps_modEng)
    | with_reducible apply keeps_mk
    | split

theorem keeps_thrCtlWrite {r : State} (l : Nat) (v : Word) {s : State} (h : Keeps r s) :
    Keeps r (thrCtlWrite l v s) := by
  unfold thrCtlWrite
  repeat' first
    | (refine fun e (hm : ModeLegal _ e) => (?_ : ModeLegal _ _))
    | (guard_target =~ ModeLegal _ _
       first | exact hm | split | exact modeLegal_one _ _ rfl | exact ModeLegal.of_eq (e := e) (by simp) hm)
    | intro _ | with_reducible (first | assumption | apply keeps_wrReg | apply keeps_modEng | apply keeps_modLane | apply keeps_forUpTo
                                      | apply keeps_ite)
    | (extract_lets +onlyGivenNames x
       first
       | (refine (fun (hx : Keeps r x) => ?_) ?_; (on_goal 1 => clear_value x); (on_goal 2 => dsimp -zeta only [x]))
       | clear_value x)
    | split | with_reducible apply keeps_mk

theorem keeps_freePorts {r : State} (k : Nat) {s : State} (h : Keeps r s) :
    Keeps r (freePorts k s) := by
  unfold freePorts
  repeat' first
    | (refine fun e (hm : ModeLegal _ e) => (?_ : ModeLegal _ _))
    | (guard_target =~ ModeLegal _ _
       first | exact hm | split | exact modeLegal_one _ _ rfl | exact ModeLegal.of_eq (e := e) (by simp) hm)
    | intro _ | with_reducible (first | assumption | apply keeps_tick | apply keeps_modEng | apply keeps_forEach | apply keeps_ite)
    | split

theorem keeps_markStarted {r : State} (k : Nat) {s : State} (h : Keeps r s) :
    Keeps r (markStarted k s) := by
  unfold markStarted
  repeat' first
    | intro _ | with_reducible (first | assumption | apply keeps_modLane | apply keeps_ite)
    | split | with_reducible apply keeps_mk

theorem keeps_dropAll {r : State} (k : Nat) {s : State} (h : Keeps r s) :
    Keeps r (dropAll k s) := by
  unfold dropAll
  repeat' first
    | intro _ | with_reducible (first | assumption | apply keeps_ite)
    | (extract_lets +onlyGivenNames x
       first
       | (refine (fun (hx : Keeps r x) => ?_) ?_; (on_goal 1 => clear_value x); (on_goal 2 => dsimp -zeta only [x]))
       | clear_value x)
    | split | with_reducible apply keeps_mk

theorem keeps_dropLoad {r : State} (k : Nat) {s : State} (h : Keeps r s) :
    Keeps r (dropLoad k s) := by
  unfold dropLoad
  repeat' first
    | intro _ | with_reducible (first | assumption | apply keeps_ite)
    | (extract_lets +onlyGivenNames x
       first
       | (refine (fun (hx : Keeps r x) => ?_) ?_; (on_goal 1 => clear_value x); (on_goal 2 => dsimp -zeta only [x]))
       | clear_value x)
    | split | with_reducible apply keeps_mk

theorem keeps_parkEngine {r : State} (k : Nat) {s : State} (h : Keeps r s) :
    Keeps r (parkEngine k s) := by
  unfold parkEngine
  repeat' first
    | (refine fun e (hm : ModeLegal _ e) => (?_ : ModeLegal _ _))
    | (guard_target =~ ModeLegal _ _
       first | exact hm | split | exact modeLegal_one _ _ rfl | exact ModeLegal.of_eq (e := e) (by simp) hm)
    | intro _ | with_reducible (first | assumption | apply keeps_modEng | apply keeps_enterStuck | apply keeps_dropLoad | apply keeps_ite)
    | (extract_lets +onlyGivenNames x
       first
       | (refine (fun (hx : Keeps r x) => ?_) ?_; (on_goal 1 => clear_value x); (on_goal 2 => dsimp -zeta only [x]))
       | clear_value x)
    | split | with_reducible apply keeps_mk

theorem keeps_ecOperate {r : State} (q : EcRequest) {s : State} (h : Keeps r s) :
    Keeps r (ecOperate q s).2 := by
  unfold ecOperate
  repeat' first
    | (refine fun e (hm : ModeLegal _ e) => (?_ : ModeLegal _ _))
    | (guard_target =~ ModeLegal _ _
       first | exact hm | split | exact modeLegal_one _ _ rfl | exact ModeLegal.of_eq (e := e) (by simp) hm)
    | intro _ | with_reducible (first | assumption | apply keeps_markStarted | apply keeps_freePorts | apply keeps_modEng
                                      | apply keeps_parkEngine | apply keeps_ite)
    | split | with_reducible apply keeps_mk

theorem keeps_ecComplete {r : State} (p : Nat) {s : State} (h : Keeps r s) :
    Keeps r (ecComplete p s) := by
  unfold ecComplete
  repeat' first
    | (refine fun e (hm : ModeLegal _ e) => (?_ : ModeLegal _ _))
    | (guard_target =~ ModeLegal _ _
       first | exact hm | split | exact modeLegal_one _ _ rfl | exact ModeLegal.of_eq (e := e) (by simp) hm)
    | intro _ | with_reducible (first | assumption | apply keeps_ecOperate | apply keeps_modEng | apply keeps_ite)
    | (extract_lets +onlyGivenNames x
       first
       | (refine (fun (hx : Keeps r x) => ?_) ?_; (on_goal 1 => clear_value x); (on_goal 2 => dsimp -zeta only [x]))
       | (refine (fun (hx : Keeps r x.2) => ?_) ?_; (on_goal 1 => clear_value x); (on_goal 2 => dsimp -zeta only [x]))
       | clear_value x)
    | split | with_reducible apply keeps_mk

end Sys2Proof.Machine
end

