-- ==== Sys2Proof/Laws/KeepsFabric.lean ====
section
/-! SUPPORT. What every operation of Hang, the fabric, Tongs, domains and power keeps (Safety.Keeps). -/

-- One theorem at a time: elaborating them in parallel takes the memory of many threads.
set_option Elab.async false
set_option linter.unusedTactic false
set_option linter.unreachableTactic false

namespace Sys2Proof.Machine

theorem keeps_setHang {r : State} (i : Nat) (x : HangSlot) {s : State} (h : Keeps r s) :
    Keeps r (setHang i x s) := by
  unfold setHang
  repeat' first
    | with_reducible (first | assumption)
    | with_reducible apply keeps_mk

theorem keeps_slotRefused {r : State} (i : Nat) (x : HangSlot) {s : State} (h : Keeps r s) :
    Keeps r (slotRefused i x s) := by
  unfold slotRefused
  repeat' first
    | with_reducible (first | assumption | apply keeps_offer | apply keeps_raiseBit | apply keeps_setHang)

theorem keeps_badPage {r : State} (p : Option Nat) {s : State} (h : Keeps r s) :
    Keeps r (badPage p s) := by
  unfold badPage
  repeat' first
    | intro _ | with_reducible (first | assumption | apply keeps_modReg | apply keeps_ite)
    | split

theorem keeps_decideHang {r : State} (a : HangAsk) (origin : Bool) {s : State} (h : Keeps r s) :
    Keeps r (decideHang a origin s) := by
  unfold decideHang
  repeat' first
    | intro _ | with_reducible (first | assumption | apply keeps_setHang | apply keeps_capture | apply keeps_slotRefused
                                      | apply keeps_badPage | apply keeps_ite)
    | (extract_lets +onlyGivenNames x
       first
       | (refine (fun (hx : Keeps r x) => ?_) ?_; (on_goal 1 => clear_value x); (on_goal 2 => dsimp -zeta only [x]))
       | clear_value x)
    | split

theorem keeps_copyPage {r : State} (p : Nat) {s : State} (h : Keeps r s) :
    Keeps r (copyPage p s) := by
  unfold copyPage
  repeat' first
    | intro _ | with_reducible (first | assumption | apply keeps_wrRole | apply keeps_forEach | apply keeps_forUpTo | apply keeps_ite)
    | (extract_lets +onlyGivenNames x
       first
       | (refine (fun (hx : Keeps r x) => ?_) ?_; (on_goal 1 => clear_value x); (on_goal 2 => dsimp -zeta only [x]))
       | clear_value x)
    | split | with_reducible apply keeps_mk

theorem keeps_mayCopy {r : State} (p : Nat) {s : State} (h : Keeps r s) :
    Keeps r (mayCopy p s) := by
  unfold mayCopy
  repeat' first
    | intro _ | with_reducible (first | assumption | apply keeps_copyPage | apply keeps_tick | apply keeps_ite)
    | split | with_reducible apply keeps_mk

theorem keeps_mayCopyTied {r : State} (k : Nat) {s : State} (h : Keeps r s) :
    Keeps r (mayCopyTied k s) := by
  unfold mayCopyTied
  repeat' first
    | intro _ | with_reducible (first | assumption | apply keeps_mayCopy | apply keeps_forEach)

theorem keeps_copyBefore {r : State} (page : Nat) {s : State} (h : Keeps r s) :
    Keeps r (copyBefore page s) := by
  unfold copyBefore
  repeat' first
    | with_reducible (first | assumption | apply keeps_mayCopyTied | apply keeps_mayCopy)
    | split

theorem keeps_copyDone {r : State}  {s : State} (h : Keeps r s) :
    Keeps r (copyDone s) := by
  unfold copyDone
  repeat' first
    | intro _ | with_reducible (first | assumption | apply keeps_copyPage | apply keeps_forEach)
    | split | with_reducible apply keeps_mk

theorem keeps_switchChannel {r : State} (c : Nat) {s : State} (h : Keeps r s) :
    Keeps r (switchChannel c s) := by
  unfold switchChannel
  extract_lets p edge s1 old oldFunc oldStrm oldPmu zero swap note
  have h1 : Keeps r s1 := keeps_ite h fun h => keeps_endStroke c h
  have hw : ∀ {t}, Keeps r t → Keeps r (swap t) := fun ht => keeps_dropHeld c (keeps_mk ht)
  have hn : ∀ {t}, Keeps r t → Keeps r (note t) := fun ht => keeps_srcChange c _ _ (keeps_modChan c _ ht fun x hq => hq)
  split
  · exact keeps_mk (hn (hw (keeps_holdForce c h1)))
  · exact keeps_changeSettings c false (fun s => note (swap s)) h1 fun t ht => hn (hw ht)


theorem keeps_switchCluster {r : State} (k : Nat) {s : State} (h : Keeps r s) :
    Keeps r (switchCluster k s) := by
  unfold switchCluster
  repeat' first
    | intro _ | with_reducible (first | assumption | apply keeps_publish | apply keeps_captureChange | apply keeps_timebaseStart
                                      | apply keeps_timebaseStop | apply keeps_ite)
    | (extract_lets +onlyGivenNames x
       first
       | (refine (fun (hx : Keeps r x) => ?_) ?_; (on_goal 1 => clear_value x); (on_goal 2 => dsimp -zeta only [x]))
       | clear_value x)
    | split | with_reducible apply keeps_mk

theorem keeps_switchPage {r : State} (p : Nat) {s : State} (h : Keeps r s) :
    Keeps r (switchPage p s) := by
  unfold switchPage
  repeat' first
    | intro _ | with_reducible (first | assumption | apply keeps_modReg | apply keeps_switchChannel | apply keeps_switchCluster
                                      | apply keeps_publishFabric | apply keeps_ite)
    | (extract_lets +onlyGivenNames x
       first
       | (refine (fun (hx : Keeps r x) => ?_) ?_; (on_goal 1 => clear_value x); (on_goal 2 => dsimp -zeta only [x]))
       | clear_value x)
    | split | with_reducible apply keeps_mk

theorem keeps_skipPage {r : State} (i : Nat) (p : Nat) {s : State} (h : Keeps r s) :
    Keeps r (skipPage i p s) := by
  unfold skipPage
  repeat' first
    | with_reducible (first | assumption | apply keeps_report | apply keeps_raiseBit | apply keeps_setHang)
    | (extract_lets +onlyGivenNames x
       first
       | (refine (fun (hx : Keeps r x) => ?_) ?_; (on_goal 1 => clear_value x); (on_goal 2 => dsimp -zeta only [x]))
       | clear_value x)
    | with_reducible apply keeps_mk

theorem keeps_hangDone {r : State} (i : Nat) {s : State} (h : Keeps r s) :
    Keeps r (hangDone i s) := by
  unfold hangDone
  repeat' first
    | intro _ | with_reducible (first | assumption | apply keeps_raiseBit | apply keeps_modReg | apply keeps_setHang | apply keeps_ite)
    | (extract_lets +onlyGivenNames x
       first
       | (refine (fun (hx : Keeps r x) => ?_) ?_; (on_goal 1 => clear_value x); (on_goal 2 => dsimp -zeta only [x]))
       | clear_value x)
    | split | with_reducible apply keeps_mk

theorem keeps_switchOne {r : State} (i : Nat) (p : Nat) {s : State} (h : Keeps r s) :
    Keeps r (switchOne i p s) := by
  unfold switchOne
  repeat' first
    | intro _ | with_reducible (first | assumption | apply keeps_skipPage | apply keeps_switchPage | apply keeps_mayCopy
                                      | apply keeps_hangDone | apply keeps_setHang | apply keeps_ite)
    | (extract_lets +onlyGivenNames x
       first
       | (refine (fun (hx : Keeps r x) => ?_) ?_; (on_goal 1 => clear_value x); (on_goal 2 => dsimp -zeta only [x]))
       | clear_value x)
    | split | with_reducible apply keeps_mk

theorem keeps_switchTied {r : State} (i : Nat) (k : Nat) {s : State} (h : Keeps r s) :
    Keeps r (switchTied i k s) := by
  unfold switchTied
  repeat' first
    | intro _ | with_reducible (first | assumption | apply keeps_switchOne | apply keeps_reach | apply keeps_forEach)

theorem keeps_pageSwitches {r : State} (i : Nat) (p : Nat) {s : State} (h : Keeps r s) :
    Keeps r (pageSwitches i p s) := by
  unfold pageSwitches
  repeat' first
    | intro _ | with_reducible (first | assumption | apply keeps_switchTied | apply keeps_switchOne | apply keeps_reach | apply keeps_ite)
    | (extract_lets +onlyGivenNames x
       first
       | (refine (fun (hx : Keeps r x) => ?_) ?_; (on_goal 1 => clear_value x); (on_goal 2 => dsimp -zeta only [x]))
       | clear_value x)
    | split

theorem keeps_boundarySwitches {r : State} (k : Nat) {s : State} (h : Keeps r s) :
    Keeps r (boundarySwitches k s) := by
  unfold boundarySwitches
  repeat' first
    | intro _ | with_reducible (first | assumption | apply keeps_switchTied | apply keeps_forUpTo | apply keeps_ite)
    | split

theorem keeps_skipDomain {r : State} (d : Nat) {s : State} (h : Keeps r s) :
    Keeps r (skipDomain d s) := by
  unfold skipDomain
  repeat' first
    | intro _ | with_reducible (first | assumption | apply keeps_setHang | apply keeps_forUpTo | apply keeps_ite)
    | (extract_lets +onlyGivenNames x
       first
       | (refine (fun (hx : Keeps r x) => ?_) ?_; (on_goal 1 => clear_value x); (on_goal 2 => dsimp -zeta only [x]))
       | clear_value x)
    | split | with_reducible apply keeps_mk

theorem keeps_hangCmd {r : State} (m : Master) (v : Word) {s : State} (h : Keeps r s) :
    Keeps r (hangCmd m v s) := by
  unfold hangCmd
  repeat' first
    | intro _ | with_reducible (first | assumption | apply keeps_rejectWrite | apply keeps_ite)
    | (extract_lets +onlyGivenNames x
       first
       | (refine (fun (hx : Keeps r x) => ?_) ?_; (on_goal 1 => clear_value x); (on_goal 2 => dsimp -zeta only [x]))
       | clear_value x)
    | split | with_reducible apply keeps_mk

theorem keeps_cancelSlot {r s s' : State} {i : Nat} (h : Keeps r s) (e : cancelSlot i s = some s') : Keeps r s' := by
  unfold cancelSlot at e
  dsimp only at e
  split at e
  · rw [← Option.some.inj e]
    exact keeps_slotRefused _ _ h
  · exact absurd e (by simp)

theorem keeps_cancelCmd {r : State} (m : Master) (v : Word) {s : State} (h : Keeps r s) :
    Keeps r (cancelCmd m v s) := by
  unfold cancelCmd
  repeat' first
    | exact keeps_cancelSlot h (by assumption)
    | intro _ | with_reducible (first | assumption | apply keeps_rejectWrite | apply keeps_ite)
    | split

theorem keeps_copyCmd {r : State} (m : Master) (v : Word) {s : State} (h : Keeps r s) :
    Keeps r (copyCmd m v s) := by
  unfold copyCmd
  repeat' first
    | intro _ | with_reducible (first | assumption | apply keeps_rejectWrite | apply keeps_ite)
    | split | with_reducible apply keeps_mk

theorem keeps_setPortAt {r : State} (p : Nat) (x : Port) {s : State} (h : Keeps r s) :
    Keeps r (setPortAt p x s) := by
  unfold setPortAt
  repeat' first
    | with_reducible (first | assumption)
    | with_reducible apply keeps_mk

theorem keeps_modPort {r : State} (p : Nat) (f : Port → Port) {s : State} (h : Keeps r s) :
    Keeps r (modPort p f s) := by
  unfold modPort
  repeat' first
    | with_reducible (first | assumption | apply keeps_setPortAt)

theorem keeps_modFab {r : State} (f : Fabric → Fabric) {s : State} (h : Keeps r s) :
    Keeps r (modFab f s) := by
  unfold modFab
  repeat' first
    | with_reducible (first | assumption)
    | with_reducible apply keeps_mk

theorem keeps_noteSent {r : State} (p : Nat) (f : Frame) {s : State} (h : Keeps r s) :
    Keeps r (noteSent p f s) := by
  unfold noteSent
  repeat' first
    | intro _ | with_reducible (first | assumption | apply keeps_modFab | apply keeps_ite)
    | split | with_reducible apply keeps_mk

theorem keeps_sendOne {r : State} (p : Nat) (f : Frame) (w : Nat) {s : State} (h : Keeps r s) :
    Keeps r (sendOne p f w s) := by
  unfold sendOne
  repeat' first
    | with_reducible (first | assumption | apply keeps_noteSent | apply keeps_send | apply keeps_setPortAt)
    | (extract_lets +onlyGivenNames x
       first
       | (refine (fun (hx : Keeps r x) => ?_) ?_; (on_goal 1 => clear_value x); (on_goal 2 => dsimp -zeta only [x]))
       | clear_value x)
    | with_reducible apply keeps_mk

theorem keeps_sendFrames_go {r : State} (p : Nat) (a1 : Nat) {a2 : State} (h : Keeps r a2) :
    Keeps r (sendFrames.go p a1 a2) := by
  induction a1 generalizing a2 with
  | zero => exact h
  | succ n ih =>
    unfold sendFrames.go
    repeat' first
      | intro _ | with_reducible (first | assumption | apply keeps_sendOne | apply ih | apply keeps_forEach | apply keeps_forUpTo
                                        | apply keeps_foldl | apply keeps_ite)
      | (extract_lets +onlyGivenNames x
         first
         | (refine (fun (hx : Keeps r x) => ?_) ?_; (on_goal 1 => clear_value x); (on_goal 2 => dsimp -zeta only [x]))
         | (refine (fun (hx : Keeps r x.s) => ?_) ?_; (on_goal 1 => clear_value x); (on_goal 2 => dsimp -zeta only [x]))
         | clear_value x)
      | split | with_reducible apply keeps_mk | dsimp -zeta only


theorem keeps_sendFrames {r : State} (p : Nat) {s : State} (h : Keeps r s) :
    Keeps r (sendFrames p s) := by
  unfold sendFrames
  repeat' first
    | intro _ | with_reducible (first | assumption | apply keeps_sendFrames_go | apply keeps_ite)
    | split

theorem keeps_queueFrame {r : State} (p : Nat) (f : Frame) {s : State} (h : Keeps r s) :
    Keeps r (queueFrame p f s) := by
  unfold queueFrame
  repeat' first
    | intro _ | with_reducible (first | assumption | apply keeps_sendFrames | apply keeps_modPort | apply keeps_wmSample)
    | (extract_lets +onlyGivenNames x
       first
       | (refine (fun (hx : Keeps r x) => ?_) ?_; (on_goal 1 => clear_value x); (on_goal 2 => dsimp -zeta only [x]))
       | clear_value x)
    | with_reducible apply keeps_mk

theorem keeps_countFb {r : State} (off : Nat) {s : State} (h : Keeps r s) :
    Keeps r (countFb off s) := by
  unfold countFb
  repeat' first
    | with_reducible (first | assumption | apply keeps_countReg)

theorem keeps_forwardOn {r : State} (p : Nat) (f : Frame) {s : State} (h : Keeps r s) :
    Keeps r (forwardOn p f s) := by
  unfold forwardOn
  repeat' first
    | intro _ | with_reducible (first | assumption | apply keeps_countFb | apply keeps_queueFrame | apply keeps_ite)
    | split

theorem keeps_deliver {r : State} (p : Nat) (f : Frame) {s : State} (h : Keeps r s) :
    Keeps r (deliver p f s) := by
  unfold deliver
  repeat' first
    | intro _ | with_reducible (first | assumption | apply keeps_modFab)
    | with_reducible apply keeps_mk

theorem keeps_routeQuiet {r : State} (f : Frame) {s : State} (h : Keeps r s) :
    Keeps r (routeQuiet f s) := by
  unfold routeQuiet
  repeat' first
    | with_reducible (first | assumption | apply keeps_forwardOn | apply keeps_countFb)
    | split

theorem keeps_sendTo {r : State} (f : Frame) {s : State} (h : Keeps r s) :
    Keeps r (sendTo f s) := by
  unfold sendTo
  repeat' first
    | intro _ | with_reducible (first | assumption | apply keeps_deliver | apply keeps_forwardOn | apply keeps_countFb
                                      | apply keeps_routeQuiet | apply keeps_ite)
    | (extract_lets +onlyGivenNames x
       first
       | (refine (fun (hx : Keeps r x) => ?_) ?_; (on_goal 1 => clear_value x); (on_goal 2 => dsimp -zeta only [x]))
       | clear_value x)
    | split

theorem keeps_broadcast {r : State} (arrival : Nat) (f : Frame) {s : State} (h : Keeps r s) :
    Keeps r (broadcast arrival f s) := by
  unfold broadcast
  repeat' first
    | intro _ | with_reducible (first | assumption | apply keeps_forwardOn | apply keeps_forUpTo | apply keeps_ite)
    | (extract_lets +onlyGivenNames x
       first
       | (refine (fun (hx : Keeps r x) => ?_) ?_; (on_goal 1 => clear_value x); (on_goal 2 => dsimp -zeta only [x]))
       | clear_value x)
    | split

theorem keeps_portRoute {r : State} (arrival : Nat) (f : Frame) {s : State} (h : Keeps r s) :
    Keeps r (portRoute arrival f s) := by
  unfold portRoute
  repeat' first
    | intro _ | with_reducible (first | assumption | apply keeps_deliver | apply keeps_countFb | apply keeps_forwardOn | apply keeps_ite)
    | (extract_lets +onlyGivenNames x
       first
       | (refine (fun (hx : Keeps r x) => ?_) ?_; (on_goal 1 => clear_value x); (on_goal 2 => dsimp -zeta only [x]))
       | clear_value x)
    | split | with_reducible apply keeps_mk

theorem keeps_answerRouted {r : State} (d : Delivered) (type : Nat) (addr : Nat) (tail : List Byte) {s : State} (h : Keeps r s) :
    Keeps r (answerRouted d type addr tail s) := by
  unfold answerRouted
  repeat' first
    | intro _ | with_reducible (first | assumption | apply keeps_deliver | apply keeps_forwardOn | apply keeps_countFb | apply keeps_ite)
    | (extract_lets +onlyGivenNames x
       first
       | (refine (fun (hx : Keeps r x) => ?_) ?_; (on_goal 1 => clear_value x); (on_goal 2 => dsimp -zeta only [x]))
       | clear_value x)
    | split | with_reducible apply keeps_mk

theorem keeps_freeBuffer {r : State} (p : Nat) (f : Frame) {s : State} (h : Keeps r s) :
    Keeps r (freeBuffer p f s) := by
  unfold freeBuffer
  repeat' first
    | intro _ | with_reducible (first | assumption | apply keeps_modPort | apply keeps_ite)
    | split | with_reducible apply keeps_mk

theorem keeps_acceptFrame {r : State} (p : Nat) (f : Frame) {s : State} (h : Keeps r s) :
    Keeps r (acceptFrame p f s) := by
  unfold acceptFrame
  repeat' first
    | intro _ | with_reducible (first | assumption | apply keeps_countFb | apply keeps_freeBuffer | apply keeps_countReg
                                      | apply keeps_deliver | apply keeps_portRoute | apply keeps_broadcast | apply keeps_sendTo
                                      | apply keeps_ite)
    | (extract_lets +onlyGivenNames x
       first
       | (refine (fun (hx : Keeps r x) => ?_) ?_; (on_goal 1 => clear_value x); (on_goal 2 => dsimp -zeta only [x]))
       | clear_value x)
    | split | with_reducible apply keeps_mk

theorem keeps_countFec {r : State} (p : Nat) (n : FecCount) {s : State} (h : Keeps r s) :
    Keeps r (countFec p n s) := by
  unfold countFec
  repeat' first
    | intro _ | with_reducible (first | assumption | apply keeps_modPort | apply keeps_countReg)
    | with_reducible apply keeps_mk

theorem keeps_receiveFrame {r : State} (p : Nat) (wire : List Byte) {s : State} (h : Keeps r s) :
    Keeps r (receiveFrame p wire s) := by
  unfold receiveFrame
  repeat' first
    | intro _ | with_reducible (first | assumption | apply keeps_setPortAt | apply keeps_acceptFrame | apply keeps_ite)
    | (extract_lets +onlyGivenNames x
       first
       | (refine (fun (hx : Keeps r x) => ?_) ?_; (on_goal 1 => clear_value x); (on_goal 2 => dsimp -zeta only [x]))
       | clear_value x)
    | split | with_reducible apply keeps_mk

theorem keeps_notice {r : State} (code : Nat) (data : Nat) {s : State} (h : Keeps r s) :
    Keeps r (notice code data s) := by
  unfold notice
  repeat' first
    | intro _ | with_reducible (first | assumption | apply keeps_sendTo | apply keeps_ite)
    | split

theorem keeps_portState {r : State} (p : Nat) (st : Nat) {s : State} (h : Keeps r s) :
    Keeps r (portState p st s) := by
  unfold portState
  repeat' first
    | intro _ | with_reducible (first | assumption | apply keeps_raiseBit | apply keeps_modPort | apply keeps_ite)
    | split | with_reducible apply keeps_mk

theorem keeps_faultPort {r : State} (p : Nat) {s : State} (h : Keeps r s) :
    Keeps r (faultPort p s) := by
  unfold faultPort
  repeat' first
    | intro _ | with_reducible (first | assumption | apply keeps_portState | apply keeps_modPort | apply keeps_report
                                      | apply keeps_raiseBit | apply keeps_notice | apply keeps_countFb | apply keeps_sendTo
                                      | apply keeps_forEach | apply keeps_ite)
    | (extract_lets +onlyGivenNames x
       first
       | (refine (fun (hx : Keeps r x) => ?_) ?_; (on_goal 1 => clear_value x); (on_goal 2 => dsimp -zeta only [x]))
       | clear_value x)
    | split | with_reducible apply keeps_mk

theorem keeps_portFaults {r : State} (p : Nat) {s : State} (h : Keeps r s) :
    Keeps r (portFaults p s) := by
  unfold portFaults
  repeat' first
    | intro _ | with_reducible (first | assumption | apply keeps_faultPort | apply keeps_ite)
    | split

theorem keeps_retrainPort {r : State} (p : Nat) {s : State} (h : Keeps r s) :
    Keeps r (retrainPort p s) := by
  unfold retrainPort
  repeat' first
    | intro _ | with_reducible (first | assumption | apply keeps_faultPort | apply keeps_ite)
    | split

theorem keeps_partnerPresent {r : State} (p : Nat) {s : State} (h : Keeps r s) :
    Keeps r (partnerPresent p s) := by
  unfold partnerPresent
  repeat' first
    | intro _ | with_reducible (first | assumption | apply keeps_portState | apply keeps_ite)
    | split

theorem keeps_trainingDone {r : State} (p : Nat) (nbr : Nat) (nport : Nat) {s : State} (h : Keeps r s) :
    Keeps r (trainingDone p nbr nport s) := by
  unfold trainingDone
  repeat' first
    | intro _ | with_reducible (first | assumption | apply keeps_portState | apply keeps_modPort | apply keeps_notice
                                      | apply keeps_sendFrames | apply keeps_ite)
    | (extract_lets +onlyGivenNames x
       first
       | (refine (fun (hx : Keeps r x) => ?_) ?_; (on_goal 1 => clear_value x); (on_goal 2 => dsimp -zeta only [x]))
       | clear_value x)
    | split | with_reducible apply keeps_mk

theorem keeps_portEnable {r : State} (p : Nat) (en : Bool) {s : State} (h : Keeps r s) :
    Keeps r (portEnable p en s) := by
  unfold portEnable
  repeat' first
    | intro _ | with_reducible (first | assumption | apply keeps_portState | apply keeps_modPort | apply keeps_ite)
    | split | with_reducible apply keeps_mk

theorem keeps_enablePorts {r : State}  {s : State} (h : Keeps r s) :
    Keeps r (enablePorts s) := by
  unfold enablePorts
  repeat' first
    | intro _ | with_reducible (first | assumption | apply keeps_faultPort | apply keeps_portEnable | apply keeps_forUpTo | apply keeps_ite)
    | split

theorem keeps_sendBlock {r : State} (p : Nat) {s : State} (h : Keeps r s) :
    Keeps r (sendBlock p s) := by
  unfold sendBlock
  repeat' first
    | intro _ | with_reducible (first | assumption | apply keeps_send | apply keeps_setPortAt | apply keeps_ite)
    | (extract_lets +onlyGivenNames x
       first
       | (refine (fun (hx : Keeps r x) => ?_) ?_; (on_goal 1 => clear_value x); (on_goal 2 => dsimp -zeta only [x]))
       | clear_value x)
    | split | with_reducible apply keeps_mk

theorem keeps_resendAll {r : State} (p : Nat) {s : State} (h : Keeps r s) :
    Keeps r (resendAll p s) := by
  unfold resendAll
  repeat' first
    | intro _ | with_reducible (first | assumption | apply keeps_faultPort | apply keeps_setPortAt | apply keeps_countReg
                                      | apply keeps_send | apply keeps_forEach | apply keeps_ite)
    | (extract_lets +onlyGivenNames x
       first
       | (refine (fun (hx : Keeps r x) => ?_) ?_; (on_goal 1 => clear_value x); (on_goal 2 => dsimp -zeta only [x]))
       | clear_value x)
    | split | with_reducible apply keeps_mk

theorem keeps_receiveBlock {r : State} (p : Nat) (b : LinkBlock) {s : State} (h : Keeps r s) :
    Keeps r (receiveBlock p b s) := by
  unfold receiveBlock
  repeat' first
    | intro _ | with_reducible (first | assumption | apply keeps_modPort | apply keeps_resendAll | apply keeps_sendFrames
                                      | apply keeps_wmSample | apply keeps_forEach | apply keeps_ite)
    | (extract_lets +onlyGivenNames x
       first
       | (refine (fun (hx : Keeps r x) => ?_) ?_; (on_goal 1 => clear_value x); (on_goal 2 => dsimp -zeta only [x]))
       | clear_value x)
    | split | with_reducible apply keeps_mk

theorem keeps_takeDelivered {r s s' : State} {t : Nat} {d : Delivered} (h : Keeps r s) (e : takeDelivered t s = some (d, s')) :
    Keeps r s' := by
  unfold takeDelivered at e
  split at e
  · exact absurd e (by simp)
  · simp only [Option.some.injEq, Prod.mk.injEq] at e
    rw [← e.2]
    exact keeps_freeBuffer _ _ (keeps_modFab _ h)

theorem keeps_handleDisc {r : State}  {s : State} (h : Keeps r s) :
    Keeps r (handleDisc s) := by
  unfold handleDisc
  repeat' first
    | exact keeps_takeDelivered h (by assumption)
    | with_reducible (first | assumption | apply keeps_answerRouted)
    | split

theorem keeps_handleAssign {r : State}  {s : State} (h : Keeps r s) :
    Keeps r (handleAssign s) := by
  unfold handleAssign
  repeat' first
    | exact keeps_takeDelivered h (by assumption)
    | intro _ | with_reducible (first | assumption | apply keeps_answerRouted | apply keeps_modReg | apply keeps_modFab | apply keeps_ite)
    | (extract_lets +onlyGivenNames x
       first
       | (refine (fun (hx : Keeps r x) => ?_) ?_; (on_goal 1 => clear_value x); (on_goal 2 => dsimp -zeta only [x]))
       | clear_value x)
    | split | with_reducible apply keeps_mk

theorem keeps_handleTaken {r : State} (t : Nat) {s : State} (h : Keeps r s) :
    Keeps r (handleTaken t s) := by
  unfold handleTaken
  repeat' first
    | exact keeps_takeDelivered h (by assumption)
    | with_reducible (first | assumption)
    | split

theorem keeps_setLatch {r : State} (b : Nat) (origin : Nat) (cause : Nat) {s : State} (h : Keeps r s) :
    Keeps r (setLatch b origin cause s) := by
  unfold setLatch
  repeat' first
    | intro _ | with_reducible (first | assumption | apply keeps_modReg | apply keeps_raiseBit | apply keeps_countReg
                                      | apply keeps_report | apply keeps_offer | apply keeps_tripAll | apply keeps_ite)
    | (extract_lets +onlyGivenNames x
       first
       | (refine (fun (hx : Keeps r x) => ?_) ?_; (on_goal 1 => clear_value x); (on_goal 2 => dsimp -zeta only [x]))
       | clear_value x)
    | split

theorem keeps_cutFrame {r : State} (p : Nat) {s : State} (h : Keeps r s) :
    Keeps r (cutFrame p s) := by
  unfold cutFrame
  repeat' first
    | intro _ | with_reducible (first | assumption | apply keeps_modPort | apply keeps_tick | apply keeps_ite)
    | split | with_reducible apply keeps_mk

theorem keeps_emergencyOut {r : State} (except : Nat) (origin : Nat) (eid : Nat) (cause : Nat) {s : State} (h : Keeps r s) :
    Keeps r (emergencyOut except origin eid cause s) := by
  unfold emergencyOut
  repeat' first
    | intro _ | with_reducible (first | assumption | apply keeps_send | apply keeps_cutFrame | apply keeps_forUpTo | apply keeps_ite)
    | split

theorem keeps_seePair {r : State} (o : Nat) (e : Nat) {s : State} (h : Keeps r s) :
    Keeps r (seePair o e s) := by
  unfold seePair
  repeat' first
    | intro _ | with_reducible (first | assumption | apply keeps_modFab)
    | with_reducible apply keeps_mk

theorem keeps_originate {r : State} (cause : Nat) {s : State} (h : Keeps r s) :
    Keeps r (originate cause s) := by
  unfold originate
  repeat' first
    | intro _ | with_reducible (first | assumption | apply keeps_seePair | apply keeps_modFab | apply keeps_setLatch
                                      | apply keeps_emergencyOut | apply keeps_ite)
    | (extract_lets +onlyGivenNames x
       first
       | (refine (fun (hx : Keeps r x) => ?_) ?_; (on_goal 1 => clear_value x); (on_goal 2 => dsimp -zeta only [x]))
       | clear_value x)
    | split | with_reducible apply keeps_mk

theorem keeps_receiveEmergency {r : State} (p : Nat) (origin : Nat) (eid : Nat) (cause : Nat) {s : State} (h : Keeps r s) :
    Keeps r (receiveEmergency p origin eid cause s) := by
  unfold receiveEmergency
  repeat' first
    | intro _ | with_reducible (first | assumption | apply keeps_emergencyOut | apply keeps_seePair | apply keeps_modReg
                                      | apply keeps_setLatch | apply keeps_raiseBit | apply keeps_ite)
    | (extract_lets +onlyGivenNames x
       first
       | (refine (fun (hx : Keeps r x) => ?_) ?_; (on_goal 1 => clear_value x); (on_goal 2 => dsimp -zeta only [x]))
       | clear_value x)
    | split

theorem keeps_blockArrives {r : State} (p : Nat) (lanes : List (List (BitVec 128))) {s : State} (h : Keeps r s) :
    Keeps r (blockArrives p lanes s) := by
  unfold blockArrives
  repeat' first
    | with_reducible (first | assumption | apply keeps_receiveEmergency)
    | split

theorem keeps_pinAssert {r : State} (p : PinPulse) {s : State} (h : Keeps r s) :
    Keeps r (pinAssert p s) := by
  unfold pinAssert
  repeat' first
    | intro _ | with_reducible (first | assumption | apply keeps_tick | apply keeps_setLatch | apply keeps_originate | apply keeps_ite)
    | (extract_lets +onlyGivenNames x
       first
       | (refine (fun (hx : Keeps r x) => ?_) ?_; (on_goal 1 => clear_value x); (on_goal 2 => dsimp -zeta only [x]))
       | clear_value x)
    | split | with_reducible apply keeps_mk

theorem keeps_clearLatches {r : State} (v : Word) {s : State} (h : Keeps r s) :
    Keeps r (clearLatches v s) := by
  unfold clearLatches
  repeat' first
    | intro _ | with_reducible (first | assumption | apply keeps_modReg | apply keeps_ite)
    | (extract_lets +onlyGivenNames x
       first
       | (refine (fun (hx : Keeps r x) => ?_) ?_; (on_goal 1 => clear_value x); (on_goal 2 => dsimp -zeta only [x]))
       | clear_value x)
    | split

theorem keeps_setFt {r : State} (t : Nat) {s : State} (h : Keeps r s) :
    Keeps r (setFt t s) := by
  unfold setFt
  repeat' first
    | with_reducible (first | assumption)
    | with_reducible apply keeps_mk

theorem keeps_slewBy {r : State} (o : Int) {s : State} (h : Keeps r s) :
    Keeps r (slewBy o s) := by
  unfold slewBy
  repeat' first
    | intro _ | with_reducible (first | assumption | apply keeps_modFab)
    | with_reducible apply keeps_mk

theorem keeps_tickTime {r : State}  {s : State} (h : Keeps r s) :
    Keeps r (tickTime s) := by
  unfold tickTime
  repeat' first
    | intro _ | with_reducible (first | assumption | apply keeps_ite)
    | (extract_lets +onlyGivenNames x
       first
       | (refine (fun (hx : Keeps r x) => ?_) ?_; (on_goal 1 => clear_value x); (on_goal 2 => dsimp -zeta only [x]))
       | clear_value x)
    | split | with_reducible apply keeps_mk

theorem keeps_leaveHold {r : State}  {s : State} (h : Keeps r s) :
    Keeps r (leaveHold s) := by
  unfold leaveHold
  repeat' first
    | intro _ | with_reducible (first | assumption | apply keeps_modFab | apply keeps_modReg)
    | with_reducible apply keeps_mk

theorem keeps_exchange {r : State} (o : Int) {s : State} (h : Keeps r s) :
    Keeps r (exchange o s) := by
  unfold exchange
  repeat' first
    | intro _ | with_reducible (first | assumption | apply keeps_leaveHold | apply keeps_wrReg | apply keeps_modFab | apply keeps_modReg
                                      | apply keeps_raiseBit | apply keeps_setFt | apply keeps_slewBy | apply keeps_ite)
    | (extract_lets +onlyGivenNames x
       first
       | (refine (fun (hx : Keeps r x) => ?_) ?_; (on_goal 1 => clear_value x); (on_goal 2 => dsimp -zeta only [x]))
       | (refine (fun (hx : Keeps r x.s) => ?_) ?_; (on_goal 1 => clear_value x); (on_goal 2 => dsimp -zeta only [x]))
       | clear_value x)
    | split | with_reducible apply keeps_mk | dsimp -zeta only

theorem keeps_resumeParent {r : State} (p : Nat) {s : State} (h : Keeps r s) :
    Keeps r (resumeParent p s) := by
  unfold resumeParent
  repeat' first
    | intro _ | with_reducible (first | assumption | apply keeps_modFab | apply keeps_ite)
    | (extract_lets +onlyGivenNames x
       first
       | (refine (fun (hx : Keeps r x) => ?_) ?_; (on_goal 1 => clear_value x); (on_goal 2 => dsimp -zeta only [x]))
       | clear_value x)
    | split | with_reducible apply keeps_mk

theorem keeps_handleTsync {r : State} (arrival : Nat) {s : State} (h : Keeps r s) :
    Keeps r (handleTsync arrival s) := by
  unfold handleTsync
  repeat' first
    | exact keeps_takeDelivered h (by assumption)
    | intro _ | with_reducible (first | assumption | apply keeps_resumeParent | apply keeps_modPort | apply keeps_exchange
                                      | apply keeps_ite)
    | (extract_lets +onlyGivenNames x
       first
       | (refine (fun (hx : Keeps r x) => ?_) ?_; (on_goal 1 => clear_value x); (on_goal 2 => dsimp -zeta only [x]))
       | clear_value x)
    | split | with_reducible apply keeps_mk

theorem keeps_sendTsync {r : State} (p : Nat) {s : State} (h : Keeps r s) :
    Keeps r (sendTsync p s) := by
  unfold sendTsync
  repeat' first
    | intro _ | with_reducible (first | assumption | apply keeps_queueFrame | apply keeps_ite)
    | split

theorem keeps_holdover {r : State}  {s : State} (h : Keeps r s) :
    Keeps r (holdover s) := by
  unfold holdover
  repeat' first
    | intro _ | with_reducible (first | assumption | apply keeps_reach | apply keeps_modFab | apply keeps_modReg | apply keeps_offer
                                      | apply keeps_raiseBit | apply keeps_notice | apply keeps_ite)
    | (extract_lets +onlyGivenNames x
       first
       | (refine (fun (hx : Keeps r x) => ?_) ?_; (on_goal 1 => clear_value x); (on_goal 2 => dsimp -zeta only [x]))
       | clear_value x)
    | split | with_reducible apply keeps_mk

theorem keeps_ftSetCmd {r : State} (m : Master) {s : State} (h : Keeps r s) :
    Keeps r (ftSetCmd m s) := by
  unfold ftSetCmd
  repeat' first
    | intro _ | with_reducible (first | assumption | apply keeps_refuseCmd | apply keeps_setFt | apply keeps_modFab | apply keeps_ite)
    | split | with_reducible apply keeps_mk

theorem keeps_ppsEdge {r : State}  {s : State} (h : Keeps r s) :
    Keeps r (ppsEdge s) := by
  unfold ppsEdge
  repeat' first
    | intro _ | with_reducible (first | assumption | apply keeps_setFt | apply keeps_modFab | apply keeps_slewBy | apply keeps_ite)
    | split | with_reducible apply keeps_mk

theorem keeps_ppsPulse {r : State}  {s : State} (h : Keeps r s) :
    Keeps r (ppsPulse s) := by
  unfold ppsPulse
  repeat' first
    | intro _ | with_reducible (first | assumption | apply keeps_send | apply keeps_reach | apply keeps_ite)
    | (extract_lets +onlyGivenNames x
       first
       | (refine (fun (hx : Keeps r x) => ?_) ?_; (on_goal 1 => clear_value x); (on_goal 2 => dsimp -zeta only [x]))
       | clear_value x)
    | split

theorem keeps_completeDesc {r : State} (i : Nat) (kind : Nat) {s : State} (h : Keeps r s) :
    Keeps r (completeDesc i kind s) := by
  unfold completeDesc
  repeat' first
    | with_reducible (first | assumption | apply keeps_raiseBit | apply keeps_bankPut)

theorem keeps_ringEnds {r : State}  {s : State} (h : Keeps r s) :
    Keeps r (ringEnds s) := by
  unfold ringEnds
  repeat' first
    | intro _ | with_reducible (first | assumption | apply keeps_completeDesc | apply keeps_wrReg | apply keeps_ite)
    | (extract_lets +onlyGivenNames x
       first
       | (refine (fun (hx : Keeps r x) => ?_) ?_; (on_goal 1 => clear_value x); (on_goal 2 => dsimp -zeta only [x]))
       | clear_value x)
    | split

theorem keeps_issueTransaction {r : State}  {s : State} (h : Keeps r s) :
    Keeps r (issueTransaction s) := by
  unfold issueTransaction
  repeat' first
    | intro _ | with_reducible (first | assumption | apply keeps_ringEnds | apply keeps_wrReg | apply keeps_completeDesc
                                      | apply keeps_bankPut | apply keeps_modFab | apply keeps_sendTo | apply keeps_wmSample
                                      | apply keeps_ite)
    | (extract_lets +onlyGivenNames x
       first
       | (refine (fun (hx : Keeps r x) => ?_) ?_; (on_goal 1 => clear_value x); (on_goal 2 => dsimp -zeta only [x]))
       | clear_value x)
    | split | with_reducible apply keeps_mk

theorem keeps_endTransaction {r : State} (x : FabTrans) (kind : Nat) {s : State} (h : Keeps r s) :
    Keeps r (endTransaction x kind s) := by
  unfold endTransaction
  repeat' first
    | intro _ | with_reducible (first | assumption | apply keeps_modFab | apply keeps_completeDesc | apply keeps_wmSample)
    | (extract_lets +onlyGivenNames x
       first
       | (refine (fun (hx : Keeps r x) => ?_) ?_; (on_goal 1 => clear_value x); (on_goal 2 => dsimp -zeta only [x]))
       | clear_value x)
    | with_reducible apply keeps_mk

theorem keeps_handleRsp {r : State}  {s : State} (h : Keeps r s) :
    Keeps r (handleRsp s) := by
  unfold handleRsp
  repeat' first
    | exact keeps_takeDelivered h (by assumption)
    | intro _ | with_reducible (first | assumption | apply keeps_countFb | apply keeps_endTransaction | apply keeps_bankPut
                                      | apply keeps_ite)
    | (extract_lets +onlyGivenNames x
       first
       | (refine (fun (hx : Keeps r x) => ?_) ?_; (on_goal 1 => clear_value x); (on_goal 2 => dsimp -zeta only [x]))
       | clear_value x)
    | split

theorem keeps_transactionTimeout {r : State} (tag : Nat) {s : State} (h : Keeps r s) :
    Keeps r (transactionTimeout tag s) := by
  unfold transactionTimeout
  repeat' first
    | intro _ | with_reducible (first | assumption | apply keeps_reach | apply keeps_report | apply keeps_endTransaction | apply keeps_ite)
    | (extract_lets +onlyGivenNames x
       first
       | (refine (fun (hx : Keeps r x) => ?_) ?_; (on_goal 1 => clear_value x); (on_goal 2 => dsimp -zeta only [x]))
       | clear_value x)
    | split

theorem keeps_ringProduce {r : State} (v : Word) {s : State} (h : Keeps r s) :
    Keeps r (ringProduce v s) := by
  unfold ringProduce
  repeat' first
    | with_reducible (first | assumption | apply keeps_wrReg)

theorem keeps_rtStep {r : State}  {s : State} (h : Keeps r s) :
    Keeps r (rtStep s) := by
  unfold rtStep
  repeat' first
    | intro _ | with_reducible (first | assumption | apply keeps_modReg | apply keeps_ite)
    | split

theorem keeps_rtWrite {r : State} (v : Word) {s : State} (h : Keeps r s) :
    Keeps r (rtWrite v s) := by
  unfold rtWrite
  repeat' first
    | intro _ | with_reducible (first | assumption | apply keeps_rtStep | apply keeps_modFab)
    | with_reducible apply keeps_mk

theorem keeps_handleHangBc {r : State}  {s : State} (h : Keeps r s) :
    Keeps r (handleHangBc s) := by
  unfold handleHangBc
  repeat' first
    | exact keeps_takeDelivered h (by assumption)
    | intro _ | with_reducible (first | assumption | apply keeps_ite)
    | (extract_lets +onlyGivenNames x
       first
       | (refine (fun (hx : Keeps r x) => ?_) ?_; (on_goal 1 => clear_value x); (on_goal 2 => dsimp -zeta only [x]))
       | clear_value x)
    | split | with_reducible apply keeps_mk

theorem keeps_handleHangCancel {r : State}  {s : State} (h : Keeps r s) :
    Keeps r (handleHangCancel s) := by
  unfold handleHangCancel
  split
  · exact h
  · rename_i d s' hd
    have hs := keeps_takeDelivered h hd
    cases hc : cancelSlot 7 s' with
    | none => exact hs
    | some t => exact keeps_cancelSlot hs hc


theorem keeps_hangDecided {r : State} (fabric : Bool) {s : State} (h : Keeps r s) :
    Keeps r (hangDecided fabric s) := by
  unfold hangDecided
  repeat' first
    | intro _ | with_reducible (first | assumption | apply keeps_decideHang | apply keeps_sendTo | apply keeps_broadcast | apply keeps_ite)
    | (extract_lets +onlyGivenNames x
       first
       | (refine (fun (hx : Keeps r x) => ?_) ?_; (on_goal 1 => clear_value x); (on_goal 2 => dsimp -zeta only [x]))
       | clear_value x)
    | split | with_reducible apply keeps_mk

theorem keeps_hangCmdWrite {r : State} (m : Master) (v : Word) {s : State} (h : Keeps r s) :
    Keeps r (hangCmdWrite m v s) := by
  unfold hangCmdWrite
  dsimp only
  repeat' first
    | intro _ | with_reducible (first | assumption | apply keeps_rejectWrite | apply keeps_hangCmd | apply keeps_cancelCmd
                                      | apply keeps_broadcast | apply keeps_copyCmd | apply keeps_invalidWrite | apply keeps_ite)
    | (extract_lets +onlyGivenNames x
       first
       | (refine (fun (hx : Keeps r x) => ?_) ?_; (on_goal 1 => clear_value x); (on_goal 2 => dsimp -zeta only [x]))
       | clear_value x)
    | split

theorem keeps_fabricLost {r : State}  {s : State} (h : Keeps r s) :
    Keeps r (fabricLost s) := by
  unfold fabricLost
  repeat' first
    | intro _ | with_reducible (first | assumption | apply keeps_setPortAt | apply keeps_endTransaction | apply keeps_ringEnds
                                      | apply keeps_holdover | apply keeps_modFab | apply keeps_forEach | apply keeps_forUpTo)
    | (extract_lets +onlyGivenNames x
       first
       | (refine (fun (hx : Keeps r x) => ?_) ?_; (on_goal 1 => clear_value x); (on_goal 2 => dsimp -zeta only [x]))
       | clear_value x)
    | with_reducible apply keeps_mk

theorem keeps_issueRequest {r : State} (i : Nat) {s : State} (h : Keeps r s) :
    Keeps r (issueRequest i s) := by
  unfold issueRequest
  repeat' first
    | intro _ | with_reducible (first | assumption | apply keeps_enterPort | apply keeps_forEach | apply keeps_ite)
    | (extract_lets +onlyGivenNames x
       first
       | (refine (fun (hx : Keeps r x) => ?_) ?_; (on_goal 1 => clear_value x); (on_goal 2 => dsimp -zeta only [x]))
       | clear_value x)
    | split | with_reducible apply keeps_mk

theorem keeps_issueRequests {r : State}  {s : State} (h : Keeps r s) :
    Keeps r (issueRequests s) := by
  unfold issueRequests
  repeat' first
    | intro _ | with_reducible (first | assumption | apply keeps_issueRequest | apply keeps_forUpTo)

theorem keeps_countPciErr {r : State} (hi : Nat) (lo : Nat) {s : State} (h : Keeps r s) :
    Keeps r (countPciErr hi lo s) := by
  unfold countPciErr
  repeat' first
    | intro _ | with_reducible (first | assumption | apply keeps_modReg)

theorem keeps_aerReport {r : State} (i : Nat) {s : State} (h : Keeps r s) :
    Keeps r (aerReport i s) := by
  unfold aerReport
  repeat' first
    | with_reducible (first | assumption | apply keeps_send)
    | with_reducible apply keeps_mk

theorem keeps_writeFailed {r : State} (status : Nat) {s : State} (h : Keeps r s) :
    Keeps r (writeFailed status s) := by
  unfold writeFailed
  repeat' first
    | intro _ | with_reducible (first | assumption | apply keeps_aerReport | apply keeps_countPciErr | apply keeps_ite)
    | split

theorem keeps_finishRequest {r : State} (a0 : PciReq) {s : State} (h : Keeps r s) :
    Keeps r (finishRequest a0 s) := by
  unfold finishRequest
  repeat' first
    | intro _ | with_reducible (first | assumption | apply keeps_send | apply keeps_writeFailed | apply keeps_ite)
    | split

theorem keeps_completeRequests {r : State}  {s : State} (h : Keeps r s) :
    Keeps r (completeRequests s) := by
  unfold completeRequests
  repeat' first
    | intro _ | with_reducible (first | assumption | apply keeps_finishRequest | apply keeps_forEach)
    | (extract_lets +onlyGivenNames x
       first
       | (refine (fun (hx : Keeps r x) => ?_) ?_; (on_goal 1 => clear_value x); (on_goal 2 => dsimp -zeta only [x]))
       | clear_value x)
    | with_reducible apply keeps_mk

theorem keeps_pciReply {r : State} (t : Trans) (data : List Byte) (err : Option BusKind) {s : State} (h : Keeps r s) :
    Keeps r (pciReply t data err s) := by
  unfold pciReply
  repeat' first
    | intro _ | with_reducible (first | assumption | apply keeps_issueRequests | apply keeps_completeRequests)
    | split | with_reducible apply keeps_mk

theorem keeps_setTg {r : State} (c : Nat) (x : TongsChan) {s : State} (h : Keeps r s) :
    Keeps r (setTg c x s) := by
  unfold setTg
  repeat' first
    | with_reducible (first | assumption)
    | with_reducible apply keeps_mk

theorem keeps_tgFails {r : State} (c : Nat) (err : Nat) {s : State} (h : Keeps r s) :
    Keeps r (tgFails c err s) := by
  unfold tgFails
  repeat' first
    | intro _ | with_reducible (first | assumption | apply keeps_setTg | apply keeps_modReg | apply keeps_raiseBit | apply keeps_ite)
    | (extract_lets +onlyGivenNames x
       first
       | (refine (fun (hx : Keeps r x) => ?_) ?_; (on_goal 1 => clear_value x); (on_goal 2 => dsimp -zeta only [x]))
       | clear_value x)
    | split | with_reducible apply keeps_mk

theorem keeps_tgDone {r : State} (c : Nat) {s : State} (h : Keeps r s) :
    Keeps r (tgDone c s) := by
  unfold tgDone
  repeat' first
    | intro _ | with_reducible (first | assumption | apply keeps_modReg | apply keeps_raiseBit | apply keeps_ite)
    | (extract_lets +onlyGivenNames x
       first
       | (refine (fun (hx : Keeps r x) => ?_) ?_; (on_goal 1 => clear_value x); (on_goal 2 => dsimp -zeta only [x]))
       | clear_value x)
    | split

theorem keeps_tgEnter {r : State} (c : Nat) (write : Bool) (a : Nat) (data : List Byte) (n : Nat) {s : State} (h : Keeps r s) :
    Keeps r (tgEnter c write a data n s) := by
  unfold tgEnter
  repeat' first
    | with_reducible (first | assumption | apply keeps_enterPort)
    | with_reducible apply keeps_mk

theorem keeps_tgBurst {r s s' : State} {c : Nat} (h : Keeps r s) (e : tgBurst s c = some s') : Keeps r s' := by
  unfold tgBurst at e
  dsimp only at e
  split at e
  · exact absurd e (by simp)
  · split at e
    · rw [← Option.some.inj e]
      exact keeps_tgEnter _ _ _ _ _ (keeps_setTg _ _ h)
    · split at e
      · exact absurd e (by simp)
      · split at e
        · rw [← Option.some.inj e]
          exact keeps_tgFails _ _ h
        · rw [← Option.some.inj e]
          exact keeps_tgEnter _ _ _ _ _ (keeps_setTg _ _ h)

theorem keeps_tgIssue {r : State} (a0 : Nat) {a1 : State} (h : Keeps r a1) :
    Keeps r (tgIssue a0 a1) := by
  induction a0 generalizing a1 with
  | zero => exact h
  | succ n ih =>
    unfold tgIssue
    split
    · rename_i t ht
      obtain ⟨i, _, hi⟩ := List.exists_of_findSome?_eq_some ht
      exact ih (keeps_tgBurst h hi)
    · exact h


theorem keeps_tgIssueAll {r : State}  {s : State} (h : Keeps r s) :
    Keeps r (tgIssueAll s) := by
  unfold tgIssueAll
  repeat' first
    | with_reducible (first | assumption | apply keeps_tgIssue)

theorem keeps_tgStart {r : State} (c : Nat) (last : Bool) (irq : Bool) {s : State} (h : Keeps r s) :
    Keeps r (tgStart c last irq s) := by
  unfold tgStart
  repeat' first
    | with_reducible (first | assumption | apply keeps_tgIssueAll | apply keeps_setTg | apply keeps_tgFails)
    | split

theorem keeps_tgChain {r : State} (c : Nat) {s : State} (h : Keeps r s) :
    Keeps r (tgChain c s) := by
  unfold tgChain
  repeat' first
    | intro _ | with_reducible (first | assumption | apply keeps_tgFails | apply keeps_enterPort | apply keeps_setTg | apply keeps_ite)
    | (extract_lets +onlyGivenNames x
       first
       | (refine (fun (hx : Keeps r x) => ?_) ?_; (on_goal 1 => clear_value x); (on_goal 2 => dsimp -zeta only [x]))
       | clear_value x)
    | split | with_reducible apply keeps_mk

theorem keeps_tgLoad {r : State} (c : Nat) (bs : List Byte) {s : State} (h : Keeps r s) :
    Keeps r (tgLoad c bs s) := by
  unfold tgLoad
  repeat' first
    | intro _ | with_reducible (first | assumption | apply keeps_wrReg | apply keeps_tgStart)
    | (extract_lets +onlyGivenNames x
       first
       | (refine (fun (hx : Keeps r x) => ?_) ?_; (on_goal 1 => clear_value x); (on_goal 2 => dsimp -zeta only [x]))
       | clear_value x)

theorem keeps_tongsReply {r : State} (c : Nat) (t : Trans) (data : List Byte) (err : Option BusKind) {s : State} (h : Keeps r s) :
    Keeps r (tongsReply c t data err s) := by
  unfold tongsReply
  repeat' first
    | intro _ | with_reducible (first | assumption | apply keeps_tgIssueAll | apply keeps_tgFails | apply keeps_tgLoad
                                      | apply keeps_setTg | apply keeps_ite)
    | (extract_lets +onlyGivenNames x
       first
       | (refine (fun (hx : Keeps r x) => ?_) ?_; (on_goal 1 => clear_value x); (on_goal 2 => dsimp -zeta only [x]))
       | clear_value x)
    | split | with_reducible apply keeps_mk

theorem keeps_tongsEnd {r : State} (c : Nat) {s : State} (h : Keeps r s) :
    Keeps r (tongsEnd c s) := by
  unfold tongsEnd
  repeat' first
    | intro _ | with_reducible (first | assumption | apply keeps_tgFails | apply keeps_tgChain | apply keeps_tgDone | apply keeps_setTg
                                      | apply keeps_ite)
    | (extract_lets +onlyGivenNames x
       first
       | (refine (fun (hx : Keeps r x) => ?_) ?_; (on_goal 1 => clear_value x); (on_goal 2 => dsimp -zeta only [x]))
       | clear_value x)
    | split

theorem keeps_tgCtlWrite {r : State} (c : Nat) (m : Master) (v : Word) {s : State} (h : Keeps r s) :
    Keeps r (tgCtlWrite c m v s) := by
  unfold tgCtlWrite
  repeat' first
    | intro _ | with_reducible (first | assumption | apply keeps_rejectWrite | apply keeps_modReg | apply keeps_setTg
                                      | apply keeps_tgStart | apply keeps_ite)
    | (extract_lets +onlyGivenNames x
       first
       | (refine (fun (hx : Keeps r x) => ?_) ?_; (on_goal 1 => clear_value x); (on_goal 2 => dsimp -zeta only [x]))
       | clear_value x)
    | split | with_reducible apply keeps_mk

theorem keeps_tgRegWrite {r : State} (c : Nat) (off : Nat) (m : Master) (fs : List Field) (v : Word) {s : State} (h : Keeps r s) :
    Keeps r (tgRegWrite c off m fs v s) := by
  unfold tgRegWrite
  repeat' first
    | intro _ | with_reducible (first | assumption | apply keeps_rejectWrite | apply keeps_modReg | apply keeps_ite)
    | split

theorem keeps_giveReply {r : State} (t : Trans) (data : List Byte) (err : Option BusKind) {s : State} (h : Keeps r s) :
    Keeps r (giveReply t data err s) := by
  unfold giveReply
  repeat' first
    | with_reducible (first | assumption | apply keeps_loadReply | apply keeps_settled | apply keeps_tasReply | apply keeps_storeBusError
                            | apply keeps_storeLeaves | apply keeps_queueReply | apply keeps_tongsReply | apply keeps_pciReply
                            | apply keeps_sendTo)
    | split | with_reducible apply keeps_mk

theorem keeps_matrixReply {r : State} (t : Trans) (data : List Byte) (err : Option BusKind) {s : State} (h : Keeps r s) :
    Keeps r (matrixReply t data err s) := by
  unfold matrixReply
  repeat' first
    | intro _ | with_reducible (first | assumption | apply keeps_giveReply | apply keeps_mxError | apply keeps_ite)
    | split

theorem keeps_endTrans {r : State} (n : Nat) (t : Trans) (f : State → (List Byte × Option BusKind) × State) {s : State} (h : Keeps r s) (hf : ∀ s, Keeps r s → Keeps r (f s).2) :
    Keeps r (endTrans n t f s) := by
  unfold endTrans
  exact keeps_grantAll (keeps_matrixReply _ _ _ (hf _ (keeps_mk h)))


theorem keeps_endWith {r : State} (n : Nat) (t : Trans) (k : BusKind) {s : State} (h : Keeps r s) :
    Keeps r (endWith n t k s) := by
  unfold endWith
  repeat' first
    | intro _ | with_reducible (first | assumption | apply keeps_endTrans)

theorem keeps_copyRange {r : State} (src : Nat) (dst : Nat) (n : Nat) {s : State} (h : Keeps r s) :
    Keeps r (copyRange src dst n s) := by
  unfold copyRange
  repeat' first
    | intro _ | with_reducible (first | assumption | apply keeps_wipeMem | apply keeps_setByte | apply keeps_forEach)

theorem keeps_setSlots {r : State} (f : Word → Word) {s : State} (h : Keeps r s) :
    Keeps r (setSlots f s) := by
  unfold setSlots
  repeat' first
    | with_reducible (first | assumption | apply keeps_linePut)

theorem keeps_noteActivated {r : State} (comp : Nat) {s : State} (h : Keeps r s) :
    Keeps r (noteActivated comp s) := by
  unfold noteActivated
  repeat' first
    | intro _ | with_reducible (first | assumption | apply keeps_linePut | apply keeps_forUpTo)
    | (extract_lets +onlyGivenNames x
       first
       | (refine (fun (hx : Keeps r x) => ?_) ?_; (on_goal 1 => clear_value x); (on_goal 2 => dsimp -zeta only [x]))
       | clear_value x)
    | split

theorem keeps_modImages {r : State} (f : Images → Images) {s : State} (h : Keeps r s) :
    Keeps r (modImages f s) := by
  unfold modImages
  repeat' first
    | with_reducible (first | assumption)
    | with_reducible apply keeps_mk

theorem keeps_devStat {r : State} (hi : Nat) (lo : Nat) (v : Nat) {s : State} (h : Keeps r s) :
    Keeps r (devStat hi lo v s) := by
  unfold devStat
  repeat' first
    | intro _ | with_reducible (first | assumption | apply keeps_modReg)

theorem keeps_markSlot {r : State} (k : Nat) (bad : Bool) {s : State} (h : Keeps r s) :
    Keeps r (markSlot k bad s) := by
  unfold markSlot
  repeat' first
    | with_reducible (first | assumption | apply keeps_linePut)

theorem keeps_versionHeld {r : State} (z : Nat) (held : Word) (kept : Word) {s : State} (h : Keeps r s) :
    Keeps r (versionHeld z held kept s) := by
  unfold versionHeld
  repeat' first
    | with_reducible (first | assumption | apply keeps_offer)

theorem keeps_runSelection {r : State} (x : Selection) {s : State} (h : Keeps r s) :
    Keeps r (runSelection x s) := by
  unfold runSelection
  repeat' first
    | intro _ | with_reducible (first | assumption | apply keeps_tick | apply keeps_versionHeld | apply keeps_raiseBit
                                      | apply keeps_setSlots | apply keeps_wrReg | apply keeps_forEach | apply keeps_forUpTo
                                      | apply keeps_ite)
    | (extract_lets +onlyGivenNames x
       first
       | (refine (fun (hx : Keeps r x) => ?_) ?_; (on_goal 1 => clear_value x); (on_goal 2 => dsimp -zeta only [x]))
       | clear_value x)
    | split

theorem keeps_putJournal {r : State} (j : Journal) (step : Nat) {s : State} (h : Keeps r s) :
    Keeps r (putJournal j step s) := by
  unfold putJournal
  repeat' first
    | with_reducible (first | assumption | apply keeps_bankPut)
    | (extract_lets +onlyGivenNames x
       first
       | (refine (fun (hx : Keeps r x) => ?_) ?_; (on_goal 1 => clear_value x); (on_goal 2 => dsimp -zeta only [x]))
       | clear_value x)

theorem keeps_noteStep {r : State} (j : Journal) {s : State} (h : Keeps r s) :
    Keeps r (noteStep j s) := by
  unfold noteStep
  repeat' first
    | with_reducible (first | assumption | apply keeps_wrReg | apply keeps_raiseBit | apply keeps_putJournal)
    | (extract_lets +onlyGivenNames x
       first
       | (refine (fun (hx : Keeps r x) => ?_) ?_; (on_goal 1 => clear_value x); (on_goal 2 => dsimp -zeta only [x]))
       | clear_value x)
    | split | with_reducible apply keeps_mk

theorem keeps_closeLine {r : State}  {s : State} (h : Keeps r s) :
    Keeps r (closeLine s) := by
  unfold closeLine
  repeat' first
    | with_reducible (first | assumption | apply keeps_putJournal)
    | split | with_reducible apply keeps_mk

theorem keeps_closeJournal {r : State} (j : Journal) (res : Nat) {s : State} (h : Keeps r s) :
    Keeps r (closeJournal j res s) := by
  unfold closeJournal
  repeat' first
    | intro _ | with_reducible (first | assumption | apply keeps_setSlots | apply keeps_closeLine | apply keeps_markSlot
                                      | apply keeps_wrReg | apply keeps_noteActivated | apply keeps_linePut | apply keeps_modImages
                                      | apply keeps_raiseBit | apply keeps_submitEvent | apply keeps_ite)
    | (extract_lets +onlyGivenNames x
       first
       | (refine (fun (hx : Keeps r x) => ?_) ?_; (on_goal 1 => clear_value x); (on_goal 2 => dsimp -zeta only [x]))
       | clear_value x)
    | split | with_reducible apply keeps_mk

theorem keeps_openJournal {r : State} (j : Journal) {s : State} (h : Keeps r s) :
    Keeps r (openJournal j s) := by
  unfold openJournal
  repeat' first
    | with_reducible (first | assumption | apply keeps_markSlot | apply keeps_noteStep)
    | (extract_lets +onlyGivenNames x
       first
       | (refine (fun (hx : Keeps r x) => ?_) ?_; (on_goal 1 => clear_value x); (on_goal 2 => dsimp -zeta only [x]))
       | clear_value x)
    | with_reducible apply keeps_mk

theorem keeps_tongsCopy {r : State} (src : Nat) (dst : Nat) (n : Nat) {s : State} (h : Keeps r s) :
    Keeps r (tongsCopy src dst n s) := by
  unfold tongsCopy
  repeat' first
    | with_reducible (first | assumption | apply keeps_mramPush | apply keeps_copyRange)

theorem keeps_copyChunks {r : State} (j : Journal) (n : Nat) {s : State} (h : Keeps r s) :
    Keeps r (copyChunks j n s) := by
  unfold copyChunks
  repeat' first
    | intro _ | with_reducible (first | assumption | apply keeps_noteStep | apply keeps_tongsCopy | apply keeps_forUpTo)
    | (extract_lets +onlyGivenNames x
       first
       | (refine (fun (hx : Keeps r x) => ?_) ?_; (on_goal 1 => clear_value x); (on_goal 2 => dsimp -zeta only [x]))
       | clear_value x)
    | with_reducible apply keeps_mk

theorem keeps_slotVerified {r : State} (j : Journal) {s : State} (h : Keeps r s) :
    Keeps r (slotVerified j s) := by
  unfold slotVerified
  repeat' first
    | intro _ | with_reducible (first | assumption | apply keeps_noteStep | apply keeps_markSlot | apply keeps_modImages)
    | (extract_lets +onlyGivenNames x
       first
       | (refine (fun (hx : Keeps r x) => ?_) ?_; (on_goal 1 => clear_value x); (on_goal 2 => dsimp -zeta only [x]))
       | clear_value x)
    | with_reducible apply keeps_mk

theorem keeps_checkStep {r : State} (j : Journal) {s : State} (h : Keeps r s) :
    Keeps r (checkStep j s) := by
  unfold checkStep
  repeat' first
    | intro _ | with_reducible (first | assumption | apply keeps_noteStep | apply keeps_setSlots | apply keeps_closeJournal
                                      | apply keeps_versionHeld | apply keeps_ite)
    | split | with_reducible apply keeps_mk

theorem keeps_resolveJournal {r : State} (found : Nat → Bool) {s : State} (h : Keeps r s) :
    Keeps r (resolveJournal found s) := by
  unfold resolveJournal
  repeat' first
    | intro _ | with_reducible (first | assumption | apply keeps_closeJournal | apply keeps_copyChunks | apply keeps_checkStep
                                      | apply keeps_slotVerified | apply keeps_ite)
    | (extract_lets +onlyGivenNames x
       first
       | (refine (fun (hx : Keeps r x) => ?_) ?_; (on_goal 1 => clear_value x); (on_goal 2 => dsimp -zeta only [x]))
       | clear_value x)
    | split | with_reducible apply keeps_mk

theorem keeps_endCrossing {r : State} (d : Nat) {s : State} (h : Keeps r s) :
    Keeps r (endCrossing d s) := by
  unfold endCrossing
  repeat' first
    | intro _ | with_reducible (first | assumption | apply keeps_grantAll | apply keeps_matrixReply | apply keeps_forEach)
    | (extract_lets +onlyGivenNames x
       first
       | (refine (fun (hx : Keeps r x) => ?_) ?_; (on_goal 1 => clear_value x); (on_goal 2 => dsimp -zeta only [x]))
       | clear_value x)
    | with_reducible apply keeps_mk

theorem keeps_degradeSites {r : State} (t : Nat) {s : State} (h : Keeps r s) :
    Keeps r (degradeSites t s) := by
  unfold degradeSites
  repeat' first
    | intro _ | with_reducible (first | assumption | apply keeps_send | apply keeps_forEach)

theorem keeps_stackLost {r : State} (n : Nat) {s : State} (h : Keeps r s) :
    Keeps r (stackLost n s) := by
  unfold stackLost
  repeat' first
    | (refine fun e (hm : ModeLegal _ e) => (?_ : ModeLegal _ _))
    | (guard_target =~ ModeLegal _ _
       first | exact hm | split | exact modeLegal_one _ _ rfl | exact ModeLegal.of_eq (e := e) (by simp) hm)
    | intro _ | with_reducible (first | assumption | apply keeps_modEng | apply keeps_forEach)
    | (extract_lets +onlyGivenNames x
       first
       | (refine (fun (hx : Keeps r x) => ?_) ?_; (on_goal 1 => clear_value x); (on_goal 2 => dsimp -zeta only [x]))
       | clear_value x)
    | with_reducible apply keeps_mk
    | split

theorem keeps_linkDown {r : State}  {s : State} (h : Keeps r s) :
    Keeps r (linkDown s) := by
  unfold linkDown
  repeat' first
    | intro _ | with_reducible (first | assumption | apply keeps_raiseBit | apply keeps_modReg | apply keeps_ite)
    | split

theorem keeps_lossEffects {r : State} (d : Nat) {s : State} (h : Keeps r s) :
    Keeps r (lossEffects d s) := by
  unfold lossEffects
  repeat' first
    | intro _ | with_reducible (first | assumption | apply keeps_skipDomain | apply keeps_endCrossing | apply keeps_degradeSites
                                      | apply keeps_trip | apply keeps_tripAll | apply keeps_linkDown | apply keeps_fabricLost
                                      | apply keeps_stackLost | apply keeps_forUpTo | apply keeps_ite)
    | (extract_lets +onlyGivenNames x
       first
       | (refine (fun (hx : Keeps r x) => ?_) ?_; (on_goal 1 => clear_value x); (on_goal 2 => dsimp -zeta only [x]))
       | clear_value x)
    | split

theorem keeps_reportLoss {r : State} (d : Nat) {s : State} (h : Keeps r s) :
    Keeps r (reportLoss d s) := by
  unfold reportLoss
  repeat' first
    | with_reducible (first | assumption | apply keeps_report)

theorem keeps_loseBy {r : State} (d : Nat) (x : Domain) {s : State} (h : Keeps r s) :
    Keeps r (loseBy d x s) := by
  unfold loseBy
  repeat' first
    | intro _ | with_reducible (first | assumption | apply keeps_setDom | apply keeps_lossEffects | apply keeps_ite)
    | split

theorem keeps_isolate {r : State} (d : Nat) {s : State} (h : Keeps r s) :
    Keeps r (isolate d s) := by
  unfold isolate
  repeat' first
    | intro _ | with_reducible (first | assumption | apply keeps_loseBy | apply keeps_ite)
    | split | with_reducible apply keeps_mk

theorem keeps_resetPages {r : State} (d : Nat) {s : State} (h : Keeps r s) :
    Keeps r (resetPages d s) := by
  unfold resetPages
  repeat' first
    | intro _ | with_reducible (first | assumption)
    | (extract_lets +onlyGivenNames x
       first
       | (refine (fun (hx : Keeps r x) => ?_) ?_; (on_goal 1 => clear_value x); (on_goal 2 => dsimp -zeta only [x]))
       | clear_value x)
    | with_reducible apply keeps_mk

theorem keeps_resetSources {r : State} (t : Nat) {s : State} (h : Keeps r s) :
    Keeps r (resetSources t s) := by
  unfold resetSources
  repeat' first
    | intro _ | with_reducible (first | assumption | apply keeps_srcChange | apply keeps_forUpTo)

theorem keeps_resetTile {r : State} (t : Nat) {s : State} (h : Keeps r s) :
    Keeps r (resetTile t s) := by
  unfold resetTile
  repeat' first
    | (refine fun x (hq : Quiet x) => (?_ : Quiet _))
    | (guard_target =~ Quiet _
       first
       | exact hq | exact quiet_laneChan _ hq | exact quiet_tileChan _ _ | split
       | exact Quiet.undriven hq rfl rfl rfl rfl rfl | exact Quiet.unmeasured hq rfl rfl rfl rfl rfl)
    | intro _ | with_reducible (first | assumption | apply keeps_resetPages | apply keeps_resetSources | apply keeps_modChan
                                      | apply keeps_forUpTo)
    | (extract_lets +onlyGivenNames x
       first
       | (refine (fun (hx : Keeps r x) => ?_) ?_; (on_goal 1 => clear_value x); (on_goal 2 => dsimp -zeta only [x]))
       | clear_value x)
    | with_reducible apply keeps_mk
    | split
    | dsimp -zeta only

theorem keeps_patinaRestart {r : State}  {s : State} (h : Keeps r s) :
    Keeps r (patinaRestart s) := by
  unfold patinaRestart
  repeat' first
    | with_reducible (first | assumption | apply keeps_wrReg)
    | with_reducible apply keeps_mk

theorem keeps_rebaseReady {r : State}  {s : State} (h : Keeps r s) :
    Keeps r (rebaseReady s) := by
  unfold rebaseReady
  repeat' first
    | intro _ | with_reducible (first | assumption | apply keeps_setDom | apply keeps_forUpTo | apply keeps_ite)
    | split | with_reducible apply keeps_mk

theorem keeps_settleHeld {r : State}  {s : State} (h : Keeps r s) :
    Keeps r (settleHeld s) := by
  unfold settleHeld
  repeat' first
    | intro _ | with_reducible (first | assumption | apply keeps_takeEffect | apply keeps_forUpTo | apply keeps_ite)
    | split

theorem keeps_resetCore {r : State}  {s : State} (h : Keeps r s) :
    Keeps r (resetCore s) := by
  unfold resetCore
  extract_lets s1 s2
  have h1 : Keeps r s1 := keeps_rebaseReady (keeps_patinaRestart (keeps_resetPages 8 h))
  have h2 : Keeps r s2 := by
    apply keeps_forUpTo h1
    exact fun c s hs => keeps_modChan c _ hs fun x hq => quiet_laneChan x hq
  have h3 := keeps_noEngines h2 modeLegal_default
  clear_value s2
  exact keeps_settleHeld (by with_reducible exact keeps_mk h3)


theorem keeps_resetFabric {r : State}  {s : State} (h : Keeps r s) :
    Keeps r (resetFabric s) := by
  unfold resetFabric
  repeat' first
    | with_reducible (first | assumption | apply keeps_resetPages)
    | with_reducible apply keeps_mk

theorem keeps_resetStack {r : State} (n : Nat) {s : State} (h : Keeps r s) :
    Keeps r (resetStack n s) := by
  unfold resetStack
  repeat' first
    | with_reducible (first | assumption | apply keeps_wipeMem | apply keeps_resetPages)

theorem keeps_resetDomain {r : State} (d : Nat) {s : State} (h : Keeps r s) :
    Keeps r (resetDomain d s) := by
  unfold resetDomain
  repeat' first
    | intro _ | with_reducible (first | assumption | apply keeps_resetTile | apply keeps_resetCore | apply keeps_resetFabric
                                      | apply keeps_resetStack | apply keeps_ite)
    | split

theorem keeps_loseDomain {r : State} (d : Nat) (c : LossCause) {s : State} (h : Keeps r s) :
    Keeps r (loseDomain d c s) := by
  unfold loseDomain
  repeat' first
    | intro _ | with_reducible (first | assumption | apply keeps_loseBy | apply keeps_reportLoss | apply keeps_raiseBit
                                      | apply keeps_resetDomain | apply keeps_isolate | apply keeps_ite)
    | split | with_reducible apply keeps_mk

theorem keeps_releaseDomain {r : State} (d : Nat) {s : State} (h : Keeps r s) :
    Keeps r (releaseDomain d s) := by
  unfold releaseDomain
  repeat' first
    | intro _ | with_reducible (first | assumption | apply keeps_setDom | apply keeps_tick | apply keeps_ite)
    | split | with_reducible apply keeps_mk

theorem keeps_loadSockets {r : State} (l : Nat) (base_ : Nat) {s : State} (h : Keeps r s) :
    Keeps r (loadSockets l base_ s) := by
  unfold loadSockets
  repeat' first
    | intro _ | with_reducible (first | assumption | apply keeps_wrReg | apply keeps_forUpTo)

theorem keeps_bootStore {r : State} (i : Nat) (bad : Bool) {s : State} (h : Keeps r s) :
    Keeps r (bootStore i bad s) := by
  unfold bootStore
  repeat' first
    | intro _ | with_reducible (first | assumption | apply keeps_raiseBit | apply keeps_capture | apply keeps_setStore | apply keeps_tick
                                      | apply keeps_loadSockets | apply keeps_ite)
    | (extract_lets +onlyGivenNames x
       first
       | (refine (fun (hx : Keeps r x) => ?_) ?_; (on_goal 1 => clear_value x); (on_goal 2 => dsimp -zeta only [x]))
       | clear_value x)
    | split

theorem keeps_startStores {r : State} (b : BootFind) {s : State} (h : Keeps r s) :
    Keeps r (startStores b s) := by
  unfold startStores
  repeat' first
    | intro _ | with_reducible (first | assumption | apply keeps_bootStore | apply keeps_forUpTo)
    | (extract_lets +onlyGivenNames x
       first
       | (refine (fun (hx : Keeps r x) => ?_) ?_; (on_goal 1 => clear_value x); (on_goal 2 => dsimp -zeta only [x]))
       | clear_value x)

theorem keeps_startTiles {r : State} (b : BootFind) {s : State} (h : Keeps r s) :
    Keeps r (startTiles b s) := by
  unfold startTiles
  repeat' first
    | intro _ | with_reducible (first | assumption | apply keeps_isolate | apply keeps_reportLoss | apply keeps_forUpTo | apply keeps_ite)
    | split

theorem keeps_trainFails {r : State} (n : Nat) {s : State} (h : Keeps r s) :
    Keeps r (trainFails n s) := by
  unfold trainFails
  repeat' first
    | with_reducible (first | assumption | apply keeps_isolate | apply keeps_reportLoss | apply keeps_raiseBit | apply keeps_wrReg)

theorem keeps_trainReady {r : State} (n : Nat) {s : State} (h : Keeps r s) :
    Keeps r (trainReady n s) := by
  unfold trainReady
  repeat' first
    | with_reducible (first | assumption | apply keeps_raiseBit | apply keeps_wrReg)

theorem keeps_trainStacks {r : State} (b : BootFind) {s : State} (h : Keeps r s) :
    Keeps r (trainStacks b s) := by
  unfold trainStacks
  repeat' first
    | intro _ | with_reducible (first | assumption | apply keeps_trainFails | apply keeps_trainReady | apply keeps_forUpTo
                                      | apply keeps_ite)
    | split

theorem keeps_restartsDone {r : State}  {s : State} (h : Keeps r s) :
    Keeps r (restartsDone s) := by
  unfold restartsDone
  repeat' first
    | intro _ | with_reducible (first | assumption | apply keeps_setDom | apply keeps_forUpTo)
    | with_reducible apply keeps_mk

theorem keeps_bootBlocks {r : State} (b : BootFind) {s : State} (h : Keeps r s) :
    Keeps r (bootBlocks b s) := by
  unfold bootBlocks
  repeat' first
    | with_reducible (first | assumption | apply keeps_enablePorts | apply keeps_restartsDone | apply keeps_trainStacks
                            | apply keeps_startTiles | apply keeps_startStores)

theorem keeps_putConst {r : State} (p : Nat) (off : Nat) (v : Word) {s : State} (h : Keeps r s) :
    Keeps r (putConst p off v s) := by
  unfold putConst
  repeat' first
    | with_reducible (first | assumption | apply keeps_wrRole)

theorem keeps_loadRecord {r : State} (c : Nat) {s : State} (h : Keeps r s) :
    Keeps r (loadRecord c s) := by
  unfold loadRecord
  repeat' first
    | intro _ | with_reducible (first | assumption | apply keeps_putConst | apply keeps_forEach)
    | (extract_lets +onlyGivenNames x
       first
       | (refine (fun (hx : Keeps r x) => ?_) ?_; (on_goal 1 => clear_value x); (on_goal 2 => dsimp -zeta only [x]))
       | clear_value x)
    | split

theorem keeps_loadTile {r : State} (t : Nat) {s : State} (h : Keeps r s) :
    Keeps r (loadTile t s) := by
  unfold loadTile
  repeat' first
    | intro _ | with_reducible (first | assumption | apply keeps_loadRecord | apply keeps_forUpTo | apply keeps_ite)
    | split

theorem keeps_bootConsts {r : State}  {s : State} (h : Keeps r s) :
    Keeps r (bootConsts s) := by
  unfold bootConsts
  repeat' first
    | intro _ | with_reducible (first | assumption | apply keeps_devStat | apply keeps_loadTile | apply keeps_offer | apply keeps_forUpTo
                                      | apply keeps_ite)
    | (extract_lets +onlyGivenNames x
       first
       | (refine (fun (hx : Keeps r x) => ?_) ?_; (on_goal 1 => clear_value x); (on_goal 2 => dsimp -zeta only [x]))
       | clear_value x)
    | split

theorem keeps_latchHolds {r : State} (c : Nat) {s : State} (h : Keeps r s) :
    Keeps r (latchHolds c s) := by
  unfold latchHolds
  repeat' first
    | intro _ | with_reducible (first | assumption | apply keeps_trip | apply keeps_ite)
    | (extract_lets +onlyGivenNames x
       first
       | (refine (fun (hx : Keeps r x) => ?_) ?_; (on_goal 1 => clear_value x); (on_goal 2 => dsimp -zeta only [x]))
       | clear_value x)
    | split

theorem keeps_hizChannels {r : State}  {s : State} (h : Keeps r s) :
    Keeps r (hizChannels s) := by
  unfold hizChannels
  refine keeps_forUpTo h fun c s hs => keeps_ite (keeps_latchHolds c (keeps_wrReg _ _ _ (keeps_srcChange c _ _ (keeps_modChan c _ hs fun x _ => quiet_released _ rfl)))) fun _ => hs


theorem keeps_bootChannels {r : State}  {s : State} (h : Keeps r s) :
    Keeps r (bootChannels s) := by
  unfold bootChannels
  exact keeps_raiseBit _ _ (keeps_devStat _ _ _ (keeps_devStat _ _ _ (keeps_devStat _ _ _ (keeps_hizChannels h))))


theorem keeps_serviceSafe {r : State} (comp : Nat) {s : State} (h : Keeps r s) :
    Keeps r (serviceSafe comp s) := by
  unfold serviceSafe
  repeat' first
    | intro _ | with_reducible (first | assumption | apply keeps_offer | apply keeps_devStat | apply keeps_hizChannels
                                      | apply keeps_enablePorts | apply keeps_restartsDone | apply keeps_ite)
    | split

theorem keeps_endPending {r : State} (x : Selection) {s : State} (h : Keeps r s) :
    Keeps r (endPending x s) := by
  unfold endPending
  repeat' first
    | intro _ | with_reducible (first | assumption | apply keeps_closeJournal | apply keeps_ite)
    | split | with_reducible apply keeps_mk

theorem keeps_startFirmware {r : State} (src : Nat) (len : Nat) (b : BootFind) {s : State} (h : Keeps r s) :
    Keeps r (startFirmware src len b s) := by
  unfold startFirmware
  repeat' first
    | (refine fun e (hm : ModeLegal _ e) => (?_ : ModeLegal _ _))
    | (guard_target =~ ModeLegal _ _
       first | exact hm | split | exact modeLegal_one _ _ rfl | exact ModeLegal.of_eq (e := e) (by simp) hm)
    | intro _ | with_reducible (first | assumption | apply keeps_modImages | apply keeps_copyRange | apply keeps_wrReg
                                      | apply keeps_devStat | apply keeps_modEng | apply keeps_raiseBit | apply keeps_forUpTo
                                      | apply keeps_ite)
    | (extract_lets +onlyGivenNames x
       first
       | (refine (fun (hx : Keeps r x) => ?_) ?_; (on_goal 1 => clear_value x); (on_goal 2 => dsimp -zeta only [x]))
       | clear_value x)
    | split | with_reducible apply keeps_mk

theorem keeps_startBlocks {r : State} (b : BootFind) {s : State} (h : Keeps r s) :
    Keeps r (startBlocks b s) := by
  unfold startBlocks
  repeat' first
    | with_reducible (first | assumption | apply keeps_bootChannels | apply keeps_bootConsts | apply keeps_bootBlocks)

theorem keeps_runFirmware {r : State} (b : BootFind) {s : State} (h : Keeps r s) :
    Keeps r (runFirmware b s).1 := by
  unfold runFirmware
  repeat' first
    | intro _ | with_reducible (first | assumption | apply keeps_resolveJournal | apply keeps_runSelection | apply keeps_endPending
                                      | apply keeps_serviceSafe | apply keeps_linePut | apply keeps_startBlocks | apply keeps_ite)
    | (extract_lets +onlyGivenNames x
       first
       | (refine (fun (hx : Keeps r x) => ?_) ?_; (on_goal 1 => clear_value x); (on_goal 2 => dsimp -zeta only [x]))
       | clear_value x)
    | split

theorem keeps_pinStays {r : State}  {s : State} (h : Keeps r s) :
    Keeps r (pinStays s) := by
  unfold pinStays
  repeat' first
    | intro _ | with_reducible (first | assumption | apply keeps_setLatch | apply keeps_ite)
    | split

theorem keeps_powerUp {r : State} (cause : Nat) {s : State} (h : Keeps r s) :
    Keeps r (powerUp cause s) := by
  unfold powerUp
  repeat' first
    | intro _ | with_reducible (first | assumption | apply keeps_vauxPut | apply keeps_wrReg | apply keeps_pinStays | apply keeps_modPat)
    | (extract_lets +onlyGivenNames x
       first
       | (refine (fun (hx : Keeps r x) => ?_) ?_; (on_goal 1 => clear_value x); (on_goal 2 => dsimp -zeta only [x]))
       | clear_value x)
    | with_reducible apply keeps_mk

theorem keeps_bootStart {r : State} (b : BootFind) {s : State} (h : Keeps r s) :
    Keeps r (bootStart b s) := by
  unfold bootStart
  repeat' first
    | intro _ | with_reducible (first | assumption | apply keeps_setDom | apply keeps_modImages | apply keeps_forUpTo)
    | (extract_lets +onlyGivenNames x
       first
       | (refine (fun (hx : Keeps r x) => ?_) ?_; (on_goal 1 => clear_value x); (on_goal 2 => dsimp -zeta only [x]))
       | clear_value x)
    | with_reducible apply keeps_mk

theorem keeps_bootOnce {r : State} (b : BootFind) {s : State} (h : Keeps r s) :
    Keeps r (bootOnce b s).1 := by
  unfold bootOnce
  repeat' first
    | with_reducible (first | assumption | apply keeps_bootStart | apply keeps_runFirmware | apply keeps_startFirmware
                            | apply keeps_devStat)
    | (extract_lets +onlyGivenNames x
       first
       | (refine (fun (hx : Keeps r x) => ?_) ?_; (on_goal 1 => clear_value x); (on_goal 2 => dsimp -zeta only [x]))
       | (refine (fun (hx : Keeps r x.1) => ?_) ?_; (on_goal 1 => clear_value x); (on_goal 2 => dsimp -zeta only [x]))
       | clear_value x)
    | split

theorem keeps_finishBoot {r : State} (b : BootFind) {a1 : State × Bool} (h : Keeps r a1.1) :
    Keeps r (finishBoot b a1) := by
  unfold finishBoot
  repeat' first
    | intro _ | with_reducible (first | assumption | apply keeps_bootOnce | apply keeps_powerUp | apply keeps_releaseDomain
                                      | apply keeps_resetCore | apply keeps_lossEffects | apply keeps_ite)
    | split

theorem keeps_boot {r : State} (b : BootFind) {s : State} (h : Keeps r s) :
    Keeps r (boot b s) := by
  unfold boot
  repeat' first
    | with_reducible (first | assumption | apply keeps_finishBoot | apply keeps_bootOnce)

theorem keeps_resetDevice {r : State} (cause : Nat) (b : BootFind) {s : State} (h : Keeps r s) :
    Keeps r (resetDevice cause b s) := by
  unfold resetDevice
  repeat' first
    | intro _ | with_reducible (first | assumption | apply keeps_vauxPut | apply keeps_lossEffects | apply keeps_setDom
                                      | apply keeps_resetDomain | apply keeps_boot | apply keeps_powerUp | apply keeps_releaseDomain
                                      | apply keeps_forUpTo)
    | (extract_lets +onlyGivenNames x
       first
       | (refine (fun (hx : Keeps r x) => ?_) ?_; (on_goal 1 => clear_value x); (on_goal 2 => dsimp -zeta only [x]))
       | clear_value x)
    | with_reducible apply keeps_mk

theorem keeps_resetD8 {r : State} (cause : Nat) (b : BootFind) {s : State} (h : Keeps r s) :
    Keeps r (resetD8 cause b s) := by
  unfold resetD8
  repeat' first
    | with_reducible (first | assumption | apply keeps_boot | apply keeps_powerUp | apply keeps_releaseDomain | apply keeps_resetCore
                            | apply keeps_lossEffects)

theorem keeps_powerOn {r : State} (b : BootFind) {s : State} (h : Keeps r s) :
    Keeps r (powerOn b s) := by
  exact keeps_resetDevice _ _ (keeps_wrReg _ _ _ (keeps_mk (keeps_mkAll h (Nat.le_refl _) id (Nat.le_refl _)
    (smWf_filter 0 s.mem fun c => decide (0x2000000 ≤ c.1 ∧ c.1 < 0x2800000)))))


theorem keeps_resetPin {r : State} (b : BootFind) {s : State} (h : Keeps r s) :
    Keeps r (resetPin b s) := by
  unfold resetPin
  repeat' first
    | intro _ | with_reducible (first | assumption | apply keeps_resetDevice | apply keeps_ite)
    | split | with_reducible apply keeps_mk

theorem keeps_domainCmd {r : State} (m : Master) (v : Word) (b : BootFind) {s : State} (h : Keeps r s) :
    Keeps r (domainCmd m v b s) := by
  unfold domainCmd
  repeat' first
    | intro _ | with_reducible (first | assumption | apply keeps_invalidWrite | apply keeps_resetD8 | apply keeps_loseDomain
                                      | apply keeps_releaseDomain | apply keeps_ite)
    | (extract_lets +onlyGivenNames x
       first
       | (refine (fun (hx : Keeps r x) => ?_) ?_; (on_goal 1 => clear_value x); (on_goal 2 => dsimp -zeta only [x]))
       | clear_value x)
    | split

theorem keeps_rstCmdWrite {r : State} (m : Master) (v : Word) (b : BootFind) {s : State} (h : Keeps r s) :
    Keeps r (rstCmdWrite m v b s) := by
  unfold rstCmdWrite
  repeat' first
    | intro _ | with_reducible (first | assumption | apply keeps_invalidWrite | apply keeps_resetDevice | apply keeps_rejectWrite
                                      | apply keeps_domainCmd | apply keeps_ite)
    | split

theorem keeps_domainRestart {r : State} (d : Nat) (ok : Bool) {s : State} (h : Keeps r s) :
    Keeps r (domainRestart d ok s) := by
  unfold domainRestart
  repeat' first
    | (refine fun x (hq : Quiet x) => (?_ : Quiet _))
    | (guard_target =~ Quiet _
       first
       | exact hq | exact quiet_laneChan _ hq | exact quiet_tileChan _ _ | split
       | exact Quiet.undriven hq rfl rfl rfl rfl rfl | exact Quiet.unmeasured hq rfl rfl rfl rfl rfl)
    | intro _ | with_reducible (first | assumption | apply keeps_setDom | apply keeps_wrReg | apply keeps_isolate
                                      | apply keeps_reportLoss | apply keeps_enablePorts | apply keeps_loadTile | apply keeps_latchHolds
                                      | apply keeps_modChan | apply keeps_forUpTo | apply keeps_ite)
    | (extract_lets +onlyGivenNames x
       first
       | (refine (fun (hx : Keeps r x) => ?_) ?_; (on_goal 1 => clear_value x); (on_goal 2 => dsimp -zeta only [x]))
       | clear_value x)
    | split | with_reducible apply keeps_mk
    | dsimp -zeta only

theorem keeps_shellLost {r : State}  {s : State} (h : Keeps r s) :
    Keeps r (shellLost s) := by
  unfold shellLost
  repeat' first
    | with_reducible (first | assumption | apply keeps_wipeMem)

theorem keeps_powerReturns {r : State} (d : Nat) (b : BootFind) {s : State} (h : Keeps r s) :
    Keeps r (powerReturns d b s) := by
  unfold powerReturns
  repeat' first
    | intro _ | with_reducible (first | assumption | apply keeps_setDom | apply keeps_raiseBit | apply keeps_resetD8
                                      | apply keeps_shellLost | apply keeps_releaseDomain | apply keeps_resetDomain | apply keeps_ite)
    | (extract_lets +onlyGivenNames x
       first
       | (refine (fun (hx : Keeps r x) => ?_) ?_; (on_goal 1 => clear_value x); (on_goal 2 => dsimp -zeta only [x]))
       | clear_value x)
    | split | with_reducible apply keeps_mk

theorem keeps_bootDoorbell {r : State} (m : Master) (len : Nat) (verdict : Nat) (b : BootFind) {s : State} (h : Keeps r s) :
    Keeps r (bootDoorbell m len verdict b s) := by
  unfold bootDoorbell
  repeat' first
    | intro _ | with_reducible (first | assumption | apply keeps_rejectWrite | apply keeps_raiseBit | apply keeps_wrReg
                                      | apply keeps_finishBoot | apply keeps_runFirmware | apply keeps_startFirmware | apply keeps_ite)
    | split

theorem keeps_setAnv {r : State} (i : Nat) (e : AnvilEntry) {s : State} (h : Keeps r s) :
    Keeps r (setAnv i e s) := by
  unfold setAnv
  repeat' first
    | with_reducible (first | assumption)
    | with_reducible apply keeps_mk

theorem keeps_sampleAnvil {r : State}  {s : State} (h : Keeps r s) :
    Keeps r (sampleAnvil s) := by
  unfold sampleAnvil
  repeat' first
    | with_reducible (first | assumption | apply keeps_wmSample)

theorem keeps_anvilRecord {r : State} (e : AnvilEntry) {s : State} (h : Keeps r s) :
    Keeps r (anvilRecord e s) := by
  unfold anvilRecord
  repeat' first
    | with_reducible (first | assumption | apply keeps_offer)

theorem keeps_anvilAct {r : State} (e : AnvilEntry) {s : State} (h : Keeps r s) :
    Keeps r (anvilAct e s) := by
  unfold anvilAct
  repeat' first
    | intro _ | with_reducible (first | assumption | apply keeps_tripWatched | apply keeps_send | apply keeps_parkEngine
                                      | apply keeps_isolate | apply keeps_ite)
    | (extract_lets +onlyGivenNames x
       first
       | (refine (fun (hx : Keeps r x) => ?_) ?_; (on_goal 1 => clear_value x); (on_goal 2 => dsimp -zeta only [x]))
       | clear_value x)
    | split

theorem keeps_noteCorrected {r : State} (a0 : Report) {s : State} (h : Keeps r s) :
    Keeps r (noteCorrected a0 s) := by
  unfold noteCorrected
  repeat' first
    | intro _ | with_reducible (first | assumption | apply keeps_ite)
    | (extract_lets +onlyGivenNames x
       first
       | (refine (fun (hx : Keeps r x) => ?_) ?_; (on_goal 1 => clear_value x); (on_goal 2 => dsimp -zeta only [x]))
       | clear_value x)
    | split | with_reducible apply keeps_mk

theorem keeps_openEntry {r : State} (a0 : Report) {s : State} (h : Keeps r s) :
    Keeps r (openEntry a0 s) := by
  unfold openEntry
  repeat' first
    | intro _ | with_reducible (first | assumption | apply keeps_anvilRecord | apply keeps_raiseBit | apply keeps_countReg
                                      | apply keeps_anvilAct | apply keeps_sampleAnvil | apply keeps_setAnv | apply keeps_ite)
    | (extract_lets +onlyGivenNames x
       first
       | (refine (fun (hx : Keeps r x) => ?_) ?_; (on_goal 1 => clear_value x); (on_goal 2 => dsimp -zeta only [x]))
       | clear_value x)
    | split | with_reducible apply keeps_mk

theorem keeps_mergeReport {r : State} (i : Nat) {s : State} (h : Keeps r s) :
    Keeps r (mergeReport i s) := by
  unfold mergeReport
  repeat' first
    | intro _ | with_reducible (first | assumption | apply keeps_anvilAct | apply keeps_anvilRecord | apply keeps_setAnv | apply keeps_ite)
    | (extract_lets +onlyGivenNames x
       first
       | (refine (fun (hx : Keeps r x) => ?_) ?_; (on_goal 1 => clear_value x); (on_goal 2 => dsimp -zeta only [x]))
       | clear_value x)
    | split | with_reducible apply keeps_mk

theorem keeps_anvilReceives {r : State}  {s : State} (h : Keeps r s) :
    Keeps r (anvilReceives s) := by
  unfold anvilReceives
  split
  · exact h
  · extract_lets s1 s2
    have h1 : Keeps r s1 := keeps_mk h
    split
    · exact h1
    · have h2 : Keeps r s2 := keeps_noteCorrected _ h1
      split
      · exact keeps_setAnv _ _ h2
      · split
        · exact keeps_mergeReport _ h2
        · exact keeps_openEntry _ h2


theorem keeps_ackWrite {r : State} (m : Master) (v : Word) {s : State} (h : Keeps r s) :
    Keeps r (ackWrite m v s) := by
  unfold ackWrite
  repeat' first
    | intro _ | with_reducible (first | assumption | apply keeps_setAnv | apply keeps_rejectWrite)
    | split | with_reducible apply keeps_mk

theorem keeps_closeWrite {r : State} (m : Master) (v : Word) {s : State} (h : Keeps r s) :
    Keeps r (closeWrite m v s) := by
  unfold closeWrite
  repeat' first
    | intro _ | with_reducible (first | assumption | apply keeps_sampleAnvil | apply keeps_setAnv | apply keeps_rejectWrite)
    | split

theorem keeps_pathsDisagree {r : State} (c : Option Nat) {s : State} (h : Keeps r s) :
    Keeps r (pathsDisagree c s) := by
  unfold pathsDisagree
  repeat' first
    | with_reducible (first | assumption | apply keeps_capture | apply keeps_raiseBit)
    | split

theorem keeps_monitorCheck {r : State} (w : Monitor) (dev : Bool) {s : State} (h : Keeps r s) :
    Keeps r (monitorCheck w dev s) := by
  unfold monitorCheck
  repeat' first
    | intro _ | with_reducible (first | assumption | apply keeps_captureAs | apply keeps_wrReg | apply keeps_capture
                                      | apply keeps_raiseBit | apply keeps_modReg | apply keeps_isolate | apply keeps_reportLoss
                                      | apply keeps_report | apply keeps_eccReport | apply keeps_ite)
    | (extract_lets +onlyGivenNames x
       first
       | (refine (fun (hx : Keeps r x) => ?_) ?_; (on_goal 1 => clear_value x); (on_goal 2 => dsimp -zeta only [x]))
       | clear_value x)
    | split

theorem keeps_scrubRead {r : State} (t : ScrubTarget) (o : EccOutcome) {s : State} (h : Keeps r s) :
    Keeps r (scrubRead t o s) := by
  unfold scrubRead
  repeat' first
    | intro _ | with_reducible (first | assumption | apply keeps_countReg | apply keeps_raiseBit | apply keeps_wrReg
                                      | apply keeps_eccReport | apply keeps_eccMeets | apply keeps_storeEcc | apply keeps_ite)
    | (extract_lets +onlyGivenNames x
       first
       | (refine (fun (hx : Keeps r x) => ?_) ?_; (on_goal 1 => clear_value x); (on_goal 2 => dsimp -zeta only [x]))
       | clear_value x)
    | split

theorem keeps_pwrRequest {r : State} (off : Nat) (a1 : Nat) (v : Nat) (m : Master) {s : State} (h : Keeps r s) :
    Keeps r (pwrRequest off a1 v m s) := by
  unfold pwrRequest
  repeat' first
    | intro _ | with_reducible (first | assumption | apply keeps_refuseCmd | apply keeps_raiseReject | apply keeps_ite)
    | (extract_lets +onlyGivenNames x
       first
       | (refine (fun (hx : Keeps r x) => ?_) ?_; (on_goal 1 => clear_value x); (on_goal 2 => dsimp -zeta only [x]))
       | clear_value x)
    | split | with_reducible apply keeps_mk

theorem keeps_pwrApply {r : State} (off : Nat) (m : Master) (v : Word) {s : State} (h : Keeps r s) :
    Keeps r (pwrApply off m v s) := by
  unfold pwrApply
  repeat' first
    | intro _ | with_reducible (first | assumption | apply keeps_pwrRequest | apply keeps_capture | apply keeps_forUpTo | apply keeps_ite)
    | (extract_lets +onlyGivenNames x
       first
       | (refine (fun (hx : Keeps r x) => ?_) ?_; (on_goal 1 => clear_value x); (on_goal 2 => dsimp -zeta only [x]))
       | clear_value x)
    | split

theorem keeps_pwrWrite {r : State} (off : Nat) (m : Master) (v : Word) {s : State} (h : Keeps r s) :
    Keeps r (pwrWrite off m v s) := by
  unfold pwrWrite
  repeat' first
    | intro _ | with_reducible (first | assumption | apply keeps_pwrApply | apply keeps_rejectWrite | apply keeps_ite)
    | split

theorem keeps_powerDone {r : State} (a0 : Nat) {s : State} (h : Keeps r s) :
    Keeps r (powerDone a0 s) := by
  unfold powerDone
  repeat' first
    | intro _ | with_reducible (first | assumption | apply keeps_wipeMem | apply keeps_raiseBit | apply keeps_ite)
    | (extract_lets +onlyGivenNames x
       first
       | (refine (fun (hx : Keeps r x) => ?_) ?_; (on_goal 1 => clear_value x); (on_goal 2 => dsimp -zeta only [x]))
       | clear_value x)
    | split | with_reducible apply keeps_mk

theorem keeps_wipeCause {r : State} (c : WipeCause) {s : State} (h : Keeps r s) :
    Keeps r (wipeCause c s) := by
  unfold wipeCause
  repeat' first
    | intro _ | with_reducible (first | assumption | apply keeps_modReg | apply keeps_modPat | apply keeps_raiseBit | apply keeps_offer
                                      | apply keeps_ite)
    | (extract_lets +onlyGivenNames x
       first
       | (refine (fun (hx : Keeps r x) => ?_) ?_; (on_goal 1 => clear_value x); (on_goal 2 => dsimp -zeta only [x]))
       | clear_value x)
    | split | with_reducible apply keeps_mk

theorem keeps_wipeStart {r : State} (c : WipeCause) {s : State} (h : Keeps r s) :
    Keeps r (wipeStart c s) := by
  unfold wipeStart
  repeat' first
    | with_reducible (first | assumption | apply keeps_wipeCause)
    | split | with_reducible apply keeps_mk

theorem keeps_wipeDone {r : State}  {s : State} (h : Keeps r s) :
    Keeps r (wipeDone s) := by
  unfold wipeDone
  repeat' first
    | intro _ | with_reducible (first | assumption | apply keeps_wipeMem | apply keeps_ite)
    | split | with_reducible apply keeps_mk

theorem keeps_lineDone {r : State} (b : Nat) {s : State} (h : Keeps r s) :
    Keeps r (lineDone b s) := by
  unfold lineDone
  repeat' first
    | intro _ | with_reducible (first | assumption)
    | with_reducible apply keeps_mk

theorem keeps_mxCtlWrite {r : State} (m : Master) (v : Word) {s : State} (h : Keeps r s) :
    Keeps r (mxCtlWrite m v s) := by
  unfold mxCtlWrite
  repeat' first
    | intro _ | with_reducible (first | assumption | apply keeps_rejectWrite | apply keeps_wrReg | apply keeps_ite)
    | split

end Sys2Proof.Machine
end

