-- ==== Sys2Proof/Laws/KeepsService.lean ====
section
/-! SUPPORT. What every operation of the services, the host interface, register accesses and transfers keeps (Safety.Keeps). -/

-- One theorem at a time: elaborating them in parallel takes the memory of many threads.
set_option Elab.async false
set_option linter.unusedTactic false
set_option linter.unreachableTactic false

namespace Sys2Proof.Machine

theorem keeps_clearBell {r : State} (fab : Bool) (slot : Nat) {s : State} (h : Keeps r s) :
    Keeps r (clearBell fab slot s) := by
  unfold clearBell
  repeat' first
    | intro _ | with_reducible (first | assumption | apply keeps_modReg | apply keeps_ite)
    | split

theorem keeps_checkpoint {r : State}  {s : State} (h : Keeps r s) :
    Keeps r (checkpoint s) := by
  unfold checkpoint
  repeat' first
    | with_reducible (first | assumption | apply keeps_bankPut)

theorem keeps_resumeService {r : State}  {s : State} (h : Keeps r s) :
    Keeps r (resumeService s) := by
  unfold resumeService
  repeat' first
    | intro _ | with_reducible (first | assumption)
    | with_reducible apply keeps_mk

theorem keeps_slotDone {r : State} (fab : Bool) (slot : Nat) (result : Nat) (out0 : Nat) {s : State} (h : Keeps r s) :
    Keeps r (slotDone fab slot result out0 s) := by
  unfold slotDone
  repeat' first
    | intro _ | with_reducible (first | assumption | apply keeps_bankPut | apply keeps_checkpoint | apply keeps_notice
                                      | apply keeps_raiseBit | apply keeps_ite)
    | (extract_lets +onlyGivenNames x
       first
       | (refine (fun (hx : Keeps r x) => ?_) ?_; (on_goal 1 => clear_value x); (on_goal 2 => dsimp -zeta only [x]))
       | clear_value x)
    | split

theorem keeps_serve {r : State} (fab : Bool) (slot : Nat) (code : Nat → Bool) (f : State → State) {s : State} (h : Keeps r s) (hf : ∀ s, Keeps r s → Keeps r (f s)) :
    Keeps r (serve fab slot code f s) := by
  unfold serve
  repeat' first
    | intro _ | with_reducible (first | assumption | apply keeps_clearBell | apply keeps_bankPut | apply hf | apply keeps_ite)
    | (extract_lets +onlyGivenNames x
       first
       | (refine (fun (hx : Keeps r x) => ?_) ?_; (on_goal 1 => clear_value x); (on_goal 2 => dsimp -zeta only [x]))
       | (refine (fun (hx : Keeps r x.s) => ?_) ?_; (on_goal 1 => clear_value x); (on_goal 2 => dsimp -zeta only [x]))
       | clear_value x)
    | split | with_reducible apply keeps_mk | dsimp -zeta only

theorem keeps_slotWaits {r : State} (fab : Bool) (slot : Nat) (w : SlotWait) {s : State} (h : Keeps r s) :
    Keeps r (slotWaits fab slot w s) := by
  unfold slotWaits
  repeat' first
    | with_reducible (first | assumption | apply keeps_checkpoint)
    | with_reducible apply keeps_mk

theorem keeps_finishWaits {r : State} (w : SlotWait) (result : Nat) (out0 : Nat) {s : State} (h : Keeps r s) :
    Keeps r (finishWaits w result out0 s) := by
  unfold finishWaits
  repeat' first
    | intro _ | with_reducible (first | assumption | apply keeps_slotDone | apply keeps_forEach)
    | with_reducible apply keeps_mk

theorem keeps_islandsLost {r : State}  {s : State} (h : Keeps r s) :
    Keeps r (islandsLost s) := by
  unfold islandsLost
  repeat' first
    | intro _ | with_reducible (first | assumption | apply keeps_grantAll | apply keeps_matrixReply | apply keeps_forEach)
    | with_reducible apply keeps_mk

theorem keeps_bellowsBegin {r : State} (rail : Bool) {s : State} (h : Keeps r s) :
    Keeps r (bellowsBegin rail s) := by
  unfold bellowsBegin
  repeat' first
    | intro _ | with_reducible (first | assumption | apply keeps_vauxPut | apply keeps_raiseBit | apply keeps_modReg
                                      | apply keeps_islandsLost | apply keeps_isolate | apply keeps_tripAll | apply keeps_modPat
                                      | apply keeps_offer | apply keeps_forEach | apply keeps_ite)
    | (extract_lets +onlyGivenNames x
       first
       | (refine (fun (hx : Keeps r x) => ?_) ?_; (on_goal 1 => clear_value x); (on_goal 2 => dsimp -zeta only [x]))
       | (refine (fun (hx : Keeps r x.s) => ?_) ?_; (on_goal 1 => clear_value x); (on_goal 2 => dsimp -zeta only [x]))
       | clear_value x)
    | split | with_reducible apply keeps_mk | dsimp -zeta only

theorem keeps_jdoneWrite {r : State} (m : Master) (v : Word) {s : State} (h : Keeps r s) :
    Keeps r (jdoneWrite m v s) := by
  unfold jdoneWrite
  repeat' first
    | intro _ | with_reducible (first | assumption | apply keeps_rejectWrite | apply keeps_ite)
    | split | with_reducible apply keeps_mk

theorem keeps_journalExpires {r : State}  {s : State} (h : Keeps r s) :
    Keeps r (journalExpires s) := by
  unfold journalExpires
  repeat' first
    | with_reducible (first | assumption)
    | with_reducible apply keeps_mk

theorem keeps_stopDevice {r : State} (lastBits : Nat) {s : State} (h : Keeps r s) :
    Keeps r (stopDevice lastBits s) := by
  unfold stopDevice
  repeat' first
    | intro _ | with_reducible (first | assumption | apply keeps_lossEffects | apply keeps_vauxPut | apply keeps_setDom
                                      | apply keeps_modReg | apply keeps_forUpTo | apply keeps_ite)
    | (extract_lets +onlyGivenNames x
       first
       | (refine (fun (hx : Keeps r x) => ?_) ?_; (on_goal 1 => clear_value x); (on_goal 2 => dsimp -zeta only [x]))
       | clear_value x)
    | split | with_reducible apply keeps_mk

theorem keeps_bellowsEnd {r : State}  {s : State} (h : Keeps r s) :
    Keeps r (bellowsEnd s) := by
  unfold bellowsEnd
  repeat' first
    | intro _ | with_reducible (first | assumption | apply keeps_resetDevice | apply keeps_stopDevice | apply keeps_ite)
    | split | dsimp -zeta only

theorem keeps_holdUpOut {r : State}  {s : State} (h : Keeps r s) :
    Keeps r (holdUpOut s) := by
  unfold holdUpOut
  repeat' first
    | intro _ | with_reducible (first | assumption | apply keeps_stopDevice | apply keeps_ite)
    | split | dsimp -zeta only

theorem keeps_brownout {r : State} (b : BootFind) {s : State} (h : Keeps r s) :
    Keeps r (brownout b s) := by
  unfold brownout
  repeat' first
    | intro _ | with_reducible (first | assumption | apply keeps_resetDevice | apply keeps_ite)
    | split

theorem keeps_capCharged {r : State} (uF : Nat) (volts49 : Bool) {s : State} (h : Keeps r s) :
    Keeps r (capCharged uF volts49 s) := by
  unfold capCharged
  repeat' first
    | intro _ | with_reducible (first | assumption | apply keeps_modReg | apply keeps_raiseBit | apply keeps_ite)
    | (extract_lets +onlyGivenNames x
       first
       | (refine (fun (hx : Keeps r x) => ?_) ?_; (on_goal 1 => clear_value x); (on_goal 2 => dsimp -zeta only [x]))
       | clear_value x)
    | split

theorem keeps_retrainWrite {r : State} (n : Nat) (m : Master) (v : Word) {s : State} (h : Keeps r s) :
    Keeps r (retrainWrite n m v s) := by
  unfold retrainWrite
  repeat' first
    | intro _ | with_reducible (first | assumption | apply keeps_rejectWrite | apply keeps_wrReg | apply keeps_ite)
    | split

theorem keeps_trained {r : State} (n : Nat) (ok : Bool) {s : State} (h : Keeps r s) :
    Keeps r (trained n ok s) := by
  unfold trained
  repeat' first
    | intro _ | with_reducible (first | assumption | apply keeps_trainReady | apply keeps_trainFails | apply keeps_ite)
    | split

theorem keeps_setTemp {r : State} (n : Nat) (t : BitVec 16) {s : State} (h : Keeps r s) :
    Keeps r (setTemp n t s) := by
  unfold setTemp
  repeat' first
    | with_reducible (first | assumption)
    | with_reducible apply keeps_mk

theorem keeps_warnTemp {r : State} (n : Nat) (t : BitVec 16) {s : State} (h : Keeps r s) :
    Keeps r (warnTemp n t s) := by
  unfold warnTemp
  repeat' first
    | intro _ | with_reducible (first | assumption | apply keeps_setTemp | apply keeps_report | apply keeps_raiseBit | apply keeps_ite)
    | (extract_lets +onlyGivenNames x
       first
       | (refine (fun (hx : Keeps r x) => ?_) ?_; (on_goal 1 => clear_value x); (on_goal 2 => dsimp -zeta only [x]))
       | clear_value x)
    | split | with_reducible apply keeps_mk

theorem keeps_tripTemp {r : State} (n : Nat) (t : BitVec 16) {s : State} (h : Keeps r s) :
    Keeps r (tripTemp n t s) := by
  unfold tripTemp
  repeat' first
    | intro _ | with_reducible (first | assumption | apply keeps_setTemp | apply keeps_warnTemp | apply keeps_loseDomain
                                      | apply keeps_forEach | apply keeps_ite)
    | (extract_lets +onlyGivenNames x
       first
       | (refine (fun (hx : Keeps r x) => ?_) ?_; (on_goal 1 => clear_value x); (on_goal 2 => dsimp -zeta only [x]))
       | clear_value x)
    | split | with_reducible apply keeps_mk

theorem keeps_setTemps {r : State} (l : List (BitVec 16)) {s : State} (h : Keeps r s) :
    Keeps r (setTemps l s) := by
  unfold setTemps
  repeat' first
    | intro _ | with_reducible (first | assumption | apply keeps_setTemp | apply keeps_forUpTo)
    | split

theorem keeps_warnClears {r : State} (l : List (BitVec 16)) {s : State} (h : Keeps r s) :
    Keeps r (warnClears l s) := by
  unfold warnClears
  repeat' first
    | intro _ | with_reducible (first | assumption | apply keeps_setTemps | apply keeps_ite)
    | (extract_lets +onlyGivenNames x
       first
       | (refine (fun (hx : Keeps r x) => ?_) ?_; (on_goal 1 => clear_value x); (on_goal 2 => dsimp -zeta only [x]))
       | clear_value x)
    | split | with_reducible apply keeps_mk

theorem keeps_tripClears {r : State} (l : List (BitVec 16)) {s : State} (h : Keeps r s) :
    Keeps r (tripClears l s) := by
  unfold tripClears
  repeat' first
    | intro _ | with_reducible (first | assumption | apply keeps_setTemps | apply keeps_releaseDomain | apply keeps_forEach
                                      | apply keeps_ite)
    | (extract_lets +onlyGivenNames x
       first
       | (refine (fun (hx : Keeps r x) => ?_) ?_; (on_goal 1 => clear_value x); (on_goal 2 => dsimp -zeta only [x]))
       | clear_value x)
    | split | with_reducible apply keeps_mk

theorem keeps_calState {r : State} (t : Nat) (st : Nat) (pos : Nat) {s : State} (h : Keeps r s) :
    Keeps r (calState t st pos s) := by
  unfold calState
  repeat' first
    | with_reducible (first | assumption | apply keeps_wrReg)

theorem keeps_temperStart {r : State} (t : Nat × Nat) {s : State} (h : Keeps r s) :
    Keeps r (temperStart t s) := by
  unfold temperStart
  repeat' first
    | intro _ | with_reducible (first | assumption | apply keeps_wrReg | apply keeps_calState | apply keeps_ite)
    | (extract_lets +onlyGivenNames x
       first
       | (refine (fun (hx : Keeps r x) => ?_) ?_; (on_goal 1 => clear_value x); (on_goal 2 => dsimp -zeta only [x]))
       | clear_value x)
    | split | with_reducible apply keeps_mk

theorem keeps_temperStop {r : State} (t : Nat × Nat) {s : State} (h : Keeps r s) :
    Keeps r (temperStop t s) := by
  unfold temperStop
  repeat' first
    | intro _ | with_reducible (first | assumption | apply keeps_modReg | apply keeps_calState | apply keeps_ite)
    | (extract_lets +onlyGivenNames x
       first
       | (refine (fun (hx : Keeps r x) => ?_) ?_; (on_goal 1 => clear_value x); (on_goal 2 => dsimp -zeta only [x]))
       | clear_value x)
    | split | with_reducible apply keeps_mk

theorem keeps_temperAborts {r : State}  {s : State} (h : Keeps r s) :
    Keeps r (temperAborts s) := by
  unfold temperAborts
  repeat' first
    | with_reducible (first | assumption | apply keeps_countReg | apply keeps_temperStop)
    | split

theorem keeps_temperFails {r : State} (t : Nat × Nat) {s : State} (h : Keeps r s) :
    Keeps r (temperFails t s) := by
  unfold temperFails
  repeat' first
    | intro _ | with_reducible (first | assumption | apply keeps_report | apply keeps_raiseBit | apply keeps_countReg
                                      | apply keeps_modReg | apply keeps_ite)
    | (extract_lets +onlyGivenNames x
       first
       | (refine (fun (hx : Keeps r x) => ?_) ?_; (on_goal 1 => clear_value x); (on_goal 2 => dsimp -zeta only [x]))
       | clear_value x)
    | split

theorem keeps_temperEnds {r : State} (pass : Bool) {s : State} (h : Keeps r s) :
    Keeps r (temperEnds pass s) := by
  unfold temperEnds
  repeat' first
    | intro _ | with_reducible (first | assumption | apply keeps_temperStop | apply keeps_temperFails | apply keeps_ite)
    | (extract_lets +onlyGivenNames x
       first
       | (refine (fun (hx : Keeps r x) => ?_) ?_; (on_goal 1 => clear_value x); (on_goal 2 => dsimp -zeta only [x]))
       | clear_value x)
    | split | with_reducible apply keeps_mk

theorem keeps_primerEnd {r : State} (err : Nat) {s : State} (h : Keeps r s) :
    Keeps r (primerEnd err s) := by
  unfold primerEnd
  repeat' first
    | intro _ | with_reducible (first | assumption | apply keeps_calState | apply keeps_wrReg | apply keeps_raiseBit
                                      | apply keeps_finishWaits | apply keeps_forUpTo | apply keeps_ite)
    | (extract_lets +onlyGivenNames x
       first
       | (refine (fun (hx : Keeps r x) => ?_) ?_; (on_goal 1 => clear_value x); (on_goal 2 => dsimp -zeta only [x]))
       | clear_value x)
    | split | with_reducible apply keeps_mk

theorem keeps_measures {r : State} (cs : List Nat) {s : State} (h : Keeps r s) :
    Keeps r (measures cs s) := by
  unfold measures
  repeat' first
    | intro _ | with_reducible (first | assumption | apply keeps_temperAborts | apply keeps_modReg | apply keeps_calState
                                      | apply keeps_forEach | apply keeps_ite)
    | (extract_lets +onlyGivenNames x
       first
       | (refine (fun (hx : Keeps r x) => ?_) ?_; (on_goal 1 => clear_value x); (on_goal 2 => dsimp -zeta only [x]))
       | clear_value x)
    | split | with_reducible apply keeps_mk

theorem keeps_primerNext {r : State} (a0 : List Nat) {a1 : State} (h : Keeps r a1) :
    Keeps r (primerNext a0 a1) := by
  induction a0 generalizing a1 with
  | nil => exact keeps_primerEnd _ (keeps_mk h)
  | cons e l ih =>
    unfold primerNext
    split
    · exact keeps_measures _ (keeps_mk h)
    · exact ih (keeps_countReg _ _ _ h)


theorem keeps_sweepTo {r : State} (pos : Nat) {s : State} (h : Keeps r s) :
    Keeps r (sweepTo pos s) := by
  unfold sweepTo
  repeat' first
    | intro _ | with_reducible (first | assumption | apply keeps_measures | apply keeps_countReg | apply keeps_calState
                                      | apply keeps_forUpTo | apply keeps_ite)
    | (extract_lets +onlyGivenNames x
       first
       | (refine (fun (hx : Keeps r x) => ?_) ?_; (on_goal 1 => clear_value x); (on_goal 2 => dsimp -zeta only [x]))
       | clear_value x)
    | split | with_reducible apply keeps_mk

theorem keeps_sweepOn {r : State}  {s : State} (h : Keeps r s) :
    Keeps r (sweepOn s) := by
  unfold sweepOn
  repeat' first
    | intro _ | with_reducible (first | assumption | apply keeps_sweepTo | apply keeps_ite)
    | split

theorem keeps_sweepRest {r : State}  {s : State} (h : Keeps r s) :
    Keeps r (sweepRest s) := by
  unfold sweepRest
  repeat' first
    | intro _ | with_reducible (first | assumption | apply keeps_sweepTo | apply keeps_forUpTo)

theorem keeps_serviceAborts {r : State}  {s : State} (h : Keeps r s) :
    Keeps r (serviceAborts s) := by
  unfold serviceAborts
  repeat' first
    | intro _ | with_reducible (first | assumption | apply keeps_temperAborts | apply keeps_primerEnd | apply keeps_ite)
    | split

theorem keeps_yields {r : State} (named : Nat → Bool) {s : State} (h : Keeps r s) :
    Keeps r (yields named s) := by
  unfold yields
  repeat' first
    | intro _ | with_reducible (first | assumption | apply keeps_temperAborts | apply keeps_primerEnd | apply keeps_ite)
    | (extract_lets +onlyGivenNames x
       first
       | (refine (fun (hx : Keeps r x) => ?_) ?_; (on_goal 1 => clear_value x); (on_goal 2 => dsimp -zeta only [x]))
       | clear_value x)
    | split

theorem keeps_hangYields {r : State} (g : Nat) {s : State} (h : Keeps r s) :
    Keeps r (hangYields g s) := by
  unfold hangYields
  repeat' first
    | intro _ | with_reducible (first | assumption | apply keeps_yields)

theorem keeps_pageYields {r : State} (page : Nat) (m : Master) {s : State} (h : Keeps r s) :
    Keeps r (pageYields page m s) := by
  unfold pageYields
  repeat' first
    | intro _ | with_reducible (first | assumption | apply keeps_yields | apply keeps_ite)
    | split

theorem keeps_memYields {r : State} (x : Target) (m : Master) {s : State} (h : Keeps r s) :
    Keeps r (memYields x m s) := by
  unfold memYields
  repeat' first
    | with_reducible (first | assumption | apply keeps_pageYields)
    | split

theorem keeps_prCmd {r : State} (m : Master) (v : Word) {s : State} (h : Keeps r s) :
    Keeps r (prCmd m v s) := by
  unfold prCmd
  repeat' first
    | intro _ | with_reducible (first | assumption | apply keeps_invalidWrite | apply keeps_primerEnd | apply keeps_rejectWrite
                                      | apply keeps_temperAborts | apply keeps_sweepTo | apply keeps_wrReg | apply keeps_primerNext
                                      | apply keeps_ite)
    | (extract_lets +onlyGivenNames x
       first
       | (refine (fun (hx : Keeps r x) => ?_) ?_; (on_goal 1 => clear_value x); (on_goal 2 => dsimp -zeta only [x]))
       | clear_value x)
    | split | with_reducible apply keeps_mk

theorem keeps_prCmdWrite {r : State} (m : Master) (v : Word) {s : State} (h : Keeps r s) :
    Keeps r (prCmdWrite m v s) := by
  unfold prCmdWrite
  repeat' first
    | intro _ | with_reducible (first | assumption | apply keeps_prCmd | apply keeps_rejectWrite | apply keeps_ite)
    | split

theorem keeps_calPut {r : State} (n : Nat) (a1 : List Byte) {s : State} (h : Keeps r s) :
    Keeps r (calPut n a1 s) := by
  unfold calPut
  repeat' first
    | with_reducible (first | assumption | apply keeps_bankPut)

theorem keeps_copyRecord {r : State} (n : Nat) {s : State} (h : Keeps r s) :
    Keeps r (copyRecord n s) := by
  unfold copyRecord
  repeat' first
    | with_reducible (first | assumption | apply keeps_bankPut)
    | split

theorem keeps_copyCal {r : State} (c : Nat) {s : State} (h : Keeps r s) :
    Keeps r (copyCal c s) := by
  unfold copyCal
  repeat' first
    | intro _ | with_reducible (first | assumption | apply keeps_wrRole | apply keeps_forUpTo)

theorem keeps_calExchange {r : State} (c : Nat) {s : State} (h : Keeps r s) :
    Keeps r (calExchange c s) := by
  unfold calExchange
  repeat' first
    | intro _ | with_reducible (first | assumption | apply keeps_copyCal | apply keeps_modReg)
    | (extract_lets +onlyGivenNames x
       first
       | (refine (fun (hx : Keeps r x) => ?_) ?_; (on_goal 1 => clear_value x); (on_goal 2 => dsimp -zeta only [x]))
       | clear_value x)
    | with_reducible apply keeps_mk

theorem keeps_calBoundary {r : State} (k : Nat) {s : State} (h : Keeps r s) :
    Keeps r (calBoundary k s) := by
  unfold calBoundary
  repeat' first
    | intro _ | with_reducible (first | assumption | apply keeps_calExchange | apply keeps_forEach)
    | split

theorem keeps_buildCal {r : State} (consts : List (Nat × Nat × BitVec 32)) (seq : Nat) (c : Nat) {s : State} (h : Keeps r s) :
    Keeps r (buildCal consts seq c s) := by
  unfold buildCal
  repeat' first
    | intro _ | with_reducible (first | assumption | apply keeps_wrRole | apply keeps_forEach)
    | (extract_lets +onlyGivenNames x
       first
       | (refine (fun (hx : Keeps r x) => ?_) ?_; (on_goal 1 => clear_value x); (on_goal 2 => dsimp -zeta only [x]))
       | clear_value x)

theorem keeps_calPutAll {r : State} (cs : List Nat) (ts : List Nat) (seq : Nat) {s : State} (h : Keeps r s) :
    Keeps r (calPutAll cs ts seq s) := by
  unfold calPutAll
  refine keeps_forEach (keeps_forEach h fun c t ht => keeps_calPut _ _ ht) fun c t ht => ?_
  exact keeps_calPut _ _ (keeps_mkAll ht (Nat.le_refl _) id (Nat.le_add_right _ _) id)


theorem keeps_commitCal {r : State} (cs : List Nat) (ts : List Nat) (consts : List (Nat × Nat × BitVec 32)) {s : State} (h : Keeps r s) :
    Keeps r (commitCal cs ts consts s) := by
  unfold commitCal
  repeat' first
    | intro _ | with_reducible (first | assumption | apply keeps_linePut | apply keeps_calPutAll | apply keeps_buildCal
                                      | apply keeps_reach | apply keeps_calExchange | apply keeps_copyRecord | apply keeps_modReg
                                      | apply keeps_submitEvent | apply keeps_forEach)
    | (extract_lets +onlyGivenNames x
       first
       | (refine (fun (hx : Keeps r x) => ?_) ?_; (on_goal 1 => clear_value x); (on_goal 2 => dsimp -zeta only [x]))
       | (refine (fun (hx : Keeps r x.s) => ?_) ?_; (on_goal 1 => clear_value x); (on_goal 2 => dsimp -zeta only [x]))
       | clear_value x)
    | with_reducible apply keeps_mk | dsimp -zeta only

theorem keeps_primerCommits {r : State} (consts : List (Nat × Nat × BitVec 32)) {s : State} (h : Keeps r s) :
    Keeps r (primerCommits consts s) := by
  unfold primerCommits
  repeat' first
    | intro _ | with_reducible (first | assumption | apply keeps_sweepRest | apply keeps_primerEnd | apply keeps_commitCal
                                      | apply keeps_primerNext | apply keeps_calState | apply keeps_ite)
    | (extract_lets +onlyGivenNames x
       first
       | (refine (fun (hx : Keeps r x) => ?_) ?_; (on_goal 1 => clear_value x); (on_goal 2 => dsimp -zeta only [x]))
       | clear_value x)
    | split

theorem keeps_setRole {r : State} (p : Nat) (a1 : Nat) {s : State} (h : Keeps r s) :
    Keeps r (setRole p a1 s) := by
  unfold setRole
  repeat' first
    | intro _ | with_reducible (first | assumption | apply keeps_raiseBit | apply keeps_modReg)

theorem keeps_restartPair {r : State} (p : Nat) {s : State} (h : Keeps r s) :
    Keeps r (restartPair p s) := by
  unfold restartPair
  refine keeps_setEng _ _ h fun _ => ⟨?_, fun _ => Nat.le_add_right 1024 p⟩
  show (engDefault (1024 + p)).mode ≤ 2
  unfold engDefault
  split <;> simp


theorem keeps_stopPair {r : State} (p : Nat) {s : State} (h : Keeps r s) :
    Keeps r (stopPair p s) := by
  unfold stopPair
  repeat' first
    | (refine fun e (hm : ModeLegal _ e) => (?_ : ModeLegal _ _))
    | (guard_target =~ ModeLegal _ _
       first | exact hm | split | exact modeLegal_one _ _ rfl | exact ModeLegal.of_eq (e := e) (by simp) hm)
    | intro _ | with_reducible (first | assumption | apply keeps_dropAll | apply keeps_modEng | apply keeps_ite)
    | (extract_lets +onlyGivenNames x
       first
       | (refine (fun (hx : Keeps r x) => ?_) ?_; (on_goal 1 => clear_value x); (on_goal 2 => dsimp -zeta only [x]))
       | clear_value x)
    | split | with_reducible apply keeps_mk

theorem keeps_takeOver {r : State} (p : Nat) {s : State} (h : Keeps r s) :
    Keeps r (takeOver p s) := by
  unfold takeOver
  repeat' first
    | with_reducible (first | assumption | apply keeps_setRole)

theorem keeps_switchRoles {r : State} (p : Nat) {s : State} (h : Keeps r s) :
    Keeps r (switchRoles p s) := by
  unfold switchRoles
  repeat' first
    | with_reducible (first | assumption | apply keeps_resumeService | apply keeps_restartPair | apply keeps_setRole
                            | apply keeps_takeOver | apply keeps_stopPair)
    | (extract_lets +onlyGivenNames x
       first
       | (refine (fun (hx : Keeps r x) => ?_) ?_; (on_goal 1 => clear_value x); (on_goal 2 => dsimp -zeta only [x]))
       | clear_value x)

theorem keeps_stagePair {r : State} (p : Nat) {s : State} (h : Keeps r s) :
    Keeps r (stagePair p s) := by
  unfold stagePair
  repeat' first
    | intro _ | with_reducible (first | assumption | apply keeps_restartPair | apply keeps_modReg)

theorem keeps_leaveTemper {r : State} (p : Nat) {s : State} (h : Keeps r s) :
    Keeps r (leaveTemper p s) := by
  unfold leaveTemper
  repeat' first
    | intro _ | with_reducible (first | assumption | apply keeps_temperAborts | apply keeps_ite)
    | split

theorem keeps_activateFirmware {r : State} (j : Journal) {s : State} (h : Keeps r s) :
    Keeps r (activateFirmware j s) := by
  unfold activateFirmware
  repeat' first
    | intro _ | with_reducible (first | assumption | apply keeps_leaveTemper | apply keeps_copyRange | apply keeps_stagePair
                                      | apply keeps_switchRoles | apply keeps_ite)
    | (extract_lets +onlyGivenNames x
       first
       | (refine (fun (hx : Keeps r x) => ?_) ?_; (on_goal 1 => clear_value x); (on_goal 2 => dsimp -zeta only [x]))
       | clear_value x)
    | split

theorem keeps_leaveServiceSafe {r : State} (comp : Nat) {s : State} (h : Keeps r s) :
    Keeps r (leaveServiceSafe comp s) := by
  unfold leaveServiceSafe
  repeat' first
    | intro _ | with_reducible (first | assumption | apply keeps_resetD8 | apply keeps_tick | apply keeps_serviceSafe
                                      | apply keeps_runSelection | apply keeps_startBlocks | apply keeps_ite)
    | (extract_lets +onlyGivenNames x
       first
       | (refine (fun (hx : Keeps r x) => ?_) ?_; (on_goal 1 => clear_value x); (on_goal 2 => dsimp -zeta only [x]))
       | clear_value x)
    | split

theorem keeps_updateCompletes {r : State} (result : Nat) {s : State} (h : Keeps r s) :
    Keeps r (updateCompletes result s) := by
  unfold updateCompletes
  repeat' first
    | with_reducible (first | assumption | apply keeps_finishWaits)

theorem keeps_activateBlock {r : State} (j : Journal) (b : Nat) {s : State} (h : Keeps r s) :
    Keeps r (activateBlock j b s) := by
  unfold activateBlock
  repeat' first
    | intro _ | with_reducible (first | assumption | apply keeps_activateFirmware | apply keeps_bootStore | apply keeps_ite)
    | split

theorem keeps_activateNext {r : State} (b : Nat) {s : State} (h : Keeps r s) :
    Keeps r (activateNext b s) := by
  unfold activateNext
  repeat' first
    | intro _ | with_reducible (first | assumption | apply keeps_noteStep | apply keeps_activateBlock | apply keeps_ite)
    | split | with_reducible apply keeps_mk

theorem keeps_commitUpdate {r : State} (j : Journal) {s : State} (h : Keeps r s) :
    Keeps r (commitUpdate j s) := by
  unfold commitUpdate
  repeat' first
    | with_reducible (first | assumption | apply keeps_leaveServiceSafe | apply keeps_updateCompletes | apply keeps_closeJournal)
    | with_reducible apply keeps_mk

theorem keeps_updateProceeds {r : State}  {s : State} (h : Keeps r s) :
    Keeps r (updateProceeds s) := by
  unfold updateProceeds
  repeat' first
    | intro _ | with_reducible (first | assumption | apply keeps_activateNext | apply keeps_commitUpdate | apply keeps_forEach
                                      | apply keeps_ite)
    | (extract_lets +onlyGivenNames x
       first
       | (refine (fun (hx : Keeps r x) => ?_) ?_; (on_goal 1 => clear_value x); (on_goal 2 => dsimp -zeta only [x]))
       | clear_value x)
    | split

theorem keeps_updateRefused {r : State} (fab : Bool) (slot : Nat) (comp : Nat) (result : Nat) {s : State} (h : Keeps r s) :
    Keeps r (updateRefused fab slot comp result s) := by
  unfold updateRefused
  repeat' first
    | with_reducible (first | assumption | apply keeps_wrReg | apply keeps_slotDone | apply keeps_raiseBit)
    | (extract_lets +onlyGivenNames x
       first
       | (refine (fun (hx : Keeps r x) => ?_) ?_; (on_goal 1 => clear_value x); (on_goal 2 => dsimp -zeta only [x]))
       | clear_value x)

theorem keeps_updateGoesOn {r : State}  {s : State} (h : Keeps r s) :
    Keeps r (updateGoesOn s) := by
  unfold updateGoesOn
  repeat' first
    | intro _ | with_reducible (first | assumption | apply keeps_updateProceeds | apply keeps_updateCompletes | apply keeps_ite)
    | split

theorem keeps_updateSteps {r : State} (j : Journal) (readbackOk : Bool) (cut : Nat × Nat) {s : State} (h : Keeps r s) :
    Keeps r (updateSteps j readbackOk cut s) := by
  unfold updateSteps
  repeat' first
    | intro _ | with_reducible (first | assumption | apply keeps_openJournal | apply keeps_copyChunks | apply keeps_updateGoesOn
                                      | apply keeps_closeJournal | apply keeps_slotVerified | apply keeps_noteStep
                                      | apply keeps_checkStep | apply keeps_activateNext | apply keeps_forEach | apply keeps_ite)
    | (extract_lets +onlyGivenNames x
       first
       | (refine (fun (hx : Keeps r x) => ?_) ?_; (on_goal 1 => clear_value x); (on_goal 2 => dsimp -zeta only [x]))
       | clear_value x)
    | split | with_reducible apply keeps_mk

theorem keeps_updateService {r : State} (fab : Bool) (slot : Nat) (img : UpdateImage) (cut : UpdateCut) {s : State} (h : Keeps r s) :
    Keeps r (updateService fab slot img cut s) := by
  unfold updateService
  repeat' first
    | intro _ | with_reducible (first | assumption | apply keeps_slotDone | apply keeps_updateRefused | apply keeps_updateSteps
                                      | apply keeps_slotWaits | apply keeps_ite)
    | (extract_lets +onlyGivenNames x
       first
       | (refine (fun (hx : Keeps r x) => ?_) ?_; (on_goal 1 => clear_value x); (on_goal 2 => dsimp -zeta only [x]))
       | clear_value x)
    | split

theorem keeps_resumeFromJournal {r : State} (found : Nat → Bool) {s : State} (h : Keeps r s) :
    Keeps r (resumeFromJournal found s) := by
  unfold resumeFromJournal
  split
  · exact h
  · extract_lets s1
    have h1 : Keeps r s1 := keeps_resolveJournal _ (keeps_mk h)
    split
    · exact keeps_updateGoesOn h1
    · exact keeps_updateCompletes _ h1


theorem keeps_failOver {r : State} (stuck : Bool) (b : BootFind) {s : State} (h : Keeps r s) :
    Keeps r (failOver stuck b s) := by
  unfold failOver
  repeat' first
    | intro _ | with_reducible (first | assumption | apply keeps_resetD8 | apply keeps_leaveTemper | apply keeps_stopPair
                                      | apply keeps_modReg | apply keeps_countReg | apply keeps_setRole | apply keeps_report
                                      | apply keeps_resumeFromJournal | apply keeps_resumeService | apply keeps_offer
                                      | apply keeps_takeOver | apply keeps_ite)
    | (extract_lets +onlyGivenNames x
       first
       | (refine (fun (hx : Keeps r x) => ?_) ?_; (on_goal 1 => clear_value x); (on_goal 2 => dsimp -zeta only [x]))
       | clear_value x)
    | split

theorem keeps_mcCmd {r : State} (p : Nat) (op : Nat) (m : Master) (pass : Bool) {s : State} (h : Keeps r s) :
    Keeps r (mcCmd p op m pass s) := by
  unfold mcCmd
  repeat' first
    | intro _ | with_reducible (first | assumption | apply keeps_rejectWrite | apply keeps_switchRoles | apply keeps_leaveTemper
                                      | apply keeps_resumeFromJournal | apply keeps_updateProceeds | apply keeps_restartPair
                                      | apply keeps_setRole | apply keeps_modReg | apply keeps_temperFails | apply keeps_stagePair
                                      | apply keeps_invalidWrite | apply keeps_ite)
    | (extract_lets +onlyGivenNames x
       first
       | (refine (fun (hx : Keeps r x) => ?_) ?_; (on_goal 1 => clear_value x); (on_goal 2 => dsimp -zeta only [x]))
       | clear_value x)
    | split

theorem keeps_mcCmdWrite {r : State} (p : Nat) (m : Master) (v : Word) (pass : Bool) {s : State} (h : Keeps r s) :
    Keeps r (mcCmdWrite p m v pass s) := by
  unfold mcCmdWrite
  repeat' first
    | intro _ | with_reducible (first | assumption | apply keeps_mcCmd | apply keeps_rejectWrite | apply keeps_ite)
    | split

theorem keeps_lifecycleService {r : State} (fab : Bool) (slot : Nat) (borindam : Bool) (customer : Bool) (target : Nat) (fuse : Bool) {s : State} (h : Keeps r s) :
    Keeps r (lifecycleService fab slot borindam customer target fuse s) := by
  unfold lifecycleService
  dsimp only
  split
  · exact keeps_slotDone _ _ _ _ h
  · split
    · exact keeps_slotDone _ _ _ _ h
    · split
      · exact keeps_slotDone _ _ _ _ h
      · rename_i ht
        split
        · exact keeps_slotDone _ _ _ _ h
        · refine keeps_slotDone _ _ _ _ (keeps_offer _ _ _ _ _ (keeps_wipeStart _ (keeps_mkAll h ?_ ?_ (Nat.le_refl _) id)))
          · omega
          · intro hk; simp [hk]


theorem keeps_linkUp {r : State} (width : Nat) (speed : Nat) (flit : Bool) {s : State} (h : Keeps r s) :
    Keeps r (linkUp width speed flit s) := by
  unfold linkUp
  repeat' first
    | intro _ | with_reducible (first | assumption | apply keeps_raiseBit | apply keeps_modReg | apply keeps_wrReg | apply keeps_ite)
    | (extract_lets +onlyGivenNames x
       first
       | (refine (fun (hx : Keeps r x) => ?_) ?_; (on_goal 1 => clear_value x); (on_goal 2 => dsimp -zeta only [x]))
       | clear_value x)
    | split

theorem keeps_pcieResets {r : State}  {s : State} (h : Keeps r s) :
    Keeps r (pcieResets s) := by
  unfold pcieResets
  repeat' first
    | intro _ | with_reducible (first | assumption | apply keeps_linkDown | apply keeps_wrReg | apply keeps_ite)
    | (extract_lets +onlyGivenNames x
       first
       | (refine (fun (hx : Keeps r x) => ?_) ?_; (on_goal 1 => clear_value x); (on_goal 2 => dsimp -zeta only [x]))
       | clear_value x)
    | split | with_reducible apply keeps_mk

theorem keeps_functionReset {r : State}  {s : State} (h : Keeps r s) :
    Keeps r (functionReset s) := by
  unfold functionReset
  repeat' first
    | intro _ | with_reducible (first | assumption | apply keeps_pcieResets)
    | (extract_lets +onlyGivenNames x
       first
       | (refine (fun (hx : Keeps r x) => ?_) ?_; (on_goal 1 => clear_value x); (on_goal 2 => dsimp -zeta only [x]))
       | clear_value x)
    | with_reducible apply keeps_mk

theorem keeps_sendMsix {r : State} (v : Nat) {s : State} (h : Keeps r s) :
    Keeps r (sendMsix v s) := by
  unfold sendMsix
  repeat' first
    | with_reducible (first | assumption | apply keeps_send)

theorem keeps_msixMessageDue {r : State} (page : Nat) {s : State} (h : Keeps r s) :
    Keeps r (msixMessageDue page s) := by
  unfold msixMessageDue
  repeat' first
    | intro _ | with_reducible (first | assumption | apply keeps_raiseBit | apply keeps_countReg | apply keeps_sendMsix | apply keeps_ite)
    | (extract_lets +onlyGivenNames x
       first
       | (refine (fun (hx : Keeps r x) => ?_) ?_; (on_goal 1 => clear_value x); (on_goal 2 => dsimp -zeta only [x]))
       | clear_value x)
    | split | with_reducible apply keeps_mk

theorem keeps_msixFlush {r : State} (v : Nat) {s : State} (h : Keeps r s) :
    Keeps r (msixFlush v s) := by
  unfold msixFlush
  repeat' first
    | intro _ | with_reducible (first | assumption | apply keeps_sendMsix | apply keeps_ite)
    | split | with_reducible apply keeps_mk

theorem keeps_msixControl {r : State} (v : Word) {s : State} (h : Keeps r s) :
    Keeps r (msixControl v s) := by
  unfold msixControl
  repeat' first
    | intro _ | with_reducible (first | assumption | apply keeps_wrReg | apply keeps_msixFlush | apply keeps_forUpTo)

theorem keeps_configWrite {r : State} (o : Nat) (v : Word) {s : State} (h : Keeps r s) :
    Keeps r (configWrite o v s) := by
  unfold configWrite
  repeat' first
    | with_reducible (first | assumption | apply keeps_msixControl)
    | split | with_reducible apply keeps_mk

theorem keeps_msixTableWrite {r : State} (i : Nat) (w : Word) {s : State} (h : Keeps r s) :
    Keeps r (msixTableWrite i w s) := by
  unfold msixTableWrite
  repeat' first
    | intro _ | with_reducible (first | assumption | apply keeps_msixFlush | apply keeps_ite)
    | split | with_reducible apply keeps_mk

theorem keeps_msixUnmasked {r : State} (v : Nat) {s : State} (h : Keeps r s) :
    Keeps r (msixUnmasked v s) := by
  unfold msixUnmasked
  repeat' first
    | with_reducible (first | assumption | apply keeps_msixTableWrite)

theorem keeps_bar4Write {r : State} (o : Nat) (bs : List Byte) {s : State} (h : Keeps r s) :
    Keeps r (bar4Write o bs s) := by
  unfold bar4Write
  repeat' first
    | intro _ | with_reducible (first | assumption | apply keeps_msixTableWrite | apply keeps_forUpTo | apply keeps_ite)
    | (extract_lets +onlyGivenNames x
       first
       | (refine (fun (hx : Keeps r x) => ?_) ?_; (on_goal 1 => clear_value x); (on_goal 2 => dsimp -zeta only [x]))
       | clear_value x)
    | split

theorem keeps_smbusAnswers {r : State} (ask : List Byte) (data : List Byte) {s : State} (h : Keeps r s) :
    Keeps r (smbusAnswers ask data s) := by
  unfold smbusAnswers
  repeat' first
    | with_reducible (first | assumption | apply keeps_send)

theorem keeps_smbusStatusAnswer {r : State}  {s : State} (h : Keeps r s) :
    Keeps r (smbusStatusAnswer s) := by
  unfold smbusStatusAnswer
  repeat' first
    | with_reducible (first | assumption | apply keeps_smbusAnswers)

theorem keeps_smbusTempAnswer {r : State}  {s : State} (h : Keeps r s) :
    Keeps r (smbusTempAnswer s) := by
  unfold smbusTempAnswer
  repeat' first
    | with_reducible (first | assumption | apply keeps_smbusAnswers)

theorem keeps_smbusPowerAnswer {r : State}  {s : State} (h : Keeps r s) :
    Keeps r (smbusPowerAnswer s) := by
  unfold smbusPowerAnswer
  repeat' first
    | with_reducible (first | assumption | apply keeps_tick | apply keeps_smbusAnswers)

theorem keeps_smbusStop {r : State} (data : List Byte) {s : State} (h : Keeps r s) :
    Keeps r (smbusStop data s) := by
  unfold smbusStop
  repeat' first
    | intro _ | with_reducible (first | assumption | apply keeps_setLatch | apply keeps_ite)
    | split

theorem keeps_smbusDiscard {r : State}  {s : State} (h : Keeps r s) :
    Keeps r (smbusDiscard s) := by
  unfold smbusDiscard
  repeat' first
    | with_reducible (first | assumption | apply keeps_raiseBit | apply keeps_countReg)

theorem keeps_smbusBadPec {r : State} (stopped : Bool) {s : State} (h : Keeps r s) :
    Keeps r (smbusBadPec stopped s) := by
  unfold smbusBadPec
  repeat' first
    | intro _ | with_reducible (first | assumption | apply keeps_smbusDiscard | apply keeps_send | apply keeps_ite)
    | split

theorem keeps_smbusAlertAnswer {r : State}  {s : State} (h : Keeps r s) :
    Keeps r (smbusAlertAnswer s) := by
  unfold smbusAlertAnswer
  repeat' first
    | intro _ | with_reducible (first | assumption | apply keeps_send | apply keeps_ite)
    | split

theorem keeps_tapLoad {r : State} (i : TapInstr) {s : State} (h : Keeps r s) :
    Keeps r (tapLoad i s) := by
  unfold tapLoad
  repeat' first
    | intro _ | with_reducible (first | assumption | apply keeps_pcieResets | apply keeps_setLatch | apply keeps_faultPort
                                      | apply keeps_forUpTo | apply keeps_ite)
    | (extract_lets +onlyGivenNames x
       first
       | (refine (fun (hx : Keeps r x) => ?_) ?_; (on_goal 1 => clear_value x); (on_goal 2 => dsimp -zeta only [x]))
       | clear_value x)
    | split | with_reducible apply keeps_mk

theorem keeps_tapReset {r : State}  {s : State} (h : Keeps r s) :
    Keeps r (tapReset s) := by
  unfold tapReset
  repeat' first
    | intro _ | with_reducible (first | assumption | apply keeps_portState | apply keeps_forUpTo | apply keeps_ite)
    | (extract_lets +onlyGivenNames x
       first
       | (refine (fun (hx : Keeps r x) => ?_) ?_; (on_goal 1 => clear_value x); (on_goal 2 => dsimp -zeta only [x]))
       | clear_value x)
    | split | with_reducible apply keeps_mk

theorem keeps_faultAck {r : State} (page : Nat) (v : Word) {s : State} (h : Keeps r s) :
    Keeps r (faultAck page v s) := by
  unfold faultAck
  repeat' first
    | intro _ | with_reducible (first | assumption | apply keeps_noteAck | apply keeps_wrReg | apply keeps_ite)
    | (extract_lets +onlyGivenNames x
       first
       | (refine (fun (hx : Keeps r x) => ?_) ?_; (on_goal 1 => clear_value x); (on_goal 2 => dsimp -zeta only [x]))
       | clear_value x)
    | split

theorem keeps_headerWrite {r : State} (x : Page) (page : Nat) (off : Nat) (m : Master) (v : Word) {s : State} (h : Keeps r s) :
    Keeps r (headerWrite x page off m v s) := by
  unfold headerWrite
  repeat' first
    | intro _ | with_reducible (first | assumption | apply keeps_noteAck | apply keeps_wrReg | apply keeps_modReg | apply keeps_raise
                                      | apply keeps_faultAck | apply keeps_rejectWrite | apply keeps_wmMark | apply keeps_wmClear
                                      | apply keeps_ite)
    | (extract_lets +onlyGivenNames x
       first
       | (refine (fun (hx : Keeps r x) => ?_) ?_; (on_goal 1 => clear_value x); (on_goal 2 => dsimp -zeta only [x]))
       | clear_value x)
    | split

theorem keeps_plainWrite {r : State} (page : Nat) (off : Nat) (m : Master) (fs : List Field) (v : Word) {s : State} (h : Keeps r s) :
    Keeps r (plainWrite page off m fs v s) := by
  unfold plainWrite
  repeat' first
    | intro _ | with_reducible (first | assumption | apply keeps_invalidWrite | apply keeps_wrReg | apply keeps_capture | apply keeps_ite)
    | (extract_lets +onlyGivenNames x
       first
       | (refine (fun (hx : Keeps r x) => ?_) ?_; (on_goal 1 => clear_value x); (on_goal 2 => dsimp -zeta only [x]))
       | clear_value x)
    | split

theorem keeps_pageReadEffect {r : State} (page : Nat) (off : Nat) {s : State} (h : Keeps r s) :
    Keeps r (pageReadEffect page off s) := by
  unfold pageReadEffect
  repeat' first
    | intro _ | with_reducible (first | assumption | apply keeps_tick | apply keeps_scLatch | apply keeps_takeCount | apply keeps_wrReg
                                      | apply keeps_rtStep | apply keeps_ite)
    | split

theorem keeps_snapFails {r : State} (err : Nat) {s : State} (h : Keeps r s) :
    Keeps r (snapFails err s) := by
  unfold snapFails
  repeat' first
    | intro _ | with_reducible (first | assumption | apply keeps_raiseBit | apply keeps_modReg)
    | with_reducible apply keeps_mk

theorem keeps_snapCtlWrite {r : State} (m : Master) (v : Word) {s : State} (h : Keeps r s) :
    Keeps r (snapCtlWrite m v s) := by
  unfold snapCtlWrite
  repeat' first
    | intro _ | with_reducible (first | assumption | apply keeps_modReg | apply keeps_rejectWrite | apply keeps_snapFails | apply keeps_ite)
    | (extract_lets +onlyGivenNames x
       first
       | (refine (fun (hx : Keeps r x) => ?_) ?_; (on_goal 1 => clear_value x); (on_goal 2 => dsimp -zeta only [x]))
       | clear_value x)
    | split | with_reducible apply keeps_mk

theorem keeps_foreignCal {r : State} (page : Nat) (off : Nat) (at_ : Nat) (m : Master) {s : State} (h : Keeps r s) :
    Keeps r (foreignCal page off at_ m s) := by
  unfold foreignCal
  repeat' first
    | intro _ | with_reducible (first | assumption | apply keeps_rejectWrite | apply keeps_ite)
    | split

theorem keeps_easelWrite {r : State} (x : Page) (page : Nat) (off : Nat) (m : Master) (v : Word) {s : State} (h : Keeps r s) :
    Keeps r (easelWrite x page off m v s) := by
  unfold easelWrite
  repeat' first
    | intro _ | with_reducible (first | assumption | apply keeps_foreignCal | apply keeps_rejectWrite | apply keeps_wrRole
                                      | apply keeps_ite)
    | split

theorem keeps_clusterLive {r : State} (k : Nat) (off : Nat) (m : Master) (fs : List Field) (v : Word) {s : State} (h : Keeps r s) :
    Keeps r (clusterLive k off m fs v s) := by
  unfold clusterLive
  repeat' first
    | intro _ | with_reducible (first | assumption | apply keeps_invalidWrite | apply keeps_wrReg | apply keeps_strkCtlWrite
                                      | apply keeps_captureChange | apply keeps_plainWrite | apply keeps_ite)
    | (extract_lets +onlyGivenNames x
       first
       | (refine (fun (hx : Keeps r x) => ?_) ?_; (on_goal 1 => clear_value x); (on_goal 2 => dsimp -zeta only [x]))
       | clear_value x)
    | split

theorem keeps_markCfgWrite {r : State} (page : Nat) (off : Nat) (m : Master) (fs : List Field) (v : Word) {s : State} (h : Keeps r s) :
    Keeps r (markCfgWrite page off m fs v s) := by
  unfold markCfgWrite
  repeat' first
    | intro _ | with_reducible (first | assumption | apply keeps_wrReg | apply keeps_capture | apply keeps_ite)
    | (extract_lets +onlyGivenNames x
       first
       | (refine (fun (hx : Keeps r x) => ?_) ?_; (on_goal 1 => clear_value x); (on_goal 2 => dsimp -zeta only [x]))
       | clear_value x)
    | split

theorem keeps_canvasWrite {r : State} (x : Page) (page : Nat) (off : Nat) (m : Master) (v : Word) {s : State} (h : Keeps r s) :
    Keeps r (canvasWrite x page off m v s) := by
  unfold canvasWrite
  repeat' first
    | intro _ | with_reducible (first | assumption | apply keeps_foreignCal | apply keeps_chanLive | apply keeps_rejectWrite
                                      | apply keeps_chanWrite | apply keeps_clusterLive | apply keeps_markCfgWrite
                                      | apply keeps_plainWrite | apply keeps_ite)
    | split

theorem keeps_storeWrite {r : State} (i : Nat) (off : Nat) (m : Master) (fs : List Field) (v : Word) {s : State} (h : Keeps r s) :
    Keeps r (storeWrite i off m fs v s) := by
  unfold storeWrite
  repeat' first
    | intro _ | with_reducible (first | assumption | apply keeps_rejectWrite | apply keeps_ldcmdWrite | apply keeps_loadData
                                      | apply keeps_wrReg | apply keeps_plainWrite | apply keeps_ite)
    | (extract_lets +onlyGivenNames x
       first
       | (refine (fun (hx : Keeps r x) => ?_) ?_; (on_goal 1 => clear_value x); (on_goal 2 => dsimp -zeta only [x]))
       | clear_value x)
    | split

theorem keeps_doorWrite {r : State} (page : Nat) (off : Nat) (sets : Bool) (m : Master) (v : Word) {s : State} (h : Keeps r s) :
    Keeps r (doorWrite page off sets m v s) := by
  unfold doorWrite
  repeat' first
    | intro _ | with_reducible (first | assumption | apply keeps_modReg | apply keeps_rejectWrite | apply keeps_ite)
    | split

theorem keeps_fabricWrite {r : State} (off : Nat) (m : Master) (fs : List Field) (v : Word) {s : State} (h : Keeps r s) :
    Keeps r (fabricWrite off m fs v s) := by
  unfold fabricWrite
  repeat' first
    | intro _ | with_reducible (first | assumption | apply keeps_ringProduce | apply keeps_plainWrite | apply keeps_originate
                                      | apply keeps_modFab | apply keeps_ftSetCmd | apply keeps_doorWrite | apply keeps_ite)
    | (extract_lets +onlyGivenNames x
       first
       | (refine (fun (hx : Keeps r x) => ?_) ?_; (on_goal 1 => clear_value x); (on_goal 2 => dsimp -zeta only [x]))
       | clear_value x)
    | split | with_reducible apply keeps_mk

theorem keeps_palYields {r : State} (l : Nat) (v : Word) {s : State} (h : Keeps r s) :
    Keeps r (palYields l v s) := by
  unfold palYields
  repeat' first
    | intro _ | with_reducible (first | assumption | apply keeps_yields | apply keeps_ite)
    | split

theorem keeps_portCtlWrite {r : State} (p : Nat) (v : Word) {s : State} (h : Keeps r s) :
    Keeps r (portCtlWrite p v s) := by
  unfold portCtlWrite
  repeat' first
    | intro _ | with_reducible (first | assumption | apply keeps_wrReg | apply keeps_portEnable | apply keeps_retrainPort | apply keeps_ite)
    | (extract_lets +onlyGivenNames x
       first
       | (refine (fun (hx : Keeps r x) => ?_) ?_; (on_goal 1 => clear_value x); (on_goal 2 => dsimp -zeta only [x]))
       | clear_value x)
    | split

theorem keeps_blockWrite {r : State} (x : Page) (page : Nat) (off : Nat) (m : Master) (fs : List Field) (v : Word) {s : State} (h : Keeps r s) :
    Keeps r (blockWrite x page off m fs v s) := by
  unfold blockWrite
  repeat' first
    | intro _ | with_reducible (first | assumption | apply keeps_plainWrite | apply keeps_pmuTrigWrite | apply keeps_tdcPopWrite
                                      | apply keeps_releaseWrite | apply keeps_tick | apply keeps_palCmdWrite | apply keeps_palYields
                                      | apply keeps_thrCtlWrite | apply keeps_storeWrite | apply keeps_fcmdWrite | apply keeps_refuseCmd
                                      | apply keeps_freeWrite | apply keeps_donePop | apply keeps_scselWrite | apply keeps_weldCmdWrite
                                      | apply keeps_replayWrite | apply keeps_sumselWrite | apply keeps_retrainWrite
                                      | apply keeps_bootDoorbell | apply keeps_rstCmdWrite | apply keeps_rejectWrite
                                      | apply keeps_jdoneWrite | apply keeps_mcCmdWrite | apply keeps_mxCtlWrite | apply keeps_pwrWrite
                                      | apply keeps_tgCtlWrite | apply keeps_tgRegWrite | apply keeps_hangCmdWrite
                                      | apply keeps_hangYields | apply keeps_snapCtlWrite | apply keeps_clearLatches
                                      | apply keeps_setLatch | apply keeps_ackWrite | apply keeps_closeWrite | apply keeps_patCmdWrite
                                      | apply keeps_capture | apply keeps_rlcfgWrite | apply keeps_submitWrite | apply keeps_prCmdWrite
                                      | apply keeps_fabricWrite | apply keeps_rtWrite | apply keeps_portCtlWrite | apply keeps_doorWrite
                                      | apply keeps_ite)
    | (extract_lets +onlyGivenNames x
       first
       | (refine (fun (hx : Keeps r x) => ?_) ?_; (on_goal 1 => clear_value x); (on_goal 2 => dsimp -zeta only [x]))
       | clear_value x)
    | split

theorem keeps_pageReceives {r : State} (page : Nat) (off : Nat) (m : Master) (v : Word) {s : State} (h : Keeps r s) :
    Keeps r (pageReceives page off m v s) := by
  unfold pageReceives
  repeat' first
    | intro _ | with_reducible (first | assumption | apply keeps_send | apply keeps_rejectWrite | apply keeps_headerWrite
                                      | apply keeps_canvasWrite | apply keeps_copyBefore | apply keeps_blockWrite
                                      | apply keeps_easelWrite | apply keeps_ite)
    | split

theorem keeps_pageWrite {r : State} (page : Nat) (off : Nat) (m : Master) (v : Word) {s : State} (h : Keeps r s) :
    Keeps r (pageWrite page off m v s) := by
  unfold pageWrite
  repeat' first
    | with_reducible (first | assumption | apply keeps_pageReceives | apply keeps_pageYields)

theorem keeps_pageReads {r : State} (page : Nat) (off : Nat) (m : Master) {s : State} (h : Keeps r s) :
    Keeps r (pageReads page off m s).2 := by
  unfold pageReads
  repeat' first
    | with_reducible (first | assumption | apply keeps_pageYields | apply keeps_pageReadEffect)
    | (extract_lets +onlyGivenNames x
       first
       | (refine (fun (hx : Keeps r x) => ?_) ?_; (on_goal 1 => clear_value x); (on_goal 2 => dsimp -zeta only [x]))
       | clear_value x)

theorem keeps_accessWrite {r : State} (page : Nat) (off : Nat) (m : Master) (v : Word) {s : State} (h : Keeps r s) :
    Keeps r (accessWrite page off m v s) := by
  unfold accessWrite
  repeat' first
    | with_reducible (first | assumption | apply keeps_mxError | apply keeps_pageWrite)
    | split

theorem keeps_accessRead {r : State} (page : Nat) (off : Nat) (m : Master) {s : State} (h : Keeps r s) :
    Keeps r (accessRead page off m s) := by
  unfold accessRead
  repeat' first
    | with_reducible (first | assumption | apply keeps_mxError | apply keeps_pageReads)
    | split

theorem keeps_pciRequest {r : State} (bar : Bar) (o : Nat) (n : Nat) (write : Bool) (relaxed : Bool) (tag : Nat) (data : List Byte) {s : State} (h : Keeps r s) :
    Keeps r (pciRequest bar o n write relaxed tag data s) := by
  unfold pciRequest
  repeat' first
    | intro _ | with_reducible (first | assumption | apply keeps_aerReport | apply keeps_bar4Write | apply keeps_send
                                      | apply keeps_configWrite | apply keeps_issueRequests | apply keeps_completeRequests
                                      | apply keeps_ite)
    | split | with_reducible apply keeps_mk

theorem keeps_enterMatrix {r : State} (m : Master) (id : Nat) (write : Bool) (a : Nat) (data : List Byte) {s : State} (h : Keeps r s) :
    Keeps r (enterMatrix m id write a data s) := by
  unfold enterMatrix
  repeat' first
    | intro _ | with_reducible (first | assumption | apply keeps_enterPort | apply keeps_ite)
    | split

theorem keeps_memEffect {r : State} (t : Trans) {s : State} (h : Keeps r s) :
    Keeps r (memEffect t s).2 := by
  unfold memEffect
  extract_lets old put
  have hp : ∀ {x}, Keeps r x → Keeps r (put x) := fun hx => keeps_portWrite _ _ _ hx
  split
  · exact keeps_modEng _ (fun e => { e with resv := some (transLine t) }) h fun e hm => hm
  · split
    · exact hp h
    · exact h
  · exact hp h
  · exact hp h
  · split
    · exact hp h
    · exact h


theorem keeps_transEffect {r : State} (t : Trans) {s : State} (h : Keeps r s) :
    Keeps r (transEffect t s).2 := by
  unfold transEffect
  repeat' first
    | intro _ | with_reducible (first | assumption | apply keeps_pageWrite | apply keeps_pageReads | apply keeps_portWrite
                                      | apply keeps_memEffect | apply keeps_memYields | apply keeps_ite)
    | (extract_lets +onlyGivenNames x
       first
       | (refine (fun (hx : Keeps r x) => ?_) ?_; (on_goal 1 => clear_value x); (on_goal 2 => dsimp -zeta only [x]))
       | (refine (fun (hx : Keeps r x.2) => ?_) ?_; (on_goal 1 => clear_value x); (on_goal 2 => dsimp -zeta only [x]))
       | clear_value x)
    | split | with_reducible apply keeps_mk

theorem keeps_failTrans {r : State} (n : Nat) (t : Trans) (k : BusKind) {s : State} (h : Keeps r s) :
    Keeps r (failTrans n t k s) := by
  unfold failTrans
  repeat' first
    | intro _ | with_reducible (first | assumption | apply keeps_endWith | apply keeps_ite)
    | split

theorem keeps_doneTrans {r : State} (n : Nat) (t : Trans) {s : State} (h : Keeps r s) :
    Keeps r (doneTrans n t s) := by
  unfold doneTrans
  repeat' first
    | intro _ | with_reducible (first | assumption | apply keeps_endTrans | apply keeps_transEffect)
    | (extract_lets +onlyGivenNames x
       first
       | (refine (fun (hx : Keeps r x) => ?_) ?_; (on_goal 1 => clear_value x); (on_goal 2 => dsimp -zeta only [x]))
       | (refine (fun (hx : Keeps r x.2) => ?_) ?_; (on_goal 1 => clear_value x); (on_goal 2 => dsimp -zeta only [x]))
       | clear_value x)

theorem keeps_matrixTimesOut {r : State} (n : Nat) {s : State} (h : Keeps r s) :
    Keeps r (matrixTimesOut n s) := by
  unfold matrixTimesOut
  repeat' first
    | intro _ | with_reducible (first | assumption | apply keeps_reach | apply keeps_endTrans | apply keeps_transEffect
                                      | apply keeps_tick | apply keeps_ite)
    | (extract_lets +onlyGivenNames x
       first
       | (refine (fun (hx : Keeps r x) => ?_) ?_; (on_goal 1 => clear_value x); (on_goal 2 => dsimp -zeta only [x]))
       | (refine (fun (hx : Keeps r x.2) => ?_) ?_; (on_goal 1 => clear_value x); (on_goal 2 => dsimp -zeta only [x]))
       | clear_value x)
    | split

theorem keeps_matrixAnswer {r : State} (n : Nat) (a : TargetAnswer) {s : State} (h : Keeps r s) :
    Keeps r (matrixAnswer n a s) := by
  unfold matrixAnswer
  repeat' first
    | intro _ | with_reducible (first | assumption | apply keeps_grantAll | apply keeps_matrixTimesOut | apply keeps_failTrans
                                      | apply keeps_doneTrans | apply keeps_countReg | apply keeps_eccMeets | apply keeps_ite)
    | (extract_lets +onlyGivenNames x
       first
       | (refine (fun (hx : Keeps r x) => ?_) ?_; (on_goal 1 => clear_value x); (on_goal 2 => dsimp -zeta only [x]))
       | clear_value x)
    | split | with_reducible apply keeps_mk

theorem keeps_storeAck {r : State} (k : Nat) {s : State} (h : Keeps r s) :
    Keeps r (storeAck k s) := by
  unfold storeAck
  repeat' first
    | intro _ | with_reducible (first | assumption | apply keeps_storeLeaves | apply keeps_memWrite | apply keeps_storeBusError
                                      | apply keeps_matrixAnswer | apply keeps_ite)
    | split

theorem keeps_storeErrorArrives {r : State} (k : Nat) (kind : BusKind) {s : State} (h : Keeps r s) :
    Keeps r (storeErrorArrives k kind s) := by
  unfold storeErrorArrives
  repeat' first
    | intro _ | with_reducible (first | assumption | apply keeps_storeBusError | apply keeps_matrixAnswer | apply keeps_matrixTimesOut
                                      | apply keeps_ite)
    | split

theorem keeps_queueAnswer {r : State} (k : Nat) (ecc : EccOutcome) {s : State} (h : Keeps r s) :
    Keeps r (queueAnswer k ecc s) := by
  unfold queueAnswer
  repeat' first
    | intro _ | with_reducible (first | assumption | apply keeps_queueArrives | apply keeps_matrixAnswer | apply keeps_ite)
    | split

theorem keeps_snapStops {r : State} (a : Nat) (n : Nat) (write : Bool) (k : Option BusKind) {s : State} (h : Keeps r s) :
    Keeps r (snapStops a n write k s) := by
  unfold snapStops
  refine keeps_snapFails _ (keeps_modReg _ _ _ ?_)
  cases k with
  | none => exact h
  | some x => exact keeps_portFails _ _ _ _ _ h


theorem keeps_snapCapture {r : State} (err : Option BusKind) {s : State} (h : Keeps r s) :
    Keeps r (snapCapture err s) := by
  have hb := keeps_reach s.snap.atT h
  unfold snapCapture
  split
  · exact h
  · extract_lets s1 pages s2
    split
    · exact keeps_snapStops _ _ _ _ hb
    · split
      · exact keeps_snapFails _ hb
      · split
        · exact hb
        · have h2 : Keeps r s2 := keeps_publishFabric (keeps_forUpTo (keeps_yields _ hb) fun i t ht => keeps_publish i ht)
          exact keeps_mkAll h2 (Nat.le_refl _) id (Nat.le_add_right _ _) id


theorem keeps_snapStore {r : State} (a0 : List (List Word)) (a1 : Nat) {a2 : State} (h : Keeps r a2) :
    Keeps r (snapStore a0 a1 a2).2 := by
  induction a0 generalizing a1 a2 with
  | nil => exact h
  | cons w l ih =>
    unfold snapStore
    split
    · exact h
    · exact ih _ (keeps_portWrite _ _ _ h)


theorem keeps_snapComplete {r : State} (err : Option BusKind) {s : State} (h : Keeps r s) :
    Keeps r (snapComplete err s) := by
  unfold snapComplete
  dsimp only
  repeat' first
    | intro _ | with_reducible (first | assumption | apply keeps_snapFails | apply keeps_modReg | apply keeps_snapStore
                                      | apply keeps_tick | apply keeps_snapStops | apply keeps_wrReg | apply keeps_raiseBit
                                      | apply keeps_ite)
    | (extract_lets +onlyGivenNames x
       first
       | (refine (fun (hx : Keeps r x) => ?_) ?_; (on_goal 1 => clear_value x); (on_goal 2 => dsimp -zeta only [x]))
       | (refine (fun (hx : Keeps r x.2) => ?_) ?_; (on_goal 1 => clear_value x); (on_goal 2 => dsimp -zeta only [x]))
       | clear_value x)
    | split | with_reducible apply keeps_mk

theorem keeps_handleRequest {r : State} (type : Nat) {s : State} (h : Keeps r s) :
    Keeps r (handleRequest type s) := by
  unfold handleRequest
  split
  · exact h
  · rename_i d s' hd
    have hs := keeps_takeDelivered h hd
    extract_lets f waits s2 write len
    split
    · exact keeps_tick h
    · have h2 : Keeps r s2 := keeps_ite hs fun h => keeps_tick h
      split
      · exact keeps_enterPort _ _ _ _ _ _ _ h2
      · exact keeps_sendTo _ h2


theorem keeps_svcdbWrite {r : State} (m : Master) (src : Nat) (v : Word) {s : State} (h : Keeps r s) :
    Keeps r (svcdbWrite m src v s) := by
  unfold svcdbWrite
  repeat' first
    | intro _ | with_reducible (first | assumption | apply keeps_mxError | apply keeps_doorWrite | apply keeps_pageWrite | apply keeps_ite)
    | split

theorem keeps_releaseEngine {r : State} (x : EngineImage) {s : State} (h : Keeps r s) :
    Keeps r (releaseEngine x s) := by
  unfold releaseEngine
  repeat' first
    | (refine fun e (hm : ModeLegal _ e) => (?_ : ModeLegal _ _))
    | (guard_target =~ ModeLegal _ _
       first | exact hm | split | exact modeLegal_one _ _ rfl | exact ModeLegal.of_eq (e := e) (by simp) hm)
    | intro _ | with_reducible (first | assumption | apply keeps_freePorts | apply keeps_flushFetch | apply keeps_modEng
                                      | apply keeps_markStarted | apply keeps_modReg | apply keeps_forEach | apply keeps_ite)
    | (extract_lets +onlyGivenNames x
       first
       | (refine (fun (hx : Keeps r x) => ?_) ?_; (on_goal 1 => clear_value x); (on_goal 2 => dsimp -zeta only [x]))
       | clear_value x)
    | split | with_reducible apply keeps_mk

theorem keeps_loadYields {r : State} (img : Image) (es : List Nat) {s : State} (h : Keeps r s) :
    Keeps r (loadYields img es s) := by
  unfold loadYields
  repeat' first
    | intro _ | with_reducible (first | assumption | apply keeps_yields)

theorem keeps_programLoadService {r : State} (fab : Bool) (slot : Nat) (img : Image) {s : State} (h : Keeps r s) :
    Keeps r (programLoadService fab slot img s) := by
  unfold programLoadService
  repeat' first
    | intro _ | with_reducible (first | assumption | apply keeps_slotDone | apply keeps_loadYields | apply keeps_memWrite
                                      | apply keeps_releaseEngine | apply keeps_forEach | apply keeps_ite)
    | (extract_lets +onlyGivenNames x
       first
       | (refine (fun (hx : Keeps r x) => ?_) ?_; (on_goal 1 => clear_value x); (on_goal 2 => dsimp -zeta only [x]))
       | clear_value x)
    | split | with_reducible apply keeps_mk

theorem keeps_primerService {r : State} (fab : Bool) (slot : Nat) {s : State} (h : Keeps r s) :
    Keeps r (primerService fab slot s) := by
  unfold primerService
  repeat' first
    | intro _ | with_reducible (first | assumption | apply keeps_prCmd | apply keeps_slotDone | apply keeps_slotWaits | apply keeps_ite)
    | (extract_lets +onlyGivenNames x
       first
       | (refine (fun (hx : Keeps r x) => ?_) ?_; (on_goal 1 => clear_value x); (on_goal 2 => dsimp -zeta only [x]))
       | clear_value x)
    | split

theorem keeps_tokenService {r : State} (fab : Bool) (slot : Nat) {s : State} (h : Keeps r s) :
    Keeps r (tokenService fab slot s) := by
  unfold tokenService
  repeat' first
    | intro _ | with_reducible (first | assumption | apply keeps_slotDone | apply keeps_modPat | apply keeps_clearCmd | apply keeps_ite)
    | (extract_lets +onlyGivenNames x
       first
       | (refine (fun (hx : Keeps r x) => ?_) ?_; (on_goal 1 => clear_value x); (on_goal 2 => dsimp -zeta only [x]))
       | clear_value x)
    | split | with_reducible apply keeps_mk

theorem keeps_patCmdService {r : State} (fab : Bool) (slot : Nat) {s : State} (h : Keeps r s) :
    Keeps r (patCmdService fab slot s) := by
  unfold patCmdService
  repeat' first
    | intro _ | with_reducible (first | assumption | apply keeps_flushTrigger | apply keeps_slotWaits | apply keeps_freezeCmd
                                      | apply keeps_slotDone | apply keeps_thawCmd | apply keeps_ite)
    | (extract_lets +onlyGivenNames x
       first
       | (refine (fun (hx : Keeps r x) => ?_) ?_; (on_goal 1 => clear_value x); (on_goal 2 => dsimp -zeta only [x]))
       | clear_value x)
    | split

theorem keeps_flushEnds {r : State}  {s : State} (h : Keeps r s) :
    Keeps r (flushEnds s) := by
  unfold flushEnds
  repeat' first
    | intro _ | with_reducible (first | assumption | apply keeps_flushDone | apply keeps_finishWaits | apply keeps_ite)
    | (extract_lets +onlyGivenNames x
       first
       | (refine (fun (hx : Keeps r x) => ?_) ?_; (on_goal 1 => clear_value x); (on_goal 2 => dsimp -zeta only [x]))
       | clear_value x)
    | split

theorem keeps_mcService {r : State} (fab : Bool) (slot : Nat) (pass : Bool) {s : State} (h : Keeps r s) :
    Keeps r (mcService fab slot pass s) := by
  unfold mcService
  repeat' first
    | intro _ | with_reducible (first | assumption | apply keeps_mcCmd | apply keeps_slotDone | apply keeps_ite)
    | (extract_lets +onlyGivenNames x
       first
       | (refine (fun (hx : Keeps r x) => ?_) ?_; (on_goal 1 => clear_value x); (on_goal 2 => dsimp -zeta only [x]))
       | clear_value x)
    | split

theorem keeps_memPowerService {r : State} (fab : Bool) (slot : Nat) {s : State} (h : Keeps r s) :
    Keeps r (memPowerService fab slot s) := by
  unfold memPowerService
  repeat' first
    | intro _ | with_reducible (first | assumption | apply keeps_slotDone | apply keeps_pwrApply | apply keeps_slotWaits | apply keeps_ite)
    | (extract_lets +onlyGivenNames x
       first
       | (refine (fun (hx : Keeps r x) => ?_) ?_; (on_goal 1 => clear_value x); (on_goal 2 => dsimp -zeta only [x]))
       | clear_value x)
    | split

theorem keeps_powerEnds {r : State} (a0 : Nat) {s : State} (h : Keeps r s) :
    Keeps r (powerEnds a0 s) := by
  unfold powerEnds
  repeat' first
    | intro _ | with_reducible (first | assumption | apply keeps_powerDone | apply keeps_finishWaits | apply keeps_forEach
                                      | apply keeps_ite)
    | (extract_lets +onlyGivenNames x
       first
       | (refine (fun (hx : Keeps r x) => ?_) ?_; (on_goal 1 => clear_value x); (on_goal 2 => dsimp -zeta only [x]))
       | clear_value x)
    | split

theorem keeps_domainService {r : State} (fab : Bool) (slot : Nat) {s : State} (h : Keeps r s) :
    Keeps r (domainService fab slot s) := by
  unfold domainService
  repeat' first
    | intro _ | with_reducible (first | assumption | apply keeps_slotDone | apply keeps_rstCmdWrite | apply keeps_tick | apply keeps_ite)
    | (extract_lets +onlyGivenNames x
       first
       | (refine (fun (hx : Keeps r x) => ?_) ?_; (on_goal 1 => clear_value x); (on_goal 2 => dsimp -zeta only [x]))
       | clear_value x)
    | split

theorem keeps_temperService {r : State} (fab : Bool) (slot : Nat) {s : State} (h : Keeps r s) :
    Keeps r (temperService fab slot s) := by
  unfold temperService
  repeat' first
    | with_reducible (first | assumption | apply keeps_plainWrite | apply keeps_slotDone)
    | (extract_lets +onlyGivenNames x
       first
       | (refine (fun (hx : Keeps r x) => ?_) ?_; (on_goal 1 => clear_value x); (on_goal 2 => dsimp -zeta only [x]))
       | clear_value x)

theorem keeps_whileUp {r : State} (d : Nat) (f : State → State) {s : State} (h : Keeps r s) (hf : ∀ s, Keeps r s → Keeps r (f s)) :
    Keeps r (whileUp d f s) := by
  unfold whileUp
  split
  · exact h
  · exact hf s h


theorem keeps_whileLanes {r : State} (f : State → State) {s : State} (h : Keeps r s) (hf : ∀ s, Keeps r s → Keeps r (f s)) :
    Keeps r (whileLanes f s) := by
  unfold whileLanes
  repeat' first
    | intro _ | with_reducible (first | assumption | apply hf | apply keeps_ite)
    | split

theorem keeps_whileEngine {r : State} (k : Nat) (f : State → State) {s : State} (h : Keeps r s) (hf : ∀ s, Keeps r s → Keeps r (f s)) :
    Keeps r (whileEngine k f s) := by
  unfold whileEngine
  repeat' first
    | intro _ | with_reducible (first | assumption | apply keeps_whileUp | apply keeps_whileLanes | apply hf | apply keeps_ite)
    | split

theorem keeps_onPage {r : State} (page : Nat) (off : Nat) (m : Master) (f : State → State) {s : State} (h : Keeps r s) (hf : ∀ s, Keeps r s → Keeps r (f s)) :
    Keeps r (onPage page off m f s) := by
  unfold onPage
  repeat' first
    | intro _ | with_reducible (first | assumption | apply keeps_mxError | apply keeps_rejectWrite | apply hf | apply keeps_ite)
    | split

theorem keeps_bundleYields {r : State} (k : Nat) {s : State} (h : Keeps r s) :
    Keeps r (bundleYields k s) := by
  unfold bundleYields
  repeat' first
    | intro _ | with_reducible (first | assumption | apply keeps_evalBundle | apply keeps_yields | apply keeps_forEach | apply keeps_ite)
    | (extract_lets +onlyGivenNames x
       first
       | (refine (fun (hx : Keeps r x) => ?_) ?_; (on_goal 1 => clear_value x); (on_goal 2 => dsimp -zeta only [x]))
       | (refine (fun (hx : Keeps r x.s) => ?_) ?_; (on_goal 1 => clear_value x); (on_goal 2 => dsimp -zeta only [x]))
       | clear_value x)
    | split | dsimp -zeta only

theorem keeps_boundaryOf {r : State} (k : Nat) {s : State} (h : Keeps r s) :
    Keeps r (boundaryOf k s) := by
  unfold boundaryOf
  repeat' first
    | intro _ | with_reducible (first | assumption | apply keeps_boundarySwitches | apply keeps_mayCopyTied | apply keeps_strokeBoundary
                                      | apply keeps_calBoundary | apply keeps_reach | apply keeps_ite)
    | (extract_lets +onlyGivenNames x
       first
       | (refine (fun (hx : Keeps r x) => ?_) ?_; (on_goal 1 => clear_value x); (on_goal 2 => dsimp -zeta only [x]))
       | clear_value x)
    | split

theorem keeps_palCommandEnds {r : State} (l : Nat) {s : State} (h : Keeps r s) :
    Keeps r (palCommandEnds l s) := by
  unfold palCommandEnds
  repeat' first
    | with_reducible (first | assumption | apply keeps_palDone | apply keeps_mayCopy)
    | split

theorem keeps_modeIntervalEnd {r : State} (c : Nat) {s : State} (h : Keeps r s) :
    Keeps r (modeIntervalEnd c s) := by
  unfold modeIntervalEnd
  repeat' first
    | with_reducible (first | assumption | apply keeps_enterFunction | apply keeps_reach)
    | split

theorem keeps_rampEnd {r : State} (c : Nat) {s : State} (h : Keeps r s) :
    Keeps r (rampEnd c s) := by
  unfold rampEnd
  repeat' first
    | with_reducible (first | assumption | apply keeps_rampOver | apply keeps_reach)
    | split

theorem keeps_switchTimerEnd {r : State} (c : Nat) {s : State} (h : Keeps r s) :
    Keeps r (switchTimerEnd c s) := by
  unfold switchTimerEnd
  repeat' first
    | with_reducible (first | assumption | apply keeps_enterFunction | apply keeps_reach)
    | split

theorem keeps_periodicSample {r : State} (page : Nat) (n : Nat) {s : State} (h : Keeps r s) :
    Keeps r (periodicSample page n s) := by
  unfold periodicSample
  repeat' first
    | intro _ | with_reducible (first | assumption | apply keeps_wmSample | apply keeps_modFail | apply keeps_modPort | apply keeps_foldl)
    | split | with_reducible apply keeps_mk

theorem keeps_smbusRegister {r : State} (a : Nat) (inTime : Bool) {s : State} (h : Keeps r s) :
    Keeps r (smbusRegister a inTime s) := by
  unfold smbusRegister
  repeat' first
    | intro _ | with_reducible (first | assumption | apply keeps_smbusAnswers | apply keeps_tick | apply keeps_pageReads | apply keeps_ite)
    | (extract_lets +onlyGivenNames x
       first
       | (refine (fun (hx : Keeps r x) => ?_) ?_; (on_goal 1 => clear_value x); (on_goal 2 => dsimp -zeta only [x]))
       | (refine (fun (hx : Keeps r x.2) => ?_) ?_; (on_goal 1 => clear_value x); (on_goal 2 => dsimp -zeta only [x]))
       | clear_value x)
    | split

theorem keeps_goesOn {r : State}  {s : State} (h : Keeps r s) :
    Keeps r (goesOn s) := by
  unfold goesOn
  repeat' first
    | intro _ | with_reducible (first | assumption | apply keeps_updateProceeds | apply keeps_sweepOn | apply keeps_checkpoint
                                      | apply keeps_ite)
    | (extract_lets +onlyGivenNames x
       first
       | (refine (fun (hx : Keeps r x) => ?_) ?_; (on_goal 1 => clear_value x); (on_goal 2 => dsimp -zeta only [x]))
       | (refine (fun (hx : Keeps r x.s) => ?_) ?_; (on_goal 1 => clear_value x); (on_goal 2 => dsimp -zeta only [x]))
       | clear_value x)
    | split | dsimp -zeta only

theorem keeps_idleStep {r : State}  {s : State} (h : Keeps r s) :
    Keeps r (idleStep s) := by
  unfold idleStep
  repeat' first
    | with_reducible (first | assumption | apply keeps_goesOn | apply keeps_tickTime)

end Sys2Proof.Machine
end

