-- ==== Sys2Proof/Laws/Writes.lean ====
section
/-! SUPPORT. A write of each command register that its page takes is the command's own operation. -/

namespace Sys2Proof.Machine

theorem find_pmuTrig : findReg (regsOf .ch) 0x704 = some ((findReg (regsOf .ch) 0x704).get (by decide)) := by decide
theorem block_pmuTrig (c : Nat) (p : Nat) (m : Master) (fs : List Field) (v : Word) (s : State) : blockWrite ⟨.ch, c⟩ p 0x704 m fs v s = pmuTrigWrite c m v s := rfl
theorem accessWrite_pmuTrig {c : Nat} (hc : c < 512) {m : Master} {s : State} (v : Word) (h : Takes s (chPage c) m) : accessWrite (chPage c) 0x704 m v s = pmuTrigWrite c m v s :=
  (accessWrite_block v h (pageAt_chPage hc) find_pmuTrig (by decide) (fun h => nomatch h) (by decide) (by decide)).trans (block_pmuTrig ..)

theorem find_tdcPop : findReg (regsOf .ch) 0x720 = some ((findReg (regsOf .ch) 0x720).get (by decide)) := by decide
theorem block_tdcPop (c : Nat) (p : Nat) (m : Master) (fs : List Field) (v : Word) (s : State) : blockWrite ⟨.ch, c⟩ p 0x720 m fs v s = tdcPopWrite c v s := rfl
theorem accessWrite_tdcPop {c : Nat} (hc : c < 512) {m : Master} {s : State} (v : Word) (h : Takes s (chPage c) m) : accessWrite (chPage c) 0x720 m v s = tdcPopWrite c v s :=
  (accessWrite_block v h (pageAt_chPage hc) find_tdcPop (by decide) (fun h => nomatch h) (by decide) (by decide)).trans (block_tdcPop ..)

theorem find_palCmd : findReg (regsOf .pal) 0x704 = some ((findReg (regsOf .pal) 0x704).get (by decide)) := by decide
theorem block_palCmd (c : Nat) (p : Nat) (m : Master) (fs : List Field) (v : Word) (s : State) : blockWrite ⟨.pal, c⟩ p 0x704 m fs v s = palCmdWrite c m v (palYields c v s) := rfl
theorem accessWrite_palCmd {c : Nat} (hc : c < 64) {m : Master} {s : State} (v : Word) (h : Takes s (palPage c) m) : accessWrite (palPage c) 0x704 m v s = palCmdWrite c m v (palYields c v s) :=
  (accessWrite_block v h (pageAt_palPage hc) find_palCmd (by decide) (fun h => nomatch h) (by decide) (by decide)).trans (block_palCmd ..)

theorem find_thrCtl : findReg (regsOf .ln) 0x700 = some ((findReg (regsOf .ln) 0x700).get (by decide)) := by decide
theorem block_thrCtl (c : Nat) (p : Nat) (m : Master) (fs : List Field) (v : Word) (s : State) : blockWrite ⟨.ln, c⟩ p 0x700 m fs v s = thrCtlWrite c v s := rfl
theorem accessWrite_thrCtl {c : Nat} (hc : c < 64) {m : Master} {s : State} (v : Word) (h : Takes s (lnPage c) m) : accessWrite (lnPage c) 0x700 m v s = thrCtlWrite c v s :=
  (accessWrite_block v h (pageAt_lnPage hc) find_thrCtl (by decide) (fun h => nomatch h) (by decide) (by decide)).trans (block_thrCtl ..)

theorem find_fcmd : findReg (regsOf .cl) 0x70c = some ((findReg (regsOf .cl) 0x70c).get (by decide)) := by decide
theorem block_fcmd (c : Nat) (p : Nat) (m : Master) (fs : List Field) (v : Word) (s : State) : blockWrite ⟨.cl, c⟩ p 0x70c m fs v s = fcmdWrite c m v s := rfl
theorem accessWrite_fcmd {c : Nat} (hc : c < 8) {m : Master} {s : State} (v : Word) (h : Takes s (clPage c) m) : accessWrite (clPage c) 0x70c m v s = fcmdWrite c m v s :=
  (accessWrite_block v h (pageAt_clPage hc) find_fcmd (by decide) (fun h => nomatch h) (by decide) (by decide)).trans (block_fcmd ..)

theorem find_clFree : findReg (regsOf .cl) 0x718 = some ((findReg (regsOf .cl) 0x718).get (by decide)) := by decide
theorem block_clFree (c : Nat) (p : Nat) (m : Master) (fs : List Field) (v : Word) (s : State) : blockWrite ⟨.cl, c⟩ p 0x718 m fs v s = freeWrite c (fld v 11 0) m s := rfl
theorem accessWrite_clFree {c : Nat} (hc : c < 8) {m : Master} {s : State} (v : Word) (h : Takes s (clPage c) m) : accessWrite (clPage c) 0x718 m v s = freeWrite c (fld v 11 0) m s :=
  (accessWrite_block v h (pageAt_clPage hc) find_clFree (by decide) (fun h => nomatch h) (by decide) (by decide)).trans (block_clFree ..)

theorem find_donePop : findReg (regsOf .cl) 0x724 = some ((findReg (regsOf .cl) 0x724).get (by decide)) := by decide
theorem block_donePop (c : Nat) (p : Nat) (m : Master) (fs : List Field) (v : Word) (s : State) : blockWrite ⟨.cl, c⟩ p 0x724 m fs v s = if bit v 0 then Sys2Proof.Machine.donePop c s else s := rfl
theorem accessWrite_donePop {c : Nat} (hc : c < 8) {m : Master} {s : State} (v : Word) (h : Takes s (clPage c) m) : accessWrite (clPage c) 0x724 m v s = if bit v 0 then Sys2Proof.Machine.donePop c s else s :=
  (accessWrite_block v h (pageAt_clPage hc) find_donePop (by decide) (fun h => nomatch h) (by decide) (by decide)).trans (block_donePop ..)

theorem find_scsel : findReg (regsOf .cl) 0x730 = some ((findReg (regsOf .cl) 0x730).get (by decide)) := by decide
theorem block_scsel (c : Nat) (p : Nat) (m : Master) (fs : List Field) (v : Word) (s : State) : blockWrite ⟨.cl, c⟩ p 0x730 m fs v s = scselWrite c v s := rfl
theorem accessWrite_scsel {c : Nat} (hc : c < 8) {m : Master} {s : State} (v : Word) (h : Takes s (clPage c) m) : accessWrite (clPage c) 0x730 m v s = scselWrite c v s :=
  (accessWrite_block v h (pageAt_clPage hc) find_scsel (by decide) (fun h => nomatch h) (by decide) (by decide)).trans (block_scsel ..)

theorem find_weldCmd : findReg (regsOf .wd) 0x704 = some ((findReg (regsOf .wd) 0x704).get (by decide)) := by decide
theorem block_weldCmd (c : Nat) (p : Nat) (m : Master) (fs : List Field) (v : Word) (s : State) : blockWrite ⟨.wd, c⟩ p 0x704 m fs v s = weldCmdWrite c m v s := rfl
theorem accessWrite_weldCmd {c : Nat} (hc : c < 8) {m : Master} {s : State} (v : Word) (h : Takes s (wdPage c) m) : accessWrite (wdPage c) 0x704 m v s = weldCmdWrite c m v s :=
  (accessWrite_block v h (pageAt_wdPage hc) find_weldCmd (by decide) (fun h => nomatch h) (by decide) (by decide)).trans (block_weldCmd ..)

theorem find_replay : findReg (regsOf .wd) 0x710 = some ((findReg (regsOf .wd) 0x710).get (by decide)) := by decide
theorem block_replay (c : Nat) (p : Nat) (m : Master) (fs : List Field) (v : Word) (s : State) : blockWrite ⟨.wd, c⟩ p 0x710 m fs v s = replayWrite c m v s := rfl
theorem accessWrite_replay {c : Nat} (hc : c < 8) {m : Master} {s : State} (v : Word) (h : Takes s (wdPage c) m) : accessWrite (wdPage c) 0x710 m v s = replayWrite c m v s :=
  (accessWrite_block v h (pageAt_wdPage hc) find_replay (by decide) (fun h => nomatch h) (by decide) (by decide)).trans (block_replay ..)

theorem find_sumsel : findReg (regsOf .wd) 0x718 = some ((findReg (regsOf .wd) 0x718).get (by decide)) := by decide
theorem block_sumsel (c : Nat) (p : Nat) (m : Master) (fs : List Field) (v : Word) (s : State) : blockWrite ⟨.wd, c⟩ p 0x718 m fs v s = sumselWrite c v s := rfl
theorem accessWrite_sumsel {c : Nat} (hc : c < 8) {m : Master} {s : State} (v : Word) (h : Takes s (wdPage c) m) : accessWrite (wdPage c) 0x718 m v s = sumselWrite c v s :=
  (accessWrite_block v h (pageAt_wdPage hc) find_sumsel (by decide) (fun h => nomatch h) (by decide) (by decide)).trans (block_sumsel ..)

theorem find_hbCtl : findReg (regsOf .hbm) 0x704 = some ((findReg (regsOf .hbm) 0x704).get (by decide)) := by decide
theorem block_hbCtl (c : Nat) (p : Nat) (m : Master) (fs : List Field) (v : Word) (s : State) : blockWrite ⟨.hbm, c⟩ p 0x704 m fs v s = retrainWrite c m v s := rfl
theorem accessWrite_hbCtl {c : Nat} (hc : c < 4) {m : Master} {s : State} (v : Word) (h : Takes s (hbmPage c) m) : accessWrite (hbmPage c) 0x704 m v s = retrainWrite c m v s :=
  (accessWrite_block v h (pageAt_hbmPage hc) find_hbCtl (by decide) (fun h => nomatch h) (by decide) (by decide)).trans (block_hbCtl ..)

theorem find_fbpCtl : findReg (regsOf .fbp) 0x700 = some ((findReg (regsOf .fbp) 0x700).get (by decide)) := by decide
theorem block_fbpCtl (c : Nat) (p : Nat) (m : Master) (fs : List Field) (v : Word) (s : State) : blockWrite ⟨.fbp, c⟩ p 0x700 m fs v s = portCtlWrite c v s := rfl
theorem accessWrite_fbpCtl {c : Nat} (hc : c < 8) {m : Master} {s : State} (v : Word) (h : Takes s (fbpPage c) m) : accessWrite (fbpPage c) 0x700 m v s = portCtlWrite c v s :=
  (accessWrite_block v h (pageAt_fbpPage hc) find_fbpCtl (by decide) (fun h => nomatch h) (by decide) (by decide)).trans (block_fbpCtl ..)

theorem find_jdone : findReg (regsOf .bellows) 0x708 = some ((findReg (regsOf .bellows) 0x708).get (by decide)) := by decide
theorem block_jdone (p : Nat) (m : Master) (fs : List Field) (v : Word) (s : State) : blockWrite ⟨.bellows, 0⟩ p 0x708 m fs v s = jdoneWrite m v s := rfl
theorem accessWrite_jdone {m : Master} {s : State} (v : Word) (h : Takes s (blPage) m) : accessWrite (blPage) 0x708 m v s = jdoneWrite m v s :=
  (accessWrite_block v h (pageAt_blPage) find_jdone (by decide) (fun h => nomatch h) (by decide) (by decide)).trans (block_jdone ..)

theorem find_mxCtl : findReg (regsOf .mx) 0x700 = some ((findReg (regsOf .mx) 0x700).get (by decide)) := by decide
theorem block_mxCtl (p : Nat) (m : Master) (fs : List Field) (v : Word) (s : State) : blockWrite ⟨.mx, 0⟩ p 0x700 m fs v s = mxCtlWrite m v s := rfl
theorem accessWrite_mxCtl {m : Master} {s : State} (v : Word) (h : Takes s (mxPage) m) : accessWrite (mxPage) 0x700 m v s = mxCtlWrite m v s :=
  (accessWrite_block v h (pageAt_mxPage) find_mxCtl (by decide) (fun h => nomatch h) (by decide) (by decide)).trans (block_mxCtl ..)

theorem find_hangCmd : findReg (regsOf .hang) 0x70c = some ((findReg (regsOf .hang) 0x70c).get (by decide)) := by decide
theorem block_hangCmd (p : Nat) (m : Master) (fs : List Field) (v : Word) (s : State) : blockWrite ⟨.hang, 0⟩ p 0x70c m fs v s = hangCmdWrite m v (if fld v 2 0 = 1 then hangYields (fld v 15 8) s else s) := rfl
theorem accessWrite_hangCmd {m : Master} {s : State} (v : Word) (h : Takes s (hangPage) m) : accessWrite (hangPage) 0x70c m v s = hangCmdWrite m v (if fld v 2 0 = 1 then hangYields (fld v 15 8) s else s) :=
  (accessWrite_block v h (pageAt_hangPage) find_hangCmd (by decide) (fun h => nomatch h) (by decide) (by decide)).trans (block_hangCmd ..)

theorem find_snapCtl : findReg (regsOf .snap) 0x710 = some ((findReg (regsOf .snap) 0x710).get (by decide)) := by decide
theorem block_snapCtl (p : Nat) (m : Master) (fs : List Field) (v : Word) (s : State) : blockWrite ⟨.snap, 0⟩ p 0x710 m fs v s = snapCtlWrite m v s := rfl
theorem accessWrite_snapCtl {m : Master} {s : State} (v : Word) (h : Takes s (snapPage) m) : accessWrite (snapPage) 0x710 m v s = snapCtlWrite m v s :=
  (accessWrite_block v h (pageAt_snapPage) find_snapCtl (by decide) (fun h => nomatch h) (by decide) (by decide)).trans (block_snapCtl ..)

theorem find_emstat : findReg (regsOf .quench) 0x700 = some ((findReg (regsOf .quench) 0x700).get (by decide)) := by decide
theorem block_emstat (p : Nat) (m : Master) (fs : List Field) (v : Word) (s : State) : blockWrite ⟨.quench, 0⟩ p 0x700 m fs v s = clearLatches v s := rfl
theorem accessWrite_emstat {m : Master} {s : State} (v : Word) (h : Takes s (quenchPage) m) : accessWrite (quenchPage) 0x700 m v s = clearLatches v s :=
  (accessWrite_block v h (pageAt_quenchPage) find_emstat (by decide) (fun h => nomatch h) (by decide) (by decide)).trans (block_emstat ..)

theorem find_estop : findReg (regsOf .quench) 0x704 = some ((findReg (regsOf .quench) 0x704).get (by decide)) := by decide
theorem block_estop (p : Nat) (m : Master) (fs : List Field) (v : Word) (s : State) : blockWrite ⟨.quench, 0⟩ p 0x704 m fs v s = if bit v 0 then setLatch 2 0 0 s else s := rfl
theorem accessWrite_estop {m : Master} {s : State} (v : Word) (h : Takes s (quenchPage) m) : accessWrite (quenchPage) 0x704 m v s = if bit v 0 then setLatch 2 0 0 s else s :=
  (accessWrite_block v h (pageAt_quenchPage) find_estop (by decide) (fun h => nomatch h) (by decide) (by decide)).trans (block_estop ..)

theorem find_anvAck : findReg (regsOf .anvil) 0x71c = some ((findReg (regsOf .anvil) 0x71c).get (by decide)) := by decide
theorem block_anvAck (p : Nat) (m : Master) (fs : List Field) (v : Word) (s : State) : blockWrite ⟨.anvil, 0⟩ p 0x71c m fs v s = ackWrite m v s := rfl
theorem accessWrite_anvAck {m : Master} {s : State} (v : Word) (h : Takes s (anvilPage) m) : accessWrite (anvilPage) 0x71c m v s = ackWrite m v s :=
  (accessWrite_block v h (pageAt_anvilPage) find_anvAck (by decide) (fun h => nomatch h) (by decide) (by decide)).trans (block_anvAck ..)

theorem find_anvClose : findReg (regsOf .anvil) 0x720 = some ((findReg (regsOf .anvil) 0x720).get (by decide)) := by decide
theorem block_anvClose (p : Nat) (m : Master) (fs : List Field) (v : Word) (s : State) : blockWrite ⟨.anvil, 0⟩ p 0x720 m fs v s = closeWrite m v s := rfl
theorem accessWrite_anvClose {m : Master} {s : State} (v : Word) (h : Takes s (anvilPage) m) : accessWrite (anvilPage) 0x720 m v s = closeWrite m v s :=
  (accessWrite_block v h (pageAt_anvilPage) find_anvClose (by decide) (fun h => nomatch h) (by decide) (by decide)).trans (block_anvClose ..)

theorem find_patCmd : findReg (regsOf .patina) 0x704 = some ((findReg (regsOf .patina) 0x704).get (by decide)) := by decide
theorem block_patCmd (p : Nat) (m : Master) (fs : List Field) (v : Word) (s : State) : blockWrite ⟨.patina, 0⟩ p 0x704 m fs v s = patCmdWrite (fld v 3 0) m (pairService s m) s := rfl
theorem accessWrite_patCmd {m : Master} {s : State} (v : Word) (h : Takes s (patPage) m) : accessWrite (patPage) 0x704 m v s = patCmdWrite (fld v 3 0) m (pairService s m) s :=
  (accessWrite_block v h (pageAt_patPage) find_patCmd (by decide) (fun h => nomatch h) (by decide) (by decide)).trans (block_patCmd ..)

theorem find_ptSubmit : findReg (regsOf .patina) 0x740 = some ((findReg (regsOf .patina) 0x740).get (by decide)) := by decide
theorem block_ptSubmit (p : Nat) (m : Master) (fs : List Field) (v : Word) (s : State) : blockWrite ⟨.patina, 0⟩ p 0x740 m fs v s = submitWrite (isPair m) (fld v 7 0) m s := rfl
theorem accessWrite_ptSubmit {m : Master} {s : State} (v : Word) (h : Takes s (patPage) m) : accessWrite (patPage) 0x740 m v s = submitWrite (isPair m) (fld v 7 0) m s :=
  (accessWrite_block v h (pageAt_patPage) find_ptSubmit (by decide) (fun h => nomatch h) (by decide) (by decide)).trans (block_ptSubmit ..)

theorem find_prCmd : findReg (regsOf .primer) 0x700 = some ((findReg (regsOf .primer) 0x700).get (by decide)) := by decide
theorem block_prCmd (p : Nat) (m : Master) (fs : List Field) (v : Word) (s : State) : blockWrite ⟨.primer, 0⟩ p 0x700 m fs v s = prCmdWrite m v s := rfl
theorem accessWrite_prCmd {m : Master} {s : State} (v : Word) (h : Takes s (primerPage) m) : accessWrite (primerPage) 0x700 m v s = prCmdWrite m v s :=
  (accessWrite_block v h (pageAt_primerPage) find_prCmd (by decide) (fun h => nomatch h) (by decide) (by decide)).trans (block_prCmd ..)

theorem find_fbrtData : findReg (regsOf .fbrt) 0x704 = some ((findReg (regsOf .fbrt) 0x704).get (by decide)) := by decide
theorem block_fbrtData (p : Nat) (m : Master) (fs : List Field) (v : Word) (s : State) : blockWrite ⟨.fbrt, 0⟩ p 0x704 m fs v s = rtWrite v s := rfl
theorem accessWrite_fbrtData {m : Master} {s : State} (v : Word) (h : Takes s (fbrtPage) m) : accessWrite (fbrtPage) 0x704 m v s = rtWrite v s :=
  (accessWrite_block v h (pageAt_fbrtPage) find_fbrtData (by decide) (fun h => nomatch h) (by decide) (by decide)).trans (block_fbrtData ..)

theorem find_ringProduce : findReg (regsOf .fb) 0x72c = some ((findReg (regsOf .fb) 0x72c).get (by decide)) := by decide
theorem block_ringProduce (p : Nat) (m : Master) (fs : List Field) (v : Word) (s : State) : blockWrite ⟨.fb, 0⟩ p 0x72c m fs v s = ringProduce v s := rfl
theorem accessWrite_ringProduce {m : Master} {s : State} (v : Word) (h : Takes s (fbPage) m) : accessWrite (fbPage) 0x72c m v s = ringProduce v s :=
  (accessWrite_block v h (pageAt_fbPage) find_ringProduce (by decide) (fun h => nomatch h) (by decide) (by decide)).trans (block_ringProduce ..)

theorem find_ftCmd : findReg (regsOf .fb) 0x768 = some ((findReg (regsOf .fb) 0x768).get (by decide)) := by decide
theorem block_ftCmd (p : Nat) (m : Master) (fs : List Field) (v : Word) (s : State) : blockWrite ⟨.fb, 0⟩ p 0x768 m fs v s = if bit v 0 then ftSetCmd m s else s := rfl
theorem accessWrite_ftCmd {m : Master} {s : State} (v : Word) (h : Takes s (fbPage) m) : accessWrite (fbPage) 0x768 m v s = if bit v 0 then ftSetCmd m s else s :=
  (accessWrite_block v h (pageAt_fbPage) find_ftCmd (by decide) (fun h => nomatch h) (by decide) (by decide)).trans (block_ftCmd ..)

theorem find_pciDb : findReg (regsOf .pcie) 0x704 = some ((findReg (regsOf .pcie) 0x704).get (by decide)) := by decide
theorem block_pciDb (p : Nat) (m : Master) (fs : List Field) (v : Word) (s : State) : blockWrite ⟨.pcie, 0⟩ p 0x704 m fs v s = doorWrite p 0x704 (m == .pcie) m v s := rfl
theorem accessWrite_pciDb {m : Master} {s : State} (v : Word) (h : Takes s (pciePage) m) : accessWrite (pciePage) 0x704 m v s = doorWrite pciePage 0x704 (m == .pcie) m v s :=
  (accessWrite_block v h (pageAt_pciePage) find_pciDb (by decide) (fun h => nomatch h) (by decide) (by decide)).trans (block_pciDb ..)

end Sys2Proof.Machine
end

