-- ==== Sys2Proof/WellFormed.lean ====
section
/-! DEFINITION. Which commands are well formed: the bounds that the spec puts on what a command carries. An ill-formed
command names nothing the outside world can do; its meaning is still total. -/

namespace Sys2Proof

/-- A matrix transaction moves 1 to 256 bytes (11 R295). -/
def transLenOk (n : Nat) : Bool := 1 ≤ n && n ≤ 256

/-- A register offset within its page (14 R366). -/
def pageOffOk (off : BitVec 12) : Bool := off.toNat % 4 == 0

/-- The size of a BAR (19 R473). -/
def barSize : Bar → Nat
  | .bar0 => 0x4000000
  | .bar2 => 0x2000000000
  | .bar4 => 0x2000
  | .config => 0x1000

/-- A request of the host is of 1 to 4,096 bytes inside its BAR; one of the configuration space is of a word. A write carries at most the
512 bytes of the max payload size (19 R472). -/
def barOk (bar : Bar) (off n most : Nat) : Bool :=
  1 ≤ n && n ≤ most && off + n ≤ barSize bar && (bar != .config || (n == 4 && off % 4 == 0))

/-- The payload of an event fits in a record of 256 bytes (16 R410). -/
def payloadOk (ev : PatEvent) : Bool := ev.payload.length ≤ 240

/-- Well-formedness of a command. -/
def wellFormed : Instr → Bool
  | .registerWrite _ off _ _ => pageOffOk off
  | .rcReadClear _ off _ => pageOffOk off
  | .memoryPowerRequest off _ _ => pageOffOk off
  | .matrixTransaction _ _ _ _ data => transLenOk data.length
  | .pcieWriteRequest bar off data => barOk bar off.toNat data.length 512
  | .pcieReadRequest bar off len _ _ => barOk bar off.toNat len.toNat 4096
  | .patinaEventIntake ev => payloadOk ev
  | .tokenGain _ same => same.all payloadOk
  | .linkControlBlockReceive _ b _ => b.credits.all (fun e => 2 ≤ e.1 && e.1 ≤ 13)
  | _ => true

end Sys2Proof
end

