-- ==== Sys2Proof/Tests/Slice0.lean ====
section
/-! SUPPORT. Tests: ill-formed terms, single steps whose results the spec gives, and for every statement of
Certificates/Slice0/Obligations.lean concrete states and operands that meet the hypotheses of its clauses. -/

set_option linter.unusedVariables false
-- One theorem at a time: elaborating them in parallel takes the memory of many threads.
set_option Elab.async false

namespace Sys2Proof.Tests

open Sys2Proof Sys2Proof.Machine

/-! ## Ill-formed commands -/


theorem test_register_offset_unaligned : wellFormed (.registerWrite 0 0x701 .mcA 0) = false ∧ wellFormed (.registerWrite 0 0x700 .mcA 0) = true := by decide
theorem test_read_offset_unaligned : wellFormed (.rcReadClear 0 2 .mcA) = false ∧ wellFormed (.rcReadClear 0 4 .mcA) = true := by decide
theorem test_power_offset_unaligned : wellFormed (.memoryPowerRequest 0x703 .mcA 0) = false ∧ wellFormed (.memoryPowerRequest 0x704 .mcA 0) = true := by decide
theorem test_transaction_length : wellFormed (.matrixTransaction .mcA 0 true 0 []) = false ∧ wellFormed (.matrixTransaction .mcA 0 true 0 (List.replicate 257 0)) = false ∧
    wellFormed (.matrixTransaction .mcA 0 true 0 (List.replicate 256 0)) = true := by decide +kernel
theorem test_config_request : wellFormed (.pcieReadRequest .config 0 4 false 0) = true ∧ wellFormed (.pcieReadRequest .config 2 4 false 0) = false ∧
    wellFormed (.pcieReadRequest .config 0 8 false 0) = false ∧ wellFormed (.pcieWriteRequest .config 0x1000 [0, 0, 0, 0]) = false := by decide +kernel
theorem test_pcie_write_length : wellFormed (.pcieWriteRequest .bar4 0 []) = false ∧ wellFormed (.pcieWriteRequest .bar4 0x1FFF [0]) = true ∧
    wellFormed (.pcieWriteRequest .bar4 0x1FFF [0, 0]) = false := by decide +kernel
theorem test_pcie_read_length : wellFormed (.pcieReadRequest .bar0 0 0 false 0) = false ∧ wellFormed (.pcieReadRequest .bar0 0x3FFFFFC 4 false 0) = true ∧
    wellFormed (.pcieReadRequest .bar0 0x3FFFFFC 5 false 0) = false := by decide +kernel
theorem test_credit_class : wellFormed (.linkControlBlockReceive 0 ⟨0, 0, [(1, 1)], 0, 0⟩ ⟨0, 0⟩) = false ∧ wellFormed (.linkControlBlockReceive 0 ⟨0, 0, [(14, 1)], 0, 0⟩ ⟨0, 0⟩) = false ∧
    wellFormed (.linkControlBlockReceive 0 ⟨0, 0, [(2, 1), (13, 1)], 0, 0⟩ ⟨0, 0⟩) = true := by decide

/-! ## Tools -/

/-- The reset state a tick later, when the pages show READY. -/
abbrev r : State := { State.reset with now := 1 }

theorem takes_of {s : State} {page : Nat} {m : Master}
    (h : (pathOk m .regs && pageError s page == none && !disturbs page m s
      && (match pageAt page with | some x => !pageRejects s x m && domReady s (pageDomain x) | none => true)) = true) : Takes s page m := by
  simp only [Bool.and_eq_true] at h
  refine ⟨h.1.1.1, by simpa using h.1.1.2, by simpa using h.1.2, fun x hx => ?_⟩
  have h2 := h.2
  rw [show pageAt page = some x from hx] at h2
  simpa using h2

/-- A state with PG_FAULT, a register or a channel given. -/
def withCh (x : Chan) : State := setChan 0 x r

/-! ## Witnesses: every clause of a statement has a state and operands that meet its hypotheses -/

theorem witness_StepRunsTheFrontOfTheQueue : (State.enqueue .rsp r).pending = [.rsp] := by decide
def sSlew (n : Int) : State := { r with fabric := { slew := n, slewTicks := 99999 } }
theorem witness_EmptyQueueLetsTimePass : r.pending = [] ∧ r.fabric.slew = 0 ∧ firmwareRuns r = false ∧
    (∀ n ∈ [1, -1], (sSlew n).pending = [] ∧ firmwareRuns (sSlew n) = false ∧ 99999 ≤ (sSlew n).fabric.slewTicks) ∧ 0 < (sSlew 1).fabric.slew ∧ (sSlew (-1)).fabric.slew < 0 := by decide +kernel

def sTravel (slice : Bool) : State := withCh { emits := [⟨0, slice, [⟨7, slice, none⟩]⟩], creditsBack := 1, stopOnWay := true, laneSrcNext := [true] }
theorem witness_SymbolsCreditsAndSourcesTravelInOrder : ∀ b ∈ [false, true], domLost (sTravel b) (tileOf 0) = false ∧ lanesUp (sTravel b) = true ∧
    (chan (sTravel b) 0).emits = [⟨0, b, [⟨7, b, none⟩]⟩] ∧ (chan (sTravel b) 0).creditsBack = 0 + 1 ∧ (chan (sTravel b) 0).stopOnWay = true ∧ (chan (sTravel b) 0).laneSrcNext = [true] := by decide +kernel

def sLev : State := wrReg (chPage 0) 0x110 0x8000 (wrReg (chPage 0) 0x114 0x8000 r)
def sRun : State := setBase (clusterOf 0) { en := true, running := true, ranEver := true, next := 8192 } sLev
theorem witness_ModeChangeTakesTwoMicroseconds : Takes sLev (chPage 0) .mcA ∧ Takes sRun (chPage 0) .mcA ∧ Legal .ch 0x100 0x100 ∧ copyBefore (chPage 0) sLev = sLev ∧ copyBefore (chPage 0) sRun = sRun ∧
    chanWriteValid sLev 0 0x100 (written .ch 0x100 (rdReg sLev (chPage 0) 0x100) 0x100) = true ∧ strokesRun sLev 0 = false ∧ (chan sLev 0).held = false ∧ (chan sLev 0).runToggled = false ∧
    bit (written .ch 0x100 (rdReg sLev (chPage 0) 0x100) 0x100) 8 ≠ bit (inForce sLev (chPage 0) 0x100) 8 ∧ bit (inForce sLev (chPage 0) 0x240) 0 = bit (rdReg sLev (chPage 0) 0x240) 0 ∧
    chanWriteValid sRun 0 0x100 (written .ch 0x100 (rdReg sRun (chPage 0) 0x100) 0x100) = true ∧ strokesRun sRun 0 = true :=
  ⟨takes_of (by decide +kernel), takes_of (by decide +kernel), ⟨_, rfl, by decide +kernel⟩, by decide +kernel⟩

theorem witness_FunctionSwitchEndsInTheCanvasFunction : domLost (withCh { phase := .modeChange 5 }) (tileOf 0) = false ∧ (chan (withCh { phase := .modeChange 5 }) 0).phase = .modeChange 5 ∧
    (chan (withCh { phase := .holdTimer 5 }) 0).phase = .holdTimer 5 ∧ (chan (withCh { phase := .ramp }) 0).phase = .ramp ∧ strokesRun (withCh { phase := .ramp }) 0 = false ∧
    (chan (setChan 0 { phase := .ramp } sRun) 0).phase = .ramp ∧ strokesRun (setChan 0 { phase := .ramp } sRun) 0 = true ∧
    (∀ p ∈ [Phase.toB0, .hold 5 2, .hold 5 1], domLost (setChan 0 { phase := p } sRun) (tileOf 0) = false ∧ (chan (setChan 0 { phase := p } sRun) 0).phase = p ∧
      bit (inForce (setChan 0 { phase := p } sRun) (chPage 0) 0x100) 8 = bit (rdReg (setChan 0 { phase := p } sRun) (chPage 0) 0x100) 8) := by decide +kernel

def sTsrc : State := wrReg (chPage 0) 0x150 0x4000 r
/-- Palette word 0 of channel 0 holds one PMUTRG event. -/
def sPmuWord : State := { r with pal := smPut 0 r.pal (palKey 0 false 0) (BitVec.ofNat 256 (5 + 6 * 2 ^ 26)) }
theorem witness_PmuTriggerStartsOneMeasurement : Takes (withCh { func := .pmu, pmu := .waiting }) (chPage 0) .mcA ∧ Takes r (chPage 0) .mcA ∧ Takes (withCh { func := .pmu }) (chPage 0) .mcA ∧ Takes sTsrc (chPage 0) .mcA ∧
    bit (1 : Word) 0 = true ∧ (chan (withCh { func := .pmu, pmu := .waiting }) 0).func = .pmu ∧ (chan (withCh { func := .pmu, pmu := .waiting }) 0).pmu ≠ .idle ∧ (chan r 0).func ≠ .pmu ∧
    bit (rdReg r (chPage 0) 0x020) 31 = false ∧ bit (inForce r (chPage 0) 0x150) 14 = false ∧ bit (inForce sTsrc (chPage 0) 0x150) 14 = true ∧ (chan sTsrc 0).func ≠ .pmu ∧
    bit (rdReg sTsrc (chPage 0) 0x020) 31 = false ∧ (chan (withCh { func := .pmu }) 0).func = .pmu ∧ (chan (withCh { func := .pmu }) 0).pmu = .idle ∧
    wordOk (palWord sPmuWord 0 (0 : Byte).toNat) = true ∧ bit (inForce sPmuWord (chPage 0) 0x150) 14 = false ∧
    wordEvents sPmuWord 0 (palWord sPmuWord 0 (0 : Byte).toNat) ((chan sPmuWord 0).func == .driveCompare) = [⟨5, 6, 0⟩] :=
  ⟨takes_of (by decide +kernel), takes_of (by decide +kernel), takes_of (by decide +kernel), takes_of (by decide +kernel), by decide +kernel⟩

theorem witness_PmuMeasuresTheMeanOfItsSamples : domLost (withCh { pmu := .waiting }) (tileOf 0) = false ∧ (chan (withCh { pmu := .waiting }) 0).pmu = .waiting ∧
    domLost (withCh { pmu := .sampling }) (tileOf 0) = false ∧ (chan (withCh { pmu := .sampling }) 0).pmu = .sampling ∧ 
    pmuClamp (wrReg (chPage 0) 0x150 0 (withCh { func := .pmu })) 0 ≠ .none ∧ pmuClamp (withCh { pmu := .waiting }) 0 = .none := by decide +kernel

def stroke0 : Stroke := ⟨0, 0, 1024, 0, 0, false, 1, 0, 0, [], false, false⟩
def entry0 : TdcEntry := ⟨0, 0, 0, false, false⟩
def sTdc (x : Chan) : State := setChan 0 { x with func := .tdc, tdcArmed := some 0, stroke := some stroke0 } (wrReg (chPage 0) 0x160 0x100 r)
def sTdcFull : State := sTdc { tdcFifo := List.replicate 16 entry0 }
theorem witness_TdcKeepsSixteenEntriesInOrder : domLost (sTdc {}) (tileOf 0) = false ∧ (chan (sTdc {}) 0).func = .tdc ∧ (chan (sTdc {}) 0).tdcArmed = some 0 ∧ (chan (sTdc {}) 0).stroke = some stroke0 ∧
    (0 : Fin 3).val = fld (inForce (sTdc {}) (chPage 0) 0x160) 1 0 ∧ fld (inForce (sTdc {}) (chPage 0) 0x160) 3 2 = 0 ∧ (chan (sTdc {}) 0).tdcLast = none ∧ 0 < fld (inForce (sTdc {}) (chPage 0) 0x160) 15 8 ∧
    (chan (sTdc {}) 0).tdcFifo.length < 16 ∧ 16 ≤ (chan sTdcFull 0).tdcFifo.length ∧ (chan sTdcFull 0).tdcLast = none ∧
    (chan (sTdc { tdcLast := some (0, 0, 0) }) 0).tdcLast = some (0, 0, 0) ∧ stroke0.begins + 8 * (2047 : BitVec 40).toNat < 0 + 16384 ∧
    (chan sTdcFull 0).tdcFifo = entry0 :: List.replicate 15 entry0 := by decide +kernel
theorem witness_TdcPop : Takes sTdcFull (chPage 0) .mcA := takes_of (by decide +kernel)

def sGoesOn : State := setChan 0 { stream := .running } (wrReg (chPage 0) 0x240 1 sRun)
theorem witness_StrokeBoundaryAdvancesTheCount : (∀ s ∈ [sRun, wrReg (clPage 7) 0x108 1 sRun, sGoesOn], lanesUp s = true ∧ (base s (7 : Cl).val).en = true ∧ s.hang = [] ∧ s.calDue = []) ∧
    bit (rdReg (wrReg (clPage 7) 0x108 1 sRun) (clPage 7) 0x108) 0 = true ∧ bit (rdReg sRun (clPage 7) 0x108) 0 = false ∧
    (∀ q, q < 64 → (chan sRun (chanOfCluster 7 q)).stream = .idle ∧ bit (rdReg sRun (chPage (chanOfCluster 7 q)) 0x240) 0 = false) ∧
    bit (rdReg sGoesOn (clPage 7) 0x108) 0 = false ∧ (chan sGoesOn 0).stream = .running ∧ (chan sGoesOn 0).stopDue = false ∧ (chan sGoesOn 0).last = 0 ∧ (chan sGoesOn 0).runToggled = false ∧
    bit (rdReg sGoesOn (chPage 0) 0x240) 0 = true ∧ bit (inForce sGoesOn (chPage 0) 0x240) 0 = true ∧ ∃ q, q < 64 ∧ chanOfCluster 7 q = 0 := by decide +kernel
/-- Channel 0 before a boundary of count 0, with RUN as written and as in force, levels in their order, and the stroke counts of its window. -/
def sStream (run was : Bool) (first last : Word) (x : Chan) : State :=
  setChan 0 x { wrReg (chPage 0) 0x248 first (wrReg (chPage 0) 0x250 last (wrReg (chPage 0) 0x240 (w32 run.toNat) sRun)) with held := [(regKey false (chPage 0) 0x240, w32 was.toNat)] }
theorem witness_StreamsAtBoundaries : (∀ x ∈ [({ stream := .armed } : Chan), { stream := .armed, s0 := 3, last := 7 }, { stream := .running }, { stream := .running, stopDue := true }, { stream := .running, last := 1, stopDue := true }],
      ∀ b ∈ [true, false], let s := sStream b b 1 0 x; x = chan s 0 ∧ x.runToggled = false ∧ bit (rdReg s (chPage 0) 0x240) 0 = bit (inForce s (chPage 0) 0x240) 0 ∧ (base s (clusterOf 0)).count = 0) ∧
    (let s := setBase (clusterOf 0) { count := 7 } (sStream true true 1 0 { stream := .running, last := 7 }); (chan s 0).stream ≠ .idle ∧ (chan s 0).last ≠ 0 ∧ (chan s 0).last ≤ (base s (clusterOf 0)).count) ∧
    (let s := sStream false true 1 0 { stream := .armed }; bit (inForce s (chPage 0) 0x240) 0 = true ∧ bit (rdReg s (chPage 0) 0x240) 0 = false ∧ (chan s 0).stream ≠ .idle) := by decide +kernel
theorem witness_StreamSetups :
    (let s := sStream true false 1 0 {}; bit (inForce s (chPage 0) 0x240) 0 = false ∧ bit (rdReg s (chPage 0) 0x240) 0 = true ∧ (chan s 0).stream = .idle ∧
      levelsValid (fun o => rdReg s (chPage 0) o) = true ∧ funcValid (fun o => rdReg s (chPage 0) o) = true ∧ 0 < rd64 s (chPage 0) 0x248 ∧ rd64 s (chPage 0) 0x250 = 0) ∧
    (let s := sStream true false 1 2 {}; bit (inForce s (chPage 0) 0x240) 0 = false ∧ bit (rdReg s (chPage 0) 0x240) 0 = true ∧ (chan s 0).stream = .idle ∧
      levelsValid (fun o => rdReg s (chPage 0) o) = true ∧ funcValid (fun o => rdReg s (chPage 0) o) = true ∧ 0 < rd64 s (chPage 0) 0x248 ∧ rd64 s (chPage 0) 0x248 < rd64 s (chPage 0) 0x250) ∧
    (let s := sStream true false 0 0 {}; rd64 s (chPage 0) 0x248 ≤ 0) ∧ (let s := sStream true false 2 1 {}; rd64 s (chPage 0) 0x250 ≠ 0 ∧ rd64 s (chPage 0) 0x250 ≤ rd64 s (chPage 0) 0x248) ∧
    (let s := wrReg (chPage 0) 0x100 0x200 (sStream true false 1 0 {}); funcValid (fun o => rdReg s (chPage 0) o) = false) := by decide +kernel

def sPeriod : State := wrReg (clPage 0) 0x100 0x400 (wrReg (clPage 0) 0x110 0xFFFFFFFF r)
def sStopping : State := setBase 0 { en := true, running := true } r
theorem witness_TimebaseStartsAtItsInstantOrIsRefused : Takes r (clPage 0) .mcA ∧ Takes sPeriod (clPage 0) .mcA ∧ Takes sStopping (clPage 0) .mcA ∧
    copyBefore (clPage 0) r = r ∧ copyBefore (clPage 0) sPeriod = sPeriod ∧ copyBefore (clPage 0) sStopping = sStopping ∧ (base r 0).en = false ∧ (clT0 r 0 < r.now + 2 * us ∨ periodValid (period r 0) = false) ∧
    (base sPeriod 0).en = false ∧ sPeriod.now + 2 * us ≤ clT0 sPeriod 0 ∧ periodValid (period sPeriod 0) = true ∧ (base sStopping 0).en = true ∧ (base sStopping 0).running = true ∧
    bit (rdReg r (clPage 0) 0x108) 0 = false ∧ bit (rdReg sStopping (clPage 0) 0x108) 0 = false ∧
    (written .cl 0x100 (rdReg r (clPage 0) 0x100) 1023).toNat + 2 ^ 32 * fld (rdReg r (clPage 0) 0x104) 7 0 = 1023 ∧
    (written .cl 0x100 (rdReg r (clPage 0) 0x100) 1024).toNat + 2 ^ 32 * fld (rdReg r (clPage 0) 0x104) 7 0 = 1024 ∧
    8192000000 < (rdReg r (clPage 0) 0x100).toNat + 2 ^ 32 * fld (written .cl 0x104 (rdReg r (clPage 0) 0x104) 2) 7 0 :=
  ⟨takes_of (by decide +kernel), takes_of (by decide +kernel), takes_of (by decide +kernel), by decide +kernel⟩

theorem witness_FormatterTakesOneSymbolPerStroke : (chan (withCh { stream := .running, fifo := [⟨7, false, none⟩] }) 0).stream = .running ∧
    (chan (withCh { stream := .running, fifo := [⟨7, false, none⟩] }) 0).fifo = [⟨7, false, none⟩] ∧ (chan (withCh { stream := .running }) 0).stream = .running ∧
    (chan (withCh { stream := .running }) 0).fifo = [] ∧ (chan (withCh { stream := .running }) 0).held = false ∧ (chan r 0).stream ≠ .running := by decide +kernel

def sEvent (e : PalEvent) (x : Chan) : State := setChan 0 { x with stroke := some { stroke0 with events := [e] } } (wrReg (chPage 0) 0x100 3 r)
theorem witness_PaletteEventsApplyInOrder : (∀ e ∈ ([⟨0, 1, 0⟩, ⟨0, 2, 0⟩, ⟨0, 3, 4⟩, ⟨0, 4, 1⟩, ⟨0, 5, 0⟩, ⟨0, 15, 0⟩] : List PalEvent), domLost (sEvent e {}) (tileOf 0) = false ∧
      (chan (sEvent e {}) 0).stroke = some { stroke0 with events := [e] } ∧ (chan (sEvent e {}) 0).lastDrive = none ∧ (chan (sEvent e {}) 0).lastCompare = none ∧ (chan (sEvent e {}) 0).window = none) ∧
    levelInUse (chFunc (sEvent ⟨0, 1, 0⟩ {}) 0) 0 = true ∧ stroke0.filled < stroke0.slots ∧
    nearEdge (chFunc (sEvent ⟨0, 3, 4⟩ {}) 0) { chan (sEvent ⟨0, 3, 4⟩ {}) 0 with stroke := some stroke0 } stroke0 (stroke0.begins + 8 * 0) = false ∧
    (chan (sEvent ⟨0, 5, 0⟩ { window := some ⟨1, false⟩ }) 0).window = some ⟨1, false⟩ ∧
    typeOk ⟨0, 15, 0⟩ = false ∧ 0 < 0 + minUi (chFunc (sEvent ⟨0, 1, 0⟩ { lastDrive := some 0 }) 0) ∧ (chan (sEvent ⟨0, 1, 0⟩ { lastDrive := some 0 }) 0).lastDrive = some 0 := by decide +kernel

def palCmd0 (wr : Bool) : PalCommand := ⟨wr, 0, false, 3, 5, false⟩
def sPalCmd (wr : Bool) : State := { r with palCmds := smPut none r.palCmds 0 (some (palCmd0 wr)) }
def result0 : CompareResult := ⟨0, 0, 0xC0000⟩
theorem witness_PaletteWordsMoveWhole : Takes r (palPage 0) .mcA ∧ palCmd r 0 = none ∧ inUse (fun p => p == chPage 0) r = false ∧ (bit (rdReg r (palPage 0) 0x700) 11 && hangArmed r (chPage 0)) = false ∧
    lanesUp (sPalCmd true) = true ∧ palCmd (sPalCmd true) 0 = some (palCmd0 true) ∧ palCmd (sPalCmd false) 0 = some (palCmd0 false) ∧ (palCmd0 true).write = true ∧ (palCmd0 false).write = false ∧
    (chan (withCh { results := [result0] }) 0).results = [result0] ∧ (store (withCh { results := [result0] }) (laneOf 0)).low ≠ 2 ∧
    (let s := setStore 0 { low := 2 } (withCh { results := [result0] }); lanesUp s = true ∧ (chan s 0).results = [result0] ∧ (store s (laneOf 0)).low = 2 ∧ (lane s (laneOf 0)).fmAborted = false ∧
      (lane s (laneOf 0)).lookups = []) :=
  ⟨takes_of (by decide +kernel), by decide +kernel⟩

/-! ### Quench and Anvil -/

theorem quiet_reset (c : Nat) : Quiet (chan r c) := fun h => absurd h (by show ¬ (({} : Chan).held = true); decide)

def sHeld : State := withCh { held := true }
theorem witness_TripHoldsTheChannelInItsSafeState : 0 < 1 ∧ 9 ≤ 9 ∧ (chan sHeld 0).held = true ∧ (chan r 0).held = false ∧ bit (rdReg r (tqPage (tileOf 0)) 0x020) 31 = false ∧
    (chan (withCh { pmu := .waiting }) 0).held = false ∧ (chan (withCh { pmu := .waiting }) 0).pmu ≠ .idle := by decide +kernel

theorem witness_LossOfTheShellHoldsEveryChannel : dom r 8 = {} ∧ dom r (7 : Tile).val = {} ∧ ∀ c : Ch, Quiet (chan r c.val) := ⟨by decide, by decide, fun c => quiet_reset c.val⟩
def sStack : State := setEng 0 { queue := [⟨0, 0x2000000000, 1, none, none, none, []⟩] } r
theorem witness_LossesOfOtherDomains : domLost r 9 = false ∧ domLost r 8 = false ∧ domLost sStack (10 + 0) = false ∧ (⟨0, 0x2000000000, 1, none, none, none, []⟩ : QueueReq) ∈ (eng sStack 0).queue ∧
    targetOf sStack 0x2000000000 = .hbm (10 - 10) ∧ tileOf 0 = (0 : Tile).val ∧ tileOf 64 ≠ (0 : Tile).val ∧ (dom r (tileOf 0)).good = true ∧ (dom r (tileOf 0)).inReset = false ∧ (chan r 0).held = false := by decide +kernel

theorem witness_QuenchTripsOnItsLimits : domLost r (tileOf 0) = false ∧ domLost (withCh { clampSince := some 3 }) (tileOf 0) = false ∧ (chan (withCh { clampSince := some 3 }) 0).clampSince = some 3 ∧
    domLost r 8 = false ∧ (chan r 0).clampSince = none ∧ pmuClamp (withCh { clampSince := some 3 }) 0 = .none ∧ driverOn (withCh { clampSince := some 3 }) 0 = false ∧
    (let s := withCh { clampSince := some 3, func := .driveCompare, drive := some 0 }; domLost s (tileOf 0) = false ∧ driverOn s 0 = true ∧ (chan s 0).clampSince = some 3) ∧
    pmuClamp (wrReg (chPage 0) 0x150 0 (withCh { clampSince := some 3, func := .pmu })) 0 ≠ .none ∧ (dom r (tileOf 0)).good = true ∧ (dom r (tileOf 0)).inReset = false := by decide +kernel

def sSwitching : State := withCh { held := true, phase := .toB0 }
theorem witness_ReleaseIsGrantedOrRefused : Takes r (tqPage 0) .mcA ∧ Takes sSwitching (tqPage 0) .mcA ∧ Takes sHeld (tqPage 0) .mcA ∧ 0 = 64 * (0 : Tile).val + 32 * false.toNat + (0 : Fin 32).val ∧
    (chan sSwitching 0).held = true ∧ (chan sSwitching 0).phase ≠ .steady ∧ (chan r 0).phase = .steady ∧ (chan r 0).held = false ∧ (chan sHeld 0).phase = .steady ∧ (chan sHeld 0).held = true ∧
    (chan sHeld 0).pmu = .idle ∧ insideBand sHeld 0 (([] : List Int).getD 0 0) = true ∧ Nat.land (rdReg sHeld quenchPage 0x700).toNat 15 = 0 ∧ bit (1 : Word) (0 : Fin 32).val = true ∧ isolateOpen sHeld 0 = false :=
  ⟨takes_of (by decide +kernel), takes_of (by decide +kernel), takes_of (by decide +kernel), by decide +kernel⟩

theorem witness_EmergencyStopHoldsEveryChannel : bit (rdReg (wrReg quenchPage 0x700 2 r) quenchPage 0x700) (1 : Fin 3).val = true ∧ bit (rdReg r quenchPage 0x700) (2 : Fin 3).val = false ∧ domLost r 8 = false ∧
    bit (rdReg r quenchPage 0x700) 0 = false ∧ watched r 0 = true ∧ domLost (setDom 8 { inReset := true } r) 8 = true := by decide +kernel
theorem witness_EmergencyWrites : Takes r quenchPage .mcA := takes_of (by decide +kernel)

def report0 : Report := ⟨0, 5, 1, 4, 0, 0, []⟩
def sReport : State := { r with reports := [report0] }
def sCounted : State := setAnv 0 { state := 1, fid := 9, kind := 0, id := 5, cls := 1, cause := 4, count := 1 } sReport
theorem witness_AnvilGivesEachFaultOneEntry : domLost sReport 8 = false ∧ sReport.reports = [report0] ∧ findEntry sReport (linked sReport report0) = none ∧
    findEntry sReport (fun e => e.state != 0 && e.kind == report0.kind && e.id == report0.id && e.cause == report0.cause) = none ∧ report0.cls = 1 ∧
    (List.range 64).find? (fun i => (anvEntry sReport i).state == 0) = some 0 ∧ domLost sCounted 8 = false ∧ sCounted.reports = [report0] ∧ findEntry sCounted (linked sCounted report0) = none ∧
    findEntry sCounted (fun e => e.state != 0 && e.kind == report0.kind && e.id == report0.id && e.cause == report0.cause) = some 0 ∧ (anvEntry sCounted 0).cls ≠ 0 := by decide +kernel
/-- A report of a class with its group and key, at a threshold of corrected reports, and with an open entry where one is given. -/
def sClass (x : Report) (thr : Word) (old : Option AnvilEntry) : State :=
  (match old with | some e => setAnv 0 e | none => id) (wrReg anvilPage 0x724 thr { r with reports := [x] })
theorem witness_AnvilClasses : (∀ x ∈ [(⟨0, 5, 0, 2, 0, 0, []⟩ : Report), ⟨0, 5, 1, 4, 0, 0, []⟩, ⟨1, 512, 2, 0, 0, 0, []⟩, ⟨0, 5, 3, 6, 9, 0, []⟩, ⟨1, 512, 3, 6, 0, 0, []⟩, ⟨0, 5, 3, 6, 0, 0, []⟩, ⟨0, 5, 4, 6, 16, 3, []⟩, ⟨0, 5, 4, 6, 0, 0, []⟩, ⟨0, 5, 5, 6, 0, 0, []⟩],
      let u := noteCorrected x { sClass x 0 none with reports := [] }; domLost u 8 = false ∧ (sClass x 0 none).reports = [x] ∧ findEntry u (linked u x) = none ∧ findEntry u (fun e => e.state != 0 && e.kind == x.kind && e.id == x.id && e.cause == x.cause) = none ∧
        (List.range 64).find? (fun i => (anvEntry u i).state == 0) = some 0 ∧ (x.cls = 0 → ¬ 0 < fld (rdReg u anvilPage 0x724) 15 0)) := by decide +kernel
def reportC : Report := ⟨0, 5, 0, 2, 0, 0, []⟩
def entryC : AnvilEntry := { state := 1, fid := 9, kind := 0, id := 5, cls := 0, cause := 2, count := 1 }
theorem witness_AnvilEscalates : (let u := noteCorrected reportC { sClass reportC 1 none with reports := [] }; 0 < fld (rdReg u anvilPage 0x724) 15 0 ∧ fld (rdReg u anvilPage 0x724) 15 0 ≤ (smGet [] u.corrected (sourceNo reportC.kind reportC.id)).length) ∧
    (let u := noteCorrected reportC { sClass reportC 0 (some entryC) with reports := [] }; findEntry u (linked u reportC) = none ∧
      findEntry u (fun e => e.state != 0 && e.kind == reportC.kind && e.id == reportC.id && e.cause == reportC.cause) = some 0 ∧ (escalated u entryC).cls = entryC.cls) ∧
    (let u := noteCorrected reportC { sClass reportC 1 (some entryC) with reports := [] }; findEntry u (linked u reportC) = none ∧
      findEntry u (fun e => e.state != 0 && e.kind == reportC.kind && e.id == reportC.id && e.cause == reportC.cause) = some 0 ∧ (escalated u entryC).cls ≠ entryC.cls) ∧
    (let x : Report := ⟨0, 5, 1, 9, 1, 3, []⟩; let u := noteCorrected x { sClass x 0 (some { state := 1, fid := 9, cls := 4, group := 16, key := 3, firstFt := 1 }) with reports := [] }; findEntry u (linked u x) = some 0) := by decide +kernel
theorem witness_Monitors : domLost r 8 = false ∧ (∀ p ∈ [pageIndex ⟨.tref, (3 : Tile).val⟩], bit (rdReg (wrReg p 0x700 0x80000000 r) p 0x700) 31 = true) ∧ bit (rdReg (wrReg (pageIndex ⟨.tpll, 3⟩) 0x700 1 r) (pageIndex ⟨.tpll, 3⟩) 0x700) 0 = true ∧
    domLost r (tileOf 0) = false ∧ (pageAt (BitVec.ofNat 14 (chPage 0)).toNat).isSome = true ∧ Monitor.dac 0 ≠ .vref 0 0 := by decide +kernel
theorem witness_AnvilWrites : Takes r anvilPage .mcA := takes_of (by decide +kernel)

/-! ### Engines -/

/-- A bundle of format 0 with the first slot given, and one of format 1 that repeats it. -/
def oneMove (v : Nat) : Nat := v + 2 ^ 59 + 2 ^ 89 + 2 ^ 119
def repeated (v count : Nat) : Nat := v + 2 ^ 59 + 2 ^ 89 + count * 2 ^ 90 + 2 ^ 125 + 2 ^ 126
/-- Core 0 runs a bundle at the start of its instruction SRAM; its segment 3 is its data SRAM. -/
def sCode (n : Nat) (x : Engine) : State := setBytes 0x10000000 (leBytes 16 n)
  (setEng 0 { x with run := .running, segs := [(0, ⟨0x10000000, 0, 0xFFFF, 11⟩), (3, ⟨0x10010000, 0, 0xDFFF, 7⟩)] } r)
def g1to2 : Nat := 1 * 2 ^ 13 + 2
def deferred1 : Op := ⟨0x100, false, [(0x100, 5)], none, none, [(1, 0x100, 0)], false⟩

/-- The hypotheses under which a bundle issues, for core 0 without an error of the matrix. -/
def issues (s : State) : Bool :=
  let z := bundleYields 0 s
  let u := noteFetch 0 (eng z 0).pc.toNat z
  let x := eng u 0
  mayRun z 0 && mayIssue z 0 && !asyncPending x && (interruptDue z 0).isNone && x.matrix.isNone && x.after.isNone && !x.parkDue && (waitFailure x).isNone && !holds x && !fetchHeld z 0
    && (fetchFault z 0 x.pc.toNat (fetchErr none)).isNone && (encodingFault u 0 (fetchBundle z 0 x.pc.toNat)).isNone
theorem witness_BundleIssues : (∀ n ∈ [oneMove g1to2, repeated g1to2 3, repeated g1to2 0, oneMove (1 * 2 ^ 13 + 0x310)], issues (sCode n {}) = true) ∧
    issues (sCode (repeated g1to2 3) { rptLive := true, rptc := 1 }) = true := by decide +kernel
theorem witness_BundleStalls : let s := sCode (oneMove g1to2) { ops := [deferred1] }
    issues s = true ∧ (bundleAt s 0).rpt = false ∧ (activeMoves (eng s 0) (bundleAt s 0)).any (sourceStalls s 0) = true := by decide +kernel
def sEmit : State := sCode (oneMove (1 * 2 ^ 13 + 0x310)) {}
theorem witness_BundleFaults : issues sEmit = true ∧ (bundleAt sEmit 0).rpt = false ∧ (evalBundle sEmit 0 0 (bundleAt sEmit 0) none).stall = false ∧
    firstFault (evalBundle sEmit 0 0 (bundleAt sEmit 0) none).flt (returnFault 0 (evalBundle sEmit 0 0 (bundleAt sEmit 0) none)) = some ⟨20, 0, 1, 0, 0, false⟩ ∧ mayEnter 0 (stackErr none) sEmit = true := by decide +kernel
/-- Core 0 loads from the MC bank through the matrix. -/
def sLoad : State := modEng 0 (fun e => setPort true 0x1A0 4 { e with segs := e.segs ++ [(4, ⟨0x400000, 0, 0xFFFF, 7⟩)] }) (sCode (oneMove (1 * 2 ^ 13 + 0x1B0)) {})
theorem witness_BundleLoads : let q := evalBundle sLoad 0 0 (bundleAt sLoad 0) none
    issues sLoad = true ∧ (bundleAt sLoad 0).rpt = false ∧ q.stall = false ∧ firstFault q.flt (returnFault 0 q) = none ∧ (firstAccess q.needs).map (fun a => a.addr) = some 0x400000 := by decide +kernel
theorem witness_BundleMoves : (let s := sCode (oneMove g1to2) {}; (bundleAt s 0).rpt = false ∧ activeMoves (eng s 0) (bundleAt s 0) = [⟨0, false, 0, 1, 2⟩] ∧ gReady (eng s 0) 1 = true) ∧
    (let s := sCode (repeated g1to2 3) {}; (bundleAt s 0).rpt = true ∧ activeMoves (eng s 0) (bundleAt s 0) = [⟨0, false, 0, 1, 2⟩] ∧ immOf (bundleAt s 0) = 3) ∧
    (let s := sCode (repeated g1to2 3) { rptLive := true, rptc := 1 }; (bundleAt s 0).rpt = true ∧ (eng s 0).rptLive = true ∧ (eng s 0).rptc.toNat = 1 ∧ interruptDue s 0 = none) ∧
    (let s := sCode (repeated g1to2 0) {}; (bundleAt s 0).rpt = true ∧ (eng s 0).rptLive = false ∧ immOf (bundleAt s 0) = 0) := by decide +kernel

def sLate : State := sCode (oneMove g1to2) { late := [⟨0x20, 3⟩] }
def sBell : State := sCode (oneMove g1to2) { ie := true, bell := 1 }
def sFsp (fsp : Word) : State := sCode (oneMove g1to2) { fsp := fsp }
theorem witness_EntriesAreDue : (∀ s ∈ [sLate, sBell], lanesUp s = true ∧ mayRun s 0 = true ∧ mayEnter 0 none s = true ∧ atBoundary (eng s 0) = true) ∧ (eng sLate 0).late = [⟨0x20, 3⟩] ∧
    asyncPending (eng sBell 0) = false ∧ (eng sBell 0).ie = true ∧ repeatHolds sBell 0 = false ∧ (eng sBell 0).bell ≠ 0 ∧ residueBase 0 (0x100 : BitVec 13).toNat ≠ none := by decide +kernel
/-- No segment is valid where descriptor 3 of the fault stack has V = 0. -/
def sNoStack : State := modEng 0 (fun e => { e with segs := [] }) (sCode (oneMove g1to2) { fsp := 47 })
theorem witness_EntryStacksTheContextAndVectors : bit (seg (eng (drain 0 sNoStack) 0) 3).w3 0 = false ∧
    (let x := eng (drain 0 (sFsp 47)) 0; bit (seg x 3).w3 0 = true ∧ x.fsp.toNat < 48) ∧
    (let x := eng (drain 0 (sCode (oneMove g1to2) { fsp := 0xE010 })) 0; bit (seg x 3).w3 0 = true ∧ 48 ≤ x.fsp.toNat ∧ segCheck (seg x 3) (x.fsp.toNat - 48) 48 permW ≠ 0) ∧
    (let u := drain 0 (sFsp 48); let x := eng u 0; bit (seg x 3).w3 0 = true ∧ 48 ≤ x.fsp.toNat ∧ segCheck (seg x 3) (x.fsp.toNat - 48) 48 permW = 0 ∧
      stackError u 0 (segBase (seg x 3) + (x.fsp.toNat - 48)) true none = none ∧ x.parkDue = false ∧ fetchFault u 0 (0xFC00 + 16 * 63) none = none) := by decide +kernel
def sReturn (top : Word) : State := setBytes (0x10010000 + 44) (leBytes 4 top.toNat) (sCode (oneMove g1to2) { after := some (.ret 0 0) })
theorem witness_ReturnRestoresTheContext : (∀ s ∈ [sReturn 49, sReturn 48], (eng s 0).run = .running ∧ domLost s 8 = false ∧ (eng s 0).matrix = none ∧ (eng s 0).after = some (.ret 0 0) ∧ canDrain (eng s 0) = true ∧ (eng s 0).parkDue = false ∧ stackHeld s 0 (eng s 0).fsp.toNat false none = false) ∧
    (let u := drain 0 (modEng 0 unheld (sReturn 49)); wordOf (seenBytes u 0 0x10010000 48) 11 ≠ (eng u 0).fsp + 48) ∧
    (let u := drain 0 (modEng 0 unheld (sReturn 48)); let x := eng u 0; segBase (seg x 3) + x.fsp.toNat = 0x10010000 ∧ segCheck (seg x 3) x.fsp.toNat 48 permR = 0 ∧
      stackError u 0 0x10010000 false none = none ∧ wordOf (seenBytes u 0 0x10010000 48) 11 = x.fsp + 48 ∧ badTarget x (wordOf (seenBytes u 0 0x10010000 48) 0).toNat = false) ∧
    (let u := drain 0 (modEng 0 unheld (setBytes 0x10010000 [8, 0, 0, 0] (sReturn 48))); badTarget (eng u 0) (wordOf (seenBytes u 0 0x10010000 48) 0).toNat = true) := by decide +kernel

def sStore : State := setEng 0 { run := .running, stores := [⟨0x10010000, [1]⟩], delay := some 9, ops := [⟨0x100, false, [(0x100, 5)], none, none, [(1, 0x100, 0)], false⟩] } r
/-- The store goes to the MC bank, which an engine of a lane reaches through the matrix only; the lane's SRAM is in RET. -/
def sStoreOff : State := { setEng 0 { run := .running, stores := [⟨0x14000000, [1]⟩] } r with power := [(3, { st := 1 })] }
theorem witness_ResultsAndStoresLeaveInOrder : lanesUp sStore = true ∧ (0x100 : BitVec 13) ≠ 0x1C00 ∧ (eng sStore 0).ops = [⟨(0x100 : BitVec 13).toNat, false, [(0x100, 5)], none, none, [(1, 0x100, 0)], false⟩] ∧
    (eng sStore 0).stores = [⟨0x10010000, [1]⟩] ∧ engPath 0 (targetOf sStore 0x10010000) = 0 ∧ targetOn sStore (targetOf sStore 0x10010000) = true ∧ (eng sStore 0).delay = some 9 ∧
    lanesUp sStoreOff = true ∧ (eng sStoreOff 0).stores = [⟨0x14000000, [1]⟩] ∧ engPath 0 (targetOf sStoreOff 0x14000000) = 0 ∧ targetOn sStoreOff (targetOf sStoreOff 0x14000000) = false := by decide +kernel
/-- Core 0 emits; nothing lets its symbols go, so that the emit waits until the stop of the stream ends it. -/
theorem witness_EmitWaitFault : mayRun sEmit 0 = true ∧ atBoundary (eng sEmit 0) = true ∧ asyncPending (eng sEmit 0) = false ∧ interruptDue sEmit 0 = none ∧ holds (eng sEmit 0) = false ∧ fetchFault sEmit 0 0 none = none ∧
    encodingFault sEmit 0 (fetchBundle sEmit 0 0) = none ∧ (bundleAt sEmit 0).rpt = false ∧ (evalBundle sEmit 0 0 (bundleAt sEmit 0) none).ended = some ⟨20, 0, 1, 0, 0, false⟩ ∧ mayEnter 0 none sEmit = true := by decide +kernel

def sEc (trig : Nat) (sel : Word) (x : Engine) : State := setEng 0 x (setEng 1024 { engDefault 1024 with ops := [⟨0x800, true, [(0x808, 0)], none, some ⟨trig, 0x40, sel, 0⟩, [], false⟩] } r)
theorem witness_EngineControl : (∀ s ∈ [sEc 0 0 {}, sEc 1 0 { run := .stuck }, sEc 2 0 {}, sEc 3 0 {}, sEc 0 0x20000000 {}], domLost s 8 = false ∧ domLost s (engLane 0 / 8) = false ∧ (eng s 1024).ops.length = 1) ∧
    ecTarget 0 = some 0 ∧ ecTarget 0x20000000 = none ∧ (eng (sEc 2 0 {}) 0).run ≠ .stuck ∧ ecState (sEc 1 0 { run := .stuck }) 0 = 3 ∧ ecState (sEc 1 0 {}) 0 = 0 ∧
    ecState (sEc 1 0 { run := .stuck, stores := [⟨0, [1]⟩] }) 0 = 2 ∧ domLost (setDom 0 { inReset := true } (sEc 0 0 {})) (engLane 0 / 8) = true ∧ (∀ b ∈ [true, false], (eng (sEc 2 0 { entering := b }) 0).entering = b) := by decide +kernel
def sQueue : State := setEng 0 { queue := [⟨0, 0x2000000000, 1, none, none, none, []⟩] } r
theorem witness_DataQueue : (∀ s ∈ [sQueue, setDom 10 { good := false } sQueue], lanesUp s = true ∧ (eng s 0).queue = [⟨0, 0x2000000000, 1, none, none, none, []⟩] ∧ targetOf s 0x2000000000 = .hbm 0) ∧ engKey (.core 0) < 1024 ∧
    domLost sQueue 10 = false ∧ domLost (setDom 10 { good := false } sQueue) 10 = true ∧ targetOn r (targetOf r 0x14000000) = true ∧ targetOn sStoreOff (targetOf sStoreOff 0x14000000) = false := by decide +kernel

def sStarted : State := setLane 0 { started := [3] } r
theorem witness_ThreadsStartOnce : Takes r (lnPage 0) .mcA ∧ Takes sStarted (lnPage 0) .mcA ∧ (∀ u : Fin 8, bit (rdReg r (lnPage 0) 0x700) u.val = true → u.val ∈ (lane r 0).started) ∧
    (∀ u : Fin 8, bit (rdReg sStarted (lnPage 0) 0x700) u.val = true → u.val ∈ (lane sStarted 0).started) ∧ 3 ∈ (lane sStarted 0).started ∧ 3 ∉ (lane r 0).started ∧ (eng r (512 + 3)).run = .off ∧ bit (rdReg r devPage 0x700) 29 = false ∧ bit (rdReg (wrReg devPage 0x700 0x20000000 r) devPage 0x700) 29 = true :=
  ⟨takes_of (by decide +kernel), takes_of (by decide +kernel), by decide +kernel⟩
def lookup0 : Lookup := ⟨0, ⟨5, 0, 0⟩, none, false⟩
def sLookup (h : SMap (Option AhEntry)) : State := setLane 0 { lookups := [lookup0], ah := h } (setChan 0 { results := [⟨5, 0, 0⟩] } r)
theorem witness_LookupsFindTheirAddress : (let s := sLookup [(5, some ⟨7, 0⟩)]; lanesUp s = true ∧ (lane s 0).lookups = [lookup0] ∧ resultsDue s 0 5 = true ∧
      5 = (5 + 2 ^ 64 - fld (rdReg s (lnPage 0) 0x1A0) 15 0) % 2 ^ 64 ∧ smGet none (lane s 0).ah (5 % 65536) = some ⟨7, 0⟩ ∧ 0 = 5 / 65536) ∧
    (let s := sLookup []; resultsDue s 0 5 = true ∧ smGet none (lane s 0).ah (5 % 65536) = none) := by decide +kernel

/-! ### Control stores -/

def sSeq (w : Nat) (x : Seq) : State := setStore 0 { low := 2, words := [(0, BitVec.ofNat 256 w)] } (setSeq 0 { x with running := true } r)
theorem witness_MicrowordRuns : ∀ q ∈ [0, 1, 2, 3], let s := sSeq (5 * 2 ^ 243 + q * 2 ^ 240) {}; let x := seqAt s 0; let w := storeWord s 0 x.addr
    lanesUp s = true ∧ seqFree s 0 = true ∧ x.running = true ∧ x.waiting = false ∧ portionRuns s (seqStore 0) x.addr = true ∧ abortCode s 0 x w = 0 ∧ (microSeq w).seq = q := by decide +kernel
theorem witness_MicrowordReturns : let s := sSeq (4 * 2 ^ 240) { stack := [9] }; seqFree s 0 = true ∧ (seqAt s 0).running = true ∧ (seqAt s 0).waiting = false ∧ abortCode s 0 (seqAt s 0) (storeWord s 0 0) = 0 ∧ (microSeq (storeWord s 0 0)).seq = 4 := by decide +kernel
theorem witness_MicrowordWaits : let s := sSeq (5 * 2 ^ 240 + 2 ^ 216) { waiting := true }; let x := seqAt s 0; let m := microSeq (storeWord s 0 0)
    lanesUp s = true ∧ seqFree s 0 = true ∧ x.running = true ∧ x.waiting = true ∧ x.timer = false ∧ portionRuns s 0 0 = true ∧ m.seq = 5 ∧ m.limit ≠ 0 ∧ abortCode s 0 { x with waited := m.limit - 1 } (storeWord s 0 0) = 0 := by decide +kernel
def sSketch : State := setLane 0 { sk := some ⟨0, 1⟩, skDone := [0] } (setEng 512 { ops := [⟨0x1C00, false, [(0x1C00, 5)], none, none, [], false⟩] } (wrReg (storePage 0) 0x70C 9 r))
theorem witness_SketchEnds : lanesUp sSketch = true ∧ (lane sSketch 0).skDone = [0] ∧ (eng sSketch 512).ops = [⟨0x1C00, false, [(0x1C00, 5)], none, none, [], false⟩] ∧
    (lane sSketch 0).sk = some ⟨0, 1⟩ ∧ rdReg sSketch (storePage 0) 0x70C ≠ 0 := by decide +kernel

/-- Cluster 0's store has been loaded whole with zeros, and LCS_LDDIG hold the words given. -/
def sLoaded (d : Nat → Word) : State := forUpTo 12 (setStore 64 { low := 1, loading := true, ptr := 8192, busy := true } r) (fun j s => wrReg (storePage 64) (0x740 + 4 * j) (d j) s)
theorem sLoaded_stores (d : Nat → Word) : (sLoaded d).stores = (sLoaded (fun _ => 0)).stores := rfl
theorem sLoaded_digest (d : Nat → Word) : loadDigest (sLoaded d) 64 = forUpTo 12 0 (fun j n => n + (d j).toNat * 2 ^ (32 * j)) := by
  have h : ∀ (n j : Nat), n ≤ 12 → j < n → rdReg (forUpTo n (setStore 64 { low := 1, loading := true, ptr := 8192, busy := true } r) (fun j s => wrReg (storePage 64) (0x740 + 4 * j) (d j) s))
      (storePage 64) (0x740 + 4 * j) = d j := by
    intro n
    induction n with
    | zero => intro j _ hj; omega
    | succ n ih =>
      intro j hn hj
      by_cases hjn : j = n
      · subst hjn; exact rdReg_wrReg_same ..
      · exact (rdReg_wrReg_off (by omega) (by omega) (by omega) _ _).trans (ih j (by omega) (by omega))
  have g : ∀ n, n ≤ 12 → forUpTo n 0 (fun j n => n + (rdReg (sLoaded d) (storePage 64) (0x740 + 4 * j)).toNat * 2 ^ (32 * j)) = forUpTo n 0 (fun j n => n + (d j).toNat * 2 ^ (32 * j)) := by
    intro n
    induction n with
    | zero => intro _; rfl
    | succ n ih =>
      intro hn
      show forUpTo n 0 _ + (rdReg (sLoaded d) (storePage 64) (0x740 + 4 * n)).toNat * 2 ^ (32 * n) = forUpTo n 0 _ + (d n).toNat * 2 ^ (32 * n)
      rw [ih (by omega), show rdReg (sLoaded d) (storePage 64) (0x740 + 4 * n) = d n from h 12 n (by omega) (by omega)]
  exact g 12 (by omega)
theorem sLoaded_up (d : Nat → Word) : lanesUp (sLoaded d) = true := by
  have h : ∀ n ≤ 12, rdReg (forUpTo n (setStore 64 { low := 1, loading := true, ptr := 8192, busy := true } r) (fun j s => wrReg (storePage 64) (0x740 + 4 * j) (d j) s)) blPage 0x700 = rdReg r blPage 0x700 := by
    intro n
    induction n with
    | zero => exact fun _ => rfl
    | succ n ih => exact fun hn => (rdReg_wrReg_ne (by decide) (by decide) (by omega) (by decide) (fun h => absurd h.1 (by decide)) _ _).trans (ih (by omega))
  have hd : domLost (sLoaded d) 8 = false := rfl
  simp only [lanesUp, bellowsRuns, hd, show rdReg (sLoaded d) blPage 0x700 = rdReg r blPage 0x700 from h 12 (by omega)]
  decide +kernel
theorem digest_words (x : Nat) (n : Nat) : forUpTo n 0 (fun j m => m + (w32 (x / 2 ^ (32 * j))).toNat * 2 ^ (32 * j)) = x % 2 ^ (32 * n) := by
  induction n with
  | zero => show 0 = x % 2 ^ 0; omega
  | succ n ih =>
    show forUpTo n 0 _ + (w32 (x / 2 ^ (32 * n))).toNat * 2 ^ (32 * n) = _
    rw [ih, show (w32 (x / 2 ^ (32 * n))).toNat = x / 2 ^ (32 * n) % 2 ^ 32 from BitVec.toNat_ofNat .., show 32 * (n + 1) = 32 * n + 32 by omega, Nat.pow_add, Nat.mod_mul, Nat.mul_comm (x / _ % _)]
theorem witness_StoreCommits : ∃ d : Nat → Word, let s := sLoaded d; lanesUp s = true ∧ (store s 64).busy = true ∧ commitError s 64 = 0 := by
  let x := (Config.sha384 (digestBytes (sLoaded (fun _ => 0)) 64 false)).toNat
  refine ⟨fun j => w32 (x / 2 ^ (32 * j)), ?_⟩
  have hs := sLoaded_stores (fun j => w32 (x / 2 ^ (32 * j)))
  have hd : (Config.sha384 (digestBytes (sLoaded (fun j => w32 (x / 2 ^ (32 * j)))) 64 false)).toNat = loadDigest (sLoaded (fun j => w32 (x / 2 ^ (32 * j)))) 64 := by
    rw [sLoaded_digest, digest_words, show 32 * 12 = 384 from rfl, Nat.mod_eq_of_lt (BitVec.isLt _)]
    rfl
  refine ⟨sLoaded_up _, rfl, ?_⟩
  have hx : store (sLoaded (fun j => w32 (x / 2 ^ (32 * j)))) 64 = { low := 1, loading := true, ptr := 8192, busy := true } := rfl
  simp only [commitError, hx]
  rw [if_neg (show ¬ 8192 < storeSize 64 by decide), if_neg (not_not.mpr hd)]
  simp

def sLoading (p : Nat) (b : Bool) : State := setStore 0 { low := 1, loading := true, ptr := p, busy := b } r
theorem witness_StoresLoad : Takes r (storePage 0) .mcA ∧ Takes (sLoading 0 false) (storePage 0) .mcA ∧ Takes r (storePage 0) .pcie ∧ isPair .mcA = true ∧ isPair .pcie = false ∧
    beginRefused r 0 false false = false ∧ beginRefused r 0 true false = true ∧ (store (sLoading 0 false) 0).loading = true ∧ lanesUp (sLoading 0 true) = true ∧
    (store (sLoading 0 true) 0).busy = true ∧ commitError (sLoading 0 true) 0 ≠ 0 :=
  ⟨takes_of (by decide +kernel), takes_of (by decide +kernel), takes_of (by decide +kernel), by decide +kernel⟩

def sScrub : State := wrReg scrubPage 0x700 1 r
theorem witness_ScrubReads : domLost sScrub 8 = false ∧ bit (rdReg sScrub scrubPage 0x700) 0 = true ∧ domLost sScrub (10 + (3 : Fin 4).val) = false := by decide +kernel
/-- The timebase of cluster 7, of channel 0, has a tile's mark 5 of interval 2; the table at the start of HBM holds a mark and an index. -/
def sMark (failed : Bool) (idx mark : Nat) (act : Bool) : State := setBytes 0x2000000000 (leBytes 4 mark ++ leBytes 4 idx)
  { setBase 7 { marks := [⟨0, 2, 5⟩] } (setChan 0 { marks := some ⟨act, true, 4⟩, markStop := act, stream := .running } r) with tables := [(0, ⟨0x2000000000, 0, failed⟩)] }
theorem witness_MarksCompare : (∀ s ∈ [sMark true 2 5 false, sMark false 1 5 false, sMark false 2 5 false, sMark false 2 6 false, sMark false 2 6 true], lanesUp s = true ∧ (base s 7).marks = [⟨0, 2, 5⟩]) ∧
    tableUp (sMark true 2 5 false) 0x2000000000 = true ∧ (smGet {} (sMark true 2 5 false).tables 0).failed = true ∧ (smGet {} (sMark false 1 5 false).tables 0).failed = false ∧ leNat (memBytes (sMark false 1 5 false) 0x2000000004 4) = 1 ∧
    leNat (memBytes (sMark false 2 5 false) 0x2000000004 4) = 2 ∧ leNat (memBytes (sMark false 2 5 false) 0x2000000000 4) = (5 : Word).toNat ∧ leNat (memBytes (sMark false 2 6 false) 0x2000000000 4) = 6 ∧
    (chan (sMark false 2 6 false) 0).marks = some ⟨false, true, 4⟩ ∧ (chan (sMark false 2 6 true) 0).marks = some ⟨true, true, 4⟩ ∧ (chan (sMark false 2 6 true) 0).markStop = true ∧
    domLost (sMark false 2 6 true) (tileOf 0) = false := by decide +kernel

/-! ### Fail capture and Weld -/

def fails0 : LaneEvent := .fails 5 (some 9) [⟨2, 1, 3, 0⟩]
/-- Lane 60 + 4 wraps to the first lane of cluster 7's list; cluster 0 and its first lane are used here. -/
def l0 : Nat := laneOfCluster 0 0
/-- Cluster 0 with capture on or off, FP running or not, a site's configuration and a lane. -/
def sFail (on fp : Bool) (site : Word) (x : Lane) : State :=
  setLane l0 x (setStore 64 { low := if fp then 2 else 0 } (wrReg (clPage 0) 0x404 site (wrReg (clPage 0) 0x120 (if on then 0x80000004 else 0) r)))
def open0 (m : Nat) : FailRec := ⟨false, false, 1, 1, m, 0, 5, 5, 9⟩
theorem witness_FailPipelineFormsRecords : l0 = laneOfCluster 0 (0 : Fin 8).val ∧
    (let s := sFail false true 0 { events := [fails0] }; lanesUp s = true ∧ (lane s l0).events = [fails0] ∧ captureOn s 0 = false) ∧
    (let s := sFail true true 0 { events := [.mark 5 1] }; lanesUp s = true ∧ (lane s l0).events = [.mark 5 1] ∧ captureOn s 0 = true) ∧
    (let s := sFail true false 0 { events := [fails0] }; lanesUp s = true ∧ (lane s l0).events = [fails0] ∧ captureOn s 0 = true ∧ fpRuns s 0 = false) ∧
    (lane (sFail true true 0 { open_ := [open0 1] }) l0).open_ = [open0 1] := by decide +kernel
def sSite (c : Word) : State := sFail true true c { events := [fails0] }
theorem witness_FailOfSite : lanesUp (sSite 0) = true ∧ (lane (sSite 0) l0).events = [fails0] ∧ captureOn (sSite 0) 0 = true ∧ fpRuns (sSite 0) 0 = true ∧ bit (siteCfg (sSite 0) 0 1) 31 = false := by decide +kernel
theorem witness_FailOfSiteUnmerged : lanesUp (sSite 0x80000000) = true ∧ (lane (sSite 0x80000000) l0).events = [fails0] ∧ captureOn (sSite 0x80000000) 0 = true ∧ fpRuns (sSite 0x80000000) 0 = true ∧
    bit (siteCfg (sSite 0x80000000) 0 1) 31 = true ∧ bit (siteCfg (sSite 0x80000000) 0 1) 29 = false := by decide +kernel
theorem witness_FailOutOfReach : lanesUp (sSite 0xA0000003) = true ∧ (lane (sSite 0xA0000003) l0).events = [fails0] ∧ captureOn (sSite 0xA0000003) 0 = true ∧ fpRuns (sSite 0xA0000003) 0 = true ∧
    bit (siteCfg (sSite 0xA0000003) 0 1) 31 = true ∧ inReach (sSite 0xA0000003) 0 1 (some 9) = none := by decide +kernel
theorem witness_FailJoins : (∀ x ∈ [[], [open0 61]], let s := sFail true true 0xA0000008 { events := [fails0], open_ := x }; lanesUp s = true ∧ (lane s l0).events = [fails0] ∧ captureOn s 0 = true ∧ fpRuns s 0 = true ∧
      bit (siteCfg s 0 1) 31 = true ∧ bit (siteCfg s 0 1) 29 = true ∧ inReach s 0 1 (some 9) ≠ none ∧ (lane s l0).open_ = x ∧ fld (rdReg s (clPage 0) 0x120) 7 0 = 4 ∧ x.length < 4 ∧
      x.find? (fun r => joins r 1 5 (inReach s 0 1 (some 9)) 4) = x.head?) ∧ (open0 61).mcnt < 62 := by decide +kernel

def pool : State := wrReg (clPage 0) 0x714 0x20 r
theorem witness_RecordsGoToTheirBuffer : let s := setLane l0 { buf := some ⟨3, 4094, 0⟩ } pool
    (lane s l0).staging = [] ∧ (lane s l0).buf = some ⟨3, 4094, 0⟩ ∧ 4094 < 4095 ∧ (lane s l0).nullBuf = false ∧ (open0 1).first / 2 ^ 40 = 0 ∧ clusterOfLane l0 = 0 ∧
    hbmUp s (poolBase s 0 + 0x10000 * 3 + 16 * 4094) = true := by decide +kernel
def sAsk (free : List Nat) : State := setLane l0 { asks := true } (setFail 0 { freeList := free, flush := true } r)
theorem witness_BufferPool : lanesUp (sAsk [7]) = true ∧ ((List.range 8).map (fun j => (7 + 1 + j) % 8)).filter (fun j => (lane (sAsk [7]) (laneOfCluster 0 j)).asks) = [0] ∧ (failPipe (sAsk [7]) 0).last = 7 ∧
    (failPipe (sAsk [7]) 0).freeList = [7] ∧ (failPipe (sAsk []) 0).freeList = [] ∧ ((List.range 8).map (fun j => (7 + 1 + j) % 8)).filter (fun j => (lane (sAsk []) (laneOfCluster 0 j)).asks) = [0] ∧
    (failPipe (setFail 0 { closing := [⟨false, 0, 1, 7⟩] } r) 0).closing = [⟨false, 0, 1, 7⟩] ∧ lanesUp (setFail 0 { closing := [⟨false, 0, 1, 7⟩] } r) = true ∧
    (failPipe (sAsk []) 0).flush = true ∧ lanesUp (sAsk []) = true ∧ (failPipe (sAsk []) 0).flushLeft = 0 ∧
    (∀ i : Fin 8, (lane (sAsk []) (laneOfCluster 0 i.val)).staging.contains .flush = false) ∧ (lane (setLane l0 { counts := [(5, 1)] } r) l0).counts = [(5, 1)] ∧
    lanesUp (setLane l0 { counts := [(5, 1)] } r) = true := by decide +kernel
theorem witness_PoolWrites : Takes r (clPage 0) .mcA := takes_of (by decide +kernel)

theorem witness_CaptureCommandsAndCounterWindow : Takes (sFail true true 0 {}) (clPage 0) .mcA ∧ captureOn (sFail true true 0 {}) 0 = true ∧ captureOn r 0 = false :=
  ⟨takes_of (by decide +kernel), by decide +kernel⟩

def region0 : WeldRegion := ⟨1, 0, 4, 1, 1, [⟨2, 0, 3⟩], [⟨2, 0, 3⟩], [], [], []⟩
def sWeld (w : Weld) : State := setStore 64 { low := 2 } (setWeld 0 w r)
theorem witness_WeldCommands : Takes (sWeld {}) (wdPage 0) .mcA ∧ Takes (sWeld { solving := some 1 }) (wdPage 0) .mcA ∧ Takes (sAsk [7]) (wdPage 0) .mcA ∧ (weld (sWeld {}) 0).input = [] ∧ weldFree (weld (sWeld {}) 0) = true ∧
    weldRuns (sWeld {}) 0 = true ∧ (weld (sWeld {}) 0).solving = none ∧ (∀ x ∈ (weld (sWeld {}) 0).regions, x.site = 1 → x.state ≠ 1 ∧ x.state ≠ 5) ∧ solveBusy (weld (sWeld { solving := some 1 }) 0) = true ∧
    (failPipe (sAsk [7]) 0).freeList.contains (fld (7 : Word) 11 0) = true ∧ (failPipe (sWeld {}) 0).freeList.contains (fld (0x1007 : Word) 11 0) = false ∧ fld (0x1007 : Word) 24 12 = 1 ∧ fld (7 : Word) 24 12 = 0 :=
  ⟨takes_of (by decide +kernel), takes_of (by decide +kernel), takes_of (by decide +kernel), by decide +kernel⟩
theorem witness_WeldStarts : (∀ s ∈ [sWeld { st := 1 }, sWeld { st := 2 }], weldSt s 0 ≠ 0 ∧ weldSt s 0 ≠ 3) ∧ weldSt (sWeld { st := 3 }) 0 = 3 ∧ (weld (sWeld { st := 3 }) 0).st = 3 ∧ weldSt (sWeld {}) 0 = 0 ∧ (weld (sWeld {}) 0).st = 0 ∧
    weldSt (sWeld { solving := some 1 }) 0 = 0 ∧ (weld (sWeld { solving := some 1 }) 0).solving ≠ none ∧ (weld (sWeld { solving := some 1 }) 0).st ≠ 3 ∧ weldRuns r 0 = false ∧ weldSt r 0 = 0 := by decide +kernel
theorem witness_WeldEngine : lanesUp (sWeld { st := 1 }) = true ∧ weldRuns (sWeld { st := 1 }) 0 = true ∧ (weld (sWeld { st := 1 }) 0).st = 1 ∧ (weld (sWeld { st := 1 }) 0).input = [] ∧
    (∀ x ∈ [WeldItem.record 0 (open0 1), .replay 5 0 2], let s := sWeld { st := 2, input := [x] }; lanesUp s = true ∧ weldRuns s 0 = true ∧ weldFree (weld s 0) = true ∧ (weld s 0).input = [x]) ∧
    (∀ b ∈ [true, false], let s := sWeld { st := 2, regions := [region0], solving := some 1, toVisit := [4], searching := b }; lanesUp s = true ∧ weldRuns s 0 = true ∧ (weld s 0).input = [] ∧ (weld s 0).solving = some 1 ∧
      (weld s 0).toVisit = [4] ∧ findRegion (weld s 0) 1 4 = some region0 ∧ ((weld s 0).searching = true ∨ (weldFree (weld s 0) = true ∧ (geometry s 0 region0.geo).hsolve = false ∧ region0.state = 1))) := by decide +kernel

def geo0 (sr : Nat) : Geometry := ⟨4, 4, sr, 0, false, false, false, 0⟩
theorem witness_WeldSearchIsBest : region0.rows.length ≤ (geo0 1).sr ∧ region0.cols.length ≤ (geo0 1).sc ∧
    (∃ rows : List Nat, ∃ cols : List (Nat × Nat), rows.length ≤ (geo0 1).sr - region0.rows.length ∧ cols.length ≤ (geo0 1).sc - region0.cols.length ∧ ∀ c ∈ region0.pend, c.row ∈ rows ∨ (c.q, c.col) ∈ cols) ∧
    (∀ (rows : List Nat) (cols : List (Nat × Nat)), ¬ (rows.length ≤ (geo0 0).sr - region0.rows.length ∧ cols.length ≤ (geo0 0).sc - region0.cols.length ∧ ∀ c ∈ region0.pend, c.row ∈ rows ∨ (c.q, c.col) ∈ cols)) := by
  refine ⟨by decide, by decide, ⟨[2], [], by decide, by decide, by decide⟩, ?_⟩
  rintro rows cols ⟨h1, h2, h3⟩
  have h1 : rows = [] := List.length_eq_zero_iff.mp (Nat.le_zero.mp h1)
  have h2 : cols = [] := List.length_eq_zero_iff.mp (Nat.le_zero.mp h2)
  subst h1 h2
  simpa using h3 ⟨2, 0, 3⟩ (by decide)

/-! ### Memories, the matrix and Hang -/

def trans0 (w : Bool) (a busy : Nat) : Trans := ⟨.mcA, 1, w, a, if w then [1, 2, 3, 4] else [], 4, targetOf r a, .plain, 0, busy, true⟩
def sTrans (t : Trans) : State := { r with trans := [t] }
theorem witness_MatrixAnswers : domLost r 8 = false ∧ (∀ t ∈ [trans0 false 0x800000 14, trans0 false 0x800000 15, trans0 true 0x800000 0, trans0 false 0x30000000 0], let u := grantAll (sTrans t); u.trans[0]? = some t ∧
      (if t.target = .none then placed u 0 t true else t.granted) = true ∧ (sTrans t).trans[0]? = some t ∧ domLost (sTrans t) 8 = false ∧ replyWaits u t = false ∧ replyWaits (sTrans t) t = false) ∧
    transError (grantAll (sTrans (trans0 false 0x30000000 0))) (trans0 false 0x30000000 0) = some .decode ∧
    (∀ t ∈ [trans0 false 0x800000 14, trans0 false 0x800000 15, trans0 true 0x800000 0], let u := grantAll (sTrans t); transError u t = none ∧ transError (sTrans t) t = none ∧ mramWaits u t.target t.addr t.len t.write = false ∧
      t.use = .plain ∧ t.target = .hostBank ∧ replyWaits (eccMeets t.target .uncorrectable u) t = false) ∧
    (∀ t ∈ [trans0 false 0x800000 14, trans0 false 0x30000000 0], (grantAll (sTrans t)).now ≤ t.since + timeLimit t.target ∧ placed (sTrans t) 0 t true = true) ∧
    (let t := trans0 false 0x800000 14; let u := grantAll { sTrans t with now := 1000000000 }; u.trans[0]? = some t ∧ t.since + timeLimit t.target < u.now) ∧
    mayCollide .hostBank = true ∧ mayFailEcc .hostBank = true ∧ (trans0 false 0x800000 14).busy < 15 ∧ 15 ≤ (trans0 false 0x800000 15).busy ∧ (trans0 false 0x800000 14).write = false ∧ (trans0 false 0x800000 15).write = false := by decide +kernel

theorem witness_PowerRequests : Takes r memPage .mcA ∧ pwrFields 0x700 = (3, 0) ∧ (∀ j, j < 3 → j ≠ 2 → fld (0x10 : Word) (2 * j + 1) (2 * j) = (powerOf r (0 + j)).st ∧ (powerOf r (0 + j)).st < 3) ∧
    pwrFields 0x714 = (8, 67) ∧ (∀ j, j < 8 → j ≠ 7 → fld (0x4000 : Word) (2 * j + 1) (2 * j) = (powerOf r (67 + j)).st ∧ (powerOf r (67 + j)).st < 3) :=
  ⟨takes_of (by decide +kernel), by decide +kernel⟩
theorem witness_PowerTransitions : (powerOf { r with power := [(0, ⟨0, some 2⟩)] } (regionNo .host)).goal = some 2 ∧ domLost { r with power := [(0, ⟨0, some 2⟩)] } 8 = false ∧
    WipeCause.glitch ≠ .lifecycle ∧ ({ r with wiping := true } : State).wiping = true := by decide +kernel
theorem witness_Remap : Takes r mxPage .mcA := takes_of (by decide +kernel)

def sTongs (x : TongsChan) : State := setTg 0 x (wrReg tongsPage 0x710 8 (wrReg tongsPage 0x708 0x800100 (wrReg tongsPage 0x700 0x800000 r)))
theorem witness_TongsCommands : Takes (sTongs { running := true }) tongsPage .mcA ∧ Takes (sTongs {}) tongsPage .mcA ∧ Takes r tongsPage .mcA ∧ (tgChan (sTongs { running := true }) 0).running = true ∧ (tgChan (sTongs {}) 0).running = false ∧
    (tgChan r 0).running = false ∧ tgRefused (sTongs {}) 0 = 0 ∧ tgRefused r 0 = 6 ∧ ¬ ((0 : Fin 8).val = 7 ∧ r.snap.running = true) :=
  ⟨takes_of (by decide +kernel), takes_of (by decide +kernel), takes_of (by decide +kernel), by decide +kernel⟩
/-- A transfer with 104 bytes left that no single burst covers. -/
theorem witness_BurstLen : (0 : Nat) < 104 ∧ 104 % 8 = 0 ∧ 0x8000F8 % 8 = 0 ∧ 0x800110 % 8 = 0 := by decide
theorem witness_TongsCopies : (∀ x ∈ [({ running := true, abort := true } : TongsChan), { running := true, acked := 8 }], domLost (sTongs x) 8 = false ∧ tgChan (sTongs x) 0 = x ∧ x.running = true ∧ x.chaining = false ∧ tgFlight (sTongs x) 0 = 0 ∧ x.data = []) ∧
    (let s := sTongs { running := true, acked := 8 }; tgLen s 0 ≤ (tgChan s 0).acked ∧ (tgChan s 0).abort = false ∧ bit (rdReg s tongsPage 0x71C) 28 = false) ∧
    (let s := modReg tongsPage 0x71C (fun w => setBit w 28 true) (sTongs { running := true, acked := 8 }); domLost s 8 = false ∧ (tgChan s 0).running = true ∧ (tgChan s 0).chaining = false ∧ tgFlight s 0 = 0 ∧ (tgChan s 0).data = [] ∧
      tgLen s 0 ≤ (tgChan s 0).acked ∧ (tgChan s 0).abort = false ∧ bit (rdReg s tongsPage 0x71C) 28 = true ∧ (tgChan s 0).last = false) := by decide +kernel
def sSnap (x : SnapUnit) (dst : Word) : State := { wrReg snapPage 0x708 dst (wrReg snapPage 0x710 1 (wrReg snapPage 0x700 0x800000 r)) with snap := x }
theorem witness_Snapshots : Takes r snapPage .mcA ∧ (let s := sSnap { running := true } 0x810000; domLost s 8 = false ∧ s.snap.captured = false ∧ s.snap.running = true ∧ listWaits s = false ∧ listError (reach s.snap.atT s) none = none ∧
      listError (reach s.snap.atT s) (some .ecc) ≠ none ∧
      (∀ p ∈ snapList (reach s.snap.atT s), pageError (reach s.snap.atT s) p ≠ some .decode) ∧ hangSplits (reach s.snap.atT s) (snapList (reach s.snap.atT s)) (reach s.snap.atT s).now = false) ∧
    (let s := sSnap { running := true, captured := true, list := [0], words := [[1]] } 0x810000; domLost s 8 = false ∧ s.snap.running = true ∧ s.snap.captured = true ∧ (∀ b : Fin 2, executing s b.val = false) ∧
      (snapStore s.snap.words (snapAddr s 0x708) s).1 = none) ∧
    (let s := sSnap { running := true, captured := true, list := [0], words := [[1]] } 0x30000000; domLost s 8 = false ∧ s.snap.running = true ∧ s.snap.captured = true ∧ (∀ b : Fin 2, executing s b.val = false) ∧
      (snapStore s.snap.words (snapAddr s 0x708) s).1 ≠ none) :=
  ⟨takes_of (by decide +kernel), by decide +kernel⟩

/-- Page 0x100 belongs to group 3; slot 2 is asked for, and slot 1 is armed with a page of lane scrambles. -/
def lp : Nat := lscrPage 5
def sHang : State := { wrReg lp 0x02C 0x103 r with hangAsk := some ⟨2, 2, 3, 0, 1000 * us, 0, 0, 0, 0⟩ }
def sNoGroup : State := { r with hangAsk := some ⟨2, 2, 3, 0, 1000 * us, 0, 0, 0, 0⟩ }
def sArmed : State := setHang 1 { st := 1, group := 3, h := 5, pages := [lp], left := [lp] } r
theorem witness_HangWrites : Takes r hangPage .mcA ∧ fld (0x02000320 : Word) 5 4 ≠ 3 := ⟨takes_of (by decide +kernel), by decide⟩
theorem witness_HangDecision : domLost sHang 8 = false ∧ sHang.hangAsk = some ⟨2, 2, 3, 0, 1000 * us, 0, 0, 0, 0⟩ ∧ hangError { sHang with hangAsk := none } ⟨2, 2, 3, 0, 1000 * us, 0, 0, 0, 0⟩ (groupPages sHang 3) true = none ∧
    domLost sNoGroup 8 = false ∧ sNoGroup.hangAsk = some ⟨2, 2, 3, 0, 1000 * us, 0, 0, 0, 0⟩ ∧
    hangError { sNoGroup with hangAsk := none } ⟨2, 2, 3, 0, 1000 * us, 0, 0, 0, 0⟩ (groupPages sNoGroup 3) true = some (7, none) ∧ (hangSlot sNoGroup 2).st ≠ 1 := by decide +kernel
def sLost : State := setHang 1 { st := 1, group := 3, h := 5, pages := [lp], left := [lp], lost := [lp] } r
theorem witness_HangSwitches : (∀ s ∈ [sArmed, sLost], domLost s 8 = false ∧ (hangSlot s 1).st = 1 ∧ lp ∈ (hangSlot s 1).left ∧ switchNext s 5 lp = true ∧ (hangSlot s 1).h = 5) ∧ lp = (BitVec.ofNat 14 lp).toNat ∧
    pageAt lp = some ⟨.lscr, 5⟩ ∧ hasBank .lscr = true ∧ domLost sArmed (pageDomain ⟨.lscr, 5⟩) = false ∧ lp ∉ (hangSlot sArmed 1).lost ∧ lp ∈ (hangSlot sLost 1).lost ∧
    (hangSlot sArmed 2).st ≠ 1 ∧ lp + 1 ∉ (hangSlot sArmed 1).left := by decide +kernel
theorem witness_CopyCompletes : let s := { r with copies := [[lp]] }; domLost s 8 = false ∧ s.copies = [[lp]] ∧ pageAt lp = some ⟨.lscr, 5⟩ := by decide +kernel

/-! ### The fabric -/

def frame0 (type : BitVec 5) (dst : BitVec 16) : Frame := ⟨dst, 9, BitVec.ofNat 3 ((typeVc type.toNat).getD 0), type, 0, 1, 5, false, 0xC00000, [1, 0, 0, 0]⟩
/-- A node 4 whose manager is node 9, with port 2 as given. -/
def sPort (x : Port) : State := setPortAt 2 x (wrReg fbPage 0x710 9 (wrReg fbPage 0x700 4 r))
theorem witness_PortsFollowTheirStates : (∀ n ∈ [1, 2, 3, 4], domLost (sPort { st := n }) 9 = false ∧ (port (sPort { st := n }) 2).st = n ∧ (sPort { st := n }).tapFault = false) ∧
    bit (rdReg (wrReg (fbpPage 2) 0x700 1 (sPort { st := 3 })) (fbpPage 2) 0x700) 0 = true ∧ domLost (wrReg (fbpPage 2) 0x700 1 (sPort { st := 3 })) 9 = false ∧
    (port (wrReg (fbpPage 2) 0x700 1 (sPort { st := 3 })) 2).st ≠ 0 := by decide +kernel
theorem witness_Retrain : Takes (wrReg (fbpPage 2) 0x700 1 (sPort { st := 3 })) (fbpPage 2) .mcA := takes_of (by decide +kernel)

theorem witness_FrameBytes : (frame0 3 4).payload.length ≤ 256 := by decide
/-- The port after it has accepted frame 0. -/
def uPort : State := setPortAt 2 { st := 3, rxSeq := 1 } (sPort { st := 3 })
theorem witness_FramesAreTaken : (∀ f ∈ [frame0 3 4, frame0 3 7, { frame0 0x14 0xFFFF with payload := [] }, frame0 0x1F 4], frameOf (wireOf f) = some f) ∧ frameOf (List.replicate 20 0) = none ∧
    (∀ x ∈ [({ st := 3 } : Port), { st := 3, rxSeq := 4095 }], let v := countFec 2 ⟨0, 0⟩ (sPort x); port v 2 = x ∧ domLost (sPort x) 9 = false) ∧
    (frame0 3 4).lseq.toNat = 0 ∧ (frame0 3 4).vc ≠ 7 ∧ typeVc 3 = some (frame0 3 4).vc.toNat ∧ (3 : BitVec 5).toNat ≠ 0x10 ∧ portRouted 3 = false ∧ (frame0 3 4).dst.toNat = node uPort ∧ node uPort ≠ 0 ∧
    (frame0 3 7).dst.toNat ≠ node uPort ∧ (frame0 0x14 0xFFFF).dst = 0xFFFF ∧ (frame0 0x14 0xFFFF).vc ≠ 7 ∧ typeVc 0x14 = some (frame0 0x14 0xFFFF).vc.toNat ∧ portRouted 0x14 = false ∧ typeVc 0x1F = none := by decide +kernel
def sGot (f : Frame) : State := { sPort { st := 3 } with fabric := { delivered := [⟨2, f⟩] } }
def assign0 (s : State) : Frame := { frame0 0xA 0 with payload := List.replicate 42 0 ++ serialBytes s }
def sNew (f : Frame) : State := { r with fabric := { delivered := [⟨2, f⟩] } }
theorem witness_DiscAndAssign : (∀ s ∈ [sGot (frame0 8 0), sGot (frame0 0xA 0), sNew (frame0 0xA 0), sNew (assign0 r), sGot (frame0 9 0), sGot (frame0 0xB 0), sGot (frame0 0x16 4), sGot (frame0 0x18 4)], domLost s 9 = false) ∧
    (frame0 8 0).type = 8 ∧ (frame0 0xA 0).type = 0xA ∧ node (sGot (frame0 0xA 0)) ≠ 0 ∧ node (sNew (frame0 0xA 0)) = 0 ∧ node (sNew (assign0 r)) = 0 ∧ (assign0 r).type = 0xA ∧
    ((frame0 0xA 0).payload.drop 42).take 8 ≠ serialBytes (sNew (frame0 0xA 0)) ∧ ((assign0 r).payload.drop 42).take 8 = serialBytes (sNew (assign0 r)) ∧
    (sGot (frame0 9 0)).fabric.delivered = [⟨2, frame0 9 0⟩] := by decide +kernel

def agent0 (f : Frame) (data : List Byte) : Trans := ⟨.agent, 9, !data.isEmpty, f.addr.toNat, data, 4, .fabricBank, .agent f, 0, 0, true⟩
theorem witness_AgentReplies : (agent0 (frame0 2 4) [1, 0, 0, 0]).use = .agent (frame0 2 4) ∧ domLost (sGot (frame0 2 4)) 8 = false := by decide +kernel
/-- The same with a route to node 9, and a response that waits on it. -/
def sWaits (f : Frame) : State := modFab (fun x => { x with routes := smPut 0 x.routes 9 0xA000 }) (setPortAt 2 { st := 3, txq := [frame0 7 9] } (sGot f))
theorem witness_RequestsOfNodes : (∀ x ∈ ([1, 2, 3, 4, 5, 6] : List (BitVec 5)), (sGot (frame0 x 4)).fabric.delivered = [⟨2, frame0 x 4⟩] ∧ (frame0 x 4).type = x ∧ domLost (sGot (frame0 x 4)) 9 = false ∧
      responsesWait (sGot (frame0 x 4)) (frame0 x 4).src.toNat = false ∧ domLost (sWaits (frame0 x 4)) 9 = false ∧ (sWaits (frame0 x 4)).fabric.delivered = [⟨2, frame0 x 4⟩] ∧
      responsesWait (sWaits (frame0 x 4)) (frame0 x 4).src.toNat = true) := by decide +kernel
def fab0 : FabTrans := ⟨1, 0, true, 9, 4, 0xC00000, none, true, 0⟩
theorem witness_Responses : (sGot (frame0 7 4)).fabric.outstanding = [] ∧ (frame0 7 4).type = 7 ∧ domLost (sGot (frame0 7 4)) 9 = false ∧
    (let s := modFab (fun x => { x with outstanding := [fab0] }) (sGot (frame0 7 4)); s.fabric.outstanding = [fab0] ∧ s.fabric.delivered = [⟨2, frame0 7 4⟩] ∧ domLost s 9 = false) ∧
    fab0.tag = (frame0 7 4).tag.toNat ∧ fab0.dst = (frame0 7 4).src.toNat ∧ (frame0 0x14 0xFFFF).type = 0x14 ∧ (sGot (frame0 0x14 0xFFFF)).fabHangAsk = none ∧ domLost (sGot (frame0 0x14 0xFFFF)) 9 = false ∧
    ({ sGot (frame0 0x14 0xFFFF) with fabHangAsk := some ⟨7, 3, 3, 0, 0, 0, 9, 1, 0⟩ } : State).fabHangAsk = some ⟨7, 3, 3, 0, 0, 0, 9, 1, 0⟩ ∧ (frame0 0x15 0xFFFF).type = 0x15 := by decide +kernel

def desc0 : List Byte := leBytes 2 9 ++ [3, 0] ++ leBytes 4 4 ++ leBytes 8 0x40107C0 ++ leBytes 8 0xC01000
def sRing (bytes : List Byte) : State := setBytes 0xC00000 bytes (wrReg fbPage 0x72C 1 (wrReg fbPage 0x724 0xC00000 (sPort { st := 3 })))
theorem witness_RingWrites : Takes r fbPage .mcA ∧ Takes r fbrtPage .mcA ∧ Legal .fb 0x700 4 ∧ Legal .fb 0x740 (setBit 0 1 true) ∧ domLost r 9 = false ∧ bit (rdReg r quenchPage 0x700) 1 = false :=
  ⟨takes_of (by decide +kernel), takes_of (by decide +kernel), ⟨_, rfl, by decide +kernel⟩, ⟨_, rfl, by decide +kernel⟩, by decide +kernel⟩
theorem witness_RingIssues : fld (rdReg r fbPage 0x730) 5 0 = fld (rdReg r fbPage 0x72C) 5 0 ∧
    (∀ s ∈ [sRing [], sRing desc0, wrReg fbPage 0x728 1 (sRing [])], domLost s 9 = false ∧ fld (rdReg s fbPage 0x730) 5 0 ≠ fld (rdReg s fbPage 0x72C) 5 0 ∧ node s ≠ 0) ∧
    (let s := setDom 9 { good := false } (sRing []); domLost s 9 = true ∧ fld (rdReg s fbPage 0x730) 5 0 ≠ fld (rdReg s fbPage 0x72C) 5 0) := by decide +kernel
theorem witness_Descriptors : (let u := wrReg fbPage 0x730 1 (wrReg fbPage 0x728 1 (sRing [])); bankOpen u .agent (ringAt u 0) = false) ∧ (let u := wrReg fbPage 0x730 1 (sRing []); bankOpen u .agent (ringAt u 0) = true ∧ descOk u 0 = false) ∧
    (let u := wrReg fbPage 0x730 1 (sRing desc0); bankOpen u .agent (ringAt u 0) = true ∧ descOk u 0 = true) := by decide +kernel
/-- A read waits where the responses outstanding fill the buffer. -/
theorem witness_RingWaits : freeTag r 4096 0 = some 0 ∧ responseFits r true 4 = true ∧
    responseFits (modFab (fun x => { x with outstanding := (List.range 119).map (fun i => { fab0 with tag := i, len := 256 }) }) r) true 256 = false := by decide +kernel
theorem witness_TransactionsTimeOut : r.fabric.outstanding.find? (fun x => x.tag == (1 : BitVec 12).toNat) = none ∧ domLost r 9 = false ∧ domLost (modFab (fun x => { x with outstanding := [fab0] }) r) 9 = false ∧
    (modFab (fun x => { x with outstanding := [fab0] }) r).fabric.outstanding.find? (fun x => x.tag == (1 : BitVec 12).toNat) = some fab0 := by decide +kernel
theorem witness_EmergencyCopies : (let b := emergencyBlock 9 1 2; [b, b, 0].length ≤ 3 ∧ 2 ≤ [b, b, 0].count b ∧ b.toNat / 2 ^ 64 = 0x5A5AC3C35A5AC3C3) := by decide +kernel
theorem witness_Emergencies : (∀ s ∈ [sPort { st := 3 }, wrReg fbPage 0x744 0x80000000 (sPort { st := 3 }), modFab (fun x => { x with seen := [(9, 1)] }) (sPort { st := 3 })], domLost s 9 = false ∧ (port s 2).st = 3) ∧
    acceptedBlock [List.replicate 3 (emergencyBlock 9 1 2)] = some (emergencyBlock (9 : BitVec 16).toNat (1 : BitVec 16).toNat (2 : Byte).toNat) ∧ acceptedBlock [[0, 0, 0]] = none ∧
    (sPort { st := 3 }).fabric.seen.contains (9, 1) = false ∧ bit (rdReg (sPort { st := 3 }) fbPage 0x744) 31 = false ∧ bit (rdReg (sPort { st := 3 }) quenchPage 0x700) 1 = false ∧
    bit (rdReg (wrReg fbPage 0x744 0x80000000 (sPort { st := 3 })) fbPage 0x744) 31 = true ∧ (port (setPortAt 0 { st := 3 } (sPort { st := 3 })) 0).st = 3 ∧
    (modFab (fun x => { x with seen := [(9, 1)] }) (sPort { st := 3 })).fabric.seen.contains (9, 1) = true := by decide +kernel

def sync0 (t2 : Nat) : Frame := { frame0 0x10 0 with payload := leBytes 8 0 ++ leBytes 8 t2 ++ leBytes 8 t2 }
def sChild (t2 : Nat) : State := wrReg fbPage 0x750 0x0000000A (sGot (sync0 t2))
theorem witness_FabricTime : (∀ t ∈ [0, 7], let s := sChild t; let f := sync0 t; let u := freeBuffer 2 f { s with fabric := { s.fabric with delivered := [] } };
      let v := setPortAt 2 { port u 2 with sync := some (0, 5), lastSync := s.now } u;
      domLost s 9 = false ∧ s.fabric.delivered = [⟨2, f⟩] ∧ f.type = 0x10 ∧ parentPort (resumeParent 2 v) = some 2 ∧ leNat ((f.payload.drop (8 * 1)).take 8) = t ∧ leNat ((f.payload.drop (8 * 2)).take 8) = t) := by decide +kernel
theorem witness_ParentResumes : let s := wrReg fbPage 0x754 0x40000000 (sChild 7); domLost s 9 = false ∧ s.fabric.delivered = [⟨2, sync0 7⟩] ∧ bit (rdReg s fbPage 0x754) 30 = true ∧ bit (rdReg s fbPage 0x750) 31 = false ∧
    bit (rdReg s fbPage 0x750) 3 = true ∧ 2 = fld (rdReg s fbPage 0x750) 2 0 := by decide +kernel
theorem witness_Holdover : let s := setPortAt 2 { st := 4 } (wrReg fbPage 0x750 0x0A r); domLost s 9 = false ∧ parentPort s = some 2 ∧ portUp s 2 = false ∧ bit (rdReg s fbPage 0x750) 7 = false ∧
    bit (rdReg s fbPage 0x754) 30 = false ∧ fabManager s = 0 := by decide +kernel

/-! ### Pages, Patina, power -/

theorem witness_PagesRaiseCaptureAndSample : Takes r (hangPage) .mcA ∧ pageAt (BitVec.ofNat 14 hangPage).toNat = some ⟨.hang, 0⟩ ∧ Kind.hang ≠ .test ∧ Takes r (clPage 0) .mcA ∧ wmMask .cl / 2 ^ (3 : Fin 4).val % 2 = 1 ∧
    bit (rdReg r hangPage 0x020) 31 = false ∧ (0x3FFF : BitVec 14).toNat < 2 ^ 14 ∧ clPage 7 = (BitVec.ofNat 14 (clPage 7)).toNat ∧ domLost r 9 = false ∧ pageError r (clPage 7) = none ∧ pageError r (tqPage 7) = none ∧ tqPage 7 = (BitVec.ofNat 14 (tqPage 7)).toNat ∧
    pageError r (fbpPage 7) = none ∧ fbpPage 7 = (BitVec.ofNat 14 (fbpPage 7)).toNat ∧ domLost { r with msixDue := [(0, 1)] } 9 = false ∧
    smGet 0 ({ r with msixDue := [(0, 1)] } : State).msixDue 0 = 1 :=
  ⟨takes_of (by decide +kernel), by decide +kernel, by decide, takes_of (by decide +kernel), by decide +kernel⟩

theorem witness_RegistersTakeWrites : (∃ x, findReg (regsOf .scrub) 0x700 = some x ∧ x.fields ≠ []) ∧ pageAt (BitVec.ofNat 14 scrubPage).toNat = some ⟨.scrub, 0⟩ ∧ Kind.scrub ∈ [Kind.tile, .tpll, .pmark, .scrub] ∧ Takes r scrubPage .mcA ∧
    Takes r (lscrPage 5) .mcA ∧ pageAt (lscrPage 5) = some ⟨.lscr, 5⟩ ∧ (∃ x, findReg (regsOf .lscr) (0x900 - 0x800) = some x ∧ x.bankable = true) ∧ hangArmed r (lscrPage 5) = false ∧ isCal (lscrPage 5) 0x100 = false ∧
    pageError r 0x3FFF = some .decode ∧ pageError (setDom 0 { good := false } r) (chPage 0) = some .domain ∧ pathOk .tongs .regs = false ∧ pathOk .mcA .regs = true ∧ disturbs scrubPage .mcA r = false ∧ Kind.scrub ∉ [Kind.test, .cl, .fb, .fbrt] ∧ pageError r scrubPage = none :=
  ⟨⟨_, rfl, by decide⟩, by decide +kernel, by decide, takes_of (by decide +kernel), takes_of (by decide +kernel), by decide +kernel, ⟨_, rfl, rfl⟩, by decide +kernel⟩

def ev0 (sev : BitVec 4) : PatEvent := ⟨0x2001, sev, 0, false, [1, 2, 3, 4]⟩
def sPat (p : Patina) : State := { r with patina := p }
theorem witness_PatinaRecordsEvents : domLost (sPat {}) 8 = false ∧ (sPat {}).patina.bellows = false ∧ (sPat {}).patina.intake.length < 256 ∧ severe (ev0 3) = true ∧ severe (ev0 0) = false ∧ severe (ev0 6) = false ∧
    (bucket (sPat {}) 0x2001).rate ≠ 0 ∧ (bucket (sPat {}) 0x2001).level ≠ 0 ∧ (bucket (sPat { buckets := [(0x2001, { level := 0 })] }) 0x2001).level = 0 ∧ (bucket (sPat { buckets := [(0x2001, { rate := 0 })] }) 0x2001).rate = 0 ∧
    (sPat { intake := [ev0 0] }).patina.intake = [ev0 0] ∧ (sPat { intake := [ev0 0] }).patina.dropN = 0 ∧ 16 + ((ev0 0).payload.length + 7) / 8 * 8 = 24 ∧ 24 ≤ 65536 - (sPat { ptr := 65512 }).patina.ptr ∧
    (sPat { fill := 57320 }).patina.fill + 24 + 8192 ≤ 65536 ∧ 65536 < (sPat { fill := 57328 }).patina.fill + 24 + 8192 ∧ (bucket (sPat { buckets := [(0x2001, { level := 63 })] }) 0x2001).level < 64 ∧
    (bucket (sPat { buckets := [(0x2001, { level := 63, supp := 2 })] }) 0x2001).supp ≠ 0 ∧
    (let s := sPat { intake := List.replicate 256 (ev0 0) }; domLost s 8 = false ∧ s.patina.bellows = false ∧ 256 ≤ s.patina.intake.length ∧ (bucket s 0x2001).rate ≠ 0 ∧ (bucket s 0x2001).level ≠ 0) := by decide +kernel
/-- An event raised and offered to the intake. -/
def sOffer (p : Patina) (sev : BitVec 4) : State := sPat { p with offers := [(0, ev0 sev)] }
theorem witness_PatinaIntake : arriving r (ev0 0) = none ∧ (∀ p ∈ [({} : Patina), { buckets := [(0x2001, { level := 0 })] }, { buckets := [(0x2001, { rate := 0 })] }, { intake := List.replicate 256 (ev0 0) }], ∀ v ∈ [0, 3],
      let s := sOffer p v; domLost s 8 = false ∧ s.patina.bellows = false ∧ arriving s (ev0 v) = some (0, ev0 v) ∧ s.patina.intake = p.intake) := by decide +kernel
theorem witness_PatinaPads : (let s := sPat { intake := [ev0 0], ptr := 65520 }; s.patina.intake = [ev0 0] ∧ 0 < 65536 - s.patina.ptr ∧ 65536 - s.patina.ptr < 24 ∧ s.patina.fill + 24 + (65536 - s.patina.ptr) + 8192 ≤ 65536) ∧
    24 ≤ 65536 - (sPat { ptr := 65512 }).patina.ptr ∧ 65536 - (sPat { ptr := 65512 }).patina.ptr ≠ 24 + 8 ∧ (dom r 8).good = true ∧ (dom (setDom 8 { good := false } r) 8).good = false ∧
    mramRing r = 0x2200000 ∧ (∀ x ∈ ({ r with taken := [⟨false, 0, .primer⟩] } : State).taken, x.wait ≠ .flush) := by decide +kernel
def sSubmit (words code : Nat) : State := setBytes 0x11F0000 (leBytes 2 code ++ [BitVec.ofNat 8 words]) r
theorem witness_PatinaWrites : Takes r patPage .mcA ∧ Takes r patPage .pcie ∧ isPair .mcA = true ∧ isPair .pcie = false ∧ fld (0x00100008 : Word) 7 0 ≠ 0 ∧
    leNat (((memBytes (sSubmit 1 0x1000) 0x11F0000 256).drop 2).take 1) < 2 ∧ leNat ((memBytes (sSubmit 2 0xFFF) 0x11F0000 256).take 2) < 0x1000 ∧ 32 < leNat (((memBytes (sSubmit 33 0x1000) 0x11F0000 256).drop 2).take 1) ∧
    2 ≤ leNat (((memBytes (sSubmit 32 0x1000) 0x11F0000 256).drop 2).take 1) ∧ leNat (((memBytes (sSubmit 32 0x1000) 0x11F0000 256).drop 2).take 1) ≤ 32 ∧ 0x1000 ≤ leNat ((memBytes (sSubmit 32 0x1000) 0x11F0000 256).take 2) ∧
    (sSubmit 32 0x1000).patina.bellows = false :=
  ⟨takes_of (by decide +kernel), takes_of (by decide +kernel), by decide +kernel⟩

theorem witness_PatinaRings : Takes r patPage .mcA ∧ Takes (sPat { frozen := true }) patPage .mcA ∧ Takes (sPat { auth := true }) patPage .mcA ∧ (sPat { frozen := true }).patina.frozen = true ∧ r.patina.frozen = false ∧ r.patina.freezing = false ∧
    r.patina.auth = false ∧ pairService (sPat { auth := true }) .mcA = true ∧ (sPat { auth := true }).patina.auth = true ∧ (sPat { auth := true }).patina.bellows = false ∧ domLost r 8 = false ∧
    (sPat { flushing := true }).patina.flushing = true ∧ r.patina.flushing = false :=
  ⟨takes_of (by decide +kernel), takes_of (by decide +kernel), takes_of (by decide +kernel), by decide +kernel⟩

def sDown (d : Nat) (x : Domain) : State := setDom d x r
theorem witness_ResetsReachTheirDomains : 5 < 16 ∧ Takes r rstPage .mcA ∧ Takes r rstPage .pcie ∧ fld (0x5A170000 : Word) 31 16 = 0x5A17 ∧ pairService r .mcA = true ∧ pairService r .pcie = false ∧
    fld (0 : Word) 31 16 ≠ 0x5A17 ∧ bit (0x10D : Word) 15 = false ∧ domLost r 8 = false ∧ domLost r 13 = false ∧ (3 : Dom).val ≠ 8 ∧ (dom (sDown 3 { good := false }) 3).good = false ∧ (dom (sDown 8 { good := false }) 8).good = false ∧ domLost (sDown 3 { good := false }) 3 = true ∧ (dom r 3).good = true :=
  ⟨by decide, takes_of (by decide +kernel), takes_of (by decide +kernel), by decide +kernel⟩
theorem witness_BootDoorbell : Takes r devPage .mcA := takes_of (by decide +kernel)
/-- The firmware runs; the domain given has been released and is to be restarted. -/
def sDue (d : Nat) : State := setDom d { due := true } (wrReg devPage 0x700 0x80000000 r)
theorem witness_DomainsRestart : (∀ d ∈ [0, 7, 9, 10, 13], domLost (sDue d) 8 = false ∧ d ≠ 8 ∧ domLost (sDue d) d = false ∧ (dom (sDue d) d).due = true ∧ bit (rdReg (sDue d) devPage 0x700) 31 = true) ∧ (dom r 3).due = false ∧
    thermalHeld { r with thermal := { trip := true } } 3 = true ∧ thermalHeld r 3 = false ∧ (∀ d ∈ [3, 8], (let s : State := { sDown d { good := false } with bellows := { stopped := true } }; (dom s d).good = false ∧ s.bellows.stopped = true) ∧
      (dom (sDown d { good := false }) d).good = false ∧ (sDown d { good := false }).bellows.stopped = false) ∧ (dom (sDown 3 { inReset := true }) 3).inReset = true ∧ (dom r 3).inReset = false := by decide +kernel

def sBellows (b : Bellows) : State := { wrReg blPage 0x700 0x80000000 r with bellows := b }
theorem witness_BellowsStopsTheDevice : Takes r blPage .mcA ∧ bellowsRuns r = false ∧ r.bellows.stopped = false ∧ bit (rdReg (wrReg blPage 0x704 0x80000000 r) blPage 0x704) 31 = true ∧ bit (rdReg (wrReg blPage 0x704 0 r) blPage 0x704) 31 = false ∧
    bellowsRuns (sBellows {}) = true ∧ (sBellows {}).bellows.journal = false ∧ flushEnded (sBellows {}) = true ∧ (sBellows {}).bellows.reset = none ∧
    (let s := sBellows { reset := some default }; bellowsRuns s = true ∧ s.bellows.journal = false ∧ flushEnded s = true ∧ s.bellows.reset = some default) := ⟨takes_of (by decide +kernel), by decide +kernel⟩
theorem witness_BrownoutRestart : (let s : State := { r with bellows := { stopped := true } }; s.bellows.stopped = true ∧ ∀ d, d < 14 → (dom s d).good = true) ∧ (dom (sDown 3 { good := false }) 3).good = false ∧ r.bellows.stopped = false ∧
    r.trans = [] ∧ r.fabric.outstanding = [] ∧ fld (rdReg r fbPage 0x730) 5 0 = fld (rdReg r fbPage 0x72C) 5 0 ∧ (sBellows {}).trans = [] := by decide +kernel

def sHot : State := { r with thermal := { warn := true, trip := true } }
theorem witness_HbmTrainsAndHeatTrips : Takes r (hbmPage 3) .mcA ∧ domLost r (10 + (3 : Fin 4).val) = false ∧ fld (rdReg (wrReg (hbmPage 3) 0x700 0x40000000 r) (hbmPage 3) 0x700) 31 30 = 1 ∧
    domLost (wrReg (hbmPage 3) 0x700 0x40000000 r) 13 = false ∧ sHot.thermal.warn = true ∧ r.thermal.trip = false ∧ (1841 : Int) = (1841 : BitVec 16).toInt ∧ allAtMost (setTemps [] sHot) 1520 = true ∧ sHot.thermal.trip = true ∧
    allAtMost (setTemps [1521] sHot) 1520 = false :=
  ⟨takes_of (by decide +kernel), by decide +kernel⟩

/-! ### Service continuity and the host interface -/

/-- Pair A is active, pair B as given. -/
def sPairs (b : Word) : State := wrReg (mcPage 0) 0x700 0x40000000 (wrReg (mcPage 1) 0x700 b r)
def sFailed : State := sPairs 0xC0000000
theorem witness_PairsChangeTheirRoles : Takes (sPairs 0x80000000) (mcPage 1) .mcA ∧ Takes sFailed (mcPage 1) .mcA ∧ Takes (sPairs 0) (mcPage 1) .mcA ∧ activePair (wrReg (mcPage 0) 0x700 0 (sPairs 0)) = none ∧ activePair (sPairs 0x80000000) = some 0 ∧ domLost (sPairs 0x80000000) 8 = false ∧ role (sPairs 0x80000000) 1 = 2 ∧ role (sPairs 0) 1 ≠ 2 ∧
    (eng (setEng 1024 { run := .stuck } (sPairs 0)) 1024).run = .stuck ∧ (sPairs 0).temper.test = none ∧ (sPairs 0).journal = none ∧ pageError (sPairs 0x80000000) (mcPage 1) = none ∧
    pairService (sPairs 0x80000000) .mcA = true ∧ pairService (sPairs 0x80000000) .pcie = false ∧ role (sPairs 0x80000000) 0 = 1 ∧ role sFailed 1 = 3 ∧ (sPairs 0x80000000).journal = none ∧
    activePair (sPairs 0) = some 0 ∧ domLost (sPairs 0) 8 = false ∧ role (sPairs 0) (1 - 0) ≠ 2 ∧ pairService (sPairs 0) .mcA = true ∧ pairService sFailed .mcA = true ∧ watched (sPairs 0) 0 = true ∧ (chan (sPairs 0) 0).held = false :=
  ⟨takes_of (by decide +kernel), takes_of (by decide +kernel), takes_of (by decide +kernel), by decide +kernel⟩

def sPrimer0 (op : Nat) : State := { r with primer := { op := op } }
def sTest (t : Nat × Nat) : State := { sPairs 0x80000000 with temper := { test := some t } }
theorem witness_TemperTests : domLost r 8 = false ∧ bit (rdReg r temperPage 0x700) 31 = true ∧ bit (rdReg r temperPage 0x700) (targetRow (.channel 5)).1 = true ∧ r.temper.test = none ∧ targetIdle r (targetRow (.channel 5)) = true ∧
    targetIdle (setChan 5 { stream := .armed } r) (1, 5) = false ∧ (sTest (1, 5)).temper.test = some (1, 5) ∧ (sTest (0, 1)).temper.test = some (0, 1) ∧ role (sTest (0, 1)) 1 = 2 ∧ domLost (sTest (0, 1)) 8 = false ∧ domLost (sTest (1, 5)) 8 = false ∧
    chPage 5 ∈ targetPages (1, 5) ∧ (BitVec.ofNat 14 (chPage 5)).toNat = chPage 5 ∧ pageError (sTest (1, 5)) (chPage 5) = none ∧ (∀ q, Master.pcie ≠ .tileSeq q) ∧ Master.pcie ≠ .temper ∧ pathOk .pcie .regs = true ∧ (sPrimer0 1).temper.test = none ∧ (sPrimer0 1).primer.op ≠ 0 := by decide +kernel
def sPrimer (p : PrimerRun) : State := { r with primer := p }
/-- The run of a FULL command that has reached the first position, and an INCR run with two channels left. -/
def full0 : PrimerRun := { op := 1, cur := [0], swept := [0] }
def incr0 : PrimerRun := { op := 2, left := [5, 6] }
theorem noTest_reset : ∀ c, r.temper.test ≠ some (1, c) := fun c h => by simp [State.reset] at h
theorem witness_PrimerCalibrates : Takes r primerPage .mcA ∧ Takes (sPrimer full0) primerPage .mcA ∧ pageError r primerPage = none ∧ pairService r .mcA = true ∧ (∀ c, r.temper.test ≠ some (1, c)) ∧ (sPrimer full0).primer.op ≠ 0 ∧
    r.primer.op = 0 ∧ fld (0 : Word) 28 19 = 0 ∧ fld (0x000801FF : Word) 28 19 ≠ 0 ∧ fld (0x000801FF : Word) 8 0 + fld (0x000801FF : Word) 28 19 ≤ 512 ∧ 512 < fld (0x001001FF : Word) 8 0 + fld (0x001001FF : Word) 28 19 ∧
    pairService r .pcie = false ∧ domLost r 8 = false ∧ domLost (sPrimer full0) 8 = false ∧ (sPrimer full0).primer.op = 1 ∧ domLost (sPrimer incr0) 8 = false ∧ (sPrimer full0).temper.test = none ∧
    pairService (sPrimer full0) .mcA = true ∧ (sPrimer incr0).primer.op = 2 ∧ (sPrimer incr0).primer.left = 5 :: [6] ∧ channelIdle (sPrimer incr0) 5 = true ∧ channelIdle (setChan 5 { stream := .armed } (sPrimer incr0)) 5 = false ∧
    (sweepRest (sPrimer full0)).primer.swept ≠ [] ∧ ([(5, 0x400, 1)] : List (Nat × Nat × BitVec 32)).any (fun x => x.1 == 5) = true :=
  ⟨takes_of (by decide +kernel), takes_of (by decide +kernel), by decide +kernel, by decide +kernel, noTest_reset, by decide +kernel⟩

/-- Slot 0 of the host bank has been rung with a code and arguments. -/
def sRung (code a0 a1 a2 : Nat) (x : State) : State := setBytes 0xBF0000 (leBytes 2 code ++ [0, 0] ++ leBytes 4 77 ++ leBytes 8 a0 ++ leBytes 8 a1 ++ leBytes 8 a2)
  (wrReg pciePage 0x704 1 (wrReg devPage 0x700 0xC0000000 (wrReg (mcPage 0) 0x700 0x40000000 x)))
def uRung (code a0 a1 a2 : Nat) (x : State) : State := bankPut (firmwareMaster (sRung code a0 a1 a2 x)) 0xBF0100 [1] (clearBell false 0 (sRung code a0 a1 a2 x))
def rungOk (s : State) : Bool := firmwareRuns s && slotBell s false 0 && targetOn s (targetOf s (slotBase false 0)) && memByte s (slotBase false 0 + 0x100) != 1
theorem witness_ServicesAreTakenUp : firmwareRuns r = false ∧ rungOk (sRung 11 0 0 0 r) = true ∧ slotField (sRung 11 0 0 0 r) false 0 0 2 = 11 ∧ slotField (sRung 0 0 0 0 r) false 0 0 2 = 0 ∧
    memByte (uRung 3 0 0 0 r) (slotBase false 0 + 0x100) = 1 ∧ slotField (sRung 3 0 0 0 r) false 0 4 4 = 77 ∧ bankOpen (uRung 3 0 0 0 r) (firmwareMaster (uRung 3 0 0 0 r)) (slotBase false 0 + 0x100) = true ∧
    (let s := setByte 0xBF0100 1 (sRung 3 0 0 0 r); firmwareRuns s = true ∧ slotBell s false 0 = true ∧ targetOn s (targetOf s (slotBase false 0)) = true ∧ memByte s (slotBase false 0 + 0x100) = 1) := by decide +kernel

/-- Slot 0 waits to be served again. -/
def sAgain (code : Nat) : State := { wrReg pciePage 0x704 0 (sRung code 0 0 0 r) with taken := [⟨false, 0, .again⟩] }
theorem witness_ServicesAreTakenUpAgain : (sAgain 3).taken.contains ⟨false, 0, .again⟩ = true ∧ firmwareRuns (sAgain 3) = true ∧ slotBell (sAgain 3) false 0 = false ∧
    targetOn (sAgain 3) (targetOf (sAgain 3) (slotBase false 0)) = true ∧ slotField (sAgain 3) false 0 0 2 = 3 ∧ slotField (sAgain 0) false 0 0 2 = 0 ∧ slotField (sAgain 11) false 0 0 2 = 11 := by decide +kernel

/-- What an image assumes of the reset state, with the cluster code's version given. -/
def assumed0 (cluster : BitVec 32) : Assumed := ⟨0xC2, [upVer r 0], upVer r 2, cluster, skVersion r (engLane 0)⟩
def img0 (signed ok vers : Bool) (bud : Nat) (chans : List Nat) (a : Nat) : Image := ⟨signed, ok, assumed0 (if vers then upVer r 3 else upVer r 3 + 1), [bud, 0, 0, 0], chans, [⟨.core 0, [(a, 1)], [], 0⟩]⟩
def keyed : State := { r with keyFused := true }
def uLoad : State := uRung 1 0 16 0 keyed
def uLoadAt (n : Nat) : State := uRung 1 0 16 0 { r with lifecycle := n }
theorem witness_ProgramLoad : rungOk (sRung 1 0 16 0 r) = true ∧ rungOk (sRung 1 0 16 0 keyed) = true ∧ slotField (sRung 1 0 16 0 r) false 0 0 2 = 1 ∧ inBank (slotArg (uRung 1 0 16 0 r) false 0 0) (slotArg (uRung 1 0 16 0 r) false 0 1) = true ∧
    inBank (slotArg (uRung 1 0x3FFFFF 2 0 r) false 0 0) (slotArg (uRung 1 0x3FFFFF 2 0 r) false 0 1) = false ∧ bit (rdReg (uRung 1 0 16 0 r) devPage 0x700) 29 = false ∧
    bit (rdReg (wrReg devPage 0x700 0xE0000000 (uRung 1 0 16 0 r)) devPage 0x700) 29 = true ∧ (uRung 1 0 16 0 r).keyFused = false ∧ (uRung 1 0 16 0 r).lifecycle = 2 ∧ uLoad.keyFused = true ∧ uLoad.lifecycle = 2 ∧
    inBank (slotArg uLoad false 0 0) (slotArg uLoad false 0 1) = true ∧ bit (rdReg uLoad devPage 0x700) 29 = false ∧ (uLoadAt 1).lifecycle = 1 ∧ (uLoadAt 3).lifecycle = 3 ∧
    inBank (slotArg (uLoadAt 1) false 0 0) (slotArg (uLoadAt 1) false 0 1) = true ∧ bit (rdReg (uLoadAt 1) devPage 0x700) 29 = false ∧ inBank (slotArg (uLoadAt 3) false 0 0) (slotArg (uLoadAt 3) false 0 1) = true := by decide +kernel
theorem witness_ProgramImages : (let i := img0 true true false 0 [] 0x10000000; versionsRun uLoad i.assumed [0] = false) ∧
    (let i := img0 true true true 1225000000001 [] 0x10000000; versionsRun uLoad i.assumed [0] = true ∧ overBudget uLoad i [0] = true) ∧
    (let i := img0 true true true 1225000000000 [3] 0x10000000; let u := setChan 3 { stream := .armed } uLoad; versionsRun u i.assumed [0] = true ∧ overBudget u i [0] = false ∧ targetsBusy u i [0] = true) ∧
    (let i := img0 true true true 0 [] 0x4000000; versionsRun uLoad i.assumed [0] = true ∧ overBudget uLoad i [0] = false ∧ targetsBusy uLoad i [0] = false ∧ i.engines.all (fun x => x.bytes.all (fun b => placeable uLoad b.1)) = false) ∧
    (let i := img0 true true true 0 [] 0x10000000; versionsRun uLoad i.assumed [0] = true ∧ overBudget uLoad i [0] = false ∧ targetsBusy uLoad i [0] = false ∧ i.engines.all (fun x => x.bytes.all (fun b => placeable uLoad b.1)) = true) := by decide +kernel
/-- A manifest of a component, tested with version 1 of others. -/
def mf (c : Nat) (v : BitVec 32) (l : List Nat) : Manifest := ⟨c, v, 0x1000, l.map (fun x => (x, 1))⟩
/-- Firmware and Borindam's three components at version 1 in their slots A, with the channels given. -/
def sImages (cs : SMap Chan) : State := { r with chans := cs, images := { slots := [(0, some (mf 0 1 [1, 2, 3])), (2, some (mf 1 1 [0, 2, 3])), (4, some (mf 2 1 [0, 1, 3])), (6, some (mf 3 1 [0, 1, 2]))] } }
/-- A stream set up on a channel of every lane. -/
def laneStreams : SMap Chan := (List.range 64).map (fun i => (8 * i, { stream := .armed }))
/-- The state of an update of the lane stores when its slot waits, and the journal of its image. -/
def uUpdate (cs : SMap Chan) : State := uRung 2 2 0 0x2000 (sImages cs)
def xUpdate (cs : SMap Chan) : State := slotWaits false 0 .update (uUpdate cs)
def journal0 (cs : SMap Chan) (m : Manifest) : Journal :=
  ⟨2, !committedB (uUpdate cs) 2, m, bankBase false + 0, 0x2000, Config.sha384 (memBytes (uUpdate cs) (bankBase false + 0) 0x2000), 1, 0, [], false, 0, 0⟩
/-- The state after step 3 of the update. -/
def wUpdate (cs : SMap Chan) (m : Manifest) : State :=
  slotVerified { journal0 cs m with chunks := 1, step := 2 } (copyChunks (journal0 cs m) 1 (openJournal (journal0 cs m) (xUpdate cs)))
theorem journalTested_wUpdate (cs : SMap Chan) (m : Manifest) (i : Journal) (h : domLost (xUpdate cs) 8 = false) (hc : committedB (uUpdate cs) 2 = false) (hm : mramWord (xUpdate cs) markLine = 0) :
    journalTested i (wUpdate cs m) = journalTested i (modImages (verifiedImages (journal0 cs m)) (xUpdate cs)) := by
  refine journalTested_verified h (journal0 cs m) i 1 2 ?_ rfl ?_
  · unfold journal0; rw [hc]; exact .inr (by decide : 0x2440000 ≤ slotContent 2 true - 0x1000)
  · rw [hm]; unfold journal0; rw [hc]; exact (by decide : setBit (setBit 0 (slotKey 2 true) true) (slotKey 2 true) false = 0)
/-- The image that updates them. -/
def update0 (m : Manifest) : UpdateImage := ⟨true, true, true, m, true⟩
theorem witness_UpdateTested : journalTested { journal0 [] (mf 2 2 []) with chunks := 1, step := 3 } (wUpdate [] (mf 2 2 [])) = false ∧
    journalTested { journal0 [] (mf 2 2 [0, 1, 3]) with chunks := 1, step := 3 } (wUpdate [] (mf 2 2 [0, 1, 3])) = true ∧
    journalTested { journal0 laneStreams (mf 2 2 [0, 1, 3]) with chunks := 1, step := 3 } (wUpdate laneStreams (mf 2 2 [0, 1, 3])) = true := by
  refine ⟨?_, ?_, ?_⟩ <;> rw [journalTested_wUpdate _ _ _ (by decide +kernel) (by decide +kernel) (by decide +kernel)] <;> decide +kernel
theorem chans_wUpdate (cs : SMap Chan) (m : Manifest) : (wUpdate cs m).chans = (xUpdate cs).chans := by
  unfold wUpdate
  exact chans_verified (journal0 cs m) 1 2 _
theorem witness_UpdateBlocks : (∀ b ∈ activationBlocks 2, blockFree (wUpdate [] (mf 2 2 [0, 1, 3])) 2 b = true) ∧ (∀ b ∈ activationBlocks 2, blockFree (wUpdate laneStreams (mf 2 2 [0, 1, 3])) 2 b = false) := by
  have h : ∀ cs b, b ∈ activationBlocks 2 → blockFree (wUpdate cs (mf 2 2 [0, 1, 3])) 2 b = blockFree (xUpdate cs) 2 b := fun cs b hb => by
    have hb : b < 64 := List.mem_range.mp hb
    show (!storeStreams _ b) = !storeStreams _ b
    unfold storeStreams chan
    rw [if_pos hb, if_pos hb, chans_wUpdate]
  exact ⟨fun b hb => (h _ b hb).trans ((by decide +kernel : ∀ b ∈ activationBlocks 2, blockFree (xUpdate []) 2 b = true) b hb),
    fun b hb => (h _ b hb).trans ((by decide +kernel : ∀ b ∈ activationBlocks 2, blockFree (xUpdate laneStreams) 2 b = false) b hb)⟩
theorem witness_UpdateRuns : ∀ cs ∈ [[], laneStreams], rungOk (sRung 2 2 0 0x2000 (sImages cs)) = true ∧ slotField (sRung 2 2 0 0x2000 (sImages cs)) false 0 0 2 = 2 ∧ (uUpdate cs).journal = none ∧ slotArg (uUpdate cs) false 0 0 % 16 = 2 ∧
    slotArg (uUpdate cs) false 0 1 = 0 ∧ slotArg (uUpdate cs) false 0 2 = 0x2000 ∧ (uUpdate cs).lifecycle ≠ 3 ∧ bit (rdReg (uUpdate cs) devPage 0x700) 29 = false ∧ (∀ x ∈ (uUpdate cs).taken, x.wait ≠ .update) ∧
    updateSigned (uUpdate cs) (update0 (mf 2 2 [0, 1, 3])) 2 = true ∧ updateFits (update0 (mf 2 2 [0, 1, 3])) 2 0x2000 = true ∧ updateFits (update0 (mf 2 2 [])) 2 0x2000 = true ∧ chunksOf 0x2000 = 1 := by decide +kernel
theorem witness_UpdateRefused : updateSigned (uUpdate []) ⟨true, false, true, mf 2 2 [], true⟩ 2 = false ∧ updateSigned (uUpdate []) (update0 (mf 4 2 [])) 4 = false ∧ (uUpdate []).keyFused = false ∧
    updateSigned (uUpdate []) ⟨false, false, true, mf 2 2 [], true⟩ 2 = false ∧ (uUpdate []).lifecycle = 2 ∧ updateFits ⟨true, true, false, mf 2 2 [], true⟩ 2 0x2000 = false ∧ updateFits (update0 (mf 1 2 [])) 2 0x2000 = false ∧
    updateFits (update0 ⟨2, 2, 0x30000, []⟩) 2 0x40000 = false ∧ slotSize 2 < 0x1000 + 0x30000 ∧ updateFits (update0 ⟨2, 2, 0x1001, []⟩) 2 0x2000 = false := by decide +kernel
theorem witness_Update : rungOk (sRung 2 0 0 0x2000 r) = true ∧ slotField (sRung 2 0 0 0x2000 r) false 0 0 2 = 2 ∧ (uRung 2 0 0 0x2000 r).journal = none ∧ slotArg (uRung 2 0 0 0x2000 r) false 0 0 % 16 ≤ 5 ∧
    inBank (slotArg (uRung 2 0 0 0x2000 r) false 0 1) (slotArg (uRung 2 0 0 0x2000 r) false 0 2) = true ∧ 0x1000 < slotArg (uRung 2 0 0 0x2000 r) false 0 2 ∧ (uRung 2 0 0 0x2000 r).lifecycle ≠ 3 ∧
    5 < slotArg (uRung 2 6 0 0x2000 r) false 0 0 % 16 ∧ slotArg (uRung 2 0 0 0x1000 r) false 0 2 ≤ 0x1000 ∧ inBank (slotArg (uRung 2 0 1 0x400000 r) false 0 1) (slotArg (uRung 2 0 1 0x400000 r) false 0 2) = false ∧
    (uRung 2 4 0 0x2000 { r with lifecycle := 3 }).lifecycle = 3 ∧ 4 ≤ slotArg (uRung 2 4 0 0x2000 { r with lifecycle := 3 }) false 0 0 % 16 ∧
    rungOk (sRung 2 0 0 0x2000 { r with journal := some ⟨0, false, ⟨0, 1, 0, []⟩, 0, 0, 0, 5, 0, [], false, 0, 0⟩ }) = true := by decide +kernel
theorem witness_OtherServices : (∀ n ∈ [3, 5, 6, 7, 8, 9, 10], rungOk (sRung n 1 16 0 r) = true ∧ slotField (sRung n 1 16 0 r) false 0 0 2 = n) ∧ prRefused (uRung 3 0 0 0 r) 0 = some 2 ∧ prRefused (uRung 3 0 0 0 r) 0x60000000 = none ∧
    fld (0x60000000 : Word) 31 29 = 3 ∧ prRefused (uRung 3 0 0 0 r) 0x20000000 = none ∧ fld (0x20000000 : Word) 31 29 ≠ 3 ∧ slotArg (uRung 5 3 0 0 r) false 0 0 = 3 ∧ slotArg (uRung 5 4 0 0 r) false 0 0 = 4 ∧
    (uRung 5 2 0 0 (sPat { frozen := true })).patina.frozen = true ∧ (uRung 6 0 16 0 r).chans.any (fun c => c.2.stream != .idle) = false ∧ (uRung 6 0 16 0 (setChan 3 { stream := .armed } r)).chans.any (fun c => c.2.stream != .idle) = true ∧
    (3 : BitVec 2).toNat = (uRung 6 0 16 0 r).lifecycle + 1 ∧ lifecycleSigned (uRung 6 0 16 0 r) 3 true false = true ∧ lifecycleSigned (uRung 6 0 16 0 keyed) 3 true false = false ∧
    slotArg (uRung 8 0x714 0 0 r) false 0 0 = 0x714 ∧ slotArg (uRung 8 0x718 0 0 r) false 0 0 = 0x718 ∧ (∀ i, i < (pwrFields 0x714).1 → fld (0 : Word) (2 * i + 1) (2 * i) ≠ 3) ∧
    bit (0x10D : Word) 15 = false ∧ fld (0x10D : Word) 3 0 < 14 ∧ fld (0x10D : Word) 3 0 ≠ 8 ∧ fld (0x108 : Word) 3 0 = 8 ∧ 14 ≤ fld (0x10E : Word) 3 0 := by decide +kernel
theorem witness_TokenIsWrong : 1 ≤ slotArg (uRung 4 224 0 0 r) false 0 0 ∧ slotArg (uRung 4 224 0 0 r) false 0 0 ≤ 224 ∧ 224 < slotArg (uRung 4 225 0 0 r) false 0 0 ∧
    tokenMatches (uRung 4 224 0 0 { r with wiping := true }) (memBytes (uRung 4 224 0 0 { r with wiping := true }) (slotBase false 0 + 0x20) 224) = false := by decide +kernel

theorem setBytes_rest (s : State) (bs : List Byte) : ∀ (k : Nat) (m : List Host.Cell), ∃ n, setBytes k bs { s with mem := m } = { s with mem := n } := by
  induction bs with
  | nil => exact fun _ m => ⟨m, rfl⟩
  | cons b bs ih => exact fun k m => ih (k + 1) _
theorem firmwareMaster_mem (s : State) (m : List Host.Cell) : firmwareMaster { s with mem := m } = firmwareMaster s := rfl
theorem portTarget_mem (s : State) (m : List Host.Cell) (q : Master) (a : Nat) : portTarget { s with mem := m } q a = portTarget s q a := rfl
theorem bankOpen_mem (s : State) (m : List Host.Cell) (q : Master) (a : Nat) : bankOpen { s with mem := m } q a = bankOpen s q a := rfl
theorem portError_mem (s : State) (m : List Host.Cell) (q : Master) (a n : Nat) (w : Bool) : portError { s with mem := m } q .secureBank a n w = portError s q .secureBank a n w := by
  have h1 : domLost { s with mem := m } 8 = domLost s 8 := rfl
  have h2 : targetOn { s with mem := m } .secureBank = targetOn s .secureBank := rfl
  have h3 : pairService { s with mem := m } q = pairService s q := rfl
  unfold portError
  rw [h1, h2, h3]
theorem wrReg_mem (p k : Nat) (v : Word) (s : State) (m : List Host.Cell) : wrReg p k v { s with mem := m } = { wrReg p k v s with mem := m } := rfl
theorem clearBell_mem (fab : Bool) (slot : Nat) (s : State) (m : List Host.Cell) : clearBell fab slot { s with mem := m } = { clearBell fab slot s with mem := m } := by
  cases fab <;> rfl
/-- The reset state with other memory contents, and with the registers of a rung slot. -/
def rMem (m : List Host.Cell) : State := { r with mem := m }
def bellRegs : State := wrReg pciePage 0x704 1 (wrReg devPage 0x700 0xC0000000 (wrReg (mcPage 0) 0x700 0x40000000 r))
def bellDone : State := clearBell false 0 bellRegs
theorem rung_mem (code a0 a1 a2 : Nat) (m : List Host.Cell) : ∃ n, sRung code a0 a1 a2 (rMem m) = { bellRegs with mem := n } := by
  unfold sRung rMem
  rw [wrReg_mem, wrReg_mem, wrReg_mem]
  exact setBytes_rest bellRegs _ _ _
theorem bell_put (x : State) (m : List Host.Cell) (q : Master) (he : x.engines = []) (ht : portTarget x q 0xBF0100 = .hostBank) (hb : bankOpen x q 0xBF0100 = true) :
    bankPut q 0xBF0100 [1] { x with mem := m } = setBytes 0xBF0100 [1] { x with mem := m } := by
  unfold bankPut
  rw [bankOpen_mem, if_pos hb, portTarget_mem, ht]
  simp [portWrite, targetWrite, targetKey, keepStale, clearResv, smKeys, he, forEach]
theorem uRung_put (code a0 a1 a2 : Nat) (m : List Host.Cell) :
    uRung code a0 a1 a2 (rMem m) = setBytes 0xBF0100 [1] (clearBell false 0 (sRung code a0 a1 a2 (rMem m))) := by
  obtain ⟨n, hn⟩ := rung_mem code a0 a1 a2 m
  unfold uRung
  rw [hn, firmwareMaster_mem, clearBell_mem]
  exact bell_put bellDone n _ (by decide +kernel) (by decide +kernel) (by decide +kernel)
theorem uRung_mem (code a0 a1 a2 : Nat) (m : List Host.Cell) : ∃ n, uRung code a0 a1 a2 (rMem m) = { bellDone with mem := n } := by
  obtain ⟨n, hn⟩ := rung_mem code a0 a1 a2 m
  rw [uRung_put, hn, clearBell_mem]
  exact setBytes_rest bellDone _ _ _
theorem memByte_uRung (m : List Host.Cell) (code a0 a a1 a2 : Nat) (h : a < 0xBF0000 ∨ 0xBF0101 ≤ a ∨ (0xBF0020 ≤ a ∧ a < 0xBF0100)) : memByte (uRung code a0 a1 a2 (rMem m)) a = memByte (rMem m) a := by
  have h2 : ∀ y : State, memByte (clearBell false 0 y) a = memByte y a := fun _ => rfl
  rw [uRung_put, memByte_setBytes, if_neg (by simp; omega), h2, sRung, memByte_setBytes, if_neg (by simp [length_leBytes]; omega)]
  rfl

/-- The secure bank holds the digest of the token, whatever the hash gives. -/
theorem witness_TokenMatches : ∃ x : State, (uRung 4 1 0 0 x).patina = r.patina ∧ tokenMatches (uRung 4 1 0 0 x) (memBytes (uRung 4 1 0 0 x) (slotBase false 0 + 0x20) 1) = true := by
  obtain ⟨h, hh⟩ : ∃ h, (Config.sha384 [0]).toNat = h := ⟨_, rfl⟩
  obtain ⟨m, hm⟩ : ∃ m, m = (setBytes 0x1000000 (leBytes 48 h) r).mem := ⟨_, rfl⟩
  have hb : ∀ a, memByte (rMem m) a = memByte (setBytes 0x1000000 (leBytes 48 h) r) a := fun a => by rw [hm]; rfl
  have hu := fun a => memByte_uRung m 4 1 a 0 0
  have ht : memBytes (uRung 4 1 0 0 (rMem m)) (slotBase false 0 + 0x20) 1 = [0] := by
    simp only [memBytes]
    rw [hu _ (by decide), hb, memByte_setBytes, if_neg (by simp [slotBase])]
    rfl
  have hd : tokenDigest (uRung 4 1 0 0 (rMem m)) = h := by
    unfold tokenDigest
    rw [memBytes_congr (setBytes 0x1000000 (leBytes 48 h) r) _ 48 0x1000000 (fun a h1 h2 => by rw [hu a (by omega), hb])]
    have := memBytes_setBytes (leBytes 48 h) 0x1000000 r
    rw [length_leBytes] at this
    rw [this, leNat_leBytes, Nat.mod_eq_of_lt (by have := (Config.sha384 [0]).isLt; omega)]
  obtain ⟨n, hn⟩ := uRung_mem 4 1 0 0 m
  refine ⟨rMem m, by rw [hn]; rfl, ?_⟩
  rw [ht]
  unfold tokenMatches
  rw [hd, hh, hn, portError_mem, firmwareMaster_mem, (by decide +kernel : portError bellDone (firmwareMaster bellDone) .secureBank 0x1000000 16 false = none)]
  simp

/-- The PCIe link is up, SMBUS_STOP is allowed, and host address 9 is the fabric manager. -/
def sHost : State := wrReg smbPage 0x700 1 (wrReg fbPage 0x710 9 (wrReg pciePage 0x700 0x80000000 r))
theorem witness_PcieRequests : domLost (sDown 9 { good := false }) 9 = true ∧ bit (rdReg r pciePage 0x700) 31 = false ∧ bit (rdReg sHost pciePage 0x700) 31 = true ∧ domLost sHost 9 = false ∧
    512 < (List.replicate 513 (0 : Byte)).length ∧ (List.replicate 512 (0 : Byte)).length ≤ 512 ∧ Bar.bar4 ≠ .config := by decide +kernel
theorem witness_Doorbells : Takes r pciePage .pcie ∧ Takes r pciePage .mcB ∧ Takes r fbPage .mcA ∧ Takes sHost fbPage .agent ∧ pageError r fbPage = none ∧ mayWritePages sHost 9 = true ∧ mayWritePages sHost 8 = false :=
  ⟨takes_of (by decide +kernel), takes_of (by decide +kernel), takes_of (by decide +kernel), takes_of (by decide +kernel), by decide +kernel⟩
theorem witness_LinkUp : (8 : BitVec 4) = 8 ∧ 1 ≤ (6 : BitVec 4).toNat ∧ (6 : BitVec 4).toNat ≤ 6 ∧ true = ((6 : BitVec 4) == 6) ∧ false = ((1 : BitVec 4) == 6) ∧ (3 : BitVec 4) ≠ 1 ∧ r.tapFault = false ∧ domLost r 9 = false ∧
    ({ setPortAt 2 { st := 4 } r with tapFault := true } : State).tapFault = true ∧ (port (setPortAt 2 { st := 4 } r) 2).st = 4 ∧ tapDrives .bypass = false ∧ tapDrives .highz = true := by decide +kernel
theorem witness_Smbus : bit (rdReg r devPage 0x700) 31 = false ∧ bit (rdReg (wrReg devPage 0x700 0x80000000 r) devPage 0x700) 31 = true ∧ pageError (wrReg devPage 0x700 0x80000000 r) (pageOfAddr 0x4000000).1 = none ∧
    (pageError r (pageOfAddr 0x7FFFFFC).1).isSome = true ∧ bit (rdReg sHost smbPage 0x700) 0 = true ∧ fld (smbusStatus r) 21 18 = 0 ∧ fld (smbusStatus (wrReg quenchPage 0x700 1 r)) 21 18 ≠ 0 := by decide +kernel

theorem witness_Invariants : (∀ c, Quiet (chan r c)) ∧ (∀ k, ModeLegal k (eng r k)) ∧ Memory.wf r.mem = true ∧ step r = .next { r with now := 2 } := by
  refine ⟨quiet_reset, fun k => ?_, rfl, rfl⟩
  show ModeLegal k (engDefault k)
  unfold engDefault
  split
  · exact ⟨by decide, fun _ => by assumption⟩
  · exact ⟨by decide, fun h => absurd h (by decide)⟩

/-! ### Single steps, with values worked by hand from the spec -/

/-- The outcome is a next state with the property. -/
def after (o : Host.Outcome State Fault Refusal) (p : State → Bool) : Bool :=
  match o with
  | .next t => p t
  | _ => false

/-- 04 R132-R134: sub is opd - T; shifts use T[4:0]; signed and unsigned compares; mulh; division rounds toward zero. -/
theorem test_common_units : aluOp 1 3 5 = 0xFFFFFFFE ∧ aluOp 5 0xF0F0 0xFF00 = 0x00F0 ∧ aluOp 8 0x80000000 0x21 = 0xC0000000 ∧ aluOp 9 0xFFFFFFFF 1 = 0xFFFFFFFF ∧ aluOp 11 0xFFFFFFFF 1 = 1 ∧
    cmpOp 2 0xFFFFFFFF 0 = true ∧ cmpOp 4 0xFFFFFFFF 0 = false ∧ mulOp 1 0xFFFFFFFF 2 = 0xFFFFFFFF ∧ mulOp 2 0xFFFFFFFF 2 = 1 ∧
    divOp 0 0xFFFFFFF9 2 = 0xFFFFFFFD ∧ divOp 2 0xFFFFFFF9 2 = 0xFFFFFFFF ∧ divOp 0 0x80000000 0xFFFFFFFF = 0x80000000 ∧ divOp 2 0x80000000 0xFFFFFFFF = 0 ∧
    bitOp 1 0 = 32 ∧ bitOp 2 0 = 32 ∧ bitOp 3 1 = 0x80000000 ∧ bitOp 4 0x01020304 = 0x04030201 ∧ bitOp 5 7 = 1 := by decide +kernel
/-- 06 R173: the polynomial x^32 + x^22 + x^2 + x + 1. -/
theorem test_lfsr : lfsrNext 0x80000000 = 0x00400007 ∧ lfsrNext 1 = 2 := by decide
/-- 04 R103, R116: a move of g1 to g2 and three NOP slots; the program counter goes to the next bundle. -/
theorem test_move : after (exec (.bundleIssue (.core 0) none) (sCode (oneMove g1to2) { g := [(1, 7)] })) (fun t => gVal (eng t 0) 2 == 7 && (eng t 0).pc == 16) = true := by decide +kernel
/-- 11 R309: a write to a page that does not exist makes MX_ERR_INFO valid, of the DECODE kind. -/
theorem test_unmapped_page : after (exec (.registerWrite 0x3FFF 0x700 .mcA 1) r) (fun t => bit (rdReg t mxPage 0x704) 31) = true := by decide +kernel
/-- 11 R309, R310: REMAP is taken from a pair in Service mode and rejected from the host. -/
theorem test_access_ends_a_temper_test : after (exec (.registerWrite (BitVec.ofNat 14 (chPage 5)) 0x104 .mcA 0x85) (sTest (1, 5)))
    (fun t => t.temper.test.isNone && rdReg t temperPage 0x708 == 1 && rdReg t (chPage 5) 0x104 == 0x85) = true := by decide +kernel
theorem test_remap : after (exec (.remap .mcA) r) (fun t => rdReg t mxPage 0x700 == 1) = true ∧ after (exec (.remap .pcie) r) (fun t => rdReg t mxPage 0x700 == rdReg r mxPage 0x700) = true := by decide +kernel
/-- 13 R338: the CRC-32 of the frames, whose value for the bytes "123456789" is known as 0xCBF43926. -/
theorem test_crc : crc32 [0x31, 0x32, 0x33, 0x34, 0x35, 0x36, 0x37, 0x38, 0x39] = 0xCBF43926 := by decide +kernel
end Sys2Proof.Tests
end

section
/-! SUPPORT. Loss of a domain: what the matrix, the fabric and the pages leave alone. -/

namespace Sys2Proof.Machine

/-- What the pins and the power of the domains are made of: the channels, the timebases and the domains. -/
def pinSide (s : State) : SMap Chan × SMap Timebase × SMap Domain := (s.chans, s.bases, s.doms)

theorem pinSide_of {s t : State} (hc : t.chans = s.chans) (hb : t.bases = s.bases) (hd : t.doms = s.doms) : pinSide t = pinSide s := by
  unfold pinSide; rw [hc, hb, hd]

theorem pinSide_pageOnly {s t : State} (h : PageOnly s t) : pinSide t = pinSide s := pinSide_of h.chans_eq h.bases_eq h.doms_eq
theorem pinSide_bankOnly {s t : State} (h : BankOnly s t) : pinSide t = pinSide s := pinSide_of h.chans (by rw [h]) h.doms

theorem chans_of_pinSide {s t : State} (h : pinSide t = pinSide s) : t.chans = s.chans := congrArg (fun x => x.1) h
theorem bases_of_pinSide {s t : State} (h : pinSide t = pinSide s) : t.bases = s.bases := congrArg (fun x => x.2.1) h
theorem doms_of_pinSide {s t : State} (h : pinSide t = pinSide s) : t.doms = s.doms := congrArg (fun x => x.2.2) h
theorem chan_of_pinSide {s t : State} (h : pinSide t = pinSide s) (c : Nat) : chan t c = chan s c := by
  unfold chan; rw [chans_of_pinSide h]

theorem domLost_of_doms {s t : State} (h : t.doms = s.doms) (d : Nat) : domLost t d = domLost s d := by
  unfold domLost dom; rw [h]

/-- A record update that touches no channel, timebase or domain. -/
@[simp] theorem pinSide_mk {pending now free outbox regs swapped calSwapped held wms irqOut msixDue pal palHeld palCmds chans bases
      tables doms pins lifecycle keyFused reports anvil nextFid corrected mem trans replies power granted tongs
      tongsLast mramLines mramGap hang hangAsk fabHangAsk copies fstat snap engines stale lanes stores seqs fails
      welds patina wiping ports fabric pcie thermal bellows temper primer calDue journal images loaded taken tap tapFault} :
    pinSide (State.mk pending now free outbox regs swapped calSwapped held wms irqOut msixDue pal palHeld palCmds chans bases
      tables doms pins lifecycle keyFused reports anvil nextFid corrected mem trans replies power granted tongs
      tongsLast mramLines mramGap hang hangAsk fabHangAsk copies fstat snap engines stale lanes stores seqs fails
      welds patina wiping ports fabric pcie thermal bellows temper primer calDue journal images loaded taken tap tapFault)
      = (chans, bases, doms) := (rfl)

theorem pinSide_forUpTo {n : Nat} {f : Nat → State → State} {s : State} (h : ∀ i s, pinSide (f i s) = pinSide s) :
    pinSide (forUpTo n s f) = pinSide s := forUpTo_inv (P := fun t => pinSide t = pinSide s) rfl fun i t ht => (h i t).trans ht

theorem pinSide_forEach {α : Type} {l : List α} {f : α → State → State} {s : State} (h : ∀ a s, pinSide (f a s) = pinSide s) :
    pinSide (forEach l s f) = pinSide s := forEach_inv (P := fun t => pinSide t = pinSide s) rfl fun a t ht => (h a t).trans ht

/-! ### State updates and pages -/

@[simp] theorem pinSide_tick (s : State) : pinSide (tick s) = pinSide s := (rfl)
@[simp] theorem pinSide_send (o : Out) (s : State) : pinSide (send o s) = pinSide s := (rfl)
@[simp] theorem pinSide_reach (n : Nat) (s : State) : pinSide (reach n s) = pinSide s := (rfl)
@[simp] theorem pinSide_wrReg (p o : Nat) (v : Word) (s : State) : pinSide (wrReg p o v s) = pinSide s := (rfl)
@[simp] theorem pinSide_modReg (p o : Nat) (f : Word → Word) (s : State) : pinSide (modReg p o f s) = pinSide s := (rfl)
@[simp] theorem pinSide_countReg (p o n : Nat) (s : State) : pinSide (countReg p o n s) = pinSide s := (rfl)
@[simp] theorem pinSide_report (r : Report) (s : State) : pinSide (report r s) = pinSide s := (rfl)
@[simp] theorem pinSide_setEng (k : Nat) (e : Engine) (s : State) : pinSide (setEng k e s) = pinSide s := (rfl)
@[simp] theorem pinSide_modEng (k : Nat) (f : Engine → Engine) (s : State) : pinSide (modEng k f s) = pinSide s := (rfl)
@[simp] theorem pinSide_setTg (c : Nat) (x : TongsChan) (s : State) : pinSide (setTg c x s) = pinSide s := (rfl)
@[simp] theorem pinSide_setHang (i : Nat) (x : HangSlot) (s : State) : pinSide (setHang i x s) = pinSide s := (rfl)
@[simp] theorem pinSide_setPortAt (p : Nat) (x : Port) (s : State) : pinSide (setPortAt p x s) = pinSide s := (rfl)
@[simp] theorem pinSide_modPort (p : Nat) (f : Port → Port) (s : State) : pinSide (modPort p f s) = pinSide s := (rfl)
@[simp] theorem pinSide_modFab (f : Fabric → Fabric) (s : State) : pinSide (modFab f s) = pinSide s := (rfl)
@[simp] theorem pinSide_raiseBit (p i : Nat) (s : State) : pinSide (raiseBit p i s) = pinSide s := pinSide_pageOnly (pageOnly_raiseBit ..)
@[simp] theorem pinSide_wmSample (p n v : Nat) (s : State) : pinSide (wmSample p n v s) = pinSide s := pinSide_pageOnly (pageOnly_wmSample ..)
@[simp] theorem pinSide_mxError (m : Master) (a k : Nat) (s : State) : pinSide (mxError m a k s) = pinSide s := pinSide_pageOnly (pageOnly_mxError ..)
@[simp] theorem pinSide_memWrite (a : Nat) (bs : List Byte) (s : State) : pinSide (memWrite a bs s) = pinSide s := pinSide_bankOnly (bankOnly_targetWrite ..)
@[simp] theorem pinSide_bankPut (m : Master) (a : Nat) (bs : List Byte) (s : State) : pinSide (bankPut m a bs s) = pinSide s := pinSide_bankOnly (bankOnly_bankPut ..)
@[simp] theorem pinSide_offer (code sev src : Nat) (fid : Bool) (bs : List Byte) (s : State) : pinSide (offer code sev src fid bs s) = pinSide s := (rfl)

/-! ### Transactions and engines -/

@[simp] theorem pinSide_grantRow (row : Nat) (s : State) : pinSide (grantRow row s) = pinSide s := by
  unfold grantRow
  repeat' split
  all_goals rfl

@[simp] theorem pinSide_grantAll (s : State) : pinSide (grantAll s) = pinSide s := pinSide_forUpTo pinSide_grantRow

@[simp] theorem pinSide_enterPort (m : Master) (id : Nat) (write : Bool) (a : Nat) (data : List Byte) (len : Nat) (use : TransUse) (s : State) :
    pinSide (enterPort m id write a data len use s) = pinSide s := pinSide_grantAll _

@[simp] theorem pinSide_storeFails (k a kind : Nat) (s : State) : pinSide (storeFails k a kind s) = pinSide s := (rfl)
@[simp] theorem pinSide_flushFetch (k : Nat) (s : State) : pinSide (flushFetch k s) = pinSide s := (rfl)
@[simp] theorem pinSide_popStore (k : Nat) (s : State) : pinSide (popStore k s) = pinSide s := (rfl)
@[simp] theorem pinSide_loadReply (k : Nat) (data : List Byte) (err : Option BusKind) (s : State) : pinSide (loadReply k data err s) = pinSide s := (rfl)

@[simp] theorem pinSide_fillOne (k : Nat) (before : List Op) (w : LoadWait) (o : Op) (rest : List Op) (s : State) :
    pinSide (fillOne k before w o rest s) = pinSide s := by
  unfold fillOne
  dsimp only
  repeat' split
  all_goals simp

@[simp] theorem pinSide_fillWaits (k n : Nat) (s : State) : pinSide (fillWaits k n s) = pinSide s := by
  induction n generalizing s with
  | zero => rfl
  | succ n ih =>
    unfold fillWaits
    split
    · rfl
    · rw [ih, pinSide_fillOne]

@[simp] theorem pinSide_releaseFence (k : Nat) (s : State) : pinSide (releaseFence k s) = pinSide s := by
  unfold releaseFence
  dsimp only
  repeat' split
  all_goals simp

@[simp] theorem pinSide_issueStore (k : Nat) (s : State) : pinSide (issueStore k s) = pinSide s := by
  unfold issueStore
  repeat' split
  all_goals simp

@[simp] theorem pinSide_settled (k : Nat) (s : State) : pinSide (settled k s) = pinSide s := by simp [settled, settle]

@[simp] theorem pinSide_storeBusError (k kind : Nat) (s : State) : pinSide (storeBusError k kind s) = pinSide s := by
  unfold storeBusError
  split <;> simp

@[simp] theorem pinSide_storeLeaves (k : Nat) (s : State) : pinSide (storeLeaves k s) = pinSide s := by
  unfold storeLeaves
  split <;> simp

@[simp] theorem pinSide_sampleStack (a : Nat) (s : State) : pinSide (sampleStack a s) = pinSide s := by
  unfold sampleStack
  split <;> simp

@[simp] theorem pinSide_queueReply (k serial : Nat) (data : List Byte) (err : Option BusKind) (s : State) :
    pinSide (queueReply k serial data err s) = pinSide s := pinSide_sampleStack ..

@[simp] theorem pinSide_tasReply (k : Nat) (data : List Byte) (err : Option BusKind) (s : State) : pinSide (tasReply k data err s) = pinSide s := by
  unfold tasReply
  split <;> simp

/-! ### Tongs -/

@[simp] theorem pinSide_tgFails (c err : Nat) (s : State) : pinSide (tgFails c err s) = pinSide s := by
  unfold tgFails
  dsimp only
  split
  · rw [pinSide_raiseBit, pinSide_setTg, pinSide_modReg]; rfl
  · rw [pinSide_setTg, pinSide_modReg]; rfl

@[simp] theorem pinSide_tgEnter (c : Nat) (write : Bool) (a : Nat) (data : List Byte) (n : Nat) (s : State) :
    pinSide (tgEnter c write a data n s) = pinSide s := by
  unfold tgEnter
  rw [pinSide_enterPort, pinSide_mk]
  rfl

theorem pinSide_tgBurst {s t : State} {c : Nat} (h : tgBurst s c = some t) : pinSide t = pinSide s := by
  unfold tgBurst at h
  dsimp only at h
  split at h
  · exact absurd h (by simp)
  · split at h
    · rw [← Option.some.inj h, pinSide_tgEnter, pinSide_setTg]
    · split at h
      · exact absurd h (by simp)
      · split at h
        · rw [← Option.some.inj h, pinSide_tgFails]
        · rw [← Option.some.inj h, pinSide_tgEnter, pinSide_setTg]

@[simp] theorem pinSide_tgIssue (n : Nat) (s : State) : pinSide (tgIssue n s) = pinSide s := by
  induction n generalizing s with
  | zero => rfl
  | succ n ih =>
    unfold tgIssue
    split
    · rename_i t ht
      obtain ⟨i, -, hi⟩ := List.exists_of_findSome?_eq_some ht
      exact (ih t).trans (pinSide_tgBurst hi)
    · rfl

@[simp] theorem pinSide_tgIssueAll (s : State) : pinSide (tgIssueAll s) = pinSide s := pinSide_tgIssue ..

@[simp] theorem pinSide_tgStart (c : Nat) (last irq : Bool) (s : State) : pinSide (tgStart c last irq s) = pinSide s := by
  unfold tgStart
  split <;> simp

@[simp] theorem pinSide_tgLoad (c : Nat) (bs : List Byte) (s : State) : pinSide (tgLoad c bs s) = pinSide s := by simp [tgLoad]

@[simp] theorem pinSide_tongsReply (c : Nat) (t : Trans) (data : List Byte) (err : Option BusKind) (s : State) :
    pinSide (tongsReply c t data err s) = pinSide s := by
  unfold tongsReply
  dsimp only
  repeat' split
  all_goals simp

/-! ### The PCIe endpoint -/

@[simp] theorem pinSide_issueRequest (i : Nat) (s : State) : pinSide (issueRequest i s) = pinSide s := by
  unfold issueRequest
  split
  · rfl
  · split
    · rfl
    · exact pinSide_forEach fun x s => pinSide_enterPort ..

@[simp] theorem pinSide_issueRequests (s : State) : pinSide (issueRequests s) = pinSide s := pinSide_forUpTo pinSide_issueRequest

@[simp] theorem pinSide_aerReport (i : Nat) (s : State) : pinSide (aerReport i s) = pinSide s := (rfl)

@[simp] theorem pinSide_writeFailed (status : Nat) (s : State) : pinSide (writeFailed status s) = pinSide s := by
  unfold writeFailed countPciErr
  split
  · rw [pinSide_aerReport, pinSide_modReg]
  · rw [pinSide_aerReport, pinSide_modReg]

@[simp] theorem pinSide_finishRequest (r : PciReq) (s : State) : pinSide (finishRequest r s) = pinSide s := by
  unfold finishRequest
  repeat' split
  all_goals simp

@[simp] theorem pinSide_completeRequests (s : State) : pinSide (completeRequests s) = pinSide s := pinSide_forEach pinSide_finishRequest

@[simp] theorem pinSide_pciReply (t : Trans) (data : List Byte) (err : Option BusKind) (s : State) : pinSide (pciReply t data err s) = pinSide s := by
  unfold pciReply
  split
  · exact pinSide_issueRequests s
  · rw [pinSide_issueRequests, pinSide_completeRequests]
    rfl

/-! ### The fabric -/

@[simp] theorem pinSide_countFb (o : Nat) (s : State) : pinSide (countFb o s) = pinSide s := (rfl)
@[simp] theorem pinSide_deliver (p : Nat) (f : Frame) (s : State) : pinSide (deliver p f s) = pinSide s := (rfl)
@[simp] theorem pinSide_sendOne (p : Nat) (f : Frame) (w : Nat) (s : State) : pinSide (sendOne p f w s) = pinSide s := (rfl)

@[simp] theorem pinSide_sendFrames_go (p n : Nat) (s : State) : pinSide (sendFrames.go p n s) = pinSide s := by
  induction n generalizing s with
  | zero => rfl
  | succ n ih =>
    unfold sendFrames.go
    repeat' split
    · rfl
    · rw [ih, pinSide_sendOne]
    · rfl

@[simp] theorem pinSide_queueFrame (p : Nat) (f : Frame) (s : State) : pinSide (queueFrame p f s) = pinSide s := by simp [queueFrame, sendFrames]

@[simp] theorem pinSide_forwardOn (p : Nat) (f : Frame) (s : State) : pinSide (forwardOn p f s) = pinSide s := by
  unfold forwardOn
  split <;> simp

@[simp] theorem pinSide_routeQuiet (f : Frame) (s : State) : pinSide (routeQuiet f s) = pinSide s := by
  unfold routeQuiet
  split <;> simp

@[simp] theorem pinSide_sendTo (f : Frame) (s : State) : pinSide (sendTo f s) = pinSide s := by
  unfold sendTo
  dsimp only
  repeat' split
  all_goals simp

@[simp] theorem pinSide_completeDesc (i kind : Nat) (s : State) : pinSide (completeDesc i kind s) = pinSide s := by simp [completeDesc]

@[simp] theorem pinSide_endTransaction (x : FabTrans) (kind : Nat) (s : State) : pinSide (endTransaction x kind s) = pinSide s := by simp [endTransaction]

@[simp] theorem pinSide_ringEnds (s : State) : pinSide (ringEnds s) = pinSide s := by
  unfold ringEnds
  dsimp only
  split <;> simp

@[simp] theorem pinSide_notice (code data : Nat) (s : State) : pinSide (notice code data s) = pinSide s := by
  unfold notice
  split <;> simp

@[simp] theorem pinSide_holdover (s : State) : pinSide (holdover s) = pinSide s := by
  unfold holdover
  dsimp only
  repeat' split
  all_goals simp

@[simp] theorem pinSide_fabricLost (s : State) : pinSide (fabricLost s) = pinSide s := by
  unfold fabricLost
  dsimp only
  rw [pinSide_holdover, pinSide_modFab, pinSide_forUpTo fun _ s => pinSide_ringEnds s, pinSide_forEach fun x s => pinSide_endTransaction ..,
    pinSide_forUpTo fun p s => pinSide_setPortAt ..]

/-! ### Loss -/

@[simp] theorem pinSide_giveReply (t : Trans) (data : List Byte) (err : Option BusKind) (s : State) : pinSide (giveReply t data err s) = pinSide s := by
  unfold giveReply
  repeat' split
  all_goals simp <;> rfl

@[simp] theorem pinSide_matrixReply (t : Trans) (data : List Byte) (err : Option BusKind) (s : State) : pinSide (matrixReply t data err s) = pinSide s := by
  unfold matrixReply
  repeat' split
  all_goals simp

/-- R21: the transactions that a lost boundary ends leave the pins and the domains alone. -/
@[simp] theorem pinSide_endCrossing (d : Nat) (s : State) : pinSide (endCrossing d s) = pinSide s := by
  unfold endCrossing
  dsimp only
  rw [pinSide_grantAll, pinSide_forEach fun t s => pinSide_matrixReply ..]
  rfl

@[simp] theorem pinSide_skipDomain (d : Nat) (s : State) : pinSide (skipDomain d s) = pinSide s := by
  refine pinSide_forUpTo fun i s => ?_
  dsimp only
  split <;> simp

@[simp] theorem pinSide_linkDown (s : State) : pinSide (linkDown s) = pinSide s := by
  unfold linkDown
  split <;> simp

@[simp] theorem pinSide_stackLost (n : Nat) (s : State) : pinSide (stackLost n s) = pinSide s := pinSide_forEach fun _ _ => pinSide_modEng ..

@[simp] theorem pinSide_reportLoss (d : Nat) (s : State) : pinSide (reportLoss d s) = pinSide s := (rfl)
@[simp] theorem pinSide_resetPages (d : Nat) (s : State) : pinSide (resetPages d s) = pinSide s := (rfl)

end Sys2Proof.Machine
end

section
/-! SUPPORT. What a trip or a switch of one channel leaves alone, and how a trip leaves its channel. -/

namespace Sys2Proof.Machine

/-! ### The other channels -/

/-- The channels other than c, and the domains. -/
def elsewhere (c : Nat) (s : State) : (Nat → Chan) × SMap Domain := (fun d => if d = c then {} else chan s d, s.doms)

theorem chan_of_elsewhere {c d : Nat} {s t : State} (h : elsewhere c t = elsewhere c s) (hd : d ≠ c) : chan t d = chan s d := by
  simpa [elsewhere, hd] using congrFun (congrArg Prod.fst h) d

theorem doms_of_elsewhere {c : Nat} {s t : State} (h : elsewhere c t = elsewhere c s) : t.doms = s.doms := congrArg Prod.snd h

theorem elsewhere_of_pinSide {s t : State} (c : Nat) (h : pinSide t = pinSide s) : elsewhere c t = elsewhere c s := by
  unfold elsewhere chan
  rw [chans_of_pinSide h, doms_of_pinSide h]

@[simp] theorem elsewhere_tick (c : Nat) (s : State) : elsewhere c (tick s) = elsewhere c s := (rfl)
@[simp] theorem elsewhere_reach (c n : Nat) (s : State) : elsewhere c (reach n s) = elsewhere c s := (rfl)
@[simp] theorem elsewhere_modReg (c p o : Nat) (f : Word → Word) (s : State) : elsewhere c (modReg p o f s) = elsewhere c s := (rfl)
@[simp] theorem elsewhere_countReg (c p o n : Nat) (s : State) : elsewhere c (countReg p o n s) = elsewhere c s := (rfl)
@[simp] theorem elsewhere_raiseBit (c p i : Nat) (s : State) : elsewhere c (raiseBit p i s) = elsewhere c s := elsewhere_of_pinSide c (pinSide_raiseBit ..)
@[simp] theorem elsewhere_captureAs (c p ca o d cl sh g k : Nat) (s : State) : elsewhere c (captureAs p ca o d cl sh g k s) = elsewhere c s :=
  elsewhere_of_pinSide c (pinSide_pageOnly (pageOnly_captureAs ..))

@[simp] theorem elsewhere_modChan (c : Nat) (f : Chan → Chan) (s : State) : elsewhere c (modChan c f s) = elsewhere c s :=
  Prod.ext (funext fun d => by
    by_cases h : d = c
    · simp [elsewhere, h]
    · simp [elsewhere, h, chan_modChan_ne h]) (by simp [elsewhere])

@[simp] theorem elsewhere_strmFlag (c d b irq : Nat) (s : State) : elsewhere c (strmFlag d b irq s) = elsewhere c s := by simp [strmFlag]
@[simp] theorem elsewhere_timingError (c : Nat) (s : State) : elsewhere c (timingError c s) = elsewhere c s := by simp [timingError]
@[simp] theorem elsewhere_stopStream (c : Nat) (s : State) : elsewhere c (stopStream c s) = elsewhere c s := by simp [stopStream]
@[simp] theorem elsewhere_abortPmu (c : Nat) (s : State) : elsewhere c (abortPmu c s) = elsewhere c s := by
  unfold abortPmu
  split <;> simp
@[simp] theorem elsewhere_enterHold (c : Nat) (p : Phase) (s : State) : elsewhere c (enterHold c p s) = elsewhere c s := by simp [enterHold]
@[simp] theorem elsewhere_startForce (c : Nat) (s : State) : elsewhere c (startForce c s) = elsewhere c s := by simp [startForce]
@[simp] theorem elsewhere_rampOver (c : Nat) (atBoundary : Bool) (s : State) : elsewhere c (rampOver c atBoundary s) = elsewhere c s := by
  unfold rampOver
  repeat' split
  all_goals simp
@[simp] theorem elsewhere_startSwitch (c : Nat) (old : Word) (was : Forced) (atBoundary : Bool) (s : State) :
    elsewhere c (startSwitch c old was atBoundary s) = elsewhere c s := by
  unfold startSwitch
  dsimp only
  repeat' split
  all_goals simp

@[simp] theorem elsewhere_fillSlot (c reg : Nat) (fails : Bool) (s : State) : elsewhere c (fillSlot c reg fails s) = elsewhere c s := by simp [fillSlot]
@[simp] theorem elsewhere_strobeRegion (c : Nat) (st : Stroke) (t : Nat) (volts : Int) (s : State) :
    elsewhere c (strobeRegion c st t volts s).2 = elsewhere c s := by
  unfold strobeRegion
  split <;> simp
@[simp] theorem elsewhere_pmuEvent (c : Nat) (s : State) : elsewhere c (pmuEvent c s) = elsewhere c s := by
  unfold pmuEvent
  repeat' split
  all_goals simp [pmuTriggered]
@[simp] theorem elsewhere_applyEvent (c : Nat) (e : PalEvent) (st : Stroke) (volts : Int) (s : State) :
    elsewhere c (applyEvent c e st volts s) = elsewhere c s := by
  unfold applyEvent
  dsimp only
  repeat' split
  all_goals simp
@[simp] theorem elsewhere_nextEvent (c : Nat) (volts : Int) (strayed : Bool) (s : State) :
    elsewhere c (nextEvent c volts strayed s) = elsewhere c s := by
  unfold nextEvent watchWindow
  dsimp only
  repeat' split
  all_goals simp
@[simp] theorem elsewhere_eventsBefore (c n : Nat) (s : State) : elsewhere c (eventsBefore c n s) = elsewhere c s := by
  induction n generalizing s with
  | zero => rfl
  | succ n ih =>
    unfold eventsBefore
    repeat' split
    all_goals simp [ih]

/-! ### The tripped channel -/

/-- A channel that Quench holds and that is in no switch: in HIZ or PARK (15 R393). -/
def Safe (x : Chan) : Prop := x.held = true ∧ (x.func = .hiz ∨ x.func = .park) ∧ x.phase = .steady

/-- A trip reaches no other channel and no domain. -/
@[simp] theorem elsewhere_trip (c cause key : Nat) (s : State) : elsewhere c (trip c cause key s) = elsewhere c s := by
  unfold trip
  dsimp only
  split <;> simp

@[simp] theorem elsewhere_tripWatched (c cause key : Nat) (s : State) : elsewhere c (tripWatched c cause key s) = elsewhere c s := by
  unfold tripWatched
  split <;> simp

/-- A trip of a channel that is held already. -/
theorem chan_trip_of_held {c : Nat} {s : State} (cause key : Nat) (h : (chan s c).held = true) :
    chan (trip c cause key s) c = { chan s c with cause := setBit (chan s c).cause 30 true, phase := .steady } := by
  simp [trip, h]

/-- A trip of a channel that is not held: what it leaves of it that its contact and its cause come from. -/
theorem chan_trip_of_free {c : Nat} {s : State} (cause key : Nat) (h : (chan s c).held = false) :
    Safe (chan (trip c cause key s) c) ∧ ∃ e, e ≤ 1023 ∧ (chan (trip c cause key s) c).cause = w32 (0x80000000 + cause * 2 ^ 24 + e) := by
  unfold trip
  dsimp only
  rw [if_neg (by simp [h])]
  simp only [captureAs, chan_report, captureOnly, chan_noteIrq, chan_modReg, chan_raiseBit, chan_countReg, chan_modChan_same]
  refine ⟨⟨rfl, ?_, rfl⟩, _, ?_, rfl⟩
  · dsimp only
    split <;> simp
  · split <;> omega

theorem held_trip (c cause key : Nat) (s : State) : (chan (trip c cause key s) c).held = true := by
  cases h : (chan s c).held with
  | false => exact (chan_trip_of_free cause key h).1.1
  | true => rw [chan_trip_of_held cause key h]; exact h

theorem safe_trip (c cause key : Nat) {s : State} (hq : Quiet (chan s c)) : Safe (chan (trip c cause key s) c) := by
  cases h : (chan s c).held with
  | false => exact (chan_trip_of_free cause key h).1
  | true => rw [chan_trip_of_held cause key h]; exact ⟨h, (hq h).1, rfl⟩

/-- The cause field of a fresh trip (15 R392). -/
theorem cause_trip_domain {c : Nat} {s : State} (key : Nat) (h : (chan s c).held = false) : fld (chan (trip c 1 key s) c).cause 27 24 = 1 := by
  obtain ⟨-, e, he, hc⟩ := chan_trip_of_free 1 key h
  rw [hc, fld, w32, BitVec.toNat_ofNat]
  omega

/-! ### Many channels in turn -/

/-- Steps on different channels, none of which reaches another channel or a domain: channel g i is as its own step leaves it. -/
theorem chan_forUpTo_own {n i : Nat} {g : Nat → Nat} {f : Nat → State → State} (hg : Function.Injective g)
    (hf : ∀ j s, elsewhere (g j) (f j s) = elsewhere (g j) s) (hi : i < n) (s : State) :
    ∃ u, chan u (g i) = chan s (g i) ∧ u.doms = s.doms ∧ chan (forUpTo n s f) (g i) = chan (f i u) (g i) := by
  have doms (m : Nat) : (forUpTo m s f).doms = s.doms :=
    forUpTo_inv (P := fun t => t.doms = s.doms) rfl fun j t ht => (doms_of_elsewhere (hf j t)).trans ht
  have before (m : Nat) (hm : m ≤ i) : chan (forUpTo m s f) (g i) = chan s (g i) := by
    induction m with
    | zero => rfl
    | succ m ih => exact (chan_of_elsewhere (hf m _) fun e => by have := hg e; omega).trans (ih (by omega))
  refine ⟨forUpTo i s f, before i (Nat.le_refl i), doms i, ?_⟩
  induction n with
  | zero => omega
  | succ n ih =>
    rcases Nat.lt_succ_iff_lt_or_eq.1 hi with h | rfl
    · exact (chan_of_elsewhere (hf n _) fun e => by have := hg e; omega).trans (ih h)
    · rfl

/-- Of steps on channels g i, a channel that is none of them sees nothing. -/
theorem chan_forUpTo_other {d : Nat} {g : Nat → Nat} {f : Nat → State → State} (hf : ∀ j s, elsewhere (g j) (f j s) = elsewhere (g j) s)
    (n : Nat) (hd : ∀ j, j < n → d ≠ g j) (s : State) : chan (forUpTo n s f) d = chan s d := by
  induction n with
  | zero => rfl
  | succ n ih => exact (chan_of_elsewhere (hf n _) (hd n (by omega))).trans (ih fun j hj => hd j (by omega))

theorem doms_forUpTo {g : Nat → Nat} {f : Nat → State → State} (hf : ∀ j s, elsewhere (g j) (f j s) = elsewhere (g j) s) (n : Nat) (s : State) :
    (forUpTo n s f).doms = s.doms :=
  forUpTo_inv (P := fun t => t.doms = s.doms) rfl fun j t ht => (doms_of_elsewhere (hf j t)).trans ht

end Sys2Proof.Machine
end

section
/-! SUPPORT. Live writes that take effect at a reset of D8 leave a held channel held. -/

namespace Sys2Proof.Machine

/-- A channel that is held stays held, in its function and phase and with its cause; the domains are as before. -/
def HeldStays (s t : State) : Prop :=
  t.doms = s.doms ∧ ∀ d, (chan s d).held = true →
    (chan t d).held = true ∧ (chan t d).func = (chan s d).func ∧ (chan t d).phase = (chan s d).phase ∧ (chan t d).cause = (chan s d).cause

theorem HeldStays.refl (s : State) : HeldStays s s := ⟨rfl, fun _ h => ⟨h, rfl, rfl, rfl⟩⟩

theorem HeldStays.trans {s t u : State} (h : HeldStays s t) (k : HeldStays t u) : HeldStays s u := by
  refine ⟨k.1.trans h.1, fun d hd => ?_⟩
  obtain ⟨h1, h2, h3, h4⟩ := h.2 d hd
  obtain ⟨k1, k2, k3, k4⟩ := k.2 d h1
  exact ⟨k1, k2.trans h2, k3.trans h3, k4.trans h4⟩

theorem heldStays_of_chans {s t : State} (hc : t.chans = s.chans) (hd : t.doms = s.doms) : HeldStays s t :=
  ⟨hd, fun d h => by unfold chan at h ⊢; rw [hc]; exact ⟨h, rfl, rfl, rfl⟩⟩

theorem heldStays_of_pinSide {s t : State} (h : pinSide t = pinSide s) : HeldStays s t :=
  heldStays_of_chans (chans_of_pinSide h) (doms_of_pinSide h)

/-- A change of one channel that keeps it held where it is. -/
theorem heldStays_modChan (c : Nat) (f : Chan → Chan) (s : State)
    (hf : ∀ x, x.held = true → (f x).held = true ∧ (f x).func = x.func ∧ (f x).phase = x.phase ∧ (f x).cause = x.cause) :
    HeldStays s (modChan c f s) := by
  refine ⟨doms_of_elsewhere (elsewhere_modChan c f s), fun d hd => ?_⟩
  by_cases h : d = c
  · subst h; rw [chan_modChan_same]; exact hf _ hd
  · rw [chan_modChan_ne h]; exact ⟨hd, rfl, rfl, rfl⟩

/-- Whatever becomes of a channel that is not held. -/
theorem heldStays_of_elsewhere {c : Nat} {s t : State} (h : elsewhere c t = elsewhere c s) (hc : (chan s c).held = false) : HeldStays s t := by
  refine ⟨doms_of_elsewhere h, fun d hd => ?_⟩
  have hne : d ≠ c := fun e => by simp [e, hc] at hd
  rw [chan_of_elsewhere h hne]
  exact ⟨hd, rfl, rfl, rfl⟩

theorem heldStays_forEach {α : Type} {l : List α} {f : α → State → State} {s : State} (h : ∀ a s, HeldStays s (f a s)) : HeldStays s (forEach l s f) :=
  forEach_inv (P := HeldStays s) (.refl s) fun a t ht => ht.trans (h a t)

theorem heldStays_forUpTo {n : Nat} {f : Nat → State → State} {s : State} (h : ∀ i s, HeldStays s (f i s)) : HeldStays s (forUpTo n s f) :=
  forUpTo_inv (P := HeldStays s) (.refl s) fun i t ht => ht.trans (h i t)

theorem heldStays_stopStream (c : Nat) (s : State) : HeldStays s (stopStream c s) := heldStays_modChan c _ s fun _ h => ⟨h, rfl, rfl, rfl⟩

theorem heldStays_startForce (c : Nat) (s : State) : HeldStays s (startForce c s) := heldStays_modChan c _ (tick s) fun _ h => ⟨h, rfl, rfl, rfl⟩

theorem heldStays_holdForce (c : Nat) (s : State) : HeldStays s (holdForce c s) := by
  unfold holdForce
  split
  · exact heldStays_modChan c _ s fun _ h => ⟨h, rfl, rfl, rfl⟩
  · exact .refl s

theorem heldStays_dropHeld (c : Nat) (s : State) : HeldStays s (dropHeld c s) := heldStays_of_chans rfl rfl

theorem pinSide_markMismatch (c : Nat) (s : State) : pinSide (markMismatch c s) = pinSide s := by
  simp [markMismatch]

theorem heldStays_checkMark (y : TileMark) (stops : Bool) (s : State) : HeldStays s (checkMark y stops s) := by
  unfold checkMark
  extract_lets p a mark idx act q s1 s2 s3
  have h2 : HeldStays s s2 := heldStays_of_chans rfl rfl
  have h3 : HeldStays s s3 := h2.trans (heldStays_of_pinSide (pinSide_markMismatch ..))
  split
  · exact .refl s
  · split
    · exact heldStays_of_pinSide (by rw [pinSide_raiseBit, pinSide_modReg]; rfl)
    · split
      · exact h2
      · split
        · exact h3.trans (heldStays_modChan _ _ _ fun _ h => ⟨h, rfl, rfl, rfl⟩)
        · exact h3

theorem heldStays_settleMarks (c : Nat) (s : State) : HeldStays s (settleMarks c s) := by
  unfold settleMarks
  extract_lets k old
  have marks : HeldStays s (modBase k (fun b => { b with marks := b.marks.filter (fun y => y.ch != c) }) s) := heldStays_of_chans rfl rfl
  have checks := marks.trans (heldStays_forEach (l := old) fun y s => heldStays_checkMark y false s)
  exact checks.trans (heldStays_modChan c _ _ fun _ h => ⟨h, rfl, rfl, rfl⟩)

theorem pinSide_strmFlag (c b irq : Nat) (s : State) : pinSide (strmFlag c b irq s) = pinSide s := by simp [strmFlag]

theorem heldStays_setupStream (c : Nat) (s : State) : HeldStays s (setupStream c s) := by
  unfold setupStream
  extract_lets p s0 fin count g pm s1 s2 s3
  have h2 : HeldStays s s2 := (heldStays_settleMarks c s).trans (heldStays_modChan c _ s1 fun _ h => ⟨h, rfl, rfl, rfl⟩)
  split
  · exact heldStays_of_pinSide (pinSide_strmFlag ..)
  · exact h2.trans (heldStays_of_chans rfl rfl)

theorem heldStays_pmuChange (c : Nat) (was : Forced) (s : State) : HeldStays s (pmuChange c was s) := by
  unfold pmuChange
  extract_lets m begins s1
  have h1 : HeldStays s s1 := by
    unfold s1
    split
    · exact heldStays_startForce c s
    · exact .refl s
  split
  · exact h1
  · exact h1.trans (heldStays_modChan c _ s1 fun _ h => ⟨h, rfl, rfl, rfl⟩)

/-- New settings neither release a held channel nor switch its function (02 R46, R59: a mode change and a switch pass it over). -/
theorem heldStays_settingsChange (c : Nat) (oldFunc oldStrm : Word) (was : Forced) (atBoundary : Bool) (s : State) :
    HeldStays s (settingsChange c oldFunc oldStrm was atBoundary s) := by
  unfold settingsChange
  extract_lets p new run toggled s1 s2 s3 x
  have h1 : HeldStays s s1 := heldStays_modChan c _ s fun _ h => ⟨h, rfl, rfl, rfl⟩
  have h2 : HeldStays s s2 := by
    unfold s2
    split
    · exact h1.trans (heldStays_stopStream c s1)
    · exact h1
  have h3 : HeldStays s s3 := by
    unfold s3
    split
    · exact h2.trans (heldStays_setupStream c s2)
    · exact h2
  split
  · exact h3.trans (heldStays_modChan c _ s3 fun x h => ⟨h, by simp [h], by simp [h], rfl⟩)
  · split
    · rename_i hx
      exact h3.trans (heldStays_of_elsewhere (elsewhere_startSwitch ..) (by simpa [x] using hx.2.2))
    · exact h3.trans (heldStays_pmuChange c was s3)

theorem heldStays_takeEffect (c : Nat) (atBoundary : Bool) (s : State) : HeldStays s (takeEffect c atBoundary s) :=
  (heldStays_holdForce c s).trans ((heldStays_dropHeld c _).trans (heldStays_settingsChange ..))

theorem heldStays_settleHeld (s : State) : HeldStays s (settleHeld s) :=
  heldStays_forUpTo fun c s => by
    split
    · exact .refl s
    · exact heldStays_takeEffect c false s

end Sys2Proof.Machine
end

section
/-! SUPPORT. DOMAIN_LOSS of D8, of a tile, of D9 and of a stack (01 R21-R25). -/

namespace Sys2Proof.Machine

/-! ### The loss of a domain that was up -/

/-- A state in which a domain of s has just been lost, before the loss has had effects. -/
structure JustLost (d : Nat) (s w : State) : Prop where
  chans : w.chans = s.chans
  bases : w.bases = s.bases
  lost : domLost w d = true
  others : ∀ e, e ≠ d → dom w e = dom s e

theorem JustLost.chan_eq {d : Nat} {s w : State} (h : JustLost d s w) (c : Nat) : chan w c = chan s c := by
  unfold chan; rw [h.chans]

theorem justLost_setDom {d : Nat} {s u : State} (h : pinSide u = pinSide s) (x : Domain) (hx : (!x.good || x.inReset || x.isolated) = true) :
    JustLost d s (setDom d x u) where
  chans := (chans_of_pinSide h :)
  bases := (bases_of_pinSide h :)
  lost := by unfold domLost; rw [dom_setDom_same]; exact hx
  others := fun e he => by rw [dom_setDom_ne he]; unfold dom; rw [doms_of_pinSide h]

/-- What DOMAIN_LOSS does to a domain that was up: the effects of the loss, and with a reset those of the reset (R21, 17 R429). -/
theorem loseDomain_of_up {d : Nat} {s : State} (l : LossCause) (h : domLost s d = false) :
    ∃ w, JustLost d s w ∧ loseDomain d l s = if l = .reset then resetDomain d (lossEffects d w) else lossEffects d w := by
  obtain ⟨⟨hg, hr⟩, hi⟩ : ((dom s d).good = true ∧ (dom s d).inReset = false) ∧ (dom s d).isolated = false := by simpa [domLost] using h
  have up {u : State} (hu : pinSide u = pinSide s) : domLost u d = false := (domLost_of_doms (doms_of_pinSide hu) d).trans h
  cases l with
  | powerGood =>
    have hu : pinSide (reportLoss d (raiseBit rstPage 0 s)) = pinSide s := by simp
    exact ⟨_, justLost_setDom hu { dom s d with good := false } rfl, by simp [loseDomain, loseBy, hg, up hu]⟩
  | reset =>
    exact ⟨_, justLost_setDom rfl { dom s d with inReset := true, due := false } (by simp), by simp [loseDomain, loseBy, hr, h]⟩
  | isolated =>
    have hu : pinSide (reportLoss d s) = pinSide s := pinSide_reportLoss d s
    have hd : dom (reportLoss d s) d = dom s d := rfl
    exact ⟨_, justLost_setDom hu { dom s d with isolated := true } (by simp), by simp [loseDomain, isolate, loseBy, hi, hd, up hu]⟩

/-- What precedes the effects that depend on the kind of domain. -/
theorem pinSide_boundaryLost (d : Nat) (w : State) : pinSide (skipDomain d (endCrossing d w)) = pinSide w := by simp

/-! ### Contacts -/

theorem contact_of_open {t : State} {c : Nat} (h : outputsOpen t c = true) : contact t c = {} := by
  simp [contact, h]

/-- Quench does not watch the channels of a tile without power-good or in reset. -/
theorem domLost_of_unwatched {s : State} {c : Nat} (h : watched s c = false) : domLost s (tileOf c) = true := by
  have down : (dom s (tileOf c)).good = true → (dom s (tileOf c)).inReset = true := by simpa [watched] using h
  cases hg : (dom s (tileOf c)).good with
  | false => simp [domLost, hg]
  | true => simp [domLost, down hg]

theorem outputsOpen_of_lost {t : State} {c : Nat} (h : domLost t (tileOf c) = true) : outputsOpen t c = true := by
  simp [outputsOpen, h]

/-- A contact that nothing drives, loads, terminates or forces (15 R393). -/
def Idle (x : Contact) : Prop := x.driver = none ∧ x.load = none ∧ x.term = none ∧ x.force = .nothing

theorem idle_of_safe {t : State} {c : Nat} (h : Safe (chan t c)) : Idle (contact t c) := by
  obtain ⟨hh, hf, hp⟩ := h
  unfold contact
  dsimp only
  split
  · exact ⟨rfl, rfl, rfl, rfl⟩
  · rw [hp]
    unfold steadyContact
    rcases hf with hf | hf <;> simp [hf, hh, Idle]

theorem idle_of_open {t : State} {c : Nat} (h : outputsOpen t c = true) : Idle (contact t c) := by
  rw [contact_of_open h]; exact ⟨rfl, rfl, rfl, rfl⟩

/-! ### Loss of a tile (R22) -/

theorem pinSide_degradeSites (t : Nat) (s : State) : pinSide (degradeSites t s) = pinSide s := pinSide_forEach fun _ _ => pinSide_send ..

theorem lossEffects_tile {d : Nat} (hd : d < 8) (w : State) :
    lossEffects d w = degradeSites d (forUpTo 64 (skipDomain d (endCrossing d w)) (fun p s => trip (64 * d + p) 1 d s)) := by
  simp [lossEffects, hd]

theorem position_injective (d : Nat) : Function.Injective (fun p => 64 * d + p) := fun _ _ h => by simpa using h

theorem doms_lossEffects_tile {d : Nat} (hd : d < 8) (w : State) : (lossEffects d w).doms = w.doms := by
  rw [lossEffects_tile hd, doms_of_pinSide (pinSide_degradeSites ..), doms_forUpTo (g := (64 * d + ·)) fun p s => elsewhere_trip ..]
  exact doms_of_pinSide (pinSide_boundaryLost d w)

theorem held_lossEffects_tile {d c : Nat} (hd : d < 8) (hc : tileOf c = d) (w : State) : (chan (lossEffects d w) c).held = true := by
  obtain ⟨u, -, -, hu⟩ := chan_forUpTo_own (i := c % 64) (n := 64) (position_injective d) (f := fun p s => trip (64 * d + p) 1 d s)
    (fun p s => elsewhere_trip ..) (by omega) (skipDomain d (endCrossing d w))
  have he : 64 * d + c % 64 = c := by unfold tileOf at hc; omega
  rw [lossEffects_tile hd, chan_of_pinSide (pinSide_degradeSites ..)]
  simp only [he] at hu
  rw [hu]
  exact held_trip ..

theorem chan_lossEffects_tile {d c : Nat} (hd : d < 8) (hc : tileOf c ≠ d) (w : State) : chan (lossEffects d w) c = chan w c := by
  rw [lossEffects_tile hd, chan_of_pinSide (pinSide_degradeSites ..), chan_forUpTo_other (g := (64 * d + ·)) fun p s => elsewhere_trip ..]
  · exact chan_of_pinSide (pinSide_boundaryLost d w) c
  · intro p hp
    unfold tileOf at hc
    omega

theorem elsewhere_srcChange (c : Nat) (old new : Word) (s : State) : elsewhere c (srcChange c old new s) = elsewhere c s := by
  unfold srcChange
  split <;> simp

theorem doms_resetSources (d : Nat) (s : State) : (resetSources d s).doms = s.doms := by
  unfold resetSources
  exact doms_forUpTo (g := (64 * d + ·)) (fun p s => elsewhere_srcChange ..) 64 s

theorem chan_resetSources_other {d c : Nat} (hc : tileOf c ≠ d) (s : State) : chan (resetSources d s) c = chan s c := by
  unfold resetSources
  exact chan_forUpTo_other (g := (64 * d + ·)) (fun p s => elsewhere_srcChange ..) 64 (fun p hp => by unfold tileOf at hc; omega) s

theorem doms_resetTile (d : Nat) (s : State) : (resetTile d s).doms = s.doms := by
  rw [← doms_resetSources d s]
  unfold resetTile
  generalize resetSources d s = s1
  exact doms_forUpTo (g := (64 * d + ·)) (fun p s => elsewhere_modChan ..) 64 _

theorem chan_resetTile_own {d c : Nat} (hc : tileOf c = d) (s : State) : ∃ x, chan (resetTile d s) c = tileChan true x := by
  have he : 64 * d + c % 64 = c := by unfold tileOf at hc; omega
  unfold resetTile
  extract_lets s1 s2
  obtain ⟨u, -, -, hu⟩ := chan_forUpTo_own (i := c % 64) (n := 64) (position_injective d) (f := fun p s => modChan (64 * d + p) (tileChan true) s)
    (fun p s => elsewhere_modChan ..) (by omega) s2
  simp only [he] at hu
  exact ⟨_, hu.trans (chan_modChan_same ..)⟩

theorem chan_resetTile_other {d c : Nat} (hc : tileOf c ≠ d) (s : State) : chan (resetTile d s) c = chan s c := by
  rw [← chan_resetSources_other hc s]
  unfold resetTile
  generalize resetSources d s = s1
  exact chan_forUpTo_other (g := (64 * d + ·)) (fun p s => elsewhere_modChan ..) 64 (fun p hp => by unfold tileOf at hc; omega) _

/-- A tile that is lost takes its own channels and no others. -/
theorem domainLoss_tile {s : State} (l : LossCause) {d : Nat} (hd : d < 8) (h : domLost s d = false) :
    domLost (loseDomain d l s) d = true ∧
    (∀ c, tileOf c = d → (l ≠ .reset → (chan (loseDomain d l s) c).held = true) ∧ (l = .reset → ∃ x, chan (loseDomain d l s) c = tileChan true x)) ∧
    ∀ c, tileOf c ≠ d → chan (loseDomain d l s) c = chan s c := by
  obtain ⟨w, hw, e⟩ := loseDomain_of_up l h
  rw [e]
  have lost : domLost (lossEffects d w) d = true := (domLost_of_doms (doms_lossEffects_tile hd w) d).trans hw.lost
  have other (c : Nat) (hc : tileOf c ≠ d) : chan (lossEffects d w) c = chan s c := (chan_lossEffects_tile hd hc w).trans (hw.chan_eq c)
  by_cases hl : l = .reset
  · rw [if_pos hl]
    have hr : resetDomain d (lossEffects d w) = resetTile d (lossEffects d w) := by simp [resetDomain, hd]
    rw [hr]
    exact ⟨(domLost_of_doms (doms_resetTile ..) d).trans lost, fun c hc => ⟨fun hn => absurd hl hn, fun _ => chan_resetTile_own hc _⟩,
      fun c hc => (chan_resetTile_other hc _).trans (other c hc)⟩
  · rw [if_neg hl]
    exact ⟨lost, fun c hc => ⟨fun _ => held_lossEffects_tile hd hc w, fun hn => absurd hn hl⟩, other⟩

/-! ### Loss of D8 (R24, R25) -/

/-- A channel after the loss of D8: in the safe state, and with cause DOMAIN if it was not held before. -/
def Tripped (x y : Chan) : Prop := Safe y ∧ (x.held = false → fld y.cause 27 24 = 1)

theorem lossEffects_core (w : State) : lossEffects 8 w = tripAll 1 8 (skipDomain 8 (endCrossing 8 w)) := by simp [lossEffects]

theorem doms_lossEffects_core (w : State) : (lossEffects 8 w).doms = w.doms := by
  rw [lossEffects_core, tripAll, doms_forUpTo (g := id) (f := fun c s => tripWatched c 1 8 s) fun c s => elsewhere_tripWatched ..]
  exact doms_of_pinSide (pinSide_boundaryLost 8 w)

theorem tripped_lossEffects_core {c : Nat} (hc : c < 512) {w : State} (hq : Quiet (chan w c)) (hw : watched w c = true) :
    Tripped (chan w c) (chan (lossEffects 8 w) c) := by
  obtain ⟨u, hu, hd, he⟩ := chan_forUpTo_own (i := c) (n := 512) (g := id) Function.injective_id (f := fun c s => tripWatched c 1 8 s)
    (fun c s => elsewhere_tripWatched ..) hc (skipDomain 8 (endCrossing 8 w))
  have hx : chan u c = chan w c := hu.trans (chan_of_pinSide (pinSide_boundaryLost 8 w) c)
  have hwu : watched u c = true := by
    unfold watched dom at hw ⊢
    rw [hd, doms_of_pinSide (pinSide_boundaryLost 8 w)]
    exact hw
  have ht : chan (lossEffects 8 w) c = chan (trip c 1 8 u) c := by
    rw [lossEffects_core, tripAll]
    exact he.trans (by simp only [id_eq, tripWatched, hwu, if_true])
  rw [ht, ← hx]
  exact ⟨safe_trip c 1 8 (hx ▸ hq), cause_trip_domain 8⟩

theorem HeldStays.tripped {x : Chan} {s t : State} {c : Nat} (h : HeldStays s t) (hs : Tripped x (chan s c)) : Tripped x (chan t c) := by
  obtain ⟨⟨hh, hf, hp⟩, hc⟩ := hs
  obtain ⟨h1, h2, h3, h4⟩ := h.2 c hh
  exact ⟨⟨h1, h2 ▸ hf, h3.trans hp⟩, fun hx => h4 ▸ hc hx⟩

theorem domLost_rebaseReady (s : State) (d : Nat) : domLost (rebaseReady s) d = domLost s d := by
  unfold rebaseReady
  refine forUpTo_inv (P := fun t => domLost t d = domLost s d) rfl fun e t ht => ?_
  by_cases h : d = e
  · subst h
    rw [← ht]
    unfold domLost
    rw [dom_setDom_same]
  · rw [← ht]
    unfold domLost
    rw [dom_setDom_ne h]

theorem heldStays_laneChans (s : State) : HeldStays s (forUpTo 512 s (fun c s => modChan c laneChan s)) :=
  heldStays_forUpTo fun c s => heldStays_modChan c laneChan s fun _ h => ⟨h, rfl, rfl, rfl⟩

theorem chans_rebaseReady (s : State) : (rebaseReady s).chans = s.chans := by
  unfold rebaseReady
  exact forUpTo_inv (P := fun t : State => t.chans = s.chans) rfl fun _ _ ht => ht

theorem pinSide_patinaRestart (s : State) : pinSide (patinaRestart s) = pinSide s := by
  unfold patinaRestart
  rw [pinSide_wrReg, pinSide_wrReg]
  rfl

/-- A reset of D8 shifts the READY instants of the domains, and then leaves every held channel held. -/
theorem resetCore_heldStays (s : State) : ∃ u, u.chans = s.chans ∧ (∀ d, domLost u d = domLost s d) ∧ HeldStays u (resetCore s) := by
  have hp : pinSide (patinaRestart (resetPages 8 s)) = pinSide s := (pinSide_patinaRestart _).trans (pinSide_resetPages 8 s)
  refine ⟨_, (chans_rebaseReady _).trans (chans_of_pinSide hp),
    fun d => (domLost_rebaseReady _ d).trans (domLost_of_doms (doms_of_pinSide hp) d), ?_⟩
  unfold resetCore
  extract_lets s1 s2
  have h2 : HeldStays s1 s2 := heldStays_laneChans s1
  clear_value s2
  refine h2.trans (HeldStays.trans ?_ (heldStays_settleHeld _))
  exact heldStays_of_chans rfl rfl

/-- The loss of D8, by whatever cause: it is lost, the other domains are as up or lost as before, and every channel that Quench watches has
tripped. -/
theorem domainLoss_core {s : State} (l : LossCause) (h : domLost s 8 = false) :
    domLost (loseDomain 8 l s) 8 = true ∧ (∀ d, d ≠ 8 → domLost (loseDomain 8 l s) d = domLost s d) ∧
    ∀ c, c < 512 → Quiet (chan s c) → watched s c = true → Tripped (chan s c) (chan (loseDomain 8 l s) c) := by
  obtain ⟨w, hw, e⟩ := loseDomain_of_up l h
  have lost (d : Nat) : domLost (lossEffects 8 w) d = domLost w d := domLost_of_doms (doms_lossEffects_core w) d
  have others (d : Nat) (hd : d ≠ 8) : domLost w d = domLost s d := by unfold domLost; rw [hw.others d hd]
  have tripped (c : Nat) (hc : c < 512) (hq : Quiet (chan s c)) (hs : watched s c = true) : Tripped (chan s c) (chan (lossEffects 8 w) c) := by
    rw [← hw.chan_eq c] at hq ⊢
    refine tripped_lossEffects_core hc hq ?_
    unfold watched at hs ⊢
    rwa [hw.others (tileOf c) (by have := tileOf_lt hc; omega)]
  rw [e]
  by_cases hl : l = .reset
  · rw [if_pos hl]
    obtain ⟨u, hu, hud, hr⟩ := resetCore_heldStays (lossEffects 8 w)
    have hc : resetDomain 8 (lossEffects 8 w) = resetCore (lossEffects 8 w) := by simp [resetDomain]
    rw [hc]
    have after (d : Nat) : domLost (resetCore (lossEffects 8 w)) d = domLost w d := (domLost_of_doms hr.1 d).trans ((hud d).trans (lost d))
    refine ⟨(after 8).trans hw.lost, fun d hd => (after d).trans (others d hd), fun c hc hq hs => ?_⟩
    have hx : chan u c = chan (lossEffects 8 w) c := by unfold chan; rw [hu]
    exact hr.tripped (by rw [hx]; exact tripped c hc hq hs)
  · rw [if_neg hl]
    exact ⟨(lost 8).trans hw.lost, fun d hd => (lost d).trans (others d hd), tripped⟩

end Sys2Proof.Machine
end

section
/-! PROOFS. DOMAIN_LOSS of D9 and of a stack, and what follows of every domain. -/

namespace Sys2Proof.Machine

/-- The reset of D9 or of a stack leaves the pins and the domains alone. -/
theorem pinSide_resetDomain {d : Nat} (h : 9 ≤ d) (s : State) : pinSide (resetDomain d s) = pinSide s := by
  unfold resetDomain
  rw [if_neg (by omega), if_neg (by omega)]
  split
  · exact pinSide_of rfl rfl rfl
  · exact pinSide_of rfl rfl rfl

theorem lossEffects_of_nine_le {d : Nat} (h : 9 ≤ d) (w : State) : lossEffects d w =
    if d = 9 then linkDown (fabricLost (skipDomain d (endCrossing d w))) else stackLost (d - 10) (skipDomain d (endCrossing d w)) := by
  unfold lossEffects
  dsimp only
  rw [if_neg (by omega), if_neg (by omega)]

theorem pinSide_lossEffects {d : Nat} (h : 9 ≤ d) (w : State) : pinSide (lossEffects d w) = pinSide w := by
  rw [lossEffects_of_nine_le h]
  split <;> simp

/-- The loss of D9 or of a stack takes no timebase and no channel (R23). -/
theorem domainLoss_pins_of_nine_le {s : State} (l : LossCause) {d : Nat} (hd : 9 ≤ d) (h : domLost s d = false) :
    domLost (loseDomain d l s) d = true ∧ (loseDomain d l s).bases = s.bases ∧ ∀ c, chan (loseDomain d l s) c = chan s c := by
  obtain ⟨w, hw, e⟩ := loseDomain_of_up l h
  have hp : pinSide (loseDomain d l s) = pinSide w := by
    rw [e]
    split
    · rw [pinSide_resetDomain hd, pinSide_lossEffects hd]
    · rw [pinSide_lossEffects hd]
  exact ⟨(domLost_of_doms (doms_of_pinSide hp) d).trans hw.lost, (bases_of_pinSide hp).trans hw.bases,
    fun c => (chan_of_pinSide hp c).trans (hw.chan_eq c)⟩

/-! ### D9 (13 R363) -/

theorem fabric_completeDesc (i kind : Nat) (s : State) : (completeDesc i kind s).fabric = s.fabric := by
  have h : (bankPut .agent (ringAt s i + 3) [BitVec.ofNat 8 (0x80 + kind)] s).fabric = s.fabric := by rw [bankOnly_bankPut]
  rw [completeDesc, raiseBit_fabric, h]

theorem outstanding_endTransaction (x : FabTrans) (kind : Nat) (s : State) :
    (endTransaction x kind s).fabric.outstanding = s.fabric.outstanding.erase x := by
  unfold endTransaction
  extract_lets s1
  rw [fabric_completeDesc, (pageOnly_wmSample ..).fabric_eq]
  rfl

theorem outstanding_endAll (l : List FabTrans) (s : State) (h : s.fabric.outstanding = l) :
    (forEach l s (fun x s => endTransaction x 4 s)).fabric.outstanding = [] := by
  induction l generalizing s with
  | nil => exact h
  | cons x l ih => exact ih (endTransaction x 4 s) (by rw [outstanding_endTransaction, h, List.erase_cons_head])

theorem fabric_ringEnds (s : State) : (ringEnds s).fabric = s.fabric := by
  unfold ringEnds
  dsimp only
  split
  · rfl
  · rw [fabric_completeDesc]; rfl

theorem entryPort_of_lost {s : State} (h : domLost s 9 = true) (e : Word) : entryPort s e = none := by
  simp [entryPort, portUp, h]

/-- A frame that finds no port leaves no transaction outstanding. -/
theorem outstanding_sendTo_of_lost (f : Frame) {s : State} (h : domLost s 9 = true) : (sendTo f s).fabric.outstanding = s.fabric.outstanding := by
  have hc : domLost (countFb 0x738 s) 9 = true := h
  unfold sendTo
  dsimp only
  rw [entryPort_of_lost h]
  repeat' split
  · rfl
  · contradiction
  · rfl
  · rfl
  · rw [routeQuiet, entryPort_of_lost hc]; rfl

theorem outstanding_notice_of_lost (code data : Nat) {s : State} (h : domLost s 9 = true) :
    (notice code data s).fabric.outstanding = s.fabric.outstanding := by
  unfold notice
  split
  · rfl
  · exact outstanding_sendTo_of_lost _ h

theorem outstanding_holdover_of_lost {s : State} (h : domLost s 9 = true) : (holdover s).fabric.outstanding = s.fabric.outstanding := by
  unfold holdover
  have hp (p : Nat) : portUp s p = false := by simp [portUp, h]
  split
  · rfl
  · rename_i p _
    simp only [hp, Bool.false_eq_true, if_false, and_false]
    split
    · rfl
    · rw [outstanding_notice_of_lost 3 p (by simp [offer, h])]
      simp [offer]

/-- No descriptor is outstanding once D9 is lost. -/
theorem outstanding_fabricLost {s : State} (h : domLost s 9 = true) : (fabricLost s).fabric.outstanding = [] := by
  unfold fabricLost
  extract_lets s1 s2 s3
  have d1 : pinSide s1 = pinSide s := pinSide_forUpTo fun p s => pinSide_setPortAt ..
  have d2 : pinSide s2 = pinSide s1 := pinSide_forEach fun x s => pinSide_endTransaction ..
  have d3 : pinSide s3 = pinSide s2 := pinSide_forUpTo fun _ s => pinSide_ringEnds s
  have lost : domLost s3 9 = true := (domLost_of_doms (doms_of_pinSide (d3.trans (d2.trans d1))) 9).trans h
  have o2 : s2.fabric.outstanding = [] := outstanding_endAll _ s1 rfl
  have o3 : s3.fabric = s2.fabric := forUpTo_inv (P := fun t : State => t.fabric = s2.fabric) rfl fun _ t ht => (fabric_ringEnds t).trans ht
  clear_value s3
  rw [outstanding_holdover_of_lost (by exact lost)]
  exact (congrArg Fabric.outstanding o3).trans o2

theorem outstanding_linkDown (s : State) : (linkDown s).fabric.outstanding = s.fabric.outstanding := by
  unfold linkDown
  split
  · simp
  · rfl

/-- The link is down after it goes down (19 R480). -/
theorem linkDown_link (s : State) : bit (rdReg (linkDown s) pciePage 0x700) 31 = false := by
  unfold linkDown
  split
  · rw [raiseBit, rdReg_raise_off _ (by decide) (by decide), rdReg_modReg_ne (by decide) (by decide) (by decide) (by decide) (by decide),
      rdReg_modReg_same, bit_setBit_ne _ _ (by decide) (by decide) (by decide), bit_setBit_ne _ _ (by decide) (by decide) (by decide),
      bit_setBit_same _ _ (by decide)]
  · rename_i h; simpa using h

/-- A register outside the bankable range that a reset takes reads its reset value. -/
theorem rdReg_resetPages {d p o : Nat} (ho : bankable o = false) (hr : resetWith d (regKey false p o / 4096 % 16384) (regKey false p o % 4096) = true) (s : State) :
    rdReg (resetPages d s) p o = resetAt p o := by
  have hk : roleKey (resetPages d s) false p o = regKey false p o := by simp [roleKey, ho]
  unfold rdReg rdRole
  rw [hk]
  exact (smGet_smDrop _ _ (fun k => resetWith d (k / 4096 % 16384) (k % 4096)) _).trans (if_pos hr)

theorem resetFabric_link (s : State) : bit (rdReg (resetFabric s) pciePage 0x700) 31 = false := by
  have h : rdReg (resetFabric s) pciePage 0x700 = rdReg (resetPages 9 s) pciePage 0x700 := rfl
  rw [h, rdReg_resetPages (by decide) (by decide)]
  decide

/-- The loss of D9 takes the link and the descriptors (R363). -/
theorem domainLoss_fabric {s : State} (l : LossCause) (h : domLost s 9 = false) :
    bit (rdReg (loseDomain 9 l s) pciePage 0x700) 31 = false ∧ (loseDomain 9 l s).fabric.outstanding = [] := by
  obtain ⟨w, hw, e⟩ := loseDomain_of_up l h
  rw [e]
  split
  · exact ⟨resetFabric_link _, rfl⟩
  · rw [lossEffects_of_nine_le (Nat.le_refl 9), if_pos rfl]
    refine ⟨linkDown_link _, (outstanding_linkDown _).trans (outstanding_fabricLost ?_)⟩
    exact (domLost_of_doms (doms_of_pinSide (pinSide_boundaryLost 9 w)) 9).trans hw.lost

/-! ### A stack (R23; 09 R236) -/

theorem windowTarget_ne_hbm (mc : Bool) (o n : Nat) : windowTarget mc o ≠ .hbm n := by
  unfold windowTarget
  split
  · split <;> nofun
  · split <;> nofun

/-- Whether an address lies in a stack does not depend on the state: MX_CTL.REMAP moves the windows only. -/
theorem targetOf_hbm_congr {s : State} (t : State) {a n : Nat} (h : targetOf s a = .hbm n) : targetOf t a = .hbm n := by
  unfold targetOf at h ⊢
  by_cases h1 : a < 0x400000
  · rw [if_pos h1] at h
    exact absurd h (windowTarget_ne_hbm _ _ n)
  · by_cases h2 : a < 0x800000
    · rw [if_neg h1, if_pos h2] at h
      exact absurd h (windowTarget_ne_hbm _ _ n)
    · rw [if_neg h1, if_neg h2] at h ⊢
      exact h

theorem mem_smKeys {α : Type} {d : α} {p : Nat → α → Bool} {m : SMap α} {i : Nat} (h : p i (smGet d m i) = true) (hd : p i d = false) :
    i ∈ smKeys p m := by
  induction m with
  | nil => simp [smGet, hd] at h
  | cons e m ih =>
    obtain ⟨k, v⟩ := e
    unfold smKeys at ih ⊢
    by_cases hk : k = i
    · subst hk
      have hv : p k v = true := by simpa [smGet] using h
      simp [hv]
    · have hm : i ∈ (m.filter (fun e => p e.1 e.2)).map Prod.fst := ih (by simpa [smGet, hk] using h)
      by_cases hv : p k v = true
      · simp only [List.filter_cons, hv, if_true, List.map_cons]; exact List.mem_cons_of_mem _ hm
      · simpa only [List.filter_cons, hv, Bool.false_eq_true, if_false] using hm

/-- Every request of a queue to a stack has failed with DOMAIN, its data discarded. -/
def QueueFailed (s : State) (n : Nat) (q : List QueueReq) : Prop := ∀ r ∈ q, targetOf s r.addr = .hbm n → r.words = none ∧ r.failed = some 4

theorem queueFailed_queueLost (s t : State) (n : Nat) (q : List QueueReq) : QueueFailed s n (queueLost n q t) := by
  intro r hr ht
  obtain ⟨x, -, rfl⟩ := List.mem_map.1 hr
  by_cases hx : targetOf t x.addr = .hbm n
  · rw [if_pos hx]; exact ⟨rfl, rfl⟩
  · rw [if_neg hx] at ht
    exact absurd (targetOf_hbm_congr t ht) hx

theorem queueFailed_stackLost (s t : State) (n k : Nat) : QueueFailed s n (eng (stackLost n t) k).queue := by
  unfold stackLost
  generalize hl : smKeys (fun _ e => e.queue.any (fun r => targetOf t r.addr == .hbm n)) t.engines = l
  have start : k ∈ l ∨ QueueFailed s n (eng t k).queue := by
    by_cases hq : (eng t k).queue.any (fun r => targetOf t r.addr == .hbm n) = true
    · exact .inl (hl ▸ mem_smKeys (d := engDefault k) hq (by unfold engDefault; split <;> rfl))
    · refine .inr fun r hr ht => absurd (List.any_eq_true.2 ⟨r, hr, ?_⟩) hq
      simpa using targetOf_hbm_congr t ht
  clear hl
  induction l generalizing t with
  | nil => exact start.resolve_left (by simp)
  | cons j l ih =>
    refine ih _ ?_
    by_cases hj : k = j
    · subst hj
      exact .inr (by rw [eng_modEng_same]; exact queueFailed_queueLost s t n _)
    · rw [eng_modEng_ne hj]
      exact start.imp_left fun h => (List.mem_cons.1 h).resolve_left hj

/-- The loss of a stack fails every queue request to it. -/
theorem domainLoss_stack {s : State} (l : LossCause) {d : Nat} (hd : 10 ≤ d) (h : domLost s d = false) (k : Nat) :
    QueueFailed s (d - 10) (eng (loseDomain d l s) k).queue := by
  obtain ⟨w, -, e⟩ := loseDomain_of_up l h
  have failed : QueueFailed s (d - 10) (eng (lossEffects d w) k).queue := by
    rw [lossEffects_of_nine_le (by omega), if_neg (by omega)]
    exact queueFailed_stackLost s _ _ k
  rw [e]
  split
  · unfold resetDomain
    rw [if_neg (by omega), if_neg (by omega), if_neg (by omega)]
    exact failed
  · exact failed

/-! ### The obligation -/

theorem exec_domainLoss (d : Dom) (l : LossCause) (s : State) : exec (.domainLoss d l) s = .next (loseDomain d.val l s) := rfl

/-- After the loss of D8 no channel drives, loads, terminates or forces anything (R24, R25). -/
theorem idle_of_domainLoss_core {s : State} (l : LossCause) (h : domLost s 8 = false) (c : Ch) (hq : Quiet (chan s c.val)) :
    Idle (contact (loseDomain 8 l s) c.val) := by
  obtain ⟨-, others, tripped⟩ := domainLoss_core l h
  cases hw : watched s c.val with
  | true => exact idle_of_safe (tripped c.val c.isLt hq hw).1
  | false =>
    refine idle_of_open (outputsOpen_of_lost ?_)
    rw [others _ (by have := tileOf_lt c.isLt; omega)]
    exact domLost_of_unwatched hw

/-- Settles O15. D8: the trips hold every channel that Quench watches, and the outputs of the others are open. A tile: its trips, or its
reset values, and its lost power. D9 and a stack: no effect of the loss reaches a channel or a timebase. -/
theorem lossOfTheShellHoldsEveryChannel : Obligations.LossOfTheShellHoldsEveryChannel := by
  unfold Obligations.LossOfTheShellHoldsEveryChannel
  refine ⟨fun s l h hq => ?_, fun s l d h => ?_, fun s l d hd h => ?_⟩
  · obtain ⟨lost, -, tripped⟩ := domainLoss_core l h
    refine ⟨_, exec_domainLoss 8 l s, lost, fun c => ⟨fun x hx => hx ▸ idle_of_domainLoss_core l h c (hq c), fun hg hr => ?_⟩⟩
    obtain ⟨⟨held, func, -⟩, cause⟩ := tripped c.val c.isLt (hq c) (by simp [watched, hg, hr])
    exact ⟨held, func, cause⟩
  · obtain ⟨lost, own, other⟩ := domainLoss_tile l d.isLt h
    refine ⟨_, exec_domainLoss _ l s, lost, fun c hc => ?_, fun c hc => other c.val hc⟩
    have opened : outputsOpen (loseDomain d.val l s) c.val = true := outputsOpen_of_lost (hc ▸ lost)
    refine ⟨opened, contact_of_open opened, (own c.val hc).1, fun hl => ?_⟩
    obtain ⟨x, hx⟩ := (own c.val hc).2 hl
    rw [hx]
    exact ⟨rfl, rfl, rfl, rfl⟩
  · obtain ⟨lost, bases, chans⟩ := domainLoss_pins_of_nine_le l hd h
    refine ⟨_, exec_domainLoss d l s, lost, bases, fun c x y hx hy => ?_, fun h9 => ?_, fun h10 k r hr ht => domainLoss_stack l h10 h k r hr ht⟩
    · rw [hx, hy, chans]
      exact ⟨rfl, rfl, rfl, rfl, rfl, rfl⟩
    · rw [h9] at h ⊢
      exact domainLoss_fabric l h

end Sys2Proof.Machine
end

section
/-! SUPPORT. PAL commands: when one is taken, what a COPY in progress may change meanwhile, and what its end moves. -/

namespace Sys2Proof.Machine

/-! ### Acceptance of a PAL command -/

/-- A service request to a page that no use holds ends no use (18 R461). -/
theorem yields_of_unused {named : Nat → Bool} {s : State} (h : inUse named s = false) : yields named s = s := by
  obtain ⟨ht, hc⟩ := Bool.or_eq_false_iff.1 h
  simp [yields, ht, hc]

theorem palYields_of_unused {l : Nat} (v : Word) {s : State}
    (h : inUse (fun p => p == chPage (8 * l + fld (rdReg s (palPage l) 0x700) 10 8)) s = false) : palYields l v s = s := by
  unfold palYields
  split
  · rfl
  · exact yields_of_unused h

/-- The command that the selection names (03 R93, R94). -/
def selected (s : State) (l : Nat) (wr : Bool) : PalCommand :=
  let sel := rdReg s (palPage l) 0x700
  let c := 8 * l + fld sel 10 8
  ⟨wr, c, smGet false s.swapped (chPage c) != bit sel 11, fld sel 7 0, palData s l, !bit sel 11⟩

/-- The page takes the selected command as the one in progress, and steps the selection. -/
def startPal (l : Nat) (wr : Bool) (s : State) : State :=
  wrReg (palPage l) 0x700 (palStep (rdReg s (palPage l) 0x700)) { s with palCmds := smPut none s.palCmds l (some (selected s l wr)) }

/-- PAL_CMD.RD is taken while no command is in progress. -/
theorem palCmdWrite_read {l : Nat} {s : State} (m : Master) (h : palCmd s l = none) : palCmdWrite l m 2 s = startPal l false s := by
  have hw : bit 2 0 = false := by decide
  have hr : bit 2 1 = true := by decide
  simp only [palCmdWrite, h, hw, hr, Option.isSome_none, Bool.false_and, Bool.or_self, Bool.not_true, Bool.and_false, Bool.false_eq_true, if_false]
  rfl

/-- PAL_CMD.WR is taken while no command is in progress and no armed Hang holds the selected set. -/
theorem palCmdWrite_write {l : Nat} {s : State} (m : Master) (h : palCmd s l = none)
    (hg : (bit (rdReg s (palPage l) 0x700) 11 && hangArmed s (chPage (8 * l + fld (rdReg s (palPage l) 0x700) 10 8))) = false) :
    palCmdWrite l m 1 s = startPal l true s := by
  have hw : bit 1 0 = true := by decide
  have hr : bit 1 1 = false := by decide
  simp only [palCmdWrite, h, hw, hr, hg, Option.isSome_none, Bool.true_and, Bool.or_self, Bool.not_true, Bool.false_and, Bool.false_eq_true, if_false]
  rfl

/-! ### What a COPY in progress may change -/

/-- t differs from s in nothing but what a COPY writes: registers and Palette words, the COPYs still to be made and the use of free values. -/
def CopyOnly (s t : State) : Prop := t = { s with free := t.free, copies := t.copies, regs := t.regs, pal := t.pal }

theorem CopyOnly.refl (s : State) : CopyOnly s s := rfl

theorem CopyOnly.trans {s t u : State} (h : CopyOnly s t) (k : CopyOnly t u) : CopyOnly s u := by
  unfold CopyOnly at *
  rw [k, h]

theorem CopyOnly.palCmds_eq {s t : State} (h : CopyOnly s t) : t.palCmds = s.palCmds := (congrArg State.palCmds h :)
theorem CopyOnly.chans_eq {s t : State} (h : CopyOnly s t) : t.chans = s.chans := (congrArg State.chans h :)
theorem CopyOnly.mem_eq {s t : State} (h : CopyOnly s t) : t.mem = s.mem := (congrArg State.mem h :)

theorem copyOnly_forEach {α : Type} {l : List α} {f : α → State → State} {s : State} (h : ∀ a s, CopyOnly s (f a s)) : CopyOnly s (forEach l s f) :=
  forEach_inv (P := CopyOnly s) (CopyOnly.refl s) fun a t ht => ht.trans (h a t)

theorem copyOnly_forUpTo {n : Nat} {f : Nat → State → State} {s : State} (h : ∀ i s, CopyOnly s (f i s)) : CopyOnly s (forUpTo n s f) :=
  forUpTo_inv (P := CopyOnly s) (CopyOnly.refl s) fun i t ht => ht.trans (h i t)

theorem copyOnly_copyPage (p : Nat) (s : State) : CopyOnly s (copyPage p s) := by
  unfold copyPage
  split
  · exact CopyOnly.refl s
  · extract_lets s1
    have regs : CopyOnly s s1 := by
      refine copyOnly_forEach fun r t => ?_
      split
      · exact CopyOnly.refl t
      · exact copyOnly_forUpTo fun i u => rfl
    clear_value s1
    split
    · exact regs.trans (copyOnly_forUpTo fun w t => rfl)
    · exact regs

theorem copyOnly_mayCopy (p : Nat) (s : State) : CopyOnly s (mayCopy p s) := by
  unfold mayCopy
  split
  · exact CopyOnly.refl s
  · split
    · refine CopyOnly.trans ?_ (copyOnly_copyPage p _)
      rfl
    · rfl

/-! ### The data registers of a PAL page -/

/-- Words written to consecutive registers of a page read back. -/
theorem rdReg_wrWords {p o n j : Nat} (f : Nat → Word) (s : State) (ho : o + 4 * n < 2 ^ 12) (hj : j < n) :
    rdReg (forUpTo n s (fun i s => wrReg p (o + 4 * i) (f i) s)) p (o + 4 * j) = f j := by
  induction n with
  | zero => omega
  | succ n ih =>
    by_cases h : j = n
    · subst h
      exact rdReg_wrReg_same ..
    · exact (rdReg_wrReg_off (by omega) (by omega) (by omega) _ _).trans (ih (by omega) (by omega))

/-- The 32-bit words of a number, put together again. -/
theorem sum_words (x n : Nat) (f : Nat → Word) (hf : ∀ i, i < n → f i = w32 (x / 2 ^ (32 * i))) :
    forUpTo n 0 (fun i m => m + (f i).toNat * 2 ^ (32 * i)) = x % 2 ^ (32 * n) := by
  induction n with
  | zero => exact (Nat.mod_one x).symm
  | succ n ih =>
    have word : (f n).toNat = x / 2 ^ (32 * n) % 2 ^ 32 := by rw [hf n (by omega)]; exact BitVec.toNat_ofNat ..
    rw [forUpTo, ih fun i hi => hf i (by omega), word, Nat.mul_succ, Nat.pow_add, Nat.mod_mul, Nat.mul_comm (x / _ % _)]

/-- PAL_DATA0-7 hold the word whose parts they read. -/
theorem palData_of_words {l : Nat} {s : State} (data : Wide) (h : ∀ i, i < 8 → rdReg s (palPage l) (0x720 + 4 * i) = w32 (data.toNat / 2 ^ (32 * i))) :
    palData s l = data := by
  unfold palData
  rw [sum_words data.toNat 8 _ h, Nat.mod_eq_of_lt data.isLt, BitVec.ofNat_toNat, BitVec.setWidth_eq]

theorem pageOnly_palShow (l : Nat) (data : Wide) (s : State) : PageOnly s (palShow l data s) :=
  forUpTo_inv (P := PageOnly s) (PageOnly.refl s) fun _ _ h => h.trans (pageOnly_wrReg ..)

/-- An interrupt of the page leaves PAL_DATA0-7 alone. -/
theorem palData_raiseBit_palShow (l i : Nat) (data : Wide) (s : State) : palData (raiseBit (palPage l) i (palShow l data s)) l = data := by
  refine palData_of_words data fun j hj => ?_
  rw [raiseBit, rdReg_raise_off _ (by omega) (by omega)]
  exact rdReg_wrWords (fun i => w32 (data.toNat / 2 ^ (32 * i))) s (by decide) hj

theorem bit_raiseBit_same (p : Nat) {i : Nat} (hi : i < 32) (s : State) : bit (rdReg (raiseBit p i s) p 0x010) i = true := by
  rw [raiseBit, rdReg_raise_same, bit_or, bit_w32_pow hi, Bool.or_true]

/-! ### The end of a PAL command -/

/-- A WR moves its data as one word; the strokes in progress may keep the old one in force to their boundary (03 R95). -/
theorem palStore_eq (c : Nat) (set : Bool) (w : Nat) (data : Wide) (s : State) :
    ∃ h, palStore c set w data s = { s with pal := smPut 0 s.pal (palKey c set w) data, palHeld := h } := by
  unfold palStore
  dsimp only
  split
  · exact ⟨_, rfl⟩
  · exact ⟨s.palHeld, rfl⟩

/-- The end of a command, on the state in which a COPY in progress may have copied the channel page (12 R327). -/
theorem palCommandEnds_of_cmd {l : Nat} {s : State} {cmd : PalCommand} (h : palCmd s l = some cmd) :
    palCommandEnds l s = palDone l (mayCopy (chPage cmd.ch) s) := by
  simp only [palCommandEnds, h]

theorem palDone_write {l : Nat} {s : State} {cmd : PalCommand} (h : palCmd s l = some cmd) (hw : cmd.write = true) :
    palDone l s = raiseBit (palPage l) 3 (palStore cmd.ch cmd.set cmd.word cmd.data { s with palCmds := smPut none s.palCmds l none }) := by
  simp only [palDone, h, hw, if_true]

theorem palDone_read {l : Nat} {s : State} {cmd : PalCommand} (h : palCmd s l = some cmd) (hw : cmd.write = false) :
    palDone l s = raiseBit (palPage l) 3 (palShow l (smGet 0 s.pal (palKey cmd.ch cmd.set cmd.word)) { s with palCmds := smPut none s.palCmds l none }) := by
  simp only [palDone, h, hw, Bool.false_eq_true, if_false]

theorem palCmd_of_ended {l : Nat} {s t : State} (h : t.palCmds = smPut none s.palCmds l none) : palCmd t l = none := by
  rw [palCmd, h, smGet_smPut_same]

/-- A WR is over: the whole word is stored, and neither a channel nor the memory has changed. -/
theorem palDone_stores {l : Nat} {s : State} {cmd : PalCommand} (h : palCmd s l = some cmd) (hw : cmd.write = true) :
    palCmd (palDone l s) l = none ∧ smGet 0 (palDone l s).pal (palKey cmd.ch cmd.set cmd.word) = cmd.data ∧
      (palDone l s).chans = s.chans ∧ (palDone l s).mem = s.mem := by
  obtain ⟨held, moved⟩ := palStore_eq cmd.ch cmd.set cmd.word cmd.data { s with palCmds := smPut none s.palCmds l none }
  rw [palDone_write h hw, moved]
  have page := pageOnly_raiseBit (palPage l) 3 { s with
    palCmds := smPut none s.palCmds l none, pal := smPut 0 s.pal (palKey cmd.ch cmd.set cmd.word) cmd.data, palHeld := held }
  refine ⟨palCmd_of_ended page.palCmds_eq, ?_, page.chans_eq, page.mem_eq⟩
  rw [page.pal_eq]
  exact smGet_smPut_same ..

/-- A RD is over: PAL_DATA0-7 hold the whole word, and neither a Palette, a channel nor the memory has changed. -/
theorem palDone_shows {l : Nat} {s : State} {cmd : PalCommand} (h : palCmd s l = some cmd) (hw : cmd.write = false) :
    palCmd (palDone l s) l = none ∧ palData (palDone l s) l = smGet 0 s.pal (palKey cmd.ch cmd.set cmd.word) ∧
      (palDone l s).pal = s.pal ∧ (palDone l s).chans = s.chans ∧ (palDone l s).mem = s.mem := by
  rw [palDone_read h hw]
  have page := (pageOnly_palShow l (smGet 0 s.pal (palKey cmd.ch cmd.set cmd.word)) { s with palCmds := smPut none s.palCmds l none }).trans
    (pageOnly_raiseBit (palPage l) 3 _)
  exact ⟨palCmd_of_ended page.palCmds_eq, palData_raiseBit_palShow .., page.pal_eq, page.chans_eq, page.mem_eq⟩

theorem palDone_flag {l : Nat} {s : State} {cmd : PalCommand} (h : palCmd s l = some cmd) : bit (rdReg (palDone l s) (palPage l) 0x010) 3 = true := by
  cases hw : cmd.write with
  | true => rw [palDone_write h hw]; exact bit_raiseBit_same _ (by decide) _
  | false => rw [palDone_read h hw]; exact bit_raiseBit_same _ (by decide) _

end Sys2Proof.Machine
end

section
/-! SUPPORT. The arrival of a compare result at its lane. -/

namespace Sys2Proof.Machine

/-! ### Lane events that cannot form -/

theorem formEvents_of_noLookups {l : Nat} {s : State} (n : Nat) (h : (lane s l).lookups = []) : formEvents l n s = s := by
  cases n with
  | zero => rfl
  | succ n => simp only [formEvents, h, firstStroke]

/-- A result whose address is still to come holds back the event of its stroke (10 R252). -/
theorem formEvents_of_oneWaiting {l : Nat} {s : State} {u : Lookup} (n : Nat) (h : (lane s l).lookups = [u]) (hf : u.found = false) :
    formEvents l n s = s := by
  cases n with
  | zero => rfl
  | succ n => simp [formEvents, h, firstStroke, hf]

/-! ### The arrival of a compare result -/

/-- The lane has the oldest result of a channel as its last one. -/
def resultTaken (c : Nat) (r : CompareResult) (rs : List CompareResult) (s : State) : State :=
  setLane (laneOf c)
    { lane s (laneOf c) with
      lastResult := r.count
      lastReg := (if slotOf r 0 / 8 = 1 then smPut none (lane s (laneOf c)).lastReg (c % 8) (some (slotOf r 0 % 4)) else (lane s (laneOf c)).lastReg) }
    (setChan c { chan s c with results := rs } s)

/-- A failing result with a site counts for it (10 R259). -/
def siteCounted (l : Nat) (r : CompareResult) (s : State) : State :=
  match resultSite r with
  | some n => if failBits r = 0 then s else countResult l n r s
  | none => s

/-- A failing result waits for its address (06 R179). -/
def lookupAdded (c : Nat) (r : CompareResult) (s : State) : State :=
  if anyFail r then setLane (laneOf c) { lane s (laneOf c) with lookups := (lane s (laneOf c)).lookups ++ [⟨c, r, none, false⟩] } s else s

theorem lookups_siteCounted (l : Nat) (r : CompareResult) (s : State) : (lane (siteCounted l r s) l).lookups = (lane s l).lookups := by
  unfold siteCounted
  split
  · split
    · rfl
    · rw [countResult, lane_modLane_same]
  · rfl

/-- While Fail Capture runs, a result counts, waits and lets the complete events form. -/
theorem resultArrives_running {c : Nat} {s : State} {r : CompareResult} {rs : List CompareResult} (h : (chan s c).results = r :: rs)
    (hl : (store s (laneOf c)).low = 2) (ha : (lane s (laneOf c)).fmAborted = false) :
    resultArrives c s = formEvents (laneOf c) 4096 (lookupAdded c r (siteCounted (laneOf c) r (resultTaken c r rs s))) := by
  have runs : ¬ ((store (resultTaken c r rs s) (laneOf c)).low ≠ 2 ∨ (lane (resultTaken c r rs s) (laneOf c)).fmAborted = true) := by
    rw [resultTaken, lane_setLane_same, ha, store_setLane, store_setChan]
    simp [hl]
  unfold resultArrives
  rw [h]
  exact if_neg runs

/-- While it does not run, a failing result is lost (07 R206). -/
theorem resultArrives_stopped {c : Nat} {s : State} {r : CompareResult} {rs : List CompareResult} (h : (chan s c).results = r :: rs)
    (hs : (store s (laneOf c)).low ≠ 2 ∨ (lane s (laneOf c)).fmAborted = true) :
    resultArrives c s = (if anyFail r then raiseBit (pageIndex ⟨.lcs, laneOf c⟩) 3 (countReg (pageIndex ⟨.lcs, laneOf c⟩) 0x718 1 (resultTaken c r rs s))
      else resultTaken c r rs s) := by
  have stopped : (store (resultTaken c r rs s) (laneOf c)).low ≠ 2 ∨ (lane (resultTaken c r rs s) (laneOf c)).fmAborted = true := by
    rw [resultTaken, lane_setLane_same, store_setLane, store_setChan]
    exact hs
  unfold resultArrives
  rw [h]
  exact if_pos stopped

/-- No event forms where no result waited before: a failing one has no address yet. -/
theorem formEvents_lookupAdded {c : Nat} {s : State} (n : Nat) (r : CompareResult) (h : (lane s (laneOf c)).lookups = []) :
    formEvents (laneOf c) n (lookupAdded c r s) = lookupAdded c r s := by
  unfold lookupAdded
  split
  · exact formEvents_of_oneWaiting n (u := ⟨c, r, none, false⟩) (by rw [lane_setLane_same, h]; rfl) rfl
  · exact formEvents_of_noLookups n h

end Sys2Proof.Machine
end

section
/-! PROOFS. PAL commands and compare results. -/

namespace Sys2Proof.Machine

theorem whileLanes_of_up {s : State} (f : State → State) (h : lanesUp s = true) : whileLanes f s = f s := if_pos h

theorem exec_palRead {l : Ln} {m : Master} {s : State} (h : Takes s (palPage l.val) m) :
    exec (.palRead l m) s = .next (palCmdWrite l.val m 2 (palYields l.val 2 s)) := congrArg _ (accessWrite_palCmd l.isLt 2 h)

theorem exec_palWrite {l : Ln} {m : Master} {s : State} (h : Takes s (palPage l.val) m) :
    exec (.palWrite l m) s = .next (palCmdWrite l.val m 1 (palYields l.val 1 s)) := congrArg _ (accessWrite_palCmd l.isLt 1 h)

theorem exec_palCommandDone (l : Ln) {s : State} (h : lanesUp s = true) : exec (.palCommandDone l) s = .next (palCommandEnds l.val s) :=
  congrArg _ (whileLanes_of_up _ h)

theorem exec_compareResultArrival (c : Ch) {s : State} (h : lanesUp s = true) : exec (.compareResultArrival c) s = .next (resultArrives c.val s) :=
  congrArg _ (whileLanes_of_up _ h)

/-- Settles O13. A command is taken as selected, on a page that no use holds; its end moves the word, since a COPY takes no command. A result
reaches its lane; the events form only of results with addresses. -/
theorem paletteWordsMoveWhole : Obligations.PaletteWordsMoveWhole := by
  unfold Obligations.PaletteWordsMoveWhole
  refine ⟨?accepted, ?ended, ?arrives⟩
  case accepted =>
    rintro l m s _ _ _ takes idle rfl rfl unused rfl
    rw [exec_palRead takes, exec_palWrite takes, palYields_of_unused 2 unused, palYields_of_unused 1 unused]
    exact ⟨congrArg _ (palCmdWrite_read m idle), fun hg => congrArg _ (palCmdWrite_write m idle hg)⟩
  case ended =>
    rintro l s _ cmd up hc rfl
    have copy := copyOnly_mayCopy (chPage cmd.ch) s
    have hu : palCmd (mayCopy (chPage cmd.ch) s) l.val = some cmd := by rw [palCmd, copy.palCmds_eq]; exact hc
    refine ⟨_, exec_palCommandDone l up, ?_⟩
    rw [palCommandEnds_of_cmd hc, ← copy.chans_eq, ← copy.mem_eq]
    cases hw : cmd.write with
    | true =>
      obtain ⟨done, stored, frame⟩ := palDone_stores hu hw
      exact ⟨done, palDone_flag hu, fun _ => ⟨stored, frame⟩, nofun⟩
    | false =>
      obtain ⟨done, frame⟩ := palDone_shows hu hw
      exact ⟨done, palDone_flag hu, nofun, fun _ => frame⟩
  case arrives =>
    rintro c s _ r rs _ _ up hr rfl rfl rfl
    rw [exec_compareResultArrival c up]
    refine ⟨?_, fun stopped => ?_⟩
    · rintro low runs _ _ rfl rfl
      rw [resultArrives_running hr low runs]
      refine ⟨rfl, fun empty => congrArg _ (formEvents_lookupAdded 4096 r ?_)⟩
      rw [lookups_siteCounted, resultTaken, lane_setLane_same]
      exact empty
    · rw [resultArrives_stopped hr stopped]
      cases anyFail r <;> rfl

end Sys2Proof.Machine
end

section
/-! SUPPORT. Interrupts, faults and watermarks of a page: the messages that follow its output, what writes of its header do, and the times of
crossings. -/

namespace Sys2Proof.Machine

/-! ### Raising and capturing (14 R374-R379) -/

/-- A page's output is made of registers alone, which following it leaves alone. -/
@[simp] theorem irqOutput_noteIrq (p q : Nat) (s : State) : irqOutput (noteIrq p s) q = irqOutput s q := by
  simp [irqOutput, irqPend, wmHits]

theorem msixDue_msixAsk (p : Nat) (s : State) :
    smGet 0 (msixAsk p s).msixDue p = smGet 0 s.msixDue p + (if bit (rdReg s p 0x008) 2 = true then 1 else 0) := by
  unfold msixAsk
  split <;> simp

/-- A rising edge of a page with HOST = 1 is due one message more. -/
theorem msixDue_noteIrq (p : Nat) (s : State) : smGet 0 (noteIrq p s).msixDue p = smGet 0 s.msixDue p +
    (if irqOutput s p = true ∧ smGet false s.irqOut p = false ∧ bit (rdReg s p 0x008) 2 = true then 1 else 0) := by
  by_cases rises : irqOutput s p = true ∧ smGet false s.irqOut p = false
  · obtain ⟨high, low⟩ := rises
    simp only [noteIrq, high, low, Bool.not_false, Bool.and_self, if_true, true_and]
    exact msixDue_msixAsk p _
  · have hno : (irqOutput s p && !smGet false s.irqOut p) = false := by simpa using rises
    rw [if_neg fun h => rises ⟨h.1, h.2.1⟩]
    simp only [noteIrq, hno, Bool.false_eq_true, if_false, Nat.add_zero]

theorem msixDue_raise (p : Nat) (b : Word) (s : State) : smGet 0 (raise p b s).msixDue p = smGet 0 s.msixDue p +
    (if irqOutput (raise p b s) p = true ∧ smGet false s.irqOut p = false ∧ bit (rdReg s p 0x008) 2 = true then 1 else 0) := by
  have due := msixDue_noteIrq p (modReg p 0x010 (fun w => w ||| b) s)
  rw [rdReg_modReg_off (by decide) (by decide) (by decide)] at due
  rw [raise, irqOutput_noteIrq]
  exact due

theorem reports_msixAsk (p : Nat) (s : State) : (msixAsk p s).reports = s.reports := by unfold msixAsk; split <;> rfl

theorem reports_noteIrq (p : Nat) (s : State) : (noteIrq p s).reports = s.reports := by
  unfold noteIrq
  dsimp only
  split
  · exact reports_msixAsk ..
  · rfl

theorem reports_captureOnly (p c o d : Nat) (s : State) : (captureOnly p c o d s).reports = s.reports := reports_noteIrq ..

/-! ### Writes of the header (14 R374, R378, R382) -/

theorem regsKept_noteAck (p : Nat) (s : State) (l : List (Nat × Nat)) : RegsKept s (noteAck p s) l := fun _ _ _ _ _ _ => rdRole_noteAck ..

theorem pageOnly_faultAck (p : Nat) (v : Word) (s : State) : PageOnly s (faultAck p v s) := by
  refine PageOnly.trans ?_ (pageOnly_noteAck ..)
  split
  · exact pageOnly_wrReg ..
  · exact PageOnly.refl s

theorem regsKept_faultAck {p : Nat} (hp : p < 2 ^ 14) (v : Word) (s : State) : RegsKept s (faultAck p v s) [(p, 0x020)] := by
  refine RegsKept.trans ?_ (regsKept_noteAck p _ _)
  split
  · exact regsKept_wrRole hp (by decide) false 0 s
  · exact RegsKept.refl s _

theorem rdReg_faultAck (p : Nat) (v : Word) (s : State) : rdReg (faultAck p v s) p 0x020 =
    (if bit (rdReg s p 0x020) 31 = true ∧ fld v 30 0 = fld (rdReg s p 0x020) 30 0 then 0 else rdReg s p 0x020) := by
  rw [faultAck, rdReg_noteAck]
  split
  · exact rdReg_wrReg_same ..
  · rfl

/-- WM_HITS, PG_WMT and PEAK take their new values in this order. -/
theorem wmClear_eq (p n : Nat) (s : State) : wmClear p n s = noteAck p (wrReg p (0x030 + 4 * n) 0
    (wrReg p (0x048 + 0x10 * n) (rdReg s p (0x044 + 0x10 * n)) (wrReg p (0x04C + 0x10 * n) 0 s))) := by
  rw [Nat.add_comm 0x044, Nat.add_comm 0x048, Nat.add_comm 0x04C]
  simp only [wmClear, Nat.add_comm 0x040, Nat.add_assoc]

theorem regsKept_wmClear {p n : Nat} (hp : p < 2 ^ 14) (hn : n < 4) (s : State) :
    RegsKept s (wmClear p n s) [(p, 0x04C + 0x10 * n), (p, 0x030 + 4 * n), (p, 0x048 + 0x10 * n)] := by
  rw [wmClear_eq]
  refine RegsKept.trans ?_ (regsKept_noteAck p _ _)
  exact (((RegsKept.refl s _).wrReg hp (by omega) (by simp) _).wrReg hp (by omega) (by simp) _).wrReg hp (by omega) (by simp) _

theorem rdReg_wmClear_hits {p n : Nat} (hn : n < 4) (s : State) : rdReg (wmClear p n s) p (0x04C + 0x10 * n) = 0 := by
  rw [wmClear_eq, rdReg_noteAck, rdReg_wrReg_off (by omega) (by omega) (by omega), rdReg_wrReg_off (by omega) (by omega) (by omega), rdReg_wrReg_same]

theorem rdReg_wmClear_time (p n : Nat) (s : State) : rdReg (wmClear p n s) p (0x030 + 4 * n) = 0 := by
  rw [wmClear_eq, rdReg_noteAck, rdReg_wrReg_same]

theorem rdReg_wmClear_peak {p n : Nat} (hn : n < 4) (s : State) :
    rdReg (wmClear p n s) p (0x048 + 0x10 * n) = rdReg s p (0x044 + 0x10 * n) := by
  rw [wmClear_eq, rdReg_noteAck, rdReg_wrReg_off (by omega) (by omega) (by omega), rdReg_wrReg_same]

theorem headerWrite_irqSet (x : Page) (p : Nat) (m : Master) (v : Word) (s : State) :
    headerWrite x p 0x01C m v s = raise p (v &&& w32 (irqMask x.kind)) s := rfl

theorem headerWrite_faultAck (x : Page) (p : Nat) (m : Master) (v : Word) (s : State) : headerWrite x p 0x024 m v s = faultAck p v s := rfl

theorem headerWrite_wmHits {x : Page} {n : Nat} {v : Word} (p : Nat) (m : Master) (s : State) (hn : n < 4)
    (assigned : wmMask x.kind / 2 ^ n % 2 = 1) (hit : bit v 31 = true) : headerWrite x p (0x04C + 0x10 * n) m v s = wmClear p n s := by
  have index : (0x04C + 0x10 * n - 0x040) / 0x10 = n := by omega
  unfold headerWrite
  split
  case h_7 =>
    dsimp only
    rw [index, if_neg (by omega), if_neg (by omega), if_pos (by omega), if_pos hit]
  all_goals omega

/-! ### Samples of the watermarks (14 R381, R383) -/

/-- Watermark n of a page has stored a sample: LEVEL, PEAK and whether it was above MARK. -/
def sampleStored (p n v : Nat) (above : Bool) (s : State) : State :=
  { modReg p (0x040 + 0x10 * n + 8) (fun w => if w.toNat < v then w32 v else w) (wrReg p (0x040 + 0x10 * n + 4) (w32 v) s) with
    wms := smPut {} s.wms (wmKey p n) ⟨above⟩ }

/-- WM_HITS of watermark n has counted one crossing more. -/
def crossingCounted (p n : Nat) (s : State) : State :=
  wrReg p (0x040 + 0x10 * n + 0xC) (setFld (setBit (rdReg s p (0x040 + 0x10 * n + 0xC)) 31 true) 15 0
    (min (fld (rdReg s p (0x040 + 0x10 * n + 0xC)) 15 0 + 1) 0xFFFF)) s

/-- A sample above MARK is a crossing where the one before it was not above. -/
theorem wmSample_eq (p n value : Nat) (s : State) {v : Nat} {above : Bool} {u t : State} (hv : v = min value 0xFFFFFFFF)
    (ha : above = decide ((rdReg s p (0x040 + 0x10 * n)).toNat < v)) (hu : u = sampleStored p n v above s) (ht : t = crossingCounted p n u) :
    wmSample p n value s =
      if above && !(smGet {} s.wms (wmKey p n)).above then
        noteIrq p (if bit (rdReg u p (0x040 + 0x10 * n + 0xC)) 31 then t else wrReg p (0x030 + 4 * n) (w32 (ft4716 t)) t)
      else u := by
  subst hv ha hu ht
  rfl

@[simp] theorem sampleStored_now (p n v : Nat) (above : Bool) (s : State) : (sampleStored p n v above s).now = s.now := by simp [sampleStored]

@[simp] theorem crossingCounted_now (p n : Nat) (s : State) : (crossingCounted p n s).now = s.now := wrReg_now ..

theorem rdReg_sampleStored {p n r : Nat} (v : Nat) (above : Bool) (s : State) (hn : n < 4) (hr : r < 2 ^ 12)
    (level : r ≠ 0x040 + 0x10 * n + 4) (peak : r ≠ 0x040 + 0x10 * n + 8) : rdReg (sampleStored p n v above s) p r = rdReg s p r :=
  (rdReg_modReg_off (by omega) hr peak.symm _ _).trans (rdReg_wrReg_off (by omega) hr level.symm _ s)

theorem rdReg_crossingCounted {p n r : Nat} (s : State) (hn : n < 4) (hr : r < 2 ^ 12) (hits : r ≠ 0x040 + 0x10 * n + 0xC) :
    rdReg (crossingCounted p n s) p r = rdReg s p r := rdReg_wrReg_off (by omega) hr hits.symm _ s

theorem w32_ft4716 (s : State) : w32 (ft4716 s) = BitVec.ofNat 32 (s.now / ns / 65536) :=
  BitVec.eq_of_toNat_eq (by simp [w32, ft4716, ftNs])

/-- The sample that first crosses the mark since the hits were cleared leaves its time (R383). -/
theorem rdReg_wmSample_time (p value : Nat) {n : Nat} (hn : n < 4) (s : State) : rdReg (wmSample p n value s) p (0x030 + 4 * n) =
    (if (rdReg s p (0x040 + 0x10 * n)).toNat < min value 0xFFFFFFFF ∧ (smGet {} s.wms (wmKey p n)).above = false ∧ bit (rdReg s p (0x04C + 0x10 * n)) 31 = false
      then BitVec.ofNat 32 (s.now / ns / 65536) else rdReg s p (0x030 + 4 * n)) := by
  generalize hv : min value 0xFFFFFFFF = v
  generalize ha : decide ((rdReg s p (0x040 + 0x10 * n)).toNat < v) = above
  generalize hu : sampleStored p n v above s = u
  generalize ht : crossingCounted p n u = t
  have hits : rdReg u p (0x040 + 0x10 * n + 0xC) = rdReg s p (0x04C + 0x10 * n) := by
    rw [← hu, rdReg_sampleStored v above s hn (by omega) (by omega) (by omega), Nat.add_right_comm]
  have stored : rdReg u p (0x030 + 4 * n) = rdReg s p (0x030 + 4 * n) := by
    rw [← hu, rdReg_sampleStored v above s hn (by omega) (by omega) (by omega)]
  have counted : rdReg t p (0x030 + 4 * n) = rdReg s p (0x030 + 4 * n) := by
    rw [← ht, rdReg_crossingCounted u hn (by omega) (by omega), stored]
  have time : w32 (ft4716 t) = BitVec.ofNat 32 (s.now / ns / 65536) := by
    rw [w32_ft4716, ← ht, ← hu, crossingCounted_now, sampleStored_now]
  have crosses : (rdReg s p (0x040 + 0x10 * n)).toNat < v ↔ above = true := by rw [← ha, decide_eq_true_iff]
  rw [wmSample_eq p n value s hv.symm ha.symm hu.symm ht.symm, hits]
  simp only [crosses]
  cases above with
  | false => simpa using stored
  | true =>
    cases (smGet {} s.wms (wmKey p n)).above with
    | true => simpa using stored
    | false => cases bit (rdReg s p (0x04C + 0x10 * n)) 31 <;> simp [counted, time]

/-! ### Periodic samples -/

theorem exec_watermarkPeriodicSample {page : BitVec 14} {s : State} (n : Fin 4) (h : pageError s page.toNat = none) :
    exec (.watermarkPeriodicSample page n) s = .next (periodicSample page.toNat n.val s) := congrArg _ (if_neg (by simp [h]))

theorem periodicSample_records {k : Nat} (h : k < 8) (s : State) : periodicSample (clPage k) 1 s =
    wmSample (clPage k) 1 (failPipe s k).closedRecs (setFail k { failPipe s k with closedRecs := 0 } s) := by
  unfold periodicSample; rw [pageAt_clPage h]; rfl

theorem periodicSample_events {k : Nat} (h : k < 8) (s : State) : periodicSample (clPage k) 2 s =
    wmSample (clPage k) 2 ((List.range 8).foldl (fun a i => max a (lane s (laneOfCluster k i)).events.length) 0) s := by
  unfold periodicSample; rw [pageAt_clPage h]; rfl

theorem periodicSample_energy {t : Nat} (h : t < 8) (s : State) : periodicSample (tqPage t) 0 s =
    wmSample (tqPage t) 0 ((List.range 64).foldl (fun a i => max a (energy s (64 * t + i) / 100000000)) 0) s := by
  unfold periodicSample; rw [pageAt_tqPage h]; rfl

theorem periodicSample_codewords {p : Nat} (h : p < 8) (s : State) : periodicSample (fbpPage p) 1 s =
    wmSample (fbpPage p) 1 (port s p).fecMs (setPortAt p { port s p with fecMs := 0 } s) := by
  unfold periodicSample; rw [pageAt_fbpPage h]; rfl

/-! ### Messages (14 R375; 19 R479) -/

/-- A message that is due is lost with MSI-X off, pends where it is masked, and is sent otherwise. -/
theorem msixMessageDue_of_due {p n v : Nat} {s u : State} (up : domLost s 9 = false) (hn : n = smGet 0 s.msixDue p) (due : n ≠ 0)
    (hv : v = fld (rdReg s p 0x008) 15 8) (hu : u = { s with msixDue := smPut 0 s.msixDue p (n - 1) }) :
    msixMessageDue p s = (if msixOn s = false then raiseBit msixPage 0 (countReg msixPage 0x704 1 u)
      else if msixMasked s v = true then { u with pcie := { s.pcie with pba := if s.pcie.pba.contains v then s.pcie.pba else v :: s.pcie.pba } }
      else sendMsix v u) := by
  subst hn hv hu
  unfold msixMessageDue
  dsimp only
  rw [if_neg (by simp [up, due])]
  simp only [Bool.not_eq_true']
  rfl

/-- A vector whose Mask Bit has been cleared is masked by the function mask alone. -/
theorem msixFlush_unmasked {v : Nat} {s u : State} (hu : u = { s with pcie := { s.pcie with
      table := smPut 1 s.pcie.table (4 * v + 3) (setBit (msixWord s (4 * v + 3)) 0 false) } }) :
    msixFlush v u = (if s.pcie.pba.contains v = true ∧ msixOn s = true ∧ bit (rdReg s msixPage 0x700) 30 = false
      then sendMsix v { u with pcie := { u.pcie with pba := u.pcie.pba.filter (fun x => x != v) } } else u) := by
  have control : (4 * v + 3) % 4 = 3 := by omega
  have mask : bit (msixWord u (4 * v + 3)) 0 = false := by
    rw [hu]
    simp only [msixWord, control, if_true, smGet_smPut_same]
    exact bit_setBit_same _ false (by decide)
  have pba : u.pcie.pba = s.pcie.pba := by rw [hu]
  have on : msixOn u = msixOn s := by rw [hu]; rfl
  have held : rdReg u msixPage 0x700 = rdReg s msixPage 0x700 := by rw [hu]; rfl
  simp [msixFlush, msixMasked, pba, on, held, mask, and_assoc]

theorem msixUnmasked_eq (v : Nat) (s : State) : msixUnmasked v s = msixFlush v { s with pcie := { s.pcie with
    table := smPut 1 s.pcie.table (4 * v + 3) (setBit (msixWord s (4 * v + 3)) 0 false) } } := by
  have vector : (4 * v + 3) / 4 = v := by omega
  have control : (4 * v + 3) % 4 = 3 := by omega
  rw [msixUnmasked, msixTableWrite, vector, if_pos control]

end Sys2Proof.Machine
end

section
/-! PROOFS. The registers of the pages. -/

namespace Sys2Proof.Machine

theorem exec_pgIrqSetWrite {page : BitVec 14} {x : Page} {m : Master} {s : State} (v : Word) (hx : pageAt page.toNat = some x)
    (hk : x.kind ≠ .test) (h : Takes s page.toNat m) :
    exec (.pgIrqSetWrite page m v) s = .next (raise page.toNat (v &&& w32 (irqMask x.kind)) s) :=
  congrArg _ ((accessWrite_header v h hx (by decide) hk (by decide)).trans (headerWrite_irqSet ..))

theorem exec_pgFaultAckWrite {page : BitVec 14} {x : Page} {m : Master} {s : State} (v : Word) (hx : pageAt page.toNat = some x)
    (hk : x.kind ≠ .test) (h : Takes s page.toNat m) : exec (.pgFaultAckWrite page m v) s = .next (faultAck page.toNat v s) :=
  congrArg _ ((accessWrite_header v h hx (by decide) hk (by decide)).trans (headerWrite_faultAck ..))

theorem exec_wmHitsClear {page : BitVec 14} {x : Page} {m : Master} {s : State} (n : Fin 4) (v : Word) (hx : pageAt page.toNat = some x)
    (hk : x.kind ≠ .test) (h : Takes s page.toNat m) (assigned : wmMask x.kind / 2 ^ n.val % 2 = 1) :
    exec (.wmHitsClear page n m v) s = .next (wmClear page.toNat n.val s) :=
  congrArg _ ((accessWrite_header _ h hx (by omega) hk (by omega)).trans
    (headerWrite_wmHits _ m s n.isLt assigned (bit_setBit_same v true (by decide))))

theorem exec_msixMessage (page : BitVec 14) (s : State) : exec (.msixMessage page) s = .next (msixMessageDue page.toNat s) := rfl

theorem exec_msixUnmask {s : State} (vec : Byte) (up : domLost s 9 = false) : exec (.msixUnmask vec) s = .next (msixUnmasked vec.toNat s) :=
  congrArg _ (if_neg (by simp [up]))

/-- Settles O43. The output of a page follows its registers, so that raising and capturing change nothing else; a write of the header has the
one effect of its register; a sample stores LEVEL and PEAK before it counts a crossing, and neither is WM_HITS or PG_WMT. -/
theorem pagesRaiseCaptureAndSample : Obligations.PagesRaiseCaptureAndSample := by
  unfold Obligations.PagesRaiseCaptureAndSample
  refine ⟨?raised, ?captured, ?written, ?sampled, ?crossed, ?message, ?unmasked⟩
  case raised =>
    intro p b s hp
    have only := pageOnly_raise p b s
    exact ⟨rdReg_raise_same p b s, regsKept_raise hp b s, msixDue_raise p b s, only.mem_eq, only.chans_eq⟩
  case captured =>
    rintro p c o d s _ hp rfl
    have only := pageOnly_capture p c o d s
    exact ⟨rdReg_captureOnly_same p c o d s, (RegsKept.refl s _).capture hp (by simp) c o d,
      ⟨_, congrArg (· ++ [_]) (reports_captureOnly p c o d s), rfl⟩, only.mem_eq, only.chans_eq⟩
  case written =>
    intro page x m s hx hk takes
    refine ⟨fun v => exec_pgIrqSetWrite v hx hk takes, fun v => ?_, fun n v assigned => ?_⟩
    · have only := pageOnly_faultAck page.toNat v s
      exact ⟨_, exec_pgFaultAckWrite v hx hk takes, regsKept_faultAck page.isLt v s, only.chans_eq, only.mem_eq, rdReg_faultAck page.toNat v s⟩
    · have only := pageOnly_wmClear page.toNat n.val s
      exact ⟨_, exec_wmHitsClear n v hx hk takes assigned, rdReg_wmClear_hits n.isLt s, rdReg_wmClear_time page.toNat n.val s,
        rdReg_wmClear_peak n.isLt s, only.chans_eq, only.mem_eq, regsKept_wmClear page.isLt n.isLt s⟩
  case sampled =>
    intro page s up
    refine ⟨fun k hp => ⟨?_, ?_⟩, fun t hp => ?_, fun p hp => ?_⟩
    · rw [exec_watermarkPeriodicSample 1 up, hp]; exact congrArg _ (periodicSample_records k.isLt s)
    · rw [exec_watermarkPeriodicSample 2 up, hp]; exact congrArg _ (periodicSample_events k.isLt s)
    · rw [exec_watermarkPeriodicSample 0 up, hp]; exact congrArg _ (periodicSample_energy t.isLt s)
    · rw [exec_watermarkPeriodicSample 1 up, hp]; exact congrArg _ (periodicSample_codewords p.isLt s)
  case crossed => exact fun p _ value s _ hn => rdReg_wmSample_time p value hn s
  case message =>
    intro page s u n v up hn due hv hu
    rw [exec_msixMessage, msixMessageDue_of_due up hn due hv hu]
  case unmasked =>
    intro vec s u up hu
    rw [exec_msixUnmask vec up, msixUnmasked_eq, ← hu, msixFlush_unmasked hu]

end Sys2Proof.Machine
end

section
/-! SUPPORT. What the events of a stroke leave alone of what a trip decides by: energy, settings, page registers and the measurement. -/

namespace Sys2Proof.Machine

/-! ### The events of a stroke (03 R89, R90) -/

/-- The registers that the events of a channel's stroke write: the stream flags and interrupts of its Palette page, the capture and the
measurement of its own page. -/
def eventRegs (c : Nat) : List (Nat × Nat) :=
  [(palPage (laneOf c), 0x740 + 4 * (c % 8)), (palPage (laneOf c), 0x010), (chPage c, 0x020), (chPage c, 0x708)]

/-- The state t differs from s by events of a stroke of channel c: they end no measurement, and leave alone memory, the settings that
wait for a boundary, the samples of power and every register but their own. -/
structure EventsKeep (c : Nat) (s t : State) : Prop where
  mem : t.mem = s.mem
  waiting : t.held = s.held
  power : (chan t c).power = (chan s c).power
  measuring : (chan s c).pmu ≠ .idle → (chan t c).pmu ≠ .idle
  regs : RegsKept s t (eventRegs c)

namespace EventsKeep

variable {c : Nat} {s t u : State}

theorem refl (c : Nat) (s : State) : EventsKeep c s s := ⟨rfl, rfl, rfl, id, .refl s _⟩

theorem trans (h : EventsKeep c s t) (k : EventsKeep c t u) : EventsKeep c s u :=
  ⟨k.mem.trans h.mem, k.waiting.trans h.waiting, k.power.trans h.power, k.measuring ∘ h.measuring, h.regs.trans k.regs⟩

theorem tick (h : EventsKeep c s t) : EventsKeep c s (tick t) :=
  ⟨h.mem, h.waiting, h.power, h.measuring, h.regs.rest rfl rfl rfl⟩

theorem reach (h : EventsKeep c s t) (n : Nat) : EventsKeep c s (reach n t) :=
  ⟨h.mem, h.waiting, h.power, h.measuring, h.regs.rest rfl rfl rfl⟩

theorem modChan (h : EventsKeep c s t) (f : Chan → Chan) (hpower : ∀ x, (f x).power = x.power := by intro _; rfl)
    (hpmu : ∀ x, x.pmu ≠ .idle → (f x).pmu ≠ .idle := by intro _; exact id) : EventsKeep c s (modChan c f t) where
  mem := h.mem
  waiting := h.waiting
  power := by rw [chan_modChan_same, hpower, h.power]
  measuring hm := by rw [chan_modChan_same]; exact hpmu _ (h.measuring hm)
  regs := h.regs.rest rfl rfl rfl

theorem ofPage (h : EventsKeep c s t) (only : PageOnly t u) (regs : RegsKept t u (eventRegs c)) : EventsKeep c s u :=
  have same : chan u c = chan t c := by unfold chan; rw [only.chans_eq]
  h.trans ⟨only.mem_eq, only.held_eq, by rw [same], by rw [same]; exact id, regs⟩

theorem modReg (h : EventsKeep c s t) {p o : Nat} (hp : p < 2 ^ 14) (ho : o < 2 ^ 12) (hm : (p, o) ∈ eventRegs c) (f : Word → Word) :
    EventsKeep c s (modReg p o f t) :=
  h.ofPage (pageOnly_modReg ..) ((RegsKept.refl t _).modReg hp ho hm f)

theorem strmFlag (hc : c < 512) (h : EventsKeep c s t) (b : Nat) : EventsKeep c s (strmFlag c b 1 t) := by
  have page := palPage_lt (laneOf_lt hc)
  unfold Machine.strmFlag
  exact .ofPage (.modReg h page (by omega) (by simp [eventRegs]) _) (pageOnly_raiseBit ..)
    ((RegsKept.refl _ _).raiseBit page (by simp [eventRegs]) _)

theorem timingError (hc : c < 512) (h : EventsKeep c s t) : EventsKeep c s (timingError c t) := by
  unfold Machine.timingError
  exact .strmFlag hc (h.modChan _) _

theorem fillSlot (h : EventsKeep c s t) (reg : Nat) (fails : Bool) : EventsKeep c s (fillSlot c reg fails t) :=
  h.modChan _

theorem strobeRegion (h : EventsKeep c s t) (st : Stroke) (at_ : Nat) (volts : Int) : EventsKeep c s (strobeRegion c st at_ volts t).2 := by
  unfold Machine.strobeRegion
  split
  · exact h.tick
  · exact h

theorem pmuEvent (hc : c < 512) (h : EventsKeep c s t) : EventsKeep c s (pmuEvent c t) := by
  have page := chPage_lt hc
  unfold Machine.pmuEvent pmuTriggered
  split
  · exact h
  split
  · exact h.ofPage (pageOnly_captureAs ..) (.captureAs (.refl t _) page (by simp [eventRegs]) _ _ _ _ _ _ _)
  split
  · exact h
  · refine .modReg (h.modChan _ (hpmu := ?_)) page (by decide) (by simp [eventRegs]) _
    exact fun _ _ => nofun

theorem applyEvent (hc : c < 512) (h : EventsKeep c s t) (e : PalEvent) (st : Stroke) (volts : Int) :
    EventsKeep c s (applyEvent c e st volts t) := by
  unfold Machine.applyEvent
  dsimp only
  split
  · exact h.timingError hc
  split
  · split
    · exact h.timingError hc
    · exact h.modChan _
  · split
    · exact h.timingError hc
    · exact h.modChan _
  · split
    · exact h.timingError hc
    · exact .fillSlot (.modChan (h.strobeRegion ..) _) _ _
  · split
    · exact h.timingError hc
    · exact h.modChan _
  · split
    · exact h.timingError hc
    split
    · exact h.timingError hc
    · exact .fillSlot (h.modChan _) _ _
  · exact h.pmuEvent hc

theorem watchWindow (h : EventsKeep c s t) (volts : Int) (strayed : Bool) : EventsKeep c s (watchWindow c volts strayed t) :=
  h.modChan _

theorem nextEvent (hc : c < 512) (h : EventsKeep c s t) (volts : Int) (strayed : Bool) : EventsKeep c s (nextEvent c volts strayed t) := by
  unfold Machine.nextEvent
  split
  · exact h
  split
  · exact h
  · exact .applyEvent hc (.watchWindow (.modChan (h.reach _) _) volts strayed) _ _ volts

theorem eventsBefore (hc : c < 512) (h : EventsKeep c s t) (n : Nat) : EventsKeep c s (eventsBefore c n t) := by
  induction n generalizing t with
  | zero => exact h
  | succ n ih =>
    unfold Machine.eventsBefore
    split
    · exact h
    split
    · exact h
    split
    · exact ih (.nextEvent hc h.tick _ _)
    · exact h

end EventsKeep

/-! ### What a trip decides by -/

theorem tqPage_ne_chPage {c t : Nat} (hc : c < 512) (ht : t < 8) : tqPage t ≠ chPage c := fun h => by
  simpa [pageAt_tqPage ht, pageAt_chPage hc] using congrArg pageAt h

theorem tqPage_ne_palPage {l t : Nat} (hl : l < 64) (ht : t < 8) : tqPage t ≠ palPage l := fun h => by
  simpa [pageAt_tqPage ht, pageAt_palPage hl] using congrArg pageAt h

theorem chPage_ne_palPage {c l : Nat} (hc : c < 512) (hl : l < 64) : chPage c ≠ palPage l := fun h => by
  simpa [pageAt_chPage hc, pageAt_palPage hl] using congrArg pageAt h

/-- The Quench page of the tile is none of the pages that the events of a stroke write. -/
theorem rdReg_tqPage_of_regsKept {c : Nat} {s t : State} (hc : c < 512) (h : RegsKept s t (eventRegs c)) {o : Nat} (ho : o < 2 ^ 12) :
    rdReg t (tqPage (tileOf c)) o = rdReg s (tqPage (tileOf c)) o :=
  have hd := tileOf_lt hc
  h false _ o (tqPage_lt hd) ho (by simp [eventRegs, tqPage_ne_chPage hc hd, tqPage_ne_palPage (laneOf_lt hc) hd])

namespace EventsKeep

variable {c : Nat} {s t : State}

theorem energy_eq (hc : c < 512) (h : EventsKeep c s t) : energy t c = energy s c := by
  unfold energy
  rw [h.power, rdReg_tqPage_of_regsKept hc h.regs (by omega)]

theorem chFunc_eq (hc : c < 512) (h : EventsKeep c s t) : chFunc t c = chFunc s c := by
  have func : rdReg t (chPage c) 0x100 = rdReg s (chPage c) 0x100 :=
    h.regs false _ _ (chPage_lt hc) (by decide) (by simp [eventRegs, chPage_ne_palPage hc (laneOf_lt hc)])
  unfold chFunc inForce
  rw [h.waiting, func]

end EventsKeep

end Sys2Proof.Machine
end

section
/-! SUPPORT. The trip of a channel: its state step by step, and what each register and the channel hold after it. -/

namespace Sys2Proof.Machine

/-! ### QN_CAUSE (15 R408) -/

/-- QN_CAUSE as a trip leaves it: V, the cause, and the energy accounted, in 0.1 nJ. -/
def qnCause (cause e : Nat) : Word := w32 (0x80000000 + cause * 2 ^ 24 + e)

section
variable {cause e : Nat} (hcause : cause ≤ 9) (he : e ≤ 1023)
include hcause he

theorem toNat_qnCause : (qnCause cause e).toNat = 0x80000000 + cause * 2 ^ 24 + e := by
  rw [qnCause, w32, BitVec.toNat_ofNat]
  omega

theorem bit_qnCause_v : bit (qnCause cause e) 31 = true := by
  rw [qnCause, bit_w32 _ (by decide), Nat.testBit_eq_decide_div_mod_eq, decide_eq_true_iff]
  omega

theorem bit_qnCause_multi : bit (qnCause cause e) 30 = false := by
  rw [qnCause, bit_w32 _ (by decide), Nat.testBit_eq_decide_div_mod_eq, decide_eq_false_iff_not]
  omega

theorem fld_qnCause_cause : fld (qnCause cause e) 27 24 = cause := by
  rw [fld, toNat_qnCause hcause he]
  omega

theorem fld_qnCause_energy : fld (qnCause cause e) 9 0 = e := by
  rw [fld, toNat_qnCause hcause he]
  omega

end

/-! ### The trip of a channel that is not held (15 R393) -/

/-- The function a trip holds a channel in: PARK where CH_FUNC.SAFE in force selects it and the tile is up, else HIZ. -/
def safeFunc (c : Nat) (s : State) : Func := if bit (chFunc s c) 5 = true ∧ domLost s (tileOf c) = false then .park else .hiz

/-- The energy a trip shows: for ENERGY and CLAMP alone, in 0.1 nJ, 1023 at most. -/
def shownEnergy (c cause : Nat) (s : State) : Nat := if cause = 6 ∨ cause = 7 then min (energy s c / 100000000) 1023 else 0

theorem shownEnergy_le (c cause : Nat) (s : State) : shownEnergy c cause s ≤ 1023 := by
  unfold shownEnergy
  split <;> omega

/-- A channel held by Quench in a function, with its QN_CAUSE; no event of its stroke in progress is left. -/
def heldChan (f : Func) (w : Word) (x : Chan) : Chan :=
  { x with func := f, phase := .steady, held := true, clamped := false, clampSince := none, tdcArmed := none, cause := w,
           stroke := x.stroke.map (fun st => { st with events := [], late := false }) }

/-- The state in which a trip has stopped the stream and the measurement. -/
def stopped (c : Nat) (s : State) : State := stopStream c (abortPmu c (eventsBefore c 8 s))

/-- The trip of a channel that is not held, step by step: stop, hold, count, TRIP and the capture. -/
theorem trip_of_free {c : Nat} {s : State} (cause key : Nat) (hc : c < 512) (h : (chan s c).held = false) :
    ∃ group, trip c cause key s = captureAs (tqPage (tileOf c)) fEVENT 0x714 (c % 64 + 64 * cause) 1 (256 + cause) group key
      (raiseBit (tqPage (tileOf c)) 0 (countReg (tqPage (tileOf c)) 0x718 1
        (modChan c (heldChan (safeFunc c s) (qnCause cause (shownEnergy c cause s))) (stopped c s)))) := by
  have keep := (EventsKeep.refl c s).eventsBefore hc 8
  have lost : domLost (eventsBefore c 8 s) (tileOf c) = domLost s (tileOf c) := by
    unfold domLost dom
    rw [doms_of_elsewhere (elsewhere_eventsBefore c 8 s)]
  have func : (if bit (chFunc s c) 5 && !domLost s (tileOf c) then Func.park else Func.hiz) = safeFunc c s := by
    simp [safeFunc]
  refine ⟨if cause = 1 then 1 else if cause = 8 then 2 else if cause ≤ 4 then 4 else 0, ?_⟩
  unfold trip
  dsimp only
  rw [if_neg (by simp [h]), keep.energy_eq hc, keep.chFunc_eq hc, lost, func]
  rfl

theorem regsKept_abortPmu {c : Nat} (hc : c < 512) (s : State) : RegsKept s (abortPmu c s) [(chPage c, 0x708)] := by
  unfold abortPmu
  split
  · exact .refl s _
  · exact RegsKept.trans (regsKept_of_eq _ rfl rfl rfl) (regsKept_wrRole (chPage_lt hc) (by decide) false _ (modChan c _ s))

theorem regsKept_stopStream (c : Nat) (s : State) : RegsKept s (stopStream c s) [] := .rest (.refl s _) rfl rfl rfl

theorem regsKept_stopped {c : Nat} (hc : c < 512) (s : State) : RegsKept s (stopped c s) (eventRegs c) :=
  (((EventsKeep.refl c s).eventsBefore hc 8).regs.trans ((regsKept_abortPmu hc _).mono (by simp [eventRegs]))).trans
    ((regsKept_stopStream c _).mono (by simp))

theorem mem_abortPmu (c : Nat) (s : State) : (abortPmu c s).mem = s.mem := by
  unfold abortPmu
  split
  · rfl
  · rw [(pageOnly_modReg ..).mem_eq, modChan_mem]

theorem mem_stopped {c : Nat} (hc : c < 512) (s : State) : (stopped c s).mem = s.mem := by
  rw [stopped, stopStream, modChan_mem, mem_abortPmu, ((EventsKeep.refl c s).eventsBefore hc 8).mem]

theorem chan_stopStream (c : Nat) (s : State) : chan (stopStream c s) c =
    { chan s c with stream := .idle, fifo := [], stopDue := false, window := none, tdcArmed := none, drive := none,
                    stopOnWay := (chan s c).stopOnWay || (chan s c).stream != .idle } :=
  chan_modChan_same ..

theorem pmu_stopped (c : Nat) (s : State) : (chan (stopped c s) c).pmu = .idle := by
  rw [stopped, chan_stopStream]
  exact abortPmu_pmu ..

/-- A measurement in progress ends with VALID = 0 and ABT = 1 (02 R52). -/
theorem measurement_abortPmu {c : Nat} {s : State} (h : (chan s c).pmu ≠ .idle) :
    bit (rdReg (abortPmu c s) (chPage c) 0x708) 31 = false ∧ bit (rdReg (abortPmu c s) (chPage c) 0x708) 29 = true := by
  unfold abortPmu
  rw [if_neg h, rdReg_modReg_same]
  exact ⟨by rw [bit_setBit_ne _ _ (by decide) (by decide) (by decide), bit_setBit_same _ _ (by decide)], bit_setBit_same _ _ (by decide)⟩

/-! ### The state after the trip -/

theorem trip_of_held {c : Nat} {s : State} (cause key : Nat) (h : (chan s c).held = true) :
    trip c cause key s = setChan c { chan s c with cause := setBit (chan s c).cause 30 true, phase := .steady } s :=
  if_pos h

section
variable {c : Nat} {s : State} (cause key : Nat) (hc : c < 512) (h : (chan s c).held = false)
include hc h

theorem chan_trip : chan (trip c cause key s) c = heldChan (safeFunc c s) (qnCause cause (shownEnergy c cause s)) (chan (stopped c s) c) := by
  obtain ⟨group, htrip⟩ := trip_of_free cause key hc h
  rw [htrip]
  simp [captureAs, captureOnly]

theorem trip_flag : bit (rdReg (trip c cause key s) (tqPage (tileOf c)) 0x010) 0 = true := by
  obtain ⟨group, htrip⟩ := trip_of_free cause key hc h
  rw [htrip, captureAs, rdReg_report, rdReg_captureOnly_off _ _ _ (by decide) (by decide), bit_raiseBit_same _ (by decide)]

theorem trip_count :
    rdReg (trip c cause key s) (tqPage (tileOf c)) 0x718 = satAdd (rdReg s (tqPage (tileOf c)) 0x718) 1 := by
  obtain ⟨group, htrip⟩ := trip_of_free cause key hc h
  rw [htrip, captureAs, rdReg_report, rdReg_captureOnly_off _ _ _ (by decide) (by decide), raiseBit, rdReg_raise_off _ (by decide) (by decide),
    countReg, rdReg_modReg_same, rdReg_modChan, rdReg_tqPage_of_regsKept hc (regsKept_stopped hc s) (by decide)]

theorem trip_captured (empty : bit (rdReg s (tqPage (tileOf c)) 0x020) 31 = false) :
    rdReg (trip c cause key s) (tqPage (tileOf c)) 0x020 = syndrome fEVENT 0x714 (c % 64 + 64 * cause) := by
  obtain ⟨group, htrip⟩ := trip_of_free cause key hc h
  rw [htrip, captureAs, rdReg_report, rdReg_captureOnly_same, raiseBit, rdReg_raise_off _ (by decide) (by decide), countReg,
    rdReg_modReg_off (by decide) (by decide) (by decide), rdReg_modChan, rdReg_tqPage_of_regsKept hc (regsKept_stopped hc s) (by decide), empty]
  rfl

theorem trip_measurement : rdReg (trip c cause key s) (chPage c) 0x708 = rdReg (stopped c s) (chPage c) 0x708 := by
  obtain ⟨group, htrip⟩ := trip_of_free cause key hc h
  have quench := tqPage_lt (tileOf_lt hc)
  have own := chPage_lt hc
  have other (o : Nat) : ¬ (tqPage (tileOf c) = chPage c ∧ o = 0x708) := fun e => tqPage_ne_chPage hc (tileOf_lt hc) e.1
  rw [htrip, captureAs, rdReg_report, rdReg_captureOnly_ne _ _ _ quench own (by decide) (other _), raiseBit,
    rdReg_raise_ne _ quench own (by decide) (other _), countReg, rdReg_modReg_ne quench own (by decide) (by decide) (other _), rdReg_modChan]

theorem trip_mem : (trip c cause key s).mem = s.mem := by
  obtain ⟨group, htrip⟩ := trip_of_free cause key hc h
  rw [htrip, (pageOnly_captureAs ..).mem_eq, raiseBit_mem, (pageOnly_countReg ..).mem_eq, modChan_mem, mem_stopped hc]

end

end Sys2Proof.Machine
end

section
/-! PROOFS. The trip of a channel. -/

namespace Sys2Proof.Machine

/-- Settles O14. The events before the decision leave alone what the trip decides by, so it stops and holds the channel as its energy and
settings were; the capture then touches the Quench page alone. -/
theorem tripHoldsTheChannelInItsSafeState : Obligations.TripHoldsTheChannelInItsSafeState := by
  unfold Obligations.TripHoldsTheChannelInItsSafeState
  intro c cause key s _ hcause
  refine ⟨fun held => trip_of_held cause key held, ?_⟩
  rintro free _ rfl
  have hc := c.isLt
  have shown := shownEnergy_le c.val cause s
  refine ⟨?held, ?phase, ?drive, ?window, ?fifo, ?stream, ?pmu, ?stroke, ?func, ?v, ?multi, ?cause, ?energy, trip_flag cause key hc free,
    trip_count cause key hc free, trip_captured cause key hc free, ?measurement, trip_mem cause key hc free,
    fun d hd => chan_of_elsewhere (elsewhere_trip c.val cause key s) hd⟩
  case measurement =>
    intro measuring
    rw [trip_measurement cause key hc free]
    exact measurement_abortPmu (((EventsKeep.refl c.val s).eventsBefore hc 8).measuring measuring)
  all_goals rw [chan_trip cause key hc free]
  case held | phase | func => rfl
  case drive | window | fifo | stream => rw [stopped, chan_stopStream]; rfl
  case pmu => exact pmu_stopped c.val s
  case stroke =>
    intro st hst
    obtain ⟨_, _, rfl⟩ := Option.map_eq_some_iff.1 hst
    rfl
  case v => exact bit_qnCause_v hcause shown
  case multi => exact bit_qnCause_multi hcause shown
  case cause => exact fld_qnCause_cause hcause shown
  case energy => exact fld_qnCause_energy hcause shown

end Sys2Proof.Machine
end

section
/-! PROOFS. The search of the Weld engine: the choice it makes among the rows, and what it leaves of a region. -/

-- One theorem at a time: elaborating them in parallel takes the memory of many threads.
set_option Elab.async false

namespace Sys2Proof.Machine

/-! ## Distinct rows and columns -/

theorem mem_insertRow (n m : Nat) (l : List Nat) : m ∈ insertRow n l ↔ m = n ∨ m ∈ l := by
  induction l with
  | nil => simp [insertRow]
  | cons x xs ih =>
    unfold insertRow
    split
    · simp
    · split
      · subst_vars; simp
      · simp [ih]; tauto

theorem pairwise_insertRow (n : Nat) (l : List Nat) (h : l.Pairwise (· < ·)) : (insertRow n l).Pairwise (· < ·) := by
  induction l with
  | nil => simp [insertRow]
  | cons x xs ih =>
    obtain ⟨hx, hxs⟩ := List.pairwise_cons.1 h
    unfold insertRow
    split
    · rename_i hn
      exact List.pairwise_cons.2 ⟨fun a ha => (List.mem_cons.1 ha).elim (· ▸ hn) fun ha => hn.trans (hx a ha), h⟩
    · split
      · exact h
      · refine List.pairwise_cons.2 ⟨fun a ha => ?_, ih hxs⟩
        rcases (mem_insertRow n a xs).1 ha with rfl | ha
        · omega
        · exact hx a ha

/-- The rows of cells that are inserted one after the other. -/
theorem foldl_insertRow (cs : List WeldCell) (l : List Nat) (h : l.Pairwise (· < ·)) :
    (cs.foldl (fun l c => insertRow c.row l) l).Pairwise (· < ·) ∧
      ∀ n, n ∈ cs.foldl (fun l c => insertRow c.row l) l ↔ n ∈ l ∨ ∃ c ∈ cs, c.row = n := by
  induction cs generalizing l with
  | nil => simp [h]
  | cons c cs ih =>
    obtain ⟨hp, hm⟩ := ih _ (pairwise_insertRow c.row l h)
    refine ⟨hp, fun n => (hm n).trans ?_⟩
    simp only [mem_insertRow, List.mem_cons, exists_eq_or_imp, eq_comm (a := n)]
    tauto

theorem nodup_distinctRows (cs : List WeldCell) : (distinctRows cs).Nodup :=
  (foldl_insertRow cs [] List.Pairwise.nil).1.imp Nat.ne_of_lt

theorem mem_distinctRows {cs : List WeldCell} {n : Nat} : n ∈ distinctRows cs ↔ ∃ c ∈ cs, c.row = n := by
  simpa [distinctRows] using (foldl_insertRow cs [] List.Pairwise.nil).2 n

theorem nodup_eraseDups {α : Type} [BEq α] [LawfulBEq α] : ∀ l : List α, l.eraseDups.Nodup
  | [] => by simp
  | a :: l => by
    rw [List.eraseDups_cons, List.nodup_cons]
    exact ⟨by simp, nodup_eraseDups (l.filter fun b => !b == a)⟩
termination_by l => l.length
decreasing_by exact Nat.lt_succ_of_le (List.length_filter_le _ _)

theorem nodup_distinctCols (cs : List WeldCell) : (distinctCols cs).Nodup := nodup_eraseDups _

theorem mem_distinctCols {cs : List WeldCell} {p : Nat × Nat} : p ∈ distinctCols cs ↔ ∃ c ∈ cs, (c.q, c.col) = p := by
  simp [distinctCols]

/-! ## The choice of rows -/

/-- The columns that the cells outside the chosen rows need. -/
def colsLeft (cs : List WeldCell) (rows : List Nat) : Nat := (distinctCols (cs.filter fun c => !rows.contains c.row)).length

/-- A choice of rows whose remaining columns stay within the spares. -/
def Feasible (sr sc : Nat) (cs : List WeldCell) (rows : List Nat) : Prop := rows.length ≤ sr ∧ colsLeft cs rows ≤ sc

/-- The spares that a choice uses. -/
def cost (x : List Nat × Nat) : Nat := x.1.length + x.2

theorem cost_le_of_not_better {x y : List Nat × Nat} (h : better y x = false) : cost x ≤ cost y := by
  simp only [better, Bool.or_eq_false_iff, decide_eq_false_iff_not] at h
  exact Nat.le_of_not_lt h.1

theorem cost_le_of_better {x y : List Nat × Nat} (h : better y x = true) : cost y ≤ cost x := by
  simp only [better, Bool.or_eq_true, Bool.and_eq_true, decide_eq_true_eq] at h
  unfold cost
  omega

/-- The pick of two choices is one of them, and no dearer than either. -/
theorem pick_spec (a b : Option (List Nat × Nat)) :
    (pick a b = none ↔ a = none ∧ b = none) ∧
      ∀ z, pick a b = some z → (a = some z ∨ b = some z) ∧ (∀ x, a = some x → cost z ≤ cost x) ∧ ∀ y, b = some y → cost z ≤ cost y := by
  unfold pick
  split
  · rename_i x y
    by_cases hb : better y x = true
    · simp [hb, cost_le_of_better hb]
    · simp [hb, cost_le_of_not_better (Bool.eq_false_iff.2 hb)]
  · simp
  · refine ⟨by simp, fun z hz => ⟨.inr hz, by simp, fun y hy => ?_⟩⟩
    rw [Option.some.inj (hz.symm.trans hy)]

/-- The search over the rows still to be decided finds the cheapest feasible choice among the chosen rows and any of those, or that there
is none. -/
theorem searchRows_spec (sr sc : Nat) (cs : List WeldCell) (rs chosen : List Nat) :
    (searchRows sr sc cs rs chosen = none → ∀ zs, zs.Sublist rs → ¬ Feasible sr sc cs (chosen ++ zs)) ∧
      ∀ x, searchRows sr sc cs rs chosen = some x → Feasible sr sc cs x.1 ∧ x.2 = colsLeft cs x.1 ∧
        ∀ zs, zs.Sublist rs → Feasible sr sc cs (chosen ++ zs) → cost x ≤ cost (chosen ++ zs, colsLeft cs (chosen ++ zs)) := by
  induction rs generalizing chosen with
  | nil =>
    simp only [searchRows, List.sublist_nil, forall_eq, List.append_nil]
    split
    · rename_i h
      refine ⟨by simp, fun x hx => ?_⟩
      obtain rfl := Option.some.inj hx
      exact ⟨h, rfl, fun _ => Nat.le_refl _⟩
    · rename_i h
      exact ⟨fun _ => h, by simp⟩
  | cons r rs ih =>
    obtain ⟨withNone, withSome⟩ := ih (chosen ++ [r])
    obtain ⟨outNone, outSome⟩ := ih chosen
    obtain ⟨hnone, hsome⟩ := pick_spec (searchRows sr sc cs rs (chosen ++ [r])) (searchRows sr sc cs rs chosen)
    rw [searchRows]
    refine ⟨fun e zs hz => ?_, fun x hx => ?_⟩
    · obtain ⟨h1, h2⟩ := hnone.1 e
      rcases List.sublist_cons_iff.1 hz with hz | ⟨ys, rfl, hys⟩
      · exact outNone h2 zs hz
      · simpa using withNone h1 ys hys
    · obtain ⟨hfrom, hle1, hle2⟩ := hsome x hx
      refine ⟨?_, ?_, fun zs hz hf => ?_⟩
      · exact hfrom.elim (fun e => (withSome x e).1) fun e => (outSome x e).1
      · exact hfrom.elim (fun e => (withSome x e).2.1) fun e => (outSome x e).2.1
      · rcases List.sublist_cons_iff.1 hz with hz | ⟨ys, rfl, hys⟩
        · cases h2 : searchRows sr sc cs rs chosen with
          | none => exact absurd hf (outNone h2 zs hz)
          | some y => exact (hle2 y h2).trans ((outSome y h2).2.2 zs hz hf)
        · rw [List.append_cons] at hf ⊢
          cases h1 : searchRows sr sc cs rs (chosen ++ [r]) with
          | none => exact absurd hf (withNone h1 ys hys)
          | some y => exact (hle1 y h1).trans ((withSome y h1).2.2 ys hys hf)

/-! ## Covers -/

/-- Rows and columns that cover every cell, within the spares. -/
def Covers (sr sc : Nat) (cs : List WeldCell) (rows : List Nat) (cols : List (Nat × Nat)) : Prop :=
  rows.length ≤ sr ∧ cols.length ≤ sc ∧ ∀ c ∈ cs, c.row ∈ rows ∨ (c.q, c.col) ∈ cols

/-- The rows of a cover that hold a cell are a feasible choice, no dearer than the cover. -/
theorem feasible_of_covers {sr sc : Nat} {cs : List WeldCell} {rows : List Nat} {cols : List (Nat × Nat)} (h : Covers sr sc cs rows cols) :
    let zs := (distinctRows cs).filter (fun n => rows.contains n)
    Feasible sr sc cs zs ∧ cost (zs, colsLeft cs zs) ≤ rows.length + cols.length := by
  intro zs
  obtain ⟨hr, hc, hcov⟩ := h
  have hrows : zs.length ≤ rows.length :=
    (((nodup_distinctRows cs).filter _).subperm fun n hn => by simpa using (List.mem_filter.1 hn).2).length_le
  have hcols : colsLeft cs zs ≤ cols.length := by
    refine ((nodup_distinctCols _).subperm fun p hp => ?_).length_le
    obtain ⟨c, hmem, rfl⟩ := mem_distinctCols.1 hp
    obtain ⟨hcs, hout⟩ := List.mem_filter.1 hmem
    refine (hcov c hcs).resolve_left fun hin => ?_
    have : c.row ∈ zs := List.mem_filter.2 ⟨mem_distinctRows.2 ⟨c, hcs, rfl⟩, by simpa using hin⟩
    simp [this] at hout
  exact ⟨⟨hrows.trans hr, hcols.trans hc⟩, Nat.add_le_add hrows hcols⟩

/-- A feasible choice with the columns of the cells that it leaves is a cover. -/
theorem covers_of_feasible {sr sc : Nat} {cs : List WeldCell} {rows : List Nat} (h : Feasible sr sc cs rows) :
    Covers sr sc cs rows (distinctCols (cs.filter fun c => !rows.contains c.row)) := by
  refine ⟨h.1, h.2, fun c hc => ?_⟩
  by_cases hr : c.row ∈ rows
  · exact .inl hr
  · exact .inr (mem_distinctCols.2 ⟨c, List.mem_filter.2 ⟨hc, by simpa using hr⟩, rfl⟩)

/-! ## The repairs of the search -/

theorem useRows_spec (ns : List Nat) (r : WeldRegion) (t : WeldRegion) (ht : t = ns.foldl (fun r n => useSpare true false ⟨n, 0, 0⟩ r) r) :
    t.rows = r.rows ++ ns.map (fun n => ⟨false, n, 0, 0⟩) ∧ t.cols = r.cols ∧ ∀ c ∈ t.pend, c ∈ r.pend ∧ c.row ∉ ns := by
  induction ns generalizing r with
  | nil => subst ht; simp
  | cons n ns ih =>
    obtain ⟨hrows, hcols, hpend⟩ := ih _ ht
    refine ⟨by rw [hrows]; simp [useSpare], hcols, fun c hc => ?_⟩
    obtain ⟨hin, hout⟩ := hpend c hc
    simp only [useSpare, ite_true, List.mem_filter, covered, List.any_append, List.any_cons] at hin
    refine ⟨hin.1, ?_⟩
    simp only [List.mem_cons, not_or]
    exact ⟨fun e => by simp [e] at hin, hout⟩

theorem useCols_spec (ps : List (Nat × Nat)) (r : WeldRegion) (t : WeldRegion) (ht : t = ps.foldl (fun r c => useSpare false false ⟨0, c.1, c.2⟩ r) r) :
    t.cols = r.cols ++ ps.map (fun p => ⟨false, 0, p.1, p.2⟩) ∧ t.rows = r.rows ∧ ∀ c ∈ t.pend, c ∈ r.pend ∧ (c.q, c.col) ∉ ps := by
  induction ps generalizing r with
  | nil => subst ht; simp
  | cons p ps ih =>
    obtain ⟨hcols, hrows, hpend⟩ := ih _ ht
    refine ⟨by rw [hcols]; simp [useSpare], hrows, fun c hc => ?_⟩
    obtain ⟨hin, hout⟩ := hpend c hc
    simp only [useSpare, Bool.false_eq_true, ite_false, List.mem_filter, covered, List.any_append, List.any_cons] at hin
    refine ⟨hin.1, ?_⟩
    simp only [List.mem_cons, not_or]
    exact ⟨fun e => by simp [← e] at hin, hout⟩

/-- A region whose search has chosen rows: the rows and the columns left are added, no cell stays pending, and those that were pending
are covered. -/
theorem searchRegion_solved {g : Geometry} {r : WeldRegion} {x : List Nat × Nat}
    (hx : searchRows (g.sr - r.rows.length) (g.sc - r.cols.length) r.pend (distinctRows r.pend) [] = some x) :
    (searchRegion g r).state = 2 ∧ (searchRegion g r).pend = [] ∧ (∀ c ∈ r.pend, covered (searchRegion g r) c = true) ∧
      (searchRegion g r).rows.length = r.rows.length + x.1.length ∧ (searchRegion g r).cols.length = r.cols.length + colsLeft r.pend x.1 := by
  have chosen := covers_of_feasible ((searchRows_spec _ _ _ _ _).2 x hx).1
  obtain ⟨-, -, hcov⟩ := chosen
  obtain ⟨hr1, hc1, hp1⟩ := useRows_spec x.1 r _ rfl
  obtain ⟨hc2, hr2, hp2⟩ := useCols_spec (distinctCols (r.pend.filter fun c => !x.1.contains c.row)) _ _ rfl
  rw [searchRegion, hx]
  dsimp only
  refine ⟨rfl, List.eq_nil_iff_forall_not_mem.2 fun c hc => ?_, fun c hc => ?_, ?_, ?_⟩
  · obtain ⟨hin, hcol⟩ := hp2 c hc
    obtain ⟨hin, hrow⟩ := hp1 c hin
    exact (hcov c hin).elim hrow hcol
  · simp only [covered, hr2, hr1, hc2, Bool.or_eq_true, List.any_eq_true]
    rcases hcov c hc with h | h
    · exact .inl ⟨⟨false, c.row, 0, 0⟩, List.mem_append_right _ (List.mem_map.2 ⟨_, h, rfl⟩), by simp⟩
    · exact .inr ⟨⟨false, 0, c.q, c.col⟩, List.mem_append_right _ (List.mem_map.2 ⟨_, h, rfl⟩), by simp⟩
  · rw [hr2, hr1]; simp
  · rw [hc2, hc1]; simp [colsLeft]

/-- Settles O33. The rows of any cover are one of the choices that the search goes through, and a choice with the columns left to it is a
cover: so the search finds one where there is one, and none is cheaper. -/
theorem weldSearchIsBest : Obligations.WeldSearchIsBest := by
  unfold Obligations.WeldSearchIsBest
  rintro g r _ _ hsr hsc rfl rfl
  obtain ⟨hnone, hsome⟩ := searchRows_spec (g.sr - r.rows.length) (g.sc - r.cols.length) r.pend (distinctRows r.pend) []
  cases hx : searchRows (g.sr - r.rows.length) (g.sc - r.cols.length) r.pend (distinctRows r.pend) [] with
  | none =>
    have hno rows cols (h : Covers (g.sr - r.rows.length) (g.sc - r.cols.length) r.pend rows cols) : False :=
      hnone hx _ List.filter_sublist (feasible_of_covers h).1
    exact ⟨fun ⟨rows, cols, h⟩ => (hno rows cols h).elim, fun _ => by rw [searchRegion, hx]⟩
  | some x =>
    obtain ⟨hf, hcols, hbest⟩ := hsome x hx
    obtain ⟨hstate, hpend, hcov, hr, hc⟩ := searchRegion_solved hx
    refine ⟨fun _ => ⟨hstate, hpend, hcov, ?_, ?_, fun rows cols h => ?_⟩, fun h => absurd (covers_of_feasible hf) (h _ _)⟩
    · have := hf.1; omega
    · have := hf.2; omega
    · obtain ⟨hz, hle⟩ := feasible_of_covers h
      have := (hbest _ List.filter_sublist hz).trans hle
      unfold cost at this
      omega

end Sys2Proof.Machine
end

section
/-! PROOFS. Every command and the idle block keep what Safety.Keeps says; the invariants of the steps follow. -/

-- One theorem at a time: elaborating them in parallel takes the memory of many threads.
set_option Elab.async false

-- One theorem at a time: elaborating them in parallel takes the memory of many threads.
set_option Elab.async false

namespace Sys2Proof.Machine

/-- Every command ends in a next state, which Keeps ties to the one before. -/
theorem exec_keeps (i : Instr) (s : State) : ∃ t, exec i s = .next t ∧ Keeps s t :=
  have h := Keeps.refl s
  match i with
  | .domainLoss _ _ => ⟨_, rfl, keeps_loseDomain _ _ h⟩
  | .strokeBoundary _ => ⟨_, rfl, keeps_whileLanes _ h fun _ h => keeps_boundaryOf _ h⟩
  | .symbolDelivery _ => ⟨_, rfl, keeps_whileUp _ _ h fun _ h => keeps_deliverSymbol _ h⟩
  | .creditReturn _ => ⟨_, rfl, keeps_whileLanes _ h fun _ h => keeps_returnCredit _ h⟩
  | .streamStopReachesLane _ => ⟨_, rfl, keeps_whileLanes _ h fun _ h => keeps_stopAtLane _ h⟩
  | .modeChange _ _ _ => ⟨_, rfl, keeps_accessWrite _ _ _ _ h⟩
  | .modeChangeIntervalEnd _ => ⟨_, rfl, keeps_whileUp _ _ h fun _ h => keeps_modeIntervalEnd _ h⟩
  | .pmuRampEnd _ => ⟨_, rfl, keeps_whileUp _ _ h fun _ h => keeps_rampEnd _ h⟩
  | .functionSwitchTimerExpiry _ => ⟨_, rfl, keeps_whileUp _ _ h fun _ h => keeps_switchTimerEnd _ h⟩
  | .srcChangeInLane _ => ⟨_, rfl, keeps_whileLanes _ h fun _ h => keeps_srcAtLane _ h⟩
  | .pmuTrigger _ _ _ => ⟨_, rfl, keeps_accessWrite _ _ _ _ h⟩
  | .pmuSamplingStart _ => ⟨_, rfl, keeps_whileUp _ _ h fun _ h => keeps_pmuSample _ h⟩
  | .pmuMeasurementDone _ _ _ => ⟨_, rfl, keeps_whileUp _ _ h fun _ h => keeps_pmuDone _ _ _ h⟩
  | .clampOnset _ => ⟨_, rfl, keeps_whileUp _ _ h fun _ h => keeps_clampStarts _ h⟩
  | .tdcCrossing _ _ _ _ => ⟨_, rfl, keeps_whileUp _ _ h fun _ h => keeps_tdcCross _ _ _ _ h⟩
  | .tdcPop _ _ _ => ⟨_, rfl, keeps_accessWrite _ _ _ _ h⟩
  | .rcReadClear _ _ _ => ⟨_, rfl, keeps_accessRead _ _ _ h⟩
  | .registerWrite _ _ _ _ => ⟨_, rfl, keeps_accessWrite _ _ _ _ h⟩
  | .clSperWrite _ _ _ _ => ⟨_, rfl, keeps_accessWrite _ _ _ _ h⟩
  | .timebaseEnable _ _ => ⟨_, rfl, keeps_accessWrite _ _ _ _ h⟩
  | .timebaseDisable _ _ => ⟨_, rfl, keeps_accessWrite _ _ _ _ h⟩
  | .strokeCountRead _ _ => ⟨_, rfl, keeps_accessRead _ _ _ h⟩
  | .paletteEvent _ _ _ => ⟨_, rfl, keeps_whileUp _ _ h fun _ h => keeps_nextEvent _ _ _ h⟩
  | .compareResultArrival _ => ⟨_, rfl, keeps_whileLanes _ h fun _ h => keeps_resultArrives _ h⟩
  | .palRead _ _ => ⟨_, rfl, keeps_accessWrite _ _ _ _ h⟩
  | .palWrite _ _ => ⟨_, rfl, keeps_accessWrite _ _ _ _ h⟩
  | .palCommandDone _ => ⟨_, rfl, keeps_whileLanes _ h fun _ h => keeps_palCommandEnds _ h⟩
  | .bundleIssue _ _ => ⟨_, rfl, keeps_issue _ _ _ (keeps_bundleYields _ h)⟩
  | .repeatIteration _ _ => ⟨_, rfl, keeps_issue _ _ _ (keeps_bundleYields _ h)⟩
  | .delayExpiry _ => ⟨_, rfl, keeps_whileEngine _ _ h fun _ h => keeps_delayOver _ h⟩
  | .unitResultWriteback _ _ => ⟨_, rfl, keeps_whileEngine _ _ h fun _ h => keeps_writeback _ _ h⟩
  | .storeAcknowledge _ => ⟨_, rfl, keeps_whileEngine _ _ h fun _ h => keeps_storeAck _ h⟩
  | .storeBusError _ _ => ⟨_, rfl, keeps_whileEngine _ _ h fun _ h => keeps_storeErrorArrives _ _ h⟩
  | .emitWaitFault _ _ => ⟨_, rfl, keeps_emitWaitFault _ _ h⟩
  | .asynchronousEntry _ _ => ⟨_, rfl, keeps_asyncEntry _ _ h⟩
  | .interruptEntry _ _ => ⟨_, rfl, keeps_interruptEntry _ _ h⟩
  | .residueError _ _ _ => ⟨_, rfl, keeps_whileEngine _ _ h fun _ h => keeps_residueError _ _ _ h⟩
  | .threadEnable _ _ _ => ⟨_, rfl, keeps_accessWrite _ _ _ _ h⟩
  | .threadDisable _ _ _ => ⟨_, rfl, keeps_accessWrite _ _ _ _ h⟩
  | .addressHistoryLookup _ => ⟨_, rfl, keeps_whileLanes _ h fun _ h => keeps_historyLookup _ h⟩
  | .microwordExecute _ _ => ⟨_, rfl, keeps_whileLanes _ h fun _ h => keeps_microword _ _ h⟩
  | .microwordWaitTimeout _ => ⟨_, rfl, keeps_whileLanes _ h fun _ h => keeps_microTimeout _ h⟩
  | .sketchResultsReady _ => ⟨_, rfl, keeps_whileLanes _ h fun _ h => keeps_sketchReady _ h⟩
  | .sketchWatchdogExpiry _ => ⟨_, rfl, keeps_whileLanes _ h fun _ h => keeps_watchdogExpires _ h⟩
  | .begin _ _ _ => ⟨_, rfl, keeps_accessWrite _ _ _ _ h⟩
  | .loadDataWrite _ _ _ => ⟨_, rfl, keeps_accessWrite _ _ _ _ h⟩
  | .commit _ _ => ⟨_, rfl, keeps_accessWrite _ _ _ _ h⟩
  | .commitComplete _ _ => ⟨_, rfl, keeps_whileLanes _ h fun _ h => keeps_commitDone _ _ h⟩
  | .abort _ _ => ⟨_, rfl, keeps_accessWrite _ _ _ _ h⟩
  | .patrolScrubRead _ _ => ⟨_, rfl, keeps_scrubRead _ _ h⟩
  | .ecOperationComplete _ => ⟨_, rfl, keeps_whileUp _ _ h fun _ h => keeps_ecComplete _ h⟩
  | .anvilReportReceived => ⟨_, rfl, keeps_whileUp _ _ h fun _ h => keeps_anvilReceives h⟩
  | .queueDataArrival _ _ => ⟨_, rfl, keeps_whileEngine _ _ h fun _ h => keeps_queueAnswer _ _ h⟩
  | .expectedMarkCheck _ => ⟨_, rfl, keeps_whileLanes _ h fun _ h => keeps_expectedMark _ h⟩
  | .markMismatchStopArrival _ => ⟨_, rfl, keeps_whileUp _ _ h fun _ h => keeps_markStopArrives _ h⟩
  | .failPipelineTakeEvent _ _ => ⟨_, rfl, keeps_whileLanes _ h fun _ h => keeps_takeEvent _ _ h⟩
  | .recordCloseTimeout _ _ => ⟨_, rfl, keeps_whileLanes _ h fun _ h => keeps_closeTimeout _ _ h⟩
  | .bufferRequest _ => ⟨_, rfl, keeps_whileLanes _ h fun _ h => keeps_bufferRequest _ h⟩
  | .bufferDone _ => ⟨_, rfl, keeps_whileLanes _ h fun _ h => keeps_bufferDone _ h⟩
  | .siteCounterUpdate _ => ⟨_, rfl, keeps_whileLanes _ h fun _ h => keeps_siteCounters _ h⟩
  | .init _ _ => ⟨_, rfl, keeps_accessWrite _ _ _ _ h⟩
  | .flush _ _ => ⟨_, rfl, keeps_accessWrite _ _ _ _ h⟩
  | .flushComplete _ => ⟨_, rfl, keeps_whileLanes _ h fun _ h => keeps_flushComplete _ h⟩
  | .ovclr _ _ => ⟨_, rfl, keeps_accessWrite _ _ _ _ h⟩
  | .clFreeWrite _ _ _ => ⟨_, rfl, keeps_accessWrite _ _ _ _ h⟩
  | .clDonePopWrite _ _ _ => ⟨_, rfl, keeps_accessWrite _ _ _ _ h⟩
  | .siteCounterSelect _ _ _ => ⟨_, rfl, keeps_accessWrite _ _ _ _ h⟩
  | .siteCounterClear _ _ _ => ⟨_, rfl, keeps_accessWrite _ _ _ _ h⟩
  | .weldRecord _ => ⟨_, rfl, keeps_whileLanes _ h fun _ h => keeps_weldRecord _ h⟩
  | .start _ _ => ⟨_, rfl, keeps_accessWrite _ _ _ _ h⟩
  | .weldStartComplete _ => ⟨_, rfl, keeps_whileLanes _ h fun _ h => keeps_weldStarted _ h⟩
  | .stop _ _ => ⟨_, rfl, keeps_accessWrite _ _ _ _ h⟩
  | .solve _ _ _ => ⟨_, rfl, keeps_accessWrite _ _ _ _ h⟩
  | .weldSolveRegion _ _ => ⟨_, rfl, keeps_whileLanes _ h fun _ h => keeps_solveRegion _ _ h⟩
  | .clear _ _ _ => ⟨_, rfl, keeps_accessWrite _ _ _ _ h⟩
  | .weldReplay _ _ _ => ⟨_, rfl, keeps_accessWrite _ _ _ _ h⟩
  | .weldSummarySelect _ _ _ => ⟨_, rfl, keeps_accessWrite _ _ _ _ h⟩
  | .matrixTransaction _ _ _ _ _ => ⟨_, rfl, keeps_whileUp _ _ h fun _ h => keeps_enterMatrix _ _ _ _ _ h⟩
  | .matrixResponse _ _ => ⟨_, rfl, keeps_matrixAnswer _ _ h⟩
  | .matrixTimeout _ => ⟨_, rfl, keeps_whileUp _ _ h fun _ h => keeps_matrixTimesOut _ h⟩
  | .memoryPowerRequest _ _ _ => ⟨_, rfl, keeps_accessWrite _ _ _ _ h⟩
  | .memoryPowerTransitionDone _ => ⟨_, rfl, keeps_whileUp _ _ h fun _ h => keeps_powerEnds _ h⟩
  | .secureWipeStart _ => ⟨_, rfl, keeps_wipeStart _ h⟩
  | .secureWipeComplete => ⟨_, rfl, keeps_wipeDone h⟩
  | .mramLineProgrammed _ => ⟨_, rfl, keeps_lineDone _ h⟩
  | .remap _ => ⟨_, rfl, keeps_accessWrite _ _ _ _ h⟩
  | .go _ _ _ => ⟨_, rfl, keeps_accessWrite _ _ _ _ h⟩
  | .tongsTransferEnd _ => ⟨_, rfl, keeps_whileUp _ _ h fun _ h => keeps_tongsEnd _ h⟩
  | .tongsAbort _ _ => ⟨_, rfl, keeps_accessWrite _ _ _ _ h⟩
  | .hang _ _ => ⟨_, rfl, keeps_accessWrite _ _ _ _ h⟩
  | .hangDecision _ => ⟨_, rfl, keeps_whileUp _ _ h fun _ h => keeps_hangDecided _ h⟩
  | .hangPageSwitch _ _ => ⟨_, rfl, keeps_whileUp _ _ h fun _ h => keeps_pageSwitches _ _ h⟩
  | .cancel _ _ => ⟨_, rfl, keeps_accessWrite _ _ _ _ h⟩
  | .copy _ _ => ⟨_, rfl, keeps_accessWrite _ _ _ _ h⟩
  | .copyComplete => ⟨_, rfl, keeps_whileUp _ _ h fun _ h => keeps_copyDone h⟩
  | .snapshotStart _ _ => ⟨_, rfl, keeps_accessWrite _ _ _ _ h⟩
  | .snapshotCapture _ => ⟨_, rfl, keeps_whileUp _ _ h fun _ h => keeps_snapCapture _ h⟩
  | .snapshotComplete _ => ⟨_, rfl, keeps_whileUp _ _ h fun _ h => keeps_snapComplete _ h⟩
  | .portTrainingComplete _ _ _ => ⟨_, rfl, keeps_whileUp _ _ h fun _ h => by split <;> [exact h; exact keeps_trainingDone _ _ _ h]⟩
  | .portFault _ => ⟨_, rfl, keeps_whileUp _ _ h fun _ h => keeps_portFaults _ h⟩
  | .retrain _ _ => ⟨_, rfl, keeps_accessWrite _ _ _ _ h⟩
  | .frameReceive _ _ _ => ⟨_, rfl, keeps_whileUp _ _ h fun _ h => keeps_receiveFrame _ _ (keeps_countFec _ _ h)⟩
  | .linkControlBlockSend _ => ⟨_, rfl, keeps_whileUp _ _ h fun _ h => keeps_sendBlock _ h⟩
  | .linkControlBlockReceive _ _ _ => ⟨_, rfl, keeps_whileUp _ _ h fun _ h => keeps_receiveBlock _ _ (keeps_countFec _ _ h)⟩
  | .rdReq => ⟨_, rfl, keeps_whileUp _ _ h fun _ h => keeps_handleRequest _ h⟩
  | .wrReq => ⟨_, rfl, keeps_whileUp _ _ h fun _ h => keeps_handleRequest _ h⟩
  | .pgRd => ⟨_, rfl, keeps_whileUp _ _ h fun _ h => keeps_handleRequest _ h⟩
  | .pgWr => ⟨_, rfl, keeps_whileUp _ _ h fun _ h => keeps_handleRequest _ h⟩
  | .brdReq => ⟨_, rfl, keeps_whileUp _ _ h fun _ h => keeps_handleRequest _ h⟩
  | .bwrReq => ⟨_, rfl, keeps_whileUp _ _ h fun _ h => keeps_handleRequest _ h⟩
  | .rsp => ⟨_, rfl, keeps_whileUp _ _ h fun _ h => keeps_handleRsp h⟩
  | .disc => ⟨_, rfl, keeps_whileUp _ _ h fun _ h => keeps_handleDisc h⟩
  | .discRsp => ⟨_, rfl, keeps_whileUp _ _ h fun _ h => keeps_handleTaken _ h⟩
  | .assign => ⟨_, rfl, keeps_whileUp _ _ h fun _ h => keeps_handleAssign h⟩
  | .assignRsp => ⟨_, rfl, keeps_whileUp _ _ h fun _ h => keeps_handleTaken _ h⟩
  | .tsync _ => ⟨_, rfl, keeps_whileUp _ _ h fun _ h => keeps_handleTsync _ h⟩
  | .tsyncSend _ => ⟨_, rfl, keeps_whileUp _ _ h fun _ h => keeps_sendTsync _ h⟩
  | .hangBc => ⟨_, rfl, keeps_whileUp _ _ h fun _ h => by dsimp only; split <;> [exact keeps_hangYields _ (keeps_handleHangBc h); exact keeps_handleHangBc h]⟩
  | .hangCancel => ⟨_, rfl, keeps_whileUp _ _ h fun _ h => keeps_handleHangCancel h⟩
  | .hangRpl => ⟨_, rfl, keeps_whileUp _ _ h fun _ h => keeps_handleTaken _ h⟩
  | .notice => ⟨_, rfl, keeps_whileUp _ _ h fun _ h => keeps_handleTaken _ h⟩
  | .fbNodeWrite _ _ => ⟨_, rfl, keeps_accessWrite _ _ _ _ h⟩
  | .fbrtDataAccess _ wr => ⟨_, rfl, by cases wr <;> [exact keeps_accessRead _ _ _ h; exact keeps_accessWrite _ _ _ _ h]⟩
  | .transactionRingProduce _ _ => ⟨_, rfl, keeps_accessWrite _ _ _ _ h⟩
  | .transactionIssue => ⟨_, rfl, keeps_issueTransaction h⟩
  | .transactionTimeout _ => ⟨_, rfl, keeps_whileUp _ _ h fun _ h => keeps_transactionTimeout _ h⟩
  | .send _ _ => ⟨_, rfl, keeps_accessWrite _ _ _ _ h⟩
  | .emergencyBlockReceive _ _ => ⟨_, rfl, keeps_whileUp _ _ h fun _ h => keeps_blockArrives _ _ h⟩
  | .timeHoldover => ⟨_, rfl, keeps_whileUp _ _ h fun _ h => keeps_holdover h⟩
  | .ftSet _ => ⟨_, rfl, keeps_accessWrite _ _ _ _ h⟩
  | .ftPpsEdge => ⟨_, rfl, keeps_whileUp _ _ h fun _ h => keeps_ppsEdge h⟩
  | .pgIrqSetWrite _ _ _ => ⟨_, rfl, keeps_accessWrite _ _ _ _ h⟩
  | .pgFaultAckWrite _ _ _ => ⟨_, rfl, keeps_accessWrite _ _ _ _ h⟩
  | .wmHitsClear _ _ _ _ => ⟨_, rfl, keeps_accessWrite _ _ _ _ h⟩
  | .msixMessage _ => ⟨_, rfl, keeps_msixMessageDue _ h⟩
  | .energyEvaluation _ _ _ => ⟨_, rfl, keeps_whileUp _ _ h fun _ h => keeps_energyEval _ _ _ h⟩
  | .overvoltDwellExpiry _ _ => ⟨_, rfl, keeps_overvolt _ _ h⟩
  | .clampLimitExpiry _ => ⟨_, rfl, keeps_whileUp _ _ h fun _ h => keeps_clampLimit _ h⟩
  | .quenchRelease _ _ _ _ _ => ⟨_, rfl, keeps_onPage _ _ _ _ h fun _ h => keeps_releaseWrite _ _ _ _ _ h⟩
  | .emstopPinAssert _ => ⟨_, rfl, keeps_pinAssert _ h⟩
  | .estop _ _ => ⟨_, rfl, keeps_accessWrite _ _ _ _ h⟩
  | .emergencyLatchClear _ _ => ⟨_, rfl, keeps_accessWrite _ _ _ _ h⟩
  | .tripPathDisagree _ => ⟨_, rfl, keeps_whileUp _ _ h fun _ h => keeps_pathsDisagree _ h⟩
  | .coverageMonitorCheck _ _ => ⟨_, rfl, keeps_whileUp _ _ h fun _ h => keeps_monitorCheck _ _ h⟩
  | .anvAckWrite _ _ => ⟨_, rfl, keeps_accessWrite _ _ _ _ h⟩
  | .anvCloseWrite _ _ => ⟨_, rfl, keeps_accessWrite _ _ _ _ h⟩
  | .patinaEventIntake _ => ⟨_, rfl, keeps_whileUp _ _ h fun _ h => keeps_eventArrives _ h⟩
  | .patinaRecordWrite => ⟨_, rfl, keeps_whileUp _ _ h fun _ h => keeps_recordStep h⟩
  | .ptSubmitWrite _ _ => ⟨_, rfl, keeps_accessWrite _ _ _ _ h⟩
  | .tokenGain _ _ => ⟨_, rfl, keeps_whileUp _ _ h fun _ h => keeps_gainToken _ _ h⟩
  | .patinaFlushStart => ⟨_, rfl, keeps_whileUp _ _ h fun _ h => keeps_flushStart h⟩
  | .patinaFlushComplete => ⟨_, rfl, keeps_whileUp _ _ h fun _ h => keeps_flushEnds h⟩
  | .patinaFlush _ => ⟨_, rfl, keeps_accessWrite _ _ _ _ h⟩
  | .freeze _ => ⟨_, rfl, keeps_accessWrite _ _ _ _ h⟩
  | .thaw _ => ⟨_, rfl, keeps_accessWrite _ _ _ _ h⟩
  | .patinaClear _ => ⟨_, rfl, keeps_accessWrite _ _ _ _ h⟩
  | .ptRlcfgWrite _ _ => ⟨_, rfl, keeps_accessWrite _ _ _ _ h⟩
  | .opsecTick => ⟨_, rfl, keeps_opsecStep h⟩
  | .powerOnReset _ => ⟨_, rfl, keeps_powerOn _ h⟩
  | .deviceReset _ => ⟨_, rfl, keeps_resetPin _ h⟩
  | .device _ _ => ⟨_, rfl, keeps_accessWrite _ _ _ _ h⟩
  | .domainReset _ _ _ => ⟨_, rfl, keeps_onPage _ _ _ _ h fun _ h => by split <;> [exact keeps_rstCmdWrite _ _ _ h; exact keeps_rejectWrite _ _ _ h]⟩
  | .domainRestart _ _ => ⟨_, rfl, keeps_whileUp _ _ h fun _ h => keeps_domainRestart _ _ h⟩
  | .pcieReset r => ⟨_, rfl, by cases r <;> exact keeps_pcieResets h⟩
  | .devBootdbWrite _ _ _ _ => ⟨_, rfl, keeps_onPage _ _ _ _ h fun _ h => keeps_bootDoorbell _ _ _ _ h⟩
  | .bellowsStart _ => ⟨_, rfl, keeps_bellowsBegin _ h⟩
  | .jdone _ _ => ⟨_, rfl, keeps_accessWrite _ _ _ _ h⟩
  | .journalWindowExpiry => ⟨_, rfl, keeps_journalExpires h⟩
  | .bellowsStop => ⟨_, rfl, keeps_bellowsEnd h⟩
  | .brownoutRestart _ => ⟨_, rfl, keeps_brownout _ h⟩
  | .hbmRetrain _ _ _ => ⟨_, rfl, keeps_accessWrite _ _ _ _ h⟩
  | .thermalWarn _ _ => ⟨_, rfl, keeps_warnTemp _ _ h⟩
  | .thermalTrip _ _ => ⟨_, rfl, keeps_tripTemp _ _ h⟩
  | .thermalRecovery _ => ⟨_, rfl, keeps_tripClears _ h⟩
  | .failover _ _ => ⟨_, rfl, keeps_failOver _ _ h⟩
  | .switch _ _ => ⟨_, rfl, keeps_onPage _ _ _ _ h fun _ h => keeps_mcCmdWrite _ _ _ _ h⟩
  | .stage _ _ => ⟨_, rfl, keeps_onPage _ _ _ _ h fun _ h => keeps_mcCmdWrite _ _ _ _ h⟩
  | .reint _ _ _ => ⟨_, rfl, keeps_onPage _ _ _ _ h fun _ h => keeps_mcCmdWrite _ _ _ _ h⟩
  | .temperTestStart _ => ⟨_, rfl, keeps_temperStart _ h⟩
  | .temperAbort => ⟨_, rfl, keeps_whileUp _ _ h fun _ h => keeps_serviceAborts h⟩
  | .temperTestEnd _ => ⟨_, rfl, keeps_whileUp _ _ h fun _ h => keeps_temperEnds _ h⟩
  | .full _ => ⟨_, rfl, keeps_accessWrite _ _ _ _ h⟩
  | .incr _ _ => ⟨_, rfl, keeps_accessWrite _ _ _ _ h⟩
  | .primerStop _ => ⟨_, rfl, keeps_accessWrite _ _ _ _ h⟩
  | .primerCommit _ => ⟨_, rfl, keeps_whileUp _ _ h fun _ h => keeps_primerCommits _ h⟩
  | .pcieReadRequest _ _ _ _ _ => ⟨_, rfl, keeps_whileUp _ _ h fun _ h => keeps_pciRequest _ _ _ _ _ _ _ h⟩
  | .pcieWriteRequest _ _ _ => ⟨_, rfl, keeps_whileUp _ _ h fun _ h => keeps_pciRequest _ _ _ _ _ _ _ h⟩
  | .functionLevelReset => ⟨_, rfl, keeps_functionReset h⟩
  | .pciDbWrite _ _ => ⟨_, rfl, keeps_accessWrite _ _ _ _ h⟩
  | .fbSvcdbWrite _ _ _ => ⟨_, rfl, keeps_svcdbWrite _ _ _ h⟩
  | .programLoad _ _ _ => ⟨_, rfl, keeps_serve _ _ _ _ h fun _ h => keeps_programLoadService _ _ _ h⟩
  | .update _ _ _ _ => ⟨_, rfl, keeps_serve _ _ _ _ h fun _ h => keeps_updateService _ _ _ _ h⟩
  | .primer _ _ => ⟨_, rfl, keeps_serve _ _ _ _ h fun _ h => keeps_primerService _ _ h⟩
  | .patinaClearService _ _ => ⟨_, rfl, keeps_serve _ _ _ _ h fun _ h => keeps_tokenService _ _ h⟩
  | .patinaCmd _ _ => ⟨_, rfl, keeps_serve _ _ _ _ h fun _ h => keeps_patCmdService _ _ h⟩
  | .lifecycle _ _ _ _ _ _ => ⟨_, rfl, keeps_serve _ _ _ _ h fun _ h => keeps_lifecycleService _ _ _ _ _ _ h⟩
  | .mc _ _ _ => ⟨_, rfl, keeps_serve _ _ _ _ h fun _ h => keeps_mcService _ _ _ h⟩
  | .memPower _ _ => ⟨_, rfl, keeps_serve _ _ _ _ h fun _ h => keeps_memPowerService _ _ h⟩
  | .domainResetService _ _ => ⟨_, rfl, keeps_serve _ _ _ _ h fun _ h => keeps_domainService _ _ h⟩
  | .temper _ _ => ⟨_, rfl, keeps_serve _ _ _ _ h fun _ h => keeps_temperService _ _ h⟩
  | .badService _ _ => ⟨_, rfl, keeps_serve _ _ _ _ h fun _ h => keeps_slotDone _ _ _ _ h⟩
  | .msixUnmask _ => ⟨_, rfl, keeps_whileUp _ _ h fun _ h => keeps_msixUnmasked _ h⟩
  | .smbusStatusRead => ⟨_, rfl, keeps_smbusStatusAnswer h⟩
  | .smbusTemperatureRead => ⟨_, rfl, keeps_smbusTempAnswer h⟩
  | .smbusPowerRead => ⟨_, rfl, keeps_smbusPowerAnswer h⟩
  | .smbusRegisterRead _ _ => ⟨_, rfl, keeps_smbusRegister _ _ h⟩
  | .smbusEstop _ => ⟨_, rfl, keeps_smbusStop _ h⟩
  | .smbusPecError _ => ⟨_, rfl, keeps_smbusBadPec _ h⟩
  | .jtagInstructionLoad _ => ⟨_, rfl, keeps_tapLoad _ h⟩
  | .jtagTestLogicReset => ⟨_, rfl, keeps_tapReset h⟩
  | .clampRelease _ _ => ⟨_, rfl, keeps_whileUp _ _ h fun _ h => keeps_clampEnds _ _ h⟩
  | .watermarkPeriodicSample _ _ => ⟨_, rfl, by split <;> [exact h; exact keeps_periodicSample _ _ h]⟩
  | .domainPowerGoodReturn _ => ⟨_, rfl, keeps_powerReturns _ _ (keeps_tick h)⟩
  | .pcieLinkUp _ _ _ => ⟨_, rfl, keeps_linkUp _ _ _ h⟩
  | .hbmTrainingComplete _ _ => ⟨_, rfl, keeps_trained _ _ h⟩
  | .bellowsCapCharged _ _ => ⟨_, rfl, keeps_capCharged _ _ h⟩
  | .holdUpExhausted => ⟨_, rfl, keeps_holdUpOut h⟩
  | .portPartnerPresent _ => ⟨_, rfl, keeps_whileUp _ _ h fun _ h => keeps_partnerPresent _ h⟩
  | .ftPpsOutPulse => ⟨_, rfl, keeps_whileUp _ _ h fun _ h => keeps_ppsPulse h⟩
  | .thermalWarnClear _ => ⟨_, rfl, keeps_warnClears _ h⟩
  | .smbusClockLowTimeout write => ⟨_, rfl, by cases write <;> [exact h; exact keeps_smbusDiscard h]⟩
  | .smbusAlertResponse => ⟨_, rfl, keeps_smbusAlertAnswer h⟩

/-- A step ends in a next state. It takes the command that it runs from the queue and keeps all else that Keeps speaks of. -/
theorem step_keeps (s : State) : ∃ t, step s = .next t ∧ Keeps { s with pending := s.pending.tail } t := by
  unfold step
  split
  case h_1 empty =>
    have same : { s with pending := s.pending.tail } = s := by rw [empty, List.tail_nil, ← empty]
    exact ⟨_, rfl, by rw [same]; exact keeps_idleStep (Keeps.refl s)⟩
  case h_2 i rest waits =>
    rw [waits]
    exact exec_keeps i _

theorem keeps_of_step {s t : State} (h : step s = .next t) : Keeps { s with pending := s.pending.tail } t := by
  obtain ⟨u, hu, keeps⟩ := step_keeps s
  rw [hu] at h
  cases h
  exact keeps

/-- Settles O56. -/
theorem heldChannelsStayQuiet : Obligations.HeldChannelsStayQuiet := by
  unfold Obligations.HeldChannelsStayQuiet
  intro s t quiet hst
  exact (keeps_of_step hst).quiet quiet

/-- Settles O57. -/
theorem engineModesStayLegal : Obligations.EngineModesStayLegal := by
  unfold Obligations.EngineModesStayLegal
  intro s t legal hst
  exact (keeps_of_step hst).mode legal

/-- Settles O58. -/
theorem memoryStaysCanonical : Obligations.MemoryStaysCanonical := by
  unfold Obligations.MemoryStaysCanonical
  intro s t canonical hst
  exact (keeps_of_step hst).mem canonical

/-- Settles O59. -/
theorem lifecycleAndFusesNeverGoBack : Obligations.LifecycleAndFusesNeverGoBack := by
  unfold Obligations.LifecycleAndFusesNeverGoBack
  intro s t hst
  exact ⟨(keeps_of_step hst).lifecycle, (keeps_of_step hst).key⟩

/-- Settles O60. -/
theorem everyCommandEndsAndLeavesTheQueue : Obligations.EveryCommandEndsAndLeavesTheQueue := by
  unfold Obligations.EveryCommandEndsAndLeavesTheQueue
  intro c s
  obtain ⟨t, ht, keeps⟩ := exec_keeps c s
  exact ⟨t, ht, keeps.pending, keeps.outbox, keeps.free⟩

/-- Settles O1. -/
theorem stepRunsTheFrontOfTheQueue : Obligations.StepRunsTheFrontOfTheQueue := by
  unfold Obligations.StepRunsTheFrontOfTheQueue
  refine fun c rest s => ⟨fun waits => ?_, rfl⟩
  rw [step, waits]

/-- A block whose firmware does not run does nothing by itself but let time pass. -/
theorem idleStep_of_stopped {s : State} (h : firmwareRuns s = false) : idleStep s = tickTime s := by
  have ticked : firmwareRuns (tickTime s) = false := by
    rw [← h]
    simp only [tickTime]
    repeat' split
    all_goals rfl
  rw [idleStep, goesOn, ticked]
  rfl

/-- Settles O2. Where the firmware does not run, the idle step is the tick of Fabric Time, whose four cases the statement names. -/
theorem emptyQueueLetsTimePass : Obligations.EmptyQueueLetsTimePass := by
  unfold Obligations.EmptyQueueLetsTimePass
  intro s empty
  have idle : step s = .next (idleStep s) := by rw [step, empty]
  refine ⟨idle, fun hslew stopped => ?_, fun stopped => ?_⟩
  · rw [idle, idleStep_of_stopped stopped, tickTime, if_pos hslew]
  · rw [idleStep_of_stopped stopped]
    simp only [tickTime]
    split
    · exact ⟨by simp, by simp, by simp, by omega, by omega⟩
    · split
      · exact ⟨by simp, by simp, by simp, by omega, by omega⟩
      · split
        · exact ⟨by simp, by simp, by simp; omega, fun _ _ => ⟨rfl, rfl⟩, by omega⟩
        · exact ⟨by simp, by simp, by simp; omega, by omega, fun _ _ => ⟨rfl, rfl⟩⟩

/-- Settles O55. -/
theorem resetStateMeetsTheInvariants : Obligations.ResetStateMeetsTheInvariants := by
  unfold Obligations.ResetStateMeetsTheInvariants
  exact ⟨rfl, rfl, rfl, rfl, fun _ _ => rfl, fun _ => ⟨rfl, quiet_released _ rfl⟩, fun k => ⟨rfl, modeLegal_default k⟩⟩

end Sys2Proof.Machine
end

section
/-! PROOFS. What travels between a lane and a stroke FIFO. -/

-- One theorem at a time: elaborating them in parallel takes the memory of many threads.
set_option Elab.async false

namespace Sys2Proof.Machine

theorem whileUp_of_up {d : Nat} {s : State} (f : State → State) (h : domLost s d = false) : whileUp d f s = f s := by
  rw [whileUp, h]; rfl

theorem eq_of_chans {s t : State} {cs : SMap Chan} (h : t = { s with chans := cs }) : t = { s with chans := t.chans } := by rw [h]

/-- Changes of several channels leave everything else alone. -/
theorem forUpTo_modChan_chans (n : Nat) (g : Nat → Nat) (f : Nat → Chan → Chan) (s : State) :
    forUpTo n s (fun p s => modChan (g p) (f p) s) = { s with chans := (forUpTo n s (fun p s => modChan (g p) (f p) s)).chans } := by
  induction n with
  | zero => rfl
  | succ n ih => exact eq_of_chans (by rw [forUpTo, ih]; rfl)

theorem modChan_of {c : Nat} {s : State} {f : Chan → Chan} {x : Chan} (h : f (chan s c) = x) : modChan c f s = setChan c x s := by
  rw [modChan, h]

/-- An emit of the slice emitter arrives at every channel of its lane, and at no other. -/
theorem deliverSymbol_slice {c : Nat} {s : State} {g : EmitGroup} {gs : List EmitGroup} (h : (chan s c).emits = g :: gs) (hg : g.slice = true) :
    let t := deliverSymbol c s
    t = { s with chans := t.chans } ∧ (∀ d, laneOf d = laneOf c → chan t d = arrive (emitsThrough g.id (chan s d).emits) (chan s d)) ∧
      ∀ d, laneOf d ≠ laneOf c → chan t d = chan s d := by
  have same : deliverSymbol c s =
      forUpTo 8 s (fun p s => modChan (8 * laneOf c + p) (fun x => arrive (emitsThrough g.id x.emits) x) s) := by
    rw [deliverSymbol, h]; exact if_pos hg
  rw [same]
  refine ⟨forUpTo_modChan_chans 8 _ (fun _ x => arrive (emitsThrough g.id x.emits) x) s, fun d hd => ?_, fun d hd => ?_⟩
  · have at_ : d = 8 * laneOf c + d % 8 := by unfold laneOf at hd ⊢; omega
    obtain ⟨u, hu, -, ht⟩ := chan_forUpTo_own (g := fun p => 8 * laneOf c + p)
      (f := fun p s => modChan (8 * laneOf c + p) (fun x => arrive (emitsThrough g.id x.emits) x) s)
      (fun a b e => by dsimp only at e; omega) (fun _ _ => elsewhere_modChan ..) (Nat.mod_lt d (show 0 < 8 by decide)) s
    rw [← at_] at hu ht
    rw [ht, chan_modChan_same, hu]
  · exact chan_forUpTo_other (g := fun p => 8 * laneOf c + p)
      (f := fun p s => modChan (8 * laneOf c + p) (fun x => arrive (emitsThrough g.id x.emits) x) s)
      (fun _ _ => elsewhere_modChan ..) 8 (fun j hj e => hd (by unfold laneOf at e ⊢; omega)) s

/-- Settles O3. -/
theorem symbolsCreditsAndSourcesTravelInOrder : Obligations.SymbolsCreditsAndSourcesTravelInOrder := by
  unfold Obligations.SymbolsCreditsAndSourcesTravelInOrder
  intro c s
  refine ⟨fun g gs up hemits => ⟨fun whole => ?_, fun slice => ?_⟩, fun n up back => ?_, fun up way => ?_, fun b bs up next => ?_⟩
  · refine congrArg Host.Outcome.next ((whileUp_of_up _ up).trans ?_)
    rw [deliverSymbol, hemits]
    simp only [whole, Bool.false_eq_true, if_false]
    exact modChan_of (by simp [arrive, hemits])
  · exact ⟨_, congrArg Host.Outcome.next (whileUp_of_up _ up), deliverSymbol_slice hemits slice⟩
  · refine congrArg Host.Outcome.next ((whileLanes_of_up _ up).trans (modChan_of ?_))
    cases h : (chan s c.val).laneStream <;> simp [back, h]
  · exact congrArg Host.Outcome.next ((whileLanes_of_up _ up).trans (modChan_of (if_pos way)))
  · refine congrArg Host.Outcome.next ((whileLanes_of_up _ up).trans (modChan_of ?_))
    rw [next]

end Sys2Proof.Machine
end

section
/-! PROOFS. A live write of CH_FUNC that changes MODE (02 R46). -/

-- One theorem at a time: elaborating them in parallel takes the memory of many threads.
set_option Elab.async false

namespace Sys2Proof.Machine

/-- A legal live write of a channel register outside the calibration area that leaves the settings valid. -/
theorem canvasWrite_chan {c off : Nat} {m : Master} {v w : Word} {u : State} (hcal : isCal (chPage c) off = false) (hl : Legal .ch off v)
    (hw : w = written .ch off (rdReg u (chPage c) off) v) (hv : chanWriteValid u c off w = true) :
    canvasWrite ⟨.ch, c⟩ (chPage c) off m v u = chanLive c off w u := by
  obtain ⟨r, hr, hok, -⟩ := hl
  have hr' : findReg (regsOf Kind.ch) off = some r := hr
  have hmerge : (mergeWord r.fields (rdReg u (chPage c) off) v).1 = w := by rw [hw, written, hr']
  have hres : (mergeWord r.fields (rdReg u (chPage c) off) v).2 = false := mergeWord_valid _ v hok
  simp only [canvasWrite, hr', hcal, Bool.false_eq_true, if_false, chanWrite, hmerge, hres, hv, if_true]

theorem exec_modeChange {c : Ch} {m : Master} {v w : Word} {s u : State} (h : Takes s (chPage c.val) m) (hl : Legal .ch 0x100 v)
    (hu : u = copyBefore (chPage c.val) s) (hw : w = written .ch 0x100 (rdReg u (chPage c.val) 0x100) v)
    (hv : chanWriteValid u c.val 0x100 w = true) : exec (.modeChange c m v) s = .next (chanLive c.val 0x100 w u) := by
  refine congrArg Host.Outcome.next ?_
  rw [accessWrite_canvas v h (pageAt_chPage c.isLt) (by decide) (fun h => nomatch h) (by decide) (by decide), ← hu]
  exact canvasWrite_chan rfl hl hw hv

theorem chan_srcChange_same (c : Nat) (old new : Word) (s : State) : chan (srcChange c old new s) c =
    { chan s c with laneSrcNext := (chan s c).laneSrcNext ++ (if bit old 4 = bit new 4 then [] else [bit new 4]) } := by
  unfold srcChange
  split <;> simp

theorem srcChange_chans (c : Nat) (old new : Word) (s : State) : srcChange c old new s = { s with chans := (srcChange c old new s).chans } := by
  unfold srcChange
  split <;> rfl

theorem rdReg_srcChange (c : Nat) (old new : Word) (p o : Nat) (s : State) : rdReg (srcChange c old new s) p o = rdReg s p o := by
  rw [srcChange_chans]; rfl

/-- What a change of source does to the state is to write the channel. -/
theorem setChan_srcChange (c : Nat) (x : Chan) (old new : Word) (s : State) : setChan c x (srcChange c old new s) = setChan c x s := by
  unfold srcChange
  split
  · rfl
  · exact setChan_setChan_same ..

theorem setChan_wrReg_holdForce (c : Nat) (x : Chan) (p o : Nat) (v : Word) (s : State) :
    setChan c x (wrReg p o v (holdForce c s)) = setChan c x (wrReg p o v s) := by
  unfold holdForce
  split
  · exact setChan_setChan_same c x _ (wrReg p o v s)
  · rfl

theorem holdForce_now (c : Nat) (s : State) : (holdForce c s).now = s.now := by
  unfold holdForce
  split <;> rfl

theorem rdReg_holdForce (c p o : Nat) (s : State) : rdReg (holdForce c s) p o = rdReg s p o := by
  unfold holdForce
  split <;> simp

theorem chan_holdForce (c : Nat) (s : State) : ∃ from_ at_, chan (holdForce c s) c = { chan s c with rampFrom := from_, rampAt := at_ } := by
  unfold holdForce
  split
  · exact ⟨_, _, chan_modChan_same ..⟩
  · exact ⟨_, _, rfl⟩

/-- A change of MODE alone, of a channel that is not held: it presents HIZ for 2 µs. -/
theorem settingsChange_mode {c : Nat} {oldFunc oldStrm : Word} (was : Forced) (atBoundary : Bool) {s : State}
    (hmode : bit oldFunc 8 ≠ bit (rdReg s (chPage c) 0x100) 8) (hrun : bit oldStrm 0 = bit (rdReg s (chPage c) 0x240) 0)
    (htoggled : (chan s c).runToggled = false) (hheld : (chan s c).held = false) :
    settingsChange c oldFunc oldStrm was atBoundary s =
      setChan c { chan s c with phase := .modeChange (s.now + 2 * us), func := .hiz, drive := none, window := none } s := by
  have noStop : (bit oldStrm 0 && (!bit (rdReg s (chPage c) 0x240) 0 || false)) = false := by rw [hrun]; simp
  have noSetup : (bit (rdReg s (chPage c) 0x240) 0 && (!bit oldStrm 0 || false)) = false := by rw [hrun]; simp
  simp only [settingsChange, htoggled, noStop, noSetup, Bool.false_eq_true, if_false]
  rw [if_pos hmode]
  simp [modChan, hheld]

/-! ## The value that a live write holds back -/

theorem smErase_of_noKey {α : Type} {m : SMap α} {i : Nat} (h : (smKeys (fun k _ => k == i) m).isEmpty = true) : smErase m i = m := by
  induction m with
  | nil => rfl
  | cons e m ih =>
    obtain ⟨k, v⟩ := e
    by_cases hk : k = i
    · simp [smKeys, hk] at h
    · rw [smErase, if_neg hk, ih (by simpa [smKeys, hk] using h)]

theorem smGet_of_key {α : Type} {m : SMap α} {i : Nat} (h : (smKeys (fun k _ => k == i) m).isEmpty = false) (d d' : α) : smGet d m i = smGet d' m i := by
  induction m with
  | nil => simp [smKeys] at h
  | cons e m ih =>
    obtain ⟨k, v⟩ := e
    by_cases hk : k = i
    · simp [smGet, hk]
    · rw [smGet, smGet, if_neg hk, if_neg hk, ih (by simpa [smKeys, hk] using h)]

/-- Before a live write whose old value is held back, what is in force is what was (02 R62). -/
theorem inForce_wrReg_holdOld (page off : Nat) (v : Word) (s : State) :
    inForce (wrReg page off v (holdOld page off s)) page off = inForce s page off := by
  show smGet _ (holdOld page off s).held _ = smGet _ s.held _
  unfold holdOld
  dsimp only
  cases h : (smKeys (fun i _ => i == regKey false page off) s.held).isEmpty with
  | true =>
    have erased := smErase_of_noKey h
    simp only [if_true]
    rw [← erased, smGet_smInsert_erased, smGet_smErase_same]
  | false =>
    simp only [Bool.false_eq_true, if_false]
    exact smGet_of_key h _ _

/-- While strokes run, a live write holds back what is in force. -/
theorem chanLive_running {c : Nat} (w : Word) {s : State} (h : strokesRun s c = true) :
    chanLive c 0x100 w s = srcChange c (rdReg s (chPage c) 0x100) w (wrReg (chPage c) 0x100 w (holdOld (chPage c) 0x100 s)) := by
  simp [chanLive, h]

theorem holdOld_held (p o : Nat) (s : State) : holdOld p o s = { s with held := (holdOld p o s).held } := by
  unfold holdOld
  dsimp only
  split <;> rfl

/-- Settles O4. Where no strokes run, the register's new value comes into force at once, and of what gives way to it only MODE differs;
where they run, the value held back is the old one. -/
theorem modeChangeTakesTwoMicroseconds : Obligations.ModeChangeTakesTwoMicroseconds := by
  unfold Obligations.ModeChangeTakesTwoMicroseconds
  intro c m v w s u takes legal hu hw valid
  have hp := chPage_lt c.isLt
  rw [exec_modeChange takes legal hu hw valid]
  refine ⟨fun still held toggled mode run => congrArg Host.Outcome.next ?_, fun runs => ⟨_, rfl, ?_⟩⟩
  · obtain ⟨from_, at_, hchan⟩ := chan_holdForce c.val u
    rw [chanLive, still]
    simp only [Bool.false_eq_true, if_false, if_true, changeSettings]
    rw [settingsChange_mode, setChan_srcChange, setChan_wrReg_holdForce, chan_srcChange_same, chan_wrReg, hchan]
    · rw [srcChange_chans, wrReg_now, holdForce_now]
    · rw [rdReg_srcChange, rdReg_wrReg_same]
      exact Ne.symm mode
    · rw [rdReg_srcChange, rdReg_wrReg_off (by decide) (by decide) (by decide), rdReg_holdForce]
      exact run
    · rw [chan_srcChange_same, chan_wrReg, hchan]; exact toggled
    · rw [chan_srcChange_same, chan_wrReg, hchan]; exact held
  · rw [chanLive_running w runs]
    have old := holdOld_held (chPage c.val) 0x100 u
    have regs : RegsKept u (srcChange c.val (rdReg u (chPage c.val) 0x100) w (wrReg (chPage c.val) 0x100 w (holdOld (chPage c.val) 0x100 u)))
        [(chPage c.val, 0x100)] := by
      rw [srcChange_chans]
      exact .rest (.wrReg (.rest (.refl u _) (by rw [old]) (by rw [old]) (by rw [old])) hp (by decide) (by simp) w) rfl rfl rfl
    refine ⟨by rw [rdReg_srcChange, rdReg_wrReg_same], ?_, ?_, regs, ?_, ?_, fun d hd => ?_⟩
    · rw [srcChange_chans]
      exact inForce_wrReg_holdOld ..
    · rw [chan_srcChange_same, chan_wrReg, old]
      rfl
    · rw [srcChange_chans, wrReg_mem, old]
    · rw [srcChange_chans, wrReg_now, old]
    · rw [chan_of_elsewhere (elsewhere_srcChange ..) hd, chan_wrReg, old]
      rfl

end Sys2Proof.Machine
end

-- ==== what a trip leaves alone ====
section
/-! PROOFS. What trips of channels leave alone: the rest of the device, and every page but those of channels, Palettes and Quench (spec 15 R393). -/

-- One theorem at a time: elaborating them in parallel takes the memory of many threads.
set_option Elab.async false

namespace Sys2Proof.Machine

/-! ### The rest of the device -/

/-- The state apart from its channels, its registers, time, free values and what its pages raise. -/
def apart (s : State) : State := { s with now := 0, free := 0, regs := [], chans := [], irqOut := [], msixDue := [], reports := [], wms := [] }

theorem mem_of_apart {s t : State} (h : apart t = apart s) : t.mem = s.mem := (congrArg State.mem h :)

theorem apart_pageOnly {s t : State} (h : PageOnly s t) : apart t = apart s := by
  rw [h]
  rfl

@[simp] theorem apart_tick (s : State) : apart (tick s) = apart s := (rfl)
@[simp] theorem apart_reach (n : Nat) (s : State) : apart (reach n s) = apart s := (rfl)
@[simp] theorem apart_modReg (p o : Nat) (f : Word → Word) (s : State) : apart (modReg p o f s) = apart s := (rfl)
@[simp] theorem apart_countReg (p o n : Nat) (s : State) : apart (countReg p o n s) = apart s := (rfl)
@[simp] theorem apart_modChan (c : Nat) (f : Chan → Chan) (s : State) : apart (modChan c f s) = apart s := (rfl)
@[simp] theorem apart_raiseBit (p i : Nat) (s : State) : apart (raiseBit p i s) = apart s := apart_pageOnly (pageOnly_raiseBit ..)
@[simp] theorem apart_captureAs (p ca o d cl sh g k : Nat) (s : State) : apart (captureAs p ca o d cl sh g k s) = apart s :=
  apart_pageOnly (pageOnly_captureAs ..)

@[simp] theorem apart_strmFlag (c b irq : Nat) (s : State) : apart (strmFlag c b irq s) = apart s := by simp [strmFlag]
@[simp] theorem apart_timingError (c : Nat) (s : State) : apart (timingError c s) = apart s := by simp [timingError]
@[simp] theorem apart_stopStream (c : Nat) (s : State) : apart (stopStream c s) = apart s := (rfl)
@[simp] theorem apart_abortPmu (c : Nat) (s : State) : apart (abortPmu c s) = apart s := by
  unfold abortPmu
  split <;> simp
@[simp] theorem apart_fillSlot (c reg : Nat) (fails : Bool) (s : State) : apart (fillSlot c reg fails s) = apart s := by simp [fillSlot]
@[simp] theorem apart_strobeRegion (c : Nat) (st : Stroke) (t : Nat) (volts : Int) (s : State) : apart (strobeRegion c st t volts s).2 = apart s := by
  unfold strobeRegion
  split <;> simp
@[simp] theorem apart_pmuEvent (c : Nat) (s : State) : apart (pmuEvent c s) = apart s := by
  unfold pmuEvent
  repeat' split
  all_goals simp [pmuTriggered]
@[simp] theorem apart_applyEvent (c : Nat) (e : PalEvent) (st : Stroke) (volts : Int) (s : State) : apart (applyEvent c e st volts s) = apart s := by
  unfold applyEvent
  dsimp only
  repeat' split
  all_goals simp
@[simp] theorem apart_nextEvent (c : Nat) (volts : Int) (strayed : Bool) (s : State) : apart (nextEvent c volts strayed s) = apart s := by
  unfold nextEvent watchWindow
  dsimp only
  repeat' split
  all_goals simp
@[simp] theorem apart_eventsBefore (c n : Nat) (s : State) : apart (eventsBefore c n s) = apart s := by
  induction n generalizing s with
  | zero => rfl
  | succ n ih =>
    unfold eventsBefore
    repeat' split
    all_goals simp [ih]

@[simp] theorem apart_trip (c cause key : Nat) (s : State) : apart (trip c cause key s) = apart s := by
  unfold trip
  dsimp only
  split <;> simp

@[simp] theorem apart_tripWatched (c cause key : Nat) (s : State) : apart (tripWatched c cause key s) = apart s := by
  unfold tripWatched
  split <;> simp

theorem apart_forUpTo {n : Nat} {f : Nat → State → State} {s : State} (h : ∀ i s, apart (f i s) = apart s) : apart (forUpTo n s f) = apart s :=
  forUpTo_inv (P := fun t => apart t = apart s) rfl fun i t ht => (h i t).trans ht

@[simp] theorem apart_tripAll (cause key : Nat) (s : State) : apart (tripAll cause key s) = apart s := apart_forUpTo fun _ _ => apart_tripWatched ..

/-! ### The other pages -/

/-- The registers that a trip of a channel may write. -/
def tripRegs (c : Nat) : List (Nat × Nat) :=
  eventRegs c ++ [(tqPage (tileOf c), 0x020), (tqPage (tileOf c), 0x010), (tqPage (tileOf c), 0x718)]

theorem regsKept_modChan (c : Nat) (f : Chan → Chan) (s : State) : RegsKept s (modChan c f s) [] := .rest (.refl s _) rfl rfl rfl

theorem regsKept_trip {c : Nat} (cause key : Nat) (hc : c < 512) (s : State) : RegsKept s (trip c cause key s) (tripRegs c) := by
  have page := tqPage_lt (tileOf_lt hc)
  cases held : (chan s c).held with
  | true =>
    rw [trip_of_held cause key held]
    exact .rest (.refl s _) rfl rfl rfl
  | false =>
    obtain ⟨group, eq⟩ := trip_of_free (s := s) cause key hc held
    rw [eq]
    refine .captureAs (.raiseBit (.modReg ?_ page (by decide) (by simp [tripRegs]) _) page (by simp [tripRegs]) _) page (by simp [tripRegs]) _ _ _ _ _ _ _
    exact ((regsKept_stopped hc s).trans ((regsKept_modChan _ _ _).mono (by simp))).mono (by simp +contextual [tripRegs])

/-- A page that is no channel's, no Palette's and no tile's Quench page keeps its registers over a trip. -/
theorem rdReg_trip_other {c p o : Nat} (cause key : Nat) (hc : c < 512) (hp : p < 2 ^ 14) (ho : o < 2 ^ 12)
    (other : ∀ x, pageAt p = some x → x.kind ≠ .ch ∧ x.kind ≠ .pal ∧ x.kind ≠ .tquench) (s : State) :
    rdReg (trip c cause key s) p o = rdReg s p o := by
  have isCh := other ⟨.ch, c⟩
  have isPal := other ⟨.pal, laneOf c⟩
  have isTq := other ⟨.tquench, tileOf c⟩
  refine regsKept_trip cause key hc s false p o hp ho fun mem => ?_
  simp only [tripRegs, eventRegs, List.cons_append, List.nil_append, List.mem_cons, Prod.mk.injEq, List.not_mem_nil, or_false] at mem
  have page : p = chPage c ∨ p = palPage (laneOf c) ∨ p = tqPage (tileOf c) := by tauto
  obtain e | e | e := page
  · exact (isCh (e ▸ pageAt_chPage hc)).1 rfl
  · exact (isPal (e ▸ pageAt_palPage (laneOf_lt hc))).2.1 rfl
  · exact (isTq (e ▸ pageAt_tqPage (tileOf_lt hc))).2.2 rfl

theorem rdReg_tripAll_other {p o : Nat} (cause key : Nat) (hp : p < 2 ^ 14) (ho : o < 2 ^ 12)
    (other : ∀ x, pageAt p = some x → x.kind ≠ .ch ∧ x.kind ≠ .pal ∧ x.kind ≠ .tquench) (s : State) :
    rdReg (tripAll cause key s) p o = rdReg s p o := by
  have upTo (n : Nat) (hn : n ≤ 512) : rdReg (forUpTo n s (fun c s => tripWatched c cause key s)) p o = rdReg s p o := by
    induction n with
    | zero => rfl
    | succ n ih =>
      rw [forUpTo, tripWatched]
      split
      · rw [rdReg_trip_other cause key (by omega) hp ho other, ih (by omega)]
      · exact ih (by omega)
  exact upTo 512 (le_refl _)

theorem watched_of_doms {s t : State} (h : t.doms = s.doms) (c : Nat) : watched t c = watched s c := by unfold watched dom; rw [h]

/-- A trip of every channel holds each one that Quench watches. -/
theorem held_tripAll {s : State} {c : Nat} (cause key : Nat) (hc : c < 512) (h : watched s c = true) : (chan (tripAll cause key s) c).held = true := by
  obtain ⟨u, -, hd, he⟩ := chan_forUpTo_own (i := c) (n := 512) (g := id) Function.injective_id (f := fun c s => tripWatched c cause key s)
    (fun c s => elsewhere_tripWatched ..) hc s
  have eq : chan (tripAll cause key s) c = chan (tripWatched c cause key u) c := he
  rw [eq, tripWatched, watched_of_doms hd, h]
  exact held_trip ..

end Sys2Proof.Machine
end

-- ==== the Quench commands ====
section
/-! PROOFS. Quench: the limits that trip, releases, and the emergency latches (spec 15 R387-R399). -/

-- One theorem at a time: elaborating them in parallel takes the memory of many threads.
set_option Elab.async false

namespace Sys2Proof.Machine

/-! ### The limits that trip a channel -/

theorem accountedPower_eq (mV uA : Int) : accountedPower mV uA = if 0 ≤ mV * uA then (mV * uA).natAbs else 0 := by
  unfold accountedPower
  split <;> omega

theorem insideBand_eq_false_iff (s : State) (c : Nat) (volts : Int) : insideBand s c volts = false ↔
    (if bit (chFunc s c) 8 then volts < -393216 ∨ 786432 < volts else volts < -655360 ∨ 2555904 < volts) := by
  unfold insideBand
  split <;> simp only [decide_eq_false_iff_not] <;> omega

theorem watched_iff (s : State) (c : Nat) : watched s c = true ↔ (dom s (tileOf c)).good = true ∧ (dom s (tileOf c)).inReset = false := by
  simp [watched]

theorem overvolt_eq (c : Nat) (volts : Int) (s : State) : overvolt c volts s =
    if ((dom s (tileOf c)).good = true ∧ (dom s (tileOf c)).inReset = false) ∧
        (if bit (chFunc s c) 8 then volts < -393216 ∨ 786432 < volts else volts < -655360 ∨ 2555904 < volts)
    then trip c 5 0 s else s := by
  have band := insideBand_eq_false_iff s c volts
  have watches := watched_iff s c
  unfold overvolt tripWatched
  by_cases inside : insideBand s c volts = true
  · rw [if_pos inside, if_neg (fun h => by simp [band.mpr h.2] at inside)]
  · rw [if_neg inside]
    by_cases w : watched s c = true
    · rw [if_pos w, if_pos ⟨watches.mp w, band.mp (by simpa using inside)⟩]
    · rw [if_neg w, if_neg (fun h => w (watches.mpr h.1))]

theorem clampDue_eq_none {s : State} {c : Nat} (h : (chan s c).clampSince = none ∨ (pmuClamp s c = .none ∧ driverOn s c = false)) :
    clampDue s c = none := by
  obtain hs | ⟨hp, hd⟩ := h
  · simp [clampDue, hs]
  · simp [clampDue, hp, hd]

theorem clampDue_eq_some {s : State} {c from_ : Nat} (h : (chan s c).clampSince = some from_) (acts : pmuClamp s c ≠ .none ∨ driverOn s c = true) :
    clampDue s c = some (from_ + 2 ^ fld (rdReg s (tqPage (tileOf c)) (0x100 + 4 * (c % 64))) 15 12 * us) := by
  rw [clampDue, if_pos acts, h]
  rfl

/-- Settles O16. -/
theorem quenchTripsOnItsLimits : Obligations.QuenchTripsOnItsLimits := by
  intro c s
  refine ⟨fun mV uA nW u up hnW hu => ?_, fun volts => congrArg Host.Outcome.next (overvolt_eq _ _ _), fun up h => ?_, fun from_ up hs acts => ?_, fun up => ⟨?_, ?_⟩⟩
  · rw [← accountedPower_eq] at hnW
    subst hnW hu
    exact congrArg Host.Outcome.next (whileUp_of_up _ up)
  · refine congrArg Host.Outcome.next ((whileUp_of_up _ up).trans ?_)
    rw [clampLimit, clampDue_eq_none h]
  · refine congrArg Host.Outcome.next ((whileUp_of_up _ up).trans ?_)
    rw [clampLimit, clampDue_eq_some hs acts]
  · exact congrArg Host.Outcome.next (whileUp_of_up _ up)
  · exact congrArg Host.Outcome.next (whileUp_of_up _ up)

/-! ### Releases -/

/-- A page whose writes are taken acts on a command to it. -/
theorem onPage_of_takes {s : State} {page off : Nat} {m : Master} {x : Page} (f : State → State) (h : Takes s page m) (hx : pageAt page = some x) :
    onPage page off m f s = f s := by
  obtain ⟨-, ok, -, takes⟩ := h
  obtain ⟨rejects, ready⟩ := takes x hx
  simp [onPage, ok, hx, rejects, notReady, ready]

/-- The domain of a page whose writes are taken is up. -/
theorem domLost_of_pageError {s : State} {page : Nat} {x : Page} (h : pageError s page = none) (hx : pageAt page = some x) (hk : x.kind ≠ .test) :
    domLost s (pageDomain x) = false := by
  obtain ⟨k, i⟩ := x
  by_contra up
  cases k <;> simp_all [pageError]

/-- A loop that acts at one index only acts once. -/
theorem forUpTo_once {σ : Type} {n i : Nat} (hi : i < n) (f : Nat → σ → σ) (x : σ) (h : ∀ j y, j ≠ i → f j y = y) : forUpTo n x f = f i x := by
  have idle (m : Nat) (hm : m ≤ i) : forUpTo m x f = x := by
    induction m with
    | zero => rfl
    | succ m ih => rw [forUpTo, h m _ (by omega), ih (by omega)]
  induction n with
  | zero => omega
  | succ n ih =>
    obtain e | lt : i = n ∨ i < n := by omega
    · rw [forUpTo, e, idle n (by omega)]
    · rw [forUpTo, h n _ (by omega), ih lt]

theorem bit_w32_pow_ne {i j : Nat} (h : j ≠ i) : bit (w32 (2 ^ i)) j = false := by
  rw [bit, w32, BitVec.getLsbD_ofNat, Nat.testBit_two_pow_of_ne (Ne.symm h), Bool.and_false]

theorem bit_forUpTo_setBit {n i : Nat} (f : Nat → Bool) (w : Word) (lt : i < n) (hn : n ≤ 32) :
    bit (forUpTo n w (fun j w => setBit w j (f j))) i = f i := by
  induction n with
  | zero => omega
  | succ n ih =>
    obtain e | lt : i = n ∨ i < n := by omega
    · subst e
      exact bit_setBit_same _ _ (by omega)
    · exact (bit_setBit_ne _ _ (by omega) (by omega) (by omega)).trans (ih lt (by omega))

/-- A release write of one position acts on that position alone. -/
theorem releaseWrite_one {t : Nat} {hi : Bool} {m : Master} {volts : List Int} {s : State} {i : Nat} (lt : i < 32) :
    releaseWrite t hi m (w32 (2 ^ i)) (insideMask s t hi volts) s =
      releaseOne (64 * t + 32 * hi.toNat + i) m (0x708 + 4 * hi.toNat) (insideBand s (64 * t + 32 * hi.toNat + i) (volts.getD i 0)) s := by
  unfold releaseWrite
  rw [forUpTo_once lt _ _ (fun j u h => if_neg (by rw [bit_w32_pow_ne h]; decide)), if_pos (bit_w32_pow lt)]
  exact congrArg (releaseOne _ m _ · s) (bit_forUpTo_setBit _ _ lt (le_refl 32))

/-- A channel that fails one of the conditions of a release is not released (15 R395). -/
theorem mayRelease_eq_false {s : State} {c : Nat} {inside : Bool}
    (h : (chan s c).held = false ∨ Nat.land (rdReg s quenchPage 0x700).toNat 15 ≠ 0 ∨ inside = false ∨ isolateOpen s c = true) :
    mayRelease s c inside = false := by
  obtain h | h | h | h := h
  · simp [mayRelease, h]
  · simp only [mayRelease, beq_eq_false_iff_ne.mpr h, Bool.and_false, Bool.false_and]
  · simp [mayRelease, h]
  · simp [mayRelease, h]

theorem startSwitch_release {s : State} {c : Nat} (idle : (chan s c).pmu = .idle) (held : (chan s c).held = true) :
    startSwitch c (chFunc s c) .nothing false s = setChan c (
      if strokesRun s c then { chan s c with term := false, forcing := false, phase := .toB0 }
      else { chan s c with term := false, forcing := false, phase := .holdTimer (s.now + us), window := none, drive := none, tdcArmed := none }) s := by
  have runs : strokesRun (modChan c (fun x => { x with term := false, forcing := false }) s) c = strokesRun s c := by simp [strokesRun]
  have start : modChan c (fun x => { x with term := termOf (chFunc s c) x.func && !x.held, forcing := Forced.nothing != .nothing }) s =
      modChan c (fun x => { x with term := false, forcing := false }) s := by simp [modChan, held]
  unfold startSwitch abortPmu rampOver enterHold
  simp only [idle, if_true, start, runs]
  by_cases r : strokesRun s c = true
  · rw [if_pos r, if_pos r]
    exact (setChan_setChan_same ..).trans (congrArg (setChan c · s) (by simp only [chan_modChan_same, idle]))
  · rw [if_neg r, if_neg r]
    exact (setChan_setChan_same ..).trans (congrArg (setChan c · s) (by simp only [chan_modChan_same, modChan_now, idle]))

/-- Settles O17. -/
theorem releaseIsGrantedOrRefused : Obligations.ReleaseIsGrantedOrRefused := by
  intro t hi i m volts s c takes hc
  have tile : tileOf c = t.val := by rw [hc, tileOf]; cases hi <;> simp <;> omega
  have up : domLost s (tileOf c) = false := tile ▸ domLost_of_pageError takes.2.1 (pageAt_tqPage t.isLt) (fun h => nomatch h)
  have runs : exec (.quenchRelease t hi m (w32 (2 ^ i.val)) volts) s =
      .next (releaseOne c m (0x708 + 4 * hi.toNat) (insideBand s c (volts.getD i.val 0)) s) := by
    refine congrArg Host.Outcome.next ((onPage_of_takes _ takes (pageAt_tqPage t.isLt)).trans ?_)
    rw [releaseWrite_one i.isLt, ← hc]
  rw [runs]
  refine ⟨fun held moving => ?_, fun steady fails => ?_, fun steady held idle clear inside closed => ?_⟩
  · exact congrArg Host.Outcome.next (if_pos (by simp [held, moving]))
  · refine congrArg Host.Outcome.next ((if_neg (by simp [steady])).trans ((if_neg ?_).trans (by rw [tile])))
    rw [mayRelease_eq_false fails]
    decide
  · refine congrArg Host.Outcome.next ((if_neg (by simp [steady])).trans ((if_pos ?_).trans (startSwitch_release idle held)))
    simp only [mayRelease, held, clear, up, inside, closed]
    rfl

/-! ### The emergency latches -/

theorem bit_emStat {b : Nat} (hb : b < 3) (s : State) : bit (emStat s) b = bit (rdReg s quenchPage 0x700) b :=
  bit_setBit_ne _ _ (by decide) (by omega) (by omega)

theorem setLatch_of_set {b : Nat} (hb : b < 3) (origin cause : Nat) {s : State} (h : bit (rdReg s quenchPage 0x700) b = true) :
    setLatch b origin cause s = s := if_pos ((bit_emStat hb s).trans h)

/-- The state in which a latch has set and is counted, before its trips (15 R397). -/
def latchSet (b : Nat) (s : State) : State :=
  report ⟨0, quenchPage, 1, fEVENT, 19, b, []⟩ (raiseBit quenchPage 0 (countReg quenchPage 0x708 1 (modReg quenchPage 0x700 (fun w => setBit w b true) s)))

theorem setLatch_of_clear {b : Nat} (hb : b < 3) (origin cause : Nat) {s : State} (h : bit (rdReg s quenchPage 0x700) b = false) :
    ∃ bs, setLatch b origin cause s = tripAll (b + 2) b (offer 0x3001 3 quenchPage false bs (latchSet b s)) :=
  ⟨_, if_neg (by rw [bit_emStat hb, h]; exact Bool.false_ne_true)⟩

theorem rdReg_tripAll_quenchPage (cause key : Nat) {o : Nat} (ho : o < 2 ^ 12) (s : State) :
    rdReg (tripAll cause key s) quenchPage o = rdReg s quenchPage o :=
  rdReg_tripAll_other cause key quenchPage_lt ho (fun x hx => by cases pageAt_quenchPage.symm.trans hx; decide) s

theorem latchSet_stat (b : Nat) (s : State) : rdReg (latchSet b s) quenchPage 0x700 = setBit (rdReg s quenchPage 0x700) b true := by
  rw [latchSet, rdReg_report, raiseBit, rdReg_raise_off _ (by decide) (by decide), countReg, rdReg_modReg_off (by decide) (by decide) (by decide),
    rdReg_modReg_same]

theorem latchSet_trips (b : Nat) (s : State) : rdReg (latchSet b s) quenchPage 0x708 = satAdd (rdReg s quenchPage 0x708) 1 := by
  rw [latchSet, rdReg_report, raiseBit, rdReg_raise_off _ (by decide) (by decide), countReg, rdReg_modReg_same,
    rdReg_modReg_off (by decide) (by decide) (by decide)]

theorem latchSet_flag (b : Nat) (s : State) : bit (rdReg (latchSet b s) quenchPage 0x010) 0 = true :=
  bit_raiseBit_same _ (by decide) _

/-- What a latch sets beside its own bit. -/
theorem setLatch_sets {b : Nat} (hb : b < 3) (origin cause : Nat) {s : State} (h : bit (rdReg s quenchPage 0x700) b = false) :
    let t := setLatch b origin cause s
    rdReg t quenchPage 0x700 = setBit (rdReg s quenchPage 0x700) b true ∧ rdReg t quenchPage 0x708 = satAdd (rdReg s quenchPage 0x708) 1 ∧
      bit (rdReg t quenchPage 0x010) 0 = true ∧ ∀ c, c < 512 → watched s c = true → (chan t c).held = true := by
  obtain ⟨bs, eq⟩ := setLatch_of_clear hb origin cause h
  have doms : (offer 0x3001 3 quenchPage false bs (latchSet b s)).doms = s.doms := (pageOnly_raiseBit quenchPage 0 _).doms_eq
  simp only [eq, rdReg_tripAll_quenchPage _ _ (show (0x700 : Nat) < 2 ^ 12 by decide), rdReg_tripAll_quenchPage _ _ (show (0x708 : Nat) < 2 ^ 12 by decide),
    rdReg_tripAll_quenchPage _ _ (show (0x010 : Nat) < 2 ^ 12 by decide)]
  exact ⟨latchSet_stat b s, latchSet_trips b s, latchSet_flag b s, fun c hc hw => held_tripAll _ _ hc ((watched_of_doms doms c).trans hw)⟩

/-- What an emergency keeps: the pins, the domains, each hold of a channel and each latch. -/
structure EmergencyKeeps (s t : State) : Prop where
  pins : t.pins = s.pins
  doms : t.doms = s.doms
  held : ∀ c, (chan s c).held = true → (chan t c).held = true
  latch : ∀ i, i < 3 → bit (rdReg s quenchPage 0x700) i = true → bit (rdReg t quenchPage 0x700) i = true

namespace EmergencyKeeps

theorem trans {s t u : State} (h : EmergencyKeeps s t) (k : EmergencyKeeps t u) : EmergencyKeeps s u :=
  ⟨k.pins.trans h.pins, k.doms.trans h.doms, fun c hc => k.held c (h.held c hc), fun i hi hs => k.latch i hi (h.latch i hi hs)⟩

theorem of_eq {s t : State} (pins : t.pins = s.pins) (doms : t.doms = s.doms) (chans : t.chans = s.chans)
    (stat : rdReg t quenchPage 0x700 = rdReg s quenchPage 0x700) : EmergencyKeeps s t :=
  ⟨pins, doms, fun c hc => by unfold chan at hc ⊢; rwa [chans], fun i _ hs => by rwa [stat]⟩

end EmergencyKeeps

theorem held_tripWatched {c d : Nat} (cause key : Nat) {s : State} (h : (chan s d).held = true) : (chan (tripWatched c cause key s) d).held = true := by
  by_cases e : d = c
  · subst e
    rw [tripWatched]
    split
    · exact held_trip ..
    · exact h
  · rwa [chan_of_elsewhere (elsewhere_tripWatched ..) e]

theorem emergencyKeeps_setLatch {b : Nat} (hb : b < 3) (origin cause : Nat) (s : State) : EmergencyKeeps s (setLatch b origin cause s) := by
  cases h : bit (rdReg s quenchPage 0x700) b with
  | true => rw [setLatch_of_set hb origin cause h]; exact .of_eq rfl rfl rfl rfl
  | false =>
    have sets := (setLatch_sets hb origin cause h).1
    obtain ⟨bs, eq⟩ := setLatch_of_clear hb origin cause h
    have page : PageOnly (modReg quenchPage 0x700 (fun w => setBit w b true) s) (latchSet b s) :=
      ((pageOnly_modReg ..).trans (pageOnly_raiseBit ..)).trans (pageOnly_report ..)
    have rest : apart (setLatch b origin cause s) = apart (offer 0x3001 3 quenchPage false bs (latchSet b s)) := eq ▸ apart_tripAll ..
    refine ⟨(congrArg State.pins rest :).trans (congrArg State.pins page :), (congrArg State.doms rest :).trans page.doms_eq, fun c hc => ?_, fun i hi hs => ?_⟩
    · have before : chan (offer 0x3001 3 quenchPage false bs (latchSet b s)) c = chan s c := congrArg (smGet ({} : Chan) · c) page.chans_eq
      rw [eq]
      exact forUpTo_inv (P := fun t => (chan t c).held = true) (by rwa [before]) fun _ _ ht => held_tripWatched _ _ ht
    · rw [sets]
      by_cases e : i = b
      · subst e
        exact bit_setBit_same _ _ (by omega)
      · rwa [bit_setBit_ne _ _ (by omega) (by omega) e]

/-- A block that goes out changes the ports and what is sent alone. -/
theorem emergencyOut_only (except origin eid cause : Nat) (s : State) :
    ∃ f p o n, emergencyOut except origin eid cause s = { s with fabric := f, ports := p, outbox := o, free := n } := by
  refine forUpTo_inv (P := fun t => ∃ f p o n, t = { s with fabric := f, ports := p, outbox := o, free := n })
    ⟨s.fabric, s.ports, s.outbox, s.free, rfl⟩ fun i t ⟨f, p, o, n, ht⟩ => ?_
  subst ht
  split
  · unfold cutFrame
    repeat' split
    all_goals exact ⟨_, _, _, _, rfl⟩
  · exact ⟨_, _, _, _, rfl⟩

theorem emergencyKeeps_originate (cause : Nat) (s : State) : EmergencyKeeps s (originate cause s) := by
  unfold originate
  split
  · exact .of_eq rfl rfl rfl rfl
  · obtain ⟨f, p, o, n, out⟩ := emergencyOut_only 8 (node s) ((s.fabric.eid + 1) % 2 ^ 16) cause
      (seePair (node s) ((s.fabric.eid + 1) % 2 ^ 16) (modFab (fun x => { x with eid := (s.fabric.eid + 1) % 2 ^ 16 }) s))
    refine .trans (.of_eq ?_ ?_ ?_ ?_) (emergencyKeeps_setLatch (by decide) _ cause _)
    all_goals exact out ▸ rfl

theorem pageRead_quenchStat (s : State) : pageRead s quenchPage 0x700 = emStat s := rfl

/-- EMSTOP_N asserted for 2 ns or more while D8 is up (15 R396). -/
theorem pinAssert_acts {p : PinPulse} {s : State} (hp : p = .pulse ∨ p = .held) (up : domLost s 8 = false) :
    let u : State := setLatch 0 0 0 { s with pins := { s.pins with emstop := decide (p = .held) } }
    EmergencyKeeps u (pinAssert p s) := by
  have acts : pinAssert p s = (fun u => if bit (rdReg u fbPage 0x740) 0 then originate 0 u else u)
      (setLatch 0 0 0 { s with pins := { s.pins with emstop := decide (p = .held) } }) := by
    have up' (x : Pins) : domLost { s with pins := x } 8 = false := up
    obtain rfl | rfl := hp
    · exact if_neg (ne_true_of_eq_false (up' _))
    · exact if_neg (ne_true_of_eq_false (up' _))
  rw [acts]
  dsimp only
  split
  · exact emergencyKeeps_originate 0 _
  · exact .of_eq rfl rfl rfl rfl

theorem testBit_sub_land : ∀ a < 8, ∀ m < 8, ∀ i < 3, (a - Nat.land a m).testBit i = (a.testBit i && !m.testBit i) := by decide

theorem testBit_mask : ∀ m < 8, ∀ i < 3, (m / 2 * 2).testBit i = (m.testBit i && i != 0) := by decide

theorem bit_eq_testBit_fld (w : Word) {i : Nat} (hi : i < 3) : bit w i = (fld w 2 0).testBit i := by
  rw [testBit_fld, decide_eq_true (by omega), Bool.true_and, Nat.zero_add]
  rfl

/-- The latches that a write of QD_EMSTAT leaves. -/
theorem clearLatches_eq (v : Word) (s : State) : ∃ w, clearLatches v s = wrReg quenchPage 0x700 w s ∧
    bit w 0 = (bit (rdReg s quenchPage 0x700) 0 && !(bit v 0 && !s.pins.emstop)) ∧
    bit w 1 = (bit (rdReg s quenchPage 0x700) 1 && !bit v 1) ∧ bit w 2 = (bit (rdReg s quenchPage 0x700) 2 && !bit v 2) ∧
    fld w 31 3 = fld (rdReg s quenchPage 0x700) 31 3 := by
  refine ⟨_, rfl, ?_⟩
  generalize rdReg s quenchPage 0x700 = w
  have a : fld w 2 0 < 8 := fld_lt ..
  have m : fld v 2 0 < 8 := fld_lt ..
  have own (i : Nat) (hi : i < 3) : bit (setFld w 2 0 (fld w 2 0 - Nat.land (fld w 2 0) (if s.pins.emstop then fld v 2 0 / 2 * 2 else fld v 2 0))) i =
      (bit w i && !(bit v i && !(s.pins.emstop && i == 0))) := by
    rw [bit_setFld _ _ _ (by decide) (by decide) (by omega), if_neg (by omega), if_pos (by omega), Nat.sub_zero, bit_eq_testBit_fld w hi, bit_eq_testBit_fld v hi]
    cases s.pins.emstop with
    | true => rw [if_pos rfl, testBit_sub_land _ a _ (by omega) _ hi, testBit_mask _ m _ hi]; cases i <;> rfl
    | false => rw [if_neg Bool.false_ne_true, testBit_sub_land _ a _ m _ hi]; simp
  refine ⟨by rw [own 0 (by decide)]; simp, by rw [own 1 (by decide)]; simp, by rw [own 2 (by decide)]; simp, fld_setFld_ne _ _ (by decide) (by decide) (by decide) (by decide)⟩

/-- Settles O18. -/
theorem emergencyStopHoldsEveryChannel : Obligations.EmergencyStopHoldsEveryChannel := by
  refine ⟨fun b origin cause s => ⟨fun set => setLatch_of_set b.isLt origin cause set, fun clear => ?_⟩, fun p s hp => ⟨fun lost => ?_, fun up clear => ?_⟩,
    fun m v s takes => ⟨?_, ?_⟩⟩
  · obtain ⟨stat, trips, flag, held⟩ := setLatch_sets b.isLt origin cause clear
    exact ⟨by rw [stat, bit_setBit_same _ _ (by omega)], trips, flag, fun c => held c.val c.isLt⟩
  · have lost' (x : Pins) : domLost { s with pins := x } 8 = true := lost
    refine congrArg Host.Outcome.next ?_
    obtain rfl | rfl := hp <;> simp [pinAssert, lost']
  · have keeps := pinAssert_acts hp up
    obtain ⟨stat, -, -, held⟩ := setLatch_sets (b := 0) (by decide) 0 0 (s := { s with pins := { s.pins with emstop := decide (p = .held) } }) clear
    have pins := (emergencyKeeps_setLatch (b := 0) (by decide) 0 0 { s with pins := { s.pins with emstop := decide (p = .held) } }).pins
    refine ⟨_, rfl, ?_, ?_, fun c hw => keeps.held c.val (held c.val c.isLt hw)⟩
    · rw [pageRead_quenchStat, bit_emStat (by decide)]
      exact keeps.latch 0 (by decide) (by rw [stat]; exact bit_setBit_same _ _ (by decide))
    · rw [pageRead_quenchStat, emStat, bit_setBit_same _ _ (by decide), keeps.pins, pins]
  · refine congrArg Host.Outcome.next ((accessWrite_estop _ takes).trans (if_pos ?_))
    exact bit_setBit_same _ _ (by decide)
  · obtain ⟨w, eq, bits⟩ := clearLatches_eq v s
    exact ⟨w, congrArg Host.Outcome.next ((accessWrite_emstat v takes).trans eq), bits⟩

end Sys2Proof.Machine
end

-- ==== Anvil ====
section
/-! PROOFS. Anvil: reports, entries and the monitors of the coverage table (spec 15 R403-R407). -/

-- One theorem at a time: elaborating them in parallel takes the memory of many threads.
set_option Elab.async false

namespace Sys2Proof.Machine

/-! ### Reports -/

theorem noteCorrected_of_cls {r : Report} {s : State} (h : r.cls ≠ 0) : noteCorrected r s = s := if_pos h

/-- An entry whose class an escalation leaves is left as it is. -/
theorem escalated_of_cls {s : State} {e : AnvilEntry} (h : (escalated s e).cls = e.cls) : escalated s e = e := by
  unfold escalated at h ⊢
  dsimp only at h ⊢
  split at h
  case isTrue yes =>
    obtain ⟨zero, -, -⟩ := yes
    exact absurd (zero ▸ h : (3 : Nat) = 0) (by decide)
  case isFalse no => rw [if_neg no]

/-- The entry that a report opens (15 R404). -/
theorem escalated_new (u : State) (r : Report) :
    escalated u { state := 1, fid := u.nextFid, kind := r.kind, id := r.id, cls := r.cls, cause := r.cause, count := 1, firstFt := u.now, group := r.group, key := r.key } =
      { state := 1, fid := u.nextFid, kind := r.kind, id := r.id, count := 1, firstFt := u.now, group := r.group, key := r.key, cause := r.cause,
        cls := if r.cls = 0 ∧ 0 < fld (rdReg u anvilPage 0x724) 15 0 ∧ fld (rdReg u anvilPage 0x724) 15 0 ≤ (smGet [] u.corrected (sourceNo r.kind r.id)).length then 3 else r.cls } := by
  simp only [escalated, ← Nat.pos_iff_ne_zero]
  split <;> rfl

/-- A report on its way to a device that is up. -/
theorem exec_report {s u : State} {r : Report} {rs : List Report} (up : domLost s 8 = false) (h : s.reports = r :: rs) (hu : u = noteCorrected r { s with reports := rs }) :
    exec .anvilReportReceived s = .next (match findEntry u (linked u r) with
      | some i => setAnv i { anvEntry u i with links := min ((anvEntry u i).links + 1) 0xFFFFFFFF } u
      | none => match findEntry u (fun e => e.state != 0 && e.kind == r.kind && e.id == r.id && e.cause == r.cause) with
        | some i => mergeReport i u
        | none => openEntry r u) := by
  subst hu
  refine congrArg Host.Outcome.next ((whileUp_of_up _ up).trans ?_)
  rw [anvilReceives, h]
  exact if_neg (by rw [show domLost { s with reports := rs } 8 = false from up]; exact Bool.false_ne_true)

theorem mergeReport_eq {i : Nat} {u : State} {x : AnvilEntry} (hx : x = { anvEntry u i with count := min ((anvEntry u i).count + 1) 0xFFFF }) :
    mergeReport i u = if (escalated u x).cls = x.cls then setAnv i x u else anvilAct (escalated u x) (anvilRecord (escalated u x) (setAnv i (escalated u x) u)) := by
  have cls : (anvEntry u i).cls = x.cls := hx ▸ rfl
  rw [mergeReport, ← hx, cls]
  by_cases same : (escalated u x).cls = x.cls
  · rw [if_neg (not_not_intro same), if_pos same, escalated_of_cls same]
  · rw [if_pos same, if_neg same]

theorem openEntry_eq {i : Nat} {u z : State} {r : Report} {e : AnvilEntry} (place : (List.range 64).find? (fun i => (anvEntry u i).state == 0) = some i)
    (he : e = { state := 1, fid := u.nextFid, kind := r.kind, id := r.id, count := 1, firstFt := u.now, group := r.group, key := r.key, cause := r.cause,
                cls := if r.cls = 0 ∧ 0 < fld (rdReg u anvilPage 0x724) 15 0 ∧ fld (rdReg u anvilPage 0x724) 15 0 ≤ (smGet [] u.corrected (sourceNo r.kind r.id)).length then 3 else r.cls })
    (hz : z = anvilRecord e (raiseBit anvilPage 0 (sampleAnvil { setAnv i e u with nextFid := if u.nextFid + 1 = 0 then 1 else u.nextFid + 1 }))) :
    openEntry r u = anvilAct e z := by
  rw [← escalated_new] at he
  rw [openEntry, ← he, place, hz]

theorem anvilAct_reports {e : AnvilEntry} (z : State) (h : e.cls = 0 ∨ e.cls = 1 ∨ e.cls = 2 ∨ 4 < e.cls ∨ (e.cls = 4 ∧ e.group ≠ 16)) : anvilAct e z = z := by
  unfold anvilAct
  split
  · omega
  · exact if_neg (by omega)
  · rfl

theorem anvilAct_isolates {e : AnvilEntry} (z : State) (hc : e.cls = 4) (hg : e.group = 16) : anvilAct e z = isolate e.key z := by
  rw [anvilAct, hc]
  exact if_pos hg

theorem anvilAct_channel {e : AnvilEntry} (z : State) (hc : e.cls = 3) (hg : e.group = 9) : anvilAct e z = tripWatched e.key 9 e.key
    (if bit (rdReg z (chPage e.key) 0x104) 7 then send (.siteDegraded (fld (rdReg z (chPage e.key) 0x104) 6 0)) z else z) := by
  rw [anvilAct, hc]
  exact if_pos hg

theorem anvilAct_engine {e : AnvilEntry} (z : State) (hc : e.cls = 3) (hg : e.group ≠ 9) : anvilAct e z =
    if e.kind = 1 ∧ e.id < 8192 then parkEngine (e.id % 4096 + 512 * (e.id / 4096)) z else z := by
  rw [anvilAct, hc]
  exact if_neg hg

/-! ### Detections -/

theorem exec_monitor {s : State} (up : domLost s 8 = false) (w : Monitor) (dev : Bool) : exec (.coverageMonitorCheck w dev) s = .next (monitorCheck w dev s) :=
  congrArg Host.Outcome.next (whileUp_of_up _ up)

theorem monitorCheck_clean {w : Monitor} (s : State) (notVref : ∀ t code, w ≠ .vref t code) (notLock : ∀ t, w ≠ .tpllLock t) : monitorCheck w false s = s := by
  cases w with
  | vref t code => exact absurd rfl (notVref t code)
  | tpllLock t => exact absurd rfl (notLock t)
  | _ => simp [monitorCheck]

/-- Settles O19. -/
theorem anvilGivesEachFaultOneEntry : Obligations.AnvilGivesEachFaultOneEntry := by
  refine ⟨fun s u r rs up next hu => ⟨fun cls => hu.trans (noteCorrected_of_cls cls), fun i link => ?_, fun unlinked => ⟨fun i same x hx => ?_, fun new i place e z he hz => ?_⟩⟩,
    fun m v s takes => ⟨congrArg Host.Outcome.next (accessWrite_anvAck v takes), congrArg Host.Outcome.next (accessWrite_anvClose v takes)⟩,
    fun w s up => ⟨fun notVref notLock => ?_, fun c hw => ?_⟩, fun t code d e c m s p q hp hq up => ?_, fun page off s up mapped => ?_⟩
  · rw [exec_report up next hu, link]
  · rw [exec_report up next hu, unlinked]
    simp only [same, mergeReport_eq hx]
  · have opens : exec .anvilReportReceived s = .next (anvilAct e z) := by
      rw [exec_report up next hu, unlinked]
      simp only [new, openEntry_eq place he hz]
    rw [opens]
    exact ⟨fun h => congrArg Host.Outcome.next (anvilAct_reports z h), fun hc hg => congrArg Host.Outcome.next (anvilAct_isolates z hc hg),
      fun hc hg => congrArg Host.Outcome.next (anvilAct_channel z hc hg), fun hc hg => congrArg Host.Outcome.next (anvilAct_engine z hc hg)⟩
  · rw [exec_monitor up, monitorCheck_clean s notVref notLock]
  · rw [exec_monitor up]
    obtain rfl | rfl | rfl | rfl := hw <;> rfl
  · subst hp hq
    simp only [exec_monitor up]
    refine ⟨?_, fun was => ?_, rfl, fun was => ?_, rfl, rfl, fun tile => ⟨?_, ?_, ?_⟩, rfl, rfl, fun lost => ?_⟩
    · simp [monitorCheck]
    · simp [monitorCheck, was]
    · have page : domainPage t.val = pageIndex ⟨.tile, t.val⟩ := if_pos t.isLt
      simp [monitorCheck, was, reportLoss, page]
    · simp [monitorCheck, tile]
    · simp [monitorCheck, tile, eccReport]
    · simp [monitorCheck, tile, eccReport]
    · simp [monitorCheck, lost]
  · rw [exec_monitor up]
    exact congrArg Host.Outcome.next (if_pos ⟨rfl, mapped⟩)

end Sys2Proof.Machine
end

-- ==== the timebase's registers ====
section
/-! PROOFS. Start and stop of a timebase, its period and its count (spec 03 R76-R79). -/

-- One theorem at a time: elaborating them in parallel takes the memory of many threads.
set_option Elab.async false

namespace Sys2Proof.Machine

theorem canvasWrite_strkCtl (k : Nat) (m : Master) (v : Word) (u : State) : canvasWrite ⟨.cl, k⟩ (clPage k) 0x108 m v u = strkCtlWrite k m (bit v 0) u := rfl

theorem exec_strkCtl {k : Cl} {m : Master} {s u : State} (h : Takes s (clPage k.val) m) (hu : u = copyBefore (clPage k.val) s) :
    exec (.timebaseEnable k m) s = .next (strkCtlWrite k.val m true u) ∧ exec (.timebaseDisable k m) s = .next (strkCtlWrite k.val m false u) := by
  subst hu
  have writes (v : Word) : accessWrite (clPage k.val) 0x108 m v s = strkCtlWrite k.val m (bit v 0) (copyBefore (clPage k.val) s) :=
    (accessWrite_canvas v h (pageAt_clPage k.isLt) (by decide) (fun h => nomatch h) (by decide) (by decide)).trans (canvasWrite_strkCtl ..)
  exact ⟨congrArg Host.Outcome.next (writes 1), congrArg Host.Outcome.next (writes 0)⟩

/-- EN written to a timebase that is not in force: it is set, and the start follows. -/
theorem strkCtlWrite_start {k : Nat} {m : Master} {u : State} (off : (base u k).en = false) :
    strkCtlWrite k m true u = timebaseStart k (masterCode m) (modReg (clPage k) 0x108 (fun w => setBit w 0 true) u) := by
  unfold strkCtlWrite
  simp [off]

theorem clT0_modReg (k : Nat) (f : Word → Word) (u : State) : clT0 (modReg (clPage k) 0x108 f u) k = clT0 u k := by
  unfold clT0 rd64
  rw [rdReg_modReg_off (by decide) (by decide) (by decide), rdReg_modReg_off (by decide) (by decide) (by decide), rdReg_modReg_off (by decide) (by decide) (by decide)]

theorem period_modReg (k : Nat) (f : Word → Word) (u : State) : period (modReg (clPage k) 0x108 f u) k = period u k := by
  unfold period
  rw [rdReg_modReg_off (by decide) (by decide) (by decide), rdReg_modReg_off (by decide) (by decide) (by decide)]

theorem setFld_setFld_same (w : Word) {i : Nat} (a b : Nat) (hi : i < 32) : setFld (setFld w i i a) i i b = setFld w i i b := by
  refine BitVec.eq_of_getLsbD_eq fun j hj => ?_
  rw [getLsbD_setFld _ _ _ (le_refl i) hi hj, getLsbD_setFld _ _ _ (le_refl i) hi hj, getLsbD_setFld _ _ _ (le_refl i) hi hj]
  split
  · rfl
  · split <;> rfl

theorem modReg_modReg_same (p o : Nat) (f g : Word → Word) (s : State) : modReg p o f (modReg p o g s) = modReg p o (fun w => f (g w)) s := by
  unfold modReg
  rw [rdReg_wrReg_same]
  exact congrArg (fun r => ({ s with regs := r } : State)) (smPut_smPut_same ..)

theorem timebaseStart_refused {k m : Nat} {u : State} (h : clT0 u k < u.now + 2 * us ∨ periodValid (period u k) = false) :
    timebaseStart k m u = capture (clPage k) fREFUSED 0x108 m (modReg (clPage k) 0x108 (fun w => setBit w 0 false) u) :=
  if_pos (h.imp_right fun h => by rw [h]; rfl)

theorem timebaseStart_taken {k m : Nat} {u : State} (ahead : u.now + 2 * us ≤ clT0 u k) (valid : periodValid (period u k) = true) :
    timebaseStart k m u = setBase k { base u k with en := true, running := false, next := clT0 u k } u :=
  if_neg (by rw [valid]; simpa using ahead)

theorem periodValid_eq_false_iff (p : Nat) : periodValid p = false ↔ p < 1024 ∨ 8192000000 < p := by
  unfold periodValid
  simp only [Bool.and_eq_false_iff, decide_eq_false_iff_not]
  omega

/-- A write of a half of the period (03 R77), per the period that it would leave. -/
def periodWrite (k off : Nat) (m : Master) (w : Word) (per : Nat) (u : State) : State :=
  if bit (rdReg u (clPage k) 0x108) 0 || (base u k).en || !periodValid per then invalidWrite (clPage k) off m u else wrReg (clPage k) off w u

theorem clusterLive_low (k : Nat) (m : Master) (fs : List Field) (v : Word) (u : State) : clusterLive k 0x100 m fs v u =
    periodWrite k 0x100 m (mergeWord fs (rdReg u (clPage k) 0x100) v).1
      ((mergeWord fs (rdReg u (clPage k) 0x100) v).1.toNat + 2 ^ 32 * fld (rdReg u (clPage k) 0x104) 7 0) u := rfl

theorem clusterLive_high (k : Nat) (m : Master) (fs : List Field) (v : Word) (u : State) : clusterLive k 0x104 m fs v u =
    periodWrite k 0x104 m (mergeWord fs (rdReg u (clPage k) 0x104) v).1
      ((rdReg u (clPage k) 0x100).toNat + 2 ^ 32 * fld (mergeWord fs (rdReg u (clPage k) 0x104) v).1 7 0) u := rfl

theorem canvasWrite_period (k : Nat) (hi : Bool) (m : Master) (v : Word) (u : State) (w : Word)
    (hw : w = written .cl (0x100 + 4 * hi.toNat) (rdReg u (clPage k) (0x100 + 4 * hi.toNat)) v) :
    canvasWrite ⟨.cl, k⟩ (clPage k) (0x100 + 4 * hi.toNat) m v u = periodWrite k (0x100 + 4 * hi.toNat) m w
      (if hi then (rdReg u (clPage k) 0x100).toNat + 2 ^ 32 * fld w 7 0 else w.toNat + 2 ^ 32 * fld (rdReg u (clPage k) 0x104) 7 0) u := by
  have found : (findReg (regsOf .cl) (0x100 + 4 * hi.toNat)).isSome = true := by cases hi <;> decide
  obtain ⟨r, hr⟩ := Option.isSome_iff_exists.mp found
  have hw : w = (mergeWord r.fields (rdReg u (clPage k) (0x100 + 4 * hi.toNat)) v).1 := by rw [hw, written, hr]
  have live : canvasWrite ⟨.cl, k⟩ (clPage k) (0x100 + 4 * hi.toNat) m v u = clusterLive k (0x100 + 4 * hi.toNat) m r.fields v u := by
    simp only [canvasWrite, hr]
  rw [live, hw]
  cases hi
  · exact clusterLive_low ..
  · exact clusterLive_high ..

theorem pageRead_strokeCount {k : Nat} (hk : k < 8) (s : State) :
    pageRead s (clPage k) 0x700 = w32 (base s k).count ∧ pageRead s (clPage k) 0x704 = (base s k).scHi := by
  constructor
  · rw [pageRead, pageAt_clPage hk]; rfl
  · rw [pageRead, pageAt_clPage hk]; rfl

theorem pageReadEffect_strokeCount {k : Nat} (hk : k < 8) (s : State) : pageReadEffect (clPage k) 0x700 s = scLatch k s := by
  rw [pageReadEffect, pageAt_clPage hk]
  rfl

/-- Settles O10. -/
theorem timebaseStartsAtItsInstantOrIsRefused : Obligations.TimebaseStartsAtItsInstantOrIsRefused := by
  intro k m s u takes hu
  obtain ⟨enables, disables⟩ := exec_strkCtl takes hu
  refine ⟨fun off refused => ?_, fun off ahead valid => ?_, fun on runs => ?_, fun hi v w hw per hper => ?_, ?_, pageRead_strokeCount k.isLt s⟩
  · rw [enables, strkCtlWrite_start off, timebaseStart_refused (by rwa [clT0_modReg, period_modReg, modReg_now]), modReg_modReg_same]
    simp only [setBit, setFld_setFld_same _ _ _ (show 0 < 32 by decide)]
  · rw [enables, strkCtlWrite_start off, timebaseStart_taken (by rwa [clT0_modReg, modReg_now]) (by rwa [period_modReg]), clT0_modReg, base_modReg]
  · rw [disables]
    simp [strkCtlWrite, on, runs, modBase]
  · subst hu hw hper
    refine congrArg Host.Outcome.next ?_
    rw [accessWrite_canvas v takes (pageAt_clPage k.isLt) (by cases hi <;> rfl) (fun h => nomatch h) (by cases hi <;> decide) (by cases hi <;> decide), canvasWrite_period _ _ _ _ _ _ rfl]
    simp only [periodWrite, Bool.or_eq_true, Bool.not_eq_true', periodValid_eq_false_iff, or_assoc]
  · refine congrArg Host.Outcome.next ((accessRead_of_up takes.1 takes.2.1 (by decide)).trans ?_)
    rw [pageYields_of_quiet takes.2.2.1, pageReadEffect_strokeCount k.isLt]
    rfl

end Sys2Proof.Machine
end

-- ==== the measurement units ====
section
/-! PROOFS. The parametric measurement unit and the time-to-digital converter (spec 02 R50-R55). -/

-- One theorem at a time: elaborating them in parallel takes the memory of many threads.
set_option Elab.async false

namespace Sys2Proof.Machine

/-! ### A trigger -/

theorem exec_pmuTrigger {c : Ch} {m : Master} {s : State} (v : Word) (h : Takes s (chPage c.val) m) :
    exec (.pmuTrigger c m v) s = .next (pmuTrigWrite c.val m v s) := congrArg Host.Outcome.next (accessWrite_pmuTrig c.isLt v h)

theorem pmuTrigWrite_wrongFunc {c : Nat} {m : Master} {v : Word} {s : State} (go : bit v 0 = true) (h : (chan s c).func ≠ .pmu) :
    pmuTrigWrite c m v s = rejectWrite (chPage c) 0x704 m s := by
  rw [pmuTrigWrite, go]
  exact if_pos h

theorem pmuTrigWrite_busy {c : Nat} {m : Master} {v : Word} {s : State} (go : bit v 0 = true) (func : (chan s c).func = .pmu) (busy : (chan s c).pmu ≠ .idle) :
    pmuTrigWrite c m v s = s := by
  rw [pmuTrigWrite, go]
  exact (if_neg (not_not_intro func)).trans (if_pos busy)

theorem pmuTrigWrite_idle {c : Nat} {m : Master} {v : Word} {s : State} (go : bit v 0 = true) (func : (chan s c).func = .pmu) (idle : (chan s c).pmu = .idle) :
    pmuTrigWrite c m v s = pmuTriggered c s := by
  rw [pmuTrigWrite, go]
  exact (if_neg (not_not_intro func)).trans (if_neg (not_not_intro idle))

theorem pmuEvent_untriggered {c : Nat} {s : State} (h : bit (inForce s (chPage c) 0x150) 14 = false) : pmuEvent c s = s := by
  rw [pmuEvent, h]
  rfl

theorem pmuEvent_busy {c : Nat} {s : State} (func : (chan s c).func = .pmu) (busy : (chan s c).pmu ≠ .idle) : pmuEvent c s = s := by
  unfold pmuEvent
  rw [if_neg (not_not_intro func), if_pos busy, ite_self]

theorem pmuEvent_wrongFunc {c : Nat} {s : State} (trig : bit (inForce s (chPage c) 0x150) 14 = true) (h : (chan s c).func ≠ .pmu) :
    pmuEvent c s = captureAs (chPage c) fEVENT 0x704 0 3 fEVENT 0 0 s := by
  rw [pmuEvent, trig]
  exact if_pos h

/-- A rejected write sets the page's REJECT bit and captures it in an empty PG_FAULT (00 R13). -/
theorem rejectWrite_chPage {c off : Nat} {m : Master} {s : State} (hc : c < 512) :
    bit (rdReg (rejectWrite (chPage c) off m s) (chPage c) 0x010) 5 = true ∧
    (bit (rdReg s (chPage c) 0x020) 31 = false → rdReg (rejectWrite (chPage c) off m s) (chPage c) 0x020 = syndrome fREJECT off (masterCode m)) := by
  have raises : raiseReject (chPage c) s = raiseBit (chPage c) 5 s := by simp only [raiseReject, pageAt_chPage hc, rejectBit]
  rw [rejectWrite, capture, captureAs, rdReg_report, rdReg_report, rdReg_captureOnly_off _ _ _ (by decide) (by decide), rdReg_captureOnly_same, raises]
  refine ⟨bit_raiseBit_same _ (by decide) _, fun empty => ?_⟩
  rw [raiseBit, rdReg_raise_off _ (by decide) (by decide), if_neg (by simp [empty])]

theorem captureAs_empty {p : Nat} {s : State} (cause off detail cls show_ group key : Nat) (empty : bit (rdReg s p 0x020) 31 = false) :
    rdReg (captureAs p cause off detail cls show_ group key s) p 0x020 = syndrome cause off detail := by
  rw [captureAs, rdReg_report, rdReg_captureOnly_same, if_neg (by simp [empty])]

/-! ### A Palette word of nothing but triggers -/

theorem blurStrobe_regs (c : Nat) (f : Word) (st : Stroke) (s : State) : (blurStrobe c f st s).regs = s.regs := by
  unfold blurStrobe
  repeat' split
  all_goals rfl

/-- The TERR bit of a result is no bit of its header. -/
theorem late_result : ∀ slice : Bool, ∀ n < 4, (BitVec.ofNat 24 (slice.toNat * 0x800000 + false.toNat * 0x400000) ||| BitVec.ofNat 24 (n * 0x40000)).getLsbD 20 = false := by
  decide

/-- With TSRC = 0 a word of PMU triggers alone leaves no event to apply, and no TERR (02 R52). -/
theorem palStroke_untriggered {c : Nat} {y : Symbol} {s : State} (trig : bit (inForce s (chPage c) 0x150) 14 = false)
    (ok : wordOk (palWord s c y.sym.toNat) = true)
    (only : ∀ e ∈ wordEvents s c (palWord s c y.sym.toNat) ((chan s c).func == .driveCompare), e.kind = 6) :
    (palStroke c y s).regs = s.regs ∧ ∀ st, (chan (palStroke c y s) c).stroke = some st → st.result.getLsbD 20 = false ∧ st.late = false := by
  have none : (wordEvents s c (palWord s c y.sym.toNat) ((chan s c).func == .driveCompare)).filter (fun e => e.kind != 6 || false) = [] :=
    List.filter_eq_nil_iff.mpr fun e he => by simp [only e he]
  have uic : (palWord s c y.sym.toNat).toNat / 2 ^ 254 < 4 := by
    have := (palWord s c y.sym.toNat).isLt
    omega
  simp only [palStroke, ok, trig, none, Bool.not_true, Bool.false_eq_true, if_false]
  refine ⟨blurStrobe_regs .., fun st hst => ?_⟩
  rw [chan_modChan_same] at hst
  obtain rfl := Option.some.inj hst
  exact ⟨late_result y.slice _ uic, rfl⟩

/-! ### A switch of function ends a measurement -/

theorem rdReg_startSwitch (c : Nat) (old : Word) (was : Forced) (atBoundary : Bool) (s : State) (p o : Nat) :
    rdReg (startSwitch c old was atBoundary s) p o = rdReg (abortPmu c s) p o := by
  unfold startSwitch rampOver enterHold startForce
  dsimp only
  repeat' split
  all_goals simp

theorem pmu_startSwitch (c : Nat) (old : Word) (was : Forced) (atBoundary : Bool) (s : State) :
    (chan (startSwitch c old was atBoundary s) c).pmu = .idle := by
  have idle : (chan (abortPmu c s) c).pmu = .idle := abortPmu_pmu ..
  unfold startSwitch rampOver enterHold startForce
  dsimp only
  repeat' split
  all_goals simp [idle]

theorem rdReg_pmuTriggered (c : Nat) (s : State) : rdReg (pmuTriggered c s) (chPage c) 0x708 = setBit (rdReg s (chPage c) 0x708) 31 false :=
  rdReg_modReg_same ..

theorem regsKept_pmuTriggered {c : Nat} (hc : c < 512) (s : State) : RegsKept s (pmuTriggered c s) [(chPage c, 0x708)] :=
  .modReg ((regsKept_modChan _ _ _).mono (by simp)) (chPage_lt hc) (by decide) (by simp) _

theorem mem_pmuTriggered (c : Nat) (s : State) : (pmuTriggered c s).mem = s.mem := mem_of_apart (by simp [pmuTriggered])

/-- Settles O6. -/
theorem pmuTriggerStartsOneMeasurement : Obligations.PmuTriggerStartsOneMeasurement := by
  intro c m v s takes go
  have page := chPage_lt c.isLt
  refine ⟨fun func busy => ⟨?_, pmuEvent_busy func busy⟩, fun func => ?_, fun trig => ⟨pmuEvent_untriggered trig, fun y ok only => palStroke_untriggered trig ok only⟩,
    fun trig func => ?_, fun busy old was b => ?_, fun func idle => ?_⟩
  · rw [exec_pmuTrigger v takes, pmuTrigWrite_busy go func busy]
  · rw [exec_pmuTrigger v takes, pmuTrigWrite_wrongFunc go func]
    obtain ⟨flag, captured⟩ := rejectWrite_chPage (off := 0x704) (m := m) (s := s) c.isLt
    exact ⟨_, rfl, flag, captured, pageOnly_rejectWrite .., (RegsKept.refl s _).rejectWrite page (by simp) (by simp) _ _⟩
  · rw [pmuEvent_wrongFunc trig func]
    exact ⟨pageOnly_captureAs .., (RegsKept.refl s _).captureAs page (by simp) _ _ _ _ _ _ _, captureAs_empty _ _ _ _ _ _ _⟩
  · simp only [rdReg_startSwitch]
    exact ⟨pmu_startSwitch .., measurement_abortPmu busy⟩
  · rw [exec_pmuTrigger v takes, pmuTrigWrite_idle go func idle]
    refine ⟨_, rfl, ?_, ?_, regsKept_pmuTriggered c.isLt s, mem_pmuTriggered .., fun d hd => chan_of_elsewhere (c := c.val) (by simp [pmuTriggered]) hd⟩
    · simp [pmuTriggered]
    · rw [rdReg_pmuTriggered]
      exact bit_setBit_same _ _ (by decide)

/-! ### Sampling, results and clamps -/

theorem rampInProgress_eq (s : State) (c : Nat) :
    rampInProgress s c = if pmuOn s c = true ∧ (chan s c).rampFrom ≠ forceGoal s c then forceRampEnd s c else 0 := by
  simp only [rampInProgress, Bool.and_eq_true, bne_iff_ne]

/-- The word of CH_PMU_MEAS at the end of a measurement (02 R51). -/
theorem measWord_bits (ovr : Bool) (code : BitVec 18) :
    let w := w32 (0x80000000 + ovr.toNat * 0x40000000 + code.toNat)
    bit w 31 = true ∧ bit w 30 = ovr ∧ bit w 29 = false ∧ fld w 17 0 = code.toNat := by
  have lt := code.isLt
  have le : ovr.toNat ≤ 1 := ovr.toNat_le
  have value : (w32 (0x80000000 + ovr.toNat * 0x40000000 + code.toNat)).toNat = 0x80000000 + ovr.toNat * 0x40000000 + code.toNat :=
    by rw [w32, BitVec.toNat_ofNat]; omega
  dsimp only
  refine ⟨?_, ?_, ?_, ?_⟩
  · rw [bit, BitVec.getLsbD, value, Nat.testBit_eq_decide_div_mod_eq]
    exact decide_eq_true (by omega)
  · rw [bit, BitVec.getLsbD, value, Nat.testBit_eq_decide_div_mod_eq]
    cases ovr
    · exact decide_eq_false (by simp only [Bool.toNat_false]; omega)
    · exact decide_eq_true (by simp only [Bool.toNat_true]; omega)
  · rw [bit, BitVec.getLsbD, value, Nat.testBit_eq_decide_div_mod_eq]
    exact decide_eq_false (by omega)
  · rw [fld, value]
    omega

theorem since_eq (o : Option Nat) (n : Nat) : (if o.isSome then o else some n) = some (o.getD n) := by cases o <;> rfl

theorem driverOn_iff (s : State) (c : Nat) : driverOn s c = true ↔
    (chan s c).func = .driveCompare ∧ (chan s c).phase = .steady ∧ (chan s c).drive ≠ none ∧ outputsOpen s c = false := by
  simp [driverOn, Option.isSome_iff_ne_none, and_assoc]

/-- Settles O7. -/
theorem pmuMeasuresTheMeanOfItsSamples : Obligations.PmuMeasuresTheMeanOfItsSamples := by
  intro c s up
  refine ⟨fun waiting u hu => ?_, fun sum ovr code sampling hcode => ?_, fun noClamp => ?_, fun clamp => ?_, fun long => ?_⟩
  · refine congrArg Host.Outcome.next ((whileUp_of_up _ up).trans ?_)
    rw [pmuSample, if_neg (not_not_intro waiting), rampInProgress_eq, ← hu]
    exact modChan_of (by rw [hu, chan_reach])
  · refine ⟨_, congrArg Host.Outcome.next ((whileUp_of_up _ up).trans ((if_neg (not_not_intro sampling)).trans ?_)), measWord_bits ovr code⟩
    rw [hcode]
    exact congrArg (raiseBit _ 0) (modChan_of (by simp))
  · refine congrArg Host.Outcome.next ((whileUp_of_up _ up).trans ((if_neg (not_not_intro noClamp)).trans ?_))
    simp only [driverOn_iff]
    split
    · exact modChan_of (by rw [since_eq])
    · rfl
  · refine congrArg Host.Outcome.next ((whileUp_of_up _ up).trans ((if_pos clamp).trans ?_))
    exact congrArg (raiseBit _ 3) (modChan_of (by simp only [since_eq]))
  · exact congrArg Host.Outcome.next (whileUp_of_up _ up)

/-! ### Crossings -/

/-- A crossing that the TDC of a channel with an armed window looks at: of the selected threshold in a selected direction (02 R54). -/
structure Looked (c n thr : Nat) (falling : Bool) (st : Stroke) (s : State) : Prop where
  func : (chan s c).func = .tdc
  armed : (chan s c).tdcArmed = some n
  stroke : (chan s c).stroke = some st
  threshold : thr = fld (inForce s (chPage c) 0x160) 1 0
  rises : fld (inForce s (chPage c) 0x160) 3 2 = 0 → falling = false
  falls : fld (inForce s (chPage c) 0x160) 3 2 = 1 → falling = true

theorem Looked.selected {c n thr : Nat} {falling : Bool} {st : Stroke} {s : State} (h : Looked c n thr falling st s) :
    ¬ ((chan s c).func ≠ .tdc ∨ thr ≠ fld (inForce s (chPage c) 0x160) 1 0 ∨
      (fld (inForce s (chPage c) 0x160) 3 2 = 0 ∧ falling = true) ∨ (fld (inForce s (chPage c) 0x160) 3 2 = 1 ∧ (!falling) = true)) := by
  rintro (k | k | ⟨e, k⟩ | ⟨e, k⟩)
  · exact k h.func
  · exact k h.threshold
  · exact Bool.false_ne_true ((h.rises e).symm.trans k)
  · rw [h.falls e] at k
    exact Bool.false_ne_true k

/-- A crossing that no earlier one precedes is recorded while fewer than MAXEV are in the window (02 R54). -/
theorem tdcCross_first {c n thr : Nat} {ofs : BitVec 40} {falling : Bool} {st : Stroke} {s : State} {x : Chan} (h : Looked c n thr falling st s)
    (first : (chan s c).tdcLast = none) (room : n < fld (inForce s (chPage c) 0x160) 15 8)
    (hx : x = { chan s c with tdcArmed := some (n + 1), tdcLast := some (st.begins + 8 * ofs.toNat, (base s (clusterOf c)).count, ofs.toNat) }) :
    tdcCross c ofs thr falling s =
      tdcStore c ⟨(base s (clusterOf c)).count, ofs, thr, falling, false⟩ (setChan c x (reach (st.begins + 8 * ofs.toNat) s)) := by
  simp only [tdcCross, h.armed, h.stroke, first]
  rw [if_neg h.selected, if_pos room]
  exact congrArg (tdcStore c _) (modChan_of (by rw [hx, chan_reach]))

/-- A crossing less than 250 ps after the last recorded one marks that one missed. -/
theorem tdcCross_missed {c n thr l cnt o : Nat} {ofs : BitVec 40} {falling : Bool} {st : Stroke} {s : State} {x : Chan} (h : Looked c n thr falling st s)
    (last : (chan s c).tdcLast = some (l, cnt, o)) (near : st.begins + 8 * ofs.toNat < l + 16384)
    (hx : x = { chan s c with tdcFifo := markMissed cnt o (chan s c).tdcFifo }) : tdcCross c ofs thr falling s = setChan c x s := by
  simp only [tdcCross, h.armed, h.stroke, last]
  rw [if_neg h.selected, if_pos near]
  exact modChan_of hx.symm

theorem tdcStore_room {c : Nat} {e : TdcEntry} {x : Chan} {u : State} (room : x.tdcFifo.length < 16) :
    tdcStore c e (setChan c x u) = wmSample (chPage c) 0 (x.tdcFifo.length + 1)
      ((if x.tdcFifo.isEmpty then raiseBit (chPage c) 1 else id) (setChan c { x with tdcFifo := x.tdcFifo ++ [e] } u)) := by
  have now : chan (setChan c x u) c = x := chan_setChan_same ..
  have step : modChan c (fun x => { x with tdcFifo := x.tdcFifo ++ [e] }) (setChan c x u) = setChan c { x with tdcFifo := x.tdcFifo ++ [e] } u := by
    rw [modChan, now, setChan_setChan_same]
  unfold tdcStore
  simp only [now, step]
  rw [if_neg (by omega)]
  cases x.tdcFifo <;> rfl

theorem tdcStore_full {c : Nat} {e : TdcEntry} {x : Chan} {u : State} (full : 16 ≤ x.tdcFifo.length) :
    tdcStore c e (setChan c x u) =
      raiseBit (chPage c) 2 (modReg (chPage c) 0x724 (fun w => w32 (min (w.toNat + 1) 0xFFFF)) (setChan c x u)) :=
  if_pos (by rwa [chan_setChan_same])

theorem tdcPopWrite_oldest {c : Nat} {v : Word} {e : TdcEntry} {es : List TdcEntry} {s : State} (pop : bit v 0 = true) (h : (chan s c).tdcFifo = e :: es) :
    tdcPopWrite c v s = wmSample (chPage c) 0 es.length (setChan c { chan s c with tdcFifo := es } s) := by
  have step : modChan c (fun x => { x with tdcFifo := x.tdcFifo.tail }) s = setChan c { chan s c with tdcFifo := es } s := modChan_of (by rw [h]; rfl)
  unfold tdcPopWrite
  rw [if_pos (by rw [pop, h]; rfl)]
  simp only [step, chan_setChan_same]

/-- Settles O8. -/
theorem tdcKeepsSixteenEntriesInOrder : Obligations.TdcKeepsSixteenEntriesInOrder := by
  intro c ofs thr falling n st s up
  have runs : exec (.tdcCrossing c ofs thr falling) s = .next (tdcCross c.val ofs thr.val falling s) := congrArg Host.Outcome.next (whileUp_of_up _ up)
  rw [runs]
  refine ⟨fun func armed stroke hthr rises falls => ?_, fun m v e es takes pop fifo => ?_⟩
  · have looked : Looked c.val n thr.val falling st s := ⟨func, armed, stroke, hthr, rises, falls⟩
    refine ⟨fun first room x u hx hu => ⟨fun fits => ?_, fun full => ?_⟩, fun l cnt o last near => by rw [tdcCross_missed looked last near rfl]⟩
    · rw [tdcCross_first looked first room hx, ← hu, tdcStore_room (by rw [hx]; exact fits), hx]
    · rw [tdcCross_first looked first room hx, ← hu, tdcStore_full (by rw [hx]; exact full)]
  · exact congrArg Host.Outcome.next ((accessWrite_tdcPop c.isLt v takes).trans (tdcPopWrite_oldest pop fifo))

end Sys2Proof.Machine
end

-- ==== Palette events ====
section
/-! PROOFS. The events of a stroke (spec 03 R88-R91). -/

-- One theorem at a time: elaborating them in parallel takes the memory of many threads.
set_option Elab.async false

namespace Sys2Proof.Machine

theorem region_setChan (c d : Nat) (volts : Int) (x : Chan) (u : State) : region (setChan c x u) d volts = region u d volts := (rfl)

theorem region_reach (n c : Nat) (volts : Int) (s : State) : region (reach n s) c volts = region s c volts := (rfl)

theorem chFunc_setChan (c d : Nat) (x : Chan) (u : State) : chFunc (setChan c x u) d = chFunc u d := inForce_setChan ..

/-! ### Minimum distance -/

theorem tooClose_eq_false {last : Option Nat} {t ui : Nat} (h : ∀ l, last = some l → l + ui ≤ t) : tooClose last t ui = false := by
  cases last with
  | none => rfl
  | some l => exact decide_eq_false (by have := h l rfl; omega)

theorem tooClose_eq_true {last : Option Nat} {t ui : Nat} (h : ∃ l, last = some l ∧ t < l + ui) : tooClose last t ui = true := by
  obtain ⟨l, rfl, lt⟩ := h
  exact decide_eq_true lt

/-! ### The next event -/

/-- The next event of a stroke is applied to the channel that has reached it. -/
theorem nextEvent_eq {c : Nat} {volts : Int} {strayed : Bool} {st : Stroke} {e : PalEvent} {es : List PalEvent} {s : State} {x : Chan}
    (stroke : (chan s c).stroke = some st) (events : st.events = e :: es)
    (hx : x = { chan s c with stroke := some { st with events := es }, window := (chan s c).window.map (fun w =>
      { w with strayed := w.strayed || strayed || (decide (w.arg < 4) && decide (region s c volts ≠ w.arg)) }) }) :
    nextEvent c volts strayed s = applyEvent c e { st with events := es } volts (setChan c x (reach (st.begins + 8 * e.t) s)) := by
  unfold nextEvent
  simp only [stroke, events]
  refine congrArg (applyEvent c e _ volts) ?_
  have seen (w : Chan) (u : State) (hu : u = setChan c w (reach (st.begins + 8 * e.t) s)) : region u c volts = region s c volts := by
    rw [hu, region_setChan, region_reach]
  unfold watchWindow
  rw [show modChan c (fun y => { y with stroke := some { st with events := es } }) (reach (st.begins + 8 * e.t) s) =
    setChan c { chan s c with stroke := some { st with events := es } } (reach (st.begins + 8 * e.t) s) from modChan_of (by rw [chan_reach])]
  simp only [windowStrays, seen _ _ rfl]
  rw [modChan, chan_setChan_same, setChan_setChan_same, hx]

section
variable {c : Nat} {e : PalEvent} {st : Stroke} {volts : Int} {x : Chan} {u : State}

theorem applyEvent_drive (kind : e.kind = 1) (arg : e.arg ≤ 3) (used : levelInUse (chFunc u c) e.arg = true)
    (apart_ : ∀ l, x.lastDrive = some l → l + minUi (chFunc u c) ≤ st.begins + 8 * e.t) :
    applyEvent c e st volts (setChan c x u) = setChan c { x with drive := some (Fin.ofNat 4 e.arg), lastDrive := some (st.begins + 8 * e.t) } u := by
  have ok : typeOk e = true := by simp [typeOk, kind, arg]
  unfold applyEvent
  simp only [ok, kind, chan_setChan_same, chFunc_setChan, tooClose_eq_false apart_, used]
  rw [modChan_of rfl, chan_setChan_same, setChan_setChan_same]
  rfl

theorem applyEvent_off (kind : e.kind = 2) (apart_ : ∀ l, x.lastDrive = some l → l + minUi (chFunc u c) ≤ st.begins + 8 * e.t) :
    applyEvent c e st volts (setChan c x u) = setChan c { x with drive := none, lastDrive := some (st.begins + 8 * e.t) } u := by
  have ok : typeOk e = true := by simp [typeOk, kind]
  unfold applyEvent
  simp only [ok, kind, chan_setChan_same, chFunc_setChan, tooClose_eq_false apart_]
  rw [modChan_of rfl, chan_setChan_same, setChan_setChan_same]
  rfl

/-- The result slot that a compare event fills (03 R99). -/
def slotFilled (st : Stroke) (reg : Nat) (fails : Bool) : Stroke :=
  { st with filled := st.filled + 1, result := st.result ||| BitVec.ofNat 24 ((8 + 4 * (fails && !st.fmask).toNat + reg % 4) * 16 ^ st.filled) }

theorem fillSlot_modChan {f : Chan → Chan} {reg : Nat} {fails : Bool} (h : (f x).stroke = some st) :
    fillSlot c reg fails (modChan c f (setChan c x u)) = setChan c { f x with stroke := some (slotFilled st reg fails) } u := by
  rw [fillSlot, modChan, modChan, chan_setChan_same, chan_setChan_same, setChan_setChan_same, setChan_setChan_same, h]
  rfl

theorem applyEvent_strobe (kind : e.kind = 3) (arg : e.arg ≤ 4) (apart_ : ∀ l, x.lastCompare = some l → l + minUi (chFunc u c) ≤ st.begins + 8 * e.t)
    (free : st.filled < st.slots) (clear : nearEdge (chFunc u c) x st (st.begins + 8 * e.t) = false) (stroke : x.stroke = some st) :
    applyEvent c e st volts (setChan c x u) = setChan c { x with
      lastCompare := some (st.begins + 8 * e.t), strobe := some ⟨st.begins + 8 * e.t, st.filled, if e.arg < 4 && !st.fmask then some e.arg else none⟩
      stroke := some (slotFilled st (region u c volts) (decide (e.arg < 4 ∧ region u c volts ≠ e.arg))) } u := by
  have ok : typeOk e = true := by simp [typeOk, kind, arg]
  have seen : strobeRegion c st (st.begins + 8 * e.t) volts (setChan c x u) = (region u c volts, setChan c x u) := by
    rw [strobeRegion, chFunc_setChan, chan_setChan_same, clear, region_setChan]
    rfl
  unfold applyEvent
  simp only [ok, kind, chan_setChan_same, chFunc_setChan, tooClose_eq_false apart_, seen, decide_eq_false (Nat.not_le.mpr free)]
  exact fillSlot_modChan (f := fun x => { x with
    lastCompare := some (st.begins + 8 * e.t), strobe := some ⟨st.begins + 8 * e.t, st.filled, if e.arg < 4 && !st.fmask then some e.arg else none⟩ }) stroke

theorem applyEvent_window (kind : e.kind = 4) (arg : e.arg ≤ 4) (closed : x.window = none)
    (apart_ : ∀ l, x.lastCompare = some l → l + minUi (chFunc u c) ≤ st.begins + 8 * e.t) :
    applyEvent c e st volts (setChan c x u) = setChan c { x with
      lastCompare := some (st.begins + 8 * e.t), window := some ⟨e.arg, decide (e.arg < 4) && decide (region u c volts ≠ e.arg)⟩
      tdcArmed := if x.func = .tdc then some 0 else x.tdcArmed } u := by
  have ok : typeOk e = true := by simp [typeOk, kind, arg]
  unfold applyEvent
  simp only [ok, kind, chan_setChan_same, chFunc_setChan, tooClose_eq_false apart_, closed, windowStrays, region_setChan]
  rw [modChan_of rfl, chan_setChan_same, setChan_setChan_same]
  rfl

theorem applyEvent_windowEnd {w : Window} (kind : e.kind = 5) (opened : x.window = some w)
    (apart_ : ∀ l, x.lastCompare = some l → l + minUi (chFunc u c) ≤ st.begins + 8 * e.t) (free : st.filled < st.slots) (stroke : x.stroke = some st) :
    applyEvent c e st volts (setChan c x u) = setChan c { x with
      lastCompare := some (st.begins + 8 * e.t), window := none, tdcArmed := none
      stroke := some (slotFilled st (region u c volts) (decide (w.arg < 4) && w.strayed)) } u := by
  have ok : typeOk e = true := by simp [typeOk, kind]
  unfold applyEvent
  simp only [ok, kind, chan_setChan_same, chFunc_setChan, tooClose_eq_false apart_, opened, region_setChan, decide_eq_false (Nat.not_le.mpr free)]
  exact fillSlot_modChan (f := fun x => { x with lastCompare := some (st.begins + 8 * e.t), window := none, tdcArmed := none }) stroke

/-- An event that may not apply sets TERR alone (03 R90). -/
theorem applyEvent_refused (h : typeOk e = false ∨ ((e.kind = 1 ∨ e.kind = 2) ∧ ∃ l, x.lastDrive = some l ∧ st.begins + 8 * e.t < l + minUi (chFunc u c)) ∨
      ((e.kind = 3 ∨ e.kind = 4 ∨ e.kind = 5) ∧ ∃ l, x.lastCompare = some l ∧ st.begins + 8 * e.t < l + minUi (chFunc u c)) ∨
      (e.kind = 1 ∧ levelInUse (chFunc u c) e.arg = false) ∨ ((e.kind = 3 ∨ e.kind = 5) ∧ st.slots ≤ st.filled) ∨
      (e.kind = 4 ∧ x.window ≠ none) ∨ (e.kind = 5 ∧ x.window = none)) :
    applyEvent c e st volts (setChan c x u) = timingError c (setChan c x u) := by
  unfold applyEvent
  simp only [chan_setChan_same, chFunc_setChan]
  cases ok : typeOk e with
  | false => exact if_pos rfl
  | true =>
    obtain h | ⟨kind | kind, near⟩ | ⟨kind | kind | kind, near⟩ | ⟨kind, unused⟩ | ⟨kind | kind, full⟩ | ⟨kind, opened⟩ | ⟨kind, closed⟩ := h
    · exact absurd (ok.symm.trans h) Bool.noConfusion
    all_goals simp only [kind]
    · simp [tooClose_eq_true near]
    · simp [tooClose_eq_true near]
    · simp [tooClose_eq_true near]
    · simp [tooClose_eq_true near]
    · cases x.window <;> simp [tooClose_eq_true near]
    · simp [unused]
    · simp [full]
    · cases x.window <;> simp [full]
    · simp [Option.isSome_iff_ne_none.mpr opened]
    · simp [closed]

end

/-- Settles O12. -/
theorem paletteEventsApplyInOrder : Obligations.PaletteEventsApplyInOrder := by
  intro c volts strayed st e es s up stroke events x u t ui ht hu hui hx
  subst ht hu hui
  have runs : exec (.paletteEvent c volts strayed) s =
      .next (applyEvent c.val e { st with events := es } volts (setChan c.val x (reach (st.begins + 8 * e.t) s))) :=
    congrArg Host.Outcome.next ((whileUp_of_up _ up).trans (nextEvent_eq stroke events hx))
  have strokeX : x.stroke = some { st with events := es } := hx ▸ rfl
  rw [runs]
  refine ⟨fun kind arg used apart_ => ?_, fun kind apart_ => ?_, fun f y hy apart_ free => ⟨fun kind arg clear hf => ?_, fun w kind opened hf => ?_⟩,
    fun kind arg closed apart_ => ?_, fun h => ?_⟩
  · exact congrArg Host.Outcome.next (applyEvent_drive (st := { st with events := es }) kind arg used apart_)
  · exact congrArg Host.Outcome.next (applyEvent_off (st := { st with events := es }) kind apart_)
  · rw [applyEvent_strobe (st := { st with events := es }) (u := reach (st.begins + 8 * e.t) s) kind arg apart_ free clear strokeX, hy, hf]
    rfl
  · rw [applyEvent_windowEnd (st := { st with events := es }) (u := reach (st.begins + 8 * e.t) s) kind opened apart_ free strokeX, hy, hf]
    rfl
  · exact congrArg Host.Outcome.next (applyEvent_window (st := { st with events := es }) kind arg closed apart_)
  · exact congrArg Host.Outcome.next (applyEvent_refused (st := { st with events := es }) h)

end Sys2Proof.Machine
end

-- ==== what a boundary leaves alone ====
section
/-! PROOFS. What the steps of a stroke boundary leave alone (spec 02 R59, R62; 03 R84-R92). -/

-- One theorem at a time: elaborating them in parallel takes the memory of many threads.
set_option Elab.async false

namespace Sys2Proof.Machine

/-! ### The bankable registers -/

/-- The bankable registers of every page, in the Canvas. -/
def bankRegs (s : State) (p o : Nat) : Word := if bankable o then rdReg s p o else 0

theorem bankable_of_le {o : Nat} (h : 0x700 ≤ o) : bankable o = false := by simp [bankable, h]
theorem bankable_of_lt {o : Nat} (h : o < 0x100) : bankable o = false := by simp [bankable, h]

theorem rdReg_of_bankRegs {s t : State} (h : bankRegs t = bankRegs s) (p : Nat) {o : Nat} (ho : bankable o = true) : rdReg t p o = rdReg s p o := by
  have at_ := congrFun (congrFun h p) o
  simpa [bankRegs, ho] using at_

theorem bankRegs_wrReg {o : Nat} (h : bankable o = false) (ho : o < 2 ^ 12) (p : Nat) (v : Word) (s : State) : bankRegs (wrReg p o v s) = bankRegs s := by
  funext q r
  unfold bankRegs
  split
  case isTrue hr =>
    have lt : r < 2 ^ 12 := by
      simp only [bankable, Bool.and_eq_true, decide_eq_true_eq] at hr
      omega
    have ne : r ≠ o := fun e => by simp [e, h] at hr
    show smGet _ (smPut _ _ _ _) _ = _
    rw [smGet_smPut_ne _ _ _ _ fun key => ?_]
    · rfl
    · simp only [roleKey, h, hr, if_true, Bool.false_eq_true, if_false, regKey] at key
      omega
  case isFalse => rfl

theorem bankRegs_modReg {o : Nat} (h : bankable o = false) (ho : o < 2 ^ 12) (p : Nat) (f : Word → Word) (s : State) :
    bankRegs (modReg p o f s) = bankRegs s := bankRegs_wrReg h ho ..

theorem bankRegs_of_rdReg {s t : State} (h : ∀ p o, rdReg t p o = rdReg s p o) : bankRegs t = bankRegs s := by
  funext p o
  simp only [bankRegs, h]

@[simp] theorem bankRegs_tick (s : State) : bankRegs (tick s) = bankRegs s := (rfl)
@[simp] theorem bankRegs_reach (n : Nat) (s : State) : bankRegs (reach n s) = bankRegs s := (rfl)
@[simp] theorem bankRegs_setChan (c : Nat) (x : Chan) (s : State) : bankRegs (setChan c x s) = bankRegs s := (rfl)
@[simp] theorem bankRegs_modChan (c : Nat) (f : Chan → Chan) (s : State) : bankRegs (modChan c f s) = bankRegs s := (rfl)
@[simp] theorem bankRegs_modBase (k : Nat) (f : Timebase → Timebase) (s : State) : bankRegs (modBase k f s) = bankRegs s := (rfl)
@[simp] theorem bankRegs_modLane (l : Nat) (f : Lane → Lane) (s : State) : bankRegs (modLane l f s) = bankRegs s := (rfl)
@[simp] theorem bankRegs_report (r : Report) (s : State) : bankRegs (report r s) = bankRegs s := (rfl)
@[simp] theorem bankRegs_noteIrq (p : Nat) (s : State) : bankRegs (noteIrq p s) = bankRegs s := bankRegs_of_rdReg fun _ _ => rdReg_noteIrq ..
@[simp] theorem bankRegs_raiseBit (p i : Nat) (s : State) : bankRegs (raiseBit p i s) = bankRegs s :=
  (bankRegs_noteIrq ..).trans (bankRegs_modReg (by decide) (by decide) ..)
@[simp] theorem bankRegs_captureOnly (p c o d : Nat) (s : State) : bankRegs (captureOnly p c o d s) = bankRegs s :=
  (bankRegs_noteIrq ..).trans (bankRegs_modReg (by decide) (by decide) ..)
@[simp] theorem bankRegs_captureAs (p ca o d cl sh g k : Nat) (s : State) : bankRegs (captureAs p ca o d cl sh g k s) = bankRegs s := bankRegs_captureOnly ..
@[simp] theorem bankRegs_capture (p ca o d : Nat) (s : State) : bankRegs (capture p ca o d s) = bankRegs s := bankRegs_captureAs ..
@[simp] theorem bankRegs_strmFlag (c b irq : Nat) (s : State) : bankRegs (strmFlag c b irq s) = bankRegs s := by
  unfold strmFlag
  rw [bankRegs_raiseBit, bankRegs_modReg (bankable_of_le (by omega)) (by omega)]
theorem bankRegs_wmSample {n : Nat} (hn : n < 4) (p v : Nat) (s : State) : bankRegs (wmSample p n v s) = bankRegs s := by
  have sampled (w : Word) (f : Word → Word) : bankRegs (modReg p (0x040 + 0x10 * n + 8) f (wrReg p (0x040 + 0x10 * n + 4) w s)) = bankRegs s := by
    rw [bankRegs_modReg (bankable_of_lt (by omega)) (by omega), bankRegs_wrReg (bankable_of_lt (by omega)) (by omega)]
  unfold wmSample
  dsimp only
  split
  · rw [bankRegs_noteIrq]
    split
    · rw [bankRegs_wrReg (bankable_of_lt (by omega)) (by omega)]
      exact sampled ..
    · rw [bankRegs_wrReg (bankable_of_lt (by omega)) (by omega), bankRegs_wrReg (bankable_of_lt (by omega)) (by omega)]
      exact sampled ..
  · exact sampled ..

@[simp] theorem bankRegs_timingError (c : Nat) (s : State) : bankRegs (timingError c s) = bankRegs s := by simp [timingError]
@[simp] theorem bankRegs_stopStream (c : Nat) (s : State) : bankRegs (stopStream c s) = bankRegs s := (rfl)
@[simp] theorem bankRegs_abortPmu (c : Nat) (s : State) : bankRegs (abortPmu c s) = bankRegs s := by
  unfold abortPmu
  split
  · rfl
  · rw [bankRegs_modReg (by decide) (by decide), bankRegs_modChan]
@[simp] theorem bankRegs_fillSlot (c reg : Nat) (fails : Bool) (s : State) : bankRegs (fillSlot c reg fails s) = bankRegs s := (rfl)
@[simp] theorem bankRegs_strobeRegion (c : Nat) (st : Stroke) (t : Nat) (volts : Int) (s : State) : bankRegs (strobeRegion c st t volts s).2 = bankRegs s := by
  unfold strobeRegion
  split <;> simp
@[simp] theorem bankRegs_pmuEvent (c : Nat) (s : State) : bankRegs (pmuEvent c s) = bankRegs s := by
  unfold pmuEvent pmuTriggered
  repeat' split
  all_goals simp [bankRegs_modReg (show bankable 0x708 = false by decide) (by decide)]
@[simp] theorem bankRegs_applyEvent (c : Nat) (e : PalEvent) (st : Stroke) (volts : Int) (s : State) : bankRegs (applyEvent c e st volts s) = bankRegs s := by
  unfold applyEvent
  dsimp only
  repeat' split
  all_goals simp
@[simp] theorem bankRegs_nextEvent (c : Nat) (volts : Int) (strayed : Bool) (s : State) : bankRegs (nextEvent c volts strayed s) = bankRegs s := by
  unfold nextEvent watchWindow
  dsimp only
  repeat' split
  all_goals simp
@[simp] theorem bankRegs_eventsBefore (c n : Nat) (s : State) : bankRegs (eventsBefore c n s) = bankRegs s := by
  induction n generalizing s with
  | zero => rfl
  | succ n ih =>
    unfold eventsBefore
    repeat' split
    all_goals simp [ih]
@[simp] theorem bankRegs_remainingEvents (c n : Nat) (s : State) : bankRegs (remainingEvents c n s) = bankRegs s := by
  induction n generalizing s with
  | zero => rfl
  | succ n ih =>
    unfold remainingEvents
    repeat' split
    all_goals simp [ih]
@[simp] theorem bankRegs_endStroke (c : Nat) (s : State) : bankRegs (endStroke c s) = bankRegs s := by
  have late (u : State) : bankRegs (lateEvents c u) = bankRegs u := by
    rw [lateEvents, apply_ite bankRegs, bankRegs_timingError, ite_self]
  simp [endStroke, late]
@[simp] theorem bankRegs_senseEdge (c : Nat) (s : State) : bankRegs (senseEdge c s) = bankRegs s := (rfl)
@[simp] theorem bankRegs_trip (c cause key : Nat) (s : State) : bankRegs (trip c cause key s) = bankRegs s := by
  unfold trip
  dsimp only
  split
  · simp
  · simp [countReg, bankRegs_modReg (show bankable 0x718 = false by decide) (by decide)]

/-! ### Settings that come into force -/

@[simp] theorem bankRegs_startForce (c : Nat) (s : State) : bankRegs (startForce c s) = bankRegs s := (rfl)
@[simp] theorem bankRegs_enterHold (c : Nat) (p : Phase) (s : State) : bankRegs (enterHold c p s) = bankRegs s := (rfl)
@[simp] theorem bankRegs_rampOver (c : Nat) (atBoundary : Bool) (s : State) : bankRegs (rampOver c atBoundary s) = bankRegs s := by
  unfold rampOver
  repeat' split
  all_goals simp
@[simp] theorem bankRegs_startSwitch (c : Nat) (old : Word) (was : Forced) (atBoundary : Bool) (s : State) :
    bankRegs (startSwitch c old was atBoundary s) = bankRegs s := by
  unfold startSwitch
  dsimp only
  repeat' split
  all_goals simp
@[simp] theorem bankRegs_markMismatch (c : Nat) (s : State) : bankRegs (markMismatch c s) = bankRegs s := by
  unfold markMismatch countReg
  rw [bankRegs_report, bankRegs_modReg (by decide) (by decide), bankRegs_modReg (bankable_of_le (by omega)) (by omega)]
@[simp] theorem bankRegs_checkMark (y : TileMark) (stops : Bool) (s : State) : bankRegs (checkMark y stops s) = bankRegs s := by
  have tables (u : State) (m : SMap MarkTable) : bankRegs { u with tables := m } = bankRegs u := rfl
  have place : posInCluster y.ch < 512 := Nat.mod_lt _ (by decide)
  unfold checkMark
  dsimp only
  have flag (f : Word → Word) (u : State) : bankRegs (modReg (clPage (clusterOf y.ch)) (0x750 + 4 * (posInCluster y.ch / 32)) f u) = bankRegs u :=
    bankRegs_modReg (bankable_of_le (by omega)) (by omega) ..
  repeat' split
  all_goals simp [tables, flag]
theorem bankRegs_forEach {α : Type} {l : List α} {f : α → State → State} {s : State} (h : ∀ a s, bankRegs (f a s) = bankRegs s) :
    bankRegs (forEach l s f) = bankRegs s := forEach_inv (P := fun t => bankRegs t = bankRegs s) rfl fun a t ht => (h a t).trans ht
theorem bankRegs_forUpTo {n : Nat} {f : Nat → State → State} {s : State} (h : ∀ i s, bankRegs (f i s) = bankRegs s) :
    bankRegs (forUpTo n s f) = bankRegs s := forUpTo_inv (P := fun t => bankRegs t = bankRegs s) rfl fun i t ht => (h i t).trans ht
@[simp] theorem bankRegs_settleMarks (c : Nat) (s : State) : bankRegs (settleMarks c s) = bankRegs s := by
  unfold settleMarks
  rw [bankRegs_modChan, bankRegs_forEach fun _ _ => bankRegs_checkMark .., bankRegs_modBase]
@[simp] theorem bankRegs_setupStream (c : Nat) (s : State) : bankRegs (setupStream c s) = bankRegs s := by
  have tables (u : State) (m : SMap MarkTable) : bankRegs { u with tables := m } = bankRegs u := rfl
  unfold setupStream
  dsimp only
  split
  · simp
  · rw [tables]
    simp
@[simp] theorem bankRegs_pmuChange (c : Nat) (was : Forced) (s : State) : bankRegs (pmuChange c was s) = bankRegs s := by
  unfold pmuChange
  dsimp only
  repeat' split
  all_goals simp
@[simp] theorem bankRegs_settingsChange (c : Nat) (oldFunc oldStrm : Word) (was : Forced) (atBoundary : Bool) (s : State) :
    bankRegs (settingsChange c oldFunc oldStrm was atBoundary s) = bankRegs s := by
  unfold settingsChange
  dsimp only
  repeat' split
  all_goals simp
@[simp] theorem bankRegs_holdForce (c : Nat) (s : State) : bankRegs (holdForce c s) = bankRegs s := by
  unfold holdForce
  split <;> simp
@[simp] theorem bankRegs_dropHeld (c : Nat) (s : State) : bankRegs (dropHeld c s) = bankRegs s := (rfl)
@[simp] theorem bankRegs_takeEffect (c : Nat) (atBoundary : Bool) (s : State) : bankRegs (takeEffect c atBoundary s) = bankRegs s := by
  simp [takeEffect, changeSettings]
@[simp] theorem bankRegs_streamAtBoundary (c : Nat) (s : State) : bankRegs (streamAtBoundary c s) = bankRegs s := by
  unfold streamAtBoundary
  dsimp only
  split <;> simp
@[simp] theorem bankRegs_enterFunction (c : Nat) (s : State) : bankRegs (enterFunction c s) = bankRegs s := by
  unfold enterFunction
  dsimp only
  repeat' split
  all_goals simp
@[simp] theorem bankRegs_switchAtBoundary (c : Nat) (s : State) : bankRegs (switchAtBoundary c s) = bankRegs s := by
  unfold switchAtBoundary
  repeat' split
  all_goals simp
@[simp] theorem bankRegs_channelEdge (c : Nat) (s : State) : bankRegs (channelEdge c s) = bankRegs s := by
  unfold channelEdge channelEdge.switchThen
  dsimp only
  split <;> simp

/-! ### A new stroke -/

@[simp] theorem bankRegs_tileMark (c : Nat) (y : Symbol) (s : State) : bankRegs (tileMark c y s) = bankRegs s := by
  have shown (p : Nat) (a b c d : Word) (u : State) : bankRegs (wrReg p 0x71C a (wrReg p 0x718 b (wrReg p 0x714 c (wrReg p 0x710 d u)))) = bankRegs u := by
    rw [bankRegs_wrReg (by decide) (by decide), bankRegs_wrReg (by decide) (by decide), bankRegs_wrReg (by decide) (by decide), bankRegs_wrReg (by decide) (by decide)]
  unfold tileMark compareMarks tileMismatch
  dsimp only
  repeat' split
  all_goals simp [shown]
@[simp] theorem bankRegs_starve (c : Nat) (s : State) : bankRegs (starve c s) = bankRegs s := by simp [starve]
@[simp] theorem bankRegs_blurStrobe (c : Nat) (f : Word) (st : Stroke) (s : State) : bankRegs (blurStrobe c f st s) = bankRegs s := by
  unfold blurStrobe
  repeat' split
  all_goals simp
@[simp] theorem bankRegs_palStroke (c : Nat) (y : Symbol) (s : State) : bankRegs (palStroke c y s) = bankRegs s := by
  unfold palStroke
  dsimp only
  split <;> simp
@[simp] theorem bankRegs_takeSymbol (c : Nat) (s : State) : bankRegs (takeSymbol c s) = bankRegs s := by
  unfold takeSymbol pmuStroke
  dsimp only
  repeat' split
  all_goals simp [bankRegs_wmSample (show 1 < 4 by decide)]
@[simp] theorem bankRegs_channelStroke (c : Nat) (s : State) : bankRegs (channelStroke c s) = bankRegs s := by
  unfold channelStroke
  split <;> simp

end Sys2Proof.Machine
end

-- ==== the channel at a boundary ====
section
/-! PROOFS. The channel at a stroke boundary: what the end of its stroke and the change of its settings leave, and which channels they reach
(spec 02 R59; 03 R84-R92). -/

-- One theorem at a time: elaborating them in parallel takes the memory of many threads.
set_option Elab.async false

namespace Sys2Proof.Machine

/-! ### The end of a stroke -/

/-- A channel apart from what the events of a stroke change. -/
def offStroke (x : Chan) : Chan :=
  { x with stroke := none, results := [], drive := none, lastDrive := none, lastCompare := none, strobe := none, window := none, tdcArmed := none,
           pmu := .idle, pmuAt := 0, sense := false }

theorem offStroke_modChan {c : Nat} {f : Chan → Chan} {s u : State} (hu : offStroke (chan u c) = offStroke (chan s c))
    (h : ∀ x, offStroke (f x) = offStroke x := by intro x; rfl) : offStroke (chan (modChan c f u) c) = offStroke (chan s c) := by
  rw [chan_modChan_same, h, hu]

@[simp] theorem chan_strmFlag (c d b irq : Nat) (s : State) : chan (strmFlag d b irq s) c = chan s c := by simp [strmFlag]

theorem offStroke_timingError (c : Nat) (s : State) : offStroke (chan (timingError c s) c) = offStroke (chan s c) := by
  rw [timingError, chan_strmFlag]
  exact offStroke_modChan rfl
theorem offStroke_fillSlot {c : Nat} {s u : State} (reg : Nat) (fails : Bool) (hu : offStroke (chan u c) = offStroke (chan s c)) :
    offStroke (chan (fillSlot c reg fails u) c) = offStroke (chan s c) := offStroke_modChan hu
theorem offStroke_strobeRegion (c : Nat) (st : Stroke) (t : Nat) (volts : Int) (s : State) :
    offStroke (chan (strobeRegion c st t volts s).2 c) = offStroke (chan s c) := by
  unfold strobeRegion
  split <;> rfl
theorem offStroke_pmuEvent (c : Nat) (s : State) : offStroke (chan (pmuEvent c s) c) = offStroke (chan s c) := by
  unfold pmuEvent pmuTriggered
  repeat' split
  · rfl
  · rw [chan_captureAs]
  · rfl
  · rw [chan_modReg]
    exact offStroke_modChan rfl
theorem offStroke_applyEvent (c : Nat) (e : PalEvent) (st : Stroke) (volts : Int) (s : State) :
    offStroke (chan (applyEvent c e st volts s) c) = offStroke (chan s c) := by
  unfold applyEvent
  dsimp only
  split
  · exact offStroke_timingError ..
  split
  · split
    · exact offStroke_timingError ..
    · exact offStroke_modChan rfl
  · split
    · exact offStroke_timingError ..
    · exact offStroke_modChan rfl
  · split
    · exact offStroke_timingError ..
    · exact offStroke_fillSlot _ _ (offStroke_modChan (offStroke_strobeRegion ..))
  · split
    · exact offStroke_timingError ..
    · exact offStroke_modChan rfl
  · split
    · exact offStroke_timingError ..
    split
    · exact offStroke_timingError ..
    · exact offStroke_fillSlot _ _ (offStroke_modChan rfl)
  · exact offStroke_pmuEvent ..
@[simp] theorem offStroke_nextEvent (c : Nat) (volts : Int) (strayed : Bool) (s : State) :
    offStroke (chan (nextEvent c volts strayed s) c) = offStroke (chan s c) := by
  unfold nextEvent watchWindow
  split
  · rfl
  split
  · rfl
  · exact (offStroke_applyEvent ..).trans (offStroke_modChan (offStroke_modChan rfl))
@[simp] theorem offStroke_eventsBefore (c n : Nat) (s : State) : offStroke (chan (eventsBefore c n s) c) = offStroke (chan s c) := by
  induction n generalizing s with
  | zero => rfl
  | succ n ih =>
    unfold eventsBefore
    repeat' split
    all_goals simp [ih]
@[simp] theorem offStroke_remainingEvents (c n : Nat) (s : State) : offStroke (chan (remainingEvents c n s) c) = offStroke (chan s c) := by
  induction n generalizing s with
  | zero => rfl
  | succ n ih =>
    unfold remainingEvents
    repeat' split
    all_goals simp [ih]
@[simp] theorem offStroke_lateEvents (c : Nat) (s : State) : offStroke (chan (lateEvents c s) c) = offStroke (chan s c) := by
  rw [lateEvents, apply_ite (fun u => offStroke (chan u c)), offStroke_timingError, ite_self]

/-- The channel whose stroke has ended. -/
def strokeEnded (c : Nat) (s : State) : State := senseEdge c (endStroke c s)

theorem offStroke_strokeEnded (c : Nat) (s : State) : offStroke (chan (strokeEnded c s) c) = offStroke (chan s c) := by
  unfold strokeEnded senseEdge endStroke
  dsimp only
  refine offStroke_modChan (offStroke_modChan ((offStroke_lateEvents ..).trans (offStroke_remainingEvents ..)) fun x => ?_)
  split <;> rfl

/-! ### Time and old values at the end of a stroke -/

@[simp] theorem apart_remainingEvents (c n : Nat) (s : State) : apart (remainingEvents c n s) = apart s := by
  induction n generalizing s with
  | zero => rfl
  | succ n ih =>
    unfold remainingEvents
    repeat' split
    all_goals simp [ih]
theorem apart_strokeEnded (c : Nat) (s : State) : apart (strokeEnded c s) = apart s := by
  have late (u : State) : apart (lateEvents c u) = apart u := by rw [lateEvents, apply_ite apart, apart_timingError, ite_self]
  simp [strokeEnded, senseEdge, endStroke, late]

theorem bankRegs_strokeEnded (c : Nat) (s : State) : bankRegs (strokeEnded c s) = bankRegs s := by simp [strokeEnded]

/-- The value in force is the old one that is held back, or else the register's. -/
theorem inForce_of_views {s t : State} (regs : bankRegs t = bankRegs s) (held : t.held = s.held) (p : Nat) {o : Nat} (ho : bankable o = true) :
    inForce t p o = inForce s p o := by
  unfold inForce
  rw [held, rdReg_of_bankRegs regs p ho]

theorem inForce_strokeEnded (c : Nat) (s : State) (p : Nat) {o : Nat} (ho : bankable o = true) : inForce (strokeEnded c s) p o = inForce s p o :=
  inForce_of_views (bankRegs_strokeEnded c s) (congrArg State.held (apart_strokeEnded c s) :) p ho

/-! ### The stream's part of a channel -/

/-- The part of a channel that its stream owns. -/
def streamSide (x : Chan) : StreamState × Nat × Nat × Bool × List Symbol × Bool × Nat × Bool :=
  (x.stream, x.s0, x.last, x.stopDue, x.fifo, x.stopOnWay, x.credit, x.laneStream)

theorem streamSide_modChan {c : Nat} {f : Chan → Chan} {s u : State} (hu : streamSide (chan u c) = streamSide (chan s c))
    (h : ∀ x, streamSide (f x) = streamSide x := by intro x; rfl) : streamSide (chan (modChan c f u) c) = streamSide (chan s c) := by
  rw [chan_modChan_same, h, hu]

theorem streamSide_of_offStroke {x y : Chan} (h : offStroke y = offStroke x) : streamSide y = streamSide x := (congrArg streamSide h :)

theorem streamSide_abortPmu (c : Nat) (s : State) : streamSide (chan (abortPmu c s) c) = streamSide (chan s c) := by
  unfold abortPmu
  split
  · rfl
  · rw [chan_modReg]
    exact streamSide_modChan rfl
theorem streamSide_startForce {c : Nat} {s u : State} (hu : streamSide (chan u c) = streamSide (chan s c)) :
    streamSide (chan (startForce c u) c) = streamSide (chan s c) := streamSide_modChan (u := tick u) hu
theorem streamSide_enterHold {c : Nat} {s u : State} (p : Phase) (hu : streamSide (chan u c) = streamSide (chan s c)) :
    streamSide (chan (enterHold c p u) c) = streamSide (chan s c) := streamSide_modChan hu
theorem streamSide_rampOver {c : Nat} {s u : State} (atBoundary : Bool) (hu : streamSide (chan u c) = streamSide (chan s c)) :
    streamSide (chan (rampOver c atBoundary u) c) = streamSide (chan s c) := by
  unfold rampOver
  split
  · split
    · exact streamSide_enterHold _ hu
    · exact streamSide_modChan hu
  · exact streamSide_enterHold _ hu
theorem streamSide_startSwitch (c : Nat) (old : Word) (was : Forced) (atBoundary : Bool) (s : State) :
    streamSide (chan (startSwitch c old was atBoundary s) c) = streamSide (chan s c) := by
  have ramp {u : State} (hu : streamSide (chan u c) = streamSide (chan s c)) :
      streamSide (chan (if forceRampEnd u c ≤ u.now then rampOver c atBoundary u else u) c) = streamSide (chan s c) := by
    split
    · exact streamSide_rampOver _ hu
    · exact hu
  unfold startSwitch
  dsimp only
  split
  · exact streamSide_rampOver _ (streamSide_modChan (streamSide_abortPmu ..))
  · exact ramp (streamSide_modChan (streamSide_modChan (streamSide_abortPmu ..)))
  · exact ramp (streamSide_modChan (streamSide_startForce (streamSide_modChan (streamSide_abortPmu ..))))
/-- The PMU's part of a change of settings starts a force, or not, and ends a clamp, or not. -/
theorem pmuChange_cases (c : Nat) (was : Forced) (s : State) : ∃ u, (u = s ∨ u = startForce c s) ∧
    (pmuChange c was s = u ∨ pmuChange c was s = modChan c (fun x => { x with clamped := false, clampSince := none }) u) := by
  unfold pmuChange
  dsimp only
  generalize (pmuOn s c && (chan s c).phase == Phase.steady && fvMode (pmode s c) && (match was with | .volts _ _ => false | _ => true)) = begins
  refine ⟨if begins then startForce c s else s, ?_, ?_⟩
  · cases begins
    · exact .inl rfl
    · exact .inr rfl
  · exact ite_eq_or_eq ..
theorem streamSide_pmuChange (c : Nat) (was : Forced) (s : State) : streamSide (chan (pmuChange c was s) c) = streamSide (chan s c) := by
  obtain ⟨u, hu, eq⟩ := pmuChange_cases c was s
  have started : streamSide (chan u c) = streamSide (chan s c) := by
    obtain rfl | rfl := hu
    · rfl
    · exact streamSide_startForce rfl
  obtain eq | eq := eq
  · rw [eq, started]
  · rw [eq]
    exact streamSide_modChan started
theorem streamSide_enterFunction (c : Nat) (s : State) : streamSide (chan (enterFunction c s) c) = streamSide (chan s c) := by
  unfold enterFunction
  dsimp only
  repeat' split
  all_goals simp [streamSide, startForce]
theorem streamSide_switchAtBoundary (c : Nat) (s : State) : streamSide (chan (switchAtBoundary c s) c) = streamSide (chan s c) := by
  unfold switchAtBoundary
  repeat' split
  · exact streamSide_enterHold _ rfl
  · rfl
  · exact streamSide_enterHold _ rfl
  · exact streamSide_enterFunction ..
  · exact streamSide_modChan rfl
  · rfl

/-! ### A driver that is off, and a window that is closed -/

/-- The driver is off and no window is open. -/
def Shut (x : Chan) : Prop := x.drive = none ∧ x.window = none

theorem shut_modChan {c : Nat} {f : Chan → Chan} {s : State} (h : Shut (f (chan s c))) : Shut (chan (modChan c f s) c) := by
  rwa [chan_modChan_same]

theorem shut_kept {c : Nat} {f : Chan → Chan} {u : State} (hu : Shut (chan u c)) (h : ∀ x, Shut (f x) = Shut x := by intro x; rfl) :
    Shut (chan (modChan c f u) c) := by rwa [chan_modChan_same, h]

theorem shut_abortPmu {c : Nat} {s : State} (h : Shut (chan s c)) : Shut (chan (abortPmu c s) c) := by
  unfold abortPmu
  split
  · exact h
  · rw [chan_modReg]
    exact shut_kept h
theorem shut_startForce {c : Nat} {s : State} (h : Shut (chan s c)) : Shut (chan (startForce c s) c) := shut_kept (u := tick s) h
theorem shut_enterHold (c : Nat) (p : Phase) (s : State) : Shut (chan (enterHold c p s) c) := shut_modChan ⟨rfl, rfl⟩
theorem shut_rampOver {c : Nat} {s : State} (atBoundary : Bool) (h : Shut (chan s c)) : Shut (chan (rampOver c atBoundary s) c) := by
  unfold rampOver
  split
  · split
    · exact shut_enterHold ..
    · exact shut_kept h
  · exact shut_enterHold ..
theorem shut_startSwitch {c : Nat} {s : State} (old : Word) (was : Forced) (atBoundary : Bool) (h : Shut (chan s c)) :
    Shut (chan (startSwitch c old was atBoundary s) c) := by
  have ramp {u : State} (hu : Shut (chan u c)) : Shut (chan (if forceRampEnd u c ≤ u.now then rampOver c atBoundary u else u) c) := by
    split
    · exact shut_rampOver _ hu
    · exact hu
  unfold startSwitch
  dsimp only
  split
  · exact shut_rampOver _ (shut_kept (shut_abortPmu h))
  · exact ramp (shut_kept (shut_kept (shut_abortPmu h)))
  · exact ramp (shut_kept (shut_startForce (shut_kept (shut_abortPmu h))))
theorem shut_pmuChange {c : Nat} {s : State} (was : Forced) (h : Shut (chan s c)) : Shut (chan (pmuChange c was s) c) := by
  obtain ⟨u, hu, eq⟩ := pmuChange_cases c was s
  have started : Shut (chan u c) := by
    obtain rfl | rfl := hu
    · exact h
    · exact shut_startForce h
  obtain eq | eq := eq
  · rwa [eq]
  · rw [eq]
    exact shut_kept started
theorem shut_enterFunction (c : Nat) (s : State) : Shut (chan (enterFunction c s) c) := by
  unfold enterFunction
  dsimp only
  repeat' split
  all_goals simp [Shut, startForce]
theorem shut_switchAtBoundary {c : Nat} {s : State} (h : Shut (chan s c)) : Shut (chan (switchAtBoundary c s) c) := by
  unfold switchAtBoundary
  repeat' split
  · exact shut_enterHold ..
  · exact h
  · exact shut_enterHold ..
  · exact shut_enterFunction ..
  · exact shut_kept h
  · exact h
theorem shut_stopStream (c : Nat) (s : State) : Shut (chan (stopStream c s) c) := shut_modChan ⟨rfl, rfl⟩
/-- The stream that ends at its boundary: by a stop that is due, or at LAST (03 R84). -/
def endedStream (c : Nat) (s : State) : State :=
  if (chan s c).stream ≠ .idle ∧ ((chan s c).stopDue ∨ ((chan s c).last ≠ 0 ∧ (chan s c).last ≤ (base s (clusterOf c)).count)) then stopStream c s else s

/-- An armed stream that starts at S0 (03 R84). -/
def started (count : Nat) (x : Chan) : Chan := if x.stream = .armed ∧ x.s0 ≤ count then { x with stream := .running, drive := none } else x

theorem streamAtBoundary_eq (c : Nat) (s : State) : streamAtBoundary c s = modChan c (started (base s (clusterOf c)).count) (endedStream c s) := rfl

theorem shut_started {x : Chan} (count : Nat) (h : Shut x) : Shut (started count x) := by
  unfold started
  split
  · exact ⟨rfl, h.2⟩
  · exact h

theorem shut_streamAtBoundary {c : Nat} {s : State} (h : Shut (chan s c)) : Shut (chan (streamAtBoundary c s) c) := by
  rw [streamAtBoundary_eq]
  refine shut_modChan (shut_started _ ?_)
  unfold endedStream
  split
  · exact shut_stopStream ..
  · exact h

/-! ### The other channels -/

@[simp] theorem elsewhere_setChan (c : Nat) (x : Chan) (s : State) : elsewhere c (setChan c x s) = elsewhere c s := elsewhere_modChan c (fun _ => x) s
@[simp] theorem elsewhere_modBase (c k : Nat) (f : Timebase → Timebase) (s : State) : elsewhere c (modBase k f s) = elsewhere c s := (rfl)
@[simp] theorem elsewhere_modLane (c l : Nat) (f : Lane → Lane) (s : State) : elsewhere c (modLane l f s) = elsewhere c s := (rfl)
@[simp] theorem elsewhere_report (c : Nat) (r : Report) (s : State) : elsewhere c (report r s) = elsewhere c s := (rfl)
@[simp] theorem elsewhere_dropHeld (c d : Nat) (s : State) : elsewhere c (dropHeld d s) = elsewhere c s := (rfl)
@[simp] theorem elsewhere_wmSample (c p n v : Nat) (s : State) : elsewhere c (wmSample p n v s) = elsewhere c s :=
  elsewhere_of_pinSide c (pinSide_pageOnly (pageOnly_wmSample ..))
@[simp] theorem elsewhere_wrReg (c p o : Nat) (v : Word) (s : State) : elsewhere c (wrReg p o v s) = elsewhere c s := (rfl)
@[simp] theorem elsewhere_remainingEvents (c n : Nat) (s : State) : elsewhere c (remainingEvents c n s) = elsewhere c s := by
  induction n generalizing s with
  | zero => rfl
  | succ n ih =>
    unfold remainingEvents
    repeat' split
    all_goals simp [ih]
@[simp] theorem elsewhere_strokeEnded (c : Nat) (s : State) : elsewhere c (strokeEnded c s) = elsewhere c s := by
  have late (u : State) : elsewhere c (lateEvents c u) = elsewhere c u := by
    rw [lateEvents, apply_ite (elsewhere c), elsewhere_timingError, ite_self]
  simp [strokeEnded, senseEdge, endStroke, late]
theorem elsewhere_markMismatch (c d : Nat) (s : State) : elsewhere c (markMismatch d s) = elsewhere c s := by simp [markMismatch]
theorem elsewhere_checkMark {c : Nat} {y : TileMark} (h : y.ch = c) (stops : Bool) (s : State) : elsewhere c (checkMark y stops s) = elsewhere c s := by
  have tables (u : State) (m : SMap MarkTable) : elsewhere c { u with tables := m } = elsewhere c u := rfl
  subst h
  unfold checkMark
  dsimp only
  repeat' split
  all_goals simp [tables, elsewhere_markMismatch]
@[simp] theorem elsewhere_settleMarks (c : Nat) (s : State) : elsewhere c (settleMarks c s) = elsewhere c s := by
  have checks (l : List TileMark) (hl : ∀ y ∈ l, y.ch = c) (u : State) : elsewhere c (forEach l u (fun y s => checkMark y false s)) = elsewhere c u := by
    induction l generalizing u with
    | nil => rfl
    | cons y l ih => exact (ih (fun z hz => hl z (List.mem_cons_of_mem _ hz)) _).trans (elsewhere_checkMark (hl y (List.mem_cons_self ..)) false u)
  unfold settleMarks
  rw [elsewhere_modChan, checks _ (fun y hy => by simpa using (List.mem_filter.mp hy).2), elsewhere_modBase]
@[simp] theorem elsewhere_setupStream (c : Nat) (s : State) : elsewhere c (setupStream c s) = elsewhere c s := by
  have tables (u : State) (m : SMap MarkTable) : elsewhere c { u with tables := m } = elsewhere c u := rfl
  unfold setupStream
  dsimp only
  split
  · simp
  · rw [tables]
    simp
@[simp] theorem elsewhere_pmuChange (c : Nat) (was : Forced) (s : State) : elsewhere c (pmuChange c was s) = elsewhere c s := by
  unfold pmuChange
  dsimp only
  repeat' split
  all_goals simp
@[simp] theorem elsewhere_settingsChange (c : Nat) (oldFunc oldStrm : Word) (was : Forced) (atBoundary : Bool) (s : State) :
    elsewhere c (settingsChange c oldFunc oldStrm was atBoundary s) = elsewhere c s := by
  unfold settingsChange
  dsimp only
  repeat' split
  all_goals simp
@[simp] theorem elsewhere_takeEffect (c : Nat) (atBoundary : Bool) (s : State) : elsewhere c (takeEffect c atBoundary s) = elsewhere c s := by
  have hold (u : State) : elsewhere c (holdForce c u) = elsewhere c u := by
    unfold holdForce
    split <;> simp
  simp [takeEffect, changeSettings, hold]
@[simp] theorem elsewhere_streamAtBoundary (c : Nat) (s : State) : elsewhere c (streamAtBoundary c s) = elsewhere c s := by
  unfold streamAtBoundary
  dsimp only
  split <;> simp
@[simp] theorem elsewhere_switchAtBoundary (c : Nat) (s : State) : elsewhere c (switchAtBoundary c s) = elsewhere c s := by
  unfold switchAtBoundary enterFunction
  dsimp only
  repeat' split
  all_goals simp
theorem channelEdge_eq (c : Nat) (s : State) : channelEdge c s = channelEdge.switchThen c (strokeEnded c s) := rfl
@[simp] theorem elsewhere_channelEdge (c : Nat) (s : State) : elsewhere c (channelEdge c s) = elsewhere c s := by
  rw [channelEdge_eq]
  unfold channelEdge.switchThen
  dsimp only
  split <;> simp

end Sys2Proof.Machine
end

-- ==== streams at a boundary ====
section
/-! PROOFS. Streams, switches of function and new strokes at a boundary (spec 02 R59; 03 R78-R98). -/

-- One theorem at a time: elaborating them in parallel takes the memory of many threads.
set_option Elab.async false

namespace Sys2Proof.Machine

/-! ### A register of another offset -/

theorem roleKey_offset {s t : State} {e e' : Bool} {p q o r : Nat} (ho : o < 2 ^ 12) (hr : r < 2 ^ 12) (h : roleKey s e q r = roleKey t e' p o) : r = o := by
  unfold roleKey regKey at h
  split at h <;> split at h <;> omega

theorem rdReg_wrReg_offset {p q o r : Nat} (ho : o < 2 ^ 12) (hr : r < 2 ^ 12) (h : r ≠ o) (v : Word) (s : State) :
    rdReg (wrReg p o v s) q r = rdReg s q r := by
  show smGet _ (smPut _ _ _ _) _ = _
  rw [smGet_smPut_ne _ _ _ _ (by exact fun key => h (roleKey_offset ho hr key))]
  rfl

theorem rdReg_modReg_offset {p q o r : Nat} (ho : o < 2 ^ 12) (hr : r < 2 ^ 12) (h : r ≠ o) (f : Word → Word) (s : State) :
    rdReg (modReg p o f s) q r = rdReg s q r := rdReg_wrReg_offset ho hr h ..

theorem rdReg_raiseBit_offset {p q r : Nat} (hr : r < 2 ^ 12) (h : r ≠ 0x010) (i : Nat) (s : State) : rdReg (raiseBit p i s) q r = rdReg s q r := by
  rw [raiseBit, raise, rdReg_noteIrq, rdReg_modReg_offset (by decide) hr h]

theorem rdReg_captureAs_offset {p q r : Nat} (hr : r < 2 ^ 12) (h : r ≠ 0x020) (ca o d cl sh g k : Nat) (s : State) :
    rdReg (captureAs p ca o d cl sh g k s) q r = rdReg s q r := by
  rw [captureAs, rdReg_report, captureOnly, rdReg_noteIrq, rdReg_modReg_offset (by decide) hr h]

/-- A bit of a page's interrupt register that is set stays set when another is raised. -/
theorem bit_raiseBit_of_set {p q i j : Nat} {s : State} (h : bit (rdReg s q 0x010) j = true) (hp : p < 2 ^ 14) (hq : q < 2 ^ 14) :
    bit (rdReg (raiseBit p i s) q 0x010) j = true := by
  by_cases e : p = q
  · subst e
    rw [raiseBit, rdReg_raise_same, bit_or, h, Bool.true_or]
  · rwa [raiseBit, rdReg_raise_ne _ hp hq (by decide) (fun both => e both.1)]

/-! ### A change of settings in its two parts -/

/-- The stream's part of a change of settings: a stop, then a setup (03 R83, R84). -/
def streamChange (c : Nat) (oldStrm : Word) (s : State) : State :=
  let run := bit (rdReg s (chPage c) 0x240) 0
  let toggled := (chan s c).runToggled
  let s := modChan c (fun x => { x with runToggled := false }) s
  let s := if bit oldStrm 0 && (!run || toggled) then stopStream c s else s
  if run && (!bit oldStrm 0 || toggled) then setupStream c s else s

/-- The function's part of a change of settings (02 R46, R59). -/
def functionChange (c : Nat) (oldFunc new : Word) (was : Forced) (atBoundary : Bool) (s : State) : State :=
  let x := chan s c
  if bit oldFunc 8 ≠ bit new 8 then
    modChan c (fun x => { x with phase := if x.held then x.phase else .modeChange (s.now + 2 * us), func := if x.held then x.func else .hiz, drive := none, window := none }) s
  else if funcOf new ≠ x.func ∧ x.phase = .steady ∧ !x.held then startSwitch c oldFunc was atBoundary s
  else pmuChange c was s

theorem settingsChange_eq (c : Nat) (oldFunc oldStrm : Word) (was : Forced) (atBoundary : Bool) (s : State) :
    settingsChange c oldFunc oldStrm was atBoundary s = functionChange c oldFunc (rdReg s (chPage c) 0x100) was atBoundary (streamChange c oldStrm s) := rfl

theorem streamSide_functionChange (c : Nat) (oldFunc new : Word) (was : Forced) (atBoundary : Bool) (s : State) :
    streamSide (chan (functionChange c oldFunc new was atBoundary s) c) = streamSide (chan s c) := by
  unfold functionChange
  dsimp only
  split
  · exact streamSide_modChan rfl
  split
  · exact streamSide_startSwitch ..
  · exact streamSide_pmuChange ..

theorem shut_functionChange {c : Nat} (oldFunc new : Word) (was : Forced) (atBoundary : Bool) {s : State} (h : Shut (chan s c)) :
    Shut (chan (functionChange c oldFunc new was atBoundary s) c) := by
  unfold functionChange
  dsimp only
  split
  · exact shut_modChan ⟨rfl, rfl⟩
  split
  · exact shut_startSwitch _ _ _ h
  · exact shut_pmuChange _ h

section
variable {c : Nat} {oldStrm : Word} {s : State} (steady : (chan s c).runToggled = false)
include steady

theorem streamChange_same (h : bit (rdReg s (chPage c) 0x240) 0 = bit oldStrm 0) :
    streamChange c oldStrm s = modChan c (fun x => { x with runToggled := false }) s := by
  unfold streamChange
  simp only [steady, h]
  cases bit oldStrm 0 <;> rfl

theorem streamChange_stop (old : bit oldStrm 0 = true) (h : bit (rdReg s (chPage c) 0x240) 0 = false) :
    streamChange c oldStrm s = stopStream c (modChan c (fun x => { x with runToggled := false }) s) := by
  unfold streamChange
  simp only [steady, h, old]
  rfl

theorem streamChange_setup (old : bit oldStrm 0 = false) (h : bit (rdReg s (chPage c) 0x240) 0 = true) :
    streamChange c oldStrm s = setupStream c (modChan c (fun x => { x with runToggled := false }) s) := by
  unfold streamChange
  simp only [steady, h, old]
  rfl

end

/-! ### The state in which the settings change -/

/-- The channel whose stroke has ended, with no old value held back. -/
def dropped (c : Nat) (s : State) : State := dropHeld c (holdForce c (strokeEnded c s))

theorem bankRegs_dropped (c : Nat) (s : State) : bankRegs (dropped c s) = bankRegs s := by simp [dropped, bankRegs_strokeEnded]

theorem rdReg_dropped (c : Nat) (s : State) : rdReg (dropped c s) (chPage c) 0x240 = rdReg s (chPage c) 0x240 :=
  rdReg_of_bankRegs (bankRegs_dropped c s) _ (by decide)

theorem offStroke_keeps {x y : Chan} (h : offStroke y = offStroke x) :
    streamSide y = streamSide x ∧ y.runToggled = x.runToggled ∧ y.phase = x.phase ∧ y.held = x.held :=
  ⟨streamSide_of_offStroke h, (congrArg Chan.runToggled h :), (congrArg Chan.phase h :), (congrArg Chan.held h :)⟩

@[simp] theorem chan_dropHeld (c d : Nat) (s : State) : chan (dropHeld c s) d = chan s d := (rfl)

/-- A channel apart from what the end of its stroke and a force that goes on change. -/
theorem dropped_keeps (c : Nat) (s : State) : streamSide (chan (dropped c s) c) = streamSide (chan s c) ∧
    (chan (dropped c s) c).runToggled = (chan s c).runToggled ∧ (chan (dropped c s) c).phase = (chan s c).phase := by
  obtain ⟨side, toggled, phase, -⟩ := offStroke_keeps (offStroke_strokeEnded c s)
  obtain ⟨from_, at_, eq⟩ := chan_holdForce c (strokeEnded c s)
  have now : chan (dropped c s) c = { chan (strokeEnded c s) c with rampFrom := from_, rampAt := at_ } := by
    rw [dropped, chan_dropHeld, eq]
  rw [now]
  clear now eq
  generalize chan (strokeEnded c s) c = y at side toggled phase
  exact ⟨side, toggled, phase⟩

theorem stream_of_side {x y : Chan} (h : streamSide y = streamSide x) : y.stream = x.stream := by
  simp only [streamSide, Prod.mk.injEq] at h
  exact h.1

theorem base_count_of_clk {s t : State} (h : clk t = clk s) (k : Nat) : (base t k).count = (base s k).count := by
  have at_ := congrArg Timebase.count (congrFun h k)
  exact at_

theorem takeEffect_eq (c : Nat) (s : State) : takeEffect c true (strokeEnded c s) =
    functionChange c (inForce s (chPage c) 0x100) (rdReg s (chPage c) 0x100) (pmuForce (strokeEnded c s) c) true
      (streamChange c (inForce s (chPage c) 0x240) (dropped c s)) := by
  have regs := rdReg_of_bankRegs (bankRegs_dropped c s) (chPage c) (o := 0x100) (by decide)
  rw [← inForce_strokeEnded c s (chPage c) (o := 0x100) (by decide), ← inForce_strokeEnded c s (chPage c) (o := 0x240) (by decide), ← regs]
  exact settingsChange_eq ..

/-! ### The stream's own part of the boundary -/

/-- What a boundary makes of a stream: it ends where a stop is due or LAST is reached, else it may start. -/
theorem streamAtBoundary_ends {c : Nat} {s : State} (set : (chan s c).stream ≠ .idle)
    (ends : (chan s c).stopDue = true ∨ ((chan s c).last ≠ 0 ∧ (chan s c).last ≤ (base s (clusterOf c)).count)) :
    streamAtBoundary c s = stopStream c s := by
  have idle (x : Chan) (h : x.stream = .idle) (n : Nat) : started n x = x := if_neg (fun k => by rw [h] at k; exact StreamState.noConfusion k.1)
  rw [streamAtBoundary_eq, endedStream, if_pos ⟨set, ends⟩, modChan, idle _ (by simp [stopStream])]
  simp [stopStream, modChan]

theorem streamAtBoundary_goesOn {c : Nat} {s : State} (goes : (chan s c).stream = .idle ∨
      ((chan s c).stopDue = false ∧ ((chan s c).last = 0 ∨ (base s (clusterOf c)).count < (chan s c).last))) :
    streamAtBoundary c s = modChan c (started (base s (clusterOf c)).count) s := by
  rw [streamAtBoundary_eq, endedStream, if_neg]
  rintro ⟨set, stop | ⟨last, reached⟩⟩
  · obtain idle | ⟨no, -⟩ := goes
    · exact set idle
    · exact Bool.false_ne_true (no.symm.trans stop)
  · obtain idle | ⟨-, zero | ahead⟩ := goes
    · exact set idle
    · exact last zero
    · omega

theorem channelEdge_cases (c : Nat) (s : State) :
    channelEdge c s = streamAtBoundary c (takeEffect c true (strokeEnded c s)) ∨
      channelEdge c s = switchAtBoundary c (streamAtBoundary c (takeEffect c true (strokeEnded c s))) := ite_eq_or_eq ..

theorem streamSide_channelEdge (c : Nat) (s : State) :
    streamSide (chan (channelEdge c s) c) = streamSide (chan (streamAtBoundary c (takeEffect c true (strokeEnded c s))) c) := by
  obtain h | h := channelEdge_cases c s
  · rw [h]
  · rw [h, streamSide_switchAtBoundary]

theorem shut_channelEdge {c : Nat} {s : State} (h : Shut (chan (streamAtBoundary c (takeEffect c true (strokeEnded c s))) c)) :
    Shut (chan (channelEdge c s) c) := by
  obtain e | e := channelEdge_cases c s
  · rwa [e]
  · rw [e]
    exact shut_switchAtBoundary h

/-! ### What becomes of a stream at a boundary -/

/-- A stream that has stopped: idle, its symbols discarded, the driver off, no window, and its lane to be told. -/
def Stopped (y : Chan) : Prop := y.stream = .idle ∧ y.fifo = [] ∧ y.window = none ∧ y.drive = none ∧ y.stopOnWay = true

theorem stopped_of {x y : Chan} (side : streamSide y = streamSide x) (shut : Shut y) (h : x.stream = .idle ∧ x.fifo = [] ∧ x.stopOnWay = true) : Stopped y := by
  simp only [streamSide, Prod.mk.injEq] at side
  obtain ⟨stream, -, -, -, fifo, onWay, -⟩ := side
  exact ⟨stream.trans h.1, fifo.trans h.2.1, shut.2, shut.1, onWay.trans h.2.2⟩

theorem stopStream_side {c : Nat} {s : State} (set : (chan s c).stream ≠ .idle) :
    (chan (stopStream c s) c).stream = .idle ∧ (chan (stopStream c s) c).fifo = [] ∧ (chan (stopStream c s) c).stopOnWay = true := by
  simp [stopStream, set]

theorem stopStream_cleared {c : Nat} {v : State} (set : (chan v c).stream ≠ .idle) :
    let w := stopStream c (modChan c (fun x => { x with runToggled := false }) v)
    (chan w c).stream = .idle ∧ (chan w c).fifo = [] ∧ (chan w c).stopOnWay = true := by
  simp [stopStream, set]

section
variable {c : Nat} {s v : State}

theorem settings_side (h : streamChange c (inForce s (chPage c) 0x240) (dropped c s) = v) :
    streamSide (chan (takeEffect c true (strokeEnded c s)) c) = streamSide (chan v c) := by
  rw [takeEffect_eq, streamSide_functionChange, h]

theorem settings_shut (h : streamChange c (inForce s (chPage c) 0x240) (dropped c s) = v) (shut : Shut (chan v c)) :
    Shut (chan (takeEffect c true (strokeEnded c s)) c) := by
  rw [takeEffect_eq, h]
  exact shut_functionChange _ _ _ _ shut

theorem channelEdge_idle (h : (chan (takeEffect c true (strokeEnded c s)) c).stream = .idle) :
    streamSide (chan (channelEdge c s) c) = streamSide (chan (takeEffect c true (strokeEnded c s)) c) := by
  rw [streamSide_channelEdge, streamAtBoundary_goesOn (.inl h), chan_modChan_same, started, if_neg]
  intro k
  rw [h] at k
  exact StreamState.noConfusion k.1

end

section
variable {c : Nat} {s : State} (steady : (chan s c).runToggled = false)
include steady

/-- Where RUN is what is in force, the settings leave the stream as it is. -/
theorem settings_keep (h : bit (rdReg s (chPage c) 0x240) 0 = bit (inForce s (chPage c) 0x240) 0) :
    streamSide (chan (takeEffect c true (strokeEnded c s)) c) = streamSide (chan s c) := by
  obtain ⟨side, toggled, -⟩ := dropped_keeps c s
  rw [takeEffect_eq, streamSide_functionChange, streamChange_same (toggled.trans steady)
    ((congrArg (bit · 0) (rdReg_dropped c s)).trans h), ← side]
  exact streamSide_modChan rfl

theorem channelEdge_runs (h : bit (rdReg s (chPage c) 0x240) 0 = bit (inForce s (chPage c) 0x240) 0) (goes : (chan s c).stopDue = false)
    (last : (chan s c).last = 0 ∨ (base s (clusterOf c)).count < (chan s c).last) :
    (chan (channelEdge c s) c).stream = if (chan s c).stream = .armed ∧ (chan s c).s0 ≤ (base s (clusterOf c)).count then .running else (chan s c).stream := by
  have keep := settings_keep steady h
  have count : (base (takeEffect c true (strokeEnded c s)) (clusterOf c)).count = (base s (clusterOf c)).count :=
    base_count_of_clk (by simp [strokeEnded]) _
  have side := streamSide_channelEdge c s
  simp only [streamSide, Prod.mk.injEq] at keep
  obtain ⟨stream, s0, last', stopDue, -⟩ := keep
  rw [streamAtBoundary_goesOn (.inr ⟨stopDue.trans goes, by rwa [last', count]⟩), chan_modChan_same] at side
  rw [stream_of_side side, started, stream, s0, count]
  split
  · rfl
  · exact stream

theorem channelEdge_stops (h : bit (rdReg s (chPage c) 0x240) 0 = bit (inForce s (chPage c) 0x240) 0) (set : (chan s c).stream ≠ .idle)
    (ends : (chan s c).stopDue = true ∨ ((chan s c).last ≠ 0 ∧ (chan s c).last ≤ (base s (clusterOf c)).count)) : Stopped (chan (channelEdge c s) c) := by
  have keep := settings_keep steady h
  have count : (base (takeEffect c true (strokeEnded c s)) (clusterOf c)).count = (base s (clusterOf c)).count :=
    base_count_of_clk (by simp [strokeEnded]) _
  have side := streamSide_channelEdge c s
  simp only [streamSide, Prod.mk.injEq] at keep
  obtain ⟨stream, s0, last', stopDue, -⟩ := keep
  have set' : (chan (takeEffect c true (strokeEnded c s)) c).stream ≠ .idle := by rwa [stream]
  have atB := streamAtBoundary_ends set' (by rwa [stopDue, last', count])
  rw [atB] at side
  exact stopped_of side (shut_channelEdge (by rw [atB]; exact shut_stopStream ..)) (stopStream_side set')

/-- RUN turned 0 stops a stream that is set up (03 R84). -/
theorem channelEdge_cleared (old : bit (inForce s (chPage c) 0x240) 0 = true) (h : bit (rdReg s (chPage c) 0x240) 0 = false) (set : (chan s c).stream ≠ .idle) :
    Stopped (chan (channelEdge c s) c) := by
  obtain ⟨before, toggled, -⟩ := dropped_keeps c s
  have stop := streamChange_stop (toggled.trans steady) old ((congrArg (bit · 0) (rdReg_dropped c s)).trans h)
  have stopped := stopStream_cleared (fun e => set ((stream_of_side before).symm.trans e))
  have side := settings_side stop
  have idle := (stream_of_side side).trans stopped.1
  exact stopped_of ((channelEdge_idle idle).trans side) (shut_channelEdge (shut_streamAtBoundary (settings_shut stop (shut_stopStream ..)))) stopped

end

end Sys2Proof.Machine
end

-- ==== the setup of a stream ====
section
/-! PROOFS. The setup of a stream at a boundary, and the boundary of a cluster (spec 03 R78-R84). -/

-- One theorem at a time: elaborating them in parallel takes the memory of many threads.
set_option Elab.async false

namespace Sys2Proof.Machine

/-! ### The settings under check -/

/-- A level set is judged by bankable registers alone (02 R42). -/
theorem levelsValid_congr {g h : RegSet} (eq : ∀ o, bankable o = true → g o = h o) : levelsValid g = levelsValid h := by
  have func : g 0x100 = h 0x100 := eq _ rfl
  have d0 : g 0x110 = h 0x110 := eq _ rfl
  have d1 : g 0x114 = h 0x114 := eq _ rfl
  have d2 : g 0x118 = h 0x118 := eq _ rfl
  have d3 : g 0x11C = h 0x11C := eq _ rfl
  have d4 : g 0x120 = h 0x120 := eq _ rfl
  have c0 : g 0x130 = h 0x130 := eq _ rfl
  have c1 : g 0x134 = h 0x134 := eq _ rfl
  have c2 : g 0x138 = h 0x138 := eq _ rfl
  have count : fld (h 0x100) 10 9 < 4 := fld_lt ..
  unfold levelsValid codesValid
  simp only [func]
  generalize fld (h 0x100) 10 9 = n at count
  obtain rfl | rfl | rfl | rfl : n = 0 ∨ n = 1 ∨ n = 2 ∨ n = 3 := by omega
  all_goals simp [List.range, List.range.loop, d0, d1, d2, d3, d4, c0, c1, c2]

theorem funcValid_congr {g h : RegSet} (eq : ∀ o, bankable o = true → g o = h o) : funcValid g = funcValid h := by
  unfold funcValid
  rw [eq 0x100 rfl]

theorem rd64_of_bankRegs {s t : State} (h : bankRegs t = bankRegs s) (p : Nat) {o : Nat} (lo : bankable o = true) (hi : bankable (o + 4) = true) :
    rd64 t p o = rd64 s p o := by
  rw [rd64, rd64, rdReg_of_bankRegs h p lo, rdReg_of_bankRegs h p hi]

/-! ### Setup -/

section
variable {c : Nat} {s u : State} (regs : bankRegs u = bankRegs s) (count : (base u (clusterOf c)).count = (base s (clusterOf c)).count)
include regs count

theorem setupStream_refused (h : rd64 s (chPage c) 0x248 ≤ (base s (clusterOf c)).count ∨
      (rd64 s (chPage c) 0x250 ≠ 0 ∧ rd64 s (chPage c) 0x250 ≤ rd64 s (chPage c) 0x248) ∨
      levelsValid (fun o => rdReg s (chPage c) o) = false ∨ funcValid (fun o => rdReg s (chPage c) o) = false) :
    setupStream c u = strmFlag c 27 2 u := by
  have same (o : Nat) (ho : bankable o = true) : rdReg u (chPage c) o = rdReg s (chPage c) o := rdReg_of_bankRegs regs _ ho
  unfold setupStream
  simp only [rd64_of_bankRegs regs (chPage c) (o := 0x248) rfl rfl, rd64_of_bankRegs regs (chPage c) (o := 0x250) rfl rfl, count, levelsValid_congr same,
    funcValid_congr same]
  refine if_pos ?_
  obtain h | h | h | h := h
  · exact .inl h
  · exact .inr (.inl h)
  · exact .inr (.inr (by rw [h]; rfl))
  · exact .inr (.inr (by rw [h, Bool.and_false]; rfl))

theorem setupStream_armed (ahead : (base s (clusterOf c)).count < rd64 s (chPage c) 0x248)
    (last : rd64 s (chPage c) 0x250 = 0 ∨ rd64 s (chPage c) 0x248 < rd64 s (chPage c) 0x250)
    (levels : levelsValid (fun o => rdReg s (chPage c) o) = true) (func : funcValid (fun o => rdReg s (chPage c) o) = true) :
    streamSide (chan (setupStream c u) c) = (.armed, rd64 s (chPage c) 0x248, rd64 s (chPage c) 0x250, false, [], false, 4096, true) := by
  have same (o : Nat) (ho : bankable o = true) : rdReg u (chPage c) o = rdReg s (chPage c) o := rdReg_of_bankRegs regs _ ho
  unfold setupStream
  simp only [rd64_of_bankRegs regs (chPage c) (o := 0x248) rfl rfl, rd64_of_bankRegs regs (chPage c) (o := 0x250) rfl rfl, count, levelsValid_congr same,
    funcValid_congr same]
  rw [if_neg]
  · have tables (v : State) (m : SMap MarkTable) : chan { v with tables := m } c = chan v c := rfl
    rw [tables, chan_modLane, chan_modChan_same]
    rfl
  · rintro (h | ⟨h, k⟩ | h)
    · omega
    · omega
    · rw [levels, func] at h
      exact Bool.false_ne_true h

end

/-! ### STRM_STAT after the setup -/

/-- STRM_STAT of a channel. -/
def strmStat (c : Nat) (s : State) : Word := rdReg s (palPage (laneOf c)) (0x740 + 4 * (c % 8))

theorem strmStat_strmFlag (c b irq : Nat) (s : State) : strmStat c (strmFlag c b irq s) = setBit (strmStat c s) b true := by
  unfold strmStat strmFlag
  rw [rdReg_raiseBit_offset (by omega) (by omega), rdReg_modReg_same]

theorem strmStat_modReg {o : Nat} (ho : o < 2 ^ 12) (h : o < 0x740 ∨ 0x760 ≤ o) (p : Nat) (f : Word → Word) (c : Nat) (s : State) :
    strmStat c (modReg p o f s) = strmStat c s := rdReg_modReg_offset ho (by omega) (by omega) f s

theorem strmStat_raiseBit (p i c : Nat) (s : State) : strmStat c (raiseBit p i s) = strmStat c s := rdReg_raiseBit_offset (by omega) (by omega) i s

theorem strmStat_captureAs (p ca o d cl sh g k c : Nat) (s : State) : strmStat c (captureAs p ca o d cl sh g k s) = strmStat c s :=
  rdReg_captureAs_offset (by omega) (by omega) ..

@[simp] theorem strmStat_modChan (c d : Nat) (f : Chan → Chan) (s : State) : strmStat c (modChan d f s) = strmStat c s := (rfl)
@[simp] theorem strmStat_setChan (c d : Nat) (x : Chan) (s : State) : strmStat c (setChan d x s) = strmStat c s := (rfl)
@[simp] theorem strmStat_stopStream (c d : Nat) (s : State) : strmStat c (stopStream d s) = strmStat c s := (rfl)
@[simp] theorem strmStat_startForce (c d : Nat) (s : State) : strmStat c (startForce d s) = strmStat c s := (rfl)
@[simp] theorem strmStat_enterHold (c d : Nat) (p : Phase) (s : State) : strmStat c (enterHold d p s) = strmStat c s := (rfl)

theorem strmStat_abortPmu (c : Nat) (s : State) : strmStat c (abortPmu c s) = strmStat c s := by
  unfold abortPmu
  split
  · rfl
  · exact (strmStat_modReg (by decide) (by decide) _ _ c _).trans rfl

theorem strmStat_startSwitch (c : Nat) (old : Word) (was : Forced) (atBoundary : Bool) (s : State) :
    strmStat c (startSwitch c old was atBoundary s) = strmStat c s := (rdReg_startSwitch ..).trans (strmStat_abortPmu c s)

theorem strmStat_functionChange (c : Nat) (oldFunc new : Word) (was : Forced) (atBoundary : Bool) (s : State) :
    strmStat c (functionChange c oldFunc new was atBoundary s) = strmStat c s := by
  unfold functionChange
  dsimp only
  split
  · rfl
  split
  · exact strmStat_startSwitch ..
  · obtain ⟨u, hu, eq⟩ := pmuChange_cases c was s
    have begun : strmStat c u = strmStat c s := by
      obtain rfl | rfl := hu
      · rfl
      · exact strmStat_startForce ..
    obtain eq | eq := eq
    · rw [eq, begun]
    · rw [eq, strmStat_modChan, begun]

theorem strmStat_streamAtBoundary (c : Nat) (s : State) : strmStat c (streamAtBoundary c s) = strmStat c s := by
  rw [streamAtBoundary_eq, strmStat_modChan, endedStream, apply_ite (strmStat c), strmStat_stopStream, ite_self]

theorem strmStat_switchAtBoundary (c : Nat) (s : State) : strmStat c (switchAtBoundary c s) = strmStat c s := by
  have enters : strmStat c (enterFunction c s) = strmStat c s := by
    unfold enterFunction
    dsimp only
    repeat' split
    all_goals simp [strmStat_raiseBit]
  unfold switchAtBoundary
  repeat' split
  all_goals simp [enters]

theorem strmStat_channelEdge (c : Nat) (s : State) : strmStat c (channelEdge c s) = strmStat c (takeEffect c true (strokeEnded c s)) := by
  obtain h | h := channelEdge_cases c s
  · rw [h, strmStat_streamAtBoundary]
  · rw [h, strmStat_switchAtBoundary, strmStat_streamAtBoundary]

/-! ### RUN that turns 1 -/

section
variable {c : Nat} {s : State} (steady : (chan s c).runToggled = false) (old : bit (inForce s (chPage c) 0x240) 0 = false)
  (run : bit (rdReg s (chPage c) 0x240) 0 = true)
include steady old run

theorem settings_setup : streamChange c (inForce s (chPage c) 0x240) (dropped c s) =
    setupStream c (modChan c (fun x => { x with runToggled := false }) (dropped c s)) :=
  streamChange_setup ((dropped_keeps c s).2.1.trans steady) old ((congrArg (bit · 0) (rdReg_dropped c s)).trans run)

theorem channelEdge_armed (ahead : (base s (clusterOf c)).count < rd64 s (chPage c) 0x248)
    (last : rd64 s (chPage c) 0x250 = 0 ∨ rd64 s (chPage c) 0x248 < rd64 s (chPage c) 0x250)
    (levels : levelsValid (fun o => rdReg s (chPage c) o) = true) (func : funcValid (fun o => rdReg s (chPage c) o) = true) :
    let y := chan (channelEdge c s) c
    y.stream = .armed ∧ y.s0 = rd64 s (chPage c) 0x248 ∧ y.last = rd64 s (chPage c) 0x250 ∧ y.credit = 4096 ∧ y.laneStream = true := by
  have count (u : State) (h : clk u = clk s) : (base u (clusterOf c)).count = (base s (clusterOf c)).count := base_count_of_clk h _
  have armed := setupStream_armed (u := modChan c (fun x => { x with runToggled := false }) (dropped c s))
    (by rw [bankRegs_modChan, bankRegs_dropped]) (count _ (by simp [dropped, strokeEnded])) ahead last levels func
  have side := (settings_side (settings_setup steady old run)).trans armed
  have boundary := streamSide_channelEdge c s
  have now : (base (takeEffect c true (strokeEnded c s)) (clusterOf c)).count = (base s (clusterOf c)).count := count _ (by simp [strokeEnded])
  generalize takeEffect c true (strokeEnded c s) = w at side boundary now
  simp only [streamSide, Prod.mk.injEq] at side
  obtain ⟨hstream, hs0, hlast, hstop, -, -, hcredit, hlane⟩ := side
  rw [streamAtBoundary_goesOn (.inr ⟨hstop, by rw [hlast, now]; omega⟩), chan_modChan_same, started, if_neg (by rw [hs0, now]; omega)] at boundary
  simp only [streamSide, Prod.mk.injEq] at boundary
  obtain ⟨ystream, ys0, ylast, -, -, -, ycredit, ylane⟩ := boundary
  exact ⟨ystream.trans hstream, ys0.trans hs0, ylast.trans hlast, ycredit.trans hcredit, ylane.trans hlane⟩

theorem channelEdge_refused (idle : (chan s c).stream = .idle) (h : rd64 s (chPage c) 0x248 ≤ (base s (clusterOf c)).count ∨
      (rd64 s (chPage c) 0x250 ≠ 0 ∧ rd64 s (chPage c) 0x250 ≤ rd64 s (chPage c) 0x248) ∨
      levelsValid (fun o => rdReg s (chPage c) o) = false ∨ funcValid (fun o => rdReg s (chPage c) o) = false) :
    (chan (channelEdge c s) c).stream = .idle ∧ bit (strmStat c (channelEdge c s)) 27 = true := by
  have count (u : State) (h : clk u = clk s) : (base u (clusterOf c)).count = (base s (clusterOf c)).count := base_count_of_clk h _
  have flagged : streamChange c (inForce s (chPage c) 0x240) (dropped c s) = strmFlag c 27 2 (modChan c (fun x => { x with runToggled := false }) (dropped c s)) :=
    (settings_setup steady old run).trans
      (setupStream_refused (by rw [bankRegs_modChan, bankRegs_dropped]) (count _ (by simp [dropped, strokeEnded])) h)
  have kept : (chan (takeEffect c true (strokeEnded c s)) c).stream = .idle := by
    have cleared : streamSide (chan (modChan c (fun x => { x with runToggled := false }) (dropped c s)) c) = streamSide (chan s c) :=
      (streamSide_modChan rfl).trans (dropped_keeps c s).1
    rw [stream_of_side (settings_side flagged), chan_strmFlag, stream_of_side cleared, idle]
  refine ⟨(stream_of_side (channelEdge_idle kept)).trans kept, ?_⟩
  rw [strmStat_channelEdge, takeEffect_eq, strmStat_functionChange, flagged, strmStat_strmFlag]
  exact bit_setBit_same _ _ (by decide)

end

end Sys2Proof.Machine
end

-- ==== Fabric Time at a boundary ====
section
/-! PROOFS. Fabric Time over the steps of a stroke boundary: only the events of a stroke move it, and only on (spec 03 R84-R92). -/

-- One theorem at a time: elaborating them in parallel takes the memory of many threads.
set_option Elab.async false

namespace Sys2Proof.Machine

/-! ### What takes no time -/

/-- Fabric Time and the values of before that live writes left in force. -/
def still (s : State) : Nat × SMap Word := (s.now, s.held)

theorem now_of_still {s t : State} (h : still t = still s) : t.now = s.now := congrArg Prod.fst h
theorem held_of_still {s t : State} (h : still t = still s) : t.held = s.held := congrArg Prod.snd h

@[simp] theorem still_tick (s : State) : still (tick s) = still s := (rfl)
@[simp] theorem still_modChan (c : Nat) (f : Chan → Chan) (s : State) : still (modChan c f s) = still s := (rfl)
@[simp] theorem still_setChan (c : Nat) (x : Chan) (s : State) : still (setChan c x s) = still s := (rfl)
@[simp] theorem still_modBase (k : Nat) (f : Timebase → Timebase) (s : State) : still (modBase k f s) = still s := (rfl)
@[simp] theorem still_modLane (l : Nat) (f : Lane → Lane) (s : State) : still (modLane l f s) = still s := (rfl)
@[simp] theorem still_modReg (p o : Nat) (f : Word → Word) (s : State) : still (modReg p o f s) = still s := (rfl)
@[simp] theorem still_wrReg (p o : Nat) (v : Word) (s : State) : still (wrReg p o v s) = still s := (rfl)
@[simp] theorem still_countReg (p o n : Nat) (s : State) : still (countReg p o n s) = still s := (rfl)
@[simp] theorem still_report (r : Report) (s : State) : still (report r s) = still s := (rfl)
@[simp] theorem still_raiseBit (p i : Nat) (s : State) : still (raiseBit p i s) = still s := Prod.ext (raiseBit_now ..) (pageOnly_raiseBit ..).held_eq
@[simp] theorem still_captureAs (p ca o d cl sh g k : Nat) (s : State) : still (captureAs p ca o d cl sh g k s) = still s :=
  Prod.ext (captureAs_now p ca o d cl sh g k s) (pageOnly_captureAs p ca o d cl sh g k s).held_eq
@[simp] theorem still_wmSample (p n v : Nat) (s : State) : still (wmSample p n v s) = still s := Prod.ext (wmSample_now ..) (pageOnly_wmSample ..).held_eq
@[simp] theorem still_tables (m : SMap MarkTable) (s : State) : still { s with tables := m } = still s := (rfl)

@[simp] theorem still_strmFlag (c b irq : Nat) (s : State) : still (strmFlag c b irq s) = still s := by simp [strmFlag]
@[simp] theorem still_timingError (c : Nat) (s : State) : still (timingError c s) = still s := by simp [timingError]
@[simp] theorem still_stopStream (c : Nat) (s : State) : still (stopStream c s) = still s := by simp [stopStream]
@[simp] theorem still_abortPmu (c : Nat) (s : State) : still (abortPmu c s) = still s := by
  unfold abortPmu
  split <;> simp
@[simp] theorem still_fillSlot (c reg : Nat) (fails : Bool) (s : State) : still (fillSlot c reg fails s) = still s := by simp [fillSlot]
@[simp] theorem still_strobeRegion (c : Nat) (st : Stroke) (t : Nat) (volts : Int) (s : State) : still (strobeRegion c st t volts s).2 = still s := by
  unfold strobeRegion
  split <;> simp
@[simp] theorem still_pmuEvent (c : Nat) (s : State) : still (pmuEvent c s) = still s := by
  unfold pmuEvent
  repeat' split
  all_goals simp [pmuTriggered]
@[simp] theorem still_applyEvent (c : Nat) (e : PalEvent) (st : Stroke) (volts : Int) (s : State) : still (applyEvent c e st volts s) = still s := by
  unfold applyEvent
  dsimp only
  repeat' split
  all_goals simp
@[simp] theorem still_startForce (c : Nat) (s : State) : still (startForce c s) = still s := (rfl)
@[simp] theorem still_enterHold (c : Nat) (p : Phase) (s : State) : still (enterHold c p s) = still s := (rfl)
@[simp] theorem still_rampOver (c : Nat) (atBoundary : Bool) (s : State) : still (rampOver c atBoundary s) = still s := by
  unfold rampOver
  repeat' split
  all_goals simp
@[simp] theorem still_startSwitch (c : Nat) (old : Word) (was : Forced) (atBoundary : Bool) (s : State) :
    still (startSwitch c old was atBoundary s) = still s := by
  unfold startSwitch
  dsimp only
  repeat' split
  all_goals simp
@[simp] theorem still_markMismatch (c : Nat) (s : State) : still (markMismatch c s) = still s := by simp [markMismatch]
@[simp] theorem still_checkMark (y : TileMark) (stops : Bool) (s : State) : still (checkMark y stops s) = still s := by
  unfold checkMark
  dsimp only
  repeat' split
  all_goals simp
@[simp] theorem still_settleMarks (c : Nat) (s : State) : still (settleMarks c s) = still s := by
  unfold settleMarks
  rw [still_modChan]
  exact forEach_inv (P := fun t => still t = still s) (still_modBase ..) fun _ _ ht => (still_checkMark ..).trans ht
@[simp] theorem still_setupStream (c : Nat) (s : State) : still (setupStream c s) = still s := by
  unfold setupStream
  dsimp only
  split
  · simp
  · exact (still_tables ..).trans (by simp)
@[simp] theorem still_pmuChange (c : Nat) (was : Forced) (s : State) : still (pmuChange c was s) = still s := by
  unfold pmuChange
  dsimp only
  repeat' split
  all_goals simp
@[simp] theorem still_settingsChange (c : Nat) (oldFunc oldStrm : Word) (was : Forced) (atBoundary : Bool) (s : State) :
    still (settingsChange c oldFunc oldStrm was atBoundary s) = still s := by
  unfold settingsChange
  dsimp only
  repeat' split
  all_goals simp
@[simp] theorem still_holdForce (c : Nat) (s : State) : still (holdForce c s) = still s := by
  unfold holdForce
  split <;> simp
@[simp] theorem still_streamAtBoundary (c : Nat) (s : State) : still (streamAtBoundary c s) = still s := by
  unfold streamAtBoundary
  dsimp only
  split <;> simp
@[simp] theorem still_enterFunction (c : Nat) (s : State) : still (enterFunction c s) = still s := by
  unfold enterFunction
  dsimp only
  repeat' split
  all_goals simp
@[simp] theorem still_switchAtBoundary (c : Nat) (s : State) : still (switchAtBoundary c s) = still s := by
  unfold switchAtBoundary
  repeat' split
  all_goals simp
@[simp] theorem still_senseEdge (c : Nat) (s : State) : still (senseEdge c s) = still s := (rfl)
@[simp] theorem still_lateEvents (c : Nat) (s : State) : still (lateEvents c s) = still s := by
  rw [lateEvents, apply_ite still, still_timingError, ite_self]
@[simp] theorem still_tileMark (c : Nat) (y : Symbol) (s : State) : still (tileMark c y s) = still s := by
  unfold tileMark compareMarks tileMismatch
  dsimp only
  repeat' split
  all_goals simp
@[simp] theorem still_blurStrobe (c : Nat) (f : Word) (st : Stroke) (s : State) : still (blurStrobe c f st s) = still s := by
  unfold blurStrobe
  repeat' split
  all_goals simp
@[simp] theorem still_palStroke (c : Nat) (y : Symbol) (s : State) : still (palStroke c y s) = still s := by
  unfold palStroke
  dsimp only
  split <;> simp

theorem still_takeEffect (c : Nat) (atBoundary : Bool) (s : State) : still (takeEffect c atBoundary s) = still (dropHeld c s) :=
  (still_settingsChange ..).trans (congrArg (fun t => (t.1, smDrop (fun k => k / 4096 = chPage c) t.2)) (still_holdForce c s) :)

/-! ### What lets the events of a stroke come first -/

theorem le_now_nextEvent (c : Nat) (volts : Int) (strayed : Bool) (s : State) : s.now ≤ (nextEvent c volts strayed s).now := by
  unfold nextEvent
  repeat' split
  · exact le_rfl
  · exact le_rfl
  · rw [now_of_still (still_applyEvent ..)]
    exact Nat.le_max_left ..

theorem le_now_eventsBefore (c n : Nat) (s : State) : s.now ≤ (eventsBefore c n s).now := by
  induction n generalizing s with
  | zero => exact le_rfl
  | succ n ih =>
    unfold eventsBefore
    repeat' split
    · exact le_rfl
    · exact le_rfl
    · exact (le_now_nextEvent c _ _ (tick s)).trans (ih _)
    · exact le_rfl

theorem le_now_remainingEvents (c n : Nat) (s : State) : s.now ≤ (remainingEvents c n s).now := by
  induction n generalizing s with
  | zero => exact le_rfl
  | succ n ih =>
    unfold remainingEvents
    repeat' split
    · exact le_rfl
    · exact le_rfl
    · exact (le_now_nextEvent c _ _ (tick s)).trans (ih _)

theorem le_now_endStroke (c : Nat) (s : State) : s.now ≤ (endStroke c s).now := by
  have late := now_of_still (still_lateEvents c (remainingEvents c 8 s))
  simpa [endStroke, late] using le_now_remainingEvents c 8 s

theorem le_now_trip (c cause key : Nat) (s : State) : s.now ≤ (trip c cause key s).now := by
  unfold trip
  dsimp only
  split
  · exact le_rfl
  · have ended := now_of_still ((still_stopStream c _).trans (still_abortPmu c (eventsBefore c 8 s)))
    simpa [ended] using le_now_eventsBefore c 8 s

theorem still_channelEdge (c : Nat) (s : State) : still (channelEdge c s) = still (dropHeld c (endStroke c s)) := by
  have settled (u : State) : still (streamAtBoundary c (takeEffect c true (senseEdge c u))) = still (dropHeld c u) :=
    (still_streamAtBoundary ..).trans (still_takeEffect ..)
  unfold channelEdge channelEdge.switchThen
  dsimp only
  split
  · exact settled _
  · exact (still_switchAtBoundary ..).trans (settled _)

theorem le_now_channelEdge (c : Nat) (s : State) : s.now ≤ (channelEdge c s).now :=
  (le_now_endStroke c s).trans (le_of_eq (now_of_still (still_channelEdge c s)).symm)

/-- The stroke of a channel that starves (03 R98). -/
def starvedStroke (c : Nat) (s : State) : Stroke :=
  ⟨s.now, (base s (clusterOf c)).count, period s (clusterOf c), inForce s (chPage c) 0x104, 0, false, 0, 0,
    BitVec.ofNat 24 (0x200000 + 0x800000 * freeVal 1 s), [], false, false⟩

theorem starve_eq (c : Nat) (s : State) : starve c s = stopStream c (trip c 8 c (captureAs (palPage (laneOf c)) fEVENT (0x740 + 4 * (c % 8)) (c % 8) 1 fEVENT 2 c
    (strmFlag c 29 0 (modChan c (fun x => { x with stroke := some (starvedStroke c s) }) (tick s))))) := rfl

theorem le_now_starve (c : Nat) (s : State) : s.now ≤ (starve c s).now := by
  have flagged : still (captureAs (palPage (laneOf c)) fEVENT (0x740 + 4 * (c % 8)) (c % 8) 1 fEVENT 2 c
    (strmFlag c 29 0 (modChan c (fun x => { x with stroke := some (starvedStroke c s) }) (tick s)))) = still s := by simp
  rw [starve_eq, now_of_still (still_stopStream ..)]
  exact (le_of_eq (now_of_still flagged).symm).trans (le_now_trip ..)

theorem le_now_takeSymbol (c : Nat) (s : State) : s.now ≤ (takeSymbol c s).now := by
  unfold takeSymbol pmuStroke
  dsimp only
  split
  · exact le_now_starve c s
  · refine le_of_eq (now_of_still ?_).symm
    repeat' split
    all_goals simp

theorem le_now_channelStroke (c : Nat) (s : State) : s.now ≤ (channelStroke c s).now := by
  unfold channelStroke
  split
  · exact le_now_takeSymbol c s
  · exact le_rfl

theorem le_now_forUpTo {n : Nat} {f : Nat → State → State} {s : State} (h : ∀ i s, s.now ≤ (f i s).now) : s.now ≤ (forUpTo n s f).now :=
  forUpTo_inv (P := fun t => s.now ≤ t.now) le_rfl fun i t ht => ht.trans (h i t)

end Sys2Proof.Machine
end

-- ==== a COPY and the Canvas ====
section
/-! PROOFS. A COPY writes the Easel role of bankable registers only: every Canvas register keeps its value (spec 12 R327). -/

-- One theorem at a time: elaborating them in parallel takes the memory of many threads.
set_option Elab.async false

namespace Sys2Proof.Machine

theorem forEach_inv_mem {α σ : Type} {P : σ → Prop} {l : List α} {x : σ} {f : α → σ → σ} (h : P x) (hf : ∀ a ∈ l, ∀ x, P x → P (f a x)) :
    P (forEach l x f) := by
  induction l generalizing x with
  | nil => exact h
  | cons a l ih => exact ih (hf a List.mem_cons_self x h) fun b hb => hf b (List.mem_cons_of_mem a hb)

theorem forUpTo_inv_lt {σ : Type} {P : σ → Prop} {n : Nat} {x : σ} {f : Nat → σ → σ} (h : P x) (hf : ∀ i < n, ∀ x, P x → P (f i x)) :
    P (forUpTo n x f) := by
  induction n with
  | zero => exact h
  | succ n ih => exact hf n (Nat.lt_succ_self n) _ (ih fun i hi => hf i (by omega))

theorem page_lt {p : Nat} {x : Page} (h : pageAt p = some x) : p < 2 ^ 14 := by
  by_contra hp
  unfold pageAt at h
  repeat rw [if_neg (by omega)] at h
  exact (Option.some_ne_none _ h.symm).elim

/-- The bankable registers of a table lie in the bankable range, and the others outside it (12 R314). -/
theorem bankable_regs (k : Kind) : ∀ r ∈ regsOf k, r.bankable = true → 0x100 ≤ r.off ∧ r.off + r.stride * (r.count - 1) < 0x700 := by
  cases k <;> decide

theorem bankable_reg {k : Kind} {r : RegDesc} (h : r ∈ regsOf k) (hb : r.bankable = true) {i : Nat} (hi : i < r.count) :
    bankable (r.off + r.stride * i) = true := by
  obtain ⟨lo, hi'⟩ := bankable_regs k r h hb
  have : r.stride * i ≤ r.stride * (r.count - 1) := Nat.mul_le_mul_left _ (by omega)
  simp only [bankable, Bool.and_eq_true, decide_eq_true_eq]
  omega

theorem rdReg_wrRole_easel {p q o r : Nat} (hp : p < 2 ^ 14) (hq : q < 2 ^ 14) (ho : bankable o = true) (hr : r < 2 ^ 12) (v : Word) (s : State) :
    rdReg (wrRole true p o v s) q r = rdReg s q r := by
  have lt : o < 2 ^ 12 := by
    simp only [bankable, Bool.and_eq_true, decide_eq_true_eq] at ho
    omega
  by_cases h : p = q ∧ o = r
  · obtain ⟨rfl, rfl⟩ := h
    exact rdRole_wrRole_other _ _ _ true s ho
  · exact rdRole_wrRole_ne hp hq lt hr h ..

section
variable {q r : Nat} (hq : q < 2 ^ 14) (hr : r < 2 ^ 12)
include hq hr

theorem rdReg_copyPage (p : Nat) (s : State) : rdReg (copyPage p s) q r = rdReg s q r := by
  unfold copyPage
  split
  · rfl
  · next x hx =>
    have hp : p < 2 ^ 14 := page_lt hx
    extract_lets s1
    have regs : rdReg s1 q r = rdReg s q r := by
      refine forEach_inv_mem (P := fun t => rdReg t q r = rdReg s q r) rfl fun d hd t ht => ?_
      split
      · exact ht
      · next hb =>
        refine forUpTo_inv_lt (P := fun t => rdReg t q r = rdReg s q r) ht fun i hi u hu => ?_
        exact (rdReg_wrRole_easel hp hq (bankable_reg hd (by simpa using hb) hi) hr ..).trans hu
    clear_value s1
    split
    · exact forUpTo_inv (P := fun t => rdReg t q r = rdReg s q r) regs fun w t ht => Eq.trans (rfl) ht
    · exact regs

theorem rdReg_mayCopy (p : Nat) (s : State) : rdReg (mayCopy p s) q r = rdReg s q r := by
  have copies (u : State) (l : List (List Nat)) : rdReg { u with copies := l } q r = rdReg u q r := rfl
  unfold mayCopy
  repeat' split
  · rfl
  · rw [rdReg_copyPage hq hr, copies, rdReg_tick]
  · rfl

theorem rdReg_mayCopyTied (k : Nat) (s : State) : rdReg (mayCopyTied k s) q r = rdReg s q r :=
  forEach_inv (P := fun t => rdReg t q r = rdReg s q r) rfl fun p t ht => (rdReg_mayCopy hq hr p t).trans ht

end

theorem copyOnly_mayCopyTied (k : Nat) (s : State) : CopyOnly s (mayCopyTied k s) := copyOnly_forEach fun p s => copyOnly_mayCopy p s

end Sys2Proof.Machine
end

-- ==== the boundary of a cluster ====
section
/-! PROOFS. The stroke boundary of a cluster: its count, its stop and its refusal (spec 03 R78-R84). -/

-- One theorem at a time: elaborating them in parallel takes the memory of many threads.
set_option Elab.async false

namespace Sys2Proof.Machine

/-! ### Steps on the channels of a cluster -/

theorem chan_forUpTo_at {n i : Nat} {g : Nat → Nat} {f : Nat → State → State} (hg : ∀ a < n, ∀ b < n, g a = g b → a = b)
    (hf : ∀ j s, elsewhere (g j) (f j s) = elsewhere (g j) s) (hi : i < n) (s : State) :
    chan (forUpTo n s f) (g i) = chan (f i (forUpTo i s f)) (g i) ∧ chan (forUpTo i s f) (g i) = chan s (g i) := by
  have other (a : Nat) (ha : a < n) (ne : i ≠ a) (t : State) : chan (f a t) (g i) = chan t (g i) :=
    chan_of_elsewhere (hf a t) fun e => ne (hg i hi a ha e)
  have before (m : Nat) (hm : m ≤ i) : chan (forUpTo m s f) (g i) = chan s (g i) := by
    induction m with
    | zero => rfl
    | succ m ih => exact (other m (by omega) (by omega) _).trans (ih (by omega))
  have after (m : Nat) (lo : i < m) (hm : m ≤ n) : chan (forUpTo m s f) (g i) = chan (f i (forUpTo i s f)) (g i) := by
    induction m with
    | zero => omega
    | succ m ih =>
      obtain h | rfl := Nat.lt_succ_iff_lt_or_eq.1 lo
      · exact (other m (by omega) (by omega) _).trans (ih h (by omega))
      · rfl
  exact ⟨after n hi le_rfl, before i le_rfl⟩

theorem chanOfCluster_lt {k q : Nat} : chanOfCluster k q < 512 := by
  unfold chanOfCluster laneOfCluster
  omega

theorem chanOfCluster_inj (k : Nat) : ∀ a < 64, ∀ b < 64, chanOfCluster k a = chanOfCluster k b → a = b := by
  intro a ha b hb h
  unfold chanOfCluster laneOfCluster at h
  omega

theorem chPage_inj {c d : Nat} (hc : c < 512) (hd : d < 512) (h : chPage c = chPage d) : c = d := by
  have at_ := pageAt_chPage hc
  rw [h, pageAt_chPage hd] at at_
  exact (Page.mk.inj (Option.some.inj at_)).2.symm

/-- The edges of the channels of a cluster. -/
def clusterEdges (k n : Nat) (s : State) : State := forUpTo n s (fun q s => channelEdge (chanOfCluster k q) s)

@[simp] theorem clk_clusterEdges (k n : Nat) (s : State) : clk (clusterEdges k n s) = clk s := clk_forUpTo fun _ _ => clk_channelEdge ..
@[simp] theorem bankRegs_clusterEdges (k n : Nat) (s : State) : bankRegs (clusterEdges k n s) = bankRegs s := bankRegs_forUpTo fun _ _ => bankRegs_channelEdge ..
theorem le_now_clusterEdges (k n : Nat) (s : State) : s.now ≤ (clusterEdges k n s).now := le_now_forUpTo fun _ _ => le_now_channelEdge ..

theorem chan_clusterEdges (k : Nat) {q : Nat} (hq : q < 64) (s : State) :
    chan (clusterEdges k 64 s) (chanOfCluster k q) = chan (channelEdge (chanOfCluster k q) (clusterEdges k q s)) (chanOfCluster k q) ∧
      chan (clusterEdges k q s) (chanOfCluster k q) = chan s (chanOfCluster k q) :=
  chan_forUpTo_at (chanOfCluster_inj k) (fun _ _ => elsewhere_channelEdge ..) hq s

theorem held_channelEdge (c : Nat) (s : State) : (channelEdge c s).held = smDrop (fun k => k / 4096 = chPage c) s.held := by
  have kept : (endStroke c s).held = s.held := (congrArg State.held (apart_strokeEnded c s) :)
  rw [held_of_still (still_channelEdge c s), ← kept]
  rfl

/-- The edges of other channels leave what is in force on a channel's page. -/
theorem inForce_clusterEdges (k : Nat) {q o : Nat} (hq : q < 64) (ho : bankable o = true) (s : State) :
    inForce (clusterEdges k q s) (chPage (chanOfCluster k q)) o = inForce s (chPage (chanOfCluster k q)) o := by
  have lt : o < 4096 := by
    simp only [bankable, Bool.and_eq_true, decide_eq_true_eq] at ho
    omega
  have page : regKey false (chPage (chanOfCluster k q)) o / 4096 = chPage (chanOfCluster k q) := by
    unfold regKey
    simp only [Bool.toNat_false]
    omega
  have held (d : Word) : smGet d (clusterEdges k q s).held (regKey false (chPage (chanOfCluster k q)) o) =
      smGet d s.held (regKey false (chPage (chanOfCluster k q)) o) := by
    refine forUpTo_inv_lt (P := fun t : State => smGet d t.held _ = smGet d s.held _) rfl fun i hi t ht => ?_
    rw [held_channelEdge, smGet_smDrop, if_neg]
    · exact ht
    · rw [page, decide_eq_true_eq]
      intro e
      have := chanOfCluster_inj k q hq i (by omega) (chPage_inj chanOfCluster_lt chanOfCluster_lt e)
      omega
  unfold inForce
  rw [held, rdReg_of_bankRegs (bankRegs_clusterEdges k q s) _ ho]

/-! ### The streams of a cluster at its boundary -/

theorem channelEdge_stays_idle {c : Nat} {s : State} (idle : (chan s c).stream = .idle) (no : bit (rdReg s (chPage c) 0x240) 0 = false) :
    (chan (channelEdge c s) c).stream = .idle := by
  have none : (chan (streamChange c (inForce s (chPage c) 0x240) (dropped c s)) c).stream = .idle := by
    have run : bit (rdReg (dropped c s) (chPage c) 0x240) 0 = false := (congrArg (bit · 0) (rdReg_dropped c s)).trans no
    have before : (chan (dropped c s) c).stream = .idle := (stream_of_side (dropped_keeps c s).1).trans idle
    unfold streamChange
    simp only [run, Bool.false_and, Bool.false_eq_true, if_false]
    split
    · simp [stopStream]
    · simp [before]
  have settled := (stream_of_side (settings_side (c := c) (s := s) rfl)).trans none
  exact (stream_of_side (channelEdge_idle settled)).trans settled

theorem clusterStreams_idle {k : Nat} {s : State} (h : ∀ q, q < 64 → (chan s (chanOfCluster k q)).stream = .idle ∧ bit (rdReg s (chPage (chanOfCluster k q)) 0x240) 0 = false) :
    clusterStreams (clusterEdges k 64 s) k = false := by
  refine List.any_eq_false.2 fun q hq => ?_
  have lt : q < 64 := List.mem_range.1 hq
  obtain ⟨at_, before⟩ := chan_clusterEdges k lt s
  have no := rdReg_of_bankRegs (bankRegs_clusterEdges k q s) (chPage (chanOfCluster k q)) (o := 0x240) rfl
  rw [at_, channelEdge_stays_idle ((congrArg Chan.stream before).trans (h q lt).1) (by rw [no]; exact (h q lt).2)]
  decide

/-- A stream that goes on, its RUN in force and in the Canvas. -/
def GoesOn (s : State) (c : Nat) : Prop := (chan s c).stream = .running ∧ (chan s c).stopDue = false ∧ (chan s c).last = 0 ∧
  (chan s c).runToggled = false ∧ bit (rdReg s (chPage c) 0x240) 0 = true ∧ bit (inForce s (chPage c) 0x240) 0 = true

theorem clusterStreams_goes {k q : Nat} {s : State} (hq : q < 64) (h : GoesOn s (chanOfCluster k q)) : clusterStreams (clusterEdges k 64 s) k = true := by
  obtain ⟨running, noStop, noLast, steady, run, force⟩ := h
  obtain ⟨at_, before⟩ := chan_clusterEdges k hq s
  refine List.any_eq_true.2 ⟨q, List.mem_range.2 hq, ?_⟩
  have same := rdReg_of_bankRegs (bankRegs_clusterEdges k q s) (chPage (chanOfCluster k q)) (o := 0x240) rfl
  have edge := channelEdge_runs (c := chanOfCluster k q) (s := clusterEdges k q s) ((congrArg Chan.runToggled before).trans steady)
    (by rw [same, inForce_clusterEdges k hq rfl, run, force]) ((congrArg Chan.stopDue before).trans noStop) (.inl ((congrArg Chan.last before).trans noLast))
  rw [at_, edge, before, running, if_neg (fun e => StreamState.noConfusion e.1)]
  decide

/-! ### The boundary -/

section
variable {k : Nat} {s : State}

theorem boundarySwitches_none (none : s.hang = []) : boundarySwitches k s = s := by
  have next : nextHang s k = Option.none := by
    have slot (i : Nat) : hangSlot s i = {} := by unfold hangSlot; rw [none]; rfl
    simp [nextHang, slot, List.range, List.range.loop]
  unfold boundarySwitches
  split
  · rfl
  · exact forUpTo_inv (P := fun t => t = s) rfl fun i t ht => by rw [ht, next]

theorem calBoundary_none (none : s.calDue = []) : calBoundary k s = s := by
  unfold calBoundary
  rw [none]
  rfl

/-- A boundary with no switch and no exchange due, on the state u that a COPY may have left. -/
theorem boundaryOf_plain (en : (base s k).en = true) (hang : s.hang = []) (cal : s.calDue = []) :
    boundaryOf k s = strokeBoundary k (reach (base s k).next (mayCopyTied k s)) := by
  have copy := copyOnly_mayCopyTied k s
  have bases : base (mayCopyTied k s) k = base s k := by unfold base; rw [congrArg State.bases copy]
  unfold boundaryOf
  rw [en, boundarySwitches_none ((congrArg State.hang copy :).trans hang)]
  simp only [Bool.not_true, Bool.false_eq_true, if_false, bases]
  rw [calBoundary_none]
  exact (congrArg State.calDue copy :).trans cal

end

/-- The state of a boundary in which the count has advanced and the edges of the channels are over. -/
def edged (k : Nat) (u : State) : State := clusterEdges k 64 (advance k (reach (base u k).next u))

theorem strokeBoundary_eq {k : Nat} {u : State} (en : (base u k).en = true) : strokeBoundary k u =
    let w := edged k u
    let x := if bit (rdReg w (clPage k) 0x108) 0 then w else timebaseStop k w
    if (base x k).en then forUpTo 64 x (fun q s => channelStroke (chanOfCluster k q) s)
    else modBase k (fun y => { y with count := (base u k).count, ranEver := (base u k).ranEver, next := (base u k).next }) x := by
  unfold strokeBoundary
  simp only [en]
  rfl

theorem timebase_of_clk {s t : State} (h : clk t = clk s) (k : Nat) : (base t k).en = (base s k).en ∧ (base t k).running = (base s k).running ∧
    (base t k).ranEver = (base s k).ranEver ∧ (base t k).count = (base s k).count ∧ (base t k).next = (base s k).next := by
  have at_ : ({ base t k with marks := [] } : Timebase) = { base s k with marks := [] } := congrFun h k
  simp only [Timebase.mk.injEq] at at_
  grind

/-! ### The three outcomes of a boundary -/

section
variable {k : Nat} {u : State}

theorem edged_clk : clk (edged k u) = clk (advance k (reach (base u k).next u)) := clk_clusterEdges ..

theorem edged_at : (base (edged k u) k).en = (base u k).en ∧ (base (edged k u) k).running = true ∧ (base (edged k u) k).ranEver = true ∧
    (base (edged k u) k).count = (if (base u k).ranEver then (base u k).count + 1 else 0) ∧
    (base (edged k u) k).next = (base u k).next + 8 * period u k := by
  have at_ := timebase_of_clk (edged_clk (k := k) (u := u)) k
  simpa [advance, period] using at_

theorem edged_elsewhere {j : Nat} (h : j ≠ k) : (base (edged k u) j).count = (base u j).count ∧ (base (edged k u) j).next = (base u j).next := by
  obtain ⟨-, -, -, count, next⟩ := timebase_of_clk (edged_clk (k := k) (u := u)) j
  rw [count, next, advance, base_modBase_ne h]
  exact ⟨rfl, rfl⟩

theorem edged_enable : rdReg (edged k u) (clPage k) 0x108 = rdReg u (clPage k) 0x108 := by
  have regs : bankRegs (edged k u) = bankRegs u := by simp [edged, advance]
  exact rdReg_of_bankRegs regs _ rfl

theorem le_now_edged : max u.now (base u k).next ≤ (edged k u).now :=
  le_trans (le_of_eq (by simp [advance, Machine.reach])) (le_now_clusterEdges k 64 _)

/-- The strokes of the channels of a cluster begin. -/
def clusterStrokes (k : Nat) (x : State) : State := forUpTo 64 x (fun q s => channelStroke (chanOfCluster k q) s)

theorem clk_clusterStrokes (x : State) : clk (clusterStrokes k x) = clk x := clk_forUpTo fun _ _ => clk_channelStroke ..
theorem bankRegs_clusterStrokes (x : State) : bankRegs (clusterStrokes k x) = bankRegs x := bankRegs_forUpTo fun _ _ => bankRegs_channelStroke ..
theorem le_now_clusterStrokes (x : State) : x.now ≤ (clusterStrokes k x).now := le_now_forUpTo fun _ _ => le_now_channelStroke ..

theorem strokeBoundary_advances (en : (base u k).en = true) (stay : bit (rdReg u (clPage k) 0x108) 0 = true) :
    strokeBoundary k u = clusterStrokes k (edged k u) := by
  rw [strokeBoundary_eq en]
  simp only [edged_enable, stay, if_true, edged_at.1, en]
  rfl

/-- The timebase with EN put back to 1, the refusal captured. -/
def stopRefused (k : Nat) (w : State) : State :=
  capture (clPage k) fREFUSED 0x108 (base w k).enMaster (modReg (clPage k) 0x108 (fun w => setBit w 0 true) w)

theorem clk_stopRefused (w : State) : clk (stopRefused k w) = clk w := by
  rw [stopRefused, clk_capture, clk_modReg]

theorem strokeBoundary_refuses (en : (base u k).en = true) (stop : bit (rdReg u (clPage k) 0x108) 0 = false)
    (streams : clusterStreams (edged k u) k = true) : strokeBoundary k u = clusterStrokes k (stopRefused k (edged k u)) := by
  have refused : timebaseStop k (edged k u) = stopRefused k (edged k u) := if_pos streams
  have on : (base (stopRefused k (edged k u)) k).en = true := by
    rw [(timebase_of_clk (s := edged k u) (clk_stopRefused _) k).1, edged_at.1, en]
  rw [strokeBoundary_eq en]
  simp only [edged_enable, stop, Bool.false_eq_true, if_false, refused, on, if_true]
  rfl

theorem timebaseStop_stops {w : State} (none : clusterStreams w k = false) :
    clk (timebaseStop k w) = clk (modBase k (fun b => { b with en := false, running := false }) w) := by
  have stops : timebaseStop k w = forUpTo 64 (modBase k (fun b => { b with en := false, running := false }) w) (fun q s => switchAtStop (chanOfCluster k q) s) :=
    if_neg (fun streams => Bool.false_ne_true (none.symm.trans streams))
  rw [stops]
  exact clk_forUpTo fun _ _ => clk_switchAtStop ..

theorem strokeBoundary_stops (en : (base u k).en = true) (stop : bit (rdReg u (clPage k) 0x108) 0 = false) (none : clusterStreams (edged k u) k = false) :
    strokeBoundary k u = modBase k (fun y => { y with count := (base u k).count, ranEver := (base u k).ranEver, next := (base u k).next })
      (timebaseStop k (edged k u)) := by
  have off : (base (timebaseStop k (edged k u)) k).en = false := by
    rw [(timebase_of_clk (timebaseStop_stops none) k).1, base_modBase_same]
  rw [strokeBoundary_eq en]
  simp only [edged_enable, stop, Bool.false_eq_true, if_false, off]

end

section
variable {k : Cl} {s : State} (up : lanesUp s = true) (en : (base s k.val).en = true) (hang : s.hang = []) (cal : s.calDue = [])
include up en hang cal

/-- The boundary takes place on a state u that differs in what a COPY wrote. -/
theorem exec_strokeBoundary : ∃ u, exec (.strokeBoundary k) s = .next (strokeBoundary k.val u) ∧ (∀ j, base u j = base s j) ∧ (∀ c, chan u c = chan s c) ∧
    u.held = s.held ∧ max s.now (base s k.val).next ≤ u.now ∧ ∀ p o, p < 2 ^ 14 → o < 2 ^ 12 → rdReg u p o = rdReg s p o := by
  have copy := copyOnly_mayCopyTied k.val s
  have bases : (mayCopyTied k.val s).bases = s.bases := (congrArg State.bases copy :)
  have now : (mayCopyTied k.val s).now = s.now := (congrArg State.now copy :)
  refine ⟨reach (base s k.val).next (mayCopyTied k.val s), congrArg Host.Outcome.next ((whileLanes_of_up _ up).trans (boundaryOf_plain en hang cal)), ?_, ?_, ?_, ?_, ?_⟩
  · intro j
    rw [base_reach]
    unfold base
    rw [bases]
  · intro c
    rw [chan_reach]
    unfold chan
    rw [copy.chans_eq]
  · exact (congrArg State.held copy :)
  · exact le_of_eq (by rw [← now]; rfl)
  · exact fun p o hp ho => rdReg_mayCopyTied hp ho ..

theorem boundary_advances (stay : bit (rdReg s (clPage k.val) 0x108) 0 = true) :
    ∃ t, exec (.strokeBoundary k) s = .next t ∧ max s.now (base s k.val).next ≤ t.now ∧ (base t k.val).en = true ∧ (base t k.val).running = true ∧
      (base t k.val).ranEver = true ∧ (base t k.val).count = (if (base s k.val).ranEver then (base s k.val).count + 1 else 0) ∧
      (base t k.val).next = (base s k.val).next + 8 * period s k.val ∧
      ∀ j, j ≠ k.val → (base t j).count = (base s j).count ∧ (base t j).next = (base s j).next := by
  obtain ⟨u, hexec, bases, -, -, now, regs⟩ := exec_strokeBoundary up en hang cal
  have page := clPage_lt k.isLt
  have per : period u k.val = period s k.val := by simp only [period, regs _ _ page (show 0x100 < 2 ^ 12 by decide), regs _ _ page (show 0x104 < 2 ^ 12 by decide)]
  rw [strokeBoundary_advances ((congrArg Timebase.en (bases k.val)).trans en) (by rw [regs _ _ page (by decide)]; exact stay)] at hexec
  have clkT (j : Nat) := timebase_of_clk (clk_clusterStrokes (k := k.val) (edged k.val u)) j
  obtain ⟨en', running, ran, count, next⟩ := clkT k.val
  obtain ⟨en2, running2, ran2, count2, next2⟩ := edged_at (k := k.val) (u := u)
  refine ⟨_, hexec, ?_, en'.trans (en2.trans ?_), running.trans running2, ran.trans ran2, count.trans (count2.trans ?_), next.trans (next2.trans ?_), fun j hj => ?_⟩
  · exact (now.trans ((Nat.le_max_left ..).trans le_now_edged)).trans (le_now_clusterStrokes _)
  · rw [bases, en]
  · rw [bases]
  · rw [bases, per]
  · obtain ⟨-, -, -, cj, nj⟩ := clkT j
    obtain ⟨cj2, nj2⟩ := edged_elsewhere (u := u) hj
    exact ⟨cj.trans (cj2.trans (by rw [bases])), nj.trans (nj2.trans (by rw [bases]))⟩

theorem boundary_stops (stop : bit (rdReg s (clPage k.val) 0x108) 0 = false)
    (idle : ∀ q, q < 64 → (chan s (chanOfCluster k.val q)).stream = .idle ∧ bit (rdReg s (chPage (chanOfCluster k.val q)) 0x240) 0 = false) :
    ∃ t, exec (.strokeBoundary k) s = .next t ∧ (base t k.val).en = false ∧ (base t k.val).running = false ∧
      (base t k.val).count = (base s k.val).count ∧ (base t k.val).next = (base s k.val).next ∧
      ∀ j, j ≠ k.val → (base t j).count = (base s j).count ∧ (base t j).next = (base s j).next := by
  obtain ⟨u, hexec, bases, chans, -, -, regs⟩ := exec_strokeBoundary up en hang cal
  have none : clusterStreams (edged k.val u) k.val = false := by
    refine clusterStreams_idle fun q hq => ?_
    obtain ⟨stream, run⟩ := idle q hq
    refine ⟨(congrArg Chan.stream (chans _)).trans stream, ?_⟩
    rw [← run, ← regs _ _ (chPage_lt chanOfCluster_lt) (show 0x240 < 2 ^ 12 by decide)]
    rfl
  rw [strokeBoundary_stops ((congrArg Timebase.en (bases k.val)).trans en) (by rw [regs _ _ (clPage_lt k.isLt) (by decide)]; exact stop) none] at hexec
  have clkT (j : Nat) := timebase_of_clk (timebaseStop_stops none) j
  refine ⟨_, hexec, ?_, ?_, ?_, ?_, fun j hj => ?_⟩
  · rw [base_modBase_same, (clkT k.val).1, base_modBase_same]
  · rw [base_modBase_same, (clkT k.val).2.1, base_modBase_same]
  · rw [base_modBase_same, bases]
  · rw [base_modBase_same, bases]
  · obtain ⟨-, -, -, count, next⟩ := clkT j
    rw [base_modBase_ne hj] at count next ⊢
    obtain ⟨cj, nj⟩ := edged_elsewhere (u := u) hj
    exact ⟨count.trans (cj.trans (by rw [bases])), next.trans (nj.trans (by rw [bases]))⟩

theorem boundary_refuses (stop : bit (rdReg s (clPage k.val) 0x108) 0 = false) (goes : ∃ q, q < 64 ∧ GoesOn s (chanOfCluster k.val q)) :
    ∃ t, exec (.strokeBoundary k) s = .next t ∧ (base t k.val).en = true ∧ bit (rdReg t (clPage k.val) 0x108) 0 = true ∧
      (base t k.val).count = (if (base s k.val).ranEver then (base s k.val).count + 1 else 0) ∧
      ∀ j, j ≠ k.val → (base t j).count = (base s j).count ∧ (base t j).next = (base s j).next := by
  obtain ⟨u, hexec, bases, chans, held, -, regs⟩ := exec_strokeBoundary up en hang cal
  obtain ⟨q, hq, running, noStop, noLast, steady, run, force⟩ := goes
  have page : chPage (chanOfCluster k.val q) < 2 ^ 14 := chPage_lt chanOfCluster_lt
  have streams : clusterStreams (edged k.val u) k.val = true := by
    refine clusterStreams_goes hq ?_
    have x : chan (advance k.val (reach (base u k.val).next u)) (chanOfCluster k.val q) = chan s (chanOfCluster k.val q) := (chans _ :)
    refine ⟨(congrArg Chan.stream x).trans running, (congrArg Chan.stopDue x).trans noStop, (congrArg Chan.last x).trans noLast,
      (congrArg Chan.runToggled x).trans steady, ?_, ?_⟩
    · rw [← run, ← regs _ _ page (show 0x240 < 2 ^ 12 by decide)]
      rfl
    · rw [← force]
      unfold inForce
      rw [← held, ← regs _ _ page (show 0x240 < 2 ^ 12 by decide)]
      rfl
  rw [strokeBoundary_refuses ((congrArg Timebase.en (bases k.val)).trans en) (by rw [regs _ _ (clPage_lt k.isLt) (by decide)]; exact stop) streams] at hexec
  have clkT (j : Nat) := timebase_of_clk (s := edged k.val u) ((clk_clusterStrokes (k := k.val) _).trans (clk_stopRefused (k := k.val) _)) j
  refine ⟨_, hexec, ?_, ?_, ?_, fun j hj => ?_⟩
  · rw [(clkT k.val).1, edged_at.1, bases, en]
  · rw [rdReg_of_bankRegs (bankRegs_clusterStrokes _) _ rfl, stopRefused, rdReg_of_bankRegs (bankRegs_capture ..) _ rfl, rdReg_modReg_same]
    exact bit_setBit_same _ _ (by decide)
  · rw [(clkT k.val).2.2.2.1, edged_at.2.2.2.1, bases]
  · obtain ⟨-, -, -, count, next⟩ := clkT j
    obtain ⟨cj, nj⟩ := edged_elsewhere (u := u) hj
    exact ⟨count.trans (cj.trans (by rw [bases])), next.trans (nj.trans (by rw [bases]))⟩

end

/-- Settles O9: the boundary runs on the state a COPY may have left, the edges of the channels keep the count, and a channel's edge takes
its stream as its settings, stop and LAST say. -/
theorem strokeBoundaryAdvancesTheCount : Obligations.StrokeBoundaryAdvancesTheCount := by
  unfold Obligations.StrokeBoundaryAdvancesTheCount
  refine ⟨fun k s up en hang cal => ⟨boundary_advances up en hang cal, boundary_stops up en hang cal, fun stop goes => ?_⟩, ?_⟩
  · obtain ⟨q, hq, goesOn⟩ := goes
    exact boundary_refuses up en hang cal stop ⟨q, hq, goesOn _ rfl⟩
  · rintro c s _ _ _ _ rfl rfl rfl rfl steady
    refine ⟨fun same => ⟨fun armed noStop last => ?_, fun running noStop last => ?_, channelEdge_stops steady same⟩, channelEdge_cleared steady,
      fun old run idle => ⟨fun ahead last levels func => channelEdge_armed steady old run ahead last levels func, channelEdge_refused steady old run idle⟩⟩
    · rw [channelEdge_runs steady same noStop last, armed]
      simp
    · rw [channelEdge_runs steady same noStop last, running, if_neg (fun e => StreamState.noConfusion e.1)]

end Sys2Proof.Machine
end

-- ==== the formatter ====
section
/-! PROOFS. The symbol a stroke takes, and a channel that starves (spec 01 R30; 03 R98). -/

-- One theorem at a time: elaborating them in parallel takes the memory of many threads.
set_option Elab.async false

namespace Sys2Proof.Machine

/-! ### A symbol is taken -/

/-- What the formatter changes as it takes a symbol: the FIFO, the credits on their way, SRC_ACT; and the stream. -/
def feed (x : Chan) : List Symbol × Nat × Bool × StreamState := (x.fifo, x.creditsBack, x.srcAct, x.stream)

theorem feed_modChan {c : Nat} {f : Chan → Chan} {s u : State} (hu : feed (chan u c) = feed (chan s c))
    (h : ∀ x, feed (f x) = feed x := by intro x; rfl) : feed (chan (modChan c f u) c) = feed (chan s c) := by
  rw [chan_modChan_same, h, hu]

theorem feed_tileMark (c : Nat) (y : Symbol) (s : State) : feed (chan (tileMark c y s) c) = feed (chan s c) := by
  have mismatch (u : State) : chan (tileMismatch c u) c = chan u c := by simp [tileMismatch, markMismatch]
  unfold tileMark compareMarks
  dsimp only
  repeat' split
  all_goals simp [mismatch, feed]

theorem feed_blurStrobe (c : Nat) (f : Word) (st : Stroke) (s : State) : feed (chan (blurStrobe c f st s) c) = feed (chan s c) := by
  unfold blurStrobe
  dsimp only
  split
  · split
    · exact feed_modChan rfl
    · rfl
  · rfl

theorem feed_palStroke (c : Nat) (y : Symbol) (s : State) : feed (chan (palStroke c y s) c) = feed (chan s c) := by
  unfold palStroke
  dsimp only
  split
  · rw [timingError, chan_strmFlag]
    exact feed_modChan (feed_modChan rfl)
  · exact feed_modChan (feed_blurStrobe ..)

theorem feed_takeSymbol {c : Nat} {s : State} {y : Symbol} {ys : List Symbol} (h : (chan s c).fifo = y :: ys) :
    feed (chan (takeSymbol c s) c) = (ys, (chan s c).creditsBack + 1, y.slice, (chan s c).stream) := by
  unfold takeSymbol
  simp only [h]
  have begun (st : Option Stroke) (u : State) : feed (chan (modChan c (fun x => { x with stroke := st }) u) c) = feed (chan u c) := feed_modChan rfl
  repeat' split
  all_goals
    simp only [begun, pmuStroke, feed_palStroke]
    rw [feed_tileMark, chan_wmSample, chan_modChan_same]
    rfl

theorem takeSymbol_empty {c : Nat} {s : State} (h : (chan s c).fifo = []) : takeSymbol c s = starve c s := by
  unfold takeSymbol
  simp only [h]

/-! ### STARVED stays set through a trip -/

/-- STRM_STAT.STARVED of a channel. -/
def starvedFlag (c : Nat) (s : State) : Bool := bit (strmStat c s) 29

@[simp] theorem starvedFlag_modChan (c d : Nat) (f : Chan → Chan) (s : State) : starvedFlag c (modChan d f s) = starvedFlag c s := (rfl)
@[simp] theorem starvedFlag_tick (c : Nat) (s : State) : starvedFlag c (tick s) = starvedFlag c s := (rfl)
@[simp] theorem starvedFlag_reach (c n : Nat) (s : State) : starvedFlag c (reach n s) = starvedFlag c s := (rfl)
@[simp] theorem starvedFlag_timingError (c : Nat) (s : State) : starvedFlag c (timingError c s) = starvedFlag c s := by
  rw [starvedFlag, timingError, strmStat_strmFlag, bit_setBit_ne _ _ (by decide) (by decide) (by decide)]
  rfl
@[simp] theorem starvedFlag_fillSlot (c reg : Nat) (fails : Bool) (s : State) : starvedFlag c (fillSlot c reg fails s) = starvedFlag c s := (rfl)
@[simp] theorem starvedFlag_strobeRegion (c : Nat) (st : Stroke) (t : Nat) (volts : Int) (s : State) :
    starvedFlag c (strobeRegion c st t volts s).2 = starvedFlag c s := by
  unfold strobeRegion
  split <;> rfl
@[simp] theorem starvedFlag_pmuEvent (c : Nat) (s : State) : starvedFlag c (pmuEvent c s) = starvedFlag c s := by
  unfold pmuEvent pmuTriggered
  repeat' split
  · rfl
  · rw [starvedFlag, strmStat_captureAs, starvedFlag]
  · rfl
  · rw [starvedFlag, strmStat_modReg (by decide) (by decide), strmStat_modChan, starvedFlag]
@[simp] theorem starvedFlag_applyEvent (c : Nat) (e : PalEvent) (st : Stroke) (volts : Int) (s : State) :
    starvedFlag c (applyEvent c e st volts s) = starvedFlag c s := by
  unfold applyEvent
  dsimp only
  repeat' split
  all_goals simp
@[simp] theorem starvedFlag_nextEvent (c : Nat) (volts : Int) (strayed : Bool) (s : State) : starvedFlag c (nextEvent c volts strayed s) = starvedFlag c s := by
  unfold nextEvent watchWindow
  dsimp only
  repeat' split
  all_goals simp
@[simp] theorem starvedFlag_eventsBefore (c n : Nat) (s : State) : starvedFlag c (eventsBefore c n s) = starvedFlag c s := by
  induction n generalizing s with
  | zero => rfl
  | succ n ih =>
    unfold eventsBefore
    repeat' split
    all_goals simp [ih]

theorem starvedFlag_trip (c cause key : Nat) (s : State) : starvedFlag c (trip c cause key s) = starvedFlag c s := by
  have ended : starvedFlag c (stopStream c (abortPmu c (eventsBefore c 8 s))) = starvedFlag c s := by
    rw [starvedFlag, strmStat_stopStream, strmStat_abortPmu]
    exact starvedFlag_eventsBefore ..
  unfold trip
  dsimp only
  split
  · rfl
  · rw [starvedFlag, strmStat_captureAs, strmStat_raiseBit, countReg, strmStat_modReg (by decide) (by decide), strmStat_modChan]
    exact ended

/-! ### A channel that starves -/

/-- The state in which STARVED is set and captured, and the channel is to trip. -/
def starving (c : Nat) (s : State) : State :=
  captureAs (palPage (laneOf c)) fEVENT (0x740 + 4 * (c % 8)) (c % 8) 1 fEVENT 2 c
    (strmFlag c 29 0 (modChan c (fun x => { x with stroke := some (starvedStroke c s) }) (tick s)))

theorem starve_starving (c : Nat) (s : State) : starve c s = stopStream c (trip c 8 c (starving c s)) := starve_eq c s

theorem chan_starving (c : Nat) (s : State) : chan (starving c s) c = { chan s c with stroke := some (starvedStroke c s) } := by
  simp [starving]

theorem starvedFlag_starve (c : Nat) (s : State) : starvedFlag c (starve c s) = true := by
  have set : starvedFlag c (starving c s) = true := by
    rw [starvedFlag, starving, strmStat_captureAs, strmStat_strmFlag]
    exact bit_setBit_same _ _ (by decide)
  rw [starve_starving, starvedFlag, strmStat_stopStream]
  exact (starvedFlag_trip c 8 c (starving c s)).trans set

theorem safeFunc_cases (c : Nat) (s : State) : safeFunc c s = .hiz ∨ safeFunc c s = .park := by
  unfold safeFunc
  split
  · exact .inr rfl
  · exact .inl rfl

theorem func_trip {c : Nat} {s : State} (cause key : Nat) (hc : c < 512) (free : (chan s c).held = false) :
    (chan (trip c cause key s) c).func = .hiz ∨ (chan (trip c cause key s) c).func = .park := by
  rw [chan_trip cause key hc free]
  exact safeFunc_cases c s

/-- A running stream that ends in a trip leaves its lane to be told; one of a channel held before still runs. -/
theorem stopDue_trip {c : Nat} {s : State} (cause key : Nat) (hc : c < 512) (running : (chan s c).stream = .running) :
    ((chan (trip c cause key s) c).stopOnWay || (chan (trip c cause key s) c).stream != .idle) = true := by
  cases held : (chan s c).held with
  | true =>
    rw [trip_of_held cause key held, chan_setChan_same, running]
    exact Bool.or_true _
  | false =>
    have before : (chan (abortPmu c (eventsBefore c 8 s)) c).stream = .running :=
      (stream_of_side ((streamSide_abortPmu c _).trans (streamSide_of_offStroke (offStroke_eventsBefore c 8 s)))).trans running
    have told : (chan (stopped c s) c).stopOnWay = true := by
      rw [stopped, chan_stopStream, before]
      exact Bool.or_true _
    rw [chan_trip cause key hc held]
    exact Bool.or_eq_true_iff.2 (.inl told)

theorem channelStroke_runs {c : Nat} {s : State} (running : (chan s c).stream = .running) : channelStroke c s = takeSymbol c s := if_pos running

/-- What a trip and the end of the stream leave of a channel whose stream ran. -/
theorem tripped_stops {c : Nat} {u : State} (hc : c < 512) (running : (chan u c).stream = .running) :
    let x := chan (stopStream c (trip c 8 c u)) c
    x.stream = .idle ∧ x.held = true ∧ ((chan u c).held = false → x.func = .hiz ∨ x.func = .park) ∧ x.stopOnWay = true := by
  have held := held_trip c 8 c u
  have told := stopDue_trip 8 c hc running
  have safe (h : (chan u c).held = false) := func_trip 8 c hc h
  rw [chan_stopStream]
  generalize chan (trip c 8 c u) c = x at held told safe ⊢
  exact ⟨rfl, held, safe, told⟩

theorem starve_stops {c : Nat} {s : State} (hc : c < 512) (running : (chan s c).stream = .running) :
    (chan (starve c s) c).stream = .idle ∧ (chan (starve c s) c).held = true ∧
      ((chan s c).held = false → (chan (starve c s) c).func = .hiz ∨ (chan (starve c s) c).func = .park) ∧ (chan (starve c s) c).stopOnWay = true := by
  have same := chan_starving c s
  have runs : (chan (starving c s) c).stream = .running := by rw [same]; exact running
  have free : (chan (starving c s) c).held = (chan s c).held := by rw [same]
  have stops := tripped_stops hc runs
  rw [free] at stops
  rw [starve_starving]
  exact stops

/-- Settles O11: a stroke of a running stream takes the oldest symbol, or starves the channel, which trips and stops. -/
theorem formatterTakesOneSymbolPerStroke : Obligations.FormatterTakesOneSymbolPerStroke := by
  unfold Obligations.FormatterTakesOneSymbolPerStroke
  intro c s
  refine ⟨fun y ys running fifo => ?_, fun running fifo => ?_, fun idle => if_neg idle⟩
  · rw [channelStroke_runs running]
    have taken := feed_takeSymbol fifo
    simp only [feed, Prod.mk.injEq] at taken
    obtain ⟨left, credit, source, stream⟩ := taken
    exact ⟨left, credit, source, stream.trans running⟩
  · rw [channelStroke_runs running, takeSymbol_empty fifo]
    obtain ⟨stream, held, safe, told⟩ := starve_stops c.isLt running
    exact ⟨stream, held, safe, told, starvedFlag_starve c.val s⟩

end Sys2Proof.Machine
end

-- ==== the end of a function switch ====
section
/-! PROOFS. The steps of a function switch: the mode-change interval, the ramp, B0 and B1 (spec 02 R46, R59). -/

-- One theorem at a time: elaborating them in parallel takes the memory of many threads.
set_option Elab.async false

namespace Sys2Proof.Machine

/-! ### By their timers -/

section
variable {c : Ch} {s : State} (up : domLost s (tileOf c.val) = false)
include up

theorem exec_modeChangeIntervalEnd {e : Nat} (h : (chan s c.val).phase = .modeChange e) :
    exec (.modeChangeIntervalEnd c) s = .next (enterFunction c.val (reach e s)) := by
  refine congrArg Host.Outcome.next ((whileUp_of_up _ up).trans ?_)
  unfold modeIntervalEnd
  rw [h]

theorem exec_functionSwitchTimerExpiry {e : Nat} (h : (chan s c.val).phase = .holdTimer e) :
    exec (.functionSwitchTimerExpiry c) s = .next (enterFunction c.val (reach e s)) := by
  refine congrArg Host.Outcome.next ((whileUp_of_up _ up).trans ?_)
  unfold switchTimerEnd
  rw [h]

theorem exec_pmuRampEnd (h : (chan s c.val).phase = .ramp) : exec (.pmuRampEnd c) s =
    .next (rampOver c.val false (reach ((chan s c.val).rampAt + (200 * dl4 s c.val - (chan s c.val).rampFrom).natAbs) s)) := by
  have goal : forceGoal s c.val = 200 * dl4 s c.val := by
    unfold forceGoal
    simp [h]
  refine congrArg Host.Outcome.next ((whileUp_of_up _ up).trans ?_)
  unfold rampEnd
  rw [h, forceRampEnd, goal]

end

/-- The channel at B1, steady in the function Canvas holds and held no longer. -/
def enteredChan (c : Nat) (s : State) : Chan :=
  let x := chan s c
  { x with func := funcOf (rdReg s (chPage c) 0x100), phase := .steady, drive := none, window := none, held := false,
           cause := setBit x.cause 31 (bit x.cause 31 && !x.held) }

theorem startForce_setChan (c : Nat) (x : Chan) (s u : State) (h : u = setChan c x s) :
    startForce c u = setChan c { x with rampFrom := 200 * freeContact u, rampAt := u.now } { u with free := u.free + 1 } := by
  have same : chan (tick u) c = x := by rw [h]; exact chan_setChan_same ..
  unfold startForce modChan
  rw [same]
  rfl

theorem enterFunction_eq (c : Nat) (s u : State) (h : u = setChan c (enteredChan c s) s) : enterFunction c s =
    (if (chan s c).held then raiseBit (tqPage (tileOf c)) 1 else id) (raiseBit (chPage c) 4
      (if pmuOn u c && fvMode (pmode u c) then
        setChan c { enteredChan c s with rampFrom := 200 * freeContact u, rampAt := u.now } { u with free := u.free + 1 } else u)) := by
  have split_ : enterFunction c s =
      let v := setChan c (enteredChan c s) s
      let w := raiseBit (chPage c) 4 (if pmuOn v c && fvMode (pmode v c) then startForce c v else v)
      if (chan s c).held then raiseBit (tqPage (tileOf c)) 1 w else w := rfl
  rw [← startForce_setChan c _ s u h, split_, ← h]
  dsimp only
  split <;> rfl

/-! ### At a boundary -/

/-- The phase of a switch. -/
def phaseOf (c : Nat) (s : State) : Phase := (chan s c).phase

@[simp] theorem phaseOf_modChan_same (c : Nat) (f : Chan → Chan) (s : State) : phaseOf c (modChan c f s) = (f (chan s c)).phase := by
  simp [phaseOf]

theorem phaseOf_modChan {c d : Nat} {f : Chan → Chan} {s : State} (h : ∀ x, (f x).phase = x.phase := by intro x; rfl) :
    phaseOf c (modChan d f s) = phaseOf c s := by
  by_cases e : c = d
  · subst e
    rw [phaseOf_modChan_same, h, phaseOf]
  · rw [phaseOf, chan_modChan_ne e, phaseOf]

theorem phaseOf_stopStream (c d : Nat) (s : State) : phaseOf c (stopStream d s) = phaseOf c s := phaseOf_modChan

theorem phaseOf_checkMark (c : Nat) (y : TileMark) (stops : Bool) (s : State) : phaseOf c (checkMark y stops s) = phaseOf c s := by
  have mismatch (d : Nat) (u : State) : phaseOf c (markMismatch d u) = phaseOf c u := by simp [phaseOf, markMismatch]
  have tables (u : State) (m : SMap MarkTable) : phaseOf c { u with tables := m } = phaseOf c u := rfl
  have flag (p o i : Nat) (f : Word → Word) (u : State) : phaseOf c (raiseBit p i (modReg p o f u)) = phaseOf c u := by simp [phaseOf]
  have stop (d : Nat) (u : State) : phaseOf c (modChan d (fun x => { x with markStop := true }) u) = phaseOf c u := phaseOf_modChan
  unfold checkMark
  dsimp only
  repeat' split
  all_goals simp [mismatch, tables, flag, stop]

theorem phaseOf_settleMarks (c d : Nat) (s : State) : phaseOf c (settleMarks d s) = phaseOf c s := by
  unfold settleMarks
  exact Eq.trans phaseOf_modChan
    (forEach_inv (P := fun t => phaseOf c t = phaseOf c s) (by simp [phaseOf]) fun y t ht => (phaseOf_checkMark ..).trans ht)

@[simp] theorem phaseOf_tables (c : Nat) (m : SMap MarkTable) (s : State) : phaseOf c { s with tables := m } = phaseOf c s := (rfl)
@[simp] theorem phaseOf_modLane (c l : Nat) (f : Lane → Lane) (s : State) : phaseOf c (modLane l f s) = phaseOf c s := (rfl)

theorem phaseOf_strmFlag (c d b irq : Nat) (s : State) : phaseOf c (strmFlag d b irq s) = phaseOf c s := by rw [phaseOf, chan_strmFlag, phaseOf]

theorem phaseOf_setupStream (c : Nat) (s : State) : phaseOf c (setupStream c s) = phaseOf c s := by
  unfold setupStream
  dsimp only
  split
  · rw [phaseOf_strmFlag]
  · rw [phaseOf_tables, phaseOf_modLane]
    exact Eq.trans phaseOf_modChan (phaseOf_settleMarks ..)

theorem phaseOf_streamChange (c : Nat) (old : Word) (s : State) : phaseOf c (streamChange c old s) = phaseOf c s := by
  have toggled (u : State) : phaseOf c (modChan c (fun x => { x with runToggled := false }) u) = phaseOf c u := phaseOf_modChan
  unfold streamChange
  dsimp only
  repeat' split
  all_goals simp only [phaseOf_setupStream, phaseOf_stopStream, toggled]

theorem phaseOf_pmuChange (c : Nat) (was : Forced) (s : State) : phaseOf c (pmuChange c was s) = phaseOf c s := by
  obtain ⟨u, hu, eq⟩ := pmuChange_cases c was s
  have begun : phaseOf c u = phaseOf c s := by
    obtain rfl | rfl := hu
    · rfl
    · exact phaseOf_modChan (s := tick s)
  obtain eq | eq := eq
  · rw [eq, begun]
  · rw [eq]
    exact Eq.trans phaseOf_modChan begun

theorem phaseOf_streamAtBoundary (c : Nat) (s : State) : phaseOf c (streamAtBoundary c s) = phaseOf c s := by
  rw [streamAtBoundary_eq, endedStream]
  have begun (u : State) (n : Nat) : phaseOf c (modChan c (started n) u) = phaseOf c u := phaseOf_modChan fun x => by
    unfold started
    split <;> rfl
  rw [begun]
  split
  · exact phaseOf_stopStream ..
  · rfl

/-- The state at a boundary in which the settings and the stream have been dealt with, and the switch goes on. -/
def beforeSwitch (c : Nat) (s : State) : State := streamAtBoundary c (takeEffect c true (strokeEnded c s))

theorem bankRegs_beforeSwitch (c : Nat) (s : State) : bankRegs (beforeSwitch c s) = bankRegs s := by
  simp [beforeSwitch, bankRegs_strokeEnded]

theorem le_now_beforeSwitch (c : Nat) (s : State) : s.now ≤ (beforeSwitch c s).now := by
  rw [beforeSwitch, now_of_still ((still_streamAtBoundary c _).trans (still_takeEffect ..))]
  exact le_now_endStroke c s

theorem channelEdge_moving {c : Nat} {s : State} (moving : phaseOf c s ≠ .steady) : channelEdge c s = switchAtBoundary c (beforeSwitch c s) := by
  have phase : phaseOf c (strokeEnded c s) = phaseOf c s := (offStroke_keeps (offStroke_strokeEnded c s)).2.2.1
  rw [channelEdge_eq]
  exact if_neg (fun h => moving (phase.symm.trans h))

section
variable {c : Nat} {s : State} (same : bit (inForce s (chPage c) 0x100) 8 = bit (rdReg s (chPage c) 0x100) 8)
include same

/-- A switch that is under way goes on through the settings: MODE is what is in force. -/
theorem phaseOf_beforeSwitch (moving : phaseOf c s ≠ .steady) : phaseOf c (beforeSwitch c s) = phaseOf c s := by
  have before : phaseOf c (streamChange c (inForce s (chPage c) 0x240) (dropped c s)) = phaseOf c s :=
    (phaseOf_streamChange ..).trans (dropped_keeps c s).2.2
  rw [beforeSwitch, phaseOf_streamAtBoundary, takeEffect_eq, functionChange]
  generalize streamChange c (inForce s (chPage c) 0x240) (dropped c s) = u at before
  rw [if_neg (fun ne => ne same), if_neg (fun h => moving (before.symm.trans h.2.1)), phaseOf_pmuChange, before]

theorem channelEdge_toB0 (h : phaseOf c s = .toB0) : ∃ b, s.now ≤ b ∧ phaseOf c (channelEdge c s) = .hold b 2 ∧ Shut (chan (channelEdge c s) c) := by
  have moving : phaseOf c s ≠ .steady := by rw [h]; exact Phase.noConfusion
  have at_ : (chan (beforeSwitch c s) c).phase = .toB0 := (phaseOf_beforeSwitch same moving).trans h
  have hold : switchAtBoundary c (beforeSwitch c s) = enterHold c (.hold (beforeSwitch c s).now 2) (beforeSwitch c s) := by
    unfold switchAtBoundary
    rw [at_]
  rw [channelEdge_moving moving, hold]
  exact ⟨_, le_now_beforeSwitch c s, phaseOf_modChan_same .., shut_enterHold ..⟩

theorem channelEdge_hold {b n : Nat} (h : phaseOf c s = .hold b n) (more : 2 ≤ n) : phaseOf c (channelEdge c s) = .hold b (n - 1) := by
  have moving : phaseOf c s ≠ .steady := by rw [h]; exact Phase.noConfusion
  have at_ : (chan (beforeSwitch c s) c).phase = .hold b n := (phaseOf_beforeSwitch same moving).trans h
  rw [channelEdge_moving moving]
  unfold switchAtBoundary
  rw [at_]
  dsimp only
  rw [if_neg (by omega)]
  exact phaseOf_modChan_same ..

theorem channelEdge_b1 {b n : Nat} (h : phaseOf c s = .hold b n) (last : n ≤ 1) : channelEdge c s = enterFunction c (beforeSwitch c s) := by
  have moving : phaseOf c s ≠ .steady := by rw [h]; exact Phase.noConfusion
  have at_ : (chan (beforeSwitch c s) c).phase = .hold b n := (phaseOf_beforeSwitch same moving).trans h
  rw [channelEdge_moving moving]
  unfold switchAtBoundary
  rw [at_]
  dsimp only
  rw [if_pos last]

end

theorem chan_enterFunction (c : Nat) (s : State) : let x := chan (enterFunction c s) c
    x.phase = .steady ∧ x.func = funcOf (rdReg s (chPage c) 0x100) ∧ x.drive = none ∧ x.window = none ∧ x.held = false := by
  unfold enterFunction
  dsimp only
  repeat' split
  all_goals simp [startForce]

theorem switched_enterFunction {c : Nat} (hc : c < 512) (s : State) : bit (rdReg (enterFunction c s) (chPage c) 0x010) 4 = true := by
  unfold enterFunction
  extract_lets x wasHeld u v w
  split
  · exact bit_raiseBit_of_set (bit_raiseBit_same _ (by decide) _) (tqPage_lt (tileOf_lt hc)) (chPage_lt hc)
  · exact bit_raiseBit_same _ (by decide) _

/-- Settles O5: the timers end in the function Canvas holds, and a boundary takes the switch from A over B0 to B1. -/
theorem functionSwitchEndsInTheCanvasFunction : Obligations.FunctionSwitchEndsInTheCanvasFunction := by
  unfold Obligations.FunctionSwitchEndsInTheCanvasFunction
  intro c s up
  refine ⟨?_, fun ramp => ?_, fun same => ?_⟩
  · rintro e phase _ rfl u hu
    have entered := enterFunction_eq c.val (reach e s) u hu
    obtain mode | timer := phase
    · rw [if_pos mode, exec_modeChangeIntervalEnd up mode, entered]
      rfl
    · rw [if_neg (fun mode => Phase.noConfusion (timer.symm.trans mode)), exec_functionSwitchTimerExpiry up timer, entered]
      rfl
  · rintro _ rfl
    rw [exec_pmuRampEnd up ramp]
    exact ⟨fun run => congrArg Host.Outcome.next ((if_pos run).trans (if_neg Bool.false_ne_true)),
      fun stand => congrArg Host.Outcome.next (if_neg (fun run => Bool.false_ne_true (stand.symm.trans run)))⟩
  · rintro _ rfl
    refine ⟨channelEdge_toB0 same, fun b n hold => channelEdge_hold same hold, fun b n hold last => ?_⟩
    rw [channelEdge_b1 same hold last, ← rdReg_of_bankRegs (bankRegs_beforeSwitch c.val s) (chPage c.val) (o := 0x100) rfl]
    obtain ⟨phase, func, drive, window, held⟩ := chan_enterFunction c.val (beforeSwitch c.val s)
    exact ⟨phase, func, drive, window, held, switched_enterFunction c.isLt _⟩

end Sys2Proof.Machine
end

-- ==== threads and the address history ====
section
/-! PROOFS. A thread's first EN, and the lookup of an address (spec 06 R165, R179). -/

-- One theorem at a time: elaborating them in parallel takes the memory of many threads.
set_option Elab.async false

namespace Sys2Proof.Machine

/-! ### Loops that act once, while a condition holds -/

theorem forUpTo_idle {σ : Type} {P : σ → Prop} {n : Nat} {f : Nat → σ → σ} {x : σ} (hx : P x) (h : ∀ j < n, ∀ y, P y → f j y = y) : forUpTo n x f = x := by
  induction n with
  | zero => rfl
  | succ n ih => rw [forUpTo, ih fun j hj => h j (by omega), h n (by omega) x hx]

theorem forUpTo_once_while {σ : Type} {P : σ → Prop} {n i : Nat} (hi : i < n) {f : Nat → σ → σ} {x : σ} (hx : P x) (hfx : P (f i x))
    (h : ∀ j < n, j ≠ i → ∀ y, P y → f j y = y) : forUpTo n x f = f i x := by
  have before (m : Nat) (hm : m ≤ i) : forUpTo m x f = x := forUpTo_idle hx fun j hj => h j (by omega) (by omega)
  induction n with
  | zero => omega
  | succ n ih =>
    obtain e | lt : i = n ∨ i < n := by omega
    · rw [forUpTo, e, before n (by omega)]
    · rw [forUpTo, ih lt (fun j hj => h j (by omega)), h n (by omega) (by omega) _ hfx]

/-! ### The enable of a thread -/

theorem lnPage_ne_devPage {l : Nat} (hl : l < 64) : lnPage l ≠ devPage := by
  intro e
  have at_ := pageAt_lnPage hl
  rw [e] at at_
  exact absurd at_ (by decide +revert)

/-- What a write of LN_THR_CTL does for one thread. -/
def threadStep (l : Nat) (v : Word) (t : Nat) (s : State) : State :=
  if bit v t && !bit (rdReg s devPage 0x700) 29 && !(lane s l).started.contains t then
    modEng (512 + 8 * l + t) (fun e => if e.run = .off then { e with run := .running, mode := 1, pc := 0 } else e)
      (modLane l (fun x => { x with started := x.started ++ [t] }) s)
  else s

theorem thrCtlWrite_eq (l : Nat) (v : Word) (s : State) :
    thrCtlWrite l v s = forUpTo 8 (wrReg (lnPage l) 0x700 (w32 (v.toNat % 2 ^ 16)) s) (threadStep l v) := rfl

theorem threadStep_idle {l t : Nat} {v : Word} {s : State} (h : bit v t = true → t ∈ (lane s l).started) : threadStep l v t s = s := by
  refine if_neg fun starts => ?_
  simp only [Bool.and_eq_true, Bool.not_eq_true'] at starts
  have := h starts.1.1
  simp_all

section
variable {l : Ln} {m : Master} {t : Fin 8} {s : State} (takes : Takes s (lnPage l.val) m)
include takes

/-- LN_THR_CTL written, where every thread it enables has started. -/
theorem thrCtl_started {v : Word} (h : ∀ u : Fin 8, bit v u.val = true → u.val ∈ (lane s l.val).started) :
    accessWrite (lnPage l.val) 0x700 m v s = wrReg (lnPage l.val) 0x700 (w32 (v.toNat % 2 ^ 16)) s := by
  rw [accessWrite_thrCtl l.isLt v takes, thrCtlWrite_eq]
  refine forUpTo_idle (P := fun y => (lane y l.val).started = (lane s l.val).started) rfl fun j hj y hy => threadStep_idle fun en => ?_
  rw [hy]
  exact h ⟨j, hj⟩ en

variable (others : ∀ u : Fin 8, bit (rdReg s (lnPage l.val) 0x700) u.val = true → u.val ∈ (lane s l.val).started)
include others

omit takes in
theorem enabled_started {b : Bool} {u : Fin 8} (ne : u ≠ t) (h : bit (setBit (rdReg s (lnPage l.val) 0x700) t.val b) u.val = true) :
    u.val ∈ (lane s l.val).started := by
  rw [bit_setBit_ne _ _ (by omega) (by omega) (fun e => ne (Fin.ext e))] at h
  exact others u h

theorem exec_threadEnable_started (mem : t.val ∈ (lane s l.val).started) : exec (.threadEnable l m t) s =
    .next (wrReg (lnPage l.val) 0x700 (w32 ((setBit (rdReg s (lnPage l.val) 0x700) t.val true).toNat % 2 ^ 16)) s) := by
  refine congrArg Host.Outcome.next (thrCtl_started takes fun u en => ?_)
  by_cases e : u = t
  · rw [e]; exact mem
  · exact enabled_started others e en

theorem exec_threadDisable : exec (.threadDisable l m t) s =
    .next (wrReg (lnPage l.val) 0x700 (w32 ((setBit (rdReg s (lnPage l.val) 0x700) t.val false).toNat % 2 ^ 16)) s) := by
  refine congrArg Host.Outcome.next (thrCtl_started takes fun u en => ?_)
  by_cases e : u = t
  · rw [e, bit_setBit_same _ _ (by omega)] at en
    exact absurd en (by decide)
  · exact enabled_started others e en

omit others in
/-- In Service-Safe no thread starts (18 R456). -/
theorem exec_threadEnable_safe (safe : bit (rdReg s devPage 0x700) 29 = true) : exec (.threadEnable l m t) s =
    .next (wrReg (lnPage l.val) 0x700 (w32 ((setBit (rdReg s (lnPage l.val) 0x700) t.val true).toNat % 2 ^ 16)) s) := by
  refine congrArg Host.Outcome.next ((accessWrite_thrCtl l.isLt _ takes).trans ?_)
  rw [thrCtlWrite_eq]
  refine forUpTo_idle (P := fun y => bit (rdReg y devPage 0x700) 29 = true) ?_ fun j hj y hy => if_neg (by simp [hy])
  rw [rdReg_wrReg_ne (lnPage_lt l.isLt) devPage_lt (by decide) (by decide) fun e => lnPage_ne_devPage l.isLt e.1]
  exact safe

theorem exec_threadEnable_first (new : t.val ∉ (lane s l.val).started) (normal : bit (rdReg s devPage 0x700) 29 = false)
    (off : (eng s (512 + 8 * l.val + t.val)).run = .off) : exec (.threadEnable l m t) s =
      .next (setEng (512 + 8 * l.val + t.val) { eng s (512 + 8 * l.val + t.val) with run := .running, mode := 1, pc := 0 }
        (modLane l.val (fun x => { x with started := x.started ++ [t.val] })
          (wrReg (lnPage l.val) 0x700 (w32 ((setBit (rdReg s (lnPage l.val) 0x700) t.val true).toNat % 2 ^ 16)) s))) := by
  refine congrArg Host.Outcome.next ((accessWrite_thrCtl l.isLt _ takes).trans ?_)
  generalize hw : setBit (rdReg s (lnPage l.val) 0x700) t.val true = w
  rw [thrCtlWrite_eq]
  have en : bit w t.val = true := by rw [← hw]; exact bit_setBit_same _ _ (by omega)
  have rest {u : Fin 8} (ne : u ≠ t) (h : bit w u.val = true) : u.val ∈ (lane s l.val).started := enabled_started others (b := true) ne (by rwa [hw])
  generalize hu : wrReg (lnPage l.val) 0x700 (w32 (w.toNat % 2 ^ 16)) s = u
  have same : lane u l.val = lane s l.val := by rw [← hu]; rfl
  have running : eng u (512 + 8 * l.val + t.val) = eng s (512 + 8 * l.val + t.val) := by rw [← hu]; rfl
  have dev : bit (rdReg u devPage 0x700) 29 = false := by
    rw [← hu, rdReg_wrReg_ne (lnPage_lt l.isLt) devPage_lt (by decide) (by decide) fun e => lnPage_ne_devPage l.isLt e.1]
    exact normal
  have acts : threadStep l.val w t.val u = setEng (512 + 8 * l.val + t.val) { eng s (512 + 8 * l.val + t.val) with run := .running, mode := 1, pc := 0 }
      (modLane l.val (fun x => { x with started := x.started ++ [t.val] }) u) := by
    unfold threadStep
    rw [if_pos (by simp [en, dev, same, new]), modEng, eng_modLane, running, if_pos off]
  rw [forUpTo_once_while (P := fun y => ∀ z : Nat, z ∈ (lane s l.val).started → z ∈ (lane y l.val).started) t.isLt ?_ ?_ ?_, acts]
  · intro z hz
    rwa [same]
  · intro z hz
    rw [acts, lane_setEng, lane_modLane_same, same]
    exact List.mem_append_left _ hz
  · exact fun j hj ne y hy => threadStep_idle fun h => hy _ (rest (u := ⟨j, hj⟩) (fun e => ne (congrArg Fin.val e)) h)

end

/-! ### The lookup of an address -/

section
variable {c : Ch} {s : State} {u : Lookup} (up : lanesUp s = true) (one : (lane s (laneOf c.val)).lookups = [u]) (ch : u.ch = c.val) (new : u.found = false)
  (due : resultsDue s (laneOf c.val) u.result.count = true)
include one due

omit one in
/-- While results of the stroke are still to come, no event forms. -/
theorem formEvents_waits {v : State} {x : Lookup} (count : x.result.count = u.result.count) (hl : (lane v (laneOf c.val)).lookups = [x])
    (chans : ∀ d, chan v d = chan s d) : formEvents (laneOf c.val) 4096 v = v := by
  have waits : resultsDue v (laneOf c.val) x.result.count = true := by
    rw [count, ← due]
    unfold resultsDue
    simp only [chans]
  unfold formEvents
  rw [hl]
  simp [firstStroke, waits]

include up ch new

theorem exec_addressHistoryLookup {a : Option (BitVec 56)} (ha : historyAt s (laneOf c.val) u.result.count = a) : exec (.addressHistoryLookup c) s =
    .next ((if a.isNone then fun v => raiseBit (lnPage (laneOf c.val)) 0 (countReg (lnPage (laneOf c.val)) 0x708 1 v) else id)
      (setLane (laneOf c.val) { lane s (laneOf c.val) with lookups := [{ u with addr := a, found := true }] } s)) := by
  refine congrArg Host.Outcome.next ((whileLanes_of_up _ up).trans ?_)
  unfold historyLookup
  have finds : (lane s (laneOf c.val)).lookups.find? (fun u => u.ch == c.val && !u.found) = some u := by simp [one, ch, new]
  have marked : modLane (laneOf c.val) (fun x => { x with lookups := markFound c.val a x.lookups }) s =
      setLane (laneOf c.val) { lane s (laneOf c.val) with lookups := [{ u with addr := a, found := true }] } s := by
    simp [modLane, one, markFound, ch, new]
  simp only [finds, ha, marked]
  cases a with
  | none => exact formEvents_waits due (x := { u with addr := none, found := true }) rfl (by simp) (by simp)
  | some a => exact formEvents_waits due (x := { u with addr := some a, found := true }) rfl (by simp) (by simp)

end

/-- Settles O25. -/
theorem threadsStartOnceAndLookupsFindTheirAddress : Obligations.ThreadsStartOnceAndLookupsFindTheirAddress := by
  unfold Obligations.ThreadsStartOnceAndLookupsFindTheirAddress
  refine ⟨?_, ?_⟩
  · rintro l m t s _ _ takes rfl rfl others
    exact ⟨exec_threadEnable_started takes others, fun _ safe => exec_threadEnable_safe takes safe,
      exec_threadEnable_first takes others, exec_threadDisable takes others⟩
  · rintro c s u _ rfl up one ch new due _ _ _ rfl rfl rfl
    refine ⟨fun h entry tag => exec_addressHistoryLookup up one ch new due (a := some h.addr) ?_,
      fun none => exec_addressHistoryLookup up one ch new due (a := Option.none) ?_⟩
    · simp only [historyAt, entry, tag, if_true]
    · unfold historyAt
      dsimp only
      split
      · next h entry => exact if_neg (none h entry)
      · rfl

end Sys2Proof.Machine
end

-- ==== units, stores and the engine control unit ====
section
/-! PROOFS. What an engine's operations in flight bring: results, stores, delays, the engine control unit and the data queue (spec 05 R138,
R142-R147; 08 R227-R229; 09 R233-R236). -/

-- One theorem at a time: elaborating them in parallel takes the memory of many threads.
set_option Elab.async false

namespace Sys2Proof.Machine

/-- The domain an engine runs in is up. -/
def EngineUp (k : Nat) (s : State) : Prop := if 1024 ≤ k then domLost s 8 = false else lanesUp s = true

theorem whileEngine_of_up {k : Nat} {s : State} (f : State → State) (up : EngineUp k s) : whileEngine k f s = f s := by
  unfold whileEngine
  unfold EngineUp at up
  split at up
  · next h => rw [if_pos h]; exact whileUp_of_up f up
  · next h => rw [if_neg h]; exact whileLanes_of_up f up

/-! ### What a write of memory leaves of an engine -/

/-- An engine that may have lost its reservation. -/
def MayLoseResv (k : Nat) (s t : State) : Prop := ∃ r, eng t k = { eng s k with resv := r }

theorem mayLoseResv_of_engines {s t : State} (k : Nat) (h : t.engines = s.engines) : MayLoseResv k s t := ⟨(eng s k).resv, by unfold eng; rw [h]⟩

theorem MayLoseResv.trans {k : Nat} {s t u : State} (h : MayLoseResv k s t) (g : MayLoseResv k t u) : MayLoseResv k s u := by
  obtain ⟨a, ha⟩ := h
  obtain ⟨b, hb⟩ := g
  exact ⟨b, by rw [hb, ha]⟩

theorem engines_setBytes (a : Nat) (bs : List Byte) (s : State) : (setBytes a bs s).engines = s.engines := by
  induction bs generalizing a s with
  | nil => rfl
  | cons b bs ih => exact (ih _ _).trans (setByte_engines ..)

theorem mayLoseResv_targetWrite (k : Nat) (x : Target) (a : Nat) (bs : List Byte) (s : State) : MayLoseResv k s (targetWrite x a bs s) := by
  have stale : MayLoseResv k s (keepStale x (targetKey x a) bs.length s) := by
    refine mayLoseResv_of_engines k ?_
    unfold keepStale
    split
    · exact forUpTo_inv (P := fun t : State => t.engines = s.engines) rfl fun i t ht => ht
    · rfl
  have resv (u : State) (n m : Nat) : MayLoseResv k u (clearResv n m u) := by
    refine forEach_inv (P := MayLoseResv k u) (mayLoseResv_of_engines k rfl) fun i t ht => ht.trans ?_
    by_cases h : k = i
    · exact ⟨none, by rw [h, eng_modEng_same]⟩
    · exact ⟨(eng t k).resv, by rw [eng_modEng_ne h]⟩
  refine (stale.trans (resv _ (targetKey x a) bs.length)).trans (mayLoseResv_of_engines k ?_)
  exact engines_setBytes ..

theorem eng_memWrite (k a : Nat) (bs : List Byte) (s : State) : MayLoseResv k s (memWrite a bs s) := mayLoseResv_targetWrite ..

/-! ### Results, stores and delays -/

section
variable {e : EngId} {s : State} (up : EngineUp (engKey e) s)
include up

/-- The oldest operation of a unit lands. -/
theorem exec_unitResultWriteback {unit : BitVec 13} {o : Op} {os : List Op} (ops : (eng s (engKey e)).ops = o :: os) (ofUnit : o.unit = unit.toNat)
    (lands : canLand o = true) : exec (.unitResultWriteback e unit) s = .next (setEng (engKey e) (landOp o { eng s (engKey e) with ops := os }) s) := by
  refine congrArg Host.Outcome.next ((whileEngine_of_up _ up).trans ?_)
  have takes : takeOp (fun o => o.unit == unit.toNat && canLand o) [] (eng s (engKey e)).ops = some (o, os) := by
    rw [ops, takeOp]
    simp [ofUnit, lands]
  simp only [writeback, takes]

variable {st : StoreEntry} {sts : List StoreEntry} (stores : (eng s (engKey e)).stores = st :: sts) (own : engPath (engKey e) (targetOf s st.addr) = 0)
include stores own

theorem exec_storeAcknowledge (on : targetOn s (targetOf s st.addr) = true) :
    exec (.storeAcknowledge e) s = .next (settled (engKey e) (popStore (engKey e) (memWrite st.addr st.data s))) := by
  refine congrArg Host.Outcome.next ((whileEngine_of_up _ up).trans ?_)
  obtain ⟨r, hr⟩ := eng_memWrite (engKey e) st.addr st.data s
  have kept : (eng (memWrite st.addr st.data s) (engKey e)).stores = st :: sts := by rw [hr]; exact stores
  simp [storeAck, stores, own, on, storeLeaves, kept]

theorem exec_storeBusError (kind : BusKind) (off : targetOn s (targetOf s st.addr) = false) : exec (.storeBusError e kind) s = .next (
    if takesLate (eng s (engKey e)) then settled (engKey e) (storeFails (engKey e) st.addr 3 (popStore (engKey e) s)) else s) := by
  refine congrArg Host.Outcome.next ((whileEngine_of_up _ up).trans ?_)
  simp [storeErrorArrives, stores, own, off, storeBusError]

end

theorem setEng_setEng (k : Nat) (x y : Engine) (s : State) : setEng k x (setEng k y s) = setEng k x s := by
  unfold setEng
  simp only [smPut_smPut_same]

theorem storeFails_popStore (k a kind : Nat) (s : State) : storeFails k a kind (popStore k s) = setEng k (
    let y : Engine := { eng s k with stores := (eng s k).stores.tail, storesOut := (eng s k).storesOut + 1 }
    if y.run = .stuck then { y with stuckErrs := min (y.stuckErrs + 1) 0xFFFF } else { y with late := y.late ++ [⟨a, kind⟩] }) s := by
  unfold storeFails popStore
  rw [modEng, eng_modEng_same, modEng, setEng_setEng]

/-- A deferred write and a result port of an operation that lands. -/
theorem landOp_single (unit : Nat) (priv : Bool) (sock n : Nat) (v : Wide) (ld : Bool) (x : Engine) :
    landOp ⟨unit, priv, [(sock, v)], none, none, [(n, sock, 0)], ld⟩ x =
      { setPort priv sock v x with g := smPut 0 (setPort priv sock v x).g n (w32 v.toNat) } := by
  simp [landOp, landDefers, forEach, opVal]

/-- Settles O23. -/
theorem resultsAndStoresLeaveInOrder : Obligations.ResultsAndStoresLeaveInOrder := by
  unfold Obligations.ResultsAndStoresLeaveInOrder
  rintro e s _ _ rfl rfl up
  refine ⟨fun unit priv sock v n ld os other ops => ?_, fun st sts stores own on => exec_storeAcknowledge up stores own on, ?_, fun t delay => ?_, ?_⟩
  · have lands : canLand ⟨unit.toNat, priv, [(sock, v)], none, none, [(n, sock, 0)], ld⟩ = true := by
      have ne : unit.toNat ≠ 0x1C00 := fun h => other (BitVec.eq_of_toNat_eq h)
      simp [canLand, ne]
    rw [exec_unitResultWriteback up ops rfl lands, landOp_single]
  · rintro st sts kind _ stores own off rfl
    rw [exec_storeBusError up stores own kind off, storeFails_popStore, stores]
    by_cases stuck : (eng s (engKey e)).run = .stuck
    · simp [takesLate, stuck]
    · by_cases full : 8 ≤ (eng s (engKey e)).late.length
      · simp [takesLate, stuck, full]
      · simp [takesLate, stuck, full]
  · refine congrArg Host.Outcome.next ((whileEngine_of_up _ up).trans ?_)
    simp [delayOver, delay, modEng]
  · rintro err f b w rfl rfl may boundary quiet interrupt free fetched encoded repeats ended keeps enters
    refine congrArg Host.Outcome.next ?_
    have live : ((bundleOf (fetchBundle s (engKey e) (eng s (engKey e)).pc.toNat)).rpt && !(eng s (engKey e)).rptLive &&
        (immOf (bundleOf (fetchBundle s (engKey e) (eng s (engKey e)).pc.toNat)) == 0)) = false := by
      grind
    unfold emitWaitFault
    simp only [may, boundary, asyncDue, quiet, interrupt, free, fetched, encoded, live, ended, Bool.and_false, Bool.not_true, Option.isSome_none,
      Bool.false_eq_true, or_self, if_false, Bool.or_self]
    simp [takeFault, enters, keeps]

/-! ### The engine control unit -/

theorem ecTarget_lt {sel : Word} {k : Nat} (h : ecTarget sel = some k) : k < 1024 := by
  unfold ecTarget at h
  dsimp only at h
  split at h
  · exact absurd h (by simp)
  · have := Option.some.inj h
    omega

theorem eng_freePorts {j k : Nat} (h : j ≠ k) (s : State) : eng (freePorts k s) j = eng s j := by
  refine forEach_inv (P := fun t => eng t j = eng s j) rfl fun p t ht => ?_
  refine forEach_inv (P := fun t => eng t j = eng s j) ht fun priv u hu => ?_
  rw [eng_tick, eng_modEng_ne h, hu]

theorem eng_markStarted (j k : Nat) (s : State) : eng (markStarted k s) j = eng s j := by
  unfold markStarted
  split
  · exact eng_modLane ..
  · rfl

theorem eng_enterStuck {j k : Nat} (h : j ≠ k) (big : 1024 ≤ j) (cause vec : Nat) (words : List Word) (s : State) :
    eng (enterStuck k cause vec words s) j = eng s j := by
  unfold enterStuck
  dsimp only
  split
  · next core =>
    have : k < 512 := by
      unfold engType at core
      split at core
      · assumption
      · split at core <;> exact absurd core (by decide)
    rw [eng_modEng_ne (by omega), eng_report, eng_modEng_ne h]
  · rw [eng_raiseBit, eng_report, eng_modEng_ne h]
  · rw [eng_report, eng_modEng_ne h]

theorem eng_parkEngine {j k : Nat} (h : j ≠ k) (big : 1024 ≤ j) (s : State) : eng (parkEngine k s) j = eng s j := by
  unfold parkEngine
  dsimp only
  split
  · rfl
  split
  · exact eng_modEng_ne h ..
  · rw [eng_enterStuck h big]
    rfl

/-- The engine control unit leaves the pair that asked as it is. -/
theorem eng_ecOperate {j : Nat} (big : 1024 ≤ j) (q : EcRequest) (s : State) : eng (ecOperate q s).2 j = eng s j := by
  unfold ecOperate
  split
  · rfl
  · next k hk =>
    have ne : j ≠ k := by have := ecTarget_lt hk; omega
    split
    · rfl
    split
    · rfl
    · split
      · rfl
      split
      · rfl
      · rw [eng_markStarted, eng_freePorts ne, eng_modEng_ne ne]
    · exact eng_parkEngine ne big s
    · exact eng_modEng_ne ne ..

/-- The result port takes the outcome and the target's state, and the operation is in flight no more. -/
def ecAnswers (p : Fin 2) (q : EcRequest) (r : Nat × State) : State :=
  modEng (1024 + p.val) (fun y => setPort true 0x808 (BitVec.ofNat 256 (ecRes r.2 q r.1)) { y with ops := [] }) r.2

section
variable {p : Fin 2} {s : State} {q : EcRequest} (up : domLost s 8 = false)
  (ops : (eng s (1024 + p.val)).ops = [⟨0x800, true, [(0x808, 0)], none, some q, [], false⟩])
include up ops

theorem exec_ecOperationComplete : exec (.ecOperationComplete p) s = .next (ecAnswers p q (ecOperate q s)) := by
  refine congrArg Host.Outcome.next ((whileUp_of_up _ up).trans ?_)
  have kept : (eng (ecOperate q s).2 (1024 + p.val)).ops = [⟨0x800, true, [(0x808, 0)], none, some q, [], false⟩] := by
    rw [eng_ecOperate (by omega)]
    exact ops
  have finds : (eng s (1024 + p.val)).ops.find? (fun o => o.ec.isSome) = some ⟨0x800, true, [(0x808, 0)], none, some q, [], false⟩ := by
    rw [ops]
    rfl
  simp only [ecComplete, finds, ecAnswers, modEng]
  rw [kept]
  rfl

end

section
variable {q : EcRequest} {k : Nat} {s : State} (up : domLost s 8 = false) (target : ecTarget q.sel = some k)
  (there : 512 ≤ k ∨ domLost s (engLane k / 8) = false)
include up target there

theorem ecOperate_there : ecOperate q s = match q.trig with
    | 0 => (0, s)
    | 1 => if ecState s k = 2 then (2, s) else if ecState s k ≠ 3 then (1, s) else (0, markStarted k (freePorts k (modEng k (restarted q.fsp q.arg) s)))
    | 2 => (0, parkEngine k s)
    | _ => (0, modEng k (fun e => { e with bell := e.bell ||| q.arg.setWidth 8 }) s) := by
  have near : ((decide (k < 512) && domLost s (engLane k / 8)) || domLost s 8) = false := by
    obtain h | h := there
    · simp [up, show ¬ k < 512 by omega]
    · simp [up, h]
  unfold ecOperate
  rw [target]
  simp only [near, Bool.false_eq_true, if_false] <;> rfl

end

/-! ### The data queue -/

theorem remapped_eccMeets (x : Target) (o : EccOutcome) (s : State) : remapped (eccMeets x o s) = remapped s := by
  have reported (p : Nat) (u : State) : rdReg (eccReport p o u) (pageIndex ⟨.mx, 0⟩) 0x700 = rdReg u (pageIndex ⟨.mx, 0⟩) 0x700 := by
    unfold eccReport
    split
    · rfl
    · rw [rdReg_report]
    · exact rdReg_captureAs_offset (by decide) (by decide) ..
  have meets : rdReg (eccMeets x o s) (pageIndex ⟨.mx, 0⟩) 0x700 = rdReg s (pageIndex ⟨.mx, 0⟩) 0x700 := by
    unfold eccMeets
    repeat' split
    · exact reported _ s
    · rw [countReg, rdReg_modReg_offset (by decide) (by decide) (by decide), reported]
    · rw [rdReg_raiseBit_offset (by decide) (by decide), countReg, rdReg_modReg_offset (by decide) (by decide) (by decide), reported]
    · exact reported _ s
  unfold remapped
  rw [meets]

theorem targetOf_of_remapped {s t : State} (h : remapped t = remapped s) (a : Nat) : targetOf t a = targetOf s a := by
  unfold targetOf
  rw [h]

theorem pageOnly_eccMeets (x : Target) (o : EccOutcome) (s : State) : PageOnly s (eccMeets x o s) := by
  have reported (p : Nat) (u : State) : PageOnly u (eccReport p o u) := by
    unfold eccReport
    split
    · exact .refl u
    · exact pageOnly_report ..
    · exact pageOnly_capture ..
  unfold eccMeets
  repeat' split
  · exact reported ..
  · exact (reported ..).trans (pageOnly_countReg ..)
  · exact ((reported ..).trans (pageOnly_countReg ..)).trans (pageOnly_raiseBit ..)
  · exact reported ..

theorem memBytes_of_mem {s t : State} (h : t.mem = s.mem) (a n : Nat) : memBytes t a n = memBytes s a n := by
  induction n generalizing a with
  | zero => rfl
  | succ n ih => rw [memBytes, memBytes, ih, memByte, memByte, h]

theorem memRead_eccMeets (x : Target) (o : EccOutcome) (s : State) (a n : Nat) : memRead (eccMeets x o s) a n = memRead s a n := by
  unfold memRead targetRead
  rw [targetOf_of_remapped (remapped_eccMeets x o s), memBytes_of_mem (pageOnly_eccMeets x o s).mem_eq]

/-- The oldest outstanding request takes its words, or fails. -/
theorem queueArrives_eq {k : Nat} {s : State} {q : QueueReq} {qs : List QueueReq} (ecc : EccOutcome) (queue : (eng s k).queue = q :: qs)
    (words : q.words = none) (failed : q.failed = none) (t : State)
    (ht : t = if queueFailure s q.addr ecc = none ∨ queueFailure s q.addr ecc = some 5 then eccMeets (targetOf s q.addr) ecc s else s) :
    queueArrives k ecc s = sampleStack q.addr (setEng k (armWaits { eng s k with queue := (match queueFailure s q.addr ecc with
      | some c => { q with failed := some c }
      | none => { q with words := some (dwordsOf (q.seen.getD (memRead s q.addr (8 * q.len))) q.len) }) :: qs }) t) := by
  have same : eng t k = eng s k ∧ memRead t q.addr (8 * q.len) = memRead s q.addr (8 * q.len) := by
    rw [ht]
    split
    · exact ⟨by unfold eng; rw [(pageOnly_eccMeets ..).engines_eq], memRead_eccMeets ..⟩
    · exact ⟨rfl, rfl⟩
  have finds : (eng s k).queue.find? (fun q => q.words.isNone && q.failed.isNone) = some q := by simp [queue, words, failed]
  unfold queueArrives
  rw [finds]
  dsimp only
  rw [← ht, modEng, same.1, queue, fillQueue, if_pos (by simp [words, failed]), same.2] <;> rfl

/-- Settles O24. -/
theorem engineControlAndDataQueue : Obligations.EngineControlAndDataQueue := by
  unfold Obligations.EngineControlAndDataQueue
  refine ⟨?_, fun fsp at_ y => ⟨rfl, rfl, rfl, rfl, rfl, rfl, rfl⟩, ?_⟩
  · rintro p s _ q k _ rfl up ops rfl
    refine ⟨fun none => ?_, fun target core lost => ?_, fun target there => ⟨?_, ?_, ?_, ?_⟩⟩
    · rw [exec_ecOperationComplete up ops, ecOperate, none]
      rfl
    · rw [exec_ecOperationComplete up ops, ecOperate, target]
      simp [core, lost, ecAnswers]
    · intro trig
      rw [exec_ecOperationComplete up ops, ecOperate_there up target there, trig]
      rfl
    · intro trig
      rw [exec_ecOperationComplete up ops, ecOperate_there up target there, trig]
      by_cases draining : ecState s k = 2
      · rw [if_pos draining]
        dsimp only
        rw [if_pos draining]
        rfl
      · rw [if_neg draining]
        dsimp only
        rw [if_neg draining]
        by_cases stuck : ecState s k = 3
        · rw [if_neg (not_not.2 stuck), if_neg (not_not.2 stuck)]
          rfl
        · rw [if_pos stuck, if_pos stuck]
          rfl
    · intro trig runs
      rw [exec_ecOperationComplete up ops, ecOperate_there up target there, trig]
      have parks : parkEngine k s = if (eng s k).entering = true ∨ (eng s k).after ≠ none then setEng k { eng s k with parkDue := true } s
          else enterStuck k 5 0 [] (dropLoad k s) := by
        unfold parkEngine
        simp [runs, modEng, Option.isSome_iff_ne_none]
      rw [← parks]
      rfl
    · intro trig
      rw [exec_ecOperationComplete up ops, ecOperate_there up target there, trig]
      rfl
  · rintro e s _ _ q qs ecc _ rfl engine up queue words failed rfl rfl
    have upE : EngineUp (engKey e) s := by
      unfold EngineUp
      rwa [if_neg (by omega)]
    refine congrArg Host.Outcome.next ((whileEngine_of_up _ upE).trans ?_)
    unfold queueAnswer
    rw [if_pos engine]
    exact queueArrives_eq ecc queue words failed _ rfl

end Sys2Proof.Machine
end

-- ==== the entry of a pair that leaves Service mode ====
section
/-! PROOFS. A handler entry of a management pair may leave it in a mode in which its vector cannot be fetched (spec 08 R218, R224; 11 R302). -/

-- One theorem at a time: elaborating them in parallel takes the memory of many threads.
set_option Elab.async false

namespace Sys2Proof.Machine

/-- A pair in Service mode whose handlers lie in the secure bank, which a pair reads in Service mode only, and whose fault stack lies in its own bank. -/
def secureHandlers : State := setEng 1024
  { run := .running, mode := 2, fsp := 0x100, segs := [(0, ⟨0x1000000, 0, 0x3FFFFF, 11⟩), (3, ⟨0x400000, 0, 0xFFFF, 7⟩)] } State.reset

/-- Refutes O21: the entry of a LATE_STORE report takes pair 0 from Service to Fault mode, and from there its vector in the secure bank,
which could be fetched before the entry, cannot be fetched: the pair is STUCK. -/
theorem not_entryStacksTheContextAndVectors : ¬ Obligations.EntryStacksTheContextAndVectors := by
  unfold Obligations.EntryStacksTheContextAndVectors
  rintro ⟨-, entry⟩
  obtain ⟨-, -, -, taken⟩ := entry (.pair 0) { vec := 12, ret := 0 } none secureHandlers _ _ _ _ _ _ rfl rfl rfl rfl rfl rfl
  obtain ⟨-, -, -, -, -, -, -, run, -⟩ := taken (by decide +kernel) (by decide +kernel) (by decide +kernel) (by decide +kernel) (by decide +kernel) (by decide +kernel)
  exact absurd run (by decide +kernel)

end Sys2Proof.Machine
end

-- ==== the return from a handler ====
section
/-! PROOFS. The return from a handler (spec 08 R220). -/

-- One theorem at a time: elaborating them in parallel takes the memory of many threads.
set_option Elab.async false

namespace Sys2Proof.Machine

/-! ### STUCK -/

theorem stuck_enterStuck (k cause vec : Nat) (words : List Word) (s : State) :
    (eng (enterStuck k cause vec words s) k).run = .stuck ∧ (eng (enterStuck k cause vec words s) k).cause = cause := by
  unfold enterStuck
  dsimp only
  split
  · next core =>
    have small : k < 512 := by
      unfold engType at core
      split at core
      · assumption
      · split at core <;> exact absurd core (by decide)
    rw [eng_modEng_ne (by omega), eng_report, eng_modEng_same]
    exact ⟨rfl, rfl⟩
  · rw [eng_raiseBit, eng_report, eng_modEng_same]
    exact ⟨rfl, rfl⟩
  · rw [eng_report, eng_modEng_same]
    exact ⟨rfl, rfl⟩

theorem mem_enterStuck (k cause vec : Nat) (words : List Word) (s : State) : (enterStuck k cause vec words s).mem = s.mem := by
  unfold enterStuck
  dsimp only
  split
  · simp
  · rw [(pageOnly_raiseBit ..).mem_eq]
    simp
  · simp

theorem mem_portFails (m : Master) (a n : Nat) (write : Bool) (kind : BusKind) (s : State) : (portFails m a n write kind s).mem = s.mem := by
  unfold portFails
  dsimp only
  rw [(pageOnly_mxError ..).mem_eq]
  split
  · rfl
  · exact (pageOnly_eccMeets ..).mem_eq
  · split <;> rfl
  · rfl

theorem mem_stackFails (k a : Nat) (write : Bool) (kind : BusKind) (s : State) : (stackFails k a write kind s).mem = s.mem := by
  unfold stackFails
  split
  · exact mem_portFails ..
  · rfl

/-! ### The drain keeps a park that is due -/

theorem parkDue_landOp (o : Op) (x : Engine) : (landOp o x).parkDue = x.parkDue := by
  have ports : (forEach o.vals x (fun v e => setPort o.priv v.1 v.2 e)).parkDue = x.parkDue :=
    forEach_inv (P := fun y : Engine => y.parkDue = x.parkDue) rfl fun v y hy => hy
  exact forEach_inv (P := fun y : Engine => y.parkDue = x.parkDue) ports fun d y hy => hy

theorem parkDue_drain (k : Nat) (s : State) : (eng (drain k s) k).parkDue = (eng s k).parkDue := by
  rw [drain, eng_modEng_same]
  refine forEach_inv (P := fun y : Engine => y.parkDue = (eng s k).parkDue) rfl fun o y hy => ?_
  split
  · exact (parkDue_landOp o y).trans hy
  · exact hy

/-! ### The return -/

section
variable {k : Nat} {err : Option BusKind} {slot pc : Nat} {s : State} (after : (eng s k).after = some (.ret slot pc))
include after

/-- A return that nothing holds is taken at once. -/
theorem issue_return {ae : Option AccessErr} (running : (eng s k).run = .running) (up : domLost s 8 = false) (free : (eng s k).matrix = none)
    (park : (eng s k).parkDue = false) : issue k false ae (bundleYields k s) = afterBundle k (stackErr ae) s := by
  have yields : bundleYields k s = s := by
    unfold bundleYields
    simp [atBoundary, after]
  unfold issue
  simp [yields, park, issueNext, running, up, free, after]

variable (drains : canDrain (eng s k) = true) (open_ : stackHeld s k (eng s k).fsp.toNat false err = false)
include drains open_

theorem afterBundle_stuck {b : Option BusKind} (find : readContext (drain k (modEng k unheld s)) k err = .stuck b) :
    (eng (afterBundle k err s) k).run = .stuck ∧ (eng (afterBundle k err s) k).cause = 4 ∧ (afterBundle k err s).mem = s.mem := by
  have kept : (drain k (modEng k unheld s)).mem = s.mem := rfl
  unfold afterBundle
  simp only [after, drains, open_, Bool.not_true, Bool.or_self, Bool.false_eq_true, if_false, find]
  generalize drain k (modEng k unheld s) = u at kept
  refine ⟨(stuck_enterStuck ..).1, (stuck_enterStuck ..).2, (mem_enterStuck ..).trans ?_⟩
  cases b with
  | none => exact kept
  | some x => exact (mem_stackFails ..).trans kept

theorem afterBundle_badRet {a : Nat} (find : readContext (drain k (modEng k unheld s)) k err = .badRet a) :
    afterBundle k err s = takeEntry k { vec := 13, ret := pc, prec := 1, slot := slot, syn0 := a } none (drain k (modEng k unheld s)) := by
  unfold afterBundle
  simp only [after, drains, open_, Bool.not_true, Bool.or_self, Bool.false_eq_true, if_false, find]

theorem afterBundle_returns {ws : List Word} (park : (eng s k).parkDue = false) (find : readContext (drain k (modEng k unheld s)) k err = .ok ws) :
    afterBundle k err s = modEng k (returned k (fun i => ws.getD i 0)) (drain k (modEng k unheld s)) := by
  have none : (eng (drain k (modEng k unheld s)) k).parkDue = false := by
    rw [parkDue_drain, eng_modEng_same]
    exact park
  unfold afterBundle
  simp only [after, drains, open_, Bool.not_true, Bool.or_self, Bool.false_eq_true, if_false, find]
  generalize drain k (modEng k unheld s) = u at none
  refine if_neg fun due => ?_
  rw [eng_modEng_same] at due
  exact Bool.false_ne_true (none.symm.trans due)

end

/-! ### What the context says -/

section
variable {k : Nat} {err : Option BusKind} {u : State} {a : Nat} (ha : a = segBase (seg (eng u k) 3) + (eng u k).fsp.toNat)
include ha

theorem readContext_stuck (h : segCheck (seg (eng u k) 3) (eng u k).fsp.toNat 48 permR ≠ 0 ∨ stackError u k a false err ≠ none ∨
    wordOf (seenBytes u k a 48) 11 ≠ (eng u k).fsp + 48) : ∃ b, readContext u k err = .stuck b := by
  unfold readContext
  dsimp only
  rw [← ha]
  by_cases checked : segCheck (seg (eng u k) 3) (eng u k).fsp.toNat 48 permR = 0
  · rw [if_neg (not_not.2 checked)]
    cases he : stackError u k a false err with
    | some b => exact ⟨some b, rfl⟩
    | none =>
      obtain h | h | h := h
      · exact absurd checked h
      · exact absurd he h
      · exact ⟨none, if_pos h⟩
  · exact ⟨none, if_pos checked⟩

variable (checked : segCheck (seg (eng u k) 3) (eng u k).fsp.toNat 48 permR = 0) (free : stackError u k a false err = none)
  (frame : wordOf (seenBytes u k a 48) 11 = (eng u k).fsp + 48)
include checked free frame

theorem readContext_frame : readContext u k err = if badTarget (eng u k) (wordOf (seenBytes u k a 48) 0).toNat then .badRet (wordOf (seenBytes u k a 48) 0).toNat
    else .ok ((List.range 12).map (wordOf (seenBytes u k a 48))) := by
  unfold readContext
  dsimp only
  rw [← ha, if_neg (not_not.2 checked), free]
  dsimp only
  rw [if_neg (not_not.2 frame)]

end

/-- The word of a context with twelve words. -/
theorem context_getD (f : Nat → Word) {i : Nat} (hi : i < 12) : ((List.range 12).map f).getD i 0 = f i := by
  simp [List.getD, hi]

/-- Settles O22. -/
theorem returnRestoresTheContext : Obligations.ReturnRestoresTheContext := by
  unfold Obligations.ReturnRestoresTheContext
  rintro e ae _ slot pc s _ _ k _ _ _ rfl rfl running up free after drains park open_ rfl rfl rfl rfl rfl
  refine ⟨congrArg Host.Outcome.next (issue_return after running up free park), fun h => ?_, fun checked ok frame bad => ?_, fun checked ok frame good => ?_⟩
  · obtain ⟨b, hb⟩ := readContext_stuck rfl h
    exact afterBundle_stuck after drains open_ hb
  · exact afterBundle_badRet after drains open_ ((readContext_frame rfl checked ok frame).trans (if_pos bad))
  · rw [afterBundle_returns after drains open_ park ((readContext_frame rfl checked ok frame).trans (if_neg (by rw [good]; exact Bool.false_ne_true)))]
    have regs : (drain (engKey e) (modEng (engKey e) unheld s)).regs = s.regs := rfl
    have mem : (drain (engKey e) (modEng (engKey e) unheld s)).mem = s.mem := rfl
    have chans : (drain (engKey e) (modEng (engKey e) unheld s)).chans = s.chans := rfl
    generalize drain (engKey e) (modEng (engKey e) unheld s) = u at regs mem chans ⊢
    rw [eng_modEng_same]
    simp only [returned, returnMode, context_getD, setPort, Nat.reduceLT, modEng_mem, modEng_chans, modEng_regs, mem, chans, regs]
    simp

end Sys2Proof.Machine
end

-- ==== fail events and records ====
section
/-! PROOFS. Lane events, fail records and their merging (spec 10 R253-R258). -/

-- One theorem at a time: elaborating them in parallel takes the memory of many threads.
set_option Elab.async false

namespace Sys2Proof.Machine

theorem clusterOfLane_laneOfCluster (k : Cl) (i : Fin 8) : clusterOfLane (laneOfCluster k.val i.val) = k.val := by
  unfold clusterOfLane laneOfCluster
  omega

@[simp] theorem fails_setLane (l : Nat) (x : Lane) (s : State) : (setLane l x s).fails = s.fails := (rfl)
@[simp] theorem stores_setLane (l : Nat) (x : Lane) (s : State) : (setLane l x s).stores = s.stores := (rfl)
@[simp] theorem captureOn_setLane (l : Nat) (x : Lane) (s : State) (k : Nat) : captureOn (setLane l x s) k = captureOn s k := (rfl)
@[simp] theorem fpRuns_setLane (l : Nat) (x : Lane) (s : State) (k : Nat) : fpRuns (setLane l x s) k = fpRuns s k := (rfl)
@[simp] theorem siteCfg_setLane (l : Nat) (x : Lane) (s : State) (k n : Nat) : siteCfg (setLane l x s) k n = siteCfg s k n := (rfl)
@[simp] theorem inReach_setLane (l : Nat) (x : Lane) (s : State) (k n : Nat) (a : Option (BitVec 56)) : inReach (setLane l x s) k n a = inReach s k n a := (rfl)

theorem modLane_setLane (l : Nat) (f : Lane → Lane) (x : Lane) (s : State) : modLane l f (setLane l x s) = setLane l (f x) s := by
  rw [modLane, lane_setLane_same, setLane_setLane_same]

theorem newRecord_single (n count : Nat) (a : Option Nat) (found : Option (BitVec 56)) (p : EventPin) :
    newRecord n count a found [p] = ⟨a.isNone, false, n, 2 ^ p.pin, 0, p.f, count, count, found.getD 0⟩ := by
  simp [newRecord]

theorem eventSites_single (p : EventPin) : eventSites [p] = [p.site] := by
  simp [eventSites, List.eraseDups_cons]

/-! ### The pins of one site join or open a record (R258) -/

section
variable {l n count : Nat} {found : Option (BitVec 56)} {pins : List EventPin} {s : State}

theorem takePart_unmerged (h : bit (siteCfg s (clusterOfLane l) n) 29 = false ∨ inReach s (clusterOfLane l) n found = none) :
    takePart l n count found pins s = closeRecord l (newRecord n count (inReach s (clusterOfLane l) n found) found pins) s := by
  refine if_pos ?_
  obtain h | h := h <;> simp [h]

variable (merges : bit (siteCfg s (clusterOfLane l) n) 29 = true) (known : inReach s (clusterOfLane l) n found ≠ none)
include merges known

theorem takePart_joins {r : FailRec} (at_ : (lane s l).open_.find? (fun r => joins r n count (inReach s (clusterOfLane l) n found) (fld (rdReg s (clPage (clusterOfLane l)) 0x120) 7 0)) = some r)
    (room : r.mcnt < 62) : takePart l n count found pins s =
      modLane l (fun x => { x with open_ := (lane s l).open_.erase r ++ [joined r (newRecord n count (inReach s (clusterOfLane l) n found) found pins)] }) s := by
  unfold takePart
  simp only [merges, Option.isNone_eq_false_iff.2 (Option.isSome_iff_ne_none.2 known), at_]
  exact if_neg fun (full : r.mcnt + 1 = 63) => by omega

theorem takePart_opens (none_ : (lane s l).open_.find? (fun r => joins r n count (inReach s (clusterOfLane l) n found) (fld (rdReg s (clPage (clusterOfLane l)) 0x120) 7 0)) = none)
    (room : (lane s l).open_.length < 4) : takePart l n count found pins s =
      modLane l (fun x => { x with open_ := (lane s l).open_ ++ [newRecord n count (inReach s (clusterOfLane l) n found) found pins] }) s := by
  unfold takePart
  simp only [merges, Option.isNone_eq_false_iff.2 (Option.isSome_iff_ne_none.2 known), none_]
  cases open_ : (lane s l).open_ with
  | nil => rfl
  | cons r0 rest =>
    rw [open_] at room
    exact (if_neg (by simp)).trans (if_neg (by omega))
end

/-! ### The oldest event of a lane position (R253, R263, R275) -/

section
variable {k : Cl} {lp : Fin 8} {s : State} {l : Nat} (at_ : l = laneOfCluster k.val lp.val) {e : LaneEvent} {es : List LaneEvent}
  (first : (lane s l).events = e :: es)
include at_ first

theorem takeEvent_off (off : captureOn s k.val = false) : takeEvent k.val lp.val s = setLane l { lane s l with events := es } s := by
  subst at_
  unfold takeEvent
  simp only [first]
  exact if_pos (by rw [modLane, captureOn_setLane, off]; rfl)

variable (on : captureOn s k.val = true)
include on

theorem takeEvent_mark {count : Nat} {tag : Word} (mark : e = .mark count tag) : takeEvent k.val lp.val s =
    if fpRuns s k.val then stageItem l (.user count tag) (setLane l { lane s l with events := es } s) else setLane l { lane s l with events := es } s := by
  subst at_ mark
  unfold takeEvent
  simp only [first]
  exact if_neg (by rw [modLane, captureOn_setLane, on]; simp)

theorem takeEvent_fails {count : Nat} {addr : Option (BitVec 56)} {pins : List EventPin} (fails_ : e = .fails count addr pins) : takeEvent k.val lp.val s =
    if fpRuns s k.val then forEach (eventSites pins) (setLane l { lane s l with events := es } s)
      (fun n s => if bit (siteCfg s k.val n) 31 then takePart l n count addr (pins.filter (fun p => p.site == n)) s else s)
    else divertEvent l addr pins (setLane l { lane s l with events := es } s) := by
  subst at_ fails_
  unfold takeEvent
  simp only [first]
  refine (if_neg (by rw [modLane, captureOn_setLane, on]; simp)).trans ?_
  cases runs : fpRuns s k.val
  · exact if_pos (by rw [modLane, fpRuns_setLane, runs]; rfl)
  · exact if_neg (by rw [modLane, fpRuns_setLane, runs]; simp)

variable (runs : fpRuns s k.val = true)
include runs

theorem takeEvent_onePin {count : Nat} {found : Option (BitVec 56)} {p : EventPin} (fails_ : e = .fails count found [p]) : takeEvent k.val lp.val s =
    if bit (siteCfg s k.val p.site) 31 then takePart l p.site count found [p] (setLane l { lane s l with events := es } s)
    else setLane l { lane s l with events := es } s := by
  rw [takeEvent_fails at_ first on fails_, if_pos runs, eventSites_single]
  simp only [forEach, List.foldl_cons, List.foldl_nil, List.filter_cons, List.filter_nil, beq_self_eq_true, if_true, siteCfg_setLane]
end

/-! ### The least recently updated record's window (R254) -/

theorem closeTimeout_first {k : Cl} {lp : Fin 8} {s : State} {l : Nat} (at_ : l = laneOfCluster k.val lp.val) {r : FailRec} {rs : List FailRec}
    (first : (lane s l).open_ = r :: rs) : closeTimeout k.val lp.val s = if fpRuns s k.val = false then s
      else if r.last + fld (rdReg s (clPage k.val) 0x120) 7 0 < (base s k.val).count ∨ (base s k.val).running = false
      then closeRecord l r (setLane l { lane s l with open_ := rs } s) else s := by
  subst at_
  unfold closeTimeout
  simp only [first]
  cases fpRuns s k.val <;> simp [modLane]

/-- Settles O29, case by case of the event and of the site's configuration. -/
theorem failPipelineFormsRecords : Obligations.FailPipelineFormsRecords := by
  unfold Obligations.FailPipelineFormsRecords
  intro k lp s l at_ up
  have ofLane : clusterOfLane l = k.val := by rw [at_, clusterOfLane_laneOfCluster]
  have run {f : State → State} {t : State} (h : f s = t) : Host.Outcome.next (whileLanes f s) = (.next t : Host.Outcome State Fault Refusal) :=
    congrArg _ ((whileLanes_of_up _ up).trans h)
  refine ⟨fun e es u first eu => ?_, fun r rs first => run (closeTimeout_first at_ first)⟩
  subst eu
  refine ⟨fun off => run (takeEvent_off at_ first off), fun on count tag mark => run (takeEvent_mark at_ first on mark), fun on stopped count addr pins fails_ => ?_, ?_⟩
  · refine run ?_
    rw [takeEvent_fails at_ first on fails_, stopped]
    exact if_neg Bool.false_ne_true
  intro on runs count found p a new fails_ ea enew
  have part := takeEvent_onePin at_ first on runs fails_
  have eat : inReach s (clusterOfLane l) p.site found = a := by rw [ofLane, ea]
  have record : newRecord p.site count (inReach s (clusterOfLane l) p.site found) found [p] = new := by rw [newRecord_single, eat, enew]
  refine ⟨fun off => run (part.trans (if_neg (by simp [off]))), fun site_ alone => run ((part.trans (if_pos site_)).trans ?_), fun site_ merges known => ⟨fun r r_ room => run ((part.trans (if_pos site_)).trans ?_), fun none_ room => run ((part.trans (if_pos site_)).trans ?_)⟩⟩
  · rw [takePart_unmerged (by rw [siteCfg_setLane, inReach_setLane, eat, ofLane]; exact alone), inReach_setLane, record]
  · rw [takePart_joins (r := r) (by rw [siteCfg_setLane, ofLane]; exact merges) (by rw [inReach_setLane, eat]; exact known)
      (by simp only [lane_setLane_same, inReach_setLane, rdReg_setLane, ofLane, ← ea]; exact r_) room, modLane_setLane, inReach_setLane, record, enew, lane_setLane_same]
    rfl
  · rw [takePart_opens (by rw [siteCfg_setLane, ofLane]; exact merges) (by rw [inReach_setLane, eat]; exact known)
      (by simp only [lane_setLane_same, inReach_setLane, rdReg_setLane, ofLane, ← ea]; exact none_) (by rw [lane_setLane_same]; exact room), modLane_setLane, inReach_setLane, record, lane_setLane_same]

end Sys2Proof.Machine
end

-- ==== buffers of fail records ====
section
/-! PROOFS. Records in memory, the buffer pool, the site counters and the capture commands (spec 10 R255-R265, R282, R283). -/

-- One theorem at a time: elaborating them in parallel takes the memory of many threads.
set_option Elab.async false

namespace Sys2Proof.Machine

/-! ### A store of bytes leaves registers and lanes -/

theorem regs_setBytes (bs : List Byte) (k : Nat) (s : State) : (setBytes k bs s).regs = s.regs := by
  induction bs generalizing k s with
  | nil => rfl
  | cons b bs ih => exact (ih ..).trans rfl

theorem regs_clearResv (k n : Nat) (s : State) : (clearResv k n s).regs = s.regs :=
  forEach_inv (P := fun t : State => t.regs = s.regs) rfl fun _ _ h => h

theorem regs_keepStale (t : Target) (k n : Nat) (s : State) : (keepStale t k n s).regs = s.regs := by
  unfold keepStale
  split
  · exact forUpTo_inv (P := fun t : State => t.regs = s.regs) rfl fun _ _ h => h
  · rfl

theorem regs_memWrite (a : Nat) (bs : List Byte) (s : State) : (memWrite a bs s).regs = s.regs :=
  ((regs_setBytes ..).trans (regs_clearResv ..)).trans (regs_keepStale ..)

theorem lanes_memWrite (a : Nat) (bs : List Byte) (s : State) : (memWrite a bs s).lanes = s.lanes :=
  (congrArg State.lanes (bankOnly_targetWrite (targetOf s a) a bs s) :)

theorem lane_memWrite (a : Nat) (bs : List Byte) (s : State) (l : Nat) : lane (memWrite a bs s) l = lane s l := by
  unfold lane
  rw [lanes_memWrite]

theorem fails_memWrite (a : Nat) (bs : List Byte) (s : State) : (memWrite a bs s).fails = s.fails :=
  (congrArg State.fails (bankOnly_targetWrite (targetOf s a) a bs s) :)

theorem length_recordBytes (lp : Nat) (r : FailRec) : (recordBytes lp r).length = 16 := length_leBytes ..

theorem targetKey_of_hbmUp {s : State} {a : Nat} (h : hbmUp s a = true) : targetKey (targetOf s a) a = a := by
  unfold hbmUp at h
  split at h
  · next n at_ => rw [at_]; rfl
  · cases h

@[simp] theorem hbmUp_setLane (l : Nat) (x : Lane) (s : State) (a : Nat) : hbmUp (setLane l x s) a = hbmUp s a := (rfl)
@[simp] theorem targetOf_setLane (l : Nat) (x : Lane) (s : State) (a : Nat) : targetOf (setLane l x s) a = targetOf s a := (rfl)
@[simp] theorem poolBase_setLane (l : Nat) (x : Lane) (s : State) (k : Nat) : poolBase (setLane l x s) k = poolBase s k := (rfl)
theorem chans_modLane (l : Nat) (f : Lane → Lane) (s : State) : (modLane l f s).chans = s.chans := (rfl)
theorem regs_modLane (l : Nat) (f : Lane → Lane) (s : State) : (modLane l f s).regs = s.regs := (rfl)
theorem chans_memWrite (a : Nat) (bs : List Byte) (s : State) : (memWrite a bs s).chans = s.chans := (bankOnly_targetWrite ..).chans

theorem putRecord_up {l : Nat} {b : FailBuf} {bytes : List Byte} {s : State} {a : Nat} (ea : a = poolBase s (clusterOfLane l) + 0x10000 * b.index + 16 * b.count)
    (up : hbmUp s a = true) : putRecord l b bytes s = modLane l (fun x => { x with buf := some { b with count := b.count + 1 } }) (memWrite a bytes s) := by
  unfold putRecord
  rw [← ea]
  simp only [up, if_true]

/-! ### A record goes to its buffer (R255, R256) -/

section
variable {l : Nat} {s : State} {r : FailRec} {b : FailBuf} (empty : (lane s l).staging = []) (buf : (lane s l).buf = some b) (room : b.count < 4095)
  (lent : (lane s l).nullBuf = false) (high : r.first / 2 ^ 40 = b.scHigh)
include empty buf room lent high

omit empty buf room in
theorem appendOne_record (t : State) (h : lane t l = { lane s l with staging := [.record r] }) :
    appendOne l b (.record r) t = putRecord l b (recordBytes (lanePosition l) r) (modLane l (fun x => { x with staging := x.staging.tail }) t) := by
  have unmarked : neededMark (lanePosition l) (lane t l) b (.record r) = none := by
    have same : itemCount (.record r) / 2 ^ 40 = b.scHigh := high
    simp only [neededMark, h, lent, same]
    simp
  unfold appendOne
  simp only [unmarked]

theorem stageItem_record : stageItem l (.record r) s =
    putRecord l b (recordBytes (lanePosition l) r) (setLane l { lane s l with staging := [] } s) := by
  have staged : modLane l (fun x => { x with staging := x.staging ++ [FailItem.record r] }) s = setLane l { lane s l with staging := [.record r] } s := by
    rw [modLane, empty]; rfl
  unfold stageItem
  rw [staged]
  generalize ht : setLane l { lane s l with staging := [FailItem.record r] } s = t
  have at_ : lane t l = { lane s l with staging := [.record r] } := by rw [← ht, lane_setLane_same]
  have popped : modLane l (fun x => { x with staging := x.staging.tail }) t = setLane l { lane s l with staging := [] } s := by
    rw [← ht, modLane_setLane]; rfl
  have one := appendOne_record lent high t at_
  rw [popped] at one
  generalize hu : putRecord l b (recordBytes (lanePosition l) r) (setLane l { lane s l with staging := [] } s) = u at one ⊢
  have after : lane u l = { lane s l with staging := [], buf := some { b with count := b.count + 1 } } := by
    rw [← hu]
    unfold putRecord
    simp only [lane_modLane_same]
    split <;> simp [lane_memWrite]
  have eight : 4 * (lane t l).staging.length + 4 = 7 + 1 := by rw [at_]; rfl
  simp only [eight]
  rw [appendItems]
  simp only [at_, buf, one, after]
  rw [if_neg (by omega), appendItems]
  simp only [after]

/-- A record written to its buffer: its bytes are there, and no register, no channel and no other byte has changed. -/
theorem stageItem_written {a : Nat} (ea : a = poolBase s (clusterOfLane l) + 0x10000 * b.index + 16 * b.count) (up : hbmUp s a = true) {t : State}
    (et : t = stageItem l (.record r) s) : memBytes t a 16 = recordBytes (lanePosition l) r ∧ (∀ z, z < a ∨ a + 16 ≤ z → memByte t z = memByte s z) ∧
    (lane t l).buf = some { b with count := b.count + 1 } ∧ (lane t l).staging = [] ∧ t.chans = s.chans ∧ t.regs = s.regs := by
  have written : t = modLane l (fun x => { x with buf := some { b with count := b.count + 1 } })
      (memWrite a (recordBytes (lanePosition l) r) (setLane l { lane s l with staging := [] } s)) := by
    rw [et, stageItem_record empty buf room lent high, putRecord_up (a := a) (by rw [poolBase_setLane, ea]) (by rw [hbmUp_setLane, up])]
  have byte (z : Nat) : memByte t z = if a ≤ z ∧ z < a + 16 then (recordBytes (lanePosition l) r).getD (z - a) 0 else memByte s z := by
    rw [written, memByte_modLane, memWrite, memByte_targetWrite, length_recordBytes, targetOf_setLane, targetKey_of_hbmUp up, memByte_setLane]
  refine ⟨?_, fun z out => (byte z).trans (if_neg (by omega)), ?_, ?_, ?_, ?_⟩
  · have copied := memBytes_setBytes (recordBytes (lanePosition l) r) a s
    rw [length_recordBytes] at copied
    rw [← copied]
    refine memBytes_congr _ _ 16 a fun z lo hi => ?_
    rw [byte, memByte_setBytes, length_recordBytes]
  · rw [written, lane_modLane_same]
  · rw [written, lane_modLane_same, lane_memWrite, lane_setLane_same]
  · rw [written, chans_modLane, chans_memWrite, setLane_chans]
  · rw [written, regs_modLane, regs_memWrite, setLane_regs]

end

/-! ### The buffer pool, the done ring and the counters (R259-R263) -/

section
variable {k : Cl} {s : State} {f : FailPipe} (at_ : f = failPipe s k.val)
include at_

theorem bufferRequest_grants {i b : Nat} {is bs : List Nat}
    (order : ((List.range 8).map (fun j => (f.last + 1 + j) % 8)).filter (fun j => (lane s (laneOfCluster k.val j)).asks) = i :: is) (free : f.freeList = b :: bs)
    (one : is = [] ∨ bs ≠ []) : bufferRequest k.val s = grantBuffer k.val i b s := by
  subst at_
  unfold bufferRequest
  simp only [order, free]
  generalize grantBuffer k.val i b s = t
  obtain none_ | more := one
  · rw [none_]
    exact ite_self _
  · cases bs with
    | nil => exact absurd rfl more
    | cons _ _ => rfl

theorem bufferRequest_none {i : Nat} (order : ((List.range 8).map (fun j => (f.last + 1 + j) % 8)).filter (fun j => (lane s (laneOfCluster k.val j)).asks) = [i])
    (free : f.freeList = []) : bufferRequest k.val s = nullBuffer (laneOfCluster k.val i) s := by
  subst at_
  unfold bufferRequest
  simp only [order, free]
  rfl

theorem bufferDone_first {e : DoneEntry} {es : List DoneEntry} (first : f.closing = e :: es) : bufferDone k.val s = if 4096 ≤ f.done.length then s
    else wmSample (clPage k.val) 3 (f.done.length + 1) (raiseBit (clPage k.val) 0 (setFail k.val { f with closing := es, done := f.done ++ [e], flushLeft := f.flushLeft - 1 } s)) := by
  subst at_
  unfold bufferDone
  simp only [first]

theorem flushComplete_over (asked : f.flush = true) (left : f.flushLeft = 0) (taken : ∀ i : Fin 8, (lane s (laneOfCluster k.val i.val)).staging.contains .flush = false) :
    flushComplete k.val s = publishStat k.val (raiseBit (clPage k.val) 3 (setFail k.val { f with flush := false } s)) := by
  subst at_
  have all : (List.range 8).all (fun i => !(lane s (laneOfCluster k.val i)).staging.contains .flush) = true :=
    List.all_eq_true.2 fun i hi => by rw [taken ⟨i, List.mem_range.1 hi⟩]; rfl
  refine if_pos ?_
  unfold flushOver
  rw [asked, left, all]
  rfl

theorem freeWrite_eq (b : Nat) (m : Master) : freeWrite k.val b m s =
    if f.freeList.contains b = true ∨ f.done.any (fun e => e.buf == b) = true then refuseCmd (clPage k.val) 0x718 m (raiseReject (clPage k.val) s)
    else wmSample (clPage k.val) 0 (4096 - (f.freeList.length + 1)) (setFail k.val { f with freeList := f.freeList ++ [b] } s) := by
  subst at_
  unfold freeWrite
  simp only [Bool.or_eq_true, failPipe_setFail_same, List.length_append, List.length_cons, List.length_nil]

theorem donePop_eq (v : Word) : (if bit v 0 then Sys2Proof.Machine.donePop k.val s else s) = if bit v 0 = false ∨ f.done = [] then s
    else wmSample (clPage k.val) 3 (f.done.length - 1) (setFail k.val { f with done := f.done.tail } s) := by
  subst at_
  unfold donePop
  cases bit v 0
  · rfl
  · simp
end

theorem siteCounters_one {l n c : Nat} {s : State} (counts : (lane s l).counts = [(n, c)]) {f : FailPipe} (at_ : f = failPipe s (clusterOfLane l)) :
    siteCounters l s = setFail (clusterOfLane l) { f with counters := smPut 0 f.counters n (min (smGet 0 f.counters n + c) 0xFFFFFFFF) }
      (setLane l { lane s l with counts := [] } s) := by
  subst at_
  unfold siteCounters modFail
  simp only [counts, failPipe_modLane]
  rfl

/-- Settles O30, by a lemma for each command of the pool. -/
theorem recordsGoToTheirBufferInOrder : Obligations.RecordsGoToTheirBufferInOrder := by
  unfold Obligations.RecordsGoToTheirBufferInOrder
  refine ⟨fun l s t r b a empty buf room lent high ea up et => stageItem_written empty buf room lent high ea up et, fun k s f at_ up => ?_, fun l s n c up counts f at_ => ?_, fun k m s f at_ takes => ⟨fun v => ?_, fun v => ?_⟩⟩
  · have run {g : State → State} {t : State} (h : g s = t) : Host.Outcome.next (whileLanes g s) = (.next t : Host.Outcome State Fault Refusal) :=
      congrArg _ ((whileLanes_of_up _ up).trans h)
    exact ⟨fun i is b bs order free one => run (bufferRequest_grants at_ order free one), fun i order free => run (bufferRequest_none at_ order free),
      fun e es first => run (bufferDone_first at_ first), fun asked left taken => run (flushComplete_over at_ asked left taken)⟩
  · exact congrArg Host.Outcome.next ((whileLanes_of_up _ up).trans (siteCounters_one counts at_))
  · exact congrArg Host.Outcome.next ((accessWrite_clFree k.isLt v takes).trans (freeWrite_eq at_ ..))
  · exact congrArg Host.Outcome.next ((accessWrite_donePop k.isLt v takes).trans (donePop_eq at_ v))

/-! ### One update of every lane of a cluster -/

theorem laneOfCluster_inj (k : Cl) {i j : Nat} (hi : i < 8) (hj : j < 8) (h : laneOfCluster k.val i = laneOfCluster k.val j) : i = j := by
  unfold laneOfCluster at h
  omega

/-- Every lane of the cluster updated. -/
def eachLane (k : Nat) (f : Lane → Lane) (s : State) : State := forUpTo 8 s (fun i s => modLane (laneOfCluster k i) f s)

theorem lane_eachLane (k : Cl) (f : Lane → Lane) (i : Fin 8) (s : State) : lane (eachLane k.val f s) (laneOfCluster k.val i.val) = f (lane s (laneOfCluster k.val i.val)) := by
  have kept (n : Nat) (hn : n ≤ i.val) : lane (forUpTo n s (fun i s => modLane (laneOfCluster k.val i) f s)) (laneOfCluster k.val i.val) = lane s (laneOfCluster k.val i.val) := by
    induction n with
    | zero => rfl
    | succ n ih =>
      rw [forUpTo, lane_modLane_ne fun e => ?_, ih (by omega)]
      have := laneOfCluster_inj k i.isLt (by omega) e
      omega
  have done (n : Nat) (lo : i.val < n) (hn : n ≤ 8) : lane (forUpTo n s (fun i s => modLane (laneOfCluster k.val i) f s)) (laneOfCluster k.val i.val) = f (lane s (laneOfCluster k.val i.val)) := by
    induction n with
    | zero => omega
    | succ n ih =>
      rw [forUpTo]
      obtain e | ne := eq_or_ne i.val n
      · rw [← e, lane_modLane_same, kept i.val le_rfl]
      · rw [lane_modLane_ne fun e => ne (laneOfCluster_inj k i.isLt (by omega) e), ih (by omega) (by omega)]
  exact done 8 i.isLt le_rfl

/-- All of a state but its lanes, engines apart. -/
theorem eachLane_rest (k : Nat) (f : Lane → Lane) (s : State) : eachLane k f s = { s with lanes := (eachLane k f s).lanes } :=
  forUpTo_inv (P := fun t : State => t = { s with lanes := t.lanes }) rfl fun _ t h => by rw [h]; rfl

theorem fails_eachLane (k : Nat) (f : Lane → Lane) (s : State) : (eachLane k f s).fails = s.fails := (congrArg State.fails (eachLane_rest k f s) :)
theorem regs_eachLane (k : Nat) (f : Lane → Lane) (s : State) : (eachLane k f s).regs = s.regs := (congrArg State.regs (eachLane_rest k f s) :)
theorem mem_eachLane (k : Nat) (f : Lane → Lane) (s : State) : (eachLane k f s).mem = s.mem := (congrArg State.mem (eachLane_rest k f s) :)
theorem chans_eachLane (k : Nat) (f : Lane → Lane) (s : State) : (eachLane k f s).chans = s.chans := (congrArg State.chans (eachLane_rest k f s) :)

/-! ### INIT and OVCLR (R260, R264) -/

/-- A lane that INIT leaves: no buffer, no request and nothing waiting. -/
def poolLane (x : Lane) : Lane := { x with buf := none, nullBuf := false, nullCount := 0, asks := false, staging := [] }

/-- The pool that INIT leaves: every buffer free. -/
def poolFreed (f : FailPipe) : FailPipe := { f with freeList := List.range 4096, done := [], closing := [], flushLeft := 0 }

theorem poolFreed_freeList (f : FailPipe) : (poolFreed f).freeList = List.range 4096 := by
  unfold poolFreed
  generalize List.range 4096 = l
  rfl

theorem initPool_on {k : Nat} {m : Master} {s : State} (on : captureOn s k = true) : initPool k m s = refuseCmd (clPage k) 0x70C m s := if_pos on

theorem initPool_off {k : Nat} {m : Master} {s : State} (off : captureOn s k = false) : initPool k m s =
    wmSample (clPage k) 3 0 (wmSample (clPage k) 0 0 (modFail k poolFreed (eachLane k poolLane s))) := if_neg (by simp [off])

theorem fcmdWrite_init (k : Nat) (m : Master) (s : State) : fcmdWrite k m 1 s = initPool k m s := rfl
theorem fcmdWrite_flush (k : Nat) (m : Master) (s : State) : fcmdWrite k m 2 s = flushCapture k s := rfl
theorem fcmdWrite_ovclr (k : Nat) (m : Master) (s : State) : fcmdWrite k m 4 s = clearOverflow k s := rfl

/-- INIT while capture is off: the pool is full, the done ring is empty, no lane has a buffer, a request or a waiting item. -/
theorem initPool_frees (k : Cl) (m : Master) {s t : State} (off : captureOn s k.val = false) (et : t = initPool k.val m s) :
    (failPipe t k.val).freeList = List.range 4096 ∧ (failPipe t k.val).done = [] ∧ (failPipe t k.val).closing = [] ∧
      (∀ i : Fin 8, (lane t (laneOfCluster k.val i.val)).buf = none ∧ (lane t (laneOfCluster k.val i.val)).asks = false ∧ (lane t (laneOfCluster k.val i.val)).staging = [] ∧
        (lane t (laneOfCluster k.val i.val)).events = (lane s (laneOfCluster k.val i.val)).events) ∧ t.mem = s.mem ∧ t.chans = s.chans := by
  rw [initPool_off off] at et
  have pipe : failPipe t k.val = poolFreed (failPipe (eachLane k.val poolLane s) k.val) := by rw [et, failPipe_wmSample, failPipe_wmSample, failPipe_modFail_same]
  have at_ (i : Fin 8) : lane t (laneOfCluster k.val i.val) = poolLane (lane s (laneOfCluster k.val i.val)) := by
    rw [et, lane_wmSample, lane_wmSample, lane_modFail, lane_eachLane]
  refine ⟨pipe ▸ poolFreed_freeList _, congrArg FailPipe.done pipe, congrArg FailPipe.closing pipe, fun i => ?_, ?_, ?_⟩
  · rw [at_ i]
    exact ⟨rfl, rfl, rfl, rfl⟩
  · rw [et, wmSample_mem, wmSample_mem, modFail_mem, mem_eachLane]
  · rw [et, (pageOnly_wmSample ..).chans_eq, (pageOnly_wmSample ..).chans_eq, modFail_chans, chans_eachLane]

/-! ### FLUSH (R263) -/

/-- What the appending of a record leaves: every lane's open records, whether a FLUSH is in progress, and the channels. -/
def captured (s : State) : (Nat → List FailRec) × (Nat → Bool) × SMap Chan := (fun l => (lane s l).open_, fun k => (failPipe s k).flush, s.chans)

theorem captured_of_same {s t : State} (hl : t.lanes = s.lanes) (hf : t.fails = s.fails) (hc : t.chans = s.chans) : captured t = captured s := by
  unfold captured lane failPipe
  rw [hl, hf, hc]

theorem PageOnly.captured {s t : State} (h : PageOnly s t) : captured t = captured s := captured_of_same h.lanes_eq h.fails_eq h.chans_eq

theorem captured_modLane {l : Nat} {f : Lane → Lane} (hf : ∀ x, (f x).open_ = x.open_) (s : State) : captured (modLane l f s) = captured s := by
  have same (i : Nat) : (lane (modLane l f s) i).open_ = (lane s i).open_ := by
    obtain e | ne := eq_or_ne i l
    · rw [e, lane_modLane_same, hf]
    · rw [lane_modLane_ne ne]
  unfold captured
  simp only [same, failPipe_modLane, chans_modLane]

theorem captured_modFail {k : Nat} {f : FailPipe → FailPipe} (hf : ∀ x, (f x).flush = x.flush) (s : State) : captured (modFail k f s) = captured s := by
  have same (i : Nat) : (failPipe (modFail k f s) i).flush = (failPipe s i).flush := by
    obtain e | ne := eq_or_ne i k
    · rw [e, failPipe_modFail_same, hf]
    · rw [failPipe_modFail_ne ne]
  unfold captured
  simp only [same, lane_modFail, modFail_chans]

theorem captured_memWrite (a : Nat) (bs : List Byte) (s : State) : captured (memWrite a bs s) = captured s :=
  captured_of_same (lanes_memWrite ..) (fails_memWrite ..) (chans_memWrite ..)

theorem captured_putRecord (l : Nat) (b : FailBuf) (bs : List Byte) (s : State) : captured (putRecord l b bs s) = captured s := by
  unfold putRecord
  refine (captured_modLane (by intro _; rfl) _).trans ?_
  split
  · exact captured_memWrite ..
  · rfl

theorem captured_appendOne (l : Nat) (b : FailBuf) (i : FailItem) (s : State) : captured (appendOne l b i s) = captured s := by
  have popped : captured (modLane l (fun x => { x with staging := x.staging.tail }) s) = captured s := captured_modLane (by intro _; rfl) s
  unfold appendOne
  dsimp only
  cases neededMark (lanePosition l) (lane s l) b i with
  | some bytes => exact (captured_putRecord ..).trans (captured_modLane (by intro _; rfl) s)
  | none =>
    cases i with
    | record r => exact (captured_putRecord ..).trans popped
    | user c t => exact (captured_putRecord ..).trans popped
    | flush => exact popped

theorem captured_closeBuffer (l : Nat) (part : Bool) (s : State) : captured (closeBuffer l part s) = captured s := by
  unfold closeBuffer
  split
  · rfl
  · exact (captured_modFail (by intro _; rfl) _).trans (captured_modLane (by intro _; rfl) s)

theorem captured_flushBuffer (l : Nat) (s : State) : captured (flushBuffer l s) = captured s := by
  unfold flushBuffer flushMark
  refine (captured_modFail (by intro _; rfl) _).trans ?_
  split
  · split
    · exact captured_closeBuffer ..
    · rfl
  · rfl

theorem captured_appendItems (l fuel : Nat) (s : State) : captured (appendItems l fuel s) = captured s := by
  induction fuel generalizing s with
  | zero => rfl
  | succ fuel ih =>
    unfold appendItems
    split
    · rfl
    · exact (ih _).trans ((captured_flushBuffer ..).trans (captured_modLane (by intro _; rfl) s))
    · split
      · exact captured_modLane (by intro _; rfl) s
      · refine (ih _).trans ?_
        split
        · split
          · exact (captured_closeBuffer ..).trans (captured_appendOne ..)
          · exact captured_appendOne ..
        · exact captured_appendOne ..

theorem captured_stageItem (l : Nat) (i : FailItem) (s : State) : captured (stageItem l i s) = captured s :=
  (captured_appendItems ..).trans (captured_modLane (by intro _; rfl) s)

theorem captured_weldOffer (k l : Nat) (r : FailRec) (s : State) : captured (weldOffer k l r s) = captured s := by
  unfold weldOffer
  split
  · rfl
  · dsimp only
    split
    · exact (pageOnly_raiseBit ..).captured.trans (captured_of_same rfl rfl rfl)
    · exact (pageOnly_wmSample ..).captured.trans (captured_of_same rfl rfl rfl)

theorem captured_siteFlag (k n f : Nat) (s : State) : captured (siteFlag k n f s) = captured s :=
  captured_of_same (modWeld_lanes ..) (modWeld_fails ..) (modWeld_chans ..)
theorem publishStat_lanes (k : Nat) (s : State) : (publishStat k s).lanes = s.lanes := by unfold publishStat; rfl
theorem publishStat_fails (k : Nat) (s : State) : (publishStat k s).fails = s.fails := by unfold publishStat; rfl
theorem publishStat_chans (k : Nat) (s : State) : (publishStat k s).chans = s.chans := by unfold publishStat; rfl
theorem captured_publishStat (k : Nat) (s : State) : captured (publishStat k s) = captured s :=
  captured_of_same (publishStat_lanes ..) (publishStat_fails ..) (publishStat_chans ..)

theorem captured_closeOne (l : Nat) (r : FailRec) (s : State) : captured (closeOne l r s) = captured s := by
  unfold closeOne
  refine (captured_weldOffer ..).trans ((captured_stageItem ..).trans ?_)
  have counted : captured (modFail (clusterOfLane l) (fun f => { f with closedRecs := f.closedRecs + 1 }) s) = captured s := captured_modFail (by intro _; rfl) s
  split
  · exact (captured_siteFlag ..).trans counted
  · exact counted

/-- One lane's part of a FLUSH: its open records close. -/
def closeOpen (l : Nat) (s : State) : State := forEach (byFirst (lane s l).open_) (modLane l (fun x => { x with open_ := [] }) s) (closeOne l)

theorem captured_closeOpen (l : Nat) (s : State) : captured (closeOpen l s) = captured (modLane l (fun x => { x with open_ := [] }) s) :=
  forEach_inv (P := fun t => captured t = captured (modLane l (fun x => { x with open_ := [] }) s)) rfl fun _ _ h => (captured_closeOne ..).trans h

theorem flushCapture_eq (k : Nat) (s : State) : flushCapture k s = publishStat k (forUpTo 8 (forUpTo 8 (modFail k (fun f => { f with flush := true }) s)
    (fun i s => closeOpen (laneOfCluster k i) s)) (fun i s => stageItem (laneOfCluster k i) .flush s)) := rfl

/-- After a FLUSH of the first n lanes none of these has an open record. -/
theorem closed_forUpTo (k n : Nat) (s : State) : (captured (forUpTo n s (fun i s => closeOpen (laneOfCluster k i) s))).2 = (captured s).2 ∧
    ∀ i < n, (captured (forUpTo n s (fun i s => closeOpen (laneOfCluster k i) s))).1 (laneOfCluster k i) = [] := by
  induction n with
  | zero => exact ⟨rfl, fun _ h => absurd h (by omega)⟩
  | succ n ih =>
    obtain ⟨rest, empty⟩ := ih
    generalize ht : forUpTo n s (fun i s => closeOpen (laneOfCluster k i) s) = t at rest empty
    rw [forUpTo, ht, captured_closeOpen]
    refine ⟨Eq.trans ?_ rest, fun i hi => ?_⟩
    · simp only [captured, failPipe_modLane, chans_modLane]
    · show (lane (modLane (laneOfCluster k n) (fun x => { x with open_ := [] }) t) (laneOfCluster k i)).open_ = []
      obtain e | ne := eq_or_ne (laneOfCluster k i) (laneOfCluster k n)
      · rw [e, lane_modLane_same]
      · rw [lane_modLane_ne ne]
        refine empty i (Nat.lt_of_le_of_ne (by omega) fun e => ne (by rw [e]))

/-- A FLUSH: it is in progress, no lane of the cluster has an open record, and no channel has changed. -/
theorem flushCapture_closes (k : Cl) {s t : State} (et : t = flushCapture k.val s) :
    (failPipe t k.val).flush = true ∧ (∀ i : Fin 8, (lane t (laneOfCluster k.val i.val)).open_ = []) ∧ t.chans = s.chans := by
  rw [flushCapture_eq] at et
  have asked : (captured (modFail k.val (fun f => { f with flush := true }) s)).2.1 k.val = true := by
    show (failPipe (modFail k.val _ s) k.val).flush = true
    rw [failPipe_modFail_same]
  have kept : (captured (modFail k.val (fun f => { f with flush := true }) s)).2.2 = s.chans := rfl
  generalize modFail k.val (fun f => { f with flush := true }) s = a at asked kept et
  obtain ⟨rest, empty⟩ := closed_forUpTo k.val 8 a
  generalize forUpTo 8 a (fun i s => closeOpen (laneOfCluster k.val i) s) = b at rest empty et
  have staged : captured (forUpTo 8 b (fun i s => stageItem (laneOfCluster k.val i) .flush s)) = captured b :=
    forUpTo_inv (P := fun t => captured t = captured b) rfl fun _ _ h => (captured_stageItem ..).trans h
  have all : captured t = captured b := by
    rw [et, captured_publishStat, staged]
  have pipe : (captured t).2 = (captured a).2 := by rw [all, rest]
  refine ⟨?_, fun i => ?_, ?_⟩
  · have := congrArg (fun v => v.1 k.val) pipe
    exact this.trans asked
  · have := congrArg (fun v => v.1 (laneOfCluster k.val i.val)) all
    exact this.trans (empty i.val i.isLt)
  · have := congrArg (fun v => v.2) pipe
    exact this.trans kept

/-! ### The counter window (R283) -/

/-- The counters of a site latched in the counter window. -/
def latched (k n : Nat) (s : State) : State :=
  forUpTo 5 s (fun i s => wrReg (clPage k) (0x734 + 4 * i) (w32 (smGet 0 (failPipe s k).counters (5 * n + i))) s)

/-- A site's counters zeroed. -/
def zeroedCounters (n : Nat) (m : SMap Nat) : SMap Nat := forUpTo 5 m (fun i m => smPut 0 m (5 * n + i) 0)

theorem scselWrite_eq (k : Nat) (v : Word) (s : State) : scselWrite k v s =
    if bit v 31 then modFail k (fun f => { f with counters := zeroedCounters (fld v 6 0) f.counters }) (latched k (fld v 6 0) (wrReg (clPage k) 0x730 (w32 (fld v 6 0)) s))
    else latched k (fld v 6 0) (wrReg (clPage k) 0x730 (w32 (fld v 6 0)) s) := rfl

theorem pageOnly_latched (k n : Nat) (s : State) : PageOnly s (latched k n s) :=
  forUpTo_inv (P := PageOnly s) (PageOnly.refl s) fun _ _ h => h.trans (pageOnly_wrReg ..)

theorem rdReg_latched (k : Cl) (n : Nat) (i : Fin 5) (s : State) : rdReg (latched k.val n s) (clPage k.val) (0x734 + 4 * i.val) = w32 (smGet 0 (failPipe s k.val).counters (5 * n + i.val)) := by
  have at_ := clPage_lt k.isLt
  have part (j : Nat) : failPipe (forUpTo j s (fun i s => wrReg (clPage k.val) (0x734 + 4 * i) (w32 (smGet 0 (failPipe s k.val).counters (5 * n + i))) s)) k.val = failPipe s k.val :=
    forUpTo_inv (P := fun t => failPipe t k.val = failPipe s k.val) rfl fun _ _ h => (failPipe_wrReg ..).trans h
  have done (j : Nat) (lo : i.val < j) (hj : j ≤ 5) :
      rdReg (forUpTo j s (fun i s => wrReg (clPage k.val) (0x734 + 4 * i) (w32 (smGet 0 (failPipe s k.val).counters (5 * n + i))) s)) (clPage k.val) (0x734 + 4 * i.val) =
        w32 (smGet 0 (failPipe s k.val).counters (5 * n + i.val)) := by
    induction j with
    | zero => omega
    | succ j ih =>
      rw [forUpTo]
      obtain e | ne := eq_or_ne i.val j
      · rw [← e, rdReg_wrReg_same, part]
      · rw [rdReg_wrReg_offset (by omega) (by omega) (by omega), ih (by omega) (by omega)]
  exact done 5 i.isLt le_rfl

theorem smGet_zeroedCounters (n : Nat) (m : SMap Nat) (j : Nat) : smGet 0 (zeroedCounters n m) j = if j / 5 = n then 0 else smGet 0 m j := by
  have part (q : Nat) : smGet 0 (forUpTo q m (fun i m => smPut 0 m (5 * n + i) 0)) j = if 5 * n ≤ j ∧ j < 5 * n + q then 0 else smGet 0 m j := by
    induction q with
    | zero => rw [if_neg (by omega)]; rfl
    | succ q ih =>
      rw [forUpTo]
      obtain e | ne := eq_or_ne j (5 * n + q)
      · rw [e, smGet_smPut_same, if_pos (by omega)]
      · rw [smGet_smPut_ne _ _ _ _ ne, ih]
        exact if_congr (by omega) rfl rfl
  rw [zeroedCounters, part]
  exact if_congr (by omega) rfl rfl

theorem siteSelect_fields (n : BitVec 7) : fld (w32 n.toNat) 6 0 = n.toNat ∧ bit (w32 n.toNat) 31 = false := by
  revert n
  decide

theorem siteClear_fields (n : BitVec 7) : fld (w32 (2 ^ 31 + n.toNat)) 6 0 = n.toNat ∧ bit (w32 (2 ^ 31 + n.toNat)) 31 = true := by
  revert n
  decide

/-- The window after a selection, with and without CLR. -/
theorem latched_selected (k : Cl) (n : Nat) {s t : State} (et : t = latched k.val n (wrReg (clPage k.val) 0x730 (w32 n) s)) :
    (∀ i : Fin 5, rdReg t (clPage k.val) (0x734 + 4 * i.val) = w32 (smGet 0 (failPipe s k.val).counters (5 * n + i.val))) ∧
    t.fails = s.fails ∧ t.lanes = s.lanes ∧ t.mem = s.mem ∧ t.chans = s.chans := by
  have page : PageOnly s t := et ▸ (pageOnly_wrReg ..).trans (pageOnly_latched ..)
  refine ⟨fun i => ?_, page.fails_eq, page.lanes_eq, page.mem_eq, page.chans_eq⟩
  rw [et, rdReg_latched, failPipe_wrReg]

/-- Settles O31: INIT, OVCLR and FLUSH by their updates of the cluster's lanes, the selection by the window's registers. -/
theorem captureCommandsAndCounterWindow : Obligations.CaptureCommandsAndCounterWindow := by
  unfold Obligations.CaptureCommandsAndCounterWindow
  intro k m s takes
  refine ⟨fun on => congrArg Host.Outcome.next ((accessWrite_fcmd k.isLt 1 takes).trans (initPool_on on)),
    fun off => ⟨_, congrArg Host.Outcome.next (accessWrite_fcmd k.isLt 1 takes), initPool_frees k m off (fcmdWrite_init ..)⟩,
    ⟨_, congrArg Host.Outcome.next (accessWrite_fcmd k.isLt 4 takes), ?_⟩,
    ⟨_, congrArg Host.Outcome.next (accessWrite_fcmd k.isLt 2 takes), flushCapture_closes k (fcmdWrite_flush ..)⟩,
    fun site => ⟨⟨_, congrArg Host.Outcome.next (accessWrite_scsel k.isLt _ takes), ?_⟩, ⟨_, congrArg Host.Outcome.next (accessWrite_scsel k.isLt _ takes), ?_⟩⟩⟩
  · rw [fcmdWrite_ovclr, show clearOverflow k.val s = eachLane k.val (fun x => { x with ovf := [], unk := false }) s from rfl]
    exact ⟨fun i => lane_eachLane k _ i s, regs_eachLane .., mem_eachLane .., chans_eachLane .., fails_eachLane ..⟩
  · obtain ⟨at_, off⟩ := siteSelect_fields site
    rw [scselWrite_eq, off, at_]
    exact latched_selected k site.toNat rfl
  · obtain ⟨at_, on⟩ := siteClear_fields site
    rw [scselWrite_eq, on, at_, if_pos rfl]
    generalize ht : latched k.val site.toNat (wrReg (clPage k.val) 0x730 (w32 site.toNat) s) = t
    obtain ⟨window, fails_, lanes_, mem_, chans_⟩ := latched_selected k site.toNat ht.symm
    have pipe : failPipe t k.val = failPipe s k.val := by unfold failPipe; rw [fails_]
    refine ⟨fun i => ⟨?_, ?_⟩, fun n ne => ?_, ?_, ?_, ?_⟩
    · rw [rdReg_modFail, window]
    · rw [failPipe_modFail_same, smGet_zeroedCounters, if_pos (by omega)]
    · rw [failPipe_modFail_same, smGet_zeroedCounters, if_neg ne, pipe]
    · rw [modFail_lanes, lanes_]
    · rw [modFail_mem, mem_]
    · rw [modFail_chans, chans_]

end Sys2Proof.Machine
end

-- ==== what the matrix and the fabric leave ====
section
/-! PROOFS. What an answer of the matrix, a frame of the fabric and the loss of a domain leave alone (spec 01 R21, 11, 13). -/

-- One theorem at a time: elaborating them in parallel takes the memory of many threads.
set_option Elab.async false

namespace Sys2Proof.Machine

/-- A state without what the channels, the lanes, the matrix, the fabric, the pages and the memories change by themselves. -/
def ambient (s : State) : State :=
  { s with now := 0, free := 0, outbox := [], regs := [], swapped := [], calSwapped := [], held := [], wms := [], irqOut := [], msixDue := [], pal := [], palHeld := [],
           palCmds := [], chans := [], reports := [], mem := [], trans := [], replies := [], granted := [], tongs := [], tongsLast := 0, mramLines := [], mramGap := [],
           hang := [], fstat := [], engines := [], stale := [], lanes := [], stores := [], seqs := [], fails := [], welds := [],
           patina := { s.patina with offers := [] }, ports := [], fabric := {}, pcie := {}, journal := none }

theorem thermal_of_ambient {s t : State} (h : ambient t = ambient s) : t.thermal = s.thermal := (congrArg State.thermal h :)
theorem bellows_of_ambient {s t : State} (h : ambient t = ambient s) : t.bellows = s.bellows := (congrArg State.bellows h :)
theorem doms_of_ambient {s t : State} (h : ambient t = ambient s) : t.doms = s.doms := (congrArg State.doms h :)
theorem dom_of_ambient {s t : State} (h : ambient t = ambient s) (d : Nat) : dom t d = dom s d := by unfold dom; rw [doms_of_ambient h]

theorem ambient_of_apart {s t : State} (h : apart t = apart s) : ambient t = ambient s := (congrArg ambient h :)

theorem ambient_bankOnly {s t : State} (h : BankOnly s t) : ambient t = ambient s := by
  unfold BankOnly at h
  rw [h]
  rfl

theorem ambient_pageOnly {s t : State} (h : PageOnly s t) : ambient t = ambient s := ambient_bankOnly h.bankOnly

theorem ambient_forUpTo {n : Nat} {f : Nat → State → State} {s : State} (h : ∀ i s, ambient (f i s) = ambient s) :
    ambient (forUpTo n s f) = ambient s := forUpTo_inv (P := fun t => ambient t = ambient s) rfl fun i t ht => (h i t).trans ht

theorem ambient_forEach {α : Type} {l : List α} {f : α → State → State} {s : State} (h : ∀ a s, ambient (f a s) = ambient s) :
    ambient (forEach l s f) = ambient s := forEach_inv (P := fun t => ambient t = ambient s) rfl fun a t ht => (h a t).trans ht

/-! ### State updates and pages -/

@[simp] theorem ambient_tick (s : State) : ambient (tick s) = ambient s := (rfl)
@[simp] theorem ambient_send (o : Out) (s : State) : ambient (send o s) = ambient s := (rfl)
@[simp] theorem ambient_reach (n : Nat) (s : State) : ambient (reach n s) = ambient s := (rfl)
@[simp] theorem ambient_wrReg (p o : Nat) (v : Word) (s : State) : ambient (wrReg p o v s) = ambient s := (rfl)
@[simp] theorem ambient_modReg (p o : Nat) (f : Word → Word) (s : State) : ambient (modReg p o f s) = ambient s := (rfl)
@[simp] theorem ambient_countReg (p o n : Nat) (s : State) : ambient (countReg p o n s) = ambient s := (rfl)
@[simp] theorem ambient_report (r : Report) (s : State) : ambient (report r s) = ambient s := (rfl)
@[simp] theorem ambient_setEng (k : Nat) (e : Engine) (s : State) : ambient (setEng k e s) = ambient s := (rfl)
@[simp] theorem ambient_modEng (k : Nat) (f : Engine → Engine) (s : State) : ambient (modEng k f s) = ambient s := (rfl)
@[simp] theorem ambient_setTg (c : Nat) (x : TongsChan) (s : State) : ambient (setTg c x s) = ambient s := (rfl)
@[simp] theorem ambient_setHang (i : Nat) (x : HangSlot) (s : State) : ambient (setHang i x s) = ambient s := (rfl)
@[simp] theorem ambient_setPortAt (p : Nat) (x : Port) (s : State) : ambient (setPortAt p x s) = ambient s := (rfl)
@[simp] theorem ambient_modPort (p : Nat) (f : Port → Port) (s : State) : ambient (modPort p f s) = ambient s := (rfl)
@[simp] theorem ambient_modFab (f : Fabric → Fabric) (s : State) : ambient (modFab f s) = ambient s := (rfl)
@[simp] theorem ambient_raiseBit (p i : Nat) (s : State) : ambient (raiseBit p i s) = ambient s := ambient_pageOnly (pageOnly_raiseBit ..)
@[simp] theorem ambient_wmSample (p n v : Nat) (s : State) : ambient (wmSample p n v s) = ambient s := ambient_pageOnly (pageOnly_wmSample ..)
@[simp] theorem ambient_mxError (m : Master) (a k : Nat) (s : State) : ambient (mxError m a k s) = ambient s := ambient_pageOnly (pageOnly_mxError ..)
@[simp] theorem ambient_memWrite (a : Nat) (bs : List Byte) (s : State) : ambient (memWrite a bs s) = ambient s := ambient_bankOnly (bankOnly_targetWrite ..)
@[simp] theorem ambient_bankPut (m : Master) (a : Nat) (bs : List Byte) (s : State) : ambient (bankPut m a bs s) = ambient s := ambient_bankOnly (bankOnly_bankPut ..)
@[simp] theorem ambient_offer (code sev src : Nat) (fid : Bool) (bs : List Byte) (s : State) : ambient (offer code sev src fid bs s) = ambient s := (rfl)

/-! ### Transactions and engines -/

@[simp] theorem ambient_grantRow (row : Nat) (s : State) : ambient (grantRow row s) = ambient s := by
  unfold grantRow
  repeat' split
  all_goals rfl

@[simp] theorem ambient_grantAll (s : State) : ambient (grantAll s) = ambient s := ambient_forUpTo ambient_grantRow

@[simp] theorem ambient_enterPort (m : Master) (id : Nat) (write : Bool) (a : Nat) (data : List Byte) (len : Nat) (use : TransUse) (s : State) :
    ambient (enterPort m id write a data len use s) = ambient s := ambient_grantAll _

@[simp] theorem ambient_storeFails (k a kind : Nat) (s : State) : ambient (storeFails k a kind s) = ambient s := (rfl)
@[simp] theorem ambient_flushFetch (k : Nat) (s : State) : ambient (flushFetch k s) = ambient s := (rfl)
@[simp] theorem ambient_popStore (k : Nat) (s : State) : ambient (popStore k s) = ambient s := (rfl)
@[simp] theorem ambient_loadReply (k : Nat) (data : List Byte) (err : Option BusKind) (s : State) : ambient (loadReply k data err s) = ambient s := (rfl)

@[simp] theorem ambient_fillOne (k : Nat) (before : List Op) (w : LoadWait) (o : Op) (rest : List Op) (s : State) :
    ambient (fillOne k before w o rest s) = ambient s := by
  unfold fillOne
  dsimp only
  repeat' split
  all_goals simp

@[simp] theorem ambient_fillWaits (k n : Nat) (s : State) : ambient (fillWaits k n s) = ambient s := by
  induction n generalizing s with
  | zero => rfl
  | succ n ih =>
    unfold fillWaits
    split
    · rfl
    · rw [ih, ambient_fillOne]

@[simp] theorem ambient_releaseFence (k : Nat) (s : State) : ambient (releaseFence k s) = ambient s := by
  unfold releaseFence
  dsimp only
  repeat' split
  all_goals simp

@[simp] theorem ambient_issueStore (k : Nat) (s : State) : ambient (issueStore k s) = ambient s := by
  unfold issueStore
  repeat' split
  all_goals simp

@[simp] theorem ambient_settled (k : Nat) (s : State) : ambient (settled k s) = ambient s := by simp [settled, settle]

@[simp] theorem ambient_storeBusError (k kind : Nat) (s : State) : ambient (storeBusError k kind s) = ambient s := by
  unfold storeBusError
  split <;> simp

@[simp] theorem ambient_storeLeaves (k : Nat) (s : State) : ambient (storeLeaves k s) = ambient s := by
  unfold storeLeaves
  split <;> simp

@[simp] theorem ambient_sampleStack (a : Nat) (s : State) : ambient (sampleStack a s) = ambient s := by
  unfold sampleStack
  split <;> simp

@[simp] theorem ambient_queueReply (k serial : Nat) (data : List Byte) (err : Option BusKind) (s : State) :
    ambient (queueReply k serial data err s) = ambient s := ambient_sampleStack ..

@[simp] theorem ambient_tasReply (k : Nat) (data : List Byte) (err : Option BusKind) (s : State) : ambient (tasReply k data err s) = ambient s := by
  unfold tasReply
  split <;> simp

/-! ### Tongs -/

@[simp] theorem ambient_tgFails (c err : Nat) (s : State) : ambient (tgFails c err s) = ambient s := by
  unfold tgFails
  dsimp only
  split
  · rw [ambient_raiseBit, ambient_setTg, ambient_modReg]; rfl
  · rw [ambient_setTg, ambient_modReg]; rfl

@[simp] theorem ambient_tgEnter (c : Nat) (write : Bool) (a : Nat) (data : List Byte) (n : Nat) (s : State) :
    ambient (tgEnter c write a data n s) = ambient s := by
  unfold tgEnter
  rw [ambient_enterPort]
  rfl

theorem ambient_tgBurst {s t : State} {c : Nat} (h : tgBurst s c = some t) : ambient t = ambient s := by
  unfold tgBurst at h
  dsimp only at h
  split at h
  · exact absurd h (by simp)
  · split at h
    · rw [← Option.some.inj h, ambient_tgEnter, ambient_setTg]
    · split at h
      · exact absurd h (by simp)
      · split at h
        · rw [← Option.some.inj h, ambient_tgFails]
        · rw [← Option.some.inj h, ambient_tgEnter, ambient_setTg]

@[simp] theorem ambient_tgIssue (n : Nat) (s : State) : ambient (tgIssue n s) = ambient s := by
  induction n generalizing s with
  | zero => rfl
  | succ n ih =>
    unfold tgIssue
    split
    · rename_i t ht
      obtain ⟨i, -, hi⟩ := List.exists_of_findSome?_eq_some ht
      exact (ih t).trans (ambient_tgBurst hi)
    · rfl

@[simp] theorem ambient_tgIssueAll (s : State) : ambient (tgIssueAll s) = ambient s := ambient_tgIssue ..

@[simp] theorem ambient_tgStart (c : Nat) (last irq : Bool) (s : State) : ambient (tgStart c last irq s) = ambient s := by
  unfold tgStart
  split <;> simp

@[simp] theorem ambient_tgLoad (c : Nat) (bs : List Byte) (s : State) : ambient (tgLoad c bs s) = ambient s := by simp [tgLoad]

@[simp] theorem ambient_tongsReply (c : Nat) (t : Trans) (data : List Byte) (err : Option BusKind) (s : State) :
    ambient (tongsReply c t data err s) = ambient s := by
  unfold tongsReply
  dsimp only
  repeat' split
  all_goals simp

/-! ### The PCIe endpoint -/

@[simp] theorem ambient_issueRequest (i : Nat) (s : State) : ambient (issueRequest i s) = ambient s := by
  unfold issueRequest
  split
  · rfl
  · split
    · rfl
    · exact ambient_forEach fun x s => ambient_enterPort ..

@[simp] theorem ambient_issueRequests (s : State) : ambient (issueRequests s) = ambient s := ambient_forUpTo ambient_issueRequest

@[simp] theorem ambient_aerReport (i : Nat) (s : State) : ambient (aerReport i s) = ambient s := (rfl)

@[simp] theorem ambient_writeFailed (status : Nat) (s : State) : ambient (writeFailed status s) = ambient s := by
  unfold writeFailed countPciErr
  split
  · rw [ambient_aerReport, ambient_modReg]
  · rw [ambient_aerReport, ambient_modReg]

@[simp] theorem ambient_finishRequest (r : PciReq) (s : State) : ambient (finishRequest r s) = ambient s := by
  unfold finishRequest
  repeat' split
  all_goals simp

@[simp] theorem ambient_completeRequests (s : State) : ambient (completeRequests s) = ambient s := ambient_forEach ambient_finishRequest

@[simp] theorem ambient_pciReply (t : Trans) (data : List Byte) (err : Option BusKind) (s : State) : ambient (pciReply t data err s) = ambient s := by
  unfold pciReply
  split
  · exact ambient_issueRequests s
  · rw [ambient_issueRequests, ambient_completeRequests]
    rfl

/-! ### The fabric -/

@[simp] theorem ambient_countFb (o : Nat) (s : State) : ambient (countFb o s) = ambient s := (rfl)
@[simp] theorem ambient_deliver (p : Nat) (f : Frame) (s : State) : ambient (deliver p f s) = ambient s := (rfl)
@[simp] theorem ambient_sendOne (p : Nat) (f : Frame) (w : Nat) (s : State) : ambient (sendOne p f w s) = ambient s := (rfl)

@[simp] theorem ambient_sendFrames_go (p n : Nat) (s : State) : ambient (sendFrames.go p n s) = ambient s := by
  induction n generalizing s with
  | zero => rfl
  | succ n ih =>
    unfold sendFrames.go
    repeat' split
    · rfl
    · rw [ih, ambient_sendOne]
    · rfl

@[simp] theorem ambient_queueFrame (p : Nat) (f : Frame) (s : State) : ambient (queueFrame p f s) = ambient s := by simp [queueFrame, sendFrames]

@[simp] theorem ambient_forwardOn (p : Nat) (f : Frame) (s : State) : ambient (forwardOn p f s) = ambient s := by
  unfold forwardOn
  split <;> simp

@[simp] theorem ambient_routeQuiet (f : Frame) (s : State) : ambient (routeQuiet f s) = ambient s := by
  unfold routeQuiet
  split <;> simp

@[simp] theorem ambient_sendTo (f : Frame) (s : State) : ambient (sendTo f s) = ambient s := by
  unfold sendTo
  dsimp only
  repeat' split
  all_goals simp

@[simp] theorem ambient_completeDesc (i kind : Nat) (s : State) : ambient (completeDesc i kind s) = ambient s := by simp [completeDesc]

@[simp] theorem ambient_endTransaction (x : FabTrans) (kind : Nat) (s : State) : ambient (endTransaction x kind s) = ambient s := by simp [endTransaction]

@[simp] theorem ambient_ringEnds (s : State) : ambient (ringEnds s) = ambient s := by
  unfold ringEnds
  dsimp only
  split <;> simp

@[simp] theorem ambient_notice (code data : Nat) (s : State) : ambient (notice code data s) = ambient s := by
  unfold notice
  split <;> simp

@[simp] theorem ambient_holdover (s : State) : ambient (holdover s) = ambient s := by
  unfold holdover
  dsimp only
  repeat' split
  all_goals simp

@[simp] theorem ambient_fabricLost (s : State) : ambient (fabricLost s) = ambient s := by
  unfold fabricLost
  dsimp only
  rw [ambient_holdover, ambient_modFab, ambient_forUpTo fun _ s => ambient_ringEnds s, ambient_forEach fun x s => ambient_endTransaction ..,
    ambient_forUpTo fun p s => ambient_setPortAt ..]

/-! ### Loss -/

@[simp] theorem ambient_giveReply (t : Trans) (data : List Byte) (err : Option BusKind) (s : State) : ambient (giveReply t data err s) = ambient s := by
  unfold giveReply
  repeat' split
  · rfl
  all_goals simp

@[simp] theorem ambient_matrixReply (t : Trans) (data : List Byte) (err : Option BusKind) (s : State) : ambient (matrixReply t data err s) = ambient s := by
  unfold matrixReply
  repeat' split
  all_goals simp

/-- R21: the transactions that a lost boundary ends leave the pins and the domains alone. -/
@[simp] theorem ambient_endCrossing (d : Nat) (s : State) : ambient (endCrossing d s) = ambient s := by
  unfold endCrossing
  dsimp only
  rw [ambient_grantAll, ambient_forEach fun t s => ambient_matrixReply ..]
  rfl

@[simp] theorem ambient_skipDomain (d : Nat) (s : State) : ambient (skipDomain d s) = ambient s := by
  refine ambient_forUpTo fun i s => ?_
  dsimp only
  split <;> simp

@[simp] theorem ambient_linkDown (s : State) : ambient (linkDown s) = ambient s := by
  unfold linkDown
  split <;> simp

@[simp] theorem ambient_stackLost (n : Nat) (s : State) : ambient (stackLost n s) = ambient s := ambient_forEach fun _ _ => ambient_modEng ..

@[simp] theorem ambient_reportLoss (d : Nat) (s : State) : ambient (reportLoss d s) = ambient s := (rfl)
@[simp] theorem ambient_resetPages (d : Nat) (s : State) : ambient (resetPages d s) = ambient s := (rfl)

theorem ambient_srcChange (c : Nat) (old new : Word) (s : State) : ambient (srcChange c old new s) = ambient s := by
  unfold srcChange
  split <;> rfl

theorem ambient_trip (c cause key : Nat) (s : State) : ambient (trip c cause key s) = ambient s := ambient_of_apart (apart_trip ..)

theorem ambient_tripWatched (c cause key : Nat) (s : State) : ambient (tripWatched c cause key s) = ambient s := by
  unfold tripWatched
  split
  · exact ambient_trip ..
  · rfl

theorem ambient_tripAll (cause key : Nat) (s : State) : ambient (tripAll cause key s) = ambient s := ambient_forUpTo fun _ _ => ambient_tripWatched ..

theorem ambient_degradeSites (t : Nat) (s : State) : ambient (degradeSites t s) = ambient s := ambient_forEach fun _ _ => ambient_send ..

/-- The effects of a loss on the rest of the device. -/
theorem ambient_lossEffects (d : Nat) (s : State) : ambient (lossEffects d s) = ambient s := by
  have lost : ambient (skipDomain d (endCrossing d s)) = ambient s := by simp
  unfold lossEffects
  dsimp only
  generalize skipDomain d (endCrossing d s) = t at lost ⊢
  rw [← lost]
  split
  · exact (ambient_degradeSites ..).trans (ambient_forUpTo fun p s => ambient_trip ..)
  split
  · exact ambient_tripAll ..
  split
  · simp
  · simp

theorem ambient_resetTile (d : Nat) (s : State) : ambient (resetTile d s) = ambient s := by
  unfold resetTile
  refine (ambient_forUpTo (f := fun p s => modChan (64 * d + p) (tileChan true) s) fun _ _ => rfl).trans ?_
  exact (ambient_forUpTo fun p s => ambient_srcChange .. : ambient (resetSources d s) = ambient s)

end Sys2Proof.Machine
end

-- ==== HBM training and heat ====
section
/-! PROOFS. HBM training and thermal behaviour (spec 17 R446, 19 R482, R483). -/

-- One theorem at a time: elaborating them in parallel takes the memory of many threads.
set_option Elab.async false

namespace Sys2Proof.Machine

/-! ### HBM training (17 R446) -/

theorem retrainWrite_retrain (n : Nat) (m : Master) (v : Word) (s : State) : retrainWrite n m (setBit v 0 true) s =
    if stackBusy s n then rejectWrite (hbmPage n) 0x704 m s else wrReg (hbmPage n) 0x700 0x40000000 s :=
  if_neg (by rw [bit_setBit_same v true (by decide : 0 < 32)]; simp)

theorem trained_training {n : Nat} {s : State} (ok : Bool) (up : domLost s (10 + n) = false) (training : fld (rdReg s (hbmPage n) 0x700) 31 30 = 1) :
    trained n ok s = if ok then trainReady n s else trainFails n s := if_neg (by simp [up, training])

/-! ### Domains held in reset -/

/-- A reset of a domain other than D8 leaves the thermal state and the domains' states. -/
theorem thermal_resetDomain {d : Nat} (hd : d ≠ 8) (s : State) : (resetDomain d s).thermal = s.thermal ∧ (resetDomain d s).doms = s.doms := by
  unfold resetDomain
  split
  · exact ⟨thermal_of_ambient (ambient_resetTile d s), doms_of_ambient (ambient_resetTile d s)⟩
  · split
    · exact ⟨rfl, rfl⟩
    · exact ⟨rfl, rfl⟩

theorem thermal_loseBy (d : Nat) (x : Domain) (s : State) : (loseBy d x s).thermal = s.thermal ∧ (loseBy d x s).doms = (setDom d x s).doms := by
  unfold loseBy
  split
  · exact ⟨rfl, rfl⟩
  · have rest := ambient_lossEffects d (setDom d x s)
    exact ⟨(thermal_of_ambient rest).trans rfl, doms_of_ambient rest⟩

/-- A domain that is put in reset is in reset; the thermal state and the other domains are as they were. -/
theorem loseDomain_reset {d : Nat} (hd : d ≠ 8) (s : State) :
    (loseDomain d .reset s).thermal = s.thermal ∧ (dom (loseDomain d .reset s) d).inReset = true ∧ ∀ e, e ≠ d → dom (loseDomain d .reset s) e = dom s e := by
  unfold loseDomain
  dsimp only
  split
  · next held => exact ⟨rfl, held, fun _ _ => rfl⟩
  · obtain ⟨thermal₁, doms₁⟩ := thermal_loseBy d { dom s d with inReset := true, due := false } s
    generalize loseBy d { dom s d with inReset := true, due := false } s = t at thermal₁ doms₁
    obtain ⟨thermal₂, doms₂⟩ := thermal_resetDomain hd t
    have at_ (e : Nat) : dom (resetDomain d t) e = dom (setDom d { dom s d with inReset := true, due := false } s) e := by
      unfold dom
      rw [doms₂, doms₁]
      rfl
    refine ⟨thermal₂.trans thermal₁, ?_, fun e ne => ?_⟩
    · rw [at_, dom_setDom_same]
    · rw [at_, dom_setDom_ne ne]

/-- The domains of the tiles and the stacks. -/
def heated : List Nat := [0, 1, 2, 3, 4, 5, 6, 7, 10, 11, 12, 13]

theorem mem_heated {d : Nat} : d ∈ heated ↔ d < 8 ∨ (10 ≤ d ∧ d < 14) := by
  simp only [heated, List.mem_cons, List.not_mem_nil, or_false]
  omega

theorem forEach_cons {σ α : Type} (a : α) (l : List α) (s : σ) (f : α → σ → σ) : forEach (a :: l) s f = forEach l (f a s) f := rfl

/-- Every domain of a list put in reset. -/
theorem reset_forEach {l : List Nat} (h : 8 ∉ l) (s : State) : (forEach l s (fun d s => loseDomain d .reset s)).thermal = s.thermal ∧
    ∀ d, (d ∈ l ∨ (dom s d).inReset = true) → (dom (forEach l s (fun d s => loseDomain d .reset s)) d).inReset = true := by
  induction l generalizing s with
  | nil => exact ⟨rfl, fun d hd => hd.resolve_left (List.not_mem_nil)⟩
  | cons a l ih =>
    obtain ⟨na, nl⟩ : 8 ≠ a ∧ 8 ∉ l := by simpa using h
    obtain ⟨thermal₁, held, others⟩ := loseDomain_reset (Ne.symm na) s
    rw [forEach_cons]
    generalize loseDomain a .reset s = t at thermal₁ held others
    obtain ⟨thermal₂, rest⟩ := ih nl t
    refine ⟨thermal₂.trans thermal₁, fun d hd => rest d ?_⟩
    obtain e | ne := eq_or_ne d a
    · exact .inr (e ▸ held)
    · rw [others d ne]
      exact hd.imp_left fun hd => (List.mem_cons.1 hd).resolve_left ne

/-! ### Warning and trip (19 R483) -/

theorem tripTemp_keeps {n : Nat} {x : BitVec 16} {s : State} (warn : s.thermal.warn = true) (cool : x.toInt ≤ 1840 ∨ s.thermal.trip = true) :
    tripTemp n x s = setTemp n x s := by
  unfold tripTemp
  rw [if_pos warn]
  exact if_pos cool

theorem warned_warnTemp {n : Nat} {x : BitVec 16} (hot : 1840 < x.toInt) {s u : State} (eu : u = if s.thermal.warn then setTemp n x s else warnTemp n x s) :
    u.thermal.warn = true ∧ u.thermal.trip = s.thermal.trip := by
  cases warn : s.thermal.warn with
  | true =>
    rw [warn, if_pos rfl] at eu
    exact ⟨by rw [eu]; exact warn, by rw [eu]; rfl⟩
  | false =>
    rw [warn, if_neg Bool.false_ne_true] at eu
    have hotter : u = report ⟨0, smbPage, 3, fEVENT, 0, 0, []⟩ (raiseBit smbPage 0 { setTemp n x s with thermal := { (setTemp n x s).thermal with warn := true } }) :=
      eu.trans (if_neg (by omega))
    have kept : u.thermal = { (setTemp n x s).thermal with warn := true } := by
      rw [hotter]
      exact (report_thermal ..).trans (raiseBit_thermal ..)
    exact ⟨by rw [kept], by rw [kept]; rfl⟩

theorem tripTemp_trips {n : Nat} {x : BitVec 16} {s t : State} (hot : 1840 < x.toInt) (first : s.thermal.trip = false) (et : t = tripTemp n x s) :
    t.thermal.trip = true ∧ t.thermal.warn = true ∧ ∀ d, d < 8 ∨ (10 ≤ d ∧ d < 14) → (dom t d).inReset = true := by
  unfold tripTemp at et
  generalize eu : (if s.thermal.warn = true then setTemp n x s else warnTemp n x s) = u at et
  obtain ⟨warn, trip⟩ := warned_warnTemp hot eu.symm
  replace et : t = forEach heated { u with thermal := { u.thermal with trip := true } } (fun d s => loseDomain d .reset s) :=
    et.trans (if_neg (by rw [trip, first]; simp; omega))
  obtain ⟨thermal, held⟩ := reset_forEach (l := heated) (by decide) { u with thermal := { u.thermal with trip := true } }
  rw [← et] at thermal held
  exact ⟨by rw [thermal], by rw [thermal]; exact warn, fun d hd => held d (.inl (mem_heated.2 hd))⟩

/-! ### Recovery (19 R483) -/

/-- A domain that a recovery releases. -/
def Released (x y : Domain) : Prop := y.inReset = false ∧ y.isolated = false ∧ y.due = true ∧ y.good = x.good

theorem releaseDomain_cool {d : Nat} {s : State} (cool : s.thermal.trip = false) : releaseDomain d s =
    setDom d { dom s d with inReset := false, isolated := false, due := true, waits := some (s.now + freeVal 30 s % (10 * us)) } (tick s) :=
  if_neg (by simp [thermalHeld, cool])

/-- A list of domains released: each of them is, every other domain, the channels and the memories are as they were. -/
theorem release_forEach {l : List Nat} {s : State} (cool : s.thermal.trip = false) (t : State) (et : t = forEach l s releaseDomain) :
    t.thermal = s.thermal ∧ t.chans = s.chans ∧ t.mem = s.mem ∧ (∀ d ∈ l, Released (dom s d) (dom t d)) ∧ ∀ d, d ∉ l → dom t d = dom s d := by
  induction l generalizing s with
  | nil => exact et ▸ ⟨rfl, rfl, rfl, fun d hd => absurd hd List.not_mem_nil, fun _ _ => rfl⟩
  | cons a l ih =>
    rw [forEach_cons, releaseDomain_cool cool] at et
    generalize eu : setDom a { dom s a with inReset := false, isolated := false, due := true, waits := some (s.now + freeVal 30 s % (10 * us)) } (tick s) = u at et
    have same : u.thermal = s.thermal ∧ u.chans = s.chans ∧ u.mem = s.mem := eu ▸ ⟨rfl, rfl, rfl⟩
    have own : Released (dom s a) (dom u a) := by rw [← eu, dom_setDom_same]; exact ⟨rfl, rfl, rfl, rfl⟩
    have other (d : Nat) (ne : d ≠ a) : dom u d = dom s d := by rw [← eu, dom_setDom_ne ne, dom_tick]
    obtain ⟨th, ch, me, inL, outL⟩ := ih (same.1 ▸ cool) et
    refine ⟨th.trans same.1, ch.trans same.2.1, me.trans same.2.2, fun d hd => ?_, fun d hd => ?_⟩
    · by_cases hl : d ∈ l
      · obtain ⟨r, i, du, g⟩ := inL d hl
        refine ⟨r, i, du, g.trans ?_⟩
        obtain e | ne := eq_or_ne d a
        · exact e ▸ own.2.2.2
        · rw [other d ne]
      · obtain rfl : d = a := (List.mem_cons.1 hd).resolve_right hl
        rw [outL d hl]
        exact own
    · obtain ⟨ne, hl⟩ : d ≠ a ∧ d ∉ l := by simpa using hd
      rw [outL d hl, other d ne]

theorem setTemps_rest (l : List (BitVec 16)) (s : State) : setTemps l s = { s with thermal := (setTemps l s).thermal } := by
  refine forUpTo_inv (P := fun t : State => t = { s with thermal := t.thermal }) rfl fun i t ht => ?_
  split
  · rw [ht]; rfl
  · exact ht

theorem tripClears_not {l : List (BitVec 16)} {s : State} (h : allAtMost (setTemps l s) 1520 = false ∨ s.thermal.trip = false)
    (same : (setTemps l s).thermal.trip = s.thermal.trip) : tripClears l s = setTemps l s :=
  if_pos (by rw [same]; obtain h | h := h <;> simp [h])

theorem trip_setTemps (l : List (BitVec 16)) (s : State) : (setTemps l s).thermal.trip = s.thermal.trip := by
  refine forUpTo_inv (P := fun t : State => t.thermal.trip = s.thermal.trip) rfl fun i t ht => ?_
  split
  · exact ht
  · exact ht

theorem tripClears_releases {l : List (BitVec 16)} {s t : State} (cool : allAtMost (setTemps l s) 1520 = true) (trip : s.thermal.trip = true) (et : t = tripClears l s) :
    t.thermal.trip = false ∧ t.thermal.warn = false ∧ (∀ d, d < 8 ∨ (10 ≤ d ∧ d < 14) → (dom t d).inReset = false ∧ (dom t d).isolated = false ∧ (dom t d).due = true ∧ (dom t d).good = (dom s d).good) ∧
    dom t 8 = dom s 8 ∧ dom t 9 = dom s 9 ∧ t.chans = s.chans ∧ t.mem = s.mem := by
  have rest := setTemps_rest l s
  have tripped := trip_setTemps l s
  unfold tripClears at et
  generalize setTemps l s = u at et cool rest tripped
  replace et : t = forEach heated { u with thermal := { u.thermal with trip := false, warn := false } } releaseDomain :=
    et.trans (if_neg (by rw [cool, tripped, trip]; decide))
  obtain ⟨th, ch, me, inL, outL⟩ := release_forEach (s := { u with thermal := { u.thermal with trip := false, warn := false } }) rfl t et
  have domU (d : Nat) : dom { u with thermal := { u.thermal with trip := false, warn := false } } d = dom s d := by rw [rest]; rfl
  refine ⟨by rw [th], by rw [th], fun d hd => ?_, ?_, ?_, ch.trans (by rw [rest]), me.trans (by rw [rest])⟩
  · have := inL d (mem_heated.2 hd)
    rw [domU] at this
    exact this
  · rw [outL 8 (by decide), domU]
  · rw [outL 9 (by decide), domU]

/-- Settles O49: training by its two outcomes, heat by what a reset or a release of a list of domains does to each of them. -/
theorem hbmTrainsAndHeatTripsDomains : Obligations.HbmTrainsAndHeatTripsDomains := by
  unfold Obligations.HbmTrainsAndHeatTripsDomains
  refine ⟨fun n m v s takes => ?_, fun n s up training => ⟨?_, ?_⟩, fun i x s u eu => ⟨?_, fun warn cool => ?_, fun first hot => ?_⟩,
    fun l s u eu => ⟨fun h => ?_, fun cool trip => ?_, ?_⟩⟩
  · exact congrArg Host.Outcome.next ((accessWrite_hbCtl n.isLt _ takes).trans (retrainWrite_retrain ..))
  · exact congrArg Host.Outcome.next ((trained_training true up training).trans rfl)
  · exact congrArg Host.Outcome.next ((trained_training false up training).trans rfl)
  · subst eu
    rfl
  · exact congrArg Host.Outcome.next ((tripTemp_keeps warn cool).trans eu.symm)
  · exact ⟨_, rfl, tripTemp_trips hot first rfl⟩
  · exact congrArg Host.Outcome.next ((tripClears_not (eu ▸ h) (trip_setTemps l s)).trans eu.symm)
  · exact ⟨_, rfl, tripClears_releases (eu ▸ cool) trip rfl⟩
  · subst eu
    rfl

end Sys2Proof.Machine
end

-- ==== flush, freeze and clear ====
section
/-! PROOFS. Flush, freeze, thaw and clearing of Patina's rings (spec 16 R419-R422). -/

-- One theorem at a time: elaborating them in parallel takes the memory of many threads.
set_option Elab.async false

namespace Sys2Proof.Machine

/-! ### Registers that a write of a bank, a sample or a frame leaves -/

theorem regs_targetWrite (t : Target) (a : Nat) (bs : List Byte) (s : State) : (targetWrite t a bs s).regs = s.regs :=
  ((regs_setBytes ..).trans (regs_clearResv ..)).trans (regs_keepStale ..)

theorem regs_portWrite (t : Target) (a : Nat) (bs : List Byte) (s : State) : (portWrite t a bs s).regs = s.regs := by
  unfold portWrite
  split
  · exact (regs_targetWrite ..)
  · exact regs_targetWrite ..

theorem rdReg_portWrite (t : Target) (a : Nat) (bs : List Byte) (s : State) (p o : Nat) : rdReg (portWrite t a bs s) p o = rdReg s p o := by
  have swapped := congrArg State.swapped (bankOnly_portWrite t a bs s)
  have cal := congrArg State.calSwapped (bankOnly_portWrite t a bs s)
  simp only [rdReg, rdRole, roleKey, canvasSet, regs_portWrite, swapped, cal]

/-- A write of a bank by any master leaves every register of a page other than MX. -/
theorem rdReg_bankPut (m : Master) (a : Nat) (bs : List Byte) (s : State) {p o : Nat} (hp : p < 2 ^ 14) (ho : o < 2 ^ 12) (ne : mxPage ≠ p) :
    rdReg (bankPut m a bs s) p o = rdReg s p o := by
  have mx : mxPage < 2 ^ 14 := by decide
  have off {q : Nat} {r : Nat} (hr : r < 2 ^ 12) (v : Word) (t : State) : rdReg (wrReg mxPage r v t) p o = rdReg t p o :=
    rdReg_wrReg_ne mx hp hr ho (fun e => ne e.1) v t
  unfold bankPut
  split
  · exact rdReg_portWrite ..
  · unfold mxError
    dsimp only
    have raised : rdReg (raiseBit mxPage 0 s) p o = rdReg s p o := rdReg_raise_ne _ mx hp ho (fun e => ne e.1) s
    split
    · exact raised
    · rw [off (q := mxPage) (by decide), off (q := mxPage) (by decide), off (q := mxPage) (by decide), raised]

theorem rdReg_wmSample_offset {p q n r : Nat} (hn : n < 4) (hr : r < 2 ^ 12) (time : r ≠ 0x030 + 4 * n) (block : r < 0x040 + 0x10 * n ∨ 0x050 + 0x10 * n ≤ r) (v : Nat) (s : State) :
    rdReg (wmSample p n v s) q r = rdReg s q r := by
  have stored (a : Bool) (w : Nat) : rdReg (sampleStored p n w a s) q r = rdReg s q r :=
    (rdReg_modReg_offset (by omega) hr (by omega) _ _).trans (rdReg_wrReg_offset (by omega) hr (by omega) _ _)
  have counted (t : State) : rdReg (crossingCounted p n t) q r = rdReg t q r := rdReg_wrReg_offset (by omega) hr (by omega) _ _
  rw [wmSample_eq p n v s rfl rfl rfl rfl]
  split
  · rw [rdReg_noteIrq]
    split
    · rw [counted, stored]
    · rw [rdReg_wrReg_offset (by omega) hr time, counted, stored]
  · exact stored ..

/-! ### An interrupt bit stays set while a service completes -/

/-- Bit i of PG_IRQ_RAW of page q is set. -/
def Raised (q i : Nat) (s : State) : Prop := bit (rdReg s q 0x010) i = true

theorem Raised.of_same {q i : Nat} {s t : State} (h : Raised q i s) (same : rdReg t q 0x010 = rdReg s q 0x010) : Raised q i t := by
  unfold Raised
  rw [same]
  exact h

section
variable {q i : Nat} (hq : q < 2 ^ 14) {s : State} (h : Raised q i s)
include hq h

theorem Raised.bankPut (ne : mxPage ≠ q) (m : Master) (a : Nat) (bs : List Byte) : Raised q i (bankPut m a bs s) := h.of_same (rdReg_bankPut m a bs s hq (by decide) ne)

theorem Raised.raiseBit {p : Nat} (hp : p < 2 ^ 14) (j : Nat) : Raised q i (raiseBit p j s) := bit_raiseBit_of_set h hp hq

omit hq in
theorem Raised.countFb {o : Nat} (ho : o < 2 ^ 12) (ne : 0x010 ≠ o) : Raised q i (countFb o s) := h.of_same (rdReg_modReg_offset ho (by decide) ne _ _)

omit hq in
theorem Raised.sendOne (p : Nat) (f : Frame) (w : Nat) : Raised q i (sendOne p f w s) := h.of_same rfl

omit hq in
theorem Raised.sendFrames (p : Nat) : Raised q i (sendFrames p s) := by
  unfold Sys2Proof.Machine.sendFrames
  generalize (port s p).txq.length = n
  induction n generalizing s with
  | zero => exact h
  | succ n ih =>
    unfold sendFrames.go
    split
    · exact h
    · split
      · exact ih (h.sendOne ..)
      · exact h

omit hq in
theorem Raised.queueFrame (p : Nat) (f : Frame) : Raised q i (queueFrame p f s) := by
  have queued : Raised q i (modPort p (fun x => { x with txq := x.txq ++ [f] }) s) := h.of_same rfl
  exact (queued.sendFrames p).of_same (rdReg_wmSample_offset (by decide) (by decide) (by decide) (by decide) _ _)

omit hq in
theorem Raised.forwardOn (p : Nat) (f : Frame) : Raised q i (forwardOn p f s) := by
  unfold Sys2Proof.Machine.forwardOn
  split
  · exact h.countFb (by decide) (by decide)
  · exact h.queueFrame ..

omit hq in
theorem Raised.sendTo (f : Frame) : Raised q i (sendTo f s) := by
  unfold Sys2Proof.Machine.sendTo
  have dropped : Raised q i (Sys2Proof.Machine.countFb 0x738 s) := h.countFb (by decide) (by decide)
  split
  · exact h.of_same rfl
  · split
    · exact h.forwardOn ..
    · dsimp only
      split
      · exact dropped
      · split
        · exact dropped.of_same rfl
        · unfold routeQuiet
          split
          · exact dropped.forwardOn ..
          · exact dropped.countFb (by decide) (by decide)

omit hq in
theorem Raised.notice (code data : Nat) : Raised q i (notice code data s) := by
  unfold Sys2Proof.Machine.notice
  split
  · exact h
  · exact h.sendTo _

theorem Raised.slotDone (ne : mxPage ≠ q) (fab : Bool) (slot result out0 : Nat) : Raised q i (slotDone fab slot result out0 s) := by
  have put {s : State} (h : Raised q i s) (m : Master) (a : Nat) (bs : List Byte) : Raised q i (Sys2Proof.Machine.bankPut m a bs s) := Raised.bankPut hq h ne m a bs
  unfold Sys2Proof.Machine.slotDone checkpoint
  dsimp only
  split
  · exact (put (put (put h _ _ _) _ _ _) _ _ _).notice ..
  · exact Raised.raiseBit hq (put (put (put h _ _ _) _ _ _) _ _ _) (by decide) 0

theorem Raised.finishWaits (ne : mxPage ≠ q) (w : SlotWait) (result out0 : Nat) : Raised q i (finishWaits w result out0 s) :=
  forEach_inv (P := Raised q i) (h.of_same rfl) fun _ _ ht => Raised.slotDone hq ht ne ..
end

/-! ### What the completion of a service leaves -/

theorem ambient_slotDone (fab : Bool) (slot result out0 : Nat) (s : State) : ambient (slotDone fab slot result out0 s) = ambient s := by
  unfold slotDone checkpoint
  dsimp only
  split <;> simp

theorem pinSide_slotDone (fab : Bool) (slot result out0 : Nat) (s : State) : pinSide (slotDone fab slot result out0 s) = pinSide s := by
  unfold slotDone checkpoint
  dsimp only
  split <;> simp

theorem ambient_finishWaits (w : SlotWait) (result out0 : Nat) (s : State) :
    ambient (finishWaits w result out0 s) = ambient { s with taken := s.taken.filter (fun t => t.wait != w) } := ambient_forEach fun _ _ => ambient_slotDone ..

theorem chans_finishWaits (w : SlotWait) (result out0 : Nat) (s : State) : (finishWaits w result out0 s).chans = s.chans :=
  chans_of_pinSide ((pinSide_forEach fun _ _ => pinSide_slotDone ..).trans rfl)

/-- What Patina holds beside the events on their way is that of the rest. -/
theorem patina_of_ambient {s t : State} (h : ambient t = ambient s) : { t.patina with offers := [] } = { s.patina with offers := [] } := (congrArg State.patina h :)

theorem finishWaits_none {w : SlotWait} {s : State} (h : ∀ x ∈ s.taken, x.wait ≠ w) (result out0 : Nat) : finishWaits w result out0 s = { s with taken := s.taken.filter (fun t => t.wait != w) } := by
  unfold finishWaits
  rw [List.filter_eq_nil_iff.2 fun x hx => by simpa using h x hx]
  rfl

/-! ### Memory words of the MRAM -/

theorem bankOpen_patina {s : State} {a b : Nat} (at_ : targetOf s a = .mram b) (up : domLost s 8 = false) (bs : List Byte) :
    bankPut .patina a bs s = portWrite (.mram b) a bs s := by
  have target : portTarget s .patina a = .mram b := by unfold portTarget; rw [at_]; rfl
  unfold bankPut bankOpen
  rw [target, up]
  rfl

theorem targetOf_mram1 {a : Nat} (h : 0x2400000 ≤ a ∧ a < 0x2800000) (s : State) : targetOf s a = .mram 1 := by
  unfold targetOf
  repeat rw [if_neg (by omega)]
  exact if_pos h

theorem targetOf_mram0 {a : Nat} (h : 0x2000000 ≤ a ∧ a < 0x2400000) (s : State) : targetOf s a = .mram 0 := by
  unfold targetOf
  repeat rw [if_neg (by omega)]
  exact if_pos h

/-- A write of Patina at an address of the MRAM changes the bytes it names, or nothing. -/
theorem memByte_bankPut_mram {s : State} {a b : Nat} (at_ : targetOf s a = .mram b) (bs : List Byte) {x : Nat} (out : x < a ∨ a + bs.length ≤ x) :
    memByte (bankPut .patina a bs s) x = memByte s x := by
  unfold bankPut
  split
  · have target : portTarget s .patina a = .mram b := by unfold portTarget; rw [at_]; rfl
    rw [target, memByte_portWrite]
    exact if_neg (by show ¬ (a ≤ x ∧ x < a + bs.length); omega)
  · unfold memByte
    rw [(pageOnly_mxError ..).mem_eq]

theorem mramWord_of_bytes {s : State} {a : Nat} {v : Word} (h : memBytes s a 4 = leBytes 4 v.toNat) : mramWord s a = v := by
  unfold mramWord
  rw [h, leNat_leBytes]
  exact BitVec.eq_of_toNat_eq (by simpa [w32] using v.isLt)

/-- The control line holds the head and the tail (R420). -/
theorem mramWord_mramControl {s : State} (up : domLost s 8 = false) :
    mramWord (mramControl s) patLine = rdReg s patPage 0x708 ∧ mramWord (mramControl s) (patLine + 4) = rdReg s patPage 0x70C := by
  unfold mramControl
  rw [bankOpen_patina (targetOf_mram1 (by decide) s) up]
  generalize hh : (rdReg s patPage 0x708) = h
  generalize ht : (rdReg s patPage 0x70C) = t
  generalize hu : portWrite (.mram 1) patLine (leBytes 4 h.toNat ++ leBytes 4 t.toNat) s = u
  have byte (x : Nat) : memByte u x = if patLine ≤ x ∧ x < patLine + 8 then (leBytes 4 h.toNat ++ leBytes 4 t.toNat).getD (x - patLine) 0 else memByte s x := by
    rw [← hu, memByte_portWrite, List.length_append, length_leBytes, length_leBytes]
    rfl
  have l4 (v : Word) : (leBytes 4 v.toNat).length = 4 := length_leBytes ..
  refine ⟨mramWord_of_bytes ?_, mramWord_of_bytes ?_⟩
  · have copied := memBytes_setBytes (leBytes 4 h.toNat) patLine s
    rw [l4] at copied
    rw [← copied]
    refine memBytes_congr _ _ 4 patLine fun x lo hi => ?_
    rw [byte, memByte_setBytes, l4, if_pos (by omega), if_pos (by omega), List.getD_append _ _ _ _ (by rw [l4]; omega)]
  · have copied := memBytes_setBytes (leBytes 4 t.toNat) (patLine + 4) s
    rw [l4] at copied
    rw [← copied]
    refine memBytes_congr _ _ 4 (patLine + 4) fun x lo hi => ?_
    rw [byte, memByte_setBytes, l4, if_pos (by omega), if_pos (by omega), List.getD_append_right _ _ _ _ (by rw [l4]; omega), l4, Nat.sub_sub]

/-! ### The MRAM ring -/

theorem bankOnly_wrReg (p o : Nat) (v : Word) (s : State) : BankOnly s (wrReg p o v s) := (pageOnly_wrReg ..).bankOnly

theorem bankOnly_mramMake (n fuel : Nat) (s : State) : BankOnly s (mramMake n fuel s) := by
  induction fuel generalizing s with
  | zero => exact BankOnly.refl s
  | succ fuel ih =>
    unfold mramMake
    split
    · exact BankOnly.refl s
    · exact ((bankOnly_wrReg ..).trans (bankOnly_wrReg ..)).trans (ih _)

theorem bankOnly_mramPut (bs : List Byte) (s : State) : BankOnly s (mramPut bs s) := by
  unfold mramPut
  exact ((bankOnly_mramMake ..).trans (bankOnly_bankPut ..)).trans (bankOnly_wrReg ..)

theorem bankOnly_mramAppend (bs : List Byte) (s : State) : BankOnly s (mramAppend bs s) := by
  unfold mramAppend
  exact (forEach_inv (P := BankOnly s) (BankOnly.refl s) fun _ _ h => h.trans (bankOnly_mramPut ..)).trans (bankOnly_mramPut ..)

theorem bankOnly_mramControl (s : State) : BankOnly s (mramControl s) := bankOnly_bankPut ..

theorem mramMake_empty {s : State} (empty : mramFill s = 0) (n fuel : Nat) : mramMake n fuel s = s := by
  cases fuel with
  | zero => rfl
  | succ fuel =>
    unfold mramMake
    exact if_pos (.inr empty)

/-- The first record of an empty ring. -/
theorem mramPut_empty {s : State} (head : rdReg s patPage 0x708 = 0) (tail : rdReg s patPage 0x70C = 0) (bs : List Byte) :
    mramPut bs s = wrReg patPage 0x70C (w32 (bs.length % 2 ^ 21)) (bankPut .patina (mramRing s) bs s) := by
  have empty : mramFill s = 0 := by unfold mramFill; rw [head, tail]; rfl
  unfold mramPut
  dsimp only
  rw [mramMake_empty empty, tail]
  simp

/-! ### Flush, freeze and thaw -/

/-- The rings and the queue after a flush of the records that were committed. -/
def flushed (p q : Patina) : Patina :=
  { q with vol := q.vol.drop p.flushN, fill := q.fill - ((p.vol.take p.flushN).map List.length).sum, flushing := false, flushN := 0,
           frozen := q.frozen || q.freezing, freezing := false }

theorem flushDone_eq {s : State} (h : s.patina.flushing = true) : flushDone s =
    raiseBit patPage 0 (modPat (flushed s.patina) (mramControl (forEach (s.patina.vol.take s.patina.flushN) s mramAppend))) := by
  unfold flushDone
  exact if_neg (by simp [h])

theorem flushEnds_idle {s : State} (h : s.patina.flushing = false) : flushEnds s = s := by
  have idle : flushDone s = s := if_pos (by simp [h])
  unfold flushEnds
  dsimp only
  rw [idle, h]
  rfl

section
variable {s t : State} (up : domLost s 8 = false) (flushing : s.patina.flushing = true) (et : t = flushDone s)
include up flushing et

/-- The end of a flush: what was committed has left the ring, and the control line holds the head and the tail. -/
theorem flushDone_frees : t.patina = flushed s.patina s.patina ∧ t.chans = s.chans ∧ t.taken = s.taken ∧ Raised patPage 0 t ∧
    mramWord t patLine = rdReg t patPage 0x708 ∧ mramWord t (patLine + 4) = rdReg t patPage 0x70C := by
  have copied : BankOnly s (forEach (s.patina.vol.take s.patina.flushN) s mramAppend) :=
    forEach_inv (P := BankOnly s) (BankOnly.refl s) fun _ _ h => h.trans (bankOnly_mramAppend ..)
  rw [flushDone_eq flushing] at et
  generalize forEach (s.patina.vol.take s.patina.flushN) s mramAppend = u at copied et
  obtain ⟨head, tail⟩ := mramWord_mramControl (copied.up 8 ▸ up)
  have control := copied.trans (bankOnly_mramControl u)
  have regs (o : Nat) (ho : o < 2 ^ 12) (ne : o ≠ 0x010) : rdReg t patPage o = rdReg u patPage o := by
    rw [et, rdReg_raiseBit_offset ho ne]
    exact rdReg_bankPut _ _ _ u (by decide) ho (by decide)
  generalize mramControl u = v at control et head tail
  have same : v.patina = s.patina := (congrArg State.patina control :)
  have word (a : Nat) : mramWord t a = mramWord v a := mramWord_congr fun x _ _ => by rw [et, memByte_raiseBit]; rfl
  refine ⟨?_, ?_, ?_, ?_, ?_, ?_⟩
  · rw [et, raiseBit_patina, ← same]
    rfl
  · rw [et, (pageOnly_raiseBit ..).chans_eq]
    exact control.chans
  · rw [et, (pageOnly_raiseBit ..).taken_eq]
    exact (congrArg State.taken control :)
  · rw [et]
    exact bit_raiseBit_same _ (by decide) _
  · rw [word, head, regs _ (by decide) (by decide)]
  · rw [word, tail, regs _ (by decide) (by decide)]
end

/-- The end of a flush with the services that waited for it. -/
theorem flushEnds_frees {s t : State} (up : domLost s 8 = false) (flushing : s.patina.flushing = true) (et : t = flushEnds s) :
    t.patina.vol = s.patina.vol.drop s.patina.flushN ∧
    t.patina.fill = s.patina.fill - ((s.patina.vol.take s.patina.flushN).map List.length).sum ∧ t.patina.flushing = false ∧ t.patina.frozen = (s.patina.frozen || s.patina.freezing) ∧
    t.patina.freezing = false ∧ bit (rdReg t patPage 0x010) 0 = true ∧ t.patina.intake = s.patina.intake ∧ t.chans = s.chans ∧
    ((∀ x ∈ s.taken, x.wait ≠ .flush) → mramWord t patLine = rdReg t patPage 0x708 ∧ mramWord t (patLine + 4) = rdReg t patPage 0x70C) := by
  obtain ⟨rings, chans, taken, raised, head, tail⟩ := flushDone_frees up flushing rfl
  unfold flushEnds at et
  generalize flushDone s = u at rings chans taken raised head tail et
  replace et : t = if !u.patina.want then finishWaits .flush 0 (patOut u) u else u := et.trans (by rw [flushing]; rfl)
  have rest : { t.patina with offers := [] } = { flushed s.patina s.patina with offers := [] } ∧ t.chans = s.chans ∧ Raised patPage 0 t ∧
      ((∀ x ∈ s.taken, x.wait ≠ .flush) → mramWord t patLine = rdReg t patPage 0x708 ∧ mramWord t (patLine + 4) = rdReg t patPage 0x70C) := by
    rw [et, ← rings]
    split
    · refine ⟨(patina_of_ambient (ambient_finishWaits ..)).trans rfl, (chans_finishWaits ..).trans chans,
        Raised.finishWaits (by decide) raised (by decide) .., fun none_ => ?_⟩
      rw [finishWaits_none (taken ▸ none_)]
      exact ⟨head, tail⟩
    · exact ⟨rfl, chans, raised, fun _ => ⟨head, tail⟩⟩
  obtain ⟨same, chans', raised', words⟩ := rest
  exact ⟨(congrArg Patina.vol same :), (congrArg Patina.fill same :), (congrArg Patina.flushing same :), (congrArg Patina.frozen same :), (congrArg Patina.freezing same :),
    raised', (congrArg Patina.intake same :), chans', words⟩

theorem flushTrigger_asked (s : State) : (flushTrigger s).patina.want = true ∨ (flushTrigger s).patina.flushing = true := by
  unfold flushTrigger
  split
  · next busy => exact .inr busy
  · exact .inl rfl

/-- What a request of a flush leaves. -/
theorem flushTrigger_rest (s : State) : (flushTrigger s).regs = s.regs ∧ (flushTrigger s).swapped = s.swapped ∧ (flushTrigger s).calSwapped = s.calSwapped ∧
    (flushTrigger s).mem = s.mem ∧ (flushTrigger s).chans = s.chans ∧ (flushTrigger s).patina.freezing = s.patina.freezing ∧
    (flushTrigger s).patina.frzBroken = s.patina.frzBroken ∧ (flushTrigger s).patina.vol = s.patina.vol := by
  unfold flushTrigger
  split <;> exact ⟨rfl, rfl, rfl, rfl, rfl, rfl, rfl, rfl⟩

theorem freezeCmd_rejected {m : Master} {s : State} (h : s.patina.frozen = true ∨ s.patina.freezing = true) : freezeCmd m s = rejectWrite patPage 0x704 m s := if_pos h

theorem freezeCmd_asks {m : Master} {s t : State} (thawed : s.patina.frozen = false) (idle : s.patina.freezing = false) (et : t = freezeCmd m s) :
    t.patina.freezing = true ∧ t.patina.frzBroken = false ∧ rdReg t patPage 0x730 = 0 ∧ (t.patina.want = true ∨ t.patina.flushing = true) ∧ t.patina.vol = s.patina.vol ∧
    RegsKept s t [(patPage, 0x730)] ∧ t.mem = s.mem ∧ t.chans = s.chans := by
  replace et : t = flushTrigger (wrReg patPage 0x730 0 (modPat (fun p => { p with freezing := true, frzBroken := false }) s)) := et.trans (if_neg (by simp [thawed, idle]))
  have page : patPage < 2 ^ 14 := by decide
  have kept : RegsKept s (wrReg patPage 0x730 0 (modPat (fun p => { p with freezing := true, frzBroken := false }) s)) [(patPage, 0x730)] :=
    (regsKept_of_eq (t := modPat (fun p => { p with freezing := true, frzBroken := false }) s) _ rfl rfl rfl).wrReg page (by decide) (by simp) 0
  have zero : rdReg (wrReg patPage 0x730 0 (modPat (fun p => { p with freezing := true, frzBroken := false }) s)) patPage 0x730 = 0 := rdReg_wrReg_same ..
  have asked : (wrReg patPage 0x730 0 (modPat (fun p => { p with freezing := true, frzBroken := false }) s)).patina = { s.patina with freezing := true, frzBroken := false } := rfl
  have mem : (wrReg patPage 0x730 0 (modPat (fun p => { p with freezing := true, frzBroken := false }) s)).mem = s.mem := rfl
  have chans : (wrReg patPage 0x730 0 (modPat (fun p => { p with freezing := true, frzBroken := false }) s)).chans = s.chans := rfl
  generalize wrReg patPage 0x730 0 (modPat (fun p => { p with freezing := true, frzBroken := false }) s) = u at et kept zero asked mem chans
  obtain ⟨regs, swapped, cal, mem', chans', freezing, broken, vol⟩ := flushTrigger_rest u
  have same : rdReg (flushTrigger u) patPage 0x730 = rdReg u patPage 0x730 := by simp only [rdReg, rdRole, roleKey, canvasSet, regs, swapped, cal]
  subst et
  exact ⟨freezing.trans (by rw [asked]), broken.trans (by rw [asked]), same.trans zero, flushTrigger_asked u, vol.trans (by rw [asked]), kept.rest regs swapped cal,
    mem'.trans mem, chans'.trans chans⟩

theorem thawCmd_eq (m : Master) (s : State) : thawCmd m s =
    if s.patina.frozen = false then rejectWrite patPage 0x704 m s else modPat (fun p => { p with frozen := false, want := true }) s := by
  unfold thawCmd
  cases s.patina.frozen <;> rfl

theorem flushStart_eq (s : State) : flushStart s = if s.patina.flushing = true ∨ s.patina.want = false ∨ (s.patina.frozen = true ∧ s.patina.bellows = false) then s
    else modPat (fun p => { p with want := false, flushing := true, flushN := p.vol.length }) s := by
  unfold flushStart
  refine if_congr ?_ rfl rfl
  simp

/-! ### CLEAR (R422) -/

/-- The rings after a clearing, before its record. -/
def clearedRings (p : Patina) : Patina := { p with vol := [], fill := 0, ptr := 0, flushing := false, flushN := 0, auth := false }

/-- A clearing before its record: the rings are empty and the MRAM ring starts at its base. -/
def ringsEmpty (s : State) : State := wrReg patPage 0x70C 0 (wrReg patPage 0x708 0 (tick (modPat clearedRings s)))

theorem clearCmd_rejected {m : Master} {service : Bool} {s : State}
    (h : service = false ∨ s.patina.auth = false ∨ s.patina.frozen = true ∨ s.patina.freezing = true ∨ s.patina.bellows = true) :
    clearCmd m service s = rejectWrite patPage 0x704 m s := if_pos (by simpa using h)

theorem length_padTo (n : Nat) (l : List Byte) : (padTo n l).length = n := by
  simp [padTo]

theorem clearCmd_record {m : Master} {s : State} (auth : s.patina.auth = true) (thawed : s.patina.frozen = false) (idle : s.patina.freezing = false) (quiet : s.patina.bellows = false) :
    ∃ bs : List Byte, bs.length = 24 ∧ clearCmd m true s = raiseBit patPage 3 (mramControl (mramPut bs (ringsEmpty s))) :=
  ⟨_, length_padTo .., if_neg (by simp [auth, thawed, idle, quiet])⟩

/-- A clearing: one record is in the MRAM ring, nothing is in the volatile one. -/
theorem clearCmd_clears {m : Master} {s t : State} (auth : s.patina.auth = true) (thawed : s.patina.frozen = false) (idle : s.patina.freezing = false)
    (quiet : s.patina.bellows = false) (et : t = clearCmd m true s) :
    t.patina.vol = [] ∧ t.patina.fill = 0 ∧ t.patina.auth = false ∧ rdReg t patPage 0x708 = 0 ∧ rdReg t patPage 0x70C = 24 ∧ bit (rdReg t patPage 0x010) 3 = true ∧
      rdReg t patPage 0x718 = rdReg s patPage 0x718 ∧ (mramRing s = 0x2200000 → opsec t = opsec s ∧ pcyc t = pcyc s) ∧ t.patina.buckets = s.patina.buckets ∧ t.chans = s.chans := by
  have page : patPage < 2 ^ 14 := by decide
  obtain ⟨bs, len, eq⟩ := clearCmd_record (m := m) auth thawed idle quiet
  rw [eq] at et
  have emptied : BankOnly (tick (modPat clearedRings s)) (ringsEmpty s) := (bankOnly_wrReg ..).trans (bankOnly_wrReg ..)
  have head : rdReg (ringsEmpty s) patPage 0x708 = 0 := by
    unfold ringsEmpty
    rw [rdReg_wrReg_offset (by decide) (by decide) (by decide), rdReg_wrReg_same]
  have tail : rdReg (ringsEmpty s) patPage 0x70C = 0 := rdReg_wrReg_same ..
  have other (o : Nat) (ho : o < 2 ^ 12) (nh : o ≠ 0x708) (nt : o ≠ 0x70C) : rdReg (ringsEmpty s) patPage o = rdReg s patPage o := by
    unfold ringsEmpty
    rw [rdReg_wrReg_offset (by decide) ho nt, rdReg_wrReg_offset (by decide) ho nh]
    rfl
  have ring : mramRing (ringsEmpty s) = mramRing s := by
    unfold mramRing
    rw [other _ (by decide) (by decide) (by decide), other _ (by decide) (by decide) (by decide)]
  have bytes (x : Nat) : memByte (ringsEmpty s) x = memByte s x := rfl
  generalize ringsEmpty s = e at et emptied head tail other ring bytes
  have put := mramPut_empty head tail bs
  have kept (o : Nat) (ho : o < 2 ^ 12) (nt : o ≠ 0x70C) : rdReg (mramPut bs e) patPage o = rdReg e patPage o := by
    rw [put, rdReg_wrReg_offset (by decide) ho nt, rdReg_bankPut _ _ _ _ page ho (by decide)]
  have tail' : rdReg (mramPut bs e) patPage 0x70C = 24 := by rw [put, rdReg_wrReg_same, len]; rfl
  have stored (at_ : mramRing s = 0x2200000) (x : Nat) (hx : 0x2400000 ≤ x) : memByte (mramPut bs e) x = memByte e x := by
    rw [put, memByte_wrReg, memByte_bankPut_mram (b := 0) (targetOf_mram0 (by rw [ring, at_]; decide) e) bs (by rw [ring, at_, len]; omega)]
  have recorded := emptied.trans (bankOnly_mramPut bs e)
  generalize mramPut bs e = f at et kept tail' stored recorded
  have control := recorded.trans (bankOnly_mramControl f)
  have regs (o : Nat) (ho : o < 2 ^ 12) : rdReg (mramControl f) patPage o = rdReg f patPage o := rdReg_bankPut _ _ _ _ page ho (by decide)
  have lines (x : Nat) (hx : clockLine ≤ x) : memByte (mramControl f) x = memByte f x :=
    memByte_bankPut_mram (b := 1) (targetOf_mram1 (by decide) f) _ (.inr (by rw [List.length_append, length_leBytes, length_leBytes]; exact le_trans (by decide) hx))
  generalize mramControl f = g at et control regs lines
  have rings : t.patina = clearedRings s.patina := by
    rw [et, raiseBit_patina]
    exact (congrArg State.patina control :)
  have reg (o : Nat) (ho : o < 2 ^ 12) (ne : o ≠ 0x010) : rdReg t patPage o = rdReg f patPage o := by
    rw [et, rdReg_raiseBit_offset ho ne, regs o ho]
  refine ⟨by rw [rings]; rfl, by rw [rings]; rfl, by rw [rings]; rfl, ?_, ?_, ?_, ?_, fun at_ => ?_, by rw [rings]; rfl, ?_⟩
  · rw [reg _ (by decide) (by decide), kept _ (by decide) (by decide), head]
  · rw [reg _ (by decide) (by decide), tail']
  · rw [et]
    exact bit_raiseBit_same _ (by decide) _
  · rw [reg _ (by decide) (by decide), kept _ (by decide) (by decide), other _ (by decide) (by decide) (by decide)]
  · have clock (a : Nat) (ha : clockLine ≤ a) : mramWord t a = mramWord s a := mramWord_congr fun x lo _ => by
      have hx : clockLine ≤ x := ha.trans lo
      rw [et, memByte_raiseBit, lines x hx, stored at_ x (le_trans (by decide) hx), bytes]
    exact ⟨congrArg BitVec.toNat (clock _ le_rfl), congrArg BitVec.toNat (clock _ (by decide))⟩
  · rw [et, (pageOnly_raiseBit ..).chans_eq, control.chans]
    rfl

/-- Settles O46: each command of PT_CMD, the start of a flush and its end. -/
theorem patinaRingsFlushFreezeAndClear : Obligations.PatinaRingsFlushFreezeAndClear := by
  unfold Obligations.PatinaRingsFlushFreezeAndClear
  refine ⟨fun m s takes => ?_, fun s up => ?_, fun s up flushing => ?_, fun s up idle => ?_⟩
  · have run (v : Word) (op : Nat) (at_ : fld v 3 0 = op) : accessWrite patPage 0x704 m v s = patCmdWrite op m (pairService s m) s :=
      (accessWrite_patCmd v takes).trans (by rw [at_])
    have flush := run 1 1 (by decide)
    have freeze := run 2 2 (by decide)
    have thaw := run 3 3 (by decide)
    have clear := run 4 4 (by decide)
    refine ⟨congrArg Host.Outcome.next flush, fun h => congrArg Host.Outcome.next (freeze.trans (freezeCmd_rejected h)),
      fun thawed idle => ⟨_, congrArg Host.Outcome.next freeze, freezeCmd_asks thawed idle rfl⟩, congrArg Host.Outcome.next (thaw.trans (thawCmd_eq m s)),
      fun h => congrArg Host.Outcome.next (clear.trans (clearCmd_rejected h)), fun service auth thawed idle quiet => ⟨_, congrArg Host.Outcome.next clear, ?_⟩⟩
    rw [service]
    exact clearCmd_clears auth thawed idle quiet rfl
  · exact congrArg Host.Outcome.next ((whileUp_of_up _ up).trans (flushStart_eq s))
  · exact ⟨_, congrArg Host.Outcome.next (whileUp_of_up _ up), flushEnds_frees up flushing rfl⟩
  · exact congrArg Host.Outcome.next ((whileUp_of_up _ up).trans (flushEnds_idle idle))

end Sys2Proof.Machine
end

-- ==== events of Patina ====
section
/-! PROOFS. Intake, rate limiting and the volatile ring of Patina (spec 16 R410-R418). -/

-- One theorem at a time: elaborating them in parallel takes the memory of many threads.
set_option Elab.async false

namespace Sys2Proof.Machine

/-! ### The state beside Patina's unit -/

@[simp] theorem bucket_setBucket (code : Nat) (b : Bucket) (s : State) : bucket (setBucket code b s) code = b := smGet_smPut_same ..

/-- The suppressed count of a code with one event more. -/
def moreSuppressed (s : State) (src : Nat) (b : Bucket) : Bucket :=
  { b with supp := b.supp + 1, firstSrc := if b.supp = 0 then src else b.firstSrc, firstOp := if b.supp = 0 then opsec s else b.firstOp, lastOp := opsec s }

theorem countSuppressed_eq (code src : Nat) (s : State) : countSuppressed code src s = setBucket code (moreSuppressed s src (bucket s code)) s := rfl

/-! ### The intake queue (R414, R416) -/

theorem enqueueEvent_room {ev : PatEvent} {s : State} (room : s.patina.intake.length < 256) (wait : Bool) :
    enqueueEvent ev wait s = modPat (fun p => { p with intake := p.intake ++ [ev] }) s := if_pos room

theorem enqueueEvent_waits {ev : PatEvent} {s : State} (full : 256 ≤ s.patina.intake.length) :
    enqueueEvent ev true s = modPat (fun p => { p with waiting := p.waiting ++ [ev] }) s := (if_neg (by omega)).trans (if_pos rfl)

theorem enqueueEvent_drops {ev : PatEvent} {s : State} (full : 256 ≤ s.patina.intake.length) :
    enqueueEvent ev false s = countReg patPage 0x728 1 (countSuppressed ev.code.toNat ev.src.toNat s) := (if_neg (by omega)).trans (if_neg Bool.false_ne_true)

section
variable {ev : PatEvent} {s : State} (quiet : s.patina.bellows = false)
include quiet

theorem intakeEvent_unlimited (h : severe ev = true ∨ (bucket s ev.code.toNat).rate = 0) (sub : Bool) : intakeEvent ev sub s = enqueueEvent ev (severe ev || sub) s := by
  unfold intakeEvent
  rw [quiet]
  cases sev : severe ev with
  | true => rfl
  | false => exact if_pos (h.resolve_left (by simp [sev]))

theorem intakeEvent_token (mild : severe ev = false) (limited : (bucket s ev.code.toNat).rate ≠ 0) (token : (bucket s ev.code.toNat).level ≠ 0) (sub : Bool) :
    intakeEvent ev sub s = enqueueEvent ev sub (setBucket ev.code.toNat { bucket s ev.code.toNat with level := (bucket s ev.code.toNat).level - 1 } s) := by
  unfold intakeEvent
  rw [quiet, mild]
  exact (if_neg limited).trans (if_neg token)

theorem intakeEvent_suppressed (mild : severe ev = false) (limited : (bucket s ev.code.toNat).rate ≠ 0) (empty : (bucket s ev.code.toNat).level = 0) (sub : Bool) :
    intakeEvent ev sub s = suppress ev s := by
  unfold intakeEvent
  rw [quiet, mild]
  exact (if_neg limited).trans (if_pos empty)
end

/-- An event counted as suppressed of its code, and at another register. -/
theorem counted_facts {ev : PatEvent} {s t : State} {o : Nat} (ho : o < 2 ^ 12) (et : t = countReg patPage o 1 (countSuppressed ev.code.toNat ev.src.toNat s)) :
    t.patina.intake = s.patina.intake ∧ (bucket t ev.code.toNat).supp = (bucket s ev.code.toNat).supp + 1 ∧ (bucket t ev.code.toNat).level = (bucket s ev.code.toNat).level ∧
    rdReg t patPage o = satAdd (rdReg s patPage o) 1 ∧ RegsKept s t [(patPage, o)] ∧ t.chans = s.chans ∧ t.mem = s.mem := by
  have page : patPage < 2 ^ 14 := by decide
  have at_ : bucket t ev.code.toNat = moreSuppressed s ev.src.toNat (bucket s ev.code.toNat) := by
    rw [et, countSuppressed_eq]
    exact bucket_setBucket ..
  refine ⟨by rw [et]; rfl, by rw [at_]; rfl, by rw [at_]; rfl, ?_, ?_, by rw [et]; rfl, by rw [et]; rfl⟩
  · rw [et]
    exact rdReg_modReg_same ..
  · rw [et]
    exact RegsKept.modReg (t := countSuppressed ev.code.toNat ev.src.toNat s) (regsKept_of_eq _ rfl rfl rfl) page ho (by simp) _

/-! ### An event that arrives (R413, R414) -/

section
variable {ev : PatEvent} {s : State} {x : Nat × PatEvent} (arrives : arriving s ev = some x)
include arrives

theorem eventArrives_eq : eventArrives ev s = intakeEvent ev false (takeOffer x s) := by
  simp only [eventArrives, arrives]

end

theorem eventArrives_none {ev : PatEvent} {s : State} (none_ : arriving s ev = none) : eventArrives ev s = s := by
  simp only [eventArrives, none_]

theorem bucket_takeOffer (x : Nat × PatEvent) (s : State) (code : Nat) : bucket (takeOffer x s) code = bucket s code := rfl

/-! ### The volatile ring (R410, R415, R418) -/

/-- The volatile ring with one record more. -/
def ringWith (bs : List Byte) (p : Patina) : Patina := { p with vol := p.vol ++ [bs], ptr := (p.ptr + bs.length) % 65536, fill := p.fill + bs.length }

theorem commitRecord_eq (bs : List Byte) (s : State) : commitRecord bs s = nextSeq (modPat (ringWith bs) s) := rfl
@[simp] theorem nextSeq_chans (s : State) : (nextSeq s).chans = s.chans := modReg_chans ..
@[simp] theorem nextSeq_mem (s : State) : (nextSeq s).mem = s.mem := modReg_mem ..
@[simp] theorem nextSeq_patina (s : State) : (nextSeq s).patina = s.patina := modReg_patina ..

theorem commitRecord_chans (bs : List Byte) (s : State) : (commitRecord bs s).chans = s.chans := by rw [commitRecord_eq, nextSeq_chans, modPat_chans]
theorem commitRecord_mem (bs : List Byte) (s : State) : (commitRecord bs s).mem = s.mem := by rw [commitRecord_eq, nextSeq_mem, modPat_mem]
theorem commitRecord_patina (bs : List Byte) (s : State) : (commitRecord bs s).patina = ringWith bs s.patina := by rw [commitRecord_eq, nextSeq_patina, modPat_patina]

/-- The part of Patina that a commit's effects leave. -/
def ringPart (p : Patina) : List (List Byte) × Nat × Nat × List PatEvent × Nat := (p.vol, p.ptr, p.fill, p.intake, p.dropN)

/-- What a commit's effects leave: the ring, the queue, the channels, the memory and SEQ. -/
def RingStays (s t : State) : Prop := ringPart t.patina = ringPart s.patina ∧ t.chans = s.chans ∧ t.mem = s.mem ∧ rdReg t patPage 0x718 = rdReg s patPage 0x718

theorem RingStays.trans {s t u : State} (h : RingStays s t) (k : RingStays t u) : RingStays s u :=
  ⟨k.1.trans h.1, k.2.1.trans h.2.1, k.2.2.1.trans h.2.2.1, k.2.2.2.trans h.2.2.2⟩

theorem RingStays.ofPage {s t : State} (h : PageOnly s t) (reg : rdReg t patPage 0x718 = rdReg s patPage 0x718) : RingStays s t :=
  ⟨by rw [h.patina_eq], h.chans_eq, h.mem_eq, reg⟩

theorem RingStays.modPat {s : State} {f : Patina → Patina} (h : ringPart (f s.patina) = ringPart s.patina) : RingStays s (modPat f s) :=
  ⟨by rw [modPat_patina, h], modPat_chans .., modPat_mem .., rdReg_modPat ..⟩

theorem ringStays_wmSample {n : Nat} (hn : n < 4) (v : Nat) (s : State) : RingStays s (wmSample patPage n v s) :=
  .ofPage (pageOnly_wmSample ..) (rdReg_wmSample_offset hn (by decide) (by omega) (by omega) _ _)

theorem ringStays_flushTrigger (s : State) : RingStays s (flushTrigger s) := by
  unfold flushTrigger
  split
  · exact .modPat rfl
  · exact .modPat rfl

/-- A commit during a freeze counts its records. -/
def frozenCounted (n : Nat) (s : State) : State := if s.patina.frozen ∨ s.patina.freezing then countReg patPage 0x730 n s else s

/-- A commit's triggers: the end of a freeze, or a flush. -/
def commitTriggers (sev : Nat) (s : State) : State :=
  if s.patina.frozen ∧ 49152 ≤ s.patina.fill then raiseBit patPage 1 (modPat (fun p => { p with frozen := false, frzBroken := true, want := true }) s)
  else if severeAt sev ∨ 49152 ≤ s.patina.fill then flushTrigger s
  else s

theorem afterCommit_eq (sev n : Nat) (s : State) :
    afterCommit sev n s = commitTriggers sev (frozenCounted n (wmSample patPage 1 (mramFill s) (wmSample patPage 0 s.patina.fill s))) := rfl

theorem ringStays_frozenCounted (n : Nat) (s : State) : RingStays s (frozenCounted n s) := by
  unfold frozenCounted
  split
  · exact .ofPage (pageOnly_wrReg ..) (rdReg_modReg_offset (by decide) (by decide) (by decide) _ _)
  · exact ⟨rfl, rfl, rfl, rfl⟩

theorem ringStays_commitTriggers (sev : Nat) (s : State) : RingStays s (commitTriggers sev s) := by
  have broken : RingStays s (modPat (fun p => { p with frozen := false, frzBroken := true, want := true }) s) := .modPat rfl
  unfold commitTriggers
  split
  · exact broken.trans (.ofPage (pageOnly_raiseBit ..) (rdReg_raiseBit_offset (by decide) (by decide) _ _))
  · split
    · exact ringStays_flushTrigger s
    · exact ⟨rfl, rfl, rfl, rfl⟩

theorem ringStays_afterCommit (sev n : Nat) (s : State) : RingStays s (afterCommit sev n s) := by
  rw [afterCommit_eq]
  exact (((ringStays_wmSample (by decide) _ s).trans (ringStays_wmSample (by decide) _ _)).trans (ringStays_frozenCounted ..)).trans (ringStays_commitTriggers ..)

/-- PAD fills the ring to its end: what it adds to the ring, with its pointer. -/
theorem commitPad_rest {n : Nat} (s : State) (fits : n ≠ 0 → s.patina.ptr + n = 65536) :
    (commitPad n s).patina.fill = s.patina.fill + n ∧ (n ≠ 0 → (commitPad n s).patina.ptr = 0) ∧ (commitPad n s).patina.intake = s.patina.intake ∧
    (commitPad n s).chans = s.chans ∧ (commitPad n s).mem = s.mem := by
  have pad (k : Nat) (t : State) : (commitRecord (padBytes t k) t).patina =
      { t.patina with vol := t.patina.vol ++ [padBytes t k], ptr := (t.patina.ptr + k) % 65536, fill := t.patina.fill + k } := by
    rw [commitRecord_patina, ringWith, show (padBytes t k).length = k from length_padTo ..]
  have one (k : Nat) : forEach [k] s (fun k s => commitRecord (padBytes s k) s) = commitRecord (padBytes s k) s := rfl
  unfold commitPad padSizes
  split
  · next zero => exact ⟨by rw [zero]; rfl, fun h => absurd zero h, rfl, rfl, rfl⟩
  · next pos =>
    have whole := fits pos
    split
    · rw [one, commitRecord_chans, commitRecord_mem, pad]
      exact ⟨rfl, fun _ => by dsimp only; rw [whole], rfl, rfl, rfl⟩
    · next big =>
      have two : forEach [16, n - 16] s (fun k s => commitRecord (padBytes s k) s) =
          commitRecord (padBytes (commitRecord (padBytes s 16) s) (n - 16)) (commitRecord (padBytes s 16) s) := rfl
      rw [two, commitRecord_chans, commitRecord_mem, commitRecord_chans, commitRecord_mem, pad, pad]
      refine ⟨?_, fun _ => ?_, rfl, rfl, rfl⟩
      · dsimp only
        omega
      · dsimp only
        omega

/-! ### One record (R415, R418) -/

section
variable {s : State} {ev : PatEvent} {n : Nat} (en : n = recordLen ev.payload)
include en

/-- A record of n bytes for which no PAD is needed. -/
theorem writeRecord_fits {t : State} (fits : padNeeded s.patina n = 0) (et : t = writeRecord ev s) :
    t.patina.vol = s.patina.vol ++ [padTo n (headerBytes s ev.code.toNat ev.sev.toNat ev.src.toNat n ev.fid ++ ev.payload)] ∧
    t.patina.fill = s.patina.fill + n ∧ t.patina.ptr = (s.patina.ptr + n) % 65536 ∧ rdReg t patPage 0x718 = w32 (((rdReg s patPage 0x718).toNat + 1) % 65536) ∧
    t.patina.intake = s.patina.intake ∧ t.chans = s.chans ∧ t.mem = s.mem := by
  unfold writeRecord at et
  simp only [← en, fits, show commitPad 0 s = s from rfl] at et
  generalize eb : padTo n (headerBytes s ev.code.toNat ev.sev.toNat ev.src.toNat n ev.fid ++ ev.payload) = bs at et
  have len : bs.length = n := by rw [← eb]; exact length_padTo ..
  obtain ⟨ring, chans, mem, seq⟩ := ringStays_afterCommit ev.sev.toNat (1 + (padSizes 0).length) (commitRecord bs s)
  rw [← et] at ring chans mem seq
  rw [commitRecord_patina] at ring
  have next : rdReg (commitRecord bs s) patPage 0x718 = w32 (((rdReg s patPage 0x718).toNat + 1) % 65536) := by
    rw [commitRecord_eq, nextSeq, rdReg_modReg_same, rdReg_modPat]
  have part := ring
  simp only [ringPart, Prod.mk.injEq] at part
  obtain ⟨vol, ptr, fill, intake, -⟩ := part
  refine ⟨vol, fill.trans ?_, ptr.trans ?_, seq.trans next, intake, chans.trans (commitRecord_chans ..), mem.trans (commitRecord_mem ..)⟩
  · rw [ringWith, len]
  · rw [ringWith, len]

/-- A record of n bytes after the PAD it needs. -/
theorem writeRecord_pads {t : State} (room : 0 < 65536 - s.patina.ptr) (short : 65536 - s.patina.ptr < n) (et : t = writeRecord ev s) :
    t.patina.fill = s.patina.fill + n + (65536 - s.patina.ptr) ∧ t.patina.ptr = n % 65536 ∧ t.patina.intake = s.patina.intake ∧ t.chans = s.chans ∧ t.mem = s.mem := by
  have pad : padNeeded s.patina n = 65536 - s.patina.ptr := if_pos (.inl short)
  unfold writeRecord at et
  simp only [← en, pad] at et
  obtain ⟨fill₀, ptr₀, intake₀, chans₀, mem₀⟩ := commitPad_rest (n := 65536 - s.patina.ptr) s (fun _ => by omega)
  generalize commitPad (65536 - s.patina.ptr) s = u at et fill₀ ptr₀ intake₀ chans₀ mem₀
  generalize eb : padTo n (headerBytes u ev.code.toNat ev.sev.toNat ev.src.toNat n ev.fid ++ ev.payload) = bs at et
  have len : bs.length = n := by rw [← eb]; exact length_padTo ..
  obtain ⟨ring, chans, mem, -⟩ := ringStays_afterCommit ev.sev.toNat (1 + (padSizes (65536 - s.patina.ptr)).length) (commitRecord bs u)
  rw [← et] at ring chans mem
  rw [commitRecord_patina] at ring
  simp only [ringPart, Prod.mk.injEq] at ring
  obtain ⟨-, ptr, fill, intake, -⟩ := ring
  refine ⟨fill.trans ?_, ptr.trans ?_, intake.trans intake₀, (chans.trans (commitRecord_chans ..)).trans chans₀, (mem.trans (commitRecord_mem ..)).trans mem₀⟩
  · rw [ringWith, len]
    dsimp only
    omega
  · rw [ringWith, len]
    dsimp only
    rw [ptr₀ (by omega), Nat.zero_add]
end

section
variable {s : State} {ev : PatEvent} {evs : List PatEvent} (quiet : s.patina.bellows = false) (whole : s.patina.dropN = 0) (first : s.patina.intake = ev :: evs)
include quiet whole first

omit quiet whole in
theorem popIntake_patina : (popIntake s).patina = { s.patina with intake := evs ++ s.patina.waiting.take 1, waiting := s.patina.waiting.drop 1 } := by
  have popped : (popIntake s).patina = { s.patina with intake := s.patina.intake.tail ++ s.patina.waiting.take 1, waiting := s.patina.waiting.drop 1 } := rfl
  rw [popped, first]
  rfl

theorem recordStep_writes (fits : s.patina.fill + recordSpace s.patina ev + (if severe ev then 0 else 8192) ≤ 65536) : recordStep s = writeRecord ev (popIntake s) := by
  unfold recordStep
  simp only [quiet, whole, first, Nat.lt_irrefl, false_and, if_false, Bool.false_and, Bool.false_eq_true]
  cases sev : severe ev with
  | true => exact (if_pos rfl).trans (if_pos (by rw [sev] at fits; exact fits))
  | false => exact (if_neg Bool.false_ne_true).trans (if_pos (by rw [sev] at fits; exact fits))

theorem recordStep_drops (mild : severe ev = false) (full : 65536 < s.patina.fill + recordSpace s.patina ev + 8192) : recordStep s = dropRecord (popIntake s) := by
  unfold recordStep
  simp only [quiet, whole, first, Nat.lt_irrefl, false_and, if_false, Bool.false_and, Bool.false_eq_true, mild]
  exact if_neg (by omega)
end

theorem dropRecord_facts {s t : State} (none_ : s.patina.dropN = 0) (et : t = dropRecord s) : t.patina.vol = s.patina.vol ∧ t.patina.dropN = 1 ∧
    rdReg t patPage 0x728 = satAdd (rdReg s patPage 0x728) 1 ∧ bit (rdReg t patPage 0x010) 2 = true ∧ t.chans = s.chans ∧ t.mem = s.mem := by
  have counted : t = raiseBit patPage 2 (countReg patPage 0x728 1 (modPat (fun p => { p with dropN := p.dropN + 1, dropOp := if p.dropN = 0 then opsec s else p.dropOp }) s)) := et
  have rings : t.patina = { s.patina with dropN := s.patina.dropN + 1, dropOp := if s.patina.dropN = 0 then opsec s else s.patina.dropOp } := by
    rw [counted, raiseBit_patina]; rfl
  refine ⟨by rw [rings], by rw [rings, none_], ?_, ?_, ?_, ?_⟩
  · rw [counted, rdReg_raiseBit_offset (by decide) (by decide)]
    exact rdReg_modReg_same ..
  · rw [counted]
    exact bit_raiseBit_same _ (by decide) _
  · rw [counted, (pageOnly_raiseBit ..).chans_eq]; rfl
  · rw [counted, (pageOnly_raiseBit ..).mem_eq]; rfl

/-! ### Submissions and PT_RLCFG (R413, R424) -/

theorem find_ptRlcfg : findReg (regsOf .patina) 0x738 = some ((findReg (regsOf .patina) 0x738).get (by decide)) := by decide

theorem block_ptRlcfg (p : Nat) (m : Master) (fs : List Field) (v : Word) (s : State) : blockWrite ⟨.patina, 0⟩ p 0x738 m fs v s =
    if !isPair m then rejectWrite p 0x738 m s
    else if fld v 7 0 = 0 then capture p fINVALID 0x738 (masterCode m) (rlcfgWrite (fld v 31 16) (bucket s (fld (rdReg s patPage 0x734) 15 0)).burst s)
    else rlcfgWrite (fld v 31 16) (fld v 7 0) s := rfl

theorem accessWrite_ptRlcfg {m : Master} {s : State} (v : Word) (h : Takes s patPage m) : accessWrite patPage 0x738 m v s =
    if !isPair m then rejectWrite patPage 0x738 m s
    else if fld v 7 0 = 0 then capture patPage fINVALID 0x738 (masterCode m) (rlcfgWrite (fld v 31 16) (bucket s (fld (rdReg s patPage 0x734) 15 0)).burst s)
    else rlcfgWrite (fld v 31 16) (fld v 7 0) s :=
  (accessWrite_block v h pageAt_patPage find_ptRlcfg (by decide) (fun h => nomatch h) (by decide) (by decide)).trans (block_ptRlcfg ..)

theorem submitWrite_foreign (slot : Nat) (m : Master) (s : State) : submitWrite false slot m s = rejectWrite patPage 0x740 m s := by
  unfold submitWrite
  exact if_pos (.inl rfl)

section
variable {slot : Nat} {m : Master} {s : State} {bs : List Byte} (eb : bs = memBytes s (0x11F0000 + 0x100 * slot) 256)
include eb

theorem submitWrite_illegal (h : leNat ((bs.drop 2).take 1) < 2 ∨ 32 < leNat ((bs.drop 2).take 1) ∨ leNat (bs.take 2) < 0x1000 ∨ s.patina.bellows = true) :
    submitWrite true slot m s = rejectWrite patPage 0x740 m s := by
  unfold submitWrite
  simp only [← eb]
  exact if_pos (.inr h)

theorem submitWrite_taken (long : 2 ≤ leNat ((bs.drop 2).take 1)) (short : leNat ((bs.drop 2).take 1) ≤ 32) (code : 0x1000 ≤ leNat (bs.take 2)) (quiet : s.patina.bellows = false) :
    submitWrite true slot m s = intakeEvent ⟨BitVec.ofNat 16 (leNat (bs.take 2)), BitVec.ofNat 4 (leNat ((bs.drop 3).take 1)), BitVec.ofNat 16 (leNat ((bs.drop 4).take 2)),
          leNat ((bs.drop 3).take 1) / 16 % 2 == 1, (bs.drop 16).take (8 * leNat ((bs.drop 2).take 1) - 16)⟩ true s := by
  unfold submitWrite
  simp only [← eb]
  exact if_neg (by simp only [quiet, Bool.not_true, Bool.false_eq_true, false_or, or_false]; omega)
end

/-! ### Operating seconds (R412) -/

theorem memByte_vauxPut (a : Nat) (v : Word) (s : State) (x : Nat) : memByte (vauxPut a v s) x = if a ≤ x ∧ x < a + 4 then (leBytes 4 v.toNat).getD (x - a) 0 else memByte s x := by
  unfold vauxPut
  rw [memByte_targetWrite, length_leBytes]
  rfl

theorem mramWord_vauxPut (a : Nat) (v : Word) (s : State) : mramWord (vauxPut a v s) a = v := by
  refine mramWord_of_bytes ?_
  have copied := memBytes_setBytes (leBytes 4 v.toNat) a s
  rw [length_leBytes] at copied
  rw [← copied]
  refine memBytes_congr _ _ 4 a fun x lo hi => ?_
  rw [memByte_vauxPut, memByte_setBytes, length_leBytes]

theorem mramWord_vauxPut_ne {a c : Nat} (h : c + 4 ≤ a ∨ a + 4 ≤ c) (v : Word) (s : State) : mramWord (vauxPut a v s) c = mramWord s c :=
  mramWord_congr fun x lo hi => by rw [memByte_vauxPut, if_neg (by omega)]

theorem opsecStep_good {s t : State} (good : (dom s 8).good = true) (et : t = opsecStep s) :
    opsec t = (satAdd (mramWord s clockLine) 1).toNat ∧ pcyc t = pcyc s ∧ t.regs = s.regs ∧ t.chans = s.chans ∧ t.patina = s.patina := by
  replace et : t = vauxPut clockLine (satAdd (mramWord s clockLine) 1) s := et.trans (if_pos good)
  generalize satAdd (mramWord s clockLine) 1 = v at et ⊢
  have bank : BankOnly s t := et ▸ bankOnly_targetWrite ..
  refine ⟨?_, ?_, ?_, bank.chans, (congrArg State.patina bank :)⟩
  · rw [et, opsec, mramWord_vauxPut]
  · rw [et, pcyc, mramWord_vauxPut_ne (.inr le_rfl)]
    rfl
  · rw [et]
    exact regs_targetWrite ..

/-! ### Tokens (R416, R417) -/

theorem gainToken_none {code : Nat} {s : State} (quiet : s.patina.bellows = false) (limited : (bucket s code).rate ≠ 0) (room : (bucket s code).level < (bucket s code).burst) :
    gainToken code none s = if (bucket s code).supp = 0 then setBucket code { bucket s code with level := (bucket s code).level + 1 } s
      else enqueueEvent (suppressedEvent code (bucket s code)) false (setBucket code { bucket s code with supp := 0 } s) := by
  unfold gainToken
  exact if_neg (by simp only [quiet, limited, false_or, Bool.false_eq_true, or_false]; omega)

theorem gainToken_suppressed {code : Nat} {s t : State} (room : s.patina.intake.length < 256)
    (et : t = enqueueEvent (suppressedEvent code (bucket s code)) false (setBucket code { bucket s code with supp := 0 } s)) :
    t.patina.intake = s.patina.intake ++ [suppressedEvent code (bucket s code)] ∧ (bucket t code).supp = 0 ∧ (bucket t code).level = (bucket s code).level := by
  rw [enqueueEvent_room (s := setBucket code { bucket s code with supp := 0 } s) room] at et
  have at_ : bucket t code = { bucket s code with supp := 0 } := by
    rw [et]
    exact bucket_setBucket ..
  exact ⟨by rw [et]; rfl, by rw [at_], by rw [at_]⟩

/-! ### The statement -/

section
variable {ev : PatEvent} {s : State} {x : Nat × PatEvent} {b : Bucket} (quiet : s.patina.bellows = false) (arrives : arriving s ev = some x)
  (eb : b = bucket s ev.code.toNat)
include quiet arrives eb

/-- An event that finds room: it joins the queue, takes a token, or is suppressed. -/
theorem eventArrives_room {u : State} (room : s.patina.intake.length < 256) (eu : u = { s with patina := { s.patina with offers := s.patina.offers.erase x } }) :
    (severe ev = true ∨ b.rate = 0 → eventArrives ev s = { u with patina := { u.patina with intake := s.patina.intake ++ [ev] } }) ∧
    (severe ev = false → b.rate ≠ 0 → b.level ≠ 0 → ∀ t, t = eventArrives ev s → t.patina.intake = s.patina.intake ++ [ev] ∧
      bucket t ev.code.toNat = { b with level := b.level - 1 } ∧ t.regs = s.regs ∧ t.chans = s.chans ∧ t.mem = s.mem) ∧
    (severe ev = false → b.rate ≠ 0 → b.level = 0 → ∀ t, t = eventArrives ev s → t.patina.intake = s.patina.intake ∧ (bucket t ev.code.toNat).supp = b.supp + 1 ∧
      rdReg t patPage 0x724 = satAdd (rdReg s patPage 0x724) 1 ∧ RegsKept s t [(patPage, 0x724)] ∧ t.chans = s.chans ∧ t.mem = s.mem) := by
  have taken : u = takeOffer x s := eu
  have quiet' : u.patina.bellows = false := by rw [taken]; exact quiet
  have room' : u.patina.intake.length < 256 := by rw [taken]; exact room
  have bucket' : b = bucket u ev.code.toNat := by rw [taken, bucket_takeOffer]; exact eb
  have queue : u.patina.intake = s.patina.intake := by rw [taken]; rfl
  have same : u.regs = s.regs ∧ u.chans = s.chans ∧ u.mem = s.mem ∧ u.swapped = s.swapped ∧ u.calSwapped = s.calSwapped := by rw [taken]; exact ⟨rfl, rfl, rfl, rfl, rfl⟩
  obtain ⟨regs, chans, mem, swapped, cal⟩ := same
  rw [eventArrives_eq arrives, ← taken]
  clear eu taken
  refine ⟨fun h => ?_, fun mild limited token t et => ?_, fun mild limited empty t et => ?_⟩
  · rw [intakeEvent_unlimited quiet' (bucket' ▸ h), enqueueEvent_room room', ← queue]
    rfl
  · rw [intakeEvent_token quiet' mild (bucket' ▸ limited) (bucket' ▸ token), ← bucket', enqueueEvent_room (s := setBucket ev.code.toNat { b with level := b.level - 1 } u) room'] at et
    subst et
    exact ⟨by rw [← queue]; rfl, bucket_setBucket .., regs, chans, mem⟩
  · rw [intakeEvent_suppressed quiet' mild (bucket' ▸ limited) (bucket' ▸ empty)] at et
    obtain ⟨intake, supp, -, count, kept, chans', mem'⟩ := counted_facts (o := 0x724) (by decide) et
    refine ⟨intake.trans queue, bucket' ▸ supp, count.trans ?_, (regsKept_of_eq _ regs swapped cal).trans kept, chans'.trans chans, mem'.trans mem⟩
    simp only [rdReg, rdRole, roleKey, canvasSet, regs, swapped, cal]

/-- An event that finds the queue full: it waits, or is dropped and counted. -/
theorem eventArrives_full (full : 256 ≤ s.patina.intake.length) :
    (severe ev = true → eventArrives ev s = { s with patina := { s.patina with offers := s.patina.offers.erase x, waiting := s.patina.waiting ++ [ev] } }) ∧
    (severe ev = false → b.rate ≠ 0 → b.level ≠ 0 → ∀ t, t = eventArrives ev s → t.patina.intake = s.patina.intake ∧ (bucket t ev.code.toNat).supp = b.supp + 1 ∧
      (bucket t ev.code.toNat).level = b.level - 1 ∧ rdReg t patPage 0x728 = satAdd (rdReg s patPage 0x728) 1 ∧ RegsKept s t [(patPage, 0x728)] ∧ t.chans = s.chans ∧ t.mem = s.mem) := by
  rw [eventArrives_eq arrives]
  have quiet' : (takeOffer x s).patina.bellows = false := quiet
  have full' : 256 ≤ (takeOffer x s).patina.intake.length := full
  refine ⟨fun sev => ?_, fun mild limited token t et => ?_⟩
  · rw [intakeEvent_unlimited quiet' (.inl sev), sev, Bool.true_or, enqueueEvent_waits full']
    rfl
  · have bucket' : b = bucket (takeOffer x s) ev.code.toNat := eb
    rw [intakeEvent_token quiet' mild (bucket' ▸ limited) (bucket' ▸ token), ← bucket'] at et
    generalize eu : setBucket ev.code.toNat { b with level := b.level - 1 } (takeOffer x s) = u at et
    have fullU : 256 ≤ u.patina.intake.length := by rw [← eu]; exact full
    have queue : u.patina.intake = s.patina.intake := by rw [← eu]; rfl
    have own : bucket u ev.code.toNat = { b with level := b.level - 1 } := by rw [← eu]; exact bucket_setBucket ..
    have kept₀ : RegsKept s u [(patPage, 0x728)] := by rw [← eu]; exact regsKept_of_eq _ rfl rfl rfl
    have reg : rdReg u patPage 0x728 = rdReg s patPage 0x728 := by rw [← eu]; rfl
    have rest : u.chans = s.chans ∧ u.mem = s.mem := by rw [← eu]; exact ⟨rfl, rfl⟩
    rw [enqueueEvent_drops fullU] at et
    obtain ⟨intake, supp, level, count, kept, chans, mem⟩ := counted_facts (o := 0x728) (by decide) et
    rw [own] at supp level
    exact ⟨intake.trans queue, supp, level, count.trans (by rw [reg]), kept₀.trans kept, chans.trans rest.1, mem.trans rest.2⟩
end

section
variable {s : State} {ev : PatEvent} {evs : List PatEvent} {n : Nat} (quiet : s.patina.bellows = false) (whole : s.patina.dropN = 0) (first : s.patina.intake = ev :: evs)
  (en : n = recordLen ev.payload)
include quiet whole first en

theorem recordStep_pads {t : State} (room : 0 < 65536 - s.patina.ptr) (short : 65536 - s.patina.ptr < n)
    (fits : s.patina.fill + n + (65536 - s.patina.ptr) + (if severe ev then 0 else 8192) ≤ 65536) (et : t = recordStep s) :
    t.patina.fill = s.patina.fill + n + (65536 - s.patina.ptr) ∧ t.patina.ptr = n % 65536 ∧ t.patina.intake = evs ++ s.patina.waiting.take 1 ∧ t.chans = s.chans ∧ t.mem = s.mem := by
  have pad : padNeeded s.patina n = 65536 - s.patina.ptr := if_pos (.inl short)
  have space : recordSpace s.patina ev = n + (65536 - s.patina.ptr) := by rw [recordSpace, ← en, pad]
  rw [recordStep_writes quiet whole first (by rw [space]; omega)] at et
  have rings := popIntake_patina first
  obtain ⟨fill, ptr, intake, chans, mem⟩ := writeRecord_pads (s := popIntake s) en (by rw [rings]; exact room) (by rw [rings]; exact short) et
  rw [rings] at fill intake
  exact ⟨fill, ptr, intake, chans.trans rfl, mem.trans rfl⟩

variable (fits : n ≤ 65536 - s.patina.ptr) (notEight : 65536 - s.patina.ptr ≠ n + 8)
include fits notEight

omit quiet whole first en in
theorem padNeeded_none : padNeeded s.patina n = 0 := if_neg (by omega)

theorem recordStep_fits {t : State} (room : s.patina.fill + n + (if severe ev then 0 else 8192) ≤ 65536) (et : t = recordStep s) :
    t.patina.vol = s.patina.vol ++ [padTo n (headerBytes s ev.code.toNat ev.sev.toNat ev.src.toNat n ev.fid ++ ev.payload)] ∧
      t.patina.fill = s.patina.fill + n ∧ t.patina.ptr = (s.patina.ptr + n) % 65536 ∧ rdReg t patPage 0x718 = w32 (((rdReg s patPage 0x718).toNat + 1) % 65536) ∧
      t.patina.intake = evs ++ s.patina.waiting.take 1 ∧ t.chans = s.chans ∧ t.mem = s.mem := by
  have pad := padNeeded_none fits notEight
  have space : recordSpace s.patina ev = n := by rw [recordSpace, ← en, pad, Nat.add_zero]
  rw [recordStep_writes quiet whole first (by rw [space]; exact room)] at et
  have rings := popIntake_patina first
  have header : headerBytes (popIntake s) ev.code.toNat ev.sev.toNat ev.src.toNat n ev.fid = headerBytes s ev.code.toNat ev.sev.toNat ev.src.toNat n ev.fid := rfl
  obtain ⟨vol, fill, ptr, seq, intake, chans, mem⟩ := writeRecord_fits (s := popIntake s) en (by rw [rings]; exact pad) et
  rw [rings] at fill ptr intake vol
  rw [header] at vol
  exact ⟨vol, fill, ptr, seq, intake, chans.trans rfl, mem.trans rfl⟩

theorem recordStep_full {t : State} (mild : severe ev = false) (full : 65536 < s.patina.fill + n + 8192) (et : t = recordStep s) :
    t.patina.vol = s.patina.vol ∧ t.patina.dropN = 1 ∧ rdReg t patPage 0x728 = satAdd (rdReg s patPage 0x728) 1 ∧ bit (rdReg t patPage 0x010) 2 = true ∧ t.chans = s.chans ∧ t.mem = s.mem := by
  have space : recordSpace s.patina ev = n := by rw [recordSpace, ← en, padNeeded_none fits notEight, Nat.add_zero]
  rw [recordStep_drops quiet whole first mild (by rw [space]; exact full)] at et
  exact dropRecord_facts (s := popIntake s) whole et
end

/-- Settles O45: an event's way into the queue, a record's way into the ring, and the commands and timers about them. -/
theorem patinaRecordsEventsInOrder : Obligations.PatinaRecordsEventsInOrder := by
  unfold Obligations.PatinaRecordsEventsInOrder
  have run {s t : State} {f : State → State} (up : domLost s 8 = false) (h : f s = t) : Host.Outcome.next (whileUp 8 f s) = (.next t : Host.Outcome State Fault Refusal) :=
    congrArg _ ((whileUp_of_up _ up).trans h)
  refine ⟨fun ev s none_ => ?_, fun ev s u x b up quiet arrives room eu eb => ?_, fun ev s x b up quiet arrives full eb => ?_, fun s ev evs n up quiet whole first en => ?_,
    fun code s b up quiet eb limited room => ?_, fun m v s takes => ?_, fun s => ⟨fun bad => ?_, fun good => ⟨_, rfl, opsecStep_good good rfl⟩⟩⟩
  · refine congrArg Host.Outcome.next ?_
    unfold whileUp
    split
    · rfl
    · exact eventArrives_none none_
  · obtain ⟨joins_, token, supp⟩ := eventArrives_room quiet arrives eb room eu
    exact ⟨fun h => run up (joins_ h), fun mild limited has => ⟨_, run up rfl, token mild limited has _ rfl⟩, fun mild limited empty => ⟨_, run up rfl, supp mild limited empty _ rfl⟩⟩
  · obtain ⟨waits, drops⟩ := eventArrives_full quiet arrives eb full
    exact ⟨fun sev => run up (waits sev), fun mild limited has => ⟨_, run up rfl, drops mild limited has _ rfl⟩⟩
  · exact ⟨fun room short fits => ⟨_, run up rfl, recordStep_pads quiet whole first en room short fits rfl⟩,
      fun fits notEight => ⟨fun room => ⟨_, run up rfl, recordStep_fits quiet whole first en fits notEight room rfl⟩,
        fun mild full => ⟨_, run up rfl, recordStep_full quiet whole first en fits notEight mild full rfl⟩⟩⟩
  · subst eb
    have gains := gainToken_none quiet limited room
    refine ⟨run up gains, fun some_ free => ⟨_, run up (gains.trans (if_neg some_)), gainToken_suppressed free rfl⟩⟩
  · have submit := accessWrite_ptSubmit v takes
    have rate := accessWrite_ptRlcfg v takes
    refine ⟨fun foreign => ?_, fun pair burst => ?_, fun pair bs ebs => ?_⟩
    · rw [foreign] at submit rate
      exact ⟨congrArg Host.Outcome.next (submit.trans (submitWrite_foreign ..)), congrArg Host.Outcome.next (rate.trans (if_pos rfl))⟩
    · rw [pair] at rate
      exact congrArg Host.Outcome.next ((rate.trans (if_neg (by decide))).trans (if_neg burst))
    · rw [pair] at submit
      exact ⟨fun h => congrArg Host.Outcome.next (submit.trans (submitWrite_illegal ebs h)),
        fun long short code quiet => congrArg Host.Outcome.next (submit.trans (submitWrite_taken ebs long short code quiet))⟩
  · exact congrArg Host.Outcome.next (if_neg (by simp [bad]))

end Sys2Proof.Machine
end

-- ==== loading a control store ====
section
/-! PROOFS. Loading a control store (spec 07 R201-R205). -/

-- One theorem at a time: elaborating them in parallel takes the memory of many threads.
set_option Elab.async false

namespace Sys2Proof.Machine

theorem storeNo_lt (st : StoreId) : storeNo st < 72 := by
  cases st with
  | lane l => exact lt_trans l.isLt (by decide)
  | cluster k => exact Nat.add_lt_add_left k.isLt 64

/-! ### A write of the store's load registers -/

/-- A write of a register of a store's block. -/
theorem accessWrite_store (st : StoreId) {m : Master} {s : State} {off : Nat} (v : Word) (takes : Takes s (storePage (storeNo st)) m)
    (hl : (findReg (regsOf .lcs) off).isSome = true) (hc : (findReg (regsOf .ccs) off).isSome = true) (ho : off % 4 = 0) (lo : 0x700 ≤ off) (hi : off < 0x800) :
    ∃ fs, accessWrite (storePage (storeNo st)) off m v s = storeWrite (storeNo st) off m fs v s := by
  have at_ := pageAt_storePage (storeNo_lt st)
  obtain ⟨rl, find_l⟩ := Option.isSome_iff_exists.1 hl
  obtain ⟨rc, find_c⟩ := Option.isSome_iff_exists.1 hc
  cases st with
  | lane l =>
    rw [show storeNo (.lane l) = l.val from rfl, if_pos l.isLt] at at_
    exact ⟨rl.fields, accessWrite_block v takes at_ find_l ho (fun h => nomatch h) lo hi⟩
  | cluster k =>
    have no : storeNo (.cluster k) = 64 + k.val := rfl
    rw [no, if_neg (by omega), Nat.add_sub_cancel_left] at at_
    rw [no]
    rw [no] at takes
    exact ⟨rc.fields, accessWrite_block v takes at_ find_c ho (fun h => nomatch h) lo hi⟩

section
variable {i : Nat} {m : Master} {fs : List Field} {v : Word} {s : State}

theorem storeWrite_foreign {off : Nat} (load : off = 0x704 ∨ (0x720 ≤ off ∧ off < 0x770)) (foreign : isPair m = false) :
    storeWrite i off m fs v s = rejectWrite (storePage i) off m s := if_pos ⟨load, by rw [foreign]; rfl⟩

variable (pair : isPair m = true)
include pair

theorem storeWrite_command : storeWrite i 0x704 m fs v s = ldcmdWrite i m v s := (if_neg (by simp [pair])).trans (if_pos rfl)

theorem storeWrite_data : storeWrite i 0x73C m fs v s = loadData i m v s := (if_neg (by simp [pair])).trans ((if_neg (by decide)).trans (if_pos rfl))
end

/-! ### The commands of a load (R204, R205) -/

theorem ldcmdWrite_begin (i : Nat) (m : Master) (v : Word) (s : State) : ldcmdWrite i m (setFld v 1 0 1) s = beginLoad i m (setFld v 1 0 1) s := by
  have op : fld (setFld v 1 0 1) 1 0 = 1 := fld_setFld_same v 1 (by decide) (by decide)
  simp only [ldcmdWrite, op]

theorem bit_setFld_op (v : Word) {j : Nat} (h : 2 ≤ j) (hj : j < 32) : bit (setFld v 1 0 1) j = bit v j := by
  rw [bit_setFld v 1 j (by decide) (by decide) hj, if_neg (by omega), if_neg (by omega)]

theorem beginLoad_refused {i : Nat} {m : Master} {v : Word} {s : State} (h : beginRefused s i (bit v 2) (bit v 3) = true) :
    beginLoad i m v s = refuseCmd (storePage i) 0x704 m (raiseReject (storePage i) s) := if_pos h

theorem beginLoad_taken {i : Nat} {m : Master} {v : Word} {s : State} (h : beginRefused s i (bit v 2) (bit v 3) = false) :
    beginLoad i m v s =
      setStore i { store s i with low := if bit v 2 then (store s i).low else 1, up := if bit v 2 || bit v 3 then 1 else 0, loadUp := bit v 2, loadMode := bit v 3, loading := true, ptr := if bit v 2 then quarter i else 0, err := 0 } s := if_neg (by simp [h])

theorem loadData_eq (i : Nat) (m : Master) (v : Word) (s : State) : loadData i m v s =
    if (store s i).loading = false ∨ (store s i).busy = true ∨ storeSize i ≤ (store s i).ptr then rejectWrite (storePage i) 0x73C m s
    else setStore i { store s i with words := smPut 0 (store s i).words (store s i).ptr (loadedWord (wrReg (storePage i) 0x73C v s) i), ptr := (store s i).ptr + 1 } (wrReg (storePage i) 0x73C v s) :=
  if_congr (by simp) rfl rfl

theorem commitLoad_eq (i : Nat) (m : Master) (s : State) : commitLoad i m s =
    if (store s i).loading = false ∨ (store s i).busy = true then rejectWrite (storePage i) 0x704 m s else setStore i { store s i with busy := true } s :=
  if_congr (by simp) rfl rfl

/-- A store whose load has failed. -/
def failedStore (x : CtlStore) (err : Nat) : CtlStore :=
  { x with low := if x.low = 1 then 3 else x.low, up := if x.up = 1 then 3 else x.up, loading := false, busy := false, err := err }

theorem abortLoad_eq (i : Nat) (m : Master) (s : State) : abortLoad i m s =
    if (store s i).loading = true then raiseBit (storePage i) 1 (setStore i (failedStore (store s i) 4) s) else rejectWrite (storePage i) 0x704 m s := rfl

/-! ### The end of a COMMIT (R202, R205) -/

theorem commitError_eq (s : State) (i : Nat) : commitError s i = if (store s i).ptr < storeSize i then 1
    else if (Config.sha384 (digestBytes s i (store s i).loadUp)).toNat ≠ loadDigest s i then 2
    else if (store s i).up = 1 ∧ i < 64 ∧ tableOk s i = false then 3 else 0 := by
  unfold commitError
  simp only [Bool.not_eq_true']

/-- A store whose load is complete. -/
def loadedStore (x : CtlStore) (version : Word) : CtlStore :=
  { x with low := if x.low = 1 then 2 else x.low, up := if x.up = 1 then 2 else x.up, mode := if x.loadUp then x.mode else x.loadMode,
           version := if x.up = 1 then version else x.version, loading := false, busy := false }

section
variable {i : Nat} {version : Word} {s : State} (busy : (store s i).busy = true)
include busy

theorem commitDone_fails (bad : commitError s i ≠ 0) : commitDone i version s = raiseBit (storePage i) 1 (setStore i (failedStore (store s i) (commitError s i)) s) :=
  (if_neg (by rw [busy]; decide)).trans (if_pos bad)

/-- A COMMIT that succeeds: the store has loaded, the interrupt is raised, and memory, channels and engines are as they were. -/
theorem commitDone_loads (good : commitError s i = 0) {t : State} (et : t = commitDone i version s) :
    store t i = loadedStore (store s i) version ∧ bit (rdReg t (storePage i) 0x010) 0 = true ∧ t.mem = s.mem ∧ t.chans = s.chans ∧ t.engines = s.engines := by
  have loaded : store (modStore i (fun x => loadedStore x version) s) i = loadedStore (store s i) version := store_modStore_same ..
  have rest : (modStore i (fun x => loadedStore x version) s).mem = s.mem ∧ (modStore i (fun x => loadedStore x version) s).chans = s.chans ∧
      (modStore i (fun x => loadedStore x version) s).engines = s.engines := ⟨modStore_mem .., modStore_chans .., modStore_engines ..⟩
  replace et : t = raiseBit (storePage i) 0 (if (store (modStore i (fun x => loadedStore x version) s) i).loadUp then modStore i (fun x => loadedStore x version) s
      else if i < 64 then modLane i (fun x => { x with fmAborted := false }) (modStore i (fun x => loadedStore x version) s)
      else modFail (i - 64) (fun f => { f with stopped := false }) (modStore i (fun x => loadedStore x version) s)) :=
    et.trans ((if_neg (by rw [busy]; decide)).trans (if_neg (by rw [good]; decide)))
  generalize modStore i (fun x => loadedStore x version) s = u at et loaded rest
  obtain ⟨mem, chans, engines⟩ := rest
  generalize ev : (if (store u i).loadUp then u else if i < 64 then modLane i (fun x => { x with fmAborted := false }) u else modFail (i - 64) (fun f => { f with stopped := false }) u) = v at et
  have resumed : store v i = store u i ∧ v.mem = u.mem ∧ v.chans = u.chans ∧ v.engines = u.engines := by
    rw [← ev]
    split
    · exact ⟨rfl, rfl, rfl, rfl⟩
    · split
      · exact ⟨store_modLane .., modLane_mem .., modLane_chans .., modLane_engines ..⟩
      · exact ⟨store_modFail .., modFail_mem .., modFail_chans .., modFail_engines ..⟩
  obtain ⟨st, mem', chans', engines'⟩ := resumed
  have raised : PageOnly v t := et ▸ pageOnly_raiseBit ..
  refine ⟨?_, et ▸ bit_raiseBit_same _ (by decide) _, (raised.mem_eq.trans mem').trans mem, (raised.chans_eq.trans chans').trans chans, (raised.engines_eq.trans engines').trans engines⟩
  rw [et, store_raiseBit, st, loaded]
end

/-- Settles O27: the load registers by master and command, and the end of a COMMIT by its error code. -/
theorem storesLoadOnlyWholeImages : Obligations.StoresLoadOnlyWholeImages := by
  unfold Obligations.StoresLoadOnlyWholeImages
  intro st s i p x ei ep ex
  subst ei ep ex
  have write {m : Master} (takes : Takes s (storePage (storeNo st)) m) (w : Word) {off : Nat} (h : off = 0x704 ∨ off = 0x73C) :
      ∃ fs, accessWrite (storePage (storeNo st)) off m w s = storeWrite (storeNo st) off m fs w s := by
    obtain rfl | rfl := h
    · exact accessWrite_store st w takes (by decide) (by decide) (by decide) (by decide) (by decide)
    · exact accessWrite_store st w takes (by decide) (by decide) (by decide) (by decide) (by decide)
  refine ⟨fun m takes foreign v => ?_, fun m takes pair => ?_, fun up busy => ⟨commitError_eq .., fun bad v => ?_, fun good v => ?_⟩⟩
  · have rejected (w : Word) {off : Nat} (h : off = 0x704 ∨ off = 0x73C) : accessWrite (storePage (storeNo st)) off m w s = rejectWrite (storePage (storeNo st)) off m s := by
      obtain ⟨fs, at_⟩ := write takes w h
      exact at_.trans (storeWrite_foreign (by omega) foreign)
    exact ⟨congrArg Host.Outcome.next (rejected _ (.inl rfl)), congrArg Host.Outcome.next (rejected _ (.inr rfl)), congrArg Host.Outcome.next (rejected _ (.inl rfl)),
      congrArg Host.Outcome.next (rejected _ (.inl rfl))⟩
  · have command (w : Word) : accessWrite (storePage (storeNo st)) 0x704 m w s = ldcmdWrite (storeNo st) m w s := by
      obtain ⟨fs, at_⟩ := write takes w (.inl rfl)
      exact at_.trans (storeWrite_command pair)
    have begin_ (v : Word) : accessWrite (storePage (storeNo st)) 0x704 m (setFld v 1 0 1) s = beginLoad (storeNo st) m (setFld v 1 0 1) s := (command _).trans (ldcmdWrite_begin ..)
    have up_ (v : Word) : bit (setFld v 1 0 1) 2 = bit v 2 := bit_setFld_op v (by decide) (by decide)
    have open_ (v : Word) : bit (setFld v 1 0 1) 3 = bit v 3 := bit_setFld_op v (by decide) (by decide)
    refine ⟨fun v h => congrArg Host.Outcome.next ((begin_ v).trans (beginLoad_refused (by rw [up_, open_]; exact h))), fun v h => ?_, fun v => ?_,
      congrArg Host.Outcome.next ((command 2).trans (commitLoad_eq ..)), congrArg Host.Outcome.next ((command 3).trans (abortLoad_eq ..))⟩
    · refine congrArg Host.Outcome.next ((begin_ v).trans ((beginLoad_taken (by rw [up_, open_]; exact h)).trans ?_))
      rw [up_, open_]
    · obtain ⟨fs, at_⟩ := write takes v (.inr rfl)
      exact congrArg Host.Outcome.next (at_.trans ((storeWrite_data pair).trans (loadData_eq ..)))
  · exact congrArg Host.Outcome.next ((whileLanes_of_up _ up).trans (commitDone_fails busy bad))
  · obtain ⟨at_, raised, mem, chans, engines⟩ := commitDone_loads busy good rfl
    exact ⟨_, congrArg Host.Outcome.next (whileLanes_of_up _ up), congrArg CtlStore.version at_, congrArg CtlStore.low at_, congrArg CtlStore.up at_, (congrArg CtlStore.words at_).trans rfl,
      congrArg CtlStore.mode at_, congrArg CtlStore.loading at_, congrArg CtlStore.busy at_, raised, mem, chans, engines⟩

end Sys2Proof.Machine
end

-- ==== scrub and marks ====
section
/-! PROOFS. Patrol scrub and expected marks (spec 15 R403, 09 R244). -/

-- One theorem at a time: elaborating them in parallel takes the memory of many threads.
set_option Elab.async false

namespace Sys2Proof.Machine

/-! ### Patrol scrub (15 R403) -/

section
variable {s : State} (up : domLost s 8 = false) (on : bit (rdReg s scrubPage 0x700) 0 = true)
include up on

theorem scrubRead_enabled (t : ScrubTarget) (o : EccOutcome) : scrubRead t o s = (let s := if o = .corrected then countReg scrubPage 0x708 1 s else s
    match t with
    | .passEnd => raiseBit scrubPage 0 (wrReg scrubPage 0x704 (w32 (ft4716 s)) s)
    | .memory _ => eccReport scrubPage o s
    | .hbm n _ => if domLost s (10 + n.val) then s else eccMeets (.hbm n.val) o s
    | .palette c _ _ => if domLost s (tileOf c.val) then s else eccReport (palPage (laneOf c.val)) o s
    | .store st w => storeEcc (match st with | .lane l => l.val | .cluster k => 64 + k.val) w.toNat o s) := by
  refine (if_neg (by simp [up, on])).trans ?_
  cases t <;> rfl

theorem scrubRead_passEnd : scrubRead .passEnd .clean s = raiseBit scrubPage 0 (wrReg scrubPage 0x704 (w32 (ft4716 s)) s) := scrubRead_enabled up on ..

theorem scrubRead_memory (a : BitVec 48) : scrubRead (.memory a) .clean s = s ∧
    scrubRead (.memory a) .corrected s = report ⟨0, scrubPage, 0, fTMR, 0, 0, []⟩ (countReg scrubPage 0x708 1 s) ∧
    scrubRead (.memory a) .uncorrectable s = capture scrubPage fHW 0 0 s :=
  ⟨scrubRead_enabled up on .., scrubRead_enabled up on .., scrubRead_enabled up on ..⟩

theorem scrubRead_hbm {n : Fin 4} (there : domLost s (10 + n.val) = false) (o : EccOutcome) (a : BitVec 48) : scrubRead (.hbm n a) o s =
    eccMeets (.hbm n.val) o (if o = .corrected then countReg scrubPage 0x708 1 s else s) := by
  rw [scrubRead_enabled up on]
  have same : domLost (if o = .corrected then countReg scrubPage 0x708 1 s else s) (10 + n.val) = false := by
    split
    · exact there
    · exact there
  exact if_neg (by rw [same]; exact Bool.false_ne_true)
end

/-! ### A mark against the head of its table (09 R244) -/

/-- Whether a mismatch of a channel's mark stops its stream. -/
def markActs (s : State) (c : Nat) : Bool := match (chan s c).marks with | some cfg => cfg.act | none => false

section
variable {u : State} {y : TileMark} {t : MarkTable} {idx mark : Nat} (et : t = smGet {} u.tables y.ch)
  (eidx : idx = leNat (memBytes u (t.addr + 8 * t.pos + 4) 4))
include et eidx

theorem checkMark_unread (h : t.failed = true ∨ tableUp u (t.addr + 8 * t.pos) = false ∨ idx = 0xFFFFFFFF ∨ y.interval < idx) (stops : Bool) : checkMark y stops u = u := by
  subst et eidx
  exact if_pos (by simpa using h)

variable (good : t.failed = false) (there : tableUp u (t.addr + 8 * t.pos) = true) (real : idx ≠ 0xFFFFFFFF)
include good there real

theorem checkMark_late (late : idx < y.interval) (stops : Bool) : checkMark y stops u = raiseBit (clPage (clusterOf y.ch)) 4 (modReg (clPage (clusterOf y.ch)) (0x750 + 4 * (posInCluster y.ch / 32))
      (fun w => setBit w (posInCluster y.ch % 32) true) { u with tables := smPut {} u.tables y.ch { t with failed := true } }) := by
  subst et eidx
  exact (if_neg (by simp only [good, there, Bool.false_eq_true, Bool.not_true, false_or]; omega)).trans (if_pos late)

theorem checkMark_used (same : idx = y.interval) (emark : mark = leNat (memBytes u (t.addr + 8 * t.pos) 4)) (stops : Bool) {v : State}
    (ev : v = { u with tables := smPut {} u.tables y.ch { t with pos := t.pos + 1 } }) :
    checkMark y stops u = if mark = y.mark.toNat then v else if markActs u y.ch && stops then modChan y.ch (fun x => { x with markStop := true }) (markMismatch y.ch v) else markMismatch y.ch v := by
  subst et eidx emark ev
  exact (if_neg (by simp only [good, there, Bool.false_eq_true, Bool.not_true, false_or]; omega)).trans (if_neg (by omega))
end

theorem expectedMark_first {k : Nat} {s : State} {y : TileMark} {ys : List TileMark} (first : (base s k).marks = y :: ys) :
    expectedMark k s = checkMark y true (setBase k { base s k with marks := ys } s) := by
  simp only [expectedMark, first]
  rfl

/-- Settles O28: a scrub read by its target and outcome, a mark by what its table's head entry says. -/
theorem scrubReportsAndMarksCompare : Obligations.ScrubReportsAndMarksCompare := by
  unfold Obligations.ScrubReportsAndMarksCompare
  refine ⟨fun s up on => ⟨congrArg Host.Outcome.next (scrubRead_passEnd up on), fun a => ?_, fun n a there => ⟨?_, ?_, ?_⟩⟩, fun k s u y ys t idx mark up first et emark eidx eu => ?_,
    fun _ _ => rfl, fun c s up stop => ?_⟩
  · obtain ⟨clean, corrected, bad⟩ := scrubRead_memory up on a
    exact ⟨congrArg Host.Outcome.next clean, congrArg Host.Outcome.next corrected, congrArg Host.Outcome.next bad⟩
  · exact congrArg Host.Outcome.next (scrubRead_hbm up on there .clean a)
  · exact congrArg Host.Outcome.next (scrubRead_hbm up on there .corrected a)
  · exact congrArg Host.Outcome.next (scrubRead_hbm up on there .uncorrectable a)
  · have run {v : State} (h : checkMark y true u = v) : exec (.expectedMarkCheck k) s = .next v :=
      congrArg Host.Outcome.next ((whileLanes_of_up _ up).trans ((expectedMark_first first).trans (eu ▸ h)))
    have tables : s.tables = u.tables := by rw [eu]; rfl
    have mem (a n : Nat) : memBytes s a n = memBytes u a n := memBytes_of_mem (by rw [eu]; rfl) ..
    have there (a : Nat) : tableUp s a = tableUp u a := by rw [eu]; rfl
    have acts : markActs s y.ch = markActs u y.ch := by rw [eu]; rfl
    rw [mem] at emark eidx
    rw [tables] at et
    rw [there, tables]
    refine ⟨fun h => run (checkMark_unread et eidx h true), fun good up late real => run (checkMark_late et eidx good up real late true), fun good up same real v ev => ?_⟩
    have used := checkMark_used et eidx good up real same emark true ev
    refine ⟨fun equal => run (used.trans (if_pos equal)), fun differs still_ => run (used.trans ((if_neg differs).trans (if_neg ?_))), fun cfg differs at_ act => run (used.trans ((if_neg differs).trans (if_pos ?_)))⟩
    · rw [← acts, markActs]
      cases at_ : (chan s y.ch).marks with
      | none => simp
      | some cfg => simp [still_ cfg at_]
    · rw [← acts, markActs, at_]
      simp [act]
  · refine congrArg Host.Outcome.next ((whileUp_of_up _ up).trans ?_)
    exact congrArg (fun x => setChan c.val x s) (if_pos stop)

end Sys2Proof.Machine
end

-- ==== sequencers ====
section
/-! PROOFS. Microwords, WAIT, and the Sketch unit (spec 07 R191-R200). -/

-- One theorem at a time: elaborating them in parallel takes the memory of many threads.
set_option Elab.async false

namespace Sys2Proof.Machine

/-! ### What the completion of an operation leaves of an engine -/

theorem landOp_keeps (o : Op) (e : Engine) : (landOp o e).queue = e.queue ∧ (landOp o e).sketchAbort = e.sketchAbort := by
  have ports : (forEach o.vals e (fun v e => setPort o.priv v.1 v.2 e)).queue = e.queue ∧ (forEach o.vals e (fun v e => setPort o.priv v.1 v.2 e)).sketchAbort = e.sketchAbort :=
    forEach_inv (P := fun x : Engine => x.queue = e.queue ∧ x.sketchAbort = e.sketchAbort) ⟨rfl, rfl⟩ fun _ _ h => h
  exact forEach_inv (P := fun x : Engine => x.queue = e.queue ∧ x.sketchAbort = e.sketchAbort) ports fun _ _ h => h

/-- What a word's conditions and its address come from, and what a sequencer leaves. -/
def wordSide (s : State) : (Nat → Option SkOp × SMap (Option Nat)) × (Nat → List QueueReq) × SMap CtlStore × SMap Seq × Nat × List Host.Cell × SMap Chan :=
  (fun l => ((lane s l).sk, (lane s l).lastReg), fun k => (eng s k).queue, s.stores, s.seqs, s.free, s.mem, s.chans)

section
variable {s t : State} (h : wordSide t = wordSide s)
include h

theorem WordSide.sk (l : Nat) : (lane t l).sk = (lane s l).sk := congrArg (fun v => (v.1 l).1) h
theorem WordSide.lastReg (l : Nat) : (lane t l).lastReg = (lane s l).lastReg := congrArg (fun v => (v.1 l).2) h
theorem WordSide.queue (k : Nat) : (eng t k).queue = (eng s k).queue := congrArg (fun v => v.2.1 k) h
theorem WordSide.stores : t.stores = s.stores := congrArg (fun v => v.2.2.1) h
theorem WordSide.seqs : t.seqs = s.seqs := congrArg (fun v => v.2.2.2.1) h
theorem WordSide.free : t.free = s.free := congrArg (fun v => v.2.2.2.2.1) h
theorem WordSide.mem : t.mem = s.mem := congrArg (fun v => v.2.2.2.2.2.1) h
theorem WordSide.chans : t.chans = s.chans := congrArg (fun v => v.2.2.2.2.2.2) h
theorem WordSide.store (i : Nat) : store t i = store s i := by unfold Sys2Proof.Machine.store; rw [WordSide.stores h]
theorem WordSide.seqAt (i : Nat) : seqAt t i = seqAt s i := by unfold Sys2Proof.Machine.seqAt; rw [WordSide.seqs h]

theorem WordSide.freeVal (w : Nat) : freeVal w t = freeVal w s := by unfold Sys2Proof.Machine.freeVal; rw [WordSide.free h]

theorem WordSide.customData (q a : Nat) : customData t q a = customData s q a := by unfold Sys2Proof.Machine.customData; rw [WordSide.store h]

theorem WordSide.condition (q : Nat) (x : Seq) (m : MicroSeq) : condition t q x m = condition s q x m := by
  unfold Sys2Proof.Machine.condition
  simp only [WordSide.sk h, WordSide.lastReg h, WordSide.queue h, WordSide.customData h, WordSide.freeVal h]

theorem WordSide.abortCode (q : Nat) (x : Seq) (w : Wide) : abortCode t q x w = abortCode s q x w := by
  unfold Sys2Proof.Machine.abortCode
  simp only [WordSide.condition h, WordSide.customData h, WordSide.store h]

theorem WordSide.storeWord (i a : Nat) : storeWord t i a = storeWord s i a := by unfold Sys2Proof.Machine.storeWord; rw [WordSide.store h]
end

theorem wordSide_pageOnly {s t : State} (h : PageOnly s t) : wordSide t = wordSide s := by
  unfold wordSide lane eng
  rw [h.lanes_eq, h.engines_eq, h.stores_eq, h.seqs_eq, h.free_eq, h.mem_eq, h.chans_eq]

theorem wordSide_modLane {l : Nat} {f : Lane → Lane} (hf : ∀ x, (f x).sk = x.sk ∧ (f x).lastReg = x.lastReg) (s : State) : wordSide (modLane l f s) = wordSide s := by
  have same (i : Nat) : (lane (modLane l f s) i).sk = (lane s i).sk ∧ (lane (modLane l f s) i).lastReg = (lane s i).lastReg := by
    obtain e | ne := eq_or_ne i l
    · rw [e, lane_modLane_same]
      exact hf _
    · rw [lane_modLane_ne ne]
      exact ⟨rfl, rfl⟩
  unfold wordSide
  simp only [same, eng_modLane, modLane_stores, modLane_seqs, modLane_free, modLane_mem, modLane_chans]

theorem wordSide_setEng {k : Nat} {x : Engine} {s : State} (hx : x.queue = (eng s k).queue) : wordSide (setEng k x s) = wordSide s := by
  have same (i : Nat) : (eng (setEng k x s) i).queue = (eng s i).queue := by
    obtain e | ne := eq_or_ne i k
    · rw [e, eng_setEng_same, hx]
    · rw [eng_setEng_ne ne]
  unfold wordSide
  simp only [same, lane_setEng, setEng_stores, setEng_seqs, setEng_free, setEng_mem, setEng_chans]

theorem queue_takeOp {k : Nat} {s : State} {o : Op} {rest : List Op} : (landOp o { eng s k with ops := rest }).queue = (eng s k).queue := (landOp_keeps ..).1

theorem wordSide_landSketch (k : Nat) (s : State) : wordSide (landSketch k s) = wordSide s := by
  unfold landSketch
  dsimp only
  split
  · exact wordSide_setEng queue_takeOp
  · rfl

theorem wordSide_sketchReady (l : Nat) (s : State) : wordSide (sketchReady l s) = wordSide s := by
  unfold sketchReady
  split
  · exact (wordSide_landSketch ..).trans (wordSide_modLane (by intro _; exact ⟨rfl, rfl⟩) s)
  · rfl

theorem wordSide_sketchLand (l : Nat) (s : State) : wordSide (sketchLand l s) = wordSide s :=
  forUpTo_inv (P := fun t => wordSide t = wordSide s) rfl fun _ _ h => (wordSide_sketchReady ..).trans h

theorem pageOnly_storeEcc {o : EccOutcome} (ho : o ≠ .uncorrectable) (i a : Nat) (s : State) : PageOnly s (storeEcc i a o s) := by
  cases o with
  | clean => exact PageOnly.refl s
  | corrected => exact (pageOnly_report _ s).trans (pageOnly_wrReg ..)
  | uncorrectable => exact absurd rfl ho

/-! ### The parts of a sequencer that its word's half leaves -/

/-- The state t has sequencer q at the address, with the stack and the C0, that it has in s, and the stores, the memory and the channels of s. -/
def SamePlace (q : Nat) (s t : State) : Prop :=
  (seqAt t q).addr = (seqAt s q).addr ∧ (seqAt t q).stack = (seqAt s q).stack ∧ (seqAt t q).c0 = (seqAt s q).c0 ∧ t.stores = s.stores ∧ t.mem = s.mem ∧ t.chans = s.chans

theorem SamePlace.refl (q : Nat) (s : State) : SamePlace q s s := ⟨rfl, rfl, rfl, rfl, rfl, rfl⟩

theorem SamePlace.trans {q : Nat} {s t u : State} (h : SamePlace q s t) (k : SamePlace q t u) : SamePlace q s u := by
  obtain ⟨a, b, c, d, e, f⟩ := h
  obtain ⟨a', b', c', d', e', f'⟩ := k
  exact ⟨a'.trans a, b'.trans b, c'.trans c, d'.trans d, e'.trans e, f'.trans f⟩

theorem SamePlace.setSeq {q : Nat} {s : State} {x : Seq} (ha : x.addr = (seqAt s q).addr) (hs : x.stack = (seqAt s q).stack) (hc : x.c0 = (seqAt s q).c0) :
    SamePlace q s (setSeq q x s) := by
  refine ⟨?_, ?_, ?_, setSeq_stores .., setSeq_mem .., setSeq_chans ..⟩ <;> rw [seqAt_setSeq_same]
  · exact ha
  · exact hs
  · exact hc

theorem dataStep_place (d : MicroData) (c0 : Nat) (free : DWord) (r : SMap DWord) (x : Seq) :
    (dataStep d c0 free r x).2.addr = x.addr ∧ (dataStep d c0 free r x).2.stack = x.stack ∧ (dataStep d c0 free r x).2.c0 = x.c0 := by
  unfold dataStep
  dsimp only
  split
  · exact ⟨rfl, rfl, rfl⟩
  · cases d.flg <;> exact ⟨rfl, rfl, rfl⟩

theorem samePlace_dataHalf (q : Nat) (w : Wide) (c0 a : Nat) (s : State) : SamePlace q s (dataHalf q w c0 a s) := by
  have ticked : SamePlace q s (tick s) := ⟨rfl, rfl, rfl, rfl, rfl, rfl⟩
  unfold dataHalf
  dsimp only
  split
  · exact ticked.trans (.setSeq rfl rfl rfl)
  · split
    · generalize er : dataStep (microData w) c0 (BitVec.ofNat 64 (freeVal 64 s)) (lane s (seqStore q)).sr (seqAt s q) = r
      obtain ⟨ha, hs, hc⟩ := er ▸ dataStep_place (microData w) c0 (BitVec.ofNat 64 (freeVal 64 s)) (lane s (seqStore q)).sr (seqAt s q)
      have moved : SamePlace q s (modLane (seqStore q) (fun x => { x with sr := r.1 }) (tick s)) := ⟨rfl, rfl, rfl, rfl, rfl, rfl⟩
      exact moved.trans (.setSeq ha hs hc)
    · generalize er : dataStep (microData w) c0 (BitVec.ofNat 64 (freeVal 64 s)) (weld s (seqStore q - 64)).w (seqAt s q) = r
      obtain ⟨ha, hs, hc⟩ := er ▸ dataStep_place (microData w) c0 (BitVec.ofNat 64 (freeVal 64 s)) (weld s (seqStore q - 64)).w (seqAt s q)
      have moved : SamePlace q s (modWeld (seqStore q - 64) (fun x => { x with w := r.1 }) (tick s)) := ⟨rfl, rfl, rfl, rfl, rfl, rfl⟩
      exact moved.trans (.setSeq ha hs hc)

/-! ### An abort of the Sketch unit (R200) -/

/-- The syndrome of a Sketch abort. -/
def sketchSyn (code thread a : Nat) : Word := w32 (code * 2 ^ 28 + thread * 2 ^ 24 + a % 2 ^ 13)

/-- A Sketch abort before its registers: the operation has ended in its thread with code and syndrome. -/
def sketchEnded (l code k thread : Nat) (syn : Word) (s : State) : State :=
  landSketch k (modLane l (fun x => { x with sk := none, skCode := smPut 0 x.skCode thread code })
    (modEng k (fun e => { e with ops := setSketchVals (fun _ => 0) e.ops, sketchAbort := some (code, syn) }) s))

theorem sketchAbort_eq {l : Nat} {s : State} {o : SkOp} (busy : (lane (sketchLand l s) l).sk = some o) (code a : Nat) {u : State}
    (eu : u = sketchEnded l code (512 + 8 * l + o.thread) o.thread (sketchSyn code o.thread a) (sketchLand l s)) :
    sketchAbort l code a s = raiseBit (storePage l) 2 (wrReg (storePage l) 0x710 (sketchSyn code o.thread a)
      (setSeq (64 + l) { seqAt u (64 + l) with running := false, waiting := false, waited := 0 } u)) := by
  subst eu
  unfold sketchAbort
  simp only [busy]
  rfl

theorem lane_landSketch (k : Nat) (s : State) (l : Nat) : lane (landSketch k s) l = lane s l := by
  unfold landSketch
  dsimp only
  split
  · exact lane_setEng ..
  · rfl

theorem sketchAbort_landSketch (k : Nat) (s : State) : (eng (landSketch k s) k).sketchAbort = (eng s k).sketchAbort := by
  unfold landSketch
  dsimp only
  split
  · rw [eng_setEng_same]
    exact (landOp_keeps ..).2
  · rfl

/-- The end of an operation in its thread leaves the sequencers, the stores, the memory and the channels. -/
theorem sketchEnded_facts (l code k thread : Nat) (syn : Word) (s : State) : (lane (sketchEnded l code k thread syn s) l).sk = none ∧
    (eng (sketchEnded l code k thread syn s) k).sketchAbort = some (code, syn) ∧ (sketchEnded l code k thread syn s).seqs = s.seqs ∧
    (sketchEnded l code k thread syn s).stores = s.stores ∧ (sketchEnded l code k thread syn s).mem = s.mem ∧ (sketchEnded l code k thread syn s).chans = s.chans := by
  unfold sketchEnded
  generalize eu : modLane l (fun x => { x with sk := none, skCode := smPut 0 x.skCode thread code })
    (modEng k (fun e => { e with ops := setSketchVals (fun _ => 0) e.ops, sketchAbort := some (code, syn) }) s) = u
  have none_ : (lane u l).sk = none := by rw [← eu, lane_modLane_same]
  have set_ : (eng u k).sketchAbort = some (code, syn) := by rw [← eu, eng_modLane, eng_modEng_same]
  have rest : u.seqs = s.seqs ∧ u.stores = s.stores ∧ u.mem = s.mem ∧ u.chans = s.chans := by rw [← eu]; exact ⟨rfl, rfl, rfl, rfl⟩
  obtain ⟨seqs, stores, mem, chans⟩ := rest
  have landed := wordSide_landSketch k u
  exact ⟨by rw [lane_landSketch, none_], (sketchAbort_landSketch k u).trans set_, (WordSide.seqs landed).trans seqs, (WordSide.stores landed).trans stores,
    (WordSide.mem landed).trans mem, (WordSide.chans landed).trans chans⟩

section
variable {l : Nat} {s t : State} {o : SkOp} (busy : (lane s l).sk = some o) {code a : Nat} (et : t = sketchAbort l code a s)
include busy et

/-- A Sketch abort: the sequencer stops where it is, and the thread gets its code and syndrome. -/
theorem sketchAbort_facts : (lane t l).sk = none ∧ (seqAt t (64 + l)).running = false ∧ (eng t (512 + 8 * l + o.thread)).sketchAbort = some (code, sketchSyn code o.thread a) ∧
    rdReg t (storePage l) 0x710 = sketchSyn code o.thread a ∧ bit (rdReg t (storePage l) 0x010) 2 = true ∧ SamePlace (64 + l) s t := by
  have landed := wordSide_sketchLand l s
  rw [sketchAbort_eq ((WordSide.sk landed l).trans busy) code a rfl] at et
  obtain ⟨none_, set_, seqs, stores, mem, chans⟩ := sketchEnded_facts l code (512 + 8 * l + o.thread) o.thread (sketchSyn code o.thread a) (sketchLand l s)
  generalize sketchEnded l code (512 + 8 * l + o.thread) o.thread (sketchSyn code o.thread a) (sketchLand l s) = u at et none_ set_ seqs stores mem chans
  have before : seqAt u (64 + l) = seqAt s (64 + l) := by
    rw [← WordSide.seqAt landed]
    unfold seqAt
    rw [seqs]
  have stopped : seqAt t (64 + l) = { seqAt s (64 + l) with running := false, waiting := false, waited := 0 } := by
    rw [et, seqAt_raiseBit, seqAt_wrReg, seqAt_setSeq_same, before]
  have place : t.stores = s.stores ∧ t.mem = s.mem ∧ t.chans = s.chans := by
    refine ⟨?_, ?_, ?_⟩
    · rw [et, (pageOnly_raiseBit ..).stores_eq, wrReg_stores, setSeq_stores, stores, WordSide.stores landed]
    · rw [et, (pageOnly_raiseBit ..).mem_eq, wrReg_mem, setSeq_mem, mem, WordSide.mem landed]
    · rw [et, (pageOnly_raiseBit ..).chans_eq, wrReg_chans, setSeq_chans, chans, WordSide.chans landed]
  refine ⟨?_, by rw [stopped], ?_, ?_, ?_, by rw [stopped], by rw [stopped], by rw [stopped], place⟩
  · rw [et, lane_raiseBit, lane_wrReg, lane_setSeq, none_]
  · rw [et, eng_raiseBit, eng_wrReg, eng_setSeq, set_]
  · rw [et, rdReg_raiseBit_offset (by decide) (by decide), rdReg_wrReg_same]
  · rw [et]
    exact bit_raiseBit_same _ (by decide) _
end

theorem samePlace_sketchCycle (l : Nat) (s : State) : SamePlace (64 + l) s (sketchCycle l false s) := by
  unfold sketchCycle
  split
  · exact .refl ..
  · next o _ =>
    dsimp only
    have counted : SamePlace (64 + l) s (modLane l (fun x => { x with sk := some { o with cycles := o.cycles + 1 } }) s) := ⟨rfl, rfl, rfl, rfl, rfl, rfl⟩
    rw [if_neg Bool.false_ne_true]
    split
    · obtain ⟨-, -, -, -, -, place⟩ := sketchAbort_facts (l := l) (s := modLane l (fun x => { x with sk := some { o with cycles := o.cycles + 1 } }) s)
        (o := { o with cycles := o.cycles + 1 }) (by rw [lane_modLane_same]) (code := 6) rfl
      exact counted.trans place
    · exact counted

/-! ### One cycle of a word -/

theorem borindamStart_of_running {q : Nat} {s : State} (run : (seqAt s q).running = true) : borindamStart q s = s := by
  unfold borindamStart
  rw [if_pos (.inl run)]

/-- What a fetch finds of a word, nothing where the word has been fetched before. -/
def foundOf (ecc : EccOutcome) (x : Seq) : EccOutcome := if x.waiting then .clean else ecc

/-- The state in which a sequencer decodes its word: results that are due have reached their port, the error of the fetch is counted. -/
def wordFetched (q : Nat) (ecc : EccOutcome) (s : State) : State :=
  storeEcc (seqStore q) (seqAt s q).addr (foundOf ecc (seqAt s q)) (if 64 ≤ q ∧ q < 128 then sketchLand (q - 64) s else s)

theorem wordSide_wordFetched {q : Nat} {ecc : EccOutcome} {s : State} (h : foundOf ecc (seqAt s q) ≠ .uncorrectable) : wordSide (wordFetched q ecc s) = wordSide s := by
  unfold wordFetched
  rw [wordSide_pageOnly (pageOnly_storeEcc h _ _ _)]
  split
  · exact wordSide_sketchLand _ s
  · rfl

/-- The cycle of a word that is executed: its SEQ field, its datapath half, and what its end asks for. -/
def wordCycle (q : Nat) (w : Wide) (x : Seq) (c : Bool) (u : State) : State :=
  let s := setSeq q (seqAfter (seqStore q) (microSeq w) c x) (tick u)
  let s := if x.waiting then s else dataHalf q w x.c0 x.addr s
  if 64 ≤ q ∧ q < 128 then sketchCycle (q - 64) ((microSeq w).seq == 6) s
  else if 136 ≤ q ∧ (microSeq w).seq == 6 ∧ customData s q x.addr then hookDone (q - 136) s
  else s

section
variable {q : Nat} {ecc : EccOutcome} {s : State} {x : Seq} (ex : x = seqAt s q) (free : seqFree s q = true) (run : x.running = true)
  (portion : portionRuns s (seqStore q) x.addr = true)
include ex free run portion

theorem microword_fetched (fresh : foundOf ecc x ≠ .uncorrectable) {u : State} (eu : u = wordFetched q ecc s) : microword q ecc s =
    if abortCode u q x (storeWord u (seqStore q) x.addr) ≠ 0 then seqAbort q (abortCode u q x (storeWord u (seqStore q) x.addr)) u
    else wordCycle q (storeWord u (seqStore q) x.addr) x ((condition u q x (microSeq (storeWord u (seqStore q) x.addr))).getD false != (microSeq (storeWord u (seqStore q) x.addr)).cinv) u := by
  have go : ¬ ((!x.running) = true ∨ (!portionRuns s (seqStore q) x.addr) = true) := by rw [run, portion]; decide
  have held : ¬ (!seqFree s q) = true := by rw [free]; decide
  have fetched : storeEcc (seqStore q) x.addr (if x.waiting = true then EccOutcome.clean else ecc) (if 64 ≤ q ∧ q < 128 then sketchLand (q - 64) s else s) = u := by
    rw [eu, wordFetched, foundOf, ← ex]
  have found' : (if x.waiting = true then EccOutcome.clean else ecc) ≠ .uncorrectable := fresh
  unfold microword
  rw [if_neg held, borindamStart_of_running (ex ▸ run)]
  dsimp only
  rw [← ex, if_neg go, fetched, if_neg found']
  rfl


theorem microword_eq_wordCycle {w : Wide} (ew : w = storeWord s (seqStore q) x.addr) (found : foundOf ecc x ≠ .uncorrectable) (code : abortCode s q x w = 0) :
    microword q ecc s = wordCycle q w x ((condition s q x (microSeq w)).getD false != (microSeq w).cinv) (wordFetched q ecc s) := by
  have side := wordSide_wordFetched (q := q) (ecc := ecc) (s := s) (ex ▸ found)
  rw [microword_fetched ex free run portion found rfl, WordSide.storeWord side, ← ew, WordSide.abortCode side, if_neg (fun h => h code), WordSide.condition side]

theorem microword_eq_seqAbort (fresh : x.waiting = false) : microword q .uncorrectable s = seqAbort q 5 (wordFetched q .uncorrectable s) := by
  have go : ¬ ((!x.running) = true ∨ (!portionRuns s (seqStore q) x.addr) = true) := by rw [run, portion]; decide
  have held : ¬ (!seqFree s q) = true := by rw [free]; decide
  have found : (if x.waiting = true then EccOutcome.clean else .uncorrectable) = .uncorrectable := by rw [fresh]; rfl
  have fetched : storeEcc (seqStore q) x.addr .uncorrectable (if 64 ≤ q ∧ q < 128 then sketchLand (q - 64) s else s) = wordFetched q .uncorrectable s := by
    rw [wordFetched, foundOf, ← ex, fresh]
    rfl
  unfold microword
  rw [if_neg held, borindamStart_of_running (ex ▸ run)]
  dsimp only
  rw [← ex, if_neg go, found, fetched, if_pos rfl, if_pos (by decide)]
end

/-- The cycle of a word that goes on leaves its sequencer where its SEQ field says. -/
theorem samePlace_wordCycle {q : Nat} {w : Wide} {x : Seq} {c : Bool} {u : State} (on : (microSeq w).seq ≠ 6) :
    SamePlace q (setSeq q (seqAfter (seqStore q) (microSeq w) c x) (tick u)) (wordCycle q w x c u) := by
  have notDone : ((microSeq w).seq == 6) = false := beq_false_of_ne on
  unfold wordCycle
  generalize setSeq q (seqAfter (seqStore q) (microSeq w) c x) (tick u) = v
  have half : SamePlace q v (if x.waiting then v else dataHalf q w x.c0 x.addr v) := by
    split
    · exact .refl ..
    · exact samePlace_dataHalf ..
  simp only [notDone, Bool.false_eq_true, false_and, and_false, if_false]
  refine half.trans ?_
  generalize (if x.waiting then v else dataHalf q w x.c0 x.addr v) = y
  split
  · next k =>
    have e : 64 + (q - 64) = q := by omega
    have := samePlace_sketchCycle (q - 64) y
    rwa [e] at this
  · exact .refl ..

/-- Where a word leaves its sequencer, given where its SEQ field goes. -/
theorem wordCycle_facts {q : Nat} {w : Wide} {x : Seq} {c : Bool} {s u t : State} (on : (microSeq w).seq ≠ 6) (side : wordSide u = wordSide s) (et : t = wordCycle q w x c u) :
    (seqAt t q).addr = (seqAfter (seqStore q) (microSeq w) c x).addr ∧ (seqAt t q).stack = (seqAfter (seqStore q) (microSeq w) c x).stack ∧
    (seqAt t q).c0 = (seqAfter (seqStore q) (microSeq w) c x).c0 ∧ t.mem = s.mem ∧ t.chans = s.chans ∧ t.stores = s.stores := by
  obtain ⟨addr, stack, c0, stores, mem, chans⟩ := samePlace_wordCycle (q := q) (w := w) (x := x) (c := c) (u := u) on
  rw [seqAt_setSeq_same] at addr stack c0
  subst et
  have ticked : (setSeq q (seqAfter (seqStore q) (microSeq w) c x) (tick u)).mem = u.mem ∧ (setSeq q (seqAfter (seqStore q) (microSeq w) c x) (tick u)).chans = u.chans ∧
    (setSeq q (seqAfter (seqStore q) (microSeq w) c x) (tick u)).stores = u.stores := ⟨rfl, rfl, rfl⟩
  obtain ⟨tmem, tchans, tstores⟩ := ticked
  exact ⟨addr, stack, c0, (mem.trans tmem).trans (WordSide.mem side), (chans.trans tchans).trans (WordSide.chans side), (stores.trans tstores).trans (WordSide.stores side)⟩

theorem countOps_first (m : MicroSeq) (x : Seq) : (countOps m true x).c0 = if m.c0op = 1 then m.k else if m.c0op = 2 then x.c0 - 1 else x.c0 := by
  have c0 : (match m.c0op with | 1 => m.k | 2 => x.c0 - 1 | _ => x.c0) = if m.c0op = 1 then m.k else if m.c0op = 2 then x.c0 - 1 else x.c0 := by
    split
    · next e => rw [if_pos e]
    · next e => rw [if_neg (by omega), if_pos e]
    · next n1 n2 => rw [if_neg n1, if_neg n2]
  unfold countOps
  dsimp only
  split
  · exact c0
  · split <;> exact c0

theorem seqAfter_of_next {i : Nat} {m : MicroSeq} {c : Bool} {x : Seq} {a : Nat} (h : nextAddr x m c = some a) : seqAfter i m c x =
    { countOps m (!x.waiting) x with addr := a % storeSize i, waiting := false, waited := 0, stack := if m.seq = 3 then (x.addr + 1) % storeSize i :: x.stack else if m.seq = 4 then x.stack.tail else x.stack } := by
  unfold seqAfter
  rw [h]

/-- A word with SEQ at most 4 goes to the address of its SEQ field; a RET has one where its stack is not empty. -/
theorem nextAddr_of_le {x : Seq} {m : MicroSeq} (c : Bool) (le : m.seq ≤ 4) (ret : m.seq = 4 → x.stack ≠ []) :
    nextAddr x m c = some (if m.seq = 1 ∨ m.seq = 3 ∨ (m.seq = 2 ∧ c = true) then m.next else if m.seq = 4 then x.stack.headD 0 else x.addr + 1) := by
  unfold nextAddr
  obtain e | e | e | e | e : m.seq = 0 ∨ m.seq = 1 ∨ m.seq = 2 ∨ m.seq = 3 ∨ m.seq = 4 := by omega
  · simp [e]
  · simp [e]
  · cases c <;> simp [e]
  · simp [e]
  · obtain ⟨a, r, er⟩ := List.exists_cons_of_ne_nil (ret e)
    simp [e, er]

theorem code_ne_zero {a b c : Prop} [Decidable a] [Decidable b] [Decidable c] : (if a then 1 else if b then 2 else if c then 3 else 4) ≠ 0 := by
  split_ifs <;> decide

theorem stack_of_abortCode {s : State} {q : Nat} {x : Seq} {w : Wide} (h : abortCode s q x w = 0) (ret : (microSeq w).seq = 4) : x.stack ≠ [] := by
  intro nil
  unfold abortCode at h
  dsimp only at h
  simp only [nil, ret, List.isEmpty_nil, and_self, or_true, if_true] at h
  exact code_ne_zero h

theorem nextAddr_wait {x : Seq} {m : MicroSeq} (c : Bool) (wait : m.seq = 5) (waits : x.waiting = true) (limited : m.limit ≠ 0) (last : x.waited = m.limit - 1) :
    nextAddr x m c = some (if c = true then x.addr + 1 else m.next) := by
  have le : m.limit ≤ x.waited + 1 := by omega
  unfold nextAddr
  cases c <;> simp [wait, waits, limited, le]

/-! ### A word whose fetch finds an uncorrectable error (R191) -/

/-- The parts of the state that an abort's record leaves. -/
def imageSide (s : State) : SMap CtlStore × List Host.Cell := (s.stores, s.mem)

theorem imageSide_pageOnly {s t : State} (h : PageOnly s t) : imageSide t = imageSide s := by unfold imageSide; rw [h.stores_eq, h.mem_eq]

theorem imageSide_modLane (l : Nat) (f : Lane → Lane) (s : State) : imageSide (modLane l f s) = imageSide s := congrArg₂ Prod.mk (modLane_stores ..) (modLane_mem ..)

theorem imageSide_modFail (k : Nat) (f : FailPipe → FailPipe) (s : State) : imageSide (modFail k f s) = imageSide s := congrArg₂ Prod.mk (modFail_stores ..) (modFail_mem ..)

theorem imageSide_weldAbort (k : Nat) (s : State) : imageSide (weldAbort k s) = imageSide s ∧ (weldAbort k s).seqs = s.seqs := by
  have flagged : imageSide (forUpTo 128 (modWeld k (fun w => { w with st := 3, hook := none, cells := [], exam := [], searching := false, solving := none, toVisit := [] }) s)
        (fun n s => if bit (siteCfg s k n) 30 then siteFlag k n 1 s else s)) = imageSide s ∧
      (forUpTo 128 (modWeld k (fun w => { w with st := 3, hook := none, cells := [], exam := [], searching := false, solving := none, toVisit := [] }) s)
        (fun n s => if bit (siteCfg s k n) 30 then siteFlag k n 1 s else s)).seqs = s.seqs := by
    refine forUpTo_inv (P := fun t => imageSide t = imageSide s ∧ t.seqs = s.seqs) ⟨rfl, rfl⟩ fun n t h => ?_
    split
    · exact h
    · exact h
  unfold weldAbort
  dsimp only
  generalize forUpTo 128 _ _ = t at flagged
  exact ⟨(imageSide_pageOnly (pageOnly_raiseBit ..)).trans flagged.1, (pageOnly_raiseBit (wdPage k) 1 t).seqs_eq.trans flagged.2⟩

theorem imageSide_sketchAbort (l code a : Nat) (s : State) : imageSide (sketchAbort l code a s) = imageSide s := by
  obtain e | ⟨o, e⟩ : (lane s l).sk = none ∨ ∃ o, (lane s l).sk = some o := by cases (lane s l).sk <;> simp
  · have landed := wordSide_sketchLand l s
    unfold sketchAbort
    dsimp only
    rw [WordSide.sk landed, e]
    exact congrArg₂ Prod.mk (WordSide.stores landed) (WordSide.mem landed)
  · obtain ⟨-, -, -, -, -, -, -, -, stores, mem, -⟩ := sketchAbort_facts e (code := code) (a := a) rfl
    exact congrArg₂ Prod.mk stores mem

theorem seqAt_weldAbort (k : Nat) (s : State) (q : Nat) : seqAt (weldAbort k s) q = seqAt s q := by unfold seqAt; rw [(imageSide_weldAbort k s).2]

/-- A sequencer other than SK that has stopped, with its capture on the page of its store. -/
def seqHalted (q code : Nat) (s : State) : State :=
  captureAs (storePage (seqStore q)) fHW 0x710 code 3 fHW 0 0 (setSeq q { seqAt s q with running := false, waiting := false, waited := 0 } s)

theorem seqHalted_facts (q code : Nat) (s : State) : imageSide (seqHalted q code s) = imageSide s ∧ (seqAt (seqHalted q code s) q).running = false := by
  unfold seqHalted
  generalize ez : setSeq q { seqAt s q with running := false, waiting := false, waited := 0 } s = z
  have kept : imageSide z = imageSide s := by rw [← ez]; rfl
  have halted : (seqAt z q).running = false := by rw [← ez, seqAt_setSeq_same]
  exact ⟨(imageSide_pageOnly (pageOnly_captureAs ..)).trans kept, by rw [seqAt_captureAs, halted]⟩

/-- The syndrome and the interrupt of an abort of FP or WD. -/
def abortShown (q code a : Nat) (s : State) : State :=
  raiseBit (storePage (seqStore q)) 2 (wrReg (storePage (seqStore q)) 0x710 (w32 (code * 2 ^ 28 + (decide (136 ≤ q)).toNat * 2 ^ 24 + a % 2 ^ 13)) s)

theorem pageOnly_abortShown (q code a : Nat) (s : State) : PageOnly s (abortShown q code a s) := (pageOnly_wrReg ..).trans (pageOnly_raiseBit ..)

theorem seqAt_abortShown (q code a : Nat) (s : State) (j : Nat) : seqAt (abortShown q code a s) j = seqAt s j := by unfold seqAt; rw [(pageOnly_abortShown ..).seqs_eq]

theorem seqAbort_eq {q : Nat} (code : Nat) (s : State) (other : ¬ (64 ≤ q ∧ q < 128)) : seqAbort q code s =
    if q < 64 then modLane q (fun x => { x with fmAborted := true }) (seqHalted q code s)
    else if q < 136 then modFail (q - 128) (fun f => { f with stopped := true }) (abortShown q code (seqAt s q).addr (seqHalted q code s))
    else weldAbort (q - 136) (abortShown q code (seqAt s q).addr (seqHalted q code s)) := by
  unfold seqAbort seqHalted abortShown
  extract_lets
  rw [if_neg other]

theorem seqAbort_sk {q : Nat} (code : Nat) (s : State) (sk : 64 ≤ q ∧ q < 128) : seqAbort q code s = sketchAbort (q - 64) code (seqAt s q).addr s := by
  unfold seqAbort
  extract_lets
  rw [if_pos sk]

theorem seqAbort_facts (q code : Nat) (s : State) : imageSide (seqAbort q code s) = imageSide s ∧ (q < 64 ∨ 128 ≤ q → (seqAt (seqAbort q code s) q).running = false) := by
  by_cases sk : 64 ≤ q ∧ q < 128
  · refine ⟨?_, by omega⟩
    rw [seqAbort_sk code s sk]
    exact imageSide_sketchAbort ..
  · rw [seqAbort_eq code s sk]
    obtain ⟨image, halted⟩ := seqHalted_facts q code s
    generalize seqHalted q code s = v at image halted
    have shown := seqAt_abortShown q code (seqAt s q).addr v q
    have image' := (imageSide_pageOnly (pageOnly_abortShown q code (seqAt s q).addr v)).trans image
    generalize abortShown q code (seqAt s q).addr v = w at shown image'
    split
    · exact ⟨(imageSide_modLane ..).trans image, fun _ => by rw [seqAt_modLane, halted]⟩
    · split
      · exact ⟨(imageSide_modFail ..).trans image', fun _ => by rw [seqAt_modFail, shown, halted]⟩
      · exact ⟨(imageSide_weldAbort ..).1.trans image', fun _ => by rw [seqAt_weldAbort, shown, halted]⟩

theorem portionRuns_congr {s t : State} (h : t.stores = s.stores) (i a : Nat) : portionRuns t i a = portionRuns s i a := by
  unfold portionRuns store
  rw [h]

theorem portionRuns_failPortion (i a : Nat) (s : State) : portionRuns (failPortion i a s) i a = false := by
  unfold failPortion portionRuns
  dsimp only
  rw [store_modStore_same]
  cases e : (store s i).mode && decide (quarter i ≤ a) <;> simp_all

theorem storeEcc_uncorrectable (i a : Nat) (s : State) : storeEcc i a .uncorrectable s = failPortion i a (capture (storePage i) fHW 0 0 s) := (rfl)

theorem failPortion_mem (i a : Nat) (s : State) : (failPortion i a s).mem = s.mem := (rfl)

theorem wordFetched_uncorrectable {q : Nat} {s : State} {x : Seq} (ex : x = seqAt s q) (fresh : x.waiting = false) :
    (wordFetched q .uncorrectable s).mem = s.mem ∧ portionRuns (wordFetched q .uncorrectable s) (seqStore q) x.addr = false := by
  unfold wordFetched foundOf
  rw [← ex, fresh, if_neg Bool.false_ne_true, storeEcc_uncorrectable]
  have landed : (if 64 ≤ q ∧ q < 128 then sketchLand (q - 64) s else s).mem = s.mem := by
    split
    · exact WordSide.mem (wordSide_sketchLand ..)
    · rfl
  exact ⟨((failPortion_mem ..).trans (capture_mem ..)).trans landed, portionRuns_failPortion ..⟩

/-! ### Sketch operations -/

theorem landSketch_single {k : Nat} {s : State} {sock : Nat} {v : Wide} (ops : (eng s k).ops = [⟨0x1C00, false, [(sock, v)], none, none, [], false⟩]) :
    landSketch k s = setEng k (setPort false sock v { eng s k with ops := [] }) s := by
  unfold landSketch
  simp only [ops]
  rfl

theorem seqStore_fm {l : Nat} (h : l < 64) : seqStore l = l := by unfold seqStore; rw [if_pos h]

theorem storeSize_fm {l : Nat} (h : l < 64) : storeSize l = 0x1000 := by unfold storeSize; rw [if_pos h]

/-- The state of sequencer FM when the timeout of its WAIT expires. -/
theorem microTimeout_fm {l : Nat} {s : State} {x : Seq} {m : MicroSeq} (hl : l < 64) (ex : x = seqAt s l) (em : m = microSeq (storeWord s l x.addr)) (free : seqFree s l = true)
    (run : x.running = true) (waits : x.waiting = true) (timer : x.timer = false) (portion : portionRuns s l x.addr = true) (limited : m.limit ≠ 0) :
    microTimeout l s = microword l .clean (setSeq l { x with waited := m.limit - 1 } s) := by
  have go : ¬ ((!x.running) = true ∨ (!x.waiting) = true ∨ m.limit = 0 ∨ (!seqFree s l) = true ∨ (!portionRuns s l x.addr) = true) := by
    rw [run, waits, free, portion]
    simp [limited]
  have fm : ¬ (64 ≤ l ∧ l < 128) := by omega
  unfold microTimeout
  dsimp only
  rw [seqStore_fm hl, ← ex, ← em, if_neg go, if_neg fm, timer]
  rfl

/-- Settles O26. -/
theorem sequencersFollowTheirWords : Obligations.SequencersFollowTheirWords := by
  unfold Obligations.SequencersFollowTheirWords
  refine ⟨?_, ?_, ?_, ?_, ?_⟩
  · intro q ecc s k x w m c hk ex ew em up free run fresh portion ecc_ code le ec
    subst hk em
    have found : foundOf ecc x ≠ .uncorrectable := by rw [foundOf, fresh]; exact ecc_
    refine ⟨_, congrArg Host.Outcome.next ((whileLanes_of_up _ up).trans (microword_eq_wordCycle ex free run portion ew found code)), ?_⟩
    obtain ⟨addr, stack, c0, mem, chans, stores⟩ := wordCycle_facts (q := seqKey q) (w := w) (x := x) (c := c) (by omega) (wordSide_wordFetched (ecc := ecc) (ex ▸ found)) rfl
    rw [seqAfter_of_next (nextAddr_of_le c le (stack_of_abortCode code))] at addr stack c0
    rw [← ec]
    refine ⟨addr, stack, c0.trans ?_, mem, chans, stores⟩
    show (countOps (microSeq w) (!x.waiting) x).c0 = _
    rw [fresh]
    exact countOps_first ..
  · intro q s k x hk ex up free run fresh portion
    subst hk
    refine ⟨_, congrArg Host.Outcome.next ((whileLanes_of_up _ up).trans (microword_eq_seqAbort ex free run portion fresh)), ?_⟩
    obtain ⟨image, halted⟩ := seqAbort_facts (seqKey q) 5 (wordFetched (seqKey q) .uncorrectable s)
    obtain ⟨fmem, fportion⟩ := wordFetched_uncorrectable ex fresh
    refine ⟨?_, halted, ?_⟩
    · rw [portionRuns_congr (congrArg Prod.fst image), fportion]
    · exact (congrArg Prod.snd image).trans fmem
  · intro l s x y w m ex ew em up free run waits timer portion wait limited ey code
    have timeout := microTimeout_fm l.isLt ex (by rw [em, ew]) free run waits timer portion limited
    rw [← ey] at timeout
    subst em
    have found : foundOf .clean y ≠ .uncorrectable := by unfold foundOf; split <;> decide
    have ey' : y = seqAt (setSeq l.val y s) l.val := (seqAt_setSeq_same ..).symm
    have ew' : w = storeWord (setSeq l.val y s) (seqStore l.val) y.addr := by rw [seqStore_fm l.isLt, ew, ey]; rfl
    have portion' : portionRuns (setSeq l.val y s) (seqStore l.val) y.addr = true := by rw [seqStore_fm l.isLt, ey]; exact portion
    refine ⟨_, congrArg Host.Outcome.next ((whileLanes_of_up _ up).trans (timeout.trans
      (microword_eq_wordCycle (w := w) ey' free (by rw [ey]; exact run) portion' ew' found code))), ?_⟩
    generalize ec : ((condition (setSeq l.val y s) l.val y (microSeq w)).getD false != (microSeq w).cinv) = c
    have waitsY : y.waiting = true := by rw [ey]; exact waits
    have next := nextAddr_wait (x := y) c wait waitsY limited (by rw [ey])
    obtain ⟨addr, -, -, mem, chans, -⟩ := wordCycle_facts (q := l.val) (w := w) (x := y) (c := c) (by omega) (wordSide_wordFetched (ecc := .clean) (ey' ▸ found)) rfl
    rw [seqAfter_of_next next, seqStore_fm l.isLt, storeSize_fm l.isLt] at addr
    have waited : (seqAt (wordCycle l.val w y c (wordFetched l.val .clean (setSeq l.val y s))) l.val).waiting = false := by
      have fm : ¬ (64 ≤ l.val ∧ l.val < 128) := by omega
      have wd : ¬ 136 ≤ l.val := by omega
      unfold wordCycle
      simp only [waitsY, if_true, fm, wd, false_and, if_false]
      rw [seqAt_setSeq_same, seqAfter_of_next next]
    have same : condition (setSeq l.val y s) l.val y (microSeq w) = condition s l.val y (microSeq w) := rfl
    rw [same] at ec
    have at_ : y.addr = x.addr := by rw [ey]
    rw [ec, ← at_]
    exact ⟨addr, waited, mem, chans⟩
  · intro l s th rest k sock v up done_ hk ops
    refine congrArg Host.Outcome.next ((whileLanes_of_up _ up).trans ?_)
    subst hk
    unfold sketchReady
    simp only [done_]
    exact landSketch_single ops
  · intro l s o k syn up busy hk limit hsyn
    subst hk hsyn
    have due : skBusy s l.val = true ∧ (rdReg s (storePage l.val) 0x70C).toNat ≠ 0 := ⟨by simp [skBusy, busy], fun h => limit (BitVec.eq_of_toNat_eq h)⟩
    refine ⟨_, congrArg Host.Outcome.next ((whileLanes_of_up _ up).trans ((by unfold watchdogExpires; rw [if_pos due]) :
      watchdogExpires l.val s = sketchAbort l.val 6 (seqAt s (64 + l.val)).addr s)), ?_⟩
    obtain ⟨none_, stopped, told, shown, raised, -, -, -, -, mem, chans⟩ := sketchAbort_facts busy (code := 6) (a := (seqAt s (64 + l.val)).addr) rfl
    exact ⟨none_, stopped, told, shown, raised, mem, chans⟩

end Sys2Proof.Machine
end

-- ==== powers ====
section
/-! PROOFS. Power requests of the memories, the wipe of the secure bank, MRAM lines and REMAP (spec 11 R301-R304, R309, R310). -/

-- One theorem at a time: elaborating them in parallel takes the memory of many threads.
set_option Elab.async false

namespace Sys2Proof.Machine

/-! ### The registers of the MEM page -/

theorem memPower_offset {off : Nat} (lo : 0x700 ≤ off) (hi : off ≤ 0x714) (word : off % 4 = 0) : off = 0x700 ∨ off = 0x704 ∨ off = 0x708 ∨ off = 0x70C ∨ off = 0x710 ∨ off = 0x714 := by omega

/-- A register of the power states is in the table, and its writes are power requests. -/
theorem find_memPower {off : Nat} (lo : 0x700 ≤ off) (hi : off ≤ 0x714) (word : off % 4 = 0) :
    ∃ r, findReg (regsOf .mem) off = some r ∧ ∀ (p : Nat) (m : Master) (fs : List Field) (v : Word) (s : State), blockWrite ⟨.mem, 0⟩ p off m fs v s = pwrWrite off m v s := by
  obtain rfl | rfl | rfl | rfl | rfl | rfl := memPower_offset lo hi word
  all_goals exact ⟨_, (Option.some_get (by decide)).symm, fun _ _ _ _ _ => rfl⟩

theorem accessWrite_memPower {off : Nat} {m : Master} {s : State} (v : Word) (h : Takes s memPage m) (lo : 0x700 ≤ off) (hi : off ≤ 0x714) (word : off % 4 = 0) :
    accessWrite memPage off m v s = pwrWrite off m v s := by
  obtain ⟨r, found, write⟩ := find_memPower lo hi word
  exact (accessWrite_block v h pageAt_memPage found word (fun h => nomatch h) lo (by omega)).trans (write ..)

/-! ### Requests -/

theorem pwrRequest_same {r : Nat} {s : State} (off : Nat) (m : Master) {v : Nat} (h : v = (powerOf s r).st) : pwrRequest off r v m s = s := if_pos (.inr h)

/-- A request changes no other region. -/
theorem powerOf_pwrRequest {r j : Nat} (ne : j ≠ r) (off v : Nat) (m : Master) (s : State) : powerOf (pwrRequest off r v m s) j = powerOf s j := by
  unfold pwrRequest
  dsimp only
  split
  · rfl
  · split
    · have page : PageOnly s (refuseCmd memPage off m (raiseReject memPage s)) := (pageOnly_raiseReject ..).trans (pageOnly_refuseCmd ..)
      unfold powerOf
      rw [page.power_eq]
    · exact smGet_smPut_ne _ _ _ _ ne

/-- Of a write whose other fields name the states in force, the one request counts. -/
theorem pwrApply_single {off n b i : Nat} {m : Master} {v : Word} {s : State} (fields : pwrFields off = (n, b)) (hi : i < n)
    (others : ∀ j, j < n → j ≠ i → fld v (2 * j + 1) (2 * j) = (powerOf s (b + j)).st ∧ (powerOf s (b + j)).st < 3) :
    pwrApply off m v s = if fld v (2 * i + 1) (2 * i) = 3 then capture memPage fINVALID off (masterCode m) s else pwrRequest off (b + i) (fld v (2 * i + 1) (2 * i)) m s := by
  have once : forUpTo n s (fun j s => pwrRequest off (b + j) (fld v (2 * j + 1) (2 * j)) m s) = pwrRequest off (b + i) (fld v (2 * i + 1) (2 * i)) m s := by
    refine forUpTo_once_while (P := fun t => ∀ j < n, j ≠ i → powerOf t (b + j) = powerOf s (b + j)) hi (fun _ _ _ => rfl)
      (fun j _ ne => powerOf_pwrRequest (by omega) ..) fun j hj ne t same => ?_
    exact pwrRequest_same off m (by rw [same j hj ne]; exact (others j hj ne).1)
  have reserved : (List.range n).any (fun j => fld v (2 * j + 1) (2 * j) == 3) = (fld v (2 * i + 1) (2 * i) == 3) := by
    rw [Bool.eq_iff_iff, List.any_eq_true]
    constructor
    · rintro ⟨j, hj, e⟩
      obtain rfl | ne := eq_or_ne j i
      · exact e
      · obtain ⟨same, lt⟩ := others j (List.mem_range.mp hj) ne
        rw [same, beq_iff_eq] at e
        omega
    · exact fun e => ⟨i, List.mem_range.mpr hi, e⟩
  unfold pwrApply
  rw [fields]
  dsimp only
  rw [once, reserved]
  by_cases three : fld v (2 * i + 1) (2 * i) = 3
  · rw [if_pos (beq_iff_eq.mpr three), if_pos three, pwrRequest, if_pos (.inl three)]
  · rw [if_neg (by rw [beq_iff_eq]; exact three), if_neg three]

/-! ### The wipe -/

/-- A wipe of the secure bank starts, with its event, unless one runs. -/
def wipeBegins (s : State) : State :=
  if s.wiping then s
  else
    let t := modPat (fun p => { p with auth := false }) (raiseBit memPage 0 { s with wiping := true })
    offer 0xB001 4 memPage false [BitVec.ofNat 8 (fld (rdReg t memPage 0x720) 3 0)] t

theorem wipeBegins_eq (s : State) : wipeBegins s = if s.wiping then s
    else offer 0xB001 4 memPage false [BitVec.ofNat 8 (fld (rdReg s memPage 0x720) 3 0)] (modPat (fun p => { p with auth := false }) (raiseBit memPage 0 { s with wiping := true })) := by
  have shown : rdReg (modPat (fun p => { p with auth := false }) (raiseBit memPage 0 { s with wiping := true })) memPage 0x720 = rdReg s memPage 0x720 := by
    rw [rdReg_modPat, rdReg_raiseBit_offset (by decide) (by decide)]
    rfl
  unfold wipeBegins
  dsimp only
  rw [shown]

theorem wipeStart_wiping {c : WipeCause} {s u : State} (h : wipeStart c s = wipeBegins u) (same : u.wiping = s.wiping) : wipeStart c s = if s.wiping then u
    else offer 0xB001 4 memPage false [BitVec.ofNat 8 (fld (rdReg u memPage 0x720) 3 0)] (modPat (fun p => { p with auth := false }) (raiseBit memPage 0 { u with wiping := true })) := by
  rw [h, wipeBegins_eq, same]

theorem wipeDone_facts {s t : State} (wiping : s.wiping = true) (et : t = wipeDone s) : t.wiping = false ∧ (∀ a, 0x1000000 ≤ a → a < 0x1100000 → memByte t a = 0) ∧
    (∀ a, a < 0x1000000 ∨ 0x1100000 ≤ a → memByte t a = memByte s a) ∧ t.regs = s.regs ∧ t.chans = s.chans := by
  have zeroed : t = wipeMem 0x1000000 0x1100000 { s with wiping := false } := et.trans (if_pos wiping)
  subst zeroed
  refine ⟨rfl, fun a lo hi => ?_, fun a out => ?_, rfl, rfl⟩
  · rw [memByte_wipeMem, if_pos ⟨lo, hi⟩]
  · rw [memByte_wipeMem, if_neg (by omega)]
    rfl

theorem powerDone_of_goal {r g : Nat} {s : State} (goal : (powerOf s r).goal = some g) : powerDone r s =
    raiseBit memPage 1 { (if g = 2 ∨ (powerOf s r).st = 2 then wipeMem (regionSpan r).1 (regionSpan r).2 s else s) with power := smPut {} s.power r { st := g } } := by
  unfold powerDone
  simp only [goal]
  split <;> rfl

theorem mxCtlWrite_one (m : Master) (s : State) : mxCtlWrite m 1 s = if pairService s m then wrReg mxPage 0x700 1 s else rejectWrite mxPage 0x700 m s := by
  unfold mxCtlWrite
  cases pairService s m <;> rfl

/-- Settles O35. -/
theorem memoriesSleepWipeAndProgram : Obligations.MemoriesSleepWipeAndProgram := by
  unfold Obligations.MemoriesSleepWipeAndProgram
  refine ⟨?_, ?_, fun _ => rfl, ?_, ?_, fun _ _ => rfl, ?_⟩
  · intro off m v s n b i x w takes lo hi word fields hi' others ex ew
    refine congrArg Host.Outcome.next ((accessWrite_memPower v takes lo hi word).trans ?_)
    subst ex ew
    unfold pwrWrite
    rw [pwrApply_single fields hi' others]
    cases pairService s m
    · rfl
    · simp only [if_true, Bool.true_eq_false, if_false]
      split
      · rfl
      · next reserved =>
        unfold pwrRequest
        simp only [reserved, false_or]
  · intro r s x g up ex goal u eu
    subst ex eu
    refine congrArg Host.Outcome.next ((whileUp_of_up _ up).trans ?_)
    unfold powerEnds
    rw [powerDone_of_goal goal]
  · intro c s z u hc hz hu
    subst hz
    cases c with
    | tamperOver => exact absurd rfl hc
    | tamperN => subst hu; exact congrArg Host.Outcome.next (wipeStart_wiping rfl rfl)
    | tamperPulse => subst hu; exact congrArg Host.Outcome.next (wipeStart_wiping rfl rfl)
    | glitch => subst hu; exact congrArg Host.Outcome.next (wipeStart_wiping rfl rfl)
    | lid => subst hu; exact congrArg Host.Outcome.next (wipeStart_wiping rfl rfl)
    | lifecycle => subst hu; exact congrArg Host.Outcome.next (wipeStart_wiping rfl rfl)
  · intro s wiping
    exact ⟨_, rfl, wipeDone_facts wiping rfl⟩
  · intro m s takes
    exact congrArg Host.Outcome.next ((accessWrite_mxCtl 1 takes).trans (mxCtlWrite_one m s))

end Sys2Proof.Machine
end

-- ==== frames ====
section
/-! PROOFS. What the sending of frames leaves alone (spec 13 R339, R340, R345). -/

-- One theorem at a time: elaborating them in parallel takes the memory of many threads.
set_option Elab.async false

namespace Sys2Proof.Machine

/-! ### What sending changes -/

/-- A port without its frames and what counts them. -/
def framelessPort (x : Port) : Port := { x with txq := [], txSeq := 0, unacked := [], taken := [], wrr := 0 }

/-- A state without ports, pages, and what the fabric sends and delivers. -/
def linkSide (s : State) : State :=
  { s with ports := [], regs := [], wms := [], irqOut := [], msixDue := [], reports := [], outbox := [], fabric := { s.fabric with delivered := [], outstanding := [] } }

/-- The state t is s after frames have been handed over: queued, sent, delivered or counted as discarded. -/
structure Sends (s t : State) : Prop where
  side : linkSide t = linkSide s
  frameless : ∀ p, framelessPort (port t p) = framelessPort (port s p)
  down : ∀ p, portUp s p = false → port t p = port s p
  regs : ∀ page off, off < 2 ^ 12 → 0x100 ≤ off → off ≠ 0x738 → off ≠ 0x73C → rdReg t page off = rdReg s page off

theorem doms_of_linkSide {s t : State} (h : linkSide t = linkSide s) : t.doms = s.doms := (congrArg State.doms h :)

theorem portUp_of {s t : State} {p : Nat} (doms : t.doms = s.doms) (st : (port t p).st = (port s p).st) : portUp t p = portUp s p := by
  unfold portUp domLost dom
  rw [doms, st]

namespace Sends

theorem refl (s : State) : Sends s s := ⟨rfl, fun _ => rfl, fun _ _ => rfl, fun _ _ _ _ _ _ => rfl⟩

section
variable {s t : State} (h : Sends s t)
include h

theorem st (p : Nat) : (port t p).st = (port s p).st := (congrArg Port.st (h.frameless p) :)
theorem doms : t.doms = s.doms := doms_of_linkSide h.side
theorem up (p : Nat) : portUp t p = portUp s p := portUp_of h.doms (h.st p)
theorem mem : t.mem = s.mem := (congrArg State.mem h.side :)
theorem chans : t.chans = s.chans := (congrArg State.chans h.side :)

theorem trans {u : State} (k : Sends t u) : Sends s u :=
  ⟨k.side.trans h.side, fun p => (k.frameless p).trans (h.frameless p), fun p hp => (k.down p ((h.up p).trans hp)).trans (h.down p hp),
    fun page off a b c d => (k.regs page off a b c d).trans (h.regs page off a b c d)⟩
end

theorem of_ports {s t : State} (side : linkSide t = linkSide s) (ports : t.ports = s.ports)
    (regs : ∀ page off, off < 2 ^ 12 → 0x100 ≤ off → off ≠ 0x738 → off ≠ 0x73C → rdReg t page off = rdReg s page off) : Sends s t :=
  ⟨side, fun p => by unfold port; rw [ports], fun p _ => by unfold port; rw [ports], regs⟩

theorem countFb {o : Nat} (ho : o = 0x738 ∨ o = 0x73C) (s : State) : Sends s (Sys2Proof.Machine.countFb o s) := by
  refine of_ports rfl rfl fun page off h _ ne ne' => ?_
  obtain rfl | rfl := ho
  · exact rdReg_modReg_offset (by decide) h ne _ _
  · exact rdReg_modReg_offset (by decide) h ne' _ _

theorem deliver (p : Nat) (f : Frame) (s : State) : Sends s (Sys2Proof.Machine.deliver p f s) := of_ports rfl rfl fun _ _ _ _ _ _ => rfl

/-- A change of the frames of a port that is UP. -/
theorem setPortAt {p : Nat} {x : Port} {s : State} (up : portUp s p = true) (hx : framelessPort x = framelessPort (port s p)) : Sends s (setPortAt p x s) := by
  refine ⟨rfl, fun q => ?_, fun q hq => ?_, fun _ _ _ _ _ _ => rfl⟩
  · obtain rfl | ne := eq_or_ne q p
    · rw [port_setPortAt_same, hx]
    · rw [port_setPortAt_ne ne]
  · exact port_setPortAt_ne (fun e => by rw [e, up] at hq; cases hq) x s

theorem sendOne {p : Nat} {s : State} (up : portUp s p = true) (f : Frame) (w : Nat) : Sends s (Sys2Proof.Machine.sendOne p f w s) := by
  unfold Sys2Proof.Machine.sendOne
  dsimp only
  generalize stamped p { marked s p f with lseq := BitVec.ofNat 12 (port s p).txSeq } s = g
  have sent (o : Out) (u : State) : Sends u (noteSent p g (send o u)) := of_ports rfl rfl fun _ _ _ _ _ _ => rfl
  refine Sends.trans ?_ (sent _ _)
  exact setPortAt up rfl

theorem sendFrames_go (p n : Nat) (s : State) : Sends s (Sys2Proof.Machine.sendFrames.go p n s) := by
  induction n generalizing s with
  | zero => exact refl s
  | succ n ih =>
    unfold Sys2Proof.Machine.sendFrames.go
    split
    · exact refl s
    · next go =>
      have up : portUp s p = true := by
        cases e : portUp s p
        · exact absurd (.inl (by rw [e]; rfl)) go
        · rfl
      split
      · exact (sendOne up ..).trans (ih _)
      · exact refl s

theorem sendFrames (p : Nat) (s : State) : Sends s (Sys2Proof.Machine.sendFrames p s) := sendFrames_go ..

theorem wmSample {p n v : Nat} (hn : n < 4) (s : State) : Sends s (Sys2Proof.Machine.wmSample p n v s) := by
  have page := pageOnly_wmSample p n v s
  refine of_ports ?_ page.ports_eq fun q off h lo _ _ => rdReg_wmSample_offset hn h (by omega) (by omega) v s
  rw [page]
  rfl

theorem queueFrame {p : Nat} {s : State} (up : portUp s p = true) (f : Frame) : Sends s (Sys2Proof.Machine.queueFrame p f s) := by
  unfold Sys2Proof.Machine.queueFrame
  dsimp only
  refine Sends.trans ?_ (wmSample (by decide) _)
  refine Sends.trans ?_ (sendFrames p _)
  exact setPortAt up rfl

theorem forwardOn {p : Nat} {s : State} (up : portUp s p = true) (f : Frame) : Sends s (Sys2Proof.Machine.forwardOn p f s) := by
  unfold Sys2Proof.Machine.forwardOn
  split
  · exact countFb (.inr rfl) s
  · exact queueFrame up f
end Sends

theorem portUp_of_entryPort {s : State} {e : Word} {p : Nat} (h : entryPort s e = some p) : portUp s p = true := by
  unfold entryPort at h
  split at h
  · cases h
  · split at h
    · next up => cases h; exact up
    · split at h
      · next up => cases h; exact up.2
      · split at h
        · next up => cases h; exact up.2
        · cases h

namespace Sends

theorem routeQuiet (f : Frame) (s : State) : Sends s (Sys2Proof.Machine.routeQuiet f s) := by
  unfold Sys2Proof.Machine.routeQuiet
  split
  · next e => exact forwardOn (portUp_of_entryPort e) f
  · exact countFb (.inl rfl) s

theorem sendTo (f : Frame) (s : State) : Sends s (Sys2Proof.Machine.sendTo f s) := by
  unfold Sys2Proof.Machine.sendTo
  split
  · exact deliver ..
  · split
    · next e => exact forwardOn (portUp_of_entryPort e) f
    · refine (countFb (.inl rfl) s).trans ?_
      dsimp only
      split
      · exact refl _
      · split
        · exact deliver ..
        · exact routeQuiet ..

theorem notice (code data : Nat) (s : State) : Sends s (Sys2Proof.Machine.notice code data s) := by
  unfold Sys2Proof.Machine.notice
  split
  · exact refl s
  · exact sendTo ..
end Sends

/-! ### A port that goes to FAULT -/

/-- A port in FAULT, before its frames are routed anew. -/
def faultedPort (p : Nat) (s : State) : State :=
  report ⟨2, p, 5, 4, 18, p, []⟩ (raiseBit (fbpPage p) 1
    (modPort p (fun x => { x with unacked := [], txq := [], taken := [], back := [], freed := [], resend := false, cut := none, faultAt := some (portState p 4 s).now, sync := none })
      (portState p 4 s)))

/-- What a FAULT leaves is what the frames that were not sent find. -/
theorem sends_faultPort (p : Nat) (s : State) : Sends (faultedPort p s) (faultPort p s) := by
  unfold faultPort
  dsimp only
  refine (Sends.notice 1 p _).trans ?_
  refine forEach_inv (P := fun t => Sends (notice 1 p (faultedPort p s)) t) (Sends.refl _) fun f t h => h.trans ?_
  split
  · split
    · exact .refl _
    · exact .countFb (.inr rfl) _
  · split
    · exact .refl _
    · exact .sendTo ..

theorem port_portState_ne {p q : Nat} (ne : q ≠ p) (v : Nat) (s : State) : port (portState p v s) q = port s q := by
  unfold portState
  split
  · rfl
  · rw [port_raiseBit, port_modPort_ne ne]

theorem port_portState_same (p v : Nat) (s : State) : port (portState p v s) p = { port s p with st := v } := by
  unfold portState
  split
  · next e => rw [← e]
  · rw [port_raiseBit, port_modPort_same]

theorem rdReg_portState {off : Nat} (ho : off < 2 ^ 12) (ne : off ≠ 0x010) (p v page : Nat) (s : State) : rdReg (portState p v s) page off = rdReg s page off := by
  unfold portState
  split
  · rfl
  · rw [rdReg_raiseBit_offset ho ne]
    rfl

/-- What a change of STATE leaves. -/
theorem portState_kept (p v : Nat) (s : State) : ambient (portState p v s) = ambient s ∧ (portState p v s).mem = s.mem ∧ (portState p v s).chans = s.chans := by
  unfold portState
  split
  · exact ⟨rfl, rfl, rfl⟩
  · have page := pageOnly_raiseBit (fbpPage p) 0 (modPort p (fun x => { x with st := v }) s)
    exact ⟨ambient_raiseBit .., page.mem_eq, page.chans_eq⟩

theorem port_faultedPort_ne {p q : Nat} (ne : q ≠ p) (s : State) : port (faultedPort p s) q = port s q := by
  rw [faultedPort, port_report, port_raiseBit, port_modPort_ne ne, port_portState_ne ne]

theorem port_faultedPort_same (p : Nat) (s : State) : ∃ n, port (faultedPort p s) p =
    { port s p with st := 4, unacked := [], txq := [], taken := [], back := [], freed := [], resend := false, cut := none, faultAt := some n, sync := none } := by
  rw [faultedPort, port_report, port_raiseBit, port_modPort_same, port_portState_same]
  exact ⟨_, rfl⟩

theorem rdReg_faultedPort {off : Nat} (ho : off < 2 ^ 12) (ne : off ≠ 0x010) (p page : Nat) (s : State) : rdReg (faultedPort p s) page off = rdReg s page off := by
  rw [faultedPort, rdReg_report, rdReg_raiseBit_offset ho ne]
  exact rdReg_portState ho ne ..

theorem faultedPort_kept (p : Nat) (s : State) : ambient (faultedPort p s) = ambient s ∧ (faultedPort p s).mem = s.mem ∧ (faultedPort p s).chans = s.chans := by
  obtain ⟨kept, mem, chans⟩ := portState_kept p 4 s
  unfold faultedPort
  generalize portState p 4 s = v at kept mem chans
  refine ⟨by rw [ambient_report, ambient_raiseBit, ambient_modPort, kept], ?_, ?_⟩
  · rw [report_mem, raiseBit_mem, modPort_mem, mem]
  · rw [report_chans, (pageOnly_raiseBit ..).chans_eq, modPort_chans, chans]

theorem port_faultPort_same (p : Nat) (s : State) : ∃ n, port (faultPort p s) p =
    { port s p with st := 4, unacked := [], txq := [], taken := [], back := [], freed := [], resend := false, cut := none, faultAt := some n, sync := none } := by
  obtain ⟨n, same⟩ := port_faultedPort_same p s
  have down : portUp (faultedPort p s) p = false := by unfold portUp; rw [same]; rfl
  exact ⟨n, ((sends_faultPort p s).down p down).trans same⟩

theorem st_faultPort_ne {p q : Nat} (ne : q ≠ p) (s : State) : (port (faultPort p s) q).st = (port s q).st := by
  rw [(sends_faultPort p s).st, port_faultedPort_ne ne]

theorem rdReg_faultPort {off : Nat} (ho : off < 2 ^ 12) (lo : 0x100 ≤ off) (a : off ≠ 0x738) (b : off ≠ 0x73C) (p page : Nat) (s : State) :
    rdReg (faultPort p s) page off = rdReg s page off :=
  ((sends_faultPort p s).regs page off ho lo a b).trans (rdReg_faultedPort ho (by omega) ..)

theorem ambient_linkSide {s t : State} (h : linkSide t = linkSide s) : ambient t = ambient s := (congrArg ambient h :)

theorem faultPort_kept (p : Nat) (s : State) : ambient (faultPort p s) = ambient s ∧ (faultPort p s).mem = s.mem ∧ (faultPort p s).chans = s.chans := by
  obtain ⟨kept, mem, chans⟩ := faultedPort_kept p s
  have sends := sends_faultPort p s
  exact ⟨(ambient_linkSide sends.side).trans kept, sends.mem.trans mem, sends.chans.trans chans⟩

end Sys2Proof.Machine
end

-- ==== interfaces ====
section
/-! PROOFS. PCIe requests and doorbells, SMBus and the test access port (spec 19 R475, R477, R480, R481, R484). -/

-- One theorem at a time: elaborating them in parallel takes the memory of many threads.
set_option Elab.async false

namespace Sys2Proof.Machine

/-! ### Doorbells -/

theorem doorWrite_eq (page off : Nat) (sets : Bool) (m : Master) (v : Word) (s : State) : doorWrite page off sets m v s =
    if sets = true then wrReg page off (rdReg s page off ||| v) s
    else if m = .mcA ∨ m = .mcB then wrReg page off (rdReg s page off &&& ~~~v) s else rejectWrite page off m s := by
  have pair : isPair m = true ↔ m = .mcA ∨ m = .mcB := by cases m <;> simp [isPair]
  unfold doorWrite
  simp only [pair]
  rfl

theorem find_svcdb : findReg (regsOf .fb) 0x77C = some ((findReg (regsOf .fb) 0x77C).get (by decide)) := by decide
theorem block_svcdb (p : Nat) (m : Master) (fs : List Field) (v : Word) (s : State) : blockWrite ⟨.fb, 0⟩ p 0x77C m fs v s = doorWrite fbPage 0x77C (m == .agent) m v s := rfl
theorem accessWrite_svcdb {m : Master} {s : State} (v : Word) (h : Takes s fbPage m) : accessWrite fbPage 0x77C m v s = doorWrite fbPage 0x77C (m == .agent) m v s :=
  (accessWrite_block v h pageAt_fbPage find_svcdb (by decide) (fun h => nomatch h) (by decide) (by decide)).trans (block_svcdb ..)

/-- A write that a page takes reaches the page. -/
theorem pageWrite_of_takes {s : State} {page off : Nat} {m : Master} (v : Word) (h : Takes s page m) (word : off % 4 = 0) : accessWrite page off m v s = pageWrite page off m v s := by
  obtain ⟨path, up, -, -⟩ := h
  unfold accessWrite accessError
  simp only [path, up, word]
  rfl

theorem svcdbWrite_eq {m : Master} {s : State} (src : Nat) (v : Word) (h : Takes s fbPage m) : svcdbWrite m src v s =
    if m = .agent ∧ (!mayWritePages s src) = true then s else doorWrite fbPage 0x77C (m == .agent) m v s := by
  rw [← accessWrite_svcdb v h, pageWrite_of_takes v h (by decide)]
  obtain ⟨-, up, -, -⟩ := h
  unfold svcdbWrite
  simp only [up]

/-! ### The link -/

theorem pciRequest_up {bar : Bar} {o n : Nat} {write relaxed : Bool} {tag : Nat} {data : List Byte} {s : State} (up : domLost s 9 = false) (link : bit (rdReg s pciePage 0x700) 31 = true)
    (short : ¬ (write = true ∧ 512 < n)) : pciRequest bar o n write relaxed tag data s = match bar with
    | .bar4 => if write then bar4Write (o % 0x2000) data s else send (.completion tag 0 ((List.range n).map (fun i => bar4Byte s (o % 0x2000 + i)))) s
    | .config => if write then configWrite o (w32 (leNat (data.take 4))) s else send (.completion tag 0 (leBytes 4 (configRead s o).toNat)) s
    | _ => issueRequests (completeRequests { s with pcie := { s.pcie with reqs := s.pcie.reqs ++ [⟨write, tag, relaxed, none, pciPieces bar o n data⟩] } }) := by
  unfold pciRequest
  rw [if_neg (by rw [up, link]; decide), if_neg short] <;> cases bar <;> rfl

theorem pciRequest_down {bar : Bar} {o n : Nat} {write relaxed : Bool} {tag : Nat} {data : List Byte} {s : State} (down : domLost s 9 = true ∨ bit (rdReg s pciePage 0x700) 31 = false) :
    pciRequest bar o n write relaxed tag data s = s := by
  unfold pciRequest
  rw [if_pos (by obtain h | h := down <;> simp [h])]

theorem pciRead_down {bar : Bar} {o n tag : Nat} {relaxed : Bool} {s : State} (down : domLost s 9 = true ∨ bit (rdReg s pciePage 0x700) 31 = false) :
    whileUp 9 (pciRequest bar o n false relaxed tag []) s = s := by
  unfold whileUp
  split
  · rfl
  · exact pciRequest_down down

theorem pciWrite_down {bar : Bar} {o n : Nat} {data : List Byte} {s : State} (down : domLost s 9 = true ∨ bit (rdReg s pciePage 0x700) 31 = false) :
    whileUp 9 (pciRequest bar o n true false 0 data) s = s := by
  unfold whileUp
  split
  · rfl
  · exact pciRequest_down down

theorem pciRequest_long {bar : Bar} {o n : Nat} {relaxed : Bool} {tag : Nat} {data : List Byte} {s : State} (up : domLost s 9 = false) (link : bit (rdReg s pciePage 0x700) 31 = true)
    (long : 512 < n) : pciRequest bar o n true relaxed tag data s = aerReport 18 s := by
  unfold pciRequest
  rw [if_neg (by rw [up, link]; decide), if_pos ⟨rfl, long⟩]

/-- PCIE_LINK after a link-up. -/
def linkWord (width speed : Nat) : Word := w32 (2 ^ 31 + 2 ^ 30 + (speed == 6).toNat * 2 ^ 29 + width * 16 + speed)

theorem linkWord_fields {width speed : Nat} (hw : width = 1 ∨ width = 2 ∨ width = 4 ∨ width = 8) (lo : 1 ≤ speed) (hi : speed ≤ 6) :
    bit (linkWord width speed) 31 = true ∧ bit (linkWord width speed) 30 = true ∧ fld (linkWord width speed) 7 4 = width ∧ fld (linkWord width speed) 3 0 = speed ∧
    bit (linkWord width speed) 29 = (speed == 6) := by
  have speeds : speed = 1 ∨ speed = 2 ∨ speed = 3 ∨ speed = 4 ∨ speed = 5 ∨ speed = 6 := by omega
  obtain rfl | rfl | rfl | rfl := hw <;> obtain rfl | rfl | rfl | rfl | rfl | rfl := speeds <;> decide

/-- The state in which the link is up. -/
def linkedUp (width speed : Nat) (s : State) : State :=
  raiseBit pciePage 1 (modReg fbPage 0x700 (fun w => setBit w 16 true) (wrReg pciePage 0x700 (linkWord width speed) s))

theorem linkUp_eq {width speed : Nat} {flit : Bool} {s : State} (up : domLost s 9 = false) (tap : s.tapFault = false) (down : bit (rdReg s pciePage 0x700) 31 = false)
    (hw : width = 1 ∨ width = 2 ∨ width = 4 ∨ width = 8) (lo : 1 ≤ speed) (hi : speed ≤ 6) (mode : flit = (speed == 6)) : linkUp width speed flit s = linkedUp width speed s := by
  have lanes : [1, 2, 4, 8].contains width = true := by obtain rfl | rfl | rfl | rfl := hw <;> rfl
  have speed0 : (speed == 0) = false := beq_false_of_ne (by omega)
  have speed6 : decide (6 < speed) = false := decide_eq_false (by omega)
  unfold linkUp
  rw [if_neg (by rw [up, tap, down, lanes, speed0, speed6, mode]; simp)]
  rfl

theorem linkedUp_facts (width speed : Nat) (s : State) : rdReg (linkedUp width speed s) pciePage 0x700 = linkWord width speed ∧ bit (rdReg (linkedUp width speed s) fbPage 0x700) 16 = true ∧
    bit (rdReg (linkedUp width speed s) pciePage 0x010) 1 = true ∧ (linkedUp width speed s).mem = s.mem ∧ (linkedUp width speed s).chans = s.chans := by
  unfold linkedUp
  refine ⟨?_, ?_, bit_raiseBit_same _ (by decide) _, ?_, ?_⟩
  · rw [rdReg_raiseBit_offset (by decide) (by decide), rdReg_modReg_ne (by decide) (by decide) (by decide) (by decide) (by decide), rdReg_wrReg_same]
  · rw [rdReg_raiseBit_offset (by decide) (by decide), rdReg_modReg_same]
    exact bit_setBit_same _ _ (by decide)
  · rw [raiseBit_mem, modReg_mem, wrReg_mem]
  · rw [(pageOnly_raiseBit ..).chans_eq, modReg_chans, wrReg_chans]

theorem speedSix (speed : BitVec 4) : (speed.toNat == 6) = (speed == 6) := by decide +revert

theorem lanes_of_ne (width : BitVec 4) : width ≠ 1 ∧ width ≠ 2 ∧ width ≠ 4 ∧ width ≠ 8 → [1, 2, 4, 8].contains width.toNat = false := by decide +revert

theorem linkUp_refused {width speed : BitVec 4} {flit : Bool} {s : State} (h : domLost s 9 = true ∨ s.tapFault = true ∨ bit (rdReg s pciePage 0x700) 31 = true ∨
    (width ≠ 1 ∧ width ≠ 2 ∧ width ≠ 4 ∧ width ≠ 8) ∨ speed = 0 ∨ 6 < speed.toNat ∨ flit ≠ (speed == 6)) : linkUp width.toNat speed.toNat flit s = s := by
  have fine := speedSix speed
  have lanes := lanes_of_ne width
  unfold linkUp
  rw [fine]
  obtain h | h | h | h | h | h | h := h
  · exact if_pos (by simp [h])
  · exact if_pos (by simp [h])
  · exact if_pos (by simp [h])
  · exact if_pos (by rw [lanes h]; simp)
  · exact if_pos (by simp [h])
  · exact if_pos (by simp [h])
  · exact if_pos (by rw [show (flit != (speed == 6)) = true from bne_iff_ne.mpr h]; simp)

/-! ### SMBus -/

theorem smbAddress_write : smbAddress false = BitVec.ofNat 8 (2 * (0x40 + Config.smbAddr.toNat)) := rfl
theorem smbAddress_read : smbAddress true = BitVec.ofNat 8 (2 * (0x40 + Config.smbAddr.toNat) + 1) := rfl

/-- The answer to a read with a command of one byte. -/
theorem smbusAnswers_command {a b : Byte} (ea : a = smbAddress false) (eb : b = smbAddress true) (n : Byte) (d : List Byte) (s : State) :
    smbusAnswers [n] d s = { s with outbox := .smbus (d ++ [pecOf ([a, n, b] ++ d)]) :: s.outbox } := by
  rw [ea, eb]
  rfl

theorem smbusPowerAnswer_eq {a b : Byte} (ea : a = smbAddress false) (eb : b = smbAddress true) (s : State) :
    ∃ n d, d = leBytes 2 n ∧ smbusPowerAnswer s = { s with outbox := .smbus (d ++ [pecOf ([a, 3, b] ++ d)]) :: s.outbox, free := s.free + 1 } := by
  refine ⟨freeVal 16 s, _, rfl, ?_⟩
  unfold smbusPowerAnswer
  rw [smbusAnswers_command ea eb]
  rfl

theorem smbusAlertAnswer_eq {a : Byte} (ea : a = smbAddress false) (s : State) : smbusAlertAnswer s =
    if fld (smbusStatus s) 21 18 ≠ 0 then { s with outbox := .smbus [a, pecOf [0x19, a]] :: s.outbox } else s := by
  rw [ea]
  unfold smbusAlertAnswer smbAlert
  simp only [bne_iff_ne]
  rfl

/-- The answer with the value of a register, over the address that the controller has sent. -/
theorem smbusAnswers_register {a b : Byte} (ea : a = smbAddress false) (eb : b = smbAddress true) (addr d : List Byte) (s : State) :
    smbusAnswers ([0x10, 4] ++ addr) (5 :: 0 :: d) s = { s with outbox := .smbus (5 :: 0 :: d ++ [pecOf ([a, 0x10, 4] ++ addr ++ [b, 5, 0] ++ d)]) :: s.outbox } := by
  have bytes : [smbAddress false] ++ ([0x10, 4] ++ addr) ++ [smbAddress true] ++ (5 :: 0 :: d) = [a, 0x10, 4] ++ addr ++ [b, 5, 0] ++ d := by
    rw [ea, eb]
    simp
  unfold smbusAnswers
  rw [bytes]
  rfl

/-- A read before MGMT_READY, or one whose answer comes too late, is answered BUSY. -/
theorem smbusRegister_busy {a : Nat} {inTime : Bool} {s : State} (h : bit (rdReg s devPage 0x700) 31 = false ∨ inTime = false) :
    ∃ bs, smbusRegister a inTime s = { s with outbox := .smbus (5 :: 1 :: bs) :: s.outbox, free := s.free + 1 } := by
  unfold smbusRegister
  dsimp only
  rw [if_pos (by obtain h | h := h <;> simp [h])]
  exact ⟨_, rfl⟩

section
variable {a : Nat} {s : State} (ready : bit (rdReg s devPage 0x700) 31 = true)
include ready

theorem smbusRegister_error (h : a < 0x4000000 ∨ 0x8000000 ≤ a ∨ a % 4 ≠ 0 ∨ (pageError s (pageOfAddr a).1).isSome = true) :
    ∃ bs, smbusRegister a true s = { s with outbox := .smbus (5 :: 2 :: bs) :: s.outbox, free := s.free + 1 } := by
  unfold smbusRegister
  dsimp only
  rw [if_neg (by rw [ready]; decide), if_pos h]
  exact ⟨_, rfl⟩

theorem smbusRegister_data (lo : 0x4000000 ≤ a) (hi : a < 0x8000000) (word : a % 4 = 0) (up : pageError s (pageOfAddr a).1 = none) :
    smbusRegister a true s = smbusAnswers ([0x10, 4] ++ leBytes 4 a) (5 :: 0 :: leBytes 4 (pageReads (pageOfAddr a).1 (pageOfAddr a).2 (firmwareMaster s) s).1.toNat)
      (pageReads (pageOfAddr a).1 (pageOfAddr a).2 (firmwareMaster s) s).2 := by
  unfold smbusRegister
  dsimp only
  rw [if_neg (by rw [ready]; decide), if_neg (by rw [up]; simp; omega)]
end

/-! ### The test access port -/

/-- The parts of the state that an emergency latch leaves. -/
def latchSide (s : State) : State := { apart s with patina := {} }

theorem latchSide_setLatch {b : Nat} (hb : b < 3) (origin cause : Nat) (s : State) : latchSide (setLatch b origin cause s) = latchSide s := by
  cases h : bit (rdReg s quenchPage 0x700) b with
  | true => rw [setLatch_of_set hb origin cause h]
  | false =>
    obtain ⟨bs, eq⟩ := setLatch_of_clear hb origin cause h
    rw [eq]
    unfold latchSide
    have page : PageOnly (modReg quenchPage 0x700 (fun w => setBit w b true) s) (latchSet b s) := ((pageOnly_modReg ..).trans (pageOnly_raiseBit ..)).trans (pageOnly_report ..)
    have kept : apart (latchSet b s) = apart s := (apart_pageOnly page).trans (apart_modReg ..)
    have offered (t : State) : ({ apart (offer 0x3001 3 quenchPage false bs t) with patina := {} } : State) = { apart t with patina := {} } := rfl
    rw [apart_tripAll, offered, kept]

theorem setLatch_latched {b : Nat} (hb : b < 3) (origin cause : Nat) (s : State) : bit (rdReg (setLatch b origin cause s) quenchPage 0x700) b = true := by
  cases h : bit (rdReg s quenchPage 0x700) b with
  | true => rw [setLatch_of_set hb origin cause h, h]
  | false =>
    rw [(setLatch_sets hb origin cause h).1]
    exact bit_setBit_same _ _ (by omega)

theorem rdReg_linkDown_other {page : Nat} (a : page ≠ pciePage) (b : page ≠ fbPage) (hp : page < 2 ^ 14) (s : State) : rdReg (linkDown s) page 0x700 = rdReg s page 0x700 := by
  unfold linkDown
  split
  · rw [rdReg_raiseBit_offset (by decide) (by decide), rdReg_modReg_ne (by decide) hp (by decide) (by decide) (fun h => b h.1.symm),
      rdReg_modReg_ne (by decide) hp (by decide) (by decide) (fun h => a h.1.symm)]
  · rfl

theorem pcieResets_facts (s : State) : ambient (pcieResets s) = ambient s ∧ bit (rdReg (pcieResets s) pciePage 0x700) 31 = false ∧
    rdReg (pcieResets s) quenchPage 0x700 = rdReg s quenchPage 0x700 := by
  have off (t : State) (page : Nat) (hp : page < 2 ^ 14) (ne : page ≠ msixPage) : rdReg (wrReg msixPage 0x700 0
      { t with pcie := { t.pcie with reqs := [] }, trans := t.trans.map (fun t => if t.use = .pci then { t with use := .dropped } else t) }) page 0x700 = rdReg t page 0x700 := by
    rw [rdReg_wrReg_ne (by decide) hp (by decide) (by decide) (fun h => ne h.1.symm)]
    rfl
  unfold pcieResets
  dsimp only
  refine ⟨?_, ?_, ?_⟩
  · exact (ambient_linkDown s).symm ▸ rfl
  · rw [off _ _ (by decide) (by decide)]
    exact linkDown_link s
  · rw [off _ _ (by decide) (by decide)]
    exact rdReg_linkDown_other (by decide) (by decide) (by decide) s

/-- Faults of ports that are not in FAULT yet: all ports end there, with the pages as they were. -/
theorem faultPorts_facts {n : Nat} {s : State} : ∀ t, t = forUpTo n s (fun p s => if (port s p).st = 4 then s else faultPort p s) →
    ambient t = ambient s ∧ (∀ p, p < n → (port t p).st = 4) ∧ rdReg t quenchPage 0x700 = rdReg s quenchPage 0x700 ∧ rdReg t pciePage 0x700 = rdReg s pciePage 0x700 := by
  induction n with
  | zero => intro t et; subst et; exact ⟨rfl, fun p h => absurd h (Nat.not_lt_zero p), rfl, rfl⟩
  | succ n ih =>
    intro t et
    obtain ⟨side, faulted, quench, pcie⟩ := ih _ rfl
    rw [forUpTo] at et
    generalize forUpTo n s (fun p s => if (port s p).st = 4 then s else faultPort p s) = u at et side faulted quench pcie
    split at et
    · next e =>
      subst et
      refine ⟨side, fun p h => ?_, quench, pcie⟩
      obtain rfl | lt : p = n ∨ p < n := by omega
      · exact e
      · exact faulted p lt
    · subst et
      refine ⟨(faultPort_kept n u).1.trans side, fun p h => ?_, ?_, ?_⟩
      · obtain rfl | lt : p = n ∨ p < n := by omega
        · obtain ⟨i, same⟩ := port_faultPort_same p u
          rw [same]
        · rw [st_faultPort_ne (by omega), faulted p lt]
      · rw [rdReg_faultPort (by decide) (by decide) (by decide) (by decide), quench]
      · rw [rdReg_faultPort (by decide) (by decide) (by decide) (by decide), pcie]

/-- An instruction that drives the pins latches SOFTWARE, drops the link and puts the ports into FAULT (R484). -/
theorem tapLoad_facts {i : TapInstr} {s t : State} (drives : tapDrives i = true) (et : t = tapLoad i s) : t.tap = i ∧ t.tapFault = true ∧ bit (rdReg t quenchPage 0x700) 2 = true ∧
    bit (rdReg t pciePage 0x700) 31 = false ∧ (domLost s 9 = false → ∀ p, p < 8 → (port t p).st = 4) := by
  unfold tapLoad at et
  dsimp only at et
  rw [if_neg (by rw [drives]; decide)] at et
  generalize ez : ({ s with tap := i, tapFault := true } : State) = z at et
  have start : z.tap = i ∧ z.tapFault = true ∧ z.doms = s.doms := by rw [← ez]; exact ⟨rfl, rfl, rfl⟩
  obtain ⟨tap, tapFault, doms⟩ := start
  have latched := setLatch_latched (b := 2) (by decide) 0 0 z
  have side := latchSide_setLatch (b := 2) (by decide) 0 0 z
  generalize setLatch 2 0 0 z = v at et latched side
  obtain ⟨kept, down, quench⟩ := pcieResets_facts v
  generalize pcieResets v = u at et kept down quench
  have tapU : u.tap = i := ((congrArg State.tap kept :).trans (congrArg State.tap side :)).trans tap
  have faultU : u.tapFault = true := ((congrArg State.tapFault kept :).trans (congrArg State.tapFault side :)).trans tapFault
  have domsU : u.doms = s.doms := ((doms_of_ambient kept).trans (congrArg State.doms side :)).trans doms
  have quenchU : bit (rdReg u quenchPage 0x700) 2 = true := by rw [quench, latched]
  have lost : domLost u 9 = domLost s 9 := by unfold domLost dom; rw [domsU]
  split at et
  · next gone =>
    subst et
    exact ⟨tapU, faultU, quenchU, down, fun up => by rw [lost, up] at gone; cases gone⟩
  · obtain ⟨rest, faulted, quenchT, pcieT⟩ := faultPorts_facts t et
    exact ⟨(congrArg State.tap rest :).trans tapU, (congrArg State.tapFault rest :).trans faultU, by rw [quenchT, quenchU], by rw [pcieT, down], fun _ => faulted⟩

/-- A port leaves the FAULT in which the test access port has held it. -/
def leaveFault (p : Nat) (s : State) : State := if (port s p).st = 4 then portState p (if portEn s p then 2 else 0) s else s

theorem leaveFault_regs (p page : Nat) (s : State) : rdReg (leaveFault p s) page 0x700 = rdReg s page 0x700 := by
  unfold leaveFault
  split
  · exact rdReg_portState (by decide) (by decide) ..
  · rfl

theorem leaveFault_ne {p q : Nat} (ne : q ≠ p) (s : State) : port (leaveFault p s) q = port s q := by
  unfold leaveFault
  split
  · exact port_portState_ne ne ..
  · rfl

theorem leaveFault_st {p : Nat} {s : State} (fault : (port s p).st = 4) : (port (leaveFault p s) p).st = if bit (rdReg s (fbpPage p) 0x700) 0 then 2 else 0 := by
  unfold leaveFault
  rw [if_pos fault, port_portState_same]
  rfl

theorem leaveFault_kept (p : Nat) (s : State) : ambient (leaveFault p s) = ambient s ∧ (leaveFault p s).mem = s.mem := by
  unfold leaveFault
  split
  · obtain ⟨side, mem, -⟩ := portState_kept p (if portEn s p then 2 else 0) s
    exact ⟨side, mem⟩
  · exact ⟨rfl, rfl⟩

/-- Of the ports that leave FAULT, each goes where its EN says. -/
theorem releasePorts_st {n : Nat} {s : State} : ∀ t, t = forUpTo n s leaveFault →
    (∀ p, p < n → (port s p).st = 4 → (port t p).st = if bit (rdReg s (fbpPage p) 0x700) 0 then 2 else 0) ∧ (∀ p, n ≤ p → port t p = port s p) ∧ (∀ page, rdReg t page 0x700 = rdReg s page 0x700) := by
  induction n with
  | zero => intro t et; subst et; exact ⟨fun p h => absurd h (Nat.not_lt_zero p), fun _ _ => rfl, fun _ => rfl⟩
  | succ n ih =>
    intro t et
    obtain ⟨left, later, regs⟩ := ih _ rfl
    rw [forUpTo] at et
    generalize forUpTo n s leaveFault = u at et left later regs
    subst et
    refine ⟨fun p h fault => ?_, fun p h => ?_, fun page => ?_⟩
    · obtain rfl | lt : p = n ∨ p < n := by omega
      · rw [leaveFault_st (by rw [later p le_rfl]; exact fault), regs]
      · rw [leaveFault_ne (by omega), left p lt fault]
    · rw [leaveFault_ne (by omega), later p (by omega)]
    · rw [leaveFault_regs, regs]

theorem releasePorts_kept (n : Nat) (s : State) : ambient (forUpTo n s leaveFault) = ambient s ∧ (forUpTo n s leaveFault).mem = s.mem := by
  refine forUpTo_inv (P := fun t => ambient t = ambient s ∧ t.mem = s.mem) ⟨rfl, rfl⟩ fun p t h => ?_
  obtain ⟨side, mem⟩ := leaveFault_kept p t
  exact ⟨side.trans h.1, mem.trans h.2⟩

theorem tapReset_facts {s t : State} (et : t = tapReset s) : t.tap = .idcode ∧ t.tapFault = false ∧ t.mem = s.mem ∧ (s.tapFault = true → domLost s 9 = false → ∀ p, p < 8 → (port s p).st = 4 →
    (port t p).st = (if bit (rdReg s (fbpPage p) 0x700) 0 then 2 else 0)) := by
  unfold tapReset at et
  dsimp only at et
  generalize ez : ({ s with tap := .idcode, tapFault := false } : State) = z at et
  have start : z.tap = .idcode ∧ z.tapFault = false ∧ z.mem = s.mem ∧ z.doms = s.doms := by rw [← ez]; exact ⟨rfl, rfl, rfl, rfl⟩
  obtain ⟨tap, tapFault, mem, doms⟩ := start
  have ports (p : Nat) : port z p = port s p := by rw [← ez]; rfl
  have regs (page off : Nat) : rdReg z page off = rdReg s page off := by rw [← ez]; rfl
  have lost : domLost z 9 = domLost s 9 := by unfold domLost dom; rw [doms]
  split at et
  · next idle =>
    subst et
    exact ⟨tap, tapFault, mem, fun held up => by rw [lost, held, up] at idle; cases idle⟩
  · have released : t = forUpTo 8 z leaveFault := et
    obtain ⟨side, memT⟩ := releasePorts_kept 8 z
    rw [← released] at side memT
    refine ⟨(congrArg State.tap side :).trans tap, (congrArg State.tapFault side :).trans tapFault, memT.trans mem, fun _ _ p hp fault => ?_⟩
    rw [(releasePorts_st t released).1 p hp (by rw [ports, fault]), regs]

/-- Settles O54. -/
theorem externalInterfacesAnswer : Obligations.ExternalInterfacesAnswer := by
  unfold Obligations.ExternalInterfacesAnswer
  refine ⟨?_, ?_, ?_, ?_, ?_, ?_, ?_, ?_, ?_⟩
  · intro bar off len relaxed tag data s
    refine ⟨fun down => ⟨congrArg Host.Outcome.next (pciRead_down down), congrArg Host.Outcome.next (pciWrite_down down)⟩, fun up link => ?_⟩
    have read : execPcieReadRequest bar off len relaxed tag s = .next (pciRequest bar off.toNat len.toNat false relaxed tag.toNat [] s) :=
      congrArg Host.Outcome.next (whileUp_of_up _ up)
    have write : execPcieWriteRequest bar off data s = .next (pciRequest bar off.toNat data.length true false 0 data s) :=
      congrArg Host.Outcome.next (whileUp_of_up _ up)
    have readUp := read.trans (congrArg Host.Outcome.next (pciRequest_up up link (fun h => Bool.false_ne_true h.1)))
    have writeUp (short : data.length ≤ 512) := write.trans (congrArg Host.Outcome.next (pciRequest_up up link (fun h => Nat.not_lt.mpr short h.2)))
    refine ⟨fun long => write.trans (congrArg Host.Outcome.next (pciRequest_long up link long)), ?_, ?_, ?_⟩
    · intro bar4
      subst bar4
      exact ⟨readUp, writeUp⟩
    · intro config
      subst config
      exact ⟨readUp, writeUp⟩
    · intro ne4 neC
      cases bar with
      | bar4 => exact absurd rfl ne4
      | config => exact absurd rfl neC
      | _ => exact ⟨readUp, writeUp⟩
  · intro m v s takes
    refine congrArg Host.Outcome.next ((accessWrite_pciDb v takes).trans ((doorWrite_eq ..).trans ?_))
    simp only [beq_iff_eq]
  · intro m src v s up
    constructor
    · intro takes
      refine congrArg Host.Outcome.next ((svcdbWrite_eq src.toNat v takes).trans ?_)
      cases e : mayWritePages s src.toNat
      · exact if_pos ⟨rfl, rfl⟩
      · exact (if_neg (by simp)).trans ((doorWrite_eq ..).trans (if_pos rfl))
    · intro other takes
      exact congrArg Host.Outcome.next ((svcdbWrite_eq src.toNat v takes).trans ((if_neg (fun h => other h.1)).trans ((doorWrite_eq ..).trans (if_neg (by simp [other])))))
  · intro width speed flit s
    refine ⟨fun h => congrArg Host.Outcome.next (linkUp_refused h), fun up tap down hw lo hi mode => ?_⟩
    have hw' : width.toNat = 1 ∨ width.toNat = 2 ∨ width.toNat = 4 ∨ width.toNat = 8 := by
      obtain rfl | rfl | rfl | rfl := hw <;> decide
    obtain ⟨link, fb, irq, mem, chans⟩ := linkedUp_facts width.toNat speed.toNat s
    obtain ⟨b31, b30, hwidth, hspeed, b29⟩ := linkWord_fields hw' lo hi
    refine ⟨_, _, congrArg Host.Outcome.next (linkUp_eq up tap down hw' lo hi (by rw [speedSix, mode])), rfl, ?_⟩
    rw [link]
    exact ⟨b31, b30, hwidth, hspeed, by rw [b29, speedSix, mode], fb, irq, mem, chans⟩
  · intro s a b ea eb
    subst ea eb
    obtain ⟨n, d, ed, power⟩ := smbusPowerAnswer_eq smbAddress_write.symm smbAddress_read.symm s
    refine ⟨?_, ?_, ⟨n, d, ed, congrArg Host.Outcome.next power⟩, ?_, congrArg Host.Outcome.next (smbusAlertAnswer_eq smbAddress_write.symm s)⟩
    · intro d ed
      subst ed
      exact congrArg Host.Outcome.next (smbusAnswers_command smbAddress_write.symm smbAddress_read.symm 1 _ s)
    · intro d ed
      subst ed
      exact congrArg Host.Outcome.next (smbusAnswers_command smbAddress_write.symm smbAddress_read.symm 2 _ s)
    · intro u eu
      subst eu
      exact ⟨rfl, rfl, rfl, rfl⟩
  · intro addr inTime s
    refine ⟨fun h => ?_, fun ready inT => ⟨fun h => ?_, ?_⟩⟩
    · obtain ⟨bs, e⟩ := smbusRegister_busy (a := addr.toNat) h
      exact ⟨bs, congrArg Host.Outcome.next e⟩
    · subst inT
      obtain ⟨bs, e⟩ := smbusRegister_error ready h
      exact ⟨bs, congrArg Host.Outcome.next e⟩
    · intro lo hi word p t u ep up et eu
      subst inT ep et eu
      exact congrArg Host.Outcome.next ((smbusRegister_data ready lo hi word up).trans (smbusAnswers_register smbAddress_write.symm smbAddress_read.symm ..))
  · intro data s
    refine congrArg Host.Outcome.next ?_
    unfold smbusStop
    simp only [Bool.not_eq_true']
  · intro i s
    exact ⟨fun idle => congrArg Host.Outcome.next (if_pos (by rw [idle]; rfl)), fun drives => ⟨_, rfl, tapLoad_facts drives rfl⟩⟩
  · exact fun s => ⟨_, rfl, tapReset_facts rfl⟩

end Sys2Proof.Machine
end

-- ==== links ====
section
/-! PROOFS. The states of a port and the link control blocks (spec 13 R336, R340, R365). -/

-- One theorem at a time: elaborating them in parallel takes the memory of many threads.
set_option Elab.async false

namespace Sys2Proof.Machine

theorem portUp_of_st {s : State} {p : Nat} (up : domLost s 9 = false) (st : (port s p).st = 3) : portUp s p = true := by
  unfold portUp
  rw [st, up]
  rfl

theorem portUp_of_ne {s : State} {p : Nat} (st : (port s p).st ≠ 3) : portUp s p = false := by
  unfold portUp
  rw [beq_false_of_ne st]
  rfl

/-! ### Interrupts of a port that stay set -/

theorem raised_portState {p v : Nat} {s : State} (ne : (port s p).st ≠ v) : Raised (fbpPage p) 0 (portState p v s) := by
  unfold portState
  rw [if_neg ne]
  exact bit_raiseBit_same _ (by decide) _

theorem raised_faultedPort {p : Nat} (hp : p < 8) {s : State} (ne : (port s p).st ≠ 4) : Raised (fbpPage p) 0 (faultedPort p s) ∧ Raised (fbpPage p) 1 (faultedPort p s) := by
  have first : Raised (fbpPage p) 0 (modPort p (fun x => { x with unacked := [], txq := [], taken := [], back := [], freed := [], resend := false, cut := none, faultAt := some (portState p 4 s).now, sync := none })
      (portState p 4 s)) := (raised_portState ne).of_same rfl
  exact ⟨(Raised.raiseBit (fbpPage_lt hp) first (fbpPage_lt hp) 1).of_same rfl, bit_raiseBit_same _ (by decide) _⟩

theorem raised_faultPort {p i : Nat} {s : State} (h : Raised (fbpPage p) i (faultedPort p s)) : Raised (fbpPage p) i (faultPort p s) := by
  unfold faultPort
  dsimp only
  refine forEach_inv (P := fun t => Raised (fbpPage p) i t) (Raised.notice h 1 p) fun f t ht => ?_
  split
  · split
    · exact ht
    · exact ht.countFb (by decide) (by decide)
  · split
    · exact ht
    · exact ht.sendTo f

/-! ### Training and FAULT -/

/-- A port that is UP after training, before it sends. -/
def trainedPort (p nbr nport : Nat) (s : State) : State :=
  modPort p (fun x => { x with nbr := nbr, nport := nport, known := true, rxSeq := 0, txSeq := 0, unacked := [], taken := [], back := [], freed := [],
                               resend := false, requests := 0, served := 0, cut := none, wrr := 0, sync := none, lastSync := (portState p 3 s).now }) (portState p 3 s)

theorem trainingDone_eq {p : Nat} (nbr nport : Nat) {s : State} (up : domLost s 9 = false) (st : (port s p).st = 2 ∨ (port s p).st = 4) :
    trainingDone p nbr nport s = notice 2 p (sendFrames p (trainedPort p nbr nport s)) := by
  unfold trainingDone
  exact if_pos ⟨st, by rw [up]; rfl⟩

theorem trainingDone_facts {p : Nat} {nbr nport : Nat} {s t : State} (up : domLost s 9 = false) (st : (port s p).st = 2 ∨ (port s p).st = 4) (et : t = trainingDone p nbr nport s) :
    (port t p).st = 3 ∧ (port t p).nbr = nbr ∧ (port t p).nport = nport ∧ (port t p).known = true ∧ (port t p).rxSeq = 0 ∧ bit (rdReg t (fbpPage p) 0x010) 0 = true ∧ t.mem = s.mem ∧ t.chans = s.chans := by
  rw [trainingDone_eq nbr nport up st] at et
  subst et
  have sends : Sends (trainedPort p nbr nport s) (notice 2 p (sendFrames p (trainedPort p nbr nport s))) := (Sends.sendFrames ..).trans (Sends.notice ..)
  have same := sends.frameless p
  have trained : port (trainedPort p nbr nport s) p = { port s p with st := 3, nbr := nbr, nport := nport, known := true, rxSeq := 0, txSeq := 0, unacked := [], taken := [], back := [], freed := [], resend := false, requests := 0, served := 0, cut := none, wrr := 0, sync := none, lastSync := (portState p 3 s).now } := by
    rw [trainedPort, port_modPort_same, port_portState_same]
  rw [trained] at same
  have raised : Raised (fbpPage p) 0 (trainedPort p nbr nport s) := (raised_portState (v := 3) (s := s) (p := p) (by omega)).of_same rfl
  obtain ⟨-, mem, chans⟩ := portState_kept p 3 s
  exact ⟨(congrArg Port.st same :), (congrArg Port.nbr same :), (congrArg Port.nport same :), (congrArg Port.known same :), (congrArg Port.rxSeq same :), (raised.sendFrames p).notice 2 p,
    sends.mem.trans mem, sends.chans.trans chans⟩

theorem retrain_eq {p : Nat} {s : State} (up : domLost s 9 = false) (tap : s.tapFault = false) (st : (port s p).st ≠ 0) (en : bit (rdReg s (fbpPage p) 0x700) 0 = true) :
    ∃ u, portCtlWrite p (setBit (rdReg s (fbpPage p) 0x700) 3 true) s = faultPort p u ∧ port u p = port s p ∧ u.mem = s.mem ∧ u.chans = s.chans := by
  generalize ev : setBit (rdReg s (fbpPage p) 0x700) 3 true = v
  have enV : bit v 0 = true := by rw [← ev, bit_setBit_ne _ _ (by decide) (by decide) (by decide), en]
  have retrain : bit v 3 = true := by rw [← ev]; exact bit_setBit_same _ _ (by decide)
  refine ⟨wrReg (fbpPage p) 0x700 (w32 (fld v 2 0)) s, ?_, rfl, rfl, rfl⟩
  have stays : portEnable p true (wrReg (fbpPage p) 0x700 (w32 (fld v 2 0)) s) = wrReg (fbpPage p) 0x700 (w32 (fld v 2 0)) s := by
    unfold portEnable
    rw [if_neg (by rw [wrReg_tapFault, tap]; decide), if_neg (by decide), if_neg (by rw [port_wrReg]; exact st)]
  unfold portCtlWrite
  dsimp only
  rw [enV, stays, ite_self, if_pos retrain]
  unfold retrainPort
  rw [if_neg (by rw [port_wrReg, domLost_wrReg, wrReg_tapFault, up, tap]; simp [st])]

/-! ### Link control blocks -/

theorem port_countFec (p : Nat) (n : FecCount) (s : State) : (port (countFec p n s) p).st = (port s p).st := by
  unfold countFec
  rw [port_modPort_same]
  rfl

theorem portUp_countFec (p : Nat) (n : FecCount) (s : State) : portUp (countFec p n s) p = portUp s p := portUp_of rfl (port_countFec ..)

theorem sendBlock_up {p : PortNo} {s : State} (up : domLost s 9 = false) (st : (port s p.val).st = 3) : sendBlock p.val s =
    send (.linkBlock p.val { ack := BitVec.ofNat 12 (port s p.val).rxSeq, requests := (port s p.val).requests + (if (port s p.val).resend then 1 else 0), credits := (port s p.val).freed,
                             nbr := BitVec.ofNat 16 (node s), nport := p })
      (setPortAt p.val { port s p.val with requests := (port s p.val).requests + (if (port s p.val).resend then 1 else 0), resend := false } s) := by
  have one : (port s p.val).resend.toNat = if (port s p.val).resend then 1 else 0 := by cases (port s p.val).resend <;> rfl
  have no : Fin.ofNat 8 p.val = p := Fin.ofNat_val_eq_self p
  unfold sendBlock
  rw [if_neg (by rw [portUp_of_st up st]; decide)]
  dsimp only
  rw [one, no]

/-- A port after a link control block, before it resends. -/
def acknowledged (b : LinkBlock) (y : Port) : Port :=
  { y with unacked := afterAck b.ack.toNat y.unacked, nbr := b.nbr.toNat, nport := b.nport.val, known := true, back := forEach b.credits y.back (fun c m => smPut 0 m c.1 (max (smGet 0 m c.1) c.2)) }

theorem receiveBlock_up {p : Nat} {b : LinkBlock} {u v : State} (up : portUp u p = true)
    (ev : v = sendFrames p (if (port u p).served < b.requests then resendAll p (setPortAt p { acknowledged b (port u p) with served := b.requests } u) else setPortAt p (acknowledged b (port u p)) u)) :
    receiveBlock p b u = wmSample (fbpPage p) 0 (port v p).unacked.length v := by
  have acked : modPort p (fun x => { x with unacked := afterAck b.ack.toNat x.unacked, nbr := b.nbr.toNat, nport := b.nport.val, known := true, back := forEach b.credits x.back (fun c m => smPut 0 m c.1 (max (smGet 0 m c.1) c.2)) }) u = setPortAt p (acknowledged b (port u p)) u := rfl
  have served : modPort p (fun x => { x with served := b.requests }) (setPortAt p (acknowledged b (port u p)) u) = setPortAt p { acknowledged b (port u p) with served := b.requests } u := by
    rw [modPort, setPortAt_setPortAt_same, port_setPortAt_same]
  have asked : (port (setPortAt p (acknowledged b (port u p)) u) p).served = (port u p).served := by rw [port_setPortAt_same]; rfl
  unfold receiveBlock
  rw [if_neg (by rw [up]; decide), acked]
  dsimp only
  rw [asked, served, ← ev]

/-- Settles O38. -/
theorem portsFollowTheirStates : Obligations.PortsFollowTheirStates := by
  unfold Obligations.PortsFollowTheirStates
  intro p s x ex up
  subst ex
  have faults : (port s p.val).st = 3 → portFaults p.val s = faultPort p.val s := fun st => if_pos (portUp_of_st up st)
  refine ⟨?_, ?_, ?_, ?_, ?_, ?_, ?_⟩
  · refine congrArg Host.Outcome.next ((whileUp_of_up _ up).trans ?_)
    unfold partnerPresent portState
    rw [up]
    by_cases st : (port s p.val).st = 1
    · rw [if_pos ⟨st, rfl⟩, if_neg (by omega), if_pos st]
      rfl
    · rw [if_neg (fun h => st h.1), if_neg st]
  · intro nbr nport tap
    have run : exec (.portTrainingComplete p nbr nport) s = .next (trainingDone p.val nbr.toNat nport.val s) :=
      congrArg Host.Outcome.next ((whileUp_of_up _ up).trans (by rw [tap]; rfl))
    refine ⟨fun st => ⟨_, run, trainingDone_facts up st rfl⟩, fun ne2 ne4 => run.trans (congrArg Host.Outcome.next (if_neg ?_))⟩
    rintro ⟨h | h, -⟩
    · exact ne2 h
    · exact ne4 h
  · intro st
    obtain ⟨n, same⟩ := port_faultPort_same p.val s
    obtain ⟨first, second⟩ := raised_faultedPort p.isLt (s := s) (by omega)
    obtain ⟨-, mem, chans⟩ := faultPort_kept p.val s
    exact ⟨_, congrArg Host.Outcome.next ((whileUp_of_up _ up).trans (faults st)), by rw [same], by rw [same], by rw [same], raised_faultPort first, raised_faultPort second, mem, chans⟩
  · intro st
    exact congrArg Host.Outcome.next ((whileUp_of_up _ up).trans (if_neg (by rw [portUp_of_ne st]; decide)))
  · intro m takes tap st en
    obtain ⟨u, eq, ports, memU, chansU⟩ := retrain_eq up tap st en
    obtain ⟨n, same⟩ := port_faultPort_same p.val u
    obtain ⟨-, mem, chans⟩ := faultPort_kept p.val u
    exact ⟨_, congrArg Host.Outcome.next ((accessWrite_fbpCtl p.isLt _ takes).trans eq), by rw [same], by rw [same], by rw [same], mem.trans memU, chans.trans chansU⟩
  · refine congrArg Host.Outcome.next ((whileUp_of_up _ up).trans ?_)
    by_cases st : (port s p.val).st = 3
    · rw [if_pos st, sendBlock_up up st]
    · rw [if_neg st]
      exact if_pos (by rw [portUp_of_ne st]; rfl)
  · intro b fec u v y z st eu ey ez ev
    subst eu ey ez
    exact congrArg Host.Outcome.next ((whileUp_of_up _ up).trans (receiveBlock_up ((portUp_countFec ..).trans (portUp_of_st up st)) ev))

end Sys2Proof.Machine
end

-- ==== wire ====
section
/-! PROOFS. Frames on the wire, their order on a port, and the frames of discovery (spec 13 R337, R338, R340, R342-R346). -/

-- One theorem at a time: elaborating them in parallel takes the memory of many threads.
set_option Elab.async false

namespace Sys2Proof.Machine

/-! ### A frame and its bytes -/

/-- The header of a frame as a number. -/
def headerNat (f : Frame) : Nat :=
  f.dst.toNat * 2 ^ 112 + f.src.toNat * 2 ^ 96 + f.vc.toNat * 2 ^ 93 + f.type.toNat * 2 ^ 88 + f.lseq.toNat * 2 ^ 76 + f.tag.toNat * 2 ^ 64
    + f.payload.length % 512 * 2 ^ 55 + f.ttl.toNat * 2 ^ 49 + f.db.toNat * 2 ^ 48 + f.addr.toNat

/-- The fields of a header can be read back from its number. -/
theorem headerNat_fields (f : Frame) (short : f.payload.length ≤ 256) : headerNat f < 256 ^ 16 ∧ headerNat f / 2 ^ 112 = f.dst.toNat ∧ headerNat f / 2 ^ 96 % 2 ^ 16 = f.src.toNat ∧
    headerNat f / 2 ^ 93 % 2 ^ 3 = f.vc.toNat ∧ headerNat f / 2 ^ 88 % 2 ^ 5 = f.type.toNat ∧ headerNat f / 2 ^ 76 % 2 ^ 12 = f.lseq.toNat ∧ headerNat f / 2 ^ 64 % 2 ^ 12 = f.tag.toNat ∧
    headerNat f / 2 ^ 55 % 512 = f.payload.length ∧ headerNat f / 2 ^ 49 % 2 ^ 6 = f.ttl.toNat ∧ headerNat f / 2 ^ 48 % 2 = f.db.toNat ∧ headerNat f % 2 ^ 48 = f.addr.toNat := by
  have dst := f.dst.isLt
  have src := f.src.isLt
  have vc := f.vc.isLt
  have type := f.type.isLt
  have lseq := f.lseq.isLt
  have tag := f.tag.isLt
  have ttl := f.ttl.isLt
  have db := Bool.toNat_lt f.db
  have addr := f.addr.isLt
  unfold headerNat
  refine ⟨?_, ?_, ?_, ?_, ?_, ?_, ?_, ?_, ?_, ?_, ?_⟩ <;> omega

theorem headerOf_facts (f : Frame) (short : f.payload.length ≤ 256) : (headerOf f).length = 16 ∧ leNat (headerOf f).reverse = headerNat f := by
  have bytes : (headerOf f).reverse = leBytes 16 (headerNat f) := List.reverse_reverse _
  refine ⟨by rw [← List.length_reverse, bytes, length_leBytes], ?_⟩
  rw [bytes, leNat_leBytes, Nat.mod_eq_of_lt (headerNat_fields f short).1]

theorem ofNat_of_mod {n a : Nat} {b : BitVec n} (h : a % 2 ^ n = b.toNat) : BitVec.ofNat n a = b := BitVec.eq_of_toNat_eq (by rw [BitVec.toNat_ofNat, h])

/-- What is sent is what is read: R337, R338. -/
theorem frameOf_wireOf (f : Frame) (short : f.payload.length ≤ 256) : frameOf (wireOf f) = some f := by
  obtain ⟨len, number⟩ := headerOf_facts f short
  obtain ⟨-, dst, src, vc, type, lseq, tag, length, ttl, db, addr⟩ := headerNat_fields f short
  generalize ec : crc32 (headerOf f ++ f.payload) = c
  have wire : wireOf f = headerOf f ++ (f.payload ++ leBytes 4 c.toNat) := by rw [wireOf, ec, List.append_assoc]
  have head : (wireOf f).take 16 = headerOf f := by rw [wire, List.take_left' len]
  have rest : (wireOf f).drop 16 = f.payload ++ leBytes 4 c.toNat := by rw [wire, List.drop_left' len]
  have front : (wireOf f).take (16 + f.payload.length) = headerOf f ++ f.payload := by
    rw [wireOf, ec, List.take_left' (by rw [List.length_append, len])]
  have sum : (wireOf f).drop (16 + f.payload.length) = leBytes 4 c.toNat := by
    rw [wireOf, ec, List.drop_left' (by rw [List.length_append, len])]
  have whole : (wireOf f).length = 20 + f.payload.length := by
    rw [wire, List.length_append, List.length_append, len, length_leBytes]
    omega
  have crc : leNat (leBytes 4 c.toNat) = c.toNat := by rw [leNat_leBytes]; exact Nat.mod_eq_of_lt c.isLt
  unfold frameOf
  dsimp only
  rw [head, number, length, if_neg (by rw [whole]; omega), sum, front, ec, crc, if_neg (by simp), rest, List.take_left' rfl,
    ofNat_of_mod (b := f.dst) (by rw [dst]; exact Nat.mod_eq_of_lt f.dst.isLt), ofNat_of_mod src, ofNat_of_mod vc, ofNat_of_mod type, ofNat_of_mod lseq, ofNat_of_mod tag, ofNat_of_mod ttl, db, ofNat_of_mod addr]
  have flag : (f.db.toNat == 1) = f.db := by cases f.db <;> rfl
  rw [flag]

/-! ### The order of frames on a port -/

theorem receiveFrame_up {p : Nat} {wire : List Byte} {v : State} (up : portUp v p = true) : receiveFrame p wire v = match frameOf wire with
    | none => setPortAt p { port v p with resend := true } v
    | some f =>
      if f.lseq.toNat ≠ (port v p).rxSeq then (if (f.lseq.toNat + 4096 - (port v p).rxSeq) % 4096 < 2048 then setPortAt p { port v p with resend := true } v else v)
      else acceptFrame p f (setPortAt p { port v p with rxSeq := ((port v p).rxSeq + 1) % 4096, resend := false } v) := by
  unfold receiveFrame
  exact if_neg (by rw [up]; decide)

theorem acceptFrame_unknown {p : Nat} {f : Frame} (s : State) (h : f.vc = 7 ∨ typeVc f.type.toNat ≠ some f.vc.toNat) :
    acceptFrame p f s = countReg (fbpPage p) 0x71C 1 (freeBuffer p f s) := if_pos h

section
variable {p : Nat} {f : Frame} {s : State} (vc : f.vc ≠ 7) (type : typeVc f.type.toNat = some f.vc.toNat) (notSync : f.type.toNat ≠ 0x10) (notRouted : portRouted f.type.toNat = false)
include vc type notSync notRouted

theorem acceptFrame_known : acceptFrame p f s = if f.dst = 0xFFFF then
      if f.ttl.toNat ≤ 1 then (if node s = 0 then freeBuffer p f s else deliver p f s) else broadcast p { f with ttl := f.ttl - 1 } (if node s = 0 then freeBuffer p f s else deliver p f s)
    else if f.dst.toNat = node s then (if node s = 0 then freeBuffer p f s else deliver p f s)
    else if f.ttl.toNat ≤ 1 then countFb 0x73C (freeBuffer p f s) else sendTo { f with ttl := f.ttl - 1 } (freeBuffer p f s) := by
  unfold acceptFrame
  dsimp only
  rw [if_neg (by rintro (h | h); exacts [vc h, h type]), if_neg notSync, if_neg (by rw [notRouted]; decide)]
end

/-! ### Discovery and assignment -/

theorem takeDelivered_head {t : Nat} {s : State} {d : Delivered} {ds : List Delivered} (head : s.fabric.delivered = d :: ds) (type : d.frame.type.toNat = t) :
    takeDelivered t s = some (d, freeBuffer d.port d.frame { s with fabric := { s.fabric with delivered := ds } }) := by
  have found : s.fabric.delivered.find? (fun d => d.frame.type.toNat == t) = some d := by
    rw [head, List.find?_cons_of_pos (by rw [type]; exact beq_self_eq_true t)]
  have left : s.fabric.delivered.erase d = ds := by rw [head, List.erase_cons_head]
  unfold takeDelivered modFab
  rw [found]
  dsimp only
  rw [left]

theorem rdReg_freeBuffer (p : Nat) (f : Frame) (s : State) (page off : Nat) : rdReg (freeBuffer p f s) page off = rdReg s page off := by
  unfold freeBuffer
  split <;> rfl

theorem node_freeBuffer (p : Nat) (f : Frame) (s : State) : node (freeBuffer p f s) = node s := by unfold node; rw [rdReg_freeBuffer]
theorem fabManager_freeBuffer (p : Nat) (f : Frame) (s : State) : fabManager (freeBuffer p f s) = fabManager s := by unfold fabManager; rw [rdReg_freeBuffer]
theorem serialBytes_freeBuffer (p : Nat) (f : Frame) (s : State) : serialBytes (freeBuffer p f s) = serialBytes s := by unfold serialBytes; rw [rdReg_freeBuffer, rdReg_freeBuffer]

/-- The state of a device that an ASSIGN has given a node number. -/
def assigned (d : Delivered) (s : State) : State :=
  let v := modReg fbPage 0x700 (fun w => setFld w 15 0 (d.frame.addr.toNat % 2 ^ 16)) s
  if fabManager v = 0 then modFab (fun x => { x with routes := smPut 0 x.routes d.frame.src.toNat (w32 (0x8000 + d.port % 8 * 2 ^ 12)) }) (modReg fbPage 0x710 (fun w => setFld w 15 0 d.frame.src.toNat) v) else v

theorem fabManager_node (f : Word → Word) (s : State) : fabManager (modReg fbPage 0x700 f s) = fabManager s := by
  unfold fabManager
  rw [rdReg_modReg_off (by decide) (by decide) (by decide)]

theorem node_assigned (d : Delivered) (s : State) : node (assigned d s) = d.frame.addr.toNat % 2 ^ 16 := by
  have set : node (modReg fbPage 0x700 (fun w => setFld w 15 0 (d.frame.addr.toNat % 2 ^ 16)) s) = d.frame.addr.toNat % 2 ^ 16 := by
    unfold node
    rw [rdReg_modReg_same, fld_setFld_same _ _ (by decide) (by decide)]
    exact Nat.mod_mod _ _
  unfold assigned
  dsimp only
  split
  · refine Eq.trans ?_ set
    unfold node
    rw [rdReg_modFab, rdReg_modReg_off (by decide) (by decide) (by decide)]
  · exact set

theorem handleAssign_eq {s u : State} {d : Delivered} (taken : takeDelivered 0xA s = some (d, u)) : handleAssign s =
    if node u ≠ 0 then answerRouted d 0xB 1 (leBytes 2 (node u)) u
    else if (d.frame.payload.drop 42).take 8 ≠ serialBytes u then answerRouted d 0xB 2 (leBytes 2 (node u)) u
    else answerRouted d 0xB 0 (leBytes 2 (node (assigned d u))) (assigned d u) := by
  unfold handleAssign
  rw [taken]
  rfl

theorem handleTaken_eq {t : Nat} {s u : State} {d : Delivered} (taken : takeDelivered t s = some (d, u)) : handleTaken t s = u := by
  unfold handleTaken
  rw [taken]

theorem handleDisc_eq {s u : State} {d : Delivered} (taken : takeDelivered 8 s = some (d, u)) : handleDisc s = answerRouted d 9 0 (identity u d.port) u := by
  unfold handleDisc
  rw [taken]

/-- Settles O39. -/
theorem framesAreTakenInSequence : Obligations.FramesAreTakenInSequence := by
  unfold Obligations.FramesAreTakenInSequence
  refine ⟨frameOf_wireOf, ?_, ?_⟩
  · intro p wire fec s v x ev ex up st
    subst ev ex
    have portUpV : portUp (countFec p.val fec s) p.val = true := (portUp_countFec ..).trans (portUp_of_st up (by rw [← port_countFec]; exact st))
    have run : exec (.frameReceive p wire fec) s = .next (receiveFrame p.val wire (countFec p.val fec s)) := congrArg Host.Outcome.next (whileUp_of_up _ up)
    rw [run, receiveFrame_up portUpV]
    refine ⟨fun none_ => by rw [none_], fun f some_ ne => ?_, fun f u some_ eq eu => ?_⟩
    · rw [some_]
      exact congrArg Host.Outcome.next (if_pos ne)
    · rw [some_]
      dsimp only
      rw [if_neg (not_not_intro eq), ← eu]
      refine ⟨fun unknown => congrArg Host.Outcome.next (acceptFrame_unknown _ unknown), fun vc type notSync notRouted => ?_⟩
      rw [acceptFrame_known vc type notSync notRouted]
      refine ⟨fun one here given => ?_, fun one other => ?_, fun all given => ?_⟩
      · rw [if_neg one, if_pos here, if_neg given]
      · rw [if_neg one, if_neg other]
        rfl
      · rw [if_pos all, if_neg given]
  · intro s u d ds up head eu
    have took (t : Nat) (type : d.frame.type.toNat = t) : takeDelivered t s = some (d, u) := by rw [eu, takeDelivered_head head type]
    have nodeU : node u = node s := by rw [eu, node_freeBuffer]; rfl
    have mgrU : fabManager u = fabManager s := by rw [eu, fabManager_freeBuffer]; rfl
    have serialU : serialBytes u = serialBytes s := by rw [eu, serialBytes_freeBuffer]; rfl
    refine ⟨fun type => ?_, fun type => ?_, ?_⟩
    · exact congrArg Host.Outcome.next ((whileUp_of_up _ up).trans (handleDisc_eq (took 8 (by rw [type]; rfl))))
    · have run : exec .assign s = .next (handleAssign s) := congrArg Host.Outcome.next (whileUp_of_up _ up)
      rw [run, handleAssign_eq (took 0xA (by rw [type]; rfl)), nodeU, serialU]
      refine ⟨fun given => by rw [if_pos given], fun free other => by rw [if_neg (not_not_intro free), if_pos other, free], fun free own v w ev ew => ?_⟩
      have target : assigned d u = w := by
        rw [ew, ev, ← mgrU, ← fabManager_node]
        unfold assigned
        dsimp only
      rw [if_neg (not_not_intro free), if_neg (not_not_intro own), node_assigned, target]
    · intro x hx type
      simp only [List.mem_cons, List.not_mem_nil, or_false] at hx
      obtain rfl | rfl | rfl | rfl := hx
      · exact congrArg Host.Outcome.next ((whileUp_of_up _ up).trans (handleTaken_eq (took 9 (by rw [type]; rfl))))
      · exact congrArg Host.Outcome.next ((whileUp_of_up _ up).trans (handleTaken_eq (took 0xB (by rw [type]; rfl))))
      · exact congrArg Host.Outcome.next ((whileUp_of_up _ up).trans (handleTaken_eq (took 0x16 (by rw [type]; rfl))))
      · exact congrArg Host.Outcome.next ((whileUp_of_up _ up).trans (handleTaken_eq (took 0x18 (by rw [type]; rfl))))

end Sys2Proof.Machine
end

-- ==== requests ====
section
/-! PROOFS. Requests of other nodes, their responses, and the frames of a Fabric Hang (spec 12 R329, R330; 13 R350-R354). -/

-- One theorem at a time: elaborating them in parallel takes the memory of many threads.
set_option Elab.async false

namespace Sys2Proof.Machine

/-- The answer to a request of a node: its kind is that of the error, which is noted while D8 is up. -/
theorem matrixReply_agent {t : Trans} {f : Frame} (use : t.use = .agent f) (data : List Byte) (s : State) : matrixReply t data none s = sendTo (response s f 0 data) s ∧
    (∀ k, domLost s 8 = false → matrixReply t data (some k) s = sendTo (response (mxError t.master t.addr (busCode k) s) f (busCode k) data) (mxError t.master t.addr (busCode k) s)) := by
  refine ⟨?_, fun k up => ?_⟩
  · unfold matrixReply giveReply
    rw [use]
    rfl
  · unfold matrixReply giveReply
    rw [use]
    dsimp only
    rw [if_neg (by rw [up]; decide)]
    rfl

/-- What a request does once it is taken: it enters the agent's port, or its restriction refuses it. -/
def requestGoes (type : Nat) (f : Frame) (v : State) : State :=
  if requestAllowed v type f.src.toNat (targetOf v f.addr.toNat) then
    enterPort .agent f.src.toNat (decide (type = 2 ∨ type = 4 ∨ type = 6)) f.addr.toNat (if decide (type = 2 ∨ type = 4 ∨ type = 6) then f.payload else [])
      (if decide (type = 2 ∨ type = 4 ∨ type = 6) then f.payload.length else if type = 3 then 4 else leNat (f.payload.take 4) % 512) (.agent f) v
  else sendTo (response v f 7 []) v

theorem handleRequest_eq {type : Nat} {s u : State} {d : Delivered} (taken : takeDelivered type s = some (d, u)) : handleRequest type s =
    if (responsesWait s d.frame.src.toNat && freeVal 1 s == 1) = true then tick s else requestGoes type d.frame (if responsesWait s d.frame.src.toNat = true then tick u else u) := by
  unfold handleRequest
  rw [taken]
  rfl

theorem handleRequest_quiet {type : Nat} {s u : State} {d : Delivered} (taken : takeDelivered type s = some (d, u)) (quiet : responsesWait s d.frame.src.toNat = false) :
    handleRequest type s = requestGoes type d.frame u := by
  rw [handleRequest_eq taken, quiet, Bool.false_and, if_neg Bool.false_ne_true, if_neg Bool.false_ne_true]

theorem handleRequest_waits {type : Nat} {s u : State} {d : Delivered} (taken : takeDelivered type s = some (d, u)) (waits : responsesWait s d.frame.src.toNat = true) :
    handleRequest type s = tick s ∨ handleRequest type s = requestGoes type d.frame (tick u) := by
  rw [handleRequest_eq taken, waits]
  by_cases free : (freeVal 1 s == 1) = true
  · exact .inl (if_pos (by rw [free]; rfl))
  · exact .inr ((if_neg (by rw [Bool.true_and]; exact free)).trans (by rw [if_pos rfl]))

/-- The write bit of a request type is its parity. -/
theorem requestGoes_eq {type : Nat} (f : Frame) {write : Bool} {len : Nat} {go : State → State} (ht : 1 ≤ type ∧ type ≤ 6) (ew : write = (type % 2 == 0))
    (el : len = (if write then f.payload.length else if type = 3 then 4 else leNat (f.payload.take 4) % 512))
    (eg : go = fun v => if requestAllowed v type f.src.toNat (targetOf v f.addr.toNat) then enterPort .agent f.src.toNat write f.addr.toNat (if write then f.payload else []) len (.agent f) v
      else sendTo (response v f 7 []) v) : requestGoes type f = go := by
  have parity : decide (type = 2 ∨ type = 4 ∨ type = 6) = write := by
    rw [ew, Bool.eq_iff_iff, decide_eq_true_iff, beq_iff_eq]
    omega
  subst eg
  funext v
  unfold requestGoes
  rw [parity, el]

theorem requestAllowed_eq (u : State) (type src : Nat) (tgt : Target) : requestAllowed u type src tgt = (if type = 3 then src != 0 && (tgt == .regs || tgt == .none)
    else if type = 4 then mayWritePages u src && (tgt == .regs || tgt == .none) else bit (rdReg u fbPage 0x70C) 0 && memoryReach tgt) := by
  unfold requestAllowed
  split
  · rfl
  · rfl
  · next ne3 ne4 => rw [if_neg ne3, if_neg ne4]

/-- A freed receive buffer changes its port alone. -/
theorem freeBuffer_rest (p : Nat) (f : Frame) (s : State) : (freeBuffer p f s).fabric = s.fabric ∧ (freeBuffer p f s).now = s.now ∧ (freeBuffer p f s).hang = s.hang := by
  unfold freeBuffer
  split <;> exact ⟨rfl, rfl, rfl⟩

theorem handleRsp_eq {s u : State} {d : Delivered} (taken : takeDelivered 7 s = some (d, u)) : handleRsp s =
    match u.fabric.outstanding.find? (fun x => x.tag == d.frame.tag.toNat && x.dst == d.frame.src.toNat) with
    | none => countFb 0x734 u
    | some x => if x.read = true ∧ d.frame.addr.toNat % 16 = 0 then endTransaction x (if bankOpen u .agent x.buf then 0 else 3) (bankPut .agent x.buf (d.frame.payload.take x.len) u)
        else endTransaction x (d.frame.addr.toNat % 16) u := by
  unfold handleRsp
  rw [taken] <;> rfl

theorem cancelSlot_getD (i : Nat) (u : State) : (cancelSlot i u).getD u =
    if (hangSlot u i).st = 1 ∧ u.now + us ≤ (hangSlot u i).h ∧ (hangSlot u i).left.length = (hangSlot u i).pages.length
    then slotRefused i { st := 3, err := 6, scope := (hangSlot u i).scope, group := (hangSlot u i).group, cluster := (hangSlot u i).cluster } u else u := by
  unfold cancelSlot
  dsimp only
  split <;> rfl

theorem handleHangBc_waits {s : State} {a : HangAsk} (ask : s.fabHangAsk = some a) : handleHangBc s = s := if_pos (by rw [ask]; rfl)

theorem handleHangBc_asks {s u : State} {d : Delivered} (ask : s.fabHangAsk = none) (taken : takeDelivered 0x14 s = some (d, u)) : handleHangBc s =
    { u with fabHangAsk := some ⟨7, 3, leNat (d.frame.payload.take 2) % 256, 0, leNat ((d.frame.payload.drop 2).take 8) * ns + leNat ((d.frame.payload.drop 10).take 2), u.now, d.frame.src.toNat, d.frame.tag.toNat, masterCode .agent⟩ } := by
  unfold handleHangBc
  rw [if_neg (by rw [ask]; decide), taken]

/-- Settles O40. -/
theorem requestsOfNodesAreChecked : Obligations.RequestsOfNodesAreChecked := by
  unfold Obligations.RequestsOfNodesAreChecked
  refine ⟨fun t f data s use => matrixReply_agent use data s, fun s u d ds f up head ef eu => ?_⟩
  subst ef
  have took (t : Nat) (type : d.frame.type.toNat = t) : takeDelivered t s = some (d, u) := by rw [eu, takeDelivered_head head type]
  obtain ⟨fabric, now, hang⟩ := freeBuffer_rest d.port d.frame { s with fabric := { s.fabric with delivered := ds } }
  rw [← eu] at fabric now hang
  have outstanding : u.fabric.outstanding = s.fabric.outstanding := (congrArg Fabric.outstanding fabric :)
  refine ⟨?_, requestAllowed_eq u, ?_, ?_, ?_⟩
  · intro x hx type write len go ew el eg
    have served : exec x.1 s = .next (handleRequest x.2 s) ∧ 1 ≤ x.2 ∧ x.2 ≤ 6 := by
      simp only [List.mem_cons, List.not_mem_nil, or_false] at hx
      obtain rfl | rfl | rfl | rfl | rfl | rfl := hx
      all_goals exact ⟨congrArg Host.Outcome.next (whileUp_of_up _ up), by decide, by decide⟩
    obtain ⟨run, range⟩ := served
    have goes := requestGoes_eq d.frame range ew el eg
    rw [run, ← goes]
    refine ⟨fun quiet => congrArg Host.Outcome.next (handleRequest_quiet (took x.2 type) quiet), fun waits => ?_⟩
    obtain h | h := handleRequest_waits (took x.2 type) waits
    · exact .inl (congrArg Host.Outcome.next h)
    · exact .inr (congrArg Host.Outcome.next h)
  · intro type
    have run : exec .rsp s = .next (handleRsp s) := congrArg Host.Outcome.next (whileUp_of_up _ up)
    rw [run, handleRsp_eq (took 7 (by rw [type]; rfl)), outstanding]
    refine ⟨fun none_ => ?_, fun x one tag dst => ?_⟩
    · have missing : s.fabric.outstanding.find? (fun x => x.tag == d.frame.tag.toNat && x.dst == d.frame.src.toNat) = none :=
        List.find?_eq_none.mpr fun x hx both => by
          simp only [Bool.and_eq_true, beq_iff_eq] at both
          obtain h | h := none_ x hx
          · exact h both.1
          · exact h both.2
      rw [missing]
      rfl
    · have found : s.fabric.outstanding.find? (fun x => x.tag == d.frame.tag.toNat && x.dst == d.frame.src.toNat) = some x := by
        rw [one, List.find?_cons_of_pos (by rw [tag, dst]; simp)]
      rw [found]
  · intro type
    have run : exec .hangBc s = .next (match (handleHangBc s).fabHangAsk with | some a => hangYields a.group (handleHangBc s) | none => handleHangBc s) :=
      congrArg Host.Outcome.next (whileUp_of_up _ up)
    rw [run]
    refine ⟨fun a ask => ?_, fun ask g eg => ?_⟩
    · rw [handleHangBc_waits ask, ask]
    · rw [handleHangBc_asks ask (took 0x14 (by rw [type]; rfl)), now, eg]
  · intro type x ex
    subst ex
    have slot : hangSlot u 7 = hangSlot s 7 := by unfold hangSlot; rw [hang]
    have run : exec .hangCancel s = .next (handleHangCancel s) := congrArg Host.Outcome.next (whileUp_of_up _ up)
    have handled : handleHangCancel s = (cancelSlot 7 u).getD u := by
      unfold handleHangCancel
      rw [took 0x15 (by rw [type]; rfl)]
    rw [run, handled, cancelSlot_getD, slot, now]

end Sys2Proof.Machine
end

-- ==== ring ====
section
/-! PROOFS. The transaction ring, its timeouts, the routing table, and emergency blocks (spec 13 R345-R357). -/

-- One theorem at a time: elaborating them in parallel takes the memory of many threads.
set_option Elab.async false

namespace Sys2Proof.Machine

/-! ### Registers of the FB and FBRT pages -/

/-- A legal write of a plain register merges its fields and does no more. -/
theorem plainWrite_legal {k : Kind} {page off : Nat} {r : RegDesc} {v : Word} (found : findReg (regsOf k) off = some r) (legal : Legal k off v) (m : Master) (s : State) :
    plainWrite page off m r.fields v s = wrReg page off (written k off (rdReg s page off) v) s := by
  obtain ⟨r', found', valid, wo⟩ := legal
  have e : r' = r := Option.some.inj (found'.symm.trans found)
  subst e
  unfold plainWrite written
  rw [if_neg (by rw [wo]; decide), found]
  dsimp only
  rw [mergeWord_valid _ v valid, if_neg (by decide)]

theorem find_fbNode : findReg (regsOf .fb) 0x700 = some ((findReg (regsOf .fb) 0x700).get (by decide)) := by decide
theorem block_fbNode (p : Nat) (m : Master) (fs : List Field) (v : Word) (s : State) : blockWrite ⟨.fb, 0⟩ p 0x700 m fs v s = plainWrite fbPage 0x700 m fs v s := rfl
theorem find_emCtl : findReg (regsOf .fb) 0x740 = some ((findReg (regsOf .fb) 0x740).get (by decide)) := by decide
theorem block_emCtl (p : Nat) (m : Master) (fs : List Field) (v : Word) (s : State) : blockWrite ⟨.fb, 0⟩ p 0x740 m fs v s =
    if bit v 1 then originate (fld v 15 8) (plainWrite fbPage 0x740 m fs v s) else plainWrite fbPage 0x740 m fs v s := rfl

theorem accessWrite_fbNode {m : Master} {s : State} {v : Word} (h : Takes s fbPage m) (legal : Legal .fb 0x700 v) :
    accessWrite fbPage 0x700 m v s = wrReg fbPage 0x700 (written .fb 0x700 (rdReg s fbPage 0x700) v) s :=
  ((accessWrite_block v h pageAt_fbPage find_fbNode (by decide) (fun h => nomatch h) (by decide) (by decide)).trans (block_fbNode ..)).trans (plainWrite_legal find_fbNode legal ..)

theorem accessWrite_emCtl {m : Master} {s : State} {v : Word} (h : Takes s fbPage m) (legal : Legal .fb 0x740 v) (sends : bit v 1 = true) :
    accessWrite fbPage 0x740 m v s = originate (fld v 15 8) (wrReg fbPage 0x740 (written .fb 0x740 (rdReg s fbPage 0x740) v) s) := by
  rw [accessWrite_block v h pageAt_fbPage find_emCtl (by decide) (fun h => nomatch h) (by decide) (by decide), block_emCtl, if_pos sends, plainWrite_legal find_emCtl legal]

theorem accessRead_fbrtData {m : Master} {s : State} (h : Takes s fbrtPage m) : accessRead fbrtPage 0x704 m s = rtStep s := by
  obtain ⟨path, up, quiet, -⟩ := h
  rw [accessRead_of_up path up (by decide), pageYields_of_quiet quiet]
  rfl

/-! ### Emergency blocks -/

/-- The state t is s after emergency blocks have gone out. -/
structure Floods (s t : State) : Prop where
  fabric : t.fabric = s.fabric
  doms : t.doms = s.doms
  chans : t.chans = s.chans
  regs : t.regs = s.regs ∧ t.swapped = s.swapped ∧ t.calSwapped = s.calSwapped
  st : ∀ q, (port t q).st = (port s q).st
  sent : ∀ o ∈ s.outbox, o ∈ t.outbox

namespace Floods

theorem refl (s : State) : Floods s s := ⟨rfl, rfl, rfl, ⟨rfl, rfl, rfl⟩, fun _ => rfl, fun _ h => h⟩

theorem trans {s t u : State} (h : Floods s t) (k : Floods t u) : Floods s u := by
  obtain ⟨a, b, c⟩ := h.regs
  obtain ⟨a', b', c'⟩ := k.regs
  exact ⟨k.fabric.trans h.fabric, k.doms.trans h.doms, k.chans.trans h.chans, ⟨a'.trans a, b'.trans b, c'.trans c⟩, fun q => (k.st q).trans (h.st q), fun o ho => k.sent o (h.sent o ho)⟩

theorem up {s t : State} (h : Floods s t) (q : Nat) : portUp t q = portUp s q := portUp_of h.doms (h.st q)

theorem rdReg {s t : State} (h : Floods s t) (p o : Nat) : rdReg t p o = rdReg s p o := by
  obtain ⟨a, b, c⟩ := h.regs
  unfold Sys2Proof.Machine.rdReg rdRole roleKey canvasSet
  rw [a, b, c]

theorem tick (s : State) : Floods s (tick s) := ⟨rfl, rfl, rfl, ⟨rfl, rfl, rfl⟩, fun _ => rfl, fun _ h => h⟩

theorem cutFrame (p : Nat) (s : State) : Floods s (cutFrame p s) := by
  unfold Sys2Proof.Machine.cutFrame
  split
  · next u _ =>
    split
    · refine ⟨rfl, rfl, rfl, ⟨rfl, rfl, rfl⟩, fun q => ?_, fun _ h => h⟩
      obtain rfl | ne := eq_or_ne q p
      · rw [port_modPort_same]
        rfl
      · rw [port_modPort_ne ne]
        rfl
    · exact tick s
  · exact refl s

theorem send (o : Out) (s : State) : Floods s (send o s) := ⟨rfl, rfl, rfl, ⟨rfl, rfl, rfl⟩, fun _ => rfl, fun _ h => List.mem_cons_of_mem _ h⟩
end Floods

/-- One port's part of a flood. -/
def floodPort (except origin eid cause : Nat) (p : Nat) (s : State) : State :=
  if portUp s p ∧ p ≠ except then Machine.send (.emergency p (emergencyCopies (emergencyBlock origin eid cause))) (cutFrame p s) else s

theorem floods_floodPort (except origin eid cause p : Nat) (s : State) : Floods s (floodPort except origin eid cause p s) := by
  unfold floodPort
  split
  · exact (Floods.cutFrame p s).trans (Floods.send ..)
  · exact .refl s

/-- A flood reaches every other port that is UP. -/
theorem emergencyOut_facts (except origin eid cause : Nat) (s : State) (n : Nat) : Floods s (forUpTo n s (floodPort except origin eid cause)) ∧
    ∀ q, q < n → portUp s q = true → q ≠ except → (.emergency q (emergencyCopies (emergencyBlock origin eid cause)) : Out) ∈ (forUpTo n s (floodPort except origin eid cause)).outbox := by
  induction n with
  | zero => exact ⟨.refl s, fun q h => absurd h (Nat.not_lt_zero q)⟩
  | succ n ih =>
    obtain ⟨floods, sent⟩ := ih
    rw [forUpTo]
    generalize forUpTo n s (floodPort except origin eid cause) = u at floods sent
    refine ⟨floods.trans (floods_floodPort ..), fun q h upQ ne => ?_⟩
    obtain rfl | lt : q = n ∨ q < n := by omega
    · unfold floodPort
      rw [if_pos ⟨(floods.up q).trans upQ, ne⟩]
      exact List.mem_cons_self
    · exact (floods_floodPort ..).sent _ (sent q lt upQ ne)

/-- The number of an emergency block. -/
theorem emergencyBlock_toNat (origin eid : BitVec 16) (cause : Byte) : (emergencyBlock origin.toNat eid.toNat cause.toNat).toNat =
    0x5A5AC3C35A5AC3C3 * 2 ^ 64 + origin.toNat * 2 ^ 48 + eid.toNat * 2 ^ 32 + cause.toNat * 2 ^ 24 := by
  have o := origin.isLt
  have e := eid.isLt
  have c := cause.isLt
  unfold emergencyBlock
  rw [BitVec.toNat_ofNat, Nat.mod_eq_of_lt o, Nat.mod_eq_of_lt e, Nat.mod_eq_of_lt (show cause.toNat < 256 from c), Nat.mod_eq_of_lt (by omega)]

theorem emergencyBlock_fields (origin eid : BitVec 16) (cause : Byte) {n : Nat} (h : n = (emergencyBlock origin.toNat eid.toNat cause.toNat).toNat) :
    n / 2 ^ 48 % 2 ^ 16 = origin.toNat ∧ n / 2 ^ 32 % 2 ^ 16 = eid.toNat ∧ n / 2 ^ 24 % 256 = cause.toNat := by
  have o := origin.isLt
  have e := eid.isLt
  have c := cause.isLt
  rw [emergencyBlock_toNat] at h
  refine ⟨?_, ?_, ?_⟩ <;> omega

/-- Of at most three copies on a lane, two that agree are those of one block. -/
theorem acceptedBlock_of_agree {l : List (BitVec 128)} {ls : List (List (BitVec 128))} {b : BitVec 128} (few : l.length ≤ 3) (agree : 2 ≤ l.count b) (marker : b.toNat / 2 ^ 64 = 0x5A5AC3C35A5AC3C3) :
    acceptedBlock (l :: ls) = some b := by
  have only (c : BitVec 128) (hc : 2 ≤ l.count c) : c = b := by
    by_contra ne
    have both : l.count b + l.count c ≤ l.length := by
      have split := List.length_eq_countP_add_countP (· == b) (l := l)
      have rest : l.count c ≤ l.countP (fun x => ¬ (x == b) = true) := List.countP_mono_left fun x _ hx => by
        rw [beq_iff_eq] at hx
        simp [hx, ne]
      unfold List.count at *
      omega
    omega
  have mem : b ∈ l := List.count_pos_iff.mp (by omega)
  have found : l.find? (fun b => decide (2 ≤ l.count b) && b.toNat / 2 ^ 64 == 0x5A5AC3C35A5AC3C3) = some b := by
    obtain ⟨c, hc⟩ : ∃ c, l.find? (fun b => decide (2 ≤ l.count b) && b.toNat / 2 ^ 64 == 0x5A5AC3C35A5AC3C3) = some c :=
      Option.isSome_iff_exists.mp (List.find?_isSome.mpr ⟨b, mem, by rw [marker, decide_eq_true agree]; rfl⟩)
    have good := List.find?_some hc
    simp only [Bool.and_eq_true, decide_eq_true_eq] at good
    rw [hc, only c good.1]
  unfold acceptedBlock
  rw [List.findSome?_cons, found]

section
variable {s : State} (origin cause : Nat)

/-- An emergency latch sets FABRIC, holds the channels that Quench watches, and leaves the fabric and the FB page. -/
theorem setLatch_fabric (s : State) : bit (rdReg (setLatch 1 origin cause s) quenchPage 0x700) 1 = true ∧ (setLatch 1 origin cause s).fabric = s.fabric ∧
    (setLatch 1 origin cause s).outbox = s.outbox ∧ (bit (rdReg s quenchPage 0x700) 1 = false → ∀ c : Ch, watched s c.val = true → (chan (setLatch 1 origin cause s) c.val).held = true) ∧
    rdReg (setLatch 1 origin cause s) fbPage 0x744 = rdReg s fbPage 0x744 ∧ rdReg (setLatch 1 origin cause s) fbPage 0x010 = rdReg s fbPage 0x010 := by
  have side := latchSide_setLatch (b := 1) (by decide) origin cause s
  refine ⟨setLatch_latched (by decide) .., (congrArg State.fabric side :), (congrArg State.outbox side :), fun clear c hc => ?_, ?_⟩
  · obtain ⟨-, -, -, held⟩ := setLatch_sets (b := 1) (by decide) origin cause clear
    exact held c.val c.isLt hc
  · cases h : bit (rdReg s quenchPage 0x700) 1 with
    | true => rw [setLatch_of_set (by decide) origin cause h]; exact ⟨rfl, rfl⟩
    | false =>
      obtain ⟨bs, eq⟩ := setLatch_of_clear (b := 1) (by decide) origin cause h
      have other : ∀ x, pageAt fbPage = some x → x.kind ≠ .ch ∧ x.kind ≠ .pal ∧ x.kind ≠ .tquench := fun x hx => by cases pageAt_fbPage.symm.trans hx; decide
      have latched (o : Nat) (ho : o < 2 ^ 12) : rdReg (latchSet 1 s) fbPage o = rdReg s fbPage o := by
        rw [latchSet, rdReg_report, raiseBit, rdReg_raise_ne _ (by decide) (by decide) ho (fun h => absurd h.1 (by decide)), countReg, rdReg_modReg_ne (by decide) (by decide) (by decide) ho (fun h => absurd h.1 (by decide)),
          rdReg_modReg_ne (by decide) (by decide) (by decide) ho (fun h => absurd h.1 (by decide))]
      rw [eq, rdReg_tripAll_other _ _ (by decide) (by decide) other, rdReg_tripAll_other _ _ (by decide) (by decide) other]
      exact ⟨latched 0x744 (by decide), latched 0x010 (by decide)⟩
end

/-- SEND floods a new emergency before it latches FABRIC here (R357). -/
theorem originate_eq (cause : Nat) {s : State} (up : domLost s 9 = false) : ∃ w n, w.doms = s.doms ∧ rdReg w quenchPage 0x700 = rdReg s quenchPage 0x700 ∧ originate cause s = setLatch 1 n cause w := by
  unfold originate
  rw [if_neg (by rw [up]; decide)]
  extract_lets eid z
  have seenRest : z.doms = s.doms ∧ rdReg z quenchPage 0x700 = rdReg s quenchPage 0x700 := ⟨rfl, rfl⟩
  obtain ⟨doms, quench⟩ := seenRest
  have floods : Floods z (emergencyOut 8 (node z) eid cause z) := (emergencyOut_facts 8 (node z) eid cause z 8).1
  exact ⟨_, _, floods.doms.trans doms, (floods.rdReg ..).trans quench, rfl⟩

theorem originate_latches (cause : Nat) {s : State} (up : domLost s 9 = false) : bit (rdReg (originate cause s) quenchPage 0x700) 1 = true ∧
    (bit (rdReg s quenchPage 0x700) 1 = false → ∀ c : Ch, watched s c.val = true → (chan (originate cause s) c.val).held = true) := by
  obtain ⟨w, n, doms, quench, eq⟩ := originate_eq cause up
  obtain ⟨latched, -, -, held, -⟩ := setLatch_fabric n cause w
  rw [eq]
  exact ⟨latched, fun clear c hc => held (by rw [quench, clear]) c (by rw [watched_of_doms doms, hc])⟩

/-- The state in which an emergency block has been passed on and shown, before FABRIC latches. -/
def blockShown (p origin eid cause : Nat) (s : State) : State :=
  raiseBit fbPage 0 (modReg fbPage 0x744 (fun w => if bit w 31 then w else w32 (0x80000000 + cause % 256 * 2 ^ 16 + origin)) (emergencyOut p origin eid cause (seePair origin eid s)))

theorem receiveEmergency_new {p origin eid cause : Nat} {s : State} (up : portUp s p = true) (fresh : s.fabric.seen.contains (origin, eid) = false) :
    receiveEmergency p origin eid cause s = setLatch 1 origin cause (blockShown p origin eid cause s) := by
  unfold receiveEmergency
  rw [if_neg (by rw [up, fresh]; decide)]
  rfl

theorem blockShown_facts (p origin eid cause : Nat) (s : State) : (origin, eid) ∈ (blockShown p origin eid cause s).fabric.seen ∧ (blockShown p origin eid cause s).doms = s.doms ∧
    rdReg (blockShown p origin eid cause s) quenchPage 0x700 = rdReg s quenchPage 0x700 ∧ bit (rdReg (blockShown p origin eid cause s) fbPage 0x010) 0 = true ∧
    rdReg (blockShown p origin eid cause s) fbPage 0x744 = (if bit (rdReg s fbPage 0x744) 31 then rdReg s fbPage 0x744 else w32 (0x80000000 + cause % 256 * 2 ^ 16 + origin)) ∧
    (∀ q, q < 8 → portUp s q = true → q ≠ p → (.emergency q (emergencyCopies (emergencyBlock origin eid cause)) : Out) ∈ (blockShown p origin eid cause s).outbox) := by
  generalize ez : seePair origin eid s = z
  have seenRest : z.doms = s.doms ∧ (∀ page off, rdReg z page off = rdReg s page off) ∧ (∀ q, portUp z q = portUp s q) ∧ z.fabric.seen = ((origin, eid) :: s.fabric.seen).take 256 := by
    rw [← ez]
    exact ⟨rfl, fun _ _ => rfl, fun _ => rfl, rfl⟩
  obtain ⟨doms, regs, ports, seen⟩ := seenRest
  obtain ⟨floods, sent⟩ := emergencyOut_facts p origin eid cause z 8
  have flood : emergencyOut p origin eid cause z = forUpTo 8 z (floodPort p origin eid cause) := rfl
  rw [← flood] at floods sent
  generalize emergencyOut p origin eid cause z = u at floods sent flood
  have shown : blockShown p origin eid cause s = raiseBit fbPage 0 (modReg fbPage 0x744 (fun w => if bit w 31 then w else w32 (0x80000000 + cause % 256 * 2 ^ 16 + origin)) u) := by
    unfold blockShown
    rw [ez, flood]
    rfl
  have page : PageOnly u (blockShown p origin eid cause s) := by
    rw [shown]
    exact (pageOnly_modReg ..).trans (pageOnly_raiseBit ..)
  refine ⟨?_, page.doms_eq.trans (floods.doms.trans doms), ?_, ?_, ?_, fun q hq up ne => ?_⟩
  · rw [page.fabric_eq, floods.fabric, seen]
    exact List.mem_cons_self
  · rw [shown, rdReg_raiseBit_offset (by decide) (by decide), rdReg_modReg_ne (by decide) (by decide) (by decide) (by decide) (by decide), floods.rdReg, regs]
  · rw [shown]
    exact bit_raiseBit_same _ (by decide) _
  · rw [shown, rdReg_raiseBit_offset (by decide) (by decide), rdReg_modReg_same, floods.rdReg, regs]
  · rw [page.outbox_eq]
    exact sent q hq ((ports q).trans up) ne

/-- A block that is not known goes out on the other ports, is shown once, and latches FABRIC (R356, R357). -/
theorem receiveEmergency_facts {p origin eid cause : Nat} {s t : State} (up : portUp s p = true) (fresh : s.fabric.seen.contains (origin, eid) = false) (et : t = receiveEmergency p origin eid cause s) :
    (origin, eid) ∈ t.fabric.seen ∧ bit (rdReg t quenchPage 0x700) 1 = true ∧ bit (rdReg t fbPage 0x010) 0 = true ∧
    rdReg t fbPage 0x744 = (if bit (rdReg s fbPage 0x744) 31 then rdReg s fbPage 0x744 else w32 (0x80000000 + cause % 256 * 2 ^ 16 + origin)) ∧
    (∀ q, q < 8 → portUp s q = true → q ≠ p → (.emergency q (emergencyCopies (emergencyBlock origin eid cause)) : Out) ∈ t.outbox) ∧
    (bit (rdReg s quenchPage 0x700) 1 = false → ∀ c : Ch, watched s c.val = true → (chan t c.val).held = true) := by
  obtain ⟨seen, doms, quench, raised, origin_, sent⟩ := blockShown_facts p origin eid cause s
  rw [receiveEmergency_new up fresh] at et
  generalize blockShown p origin eid cause s = u at et seen doms quench raised origin_ sent
  obtain ⟨latched, fabric, outbox, held, shown, irq⟩ := setLatch_fabric origin cause u
  subst et
  refine ⟨by rw [fabric]; exact seen, latched, by rw [irq, raised], by rw [shown, origin_], fun q hq upQ ne => by rw [outbox]; exact sent q hq upQ ne, fun clear c hc => ?_⟩
  exact held (by rw [quench, clear]) c (by rw [watched_of_doms doms, hc])

theorem blockArrives_block {p : Nat} {lanes : List (List (BitVec 128))} {origin eid : BitVec 16} {cause : Byte} (h : acceptedBlock lanes = some (emergencyBlock origin.toNat eid.toNat cause.toNat)) (s : State) :
    blockArrives p lanes s = receiveEmergency p origin.toNat eid.toNat cause.toNat s := by
  obtain ⟨o, e, c⟩ := emergencyBlock_fields origin eid cause rfl
  unfold blockArrives
  rw [h]
  dsimp only
  rw [o, e, c]

/-! ### The ring -/

section
variable {s u : State} {i : Nat} (ei : i = fld (rdReg s fbPage 0x730) 5 0) (eu : u = wrReg fbPage 0x730 (w32 ((i + 1) % 64)) s)
include ei

theorem issueTransaction_idle (h : i = fld (rdReg s fbPage 0x72C) 5 0 ∨ (domLost s 9 = false ∧ node s = 0)) : issueTransaction s = s := by
  unfold issueTransaction
  dsimp only
  rw [← ei]
  cases lost : domLost s 9 with
  | true =>
    rw [if_pos rfl]
    unfold ringEnds
    dsimp only
    rw [← ei]
    refine if_pos (h.resolve_right ?_)
    rw [lost]
    simp
  | false =>
    rw [if_neg (by decide)]
    refine if_pos ?_
    obtain h | h := h
    · exact .inl h
    · exact .inr h.2

variable (ring : i ≠ fld (rdReg s fbPage 0x72C) 5 0)
include eu ring

theorem issueTransaction_lost (lost : domLost s 9 = true) : issueTransaction s = completeDesc i 4 u := by
  unfold issueTransaction
  dsimp only
  rw [lost, if_pos rfl]
  unfold ringEnds
  dsimp only
  rw [← ei, if_neg ring, eu]

variable (up : domLost s 9 = false) (given : node s ≠ 0)
include up given

theorem issueTransaction_eq : issueTransaction s =
    if (!bankOpen u .agent (ringAt u i)) = true then completeDesc i 3 u
    else if (!descOk u i) = true then completeDesc i 8 u
    else match (if responseFits u (descField u i 2 1 % 2 == 1) (descField u i 4 2) then freeTag u 4096 u.fabric.nextTag else none) with
    | none => s
    | some tag =>
      let v := bankPut .agent (ringAt u i + 24) (leBytes 4 tag) u
      let w := { v with fabric := { v.fabric with nextTag := (tag + 1) % 4096, outstanding := v.fabric.outstanding ++ [⟨tag, i, descField u i 2 1 % 2 == 1, descField u i 0 2, descField u i 4 2, descField u i 16 8, entryPort v (routeEntry v (descField u i 0 2)), false, v.now⟩] } }
      sendTo (newFrame v (descField u i 0 2) (descField u i 2 1) tag (descField v i 8 8)
        (if descField u i 2 1 % 2 = 0 then memRead v (descField u i 16 8) (descField u i 4 2) else if descField u i 2 1 = 3 then [] else leBytes 4 (descField u i 4 2))) (wmSample fbPage 0 w.fabric.outstanding.length w) := by
  unfold issueTransaction
  dsimp only
  rw [← ei, if_neg (by rw [up]; decide), if_neg (by rintro (h | h); exacts [ring h, given h]), ← eu] <;> rfl

end

/-- Settles O41. -/
theorem theRingIssuesAndEmergenciesFlood : Obligations.TheRingIssuesAndEmergenciesFlood := by
  unfold Obligations.TheRingIssuesAndEmergenciesFlood
  refine ⟨?_, ?_, ?_, fun l ls b few agree marker => acceptedBlock_of_agree few agree marker, ?_⟩
  · intro m s
    refine ⟨fun takes => ⟨fun v => congrArg Host.Outcome.next (accessWrite_ringProduce v takes), fun v legal => congrArg Host.Outcome.next (accessWrite_fbNode takes legal), fun v legal up => ?_⟩,
      fun takes i w ei ew => ?_⟩
    · refine ⟨_, congrArg Host.Outcome.next (accessWrite_emCtl takes legal (bit_setBit_same _ _ (by decide))), ?_⟩
      obtain ⟨latched, held⟩ := originate_latches (fld (setBit v 1 true) 15 8) (s := wrReg fbPage 0x740 (written .fb 0x740 (rdReg s fbPage 0x740) (setBit v 1 true)) s) up
      have quench : rdReg (wrReg fbPage 0x740 (written .fb 0x740 (rdReg s fbPage 0x740) (setBit v 1 true)) s) quenchPage 0x700 = rdReg s quenchPage 0x700 :=
        rdReg_wrReg_ne (by decide) (by decide) (by decide) (by decide) (by decide) _ _
      exact ⟨latched, fun clear c hc => held (by rw [quench, clear]) c hc⟩
    · subst ei ew
      exact ⟨fun v => congrArg Host.Outcome.next (accessWrite_fbrtData v takes), congrArg Host.Outcome.next (accessRead_fbrtData takes)⟩
  · intro s u i ei eu
    refine ⟨fun idle => congrArg Host.Outcome.next (issueTransaction_idle ei idle), fun ring lost => congrArg Host.Outcome.next (issueTransaction_lost ei eu ring lost), fun ring up given => ?_⟩
    have issued := issueTransaction_eq ei eu ring up given
    have run : exec .transactionIssue s = .next (issueTransaction s) := rfl
    rw [run, issued]
    refine ⟨fun shut => by rw [shut, Bool.not_false, if_pos rfl], fun openBank bad => by rw [openBank, bad, if_neg (by decide), Bool.not_false, if_pos rfl], fun openBank fine wait => ?_, ?_⟩
    · have none_ : (if responseFits u (descField u i 2 1 % 2 == 1) (descField u i 4 2) then freeTag u 4096 u.fabric.nextTag else none) = none := by
        obtain h | h := wait
        · rw [h, if_neg (by decide)]
        · rw [h, ite_self]
      rw [openBank, fine, if_neg (by decide), if_neg (by decide), none_]
    · intro openBank fine tag dst op len buf v w fits free ed eo el eb ev ew
      subst ed eo el eb
      rw [openBank, fine, if_neg (by decide), if_neg (by decide), if_pos fits, free]
      subst ew ev
      rfl
  · intro tag s up
    have run : exec (.transactionTimeout tag) s = .next (transactionTimeout tag.toNat s) := congrArg Host.Outcome.next (whileUp_of_up _ up)
    rw [run]
    unfold transactionTimeout
    refine ⟨fun none_ => by rw [none_], fun x found => ?_⟩
    rw [found]
  · intro p lanes s up st
    have upP := portUp_of_st up st
    have run : exec (.emergencyBlockReceive p lanes) s = .next (blockArrives p.val lanes s) := congrArg Host.Outcome.next (whileUp_of_up _ up)
    rw [run]
    refine ⟨fun none_ => by unfold blockArrives; rw [none_], fun origin eid cause accepted => ?_⟩
    rw [blockArrives_block accepted]
    refine ⟨fun known => congrArg Host.Outcome.next (if_pos (.inr known)), fun fresh => ⟨_, rfl, ?_⟩⟩
    obtain ⟨seen, latched, raised, shown, sent, held⟩ := receiveEmergency_facts upP fresh rfl
    have small : cause.toNat % 256 = cause.toNat := Nat.mod_eq_of_lt cause.isLt
    refine ⟨seen, latched, raised, fun first => ?_, fun before => ?_, fun q ne stQ => ?_, held⟩
    · rw [shown, first, small, if_neg (by decide)]
    · rw [shown, if_pos before]
    · exact sent q.val q.isLt (portUp_of_st up stQ) (fun e => ne (Fin.ext e))

end Sys2Proof.Machine
end

-- ==== the page of a cluster that was lost since its Hang was accepted ====
section
/-! PROOFS. The pages tied to a cluster switch with the page of the cluster, also where that page itself is skipped (spec 12 R322, R325). -/

-- One theorem at a time: elaborating them in parallel takes the memory of many threads.
set_option Elab.async false

namespace Sys2Proof.Machine

def weldPage0 : Nat := pageIndex ⟨.wd, 0⟩

/-- An armed Hang with two pages of cluster 0 to switch, the page of the cluster itself having been lost since acceptance. -/
def clusterPageLost : State := setHang 0 { st := 1, pages := [weldPage0, clPage 0], left := [weldPage0, clPage 0], lost := [clPage 0] } State.reset

/-- Refutes O37: the page of a cluster that was lost since acceptance is skipped, but the other pages tied to the cluster switch with it, so
that more than the one page leaves the pages still to switch. -/
theorem not_hangSwitchesItsGroupOnce : ¬ Obligations.HangSwitchesItsGroupOnce := by
  unfold Obligations.HangSwitchesItsGroupOnce
  rintro ⟨-, -, switch, -⟩
  obtain ⟨-, skip⟩ := switch 0 (BitVec.ofNat 14 (clPage 0)) clusterPageLost _ _ ⟨.cl, 0⟩ (by decide +kernel) rfl (by decide +kernel) (by decide +kernel)
    (by decide +kernel) (by decide +kernel) rfl
  obtain ⟨t, run, -, -, -, -, left, -⟩ := skip (.inr (by decide +kernel))
  obtain rfl := Host.Outcome.next.inj run
  exact absurd left (by decide +kernel)

end Sys2Proof.Machine
end

-- ==== the answers of the bus matrix ====
section
/-! PROOFS. What a target answers a transaction that it has granted, and what the limit of its time makes of it (spec 11 R293-R300). -/

-- One theorem at a time: elaborating them in parallel takes the memory of many threads.
set_option Elab.async false

namespace Sys2Proof.Machine

section
variable {n : Nat} {t : Trans} {s u : State} (hu : u = grantAll s) (ht : u.trans[n]? = some t)
include hu ht

theorem matrixAnswer_late (late : t.since + timeLimit t.target < u.now) (a : TargetAnswer) : matrixAnswer n a s = matrixTimesOut n u := by
  unfold matrixAnswer
  dsimp only
  rw [← hu, ht]
  exact if_pos late

variable (inTime : u.now ≤ t.since + timeLimit t.target) (taken : (if t.target = .none then placed u n t true else t.granted) = true)
include inTime taken

theorem matrixAnswer_error {e : BusKind} (err : transError u t = some e) (a : TargetAnswer) : matrixAnswer n a s = failTrans n t e u := by
  have served : ¬ ((if t.target = .none then !placed u n t true else !t.granted) = true) := by
    split at taken <;> simp_all
  unfold matrixAnswer
  dsimp only
  rw [← hu, ht]
  dsimp only
  rw [if_neg (Nat.not_lt.mpr inTime), if_neg served, err]

variable (err : transError u t = none) (room : mramWaits u t.target t.addr t.len t.write = false)
include err room

/-- What a target answers that takes the transaction. -/
theorem matrixAnswer_served (a : TargetAnswer) : matrixAnswer n a s = (match a with
    | .ok => doneTrans n t u
    | .busy =>
      if t.write || !mayCollide t.target then u
      else if 15 ≤ t.busy then failTrans n t .target u
      else grantAll (countReg mxPage 0x710 1 { u with trans := u.trans.set n { t with busy := t.busy + 1, granted := false } })
    | .corrected => if !transReads t || !mayFailEcc t.target then u else eccMeets t.target .corrected (doneTrans n t u)
    | .ecc => if !transReads t || !mayFailEcc t.target then u else failTrans n t .ecc (eccMeets t.target .uncorrectable u)) := by
  have served : ¬ ((if t.target = .none then !placed u n t true else !t.granted) = true) := by
    split at taken <;> simp_all
  unfold matrixAnswer
  dsimp only
  rw [← hu, ht]
  dsimp only
  rw [if_neg (Nat.not_lt.mpr inTime), if_neg served, err]
  dsimp only
  refine (if_neg (by simp [room])).trans ?_
  cases a <;> rfl

end

theorem portWrite_of_ne_mram {x : Target} (h : ∀ b, x ≠ .mram b) (a : Nat) (bs : List Byte) (s : State) : portWrite x a bs s = targetWrite x a bs s := by
  cases x with
  | mram b => exact absurd rfl (h b)
  | _ => rfl

/-- A plain transaction at a memory that is not MRAM is a write or a read of its bytes. -/
theorem transEffect_plain {t : Trans} (use : t.use = .plain) (regs : t.target ≠ .regs) (mram : ∀ b, t.target ≠ .mram b) (v : State) :
    transEffect t v = (if t.write then ([], targetWrite t.target t.addr t.data (memYields t.target t.master v))
      else (targetRead (memYields t.target t.master v) t.target t.addr t.len, memYields t.target t.master v)) := by
  have mem : transEffect t v = memEffect t (memYields t.target t.master v) := by
    unfold transEffect
    dsimp only
    split
    · next h => exact absurd h regs
    · next b h => exact absurd h (mram b)
    · rfl
  have data (w : State) : transData w t = t.data := by
    unfold transData
    rw [use]
  rw [mem]
  unfold memEffect
  dsimp only
  rw [use, portWrite_of_ne_mram mram, data]

theorem matrixReply_plain {t : Trans} (use : t.use = .plain) (data : List Byte) (s : State) :
    matrixReply t data none s = { s with replies := s.replies ++ [⟨t.master, t.id, t.write, data, none⟩] } := by
  unfold matrixReply giveReply
  rw [use]

theorem failTrans_goes {n : Nat} {t : Trans} {s : State} (h : replyWaits s t = false) (k : BusKind) : failTrans n t k s = endWith n t k s :=
  if_neg (by simp [h])

section
variable {n : Nat} {t : Trans} {s : State} (ht : s.trans[n]? = some t) (err : transError s t = none) (goes : replyWaits s t = false) (next : placed s n t true = true)
include ht err goes next

/-- A transaction that its target has given no error ends at its limit, with its effect or without it (11 R294). -/
theorem matrixTimesOut_cases : matrixTimesOut n s = endWith n t .timeout (tick (reach (t.since + timeLimit t.target) s)) ∨
    matrixTimesOut n s = endTrans n t (fun s => ((errorData t, some .timeout), (transEffect t s).2)) (tick (reach (t.since + timeLimit t.target) s)) := by
  unfold matrixTimesOut
  rw [ht]
  dsimp only
  rw [if_neg (by simp [err, goes, next])]
  generalize (freeVal 1 (reach (t.since + timeLimit t.target) s) == 1 && t.granted && _) = took
  cases took with
  | false => exact .inl rfl
  | true => exact .inr rfl

end

/-- Settles O34. -/
theorem matrixAnswersWhatItTook : Obligations.MatrixAnswersWhatItTook := by
  unfold Obligations.MatrixAnswersWhatItTook
  refine ⟨fun m id write addr data s up => congrArg Host.Outcome.next (whileUp_of_up _ up), fun n t s u hu ht late a => congrArg Host.Outcome.next (matrixAnswer_late hu ht late a),
    fun n t s u v hu ht inTime taken hv => ⟨fun e a err => congrArg Host.Outcome.next ?_, fun err room => ⟨?_, fun use regs mram w r hw hr => ?_, fun read collide few => ?_,
      fun read collide many goes => ?_, fun read ecc goes => ?_⟩⟩, fun n t s u up ht err goes next hu => ?_⟩
  · rw [matrixAnswer_error hu ht inTime taken err, hv]
    rfl
  · rw [hv]
    exact congrArg Host.Outcome.next (matrixAnswer_served hu ht inTime taken err room .ok)
  · refine congrArg Host.Outcome.next ((matrixAnswer_served hu ht inTime taken err room .ok).trans ?_)
    dsimp only
    unfold doneTrans endTrans
    dsimp only
    rw [← hv, matrixReply_plain use, transEffect_plain use regs mram, ← hw, ← hr]
  · refine congrArg Host.Outcome.next ((matrixAnswer_served hu ht inTime taken err room .busy).trans ?_)
    dsimp only
    rw [if_neg (by simp [read, collide]), if_neg (Nat.not_le.mpr few)]
  · refine congrArg Host.Outcome.next ((matrixAnswer_served hu ht inTime taken err room .busy).trans ?_)
    dsimp only
    rw [if_neg (by simp [read, collide]), if_pos many, failTrans_goes goes, hv]
    unfold endWith endTrans errorData
    dsimp only
    rw [if_neg (by simp [read])]
  · refine congrArg Host.Outcome.next ((matrixAnswer_served hu ht inTime taken err room .ecc).trans ?_)
    dsimp only
    rw [if_neg (by simp [transReads, read, ecc]), failTrans_goes goes]
  · have run : exec (.matrixTimeout n) s = .next (matrixTimesOut n s) := congrArg Host.Outcome.next (whileUp_of_up _ up)
    have limit : u = tick (reach (t.since + timeLimit t.target) s) := hu
    rw [run, limit]
    exact (matrixTimesOut_cases ht err goes next).imp (congrArg _) (congrArg _)

end Sys2Proof.Machine
end

-- ==== the input of the Weld engine ====
section
/-! PROOFS. The commands of the Weld engine at the front of its input, and the end of a record, a replay and a region's search (spec 10 R268-R271). -/

-- One theorem at a time: elaborating them in parallel takes the memory of many threads.
set_option Elab.async false

namespace Sys2Proof.Machine

/-! ### The region table in memory -/

theorem bankOnly_putEntries (rs : List WeldRegion) (a : Nat) (s : State) : BankOnly s (putEntries rs a s) := by
  induction rs generalizing a s with
  | nil => exact BankOnly.refl s
  | cons r rs ih => exact (bankOnly_targetWrite ..).trans (ih ..)

theorem weld_syncTable (k j : Nat) (s : State) : weld (syncTable k s) j = weld s j := by
  unfold syncTable
  dsimp only
  split
  · exact congrArg (smGet {} · j) ((congrArg State.welds (bankOnly_putEntries ..)).trans rfl)
  · rfl

/-! ### Commands that wait -/

/-- Nothing is taken from the input: the engine is busy or has nothing there. -/
def weldRests (s : State) (k : Nat) : Prop :=
  weldFree (weld s k) = false ∨ weldRuns s k = false ∨ (weld s k).solving ≠ none ∨ (weld s k).input = []

theorem weldCommand_rests {k : Nat} {s : State} (h : weldRests s k) : weldCommand k s = s := by
  unfold weldCommand
  dsimp only
  rcases h with h | h | h | h
  · exact if_pos (by simp [h])
  · exact if_pos (by simp [h])
  · exact if_pos (by simp [Option.isSome_iff_ne_none.mpr h])
  · rw [h]
    exact ite_id _

theorem weldCommands_rests {k : Nat} {s : State} (h : weldRests s k) (n : Nat) : weldCommands k n s = s := by
  induction n with
  | zero => rfl
  | succ n ih => exact (congrArg _ (weldCommand_rests h)).trans ih

section
variable {k : Nat} {s : State}

/-- The state in which an item has joined the input. -/
def pushed (k : Nat) (i : WeldItem) (s : State) : State := setWeld k { weld s k with input := (weld s k).input ++ [i] } s

theorem weldRests_pushed {i : WeldItem} (h : weldFree (weld s k) = false ∨ weldRuns s k = false ∨ (weld s k).solving ≠ none) : weldRests (pushed k i s) k := by
  unfold weldRests pushed
  rw [weld_setWeld_same]
  rcases h with h | h | h
  · exact .inl h
  · exact .inr (.inl h)
  · exact .inr (.inr (.inl h))

/-- The command that stands alone in the input of a free engine. -/
theorem weldCommand_front {i : WeldItem} {w : Weld} {u : State} (hw : weld u k = w) (input : w.input = [i]) (free : weldFree w = true) (runs : weldRuns u k = true)
    (none : w.solving = none) : weldCommand k u = (match i with
      | .start => setWeld k { w with input := [], st := 1 } u
      | .stop => syncTable k (setWeld k { w with input := [], st := 0 } u)
      | .solve n =>
        let visit := (w.regions.filter (fun r => r.site == n && (r.state == 1 || r.state == 5))).map (fun r => r.region)
        let s := setWeld k { w with input := [], solving := if visit.isEmpty then Option.none else some n, toVisit := visit } u
        if visit.isEmpty then raiseBit (wdPage k) 0 s else s
      | .clear n =>
        let left := w.regions.filter (fun r => r.site != n)
        wmSample (wdPage k) 0 left.length (syncTable k (setWeld k { w with input := [], regions := left, flags := smPut 0 w.flags n 0 } u))
      | _ => u) := by
  subst hw
  unfold weldCommand
  dsimp only
  refine (if_neg (by simp [free, runs, none])).trans ?_
  cases i <;> simp only [input]

end

/-! ### What a write of WD_CMD asks for -/

theorem fld_weldCmd (op site : Nat) (h : op < 8) (hs : site < 128) : fld (w32 (256 * site + op)) 2 0 = op ∧ fld (w32 (256 * site + op)) 14 8 = site := by
  unfold fld w32
  rw [BitVec.toNat_ofNat]
  constructor <;> omega

theorem weldCmdWrite_stop (k : Nat) (m : Master) (s : State) : weldCmdWrite k m 2 s = weldCommands k ((weld s k).input.length + 2) (pushed k .stop s) := rfl

theorem weldCmdWrite_clear (k : Nat) (m : Master) (site : BitVec 7) (s : State) : weldCmdWrite k m (w32 (256 * site.toNat + 4)) s =
    weldCommands k ((weld s k).input.length + 2) (pushed k (.clear site.toNat) s) := by
  obtain ⟨op, at_⟩ := fld_weldCmd 4 site.toNat (by decide) site.isLt
  unfold weldCmdWrite
  dsimp only
  rw [op, at_]
  rfl

theorem weldCmdWrite_solve (k : Nat) (m : Master) (site : BitVec 7) (s : State) : weldCmdWrite k m (w32 (256 * site.toNat + 3)) s =
    if solveBusy (weld s k) then rejectWrite (wdPage k) 0x704 m s else weldCommands k ((weld s k).input.length + 2) (pushed k (.solve site.toNat) s) := by
  obtain ⟨op, at_⟩ := fld_weldCmd 3 site.toNat (by decide) site.isLt
  unfold weldCmdWrite
  dsimp only
  rw [op, at_]
  rfl

theorem weldStart_pushes {k : Nat} {m : Master} {s : State} (st : weldSt s k = 0) (ran : (weld s k).st ≠ 3) :
    weldCmdWrite k m 1 s = weldCommands k ((weld s k).input.length + 2) (pushed k .start s) :=
  (if_pos (.inl st)).trans (if_neg ran)

section
variable {k : Nat} {s : State} {m : Master} {w : Weld} (hw : w = weld s k) (input : w.input = []) (free : weldFree w = true) (runs : weldRuns s k = true)
  (none : w.solving = none)
include hw input free runs none

omit free runs none in
/-- A command that joins the empty input of a free engine takes effect at once. -/
theorem weldCommands_pushed {i : WeldItem} {t : State} (first : weldCommand k (pushed k i s) = t) (rests : weldRests t k) :
    weldCommands k ((weld s k).input.length + 2) (pushed k i s) = t := by
  rw [← hw, input]
  show weldCommands k 1 (weldCommand k (pushed k i s)) = t
  rw [first, weldCommands_rests rests]

theorem weldCommand_pushed (i : WeldItem) : weldCommand k (pushed k i s) = (match i with
      | .start => setWeld k { w with st := 1 } s
      | .stop => syncTable k (setWeld k { w with st := 0 } s)
      | .solve n =>
        let visit := (w.regions.filter (fun r => r.site == n && (r.state == 1 || r.state == 5))).map (fun r => r.region)
        let s := setWeld k { w with solving := if visit.isEmpty then Option.none else some n, toVisit := visit } s
        if visit.isEmpty then raiseBit (wdPage k) 0 s else s
      | .clear n =>
        let left := w.regions.filter (fun r => r.site != n)
        wmSample (wdPage k) 0 left.length (syncTable k (setWeld k { w with regions := left, flags := smPut 0 w.flags n 0 } s))
      | _ => pushed k i s) := by
  have front := weldCommand_front (k := k) (i := i) (w := { w with input := [i] }) (u := pushed k i s) (by rw [pushed, weld_setWeld_same, ← hw, input]; rfl) rfl
    free runs none
  have empty : ({ w with input := [] } : Weld) = w := by rw [← input]
  refine front.trans ?_
  cases i <;> simp only [pushed, setWeld_setWeld_same, ← input]

theorem start_now : weldCommands k ((weld s k).input.length + 2) (pushed k .start s) = setWeld k { w with st := 1 } s :=
  weldCommands_pushed hw input (weldCommand_pushed hw input free runs none .start)
    (.inr (.inr (.inr (by rw [weld_setWeld_same]; exact input))))

theorem stop_now : weldCommands k ((weld s k).input.length + 2) (pushed k .stop s) = syncTable k (setWeld k { w with st := 0 } s) :=
  weldCommands_pushed hw input (weldCommand_pushed hw input free runs none .stop)
    (.inr (.inr (.inr (by rw [weld_syncTable, weld_setWeld_same]; exact input))))

theorem clear_now (n : Nat) : weldCommands k ((weld s k).input.length + 2) (pushed k (.clear n) s) =
    wmSample (wdPage k) 0 (w.regions.filter (fun r => r.site != n)).length (syncTable k (setWeld k
      { w with regions := w.regions.filter (fun r => r.site != n), flags := smPut 0 w.flags n 0 } s)) :=
  weldCommands_pushed hw input (weldCommand_pushed hw input free runs none (.clear n))
    (.inr (.inr (.inr (by rw [weld_wmSample, weld_syncTable, weld_setWeld_same]; exact input))))

theorem solve_now {n : Nat} (idle : ∀ r ∈ w.regions, r.site = n → r.state ≠ 1 ∧ r.state ≠ 5) :
    weldCommands k ((weld s k).input.length + 2) (pushed k (.solve n) s) = raiseBit (wdPage k) 0 (setWeld k { w with toVisit := [] } s) := by
  have visit : (w.regions.filter (fun r => r.site == n && (r.state == 1 || r.state == 5))).map (fun r => r.region) = [] := by
    rw [List.map_eq_nil_iff, List.filter_eq_nil_iff]
    intro r hr
    simpa using idle r hr
  refine weldCommands_pushed hw input ((weldCommand_pushed hw input free runs none (.solve n)).trans ?_)
    (.inr (.inr (.inr (by rw [weld_raiseBit, weld_setWeld_same]; exact input))))
  dsimp only
  rw [visit]
  have same : ({ w with solving := Option.none, toVisit := [] } : Weld) = { w with toVisit := [] } := by rw [← none]
  exact congrArg (fun w => raiseBit (wdPage k) 0 (setWeld k w s)) same

end

/-! ### The end of a region's search -/

section
variable {k n i : Nat} {exceeded : Bool} {r : WeldRegion} {w : Weld} {g : Geometry} {s : State} (hw : w = weld s k) (input : w.input = [])
  (solving : w.solving = some n) (last : w.toVisit = [i]) (found : findRegion w n i = some r) (geo : g = geometry s k r.geo) (runs : weldRuns s k = true)

omit found geo runs solving in
include hw input last in
/-- The visit of the last region ends the SOLVE. -/
theorem solveStep_last (r : WeldRegion) : solveStep k r s =
    syncTable k (raiseBit (wdPage k) 0 (setWeld k { putRegion r w with toVisit := [], solving := none } s)) := by
  have visited : modWeld k (fun w => { putRegion r w with toVisit := w.toVisit.tail }) s = setWeld k { putRegion r w with toVisit := [] } s := by
    rw [modWeld, ← hw, last]
    rfl
  unfold solveStep
  dsimp only
  rw [visited, weld_setWeld_same]
  refine congrArg (syncTable k) ?_
  have ended : (if ({ putRegion r w with toVisit := [] } : Weld).toVisit.isEmpty then raiseBit (wdPage k) 0 (modWeld k (fun w => { w with solving := none })
      (setWeld k { putRegion r w with toVisit := [] } s)) else setWeld k { putRegion r w with toVisit := [] } s) =
      raiseBit (wdPage k) 0 (setWeld k { putRegion r w with toVisit := [], solving := none } s) := by
    rw [modWeld, weld_setWeld_same, setWeld_setWeld_same]
    exact if_pos rfl
  rw [ended]
  exact weldCommands_rests (.inr (.inr (.inr (by rw [weld_raiseBit, weld_setWeld_same]; exact input)))) _

include hw input solving last found geo runs

theorem solveRegion_last (ready : w.searching = true ∨ (weldFree w = true ∧ g.hsolve = false ∧ (r.state = 1 ∨ r.state = 5))) :
    solveRegion k exceeded s = syncTable k (raiseBit (wdPage k) 0 (setWeld k
      { putRegion (if exceeded = true ∧ g.sbud ≠ 0 then { r with state := 5 } else searchRegion g r) w with toVisit := [], solving := none, searching := false } s)) := by
  unfold solveRegion
  dsimp only
  rw [← hw, solving, last]
  dsimp only
  by_cases searching : w.searching = true
  · rw [if_pos (by simp [searching, runs]), found]
    dsimp only
    have left : modWeld k (fun w => { w with searching := false }) s = setWeld k { w with searching := false } s := by rw [modWeld, ← hw]
    have same : geometry (modWeld k (fun w => { w with searching := false }) s) k r.geo = g := geo.symm
    rw [same, left, solveStep_last (w := { w with searching := false }) (by rw [weld_setWeld_same]) input last, setWeld_setWeld_same]
    rfl
  · obtain ⟨free, hook, open_⟩ := ready.resolve_left searching
    rw [if_neg (by simp [searching]), if_neg (by simp [free, runs]), found]
    dsimp only
    rw [← geo, hook]
    rw [if_neg (by rcases open_ with h | h <;> simp [h]), if_neg (by simp), if_neg (by simp)]
    have notSearching : w.searching = false := by simpa using searching
    rw [solveStep_last hw input last, ← notSearching]
    rfl

end

/-! ### Replays, summaries and records -/

/-- The counts of a site's regions by state are latched one after the other. -/
def latchCounts (k site n : Nat) (s : State) : State :=
  forUpTo n s (fun i s => wrReg (wdPage k) (0x720 + 4 * i) (w32 (stateCount (weld s k) site (i + 1))) s)

section
variable (k site : Nat) (s : State)

theorem latchCounts_facts {n : Nat} (hn : n ≤ 5) : (latchCounts k site n s).welds = s.welds ∧ (latchCounts k site n s).mem = s.mem ∧ (latchCounts k site n s).chans = s.chans ∧
    rdReg (latchCounts k site n s) (wdPage k) 0x71C = rdReg s (wdPage k) 0x71C ∧
    ∀ i < n, rdReg (latchCounts k site n s) (wdPage k) (0x720 + 4 * i) = w32 (stateCount (weld s k) site (i + 1)) := by
  induction n with
  | zero => exact ⟨rfl, rfl, rfl, rfl, fun i hi => absurd hi (Nat.not_lt_zero i)⟩
  | succ n ih =>
    obtain ⟨welds, mem, chans, flags, counts⟩ := ih (by omega)
    have step : latchCounts k site (n + 1) s = wrReg (wdPage k) (0x720 + 4 * n) (w32 (stateCount (weld (latchCounts k site n s) k) site (n + 1))) (latchCounts k site n s) := rfl
    have table : weld (latchCounts k site n s) k = weld s k := by unfold weld; rw [welds]
    rw [step, table]
    refine ⟨welds, mem, chans, (rdReg_wrReg_offset (by omega) (by decide) (by omega) ..).trans flags, fun i hi => ?_⟩
    by_cases last : i = n
    · rw [last]
      exact rdReg_wrReg_same ..
    · exact (rdReg_wrReg_offset (by omega) (by omega) (by omega) ..).trans (counts i (by omega))

end

/-- Settles O32. -/
theorem weldTakesRecordsAndCommandsInOrder : Obligations.WeldTakesRecordsAndCommandsInOrder := by
  unfold Obligations.WeldTakesRecordsAndCommandsInOrder
  refine ⟨fun k m s w hw takes => ⟨fun h0 h3 => congrArg Host.Outcome.next ?_, fun hst st => congrArg Host.Outcome.next ?_, fun busy => ⟨fun hst st => congrArg Host.Outcome.next ?_,
      congrArg Host.Outcome.next ?_, fun site => congrArg Host.Outcome.next ?_⟩, fun input free runs none => ⟨fun st => congrArg Host.Outcome.next ?_, congrArg Host.Outcome.next ?_,
      fun site => ⟨congrArg Host.Outcome.next ?_, fun idle => congrArg Host.Outcome.next ?_⟩⟩, fun site busy => congrArg Host.Outcome.next ?_, fun v inUse => congrArg Host.Outcome.next ?_,
      fun v free => ⟨fun zero => congrArg Host.Outcome.next ?_, fun some_ => congrArg Host.Outcome.next ?_⟩, fun site => ?_⟩,
    fun k s w hw up runs => ⟨fun st input => congrArg Host.Outcome.next ?_, fun lp r v free input hv => congrArg Host.Outcome.next ?_, fun b i n v free input hv => congrArg Host.Outcome.next ?_,
      fun n i r g exceeded input solving last found geo ready => congrArg Host.Outcome.next ((whileLanes_of_up _ up).trans ?_)⟩⟩
  · exact (accessWrite_weldCmd k.isLt 1 takes).trans (if_neg (by simp [h0, h3]))
  · rw [hw] at st ⊢
    exact (accessWrite_weldCmd k.isLt 1 takes).trans ((if_pos hst).trans (if_pos st))
  · rw [hw] at busy st ⊢
    exact (accessWrite_weldCmd k.isLt 1 takes).trans ((weldStart_pushes hst st).trans (weldCommands_rests (weldRests_pushed busy) _))
  · rw [hw] at busy ⊢
    exact (accessWrite_weldCmd k.isLt 2 takes).trans ((weldCmdWrite_stop ..).trans (weldCommands_rests (weldRests_pushed busy) _))
  · rw [hw] at busy ⊢
    exact (accessWrite_weldCmd k.isLt _ takes).trans ((weldCmdWrite_clear ..).trans (weldCommands_rests (weldRests_pushed busy) _))
  · have stopped : weldSt s k.val = 0 := (if_pos runs).trans (by rw [← hw, st])
    exact (accessWrite_weldCmd k.isLt 1 takes).trans ((weldStart_pushes stopped (by rw [← hw, st]; decide)).trans (start_now hw input free runs none))
  · exact (accessWrite_weldCmd k.isLt 2 takes).trans ((weldCmdWrite_stop ..).trans (stop_now hw input free runs none))
  · exact (accessWrite_weldCmd k.isLt _ takes).trans ((weldCmdWrite_clear ..).trans (clear_now hw input free runs none _))
  · have idleSolve : solveBusy (weld s k.val) = false := by
      rw [← hw]
      simp [solveBusy, none, input]
    exact (accessWrite_weldCmd k.isLt _ takes).trans ((weldCmdWrite_solve ..).trans ((if_neg (by simp [idleSolve])).trans (solve_now hw input free runs none idle)))
  · exact (accessWrite_weldCmd k.isLt _ takes).trans ((weldCmdWrite_solve ..).trans (if_pos (by rw [← hw]; exact busy)))
  · exact (accessWrite_replay k.isLt v takes).trans (if_pos inUse)
  · exact (accessWrite_replay k.isLt v takes).trans ((if_neg (Bool.eq_false_iff.mp free)).trans (if_pos zero))
  · rw [hw]
    exact (accessWrite_replay k.isLt v takes).trans ((if_neg (Bool.eq_false_iff.mp free)).trans (if_neg some_))
  · have picked : fld (w32 site.toNat) 6 0 = site.toNat := by
      have := site.isLt
      unfold fld w32
      rw [BitVec.toNat_ofNat]
      omega
    have run : exec (.weldSummarySelect k m site) s = .next (latchCounts k.val site.toNat 5 (wrReg (wdPage k.val) 0x71C (w32 (smGet 0 w.flags site.toNat)) (wrReg (wdPage k.val) 0x718 (w32 site.toNat) s))) := by
      refine congrArg Host.Outcome.next ((accessWrite_sumsel k.isLt _ takes).trans ?_)
      unfold sumselWrite
      dsimp only
      rw [picked, hw]
      rfl
    obtain ⟨welds, mem, chans, flags, counts⟩ := latchCounts_facts k.val site.toNat (wrReg (wdPage k.val) 0x71C (w32 (smGet 0 w.flags site.toNat)) (wrReg (wdPage k.val) 0x718 (w32 site.toNat) s)) (Nat.le_refl 5)
    refine ⟨_, run, flags.trans (rdReg_wrReg_same ..), fun i => (counts i i.isLt).trans (by rw [hw]; rfl), welds, mem, chans⟩
  · have start : weldStarted k.val s = weldCommands k.val ((weld (raiseBit (wdPage k.val) 4 (syncTable k.val (setWeld k.val { w with st := 2, regions := [] } s))) k.val).input.length + 1)
        (wmSample (wdPage k.val) 0 0 (raiseBit (wdPage k.val) 4 (syncTable k.val (setWeld k.val { w with st := 2, regions := [] } s)))) := by
      rw [hw]
      exact if_neg (by rw [← hw, st, runs]; simp)
    refine (whileLanes_of_up _ up).trans (start.trans (weldCommands_rests (.inr (.inr (.inr ?_))) _))
    rw [weld_wmSample, weld_raiseBit, weld_syncTable, weld_setWeld_same]
    exact input
  · have taken : weldRecord k.val s = syncTable k.val (weldCommands k.val ((weld v k.val).input.length + 1) v) := by
      unfold weldRecord
      dsimp only
      refine (if_neg (by simp [← hw, free, runs])).trans ?_
      simp only [← hw, input, hv]
      rfl
    exact (whileLanes_of_up _ up).trans taken
  · have taken : weldRecord k.val s = syncTable k.val (weldCommands k.val ((weld v k.val).input.length + 1) v) := by
      unfold weldRecord
      dsimp only
      refine (if_neg (by simp [← hw, free, runs])).trans ?_
      simp only [← hw, input, hv]
    exact (whileLanes_of_up _ up).trans taken
  · exact solveRegion_last hw input solving last found geo runs ready

end Sys2Proof.Machine
end

-- ==== Tongs and snapshots ====
section
/-! PROOFS. The registers, bursts and ends of a Tongs transfer, and what a snapshot latches and writes (spec 11 R305-R311, 12 R332, R333). -/

-- One theorem at a time: elaborating them in parallel takes the memory of many threads.
set_option Elab.async false

namespace Sys2Proof.Machine

/-! ### TG_CTLSTAT -/

/-- The control register of a channel. -/
def tgCtl (c : Nat) : Nat := 0x71C + 0x20 * c

theorem find_tgCtl : ∀ c : Fin 8, (findReg (regsOf .tongs) (tgCtl c.val)).isSome = true := by decide

theorem accessWrite_tgCtl (c : Fin 8) {m : Master} {s : State} (v : Word) (h : Takes s tongsPage m) :
    accessWrite tongsPage (tgCtl c.val) m v s = tgCtlWrite c.val m v s := by
  have hc := c.isLt
  obtain ⟨r, hr⟩ := Option.isSome_iff_exists.mp (find_tgCtl c)
  have place : (tgCtl c.val - 0x700) / 0x20 = c.val ∧ tgCtl c.val % 0x20 = 0x1C := by
    unfold tgCtl
    omega
  refine (accessWrite_block v h pageAt_tongsPage hr (by unfold tgCtl; omega) (fun h => nomatch h) (by unfold tgCtl; omega) (by unfold tgCtl; omega)).trans ?_
  show (if tgCtl c.val % 0x20 = 0x1C then tgCtlWrite ((tgCtl c.val - 0x700) / 0x20) m v s else _) = _
  rw [if_pos place.2, place.1]

section
variable {c : Nat} (hc : c < 8) (f : Word → Word) (s : State)
include hc

theorem tgAddr_modCtl {i : Nat} (hi : i = 0 ∨ i = 8) : tgAddr (modReg tongsPage (tgCtl c) f s) c i = tgAddr s c i := by
  unfold tgAddr tgCtl
  rw [rdReg_modReg_offset (by omega) (by omega) (by omega), rdReg_modReg_offset (by omega) (by omega) (by omega)]

theorem tgLen_modCtl : tgLen (modReg tongsPage (tgCtl c) f s) c = tgLen s c := by
  unfold tgLen tgCtl
  rw [rdReg_modReg_offset (by omega) (by omega) (by omega)]

theorem executing_modCtl (b : Nat) : executing (modReg tongsPage (tgCtl c) f s) b = executing s b := by
  have active : activePair (modReg tongsPage (tgCtl c) f s) = activePair s := by
    unfold activePair tgCtl
    congr 1
    funext p
    rw [rdReg_modReg_offset (by omega) (by omega) (by omega)]
  unfold executing
  rw [active]
  rfl

theorem tgRefused_modCtl : tgRefused (modReg tongsPage (tgCtl c) f s) c = tgRefused s c := by
  unfold tgRefused
  rw [tgAddr_modCtl hc f s (.inl rfl), tgAddr_modCtl hc f s (.inr rfl), tgLen_modCtl hc f s]
  simp only [executing_modCtl hc f s]

end

theorem tgStart_eq (c : Nat) (s : State) : tgStart c false false s =
    if tgRefused s c = 0 then tgIssueAll (setTg c { running := true, abort := (tgChan s c).abort } s) else tgFails c (tgRefused s c) s := by
  unfold tgStart
  split
  · next h => exact (if_pos h).symm
  · next h => exact (if_neg h).symm

theorem bits_go (v : Word) : bit (setBit v 31 true) 31 = true ∧ fld (setBit v 31 true) 8 0 = fld v 8 0 ∧ ∀ i < 31, bit (setBit v 31 true) i = bit v i :=
  ⟨bit_setBit_same _ _ (by decide), fld_setFld_ne v 1 (by decide) (by decide) (by decide) (.inr (by decide)), fun i hi => bit_setBit_ne v true (by decide) (by omega) (by omega)⟩

theorem setBit_bit (w : Word) {i : Nat} (hi : i < 32) : setBit w i (bit w i) = w := by
  refine BitVec.eq_of_getLsbD_eq fun j hj => ?_
  show bit (setBit w i (bit w i)) j = bit w j
  by_cases h : j = i
  · rw [h, bit_setBit_same _ _ hi]
  · exact bit_setBit_ne _ _ hi hj h

/-- What ABORT writes: the chain and interrupt bits as they read, and ABORT. -/
theorem bits_abort (r : Word) : bit ((r &&& 0x30000000) ||| 0x40000000) 31 = false ∧ bit ((r &&& 0x30000000) ||| 0x40000000) 30 = true ∧ bit ((r &&& 0x30000000) ||| 0x40000000) 19 = false ∧
    bit ((r &&& 0x30000000) ||| 0x40000000) 29 = bit r 29 ∧ bit ((r &&& 0x30000000) ||| 0x40000000) 28 = bit r 28 := by
  unfold bit
  simp

/-! ### Bursts -/

theorem lowBit_of_odd_eighths {m : Nat} (h : m % 16 = 8) : lowBit m = 8 := by
  unfold lowBit
  repeat rw [if_neg (by omega)]
  exact if_pos h

/-- A burst ends at a boundary of 256 bytes, or where the transfer does, and is aligned to its own length (11 R306). -/
theorem burstLen_facts {a d n : Nat} (pos : 0 < n) (hn : n % 8 = 0) (ha : a % 8 = 0) (hd : d % 8 = 0) : 0 < burstLen a d n ∧ burstLen a d n ≤ n ∧ burstLen a d n % 8 = 0 ∧
    a % 256 + burstLen a d n ≤ 256 ∧ d % 256 + burstLen a d n ≤ 256 ∧ a % lowBit (burstLen a d n) = 0 ∧ d % lowBit (burstLen a d n) = 0 := by
  have bound : 0 < min n (min (256 - a % 256) (256 - d % 256)) ∧ min n (min (256 - a % 256) (256 - d % 256)) ≤ n ∧ min n (min (256 - a % 256) (256 - d % 256)) % 8 = 0 ∧
      a % 256 + min n (min (256 - a % 256) (256 - d % 256)) ≤ 256 ∧ d % 256 + min n (min (256 - a % 256) (256 - d % 256)) ≤ 256 := by omega
  unfold burstLen
  dsimp only
  generalize min n (min (256 - a % 256) (256 - d % 256)) = m at bound ⊢
  obtain ⟨posM, le, eighths, inA, inD⟩ := bound
  split
  · next aligned => exact ⟨posM, le, eighths, inA, inD, aligned⟩
  · next aligned =>
    have even : m % 16 = 0 := by
      by_contra odd
      rw [lowBit_of_odd_eighths (by omega)] at aligned
      exact aligned ⟨ha, hd⟩
    rw [lowBit_of_odd_eighths (m := m - 8) (by omega)]
    omega

/-! ### Snapshots -/

theorem bankOnly_snapStore (ws : List (List Word)) (d : Nat) (s : State) : BankOnly s (snapStore ws d s).2 := by
  induction ws generalizing d s with
  | nil => exact BankOnly.refl s
  | cons w ws ih =>
    unfold snapStore
    split
    · exact BankOnly.refl s
    · exact (bankOnly_portWrite ..).trans (ih ..)

/-! ### The commands -/

/-- How a write of TG_CTLSTAT changes the register. -/
def ctlWritten (v w : Word) : Word :=
  let w := setBit (setBit w 29 (bit v 29)) 28 (bit v 28)
  if bit v 19 then setBit w 19 false else w

theorem tgCtlWrite_go {c : Nat} {m : Master} {v : Word} {s : State} (go : bit v 31 = true) (idle : (tgChan s c).running = false)
    (free : ¬ (c = 7 ∧ s.snap.running = true)) : tgCtlWrite c m v s =
      tgStart c false false (modReg tongsPage (tgCtl c) (fun w => setFld w 23 20 0) (modReg tongsPage (tgCtl c) (ctlWritten v) s)) := by
  refine (if_neg ?_).trans ((if_pos go).trans (congrArg (fun u => tgStart c false false (modReg tongsPage (tgCtl c) (fun w => setFld w 23 20 0) u)) (if_neg ?_)))
  · rintro ⟨-, h⟩
    rcases h with h | h
    · exact absurd h (by simp [idle])
    · exact free h
  · rintro ⟨-, h⟩
    exact absurd h (by simp [idle])

theorem tgCtlWrite_noGo {c : Nat} {m : Master} {v : Word} {s : State} (go : bit v 31 = false) : tgCtlWrite c m v s =
    if bit v 30 = true ∧ (tgChan s c).running = true then setTg c { tgChan s c with abort := true } (modReg tongsPage (tgCtl c) (ctlWritten v) s)
    else modReg tongsPage (tgCtl c) (ctlWritten v) s :=
  (if_neg (by rintro ⟨h, -⟩; exact absurd h (by simp [go]))).trans (if_neg (by simp [go]))

theorem rdRole_modReg_id {p o : Nat} {f : Word → Word} {s : State} (h : f (rdReg s p o) = rdReg s p o) (hp : p < 2 ^ 14) (ho : o < 2 ^ 12) (hb : bankable o = false) :
    RegsKept s (modReg p o f s) [] := by
  intro e q r hq hr _
  by_cases same : p = q ∧ o = r
  · obtain ⟨rfl, rfl⟩ := same
    have one (t : State) : rdRole t e p o = rdReg t p o := by
      simp [rdReg, rdRole, roleKey, hb]
    rw [one, one, rdReg_modReg_same, h]
  · exact rdRole_wrRole_ne hp hq ho hr same ..

section
variable {c : Fin 8} {m : Master} {s : State} (takes : Takes s tongsPage m)
include takes

/-- GO runs a channel that may run, or shows what R306 refuses. -/
theorem tgGo_runs {v : Word} (idle : (tgChan s c.val).running = false) (free : ¬ (c.val = 7 ∧ s.snap.running = true)) {u : State}
    (hu : u = modReg tongsPage (tgCtl c.val) (fun w => setFld w 23 20 0) (modReg tongsPage (tgCtl c.val) (ctlWritten v) s)) :
    accessWrite tongsPage (tgCtl c.val) m (setBit v 31 true) s =
      if tgRefused s c.val = 0 then tgIssueAll (setTg c.val { running := true, abort := (tgChan s c.val).abort } u) else tgFails c.val (tgRefused s c.val) u := by
  obtain ⟨go, -, same⟩ := bits_go v
  have written : ctlWritten (setBit v 31 true) = ctlWritten v := by
    funext w
    unfold ctlWritten
    rw [same 29 (by decide), same 28 (by decide), same 19 (by decide)]
  have refused : tgRefused u c.val = tgRefused s c.val := by
    rw [hu, tgRefused_modCtl c.isLt, tgRefused_modCtl c.isLt]
  have chan : tgChan u c.val = tgChan s c.val := by
    rw [hu, tgChan_modReg, tgChan_modReg]
  rw [accessWrite_tgCtl c _ takes, tgCtlWrite_go go idle free, written, ← hu, tgStart_eq, refused, chan]

/-- ABORT marks a running channel. -/
theorem tgAbort_marks : ∃ t, accessWrite tongsPage (tgCtl c.val) m ((rdReg s tongsPage (tgCtl c.val) &&& 0x30000000) ||| 0x40000000) s = t ∧
    tgChan t c.val = { tgChan s c.val with abort := (tgChan s c.val).abort || (tgChan s c.val).running } ∧ RegsKept s t [] ∧ t.mem = s.mem ∧ t.chans = s.chans := by
  have hc := c.isLt
  obtain ⟨noGo, abort, keep, irq, chain⟩ := bits_abort (rdReg s tongsPage (tgCtl c.val))
  have kept : RegsKept s (modReg tongsPage (tgCtl c.val) (ctlWritten ((rdReg s tongsPage (tgCtl c.val) &&& 0x30000000) ||| 0x40000000)) s) [] := by
    refine rdRole_modReg_id ?_ tongsPage_lt (by unfold tgCtl; omega) (by unfold bankable tgCtl; simp; omega)
    unfold ctlWritten
    rw [irq, chain, keep, setBit_bit _ (by decide), setBit_bit _ (by decide)]
    rfl
  refine ⟨_, rfl, ?_⟩
  rw [accessWrite_tgCtl c _ takes, tgCtlWrite_noGo noGo]
  have chan : tgChan (modReg tongsPage (tgCtl c.val) (ctlWritten ((rdReg s tongsPage (tgCtl c.val) &&& 0x30000000) ||| 0x40000000)) s) c.val = tgChan s c.val := tgChan_modReg ..
  have mem : (modReg tongsPage (tgCtl c.val) (ctlWritten ((rdReg s tongsPage (tgCtl c.val) &&& 0x30000000) ||| 0x40000000)) s).mem = s.mem := modReg_mem ..
  have chans : (modReg tongsPage (tgCtl c.val) (ctlWritten ((rdReg s tongsPage (tgCtl c.val) &&& 0x30000000) ||| 0x40000000)) s).chans = s.chans := modReg_chans ..
  generalize modReg tongsPage (tgCtl c.val) _ s = t at kept chan mem chans
  by_cases running : (tgChan s c.val).running = true
  · rw [if_pos ⟨abort, running⟩, tgChan_setTg_same, running, Bool.or_true]
    exact ⟨rfl, kept.rest rfl rfl rfl, mem, chans⟩
  · rw [if_neg (fun h => running h.2), chan, Bool.eq_false_iff.mpr running, Bool.or_false]
    exact ⟨rfl, kept, mem, chans⟩

end

section
variable {c : Nat} {s : State} {x : TongsChan} (hx : x = tgChan s c) (running : x.running = true) (fetching : x.chaining = false) (flight : tgFlight s c = 0) (data : x.data = [])
include hx running fetching flight data

theorem tongsEnd_quiet : tongsEnd c s =
    if x.abort then tgFails c 8 s
    else if x.acked < tgLen s c then s
    else if bit (rdReg s tongsPage (tgCtl c)) 28 ∧ !x.last then tgChain c (if x.irq then tgDone c s else s)
    else tgDone c (setTg c {} s) := by
  rw [hx] at *
  exact if_neg (by simp [running, fetching, flight, data])

end

theorem snapStart_eq {m : Master} {v : Word} {s u : State} {t : Nat} (takes : Takes s snapPage m) (ht : t = (if bit v 30 then rd64 s snapPage 0x714 * ns else s.now))
    (hu : u = modReg snapPage 0x71C (fun w => setFld w 3 0 0) (modReg snapPage 0x710 (fun w => setFld (setBit w 30 (bit v 30)) 8 0 (fld v 8 0)) s)) :
    accessWrite snapPage 0x710 m (setBit v 31 true) s =
      if s.snap.running = true ∨ (tgChan s 7).running = true ∨ fld v 8 0 = 0 ∨ 256 < fld v 8 0 ∨ fld (rdReg s snapPage 0x708) 10 0 ≠ 0 then rejectWrite snapPage 0x710 m s
      else if bit v 30 = true ∧ t < s.now + us then snapFails 2 u else { u with snap := { running := true, startAt := s.now, atT := t } } := by
  obtain ⟨go, count, same⟩ := bits_go v
  have time : rd64 u snapPage 0x714 = rd64 s snapPage 0x714 := by
    unfold rd64
    rw [hu, rdReg_modReg_offset (by decide) (by decide) (by decide), rdReg_modReg_offset (by decide) (by decide) (by decide),
      rdReg_modReg_offset (by decide) (by decide) (by decide), rdReg_modReg_offset (by decide) (by decide) (by decide)]
  have now : u.now = s.now := by rw [hu, modReg_now, modReg_now]
  rw [accessWrite_snapCtl _ takes]
  unfold snapCtlWrite
  dsimp only
  rw [go, count, same 30 (by decide), ← hu, time, now, ← ht]
  rfl

/-- A snapshot shows its instant and VALID, and raises DONE. -/
theorem snapDone_facts (t : State) (n : Nat) : ∀ u, u = raiseBit snapPage 0 (modReg snapPage 0x71C (fun w => setBit w 31 true)
      (wrReg snapPage 0x724 (w32 (n / 2 ^ 32)) (wrReg snapPage 0x720 (w32 n) { t with snap := {} }))) →
    u.snap = {} ∧ rdReg u snapPage 0x720 = w32 n ∧ rdReg u snapPage 0x724 = w32 (n / 2 ^ 32) ∧ bit (rdReg u snapPage 0x71C) 31 = true ∧
      bit (rdReg u snapPage 0x010) 0 = true ∧ u.mem = t.mem ∧ u.chans = t.chans := by
  rintro u rfl
  refine ⟨?_, ?_, ?_, ?_, bit_raiseBit_same _ (by decide) _, ?_, ?_⟩
  · rw [(pageOnly_raiseBit ..).snap_eq, modReg_snap, wrReg_snap, wrReg_snap]
  · rw [rdReg_raiseBit_offset (by decide) (by decide), rdReg_modReg_offset (by decide) (by decide) (by decide), rdReg_wrReg_offset (by decide) (by decide) (by decide), rdReg_wrReg_same]
  · rw [rdReg_raiseBit_offset (by decide) (by decide), rdReg_modReg_offset (by decide) (by decide) (by decide), rdReg_wrReg_same]
  · rw [rdReg_raiseBit_offset (by decide) (by decide), rdReg_modReg_same]
    exact bit_setBit_same _ _ (by decide)
  · rw [(pageOnly_raiseBit ..).mem_eq, modReg_mem, wrReg_mem, wrReg_mem]
  · rw [(pageOnly_raiseBit ..).chans_eq, modReg_chans, wrReg_chans, wrReg_chans]

section
variable {s : State} (running : s.snap.running = true)
include running

/-- The capture of a snapshot whose list can be read. -/
theorem snapCapture_latches {u w : State} {err : Option BusKind} (fresh : s.snap.captured = false) (waits : listWaits s = false) (hu : u = reach s.snap.atT s)
    (found : listError u err = none) (mapped : ∀ p ∈ snapList u, pageError u p ≠ some .decode) (split : hangSplits u (snapList u) u.now = false)
    (hw : w = publishFabric (forUpTo 8 (yields (fun p => (snapList u).contains p) u) publish)) :
    snapCapture err s = { w with free := w.free + 512, snap := { w.snap with atT := w.now, list := snapList u, captured := true, words := (snapList u).map (snapWords w) } } := by
  unfold snapCapture
  dsimp only
  rw [if_neg (by simp [running, fresh, waits]), ← hu, found]
  dsimp only
  rw [if_neg (by simpa using mapped), if_neg (by simp [split]), ← hw]

theorem snapCapture_stops {u : State} {err : Option BusKind} {x : Nat × Option BusKind} (fresh : s.snap.captured = false) (waits : listWaits s = false)
    (hu : u = reach s.snap.atT s) (found : listError u err = some x) : snapCapture err s = snapStops x.1 4 false x.2 u := by
  unfold snapCapture
  dsimp only
  rw [if_neg (by simp [running, fresh, waits]), ← hu, found]

/-- The end of a snapshot outside the banks that a pair executes from. -/
theorem snapComplete_stores (captured : s.snap.captured = true) (idle : ∀ b : Fin 2, executing s b.val = false) : snapComplete none s =
    (match (snapStore s.snap.words (snapAddr s 0x708) s).1 with
      | some x => snapStops x.1 256 true x.2 (snapStore s.snap.words (snapAddr s 0x708) s).2
      | none => raiseBit snapPage 0 (modReg snapPage 0x71C (fun w => setBit w 31 true) (wrReg snapPage 0x724 (w32 (s.snap.atT / ns / 2 ^ 32)) (wrReg snapPage 0x720 (w32 (s.snap.atT / ns))
          { (snapStore s.snap.words (snapAddr s 0x708) s).2 with snap := {} })))) := by
  have outside : ((List.range 2).any (fun b => executing s b && overlap (snapAddr s 0x708) (0x800 * s.snap.words.length) (0x2000000 + 0x400000 * b) 0x400000)) = false := by
    rw [List.any_eq_false]
    intro b hb
    rw [idle ⟨b, List.mem_range.mp hb⟩]
    simp
  unfold snapComplete
  dsimp only
  rw [if_neg (by simp [running, captured]), outside]
  refine (if_neg (by decide)).trans ?_
  rw [show (if (none : Option BusKind).isSome = true then freeVal 8 s % s.snap.words.length else s.snap.words.length) = s.snap.words.length from rfl,
    show (if (none : Option BusKind).isSome = true then tick s else s) = s from rfl, List.take_length]
  generalize snapStore s.snap.words (snapAddr s 0x708) s = r
  rcases r with ⟨_ | x, t⟩ <;> rfl

end

/-- Settles O36. -/
theorem tongsCopiesAndSnapshotsLatch : Obligations.TongsCopiesAndSnapshotsLatch := by
  unfold Obligations.TongsCopiesAndSnapshotsLatch
  refine ⟨fun c m s x o takes hx ho => ?_, fun a d n pos hn ha hd => burstLen_facts pos hn ha hd, fun c s x up hx running fetching flight data => ?_,
    fun m v s t takes ht u hu => congrArg Host.Outcome.next (snapStart_eq takes ht hu), fun s u err up running => ⟨fun w fresh waits hu found mapped split hw => congrArg Host.Outcome.next ?_,
      fun x fresh waits hu found => congrArg Host.Outcome.next ?_, fun captured idle r hr => ?_⟩⟩
  · obtain rfl : o = tgCtl c.val := ho
    rw [hx]
    refine ⟨fun v busy => congrArg Host.Outcome.next ?_, fun v idle free u hu => congrArg Host.Outcome.next (tgGo_runs takes idle free hu), ?_⟩
    · exact (accessWrite_tgCtl c _ takes).trans (if_pos ⟨(bits_go v).1, busy⟩)
    · obtain ⟨t, run, facts⟩ := tgAbort_marks (c := c) takes
      exact ⟨t, congrArg Host.Outcome.next run, facts⟩
  · have run : exec (.tongsTransferEnd c) s = .next (tongsEnd c.val s) := congrArg Host.Outcome.next (whileUp_of_up _ up)
    rw [run, tongsEnd_quiet hx running fetching flight data]
    refine ⟨fun abort => congrArg Host.Outcome.next (if_pos abort), fun abort acked last => congrArg Host.Outcome.next ?_, fun abort acked chain more => congrArg Host.Outcome.next ?_⟩
    · rw [if_neg (by simp [abort]), if_neg (by omega)]
      refine if_neg ?_
      rintro ⟨chain, more⟩
      rcases last with h | h
      · exact absurd chain (by rw [tgCtl, h]; decide)
      · exact absurd more (by simp [h])
    · rw [if_neg (by simp [abort]), if_neg (by omega)]
      exact if_pos ⟨chain, by simp [more]⟩
  · exact (whileUp_of_up _ up).trans (snapCapture_latches running fresh waits hu found mapped split hw)
  · exact (whileUp_of_up _ up).trans (snapCapture_stops running fresh waits hu found)
  · have run : exec (.snapshotComplete none) s = .next (snapComplete none s) := congrArg Host.Outcome.next (whileUp_of_up _ up)
    rw [run, snapComplete_stores running captured idle, ← hr]
    refine ⟨fun stored => ?_, fun x failed => by rw [failed]⟩
    have chans : r.2.chans = s.chans := by
      rw [hr]
      exact (bankOnly_snapStore ..).chans
    rw [stored]
    clear hr stored
    generalize r.2 = t at chans
    have facts := snapDone_facts t (s.snap.atT / ns) _ rfl
    dsimp only
    generalize raiseBit snapPage 0 _ = u at facts
    obtain ⟨snap, low, high, valid, irq, mem, same⟩ := facts
    exact ⟨u, rfl, snap, low, high, valid, irq, mem, same.trans chans⟩

end Sys2Proof.Machine
end

-- ==== service slots ====
section
/-! PROOFS. How the firmware takes up a service slot, and what its completion writes (spec 19 R475-R478, 18 R449). -/

-- One theorem at a time: elaborating them in parallel takes the memory of many threads.
set_option Elab.async false

namespace Sys2Proof.Machine

/-! ### Taking up a slot -/

section
variable {fab : Bool} {slot : Nat} {code : Nat → Bool} {f : State → State} {s : State} {again : Bool} (hagain : again = s.taken.contains ⟨fab, slot, .again⟩)
include hagain

theorem serve_idle (h : firmwareRuns s = false ∨ (slotBell s fab slot = false ∧ again = false) ∨ targetOn s (targetOf s (slotBase fab slot)) = false) :
    serve fab slot code f s = s := by
  refine if_pos ?_
  rw [← hagain]
  rcases h with h | ⟨h, g⟩ | h
  · simp [h]
  · simp [h, g]
  · simp [h]

variable (runs : firmwareRuns s = true) (rung : slotBell s fab slot = true ∨ again = true) (on : targetOn s (targetOf s (slotBase fab slot)) = true)
include runs rung on

theorem serve_eq : serve fab slot code f s =
    if !again && memByte s (slotBase fab slot + 0x100) = 1 then clearBell fab slot s
    else if !code (slotField s fab slot 0 2) then s
    else f (bankPut (firmwareMaster s) (slotBase fab slot + 0x100) [1] (clearBell fab slot { s with taken := s.taken.filter (· != ⟨fab, slot, .again⟩) })) := by
  unfold serve
  dsimp only
  rw [← hagain]
  exact if_neg (by rcases rung with h | h <;> simp [runs, on, h])

theorem serve_taken (first : again = false) (taken : memByte s (slotBase fab slot + 0x100) = 1) : serve fab slot code f s = clearBell fab slot s :=
  (serve_eq hagain runs rung on).trans (if_pos (by simp [first, taken]))

omit hagain runs rung on in
theorem untaken (fresh : again = true ∨ memByte s (slotBase fab slot + 0x100) ≠ 1) : ¬ (!again && decide (memByte s (slotBase fab slot + 0x100) = 1)) = true := by
  rcases fresh with h | h
  · simp [h]
  · rw [decide_eq_false h, Bool.and_false]
    decide

variable (fresh : again = true ∨ memByte s (slotBase fab slot + 0x100) ≠ 1)
include fresh

theorem serve_other (other : code (slotField s fab slot 0 2) = false) : serve fab slot code f s = s :=
  (serve_eq hagain runs rung on).trans ((if_neg (untaken fresh)).trans (if_pos (by simp [other])))

theorem serve_runs (this : code (slotField s fab slot 0 2) = true) : serve fab slot code f s =
    f (bankPut (firmwareMaster s) (slotBase fab slot + 0x100) [1] (clearBell fab slot { s with taken := s.taken.filter (· != ⟨fab, slot, .again⟩) })) :=
  (serve_eq hagain runs rung on).trans ((if_neg (untaken fresh)).trans (if_neg (by simp [this])))

end

/-! ### Writes of the firmware into its banks -/

theorem BankOnly.rest {s t : State} (h : BankOnly s t) (regs : t.regs = s.regs) : ∃ mem engines stale lines gap irq msix reports wms journal,
    t = { s with mem := mem, engines := engines, stale := stale, mramLines := lines, mramGap := gap, irqOut := irq, msixDue := msix, reports := reports, wms := wms, journal := journal } := by
  refine ⟨t.mem, t.engines, t.stale, t.mramLines, t.mramGap, t.irqOut, t.msixDue, t.reports, t.wms, t.journal, Eq.trans h ?_⟩
  rw [regs]

/-- The state t is s after the firmware has written an open bank. -/
structure BankWritten (s t : State) : Prop where
  only : BankOnly s t
  regs : t.regs = s.regs
  engines : ∀ k, MayLoseResv k s t

theorem BankWritten.refl (s : State) : BankWritten s s := ⟨BankOnly.refl s, rfl, fun k => mayLoseResv_of_engines k rfl⟩

theorem BankWritten.trans {s t u : State} (h : BankWritten s t) (g : BankWritten t u) : BankWritten s u :=
  ⟨h.only.trans g.only, g.regs.trans h.regs, fun k => (h.engines k).trans (g.engines k)⟩

section
variable {s t : State} (h : BankWritten s t)
include h

theorem BankWritten.bankOpen (m : Master) (a : Nat) : bankOpen t m a = Sys2Proof.Machine.bankOpen s m a := by
  obtain ⟨_, _, _, _, _, _, _, _, _, _, rfl⟩ := h.only.rest h.regs
  rfl

theorem BankWritten.firmwareMaster : firmwareMaster t = Sys2Proof.Machine.firmwareMaster s := by
  obtain ⟨_, _, _, _, _, _, _, _, _, _, rfl⟩ := h.only.rest h.regs
  rfl

theorem BankWritten.taken : t.taken = s.taken := (congrArg State.taken h.only :)

end

/-- A bank that takes its bytes at their own address. -/
theorem bankPut_open {m : Master} {a : Nat} {s : State} (bs : List Byte) (on : bankOpen s m a = true) (mram : ∀ b, portTarget s m a ≠ .mram b) :
    BankWritten s (bankPut m a bs s) ∧ ∀ x, memByte (bankPut m a bs s) x =
      if targetKey (portTarget s m a) a ≤ x ∧ x < targetKey (portTarget s m a) a + bs.length then bs.getD (x - targetKey (portTarget s m a) a) 0 else memByte s x := by
  have put : bankPut m a bs s = targetWrite (portTarget s m a) a bs s := (if_pos on).trans (portWrite_of_ne_mram mram ..)
  rw [put]
  exact ⟨⟨bankOnly_targetWrite .., regs_targetWrite .., fun k => mayLoseResv_targetWrite ..⟩, fun x => memByte_targetWrite ..⟩

/-! ### The completion of a slot -/

theorem targetOf_slot {fab : Bool} {slot a : Nat} (hs : slot < 32) (lo : slotBase fab slot ≤ a) (hi : a < slotBase fab slot + 0x200) (s : State) :
    targetOf s a = if fab then .fabricBank else .hostBank := by
  unfold slotBase at lo hi
  unfold targetOf
  cases fab with
  | true =>
    rw [if_neg (by simp at lo; omega), if_neg (by simp at lo; omega), if_neg (by simp at lo; omega)]
    exact if_pos (by simp at hi; omega)
  | false =>
    rw [if_neg (by simp at lo; omega), if_neg (by simp at lo; omega)]
    exact if_pos (by simp at hi; omega)

/-- A write into an open slot. -/
theorem bankPut_slot {fab : Bool} {slot a : Nat} {m : Master} {s : State} (hs : slot < 32) (lo : slotBase fab slot ≤ a) (hi : a < slotBase fab slot + 0x200)
    (on : bankOpen s m (slotBase fab slot + 0x100) = true) (bs : List Byte) :
    BankWritten s (bankPut m a bs s) ∧ ∀ x, memByte (bankPut m a bs s) x = if a ≤ x ∧ x < a + bs.length then bs.getD (x - a) 0 else memByte s x := by
  have same : portTarget s m a = portTarget s m (slotBase fab slot + 0x100) := by
    unfold portTarget
    rw [targetOf_slot hs lo hi, targetOf_slot (fab := fab) (slot := slot) hs (by omega) (by omega)]
  have open_ : bankOpen s m a = true := by
    rw [← on]
    unfold bankOpen
    rw [same]
  have target : portTarget s m a = .none ∨ portTarget s m a = (if fab then .fabricBank else .hostBank) := by
    unfold portTarget
    rw [targetOf_slot hs lo hi]
    exact (ite_eq_or_eq ..).symm
  have mram : ∀ b, portTarget s m a ≠ .mram b := by
    rcases target with h | h <;> rw [h] <;> cases fab <;> exact fun b h => nomatch h
  have key : targetKey (portTarget s m a) a = a := by
    rcases target with h | h <;> rw [h] <;> cases fab <;> rfl
  have put := bankPut_open bs open_ mram
  rw [key] at put
  exact put

/-- The checkpoint's place in the MC bank takes its bytes at their own address. -/
theorem bankPut_check {m : Master} {s : State} (on : bankOpen s m checkAt = true) (bs : List Byte) :
    BankWritten s (bankPut m checkAt bs s) ∧ ∀ x, memByte (bankPut m checkAt bs s) x =
      if checkAt ≤ x ∧ x < checkAt + bs.length then bs.getD (x - checkAt) 0 else memByte s x := by
  have window (mc : Bool) : windowTarget mc 0x3F0000 = .mcBank ∨ windowTarget mc 0x3F0000 = .none := by
    cases mc <;> decide
  have target : portTarget s m checkAt = .mcBank ∨ portTarget s m checkAt = .none := by
    unfold portTarget
    split
    · exact window _
    · exact .inr rfl
  have mram : ∀ b, portTarget s m checkAt ≠ .mram b := by
    rcases target with h | h <;> rw [h] <;> exact fun b h => nomatch h
  have key : targetKey (portTarget s m checkAt) checkAt = checkAt := by
    rcases target with h | h <;> rw [h] <;> rfl
  have put := bankPut_open bs on mram
  rw [key] at put
  exact put

/-- Bytes that stand in memory, read from the middle. -/
theorem memBytes_stands {s : State} {k : Nat} {bs : List Byte} (h : ∀ x, k ≤ x → x < k + bs.length → memByte s x = bs.getD (x - k) 0) (n : Nat) :
    ∀ i, i + n ≤ bs.length → memBytes s (k + i) n = (bs.drop i).take n := by
  induction n with
  | zero => exact fun i _ => List.take_zero.symm
  | succ n ih =>
    intro i hi
    have first : memByte s (k + i) = bs[i] := by
      rw [h (k + i) (by omega) (by omega), Nat.add_sub_cancel_left]
      exact List.getD_eq_getElem _ _ (by omega)
    rw [List.drop_eq_getElem_cons (by omega), List.take_succ_cons, ← ih (i + 1) (by omega), ← first]
    rfl

/-! ### The bits of the checkpoint -/

/-- The first n bits of the mask that a predicate gives. -/
def maskOf (p : Nat → Bool) (n : Nat) : Nat := forUpTo n 0 (fun i m => m + (p i).toNat * 2 ^ i)

theorem maskOf_lt (p : Nat → Bool) (n : Nat) : maskOf p n < 2 ^ n := by
  induction n with
  | zero => exact Nat.one_pos
  | succ n ih =>
    show maskOf p n + (p n).toNat * 2 ^ n < 2 ^ (n + 1)
    have : (p n).toNat ≤ 1 := Bool.toNat_le _
    rw [Nat.pow_succ]
    nlinarith

theorem bit_maskOf (p : Nat → Bool) {n i : Nat} (hi : i < n) : (maskOf p n / 2 ^ i % 2 == 1) = p i := by
  have value : maskOf p n / 2 ^ i % 2 = (p i).toNat := by
    induction n with
    | zero => exact absurd hi (Nat.not_lt_zero i)
    | succ n ih =>
      show (maskOf p n + (p n).toNat * 2 ^ n) / 2 ^ i % 2 = _
      by_cases last : i = n
      · rw [last, Nat.add_mul_div_right _ _ (Nat.two_pow_pos n), Nat.div_eq_of_lt (maskOf_lt p n), Nat.zero_add]
        exact Nat.mod_eq_of_lt (Bool.toNat_lt _)
      · have low : i < n := by omega
        rw [show (p n).toNat * 2 ^ n = ((p n).toNat * 2 ^ (n - i - 1) * 2) * 2 ^ i by rw [Nat.mul_assoc, Nat.mul_assoc, ← Nat.pow_succ', ← Nat.pow_add]; congr 2; omega,
          Nat.add_mul_div_right _ _ (Nat.two_pow_pos i), Nat.add_mul_mod_self_right, ih low]
  rw [value]
  cases p i <;> rfl

theorem takenMask_eq (s : State) (fab : Bool) : takenMask s fab = maskOf (fun i => s.taken.any (fun t => t.fab == fab && t.slot == i)) 32 := rfl

/-- The bytes of the checkpoint. -/
def checkBytes (s : State) : List Byte := leBytes 4 (takenMask s false) ++ leBytes 4 (takenMask s true)

/-- Where the checkpoint stands in memory, it holds the slots still to be completed. -/
theorem checkHolds_of_stands {s t : State} (h : ∀ x, checkAt ≤ x → x < checkAt + (checkBytes s).length → memByte t x = (checkBytes s).getD (x - checkAt) 0) (fab : Bool) (slot : Fin 32) :
    checkHolds t fab slot.val = s.taken.any (fun x => x.fab == fab && x.slot == slot.val) := by
  have bytes : memBytes t (checkAt + 4 * fab.toNat) 4 = leBytes 4 (takenMask s fab) := by
    rw [memBytes_stands h 4 _ (by rw [checkBytes, List.length_append, length_leBytes, length_leBytes]; cases fab <;> decide)]
    cases fab <;> rfl
  have small : takenMask s fab % 256 ^ 4 = takenMask s fab := Nat.mod_eq_of_lt (maskOf_lt ..)
  unfold checkHolds
  rw [bytes, leNat_leBytes, small, takenMask_eq]
  exact bit_maskOf _ slot.isLt

/-! ### What a completion leaves -/

/-- What a completion writes behind STATE. -/
def doneFields (fab : Bool) (slot result out0 : Nat) (s : State) : List Byte :=
  [BitVec.ofNat 8 result, 0, 0] ++ leBytes 4 (slotField s fab slot 4 4) ++ leBytes 8 out0 ++ List.replicate 240 0

theorem length_doneFields (fab : Bool) (slot result out0 : Nat) (s : State) : (doneFields fab slot result out0 s).length = 255 := by
  rw [doneFields, List.length_append, List.length_append, List.length_append, length_leBytes, length_leBytes, List.length_replicate]
  rfl

/-- The state of a completion before the checkpoint. -/
def slotPut (fab : Bool) (slot result out0 : Nat) (s : State) : State :=
  let u := bankPut (firmwareMaster s) (slotBase fab slot + 0x101) (doneFields fab slot result out0 s) s
  bankPut (firmwareMaster u) (slotBase fab slot + 0x100) [2] u

/-- The state of a completion before RSP is raised or the NOTICE goes out. -/
def slotWritten (fab : Bool) (slot result out0 : Nat) (s : State) : State := checkpoint (slotPut fab slot result out0 s)

theorem slotDone_rest (fab : Bool) (slot result out0 : Nat) (s : State) : (slotDone fab slot result out0 s).mem = (slotWritten fab slot result out0 s).mem ∧
    (slotDone fab slot result out0 s).chans = (slotWritten fab slot result out0 s).chans ∧ (slotDone fab slot result out0 s).engines = (slotWritten fab slot result out0 s).engines := by
  have split : slotDone fab slot result out0 s = if fab then notice 4 slot (slotWritten fab slot result out0 s) else raiseBit pciePage 0 (slotWritten fab slot result out0 s) := rfl
  rw [split]
  generalize slotWritten fab slot result out0 s = u
  cases fab with
  | true =>
    have sends := Sends.notice 4 slot u
    exact ⟨sends.mem, sends.chans, (congrArg State.engines sends.side :)⟩
  | false =>
    have only := pageOnly_raiseBit pciePage 0 u
    exact ⟨only.mem_eq, only.chans_eq, only.engines_eq⟩

section
variable {fab : Bool} {slot result out0 : Nat} {s : State} (hs : slot < 32) (on : bankOpen s (firmwareMaster s) (slotBase fab slot + 0x100) = true)
include hs on

/-- The two writes of a completion into its slot. -/
theorem slotPut_facts : BankWritten s (slotPut fab slot result out0 s) ∧ ∀ x, memByte (slotPut fab slot result out0 s) x =
    if slotBase fab slot + 0x100 ≤ x ∧ x < slotBase fab slot + 0x200 then (2 :: doneFields fab slot result out0 s).getD (x - (slotBase fab slot + 0x100)) 0 else memByte s x := by
  obtain ⟨first, fields⟩ := bankPut_slot (a := slotBase fab slot + 0x101) hs (by omega) (by omega) on (doneFields fab slot result out0 s)
  unfold slotPut
  dsimp only
  rw [length_doneFields] at fields
  generalize bankPut (firmwareMaster s) (slotBase fab slot + 0x101) (doneFields fab slot result out0 s) s = u at first fields
  rw [first.firmwareMaster]
  obtain ⟨second, state⟩ := bankPut_slot (a := slotBase fab slot + 0x100) (s := u) hs (by omega) (by omega) ((first.bankOpen ..).trans on) [2]
  refine ⟨first.trans second, fun x => ?_⟩
  rw [state, fields]
  rcases Nat.lt_trichotomy x (slotBase fab slot + 0x100) with lt | eq | gt
  · rw [if_neg (by omega), if_neg (by omega), if_neg (by omega)]
  · rw [if_pos (by simp; omega), if_pos (by omega), eq, Nat.sub_self]
    rfl
  · rw [if_neg (by simp; omega)]
    by_cases inside : x < slotBase fab slot + 0x200
    · rw [if_pos (by omega), if_pos (by omega), show x - (slotBase fab slot + 0x100) = x - (slotBase fab slot + 0x101) + 1 by omega, List.getD_cons_succ]
    · rw [if_neg (by omega), if_neg (by omega)]

end

/-- The checkpoint changes its own bytes alone, and where its place is open it holds the slots still to be completed. -/
theorem checkpoint_facts (s : State) : (∀ x, x < checkAt ∨ checkAt + 8 ≤ x → memByte (checkpoint s) x = memByte s x) ∧
    (bankOpen s (firmwareMaster s) checkAt = true → ∀ x, checkAt ≤ x → x < checkAt + 8 → memByte (checkpoint s) x = (checkBytes s).getD (x - checkAt) 0) ∧
    (checkpoint s).chans = s.chans ∧ ∀ k, MayLoseResv k s (checkpoint s) := by
  have length : (checkBytes s).length = 8 := by simp [checkBytes, length_leBytes]
  have eq : checkpoint s = bankPut (firmwareMaster s) checkAt (checkBytes s) s := rfl
  rw [eq]
  by_cases on : bankOpen s (firmwareMaster s) checkAt = true
  · obtain ⟨written, bytes⟩ := bankPut_check on (checkBytes s)
    rw [length] at bytes
    refine ⟨fun x out => ?_, fun _ x lo hi => ?_, written.only.chans, written.engines⟩
    · rw [bytes, if_neg (by omega)]
    · rw [bytes, if_pos ⟨lo, hi⟩]
  · have closed : bankPut (firmwareMaster s) checkAt (checkBytes s) s = mxError (firmwareMaster s) checkAt 3 s := if_neg on
    have only := pageOnly_mxError (firmwareMaster s) checkAt 3 s
    rw [closed]
    exact ⟨fun x _ => memByte_mxError .., fun h => absurd h on, only.chans_eq, fun k => mayLoseResv_of_engines k only.engines_eq⟩

section
variable {fab : Bool} {slot result out0 : Nat} {s t : State} (hs : slot < 32) (on : bankOpen s (firmwareMaster s) (slotBase fab slot + 0x100) = true)
  (ht : t = slotDone fab slot result out0 s)
include hs on ht

theorem memByte_slotDone {x : Nat} (out : x < checkAt ∨ checkAt + 8 ≤ x) : memByte t x =
    if slotBase fab slot + 0x100 ≤ x ∧ x < slotBase fab slot + 0x200 then (2 :: doneFields fab slot result out0 s).getD (x - (slotBase fab slot + 0x100)) 0 else memByte s x := by
  have mem : memByte t x = memByte (slotWritten fab slot result out0 s) x := by
    unfold memByte
    rw [ht, (slotDone_rest ..).1]
  rw [mem, ← (slotPut_facts hs on).2 x]
  exact (checkpoint_facts _).1 x out

/-- The bytes of a completed slot, from its STATE on. -/
theorem memBytes_slotDone {i n : Nat} (hi : i + n ≤ 256) : memBytes t (slotBase fab slot + 0x100 + i) n = ((2 :: doneFields fab slot result out0 s).drop i).take n := by
  have length : (2 :: doneFields fab slot result out0 s).length = 256 := by rw [List.length_cons, length_doneFields]
  have above : checkAt + 8 ≤ slotBase fab slot := by
    unfold checkAt slotBase
    cases fab <;> simp <;> omega
  refine memBytes_stands (fun x lo hi => ?_) n i (by rw [length]; exact hi)
  rw [length] at hi
  rw [memByte_slotDone hs on ht (by omega), if_pos (by omega)]

theorem slotDone_kept : t.chans = s.chans ∧ ∀ k, (eng t k).pc = (eng s k).pc := by
  obtain ⟨-, chans, engines⟩ := slotDone_rest fab slot result out0 s
  obtain ⟨put, -⟩ := slotPut_facts (result := result) (out0 := out0) hs on
  obtain ⟨-, -, check, resv⟩ := checkpoint_facts (slotPut fab slot result out0 s)
  subst ht
  refine ⟨chans.trans (check.trans put.only.chans), fun k => ?_⟩
  obtain ⟨r, hr⟩ := (put.engines k).trans (resv k)
  have same : eng (slotDone fab slot result out0 s) k = eng (slotWritten fab slot result out0 s) k := by
    unfold eng
    rw [engines]
  rw [same, slotWritten, hr]

theorem slotDone_checkpoint (open_ : bankOpen s (firmwareMaster s) checkAt = true) (f : Bool) (i : Fin 32) :
    checkHolds t f i.val = s.taken.any (fun x => x.fab == f && x.slot == i.val) := by
  obtain ⟨put, -⟩ := slotPut_facts (result := result) (out0 := out0) hs on
  have mem : t.mem = (slotWritten fab slot result out0 s).mem := by rw [ht, (slotDone_rest ..).1]
  rw [← put.taken]
  refine checkHolds_of_stands (s := slotPut fab slot result out0 s) (fun x lo hi => ?_) f i
  have length : (checkBytes (slotPut fab slot result out0 s)).length = 8 := by simp [checkBytes, length_leBytes]
  rw [length] at hi
  have at_ := (checkpoint_facts (slotPut fab slot result out0 s)).2.1 (by rw [put.bankOpen, put.firmwareMaster]; exact open_) x lo hi
  unfold memByte at at_ ⊢
  rw [mem]
  exact at_

end

theorem drop_doneFields (fab : Bool) (slot result out0 : Nat) (s : State) : ((2 :: doneFields fab slot result out0 s).drop 4).take 4 = leBytes 4 (slotField s fab slot 4 4) ∧
    ((2 :: doneFields fab slot result out0 s).drop 8).take 8 = leBytes 8 out0 := ⟨rfl, rfl⟩

/-- The codes of the eleven service commands. -/
theorem exec_service {fab : Bool} {slot : Fin 32} {c : Instr} {code : Nat → Bool}
    (h : (∃ img, c = .programLoad fab slot img ∧ code = (· == 1)) ∨ (∃ img cut, c = .update fab slot img cut ∧ code = (· == 2)) ∨ (c = .primer fab slot ∧ code = (· == 3)) ∨
      (c = .patinaClearService fab slot ∧ code = (· == 4)) ∨ (c = .patinaCmd fab slot ∧ code = (· == 5)) ∨ (∃ x y z w, c = .lifecycle fab slot x y z w ∧ code = (· == 6)) ∨
      (∃ pass, c = .mc fab slot pass ∧ code = (· == 7)) ∨ (c = .memPower fab slot ∧ code = (· == 8)) ∨ (c = .domainResetService fab slot ∧ code = (· == 9)) ∨
      (c = .temper fab slot ∧ code = (· == 10)) ∨ (c = .badService fab slot ∧ code = fun n => n == 0 || decide (10 < n))) :
    ∃ f : State → State, ∀ s, exec c s = .next (serve fab slot.val code f s) := by
  have bad : (fun n => n == 0 || decide (10 < n)) = fun n => !listedService n := by
    funext n
    unfold listedService
    rcases Nat.eq_zero_or_pos n with rfl | pos
    · rfl
    · have one : 1 ≤ n := pos
      by_cases top : n ≤ 10
      · simp [one, top]
        omega
      · simp [top]
        omega
  rcases h with ⟨img, rfl, rfl⟩ | ⟨img, cut, rfl, rfl⟩ | ⟨rfl, rfl⟩ | ⟨rfl, rfl⟩ | ⟨rfl, rfl⟩ | ⟨x, y, z, w, rfl, rfl⟩ | ⟨pass, rfl, rfl⟩ | ⟨rfl, rfl⟩ | ⟨rfl, rfl⟩ | ⟨rfl, rfl⟩ | ⟨rfl, rfl⟩
  · exact ⟨programLoadService fab slot.val img, fun s => rfl⟩
  · exact ⟨updateService fab slot.val img cut, fun s => rfl⟩
  · exact ⟨primerService fab slot.val, fun s => rfl⟩
  · exact ⟨tokenService fab slot.val, fun s => rfl⟩
  · exact ⟨patCmdService fab slot.val, fun s => rfl⟩
  · exact ⟨lifecycleService fab slot.val x y z.toNat w, fun s => rfl⟩
  · exact ⟨mcService fab slot.val pass, fun s => rfl⟩
  · exact ⟨memPowerService fab slot.val, fun s => rfl⟩
  · exact ⟨domainService fab slot.val, fun s => rfl⟩
  · exact ⟨temperService fab slot.val, fun s => rfl⟩
  · rw [bad]
    exact ⟨slotDone fab slot.val 1 0, fun s => rfl⟩

/-- Settles O52. -/
theorem servicesAreTakenUpAndCompleted : Obligations.ServicesAreTakenUpAndCompleted := by
  unfold Obligations.ServicesAreTakenUpAndCompleted
  refine ⟨fun fab slot c code s again hagain service => ?_, fun fab slot s u again hagain runs rung on fresh unlisted hu => congrArg Host.Outcome.next ?_,
    fun fab slot result out0 s t small fits on ht => ?_⟩
  · obtain ⟨f, run⟩ := exec_service service
    rw [run]
    refine ⟨fun idle => congrArg Host.Outcome.next (serve_idle hagain idle), fun runs rung on => ⟨fun first taken => congrArg Host.Outcome.next (serve_taken hagain runs rung on first taken),
      fun fresh other => congrArg Host.Outcome.next (serve_other hagain runs rung on fresh other)⟩⟩
  · rw [hu]
    refine serve_runs hagain runs rung on fresh ?_
    unfold listedService
    rcases unlisted with h | h
    · rw [h]
      rfl
    · simp
      omega
  · have hs := slot.isLt
    have byte (i : Nat) (hi : i < 256) : memByte t (slotBase fab slot.val + 0x100 + i) = (2 :: doneFields fab slot.val result out0 s).getD i 0 := by
      have above : checkAt + 8 ≤ slotBase fab slot.val := by
        unfold checkAt slotBase
        cases fab <;> simp <;> omega
      rw [memByte_slotDone hs on ht (by omega), if_pos (by omega), Nat.add_sub_cancel_left]
    obtain ⟨rid, out⟩ := drop_doneFields fab slot.val result out0 s
    obtain ⟨chans, pcs⟩ := slotDone_kept hs on ht
    refine ⟨byte 0 (by decide), byte 1 (by decide), ?_, ?_, fun a outside away => ?_, fun open_ f i => slotDone_checkpoint hs on ht open_ f i, chans, pcs⟩
    · show leNat (memBytes t (slotBase fab slot.val + 0x100 + 4) 4) = _
      rw [memBytes_slotDone hs on ht (by decide), rid, leNat_leBytes]
      refine Nat.mod_eq_of_lt ((leNat_lt _).trans_eq ?_)
      rfl
    · show leNat (memBytes t (slotBase fab slot.val + 0x100 + 8) 8) = _
      rw [memBytes_slotDone hs on ht (by decide), out, leNat_leBytes]
      exact Nat.mod_eq_of_lt fits
    · rw [memByte_slotDone hs on ht away, if_neg (by omega)]

end Sys2Proof.Machine
end

-- ==== commands of masters without a path to the registers ====
section
/-! PROOFS. A write of a master that has no path to the register pages ends with the decode error of the matrix, and no page rejects it (spec 11 R291, R299). -/

-- One theorem at a time: elaborating them in parallel takes the memory of many threads.
set_option Elab.async false

namespace Sys2Proof.Machine

/-- A write of Tongs to a register after reset: the MX page captures the error, and no other page shows anything. -/
theorem accessWrite_tongs (page off : Nat) (v : Word) : accessWrite page off .tongs v State.reset = mxError .tongs (regAddr page off) (busCode .decode) State.reset := rfl

/-- Refutes O51: Tongs is no pair in Service mode and has no path to the registers, so its write of PR_CMD is not rejected by the page: it ends
with the decode error of the matrix. -/
theorem not_temperTestsAndPrimerCalibrates : ¬ Obligations.TemperTestsAndPrimerCalibrates := by
  unfold Obligations.TemperTestsAndPrimerCalibrates
  rintro ⟨-, -, -, -, rejected, -⟩
  obtain ⟨full, -⟩ := rejected .tongs 0 State.reset (by decide +kernel) rfl
  have same : mxError .tongs (regAddr primerPage 0x700) (busCode .decode) State.reset = rejectWrite primerPage 0x700 .tongs State.reset :=
    Host.Outcome.next.inj ((congrArg Host.Outcome.next (accessWrite_tongs primerPage 0x700 _)).symm.trans full)
  exact absurd (congrArg (fun s => bit (rdReg s mxPage 0x010) 0) same) (by decide +kernel)

end Sys2Proof.Machine
end

-- ==== the fields of a register ====
section
/-! PROOFS. The fields of every register lie apart, so that each takes a write by its own access code (spec 00 R10, R13); plain pages, Easel writes
and reads (12 R314, 11 R299). -/

-- One theorem at a time: elaborating them in parallel takes the memory of many threads.
set_option Elab.async false

namespace Sys2Proof.Machine

/-- Two fields share no bit. -/
def fieldAway (f g : Field) : Bool := decide (f.hi < g.lo) || decide (g.hi < f.lo)

/-- Every field of a list lies inside the word and apart from those after it. -/
def fieldsApart : List Field → Bool
  | [] => true
  | f :: fs => decide (f.lo ≤ f.hi) && decide (f.hi < 32) && fs.all (fieldAway f) && fieldsApart fs

theorem registers_fieldsApart (k : Kind) : (regsOf k).all (fun r => fieldsApart r.fields) = true := by
  cases k <;> decide

theorem findReg_mem {l : List RegDesc} {off : Nat} {r : RegDesc} (h : findReg l off = some r) : r ∈ l := by
  induction l with
  | nil => exact absurd h (by simp [findReg])
  | cons d l ih =>
    unfold findReg at h
    split at h
    · obtain rfl := Option.some.inj h
      exact List.mem_cons_self
    · exact List.mem_cons_of_mem d (ih h)

theorem mergeField_le (f : Field) (old v : Word) : (mergeField f old v).1 < 2 ^ (f.hi + 1 - f.lo) := by
  have o := fld_lt old f.hi f.lo
  have n := fld_lt v f.hi f.lo
  unfold mergeField
  dsimp only
  split
  · split
    · exact n
    · exact o
  · exact (Nat.sub_le ..).trans_lt o
  · exact Nat.or_lt_two_pow o n
  · exact o

/-- The merge of the fields of a list into a word whose fields hold what they held. -/
def mergeInto (fs : List Field) (old v : Word) (acc : Word × Bool) : Word × Bool :=
  forEach fs acc (fun f r => (setFld r.1 f.hi f.lo (mergeField f old v).1, r.2 || (mergeField f old v).2))

section
variable (old v : Word)

theorem fld_mergeInto_other {g : Field} (hg : g.hi < 32) : ∀ (fs : List Field) (acc : Word × Bool), fieldsApart fs = true → fs.all (fieldAway g) = true →
    fld (mergeInto fs old v acc).1 g.hi g.lo = fld acc.1 g.hi g.lo := by
  intro fs
  induction fs with
  | nil => exact fun acc _ _ => rfl
  | cons f fs ih =>
    intro acc inside away
    simp only [fieldsApart, List.all_cons, fieldAway, Bool.and_eq_true, Bool.or_eq_true, decide_eq_true_eq] at inside away
    obtain ⟨⟨⟨lo, hi⟩, -⟩, rest⟩ := inside
    refine (ih _ rest away.2).trans ?_
    exact fld_setFld_ne _ _ lo hi hg away.1.symm

theorem fld_mergeInto {f : Field} : ∀ (fs : List Field) (acc : Word × Bool), fieldsApart fs = true → f ∈ fs →
    fld (mergeInto fs old v acc).1 f.hi f.lo = (mergeField f old v).1 := by
  intro fs
  induction fs with
  | nil => exact fun acc _ h => absurd h List.not_mem_nil
  | cons g fs ih =>
    intro acc inside mem
    simp only [fieldsApart, Bool.and_eq_true, decide_eq_true_eq] at inside
    obtain ⟨⟨⟨lo, hi⟩, away⟩, rest⟩ := inside
    rcases List.mem_cons.mp mem with rfl | mem
    · refine (fld_mergeInto_other old v hi fs _ rest away).trans ?_
      exact (fld_setFld_same _ _ lo hi).trans (Nat.mod_eq_of_lt (mergeField_le ..))
    · exact ih _ rest mem

/-- A reserved encoding in a field that is written shows. -/
theorem mergeInto_flag : ∀ (fs : List Field) (acc : Word × Bool), (mergeInto fs old v acc).2 = (acc.2 || !wordValid fs v) := by
  intro fs
  induction fs with
  | nil => exact fun acc => (Bool.or_false _).symm
  | cons f fs ih =>
    intro acc
    have flag : (mergeField f old v).2 = !(f.acc != .rw || f.ok.ok (fld v f.hi f.lo)) := by
      unfold mergeField
      dsimp only
      cases f.acc with
      | rw => cases f.ok.ok (fld v f.hi f.lo) <;> rfl
      | _ => rfl
    refine (ih _).trans ?_
    show ((acc.2 || (mergeField f old v).2) || !wordValid fs v) = (acc.2 || !((f.acc != .rw || f.ok.ok (fld v f.hi f.lo)) && wordValid fs v))
    rw [flag, Bool.not_and, Bool.or_assoc]

end

theorem mergeWord_reserved (fs : List Field) (old v : Word) : (mergeWord fs old v).2 = !wordValid fs v :=
  (mergeInto_flag old v fs _).trans (Bool.false_or _)

theorem fld_written {k : Kind} {off : Nat} {r : RegDesc} {f : Field} (old v : Word) (hr : findReg (regsOf k) off = some r) (hf : f ∈ r.fields) :
    fld (written k off old v) f.hi f.lo = (mergeField f old v).1 := by
  have all := List.all_eq_true.mp (registers_fieldsApart k) r (findReg_mem hr)
  unfold written
  rw [hr]
  exact fld_mergeInto old v r.fields _ all hf

theorem plainWrite_eq {k : Kind} {page off : Nat} {r : RegDesc} (m : Master) (v : Word) (s : State) (hr : findReg (regsOf k) off = some r) :
    plainWrite page off m r.fields v s =
      if woInvalid r.fields v = true then invalidWrite page off m s
      else if wordValid r.fields v = true then wrReg page off (written k off (rdReg s page off) v) s
      else capture page fINVALID off (masterCode m) (wrReg page off (written k off (rdReg s page off) v) s) := by
  have word : written k off (rdReg s page off) v = (mergeWord r.fields (rdReg s page off) v).1 := by
    unfold written
    rw [hr]
  unfold plainWrite
  dsimp only
  rw [word, mergeWord_reserved]
  cases wordValid r.fields v <;> rfl

/-- A page all of whose registers are plain. -/
theorem blockWrite_plain {x : Page} (h : x.kind ∈ [Kind.tile, .tpll, .pmark, .scrub]) (page off : Nat) (m : Master) (fs : List Field) (v : Word) (s : State) :
    blockWrite x page off m fs v s = plainWrite page off m fs v s := by
  obtain ⟨k, n⟩ := x
  simp only [List.mem_cons, List.not_mem_nil, or_false] at h
  rcases h with rfl | rfl | rfl | rfl <;> rfl

/-! ### Accesses that reach no page -/

section
variable {page off : Nat} {m : Master} {s : State} {e : BusKind} (h : (pathOk m .regs = false ∧ e = .decode) ∨ (pathOk m .regs = true ∧ pageError s page = some e))
include h

theorem accessError_some : accessError s page off m = some e := by
  unfold accessError
  rcases h with ⟨path, rfl⟩ | ⟨path, err⟩
  · exact if_pos (by simp [path])
  · rw [if_neg (by simp [path]), err]
    rfl

theorem accessWrite_fails (v : Word) : accessWrite page off m v s = mxError m (regAddr page off) (busCode e) s := by
  unfold accessWrite
  rw [accessError_some h]

theorem accessRead_fails : accessRead page off m s = mxError m (regAddr page off) (busCode e) s := by
  unfold accessRead
  rw [accessError_some h]

end

/-- A read of a page without latches of its own. -/
theorem pageReadEffect_plain {page off : Nat} {x : Page} (hx : pageAt page = some x) (hk : x.kind ∉ [Kind.test, .cl, .fb, .fbrt]) (ho : off < 0xF00) (s : State) :
    pageReadEffect page off s = if 0x900 ≤ off ∧ toCopy s page = true then tick s else if readClears x off then wrReg page off 0 s else s := by
  have notTest : (x.kind == .test) = false := by
    rw [beq_eq_false_iff_ne]
    intro h
    rw [h] at hk
    exact absurd hk (by decide)
  unfold pageReadEffect
  rw [hx]
  dsimp only
  rw [notTest, decide_eq_false (by omega : ¬ 0xF00 ≤ off), Bool.false_or, Bool.false_or]
  by_cases copying : 0x900 ≤ off ∧ toCopy s page = true
  · rw [if_pos copying]
    exact if_pos (by simp [copying])
  · rw [if_neg copying]
    refine (if_neg (by simpa using copying)).trans ?_
    split
    · exact absurd hk (by simp)
    · exact absurd hk (by simp)
    · exact absurd hk (by simp)
    · rfl

/-- Settles O44. -/
theorem registersTakeWritesByTheirFields : Obligations.RegistersTakeWritesByTheirFields := by
  unfold Obligations.RegistersTakeWritesByTheirFields
  refine ⟨fun k off r f old v hr hf => ?_, fun page off x r m v s hx hk takes hr lo hi aligned w hw => congrArg Host.Outcome.next ?_,
    fun page off x r m v s u hx hk takes hu lo hi aligned hr bank armed cal => congrArg Host.Outcome.next ?_, fun page off m v s e h => ⟨congrArg Host.Outcome.next (accessWrite_fails h v),
      congrArg Host.Outcome.next (accessRead_fails h)⟩, fun page off x m s hx hk path err quiet ho aligned => congrArg Host.Outcome.next ?_⟩
  · refine (fld_written old v hr hf).trans ?_
    unfold mergeField
    dsimp only
    cases f.acc with
    | rw => cases f.ok.ok (fld v f.hi f.lo) <;> rfl
    | _ => rfl
  · have notTest : x.kind ≠ .test := by
      intro h
      rw [h] at hk
      exact absurd hk (by decide)
    rw [hw]
    exact (accessWrite_block v takes hx hr aligned notTest lo hi).trans ((blockWrite_plain hk ..).trans (plainWrite_eq m v s hr))
  · refine (accessWrite_of_takes v takes hx aligned hk hi).trans ?_
    rw [if_neg (by omega), if_neg (by omega), if_neg (by omega), if_neg (by omega), ← hu]
    unfold easelWrite
    rw [hr]
    dsimp only
    rw [if_neg (by simp [bank]), if_neg (by simp [armed, cal])]
  · rw [accessRead_of_up path err aligned, pageYields_of_quiet quiet]
    exact pageReadEffect_plain hx hk ho s

end Sys2Proof.Machine
end

-- ==== bundles ====
section
/-! PROOFS. A bundle at TR: its stall, its fault, its access, its one move between general registers, and the next pc (spec 04 R106-R125, 05 R137-R147). -/

-- One theorem at a time: elaborating them in parallel takes the memory of many threads.
set_option Elab.async false

namespace Sys2Proof.Machine

/-! ### The next bundle -/

/-- An engine after a bundle without a branch: the loop goes round, ends, or the next bundle follows (04 R121-R123). -/
def advanced (w : Bundle) (z : Engine) : Engine :=
  let y : Engine := { z with loopBuf := loopAfter w z.pc.toNat false z, rptBusy := false }
  if z.pc = z.le ∧ 2 ≤ z.lc.toNat then { y with lc := z.lc - 1, pc := z.ls, entering := false }
  else { y with lc := if z.pc = z.le ∧ z.lc = 1 then 0 else z.lc, pc := z.pc + 16, entering := false }

theorem modEng_modEng (k : Nat) (f g : Engine → Engine) (s : State) : modEng k f (modEng k g s) = modEng k (fun e => f (g e)) s := by
  rw [modEng, modEng, modEng, eng_setEng_same, setEng_setEng_same]

theorem w32_toNat (w : Word) : w32 w.toNat = w := BitVec.ofNat_toNat ..

theorem w32_next (w : Word) : w32 (w.toNat + 16) = w + 16 := by
  apply BitVec.eq_of_toNat_eq
  rw [w32, BitVec.toNat_ofNat, BitVec.toNat_add]
  rfl

/-- The next pc of a bundle that neither branches nor skips a loop. -/
theorem nextPc_state (w : Bundle) (k : Nat) (v : State) : nextPc w { s := v } k (eng v k).pc.toNat = { s := setEng k (advanced w (eng v k)) v } := by
  generalize he : eng v k = e
  have end_ : e.pc.toNat = e.le.toNat ↔ e.pc = e.le := BitVec.toNat_inj
  unfold nextPc
  dsimp only [Run.mod]
  rw [he]
  unfold advanced
  dsimp only
  by_cases round : e.pc = e.le ∧ 2 ≤ e.lc.toNat
  · rw [if_pos (show _ ∧ _ from ⟨end_.mpr round.1, round.2⟩), if_pos round, modEng_modEng, modEng_modEng, modEng, he, w32_toNat]
    rfl
  · rw [if_neg (fun h => round ⟨end_.mp h.1, h.2⟩), if_neg round]
    by_cases last : e.pc = e.le ∧ e.lc = 1
    · rw [if_pos (show _ ∧ _ from ⟨end_.mpr last.1, last.2⟩), if_pos last, modEng_modEng, modEng_modEng, modEng, he, w32_next]
      rfl
    · rw [if_neg (fun h => last ⟨end_.mp h.1, h.2⟩), if_neg last, modEng_modEng, modEng, he, w32_next]
      rfl

/-! ### One move between general registers -/

section
variable {v : State} {k : Nat} {m : Move} (src : m.src < 0x40) (dst : m.dst < 0x40)
include src dst

theorem moveWidth_g : moveWidth v k m = 32 := by
  have source : commonSource m.src = some 32 := if_pos (by omega)
  unfold moveWidth srcWidth
  rw [if_pos dst, source]
  rfl

theorem sourceStalls_g (ready : gReady (eng v k) m.src = true) : sourceStalls v k m = false := by
  unfold sourceStalls
  dsimp only
  rw [if_pos src, moveWidth_g src dst]
  simp [ready]

theorem sourceVal_g (pc : Nat) (b : BundleF) : (sourceVal v k pc b m).toNat = (gVal (eng v k) m.src).toNat := by
  have small := (gVal (eng v k) m.src).isLt
  have group : (groupVal (eng v k) m.src 32).toNat = (gVal (eng v k) m.src).toNat := by
    show (0 + (gVal (eng v k) (m.src + 0)).toNat * 2 ^ (32 * 0)) % 2 ^ 256 = _
    rw [Nat.zero_add, Nat.add_zero, Nat.mul_zero, Nat.pow_zero, Nat.mul_one]
    exact Nat.mod_eq_of_lt (by omega)
  unfold sourceVal
  dsimp only
  rw [moveWidth_g src dst, if_pos src, group, BitVec.toNat_ofNat, Nat.mod_eq_of_lt small]
  exact Nat.mod_eq_of_lt (by omega)

omit dst in
theorem readEffect_g : readEffect k m v = v := by
  unfold readEffect
  split
  · omega
  · omega
  · rfl

theorem writeMove_g {u : State} (t : Wide) (e : Engine) (value : t.toNat = (gVal (eng v k) m.src).toNat) : writeMove u k m t e = setG m.dst (gVal (eng v k) m.src) e := by
  have now : deferred (eng u k) m = false := by
    have plain : isResult m.src = false := by
      unfold isResult
      rw [decide_eq_false (by omega), decide_eq_false (by omega : ¬ 0x1800 ≤ m.src)]
      rfl
    rw [deferred, plain, Bool.and_false, Bool.false_and]
  unfold writeMove
  dsimp only
  rw [if_pos dst, now, moveWidth_g src dst]
  show setG (m.dst + 0) (w32 (t.toNat / 2 ^ (32 * 0))) e = _
  rw [Nat.add_zero, Nat.mul_zero, Nat.pow_zero, Nat.div_one, value, w32_toNat]

theorem slotFault_g : slotFault v k [] m = none := by
  have group : misGroup v k m = none := by
    unfold misGroup
    dsimp only
    rw [moveWidth_g src dst, if_neg (by omega), if_neg (by omega)]
  have priv : privFault (eng v k) m = false := by
    unfold privFault
    rw [decide_eq_false (by omega : ¬ 0x54 ≤ m.dst), decide_eq_false (by omega : ¬ 0x800 ≤ m.dst), show (m.dst == 0x5D) = false by simp; omega,
      show (m.dst == 0x212) = false by simp; omega]
    simp
  unfold slotFault
  dsimp only
  rw [group]
  dsimp only [List.find?_nil]
  rw [priv, if_neg (by decide), if_neg (by omega)]

omit src in
theorem trigger_g (c : Ctx) (before : Nat) (t : Wide) (r : Run) : trigger c before m t r = r := by
  have common : commonTrigger m.dst = none := if_neg (by omega)
  have none_ : trigUnit r.s c.k m.dst = none := by
    unfold trigUnit
    rw [common]
    dsimp only
    split
    · exact if_neg (by omega)
    · unfold threadTrigger
      repeat rw [if_neg (by omega)]
    · exact if_neg (by omega)
  unfold trigger
  dsimp only
  rw [if_neg (by omega), none_]

/-- A bundle whose one move with a true guard copies a ready general register (04 R106, R112). -/
theorem evalBundle_g {b : BundleF} (moves : activeMoves (eng v k) b = [m]) (ready : gReady (eng v k) m.src = true) (pc : Nat) (ecc : EccOutcome) :
    evalBundle v k pc b none ecc = { s := setEng k (setG m.dst (gVal (eng v k) m.src) (eng v k)) v } := by
  have go : ([m].any (sourceStalls v k)) = false := by
    rw [List.any_cons, sourceStalls_g src dst ready]
    rfl
  have installs (t : Wide) : installPhase [(m, t)] = id := by
    funext e
    exact if_neg (by show ¬ m.dst = 0x58; omega)
  unfold evalBundle
  dsimp only
  rw [moves, go, if_neg (by decide)]
  simp only [List.map_cons, List.map_nil, forEach, List.foldl_cons, List.foldl_nil, slotFaults, readEffect_g src, trigger_g dst, slotFault_g src dst, firstOf, firstFault, installs, writePhase,
    writeMove_g src dst _ _ (sourceVal_g src dst pc b), Run.mod, modEng_modEng, id]
  rfl

end

/-! ### The end of a bundle, and of an iteration of a repeat -/

section
variable (w : Bundle) (k : Nat) (v : State)

theorem endBundle_once (single : (bundleOf w).rpt = false) : endBundle w k (eng v k).pc.toNat { s := v } = { s := setEng k (advanced w { eng v k with rptLive := false }) v } := by
  have next := nextPc_state w k (modEng k (fun e => { e with rptLive := false }) v)
  rw [eng_modEng_same, modEng, setEng_setEng_same] at next
  refine (if_pos (by simp [single])).trans ?_
  exact next

variable (repeats : (bundleOf w).rpt = true)
include repeats

theorem endBundle_last {n : Nat} (count : (eng v k).rptc.toNat = n) (last : n - 1 = 0) :
    endBundle w k (eng v k).pc.toNat { s := v } = { s := setEng k (advanced w { eng v k with rptc := 0, rptLive := false, rptBusy := false }) v } := by
  have next := nextPc_state w k (modEng k (fun e => { e with rptc := 0, rptLive := false, rptBusy := false }) v)
  rw [eng_modEng_same, modEng, setEng_setEng_same] at next
  unfold endBundle
  dsimp only [Run.mod]
  rw [if_neg (by simp [repeats]), if_neg (by decide), count, last, if_pos rfl]
  exact next

theorem endBundle_more {n : Nat} (count : (eng v k).rptc.toNat = n) (more : n - 1 ≠ 0) :
    endBundle w k (eng v k).pc.toNat { s := v } = { s := setEng k { eng v k with rptc := w32 (n - 1), rptLive := true, rptBusy := false } v } := by
  have live : (n - 1 != 0) = true := bne_iff_ne.mpr more
  unfold endBundle
  dsimp only [Run.mod]
  rw [if_neg (by simp [repeats]), if_neg (by decide), count, if_neg more, live]
  rfl

end

/-! ### The current thread -/

section
variable (k : Nat) (v : State)

theorem noteThread_setEng (e : Engine) : noteThread k (setEng k e v) = setEng k e (noteThread k v) := by
  unfold noteThread becomeCurrent
  split <;> rfl

theorem eng_noteThread : eng (noteThread k v) k = eng v k := by
  unfold noteThread becomeCurrent
  split <;> rfl

theorem eng_becomeCurrent : eng (becomeCurrent k v) k = eng v k := by
  unfold becomeCurrent
  split <;> rfl

theorem mayEnter_becomeCurrent (err : Option BusKind) : mayEnter k err (becomeCurrent k v) = mayEnter k err v := by
  unfold becomeCurrent
  split <;> rfl

theorem eng_noteFetch (off : Nat) : ∃ f, eng (noteFetch k off v) k = { eng v k with fetchBuf := f } := by
  unfold noteFetch
  dsimp only
  split
  · exact ⟨_, eng_modEng_same ..⟩
  · exact ⟨(eng v k).fetchBuf, rfl⟩

end

/-! ### A bundle that passes -/

section
variable {w : Bundle} {k : Nat} {v : State} {m : Move} (src : m.src < 0x40) (dst : m.dst < 0x40) (moves : activeMoves (eng v k) (bundleOf w) = [m])
  (ready : gReady (eng v k) m.src = true)
include src dst moves ready

/-- The move is made, and the bundle or its iteration ends with it. -/
theorem runBundle_g (err : Option BusKind) (ecc : EccOutcome) {e : Engine}
    (ends : ∀ t : State, eng t k = setG m.dst (gVal (eng v k) m.src) (eng v k) → endBundle w k (eng v k).pc.toNat { s := t } = { s := setEng k e t }) :
    runBundle w k err ecc v = settled k (noteThread k (setEng k e v)) := by
  unfold runBundle
  dsimp only
  rw [evalBundle_g src dst moves ready]
  show commitBundle w k (eng v k).pc.toNat err { s := noteThread k (setEng k (setG m.dst (gVal (eng v k) m.src) (eng v k)) v) } = _
  unfold commitBundle
  dsimp only
  rw [ends _ ((eng_noteThread ..).trans (eng_setEng_same ..)), noteThread_setEng, setEng_setEng_same, ← noteThread_setEng]

/-- The move is made once more, and RPTC counts down (04 R125). -/
theorem runBundle_iteration (repeats : (bundleOf w).rpt = true) (err : Option BusKind) (ecc : EccOutcome) {n : Nat} (pos : 0 < n) (count : (eng v k).rptc.toNat = n) {y : Engine}
    (hy : y = setG m.dst (gVal (eng v k) m.src) (eng v k)) : runBundle w k err ecc v = settled k (noteThread k (setEng k (
      if n = 1 then advanced w { y with rptc := 0, rptLive := false } else { y with rptc := w32 (n - 1), rptLive := true, rptBusy := false }) v)) := by
  refine runBundle_g src dst moves ready err ecc fun t ht => ?_
  rw [← hy] at ht
  have pc : (eng v k).pc = (eng t k).pc := by
    rw [ht, hy]
    rfl
  have left : (eng t k).rptc.toNat = n := by
    rw [ht, hy]
    exact count
  rw [pc]
  by_cases last : n = 1
  · rw [if_pos last, endBundle_last w k t repeats left (by omega), ht]
    rfl
  · rw [if_neg last, endBundle_more w k t repeats left (by omega), ht]

end

section
variable {w : Bundle} {k : Nat} {u : State} {err : Option BusKind} {ecc : EccOutcome} {x : Engine} {r : Run} (hx : x = eng u k)
  (hr : r = evalBundle u k x.pc.toNat (bundleOf w) none ecc)
include hx hr

omit hr in
theorem runBundle_stalls (stall : (activeMoves x (bundleOf w)).any (sourceStalls u k) = true) : runBundle w k err ecc u = u := by
  have stalls : (evalBundle u k (eng u k).pc.toNat (bundleOf w) none ecc).stall = true := by
    rw [hx] at stall
    unfold evalBundle
    dsimp only
    rw [if_pos stall]
  exact if_pos stalls

theorem runBundle_faults {f : Flt} (goes : r.stall = false) (fault : firstFault r.flt (returnFault k r) = some f) (keeps : f.qclr = false) (enters : mayEnter k err u = true) :
    runBundle w k err ecc u =
      takeEntry k { vec := f.vec, ret := x.pc.toNat, prec := 1, slot := f.slot, syn0 := f.syn0, syn1 := f.syn1, detail := f.detail } err (becomeCurrent k u) := by
  subst hx
  unfold runBundle
  dsimp only
  rw [← hr, if_neg (by simp [goes]), fault]
  dsimp only
  unfold takeFault
  rw [mayEnter_becomeCurrent, if_neg (by simp [enters]), keeps, if_neg (by decide)]
  dsimp only
  rw [eng_becomeCurrent]

theorem runBundle_accesses {a : PortAccess} (goes : r.stall = false) (sound : firstFault r.flt (returnFault k r) = none) (first : firstAccess r.needs = some a) :
    runBundle w k err ecc u = issueAccess w k [] a (noteThread k u) := by
  subst hx
  unfold runBundle
  dsimp only
  rw [← hr, if_neg (by simp [goes]), sound]
  dsimp only
  rw [first]

end

/-! ### What precedes a bundle -/

theorem up_of_mayRun {s : State} {k : Nat} (h : mayRun s k = true) : (eng s k).run = .running ∧ domLost s 8 = false := by
  unfold mayRun lanesUp at h
  simp only [Bool.and_eq_true, beq_iff_eq] at h
  obtain ⟨⟨run, up⟩, -⟩ := h
  refine ⟨run, ?_⟩
  split at up
  · simpa using up
  · simp only [Bool.and_eq_true, Bool.not_eq_true'] at up
    exact up.1

section
variable {k : Nat} {z u : State} {x : Engine} {w : Bundle} {b : BundleF} {err : Option AccessErr} {iteration : Bool} (hu : u = noteFetch k (eng z k).pc.toNat z) (hx : x = eng u k)
  (hw : w = fetchBundle z k x.pc.toNat) (hb : b = bundleOf w) (run : mayRun z k = true) (issues : mayIssue z k = true) (async : asyncPending x = false)
  (interrupts : interruptDue z k = none) (matrix : x.matrix = none) (after : x.after = none) (park : x.parkDue = false) (waits : waitFailure x = none) (free : holds x = false)
  (fetched : fetchHeld z k = false) (fetches : fetchFault z k x.pc.toNat (fetchErr err) = none) (sound : encodingFault u k w = none)
include hu hx hw hb run issues async interrupts matrix after park waits free fetched fetches sound

/-- The bundle that an engine passes at a boundary where nothing else is due. -/
theorem issue_bundle (turn : (b.rpt && x.rptLive) = iteration) : issue k iteration err z = tick (
    if b.rpt && !iteration && immOf b == 0 then settled k (noteThread k (nextPc w { s := u } k x.pc.toNat).s)
    else runBundle w k (stackErr err) (wordErr err) (if b.rpt && !iteration then modEng k (fun e => { e with rptc := w32 (immOf b), rptBusy := true }) u else u)) := by
  obtain ⟨f, hf⟩ := eng_noteFetch k z (eng z k).pc.toNat
  rw [← hu, ← hx] at hf
  have pc : x.pc = (eng z k).pc := by rw [hf]
  have noAsync : asyncDue (eng z k) = false := by
    have : asyncPending (eng z k) = false := by
      rw [← async, hf]
      rfl
    rw [asyncDue, this, Bool.and_false]
  have noMatrix : (eng z k).matrix = none := by rw [← matrix, hf]
  have noAfter : (eng z k).after = none := by rw [← after, hf]
  have noPark : (eng z k).parkDue = false := by rw [← park, hf]
  have noFailure : waitFailure (eng z k) = none := by
    rw [← waits, hf]
    rfl
  have noHold : holds (eng z k) = false := by
    rw [← free, hf]
    rfl
  obtain ⟨running, up⟩ := up_of_mayRun run
  have now : issueNext k iteration err z = tick (issueNow k iteration err z) := by
    unfold issueNext
    dsimp only
    rw [if_neg (by simp [running, up]), if_neg (by simp [noMatrix]), if_neg (by simp [noAfter]), if_neg (by simp [run, noAsync, interrupts, issues]), noFailure]
    dsimp only
    rw [if_neg (by simp [noHold])]
  have passes : issue k iteration err z = issueNext k iteration err z := by
    unfold issue
    dsimp only
    rw [if_neg (by simp [noPark])]
  rw [passes, now]
  unfold issueNow
  dsimp only
  rw [← pc] at hu ⊢
  rw [if_neg (by simp [fetched]), fetches]
  dsimp only
  rw [← hw, ← hu, ← hb, ← hx, turn, if_neg (by simp), sound]

end

theorem immOf_lt (w : Bundle) : immOf (bundleOf w) < 2 ^ 30 := Nat.mod_lt _ (by decide)

/-- Settles O20. -/
theorem bundleReadsBeforeItWrites : Obligations.BundleReadsBeforeItWrites := by
  unfold Obligations.BundleReadsBeforeItWrites
  intro e err s z u k x w b r adv hk hz hu hx hw hb hr hadv run issues async interrupts matrix after park waits free fetched fetches sound
  obtain rfl : adv = advanced w := hadv
  have exec_ (iteration : Bool) : exec (if iteration then .repeatIteration e err else .bundleIssue e err) s = .next (issue k iteration err z) := by
    rw [hz, hk]
    cases iteration <;> rfl
  have now (iteration : Bool) (turn : (b.rpt && x.rptLive) = iteration) := issue_bundle hu hx hw hb run issues async interrupts matrix after park waits free fetched fetches sound turn
  have once (rpt : b.rpt = false) : exec (.bundleIssue e err) s = .next (tick (runBundle w k (stackErr err) (wordErr err) u)) := by
    refine (exec_ false).trans (congrArg _ ((now false (by rw [rpt]; rfl)).trans ?_))
    rw [rpt]
    rfl
  rw [hb] at hr
  refine ⟨fun rpt stall => (once rpt).trans ?_, fun f rpt goes fault keeps enters => (once rpt).trans ?_, fun a rpt goes none_ first => (once rpt).trans ?_,
    fun m y moves src dst ready hy => ⟨fun rpt => (once rpt).trans ?_, fun n rpt pos count => ?_⟩, fun rpt fresh zero => ?_⟩
  · rw [runBundle_stalls hx (by rw [← hb]; exact stall)]
  · rw [runBundle_faults hx hr goes fault keeps enters]
  · rw [runBundle_accesses hx hr goes none_ first]
  · subst hx hb hy
    rw [runBundle_g src dst moves ready _ _ (e := advanced w { setG m.dst (gVal (eng u k) m.src) (eng u k) with rptLive := false }) fun t ht => ?_]
    have ends := endBundle_once w k t rpt
    rw [ht] at ends
    exact ends
  · subst hx hb hy
    by_cases live : (eng u k).rptLive = true
    · rw [live] at count ⊢
      refine (exec_ true).trans (congrArg _ ((now true (by rw [rpt, live]; rfl)).trans (congrArg tick ?_)))
      rw [if_neg (by simp), if_neg (by simp)]
      exact runBundle_iteration src dst moves ready rpt _ _ pos count.symm rfl
    · have idle : (eng u k).rptLive = false := Bool.eq_false_iff.mpr live
      rw [idle] at count ⊢
      have small := immOf_lt w
      have count : n = immOf (bundleOf w) := count
      refine (exec_ false).trans (congrArg _ ((now false (by rw [rpt, idle]; rfl)).trans (congrArg tick ?_)))
      rw [if_neg (by simp; omega), if_pos (by simp [rpt]), modEng]
      have first := eng_setEng_same k { eng u k with rptc := w32 (immOf (bundleOf w)), rptBusy := true } u
      have loaded : (w32 (immOf (bundleOf w))).toNat = n := by
        rw [count, w32, BitVec.toNat_ofNat]
        omega
      rw [runBundle_iteration (v := setEng k { eng u k with rptc := w32 (immOf (bundleOf w)), rptBusy := true } u) src dst (by rw [first]; exact moves) (by rw [first]; exact ready) rpt _ _ pos
        (by rw [first]; exact loaded) rfl, first, setEng_setEng_same]
      by_cases last : n = 1
      · rw [if_pos last, if_pos last]
        rfl
      · rw [if_neg last, if_neg last]
        rfl
  · refine (exec_ false).trans (congrArg _ ((now false (by rw [rpt, fresh]; rfl)).trans (congrArg tick ?_)))
    rw [if_pos (by simp [rpt, zero]), hx, nextPc_state]

end Sys2Proof.Machine
end

-- ==== the words that show a reset and a power failure ====
section
/-! PROOFS. What leaves RST_CAUSE, BL_STAT and the interrupt of Bellows as they were: answers of the matrix, the fabric, the loss of a domain and
start-up (spec 17 R429, R432, R441). -/

-- One theorem at a time: elaborating them in parallel takes the memory of many threads.
set_option Elab.async false

namespace Sys2Proof.Machine

/-- RST_CAUSE and BL_STAT read what they read before, and the interrupt of Bellows stays set. -/
structure StatusKept (s t : State) : Prop where
  cause : rdReg t rstPage 0x70C = rdReg s rstPage 0x70C
  stat : rdReg t blPage 0x700 = rdReg s blPage 0x700
  irq : bit (rdReg s blPage 0x010) 0 = true → bit (rdReg t blPage 0x010) 0 = true

theorem StatusKept.refl (s : State) : StatusKept s s := ⟨rfl, rfl, id⟩

theorem StatusKept.trans {s t u : State} (h : StatusKept s t) (k : StatusKept t u) : StatusKept s u :=
  ⟨k.cause.trans h.cause, k.stat.trans h.stat, fun hb => k.irq (h.irq hb)⟩

/-- A register outside the bankable range depends on the registers alone. -/
theorem rdReg_of_regs {s t : State} (h : t.regs = s.regs) {p o : Nat} (ho : bankable o = false) : rdReg t p o = rdReg s p o := by
  unfold rdReg rdRole roleKey
  simp only [h, ho, Bool.false_eq_true, if_false]

theorem statusKept_of_regs {r s t : State} (k : StatusKept r s) (h : t.regs = s.regs := by rfl) : StatusKept r t :=
  k.trans ⟨rdReg_of_regs h (by decide), rdReg_of_regs h (by decide), fun hb => by rw [rdReg_of_regs h (by decide)]; exact hb⟩

/-- A register outside the bankable range is not the one that a write of another place stores. -/
theorem rdReg_wrRole_apart {p o q r : Nat} (hr : bankable r = false) (ne : p * 4096 + o ≠ q * 4096 + r) (small : q * 4096 + r < 67108864) (e : Bool) (v : Word) (s : State) :
    rdReg (wrRole e p o v s) q r = rdReg s q r := by
  have key : roleKey s e p o ≠ regKey false q r := by
    unfold roleKey
    simp only [regKey, Nat.reducePow]
    split
    · generalize (canvasSet s p o != e) = b
      cases b
      · simpa only [Bool.toNat_false, Nat.zero_mul, Nat.zero_add] using ne
      · simp only [Bool.toNat_true, Bool.toNat_false, Nat.one_mul, Nat.zero_mul, Nat.zero_add]
        clear ne
        omega
    · simpa only [Bool.toNat_false, Nat.zero_mul, Nat.zero_add] using ne
  have read (t : State) : rdReg t q r = smGet (resetAt q r) t.regs (regKey false q r) := by
    unfold rdReg rdRole roleKey
    simp only [hr, Bool.false_eq_true, if_false]
  rw [read, read]
  exact smGet_smPut_ne _ _ _ _ key.symm

section
variable {r s : State}

/-- A place of the registers that is none of the three. -/
def Unshown (p o : Nat) : Prop := p * 4096 + o ≠ 0x170C ∧ p * 4096 + o ≠ 0x2700 ∧ p * 4096 + o ≠ 0x2010

theorem unshown_of_page {p : Nat} (h : 3 ≤ p) (o : Nat) : Unshown p o := by unfold Unshown; omega

theorem statusKept_wrRole (k : StatusKept r s) {p o : Nat} (h : Unshown p o) (e : Bool) (v : Word) : StatusKept r (wrRole e p o v s) := by
  obtain ⟨cause, stat, irq⟩ := h
  refine k.trans ⟨rdReg_wrRole_apart (by decide) cause (by decide) .., rdReg_wrRole_apart (by decide) stat (by decide) .., fun hb => ?_⟩
  rw [rdReg_wrRole_apart (by decide) irq (by decide)]
  exact hb

theorem statusKept_wrReg (k : StatusKept r s) {p o : Nat} (h : Unshown p o) (v : Word) : StatusKept r (wrReg p o v s) := statusKept_wrRole k h ..
theorem statusKept_modReg (k : StatusKept r s) {p o : Nat} (h : Unshown p o) (f : Word → Word) : StatusKept r (modReg p o f s) := statusKept_wrRole k h ..
theorem statusKept_countReg (k : StatusKept r s) {p o : Nat} (h : Unshown p o) (n : Nat) : StatusKept r (countReg p o n s) := statusKept_wrRole k h ..

theorem statusKept_ite {c : Prop} [Decidable c] {a b : State} (ha : StatusKept r a) (hb : StatusKept r b) : StatusKept r (if c then a else b) := by
  split
  · exact ha
  · exact hb

theorem statusKept_forEach {α : Type} {l : List α} {f : α → State → State} (k : StatusKept r s) (h : ∀ a s, StatusKept r s → StatusKept r (f a s)) :
    StatusKept r (forEach l s f) := forEach_inv k h

theorem statusKept_forUpTo {n : Nat} {f : Nat → State → State} (k : StatusKept r s) (h : ∀ i s, StatusKept r s → StatusKept r (f i s)) :
    StatusKept r (forUpTo n s f) := forUpTo_inv k h

theorem regs_noteIrq (p : Nat) (s : State) : (noteIrq p s).regs = s.regs := by
  unfold noteIrq msixAsk
  dsimp only
  repeat' split
  all_goals rfl

theorem statusKept_noteIrq (k : StatusKept r s) (p : Nat) : StatusKept r (noteIrq p s) := statusKept_of_regs k (regs_noteIrq ..)

theorem statusKept_raiseBit (k : StatusKept r s) (p i : Nat) : StatusKept r (raiseBit p i s) := by
  unfold raiseBit raise
  refine statusKept_noteIrq ?_ p
  by_cases own : p = blPage
  · subst own
    refine k.trans ⟨rdReg_wrRole_apart (by decide) (by decide) (by decide) .., rdReg_wrRole_apart (by decide) (by decide) (by decide) .., fun hb => ?_⟩
    rw [rdReg_modReg_same, bit_or, hb, Bool.true_or]
  · have page : p ≠ 2 := own
    exact statusKept_modReg k ⟨by omega, by omega, by omega⟩ _

theorem statusKept_report (k : StatusKept r s) (x : Report) : StatusKept r (report x s) := statusKept_of_regs k
theorem statusKept_offer (k : StatusKept r s) (code sev src : Nat) (fid : Bool) (bs : List Byte) : StatusKept r (offer code sev src fid bs s) := statusKept_of_regs k

theorem statusKept_captureAs (k : StatusKept r s) (p ca o d cl sh g key : Nat) : StatusKept r (captureAs p ca o d cl sh g key s) := by
  unfold captureAs captureOnly
  exact statusKept_report (statusKept_noteIrq (statusKept_modReg k ⟨by omega, by omega, by omega⟩ _) _) _

theorem statusKept_rejectWrite (k : StatusKept r s) (p o : Nat) (m : Master) : StatusKept r (rejectWrite p o m s) := by
  unfold rejectWrite raiseReject
  refine statusKept_captureAs ?_ ..
  repeat' split
  · exact statusKept_raiseBit k ..
  · exact k
  · exact k

theorem statusKept_wmSample (k : StatusKept r s) {p : Nat} (h : 3 ≤ p) (n v : Nat) : StatusKept r (wmSample p n v s) := by
  have sampled : StatusKept r (modReg p (0x040 + 0x10 * n + 8) (fun w => if w.toNat < min v 0xFFFFFFFF then w32 (min v 0xFFFFFFFF) else w)
      (wrReg p (0x040 + 0x10 * n + 4) (w32 (min v 0xFFFFFFFF)) s)) :=
    statusKept_modReg (statusKept_wrReg k (unshown_of_page h _) _) (unshown_of_page h _) _
  unfold wmSample
  dsimp only
  generalize modReg p (0x040 + 0x10 * n + 8) _ _ = t at sampled ⊢
  refine statusKept_ite (statusKept_noteIrq (statusKept_ite ?_ (statusKept_wrReg ?_ (unshown_of_page h _) _)) p) (statusKept_of_regs sampled)
  all_goals exact statusKept_wrReg (statusKept_of_regs sampled) (unshown_of_page h _) _

theorem statusKept_mxError (k : StatusKept r s) (m : Master) (a kind : Nat) : StatusKept r (mxError m a kind s) := by
  have page : 3 ≤ mxPage := by decide
  unfold mxError
  exact statusKept_ite (statusKept_raiseBit k ..)
    (statusKept_wrReg (statusKept_wrReg (statusKept_wrReg (statusKept_raiseBit k ..) (unshown_of_page page _) _) (unshown_of_page page _) _) (unshown_of_page page _) _)

theorem statusKept_memWrite (k : StatusKept r s) (a : Nat) (bs : List Byte) : StatusKept r (memWrite a bs s) := statusKept_of_regs k (regs_memWrite ..)

theorem statusKept_bankPut (k : StatusKept r s) (m : Master) (a : Nat) (bs : List Byte) : StatusKept r (bankPut m a bs s) := by
  unfold bankPut
  exact statusKept_ite (statusKept_of_regs k (regs_portWrite ..)) (statusKept_mxError k ..)

/-! ### Transactions and engines -/

theorem regs_grantAll (s : State) : (grantAll s).regs = s.regs := by
  refine forUpTo_inv (P := fun t : State => t.regs = s.regs) rfl fun row t ht => ?_
  unfold grantRow
  repeat' split
  all_goals exact ht

theorem statusKept_enterPort (k : StatusKept r s) (m : Master) (id : Nat) (write : Bool) (a : Nat) (data : List Byte) (len : Nat) (use : TransUse) :
    StatusKept r (enterPort m id write a data len use s) := statusKept_of_regs k (regs_grantAll _)

theorem statusKept_modEng (k : StatusKept r s) (i : Nat) (f : Engine → Engine) : StatusKept r (modEng i f s) := statusKept_of_regs k
theorem statusKept_flushFetch (k : StatusKept r s) (i : Nat) : StatusKept r (flushFetch i s) := statusKept_of_regs k

theorem statusKept_fillOne (k : StatusKept r s) (i : Nat) (before : List Op) (w : LoadWait) (o : Op) (rest : List Op) :
    StatusKept r (fillOne i before w o rest s) := by
  unfold fillOne
  dsimp only
  split
  · exact statusKept_modEng k ..
  · refine statusKept_ite ?_ (statusKept_ite ?_ ?_)
    · exact statusKept_enterPort (statusKept_modEng k ..) ..
    · exact statusKept_of_regs k
    · exact statusKept_memWrite (statusKept_modEng k ..) ..

theorem statusKept_fillWaits (i n : Nat) {s : State} (k : StatusKept r s) : StatusKept r (fillWaits i n s) := by
  induction n generalizing s with
  | zero => exact k
  | succ n ih =>
    unfold fillWaits
    split
    · exact k
    · exact ih (statusKept_fillOne k ..)

theorem statusKept_releaseFence (k : StatusKept r s) (i : Nat) : StatusKept r (releaseFence i s) := by
  unfold releaseFence
  dsimp only
  have freed : StatusKept r (setEng i { eng s i with fence := false, flush := false } s) := statusKept_of_regs k
  exact statusKept_ite (statusKept_ite (statusKept_flushFetch freed i) freed) k

theorem statusKept_issueStore (k : StatusKept r s) (i : Nat) : StatusKept r (issueStore i s) := by
  unfold issueStore
  split
  · exact k
  · exact statusKept_ite k (statusKept_enterPort k ..)

theorem statusKept_settled (k : StatusKept r s) (i : Nat) : StatusKept r (settled i s) := by
  unfold settled settle
  exact statusKept_issueStore (statusKept_releaseFence (statusKept_fillWaits _ _ k) _) _

theorem statusKept_sampleStack (k : StatusKept r s) (a : Nat) : StatusKept r (sampleStack a s) := by
  unfold sampleStack
  split
  · next n _ => exact statusKept_wmSample k (by simp only [hbmPage, pageIndex]; omega) ..
  · exact k

theorem statusKept_tasReply (k : StatusKept r s) (i : Nat) (data : List Byte) (err : Option BusKind) : StatusKept r (tasReply i data err s) := by
  unfold tasReply
  split
  · exact statusKept_modEng k ..
  · exact statusKept_of_regs k

/-! ### Tongs and the PCIe endpoint -/

theorem statusKept_tgFails (k : StatusKept r s) (c err : Nat) : StatusKept r (tgFails c err s) := by
  have page : 3 ≤ tongsPage := by decide
  have shown := statusKept_modReg k (unshown_of_page page (0x71C + 0x20 * c)) (fun w => setFld w 23 20 err)
  unfold tgFails
  exact statusKept_ite (statusKept_raiseBit (statusKept_of_regs shown) ..) (statusKept_of_regs shown)

theorem statusKept_tgEnter (k : StatusKept r s) (c : Nat) (write : Bool) (a : Nat) (data : List Byte) (n : Nat) : StatusKept r (tgEnter c write a data n s) :=
  statusKept_enterPort (statusKept_of_regs k) ..

theorem statusKept_tgBurst (k : StatusKept r s) {t : State} {c : Nat} (h : tgBurst s c = some t) : StatusKept r t := by
  unfold tgBurst at h
  dsimp only at h
  split at h
  · exact absurd h (by simp)
  · split at h
    · rw [← Option.some.inj h]
      exact statusKept_tgEnter (statusKept_of_regs k) ..
    · split at h
      · exact absurd h (by simp)
      · split at h
        · rw [← Option.some.inj h]
          exact statusKept_tgFails k ..
        · rw [← Option.some.inj h]
          exact statusKept_tgEnter (statusKept_of_regs k) ..

theorem statusKept_tgIssue (n : Nat) {s : State} (k : StatusKept r s) : StatusKept r (tgIssue n s) := by
  induction n generalizing s with
  | zero => exact k
  | succ n ih =>
    unfold tgIssue
    split
    · rename_i t ht
      obtain ⟨i, -, hi⟩ := List.exists_of_findSome?_eq_some ht
      exact ih (statusKept_tgBurst k hi)
    · exact k

theorem statusKept_tgStart (k : StatusKept r s) (c : Nat) (last irq : Bool) : StatusKept r (tgStart c last irq s) := by
  unfold tgStart
  split
  · exact statusKept_tgIssue _ (statusKept_of_regs k)
  · exact statusKept_tgFails k ..

theorem statusKept_tgLoad (k : StatusKept r s) (c : Nat) (bs : List Byte) : StatusKept r (tgLoad c bs s) := by
  have page : 3 ≤ tongsPage := by decide
  have put {s : State} (k : StatusKept r s) (o : Nat) (v : Word) : StatusKept r (wrReg tongsPage o v s) := statusKept_wrReg k (unshown_of_page page _) _
  unfold tgLoad
  dsimp only
  exact statusKept_tgStart (put (put (put (put (put (put (put k _ _) _ _) _ _) _ _) _ _) _ _) _ _) ..

theorem statusKept_tongsReply (k : StatusKept r s) (c : Nat) (t : Trans) (data : List Byte) (err : Option BusKind) : StatusKept r (tongsReply c t data err s) := by
  unfold tongsReply
  dsimp only
  split
  · exact statusKept_tgIssue _ (statusKept_tgFails k ..)
  · refine statusKept_ite (statusKept_tgLoad k ..) (statusKept_ite ?_ ?_)
    all_goals exact statusKept_tgIssue _ (statusKept_of_regs k)

theorem statusKept_issueRequests (k : StatusKept r s) : StatusKept r (issueRequests s) := by
  refine statusKept_forUpTo k fun i t k => ?_
  unfold issueRequest
  split
  · exact k
  · split
    · exact k
    · exact statusKept_forEach (statusKept_of_regs k) fun x u k => statusKept_enterPort k ..

theorem statusKept_finishRequest (k : StatusKept r s) (q : PciReq) : StatusKept r (finishRequest q s) := by
  unfold finishRequest writeFailed countPciErr
  have counted (hi lo : Nat) : StatusKept r (modReg pciePage 0x708 (fun w => setFld w hi lo (min (fld w hi lo + 1) 0xFFFF)) s) :=
    statusKept_modReg k (unshown_of_page (by decide) _) _
  exact statusKept_ite (statusKept_of_regs k) (statusKept_ite k (statusKept_ite (statusKept_of_regs (counted _ _)) (statusKept_of_regs (counted _ _))))

theorem statusKept_pciReply (k : StatusKept r s) (t : Trans) (data : List Byte) (err : Option BusKind) : StatusKept r (pciReply t data err s) := by
  unfold pciReply
  split
  · exact statusKept_issueRequests k
  · exact statusKept_issueRequests (statusKept_forEach (statusKept_of_regs k) fun q u k => statusKept_finishRequest k q)

/-! ### The fabric -/

theorem three_le_fbpPage (p : Nat) : 3 ≤ fbpPage p := by simp only [fbpPage, pageIndex]; omega

theorem statusKept_countFb (k : StatusKept r s) (o : Nat) : StatusKept r (countFb o s) := statusKept_countReg k (unshown_of_page (by decide) o) 1

theorem statusKept_sendFrames (p n : Nat) {s : State} (k : StatusKept r s) : StatusKept r (sendFrames.go p n s) := by
  induction n generalizing s with
  | zero => exact k
  | succ n ih =>
    unfold sendFrames.go
    split
    · exact k
    split
    · exact ih (statusKept_of_regs k)
    · exact k

theorem statusKept_queueFrame (k : StatusKept r s) (p : Nat) (f : Frame) : StatusKept r (queueFrame p f s) := by
  unfold queueFrame sendFrames
  exact statusKept_wmSample (statusKept_sendFrames _ _ (statusKept_of_regs k)) (three_le_fbpPage p) ..

theorem statusKept_forwardOn (k : StatusKept r s) (p : Nat) (f : Frame) : StatusKept r (forwardOn p f s) := by
  unfold forwardOn
  exact statusKept_ite (statusKept_countFb k _) (statusKept_queueFrame k ..)

theorem statusKept_routeQuiet (k : StatusKept r s) (f : Frame) : StatusKept r (routeQuiet f s) := by
  unfold routeQuiet
  split
  · exact statusKept_forwardOn k ..
  · exact statusKept_countFb k _

theorem statusKept_sendTo (k : StatusKept r s) (f : Frame) : StatusKept r (sendTo f s) := by
  unfold sendTo
  dsimp only
  refine statusKept_ite (statusKept_of_regs k) ?_
  split
  · exact statusKept_forwardOn k ..
  · have counted := statusKept_countFb k 0x738
    exact statusKept_ite counted (statusKept_ite (statusKept_of_regs counted) (statusKept_routeQuiet counted _))

theorem statusKept_notice (k : StatusKept r s) (code data : Nat) : StatusKept r (notice code data s) := by
  unfold notice
  exact statusKept_ite k (statusKept_sendTo k _)

theorem statusKept_completeDesc (k : StatusKept r s) (i kind : Nat) : StatusKept r (completeDesc i kind s) :=
  statusKept_raiseBit (statusKept_bankPut k ..) ..

theorem statusKept_holdover (k : StatusKept r s) : StatusKept r (holdover s) := by
  unfold holdover
  dsimp only
  split
  · exact k
  · have reached : ∀ p : Nat, StatusKept r (if portUp s p then reach ((port s p).lastSync + 3000 * us) s else s) := fun p =>
      statusKept_ite (statusKept_of_regs k) k
    have shown := fun p => statusKept_modReg (reached p) (unshown_of_page (by decide : 3 ≤ fbPage) 0x754) (fun w => setBit w 30 true)
    refine statusKept_ite (statusKept_of_regs (reached _)) (statusKept_ite (reached _) ?_)
    exact statusKept_notice (statusKept_offer (statusKept_raiseBit (statusKept_of_regs (shown _)) ..) ..) ..

theorem statusKept_endTransaction (k : StatusKept r s) (x : FabTrans) (kind : Nat) : StatusKept r (endTransaction x kind s) := by
  unfold endTransaction
  exact statusKept_completeDesc (statusKept_wmSample (statusKept_of_regs k) (by decide) ..) ..

theorem statusKept_ringEnds (k : StatusKept r s) : StatusKept r (ringEnds s) := by
  unfold ringEnds
  exact statusKept_ite k (statusKept_completeDesc (statusKept_wrReg k (unshown_of_page (by decide) _) _) ..)

theorem statusKept_fabricLost (k : StatusKept r s) : StatusKept r (fabricLost s) := by
  unfold fabricLost
  dsimp only
  refine statusKept_holdover (statusKept_of_regs (statusKept_forUpTo (statusKept_forEach (statusKept_forUpTo k ?_) ?_) ?_))
  · exact fun p t k => statusKept_of_regs k
  · exact fun x t k => statusKept_endTransaction k ..
  · exact fun _ t k => statusKept_ringEnds k

/-! ### Trips and losses -/

theorem three_le_chPage (c : Nat) : 3 ≤ chPage c := by simp only [chPage, pageIndex]; omega
theorem three_le_palPage (l : Nat) : 3 ≤ palPage l := by simp only [palPage, pageIndex]; omega
theorem three_le_tqPage (t : Nat) : 3 ≤ tqPage t := by simp only [tqPage, pageIndex]; omega

theorem statusKept_timingError (k : StatusKept r s) (c : Nat) : StatusKept r (timingError c s) := by
  unfold timingError strmFlag
  exact statusKept_raiseBit (statusKept_modReg (statusKept_of_regs k) (unshown_of_page (three_le_palPage _) _) _) ..

theorem statusKept_pmuEvent (k : StatusKept r s) (c : Nat) : StatusKept r (pmuEvent c s) := by
  unfold pmuEvent pmuTriggered
  have shown := statusKept_modReg k (unshown_of_page (three_le_chPage c) 0x708) (fun w => setBit w 31 false)
  exact statusKept_ite k (statusKept_ite (statusKept_captureAs k ..) (statusKept_ite k (statusKept_of_regs shown)))

theorem regs_strobeRegion (c : Nat) (st : Stroke) (t : Nat) (volts : Int) (s : State) : (strobeRegion c st t volts s).2.regs = s.regs := by
  unfold strobeRegion
  split <;> rfl

theorem statusKept_applyEvent (k : StatusKept r s) (c : Nat) (e : PalEvent) (st : Stroke) (volts : Int) : StatusKept r (applyEvent c e st volts s) := by
  have err := statusKept_timingError k c
  unfold applyEvent
  dsimp only
  refine statusKept_ite err ?_
  split
  · exact statusKept_ite err (statusKept_of_regs k)
  · exact statusKept_ite err (statusKept_of_regs k)
  · exact statusKept_ite err (statusKept_of_regs k (regs_strobeRegion ..))
  · exact statusKept_ite err (statusKept_of_regs k)
  · split
    · exact err
    · exact statusKept_ite err (statusKept_of_regs k)
  · exact statusKept_pmuEvent k c

theorem statusKept_nextEvent (k : StatusKept r s) (c : Nat) (volts : Int) (strayed : Bool) : StatusKept r (nextEvent c volts strayed s) := by
  unfold nextEvent
  split
  · exact k
  split
  · exact k
  · exact statusKept_applyEvent (statusKept_of_regs k) ..

theorem statusKept_eventsBefore (c n : Nat) {s : State} (k : StatusKept r s) : StatusKept r (eventsBefore c n s) := by
  induction n generalizing s with
  | zero => exact k
  | succ n ih =>
    unfold eventsBefore
    split
    · exact k
    split
    · exact k
    · exact statusKept_ite (ih (statusKept_nextEvent (statusKept_of_regs k) ..)) k

theorem statusKept_abortPmu (k : StatusKept r s) (c : Nat) : StatusKept r (abortPmu c s) := by
  unfold abortPmu
  exact statusKept_ite k (statusKept_modReg (statusKept_of_regs k) (unshown_of_page (three_le_chPage _) _) _)

theorem statusKept_trip (k : StatusKept r s) (c cause key : Nat) : StatusKept r (trip c cause key s) := by
  unfold trip
  dsimp only
  refine statusKept_ite (statusKept_of_regs k) (statusKept_captureAs (statusKept_raiseBit (statusKept_countReg (statusKept_of_regs ?_) (unshown_of_page (three_le_tqPage _) _) _) ..) ..)
  exact statusKept_of_regs (statusKept_abortPmu (statusKept_eventsBefore c 8 k) c)

theorem statusKept_tripWatched (k : StatusKept r s) (c cause key : Nat) : StatusKept r (tripWatched c cause key s) := by
  unfold tripWatched
  exact statusKept_ite (statusKept_trip k ..) k

theorem statusKept_tripAll (k : StatusKept r s) (cause key : Nat) : StatusKept r (tripAll cause key s) :=
  statusKept_forUpTo k fun c _ k => statusKept_tripWatched k c cause key

theorem statusKept_giveReply (k : StatusKept r s) (t : Trans) (data : List Byte) (err : Option BusKind) : StatusKept r (giveReply t data err s) := by
  unfold giveReply
  split
  case h_1 => exact statusKept_of_regs k
  case h_2 | h_3 | h_4 | h_5 => exact statusKept_modEng k ..
  case h_6 => exact statusKept_settled (statusKept_tasReply k ..) _
  case h_7 =>
    split
    · unfold storeBusError
      split
      · exact k
      · exact statusKept_settled (statusKept_of_regs k) _
    · unfold storeLeaves
      exact statusKept_ite k (statusKept_settled (statusKept_of_regs k) _)
  case h_8 => exact statusKept_sampleStack (statusKept_modEng k ..) _
  case h_9 => exact statusKept_tongsReply k ..
  case h_10 => exact statusKept_pciReply k ..
  case h_11 => exact statusKept_sendTo k _
  case h_12 => exact k

theorem statusKept_matrixReply (k : StatusKept r s) (t : Trans) (data : List Byte) (err : Option BusKind) : StatusKept r (matrixReply t data err s) := by
  unfold matrixReply
  refine statusKept_giveReply ?_ ..
  split
  · exact statusKept_ite k (statusKept_mxError k ..)
  · exact k

theorem statusKept_endCrossing (k : StatusKept r s) (d : Nat) : StatusKept r (endCrossing d s) := by
  unfold endCrossing
  exact statusKept_of_regs (statusKept_forEach (statusKept_of_regs k) fun t u k => statusKept_matrixReply k ..) (regs_grantAll _)

theorem statusKept_skipDomain (k : StatusKept r s) (d : Nat) : StatusKept r (skipDomain d s) :=
  statusKept_forUpTo k fun _ _ k => statusKept_ite (statusKept_of_regs k) k

theorem statusKept_linkDown (k : StatusKept r s) : StatusKept r (linkDown s) := by
  unfold linkDown
  exact statusKept_ite (statusKept_raiseBit (statusKept_modReg (statusKept_modReg k (unshown_of_page (by decide) _) _) (unshown_of_page (by decide) _) _) ..) k

theorem statusKept_degradeSites (k : StatusKept r s) (t : Nat) : StatusKept r (degradeSites t s) := statusKept_forEach k fun _ _ k => statusKept_of_regs k
theorem statusKept_stackLost (k : StatusKept r s) (n : Nat) : StatusKept r (stackLost n s) := statusKept_forEach k fun _ _ k => statusKept_modEng k ..

theorem statusKept_lossEffects (k : StatusKept r s) (d : Nat) : StatusKept r (lossEffects d s) := by
  unfold lossEffects
  dsimp only
  have lost := statusKept_skipDomain (statusKept_endCrossing k d) d
  refine statusKept_ite ?_ (statusKept_ite (statusKept_tripAll lost ..) (statusKept_ite (statusKept_linkDown (statusKept_fabricLost lost)) (statusKept_stackLost lost _)))
  exact statusKept_degradeSites (statusKept_forUpTo lost fun p t k => statusKept_trip k ..) d

theorem statusKept_isolate (k : StatusKept r s) (d : Nat) : StatusKept r (isolate d s) := by
  unfold isolate loseBy
  exact statusKept_ite k (statusKept_ite (statusKept_of_regs k) (statusKept_lossEffects (statusKept_of_regs k) d))

end

end Sys2Proof.Machine
end

-- ==== the cause of a reset through start-up ====
section
/-! PROOFS. Start-up leaves RST_CAUSE, BL_STAT and the interrupt of Bellows as they were (spec 17 R429, R432-R435). -/

-- One theorem at a time: elaborating them in parallel takes the memory of many threads.
set_option Elab.async false

namespace Sys2Proof.Machine

section
variable {r s : State}

/-! ### The firmware's records (18 R457, R458) -/

theorem regs_copyRange (src dst n : Nat) (s : State) : (copyRange src dst n s).regs = s.regs :=
  forEach_inv (P := fun t : State => t.regs = s.regs) rfl fun _ _ h => h

theorem statusKept_linePut (k : StatusKept r s) (a : Nat) (v : Word) : StatusKept r (linePut a v s) := statusKept_bankPut k ..
theorem statusKept_markSlot (k : StatusKept r s) (i : Nat) (bad : Bool) : StatusKept r (markSlot i bad s) := statusKept_linePut k ..
theorem statusKept_setSlots (k : StatusKept r s) (f : Word → Word) : StatusKept r (setSlots f s) := statusKept_linePut k ..

theorem statusKept_noteStep (k : StatusKept r s) (j : Journal) : StatusKept r (noteStep j s) := by
  have page : 3 ≤ updPage := by decide
  unfold noteStep putJournal
  exact statusKept_wrReg (statusKept_raiseBit (statusKept_of_regs (statusKept_bankPut k ..)) ..) (unshown_of_page page _) _

theorem statusKept_closeLine (k : StatusKept r s) : StatusKept r (closeLine s) := by
  unfold closeLine putJournal
  split
  · exact statusKept_of_regs (statusKept_bankPut k ..)
  · exact k

theorem statusKept_countSuppressed (k : StatusKept r s) (code src : Nat) : StatusKept r (countSuppressed code src s) := statusKept_of_regs k

theorem statusKept_enqueueEvent (k : StatusKept r s) (ev : PatEvent) (mayWait : Bool) : StatusKept r (enqueueEvent ev mayWait s) := by
  have page : 3 ≤ patPage := by decide
  unfold enqueueEvent
  exact statusKept_ite (statusKept_of_regs k) (statusKept_ite (statusKept_of_regs k) (statusKept_countReg (statusKept_countSuppressed k ..) (unshown_of_page page _) _))

theorem statusKept_intakeEvent (k : StatusKept r s) (ev : PatEvent) (submission : Bool) : StatusKept r (intakeEvent ev submission s) := by
  have page : 3 ≤ patPage := by decide
  unfold intakeEvent suppress
  refine statusKept_ite k (statusKept_ite (statusKept_enqueueEvent k ..) (statusKept_ite (statusKept_enqueueEvent k ..) (statusKept_ite ?_ ?_)))
  · exact statusKept_countReg (statusKept_countSuppressed k ..) (unshown_of_page page _) _
  · exact statusKept_enqueueEvent (statusKept_of_regs k) ..

theorem statusKept_submitEvent (k : StatusKept r s) (code sev src : Nat) (bs : List Byte) : StatusKept r (submitEvent code sev src bs s) := by
  unfold submitEvent
  exact statusKept_ite (statusKept_rejectWrite k ..) (statusKept_intakeEvent k ..)

theorem statusKept_closeJournal (k : StatusKept r s) (j : Journal) (res : Nat) : StatusKept r (closeJournal j res s) := by
  have page : 3 ≤ updPage := by decide
  unfold closeJournal
  dsimp only
  have closed : StatusKept r (setSlots (fun w => setBit w (8 + j.comp) false) (closeLine (if j.step ≤ 1 then markSlot (slotKey j.comp j.slotB) j.was s else s))) :=
    statusKept_setSlots (statusKept_closeLine (statusKept_ite (statusKept_markSlot k ..) k)) _
  refine statusKept_submitEvent (statusKept_raiseBit (statusKept_wrReg (statusKept_ite ?_ closed) (unshown_of_page page _) _) ..) ..
  have committed : StatusKept r (wrReg updPage (0x710 + 4 * j.comp) j.manifest.version (setSlots (fun w => setBit w j.comp j.slotB)
      (setSlots (fun w => setBit w (8 + j.comp) false) (closeLine (if j.step ≤ 1 then markSlot (slotKey j.comp j.slotB) j.was s else s))))) :=
    statusKept_wrReg (statusKept_setSlots closed _) (unshown_of_page page _) _
  exact statusKept_linePut (statusKept_ite (statusKept_linePut (statusKept_of_regs committed) ..) committed) ..

theorem statusKept_tongsCopy (k : StatusKept r s) (src dst n : Nat) : StatusKept r (tongsCopy src dst n s) := by
  have copied := regs_copyRange src dst n s
  unfold tongsCopy mramPush
  generalize copyRange src dst n s = t at copied ⊢
  exact statusKept_of_regs k copied

theorem statusKept_copyChunks (k : StatusKept r s) (j : Journal) (n : Nat) : StatusKept r (copyChunks j n s) :=
  statusKept_forUpTo k fun _ _ k => statusKept_noteStep (statusKept_tongsCopy k ..) _

theorem statusKept_slotVerified (k : StatusKept r s) (j : Journal) : StatusKept r (slotVerified j s) := by
  unfold slotVerified
  exact statusKept_noteStep (statusKept_markSlot (statusKept_of_regs k) ..) _

theorem statusKept_checkStep (k : StatusKept r s) (j : Journal) : StatusKept r (checkStep j s) := by
  unfold checkStep
  exact statusKept_ite (statusKept_noteStep (statusKept_setSlots (statusKept_noteStep k _) _) _) (statusKept_closeJournal (statusKept_offer k ..) ..)

theorem statusKept_resolveJournal (k : StatusKept r s) (found : Nat → Bool) : StatusKept r (resolveJournal found s) := by
  unfold resolveJournal
  split
  · exact k
  · next j _ =>
    dsimp only
    have copied : StatusKept r (if j.chunks < chunksOf j.len then copyChunks j (chunksOf j.len) s else s) := statusKept_ite (statusKept_copyChunks k ..) k
    refine statusKept_ite (statusKept_closeJournal k ..) (statusKept_ite (statusKept_ite (statusKept_closeJournal k ..) ?_) (statusKept_ite (statusKept_checkStep k _) ?_))
    · exact statusKept_ite (statusKept_checkStep (statusKept_slotVerified copied _) _) (statusKept_closeJournal copied ..)
    · exact statusKept_ite (statusKept_of_regs k) (statusKept_closeJournal k ..)

theorem statusKept_runSelection (k : StatusKept r s) (x : Selection) : StatusKept r (runSelection x s) := by
  have page : 3 ≤ updPage := by decide
  unfold runSelection
  dsimp only
  have held : StatusKept r (forEach x.held (tick s) (fun h s => versionHeld h.1 h.2.1 h.2.2 (raiseBit updPage 2 (setSlots (fun w => setBit w (16 + h.1) true) s)))) :=
    statusKept_forEach (statusKept_of_regs k) fun h t k => statusKept_offer (statusKept_raiseBit (statusKept_setSlots k _) ..) ..
  exact statusKept_forUpTo (statusKept_ite held (statusKept_setSlots held _)) fun c t k => statusKept_wrReg k (unshown_of_page page _) _

theorem statusKept_endPending (k : StatusKept r s) (x : Selection) : StatusKept r (endPending x s) := by
  unfold endPending
  split
  · exact statusKept_ite (statusKept_closeJournal k ..) k
  · exact k

/-! ### Ports, stores, tiles and stacks (17 R435) -/

theorem statusKept_devStat (k : StatusKept r s) (hi lo v : Nat) : StatusKept r (devStat hi lo v s) :=
  statusKept_modReg k ⟨by decide, by decide, by decide⟩ _

theorem statusKept_portState (k : StatusKept r s) (p st : Nat) : StatusKept r (portState p st s) := by
  unfold portState
  exact statusKept_ite k (statusKept_raiseBit (statusKept_of_regs k) ..)

theorem statusKept_faultPort (k : StatusKept r s) (p : Nat) : StatusKept r (faultPort p s) := by
  unfold faultPort
  dsimp only
  refine statusKept_forEach (statusKept_notice (statusKept_report (statusKept_raiseBit (statusKept_of_regs (statusKept_portState k p 4)) ..) _) ..) fun f t k => ?_
  exact statusKept_ite (statusKept_ite k (statusKept_countFb k _)) (statusKept_ite k (statusKept_sendTo k _))

theorem statusKept_enablePorts (k : StatusKept r s) : StatusKept r (enablePorts s) := by
  unfold enablePorts
  refine statusKept_ite k (statusKept_forUpTo k fun p t k => ?_)
  unfold portEnable
  exact statusKept_ite (statusKept_ite k (statusKept_faultPort k p)) (statusKept_ite k (statusKept_ite (statusKept_portState (statusKept_of_regs k) ..)
    (statusKept_ite (statusKept_portState k ..) k)))

theorem three_le_storePage (i : Nat) : 3 ≤ storePage i := by
  unfold storePage
  split
  · simp only [pageIndex]; omega
  · simp only [pageIndex]; omega

theorem statusKept_bootStore (k : StatusKept r s) (i : Nat) (bad : Bool) : StatusKept r (bootStore i bad s) := by
  unfold bootStore loadSockets
  dsimp only
  refine statusKept_ite (statusKept_raiseBit (statusKept_captureAs (statusKept_of_regs k) ..) ..) (statusKept_ite ?_ (statusKept_of_regs k))
  exact statusKept_forUpTo (statusKept_of_regs k) fun n t k => statusKept_wrReg k (unshown_of_page (three_le_storePage _) _) _

theorem three_le_hbmPage (n : Nat) : 3 ≤ hbmPage n := by simp only [hbmPage, pageIndex]; omega

theorem statusKept_bootBlocks (k : StatusKept r s) (b : BootFind) : StatusKept r (bootBlocks b s) := by
  unfold bootBlocks startStores startTiles trainStacks restartsDone trainFails trainReady
  dsimp only
  have stores := statusKept_forUpTo (n := 8) (statusKept_forUpTo (n := 64) k fun l t k => statusKept_bootStore k l (b.laneBad.contains l))
    fun i t k => statusKept_bootStore k (64 + i) (b.clusterBad.contains i)
  refine statusKept_enablePorts (statusKept_forUpTo (statusKept_forUpTo (statusKept_forUpTo stores ?_) ?_) ?_)
  · exact fun t u k => statusKept_ite (statusKept_isolate (statusKept_report k _) t) k
  · have shown {u : State} (k : StatusKept r u) (n : Nat) (v : Word) := statusKept_wrReg k (unshown_of_page (three_le_hbmPage n) 0x700) v
    exact fun n u k => statusKept_ite k (statusKept_ite (statusKept_isolate (statusKept_report (statusKept_raiseBit (shown k ..) ..) _) _) (statusKept_raiseBit (shown k ..) ..))
  · exact fun d u k => statusKept_of_regs k

/-! ### Constants and channels -/

theorem statusKept_loadTile (k : StatusKept r s) (t : Nat) : StatusKept r (loadTile t s) := by
  unfold loadTile
  refine statusKept_ite k (statusKept_forUpTo k fun p u k => ?_)
  have put {u : State} (k : StatusKept r u) (c o : Nat) (v : Word) : StatusKept r (putConst (chPage c) o v u) :=
    statusKept_wrRole (statusKept_wrRole k (unshown_of_page (three_le_chPage c) o) ..) (unshown_of_page (three_le_chPage c) o) ..
  unfold loadRecord
  dsimp only
  split
  · exact put (statusKept_forEach k fun o v k => put k ..) ..
  · exact statusKept_forEach k fun o v k => put k ..

theorem statusKept_bootConsts (k : StatusKept r s) : StatusKept r (bootConsts s) := by
  unfold bootConsts
  have loaded := statusKept_devStat (statusKept_forUpTo (n := 8) k fun t u k => statusKept_loadTile k t) 28 28
  exact statusKept_ite (loaded _) (statusKept_offer (loaded _) ..)

theorem statusKept_latchHolds (k : StatusKept r s) (c : Nat) : StatusKept r (latchHolds c s) := by
  unfold latchHolds
  exact statusKept_ite (statusKept_trip k ..) (statusKept_ite (statusKept_trip k ..) (statusKept_ite (statusKept_trip k ..) k))

theorem regs_srcChange (c : Nat) (old new : Word) (s : State) : (srcChange c old new s).regs = s.regs := by
  unfold srcChange
  split <;> rfl

theorem statusKept_hizChannels (k : StatusKept r s) : StatusKept r (hizChannels s) := by
  refine statusKept_forUpTo k fun c t k => statusKept_ite k (statusKept_latchHolds (statusKept_wrReg ?_ (unshown_of_page (three_le_chPage c) _) _) c)
  exact statusKept_of_regs k (regs_srcChange ..)

theorem statusKept_startBlocks (k : StatusKept r s) (b : BootFind) : StatusKept r (startBlocks b s) := by
  unfold startBlocks bootChannels
  exact statusKept_raiseBit (statusKept_devStat (statusKept_devStat (statusKept_devStat (statusKept_hizChannels (statusKept_bootConsts (statusKept_bootBlocks k b))) ..) ..) ..) ..

theorem statusKept_serviceSafe (k : StatusKept r s) (comp : Nat) : StatusKept r (serviceSafe comp s) := by
  unfold serviceSafe restartsDone
  have done := statusKept_forUpTo (n := 14) k fun d t k => statusKept_of_regs (t := setDom d { dom t d with due := false } t) k
  generalize forUpTo 14 s _ = u at done ⊢
  have ports := statusKept_enablePorts done
  exact statusKept_offer (statusKept_devStat (statusKept_devStat (statusKept_devStat (statusKept_hizChannels ports) ..) ..) ..) ..

/-! ### The firmware, and start-up as a whole (17 R432-R434; 18 R455) -/

theorem statusKept_startFirmware (k : StatusKept r s) (src len : Nat) (b : BootFind) : StatusKept r (startFirmware src len b s) := by
  have page : 3 ≤ pageIndex ⟨.mx, 0⟩ := by decide
  unfold startFirmware
  dsimp only
  have found : StatusKept r (modImages (fun i => { foundSlots b i with host := if src = 2 then some b.host else none }) s) := statusKept_of_regs k
  generalize modImages _ s = u at found ⊢
  have copied := statusKept_of_regs found (regs_copyRange (if src = 2 then 0x801000 else slotContent 0 (src = 1)) 0x400000 (min (firmwareLen u src len b) 0xFF000) u)
  generalize copyRange _ _ _ u = v at copied ⊢
  have runs := statusKept_wrReg (statusKept_devStat (statusKept_devStat copied 26 25 src) 27 27 0) (unshown_of_page page 0x700) 1
  generalize wrReg _ _ _ _ = w at runs ⊢
  exact statusKept_raiseBit (statusKept_devStat (statusKept_devStat (statusKept_forUpTo runs fun p t k => statusKept_modEng k ..) ..) ..) ..

theorem statusKept_runFirmware (k : StatusKept r s) (b : BootFind) : StatusKept r (runFirmware b s).1 := by
  unfold runFirmware
  dsimp only
  have resolved := statusKept_resolveJournal k (fun k => (smGet none s.images.slots k).isSome)
  generalize resolveJournal _ s = u at resolved ⊢
  have selected := statusKept_runSelection (statusKept_endPending resolved (selectCombo u)) (selectCombo u)
  generalize runSelection (selectCombo u) (endPending (selectCombo u) u) = v at selected ⊢
  split
  · exact statusKept_serviceSafe selected _
  split
  · exact statusKept_linePut selected ..
  · exact statusKept_startBlocks selected b

/-- The domains with the pages of each READY. -/
def readied (s : State) : State := forUpTo 14 s (fun d s => setDom d { dom s d with waits := none } s)

theorem bootStart_eq (b : BootFind) (s : State) : bootStart b s =
    { modImages (fun _ => foundSlots b {}) (readied s) with journal := readJournal (modImages (fun _ => foundSlots b {}) (readied s)) } := by
  unfold bootStart readied
  with_reducible rfl

theorem regs_readied (s : State) : (readied s).regs = s.regs :=
  forUpTo_inv (P := fun t : State => t.regs = s.regs) rfl fun _ _ h => (setDom_regs ..).trans h

theorem regs_modJournal (f : Images → Images) (j : Option Journal) (s : State) : ({ modImages f s with journal := j } : State).regs = s.regs := rfl

theorem regs_bootStart (b : BootFind) (s : State) : (bootStart b s).regs = s.regs := by
  rw [bootStart_eq, regs_modJournal, regs_readied]

theorem statusKept_bootOnce (k : StatusKept r s) (b : BootFind) : StatusKept r (bootOnce b s).1 := by
  have found := statusKept_of_regs k (regs_bootStart b s)
  unfold bootOnce
  dsimp only
  generalize bootStart b s = u at found ⊢
  split
  · next x _ =>
    have started := statusKept_startFirmware found x.toNat 0x100000 b
    generalize startFirmware _ _ b u = v at started ⊢
    exact statusKept_runFirmware started b
  · exact statusKept_devStat (statusKept_devStat found ..) ..

theorem statusKept_setLatch (k : StatusKept r s) (b origin cause : Nat) : StatusKept r (setLatch b origin cause s) := by
  have page : 3 ≤ quenchPage := by decide
  unfold setLatch
  exact statusKept_ite k (statusKept_tripAll (statusKept_offer (statusKept_report (statusKept_raiseBit (statusKept_countReg (statusKept_modReg k (unshown_of_page page _) _)
    (unshown_of_page page _) _) ..) _) ..) ..)

end

theorem cause_powerUp (cause : Nat) (s : State) : rdReg (powerUp cause s) rstPage 0x70C = w32 cause := by
  have written : rdReg (wrReg rstPage 0x70C (w32 cause) s) rstPage 0x70C = w32 cause := rdReg_wrReg_same ..
  have put : StatusKept (wrReg rstPage 0x70C (w32 cause) s)
      (modPat (fun p => { p with intake := patEvent 0x1001 1 rstPage false (leBytes 4 cause) :: p.intake })
        (vauxPut (clockLine + 4) (w32 (pcyc s + 1)) (wrReg rstPage 0x70C (w32 cause) s))) := statusKept_of_regs (.refl _) (regs_targetWrite ..)
  have pins : StatusKept (wrReg rstPage 0x70C (w32 cause) s) (powerUp cause s) := by
    unfold powerUp pinStays
    exact statusKept_ite (statusKept_setLatch put ..) put
  exact pins.cause.trans written

theorem cause_bootOnce (b : BootFind) (cause : Nat) (s : State) : rdReg (bootOnce b (powerUp cause s)).1 rstPage 0x70C = w32 cause :=
  (statusKept_bootOnce (.refl _) b).cause.trans (cause_powerUp cause s)

/-- R429, 18 R455: RST_CAUSE shows the cause, or 5 where the firmware held itself back. -/
theorem cause_boot (b : BootFind) (cause : Nat) (s : State) :
    rdReg (boot b (powerUp cause s)) rstPage 0x70C = if (bootOnce b (powerUp cause s)).2 = true then 5 else w32 cause := by
  have first := cause_bootOnce b cause s
  unfold boot finishBoot
  generalize bootOnce b (powerUp cause s) = x at first ⊢
  split
  · exact cause_bootOnce b 5 _
  · exact first

end Sys2Proof.Machine
end

-- ==== the roles of the management pairs ====
section
/-! PROOFS. Failover and the commands of a pair (spec 18 R448-R451). -/

-- One theorem at a time: elaborating them in parallel takes the memory of many threads.
set_option Elab.async false

namespace Sys2Proof.Machine

/-! ### Roles -/

theorem mcPage_ne {p q : Nat} (h : p ≠ q) : mcPage p ≠ mcPage q := by simp only [mcPage, pageIndex]; omega

theorem pageOnly_setRole (p x : Nat) (s : State) : PageOnly s (setRole p x s) := (pageOnly_modReg ..).trans (pageOnly_raiseBit ..)

/-- MC_STAT of a pair whose role changes. -/
theorem stat_setRole_same (p x : Nat) (s : State) : rdReg (setRole p x s) (mcPage p) 0x700 = setFld (rdReg s (mcPage p) 0x700) 31 30 x := by
  unfold setRole
  rw [rdReg_raiseBit_offset (by decide) (by decide), rdReg_modReg_same]

theorem stat_setRole_ne {p q : Nat} (hp : p < 2) (hq : q < 2) (h : p ≠ q) (x : Nat) (s : State) :
    rdReg (setRole p x s) (mcPage q) 0x700 = rdReg s (mcPage q) 0x700 := by
  unfold setRole
  rw [rdReg_raiseBit_offset (by decide) (by decide), rdReg_modReg_ne (mcPage_lt hp) (mcPage_lt hq) (by decide) (by decide) (fun e => mcPage_ne h e.1)]

theorem count_setRole (p q x : Nat) (s : State) : rdReg (setRole p x s) (mcPage q) 0x708 = rdReg s (mcPage q) 0x708 := by
  unfold setRole
  rw [rdReg_raiseBit_offset (by decide) (by decide), rdReg_modReg_offset (by decide) (by decide) (by decide)]

theorem role_setRole_same (p : Nat) {x : Nat} (hx : x < 4) (s : State) : role (setRole p x s) p = x := by
  unfold role
  rw [stat_setRole_same, fld_setFld_same _ _ (by decide) (by decide)]
  exact Nat.mod_eq_of_lt hx

theorem role_setRole_ne {p q : Nat} (hp : p < 2) (hq : q < 2) (h : p ≠ q) (x : Nat) (s : State) : role (setRole p x s) q = role s q := by
  unfold role
  rw [stat_setRole_ne hp hq h]

theorem role_of_regs {s t : State} (h : t.regs = s.regs) (p : Nat) : role t p = role s p := by
  unfold role
  rw [rdReg_of_regs h (by decide)]

/-- The only pair with ROLE = ACTIVE is the active one. -/
theorem activePair_of_roles {p : Nat} (hp : p < 2) {s : State} (other : role s p ≠ 1) (active : role s (1 - p) = 1) : activePair s = some (1 - p) := by
  unfold role at other active
  unfold activePair
  obtain rfl | rfl : p = 0 ∨ p = 1 := by omega
  · simp [List.range_succ, other, active]
  · simp [List.range_succ, active]

theorem activePair_some {s : State} {p : Nat} (h : activePair s = some p) : p < 2 ∧ role s p = 1 := by
  unfold activePair at h
  exact ⟨List.mem_range.1 (List.mem_of_find?_eq_some h), by simpa [role] using List.find?_some h⟩

/-! ### What a change of roles leaves -/

/-- The state t differs from s in registers, Temper, the engines of the pairs, the transactions and the services, and not in the channels, the memory and the
journal. -/
def SameWork (s t : State) : Prop := t.chans = s.chans ∧ t.mem = s.mem ∧ t.journal = s.journal

theorem SameWork.trans {s t u : State} (h : SameWork s t) (k : SameWork t u) : SameWork s u :=
  ⟨k.1.trans h.1, k.2.1.trans h.2.1, k.2.2.trans h.2.2⟩

theorem sameWork_pageOnly {s t : State} (h : PageOnly s t) : SameWork s t := ⟨h.chans_eq, h.mem_eq, h.journal_eq⟩

theorem sameWork_stopPair (p : Nat) (s : State) : SameWork s (stopPair p s) := ⟨rfl, rfl, rfl⟩
theorem sameWork_restartPair (p : Nat) (s : State) : SameWork s (restartPair p s) := ⟨rfl, rfl, rfl⟩
theorem sameWork_resumeService (s : State) : SameWork s (resumeService s) := ⟨rfl, rfl, rfl⟩

/-- What the end of Temper's test of a pair changes. -/
def testLeft (s : State) : State :=
  countReg temperPage 0x708 1 (modReg temperPage 0x704 (fun w => setBit w 31 false) { s with temper := { s.temper with test := none } })

theorem leaveTemper_eq (p : Nat) (s : State) : leaveTemper p s = if s.temper.test = some (0, p) then testLeft s else s := by
  unfold leaveTemper
  split
  · next h =>
    unfold temperAborts
    simp only [h]
    rfl
  · rfl

theorem rdReg_noTest (p o : Nat) (s : State) : rdReg { s with temper := { s.temper with test := none } } p o = rdReg s p o := rfl

theorem testLeft_reg {p o : Nat} (hp : p < 2) (ho : bankable o = false) (hlt : o < 4096) (s : State) : rdReg (testLeft s) (mcPage p) o = rdReg s (mcPage p) o := by
  have page : mcPage p = 8 + p := rfl
  have temper : temperPage = 0x22 := rfl
  unfold testLeft countReg
  rw [modReg, wrReg, rdReg_wrRole_apart ho (by rw [page, temper]; omega) (by rw [page]; omega), modReg, wrReg,
    rdReg_wrRole_apart ho (by rw [page, temper]; omega) (by rw [page]; omega), rdReg_noTest]

theorem leaveTemper_reg {p o : Nat} (hp : p < 2) (ho : bankable o = false) (hlt : o < 4096) (q : Nat) (s : State) :
    rdReg (leaveTemper q s) (mcPage p) o = rdReg s (mcPage p) o := by
  rw [leaveTemper_eq]
  split
  · exact testLeft_reg hp ho hlt s
  · rfl

theorem sameWork_leaveTemper (p : Nat) (s : State) : SameWork s (leaveTemper p s) := by
  rw [leaveTemper_eq]
  split
  · exact SameWork.trans (t := { s with temper := { s.temper with test := none } }) ⟨rfl, rfl, rfl⟩ (sameWork_pageOnly ((pageOnly_modReg ..).trans (pageOnly_countReg ..)))
  · exact ⟨rfl, rfl, rfl⟩

/-! ### The engines -/

theorem off_stopPair {p : Nat} (hp : p < 2) (s : State) : (eng (stopPair p s) (1024 + p)).run = .off := by
  unfold stopPair
  dsimp only
  rw [eng_modEng_ne (by omega), eng_modEng_same]
  rfl

theorem regs_stopPair (p : Nat) (s : State) : (stopPair p s).regs = s.regs := rfl
theorem regs_restartPair (p : Nat) (s : State) : (restartPair p s).regs = s.regs := rfl

theorem resumeFromJournal_closed {s : State} (found : Nat → Bool) (h : s.journal = none) : resumeFromJournal found s = s := if_pos (by rw [h]; rfl)

/-! ### SWITCH (18 R449) -/

theorem switchRoles_roles {p : Nat} (hp : p < 2) (s : State) : role (switchRoles p s) p = 1 ∧ role (switchRoles p s) (1 - p) = 2 := by
  have other : 1 - (1 - p) = p := by omega
  have ne : 1 - p ≠ p := by omega
  unfold switchRoles takeOver
  dsimp only
  rw [other]
  generalize stopPair (1 - p) s = u
  have same (q : Nat) (v : State) : role (resumeService (restartPair (1 - p) v)) q = role v q := role_of_regs (regs_restartPair (1 - p) v) q
  refine ⟨(same ..).trans ?_, (same ..).trans ?_⟩
  · rw [role_setRole_ne (by omega) hp ne, role_setRole_same p (by decide)]
  · rw [role_setRole_same _ (by decide)]

theorem eng_switchRoles (p : Nat) (s : State) : (eng (switchRoles p s) (1024 + (1 - p))).pc = 0x3FF10 ∧
    (eng (switchRoles p s) (1024 + (1 - p))).run = (engDefault (1024 + (1 - p))).run := by
  have e : ∀ u : State, eng (resumeService (restartPair (1 - p) u)) (1024 + (1 - p)) = { engDefault (1024 + (1 - p)) with pc := 0x3FF10, segs := [(0, ⟨w32 (imgBase u (1 - p)), 0, 0x3FFFFF, 11⟩)] } :=
    fun u => eng_setEng_same ..
  unfold switchRoles
  dsimp only
  rw [e]
  exact ⟨rfl, rfl⟩

theorem sameWork_switchRoles (p : Nat) (s : State) : SameWork s (switchRoles p s) :=
  (sameWork_stopPair (1 - p) s).trans ((sameWork_pageOnly ((pageOnly_setRole ..).trans (pageOnly_setRole ..))).trans
    ((sameWork_restartPair ..).trans (sameWork_resumeService _)))

/-! ### Failover (18 R449) -/

/-- Pair p stops, with the cause of its failure. -/
def failing (stuck : Bool) (p : Nat) (s : State) : State :=
  stopPair p (modReg (mcPage p) 0x700 (fun w => setFld w 27 24 (if stuck then 2 else 1)) (leaveTemper (1 - p) s))

/-- Pair p is FAILED, and its failure is counted and reported. -/
def failCounted (stuck : Bool) (p : Nat) (s : State) : State :=
  if stuck then countReg (mcPage p) 0x708 1 (setRole p 3 s) else report ⟨1, engIdent (1024 + p), 6, 1, 0, 0, []⟩ (countReg (mcPage p) 0x708 1 (setRole p 3 s))

/-- The other pair takes over, with the services. -/
def standIns (p : Nat) (s : State) : State := resumeService (offer 0x9004 4 (mcPage p) false [BitVec.ofNat 8 p] (takeOver p s))

/-- The state as a STANDBY pair takes over from pair p. -/
def failedOver (stuck : Bool) (p : Nat) (s : State) : State := standIns p (failCounted stuck p (failing stuck p s))

theorem failOver_eq {stuck : Bool} {b : BootFind} {s : State} {p : Nat} (active : activePair s = some p) (up : domLost s 8 = false)
    (isStuck : stuck = true → (eng s (1024 + p)).run = .stuck) : failOver stuck b s = if role s (1 - p) ≠ 2 then resetD8 5 b s
      else resumeFromJournal (fun k => (smGet none (foundSlots b {}).slots k).isSome) (failedOver stuck p s) := by
  unfold failOver failedOver standIns failCounted failing
  simp only [active]
  rw [if_neg]
  rw [up]
  cases stuck with
  | false => simp
  | true => simp [isStuck rfl]

theorem failing_reg {p o : Nat} (hp : p < 2) (ho : bankable o = false) (hlt : o < 4096) (ne : o ≠ 0x700) (stuck : Bool) (s : State) :
    rdReg (failing stuck p s) (mcPage p) o = rdReg s (mcPage p) o := by
  unfold failing
  rw [rdReg_of_regs (regs_stopPair ..) ho, rdReg_modReg_offset (by decide) (by omega) ne, leaveTemper_reg hp ho hlt]

theorem failing_cause (stuck : Bool) (p : Nat) (s : State) : fld (rdReg (failing stuck p s) (mcPage p) 0x700) 27 24 = if stuck then 2 else 1 := by
  unfold failing
  rw [rdReg_of_regs (regs_stopPair ..) (by decide), rdReg_modReg_same, fld_setFld_same _ _ (by decide) (by decide)]
  cases stuck <;> rfl

theorem sameWork_failing (stuck : Bool) (p : Nat) (s : State) : SameWork s (failing stuck p s) :=
  ((sameWork_leaveTemper (1 - p) s).trans (sameWork_pageOnly (pageOnly_modReg ..))).trans (sameWork_stopPair ..)

theorem pageOnly_failCounted (stuck : Bool) (p : Nat) (s : State) : PageOnly s (failCounted stuck p s) := by
  have counted : PageOnly s (countReg (mcPage p) 0x708 1 (setRole p 3 s)) := (pageOnly_setRole ..).trans (pageOnly_countReg ..)
  unfold failCounted
  split
  · exact counted
  · exact counted.trans (pageOnly_report ..)

theorem failCounted_reg (stuck : Bool) (p q o : Nat) (s : State) :
    rdReg (failCounted stuck p s) q o = rdReg (countReg (mcPage p) 0x708 1 (setRole p 3 s)) q o := by
  unfold failCounted
  split
  · rfl
  · exact rdReg_report ..

theorem failCounted_stat (stuck : Bool) (p : Nat) (s : State) :
    rdReg (failCounted stuck p s) (mcPage p) 0x700 = setFld (rdReg s (mcPage p) 0x700) 31 30 3 := by
  rw [failCounted_reg, countReg, rdReg_modReg_offset (by decide) (by decide) (by decide), stat_setRole_same]

theorem failCounted_count (stuck : Bool) (p : Nat) (s : State) :
    rdReg (failCounted stuck p s) (mcPage p) 0x708 = satAdd (rdReg s (mcPage p) 0x708) 1 := by
  rw [failCounted_reg, countReg, rdReg_modReg_same, count_setRole]

theorem regs_served (p : Nat) (s : State) : (resumeService (offer 0x9004 4 (mcPage p) false [BitVec.ofNat 8 p] s)).regs = s.regs := rfl
theorem engines_served (p : Nat) (s : State) : (resumeService (offer 0x9004 4 (mcPage p) false [BitVec.ofNat 8 p] s)).engines = s.engines := rfl
theorem sameWork_served (p : Nat) (s : State) : SameWork s (resumeService (offer 0x9004 4 (mcPage p) false [BitVec.ofNat 8 p] s)) := ⟨rfl, rfl, rfl⟩

theorem standIns_stat {p : Nat} (hp : p < 2) (s : State) : rdReg (standIns p s) (mcPage p) 0x700 = rdReg s (mcPage p) 0x700 := by
  unfold standIns takeOver
  rw [rdReg_of_regs (regs_served ..) (by decide), stat_setRole_ne (by omega) hp (by omega)]

theorem standIns_count (p : Nat) (s : State) : rdReg (standIns p s) (mcPage p) 0x708 = rdReg s (mcPage p) 0x708 := by
  unfold standIns takeOver
  rw [rdReg_of_regs (regs_served ..) (by decide), count_setRole]

theorem standIns_role (p : Nat) (s : State) : role (standIns p s) (1 - p) = 1 := by
  unfold standIns takeOver
  rw [role_of_regs (regs_served ..), role_setRole_same _ (by decide)]

theorem standIns_engines (p : Nat) (s : State) : (standIns p s).engines = s.engines := (engines_served ..).trans (pageOnly_setRole ..).engines_eq
theorem sameWork_standIns (p : Nat) (s : State) : SameWork s (standIns p s) := (sameWork_pageOnly (pageOnly_setRole ..)).trans (sameWork_served ..)

theorem failedOver_stat (stuck : Bool) {p : Nat} (hp : p < 2) (s : State) :
    rdReg (failedOver stuck p s) (mcPage p) 0x700 = setFld (rdReg (failing stuck p s) (mcPage p) 0x700) 31 30 3 := by
  unfold failedOver
  rw [standIns_stat hp, failCounted_stat]

theorem failedOver_role (stuck : Bool) {p : Nat} (hp : p < 2) (s : State) : role (failedOver stuck p s) p = 3 := by
  rw [role, failedOver_stat stuck hp, fld_setFld_same _ _ (by decide) (by decide)]
  rfl

theorem failedOver_cause (stuck : Bool) {p : Nat} (hp : p < 2) (s : State) :
    fld (rdReg (failedOver stuck p s) (mcPage p) 0x700) 27 24 = if stuck then 2 else 1 := by
  rw [failedOver_stat stuck hp, fld_setFld_ne _ _ (by decide) (by decide) (by decide) (by decide), failing_cause]

theorem failedOver_count (stuck : Bool) {p : Nat} (hp : p < 2) (s : State) :
    rdReg (failedOver stuck p s) (mcPage p) 0x708 = satAdd (rdReg s (mcPage p) 0x708) 1 := by
  unfold failedOver
  rw [standIns_count, failCounted_count, failing_reg hp (by decide) (by decide) (by decide)]

theorem failedOver_off (stuck : Bool) {p : Nat} (hp : p < 2) (s : State) : (eng (failedOver stuck p s) (1024 + p)).run = .off := by
  have engines : (failedOver stuck p s).engines = (failing stuck p s).engines := (standIns_engines ..).trans (pageOnly_failCounted ..).engines_eq
  unfold eng
  rw [engines]
  exact off_stopPair hp _

theorem sameWork_failedOver (stuck : Bool) (p : Nat) (s : State) : SameWork s (failedOver stuck p s) :=
  (sameWork_failing stuck p s).trans ((sameWork_pageOnly (pageOnly_failCounted ..)).trans (sameWork_standIns ..))

/-! ### A reset of D8 (18 R450) -/

/-- A channel that Quench watches is held once D8 is lost; one that was free shows DOMAIN. -/
theorem held_lossEffects_core {c : Nat} (hc : c < 512) {s : State} (h : watched s c = true) :
    (chan (lossEffects 8 s) c).held = true ∧ ((chan s c).held = false → fld (chan (lossEffects 8 s) c).cause 27 24 = 1) := by
  obtain ⟨u, hu, hd, he⟩ := chan_forUpTo_own (i := c) (n := 512) (g := id) Function.injective_id (f := fun c s => tripWatched c 1 8 s)
    (fun c s => elsewhere_tripWatched ..) hc (skipDomain 8 (endCrossing 8 s))
  have own : chan u c = chan s c := hu.trans (chan_of_pinSide (pinSide_boundaryLost 8 s) c)
  have watchedHere : watched u c = true := (watched_of_doms (hd.trans (doms_of_pinSide (pinSide_boundaryLost 8 s))) c).trans h
  have at_ : chan (lossEffects 8 s) c = chan (trip c 1 8 u) c := by
    rw [lossEffects_core, tripAll]
    exact he.trans (by simp only [id_eq, tripWatched, watchedHere, if_true])
  rw [at_, ← own]
  exact ⟨held_trip .., cause_trip_domain 8⟩

theorem cause_resetD8 (b : BootFind) (s : State) : rdReg (resetD8 5 b s) rstPage 0x70C = 5 := by
  unfold resetD8
  rw [cause_boot]
  split <;> rfl

/-! ### Commands (18 R451) -/

theorem onPage_ofPair {p : Nat} (hp : p < 2) (m : Master) (op : Word) (pass : Bool) {s : State} (h : pageError s (mcPage p) = none) (no : pairService s m = false) :
    onPage (mcPage p) 0x704 m (mcCmdWrite p m op pass) s = rejectWrite (mcPage p) 0x704 m s := by
  unfold onPage mcCmdWrite
  simp only [h, pageAt_mcPage hp, no]
  split
  · rfl
  · rfl

theorem onPage_command {p : Nat} (hp : p < 2) {m : Master} {s : State} (h : Takes s (mcPage p) m) (pair : pairService s m = true) (op : Word) (pass : Bool) :
    onPage (mcPage p) 0x704 m (mcCmdWrite p m op pass) s = mcCmd p (fld op 2 0) m pass s := by
  rw [onPage_of_takes _ h (pageAt_mcPage hp), mcCmdWrite, if_pos pair]

theorem reint_fails {p : Nat} (hp : p < 2) {s : State} (failed : role s p = 3) :
    temperFails (0, p) (modReg (mcPage p) 0x700 (fun w => setFld w 27 24 3) (leaveTemper p s)) =
      report ⟨0, mcPage p, 3, fHW, 0, 0, []⟩ (raiseBit temperPage 0 <| countReg temperPage 0x70C 1 <| modReg (mcPage p) 0x700 (fun w => setFld w 27 24 3) (leaveTemper p s)) := by
  have still : role (modReg (mcPage p) 0x700 (fun w => setFld w 27 24 3) (leaveTemper p s)) p = 3 := by
    unfold role at failed ⊢
    rw [rdReg_modReg_same, fld_setFld_ne _ _ (by decide) (by decide) (by decide) (by decide), leaveTemper_reg hp (by decide) (by decide), failed]
  generalize modReg (mcPage p) 0x700 (fun w => setFld w 27 24 3) (leaveTemper p s) = u at still ⊢
  have page : mcPage p = 8 + p := rfl
  have temper : temperPage = 0x22 := rfl
  have shown : role (report ⟨0, mcPage p, 3, fHW, 0, 0, []⟩ (raiseBit temperPage 0 (countReg temperPage 0x70C 1 u))) p = 3 := by
    rw [← still]
    unfold role
    rw [rdReg_report, rdReg_raiseBit_offset (by decide) (by decide), countReg, modReg, wrReg, rdReg_wrRole_apart (by decide) (by rw [page, temper]; omega) (by rw [page]; omega)]
  unfold temperFails
  exact if_neg (by rintro ⟨-, standby⟩; exact absurd (shown.symm.trans standby) (by decide))

/-- Settles O50: a failover by its two branches, each command by the role it needs. -/
theorem pairsChangeTheirRoles : Obligations.PairsChangeTheirRoles := by
  unfold Obligations.PairsChangeTheirRoles
  refine ⟨fun stuck b s => ⟨?_, fun p active up isStuck => ⟨fun none_ u eu => ⟨fun c hc => ?_, ?_⟩, fun standby closed => ?_⟩⟩, fun m p s ok no => ⟨?_, ?_, fun pass => ?_⟩,
    fun m p s takes pair => ⟨fun bad => ?_, fun own other u eu => ?_, fun own other closed => ?_, fun bad => ?_, fun own => ?_, fun pass bad => ?_, fun own => ⟨?_, ?_⟩⟩⟩
  · rintro (none_ | lost | ⟨p, active, rfl, runs⟩)
    · exact congrArg Host.Outcome.next (by unfold failOver; simp only [none_])
    · refine congrArg Host.Outcome.next ?_
      unfold failOver
      split
      · rfl
      · exact if_pos (by rw [lost]; rfl)
    · refine congrArg Host.Outcome.next ?_
      unfold failOver
      simp only [active]
      exact if_pos (by simp [runs])
  · exact eu ▸ held_lossEffects_core c.isLt hc
  · rw [eu]
    exact ⟨_, congrArg Host.Outcome.next ((failOver_eq active up isStuck).trans (if_pos none_)), rfl, cause_resetD8 b s⟩
  · obtain ⟨hp, -⟩ := activePair_some active
    obtain ⟨chans, mem, journal⟩ := sameWork_failedOver stuck p s
    have failed := failedOver_role stuck hp s
    have other : role (failedOver stuck p s) (1 - p) = 1 := standIns_role ..
    exact ⟨failedOver stuck p s, congrArg Host.Outcome.next ((failOver_eq active up isStuck).trans ((if_neg (by simp [standby])).trans
      (resumeFromJournal_closed _ (journal.trans closed)))), other, failed, failedOver_cause stuck hp s, failedOver_off stuck hp s, failedOver_count stuck hp s,
      activePair_of_roles hp (by rw [failed]; decide) other, chans, mem⟩
  · exact congrArg Host.Outcome.next (onPage_ofPair p.isLt m 1 false ok no)
  · exact congrArg Host.Outcome.next (onPage_ofPair p.isLt m 3 false ok no)
  · exact congrArg Host.Outcome.next (onPage_ofPair p.isLt m 2 pass ok no)
  · exact congrArg Host.Outcome.next ((onPage_command p.isLt takes pair 1 false).trans (if_neg (by rintro ⟨a, b⟩; exact bad.elim (· a) (· b))))
  · rw [eu]
    exact congrArg Host.Outcome.next ((onPage_command p.isLt takes pair 1 false).trans (if_pos ⟨own, other⟩))
  · obtain ⟨here, there⟩ := switchRoles_roles p.isLt (leaveTemper p.val s)
    obtain ⟨pc, run⟩ := eng_switchRoles p.val (leaveTemper p.val s)
    obtain ⟨chans, mem, journal⟩ := (sameWork_leaveTemper p.val s).trans (sameWork_switchRoles p.val _)
    exact ⟨_, congrArg Host.Outcome.next ((onPage_command p.isLt takes pair 1 false).trans ((if_pos ⟨own, other⟩).trans
      (resumeFromJournal_closed _ (journal.trans closed)))), here, there, pc, run, chans, mem⟩
  · exact congrArg Host.Outcome.next ((onPage_command p.isLt takes pair 3 false).trans (if_neg bad))
  · exact congrArg Host.Outcome.next ((onPage_command p.isLt takes pair 3 false).trans (if_pos own))
  · exact congrArg Host.Outcome.next ((onPage_command p.isLt takes pair 2 pass).trans (if_pos bad))
  · exact congrArg Host.Outcome.next ((onPage_command p.isLt takes pair 2 true).trans ((if_neg (by simp [own])).trans (if_pos rfl)))
  · exact congrArg Host.Outcome.next ((onPage_command p.isLt takes pair 2 false).trans ((if_neg (by simp [own])).trans ((if_neg (by decide)).trans (reint_fails p.isLt own))))

end Sys2Proof.Machine
end

-- ==== a power failure ====
section
/-! PROOFS. The power-fail sequence (spec 17 R440-R444). -/

-- One theorem at a time: elaborating them in parallel takes the memory of many threads.
set_option Elab.async false

namespace Sys2Proof.Machine

/-! ### Isolation of every other domain (17 R441) -/

theorem ambient_undomed {s t : State} (h : ambient t = ambient s) : ambient { t with doms := [] } = ambient { s with doms := [] } :=
  (congrArg (fun x : State => { x with doms := [] }) h :)

theorem ambient_isolate (d : Nat) (s : State) : ambient { isolate d s with doms := [] } = ambient { s with doms := [] } := by
  unfold isolate loseBy
  split
  · rfl
  split
  · rfl
  · exact (ambient_undomed (ambient_lossEffects ..)).trans rfl

theorem dom_isolate (d : Nat) (s : State) : (dom (isolate d s) d).isolated = true ∧ (∀ e, (dom (isolate d s) e).good = (dom s e).good ∧ (dom (isolate d s) e).inReset = (dom s e).inReset ∧
    ((dom s e).isolated = true → (dom (isolate d s) e).isolated = true)) := by
  by_cases h : (dom s d).isolated = true
  · have same : isolate d s = s := if_pos h
    rw [same]
    exact ⟨h, fun e => ⟨rfl, rfl, id⟩⟩
  · have put (e : Nat) : dom (isolate d s) e = dom (setDom d { dom s d with isolated := true } s) e := by
      unfold isolate loseBy
      rw [if_neg h]
      split
      · rfl
      · exact dom_of_ambient (ambient_lossEffects ..) e
    refine ⟨by rw [put, dom_setDom_same], fun e => ?_⟩
    rw [put]
    obtain rfl | ne := eq_or_ne e d
    · rw [dom_setDom_same]
      exact ⟨rfl, rfl, fun _ => rfl⟩
    · rw [dom_setDom_ne ne]
      exact ⟨rfl, rfl, id⟩

/-- What does not change while domains are isolated. -/
theorem isolate_forEach (l : List Nat) (s : State) : ambient { forEach l s isolate with doms := [] } = ambient { s with doms := [] } ∧
    (∀ e, (dom (forEach l s isolate) e).good = (dom s e).good ∧ (dom (forEach l s isolate) e).inReset = (dom s e).inReset) ∧
    ∀ d, d ∈ l ∨ (dom s d).isolated = true → (dom (forEach l s isolate) d).isolated = true := by
  induction l generalizing s with
  | nil => exact ⟨rfl, fun e => ⟨rfl, rfl⟩, fun d hd => hd.resolve_left List.not_mem_nil⟩
  | cons a l ih =>
    obtain ⟨own, each⟩ := dom_isolate a s
    obtain ⟨rest, good, gone⟩ := ih (isolate a s)
    rw [forEach_cons]
    refine ⟨rest.trans (ambient_isolate a s), fun e => ⟨(good e).1.trans (each e).1, (good e).2.trans (each e).2.1⟩, fun d hd => gone d ?_⟩
    obtain e | ne := eq_or_ne d a
    · exact .inr (e ▸ own)
    · exact hd.elim (fun hm => .inl ((List.mem_cons.1 hm).resolve_left ne)) fun hi => .inr ((each d).2.2 hi)

theorem ambient_islandsLost (s : State) : ambient (islandsLost s) = ambient s := by
  unfold islandsLost
  rw [ambient_grantAll, ambient_forEach fun t s => ambient_matrixReply ..]
  rfl

theorem statusKept_islandsLost {r s : State} (k : StatusKept r s) : StatusKept r (islandsLost s) := by
  unfold islandsLost
  exact statusKept_of_regs (statusKept_forEach (statusKept_of_regs k) fun t u k => statusKept_matrixReply k ..) (regs_grantAll _)

/-! ### The start of the sequence -/

/-- Every domain but D8. -/
def islands : List Nat := [0, 1, 2, 3, 4, 5, 6, 7, 9, 10, 11, 12, 13]

theorem mem_islands {d : Nat} (h : d < 14) (ne : d ≠ 8) : d ∈ islands := by
  unfold islands
  simp only [List.mem_cons, List.not_mem_nil, or_false]
  omega

/-- Bellows has seen the failure: BL_STAT, the interrupt and the Bellows word. -/
def failureSeen (s : State) : State :=
  vauxPut bellowsLine 2 (raiseBit blPage 0 (modReg blPage 0x700 (fun w => setBit w 31 true) { s with bellows := { journal := bit (rdReg s devPage 0x700) 31 } }))

/-- The other domains are isolated, and the transactions of the islands end. -/
def othersLost (s : State) : State := islandsLost (forEach islands s isolate)

/-- Patina goes over to its records of the failure. -/
def failureTold (rail : Bool) (s : State) : State :=
  offer 0x1002 4 blPage false [BitVec.ofNat 8 rail.toNat] (modPat (fun p => { p with bellows := true, want := true, frozen := false, freezing := false }) s)

theorem bellowsBegin_eq {rail : Bool} {s : State} (runs : bellowsRuns s = false) (stopped : s.bellows.stopped = false)
    (enabled : rail = true → bit (rdReg s blPage 0x704) 31 = true) : bellowsBegin rail s = failureTold rail (tripAll 1 8 (othersLost (failureSeen s))) := by
  unfold bellowsBegin
  rw [if_neg]
  · rfl
  · rw [runs, stopped]
    cases rail with
    | false => simp
    | true => simp [enabled rfl]

theorem failureSeen_stat (s : State) : bellowsRuns (failureSeen s) = true ∧ bit (rdReg (failureSeen s) blPage 0x010) 0 = true := by
  have regs : (failureSeen s).regs = _ := regs_targetWrite ..
  unfold bellowsRuns
  rw [rdReg_of_regs regs (by decide), rdReg_of_regs regs (by decide)]
  constructor
  · rw [rdReg_raiseBit_offset (by decide) (by decide), rdReg_modReg_same, bit_setBit_same _ _ (by decide)]
  · rw [raiseBit, rdReg_raise_same, bit_or]
    simp [bit, w32]

theorem bankOnly_failureSeen (s : State) : BankOnly { s with bellows := { journal := bit (rdReg s devPage 0x700) 31 } } (failureSeen s) :=
  ((pageOnly_modReg ..).trans (pageOnly_raiseBit ..)).bankOnly.trans (bankOnly_targetWrite ..)

theorem doms_failureSeen (s : State) : (failureSeen s).doms = s.doms := (bankOnly_failureSeen s).doms

theorem bellows_failureSeen (s : State) : (failureSeen s).bellows = { journal := bit (rdReg s devPage 0x700) 31 } := bellows_of_ambient (ambient_bankOnly (bankOnly_failureSeen s))

/-- What the losses at the start of the sequence leave and do. -/
theorem othersLost_keeps (s : State) : (othersLost s).bellows = s.bellows ∧ (∀ c, watched (othersLost s) c = watched s c) ∧
    ∀ d, d < 14 → d ≠ 8 → (dom (othersLost s) d).isolated = true := by
  obtain ⟨rest, good, gone⟩ := isolate_forEach islands s
  unfold othersLost
  generalize forEach islands s isolate = t at rest good gone ⊢
  have after := ambient_islandsLost t
  refine ⟨(bellows_of_ambient after).trans (congrArg State.bellows rest :), fun c => ?_, fun d hd ne => ?_⟩
  · rw [watched_of_doms (doms_of_ambient after)]
    unfold watched
    rw [(good _).1, (good _).2]
  · rw [dom_of_ambient after]
    exact gone d (.inl (mem_islands hd ne))

theorem statusKept_othersLost (s : State) : StatusKept s (othersLost s) :=
  statusKept_islandsLost (statusKept_forEach (.refl s) fun d _ k => statusKept_isolate k d)

theorem regs_failureTold (rail : Bool) (s : State) : (failureTold rail s).regs = s.regs := rfl
theorem chan_failureTold (rail : Bool) (s : State) (c : Nat) : chan (failureTold rail s) c = chan s c := rfl
theorem dom_failureTold (rail : Bool) (s : State) (d : Nat) : dom (failureTold rail s) d = dom s d := rfl
theorem bellows_failureTold (rail : Bool) (s : State) : (failureTold rail s).bellows = s.bellows := rfl
theorem mem_failureTold (rail : Bool) (s : State) : (failureTold rail s).mem = s.mem := rfl

theorem failureTold_patina (rail : Bool) (s : State) : (failureTold rail s).patina.bellows = true ∧ (failureTold rail s).patina.want = true ∧
    ∃ e ∈ (failureTold rail s).patina.offers, e.2.code = 0x1002 :=
  ⟨rfl, rfl, (s.now, patEvent 0x1002 4 blPage false [BitVec.ofNat 8 rail.toNat]), List.mem_append_right _ (List.mem_singleton.2 rfl), rfl⟩

theorem statusKept_failureTold (rail : Bool) (s : State) : StatusKept (failureSeen s) (failureTold rail (tripAll 1 8 (othersLost (failureSeen s)))) :=
  statusKept_of_regs (statusKept_tripAll (statusKept_othersLost _) 1 8) (regs_failureTold ..)

/-- Every channel that Quench watched is held. -/
theorem held_failureTold (rail : Bool) {s : State} {c : Nat} (hc : c < 512) (h : watched s c = true) :
    (chan (failureTold rail (tripAll 1 8 (othersLost (failureSeen s)))) c).held = true := by
  have before : watched (othersLost (failureSeen s)) c = true := by
    rw [(othersLost_keeps _).2.1, watched_of_doms (doms_failureSeen s), h]
  rw [chan_failureTold]
  exact held_tripAll 1 8 hc before

theorem isolated_failureTold (rail : Bool) (s : State) {d : Nat} (hd : d < 14) (ne : d ≠ 8) :
    (dom (failureTold rail (tripAll 1 8 (othersLost (failureSeen s)))) d).isolated = true := by
  rw [dom_failureTold, dom_of_ambient (ambient_tripAll 1 8 (othersLost (failureSeen s)))]
  exact (othersLost_keeps _).2.2 d hd ne

theorem journal_failureTold (rail : Bool) (s : State) :
    (failureTold rail (tripAll 1 8 (othersLost (failureSeen s)))).bellows.journal = bit (rdReg s devPage 0x700) 31 := by
  rw [bellows_failureTold, bellows_of_ambient (ambient_tripAll ..), (othersLost_keeps _).1, bellows_failureSeen]

/-! ### The memory while nothing is under way -/

theorem grantAll_idle {s : State} (h : s.trans = []) : grantAll s = s := by
  refine forUpTo_inv (P := fun t : State => t = s) rfl fun row t ht => ?_
  rw [ht]
  unfold grantRow waiting
  rw [h]
  rfl

theorem noTrans {s : State} (h : s.trans = []) : { s with trans := [] } = s := by rw [← h]

theorem endCrossing_idle (d : Nat) {s : State} (h : s.trans = []) : endCrossing d s = s := by
  unfold endCrossing
  simp only [h, List.filter_nil]
  rw [noTrans h]
  exact grantAll_idle h

theorem islandsLost_idle {s : State} (h : s.trans = []) : islandsLost s = s := by
  unfold islandsLost
  simp only [h, List.filter_nil]
  rw [noTrans h]
  exact grantAll_idle h

/-- No transaction is under way, in the matrix or in the fabric, and the ring is empty; the memory is that of s. -/
structure AtRest (s t : State) : Prop where
  mem : t.mem = s.mem
  trans : t.trans = []

/-- No request of the fabric is under way, and the ring is empty. -/
structure RingEmpty (t : State) : Prop where
  outstanding : t.fabric.outstanding = []
  ring : fld (rdReg t fbPage 0x730) 5 0 = fld (rdReg t fbPage 0x72C) 5 0

theorem skipDomain_rest (d : Nat) (s : State) : ∃ x, skipDomain d s = { s with hang := x } := by
  refine forUpTo_inv (P := fun t : State => ∃ x, t = { s with hang := x }) ⟨_, rfl⟩ fun i t ⟨x, ht⟩ => ?_
  dsimp only
  split
  · exact ⟨_, by rw [ht]; rfl⟩
  · exact ⟨x, ht⟩

theorem AtRest.skipDomain {s t : State} (h : AtRest s t) (d : Nat) : AtRest s (skipDomain d t) := by
  obtain ⟨x, hx⟩ := skipDomain_rest d t
  rw [hx]
  exact ⟨h.mem, h.trans⟩

theorem RingEmpty.skipDomain {t : State} (h : RingEmpty t) (d : Nat) : RingEmpty (skipDomain d t) := by
  obtain ⟨x, hx⟩ := skipDomain_rest d t
  rw [hx]
  exact ⟨h.outstanding, h.ring⟩

theorem AtRest.of_apart {s t u : State} (h : AtRest s t) (k : apart u = apart t) : AtRest s u :=
  ⟨(mem_of_apart k).trans h.mem, (congrArg State.trans k :).trans h.trans⟩

theorem pageAt_fbPage_kind (x : Page) (h : pageAt fbPage = some x) : x.kind ≠ .ch ∧ x.kind ≠ .pal ∧ x.kind ≠ .tquench := by
  have e : pageAt fbPage = some ⟨.fb, 0⟩ := by decide
  rw [e] at h
  cases h
  decide

theorem RingEmpty.trip {t : State} (h : RingEmpty t) {c : Nat} (hc : c < 512) (cause key : Nat) : RingEmpty (trip c cause key t) := by
  have same : (Sys2Proof.Machine.trip c cause key t).fabric = t.fabric := (congrArg State.fabric (apart_trip c cause key t) :)
  refine ⟨by rw [same, h.outstanding], ?_⟩
  rw [rdReg_trip_other cause key hc (by decide) (by decide) pageAt_fbPage_kind, rdReg_trip_other cause key hc (by decide) (by decide) pageAt_fbPage_kind]
  exact h.ring

theorem atRest_lossEffects_tile {s t : State} {d : Nat} (hd : d < 8) (h : AtRest s t) (k : RingEmpty t) : AtRest s (lossEffects d t) ∧ RingEmpty (lossEffects d t) := by
  unfold lossEffects
  dsimp only
  rw [endCrossing_idle d h.trans, if_pos hd]
  refine forEach_inv (P := fun u => AtRest s u ∧ RingEmpty u) ?_ fun n u hu => ⟨⟨hu.1.mem, hu.1.trans⟩, hu.2.outstanding, hu.2.ring⟩
  exact forUpTo_inv_lt (P := fun u => AtRest s u ∧ RingEmpty u) ⟨h.skipDomain d, k.skipDomain d⟩ fun p u hp hu =>
    ⟨hu.1.of_apart (apart_trip ..), hu.2.trip (by omega) ..⟩

theorem AtRest.of_pageOnly {s t u : State} (h : AtRest s t) (k : PageOnly t u) : AtRest s u := ⟨k.mem_eq.trans h.mem, k.trans_eq.trans h.trans⟩

theorem AtRest.of_fields {s t u : State} (h : AtRest s t) (mem : u.mem = t.mem) (trans : u.trans = t.trans) : AtRest s u := ⟨mem.trans h.mem, trans.trans h.trans⟩

theorem atRest_notice {s t : State} (h : AtRest s t) (code data : Nat) : AtRest s (notice code data t) := by
  have sent := Sends.notice code data t
  exact h.of_fields sent.mem (congrArg State.trans sent.side :)

theorem atRest_offer {s t : State} (h : AtRest s t) (code sev src : Nat) (fid : Bool) (bs : List Byte) : AtRest s (offer code sev src fid bs t) := h.of_fields rfl rfl
theorem atRest_modFab {s t : State} (h : AtRest s t) (f : Fabric → Fabric) : AtRest s (modFab f t) := h.of_fields rfl rfl
theorem atRest_reach {s t : State} (h : AtRest s t) (n : Nat) : AtRest s (reach n t) := h.of_fields rfl rfl

theorem atRest_holdover {s t : State} (h : AtRest s t) : AtRest s (holdover t) := by
  unfold holdover
  dsimp only
  split
  · exact h
  · next p _ =>
    have reached : AtRest s (if portUp t p then reach ((port t p).lastSync + 3000 * us) t else t) := by
      split
      · exact atRest_reach h _
      · exact h
    generalize (if portUp t p then reach ((port t p).lastSync + 3000 * us) t else t) = u at reached ⊢
    split
    · exact atRest_modFab reached _
    split
    · exact reached
    · exact atRest_notice (atRest_offer (.of_pageOnly (atRest_modFab (reached.of_pageOnly (pageOnly_modReg ..)) _) (pageOnly_raiseBit ..)) ..) ..

theorem atRest_fabricLost {s t : State} (h : AtRest s t) (k : RingEmpty t) : AtRest s (fabricLost t) := by
  have ports : AtRest s (forUpTo 8 t (fun p s => setPortAt p {} s)) ∧ RingEmpty (forUpTo 8 t (fun p s => setPortAt p {} s)) :=
    forUpTo_inv (P := fun u => AtRest s u ∧ RingEmpty u) ⟨h, k⟩ fun p u hu => ⟨⟨hu.1.mem, hu.1.trans⟩, hu.2.outstanding, hu.2.ring⟩
  unfold fabricLost
  dsimp only
  generalize forUpTo 8 t (fun p s => setPortAt p {} s) = u at ports ⊢
  obtain ⟨rest, empty⟩ := ports
  have ends : ∀ v : State, forEach u.fabric.outstanding v (fun x s => endTransaction x 4 s) = v := fun v => by rw [empty.outstanding]; rfl
  rw [ends]
  have none_ : forUpTo 64 u (fun _ s => ringEnds s) = u :=
    forUpTo_inv (P := fun v => v = u) rfl fun i v hv => by
      rw [hv]
      exact if_pos empty.ring
  rw [none_]
  exact atRest_holdover ⟨rest.mem, rest.trans⟩

theorem atRest_linkDown {s t : State} (h : AtRest s t) : AtRest s (linkDown t) := by
  unfold linkDown
  split
  · exact h.of_pageOnly (((pageOnly_modReg ..).trans (pageOnly_modReg ..)).trans (pageOnly_raiseBit ..))
  · exact h

theorem atRest_lossEffects_fabric {s t : State} (h : AtRest s t) (k : RingEmpty t) : AtRest s (lossEffects 9 t) := by
  have eq : lossEffects 9 t = linkDown (fabricLost (skipDomain 9 (endCrossing 9 t))) := by simp [lossEffects]
  rw [eq, endCrossing_idle 9 h.trans]
  exact atRest_linkDown (atRest_fabricLost (h.skipDomain 9) (k.skipDomain 9))

theorem atRest_lossEffects_stack {s t : State} {d : Nat} (hd : 10 ≤ d) (h : AtRest s t) : AtRest s (lossEffects d t) := by
  unfold lossEffects
  dsimp only
  rw [endCrossing_idle d h.trans, if_neg (by omega), if_neg (by omega), if_neg (by omega)]
  exact forEach_inv (P := AtRest s) (h.skipDomain d) fun _ u hu => ⟨hu.mem, hu.trans⟩

/-- An isolation with no transaction under way is a loss of the domain, or changes nothing but the domain. -/
theorem isolate_cases {P : State → Prop} {d : Nat} {t : State} (same : P t) (put : ∀ x, P (setDom d x t)) (lost : ∀ x, P (lossEffects d (setDom d x t))) :
    P (isolate d t) := by
  unfold isolate loseBy
  split
  · exact same
  split
  · exact put _
  · exact lost _

theorem atRest_setDom {s t : State} (h : AtRest s t) (d : Nat) (x : Domain) : AtRest s (setDom d x t) := ⟨h.mem, h.trans⟩
theorem ringEmpty_setDom {t : State} (h : RingEmpty t) (d : Nat) (x : Domain) : RingEmpty (setDom d x t) := ⟨h.outstanding, h.ring⟩

theorem forEach_append {σ α : Type} (l m : List α) (s : σ) (f : α → σ → σ) : forEach (l ++ m) s f = forEach m (forEach l s f) f := List.foldl_append ..

/-- R441: with nothing under way the isolation of the other domains leaves the memory alone. -/
theorem atRest_othersLost {s : State} (h : s.trans = []) (k : RingEmpty s) : AtRest s (othersLost s) := by
  have tiles : ∀ l : List Nat, (∀ d ∈ l, d < 8) → AtRest s (forEach l s isolate) ∧ RingEmpty (forEach l s isolate) := fun l hl =>
    forEach_inv_mem (P := fun u => AtRest s u ∧ RingEmpty u) ⟨⟨rfl, h⟩, k⟩ fun d hd u hu => isolate_cases (P := fun u => AtRest s u ∧ RingEmpty u) hu
      (fun x => ⟨atRest_setDom hu.1 d x, ringEmpty_setDom hu.2 d x⟩) fun x => atRest_lossEffects_tile (hl d hd) (atRest_setDom hu.1 d x) (ringEmpty_setDom hu.2 d x)
  have parts : islands = [0, 1, 2, 3, 4, 5, 6, 7] ++ 9 :: [10, 11, 12, 13] := rfl
  obtain ⟨rest, empty⟩ := tiles [0, 1, 2, 3, 4, 5, 6, 7] (by decide)
  unfold othersLost
  rw [parts, forEach_append, forEach_cons]
  generalize forEach [0, 1, 2, 3, 4, 5, 6, 7] s isolate = t at rest empty ⊢
  have fabric : AtRest s (isolate 9 t) := isolate_cases rest (fun x => atRest_setDom rest 9 x) fun x => atRest_lossEffects_fabric (atRest_setDom rest 9 x) (ringEmpty_setDom empty 9 x)
  generalize isolate 9 t = u at fabric ⊢
  have last : AtRest s (forEach [10, 11, 12, 13] u isolate) := forEach_inv_mem (P := AtRest s) fabric fun d hd v hv => isolate_cases hv (fun x => atRest_setDom hv d x)
    fun x => atRest_lossEffects_stack (by simp at hd; omega) (atRest_setDom hv d x)
  rw [islandsLost_idle last.trans]
  exact last

theorem mem_failureTold_idle (rail : Bool) {s : State} (h : s.trans = []) (empty : s.fabric.outstanding = [])
    (ring : fld (rdReg s fbPage 0x730) 5 0 = fld (rdReg s fbPage 0x72C) 5 0) :
    (failureTold rail (tripAll 1 8 (othersLost (failureSeen s)))).mem = (failureSeen s).mem := by
  have rest := bankOnly_failureSeen s
  have noneUnder : (failureSeen s).trans = [] := by rw [rest]; exact h
  have noneOut : (failureSeen s).fabric.outstanding = [] := by rw [rest]; exact empty
  have regs : (failureSeen s).regs = _ := regs_targetWrite ..
  have reg (o : Nat) (ho : bankable o = false) (hlt : o < 4096) (ne : o ≠ 0x700) (ne' : o ≠ 0x010) : rdReg (failureSeen s) fbPage o = rdReg s fbPage o := by
    rw [rdReg_of_regs regs ho, rdReg_raiseBit_offset (by omega) ne', rdReg_modReg_offset (by decide) (by omega) ne]
    rfl
  have ringHere : RingEmpty (failureSeen s) :=
    ⟨noneOut, by rw [reg 0x730 (by decide) (by decide) (by decide) (by decide), reg 0x72C (by decide) (by decide) (by decide) (by decide), ring]⟩
  rw [mem_failureTold, mem_of_apart (apart_tripAll ..)]
  exact (atRest_othersLost noneUnder ringHere).mem

theorem memByte_of_mem {s t : State} (h : t.mem = s.mem) (a : Nat) : memByte t a = memByte s a := by unfold memByte; rw [h]
theorem mramWord_of_mem {s t : State} (h : t.mem = s.mem) (a : Nat) : mramWord t a = mramWord s a := mramWord_congr fun x _ _ => memByte_of_mem h x

theorem memByte_failureSeen {s : State} {a : Nat} (h : a < bellowsLine ∨ bellowsLine + 4 ≤ a) : memByte (failureSeen s) a = memByte s a := by
  unfold failureSeen
  rw [memByte_vauxPut, if_neg (by omega), memByte_of_mem ((pageOnly_modReg ..).trans (pageOnly_raiseBit ..)).mem_eq]
  rfl

/-! ### The stop (17 R441, R443) -/

/-- Every domain held in reset. -/
def allHeld (s : State) : State := forUpTo 14 s (fun d s => setDom d { dom s d with inReset := true } s)

theorem allHeld_rest (s : State) : ∃ x, allHeld s = { s with doms := x } := by
  refine forUpTo_inv (P := fun t : State => ∃ x, t = { s with doms := x }) ⟨_, rfl⟩ fun i t ⟨x, ht⟩ => ?_
  exact ⟨_, by rw [ht]; rfl⟩

theorem inReset_allHeld (s : State) {d : Nat} (hd : d < 14) : (dom (allHeld s) d).inReset = true := by
  have upTo (n : Nat) : ∀ d < n, (dom (forUpTo n s (fun d s => setDom d { dom s d with inReset := true } s)) d).inReset = true := by
    induction n with
    | zero => exact fun d hd => absurd hd (Nat.not_lt_zero d)
    | succ n ih =>
      intro d hd
      rw [forUpTo]
      obtain rfl | ne := eq_or_ne d n
      · rw [dom_setDom_same]
      · rw [dom_setDom_ne ne]
        exact ih d (by omega)
  exact upTo 14 d hd

/-- Bellows has closed the journals and stopped, and the buffers of the MRAM are empty. -/
def journalsClosed (s : State) : State := { s with bellows := { s.bellows with journal := false, stopped := true }, mramLines := [], mramGap := [] }

/-- Bellows has stopped and shows its outcome. -/
def powerStopped (lastBits : Nat) (s : State) : State := modReg blPage 0x700 (fun w => setFld (setBit w 31 false) 29 28 lastBits) (journalsClosed s)

theorem stopDevice_eq (lastBits : Nat) (s : State) :
    stopDevice lastBits s = powerStopped lastBits (allHeld (lossEffects 8 (if lastBits = 2 then vauxPut bellowsLine 1 s else s))) := rfl

theorem powerStopped_shows {n : Nat} (hn : n < 4) (s : State) : bellowsRuns (powerStopped n s) = false ∧ fld (rdReg (powerStopped n s) blPage 0x700) 29 28 = n ∧
    (powerStopped n s).bellows.stopped = true ∧ (powerStopped n s).mramLines = [] ∧ (powerStopped n s).mem = s.mem ∧ ∀ d, dom (powerStopped n s) d = dom s d := by
  have stat : rdReg (powerStopped n s) blPage 0x700 = setFld (setBit (rdReg (journalsClosed s) blPage 0x700) 31 false) 29 28 n := rdReg_modReg_same ..
  have rest : PageOnly (journalsClosed s) (powerStopped n s) := pageOnly_modReg ..
  refine ⟨?_, ?_, by rw [rest.bellows_eq]; rfl, rest.mramLines_eq, rest.mem_eq, fun d => by unfold dom; rw [rest.doms_eq]; rfl⟩
  · unfold bellowsRuns
    rw [stat, bit_setFld _ _ _ (by decide) (by decide) (by decide)]
    exact bit_setBit_same _ _ (by decide)
  · rw [stat, fld_setFld_same _ _ (by decide) (by decide)]
    exact Nat.mod_eq_of_lt hn

theorem mem_lossEffects_core {s : State} (h : s.trans = []) : (lossEffects 8 s).mem = s.mem := by
  rw [lossEffects_core, endCrossing_idle 8 h, mem_of_apart (apart_tripAll ..)]
  exact (AtRest.skipDomain (s := s) ⟨rfl, h⟩ 8).mem

theorem stopDevice_shows {n : Nat} (hn : n < 4) (s : State) : bellowsRuns (stopDevice n s) = false ∧ fld (rdReg (stopDevice n s) blPage 0x700) 29 28 = n ∧
    (stopDevice n s).bellows.stopped = true ∧ (stopDevice n s).mramLines = [] ∧ (∀ d, d < 14 → (dom (stopDevice n s) d).inReset = true) ∧
    (stopDevice n s).mem = (lossEffects 8 (if n = 2 then vauxPut bellowsLine 1 s else s)).mem := by
  rw [stopDevice_eq]
  generalize lossEffects 8 (if n = 2 then vauxPut bellowsLine 1 s else s) = t
  obtain ⟨runs, shown, stop, lines, mem, doms⟩ := powerStopped_shows hn (allHeld t)
  refine ⟨runs, shown, stop, lines, fun d hd => ?_, ?_⟩
  · rw [doms]
    exact inReset_allHeld t hd
  · obtain ⟨x, hx⟩ := allHeld_rest t
    rw [mem, hx]

theorem stopDevice_cut {s : State} (h : s.trans = []) : (stopDevice 1 s).mem = s.mem := by
  rw [(stopDevice_shows (by decide) s).2.2.2.2.2, if_neg (by decide)]
  exact mem_lossEffects_core h

theorem stopDevice_flushed {s : State} (h : s.trans = []) : (stopDevice 2 s).mem = (vauxPut bellowsLine 1 s).mem := by
  have rest : BankOnly s (vauxPut bellowsLine 1 s) := bankOnly_targetWrite ..
  have none_ : (vauxPut bellowsLine 1 s).trans = [] := by rw [rest]; exact h
  rw [(stopDevice_shows (by decide) s).2.2.2.2.2, if_pos rfl]
  exact mem_lossEffects_core none_

/-! ### The capacitor (17 R442) -/

theorem capCharged_reg (uF : BitVec 16) (volts : Bool) (s : State) :
    rdReg (capCharged uF.toNat volts s) blPage 0x700 = setFld (setBit (rdReg s blPage 0x700) 30 (volts && decide (560 ≤ uF.toNat))) 15 0 uF.toNat := by
  unfold capCharged
  dsimp only
  split
  · rw [rdReg_raiseBit_offset (by decide) (by decide), rdReg_modReg_same]
  · rw [rdReg_modReg_same]

theorem pageOnly_capCharged (uF : Nat) (volts : Bool) (s : State) : PageOnly s (capCharged uF volts s) := by
  unfold capCharged
  dsimp only
  split
  · exact (pageOnly_modReg ..).trans (pageOnly_raiseBit ..)
  · exact pageOnly_modReg ..

theorem regsKept_capCharged (uF : Nat) (volts : Bool) (s : State) : RegsKept s (capCharged uF volts s) [(blPage, 0x700), (blPage, 0x010)] := by
  have stat := (RegsKept.refl s [(blPage, 0x700), (blPage, 0x010)]).modReg (p := blPage) (o := 0x700) (by decide) (by decide) (by simp)
    (fun w => setFld (setBit w 30 (volts && decide (560 ≤ uF))) 15 0 uF)
  unfold capCharged
  dsimp only
  split
  · exact stat.raiseBit (by decide) (by simp) 1
  · exact stat

theorem capCharged_ready (uF : BitVec 16) (volts : Bool) (s : State) : bit (rdReg (capCharged uF.toNat volts s) blPage 0x700) 30 = (volts && decide (560 ≤ uF.toNat)) := by
  rw [capCharged_reg, bit_setFld _ _ _ (by decide) (by decide) (by decide)]
  exact bit_setBit_same _ _ (by decide)

theorem capCharged_raises (uF : BitVec 16) (volts : Bool) {s : State} (ready : bit (rdReg (capCharged uF.toNat volts s) blPage 0x700) 30 = true)
    (was : bit (rdReg s blPage 0x700) 30 = false) : bit (rdReg (capCharged uF.toNat volts s) blPage 0x010) 1 = true := by
  rw [capCharged_ready] at ready
  unfold capCharged
  dsimp only
  rw [was, if_pos (by rw [ready]; rfl), raiseBit, rdReg_raise_same, bit_or]
  simp [bit, w32]

/-- Settles O48: the start by what isolations and trips leave, the stop by the last write of BL_STAT, the rest by the sequence's conditions. -/
theorem bellowsStopsTheDeviceInOrder : Obligations.BellowsStopsTheDeviceInOrder := by
  unfold Obligations.BellowsStopsTheDeviceInOrder
  refine ⟨fun rail s idle => ?_, fun rail s runs stopped enabled => ?_, fun m v s takes => ?_, fun s => rfl, fun s => ⟨fun idle => ?_, fun idle => ?_, fun runs => ?_,
    fun runs closed ended => ⟨fun b reset => ?_, fun none_ => ?_⟩⟩, fun b s => ⟨fun stop good => ?_, fun idle => ?_⟩, fun uF volts s => ?_⟩
  · refine congrArg Host.Outcome.next (if_pos ?_)
    obtain h | h | ⟨h, h'⟩ := idle <;> simp [*]
  · have told := failureTold_patina rail (tripAll 1 8 (othersLost (failureSeen s)))
    have status := statusKept_failureTold rail s
    have seen := failureSeen_stat s
    have held := fun (c : Ch) (h : watched s c.val = true) => held_failureTold rail c.isLt h
    have gone := fun (d : Nat) (hd : d < 14) (ne : d ≠ 8) => isolated_failureTold rail s hd ne
    have journal := journal_failureTold rail s
    have mem := mem_failureTold_idle rail (s := s)
    refine ⟨_, congrArg Host.Outcome.next (bellowsBegin_eq runs stopped enabled), ?_⟩
    generalize failureTold rail (tripAll 1 8 (othersLost (failureSeen s))) = t at told status held gone journal mem ⊢
    obtain ⟨ofFailure, wanted, offered⟩ := told
    refine ⟨(congrArg (fun w => bit w 31) status.stat).trans seen.1, status.irq seen.2, held, gone, ofFailure, wanted, journal, offered, fun h empty ring => ⟨?_, fun a ha => ?_⟩⟩
    · rw [mramWord_of_mem (mem h empty ring)]
      exact mramWord_vauxPut ..
    · rw [memByte_of_mem (mem h empty ring)]
      exact memByte_failureSeen ha
  · refine congrArg Host.Outcome.next ((accessWrite_jdone _ takes).trans ?_)
    unfold jdoneWrite
    cases pair : pairService s m with
    | false => rfl
    | true => exact if_pos (bit_setBit_same v true (by decide))
  · refine congrArg Host.Outcome.next (if_neg ?_)
    rintro ⟨runs, closed, ended⟩
    obtain h | h | h := idle
    · exact absurd (runs.symm.trans h) (by decide)
    · rw [h] at closed
      exact absurd closed (by decide)
    · exact absurd (ended.symm.trans h) (by decide)
  · exact congrArg Host.Outcome.next (if_neg (by rw [idle]; decide))
  · obtain ⟨off, shown, stop, lines, held, -⟩ := stopDevice_shows (n := 1) (by decide) s
    exact ⟨stopDevice 1 s, congrArg Host.Outcome.next (if_pos runs), off, shown, stop, lines, held, stopDevice_cut⟩
  · refine congrArg Host.Outcome.next ((if_pos ⟨runs, by rw [closed]; rfl, ended⟩).trans ?_)
    rw [reset]
  · obtain ⟨off, shown, stop, lines, held, -⟩ := stopDevice_shows (n := 2) (by decide) s
    have eq : bellowsEnd s = stopDevice 2 s := (if_pos ⟨runs, by rw [closed]; rfl, ended⟩).trans (by rw [none_])
    refine ⟨stopDevice 2 s, congrArg Host.Outcome.next eq, off, shown, stop, lines, held, fun h => ⟨?_, fun a ha => ?_⟩⟩
    · rw [mramWord_of_mem (stopDevice_flushed h)]
      exact mramWord_vauxPut ..
    · rw [memByte_of_mem (stopDevice_flushed h), memByte_vauxPut, if_neg (by omega)]
  · refine congrArg Host.Outcome.next (if_pos ?_)
    rw [stop, Bool.true_and]
    exact List.all_eq_true.2 fun d hd => good d (List.mem_range.1 hd)
  · refine congrArg Host.Outcome.next (if_neg ?_)
    intro both
    obtain ⟨stop, good⟩ := Bool.and_eq_true_iff.1 both
    obtain h | ⟨d, hd, h⟩ := idle
    · exact absurd (stop.symm.trans h) (by decide)
    · exact absurd ((List.all_eq_true.1 good d (List.mem_range.2 hd)).symm.trans h) (by decide)
  · have page := pageOnly_capCharged uF.toNat volts s
    refine ⟨_, rfl, ?_, capCharged_ready uF volts s, capCharged_raises uF volts, regsKept_capCharged _ _ _, page.mem_eq, page.chans_eq⟩
    rw [capCharged_reg, fld_setFld_same _ _ (by decide) (by decide)]
    exact Nat.mod_eq_of_lt uF.isLt

end Sys2Proof.Machine
end

-- ==== cores at rest ====
section
/-! PROOFS. A device reset leaves every core and thread, and every timebase, as after reset: start-up starts none (spec 17 R429, R432-R437). -/

-- One theorem at a time: elaborating them in parallel takes the memory of many threads.
set_option Elab.async false

namespace Sys2Proof.Machine

/-! ### What keeps cores, timebases and transactions -/

/-- A transaction of an engine: its response changes the engine. -/
def engineUse : TransUse → Bool
  | .plain | .tongs _ | .pci | .agent _ | .dropped => false
  | _ => true

/-- Every transaction under way has a master and a use that Q allows. -/
def AllTrans (Q : Master → TransUse → Prop) (s : State) : Prop := ∀ x ∈ s.trans, Q x.master x.use

/-- What Tongs and the PCIe endpoint issue is allowed, and a response may be discarded. -/
structure Fits (Q : Master → TransUse → Prop) : Prop where
  dropped : ∀ m, Q m .dropped
  tongs : ∀ c, Q .tongs (.tongs c)
  pci : Q .pcie .pci

/-- The step from s to t starts no timebase and no core, and enters no transaction that Q does not allow. -/
structure Tame (Q : Master → TransUse → Prop) (s t : State) : Prop where
  bases : (∀ k, base s k = {}) → ∀ k, base t k = {}
  cores : (∀ k, k < 1024 → eng s k = engDefault k) → ∀ k, k < 1024 → eng t k = engDefault k
  trans : AllTrans Q s → AllTrans Q t

theorem Tame.refl (Q : Master → TransUse → Prop) (s : State) : Tame Q s s := ⟨id, id, id⟩

section
variable {Q : Master → TransUse → Prop} {r s : State}

theorem tame_of_fields (k : Tame Q r s) {t : State} (bases : t.bases = s.bases := by rfl) (engines : t.engines = s.engines := by rfl)
    (trans : t.trans = s.trans := by rfl) : Tame Q r t := by
  refine ⟨fun h c => ?_, fun h c hc => ?_, fun h => ?_⟩
  · unfold base
    rw [bases]
    exact k.bases h c
  · unfold eng
    rw [engines]
    exact k.cores h c hc
  · unfold AllTrans
    rw [trans]
    exact k.trans h

theorem tame_pageOnly (k : Tame Q r s) {t : State} (h : PageOnly s t) : Tame Q r t := tame_of_fields k h.bases_eq h.engines_eq h.trans_eq

theorem tame_apart (k : Tame Q r s) {t : State} (h : apart t = apart s) : Tame Q r t :=
  tame_of_fields k (congrArg State.bases h :) (congrArg State.engines h :) (congrArg State.trans h :)

theorem tame_sends (k : Tame Q r s) {t : State} (h : Sends s t) : Tame Q r t :=
  tame_of_fields k (congrArg State.bases h.side :) (congrArg State.engines h.side :) (congrArg State.trans h.side :)

theorem tame_ite {c : Prop} [Decidable c] {a b : State} (ha : Tame Q r a) (hb : Tame Q r b) : Tame Q r (if c then a else b) := by
  split
  · exact ha
  · exact hb

theorem tame_forEach {α : Type} {l : List α} {f : α → State → State} (k : Tame Q r s) (h : ∀ a s, Tame Q r s → Tame Q r (f a s)) : Tame Q r (forEach l s f) :=
  forEach_inv k h

theorem tame_forUpTo {n : Nat} {f : Nat → State → State} (k : Tame Q r s) (h : ∀ i s, Tame Q r s → Tame Q r (f i s)) : Tame Q r (forUpTo n s f) :=
  forUpTo_inv k h

/-! ### Memories -/

/-- A change of engines that leaves an engine as after reset as it is. -/
theorem tame_modEng (k : Tame Q r s) {i : Nat} {f : Engine → Engine} (h : i < 1024 → f (engDefault i) = engDefault i) : Tame Q r (modEng i f s) := by
  refine ⟨k.bases, fun hr c hc => ?_, k.trans⟩
  have before := k.cores hr c hc
  obtain rfl | ne := eq_or_ne c i
  · rw [eng_modEng_same, before, h hc]
  · rw [eng_modEng_ne ne, before]

theorem resv_engDefault {k : Nat} (hk : k < 1024) : { engDefault k with resv := none } = engDefault k := by
  unfold engDefault
  rw [if_neg (by omega)]

theorem tame_clearResv (k : Tame Q r s) (a n : Nat) : Tame Q r (clearResv a n s) :=
  tame_forEach k fun _ _ k => tame_modEng k fun hk => resv_engDefault hk

theorem tame_setBytes (bs : List Byte) (a : Nat) {s : State} (k : Tame Q r s) : Tame Q r (setBytes a bs s) := by
  induction bs generalizing a s with
  | nil => exact k
  | cons b bs ih => exact ih (a + 1) (tame_of_fields k)

theorem tame_keepStale (k : Tame Q r s) (x : Target) (a n : Nat) : Tame Q r (keepStale x a n s) := by
  unfold keepStale
  split
  · exact tame_forUpTo k fun _ _ k => tame_of_fields k
  · exact k

theorem tame_targetWrite (k : Tame Q r s) (x : Target) (a : Nat) (bs : List Byte) : Tame Q r (targetWrite x a bs s) :=
  tame_setBytes bs _ (tame_clearResv (tame_keepStale k ..) ..)

theorem tame_portWrite (k : Tame Q r s) (x : Target) (a : Nat) (bs : List Byte) : Tame Q r (portWrite x a bs s) := by
  unfold portWrite
  split
  · exact tame_of_fields (tame_targetWrite k ..)
  · exact tame_targetWrite k ..

theorem tame_bankPut (k : Tame Q r s) (m : Master) (a : Nat) (bs : List Byte) : Tame Q r (bankPut m a bs s) := by
  unfold bankPut
  exact tame_ite (tame_portWrite k ..) (tame_pageOnly k (pageOnly_mxError ..))

/-! ### Transactions -/

theorem allTrans_grantAll (h : AllTrans Q s) : AllTrans Q (grantAll s) := by
  refine forUpTo_inv h fun row t ht => ?_
  unfold grantRow
  repeat' split
  · exact ht
  · exact ht
  · exact ht
  · next x at_ =>
    intro y hy
    obtain hy | e := List.mem_or_eq_of_mem_set hy
    · exact ht y hy
    · subst e
      exact ht x (List.mem_of_getElem? at_)

theorem tame_grantAll (k : Tame Q r s) : Tame Q r (grantAll s) := by
  have rest : (grantAll s).bases = s.bases ∧ (grantAll s).engines = s.engines := by
    refine forUpTo_inv (P := fun t : State => t.bases = s.bases ∧ t.engines = s.engines) ⟨rfl, rfl⟩ fun row t ht => ?_
    unfold grantRow
    repeat' split
    all_goals exact ht
  refine ⟨fun h c => ?_, fun h c hc => ?_, fun h => allTrans_grantAll (k.trans h)⟩
  · unfold base
    rw [rest.1]
    exact k.bases h c
  · unfold eng
    rw [rest.2]
    exact k.cores h c hc

theorem tame_enterPort (k : Tame Q r s) {m : Master} {use : TransUse} (q : Q m use) (id : Nat) (write : Bool) (a : Nat) (data : List Byte) (len : Nat) :
    Tame Q r (enterPort m id write a data len use s) := by
  refine tame_grantAll ⟨k.bases, k.cores, fun h x hx => ?_⟩
  obtain hx | e := List.mem_append.1 hx
  · exact k.trans h x hx
  · rw [List.mem_singleton.1 e]
    exact q

/-! ### Tongs and the PCIe endpoint -/

/-- The responses that a failed Tongs channel waits for are discarded. -/
def tongsDropped (c : Nat) (s : State) : State := { s with trans := s.trans.map (fun t => if t.use = .tongs c then { t with use := .dropped } else t) }

theorem tgFails_eq (c err : Nat) (s : State) : tgFails c err s =
    if bit (rdReg (setTg c {} (modReg tongsPage (0x71C + 0x20 * c) (fun w => setFld w 23 20 err) (tongsDropped c s))) tongsPage (0x71C + 0x20 * c)) 29 then
      raiseBit tongsPage (8 + c) (setTg c {} (modReg tongsPage (0x71C + 0x20 * c) (fun w => setFld w 23 20 err) (tongsDropped c s)))
    else setTg c {} (modReg tongsPage (0x71C + 0x20 * c) (fun w => setFld w 23 20 err) (tongsDropped c s)) := rfl

section
variable (fits : Fits Q)
include fits

theorem tame_tongsDropped (k : Tame Q r s) (c : Nat) : Tame Q r (tongsDropped c s) := by
  refine ⟨k.bases, k.cores, fun h x hx => ?_⟩
  obtain ⟨y, hy, rfl⟩ := List.mem_map.1 hx
  by_cases own : y.use = .tongs c
  · rw [if_pos own]
    exact fits.dropped _
  · rw [if_neg own]
    exact k.trans h y hy

theorem tame_tgFails (k : Tame Q r s) (c err : Nat) : Tame Q r (tgFails c err s) := by
  have shown := tame_pageOnly (tame_tongsDropped fits k c) (pageOnly_modReg tongsPage (0x71C + 0x20 * c) (fun w => setFld w 23 20 err) (tongsDropped c s))
  rw [tgFails_eq]
  generalize modReg tongsPage (0x71C + 0x20 * c) (fun w => setFld w 23 20 err) (tongsDropped c s) = v at shown ⊢
  have freed : Tame Q r (setTg c {} v) := tame_of_fields shown
  exact tame_ite (tame_pageOnly freed (pageOnly_raiseBit ..)) freed

theorem tame_tgEnter (k : Tame Q r s) (c : Nat) (write : Bool) (a : Nat) (data : List Byte) (n : Nat) : Tame Q r (tgEnter c write a data n s) :=
  tame_enterPort (tame_of_fields k) (fits.tongs c) ..

theorem tame_tgBurst (k : Tame Q r s) {t : State} {c : Nat} (h : tgBurst s c = some t) : Tame Q r t := by
  unfold tgBurst at h
  dsimp only at h
  split at h
  · exact absurd h (by simp)
  · split at h
    · rw [← Option.some.inj h]
      exact tame_tgEnter fits (tame_of_fields k) ..
    · split at h
      · exact absurd h (by simp)
      · split at h
        · rw [← Option.some.inj h]
          exact tame_tgFails fits k ..
        · rw [← Option.some.inj h]
          exact tame_tgEnter fits (tame_of_fields k) ..

theorem tame_tgIssue (n : Nat) {s : State} (k : Tame Q r s) : Tame Q r (tgIssue n s) := by
  induction n generalizing s with
  | zero => exact k
  | succ n ih =>
    unfold tgIssue
    split
    · rename_i t ht
      obtain ⟨i, -, hi⟩ := List.exists_of_findSome?_eq_some ht
      exact ih (tame_tgBurst fits k hi)
    · exact k

theorem tame_tgStart (k : Tame Q r s) (c : Nat) (last irq : Bool) : Tame Q r (tgStart c last irq s) := by
  unfold tgStart
  split
  · exact tame_tgIssue fits _ (tame_of_fields k)
  · exact tame_tgFails fits k ..

theorem tame_tgLoad (k : Tame Q r s) (c : Nat) (bs : List Byte) : Tame Q r (tgLoad c bs s) := by
  have put {s : State} (k : Tame Q r s) (o : Nat) (v : Word) : Tame Q r (wrReg tongsPage o v s) := tame_pageOnly k (pageOnly_wrReg ..)
  unfold tgLoad
  dsimp only
  exact tame_tgStart fits (put (put (put (put (put (put (put k _ _) _ _) _ _) _ _) _ _) _ _) _ _) ..

theorem tame_tongsReply (k : Tame Q r s) (c : Nat) (t : Trans) (data : List Byte) (err : Option BusKind) : Tame Q r (tongsReply c t data err s) := by
  unfold tongsReply
  dsimp only
  split
  · exact tame_tgIssue fits _ (tame_tgFails fits k ..)
  · refine tame_ite (tame_tgLoad fits k ..) (tame_ite ?_ ?_)
    all_goals exact tame_tgIssue fits _ (tame_of_fields k)

theorem tame_issueRequests (k : Tame Q r s) : Tame Q r (issueRequests s) := by
  refine tame_forUpTo k fun i t k => ?_
  unfold issueRequest
  split
  · exact k
  · split
    · exact k
    · exact tame_forEach (tame_of_fields k) fun x u k => tame_enterPort k fits.pci ..

omit fits in
theorem tame_finishRequest (k : Tame Q r s) (q : PciReq) : Tame Q r (finishRequest q s) := by
  unfold finishRequest writeFailed countPciErr
  have counted (hi lo : Nat) : Tame Q r (modReg pciePage 0x708 (fun w => setFld w hi lo (min (fld w hi lo + 1) 0xFFFF)) s) := tame_pageOnly k (pageOnly_modReg ..)
  have told {u : State} (k : Tame Q r u) (i : Nat) : Tame Q r (aerReport i u) := tame_of_fields k
  exact tame_ite (tame_of_fields k) (tame_ite k (tame_ite (told (counted _ _) _) (told (counted _ _) _)))

theorem tame_pciReply (k : Tame Q r s) (t : Trans) (data : List Byte) (err : Option BusKind) : Tame Q r (pciReply t data err s) := by
  unfold pciReply
  split
  · exact tame_issueRequests fits k
  · exact tame_issueRequests fits (tame_forEach (tame_of_fields k) fun q u k => tame_finishRequest k q)

theorem tame_giveReply (k : Tame Q r s) {t : Trans} (other : engineUse t.use = false) (data : List Byte) (err : Option BusKind) : Tame Q r (giveReply t data err s) := by
  unfold giveReply
  cases use : t.use with
  | plain => exact tame_of_fields k
  | tongs c => exact tame_tongsReply fits k ..
  | pci => exact tame_pciReply fits k ..
  | agent f => exact tame_sends k (Sends.sendTo ..)
  | dropped => exact k
  | load | store | lr | sc | tas | tasLate | queue => rw [use] at other; cases other

/-- A response to anyone but an engine. -/
theorem tame_matrixReply (k : Tame Q r s) {t : Trans} (other : engineUse t.use = false) (data : List Byte) (err : Option BusKind) : Tame Q r (matrixReply t data err s) := by
  unfold matrixReply
  refine tame_giveReply fits ?_ other ..
  split
  · exact tame_ite k (tame_pageOnly k (pageOnly_mxError ..))
  · exact k

end

/-! ### The fabric, trips and the parts of a loss -/

theorem tame_countFb (k : Tame Q r s) (o : Nat) : Tame Q r (countFb o s) := tame_pageOnly k (pageOnly_countReg ..)
theorem tame_notice (k : Tame Q r s) (code data : Nat) : Tame Q r (notice code data s) := tame_sends k (Sends.notice ..)
theorem tame_raiseBit (k : Tame Q r s) (p i : Nat) : Tame Q r (raiseBit p i s) := tame_pageOnly k (pageOnly_raiseBit ..)
theorem tame_modReg (k : Tame Q r s) (p o : Nat) (f : Word → Word) : Tame Q r (modReg p o f s) := tame_pageOnly k (pageOnly_modReg ..)
theorem tame_wrReg (k : Tame Q r s) (p o : Nat) (v : Word) : Tame Q r (wrReg p o v s) := tame_pageOnly k (pageOnly_wrReg ..)
theorem tame_offer (k : Tame Q r s) (code sev src : Nat) (fid : Bool) (bs : List Byte) : Tame Q r (offer code sev src fid bs s) := tame_of_fields k
theorem tame_report (k : Tame Q r s) (x : Report) : Tame Q r (report x s) := tame_of_fields k
theorem tame_modFab (k : Tame Q r s) (f : Fabric → Fabric) : Tame Q r (modFab f s) := tame_of_fields k

theorem tame_completeDesc (k : Tame Q r s) (i kind : Nat) : Tame Q r (completeDesc i kind s) := tame_raiseBit (tame_bankPut k ..) ..

theorem tame_holdover (k : Tame Q r s) : Tame Q r (holdover s) := by
  unfold holdover
  dsimp only
  split
  · exact k
  · next p _ =>
    have reached : Tame Q r (if portUp s p then reach ((port s p).lastSync + 3000 * us) s else s) := tame_ite (tame_of_fields k) k
    generalize (if portUp s p then reach ((port s p).lastSync + 3000 * us) s else s) = u at reached ⊢
    exact tame_ite (tame_modFab reached _) (tame_ite reached (tame_notice (tame_offer (tame_raiseBit (tame_modFab (tame_modReg reached ..) _) ..) ..) ..))

theorem tame_fabricLost (k : Tame Q r s) : Tame Q r (fabricLost s) := by
  unfold fabricLost
  dsimp only
  refine tame_holdover (tame_modFab (tame_forUpTo (tame_forEach (tame_forUpTo k ?_) ?_) ?_) _)
  · exact fun p t k => tame_of_fields k
  · intro x t k
    unfold endTransaction
    exact tame_completeDesc (tame_pageOnly (tame_modFab k _) (pageOnly_wmSample ..)) ..
  · intro _ t k
    unfold ringEnds
    exact tame_ite k (tame_completeDesc (tame_wrReg k ..) ..)

theorem tame_linkDown (k : Tame Q r s) : Tame Q r (linkDown s) := by
  unfold linkDown
  exact tame_ite (tame_raiseBit (tame_modReg (tame_modReg k ..) ..) ..) k

theorem tame_trip (k : Tame Q r s) (c cause key : Nat) : Tame Q r (trip c cause key s) := tame_apart k (apart_trip ..)
theorem tame_tripAll (k : Tame Q r s) (cause key : Nat) : Tame Q r (tripAll cause key s) := tame_apart k (apart_tripAll ..)

theorem queueLost_engDefault {k : Nat} (hk : k < 1024) (n : Nat) (s : State) :
    (let q := queueLost n (engDefault k).queue s; { engDefault k with queue := q, armed := min (engDefault k).armed (presentWords q) }) = engDefault k := by
  unfold engDefault
  rw [if_neg (by omega)]
  rfl

theorem tame_stackLost (k : Tame Q r s) (n : Nat) : Tame Q r (stackLost n s) :=
  tame_forEach k fun _ t k => tame_modEng k fun hk => queueLost_engDefault hk n t

theorem tame_skipDomain (k : Tame Q r s) (d : Nat) : Tame Q r (skipDomain d s) := by
  obtain ⟨x, hx⟩ := skipDomain_rest d s
  rw [hx]
  exact tame_of_fields k

/-- What a loss does once its transactions have ended. -/
def lossAfter (d : Nat) (s : State) : State :=
  if d < 8 then degradeSites d (forUpTo 64 s (fun p s => trip (64 * d + p) 1 d s))
  else if d = 8 then tripAll 1 8 s
  else if d = 9 then linkDown (fabricLost s)
  else stackLost (d - 10) s

theorem lossEffects_eq (d : Nat) (s : State) : lossEffects d s = lossAfter d (skipDomain d (endCrossing d s)) := rfl

theorem tame_lossAfter (k : Tame Q r s) (d : Nat) : Tame Q r (lossAfter d s) := by
  unfold lossAfter
  refine tame_ite (tame_forEach (tame_forUpTo k fun p t k => tame_trip k ..) fun n t k => tame_of_fields k) ?_
  exact tame_ite (tame_tripAll k ..) (tame_ite (tame_linkDown (tame_fabricLost k)) (tame_stackLost k _))

end

/-! ### Responses to engines -/

section
variable {Q : Master → TransUse → Prop} {s : State}

theorem allTrans_of_trans (h : AllTrans Q s) {t : State} (same : t.trans = s.trans := by rfl) : AllTrans Q t := by
  unfold AllTrans
  rw [same]
  exact h

theorem allTrans_tame (h : AllTrans Q s) {t : State} (k : Tame Q s t) : AllTrans Q t := k.trans h

section
variable (own : ∀ k u, Q (engMaster k) u)
include own

theorem allTrans_fillOne (h : AllTrans Q s) (i : Nat) (before : List Op) (w : LoadWait) (o : Op) (rest : List Op) : AllTrans Q (fillOne i before w o rest s) := by
  unfold fillOne
  dsimp only
  split
  · exact allTrans_of_trans h
  split
  · exact allTrans_tame (allTrans_of_trans h) (tame_enterPort (.refl Q _) (own i _) ..)
  split
  · exact allTrans_of_trans h
  · exact allTrans_tame (allTrans_of_trans h) (tame_targetWrite (.refl Q _) ..)

theorem allTrans_fillWaits (i n : Nat) {s : State} (h : AllTrans Q s) : AllTrans Q (fillWaits i n s) := by
  induction n generalizing s with
  | zero => exact h
  | succ n ih =>
    unfold fillWaits
    split
    · exact h
    · exact ih (allTrans_fillOne own h _ _ _ _ _)

theorem allTrans_settled (h : AllTrans Q s) (i : Nat) : AllTrans Q (settled i s) := by
  unfold settled settle
  have filled := allTrans_fillWaits own i ((eng s i).ops.length + 1) h
  generalize fillWaits i ((eng s i).ops.length + 1) s = u at filled ⊢
  have freed : AllTrans Q (releaseFence i u) := by
    unfold releaseFence
    dsimp only
    repeat' split
    · exact allTrans_of_trans filled
    · exact allTrans_of_trans filled
    · exact filled
  generalize releaseFence i u = v at freed ⊢
  unfold issueStore
  split
  · exact freed
  split
  · exact freed
  · exact allTrans_tame freed (tame_enterPort (.refl Q _) (own i _) ..)

theorem allTrans_giveReply (fits : Fits Q) (h : AllTrans Q s) (t : Trans) (data : List Byte) (err : Option BusKind) : AllTrans Q (giveReply t data err s) := by
  by_cases other : engineUse t.use = false
  · exact allTrans_tame h (tame_giveReply fits (.refl Q s) other ..)
  unfold giveReply
  cases use : t.use with
  | load | lr | sc | tas => exact allTrans_of_trans h
  | tasLate k v =>
    have told : AllTrans Q (tasReply k data err s) := by
      unfold tasReply
      split
      · exact allTrans_of_trans h
      · exact allTrans_of_trans h
    exact allTrans_settled own told k
  | store k =>
    cases err with
    | some e =>
      dsimp only
      unfold storeBusError
      split
      · exact h
      · exact allTrans_settled own (allTrans_of_trans h) k
    | none =>
      dsimp only
      unfold storeLeaves
      split
      · exact h
      · exact allTrans_settled own (allTrans_of_trans h) k
  | queue k serial =>
    dsimp only
    unfold queueReply sampleStack
    dsimp only
    split
    · exact allTrans_tame (allTrans_of_trans h) (tame_pageOnly (.refl Q _) (pageOnly_wmSample ..))
    · exact allTrans_of_trans h
  | plain | tongs | pci | agent | dropped => exact absurd (by rw [use]; rfl) other

theorem allTrans_matrixReply (fits : Fits Q) (h : AllTrans Q s) (t : Trans) (data : List Byte) (err : Option BusKind) : AllTrans Q (matrixReply t data err s) := by
  unfold matrixReply
  refine allTrans_giveReply own fits ?_ _ _ _
  split
  · split
    · exact h
    · exact allTrans_tame h (tame_pageOnly (.refl Q _) (pageOnly_mxError ..))
  · exact h

end
end

/-! ### A loss leaves the transactions of engines to D8 -/

/-- A response that changes an engine is one to a master of D8. -/
def OfCore (m : Master) (u : TransUse) : Prop := engineUse u = true → masterDomain m = 8

/-- No response changes an engine. -/
def NotOfCore (_ : Master) (u : TransUse) : Prop := engineUse u = false

theorem fits_ofCore : Fits OfCore := ⟨fun _ h => absurd h (by decide), fun _ h => absurd h Bool.false_ne_true, fun h => absurd h Bool.false_ne_true⟩
theorem fits_notOfCore : Fits NotOfCore := ⟨fun _ => rfl, fun _ => rfl, rfl⟩

theorem ofCore_engMaster (k : Nat) (u : TransUse) : OfCore (engMaster k) u := by
  intro _
  unfold engMaster
  split
  · rfl
  split
  · rfl
  · rfl

theorem allTrans_endCrossing {s : State} (d : Nat) (h : AllTrans OfCore s) : AllTrans OfCore (endCrossing d s) := by
  unfold endCrossing
  refine allTrans_grantAll (forEach_inv (P := AllTrans OfCore) ?_ fun t u hu => allTrans_matrixReply ofCore_engMaster fits_ofCore hu _ _ _)
  exact fun x hx => h x (List.mem_filter.1 hx).1

/-- The loss of D8 ends every transaction of before. -/
theorem allTrans_endCrossing_core (s : State) : AllTrans OfCore (endCrossing 8 s) := by
  unfold endCrossing
  refine allTrans_grantAll (forEach_inv (P := AllTrans OfCore) ?_ fun t u hu => allTrans_matrixReply ofCore_engMaster fits_ofCore hu _ _ _)
  intro x hx
  have both := (List.mem_filter.1 hx).2
  exact absurd both (by cases e : masterDomain x.master == 8 <;> simp_all)

theorem allTrans_lossEffects {s : State} (d : Nat) (h : AllTrans OfCore s ∨ d = 8) : AllTrans OfCore (lossEffects d s) := by
  rw [lossEffects_eq]
  have ended : AllTrans OfCore (endCrossing d s) := by
    obtain h | rfl := h
    · exact allTrans_endCrossing d h
    · exact allTrans_endCrossing_core s
  exact allTrans_tame ended (tame_lossAfter (tame_skipDomain (.refl _ _) d) d)

/-! ### Cores at rest -/

/-- No timebase has started, every core and thread is as after reset, and no response is under way to an engine. -/
structure Cold (s : State) : Prop where
  bases : ∀ k, base s k = {}
  cores : ∀ k, k < 1024 → eng s k = engDefault k
  trans : AllTrans NotOfCore s

theorem Cold.tame {s t : State} (h : Cold s) (k : Tame NotOfCore s t) : Cold t := ⟨k.bases h.bases, k.cores h.cores, k.trans h.trans⟩

theorem tame_forEach_mem {α : Type} {Q : Master → TransUse → Prop} {r s : State} {l : List α} {f : α → State → State} (k : Tame Q r s)
    (h : ∀ a ∈ l, ∀ s, Tame Q r s → Tame Q r (f a s)) : Tame Q r (forEach l s f) := forEach_inv_mem k h

theorem cold_endCrossing {s : State} (h : Cold s) (d : Nat) : Cold (endCrossing d s) := by
  refine h.tame ?_
  unfold endCrossing
  refine tame_grantAll (tame_forEach_mem ⟨id, id, fun h x hx => h x (List.mem_filter.1 hx).1⟩ fun t ht u k => ?_)
  exact tame_matrixReply fits_notOfCore k (h.trans t (List.mem_filter.1 ht).1) ..

theorem cold_lossEffects {s : State} (h : Cold s) (d : Nat) : Cold (lossEffects d s) := by
  rw [lossEffects_eq]
  exact (cold_endCrossing h d).tame (tame_lossAfter (tame_skipDomain (.refl _ _) d) d)

theorem cold_isolate {s : State} (h : Cold s) (d : Nat) : Cold (isolate d s) := by
  have put (x : Domain) : Cold (setDom d x s) := h.tame (tame_of_fields (.refl _ _))
  exact isolate_cases h put fun x => cold_lossEffects (put x) d

end Sys2Proof.Machine
end

section
/-! PROOFS. A reset of the domains leaves cores and timebases as after reset, and start-up keeps them so (spec 17 R429, R432-R437). -/

-- One theorem at a time: elaborating them in parallel takes the memory of many threads.
set_option Elab.async false

namespace Sys2Proof.Machine

section
variable {Q : Master → TransUse → Prop} {r s : State}

/-! ### Live writes that a reset settles -/

theorem tame_modChan (k : Tame Q r s) (c : Nat) (f : Chan → Chan) : Tame Q r (modChan c f s) := tame_of_fields k
theorem tame_modLane (k : Tame Q r s) (l : Nat) (f : Lane → Lane) : Tame Q r (modLane l f s) := tame_of_fields k
theorem tame_tables (k : Tame Q r s) (x : SMap MarkTable) : Tame Q r { s with tables := x } := tame_of_fields k
theorem tame_setDom (k : Tame Q r s) (d : Nat) (x : Domain) : Tame Q r (setDom d x s) := tame_of_fields k
theorem tame_tick (k : Tame Q r s) : Tame Q r (tick s) := tame_of_fields k

theorem tame_modBase (k : Tame Q r s) {i : Nat} {f : Timebase → Timebase} (h : f {} = {}) : Tame Q r (modBase i f s) := by
  refine ⟨fun hr c => ?_, k.cores, k.trans⟩
  have before := k.bases hr c
  obtain rfl | ne := eq_or_ne c i
  · rw [base_modBase_same, before, h]
  · rw [base_modBase_ne ne, before]

theorem tame_checkMark (k : Tame Q r s) (y : TileMark) (stops : Bool) : Tame Q r (checkMark y stops s) := by
  unfold checkMark markMismatch
  dsimp only
  refine tame_ite k (tame_ite ?_ (tame_ite (tame_of_fields k) (tame_ite ?_ ?_)))
  · exact tame_raiseBit (tame_modReg (tame_of_fields k) ..) ..
  · exact tame_modChan (tame_report (tame_pageOnly (tame_modReg (tame_of_fields k) ..) (pageOnly_countReg ..)) _) ..
  · exact tame_report (tame_pageOnly (tame_modReg (tame_of_fields k) ..) (pageOnly_countReg ..)) _

theorem tame_settleMarks (k : Tame Q r s) (c : Nat) : Tame Q r (settleMarks c s) := by
  unfold settleMarks
  exact tame_modChan (tame_forEach (tame_modBase k rfl) fun y t k => tame_checkMark k ..) ..

theorem tame_setupStream (k : Tame Q r s) (c : Nat) : Tame Q r (setupStream c s) := by
  unfold setupStream strmFlag
  dsimp only
  have settled := tame_settleMarks k c
  generalize settleMarks c s = u at settled ⊢
  exact tame_ite (tame_raiseBit (tame_modReg k ..) ..) (tame_tables (tame_modLane (tame_modChan settled ..) ..) _)

theorem tame_rampOver (k : Tame Q r s) (c : Nat) (atBoundary : Bool) : Tame Q r (rampOver c atBoundary s) := by
  unfold rampOver enterHold
  exact tame_ite (tame_ite (tame_modChan k ..) (tame_modChan k ..)) (tame_modChan k ..)

theorem tame_startForce (k : Tame Q r s) (c : Nat) : Tame Q r (startForce c s) := tame_modChan (tame_tick k) ..

theorem tame_startSwitch (k : Tame Q r s) (c : Nat) (old : Word) (was : Forced) (atBoundary : Bool) : Tame Q r (startSwitch c old was atBoundary s) := by
  have ended : Tame Q r (modChan c (fun x => { x with term := termOf old x.func && !x.held, forcing := was != .nothing }) (abortPmu c s)) :=
    tame_modChan (tame_apart k (apart_abortPmu ..)) ..
  unfold startSwitch
  dsimp only
  generalize modChan c (fun x => { x with term := termOf old x.func && !x.held, forcing := was != .nothing }) (abortPmu c s) = u at ended ⊢
  split
  · exact tame_rampOver ended ..
  · exact tame_ite (tame_rampOver (tame_modChan ended ..) ..) (tame_modChan ended ..)
  · exact tame_ite (tame_rampOver (tame_modChan (tame_startForce ended c) ..) ..) (tame_modChan (tame_startForce ended c) ..)

theorem tame_pmuChange (k : Tame Q r s) (c : Nat) (was : Forced) : Tame Q r (pmuChange c was s) := by
  unfold pmuChange
  dsimp only
  generalize (pmuOn s c && (chan s c).phase == .steady && fvMode (pmode s c) && (match was with | .volts _ _ => false | _ => true)) = begins
  have forced : Tame Q r (if begins then startForce c s else s) := tame_ite (tame_startForce k c) k
  exact tame_ite forced (tame_modChan forced ..)

theorem tame_settingsChange (k : Tame Q r s) (c : Nat) (oldFunc oldStrm : Word) (was : Forced) (atBoundary : Bool) :
    Tame Q r (settingsChange c oldFunc oldStrm was atBoundary s) := by
  unfold settingsChange stopStream
  dsimp only
  have toggled := tame_modChan k c (fun x => { x with runToggled := false })
  generalize modChan c (fun x => { x with runToggled := false }) s = u at toggled ⊢
  have stopped {v w : State} (kv : Tame Q r v) (kw : Tame Q r w) (c : Prop) [Decidable c] : Tame Q r (if c then v else w) := tame_ite kv kw
  refine tame_ite (tame_modChan ?_ ..) (tame_ite (tame_startSwitch ?_ ..) (tame_pmuChange ?_ ..))
  all_goals exact stopped (tame_setupStream (stopped (tame_modChan toggled ..) toggled _) c) (stopped (tame_modChan toggled ..) toggled _) _

theorem tame_takeEffect (k : Tame Q r s) (c : Nat) (atBoundary : Bool) : Tame Q r (takeEffect c atBoundary s) := by
  have forced : Tame Q r (holdForce c s) := by
    unfold holdForce
    exact tame_ite (tame_modChan k ..) k
  unfold takeEffect changeSettings
  generalize holdForce c s = u at forced ⊢
  exact tame_settingsChange (tame_of_fields (t := dropHeld c u) forced) ..

theorem tame_settleHeld (k : Tame Q r s) : Tame Q r (settleHeld s) := tame_forUpTo k fun _ _ k => tame_ite k (tame_takeEffect k ..)

/-! ### Resets of domains (17 R429) -/

theorem tame_resetPages (k : Tame Q r s) (d : Nat) : Tame Q r (resetPages d s) := tame_of_fields k

theorem tame_resetTile (k : Tame Q r s) (d : Nat) : Tame Q r (resetTile d s) := by
  have sources : Tame Q r (resetSources d s) := tame_forUpTo k fun p t k => by
    unfold srcChange
    exact tame_ite k (tame_modChan k ..)
  unfold resetTile
  dsimp only
  generalize resetSources d s = u at sources ⊢
  exact tame_forUpTo (tame_of_fields (tame_resetPages sources d)) fun p t k => tame_modChan k ..

theorem tame_resetFabric (k : Tame Q r s) : Tame Q r (resetFabric s) := by
  have pages := tame_resetPages k 9
  unfold resetFabric
  generalize resetPages 9 s = u at pages ⊢
  exact tame_of_fields pages

theorem tame_resetStack (k : Tame Q r s) (n : Nat) : Tame Q r (resetStack n s) := by
  have pages := tame_resetPages k (10 + n)
  unfold resetStack
  generalize resetPages (10 + n) s = u at pages ⊢
  exact tame_of_fields pages

/-- A reset of a domain other than D8 touches no engine and no transaction. -/
theorem tame_resetDomain (k : Tame Q r s) {d : Nat} (hd : d ≠ 8) : Tame Q r (resetDomain d s) := by
  unfold resetDomain
  refine tame_ite (tame_resetTile k d) ?_
  rw [if_neg hd]
  exact tame_ite (tame_resetFabric k) (tame_resetStack k _)

end

/-- The pages, the domains and the lanes' side of the channels as D8 is reset. -/
def coreCleared (s : State) : State := forUpTo 512 (rebaseReady (patinaRestart (resetPages 8 s))) (fun c s => modChan c laneChan s)

/-- Engines, lanes, stores, Anvil, the matrix and Fabric Time at reset. -/
def enginesCleared (s : State) : State :=
  { s with now := 0, bases := [], tables := [], engines := [], stale := [], lanes := [], stores := [], seqs := [], fails := [], welds := [],
           reports := [], anvil := [], nextFid := 1, corrected := [], trans := s.trans.filter (fun t => masterDomain t.master != 8),
           replies := s.replies.filter (fun r => masterDomain r.master != 8), power := [], granted := [], tongs := [], tongsLast := 7, hang := [], hangAsk := none,
           fabHangAsk := none, copies := [], fstat := [], snap := {}, temper := { base := opsec s }, primer := {}, calDue := [], loaded := [], taken := [],
           ports := s.ports.map (fun e => (e.1, { e.2 with lastSync := 0, sync := none, faultAt := none })),
           fabric := { s.fabric with ended := s.fabric.ended.map (fun e => (e.1, 0)), timeNew := true, lockRun := 0,
                                     outstanding := s.fabric.outstanding.map (fun x => { x with sentAt := 0 }) } }

theorem resetCore_eq (s : State) : resetCore s = settleHeld (enginesCleared (coreCleared s)) := by
  unfold resetCore enginesCleared coreCleared
  with_reducible rfl

theorem tame_coreCleared {Q : Master → TransUse → Prop} {r s : State} (k : Tame Q r s) : Tame Q r (coreCleared s) := by
  unfold coreCleared rebaseReady patinaRestart
  refine tame_forUpTo (tame_forUpTo (tame_wrReg (tame_wrReg ?_ ..) ..) fun d t k => tame_setDom k ..) fun c t k => tame_modChan k ..
  exact tame_of_fields (tame_resetPages k 8)

theorem cold_enginesCleared {s : State} (h : AllTrans OfCore s) : Cold (enginesCleared s) := by
  refine ⟨fun _ => rfl, fun _ _ => rfl, fun x hx => ?_⟩
  obtain ⟨mem, other⟩ := List.mem_filter.1 hx
  cases use : engineUse x.use with
  | false => exact use
  | true =>
    have core : masterDomain x.master = 8 := h x mem use
    rw [core] at other
    cases other

/-- A reset of D8 leaves cores and timebases as after reset. -/
theorem cold_resetCore {s : State} (h : AllTrans OfCore s) : Cold (resetCore s) := by
  rw [resetCore_eq]
  exact (cold_enginesCleared (allTrans_tame h (tame_coreCleared (.refl _ _)))).tame (tame_settleHeld (.refl _ _))

theorem Cold.ofCore {s : State} (h : Cold s) : AllTrans OfCore s := fun x hx use => absurd use (by rw [h.trans x hx]; decide)

/-! ### Start-up -/

section
variable {s : State}

theorem cold_fields (h : Cold s) {t : State} (bases : t.bases = s.bases := by rfl) (engines : t.engines = s.engines := by rfl) (trans : t.trans = s.trans := by rfl) :
    Cold t := h.tame (tame_of_fields (.refl _ _) bases engines trans)
theorem cold_pageOnly (h : Cold s) {t : State} (k : PageOnly s t) : Cold t := h.tame (tame_pageOnly (.refl _ _) k)

theorem cold_ite {c : Prop} [Decidable c] {a b : State} (ha : Cold a) (hb : Cold b) : Cold (if c then a else b) := by
  split
  · exact ha
  · exact hb

theorem cold_forEach {α : Type} {l : List α} {f : α → State → State} (h : Cold s) (hf : ∀ a s, Cold s → Cold (f a s)) : Cold (forEach l s f) := forEach_inv h hf
theorem cold_forUpTo {n : Nat} {f : Nat → State → State} (h : Cold s) (hf : ∀ i s, Cold s → Cold (f i s)) : Cold (forUpTo n s f) := forUpTo_inv h hf

theorem cold_wrReg (h : Cold s) (p o : Nat) (v : Word) : Cold (wrReg p o v s) := cold_pageOnly h (pageOnly_wrReg ..)
theorem cold_modReg (h : Cold s) (p o : Nat) (f : Word → Word) : Cold (modReg p o f s) := cold_pageOnly h (pageOnly_modReg ..)
theorem cold_raiseBit (h : Cold s) (p i : Nat) : Cold (raiseBit p i s) := cold_pageOnly h (pageOnly_raiseBit ..)
theorem cold_report (h : Cold s) (x : Report) : Cold (report x s) := cold_fields h
theorem cold_offer (h : Cold s) (code sev src : Nat) (fid : Bool) (bs : List Byte) : Cold (offer code sev src fid bs s) := cold_fields h
theorem cold_setDom (h : Cold s) (d : Nat) (x : Domain) : Cold (setDom d x s) := cold_fields h
theorem cold_modChan (h : Cold s) (c : Nat) (f : Chan → Chan) : Cold (modChan c f s) := cold_fields h
theorem cold_trip (h : Cold s) (c cause key : Nat) : Cold (trip c cause key s) := h.tame (tame_trip (.refl _ _) ..)
theorem cold_bankPut (h : Cold s) (m : Master) (a : Nat) (bs : List Byte) : Cold (bankPut m a bs s) := h.tame (tame_bankPut (.refl _ _) ..)
theorem cold_linePut (h : Cold s) (a : Nat) (v : Word) : Cold (linePut a v s) := cold_bankPut h ..
theorem cold_markSlot (h : Cold s) (i : Nat) (bad : Bool) : Cold (markSlot i bad s) := cold_linePut h ..
theorem cold_setSlots (h : Cold s) (f : Word → Word) : Cold (setSlots f s) := cold_linePut h ..
theorem cold_modImages (h : Cold s) (f : Images → Images) : Cold (modImages f s) := cold_fields h
theorem cold_devStat (h : Cold s) (hi lo v : Nat) : Cold (devStat hi lo v s) := cold_modReg h ..

theorem cold_noteStep (h : Cold s) (j : Journal) : Cold (noteStep j s) := by
  unfold noteStep putJournal
  exact cold_wrReg (cold_raiseBit (cold_fields (cold_bankPut h ..)) ..) ..

theorem cold_closeLine (h : Cold s) : Cold (closeLine s) := by
  unfold closeLine putJournal
  split
  · exact cold_fields (cold_bankPut h ..)
  · exact h

theorem cold_submitEvent (h : Cold s) (code sev src : Nat) (bs : List Byte) : Cold (submitEvent code sev src bs s) := by
  have suppressed (ev : PatEvent) : Cold (countSuppressed ev.code.toNat ev.src.toNat s) := cold_fields h
  have queued (ev : PatEvent) (mayWait : Bool) {u : State} (h : Cold u) : Cold (enqueueEvent ev mayWait u) := by
    unfold enqueueEvent
    exact cold_ite (cold_fields h) (cold_ite (cold_fields h) (cold_pageOnly (cold_fields (t := countSuppressed ev.code.toNat ev.src.toNat u) h) (pageOnly_countReg ..)))
  unfold submitEvent intakeEvent suppress
  refine cold_ite (cold_pageOnly h (pageOnly_rejectWrite ..)) (cold_ite h (cold_ite (queued _ _ h) (cold_ite (queued _ _ h) (cold_ite ?_ (queued _ _ (cold_fields h))))))
  exact cold_pageOnly (suppressed _) (pageOnly_countReg ..)

theorem cold_closeJournal (h : Cold s) (j : Journal) (res : Nat) : Cold (closeJournal j res s) := by
  unfold closeJournal noteActivated
  dsimp only
  have closed : Cold (setSlots (fun w => setBit w (8 + j.comp) false) (closeLine (if j.step ≤ 1 then markSlot (slotKey j.comp j.slotB) j.was s else s))) :=
    cold_setSlots (cold_closeLine (cold_ite (cold_markSlot h ..) h)) _
  generalize setSlots (fun w => setBit w (8 + j.comp) false) (closeLine (if j.step ≤ 1 then markSlot (slotKey j.comp j.slotB) j.was s else s)) = u at closed ⊢
  have committed := cold_wrReg (cold_setSlots closed (fun w => setBit w j.comp j.slotB)) updPage (0x710 + 4 * j.comp) j.manifest.version
  refine cold_submitEvent (cold_raiseBit (cold_wrReg (cold_ite ?_ closed) ..) ..) ..
  exact cold_linePut (cold_ite (cold_linePut (cold_modImages committed _) ..) committed) ..

theorem cold_copyRange (h : Cold s) (src dst n : Nat) : Cold (copyRange src dst n s) := cold_forEach (cold_fields h) fun c t h => cold_fields h

theorem cold_tongsCopy (h : Cold s) (src dst n : Nat) : Cold (tongsCopy src dst n s) := by
  have copied := cold_copyRange h src dst n
  unfold tongsCopy mramPush
  generalize copyRange src dst n s = u at copied ⊢
  exact cold_fields copied

theorem cold_copyChunks (h : Cold s) (j : Journal) (n : Nat) : Cold (copyChunks j n s) := cold_forUpTo h fun _ _ h => cold_noteStep (cold_tongsCopy h ..) _
theorem cold_slotVerified (h : Cold s) (j : Journal) : Cold (slotVerified j s) := cold_noteStep (cold_markSlot (cold_modImages h _) ..) _

theorem cold_checkStep (h : Cold s) (j : Journal) : Cold (checkStep j s) := by
  unfold checkStep
  exact cold_ite (cold_noteStep (cold_setSlots (cold_noteStep h _) _) _) (cold_closeJournal (cold_offer h ..) ..)

theorem cold_resolveJournal (h : Cold s) (found : Nat → Bool) : Cold (resolveJournal found s) := by
  unfold resolveJournal
  split
  · exact h
  · next j _ =>
    dsimp only
    have copied : Cold (if j.chunks < chunksOf j.len then copyChunks j (chunksOf j.len) s else s) := cold_ite (cold_copyChunks h ..) h
    refine cold_ite (cold_closeJournal h ..) (cold_ite (cold_ite (cold_closeJournal h ..) ?_) (cold_ite (cold_checkStep h _) ?_))
    · exact cold_ite (cold_checkStep (cold_slotVerified copied _) _) (cold_closeJournal copied ..)
    · exact cold_ite (cold_fields h) (cold_closeJournal h ..)

theorem cold_runSelection (h : Cold s) (x : Selection) : Cold (runSelection x s) := by
  unfold runSelection
  dsimp only
  have held : Cold (forEach x.held (tick s) (fun h s => versionHeld h.1 h.2.1 h.2.2 (raiseBit updPage 2 (setSlots (fun w => setBit w (16 + h.1) true) s)))) :=
    cold_forEach (cold_fields h) fun a t h => cold_offer (cold_raiseBit (cold_setSlots h _) ..) ..
  exact cold_forUpTo (cold_ite held (cold_setSlots held _)) fun c t h => cold_wrReg h ..

theorem cold_endPending (h : Cold s) (x : Selection) : Cold (endPending x s) := by
  unfold endPending
  split
  · exact cold_ite (cold_closeJournal h ..) h
  · exact h

theorem cold_portState (h : Cold s) (p st : Nat) : Cold (portState p st s) := by
  unfold portState
  exact cold_ite h (cold_raiseBit (cold_fields h) ..)

theorem cold_faultPort (h : Cold s) (p : Nat) : Cold (faultPort p s) := by
  unfold faultPort
  dsimp only
  have state := cold_portState h p 4
  generalize portState p 4 s = u at state ⊢
  have told {t : State} (h : Cold t) (code data : Nat) : Cold (notice code data t) := h.tame (tame_notice (.refl _ _) ..)
  refine cold_forEach (told (cold_report (cold_raiseBit (cold_fields state) ..) _) ..) fun f t h => ?_
  exact cold_ite (cold_ite h (h.tame (tame_countFb (.refl _ _) _))) (cold_ite h (h.tame (tame_sends (.refl _ _) (Sends.sendTo ..))))

theorem cold_enablePorts (h : Cold s) : Cold (enablePorts s) := by
  unfold enablePorts
  refine cold_ite h (cold_forUpTo h fun p t h => ?_)
  unfold portEnable
  exact cold_ite (cold_ite h (cold_faultPort h p)) (cold_ite h (cold_ite (cold_portState (cold_fields h) ..) (cold_ite (cold_portState h ..) h)))

theorem cold_bootStore (h : Cold s) (i : Nat) (bad : Bool) : Cold (bootStore i bad s) := by
  unfold bootStore loadSockets
  dsimp only
  refine cold_ite (cold_raiseBit (cold_pageOnly (cold_fields h) (pageOnly_capture ..)) ..) (cold_ite ?_ (cold_fields h))
  exact cold_forUpTo (cold_fields h) fun n t h => cold_wrReg h ..

theorem cold_bootBlocks (h : Cold s) (b : BootFind) : Cold (bootBlocks b s) := by
  unfold bootBlocks startStores startTiles trainStacks restartsDone trainFails trainReady
  dsimp only
  have stores := cold_forUpTo (n := 8) (cold_forUpTo (n := 64) h fun l t h => cold_bootStore h l (b.laneBad.contains l)) fun i t h => cold_bootStore h (64 + i) (b.clusterBad.contains i)
  refine cold_enablePorts (cold_forUpTo (cold_forUpTo (cold_forUpTo stores ?_) ?_) ?_)
  · exact fun t u h => cold_ite (cold_isolate (cold_report h _) t) h
  · exact fun n u h => cold_ite h (cold_ite (cold_isolate (cold_report (cold_raiseBit (cold_wrReg h ..) ..) _) _) (cold_raiseBit (cold_wrReg h ..) ..))
  · exact fun d u h => cold_setDom h ..

theorem cold_loadTile (h : Cold s) (t : Nat) : Cold (loadTile t s) := by
  unfold loadTile
  refine cold_ite h (cold_forUpTo h fun p u h => ?_)
  have put {u : State} (h : Cold u) (c o : Nat) (v : Word) : Cold (putConst (chPage c) o v u) := cold_pageOnly h ((pageOnly_wrRole ..).trans (pageOnly_wrRole ..))
  unfold loadRecord
  dsimp only
  split
  · exact put (cold_forEach h fun o v h => put h ..) ..
  · exact cold_forEach h fun o v h => put h ..

theorem cold_bootConsts (h : Cold s) : Cold (bootConsts s) := by
  unfold bootConsts
  have loaded := cold_devStat (cold_forUpTo (n := 8) h fun t u h => cold_loadTile h t) 28 28
  exact cold_ite (loaded _) (cold_offer (loaded _) ..)

theorem cold_latchHolds (h : Cold s) (c : Nat) : Cold (latchHolds c s) := by
  unfold latchHolds
  exact cold_ite (cold_trip h ..) (cold_ite (cold_trip h ..) (cold_ite (cold_trip h ..) h))

theorem cold_hizChannels (h : Cold s) : Cold (hizChannels s) := by
  refine cold_forUpTo h fun c t h => cold_ite h (cold_latchHolds (cold_wrReg ?_ ..) c)
  unfold srcChange
  exact cold_ite (cold_modChan h ..) (cold_modChan (cold_modChan h ..) ..)

theorem cold_startBlocks (h : Cold s) (b : BootFind) : Cold (startBlocks b s) := by
  unfold startBlocks bootChannels
  exact cold_raiseBit (cold_devStat (cold_devStat (cold_devStat (cold_hizChannels (cold_bootConsts (cold_bootBlocks h b))) ..) ..) ..) ..

theorem cold_serviceSafe (h : Cold s) (comp : Nat) : Cold (serviceSafe comp s) := by
  unfold serviceSafe restartsDone
  have done := cold_forUpTo (n := 14) h fun d t h => cold_setDom h d { dom t d with due := false }
  generalize forUpTo 14 s _ = u at done ⊢
  exact cold_offer (cold_devStat (cold_devStat (cold_devStat (cold_hizChannels (cold_enablePorts done)) ..) ..) ..) ..

theorem cold_startFirmware (h : Cold s) (src len : Nat) (b : BootFind) : Cold (startFirmware src len b s) := by
  unfold startFirmware
  dsimp only
  have found := cold_modImages h (fun i => { foundSlots b i with host := if src = 2 then some b.host else none })
  generalize modImages _ s = u at found ⊢
  have copied := cold_copyRange found (if src = 2 then 0x801000 else slotContent 0 (src = 1)) 0x400000 (min (firmwareLen u src len b) 0xFF000)
  generalize copyRange _ _ _ u = v at copied ⊢
  have runs := cold_wrReg (cold_devStat (cold_devStat copied 26 25 src) 27 27 0) (pageIndex ⟨.mx, 0⟩) 0x700 1
  generalize wrReg _ _ _ _ = w at runs ⊢
  have entry := cold_forUpTo (n := 2) runs fun p t h => h.tame (tame_modEng (i := 1024 + p) (f := fun e => { e with pc := 0x3FF10 }) (.refl _ _) fun hp => absurd hp (by omega))
  exact cold_raiseBit (cold_devStat (cold_devStat entry ..) ..) ..

theorem cold_runFirmware (h : Cold s) (b : BootFind) : Cold (runFirmware b s).1 := by
  unfold runFirmware
  dsimp only
  have resolved := cold_resolveJournal h (fun k => (smGet none s.images.slots k).isSome)
  generalize resolveJournal _ s = u at resolved ⊢
  have selected := cold_runSelection (cold_endPending resolved (selectCombo u)) (selectCombo u)
  generalize runSelection (selectCombo u) (endPending (selectCombo u) u) = v at selected ⊢
  split
  · exact cold_serviceSafe selected _
  split
  · exact cold_linePut selected ..
  · exact cold_startBlocks selected b

theorem cold_modJournal (h : Cold s) (f : Images → Images) (j : Option Journal) : Cold ({ modImages f s with journal := j } : State) := cold_fields h

theorem cold_bootOnce (h : Cold s) (b : BootFind) : Cold (bootOnce b s).1 := by
  have ready : Cold (readied s) := cold_forUpTo h fun d t h => cold_setDom h ..
  have found : Cold (bootStart b s) := by
    rw [bootStart_eq]
    exact cold_modJournal ready ..
  unfold bootOnce
  dsimp only
  generalize bootStart b s = u at found ⊢
  split
  · next x _ =>
    have started := cold_startFirmware found x.toNat 0x100000 b
    generalize startFirmware _ _ b u = v at started ⊢
    exact cold_runFirmware started b
  · exact cold_devStat (cold_devStat found ..) ..

theorem cold_releaseDomain (h : Cold s) (d : Nat) : Cold (releaseDomain d s) := by
  unfold releaseDomain
  exact cold_ite h (cold_setDom (cold_fields h) ..)

theorem cold_powerUp (h : Cold s) (cause : Nat) : Cold (powerUp cause s) := by
  have put : Cold (vauxPut (clockLine + 4) (w32 (pcyc s + 1)) (wrReg rstPage 0x70C (w32 cause) s)) := (cold_wrReg h ..).tame (tame_targetWrite (.refl _ _) ..)
  unfold powerUp pinStays setLatch
  dsimp only
  generalize vauxPut (clockLine + 4) (w32 (pcyc s + 1)) (wrReg rstPage 0x70C (w32 cause) s) = u at put ⊢
  have counted : Cold (modPat (fun p => { p with intake := patEvent 0x1001 1 rstPage false (leBytes 4 cause) :: p.intake }) u) := cold_fields put
  generalize modPat (fun p => { p with intake := patEvent 0x1001 1 rstPage false (leBytes 4 cause) :: p.intake }) u = v at counted ⊢
  have latched := cold_raiseBit (cold_pageOnly (cold_modReg counted quenchPage 0x700 (fun w => setBit w 0 true)) (pageOnly_countReg quenchPage 0x708 1 _)) quenchPage 0
  exact cold_ite (cold_ite counted ((cold_offer (cold_report latched _) ..).tame (tame_tripAll (.refl _ _) ..))) counted

theorem cold_boot (h : Cold s) (b : BootFind) : Cold (boot b s) := by
  have first := cold_bootOnce h b
  unfold boot finishBoot
  generalize bootOnce b s = x at first ⊢
  have again : Cold (resetCore (lossEffects 8 x.1)) := cold_resetCore (cold_lossEffects first 8).ofCore
  exact cold_ite (cold_bootOnce (cold_powerUp (cold_releaseDomain again 8) 5) b) first

end

/-! ### A device reset (17 R429) -/

/-- A property that one iteration establishes on what the earlier ones keep, and that the later ones keep. -/
theorem forUpTo_after {σ : Type} {P Q : σ → Prop} {n k : Nat} {x : σ} {f : Nat → σ → σ} (hk : k < n) (start : Q x) (before : ∀ i x, i < k → Q x → Q (f i x))
    (make : ∀ x, Q x → P (f k x)) (keep : ∀ i x, k < i → P x → P (f i x)) : P (forUpTo n x f) := by
  have reach (m : Nat) (hm : m ≤ k) : Q (forUpTo m x f) := by
    induction m with
    | zero => exact start
    | succ m ih => exact before m _ hm (ih (by omega))
  induction n with
  | zero => exact absurd hk (Nat.not_lt_zero k)
  | succ n ih =>
    obtain rfl | ne := eq_or_ne k n
    · exact make _ (reach k le_rfl)
    · exact keep n _ (by omega) (ih (by omega))

/-- A domain of the device as a device reset takes it. -/
def domainReset (d : Nat) (s : State) : State := setDom d { dom s d with inReset := thermalHeld s d, isolated := false } (resetDomain d s)

/-- Bellows as after reset. -/
def bellowsFresh (s : State) : State := { s with bellows := {} }

/-- Every domain lost, the Bellows word cleared. -/
def domainsLost (s : State) : State := forUpTo 14 (vauxPut bellowsLine 0 s) (fun d s => lossEffects d s)

/-- The state in which a device reset starts up: every domain lost, reset and released. -/
def deviceCleared (s : State) : State := forUpTo 14 (forUpTo 14 (bellowsFresh (domainsLost s)) domainReset) (fun d s => releaseDomain d s)

theorem resetDevice_eq (cause : Nat) (b : BootFind) (s : State) : resetDevice cause b s = boot b (powerUp cause (deviceCleared s)) := by
  unfold resetDevice deviceCleared domainsLost domainReset bellowsFresh
  with_reducible rfl

theorem allTrans_lossLoop (s : State) : AllTrans OfCore (forUpTo 14 s (fun d s => lossEffects d s)) :=
  forUpTo_after (k := 8) (Q := fun _ => True) (by decide) trivial (fun _ _ _ _ => trivial) (fun _ _ => allTrans_lossEffects 8 (.inr rfl))
    fun d _ _ h => allTrans_lossEffects d (.inl h)

theorem tame_domainReset {Q : Master → TransUse → Prop} {r s : State} (k : Tame Q r s) {d : Nat} (hd : d ≠ 8) : Tame Q r (domainReset d s) :=
  tame_setDom (tame_resetDomain k hd) ..

theorem cold_domainReset {s : State} (h : AllTrans OfCore s) : Cold (domainReset 8 s) := by
  have reset : Cold (resetDomain 8 s) := by
    unfold resetDomain
    rw [if_neg (by decide), if_pos rfl]
    exact cold_resetCore h
  unfold domainReset
  generalize resetDomain 8 s = u at reset ⊢
  exact cold_setDom reset ..

theorem cold_domainsReset {s : State} (h : AllTrans OfCore s) : Cold (forUpTo 14 s domainReset) := by
  refine forUpTo_after (P := Cold) (Q := AllTrans OfCore) (k := 8) (by decide) h ?_ (fun _ h => cold_domainReset h) ?_
  · exact fun d _ hd h => allTrans_tame h (tame_domainReset (.refl _ _) (Nat.ne_of_lt hd))
  · exact fun d _ hd h => h.tame (tame_domainReset (.refl _ _) (Nat.ne_of_gt hd))

theorem ofCore_bellowsFresh {s : State} (h : AllTrans OfCore s) : AllTrans OfCore (bellowsFresh s) := allTrans_of_trans h

theorem ofCore_domainsLost (s : State) : AllTrans OfCore (domainsLost s) := by
  unfold domainsLost
  exact allTrans_lossLoop _

theorem cold_deviceCleared (s : State) : Cold (deviceCleared s) := by
  have reset := cold_domainsReset (ofCore_bellowsFresh (ofCore_domainsLost s))
  unfold deviceCleared
  exact cold_forUpTo reset fun d _ h => cold_releaseDomain h d

theorem cold_resetDevice (cause : Nat) (b : BootFind) (s : State) : Cold (resetDevice cause b s) := by
  rw [resetDevice_eq]
  exact cold_boot (cold_powerUp (cold_deviceCleared s) cause) b

end Sys2Proof.Machine
end

section
/-! PROOFS. Resets reach their domains (O47; spec 17 R429-R436, 19 R471). -/

-- One theorem at a time: elaborating them in parallel takes the memory of many threads.
set_option Elab.async false

namespace Sys2Proof.Machine

/-! ### Power-on from MRAM alone (17 R429, R432) -/

/-- The memory that power-on finds: MRAM. -/
def onlyMram (s : State) : State := { s with mem := s.mem.filter (fun c => decide (0x2000000 ≤ c.1 ∧ c.1 < 0x2800000)), mramLines := [], mramGap := [] }

/-- The state power-on finds: MRAM, and the BELLOWS page as at its reset. -/
def unpowered (s : State) : State :=
  { onlyMram s with regs := smDrop (fun k => k / 4096 % 16384 == blPage) s.regs, wms := smDrop (fun k => k / 4 == blPage) s.wms,
                    irqOut := smPut false s.irqOut blPage false, msixDue := smPut 0 s.msixDue blPage 0, thermal := {} }

/-- The outcome bits of the Bellows word, as BL_STAT shows them. -/
def lastOutcome (s : State) : Nat := 2 * (bit (mramWord (onlyMram s) bellowsLine) 0).toNat + (bit (mramWord (onlyMram s) bellowsLine) 1).toNat

/-- BL_STAT with the outcome of the last power failure. -/
def outcomeShown (s : State) : State := wrReg blPage 0x700 (w32 (lastOutcome s * 2 ^ 28)) (unpowered s)

theorem powerOn_eq (b : BootFind) (s : State) : powerOn b s = resetDevice 1 b (outcomeShown s) := by
  unfold powerOn outcomeShown lastOutcome unpowered onlyMram
  with_reducible rfl

theorem memByte_onlyMram (s : State) {a : Nat} (lo : 0x2000000 ≤ a) (hi : a < 0x2800000) : memByte (onlyMram s) a = memByte s a := by
  have drop : (onlyMram s).mem = smDrop (fun k => !decide (0x2000000 ≤ k ∧ k < 0x2800000)) s.mem := by
    unfold onlyMram smDrop
    simp only [Bool.not_not]
  unfold memByte
  rw [drop, smGet_smDrop, if_neg (by simp [lo, hi])]

theorem mem_outcomeShown (s : State) : (outcomeShown s).mem = (onlyMram s).mem := rfl

theorem outcome_bits (s : State) : bit (w32 (lastOutcome s * 2 ^ 28)) 29 = bit (mramWord s bellowsLine) 0 ∧ bit (w32 (lastOutcome s * 2 ^ 28)) 28 = bit (mramWord s bellowsLine) 1 := by
  have word : mramWord (onlyMram s) bellowsLine = mramWord s bellowsLine :=
    mramWord_congr fun x lo hi => memByte_onlyMram s (le_trans (by decide) lo) (lt_of_lt_of_le hi (by decide))
  unfold lastOutcome
  rw [word]
  generalize bit (mramWord s bellowsLine) 0 = p
  generalize bit (mramWord s bellowsLine) 1 = q
  revert p q
  decide

theorem powerOn_from_mram (b : BootFind) (s : State) : ∃ u, exec (.powerOnReset b) s = .next (resetDevice 1 b u) ∧ u.mramLines = [] ∧ u.thermal = {} ∧
    (∀ c ∈ u.mem, 0x2000000 ≤ c.1 ∧ c.1 < 0x2800000) ∧ (∀ a, 0x2000000 ≤ a → a < 0x2800000 → memByte u a = memByte s a) ∧
    bit (rdReg u blPage 0x700) 29 = bit (mramWord s bellowsLine) 0 ∧ bit (rdReg u blPage 0x700) 28 = bit (mramWord s bellowsLine) 1 := by
  have shown : rdReg (outcomeShown s) blPage 0x700 = w32 (lastOutcome s * 2 ^ 28) := rdReg_wrReg_same ..
  refine ⟨outcomeShown s, congrArg Host.Outcome.next (powerOn_eq b s), rfl, rfl, fun c hc => ?_, fun a lo hi => ?_, ?_⟩
  · rw [mem_outcomeShown] at hc
    exact of_decide_eq_true (List.mem_filter.1 hc).2
  · rw [memByte_of_mem (mem_outcomeShown s), memByte_onlyMram s lo hi]
  · rw [shown]
    exact outcome_bits s

/-! ### A tile that restarts (17 R436) -/

theorem pageOnly_putConst (p o : Nat) (v : Word) (s : State) : PageOnly s (putConst p o v s) := (pageOnly_wrRole ..).trans (pageOnly_wrRole ..)

/-- A write of a channel's constant leaves the emergency latches. -/
theorem emStat_putConst (c o : Nat) (v : Word) (s : State) : emStat (putConst (chPage c) o v s) = emStat s := by
  have page : 0x200 ≤ chPage c := by simp only [chPage, pageIndex]; omega
  have apart_ : chPage c * 4096 + o ≠ quenchPage * 4096 + 0x700 := by
    have at_ : quenchPage = 0x24 := by decide
    omega
  have put (e : Bool) (s : State) : rdReg (wrRole e (chPage c) o v s) quenchPage 0x700 = rdReg s quenchPage 0x700 := rdReg_wrRole_apart (by decide) apart_ (by decide) ..
  unfold emStat putConst
  rw [put, put]
  rfl

/-- Loading constants changes pages alone, and none of the emergency latches. -/
structure Loads (s t : State) : Prop where
  page : PageOnly s t
  latches : emStat t = emStat s

theorem loads_putConst {r s : State} (k : Loads r s) (c o : Nat) (v : Word) : Loads r (putConst (chPage c) o v s) :=
  ⟨k.page.trans (pageOnly_putConst ..), (emStat_putConst ..).trans k.latches⟩

theorem loads_loadTile (d : Nat) (s : State) : Loads s (loadTile d s) := by
  have same : Loads s s := ⟨.refl s, rfl⟩
  unfold loadTile
  split
  · exact same
  refine forUpTo_inv same fun p u k => ?_
  unfold loadRecord
  dsimp only
  split
  · exact loads_putConst (forEach_inv k fun o v k => loads_putConst k ..) ..
  · exact forEach_inv k fun o v k => loads_putConst k ..

/-- A channel's restart: as at reset, its output closed, or held where an emergency latch is set. -/
def channelRestart (c : Nat) (s : State) : State := latchHolds c (modChan c (tileChan false) s)

theorem elsewhere_latchHolds (c : Nat) (s : State) : elsewhere c (latchHolds c s) = elsewhere c s := by
  unfold latchHolds
  dsimp only
  repeat' split
  · exact elsewhere_trip ..
  · exact elsewhere_trip ..
  · exact elsewhere_trip ..
  · rfl

theorem elsewhere_channelRestart (c : Nat) (s : State) : elsewhere c (channelRestart c s) = elsewhere c s :=
  (elsewhere_latchHolds ..).trans (elsewhere_modChan ..)

theorem emStat_trip {c : Nat} (hc : c < 512) (cause key : Nat) (s : State) : emStat (trip c cause key s) = emStat s := by
  have pins : (trip c cause key s).pins = s.pins := (congrArg State.pins (apart_trip c cause key s) :)
  unfold emStat
  rw [pins, rdReg_trip_other cause key hc (by decide) (by decide) (by decide)]

theorem emStat_latchHolds {c : Nat} (hc : c < 512) (s : State) : emStat (latchHolds c s) = emStat s := by
  unfold latchHolds
  dsimp only
  repeat' split
  · exact emStat_trip hc ..
  · exact emStat_trip hc ..
  · exact emStat_trip hc ..
  · rfl

theorem emStat_channelRestart {c : Nat} (hc : c < 512) (s : State) : emStat (channelRestart c s) = emStat s := emStat_latchHolds hc _

theorem mem_channelRestart (c : Nat) (s : State) : (channelRestart c s).mem = s.mem := by
  unfold channelRestart latchHolds
  dsimp only
  have tripped (cause key : Nat) : (trip c cause key (modChan c (tileChan false) s)).mem = s.mem := mem_of_apart (apart_trip ..)
  repeat' split
  · exact tripped ..
  · exact tripped ..
  · exact tripped ..
  · rfl

/-- The trip of a channel with no stroke and no measurement under way leaves its output as it is. -/
theorem open_trip {c : Nat} (hc : c < 512) (cause key : Nat) {s : State} (free : (chan s c).held = false) (stroke : (chan s c).stroke = none) (pmu : (chan s c).pmu = .idle) :
    (chan (trip c cause key s) c).open_ = (chan s c).open_ := by
  have events : eventsBefore c 8 s = s := by
    unfold eventsBefore
    rw [stroke]
  rw [chan_trip cause key hc free, stopped, events, abortPmu, if_pos pmu, chan_stopStream]
  rfl

theorem latches_any (w : Word) : (fld w 2 0 != 0) = (bit w 0 || bit w 1 || bit w 2) := by
  have split_ : w.getLsbD 0 = (w.toNat.testBit 0) ∧ w.getLsbD 1 = (w.toNat.testBit 1) ∧ w.getLsbD 2 = (w.toNat.testBit 2) := ⟨rfl, rfl, rfl⟩
  unfold bit
  rw [split_.1, split_.2.1, split_.2.2]
  simp only [Nat.testBit_eq_decide_div_mod_eq, fld]
  generalize w.toNat = n
  rw [Bool.eq_iff_iff]
  simp only [bne_iff_ne, ne_eq, Bool.or_eq_true, decide_eq_true_eq]
  omega

theorem channelRestart_own {c : Nat} (hc : c < 512) (s : State) :
    (chan (channelRestart c s) c).held = (fld (emStat s) 2 0 != 0) ∧ (chan (channelRestart c s) c).open_ = false := by
  have fresh : chan (modChan c (tileChan false) s) c = tileChan false (chan s c) := chan_modChan_same ..
  have tripped (cause key : Nat) (set : (fld (emStat s) 2 0 != 0) = true) : (chan (trip c cause key (modChan c (tileChan false) s)) c).held = (fld (emStat s) 2 0 != 0) ∧
      (chan (trip c cause key (modChan c (tileChan false) s)) c).open_ = false := by
    refine ⟨(held_trip ..).trans set.symm, ?_⟩
    rw [open_trip hc _ _ (by rw [fresh]; rfl) (by rw [fresh]; rfl) (by rw [fresh]; rfl), fresh]
    rfl
  have same : emStat (modChan c (tileChan false) s) = emStat s := rfl
  unfold channelRestart latchHolds
  dsimp only
  rw [same]
  rw [latches_any] at tripped ⊢
  cases e0 : bit (emStat s) 0 with
  | true => simpa [e0] using tripped 2 0 (by simp [e0])
  | false =>
    cases e1 : bit (emStat s) 1 with
    | true => simpa [e0, e1] using tripped 3 1 (by simp [e1])
    | false =>
      cases e2 : bit (emStat s) 2 with
      | true => simpa [e0, e1, e2] using tripped 4 2 (by simp [e2])
      | false =>
        simp only [Bool.false_eq_true, if_false]
        rw [fresh]
        exact ⟨rfl, rfl⟩

theorem dom_of_doms {s t : State} (h : t.doms = s.doms) (d : Nat) : dom t d = dom s d := congrArg (smGet ({} : Domain) · d) h

/-- A tile restarts with closed outputs; its channels are held while an emergency latch is set, no other channel and no memory changes. -/
theorem tile_restarts {d : Nat} (hd : d < 8) (u : State) : let t := forUpTo 64 (loadTile d u) (fun p s => channelRestart (64 * d + p) s)
    t.doms = u.doms ∧ t.mem = u.mem ∧ (∀ c : Ch, tileOf c.val = d → (chan t c.val).held = (fld (emStat u) 2 0 != 0) ∧ (chan t c.val).open_ = false) ∧
      (∀ c : Ch, tileOf c.val ≠ d → chan t c.val = chan u c.val) := by
  have loads := loads_loadTile d u
  generalize loadTile d u = v at loads
  have channel (p : Nat) (hp : p < 64) : 64 * d + p < 512 := by omega
  have chans (c : Nat) : chan v c = chan u c := by unfold chan; rw [loads.page.chans_eq]
  have latches (n : Nat) (hn : n ≤ 64) : emStat (forUpTo n v (fun p s => channelRestart (64 * d + p) s)) = emStat u := by
    induction n with
    | zero => exact loads.latches
    | succ n ih => exact (emStat_channelRestart (channel n (by omega)) _).trans (ih (by omega))
  dsimp only
  refine ⟨?_, ?_, fun c hc => ?_, fun c hc => ?_⟩
  · exact (doms_forUpTo (g := (64 * d + ·)) (fun p s => elsewhere_channelRestart ..) 64 v).trans loads.page.doms_eq
  · exact forUpTo_inv (P := fun t : State => t.mem = u.mem) loads.page.mem_eq fun p t k => (mem_channelRestart ..).trans k
  · have he : 64 * d + c.val % 64 = c.val := by unfold tileOf at hc; omega
    have own := (chan_forUpTo_at (i := c.val % 64) (n := 64) (g := (64 * d + ·)) (fun a _ b _ e => Nat.add_left_cancel e) (f := fun p s => channelRestart (64 * d + p) s)
      (fun p s => elsewhere_channelRestart ..) (by omega) v).1
    simp only [he] at own
    rw [own, ← latches (c.val % 64) (by omega)]
    exact channelRestart_own c.isLt _
  · exact (chan_forUpTo_other (g := (64 * d + ·)) (fun p s => elsewhere_channelRestart ..) 64 (fun p hp => by unfold tileOf at hc; omega) v).trans (chans _)

/-! ### Commands of the RST page (17 R429) -/

theorem find_rstCmd : findReg (regsOf .rst) 0x708 = some ((findReg (regsOf .rst) 0x708).get (by decide)) := by decide

theorem block_rstCmd (p : Nat) (m : Master) (fs : List Field) (v : Word) (s : State) : blockWrite ⟨.rst, 0⟩ p 0x708 m fs v s =
    if rstWriter s m v then rstCmdWrite m v (Config.freeFind s.free) (tick s) else rejectWrite p 0x708 m s := rfl

theorem accessWrite_rstCmd {m : Master} {s : State} (v : Word) (h : Takes s rstPage m) : accessWrite rstPage 0x708 m v s =
    if rstWriter s m v then rstCmdWrite m v (Config.freeFind s.free) (tick s) else rejectWrite rstPage 0x708 m s :=
  (accessWrite_block v h pageAt_rstPage find_rstCmd (by decide) (fun h => nomatch h) (by decide) (by decide)).trans (block_rstCmd ..)

/-- DEVICE asserted leaves the key and the domain of the command. -/
theorem device_fields (v : Word) : bit (setBit v 15 true) 15 = true ∧ fld (setBit v 15 true) 31 16 = fld v 31 16 ∧ fld (setBit v 15 true) 3 0 = fld v 3 0 :=
  ⟨bit_setBit_same _ _ (by decide), fld_setFld_ne _ _ (by decide) (by decide) (by decide) (.inl (by decide)),
    fld_setFld_ne _ _ (by decide) (by decide) (by decide) (.inr (by decide))⟩

theorem exec_device {m : Master} {s : State} (v : Word) (h : Takes s rstPage m) : exec (.device m v) s = .next (
    if pairService s m = true ∨ (m = .pcie ∧ fld v 31 16 = 0x5A17) then
      (if 14 ≤ fld v 3 0 then invalidWrite rstPage 0x708 m (tick s)
       else if fld v 31 16 = 0x5A17 then resetDevice 3 (Config.freeFind s.free) (tick s) else rejectWrite rstPage 0x708 m (tick s))
    else rejectWrite rstPage 0x708 m s) := by
  obtain ⟨asserted, key, domain⟩ := device_fields v
  have writer : rstWriter s m (setBit v 15 true) = true ↔ pairService s m = true ∨ (m = .pcie ∧ fld v 31 16 = 0x5A17) := by
    simp only [rstWriter, asserted, key, Bool.or_eq_true, Bool.and_eq_true, beq_iff_eq, and_true]
  refine congrArg Host.Outcome.next ((accessWrite_rstCmd (setBit v 15 true) h).trans ?_)
  simp only [writer, rstCmdWrite, asserted, key, domain, if_true]

theorem deviceCommand {m : Master} {v : Word} {s : State} (h : Takes s rstPage m) :
    (fld v 31 16 = 0x5A17 → pairService s m = true ∨ m = .pcie → exec (.device m v) s = .next (if 14 ≤ fld v 3 0 then invalidWrite rstPage 0x708 m (tick s) else resetDevice 3 (Config.freeFind s.free) (tick s))) ∧
    (fld v 31 16 ≠ 0x5A17 → fld v 3 0 < 14 → pairService s m = true → exec (.device m v) s = .next (rejectWrite rstPage 0x708 m (tick s))) ∧
    (pairService s m = false → m ≠ .pcie ∨ fld v 31 16 ≠ 0x5A17 → exec (.device m v) s = .next (rejectWrite rstPage 0x708 m s)) := by
  rw [exec_device v h]
  refine ⟨fun key who => ?_, fun key small pair => ?_, fun pair who => ?_⟩
  · rw [if_pos (who.imp_right fun e => ⟨e, key⟩), if_pos key]
  · rw [if_pos (.inl pair), if_neg (by omega), if_neg key]
  · rw [if_neg (by rintro (e | ⟨e, f⟩); exacts [absurd (pair.symm.trans e) (by decide), who.elim (absurd e) (absurd f)])]

theorem domainCommand {m : Master} {v : Word} {s : State} (h : Takes s rstPage m) (b : BootFind) (d : Nat) (pair : pairService s m = true) (clear : bit v 15 = false) (hd : d = fld v 3 0) :
    exec (.domainReset m v b) s = .next (if 14 ≤ d then invalidWrite rstPage 0x708 m s else if d = 8 then resetD8 5 b s
      else if bit v 8 = true then (if (dom s d).inReset = true then s else resetDomain d (loseBy d { dom s d with inReset := true, due := false } s))
      else if (dom s d).inReset = true then releaseDomain d s else s) := by
  have writer : rstWriter s m v = true := by simp [rstWriter, pair]
  subst hd
  refine congrArg Host.Outcome.next ?_
  rw [onPage_of_takes _ h pageAt_rstPage, if_pos writer]
  unfold rstCmdWrite domainCmd loseDomain
  simp only [clear, Bool.false_eq_true, if_false]
  split
  · rfl
  · rfl

/-! ### Releases, restarts and power-good (17 R429, R436) -/

theorem releaseDomain_released {d : Nat} {s : State} (cool : thermalHeld s d = false) : ∃ x, s.now ≤ x ∧ x < s.now + 10 * us ∧
    releaseDomain d s = setDom d { dom s d with inReset := false, isolated := false, due := true, waits := some x } (tick s) := by
  refine ⟨s.now + freeVal 30 s % (10 * us), Nat.le_add_right .., Nat.add_lt_add_left (Nat.mod_lt _ (by decide)) _, ?_⟩
  unfold releaseDomain
  rw [if_neg (by simp [cool])]

theorem domainRestart_not {d : Dom} (ok : Bool) {s : State}
    (h : domLost s 8 = true ∨ d.val = 8 ∨ domLost s d.val = true ∨ (dom s d.val).due = false ∨ bit (rdReg s devPage 0x700) 31 = false) :
    exec (.domainRestart d ok) s = .next s := by
  refine congrArg Host.Outcome.next ?_
  unfold whileUp
  split
  · rfl
  next up =>
    unfold domainRestart
    refine if_pos ?_
    obtain h | h | h | h | h := h
    · exact absurd h up
    · exact .inl h
    · exact .inr (.inl h)
    · exact .inr (.inr (.inl (by simp [h])))
    · exact .inr (.inr (.inr (by simp [h])))

theorem exec_domainRestart {d : Dom} (ok : Bool) {s : State} (up : domLost s 8 = false) (other : d.val ≠ 8) (own : domLost s d.val = false) (due : (dom s d.val).due = true)
    (ready : bit (rdReg s devPage 0x700) 31 = true) : exec (.domainRestart d ok) s = .next (
      if 10 ≤ d.val then wrReg (hbmPage (d.val - 10)) 0x700 0x40000000 (setDom d.val { dom s d.val with due := false } s)
      else if ok = false then isolate d.val (reportLoss d.val (setDom d.val { dom s d.val with due := false } s))
      else if d.val = 9 then enablePorts (setDom d.val { dom s d.val with due := false } s)
      else forUpTo 64 (loadTile d.val (setDom d.val { dom s d.val with due := false } s)) (fun p s => channelRestart (64 * d.val + p) s)) := by
  refine congrArg Host.Outcome.next ?_
  unfold whileUp
  rw [if_neg (by simp [up])]
  unfold Machine.domainRestart
  rw [if_neg (by simp [other, own, due, ready])]
  simp only [Bool.not_eq_true']
  rfl

theorem powerReturns_of {d : Nat} {b : BootFind} {s : State} :
    ((dom s d).good = true → powerReturns d b s = s) ∧
    ((dom s d).good = false → s.bellows.stopped = true → powerReturns d b s = setDom d { dom s d with good := true } s) ∧
    ((dom s d).good = false → s.bellows.stopped = false → d ≠ 8 → powerReturns d b s =
      releaseDomain d (resetDomain d (raiseBit rstPage 0 (setDom d { dom s d with good := true } s)))) ∧
    ((dom s d).good = false → s.bellows.stopped = false → d = 8 → powerReturns d b s =
      resetD8 5 b (shellLost (raiseBit rstPage 0 (setDom 8 { dom s 8 with good := true } s)))) := by
  unfold powerReturns
  refine ⟨fun g => if_pos g, fun g st => ?_, fun g st ne => ?_, fun g st eq => ?_⟩
  · rw [if_neg (by simp [g]), if_pos st]
  · rw [if_neg (by simp [g]), if_neg (by simp [st])]
    exact if_neg ne
  · subst eq
    rw [if_neg (by simp [g]), if_neg (by simp [st])]
    exact if_pos rfl

/-! ### Resets of PCIe (19 R471) -/

theorem pageOnly_linkDown (s : State) : PageOnly s (linkDown s) := by
  unfold linkDown
  split
  · exact ((pageOnly_modReg ..).trans (pageOnly_modReg ..)).trans (pageOnly_raiseBit ..)
  · exact .refl s

/-- What a reset of PCIe takes with it: the requests, and the writes of them under way. -/
def requestsDropped (s : State) : State :=
  { s with pcie := { s.pcie with reqs := [] }, trans := s.trans.map (fun t => if t.use = .pci then { t with use := .dropped } else t) }

theorem pcieResets_eq (s : State) : pcieResets s = wrReg msixPage 0x700 0 (requestsDropped (linkDown s)) := by
  unfold pcieResets requestsDropped
  with_reducible rfl

/-- What is left of PCIe and what else stays after its reset. -/
structure PcieGone (s t : State) : Prop where
  link : bit (rdReg t pciePage 0x700) 31 = false
  msix : rdReg t msixPage 0x700 = 0
  reqs : t.pcie.reqs = []
  table : t.pcie.table = s.pcie.table
  mem : t.mem = s.mem
  chans : t.chans = s.chans
  engines : t.engines = s.engines

theorem pcieGone_pcieResets (s : State) : PcieGone s (pcieResets s) := by
  have link := linkDown_link s
  have page := pageOnly_linkDown s
  rw [pcieResets_eq]
  generalize linkDown s = u at link page
  have apart_ : rdReg (wrReg msixPage 0x700 0 (requestsDropped u)) pciePage 0x700 = rdReg u pciePage 0x700 :=
    rdReg_wrRole_apart (by decide) (by decide) (by decide) false 0 (requestsDropped u)
  exact { link := (congrArg (bit · 31) apart_).trans link
          msix := rdReg_wrReg_same ..
          reqs := rfl
          table := show u.pcie.table = s.pcie.table from congrArg PcieUnit.table page.pcie_eq
          mem := page.mem_eq
          chans := page.chans_eq
          engines := page.engines_eq }

/-- The PCIE page as at its reset, and what waited for its interrupt gone. -/
def pageGone (s : State) : State :=
  { s with regs := smDrop (fun k => k / 4096 % 16384 == pciePage) s.regs, wms := smDrop (fun k => k / 4 == pciePage) s.wms, irqOut := smPut false s.irqOut pciePage false,
           msixDue := smPut 0 s.msixDue pciePage 0 }

theorem functionReset_eq (s : State) : functionReset s = pageGone { pcieResets s with pcie := {} } := by
  unfold functionReset pageGone
  with_reducible rfl

theorem rdReg_fixed (s : State) {p o : Nat} (h : bankable o = false) : rdReg s p o = smGet (resetAt p o) s.regs (regKey false p o) := by
  unfold rdReg rdRole roleKey
  simp only [h, Bool.false_eq_true, if_false]

theorem rdReg_pageGone (s : State) : rdReg (pageGone s) pciePage 0x700 = resetAt pciePage 0x700 ∧ rdReg (pageGone s) msixPage 0x700 = rdReg s msixPage 0x700 := by
  have fixed : bankable 0x700 = false := by decide
  rw [rdReg_fixed _ fixed, rdReg_fixed _ fixed, rdReg_fixed s fixed]
  have drop (k : Nat) (d : Word) : smGet d (pageGone s).regs k = if (k / 4096 % 16384 == pciePage) = true then d else smGet d s.regs k :=
    smGet_smDrop d s.regs (fun k => k / 4096 % 16384 == pciePage) k
  rw [drop, drop, if_pos (by decide), if_neg (by decide)]
  exact ⟨rfl, rfl⟩

theorem functionReset_leaves (s : State) : ∃ t, exec .functionLevelReset s = .next t ∧ bit (rdReg t pciePage 0x700) 31 = false ∧ t.pcie = {} ∧ rdReg t msixPage 0x700 = 0 ∧
    t.mem = s.mem ∧ t.chans = s.chans ∧ t.engines = s.engines := by
  have gone := pcieGone_pcieResets s
  refine ⟨_, congrArg Host.Outcome.next (functionReset_eq s), ?_⟩
  generalize pcieResets s = u at gone ⊢
  obtain ⟨page, msix⟩ := rdReg_pageGone ({ u with pcie := {} } : State)
  exact ⟨by rw [page]; decide, rfl, msix.trans gone.msix, gone.mem, gone.chans, gone.engines⟩

/-! ### The obligation -/

theorem deviceReset_leaves (cause : Nat) (b : BootFind) (s : State) :
    (∃ u, resetDevice cause b s = boot b (powerUp cause u) ∧ rdReg (resetDevice cause b s) rstPage 0x70C = if (bootOnce b (powerUp cause u)).2 = true then 5 else w32 cause) ∧
    (∀ k, k < 1024 → eng (resetDevice cause b s) k = engDefault k) ∧ (∀ k : Cl, base (resetDevice cause b s) k.val = {}) ∧ (resetDevice cause b s).pending = s.pending := by
  have cold := cold_resetDevice cause b s
  have shown : rdReg (resetDevice cause b s) rstPage 0x70C = if (bootOnce b (powerUp cause (deviceCleared s))).2 = true then 5 else w32 cause := by
    rw [resetDevice_eq]
    exact cause_boot ..
  exact ⟨⟨_, resetDevice_eq cause b s, shown⟩, cold.cores, fun k => cold.bases k.val, (keeps_resetDevice cause b (.refl s)).pending⟩

/-- Settles O47: a device reset loses, resets and releases every domain before start-up, which leaves cores and timebases as they are; the other resets touch their domain. -/
theorem resetsReachTheirDomains : Obligations.ResetsReachTheirDomains := by
  unfold Obligations.ResetsReachTheirDomains
  refine ⟨?_, ?_, ?_, ?_, ?_, ?_, ?_, ?_, ?_, ?_⟩
  · rintro cause b s t rfl
    exact deviceReset_leaves cause b s
  · exact fun b s => ⟨powerOn_from_mram b s, rfl⟩
  · intro m v s h
    obtain ⟨keyed, unkeyed, other⟩ := deviceCommand (v := v) h
    exact ⟨keyed, unkeyed, other, fun b d pair clear hd => domainCommand h b d pair clear hd⟩
  · exact fun d s => ⟨fun hot => if_pos hot, fun cool => releaseDomain_released cool⟩
  · exact fun d ok s h => domainRestart_not ok h
  · rintro d s u up other own due ready rfl
    refine ⟨fun hd => ?_, fun hd => ?_, fun hd ok => ?_, fun hd => ?_⟩
    · rw [exec_domainRestart true up other own due ready, if_neg (by omega), if_neg (by decide), if_pos hd]
    · rw [exec_domainRestart false up other own due ready, if_neg (by omega), if_pos rfl]
    · rw [exec_domainRestart ok up other own due ready, if_pos hd]
    · obtain ⟨doms, mem, tile, rest⟩ := tile_restarts hd (setDom d.val { dom s d.val with due := false } s)
      refine ⟨_, ?_, ?_, tile, rest, mem⟩
      · rw [exec_domainRestart true up other own due ready, if_neg (by omega), if_neg (by decide), if_neg (by omega)]
      · exact congrArg Domain.due ((dom_of_doms doms _).trans (dom_setDom_same ..))
  · intro d s
    obtain ⟨good, stopped, released, core⟩ := powerReturns_of (d := d.val) (b := Config.freeFind s.free) (s := tick s)
    exact ⟨fun g => congrArg Host.Outcome.next (good g), fun g st => congrArg Host.Outcome.next (stopped g st), fun g st ne => congrArg Host.Outcome.next (released g st ne),
      fun g st eq => congrArg Host.Outcome.next (core g st eq)⟩
  · intro m v verdict b s h
    refine congrArg Host.Outcome.next ?_
    rw [onPage_of_takes _ h pageAt_devPage]
    unfold bootDoorbell
    have bad : (verdict.toNat ≠ 0) = (verdict ≠ 0) := propext (not_congr ⟨fun e => BitVec.eq_of_toNat_eq e, fun e => congrArg BitVec.toNat e⟩)
    simp only [Bool.not_eq_true', bad, Nat.mod_eq_of_lt verdict.isLt]
  · intro r s
    have gone := pcieGone_pcieResets s
    exact ⟨pcieResets s, by cases r <;> rfl, gone.link, gone.reqs, gone.msix, gone.table, gone.mem, gone.chans, gone.engines⟩
  · exact functionReset_leaves

end Sys2Proof.Machine
end

section
/-! PROOFS. The services of the management firmware, each for a slot that is taken up (O53; spec 19 R476-R478). -/

-- One theorem at a time: elaborating them in parallel takes the memory of many threads.
set_option Elab.async false

namespace Sys2Proof.Machine

/-! ### A slot that is taken up -/

/-- The state in which a slot's service begins: STATE 1, the doorbell bit cleared. -/
def takenUp (fab : Bool) (slot : Nat) (s : State) : State :=
  bankPut (firmwareMaster s) (slotBase fab slot + 0x100) [1] (clearBell fab slot { s with taken := s.taken.filter (· != ⟨fab, slot, .again⟩) })

theorem pageOnly_clearBell (fab : Bool) (slot : Nat) (s : State) : PageOnly s (clearBell fab slot s) := by
  unfold clearBell
  split
  · exact pageOnly_modReg ..
  · exact pageOnly_modReg ..

/-- Taking a slot up writes into its bank alone. -/
theorem takenUp_bank (fab : Bool) (slot : Nat) (s : State) : BankOnly { s with taken := s.taken.filter (· != ⟨fab, slot, .again⟩) } (takenUp fab slot s) :=
  (pageOnly_clearBell ..).bankOnly.trans (bankOnly_bankPut ..)

/-! ### What a completion leaves as it is -/

/-- Lifecycle, fuse and wipe, and the channels. -/
structure Secure (s t : State) : Prop where
  lifecycle : t.lifecycle = s.lifecycle
  keyFused : t.keyFused = s.keyFused
  wiping : t.wiping = s.wiping
  chans : t.chans = s.chans

theorem Secure.trans {s t u : State} (h : Secure s t) (k : Secure t u) : Secure s u :=
  ⟨k.lifecycle.trans h.lifecycle, k.keyFused.trans h.keyFused, k.wiping.trans h.wiping, k.chans.trans h.chans⟩

theorem secure_bankOnly {s t : State} (h : BankOnly s t) : Secure s t := ⟨h.lifecycle, h.keyFused, by rw [h], h.chans⟩
theorem secure_pageOnly {s t : State} (h : PageOnly s t) : Secure s t := secure_bankOnly h.bankOnly

theorem secure_modPat (f : Patina → Patina) (s : State) : Secure s (modPat f s) := ⟨rfl, rfl, rfl, rfl⟩
theorem secure_offer (code sev src : Nat) (fid : Bool) (bs : List Byte) (s : State) : Secure s (offer code sev src fid bs s) := ⟨rfl, rfl, rfl, rfl⟩

theorem secure_slotDone (fab : Bool) (slot result out0 : Nat) (s : State) : Secure s (slotDone fab slot result out0 s) := by
  have written : Secure s (slotWritten fab slot result out0 s) := secure_bankOnly (((bankOnly_bankPut ..).trans (bankOnly_bankPut ..)).trans (bankOnly_bankPut ..))
  have done : slotDone fab slot result out0 s = if fab then notice 4 slot (slotWritten fab slot result out0 s) else raiseBit pciePage 0 (slotWritten fab slot result out0 s) := rfl
  rw [done]
  generalize slotWritten fab slot result out0 s = u at written ⊢
  refine written.trans ?_
  cases fab with
  | true =>
    have side := (Sends.notice 4 slot u).side
    exact ⟨(congrArg State.lifecycle side :), (congrArg State.keyFused side :), (congrArg State.wiping side :), (congrArg State.chans side :)⟩
  | false => exact secure_pageOnly (pageOnly_raiseBit ..)

/-! ### PROGRAM_LOAD (09 R241, R248-R250) -/

section
variable {fab : Bool} {slot : Nat} {img : Image} {es : List Nat} {u : State}

theorem programLoad_outside (out : inBank (slotArg u fab slot 0) (slotArg u fab slot 1) = false) : programLoadService fab slot img u = slotDone fab slot 2 0 u := by
  unfold programLoadService
  exact if_pos (by simp [out])

variable (inside : inBank (slotArg u fab slot 0) (slotArg u fab slot 1) = true) (hes : es = img.engines.map (fun x => engKey x.eng))
include inside hes

theorem programLoad_refused {r : Nat} (h : loadRefused u img es = some r) : programLoadService fab slot img u = slotDone fab slot r 0 u := by
  subst hes
  unfold programLoadService
  dsimp only
  rw [if_neg (by simp [inside]), h]

theorem programLoad_accepted (h : loadRefused u img es = none) : programLoadService fab slot img u =
    if img.engines.all (fun x => x.bytes.all (fun b => placeable u b.1)) = false then slotDone fab slot 8 0 u
    else slotDone fab slot 0 (ftNs (forEach img.engines (forEach img.engines (loadYields img es u) (fun x s => forEach x.bytes s (fun b s => memWrite b.1 [b.2] s))) releaseEngine))
      { forEach img.engines (forEach img.engines (loadYields img es u) (fun x s => forEach x.bytes s (fun b s => memWrite b.1 [b.2] s))) releaseEngine with
        loaded := otherImages (forEach img.engines (forEach img.engines (loadYields img es u) (fun x s => forEach x.bytes s (fun b s => memWrite b.1 [b.2] s))) releaseEngine) es ++ [⟨es, img.budget⟩] } := by
  subst hes
  unfold programLoadService
  dsimp only
  rw [if_neg (by simp [inside]), h]
  simp only [Bool.not_eq_true']

end

/-- The refusals of R249, in their order. -/
theorem loadRefused_cases (u : State) (img : Image) (es : List Nat) :
    (bit (rdReg u devPage 0x700) 29 = true ∨ u.lifecycle = 3 → loadRefused u img es = some 7) ∧
    (bit (rdReg u devPage 0x700) 29 = false → u.lifecycle ≠ 3 →
      ((if img.signed then img.sigOk && u.keyFused else decide (u.lifecycle < 2)) = false → loadRefused u img es = some 3) ∧
      ((if img.signed then img.sigOk && u.keyFused else decide (u.lifecycle < 2)) = true →
        (versionsRun u img.assumed es = false → loadRefused u img es = some 4) ∧
        (versionsRun u img.assumed es = true → overBudget u img es = true → loadRefused u img es = some 5) ∧
        (versionsRun u img.assumed es = true → overBudget u img es = false → targetsBusy u img es = true → loadRefused u img es = some 6) ∧
        (versionsRun u img.assumed es = true → overBudget u img es = false → targetsBusy u img es = false → loadRefused u img es = none))) := by
  unfold loadRefused
  refine ⟨fun h => if_pos h, fun safe returned => ?_⟩
  have first : ¬ (bit (rdReg u devPage 0x700) 29 = true ∨ u.lifecycle = 3) := by simp [safe, returned]
  rw [if_neg first]
  generalize (if img.signed then img.sigOk && u.keyFused else decide (u.lifecycle < 2)) = signature
  refine ⟨fun sig => if_pos (by rw [sig]; rfl), fun sig => ?_⟩
  rw [if_neg (by rw [sig]; decide)]
  exact ⟨fun v => by simp [v], fun v b => by simp [v, b], fun v b t => by simp [v, b, t], fun v b t => by simp [v, b, t]⟩

/-! ### LIFECYCLE (18 R467) -/

/-- The change of the lifecycle starts a wipe, or finds one under way. -/
theorem wipe_starts (s : State) : (wipeCause .lifecycle s).wiping = true ∧ (wipeCause .lifecycle s).lifecycle = s.lifecycle ∧ (wipeCause .lifecycle s).keyFused = s.keyFused ∧
    (wipeCause .lifecycle s).chans = s.chans := by
  unfold wipeCause
  dsimp only
  have noted := secure_pageOnly (pageOnly_modReg memPage 0x720 (fun w => setBit w (wipeBit .lifecycle) true) s)
  generalize modReg memPage 0x720 (fun w => setBit w (wipeBit .lifecycle) true) s = v at noted ⊢
  split
  next runs => exact ⟨runs, noted.lifecycle, noted.keyFused, noted.chans⟩
  next =>
    suffices starts : ∀ w, Secure { v with power := smPut {} v.power 2 {}, wiping := true } w → w.wiping = true ∧ w.lifecycle = s.lifecycle ∧ w.keyFused = s.keyFused ∧ w.chans = s.chans from
      starts _ (((secure_pageOnly (pageOnly_raiseBit ..)).trans (secure_modPat ..)).trans (secure_offer ..))
    exact fun w k => ⟨k.wiping, k.lifecycle.trans noted.lifecycle, k.keyFused.trans noted.keyFused, k.chans.trans noted.chans⟩

theorem lifecycle_moves {fab : Bool} {slot : Nat} {x y fuse : Bool} {target : BitVec 2} {u : State} (inside : inBank (slotArg u fab slot 0) (slotArg u fab slot 1) = true)
    (still : u.chans.any (fun c => c.2.stream != .idle) = false) (next : target.toNat = u.lifecycle + 1) (signed : lifecycleSigned u target.toNat x y = true) :
    let t := lifecycleService fab slot x y target.toNat fuse u
    t.lifecycle = u.lifecycle + 1 ∧ t.keyFused = (u.keyFused || (fuse && target == 1)) ∧ t.wiping = true ∧ t.chans = u.chans := by
  have fused : ∀ b : BitVec 2, (b.toNat == 1) = (b == 1) := by decide
  have reach : ¬ (target.toNat ≠ u.lifecycle + 1 ∨ 3 < target.toNat) := by
    have := target.isLt
    omega
  unfold lifecycleService
  dsimp only
  rw [if_neg (by simp [inside]), if_neg (by simp [still]), if_neg reach, if_neg (by simp [signed])]
  have moved := wipe_starts { u with lifecycle := target.toNat, keyFused := u.keyFused || (fuse && target.toNat == 1) }
  have wipe : wipeStart .lifecycle { u with lifecycle := target.toNat, keyFused := u.keyFused || (fuse && target.toNat == 1) } =
    wipeCause .lifecycle { u with lifecycle := target.toNat, keyFused := u.keyFused || (fuse && target.toNat == 1) } := rfl
  rw [wipe]
  generalize wipeCause .lifecycle { u with lifecycle := target.toNat, keyFused := u.keyFused || (fuse && target.toNat == 1) } = v at moved ⊢
  obtain ⟨wiping, lifecycle, key, chans⟩ := moved
  have done := secure_slotDone fab slot 0 target.toNat (offer 0xB002 5 devPage false [BitVec.ofNat 8 u.lifecycle, BitVec.ofNat 8 target.toNat] v)
  exact ⟨done.lifecycle.trans (lifecycle.trans next), done.keyFused.trans (key.trans (by rw [fused])), done.wiping.trans wiping, done.chans.trans chans⟩

theorem lifecycle_refused {fab : Bool} {slot : Nat} {x y fuse : Bool} {target : BitVec 2} {u : State} :
    (inBank (slotArg u fab slot 0) (slotArg u fab slot 1) = false → lifecycleService fab slot x y target.toNat fuse u = slotDone fab slot 2 u.lifecycle u) ∧
    (inBank (slotArg u fab slot 0) (slotArg u fab slot 1) = true →
      (u.chans.any (fun c => c.2.stream != .idle) = true → lifecycleService fab slot x y target.toNat fuse u = slotDone fab slot 6 u.lifecycle u) ∧
      (u.chans.any (fun c => c.2.stream != .idle) = false →
        (target.toNat ≠ u.lifecycle + 1 → lifecycleService fab slot x y target.toNat fuse u = slotDone fab slot 7 u.lifecycle u) ∧
        (target.toNat = u.lifecycle + 1 → lifecycleSigned u target.toNat x y = false → lifecycleService fab slot x y target.toNat fuse u = slotDone fab slot 3 u.lifecycle u))) := by
  have small := target.isLt
  unfold lifecycleService
  dsimp only
  refine ⟨fun out => if_pos (by simp [out]), fun inside => ?_⟩
  rw [if_neg (by simp [inside])]
  refine ⟨fun busy => if_pos busy, fun still => ?_⟩
  rw [if_neg (by simp [still])]
  refine ⟨fun other => if_pos (.inl other), fun next unsigned => ?_⟩
  rw [if_neg (by omega)]
  exact if_pos (by simp [unsigned])

/-! ### MC, MEM_POWER, DOMAIN_RESET and TEMPER (18 R451, R460; 11 R301, R302; 17 R429) -/

theorem mcService_result {fab : Bool} {slot : Nat} {pass : Bool} {u t : State} {p op : Nat} (hp : p = slotArg u fab slot 0 % 2) (ho : op = slotArg u fab slot 0 / 2 % 8)
    (ht : t = mcCmd p op (firmwareMaster u) pass u) : mcService fab slot pass u = slotDone fab slot
      (if op = 0 ∨ 3 < op then 2 else if (op = 1 ∧ role u p = 2 ∧ role u (1 - p) = 1) ∨ (op = 2 ∧ role u p = 3 ∧ pass = true) ∨ (op = 3 ∧ role u p = 2) then 0 else 8)
      (rdReg t (mcPage p) 0x700).toNat t := by
  subst ht hp ho
  unfold mcService
  simp only [Bool.or_eq_true, Bool.and_eq_true, beq_iff_eq, or_assoc, and_assoc]

theorem range_any (n : Nat) (p : Nat → Bool) : (List.range n).any p = true ↔ ∃ i, i < n ∧ p i = true := by
  simp only [List.any_eq_true, List.mem_range]

theorem memPower_cases {fab : Bool} {slot a0 : Nat} {v : Word} {u : State} (ha : a0 = slotArg u fab slot 0) (hv : v = w32 (slotArg u fab slot 1)) :
    (a0 < 0x700 ∨ 0x714 < a0 ∨ a0 % 4 ≠ 0 ∨ (∃ i, i < (pwrFields a0).1 ∧ fld v (2 * i + 1) (2 * i) = 3) → memPowerService fab slot u = slotDone fab slot 2 0 u) ∧
    (0x700 ≤ a0 → a0 ≤ 0x714 → a0 % 4 = 0 → (∀ i, i < (pwrFields a0).1 → fld v (2 * i + 1) (2 * i) ≠ 3) → ∀ t, t = pwrApply a0 (firmwareMaster u) v u →
      memPowerService fab slot u = if pwrAnyRefused u a0 v then slotDone fab slot 6 (pwrRead t a0).toNat t
        else if pwrMoving t a0 then slotWaits fab slot (.power a0) t else slotDone fab slot 0 (pwrRead t a0).toNat t) := by
  have reserved : (List.range (pwrFields a0).1).any (fun i => fld v (2 * i + 1) (2 * i) == 3) = true ↔ ∃ i, i < (pwrFields a0).1 ∧ fld v (2 * i + 1) (2 * i) = 3 := by
    rw [range_any]
    simp only [beq_iff_eq]
  unfold memPowerService
  rw [← ha, ← hv]
  dsimp only
  refine ⟨fun bad => if_pos (bad.imp_right (.imp_right (.imp_right reserved.2))), fun lo hi aligned fits t ht => ?_⟩
  have legal : ¬ (a0 < 0x700 ∨ 0x714 < a0 ∨ a0 % 4 ≠ 0 ∨ (List.range (pwrFields a0).1).any (fun i => fld v (2 * i + 1) (2 * i) == 3) = true) := by
    rintro (h | h | h | h)
    · omega
    · omega
    · exact h aligned
    · obtain ⟨i, small, e⟩ := reserved.1 h
      exact fits i small e
  rw [if_neg legal, ← ht]

theorem domainService_cases {fab : Bool} {slot : Nat} {v : Word} {u : State} (hv : v = w32 (slotArg u fab slot 0)) :
    ((bit v 15 = true ∧ fld v 31 16 ≠ 0x5A17) ∨ 14 ≤ fld v 3 0 → domainService fab slot u = slotDone fab slot 2 (inrst u) u) ∧
    (fld v 3 0 < 14 → (bit v 15 = true ∧ fld v 31 16 = 0x5A17) ∨ (bit v 15 = false ∧ fld v 3 0 = 8) →
      domainService fab slot u = rstCmdWrite (firmwareMaster u) v (Config.freeFind u.free) (tick (slotDone fab slot 0 (inrst u) u))) ∧
    (bit v 15 = false → fld v 3 0 < 14 → fld v 3 0 ≠ 8 → ∀ t, t = rstCmdWrite (firmwareMaster u) v (Config.freeFind u.free) u → domainService fab slot u = slotDone fab slot 0 (inrst t) t) := by
  unfold domainService
  rw [← hv]
  dsimp only
  refine ⟨fun bad => if_pos bad, fun small later => ?_, fun clear small other t ht => ?_⟩
  · rcases later with ⟨dev, key⟩ | ⟨clear, core⟩
    · rw [if_neg (by rintro (h | h); exacts [h.2 key, absurd small (by omega)])]
      exact if_pos (.inl dev)
    · rw [if_neg (by rintro (h | h); exacts [absurd (clear.symm.trans h.1) (by decide), absurd small (by omega)])]
      exact if_pos (.inr core)
  · rw [if_neg (by rintro (h | h); exacts [absurd (clear.symm.trans h.1) (by decide), absurd small (by omega)]),
      if_neg (by rintro (h | h); exacts [absurd (clear.symm.trans h) (by decide), other h]), ht]

/-- Equal fields have equal bits. -/
theorem bit_of_fld {w v : Word} {hi lo : Nat} (h : fld w hi lo = fld v hi lo) {i : Nat} (ge : lo ≤ i) (le : i ≤ hi) : w.getLsbD i = v.getLsbD i := by
  have bits (x : Word) : x.getLsbD i = (fld x hi lo).testBit (i - lo) := by
    unfold fld
    rw [Nat.testBit_mod_two_pow, Nat.testBit_div_two_pow, Nat.sub_add_cancel ge]
    have inside : i - lo < hi + 1 - lo := by omega
    rw [decide_eq_true inside, Bool.true_and]
    rfl
  rw [bits, bits, h]

/-- Bits 31 and 4:0 of a word, by its fields. -/
theorem testBits_eq {w v : Word} (high : fld w 31 31 = fld v 31 31) (low : fld w 4 0 = fld v 4 0) : (w &&& 0x8000001F) = (v &&& 0x8000001F) := by
  refine BitVec.eq_of_getLsbD_eq fun i hi => ?_
  rw [BitVec.getLsbD_and, BitVec.getLsbD_and]
  by_cases small : i ≤ 4
  · rw [bit_of_fld low (Nat.zero_le i) small]
  by_cases top : i = 31
  · rw [bit_of_fld high (le_of_eq top.symm) (le_of_eq top)]
  · have masked : (0x8000001F : Word).getLsbD i = false := by
      have others : ∀ j : Fin 32, 4 < j.val → j.val ≠ 31 → (0x8000001F : Word).getLsbD j.val = false := by decide
      have above : 4 < i := by omega
      exact others ⟨i, hi⟩ above top
    rw [masked, Bool.and_false, Bool.and_false]

theorem temper_fields : findReg (regsOf .temper) 0x700 = some ⟨0x700, 4, 1, false, [⟨31, 31, .rw, 0x1, .all⟩, ⟨4, 0, .rw, 0x1F, .all⟩]⟩ := by decide

/-- TP_CTL takes every value. -/
theorem temper_takes (m : Master) (v : Word) (s : State) : plainWrite temperPage 0x700 m [⟨31, 31, .rw, 0x1, .all⟩, ⟨4, 0, .rw, 0x1F, .all⟩] v s =
    wrReg temperPage 0x700 (written .temper 0x700 (rdReg s temperPage 0x700) v) s := by
  have legal : woInvalid [⟨31, 31, .rw, 0x1, .all⟩, ⟨4, 0, .rw, 0x1F, .all⟩] v = false := rfl
  have valid : wordValid [⟨31, 31, .rw, 0x1, .all⟩, ⟨4, 0, .rw, 0x1F, .all⟩] v = true := rfl
  have plain := plainWrite_eq (page := temperPage) m v s temper_fields
  rw [legal, valid, if_neg Bool.false_ne_true, if_pos rfl] at plain
  exact plain

theorem temperService_eq (fab : Bool) (slot : Nat) (u : State) : temperService fab slot u =
    slotDone fab slot 0 (rdReg (plainWrite temperPage 0x700 (firmwareMaster u) [⟨31, 31, .rw, 0x1, .all⟩, ⟨4, 0, .rw, 0x1F, .all⟩] (w32 (slotArg u fab slot 0)) u) temperPage 0x700).toNat
      (plainWrite temperPage 0x700 (firmwareMaster u) [⟨31, 31, .rw, 0x1, .all⟩, ⟨4, 0, .rw, 0x1F, .all⟩] (w32 (slotArg u fab slot 0)) u) := by
  unfold temperService
  rw [temper_fields]
  simp only [Option.elim]

theorem temperService_writes (fab : Bool) (slot : Nat) (u : State) : ∃ t w, temperService fab slot u = slotDone fab slot 0 w.toNat t ∧ w = rdReg t temperPage 0x700 ∧
    (w &&& 0x8000001F) = (w32 (slotArg u fab slot 0) &&& 0x8000001F) ∧ t.mem = u.mem ∧ t.chans = u.chans := by
  have service := temperService_eq fab slot u
  have takes := temper_takes (firmwareMaster u) (w32 (slotArg u fab slot 0)) u
  generalize plainWrite temperPage 0x700 (firmwareMaster u) [⟨31, 31, .rw, 0x1, .all⟩, ⟨4, 0, .rw, 0x1F, .all⟩] (w32 (slotArg u fab slot 0)) u = t at service takes
  have only : PageOnly u t := takes ▸ pageOnly_wrReg ..
  refine ⟨t, rdReg t temperPage 0x700, service, rfl, ?_, only.mem_eq, only.chans_eq⟩
  rw [takes, rdReg_wrReg_same]
  exact testBits_eq (fld_written (rdReg u temperPage 0x700) _ temper_fields (f := ⟨31, 31, .rw, 0x1, .all⟩) (by decide))
    (fld_written (rdReg u temperPage 0x700) _ temper_fields (f := ⟨4, 0, .rw, 0x1F, .all⟩) (by decide))

end Sys2Proof.Machine
end

section
/-! PROOFS. The steps of an update: what a journal step, a word of the control area, the close of a journal and a completion leave as they are (spec 18 R457, R458). -/

-- One theorem at a time: elaborating them in parallel takes the memory of many threads.
set_option Elab.async false

namespace Sys2Proof.Machine

/-! ### What an update leaves as it is -/

/-- Pages whose status an update judges: DEV, the management pairs and the tiles' calibration. -/
def Judged (p : Nat) : Prop := p = 0 ∨ p = 8 ∨ p = 9 ∨ ∃ t, t < 8 ∧ p = 0x243 + 0x100 * t

theorem Judged.small {p : Nat} (h : Judged p) : p * 4096 + 0x700 < 67108864 := by
  unfold Judged at h
  omega

/-- Channels, domains, memory power, the slots that wait and the status that an update judges. -/
structure Aside (s t : State) : Prop where
  chans : t.chans = s.chans
  doms : t.doms = s.doms
  power : t.power = s.power
  taken : t.taken = s.taken
  judged : ∀ p, Judged p → rdReg t p 0x700 = rdReg s p 0x700

theorem Aside.refl (s : State) : Aside s s := ⟨rfl, rfl, rfl, rfl, fun _ _ => rfl⟩

theorem Aside.trans {s t u : State} (h : Aside s t) (k : Aside t u) : Aside s u :=
  ⟨k.chans.trans h.chans, k.doms.trans h.doms, k.power.trans h.power, k.taken.trans h.taken, fun p hp => (k.judged p hp).trans (h.judged p hp)⟩

theorem Aside.up {s t : State} (h : Aside s t) (d : Nat) : domLost t d = domLost s d := domLost_of_doms h.doms d

theorem Aside.role {s t : State} (h : Aside s t) {p : Nat} (hp : p < 2) : role t p = Sys2Proof.Machine.role s p := by
  have page : Judged (mcPage p) := by
    have at_ : mcPage p = 8 + p := rfl
    unfold Judged
    omega
  unfold Machine.role
  rw [h.judged _ page]

/-- The rest of an update's page and its journal stay as well. -/
structure Calm (s t : State) : Prop extends Aside s t where
  journal : t.journal = s.journal
  upd : ∀ o, 0x700 ≤ o → o < 0x738 → rdReg t updPage o = rdReg s updPage o

theorem Calm.refl (s : State) : Calm s s := ⟨.refl s, rfl, fun _ _ _ => rfl⟩
theorem Calm.trans {s t u : State} (h : Calm s t) (k : Calm t u) : Calm s u :=
  ⟨h.toAside.trans k.toAside, k.journal.trans h.journal, fun o lo hi => (k.upd o lo hi).trans (h.upd o lo hi)⟩

/-- The page of updates is no page that an update judges. -/
theorem Judged.ne_upd {p : Nat} (h : Judged p) : p ≠ 0xC := by
  unfold Judged at h
  omega

theorem bankable_high {o : Nat} (h : 0x700 ≤ o) : bankable o = false := by
  unfold bankable
  simp only [Bool.and_eq_false_iff, decide_eq_false_iff_not]
  omega

/-- An interrupt raised on any page changes no register from 0x700 on. -/
theorem rdReg_raiseBit_high (p i : Nat) {q o : Nat} (lo : 0x700 ≤ o) (hi : o < 4096) (small : q * 4096 + o < 67108864) (s : State) : rdReg (raiseBit p i s) q o = rdReg s q o := by
  have apart_ : p * 4096 + 0x010 ≠ q * 4096 + o := by omega
  unfold raiseBit raise
  rw [rdReg_noteIrq]
  exact rdReg_wrRole_apart (bankable_high lo) apart_ small ..

theorem calm_raiseBit (p i : Nat) (s : State) : Calm s (raiseBit p i s) := by
  have only := pageOnly_raiseBit p i s
  refine ⟨⟨only.chans_eq, only.doms_eq, only.power_eq, only.taken_eq, fun q hq => rdReg_raiseBit_high p i (by decide) (by decide) hq.small s⟩, only.journal_eq, fun o lo hi => ?_⟩
  exact rdReg_raiseBit_high p i lo (by omega) (by have at_ : updPage = 0xC := rfl; omega) s

/-- A write of a register that is neither judged nor of the page of updates. -/
theorem calm_wrReg {p o : Nat} (other : ∀ q, Judged q ∨ q = 0xC → ∀ r, 0x700 ≤ r → r < 0x738 → p * 4096 + o ≠ q * 4096 + r) (v : Word) (s : State) : Calm s (wrReg p o v s) := by
  refine ⟨⟨rfl, rfl, rfl, rfl, fun q hq => ?_⟩, rfl, fun r lo hi => ?_⟩
  · exact rdReg_wrRole_apart (bankable_high (by decide)) (other q (.inl hq) 0x700 (by decide) (by decide)) hq.small ..
  · have at_ : updPage = 0xC := rfl
    exact rdReg_wrRole_apart (bankable_high lo) (other updPage (.inr at_) r lo hi) (by omega) ..

/-- A register of the page of updates: what else it changes is nothing. -/
theorem aside_wrUpd (o : Nat) (ho : o < 4096) (v : Word) (s : State) : Aside s (wrReg updPage o v s) := by
  refine ⟨rfl, rfl, rfl, rfl, fun q hq => rdReg_wrRole_apart (bankable_high (by decide)) ?_ hq.small ..⟩
  have at_ : updPage = 0xC := rfl
  have ne := hq.ne_upd
  omega

/-! ### Writes of the firmware -/

/-- The state t is s but for memory and what a memory write takes along. -/
def StoreOnly (s t : State) : Prop := t = { s with mem := t.mem, engines := t.engines, stale := t.stale, mramLines := t.mramLines, mramGap := t.mramGap }

theorem StoreOnly.trans {s t u : State} (h : StoreOnly s t) (k : StoreOnly t u) : StoreOnly s u := by
  unfold StoreOnly at *
  rw [k, h]

theorem storeOnly_setBytes (bs : List Byte) : ∀ (k : Nat) (s : State), StoreOnly s (setBytes k bs s) := by
  induction bs with
  | nil => exact fun _ _ => rfl
  | cons b bs ih => exact fun k s => StoreOnly.trans (t := setByte k b s) rfl (ih (k + 1) _)

theorem storeOnly_targetWrite (x : Target) (a : Nat) (bs : List Byte) (s : State) : StoreOnly s (targetWrite x a bs s) := by
  have resv (k n : Nat) (s : State) : StoreOnly s (clearResv k n s) := forEach_inv (P := StoreOnly s) rfl fun _ _ h => h.trans rfl
  have stale (k n : Nat) : StoreOnly s (keepStale x k n s) := by
    unfold keepStale
    split
    · exact forUpTo_inv (P := StoreOnly s) rfl fun _ _ h => h.trans rfl
    · rfl
  exact ((stale ..).trans (resv ..)).trans (storeOnly_setBytes ..)

theorem storeOnly_portWrite (x : Target) (a : Nat) (bs : List Byte) (s : State) : StoreOnly s (portWrite x a bs s) := by
  unfold portWrite
  split
  · exact (storeOnly_targetWrite ..).trans rfl
  · exact storeOnly_targetWrite ..

theorem rdReg_storeOnly {s t : State} (h : StoreOnly s t) (p o : Nat) : rdReg t p o = rdReg s p o := by
  rw [h]
  rfl

theorem calm_storeOnly {s t : State} (h : StoreOnly s t) : Calm s t :=
  ⟨⟨by rw [h], by rw [h], by rw [h], by rw [h], fun p _ => rdReg_storeOnly h p _⟩, by rw [h], fun o _ _ => rdReg_storeOnly h _ o⟩

theorem calm_mxError (m : Master) (a kind : Nat) (s : State) : Calm s (mxError m a kind s) := by
  have other (o : Nat) (ho : o < 4096) : ∀ q, Judged q ∨ q = 0xC → ∀ r, 0x700 ≤ r → r < 0x738 → mxPage * 4096 + o ≠ q * 4096 + r := by
    have at_ : mxPage = 0x10 := rfl
    unfold Judged
    omega
  have raised := calm_raiseBit mxPage 0 s
  unfold mxError
  generalize raiseBit mxPage 0 s = u at raised ⊢
  dsimp only
  split
  · exact raised
  · exact ((raised.trans (calm_wrReg (other _ (by decide)) ..)).trans (calm_wrReg (other _ (by decide)) ..)).trans (calm_wrReg (other _ (by decide)) ..)

theorem calm_bankPut (m : Master) (a : Nat) (bs : List Byte) (s : State) : Calm s (bankPut m a bs s) := by
  unfold bankPut
  split
  · exact calm_storeOnly (storeOnly_portWrite ..)
  · exact calm_mxError ..

theorem calm_linePut (a : Nat) (v : Word) (s : State) : Calm s (linePut a v s) := calm_bankPut ..
theorem calm_setSlots (f : Word → Word) (s : State) : Calm s (setSlots f s) := calm_linePut ..
theorem calm_markSlot (k : Nat) (bad : Bool) (s : State) : Calm s (markSlot k bad s) := calm_linePut ..

theorem calm_tongsCopy (src dst n : Nat) (s : State) : Calm s (tongsCopy src dst n s) := by
  have copied : StoreOnly s (copyRange src dst n s) := forEach_inv (P := StoreOnly s) rfl fun _ _ h => h.trans rfl
  unfold tongsCopy
  generalize copyRange src dst n s = u at copied ⊢
  exact calm_storeOnly (copied.trans rfl)

/-! ### Journal steps -/

/-- The open journal is the given one, but for the number of the update and of its next line. -/
def JournalIs (s : State) (j : Journal) : Prop := ∃ number line, s.journal = some { j with number := number, line := line }

/-- The journal that a step commits. -/
def steppedJournal (j : Journal) (s : State) : Journal :=
  match s.journal with
  | some x => { j with number := x.number, line := x.line }
  | none => { j with number := nextUpdate s, line := 0 }

/-- The state of a journal step before UP_STAT shows it. -/
def stepNoted (j : Journal) (s : State) : State :=
  raiseBit updPage 0 { putJournal (steppedJournal j s) (steppedJournal j s).step s with journal := some { steppedJournal j s with line := (steppedJournal j s).line + 1 } }

theorem noteStep_eq (j : Journal) (s : State) : noteStep j s =
    wrReg updPage 0x700 (upStat true (steppedJournal j s).step (steppedJournal j s).comp (steppedJournal j s).slotB 0 (steppedJournal j s).chunks) (stepNoted j s) := by
  unfold noteStep stepNoted steppedJournal
  cases s.journal with
  | none => dsimp only
  | some x => dsimp only

theorem steppedJournal_is (j : Journal) (s : State) : ∃ number line, steppedJournal j s = { j with number := number, line := line } := by
  unfold steppedJournal
  split
  · exact ⟨_, _, rfl⟩
  · exact ⟨_, _, rfl⟩

theorem noteStep_stat (j : Journal) (s : State) : rdReg (noteStep j s) updPage 0x700 = upStat true j.step j.comp j.slotB 0 j.chunks := by
  obtain ⟨number, line, is⟩ := steppedJournal_is j s
  rw [noteStep_eq, rdReg_wrReg_same, is]

theorem noteStep_journal (j : Journal) (s : State) : (noteStep j s).journal = some { steppedJournal j s with line := (steppedJournal j s).line + 1 } := by
  rw [noteStep_eq]
  exact (pageOnly_wrReg ..).journal_eq.trans (pageOnly_raiseBit ..).journal_eq

theorem journalIs_noteStep (j : Journal) (s : State) : JournalIs (noteStep j s) j := by
  obtain ⟨number, line, is⟩ := steppedJournal_is j s
  refine ⟨number, line + 1, ?_⟩
  rw [noteStep_journal, is]

theorem calm_putJournal (j : Journal) (step : Nat) (s : State) : Calm s (putJournal j step s) := calm_bankPut ..

theorem aside_noteStep (j : Journal) (s : State) : Aside s (noteStep j s) := by
  have put := (calm_putJournal (steppedJournal j s) (steppedJournal j s).step s).toAside
  rw [noteStep_eq]
  unfold stepNoted
  generalize putJournal (steppedJournal j s) (steppedJournal j s).step s = u at put ⊢
  have journaled (x : Option Journal) : Aside u { u with journal := x } := ⟨rfl, rfl, rfl, rfl, fun _ _ => rfl⟩
  exact ((put.trans (journaled _)).trans (calm_raiseBit ..).toAside).trans (aside_wrUpd _ (by decide) ..)

/-! ### Bytes of the slots and words of the control area -/

/-- The bytes of the image slots: MRAM but for the control and journal areas and the line of marks. -/
def Slotted (x : Nat) : Prop := 0x2000000 ≤ x ∧ x < 0x2800000 ∧ (x < 0x2400000 ∨ 0x2440000 ≤ x)

/-- No byte of an image slot changes. -/
def SlotsStay (s t : State) : Prop := ∀ x, Slotted x → memByte t x = memByte s x

theorem SlotsStay.trans {s t u : State} (h : SlotsStay s t) (k : SlotsStay t u) : SlotsStay s u := fun x hx => (k x hx).trans (h x hx)
theorem slotsStay_of_mem {s t : State} (h : t.mem = s.mem) : SlotsStay s t := fun x _ => memByte_of_mem h x

section
variable {s : State} (up : domLost s 8 = false)
include up

theorem slotsStay_noteStep (j : Journal) : SlotsStay s (noteStep j s) := fun x hx => memByte_noteStep up j (by unfold Slotted at hx; omega)

theorem slotsStay_linePut {a : Nat} (lo : 0x2400000 ≤ a) (hi : a + 4 ≤ 0x2440000) (v : Word) : SlotsStay s (linePut a v s) := by
  intro x hx
  unfold Slotted at hx
  unfold linePut
  rw [memByte_mramPut (by omega) up, length_leBytes, if_neg (by omega)]

theorem slotsStay_setSlots (f : Word → Word) : SlotsStay s (setSlots f s) := slotsStay_linePut up (by decide) (by decide) _
theorem slotsStay_markSlot (k : Nat) (bad : Bool) : SlotsStay s (markSlot k bad s) := slotsStay_linePut up (by decide) (by decide) _

theorem slotsStay_putJournal (j : Journal) (step : Nat) : SlotsStay s (putJournal j step s) := fun x hx => memByte_putJournal up j step (by unfold Slotted at hx; omega)

theorem upSlots_noteStep (j : Journal) : upSlots (noteStep j s) = upSlots s :=
  mramWord_congr fun x lo hi => memByte_noteStep up j (.inl (lt_of_lt_of_le hi (by decide)))

theorem upSlots_putJournal (j : Journal) (step : Nat) : upSlots (putJournal j step s) = upSlots s :=
  mramWord_congr fun x lo hi => memByte_putJournal up j step (.inl (lt_of_lt_of_le hi (by decide)))

theorem upSlots_setSlots (f : Word → Word) : upSlots (setSlots f s) = f (upSlots s) := mramWord_linePut ⟨by decide, by decide⟩ up _

theorem upSlots_linePut {a : Nat} (lo : comboLine + 4 ≤ a) (hi : a + 4 ≤ 0x2800000) (v : Word) : upSlots (linePut a v s) = upSlots s :=
  mramWord_linePut_ne ⟨le_trans (by decide) lo, hi⟩ up v (.inl lo)

end

theorem upSlots_of_mem {s t : State} (h : t.mem = s.mem) : upSlots t = upSlots s := mramWord_of_mem h _

/-! ### The end of a journal -/

theorem calm_countReg {p o : Nat} (other : ∀ q, Judged q ∨ q = 0xC → ∀ r, 0x700 ≤ r → r < 0x738 → p * 4096 + o ≠ q * 4096 + r) (n : Nat) (s : State) : Calm s (countReg p o n s) :=
  calm_wrReg other ..

theorem patPage_apart (o : Nat) (ho : o < 4096) : ∀ q, Judged q ∨ q = 0xC → ∀ r, 0x700 ≤ r → r < 0x738 → patPage * 4096 + o ≠ q * 4096 + r := by
  have at_ : patPage = 0x21 := rfl
  unfold Judged
  omega

theorem calm_modPat (f : Patina → Patina) (s : State) : Calm s (modPat f s) := ⟨⟨rfl, rfl, rfl, rfl, fun _ _ => rfl⟩, rfl, fun _ _ _ => rfl⟩
theorem calm_report (x : Report) (s : State) : Calm s (report x s) := ⟨⟨rfl, rfl, rfl, rfl, fun _ _ => rfl⟩, rfl, fun _ _ _ => rfl⟩
theorem calm_offer (code sev src : Nat) (fid : Bool) (bs : List Byte) (s : State) : Calm s (offer code sev src fid bs s) :=
  ⟨⟨rfl, rfl, rfl, rfl, fun _ _ => rfl⟩, rfl, fun _ _ _ => rfl⟩

theorem calm_noteIrq (p : Nat) (s : State) : Calm s (noteIrq p s) := by
  have only := pageOnly_noteIrq p s
  exact ⟨⟨only.chans_eq, only.doms_eq, only.power_eq, only.taken_eq, fun q _ => rdReg_noteIrq ..⟩, only.journal_eq, fun o _ _ => rdReg_noteIrq ..⟩

theorem calm_rejectWrite_pat (o : Nat) (m : Master) (s : State) : Calm s (rejectWrite patPage o m s) := by
  have raised : Calm s (raiseReject patPage s) := by
    unfold raiseReject
    repeat' split
    · exact calm_raiseBit ..
    · exact .refl s
    · exact .refl s
  unfold rejectWrite capture captureAs captureOnly
  generalize raiseReject patPage s = u at raised ⊢
  exact raised.trans (((calm_wrReg (patPage_apart _ (by decide)) ..).trans (calm_noteIrq ..)).trans (calm_report ..))

theorem mem_rejectWrite (p o : Nat) (m : Master) (s : State) : (rejectWrite p o m s).mem = s.mem := (pageOnly_rejectWrite ..).mem_eq

theorem calm_enqueueEvent (ev : PatEvent) (mayWait : Bool) (s : State) : Calm s (enqueueEvent ev mayWait s) ∧ (enqueueEvent ev mayWait s).mem = s.mem := by
  unfold enqueueEvent
  repeat' split
  · exact ⟨calm_modPat .., rfl⟩
  · exact ⟨calm_modPat .., rfl⟩
  · exact ⟨(calm_modPat ..).trans (calm_countReg (patPage_apart _ (by decide)) ..), rfl⟩

theorem calm_submitEvent (code sev src : Nat) (bs : List Byte) (s : State) : Calm s (submitEvent code sev src bs s) ∧ (submitEvent code sev src bs s).mem = s.mem := by
  unfold submitEvent intakeEvent suppress
  dsimp only
  repeat' split
  · exact ⟨calm_rejectWrite_pat .., mem_rejectWrite ..⟩
  · exact ⟨.refl s, rfl⟩
  · exact calm_enqueueEvent ..
  · exact calm_enqueueEvent ..
  · exact ⟨(calm_modPat ..).trans (calm_countReg (patPage_apart _ (by decide)) ..), rfl⟩
  · obtain ⟨calm, mem⟩ := calm_enqueueEvent (patEvent code sev src false bs) true (setBucket (patEvent code sev src false bs).code.toNat
      { bucket s (patEvent code sev src false bs).code.toNat with level := (bucket s (patEvent code sev src false bs).code.toNat).level - 1 } s)
    exact ⟨(calm_modPat ..).trans calm, mem⟩

theorem calm_closeLine (s : State) : Aside s (closeLine s) ∧ (∀ o, 0x700 ≤ o → o < 0x738 → rdReg (closeLine s) updPage o = rdReg s updPage o) ∧ (closeLine s).journal = none := by
  unfold closeLine
  split
  next x _ =>
    have put := calm_putJournal x 0 s
    generalize putJournal x 0 s = u at put ⊢
    exact ⟨put.toAside.trans ⟨rfl, rfl, rfl, rfl, fun _ _ => rfl⟩, fun o lo hi => Eq.trans rfl (put.upd o lo hi), rfl⟩
  next closed => exact ⟨.refl s, fun _ _ _ => rfl, closed⟩

theorem bytes_closeLine {s : State} (up : domLost s 8 = false) : SlotsStay s (closeLine s) ∧ upSlots (closeLine s) = upSlots s := by
  unfold closeLine
  split
  next x _ =>
    have mem : ({ putJournal x 0 s with journal := none } : State).mem = (putJournal x 0 s).mem := rfl
    exact ⟨(slotsStay_putJournal up x 0).trans (slotsStay_of_mem mem), (upSlots_of_mem mem).trans (upSlots_putJournal up x 0)⟩
  next => exact ⟨fun _ _ => rfl, rfl⟩

/-- A journal that is over, its slot pending no more. -/
def pendingOver (j : Journal) (s : State) : State := setSlots (fun w => setBit w (8 + j.comp) false) (closeLine s)

/-- The committed slot and its version, and the components activated. -/
def committed (j : Journal) (s : State) : State :=
  noteActivated j.comp (wrReg updPage (0x710 + 4 * j.comp) j.manifest.version (setSlots (fun w => setBit w j.comp j.slotB) s))

/-- The outcome in UP_STAT, its interrupt and its event. -/
def outcomeTold (j : Journal) (res : Nat) (s : State) : State :=
  submitEvent 0x9002 1 updPage ([BitVec.ofNat 8 j.comp, BitVec.ofNat 8 res, 0, 0] ++ leBytes 4 j.manifest.version.toNat)
    (raiseBit updPage (if res = 3 then 2 else 1) (wrReg updPage 0x700 (upStat false j.step j.comp j.slotB res j.chunks) s))

theorem closeJournal_other {j : Journal} {res : Nat} (step : 1 < j.step) (other : res ≠ 1) (s : State) : closeJournal j res s = outcomeTold j res (pendingOver j s) := by
  unfold closeJournal outcomeTold pendingOver
  have late : ¬ j.step ≤ 1 := Nat.not_le.2 step
  simp only [late, other, if_false]

theorem closeJournal_commits {j : Journal} (step : 1 < j.step) (comp : j.comp ≠ 0) (s : State) : closeJournal j 1 s = outcomeTold j 1 (committed j (pendingOver j s)) := by
  unfold closeJournal outcomeTold committed pendingOver
  have late : ¬ j.step ≤ 1 := Nat.not_le.2 step
  simp only [late, comp, if_false, if_true]

/-- What the close of a journal leaves, and what it shows. -/
structure Closes (s t : State) (stat : Word) : Prop where
  aside : Aside s t
  journal : t.journal = none
  stat : rdReg t updPage 0x700 = stat
  slots : SlotsStay s t

theorem outcomeTold_shows (j : Journal) (res : Nat) (s : State) : Aside s (outcomeTold j res s) ∧ (outcomeTold j res s).journal = s.journal ∧ (outcomeTold j res s).mem = s.mem ∧
    rdReg (outcomeTold j res s) updPage 0x700 = upStat false j.step j.comp j.slotB res j.chunks ∧ ∀ comp, comp ≤ 5 → upVer (outcomeTold j res s) comp = upVer s comp := by
  have shown := aside_wrUpd 0x700 (by decide) (upStat false j.step j.comp j.slotB res j.chunks) s
  have stat : rdReg (wrReg updPage 0x700 (upStat false j.step j.comp j.slotB res j.chunks) s) updPage 0x700 = _ := rdReg_wrReg_same ..
  have version (comp : Nat) (small : comp ≤ 5) : upVer (wrReg updPage 0x700 (upStat false j.step j.comp j.slotB res j.chunks) s) comp = upVer s comp := by
    have at_ : updPage = 0xC := rfl
    exact rdReg_wrRole_apart (bankable_high (by omega)) (by omega) (by omega) ..
  have only := pageOnly_wrReg updPage 0x700 (upStat false j.step j.comp j.slotB res j.chunks) s
  unfold outcomeTold
  generalize wrReg updPage 0x700 (upStat false j.step j.comp j.slotB res j.chunks) s = u at shown stat version only ⊢
  have raised := calm_raiseBit updPage (if res = 3 then 2 else 1) u
  have raisedOnly := pageOnly_raiseBit updPage (if res = 3 then 2 else 1) u
  generalize raiseBit updPage (if res = 3 then 2 else 1) u = v at raised raisedOnly ⊢
  obtain ⟨told, mem⟩ := calm_submitEvent 0x9002 1 updPage ([BitVec.ofNat 8 j.comp, BitVec.ofNat 8 res, 0, 0] ++ leBytes 4 j.manifest.version.toNat) v
  have calm := raised.trans told
  exact ⟨shown.trans calm.toAside, calm.journal.trans only.journal_eq, mem.trans (raisedOnly.mem_eq.trans only.mem_eq), (calm.upd 0x700 (by decide) (by decide)).trans stat,
    fun comp small => (calm.upd (0x710 + 4 * comp) (by omega) (by omega)).trans (version comp small)⟩

section
variable {j : Journal} {s : State} (up : domLost s 8 = false)
include up

theorem pendingOver_leaves : Aside s (pendingOver j s) ∧ (pendingOver j s).journal = none ∧ SlotsStay s (pendingOver j s) ∧ upSlots (pendingOver j s) = setBit (upSlots s) (8 + j.comp) false := by
  obtain ⟨aside, -, journal⟩ := calm_closeLine s
  obtain ⟨stay, slots⟩ := bytes_closeLine up
  unfold pendingOver
  generalize closeLine s = u at aside journal stay slots ⊢
  have upU : domLost u 8 = false := (aside.up 8).trans up
  have put := calm_setSlots (fun w => setBit w (8 + j.comp) false) u
  exact ⟨aside.trans put.toAside, put.journal.trans journal, stay.trans (slotsStay_setSlots upU _), by rw [upSlots_setSlots upU, slots]⟩

theorem committed_leaves (small : j.comp ≤ 5) : Aside s (committed j s) ∧ (committed j s).journal = s.journal ∧ SlotsStay s (committed j s) ∧
    upSlots (committed j s) = setBit (upSlots s) j.comp j.slotB ∧ upVer (committed j s) j.comp = j.manifest.version := by
  have put := calm_setSlots (fun w => setBit w j.comp j.slotB) s
  have stay := slotsStay_setSlots up (fun w => setBit w j.comp j.slotB)
  have slots := upSlots_setSlots up (fun w => setBit w j.comp j.slotB)
  unfold committed noteActivated
  generalize setSlots (fun w => setBit w j.comp j.slotB) s = u at put stay slots ⊢
  have upU : domLost u 8 = false := (put.up 8).trans up
  have written := aside_wrUpd (0x710 + 4 * j.comp) (by omega) j.manifest.version u
  have only := pageOnly_wrReg updPage (0x710 + 4 * j.comp) j.manifest.version u
  have version : upVer (wrReg updPage (0x710 + 4 * j.comp) j.manifest.version u) j.comp = j.manifest.version := rdReg_wrReg_same ..
  generalize wrReg updPage (0x710 + 4 * j.comp) j.manifest.version u = v at written only version ⊢
  have upV : domLost v 8 = false := (written.up 8).trans upU
  dsimp only
  have noted := calm_linePut (comboLine + 4) (w32 (forUpTo 8 0 (fun i n => n + (match (j.comp :: (activated v).filter (· != j.comp))[i]? with | some c => c + 1 | none => 0) * 16 ^ i))) v
  refine ⟨(put.toAside.trans written).trans noted.toAside, noted.journal.trans (only.journal_eq.trans put.journal),
    (stay.trans (slotsStay_of_mem only.mem_eq)).trans (slotsStay_linePut upV (by decide) (by decide) _), ?_, (noted.upd (0x710 + 4 * j.comp) (by omega) (by omega)).trans version⟩
  exact (upSlots_linePut upV le_rfl (by decide) _).trans ((upSlots_of_mem only.mem_eq).trans slots)

/-- A journal that closes without a commit. -/
theorem closeJournal_leaves {res : Nat} (step : 1 < j.step) (other : res ≠ 1) : Closes s (closeJournal j res s) (upStat false j.step j.comp j.slotB res j.chunks) ∧
    upSlots (closeJournal j res s) = setBit (upSlots s) (8 + j.comp) false := by
  obtain ⟨aside, journal, stay, slots⟩ := pendingOver_leaves (j := j) up
  rw [closeJournal_other step other]
  generalize pendingOver j s = u at aside journal stay slots ⊢
  obtain ⟨told, kept, mem, stat, -⟩ := outcomeTold_shows j res u
  exact ⟨⟨aside.trans told, kept.trans journal, stat, stay.trans (slotsStay_of_mem mem)⟩, (upSlots_of_mem mem).trans slots⟩

/-- A journal that closes with the commit of its slot. -/
theorem closeJournal_commit (step : 1 < j.step) (comp : j.comp ≠ 0) (small : j.comp ≤ 5) : Closes s (closeJournal j 1 s) (upStat false j.step j.comp j.slotB 1 j.chunks) ∧
    upSlots (closeJournal j 1 s) = setBit (setBit (upSlots s) (8 + j.comp) false) j.comp j.slotB ∧ upVer (closeJournal j 1 s) j.comp = j.manifest.version := by
  obtain ⟨aside, journal, stay, slots⟩ := pendingOver_leaves (j := j) up
  rw [closeJournal_commits step comp]
  generalize pendingOver j s = u at aside journal stay slots ⊢
  have upU : domLost u 8 = false := (aside.up 8).trans up
  obtain ⟨asideC, journalC, stayC, slotsC, version⟩ := committed_leaves (j := j) upU small
  generalize committed j u = v at asideC journalC stayC slotsC version ⊢
  obtain ⟨told, kept, mem, stat, versions⟩ := outcomeTold_shows j 1 v
  exact ⟨⟨(aside.trans asideC).trans told, kept.trans (journalC.trans journal), stat, (stay.trans stayC).trans (slotsStay_of_mem mem)⟩,
    (upSlots_of_mem mem).trans (slotsC.trans (by rw [slots])), (versions _ small).trans version⟩

end

/-! ### The completion of the slots that wait for an update -/

theorem calm_slotDone (fab : Bool) (slot result out0 : Nat) (s : State) : Calm s (slotDone fab slot result out0 s) := by
  have written : Calm s (slotWritten fab slot result out0 s) := ((calm_bankPut ..).trans (calm_bankPut ..)).trans (calm_bankPut ..)
  have done : slotDone fab slot result out0 s = if fab then notice 4 slot (slotWritten fab slot result out0 s) else raiseBit pciePage 0 (slotWritten fab slot result out0 s) := rfl
  rw [done]
  generalize slotWritten fab slot result out0 s = u at written ⊢
  refine written.trans ?_
  cases fab with
  | true =>
    have sends := Sends.notice 4 slot u
    have side := sends.side
    exact ⟨⟨(congrArg State.chans side :), (congrArg State.doms side :), (congrArg State.power side :), (congrArg State.taken side :),
      fun p _ => sends.regs p 0x700 (by decide) (by decide) (by decide) (by decide)⟩, (congrArg State.journal side :),
      fun o lo hi => sends.regs updPage o (by omega) (by omega) (by omega) (by omega)⟩
  | false => exact calm_raiseBit ..

/-- The path of the firmware to a slot that it serves is open. -/
theorem slot_open {fab : Bool} {slot : Nat} (hs : slot < 32) {s : State} (up : domLost s 8 = false) (on : targetOn s (if fab then .fabricBank else .hostBank) = true) :
    bankOpen s (firmwareMaster s) (slotBase fab slot + 0x100) = true := by
  have at_ : targetOf s (slotBase fab slot + 0x100) = if fab then .fabricBank else .hostBank := targetOf_slot hs (by omega) (by omega) s
  have path : portTarget s (firmwareMaster s) (slotBase fab slot + 0x100) = if fab then .fabricBank else .hostBank := by
    unfold portTarget
    rw [at_]
    unfold firmwareMaster
    split <;> cases fab <;> rfl
  unfold bankOpen
  rw [path, on, up]
  cases fab <;> rfl

theorem slotsStay_slotDone {fab : Bool} {slot result out0 : Nat} (hs : slot < 32) {s : State} (on : bankOpen s (firmwareMaster s) (slotBase fab slot + 0x100) = true) :
    ∀ x, 0x2000000 ≤ x → memByte (slotDone fab slot result out0 s) x = memByte s x := by
  intro x hx
  have above : slotBase fab slot + 0x200 ≤ 0x2000000 := by
    unfold slotBase
    split <;> omega
  rw [memByte_slotDone hs on rfl (.inr (le_trans (by decide) hx)), if_neg (by omega)]

end Sys2Proof.Machine
end

section
/-! PROOFS. An update from its journal's opening to the commit: the copy of the image, the check of the combination, the activation of the blocks (spec 18 R457-R459). -/

-- One theorem at a time: elaborating them in parallel takes the memory of many threads.
set_option Elab.async false

namespace Sys2Proof.Machine

/-! ### Copies (18 R458) -/

theorem smGet_of_above {α : Type} {d : α} {k : Nat} {m : SMap α} (h : smAbove k m) : smGet d m k = d := by
  induction m with
  | nil => rfl
  | cons e m ih =>
    rw [smGet, if_neg (Nat.ne_of_gt (h e List.mem_cons_self))]
    exact ih fun e he => h e (List.mem_cons_of_mem _ he)

theorem memByte_cells {src dst i : Nat} : ∀ (l : List Host.Cell) (t : State), smSorted l = true → (∀ c ∈ l, src ≤ c.1) →
    memByte (forEach l t (fun c s => setByte (dst + (c.1 - src)) c.2 s)) (dst + i) = smGet (memByte t (dst + i)) l (src + i) := by
  intro l
  induction l with
  | nil => exact fun t _ _ => rfl
  | cons c l ih =>
    intro t sorted above
    obtain ⟨k, v⟩ := c
    obtain ⟨later, rest⟩ := (smSorted_cons k v l).1 sorted
    have lo : src ≤ k := above (k, v) List.mem_cons_self
    refine (ih (setByte (dst + (k - src)) v t) rest fun c hc => above c (List.mem_cons_of_mem _ hc)).trans ?_
    rw [memByte_setByte, smGet]
    by_cases at_ : k = src + i
    · rw [if_pos at_, if_pos (by omega), ← at_]
      exact smGet_of_above later
    · rw [if_neg at_, if_neg (by omega)]

/-- A copy brings each byte of its source. -/
theorem memByte_copyRange {src dst n i : Nat} {s : State} (wf : Memory.wf s.mem = true) (hi : i < n) : memByte (copyRange src dst n s) (dst + i) = memByte s (src + i) := by
  have sorted : smSorted s.mem = true := (Bool.and_eq_true_iff.1 wf).1
  have cells : s.mem.filter (fun c => decide (src ≤ c.1 ∧ c.1 < src + n)) = smDrop (fun k => !decide (src ≤ k ∧ k < src + n)) s.mem := by
    unfold smDrop
    simp only [Bool.not_not]
  unfold copyRange
  rw [memByte_cells _ _ (smSorted_sublist List.filter_sublist sorted) fun c hc => (of_decide_eq_true (List.mem_filter.1 hc).2).1, memByte_wipeMem, if_pos (by omega), cells,
    smGet_smDrop, if_neg (by simp; omega)]
  rfl

/-- The place of an image in its slot: MRAM, apart from the control and journal areas. -/
def InSlots (d len : Nat) : Prop := 0x2000000 ≤ d ∧ d + len ≤ 0x2800000 ∧ (d + len ≤ 0x2400000 ∨ 0x2440000 ≤ d)

theorem slot_fits {comp len : Nat} (hc : comp ≤ 5) (hl : len ≤ slotSize comp) (b : Bool) : InSlots (slotContent comp b - 0x1000) len := by
  have cases_ : comp = 0 ∨ comp = 1 ∨ comp = 2 ∨ comp = 3 ∨ comp = 4 ∨ comp = 5 := by omega
  rcases cases_ with rfl | rfl | rfl | rfl | rfl | rfl <;> cases b <;> simp [slotSize] at hl <;> simp [InSlots, slotContent] <;> omega

/-- A chunk of a copy, journaled. -/
def copyChunk (j : Journal) (i : Nat) (s : State) : State :=
  noteStep { j with step := 2, chunks := j.chunks + i + 1 }
    (tongsCopy (j.src + 0x10000 * (j.chunks + i)) (slotContent j.comp j.slotB - 0x1000 + 0x10000 * (j.chunks + i)) (min j.len (0x10000 * (j.chunks + i) + 0x10000) - 0x10000 * (j.chunks + i)) s)

theorem copyChunks_eq (j : Journal) (n : Nat) (s : State) : copyChunks j n s = forUpTo (n - j.chunks) s (fun i s => copyChunk j i s) := by
  unfold copyChunks copyChunk
  with_reducible rfl

theorem aside_copyChunk (j : Journal) (i : Nat) (s : State) : Aside s (copyChunk j i s) := (calm_tongsCopy ..).toAside.trans (aside_noteStep ..)

theorem aside_copyChunks (j : Journal) (n : Nat) (s : State) : Aside s (copyChunks j n s) := by
  rw [copyChunks_eq]
  exact forUpTo_inv (.refl s) fun i t k => k.trans (aside_copyChunk j i t)

theorem journalIs_copyChunks {j : Journal} {n : Nat} (fresh : j.chunks = 0) (pos : 0 < n) (s : State) : JournalIs (copyChunks j n s) { j with step := 2, chunks := n } := by
  obtain ⟨m, rfl⟩ : ∃ m, n = m + 1 := ⟨n - 1, by omega⟩
  have last : j.chunks + m + 1 = m + 1 := by omega
  rw [copyChunks_eq, fresh, Nat.sub_zero, forUpTo]
  unfold copyChunk
  rw [last]
  exact journalIs_noteStep ..

/-- Every chunk copied stands in the slot, and nothing below MRAM changes. -/
theorem bytes_copyChunks {j : Journal} {s : State} (fresh : j.chunks = 0) (up : domLost s 8 = false) (wf : Memory.wf s.mem = true)
    (fits : InSlots (slotContent j.comp j.slotB - 0x1000) j.len) (source : j.src + j.len ≤ 0x2000000) :
    ∀ k, domLost (forUpTo k s (fun i s => copyChunk j i s)) 8 = false ∧ Memory.wf (forUpTo k s (fun i s => copyChunk j i s)).mem = true ∧
      (∀ x, x < 0x2000000 → memByte (forUpTo k s (fun i s => copyChunk j i s)) x = memByte s x) ∧
      ∀ i, i < j.len → i < 0x10000 * k → memByte (forUpTo k s (fun i s => copyChunk j i s)) (slotContent j.comp j.slotB - 0x1000 + i) = memByte s (j.src + i) := by
  intro k
  generalize hd : slotContent j.comp j.slotB - 0x1000 = d at fits ⊢
  obtain ⟨lo, hi, away⟩ := fits
  induction k with
  | zero => exact ⟨up, wf, fun _ _ => rfl, fun i _ h => absurd h (by omega)⟩
  | succ k ih =>
    obtain ⟨upK, wfK, below, done⟩ := ih
    rw [forUpTo]
    generalize forUpTo k s (fun i s => copyChunk j i s) = t at upK wfK below done ⊢
    unfold copyChunk
    rw [fresh, hd, Nat.zero_add]
    have calm := calm_tongsCopy (j.src + 0x10000 * k) (d + 0x10000 * k) (min j.len (0x10000 * k + 0x10000) - 0x10000 * k) t
    have copied (i : Nat) (hi : i < min j.len (0x10000 * k + 0x10000) - 0x10000 * k) :
        memByte (tongsCopy (j.src + 0x10000 * k) (d + 0x10000 * k) (min j.len (0x10000 * k + 0x10000) - 0x10000 * k) t) (d + 0x10000 * k + i) = memByte t (j.src + 0x10000 * k + i) :=
      memByte_copyRange wfK hi
    have other (x : Nat) (hx : x < d + 0x10000 * k ∨ d + 0x10000 * k + (min j.len (0x10000 * k + 0x10000) - 0x10000 * k) ≤ x) :
        memByte (tongsCopy (j.src + 0x10000 * k) (d + 0x10000 * k) (min j.len (0x10000 * k + 0x10000) - 0x10000 * k) t) x = memByte t x := memByte_tongsCopy _ _ _ _ hx
    have wfT := (keeps_tongsCopy (j.src + 0x10000 * k) (d + 0x10000 * k) (min j.len (0x10000 * k + 0x10000) - 0x10000 * k) (Keeps.refl t)).mem wfK
    generalize tongsCopy (j.src + 0x10000 * k) (d + 0x10000 * k) (min j.len (0x10000 * k + 0x10000) - 0x10000 * k) t = u at calm copied other wfT ⊢
    have upU : domLost u 8 = false := (calm.up 8).trans upK
    refine ⟨((aside_noteStep ..).up 8).trans upU, (keeps_noteStep _ (Keeps.refl u)).mem wfT, fun x hx => ?_, fun i small hk => ?_⟩
    · rw [memByte_noteStep upU _ (by omega), other x (by omega), below x hx]
    · rw [memByte_noteStep upU _ (by omega)]
      by_cases earlier : i < 0x10000 * k
      · rw [other _ (by omega), done i small earlier]
      · have place : d + i = d + 0x10000 * k + (i - 0x10000 * k) := by omega
        have from_ : j.src + 0x10000 * k + (i - 0x10000 * k) = j.src + i := by omega
        rw [place, copied _ (by omega), from_, below _ (by omega)]

/-! ### Steps 1 to 4 -/

/-- The journal of step 1: it keeps whether the slot was marked not verified. -/
def opened (j : Journal) (s : State) : Journal := { j with was := unverified s (slotKey j.comp j.slotB) }

theorem openJournal_eq (j : Journal) (s : State) : openJournal j s = markSlot (slotKey j.comp j.slotB) true (noteStep (opened j s) s) := by
  unfold openJournal opened
  with_reducible rfl

theorem aside_openJournal (j : Journal) (s : State) : Aside s (openJournal j s) := by
  rw [openJournal_eq]
  exact (aside_noteStep ..).trans (calm_markSlot ..).toAside

/-- Step 1 opens the journal, whose slot is marked not verified. -/
theorem openJournal_shows {j : Journal} {s : State} (up : domLost s 8 = false) (closed : s.journal = none) (step : j.step = 1) (chunks : j.chunks = 0) (small : j.comp ≤ 5) :
    (∃ x, (openJournal j s).journal = some x ∧ x.comp = j.comp ∧ x.slotB = j.slotB ∧ x.step = 1 ∧ x.line = 1) ∧
    rdReg (openJournal j s) updPage 0x700 = upStat true 1 j.comp j.slotB 0 0 ∧ unverified (openJournal j s) (slotKey j.comp j.slotB) = true := by
  have stat : rdReg (noteStep (opened j s) s) updPage 0x700 = upStat true j.step j.comp j.slotB 0 j.chunks := noteStep_stat ..
  have journal := noteStep_journal (opened j s) s
  have first : steppedJournal (opened j s) s = { opened j s with number := nextUpdate s, line := 0 } := by
    unfold steppedJournal
    rw [closed]
  rw [first] at journal
  have upN : domLost (noteStep (opened j s) s) 8 = false := ((aside_noteStep ..).up 8).trans up
  rw [openJournal_eq]
  generalize noteStep (opened j s) s = t at stat journal upN ⊢
  have mark := calm_markSlot (slotKey j.comp j.slotB) true t
  refine ⟨⟨_, mark.journal.trans journal, rfl, rfl, step, rfl⟩, ?_, ?_⟩
  · rw [mark.upd 0x700 (by decide) (by decide), stat, step, chunks]
  · have key : slotKey j.comp j.slotB < 32 := by
      have := Bool.toNat_lt j.slotB
      unfold slotKey
      omega
    unfold unverified markSlot
    rw [mramWord_linePut ⟨by decide, by decide⟩ upN]
    exact bit_setBit_same _ _ key

/-- Step 3 leaves the slot's bytes, and the journal says it. -/
theorem slotVerified_leaves {j : Journal} {v : State} (up : domLost v 8 = false) : Aside v (slotVerified j v) ∧ JournalIs (slotVerified j v) { j with step := 3 } ∧ SlotsStay v (slotVerified j v) := by
  unfold slotVerified
  dsimp only
  have same (f : Images → Images) : Aside v (modImages f v) := ⟨rfl, rfl, rfl, rfl, fun _ _ => rfl⟩
  have stay (f : Images → Images) : SlotsStay v (modImages f v) := slotsStay_of_mem rfl
  specialize same (fun i => { i with installed := slotKey j.comp j.slotB :: i.installed.filter (· != slotKey j.comp j.slotB), slots := smPut none i.slots (slotKey j.comp j.slotB) (some j.manifest) })
  specialize stay (fun i => { i with installed := slotKey j.comp j.slotB :: i.installed.filter (· != slotKey j.comp j.slotB), slots := smPut none i.slots (slotKey j.comp j.slotB) (some j.manifest) })
  generalize modImages _ v = t at same stay ⊢
  have upT := (same.up 8).trans up
  have mark := calm_markSlot (slotKey j.comp j.slotB) false t
  have upM := (mark.up 8).trans upT
  exact ⟨(same.trans mark.toAside).trans (aside_noteStep ..), journalIs_noteStep .., (stay.trans (slotsStay_markSlot upT _ _)).trans (slotsStay_noteStep upM _)⟩

/-- Step 5 begins: the slot is pending, every block still to be activated. -/
theorem checkStep_goes {j : Journal} {w : State} (up : domLost w 8 = false) (tested : journalTested j w = true) : Aside w (checkStep j w) ∧
    JournalIs (checkStep j w) { j with step := 5, left := activationBlocks j.comp } ∧ rdReg (checkStep j w) updPage 0x700 = upStat true 5 j.comp j.slotB 0 j.chunks ∧
    SlotsStay w (checkStep j w) ∧ upSlots (checkStep j w) = setBit (setFld (upSlots w) 21 16 0) (8 + j.comp) true := by
  unfold checkStep
  rw [if_pos tested]
  have first := aside_noteStep { j with step := 4 } w
  have stay := slotsStay_noteStep up { j with step := 4 }
  have slots := upSlots_noteStep up { j with step := 4 }
  generalize noteStep { j with step := 4 } w = t at first stay slots ⊢
  have upT := (first.up 8).trans up
  have put := calm_setSlots (fun w => setBit (setFld w 21 16 0) (8 + j.comp) true) t
  have stayP := slotsStay_setSlots upT (fun w => setBit (setFld w 21 16 0) (8 + j.comp) true)
  have slotsP := upSlots_setSlots upT (fun w => setBit (setFld w 21 16 0) (8 + j.comp) true)
  generalize setSlots (fun w => setBit (setFld w 21 16 0) (8 + j.comp) true) t = x at put stayP slotsP ⊢
  have upX := (put.up 8).trans upT
  refine ⟨(first.trans put.toAside).trans (aside_noteStep ..), journalIs_noteStep .., noteStep_stat .., (stay.trans stayP).trans (slotsStay_noteStep upX _), ?_⟩
  rw [upSlots_noteStep upX, slotsP, slots]

/-- A combination that is not tested closes the journal. -/
theorem checkStep_held {j : Journal} {w : State} (up : domLost w 8 = false) (untested : journalTested j w = false) :
    Closes w (checkStep j w) (upStat false 4 j.comp j.slotB 3 j.chunks) ∧ upSlots (checkStep j w) = setBit (upSlots w) (8 + j.comp) false := by
  have calm : Calm w (versionHeld j.comp j.manifest.version (upVer w j.comp) w) := calm_offer ..
  have mem : (versionHeld j.comp j.manifest.version (upVer w j.comp) w).mem = w.mem := rfl
  unfold checkStep
  rw [if_neg (by simp [untested])]
  generalize versionHeld j.comp j.manifest.version (upVer w j.comp) w = t at calm mem ⊢
  have upT := (calm.up 8).trans up
  obtain ⟨closes, slots⟩ := closeJournal_leaves (j := { j with step := 4 }) (res := 3) upT (by show 1 < 4; decide) (by decide)
  exact ⟨⟨calm.toAside.trans closes.aside, closes.journal, closes.stat, (slotsStay_of_mem mem).trans closes.slots⟩, slots.trans (by rw [upSlots_of_mem mem])⟩

/-! ### Step 5: the blocks (18 R459) -/

theorem calm_setStore (i : Nat) (x : CtlStore) (s : State) : Calm s (setStore i x s) := ⟨⟨rfl, rfl, rfl, rfl, fun _ _ => rfl⟩, rfl, fun _ _ _ => rfl⟩

theorem lanePage_apart {l o : Nat} (hl : l < 64) (ho : o < 4096) : ∀ q, Judged q ∨ q = 0xC → ∀ r, 0x700 ≤ r → r < 0x738 → storePage l * 4096 + o ≠ q * 4096 + r := by
  have at_ : storePage l = 0xA02 + 8 * l := if_pos hl
  unfold Judged
  omega

theorem calm_loadSockets {l : Nat} (hl : l < 64) (a : Nat) (s : State) : Calm s (loadSockets l a s) ∧ (loadSockets l a s).mem = s.mem := by
  unfold loadSockets
  exact ⟨forUpTo_inv_lt (P := Calm s) (.refl s) fun n hn u k => k.trans (calm_wrReg (lanePage_apart hl (by omega)) ..), forUpTo_inv (P := fun u : State => u.mem = s.mem) rfl fun _ _ k => k⟩

theorem bootStore_cases (i : Nat) (s : State) : ∃ x, bootStore i false s = setStore i x s ∨ (i < 64 ∧ ∃ a, bootStore i false s = loadSockets i a (setStore i x s)) := by
  unfold bootStore
  dsimp only
  rw [if_neg Bool.false_ne_true]
  generalize quarterLoaded s ((if i < 64 then 2 else 3) + 2) = open_
  by_cases lane : open_ = true ∧ i < 64
  · rw [if_pos lane]
    exact ⟨_, .inr ⟨lane.2, _, rfl⟩⟩
  · rw [if_neg lane]
    exact ⟨_, .inl rfl⟩

theorem calm_bootStore (i : Nat) (s : State) : Calm s (bootStore i false s) ∧ (bootStore i false s).mem = s.mem := by
  obtain ⟨x, eq | ⟨lane, a, eq⟩⟩ := bootStore_cases i s
  · rw [eq]
    exact ⟨calm_setStore .., rfl⟩
  · obtain ⟨calm, mem⟩ := calm_loadSockets lane a (setStore i x s)
    rw [eq]
    exact ⟨(calm_setStore ..).trans calm, mem⟩

theorem calm_activateBlock {j : Journal} (comp : j.comp ≠ 0) (b : Nat) (s : State) : Calm s (activateBlock j b s) ∧ (activateBlock j b s).mem = s.mem := by
  unfold activateBlock
  rw [if_neg comp]
  split
  · exact ⟨.refl s, rfl⟩
  · exact calm_bootStore b s

theorem activationBlocks_nodup (comp : Nat) : (activationBlocks comp).Nodup := by
  unfold activationBlocks
  repeat' split
  · exact List.nodup_singleton 0
  · exact List.nodup_range
  · exact List.nodup_range
  · exact List.nodup_range.map (fun _ _ h => Nat.add_right_cancel h)

/-- Whether a block can be activated rests on what an update leaves as it is. -/
theorem blockFree_aside {s t : State} (h : Aside s t) {comp b : Nat} (hb : b ∈ activationBlocks comp) : blockFree t comp b = blockFree s comp b := by
  have streams (c : Nat) : chan t c = chan s c := by unfold chan; rw [h.chans]
  have store (i : Nat) : storeStreams t i = storeStreams s i := by
    unfold storeStreams clusterStreams
    simp only [streams]
  unfold blockFree
  match comp with
  | 0 =>
    have roles : role t 0 = role s 0 ∧ role t 1 = role s 1 := ⟨h.role (by decide), h.role (by decide)⟩
    simp only [List.range, List.range.loop, List.any_cons, List.any_nil, roles.1, roles.2]
  | 1 =>
    have small : b < 8 := List.mem_range.1 hb
    have page : Judged (pageIndex ⟨.tcal, b⟩) := .inr (.inr (.inr ⟨b, small, rfl⟩))
    show (fld (rdReg t _ 0x700) 31 30 == 0) = (fld (rdReg s _ 0x700) 31 30 == 0)
    rw [h.judged _ page]
  | n + 2 =>
    show (!storeStreams t b) = (!storeStreams s b)
    rw [store]

/-- Every block of a list is activated and journaled. -/
theorem activateNext_all {J : Journal} (step : J.step = 5) (comp : J.comp ≠ 0) : ∀ (l : List Nat) (t : State), l.Nodup → (∀ b ∈ l, b ∈ activationBlocks J.comp) → domLost t 8 = false →
    JournalIs t { J with left := l } → (∀ b ∈ l, blockFree t J.comp b = true) →
    let r := forEach l t activateNext
    Aside t r ∧ JournalIs r { J with left := [] } ∧ SlotsStay t r ∧ upSlots r = upSlots t := by
  intro l
  induction l with
  | nil => exact fun t _ _ _ is _ => ⟨.refl t, is, fun _ _ => rfl, rfl⟩
  | cons b l ih =>
    intro t nodup own up is free
    obtain ⟨number, line, journal⟩ := is
    obtain ⟨fresh, rest⟩ := List.nodup_cons.1 nodup
    have left : (b :: l).filter (· != b) = l := by
      rw [List.filter_cons_of_neg (by simp)]
      refine List.filter_eq_self.2 fun x hx => ?_
      have ne : x ≠ b := fun e => fresh (e ▸ hx)
      simpa using ne
    have next : activateNext b t = noteStep { J with left := l, number := number, line := line } (activateBlock { J with left := b :: l, number := number, line := line } b t) := by
      unfold activateNext
      rw [journal]
      dsimp only
      rw [if_pos ⟨step, by simp, free b List.mem_cons_self⟩, left]
    obtain ⟨calm, mem⟩ := calm_activateBlock (j := { J with left := b :: l, number := number, line := line }) comp b t
    generalize activateBlock { J with left := b :: l, number := number, line := line } b t = u at next calm mem
    have upU := (calm.up 8).trans up
    have aside : Aside t (activateNext b t) := by
      rw [next]
      exact calm.toAside.trans (aside_noteStep ..)
    have is' : JournalIs (activateNext b t) { J with left := l } := by
      obtain ⟨n, k, e⟩ := journalIs_noteStep { J with left := l, number := number, line := line } u
      exact ⟨n, k, (congrArg State.journal next).trans e⟩
    have stay : SlotsStay t (activateNext b t) := by
      rw [next]
      exact (slotsStay_of_mem mem).trans (slotsStay_noteStep upU _)
    have slots : upSlots (activateNext b t) = upSlots t := by
      rw [next]
      exact (upSlots_noteStep upU _).trans (upSlots_of_mem mem)
    have result := ih (activateNext b t) rest (fun x hx => own x (List.mem_cons_of_mem _ hx)) ((aside.up 8).trans up) is'
      fun x hx => (blockFree_aside aside (own x (List.mem_cons_of_mem _ hx))).trans (free x (List.mem_cons_of_mem _ hx))
    obtain ⟨aside', last, stay', slots'⟩ := result
    exact ⟨aside.trans aside', last, stay.trans stay', slots'.trans slots⟩

/-- A block in use stays as it is. -/
theorem activateNext_none {t : State} {x : Journal} (journal : t.journal = some x) : ∀ (l : List Nat), (∀ b ∈ l, blockFree t x.comp b = false) → forEach l t activateNext = t := by
  intro l
  induction l with
  | nil => exact fun _ => rfl
  | cons b l ih =>
    intro busy
    have same : activateNext b t = t := by
      unfold activateNext
      rw [journal]
      exact if_neg fun h => absurd (h.2.2.symm.trans (busy b List.mem_cons_self)) (by decide)
    exact (congrArg (fun s => forEach l s activateNext) same).trans (ih fun c hc => busy c (List.mem_cons_of_mem _ hc))

/-! ### The update as a whole -/

theorem upStat_result {open_ : Bool} {step comp res : Nat} (slotB : Bool) (chunks : Nat) (hr : res < 8) :
    fld (upStat open_ step comp slotB res chunks) 22 20 = res := by
  have b := Bool.toNat_lt slotB
  have o := Bool.toNat_lt open_
  unfold upStat fld w32
  rw [BitVec.toNat_ofNat]
  generalize slotB.toNat = x at b ⊢
  generalize open_.toNat = y at o ⊢
  omega

/-- The image copied. -/
def imageCopied (j : Journal) (q : State) : State := copyChunks j (chunksOf j.len) (openJournal j q)

/-- The image copied and verified. -/
def imageVerified (j : Journal) (q : State) : State := slotVerified { j with chunks := chunksOf j.len, step := 2 } (imageCopied j q)

theorem updateSteps_opened (j : Journal) (ok : Bool) (q : State) : updateSteps j ok (1, 0) q = openJournal j q := by
  unfold updateSteps
  dsimp only
  rw [if_pos rfl]

theorem updateSteps_copied (j : Journal) (ok : Bool) (q : State) : updateSteps j ok (2, 0) q = imageCopied j q := by
  unfold updateSteps imageCopied
  dsimp only
  rw [if_neg (by decide), if_neg (fun h => h.2.1 rfl), if_pos rfl]

theorem updateSteps_bad (j : Journal) (q : State) : updateSteps j false (0, 0) q =
    updateGoesOn (closeJournal { j with chunks := chunksOf j.len, step := 2 } 2 (imageCopied j q)) := by
  unfold updateSteps imageCopied
  dsimp only
  rw [if_neg (by decide), if_neg (fun h => h.2.1 rfl), if_neg (by decide), if_pos (by rfl)]

theorem updateSteps_good (j : Journal) (q : State) : updateSteps j true (0, 0) q = updateGoesOn (checkStep { j with chunks := chunksOf j.len, step := 3 } (imageVerified j q)) := by
  unfold updateSteps imageVerified imageCopied
  dsimp only
  rw [if_neg (by decide), if_neg (fun h => h.2.1 rfl), if_neg (by decide), if_neg (by decide), if_neg (by decide), if_neg (fun h => absurd h.1 (by decide)), if_neg (fun h => absurd h.1 (by decide))]

/-- What is left of an update whose journal is over, and its slot completed. -/
structure Completed (fab : Bool) (slot : Nat) (c t : State) (result : Nat) : Prop where
  journal : t.journal = c.journal
  upd : ∀ o, 0x700 ≤ o → o < 0x738 → rdReg t updPage o = rdReg c updPage o
  bytes : ∀ x, 0x2000000 ≤ x → memByte t x = memByte c x
  chans : t.chans = c.chans
  dev : rdReg t devPage 0x700 = rdReg c devPage 0x700
  state : memByte t (slotBase fab slot + 0x100) = 2
  result : memByte t (slotBase fab slot + 0x101) = BitVec.ofNat 8 result

theorem Completed.committedB {fab : Bool} {slot result : Nat} {c t : State} (h : Completed fab slot c t result) (comp : Nat) : committedB t comp = bit (upSlots c) comp :=
  congrArg (bit · comp) (mramWord_congr fun x lo _ => h.bytes x (le_trans (by decide) lo))

theorem updateCompletes_done {fab : Bool} {slot result : Nat} {others : List TakenSlot} {c : State} (hs : slot < 32) (up : domLost c 8 = false)
    (on : targetOn c (if fab then .fabricBank else .hostBank) = true) (taken : c.taken = others ++ [⟨fab, slot, .update⟩]) (none_ : ∀ x ∈ others, x.wait ≠ .update) :
    Completed fab slot c (updateCompletes result c) result := by
  have mine : c.taken.filter (fun t => t.wait == .update) = [⟨fab, slot, .update⟩] := by
    rw [taken, List.filter_append, List.filter_eq_nil_iff.2 fun x hx => by simpa using none_ x hx]
    rfl
  generalize hd : ({ c with taken := c.taken.filter (fun t => t.wait != .update) } : State) = d
  have eq : updateCompletes result c = slotDone fab slot result (rdReg c updPage 0x700).toNat d := by
    unfold updateCompletes finishWaits
    rw [mine, hd]
    rfl
  have same : d.mem = c.mem ∧ d.chans = c.chans ∧ d.journal = c.journal ∧ (∀ p o, rdReg d p o = rdReg c p o) := by
    subst hd
    exact ⟨rfl, rfl, rfl, fun _ _ => rfl⟩
  have open_ : bankOpen d (firmwareMaster d) (slotBase fab slot + 0x100) = true := by
    subst hd
    exact slot_open hs up on
  obtain ⟨mem, chans, journal, regs⟩ := same
  have calm := calm_slotDone fab slot result (rdReg c updPage 0x700).toNat d
  have stay := slotsStay_slotDone (result := result) (out0 := (rdReg c updPage 0x700).toNat) hs open_
  have above : checkAt + 8 ≤ slotBase fab slot := by
    unfold checkAt slotBase
    cases fab <;> simp <;> omega
  have byte (i : Nat) (hi : i < 256) := memByte_slotDone (result := result) (out0 := (rdReg c updPage 0x700).toNat) hs open_ rfl (x := slotBase fab slot + 0x100 + i) (.inr (by omega))
  rw [eq]
  refine ⟨calm.journal.trans journal, fun o lo hi => (calm.upd o lo hi).trans (regs ..), fun x hx => (stay x hx).trans (memByte_of_mem mem x), calm.chans.trans chans,
    (calm.judged devPage (.inl rfl)).trans (regs ..), ?_, ?_⟩
  · rw [byte 0 (by decide), if_pos ⟨by omega, by omega⟩, Nat.add_zero, Nat.sub_self]
    rfl
  · rw [byte 1 (by decide), if_pos ⟨by omega, by omega⟩, Nat.add_sub_cancel_left]
    rfl

/-- An update whose journal is over completes its slot. -/
theorem updateGoesOn_over {c : State} (ended : c.journal = none) : updateGoesOn c = updateCompletes (if fld (rdReg c updPage 0x700) 22 20 = 3 then 4 else 3) c := by
  unfold updateGoesOn
  rw [ended]

/-- An update at step 5 none of whose blocks can be activated stays there. -/
theorem updateGoesOn_waits {z : State} {J : Journal} (is : JournalIs z J) (step : J.step = 5) (left : J.left ≠ []) (busy : ∀ b ∈ J.left, blockFree z J.comp b = false) :
    updateGoesOn z = z := by
  obtain ⟨number, line, journal⟩ := is
  have none_ := activateNext_none journal J.left busy
  unfold updateGoesOn updateProceeds
  rw [journal]
  dsimp only
  rw [if_neg (fun h => h step), none_, journal]
  exact if_neg (by simpa using left)

/-- An update at step 5 whose blocks can all be activated commits its slot. -/
theorem updateGoesOn_commits {z r : State} {J : Journal} (is : JournalIs z J) (step : J.step = 5) (hr : r = forEach J.left z activateNext) (done : JournalIs r { J with left := [] }) :
    ∃ number line, updateGoesOn z = commitUpdate { J with left := [], number := number, line := line } r := by
  obtain ⟨number, line, journal⟩ := is
  obtain ⟨number', line', last⟩ := done
  refine ⟨number', line', ?_⟩
  unfold updateGoesOn updateProceeds
  rw [journal]
  dsimp only
  rw [if_neg (fun h => h step), ← hr, last]
  exact if_pos rfl

theorem leaveServiceSafe_not {s : State} (comp : Nat) (h : bit (rdReg s devPage 0x700) 29 = false) : leaveServiceSafe comp s = s := if_pos (by simp [h])

/-- An update of a slot that waits for it, as its journal opens. -/
structure UpdateBegins (fab : Bool) (slot : Nat) (others : List TakenSlot) (q : State) (j : Journal) : Prop where
  slot_lt : slot < 32
  up : domLost q 8 = false
  closed : q.journal = none
  on : targetOn q (if fab then .fabricBank else .hostBank) = true
  taken : q.taken = others ++ [⟨fab, slot, .update⟩]
  step : j.step = 1
  fresh : j.chunks = 0
  small : j.comp ≤ 5
  pos : 0 < j.len
  fits : InSlots (slotContent j.comp j.slotB - 0x1000) j.len

theorem Aside.on {s t : State} (h : Aside s t) (fab : Bool) : targetOn t (if fab then .fabricBank else .hostBank) = targetOn s (if fab then .fabricBank else .hostBank) := by
  cases fab <;> exact congrArg (fun p => (smGet ({} : PowerState) p _).st == 0) h.power

theorem chunksOf_le (len : Nat) : len ≤ 0x10000 * chunksOf len := by
  unfold chunksOf
  omega

section
variable {fab : Bool} {slot : Nat} {others : List TakenSlot} {q : State} {j : Journal} (h : UpdateBegins fab slot others q j)
include h

theorem UpdateBegins.chunks_pos : 0 < chunksOf j.len := by
  have pos := h.pos
  unfold chunksOf
  omega

/-- Steps 1 and 2. -/
theorem UpdateBegins.copied : Aside q (imageCopied j q) ∧ JournalIs (imageCopied j q) { j with step := 2, chunks := chunksOf j.len } ∧ upSlots (imageCopied j q) = upSlots q := by
  have aside := aside_openJournal j q
  have upO : domLost (openJournal j q) 8 = false := (aside.up 8).trans h.up
  have slotsO : upSlots (openJournal j q) = upSlots q := by
    rw [openJournal_eq]
    exact (upSlots_linePut (((aside_noteStep ..).up 8).trans h.up) (by decide) (by decide) _).trans (upSlots_noteStep h.up _)
  unfold imageCopied
  refine ⟨aside.trans (aside_copyChunks ..), journalIs_copyChunks h.fresh h.chunks_pos _, ?_⟩
  rw [← slotsO]
  refine mramWord_congr fun x lo hi => memByte_copyChunks upO j _ h.fits.2.2 ?_
  have at_ : comboLine = 0x2400040 := rfl
  unfold controlByte
  omega

theorem UpdateBegins.up_copied : domLost (imageCopied j q) 8 = false := (h.copied.1.up 8).trans h.up

/-- Every byte of the image stands in its slot. -/
theorem UpdateBegins.bytes (wf : Memory.wf q.mem = true) (source : j.src + j.len ≤ 0x2000000) : ∀ i, i < j.len →
    memByte (imageCopied j q) (slotContent j.comp j.slotB - 0x1000 + i) = memByte q (j.src + i) := by
  intro i hi
  have upO : domLost (openJournal j q) 8 = false := ((aside_openJournal j q).up 8).trans h.up
  have upN : domLost (noteStep (opened j q) q) 8 = false := ((aside_noteStep ..).up 8).trans h.up
  have below : memByte (openJournal j q) (j.src + i) = memByte q (j.src + i) := by
    have low : j.src + i < 0x2000000 := by omega
    rw [openJournal_eq, markSlot, linePut, memByte_mramPut ⟨by decide, by decide⟩ upN, if_neg (by have at_ : markLine = 0x243FFC0 := rfl; omega), memByte_noteStep h.up _ (by omega)]
  have wfO : Memory.wf (openJournal j q).mem = true := (keeps_openJournal j (Keeps.refl q)).mem wf
  have all := (bytes_copyChunks h.fresh upO wfO h.fits source (chunksOf j.len)).2.2.2 i hi (lt_of_lt_of_le hi (chunksOf_le _))
  unfold imageCopied
  rw [copyChunks_eq, h.fresh, Nat.sub_zero, all, below]

/-- Step 3. -/
theorem UpdateBegins.verified : Aside q (imageVerified j q) ∧ SlotsStay (imageCopied j q) (imageVerified j q) ∧ upSlots (imageVerified j q) = upSlots q := by
  obtain ⟨aside, -, stay⟩ := slotVerified_leaves (j := { j with chunks := chunksOf j.len, step := 2 }) h.up_copied
  refine ⟨h.copied.1.trans aside, stay, ?_⟩
  exact (mramWord_verified h.up j (chunksOf j.len) 2 h.fits.2.2 rfl).1 comboLine (by decide) (by decide)

theorem UpdateBegins.up_verified : domLost (imageVerified j q) 8 = false := (h.verified.1.up 8).trans h.up

/-- A slot's completion, for a state that an update has led to. -/
theorem UpdateBegins.completed {c : State} (none_ : ∀ x ∈ others, x.wait ≠ .update) (aside : Aside q c) (result : Nat) : Completed fab slot c (updateCompletes result c) result :=
  updateCompletes_done h.slot_lt ((aside.up 8).trans h.up) ((aside.on fab).trans h.on) (aside.taken.trans h.taken) none_

variable (none_ : ∀ x ∈ others, x.wait ≠ .update)
include none_

/-- Step 2 finds a digest that differs. -/
theorem UpdateBegins.badReadback : let t := updateSteps j false (0, 0) q
    t.journal = none ∧ rdReg t updPage 0x700 = upStat false 2 j.comp j.slotB 2 (chunksOf j.len) ∧ committedB t j.comp = committedB q j.comp ∧
      memByte t (slotBase fab slot + 0x100) = 2 ∧ memByte t (slotBase fab slot + 0x101) = 3 := by
  obtain ⟨aside, -, slots⟩ := h.copied
  obtain ⟨closes, pending⟩ := closeJournal_leaves (j := { j with chunks := chunksOf j.len, step := 2 }) (res := 2) h.up_copied (by show 1 < 2; decide) (by decide)
  have small := h.small
  dsimp only
  rw [updateSteps_bad]
  dsimp only at pending ⊢
  generalize closeJournal { j with chunks := chunksOf j.len, step := 2 } 2 (imageCopied j q) = c at closes pending ⊢
  rw [updateGoesOn_over closes.journal, closes.stat, upStat_result _ _ (by decide), if_neg (by decide)]
  have done := h.completed none_ (aside.trans closes.aside) 3
  refine ⟨done.journal.trans closes.journal, (done.upd 0x700 (by decide) (by decide)).trans closes.stat, ?_, done.state, done.result⟩
  rw [done.committedB, pending, bit_setBit_ne _ _ (by omega) (by omega) (by omega), slots]
  rfl

/-- Step 4 finds a combination that is not tested. -/
theorem UpdateBegins.untested (untested : journalTested { j with chunks := chunksOf j.len, step := 3 } (imageVerified j q) = false) : let t := updateSteps j true (0, 0) q
    t.journal = none ∧ rdReg t updPage 0x700 = upStat false 4 j.comp j.slotB 3 (chunksOf j.len) ∧ committedB t j.comp = committedB q j.comp ∧
      memByte t (slotBase fab slot + 0x100) = 2 ∧ memByte t (slotBase fab slot + 0x101) = 4 := by
  obtain ⟨aside, -, slots⟩ := h.verified
  obtain ⟨closes, pending⟩ := checkStep_held h.up_verified untested
  have small := h.small
  dsimp only
  rw [updateSteps_good]
  dsimp only at pending ⊢
  generalize checkStep { j with chunks := chunksOf j.len, step := 3 } (imageVerified j q) = c at closes pending ⊢
  rw [updateGoesOn_over closes.journal, closes.stat, upStat_result _ _ (by decide), if_pos rfl]
  have done := h.completed none_ (aside.trans closes.aside) 4
  refine ⟨done.journal.trans closes.journal, (done.upd 0x700 (by decide) (by decide)).trans closes.stat, ?_, done.state, done.result⟩
  rw [done.committedB, pending, bit_setBit_ne _ _ (by omega) (by omega) (by omega), slots]
  rfl

end

theorem activationBlocks_ne (comp : Nat) : activationBlocks comp ≠ [] := by
  unfold activationBlocks
  repeat' split
  all_goals decide

section
variable {fab : Bool} {slot : Nat} {others : List TakenSlot} {q : State} {j : Journal} (h : UpdateBegins fab slot others q j)
include h

/-- No block can be activated: the slot stays pending at step 5. -/
theorem UpdateBegins.waits (tested : journalTested { j with chunks := chunksOf j.len, step := 3 } (imageVerified j q) = true)
    (busy : ∀ b ∈ activationBlocks j.comp, blockFree (imageVerified j q) j.comp b = false) : let t := updateSteps j true (0, 0) q
    (∃ x, t.journal = some x ∧ x.step = 5 ∧ x.left = activationBlocks j.comp) ∧ rdReg t updPage 0x700 = upStat true 5 j.comp j.slotB 0 (chunksOf j.len) ∧
      bit (upSlots t) (8 + j.comp) = true ∧ committedB t j.comp = committedB q j.comp := by
  obtain ⟨-, -, slots⟩ := h.verified
  obtain ⟨aside, is, stat, -, pending⟩ := checkStep_goes h.up_verified tested
  have small := h.small
  dsimp only
  rw [updateSteps_good]
  dsimp only at is stat pending ⊢
  generalize checkStep { j with chunks := chunksOf j.len, step := 3 } (imageVerified j q) = z at aside is stat pending ⊢
  rw [updateGoesOn_waits is rfl (activationBlocks_ne _) fun b hb => (blockFree_aside aside hb).trans (busy b hb)]
  obtain ⟨number, line, journal⟩ := is
  refine ⟨⟨_, journal, rfl, rfl⟩, stat, ?_, ?_⟩
  · rw [pending, bit_setBit_same _ _ (by omega)]
  · unfold committedB
    rw [pending, bit_setBit_ne _ _ (by omega) (by omega) (by omega), bit_setFld _ _ _ (by decide) (by decide) (by omega), if_pos (by omega), slots]

/-- Every block can be activated: the slot is committed. -/
theorem UpdateBegins.commits (none_ : ∀ x ∈ others, x.wait ≠ .update) (tested : journalTested { j with chunks := chunksOf j.len, step := 3 } (imageVerified j q) = true)
    (comp : j.comp ≠ 0) (safe : bit (rdReg q devPage 0x700) 29 = false) (free : ∀ b ∈ activationBlocks j.comp, blockFree (imageVerified j q) j.comp b = true) : let t := updateSteps j true (0, 0) q
    t.journal = none ∧ rdReg t updPage 0x700 = upStat false 6 j.comp j.slotB 1 (chunksOf j.len) ∧ committedB t j.comp = j.slotB ∧ upVer t j.comp = j.manifest.version ∧
      memByte t (slotBase fab slot + 0x100) = 2 ∧ memByte t (slotBase fab slot + 0x101) = 0 ∧ SlotsStay (imageCopied j q) t := by
  obtain ⟨asideV, stayV, -⟩ := h.verified
  obtain ⟨asideZ, is, -, stayZ, -⟩ := checkStep_goes h.up_verified tested
  have small := h.small
  dsimp only
  rw [updateSteps_good]
  dsimp only at is ⊢
  generalize checkStep { j with chunks := chunksOf j.len, step := 3 } (imageVerified j q) = z at asideZ is stayZ ⊢
  have upZ : domLost z 8 = false := (asideZ.up 8).trans h.up_verified
  obtain ⟨asideR, last, stayR, -⟩ := activateNext_all (J := { j with chunks := chunksOf j.len, step := 5, left := activationBlocks j.comp }) rfl comp (activationBlocks j.comp) z
    (activationBlocks_nodup _) (fun _ hb => hb) upZ is fun b hb => (blockFree_aside asideZ hb).trans (free b hb)
  obtain ⟨number, line, eq⟩ := updateGoesOn_commits is rfl rfl last
  rw [eq]
  generalize forEach (activationBlocks j.comp) z activateNext = r at asideR stayR ⊢
  have upR : domLost r 8 = false := (asideR.up 8).trans upZ
  obtain ⟨closes, slots, version⟩ := closeJournal_commit (j := { j with chunks := chunksOf j.len, step := 6, left := [], number := number, line := line }) upR (by show 1 < 6; decide) comp small
  unfold commitUpdate
  dsimp only at slots version ⊢
  generalize closeJournal { j with chunks := chunksOf j.len, step := 6, left := [], number := number, line := line } 1 r = c at closes slots version ⊢
  have aside : Aside q c := ((asideV.trans asideZ).trans asideR).trans closes.aside
  have done := h.completed none_ aside 0
  have quiet : bit (rdReg (updateCompletes 0 c) devPage 0x700) 29 = false := by rw [done.dev, aside.judged devPage (.inl rfl), safe]
  rw [leaveServiceSafe_not _ quiet]
  refine ⟨done.journal.trans closes.journal, (done.upd 0x700 (by decide) (by decide)).trans closes.stat, ?_, ?_, done.state, done.result, ?_⟩
  · rw [done.committedB, slots, bit_setBit_same _ _ (by omega)]
  · exact (done.upd (0x710 + 4 * j.comp) (by omega) (by omega)).trans version
  · exact (((stayV.trans stayZ).trans stayR).trans closes.slots).trans fun x hx => done.bytes x hx.1

end

end Sys2Proof.Machine
end

section
/-! PROOFS. Each service does its work (O53; spec 19 R476-R478, 09 R241-R250, 16 R421-R422, 18 R452-R467). -/

-- One theorem at a time: elaborating them in parallel takes the memory of many threads.
set_option Elab.async false

namespace Sys2Proof.Machine

/-! ### PRIMER, PATINA_CLEAR and PATINA_CMD -/

theorem primerService_cases {fab : Bool} {slot : Nat} {v : Word} {u : State} (hv : v = w32 (slotArg u fab slot 0)) :
    (∀ r, prRefused u v = some r → ∀ t, t = prCmd (firmwareMaster u) v u → primerService fab slot u = slotDone fab slot r (primerOut t) t) ∧
    (prRefused u v = none → (fld v 31 29 = 3 → ∀ t, t = prCmd (firmwareMaster u) v u → primerService fab slot u = slotDone fab slot 0 (primerOut t) t) ∧
      (fld v 31 29 ≠ 3 → primerService fab slot u = prCmd (firmwareMaster u) v (slotWaits fab slot .primer u))) := by
  unfold primerService
  rw [← hv]
  dsimp only
  refine ⟨fun r refused t ht => ?_, fun accepted => ?_⟩
  · rw [refused, ht]
  · rw [accepted]
    exact ⟨fun stop t ht => (if_pos stop).trans (by rw [ht]), fun other => if_neg other⟩

theorem tokenService_cases {fab : Bool} {slot a0 : Nat} {u : State} (ha : a0 = slotArg u fab slot 0) :
    (a0 = 0 ∨ 224 < a0 → tokenService fab slot u = slotDone fab slot 2 0 u) ∧
    (1 ≤ a0 → a0 ≤ 224 → (tokenMatches u (memBytes u (slotBase fab slot + 0x20) a0) = false → tokenService fab slot u = slotDone fab slot 7 0 u) ∧
      (tokenMatches u (memBytes u (slotBase fab slot + 0x20) a0) = true → tokenService fab slot u = slotDone fab slot
        (if u.patina.frozen || u.patina.freezing || u.patina.bellows then 8 else 0) 0 (clearCmd (firmwareMaster u) true { u with patina := { u.patina with auth := true } }))) := by
  unfold tokenService
  rw [← ha]
  dsimp only
  refine ⟨fun bad => if_pos bad, fun lo hi => ?_⟩
  rw [if_neg (by omega)]
  refine ⟨fun other => if_pos (by rw [other]; rfl), fun matches_ => ?_⟩
  rw [if_neg (by rw [matches_]; decide)]
  have authorized : ({ u with patina := { u.patina with auth := true } } : State) = modPat (fun p => { p with auth := true }) u := rfl
  have master : firmwareMaster (modPat (fun p => { p with auth := true }) u) = firmwareMaster u := by
    unfold firmwareMaster activePair
    simp only [rdReg_modPat]
  have held : (modPat (fun p => { p with auth := true }) u).patina = { u.patina with auth := true } := rfl
  rw [authorized, master, held]
  generalize modPat (fun p => { p with auth := true }) u = t
  dsimp only
  cases u.patina.frozen || u.patina.freezing || u.patina.bellows <;> rfl

theorem patCmdService_cases {fab : Bool} {slot a0 : Nat} {u : State} (ha : a0 = slotArg u fab slot 0) :
    (a0 = 0 ∨ 3 < a0 → patCmdService fab slot u = slotDone fab slot 2 (patOut u) u) ∧
    (a0 = 1 → patCmdService fab slot u = flushTrigger (slotWaits fab slot .flush u)) ∧
    (a0 = 2 → (u.patina.frozen || u.patina.freezing) = false → patCmdService fab slot u = freezeCmd (firmwareMaster u) (slotWaits fab slot .flush u)) ∧
    (a0 = 2 → (u.patina.frozen || u.patina.freezing) = true → ∀ t, t = freezeCmd (firmwareMaster u) u → patCmdService fab slot u = slotDone fab slot 8 (patOut t) t) ∧
    (a0 = 3 → ∀ t, t = thawCmd (firmwareMaster u) u → patCmdService fab slot u = slotDone fab slot (if u.patina.frozen then 0 else 8) (patOut t) t) := by
  unfold patCmdService
  rw [← ha]
  clear ha
  refine ⟨?_, ?_, ?_, ?_, ?_⟩
  · rintro (rfl | big)
    · rfl
    · obtain ⟨n, rfl⟩ := Nat.exists_eq_add_of_le' (Nat.succ_le_of_lt big)
      rfl
  · rintro rfl
    rfl
  · rintro rfl free
    exact if_neg (by rw [free]; decide)
  · rintro rfl held t rfl
    exact if_pos held
  · rintro rfl t rfl
    rfl

/-! ### UPDATE (18 R452-R459) -/

section
variable {fab : Bool} {slot : Nat} {img : UpdateImage} {cut : UpdateCut} {comp stat a1 a2 : Nat} {u : State}
  (hcomp : comp = slotArg u fab slot 0 % 16) (h1 : a1 = slotArg u fab slot 1) (h2 : a2 = slotArg u fab slot 2) (hstat : stat = (rdReg u updPage 0x700).toNat)
include hcomp h1 h2 hstat

/-- The refusals before the manifest is judged, and those of the image. -/
theorem updateService_refused : (u.journal.isSome = true → updateService fab slot img cut u = slotDone fab slot 6 stat u) ∧
    (u.journal = none → (5 < comp ∨ inBank a1 a2 = false ∨ a2 ≤ 0x1000 → updateService fab slot img cut u = slotDone fab slot 2 stat u) ∧
      (comp ≤ 5 → inBank a1 a2 = true → 0x1000 < a2 → (u.lifecycle = 3 → 4 ≤ comp → updateService fab slot img cut u = slotDone fab slot 7 stat u) ∧
        (u.lifecycle ≠ 3 ∨ comp < 4 → (updateSigned u img comp = false → updateService fab slot img cut u = updateRefused fab slot comp 3 u) ∧
          (updateSigned u img comp = true → (updateFits img comp a2 = false → updateService fab slot img cut u = updateRefused fab slot comp 4 u) ∧
            (updateFits img comp a2 = true → updateService fab slot img cut u =
              updateSteps ⟨comp, !committedB u comp, img.manifest, bankBase fab + a1, 0x1000 + img.manifest.len, Config.sha384 (memBytes u (bankBase fab + a1) (0x1000 + img.manifest.len)), 1, 0, [], false, 0, 0⟩
                img.readbackOk (cutStep cut) (slotWaits fab slot .update u)))))) := by
  unfold updateService
  rw [← hcomp, ← h1, ← h2, ← hstat]
  dsimp only
  refine ⟨fun open_ => if_pos open_, fun closed => ?_⟩
  rw [if_neg (by simp [closed])]
  refine ⟨fun bad => if_pos (by simpa using bad), fun small inside long => ?_⟩
  have legal : ¬ (5 < comp ∨ (!inBank a1 a2) = true ∨ a2 ≤ 0x1000) := by
    rw [inside]
    simp
    omega
  rw [if_neg legal]
  refine ⟨fun returned quarter => if_pos ⟨returned, quarter⟩, fun serves => ?_⟩
  rw [if_neg (by omega)]
  refine ⟨fun unsigned => if_pos (by simp [unsigned]), fun signed => ?_⟩
  rw [if_neg (by simp [signed])]
  exact ⟨fun misfit => if_pos (by simp [misfit]), fun fits => if_neg (by simp [fits])⟩

end

theorem updateSigned_not {u : State} {img : UpdateImage} {comp : Nat} : (img.signed = true → img.sigOk = false ∨ (4 ≤ comp ∧ u.keyFused = false) → updateSigned u img comp = false) ∧
    (img.signed = false → 2 ≤ u.lifecycle → updateSigned u img comp = false) := by
  unfold updateSigned
  refine ⟨fun signed bad => ?_, fun unsigned sealed_ => ?_⟩
  · rw [if_pos signed]
    rcases bad with bad | ⟨quarter, key⟩
    · rw [bad, Bool.false_and]
    · rw [key, decide_eq_false (by omega), Bool.or_false, Bool.and_false]
  · rw [if_neg (by simp [unsigned]), decide_eq_false (by omega)]

theorem updateFits_not {img : UpdateImage} {comp a2 : Nat} (bad : img.manifestOk = false ∨ img.manifest.comp ≠ comp ∨ slotSize comp < 0x1000 + img.manifest.len ∨ a2 < 0x1000 + img.manifest.len) :
    updateFits img comp a2 = false := by
  unfold updateFits
  rcases bad with bad | bad | bad | bad
  · rw [bad, Bool.false_and, Bool.false_and, Bool.false_and]
  · rw [beq_false_of_ne bad, Bool.and_false, Bool.false_and, Bool.false_and]
  · rw [decide_eq_false (by omega), Bool.and_false]
  · rw [decide_eq_false (by omega), Bool.and_false]

theorem updateFits_sizes {img : UpdateImage} {comp a2 : Nat} (fits : updateFits img comp a2 = true) : 0x1000 + img.manifest.len ≤ slotSize comp ∧ 0x1000 + img.manifest.len ≤ a2 := by
  unfold updateFits at fits
  exact of_decide_eq_true (Bool.and_eq_true_iff.1 fits).2

/-! ### The slot that waits for an update -/

section
variable {fab : Bool} {slot : Nat} {u : State}

theorem slotWaits_leaves (w : SlotWait) : (slotWaits fab slot w u).chans = u.chans ∧ (slotWaits fab slot w u).doms = u.doms ∧ (slotWaits fab slot w u).power = u.power ∧
    (slotWaits fab slot w u).journal = u.journal ∧ (slotWaits fab slot w u).taken = u.taken ++ [⟨fab, slot, w⟩] ∧
    rdReg (slotWaits fab slot w u) devPage 0x700 = rdReg u devPage 0x700 ∧ ∀ x, 0x800000 ≤ x → memByte (slotWaits fab slot w u) x = memByte u x := by
  unfold slotWaits
  have calm : Calm { u with taken := u.taken ++ [⟨fab, slot, w⟩] } (checkpoint { u with taken := u.taken ++ [⟨fab, slot, w⟩] }) := calm_bankPut ..
  refine ⟨calm.chans, calm.doms, calm.power, calm.journal, calm.taken, calm.judged devPage (.inl rfl), fun x hx => ?_⟩
  exact (checkpoint_facts _).1 x (.inr (le_trans (by decide) hx))

theorem updateBegins {comp : Nat} {j : Journal} (hs : slot < 32) (up : domLost u 8 = false) (closed : u.journal = none) (on : targetOn u (if fab then .fabricBank else .hostBank) = true)
    (step : j.step = 1) (fresh : j.chunks = 0) (hc : j.comp = comp) (small : comp ≤ 5) (pos : 0 < j.len) (fits : j.len ≤ slotSize comp) :
    UpdateBegins fab slot u.taken (slotWaits fab slot .update u) j := by
  obtain ⟨-, doms, power, journal, taken, -, -⟩ := slotWaits_leaves (fab := fab) (slot := slot) (u := u) .update
  have same : targetOn (slotWaits fab slot .update u) (if fab then .fabricBank else .hostBank) = targetOn u (if fab then .fabricBank else .hostBank) := by
    cases fab <;> exact congrArg (fun p => (smGet ({} : PowerState) p _).st == 0) power
  subst hc
  exact { slot_lt := hs, up := (domLost_of_doms doms 8).trans up, closed := journal.trans closed, on := same.trans on, taken := taken, step := step, fresh := fresh, small := small, pos := pos,
          fits := slot_fits small fits j.slotB }

end

/-! ### PROGRAM_LOAD, as the obligation states it -/

theorem programLoad_cases {fab : Bool} {slot a0 a1 : Nat} {u : State} (h0 : a0 = slotArg u fab slot 0) (h1 : a1 = slotArg u fab slot 1) (img : Image) (es : List Nat)
    (hes : es = img.engines.map (fun x => engKey x.eng)) :
    (inBank a0 a1 = false → programLoadService fab slot img u = slotDone fab slot 2 0 u) ∧
    (inBank a0 a1 = true → (bit (rdReg u devPage 0x700) 29 = true ∨ u.lifecycle = 3 → programLoadService fab slot img u = slotDone fab slot 7 0 u) ∧
      (bit (rdReg u devPage 0x700) 29 = false → u.lifecycle ≠ 3 →
        (img.signed = true → img.sigOk = false ∨ u.keyFused = false → programLoadService fab slot img u = slotDone fab slot 3 0 u) ∧
        (img.signed = false → 2 ≤ u.lifecycle → programLoadService fab slot img u = slotDone fab slot 3 0 u) ∧
        ((img.signed = true ∧ img.sigOk = true ∧ u.keyFused = true) ∨ (img.signed = false ∧ u.lifecycle < 2) →
          (versionsRun u img.assumed es = false → programLoadService fab slot img u = slotDone fab slot 4 0 u) ∧
          (versionsRun u img.assumed es = true → overBudget u img es = true → programLoadService fab slot img u = slotDone fab slot 5 0 u) ∧
          (versionsRun u img.assumed es = true → overBudget u img es = false → targetsBusy u img es = true → programLoadService fab slot img u = slotDone fab slot 6 0 u) ∧
          (versionsRun u img.assumed es = true → overBudget u img es = false → targetsBusy u img es = false → img.engines.all (fun x => x.bytes.all (fun b => placeable u b.1)) = false →
            programLoadService fab slot img u = slotDone fab slot 8 0 u) ∧
          (versionsRun u img.assumed es = true → overBudget u img es = false → targetsBusy u img es = false → img.engines.all (fun x => x.bytes.all (fun b => placeable u b.1)) = true →
            ∀ t, t = forEach img.engines (forEach img.engines (loadYields img es u) (fun x s => forEach x.bytes s (fun b s => memWrite b.1 [b.2] s))) releaseEngine →
              programLoadService fab slot img u = slotDone fab slot 0 (ftNs t) { t with loaded := otherImages t es ++ [⟨es, img.budget⟩] })))) := by
  subst h0 h1
  obtain ⟨unserved, serves⟩ := loadRefused_cases u img es
  refine ⟨fun out => programLoad_outside out, fun inside => ⟨fun h => programLoad_refused inside hes (unserved h), fun safe returned => ?_⟩⟩
  obtain ⟨unsigned, accepted⟩ := serves safe returned
  refine ⟨fun signed bad => programLoad_refused inside hes (unsigned ?_), fun plain sealed_ => programLoad_refused inside hes (unsigned ?_), fun signature => ?_⟩
  · rw [if_pos signed]
    rcases bad with bad | bad <;> simp [bad]
  · rw [if_neg (by simp [plain]), decide_eq_false (by omega)]
  · obtain ⟨versions, budget, busy, free⟩ := accepted (by
      rcases signature with ⟨signed, ok, key⟩ | ⟨plain, open_⟩
      · rw [if_pos signed, ok, key]
        rfl
      · rw [if_neg (by simp [plain]), decide_eq_true open_])
    refine ⟨fun v => programLoad_refused inside hes (versions v), fun v b => programLoad_refused inside hes (budget v b), fun v b t => programLoad_refused inside hes (busy v b t),
      fun v b t bad => (programLoad_accepted inside hes (free v b t)).trans (if_pos bad), fun v b t ok w hw => (programLoad_accepted inside hes (free v b t)).trans ?_⟩
    rw [if_neg (by simp [ok]), hw]

/-! ### UPDATE, as the obligation states it -/

section
variable {fab : Bool} {slot : Nat} {u : State} {j : Journal} {q : State}

/-- The copied image stands in its slot, as the slot's page tells of it. -/
theorem image_stands (hq : q = slotWaits fab slot .update u) (h : UpdateBegins fab slot u.taken q j) (wf : Memory.wf u.mem = true) (low : 0x800000 ≤ j.src) (high : j.src + j.len ≤ 0x2000000) :
    ∀ i, i < j.len → memByte (imageCopied j q) (slotContent j.comp j.slotB - 0x1000 + i) = memByte u (j.src + i) := by
  intro i hi
  have wfQ : Memory.wf q.mem = true := hq ▸ (keeps_slotWaits fab slot .update (Keeps.refl u)).mem wf
  obtain ⟨-, -, -, -, -, -, bytes⟩ := slotWaits_leaves (fab := fab) (slot := slot) (u := u) .update
  rw [h.bytes wfQ high i hi, hq]
  exact bytes _ (by omega)

theorem slotted_image (h : UpdateBegins fab slot u.taken q j) {i : Nat} (hi : i < j.len) : Slotted (slotContent j.comp j.slotB - 0x1000 + i) := by
  obtain ⟨lo, hi', away⟩ := h.fits
  unfold Slotted
  omega

theorem committedB_slotWaits (w : SlotWait) (comp : Nat) : committedB (slotWaits fab slot w u) comp = committedB u comp := by
  obtain ⟨-, -, -, -, -, -, bytes⟩ := slotWaits_leaves (fab := fab) (slot := slot) (u := u) w
  exact congrArg (bit · comp) (mramWord_congr fun x lo _ => bytes x (le_trans (by decide) lo))

end

/-- An update that is taken up goes through its steps. -/
theorem update_runs {fab : Bool} {slot : Nat} {u q t : State} {j j3 : Journal} {w : State} {cut : UpdateCut} {ok : Bool} (hq : q = slotWaits fab slot .update u)
    (h : UpdateBegins fab slot u.taken q j) (hj3 : j3 = { j with chunks := chunksOf j.len, step := 3 }) (hw : w = imageVerified j q) (ht : t = updateSteps j ok (cutStep cut) q)
    (low : 0x800000 ≤ j.src) (high : j.src + j.len ≤ 0x2000000) :
    (cut = .after 1 → (∃ x, t.journal = some x ∧ x.comp = j.comp ∧ x.slotB = j.slotB ∧ x.step = 1 ∧ x.line = 1) ∧ rdReg t updPage 0x700 = upStat true 1 j.comp j.slotB 0 0 ∧
      unverified t (slotKey j.comp j.slotB) = true ∧ t.chans = u.chans) ∧
    (cut = .after 2 → (∃ x, t.journal = some x ∧ x.step = 2 ∧ x.chunks = chunksOf j.len) ∧
      (Memory.wf u.mem = true → ∀ i, i < j.len → memByte t (slotContent j.comp j.slotB - 0x1000 + i) = memByte u (j.src + i))) ∧
    (cut = .none → (∀ x ∈ u.taken, x.wait ≠ .update) →
      (ok = false → t.journal = none ∧ rdReg t updPage 0x700 = upStat false 2 j.comp j.slotB 2 (chunksOf j.len) ∧ committedB t j.comp = committedB u j.comp ∧
        memByte t (slotBase fab slot + 0x100) = 2 ∧ memByte t (slotBase fab slot + 0x101) = 3) ∧
      (ok = true → journalTested j3 w = false → t.journal = none ∧ rdReg t updPage 0x700 = upStat false 4 j.comp j.slotB 3 (chunksOf j.len) ∧ committedB t j.comp = committedB u j.comp ∧
        memByte t (slotBase fab slot + 0x100) = 2 ∧ memByte t (slotBase fab slot + 0x101) = 4) ∧
      (ok = true → journalTested j3 w = true → j.comp ≠ 0 → bit (rdReg u devPage 0x700) 29 = false → (∀ b ∈ activationBlocks j.comp, blockFree w j.comp b = true) →
        t.journal = none ∧ rdReg t updPage 0x700 = upStat false 6 j.comp j.slotB 1 (chunksOf j.len) ∧ committedB t j.comp = j.slotB ∧ upVer t j.comp = j.manifest.version ∧
        memByte t (slotBase fab slot + 0x100) = 2 ∧ memByte t (slotBase fab slot + 0x101) = 0 ∧
        (Memory.wf u.mem = true → ∀ i, i < j.len → memByte t (slotContent j.comp j.slotB - 0x1000 + i) = memByte u (j.src + i))) ∧
      (ok = true → journalTested j3 w = true → (∀ b ∈ activationBlocks j.comp, blockFree w j.comp b = false) →
        (∃ x, t.journal = some x ∧ x.step = 5 ∧ x.left = activationBlocks j.comp) ∧ rdReg t updPage 0x700 = upStat true 5 j.comp j.slotB 0 (chunksOf j.len) ∧ bit (upSlots t) (8 + j.comp) = true ∧
        committedB t j.comp = committedB u j.comp)) := by
  have image := image_stands hq h
  have kept : committedB q j.comp = committedB u j.comp := hq ▸ committedB_slotWaits ..
  obtain ⟨chans, -, -, -, -, dev, -⟩ := slotWaits_leaves (fab := fab) (slot := slot) (u := u) .update
  rw [← hq] at chans dev
  subst hj3 hw ht
  rw [← kept, ← chans, ← dev]
  refine ⟨?_, ?_, ?_⟩
  · rintro rfl
    obtain ⟨journal, stat, mark⟩ := openJournal_shows h.up h.closed h.step h.fresh h.small
    have opens : updateSteps j ok (cutStep (.after 1)) q = openJournal j q := updateSteps_opened ..
    rw [opens]
    exact ⟨journal, stat, mark, (aside_openJournal ..).chans⟩
  · rintro rfl
    obtain ⟨-, ⟨number, line, journal⟩, -⟩ := h.copied
    have copies : updateSteps j ok (cutStep (.after 2)) q = imageCopied j q := updateSteps_copied ..
    rw [copies]
    exact ⟨⟨_, journal, rfl, rfl⟩, fun wf => image wf low high⟩
  · rintro rfl none_
    refine ⟨?_, ?_, ?_, ?_⟩
    · rintro rfl
      exact h.badReadback none_
    · rintro rfl untested
      exact h.untested none_ untested
    · rintro rfl tested comp safe free
      obtain ⟨journal, stat, slot_, version, state, result, stay⟩ := h.commits none_ tested comp safe free
      exact ⟨journal, stat, slot_, version, state, result, fun wf i hi => (stay _ (slotted_image h hi)).trans (image wf low high i hi)⟩
    · rintro rfl tested busy
      exact h.waits tested busy

/-- Settles O53: the services are taken up by `serve`; an update goes through its journal, whose steps leave the channels, the status that it judges and the bytes of its slot. -/
theorem servicesDoTheirWork : Obligations.ServicesDoTheirWork := by
  unfold Obligations.ServicesDoTheirWork
  intro fab slot s u again hagain runs rung on fresh hu code a0 a1 a2 hcode h0 h1 h2
  have run (is : Nat → Bool) (f : State → State) (this : is code = true) : serve fab slot.val is f s = f u :=
    (serve_runs hagain runs rung on fresh (by rw [← hcode]; exact this)).trans (congrArg f hu.symm)
  have up : domLost s 8 = false := by
    unfold firmwareRuns at runs
    simp only [Bool.and_eq_true, Bool.not_eq_true'] at runs
    exact runs.1.1
  have bank : BankOnly { s with taken := s.taken.filter (· != ⟨fab, slot.val, .again⟩) } u := hu ▸ takenUp_bank fab slot.val s
  have chans : u.chans = s.chans := bank.chans
  have lifecycle : u.lifecycle = s.lifecycle := bank.lifecycle
  have key : u.keyFused = s.keyFused := bank.keyFused
  refine ⟨?_, ?_, ?_, ?_, ?_, ?_, ?_, ?_, ?_, ?_⟩
  · rintro rfl img es hes
    have ex : exec (.programLoad fab slot img) s = .next (programLoadService fab slot.val img u) := congrArg Host.Outcome.next (run _ _ rfl)
    simp only [ex, Host.Outcome.next.injEq]
    exact programLoad_cases h0 h1 img es hes
  · rintro rfl img cut comp stat hcomp hstat
    have ex : exec (.update fab slot img cut) s = .next (updateService fab slot.val img cut u) := congrArg Host.Outcome.next (run _ _ rfl)
    simp only [ex, Host.Outcome.next.injEq]
    obtain ⟨journaled, closed⟩ := updateService_refused (fab := fab) (slot := slot.val) (img := img) (cut := cut) (h0 ▸ hcomp) h1 h2 hstat
    refine ⟨journaled, fun none_ => ?_⟩
    obtain ⟨bad, accepted⟩ := closed none_
    refine ⟨bad, fun small inside long => ?_⟩
    obtain ⟨returned, serves⟩ := accepted small inside long
    refine ⟨returned, fun served => ?_⟩
    obtain ⟨unsigned, signed⟩ := serves served
    refine ⟨unsigned, updateSigned_not.1, updateSigned_not.2, fun sig misfit => (signed sig).1 misfit, updateFits_not, ?_⟩
    rintro sig fits src n len j j3 v w rfl rfl rfl rfl rfl rfl rfl
    obtain ⟨sizes, sent⟩ := updateFits_sizes fits
    have doms : u.doms = s.doms := bank.doms
    have power : u.power = s.power := (congrArg State.power bank :)
    have place : targetOf s (slotBase fab slot.val) = if fab then .fabricBank else .hostBank := targetOf_slot slot.isLt le_rfl (by omega) s
    have onU : targetOn u (if fab then .fabricBank else .hostBank) = true := by
      rw [place] at on
      refine Eq.trans ?_ on
      cases fab <;> exact congrArg (fun p => (smGet ({} : PowerState) p _).st == 0) power
    have begins := updateBegins (fab := fab) (u := u) (comp := comp)
      (j := ⟨comp, !committedB u comp, img.manifest, bankBase fab + a1, 0x1000 + img.manifest.len, Config.sha384 (memBytes u (bankBase fab + a1) (0x1000 + img.manifest.len)), 1, 0, [], false, 0, 0⟩)
      slot.isLt ((domLost_of_doms doms 8).trans up) none_ onU rfl rfl rfl small (by show 0 < 0x1000 + img.manifest.len; omega) sizes
    refine ⟨(signed sig).2 fits, fun t ht => ?_⟩
    have inside' : a1 + a2 ≤ 0x400000 := (of_decide_eq_true inside).2
    have base_ : 0x800000 ≤ bankBase fab ∧ bankBase fab ≤ 0xC00000 := by cases fab <;> decide
    have wf : Memory.wf s.mem = true → Memory.wf u.mem = true := fun wf => hu ▸ (keeps_bankPut _ _ _ (keeps_clearBell _ _ (Keeps.refl _))).mem wf
    obtain ⟨opened_, copied_, through⟩ := update_runs rfl begins rfl rfl ht (by show 0x800000 ≤ bankBase fab + a1; omega) (by show bankBase fab + a1 + (0x1000 + img.manifest.len) ≤ 0x2000000; omega)
    rw [chans] at opened_
    refine ⟨opened_, fun e => ⟨(copied_ e).1, fun w => (copied_ e).2 (wf w)⟩, fun e waits => ?_⟩
    obtain ⟨badReadback, untested, commits, stays⟩ := through e waits
    refine ⟨badReadback, untested, fun ok tested other safe free => ?_, stays⟩
    obtain ⟨journal, shown, committed_, version, state, result, bytes⟩ := commits ok tested other safe free
    exact ⟨journal, shown, committed_, version, state, result, fun w => bytes (wf w)⟩
  · rintro rfl v rfl
    have ex : exec (.primer fab slot) s = .next (primerService fab slot.val u) := congrArg Host.Outcome.next (run _ _ rfl)
    simp only [ex, Host.Outcome.next.injEq]
    exact primerService_cases (by rw [h0])
  · rintro rfl
    have ex : exec (.patinaClearService fab slot) s = .next (tokenService fab slot.val u) := congrArg Host.Outcome.next (run _ _ rfl)
    simp only [ex, Host.Outcome.next.injEq]
    exact tokenService_cases h0
  · rintro rfl
    have ex : exec (.patinaCmd fab slot) s = .next (patCmdService fab slot.val u) := congrArg Host.Outcome.next (run _ _ rfl)
    simp only [ex, Host.Outcome.next.injEq]
    exact patCmdService_cases h0
  · rintro rfl x y target fuse
    have ex : exec (.lifecycle fab slot x y target fuse) s = .next (lifecycleService fab slot.val x y target.toNat fuse u) := congrArg Host.Outcome.next (run _ _ rfl)
    simp only [ex, Host.Outcome.next.injEq]
    obtain ⟨out, inside⟩ := lifecycle_refused (fab := fab) (slot := slot.val) (x := x) (y := y) (fuse := fuse) (target := target) (u := u)
    rw [← h0, ← h1] at out inside
    refine ⟨out, fun bank_ => ⟨(inside bank_).1, fun still => ⟨((inside bank_).2 still).1, fun next => ⟨((inside bank_).2 still).2 next, fun signed => ?_⟩⟩⟩⟩
    obtain ⟨moved, fused, wiping, kept⟩ := lifecycle_moves (fab := fab) (slot := slot.val) (fuse := fuse) (by rw [← h0, ← h1]; exact bank_) still next signed
    exact ⟨_, rfl, moved.trans (by rw [lifecycle]), fused.trans (by rw [key]), wiping, kept.trans chans⟩
  · rintro rfl pass p op hp ho t ht
    exact congrArg Host.Outcome.next ((run _ _ rfl).trans (mcService_result (h0 ▸ hp) (h0 ▸ ho) ht))
  · rintro rfl v rfl
    have ex : exec (.memPower fab slot) s = .next (memPowerService fab slot.val u) := congrArg Host.Outcome.next (run _ _ rfl)
    simp only [ex, Host.Outcome.next.injEq]
    exact memPower_cases h0 (by rw [h1])
  · rintro rfl v rfl
    have ex : exec (.domainResetService fab slot) s = .next (domainService fab slot.val u) := congrArg Host.Outcome.next (run _ _ rfl)
    simp only [ex, Host.Outcome.next.injEq]
    exact domainService_cases (by rw [h0])
  · rintro rfl
    obtain ⟨t, w, service, shown, bits, mem, kept⟩ := temperService_writes fab slot.val u
    exact ⟨t, w, congrArg Host.Outcome.next ((run _ _ rfl).trans service), shown, bits.trans (by rw [h0]), mem, kept.trans chans⟩

end Sys2Proof.Machine
end
